-- ==== Sys2Proof/Word.lean ====
section
/-! DEFINITION. The word types of the SV9624 model and their plainest arithmetic (R11: little-endian byte order). -/

namespace Sys2Proof

/-- A byte of an on-chip memory or of a frame. -/
abbrev Byte := BitVec 8
/-- A register word (R14). -/
abbrev W32 := BitVec 32
/-- A point value, a G register, a schedule word. -/
abbrev W64 := BitVec 64
/-- A loop-engine accumulator (R69). -/
abbrev W72 := BitVec 72

/-- Sparse data by key, keys rising: what a list of (key, value) pairs holds, the rest at a default. -/
abbrev Tbl (α : Type) := List (Nat × α)

/-- Bits [hi:lo] of a natural number (the manual's bit-range notation). -/
def bits (hi lo n : Nat) : Nat := n / 2 ^ lo % 2 ^ (hi + 1 - lo)

/-- The natural number of a flag. -/
def b2n (b : Bool) : Nat := if b then 1 else 0

/-- Little-endian bytes to a number (R11). -/
def leNat : List Byte → Nat
  | [] => 0
  | b :: r => b.toNat + 256 * leNat r

/-- The `n` little-endian bytes of a number (R11). -/
def leBytes : Nat → Nat → List Byte
  | 0, _ => []
  | n + 1, v => BitVec.ofNat 8 v :: leBytes n (v / 256)

/-- Most-significant-byte-first bytes to a number, the order of network frames (R11). -/
def beNat (l : List Byte) : Nat := leNat l.reverse

/-- The `n` bytes of a number, most significant first (R11). -/
def beBytes (n v : Nat) : List Byte := (leBytes n v).reverse

/-- A two's-complement reading of the low `w` bits of `n`. -/
def sgn (w n : Nat) : Int := let m := n % 2 ^ w; if m < 2 ^ (w - 1) then (m : Int) else (m : Int) - 2 ^ w

/-- The low `w` bits of an integer, as a natural number. -/
def unsgn (w : Nat) (x : Int) : Nat := (x % (2 ^ w : Int)).toNat

end Sys2Proof
end

