-- ==== Sys2Proof/Chan.lean ====
section
/-! DEFINITION. What an axis and a motion channel keep, and what awaits a boundary: the state that a channel state copy and a bulk copy carry (R253, R264). -/

namespace Sys2Proof.Machine

/-- A block-float pair: a word at an exponent (R69, R112); `num`: forming it saturated (R89, R139), which a pair that is kept does not carry. -/
structure Bf where
  w : Int := 0
  x : Int := 0
  num : Bool := false
  deriving DecidableEq, Repr

/-- A stage: its exponent, and the newest-first histories of its input and output (R118, R119). -/
structure Stage where
  x : Int := 0
  e : List Int := [0, 0, 0]
  u : List Int := [0, 0, 0]
  deriving DecidableEq, Repr

/-- An axis, beside its records in the cistern (R110, R115 to R147). -/
structure AxisSt where
  /-- bank bit ACTIVE, pending, check result and sticky status (R143 to R146) -/
  act : Bool := false
  pend : Bool := false
  chk : Bool := false
  period : Bool := false
  num : Bool := false
  /-- counters of the AXIS page -/
  lateErr : Nat := 0
  staleErr : Nat := 0
  /-- compensators of the position, velocity and third-level loops, notches, feedback filter (R118, R121) -/
  pc : Stage := {}
  vc : Stage := {}
  tc : Stage := {}
  nf : List Stage := [{}, {}, {}, {}]
  fbf : Stage := {}
  dHat : Bf := {}
  /-- re-initialised, with no fresh sample yet; with no velocity command yet (R140) -/
  first : Bool := true
  vFirst : Bool := true
  pAct : Int := 0
  vFb : Bf := {}
  vOld : Bf := {}
  vNew : Bf := {}
  vSet : Bf := {}
  trim : Bf := {}
  /-- tension estimate, and as it stood at the end of the previous cycle (R128) -/
  ten : Bf := {}
  tenPrev : Bf := {}
  /-- bits [5:0] of the status point, and STALE_RUN (R136) -/
  flags : BitVec 6 := 0
  staleRun : Nat := 0
  /-- consecutive cycles of low induced voltage (R134) -/
  lowRun : Nat := 0
  /-- axis point 4 as last sent, bits [15:0] of the status point at the last launch (R127, R147) -/
  sent4 : W64 := 0
  lib : BitVec 16 := 0
  deriving DecidableEq, Repr

/-- A profile: integer state, the segments left as (runs, jerk or acceleration), and its goal (R154, R156). -/
structure Prof where
  p : Int := 0
  v : Int := 0
  a : Int := 0
  /-- segments of constant jerk -/
  jerk : Bool := false
  segs : List (Nat × Int) := []
  busy : Bool := false
  /-- target position, or target velocity where `spd` -/
  tgt : Int := 0
  spd : Bool := false
  deriving DecidableEq, Repr

/-- A plan formed within the lead of a command: the state and the goal it was formed for, and its segments (R152, R156). -/
structure PlanSt where
  p : Int
  v : Int
  a : Int
  goal : Int
  segs : List (Nat × Int)
  deriving DecidableEq, Repr

/-- A motion command accepted and awaiting its cycle, with its plan once it is formed (R152, R153). -/
structure MotCmd where
  due : Nat
  op : Nat
  arg : Int
  spd : W32
  plan : Option PlanSt := none
  deriving DecidableEq, Repr

/-- How a channel's set-point is tied to another (R159 to R164). -/
inductive Rel where
  | own | gear | cam | path
  deriving DecidableEq, Repr

/-- A motion channel, beside its records (R148 to R170). -/
structure MotSt where
  act : Bool := false
  pend : Bool := false
  chk : Bool := false
  /-- STATE of R151 -/
  st : Nat := 0
  lost : Bool := false
  grade : Nat := 0
  ovf : Bool := false
  staged : Option Int := none
  cmd : Option MotCmd := none
  /-- own profile, or the path variable of an interpolation group -/
  prof : Prof := {}
  /-- superimposed move -/
  sup : Prof := {}
  rel : Rel := .own
  /-- engagement due at the next run -/
  engage : Rel := .own
  /-- master value at the anchor and at the previous run; follower base, its value at the anchor, remainder -/
  m0 : Int := 0
  mPrev : Int := 0
  pf : Int := 0
  pf0 : Int := 0
  rem : Int := 0
  /-- a relation that a stop or a re-initialisation ended, with its anchor, to which REREG_MOVE goes back (R165, R170) -/
  old : Rel := .own
  oldM : Int := 0
  oldP : Int := 0
  /-- interpolated move: L, own move, start -/
  len : Int := 0
  dp : Int := 0
  p0 : Int := 0
  pSet : Int := 0
  /-- last run's change of the set-point -/
  dPrev : Int := 0
  /-- root deceleration of the stop in force, in run units -/
  decel : Int := 0
  /-- re-registered since the path was lost; a re-registering move runs -/
  rereg : Bool := false
  rmove : Bool := false
  /-- STOP_CLR due at this boundary -/
  clrAt : Option Nat := none
  /-- bits [7:0] of the status word at the last launch -/
  mstat : Nat := 0
  deriving DecidableEq, Repr

/-- A stop that awaits its boundary (R167): channel (none: every group), grade (0: only PATH_LOST). -/
structure StopReq where
  due : Nat
  ch : Option Nat
  grade : Nat
  lost : Bool
  deriving DecidableEq, Repr

/-- A commit that awaits its boundary, with what passed its check (R26, R143, R144, R148). -/
structure CommitSt where
  due : Nat
  axes : List Nat
  chans : List Nat
  cams : List Nat
  deriving DecidableEq, Repr

/-- An intra-cycle delay-list entry (R58). -/
structure IntraEnt where
  tick : Nat
  task : Nat
  flag : Nat
  deriving DecidableEq, Repr

/-- An inter-cycle delay-list entry (R58): FLAG where `post`, else ARM. -/
structure InterEnt where
  per : Nat
  ph : Nat
  task : Nat
  flag : Nat
  post : Bool
  deriving DecidableEq, Repr

end Sys2Proof.Machine
end

