-- ==== Sys2Proof/Syntax.lean ====
section
/-! DEFINITION. The commands of the SV9624: one constructor per row of spec/opcode_table.json, with the operands that the environment supplies. -/

namespace Sys2Proof

/-- The masters of R441, with the cluster DMA of each cluster apart. -/
inductive Master where
  | host | steward0 | steward1 | safetyProc | dmaEngine | diagPort | device
  | cluDma (c : Fin 4)
  | receive | transmit | acq | snapshot
  deriving DecidableEq, Repr

/-- One access of a 32-bit register or cistern word. -/
inductive WordAcc where
  | read
  | write (w : W32)
  deriving DecidableEq, Repr

/-- One access of the internal address space: `n` bytes read, or the bytes written, lowest address first. -/
inductive MemAcc where
  | read (n : Nat)
  | write (bytes : List Byte)
  deriving DecidableEq, Repr

/-- A DMA descriptor as it stands in host memory (R334), without its written-back word 6. -/
structure DmaDesc where
  hostAddr : W64
  intAddr : W32
  word3 : W32
  next : W64
  deriving DecidableEq, Repr

/-- The phase-locked loops of R377. -/
inductive Pll where
  | system | surge | net | link
  deriving DecidableEq, Repr

/-- What ends standby (R369, R375): RTC alarm, field supply return, wake input, tracking error of one encoder. -/
inductive WakeSrc where
  | alarm | fieldReturn | wakeInput
  | trackError (k : Fin 2)
  deriving DecidableEq, Repr

/-- What asks for an ageing re-plan (R380): a write of AGE.REPLAN, or the 24 h timer. -/
inductive ReplanSrc where
  | write (m : Master) (w : W32)
  | timer
  deriving DecidableEq, Repr

/-- What the measurements of a re-plan find (R379, R380). -/
structure PlanMeas where
  /-- lowest VDD_CORE, in mV, at which every CLU and NET replica passes at 800 MHz -/
  vpass : Nat
  /-- highest passing clock of cluster c at 0.88 V with the margin, in 10 MHz, at [8c+7:8c] -/
  fmax : W32
  /-- every CLU replica passes at 1,000 MHz at 0.85 V with the margin -/
  surgePass : Bool
  /-- surge hours the ageing projection allows before the projected life falls below 20 years -/
  ageHours : Nat
  /-- worst slack in mV at VNOM and 800 MHz, signed -/
  slack : BitVec 16
  /-- months until that slack reaches 0 at 0.88 V -/
  months : Nat
  deriving DecidableEq, Repr

/-- What a boot step finds or decides when it ends DONE (R390, R392, R394). -/
structure BootFind where
  /-- step 4, 5: engines found faulty -/
  engines : BitVec 64 := 0
  /-- step 4: clusters whose memory cannot be repaired -/
  clusters : BitVec 4 := 0
  /-- step 4: cistern banks that cannot be repaired -/
  banks : List (Fin 128) := []
  /-- step 6: lanes that calibrate -/
  lanes : BitVec 28 := 0xFFFFFFF
  /-- step 7: the image that the ROM reads, byte by byte -/
  image : List Byte := []
  /-- step 10: the plan measured, none where no plan could be made -/
  plan : Option PlanMeas := none
  /-- duration of the boot in µs, at step 10 -/
  durUs : Nat := 0
  deriving DecidableEq, Repr

/-- What causes a warm reset (R388, R426). -/
inductive WarmCause where
  | bootStep | softReset | reboot | diagPort | supply
  deriving DecidableEq, Repr

/-- The memories that the background scrub reads (R30, R397). -/
inductive EccMem where
  /-- a point's word, met during a cycle's control work or not -/
  | pointStore (a : BitVec 20) (work : Bool)
  /-- IMEM or XMEM and YMEM of an engine, met by the engine's own read or not -/
  | leLocal (e : Fin 64) (imem : Bool) (reading : Bool)
  /-- cluster memory, with the engine whose read met it -/
  | clusterMem (c : Fin 4) (reader : Option (Fin 64))
  /-- a word of the cistern or of the acquisition buffer, with the master whose read met it -/
  | cistern (word : BitVec 21) (m : Option Master)
  | acqBuffer (word : BitVec 19) (m : Option Master)
  | portBuffer (p : Fin 24)
  | sumpLog (i : BitVec 12)
  | retention (both : Bool)
  deriving DecidableEq, Repr

/-- A management item of a mirror record (R256). -/
inductive MItem where
  /-- a register write that starts an action, performed in cycle `cyc` under the argument registers given -/
  | write (cyc : Nat) (addr : BitVec 24) (w : W32) (args : List (BitVec 24 × W32))
  /-- the plan of the command that a channel holds for boundary `due` -/
  | plan (ch : Fin 1056) (due : Nat) (z : Machine.PlanSt)
  /-- background traffic: the content of a cistern block, with the owner and the PRIVATE bit that the block has from boundary `at_`, 0 for at once: owner 2 for a block passed to engines, 1 for a block of an image -/
  | block (b : BitVec 15) (own : BitVec 2) (priv : Bool) (at_ : Nat) (bytes : List Byte)
  deriving DecidableEq, Repr

/-- An access as it reaches the page map or the cistern (R13, R325, R410). -/
inductive Access where
  | reg (m : Master) (addr : BitVec 24) (size : Nat) (acc : WordAcc)
  | cist (m : Master) (word : BitVec 21) (acc : WordAcc)
  | lock (m : Master) (page : BitVec 12) (w : W32) (clk : Nat)
  /-- the host's read of `n` bytes through BAR4 -/
  | acq (addr : W32) (n : Nat)
  deriving DecidableEq, Repr

/-- Which task of the Clesen library ends with a DONE (R114, R150; log 12): feedback, position, tension, velocity, third level, or the task of virtual axis `v`. -/
inductive LibTask where
  | none | fb | pos | ten | vel | third
  | virt (v : Fin 32)
  deriving DecidableEq, Repr

/-- A frame received on a port: its start in ns after the boundary of the present cycle, its bytes from the destination address to the end of the payload, and whether its FCS is right (R179, R187). -/
structure RxFrame where
  port : Fin 24
  start : Nat
  bytes : List Byte
  fcs : Bool
  deriving DecidableEq, Repr

/-- What an Announce message carries (R235): the data that the best master clock algorithm compares. -/
structure Announce where
  prio1 : BitVec 8
  cls : BitVec 8
  accuracy : BitVec 8
  variance : BitVec 16
  prio2 : BitVec 8
  identity : W64
  deriving DecidableEq, Repr

/-- What a plant port sends on its own time (R234). -/
inductive PtpSend where
  | sync | announce | delay
  deriving DecidableEq, Repr

/-- A frame received on a plant port: the network time at which it crossed the balls, its bytes without FCS, and whether its FCS is right (R327). -/
structure PlantFrame where
  stamp : W64
  frac : BitVec 16
  bytes : List Byte
  fcs : Bool
  deriving DecidableEq, Repr

/-- A serial word as it was received (R302): position bits, error bit and warning bit as levels, check bits, and the line delay that BiSS measures. -/
structure SerialWord where
  pos : BitVec 48
  err : Bool
  warn : Bool
  crc : BitVec 16
  dly : BitVec 16
  deriving DecidableEq, Repr

/-- What the field die samples for one bridge frame (R23, R271, R312): field inputs as read, output readback high, EDM inputs closed, reset input. -/
structure FieldSample where
  inp : BitVec 16
  rb : BitVec 16
  edm : BitVec 2
  rst : Bool
  deriving DecidableEq, Repr

/-- One end's bridge frame as it is sent (R20): by the main die, or by the field die with its sample. -/
inductive BridgeEnd where
  | main
  | field (x : FieldSample)
  deriving DecidableEq, Repr

/-- How a CAN transmission ends (R351 to R353): sent, arbitration lost, a bit error in the control or data field, or another error, which raises the transmit error counter unless ISO 11898-1 excepts it. -/
inductive CanEnd where
  | sent | lostArb | bitError
  | error (raises : Bool)
  deriving DecidableEq, Repr

/-- A valid CAN frame as it was received (R355, R359): point 8 (identifier, XTD, FDF, BRS, DLC, RTR, ESI), data bytes, time count and fraction of its SOF. -/
structure CanFrame where
  hdr : BitVec 38
  data : List Byte
  ts : W64
  frac : BitVec 16
  deriving DecidableEq, Repr

/-- A channel state copy (R253): the regions of its state list by internal address, its 32 points with their stale flags, its motion generator, and its axis. -/
structure ChanCopy where
  ch : Fin 1056
  regions : List (Nat × List Byte)
  pts : List (W64 × Bool)
  mot : Machine.MotSt
  axis : Machine.AxisSt
  deriving DecidableEq, Repr

/-- What the bulk copy of a join brings (R264, step 2): memory by internal address (IMEM image, graph regions, schedule banks, records and engine-owned blocks), those blocks, the motion records and cams, the axes and channels with their bank bits and pending commands, the delay lists, pending commit, stops, swap and time step, and the registers that show which banks are in service. -/
structure Bulk where
  mem : List (Nat × List Byte)
  owned : List (BitVec 15)
  motRec : Tbl W32
  camPend : Tbl W32
  axes : Tbl Machine.AxisSt
  mots : Tbl Machine.MotSt
  intra : Tbl (List Machine.IntraEnt)
  inter : Tbl (List Machine.InterEnt)
  commit : Option Machine.CommitSt
  stops : List Machine.StopReq
  swapDue : Option Nat
  step : Option (Nat × Int)
  regs : List (BitVec 24 × W32)
  deriving DecidableEq, Repr

/-- A point as it travels on the peer link: address, value, stale flag (R247). -/
abbrev PtImage := BitVec 20 × W64 × Bool

/-- A mirror record (R255). The active's: cycle count, RXMISS words, set-point entries sent null, digests by segment (CRC, number of entries), items. The standby's: cycle count, θ, role, NREADY, unaligned channels, mismatch reports, its input-list points. -/
inductive MirrorRec where
  | active (cycle : Nat) (rxMiss : List W32) (nulls : List (BitVec 12)) (digests : List (BitVec 5 × W64 × BitVec 16)) (items : List MItem)
  | standby (cycle : Nat) (theta : Option W64) (role : Fin 8) (nready : BitVec 8) (unaligned : List (Fin 1056)) (mismatches : List W32)
      (pts : List PtImage)
  deriving DecidableEq, Repr

/-- What a peer frame carries beside signals and records, which have rows of their own (R244): nothing; who the unit is, with its broken lines and the axes it sheds; the hold of a test pulse of a paralleled pair (R294); a channel state copy; background traffic; and that the standby has done an installation: 0 of a schedule, 1 of a graph or an IMEM image (R256). -/
inductive PeerContent where
  | idle
  | ident (role : Fin 8) (epoch : W32) (rank : Bool) (uid : W64) (brk : BitVec 24) (shed : List (Fin 1024))
  | pulse (q : Fin 2) (hold : Bool)
  | copy (c : ChanCopy)
  | item (i : MItem)
  | done (k : Fin 2)
  deriving DecidableEq, Repr


/-- Step 1 of the join (R243, R264, R294): what the other unit presents. `pages` holds the fields that must agree, by register, of those registers in which one differs from its reset value. -/
structure JoinId where
  role : Fin 8
  epoch : W32
  rank : Bool
  uid : W64
  pages : List (BitVec 24 × W32)
  psetCrc : W32
  deriving DecidableEq, Repr

/-- The operations and events of the table, in its order. -/
inductive Instr where
  /-- REGISTER_WRITE (R13). -/
  | registerWrite (m : Master) (addr : BitVec 24) (size : Nat) (acc : WordAcc)
  /-- COUNTER_CLEAR (R16). -/
  | counterClear (m : Master) (addr : BitVec 24) (w : W32)
  /-- COUNTER_LOW_READ (R17). -/
  | counterLowRead (m : Master) (addr : BitVec 24)
  /-- NOW_NS_READ (R240). -/
  | nowNsRead (m : Master)
  /-- INTERNAL_ACCESS (R32). -/
  | internalAccess (m : Master) (addr : W32) (acc : MemAcc)
  /-- ACQ_BUFFER_WRITE (R33). -/
  | acqBufferWrite (addr : BitVec 21)
  /-- STALLED_ACCESS_RESUME (R370). -/
  | stalledAccessResume (d : Fin 16)
  /-- BRIDGE_FRAME_SEND (R20). -/
  | bridgeFrameSend (d : BridgeEnd)
  /-- BRIDGE_FRAME_RECEIVE (R20). -/
  | bridgeFrameReceive (atField : Bool) (crcOk : Bool)
  /-- BRIDGE_FAULT (R21). -/
  | bridgeFault (atField : Bool)
  /-- BRIDGE_REFRESH (R22). -/
  | bridgeRefresh
  /-- BRIDGE_REFRESH_WITHDRAW (R22). -/
  | bridgeRefreshWithdraw
  /-- REFRESH_TIMEOUT (R22). -/
  | refreshTimeout
  /-- BRIDGE_PAGE_ACCESS (R24). -/
  | bridgePageAccess (m : Master) (addr : BitVec 24) (acc : WordAcc)
  /-- CYCLE_BOUNDARY (R40). -/
  | cycleBoundary (clk : BitVec 128)
  /-- NF_RECEIVE (R49). -/
  | nfReceive (f : RxFrame)
  /-- ACCEPTANCE_WINDOW_END (R49). -/
  | acceptanceWindowEnd (p : Fin 24) (k : Fin 4096)
  /-- SY_RECEIVE (R186). -/
  | syReceive (f : RxFrame)
  /-- CS_RECEIVE (R205). -/
  | csReceive (f : RxFrame)
  /-- PR_RECEIVE (R203). -/
  | prReceive (f : RxFrame)
  /-- RANK_CLASH_BACKOFF_END (R204). -/
  | rankClashBackoffEnd
  /-- PRIME_HALT (R204). -/
  | primeHalt
  /-- LISTEN_END (R203). -/
  | listenEnd
  /-- AS_RECEIVE (R210). -/
  | asReceive (f : RxFrame) (t3 : W64)
  /-- ASYNC_FRAME_RECEIVE (R209). -/
  | asyncFrameReceive (f : RxFrame) (cut : Bool)
  /-- SP_RECEIVE (R250). -/
  | spReceive (f : RxFrame)
  /-- RX_LEN_CUT (R197). -/
  | rxLenCut (p : Fin 24) (at_ rest : Nat)
  /-- TX_CUT (R197). -/
  | txCut (p : Fin 24)
  /-- GUARD_CLOSED (R199). -/
  | guardClosed (p : Fin 24)
  /-- DRIFT (R200). -/
  | drift (p : Fin 24) (k : Fin 4096)
  /-- LINE_BREAK (R201). -/
  | lineBreak (p : Fin 24)
  /-- RELAY_END (R201). -/
  | relayEnd (p : Fin 24)
  /-- SP_LAUNCH (R62). -/
  | spLaunch (p : Fin 24) (k : Fin 4096)
  /-- LAST_LAUNCH_COMPLETE (R27). -/
  | lastLaunchComplete
  /-- SNAPSHOT_PART (R27). -/
  | snapshotPart
  /-- DELAY_LIST_RELEASE (R58). -/
  | delayListRelease (c : Fin 4)
  /-- STALL_RELEASE (R60). -/
  | stallRelease
  /-- CLOCK_GATE_CLOSE (R35). -/
  | clockGateClose (c : Fin 4) (clocks : W32)
  /-- CONTEXT_SAVE_DONE (R56). -/
  | contextSaveDone (e : Fin 64)
  /-- CONTEXT_RESTORE_DONE (R56). -/
  | contextRestoreDone (e : Fin 64)
  /-- ENGINE_SELECT (R53). -/
  | engineSelect (e : Fin 64)
  /-- PREFETCH_LOAD (R55). -/
  | prefetchLoad (e : Fin 64)
  /-- DMA_IN_COMPLETE (R102). -/
  | dmaInComplete (e : Fin 64)
  /-- DMA_OUT_COMMIT (R48). -/
  | dmaOutCommit (e : Fin 64)
  /-- SHED_MAP_WRITE (R65). -/
  | shedMapWrite (m : Master) (i : Fin 32) (w : W32)
  /-- WITHDRAW_WRITE (R68). -/
  | withdrawWrite (m : Master) (c : Fin 4) (w : W32)
  /-- COMMIT_REQUEST (R26). -/
  | commitRequest (m : Master) (w : W32)
  /-- GINSTALL (R59). -/
  | ginstall (m : Master) (w : W32)
  /-- GINSTALL_COMPLETE (R59). -/
  | ginstallComplete
  /-- LOADIMEM (R72). -/
  | loadimem (m : Master) (w : W32)
  /-- LOADIMEM_COMPLETE (R72). -/
  | loadimemComplete (differs : Bool)
  /-- NOP (R81). -/
  | nop (e : Fin 64) (slot : BitVec 64) (last : Bool)
  /-- LD (R82). -/
  | ld (e : Fin 64) (y : Bool) (p : Fin 4) (dn : Fin 32) (md : Fin 4) (last : Bool)
  /-- LD2 (R82). -/
  | ld2 (e : Fin 64) (y : Bool) (p : Fin 4) (dn : Fin 32) (md : Fin 4) (last : Bool)
  /-- ST (R82). -/
  | st (e : Fin 64) (y : Bool) (p : Fin 4) (dn : Fin 32) (md : Fin 4) (last : Bool)
  /-- ST2 (R82). -/
  | st2 (e : Fin 64) (y : Bool) (p : Fin 4) (dn : Fin 32) (md : Fin 4) (last : Bool)
  /-- LID (R84). -/
  | lid (e : Fin 64) (r : Fin 32) (imm : W32)
  /-- LIG (R84). -/
  | lig (e : Fin 64) (r : Fin 32) (imm : W32)
  /-- LIGH (R84). -/
  | ligh (e : Fin 64) (r : Fin 32) (imm : W32)
  /-- LIP (R84). -/
  | lip (e : Fin 64) (p : Fin 32) (imm : W32)
  /-- LIX (R84). -/
  | lix (e : Fin 64) (r : Fin 32) (imm : W32)
  /-- B (R85). -/
  | b (e : Fin 64) (cond : Fin 32) (t : Fin 2048)
  /-- CALL (R85). -/
  | call (e : Fin 64) (t : Fin 2048)
  /-- RET (R85). -/
  | ret (e : Fin 64)
  /-- LOOP (R99). -/
  | loop (e : Fin 64) (lc : Fin 2) (rot creg : Bool) (dn : Fin 32) (count : BitVec 12) (stop : Fin 2048)
  /-- EVT (R106). -/
  | evt (e : Fin 64) (reg : Bool) (da : Fin 32) (flag : Fin 32) (t : BitVec 13)
  /-- DONE (R104). -/
  | done (e : Fin 64) (lib : LibTask)
  /-- YIELD (R105). -/
  | yield (e : Fin 64)
  /-- MAC4 (R86). -/
  | mac4 (e : Fin 64) (mode : Fin 4) (dx dy : Fin 32) (sum : Fin 4) (last : Bool)
  /-- MSU4 (R86). -/
  | msu4 (e : Fin 64) (mode : Fin 4) (dx dy : Fin 32) (sum : Fin 4) (last : Bool)
  /-- MPY4 (R86). -/
  | mpy4 (e : Fin 64) (mode : Fin 4) (dx dy : Fin 32) (sum : Fin 4) (last : Bool)
  /-- DOT (R86). -/
  | dot (e : Fin 64) (k n : Fin 4) (dx dy : Fin 32) (last : Bool)
  /-- DOTN (R86). -/
  | dotn (e : Fin 64) (k n : Fin 4) (dx dy : Fin 32) (last : Bool)
  /-- DOTZ (R86). -/
  | dotz (e : Fin 64) (k n : Fin 4) (dx dy : Fin 32) (last : Bool)
  /-- FTAP (R87). -/
  | ftap (e : Fin 64) (p q k : Fin 4) (neg z : Bool) (last : Bool)
  /-- CLRA (R86). -/
  | clra (e : Fin 64) (mask : BitVec 4) (last : Bool)
  /-- ADDA (R92). -/
  | adda (e : Fin 64) (d a : Fin 4) (sh : BitVec 6) (neg : Bool) (last : Bool)
  /-- ADD (R88). -/
  | add (e : Fin 64) (d a b : Fin 32) (last : Bool)
  /-- SUB (R88). -/
  | sub (e : Fin 64) (d a b : Fin 32) (last : Bool)
  /-- ADDS (R88). -/
  | adds (e : Fin 64) (d a b : Fin 32) (last : Bool)
  /-- SUBS (R88). -/
  | subs (e : Fin 64) (d a b : Fin 32) (last : Bool)
  /-- AND (R88). -/
  | and (e : Fin 64) (d a b : Fin 32) (last : Bool)
  /-- OR (R88). -/
  | or (e : Fin 64) (d a b : Fin 32) (last : Bool)
  /-- XOR (R88). -/
  | xor (e : Fin 64) (d a b : Fin 32) (last : Bool)
  /-- MIN (R88). -/
  | min (e : Fin 64) (d a b : Fin 32) (last : Bool)
  /-- MAX (R88). -/
  | max (e : Fin 64) (d a b : Fin 32) (last : Bool)
  /-- SEL (R88). -/
  | sel (e : Fin 64) (d a b : Fin 32) (last : Bool)
  /-- SHL (R88). -/
  | shl (e : Fin 64) (d a b : Fin 32) (last : Bool)
  /-- ASR (R88). -/
  | asr (e : Fin 64) (d a b : Fin 32) (last : Bool)
  /-- MOV (R88). -/
  | mov (e : Fin 64) (d a : Fin 32) (last : Bool)
  /-- NEG (R88). -/
  | neg (e : Fin 64) (d a : Fin 32) (last : Bool)
  /-- ABS (R88). -/
  | abs (e : Fin 64) (d a : Fin 32) (last : Bool)
  /-- SAT24 (R88). -/
  | sat24 (e : Fin 64) (d a : Fin 32) (last : Bool)
  /-- NOT (R88). -/
  | not (e : Fin 64) (d a : Fin 32) (last : Bool)
  /-- HDRM (R88). -/
  | hdrm (e : Fin 64) (d a : Fin 32) (last : Bool)
  /-- RFLG (R108). -/
  | rflg (e : Fin 64) (d : Fin 32) (last : Bool)
  /-- GETWCT (R88). -/
  | getwct (e : Fin 64) (d : Fin 32) (last : Bool)
  /-- CLRCC (R88). -/
  | clrcc (e : Fin 64) (last : Bool)
  /-- SETPA (R88). -/
  | setpa (e : Fin 64) (d a : Fin 32) (last : Bool)
  /-- SETPB (R88). -/
  | setpb (e : Fin 64) (d a : Fin 32) (last : Bool)
  /-- SETPL (R88). -/
  | setpl (e : Fin 64) (d a : Fin 32) (last : Bool)
  /-- SETPM (R88). -/
  | setpm (e : Fin 64) (d a : Fin 32) (last : Bool)
  /-- GETPA (R88). -/
  | getpa (e : Fin 64) (d a : Fin 32) (last : Bool)
  /-- GETLC (R88). -/
  | getlc (e : Fin 64) (d a : Fin 32) (last : Bool)
  /-- CMP (R88). -/
  | cmp (e : Fin 64) (a b : Fin 32) (last : Bool)
  /-- LDC (R76). -/
  | ldc (e : Fin 64) (d a b : Fin 32) (last : Bool)
  /-- STC (R76). -/
  | stc (e : Fin 64) (d a b : Fin 32) (last : Bool)
  /-- LDCG (R76). -/
  | ldcg (e : Fin 64) (d : Fin 16) (a b : Fin 32) (last : Bool)
  /-- STCG (R76). -/
  | stcg (e : Fin 64) (d : Fin 16) (a b : Fin 32) (last : Bool)
  /-- GADD (R88). -/
  | gadd (e : Fin 64) (d a b : Fin 16) (last : Bool)
  /-- GSUB (R88). -/
  | gsub (e : Fin 64) (d a b : Fin 16) (last : Bool)
  /-- GMOV (R88). -/
  | gmov (e : Fin 64) (d a : Fin 32) (last : Bool)
  /-- GNEG (R88). -/
  | gneg (e : Fin 64) (d a : Fin 32) (last : Bool)
  /-- GCMP (R88). -/
  | gcmp (e : Fin 64) (d a : Fin 32) (last : Bool)
  /-- GSXD (R88). -/
  | gsxd (e : Fin 64) (d a : Fin 32) (last : Bool)
  /-- GLO (R88). -/
  | glo (e : Fin 64) (d a : Fin 32) (last : Bool)
  /-- GHI (R88). -/
  | ghi (e : Fin 64) (d a : Fin 32) (last : Bool)
  /-- GSETH (R88). -/
  | gseth (e : Fin 64) (d a : Fin 32) (last : Bool)
  /-- RSTV (R88). -/
  | rstv (e : Fin 64) (d : Fin 32) (last : Bool)
  /-- GSH (R88). -/
  | gsh (e : Fin 64) (dir : Bool) (d a : Fin 16) (n : Fin 64) (last : Bool)
  /-- B2F (R96). -/
  | b2f (e : Fin 64) (d a : Fin 32) (k : Fin 8) (last : Bool)
  /-- F2B (R96). -/
  | f2b (e : Fin 64) (d a : Fin 32) (k : Fin 8) (last : Bool)
  /-- GMUL (R88). -/
  | gmul (e : Fin 64) (d a : Fin 16) (b : Fin 32) (last : Bool)
  /-- GDIV (R98). -/
  | gdiv (e : Fin 64) (d a : Fin 16) (b : Fin 32) (last : Bool)
  /-- ADDX (R97). -/
  | addx (e : Fin 64) (d a b : Fin 8) (last : Bool)
  /-- SUBX (R97). -/
  | subx (e : Fin 64) (d a b : Fin 8) (last : Bool)
  /-- MAXX (R97). -/
  | maxx (e : Fin 64) (d a b : Fin 8) (last : Bool)
  /-- MINX (R97). -/
  | minx (e : Fin 64) (d a b : Fin 8) (last : Bool)
  /-- MOVXD (R97). -/
  | movxd (e : Fin 64) (d : Fin 8) (a : Fin 32) (last : Bool)
  /-- MOVDX (R97). -/
  | movdx (e : Fin 64) (d : Fin 32) (a : Fin 8) (last : Bool)
  /-- NORM (R93). -/
  | norm (e : Fin 64) (dn : Fin 32) (c x : Fin 8) (last : Bool)
  /-- ALN (R94). -/
  | aln (e : Fin 64) (d : Fin 32) (xa xb : Fin 8) (last : Bool)
  /-- RDA (R91). -/
  | rda (e : Fin 64) (dn : Fin 32) (k : Fin 4) (sh : BitVec 5) (s24 : Bool) (last : Bool)
  /-- CVTF (R95). -/
  | cvtf (e : Fin 64) (d : Fin 32) (a : Fin 16) (xs xk : Fin 8) (last : Bool)
  /-- CVTI (R95). -/
  | cvti (e : Fin 64) (d : Fin 16) (a : Fin 32) (xa xs : Fin 8) (last : Bool)
  /-- LOCKUP (R107). -/
  | lockup (e : Fin 64)
  /-- CLR_FAULT (R107). -/
  | clrFault (m : Master) (e : Fin 64) (w : W32)
  /-- AXIS_AREA_WRITE (R110). -/
  | axisAreaWrite (m : Master) (w : W32)
  /-- AXIS_WINDOW_WRITE (R143). -/
  | axisWindowWrite (m : Master) (i : Fin 128) (w : W32)
  /-- AXIS_LOAD (R145). -/
  | axisLoad (m : Master) (w : W32)
  /-- MARK (R147). -/
  | mark (m : Master) (w : W32)
  /-- NOTCH (R122). -/
  | notch (m : Master) (w : W32)
  /-- MOTION_WINDOW_WRITE (R148). -/
  | motionWindowWrite (m : Master) (i : Fin 16) (w : W32)
  /-- CAM_TABLE_WRITE (R174). -/
  | camTableWrite (m : Master) (t : Fin 64) (w : W32)
  /-- MOVE_ABS (R153). -/
  | moveAbs (m : Master) (w : W32)
  /-- MOVE_REL (R153). -/
  | moveRel (m : Master) (w : W32)
  /-- SPEED (R157). -/
  | speed (m : Master) (w : W32)
  /-- GEAR (R159). -/
  | gear (m : Master) (w : W32)
  /-- CAM (R162). -/
  | cam (m : Master) (w : W32)
  /-- FREE (R160). -/
  | free (m : Master) (w : W32)
  /-- SUPER (R160). -/
  | super (m : Master) (w : W32)
  /-- GROUP_GO (R164). -/
  | groupGo (m : Master) (w : W32)
  /-- REREG_SHIFT (R170). -/
  | reregShift (m : Master) (w : W32)
  /-- REREG_MOVE (R170). -/
  | reregMove (m : Master) (w : W32)
  /-- MOTION_LOAD (R148). -/
  | motionLoad (m : Master) (w : W32)
  /-- STOP (R167). -/
  | stop (m : Master) (w : W32)
  /-- HALT (R167). -/
  | halt (m : Master) (w : W32)
  /-- STOP_CLR (R169). -/
  | stopClr (m : Master) (w : W32)
  /-- INSTALL (R194). -/
  | install (m : Master) (w : W32)
  /-- INSTALL_COMPLETE (R194). -/
  | installComplete
  /-- CLEAR (R213). -/
  | clear (m : Master) (w : W32)
  /-- SWAP_REQ (R195). -/
  | swapReq (m : Master) (w : W32)
  /-- REOPEN (R199). -/
  | reopen (m : Master) (p : Fin 24) (w : W32)
  /-- RESTART (R204). -/
  | restart (m : Master) (w : W32)
  /-- CLASH_CLR (R208). -/
  | clashClr (m : Master) (w : W32)
  /-- ASYNC_WINDOW_START (R209). -/
  | asyncWindowStart (p : Fin 24) (k : Fin 4096)
  /-- TX_RECORD_COMPLETE (R329). -/
  | txRecordComplete (p : Fin 26) (stamp : W64) (frac : BitVec 16) (cut : Bool)
  /-- AVERAGING_INSTANT (R223). -/
  | averagingInstant
  /-- RTC_REALIGN (R218). -/
  | rtcRealign
  /-- SET (R218). -/
  | set (m : Master) (w : W32)
  /-- STEP_ACCEPT (R232). -/
  | stepAccept (m : Master) (w : W32)
  /-- STEP_CANCEL (R232). -/
  | stepCancel (m : Master) (w : W32)
  /-- UPSTREAM_SYNC_EVENT (R230). -/
  | upstreamSyncEvent (master : W64) (ofs : W64)
  /-- HOLDOVER (R233). -/
  | holdover
  /-- HOLDOVER_END (R233). -/
  | holdoverEnd
  /-- DLINE_MEASURE (R228). -/
  | dlineMeasure
  /-- ANNOUNCE_RECEIVE (R235). -/
  | announceReceive (n : Fin 2) (a : Announce)
  /-- GM_RESUME (R235). -/
  | gmResume (n : Fin 2)
  /-- PTP_SYNC_SEND (R234). -/
  | ptpSyncSend (n : Fin 2) (what : PtpSend)
  /-- TIMED_LAUNCH (R236). -/
  | timedLaunch (p : Fin 26) (passed : Bool)
  /-- TT_ARM (R237). -/
  | ttArm (m : Master) (o : Fin 4) (w : W32)
  /-- TT_REARM_EFFECT (R237). -/
  | ttRearmEffect (o : Fin 4)
  /-- TT_OUTPUT_EDGE (R237). -/
  | ttOutputEdge (o : Fin 4)
  /-- CAPTURE_EDGE (R238). -/
  | captureEdge (n : Fin 8) (rise : Bool) (taken : W64)
  /-- CAPTURE_POP (R238). -/
  | capturePop (m : Master) (n : Fin 8)
  /-- PEER_FRAME_RECEIVE (R244). -/
  | peerFrameReceive (lane : Fin 2) (ok : Bool) (c : PeerContent)
  /-- LANE_DOWN (R244). -/
  | laneDown (lane : Fin 2)
  /-- RELINQUISH_RECEIVE (R259). -/
  | relinquishReceive
  /-- FAULTED_RECEIVE (R257). -/
  | faultedReceive
  /-- INPUT_IMAGE_SEND (R247). -/
  | inputImageSend
  /-- INPUT_IMAGE_RECEIVE (R247). -/
  | inputImageReceive (pts : List PtImage)
  /-- INPUT_EDGE_INSTANT (R247). -/
  | inputEdgeInstant
  /-- FORWARDED_FRAME_RECEIVE (R249). -/
  | forwardedFrameReceive (f : RxFrame)
  /-- MIRROR_RECORD_RECEIVE (R255). -/
  | mirrorRecordReceive (r : MirrorRec)
  /-- STATE_COPY_SEND (R253). -/
  | stateCopySend
  /-- CS_LOSS_TAKEOVER (R261). -/
  | csLossTakeover
  /-- PAIR_JOIN (R263). -/
  | pairJoin (j : JoinId)
  /-- BULK_COPY_COMPLETE (R264). -/
  | bulkCopyComplete (b : Bulk) (start : Nat)
  /-- SWAP (R265). -/
  | swap (m : Master) (w : W32)
  /-- SWAP_CANCEL (R266). -/
  | swapCancel (m : Master) (w : W32)
  /-- JOIN (R263). -/
  | join (m : Master) (w : W32)
  /-- SAFETY_EVALUATION (R272). -/
  | safetyEvaluation
  /-- SAFETY_INPUT_CHANGE (R276). -/
  | safetyInputChange (chB : Bool) (i : Fin 8) (level : Bool)
  /-- DISC_TIMEOUT (R277). -/
  | discTimeout (chB : Bool) (p : Fin 4)
  /-- ALIVE_TIMEOUT (R272). -/
  | aliveTimeout (chB : Bool)
  /-- XCOMP_TIMEOUT (R272). -/
  | xcompTimeout (chB : Bool)
  /-- INPUT_TEST_PULSE (R278). -/
  | inputTestPulse (tp : Fin 2) (low : BitVec 8)
  /-- OUTPUT_TEST_PULSE (R280). -/
  | outputTestPulse (q : Fin 2) (falls : Bool) (rises : Bool) (offHigh : Bool) (follows : Bool)
  /-- EDM_TIMEOUT (R281). -/
  | edmTimeout (chB : Bool) (q : Fin 2)
  /-- SO_OVL (R279). -/
  | soOvl (q : Fin 2)
  /-- VFSAF_OUT_OF_RANGE (R275). -/
  | vfsafOutOfRange
  /-- SS1_EXPIRY (R285). -/
  | ss1Expiry (g : Fin 4)
  /-- SS1_B_EXPIRY (R285). -/
  | ss1BExpiry (g : Fin 4)
  /-- RESET_PULSE (R287). -/
  | resetPulse (ms : Nat) (lowMs : Nat) (persists : Bool)
  /-- TP_OVERDUE (R294). -/
  | tpOverdue
  /-- PSET_INSTALL (R291). -/
  | psetInstall
  /-- ENTER_TEST (R293). -/
  | enterTest
  /-- LEAVE_TEST (R293). -/
  | leaveTest
  /-- ENCODER_TRANSITION (R300). -/
  | encoderTransition (n : Fin 8) (old : BitVec 3) (new : BitVec 3) (taken : W64)
  /-- Z_EDGE (R300). -/
  | zEdge (n : Fin 8) (taken : W64)
  /-- ENCODER_SAMPLE (R301). -/
  | encoderSample (n : Fin 8)
  /-- SERIAL_WORD_COMPLETE (R302). -/
  | serialWordComplete (n : Fin 8) (word : SerialWord)
  /-- SERIAL_TIMEOUT (R301). -/
  | serialTimeout (n : Fin 8)
  /-- ENC_FAULT (R303). -/
  | encFault (n : Fin 8)
  /-- ENC_LOAD (R300). -/
  | encLoad (m : Master) (n : Fin 8) (w : W32)
  /-- ZARM (R300). -/
  | zarm (m : Master) (n : Fin 8) (w : W32)
  /-- ENC_CLR (R303). -/
  | encClr (m : Master) (n : Fin 8) (w : W32)
  /-- OVL (R316). -/
  | ovl (k : Fin 16)
  /-- OTEMP (R316). -/
  | otemp (k : Fin 16)
  /-- OPEN (R316). -/
  | openWire (k : Fin 16)
  /-- SHORT_LP (R316). -/
  | shortLp (k : Fin 16)
  /-- GROUP_OVERLOAD (R317). -/
  | groupOverload (g : Fin 2)
  /-- UNDERVOLTAGE (R317). -/
  | undervoltage (g : Fin 2)
  /-- UNDERVOLTAGE_END (R317). -/
  | undervoltageEnd (g : Fin 2)
  /-- DIAG_CLEAR (R316). -/
  | diagClear (m : Master) (r : Fin 3) (w : W32)
  /-- WATCHDOG_TRIP (R320). -/
  | watchdogTrip
  /-- REARM (R320). -/
  | rearm (m : Master) (w : W32)
  /-- CAS (R324). -/
  | cas (m : Master) (w : W32)
  /-- CAS_EXECUTE (R324). -/
  | casExecute (k : Nat)
  /-- CISTERN_ACCESS (R325). -/
  | cisternAccess (m : Master) (word : BitVec 21) (acc : WordAcc)
  /-- SNAP_GO (R330). -/
  | snapGo (m : Master) (w : W32)
  /-- DMA_GO (R334). -/
  | dmaGo (m : Master) (c : Fin 8) (w : W32)
  /-- DMA_STOP (R336). -/
  | dmaStop (m : Master) (c : Fin 8) (w : W32) (d : DmaDesc) (data : List Byte) (n : Nat)
  /-- DMA_DESCRIPTOR_COMPLETE (R334). -/
  | dmaDescriptorComplete (c : Fin 8) (d : DmaDesc) (data : List Byte) (pcieErr : Bool)
  /-- ACQ_ARM (R342). -/
  | acqArm (m : Master) (w : W32)
  /-- ACQ_STOP (R344). -/
  | acqStop (m : Master) (w : W32)
  /-- FORCE (R341). -/
  | force (m : Master) (w : W32)
  /-- EXPORT (R347). -/
  | exportRec (m : Master) (w : W32)
  /-- EXPORT_COMPLETE (R347). -/
  | exportComplete
  /-- RELEASE (R345). -/
  | release (m : Master) (w : W32)
  /-- HOLDOFF_EXPIRY (R343). -/
  | holdoffExpiry
  /-- CAN_SYNC (R350). -/
  | canSync (n : Fin 4)
  /-- CAN_TX_REQ (R351). -/
  | canTxReq (m : Master) (n : Fin 4) (t : Fin 32) (w : W32)
  /-- CAN_CANCEL (R352). -/
  | canCancel (m : Master) (n : Fin 4) (t : Fin 32) (w : W32)
  /-- CAN_CLR (R354). -/
  | canClr (m : Master) (n : Fin 4) (t : Fin 32) (w : W32)
  /-- CAN_TX_START (R351). -/
  | canTxStart (n : Fin 4)
  /-- CAN_TX_END (R351). -/
  | canTxEnd (n : Fin 4) (out : CanEnd) (ts : W64) (frac : BitVec 16)
  /-- CAN_ID_CLASH (R354). -/
  | canIdClash (n : Fin 4)
  /-- CAN_BUSOFF (R358). -/
  | canBusoff (n : Fin 4)
  /-- RECOVER (R358). -/
  | recover (m : Master) (n : Fin 4) (w : W32)
  /-- CAN_RECOVERY_COMPLETE (R358). -/
  | canRecoveryComplete (n : Fin 4)
  /-- CAN_RECEIVE (R355). -/
  | canReceive (n : Fin 4) (f : CanFrame)
  /-- BSEL (R355). -/
  | bsel (m : Master) (n : Fin 4) (w : W32)
  /-- RXREL (R355). -/
  | rxrel (m : Master) (n : Fin 4) (w : W32)
  /-- PWR_REQ (R366). -/
  | pwrReq (m : Master) (w : W32)
  /-- POWER_TRANSITION_COMPLETE (R367). -/
  | powerTransitionComplete (d : Fin 16)
  /-- CLUSTER_OFF_EXECUTE (R371). -/
  | clusterOffExecute (c : Fin 4)
  /-- STANDBY (R374). -/
  | standby (m : Master) (w : W32)
  /-- STANDBY_ENTRY_COMPLETE (R374). -/
  | standbyEntryComplete
  /-- PWR_EN_RAISE (R374). -/
  | pwrEnRaise
  /-- AO_WAKE_EVENT (R375). -/
  | aoWakeEvent (src : WakeSrc)
  /-- VAUX_LOSS (R372). -/
  | vauxLoss
  /-- AO_BROWN_OUT (R372). -/
  | aoBrownOut
  /-- PLL_LOCK_LOSS (R378). -/
  | pllLockLoss (pll : Pll)
  /-- SURGE_REQ (R382). -/
  | surgeReq (m : Master) (w : W32)
  /-- SURGE_VOLTAGE_REACHED (R383). -/
  | surgeVoltageReached
  /-- SURGE_SAMPLE (R382). -/
  | surgeSample (hot : BitVec 16) (current : BitVec 16)
  /-- SURGE_HOUR (R382). -/
  | surgeHour
  /-- VOLTAGE_STEP (R381). -/
  | voltageStep (vout : Option Nat)
  /-- READ_IOUT (R381). -/
  | readIout (current : Option (BitVec 16))
  /-- PMB_ALERT (R381). -/
  | pmbAlert (status : BitVec 16)
  /-- REPLAN (R380). -/
  | replan (src : ReplanSrc)
  /-- REPLAN_COMPLETE (R380). -/
  | replanComplete (plan : Option PlanMeas)
  /-- AO_POWER_ON (R387). -/
  | aoPowerOn
  /-- RESET_RELEASE (R387). -/
  | resetRelease (bootsrc : Bool) (late : Bool)
  /-- SUPPLY_FAIL (R426). -/
  | supplyFail
  /-- WARM_RESET (R388). -/
  | warmReset (cause : WarmCause)
  /-- BOOT_STEP_DONE (R391). -/
  | bootStepDone (find : BootFind)
  /-- BOOT_STEP_FAIL (R391). -/
  | bootStepFail (detail : BitVec 8)
  /-- HOSTIMG (R394). -/
  | hostimg (m : Master) (w : W32)
  /-- CLEAR_JOURNAL (R391). -/
  | clearJournal (m : Master) (w : W32)
  /-- REBOOT (R388). -/
  | reboot (m : Master) (w : W32)
  /-- STAGE (R395). -/
  | stage (m : Master) (w : W32) (flashOk : Bool)
  /-- SELECT (R395). -/
  | select (m : Master) (w : W32)
  /-- COMMIT_VER (R395). -/
  | commitVer (m : Master) (w : W32)
  /-- DEBUG_UNLOCK (R396). -/
  | debugUnlock (key sig : List Byte)
  /-- TEST_ENGINE (R398). -/
  | testEngine (m : Master) (w : W32)
  /-- TEST_CISTBANK (R399). -/
  | testCistbank (m : Master) (w : W32)
  /-- TEST_SCRUB (R397). -/
  | testScrub (m : Master) (w : W32)
  /-- TEST_EYESCAN (R397). -/
  | testEyescan (m : Master) (w : W32)
  /-- TEST_SDSCAL (R397). -/
  | testSdscal (m : Master) (w : W32)
  /-- TEST_PORTLOOP (R397). -/
  | testPortloop (m : Master) (w : W32)
  /-- TEST_CAN (R397). -/
  | testCan (m : Master) (w : W32)
  /-- TEST_ENCODER (R397). -/
  | testEncoder (m : Master) (w : W32)
  /-- TEST_OFFLINE (R402). -/
  | testOffline (m : Master) (w : W32)
  /-- TEST_START (R399). -/
  | testStart (i : Nat)
  /-- TEST_COMPLETE (R401). -/
  | testComplete (i : Nat) (pass : Bool) (margin : BitVec 16)
  /-- TEST_TIMEOUT (R399). -/
  | testTimeout (i : Nat)
  /-- SRST (R408). -/
  | srst (m : Master) (page : BitVec 12) (w : W32)
  /-- LOCK (R410). -/
  | lock (m : Master) (page : BitVec 12) (w : W32) (clk : Nat)
  /-- EVT_SET (R407). -/
  | evtSet (m : Master) (page : BitVec 12) (w : W32)
  /-- ACK (R415). -/
  | ack (m : Master) (w : W32)
  /-- ENTRY0_READ (R420). -/
  | entry0Read (m : Master)
  /-- PORT_LINK_DOWN (R257). -/
  | portLinkDown (p : Fin 24) (peerUp : BitVec 24)
  /-- TIME_UNIT_FAULT (R257). -/
  | timeUnitFault
  /-- CS_LOSS (R203). -/
  | csLoss
  /-- VAUX_VALID (R372). -/
  | vauxValid
  /-- VFSAF_RETURN (R275). -/
  | vfsafReturn
  /-- SWITCH_COOLED (R316). -/
  | switchCooled (k : Fin 16)
  /-- ENCODER_TRACKING_SAMPLE (R376). -/
  | encoderTrackingSample (k : Fin 2) (a b : Bool)
  /-- CAN_BUS_ERROR (R349). -/
  | canBusError (n : Fin 4) (by8 : Bool)
  /-- PLANT_FRAME_RECEIVE (R327). -/
  | plantFrameReceive (n : Fin 2) (f : PlantFrame)
  /-- EMULATION_EDGE (R171). -/
  | emulationEdge (m : Fin 4)
  /-- ECC_SCRUB (R397). -/
  | eccScrub (mem : EccMem) (double : Bool)
  deriving DecidableEq, Repr

end Sys2Proof
end

