-- ==== Sys2Proof/Config.lean ====
section
/-! DEFINITION. What an implementation fixes and the values the manual leaves open: opaque constants, with no body a proof could see. -/

namespace Sys2Proof.Config

/-- A value the manual leaves open, fresh at each number (log 2). -/
opaque freeWord : Nat → Nat
/-- Fused register words: UMAC, UID and the SEC page (R213, R405), by register key (log 3). -/
opaque fuse : Nat → BitVec 32
/-- Content of the steward boot ROM (R31; log 10). -/
opaque bootRom : Nat → BitVec 8
/-- SHA-256 of a byte string (R291, R394), an outside standard (log 4). -/
opaque sha256 : List (BitVec 8) → List (BitVec 8)
/-- ECDSA P-256 verification of a signature over a hash, by key, hash and signature (R290, R394; log 4). -/
opaque ecdsaOk : List (BitVec 8) → List (BitVec 8) → List (BitVec 8) → Bool
/-- The plan of a motion as the stewards round it (R156), from what the manual fixes: jerk-limited, limits of velocity, acceleration and jerk, present position, velocity and acceleration, and a target (`true`: velocity), all in run units; runs and jerk or acceleration of each segment. It is followed where it meets what R156 asks (log 16). -/
opaque plan : Bool → Int → Int → Int → Int × Int × Int → Bool × Int → List (Nat × Int)
/-- offsetScaledLogVariance of the device's own clock, and its clock identity, which PTP compares and the manual does not give (R235; log 25). -/
opaque gmVariance : Nat
/-- The device's clock identity (R235; log 25). -/
opaque clockIdentity : Nat
/-- CRC-16 of a bridge frame, whose polynomial and layout the manual does not give: of the field die's frame or not, with its sequence number (R20; log 35). -/
opaque bridgeCrc : Bool → Nat → BitVec 16
/-- Safety address under which the message of a connection that no parameter set defines is formed (R283; log 30). -/
opaque undefAddress : Nat → BitVec 32
/-- The safe watchdog time T_SW in ns under which channel A checks the reset node's messages (R284, R288; log 31). -/
opaque resetWatchdog : Nat

/-- Sizes in bytes that the layout of peer traffic leaves open (R247, R255; log 40): 0 the header of a record, 1 a write item with `n` argument registers, 2 a plan of `n` segments, 3 an input image of `n` points, 4 a standby's record with `n` points. -/
opaque mirrorBytes : Nat → Nat → Nat

end Sys2Proof.Config
end

