-- ==== Sys2Proof/Machine/Tbl.lean ====
section
/-! DEFINITION. Sparse tables in one canonical form: keys strictly rising, no entry equal to what an unlisted key reads as. -/

namespace Sys2Proof.Machine

/-- What the table holds at `k`; an unlisted key reads as `d k`. -/
def tget {α : Type} (d : Nat → α) : Tbl α → Nat → α
  | [], k => d k
  | (j, v) :: r, k => if j = k then v else tget d r k

/-- Remove the entry of key `k`. -/
def tdel {α : Type} (k : Nat) : Tbl α → Tbl α
  | [] => []
  | (j, w) :: r => if j = k then tdel k r else (j, w) :: tdel k r

/-- Insert an entry before the first larger key. -/
def tins {α : Type} (k : Nat) (v : α) : Tbl α → Tbl α
  | [] => [(k, v)]
  | (j, w) :: r => if k < j then (k, v) :: (j, w) :: r else (j, w) :: tins k v r

/-- Write `v` at `k`, keeping the canonical form. -/
def tput {α : Type} [DecidableEq α] (d : Nat → α) (t : Tbl α) (k : Nat) (v : α) : Tbl α :=
  if v = d k then tdel k t else tins k v (tdel k t)

/-- The canonical form: keys strictly rising from `lo` on, no entry a default. -/
def twfFrom {α : Type} [DecidableEq α] (d : Nat → α) : Nat → Tbl α → Bool
  | _, [] => true
  | lo, (j, v) :: r => decide (lo ≤ j) && decide (v ≠ d j) && twfFrom d (j + 1) r

/-- The canonical form of a whole table. -/
def twf {α : Type} [DecidableEq α] (d : Nat → α) (t : Tbl α) : Bool := twfFrom d 0 t

/-- Forget every key from `lo` up to, and without, `hi`: those keys read as their default again. -/
def tdrop {α : Type} (lo hi : Nat) (t : Tbl α) : Tbl α := t.filter (fun e => e.1 < lo || hi ≤ e.1)

/-- Keep the keys from `lo` up to, and without, `hi`. -/
def tkeep {α : Type} (lo hi : Nat) (t : Tbl α) : Tbl α := t.filter (fun e => lo ≤ e.1 && e.1 < hi)

/-- Change the value at one key. -/
def tmod {α : Type} [DecidableEq α] (d : Nat → α) (t : Tbl α) (k : Nat) (f : α → α) : Tbl α := tput d t k (f (tget d t k))

end Sys2Proof.Machine
end

