-- ==== Sys2Proof/Machine/RegKinds.lean ====
section
/-! DEFINITION. The kinds of register field, block, page and power domain (R13, R363, R411). -/

namespace Sys2Proof.Machine

/-- The access types of R13; `cnt` is a field that only a write of zero clears (R16), `rsv` a reserved field (R12), `own` a field whose write is a command of its own. -/
inductive Acc where
  | rw | ro | w1c | wo | rwl | cnt | rsv | own
  deriving DecidableEq, Repr

/-- One row of a page table: the fields of `cnt` registers `stride` bytes apart, with the reserved codes of R12. -/
structure RegRow where
  ofs : Nat
  cnt : Nat
  stride : Nat
  hi : Nat
  lo : Nat
  acc : Acc
  rst : Nat
  bad : List (Nat × Nat)
  deriving DecidableEq, Repr

/-- A named register field: its register's key (page × 0x1000 + offset) and its bits. -/
structure Fld where
  addr : Nat
  hi : Nat
  lo : Nat
  deriving DecidableEq, Repr

/-- The blocks of the page map (R411). -/
inductive Blk where
  | SYS | PWR | AO | AGE | SUMP | CLU | CYC | LE | PORT | LEMAC | GUARD | TIME | PLANT | PEER | AXIS | MOTION | POINTS
  | ENC | EMU | CAPT | FIO | SAFE | CIST | HOST | ACQ | CAN | BOOT | TEST | SEC
  deriving DecidableEq, Repr

/-- The page map (R411): block, first page, number of pages. -/
def pageMap : List (Blk × Nat × Nat) :=
  [(.SYS, 0x000, 1), (.PWR, 0x001, 1), (.AO, 0x002, 1), (.AGE, 0x003, 1), (.SUMP, 0x004, 1), (.CLU, 0x010, 4), (.CYC, 0x014, 1),
   (.LE, 0x020, 64), (.PORT, 0x060, 24), (.LEMAC, 0x078, 1), (.GUARD, 0x079, 1), (.TIME, 0x07A, 1), (.PLANT, 0x07B, 2),
   (.PEER, 0x07D, 1), (.AXIS, 0x080, 1), (.MOTION, 0x081, 1), (.POINTS, 0x082, 1), (.ENC, 0x090, 8), (.EMU, 0x098, 1),
   (.CAPT, 0x099, 1), (.FIO, 0x0A0, 1), (.SAFE, 0x0A1, 1), (.CIST, 0x0B0, 1), (.HOST, 0x0B1, 1), (.ACQ, 0x0B2, 1),
   (.CAN, 0x0C0, 4), (.BOOT, 0x0D0, 1), (.TEST, 0x0D1, 1), (.SEC, 0x0D2, 1)]

/-- The block and the first page of a page, none where the page is unmapped (R412). -/
def blkOf (p : Nat) : Option (Blk × Nat) :=
  (pageMap.find? (fun r => r.2.1 ≤ p && p < r.2.1 + r.2.2)).map (fun r => (r.1, r.2.1))

/-- First page of a block. -/
def Blk.page (b : Blk) : Nat := ((pageMap.find? (fun r => r.1 == b)).map (fun r => r.2.1)).getD 0

/-- Power domain numbers (R363). -/
def dAO : Nat := 0
/-- FIELD (R363). -/
def dFIELD : Nat := 1
/-- SAFEB (R363). -/
def dSAFEB : Nat := 2
/-- STEWARD (R363). -/
def dSTEWARD : Nat := 3
/-- SAFEA (R363). -/
def dSAFEA : Nat := 4
/-- CLU0–CLU3 (R363). -/
def dCLU (c : Nat) : Nat := 5 + c
/-- NET (R363). -/
def dNET : Nat := 9
/-- SDSW (R363). -/
def dSDSW : Nat := 10
/-- SDSE (R363). -/
def dSDSE : Nat := 11
/-- LINK (R363). -/
def dLINK : Nat := 12
/-- CIST (R363). -/
def dCIST : Nat := 13
/-- HOST (R363). -/
def dHOST : Nat := 14
/-- AUX (R363). -/
def dAUX : Nat := 15

/-- The power domain of a port's SerDes half (R363). -/
def dPort (n : Nat) : Nat := if n < 12 then dSDSW else dSDSE

/-- The power domain of a page (R411, R19). -/
def pageDom (p : Nat) : Nat :=
  match blkOf p with
  | some (.AO, _) => dAO
  | some (.CLU, b) => dCLU (p - b)
  | some (.LE, b) => dCLU ((p - b) / 16)
  | some (.CYC, _) | some (.LEMAC, _) | some (.GUARD, _) | some (.TIME, _) | some (.AXIS, _) | some (.MOTION, _) | some (.POINTS, _) => dNET
  | some (.PORT, b) => dPort (p - b)
  | some (.PLANT, _) | some (.PEER, _) => dLINK
  | some (.ENC, _) | some (.EMU, _) | some (.CAPT, _) | some (.CAN, _) => dAUX
  | some (.FIO, _) => dFIELD
  | some (.SAFE, _) => dSAFEA
  | some (.CIST, _) | some (.ACQ, _) => dCIST
  | some (.HOST, _) => dHOST
  | _ => dSTEWARD

/-- The MSI-X vector of a page's group (R333). -/
def vecOf (p : Nat) : Nat :=
  match blkOf p with
  | some (.SYS, _) | some (.PWR, _) | some (.AO, _) | some (.AGE, _) | some (.SUMP, _) => 0
  | some (.BOOT, _) | some (.TEST, _) | some (.SEC, _) => 1
  | some (.CLU, _) | some (.CYC, _) | some (.LE, _) => 2
  | some (.PORT, _) => 3
  | some (.LEMAC, _) | some (.GUARD, _) => 4
  | some (.TIME, _) | some (.CAPT, _) => 5
  | some (.PLANT, _) => 6
  | some (.PEER, _) => 7
  | some (.AXIS, _) | some (.MOTION, _) | some (.POINTS, _) => 8
  | some (.ENC, _) | some (.EMU, _) => 9
  | some (.FIO, _) => 10
  | some (.SAFE, _) => 11
  | some (.CIST, _) => 12
  | some (.HOST, _) => 13
  | some (.ACQ, _) => 14
  | _ => 15

/-- Every mapped page, in order. -/
def allPages : List Nat := pageMap.flatMap (fun r => (List.range r.2.2).map (fun i => r.2.1 + i))

/-- The row holds the register at offset `o`. -/
def RegRow.hits (r : RegRow) (o : Nat) : Bool :=
  r.ofs ≤ o && (o - r.ofs) % r.stride == 0 && (o - r.ofs) / r.stride < r.cnt

/-- The bits of a row's field, in place. -/
def RegRow.mask (r : RegRow) : Nat := (2 ^ (r.hi + 1 - r.lo) - 1) * 2 ^ r.lo

end Sys2Proof.Machine
end

