-- ==== Sys2Proof/Machine/RegMap.lean ====
section
/-! DEFINITION. The register map (R406, R411 and the page tables of every chapter): one row per field, and the names of the fields the meanings use. -/

namespace Sys2Proof.Machine

/-- Fields of the common header of every page (R406): offset, count, stride, bits, access, reset, reserved codes. -/
def rowsHDR : List RegRow :=
  [⟨0, 1, 4, 31, 16, .ro, 0, []⟩,
   ⟨0, 1, 4, 15, 0, .ro, 0, []⟩,
   ⟨4, 1, 4, 31, 16, .ro, 0xb1, []⟩,
   ⟨4, 1, 4, 15, 0, .ro, 1, []⟩,
   ⟨8, 1, 4, 31, 3, .rsv, 0, []⟩,
   ⟨8, 1, 4, 2, 2, .rw, 0, []⟩,
   ⟨8, 1, 4, 1, 1, .wo, 0, []⟩,
   ⟨8, 1, 4, 0, 0, .rw, 1, []⟩,
   ⟨0xc, 1, 4, 31, 16, .ro, 0, []⟩,
   ⟨0xc, 1, 4, 15, 2, .rsv, 0, []⟩,
   ⟨0xc, 1, 4, 1, 1, .w1c, 0, []⟩,
   ⟨0xc, 1, 4, 0, 0, .w1c, 0, []⟩,
   ⟨0x10, 1, 4, 31, 0, .ro, 0, []⟩,
   ⟨0x14, 1, 4, 31, 0, .rw, 0, []⟩,
   ⟨0x18, 1, 4, 31, 0, .w1c, 0, []⟩,
   ⟨0x1c, 1, 4, 31, 0, .wo, 0, []⟩,
   ⟨0x20, 1, 4, 31, 0, .cnt, 1, []⟩,
   ⟨0x24, 1, 4, 31, 4, .rsv, 0, []⟩,
   ⟨0x24, 1, 4, 3, 0, .ro, 0, []⟩,
   ⟨0x28, 1, 4, 31, 31, .w1c, 0, []⟩,
   ⟨0x28, 1, 4, 30, 30, .ro, 0, []⟩,
   ⟨0x28, 1, 4, 29, 24, .rsv, 0, []⟩,
   ⟨0x28, 1, 4, 23, 20, .ro, 0, []⟩,
   ⟨0x28, 1, 4, 19, 16, .ro, 0, []⟩] ++
  [⟨0x28, 1, 4, 15, 12, .rsv, 0, []⟩,
   ⟨0x28, 1, 4, 11, 0, .ro, 0, []⟩,
   ⟨0x2c, 5, 4, 31, 0, .rsv, 0, []⟩]

/-- Fields of the SYS page (R418): offset, count, stride, bits, access, reset, reserved codes. -/
def rowsSYS : List RegRow :=
  [⟨0x40, 1, 4, 31, 16, .ro, 0x9624, []⟩,
   ⟨0x40, 1, 4, 15, 8, .ro, 0xb1, []⟩,
   ⟨0x40, 1, 4, 7, 0, .rsv, 0, []⟩,
   ⟨0x44, 1, 4, 31, 3, .rsv, 0, []⟩,
   ⟨0x44, 1, 4, 2, 0, .ro, 0, []⟩,
   ⟨0x48, 1, 4, 31, 16, .rsv, 0, []⟩,
   ⟨0x48, 1, 4, 15, 0, .rwl, 0, []⟩,
   ⟨0x4c, 1, 4, 31, 16, .rsv, 0, []⟩,
   ⟨0x4c, 1, 4, 15, 0, .cnt, 0, []⟩]

/-- Fields of the PWR page (R419): offset, count, stride, bits, access, reset, reserved codes. -/
def rowsPWR : List RegRow :=
  [⟨0x40, 1, 4, 31, 31, .wo, 0, []⟩,
   ⟨0x40, 1, 4, 30, 10, .rsv, 0, []⟩,
   ⟨0x40, 1, 4, 9, 8, .wo, 0, [(3, 3)]⟩,
   ⟨0x40, 1, 4, 7, 4, .rsv, 0, []⟩,
   ⟨0x40, 1, 4, 3, 0, .wo, 0, []⟩,
   ⟨0x44, 1, 4, 31, 8, .rsv, 0, []⟩,
   ⟨0x44, 1, 4, 7, 4, .ro, 0, []⟩,
   ⟨0x44, 1, 4, 3, 3, .rsv, 0, []⟩,
   ⟨0x44, 1, 4, 2, 0, .ro, 0, []⟩,
   ⟨0x48, 1, 4, 31, 0, .ro, 0, []⟩,
   ⟨0x4c, 1, 4, 31, 0, .ro, 0, []⟩,
   ⟨0x50, 1, 4, 31, 16, .rsv, 0, []⟩,
   ⟨0x50, 1, 4, 15, 0, .ro, 0, []⟩,
   ⟨0x54, 1, 4, 31, 4, .rsv, 0, []⟩,
   ⟨0x54, 1, 4, 3, 1, .ro, 0, []⟩,
   ⟨0x54, 1, 4, 0, 0, .wo, 0, []⟩,
   ⟨0x58, 1, 4, 31, 9, .rsv, 0, []⟩,
   ⟨0x58, 1, 4, 8, 8, .ro, 0, []⟩,
   ⟨0x58, 1, 4, 7, 4, .ro, 0, []⟩,
   ⟨0x58, 1, 4, 3, 0, .ro, 9, []⟩,
   ⟨0x5c, 1, 4, 31, 0, .ro, 0, []⟩,
   ⟨0x60, 1, 4, 31, 16, .rsv, 0, []⟩,
   ⟨0x60, 1, 4, 15, 0, .ro, 0, []⟩,
   ⟨0x64, 1, 4, 31, 16, .rsv, 0, []⟩] ++
  [⟨0x64, 1, 4, 15, 0, .cnt, 0, []⟩]

/-- Fields of the AO page (R385): offset, count, stride, bits, access, reset, reserved codes. -/
def rowsAO : List RegRow :=
  [⟨0x40, 1, 4, 31, 5, .rsv, 0, []⟩,
   ⟨0x40, 1, 4, 4, 4, .rw, 0, []⟩,
   ⟨0x40, 1, 4, 3, 3, .ro, 0, []⟩,
   ⟨0x40, 1, 4, 2, 2, .ro, 0, []⟩,
   ⟨0x40, 1, 4, 1, 1, .w1c, 1, []⟩,
   ⟨0x40, 1, 4, 0, 0, .w1c, 1, []⟩,
   ⟨0x44, 1, 4, 31, 15, .rsv, 0, []⟩,
   ⟨0x44, 1, 4, 14, 0, .rw, 0, []⟩,
   ⟨0x48, 1, 4, 31, 0, .rw, 0, []⟩,
   ⟨0x4c, 1, 4, 31, 16, .rsv, 0, []⟩,
   ⟨0x4c, 1, 4, 15, 0, .rw, 0, []⟩,
   ⟨0x50, 1, 4, 31, 0, .rw, 0, []⟩,
   ⟨0x54, 1, 4, 31, 16, .rsv, 0, []⟩,
   ⟨0x54, 1, 4, 15, 0, .rw, 0, []⟩,
   ⟨0x58, 1, 4, 31, 2, .rsv, 0, []⟩,
   ⟨0x58, 1, 4, 1, 1, .rw, 0, []⟩,
   ⟨0x58, 1, 4, 0, 0, .rw, 0, []⟩,
   ⟨0x5c, 1, 4, 31, 4, .rsv, 0, []⟩,
   ⟨0x5c, 1, 4, 3, 3, .rw, 0, []⟩,
   ⟨0x5c, 1, 4, 2, 1, .rw, 0, []⟩,
   ⟨0x5c, 1, 4, 0, 0, .rw, 0, []⟩,
   ⟨0x60, 1, 4, 31, 4, .rsv, 0, []⟩,
   ⟨0x60, 1, 4, 3, 3, .rw, 0, []⟩,
   ⟨0x60, 1, 4, 2, 2, .rw, 0, []⟩] ++
  [⟨0x60, 1, 4, 1, 1, .rw, 0, []⟩,
   ⟨0x60, 1, 4, 0, 0, .rw, 0, []⟩,
   ⟨0x64, 2, 12, 31, 3, .rsv, 0, []⟩,
   ⟨0x64, 2, 12, 2, 2, .w1c, 0, []⟩,
   ⟨0x64, 2, 12, 1, 1, .ro, 0, []⟩,
   ⟨0x64, 2, 12, 0, 0, .ro, 0, []⟩,
   ⟨0x68, 2, 12, 31, 0, .ro, 0, []⟩,
   ⟨0x6c, 2, 12, 31, 0, .ro, 0, []⟩,
   ⟨0x7c, 1, 4, 31, 16, .ro, 0, []⟩,
   ⟨0x7c, 1, 4, 15, 0, .ro, 0, []⟩]

/-- Fields of the AGE page (R386): offset, count, stride, bits, access, reset, reserved codes. -/
def rowsAGE : List RegRow :=
  [⟨0x40, 1, 4, 31, 16, .ro, 0xffff, []⟩,
   ⟨0x40, 1, 4, 15, 0, .ro, 0, []⟩,
   ⟨0x44, 1, 4, 31, 31, .ro, 0, []⟩,
   ⟨0x44, 1, 4, 30, 30, .ro, 0, []⟩,
   ⟨0x44, 1, 4, 29, 20, .rsv, 0, []⟩,
   ⟨0x44, 1, 4, 19, 10, .ro, 0, []⟩,
   ⟨0x44, 1, 4, 9, 0, .ro, 0, []⟩,
   ⟨0x48, 1, 4, 31, 0, .ro, 0, []⟩,
   ⟨0x4c, 1, 4, 31, 16, .ro, 0, []⟩,
   ⟨0x4c, 1, 4, 15, 4, .rsv, 0, []⟩,
   ⟨0x4c, 1, 4, 3, 2, .ro, 0, []⟩,
   ⟨0x4c, 1, 4, 1, 1, .ro, 0, []⟩,
   ⟨0x4c, 1, 4, 0, 0, .wo, 0, []⟩,
   ⟨0x50, 1, 4, 31, 16, .rwl, 0x3c, []⟩,
   ⟨0x50, 1, 4, 15, 11, .rsv, 0, []⟩,
   ⟨0x50, 1, 4, 10, 8, .ro, 0, []⟩,
   ⟨0x50, 1, 4, 7, 3, .rsv, 0, []⟩,
   ⟨0x50, 1, 4, 2, 2, .ro, 0, []⟩,
   ⟨0x50, 1, 4, 1, 1, .ro, 0, []⟩,
   ⟨0x50, 1, 4, 0, 0, .own, 0, []⟩,
   ⟨0x54, 1, 4, 31, 16, .cnt, 0, []⟩,
   ⟨0x54, 1, 4, 15, 0, .ro, 0, []⟩,
   ⟨0x58, 1, 4, 31, 17, .rsv, 0, []⟩,
   ⟨0x58, 1, 4, 16, 16, .rwl, 0, []⟩] ++
  [⟨0x58, 1, 4, 15, 0, .rwl, 0x384, []⟩,
   ⟨0x5c, 1, 4, 31, 16, .rsv, 0, []⟩,
   ⟨0x5c, 1, 4, 15, 0, .ro, 0, []⟩,
   ⟨0x60, 1, 4, 31, 16, .ro, 0, []⟩,
   ⟨0x60, 1, 4, 15, 0, .ro, 0, []⟩,
   ⟨0x64, 1, 4, 31, 21, .rsv, 0, []⟩,
   ⟨0x64, 1, 4, 20, 16, .ro, 0, []⟩,
   ⟨0x64, 1, 4, 15, 0, .ro, 0, []⟩,
   ⟨0x68, 1, 4, 31, 20, .rsv, 0, []⟩,
   ⟨0x68, 1, 4, 19, 16, .ro, 0, []⟩,
   ⟨0x68, 1, 4, 15, 0, .ro, 0, []⟩,
   ⟨0x6c, 1, 4, 31, 10, .rsv, 0, []⟩,
   ⟨0x6c, 1, 4, 9, 9, .rwl, 0, []⟩,
   ⟨0x6c, 1, 4, 8, 7, .rsv, 0, []⟩,
   ⟨0x6c, 1, 4, 6, 0, .rwl, 0x40, []⟩,
   ⟨0x70, 1, 4, 31, 0, .cnt, 0, []⟩,
   ⟨0x74, 1, 4, 31, 0, .cnt, 0, []⟩,
   ⟨0x78, 1, 4, 31, 16, .rsv, 0, []⟩,
   ⟨0x78, 1, 4, 15, 0, .cnt, 0, []⟩]

/-- Fields of the SUMP page (R420): offset, count, stride, bits, access, reset, reserved codes. -/
def rowsSUMP : List RegRow :=
  [⟨0x40, 1, 4, 31, 12, .rsv, 0, []⟩,
   ⟨0x40, 1, 4, 11, 0, .ro, 0, []⟩,
   ⟨0x44, 1, 4, 31, 29, .rsv, 0, []⟩,
   ⟨0x44, 1, 4, 28, 16, .ro, 0, []⟩,
   ⟨0x44, 1, 4, 15, 12, .rsv, 0, []⟩,
   ⟨0x44, 1, 4, 11, 0, .ro, 0, []⟩,
   ⟨0x48, 1, 4, 31, 13, .rsv, 0, []⟩,
   ⟨0x48, 1, 4, 12, 0, .wo, 0, []⟩,
   ⟨0x4c, 1, 4, 31, 31, .rw, 0, []⟩,
   ⟨0x4c, 1, 4, 30, 30, .rw, 0, []⟩,
   ⟨0x4c, 1, 4, 29, 12, .rsv, 0, []⟩,
   ⟨0x4c, 1, 4, 11, 0, .rw, 0, []⟩,
   ⟨0x50, 4, 4, 31, 0, .ro, 0, []⟩,
   ⟨0x60, 1, 4, 31, 5, .rsv, 0, []⟩,
   ⟨0x60, 1, 4, 4, 0, .ro, 0, []⟩,
   ⟨0x64, 1, 4, 31, 0, .cnt, 0, []⟩,
   ⟨0x68, 1, 4, 31, 16, .rsv, 0, []⟩,
   ⟨0x68, 1, 4, 15, 0, .cnt, 0, []⟩]

/-- Fields of the CLU page (R68): offset, count, stride, bits, access, reset, reserved codes. -/
def rowsCLU : List RegRow :=
  [⟨0x40, 1, 4, 31, 4, .rsv, 0, []⟩,
   ⟨0x40, 1, 4, 3, 3, .rw, 1, []⟩,
   ⟨0x40, 1, 4, 2, 2, .rw, 1, []⟩,
   ⟨0x40, 1, 4, 1, 0, .rw, 0, []⟩,
   ⟨0x44, 1, 4, 31, 16, .rsv, 0, []⟩,
   ⟨0x44, 1, 4, 15, 0, .own, 0, []⟩,
   ⟨0x48, 1, 4, 31, 16, .rsv, 0, []⟩,
   ⟨0x48, 1, 4, 15, 0, .ro, 0xffff, []⟩,
   ⟨0x4c, 4, 4, 31, 26, .rsv, 0, []⟩,
   ⟨0x4c, 4, 4, 25, 16, .cnt, 0, []⟩,
   ⟨0x4c, 4, 4, 15, 10, .rsv, 0, []⟩,
   ⟨0x4c, 4, 4, 9, 0, .ro, 0, []⟩,
   ⟨0x5c, 1, 4, 31, 0, .cnt, 0, []⟩,
   ⟨0x60, 1, 4, 31, 0, .cnt, 0, []⟩,
   ⟨0x64, 1, 4, 31, 0, .cnt, 0, []⟩,
   ⟨0x68, 1, 4, 31, 0, .cnt, 0, []⟩,
   ⟨0x6c, 1, 4, 31, 9, .rsv, 0, []⟩,
   ⟨0x6c, 1, 4, 8, 0, .ro, 0, []⟩,
   ⟨0x70, 1, 4, 31, 0, .ro, 0, []⟩,
   ⟨0x74, 1, 4, 31, 0, .cnt, 0, []⟩]

/-- Fields of the CYC page (R421): offset, count, stride, bits, access, reset, reserved codes. -/
def rowsCYC : List RegRow :=
  [⟨0x40, 1, 4, 31, 0, .ro, 0, []⟩,
   ⟨0x44, 1, 4, 31, 0, .ro, 0, []⟩,
   ⟨0x48, 1, 4, 31, 0, .ro, 0, []⟩,
   ⟨0x4c, 1, 4, 31, 1, .rsv, 0, []⟩,
   ⟨0x4c, 1, 4, 0, 0, .ro, 0, []⟩,
   ⟨0x50, 1, 4, 31, 0, .own, 0, []⟩,
   ⟨0x54, 1, 4, 31, 0, .rw, 0, []⟩,
   ⟨0x58, 1, 4, 31, 2, .rsv, 0, []⟩,
   ⟨0x58, 1, 4, 1, 1, .rw, 0, []⟩,
   ⟨0x58, 1, 4, 0, 0, .rw, 0, []⟩,
   ⟨0x5c, 1, 4, 31, 4, .rsv, 0, []⟩,
   ⟨0x5c, 1, 4, 3, 3, .w1c, 0, []⟩,
   ⟨0x5c, 1, 4, 2, 2, .w1c, 0, []⟩,
   ⟨0x5c, 1, 4, 1, 1, .w1c, 0, []⟩,
   ⟨0x5c, 1, 4, 0, 0, .ro, 0, []⟩,
   ⟨0x60, 1, 4, 31, 0, .cnt, 0, []⟩,
   ⟨0x64, 1, 4, 31, 0, .cnt, 0, []⟩,
   ⟨0x68, 1, 4, 31, 0, .cnt, 0, []⟩,
   ⟨0x6c, 1, 4, 31, 0, .cnt, 0, []⟩,
   ⟨0x70, 1, 4, 31, 16, .rsv, 0, []⟩,
   ⟨0x70, 1, 4, 15, 0, .cnt, 0, []⟩,
   ⟨0x74, 1, 4, 31, 27, .rsv, 0, []⟩,
   ⟨0x74, 1, 4, 26, 16, .ro, 0x320, []⟩,
   ⟨0x74, 1, 4, 15, 7, .rsv, 0, []⟩] ++
  [⟨0x74, 1, 4, 6, 0, .ro, 0x40, []⟩,
   ⟨0x78, 1, 4, 31, 0, .ro, 0, []⟩,
   ⟨0x7c, 1, 4, 31, 0, .ro, 0, []⟩,
   ⟨0x80, 32, 4, 31, 0, .own, 0, []⟩,
   ⟨0x100, 1, 4, 31, 31, .ro, 0, []⟩,
   ⟨0x100, 1, 4, 30, 28, .ro, 0, []⟩,
   ⟨0x100, 1, 4, 27, 22, .rw, 0, []⟩,
   ⟨0x100, 1, 4, 21, 18, .rsv, 0, []⟩,
   ⟨0x100, 1, 4, 17, 16, .wo, 0, [(3, 3)]⟩,
   ⟨0x100, 1, 4, 15, 15, .rsv, 0, []⟩,
   ⟨0x100, 1, 4, 14, 0, .rw, 0, []⟩,
   ⟨0x104, 1, 4, 31, 31, .w1c, 0, []⟩,
   ⟨0x104, 1, 4, 30, 20, .rsv, 0, []⟩,
   ⟨0x104, 1, 4, 19, 16, .ro, 0, []⟩,
   ⟨0x104, 1, 4, 15, 0, .ro, 0, []⟩,
   ⟨0x108, 1, 4, 31, 17, .rsv, 0, []⟩,
   ⟨0x108, 1, 4, 16, 16, .ro, 0, []⟩,
   ⟨0x108, 1, 4, 15, 0, .ro, 0, []⟩]

/-- Fields of the LE page (R109): offset, count, stride, bits, access, reset, reserved codes. -/
def rowsLE : List RegRow :=
  [⟨0x40, 1, 4, 31, 2, .rsv, 0, []⟩,
   ⟨0x40, 1, 4, 1, 1, .rw, 0, []⟩,
   ⟨0x40, 1, 4, 0, 0, .wo, 0, []⟩,
   ⟨0x44, 1, 4, 31, 29, .rsv, 0, []⟩,
   ⟨0x44, 1, 4, 28, 16, .ro, 0, []⟩,
   ⟨0x44, 1, 4, 15, 14, .ro, 0, []⟩,
   ⟨0x44, 1, 4, 13, 8, .rsv, 0, []⟩,
   ⟨0x44, 1, 4, 7, 7, .ro, 0, []⟩,
   ⟨0x44, 1, 4, 6, 6, .ro, 0, []⟩,
   ⟨0x44, 1, 4, 5, 3, .rsv, 0, []⟩,
   ⟨0x44, 1, 4, 2, 0, .ro, 0, []⟩,
   ⟨0x48, 1, 4, 31, 29, .rsv, 0, []⟩,
   ⟨0x48, 1, 4, 28, 16, .ro, 0, []⟩,
   ⟨0x48, 1, 4, 15, 5, .ro, 0, []⟩,
   ⟨0x48, 1, 4, 4, 0, .ro, 0, []⟩,
   ⟨0x4c, 1, 4, 31, 18, .rsv, 0, []⟩,
   ⟨0x4c, 1, 4, 17, 9, .rw, 0, []⟩,
   ⟨0x4c, 1, 4, 8, 0, .rsv, 0, []⟩,
   ⟨0x50, 1, 4, 31, 0, .cnt, 0, []⟩,
   ⟨0x54, 1, 4, 31, 0, .cnt, 0, []⟩,
   ⟨0x58, 1, 4, 31, 16, .rsv, 0, []⟩,
   ⟨0x58, 1, 4, 15, 0, .cnt, 0, []⟩,
   ⟨0x5c, 1, 4, 31, 0, .ro, 0, []⟩,
   ⟨0x60, 1, 4, 31, 0, .ro, 0, []⟩]

/-- Fields of the PORT page (R215): offset, count, stride, bits, access, reset, reserved codes. -/
def rowsPORT : List RegRow :=
  [⟨0x40, 1, 4, 31, 5, .rsv, 0, []⟩,
   ⟨0x40, 1, 4, 4, 4, .wo, 0, []⟩,
   ⟨0x40, 1, 4, 3, 3, .rw, 0, []⟩,
   ⟨0x40, 1, 4, 2, 1, .rw, 0, [(3, 3)]⟩,
   ⟨0x40, 1, 4, 0, 0, .rw, 0, []⟩,
   ⟨0x44, 1, 4, 31, 15, .rsv, 0, []⟩,
   ⟨0x44, 1, 4, 14, 8, .rw, 0, []⟩,
   ⟨0x44, 1, 4, 7, 7, .rsv, 0, []⟩,
   ⟨0x44, 1, 4, 6, 6, .rw, 0, []⟩,
   ⟨0x44, 1, 4, 5, 5, .rw, 0, []⟩,
   ⟨0x44, 1, 4, 4, 0, .rw, 0, []⟩,
   ⟨0x48, 1, 4, 31, 10, .rsv, 0, []⟩,
   ⟨0x48, 1, 4, 9, 0, .rw, 0x40, []⟩,
   ⟨0x4c, 1, 4, 31, 6, .rsv, 0, []⟩,
   ⟨0x4c, 1, 4, 5, 5, .ro, 0, []⟩,
   ⟨0x4c, 1, 4, 4, 4, .ro, 0, []⟩,
   ⟨0x4c, 1, 4, 3, 3, .ro, 0, []⟩,
   ⟨0x4c, 1, 4, 2, 2, .ro, 0, []⟩,
   ⟨0x4c, 1, 4, 1, 1, .ro, 0, []⟩,
   ⟨0x4c, 1, 4, 0, 0, .ro, 0, []⟩,
   ⟨0x50, 1, 4, 31, 16, .rsv, 0, []⟩,
   ⟨0x50, 1, 4, 15, 0, .ro, 0, []⟩,
   ⟨0x54, 1, 4, 31, 25, .rsv, 0, []⟩,
   ⟨0x54, 1, 4, 24, 16, .rw, 1, []⟩] ++
  [⟨0x54, 1, 4, 15, 15, .rsv, 0, []⟩,
   ⟨0x54, 1, 4, 14, 0, .rw, 0, []⟩,
   ⟨0x58, 1, 4, 31, 25, .rsv, 0, []⟩,
   ⟨0x58, 1, 4, 24, 16, .rw, 1, []⟩,
   ⟨0x58, 1, 4, 15, 15, .rsv, 0, []⟩,
   ⟨0x58, 1, 4, 14, 0, .rw, 0, []⟩,
   ⟨0x5c, 1, 4, 31, 0, .cnt, 0, []⟩,
   ⟨0x60, 1, 4, 31, 0, .cnt, 0, []⟩,
   ⟨0x64, 1, 4, 31, 0, .cnt, 0, []⟩,
   ⟨0x68, 1, 4, 31, 16, .rsv, 0, []⟩,
   ⟨0x68, 1, 4, 15, 0, .cnt, 0, []⟩,
   ⟨0x6c, 1, 4, 31, 16, .rsv, 0, []⟩,
   ⟨0x6c, 1, 4, 15, 0, .cnt, 0, []⟩,
   ⟨0x70, 1, 4, 31, 16, .rsv, 0, []⟩,
   ⟨0x70, 1, 4, 15, 0, .cnt, 0, []⟩,
   ⟨0x74, 1, 4, 31, 16, .rsv, 0, []⟩,
   ⟨0x74, 1, 4, 15, 0, .cnt, 0, []⟩,
   ⟨0x78, 1, 4, 31, 16, .rsv, 0, []⟩,
   ⟨0x78, 1, 4, 15, 0, .cnt, 0, []⟩,
   ⟨0x7c, 1, 4, 31, 16, .rsv, 0, []⟩,
   ⟨0x7c, 1, 4, 15, 0, .cnt, 0, []⟩,
   ⟨0x80, 1, 4, 31, 16, .rsv, 0, []⟩,
   ⟨0x80, 1, 4, 15, 0, .cnt, 0, []⟩,
   ⟨0x84, 1, 4, 31, 16, .rsv, 0, []⟩] ++
  [⟨0x84, 1, 4, 15, 0, .cnt, 0, []⟩,
   ⟨0x88, 1, 4, 31, 8, .rsv, 0, []⟩,
   ⟨0x88, 1, 4, 7, 0, .ro, 0, []⟩,
   ⟨0x8c, 1, 4, 31, 0, .ro, 0, []⟩,
   ⟨0x90, 1, 4, 31, 0, .cnt, 0, []⟩]

/-- Fields of the LEMAC page (R213): offset, count, stride, bits, access, reset, reserved codes. -/
def rowsLEMAC : List RegRow :=
  [⟨0x40, 1, 4, 31, 16, .rsv, 0, []⟩,
   ⟨0x40, 1, 4, 15, 0, .rwl, 0x88b6, []⟩,
   ⟨0x44, 1, 4, 31, 0, .rwl, 0xc1e50000, []⟩,
   ⟨0x48, 1, 4, 31, 16, .rsv, 0, []⟩,
   ⟨0x48, 1, 4, 15, 0, .rwl, 0x300, []⟩,
   ⟨0x4c, 1, 4, 31, 0, .rwl, 0, []⟩,
   ⟨0x50, 1, 4, 31, 16, .rsv, 0, []⟩,
   ⟨0x50, 1, 4, 15, 0, .rwl, 0, []⟩,
   ⟨0x54, 1, 4, 31, 0, .ro, 0, []⟩,
   ⟨0x58, 1, 4, 31, 0, .ro, 0, []⟩,
   ⟨0x5c, 1, 4, 31, 16, .rwl, 0x10, []⟩,
   ⟨0x5c, 1, 4, 15, 9, .rsv, 0, []⟩,
   ⟨0x5c, 1, 4, 8, 8, .rwl, 1, []⟩,
   ⟨0x5c, 1, 4, 7, 3, .rsv, 0, []⟩,
   ⟨0x5c, 1, 4, 2, 0, .rwl, 0, []⟩,
   ⟨0x60, 1, 4, 31, 31, .wo, 0, []⟩,
   ⟨0x60, 1, 4, 30, 11, .rsv, 0, []⟩,
   ⟨0x60, 1, 4, 10, 10, .ro, 0, []⟩,
   ⟨0x60, 1, 4, 9, 9, .w1c, 0, []⟩,
   ⟨0x60, 1, 4, 8, 8, .w1c, 0, []⟩,
   ⟨0x60, 1, 4, 7, 6, .rsv, 0, []⟩,
   ⟨0x60, 1, 4, 5, 4, .ro, 0, []⟩,
   ⟨0x60, 1, 4, 3, 3, .rsv, 0, []⟩,
   ⟨0x60, 1, 4, 2, 0, .ro, 0, []⟩] ++
  [⟨0x64, 1, 4, 31, 0, .ro, 0, []⟩,
   ⟨0x68, 1, 4, 31, 16, .ro, 0, []⟩,
   ⟨0x68, 1, 4, 15, 0, .ro, 0, []⟩,
   ⟨0x6c, 1, 4, 31, 31, .ro, 0, []⟩,
   ⟨0x6c, 1, 4, 30, 28, .ro, 0, []⟩,
   ⟨0x6c, 1, 4, 27, 18, .rsv, 0, []⟩,
   ⟨0x6c, 1, 4, 17, 16, .wo, 0, [(3, 3)]⟩,
   ⟨0x6c, 1, 4, 15, 15, .rsv, 0, []⟩,
   ⟨0x6c, 1, 4, 14, 0, .rw, 0, []⟩,
   ⟨0x70, 1, 4, 31, 31, .w1c, 0, []⟩,
   ⟨0x70, 1, 4, 30, 20, .rsv, 0, []⟩,
   ⟨0x70, 1, 4, 19, 16, .ro, 0, []⟩,
   ⟨0x70, 1, 4, 15, 13, .rsv, 0, []⟩,
   ⟨0x70, 1, 4, 12, 0, .ro, 0, []⟩,
   ⟨0x74, 1, 4, 31, 0, .rw, 0, []⟩,
   ⟨0x78, 1, 4, 31, 0, .rw, 0, []⟩,
   ⟨0x7c, 1, 4, 31, 4, .rsv, 0, []⟩,
   ⟨0x7c, 1, 4, 3, 3, .w1c, 0, []⟩,
   ⟨0x7c, 1, 4, 2, 2, .w1c, 0, []⟩,
   ⟨0x7c, 1, 4, 1, 1, .ro, 0, []⟩,
   ⟨0x7c, 1, 4, 0, 0, .wo, 0, []⟩,
   ⟨0x80, 1, 4, 31, 31, .w1c, 0, []⟩,
   ⟨0x80, 1, 4, 30, 30, .ro, 0, []⟩,
   ⟨0x80, 1, 4, 29, 27, .rsv, 0, []⟩] ++
  [⟨0x80, 1, 4, 26, 22, .ro, 0, []⟩,
   ⟨0x80, 1, 4, 21, 18, .rsv, 0, []⟩,
   ⟨0x80, 1, 4, 17, 12, .ro, 0, []⟩,
   ⟨0x80, 1, 4, 11, 6, .ro, 0, []⟩,
   ⟨0x80, 1, 4, 5, 0, .rsv, 0, []⟩,
   ⟨0x84, 1, 4, 31, 0, .ro, 0, []⟩,
   ⟨0x88, 1, 4, 31, 1, .rsv, 0, []⟩,
   ⟨0x88, 1, 4, 0, 0, .wo, 0, []⟩,
   ⟨0x8c, 1, 4, 31, 0, .cnt, 0, []⟩]

/-- Fields of the GUARD page (R214): offset, count, stride, bits, access, reset, reserved codes. -/
def rowsGUARD : List RegRow :=
  [⟨0x40, 1, 4, 31, 16, .rsv, 0, []⟩,
   ⟨0x40, 1, 4, 15, 8, .rwl, 8, []⟩,
   ⟨0x40, 1, 4, 7, 0, .rwl, 0x10, []⟩,
   ⟨0x44, 1, 4, 31, 24, .rsv, 0, []⟩,
   ⟨0x44, 1, 4, 23, 0, .ro, 0, []⟩,
   ⟨0x48, 1, 4, 31, 21, .rsv, 0, []⟩,
   ⟨0x48, 1, 4, 20, 16, .rw, 0, []⟩,
   ⟨0x48, 1, 4, 15, 12, .rsv, 0, []⟩,
   ⟨0x48, 1, 4, 11, 0, .rw, 0, []⟩,
   ⟨0x4c, 1, 4, 31, 0, .ro, 0x80000000, []⟩,
   ⟨0x80, 48, 4, 31, 0, .w1c, 0, []⟩]

/-- Fields of the TIME page (R240): offset, count, stride, bits, access, reset, reserved codes. -/
def rowsTIME : List RegRow :=
  [⟨0x40, 1, 4, 31, 16, .rsv, 0, []⟩,
   ⟨0x40, 1, 4, 15, 8, .rwl, 0x10, []⟩,
   ⟨0x40, 1, 4, 7, 7, .rsv, 0, []⟩,
   ⟨0x40, 1, 4, 6, 4, .rwl, 2, []⟩,
   ⟨0x40, 1, 4, 3, 2, .rsv, 0, []⟩,
   ⟨0x40, 1, 4, 1, 0, .rwl, 0, [(3, 3)]⟩,
   ⟨0x44, 1, 4, 31, 0, .ro, 0, []⟩,
   ⟨0x48, 1, 4, 31, 0, .ro, 0, []⟩,
   ⟨0x4c, 1, 4, 31, 16, .rsv, 0, []⟩,
   ⟨0x4c, 1, 4, 15, 0, .ro, 0, []⟩,
   ⟨0x50, 1, 4, 31, 16, .rsv, 0, []⟩,
   ⟨0x50, 1, 4, 15, 0, .ro, 0, []⟩,
   ⟨0x54, 1, 4, 31, 0, .ro, 0, []⟩,
   ⟨0x58, 1, 4, 31, 24, .rwl, 0xa, []⟩,
   ⟨0x58, 1, 4, 23, 20, .rsv, 0, []⟩,
   ⟨0x58, 1, 4, 19, 0, .rwl, 0x186a0, []⟩,
   ⟨0x5c, 1, 4, 31, 0, .rwl, 0x3e8, []⟩,
   ⟨0x60, 1, 4, 31, 16, .rsv, 0, []⟩,
   ⟨0x60, 1, 4, 15, 12, .ro, 0, []⟩,
   ⟨0x60, 1, 4, 11, 10, .rsv, 0, []⟩,
   ⟨0x60, 1, 4, 9, 8, .ro, 0, []⟩,
   ⟨0x60, 1, 4, 7, 7, .rsv, 0, []⟩,
   ⟨0x60, 1, 4, 6, 6, .ro, 0, []⟩,
   ⟨0x60, 1, 4, 5, 5, .w1c, 0, []⟩] ++
  [⟨0x60, 1, 4, 4, 4, .ro, 0, []⟩,
   ⟨0x60, 1, 4, 3, 3, .ro, 0, []⟩,
   ⟨0x60, 1, 4, 2, 2, .ro, 0, []⟩,
   ⟨0x60, 1, 4, 1, 1, .w1c, 0, []⟩,
   ⟨0x60, 1, 4, 0, 0, .rsv, 0, []⟩,
   ⟨0x64, 1, 4, 31, 0, .ro, 0, []⟩,
   ⟨0x68, 1, 4, 31, 0, .ro, 0, []⟩,
   ⟨0x6c, 1, 4, 31, 0, .ro, 0, []⟩,
   ⟨0x70, 1, 4, 31, 26, .rsv, 0, []⟩,
   ⟨0x70, 1, 4, 25, 16, .rwl, 0x10, []⟩,
   ⟨0x70, 1, 4, 15, 0, .rsv, 0, []⟩,
   ⟨0x74, 1, 4, 31, 0, .rw, 0, []⟩,
   ⟨0x78, 1, 4, 31, 0, .rw, 0, []⟩,
   ⟨0x7c, 1, 4, 31, 0, .rw, 0, []⟩,
   ⟨0x80, 1, 4, 31, 0, .rw, 0, []⟩,
   ⟨0x84, 1, 4, 31, 2, .rsv, 0, []⟩,
   ⟨0x84, 1, 4, 1, 1, .wo, 0, []⟩,
   ⟨0x84, 1, 4, 0, 0, .wo, 0, []⟩,
   ⟨0x88, 1, 4, 31, 0, .rw, 0, []⟩,
   ⟨0x8c, 1, 4, 31, 0, .rw, 0, []⟩,
   ⟨0x90, 1, 4, 31, 16, .rsv, 0, []⟩,
   ⟨0x90, 1, 4, 15, 0, .rw, 0, []⟩,
   ⟨0x94, 1, 4, 31, 1, .rsv, 0, []⟩,
   ⟨0x94, 1, 4, 0, 0, .wo, 0, []⟩] ++
  [⟨0x98, 1, 4, 31, 16, .rwl, 0x3e8, []⟩,
   ⟨0x98, 1, 4, 15, 8, .rsv, 0, []⟩,
   ⟨0x98, 1, 4, 7, 0, .rwl, 0xff, []⟩,
   ⟨0x9c, 1, 4, 31, 16, .rsv, 0, []⟩,
   ⟨0x9c, 1, 4, 15, 8, .ro, 0, []⟩,
   ⟨0x9c, 1, 4, 7, 0, .ro, 0, []⟩,
   ⟨0xa0, 1, 4, 31, 3, .rsv, 0, []⟩,
   ⟨0xa0, 1, 4, 2, 0, .rw, 0, []⟩,
   ⟨0xa4, 1, 4, 31, 0, .ro, 0x80000000, []⟩,
   ⟨0xa8, 1, 4, 31, 31, .ro, 0, []⟩,
   ⟨0xa8, 1, 4, 30, 21, .rsv, 0, []⟩,
   ⟨0xa8, 1, 4, 20, 16, .ro, 0, []⟩,
   ⟨0xa8, 1, 4, 15, 11, .rsv, 0, []⟩,
   ⟨0xa8, 1, 4, 10, 0, .ro, 0, []⟩,
   ⟨0xac, 1, 4, 31, 16, .rsv, 0, []⟩,
   ⟨0xac, 1, 4, 15, 0, .rw, 0x25, []⟩,
   ⟨0xb0, 1, 4, 31, 0, .cnt, 0, []⟩,
   ⟨0xb4, 1, 4, 31, 16, .rsv, 0, []⟩,
   ⟨0xb4, 1, 4, 15, 0, .cnt, 0, []⟩,
   ⟨0xb8, 1, 4, 31, 16, .rsv, 0, []⟩,
   ⟨0xb8, 1, 4, 15, 0, .cnt, 0, []⟩,
   ⟨0xbc, 1, 4, 31, 16, .rsv, 0, []⟩,
   ⟨0xbc, 1, 4, 15, 0, .cnt, 0, []⟩,
   ⟨0x100, 26, 4, 31, 24, .rwl, 0, []⟩] ++
  [⟨0x100, 26, 4, 23, 16, .rwl, 0, []⟩,
   ⟨0x100, 26, 4, 15, 0, .rwl, 0, []⟩]

/-- Fields of the PLANT page (R242, R337): offset, count, stride, bits, access, reset, reserved codes. -/
def rowsPLANT : List RegRow :=
  [⟨0x40, 1, 4, 31, 24, .rwl, 0, []⟩,
   ⟨0x40, 1, 4, 23, 20, .rsv, 0, []⟩,
   ⟨0x40, 1, 4, 19, 19, .rwl, 0, []⟩,
   ⟨0x40, 1, 4, 18, 18, .rwl, 0, []⟩,
   ⟨0x40, 1, 4, 17, 16, .rwl, 0, [(3, 3)]⟩,
   ⟨0x40, 1, 4, 15, 14, .rwl, 0, [(2, 3)]⟩,
   ⟨0x40, 1, 4, 13, 0, .rsv, 0, []⟩,
   ⟨0x44, 1, 4, 31, 24, .rwl, 0xf6, []⟩,
   ⟨0x44, 1, 4, 23, 16, .rwl, 0xf8, []⟩,
   ⟨0x44, 1, 4, 15, 8, .rwl, 0xf8, []⟩,
   ⟨0x44, 1, 4, 7, 0, .rwl, 0xfe, []⟩,
   ⟨0x48, 1, 4, 31, 12, .rsv, 0, []⟩,
   ⟨0x48, 1, 4, 11, 8, .rwl, 0xd, []⟩,
   ⟨0x48, 1, 4, 7, 4, .rwl, 0, []⟩,
   ⟨0x48, 1, 4, 3, 0, .rwl, 0, []⟩,
   ⟨0x4c, 1, 4, 31, 3, .rsv, 0, []⟩,
   ⟨0x4c, 1, 4, 2, 0, .ro, 0, []⟩,
   ⟨0x50, 1, 4, 31, 0, .cnt, 0, []⟩,
   ⟨0x60, 1, 4, 31, 3, .rsv, 0, []⟩,
   ⟨0x60, 1, 4, 2, 1, .rw, 0, [(3, 3)]⟩,
   ⟨0x60, 1, 4, 0, 0, .rw, 0, []⟩,
   ⟨0x64, 1, 4, 31, 1, .rsv, 0, []⟩,
   ⟨0x64, 1, 4, 0, 0, .ro, 0, []⟩,
   ⟨0x68, 1, 4, 31, 25, .rsv, 0, []⟩] ++
  [⟨0x68, 1, 4, 24, 16, .rw, 1, []⟩,
   ⟨0x68, 1, 4, 15, 15, .rsv, 0, []⟩,
   ⟨0x68, 1, 4, 14, 0, .rw, 0, []⟩,
   ⟨0x6c, 1, 4, 31, 25, .rsv, 0, []⟩,
   ⟨0x6c, 1, 4, 24, 16, .rw, 1, []⟩,
   ⟨0x6c, 1, 4, 15, 15, .rsv, 0, []⟩,
   ⟨0x6c, 1, 4, 14, 0, .rw, 0, []⟩,
   ⟨0x70, 1, 4, 31, 16, .cnt, 0, []⟩,
   ⟨0x70, 1, 4, 15, 0, .cnt, 0, []⟩,
   ⟨0x74, 1, 4, 31, 16, .rsv, 0, []⟩,
   ⟨0x74, 1, 4, 15, 0, .cnt, 0, []⟩]

/-- Fields of the PEER page (R268): offset, count, stride, bits, access, reset, reserved codes. -/
def rowsPEER : List RegRow :=
  [⟨0x40, 1, 4, 31, 24, .rwl, 0x14, []⟩,
   ⟨0x40, 1, 4, 23, 16, .rsv, 0, []⟩,
   ⟨0x40, 1, 4, 15, 8, .rwl, 4, []⟩,
   ⟨0x40, 1, 4, 7, 4, .rwl, 2, []⟩,
   ⟨0x40, 1, 4, 3, 3, .rsv, 0, []⟩,
   ⟨0x40, 1, 4, 2, 2, .rwl, 1, []⟩,
   ⟨0x40, 1, 4, 1, 1, .rwl, 0, []⟩,
   ⟨0x40, 1, 4, 0, 0, .rwl, 0, []⟩,
   ⟨0x44, 1, 4, 31, 31, .ro, 0, []⟩,
   ⟨0x44, 1, 4, 30, 28, .ro, 0, []⟩,
   ⟨0x44, 1, 4, 27, 3, .rsv, 0, []⟩,
   ⟨0x44, 1, 4, 2, 0, .wo, 0, [(4, 7)]⟩,
   ⟨0x48, 1, 4, 31, 0, .rw, 0, []⟩,
   ⟨0x4c, 1, 4, 31, 0, .rw, 0, []⟩,
   ⟨0x50, 1, 4, 31, 21, .rsv, 0, []⟩,
   ⟨0x50, 1, 4, 20, 10, .ro, 0, []⟩,
   ⟨0x50, 1, 4, 9, 9, .ro, 0, []⟩,
   ⟨0x50, 1, 4, 8, 8, .ro, 0, []⟩,
   ⟨0x50, 1, 4, 7, 7, .ro, 0, []⟩,
   ⟨0x50, 1, 4, 6, 6, .ro, 0, []⟩,
   ⟨0x50, 1, 4, 5, 5, .ro, 0, []⟩,
   ⟨0x50, 1, 4, 4, 4, .rsv, 0, []⟩,
   ⟨0x50, 1, 4, 3, 0, .ro, 0, []⟩,
   ⟨0x54, 1, 4, 31, 8, .rsv, 0, []⟩] ++
  [⟨0x54, 1, 4, 7, 7, .ro, 0, []⟩,
   ⟨0x54, 1, 4, 6, 6, .ro, 0, []⟩,
   ⟨0x54, 1, 4, 5, 5, .ro, 0, []⟩,
   ⟨0x54, 1, 4, 4, 4, .ro, 0, []⟩,
   ⟨0x54, 1, 4, 3, 3, .ro, 0, []⟩,
   ⟨0x54, 1, 4, 2, 2, .ro, 0, []⟩,
   ⟨0x54, 1, 4, 1, 1, .ro, 0, []⟩,
   ⟨0x54, 1, 4, 0, 0, .ro, 0, []⟩,
   ⟨0x58, 1, 4, 31, 22, .rsv, 0, []⟩,
   ⟨0x58, 1, 4, 21, 0, .rwl, 0xbb8, []⟩,
   ⟨0x5c, 2, 4, 31, 30, .rsv, 0, []⟩,
   ⟨0x5c, 2, 4, 29, 16, .rwl, 0, []⟩,
   ⟨0x5c, 2, 4, 15, 8, .rsv, 0, []⟩,
   ⟨0x5c, 2, 4, 7, 0, .rwl, 0, []⟩,
   ⟨0x64, 2, 4, 31, 30, .rsv, 0, []⟩,
   ⟨0x64, 2, 4, 29, 16, .rwl, 0, []⟩,
   ⟨0x64, 2, 4, 15, 1, .rsv, 0, []⟩,
   ⟨0x64, 2, 4, 0, 0, .rwl, 0, []⟩,
   ⟨0x6c, 8, 4, 31, 0, .rwl, 0, []⟩,
   ⟨0x8c, 1, 4, 31, 31, .w1c, 0, []⟩,
   ⟨0x8c, 1, 4, 30, 29, .ro, 0, []⟩,
   ⟨0x8c, 1, 4, 28, 24, .ro, 0, []⟩,
   ⟨0x8c, 1, 4, 23, 12, .rsv, 0, []⟩,
   ⟨0x8c, 1, 4, 11, 0, .ro, 0, []⟩] ++
  [⟨0x90, 1, 4, 31, 0, .ro, 0, []⟩,
   ⟨0x94, 1, 4, 31, 0, .ro, 0, []⟩,
   ⟨0x98, 1, 4, 31, 0, .ro, 0, []⟩,
   ⟨0x9c, 1, 4, 31, 0, .ro, 0, []⟩,
   ⟨0xa0, 1, 4, 31, 16, .cnt, 0, []⟩,
   ⟨0xa0, 1, 4, 15, 0, .ro, 0, []⟩,
   ⟨0xa4, 1, 4, 31, 16, .rsv, 0, []⟩,
   ⟨0xa4, 1, 4, 15, 0, .cnt, 0, []⟩,
   ⟨0xa8, 1, 4, 31, 16, .rsv, 0, []⟩,
   ⟨0xa8, 1, 4, 15, 0, .cnt, 0, []⟩,
   ⟨0xac, 1, 4, 31, 16, .rsv, 0, []⟩,
   ⟨0xac, 1, 4, 15, 0, .cnt, 0, []⟩,
   ⟨0xb0, 1, 4, 31, 16, .rsv, 0, []⟩,
   ⟨0xb0, 1, 4, 15, 0, .cnt, 0, []⟩,
   ⟨0xb4, 1, 4, 31, 0, .cnt, 0, []⟩,
   ⟨0xb8, 1, 4, 31, 0, .cnt, 0, []⟩,
   ⟨0xbc, 1, 4, 31, 0, .cnt, 0, []⟩,
   ⟨0xc0, 1, 4, 31, 0, .cnt, 0, []⟩,
   ⟨0xc4, 1, 4, 31, 0, .cnt, 0, []⟩]

/-- Fields of the AXIS page (R147): offset, count, stride, bits, access, reset, reserved codes. -/
def rowsAXIS : List RegRow :=
  [⟨0x40, 1, 4, 31, 31, .rw, 0, []⟩,
   ⟨0x40, 1, 4, 30, 10, .rsv, 0, []⟩,
   ⟨0x40, 1, 4, 9, 0, .rw, 0, []⟩,
   ⟨0x44, 1, 4, 31, 31, .ro, 0, []⟩,
   ⟨0x44, 1, 4, 30, 28, .ro, 0, []⟩,
   ⟨0x44, 1, 4, 27, 6, .rsv, 0, []⟩,
   ⟨0x44, 1, 4, 5, 4, .rw, 0, []⟩,
   ⟨0x44, 1, 4, 3, 3, .rsv, 0, []⟩,
   ⟨0x44, 1, 4, 2, 0, .wo, 0, [(4, 7)]⟩,
   ⟨0x48, 1, 4, 31, 20, .rsv, 0, []⟩,
   ⟨0x48, 1, 4, 19, 0, .rw, 0, []⟩,
   ⟨0x4c, 1, 4, 31, 24, .rw, 0, []⟩,
   ⟨0x4c, 1, 4, 23, 20, .rsv, 0, []⟩,
   ⟨0x4c, 1, 4, 19, 0, .rw, 0, []⟩,
   ⟨0x50, 1, 4, 31, 31, .own, 0, []⟩,
   ⟨0x50, 1, 4, 30, 3, .rsv, 0, []⟩,
   ⟨0x50, 1, 4, 2, 0, .own, 0, []⟩,
   ⟨0x54, 1, 4, 31, 16, .ro, 0, []⟩,
   ⟨0x54, 1, 4, 15, 6, .rsv, 0, []⟩,
   ⟨0x54, 1, 4, 5, 5, .w1c, 0, []⟩,
   ⟨0x54, 1, 4, 4, 4, .ro, 0, []⟩,
   ⟨0x54, 1, 4, 3, 3, .ro, 0, []⟩,
   ⟨0x54, 1, 4, 2, 2, .ro, 0, []⟩,
   ⟨0x54, 1, 4, 1, 1, .ro, 0, []⟩] ++
  [⟨0x54, 1, 4, 0, 0, .w1c, 0, []⟩,
   ⟨0x58, 1, 4, 31, 16, .rsv, 0, []⟩,
   ⟨0x58, 1, 4, 15, 0, .cnt, 0, []⟩,
   ⟨0x5c, 1, 4, 31, 16, .rsv, 0, []⟩,
   ⟨0x5c, 1, 4, 15, 0, .cnt, 0, []⟩,
   ⟨0x60, 1, 4, 31, 31, .w1c, 0, []⟩,
   ⟨0x60, 1, 4, 30, 20, .rsv, 0, []⟩,
   ⟨0x60, 1, 4, 19, 16, .ro, 0, []⟩,
   ⟨0x60, 1, 4, 15, 10, .rsv, 0, []⟩,
   ⟨0x60, 1, 4, 9, 0, .ro, 0, []⟩,
   ⟨0x100, 128, 4, 31, 0, .own, 0, []⟩]

/-- Fields of the MOTION page (R174): offset, count, stride, bits, access, reset, reserved codes. DESIGN CHOICE (log 47): the spec lists no meaning for OP codes 11 to 14 and does not call them reserved, and the model takes them as no command. -/
def rowsMOTION : List RegRow :=
  [⟨0x40, 1, 4, 31, 31, .rw, 0, []⟩,
   ⟨0x40, 1, 4, 30, 11, .rsv, 0, []⟩,
   ⟨0x40, 1, 4, 10, 0, .rw, 0, []⟩,
   ⟨0x44, 1, 4, 31, 31, .ro, 0, []⟩,
   ⟨0x44, 1, 4, 30, 27, .ro, 0, []⟩,
   ⟨0x44, 1, 4, 26, 4, .rsv, 0, []⟩,
   ⟨0x44, 1, 4, 3, 0, .wo, 0, []⟩,
   ⟨0x48, 1, 4, 31, 0, .rw, 0, []⟩,
   ⟨0x4c, 1, 4, 31, 0, .rw, 0, []⟩,
   ⟨0x50, 1, 4, 31, 0, .rw, 0, []⟩,
   ⟨0x54, 1, 4, 31, 0, .rw, 0, []⟩,
   ⟨0x58, 1, 4, 31, 0, .rw, 0, []⟩,
   ⟨0x5c, 1, 4, 31, 0, .ro, 0, []⟩,
   ⟨0x60, 1, 4, 31, 0, .ro, 0, []⟩,
   ⟨0x64, 1, 4, 31, 16, .rsv, 0, []⟩,
   ⟨0x64, 1, 4, 15, 0, .ro, 2, []⟩,
   ⟨0x68, 1, 4, 31, 18, .rsv, 0, []⟩,
   ⟨0x68, 1, 4, 17, 16, .wo, 0, []⟩,
   ⟨0x68, 1, 4, 15, 11, .rsv, 0, []⟩,
   ⟨0x68, 1, 4, 10, 0, .wo, 0, []⟩,
   ⟨0x6c, 1, 4, 31, 1, .rsv, 0, []⟩,
   ⟨0x6c, 1, 4, 0, 0, .wo, 0, []⟩,
   ⟨0x70, 1, 4, 31, 11, .rsv, 0, []⟩,
   ⟨0x70, 1, 4, 10, 0, .wo, 0, []⟩] ++
  [⟨0x74, 1, 4, 31, 11, .rsv, 0, []⟩,
   ⟨0x74, 1, 4, 10, 10, .ro, 0, []⟩,
   ⟨0x74, 1, 4, 9, 9, .w1c, 0, []⟩,
   ⟨0x74, 1, 4, 8, 8, .ro, 0, []⟩,
   ⟨0x74, 1, 4, 7, 0, .ro, 0, []⟩,
   ⟨0x78, 1, 4, 31, 31, .w1c, 0, []⟩,
   ⟨0x78, 1, 4, 30, 20, .rsv, 0, []⟩,
   ⟨0x78, 1, 4, 19, 16, .ro, 0, []⟩,
   ⟨0x78, 1, 4, 15, 11, .rsv, 0, []⟩,
   ⟨0x78, 1, 4, 10, 0, .ro, 0, []⟩,
   ⟨0x7c, 1, 4, 31, 0, .cnt, 0, []⟩,
   ⟨0x100, 16, 4, 31, 0, .own, 0, []⟩,
   ⟨0x200, 64, 4, 31, 31, .own, 0, []⟩,
   ⟨0x200, 64, 4, 30, 30, .ro, 0, []⟩,
   ⟨0x200, 64, 4, 29, 15, .rsv, 0, []⟩,
   ⟨0x200, 64, 4, 14, 0, .own, 0, []⟩]

/-- Fields of the ENC page (R310): offset, count, stride, bits, access, reset, reserved codes. -/
def rowsENC : List RegRow :=
  [⟨0x40, 1, 4, 31, 12, .rsv, 0, []⟩,
   ⟨0x40, 1, 4, 11, 11, .rw, 0, []⟩,
   ⟨0x40, 1, 4, 10, 10, .rw, 0, []⟩,
   ⟨0x40, 1, 4, 9, 6, .rw, 0, []⟩,
   ⟨0x40, 1, 4, 5, 4, .rsv, 0, []⟩,
   ⟨0x40, 1, 4, 3, 3, .rw, 0, []⟩,
   ⟨0x40, 1, 4, 2, 0, .rw, 0, [(5, 7)]⟩,
   ⟨0x44, 1, 4, 31, 18, .rsv, 0, []⟩,
   ⟨0x44, 1, 4, 17, 17, .rw, 0, []⟩,
   ⟨0x44, 1, 4, 16, 16, .rw, 0, []⟩,
   ⟨0x44, 1, 4, 15, 12, .rw, 0, [(0, 1)]⟩,
   ⟨0x44, 1, 4, 11, 11, .rw, 0, []⟩,
   ⟨0x44, 1, 4, 10, 10, .rw, 0, []⟩,
   ⟨0x44, 1, 4, 9, 9, .rw, 0, []⟩,
   ⟨0x44, 1, 4, 8, 6, .rsv, 0, []⟩,
   ⟨0x44, 1, 4, 5, 0, .rw, 0, [(0, 7), (49, 63)]⟩,
   ⟨0x48, 1, 4, 31, 26, .rsv, 0, []⟩,
   ⟨0x48, 1, 4, 25, 16, .rw, 0, []⟩,
   ⟨0x48, 1, 4, 15, 14, .rsv, 0, []⟩,
   ⟨0x48, 1, 4, 13, 0, .rw, 0x3e8, []⟩,
   ⟨0x4c, 1, 4, 31, 16, .rw, 0, []⟩,
   ⟨0x4c, 1, 4, 15, 0, .rw, 0, []⟩,
   ⟨0x50, 1, 4, 31, 22, .rsv, 0, []⟩,
   ⟨0x50, 1, 4, 21, 0, .rw, 0x190, []⟩] ++
  [⟨0x54, 1, 4, 31, 22, .rsv, 0, []⟩,
   ⟨0x54, 1, 4, 21, 0, .rw, 0x2710, []⟩,
   ⟨0x58, 1, 4, 31, 24, .rsv, 0, []⟩,
   ⟨0x58, 1, 4, 23, 16, .rw, 8, []⟩,
   ⟨0x58, 1, 4, 15, 9, .rsv, 0, []⟩,
   ⟨0x58, 1, 4, 8, 0, .rw, 1, []⟩,
   ⟨0x5c, 1, 4, 31, 8, .rsv, 0, []⟩,
   ⟨0x5c, 1, 4, 7, 0, .rw, 4, []⟩,
   ⟨0x60, 1, 4, 31, 3, .rsv, 0, []⟩,
   ⟨0x60, 1, 4, 2, 2, .wo, 0, []⟩,
   ⟨0x60, 1, 4, 1, 1, .wo, 0, []⟩,
   ⟨0x60, 1, 4, 0, 0, .wo, 0, []⟩,
   ⟨0x64, 1, 4, 31, 0, .rw, 0, []⟩,
   ⟨0x68, 1, 4, 31, 0, .rw, 0, []⟩,
   ⟨0x6c, 1, 4, 31, 14, .rsv, 0, []⟩,
   ⟨0x6c, 1, 4, 13, 11, .ro, 0, []⟩,
   ⟨0x6c, 1, 4, 10, 8, .ro, 0, []⟩,
   ⟨0x6c, 1, 4, 7, 7, .ro, 0, []⟩,
   ⟨0x6c, 1, 4, 6, 6, .ro, 0, []⟩,
   ⟨0x6c, 1, 4, 5, 5, .ro, 1, []⟩,
   ⟨0x6c, 1, 4, 4, 4, .ro, 0, []⟩,
   ⟨0x6c, 1, 4, 3, 3, .ro, 0, []⟩,
   ⟨0x6c, 1, 4, 2, 2, .ro, 1, []⟩,
   ⟨0x6c, 1, 4, 1, 1, .ro, 1, []⟩] ++
  [⟨0x6c, 1, 4, 0, 0, .ro, 0, []⟩,
   ⟨0x70, 4, 4, 31, 0, .rw, 0, []⟩,
   ⟨0x80, 1, 4, 31, 0, .ro, 0, []⟩,
   ⟨0x84, 1, 4, 31, 0, .ro, 0, []⟩,
   ⟨0x88, 1, 4, 31, 16, .rsv, 0, []⟩,
   ⟨0x88, 1, 4, 15, 0, .cnt, 0, []⟩,
   ⟨0x8c, 1, 4, 31, 16, .rsv, 0, []⟩,
   ⟨0x8c, 1, 4, 15, 0, .cnt, 0, []⟩,
   ⟨0x90, 1, 4, 31, 16, .rsv, 0, []⟩,
   ⟨0x90, 1, 4, 15, 0, .cnt, 0, []⟩,
   ⟨0x94, 1, 4, 31, 16, .rsv, 0, []⟩,
   ⟨0x94, 1, 4, 15, 0, .cnt, 0, []⟩,
   ⟨0x98, 1, 4, 31, 16, .rsv, 0, []⟩,
   ⟨0x98, 1, 4, 15, 0, .ro, 0, []⟩]

/-- Fields of the EMU page (R175): offset, count, stride, bits, access, reset, reserved codes. -/
def rowsEMU : List RegRow :=
  [⟨0x40, 4, 32, 31, 3, .rsv, 0, []⟩,
   ⟨0x40, 4, 32, 2, 2, .rw, 0, []⟩,
   ⟨0x40, 4, 32, 1, 1, .rw, 0, []⟩,
   ⟨0x40, 4, 32, 0, 0, .rw, 0, []⟩,
   ⟨0x44, 4, 32, 31, 20, .rsv, 0, []⟩,
   ⟨0x44, 4, 32, 19, 0, .rw, 0, []⟩,
   ⟨0x48, 4, 32, 31, 31, .rsv, 0, []⟩,
   ⟨0x48, 4, 32, 30, 0, .rw, 1, []⟩,
   ⟨0x4c, 4, 32, 31, 31, .rsv, 0, []⟩,
   ⟨0x4c, 4, 32, 30, 0, .rw, 1, []⟩,
   ⟨0x50, 4, 32, 31, 13, .rsv, 0, []⟩,
   ⟨0x50, 4, 32, 12, 0, .rw, 0x1f40, []⟩,
   ⟨0x54, 4, 32, 31, 4, .rsv, 0, []⟩,
   ⟨0x54, 4, 32, 3, 3, .w1c, 0, []⟩,
   ⟨0x54, 4, 32, 2, 2, .ro, 0, []⟩,
   ⟨0x54, 4, 32, 1, 0, .ro, 0, []⟩,
   ⟨0x58, 4, 32, 31, 0, .cnt, 0, []⟩,
   ⟨0x5c, 4, 32, 31, 0, .cnt, 0, []⟩]

/-- Fields of the CAPT page (R241): offset, count, stride, bits, access, reset, reserved codes. -/
def rowsCAPT : List RegRow :=
  [⟨0x40, 8, 32, 31, 16, .rsv, 0, []⟩,
   ⟨0x40, 8, 32, 15, 8, .rw, 0, []⟩,
   ⟨0x40, 8, 32, 7, 3, .rsv, 0, []⟩,
   ⟨0x40, 8, 32, 2, 1, .rw, 0, [(3, 3)]⟩,
   ⟨0x40, 8, 32, 0, 0, .rw, 0, []⟩,
   ⟨0x44, 8, 32, 31, 0, .ro, 0, []⟩,
   ⟨0x48, 8, 32, 31, 0, .ro, 0, []⟩,
   ⟨0x4c, 8, 32, 31, 6, .rsv, 0, []⟩,
   ⟨0x4c, 8, 32, 5, 5, .ro, 0, []⟩,
   ⟨0x4c, 8, 32, 4, 0, .ro, 0, []⟩,
   ⟨0x50, 8, 32, 31, 16, .rsv, 0, []⟩,
   ⟨0x50, 8, 32, 15, 0, .cnt, 0, []⟩,
   ⟨0x54, 8, 32, 31, 0, .cnt, 0, []⟩,
   ⟨0x58, 8, 32, 31, 0, .rsv, 0, []⟩,
   ⟨0x5c, 8, 32, 31, 0, .rsv, 0, []⟩,
   ⟨0x140, 4, 32, 31, 6, .rsv, 0, []⟩,
   ⟨0x140, 4, 32, 5, 5, .wo, 0, []⟩,
   ⟨0x140, 4, 32, 4, 4, .rw, 0, []⟩,
   ⟨0x140, 4, 32, 3, 2, .rw, 0, [(3, 3)]⟩,
   ⟨0x140, 4, 32, 1, 1, .rsv, 0, []⟩,
   ⟨0x140, 4, 32, 0, 0, .rw, 0, []⟩,
   ⟨0x144, 4, 32, 31, 0, .rw, 0, []⟩,
   ⟨0x148, 4, 32, 31, 0, .rw, 0, []⟩,
   ⟨0x14c, 4, 32, 31, 30, .rsv, 0, []⟩] ++
  [⟨0x14c, 4, 32, 29, 0, .rw, 0xf4240, []⟩,
   ⟨0x150, 4, 32, 31, 0, .rw, 0x3b9aca00, []⟩,
   ⟨0x154, 4, 32, 31, 3, .rsv, 0, []⟩,
   ⟨0x154, 4, 32, 2, 2, .w1c, 0, []⟩,
   ⟨0x154, 4, 32, 1, 1, .ro, 0, []⟩,
   ⟨0x154, 4, 32, 0, 0, .ro, 0, []⟩,
   ⟨0x158, 4, 32, 31, 0, .cnt, 0, []⟩,
   ⟨0x15c, 4, 32, 31, 0, .rsv, 0, []⟩]

/-- Fields of the FIO page (R322): offset, count, stride, bits, access, reset, reserved codes. -/
def rowsFIO : List RegRow :=
  [⟨0x40, 1, 4, 31, 2, .rsv, 0, []⟩,
   ⟨0x40, 1, 4, 1, 1, .rw, 0, []⟩,
   ⟨0x40, 1, 4, 0, 0, .rw, 0, []⟩,
   ⟨0x44, 2, 4, 31, 24, .rsv, 0, []⟩,
   ⟨0x44, 2, 4, 23, 0, .rw, 0, []⟩,
   ⟨0x50, 16, 4, 31, 24, .rsv, 0, []⟩,
   ⟨0x50, 16, 4, 23, 16, .rw, 5, []⟩,
   ⟨0x50, 16, 4, 15, 8, .rw, 0x14, []⟩,
   ⟨0x50, 16, 4, 7, 7, .rw, 0, []⟩,
   ⟨0x50, 16, 4, 6, 6, .rw, 0, []⟩,
   ⟨0x50, 16, 4, 5, 4, .rw, 0, []⟩,
   ⟨0x50, 16, 4, 3, 3, .rw, 0, []⟩,
   ⟨0x50, 16, 4, 2, 2, .rw, 0, []⟩,
   ⟨0x50, 16, 4, 1, 0, .rw, 0, [(3, 3)]⟩,
   ⟨0x90, 1, 4, 31, 16, .rsv, 0, []⟩,
   ⟨0x90, 1, 4, 15, 0, .rw, 0, []⟩,
   ⟨0x94, 1, 4, 31, 10, .rsv, 0, []⟩,
   ⟨0x94, 1, 4, 9, 9, .wo, 0, []⟩,
   ⟨0x94, 1, 4, 8, 8, .ro, 0, []⟩,
   ⟨0x94, 1, 4, 7, 0, .rw, 0xa, []⟩,
   ⟨0x98, 1, 4, 31, 16, .ro, 0, []⟩,
   ⟨0x98, 1, 4, 15, 0, .ro, 0, []⟩,
   ⟨0x9c, 2, 4, 31, 0, .own, 0, []⟩,
   ⟨0xa4, 1, 4, 31, 12, .rsv, 0, []⟩] ++
  [⟨0xa4, 1, 4, 11, 8, .ro, 0, []⟩,
   ⟨0xa4, 1, 4, 7, 6, .rsv, 0, []⟩,
   ⟨0xa4, 1, 4, 5, 5, .own, 0, []⟩,
   ⟨0xa4, 1, 4, 4, 4, .own, 0, []⟩,
   ⟨0xa4, 1, 4, 3, 3, .own, 0, []⟩,
   ⟨0xa4, 1, 4, 2, 2, .own, 0, []⟩,
   ⟨0xa4, 1, 4, 1, 1, .ro, 0, []⟩,
   ⟨0xa4, 1, 4, 0, 0, .ro, 0, []⟩,
   ⟨0xa8, 1, 4, 31, 16, .rsv, 0, []⟩,
   ⟨0xa8, 1, 4, 15, 0, .cnt, 0, []⟩,
   ⟨0xac, 1, 4, 31, 16, .rsv, 0, []⟩,
   ⟨0xac, 1, 4, 15, 0, .cnt, 0, []⟩,
   ⟨0xb0, 1, 4, 31, 16, .rsv, 0, []⟩,
   ⟨0xb0, 1, 4, 15, 0, .cnt, 0, []⟩,
   ⟨0xb4, 1, 4, 31, 16, .rsv, 0, []⟩,
   ⟨0xb4, 1, 4, 15, 0, .cnt, 0, []⟩,
   ⟨0xb8, 1, 4, 31, 0, .cnt, 0, []⟩]

/-- Fields of the SAFE page (R297): offset, count, stride, bits, access, reset, reserved codes. -/
def rowsSAFE : List RegRow :=
  [⟨0x40, 1, 4, 31, 22, .rsv, 0, []⟩,
   ⟨0x40, 1, 4, 21, 21, .ro, 0, []⟩,
   ⟨0x40, 1, 4, 20, 20, .ro, 0, []⟩,
   ⟨0x40, 1, 4, 19, 19, .ro, 0, []⟩,
   ⟨0x40, 1, 4, 18, 18, .ro, 0, []⟩,
   ⟨0x40, 1, 4, 17, 16, .ro, 0, []⟩,
   ⟨0x40, 1, 4, 15, 12, .ro, 0xf, []⟩,
   ⟨0x40, 1, 4, 11, 8, .ro, 0, []⟩,
   ⟨0x40, 1, 4, 7, 4, .ro, 0xf, []⟩,
   ⟨0x40, 1, 4, 3, 2, .rsv, 0, []⟩,
   ⟨0x40, 1, 4, 1, 0, .ro, 0, []⟩,
   ⟨0x44, 1, 4, 31, 20, .rsv, 0, []⟩,
   ⟨0x44, 1, 4, 19, 18, .ro, 0, []⟩,
   ⟨0x44, 1, 4, 17, 17, .ro, 0, []⟩,
   ⟨0x44, 1, 4, 16, 16, .ro, 0, []⟩,
   ⟨0x44, 1, 4, 15, 12, .ro, 0, []⟩,
   ⟨0x44, 1, 4, 11, 8, .ro, 0, []⟩,
   ⟨0x44, 1, 4, 7, 0, .ro, 0, []⟩,
   ⟨0x48, 1, 4, 31, 31, .ro, 0, []⟩,
   ⟨0x48, 1, 4, 30, 17, .rsv, 0, []⟩,
   ⟨0x48, 1, 4, 16, 16, .ro, 0, []⟩,
   ⟨0x48, 1, 4, 15, 12, .rsv, 0, []⟩,
   ⟨0x48, 1, 4, 11, 8, .ro, 0, []⟩,
   ⟨0x48, 1, 4, 7, 0, .ro, 0, []⟩] ++
  [⟨0x4c, 1, 4, 31, 0, .ro, 0, []⟩,
   ⟨0x50, 1, 4, 31, 0, .ro, 0, []⟩,
   ⟨0x54, 1, 4, 31, 16, .ro, 0, []⟩,
   ⟨0x54, 1, 4, 15, 0, .ro, 0xfff, []⟩,
   ⟨0x58, 1, 4, 31, 15, .rsv, 0, []⟩,
   ⟨0x58, 1, 4, 14, 0, .ro, 0x7fff, []⟩,
   ⟨0x5c, 1, 4, 31, 0, .ro, 0, []⟩,
   ⟨0x60, 1, 4, 31, 0, .ro, 0, []⟩,
   ⟨0x64, 1, 4, 31, 16, .rsv, 0, []⟩,
   ⟨0x64, 1, 4, 15, 0, .ro, 0, []⟩,
   ⟨0x68, 1, 4, 31, 0, .ro, 0, []⟩,
   ⟨0x6c, 1, 4, 31, 16, .rsv, 0, []⟩,
   ⟨0x6c, 1, 4, 15, 0, .ro, 0, []⟩]

/-- Fields of the CIST page (R335): offset, count, stride, bits, access, reset, reserved codes. -/
def rowsCIST : List RegRow :=
  [⟨0x40, 1, 4, 31, 30, .wo, 0, []⟩,
   ⟨0x40, 1, 4, 29, 28, .wo, 0, []⟩,
   ⟨0x40, 1, 4, 27, 27, .wo, 0, []⟩,
   ⟨0x40, 1, 4, 26, 15, .rsv, 0, []⟩,
   ⟨0x40, 1, 4, 14, 0, .wo, 0, []⟩,
   ⟨0x44, 1, 4, 31, 31, .ro, 0, []⟩,
   ⟨0x44, 1, 4, 30, 30, .ro, 0, []⟩,
   ⟨0x44, 1, 4, 29, 28, .ro, 0, []⟩,
   ⟨0x44, 1, 4, 27, 27, .ro, 0, []⟩,
   ⟨0x44, 1, 4, 26, 15, .rsv, 0, []⟩,
   ⟨0x44, 1, 4, 14, 0, .ro, 0, []⟩,
   ⟨0x48, 1, 4, 31, 3, .rsv, 0, []⟩,
   ⟨0x48, 1, 4, 2, 0, .rw, 0, []⟩,
   ⟨0x4c, 1, 4, 31, 16, .rsv, 0, []⟩,
   ⟨0x4c, 1, 4, 15, 0, .cnt, 0, []⟩,
   ⟨0x50, 1, 4, 31, 16, .rsv, 0, []⟩,
   ⟨0x50, 1, 4, 15, 0, .cnt, 0, []⟩,
   ⟨0x54, 1, 4, 31, 0, .cnt, 0, []⟩,
   ⟨0x58, 1, 4, 31, 20, .rsv, 0, []⟩,
   ⟨0x58, 1, 4, 19, 0, .rw, 0, []⟩,
   ⟨0x5c, 1, 4, 31, 21, .rsv, 0, []⟩,
   ⟨0x5c, 1, 4, 20, 0, .rw, 1, []⟩,
   ⟨0x60, 1, 4, 31, 15, .rsv, 0, []⟩,
   ⟨0x60, 1, 4, 14, 0, .rw, 0, []⟩] ++
  [⟨0x64, 1, 4, 31, 4, .rsv, 0, []⟩,
   ⟨0x64, 1, 4, 3, 3, .w1c, 0, []⟩,
   ⟨0x64, 1, 4, 2, 2, .w1c, 0, []⟩,
   ⟨0x64, 1, 4, 1, 1, .ro, 0, []⟩,
   ⟨0x64, 1, 4, 0, 0, .wo, 0, []⟩,
   ⟨0x400, 256, 4, 31, 0, .ro, 0, []⟩]

/-- Fields of the HOST page (R336): offset, count, stride, bits, access, reset, reserved codes. -/
def rowsHOST : List RegRow :=
  [⟨0x40, 1, 4, 31, 9, .rsv, 0, []⟩,
   ⟨0x40, 1, 4, 8, 8, .ro, 0, []⟩,
   ⟨0x40, 1, 4, 7, 4, .ro, 0, []⟩,
   ⟨0x40, 1, 4, 3, 0, .ro, 0, []⟩,
   ⟨0x100, 8, 32, 31, 2, .rsv, 0, []⟩,
   ⟨0x100, 8, 32, 1, 1, .wo, 0, []⟩,
   ⟨0x100, 8, 32, 0, 0, .wo, 0, []⟩,
   ⟨0x104, 8, 32, 31, 0, .rw, 0, []⟩,
   ⟨0x108, 8, 32, 31, 0, .rw, 0, []⟩,
   ⟨0x10c, 8, 32, 31, 3, .rsv, 0, []⟩,
   ⟨0x10c, 8, 32, 2, 2, .w1c, 0, []⟩,
   ⟨0x10c, 8, 32, 1, 1, .w1c, 0, []⟩,
   ⟨0x10c, 8, 32, 0, 0, .ro, 0, []⟩,
   ⟨0x110, 8, 32, 31, 0, .cnt, 0, []⟩,
   ⟨0x800, 96, 4, 31, 0, .rw, 0, []⟩,
   ⟨0xc00, 2, 4, 31, 0, .rsv, 0, []⟩]

/-- Fields of the ACQ page (R348): offset, count, stride, bits, access, reset, reserved codes. -/
def rowsACQ : List RegRow :=
  [⟨0x40, 1, 4, 31, 31, .rw, 0, []⟩,
   ⟨0x40, 1, 4, 30, 30, .rw, 0, []⟩,
   ⟨0x40, 1, 4, 29, 29, .rw, 0, []⟩,
   ⟨0x40, 1, 4, 28, 16, .rsv, 0, []⟩,
   ⟨0x40, 1, 4, 15, 0, .rw, 0, []⟩,
   ⟨0x44, 1, 4, 31, 21, .rsv, 0, []⟩,
   ⟨0x44, 1, 4, 20, 0, .rw, 0, []⟩,
   ⟨0x48, 1, 4, 31, 21, .rsv, 0, []⟩,
   ⟨0x48, 1, 4, 20, 0, .rw, 0, []⟩,
   ⟨0x4c, 1, 4, 31, 0, .rw, 0, []⟩,
   ⟨0x50, 1, 4, 31, 0, .rw, 0, []⟩,
   ⟨0x54, 1, 4, 31, 27, .rsv, 0, []⟩,
   ⟨0x54, 1, 4, 26, 26, .rw, 0, []⟩,
   ⟨0x54, 1, 4, 25, 25, .rw, 0, []⟩,
   ⟨0x54, 1, 4, 24, 22, .rw, 0, [(4, 7)]⟩,
   ⟨0x54, 1, 4, 21, 20, .rw, 0, [(3, 3)]⟩,
   ⟨0x54, 1, 4, 19, 0, .rw, 0, []⟩,
   ⟨0x58, 1, 4, 31, 27, .rsv, 0, []⟩,
   ⟨0x58, 1, 4, 26, 26, .rw, 0, []⟩,
   ⟨0x58, 1, 4, 25, 25, .rw, 0, []⟩,
   ⟨0x58, 1, 4, 24, 22, .rw, 0, [(4, 7)]⟩,
   ⟨0x58, 1, 4, 21, 20, .rw, 0, [(3, 3)]⟩,
   ⟨0x58, 1, 4, 19, 0, .rw, 0, []⟩,
   ⟨0x60, 8, 4, 31, 0, .rw, 0, []⟩] ++
  [⟨0x80, 1, 4, 31, 4, .rsv, 0, []⟩,
   ⟨0x80, 1, 4, 3, 3, .wo, 0, []⟩,
   ⟨0x80, 1, 4, 2, 2, .wo, 0, []⟩,
   ⟨0x80, 1, 4, 1, 1, .wo, 0, []⟩,
   ⟨0x80, 1, 4, 0, 0, .wo, 0, []⟩,
   ⟨0x84, 1, 4, 31, 8, .rsv, 0, []⟩,
   ⟨0x84, 1, 4, 7, 7, .w1c, 0, []⟩,
   ⟨0x84, 1, 4, 6, 6, .w1c, 0, []⟩,
   ⟨0x84, 1, 4, 5, 5, .w1c, 0, []⟩,
   ⟨0x84, 1, 4, 4, 4, .w1c, 0, []⟩,
   ⟨0x84, 1, 4, 3, 3, .rsv, 0, []⟩,
   ⟨0x84, 1, 4, 2, 0, .ro, 0, []⟩,
   ⟨0x88, 1, 4, 31, 21, .rsv, 0, []⟩,
   ⟨0x88, 1, 4, 20, 0, .ro, 0, []⟩,
   ⟨0x8c, 1, 4, 31, 0, .ro, 0, []⟩,
   ⟨0x90, 1, 4, 31, 0, .ro, 0, []⟩,
   ⟨0x94, 1, 4, 31, 0, .wo, 0, []⟩,
   ⟨0x98, 1, 4, 31, 0, .rw, 0, []⟩,
   ⟨0x9c, 1, 4, 31, 15, .rsv, 0, []⟩,
   ⟨0x9c, 1, 4, 14, 0, .rw, 0, []⟩,
   ⟨0xa0, 1, 4, 31, 0, .cnt, 0, []⟩,
   ⟨0xa4, 1, 4, 31, 0, .cnt, 0, []⟩,
   ⟨0xa8, 1, 4, 31, 0, .cnt, 0, []⟩,
   ⟨0x100, 32, 4, 31, 23, .rsv, 0, []⟩] ++
  [⟨0x100, 32, 4, 22, 22, .rw, 0, []⟩,
   ⟨0x100, 32, 4, 21, 20, .rw, 0, [(3, 3)]⟩,
   ⟨0x100, 32, 4, 19, 0, .rw, 0, []⟩]

/-- Fields of the CAN page (R362): offset, count, stride, bits, access, reset, reserved codes. -/
def rowsCAN : List RegRow :=
  [⟨0x40, 1, 4, 31, 4, .rsv, 0, []⟩,
   ⟨0x40, 1, 4, 3, 3, .wo, 0, []⟩,
   ⟨0x40, 1, 4, 2, 2, .rw, 1, []⟩,
   ⟨0x40, 1, 4, 1, 1, .rw, 0, []⟩,
   ⟨0x40, 1, 4, 0, 0, .rw, 0, []⟩,
   ⟨0x44, 1, 4, 31, 30, .rsv, 0, []⟩,
   ⟨0x44, 1, 4, 29, 23, .rw, 3, []⟩,
   ⟨0x44, 1, 4, 22, 16, .rw, 0xf, []⟩,
   ⟨0x44, 1, 4, 15, 8, .rw, 0x3e, []⟩,
   ⟨0x44, 1, 4, 7, 0, .rw, 1, []⟩,
   ⟨0x48, 1, 4, 31, 27, .rsv, 0, []⟩,
   ⟨0x48, 1, 4, 26, 26, .rw, 0, []⟩,
   ⟨0x48, 1, 4, 25, 18, .rw, 0, []⟩,
   ⟨0x48, 1, 4, 17, 14, .rw, 3, []⟩,
   ⟨0x48, 1, 4, 13, 10, .rw, 3, []⟩,
   ⟨0x48, 1, 4, 9, 5, .rw, 0xe, []⟩,
   ⟨0x48, 1, 4, 4, 0, .rw, 0, []⟩,
   ⟨0x4c, 1, 4, 31, 20, .rsv, 0, []⟩,
   ⟨0x4c, 1, 4, 19, 19, .ro, 0, []⟩,
   ⟨0x4c, 1, 4, 18, 17, .ro, 0, []⟩,
   ⟨0x4c, 1, 4, 16, 8, .ro, 0, []⟩,
   ⟨0x4c, 1, 4, 7, 0, .ro, 0, []⟩,
   ⟨0x50, 1, 4, 31, 7, .rsv, 0, []⟩,
   ⟨0x50, 1, 4, 6, 6, .own, 0, []⟩] ++
  [⟨0x50, 1, 4, 5, 0, .own, 0, []⟩,
   ⟨0x54, 1, 4, 31, 6, .rsv, 0, []⟩,
   ⟨0x54, 1, 4, 5, 0, .wo, 0, []⟩,
   ⟨0x58, 1, 4, 31, 0, .ro, 0, []⟩,
   ⟨0x5c, 1, 4, 31, 0, .ro, 0, []⟩,
   ⟨0x60, 1, 4, 31, 0, .ro, 0, []⟩,
   ⟨0x64, 1, 4, 31, 8, .rsv, 0, []⟩,
   ⟨0x64, 1, 4, 7, 0, .rw, 0, []⟩,
   ⟨0x68, 1, 4, 31, 0, .cnt, 0, []⟩,
   ⟨0x6c, 1, 4, 31, 0, .cnt, 0, []⟩,
   ⟨0x70, 1, 4, 31, 0, .cnt, 0, []⟩,
   ⟨0x74, 1, 4, 31, 0, .cnt, 0, []⟩,
   ⟨0x78, 1, 4, 31, 0, .cnt, 0, []⟩,
   ⟨0x7c, 1, 4, 31, 16, .rsv, 0, []⟩,
   ⟨0x7c, 1, 4, 15, 0, .cnt, 0, []⟩,
   ⟨0x80, 1, 4, 31, 16, .rsv, 0, []⟩,
   ⟨0x80, 1, 4, 15, 0, .cnt, 0, []⟩,
   ⟨0x84, 1, 4, 31, 16, .rsv, 0, []⟩,
   ⟨0x84, 1, 4, 15, 0, .cnt, 0, []⟩,
   ⟨0x100, 32, 4, 31, 16, .rsv, 0, []⟩,
   ⟨0x100, 32, 4, 15, 8, .rw, 1, [(0, 0)]⟩,
   ⟨0x100, 32, 4, 7, 4, .ro, 0, []⟩,
   ⟨0x100, 32, 4, 3, 3, .rw, 0, []⟩,
   ⟨0x100, 32, 4, 2, 2, .wo, 0, []⟩] ++
  [⟨0x100, 32, 4, 1, 1, .wo, 0, []⟩,
   ⟨0x100, 32, 4, 0, 0, .wo, 0, []⟩,
   ⟨0x180, 64, 8, 31, 31, .rw, 0, []⟩,
   ⟨0x180, 64, 8, 30, 30, .rw, 0, []⟩,
   ⟨0x180, 64, 8, 29, 29, .rw, 0, []⟩,
   ⟨0x180, 64, 8, 28, 0, .rw, 0, []⟩,
   ⟨0x184, 64, 8, 31, 30, .rsv, 0, []⟩,
   ⟨0x184, 64, 8, 29, 29, .rw, 0, []⟩,
   ⟨0x184, 64, 8, 28, 0, .rw, 0, []⟩,
   ⟨0x380, 20, 4, 31, 0, .rw, 0, []⟩]

/-- Fields of the BOOT page (R403): offset, count, stride, bits, access, reset, reserved codes. -/
def rowsBOOT : List RegRow :=
  [⟨0x40, 1, 4, 31, 31, .ro, 0, []⟩,
   ⟨0x40, 1, 4, 30, 30, .ro, 0, []⟩,
   ⟨0x40, 1, 4, 29, 29, .ro, 0, []⟩,
   ⟨0x40, 1, 4, 28, 25, .rsv, 0, []⟩,
   ⟨0x40, 1, 4, 24, 24, .ro, 0, []⟩,
   ⟨0x40, 1, 4, 23, 16, .rsv, 0, []⟩,
   ⟨0x40, 1, 4, 15, 12, .ro, 0, []⟩,
   ⟨0x40, 1, 4, 11, 4, .rsv, 0, []⟩,
   ⟨0x40, 1, 4, 3, 0, .ro, 0, []⟩,
   ⟨0x44, 1, 4, 31, 16, .rw, 0x3e8, []⟩,
   ⟨0x44, 1, 4, 15, 2, .rsv, 0, []⟩,
   ⟨0x44, 1, 4, 1, 1, .ro, 0, []⟩,
   ⟨0x44, 1, 4, 0, 0, .ro, 0, []⟩,
   ⟨0x48, 1, 4, 31, 15, .rsv, 0, []⟩,
   ⟨0x48, 1, 4, 14, 0, .wo, 0, []⟩,
   ⟨0x4c, 1, 4, 31, 31, .ro, 0, []⟩,
   ⟨0x4c, 1, 4, 30, 28, .ro, 0, []⟩,
   ⟨0x4c, 1, 4, 27, 23, .rsv, 0, []⟩,
   ⟨0x4c, 1, 4, 22, 20, .wo, 0, [(6, 7)]⟩,
   ⟨0x4c, 1, 4, 19, 19, .rw, 0, []⟩,
   ⟨0x4c, 1, 4, 18, 15, .rsv, 0, []⟩,
   ⟨0x4c, 1, 4, 14, 0, .rw, 0, []⟩,
   ⟨0x50, 1, 4, 31, 0, .rsv, 0, []⟩,
   ⟨0x54, 12, 4, 31, 0, .ro, 0, []⟩] ++
  [⟨0x84, 1, 4, 31, 0, .ro, 0, []⟩,
   ⟨0x88, 1, 4, 31, 0, .ro, 0, []⟩,
   ⟨0x8c, 1, 4, 31, 12, .rsv, 0, []⟩,
   ⟨0x8c, 1, 4, 11, 4, .ro, 0, []⟩,
   ⟨0x8c, 1, 4, 3, 0, .ro, 0, []⟩,
   ⟨0x90, 1, 4, 31, 0, .cnt, 0, []⟩,
   ⟨0x94, 1, 4, 31, 0, .cnt, 0, []⟩,
   ⟨0x98, 1, 4, 31, 0, .ro, 0, []⟩]

/-- Fields of the TEST page (R404): offset, count, stride, bits, access, reset, reserved codes. -/
def rowsTEST : List RegRow :=
  [⟨0x40, 1, 4, 31, 28, .wo, 0, [(10, 15)]⟩,
   ⟨0x40, 1, 4, 27, 20, .wo, 0, []⟩,
   ⟨0x40, 1, 4, 19, 7, .rsv, 0, []⟩,
   ⟨0x40, 1, 4, 6, 0, .wo, 0, []⟩,
   ⟨0x44, 1, 4, 31, 28, .ro, 0, []⟩,
   ⟨0x44, 1, 4, 27, 20, .ro, 0, []⟩,
   ⟨0x44, 1, 4, 19, 4, .rsv, 0, []⟩,
   ⟨0x44, 1, 4, 3, 0, .ro, 0, []⟩,
   ⟨0x48, 1, 4, 31, 10, .rsv, 0, []⟩,
   ⟨0x48, 1, 4, 9, 5, .ro, 0, []⟩,
   ⟨0x48, 1, 4, 4, 0, .ro, 0, []⟩,
   ⟨0x4c, 1, 4, 31, 16, .rsv, 0, []⟩,
   ⟨0x4c, 1, 4, 15, 0, .rw, 0x2710, []⟩,
   ⟨0x50, 1, 4, 31, 0, .cnt, 0, []⟩,
   ⟨0x54, 1, 4, 31, 0, .cnt, 0, []⟩,
   ⟨0x58, 1, 4, 31, 16, .rsv, 0, []⟩,
   ⟨0x58, 1, 4, 15, 0, .cnt, 0, []⟩]

/-- Fields of the SEC page (R405): offset, count, stride, bits, access, reset, reserved codes. -/
def rowsSEC : List RegRow :=
  [⟨0x40, 32, 4, 31, 0, .ro, 0, []⟩,
   ⟨0xc0, 1, 4, 31, 4, .rsv, 0, []⟩,
   ⟨0xc0, 1, 4, 3, 0, .ro, 0, []⟩,
   ⟨0xc4, 1, 4, 31, 0, .ro, 0, []⟩,
   ⟨0xc8, 1, 4, 31, 1, .rsv, 0, []⟩,
   ⟨0xc8, 1, 4, 0, 0, .ro, 0, []⟩,
   ⟨0xcc, 1, 4, 31, 0, .ro, 0, []⟩,
   ⟨0xd0, 8, 4, 31, 0, .ro, 0, []⟩,
   ⟨0xf0, 16, 4, 31, 0, .ro, 0, []⟩]

/-- The fields of a block's own registers, by block. -/
def rowsOf : Blk → List RegRow
  | .SYS => rowsSYS
  | .PWR => rowsPWR
  | .AO => rowsAO
  | .AGE => rowsAGE
  | .SUMP => rowsSUMP
  | .CLU => rowsCLU
  | .CYC => rowsCYC
  | .LE => rowsLE
  | .PORT => rowsPORT
  | .LEMAC => rowsLEMAC
  | .GUARD => rowsGUARD
  | .TIME => rowsTIME
  | .PLANT => rowsPLANT
  | .PEER => rowsPEER
  | .AXIS => rowsAXIS
  | .MOTION => rowsMOTION
  | .ENC => rowsENC
  | .EMU => rowsEMU
  | .CAPT => rowsCAPT
  | .FIO => rowsFIO
  | .SAFE => rowsSAFE
  | .CIST => rowsCIST
  | .HOST => rowsHOST
  | .ACQ => rowsACQ
  | .CAN => rowsCAN
  | .BOOT => rowsBOOT
  | .TEST => rowsTEST
  | .SEC => rowsSEC
  | .POINTS => []

/-- ACQ.CFG.DIV_M1 (R348). -/
def Reg.ACQ_CFG_DIV_M1 : Fld := ⟨0xb2040, 15, 0⟩
/-- ACQ.CFG.FULL (R348). -/
def Reg.ACQ_CFG_FULL : Fld := ⟨0xb2040, 30, 30⟩
/-- ACQ.CFG.HUNIT (R348). -/
def Reg.ACQ_CFG_HUNIT : Fld := ⟨0xb2040, 29, 29⟩
/-- ACQ.CFG.REPEAT (R348). -/
def Reg.ACQ_CFG_REPEAT : Fld := ⟨0xb2040, 31, 31⟩
/-- ACQ.CHMASK.EN (R348). -/
def Reg.ACQ_CHMASK_EN : Fld := ⟨0xb2050, 31, 0⟩
/-- ACQ.CHSEL.MINMAX (R348). -/
def Reg.ACQ_CHSEL_MINMAX (i : Nat) : Fld := ⟨0xb2100 + i * 4, 22, 22⟩
/-- ACQ.CHSEL.POINT (R348). -/
def Reg.ACQ_CHSEL_POINT (i : Nat) : Fld := ⟨0xb2100 + i * 4, 19, 0⟩
/-- ACQ.CHSEL.TYPE (R348). -/
def Reg.ACQ_CHSEL_TYPE (i : Nat) : Fld := ⟨0xb2100 + i * 4, 21, 20⟩
/-- ACQ.CMD.ARM (R348). -/
def Reg.ACQ_CMD_ARM : Fld := ⟨0xb2080, 0, 0⟩
/-- ACQ.CMD.EXPORT (R348). -/
def Reg.ACQ_CMD_EXPORT : Fld := ⟨0xb2080, 3, 3⟩
/-- ACQ.CMD.FORCE (R348). -/
def Reg.ACQ_CMD_FORCE : Fld := ⟨0xb2080, 2, 2⟩
/-- ACQ.CMD.STOP (R348). -/
def Reg.ACQ_CMD_STOP : Fld := ⟨0xb2080, 1, 1⟩
/-- ACQ.EXP_DST.BLOCK (R348). -/
def Reg.ACQ_EXP_DST_BLOCK : Fld := ⟨0xb209c, 14, 0⟩
/-- ACQ.EXP_REC.RECNO (R348). -/
def Reg.ACQ_EXP_REC_RECNO : Fld := ⟨0xb2098, 31, 0⟩
/-- ACQ.HOLD.HOLD (R348). -/
def Reg.ACQ_HOLD_HOLD : Fld := ⟨0xb204c, 31, 0⟩
/-- ACQ.LAST_OFS.VALUE (R348). -/
def Reg.ACQ_LAST_OFS_VALUE : Fld := ⟨0xb2090, 31, 0⟩
/-- ACQ.LAST.VALUE (R348). -/
def Reg.ACQ_LAST_VALUE : Fld := ⟨0xb208c, 31, 0⟩
/-- ACQ.LOST_CNT.COUNT (R348). -/
def Reg.ACQ_LOST_CNT_COUNT : Fld := ⟨0xb20a8, 31, 0⟩
/-- ACQ.POST.SAMPLES (R348). -/
def Reg.ACQ_POST_SAMPLES : Fld := ⟨0xb2048, 20, 0⟩
/-- ACQ.PRE.SAMPLES (R348). -/
def Reg.ACQ_PRE_SAMPLES : Fld := ⟨0xb2044, 20, 0⟩
/-- ACQ.REC_CNT.COUNT (R348). -/
def Reg.ACQ_REC_CNT_COUNT : Fld := ⟨0xb20a0, 31, 0⟩
/-- ACQ.RELEASE.RECNO (R348). -/
def Reg.ACQ_RELEASE_RECNO : Fld := ⟨0xb2094, 31, 0⟩
/-- ACQ.STAT.ABORT (R348). -/
def Reg.ACQ_STAT_ABORT : Fld := ⟨0xb2084, 4, 4⟩
/-- ACQ.STAT.CFGERR (R348). -/
def Reg.ACQ_STAT_CFGERR : Fld := ⟨0xb2084, 7, 7⟩
/-- ACQ.STAT.EXPDONE (R348). -/
def Reg.ACQ_STAT_EXPDONE : Fld := ⟨0xb2084, 5, 5⟩
/-- ACQ.STAT.EXPERR (R348). -/
def Reg.ACQ_STAT_EXPERR : Fld := ⟨0xb2084, 6, 6⟩
/-- ACQ.STAT.STATE (R348). -/
def Reg.ACQ_STAT_STATE : Fld := ⟨0xb2084, 2, 0⟩
/-- ACQ.TRIGA.BOTH (R348). -/
def Reg.ACQ_TRIGA_BOTH : Fld := ⟨0xb2054, 26, 26⟩
/-- ACQ.TRIGA.KIND (R348). -/
def Reg.ACQ_TRIGA_KIND : Fld := ⟨0xb2054, 24, 22⟩
/-- ACQ.TRIGA.POINT (R348). -/
def Reg.ACQ_TRIGA_POINT : Fld := ⟨0xb2054, 19, 0⟩
/-- ACQ.TRIGA.POL (R348). -/
def Reg.ACQ_TRIGA_POL : Fld := ⟨0xb2054, 25, 25⟩
/-- ACQ.TRIGA.TYPE (R348). -/
def Reg.ACQ_TRIGA_TYPE : Fld := ⟨0xb2054, 21, 20⟩
/-- ACQ.TRIGB.BOTH (R348). -/
def Reg.ACQ_TRIGB_BOTH : Fld := ⟨0xb2058, 26, 26⟩
/-- ACQ.TRIGB.KIND (R348). -/
def Reg.ACQ_TRIGB_KIND : Fld := ⟨0xb2058, 24, 22⟩
/-- ACQ.TRIGB.POINT (R348). -/
def Reg.ACQ_TRIGB_POINT : Fld := ⟨0xb2058, 19, 0⟩
/-- ACQ.TRIGB.POL (R348). -/
def Reg.ACQ_TRIGB_POL : Fld := ⟨0xb2058, 25, 25⟩
/-- ACQ.TRIGB.TYPE (R348). -/
def Reg.ACQ_TRIGB_TYPE : Fld := ⟨0xb2058, 21, 20⟩
/-- ACQ.TRIG_CNT.COUNT (R348). -/
def Reg.ACQ_TRIG_CNT_COUNT : Fld := ⟨0xb20a4, 31, 0⟩
/-- ACQ.TRIG_L.VALUE (R348). -/
def Reg.ACQ_TRIG_L_VALUE (i : Nat) : Fld := ⟨0xb2060 + i * 4, 31, 0⟩
/-- ACQ.WPTR.OFFSET (R348). -/
def Reg.ACQ_WPTR_OFFSET : Fld := ⟨0xb2088, 20, 0⟩
/-- AGE.EYE.LANE (R386). -/
def Reg.AGE_EYE_LANE : Fld := ⟨0x3064, 20, 16⟩
/-- AGE.EYE.MARGIN (R386). -/
def Reg.AGE_EYE_MARGIN : Fld := ⟨0x3064, 15, 0⟩
/-- AGE.FMAX.CLU (R386). -/
def Reg.AGE_FMAX_CLU : Fld := ⟨0x3048, 31, 0⟩
/-- AGE.HOTSPOT.PEAK (R386). -/
def Reg.AGE_HOTSPOT_PEAK : Fld := ⟨0x3054, 31, 16⟩
/-- AGE.HOTSPOT.TEMP (R386). -/
def Reg.AGE_HOTSPOT_TEMP : Fld := ⟨0x3054, 15, 0⟩
/-- AGE.IMAX.EST (R386). -/
def Reg.AGE_IMAX_EST : Fld := ⟨0x3058, 16, 16⟩
/-- AGE.IMAX.LIMIT (R386). -/
def Reg.AGE_IMAX_LIMIT : Fld := ⟨0x3058, 15, 0⟩
/-- AGE.IOUT.CURRENT (R386). -/
def Reg.AGE_IOUT_CURRENT : Fld := ⟨0x305c, 15, 0⟩
/-- AGE.PLAN.CONS (R386). -/
def Reg.AGE_PLAN_CONS : Fld := ⟨0x3044, 30, 30⟩
/-- AGE.PLAN.SURGE_OK (R386). -/
def Reg.AGE_PLAN_SURGE_OK : Fld := ⟨0x3044, 31, 31⟩
/-- AGE.PLAN.VNOM (R386). -/
def Reg.AGE_PLAN_VNOM : Fld := ⟨0x3044, 9, 0⟩
/-- AGE.PLAN.VSURGE (R386). -/
def Reg.AGE_PLAN_VSURGE : Fld := ⟨0x3044, 19, 10⟩
/-- AGE.PMB_ERR.PMB_ERR (R386). -/
def Reg.AGE_PMB_ERR_PMB_ERR : Fld := ⟨0x3078, 15, 0⟩
/-- AGE.PMB.VID (R386). -/
def Reg.AGE_PMB_VID : Fld := ⟨0x306c, 9, 9⟩
/-- AGE.REFUSE_CNT.COUNT (R386). -/
def Reg.AGE_REFUSE_CNT_COUNT : Fld := ⟨0x3074, 31, 0⟩
/-- AGE.REPLAN (R386). -/
def Reg.AGE_REPLAN : Fld := ⟨0x304c, 31, 0⟩
/-- AGE.REPLAN.BUSY (R386). -/
def Reg.AGE_REPLAN_BUSY : Fld := ⟨0x304c, 1, 1⟩
/-- AGE.REPLAN.REQ (R386). -/
def Reg.AGE_REPLAN_REQ : Fld := ⟨0x304c, 0, 0⟩
/-- AGE.REPLAN.RESULT (R386). -/
def Reg.AGE_REPLAN_RESULT : Fld := ⟨0x304c, 3, 2⟩
/-- AGE.STAT.LIFE (R386). -/
def Reg.AGE_STAT_LIFE : Fld := ⟨0x3040, 31, 16⟩
/-- AGE.STAT.MARGIN (R386). -/
def Reg.AGE_STAT_MARGIN : Fld := ⟨0x3040, 15, 0⟩
/-- AGE.SURGE (R386). -/
def Reg.AGE_SURGE : Fld := ⟨0x3050, 31, 0⟩
/-- AGE.SURGE.CAUSE (R386). -/
def Reg.AGE_SURGE_CAUSE : Fld := ⟨0x3050, 10, 8⟩
/-- AGE.SURGE_CNT.COUNT (R386). -/
def Reg.AGE_SURGE_CNT_COUNT : Fld := ⟨0x3070, 31, 0⟩
/-- AGE.SURGE.COOL_S (R386). -/
def Reg.AGE_SURGE_COOL_S : Fld := ⟨0x3050, 31, 16⟩
/-- AGE.SURGE.GRANTED (R386). -/
def Reg.AGE_SURGE_GRANTED : Fld := ⟨0x3050, 1, 1⟩
/-- AGE.SURGE_H.LEFT (R386). -/
def Reg.AGE_SURGE_H_LEFT : Fld := ⟨0x3060, 31, 16⟩
/-- AGE.SURGE_H.USED (R386). -/
def Reg.AGE_SURGE_H_USED : Fld := ⟨0x3060, 15, 0⟩
/-- AGE.SURGE.PEND (R386). -/
def Reg.AGE_SURGE_PEND : Fld := ⟨0x3050, 2, 2⟩
/-- AGE.SURGE.REQ (R386). -/
def Reg.AGE_SURGE_REQ : Fld := ⟨0x3050, 0, 0⟩
/-- AO.BUDGET.MAX (R385). -/
def Reg.AO_BUDGET_MAX : Fld := ⟨0x207c, 31, 16⟩
/-- AO.BUDGET.TYP (R385). -/
def Reg.AO_BUDGET_TYP : Fld := ⟨0x207c, 15, 0⟩
/-- AO.CMP4.EN (R385). -/
def Reg.AO_CMP4_EN : Fld := ⟨0x2058, 0, 0⟩
/-- AO.CMP5.EN (R385). -/
def Reg.AO_CMP5_EN : Fld := ⟨0x205c, 0, 0⟩
/-- AO.CMP5.PULLUP (R385). -/
def Reg.AO_CMP5_PULLUP : Fld := ⟨0x205c, 3, 3⟩
/-- AO.REG.FULL (R385). -/
def Reg.AO_REG_FULL : Fld := ⟨0x2040, 3, 3⟩
/-- AO.REG.RTC_LOST (R385). -/
def Reg.AO_REG_RTC_LOST : Fld := ⟨0x2040, 1, 1⟩
/-- AO.REG.STBY_FULL (R385). -/
def Reg.AO_REG_STBY_FULL : Fld := ⟨0x2040, 4, 4⟩
/-- AO.REG.VAUX_OK (R385). -/
def Reg.AO_REG_VAUX_OK : Fld := ⟨0x2040, 2, 2⟩
/-- AO.RTC_SEC_HI.SEC (R385). -/
def Reg.AO_RTC_SEC_HI_SEC : Fld := ⟨0x204c, 15, 0⟩
/-- AO.RTC_SEC_LO (R385). -/
def Reg.AO_RTC_SEC_LO : Fld := ⟨0x2048, 31, 0⟩
/-- AO.RTC_SEC_LO.SEC (R385). -/
def Reg.AO_RTC_SEC_LO_SEC : Fld := ⟨0x2048, 31, 0⟩
/-- AO.RTC_SUB.SUB (R385). -/
def Reg.AO_RTC_SUB_SUB : Fld := ⟨0x2044, 14, 0⟩
/-- AO.TRK_CTL.ACTIVE (R385). -/
def Reg.AO_TRK_CTL_ACTIVE (i : Nat) : Fld := ⟨0x2064 + i * 0xc, 0, 0⟩
/-- AO.TRK_CTL.ERR (R385). -/
def Reg.AO_TRK_CTL_ERR (i : Nat) : Fld := ⟨0x2064 + i * 0xc, 2, 2⟩
/-- AO.TRK_CTL.VALID (R385). -/
def Reg.AO_TRK_CTL_VALID (i : Nat) : Fld := ⟨0x2064 + i * 0xc, 1, 1⟩
/-- AO.TRK_HI.COUNT (R385). -/
def Reg.AO_TRK_HI_COUNT (i : Nat) : Fld := ⟨0x206c + i * 0xc, 31, 0⟩
/-- AO.TRK_LO.COUNT (R385). -/
def Reg.AO_TRK_LO_COUNT (i : Nat) : Fld := ⟨0x2068 + i * 0xc, 31, 0⟩
/-- AO.WAKEEN.ALARM (R385). -/
def Reg.AO_WAKEEN_ALARM : Fld := ⟨0x2060, 0, 0⟩
/-- AO.WAKEEN.CMP4 (R385). -/
def Reg.AO_WAKEEN_CMP4 : Fld := ⟨0x2060, 1, 1⟩
/-- AO.WAKEEN.CMP5 (R385). -/
def Reg.AO_WAKEEN_CMP5 : Fld := ⟨0x2060, 2, 2⟩
/-- AO.WAKEEN.TRKERR (R385). -/
def Reg.AO_WAKEEN_TRKERR : Fld := ⟨0x2060, 3, 3⟩
/-- AXIS.AREA (R147). -/
def Reg.AXIS_AREA : Fld := ⟨0x80050, 31, 0⟩
/-- AXIS.AREA.EN (R147). -/
def Reg.AXIS_AREA_EN : Fld := ⟨0x80050, 31, 31⟩
/-- AXIS.AREA.SLICE (R147). -/
def Reg.AXIS_AREA_SLICE : Fld := ⟨0x80050, 2, 0⟩
/-- AXIS.CHK_FAIL.AXIS (R147). -/
def Reg.AXIS_CHK_FAIL_AXIS : Fld := ⟨0x80060, 9, 0⟩
/-- AXIS.CHK_FAIL.REASON (R147). -/
def Reg.AXIS_CHK_FAIL_REASON : Fld := ⟨0x80060, 19, 16⟩
/-- AXIS.CHK_FAIL.VALID (R147). -/
def Reg.AXIS_CHK_FAIL_VALID : Fld := ⟨0x80060, 31, 31⟩
/-- AXIS.CMD (R147). -/
def Reg.AXIS_CMD : Fld := ⟨0x80044, 31, 0⟩
/-- AXIS.CMD.INDEX (R147). -/
def Reg.AXIS_CMD_INDEX : Fld := ⟨0x80044, 5, 4⟩
/-- AXIS.CMD.OP (R147). -/
def Reg.AXIS_CMD_OP : Fld := ⟨0x80044, 2, 0⟩
/-- AXIS.CMD.RESULT (R147). -/
def Reg.AXIS_CMD_RESULT : Fld := ⟨0x80044, 30, 28⟩
/-- AXIS.NOTCHF (R147). -/
def Reg.AXIS_NOTCHF : Fld := ⟨0x80048, 31, 0⟩
/-- AXIS.NOTCHF.FREQ (R147). -/
def Reg.AXIS_NOTCHF_FREQ : Fld := ⟨0x80048, 19, 0⟩
/-- AXIS.NOTCHW (R147). -/
def Reg.AXIS_NOTCHW : Fld := ⟨0x8004c, 31, 0⟩
/-- AXIS.NOTCHW.DEPTH (R147). -/
def Reg.AXIS_NOTCHW_DEPTH : Fld := ⟨0x8004c, 31, 24⟩
/-- AXIS.NOTCHW.WIDTH (R147). -/
def Reg.AXIS_NOTCHW_WIDTH : Fld := ⟨0x8004c, 19, 0⟩
/-- AXIS.SEL (R147). -/
def Reg.AXIS_SEL : Fld := ⟨0x80040, 31, 0⟩
/-- AXIS.SEL.AXIS (R147). -/
def Reg.AXIS_SEL_AXIS : Fld := ⟨0x80040, 9, 0⟩
/-- AXIS.SEL.VIEW (R147). -/
def Reg.AXIS_SEL_VIEW : Fld := ⟨0x80040, 31, 31⟩
/-- AXIS.WIN (R147). -/
def Reg.AXIS_WIN (i : Nat) : Fld := ⟨0x80100 + i * 4, 31, 0⟩
/-- BOOT.BOOT_CNT.COUNT (R403). -/
def Reg.BOOT_BOOT_CNT_COUNT : Fld := ⟨0xd0090, 31, 0⟩
/-- BOOT.CMD.BLOCK (R403). -/
def Reg.BOOT_CMD_BLOCK : Fld := ⟨0xd004c, 14, 0⟩
/-- BOOT.CMD.OP (R403). -/
def Reg.BOOT_CMD_OP : Fld := ⟨0xd004c, 22, 20⟩
/-- BOOT.CMD.RESULT (R403). -/
def Reg.BOOT_CMD_RESULT : Fld := ⟨0xd004c, 30, 28⟩
/-- BOOT.CMD.SLOT (R403). -/
def Reg.BOOT_CMD_SLOT : Fld := ⟨0xd004c, 19, 19⟩
/-- BOOT.EXCL_HI.ENG (R403). -/
def Reg.BOOT_EXCL_HI_ENG : Fld := ⟨0xd0088, 31, 0⟩
/-- BOOT.EXCL_LO.ENG (R403). -/
def Reg.BOOT_EXCL_LO_ENG : Fld := ⟨0xd0084, 31, 0⟩
/-- BOOT.EXCL_MEM.BANKS (R403). -/
def Reg.BOOT_EXCL_MEM_BANKS : Fld := ⟨0xd008c, 11, 4⟩
/-- BOOT.EXCL_MEM.CLU (R403). -/
def Reg.BOOT_EXCL_MEM_CLU : Fld := ⟨0xd008c, 3, 0⟩
/-- BOOT.FAIL_CNT.COUNT (R403). -/
def Reg.BOOT_FAIL_CNT_COUNT : Fld := ⟨0xd0094, 31, 0⟩
/-- BOOT.HOSTIMG.BLOCK (R403). -/
def Reg.BOOT_HOSTIMG_BLOCK : Fld := ⟨0xd0048, 14, 0⟩
/-- BOOT.JOURNAL.WORD (R403). -/
def Reg.BOOT_JOURNAL_WORD (i : Nat) : Fld := ⟨0xd0054 + i * 4, 31, 0⟩
/-- BOOT.LASTDUR.US (R403). -/
def Reg.BOOT_LASTDUR_US : Fld := ⟨0xd0098, 31, 0⟩
/-- BOOT.SRC.HOST (R403). -/
def Reg.BOOT_SRC_HOST : Fld := ⟨0xd0044, 0, 0⟩
/-- BOOT.SRC.WANT (R403). -/
def Reg.BOOT_SRC_WANT : Fld := ⟨0xd0044, 1, 1⟩
/-- BOOT.STAT.DBG_OPEN (R403). -/
def Reg.BOOT_STAT_DBG_OPEN : Fld := ⟨0xd0040, 29, 29⟩
/-- BOOT.STAT.DONE (R403). -/
def Reg.BOOT_STAT_DONE : Fld := ⟨0xd0040, 30, 30⟩
/-- BOOT.STAT.FAILSTEP (R403). -/
def Reg.BOOT_STAT_FAILSTEP : Fld := ⟨0xd0040, 15, 12⟩
/-- BOOT.STAT.HALTED (R403). -/
def Reg.BOOT_STAT_HALTED : Fld := ⟨0xd0040, 31, 31⟩
/-- BOOT.STAT.IMAGE (R403). -/
def Reg.BOOT_STAT_IMAGE : Fld := ⟨0xd0040, 24, 24⟩
/-- BOOT.STAT.STEP (R403). -/
def Reg.BOOT_STAT_STEP : Fld := ⟨0xd0040, 3, 0⟩
/-- CAN.BOFF_CNT.COUNT (R362). -/
def Reg.CAN_BOFF_CNT_COUNT (n : Nat) : Fld := ⟨0xc0074 + n * 0x1000, 31, 0⟩
/-- CAN.BSEL.BUF (R362). -/
def Reg.CAN_BSEL_BUF (n : Nat) : Fld := ⟨0xc0050 + n * 0x1000, 5, 0⟩
/-- CAN.BSEL.RX (R362). -/
def Reg.CAN_BSEL_RX (n : Nat) : Fld := ⟨0xc0050 + n * 0x1000, 6, 6⟩
/-- CAN.BUS_ERR.COUNT (R362). -/
def Reg.CAN_BUS_ERR_COUNT (n : Nat) : Fld := ⟨0xc0084 + n * 0x1000, 15, 0⟩
/-- CAN.CLASH_ERR.COUNT (R362). -/
def Reg.CAN_CLASH_ERR_COUNT (n : Nat) : Fld := ⟨0xc0080 + n * 0x1000, 15, 0⟩
/-- CAN.CTRL.AUTOREC (R362). -/
def Reg.CAN_CTRL_AUTOREC (n : Nat) : Fld := ⟨0xc0040 + n * 0x1000, 2, 2⟩
/-- CAN.CTRL.EN (R362). -/
def Reg.CAN_CTRL_EN (n : Nat) : Fld := ⟨0xc0040 + n * 0x1000, 0, 0⟩
/-- CAN.CTRL.LISTEN (R362). -/
def Reg.CAN_CTRL_LISTEN (n : Nat) : Fld := ⟨0xc0040 + n * 0x1000, 1, 1⟩
/-- CAN.CTRL.RECOVER (R362). -/
def Reg.CAN_CTRL_RECOVER (n : Nat) : Fld := ⟨0xc0040 + n * 0x1000, 3, 3⟩
/-- CAN.NOMATCH_CNT.COUNT (R362). -/
def Reg.CAN_NOMATCH_CNT_COUNT (n : Nat) : Fld := ⟨0xc0070 + n * 0x1000, 31, 0⟩
/-- CAN.OVR_ERR.COUNT (R362). -/
def Reg.CAN_OVR_ERR_COUNT (n : Nat) : Fld := ⟨0xc007c + n * 0x1000, 15, 0⟩
/-- CAN.RXAGE.CYCLES (R362). -/
def Reg.CAN_RXAGE_CYCLES (n : Nat) : Fld := ⟨0xc0064 + n * 0x1000, 7, 0⟩
/-- CAN.RXFULL_HI.FULL (R362). -/
def Reg.CAN_RXFULL_HI_FULL (n : Nat) : Fld := ⟨0xc005c + n * 0x1000, 31, 0⟩
/-- CAN.RXFULL_LO.FULL (R362). -/
def Reg.CAN_RXFULL_LO_FULL (n : Nat) : Fld := ⟨0xc0058 + n * 0x1000, 31, 0⟩
/-- CAN.RXID.EN (R362). -/
def Reg.CAN_RXID_EN (n : Nat) (i : Nat) : Fld := ⟨0xc0180 + n * 0x1000 + i * 8, 31, 31⟩
/-- CAN.RXID.ID (R362). -/
def Reg.CAN_RXID_ID (n : Nat) (i : Nat) : Fld := ⟨0xc0180 + n * 0x1000 + i * 8, 28, 0⟩
/-- CAN.RXID.MAP (R362). -/
def Reg.CAN_RXID_MAP (n : Nat) (i : Nat) : Fld := ⟨0xc0180 + n * 0x1000 + i * 8, 30, 30⟩
/-- CAN.RXID.XTD (R362). -/
def Reg.CAN_RXID_XTD (n : Nat) (i : Nat) : Fld := ⟨0xc0180 + n * 0x1000 + i * 8, 29, 29⟩
/-- CAN.RXMASK.MASK (R362). -/
def Reg.CAN_RXMASK_MASK (n : Nat) (i : Nat) : Fld := ⟨0xc0184 + n * 0x1000 + i * 8, 28, 0⟩
/-- CAN.RXMASK.XTDM (R362). -/
def Reg.CAN_RXMASK_XTDM (n : Nat) (i : Nat) : Fld := ⟨0xc0184 + n * 0x1000 + i * 8, 29, 29⟩
/-- CAN.RXREL.BUF (R362). -/
def Reg.CAN_RXREL_BUF (n : Nat) : Fld := ⟨0xc0054 + n * 0x1000, 5, 0⟩
/-- CAN.RX_CNT.COUNT (R362). -/
def Reg.CAN_RX_CNT_COUNT (n : Nat) : Fld := ⟨0xc006c + n * 0x1000, 31, 0⟩
/-- CAN.STAT.REC (R362). -/
def Reg.CAN_STAT_REC (n : Nat) : Fld := ⟨0xc004c + n * 0x1000, 7, 0⟩
/-- CAN.STAT.STATE (R362). -/
def Reg.CAN_STAT_STATE (n : Nat) : Fld := ⟨0xc004c + n * 0x1000, 18, 17⟩
/-- CAN.STAT.SYNC (R362). -/
def Reg.CAN_STAT_SYNC (n : Nat) : Fld := ⟨0xc004c + n * 0x1000, 19, 19⟩
/-- CAN.STAT.TEC (R362). -/
def Reg.CAN_STAT_TEC (n : Nat) : Fld := ⟨0xc004c + n * 0x1000, 16, 8⟩
/-- CAN.TXCTRL.CANCEL (R362). -/
def Reg.CAN_TXCTRL_CANCEL (n : Nat) (i : Nat) : Fld := ⟨0xc0100 + n * 0x1000 + i * 4, 1, 1⟩
/-- CAN.TXCTRL.CLR (R362). -/
def Reg.CAN_TXCTRL_CLR (n : Nat) (i : Nat) : Fld := ⟨0xc0100 + n * 0x1000 + i * 4, 2, 2⟩
/-- CAN.TXCTRL.MAP (R362). -/
def Reg.CAN_TXCTRL_MAP (n : Nat) (i : Nat) : Fld := ⟨0xc0100 + n * 0x1000 + i * 4, 3, 3⟩
/-- CAN.TXCTRL.PER (R362). -/
def Reg.CAN_TXCTRL_PER (n : Nat) (i : Nat) : Fld := ⟨0xc0100 + n * 0x1000 + i * 4, 15, 8⟩
/-- CAN.TXCTRL.REQ (R362). -/
def Reg.CAN_TXCTRL_REQ (n : Nat) (i : Nat) : Fld := ⟨0xc0100 + n * 0x1000 + i * 4, 0, 0⟩
/-- CAN.TXCTRL.STATE (R362). -/
def Reg.CAN_TXCTRL_STATE (n : Nat) (i : Nat) : Fld := ⟨0xc0100 + n * 0x1000 + i * 4, 7, 4⟩
/-- CAN.TXOVW_CNT.COUNT (R362). -/
def Reg.CAN_TXOVW_CNT_COUNT (n : Nat) : Fld := ⟨0xc0078 + n * 0x1000, 31, 0⟩
/-- CAN.TXPEND.PEND (R362). -/
def Reg.CAN_TXPEND_PEND (n : Nat) : Fld := ⟨0xc0060 + n * 0x1000, 31, 0⟩
/-- CAN.TX_CNT.COUNT (R362). -/
def Reg.CAN_TX_CNT_COUNT (n : Nat) : Fld := ⟨0xc0068 + n * 0x1000, 31, 0⟩
/-- CAPT.AT_HI.TIME (R241). -/
def Reg.CAPT_AT_HI_TIME (i : Nat) : Fld := ⟨0x99148 + i * 0x20, 31, 0⟩
/-- CAPT.AT_LO.TIME (R241). -/
def Reg.CAPT_AT_LO_TIME (i : Nat) : Fld := ⟨0x99144 + i * 0x20, 31, 0⟩
/-- CAPT.CAPT_CNT.CAPT_CNT (R241). -/
def Reg.CAPT_CAPT_CNT_CAPT_CNT (i : Nat) : Fld := ⟨0x99054 + i * 0x20, 31, 0⟩
/-- CAPT.CFG.EDGE (R241). -/
def Reg.CAPT_CFG_EDGE (i : Nat) : Fld := ⟨0x99040 + i * 0x20, 2, 1⟩
/-- CAPT.CFG.EN (R241). -/
def Reg.CAPT_CFG_EN (i : Nat) : Fld := ⟨0x99040 + i * 0x20, 0, 0⟩
/-- CAPT.CFG.FILT (R241). -/
def Reg.CAPT_CFG_FILT (i : Nat) : Fld := ⟨0x99040 + i * 0x20, 15, 8⟩
/-- CAPT.EDGE_CNT.EDGE_CNT (R241). -/
def Reg.CAPT_EDGE_CNT_EDGE_CNT (i : Nat) : Fld := ⟨0x99158 + i * 0x20, 31, 0⟩
/-- CAPT.OVF_ERR.OVF_ERR (R241). -/
def Reg.CAPT_OVF_ERR_OVF_ERR (i : Nat) : Fld := ⟨0x99050 + i * 0x20, 15, 0⟩
/-- CAPT.PERIOD.NS (R241). -/
def Reg.CAPT_PERIOD_NS (i : Nat) : Fld := ⟨0x99150 + i * 0x20, 31, 0⟩
/-- CAPT.STAT.RISE (R241). -/
def Reg.CAPT_STAT_RISE (i : Nat) : Fld := ⟨0x9904c + i * 0x20, 5, 5⟩
/-- CAPT.TCFG (R241). -/
def Reg.CAPT_TCFG (i : Nat) : Fld := ⟨0x99140 + i * 0x20, 31, 0⟩
/-- CAPT.TCFG.ARM (R241). -/
def Reg.CAPT_TCFG_ARM (i : Nat) : Fld := ⟨0x99140 + i * 0x20, 5, 5⟩
/-- CAPT.TCFG.EN (R241). -/
def Reg.CAPT_TCFG_EN (i : Nat) : Fld := ⟨0x99140 + i * 0x20, 0, 0⟩
/-- CAPT.TCFG.MODE (R241). -/
def Reg.CAPT_TCFG_MODE (i : Nat) : Fld := ⟨0x99140 + i * 0x20, 3, 2⟩
/-- CAPT.TCFG.POL (R241). -/
def Reg.CAPT_TCFG_POL (i : Nat) : Fld := ⟨0x99140 + i * 0x20, 4, 4⟩
/-- CAPT.TSTAT.ARMED (R241). -/
def Reg.CAPT_TSTAT_ARMED (i : Nat) : Fld := ⟨0x99154 + i * 0x20, 1, 1⟩
/-- CAPT.TSTAT.LATE (R241). -/
def Reg.CAPT_TSTAT_LATE (i : Nat) : Fld := ⟨0x99154 + i * 0x20, 2, 2⟩
/-- CAPT.TSTAT.LEVEL (R241). -/
def Reg.CAPT_TSTAT_LEVEL (i : Nat) : Fld := ⟨0x99154 + i * 0x20, 0, 0⟩
/-- CAPT.TS_HI.TIME (R241). -/
def Reg.CAPT_TS_HI_TIME (i : Nat) : Fld := ⟨0x99048 + i * 0x20, 31, 0⟩
/-- CAPT.TS_LO (R241). -/
def Reg.CAPT_TS_LO (i : Nat) : Fld := ⟨0x99044 + i * 0x20, 31, 0⟩
/-- CAPT.TS_LO.TIME (R241). -/
def Reg.CAPT_TS_LO_TIME (i : Nat) : Fld := ⟨0x99044 + i * 0x20, 31, 0⟩
/-- CAPT.WIDTH.NS (R241). -/
def Reg.CAPT_WIDTH_NS (i : Nat) : Fld := ⟨0x9914c + i * 0x20, 29, 0⟩
/-- CIST.CAS (R335). -/
def Reg.CIST_CAS : Fld := ⟨0xb0040, 31, 0⟩
/-- CIST.CASF_CNT.CASF_CNT (R335). -/
def Reg.CIST_CASF_CNT_CASF_CNT : Fld := ⟨0xb0054, 31, 0⟩
/-- CIST.CAS.NEW (R335). -/
def Reg.CIST_CAS_NEW : Fld := ⟨0xb0040, 31, 30⟩
/-- CIST.CAS_RES (R335). -/
def Reg.CIST_CAS_RES : Fld := ⟨0xb0044, 31, 0⟩
/-- CIST.FSEL.SLICE (R335). -/
def Reg.CIST_FSEL_SLICE : Fld := ⟨0xb0048, 2, 0⟩
/-- CIST.NOWN_ERR.COUNT (R335). -/
def Reg.CIST_NOWN_ERR_COUNT : Fld := ⟨0xb004c, 15, 0⟩
/-- CIST.PRIV_ERR.COUNT (R335). -/
def Reg.CIST_PRIV_ERR_COUNT : Fld := ⟨0xb0050, 15, 0⟩
/-- CIST.SNAP_CMD (R335). -/
def Reg.CIST_SNAP_CMD : Fld := ⟨0xb0064, 31, 0⟩
/-- CIST.SNAP_CMD.BUSY (R335). -/
def Reg.CIST_SNAP_CMD_BUSY : Fld := ⟨0xb0064, 1, 1⟩
/-- CIST.SNAP_CMD.DONE (R335). -/
def Reg.CIST_SNAP_CMD_DONE : Fld := ⟨0xb0064, 2, 2⟩
/-- CIST.SNAP_CMD.ERR (R335). -/
def Reg.CIST_SNAP_CMD_ERR : Fld := ⟨0xb0064, 3, 3⟩
/-- CIST.SNAP_CMD.GO (R335). -/
def Reg.CIST_SNAP_CMD_GO : Fld := ⟨0xb0064, 0, 0⟩
/-- CIST.SNAP_DST.BLOCK (R335). -/
def Reg.CIST_SNAP_DST_BLOCK : Fld := ⟨0xb0060, 14, 0⟩
/-- CIST.SNAP_N.COUNT (R335). -/
def Reg.CIST_SNAP_N_COUNT : Fld := ⟨0xb005c, 20, 0⟩
/-- CIST.SNAP_PT.POINT (R335). -/
def Reg.CIST_SNAP_PT_POINT : Fld := ⟨0xb0058, 19, 0⟩
/-- CLU.CFG.LEND_EN (R68). -/
def Reg.CLU_CFG_LEND_EN (n : Nat) : Fld := ⟨0x10040 + n * 0x1000, 3, 3⟩
/-- CLU.CFG.PFMODE (R68). -/
def Reg.CLU_CFG_PFMODE (n : Nat) : Fld := ⟨0x10040 + n * 0x1000, 1, 0⟩
/-- CLU.CFG.STEAL_EN (R68). -/
def Reg.CLU_CFG_STEAL_EN (n : Nat) : Fld := ⟨0x10040 + n * 0x1000, 2, 2⟩
/-- CLU.CLOCKED.CLOCKED (R68). -/
def Reg.CLU_CLOCKED_CLOCKED (n : Nat) : Fld := ⟨0x10070 + n * 0x1000, 31, 0⟩
/-- CLU.FULL_CNT (R68). -/
def Reg.CLU_FULL_CNT (n : Nat) : Fld := ⟨0x1005c + n * 0x1000, 31, 0⟩
/-- CLU.LSTEAL_CNT.LSTEAL_CNT (R68). -/
def Reg.CLU_LSTEAL_CNT_LSTEAL_CNT (n : Nat) : Fld := ⟨0x10060 + n * 0x1000, 31, 0⟩
/-- CLU.PREEMPT_CNT (R68). -/
def Reg.CLU_PREEMPT_CNT (n : Nat) : Fld := ⟨0x10068 + n * 0x1000, 31, 0⟩
/-- CLU.WELL.PEAK (R68). -/
def Reg.CLU_WELL_PEAK (n : Nat) (i : Nat) : Fld := ⟨0x1004c + n * 0x1000 + i * 4, 25, 16⟩
/-- CLU.WITHDRAW (R68). -/
def Reg.CLU_WITHDRAW (n : Nat) : Fld := ⟨0x10044 + n * 0x1000, 31, 0⟩
/-- CLU.WITHDRAW.ENG (R68). -/
def Reg.CLU_WITHDRAW_ENG (n : Nat) : Fld := ⟨0x10044 + n * 0x1000, 15, 0⟩
/-- CLU.XSTEAL_CNT.XSTEAL_CNT (R68). -/
def Reg.CLU_XSTEAL_CNT_XSTEAL_CNT (n : Nat) : Fld := ⟨0x10064 + n * 0x1000, 31, 0⟩
/-- CLU.YIELD_CNT.YIELD_CNT (R68). -/
def Reg.CLU_YIELD_CNT_YIELD_CNT (n : Nat) : Fld := ⟨0x10074 + n * 0x1000, 31, 0⟩
/-- CYC.CAP_LIMIT (R421). -/
def Reg.CYC_CAP_LIMIT : Fld := ⟨0x1407c, 31, 0⟩
/-- CYC.CAP_NE.F (R421). -/
def Reg.CYC_CAP_NE_F : Fld := ⟨0x14074, 26, 16⟩
/-- CYC.CAP_NE.NE (R421). -/
def Reg.CYC_CAP_NE_NE : Fld := ⟨0x14074, 6, 0⟩
/-- CYC.CAP_SUM (R421). -/
def Reg.CYC_CAP_SUM : Fld := ⟨0x14078, 31, 0⟩
/-- CYC.COMMIT_AT_HI (R421). -/
def Reg.CYC_COMMIT_AT_HI : Fld := ⟨0x14054, 31, 0⟩
/-- CYC.COMMIT_AT_HI.CYCLE (R421). -/
def Reg.CYC_COMMIT_AT_HI_CYCLE : Fld := ⟨0x14054, 31, 0⟩
/-- CYC.COMMIT_AT_LO (R421). -/
def Reg.CYC_COMMIT_AT_LO : Fld := ⟨0x14050, 31, 0⟩
/-- CYC.COMMIT_AT_LO.CYCLE (R421). -/
def Reg.CYC_COMMIT_AT_LO_CYCLE : Fld := ⟨0x14050, 31, 0⟩
/-- CYC.COMMIT_MASK (R421). -/
def Reg.CYC_COMMIT_MASK : Fld := ⟨0x14058, 31, 0⟩
/-- CYC.COMMIT_MASK.AXIS (R421). -/
def Reg.CYC_COMMIT_MASK_AXIS : Fld := ⟨0x14058, 0, 0⟩
/-- CYC.COMMIT_MASK.MOTION (R421). -/
def Reg.CYC_COMMIT_MASK_MOTION : Fld := ⟨0x14058, 1, 1⟩
/-- CYC.COMMIT_STAT.CHKFAIL (R421). -/
def Reg.CYC_COMMIT_STAT_CHKFAIL : Fld := ⟨0x1405c, 3, 3⟩
/-- CYC.COMMIT_STAT.DONE (R421). -/
def Reg.CYC_COMMIT_STAT_DONE : Fld := ⟨0x1405c, 2, 2⟩
/-- CYC.COMMIT_STAT.LATE (R421). -/
def Reg.CYC_COMMIT_STAT_LATE : Fld := ⟨0x1405c, 1, 1⟩
/-- CYC.COMMIT_STAT.PEND (R421). -/
def Reg.CYC_COMMIT_STAT_PEND : Fld := ⟨0x1405c, 0, 0⟩
/-- CYC.CYCLE_HI.COUNT (R421). -/
def Reg.CYC_CYCLE_HI_COUNT : Fld := ⟨0x14044, 31, 0⟩
/-- CYC.CYCLE_LO.COUNT (R421). -/
def Reg.CYC_CYCLE_LO_COUNT : Fld := ⟨0x14040, 31, 0⟩
/-- CYC.FLUSH_CNT (R421). -/
def Reg.CYC_FLUSH_CNT : Fld := ⟨0x14060, 31, 0⟩
/-- CYC.FLUSH_CNT.COUNT (R421). -/
def Reg.CYC_FLUSH_CNT_COUNT : Fld := ⟨0x14060, 31, 0⟩
/-- CYC.GBANK.CHECKED (R421). -/
def Reg.CYC_GBANK_CHECKED : Fld := ⟨0x14108, 16, 16⟩
/-- CYC.GBANK.SCHED (R421). -/
def Reg.CYC_GBANK_SCHED : Fld := ⟨0x14108, 15, 0⟩
/-- CYC.GCHK.ITEM (R421). -/
def Reg.CYC_GCHK_ITEM : Fld := ⟨0x14104, 15, 0⟩
/-- CYC.GCHK.REASON (R421). -/
def Reg.CYC_GCHK_REASON : Fld := ⟨0x14104, 19, 16⟩
/-- CYC.GCHK.VALID (R421). -/
def Reg.CYC_GCHK_VALID : Fld := ⟨0x14104, 31, 31⟩
/-- CYC.GCMD (R421). -/
def Reg.CYC_GCMD : Fld := ⟨0x14100, 31, 0⟩
/-- CYC.GCMD.BLOCK (R421). -/
def Reg.CYC_GCMD_BLOCK : Fld := ⟨0x14100, 14, 0⟩
/-- CYC.GCMD.BUSY (R421). -/
def Reg.CYC_GCMD_BUSY : Fld := ⟨0x14100, 31, 31⟩
/-- CYC.GCMD.ENGINE (R421). -/
def Reg.CYC_GCMD_ENGINE : Fld := ⟨0x14100, 27, 22⟩
/-- CYC.GCMD.OP (R421). -/
def Reg.CYC_GCMD_OP : Fld := ⟨0x14100, 17, 16⟩
/-- CYC.GCMD.RESULT (R421). -/
def Reg.CYC_GCMD_RESULT : Fld := ⟨0x14100, 30, 28⟩
/-- CYC.GRAPH_BANK.ACTIVE (R421). -/
def Reg.CYC_GRAPH_BANK_ACTIVE : Fld := ⟨0x1404c, 0, 0⟩
/-- CYC.LATE_CNT.COUNT (R421). -/
def Reg.CYC_LATE_CNT_COUNT : Fld := ⟨0x14064, 31, 0⟩
/-- CYC.OVERRUN_CNT.COUNT (R421). -/
def Reg.CYC_OVERRUN_CNT_COUNT : Fld := ⟨0x14068, 31, 0⟩
/-- CYC.PERIOD.NS (R421). -/
def Reg.CYC_PERIOD_NS : Fld := ⟨0x14048, 31, 0⟩
/-- CYC.SHED_CNT (R421). -/
def Reg.CYC_SHED_CNT : Fld := ⟨0x1406c, 31, 0⟩
/-- CYC.SHED_MAP (R421). -/
def Reg.CYC_SHED_MAP (i : Nat) : Fld := ⟨0x14080 + i * 4, 31, 0⟩
/-- CYC.UNDERFLOW_ERR.UNDERFLOW_ERR (R421). -/
def Reg.CYC_UNDERFLOW_ERR_UNDERFLOW_ERR : Fld := ⟨0x14070, 15, 0⟩
/-- EMU.CFG.EN (R175). -/
def Reg.EMU_CFG_EN (i : Nat) : Fld := ⟨0x98040 + i * 0x20, 0, 0⟩
/-- EMU.CFG.INV (R175). -/
def Reg.EMU_CFG_INV (i : Nat) : Fld := ⟨0x98040 + i * 0x20, 2, 2⟩
/-- EMU.CFG.MODE (R175). -/
def Reg.EMU_CFG_MODE (i : Nat) : Fld := ⟨0x98040 + i * 0x20, 1, 1⟩
/-- EMU.DEN.VALUE (R175). -/
def Reg.EMU_DEN_VALUE (i : Nat) : Fld := ⟨0x9804c + i * 0x20, 30, 0⟩
/-- EMU.FMAX.KHZ (R175). -/
def Reg.EMU_FMAX_KHZ (i : Nat) : Fld := ⟨0x98050 + i * 0x20, 12, 0⟩
/-- EMU.LAGMAX.LAGMAX (R175). -/
def Reg.EMU_LAGMAX_LAGMAX (i : Nat) : Fld := ⟨0x98058 + i * 0x20, 31, 0⟩
/-- EMU.NUM.VALUE (R175). -/
def Reg.EMU_NUM_VALUE (i : Nat) : Fld := ⟨0x98048 + i * 0x20, 30, 0⟩
/-- EMU.SHIFT_CNT.SHIFT_CNT (R175). -/
def Reg.EMU_SHIFT_CNT_SHIFT_CNT (i : Nat) : Fld := ⟨0x9805c + i * 0x20, 31, 0⟩
/-- EMU.SRC.POINT (R175). -/
def Reg.EMU_SRC_POINT (i : Nat) : Fld := ⟨0x98044 + i * 0x20, 19, 0⟩
/-- EMU.STAT.LAG (R175). -/
def Reg.EMU_STAT_LAG (i : Nat) : Fld := ⟨0x98054 + i * 0x20, 2, 2⟩
/-- EMU.STAT.LAGSTK (R175). -/
def Reg.EMU_STAT_LAGSTK (i : Nat) : Fld := ⟨0x98054 + i * 0x20, 3, 3⟩
/-- EMU.STAT.SHIFT (R175). -/
def Reg.EMU_STAT_SHIFT (i : Nat) : Fld := ⟨0x98054 + i * 0x20, 1, 0⟩
/-- ENC.BASE_HI.BASE (R310). -/
def Reg.ENC_BASE_HI_BASE (n : Nat) : Fld := ⟨0x90068 + n * 0x1000, 31, 0⟩
/-- ENC.BASE_LO.BASE (R310). -/
def Reg.ENC_BASE_LO_BASE (n : Nat) : Fld := ⟨0x90064 + n * 0x1000, 31, 0⟩
/-- ENC.CFG.AOTRACK (R310). -/
def Reg.ENC_CFG_AOTRACK (n : Nat) : Fld := ⟨0x90040 + n * 0x1000, 11, 11⟩
/-- ENC.CFG.FILT (R310). -/
def Reg.ENC_CFG_FILT (n : Nat) : Fld := ⟨0x90040 + n * 0x1000, 9, 6⟩
/-- ENC.CFG.INV (R310). -/
def Reg.ENC_CFG_INV (n : Nat) : Fld := ⟨0x90040 + n * 0x1000, 3, 3⟩
/-- ENC.CFG.TYPE (R310). -/
def Reg.ENC_CFG_TYPE (n : Nat) : Fld := ⟨0x90040 + n * 0x1000, 2, 0⟩
/-- ENC.CFG.ZEN (R310). -/
def Reg.ENC_CFG_ZEN (n : Nat) : Fld := ⟨0x90040 + n * 0x1000, 10, 10⟩
/-- ENC.CRCPOLY.INIT (R310). -/
def Reg.ENC_CRCPOLY_INIT (n : Nat) : Fld := ⟨0x9004c + n * 0x1000, 31, 16⟩
/-- ENC.CRCPOLY.POLY (R310). -/
def Reg.ENC_CRCPOLY_POLY (n : Nat) : Fld := ⟨0x9004c + n * 0x1000, 15, 0⟩
/-- ENC.CRC_ERR.COUNT (R310). -/
def Reg.ENC_CRC_ERR_COUNT (n : Nat) : Fld := ⟨0x90088 + n * 0x1000, 15, 0⟩
/-- ENC.CTRL (R310). -/
def Reg.ENC_CTRL (n : Nat) : Fld := ⟨0x90060 + n * 0x1000, 31, 0⟩
/-- ENC.CTRL.CLR (R310). -/
def Reg.ENC_CTRL_CLR (n : Nat) : Fld := ⟨0x90060 + n * 0x1000, 0, 0⟩
/-- ENC.CTRL.LOAD (R310). -/
def Reg.ENC_CTRL_LOAD (n : Nat) : Fld := ⟨0x90060 + n * 0x1000, 2, 2⟩
/-- ENC.CTRL.ZARM (R310). -/
def Reg.ENC_CTRL_ZARM (n : Nat) : Fld := ⟨0x90060 + n * 0x1000, 1, 1⟩
/-- ENC.DLY.NS (R310). -/
def Reg.ENC_DLY_NS (n : Nat) : Fld := ⟨0x90098 + n * 0x1000, 15, 0⟩
/-- ENC.EBIT_ERR.COUNT (R310). -/
def Reg.ENC_EBIT_ERR_COUNT (n : Nat) : Fld := ⟨0x9008c + n * 0x1000, 15, 0⟩
/-- ENC.EDGE.EDGE (R310). -/
def Reg.ENC_EDGE_EDGE (n : Nat) (i : Nat) : Fld := ⟨0x90070 + n * 0x1000 + i * 4, 31, 0⟩
/-- ENC.FAIL.FAIL_LIM (R310). -/
def Reg.ENC_FAIL_FAIL_LIM (n : Nat) : Fld := ⟨0x9005c + n * 0x1000, 7, 0⟩
/-- ENC.POS_HI.COUNT (R310). -/
def Reg.ENC_POS_HI_COUNT (n : Nat) : Fld := ⟨0x90084 + n * 0x1000, 31, 0⟩
/-- ENC.QERR_ERR.COUNT (R310). -/
def Reg.ENC_QERR_ERR_COUNT (n : Nat) : Fld := ⟨0x90094 + n * 0x1000, 15, 0⟩
/-- ENC.SAMPLE.NS (R310). -/
def Reg.ENC_SAMPLE_NS (n : Nat) : Fld := ⟨0x90050 + n * 0x1000, 21, 0⟩
/-- ENC.SCFG.CRCINV (R310). -/
def Reg.ENC_SCFG_CRCINV (n : Nat) : Fld := ⟨0x90044 + n * 0x1000, 17, 17⟩
/-- ENC.SCFG.CRC_EN (R310). -/
def Reg.ENC_SCFG_CRC_EN (n : Nat) : Fld := ⟨0x90044 + n * 0x1000, 16, 16⟩
/-- ENC.SCFG.CRC_LEN (R310). -/
def Reg.ENC_SCFG_CRC_LEN (n : Nat) : Fld := ⟨0x90044 + n * 0x1000, 15, 12⟩
/-- ENC.SCFG.EBIT_EN (R310). -/
def Reg.ENC_SCFG_EBIT_EN (n : Nat) : Fld := ⟨0x90044 + n * 0x1000, 10, 10⟩
/-- ENC.SCFG.EPOL (R310). -/
def Reg.ENC_SCFG_EPOL (n : Nat) : Fld := ⟨0x90044 + n * 0x1000, 11, 11⟩
/-- ENC.SCFG.GRAY (R310). -/
def Reg.ENC_SCFG_GRAY (n : Nat) : Fld := ⟨0x90044 + n * 0x1000, 9, 9⟩
/-- ENC.SCFG.LEN (R310). -/
def Reg.ENC_SCFG_LEN (n : Nat) : Fld := ⟨0x90044 + n * 0x1000, 5, 0⟩
/-- ENC.SPDCFG.STILL_WIN (R310). -/
def Reg.ENC_SPDCFG_STILL_WIN (n : Nat) : Fld := ⟨0x90058 + n * 0x1000, 23, 16⟩
/-- ENC.SPDCFG.WIN (R310). -/
def Reg.ENC_SPDCFG_WIN (n : Nat) : Fld := ⟨0x90058 + n * 0x1000, 8, 0⟩
/-- ENC.STAT (R310). -/
def Reg.ENC_STAT (n : Nat) : Fld := ⟨0x9006c + n * 0x1000, 31, 0⟩
/-- ENC.STAT.FAULT (R310). -/
def Reg.ENC_STAT_FAULT (n : Nat) : Fld := ⟨0x9006c + n * 0x1000, 0, 0⟩
/-- ENC.STAT.LASTFAIL (R310). -/
def Reg.ENC_STAT_LASTFAIL (n : Nat) : Fld := ⟨0x9006c + n * 0x1000, 13, 11⟩
/-- ENC.STAT.LOWRES (R310). -/
def Reg.ENC_STAT_LOWRES (n : Nat) : Fld := ⟨0x9006c + n * 0x1000, 3, 3⟩
/-- ENC.STAT.REF_LOST (R310). -/
def Reg.ENC_STAT_REF_LOST (n : Nat) : Fld := ⟨0x9006c + n * 0x1000, 5, 5⟩
/-- ENC.STAT.REV (R310). -/
def Reg.ENC_STAT_REV (n : Nat) : Fld := ⟨0x9006c + n * 0x1000, 4, 4⟩
/-- ENC.STAT.SECTOR (R310). -/
def Reg.ENC_STAT_SECTOR (n : Nat) : Fld := ⟨0x9006c + n * 0x1000, 10, 8⟩
/-- ENC.STAT.STALE (R310). -/
def Reg.ENC_STAT_STALE (n : Nat) : Fld := ⟨0x9006c + n * 0x1000, 1, 1⟩
/-- ENC.STAT.STILL (R310). -/
def Reg.ENC_STAT_STILL (n : Nat) : Fld := ⟨0x9006c + n * 0x1000, 2, 2⟩
/-- ENC.STAT.WARN (R310). -/
def Reg.ENC_STAT_WARN (n : Nat) : Fld := ⟨0x9006c + n * 0x1000, 7, 7⟩
/-- ENC.STAT.ZARMED (R310). -/
def Reg.ENC_STAT_ZARMED (n : Nat) : Fld := ⟨0x9006c + n * 0x1000, 6, 6⟩
/-- ENC.TIMEOUT.NS (R310). -/
def Reg.ENC_TIMEOUT_NS (n : Nat) : Fld := ⟨0x90054 + n * 0x1000, 21, 0⟩
/-- ENC.TMO_ERR.COUNT (R310). -/
def Reg.ENC_TMO_ERR_COUNT (n : Nat) : Fld := ⟨0x90090 + n * 0x1000, 15, 0⟩
/-- FIO.DIAG.FLAGS (R322). -/
def Reg.FIO_DIAG_FLAGS (i : Nat) : Fld := ⟨0xa009c + i * 4, 31, 0⟩
/-- FIO.GSTAT.FORCED (R322). -/
def Reg.FIO_GSTAT_FORCED : Fld := ⟨0xa00a4, 11, 8⟩
/-- FIO.GSTAT.GOVLA (R322). -/
def Reg.FIO_GSTAT_GOVLA : Fld := ⟨0xa00a4, 4, 4⟩
/-- FIO.GSTAT.GOVLB (R322). -/
def Reg.FIO_GSTAT_GOVLB : Fld := ⟨0xa00a4, 5, 5⟩
/-- FIO.GSTAT.UVA (R322). -/
def Reg.FIO_GSTAT_UVA : Fld := ⟨0xa00a4, 0, 0⟩
/-- FIO.GSTAT.UVA_STK (R322). -/
def Reg.FIO_GSTAT_UVA_STK : Fld := ⟨0xa00a4, 2, 2⟩
/-- FIO.GSTAT.UVB (R322). -/
def Reg.FIO_GSTAT_UVB : Fld := ⟨0xa00a4, 1, 1⟩
/-- FIO.GSTAT.UVB_STK (R322). -/
def Reg.FIO_GSTAT_UVB_STK : Fld := ⟨0xa00a4, 3, 3⟩
/-- FIO.INFILT.CODE (R322). -/
def Reg.FIO_INFILT_CODE (i : Nat) : Fld := ⟨0xa0044 + i * 4, 23, 0⟩
/-- FIO.IN.LEVEL (R322). -/
def Reg.FIO_IN_LEVEL : Fld := ⟨0xa0098, 15, 0⟩
/-- FIO.IN.RB (R322). -/
def Reg.FIO_IN_RB : Fld := ⟨0xa0098, 31, 16⟩
/-- FIO.OPEN_ERR.COUNT (R322). -/
def Reg.FIO_OPEN_ERR_COUNT : Fld := ⟨0xa00b0, 15, 0⟩
/-- FIO.OTEMP_ERR.COUNT (R322). -/
def Reg.FIO_OTEMP_ERR_COUNT : Fld := ⟨0xa00ac, 15, 0⟩
/-- FIO.OUTCFG.OWOFF_EN (R322). -/
def Reg.FIO_OUTCFG_OWOFF_EN (i : Nat) : Fld := ⟨0xa0050 + i * 4, 6, 6⟩
/-- FIO.OUTCFG.OWON_EN (R322). -/
def Reg.FIO_OUTCFG_OWON_EN (i : Nat) : Fld := ⟨0xa0050 + i * 4, 7, 7⟩
/-- FIO.OUTCFG.PGRP (R322). -/
def Reg.FIO_OUTCFG_PGRP (i : Nat) : Fld := ⟨0xa0050 + i * 4, 5, 4⟩
/-- FIO.OUTCFG.REACT (R322). -/
def Reg.FIO_OUTCFG_REACT (i : Nat) : Fld := ⟨0xa0050 + i * 4, 3, 3⟩
/-- FIO.OUTCFG.SAFE (R322). -/
def Reg.FIO_OUTCFG_SAFE (i : Nat) : Fld := ⟨0xa0050 + i * 4, 1, 0⟩
/-- FIO.OUTCFG.SRC (R322). -/
def Reg.FIO_OUTCFG_SRC (i : Nat) : Fld := ⟨0xa0050 + i * 4, 2, 2⟩
/-- FIO.OUT.CMD (R322). -/
def Reg.FIO_OUT_CMD : Fld := ⟨0xa0090, 15, 0⟩
/-- FIO.OVL_ERR.COUNT (R322). -/
def Reg.FIO_OVL_ERR_COUNT : Fld := ⟨0xa00a8, 15, 0⟩
/-- FIO.SHORT_ERR.COUNT (R322). -/
def Reg.FIO_SHORT_ERR_COUNT : Fld := ⟨0xa00b4, 15, 0⟩
/-- FIO.WD_CNT.WD_CNT (R322). -/
def Reg.FIO_WD_CNT_WD_CNT : Fld := ⟨0xa00b8, 31, 0⟩
/-- FIO.WD.TRIPPED (R322). -/
def Reg.FIO_WD_TRIPPED : Fld := ⟨0xa0094, 8, 8⟩
/-- FIO.WD.TWD (R322). -/
def Reg.FIO_WD_TWD : Fld := ⟨0xa0094, 7, 0⟩
/-- GUARD.CFG.DRIFT_CYC (R214). -/
def Reg.GUARD_CFG_DRIFT_CYC : Fld := ⟨0x79040, 15, 8⟩
/-- GUARD.CFG.VIOL_LIMIT (R214). -/
def Reg.GUARD_CFG_VIOL_LIMIT : Fld := ⟨0x79040, 7, 0⟩
/-- GUARD.CLOSED.PORT (R214). -/
def Reg.GUARD_CLOSED_PORT : Fld := ⟨0x79044, 23, 0⟩
/-- GUARD.DRIFT (R214). -/
def Reg.GUARD_DRIFT (i : Nat) : Fld := ⟨0x79080 + i * 4, 31, 0⟩
/-- GUARD.OFSEL.ENTRY (R214). -/
def Reg.GUARD_OFSEL_ENTRY : Fld := ⟨0x79048, 11, 0⟩
/-- GUARD.OFSEL.PORT (R214). -/
def Reg.GUARD_OFSEL_PORT : Fld := ⟨0x79048, 20, 16⟩
/-- HDR.ERRLOG (R406). -/
def Reg.HDR_ERRLOG (p : Nat) : Fld := ⟨p * 0x1000 + 0x28, 31, 0⟩
/-- HDR.ERRLOG.MORE (R406). -/
def Reg.HDR_ERRLOG_MORE (p : Nat) : Fld := ⟨p * 0x1000 + 0x28, 30, 30⟩
/-- HDR.ERRLOG.VALID (R406). -/
def Reg.HDR_ERRLOG_VALID (p : Nat) : Fld := ⟨p * 0x1000 + 0x28, 31, 31⟩
/-- HDR.LOCK.LOCKED (R406). -/
def Reg.HDR_LOCK_LOCKED (p : Nat) : Fld := ⟨p * 0x1000 + 0x20, 0, 0⟩
/-- HDR.PAGE_CTRL.AUTOWAKE (R406). -/
def Reg.HDR_PAGE_CTRL_AUTOWAKE (p : Nat) : Fld := ⟨p * 0x1000 + 8, 2, 2⟩
/-- HDR.PAGE_CTRL.EN (R406). -/
def Reg.HDR_PAGE_CTRL_EN (p : Nat) : Fld := ⟨p * 0x1000 + 8, 0, 0⟩
/-- HDR.PAGE_STAT.SAT (R406). -/
def Reg.HDR_PAGE_STAT_SAT (p : Nat) : Fld := ⟨p * 0x1000 + 0xc, 1, 1⟩
/-- HDR.PAGE_STAT.WRAP (R406). -/
def Reg.HDR_PAGE_STAT_WRAP (p : Nat) : Fld := ⟨p * 0x1000 + 0xc, 0, 0⟩
/-- HOST.DMA_CTRL (R336). -/
def Reg.HOST_DMA_CTRL (i : Nat) : Fld := ⟨0xb1100 + i * 0x20, 31, 0⟩
/-- HOST.DMA_CTRL.GO (R336). -/
def Reg.HOST_DMA_CTRL_GO (i : Nat) : Fld := ⟨0xb1100 + i * 0x20, 0, 0⟩
/-- HOST.DMA_CTRL.STOP (R336). -/
def Reg.HOST_DMA_CTRL_STOP (i : Nat) : Fld := ⟨0xb1100 + i * 0x20, 1, 1⟩
/-- HOST.DMA_DESC_HI.ADDR (R336). -/
def Reg.HOST_DMA_DESC_HI_ADDR (i : Nat) : Fld := ⟨0xb1108 + i * 0x20, 31, 0⟩
/-- HOST.DMA_DESC_LO.ADDR (R336). -/
def Reg.HOST_DMA_DESC_LO_ADDR (i : Nat) : Fld := ⟨0xb1104 + i * 0x20, 31, 0⟩
/-- HOST.DMA_DONE_CNT (R336). -/
def Reg.HOST_DMA_DONE_CNT (i : Nat) : Fld := ⟨0xb1110 + i * 0x20, 31, 0⟩
/-- HOST.DMA_STAT.BUSY (R336). -/
def Reg.HOST_DMA_STAT_BUSY (i : Nat) : Fld := ⟨0xb110c + i * 0x20, 0, 0⟩
/-- HOST.DMA_STAT.DONE (R336). -/
def Reg.HOST_DMA_STAT_DONE (i : Nat) : Fld := ⟨0xb110c + i * 0x20, 1, 1⟩
/-- HOST.DMA_STAT.ERR (R336). -/
def Reg.HOST_DMA_STAT_ERR (i : Nat) : Fld := ⟨0xb110c + i * 0x20, 2, 2⟩
/-- HOST.LINK.UP (R336). -/
def Reg.HOST_LINK_UP : Fld := ⟨0xb1040, 8, 8⟩
/-- LEMAC.CHK.REASON (R213). -/
def Reg.LEMAC_CHK_REASON : Fld := ⟨0x78070, 19, 16⟩
/-- LEMAC.CHK.VALID (R213). -/
def Reg.LEMAC_CHK_VALID : Fld := ⟨0x78070, 31, 31⟩
/-- LEMAC.CHK.WORD (R213). -/
def Reg.LEMAC_CHK_WORD : Fld := ⟨0x78070, 12, 0⟩
/-- LEMAC.CLASH (R213). -/
def Reg.LEMAC_CLASH : Fld := ⟨0x78080, 31, 0⟩
/-- LEMAC.CLASH_CLR (R213). -/
def Reg.LEMAC_CLASH_CLR : Fld := ⟨0x78088, 31, 0⟩
/-- LEMAC.CLASH_CLR.CLR (R213). -/
def Reg.LEMAC_CLASH_CLR_CLR : Fld := ⟨0x78088, 0, 0⟩
/-- LEMAC.CLASH_ID.ID (R213). -/
def Reg.LEMAC_CLASH_ID_ID : Fld := ⟨0x78084, 31, 0⟩
/-- LEMAC.CLASH.KIND (R213). -/
def Reg.LEMAC_CLASH_KIND : Fld := ⟨0x78080, 30, 30⟩
/-- LEMAC.CLASH.POS_A (R213). -/
def Reg.LEMAC_CLASH_POS_A : Fld := ⟨0x78080, 17, 12⟩
/-- LEMAC.CLASH.POS_B (R213). -/
def Reg.LEMAC_CLASH_POS_B : Fld := ⟨0x78080, 11, 6⟩
/-- LEMAC.CLASH.SEG (R213). -/
def Reg.LEMAC_CLASH_SEG : Fld := ⟨0x78080, 26, 22⟩
/-- LEMAC.CLASH.VALID (R213). -/
def Reg.LEMAC_CLASH_VALID : Fld := ⟨0x78080, 31, 31⟩
/-- LEMAC.CMD (R213). -/
def Reg.LEMAC_CMD : Fld := ⟨0x7806c, 31, 0⟩
/-- LEMAC.CMD.BLOCK (R213). -/
def Reg.LEMAC_CMD_BLOCK : Fld := ⟨0x7806c, 14, 0⟩
/-- LEMAC.CMD.BUSY (R213). -/
def Reg.LEMAC_CMD_BUSY : Fld := ⟨0x7806c, 31, 31⟩
/-- LEMAC.CMD.OP (R213). -/
def Reg.LEMAC_CMD_OP : Fld := ⟨0x7806c, 17, 16⟩
/-- LEMAC.CMD.RESULT (R213). -/
def Reg.LEMAC_CMD_RESULT : Fld := ⟨0x7806c, 30, 28⟩
/-- LEMAC.CS_CNT.CS_CNT (R213). -/
def Reg.LEMAC_CS_CNT_CS_CNT : Fld := ⟨0x7808c, 31, 0⟩
/-- LEMAC.EPOCH.EPOCH (R213). -/
def Reg.LEMAC_EPOCH_EPOCH : Fld := ⟨0x78064, 31, 0⟩
/-- LEMAC.ETYPE.ETYPE (R213). -/
def Reg.LEMAC_ETYPE_ETYPE : Fld := ⟨0x78040, 15, 0⟩
/-- LEMAC.MCAST_HI.ADDR (R213). -/
def Reg.LEMAC_MCAST_HI_ADDR : Fld := ⟨0x78048, 15, 0⟩
/-- LEMAC.MCAST_LO.ADDR (R213). -/
def Reg.LEMAC_MCAST_LO_ADDR : Fld := ⟨0x78044, 31, 0⟩
/-- LEMAC.PSTATE (R213). -/
def Reg.LEMAC_PSTATE : Fld := ⟨0x78060, 31, 0⟩
/-- LEMAC.PSTATE.LOST_PRIMING (R213). -/
def Reg.LEMAC_PSTATE_LOST_PRIMING : Fld := ⟨0x78060, 8, 8⟩
/-- LEMAC.PSTATE.PRIME_HALT (R213). -/
def Reg.LEMAC_PSTATE_PRIME_HALT : Fld := ⟨0x78060, 10, 10⟩
/-- LEMAC.PSTATE.RANK_CLASH (R213). -/
def Reg.LEMAC_PSTATE_RANK_CLASH : Fld := ⟨0x78060, 9, 9⟩
/-- LEMAC.PSTATE.RESTART (R213). -/
def Reg.LEMAC_PSTATE_RESTART : Fld := ⟨0x78060, 31, 31⟩
/-- LEMAC.PSTATE.RETRY (R213). -/
def Reg.LEMAC_PSTATE_RETRY : Fld := ⟨0x78060, 5, 4⟩
/-- LEMAC.PSTATE.STATE (R213). -/
def Reg.LEMAC_PSTATE_STATE : Fld := ⟨0x78060, 2, 0⟩
/-- LEMAC.RANK.PRIME_EN (R213). -/
def Reg.LEMAC_RANK_PRIME_EN : Fld := ⟨0x7805c, 8, 8⟩
/-- LEMAC.RANK.RANK (R213). -/
def Reg.LEMAC_RANK_RANK : Fld := ⟨0x7805c, 2, 0⟩
/-- LEMAC.SCHED.ACTIVE (R213). -/
def Reg.LEMAC_SCHED_ACTIVE : Fld := ⟨0x78068, 15, 0⟩
/-- LEMAC.SCHED.SHADOW (R213). -/
def Reg.LEMAC_SCHED_SHADOW : Fld := ⟨0x78068, 31, 16⟩
/-- LEMAC.SWAP (R213). -/
def Reg.LEMAC_SWAP : Fld := ⟨0x7807c, 31, 0⟩
/-- LEMAC.SWAP_AT_HI.CYCLE (R213). -/
def Reg.LEMAC_SWAP_AT_HI_CYCLE : Fld := ⟨0x78078, 31, 0⟩
/-- LEMAC.SWAP_AT_LO.CYCLE (R213). -/
def Reg.LEMAC_SWAP_AT_LO_CYCLE : Fld := ⟨0x78074, 31, 0⟩
/-- LEMAC.SWAP.DONE (R213). -/
def Reg.LEMAC_SWAP_DONE : Fld := ⟨0x7807c, 3, 3⟩
/-- LEMAC.SWAP.LATE (R213). -/
def Reg.LEMAC_SWAP_LATE : Fld := ⟨0x7807c, 2, 2⟩
/-- LEMAC.SWAP.PEND (R213). -/
def Reg.LEMAC_SWAP_PEND : Fld := ⟨0x7807c, 1, 1⟩
/-- LEMAC.SWAP.REQ (R213). -/
def Reg.LEMAC_SWAP_REQ : Fld := ⟨0x7807c, 0, 0⟩
/-- LEMAC.UID_HI.UID (R213). -/
def Reg.LEMAC_UID_HI_UID : Fld := ⟨0x78058, 31, 0⟩
/-- LEMAC.UID_LO.UID (R213). -/
def Reg.LEMAC_UID_LO_UID : Fld := ⟨0x78054, 31, 0⟩
/-- LEMAC.UMAC_HI.ADDR (R213). -/
def Reg.LEMAC_UMAC_HI_ADDR : Fld := ⟨0x78050, 15, 0⟩
/-- LEMAC.UMAC_LO.ADDR (R213). -/
def Reg.LEMAC_UMAC_LO_ADDR : Fld := ⟨0x7804c, 31, 0⟩
/-- LE.CTRL.CLR_FAULT (R109). -/
def Reg.LE_CTRL_CLR_FAULT (n : Nat) : Fld := ⟨0x20040 + n * 0x1000, 0, 0⟩
/-- LE.CTRL.LOAD_EN (R109). -/
def Reg.LE_CTRL_LOAD_EN (n : Nat) : Fld := ⟨0x20040 + n * 0x1000, 1, 1⟩
/-- LE.CTX_BASE.BASE (R109). -/
def Reg.LE_CTX_BASE_BASE (n : Nat) : Fld := ⟨0x2004c + n * 0x1000, 17, 9⟩
/-- LE.DONE_CNT.DONE_CNT (R109). -/
def Reg.LE_DONE_CNT_DONE_CNT (n : Nat) : Fld := ⟨0x20050 + n * 0x1000, 31, 0⟩
/-- LE.FAULT.CAUSE (R109). -/
def Reg.LE_FAULT_CAUSE (n : Nat) : Fld := ⟨0x20048 + n * 0x1000, 4, 0⟩
/-- LE.FAULT_ERR.FAULT_ERR (R109). -/
def Reg.LE_FAULT_ERR_FAULT_ERR (n : Nat) : Fld := ⟨0x20058 + n * 0x1000, 15, 0⟩
/-- LE.FAULT.PC (R109). -/
def Reg.LE_FAULT_PC (n : Nat) : Fld := ⟨0x20048 + n * 0x1000, 15, 5⟩
/-- LE.FAULT.TASK (R109). -/
def Reg.LE_FAULT_TASK (n : Nat) : Fld := ⟨0x20048 + n * 0x1000, 28, 16⟩
/-- LE.ISSUED.ISSUED (R109). -/
def Reg.LE_ISSUED_ISSUED (n : Nat) : Fld := ⟨0x2005c + n * 0x1000, 31, 0⟩
/-- LE.SAT_CNT.SAT_CNT (R109). -/
def Reg.LE_SAT_CNT_SAT_CNT (n : Nat) : Fld := ⟨0x20054 + n * 0x1000, 31, 0⟩
/-- LE.STALLED.STALLED (R109). -/
def Reg.LE_STALLED_STALLED (n : Nat) : Fld := ⟨0x20060 + n * 0x1000, 31, 0⟩
/-- MOTION.ARG_HI (R174). -/
def Reg.MOTION_ARG_HI : Fld := ⟨0x81054, 31, 0⟩
/-- MOTION.ARG_HI.ARG (R174). -/
def Reg.MOTION_ARG_HI_ARG : Fld := ⟨0x81054, 31, 0⟩
/-- MOTION.ARG_LO (R174). -/
def Reg.MOTION_ARG_LO : Fld := ⟨0x81050, 31, 0⟩
/-- MOTION.ARG_LO.ARG (R174). -/
def Reg.MOTION_ARG_LO_ARG : Fld := ⟨0x81050, 31, 0⟩
/-- MOTION.CAM (R174). -/
def Reg.MOTION_CAM (i : Nat) : Fld := ⟨0x81200 + i * 4, 31, 0⟩
/-- MOTION.CAM.BLOCK (R174). -/
def Reg.MOTION_CAM_BLOCK (i : Nat) : Fld := ⟨0x81200 + i * 4, 14, 0⟩
/-- MOTION.CAM.PEND (R174). -/
def Reg.MOTION_CAM_PEND (i : Nat) : Fld := ⟨0x81200 + i * 4, 30, 30⟩
/-- MOTION.CAM.VALID (R174). -/
def Reg.MOTION_CAM_VALID (i : Nat) : Fld := ⟨0x81200 + i * 4, 31, 31⟩
/-- MOTION.CHK_FAIL.CH (R174). -/
def Reg.MOTION_CHK_FAIL_CH : Fld := ⟨0x81078, 10, 0⟩
/-- MOTION.CHK_FAIL.REASON (R174). -/
def Reg.MOTION_CHK_FAIL_REASON : Fld := ⟨0x81078, 19, 16⟩
/-- MOTION.CHK_FAIL.VALID (R174). -/
def Reg.MOTION_CHK_FAIL_VALID : Fld := ⟨0x81078, 31, 31⟩
/-- MOTION.CMD (R174). -/
def Reg.MOTION_CMD : Fld := ⟨0x81044, 31, 0⟩
/-- MOTION.CMD_AT_HI (R174). -/
def Reg.MOTION_CMD_AT_HI : Fld := ⟨0x8104c, 31, 0⟩
/-- MOTION.CMD_AT_HI.CYCLE (R174). -/
def Reg.MOTION_CMD_AT_HI_CYCLE : Fld := ⟨0x8104c, 31, 0⟩
/-- MOTION.CMD_AT_LO (R174). -/
def Reg.MOTION_CMD_AT_LO : Fld := ⟨0x81048, 31, 0⟩
/-- MOTION.CMD_AT_LO.CYCLE (R174). -/
def Reg.MOTION_CMD_AT_LO_CYCLE : Fld := ⟨0x81048, 31, 0⟩
/-- MOTION.CMD.OP (R174). -/
def Reg.MOTION_CMD_OP : Fld := ⟨0x81044, 3, 0⟩
/-- MOTION.CMD.RESULT (R174). -/
def Reg.MOTION_CMD_RESULT : Fld := ⟨0x81044, 30, 27⟩
/-- MOTION.EFF_HI.CYCLE (R174). -/
def Reg.MOTION_EFF_HI_CYCLE : Fld := ⟨0x81060, 31, 0⟩
/-- MOTION.EFF_LO.CYCLE (R174). -/
def Reg.MOTION_EFF_LO_CYCLE : Fld := ⟨0x8105c, 31, 0⟩
/-- MOTION.HALT (R174). -/
def Reg.MOTION_HALT : Fld := ⟨0x8106c, 31, 0⟩
/-- MOTION.HALT.HALT (R174). -/
def Reg.MOTION_HALT_HALT : Fld := ⟨0x8106c, 0, 0⟩
/-- MOTION.SEL (R174). -/
def Reg.MOTION_SEL : Fld := ⟨0x81040, 31, 0⟩
/-- MOTION.SEL.CH (R174). -/
def Reg.MOTION_SEL_CH : Fld := ⟨0x81040, 10, 0⟩
/-- MOTION.SEL.VIEW (R174). -/
def Reg.MOTION_SEL_VIEW : Fld := ⟨0x81040, 31, 31⟩
/-- MOTION.SPEED (R174). -/
def Reg.MOTION_SPEED : Fld := ⟨0x81058, 31, 0⟩
/-- MOTION.SPEED.SPEED (R174). -/
def Reg.MOTION_SPEED_SPEED : Fld := ⟨0x81058, 31, 0⟩
/-- MOTION.STATUS.MSTAT (R174). -/
def Reg.MOTION_STATUS_MSTAT : Fld := ⟨0x81074, 7, 0⟩
/-- MOTION.STOP (R174). -/
def Reg.MOTION_STOP : Fld := ⟨0x81068, 31, 0⟩
/-- MOTION.STOP.CH (R174). -/
def Reg.MOTION_STOP_CH : Fld := ⟨0x81068, 10, 0⟩
/-- MOTION.STOP_CLR (R174). -/
def Reg.MOTION_STOP_CLR : Fld := ⟨0x81070, 31, 0⟩
/-- MOTION.STOP_CLR.CH (R174). -/
def Reg.MOTION_STOP_CLR_CH : Fld := ⟨0x81070, 10, 0⟩
/-- MOTION.STOP.GRADE (R174). -/
def Reg.MOTION_STOP_GRADE : Fld := ⟨0x81068, 17, 16⟩
/-- MOTION.SUPERSEDED_CNT.SUPERSEDED_CNT (R174). -/
def Reg.MOTION_SUPERSEDED_CNT_SUPERSEDED_CNT : Fld := ⟨0x8107c, 31, 0⟩
/-- MOTION.WIN (R174). -/
def Reg.MOTION_WIN (i : Nat) : Fld := ⟨0x81100 + i * 4, 31, 0⟩
/-- PEER.CFG.EN (R268). -/
def Reg.PEER_CFG_EN : Fld := ⟨0x7d040, 0, 0⟩
/-- PEER.CFG.FWD_EN (R268). -/
def Reg.PEER_CFG_FWD_EN : Fld := ⟨0x7d040, 2, 2⟩
/-- PEER.CFG.PLOSS (R268). -/
def Reg.PEER_CFG_PLOSS : Fld := ⟨0x7d040, 7, 4⟩
/-- PEER.CFG.RANK (R268). -/
def Reg.PEER_CFG_RANK : Fld := ⟨0x7d040, 1, 1⟩
/-- PEER.CFG.RS_KIB (R268). -/
def Reg.PEER_CFG_RS_KIB : Fld := ⟨0x7d040, 15, 8⟩
/-- PEER.CMD.OP (R268). -/
def Reg.PEER_CMD_OP : Fld := ⟨0x7d044, 2, 0⟩
/-- PEER.CMD.RESULT (R268). -/
def Reg.PEER_CMD_RESULT : Fld := ⟨0x7d044, 30, 28⟩
/-- PEER.COPY_CNT.COUNT (R268). -/
def Reg.PEER_COPY_CNT_COUNT : Fld := ⟨0x7d0c0, 31, 0⟩
/-- PEER.FWD_CNT.COUNT (R268). -/
def Reg.PEER_FWD_CNT_COUNT : Fld := ⟨0x7d0c4, 31, 0⟩
/-- PEER.IN_AT.NS (R268). -/
def Reg.PEER_IN_AT_NS : Fld := ⟨0x7d058, 21, 0⟩
/-- PEER.IN_EDGE.EDGE (R268). -/
def Reg.PEER_IN_EDGE_EDGE (i : Nat) : Fld := ⟨0x7d06c + i * 4, 31, 0⟩
/-- PEER.LANE_ERR0.COUNT (R268). -/
def Reg.PEER_LANE_ERR0_COUNT : Fld := ⟨0x7d0a8, 15, 0⟩
/-- PEER.LANE_ERR1.COUNT (R268). -/
def Reg.PEER_LANE_ERR1_COUNT : Fld := ⟨0x7d0ac, 15, 0⟩
/-- PEER.LAST_TAKE_HI.CYCLE (R268). -/
def Reg.PEER_LAST_TAKE_HI_CYCLE : Fld := ⟨0x7d094, 31, 0⟩
/-- PEER.LAST_TAKE_LO.CYCLE (R268). -/
def Reg.PEER_LAST_TAKE_LO_CYCLE : Fld := ⟨0x7d090, 31, 0⟩
/-- PEER.MIRROR.LAST (R268). -/
def Reg.PEER_MIRROR_LAST : Fld := ⟨0x7d0a0, 15, 0⟩
/-- PEER.MIRROR.PEAK (R268). -/
def Reg.PEER_MIRROR_PEAK : Fld := ⟨0x7d0a0, 31, 16⟩
/-- PEER.MISMATCH_ERR.COUNT (R268). -/
def Reg.PEER_MISMATCH_ERR_COUNT : Fld := ⟨0x7d0a4, 15, 0⟩
/-- PEER.MLATE_ERR.COUNT (R268). -/
def Reg.PEER_MLATE_ERR_COUNT : Fld := ⟨0x7d0b0, 15, 0⟩
/-- PEER.MM (R268). -/
def Reg.PEER_MM : Fld := ⟨0x7d08c, 31, 0⟩
/-- PEER.MM.VALID (R268). -/
def Reg.PEER_MM_VALID : Fld := ⟨0x7d08c, 31, 31⟩
/-- PEER.NREADY (R268). -/
def Reg.PEER_NREADY : Fld := ⟨0x7d054, 31, 0⟩
/-- PEER.NREADY.CAPACITY (R268). -/
def Reg.PEER_NREADY_CAPACITY : Fld := ⟨0x7d054, 3, 3⟩
/-- PEER.NREADY.DETACHED (R268). -/
def Reg.PEER_NREADY_DETACHED : Fld := ⟨0x7d054, 4, 4⟩
/-- PEER.NREADY.FAULTED (R268). -/
def Reg.PEER_NREADY_FAULTED : Fld := ⟨0x7d054, 5, 5⟩
/-- PEER.NREADY.IMAGE (R268). -/
def Reg.PEER_NREADY_IMAGE : Fld := ⟨0x7d054, 7, 7⟩
/-- PEER.NREADY.JOINING (R268). -/
def Reg.PEER_NREADY_JOINING : Fld := ⟨0x7d054, 0, 0⟩
/-- PEER.NREADY.MIRROR_LATE (R268). -/
def Reg.PEER_NREADY_MIRROR_LATE : Fld := ⟨0x7d054, 2, 2⟩
/-- PEER.NREADY.TESTING (R268). -/
def Reg.PEER_NREADY_TESTING : Fld := ⟨0x7d054, 6, 6⟩
/-- PEER.NREADY.UNALIGNED (R268). -/
def Reg.PEER_NREADY_UNALIGNED : Fld := ⟨0x7d054, 1, 1⟩
/-- PEER.PEER_UID_HI.UID (R268). -/
def Reg.PEER_PEER_UID_HI_UID : Fld := ⟨0x7d09c, 31, 0⟩
/-- PEER.PEER_UID_LO.UID (R268). -/
def Reg.PEER_PEER_UID_LO_UID : Fld := ⟨0x7d098, 31, 0⟩
/-- PEER.PLIST.COUNT (R268). -/
def Reg.PEER_PLIST_COUNT (i : Nat) : Fld := ⟨0x7d05c + i * 4, 7, 0⟩
/-- PEER.PLIST.OFFSET (R268). -/
def Reg.PEER_PLIST_OFFSET (i : Nat) : Fld := ⟨0x7d05c + i * 4, 29, 16⟩
/-- PEER.SKIP_CNT.COUNT (R268). -/
def Reg.PEER_SKIP_CNT_COUNT : Fld := ⟨0x7d0b4, 31, 0⟩
/-- PEER.SLIST.OFFSET (R268). -/
def Reg.PEER_SLIST_OFFSET (i : Nat) : Fld := ⟨0x7d064 + i * 4, 29, 16⟩
/-- PEER.SLIST.VALID (R268). -/
def Reg.PEER_SLIST_VALID (i : Nat) : Fld := ⟨0x7d064 + i * 4, 0, 0⟩
/-- PEER.STAT.LANE0 (R268). -/
def Reg.PEER_STAT_LANE0 : Fld := ⟨0x7d050, 6, 6⟩
/-- PEER.STAT.LANE1 (R268). -/
def Reg.PEER_STAT_LANE1 : Fld := ⟨0x7d050, 7, 7⟩
/-- PEER.STAT.PEER_READY (R268). -/
def Reg.PEER_STAT_PEER_READY : Fld := ⟨0x7d050, 8, 8⟩
/-- PEER.STAT.READY (R268). -/
def Reg.PEER_STAT_READY : Fld := ⟨0x7d050, 5, 5⟩
/-- PEER.STAT.ROLE (R268). -/
def Reg.PEER_STAT_ROLE : Fld := ⟨0x7d050, 3, 0⟩
/-- PEER.STAT.SWAPPEND (R268). -/
def Reg.PEER_STAT_SWAPPEND : Fld := ⟨0x7d050, 9, 9⟩
/-- PEER.STAT.UNALIGNED (R268). -/
def Reg.PEER_STAT_UNALIGNED : Fld := ⟨0x7d050, 20, 10⟩
/-- PEER.SWAP_AT_HI.CYCLE (R268). -/
def Reg.PEER_SWAP_AT_HI_CYCLE : Fld := ⟨0x7d04c, 31, 0⟩
/-- PEER.SWAP_AT_LO.CYCLE (R268). -/
def Reg.PEER_SWAP_AT_LO_CYCLE : Fld := ⟨0x7d048, 31, 0⟩
/-- PEER.SWAP_CNT.COUNT (R268). -/
def Reg.PEER_SWAP_CNT_COUNT : Fld := ⟨0x7d0bc, 31, 0⟩
/-- PEER.TAKE_CNT.COUNT (R268). -/
def Reg.PEER_TAKE_CNT_COUNT : Fld := ⟨0x7d0b8, 31, 0⟩
/-- PLANT.CFG.EN (R337). -/
def Reg.PLANT_CFG_EN (n : Nat) : Fld := ⟨0x7b060 + n * 0x1000, 0, 0⟩
/-- PLANT.CFG.SPEED (R337). -/
def Reg.PLANT_CFG_SPEED (n : Nat) : Fld := ⟨0x7b060 + n * 0x1000, 2, 1⟩
/-- PLANT.DROP_ERR.DROP_ERR (R337). -/
def Reg.PLANT_DROP_ERR_DROP_ERR (n : Nat) : Fld := ⟨0x7b074 + n * 0x1000, 15, 0⟩
/-- PLANT.FRAME_CNT.RX (R337). -/
def Reg.PLANT_FRAME_CNT_RX (n : Nat) : Fld := ⟨0x7b070 + n * 0x1000, 31, 16⟩
/-- PLANT.FRAME_CNT.TX (R337). -/
def Reg.PLANT_FRAME_CNT_TX (n : Nat) : Fld := ⟨0x7b070 + n * 0x1000, 15, 0⟩
/-- PLANT.GMQ (R242). -/
def Reg.PLANT_GMQ (n : Nat) : Fld := ⟨0x7b044 + n * 0x1000, 31, 0⟩
/-- PLANT.GMQ.ACCURACY (R242). -/
def Reg.PLANT_GMQ_ACCURACY (n : Nat) : Fld := ⟨0x7b044 + n * 0x1000, 7, 0⟩
/-- PLANT.GMQ.CLASS (R242). -/
def Reg.PLANT_GMQ_CLASS (n : Nat) : Fld := ⟨0x7b044 + n * 0x1000, 15, 8⟩
/-- PLANT.GMQ.PRIO1 (R242). -/
def Reg.PLANT_GMQ_PRIO1 (n : Nat) : Fld := ⟨0x7b044 + n * 0x1000, 31, 24⟩
/-- PLANT.GMQ.PRIO2 (R242). -/
def Reg.PLANT_GMQ_PRIO2 (n : Nat) : Fld := ⟨0x7b044 + n * 0x1000, 23, 16⟩
/-- PLANT.INTV.LOG_ANN (R242). -/
def Reg.PLANT_INTV_LOG_ANN (n : Nat) : Fld := ⟨0x7b048 + n * 0x1000, 7, 4⟩
/-- PLANT.PASSIVE_CNT.PASSIVE_CNT (R242). -/
def Reg.PLANT_PASSIVE_CNT_PASSIVE_CNT (n : Nat) : Fld := ⟨0x7b050 + n * 0x1000, 31, 0⟩
/-- PLANT.PTPCFG.DOMAIN (R242). -/
def Reg.PLANT_PTPCFG_DOMAIN (n : Nat) : Fld := ⟨0x7b040 + n * 0x1000, 31, 24⟩
/-- PLANT.PTPCFG.ONESTEP (R242). -/
def Reg.PLANT_PTPCFG_ONESTEP (n : Nat) : Fld := ⟨0x7b040 + n * 0x1000, 18, 18⟩
/-- PLANT.PTPCFG.PROFILE (R242). -/
def Reg.PLANT_PTPCFG_PROFILE (n : Nat) : Fld := ⟨0x7b040 + n * 0x1000, 15, 14⟩
/-- PLANT.PTPCFG.ROLE (R242). -/
def Reg.PLANT_PTPCFG_ROLE (n : Nat) : Fld := ⟨0x7b040 + n * 0x1000, 17, 16⟩
/-- PLANT.PTPCFG.UDP (R242). -/
def Reg.PLANT_PTPCFG_UDP (n : Nat) : Fld := ⟨0x7b040 + n * 0x1000, 19, 19⟩
/-- PLANT.PTPSTAT.STATE (R242). -/
def Reg.PLANT_PTPSTAT_STATE (n : Nat) : Fld := ⟨0x7b04c + n * 0x1000, 2, 0⟩
/-- PLANT.QRX.BLOCK (R337). -/
def Reg.PLANT_QRX_BLOCK (n : Nat) : Fld := ⟨0x7b06c + n * 0x1000, 14, 0⟩
/-- PLANT.QRX.NBLK (R337). -/
def Reg.PLANT_QRX_NBLK (n : Nat) : Fld := ⟨0x7b06c + n * 0x1000, 24, 16⟩
/-- PLANT.QTX.BLOCK (R337). -/
def Reg.PLANT_QTX_BLOCK (n : Nat) : Fld := ⟨0x7b068 + n * 0x1000, 14, 0⟩
/-- PLANT.QTX.NBLK (R337). -/
def Reg.PLANT_QTX_NBLK (n : Nat) : Fld := ⟨0x7b068 + n * 0x1000, 24, 16⟩
/-- PLANT.STAT.LINK (R337). -/
def Reg.PLANT_STAT_LINK (n : Nat) : Fld := ⟨0x7b064 + n * 0x1000, 0, 0⟩
/-- PORT.ADROP_ERR.COUNT (R215). -/
def Reg.PORT_ADROP_ERR_COUNT (n : Nat) : Fld := ⟨0x60084 + n * 0x1000, 15, 0⟩
/-- PORT.AQRX.BLOCK (R215). -/
def Reg.PORT_AQRX_BLOCK (n : Nat) : Fld := ⟨0x60058 + n * 0x1000, 14, 0⟩
/-- PORT.AQRX.NBLK (R215). -/
def Reg.PORT_AQRX_NBLK (n : Nat) : Fld := ⟨0x60058 + n * 0x1000, 24, 16⟩
/-- PORT.AQTX.BLOCK (R215). -/
def Reg.PORT_AQTX_BLOCK (n : Nat) : Fld := ⟨0x60054 + n * 0x1000, 14, 0⟩
/-- PORT.AQTX.NBLK (R215). -/
def Reg.PORT_AQTX_NBLK (n : Nat) : Fld := ⟨0x60054 + n * 0x1000, 24, 16⟩
/-- PORT.CRC_ERR.COUNT (R215). -/
def Reg.PORT_CRC_ERR_COUNT (n : Nat) : Fld := ⟨0x60074 + n * 0x1000, 15, 0⟩
/-- PORT.CTRL (R215). -/
def Reg.PORT_CTRL (n : Nat) : Fld := ⟨0x60040 + n * 0x1000, 31, 0⟩
/-- PORT.CTRL.EN (R215). -/
def Reg.PORT_CTRL_EN (n : Nat) : Fld := ⟨0x60040 + n * 0x1000, 0, 0⟩
/-- PORT.CTRL.RELAY_EN (R215). -/
def Reg.PORT_CTRL_RELAY_EN (n : Nat) : Fld := ⟨0x60040 + n * 0x1000, 3, 3⟩
/-- PORT.CTRL.REOPEN (R215). -/
def Reg.PORT_CTRL_REOPEN (n : Nat) : Fld := ⟨0x60040 + n * 0x1000, 4, 4⟩
/-- PORT.CTRL.SPEED (R215). -/
def Reg.PORT_CTRL_SPEED (n : Nat) : Fld := ⟨0x60040 + n * 0x1000, 2, 1⟩
/-- PORT.DLINE.DLINE (R215). -/
def Reg.PORT_DLINE_DLINE (n : Nat) : Fld := ⟨0x60050 + n * 0x1000, 15, 0⟩
/-- PORT.DRIFT_CNT.DRIFT_CNT (R215). -/
def Reg.PORT_DRIFT_CNT_DRIFT_CNT (n : Nat) : Fld := ⟨0x60090 + n * 0x1000, 31, 0⟩
/-- PORT.EARLY_ERR.COUNT (R215). -/
def Reg.PORT_EARLY_ERR_COUNT (n : Nat) : Fld := ⟨0x6006c + n * 0x1000, 15, 0⟩
/-- PORT.EPOCH_SEEN.EPOCH (R215). -/
def Reg.PORT_EPOCH_SEEN_EPOCH (n : Nat) : Fld := ⟨0x6008c + n * 0x1000, 31, 0⟩
/-- PORT.LATE_ERR.COUNT (R215). -/
def Reg.PORT_LATE_ERR_COUNT (n : Nat) : Fld := ⟨0x60068 + n * 0x1000, 15, 0⟩
/-- PORT.LEN_ERR.COUNT (R215). -/
def Reg.PORT_LEN_ERR_COUNT (n : Nat) : Fld := ⟨0x60070 + n * 0x1000, 15, 0⟩
/-- PORT.LINE.CLOSED (R215). -/
def Reg.PORT_LINE_CLOSED (n : Nat) : Fld := ⟨0x60044 + n * 0x1000, 6, 6⟩
/-- PORT.LINE.END (R215). -/
def Reg.PORT_LINE_END (n : Nat) : Fld := ⟨0x60044 + n * 0x1000, 5, 5⟩
/-- PORT.LINE.N (R215). -/
def Reg.PORT_LINE_N (n : Nat) : Fld := ⟨0x60044 + n * 0x1000, 14, 8⟩
/-- PORT.LINE.SEG (R215). -/
def Reg.PORT_LINE_SEG (n : Nat) : Fld := ⟨0x60044 + n * 0x1000, 4, 0⟩
/-- PORT.NULL_CNT.COUNT (R215). -/
def Reg.PORT_NULL_CNT_COUNT (n : Nat) : Fld := ⟨0x60064 + n * 0x1000, 31, 0⟩
/-- PORT.RX_CNT.COUNT (R215). -/
def Reg.PORT_RX_CNT_COUNT (n : Nat) : Fld := ⟨0x6005c + n * 0x1000, 31, 0⟩
/-- PORT.SLOTCFG.GUARD (R215). -/
def Reg.PORT_SLOTCFG_GUARD (n : Nat) : Fld := ⟨0x60048 + n * 0x1000, 9, 0⟩
/-- PORT.SLOT_ERR.COUNT (R215). -/
def Reg.PORT_SLOT_ERR_COUNT (n : Nat) : Fld := ⟨0x60078 + n * 0x1000, 15, 0⟩
/-- PORT.STALL_ERR.COUNT (R215). -/
def Reg.PORT_STALL_ERR_COUNT (n : Nat) : Fld := ⟨0x6007c + n * 0x1000, 15, 0⟩
/-- PORT.STAT.BREAK (R215). -/
def Reg.PORT_STAT_BREAK (n : Nat) : Fld := ⟨0x6004c + n * 0x1000, 4, 4⟩
/-- PORT.STAT.CLOSED (R215). -/
def Reg.PORT_STAT_CLOSED (n : Nat) : Fld := ⟨0x6004c + n * 0x1000, 1, 1⟩
/-- PORT.STAT.LINK (R215). -/
def Reg.PORT_STAT_LINK (n : Nat) : Fld := ⟨0x6004c + n * 0x1000, 0, 0⟩
/-- PORT.STAT.RELAY (R215). -/
def Reg.PORT_STAT_RELAY (n : Nat) : Fld := ⟨0x6004c + n * 0x1000, 3, 3⟩
/-- PORT.STAT.SUPERSEDED (R215). -/
def Reg.PORT_STAT_SUPERSEDED (n : Nat) : Fld := ⟨0x6004c + n * 0x1000, 2, 2⟩
/-- PORT.TXCUT_ERR.COUNT (R215). -/
def Reg.PORT_TXCUT_ERR_COUNT (n : Nat) : Fld := ⟨0x60080 + n * 0x1000, 15, 0⟩
/-- PORT.TX_CNT.COUNT (R215). -/
def Reg.PORT_TX_CNT_COUNT (n : Nat) : Fld := ⟨0x60060 + n * 0x1000, 31, 0⟩
/-- PORT.VRUN.RUN (R215). -/
def Reg.PORT_VRUN_RUN (n : Nat) : Fld := ⟨0x60088 + n * 0x1000, 7, 0⟩
/-- PWR.CMD.RESULT (R419). -/
def Reg.PWR_CMD_RESULT : Fld := ⟨0x1054, 3, 1⟩
/-- PWR.CMD.STANDBY (R419). -/
def Reg.PWR_CMD_STANDBY : Fld := ⟨0x1054, 0, 0⟩
/-- PWR.LASTWAKE.DOM (R419). -/
def Reg.PWR_LASTWAKE_DOM : Fld := ⟨0x1058, 7, 4⟩
/-- PWR.LASTWAKE.ROUNDTRIP (R419). -/
def Reg.PWR_LASTWAKE_ROUNDTRIP : Fld := ⟨0x1058, 8, 8⟩
/-- PWR.LASTWAKE_SEC_HI.SEC (R419). -/
def Reg.PWR_LASTWAKE_SEC_HI_SEC : Fld := ⟨0x1060, 15, 0⟩
/-- PWR.LASTWAKE_SEC_LO.SEC (R419). -/
def Reg.PWR_LASTWAKE_SEC_LO_SEC : Fld := ⟨0x105c, 31, 0⟩
/-- PWR.LASTWAKE.SRC (R419). -/
def Reg.PWR_LASTWAKE_SRC : Fld := ⟨0x1058, 3, 0⟩
/-- PWR.PEND.DOM (R419). -/
def Reg.PWR_PEND_DOM : Fld := ⟨0x1050, 15, 0⟩
/-- PWR.REFUSE_ERR.REFUSE_ERR (R419). -/
def Reg.PWR_REFUSE_ERR_REFUSE_ERR : Fld := ⟨0x1064, 15, 0⟩
/-- PWR.REQ.DOM (R419). -/
def Reg.PWR_REQ_DOM : Fld := ⟨0x1040, 3, 0⟩
/-- PWR.REQ.STATE (R419). -/
def Reg.PWR_REQ_STATE : Fld := ⟨0x1040, 9, 8⟩
/-- PWR.RESULT (R419). -/
def Reg.PWR_RESULT : Fld := ⟨0x1044, 31, 0⟩
/-- SAFE.BWORD.CNT_B (R297). -/
def Reg.SAFE_BWORD_CNT_B : Fld := ⟨0xa1054, 31, 16⟩
/-- SAFE.BWORD.STOP_B (R297). -/
def Reg.SAFE_BWORD_STOP_B : Fld := ⟨0xa1054, 15, 0⟩
/-- SAFE.CAUSE.CODE (R297). -/
def Reg.SAFE_CAUSE_CODE : Fld := ⟨0xa1048, 7, 0⟩
/-- SAFE.CAUSE.VALID (R297). -/
def Reg.SAFE_CAUSE_VALID : Fld := ⟨0xa1048, 31, 31⟩
/-- SAFE.DEMAND_CNT.DEMAND_CNT (R297). -/
def Reg.SAFE_DEMAND_CNT_DEMAND_CNT : Fld := ⟨0xa105c, 31, 0⟩
/-- SAFE.DENY_ERR.DENY_ERR (R297). -/
def Reg.SAFE_DENY_ERR_DENY_ERR : Fld := ⟨0xa106c, 15, 0⟩
/-- SAFE.FAULT_ERR.FAULT_ERR (R297). -/
def Reg.SAFE_FAULT_ERR_FAULT_ERR : Fld := ⟨0xa1064, 15, 0⟩
/-- SAFE.INPUTS.DEMAND (R297). -/
def Reg.SAFE_INPUTS_DEMAND : Fld := ⟨0xa1044, 11, 8⟩
/-- SAFE.INPUTS.DISC (R297). -/
def Reg.SAFE_INPUTS_DISC : Fld := ⟨0xa1044, 15, 12⟩
/-- SAFE.INPUTS.EDM (R297). -/
def Reg.SAFE_INPUTS_EDM : Fld := ⟨0xa1044, 19, 18⟩
/-- SAFE.INPUTS.IN (R297). -/
def Reg.SAFE_INPUTS_IN : Fld := ⟨0xa1044, 7, 0⟩
/-- SAFE.INPUTS.RST (R297). -/
def Reg.SAFE_INPUTS_RST : Fld := ⟨0xa1044, 17, 17⟩
/-- SAFE.INPUTS.VFSAF_OK (R297). -/
def Reg.SAFE_INPUTS_VFSAF_OK : Fld := ⟨0xa1044, 16, 16⟩
/-- SAFE.MBOX.BLOCK (R297). -/
def Reg.SAFE_MBOX_BLOCK : Fld := ⟨0xa1058, 14, 0⟩
/-- SAFE.PSET_CRC.CRC (R297). -/
def Reg.SAFE_PSET_CRC_CRC : Fld := ⟨0xa1050, 31, 0⟩
/-- SAFE.PSET_ID.ID (R297). -/
def Reg.SAFE_PSET_ID_ID : Fld := ⟨0xa104c, 31, 0⟩
/-- SAFE.RESET_CNT.RESET_CNT (R297). -/
def Reg.SAFE_RESET_CNT_RESET_CNT : Fld := ⟨0xa1060, 31, 0⟩
/-- SAFE.STAT.A_LOCK (R297). -/
def Reg.SAFE_STAT_A_LOCK : Fld := ⟨0xa1040, 18, 18⟩
/-- SAFE.STAT.B_LOCK (R297). -/
def Reg.SAFE_STAT_B_LOCK : Fld := ⟨0xa1040, 19, 19⟩
/-- SAFE.STAT.MODE (R297). -/
def Reg.SAFE_STAT_MODE : Fld := ⟨0xa1040, 1, 0⟩
/-- SAFE.STAT.ON (R297). -/
def Reg.SAFE_STAT_ON : Fld := ⟨0xa1040, 17, 16⟩
/-- SAFE.STAT.PSET_OK (R297). -/
def Reg.SAFE_STAT_PSET_OK : Fld := ⟨0xa1040, 20, 20⟩
/-- SAFE.STAT.SBC (R297). -/
def Reg.SAFE_STAT_SBC : Fld := ⟨0xa1040, 15, 12⟩
/-- SAFE.STAT.SS1 (R297). -/
def Reg.SAFE_STAT_SS1 : Fld := ⟨0xa1040, 11, 8⟩
/-- SAFE.STAT.STO (R297). -/
def Reg.SAFE_STAT_STO : Fld := ⟨0xa1040, 7, 4⟩
/-- SAFE.STAT.TP_SUSP (R297). -/
def Reg.SAFE_STAT_TP_SUSP : Fld := ⟨0xa1040, 21, 21⟩
/-- SAFE.TP_CNT.TP_CNT (R297). -/
def Reg.SAFE_TP_CNT_TP_CNT : Fld := ⟨0xa1068, 31, 0⟩
/-- SEC.DBGKEY.HASH (R405). -/
def Reg.SEC_DBGKEY_HASH (i : Nat) : Fld := ⟨0xd20d0 + i * 4, 31, 0⟩
/-- SEC.DBG_CHAL.CHAL (R405). -/
def Reg.SEC_DBG_CHAL_CHAL : Fld := ⟨0xd20cc, 31, 0⟩
/-- SEC.DBG.LOCK (R405). -/
def Reg.SEC_DBG_LOCK : Fld := ⟨0xd20c8, 0, 0⟩
/-- SEC.IMGKEY.HASH (R405). -/
def Reg.SEC_IMGKEY_HASH (i : Nat) : Fld := ⟨0xd2040 + i * 4, 31, 0⟩
/-- SEC.REVOKE.KEY (R405). -/
def Reg.SEC_REVOKE_KEY : Fld := ⟨0xd20c0, 3, 0⟩
/-- SEC.ROLLBACK.VERSION (R405). -/
def Reg.SEC_ROLLBACK_VERSION : Fld := ⟨0xd20c4, 31, 0⟩
/-- SEC.SAFEKEY.HASH (R405). -/
def Reg.SEC_SAFEKEY_HASH (i : Nat) : Fld := ⟨0xd20f0 + i * 4, 31, 0⟩
/-- SUMP.ACK (R420). -/
def Reg.SUMP_ACK : Fld := ⟨0x4048, 31, 0⟩
/-- SUMP.ACK.N (R420). -/
def Reg.SUMP_ACK_N : Fld := ⟨0x4048, 12, 0⟩
/-- SUMP.ENTRY.WORD (R420). -/
def Reg.SUMP_ENTRY_WORD (i : Nat) : Fld := ⟨0x4050 + i * 4, 31, 0⟩
/-- SUMP.LOST_ERR.LOST_ERR (R420). -/
def Reg.SUMP_LOST_ERR_LOST_ERR : Fld := ⟨0x4068, 15, 0⟩
/-- SUMP.POST_CNT (R420). -/
def Reg.SUMP_POST_CNT : Fld := ⟨0x4064, 31, 0⟩
/-- SUMP.RPTR.INDEX (R420). -/
def Reg.SUMP_RPTR_INDEX : Fld := ⟨0x4044, 11, 0⟩
/-- SUMP.RPTR.UNREAD (R420). -/
def Reg.SUMP_RPTR_UNREAD : Fld := ⟨0x4044, 28, 16⟩
/-- SUMP.RSEL.AUTOINC (R420). -/
def Reg.SUMP_RSEL_AUTOINC : Fld := ⟨0x404c, 31, 31⟩
/-- SUMP.RSEL.INDEX (R420). -/
def Reg.SUMP_RSEL_INDEX : Fld := ⟨0x404c, 11, 0⟩
/-- SUMP.RSEL.TAIL (R420). -/
def Reg.SUMP_RSEL_TAIL : Fld := ⟨0x404c, 30, 30⟩
/-- SUMP.TAIL_WPTR.INDEX (R420). -/
def Reg.SUMP_TAIL_WPTR_INDEX : Fld := ⟨0x4060, 4, 0⟩
/-- SUMP.WPTR.INDEX (R420). -/
def Reg.SUMP_WPTR_INDEX : Fld := ⟨0x4040, 11, 0⟩
/-- SYS.BRIDGE_ERR.BRIDGE_ERR (R418). -/
def Reg.SYS_BRIDGE_ERR_BRIDGE_ERR : Fld := ⟨0x4c, 15, 0⟩
/-- SYS.PWREN_LOAD.LOAD (R418). -/
def Reg.SYS_PWREN_LOAD_LOAD : Fld := ⟨0x48, 15, 0⟩
/-- SYS.RSTCAUSE.CAUSE (R418). -/
def Reg.SYS_RSTCAUSE_CAUSE : Fld := ⟨0x44, 2, 0⟩
/-- TEST.FAIL_CNT.COUNT (R404). -/
def Reg.TEST_FAIL_CNT_COUNT : Fld := ⟨0xd1054, 31, 0⟩
/-- TEST.LAST.KIND (R404). -/
def Reg.TEST_LAST_KIND : Fld := ⟨0xd1044, 31, 28⟩
/-- TEST.LAST.STATUS (R404). -/
def Reg.TEST_LAST_STATUS : Fld := ⟨0xd1044, 3, 0⟩
/-- TEST.LAST.TAG (R404). -/
def Reg.TEST_LAST_TAG : Fld := ⟨0xd1044, 27, 20⟩
/-- TEST.NOTQ_ERR.COUNT (R404). -/
def Reg.TEST_NOTQ_ERR_COUNT : Fld := ⟨0xd1058, 15, 0⟩
/-- TEST.PASS_CNT.COUNT (R404). -/
def Reg.TEST_PASS_CNT_COUNT : Fld := ⟨0xd1050, 31, 0⟩
/-- TEST.QUEUE.LEVEL (R404). -/
def Reg.TEST_QUEUE_LEVEL : Fld := ⟨0xd1048, 4, 0⟩
/-- TEST.QUEUE.RUNNING (R404). -/
def Reg.TEST_QUEUE_RUNNING : Fld := ⟨0xd1048, 9, 5⟩
/-- TEST.REQ (R404). -/
def Reg.TEST_REQ : Fld := ⟨0xd1040, 31, 0⟩
/-- TEST.REQ.INDEX (R404). -/
def Reg.TEST_REQ_INDEX : Fld := ⟨0xd1040, 6, 0⟩
/-- TEST.REQ.KIND (R404). -/
def Reg.TEST_REQ_KIND : Fld := ⟨0xd1040, 31, 28⟩
/-- TEST.REQ.TAG (R404). -/
def Reg.TEST_REQ_TAG : Fld := ⟨0xd1040, 27, 20⟩
/-- TIME.ASYM.ASYM (R240). -/
def Reg.TIME_ASYM_ASYM (i : Nat) : Fld := ⟨0x7a100 + i * 4, 15, 0⟩
/-- TIME.ASYM.PHY_RX (R240). -/
def Reg.TIME_ASYM_PHY_RX (i : Nat) : Fld := ⟨0x7a100 + i * 4, 23, 16⟩
/-- TIME.ASYM.PHY_TX (R240). -/
def Reg.TIME_ASYM_PHY_TX (i : Nat) : Fld := ⟨0x7a100 + i * 4, 31, 24⟩
/-- TIME.CTRL.OFS_MAX (R240). -/
def Reg.TIME_CTRL_OFS_MAX : Fld := ⟨0x7a040, 15, 8⟩
/-- TIME.CTRL.RSHIFT (R240). -/
def Reg.TIME_CTRL_RSHIFT : Fld := ⟨0x7a040, 6, 4⟩
/-- TIME.CTRL.SRC (R240). -/
def Reg.TIME_CTRL_SRC : Fld := ⟨0x7a040, 1, 0⟩
/-- TIME.JUMP_LIMIT.NS (R240). -/
def Reg.TIME_JUMP_LIMIT_NS : Fld := ⟨0x7a05c, 31, 0⟩
/-- TIME.LAUNCH_ERR.COUNT (R240). -/
def Reg.TIME_LAUNCH_ERR_COUNT : Fld := ⟨0x7a0b8, 15, 0⟩
/-- TIME.LIMITS.RATE_LIMIT (R240). -/
def Reg.TIME_LIMITS_RATE_LIMIT : Fld := ⟨0x7a058, 19, 0⟩
/-- TIME.LIMITS.SLEW_MAX (R240). -/
def Reg.TIME_LIMITS_SLEW_MAX : Fld := ⟨0x7a058, 31, 24⟩
/-- TIME.NOW_FRAC (R240). -/
def Reg.TIME_NOW_FRAC : Fld := ⟨0x7a050, 31, 0⟩
/-- TIME.NOW_NS (R240). -/
def Reg.TIME_NOW_NS : Fld := ⟨0x7a044, 31, 0⟩
/-- TIME.NOW_SEC_HI (R240). -/
def Reg.TIME_NOW_SEC_HI : Fld := ⟨0x7a04c, 31, 0⟩
/-- TIME.NOW_SEC_LO (R240). -/
def Reg.TIME_NOW_SEC_LO : Fld := ⟨0x7a048, 31, 0⟩
/-- TIME.OFFSET.C (R240). -/
def Reg.TIME_OFFSET_C : Fld := ⟨0x7a064, 31, 0⟩
/-- TIME.RATE.RATE (R240). -/
def Reg.TIME_RATE_RATE : Fld := ⟨0x7a054, 31, 0⟩
/-- TIME.SET_CMD (R240). -/
def Reg.TIME_SET_CMD : Fld := ⟨0x7a094, 31, 0⟩
/-- TIME.SET_CMD.SET (R240). -/
def Reg.TIME_SET_CMD_SET : Fld := ⟨0x7a094, 0, 0⟩
/-- TIME.SET_NS.VALUE (R240). -/
def Reg.TIME_SET_NS_VALUE : Fld := ⟨0x7a088, 31, 0⟩
/-- TIME.SET_SEC_HI.VALUE (R240). -/
def Reg.TIME_SET_SEC_HI_VALUE : Fld := ⟨0x7a090, 15, 0⟩
/-- TIME.SET_SEC_LO.VALUE (R240). -/
def Reg.TIME_SET_SEC_LO_VALUE : Fld := ⟨0x7a08c, 31, 0⟩
/-- TIME.STAT.FTOL (R240). -/
def Reg.TIME_STAT_FTOL : Fld := ⟨0x7a060, 9, 8⟩
/-- TIME.STAT.HOLDOVER (R240). -/
def Reg.TIME_STAT_HOLDOVER : Fld := ⟨0x7a060, 2, 2⟩
/-- TIME.STAT.NVAL (R240). -/
def Reg.TIME_STAT_NVAL : Fld := ⟨0x7a060, 15, 12⟩
/-- TIME.STAT.STEPLATE (R240). -/
def Reg.TIME_STAT_STEPLATE : Fld := ⟨0x7a060, 5, 5⟩
/-- TIME.STAT.STEPPEND (R240). -/
def Reg.TIME_STAT_STEPPEND : Fld := ⟨0x7a060, 4, 4⟩
/-- TIME.STAT.TJUMP (R240). -/
def Reg.TIME_STAT_TJUMP : Fld := ⟨0x7a060, 1, 1⟩
/-- TIME.STAT.UPLOCK (R240). -/
def Reg.TIME_STAT_UPLOCK : Fld := ⟨0x7a060, 3, 3⟩
/-- TIME.STEP_AT_HI (R240). -/
def Reg.TIME_STEP_AT_HI : Fld := ⟨0x7a080, 31, 0⟩
/-- TIME.STEP_AT_HI.CYCLE (R240). -/
def Reg.TIME_STEP_AT_HI_CYCLE : Fld := ⟨0x7a080, 31, 0⟩
/-- TIME.STEP_AT_LO (R240). -/
def Reg.TIME_STEP_AT_LO : Fld := ⟨0x7a07c, 31, 0⟩
/-- TIME.STEP_AT_LO.CYCLE (R240). -/
def Reg.TIME_STEP_AT_LO_CYCLE : Fld := ⟨0x7a07c, 31, 0⟩
/-- TIME.STEP_CMD (R240). -/
def Reg.TIME_STEP_CMD : Fld := ⟨0x7a084, 31, 0⟩
/-- TIME.STEP_CMD.ACCEPT (R240). -/
def Reg.TIME_STEP_CMD_ACCEPT : Fld := ⟨0x7a084, 0, 0⟩
/-- TIME.STEP_CMD.CANCEL (R240). -/
def Reg.TIME_STEP_CMD_CANCEL : Fld := ⟨0x7a084, 1, 1⟩
/-- TIME.STEP_HI (R240). -/
def Reg.TIME_STEP_HI : Fld := ⟨0x7a078, 31, 0⟩
/-- TIME.STEP_HI.STEP (R240). -/
def Reg.TIME_STEP_HI_STEP : Fld := ⟨0x7a078, 31, 0⟩
/-- TIME.STEP_LO (R240). -/
def Reg.TIME_STEP_LO : Fld := ⟨0x7a074, 31, 0⟩
/-- TIME.STEP_LO.STEP (R240). -/
def Reg.TIME_STEP_LO_STEP : Fld := ⟨0x7a074, 31, 0⟩
/-- TIME.SYNCOUT_ERR.COUNT (R240). -/
def Reg.TIME_SYNCOUT_ERR_COUNT : Fld := ⟨0x7a0bc, 15, 0⟩
/-- TIME.SYNC_CFG.MEMBER_EN (R240). -/
def Reg.TIME_SYNC_CFG_MEMBER_EN : Fld := ⟨0x7a098, 7, 0⟩
/-- TIME.SYNC_CFG.SYNC_WIN (R240). -/
def Reg.TIME_SYNC_CFG_SYNC_WIN : Fld := ⟨0x7a098, 31, 16⟩
/-- TIME.SYNC_SEL.MEMBER (R240). -/
def Reg.TIME_SYNC_SEL_MEMBER : Fld := ⟨0x7a0a0, 2, 0⟩
/-- TIME.SYNC_STAT.OUT (R240). -/
def Reg.TIME_SYNC_STAT_OUT : Fld := ⟨0x7a09c, 15, 8⟩
/-- TIME.SYNC_STAT.USED (R240). -/
def Reg.TIME_SYNC_STAT_USED : Fld := ⟨0x7a09c, 7, 0⟩
/-- TIME.TJUMP_ERR.COUNT (R240). -/
def Reg.TIME_TJUMP_ERR_COUNT : Fld := ⟨0x7a0b4, 15, 0⟩
/-- TIME.TSYNC_CNT.TSYNC_CNT (R240). -/
def Reg.TIME_TSYNC_CNT_TSYNC_CNT : Fld := ⟨0x7a0b0, 31, 0⟩
/-- TIME.UP_OFS_HI.OFS (R240). -/
def Reg.TIME_UP_OFS_HI_OFS : Fld := ⟨0x7a06c, 31, 0⟩
/-- TIME.UP_OFS_LO.OFS (R240). -/
def Reg.TIME_UP_OFS_LO_OFS : Fld := ⟨0x7a068, 31, 0⟩
/-- TIME.UP.UP_TC (R240). -/
def Reg.TIME_UP_UP_TC : Fld := ⟨0x7a070, 25, 16⟩
/-- TIME.UTC_OFS.SEC (R240). -/
def Reg.TIME_UTC_OFS_SEC : Fld := ⟨0x7a0ac, 15, 0⟩

end Sys2Proof.Machine
end

