-- ==== Sys2Proof/Machine/State.lean ====
section
/-! DEFINITION. The state of the SV9624, as plain data, and its reset (inventory: INVENTORY.md, State). -/

namespace Sys2Proof.Machine

/-- Why the machine stops. The block never stops on its own: every command of the table has an effect (NOTES.md, Stops). -/
inductive Fault where
  /-- Raised by no meaning: the spec names no condition that stops the block. Safe. -/
  | none
  deriving DecidableEq, Repr

/-- Why a command has no meaning. -/
inductive Refusal where
  /-- Raised by an arm of exec whose command has no meaning yet. Safe. -/
  | notModelled (mnemonic : String)
  deriving DecidableEq, Repr

/-- What leaves the package or reaches another agent, in order of sending. -/
inductive Out where
  /-- an MSI-X message (R333): vector, address, data -/
  | msi (v : Nat) (addr : Nat) (data : Nat)
  /-- a bus error to an internal master (R32, R370) -/
  | busError (m : Master)
  /-- bytes moved to host memory by a DMA channel, and a descriptor's written-back words 3 and 6 (R334) -/
  | dmaData (c : Nat) (addr : Nat) (bytes : List Byte)
  | dmaStatus (c : Nat) (addr : Nat) (word3 status : Nat)
  /-- the PWR_EN ball (R374) -/
  | pwrEn (high : Bool)
  /-- a PMBus command of the device (R381): command name and value -/
  | pmbusVout (mv : Nat)
  | pmbusReadStatus
  /-- the code on balls VID0–VID5 (R381) -/
  | vid (code : Nat)
  /-- a fuse blown (R382, R395): what, and its new value -/
  | fuseBlown (what : Nat) (value : Nat)
  /-- an image written to a flash slot (R395) -/
  | flashWrite (slot : Nat) (bytes : List Byte)
  /-- RELINQUISH and FAULTED signals to the peer (R257, R258) -/
  | peerRelinquish
  | peerFaulted
  /-- a frame sent by a port: the instant in ns after the boundary, and its bytes without FCS -/
  | frame (p : Nat) (at_ : Nat) (bytes : List Byte)
  /-- a frame sent by a port that its transmit engine cut: the instant in ns after the boundary, and the bytes it left with, ended early with a bad FCS (R197) -/
  | frameCut (p : Nat) (at_ : Nat) (bytes : List Byte)
  /-- a frame sent by a plant port -/
  | plantFrame (p : Nat) (at_ : Nat) (bytes : List Byte)
  /-- Sync with its time in 2^−16 ns, one-step or two-step, timeBaseIndicator and lastGmPhaseChange; Announce with the clock quality and UTC offset (R234, R235) -/
  | ptpSync (p : Nat) (time : Nat) (oneStep : Bool) (tbi : Nat) (phase : Int) (udp : Bool)
  | ptpAnnounce (p : Nat) (domain : Nat) (gmq : Nat) (utc : Nat) (udp : Bool)
  /-- a delay request: Pdelay_Req, else Delay_Req; its transmit stamp in 2^−16 ns; over UDP (R234) -/
  | ptpRequest (p : Nat) (peer : Bool) (time : Nat) (udp : Bool)
  /-- the answer to a PTP delay message: its messageType, and the receive time in ns and 2^−16 ns -/
  | ptpDelay (p : Nat) (kind : Nat) (ns : Nat) (frac : Nat) (udp : Bool)
  /-- edges of a time-triggered output: number, and the level after them (R237) -/
  | ttEdge (o : Nat) (n : Nat) (level : Bool)
  /-- the first clock edge of a serial request (R301) -/
  | encRequest (n : Nat)
  /-- an edge of an emulation output, with its count after it (R171) -/
  | emuEdge (m : Nat) (count : Int)
  /-- the field outputs as driven, and the safety switches: high side, low side (R279, R315) -/
  | outputs (levels : BitVec 16)
  | safetySwitches (high : BitVec 2) (low : BitVec 2)
  /-- the peer is told of a test pulse of a paralleled pair (R294) -/
  | pulseSignal (q : Nat)
  /-- peer traffic: an input image (R247), a forwarded node frame (R249), a channel state copy (R253), a mirror record (R255) -/
  | inputImage (pts : List PtImage)
  | forward (p : Nat) (bytes : List Byte)
  | chanCopy (c : ChanCopy)
  | mirror (r : MirrorRec)
  /-- a management item's background traffic, and the word that an installation is done: 0 of a schedule, 1 of a graph or IMEM image (R256) -/
  | background (i : MItem)
  | peerDone (k : Nat)
  deriving DecidableEq, Repr

/-- The states of a power domain, with its transitions (R364, R367). -/
inductive PSt where
  | off | ret | on | toRet | toOff | waking | powerUp
  deriving DecidableEq, Repr

/-- A power request as it was written (R366): master code, state, and the wake source it would record (R369). -/
structure PReq where
  m : Master
  st : Nat
  src : Nat
  round : Bool
  deriving DecidableEq, Repr

/-- One power domain (R364, R368, R369, R371). -/
structure DomSt where
  st : PSt := .off
  /-- level left by the transition in progress: 0 OFF, 1 RET, 2 ON (R365) -/
  org : Nat := 0
  /-- a cluster's transition out of ON awaits idle engines: its target (R371) -/
  leave : Option Nat := none
  /-- the pending request of R368 -/
  pend : Option PReq := none
  /-- source and round trip of the wake in progress (R369) -/
  src : Nat := 0
  round : Bool := false
  deriving DecidableEq, Repr

/-- Standby (R374). -/
inductive Standby where
  | none | entering | asleep | pwrHeld
  deriving DecidableEq, Repr

/-- An access stalled by AUTOWAKE (R370): its domain, and the access. -/
structure Stalled where
  dom : Nat
  acc : Access
  deriving DecidableEq, Repr

/-- The fault register of an internal master (R32, R370). DESIGN CHOICE: the spec gives no register or command that enables bus errors; they are disabled at reset, and the model has no command that enables them (log 47). -/
structure MFault where
  en : Bool := false
  valid : Bool := false
  addr : Nat := 0
  deriving DecidableEq, Repr

/-- Surge and the voltage plan (R380 to R384). -/
structure SurgeSt where
  /-- present VDD_CORE in mV -/
  vdd : Nat := 0
  /-- voltage that VDD_CORE moves to, in mV -/
  target : Nat := 0
  /-- the surge PLL runs (R383) -/
  pll : Bool := false
  /-- the voltage is reached: the clocks rise at the next boundary (R383) -/
  riseAt : Bool := false
  /-- the fallback awaits its boundary (R383) -/
  fallAt : Bool := false
  /-- network time of the decision to fall back -/
  fallNs : Nat := 0
  /-- VOUT_COMMAND transactions that have failed in a row; the others' failures -/
  ioutFails : Nat := 0
  /-- surge hours begun, held in fuses (R382) -/
  usedH : Nat := 0
  /-- milliseconds of COOL_S still to pass (R382) -/
  coolMs : Nat := 0
  /-- failures in a row of the current PMBus transaction (R381) -/
  pmbFails : Nat := 0
  /-- STATUS_WORD as last read (R381) -/
  status : Nat := 0
  /-- RTC seconds of the last successful plan (R386) -/
  planAt : Option Nat := none
  deriving DecidableEq, Repr

/-- The always-on domain, beside the AO page (R372 to R376). -/
structure AoSt where
  /-- epoch in retention RAM (R206; log 20) -/
  epoch : Nat := 0
  /-- phase of the RTC within one period, in ns × 32,768 -/
  phase : Nat := 0
  /-- tracking decodes in progress: last A and B levels of each encoder (R376) -/
  trkAB : Tbl Nat := []
  /-- PWR_EN is high -/
  pwrEn : Bool := false
  /-- values written to RTC_SEC_LO, HI and SUB, awaiting the next RTC period (R385) -/
  rtcLoad : Option (Nat × Nat) := none
  /-- RTC_SEC_HI and RTC_SUB as written, until RTC_SEC_LO loads them (R385) -/
  rtcHi : Nat := 0
  rtcSub : Nat := 0
  /-- source of the wake that the next boot records, and whether it came during an entry (R369) -/
  wake : Option (Nat × Bool) := none
  /-- REF_LOST of channels 0 and 1 when they were handed over to tracking (R309) -/
  trkRef : BitVec 2 := 0
  deriving DecidableEq, Repr

/-- The boot (R387 to R395), beside the BOOT page and the journal in retention RAM. -/
structure BootSt where
  /-- a boot is running -/
  running : Bool := false
  /-- BOOTSRC as sampled (R394) -/
  host : Bool := false
  /-- step 7 waits for BOOT.HOSTIMG -/
  waitImg : Bool := false
  /-- VERSION of the running image (R395) -/
  version : Nat := 0
  /-- slot that the next boot tries first (R395) -/
  first : Nat := 0
  /-- the two flash slots (R394) -/
  flashA : List Byte := []
  flashB : List Byte := []
  /-- last good calibration kept for each lane (R392) -/
  lanesGood : BitVec 28 := 0
  /-- lanes disabled for want of a calibration (R392) -/
  lanesOff : BitVec 28 := 0
  /-- the last plan formed (R390, step 10) -/
  plan : Option PlanMeas := none
  /-- RSTCAUSE of the boot that comes next -/
  cause : Nat := 1
  /-- first block of the host image (R394) -/
  hostBlk : Nat := 0
  /-- full debug access granted, and every group held in STO until the next AO power-on (R396) -/
  unlocked : Bool := false
  /-- the challenge of the last read of SEC.DBG_CHAL -/
  chal : Nat := 0
  /-- SEC.ROLLBACK raised by COMMIT_VER above its fuses -/
  rollback : Nat := 0
  deriving DecidableEq, Repr

/-- The kinds of test request (R397, R404), and the re-plans that share the queue (R399). -/
inductive TestKind where
  | engine | cistbank | scrub | eyescan | sdscal | portloop | can | encoder | offline | replan
  deriving DecidableEq, Repr

/-- A request of the test queue (R399). -/
structure TestReq where
  kind : TestKind
  tag : Nat
  index : Nat
  /-- value that the engine's WITHDRAW bit had before the request (R398) -/
  wasWithdrawn : Bool
  running : Bool
  deriving DecidableEq, Repr

/-- One cistern block's ownership (R323). -/
structure BlkOwn where
  flt : BitVec 2 := 0
  priv : Bool := false
  prev : BitVec 2 := 0
  /-- excluded by the boot: no CAS changes it (R392) -/
  excl : Bool := false
  deriving DecidableEq, Repr

/-- A CAS written and not yet performed (R324). -/
structure CasReq where
  m : Master
  w : W32
  deriving DecidableEq, Repr

/-- A point-store snapshot in progress (R330). -/
structure SnapRun where
  m : Master
  pt : Nat
  left : Nat
  /-- byte offset in the cistern of the next part -/
  dst : Nat
  /-- cycle in which the part was latched -/
  cyc : Nat := 0
  deriving DecidableEq, Repr

/-- A DMA channel (R334). -/
structure DmaCh where
  ptr : Nat := 0
  stop : Bool := false
  deriving DecidableEq, Repr

/-- Network time (R216 to R233), beside the TIME page. -/
structure TimeSt where
  /-- SEC × 10^9 + NS, below 2^48 × 10^9; the time count is this modulo 2^64 (R216) -/
  ns : Nat := 0
  /-- fraction below the nanosecond, in 2^−40 ns -/
  frac : Nat := 0
  /-- network time at the last boundary, in 2^−40 ns -/
  tb : Nat := 0
  /-- the unit has launched or followed a CS since NET turned ON (R218) -/
  used : Bool := false
  /-- deviations of this cycle by member, in 2^−16 ns (R223) -/
  theta : Tbl Int := []
  /-- deviations used at the last cycle whose count was a multiple of 16, and the corrections slewed since (R225) -/
  theta16 : Tbl Int := []
  cSum : Int := 0
  /-- correction formed in the previous cycle; correction slewed over this cycle and over the next one, in 2^−16 ns (R224) -/
  cPrev : Int := 0
  slewNow : Int := 0
  slewNext : Int := 0
  /-- estimates of this cycle from received CS, and what has been applied of their median, in 2^−40 ns (R219) -/
  ests : List Int := []
  adj : Int := 0
  /-- a step accepted: boundary and ns (R232) -/
  step : Option (Nat × Int) := none
  /-- the step that took effect at the last boundary -/
  stepped : Option Int := none
  /-- what the unit's own oscillator has counted, and the sync clock from when it joined the sync set, in 2^−40 ns (R222) -/
  osc : Int := 0
  sync : Option Int := none
  /-- trim of the sync clock's rate in 2^−40, and the sum of the deviations that it works against (R222) -/
  trim : Int := 0
  devSum : Int := 0
  /-- the sync clock less network time at the last boundary, in 2^−40 ns (R222) -/
  own : Option Int := none
  /-- upstream time at the measurements of the last UP_TC seconds, by `osc`, both in 2^−40 ns, since holdover or a change of master (R230, R233) -/
  ups : List (Int × Int) := []
  /-- RATE over the last UP_TC seconds, each value with the `osc` at which it was set (R233) -/
  rates : List (Int × Int) := []
  /-- deviations as they stood at the last averaging (R240), sync streams kept out after DRIFT (R200) -/
  thetaAvg : Tbl Int := []
  driftOut : List Nat := []
  deriving DecidableEq, Repr

/-- A plant port's PTP state (R230, R235): upstream master selected and when it last announced, timeBaseIndicator and lastGmPhaseChange in ns. -/
structure PlantSt where
  best : Option (List Nat) := none
  /-- `osc` at the last Announce of that master -/
  bestAt : Int := 0
  tbi : Nat := 0
  phase : Int := 0
  deriving DecidableEq, Repr

/-- An arming of a time-triggered output (R237): MODE, POL, AT, WIDTH, PERIOD, and edges produced. -/
structure TtArm where
  mode : Nat
  pol : Bool
  at_ : Nat
  width : Nat
  per : Nat
  n : Nat := 0
  deriving DecidableEq, Repr

/-- A time-triggered output: the arming in force, and one that replaces it 1 µs after its write. -/
structure TtSt where
  arm : Option TtArm := none
  next : Option TtArm := none
  deriving DecidableEq, Repr

/-- A capture input (R238): FIFO, oldest first, of time counts and rising edges, and the newest capture. -/
structure CaptSt where
  fifo : List (Nat × Bool) := []
  newest : Nat := 0
  deriving DecidableEq, Repr

/-- A safety channel's part of a bridge frame (R272): alive count, demand per pair, STO and SS1 per group, mode, fault lock-out, any lock-out, its switches on, the latest fault (code + 256 × index), and a safe-channel reset passed on (R288). -/
structure ChanStat where
  alive : Nat := 0
  dem : BitVec 4 := 0
  sto : BitVec 4 := 15
  ss1 : BitVec 4 := 0
  mode : Nat := 0
  flock : Bool := false
  anyLock : Bool := false
  sw : BitVec 2 := 0
  cause : Nat := 0
  nf : Nat := 0
  reset : Bool := false
  deriving DecidableEq, Repr

/-- A frame on its way from the main die (R20): sequence, heartbeat, commanded outputs, AO requests, the channel-B status word, channel A's status, and the CRC. -/
structure FrameDown where
  seq : Nat
  heart : Nat
  out : BitVec 16
  /-- writes of AO registers carried with the frame: key and word -/
  ao : List (Nat × Nat)
  word : W64
  chanA : Option ChanStat
  crc : BitVec 16
  deriving DecidableEq, Repr

/-- A frame on its way from the field die (R20, R321): sequence, the three image words, safety input levels, channel B's status and word. -/
structure FrameUp where
  seq : Nat
  heart : Nat
  w0 : W64
  w1 : W64
  w2 : W64
  edm : BitVec 2
  rst : Bool
  chanB : Option (ChanStat × W64)
  crc : BitVec 16
  deriving DecidableEq, Repr

/-- The die bridge and what crosses it (R20 to R24), beside SYS.BRIDGE_ERR. -/
structure BridgeSt where
  /-- sequence numbers sent by the main die and the field die, and last seen at each end -/
  seqMain : Nat := 0
  seqField : Nat := 0
  rxAtField : Nat := 0
  rxAtMain : Nat := 0
  /-- discarded frames in a row, at the field die and at the main die -/
  runAtField : Nat := 0
  runAtMain : Nat := 0
  /-- AO requests written since the main die's last frame (R20, R24) -/
  aoReq : List (Nat × Nat) := []
  /-- the field die's heartbeat (log 35) -/
  heartField : Nat := 0
  /-- the main die's heartbeat, and the one last accepted by the field die -/
  heart : Nat := 0
  heartAtField : Nat := 0
  /-- the stewards have served the refresh within 1 ms, and have not withdrawn it (R22) -/
  served : Bool := false
  withdrawn : Bool := false
  /-- frames on their way -/
  down : Option FrameDown := none
  up : Option FrameUp := none
  /-- output command latched at the last downlink launch (R23) -/
  outImg : BitVec 16 := 0
  /-- newest accepted image, and field frames sent since it was accepted (R321) -/
  img : Option FrameUp := none
  age : Nat := 0
  deriving DecidableEq, Repr

/-- The field die, beside the FIO page (R311 to R321). -/
structure FieldSt where
  /-- filtered input levels; samples in a row at the other level, by input (R312) -/
  inp : BitVec 16 := 0
  cnt : Tbl Nat := []
  /-- readback high as last sampled -/
  rb : BitVec 16 := 0
  /-- command as last applied, and the source each output takes it from (R314) -/
  cmd : BitVec 16 := 0
  src : BitVec 16 := 0
  /-- switches that have met OTEMP and not yet cooled below 150 °C (R316) -/
  hot : BitVec 16 := 0
  /-- outputs as driven, outputs in their safe state, and levels when it began (R315) -/
  drive : BitVec 16 := 0
  safe : BitVec 16 := 0
  hold : BitVec 16 := 0
  /-- an advanced heartbeat was accepted within T_wd; re-armed, awaiting the next image (R320) -/
  fresh : Bool := false
  await : Bool := false
  /-- boot step 9 has not completed since the last reset (R388) -/
  held : Bool := true
  deriving DecidableEq, Repr

/-- One safety channel (R270 to R285). -/
structure Chan where
  /-- filtered input levels, pairs whose demand has acted, demand lock-outs, fault lock-out -/
  inp : BitVec 8 := 0
  dem : BitVec 4 := 0
  lock : BitVec 4 := 0
  flock : Bool := false
  /-- groups in STO and with SS1-t timing; mode; switches on; alive count -/
  sto : BitVec 4 := 15
  ss1 : BitVec 4 := 0
  mode : Nat := 0
  sw : BitVec 2 := 0
  alive : Nat := 0
  /-- latest fault that the channel itself found, code + 256 × index, and how many it has found -/
  cause : Nat := 0
  nf : Nat := 0
  /-- the other channel as its last accepted frame showed it -/
  other : ChanStat := {}
  deriving DecidableEq, Repr

/-- The safety functions, beside the SAFE page (R269 to R296). -/
structure SafeSt where
  a : Chan := {}
  b : Chan := {}
  vfsaf : Bool := true
  /-- high-side switches on, as channel A's last accepted frame commands them -/
  high : BitVec 2 := 0
  edm : BitVec 2 := 0
  rst : Bool := false
  /-- parameter set in force in channel A, and channel B's own copy of bytes 0–83; none is an empty list (R291) -/
  pset : List Byte := []
  psetB : List Byte := []
  /-- a safe-channel reset is passed to channel B; channel B's counter (R282, R288) -/
  pass : Bool := false
  cntB : Nat := 0
  /-- reset node: SEQ_A and CNT_B of its last valid message with the cycle of its receipt; a message that awaits the next one, with RESET; run of valid RESET messages; that RESET has been acted on; a reset is asked for (R284, R288) -/
  nodeRef : Option (Nat × Nat × Nat) := none
  nodeFirst : Option (Nat × Nat × Bool) := none
  nodeRun : Nat := 0
  nodeDone : Bool := false
  nodeAsk : Bool := false
  /-- a hard-wired reset has acted since the last evaluation (R275) -/
  resetNow : Bool := false
  /-- the low-side switch is pulsed next, by pair (R280) -/
  lowNext : BitVec 2 := 0
  /-- high-side switches held off through the other unit's test pulse (R294) -/
  pulseHold : BitVec 2 := 0
  deriving DecidableEq, Repr

/-- What the standby keeps of a cycle for its comparison with the active's record (R250, R251, R254): cycle count, set-point values, entries sent null, missing receive entries, a missing image, and which engine ran which task. -/
structure LastCyc where
  cycle : Nat := 0
  sent : Tbl (List Byte) := []
  nulls : List Nat := []
  rxMiss : List (Nat × Nat) := []
  imgMiss : Bool := false
  ran : List (Nat × Nat) := []
  deriving DecidableEq, Repr

/-- A cistern block that passes to engine ownership at a boundary, in both units of a pair (R256). -/
structure PassSt where
  due : Nat
  blk : Nat
  priv : Bool
  deriving DecidableEq, Repr

/-- The redundant pair, beside the PEER page (R243 to R268). -/
structure PairSt where
  /-- the standby's role and READY as its last record showed them -/
  peerRole : Nat := 0
  /-- a record arrived in this cycle, and in the previous one (R257) -/
  recNow : Bool := false
  recPrev : Bool := false
  /-- all Lemac transmission is stopped (R257, R258) -/
  silent : Bool := false
  /-- takeover due: at which cycle count, and whether cold (R259) -/
  take : Option (Nat × Bool) := none
  /-- unaligned channels (R252), and those whose realignment clears MIRROR_LATE -/
  unaligned : List Nat := []
  lateWait : List Nat := []
  /-- management items of the record that is being formed (R256) -/
  items : List MItem := []
  /-- bytes of the record that this cycle has sent (R255) -/
  recLen : Option Nat := none
  /-- installations that the standby has done (R256) -/
  acked : List Nat := []
  /-- blocks that pass at a boundary to come -/
  passes : List PassSt := []
  /-- the input image of this cycle has arrived; it was missing at the input edge instant (R247) -/
  imgNow : Bool := false
  imgMiss : Bool := false
  /-- the standby's input-list points, from its last record (R248) -/
  peerPts : List PtImage := []
  /-- the previous cycle -/
  last : LastCyc := {}
  /-- channel state copies received, to be installed at the boundary (R253) -/
  copies : List ChanCopy := []
  /-- the standby's unaligned channels, and bytes of state copies sent in this cycle (R253) -/
  peerUnal : List Nat := []
  copied : Nat := 0
  /-- JOIN written after a repair (R263); boundary at which shadowing starts (R264) -/
  joinAsk : Bool := false
  shadowAt : Option Nat := none
  /-- boundary at which it started -/
  shadowFrom : Nat := 0
  /-- boundary of the accepted proof swap (R265) -/
  swapDue : Option Nat := none
  /-- transmission stops at the next boundary for a higher epoch (R262) -/
  yieldDue : Bool := false
  /-- cycles of this unit's mismatches, and of those that the standby reported (R254); reports for the next record -/
  mmAt : List Nat := []
  peerMm : List Nat := []
  /-- three of them arose within 1,000 cycles -/
  mmDue : Bool := false
  peerMmDue : Bool := false
  reports : List W32 := []
  /-- broken lines of the other unit (R249) -/
  peerBreak : BitVec 24 := 0
  /-- axes that the other unit sheds (R268) -/
  peerShed : List Nat := []
  /-- PEER.IN_EDGE as taken over at the last schedule bank swap (R268) -/
  edges : List Nat := []
  /-- cycles in a row without a valid CS (R261) -/
  noCs : Nat := 0
  deriving DecidableEq, Repr

/-- A completion edge as a 32-bit word, kept as a number (R43). -/
abbrev Edge := Nat

/-- A token: a task made ready, its number in order of making, and whether it has already caused a pre-emption (R45, R56). -/
structure Tok where
  task : Nat
  seq : Nat
  pre : Bool := false
  deriving DecidableEq, Repr

/-- A task in the present cycle (R44, R45, R62). -/
structure TaskSt where
  armed : Bool := false
  /-- dependence counter -/
  ctr : Nat := 0
  flags : BitVec 32 := 0
  /-- its token has been made in this cycle -/
  made : Bool := false
  deriving DecidableEq, Repr

/-- A pointer of an engine (R69, R83). -/
structure Ptr where
  a : BitVec 10 := 0
  b : BitVec 10 := 0
  l : BitVec 11 := 0
  m : BitVec 8 := 1
  deriving DecidableEq, Repr

/-- A loop counter with its loop (R69, R99). -/
structure LoopSt where
  active : Bool := false
  ctr : BitVec 12 := 0
  start : Nat := 0
  stop : Nat := 0
  rot : Bool := false
  deriving DecidableEq, Repr

/-- The architectural state of a loop engine (R69). -/
structure LeRegs where
  d : Vector W32 32 := Vector.replicate 32 0
  ac : Vector W72 4 := Vector.replicate 4 0
  ex : Vector (BitVec 8) 8 := Vector.replicate 8 0
  g : Vector W64 16 := Vector.replicate 16 0
  /-- XA0–XA3, then YA0–YA3 -/
  p : Vector Ptr 8 := Vector.replicate 8 {}
  lc : Vector LoopSt 2 := Vector.replicate 2 {}
  wct : BitVec 4 := 0
  /-- N, Z, V, SAT, AOV, INV, STALE in bits 0–6 (R70) -/
  cc : BitVec 7 := 0
  stv : W64 := 0
  pc : Nat := 0
  stack : List Nat := []
  deriving DecidableEq, Repr

/-- What an engine is doing (R53, R56, R107, R109). -/
inductive Phase where
  | idle | dmaIn | running | saving | restoring | atDone | atYield | fault | test
  deriving DecidableEq, Repr

/-- A pre-empted task in its resume slot (R56, R103). -/
structure Saved where
  task : Nat
  prio : Nat
  r : LeRegs
  deriving DecidableEq, Repr

/-- A loaded prefetch slot: the token, the first 64 words of its DMA-in, and the points they came from with their stale flags (R55). -/
structure PSlot where
  tok : Tok
  words : List Nat
  pts : List (Nat × Bool)
  deriving DecidableEq, Repr

/-- A task that has reached DONE and whose DMA-out has not committed: the entries of its list with their words (R48, R75). -/
structure OutJob where
  task : Nat
  /-- each DMA-out entry in list order: internal address, length in words, the words -/
  writes : List (Nat × Nat × List Nat)
  /-- points that a library task has formed: address and value (R135, R151) -/
  pts : List (Nat × Nat)
  /-- bundle index of its DONE -/
  pc : Nat
  deriving DecidableEq, Repr

/-- A loop engine (R52 to R57, R69, R107). -/
structure Engine where
  r : LeRegs := {}
  /-- the registers as the bundle in progress read them (R79) -/
  snap : LeRegs := {}
  /-- what the bundle in progress has written (R80), and its stores, made when it ends -/
  wrote : List Nat := []
  stores : List (Nat × List Byte) := []
  mid : Bool := false
  ph : Phase := .idle
  task : Nat := 0
  prio : Nat := 0
  resume : Option Saved := none
  /-- the priority-0 token reserved to it (R56) -/
  reserved : Option Tok := none
  /-- local queue, prefetch queue, prefetch slot -/
  lq : List Tok := []
  pq : List Tok := []
  pslot : Option PSlot := none
  /-- the prefetch slot's data, taken by the task that starts -/
  taken : Option PSlot := none
  outq : List OutJob := []
  /-- written bits of XMEM and YMEM, by (Y, half, word) (R74) -/
  wbit : Tbl Bool := []
  /-- bundles issued in this cycle (R109) -/
  issued : Nat := 0
  /-- an IMEM load that was cut off must be completed before it is returned (R72) -/
  partImem : Bool := false
  deriving DecidableEq, Repr

/-- Work of a poster that stalls at a full well (R60): the token it holds, the edges still to fire, the engine that waits for it, and the home of the edges' LOCAL queue. -/
structure PostItem where
  hold : Option Nat := none
  /-- the task whose edges they are -/
  src : Option Nat := none
  edges : List Edge := []
  eng : Option Nat := none
  /-- re-post of this task by YIELD -/
  repost : Option Nat := none

  deriving DecidableEq, Repr

/-- A running CYC.GCMD command: GINSTALL or LOADIMEM, its engine, its image blocks, and the clusters that have left ON since it began (R59, R72). -/
structure GCmd where
  load : Bool
  engine : Nat
  blk : Nat
  n : Nat
  lost : BitVec 4 := 0
  /-- LOADIMEM at a standby: the engine's WITHDRAW bit before it (R256) -/
  back : Option Bool := none
  deriving DecidableEq, Repr

/-- A task as it stood when its home cluster went OFF: its edges still fire at step 5, and its LAUNCH edges still count (R444). -/
structure GoneTask where
  bank : Nat
  task : Nat
  axis : Option Nat
  edges : List Edge
  deriving DecidableEq, Repr

/-- The scheduler (R39 to R68). -/
structure SchedSt where
  /-- cycle count -/
  cycle : Nat := 0
  /-- tokens made so far, for their order -/
  seq : Nat := 0
  tasks : Tbl TaskSt := []
  /-- contributor counts of set-point entries (R62) -/
  entries : Tbl Nat := []
  /-- LAUNCH edges fired in this cycle: task, entry (R63) -/
  launched : List (Nat × Nat) := []
  /-- wells, by cluster × 4 + priority -/
  wells : Tbl (List Tok) := []
  /-- posters that stall: 0–3 delay lists, 4 completion unit, 5–28 receive engines (R60) -/
  posters : Tbl (List PostItem) := []
  /-- clock gates open (R35), and LE clocks counted open in this cycle -/
  gate : BitVec 4 := 0
  clocked : Tbl Nat := []
  /-- delay lists of each bank, by bank × 4 + cluster, and by bank (R58) -/
  intra : Tbl (List IntraEnt) := []
  inter : Tbl (List InterEnt) := []
  /-- intra-cycle entries not yet released in this cycle, by cluster -/
  intraLeft : Tbl (List IntraEnt) := []
  /-- clusters that take part in this cycle (R444) -/
  part : BitVec 4 := 0
  /-- axes whose shedding is in force (R65), and rejoins requested -/
  shed : List Nat := []
  rejoin : List Nat := []
  /-- axes with a late entry attributed in this cycle and in the previous one; the late runs of entries with no axis (R63) -/
  lateNow : List Nat := []
  latePrev : List Nat := []
  lateENow : List Nat := []
  lateEPrev : List Nat := []
  /-- the lowest entry attributed in this cycle, by axis (R63) -/
  lateMin : Tbl Nat := []
  /-- the tasks of clusters that are OFF (R444) -/
  gone : List GoneTask := []
  /-- the edges of the encoder channels as the NET side last took them (R301) -/
  encEdges : Tbl (List Nat) := []
  /-- the running GCMD command -/
  gcmd : Option GCmd := none
  /-- tasks that engines have started in this cycle (R254) -/
  ran : List (Nat × Nat) := []
  /-- engines in prefetch mode, by cluster × 2 + engine, as taken over at the boundary (R55) -/
  prefMode : BitVec 8 := 0
  deriving DecidableEq, Repr

/-- A frame accepted in this cycle: port, entry, kind, segment, stream, position, NODE_ID, payload (R49, R208). -/
structure RxRec where
  port : Nat
  ent : Nat
  kind : Nat
  seg : Nat
  stream : Nat
  pos : Nat
  node : Nat
  body : List Byte
  deriving DecidableEq, Repr

/-- What a CS says (R182): times in 2^−16 ns. -/
structure CsInfo where
  cycle : Nat
  time : Nat
  epoch : Nat
  sched : Nat
  period : Nat
  far : Bool
  step : Bool
  stepNs : Int
  deriving DecidableEq, Repr

/-- A transmit record that is being sent or refused (R327 to R329): its offset in the ring and blocks, the STATUS it will get, whether it is a WRAP, and the instant from which the next one can start, in ns after the boundary. -/
structure TxRun where
  ofs : Nat
  k : Nat
  status : Nat
  wrap : Bool
  sent : Bool
  next : Nat
  deriving DecidableEq, Repr

/-- A port, beside its page (R61, R199, R201, R207, R228, R327). -/
structure PortSt where
  /-- superseded, as the transmit engine takes it from the boundary (R207) -/
  supNow : Bool := false
  /-- REOPEN written: the port reopens at the next boundary (R199, R207) -/
  reopen : Bool := false
  /-- becomes a relay at the next boundary (R201) -/
  relayDue : Bool := false
  /-- valid CS of the own epoch within DLINE ± GUARD in this cycle, and with FAR = 0 -/
  csOk : Bool := false
  csNear : Bool := false
  /-- cycles in a row without, and with FAR = 0 -/
  miss : Nat := 0
  good : Nat := 0
  /-- start of this cycle's CS, in ns after the boundary -/
  csAt : Option Nat := none
  /-- the last five line-delay measurements (R228) -/
  dl : List Nat := []
  /-- frames that a stalled receive engine keeps (R61) -/
  kept : List RxFrame := []
  /-- forwarded frames that it keeps (R249) -/
  keptFwd : List RxFrame := []
  /-- positions in the transmit and receive rings (R327) -/
  txPos : Nat := 0
  tx : Option TxRun := none
  rxPos : Nat := 0
  /-- end of the open asynchronous window in ns after the boundary, and TUNNEL (R209) -/
  win : Option (Nat × Bool) := none
  /-- TSYNC answers that wait for the next window: TAG and T2 (R227) -/
  resp : List (Nat × Nat) := []
  /-- a TSYNC READ is due at this far port; the one sent: TAG and T1 (R228) -/
  askDue : Bool := false
  asked : Option (Nat × Nat) := none
  deriving DecidableEq, Repr

/-- The Lemac network, beside the LEMAC, GUARD and PORT pages (R176 to R215). -/
structure LemacSt where
  /-- the unit launches CS (R178, R203, R259) -/
  launching : Bool := false
  ports : Tbl PortSt := []
  /-- cycles left until a unit that launches and follows no CS has no network running (R402) -/
  recent : Nat := 0
  /-- frames accepted in this cycle, slots whose edges have fired, windows that have ended without a valid copy -/
  rx : List RxRec := []
  fired : List (Nat × Nat) := []
  ended : List (Nat × Nat) := []
  /-- entries that count as missing because of a clash, by (kind × 32 + segment) × 2048 + stream: in force, and from the next boundary -/
  clash : List Nat := []
  clashNext : List Nat := []
  clashClr : Bool := false
  /-- drift runs, cycles within GUARD / 2, offsets of this and of the previous cycle, by port × 4096 + entry (R200, R214) -/
  drift : Tbl Nat := []
  within : Tbl Nat := []
  offs : Tbl (Option Int) := []
  offsPrev : Tbl (Option Int) := []
  /-- a valid CS was heard in this cycle -/
  heard : Bool := false
  /-- last CS and number of consistent ones (R205) -/
  integ : Option (CsInfo × Nat) := none
  /-- PR frames sent, proposed epoch, highest epoch known (R203) -/
  pcyc : Nat := 0
  proposed : Nat := 0
  known : Option Nat := none
  /-- schedule identifier adopted on integration (R205) -/
  schedId : Option Nat := none
  /-- a fourth rank clash: PRIME_HALT is due (R204) -/
  haltDue : Bool := false
  /-- first image block of a running INSTALL -/
  inst : Option Nat := none
  /-- boundary of the accepted swap (R195) -/
  swapDue : Nat := 0
  /-- receive entries that counted as missing, and set-point entries sent null, in this cycle (R255) -/
  rxMiss : List (Nat × Nat) := []
  nulls : List Nat := []
  /-- values of the set-point entries launched in this cycle, by entry (R250) -/
  sent : Tbl (List Byte) := []
  deriving DecidableEq, Repr

/-- An encoder channel, beside its page (R298 to R309). -/
structure EncSt where
  count : W64 := 0
  /-- time of the last edge, valid or not, and of the last counted edge with its direction -/
  tAny : Option Nat := none
  tLast : Nat := 0
  dir : Int := 0
  /-- an invalid transition since the last sample -/
  bad : Bool := false
  /-- W in force; the window in progress: open, previous close, edges, net count, first and last edge, reversing edge, invalid transition (R305, R306) -/
  win : Nat := 1
  isOpen : Bool := false
  close0 : Nat := 0
  n : Nat := 0
  net : Int := 0
  t1 : Nat := 0
  tn : Nat := 0
  rev : Bool := false
  inv : Bool := false
  /-- standing still; consecutive windows without an edge; last report in binary32 -/
  still : Bool := true
  empty : Nat := 0
  rep : Nat := 0
  /-- serial: last good word, word awaited, count and validity at the previous close, T_w where this sample closes a window (R304, R307) -/
  rPrev : Option Nat := none
  await : Bool := false
  pClose : W64 := 0
  goodClose : Bool := false
  tw : Option Nat := none
  /-- sample instant, run of failed samples -/
  at_ : Nat := 0
  run : Nat := 0
  deriving DecidableEq, Repr

/-- The edges of one cycle of an emulation output (R171, R172): target Q, direction, the first edge's size where it differs, the others' size, edges left. -/
structure EmuPlan where
  target : Int := 0
  up : Bool := true
  head : Option Nat := none
  size : Nat := 1
  left : Nat := 0
  deriving DecidableEq, Repr

/-- An emulation output, beside its registers (R171 to R173): output count, anchor, source value and Q as last read, ratio in force, plans of this and of the next cycle. -/
structure EmuSt where
  qOut : Int := 0
  p0 : Int := 0
  q0 : Int := 0
  p : Int := 0
  q : Int := 0
  num : Nat := 1
  den : Nat := 1
  cur : Option EmuPlan := none
  next : Option EmuPlan := none
  deriving DecidableEq, Repr

/-- A row of an acquisition record (R346): cycle of its sample, sample instant in ns and 2^−16 ns, and its bytes. -/
structure AcqRow where
  cycle : Nat
  ns : Nat
  frac : Nat
  bytes : List Byte
  deriving DecidableEq, Repr

/-- A complete record in the buffer (R345): number, offset, bytes, whether released. -/
structure AcqRec where
  no : Nat
  ofs : Nat
  len : Nat
  released : Bool := false
  deriving DecidableEq, Repr

/-- What a channel has met in the sample interval (R339): a fresh value, the minimum and the maximum. -/
structure AcqIv where
  fresh : Bool := false
  lo : Option Nat := none
  hi : Option Nat := none
  deriving DecidableEq, Repr

/-- The acquisition engine, beside the ACQ page and the buffer (R338 to R347). -/
structure AcqSt where
  /-- rows before the trigger row, and from it on; the last row formed -/
  pre : List AcqRow := []
  rows : List AcqRow := []
  last : Option AcqRow := none
  /-- the interval in progress, by channel -/
  iv : Tbl AcqIv := []
  /-- FORCE written and not yet taken; trigger cycle; FORCED -/
  force : Bool := false
  trig : Nat := 0
  forced : Bool := false
  /-- previous fresh values of conditions A and B; the trigger held at the last tap; cycle of the last tap -/
  prevA : Option Nat := none
  prevB : Option Nat := none
  held : Bool := false
  tapAt : Option Nat := none
  /-- trigger events still to come in hold-off (R343) -/
  left : Nat := 0
  /-- complete records present, oldest first -/
  recs : List AcqRec := []
  /-- an export in progress: offset, bytes, first block (R347) -/
  exp : Option (Nat × Nat × Nat) := none
  /-- CIST left ON during sampling (R344) -/
  aborted : Bool := false
  deriving DecidableEq, Repr

/-- A CAN transmit buffer, beside TXCTRLt (R351 to R354, R359): point 8, data, timestamp; a cancel that arrived after SOF. -/
structure CanTx where
  hdr : Nat := 0
  data : List Byte := []
  ts : Nat := 0
  frac : Nat := 0
  cancel : Bool := false
  deriving DecidableEq, Repr

/-- A stored CAN frame (R355, R356). -/
structure CanMsg where
  hdr : Nat
  data : List Byte
  ts : Nat
  frac : Nat
  deriving DecidableEq, Repr

/-- A CAN receive buffer (R355, R360): primary, shadow, newest frame with the cycle in which it arrived. -/
structure CanRx where
  prim : Option CanMsg := none
  shad : Option CanMsg := none
  newest : Option (CanMsg × Nat) := none
  deriving DecidableEq, Repr

/-- A CAN controller, beside its page (R349 to R361): buffers, the locked receive buffer, and the run of bit errors with its buffer. -/
structure CanSt where
  tx : Tbl CanTx := []
  rx : Tbl CanRx := []
  lock : Option Nat := none
  runBuf : Nat := 0
  run : Nat := 0
  deriving DecidableEq, Repr

/-- The machine. -/
structure State where
  /-- commands that are waiting, first in, first out -/
  pending : List Instr := []
  /-- registers, by page × 0x1000 + offset; an unlisted register reads its reset value -/
  regs : Tbl W32 := []
  /-- registers banked by master, by master code × 2^24 + key (R324, R413, R419) -/
  banked : Tbl W32 := []
  /-- control registers as the control plane took them over at the last boundary (R25) -/
  ctl : Tbl W32 := []
  /-- every on-chip memory, by internal address (R31) -/
  mem : List Host.Cell := []
  /-- power domains, by number (R363) -/
  pwr : Tbl DomSt := []
  /-- accesses that AUTOWAKE has stalled, in issue order (R370) -/
  stalled : List Stalled := []
  /-- fault registers of the internal masters, by master code (R32, R370) -/
  mfault : Tbl MFault := []
  /-- standby, and what of it is done (R374) -/
  standby : Standby := .none
  /-- clusters in local test mode (R363) -/
  localTest : BitVec 4 := 0
  /-- surge and the core voltage (R380 to R384) -/
  surge : SurgeSt := {}
  /-- the always-on domain, beside the AO page (R372 to R376) -/
  ao : AoSt := {}
  /-- the boot, beside the BOOT page (R387 to R395) -/
  boot : BootSt := {}
  /-- the test queue (R399) -/
  tests : List TestReq := []
  /-- lock sequences in progress: page, master code, register-bus clock of the first key (R410) -/
  lockSeq : List (Nat × Nat × Nat) := []
  /-- cistern blocks (R323) -/
  cist : Tbl BlkOwn := []
  /-- CAS operations written and not yet performed (R324) -/
  casPend : List CasReq := []
  /-- the snapshot in progress (R330) -/
  snapRun : Option SnapRun := none
  /-- the points of the next snapshot part, latched at the last downlink launch (R27) -/
  snapLatch : List (Nat × Nat × Nat) := []
  /-- DMA channels, by number (R334) -/
  dma : Tbl DmaCh := []
  time : TimeSt := {}
  field : FieldSt := {}
  safe : SafeSt := {}
  pair : PairSt := {}
  bridge : BridgeSt := {}
  sched : SchedSt := {}
  /-- loop engines, by number -/
  engs : Tbl Engine := []
  /-- axes, by number -/
  axes : Tbl AxisSt := []
  /-- motion channels; their records by (channel × 2 + bank) × 16 + word; cam registers awaiting a commit (R148, R174) -/
  mots : Tbl MotSt := []
  motRec : Tbl W32 := []
  camPend : Tbl W32 := []
  stops : List StopReq := []
  commit : Option CommitSt := none
  lemac : LemacSt := {}
  /-- safe messages: bytes 0–7 written by channel A, by connection; the newest channel-B word accepted from the bridge (R283; log 30) -/
  safeA : Tbl W64 := []
  safeB : W64 := 0x0FFF000000000000
  /-- plant ports, time-triggered outputs, capture inputs -/
  plants : Tbl PlantSt := []
  tts : Tbl TtSt := []
  capts : Tbl CaptSt := []
  /-- encoder channels -/
  encs : Tbl EncSt := []
  /-- emulation outputs -/
  emus : Tbl EmuSt := []
  acq : AcqSt := {}
  /-- CAN controllers, by number -/
  cans : Tbl CanSt := []
  /-- eye margins of the lanes as last scanned, in mUI (R379) -/
  eyes : Tbl Nat := []
  /-- what left the package, oldest first -/
  wire : List Out := []
  /-- data returned to the master of the last read -/
  resp : Option W32 := none
  /-- counter that numbers the free values (log 2) -/
  freeIdx : Nat := 0
  deriving DecidableEq, Repr

/-- The machine right after the power-on of the always-on domain, the main die still held in reset (R387; log 8). -/
def State.reset : State := { regs := [(0xA0094, 0x10A)] }

end Sys2Proof.Machine
end

