-- ==== Sys2Proof/Machine/Ops.lean ====
section
/-! DEFINITION. The named operations over registers, events, counters, logs, memory and power domains. -/

namespace Sys2Proof.Machine

/-- The 4-bit master code (R441). -/
def mcode : Master → Nat
  | .host => 0 | .steward0 => 1 | .steward1 => 2 | .safetyProc => 3 | .dmaEngine => 4 | .diagPort => 5 | .device => 6
  | .cluDma c => 7 + c.val
  | .receive => 11 | .transmit => 12 | .acq => 13 | .snapshot => 14

/-- The master reaches the device from outside or for the host: its refused accesses are logged in HOST.ERRLOG (R370, R412). -/
def isHostSide : Master → Bool
  | .host => true | .diagPort => true | _ => false

/-- A word with bits [hi:lo] replaced by the low bits of `v`. -/
def setBits (hi lo old v : Nat) : Nat := old - bits hi lo old * 2 ^ lo + v % 2 ^ (hi + 1 - lo) * 2 ^ lo

/-- Bit `n` of a number. -/
def bitOf (n v : Nat) : Bool := v / 2 ^ n % 2 == 1

/-- A number with bit `n` set or cleared. -/
def putBit (n : Nat) (b : Bool) (v : Nat) : Nat := v - v / 2 ^ n % 2 * 2 ^ n + b2n b * 2 ^ n

/-! ## Registers -/

/-- The rows of the register at a key. -/
def rowsAt (k : Nat) : List RegRow :=
  match blkOf (k / 0x1000) with
  | some (b, _) => (if k % 0x1000 < 0x40 then rowsHDR else rowsOf b).filter (fun r => r.hits (k % 0x1000))
  | none => []

/-- The registers whose reset value is fused (R213, R405; log 3). -/
def isFused (k : Nat) : Bool :=
  (0x7804C ≤ k && k < 0x7805C) || (0xD2040 ≤ k && k < 0xD20CC) || (0xD20D0 ≤ k && k < 0xD2130)

/-- What a register holds at reset (the Reset columns of the page tables). -/
def regReset (k : Nat) : W32 :=
  let p := k / 0x1000
  let o := k % 0x1000
  match blkOf p with
  | none => 0
  | some (b, f) =>
    if o = 0 then BitVec.ofNat 32 (f * 0x10000 + (p - f))
    else if o = 0x24 then BitVec.ofNat 32 (pageDom p)
    else if isFused k then Config.fuse k
    else if b = .LE && o = 0x4C then BitVec.ofNat 32 ((0x1F0 + (p - f) % 16) * 0x200)
    else if b = .PORT && o = 0x44 then BitVec.ofNat 32 ((p - f) % 12 + ((rowsAt k).map (fun r => r.rst * 2 ^ r.lo)).sum)
    else BitVec.ofNat 32 ((rowsAt k).map (fun r => r.rst * 2 ^ r.lo)).sum

/-- A register as a number. -/
def rdw (s : State) (k : Nat) : Nat := (tget regReset s.regs k).toNat

/-- A register field. -/
def rd (s : State) (f : Fld) : Nat := bits f.hi f.lo (rdw s f.addr)

/-- A one-bit field is set. -/
def on (s : State) (f : Fld) : Bool := rd s f == 1

/-- Set a whole register. -/
def wrw (s : State) (k v : Nat) : State := { s with regs := tput regReset s.regs k (BitVec.ofNat 32 v) }

/-- Set a register field. -/
def wr (s : State) (f : Fld) (v : Nat) : State := wrw s f.addr (setBits f.hi f.lo (rdw s f.addr) v)

/-- Set several fields, in order. -/
def wrs (s : State) (l : List (Fld × Nat)) : State := l.foldl (fun s e => wr s e.1 e.2) s

/-- A register field as a signed number. -/
def rds (s : State) (f : Fld) : Int := sgn (f.hi + 1 - f.lo) (rd s f)

/-- A control field as the control plane took it over at the last boundary (R25). -/
def cfg (s : State) (f : Fld) : Nat := bits f.hi f.lo (tget regReset s.ctl f.addr).toNat

/-- A one-bit control field, as taken over, is set. -/
def cfgOn (s : State) (f : Fld) : Bool := cfg s f == 1

/-- A pair of 32-bit registers, low word first, as one number. -/
def rd64 (s : State) (lo hi : Fld) : Nat := rd s lo + 2 ^ 32 * rd s hi

/-- Set a pair of registers, low word first. -/
def wr64 (s : State) (lo hi : Fld) (v : Nat) : State := wr (wr s lo v) hi (v / 2 ^ 32)

/-- A banked register of a master (R413). -/
def bget (s : State) (m : Master) (k : Nat) : Nat := (tget (fun _ => 0#32) s.banked (mcode m * 2 ^ 24 + k)).toNat

/-- Set a banked register of a master. -/
def bput (s : State) (m : Master) (k v : Nat) : State :=
  { s with banked := tput (fun _ => 0#32) s.banked (mcode m * 2 ^ 24 + k) (BitVec.ofNat 32 v) }

/-- The answer of a read. -/
def answer (s : State) (v : Nat) : State := { s with resp := some (BitVec.ofNat 32 v) }

/-- What a read that is not performed returns (R14, R32, R370, R412). -/
def allOnes : Nat := 0xFFFFFFFF

/-- Append to what left the package. -/
def emit (s : State) (o : Out) : State := { s with wire := s.wire ++ [o] }

/-- Take the next free value (log 2). -/
def free (s : State) : Nat × State := (Config.freeWord s.freeIdx, { s with freeIdx := s.freeIdx + 1 })

/-! ## Power domains -/

/-- AO is always ON; every other domain is OFF until something switches it (R365; log 8). -/
def domDef (d : Nat) : DomSt := if d = 0 then { st := .on } else {}

/-- A power domain. -/
def dom (s : State) (d : Nat) : DomSt := tget domDef s.pwr d

/-- A power domain is ON (R364). -/
def domOn (s : State) (d : Nat) : Bool := (dom s d).st == .on

/-- Set a power domain. -/
def setDom (s : State) (d : Nat) (v : DomSt) : State := { s with pwr := tput domDef s.pwr d v }

/-! ## Events and MSI-X (R333, R407) -/

/-- A page has an enabled event pending. -/
def pagePending (s : State) (p : Nat) : Bool :=
  on s (Reg.HDR_PAGE_CTRL_EN p) && (rdw s (p * 0x1000 + 0x18) &&& rdw s (p * 0x1000 + 0x14)) != 0

/-- A group vector is pending. -/
def vecPending (s : State) (v : Nat) : Bool := allPages.any (fun p => vecOf p == v && pagePending s p)

/-- Register key of word `w` of an MSI-X table entry. -/
def msixKey (v w : Nat) : Nat := 0xB1800 + 16 * v + 4 * w

/-- Send a vector's message, or set its PBA bit while it is masked; with the endpoint's domain off, nothing is sent. -/
def sendVec (s : State) (v : Nat) : State :=
  if !domOn s dHOST then s
  else if bitOf 0 (rdw s (msixKey v 3)) then wrw s 0xB1C00 (putBit v true (rdw s 0xB1C00))
  else emit s (.msi v (rdw s (msixKey v 0) + 2 ^ 32 * rdw s (msixKey v 1)) (rdw s (msixKey v 2)))

/-- Event `b` of page `p` occurs: EVT_PEND keeps it, and the group's vector becomes pending with it. Nothing is raised for a page whose domain is not ON. -/
def raise (s : State) (p b : Nat) : State :=
  if domOn s (pageDom p) then
    let t := wrw s (p * 0x1000 + 0x18) (putBit b true (rdw s (p * 0x1000 + 0x18)))
    if !vecPending s (vecOf p) && vecPending t (vecOf p) then sendVec t (vecOf p) else t
  else s

/-- Page of a field. -/
def Fld.page (f : Fld) : Nat := f.addr / 0x1000

/-- Set a sticky status field; its rising is event bit 2 of the page (R407). -/
def setSticky (s : State) (f : Fld) : State := if on s f then s else raise (wr s f 1) f.page 2

/-- Clear a BUSY field; its falling is event bit 3 of the page (R407). -/
def clrBusy (s : State) (f : Fld) : State := if on s f then raise (wr s f 0) f.page 3 else s

/-- WRAP or SAT of a page becomes set; event bit 1 (R407). -/
def setStat (s : State) (f : Fld) : State := if on s f then s else raise (wr s f 1) f.page 1

/-- An event counter counts `n` events (R15, R413): it wraps and sets WRAP. -/
def addCnt (s : State) (f : Fld) (n : Nat) : State :=
  let v := rd s f + n
  let t := wr s f v
  if 2 ^ (f.hi + 1 - f.lo) ≤ v then setStat t (Reg.HDR_PAGE_STAT_WRAP f.page) else t

/-- An event counter counts one event. -/
def incCnt (s : State) (f : Fld) : State := addCnt s f 1

/-- An error counter counts one event (R15): it stays at its largest value and sets SAT. -/
def incErr (s : State) (f : Fld) : State :=
  if rd s f + 1 < 2 ^ (f.hi + 1 - f.lo) then wr s f (rd s f + 1) else setStat s (Reg.HDR_PAGE_STAT_SAT f.page)

/-- Record an error in a page's ERRLOG (R409): the first is kept, later ones set MORE. -/
def errlog (s : State) (p cause : Nat) (m : Master) (ofs : Nat) : State :=
  if on s (Reg.HDR_ERRLOG_VALID p) then wr s (Reg.HDR_ERRLOG_MORE p) 1
  else raise (wrw s (Reg.HDR_ERRLOG p).addr (2 ^ 31 + cause * 2 ^ 20 + mcode m * 2 ^ 16 + ofs % 2 ^ 12)) p 0

/-! ## Memory (R31) -/

/-- What an unlisted byte reads as: 0, but a point nothing has written is stale (R364, R440; log 9). -/
def memDef (a : Nat) : Byte := if 0x30800000 ≤ a ∧ a < 0x30C00000 ∧ a % 4 = 0 then 1 else 0

/-- One byte of on-chip memory. -/
def mget (s : State) (a : Nat) : Byte := tget memDef s.mem a

/-- Write one byte. -/
def mput (s : State) (a : Nat) (b : Byte) : State := { s with mem := tput memDef s.mem a b }

/-- The canonical form of memory. -/
def memWf (m : List Host.Cell) : Bool := twf memDef m

/-- `n` bytes, lowest address first. -/
def mread (s : State) (a n : Nat) : List Byte := (List.range n).map (fun i => mget s (a + i))

/-- Write bytes from `a` up. -/
def mwrite (s : State) (a : Nat) : List Byte → State
  | [] => s
  | b :: r => mwrite (mput s a b) (a + 1) r

/-- A little-endian number of `n` bytes (R11). -/
def mnum (s : State) (a n : Nat) : Nat := leNat (mread s a n)

/-- Write a little-endian number of `n` bytes (R11). -/
def msetNum (s : State) (a n v : Nat) : State := mwrite s a (leBytes n v)

/-- Internal address of a point's value (R31). -/
def ptAddr (a : Nat) : Nat := 0x30000000 + 8 * (a % 2 ^ 20)
/-- Internal address of a point's descriptor (R31). -/
def pdAddr (a : Nat) : Nat := 0x30800000 + 4 * (a % 2 ^ 20)
/-- Internal address of a byte of the cistern (R31). -/
def cistAddr (b : Nat) : Nat := 0x20000000 + b % 2 ^ 23
/-- Internal address of a byte of the cluster memory of cluster `c` (R31). -/
def clmAddr (c b : Nat) : Nat := 0x50000000 + c * 0x40000 + b % 0x40000
/-- Internal address of a byte of the local memory of engine `e` (R31). -/
def leAddr (e b : Nat) : Nat := 0x60000000 + e * 0x8000 + b
/-- Internal address of a byte of port `n`'s buffer (R31). -/
def pbufAddr (n b : Nat) : Nat := 0x12000000 + n * 0x8000 + b % 0x8000
/-- Internal address of a byte of retention RAM (R31). -/
def retAddr (b : Nat) : Nat := 0x10000000 + b % 0x1000

/-- Point address of segment, position, channel and point (R5). -/
def pt (seg pos ch p : Nat) : Nat := seg * 32768 + pos * 512 + ch * 32 + p

/-- Pair roles (R245). -/
def rALONE : Nat := 0
/-- JOINING (R245). -/
def rJOINING : Nat := 1
/-- STANDBY (R245). -/
def rSTANDBY : Nat := 2
/-- DETACHED (R245). -/
def rDETACHED : Nat := 3
/-- ACTIVE (R245). -/
def rACTIVE : Nat := 4
/-- RELINQUISHED (R245). -/
def rRELINQUISHED : Nat := 5
/-- TESTING (R245). -/
def rTESTING : Nat := 6
/-- FAULTED (R245). -/
def rFAULTED : Nat := 7

/-- The unit's pair role. -/
def role (s : State) : Nat := rd s Reg.PEER_STAT_ROLE

/-- The unit is a member of a pair (R8, R245). -/
def paired (s : State) : Bool := role s != rALONE

/-- A point's value (R8: outside a pair, segment 29 reads as zero). -/
def ptVal (s : State) (a : Nat) : Nat := if a / 32768 % 32 = 29 ∧ ¬ paired s then 0 else mnum s (ptAddr a) 8

/-- A point's stale flag (R440; R8: outside a pair, segment 29 reads as stale). -/
def ptStale (s : State) (a : Nat) : Bool := (a / 32768 % 32 == 29 && !paired s) || (mget s (pdAddr a)).toNat % 2 == 1

/-- Set a point's stale flag (R440). -/
def setStale (s : State) (a : Nat) (st : Bool) : State := mput s (pdAddr a) (BitVec.ofNat 8 (b2n st))

/-- A block delivers a point's value together with its stale flag (R440); outside a pair, a write to segment 29 is discarded (R8). -/
def wrPt (s : State) (a v : Nat) (st : Bool) : State :=
  if a / 32768 % 32 = 29 ∧ ¬ paired s then s else setStale (msetNum s (ptAddr a) 8 v) a st

/-! ## The sump (R28, R414 to R416) -/

/-- The RTC as a time count: seconds × 10^9 plus floor(SUB × 10^9 / 32,768) (R414). -/
def rtcCount (s : State) : Nat :=
  (rd s Reg.AO_RTC_SEC_LO + 2 ^ 32 * rd s Reg.AO_RTC_SEC_HI_SEC) * 10 ^ 9 + rd s Reg.AO_RTC_SUB_SUB * 10 ^ 9 / 32768

/-- The time count: network time in ns as an unsigned 64-bit value (R216). -/
def timeCount (s : State) : Nat := s.time.ns % 2 ^ 64

/-- The time a sump entry carries (R28, R414). -/
def stampNow (s : State) : Nat := if domOn s dNET then timeCount s else rtcCount s

/-- The 16 bytes of a sump entry (R414). -/
def sumpBytes (s : State) (code source detail : Nat) : List Byte :=
  leBytes 8 (stampNow s) ++
  leBytes 4 (code + source * 2 ^ 16 + b2n (!domOn s dNET) * 2 ^ 19 + b2n (decide (source ≤ 2)) * 2 ^ 20) ++ leBytes 4 detail

/-- Copy an entry to the retention tail (R416). -/
def tailCopy (s : State) (e : List Byte) : State :=
  let i := rd s Reg.SUMP_TAIL_WPTR_INDEX
  wr (mwrite s (retAddr (0x200 + 16 * i)) e) Reg.SUMP_TAIL_WPTR_INDEX (i + 1)

/-- Post an entry to the sump (R415). -/
def post (s : State) (code source detail : Nat) : State :=
  if domOn s dSTEWARD then
    let e := sumpBytes s code source detail
    let w := rd s Reg.SUMP_WPTR_INDEX
    let u := rd s Reg.SUMP_RPTR_UNREAD
    let s := wr (mwrite s (0x10010000 + 16 * w) e) Reg.SUMP_WPTR_INDEX (w + 1)
    let s := if u < 4096 then wr s Reg.SUMP_RPTR_UNREAD (u + 1)
      else incErr (wr s Reg.SUMP_RPTR_INDEX (rd s Reg.SUMP_RPTR_INDEX + 1)) Reg.SUMP_LOST_ERR_LOST_ERR
    let s := raise (incCnt s Reg.SUMP_POST_CNT) 4 4
    if source ≤ 2 then raise (tailCopy s e) 4 5 else s
  else s

/-- An entry that its chapter logs without naming its code: code and detail are free values (R417; log 2). -/
def postOther (s : State) (source : Nat) : State :=
  let f := free s
  let g := free f.2
  post g.2 (f.1 % 2 ^ 16) source (g.1 % 2 ^ 32)

/-- An access of an internal master is refused: it is logged to the sump, kept in its fault register, and answered with a bus error if enabled (R32). -/
def badAccess (s : State) (m : Master) (addr : Nat) : State :=
  let s := post s 0x5005 5 (addr % 2 ^ 28 + mcode m * 2 ^ 28)
  let f := tget (fun _ => {}) s.mfault (mcode m)
  let s := { s with mfault := tput (fun _ => {}) s.mfault (mcode m) { f with valid := true, addr := addr } }
  if f.en then emit s (.busError m) else s

/-- An access to a page or memory that is not reachable is logged: in HOST.ERRLOG for the host, in its fault register for an internal master (R370, R412). DESIGN CHOICE: R409 has no cause for it, and the model takes 7, refused in the present state (log 47). -/
def logUnreachable (s : State) (m : Master) (addr : Nat) : State :=
  if isHostSide m then errlog s 0xB1 7 m addr
  else
    let f := tget (fun _ => {}) s.mfault (mcode m)
    let s := { s with mfault := tput (fun _ => {}) s.mfault (mcode m) { f with valid := true, addr := addr } }
    if f.en then emit s (.busError m) else s

end Sys2Proof.Machine
end

