-- ==== Sys2Proof/Machine/PowerOps.lean ====
section
/-! DEFINITION. Power requests, their checks and the start of a transition (R364 to R370). -/

namespace Sys2Proof.Machine

/-- The domains that a domain needs (R363). -/
def needs (s : State) (d : Nat) : List Nat :=
  if d = dAO then []
  else if d = dFIELD ∨ d = dSAFEB ∨ d = dSTEWARD then [dAO]
  else if d = dSAFEA ∨ d = dNET ∨ d = dCIST ∨ d = dHOST ∨ d = dAUX then [dSTEWARD]
  else if d = dSDSW ∨ d = dSDSE ∨ d = dLINK then [dNET]
  else if s.localTest.getLsbD (d - 5) then [dSTEWARD] else [dNET]

/-- Level at which a domain counts for those that need it: 0 OFF, 1 RET, 2 ON, the lower of the two in transition (R365). -/
def lowLevel (x : DomSt) : Nat :=
  match x.st with
  | .on => 2 | .ret => 1 | .waking => 1 | .toRet => 1 | _ => 0

/-- Level at which a domain counts as one that needs others, the higher of the two in transition (R365). -/
def highLevel (x : DomSt) : Nat :=
  match x.st with
  | .on => 2 | .ret => 1 | .off => 0 | .waking => 2 | .powerUp => 2 | .toRet => 2 | .toOff => x.org

/-- R365 would hold with domain `d` at level `t`. -/
def depOk (s : State) (d t : Nat) : Bool :=
  (needs s d).all (fun n => t ≤ lowLevel (dom s n)) &&
  (List.range 16).all (fun x => !(needs s x).contains d || highLevel (dom s x) ≤ t)

/-- The code of PWR.STATE (R367). -/
def pstCode : PSt → Nat
  | .off => 0 | .ret => 1 | .on => 2 | .toRet => 3 | .toOff => 4 | .waking => 5 | .powerUp => 6

/-- Level of a settled state, none in transition. -/
def settled : PSt → Option Nat
  | .off => some 0 | .ret => some 1 | .on => some 2 | _ => none

/-- Target level of the transition in progress or awaited, none where there is none. -/
def inProgress (x : DomSt) : Option Nat :=
  match x.leave with
  | some t => some t
  | none =>
    match x.st with
    | .toRet => some 1 | .toOff => some 0 | .waking => some 2 | .powerUp => some 2 | _ => none

/-- The domain is on its way out of ON: a wake that arrives now pays the round trip (R369). -/
def entering (x : DomSt) : Bool := x.leave.isSome || x.st == .toRet || x.st == .toOff

/-- The wake source of a master's request (R369). -/
def srcOf : Master → Nat
  | .steward0 => 2 | .steward1 => 2 | .safetyProc => 3 | _ => 1

/-- The master may not switch the domain (R366, R270). -/
def srcBad (m : Master) (d : Nat) : Bool :=
  d == dAO || d == dSTEWARD || d == dHOST || ((d == dSAFEA || d == dSAFEB) && m != .safetyProc)

/-- Report a request's outcome (R366, R419): RESULT banked by master, and a refusal logged. -/
def pwrResult (s : State) (m : Master) (d code : Nat) : State :=
  let s := bput s m Reg.PWR_RESULT.addr (d * 16 + code)
  if 3 ≤ code then
    raise (incErr (errlog (post s 0x5003 5 (d + code * 16)) 1 7 m 0x40) Reg.PWR_REFUSE_ERR_REFUSE_ERR) 1 5
  else s

/-- Begin a transition to level `t` (R367). -/
def beginTrans (s : State) (d t src : Nat) (round : Bool) : State :=
  let x := dom s d
  let st : PSt := if t = 2 then (if x.st = .ret then .waking else .powerUp) else if t = 1 then .toRet else .toOff
  setDom s d { x with st := st, org := lowLevel x, leave := none, src := src, round := round }

/-- Check a request as it is executed (R366): the RESULT code, 0 where it starts. -/
def reqCode (s : State) (d t : Nat) : Nat :=
  if settled (dom s d).st = some t then 2
  else if (dom s d).st = .off ∧ t = 1 then 4
  else if depOk s d t then 0 else 3

/-- Replace a domain's pending request and show it in PWR.PEND (R368). -/
def setPend (s : State) (d : Nat) (r : Option PReq) : State :=
  let s := setDom s d { dom s d with pend := r }
  wr s Reg.PWR_PEND_DOM (putBit d r.isSome (rd s Reg.PWR_PEND_DOM))

/-- An AUTOWAKE access asks for its domain to be ON (R369, R370); `false` where the wake is refused with DEP. -/
def autoWake (s : State) (d : Nat) : State × Bool :=
  let x := dom s d
  match inProgress x with
  | some 2 => (setPend s d none, true)
  | some _ => (setPend s d (some ⟨.device, 2, 4, true⟩), true)
  | none =>
    let c := reqCode s d 2
    if c = 0 then (pwrResult (beginTrans s d 2 4 false) .device d 0, true) else (pwrResult s .device d c, false)

end Sys2Proof.Machine
end

