-- ==== Sys2Proof/Machine/RegAccess.lean ====
section
/-! DEFINITION. The path of a register access: page map, power domain, AUTOWAKE, and the access types of R12 to R16. -/

namespace Sys2Proof.Machine

/-- The page can be reached: its domain is ON, and the AO and FIO pages also need the bridge (R24, R370). -/
def reachable (s : State) (p : Nat) : Bool :=
  domOn s (pageDom p) && (!(p == 0x02 || p == 0xA0) || domOn s dSTEWARD)

/-- The domain wakes on access (R370): RET, entering RET or waking from RET, with AUTOWAKE of the page set. -/
def wakes (s : State) (d p : Nat) : Bool :=
  ((dom s d).st == .ret || (dom s d).st == .toRet || (dom s d).st == .waking) && on s (Reg.HDR_PAGE_CTRL_AUTOWAKE p)

/-- An access through domain `d` under the AUTOWAKE bit of page `p` is performed, stalled, or refused (R370). -/
def domAccess (s : State) (m : Master) (d p addr : Nat) (a : Access) (f : State → State) : State :=
  if domOn s d then f s
  else if wakes s d p then
    let r := autoWake s d
    if r.2 then { r.1 with stalled := r.1.stalled ++ [⟨d, a⟩] } else answer (logUnreachable r.1 m addr) allOnes
  else answer (logUnreachable s m addr) allOnes

/-- An access to an unmapped page (R412). -/
def unmapped (s : State) (m : Master) (addr : Nat) : State :=
  answer (if isHostSide m then errlog s 0xB1 5 m addr else badAccess s m (0x40000000 + addr)) allOnes

/-- The access is a read. -/
def isRead : Access → Bool
  | .reg _ _ _ .read => true
  | .cist _ _ .read => true
  | .acq _ _ => true
  | _ => false

/-- The diagnostic port gives full access: the debug lock is off, or has been opened by an authenticated unlock (R396). -/
def diagOpen (s : State) : Bool := !on s Reg.SEC_DBG_LOCK || s.boot.unlocked

/-- The diagnostic port may make the access: all of them while it is open, else reads of the SYS, BOOT, TEST, SUMP and SEC pages and BOOT.CMD (R393, R396). -/
def diagMay (s : State) (k : Nat) (a : Access) : Bool :=
  diagOpen s || k == Reg.BOOT_CMD_OP.addr || (isRead a && [0x00, 0x04, 0xD0, 0xD1, 0xD2].contains (k / 0x1000))

/-- An access `a` to the register at key `k`: `f` where the access is performed (R34, R370, R412). One that the locked diagnostic port may not make changes nothing and reads all ones (R396; log 39). -/
def pageAccess (s : State) (m : Master) (k : Nat) (a : Access) (f : State → State) : State :=
  let p := k / 0x1000
  match blkOf p with
  | none => unmapped s m k
  | some _ =>
    if m = .diagPort ∧ ¬ diagMay s k a then answer s allOnes
    else if (p = 0x02 ∨ p = 0xA0) ∧ ¬ domOn s dSTEWARD then answer (logUnreachable s m k) allOnes
    else domAccess s m (pageDom p) p k a f

/-- The bits that a write leaves in a field, and the cause it logs (R12, R13): `locked` for an RWL field. -/
def rowWrite (locked : Bool) (old w : Nat) (r : RegRow) : Nat × Option Nat :=
  let o := bits r.hi r.lo old
  let v := bits r.hi r.lo w
  let isBad := r.bad.any (fun b => b.1 ≤ v && v ≤ b.2)
  match r.acc with
  | .rw => if isBad then (r.rst, some 4) else (v, none)
  | .rwl => if locked then (o, some 3) else if isBad then (r.rst, some 4) else (v, none)
  | .ro => (o, if v = o then none else some 2)
  | .rsv => (o, if v = 0 then none else some 4)
  | .w1c => (o &&& (o ^^^ v), none)
  | .cnt => (o, none)
  | .own => (o, none)
  | .wo => (0, if isBad then some 4 else none)

/-- No field of the register takes a write (R13). -/
def allRo (rows : List RegRow) : Bool := rows.all (fun r => r.acc == .ro || r.acc == .rsv)
/-- Every field of the register that takes a write is RWL. -/
def allRwl (rows : List RegRow) : Bool := rows.all (fun r => r.acc == .rwl || r.acc == .ro || r.acc == .rsv)

/-- The page is locked (R410). -/
def locked (s : State) (p : Nat) : Bool := on s (Reg.HDR_LOCK_LOCKED p)

/-- The new value of a register. -/
def newValue (lk : Bool) (rows : List RegRow) (old w : Nat) : Nat :=
  rows.foldl (fun v r => setBits r.hi r.lo v (rowWrite lk old w r).1) old

/-- The causes that a write logs, each once. -/
def writeCauses (lk : Bool) (rows : List RegRow) (old w : Nat) : List Nat :=
  if rows = [] then [5] else if allRo rows then [2]
  else if lk && allRwl rows && rows.any (fun r => r.acc == .rwl) then [3]
  else (rows.filterMap (fun r => (rowWrite lk old w r).2)).dedup

/-- After a write to a header or the MSI-X table: messages that become due (R333). -/
def afterHeader (before : State) (s : State) (k w : Nat) : State :=
  let p := k / 0x1000
  let o := k % 0x1000
  let v := vecOf p
  if o = 0x28 then (if bitOf 31 w then wrw s k 0 else s)
  else if o = 0x18 then (if vecPending s v then sendVec s v else s)
  else if o = 0x14 ∨ o = 0x08 then (if vecPending s v && !vecPending before v then sendVec s v else s)
  else s

/-- A write to the MSI-X table: an unmasked vector whose PBA bit is set sends its message if it is still pending (R333). -/
def afterMsix (s : State) (k : Nat) : State :=
  let v := (k - 0xB1800) / 16
  if bitOf v (rdw s 0xB1C00) && !bitOf 0 (rdw s (msixKey v 3)) then
    let s := wrw s 0xB1C00 (putBit v false (rdw s 0xB1C00))
    if 16 ≤ v || vecPending s v then sendVec s v else s
  else s

/-- A write of `w` to the plain fields of the register at key `k`: those with no row of their own (R12, R13). -/
def plainWrite (s : State) (m : Master) (k w : Nat) : State :=
  let p := k / 0x1000
  let rows := rowsAt k
  let lk := locked s p
  let t := wrw s k (newValue lk rows (rdw s k) w)
  let t := (writeCauses lk rows (rdw s k) w).foldl (fun t c => errlog t p c m k) t
  if k % 0x1000 < 0x40 then afterHeader s t k w
  else if 0xB1800 ≤ k ∧ k < 0xB1980 then afterMsix t k else t

/-- A command that writes the action register at field `f`'s key: the plain fields of the word, then the action. -/
def regAction (s : State) (m : Master) (k : Nat) (w : W32) (f : State → State) : State :=
  pageAccess s m k (.reg m (BitVec.ofNat 24 k) 4 (.write w)) (fun s => f (plainWrite s m k w.toNat))

/-- Bits of a written word at a field. -/
def wbits (f : Fld) (w : W32) : Nat := bits f.hi f.lo w.toNat

/-- The unit's pair role is one whose host writes to control-plane actions are discarded (R256): STANDBY, JOINING, DETACHED. -/
def roleBars (s : State) (m : Master) : Bool :=
  m == .host && (role s == rJOINING || role s == rSTANDBY || role s == rDETACHED)

end Sys2Proof.Machine
end

