-- ==== Sys2Proof/Machine/Capacity.lean ====
section
/-! DEFINITION. The banks in service, task descriptors, and the capacity checker (R36, R37, R41 to R43, R65, R190 to R193). -/

namespace Sys2Proof.Machine

/-! ## Banks, schedule and descriptors -/

/-- Graph and schedule bank in service (R41, R190). -/
def bank (s : State) : Nat := rd s Reg.CYC_GRAPH_BANK_ACTIVE

/-- A schedule bank is in service. -/
def inService (s : State) : Bool := rd s Reg.LEMAC_SCHED_ACTIVE != 0

/-- Word `i` of schedule bank `b` (R190). -/
def schedWord (s : State) (b i : Nat) : Nat := mnum s (ptAddr (pt 31 (32 + 16 * b) 0 0 + i % 8192)) 8

/-- A slot entry (R192). -/
structure SlotE where
  at_ : Nat
  len : Nat
  kind : Nat
  pos : Nat
  slot : Nat
  map : Nat
  mapn : Nat
  edge : Nat
  edgen : Nat
  spe : Nat
  spn : Nat
  tunnel : Bool
  deriving DecidableEq, Repr

/-- A slot entry from its two words (R192). -/
def slotOf (w0 w1 : Nat) : SlotE :=
  { at_ := bits 21 0 w0, len := bits 35 22 w0, kind := bits 38 36 w0, pos := bits 44 39 w0, slot := bits 60 45 w0,
    map := bits 13 0 w1, mapn := bits 23 14 w1, edge := bits 37 24 w1, edgen := bits 41 38 w1,
    spe := bits 11 0 w1, spn := bits 23 12 w1, tunnel := bitOf 0 w1 }

/-- First word and number of a port's slot entries (R191). -/
def slotTab (s : State) (b p : Nat) : Nat × Nat := let w := schedWord s b (2 + p); (bits 12 0 w, bits 25 13 w)

/-- The slot entries of a port. -/
def slots (s : State) (b p : Nat) : List SlotE :=
  let t := slotTab s b p
  (List.range t.2).map (fun k => slotOf (schedWord s b (t.1 + 2 * k)) (schedWord s b (t.1 + 2 * k + 1)))

/-- Item `i` of a table of 32-bit items that begins at word `f`, the low half of a word first (R191, R193). -/
def item32 (s : State) (b f i : Nat) : Nat := let w := schedWord s b (f + i / 2); if i % 2 = 0 then bits 31 0 w else bits 63 32 w

/-- Map item `i` (R193). -/
def mapItem (s : State) (b i : Nat) : Nat := item32 s b (bits 12 0 (schedWord s b 27)) i

/-- Edge `i` of the edge table (R192). -/
def slotEdge (s : State) (b i : Nat) : Edge := item32 s b (bits 12 0 (schedWord s b 28)) i

/-- The edges of a slot entry. -/
def slotEdges (s : State) (b : Nat) (e : SlotE) : List Edge := (List.range e.edgen).map (fun i => slotEdge s b (e.edge + i))

/-- The word of set-point entry `i` (R193). -/
def spEntry (s : State) (b i : Nat) : Nat := schedWord s b (bits 12 0 (schedWord s b 26) + i)

/-- Number of set-point entries. -/
def spCount (s : State) (b : Nat) : Nat := bits 25 13 (schedWord s b 26)

/-- Word `i` of the descriptor of task `t` in bank `b` (R41, R42). -/
def tdWord (s : State) (b t i : Nat) : Nat := mnum s (clmAddr (t / 2048) (b * 0x20000 + 64 * (t % 2048) + 4 * i)) 4

/-- Home cluster of a task (R41). -/
def home (t : Nat) : Nat := t / 2048 % 4

/-- VALID of a descriptor. -/
def tdValid (s : State) (b t : Nat) : Bool := bitOf 31 (tdWord s b t 0)
/-- PRIO of a descriptor. -/
def tdPrio (s : State) (b t : Nat) : Nat := bits 30 29 (tdWord s b t 0)
/-- PF of a descriptor. -/
def tdPf (s : State) (b t : Nat) : Nat := bits 28 27 (tdWord s b t 0)
/-- Bit `c` of AFFINITY. -/
def tdAff (s : State) (b t c : Nat) : Bool := bitOf (23 + c) (tdWord s b t 0)
/-- LISTARM of a descriptor. -/
def tdListarm (s : State) (b t : Nat) : Bool := bitOf 18 (tdWord s b t 0)
/-- AXIS where the task belongs to an axis. -/
def tdAxis (s : State) (b t : Nat) : Option Nat := let w := tdWord s b t 3; if bitOf 10 w then some (bits 9 0 w) else none
/-- The completion edges of a task, in ascending order. -/
def tdEdges (s : State) (b t : Nat) : List Edge := (List.range (bits 3 0 (tdWord s b t 4))).map (fun i => tdWord s b t (5 + i))

/-- The tasks that are VALID in a bank, in ascending number: read off the bytes that are listed. -/
def validTasks (s : State) (b : Nat) : List Nat :=
  s.mem.filterMap (fun c =>
    let o := (c.1 - 0x50000000) % 0x40000
    if 0x50000000 ≤ c.1 ∧ c.1 < 0x50100000 ∧ o / 0x20000 = b ∧ o % 64 = 3 ∧ 128 ≤ c.2.toNat then
      some ((c.1 - 0x50000000) / 0x40000 * 2048 + o % 0x20000 / 64)
    else none)

/-- The tasks of bank `b` that were homed in a cluster when it went OFF (R444). -/
def goneOf (s : State) (b : Nat) : List GoneTask := s.sched.gone.filter (fun g => g.bank == b)

/-- The completion edges of a task, also where its descriptor has gone with its cluster's memory (R444). -/
def taskEdges (s : State) (b t : Nat) : List Edge :=
  match (goneOf s b).find? (fun g => g.task == t) with
  | some g => g.edges
  | none => tdEdges s b t

/-- The axis of a task, also where its descriptor has gone with its cluster's memory (R444). -/
def taskAxis (s : State) (b t : Nat) : Option Nat :=
  match (goneOf s b).find? (fun g => g.task == t) with
  | some g => g.axis
  | none => tdAxis s b t

/-- The LAUNCH edges of a list, as entry numbers (R43). -/
def launchOf (l : List Edge) : List Nat := l.filterMap (fun w => if bits 31 30 w = 2 then some (bits 11 0 w) else none)

/-- Every port's slot edges in a bank. -/
def allSlotEdges (s : State) (b : Nat) : List Edge := (List.range 24).flatMap (fun p => (slots s b p).flatMap (slotEdges s b))

/-! ## Engines -/

/-- Register field of an engine's WITHDRAW bit (R68). -/
def wdField (e : Nat) : Fld := ⟨(Reg.CLU_WITHDRAW (e / 16)).addr, e % 16, e % 16⟩

/-- An engine. -/
def eng (s : State) (e : Nat) : Engine := tget (fun _ => {}) s.engs e

/-- Set an engine. -/
def setEng (s : State) (e : Nat) (x : Engine) : State := { s with engs := tput (fun _ => {}) s.engs e x }

/-- The engine's WITHDRAW bit is set. -/
def withdrawn (s : State) (e : Nat) : Bool := on s (wdField e)

/-- The engine is a prefetch engine in this cycle (R55). -/
def isPref (s : State) (e : Nat) : Bool := e % 16 < 2 && s.sched.prefMode.getLsbD (e / 16 * 2 + e % 16)

/-- Engines of a cluster. -/
def cluEngs (c : Nat) : List Nat := (List.range 16).map (fun i => c * 16 + i)

/-- Every engine of a cluster is idle or in its fault state (R371). -/
def cluQuiet (s : State) (c : Nat) : Bool := (cluEngs c).all (fun e => (eng s e).ph == .idle || (eng s e).ph == .fault)

/-- An engine is excluded, by BIST or without retest (R392). -/
def engExcluded (s : State) (e : Nat) : Bool :=
  bitOf (e % 32) (if e < 32 then rd s Reg.BOOT_EXCL_LO_ENG else rd s Reg.BOOT_EXCL_HI_ENG) || bitOf (e / 16) (rd s Reg.BOOT_EXCL_MEM_CLU)

/-- N_E: engines that can take tokens (R36). -/
def nEngines (s : State) : Nat :=
  ((List.range 64).filter (fun e => domOn s (dCLU (e / 16)) && !withdrawn s e && !engExcluded s e)).length

/-! ## The capacity checker (R36, R37, R65) -/

/-- The LE clock in MHz: 800, 1,000 in surge until its end is decided, 600 under the conservative plan (R36, R383, R384). -/
def leMHz (s : State) : Nat :=
  if on s Reg.AGE_PLAN_CONS then 600 else if on s Reg.AGE_SURGE_GRANTED && !s.surge.fallAt then 1000 else 800

/-- A member of a pair, formed or not (R243). -/
def inPair (s : State) : Bool := paired s || on s Reg.PEER_CFG_EN

/-- The port stands at the origin end of its line: in a pair the ports of the unit that launches CS, else those at end 0 (R178, R203). -/
def originEnd (s : State) (p : Nat) : Bool := if inPair s then s.lemac.launching else !cfgOn s (Reg.PORT_LINE_END p)

/-- The compute window in ns: from the end of the last receive entry of an origin port to the first set-point launch (R36, R178). -/
def computeWindow (s : State) (b : Nat) : Nat :=
  let es := (List.range 24).flatMap (slots s b)
  let ups := ((List.range 24).filter (originEnd s)).flatMap (slots s b)
  let opens := (ups.filter (fun e => e.kind ≤ 1)).foldl (fun m e => max m (e.at_ + e.len + 96)) 0
  let closes := (es.filter (fun e => e.kind = 2)).foldl (fun m e => min m e.at_) (bits 47 16 (schedWord s b 0))
  closes - opens

/-- The admission sum: COST plus 100 for every task, those of shed axes apart (R37, R65). -/
def admission (s : State) (b : Nat) (shed : List Nat) : Nat :=
  ((validTasks s b).map (fun t =>
    match tdAxis s b t with
    | some a => if shed.contains a then 0 else bits 15 0 (tdWord s b t 2) + 100
    | none => bits 15 0 (tdWord s b t 2) + 100)).sum

/-- The admission sum is at most 0.8 × B (R37). -/
def fits (s : State) (b mhz : Nat) (shed : List Nat) : Bool :=
  admission s b shed * 10000 ≤ nEngines s * mhz * computeWindow s b * 8

/-- SHED_MAP bit of an axis (R65). -/
def shedField (a : Nat) : Fld := ⟨(Reg.CYC_SHED_MAP (a / 32)).addr, a % 32, a % 32⟩

/-- The axes shed, in force or due at the next boundary. -/
def shedAxes (s : State) : List Nat := (List.range 1024).filter (fun a => on s (shedField a))

/-- The axes that have a task in the bank, highest first. -/
def graphAxes (s : State) (b : Nat) : List Nat :=
  ((validTasks s b).filterMap (tdAxis s b)).mergeSort (fun x y => y ≤ x) |>.dedup

/-- Shed axes in descending number until the sum fits; answers the axes shed (R65). -/
def shedUntil (s : State) (b mhz : Nat) : List Nat → List Nat → List Nat
  | _, [] => []
  | shed, a :: r =>
    if fits s b mhz shed then [] else if shed.contains a then shedUntil s b mhz shed r else a :: shedUntil s b mhz (a :: shed) r

/-- Set the role that PEER.STAT reports (R245). -/
def setRole (s : State) (r : Nat) : State := wr s Reg.PEER_STAT_ROLE r

/-- NREADY changes: READY follows it (R245). -/
def showReady (s : State) : State :=
  wr s Reg.PEER_STAT_READY (b2n (role s == rSTANDBY && rdw s Reg.PEER_NREADY.addr == 0))

/-- NREADY.CAPACITY of a standby: it sheds axes that the active does not shed (R268). -/
def showCapacity (s : State) : State :=
  if role s = rSTANDBY then
    showReady (wr s Reg.PEER_NREADY_CAPACITY (b2n ((shedAxes s).any (fun a => !s.pair.peerShed.contains a))))
  else s

/-- Run the capacity checker at `mhz` and shed what no longer fits (R37, R65). -/
def capacityCheck (s : State) (mhz : Nat) : State :=
  if inService s then
    let b := bank s
    let now := shedAxes s
    let gone := shedUntil s b mhz now (graphAxes s b)
    let s := gone.foldl (fun s a => incCnt (wr s (shedField a) 1) Reg.CYC_SHED_CNT) s
    let s := wrs s [(Reg.CYC_CAP_NE_F, mhz), (Reg.CYC_CAP_NE_NE, nEngines s),
      (Reg.CYC_CAP_SUM, admission s b (gone ++ now)), (Reg.CYC_CAP_LIMIT, nEngines s * mhz * computeWindow s b * 8 / 10000)]
    if gone = [] then s else showCapacity (raise (post s 0x3003 3 gone.length) 0x14 4)
  else s

/-- The checker would shed no axis with `n` engines fewer (R398). -/
def fitsWithout (s : State) (n : Nat) : Bool :=
  !inService s ||
    admission s (bank s) (shedAxes s) * 10000 ≤ (nEngines s - n) * leMHz s * computeWindow s (bank s) * 8

end Sys2Proof.Machine
end

