-- ==== Sys2Proof/Machine/PairOps.lean ====
section
/-! DEFINITION. Self-diagnosed faults: relinquish, fail silent, FAULTED (R257, R258), and the end of tests that they bring (R400). -/

namespace Sys2Proof.Machine

/-- The faults of R257, in the order of its table, and the loss of PLL lock (R378); each one's place from 1 is its fault code (log 13). -/
inductive SelfFault where
  | engine | pointStore | bridge | onlineTest | ports | txCut | timeUnit | pll
  deriving DecidableEq, Repr

/-- Fault code of R257 (log 13). -/
def SelfFault.code : SelfFault → Nat
  | .engine => 1 | .pointStore => 2 | .bridge => 3 | .onlineTest => 4 | .ports => 5 | .txCut => 6 | .timeUnit => 7 | .pll => 8

/-- The fault makes an active unit give up even without a READY standby (R257). -/
def SelfFault.grave : SelfFault → Bool
  | .txCut => true | .timeUnit => true | _ => false

/-- Numeric code of a test kind (R404); a re-plan has none. -/
def TestKind.code : TestKind → Nat
  | .engine => 1 | .cistbank => 2 | .scrub => 3 | .eyescan => 4 | .sdscal => 5 | .portloop => 6 | .can => 7 | .encoder => 8
  | .offline => 9 | .replan => 0

/-- TEST.QUEUE shows the queue (R404). -/
def showQueue (s : State) : State :=
  wrs s [(Reg.TEST_QUEUE_RUNNING, (s.tests.filter (fun r => r.running)).length),
         (Reg.TEST_QUEUE_LEVEL, (s.tests.filter (fun r => !r.running)).length)]

/-- A request ends with a status: TEST.LAST and TEST_DONE (R401, R404). -/
def testEnd (s : State) (r : TestReq) (status : Nat) : State :=
  let s := wrs s [(Reg.TEST_LAST_KIND, r.kind.code), (Reg.TEST_LAST_TAG, r.tag), (Reg.TEST_LAST_STATUS, status)]
  let s := raise s 0xD1 4
  if status = 1 then raise s 0xD1 5 else s

/-- An engine under test returns as R398 states: idle, its WITHDRAW bit as before the request; the capacity checker runs where N_E changes (R37). -/
def engineBack (s : State) (r : TestReq) : State :=
  if r.kind = .engine then
    let more := s.tests.any (fun q => q.kind == .engine && q.index == r.index)
    let s := { s with engs := tmod (fun _ => {}) s.engs r.index (fun e => if e.ph = .test then { e with ph := .idle } else e) }
    if more ∨ withdrawn s r.index = r.wasWithdrawn then s
    else let s := wr s (wdField r.index) (b2n r.wasWithdrawn); capacityCheck s (leMHz s)
  else s

/-- Every queued and running test of the given ones ends with ABORTED (R400). -/
def abortTests (s : State) (which : TestReq → Bool) : State :=
  let gone := s.tests.filter which
  let s := { s with tests := s.tests.filter (fun r => !which r) }
  showQueue (gone.foldl (fun s r => testEnd (engineBack s r) r 5) s)

/-! ## The peer link and the ports (R201, R244, R262) -/

/-- The peer link is not lost (R244). -/
def peerUp (s : State) : Bool := on s Reg.PEER_STAT_LANE0 || on s Reg.PEER_STAT_LANE1
/-- Both lanes are up: background traffic flows (R244). -/
def bothLanes (s : State) : Bool := on s Reg.PEER_STAT_LANE0 && on s Reg.PEER_STAT_LANE1

/-- A port beside its page. -/
def port (s : State) (p : Nat) : PortSt := tget (fun _ => {}) s.lemac.ports p
/-- Set a port. -/
def setPort (s : State) (p : Nat) (x : PortSt) : State :=
  { s with lemac := { s.lemac with ports := tput (fun _ => {}) s.lemac.ports p x } }

/-- Relaying ends on every port. -/
def endRelays (s : State) : State :=
  (List.range 24).foldl (fun s p =>
    let s := if on s (Reg.PORT_STAT_RELAY p) then wr s (Reg.PORT_STAT_RELAY p) 0 else s
    if (port s p).relayDue then setPort s p { port s p with relayDue := false } else s) s

/-- Where a unit without a network stands: it listens, or it is halted (R203, R204). -/
def idleState (s : State) : Nat := if on s Reg.LEMAC_PSTATE_PRIME_HALT then 5 else 0

/-- The unit stops launching and integrates anew (R258, R262, R265). -/
def stopLaunch (s : State) : State :=
  wr { s with lemac := { s.lemac with launching := false, integ := none, pcyc := 0 } } Reg.LEMAC_PSTATE_STATE (idleState s)

/-! ## Self-diagnosed faults -/

/-- The bridge refresh is withdrawn (R22). -/
def withdrawRefresh (s : State) : State := { s with bridge := { s.bridge with withdrawn := true, served := false } }

/-- A pending proof swap is cancelled and logged (R266). -/
def cancelSwap (s : State) (cause : Nat) : State :=
  if on s Reg.PEER_STAT_SWAPPEND then post (wr s Reg.PEER_STAT_SWAPPEND 0) 0x2007 2 cause else s

/-- The active gives up its role (R258): transmission stops, RELINQUISH is raised, the refresh is withdrawn, the fault is logged; what it had not mirrored is lost (R259). It ceases to be an origin at the next boundary. -/
def relinquish (s : State) (code : Nat) : State :=
  let s := { s with pair := { s.pair with silent := true, items := [] } }
  let s := withdrawRefresh (emit s .peerRelinquish)
  let s := cancelSwap (setRole (post s 0x2001 2 code) rRELINQUISHED) 3
  abortTests s (fun r => r.kind != .replan)

/-- A unit with no ready standby stops all Lemac transmission and its bridge refresh, and takes role RELINQUISHED (R257). -/
def failSilent (s : State) : State :=
  setRole (withdrawRefresh { s with pair := { s.pair with silent := true, items := [] } }) rRELINQUISHED

/-- A standby that diagnoses a fault in itself signals FAULTED, takes that role, and stops relaying (R257). -/
def takeFaulted (s : State) : State :=
  endRelays (showReady (wr (setRole (emit s .peerFaulted) rFAULTED) Reg.PEER_NREADY_FAULTED 1))

/-! ## Management items (R256) -/

/-- The unit mirrors its control plane: it is active, and the other unit is a standby or joins (R256, R264). -/
def mirrors (s : State) : Bool :=
  role s == rACTIVE && peerUp s && (s.pair.peerRole == rSTANDBY || s.pair.peerRole == rJOINING)

/-- The active keeps management items for its next mirror record (R256). -/
def noteItems (s : State) (l : List MItem) : State :=
  if mirrors s then { s with pair := { s.pair with items := s.pair.items ++ l } } else s

/-- The active keeps a management item for its next mirror record (R256). -/
def noteItem (s : State) (i : MItem) : State := noteItems s [i]

/-- An installation at the active completes only when the standby has done the same (R256). -/
def waitsPeer (s : State) (k : Nat) : Bool := mirrors s && s.pair.peerRole == rSTANDBY && !s.pair.acked.contains k

/-- An installation begins or ends: what the standby has said of the last one no longer counts. -/
def clearAck (s : State) (k : Nat) : State := { s with pair := { s.pair with acked := s.pair.acked.filter (fun i => i != k) } }

/-- A standby tells the active that an installation has ended (R256). -/
def ackPeer (s : State) (k : Nat) : State :=
  if (role s = rSTANDBY ∨ role s = rJOINING) ∧ peerUp s then emit s (.peerDone k) else s

/-- The registers that hold the arguments of the action started by the register at key `k`. -/
def argKeys (k : Nat) : List Nat :=
  let sel := Reg.AXIS_SEL.addr
  let msel := Reg.MOTION_SEL.addr
  if k / 0x1000 = 0x80 then [sel, Reg.AXIS_NOTCHF.addr, Reg.AXIS_NOTCHW.addr]
  else if k = Reg.MOTION_CMD.addr then
    [msel, Reg.MOTION_CMD_AT_LO.addr, Reg.MOTION_CMD_AT_HI.addr, Reg.MOTION_ARG_LO.addr, Reg.MOTION_ARG_HI.addr, Reg.MOTION_SPEED.addr]
  else if k / 0x1000 = 0x81 then [msel]
  else if k = Reg.CYC_COMMIT_AT_LO.addr then [Reg.CYC_COMMIT_AT_HI.addr, Reg.CYC_COMMIT_MASK.addr]
  else if k = Reg.LEMAC_SWAP.addr then [Reg.LEMAC_SWAP_AT_LO_CYCLE.addr, Reg.LEMAC_SWAP_AT_HI_CYCLE.addr]
  else if k = Reg.TIME_STEP_CMD.addr then [Reg.TIME_STEP_LO.addr, Reg.TIME_STEP_HI.addr, Reg.TIME_STEP_AT_LO.addr, Reg.TIME_STEP_AT_HI.addr]
  else []

/-- The management item of a register write (R256). -/
def writeItem (s : State) (k : Nat) (w : W32) : MItem :=
  .write s.sched.cycle (BitVec.ofNat 24 k) w ((argKeys k).map (fun j => (BitVec.ofNat 24 j, BitVec.ofNat 32 (rdw s j))))

/-- A command that writes a register which starts an action of R256: a host write at a standby is discarded and logged; at the active the action leaves the items that `items` gives for the state before and after it. -/
def pairActionWith (s : State) (m : Master) (k : Nat) (w : W32) (items : State → State → List MItem) (f : State → State) : State :=
  pageAccess s m k (.reg m (BitVec.ofNat 24 k) 4 (.write w)) (fun s =>
    if roleBars s m then errlog s (k / 0x1000) 6 m k
    else let s := plainWrite s m k w.toNat; let t := f s; noteItems t (items s t))

/-- An action of R256 that the write itself mirrors. -/
def pairAction (s : State) (m : Master) (k : Nat) (w : W32) (f : State → State) : State :=
  pairActionWith s m k w (fun a _ => [writeItem a k w]) f

/-- An action of R256 that a word starts only where `ok` holds of it. -/
def pairOp (s : State) (m : Master) (k : Nat) (w : W32) (ok : Bool) (f : State → State) : State :=
  pairActionWith s m k w (fun a _ => if ok then [writeItem a k w] else []) (fun s => if ok then f s else s)

/-- A standby is present: its role is STANDBY and a record of it arrived in the previous cycle (R257). -/
def standbyPresent (s : State) : Bool := s.pair.peerRole == rSTANDBY && s.pair.recPrev

/-- The unit diagnoses a fault in itself (R257). -/
def selfFault (s : State) (f : SelfFault) : State :=
  if role s = rACTIVE then
    if standbyPresent s && on s Reg.PEER_STAT_PEER_READY then relinquish s f.code
    else if f.grave then (if standbyPresent s then relinquish s f.code else failSilent s)
    else s
  else if role s = rSTANDBY ∨ role s = rJOINING ∨ role s = rTESTING then takeFaulted s
  else if role s = rALONE ∧ f.grave then failSilent s
  else s

end Sys2Proof.Machine
end

