-- ==== Sys2Proof/Machine/SchedOps.lean ====
section
/-! DEFINITION. The scheduler's operations: descriptors, schedule words, edges, tokens, posters, pre-emption and the capacity checker (R36 to R65, R190 to R193). -/

namespace Sys2Proof.Machine

/-! ## Tokens -/

/-- A task's state in the cycle. -/
def task (s : State) (t : Nat) : TaskSt := tget (fun _ => {}) s.sched.tasks t

/-- Set a task's state. -/
def setTask (s : State) (t : Nat) (x : TaskSt) : State :=
  { s with sched := { s.sched with tasks := tput (fun _ => {}) s.sched.tasks t x } }

/-- A well: the tokens of cluster `c` at priority `p`. -/
def well (s : State) (c p : Nat) : List Tok := tget (fun _ => []) s.sched.wells (c * 4 + p)

/-- Set a well; its PEAK follows. -/
def setWell (s : State) (c p : Nat) (l : List Tok) : State :=
  let s := { s with sched := { s.sched with wells := tput (fun _ => []) s.sched.wells (c * 4 + p) l } }
  let f := Reg.CLU_WELL_PEAK c p
  if rd s f < l.length then wr s f l.length else s

/-- The task's flags meet its mask (R44). -/
def flagsMet (s : State) (t : Nat) : Bool :=
  let m := tdWord s (bank s) t 1
  let f := (task s t).flags.toNat
  m == 0 || (if bitOf 19 (tdWord s (bank s) t 0) then f &&& m != 0 else f &&& m == m)

/-- A task that is armed, ready and has no token yet is given one (R44, R45): the state, and whether a token was made. -/
def makeToken (s : State) (t : Nat) : State × Bool :=
  let x := task s t
  if x.armed && !x.made && flagsMet s t then (setTask s t { x with made := true }, true) else (s, false)

/-- Number a new token. -/
def newTok (s : State) (t : Nat) : Tok × State :=
  (⟨t, s.sched.seq, false⟩, { s with sched := { s.sched with seq := s.sched.seq + 1 } })

/-- A cluster's clock gate opens (R35). -/
def openGate (s : State) (c : Nat) : State :=
  { s with sched := { s.sched with gate := s.sched.gate ||| BitVec.ofNat 4 (2 ^ c) } }

/-- Cluster `c` may steal from cluster (c + 1) mod 4 (R53). -/
def mayStealFrom (s : State) (c : Nat) : Bool :=
  cfgOn s (Reg.CLU_CFG_STEAL_EN c) && cfgOn s (Reg.CLU_CFG_LEND_EN ((c + 1) % 4))

/-- A token in a well of cluster `c` opens its gate, and the gate of the cluster that may steal it (R35). -/
def openGates (s : State) (c t : Nat) : State :=
  let s := openGate s c
  let n := (c + 3) % 4
  if mayStealFrom s n && tdAff s (bank s) t n then openGate s n else s

/-- An engine that may take a token now: idle, not a prefetch engine, not withdrawn. -/
def isFree (s : State) (e : Nat) : Bool := (eng s e).ph == .idle && (eng s e).resume.isNone && !isPref s e && !withdrawn s e

/-- The engine to pre-empt: the lowest-numbered one running priority 3, else priority 2 (R56). -/
def victim (s : State) (c : Nat) : Option Nat :=
  let cand := (cluEngs c).filter (fun e => (eng s e).ph == .running && !isPref s e && (eng s e).resume.isNone)
  match cand.find? (fun e => (eng s e).prio == 3) with
  | some e => some e
  | none => cand.find? (fun e => (eng s e).prio == 2)

/-- While a priority-0 token waits and no engine of the cluster is idle, the cluster pre-empts one engine (R56). -/
def tryPreempt (s : State) (c : Nat) : State :=
  if (cluEngs c).any (isFree s) then s
  else
    match (well s c 0).find? (fun k => !k.pre), victim s c with
    | some k, some e =>
      let s := setWell s c 0 ((well s c 0).filter (fun x => x.seq != k.seq))
      let s := setEng s e { eng s e with ph := .saving, reserved := some { k with pre := true } }
      incCnt s (Reg.CLU_PREEMPT_CNT c)
    | _, _ => s

/-- Place the token of task `t` (R52, R444): `loc` is the engine that fired a LOCAL edge. None where its well or prefetch queue is full. -/
def placeTok (s : State) (t : Nat) (loc : Option Nat) : Option State :=
  let c := home t
  let b := bank s
  let pf := tdPf s b t
  if !s.sched.part.getLsbD c then some (incCnt s Reg.CYC_FLUSH_CNT)
  else if 2 ≤ pf then
    let e := c * 16 + (pf - 2)
    if (eng s e).pq.length < 32 then
      let k := newTok s t
      some (openGate (setEng k.2 e { eng k.2 e with pq := (eng k.2 e).pq ++ [k.1] }) c)
    else none
  else
    match loc with
    | some e =>
      if e / 16 = c ∧ ¬ isPref s e ∧ (eng s e).lq.length < 4 then
        let k := newTok s t
        some (openGate (setEng k.2 e { eng k.2 e with lq := (eng k.2 e).lq ++ [k.1] }) c)
      else placeWell s b t c
    | none => placeWell s b t c
where
  /-- The tail of the home well at the task's priority. -/
  placeWell (s : State) (b t c : Nat) : Option State :=
    let p := tdPrio s b t
    if (well s c p).length < 512 then
      let k := newTok s t
      let s := openGates (setWell k.2 c p (well k.2 c p ++ [k.1])) c t
      some (if p = 0 then tryPreempt s c else s)
    else none

/-! ## Edges and posters (R43 to R50, R60) -/

/-- The task's axis is shed: its LAUNCH edges are ignored (R65). -/
def axisShed (s : State) (t : Nat) : Bool :=
  match tdAxis s (bank s) t with
  | some a => s.sched.shed.contains a
  | none => false

/-- Post a flag to a task (R44, R46, R50): the state, and the task where a token was made. -/
def postFlag (s : State) (t f : Nat) : State × Option Nat :=
  let x := task s t
  if x.armed then
    let r := makeToken (setTask s t { x with flags := x.flags ||| BitVec.ofNat 32 (2 ^ f) }) t
    (r.1, if r.2 then some t else none)
  else (s, none)

/-- Fire one completion edge (R43, R46, R47, R62): the state, and the task where a token was made. -/
def fireEdge (s : State) (src : Option Nat) (w : Edge) : State × Option Nat :=
  let t := bits 12 0 w
  if bits 31 30 w = 0 then
    let x := task s t
    if !x.armed then (s, none)
    else if x.ctr = 0 then (incErr s Reg.CYC_UNDERFLOW_ERR_UNDERFLOW_ERR, none)
    else if x.ctr = 1 then postFlag (setTask s t { x with ctr := 0 }) t 0
    else (setTask s t { x with ctr := x.ctr - 1 }, none)
  else if bits 31 30 w = 1 then postFlag s t (bits 28 24 w)
  else
    let e := bits 11 0 w
    match src with
    | some k =>
      if axisShed s k then (s, none)
      else ({ s with sched := { s.sched with
                entries := tmod (fun _ => 0) s.sched.entries e (fun n => n - 1), launched := s.sched.launched ++ [(k, e)] } }, none)
    | none => ({ s with sched := { s.sched with entries := tmod (fun _ => 0) s.sched.entries e (fun n => n - 1) } }, none)

/-- A poster stalls at a full well or prefetch queue of the token's home cluster (R60). -/
def countStall (s : State) (t : Nat) : State := incCnt s (Reg.CLU_FULL_CNT (home t))

/-- Fire the edges of an item until one of its tokens finds no room: the state, and what is left where it stalls. -/
def runEdges (s : State) (src eng : Option Nat) : List Edge → State × Option PostItem
  | [] => (s, none)
  | w :: r =>
    let f := fireEdge s src w
    match f.2 with
    | none => runEdges f.1 src eng r
    | some t =>
      match placeTok f.1 t (if bitOf 29 w then eng else none) with
      | some s => runEdges s src eng r
      | none => (countStall f.1 t, some { hold := some t, src := src, edges := r, eng := eng })

/-- Run an item: first the token it holds or re-posts, then its edges. -/
def runItem (s : State) (i : PostItem) : State × Option PostItem :=
  match i.hold.or i.repost with
  | some t =>
    match placeTok s t none with
    | some s => runEdges s i.src i.eng i.edges
    | none => (if i.hold.isNone then countStall s t else s, some { i with hold := some t, repost := none })
  | none => runEdges s i.src i.eng i.edges

/-- What a poster still holds. -/
def poster (s : State) (w : Nat) : List PostItem := tget (fun _ => []) s.sched.posters w

/-- Set what a poster still holds. -/
def setPoster (s : State) (w : Nat) (l : List PostItem) : State :=
  { s with sched := { s.sched with posters := tput (fun _ => []) s.sched.posters w l } }

/-- Serve a poster's items in order until one stalls. -/
def drainItems (s : State) : List PostItem → State × List PostItem
  | [] => (s, [])
  | i :: r =>
    let f := runItem s i
    match f.2 with
    | none => drainItems f.1 r
    | some j => (f.1, j :: r)

/-- Number of the completion unit among the posters. -/
def pCompletion : Nat := 4

/-- An engine that waits at its DONE or YIELD goes on (R48, R60). -/
def releaseEng (s : State) (e : Nat) : State :=
  if (eng s e).ph = .atDone ∨ (eng s e).ph = .atYield then setEng s e { eng s e with ph := .idle } else s

/-- Serve a stalled poster; once the completion unit is no longer stalled, the engines that wait for it go on (R60). -/
def drain (s : State) (w : Nat) : State :=
  let r := drainItems s (poster s w)
  let s := setPoster r.1 w r.2
  if w = pCompletion ∧ r.2 = [] then (s.engs.map (fun e => e.1)).foldl releaseEng s else s

/-- Give a poster an item: it runs at once unless the poster is stalled (R60). -/
def postItem (s : State) (w : Nat) (i : PostItem) : State := drain (setPoster s w (poster s w ++ [i])) w

/-- Number of a port's receive engine among the posters. -/
def pReceive (p : Nat) : Nat := 5 + p

/-- A receive engine, or the logic of an encoder or pair instant, fires edges with no task. -/
def fireEdges (s : State) (w : Nat) (l : List Edge) : State := if l = [] then s else postItem s w { edges := l }

/-- Edges held in registers: 0 is no edge (R43). -/
def realEdges (l : List Nat) : List Edge := l.filter (fun w => w != 0)

/-! ## Engine faults (R107) -/

/-- The causes of R107. -/
inductive EngCause where
  | illegal | imemEcc | xymemEcc | clmemEcc | clmemRange | stack | loop | pcRange | lockup | dma | cistDown
  deriving DecidableEq, Repr

/-- Cause code (R107). -/
def EngCause.code : EngCause → Nat
  | .illegal => 1 | .imemEcc => 2 | .xymemEcc => 3 | .clmemEcc => 4 | .clmemRange => 5 | .stack => 6 | .loop => 7 | .pcRange => 8
  | .lockup => 9 | .dma => 10 | .cistDown => 11

/-- The cause is a self-diagnosed fault (R107). -/
def EngCause.self : EngCause → Bool
  | .imemEcc => true | .xymemEcc => true | .clmemEcc => true | .lockup => true | .cistDown => true | _ => false

/-- An engine meets a fault of task `t` at bundle `pc` (R107): it has queued no DMA-out for that task, and those of tasks that ended before run on. Entries of one clock enter the sump pair first (R28). -/
def engineFault (s : State) (e t pc : Nat) (c : EngCause) : State :=
  let x := eng s e
  let s := setEng s e { x with ph := .fault, resume := none, reserved := none, stores := [], wrote := [], mid := false,
                               r := x.snap }
  let s := match x.reserved with
    | some k => (placeTok s k.task none).getD s
    | none => s
  let s := wr s (wdField e) 1
  let s := wrs s [(Reg.LE_FAULT_TASK e, t), (Reg.LE_FAULT_PC e, pc), (Reg.LE_FAULT_CAUSE e, c.code)]
  let s := incErr s (Reg.LE_FAULT_ERR_FAULT_ERR e)
  let s := if c.self then selfFault s .engine else s
  let s := post s 0x3005 3 (c.code + e * 32 + t * 2048)
  capacityCheck s (leMHz s)

end Sys2Proof.Machine
end

