-- ==== Sys2Proof/Machine/Flags.lean ====
section
/-! DEFINITION. Rounding, saturation and the condition flags of a loop engine (R70, R88 to R98). -/

namespace Sys2Proof.Machine

/-- `x / 2^s` rounded half to even (R89). -/
def rnd (x : Int) (s : Nat) : Int :=
  if s = 0 then x
  else
    let q := x / 2 ^ s
    let r := x - q * 2 ^ s
    if 2 ^ (s - 1) < r ∨ (r = 2 ^ (s - 1) ∧ q % 2 = 1) then q + 1 else q

/-- Clamp, and whether it clamped (R89). -/
def sat (lo hi x : Int) : Int × Bool := if x < lo then (lo, true) else if hi < x then (hi, true) else (x, false)

/-- Saturation to 24 bits (R89). -/
def sat24 (x : Int) : Int × Bool := sat (-2 ^ 23) (2 ^ 23 - 1) x
/-- Saturation to 32 bits (R89). -/
def sat32 (x : Int) : Int × Bool := sat (-2 ^ 31) (2 ^ 31 - 1) x
/-- Saturation of an exponent (R97). -/
def satX (x : Int) : Int × Bool := sat (-128) 127 x

/-- `x × 2^t`, rounded where `t` is negative. -/
def shiftRnd (x t : Int) : Int := if 0 ≤ t then x * 2 ^ t.toNat else rnd x (-t).toNat

/-- `x` is outside the range of a `w`-bit two's-complement number. -/
def ovf (w : Nat) (x : Int) : Bool := x < -2 ^ (w - 1) || 2 ^ (w - 1) ≤ x

/-- Bit length of a natural number. -/
def bitLen (n : Nat) : Nat := if n = 0 then 0 else Nat.log2 n + 1

/-- Flag numbers in CC (R70). -/
def ccN : Nat := 0
/-- Z. -/
def ccZ : Nat := 1
/-- V. -/
def ccV : Nat := 2
/-- SAT. -/
def ccSAT : Nat := 3
/-- AOV. -/
def ccAOV : Nat := 4
/-- INV. -/
def ccINV : Nat := 5
/-- STALE. -/
def ccSTALE : Nat := 6

/-- A condition flag. -/
def cc (r : LeRegs) (i : Nat) : Bool := r.cc.getLsbD i

/-- Set or clear a condition flag. -/
def setCc (r : LeRegs) (i : Nat) (b : Bool) : LeRegs := { r with cc := BitVec.ofNat 7 (putBit i b r.cc.toNat) }

/-- Set a sticky condition flag where `b` holds (R70). -/
def stick (r : LeRegs) (i : Nat) (b : Bool) : LeRegs := if b then setCc r i true else r

/-- The conditions of a branch (R85); codes 13–31 are reserved. -/
def condHolds (r : LeRegs) (c : Nat) : Bool :=
  match c with
  | 0 => true
  | 1 => cc r ccZ | 2 => !cc r ccZ
  | 3 => cc r ccN | 4 => !cc r ccN
  | 5 => cc r ccV | 6 => !cc r ccV
  | 7 => cc r ccSAT | 8 => !cc r ccSAT
  | 9 => cc r ccSTALE | 10 => !cc r ccSTALE
  | 11 => !cc r ccN && !cc r ccZ
  | 12 => cc r ccN || cc r ccZ
  | _ => false

/-- The shift that NORM chooses for a stage: the largest k from −9 to 22 for which every result is at most 2^23 − 1 in magnitude (R93); `k` counts down from 22. -/
def normShift (ws : List Int) : Nat → Int
  | 0 => -9
  | n + 1 =>
    let k : Int := (n : Int) - 8
    if ws.all (fun w => (shiftRnd w k).natAbs ≤ 2 ^ 23 - 1) then k else normShift ws n

/-- The normalising shift of a stage of words (R93). -/
def normK (ws : List Int) : Int := normShift ws 31

/-- An integer in units of 2^xs as a word and an exponent, and whether it saturated; the exponent is not bounded below (R95). -/
def toBf (g xs : Int) : Int × Int × Bool :=
  if g = 0 then (0, xs, false)
  else
    let b : Int := bitLen g.natAbs
    let m := shiftRnd g (23 - b)
    let r : Int × Int := if m.natAbs = 2 ^ 23 then (m / 2, xs + b + 1) else (m, xs + b)
    if 127 < r.2 then ((if 0 < g then 2 ^ 23 - 1 else -(2 ^ 23 - 1)), 127, true) else (r.1, r.2, false)

/-- A word at an exponent as IEEE 754 binary32, and whether it saturated (R96, B2F). -/
def toB32 (w x : Int) : W32 × Bool :=
  if w = 0 then (0, false)
  else
    let sg : Nat := if w < 0 then 2 ^ 31 else 0
    let n := w.natAbs
    let b := bitLen n
    let m := (shiftRnd (n : Int) (24 - (b : Int))).toNat
    -- value = m × 2^(b − 24) × 2^(x − 23); a carry makes m = 2^24
    let m' := if m = 2 ^ 24 then 2 ^ 23 else m
    let e : Int := x - 23 + (b : Int) - 1 + (if m = 2 ^ 24 then 1 else 0)
    if 128 ≤ e then (BitVec.ofNat 32 (sg + 0x7F7FFFFF), true)
    else if e < -126 then (0, false)
    else (BitVec.ofNat 32 (sg + (e + 127).toNat * 2 ^ 23 + (m' - 2 ^ 23)), false)

/-- What F2B makes of a binary32 word (R96): the word, the exponent where it changes, SAT and INV. -/
def ofB32 (f : W32) : Int × Option Int × Bool × Bool :=
  let n := f.toNat
  let neg := bitOf 31 n
  let e := bits 30 23 n
  let m := bits 22 0 n
  let sg (v : Int) : Int := if neg then -v else v
  if e = 255 then (if m = 0 then (sg (2 ^ 23 - 1), some 127, true, false) else (0, none, false, true))
  else if e = 0 ∧ m = 0 then (0, none, false, false)
  else
    let mant : Int := if e = 0 then (m : Int) else (m : Int) + 2 ^ 23
    let ex : Int := (if e = 0 then -126 else (e : Int) - 127) - 23
    let r := toBf (sg mant) ex
    if r.2.1 < -128 then (rnd r.1 (-128 - r.2.1).toNat, some (-128), true, false) else (r.1, some r.2.1, r.2.2, false)

end Sys2Proof.Machine
end

