-- ==== Sys2Proof/Machine/Binary64.lean ====
section
/-! DEFINITION. Exact rationals, IEEE 754 binary64 rounding, and the tangent, power and arctangent that the stewards and the library evaluate (R121, R122, R133, R155; logs 5 and 6). -/

namespace Sys2Proof.Machine

/-- A rational rounded to the nearest integer, ties to even (R89). -/
def rndRat (q : Rat) : Int :=
  let f := q.num / (q.den : Int)
  let r := 2 * (q.num - f * q.den)
  if (q.den : Int) < r ∨ (r = q.den ∧ f % 2 = 1) then f + 1 else f

/-- 2^t. -/
def pow2 (t : Int) : Rat := if 0 ≤ t then (2 ^ t.toNat : Rat) else 1 / (2 ^ (-t).toNat : Rat)

/-- A rational rounded to the 53-bit significand of IEEE 754 binary64, ties to even; no value of R121 or R155 leaves its exponent range. -/
def b64 (q : Rat) : Rat :=
  if q = 0 then 0
  else
    let a : Rat := if q < 0 then -q else q
    let e0 : Int := (q.num.natAbs.log2 : Int) - (q.den.log2 : Int)
    let e := if pow2 e0 ≤ a then e0 else e0 - 1
    (rndRat (q * pow2 (52 - e)) : Rat) * pow2 (e - 52)

/-! ## Sine and cosine in units of 2^−256 -/

/-- π in units of 2^−256. -/
def piFx : Int := 363771576891766324280234942777729862653393377328392429958772151117938894466185

/-- The rest of a sine or cosine series from `term`, which is followed by terms of degree 2 more: `k` is its degree, `x2` the square of the argument, and the count bounds the series. -/
def trigFx (x2 : Int) : Nat → Int → Int → Int
  | 0, _, _ => 0
  | n + 1, k, term => term + trigFx x2 n (k + 2) (-(term * x2 / 2 ^ 256 / ((k + 1) * (k + 2))))

/-- Cosine. -/
def cosFx (x : Int) : Int := trigFx (x * x / 2 ^ 256) 64 0 (2 ^ 256)
/-- Sine. -/
def sinFx (x : Int) : Int := trigFx (x * x / 2 ^ 256) 64 1 x

/-- tan(π·f0·T) in binary64, with f0 in 0.1 Hz and T in ns (R121). -/
def notchTan (freq t : Nat) : Rat :=
  let x := piFx * (freq * t : Nat) / 10 ^ 10
  b64 ((sinFx x : Rat) / (cosFx x : Rat))

/-- 10^(−1/80) in units of 2^−256. -/
def tenFx : Rat := 112506830474487017317110960928827404806926272895103106327965829146820250780763 / 2 ^ 256

/-- 10^(−D/20) in binary64, with D in 0.25 dB (R121). -/
def notchGain (d : Nat) : Rat := b64 (tenFx ^ d)

/-- The angle of (x, y) with `0 ≤ y` lies above `h` half units of 180°/32,768. -/
def angleAbove (y x : Rat) (h : Nat) : Bool :=
  let p := piFx * h / 65536
  decide (0 < y * (cosFx p : Rat) - x * (sinFx p : Rat))

/-- The nearest number of units to the angle, between `lo` and `lo + 2^n`. -/
def angleUnits (y x : Rat) : Nat → Nat → Nat
  | 0, lo => if angleAbove y x (2 * lo + 1) then lo + 1 else lo
  | n + 1, lo => angleUnits y x n (if angleAbove y x (2 * (lo + 2 ^ n) - 1) then lo + 2 ^ n else lo)

/-- atan2(y, x) in units of 180°/32,768, rounded to the nearest unit; 0 at the origin (R133; log 6). -/
def atan2 (y x : Rat) : Int :=
  if y = 0 then (if 0 ≤ x then 0 else 32768)
  else if 0 < y then angleUnits y x 15 0 else -(angleUnits (-y) x 15 0)

end Sys2Proof.Machine
end

