-- ==== Sys2Proof/Machine/Operands.lean ====
section
/-! DEFINITION. The operands of a loop-engine instruction: registers, pointers, local and cluster memory, and the bundle they stand in (R69 to R83, R99 to R101). -/

namespace Sys2Proof.Machine

/-! ## Registers -/

/-- D register as a signed number. -/
def dI (r : LeRegs) (i : Fin 32) : Int := r.d[i].toInt
/-- D register `i + k`, wrapping past D31 (a range that passes D31 is refused first, R80). -/
def dAt (i : Fin 32) (k : Nat) : Fin 32 := ⟨(i.val + k) % 32, Nat.mod_lt _ (by decide)⟩
/-- Set a D register to a number modulo 2^32. -/
def setD (r : LeRegs) (i : Fin 32) (v : Int) : LeRegs := { r with d := r.d.set i (BitVec.ofInt 32 v) }
/-- Accumulator as a signed number (R90). -/
def acI (r : LeRegs) (k : Fin 4) : Int := r.ac[k].toInt
/-- Set an accumulator to a number modulo 2^72. -/
def setAc (r : LeRegs) (k : Fin 4) (v : Int) : LeRegs := { r with ac := r.ac.set k (BitVec.ofInt 72 v) }
/-- Exponent register as a signed number. -/
def exI (r : LeRegs) (k : Fin 8) : Int := r.ex[k].toInt
/-- Set an exponent register. -/
def setEx (r : LeRegs) (k : Fin 8) (v : Int) : LeRegs := { r with ex := r.ex.set k (BitVec.ofInt 8 v) }
/-- G register as a signed number. -/
def gI (r : LeRegs) (k : Fin 16) : Int := r.g[k].toInt
/-- Set a G register to a number modulo 2^64. -/
def setG (r : LeRegs) (k : Fin 16) (v : Int) : LeRegs := { r with g := r.g.set k (BitVec.ofInt 64 v) }
/-- A 5-bit field as a G-register number (R88, GUN). -/
def gNum (i : Fin 32) : Fin 16 := ⟨i.val % 16, Nat.mod_lt _ (by decide)⟩
/-- A 5-bit field as a pointer number. -/
def pNum (i : Fin 32) : Fin 8 := ⟨i.val % 8, Nat.mod_lt _ (by decide)⟩
/-- The pointer XAp or YAp. -/
def xyPtr (y : Bool) (p : Fin 4) : Fin 8 := ⟨p.val + 4 * b2n y, by cases y <;> simp [b2n] <;> omega⟩
/-- Set a pointer. -/
def setPtr (r : LeRegs) (k : Fin 8) (x : Ptr) : LeRegs := { r with p := r.p.set k x }

/-- Numbers of what a bundle writes, for the double writes of R80: D 0–31, AC 32–35, EX 40–47, G 48–63, the pointers 64–71, and the slots X, Y, M and C from 100. A pointer, with its address, base, length and modifier, is one register (DEDUCED, log 19). -/
def wD (i : Fin 32) : Nat := i.val
/-- Accumulator `k` among what a bundle writes. -/
def wAc (k : Fin 4) : Nat := 32 + k.val
/-- Exponent `k` among what a bundle writes. -/
def wEx (k : Fin 8) : Nat := 40 + k.val
/-- G register `k` among what a bundle writes. -/
def wG (k : Fin 16) : Nat := 48 + k.val
/-- Slot X or Y. -/
def wXY (y : Bool) : Nat := 100 + b2n y
/-- Slot M. -/
def wM : Nat := 102
/-- Slot C. -/
def wC : Nat := 103

/-! ## Pointers (R83) -/

/-- The address `a` wrapped into a pointer's range. -/
def wrapPtr (p : Ptr) (a : Int) : Nat :=
  if p.l = 0 then (a % 1024).toNat
  else ((p.b.toNat : Int) + (a - p.b.toNat) % (p.l.toNat : Int)).toNat % 1024

/-- The word addressed at offset `i`; wrapping A first where it lies outside the range gives the same word. -/
def ptrWord (p : Ptr) (i : Int) : Nat := wrapPtr p (p.a.toNat + i)

/-- The pointer after a post-modify by `d`. -/
def ptrStep (p : Ptr) (d : Int) : Ptr := { p with a := BitVec.ofNat 10 (wrapPtr p (p.a.toNat + d)) }

/-- The post-modify of R82: none, plus the width, minus the width, plus the modifier. -/
def postMod (p : Ptr) (md : Fin 4) (width : Int) : Ptr :=
  match md.val with
  | 0 => p
  | 1 => ptrStep p width
  | 2 => ptrStep p (-width)
  | _ => ptrStep p p.m.toInt

/-! ## Local and cluster memory (R57, R73, R74, R76) -/

/-- The half of XMEM and YMEM of a priority: 1 the upper, 0 the lower (R57). -/
def halfOf (prio : Nat) : Nat := if prio ≤ 1 then 1 else 0

/-- Number of a word among the written bits. -/
def wKey (y : Bool) (half w : Nat) : Nat := (b2n y * 2 + half) * 1024 + w % 1024

/-- Internal address of word `w` of a half of XMEM or YMEM. -/
def xyAddr (e : Nat) (y : Bool) (half w : Nat) : Nat := leAddr e (0x4000 + b2n y * 0x2000 + half * 0x1000 + 4 * (w % 1024))

/-- A word of XMEM or YMEM as the engine's task reads it: 0 where its written bit is clear (R74). -/
def xyRead (s : State) (e : Nat) (y : Bool) (half w : Nat) : Nat :=
  if tget (fun _ => false) (eng s e).wbit (wKey y half w) then mnum s (xyAddr e y half w) 4 else 0

/-- Write a word of XMEM or YMEM and set its written bit (R74). -/
def xyWrite (s : State) (e : Nat) (y : Bool) (half w v : Nat) : State :=
  let s := msetNum s (xyAddr e y half w) 4 v
  setEng s e { eng s e with wbit := tput (fun _ => false) (eng s e).wbit (wKey y half w) true }

/-- The cluster-memory address of LDC, STC, LDCG and STCG, none where it raises CLMEM_RANGE (R76). -/
def clmOf (d : W32) (scale : Nat) (b : Fin 32) : Option Nat :=
  let a := d.toNat + scale * b.val
  if a < 2 ^ 18 then some (a - a % scale) else none

/-! ## The bundle (R79, R80, R99 to R101) -/

/-- What one slot does: the registers after it, what it writes, its stores (by address in the internal space), and a fault. -/
structure Eff where
  r : LeRegs
  dst : List Nat
  stores : List (Nat × List Byte) := []
  fault : Option EngCause := none

/-- A slot that raises a fault and would write `dst`. -/
def Eff.bad (r : LeRegs) (c : EngCause) (dst : List Nat := []) : Eff := { r := r, dst := dst, fault := some c }

/-- A slot that only writes registers. -/
def Eff.regs (r : LeRegs) (dst : List Nat) : Eff := { r := r, dst := dst }

/-- A slot that is refused as illegal where `b` holds (R80). -/
def Eff.unless (b : Bool) (r : LeRegs) (e : Eff) : Eff := if b then .bad r .illegal else e

/-- A list of destinations names one twice. -/
def hasDup : List Nat → Bool
  | [] => false
  | a :: r => r.contains a || hasDup r

/-- The window D16–D31 advances by one place (R101). -/
def rotate (r : LeRegs) : LeRegs :=
  { r with d := Vector.ofFn (fun i : Fin 32 =>
              if i.val < 16 then r.d[i] else if i.val = 16 then r.d[(31 : Fin 32)] else r.d[(⟨i.val - 1, by omega⟩ : Fin 32)]),
           wct := r.wct + 1 }

/-- Where an end bundle stands: the loop that ends there (R99). -/
def loopAt (r : LeRegs) (pc : Nat) : Option (Fin 2) :=
  if r.lc[(0 : Fin 2)].active ∧ r.lc[(0 : Fin 2)].stop = pc then some 0
  else if r.lc[(1 : Fin 2)].active ∧ r.lc[(1 : Fin 2)].stop = pc then some 1 else none

/-- The registers after the bundle at `pc` has issued, with the next PC; 2,048 is past the end of IMEM. -/
def advance (r : LeRegs) (pc : Nat) : LeRegs :=
  match loopAt r pc with
  | some k =>
    let l := r.lc[k]
    let c := l.ctr - 1
    let r := if l.rot then rotate r else r
    if c = 0 then { r with lc := r.lc.set k { l with active := false, ctr := c }, pc := pc + 1 }
    else { r with lc := r.lc.set k { l with ctr := c }, pc := l.start }
  | none => { r with pc := pc + 1 }

/-- A taken branch or RET to `t` ends every loop whose body does not hold `t` (R100). -/
def leaveLoops (r : LeRegs) (t : Nat) : LeRegs :=
  { r with lc := r.lc.map (fun l => { l with active := l.active && decide (l.start ≤ t) && decide (t ≤ l.stop) }) }

/-- Make the stores of a bundle; those to XMEM and YMEM set their written bits. -/
def makeStores (s : State) (e : Nat) : List (Nat × List Byte) → State
  | [] => s
  | (a, l) :: r =>
    let o := a - leAddr e 0
    let s := mwrite s a l
    let s :=
      if leAddr e 0x4000 ≤ a ∧ a < leAddr e 0x8000 then
        let k := wKey (decide (0x6000 ≤ o)) (o / 0x1000 % 2) (o % 0x1000 / 4)
        setEng s e { eng s e with wbit := tput (fun _ => false) (eng s e).wbit k true }
      else s
    makeStores s e r

/-- The engine's registers are settled after a bundle: a sequential fetch past 2,047 raises PC_RANGE (R107). -/
def settle (s : State) (e : Nat) (r : LeRegs) : State :=
  let x := eng s e
  let x := { x with issued := x.issued + 1, mid := false, wrote := [], stores := [] }
  if r.pc < 2048 then setEng s e { x with r := r, snap := r }
  else engineFault (setEng s e { x with r := r, snap := r }) e x.task 2047 .pcRange

/-- The bundle in progress ends: its stores are made, and the PC, loops and window move on. -/
def endBundle (s : State) (e : Nat) : State :=
  let x := eng s e
  let s := makeStores s e x.stores
  settle s e (advance x.r x.snap.pc)

/-- The engine at the start of a bundle: its registers as every slot reads them (R79). -/
def openBundle (x : Engine) : Engine := if x.mid then x else { x with snap := x.r, wrote := [], stores := [], mid := true }

/-- One slot of a four-slot or long-immediate bundle of engine `e`: `op` reads the engine as the bundle found it and changes its registers; `last` ends the bundle. An engine that is not issuing bundles does nothing. -/
def slotOp (s : State) (e : Fin 64) (last : Bool) (op : Engine → Eff) : State :=
  let x := eng s e
  if x.ph = .running then
    let x := openBundle x
    let f := op x
    let x' := { x with issued := x.issued + 1 }
    if hasDup (x.wrote ++ f.dst) then engineFault (setEng s e x') e x.task x.snap.pc .illegal
    else
      match f.fault with
      | some c => engineFault (setEng s e x') e x.task x.snap.pc c
      | none =>
        let s := setEng s e { x with r := f.r, wrote := x.wrote ++ f.dst, stores := x.stores ++ f.stores }
        if last then endBundle s e else s
  else s

/-- A bundle of type 10, which holds one operation: `op` gives the registers with the next PC, or a fault. One that stands at the end of an active loop raises LOOP (R100). -/
def branchOp (s : State) (e : Fin 64) (op : LeRegs → LeRegs × Option EngCause) (after : State → State) : State :=
  let x := eng s e
  if x.ph = .running then
    let x := openBundle x
    let f := op x.r
    let c : Option EngCause :=
      if x.wrote ≠ [] then some .illegal else if f.2 = some .illegal then f.2 else if (loopAt x.r x.r.pc).isSome then some .loop else f.2
    match c with
    | some c => engineFault (setEng s e { x with issued := x.issued + 1 }) e x.task x.r.pc c
    | none => after (settle (setEng s e x) e f.1)
  else s

end Sys2Proof.Machine
end

