-- ==== Sys2Proof/Machine/CistOps.lean ====
section
/-! DEFINITION. The cistern's blocks and the accesses that their floats check (R323 to R326). -/

namespace Sys2Proof.Machine

/-- Owner class of a master: 0 none, 1 host, 2 engines and internal, 3 network DMA (R323). -/
def ownerClass : Master → Nat
  | .host => 1 | .dmaEngine => 1 | .receive => 3 | .transmit => 3 | .diagPort => 0 | .snapshot => 0 | _ => 2

/-- A cistern block. -/
def blk (s : State) (b : Nat) : BlkOwn := tget (fun _ => {}) s.cist b

/-- Set a cistern block. -/
def setBlk (s : State) (b : Nat) (x : BlkOwn) : State := { s with cist := tput (fun _ => {}) s.cist b x }

/-- A block's float. -/
def flt (s : State) (b : Nat) : Nat := (blk s b).flt.toNat

/-- The block lies in the axis parameter area while it is enabled (R110). -/
def inAxisArea (s : State) (b : Nat) : Bool := on s Reg.AXIS_AREA_EN && b / 4096 == rd s Reg.AXIS_AREA_SLICE

/-- A float becomes `new`, with the previous owner recorded; a free block is never PRIVATE (R324). -/
def setFloat (s : State) (b new : Nat) (priv : Bool) : State :=
  let x := blk s b
  setBlk s b { x with flt := BitVec.ofNat 2 new, priv := priv && new % 4 != 0, prev := x.flt }

/-- DETAIL of CIST_NOWN and CIST_PRIV (R417): word address and master. -/
def cistDetail (w : Nat) (m : Nat) : Nat := w / 64 + w % 64 * 2 ^ 15 + m * 2 ^ 23

/-- A read of cistern word `w` by a master of class `k` and code `m` (R325). -/
def cistRead (s : State) (k m w : Nat) : Nat × State :=
  let x := blk s (w / 64)
  if x.priv ∧ x.flt.toNat ≠ k then (0, post (incErr s Reg.CIST_PRIV_ERR_COUNT) 0x4002 4 (cistDetail w m))
  else (mnum s (cistAddr (4 * w)) 4, s)

/-- A write of cistern word `w` by a master of class `k` and code `m` (R325): a non-owner's write is discarded, counted and logged. -/
def cistWrite (s : State) (k m w v : Nat) : State :=
  if k ≠ 0 ∧ (blk s (w / 64)).flt.toNat = k then msetNum s (cistAddr (4 * w)) 4 v
  else post (incErr s Reg.CIST_NOWN_ERR_COUNT) 0x4001 4 (cistDetail w m)

/-- Every block of a range has the float `k`. -/
def allFloat (s : State) (b n k : Nat) : Bool := decide (b + n ≤ 32768) && (List.range n).all (fun i => flt s (b + i) == k)

/-- The stewards pass a range of blocks from one owner to another (R443). -/
def passBlocks (s : State) (b n new : Nat) : State := (List.range n).foldl (fun s i => setFloat s (b + i) new false) s

/-- Bytes of the cistern, as a master that owns them reads them. -/
def cistBytes (s : State) (b n : Nat) : List Byte := mread s (cistAddr b) n

end Sys2Proof.Machine
end

