-- ==== Sys2Proof/Machine/ClusterDma.lean ====
section
/-! DEFINITION. The cluster DMA: its lists, what it reads and what it writes (R48, R51, R78, R102, R107, R111, R247). -/

namespace Sys2Proof.Machine

/-- An entry of a cluster DMA list (R51). -/
structure DmaEnt where
  addr : Nat
  last : Bool
  out : Bool
  y : Bool
  off : Nat
  len : Nat
  deriving DecidableEq, Repr

/-- The list of entries at byte offset `o` of the memory of cluster `c`, up to LAST; a DMA-in entry of no valid length also ends it, since the task faults at it before any later entry counts (R51). -/
def dmaList (s : State) (c : Nat) : Nat → Nat → List DmaEnt
  | _, 0 => []
  | o, n + 1 =>
    let w := mnum s (clmAddr c (o + 4)) 4
    let e : DmaEnt := { addr := mnum s (clmAddr c o) 4, last := bitOf 31 w, out := bitOf 30 w, y := bitOf 29 w, off := bits 25 16 w, len := bits 10 0 w }
    if e.last || (!e.out && (e.len == 0 || decide (1024 < e.len))) then [e] else e :: dmaList s c (o + 8) n

/-- The DMA list of task `t` in bank `b` (R42). -/
def taskList (s : State) (b t : Nat) : List DmaEnt := dmaList s (home t) (bits 29 16 (tdWord s b t 3) * 16) 32768

/-- End of the region of R31 in which an address that the cluster DMA reaches starts, none where it reaches nothing. -/
def cdmaRegion (a : Nat) : Option Nat :=
  if 0x20000000 ≤ a ∧ a < 0x20800000 then some 0x20800000
  else if 0x30000000 ≤ a ∧ a < 0x30800000 then some 0x30800000
  else if 0x30800000 ≤ a ∧ a < 0x30C00000 then some 0x30C00000
  else if 0x50000000 ≤ a ∧ a < 0x50100000 then some 0x50100000
  else none

/-- An address in the axis parameter area (R110). -/
def inAreaAddr (s : State) (a : Nat) : Bool := 0x20000000 ≤ a && a < 0x20800000 && inAxisArea s ((a - 0x20000000) / 256)

/-- The fault that an entry raises before any of its words moves (R51, R107, R111, R371). -/
def entFault (s : State) (addr len : Nat) (out : Bool) : Option EngCause :=
  match cdmaRegion addr with
  | none => some .dma
  | some fin =>
    if len = 0 ∨ 1024 < len ∨ addr % 4 ≠ 0 ∨ fin < addr + 4 * len then some .dma
    else if out ∧ 0x30800000 ≤ addr ∧ addr < 0x30C00000 then some .dma
    else if (List.range len).any (fun i => inAreaAddr s (addr + 4 * i)) ∧ (out ∨ addr / 512 ≠ (addr + 4 * len - 1) / 512) then some .dma
    else if addr < 0x20800000 ∧ ¬ domOn s dCIST then some .cistDown
    else none

/-- A point as the cluster DMA of this unit reads it: in a standby, DETACHED ones too, local inputs come from segment 29 (R247, R261). -/
def cdmaMap (s : State) (p : Nat) : Nat :=
  let seg := p / 32768
  let pos := p / 512 % 64
  if role s = rSTANDBY ∨ role s = rDETACHED then
    if seg = 24 ∧ pos < 16 then p % 512 + pt 29 pos 0 0
    else if seg = 25 ∧ pos < 16 then p % 512 + pt 29 (16 + pos) 0 0
    else if seg = 27 ∧ pos < 32 then p % 512 + pt 29 (32 + pos) 0 0
    else p
  else p

/-- The point that a point-value address holds, as the cluster DMA reads it. -/
def cdmaPoint (s : State) (a : Nat) : Nat := cdmaMap s ((a - 0x30000000) / 8)

/-- The word that the cluster DMA of cluster `c` reads at an address (R78, R111, R325, R370); bits [31:1] of a point descriptor are free values (R440; log 2). -/
def cdmaRead (s : State) (c a : Nat) : Nat × State :=
  if 0x30000000 ≤ a ∧ a < 0x30800000 then
    if domOn s dNET then
      let v := ptVal s (cdmaPoint s a)
      (if a % 8 < 4 then v % 2 ^ 32 else v / 2 ^ 32, s)
    else (allOnes, logUnreachable s (.cluDma (Fin.ofNat 4 c)) a)
  else if 0x30800000 ≤ a ∧ a < 0x30C00000 then
    if domOn s dNET then let f := free s; (b2n (ptStale s (cdmaMap s ((a - 0x30800000) / 4))) + f.1 % 2 ^ 31 * 2, f.2) else (allOnes, logUnreachable s (.cluDma (Fin.ofNat 4 c)) a)
  else if a < 0x20800000 then
    let w := (a - 0x20000000) / 4
    if inAreaAddr s a then
      let ax := (a - 0x20000000) % 0x100000 / 1024
      let act := (tget (fun _ => {}) s.axes ax : AxisSt).act
      cistRead s 2 (7 + c) (w - w / 128 % 2 * 128 + b2n act * 128)
    else cistRead s 2 (7 + c) w
  else if domOn s (dCLU ((a - 0x50000000) / 0x40000)) then (mnum s a 4, s)
  else (allOnes, logUnreachable s (.cluDma (Fin.ofNat 4 c)) a)

/-- A write of a point word that the master may make (R7, R8, R190): segment 28 and the schedule banks are protected, segment 29 is discarded outside a pair. -/
def ptGuard (s : State) (m p : Nat) (f : State → State) : State :=
  let seg := p / 32768
  if (seg = 28 ∧ m ≠ 3) ∨ (seg = 31 ∧ 32 ≤ p / 512 % 64 ∧ m ≠ 1 ∧ m ≠ 2) then post s 0x300E 3 (p + m * 2 ^ 20)
  else if seg = 29 ∧ ¬ paired s then s
  else f s

/-- The word that the cluster DMA of cluster `c` writes at an address; a point's stale flag is cleared with its value (R78, R440). -/
def cdmaWrite (s : State) (c a v : Nat) : State :=
  if 0x30000000 ≤ a ∧ a < 0x30800000 then
    if domOn s dNET then
      let p := (a - 0x30000000) / 8
      ptGuard s (7 + c) p (fun s => setStale (msetNum s a 4 v) p false)
    else logUnreachable s (.cluDma (Fin.ofNat 4 c)) a
  else if a < 0x20800000 then cistWrite s 2 (7 + c) ((a - 0x20000000) / 4) v
  else if domOn s (dCLU ((a - 0x50000000) / 0x40000)) then msetNum s a 4 v
  else logUnreachable s (.cluDma (Fin.ofNat 4 c)) a

/-- The words of a list of addresses, read in order. -/
def readWords (s : State) (c : Nat) : List Nat → List Nat × State
  | [] => ([], s)
  | a :: r =>
    let f := cdmaRead s c a
    let g := readWords f.2 c r
    (f.1 :: g.1, g.2)

/-- The addresses of an entry's words. -/
def entAddrs (e : DmaEnt) : List Nat := (List.range e.len).map (fun i => e.addr + 4 * i)

/-- The points whose value words a list of addresses transfers, each once, in order (R78). -/
def ptsOf (l : List Nat) : List Nat :=
  ((l.filter (fun a => 0x30000000 ≤ a && a < 0x30800000)).map (fun a => (a - 0x30000000) / 8)).reverse.dedup.reverse

/-- The stale vector of a list of flags (R78). -/
def stvOf (l : List Bool) : Nat :=
  ((List.range 63).map (fun i => b2n (l.getD i false) * 2 ^ i)).sum + b2n ((l.drop 63).any id) * 2 ^ 63

/-- The stale flag of a point as the cluster DMA delivers it (R440). -/
def cdmaStale (s : State) (p : Nat) : Bool := !domOn s dNET || ptStale s (cdmaPoint s (ptAddr p))

/-- The entries of a DMA-in up to the first that faults, and its fault. -/
def inEntries (s : State) : List DmaEnt → List DmaEnt × Option EngCause
  | [] => ([], none)
  | e :: r =>
    if e.out then inEntries s r
    else
      match entFault s e.addr e.len false with
      | some c => ([], some c)
      | none => let f := inEntries s r; (e :: f.1, f.2)

/-- Put the words of a DMA-in into the engine's half, setting their written bits (R57, R74). -/
def placeWords (s : State) (e half : Nat) : List DmaEnt → List Nat → State
  | [], _ => s
  | d :: r, ws =>
    let s := ((List.range d.len).zip ws).foldl (fun s iw => xyWrite s e d.y half (d.off + iw.1) iw.2) s
    placeWords s e half r (ws.drop d.len)

/-- Clear the written bits of a half of both memories (R74). -/
def clearHalf (s : State) (e half : Nat) : State :=
  let keep := (eng s e).wbit.filter (fun k => k.1 / 1024 % 2 != half)
  setEng s e { eng s e with wbit := keep }

/-- The words and points of a DMA-in as they stand, for a prefetch slot (R55). -/
def peekIn (s : State) (b t c : Nat) : List Nat × List (Nat × Bool) :=
  let addrs := ((inEntries s (taskList s b t)).1.flatMap entAddrs).take 64
  ((readWords s c addrs).1, (ptsOf addrs).map (fun p => (p, cdmaStale s p)))

/-- The DMA-out of an ending task: each entry with the words it reads from the engine's half (R48, R75). -/
def outWrites (s : State) (e half b t : Nat) : List (Nat × Nat × List Nat) :=
  ((taskList s b t).filter (fun d => d.out)).map (fun d =>
    (d.addr, d.len, (List.range d.len).map (fun i => xyRead s e d.y half (d.off + i))))

/-- Carry out a DMA-out, entry by entry, up to the first that faults. -/
def doWrites (s : State) (c : Nat) : List (Nat × Nat × List Nat) → State × Option EngCause
  | [] => (s, none)
  | (a, n, ws) :: r =>
    match entFault s a n true with
    | some f => (s, some f)
    | none => doWrites (((List.range n).zip ws).foldl (fun s iw => cdmaWrite s c (a + 4 * iw.1) iw.2) s) c r

end Sys2Proof.Machine
end

