-- ==== Sys2Proof/Machine/LeMem.lean ====
section
/-! DEFINITION. Loop-engine instructions: NOP, the X and Y slots and the long immediates (R81 to R84). -/

namespace Sys2Proof.Machine

/-- The half that the engine's task addresses (R73). -/
def engHalf (x : Engine) : Nat := halfOf x.prio

/-- A pointer after the post-modify of an X or Y slot. Without a post-modify the pointer is not written: an A outside the range stays as it is, and is wrapped where it is used (DESIGN CHOICE, log 19: R83 does not say whether the wrapped A is stored). -/
def modPtr (x : Engine) (k : Fin 8) (md : Fin 4) (width : Int) : LeRegs :=
  if md = 0 then x.r else setPtr x.r k { x.r.p[k] with a := (postMod x.snap.p[k] md width).a }

/-- What the post-modify of an X or Y slot writes. -/
def modDst (k : Fin 8) (md : Fin 4) : List Nat := if md = 0 then [] else [64 + k.val]

/-- NOP: a slot of zeros has no effect; a slot with other bits that names no operation is illegal (R80, R81). -/
def execNop (e : Fin 64) (slot : BitVec 64) (last : Bool) (s : State) : Host.Outcome State Fault Refusal :=
  .next (slotOp s e last (fun x => .unless (slot != 0) x.r (.regs x.r [])))

/-- LD: Dn ← the word at A (R82). -/
def execLd (e : Fin 64) (y : Bool) (p : Fin 4) (dn : Fin 32) (md : Fin 4) (last : Bool) (s : State) : Host.Outcome State Fault Refusal :=
  .next (slotOp s e last (fun x =>
    let k := xyPtr y p
    let v := xyRead s e y (engHalf x) (ptrWord x.snap.p[k] 0)
    .regs (setD (modPtr x k md 1) dn v) ([wXY y, wD dn] ++ modDst k md)))

/-- LD2: Dn and Dn+1 ← the words at A and A + 1 (R82). -/
def execLd2 (e : Fin 64) (y : Bool) (p : Fin 4) (dn : Fin 32) (md : Fin 4) (last : Bool) (s : State) : Host.Outcome State Fault Refusal :=
  .next (slotOp s e last (fun x =>
    let k := xyPtr y p
    let v := xyRead s e y (engHalf x) (ptrWord x.snap.p[k] 0)
    let w := xyRead s e y (engHalf x) (ptrWord x.snap.p[k] 1)
    .unless (dn == 31) x.r (.regs (setD (setD (modPtr x k md 2) dn v) (dAt dn 1) w) ([wXY y, wD dn, wD (dAt dn 1)] ++ modDst k md))))

/-- ST: the word at A ← Dn (R82). -/
def execSt (e : Fin 64) (y : Bool) (p : Fin 4) (dn : Fin 32) (md : Fin 4) (last : Bool) (s : State) : Host.Outcome State Fault Refusal :=
  .next (slotOp s e last (fun x =>
    let k := xyPtr y p
    { r := modPtr x k md 1, dst := wXY y :: modDst k md,
      stores := [(xyAddr e y (engHalf x) (ptrWord x.snap.p[k] 0), leBytes 4 x.snap.d[dn].toNat)] }))

/-- ST2: the words at A and A + 1 ← Dn and Dn+1 (R82). -/
def execSt2 (e : Fin 64) (y : Bool) (p : Fin 4) (dn : Fin 32) (md : Fin 4) (last : Bool) (s : State) : Host.Outcome State Fault Refusal :=
  .next (slotOp s e last (fun x =>
    let k := xyPtr y p
    .unless (dn == 31) x.r
      { r := modPtr x k md 2, dst := wXY y :: modDst k md,
        stores := [(xyAddr e y (engHalf x) (ptrWord x.snap.p[k] 0), leBytes 4 x.snap.d[dn].toNat),
                   (xyAddr e y (engHalf x) (ptrWord x.snap.p[k] 1), leBytes 4 x.snap.d[dAt dn 1].toNat)] }))

/-- A long-immediate bundle: it holds no other slot (R84). -/
def liOp (s : State) (e : Fin 64) (op : LeRegs → Eff) : State :=
  slotOp s e true (fun x => let f := op x.r; { f with dst := f.dst ++ [wXY false, wXY true, wM, wC] })

/-- LID: Dr ← imm (R84). -/
def execLid (e : Fin 64) (r : Fin 32) (imm : W32) (s : State) : Host.Outcome State Fault Refusal :=
  .next (liOp s e (fun q => .regs (setD q r imm.toNat) []))

/-- LIG: Gr ← imm sign-extended (R84). -/
def execLig (e : Fin 64) (r : Fin 32) (imm : W32) (s : State) : Host.Outcome State Fault Refusal :=
  .next (liOp s e (fun q => .unless (decide (15 < r.val)) q (.regs (setG q (gNum r) imm.toInt) [])))

/-- LIGH: the high half of Gr ← imm (R84). -/
def execLigh (e : Fin 64) (r : Fin 32) (imm : W32) (s : State) : Host.Outcome State Fault Refusal :=
  .next (liOp s e (fun q =>
    .unless (decide (15 < r.val)) q (.regs (setG q (gNum r) (imm.toNat * 2 ^ 32 + q.g[gNum r].toNat % 2 ^ 32 : Nat)) [])))

/-- LIP: a pointer ← address and base, length and modifier of the immediate (R84). -/
def execLip (e : Fin 64) (p : Fin 32) (imm : W32) (s : State) : Host.Outcome State Fault Refusal :=
  .next (liOp s e (fun q =>
    let n := imm.toNat
    .unless (decide (7 < p.val) || decide (1024 < bits 21 11 n) || bits 10 10 n != 0 || bits 23 22 n != 0) q
      (.regs (setPtr q (pNum p) { a := BitVec.ofNat 10 n, b := BitVec.ofNat 10 n, l := BitVec.ofNat 11 (bits 21 11 n), m := BitVec.ofNat 8 (bits 31 24 n) }) [])))

/-- LIX: EXr ← imm[7:0] (R84). -/
def execLix (e : Fin 64) (r : Fin 32) (imm : W32) (s : State) : Host.Outcome State Fault Refusal :=
  .next (liOp s e (fun q => .unless (decide (7 < r.val) || bits 31 8 imm.toNat != 0) q (.regs (setEx q (pNum r) (imm.toNat % 256 : Nat)) [])))

end Sys2Proof.Machine
end

