-- ==== Sys2Proof/Machine/LeMul.lean ====
section
/-! DEFINITION. Loop-engine instructions of the M slot (R86, R87, R90, R92). -/

namespace Sys2Proof.Machine

/-- A word as a multiplier takes it, and whether it saturated (R90). -/
def mulIn (x : Engine) (i : Fin 32) : Int × Bool := sat24 (dI x.snap i)

/-- A sum written to an accumulator modulo 2^72, with AOV where it wraps (R90). -/
def acPut (r : LeRegs) (k : Fin 4) (v : Int) : LeRegs := stick (setAc r k v) ccAOV (ovf 72 v)

/-- The operands of the four products of a MODE (R86). -/
def mulPairs (mode : Fin 4) (dx dy : Fin 32) : List (Fin 32 × Fin 32) :=
  match mode.val with
  | 0 => [(dx, dy), (dx, dAt dy 1), (dx, dAt dy 2), (dx, dAt dy 3)]
  | 1 => [(dx, dy), (dAt dx 1, dy), (dAt dx 2, dy), (dAt dx 3, dy)]
  | _ => [(dx, dy), (dx, dAt dy 1), (dAt dx 1, dy), (dAt dx 1, dAt dy 1)]

/-- A MODE that is reserved, or whose register range passes D31 (R80, R86). -/
def mulIllegal (mode : Fin 4) (dx dy : Fin 32) : Bool :=
  match mode.val with
  | 0 => decide (28 < dy.val) | 1 => decide (28 < dx.val) | 2 => dx == 31 || dy == 31 | _ => true

/-- What SUM puts where (R86). -/
def mulTargets (sum : Fin 4) (p : List Int) : List (Fin 4 × Int) :=
  let g (i : Nat) : Int := p.getD i 0
  match sum.val with
  | 0 => [(0, g 0), (1, g 1), (2, g 2), (3, g 3)]
  | 1 => [(0, g 0 + g 1 + g 2 + g 3)]
  | 2 => [(1, g 0 + g 1 + g 2 + g 3)]
  | _ => [(0, g 0 + g 1), (1, g 2 + g 3)]

/-- The multiply operations: `upd old term` is the target's new value. -/
def mulOp (s : State) (e : Fin 64) (last bad : Bool) (prs : List (Fin 32 × Fin 32)) (tgt : List Int → List (Fin 4 × Int))
    (upd : Int → Int → Int) : State :=
  slotOp s e last (fun x =>
    let p := prs.map (fun q => (mulIn x q.1).1 * (mulIn x q.2).1)
    let sa := prs.any (fun q => (mulIn x q.1).2 || (mulIn x q.2).2)
    let t := tgt p
    .unless bad x.r
      (.regs (t.foldl (fun r a => acPut r a.1 (upd (acI x.snap a.1) a.2)) (stick x.r ccSAT sa)) (wM :: t.map (fun a => wAc a.1))))

/-- MAC4: the products are added (R86). -/
def execMac4 (e : Fin 64) (mode : Fin 4) (dx dy : Fin 32) (sum : Fin 4) (last : Bool) (s : State) : Host.Outcome State Fault Refusal :=
  .next (mulOp s e last (mulIllegal mode dx dy) (mulPairs mode dx dy) (mulTargets sum) (fun a t => a + t))

/-- MSU4: the products are subtracted (R86). -/
def execMsu4 (e : Fin 64) (mode : Fin 4) (dx dy : Fin 32) (sum : Fin 4) (last : Bool) (s : State) : Host.Outcome State Fault Refusal :=
  .next (mulOp s e last (mulIllegal mode dx dy) (mulPairs mode dx dy) (mulTargets sum) (fun a t => a - t))

/-- MPY4: the products replace the accumulators (R86). -/
def execMpy4 (e : Fin 64) (mode : Fin 4) (dx dy : Fin 32) (sum : Fin 4) (last : Bool) (s : State) : Host.Outcome State Fault Refusal :=
  .next (mulOp s e last (mulIllegal mode dx dy) (mulPairs mode dx dy) (mulTargets sum) (fun _ t => t))

/-- The operands of a dot product of `n + 1` terms. -/
def dotPairs (n : Fin 4) (dx dy : Fin 32) : List (Fin 32 × Fin 32) := (List.range (n.val + 1)).map (fun i => (dAt dx i, dAt dy i))

/-- A dot product whose register ranges pass D31 (R80). -/
def dotIllegal (n : Fin 4) (dx dy : Fin 32) : Bool := decide (31 < dx.val + n.val) || decide (31 < dy.val + n.val)

/-- DOT: ACk plus the dot product (R86). -/
def execDot (e : Fin 64) (k n : Fin 4) (dx dy : Fin 32) (last : Bool) (s : State) : Host.Outcome State Fault Refusal :=
  .next (mulOp s e last (dotIllegal n dx dy) (dotPairs n dx dy) (fun p => [(k, p.sum)]) (fun a t => a + t))

/-- DOTN: ACk minus the dot product (R86). -/
def execDotn (e : Fin 64) (k n : Fin 4) (dx dy : Fin 32) (last : Bool) (s : State) : Host.Outcome State Fault Refusal :=
  .next (mulOp s e last (dotIllegal n dx dy) (dotPairs n dx dy) (fun p => [(k, p.sum)]) (fun a t => a - t))

/-- DOTZ: ACk becomes the dot product (R86). -/
def execDotz (e : Fin 64) (k n : Fin 4) (dx dy : Fin 32) (last : Bool) (s : State) : Host.Outcome State Fault Refusal :=
  .next (mulOp s e last (dotIllegal n dx dy) (dotPairs n dx dy) (fun p => [(k, p.sum)]) (fun _ t => t))

/-- FTAP: a dot product with its delay line moved one place up (R87). -/
def execFtap (e : Fin 64) (p q k : Fin 4) (neg z : Bool) (last : Bool) (s : State) : Host.Outcome State Fault Refusal :=
  .next (slotOp s e last (fun x =>
    let h := engHalf x
    let xa := x.snap.p[xyPtr false p]
    let ya := x.snap.p[xyPtr true q]
    let is := List.range 4
    let xs := is.map (fun i => xyRead s e false h (ptrWord xa (-(i : Int))))
    let cs := is.map (fun i => xyRead s e true h (ptrWord ya (-(i : Int))))
    let mx := xs.map (fun v => sat24 (sgn 32 v))
    let mc := cs.map (fun v => sat24 (sgn 32 v))
    let acc := ((mx.zip mc).map (fun t => t.1.1 * t.2.1)).sum
    let term := if neg then -acc else acc
    let r := stick x.r ccSAT ((mx ++ mc).any (fun t => t.2))
    let r := acPut r k (if z then term else acI x.snap k + term)
    let r := setPtr r (xyPtr false p) { r.p[xyPtr false p] with a := (ptrStep xa (-4)).a }
    let r := setPtr r (xyPtr true q) { r.p[xyPtr true q] with a := (ptrStep ya (-4)).a }
    { r := r, dst := [wM, wXY false, wXY true, wAc k, 64 + (xyPtr false p).val, 64 + (xyPtr true q).val],
      stores := (is.zip xs).map (fun t => (xyAddr e false h (ptrWord xa (1 - (t.1 : Int))), leBytes 4 t.2)) }))

/-- CLRA: the accumulators of the mask become 0 (R86). -/
def execClra (e : Fin 64) (mask : BitVec 4) (last : Bool) (s : State) : Host.Outcome State Fault Refusal :=
  .next (slotOp s e last (fun x =>
    let ks := [(0 : Fin 4), 1, 2, 3].filter (fun k => mask.getLsbD k.val)
    .regs (ks.foldl (fun r k => setAc r k 0) x.r) (wM :: ks.map wAc)))

/-- ADDA: ACd plus or minus a shifted ACs (R92). -/
def execAdda (e : Fin 64) (d a : Fin 4) (sh : BitVec 6) (neg : Bool) (last : Bool) (s : State) : Host.Outcome State Fault Refusal :=
  .next (slotOp s e last (fun x =>
    let t := shiftRnd (acI x.snap a) (-sh.toInt)
    .regs (acPut x.r d (if neg then acI x.snap d - t else acI x.snap d + t)) [wM, wAc d]))

end Sys2Proof.Machine
end

