-- ==== Sys2Proof/Machine/LeAlu.lean ====
section
/-! DEFINITION. Loop-engine instructions of the C slot: words, integers, conversions and cluster memory (R76, R88 to R98). -/

namespace Sys2Proof.Machine

/-- A C-slot operation that writes one D register and changes the flags with `fl`. -/
def dOp (s : State) (e : Fin 64) (last : Bool) (d : Fin 32) (v : Engine → Int) (fl : Engine → LeRegs → LeRegs := fun _ r => r) : State :=
  slotOp s e last (fun x => .regs (fl x (setD x.r d (v x))) [wC, wD d])

/-- A C-slot operation that writes one G register. -/
def gOp (s : State) (e : Fin 64) (last bad : Bool) (d : Fin 16) (v : Engine → Int) (fl : Engine → LeRegs → LeRegs := fun _ r => r) : State :=
  slotOp s e last (fun x => .unless bad x.r (.regs (fl x (setG x.r d (v x))) [wC, wG d]))

/-- A C-slot operation that writes a D register from a G register named in a 5-bit field. -/
def dgOp (s : State) (e : Fin 64) (last bad : Bool) (d : Fin 32) (v : Engine → Int) : State :=
  slotOp s e last (fun x => .unless bad x.r (.regs (setD x.r d (v x)) [wC, wD d]))

/-- The N and Z flags of a comparison (R70). -/
def cmpCc (r : LeRegs) (a b : Int) : LeRegs := setCc (setCc r ccN (decide (a < b))) ccZ (decide (a = b))

/-- Bit 4 of a 5-bit G-register field is set (R80, R88). -/
def gBad (i : Fin 32) : Bool := decide (15 < i.val)

/-- ADD (R88). -/
def execAdd (e : Fin 64) (d a b : Fin 32) (last : Bool) (s : State) : Host.Outcome State Fault Refusal :=
  .next (dOp s e last d (fun x => dI x.snap a + dI x.snap b) (fun x r => setCc r ccV (ovf 32 (dI x.snap a + dI x.snap b))))
/-- SUB (R88). -/
def execSub (e : Fin 64) (d a b : Fin 32) (last : Bool) (s : State) : Host.Outcome State Fault Refusal :=
  .next (dOp s e last d (fun x => dI x.snap a - dI x.snap b) (fun x r => setCc r ccV (ovf 32 (dI x.snap a - dI x.snap b))))
/-- ADDS (R88). -/
def execAdds (e : Fin 64) (d a b : Fin 32) (last : Bool) (s : State) : Host.Outcome State Fault Refusal :=
  .next (dOp s e last d (fun x => (Sys2Proof.Machine.sat24 (dI x.snap a + dI x.snap b)).1)
    (fun x r => stick r ccSAT (Sys2Proof.Machine.sat24 (dI x.snap a + dI x.snap b)).2))
/-- SUBS (R88). -/
def execSubs (e : Fin 64) (d a b : Fin 32) (last : Bool) (s : State) : Host.Outcome State Fault Refusal :=
  .next (dOp s e last d (fun x => (Sys2Proof.Machine.sat24 (dI x.snap a - dI x.snap b)).1)
    (fun x r => stick r ccSAT (Sys2Proof.Machine.sat24 (dI x.snap a - dI x.snap b)).2))
/-- AND (R88). -/
def execAnd (e : Fin 64) (d a b : Fin 32) (last : Bool) (s : State) : Host.Outcome State Fault Refusal :=
  .next (dOp s e last d (fun x => (x.snap.d[a] &&& x.snap.d[b]).toNat))
/-- OR (R88). -/
def execOr (e : Fin 64) (d a b : Fin 32) (last : Bool) (s : State) : Host.Outcome State Fault Refusal :=
  .next (dOp s e last d (fun x => (x.snap.d[a] ||| x.snap.d[b]).toNat))
/-- XOR (R88). -/
def execXor (e : Fin 64) (d a b : Fin 32) (last : Bool) (s : State) : Host.Outcome State Fault Refusal :=
  .next (dOp s e last d (fun x => (x.snap.d[a] ^^^ x.snap.d[b]).toNat))
/-- MIN, signed (R88). -/
def execMin (e : Fin 64) (d a b : Fin 32) (last : Bool) (s : State) : Host.Outcome State Fault Refusal :=
  .next (dOp s e last d (fun x => min (dI x.snap a) (dI x.snap b)))
/-- MAX, signed (R88). -/
def execMax (e : Fin 64) (d a b : Fin 32) (last : Bool) (s : State) : Host.Outcome State Fault Refusal :=
  .next (dOp s e last d (fun x => max (dI x.snap a) (dI x.snap b)))
/-- SEL: Da if N = 1, else Db (R88). -/
def execSel (e : Fin 64) (d a b : Fin 32) (last : Bool) (s : State) : Host.Outcome State Fault Refusal :=
  .next (dOp s e last d (fun x => if cc x.snap ccN then dI x.snap a else dI x.snap b))
/-- SHL: V if a bit shifted out differs from the result's sign (R88). -/
def execShl (e : Fin 64) (d a b : Fin 32) (last : Bool) (s : State) : Host.Outcome State Fault Refusal :=
  .next (dOp s e last d (fun x => dI x.snap a * 2 ^ b.val) (fun x r => setCc r ccV (ovf 32 (dI x.snap a * 2 ^ b.val))))
/-- ASR: floor (R88). -/
def execAsr (e : Fin 64) (d a b : Fin 32) (last : Bool) (s : State) : Host.Outcome State Fault Refusal :=
  .next (dOp s e last d (fun x => dI x.snap a / 2 ^ b.val))
/-- MOV (R88). -/
def execMov (e : Fin 64) (d a : Fin 32) (last : Bool) (s : State) : Host.Outcome State Fault Refusal :=
  .next (dOp s e last d (fun x => dI x.snap a))
/-- NEG (R88). -/
def execNeg (e : Fin 64) (d a : Fin 32) (last : Bool) (s : State) : Host.Outcome State Fault Refusal :=
  .next (dOp s e last d (fun x => -dI x.snap a) (fun x r => setCc r ccV (ovf 32 (-dI x.snap a))))
/-- ABS (R88). -/
def execAbs (e : Fin 64) (d a : Fin 32) (last : Bool) (s : State) : Host.Outcome State Fault Refusal :=
  .next (dOp s e last d (fun x => (dI x.snap a).natAbs) (fun x r => setCc r ccV (ovf 32 (dI x.snap a).natAbs)))
/-- SAT24 (R88). -/
def execSat24 (e : Fin 64) (d a : Fin 32) (last : Bool) (s : State) : Host.Outcome State Fault Refusal :=
  .next (dOp s e last d (fun x => (Sys2Proof.Machine.sat24 (dI x.snap a)).1) (fun x r => stick r ccSAT (Sys2Proof.Machine.sat24 (dI x.snap a)).2))
/-- NOT (R88). -/
def execNot (e : Fin 64) (d a : Fin 32) (last : Bool) (s : State) : Host.Outcome State Fault Refusal :=
  .next (dOp s e last d (fun x => (~~~ x.snap.d[a]).toNat))
/-- HDRM: the shift that NORM would choose; 32 for 0 (R88). -/
def execHdrm (e : Fin 64) (d a : Fin 32) (last : Bool) (s : State) : Host.Outcome State Fault Refusal :=
  .next (dOp s e last d (fun x => if dI x.snap a = 0 then 32 else normK [dI x.snap a]))
/-- RFLG: the task's event flags as they stand (R108). -/
def execRflg (e : Fin 64) (d : Fin 32) (last : Bool) (s : State) : Host.Outcome State Fault Refusal :=
  .next (dOp s e last d (fun x => (task s x.task).flags.toNat))
/-- GETWCT (R88). -/
def execGetwct (e : Fin 64) (d : Fin 32) (last : Bool) (s : State) : Host.Outcome State Fault Refusal :=
  .next (dOp s e last d (fun x => x.snap.wct.toNat))
/-- CLRCC: clears SAT, AOV and INV (R88). -/
def execClrcc (e : Fin 64) (last : Bool) (s : State) : Host.Outcome State Fault Refusal :=
  .next (slotOp s e last (fun x => .regs (setCc (setCc (setCc x.r ccSAT false) ccAOV false) ccINV false) [wC]))

/-- SETPA: A ← Da mod 1,024, then wrapped (R83, R88). -/
def execSetpa (e : Fin 64) (d a : Fin 32) (last : Bool) (s : State) : Host.Outcome State Fault Refusal :=
  .next (slotOp s e last (fun x =>
    let k := pNum d
    .unless (decide (7 < d.val)) x.r
      (.regs (setPtr x.r k { x.r.p[k] with a := BitVec.ofNat 10 (wrapPtr x.snap.p[k] (dI x.snap a % 1024)) }) [wC, 64 + k.val])))
/-- SETPB: B ← Da mod 1,024 (R88). -/
def execSetpb (e : Fin 64) (d a : Fin 32) (last : Bool) (s : State) : Host.Outcome State Fault Refusal :=
  .next (slotOp s e last (fun x =>
    let k := pNum d
    .unless (decide (7 < d.val)) x.r (.regs (setPtr x.r k { x.r.p[k] with b := BitVec.ofInt 10 (dI x.snap a) }) [wC, 64 + k.val])))
/-- SETPL: L ← Da, saturated to 0–1,024 (R88). -/
def execSetpl (e : Fin 64) (d a : Fin 32) (last : Bool) (s : State) : Host.Outcome State Fault Refusal :=
  .next (slotOp s e last (fun x =>
    let k := pNum d
    let v := sat 0 1024 (dI x.snap a)
    .unless (decide (7 < d.val)) x.r (.regs (stick (setPtr x.r k { x.r.p[k] with l := BitVec.ofInt 11 v.1 }) ccSAT v.2) [wC, 64 + k.val])))
/-- SETPM: m ← Da, saturated to −128..127 (R88). -/
def execSetpm (e : Fin 64) (d a : Fin 32) (last : Bool) (s : State) : Host.Outcome State Fault Refusal :=
  .next (slotOp s e last (fun x =>
    let k := pNum d
    let v := satX (dI x.snap a)
    .unless (decide (7 < d.val)) x.r (.regs (stick (setPtr x.r k { x.r.p[k] with m := BitVec.ofInt 8 v.1 }) ccSAT v.2) [wC, 64 + k.val])))
/-- GETPA: Dd ← the address of a pointer (R88). -/
def execGetpa (e : Fin 64) (d a : Fin 32) (last : Bool) (s : State) : Host.Outcome State Fault Refusal :=
  .next (dgOp s e last (decide (7 < a.val)) d (fun x => x.snap.p[pNum a].a.toNat))
/-- GETLC: Dd ← a loop counter (R88). -/
def execGetlc (e : Fin 64) (d a : Fin 32) (last : Bool) (s : State) : Host.Outcome State Fault Refusal :=
  .next (dgOp s e last (decide (1 < a.val)) d (fun x => (x.snap.lc[(Fin.ofNat 2 a.val)]).ctr.toNat))
/-- CMP (R88). -/
def execCmp (e : Fin 64) (a b : Fin 32) (last : Bool) (s : State) : Host.Outcome State Fault Refusal :=
  .next (slotOp s e last (fun x => .regs (cmpCc x.r (dI x.snap a) (dI x.snap b)) [wC]))

/-- Internal address that a cluster-memory load or store of engine `e` reaches (R76). -/
def clmHere (e : Fin 64) (a : Nat) : Nat := clmAddr (e.val / 16) a

/-- A cluster-memory load or store: `f` at the address reached, CLMEM_RANGE outside it (R76). -/
def clmOp (s : State) (e : Fin 64) (last : Bool) (a b : Fin 32) (scale : Nat) (f : Engine → Nat → Eff) : State :=
  slotOp s e last (fun x =>
    match clmOf x.snap.d[a] scale b with
    | some o => f x (clmHere e o)
    | none => .bad x.r .clmemRange (f x 0).dst)

/-- LDC: Dd ← a word of cluster memory (R76). -/
def execLdc (e : Fin 64) (d a b : Fin 32) (last : Bool) (s : State) : Host.Outcome State Fault Refusal :=
  .next (clmOp s e last a b 4 (fun x o => .regs (setD x.r d (mnum s o 4)) [wC, wD d]))
/-- STC: a word of cluster memory ← Dd (R76). -/
def execStc (e : Fin 64) (d a b : Fin 32) (last : Bool) (s : State) : Host.Outcome State Fault Refusal :=
  .next (clmOp s e last a b 4 (fun x o => { r := x.r, dst := [wC], stores := [(o, leBytes 4 x.snap.d[d].toNat)] }))
/-- LDCG: Gd ← 64 bits of cluster memory (R76). -/
def execLdcg (e : Fin 64) (d : Fin 16) (a b : Fin 32) (last : Bool) (s : State) : Host.Outcome State Fault Refusal :=
  .next (clmOp s e last a b 8 (fun x o => .regs (setG x.r d (mnum s o 8)) [wC, wG d]))
/-- STCG: 64 bits of cluster memory ← Gd (R76). -/
def execStcg (e : Fin 64) (d : Fin 16) (a b : Fin 32) (last : Bool) (s : State) : Host.Outcome State Fault Refusal :=
  .next (clmOp s e last a b 8 (fun x o => { r := x.r, dst := [wC], stores := [(o, leBytes 8 x.snap.g[d].toNat)] }))

/-- GADD (R88). -/
def execGadd (e : Fin 64) (d a b : Fin 16) (last : Bool) (s : State) : Host.Outcome State Fault Refusal :=
  .next (gOp s e last false d (fun x => gI x.snap a + gI x.snap b) (fun x r => setCc r ccV (ovf 64 (gI x.snap a + gI x.snap b))))
/-- GSUB (R88). -/
def execGsub (e : Fin 64) (d a b : Fin 16) (last : Bool) (s : State) : Host.Outcome State Fault Refusal :=
  .next (gOp s e last false d (fun x => gI x.snap a - gI x.snap b) (fun x r => setCc r ccV (ovf 64 (gI x.snap a - gI x.snap b))))
/-- GMOV (R88). -/
def execGmov (e : Fin 64) (d a : Fin 32) (last : Bool) (s : State) : Host.Outcome State Fault Refusal :=
  .next (gOp s e last (gBad d || gBad a) (gNum d) (fun x => gI x.snap (gNum a)))
/-- GNEG (R88). -/
def execGneg (e : Fin 64) (d a : Fin 32) (last : Bool) (s : State) : Host.Outcome State Fault Refusal :=
  .next (gOp s e last (gBad d || gBad a) (gNum d) (fun x => -gI x.snap (gNum a)) (fun x r => setCc r ccV (ovf 64 (-gI x.snap (gNum a)))))
/-- GCMP: compares Gd with Ga (R88). -/
def execGcmp (e : Fin 64) (d a : Fin 32) (last : Bool) (s : State) : Host.Outcome State Fault Refusal :=
  .next (slotOp s e last (fun x =>
    .unless (gBad d || gBad a) x.r (.regs (cmpCc x.r (gI x.snap (gNum d)) (gI x.snap (gNum a))) [wC])))
/-- GSXD: Gd ← Da sign-extended (R88). -/
def execGsxd (e : Fin 64) (d a : Fin 32) (last : Bool) (s : State) : Host.Outcome State Fault Refusal :=
  .next (gOp s e last (gBad d) (gNum d) (fun x => dI x.snap a))
/-- GLO: Dd ← Ga[31:0] (R88). -/
def execGlo (e : Fin 64) (d a : Fin 32) (last : Bool) (s : State) : Host.Outcome State Fault Refusal :=
  .next (dgOp s e last (gBad a) d (fun x => gI x.snap (gNum a)))
/-- GHI: Dd ← Ga[63:32] (R88). -/
def execGhi (e : Fin 64) (d a : Fin 32) (last : Bool) (s : State) : Host.Outcome State Fault Refusal :=
  .next (dgOp s e last (gBad a) d (fun x => gI x.snap (gNum a) / 2 ^ 32))
/-- GSETH: Gd[63:32] ← Da (R88). -/
def execGseth (e : Fin 64) (d a : Fin 32) (last : Bool) (s : State) : Host.Outcome State Fault Refusal :=
  .next (gOp s e last (gBad d) (gNum d) (fun x => dI x.snap a * 2 ^ 32 + (x.snap.g[gNum d].toNat % 2 ^ 32 : Nat)))
/-- RSTV: Gd ← STV (R88). -/
def execRstv (e : Fin 64) (d : Fin 32) (last : Bool) (s : State) : Host.Outcome State Fault Refusal :=
  .next (gOp s e last (gBad d) (gNum d) (fun x => x.snap.stv.toNat))
/-- GSH: left modulo 2^64, or right with floor (R88). -/
def execGsh (e : Fin 64) (dir : Bool) (d a : Fin 16) (n : Fin 64) (last : Bool) (s : State) : Host.Outcome State Fault Refusal :=
  .next (gOp s e last false d (fun x => if dir then gI x.snap a / 2 ^ n.val else gI x.snap a * 2 ^ n.val))
/-- GMUL: signed, modulo 2^64 (R88). -/
def execGmul (e : Fin 64) (d a : Fin 16) (b : Fin 32) (last : Bool) (s : State) : Host.Outcome State Fault Refusal :=
  .next (gOp s e last false d (fun x => gI x.snap a * dI x.snap b) (fun x r => setCc r ccV (ovf 64 (gI x.snap a * dI x.snap b))))

/-- The Euclidean quotient and remainder of GDIV (R98). -/
def gdivOf (a b : Int) : Int × Int := if b = 0 then (0, a) else (a / b, a % b)

/-- GDIV: Gd ← quotient, G(d+1) ← remainder (R98). -/
def execGdiv (e : Fin 64) (d a : Fin 16) (b : Fin 32) (last : Bool) (s : State) : Host.Outcome State Fault Refusal :=
  .next (slotOp s e last (fun x =>
    let q := gdivOf (gI x.snap a) (dI x.snap b)
    let d' : Fin 16 := Fin.ofNat 16 (d.val + 1)
    let r := setG (setG x.r d q.1) d' q.2
    .unless (d.val % 2 == 1) x.r
      (.regs (stick (setCc r ccV (ovf 64 q.1)) ccINV (dI x.snap b == 0)) [wC, wG d, wG d'])))

/-- B2F: Dd ← binary32 of Da at EXk (R96). -/
def execB2f (e : Fin 64) (d a : Fin 32) (k : Fin 8) (last : Bool) (s : State) : Host.Outcome State Fault Refusal :=
  .next (slotOp s e last (fun x =>
    let f := toB32 (dI x.snap a) (exI x.snap k)
    .regs (stick (setD x.r d f.1.toNat) ccSAT f.2) [wC, wD d]))
/-- F2B: Dd and EXk ← binary32 Da (R96). -/
def execF2b (e : Fin 64) (d a : Fin 32) (k : Fin 8) (last : Bool) (s : State) : Host.Outcome State Fault Refusal :=
  .next (slotOp s e last (fun x =>
    let f := ofB32 x.snap.d[a]
    let r := setD x.r d f.1
    let r := match f.2.1 with | some v => setEx r k v | none => r
    .regs (stick (stick r ccSAT f.2.2.1) ccINV f.2.2.2) [wC, wD d, wEx k]))

/-- RDA: Dn ← an accumulator, shifted, rounded and saturated (R91). -/
def execRda (e : Fin 64) (dn : Fin 32) (k : Fin 4) (sh : BitVec 5) (s24 : Bool) (last : Bool) (s : State) : Host.Outcome State Fault Refusal :=
  .next (slotOp s e last (fun x =>
    let v := rnd (acI x.snap k) (23 + sh.toInt).toNat
    let t := if s24 then Sys2Proof.Machine.sat24 v else sat32 v
    .regs (stick (setD x.r dn t.1) ccSAT t.2) [wC, wD dn]))

/-- CVTF: Dd and EXk ← Ga in units of 2^EXs (R95). -/
def execCvtf (e : Fin 64) (d : Fin 32) (a : Fin 16) (xs xk : Fin 8) (last : Bool) (s : State) : Host.Outcome State Fault Refusal :=
  .next (slotOp s e last (fun x =>
    let f := toBf (gI x.snap a) (exI x.snap xs)
    .regs (stick (setEx (setD x.r d f.1) xk f.2.1) ccSAT f.2.2) [wC, wD d, wEx xk]))
/-- CVTI: Gd ← Da at EXa in units of 2^EXs (R95). -/
def execCvti (e : Fin 64) (d : Fin 16) (a : Fin 32) (xa xs : Fin 8) (last : Bool) (s : State) : Host.Outcome State Fault Refusal :=
  .next (slotOp s e last (fun x =>
    let v := sat (-2 ^ 63) (2 ^ 63 - 1) (shiftRnd (dI x.snap a) (exI x.snap xa - exI x.snap xs - 23))
    .regs (stick (setG x.r d v.1) ccSAT v.2) [wC, wG d]))

end Sys2Proof.Machine
end

