-- ==== Sys2Proof/Machine/LeExp.lean ====
section
/-! DEFINITION. Loop-engine instructions on exponents: XOP, NORM and ALN (R93, R94, R97). -/

namespace Sys2Proof.Machine

/-- An exponent operation: the result is saturated (R97). -/
def xOp (s : State) (e : Fin 64) (last : Bool) (d : Fin 8) (v : Engine → Int) : State :=
  slotOp s e last (fun x => let t := satX (v x); .regs (stick (setEx x.r d t.1) ccSAT t.2) [wC, wEx d])

/-- ADDX (R97). -/
def execAddx (e : Fin 64) (d a b : Fin 8) (last : Bool) (s : State) : Host.Outcome State Fault Refusal :=
  .next (xOp s e last d (fun x => exI x.snap a + exI x.snap b))
/-- SUBX (R97). -/
def execSubx (e : Fin 64) (d a b : Fin 8) (last : Bool) (s : State) : Host.Outcome State Fault Refusal :=
  .next (xOp s e last d (fun x => exI x.snap a - exI x.snap b))
/-- MAXX (R97). -/
def execMaxx (e : Fin 64) (d a b : Fin 8) (last : Bool) (s : State) : Host.Outcome State Fault Refusal :=
  .next (xOp s e last d (fun x => max (exI x.snap a) (exI x.snap b)))
/-- MINX (R97). -/
def execMinx (e : Fin 64) (d a b : Fin 8) (last : Bool) (s : State) : Host.Outcome State Fault Refusal :=
  .next (xOp s e last d (fun x => min (exI x.snap a) (exI x.snap b)))
/-- MOVXD: EXd ← Da (R97). -/
def execMovxd (e : Fin 64) (d : Fin 8) (a : Fin 32) (last : Bool) (s : State) : Host.Outcome State Fault Refusal :=
  .next (xOp s e last d (fun x => dI x.snap a))
/-- MOVDX: Dd ← EXa, sign-extended (R97). -/
def execMovdx (e : Fin 64) (d : Fin 32) (a : Fin 8) (last : Bool) (s : State) : Host.Outcome State Fault Refusal :=
  .next (dOp s e last d (fun x => exI x.snap a))

/-- A word shifted by `k`, and rounded where `k` is negative (R93). -/
def normWord (k w : Int) : Int := shiftRnd w k

/-- NORM: the words of a stage and their exponent renormalised (R93): words, exponent, SAT, Z. -/
def normOf (ws : List Int) (ex : Int) : List Int × Int × Bool × Bool :=
  if ws.all (fun w => w == 0) then (ws, ex, false, true)
  else
    let k := normK ws
    let e := ex - k
    if e < -128 then (ws.map (normWord (ex + 128)), -128, true, false)
    else if 127 < e then (ws.map (fun w => (sat (-(2 ^ 23 - 1)) (2 ^ 23 - 1) (rnd w (127 - ex).toNat)).1), 127, true, false)
    else (ws.map (normWord k), e, false, false)

/-- NORM (R93): `c` is the number of words less one. -/
def execNorm (e : Fin 64) (dn : Fin 32) (c m : Fin 8) (last : Bool) (s : State) : Host.Outcome State Fault Refusal :=
  .next (slotOp s e last (fun x =>
    let is := (List.range (c.val + 1)).map (dAt dn)
    let f := normOf (is.map (dI x.snap)) (exI x.snap m)
    let r := (is.zip f.1).foldl (fun r t => setD r t.1 t.2) x.r
    .unless (decide (31 < dn.val + c.val)) x.r
      (.regs (stick (setCc (setEx r m f.2.1) ccZ f.2.2.2) ccSAT f.2.2.1) (wC :: wEx m :: is.map wD))))

/-- ALN: Dd moved from exponent EXa to EXb (R94). -/
def execAln (e : Fin 64) (d : Fin 32) (xa xb : Fin 8) (last : Bool) (s : State) : Host.Outcome State Fault Refusal :=
  .next (slotOp s e last (fun x =>
    let t := sat32 (shiftRnd (dI x.snap d) (exI x.snap xa - exI x.snap xb))
    .regs (stick (setD x.r d t.1) ccSAT t.2) [wC, wD d]))

end Sys2Proof.Machine
end

