-- ==== Sys2Proof/Machine/AxisOps.lean ====
section
/-! DEFINITION. Block-float pairs, stages, exact values and parameter records of the Clesen library (R89, R110 to R113, R118 to R120, R148). -/

namespace Sys2Proof.Machine

/-! ## Exact values -/

/-- The value of a finite binary32 word. -/
def b32Rat (w : Nat) : Rat :=
  let e := bits 30 23 w
  let m := bits 22 0 w
  let v : Rat := if e = 0 then (m : Rat) * pow2 (-149) else ((m + 2 ^ 23 : Nat) : Rat) * pow2 ((e : Int) - 150)
  if bitOf 31 w then -v else v

/-- A binary32 word is finite. -/
def b32Fin (w : Nat) : Bool := bits 30 23 w != 255

/-- A binary32 word is positive and finite. -/
def b32Pos (w : Nat) : Bool := b32Fin w && !bitOf 31 w && bits 30 0 w != 0

/-- A `w`-bit two's-complement wrap of an integer. -/
def wrapI (w : Nat) (x : Int) : Int := sgn w (unsgn w x)

/-! ## Block-float pairs (R112, R117) -/

/-- A pair of a word and an exponent, formed without saturation. -/
def Bf.of (w x : Int) : Bf := { w := w, x := x }

/-- A pair as it is kept. -/
def Bf.keep (b : Bf) : Bf := { b with num := false }

/-- The word of a pair moved to exponent `x`, and whether it saturated (ALN, R94). -/
def Bf.at_ (b : Bf) (x : Int) : Int × Bool := sat32 (shiftRnd b.w (b.x - x))

/-- Two pairs, each brought to the larger exponent, joined by a saturating operation on their words (R117). -/
def Bf.join (a b : Bf) (f : Int → Int → Int) : Bf :=
  let x := max a.x b.x
  let r := sat24 (f (a.at_ x).1 (b.at_ x).1)
  { w := r.1, x := x, num := a.num || b.num || (a.at_ x).2 || (b.at_ x).2 || r.2 }

/-- The sum of two pairs: both at the larger exponent, then ADDS (R117). -/
def Bf.add (a b : Bf) : Bf := a.join b (· + ·)

/-- The difference of two pairs (R117). -/
def Bf.sub (a b : Bf) : Bf := a.join b (· - ·)

/-- The product of two pairs: the operands saturate to 24 bits, the product is formed in an accumulator and returned by RDA with S24 = 1 (R90, R117; log 12). -/
def Bf.mul (a b : Bf) : Bf :=
  let p := sat24 a.w
  let q := sat24 b.w
  let r := sat24 (rnd (p.1 * q.1) 23)
  let x := satX (a.x + b.x)
  { w := r.1, x := x.1, num := a.num || b.num || p.2 || q.2 || r.2 || x.2 }

/-- The value of a pair. -/
def Bf.rat (b : Bf) : Rat := (b.w : Rat) * pow2 (b.x - 23)

/-- A value as a pair, normalised, rounded once (R95; log 12). -/
def bfOf (q : Rat) : Bf :=
  let t := 64 - (q.num.natAbs.log2 : Int) + (q.den.log2 : Int)
  let r := toBf (rndRat (q * pow2 t)) (-t)
  if r.2.1 < -128 then .of (rnd r.1 (-128 - r.2.1).toNat) (-128) else { w := r.1, x := r.2.1, num := r.2.2 }

/-- A pair clamped to plus or minus a positive limit, and whether it was clamped: the `sat` of R89, which sets CC.SAT (log 12). -/
def Bf.clamp (a lim : Bf) : Bf × Bool :=
  let x := max a.x lim.x
  if (lim.at_ x).1 < (a.at_ x).1 then ({ lim with num := true }, true)
  else if (a.at_ x).1 < -(lim.at_ x).1 then ({ w := -lim.w, x := lim.x, num := true }, true) else (a, false)

/-- A bf point (R135). -/
def bfPoint (b : Bf) : Nat := unsgn 32 b.w + unsgn 8 b.x * 2 ^ 32

/-- The pair in a bf point. -/
def ofPoint (v : Nat) : Bf := .of (sgn 32 v) (sgn 8 (v / 2 ^ 32))

/-- A pair converted by B2F (R96). -/
def Bf.b32 (b : Bf) : Nat := (toB32 b.w b.x).1.toNat
/-- Forming a pair, or its conversion by B2F, saturated (R96, R139). -/
def Bf.num32 (b : Bf) : Bool := b.num || (toB32 b.w b.x).2

/-- A binary32 word converted by F2B; a NaN leaves 0 (R96). -/
def bfOfB32 (w : Nat) : Bf := let r := ofB32 (BitVec.ofNat 32 w); { w := r.1, x := r.2.1.getD 0, num := r.2.2.1 || r.2.2.2 }

/-! ## Stages (R118, R119) -/

/-- Words as multiplier operands, each with the word it multiplies: their products (R90). -/
def products (c w : List Int) : List Int := (c.zip w).map (fun p => (sat24 p.1).1 * (sat24 p.2).1)

/-- One run of a stage of order `n`: coefficients b0 … bN and n1 … nN at exponent `xc`, and the new input. The new stage, and its output. -/
def Stage.run (st : Stage) (n : Nat) (b a : List Int) (xc : Int) (i : Bf) : Stage × Bf :=
  let es := (i.at_ st.x).1 :: st.e.take n
  let us := st.u.take n
  let r := sat24 (shiftRnd ((products b es).sum + (products a us).sum) (xc - 23))
  let f := normOf (es ++ r.1 :: us) st.x
  let num := i.num || (i.at_ st.x).2 || (es ++ us).any (fun w => (sat24 w).2) || r.2 || f.2.2.1
  let e' := f.1.take (n + 1)
  let u' := f.1.drop (n + 1)
  ({ x := f.2.1, e := (e'.take n ++ [0, 0, 0]).take 3, u := (u'.take n ++ [0, 0, 0]).take 3 }, { w := u'.headD 0, x := f.2.1, num := num })

/-- The anti-windup of R120: the excess is taken by SUBS from the newest output word. -/
def Stage.unwind (st : Stage) (ex : Bf) : Stage :=
  match st.u with
  | u :: r => { st with u := (sat24 (u - (ex.at_ st.x).1)).1 :: r }
  | [] => st

/-! ## Axis records (R110 to R113) -/

/-- An axis. -/
def axis (s : State) (a : Nat) : AxisSt := tget (fun _ => {}) s.axes a
/-- Set an axis. -/
def setAxis (s : State) (a : Nat) (x : AxisSt) : State := { s with axes := tput (fun _ => {}) s.axes a x }

/-- Internal address of word `i` of the record of axis `a` in bank `b` (R110). -/
def recAddr (s : State) (a b i : Nat) : Nat := cistAddr (rd s Reg.AXIS_AREA_SLICE * 0x100000 + 1024 * a + 512 * b + 4 * i)

/-- Word `i` of the record of axis `a` in bank `b`. -/
def recWord (s : State) (a b i : Nat) : Nat := mnum s (recAddr s a b i) 4

/-- Word `i` of the active record. -/
def actWord (s : State) (a i : Nat) : Nat := recWord s a (b2n (axis s a).act) i

/-- A mantissa word of the active record. -/
def actI (s : State) (a i : Nat) : Int := sgn 32 (actWord s a i)

/-- Byte `j` of word `i` of the active record as a signed exponent. -/
def actX (s : State) (a i j : Nat) : Int := sgn 8 (actWord s a i / 256 ^ j)

/-- A pair of the active record: word `i` at the exponent in byte `j` of word `k`. -/
def actBf (s : State) (a i k j : Nat) : Bf := .of (actI s a i) (actX s a k j)

/-- A bit of CFG in the active record (R113). -/
def cfgBit (s : State) (a b : Nat) : Bool := bitOf b (actWord s a 0)

/-- MODE: 0 CST, 1 CSV, 2 CSP (R113). -/
def axMode (s : State) (a : Nat) : Nat := bits 2 1 (actWord s a 0)
/-- Dp (R113, R114). -/
def axDp (s : State) (a : Nat) : Nat := 2 ^ bits 5 4 (actWord s a 0)
/-- DPQ (R113). -/
def axDpq (s : State) (a : Nat) : Nat := bits 8 6 (actWord s a 0)

/-- Point `p` of the channel of axis `a` (R135). -/
def axPt (a p : Nat) : Nat := pt 30 (a / 16) (a % 16) p

/-- Cycle length in force, in ns (R39). -/
def period (s : State) : Nat := rd s Reg.CYC_PERIOD_NS

/-- The value of the status point (R136). -/
def AxisSt.status (x : AxisSt) : Nat := x.flags.toNat + x.staleRun * 256

/-- Set or clear a flag of the status point (R136). -/
def AxisSt.flag (x : AxisSt) (b : Nat) (v : Bool) : AxisSt := { x with flags := BitVec.ofNat 6 (putBit b v x.flags.toNat) }

/-! ## Motion records (R148, R149) -/

/-- A motion channel. -/
def mot (s : State) (c : Nat) : MotSt := tget (fun _ => {}) s.mots c
/-- Set a motion channel. -/
def setMot (s : State) (c : Nat) (x : MotSt) : State := { s with mots := tput (fun _ => {}) s.mots c x }

/-- Word `i` of the motion record of channel `c` in bank `b`. -/
def motWord (s : State) (c b i : Nat) : Nat := (tget (fun _ => 0#32) s.motRec ((c * 2 + b) * 16 + i)).toNat

/-- Set a word of a motion record. -/
def setMotWord (s : State) (c b i v : Nat) : State :=
  { s with motRec := tput (fun _ => 0#32) s.motRec ((c * 2 + b) * 16 + i) (BitVec.ofNat 32 v) }

/-- Word `i` of the active motion record. -/
def motAct (s : State) (c i : Nat) : Nat := motWord s c (b2n (mot s c).act) i

/-- EN of a channel. -/
def motEn (s : State) (c : Nat) : Bool := bitOf 0 (motAct s c 0)
/-- SRC of a channel: 0 independent, 1 follower, 2 group member. -/
def motSrc (s : State) (c : Nat) : Nat := bits 3 2 (motAct s c 0)
/-- GROUP of a channel. -/
def motGroup (s : State) (c : Nat) : Nat := bits 10 7 (motAct s c 0)
/-- The master point of a channel. -/
def motMaster (s : State) (c : Nat) : Nat := motAct s c 1 % 2 ^ 20
/-- The run period of a channel, in ns (R150). -/
def motTp (s : State) (c : Nat) : Nat := (if c < 1024 then axDp s c else 1) * period s

/-- Tp in seconds, in binary64 (R155). -/
def tpSec (s : State) (c : Nat) : Rat := b64 ((motTp s c : Rat) / 10 ^ 9)

/-- A velocity in run units, formed in binary64 (R155; log 5). A limit's words change only at a commit and Tp only there or at a swap, so that what the stewards hold equals this at every run. -/
def vUnits (s : State) (c : Nat) (q : Rat) : Int := rndRat (b64 (b64 q * tpSec s c) * 2 ^ 32)
/-- An acceleration in run units (R155). -/
def aUnits (s : State) (c : Nat) (q : Rat) : Int := let t := tpSec s c; rndRat (b64 (b64 q * b64 (t * t)) * 2 ^ 32)
/-- A jerk in run units (R155). -/
def jUnits (s : State) (c : Nat) (q : Rat) : Int := let t := tpSec s c; rndRat (b64 (b64 q * b64 (b64 (t * t) * t)) * 2 ^ 32)

/-- The enabled channels. -/
def chans (s : State) : List Nat := (List.range 1056).filter (motEn s)

/-- The motion channel whose set-point or actual position a point holds (R159). -/
def chanOfPt (p : Nat) : Option Nat :=
  let seg := p / 32768
  let pos := p / 512 % 64
  let ch := p / 32 % 16
  if seg = 26 ∧ pos < 2 ∧ p % 32 = 0 then some (1024 + pos * 16 + ch)
  else if seg = 30 ∧ p % 32 ≤ 1 then some (pos * 16 + ch) else none

/-- The key of a channel's motion group (R165): its root channel, 2,048 + an interpolation group, or 4,096 + a master point that is no motion channel. The count bounds the chain of masters. -/
def groupKey (s : State) : Nat → Nat → Nat
  | 0, c => c
  | n + 1, c =>
    if motSrc s c = 2 then 2048 + motGroup s c
    else if motSrc s c = 1 then
      match chanOfPt (motMaster s c) with
      | some r => groupKey s n r
      | none => 4096 + motMaster s c
    else c

/-- The key of a channel's motion group. -/
def keyOf (s : State) (c : Nat) : Nat := groupKey s 1056 c

/-- The members of the interpolation group of a channel (R164): not the followers that hang on them. -/
def membersOf (s : State) (c : Nat) : List Nat := (chans s).filter (fun d => motSrc s d == 2 && motGroup s d == motGroup s c)

/-- The channels of a channel's motion group (R165). -/
def groupOf (s : State) (c : Nat) : List Nat := (chans s).filter (fun d => keyOf s d == keyOf s c)

/-- Ask for a stop of the motion group of a channel at boundary `due` (R167). -/
def askStop (s : State) (due : Nat) (ch : Option Nat) (grade : Nat) (lost : Bool) : State :=
  { s with stops := s.stops ++ [⟨due, ch, grade, lost⟩] }

/-- A stop that the library asks for: at the next boundary (R167). -/
def libStop (s : State) (c grade : Nat) : State := if grade = 0 then s else askStop s (s.sched.cycle + 1) (some c) grade false

/-- The programmed fault reaction of an axis (R134, R138, R149), asked for in every run that finds the condition: FREACT 1, 2 and 3 are the stop grades. -/
def faultReaction (s : State) (a : Nat) : State := libStop s a (bits 6 4 (motAct s a 0))

/-- A library flag is logged (R417, AXIS_FAULT). -/
def axisFault (s : State) (a bit : Nat) : State := post s 0x300C 3 (a + bit * 2 ^ 12)

end Sys2Proof.Machine
end

