-- ==== Sys2Proof/Machine/Planner.lean ====
section
/-! DEFINITION. Plans of the motion generator (R154, R156, R157; log 16): what a plan may be, and the plan that the model forms. -/

namespace Sys2Proof.Machine

/-- A quotient rounded up; 0 where the divisor is not positive. -/
def ceilDiv (a b : Int) : Nat := if b ≤ 0 then 0 else (-((-a) / b)).toNat

/-- Position, velocity and acceleration after `n` runs of a segment of constant jerk `y` (R154). -/
def afterJerk (q : Int × Int × Int) (n y : Int) : Int × Int × Int :=
  (q.1 + n * q.2.1 + q.2.2 * (n * (n + 1) / 2) + y * (n * (n + 1) * (n + 2) / 6), q.2.1 + n * q.2.2 + y * (n * (n + 1) / 2), q.2.2 + n * y)

/-- The state after a segment: of constant jerk, or of constant acceleration `y` (R154). -/
def afterSeg (jerk : Bool) (q : Int × Int × Int) (g : Nat × Int) : Int × Int × Int :=
  if jerk then afterJerk q g.1 g.2 else if g.1 = 0 then q else afterJerk (q.1, q.2.1, g.2) g.1 0

/-- No run of a segment that begins in state `q` exceeds a limit: velocity `v`, acceleration `a`, jerk `j`. The velocity of a jerk segment is largest at its ends or where its acceleration changes sign. -/
def segOk (jerk : Bool) (v a j : Int) (q : Int × Int × Int) (g : Nat × Int) : Bool :=
  let e := afterSeg jerk q g
  let k : Int := if g.2 = 0 then 0 else -q.2.2 / g.2
  let m := if 0 < k ∧ k < g.1 then (afterJerk q k g.2).2.1 else e.2.1
  decide ((g.2.natAbs : Int) ≤ if jerk then j else a) && (!jerk || decide ((e.2.2.natAbs : Int) ≤ a)) && decide ((e.2.1.natAbs : Int) ≤ v) &&
    (!jerk || decide ((m.natAbs : Int) ≤ v))

/-- Every segment of a plan keeps the limits, and the plan ends at its goal: at rest within one count of the target position, or at the target velocity with what one run can still change (R156, R157). -/
def planEnds (jerk : Bool) (v a j : Int) (goal : Bool × Int) : Int × Int × Int → List (Nat × Int) → Bool
  | q, [] => if goal.1 then decide (((q.2.1 - goal.2).natAbs : Int) ≤ a) else decide ((q.1 - goal.2).natAbs < 2 ^ 32) && decide ((q.2.1.natAbs : Int) ≤ a)
  | q, g :: r => segOk jerk v a j q g && planEnds jerk v a j goal (afterSeg jerk q g) r

/-- Runs of a plan. -/
def planRuns (l : List (Nat × Int)) : Nat := (l.map (fun g => g.1)).sum

/-- Least number whose square is at least `n`. -/
def sqrtUp (n : Nat) : Nat := let r := Nat.sqrt n; if r * r < n then r + 1 else r

/-- Runs of the jerk phases and of the phase between them, for a change of velocity by `d`: the times of R156 rounded up to whole runs. -/
def phases (jerk : Bool) (a j d : Int) : Nat × Nat :=
  let d : Int := d.natAbs
  if d = 0 then (0, 0)
  else if !jerk then (0, ceilDiv d a)
  else
    let n := if a * a ≤ d * j then ceilDiv a j else sqrtUp (ceilDiv d j)
    (n, ceilDiv d a - n)

/-- Runs of a change of velocity. -/
def phaseRuns (p : Nat × Nat) : Int := 2 * p.1 + p.2

/-- Twice the weight of the change in the distance travelled: the acceleration's mean place among the runs. -/
def phaseMean (jerk : Bool) (p : Nat × Nat) : Int := if phaseRuns p = 0 then 0 else phaseRuns p + (if jerk then 2 else 1)

/-- Twice the distance of a change of velocity from `u` to `v` in the phases `p`. -/
def phaseDist (jerk : Bool) (p : Nat × Nat) (u v : Int) : Int := 2 * phaseRuns p * u + (v - u) * phaseMean jerk p

/-- The segments of a change of velocity by `d` in the phases `p`, its jerk or acceleration reduced in proportion (R156). -/
def phaseSegs (jerk : Bool) (p : Nat × Nat) (d : Int) : List (Nat × Int) :=
  if jerk then
    let y := if p.1 = 0 then 0 else d.tdiv ((p.1 * (p.1 + p.2) : Nat) : Int)
    [(p.1, y), (p.2, 0), (p.1, -y)]
  else [(p.2, if p.2 = 0 then 0 else d.tdiv p.2)]

/-- Twice the distance of a motion from velocity `u` over `v` to rest. -/
def moveDist (jerk : Bool) (a j u v : Int) : Int :=
  phaseDist jerk (phases jerk a j (v - u)) u v + phaseDist jerk (phases jerk a j v) v 0

/-- The highest velocity between `lo` and `lo + 2^n` from which the move still ends short of twice the distance `d`: a move too short reaches a lower peak. -/
def peakOf (jerk : Bool) (a j u d : Int) : Nat → Int → Int
  | 0, lo => lo
  | n + 1, lo => let m := lo + 2 ^ n; peakOf jerk a j u d n (if moveDist jerk a j u m ≤ d then m else lo)

/-- The segments of a move of distance `d` ahead, from velocity `u` toward the target and no acceleration, that need not reverse. -/
def aheadSegs (jerk : Bool) (v a j u d : Int) : List (Nat × Int) :=
  let top := if moveDist jerk a j u v ≤ 2 * d then v else min v (peakOf jerk a j u (2 * d) 64 u)
  let p := phases jerk a j (top - u)
  let p := if phaseRuns p = 0 ∧ u ≠ 0 then (if jerk then (1, 0) else (0, 1)) else p
  let q := phases jerk a j top
  let rest := 2 * d - phaseDist jerk p u top - phaseDist jerk q top 0
  let n := if rest ≤ 0 then 0 else ceilDiv rest (2 * top)
  let w := phaseMean jerk p + 2 * n + 2 * phaseRuns q - phaseMean jerk q
  let peak := if w = 0 then 0 else (2 * d - 2 * phaseRuns p * u + u * phaseMean jerk p) / w
  phaseSegs jerk p (peak - u) ++ [(n, 0)] ++ phaseSegs jerk q (-peak)

/-- A list of segments mirrored. -/
def mirrorSegs (l : List (Nat × Int)) : List (Nat × Int) := l.map (fun g => (g.1, -g.2))

/-- The segments of a move of signed distance `d` from rest. -/
def restSegs (jerk : Bool) (v a j d : Int) : List (Nat × Int) :=
  if d = 0 then [] else if 0 < d then aheadSegs jerk v a j 0 d else mirrorSegs (aheadSegs jerk v a j 0 (-d))

/-- A move that ends at rest: where the target lies behind, or is passed before rest, the channel comes to rest and reverses (R156). -/
def moveSegs (jerk : Bool) (v a j u d : Int) : List (Nat × Int) :=
  let u' := if 0 ≤ d then u else -u
  let stop := phases jerk a j u
  if 0 ≤ u' ∧ phaseDist jerk stop u' 0 ≤ 2 * (d.natAbs : Int) ∧ u' ≤ v then
    if u' = 0 then restSegs jerk v a j d else if 0 ≤ d then aheadSegs jerk v a j u' d else mirrorSegs (aheadSegs jerk v a j u' (-d))
  else phaseSegs jerk stop (-u) ++ restSegs jerk v a j (d - phaseDist jerk stop u 0 / 2)

/-- The plan that the model forms: an acceleration in force is brought to 0 first, then the velocity or the position is reached in the shortest phases. -/
def ownPlan (jerk : Bool) (v a j : Int) (q : Int × Int × Int) (goal : Bool × Int) : List (Nat × Int) :=
  let n := if jerk then ceilDiv q.2.2.natAbs j else 0
  let first : List (Nat × Int) := if n = 0 then [] else [(n, (-q.2.2).tdiv n)]
  let q := first.foldl (afterSeg jerk) q
  let rest := if goal.1 then phaseSegs jerk (phases jerk a j (goal.2 - q.2.1)) (goal.2 - q.2.1) else moveSegs jerk v a j q.2.1 (goal.2 - q.1)
  (first ++ rest).filter (fun g => g.1 != 0)

/-- The plan of a motion under limits of velocity, acceleration and jerk, from a state to a goal (R156). The stewards' own plan is open in its rounding: it is free among the plans that keep the limits, reach the goal and take no more runs than the model's, and else it is the model's (log 16). -/
def planOf (jerk : Bool) (v a j : Int) (q : Int × Int × Int) (goal : Bool × Int) : List (Nat × Int) :=
  let own := ownPlan jerk v a j q goal
  let l := (Config.plan jerk v a j q goal).filter (fun g => g.1 != 0)
  if planEnds jerk (max v q.2.1.natAbs) (max a q.2.2.natAbs) j goal q l && decide (planRuns l ≤ planRuns own) then l else own

end Sys2Proof.Machine
end

