-- ==== Sys2Proof/Machine/MotionOps.lean ====
section
/-! DEFINITION. The motion generator: profiles, gearing, cams, interpolated paths, stops and the boundary's motion events (R150 to R170). -/

namespace Sys2Proof.Machine

/-! ## Profiles (R154 to R157) -/

/-- Velocity, acceleration and jerk limits of a channel in run units (R149, R155). -/
def limits (s : State) (c : Nat) : Int × Int × Int :=
  (vUnits s c (b32Rat (motAct s c 5)), aUnits s c (b32Rat (motAct s c 6)), jUnits s c (b32Rat (motAct s c 9)))

/-- The goal of a plan: a velocity, or a position in 32.32 (R156, R157). -/
def goalOf (spd : Bool) (tgt : Int) : Bool × Int := (spd, if spd then tgt else tgt * 2 ^ 32)

/-- The segments of a plan from the state of a profile to a goal (R156); a limit that is less than one unit counts as one. -/
def Prof.planned (x : Prof) (jerk : Bool) (l : Int × Int × Int) (spd : Bool) (tgt : Int) : List (Nat × Int) :=
  planOf jerk (max 1 l.1) (max 1 l.2.1) (max 1 l.2.2) (x.p, x.v, x.a) (goalOf spd tgt)

/-- A profile set out on a plan. -/
def Prof.follow (x : Prof) (jerk spd : Bool) (tgt : Int) (segs : List (Nat × Int)) : Prof :=
  { x with jerk := jerk, busy := true, spd := spd, tgt := tgt, segs := segs }

/-- The end of a plan (R157). -/
def Prof.finish (x : Prof) : Prof :=
  if x.spd then { x with v := x.tgt, a := 0, busy := false, segs := [] }
  else { x with p := x.tgt * 2 ^ 32, v := 0, a := 0, busy := false, segs := [] }

/-- One run of a profile (R154). -/
def Prof.run (x : Prof) : Prof :=
  if x.busy then
    match x.segs with
    | [] => Prof.finish { x with p := wrapI 96 (x.p + x.v) }
    | (n, y) :: r =>
      let a := wrapI 64 (if x.jerk then x.a + y else y)
      let v := wrapI 64 (x.v + a)
      let z := { x with a := a, v := v, p := wrapI 96 (x.p + v), segs := if n ≤ 1 then r else (n - 1, y) :: r }
      if z.segs = [] then z.finish else z
  else { x with a := 0, p := wrapI 96 (x.p + x.v) }

/-- One run under a constant deceleration `d`, at rest in the run in which the sign would change (R166). -/
def Prof.brake (x : Prof) (d : Int) : Prof :=
  let v := if 0 ≤ x.v then max 0 (x.v - d) else min 0 (x.v + d)
  { x with a := v - x.v, v := v, p := wrapI 96 (x.p + v), busy := false, segs := [] }

/-- The set-point of a profile: whole counts, 64 bits (R154). -/
def Prof.out (x : Prof) : Int := wrapI 64 (x.p / 2 ^ 32)

/-- A profile at rest at a count. -/
def Prof.at_ (p : Int) : Prof := { p := p * 2 ^ 32 }

/-! ## Cam tables (R161, R162) -/

/-- Block of cam table `t` in service. -/
def camBlock (s : State) (t : Nat) : Nat := rd s (Reg.MOTION_CAM_BLOCK t)
/-- Header word of a cam table that begins at block `b`. -/
def camHead (s : State) (b i : Nat) : Nat := mnum s (cistAddr (256 * b + 4 * i)) 4
/-- SPER of a cam table. -/
def camSper (s : State) (b : Nat) : Int := sgn 64 (camHead s b 2 + 2 ^ 32 * camHead s b 3)
/-- Y_j of a cam table, extended without end. -/
def camY (s : State) (b : Nat) (j : Int) : Int :=
  let n : Int := camHead s b 0
  sgn 32 (mnum s (cistAddr (256 * (b + 1) + 4 * (j % n).toNat)) 4) + j / n * camSper s b

/-- The follower's advance at master advance `x` (R162). -/
def camOut (s : State) (b : Nat) (x : Int) : Int :=
  let n : Int := camHead s b 0
  let mper : Int := camHead s b 1
  let k := x / mper
  let t := (x - k * mper) * n
  let i := t / mper
  let u := (t - i * mper) * 2 ^ 23 / mper
  let ym := camY s b (i - 1)
  let y0 := camY s b i
  let y1 := camY s b (i + 1)
  let y2 := camY s b (i + 2)
  let c1 := y1 - ym
  let c2 := 2 * ym - 5 * y0 + 4 * y1 - y2
  let c3 := -ym + 3 * y0 - 3 * y1 + y2
  k * camSper s b + y0 + rnd (c1 * u * 2 ^ 46 + c2 * u ^ 2 * 2 ^ 23 + c3 * u ^ 3) 70

/-! ## Runs -/

/-- The master value of a follower. -/
def masterNow (s : State) (c : Nat) : Int := sgn 64 (ptVal s (motMaster s c))

/-- Gear numerator and denominator (R149). -/
def gearOf (s : State) (c : Nat) : Int × Int := (sgn 32 (motAct s c 2), motAct s c 3)

/-- The actual position of a channel: axis point 1, or a virtual axis's own set-point (R170). -/
def pActOf (s : State) (c : Nat) : Int := if c < 1024 then sgn 64 (ptVal s (axPt c 1)) else (mot s c).pSet

/-- Engagement to the master, which must be at rest (R159, R162). -/
def runEngage (s : State) (c : Nat) (x : MotSt) (m : Int) : State × MotSt :=
  if m = x.mPrev then
    (s, { x with rel := x.engage, engage := .own, old := .own, m0 := m, mPrev := m, pf := x.pSet, pf0 := x.pSet, rem := 0, sup := {}, st := 2, dPrev := 0 })
  else (post s 0x300D 3 c, { x with engage := .own, mPrev := m, dPrev := 0 })

/-- One run of a gear follower (R159). -/
def runGear (s : State) (c : Nat) (x : MotSt) (m : Int) : State × MotSt :=
  let dm := m - x.mPrev
  let sup := x.sup.run
  if 2 ^ 31 ≤ dm.natAbs then
    let f := free s
    let pf := sgn 64 f.1
    let q := wrapI 64 (pf + sup.out)
    (libStop f.2 c 3, { x with ovf := true, mPrev := m, pf := pf, sup := sup, pSet := q, dPrev := q - x.pSet })
  else
    let g := gearOf s c
    let num := g.1 * dm + x.rem
    let df := num / g.2
    let pf := wrapI 64 (x.pf + df)
    let q := wrapI 64 (pf + sup.out)
    (s, { x with mPrev := m, pf := pf, rem := num - df * g.2, sup := sup, pSet := q, dPrev := wrapI 64 (q - x.pSet) })

/-- One run of a cam follower (R162). -/
def runCam (s : State) (c : Nat) (x : MotSt) (m : Int) : MotSt :=
  let sup := x.sup.run
  let pf := wrapI 64 (x.pf0 + camOut s (camBlock s (bits 5 0 (motAct s c 4))) (m - x.m0))
  let q := wrapI 64 (pf + sup.out)
  { x with mPrev := m, pf := pf, sup := sup, pSet := q, dPrev := wrapI 64 (q - x.pSet) }

/-- One run of a channel with a profile of its own, or of a path variable (R154, R164, R166). -/
def runProf (x : MotSt) : MotSt :=
  let pr := if x.st = 3 then x.prof.brake x.decel else x.prof.run
  let q := if x.rel = .path then wrapI 64 (x.p0 + x.dp * (pr.p / 2 ^ 32) / x.len) else pr.out
  let x := { x with prof := pr, pSet := q, dPrev := wrapI 64 (q - x.pSet) }
  if x.st = 1 ∧ ¬ pr.busy ∧ ¬ pr.spd then
    { x with st := 0, rel := .own, prof := if x.rel = .path then Prof.at_ q else pr }
  else x

/-- One run of a re-registering move (R170). -/
def runRereg (x : MotSt) : MotSt :=
  let pr := x.prof.run
  { x with prof := pr, pSet := pr.out, dPrev := wrapI 64 (pr.out - x.pSet), rmove := pr.busy, rereg := !pr.busy }

/-- The new state of a channel at a run of its generator. -/
def runChan (s : State) (c : Nat) : State × MotSt :=
  let x := mot s c
  let m := if motSrc s c = 1 then masterNow s c else 0
  if x.rmove then (s, runRereg x)
  else if x.st = 5 then (s, { x with dPrev := 0, mPrev := if x.rel = .own then m else x.mPrev })
  else if x.engage ≠ .own then runEngage s c x m
  else
    match x.rel with
    | .gear => runGear s c x m
    | .cam => (s, runCam s c x m)
    | _ => (s, { runProf x with mPrev := m })

/-- The channels that a stop brings to rest together with `c`: its motion group, or itself alone where the master is no motion channel (R165, R166). -/
def restGroup (s : State) (c : Nat) : List Nat := if 4096 ≤ keyOf s c then [c] else groupOf s c

/-- A motion group in STOPPING comes to rest: every channel of it is STOPPED (R166). -/
def settleStop (s : State) (c : Nat) : State :=
  let g := restGroup s c
  if (mot s c).st = 3 ∧ g.all (fun d => (mot s d).prof.v == 0 && !(mot s d).sup.busy) then
    g.foldl (fun s d => if (mot s d).st = 3 then setMot s d { mot s d with st := 4 } else s) s
  else s

/-- The motion status word (R151). -/
def MotSt.word (x : MotSt) : Nat :=
  x.st + b2n x.lost * 8 + b2n x.staged.isSome * 16 + x.grade * 32 + b2n x.ovf * 128

/-- v_prof and a_prof (R158): `d` is the previous run's change of the set-point. -/
def profOut (s : State) (c : Nat) (x : MotSt) (d : Int) : Bf × Bf :=
  let hz : Rat := 10 ^ 9 / (motTp s c : Rat)
  if x.grade = 3 then ({}, {})
  else if x.rel = .own ∧ ¬ x.rmove ∧ motSrc s c ≠ 2 then
    (bfOf ((x.prof.v : Rat) / 2 ^ 32 * hz), bfOf ((x.prof.a : Rat) / 2 ^ 32 * hz * hz))
  else (bfOf ((x.dPrev : Rat) * hz), bfOf (((x.dPrev - d : Int) : Rat) * hz * hz))

/-- The four points of a channel (R151). -/
def motPts (c : Nat) : Nat × Nat × Nat × Nat :=
  if c < 1024 then (axPt c 0, axPt c 11, axPt c 12, axPt c 13)
  else let v := c - 1024; (pt 26 (v / 16) (v % 16) 0, pt 26 (v / 16) (v % 16) 1, pt 26 (v / 16) (v % 16) 2, pt 26 (v / 16) (v % 16) 31)

/-- One run of the generator of a channel (R150, R151): the state, v_prof and a_prof, and the points it writes. -/
def genRun (s : State) (c : Nat) : State × (Bf × Bf) × List (Nat × Nat) :=
  if motEn s c then
    let d := (mot s c).dPrev
    let r := runChan s c
    let s := settleStop (setMot r.1 c r.2) c
    let x := mot s c
    let o := profOut s c x d
    let p := motPts c
    (s, o, [(p.1, unsgn 64 x.pSet), (p.2.1, bfPoint o.1), (p.2.2.1, bfPoint o.2), (p.2.2.2, x.word)])
  else (s, ({}, {}), [])

/-! ## Stops (R165 to R169) -/

/-- Least of a list of rationals, 0 of none. -/
def leastRat : List Rat → Rat
  | [] => 0
  | a :: r => r.foldl min a

/-- L of an interpolated move: the largest of the members' moves, and each member's share (R164). -/
def shareLimit (s : State) (g : List Nat) (w : Nat) (len : Int) : Rat :=
  leastRat ((g.filter (fun d => (mot s d).dp != 0)).map (fun d => b32Rat (motAct s d w) * len / ((mot s d).dp.natAbs : Rat)))

/-- The root deceleration of a stop of a motion group, in run units of channel `c` (R166): word 7 (DLIM) for a controlled stop, word 8 (QLIM) for a quick one. -/
def rootDecel (s : State) (c grade : Nat) : Int :=
  let g := groupOf s c
  let w := if grade = 1 then 7 else 8
  let k := keyOf s c
  if 4096 ≤ k then aUnits s c (b32Rat (motAct s c w))
  else if 2048 ≤ k then
    if (mot s c).rel = .path then aUnits s c (shareLimit s g w (mot s c).len) else aUnits s c (b32Rat (motAct s c w))
  else
    let own := b32Rat (motAct s k w)
    let fol := (g.filter (fun d => d != k)).filterMap (fun d =>
      match (mot s d).rel with
      | .gear => let q := gearOf s d; some (b32Rat (motAct s d 8) * q.2 / (q.1.natAbs : Rat))
      | .cam => some (b32Rat (motAct s d 8) / b32Rat (camHead s (camBlock s (bits 5 0 (motAct s d 4))) 4))
      | _ => none)
    aUnits s k (if grade = 1 then own else leastRat (own :: fol))

/-- The relation of a follower and its anchor are kept for REREG_MOVE (R170). -/
def MotSt.keepOld (x : MotSt) : MotSt :=
  match x.rel with
  | .gear | .cam => { x with old := x.rel, oldM := x.m0, oldP := x.pf0 }
  | _ => x

/-- A follower whose master is no motion channel leaves it, at the speed it had (R165). -/
def cutLoose (x : MotSt) : MotSt :=
  if x.rel = .own then x
  else { x.keepOld with rel := .own, sup := {}, prof := { p := x.pSet * 2 ^ 32, v := x.dPrev * 2 ^ 32 } }

/-- A stop of grade `g` takes effect on channel `c` of its group (R165, R166). -/
def stopChan (s : State) (c g : Nat) (d : Int) (ext : Bool) : State :=
  let x := mot s c
  let x := { x with staged := none, engage := .own, grade := g }
  if g = 3 then
    setMot s c { x with st := 5, lost := true, rereg := false, rmove := false, sup := { x.sup with busy := false, v := 0, a := 0, segs := [] },
                        prof := { x.prof with v := 0, a := 0, busy := false, segs := [] } }
  else
    let x := if ext then { cutLoose x with lost := true, rereg := false } else x
    setMot s c { x with st := 3, decel := d, rmove := false }

/-- PATH_LOST is set for a whole motion group (R170). -/
def losePath (s : State) (c : Nat) : State :=
  (groupOf s c).foldl (fun s d => setMot s d { mot s d with lost := true, rereg := false }) s

/-- A stop acts on the motion group of a channel, unless a stop of the same or a higher grade is in force (R168). -/
def stopGroup (s : State) (c g : Nat) : State :=
  if g ≤ (mot s c).grade then s
  else
    let d := rootDecel s c g
    let ext := 4096 ≤ keyOf s c
    (groupOf s c).foldl (fun t e => stopChan t e g (if ext then rootDecel s e g else d) ext) s

/-- The stops due at boundary `n`, by falling grade (R167, R168). -/
def applyStops (s : State) (n : Nat) : State :=
  let due := s.stops.filter (fun r => decide (r.due ≤ n))
  let s := { s with stops := s.stops.filter (fun r => !decide (r.due ≤ n)) }
  let act (s : State) (g : Nat) : State := due.foldl (fun s r =>
    if r.grade = g then
      match r.ch with
      | some c => if motEn s c then (let s := if g = 0 then s else stopGroup s c g; if r.lost then losePath s c else s) else s
      | none => (chans s).foldl (fun s c => stopGroup s c g) s
    else s) s
  act (act (act (act s 3) 2) 1) 0

/-- A stopped channel becomes IDLE at its set-point (R169). -/
def toIdle (x : MotSt) : MotSt :=
  { x with st := 0, grade := 0, rel := .own, old := .own, engage := .own, sup := {}, clrAt := none, ovf := false, prof := Prof.at_ x.pSet }

/-- STOP_CLR takes effect at boundary `n`, unless HALT was written in the same cycle (R168, R169). -/
def applyClr (s : State) (n : Nat) : State :=
  let halt := s.stops.any (fun r => r.ch.isNone && r.due == n + 1)
  (chans s).foldl (fun s c =>
    let x := mot s c
    if x.clrAt = some n then setMot s c (if halt then { x with clrAt := none } else toIdle x) else s) s

/-- A channel that needs re-registration when the path of its group is lost (R170). -/
def needsReg (s : State) (c : Nat) : Bool :=
  motSrc s c != 0 || (groupOf s c).all (fun d => motSrc s d == 0)

/-- PATH_LOST is cleared at the boundary at which the last channel that needs it is re-registered (R170). -/
def clearLost (s : State) : State :=
  let ok := (chans s).filter (fun c =>
    (mot s c).lost && (groupOf s c).all (fun d => !needsReg s d || (mot s d).rereg))
  ok.foldl (fun s c => setMot s c { mot s c with lost := false, rereg := false }) s

/-! ## Commands at their boundary (R152, R153, R164, R170) -/

/-- The move of a member from its set-point to its staged target. -/
def stagedMove (x : MotSt) : Int := match x.staged with | some t => t - x.pSet | none => 0

/-- L of an interpolated move as the members are staged (R164). -/
def groupLen (s : State) (c : Nat) : Int := (membersOf s c).foldl (fun m d => max m ((stagedMove (mot s d)).natAbs : Int)) 0

/-- The members take their moves and clear their targets (R164). -/
def groupStage (s : State) (c : Nat) (len : Int) : State :=
  (membersOf s c).foldl (fun s d => let x := mot s d; setMot s d { x with staged := none, dp := stagedMove x, p0 := x.pSet, len := len }) s

/-- Profile type and limits of the path variable: the type of the member with the longest move, the lowest channel on a tie (R164). -/
def groupKind (s : State) (c : Nat) (len : Int) : Bool × Int × Int × Int :=
  let g := membersOf s c
  let lead := (g.filter (fun d => ((mot s d).dp.natAbs : Int) == len)).headD c
  (bitOf 1 (motAct s lead 0), vUnits s c (shareLimit s g 5 len), aUnits s c (shareLimit s g 6 len), jUnits s c (shareLimit s g 9 len))

/-- REREG_SHIFT takes effect (R170). -/
def reregShift (s : State) (c : Nat) : State :=
  let x := mot s c
  let p := pActOf s c
  let m := if motSrc s c = 1 then masterNow s c else 0
  setMot s c { x with pSet := p, prof := Prof.at_ p, m0 := m, mPrev := m, rem := 0, pf := p, pf0 := p, sup := {}, staged := none, old := .own, rereg := true }

/-- A follower back on its old relation, at the position that this gives for the present master value (R170). -/
def oldPlace (s : State) (c : Nat) : MotSt :=
  let x := mot s c
  let m := masterNow s c
  let gone := x.rel = .own
  let y : MotSt := if x.old = .own then x else { x with rel := x.old, m0 := x.oldM, pf0 := x.oldP }
  let g := gearOf s c
  let num := g.1 * (m - y.m0)
  let z : MotSt :=
    match y.rel with
    | .gear => { y with pf := wrapI 64 (y.pf0 + num / g.2), rem := num % g.2 }
    | .cam => { y with pf := wrapI 64 (y.pf0 + camOut s (camBlock s (bits 5 0 (motAct s c 4))) (m - y.m0)) }
    | _ => { y with pf := y.pSet }
  { z with rel := if gone then .own else z.rel, mPrev := m }

/-- The plan that a command needs: whose it is (`true`: the superimposed move), the profile it starts from, jerk-limited or not, limits, and its goal (R156, R160, R164, R170). -/
def cmdPlan (s : State) (c : Nat) (k : MotCmd) : Option (Bool × Prof × Bool × (Int × Int × Int) × Bool × Int) :=
  let x := mot s c
  let jerk := bitOf 1 (motAct s c 0)
  let l := limits s c
  let from_ : Prof := if x.st = 1 then x.prof else Prof.at_ x.pSet
  match k.op with
  | 1 => if motSrc s c = 2 then none else some (false, from_, jerk, l, false, k.arg)
  | 2 => if motSrc s c = 2 then none
         else some (false, from_, jerk, l, false, wrapI 64 ((if x.st = 1 ∧ ¬ x.prof.spd then x.prof.tgt else x.pSet) + k.arg))
  | 3 => some (false, from_, jerk, l, true, max (-l.1) (min l.1 (vUnits s c (b32Rat k.spd.toNat))))
  | 7 => some (true, x.sup, jerk, l, false, x.sup.tgt + k.arg)
  | 8 => let len := groupLen s c
         if len = 0 then none else let g := groupKind (groupStage s c len) c len; some (false, {}, g.1, g.2, false, len)
  | 10 => some (false, Prof.at_ x.pSet, jerk, l, false, (oldPlace s c).pf + x.sup.out)
  | _ => none

/-- Runs of the generator of a channel from boundary `n` up to boundary `m` (R114, R150). -/
def runsTo (s : State) (c n m : Nat) : Nat :=
  let dp := if c < 1024 then axDp s c else 1
  let q := if c < 1024 then axDpq s c % dp else 0
  ((List.range (m - n)).filter (fun i => (n + i) % dp == q)).length

/-- A number of runs of a profile. -/
def Prof.runs : Nat → Prof → Prof
  | 0, x => x
  | n + 1, x => Prof.runs n x.run

/-- The command lead in cycles (R152). -/
def motLead (s : State) : Nat := max 2 ((250000 + period s - 1) / period s)

/-- A command's plan is formed for the state that the current plan gives at the command's first run (R152, R156). -/
def formPlan (s : State) (c n : Nat) (k : MotCmd) : Option PlanSt :=
  (cmdPlan s c k).map (fun g =>
    let q := Prof.runs (runsTo s c n k.due) g.2.1
    let l := g.2.2.2.1
    { p := q.p, v := q.v, a := q.a, goal := g.2.2.2.2.2, segs := q.planned g.2.2.1 l g.2.2.2.2.1 g.2.2.2.2.2 })

/-- The segments under which a command runs: those formed within its lead, or, where the state or the goal has come out otherwise, those of the plan from what they are (log 16); a standby never forms a plan. -/
def segsFor (s : State) (k : MotCmd) (q : Prof) (jerk : Bool) (l : Int × Int × Int) (spd : Bool) (tgt : Int) : List (Nat × Int) :=
  match k.plan with
  | some z => if role s = rSTANDBY ∨ (z.p = q.p ∧ z.v = q.v ∧ z.a = q.a ∧ z.goal = tgt) then z.segs else q.planned jerk l spd tgt
  | none => q.planned jerk l spd tgt

/-- The profile that a command sets out on. -/
def cmdProf (s : State) (c : Nat) (k : MotCmd) : Prof :=
  match cmdPlan s c k with
  | some (_, q, jerk, l, spd, tgt) => q.follow jerk spd tgt (segsFor s k q jerk l spd tgt)
  | none => (mot s c).prof

/-- GROUP_GO takes effect on every member; with L = 0 it completes at once (R164). -/
def groupGo (s : State) (c : Nat) (k : MotCmd) : State :=
  let len := groupLen s c
  let s1 := groupStage s c len
  if len = 0 then s1 else (membersOf s c).foldl (fun t d => setMot t d { mot t d with rel := .path, st := 1, prof := cmdProf s c k }) s1

/-- A command takes effect at its boundary. -/
def cmdEffect (s : State) (c : Nat) (k : MotCmd) : State :=
  let x := mot s c
  match k.op with
  | 1 | 2 =>
    if motSrc s c = 2 then setMot s c { x with staged := some (if k.op = 1 then k.arg else wrapI 64 (x.pSet + k.arg)) }
    else setMot s c { x with st := 1, prof := cmdProf s c k }
  | 3 => setMot s c { x with st := 1, prof := cmdProf s c k }
  | 4 => setMot s c { x with engage := .gear }
  | 5 => setMot s c { x with engage := .cam }
  | 6 =>
    setMot s c { x with rel := .own, st := 1, sup := {}, pf := x.pSet,
                        prof := { p := x.pSet * 2 ^ 32, v := x.dPrev * 2 ^ 32, spd := true, tgt := x.dPrev * 2 ^ 32 } }
  | 7 => setMot s c { x with sup := cmdProf s c k }
  | 8 => groupGo s c k
  | 9 => reregShift s c
  | 10 => setMot s c { oldPlace s c with rmove := true, prof := cmdProf s c k }
  | _ => s

/-- The state that a command of R153 asks of its channel: 0 where it is met, else RESULT (log 17 gives the order of the checks). -/
def cmdState (s : State) (c op : Nat) : Nat :=
  let x := mot s c
  let src := motSrc s c
  if ¬ motEn s c then 6
  else if 3 ≤ x.st ∧ op ≠ 9 ∧ op ≠ 10 then 3
  else if x.lost ∧ (op = 4 ∨ op = 5 ∨ op = 8) then 4
  else
    let ok : Bool :=
      match op with
      | 1 | 2 => (src == 0 && decide (x.st ≤ 1)) || (src == 2 && x.st == 0)
      | 3 => src == 0 && decide (x.st ≤ 1)
      | 4 => src == 1 && x.st == 0
      | 5 => src == 1 && x.st == 0 && on s (Reg.MOTION_CAM_VALID (bits 5 0 (motAct s c 4)))
      | 6 => src == 1 && x.st == 2
      | 7 => x.st == 2
      | 8 => src == 2 && (membersOf s c).all (fun d => (mot s d).st == 0)
      | 9 => decide (4 ≤ x.st) && x.lost
      | 10 => decide (4 ≤ x.st) && x.lost && src == 1
      | _ => false
    if ok then 0 else 2

/-- A standby that has not received the plan of a command does not carry it out (R152; log 40). -/
def lacksPlan (s : State) (c : Nat) (k : MotCmd) : Bool := role s == rSTANDBY && k.plan.isNone && (cmdPlan s c k).isSome

/-- The commands due at boundary `n`: each takes effect, or is discarded and logged where a stop acts on its channel at this boundary, or its channel no longer accepts it (R152, R168); `acted` tells the channels on which a stop acts. -/
def applyCmds (s : State) (n : Nat) (acted : Nat → Bool) : State :=
  (s.mots.map (fun e => e.1)).foldl (fun s c =>
    match (mot s c).cmd with
    | some k =>
      if k.due ≤ n then
        let s := setMot s c { mot s c with cmd := none }
        if cmdState s c k.op ≠ 0 ∨ acted c then postOther s 3 else if lacksPlan s c k then s else cmdEffect s c k
      else s
    | none => s) s

/-- Within the lead of a command its plan is formed and goes to the standby, which forms none (R152): once the runs of a cycle at most that many cycles before it are done. -/
def planCmds (s : State) : State :=
  let n := s.sched.cycle
  (s.mots.map (fun e => e.1)).foldl (fun s c =>
    match (mot s c).cmd with
    | some k =>
      if k.due ≤ n + motLead s ∧ k.plan.isNone ∧ role s ≠ rSTANDBY then
        match formPlan s c (n + 1) k with
        | some z => noteItem (setMot s c { mot s c with cmd := some { k with plan := some z } }) (.plan (Fin.ofNat 1056 c) k.due z)
        | none => s
      else s
    | none => s) s

/-- A standby puts a plan with the command that it was formed for (R152, R256). -/
def takePlan (s : State) (c due : Nat) (z : PlanSt) : State :=
  match (mot s c).cmd with
  | some k => if k.due = due then setMot s c { mot s c with cmd := some { k with plan := some z } } else s
  | none => s

/-- The motion events of boundary `n` (R152, R167 to R170). A stop acts on the channels whose grade it changes. -/
def motionBoundary (s : State) (n : Nat) : State :=
  let s := applyClr s n
  let t := applyStops s n
  clearLost (applyCmds t n (fun c => (mot t c).grade != (mot s c).grade))

end Sys2Proof.Machine
end

