-- ==== Sys2Proof/Machine/AxisLaw.lean ====
section
/-! DEFINITION. The control laws of the Clesen library, task by task (R114 to R141). -/

namespace Sys2Proof.Machine

/-- The results of a library task: the state, the points it forms, and whether a step of it left SAT or INV set (R139; log 12). -/
abbrev LibOut := State × List (Nat × Nat) × Bool

/-- The status point of an axis, as a result. -/
def statusPt (a : Nat) (x : AxisSt) : Nat × Nat := (axPt a 31, x.status)

/-- T_REF of the active record in seconds. -/
def tRef (s : State) (a : Nat) : Rat := (actWord s a 2 : Rat) / 10 ^ 9

/-! ## Feedback task -/

/-- Filtered velocity: feedback filter where it is in service (R121, R119). -/
def fbFilter (s : State) (a : Nat) (x : AxisSt) (v : Bf) : AxisSt × Bf :=
  if cfgBit s a 22 then
    let c (i : Nat) : Int := actI s a (46 + i)
    let r := x.fbf.run 2 [c 4, c 0, c 1] [c 2, c 3] 1 v
    ({ x with fbf := r.1 }, r.2)
  else (x, v)

/-- The observer (R127). -/
def observer (s : State) (a : Nat) (x : AxisSt) (v vPrev : Bf) : Bf :=
  if cfgBit s a 16 then
    let am := bfOf ((v.sub vPrev).rat / tRef s a)
    let tau := bfOfB32 (x.sent4.toNat % 2 ^ 32)
    let raw := tau.sub ((actBf s a 53 78 0).mul am)
    x.dHat.add ((Bf.of (actI s a 54) 0).mul (raw.sub x.dHat))
  else x.dHat

/-- A fresh position sample (R117, R136, R140). -/
def fbFresh (s : State) (a : Nat) (x : AxisSt) (p : Int) : AxisSt :=
  let x := ({ x with staleRun := 0 }).flag 5 false
  if x.first then { x with first := false, pAct := p, vFb := {} }
  else
    let r := fbFilter s a x (bfOf (((wrapI 64 (p - x.pAct) : Int) : Rat) / tRef s a))
    { r.1 with pAct := p, vFb := r.2, dHat := observer s a r.1 r.2 x.vFb }

/-- A stale position sample (R137): the axis, and whether feedback is now lost. -/
def fbStale (s : State) (a : Nat) (x : AxisSt) : AxisSt × Bool :=
  let x := ({ x with staleRun := min 255 (x.staleRun + 1), staleErr := min 65535 (x.staleErr + 1) }).flag 5 true
  if x.flags.getLsbD 0 then (x, false)
  else if x.staleRun ≤ bits 1 0 (actWord s a 59) then
    ({ x with pAct := wrapI 64 (x.pAct + rndRat (x.vFb.rat * tRef s a)), dHat := observer s a x x.vFb x.vFb }, false)
  else (x.flag 0 true, true)

/-- A component of the induced voltage: a NaN is 0 and an infinity the largest word, as F2B converts them (R96, R133; log 6). -/
def volts (w : Nat) : Rat := if b32Fin w then b32Rat w else (bfOfB32 w).rat

/-- Stall detection (R133, R134): the axis, and whether a stall is declared. -/
def stallTest (s : State) (a : Nat) (x : AxisSt) (v : Nat) (stale : Bool) : AxisSt × Bool :=
  if stale then (x, false)
  else
    let ed := volts (v % 2 ^ 32)
    let eq := volts (v / 2 ^ 32)
    let e2 := ed * ed + eq * eq
    let fl := b32Rat (actWord s a 89)
    let cfg := actWord s a 88
    let high := decide (fl ≤ 0 ∨ fl * fl ≤ e2)
    let slow := decide (((actBf s a 90 3 2).rat) > (Bf.of (x.vSet.w.natAbs : Int) x.vSet.x).rat)
    let low := if slow || high then 0 else x.lowRun + 1
    let hit := (high && decide (bits 23 8 cfg < (atan2 ed eq).natAbs)) || decide (0 < low ∧ bits 7 0 cfg ≤ low)
    ({ x with lowRun := low }, hit)

/-- The feedback task. -/
def fbTask (s : State) (a : Nat) : LibOut :=
  let x := axis s a
  if ¬ cfgBit s a 0 then (s, [], false)
  else
    let p := actWord s a 1 % 2 ^ 20
    let v := ptVal s p
    let st := ptStale s p
    if cfgBit s a 3 then
      if cfgBit s a 23 then
        let r := stallTest s a x v st
        let y := if r.2 then r.1.flag 2 true else r.1
        let s := setAxis s a y
        (if r.2 then faultReaction (axisFault s a 2) a else s, [statusPt a y], false)
      else (s, [], false)
    else
      let r := if st then fbStale s a x else (fbFresh s a x (sgn 64 v), false)
      let num := r.1.vFb.num || r.1.dHat.num
      let y := { r.1 with vFb := r.1.vFb.keep, dHat := r.1.dHat.keep }
      let s := setAxis s a y
      let s := if st then incErrPage s else s
      let s := if r.2 then libStop (axisFault s a 0) a 3 else s
      (s, [(axPt a 1, unsgn 64 y.pAct), (axPt a 2, bfPoint y.vFb), (axPt a 6, bfPoint y.dHat), statusPt a y], num)
where
  /-- A per-axis error counter that stays at its largest value sets SAT of the page (R15). -/
  incErrPage (s : State) : State :=
    if (axis s a).staleErr = 65535 ∧ x65535 then setStat s (Reg.HDR_PAGE_STAT_SAT 0x80) else s
  /-- The counter stood at its largest value before. -/
  x65535 : Bool := (axis s a).staleErr == 65535

/-! ## Position task (R114 to R120, R124, R138, R140, R150) -/

/-- The coefficients of a compensator from word `i` (R112): b0 … bN and n1 … nN. -/
def compCoef (s : State) (a i n : Nat) : List Int × List Int :=
  ((List.range (n + 1)).map (fun j => actI s a (i + j)), (List.range n).map (fun j => actI s a (i + 4 + j)))

/-- The position error through the position compensator, in CST and CSV (R117, R131, R132). -/
def posComp (s : State) (a : Nat) (x : AxisSt) (err : Int) : AxisSt × Bf :=
  if axMode s a = 2 ∨ cfgBit s a 3 then (x, {})
  else
    let n := if cfgBit s a 9 then 3 else 2
    let c := compCoef s a 4 n
    let r := x.pc.run n c.1 c.2 (actX s a 3 0) (bfOf (err : Rat))
    ({ x with pc := r.1 }, r.2)

/-- A re-initialised axis takes its set-point from its actual position; a relation it had is kept for REREG_MOVE (R140, R170). -/
def reAnchor (s : State) (a : Nat) : State :=
  let x := (mot s a).keepOld
  let p := (axis s a).pAct
  let m := if motSrc s a = 1 then masterNow s a else 0
  setMot s a { x with pSet := p, prof := { x.prof with p := p * 2 ^ 32 }, m0 := m, mPrev := m, rem := 0, pf := p, pf0 := p, sup := {} }

/-- The position task: motion generator, following error, velocity command (R115, R124, R138). A channel whose generator supplies no profile has v_prof and a_prof 0 (R124). -/
def posTask (s : State) (a : Nat) : LibOut :=
  if ¬ cfgBit s a 0 then (s, [], false)
  else
    let s := if (axis s a).vFirst then reAnchor s a else s
    let g := genRun s a
    let s := g.1
    let x := axis s a
    let pSet := (mot s a).pSet
    let err := wrapI 64 (pSet - x.pAct)
    let r := posComp s a x err
    let sl := cfgBit s a 3
    let ff := if sl then g.2.1.1 else if cfgBit s a 14 then (Bf.of (actI s a 51) 0).mul g.2.1.1 else {}
    let v := r.2.add ff
    let y := { r.1 with vOld := if x.vFirst then v.keep else x.vNew, vNew := v.keep, vFirst := false }
    let lim := actWord s a 58
    let fe := !sl && lim != 0 && decide (lim < err.natAbs)
    let y := if fe then y.flag 1 true else y
    let s := setAxis s a y
    let s := if fe then faultReaction (axisFault s a 1) a else s
    let pts := if motEn s a then g.2.2 else [(axPt a 11, 0), (axPt a 12, 0)]
    (s, pts ++ [(axPt a 10, unsgn 64 err), statusPt a y], v.num || g.2.1.1.num || g.2.1.2.num)

/-! ## Tension and third-level tasks (R128 to R131) -/

/-- The set-point of the span that axis `a` owns. -/
def tSet (s : State) (a : Nat) : Bf := actBf s a 74 78 2

/-- The tension estimate of an owned span (R128, R130). -/
def tenTask (s : State) (a : Nat) : LibOut :=
  if ¬ cfgBit s a 0 then (s, [], false)
  else
    let sc := actWord s a 72
    let x := axis s a
    let c (i : Nat) : Bf := actBf s a (75 + i) 78 3
    let dn := bits 22 13 sc
    let t :=
      if bitOf 0 sc then
        let p := actWord s a 73 % 2 ^ 20
        if ptStale s p then x.ten
        else
          let l := bfOfB32 (ptVal s p % 2 ^ 32)
          let w := l.at_ (actX s a 78 2)
          let l : Bf := { w := w.1, x := actX s a 78 2, num := l.num || w.2 }
          x.ten.add ((c 2).mul (l.sub x.ten))
      else if ptStale s (axPt a 2) ∨ ptStale s (axPt dn 2) then x.ten
      else
        let vo := x.vFb
        let vd := (axis s dn).vFb
        let up : Bf := if bitOf 12 sc then (axis s (bits 11 2 sc)).tenPrev else {}
        (x.ten.add ((c 0).mul (vd.sub vo))).add ((c 1).mul ((vo.mul up).sub (vd.mul x.ten)))
    (setAxis s a { x with ten := t.keep }, [(axPt a 7, bfPoint t), (axPt a 8, bfPoint (tSet s a))], t.num)

/-- The third-level loop (R131). -/
def thirdTask (s : State) (a : Nat) : LibOut :=
  let tl := actWord s a 86
  if ¬ cfgBit s a 0 ∨ ¬ bitOf 31 tl then (s, [], false)
  else
    let x := axis s a
    let e := if bitOf 30 tl then bfOf ((sgn 64 (ptVal s (tl % 2 ^ 20)) : Int) : Rat) else (tSet s a).sub x.ten
    let c := compCoef s a 79 3
    let r := x.tc.run 3 c.1 c.2 (actX s a 87 0) e
    (setAxis s a { x with tc := r.1, trim := r.2.keep }, [(axPt a 9, bfPoint r.2)], r.2.num)

/-! ## Velocity task (R115 to R120, R124 to R126, R129, R132) -/

/-- The interpolated velocity command (R115). -/
def vCmd (s : State) (a : Nat) (x : AxisSt) : Bf :=
  let dp := axDp s a
  let j := (s.sched.cycle + dp - axDpq s a % dp) % dp
  if dp = 1 then x.vNew
  else
    let e := max x.vOld.x x.vNew.x
    let o := x.vOld.at_ e
    let n := x.vNew.at_ e
    { w := o.1 + rnd ((n.1 - o.1) * ((j : Int) + 1)) (Nat.log2 dp), x := e, num := o.2 || n.2 }

/-- The friction term (R125). -/
def friction (s : State) (a : Nat) (v : Bf) : Bf :=
  let blk := actWord s a 60 % 2 ^ 15
  let f (i : Nat) : Int := sgn 32 (mnum s (cistAddr (256 * blk + 4 * i)) 4)
  let q := (Bf.of (v.w.natAbs : Int) v.x).rat / (actBf s a 61 3 2).rat
  let i := (q.num / (q.den : Int)).toNat
  let y : Int := if 31 ≤ i then f 31 else f i + rndRat (((f (i + 1) - f i : Int) : Rat) * (q - (i : Int)))
  .of (if v.w < 0 then -y else if v.w = 0 then 0 else y) (actX s a 3 3)

/-- The cogging term (R126). -/
def cogging (s : State) (a : Nat) (p : Int) : Bf :=
  let blk := actWord s a 62 % 2 ^ 15
  let per : Int := actWord s a 63
  let c (i : Nat) : Int := sgn 32 (mnum s (cistAddr (256 * blk + 4 * (i % 256))) 4)
  let phi := p % per * 256
  let i := (phi / per).toNat
  .of (c i + rndRat (((c (i + 1) - c i) * (phi % per) : Int) / per)) (actX s a 3 3)

/-- The span coupling sum (R129). -/
def coupling (s : State) (a : Nat) : Bf :=
  (List.range (min 4 (bits 21 19 (actWord s a 0)))).foldl (fun t i =>
    let sp := bits 9 0 (actWord s a (64 + i))
    t.add ((actBf s a (68 + i) 78 1).mul ((tSet s sp).sub (axis s sp).ten))) {}

/-- The notch cascade (R121). -/
def notches (s : State) (a : Nat) : Nat → List Stage → Nat → Bf → List Stage × Bf
  | _, [], _, v => ([], v)
  | i, f :: r, n, v =>
    if i < n then
      let c (j : Nat) : Int := actI s a (18 + 5 * i + j)
      let t := f.run 2 [c 4, c 0, c 1] [c 2, c 3] 1 v
      let q := notches s a (i + 1) r n t.2
      (t.1 :: q.1, q.2)
    else (f :: r, v)

/-- Torque feed-forward: acceleration, friction and cogging (R117 step 6); the acceleration only while its point is fresh and the generator supplies it (R124). -/
def torqueFf (s : State) (a : Nat) (x : AxisSt) (vset : Bf) : Bf :=
  let ap : Bf := if ptStale s (axPt a 12) || !motEn s a then {} else ofPoint (ptVal s (axPt a 12))
  let t : Bf := if cfgBit s a 15 then (actBf s a 52 78 0).mul ap else {}
  let t := if cfgBit s a 17 then t.add (friction s a vset) else t
  if cfgBit s a 18 then t.add (cogging s a x.pAct) else t

/-- Steps 2 to 9 of R117: the axis and the torque. -/
def torqueChain (s : State) (a : Nat) (x : AxisSt) (vset ff tc : Bf) : AxisSt × Bf :=
  let n := if cfgBit s a 10 then 3 else 2
  let c := compCoef s a 11 n
  let r := x.vc.run n c.1 c.2 (actX s a 3 1) (vset.sub x.vFb)
  let ufb := if cfgBit s a 16 then r.2.add ((Bf.of (actI s a 55) 0).mul x.dHat) else r.2
  let nn := min 4 (bits 13 11 (actWord s a 0))
  let q := notches s a 0 x.nf nn ufb
  let tu := (q.2.add ff).add (if bits 21 19 (actWord s a 0) = 0 then {} else tc)
  let t := tu.clamp (actBf s a 56 3 3)
  let vc := if t.2 then r.1.unwind (tu.sub t.1) else r.1
  (({ x with vc := vc, nf := q.1 }).flag 3 t.2, t.1)

/-- The velocity task. -/
def velTask (s : State) (a : Nat) : LibOut :=
  if ¬ cfgBit s a 0 then (s, [(axPt a 4, 0), (axPt a 5, 0)], false)
  else
    let x := axis s a
    let vu := (vCmd s a x).add x.trim
    let v := vu.clamp (actBf s a 57 3 2)
    let j0 := s.sched.cycle % axDp s a == axDpq s a % axDp s a
    let x := { x with vSet := v.1.keep, pc := if v.2 && j0 && axMode s a != 2 then x.pc.unwind (vu.sub v.1) else x.pc }
    let x := x.flag 4 v.2
    let lost := x.flags.getLsbD 0
    let ff := torqueFf s a x v.1.keep
    let tc := if bits 21 19 (actWord s a 0) = 0 then {} else coupling s a
    let ft := ff.add tc
    let pset := ptVal s (axPt a 0) % 2 ^ 32
    let o : AxisSt × Nat × List (Nat × Nat) × Bool :=
      match axMode s a with
      | 0 => let r := torqueChain s a x v.1.keep ff tc; (r.1, if lost then 0 else r.2.b32, [], r.2.num32)
      | 1 => (x.flag 3 false, if lost then 0 else v.1.b32 + ft.b32 * 2 ^ 32, [], v.1.num32 || ft.num32)
      | _ => (x.flag 3 false, if lost then (x.sent4.toNat % 2 ^ 32) else pset + v.1.b32 * 2 ^ 32,
              [(axPt a 5, if lost then 0 else ft.b32)], v.1.num32 || ft.num32)
    (setAxis s a o.1, [(axPt a 3, bfPoint v.1), (axPt a 4, o.2.1)] ++ o.2.2.1 ++ [statusPt a o.1], v.1.num || o.2.2.2)

/-- The library task that ends with the DONE of a task of axis `a` (R114, R150). -/
def libRun (s : State) (l : LibTask) (a : Option Nat) : LibOut :=
  match l, a with
  | .virt v, _ => let g := genRun s (1024 + v.val); (g.1, g.2.2, g.2.1.1.num || g.2.1.2.num)
  | .fb, some a => fbTask s a
  | .pos, some a => posTask s a
  | .ten, some a => tenTask s a
  | .vel, some a => velTask s a
  | .third, some a => thirdTask s a
  | _, _ => (s, [], false)

/-! ## Re-initialisation and commits (R123, R140, R143) -/

/-- Re-initialisation of an axis: its own state, and PATH_LOST for its motion group (R140, R167). -/
def reinit (s : State) (a : Nat) : State :=
  let x := axis s a
  let s := setAxis s a { x with pc := {}, vc := {}, tc := {}, nf := [{}, {}, {}, {}], fbf := {}, dHat := {}, first := true, vFirst := true,
                                vFb := {}, vOld := {}, vNew := {}, trim := {}, ten := tSet s a, flags := 0, staleRun := 0, lowRun := 0 }
  if motEn s a then losePath s a else s

/-- The words of two banks of an axis differ under a mask. -/
def recDiff (s : State) (a b i mask : Nat) : Bool := (recWord s a b i &&& mask) != (recWord s a (1 - b) i &&& mask)

/-- A commit put bank `b` of axis `a` into service: the library re-initialises, or only clears stages that come into service or change order (R140). -/
def afterAxisCommit (s : State) (a b : Nat) : State :=
  let n := recWord s a b 0
  let o := recWord s a (1 - b) 0
  if bitOf 0 n ∧ (¬ bitOf 0 o ∨ recDiff s a b 91 0xFFFFFFFF ∨ recDiff s a b 0 0x1FE ∨ recDiff s a b 1 0xFFFFF) then reinit s a
  else
    let x := axis s a
    let ch (i : Nat) : Bool := bitOf i n != bitOf i o
    let nn := bits 13 11 o
    setAxis s a { x with pc := if ch 9 then {} else x.pc, vc := if ch 10 then {} else x.vc, fbf := if ch 22 then {} else x.fbf, tc := if recDiff s a b 86 0x80000000 then {} else x.tc,
                         nf := (x.nf.zip (List.range 4)).map (fun f => if nn ≤ f.2 then {} else f.1) }

/-- The PERIOD bit of an axis: the T_REF of its active record differs from the cycle length in force (R123). -/
def markAxis (s : State) (a : Nat) : State :=
  let x := axis s a
  let d := on s Reg.AXIS_AREA_EN && actWord s a 2 != period s
  if x.period = d then s else setAxis s a { x with period := d }

/-- The PERIOD bit of every axis, after a bank swap (R123). -/
def markPeriod (s : State) : State := (List.range 1024).foldl markAxis s

end Sys2Proof.Machine
end

