-- ==== Sys2Proof/Machine/LeCtl.lean ====
section
/-! DEFINITION. Loop-engine control flow, EVT, task exit and the fault state (R85, R99 to R107). -/

namespace Sys2Proof.Machine

/-- B: a branch taken where the condition holds (R85); a reserved condition is illegal (R80). -/
def execB (e : Fin 64) (cond : Fin 32) (t : Fin 2048) (s : State) : Host.Outcome State Fault Refusal :=
  .next (branchOp s e (fun r =>
    if 12 < cond.val then (r, some .illegal)
    else if condHolds r cond.val then ({ leaveLoops r t.val with pc := t.val }, none) else ({ r with pc := r.pc + 1 }, none)) id)

/-- CALL: the index after it is pushed (R85); from 2,047 that index is 0 in the 11 bits of an index (DESIGN CHOICE, log 19: the rule does not say). -/
def execCall (e : Fin 64) (t : Fin 2048) (s : State) : Host.Outcome State Fault Refusal :=
  .next (branchOp s e (fun r =>
    if 4 ≤ r.stack.length then (r, some .stack) else ({ r with stack := (r.pc + 1) % 2048 :: r.stack, pc := t.val }, none)) id)

/-- RET: to the popped index (R85, R100). -/
def execRet (e : Fin 64) (s : State) : Host.Outcome State Fault Refusal :=
  .next (branchOp s e (fun r =>
    match r.stack with
    | [] => (r, some .stack)
    | t :: q => ({ leaveLoops r t with stack := q, pc := t }, none)) id)

/-- LOOP (R99 to R101); `ctl`: the end bundle is one of type 10 (R100). -/
def loopStart (r : LeRegs) (k : Fin 2) (rot creg ctl : Bool) (dn : Fin 32) (count : BitVec 12) (stop : Nat) : LeRegs × Option EngCause :=
  let o := r.lc[(1 - k)]
  let o' := r.lc[k]
  let n := if creg then sat 0 4095 (dI r dn) else ((count.toNat : Int), false)
  let r := stick r ccSAT n.2
  if r.lc[k].active || (rot && o.active && o.rot) || decide (stop ≤ r.pc) || (o.active && o.stop == stop) || ctl then (r, some .loop)
  else
    let r := if rot then { r with wct := 0 } else r
    if n.1 = 0 then ({ r with lc := r.lc.set k { o' with ctr := 0 }, pc := stop + 1 }, none)
    else ({ r with lc := r.lc.set k { active := true, ctr := BitVec.ofInt 12 n.1, start := r.pc + 1, stop := stop, rot := rot }, pc := r.pc + 1 }, none)

/-- The bundle at index `i` of the engine's IMEM is of type 10 (R81). -/
def isCtl (s : State) (e i : Nat) : Bool := bits 63 62 (mnum s (leAddr e (8 * i)) 8) == 2

/-- LOOP on counter `lc` (R99 to R101). -/
def execLoop (e : Fin 64) (lc : Fin 2) (rot creg : Bool) (dn : Fin 32) (count : BitVec 12) (stop : Fin 2048) (s : State) :
    Host.Outcome State Fault Refusal :=
  .next (branchOp s e (fun r => loopStart r lc rot creg (isCtl s e stop) dn count stop.val) id)

/-- EVT: the completion unit posts a flag to a task (R50, R106). -/
def execEvt (e : Fin 64) (reg : Bool) (da flag : Fin 32) (t : BitVec 13) (s : State) : Host.Outcome State Fault Refusal :=
  let k := if reg then (openBundle (eng s e)).r.d[da].toNat % 2 ^ 13 else t.toNat
  .next (branchOp s e (fun r => if flag = 0 then (r, some .illegal) else ({ r with pc := r.pc + 1 }, none))
    (fun s => postItem s pCompletion { edges := [2 ^ 30 + flag.val * 2 ^ 24 + k] }))

/-- The axis whose numeric status flag a DONE sets (R104). -/
def markNumeric (s : State) (t : Nat) : State :=
  match tdAxis s (bank s) t with
  | some a =>
    let t : State := { s with axes := tmod (fun _ => {}) s.axes a (fun x => { x with num := true }) }
    if rd s Reg.AXIS_SEL_AXIS = a ∧ ¬ (tget (fun _ => {}) s.axes a).num then raise t 0x80 2 else t
  | none => s

/-- The completion unit is stalled (R60). -/
def completionStalled (s : State) : Bool := (poster s pCompletion) != []

/-- What DONE does after its bundle: the DMA-out reads its words, the counters count, the engine takes other work unless the completion unit is stalled (R48, R60, R75, R104); a library task has formed its points (R114, R150). -/
def doneEnd (lib : LibTask) (e pc : Nat) (s : State) : State :=
  let x := eng s e
  if x.ph = .running then
    let l := libRun s lib (tdAxis s (bank s) x.task)
    let s := l.1
    let job : OutJob := { task := x.task, writes := outWrites s e (engHalf x) (bank s) x.task, pts := l.2.1, pc := pc }
    let bad := cc x.r ccSAT || cc x.r ccAOV || cc x.r ccINV || l.2.2
    let ph : Phase := if completionStalled s then .atDone else .idle
    let s := setEng s e { x with ph := ph, outq := x.outq ++ [job] }
    let s := incCnt s (Reg.LE_DONE_CNT_DONE_CNT e)
    if bad then markNumeric (incCnt s (Reg.LE_SAT_CNT_SAT_CNT e)) x.task else s
  else s

/-- DONE: no bundle follows it, so that it may stand at index 2,047 (R48, R104). -/
def execDone (e : Fin 64) (lib : LibTask) (s : State) : Host.Outcome State Fault Refusal :=
  .next (branchOp s e (fun r => (r, none)) (doneEnd lib e.val (eng s e).r.pc))

/-- What YIELD does after its bundle: the completion unit re-posts the task, and the engine waits until it is placed (R48, R105). -/
def yieldEnd (e : Nat) (s : State) : State :=
  let x := eng s e
  if x.ph = .running then
    let s := incCnt s (Reg.CLU_YIELD_CNT_YIELD_CNT (e / 16))
    postItem (setEng s e { x with ph := .atYield, wbit := x.wbit.filter (fun k => k.1 / 1024 % 2 != engHalf x) }) pCompletion { repost := some x.task, eng := some e }
  else s

/-- YIELD: no bundle follows it, so that it may stand at index 2,047 (R48, R105). -/
def execYield (e : Fin 64) (s : State) : Host.Outcome State Fault Refusal :=
  .next (branchOp s e (fun r => (r, none)) (yieldEnd e.val))

/-- LOCKUP: no bundle issued for 1,024 LE clocks while running (R107). -/
def execLockup (e : Fin 64) (s : State) : Host.Outcome State Fault Refusal :=
  .next (let x := eng s e; if x.ph = .running then engineFault (setEng s e (openBundle x)) e x.task (openBundle x).snap.pc .lockup else s)

/-- LOAD_EN of an engine that a LOADIMEM holds cannot be cleared (R72). -/
def holdLoad (was s : State) (m : Master) (e : Nat) : State :=
  let held := match s.sched.gcmd with | some g => g.load && g.engine == e | none => false
  if held && on was (Reg.LE_CTRL_LOAD_EN e) && !on s (Reg.LE_CTRL_LOAD_EN e) then
    errlog (wr s (Reg.LE_CTRL_LOAD_EN e) 1) (0x20 + e) 7 m (Reg.LE_CTRL_LOAD_EN e).addr
  else s

/-- CLR_FAULT: an engine leaves its fault state, withdrawn and idle: its WITHDRAW bit is set if it is not, which runs the capacity checker (R37, R107, R109). -/
def execClrFault (m : Master) (e : Fin 64) (w : W32) (s : State) : Host.Outcome State Fault Refusal :=
  .next (regAction s m (Reg.LE_CTRL_CLR_FAULT e).addr w (fun t =>
    let s := holdLoad s t m e
    if wbits (Reg.LE_CTRL_CLR_FAULT e) w = 1 ∧ (eng s e).ph = .fault then
      let s' := setEng (wr s (wdField e) 1) e { eng s e with ph := .idle }
      if on s (wdField e) then s' else capacityCheck s' (leMHz s')
    else s))

end Sys2Proof.Machine
end

