-- ==== Sys2Proof/Machine/Sched.lean ====
section
/-! DEFINITION. Scheduling commands: delay lists, gates, contexts, selection, prefetch, cluster DMA-in, shedding and withdrawal (R35, R53 to R58, R65, R68, R102, R103). -/

namespace Sys2Proof.Machine

/-! ## Delay lists and gates -/

/-- DELAY_LIST_RELEASE: the entries of the earliest tick left in the cluster's list, in index order (R58). -/
def execDelayListRelease (c : Fin 4) (s : State) : Host.Outcome State Fault Refusal :=
  .next (
    let l : List IntraEnt := tget (fun _ => []) s.sched.intraLeft c
    match l with
    | [] => s
    | x :: r =>
      let t := r.foldl (fun m e => min m e.tick) x.tick
      let due := l.filter (fun e => e.tick == t)
      let s := { s with sched := { s.sched with intraLeft := tput (fun _ => []) s.sched.intraLeft c (l.filter (fun e => e.tick != t)) } }
      if domOn s (dCLU c) then postItem s c { edges := due.map (fun e => 2 ^ 30 + e.flag * 2 ^ 24 + e.task) } else s)

/-- A cluster holds no token and every engine of it is idle (R35). -/
def gateEmpty (s : State) (c : Nat) : Bool :=
  (List.range 4).all (fun p => well s c p == []) &&
  (cluEngs c).all (fun e => (eng s e).lq == [] && (eng s e).pq == [] && (eng s e).pslot.isNone && (eng s e).ph == .idle && (eng s e).resume.isNone) &&
  !(mayStealFrom s c && (List.range 4).any (fun p => (well s ((c + 1) % 4) p).any (fun k => tdAff s (bank s) k.task c)))

/-- CLOCK_GATE_CLOSE: the gate of an empty cluster closes, having been open for `clocks` LE clocks (R35). -/
def execClockGateClose (c : Fin 4) (clocks : W32) (s : State) : Host.Outcome State Fault Refusal :=
  .next (
    if s.sched.gate.getLsbD c && gateEmpty s c then
      { s with sched := { s.sched with gate := s.sched.gate &&& ~~~ BitVec.ofNat 4 (2 ^ c.val),
                                       clocked := tmod (fun _ => 0) s.sched.clocked c (fun n => n + clocks.toNat) } }
    else s)

/-! ## Contexts (R56, R103) -/

/-- An engine begins the task of a token: its DMA-in runs. -/
def startTask (s : State) (e : Nat) (k : Tok) : State :=
  let s := { s with sched := { s.sched with ran := s.sched.ran ++ [(k.task, e)] } }
  setEng s e { eng s e with ph := .dmaIn, task := k.task, prio := tdPrio s (bank s) k.task, reserved := none }

/-- `n` free bytes (log 2). -/
def freeBytes (s : State) : Nat → List Byte × State
  | 0 => ([], s)
  | n + 1 => let f := free s; let g := freeBytes f.2 n; (BitVec.ofNat 8 f.1 :: g.1, g.2)

/-- CONTEXT_SAVE_DONE: the pre-empted task is in the resume slot, and the engine takes the token reserved to it (R56). The layout of the context area is internal. -/
def execContextSaveDone (e : Fin 64) (s : State) : Host.Outcome State Fault Refusal :=
  .next (
    let x := eng s e
    if x.ph = .saving then
      let sv : Saved := { task := x.task, prio := x.prio, r := if x.mid then x.snap else x.r }
      let f := freeBytes s 512
      let s := mwrite f.2 (clmAddr (e / 16) (cfg f.2 (Reg.LE_CTX_BASE_BASE e) * 512)) f.1
      let s := setEng s e { x with resume := some sv, ph := .idle, mid := false, wrote := [], stores := [], reserved := none }
      match x.reserved with
      | some k => startTask s e k
      | none => s
    else s)

/-- CONTEXT_RESTORE_DONE: the pre-empted task goes on from the bundle at which it stopped (R56). -/
def execContextRestoreDone (e : Fin 64) (s : State) : Host.Outcome State Fault Refusal :=
  .next (
    let x := eng s e
    match x.ph, x.resume with
    | .restoring, some v =>
      tryPreempt (setEng s e { x with ph := .running, task := v.task, prio := v.prio, r := v.r, snap := v.r, resume := none }) (e / 16)
    | _, _ => s)

/-! ## Engine selection (R53, R55) -/

/-- The head of the cluster's highest-priority non-empty well, with its priority. -/
def wellHead (s : State) (c : Nat) : Option (Nat × Tok) :=
  (List.range 4).findSome? (fun p => (well s c p).head?.map (fun k => (p, k)))

/-- The sibling engine whose local queue's head is oldest. -/
def oldestSibling (s : State) (e : Nat) : Option (Nat × Tok) :=
  (cluEngs (e / 16)).foldl (fun best i =>
    if i = e then best
    else
      match (eng s i).lq.head?, best with
      | some k, some b => if k.seq < b.2.seq then some (i, k) else best
      | some k, none => some (i, k)
      | none, _ => best) none

/-- The token that cluster `c` may steal: the oldest that may run there, of the next cluster's highest-priority well that holds one. -/
def stealTok (s : State) (c : Nat) : Option (Nat × Tok) :=
  if mayStealFrom s c then
    (List.range 4).findSome? (fun p => ((well s ((c + 1) % 4) p).find? (fun k => tdAff s (bank s) k.task c)).map (fun k => (p, k)))
  else none

/-- Remove a token from a well. -/
def dropTok (s : State) (c p : Nat) (k : Tok) : State := setWell s c p ((well s c p).filter (fun x => x.seq != k.seq))

/-- The head of an engine's own local queue, where it comes before the cluster's wells. -/
def ownHead (s : State) (e : Nat) : Option Tok :=
  match (eng s e).lq.head?, wellHead s (e / 16) with
  | some k, some w => if tdPrio s (bank s) k.task ≤ w.1 then some k else none
  | some k, none => some k
  | none, _ => none

/-- The work that an idle non-prefetch engine takes, in the order of R53. -/
def takeWork (s : State) (e : Nat) : State :=
  let c := e / 16
  match ownHead s e with
  | some k => startTask (setEng s e { eng s e with lq := (eng s e).lq.tail }) e k
  | none =>
    match wellHead s c with
    | some w => startTask (dropTok s c w.1 w.2) e w.2
    | none =>
      match oldestSibling s e with
      | some b => incCnt (startTask (setEng s b.1 { eng s b.1 with lq := (eng s b.1).lq.tail }) e b.2) (Reg.CLU_LSTEAL_CNT_LSTEAL_CNT c)
      | none =>
        match stealTok s c with
        | some t => incCnt (startTask (dropTok s ((c + 1) % 4) t.1 t.2) e t.2) (Reg.CLU_XSTEAL_CNT_XSTEAL_CNT c)
        | none => s

/-- ENGINE_SELECT: an idle engine of a cluster that takes part in this cycle takes work (R53, R55, R444). -/
def execEngineSelect (e : Fin 64) (s : State) : Host.Outcome State Fault Refusal :=
  .next (
    let x := eng s e
    if x.ph = .idle ∧ s.sched.part.getLsbD (e / 16) then
      if x.resume.isSome then setEng s e { x with ph := .restoring }
      else if withdrawn s e then s
      else if isPref s e then
        match x.pslot with
        | some p => startTask (setEng s e { x with pslot := none, taken := some p }) e p.tok
        | none => s
      else takeWork s e
    else s)

/-- PREFETCH_LOAD: an empty prefetch slot is loaded from the head of its queue (R55). -/
def execPrefetchLoad (e : Fin 64) (s : State) : Host.Outcome State Fault Refusal :=
  .next (
    let x := eng s e
    if isPref s e && x.pslot.isNone && s.sched.part.getLsbD (e / 16) then
      match x.pq with
      | k :: r =>
        let d := peekIn s (bank s) k.task (e / 16)
        let a := (readWords s (e / 16) (((inEntries s (taskList s (bank s) k.task)).1.flatMap entAddrs).take 64)).2
        setEng a e { eng a e with pslot := some { tok := k, words := d.1, pts := d.2 }, pq := r }
      | [] => s
    else s)

/-! ## Task entry (R102) -/

/-- The registers at a task's entry. -/
def entryRegs (s : State) (t stv : Nat) : LeRegs :=
  let w (i : Nat) : Nat := tdWord s (bank s) t i
  let g : Nat := t + bits 9 0 (w 3) * 2 ^ 16 + bits 10 10 (w 3) * 2 ^ 26
  { g := ((((Vector.replicate 16 (0 : W64)).set 12 (BitVec.ofNat 64 g)).set 13 (BitVec.ofNat 64 (w 13))).set 14 (BitVec.ofNat 64 (w 14))).set 15
      (BitVec.ofNat 64 (w 15)),
    stv := BitVec.ofNat 64 stv, cc := if stv = 0 then 0 else 0x40, pc := bits 26 16 (w 2) }

/-- DMA_IN_COMPLETE: the task's data stands in its half and its first bundle issues, or an entry of the list faults (R51, R55, R74, R78, R102, R107). -/
def execDmaInComplete (e : Fin 64) (s : State) : Host.Outcome State Fault Refusal :=
  .next (
    let x := eng s e
    if x.ph = .dmaIn then
      let c := e.val / 16
      let es := inEntries s (taskList s (bank s) x.task)
      let addrs := es.1.flatMap entAddrs
      let had := match x.taken with | some p => p.words | none => []
      let hadPts := match x.taken with | some p => p.pts | none => []
      let r := readWords s c (addrs.drop had.length)
      let pts := ptsOf addrs
      let flags := pts.map (fun p => match hadPts.find? (fun q => q.1 == p) with | some q => q.2 | none => cdmaStale s p)
      let s := clearHalf r.2 e (engHalf x)
      let s := placeWords s e (engHalf x) es.1 (had ++ r.1)
      let q := entryRegs s x.task (stvOf flags)
      let s := setEng s e { eng s e with r := q, snap := q, mid := false, wrote := [], stores := [], taken := none, ph := .running }
      match es.2 with
      | some f => engineFault s e x.task q.pc f
      | none => tryPreempt s c
    else s)

/-! ## Shedding and withdrawal -/

/-- SHED_MAP_WRITE: each bit written 1 requests the rejoin of its axis (R65). -/
def execShedMapWrite (m : Master) (i : Fin 32) (w : W32) (s : State) : Host.Outcome State Fault Refusal :=
  .next (pairAction s m (Reg.CYC_SHED_MAP i).addr w (fun s =>
    let asked := (List.range 32).filter (fun b => bitOf b w.toNat && on s (shedField (i * 32 + b)))
    { s with sched := { s.sched with rejoin := (s.sched.rejoin ++ asked.map (fun b => i.val * 32 + b)).dedup } }))

/-- An engine held withdrawn by the device: excluded at boot (R36, R392), under LOADIMEM (R72) or under test (R398). -/
def heldEngine (s : State) (e : Nat) : Bool :=
  engExcluded s e ||
  (match s.sched.gcmd with | some g => g.load && g.engine == e | none => false) ||
  s.tests.any (fun r => r.kind == .engine && r.index == e)

/-- WITHDRAW_WRITE: engines are withdrawn or returned, and the capacity checker runs at each change (R68). -/
def execWithdrawWrite (m : Master) (c : Fin 4) (w : W32) (s : State) : Host.Outcome State Fault Refusal :=
  .next (regAction s m (Reg.CLU_WITHDRAW c).addr w (fun s =>
    (List.range 16).foldl (fun s i =>
      let e := c.val * 16 + i
      if bitOf i w.toNat = withdrawn s e then s
      else if !bitOf i w.toNat && heldEngine s e then errlog s (0x10 + c) 7 m (Reg.CLU_WITHDRAW c).addr
      else
        let s := wr s (wdField e) (b2n (bitOf i w.toNat))
        capacityCheck s (leMHz s)) s))

end Sys2Proof.Machine
end

