-- ==== Sys2Proof/Machine/Install.lean ====
section
/-! DEFINITION. CYC.GCMD: the installation of graph banks and IMEM images (R59, R72, R443). -/

namespace Sys2Proof.Machine

/-! ## Image blocks (R443) -/

/-- A 32-bit word of an image that begins at cistern block `b`. -/
def imgWord (s : State) (b o : Nat) : Nat := mnum s (cistAddr (256 * b + o)) 4

/-- Every block of the image is host-owned. -/
def hostOwned (s : State) (b n : Nat) : Bool := allFloat s b n 1

/-- The image blocks go to the standby as background traffic (R256, R443). -/
def noteBlocks (s : State) (b n : Nat) : State :=
  (List.range n).foldl (fun s i => noteItem s (.block (BitVec.ofNat 15 (b + i)) 1 false 0 (cistBytes s (256 * (b + i)) 256))) s

/-- The stewards take the image blocks from the host, and the standby receives them (R443). -/
def holdBlocks (s : State) (b n : Nat) : State := passBlocks (noteBlocks s b n) b n 2

/-- The stewards give the image blocks back to the host. -/
def giveBack (s : State) (b n : Nat) : State := if domOn s dCIST then passBlocks s b n 1 else s

/-- A command is refused as it is written after its blocks, up to the first that the host does not own, were held: they return to the host (R443). -/
def holdAndReturn (s : State) (b n : Nat) : State :=
  let k := ((List.range n).takeWhile (fun i => decide (b + i < 32768) && flt s (b + i) == 1)).length
  passBlocks (passBlocks s b k 2) b k 1

/-- The length in bytes of an image whose second word states it, none where it is out of range (a multiple of 256, at most `lim`). -/
def imgLen (s : State) (b lim : Nat) : Option Nat :=
  let n := imgWord s b 4
  if n = 0 ∨ n % 256 ≠ 0 ∨ lim < n then none else some n

/-! ## The end of a command -/

/-- A GCMD command ends: RESULT, BUSY falls, event 8 (R421); a standby tells the active (R256). -/
def gcmdEnd (s : State) (result : Nat) : State :=
  let s := ackPeer (clearAck { s with sched := { s.sched with gcmd := none } } 1) 1
  raise (clrBusy (wr s Reg.CYC_GCMD_RESULT result) Reg.CYC_GCMD_BUSY) 0x14 8

/-- A GCMD command refused as it is written. -/
def gcmdRefuse (s : State) (result : Nat) : State := raise (wr s Reg.CYC_GCMD_RESULT result) 0x14 8

/-- A refusal of the image is recorded in GCHK (R59). -/
def gchk (s : State) (reason item : Nat) : State :=
  setSticky (wrs s [(Reg.CYC_GCHK_REASON, reason), (Reg.CYC_GCHK_ITEM, item)]) Reg.CYC_GCHK_VALID

/-! ## The graph image (R59) -/

/-- Cluster memory that a section covers: cluster, byte offset, length, and its data's offset in the image. -/
structure GSec where
  clu : Nat
  ofs : Nat
  len : Nat
  src : Nat
  word0 : Nat
  deriving DecidableEq, Repr

/-- Section `i` of the image at block `b`. -/
def gsec (s : State) (b i : Nat) : GSec :=
  let o := imgWord s b 36 + 12 * i
  let w := imgWord s b o
  { clu := bits 19 18 w, ofs := bits 17 0 w, len := imgWord s b (o + 4), src := imgWord s b (o + 8), word0 := w }

/-- Number of intra-cycle entries of cluster `c`. -/
def nIntra (s : State) (b c : Nat) : Nat := imgWord s b (16 + 4 * c)

/-- Intra-cycle entries of the clusters before `c`. -/
def intraBefore (s : State) (b c : Nat) : Nat := ((List.range c).map (nIntra s b)).sum

/-- Reason 1: the header and its tables (R59). -/
def gHeaderBad (s : State) (b len : Nat) : Bool :=
  let h (o : Nat) : Nat := imgWord s b o
  h 0 != 1 || h 8 / 2 ^ 16 != 0 || h 12 == 0 || decide (4096 < h 12) ||
  (List.range 4).any (fun c => decide (256 < nIntra s b c)) || decide (1024 < h 32) ||
  decide (len < h 36 + 12 * h 12) || decide (len < h 40 + 8 * intraBefore s b 4) || decide (len < h 44 + 8 * h 32) ||
  h 48 != 0 || h 52 != 0 || h 56 != 0 || h 60 != 0 ||
  (List.range (h 12)).any (fun i => let g := gsec s b i; g.src % 16 != 0 || decide (len < g.src + g.len))

/-- Two byte ranges meet. -/
def meets (a n b m : Nat) : Bool := decide (a < b + m) && decide (b < a + n)

/-- Reason 2: a section that may not be written (R59). -/
def gSecBad (s : State) (g : GSec) : Bool :=
  g.word0 / 2 ^ 20 != 0 || g.ofs % 16 != 0 || g.len % 16 != 0 || g.len == 0 || decide (131072 < g.len) || decide (0x40000 < g.ofs + g.len) ||
  !domOn s (dCLU g.clu) ||
  (inService s && (validTasks s (bank s)).any (fun t => t / 2048 == g.clu && meets g.ofs g.len (bank s * 0x20000 + 64 * (t % 2048)) 64)) ||
  (cluEngs g.clu).any (fun e => meets g.ofs g.len (cfg s (Reg.LE_CTX_BASE_BASE e) * 512) 512)

/-- The first section refused. -/
def gFirstSec (s : State) (b : Nat) : Option Nat := (List.range (imgWord s b 12)).find? (fun i => gSecBad s (gsec s b i))

/-- An edge is refused (R43): a reserved kind, FLAG with flag 0, a field that is not 0, or an entry out of range. -/
def edgeBad (w : Nat) : Bool :=
  bits 31 30 w == 3 || bits 23 13 w != 0 ||
  (bits 31 30 w == 1 && bits 28 24 w == 0) || (bits 31 30 w != 1 && bits 28 24 w != 0) ||
  (bits 31 30 w == 2 && (bitOf 29 w || bitOf 12 w))

/-- A descriptor is refused, or an edge of it is (R42, R43). -/
def descBad (s : State) (b t : Nat) : Bool :=
  let w (i : Nat) : Nat := tdWord s b t i
  bits 28 27 (w 0) == 1 || !bitOf (23 + home t) (w 0) || bits 22 20 (w 0) != 0 || bits 17 12 (w 0) != 0 ||
  bits 31 27 (w 2) != 0 || bits 31 30 (w 3) != 0 || bits 15 11 (w 3) != 0 || bits 31 4 (w 4) != 0 ||
  decide (8 < bits 3 0 (w 4)) || (tdEdges s b t).any edgeBad

/-- Reason 3: the first task refused. -/
def gFirstTask (s : State) (b : Nat) : Option Nat := ((validTasks s b).mergeSort (fun x y => x ≤ y)).find? (descBad s b)

/-- The intra-cycle entries of a cluster in an image: tick, task, flag, and whether a bit that must be 0 is set. -/
def imgIntra (s : State) (b c : Nat) : List (IntraEnt × Bool) :=
  (List.range (nIntra s b c)).map (fun i =>
    let o := imgWord s b 40 + 8 * (intraBefore s b c + i)
    let w := imgWord s b o
    let v := imgWord s b (o + 4)
    ({ tick := bits 14 0 w, task := bits 12 0 v, flag := bits 20 16 v }, bits 31 15 w != 0 || bits 15 13 v != 0 || bits 31 21 v != 0))

/-- The inter-cycle entries of an image. -/
def imgInter (s : State) (b : Nat) : List (InterEnt × Bool) :=
  (List.range (imgWord s b 32)).map (fun i =>
    let o := imgWord s b 44 + 8 * i
    let w := imgWord s b o
    let v := imgWord s b (o + 4)
    ({ per := bits 15 0 w, ph := bits 31 16 w, task := bits 12 0 v, flag := bits 20 16 v, post := bitOf 31 v },
     bits 15 13 v != 0 || bits 30 21 v != 0))

/-- An intra-cycle entry that a cycle of `ns` refuses (R58). -/
def intraLong (ns : Nat) (e : IntraEnt) : Bool := decide (ns ≤ e.tick * 125)

/-- An ARM entry that names a task with LISTARM = 0 in bank `b` (R58). -/
def armBad (s : State) (b : Nat) (e : InterEnt) : Bool := !e.post && !tdListarm s b e.task

/-- Reason 4: the first delay-list entry refused; `g` is the graph bank that is being installed. -/
def gFirstEntry (s : State) (b g : Nat) : Option Nat :=
  let intra := (List.range 4).flatMap (imgIntra s b)
  let inter := imgInter s b
  let bad := intra.map (fun e => e.2 || e.1.flag == 0 || intraLong 4000000 e.1) ++
    inter.map (fun e => e.2 || e.1.per == 0 || decide (e.1.per ≤ e.1.ph) || (e.1.post && e.1.flag == 0) || (!e.1.post && e.1.flag != 0) ||
      armBad s g e.1)
  let i := bad.findIdx id
  if i < bad.length then some i else none

/-- Step 1 of R59: VALID is cleared in every descriptor of the bank. -/
def clearValid (s : State) (g : Nat) : State :=
  (validTasks s g).foldl (fun s t =>
    let a := clmAddr (t / 2048) (g * 0x20000 + 64 * (t % 2048) + 3)
    mput s a (mget s a &&& 0x7F)) { s with sched := { s.sched with gone := s.sched.gone.filter (fun x => x.bank != g) } }

/-- Steps 2 and 3 of R59: sections and delay lists are written. DESIGN CHOICE: a cluster that is not ON takes neither a section nor intra-cycle entries, which lie in its memories (R58; log 46). -/
def writeGraph (s : State) (b g : Nat) : State :=
  let s := (List.range (imgWord s b 12)).foldl (fun t i =>
    let x := gsec s b i
    if domOn s (dCLU x.clu) then mwrite t (clmAddr x.clu x.ofs) (cistBytes s (256 * b + x.src) x.len) else t) s
  let s := ((List.range 4).filter (fun c => domOn s (dCLU c))).foldl (fun t c =>
    { t with sched := { t.sched with intra := tput (fun _ => []) t.sched.intra (g * 4 + c) ((imgIntra s b c).map (fun e => e.1)) } }) s
  { s with sched := { s.sched with inter := tput (fun _ => []) s.sched.inter g ((imgInter s b).map (fun e => e.1)) } }

/-! ## The commands -/

/-- A GCMD command is written with operation `op`: what refuses it before it looks at its blocks. -/
def gcmdBusy (s : State) : Option Nat :=
  if on s Reg.CYC_GCMD_BUSY || on s Reg.LEMAC_SWAP_PEND then some 2
  else if !domOn s dCIST then some 3 else none

/-- Begin a GCMD command. -/
def gcmdStart (s : State) (load : Bool) (e b n : Nat) : State :=
  wr (clearAck { s with sched := { s.sched with gcmd := some { load := load, engine := e, blk := b, n := n } } } 1) Reg.CYC_GCMD_BUSY 1

/-- A GCMD command reaches the standby where it began: the write, after the image's blocks (R256). -/
def gcmdAction (s : State) (m : Master) (w : W32) (op : Nat) (f : State → State) : State :=
  pairActionWith s m Reg.CYC_GCMD.addr w (fun a b => if a.sched.gcmd.isNone && b.sched.gcmd.isSome then [writeItem a Reg.CYC_GCMD.addr w] else [])
    (fun s => if wbits Reg.CYC_GCMD_OP w = op then f s else s)

/-- GINSTALL: the image is held and its header and sections are checked; of an image whose LENGTH is out of range the first block alone is held (R59, R443; log 46). -/
def execGinstall (m : Master) (w : W32) (s : State) : Host.Outcome State Fault Refusal :=
  .next (gcmdAction s m w 1 (fun s =>
    match gcmdBusy s with
    | some c => gcmdRefuse s c
    | none =>
      let b := wbits Reg.CYC_GCMD_BLOCK w
      if !hostOwned s b 1 then gcmdRefuse s 4
      else
        match imgLen s b 0x100000 with
        | none => gcmdRefuse (gchk (giveBack (holdBlocks s b 1) b 1) 1 0) 1
        | some len =>
          let n := len / 256
          if !hostOwned s b n then gcmdRefuse (holdAndReturn s b n) 4
          else
            let h := holdBlocks s b n
            if gHeaderBad s b len then gcmdRefuse (gchk (giveBack h b n) 1 0) 1
            else
              match gFirstSec s b with
              | some i => gcmdRefuse (gchk (giveBack h b n) 2 i) 1
              | none => gcmdStart h false 0 b n))

/-- GINSTALL_COMPLETE: the shadow graph bank is written and checked (R59). DESIGN CHOICE: where the cistern has left ON meanwhile, the command goes on with what the image's memory then reads (log 46). In a pair it waits for the standby (R256). -/
def execGinstallComplete (s : State) : Host.Outcome State Fault Refusal :=
  .next (
    match s.sched.gcmd with
    | some c =>
      if c.load || waitsPeer s 1 then s
      else
        let g := 1 - bank s
        let b := c.blk
        let lost := (List.range (imgWord s b 12)).find? (fun i => let k := (gsec s b i).clu; c.lost.getLsbD k || !domOn s (dCLU k))
        let s := writeGraph (clearValid s g) b g
        let bad (s : State) (reason item : Nat) : State := gcmdEnd (giveBack (wr (gchk s reason item) Reg.CYC_GBANK_CHECKED 0) b c.n) 1
        match lost, gFirstTask s g, gFirstEntry s b g with
        | some i, _, _ => bad s 2 i
        | none, some t, _ => bad s 3 t
        | none, none, some e => bad s 4 e
        | none, none, none =>
          let s := wrs s [(Reg.CYC_GBANK_CHECKED, 1), (Reg.CYC_GBANK_SCHED, bits 15 0 (imgWord s b 8))]
          gcmdEnd (giveBack s b c.n) 0
    | none => s)

/-- An engine may be loaded: withdrawn, idle, LOAD_EN set, its cluster ON (R71, R72). -/
def loadable (s : State) (e : Nat) : Bool :=
  domOn s (dCLU (e / 16)) && withdrawn s e && (eng s e).ph == .idle && (eng s e).resume.isNone && on s (Reg.LE_CTRL_LOAD_EN e)

/-- LOADIMEM: the 64 image blocks are held (R72, R443). -/
def execLoadimem (m : Master) (w : W32) (s : State) : Host.Outcome State Fault Refusal :=
  .next (gcmdAction s m w 2 (fun s =>
    let e := wbits Reg.CYC_GCMD_ENGINE w
    let b := wbits Reg.CYC_GCMD_BLOCK w
    match gcmdBusy s with
    | some c => gcmdRefuse s c
    | none =>
      if !loadable s e then gcmdRefuse s 5
      else if !hostOwned s b 64 then gcmdRefuse (holdAndReturn s b 64) 4
      else gcmdStart (holdBlocks s b 64) true e b 64))

/-- A standby repeats a LOADIMEM: it withdraws its own engine, within its own capacity, whose checker runs, and loads the image once the engine is idle (R37, R72, R256; log 40). -/
def peerLoad (s : State) (w : W32) : State :=
  let e := wbits Reg.CYC_GCMD_ENGINE w
  let b := wbits Reg.CYC_GCMD_BLOCK w
  if (gcmdBusy s).isSome || !domOn s (dCLU (e / 16)) || !hostOwned s b 64 then ackPeer s 1
  else
    let was := withdrawn s e
    let s := if was then s else capacityCheck (wr s (wdField e) 1) (leMHz s)
    let s := gcmdStart (holdBlocks s b 64) true e b 64
    { s with sched := { s.sched with gcmd := s.sched.gcmd.map (fun c => { c with back := some was }) } }

/-- A standby's engine is returned after a LOADIMEM that succeeded (R256). -/
def peerReturn (s : State) (c : GCmd) : State :=
  if c.back = some false then let s := wr s (wdField c.engine) 0; capacityCheck s (leMHz s) else s

/-- The engine of a LOADIMEM is idle, as it is from the start at a unit that is no standby (R72, R256). -/
def loadReady (s : State) (c : GCmd) : Bool := c.back.isNone || ((eng s c.engine).ph == .idle && (eng s c.engine).resume.isNone)

/-- LOADIMEM_COMPLETE: the engine holds the image, or its readback differs, or its cluster has left ON and IMEM is partly written: how far is open, and its bytes are free values (R72; log 2). -/
def execLoadimemComplete (differs : Bool) (s : State) : Host.Outcome State Fault Refusal :=
  .next (
    match s.sched.gcmd with
    | some c =>
      if !c.load || waitsPeer s 1 || !loadReady s c then s
      else if c.lost.getLsbD (c.engine / 16) || !domOn s (dCLU (c.engine / 16)) then
        let f := free s
        let s :=
          if (dom s (dCLU (c.engine / 16))).st = .off then f.2
          else mwrite f.2 (leAddr c.engine 0) (cistBytes f.2 (256 * c.blk) (f.1 % 0x4001))
        let s := setEng s c.engine { eng s c.engine with partImem := true }
        gcmdEnd (giveBack s c.blk c.n) 5
      else
        let s := mwrite s (leAddr c.engine 0) (cistBytes s (256 * c.blk) 0x4000)
        let s := setEng s c.engine { eng s c.engine with partImem := differs }
        gcmdEnd (giveBack (if differs then s else peerReturn s c) c.blk c.n) (b2n differs)
    | none => s)

end Sys2Proof.Machine
end

