-- ==== Sys2Proof/Machine/Header.lean ====
section
/-! DEFINITION. Commands on the page header and the sump: LOCK, EVT_SET, ACK, ENTRY0_READ, COUNTER_CLEAR (R16, R407, R410, R415, R420). -/

namespace Sys2Proof.Machine

/-- The keys of the lock sequence (R410). -/
def lockKey1 : Nat := 0x0000C1E5
/-- Second key (R410). -/
def lockKey2 : Nat := 0x00005EC1

/-- Set or end the lock sequence of a page. -/
def setSeq (s : State) (p : Nat) (v : Option (Nat × Nat)) : State :=
  let l := s.lockSeq.filter (fun e => e.1 != p)
  { s with lockSeq := match v with | some e => l ++ [(p, e.1, e.2)] | none => l }

/-- A write of `w` to a page's LOCK register at register-bus clock `clk` (R410). -/
def lockWrite (s : State) (m : Master) (p w clk : Nat) : State :=
  let bad (s : State) : State := errlog (setSeq s p none) p 8 m 0x20
  match s.lockSeq.find? (fun e => e.1 == p) with
  | none =>
    if w = lockKey1 then setSeq s p (some (mcode m, clk))
    else if w = 0 then wr s (Reg.HDR_LOCK_LOCKED p) 1
    else bad s
  | some e =>
    if e.2.1 ≠ mcode m then bad s
    else if w = lockKey1 then setSeq s p (some (mcode m, clk))
    else if w = 0 then wr (setSeq s p none) (Reg.HDR_LOCK_LOCKED p) 1
    else if w = lockKey2 ∧ clk ≤ e.2.2 + 64 then wr (setSeq s p none) (Reg.HDR_LOCK_LOCKED p) 0
    else bad s

/-- LOCK (R410). -/
def execLock (m : Master) (page : BitVec 12) (w : W32) (clk : Nat) (s : State) : Host.Outcome State Fault Refusal :=
  .next (pageAccess s m (page.toNat * 0x1000 + 0x20) (.lock m page w clk) (fun s => lockWrite s m page.toNat w.toNat clk))

/-- EVT_SET: each bit written 1 sets that bit of EVT_PEND (R407). -/
def execEvtSet (m : Master) (page : BitVec 12) (w : W32) (s : State) : Host.Outcome State Fault Refusal :=
  .next (pageAccess s m (page.toNat * 0x1000 + 0x1C) (.reg m (BitVec.ofNat 24 (page.toNat * 0x1000 + 0x1C)) 4 (.write w)) (fun s =>
    (List.range 32).foldl (fun s b => if bitOf b w.toNat then raise s page.toNat b else s) s))

/-- ACK: entries of the sump are marked read (R415). -/
def execAck (m : Master) (w : W32) (s : State) : Host.Outcome State Fault Refusal :=
  .next (regAction s m Reg.SUMP_ACK.addr w (fun s =>
    let u := rd s Reg.SUMP_RPTR_UNREAD
    let n := min (wbits Reg.SUMP_ACK_N w) u
    wrs s [(Reg.SUMP_RPTR_INDEX, rd s Reg.SUMP_RPTR_INDEX + n), (Reg.SUMP_RPTR_UNREAD, u - n)]))

/-- ENTRY0_READ: the selected entry is latched, and INDEX may advance (R420). -/
def execEntry0Read (m : Master) (s : State) : Host.Outcome State Fault Refusal :=
  .next (pageAccess s m (Reg.SUMP_ENTRY_WORD 0).addr (.reg m (BitVec.ofNat 24 (Reg.SUMP_ENTRY_WORD 0).addr) 4 .read) (fun s =>
    let i := rd s Reg.SUMP_RSEL_INDEX
    let tail := on s Reg.SUMP_RSEL_TAIL
    let a := if tail then retAddr (0x200 + 16 * (i % 32)) else 0x10010000 + 16 * i
    let w (j : Nat) : Nat := mnum s (a + 4 * j) 4
    let s := wrs s ((List.range 4).map (fun j => (Reg.SUMP_ENTRY_WORD j, w j)))
    let next := if tail then i / 32 * 32 + (i + 1) % 32 else i + 1
    answer (if on s Reg.SUMP_RSEL_AUTOINC then wr s Reg.SUMP_RSEL_INDEX next else s) (w 0)))

/-- Every count field of the register that is written as zero becomes zero (R16, R413). -/
def clearCounts (s : State) (k w : Nat) : State :=
  if k % 0x1000 < 0x40 then s
  else (rowsAt k).foldl (fun s r => if r.acc = .cnt ∧ bits r.hi r.lo w = 0 then wr s ⟨k, r.hi, r.lo⟩ 0 else s) s

/-- COUNTER_CLEAR: zero clears, any other value leaves the counter (R16). -/
def execCounterClear (m : Master) (addr : BitVec 24) (w : W32) (s : State) : Host.Outcome State Fault Refusal :=
  .next (
    let k := addr.toNat - addr.toNat % 4
    regAction s m k w (fun s => clearCounts s k w.toNat))

end Sys2Proof.Machine
end

