-- ==== Sys2Proof/Machine/Cistern.lean ====
section
/-! DEFINITION. Commands on the cistern and the DMA channels: CAS, accesses, snapshots, DMA start (R324 to R326, R330, R334). -/

namespace Sys2Proof.Machine

/-! ## Floats (R324, R326) -/

/-- CAS: the request waits for its clock, and the writer's result reads not valid (R324). -/
def execCas (m : Master) (w : W32) (s : State) : Host.Outcome State Fault Refusal :=
  .next (regAction s m Reg.CIST_CAS.addr w (fun s =>
    if wbits Reg.CIST_CAS_NEW w = 2 ∧ roleBars s m then errlog s 0xB0 6 m Reg.CIST_CAS.addr
    else bput { s with casPend := s.casPend ++ [⟨m, w⟩] } m Reg.CIST_CAS_RES.addr 0))

/-- Place of a master in the order of float changes in one clock (R326). -/
def casRank : Master → Nat
  | .safetyProc => 0 | .steward0 => 1 | .steward1 => 2 | .receive => 3 | .transmit => 3
  | .cluDma c => 4 + c.val | .acq => 8 | .dmaEngine => 9 | .host => 10 | .device => 11 | .diagPort => 11 | .snapshot => 11

/-- The change that a CAS asks for is made (R324). -/
def casOk (s : State) (m : Master) (w : Nat) : Bool :=
  let b := bits 14 0 w
  let x := blk s b
  bits 29 28 w == x.flt.toNat && (ownerClass m == x.flt.toNat || x.flt == 0) && !inAxisArea s b && !x.excl && !s.pair.passes.any (fun q => q.blk == b)

/-- A float changes as a CAS asks. In a pair a block passes to engine ownership at the second boundary from now, in both units, and its content goes to the standby (R256); until then its float stands and no CAS changes it (log 40). -/
def casPass (s : State) (b new : Nat) (priv : Bool) : State :=
  if new = 2 ∧ mirrors s then
    let due := s.sched.cycle + 2
    noteItem { s with pair := { s.pair with passes := s.pair.passes ++ [⟨due, b, priv⟩] } }
      (.block (BitVec.ofNat 15 b) 2 priv due (cistBytes s (256 * b) 256))
  else setFloat s b new priv

/-- Perform one CAS (R324, R326). -/
def casOne (s : State) (r : CasReq) : State :=
  let w := r.w.toNat
  let b := bits 14 0 w
  let x := blk s b
  let ok := casOk s r.m w
  let s := bput s r.m Reg.CIST_CAS_RES.addr (2 ^ 31 + b2n ok * 2 ^ 30 + x.flt.toNat * 2 ^ 28 + b2n x.priv * 2 ^ 27 + b)
  if ok then casPass s b (bits 31 30 w) (bitOf 27 w)
  else incCnt s Reg.CIST_CASF_CNT_CASF_CNT

/-- The `k` oldest requests are performed in one clock, in the order of R326. -/
def casRun (s : State) (k : Nat) : State :=
  let now := (s.casPend.take k).mergeSort (fun a b => decide (casRank a.m ≤ casRank b.m))
  now.foldl casOne { s with casPend := s.casPend.drop k }

/-! ## Accesses (R325) -/

/-- CISTERN_ACCESS: one word, checked against its block's float and PRIVATE bit (R325). -/
def execCisternAccess (m : Master) (word : BitVec 21) (acc : WordAcc) (s : State) : Host.Outcome State Fault Refusal :=
  .next (domAccess s m dCIST 0xB0 (0x20000000 + 4 * word.toNat) (.cist m word acc) (fun s =>
    match acc with
    | .read => let f := cistRead s (ownerClass m) (mcode m) word.toNat; answer f.2 f.1
    | .write w => cistWrite s (ownerClass m) (mcode m) word.toNat w.toNat))

/-! ## Snapshots (R27, R330) -/

/-- Bytes that a snapshot of `n` points takes. -/
def snapBytes (n : Nat) : Nat := 16 * ((n + 2047) / 2048) + 12 * n

/-- SNAP_GO: the request is checked, refused or started (R330). -/
def execSnapGo (m : Master) (w : W32) (s : State) : Host.Outcome State Fault Refusal :=
  .next (regAction s m Reg.CIST_SNAP_CMD.addr w (fun s =>
    if wbits Reg.CIST_SNAP_CMD_GO w = 1 then
      if on s Reg.CIST_SNAP_CMD_BUSY then errlog s 0xB0 7 m Reg.CIST_SNAP_CMD.addr
      else
        let p := rd s Reg.CIST_SNAP_PT_POINT
        let n := rd s Reg.CIST_SNAP_N_COUNT
        let d := rd s Reg.CIST_SNAP_DST_BLOCK
        let nb := (snapBytes n + 255) / 256
        if n = 0 ∨ 1048576 < n ∨ 1048576 < p + n ∨ 32768 < d + nb ∨ ¬ allFloat s d nb (ownerClass m) then setSticky s Reg.CIST_SNAP_CMD_ERR
        else wr { s with snapRun := some { m := m, pt := p, left := n, dst := 256 * d }, snapLatch := [] } Reg.CIST_SNAP_CMD_BUSY 1
    else s))

/-- Write a list of words to consecutive cistern words with the snapshot writer's identity and the requester's class. -/
def snapWords (s : State) (k w : Nat) : List Nat → State
  | [] => s
  | v :: r => snapWords (cistWrite s k 14 w v) k (w + 1) r

/-- The words of the points latched: value, then descriptor, whose bits [31:1] are free (log 2). -/
def snapPts (s : State) : List (Nat × Nat × Nat) → List Nat × State
  | [] => ([], s)
  | (_, v, st) :: r =>
    let f := free s
    let g := snapPts f.2 r
    (v % 2 ^ 32 :: v / 2 ^ 32 :: (st + f.1 % 2 ^ 31 * 2) :: g.1, g.2)

/-- SNAPSHOT_PART: the points latched at the last downlink launch are written as one part (R27, R330). -/
def execSnapshotPart (s : State) : Host.Outcome State Fault Refusal :=
  .next (
    match s.snapRun with
    | some x =>
      if s.snapLatch = [] ∨ ¬ domOn s dCIST ∨ ¬ domOn s dNET then s
      else
        let n := s.snapLatch.length
        let f := snapPts s s.snapLatch
        let hd := [x.cyc % 2 ^ 32, x.cyc / 2 ^ 32, x.pt, n]
        let s := snapWords f.2 (ownerClass x.m) (x.dst / 4) (hd ++ f.1)
        let s := { s with snapLatch := [] }
        if x.left ≤ n then clrBusy (setSticky { s with snapRun := none } Reg.CIST_SNAP_CMD_DONE) Reg.CIST_SNAP_CMD_BUSY
        else { s with snapRun := some { x with pt := x.pt + n, left := x.left - n, dst := x.dst + 16 + 12 * n } }
    | none => s)

/-- The points of the next part are latched when the last downlink launch completes (R27). -/
def latchSnap (s : State) : State :=
  match s.snapRun with
  | some x => { s with snapRun := some { x with cyc := s.sched.cycle }, snapLatch := (List.range (min x.left 2048)).map (fun i => (x.pt + i, ptVal s (x.pt + i), b2n (ptStale s (x.pt + i)))) }
  | none => s

/-- A running snapshot is abandoned (R330). -/
def dropSnap (s : State) : State :=
  if s.snapRun.isSome then clrBusy (setSticky { s with snapRun := none, snapLatch := [] } Reg.CIST_SNAP_CMD_ERR) Reg.CIST_SNAP_CMD_BUSY
  else s

/-! ## DMA channels (R334, R336) -/

/-- DMA_GO: the chain at DESC starts (R334, R336). -/
def execDmaGo (m : Master) (c : Fin 8) (w : W32) (s : State) : Host.Outcome State Fault Refusal :=
  .next (regAction s m (Reg.HOST_DMA_CTRL c).addr w (fun s =>
    if wbits (Reg.HOST_DMA_CTRL_GO c) w = 1 then
      if on s (Reg.HOST_DMA_STAT_BUSY c) then errlog s 0xB1 7 m (Reg.HOST_DMA_CTRL c).addr
      else
        let p := rd64 s (Reg.HOST_DMA_DESC_LO_ADDR c) (Reg.HOST_DMA_DESC_HI_ADDR c)
        wr { s with dma := tput (fun _ => {}) s.dma c { ptr := p - p % 32 } } (Reg.HOST_DMA_STAT_BUSY c) 1
    else s))

end Sys2Proof.Machine
end

