-- ==== Sys2Proof/Machine/Surge.lean ====
section
/-! DEFINITION. Surge, the core voltage and the ageing plan (R380 to R384). -/

namespace Sys2Proof.Machine

/-! ## Grant and end (R382, R383) -/

/-- A signed 16-bit temperature in 0.125 °C. -/
def temp (v : Nat) : Int := sgn 16 v

/-- Why surge is refused, in the order that the model tries: unavailable, thermal, cooling, electrical, wear; 0 where it is granted (R382). -/
def surgeBar (s : State) : Nat :=
  if !on s Reg.AGE_PLAN_SURGE_OK || on s Reg.AGE_PLAN_CONS then 5
  else if 1080 < temp (rd s Reg.AGE_HOTSPOT_TEMP) then 1
  else if s.surge.coolMs ≠ 0 then 4
  else if rd s Reg.AGE_IMAX_LIMIT * 8 < rd s Reg.AGE_IOUT_CURRENT * 10 then 2
  else if rd s Reg.AGE_SURGE_H_LEFT = 0 then 3 else 0

/-- No grant, no surge and no fallback is in progress. -/
def surgeIdle (s : State) : Bool := !on s Reg.AGE_SURGE_PEND && !on s Reg.AGE_SURGE_GRANTED && !s.surge.fallAt

/-- A grant begins: PEND, the Surge PLL, the check at 1,000 MHz, the voltage (R383). -/
def surgeStart (s : State) : State :=
  let s := wr { s with surge := { s.surge with pll := true, target := 850, riseAt := false } } Reg.AGE_SURGE_PEND 1
  capacityCheck s 1000

/-- A refusal or an end is recorded (R383). -/
def surgeNote (s : State) (cause : Nat) : State := incCnt (wr s Reg.AGE_SURGE_CAUSE cause) Reg.AGE_REFUSE_CNT_COUNT

/-- REQ is set while nothing is in progress: surge is granted, or refused with its cause where `count` asks for it. -/
def surgeTry (s : State) (count : Bool) : State :=
  let c := surgeBar s
  if on s Reg.AGE_SURGE_REQ && surgeIdle s then
    if c = 0 then surgeStart s else if count then (let s := surgeNote s c; capacityCheck s (leMHz s)) else s
  else s

/-- Surge ends by `cause`, or a grant in progress is abandoned (R383, R384). -/
def surgeEnd (s : State) (cause : Nat) : State :=
  if on s Reg.AGE_SURGE_PEND || (on s Reg.AGE_SURGE_GRANTED && !s.surge.fallAt) then
    let s := post (surgeNote s cause) 0x5006 5 cause
    let s := if cause = 1 then { s with surge := { s.surge with coolMs := 1000 * rd s Reg.AGE_SURGE_COOL_S } } else s
    let s :=
      if on s Reg.AGE_SURGE_PEND then
        wr { s with surge := { s.surge with pll := false, riseAt := false, target := rd s Reg.AGE_PLAN_VNOM } } Reg.AGE_SURGE_PEND 0
      else { s with surge := { s.surge with fallAt := true, fallNs := s.time.ns } }
    capacityCheck s 800
  else s

/-- SURGE_CLOCK_CHANGE: what a boundary changes: the fallback at least 2 µs after its decision, or the rise of a grant (R383). -/
def surgeBoundary (s : State) : State :=
  if s.surge.fallAt then
    if s.surge.fallNs + 2000 ≤ s.time.ns then
      surgeTry (wr { s with surge := { s.surge with fallAt := false, pll := false, target := rd s Reg.AGE_PLAN_VNOM } } Reg.AGE_SURGE_GRANTED 0) false
    else s
  else if s.surge.riseAt then
    incCnt (wrs { s with surge := { s.surge with riseAt := false } } [(Reg.AGE_SURGE_PEND, 0), (Reg.AGE_SURGE_GRANTED, 1)]) Reg.AGE_SURGE_CNT_COUNT
  else s

/-! ## Commands -/

/-- SURGE_REQ: REQ is set or cleared (R382, R384). -/
def execSurgeReq (m : Master) (w : W32) (s : State) : Host.Outcome State Fault Refusal :=
  .next (regAction s m Reg.AGE_SURGE.addr w (fun s =>
    let old := on s Reg.AGE_SURGE_REQ
    let new := wbits Reg.AGE_SURGE_REQ w = 1
    let s := wr s Reg.AGE_SURGE_REQ (wbits Reg.AGE_SURGE_REQ w)
    if new ∧ ¬ old then surgeTry s true else if old ∧ ¬ new then surgeEnd s 7 else s))

/-- SURGE_VOLTAGE_REACHED: the clocks rise at the next boundary (R383). -/
def execSurgeVoltageReached (s : State) : Host.Outcome State Fault Refusal :=
  .next (if on s Reg.AGE_SURGE_PEND && s.surge.vdd == s.surge.target then { s with surge := { s.surge with riseAt := true } } else s)

/-- SURGE_SAMPLE: hot spot and core current, every 1 ms; surge ends on the first limit broken, or starts where REQ still waits (R382, R384). -/
def execSurgeSample (hot current : BitVec 16) (s : State) : Host.Outcome State Fault Refusal :=
  .next (
    if domOn s dSTEWARD then
      let s := wr s Reg.AGE_HOTSPOT_TEMP hot.toNat
      let s := if temp (rd s Reg.AGE_HOTSPOT_PEAK) < hot.toInt then wr s Reg.AGE_HOTSPOT_PEAK hot.toNat else s
      let s := if on s Reg.AGE_IMAX_EST || on s Reg.AGE_PMB_VID then wr s Reg.AGE_IOUT_CURRENT current.toNat else s
      let s := { s with surge := { s.surge with coolMs := s.surge.coolMs - 1 } }
      if surgeIdle s then surgeTry s false
      else if 1120 ≤ hot.toInt then surgeEnd s 1
      else if rd s Reg.AGE_IMAX_LIMIT ≤ rd s Reg.AGE_IOUT_CURRENT then surgeEnd s 2
      else if rd s Reg.AGE_SURGE_H_LEFT = 0 then surgeEnd s 3
      else s
    else s)

/-- SURGE_HOUR: an hour of surge is begun and its fuse is blown (R382). -/
def execSurgeHour (s : State) : Host.Outcome State Fault Refusal :=
  .next (
    if on s Reg.AGE_SURGE_PEND || on s Reg.AGE_SURGE_GRANTED then
      let n := s.surge.usedH + 1
      let s := emit { s with surge := { s.surge with usedH := n } } (.fuseBlown 0 n)
      wrs s [(Reg.AGE_SURGE_H_USED, n), (Reg.AGE_SURGE_H_LEFT, rd s Reg.AGE_SURGE_H_LEFT - 1)]
    else s)

/-- A PMBus or voltage fault (R381): counted, logged with the status word, and surge ends or is refused with cause 6. -/
def pmbFault (s : State) : State :=
  let s := post (incErr s Reg.AGE_PMB_ERR_PMB_ERR) 0x5007 5 s.surge.status
  let s := { s with surge := { s.surge with pmbFails := 0, ioutFails := 0, target := s.surge.vdd } }
  surgeEnd s 6

/-- The next voltage, one step of at most 10 mV nearer to the target (R381). -/
def nextVdd (s : State) : Nat := if s.surge.vdd ≤ s.surge.target then min s.surge.target (s.surge.vdd + 10) else max s.surge.target (s.surge.vdd - 10)

/-- VOLTAGE_STEP: the core voltage moves one step; `vout` is what READ_VOUT finds, none where the transaction fails (R381). -/
def execVoltageStep (vout : Option Nat) (s : State) : Host.Outcome State Fault Refusal :=
  .next (
    if s.surge.vdd = s.surge.target then s
    else
      let v := nextVdd s
      let vid := on s Reg.AGE_PMB_VID
      let s := emit s (if vid then .vid ((v - 700) / 5) else .pmbusVout v)
      match vout with
      | some r =>
        let s := { s with surge := { s.surge with pmbFails := 0 } }
        if 15 < (r : Int) - v ∨ (r : Int) - v < -15 then pmbFault s else { s with surge := { s.surge with vdd := v } }
      | none =>
        if 2 ≤ s.surge.pmbFails then pmbFault s else { s with surge := { s.surge with pmbFails := s.surge.pmbFails + 1 } })

/-- READ_IOUT: the core current of the regulator, every 1 ms (R381, R382). -/
def execReadIout (current : Option (BitVec 16)) (s : State) : Host.Outcome State Fault Refusal :=
  .next (
    if on s Reg.AGE_IMAX_EST || on s Reg.AGE_PMB_VID || !domOn s dSTEWARD then s
    else
      match current with
      | some c => wr { s with surge := { s.surge with ioutFails := 0 } } Reg.AGE_IOUT_CURRENT c.toNat
      | none => if 2 ≤ s.surge.ioutFails then pmbFault s else { s with surge := { s.surge with ioutFails := s.surge.ioutFails + 1 } })

/-- PMB_ALERT: STATUS_WORD is read (R381). -/
def execPmbAlert (status : BitVec 16) (s : State) : Host.Outcome State Fault Refusal :=
  .next (emit { s with surge := { s.surge with status := status.toNat } } .pmbusReadStatus)

/-! ## The plan (R380) -/

/-- A re-plan is asked for: it joins the queue of R399, and its outcome shows in AGE.REPLAN. -/
def askReplan (s : State) : State :=
  if on s Reg.AGE_REPLAN_BUSY then s
  else if 16 ≤ s.tests.length then wr s Reg.AGE_REPLAN_RESULT 1
  else
    let r : TestReq := { kind := .replan, tag := 0, index := 0, wasWithdrawn := false, running := false }
    showQueue (wr { s with tests := s.tests ++ [r] } Reg.AGE_REPLAN_BUSY 1)

/-- REPLAN: a write of AGE.REPLAN, or the 24 h timer (R380). -/
def execReplan (src : ReplanSrc) (s : State) : Host.Outcome State Fault Refusal :=
  .next (
    match src with
    | .write m w => regAction s m Reg.AGE_REPLAN.addr w (fun s => if wbits Reg.AGE_REPLAN_REQ w = 1 then askReplan s else s)
    | .timer => if domOn s dSTEWARD then askReplan s else s)

/-- The voltage of a plan: 25 mV over the lowest passing one, rounded up to 5 mV, within 0.72–0.88 V (R380). -/
def planVnom (vpass : Nat) : Nat := min 880 (max 720 ((vpass + 25 + 4) / 5 * 5))

/-- A plan takes effect (R380). -/
def setPlan (s : State) (p : PlanMeas) : State :=
  let vnom := planVnom p.vpass
  let ok := p.surgePass && !on s Reg.AGE_PLAN_CONS
  let s := wrs { s with boot := { s.boot with plan := some p } } [(Reg.AGE_STAT_LIFE, min p.months 0xFFFF), (Reg.AGE_STAT_MARGIN, p.slack.toNat), (Reg.AGE_PLAN_SURGE_OK, b2n ok),
    (Reg.AGE_PLAN_VSURGE, if ok then 850 else 0), (Reg.AGE_PLAN_VNOM, vnom), (Reg.AGE_FMAX_CLU, p.fmax.toNat),
    (Reg.AGE_SURGE_H_LEFT, min (8760 - s.surge.usedH) p.ageHours), (Reg.AGE_REPLAN_RESULT, 0)]
  let s := { s with surge := { s.surge with planAt := some (rtcCount s / 10 ^ 9) } }
  let s := if on s Reg.AGE_SURGE_PEND || on s Reg.AGE_SURGE_GRANTED then s else { s with surge := { s.surge with target := vnom } }
  let weak := (List.range 4).filter (fun c => decide (bits (8 * c + 7) (8 * c) p.fmax.toNat < 80) && domOn s (dCLU c))
  let s := weak.foldl (fun s c => wr s (Reg.CLU_WITHDRAW_ENG c) 0xFFFF) s
  if weak = [] then s else capacityCheck s (leMHz s)

/-- A re-plan leaves the queue. -/
def replanOut (s : State) : State := showQueue (clrBusy { s with tests := s.tests.filter (fun r => r.kind != .replan) } Reg.AGE_REPLAN_BUSY)

/-- REPLAN_COMPLETE: the running re-plan ends with a plan, or keeps the previous one (R380). -/
def execReplanComplete (plan : Option PlanMeas) (s : State) : Host.Outcome State Fault Refusal :=
  .next (
    if s.tests.any (fun r => r.kind == .replan && r.running) then
      match plan with
      | some p => replanOut (setPlan s p)
      | none => replanOut (postOther (wr s Reg.AGE_REPLAN_RESULT 2) 5)
    else s)

end Sys2Proof.Machine
end

