-- ==== Sys2Proof/Machine/Axis.lean ====
section
/-! DEFINITION. Commands of the AXIS page and the checks of a parameter commit (R110, R122, R143 to R147). -/

namespace Sys2Proof.Machine

/-- Some axis runs: its active record has CFG.EN = 1 (R110). -/
def anyAxisRuns (s : State) : Bool := on s Reg.AXIS_AREA_EN && (List.range 1024).any (fun a => cfgBit s a 0)

/-- The blocks of the axis parameter area become engine-owned and PRIVATE when it is put in force; they stay so when EN is cleared or the area moves, until their owner releases them (R110; DESIGN CHOICE, log 45: the rule does not say that they are released). -/
def holdArea (s : State) : State :=
  if on s Reg.AXIS_AREA_EN ∧ domOn s dCIST then
    let b := 4096 * rd s Reg.AXIS_AREA_SLICE
    (List.range 4096).foldl (fun s i => let x := blk s (b + i); setBlk s (b + i) { x with flt := 2, priv := true, prev := x.flt }) s
  else s

/-- AXIS_AREA_WRITE (R110). -/
def execAxisAreaWrite (m : Master) (w : W32) (s : State) : Host.Outcome State Fault Refusal :=
  .next (
    let k := Reg.AXIS_AREA.addr
    regAction s m k w (fun s =>
      if locked s 0x80 then
        (if rd s Reg.AXIS_AREA_EN = wbits Reg.AXIS_AREA_EN w ∧ rd s Reg.AXIS_AREA_SLICE = wbits Reg.AXIS_AREA_SLICE w then s
         else errlog s 0x80 3 m k)
      else if anyAxisRuns s then errlog s 0x80 7 m k
      else holdArea (wrs s [(Reg.AXIS_AREA_EN, wbits Reg.AXIS_AREA_EN w), (Reg.AXIS_AREA_SLICE, wbits Reg.AXIS_AREA_SLICE w)])))

/-- The window can be reached: CIST is ON and the area is enabled (R147). -/
def winOpen (s : State) : Bool := domOn s dCIST && on s Reg.AXIS_AREA_EN

/-- A write to a pending record withdraws its axis from a commit that awaits its boundary (R144). -/
def withdrawAxis (s : State) (a : Nat) : State :=
  match s.commit with
  | some c => if c.axes.contains a then postOther { s with commit := some { c with axes := c.axes.filter (fun b => b != a) } } 3 else s
  | none => s

/-- A word of the shadow record of an axis is written: PEND is set (R143). -/
def writeRec (s : State) (a i v : Nat) : State :=
  let s := withdrawAxis s a
  let x := axis s a
  setAxis (msetNum s (recAddr s a (1 - b2n x.act) i) 4 v) a { x with pend := true }

/-- AXIS_WINDOW_WRITE (R143, R147). -/
def execAxisWindowWrite (m : Master) (i : Fin 128) (w : W32) (s : State) : Host.Outcome State Fault Refusal :=
  .next (
    let k := (Reg.AXIS_WIN i).addr
    pairAction s m k w (fun s =>
      if ¬ winOpen s ∨ on s Reg.AXIS_SEL_VIEW then errlog s 0x80 7 m k
      else writeRec s (rd s Reg.AXIS_SEL_AXIS) i w.toNat))

/-- An AXIS command: refused with RESULT 2 or 4, or performed at once, in one burst, so that BUSY never reads 1 and RESULT 3 does not arise (R145, R147; log 45). -/
def axisDo (s : State) (f : State → State) : State :=
  if ¬ domOn s dCIST then wr s Reg.AXIS_CMD_RESULT 2
  else if ¬ on s Reg.AXIS_AREA_EN then wr s Reg.AXIS_CMD_RESULT 4
  else f (wr s Reg.AXIS_CMD_RESULT 0)

/-- LOAD or MARK: the standby repeats the command (R256). -/
def axisCmd (s : State) (m : Master) (w : W32) (op : Nat) (f : State → State) : State :=
  pairOp s m Reg.AXIS_CMD.addr w (wbits Reg.AXIS_CMD_OP w = op) (fun s => axisDo s f)

/-- The page's BUSY falls at the end of a command (R407). -/
def cmdDone (s : State) (p : Nat) : State := raise s p 3

/-- AXIS_LOAD: shadow ← active, PEND cleared (R145). -/
def execAxisLoad (m : Master) (w : W32) (s : State) : Host.Outcome State Fault Refusal :=
  .next (axisCmd s m w 1 (fun s =>
    let a := rd s Reg.AXIS_SEL_AXIS
    let s := withdrawAxis s a
    let x := axis s a
    let b := b2n x.act
    let s := mwrite s (recAddr s a (1 - b) 0) (mread s (recAddr s a b 0) 512)
    cmdDone (setAxis s a { x with pend := false }) 0x80))

/-- MARK: PEND set (R143); it writes no word of a record, so that an axis that awaits a commit stays in it (R144). -/
def execMark (m : Master) (w : W32) (s : State) : Host.Outcome State Fault Refusal :=
  .next (axisCmd s m w 2 (fun s =>
    let a := rd s Reg.AXIS_SEL_AXIS
    cmdDone (setAxis s a { axis s a with pend := true }) 0x80))

/-- The five words of a notch: b1, b2, n1, n2, b0 at exponent 1, every operation rounded to binary64 (R121, R122; log 5). -/
def notchWords (freq width depth t : Nat) : List Int :=
  let w := notchTan freq t
  let ww := b64 (w * w)
  let zp := b64 ((width : Rat) / (2 * (freq : Rat)))
  let zz := b64 (zp * notchGain depth)
  let lin (z : Rat) : Rat := b64 (2 * z * w)
  let a0 := b64 (b64 (1 + lin zp) + ww)
  let word (v : Rat) : Int := rndRat (b64 (v / a0) * 2 ^ 22)
  let mid := b64 (2 * b64 (ww - 1))
  [word mid, word (b64 (b64 (1 - lin zz) + ww)), word (-mid), word (-(b64 (b64 (1 - lin zp) + ww))), word (b64 (b64 (1 + lin zz) + ww))]

/-- The parameters of a notch are within R122's limits. -/
def notchOk (freq width depth t : Nat) : Bool :=
  decide (100 ≤ freq) && decide (freq * t ≤ 4500000000) && decide (10 ≤ width) && decide (width ≤ 2 * freq) && decide (depth ≤ 240)

/-- What NOTCH writes to the shadow record, word by word: the five words of notch INDEX, its NPAR pair and T_REF; none where a parameter is out of its limits (R122). -/
def notchBurst (s : State) (w : W32) : Option (List (Nat × Nat)) :=
  let i := wbits Reg.AXIS_CMD_INDEX w
  let f := rd s Reg.AXIS_NOTCHF_FREQ
  let n := rd s Reg.AXIS_NOTCHW_WIDTH
  let d := rd s Reg.AXIS_NOTCHW_DEPTH
  let t := period s
  if notchOk f n d t then
    some (((notchWords f n d t).zip (List.range 5)).map (fun e => (18 + 5 * i + e.2, unsgn 32 e.1)) ++
      [(38 + 2 * i, rdw s Reg.AXIS_NOTCHF.addr), (39 + 2 * i, rdw s Reg.AXIS_NOTCHW.addr), (2, t)])
  else none

/-- The standby never forms the words: it receives them as writes through the window (R122, R256). -/
def notchItems (s : State) (w : W32) : List MItem :=
  if wbits Reg.AXIS_CMD_OP w = 3 ∧ domOn s dCIST ∧ on s Reg.AXIS_AREA_EN then
    match notchBurst s w with
    | some l => l.map (fun e => .write s.sched.cycle (BitVec.ofNat 24 (Reg.AXIS_WIN e.1).addr) (BitVec.ofNat 32 e.2)
        [(BitVec.ofNat 24 Reg.AXIS_SEL.addr, BitVec.ofNat 32 (rd s Reg.AXIS_SEL_AXIS))])
    | none => []
  else []

/-- NOTCH (R122). -/
def execNotch (m : Master) (w : W32) (s : State) : Host.Outcome State Fault Refusal :=
  .next (pairActionWith s m Reg.AXIS_CMD.addr w (fun a _ => notchItems a w) (fun s =>
    if wbits Reg.AXIS_CMD_OP w = 3 then
      axisDo s (fun s =>
        match notchBurst s w with
        | some l => cmdDone (l.foldl (fun s e => writeRec s (rd s Reg.AXIS_SEL_AXIS) e.1 e.2) s) 0x80
        | none => cmdDone (wr s Reg.AXIS_CMD_RESULT 1) 0x80)
    else s))

/-! ## The check of a record (R142, R144) -/

/-- Words of a record that hold mantissa words (R112). -/
def bfWords : List Nat :=
  (List.range 34).map (fun i => i + 4) ++ (List.range 12).map (fun i => i + 46) ++ [61, 68, 69, 70, 71, 74, 75, 76, 77, 79, 80, 81, 82, 83, 84, 85, 90]

/-- Reserved bits of the words of a record (R112, R113). -/
def recReserved : List (Nat × Nat) :=
  [(0, 0xFF000000), (1, 0xFFF00000), (59, 0xFFFFFFFC), (60, 0xFFFF8000), (62, 0xFFFF8000), (64, 0xFFFFF800), (65, 0xFFFFF800),
   (66, 0xFFFFF800), (67, 0xFFFFF800), (72, 0xFF000000), (73, 0xFFF00000), (86, 0x3FF00000), (87, 0xFFFFFF00), (88, 0xFF000000)] ++
  (List.range 4).flatMap (fun i => [(38 + 2 * i, 0xFFF00000), (39 + 2 * i, 0x00F00000)]) ++ (List.range 36).map (fun i => (92 + i, 0xFFFFFFFF))

/-- The cost of a record (R142). -/
def axisCost (w : Nat → Nat) : Nat :=
  let c := w 0
  let sl := bitOf 3 c
  let mode := bits 2 1 c
  let opt (b : Bool) (n : Nat) : Nat := if b then n else 0
  let sc := w 72
  opt (!sl) 120 + opt (bitOf 16 c) 180 + opt (!sl) 70 + 90 +
  opt (!sl && mode != 2) (if bitOf 9 c then 110 else 80) +
  opt (bitOf 1 sc) (if bitOf 0 sc then 90 else 150) +
  opt (mode == 0) (if bitOf 10 c then 110 else 80) + opt (mode == 0) (40 * bits 13 11 c) +
  opt (bitOf 14 c || bitOf 15 c) 60 + opt (bitOf 17 c) 70 + opt (bitOf 18 c) 90 + opt (bits 21 19 c != 0) 60 + 130 +
  opt (bitOf 31 (w 86)) 200 + opt (bitOf 23 c) 160

/-- The motion generator's part of POS: 170 with a cam, else 90 (R142, R150); `axisCost` counts 90. -/
def camExtra (s : State) (a : Nat) : Nat := if motSrc s a = 1 ∧ on s (Reg.MOTION_CAM_VALID (bits 5 0 (motAct s a 4))) then 80 else 0

/-- The graph bank in service after boundary `n`, with the swap that has been accepted (R144, R195). -/
def bankAfter (s : State) (n : Nat) : Nat :=
  if on s Reg.LEMAC_SWAP_PEND ∧ s.lemac.swapDue ≤ n then 1 - bank s else bank s

/-- The reason for which the pending record of an axis fails its check, 0 where it passes (R144). -/
def axisCheck (s : State) (a n : Nat) : Nat :=
  let b := 1 - b2n (axis s a).act
  let w (i : Nat) : Nat := recWord s a b i
  let c := w 0
  let inRange (v : Nat) : Bool := let x := sgn 32 v; decide (-2 ^ 23 ≤ x) && decide (x < 2 ^ 23)
  let g := bankAfter s n
  let tasks := (validTasks s g).filter (fun t => tdAxis s g t == some a)
  let ents : List InterEnt := tget (fun _ => []) s.sched.inter g
  let arms := ents.filter (fun e => !e.post && tasks.contains e.task && tdListarm s g e.task)
  let dp := 2 ^ bits 5 4 c
  let own (k cnt : Nat) : Bool := allFloat s k cnt 2
  if !(bfWords.all (fun i => inRange (w i))) || recReserved.any (fun r => w r.1 &&& r.2 != 0) ||
      bits 2 1 c == 3 || decide (4 < bits 13 11 c) || decide (4 < bits 21 19 c) ||
      (!bitOf 9 c && (w 7 != 0 || w 10 != 0)) || (!bitOf 10 c && (w 14 != 0 || w 17 != 0)) then 1
  else if (bitOf 3 c && bits 2 1 c != 1) || (bitOf 23 c && !bitOf 3 c) || (bitOf 16 c && bits 2 1 c != 0) ||
      decide (dp ≤ bits 8 6 c) || (bitOf 1 (w 72) && !bitOf 0 (w 72) && !bitOf 23 (w 72)) then 2
  else if (bitOf 17 c && !own (w 60 % 2 ^ 15) 1) || (bitOf 18 c && !own (w 62 % 2 ^ 15) 4) then 3
  else if arms != [] && !(arms.any (fun e => e.per == dp && e.ph == bits 8 6 c)) then 4
  else if (tasks.map (fun t => bits 15 0 (tdWord s g t 2))).sum < axisCost w + camExtra s a then 5
  else 0

/-- A commit request checks the pending axis records: those that pass, and the failures recorded (R144). -/
def checkAxes (s : State) (n : Nat) : State × List Nat :=
  ((List.range 1024).filter (fun a => (axis s a).pend)).foldl (fun r a =>
    let c := axisCheck r.1 a n
    if c = 0 then (setAxis r.1 a { axis r.1 a with chk := false }, r.2 ++ [a])
    else
      let s := setAxis r.1 a { axis r.1 a with chk := true }
      let s := if on s Reg.AXIS_CHK_FAIL_VALID then s
        else raise (wrs s [(Reg.AXIS_CHK_FAIL_VALID, 1), (Reg.AXIS_CHK_FAIL_REASON, c), (Reg.AXIS_CHK_FAIL_AXIS, a)]) 0x80 2
      (setSticky (postOther s 3) Reg.CYC_COMMIT_STAT_CHKFAIL, r.2)) (s, [])

/-- The commit swaps the pending axes that passed; PERIOD follows the new records (R123, R143). -/
def commitAxes (s : State) (l : List Nat) : State :=
  let t := l.foldl (fun s a => let x := axis s a; setAxis s a { x with act := !x.act, pend := false }) s
  l.foldl (fun s a => markAxis (afterAxisCommit s a (b2n (axis s a).act)) a) t

end Sys2Proof.Machine
end

