-- ==== Sys2Proof/Machine/Motion.lean ====
section
/-! DEFINITION. Commands of the MOTION page and the checks of motion records (R148, R152, R153, R163, R164, R167, R169, R174). -/

namespace Sys2Proof.Machine

/-- The channel that SEL names. -/
def selCh (s : State) : Nat := rd s Reg.MOTION_SEL_CH

/-- A write to a pending record withdraws its channel from a commit that awaits its boundary (R144, R148). -/
def withdrawCh (s : State) (c : Nat) : State :=
  match s.commit with
  | some k => if k.chans.contains c then postOther { s with commit := some { k with chans := k.chans.filter (fun b => b != c) } } 3 else s
  | none => s

/-- MOTION_WINDOW_WRITE: a word of the shadow record, PEND set (R143, R148, R174). A channel past 1,055 has no record. -/
def execMotionWindowWrite (m : Master) (i : Fin 16) (w : W32) (s : State) : Host.Outcome State Fault Refusal :=
  .next (
    let k := (Reg.MOTION_WIN i).addr
    pairAction s m k w (fun s =>
      let c := selCh s
      if on s Reg.MOTION_SEL_VIEW ∨ 1055 < c then errlog s 0x81 7 m k
      else
        let s := withdrawCh s c
        let x := mot s c
        setMot (setMotWord s c (1 - b2n x.act) i w.toNat) c { x with pend := true }))

/-- CAM_TABLE_WRITE: the value awaits the next commit with the MOTION bit (R174). -/
def execCamTableWrite (m : Master) (t : Fin 64) (w : W32) (s : State) : Host.Outcome State Fault Refusal :=
  .next (
    let k := (Reg.MOTION_CAM t).addr
    pairAction s m k w (fun s =>
      let s := { s with camPend := tins t (w &&& 0x80007FFF) (tdel t s.camPend),
                        commit := s.commit.map (fun c => { c with cams := c.cams.filter (fun u => u != t.val) }) }
      wr s (Reg.MOTION_CAM_PEND t) 1))

/-! ## Commands (R152, R153) -/

/-- The arguments are out of range: RESULT RANGE (R153, R164). -/
def cmdRange (s : State) (c op : Nat) : Bool :=
  if op = 3 then !b32Fin (rd s Reg.MOTION_SPEED_SPEED)
  else if op = 8 then (membersOf s c).any (fun d => decide (2 ^ 31 - 1 < (stagedMove (mot s d)).natAbs))
  else false

/-- RESULT of a command as OP is written (R152, R153; log 17). -/
def cmdResult (s : State) (c op : Nat) : Nat :=
  if 1055 < c then 5
  else if cmdState s c op ≠ 0 then cmdState s c op
  else if cmdRange s c op then 5
  else
    let at_ := rd64 s Reg.MOTION_CMD_AT_LO_CYCLE Reg.MOTION_CMD_AT_HI_CYCLE
    if at_ ≠ 0 ∧ at_ < s.sched.cycle + motLead s then 1 else 0

/-- A motion command (R152, R153): checked at once, so that BUSY never reads 1 and RESULT 7 does not arise (log 17), and kept until its cycle; it replaces a pending one. -/
def motCmd (s : State) (m : Master) (w : W32) (op : Nat) : State :=
  pairOp s m Reg.MOTION_CMD.addr w (wbits Reg.MOTION_CMD_OP w = op) (fun s =>
    let c := selCh s
    let r := cmdResult s c op
    let s := raise (wr s Reg.MOTION_CMD_RESULT r) 0x81 3
    if r ≠ 0 then s
    else
      let at_ := rd64 s Reg.MOTION_CMD_AT_LO_CYCLE Reg.MOTION_CMD_AT_HI_CYCLE
      let eff := if at_ = 0 then s.sched.cycle + motLead s else at_
      let x := mot s c
      let s := if x.cmd.isSome then postOther (incCnt s Reg.MOTION_SUPERSEDED_CNT_SUPERSEDED_CNT) 3 else s
      let s := wr64 s Reg.MOTION_EFF_LO_CYCLE Reg.MOTION_EFF_HI_CYCLE eff
      setMot s c { mot s c with cmd := some { due := eff, op := op, arg := sgn 64 (rd64 s Reg.MOTION_ARG_LO_ARG Reg.MOTION_ARG_HI_ARG),
                                              spd := BitVec.ofNat 32 (rd s Reg.MOTION_SPEED_SPEED) } })

/-- MOVE_ABS (R153, R156, R164). -/
def execMoveAbs (m : Master) (w : W32) (s : State) : Host.Outcome State Fault Refusal := .next (motCmd s m w 1)
/-- MOVE_REL (R153, R156, R164). -/
def execMoveRel (m : Master) (w : W32) (s : State) : Host.Outcome State Fault Refusal := .next (motCmd s m w 2)
/-- SPEED (R157). -/
def execSpeed (m : Master) (w : W32) (s : State) : Host.Outcome State Fault Refusal := .next (motCmd s m w 3)
/-- GEAR (R159). -/
def execGear (m : Master) (w : W32) (s : State) : Host.Outcome State Fault Refusal := .next (motCmd s m w 4)
/-- CAM (R162). -/
def execCam (m : Master) (w : W32) (s : State) : Host.Outcome State Fault Refusal := .next (motCmd s m w 5)
/-- FREE (R160). -/
def execFree (m : Master) (w : W32) (s : State) : Host.Outcome State Fault Refusal := .next (motCmd s m w 6)
/-- SUPER (R160). -/
def execSuper (m : Master) (w : W32) (s : State) : Host.Outcome State Fault Refusal := .next (motCmd s m w 7)
/-- GROUP_GO (R164). -/
def execGroupGo (m : Master) (w : W32) (s : State) : Host.Outcome State Fault Refusal := .next (motCmd s m w 8)
/-- REREG_SHIFT (R170). -/
def execReregShift (m : Master) (w : W32) (s : State) : Host.Outcome State Fault Refusal := .next (motCmd s m w 9)
/-- REREG_MOVE (R170). -/
def execReregMove (m : Master) (w : W32) (s : State) : Host.Outcome State Fault Refusal := .next (motCmd s m w 10)

/-- MOTION_LOAD: shadow ← active, PEND cleared, at once (R145, R148, R153). -/
def execMotionLoad (m : Master) (w : W32) (s : State) : Host.Outcome State Fault Refusal :=
  .next (pairOp s m Reg.MOTION_CMD.addr w (wbits Reg.MOTION_CMD_OP w = 15) (fun s =>
    let c := selCh s
    if 1055 < c then raise (wr s Reg.MOTION_CMD_RESULT 5) 0x81 3
    else
      let s := withdrawCh s c
      let x := mot s c
      let b := b2n x.act
      let s := (List.range 16).foldl (fun s i => setMotWord s c (1 - b) i (motWord s c b i)) s
      raise (wr (setMot s c { x with pend := false }) Reg.MOTION_CMD_RESULT 0) 0x81 3))

/-! ## Stops (R167 to R169) -/

/-- STOP: at the second boundary after the write (R167). -/
def execStop (m : Master) (w : W32) (s : State) : Host.Outcome State Fault Refusal :=
  .next (pairAction s m Reg.MOTION_STOP.addr w (fun s =>
    let g := wbits Reg.MOTION_STOP_GRADE w
    if g = 0 then s else askStop s (s.sched.cycle + 2) (some (wbits Reg.MOTION_STOP_CH w)) g false))

/-- HALT: a hard stop of every motion group (R167). -/
def execHalt (m : Master) (w : W32) (s : State) : Host.Outcome State Fault Refusal :=
  .next (pairOp s m Reg.MOTION_HALT.addr w (wbits Reg.MOTION_HALT_HALT w = 1) (fun s => askStop s (s.sched.cycle + 2) none 3 false))

/-- STOP_CLR: the group becomes IDLE at the next boundary, or the write is refused and logged (R169). -/
def execStopClr (m : Master) (w : W32) (s : State) : Host.Outcome State Fault Refusal :=
  .next (pairAction s m Reg.MOTION_STOP_CLR.addr w (fun s =>
    let c := wbits Reg.MOTION_STOP_CLR_CH w
    let g := groupOf s c
    if g.any (fun d => (mot s d).lost || (mot s d).st == 3) then errlog s 0x81 7 m Reg.MOTION_STOP_CLR.addr
    else (g.filter (fun d => decide (4 ≤ (mot s d).st))).foldl (fun s d =>
      setMot s d { mot s d with clrAt := some (s.sched.cycle + 1) }) s))

/-! ## Checks of a commit (R148, R163, R164, R174) -/

/-- SRC and GROUP that a channel will have once the pending records are swapped. -/
def nextWord (s : State) (c i : Nat) : Nat := let x := mot s c; motWord s c (b2n (x.act != x.pend)) i

/-- The reason for which the pending record of a channel fails, 0 where it passes (R174). -/
def motCheck (s : State) (c : Nat) : Nat :=
  let x := mot s c
  let w (i : Nat) : Nat := nextWord s c i
  let o (i : Nat) : Nat := motAct s c i
  let src := bits 3 2 (w 0)
  let mem := (List.range 1056).filter (fun d => bits 3 2 (nextWord s d 0) == 2 && bits 10 7 (nextWord s d 0) == bits 10 7 (w 0))
  let rate (d : Nat) : Nat × Nat := if d < 1024 then (axDp s d, axDpq s d) else (1, 0)
  if w 0 / 2 ^ 11 != 0 || src == 3 || decide (3 < bits 6 4 (w 0)) || w 1 / 2 ^ 20 != 0 || w 4 / 2 ^ 6 != 0 ||
      (List.range 6).any (fun i => w (10 + i) != 0) || !((List.range 5).all (fun i => b32Pos (w (5 + i)))) then 1
  else if (src == 1 && w 1 == 0) || w 2 == 0 || w 3 == 0 || decide (2 ^ 31 ≤ w 3) then 2
  else if src == 2 && (decide (8 < mem.length) || mem.any (fun d => rate d != rate c)) then 3
  else if (src != bits 3 2 (o 0) || bits 10 7 (o 0) != bits 10 7 (w 0) || w 1 % 2 ^ 20 != o 1 % 2 ^ 20) && decide (1 ≤ x.st ∧ x.st ≤ 3) then 4
  else 0

/-- The reason for which a pending cam register fails (R163, R174): 4 changed while in use, 5 header or blocks. -/
def camCheck (s : State) (t : Nat) : Nat :=
  let v := (tget (fun _ => 0#32) s.camPend t).toNat
  let used := (chans s).any (fun c => ((mot s c).rel == .cam || (mot s c).engage == .cam) && bits 5 0 (motAct s c 4) == t)
  let changed := bitOf 31 v != on s (Reg.MOTION_CAM_VALID t) || v % 2 ^ 15 != rd s (Reg.MOTION_CAM_BLOCK t)
  if used && changed then 4
  else if bitOf 31 v then
    let b := v % 2 ^ 15
    let n := camHead s b 0
    let mper := camHead s b 1
    let head := decide (4 ≤ n) && decide (n ≤ 2048) && decide (n ≤ mper) && decide (mper < 2 ^ 31) &&
      (List.range 59).all (fun i => camHead s b (5 + i) == 0) && mnum s (cistAddr (256 * (b + 1))) 4 == 0
    if head && allFloat s b (1 + (n + 63) / 64) 2 then 0 else 5
  else 0

/-- Record a failed check. -/
def motFail (s : State) (reason c : Nat) : State :=
  let s := if on s Reg.MOTION_CHK_FAIL_VALID then s
    else raise (wrs s [(Reg.MOTION_CHK_FAIL_VALID, 1), (Reg.MOTION_CHK_FAIL_REASON, reason), (Reg.MOTION_CHK_FAIL_CH, c)]) 0x81 2
  setSticky (postOther s 3) Reg.CYC_COMMIT_STAT_CHKFAIL

/-- A commit request checks the pending motion records and cam registers: those that pass (R148). -/
def checkMotion (s : State) : State × List Nat × List Nat :=
  let r := ((List.range 1056).filter (fun c => (mot s c).pend)).foldl (fun (r : State × List Nat) c =>
    let k := motCheck r.1 c
    if k = 0 then (setMot r.1 c { mot r.1 c with chk := false }, r.2 ++ [c])
    else (motFail (setMot r.1 c { mot r.1 c with chk := true }) k c, r.2)) (s, [])
  let q := (r.1.camPend.map (fun e => e.1)).foldl (fun (q : State × List Nat) t =>
    let k := camCheck q.1 t
    if k = 0 then (q.1, q.2 ++ [t]) else (motFail q.1 k t, q.2)) (r.1, [])
  (q.1, r.2, q.2)

/-- The commit swaps the channels and cam registers that passed; a changed ratio of a following channel starts with rem = 0, from where it stands (R148, R159, R174). -/
def commitMotion (s : State) (l cams : List Nat) : State :=
  let s := l.foldl (fun s c =>
    let x := mot s c
    let b := b2n x.act
    let ch := motWord s c b 2 != motWord s c (1 - b) 2 || motWord s c b 3 != motWord s c (1 - b) 3
    let y : MotSt := { x with act := !x.act, pend := false }
    setMot s c (if ch && x.rel == .gear then { y with rem := 0, m0 := x.mPrev, pf0 := x.pf } else y)) s
  cams.foldl (fun s t =>
    let v := (tget (fun _ => 0#32) s.camPend t).toNat
    wrw { s with camPend := tdel t s.camPend } (Reg.MOTION_CAM t).addr v) s

end Sys2Proof.Machine
end

