-- ==== Sys2Proof/Machine/Commit.lean ====
section
/-! DEFINITION. The parameter commit (R25, R26, R143, R148). -/

namespace Sys2Proof.Machine

/-- A request written now for boundary `n` has the lead of `l` whole cycles (R26). -/
def leadOk (s : State) (n l : Nat) : Bool := decide (s.sched.cycle + l + 1 ≤ n)

/-- A commit request for boundary `n` (R26, R144): refused as late, or checked and kept. -/
def askCommit (s : State) (n : Nat) : State :=
  if leadOk s n 2 then
    let s := wrs s [(Reg.CYC_COMMIT_STAT_PEND, 1), (Reg.CYC_COMMIT_STAT_DONE, 0)]
    let a := if on s Reg.CYC_COMMIT_MASK_AXIS then checkAxes s n else (s, [])
    let c := if on s Reg.CYC_COMMIT_MASK_MOTION then checkMotion a.1 else (a.1, [], [])
    { c.1 with commit := some ⟨n, a.2, c.2.1, c.2.2⟩ }
  else post (setSticky s Reg.CYC_COMMIT_STAT_LATE) 0x3004 3 (n % 2 ^ 32)

/-- COMMIT_REQUEST (R26). -/
def execCommitRequest (m : Master) (w : W32) (s : State) : Host.Outcome State Fault Refusal :=
  .next (pairAction s m Reg.CYC_COMMIT_AT_LO.addr w (fun s =>
    let s := wr s Reg.CYC_COMMIT_AT_LO_CYCLE w.toNat
    askCommit s (w.toNat + 2 ^ 32 * rd s Reg.CYC_COMMIT_AT_HI_CYCLE)))

/-- A commit that is due at boundary `n` is swapped in (R26, R40 step 2). -/
def commitDue (s : State) (n : Nat) : State :=
  match s.commit with
  | some c =>
    if c.due ≤ n then
      let s := commitMotion (commitAxes { s with commit := none } c.axes) c.chans c.cams
      raise (setSticky (wr s Reg.CYC_COMMIT_STAT_PEND 0) Reg.CYC_COMMIT_STAT_DONE) 0x14 5
    else s
  | none => s

end Sys2Proof.Machine
end

