-- ==== Sys2Proof/Machine/SafeOps.lean ====
section
/-! DEFINITION. The safety channels: parameter set, demands, faults, switches, safe messages and status (R270 to R285, R290, R296). -/

namespace Sys2Proof.Machine

/-! ## Check sums (R282) -/

/-- One step of a reflected CRC-32C over a bit. -/
def crcCStep (c : Nat) : Nat := if c % 2 = 1 then (c / 2) ^^^ 0x82F63B78 else c / 2

/-- CRC-32C: Castagnoli polynomial, reflected, initial value and final XOR all ones. -/
def crc32c (l : List Byte) : Nat :=
  (l.foldl (fun c b => crcCStep (crcCStep (crcCStep (crcCStep (crcCStep (crcCStep (crcCStep (crcCStep (c ^^^ b.toNat))))))))) 0xFFFFFFFF) ^^^ 0xFFFFFFFF

/-- One step of the channel-B CRC over a bit: polynomial 0x741B_8CD7, not reflected. -/
def crcBStep (c : Nat) : Nat := if 2 ^ 31 ≤ c then (c * 2 % 2 ^ 32) ^^^ 0x741B8CD7 else c * 2

/-- The channel-B CRC: initial value and final XOR all ones. -/
def crcB (l : List Byte) : Nat :=
  (l.foldl (fun c b => crcBStep (crcBStep (crcBStep (crcBStep (crcBStep (crcBStep (crcBStep (crcBStep (c ^^^ (b.toNat * 2 ^ 24)))))))))) 0xFFFFFFFF) ^^^ 0xFFFFFFFF

/-! ## Parameter set (R290) -/

/-- Bytes of an image. -/
def sub (l : List Byte) (o n : Nat) : List Byte := (l.drop o).take n
/-- The parameter set as a channel holds it: the whole of it in channel A, bytes 0–83 in channel B (R291). -/
def psetOf (s : State) (b : Bool) : List Byte := if b then s.safe.psetB else s.safe.pset
/-- A little-endian word of the parameter set in force. -/
def psW (s : State) (b : Bool) (o : Nat) : Nat := leNat (sub (psetOf s b) o 4)
/-- A valid parameter set is in force in the channel. -/
def psOk (s : State) (b : Bool) : Bool := psetOf s b != []
/-- INPUTp. -/
def inW (s : State) (b : Bool) (p : Nat) : Nat := psW s b (16 + 4 * p)
/-- OUTq. -/
def outW (s : State) (b : Bool) (q : Nat) : Nat := psW s b (64 + 4 * q)
/-- The pair names a function and the group. -/
def pairNames (s : State) (b : Bool) (p g : Nat) : Bool := bits 1 0 (inW s b p) != 0 && bitOf (18 + g) (inW s b p)
/-- SBC of a group; without a parameter set the brakes stay closed (reset value of STAT.SBC). -/
def groupSbc (s : State) (b : Bool) (g : Nat) : Bool := !psOk s b || bitOf 16 (psW s b (32 + 8 * g))
/-- The motion channels listed for a group. -/
def groupList (s : State) (g : Nat) : List Nat :=
  let w := psW s false (36 + 8 * g)
  (List.range (bits 11 8 w)).map (fun i => bits 10 0 (leNat (sub s.safe.pset (88 + 2 * (bits 7 0 w + i)) 2)))
/-- Number of safe connections. -/
def nConn (s : State) : Nat := leNat (sub s.safe.pset 84 2)
/-- CHECK of an output pair: 0 readback, 1 EDM, 2 both. -/
def outCheck (s : State) (b : Bool) (q : Nat) : Nat := bits 3 2 (outW s b q)
/-- The group of an output pair. -/
def outGroup (s : State) (b : Bool) (q : Nat) : Nat := bits 1 0 (outW s b q)
/-- The output pair is paralleled with the peer's (R294). -/
def outPar (s : State) (q : Nat) : Bool := psOk s false && bitOf 24 (outW s false q)

/-! ## Channels -/

/-- A channel: B where the flag is set. -/
def chan (s : State) (b : Bool) : Chan := if b then s.safe.b else s.safe.a
/-- Set a channel. -/
def setChan (s : State) (b : Bool) (x : Chan) : State :=
  { s with safe := if b then { s.safe with b := x } else { s.safe with a := x } }
/-- The channel works: its domain is ON (R270). -/
def chanOn (s : State) (b : Bool) : Bool := domOn s (if b then dSAFEB else dSAFEA)

/-- The input is at its demand level: low, but input 2p + 1 of an antivalent pair high (R276). -/
def inputDemand (s : State) (b : Bool) (i : Nat) : Bool :=
  let x := chan s b
  if i % 2 = 1 && bitOf 2 (inW s b (i / 2)) then x.inp.getLsbD i else !x.inp.getLsbD i

/-- The pair is in demand while either of its inputs shows the demand level (R277). -/
def pairDemand (s : State) (b : Bool) (p : Nat) : Bool :=
  psOk s b && bits 1 0 (inW s b p) != 0 && (inputDemand s b (2 * p) || inputDemand s b (2 * p + 1))

/-- The pair's inputs disagree: it is inside its discrepancy time (R277). -/
def pairDisc (s : State) (b : Bool) (p : Nat) : Bool :=
  psOk s b && bits 1 0 (inW s b p) != 0 && (inputDemand s b (2 * p) != inputDemand s b (2 * p + 1))

/-- A predicate over four pairs or groups as bits. -/
def nib (f : Nat → Bool) : BitVec 4 := BitVec.ofNat 4 (b2n (f 0) + 2 * b2n (f 1) + 4 * b2n (f 2) + 8 * b2n (f 3))

/-- The demands as the channel's inputs stand. -/
def demands (s : State) (b : Bool) : BitVec 4 := nib (pairDemand s b)

/-- A group has an input pair in demand; with VFSAF out of range every group is treated as demanded (R275). -/
def groupDemand (s : State) (b : Bool) (g : Nat) : Bool :=
  !s.safe.vfsaf || (List.range 4).any (fun p => pairNames s b p g && pairDemand s b p)

/-- The management item of a MOTION.STOP write of a grade (R256). -/
def stopItem (s : State) (c grade : Nat) : MItem :=
  .write s.sched.cycle (BitVec.ofNat 24 Reg.MOTION_STOP.addr)
    (BitVec.ofNat 32 (setBits Reg.MOTION_STOP_CH.hi Reg.MOTION_STOP_CH.lo (setBits Reg.MOTION_STOP_GRADE.hi Reg.MOTION_STOP_GRADE.lo 0 grade) c)) []

/-- Channel A asks for stops of the motion channels listed for a group, as a MOTION.STOP write (R285). DEDUCED: in a standby it asks for none, since its control plane changes only with the items of the active (R256; log 40). -/
def safetyStop (s : State) (g grade : Nat) : State :=
  if domOn s dNET ∧ ¬ roleBars s .host then
    (groupList s g).foldl (fun s c => noteItem (askStop s (s.sched.cycle + 2) (some c) grade false) (stopItem s c grade)) s
  else s

/-- Groups enter STO: SS1 timing ends, and channel A asks for hard stops (R274, R285). -/
def enterSto (s : State) (b : Bool) (gs : BitVec 4) : State :=
  let x := chan s b
  let new := gs &&& ~~~x.sto
  let s := setChan s b { x with sto := x.sto ||| gs, ss1 := x.ss1 &&& ~~~gs }
  if b then s else (List.range 4).foldl (fun s g => if new.getLsbD g then safetyStop s g 3 else s) s

/-- Groups begin SS1-t unless they are in STO or their SS1-t is timing already; channel A asks for quick stops (R274, R285). -/
def enterSs1 (s : State) (b : Bool) (gs : BitVec 4) : State :=
  let x := chan s b
  let new := gs &&& ~~~x.sto &&& ~~~x.ss1
  let s := setChan s b { x with ss1 := x.ss1 ||| new }
  if b then s else (List.range 4).foldl (fun s g => if new.getLsbD g then safetyStop s g 2 else s) s

/-- Groups that a pair names. -/
def groupsOf (s : State) (b : Bool) (p : Nat) : BitVec 4 := nib (pairNames s b p)

/-- A pair's demand acts (R274): its groups enter STO or SS1-t and their demand lock-outs are set; channel A counts and logs it. -/
def demandActs (s : State) (b : Bool) (p : Nat) : State :=
  let gs := groupsOf s b p
  let x := chan s b
  let s := setChan s b { x with lock := x.lock ||| gs }
  let s := if bits 1 0 (inW s b p) = 1 then enterSto s b gs else enterSs1 s b gs
  if b then s
  else
    (List.range 4).foldl (fun s g => if gs.getLsbD g then post s 0x1002 0 (p + 16 * g) else s)
      (incCnt s Reg.SAFE_DEMAND_CNT_DEMAND_CNT)

/-- The demands that have arisen since the channel last looked act (R274, R277). -/
def lookDemands (s : State) (b : Bool) : State :=
  let x := chan s b
  let d := demands s b
  let s := setChan s b { x with dem := d }
  (List.range 4).foldl (fun s p => if (d &&& ~~~x.dem).getLsbD p then demandActs s b p else s) s

/-- SAFE.CAUSE of a fault: the channel that found it, its index and code. -/
def causeWord (b : Bool) (cause : Nat) : Nat := 2 ^ 31 + b2n b * 2 ^ 16 + cause % 2 ^ 12

/-- Channel A records a fault (R274, R296): the first in CAUSE, each in FAULT_ERR and the sump. -/
def recordFault (s : State) (b : Bool) (cause : Nat) : State :=
  if chanOn s false then
    let s := if on s Reg.SAFE_CAUSE_VALID then s else wrw s Reg.SAFE_CAUSE_CODE.addr (causeWord b cause)
    post (incErr s Reg.SAFE_FAULT_ERR_FAULT_ERR) 0x1001 (b2n b) (causeWord b cause)
  else s

/-- A channel takes up a fault: every group into STO, fault lock-out, mode RECOVERY (R274). -/
def lockOut (s : State) (b : Bool) : State :=
  let s := enterSto s b 15
  setChan s b { chan s b with flock := true, mode := 3 }

/-- The switches each channel may turn on (R279): RUN, the pair's group free, no lock-out of it, EDM closed where it is checked; a pair that is on stays on while its group is not in STO. -/
def switchOn (s : State) (b : Bool) (q : Nat) : Bool :=
  let x := chan s b
  let g := outGroup s b q
  let edm := if b then s.safe.edm.getLsbD q else (s.bridge.img.map (fun f => f.edm.getLsbD q)).getD false
  chanOn s b && psOk s b && s.safe.vfsaf && !s.field.held && x.mode == 1 && !x.sto.getLsbD g && !x.flock &&
    (x.sw.getLsbD q || (!x.lock.getLsbD g && (outCheck s b q == 0 || edm)))

/-- Both switches' levels as they drive the balls. -/
def showSwitches (s : State) (before : BitVec 2 × BitVec 2) : State :=
  if (s.safe.high, s.safe.b.sw) = before then s else emit s (.safetySwitches s.safe.high s.safe.b.sw)

/-- The channels form their switches anew (R279). Channel B drives its own at once; channel A's reach the field die with its bridge frames. -/
def reSwitch (s : State) : State :=
  let before := (s.safe.high, s.safe.b.sw)
  let sw := fun b => BitVec.ofNat 2 (b2n (switchOn s b 0) + 2 * b2n (switchOn s b 1))
  let a := sw false
  let b := sw true
  let s := setChan s false { s.safe.a with sw := a }
  showSwitches (setChan s true { s.safe.b with sw := b }) before

/-- The high-side switches that channel A drives: through a test pulse of a paralleled pair it holds its own off (R279, R294). -/
def highOf (s : State) : BitVec 2 := s.safe.a.sw &&& ~~~s.safe.pulseHold

/-- TP_SUSP: test pulses of paralleled pairs are suspended while both lanes of the peer link are lost (R294). -/
def showSusp (s : State) : State :=
  if chanOn s false then
    wr s Reg.SAFE_STAT_TP_SUSP (b2n (paired s && !(on s Reg.PEER_STAT_LANE0 || on s Reg.PEER_STAT_LANE1) && (outPar s 0 || outPar s 1)))
  else s

/-- The mode, groups, locks and inputs that the SAFE page shows, which the safety processor keeps (R273, R297); after a debug unlock channel A holds every group in STO (R396). -/
def safeShow (s : State) : State :=
  let s := showSusp (reSwitch (if s.boot.unlocked then enterSto s false 15 else s))
  if chanOn s false then
    let a := s.safe.a
    let was := rd s Reg.SAFE_STAT_MODE
    let mode := if a.mode = a.other.mode then a.mode else was
    let on2 := highOf s &&& a.other.sw
    let s := wrs s
      [(Reg.SAFE_STAT_PSET_OK, b2n (psOk s false)), (Reg.SAFE_STAT_A_LOCK, b2n (a.flock || a.lock != 0)),
       (Reg.SAFE_STAT_B_LOCK, b2n a.other.anyLock), (Reg.SAFE_STAT_ON, on2.toNat),
       (Reg.SAFE_STAT_SBC, (nib (fun g => a.sto.getLsbD g && groupSbc s false g)).toNat),
       (Reg.SAFE_STAT_SS1, a.ss1.toNat), (Reg.SAFE_STAT_STO, a.sto.toNat), (Reg.SAFE_STAT_MODE, mode),
       (Reg.SAFE_INPUTS_IN, a.inp.toNat), (Reg.SAFE_INPUTS_DEMAND, (demands s false).toNat),
       (Reg.SAFE_INPUTS_DISC, (nib (pairDisc s false)).toNat), (Reg.SAFE_INPUTS_VFSAF_OK, b2n s.safe.vfsaf),
       (Reg.SAFE_INPUTS_RST, b2n ((s.bridge.img.map (fun f => f.rst)).getD false)),
       (Reg.SAFE_INPUTS_EDM, ((s.bridge.img.map (fun f => f.edm.toNat)).getD 0))]
    if mode = was then s else post s 0x1004 0 mode
  else s

/-- A channel finds a fault (R274); nothing while its domain is not ON. -/
def chanFault (s : State) (b : Bool) (code index : Nat) : State :=
  if chanOn s b then
    let c := code + 256 * index
    let s := setChan s b { chan s b with cause := c, nf := (chan s b).nf + 1 }
    let s := if b then s else recordFault s false c
    safeShow (lockOut s b)
  else s

/-- What a channel puts into its bridge frames (R272). -/
def chanStat (s : State) (b : Bool) : ChanStat :=
  let x := chan s b
  { alive := x.alive, dem := x.dem, sto := x.sto, ss1 := x.ss1, mode := x.mode, flock := x.flock,
    anyLock := x.flock || x.lock != 0, sw := if b then x.sw else highOf s, cause := x.cause, nf := x.nf, reset := !b && s.safe.pass }

/-- A channel takes the other's status from an accepted frame (R272, R273): a fault lock-out of the other locks it out too, and channel A records a fault that the other itself has found, unless it is the one that has locked A out already. -/
def takeOther (s : State) (b : Bool) (o : ChanStat) : State :=
  let x := chan s b
  let found := o.nf != 0 && o.nf != x.other.nf
  let new := o.flock && (!x.other.flock || found)
  let s := setChan s b { x with other := o }
  let s := if new && found && !b && !(x.flock && o.cause == x.cause) then recordFault s true o.cause else s
  safeShow (if new then lockOut s b else s)

/-! ## Safe messages (R282, R283) -/

/-- Bytes 0–7 of a message of a group: STO, SS1 and SBC as channel A has them, SEQ_A and CRC_A, under a safety address. -/
def msgA (s : State) (addr : Nat) (sto ss1 sbc : Bool) : List Byte :=
  let h := beBytes 4 ((b2n sto + 2 * b2n ss1 + 4 * b2n sbc) * 2 ^ 24 + s.sched.cycle % 65536)
  h ++ beBytes 4 (crc32c (beBytes 4 addr ++ h))

/-- Bytes 0–7 of safe connection `k`. -/
def connA (s : State) (k : Nat) : List Byte :=
  let g := bits 1 0 (psW s false (152 + 8 * k))
  let a := s.safe.a
  msgA s (psW s false (156 + 8 * k)) (a.sto.getLsbD g) (a.ss1.getLsbD g) (a.sto.getLsbD g && groupSbc s false g)

/-- Channel A writes its field of every defined connection, in every cycle before the first downlink launch (R283). -/
def writeSafeA (s : State) : State :=
  if chanOn s false then
    let ks := List.range (if psOk s false then nConn s else 0)
    { s with safeA := ks.foldl (fun t k => tput (fun _ => 0#64) t k (BitVec.ofNat 64 (beNat (connA s k)))) [] }
  else s

/-- Channel B's word: STOP_B, CNT_B and CRC_B, bytes 8–15 of every message. -/
def wordB (s : State) : W64 :=
  let b := s.safe.b
  let sbc := (nib (fun g => b.sto.getLsbD g && groupSbc s true g)).toNat
  let h := beBytes 4 ((b.sto.toNat + 16 * b.ss1.toNat + 256 * sbc + 4096 * (cfg s Reg.LEMAC_RANK_RANK % 2) + 8192 * b2n b.flock) * 2 ^ 16 + s.safe.cntB)
  BitVec.ofNat 64 (beNat (h ++ beBytes 4 (crcB h)))

/-- A channel-B word with STO of every group set (R283; log 30). -/
def stoB (w : Nat) : List Byte :=
  let h := beBytes 4 (w / 2 ^ 32 ||| 0xF0000)
  h ++ beBytes 4 (crcB h)

/-- The message of a safe connection: channel A's bytes, then the newest channel-B word; STO in both fields where the parameter set does not define the connection (R283). -/
def safeMsg (s : State) (c : Nat) : List Byte :=
  if psOk s false ∧ c < nConn s then beBytes 8 (tget (fun _ => 0#64) s.safeA c).toNat ++ beBytes 8 s.safeB.toNat
  else msgA s (Config.undefAddress c).toNat true false false ++ stoB s.safeB.toNat

/-- The safety points of segment 28 at step 3 of a boundary (R296). -/
def safePoints (s : State) : State :=
  if chanOn s false then
    let s := wrPt s (pt 28 0 0 0) (rdw s Reg.SAFE_STAT_MODE.addr) false
    let s := wrPt s (pt 28 0 0 1) (rdw s Reg.SAFE_INPUTS_IN.addr) false
    let s := wrPt s (pt 28 0 0 2) (rdw s Reg.SAFE_CAUSE_CODE.addr) false
    let s := wrPt s (pt 28 0 0 3) (rdw s Reg.SAFE_BWORD_STOP_B.addr) false
    (List.range (if psOk s false then nConn s else 0)).foldl (fun s k =>
      wrPt s (pt 28 1 (k / 32) (k % 32)) (tget (fun _ => 0#64) s.safeA k).toNat false) s
  else s

/-! ## The reset node (R284, R288) -/

/-- First point of the reset node's message. -/
def nodePoint (s : State) : Nat := bits 20 1 (psW s false 72)

/-- The reset node's message: 16 bytes, most significant first (R288). -/
def nodeBytes (s : State) : List Byte := beBytes 8 (ptVal s (nodePoint s)) ++ beBytes 8 (ptVal s (nodePoint s + 1))

/-- The node's message in the frame of CYC `cyc` has correct CRCs and SEQ_A: SEQ_A, CNT_B and whether RESET is set in both fields (R284, R288). -/
def nodeMsg (s : State) (cyc : Nat) : Option (Nat × Nat × Bool) :=
  let p := nodePoint s
  let m := nodeBytes s
  let ok := crc32c (beBytes 4 (psW s false 76) ++ sub m 0 4) == beNat (sub m 4 4) && crcB (sub m 8 4) == beNat (sub m 12 4) && beNat (sub m 2 2) == cyc
  if !ptStale s p && !ptStale s (p + 1) && ok then
    some (beNat (sub m 2 2), beNat (sub m 10 2), bitOf 3 (beNat (sub m 0 1)) && bitOf 14 (beNat (sub m 8 2)))
  else none

/-- A message of SEQ_A `q` and CNT_B `c` follows one of `q0` and `c0` by 1 to `lim` cycles, with CNT_B advanced within its window (R284). -/
def nodeFollows (s : State) (q0 c0 q c lim : Nat) : Bool :=
  let d := (q + 65536 - q0) % 65536
  let a := (c + 65536 - c0) % 65536
  decide (1 ≤ d) && decide (d ≤ lim) && decide (1 ≤ a) && decide (a ≤ d * ((max 1 (period s) + 3999) / 4000 + 2))

/-- ceil(T_SW / PERIOD) of channel A for the reset node (R284). -/
def nodeLim (s : State) : Nat := (Config.resetWatchdog + max 1 (period s) - 1) / max 1 (period s)

/-- Channel A looks at a message of the reset node as its frame of CYC `cyc` is accepted (R284, R288): one that fails a check is not valid, and the next is compared with the same previous one; after T_SW without one, two of consecutive cycles are valid together. The third valid message in a row with RESET asks for one reset. -/
def noteNode (s : State) (cyc : Nat) : State :=
  let x := s.safe
  let y : SafeSt := match nodeMsg s cyc with
    | none => { x with nodeRun := 0, nodeFirst := none }
    | some (q, c, set) =>
      let ref := x.nodeRef.filter (fun r => decide (s.sched.cycle - r.2.2 ≤ nodeLim s))
      let keep : SafeSt := { x with nodeDone := x.nodeDone && set, pass := x.pass && set }
      let valid (before : Nat) : SafeSt :=
        { keep with nodeRef := some (q, c, s.sched.cycle), nodeFirst := none, nodeRun := if set then before + 1 else 0 }
      match ref, x.nodeFirst with
      | some r, _ => if nodeFollows s r.1 r.2.1 q c (nodeLim s) then valid x.nodeRun else { keep with nodeRun := 0 }
      | none, some f => if nodeFollows s f.1 f.2.1 q c 1 then valid (b2n f.2.2) else { keep with nodeRun := 0, nodeFirst := some (q, c, set) }
      | none, none => { keep with nodeRun := 0, nodeFirst := some (q, c, set) }
  { s with safe := if 3 ≤ y.nodeRun && !y.nodeDone then { y with nodeDone := true, nodeAsk := true } else y }

/-- A frame with these map items places the reset node's message (R288). -/
def placesNode (s : State) (items : List Nat) : Bool := chanOn s false && psOk s false && items.any (fun w => w % 2 ^ 20 == nodePoint s)

end Sys2Proof.Machine
end

