-- ==== Sys2Proof/Machine/LemacOps.lean ====
section
/-! DEFINITION. Frames of the Lemac network: layouts, the checks of the guardian and the receive engines, points and slot edges (R178 to R201, R208). -/

namespace Sys2Proof.Machine

/-! ## Frames (R179 to R186) -/

/-- `n` bytes from offset `o` after the EtherType, as a number (R179, R11). -/
def fNum (f : RxFrame) (o n : Nat) : Nat := beNat ((f.bytes.drop (14 + o)).take n)
/-- EtherType of a frame. -/
def fEther (f : RxFrame) : Nat := beNat ((f.bytes.drop 12).take 2)
/-- SLOT of the Lemac header (R180). -/
def fSlot (f : RxFrame) : Nat := fNum f 0 2
/-- CYC of the Lemac header. -/
def fCyc (f : RxFrame) : Nat := fNum f 2 2
/-- HOPS of the Lemac header. -/
def fHops (f : RxFrame) : Nat := fNum f 4 1
/-- KIND (R181). -/
def fKind (f : RxFrame) : Nat := bits 15 12 (fNum f 6 2)
/-- NULL. -/
def fNull (f : RxFrame) : Bool := bitOf 11 (fNum f 6 2)
/-- FAR. -/
def fFar (f : RxFrame) : Bool := bitOf 10 (fNum f 6 2)
/-- STEP. -/
def fStep (f : RxFrame) : Bool := bitOf 9 (fNum f 6 2)
/-- The payload. -/
def fBody (f : RxFrame) : List Byte := f.bytes.drop 22
/-- VER, KIND and NULL are valid (R181, R187). -/
def fValid (f : RxFrame) : Bool :=
  fNum f 6 2 % 16 == 1 && decide (1 ≤ fKind f) && decide (fKind f ≤ 6) && (!fNull f || fKind f == 2 || fKind f == 3)

/-- Number of bytes `o` to `o + n − 1` of a payload. -/
def bNum (b : List Byte) (o n : Nat) : Nat := beNat ((b.drop o).take n)

/-- A list of bytes padded with zeros to `n`. -/
def padTo (n : Nat) (l : List Byte) : List Byte := l ++ List.replicate (n - l.length) 0

/-- A frame of the device, without FCS (R179, R180). -/
def mkFrame (s : State) (slot cyc kind flags : Nat) (body : List Byte) : List Byte :=
  let st := cfg s Reg.LEMAC_RANK_RANK + b2n (decide (role s = rACTIVE)) * 8
  padTo 60 (beBytes 2 (cfg s Reg.LEMAC_MCAST_HI_ADDR) ++ beBytes 4 (cfg s Reg.LEMAC_MCAST_LO_ADDR) ++
    beBytes 2 (rd s Reg.LEMAC_UMAC_HI_ADDR) ++ beBytes 4 (rd s Reg.LEMAC_UMAC_LO_ADDR) ++ beBytes 2 (cfg s Reg.LEMAC_ETYPE_ETYPE) ++
    beBytes 2 slot ++ beBytes 2 cyc ++ beBytes 1 0 ++ beBytes 1 st ++ beBytes 2 (kind * 2 ^ 12 + flags + 1) ++ body)

/-! ## Ports -/

/-- The offline self-test runs, with every port in loop-back (R402). -/
def offlineRuns (s : State) : Bool := s.tests.any (fun r => r.kind == .offline && r.running)

/-- The port's SerDes half and NET are ON, its lane is calibrated, it is in use, not closed by its guardian and not in loop-back (R199, R392, R402). -/
def portLive (s : State) (p : Nat) : Bool :=
  domOn s dNET && !offlineRuns s && domOn s (dPort p) && !s.boot.lanesOff.getLsbD p && cfgOn s (Reg.PORT_CTRL_EN p) && !on s (Reg.PORT_STAT_CLOSED p)

/-- The port is an origin end in this cycle (R178). -/
def isOrigin (s : State) (p : Nat) : Bool := s.lemac.launching && originEnd s p

/-- The port is the far end of a closed line (R178). -/
def isFar (s : State) (p : Nat) : Bool := cfgOn s (Reg.PORT_LINE_CLOSED p) && !isOrigin s p

/-- FAR of a frame that the port sends: it is the far-end port of a closed line (R180). While a member of a pair primes, its lines have no origin yet, and none of its ports is far. -/
def farFlag (s : State) (p : Nat) : Nat :=
  b2n (cfgOn s (Reg.PORT_LINE_CLOSED p) && !originEnd s p && !(inPair s && rd s Reg.LEMAC_PSTATE_STATE == 1)) * 2 ^ 10

/-- The port is a relay (R201). -/
def isRelay (s : State) (p : Nat) : Bool := on s (Reg.PORT_STAT_RELAY p)

/-- A relay ends, and its line is whole again (R201). -/
def relayEnd (s : State) (p : Nat) : State := wrs s [(Reg.PORT_STAT_RELAY p, 0), (Reg.PORT_STAT_BREAK p, 0)]

/-- Segment that a port serves (R176). -/
def portSeg (s : State) (p : Nat) : Nat := cfg s (Reg.PORT_LINE_SEG p)

/-- Line delay of a port, in ns. -/
def dline (s : State) (p : Nat) : Nat := rd s (Reg.PORT_DLINE_DLINE p)

/-- Half the width of a port's windows. -/
def guardNs (s : State) (p : Nat) : Nat := cfg s (Reg.PORT_SLOTCFG_GUARD p)

/-- Expected start of a receive entry at a port (R188, R201). -/
def expected (s : State) (p : Nat) (e : SlotE) : Nat := if isOrigin s p || isRelay s p then e.at_ else e.at_ + dline s p

/-- The slot entries of a port in the bank in service; none while no bank is. -/
def portSlots (s : State) (p : Nat) : List SlotE := if inService s then slots s (bank s) p else []

/-- A receive entry (R192). -/
def SlotE.isRx (e : SlotE) : Bool := decide (e.kind ≤ 1)

/-- Number of the receive entry whose window holds a start (R196). -/
def windowAt (s : State) (p start : Nat) : Option Nat :=
  let l := portSlots s p
  let i := l.findIdx (fun e => e.isRx && decide (start ≤ expected s p e + guardNs s p) && decide (expected s p e ≤ start + guardNs s p))
  if i < l.length then some i else none

/-- The start lies in an asynchronous window of the port: its end and TUNNEL (R192, R198). -/
def asyncAt (s : State) (p start : Nat) : Option (Nat × Bool) :=
  ((portSlots s p).find? (fun e => e.kind == 3 && decide (e.at_ ≤ start) && decide (start < e.at_ + 256 * e.len))).map
    (fun e => (e.at_ + 256 * e.len, e.tunnel))

/-- Time that `n` bytes take on the wire, in ns (R182). -/
def wireNs (s : State) (p n : Nat) : Nat :=
  if (if p < 24 then rd s (Reg.PORT_CTRL_SPEED p) else rd s (Reg.PLANT_CFG_SPEED (p - 24))) = 2 then (n * 16 + 4) / 5 else n * 8

/-- Time from the timestamp point to the end of the FCS of a frame of `n` bytes, padded to 60. -/
def frameNs (s : State) (p n : Nat) : Nat := wireNs s p (max 60 n + 4)

/-! ## Violations (R196 to R199) -/

/-- A blocked or cut frame: the port's violation run rises (R199). -/
def violate (s : State) (p : Nat) : State := wr s (Reg.PORT_VRUN_RUN p) (min 255 (rd s (Reg.PORT_VRUN_RUN p) + 1))

/-- A frame that starts in no window is blocked, and counted against the nearest receive entry (R196). -/
def blockFrame (s : State) (p start : Nat) : State :=
  let es := ((portSlots s p).filter (fun e => e.isRx)).map (expected s p)
  let dist (x : Nat) : Nat := (start - x) + (x - start)
  let best := es.foldl (fun (b : Option Nat) x => match b with | some y => if dist x < dist y then some x else some y | none => some x) none
  let s := match best with
    | some x => incErr s (if start < x then Reg.PORT_EARLY_ERR_COUNT p else Reg.PORT_LATE_ERR_COUNT p)
    | none => s
  violate s p

/-- Reception that continues outside every window counts as one blocked frame for each 1 µs: `n` is its length in ns from `start`, which is counted where `first` (R198). -/
def blockRun (s : State) (p start n : Nat) (first : Bool) : State :=
  (List.range ((n + 999) / 1000)).foldl (fun s i =>
    let t := start + 1000 * i
    if (i != 0 || first) && (windowAt s p t).isNone && (asyncAt s p t).isNone then blockFrame s p t else s) s

/-- A frame that starts in no window is blocked for as long as it lasts (R196, R198). -/
def blockWhole (s : State) (p : Nat) (f : RxFrame) : State := blockRun s p f.start (frameNs s p f.bytes.length) true

/-- Key of a port's entry in the offset and drift tables. -/
def entKey (p k : Nat) : Nat := p * 4096 + k

/-- A frame starts within the window of a receive entry: its offset is recorded, and the drift and violation runs follow; the first such frame of a cycle counts for the drift run (R199, R200). -/
def noteStart (s : State) (p k start : Nat) (e : SlotE) : State :=
  let d : Int := (start : Int) - expected s p e
  let out := decide ((guardNs s p / 2 : Nat) < d.natAbs)
  let l := s.lemac
  let key := entKey p k
  let seen := (tget (fun _ => none) l.offs key).isSome
  let s := { s with lemac := { l with
    offs := tput (fun _ => none) l.offs key (some d),
    drift := if seen then l.drift else tmod (fun _ => 0) l.drift key (fun n => if out then n + 1 else 0),
    within := if seen then l.within else tmod (fun _ => 0) l.within key (fun n => if out then 0 else n + 1) } }
  wr s (Reg.PORT_VRUN_RUN p) 0

/-- The page's LINK bit follows what the port hears (log 21). -/
def linkUp (s : State) (p : Nat) : State := wr s (Reg.PORT_STAT_LINK p) 1

/-! ## The checks of R187 -/

/-- What the checks find. -/
inductive Chk where
  | crc | blocked | slotErr | plain
  | ok (ent : Nat)
  deriving DecidableEq, Repr

/-- Sender position of a frame at a port (R187). -/
def senderPos (s : State) (p : Nat) (f : RxFrame) : Nat :=
  if cfgOn s (Reg.PORT_LINE_END p) then cfg s (Reg.PORT_LINE_N p) - 1 - fHops f else fHops f

/-- The KIND of the frames that a receive entry admits (R181, R192). -/
def fKindOf (e : SlotE) : Nat := if e.kind = 0 then 3 else 5

/-- Checks 3 to 7 of a frame in the window of an entry. -/
def chkEntry (s : State) (p k : Nat) (e : SlotE) (f : RxFrame) : Chk :=
  if fEther f ≠ cfg s Reg.LEMAC_ETYPE_ETYPE then .slotErr
  else if ¬ fValid f then .slotErr
  else if fCyc f ≠ s.sched.cycle % 2 ^ 16 then .slotErr
  else if fSlot f ≠ e.slot ∨ fKind f ≠ fKindOf e then .slotErr
  else if senderPos s p f ≠ e.pos ∨ (cfgOn s (Reg.PORT_LINE_END p) ∧ cfg s (Reg.PORT_LINE_N p) ≤ fHops f) then .slotErr
  else .ok k

/-- The checks of R187 of a node frame or a sync measurement, in their order. -/
def chkFrame (s : State) (f : RxFrame) : Chk :=
  let p := f.port.val
  if ¬ f.fcs then .crc
  else
    match windowAt s p f.start with
    | some k => match (portSlots s p)[k]? with
      | some e => chkEntry s p k e f
      | none => .slotErr
    | none =>
      match asyncAt s p f.start with
      | some _ => if fEther f = cfg s Reg.LEMAC_ETYPE_ETYPE then .slotErr else .plain
      | none => .blocked

/-- The checks that apply to frames with no slot entry: FCS, EtherType, VER, KIND and NULL, and CYC where the unit runs (R187; log 22). -/
def chkHead (s : State) (f : RxFrame) (kind : Nat) (cyc : Bool) : Chk :=
  if ¬ f.fcs then .crc
  else if fEther f ≠ cfg s Reg.LEMAC_ETYPE_ETYPE ∨ ¬ fValid f ∨ fKind f ≠ kind then .slotErr
  else if cyc ∧ fCyc f ≠ s.sched.cycle % 2 ^ 16 then .slotErr
  else .ok 0

/-- A frame that fails a check is counted (R187). -/
def countChk (s : State) (p : Nat) (f : RxFrame) (c : Chk) : State :=
  match c with
  | .crc => incErr s (Reg.PORT_CRC_ERR_COUNT p)
  | .slotErr => incErr s (Reg.PORT_SLOT_ERR_COUNT p)
  | .blocked => blockWhole s p f
  | .plain => s
  | .ok _ => s

/-! ## Points and edges of a slot (R49, R183, R193) -/

/-- The map items of a receive entry. -/
def entItems (s : State) (e : SlotE) : List Nat := (List.range e.mapn).map (fun i => mapItem s (bank s) (e.map + i))

/-- The points of a receive entry are marked stale (R440). -/
def staleItems (s : State) (l : List Nat) : State := l.foldl (fun s w => setStale s (w % 2 ^ 20) true) s

/-- The values of a node frame are written to its points; an item past LEN is marked stale (R183; log 22). -/
def writeItems (s : State) : List Nat → List Byte → State
  | [], _ => s
  | w :: r, v =>
    let n := if bitOf 20 w then 8 else 4
    if v.length < n then staleItems s (w :: r)
    else
      let x := beNat (v.take n)
      let y := if n = 4 ∧ bitOf 21 w ∧ bitOf 31 x then x + 0xFFFFFFFF * 2 ^ 32 else x
      writeItems (wrPt s (w % 2 ^ 20) y false) r (v.drop n)

/-- Key of a slot: kind, segment and stream; the two copies of a closed line share it (R49, R208). -/
def slotKey (e : SlotE) : Nat := e.kind * 2 ^ 16 + e.slot

/-- The ports and entries that hold a slot. -/
def slotPlaces (s : State) (key : Nat) : List (Nat × Nat) :=
  (List.range 24).flatMap (fun p => (((portSlots s p).zip (List.range 4096)).filter (fun x => x.1.isRx && slotKey x.1 == key)).map (fun x => (p, x.2)))

/-- The slot's edges have fired in this cycle. -/
def slotFired (s : State) (key : Nat) : Bool :=
  s.lemac.fired.any (fun x => match (portSlots s x.1)[x.2]? with | some e => slotKey e == key | none => false)

/-- The slot's edges fire, once per cycle (R49). -/
def fireSlot (s : State) (p k : Nat) (e : SlotE) : State :=
  fireEdges { s with lemac := { s.lemac with fired := s.lemac.fired ++ [(p, k)] } } (pReceive p) (slotEdges s (bank s) e)

/-- A slot counts as missing: its points are stale and its edges fire (R49). -/
def missSlot (s : State) (p k : Nat) (e : SlotE) : State :=
  let s := staleItems s (entItems s e)
  fireSlot { s with lemac := { s.lemac with rxMiss := s.lemac.rxMiss ++ [(p, k)] } } p k e

/-! ## Duplicate identity (R208) -/

/-- The accepted frame that clashes with a new one: same kind and NODE_ID, or two copies of one stream, with another payload. -/
def clashWith (s : State) (r : RxRec) : Option (RxRec × Bool) :=
  match s.lemac.rx.find? (fun q => q.kind == r.kind && q.stream == r.stream && q.seg == r.seg && q.body != r.body) with
  | some q => some (q, true)
  | none => (s.lemac.rx.find? (fun q => q.kind == r.kind && q.node == r.node && q.body != r.body)).map (fun q => (q, false))

/-- A clash is recorded (R208). -/
def noteClash (s : State) (a b : RxRec) (stream : Bool) : State :=
  let ents := [a, b].map (fun q => (q.kind * 2 ^ 16 + q.seg * 2 ^ 11 + q.stream))
  let stale (s : State) (q : RxRec) : State := match (portSlots s q.port)[q.ent]? with | some e => staleItems s (entItems s e) | none => s
  let s := stale (stale s a) b
  let s := { s with lemac := { s.lemac with clashNext := s.lemac.clashNext ++ ents.filter (fun k => !s.lemac.clashNext.contains k) } }
  let s := wrs s [(Reg.LEMAC_CLASH_KIND, b2n stream), (Reg.LEMAC_CLASH_SEG, a.seg), (Reg.LEMAC_CLASH_POS_A, a.pos),
    (Reg.LEMAC_CLASH_POS_B, b.pos), (Reg.LEMAC_CLASH_ID_ID, if stream then a.seg * 2 ^ 11 + a.stream else a.node)]
  let s := setSticky s Reg.LEMAC_CLASH_VALID
  post s 0x3008 3 (rdw s Reg.LEMAC_CLASH.addr)

/-! ## Accepted frames (R49, R61, R208) -/

/-- The record of an accepted frame. -/
def recOf (p k : Nat) (e : SlotE) (f : RxFrame) : RxRec :=
  { port := p, ent := k, kind := e.kind, seg := e.slot / 2 ^ 11, stream := e.slot % 2 ^ 11, pos := e.pos, node := fNum f 8 4, body := fBody f }

/-- The sync nodes: the senders of the SY entries of the schedule in service, lowest segment and stream first (R221). -/
def syncStreams (s : State) : List Nat :=
  (((List.range 24).flatMap (fun p => ((portSlots s p).filter (fun e => e.kind == 1)).map (fun e => e.slot))).dedup.mergeSort (fun a b => a ≤ b)).take 6

/-- The deviation that a sync node reports in this cycle (R186, R222). -/
def noteTheta (s : State) (slot : Nat) (dev : Int) : State :=
  let i := (syncStreams s).findIdx (fun x => x == slot)
  if i < 6 then { s with time := { s.time with theta := tins (2 + i) dev (tdel (2 + i) s.time.theta) } } else s

/-- A valid node frame or sync measurement reaches its slot: identity, then points and edges on the first valid copy (R49, R183, R208). -/
def takeSlot (s : State) (p k : Nat) (e : SlotE) (f : RxFrame) : State :=
  let r := recOf p k e f
  let clash := clashWith s r
  let s := { s with lemac := { s.lemac with rx := s.lemac.rx ++ [r] } }
  match clash with
  | some c =>
    let s := noteClash s c.1 r c.2
    if slotFired s (slotKey e) then s else missSlot s p k e
  | none =>
    if s.lemac.clash.contains (slotKey e) then s
    else if slotFired s (slotKey e) then s
    else
      let b := fBody f
      let s := if fNull f then staleItems s (entItems s e)
        else if e.kind = 0 then
          let s := writeItems s (entItems s e) ((b.drop 8).take (bNum b 4 2))
          if placesNode s (entItems s e) then noteNode s (fCyc f) else s
        else noteTheta s e.slot (sgn 64 (bNum b 4 8))
      fireSlot s p k e

/-- A frame of the slot would write its points and fire its edges (R49, R208). -/
def slotUsed (s : State) (p k : Nat) (e : SlotE) (f : RxFrame) : Bool :=
  (clashWith s (recOf p k e f)).isNone && !s.lemac.clash.contains (slotKey e) && !slotFired s (slotKey e)

/-- A forwarded frame reaches its slot; FWD_CNT counts those that are used (R249). -/
def takeForwarded (s : State) (p k : Nat) (e : SlotE) (f : RxFrame) : State :=
  takeSlot (if slotUsed s p k e f then incCnt s Reg.PEER_FWD_CNT_COUNT else s) p k e f

/-- Bytes that a port's buffer holds for a stalled receive engine. -/
def keptBytes (l : List RxFrame) : Nat := (l.map (fun f => f.bytes.length)).sum

/-- The receive engine of a port is stalled (R60, R61). -/
def rxStalled (s : State) (p : Nat) : Bool := poster s (pReceive p) != []

/-- The line of a port is broken at either unit of a pair, and its frames are forwarded (R249). -/
def forwards (s : State) (p : Nat) : Bool :=
  on s Reg.PEER_CFG_FWD_EN && (on s (Reg.PORT_STAT_BREAK p) || s.pair.peerBreak.getLsbD p) && peerUp s

/-- End of a receive entry's window as R49 uses it, in ns after the boundary: 1,000 ns later on a broken line whose frames are forwarded (R196, R249). -/
def windowStop (s : State) (p : Nat) (e : SlotE) : Nat := expected s p e + guardNs s p + if forwards s p then 1000 else 0

/-- An accepted node frame is forwarded while its line is broken at either unit (R249). -/
def forwardFrame (s : State) (p : Nat) (f : RxFrame) (e : SlotE) : State :=
  if forwards s p && (role s == rACTIVE || role s == rSTANDBY) && e.kind == 0 then emit s (.forward p f.bytes) else s

/-- A frame in the window of entry `k` passes its checks: it is taken, kept while the engine is stalled, or refused for want of room; the slot of a refused frame counts as missing at the end of its last window (R49, R61). -/
def acceptSlot (s : State) (f : RxFrame) (k : Nat) : State :=
  let p := f.port.val
  match (portSlots s p)[k]? with
  | none => s
  | some e =>
    let s := forwardFrame (incCnt s (Reg.PORT_RX_CNT_COUNT p)) p f e
    if rxStalled s p then
      if 32768 < keptBytes (port s p).kept + f.bytes.length then
        incErr s (Reg.PORT_STALL_ERR_COUNT p)
      else setPort s p { port s p with kept := (port s p).kept ++ [f] }
    else takeSlot s p k e f

/-- A frame that a slot entry admits, from the guardian on (R187, R196). -/
def rxSlotFrame (s : State) (f : RxFrame) : State :=
  let p := f.port.val
  if portLive s p then
    let s := linkUp s p
    let c := chkFrame s f
    let s := match windowAt s p f.start with
      | some k => match (portSlots s p)[k]? with | some e => noteStart s p k f.start e | none => s
      | none => s
    match c with
    | .ok k => acceptSlot s f k
    | c => countChk s p f c
  else s

/-! ## Epochs (R206) -/

/-- Epoch `a` is higher than epoch `b`. -/
def epochHigher (a b : Nat) : Bool := let d := (a + 2 ^ 32 - b % 2 ^ 32) % 2 ^ 32; decide (1 ≤ d) && decide (d < 2 ^ 31)

/-- The unit adopts or starts an epoch; it is written to AO retention RAM (R206). -/
def setEpoch (s : State) (e : Nat) : State :=
  let s := wr s Reg.LEMAC_EPOCH_EPOCH e
  { s with ao := { s.ao with epoch := e % 2 ^ 32 } }

/-- The unit comes to know an epoch (R203). -/
def learnEpoch (s : State) (e : Nat) : State :=
  match s.lemac.known with
  | some k => if epochHigher e k then { s with lemac := { s.lemac with known := some e } } else s
  | none => { s with lemac := { s.lemac with known := some e } }

/-- An epoch is heard on a port (R203, R215). -/
def hearEpoch (s : State) (p e : Nat) : State :=
  let s := if epochHigher e (rd s (Reg.PORT_EPOCH_SEEN_EPOCH p)) ∨ rd s (Reg.PORT_EPOCH_SEEN_EPOCH p) = 0 then wr s (Reg.PORT_EPOCH_SEEN_EPOCH p) e else s
  learnEpoch s e

/-- The highest epoch that the unit knows (R203). -/
def knownEpoch (s : State) : Nat :=
  match s.lemac.known with
  | some k => if epochHigher k s.ao.epoch then k else s.ao.epoch
  | none => s.ao.epoch

/-! ## Transmission -/

/-- The port may transmit cyclic frames (R199, R207, R257). -/
def maySend (s : State) (p : Nat) : Bool := portLive s p && !(port s p).supNow && !s.pair.silent

/-- A port sends a frame. -/
def sendFrame (s : State) (p at_ : Nat) (b : List Byte) : State := incCnt (emit s (.frame p at_ b)) (Reg.PORT_TX_CNT_COUNT p)

/-- Network time in 2^−40 ns. -/
def tNow (s : State) : Nat := s.time.ns * 2 ^ 40 + s.time.frac

/-- Set network time, in 2^−40 ns; SEC has 48 bits (R216). -/
def setTime (s : State) (t : Nat) : State := { s with time := { s.time with ns := t / 2 ^ 40 % (2 ^ 48 * 10 ^ 9), frac := t % 2 ^ 40 } }

/-- Network time reads `d` later, and the boundaries keep their spacing (R217, R231). -/
def moveTime (s : State) (d : Int) : State :=
  let s := setTime s ((tNow s : Int) + d).toNat
  { s with time := { s.time with tb := ((s.time.tb : Int) + d).toNat } }

/-- What one NET clock adds to network time, in 2^−40 ns: 4 ns × (1 + RATE × 2^−40), and the share of the correction that is slewed over this cycle (R217, R224). -/
def netIncrement (s : State) : Int := 4 * 2 ^ 40 + 4 * rds s Reg.TIME_RATE_RATE + s.time.slewNow * 2 ^ 24 * 4 / max 1 (rd s Reg.CYC_PERIOD_NS : Int)

/-- The unit's own oscillator counts `d`, in 2^−40 ns, and its sync clock runs from it at its trim (R222). -/
def ownPass (s : State) (d : Int) : State :=
  { s with time := { s.time with osc := s.time.osc + d, sync := s.time.sync.map (fun x => x + d + d * s.time.trim / 2 ^ 40) } }

/-- Network time runs on by `d` without a clock that the model has counted: its own oscillator counts as much as that takes. -/
def netPass (s : State) (d : Int) : State := ownPass s (d * (4 * 2 ^ 40) / netIncrement s)

/-- The unit joins the sync set, unless it is in it: its sync clock is set to network time (R222; log 48). -/
def joinSync (s : State) : State := if s.time.sync.isSome then s else { s with time := { s.time with sync := some (tNow s) } }

/-- The unit's own deviation at the last boundary in 2^−16 ns, a follower's as its CS frames have corrected network time (R222). -/
def ownTheta (s : State) : Option Int := s.time.own.map (fun d => rndRat (((d - s.time.adj : Int) : Rat) / 2 ^ 24))

/-- Offset and rate history are discarded: at a change of origin and across a step (R219, R232). -/
def dropHistory (s : State) : State :=
  { s with time := { s.time with theta := [], theta16 := [], cSum := 0, cPrev := 0, slewNext := 0 } }

/-- SGMII with an external PHY: ports 0 to 23, then PLANT0 and PLANT1. -/
def sgmii (s : State) (p : Nat) : Bool :=
  if p < 24 then decide (rd s (Reg.PORT_CTRL_SPEED p) = 1) else decide (rd s (Reg.PLANT_CFG_SPEED (p - 24)) = 0)

/-- What R226 adds to the instant at which a frame that the port receives crosses the balls, in 2^−16 ns: half of ASYM, and an external PHY's latency away. The fused latencies are what makes a stamp mark the balls (log 24). -/
def rxFix (s : State) (p : Nat) : Int :=
  rds s (Reg.TIME_ASYM_ASYM p) * 2048 - if sgmii s p then (rd s (Reg.TIME_ASYM_PHY_RX p) : Int) * 2 ^ 16 else 0

/-- The same for a frame that the port sends. -/
def txFix (s : State) (p : Nat) : Int :=
  rds s (Reg.TIME_ASYM_ASYM p) * 2048 + if sgmii s p then (rd s (Reg.TIME_ASYM_PHY_TX p) : Int) * 2 ^ 16 else 0

/-- SEC, NS and FRAC of a time in 2^−40 ns, most significant byte first (R182, R216). -/
def timeBytes (t : Nat) : List Byte :=
  let n := t / 2 ^ 40
  beBytes 6 (n / 10 ^ 9) ++ beBytes 4 (n % 10 ^ 9) ++ beBytes 2 (t % 2 ^ 40 / 2 ^ 24)

/-- The CS of a port at the boundary of the present cycle (R182). -/
def csFrame (s : State) (p : Nat) (far : Bool) : List Byte :=
  let step := s.time.stepped
  let ann := on s Reg.LEMAC_SWAP_PEND
  let body := beBytes 8 s.sched.cycle ++ timeBytes s.time.tb ++ beBytes 4 (rd s Reg.LEMAC_EPOCH_EPOCH) ++
    beBytes 2 (rd s Reg.LEMAC_SCHED_ACTIVE) ++ beBytes 2 (if ann then rd s Reg.LEMAC_SCHED_SHADOW else 0) ++
    beBytes 4 (if ann then s.lemac.swapDue else 0) ++ beBytes 4 (period s) ++ beBytes 1 (cfg s (Reg.PORT_LINE_N p)) ++
    beBytes 1 (cfg s (Reg.PORT_LINE_END p) + 2 * cfg s (Reg.PORT_LINE_CLOSED p)) ++
    beBytes 2 (if cfgOn s (Reg.PORT_LINE_CLOSED p) then dline s p else 0) ++ beBytes 8 (unsgn 64 (step.getD 0))
  mkFrame s 0xFFFF (s.sched.cycle % 2 ^ 16) 1 (b2n far * 2 ^ 10 + b2n step.isSome * 2 ^ 9) body

/-- CS_LAUNCH: every origin port, and every relay with FAR = 1, launches its CS at the boundary (R182, R201). -/
def launchCs (s : State) : State :=
  (List.range 24).foldl (fun s p =>
    if maySend s p && (isOrigin s p || isRelay s p) then
      incCnt (sendFrame s p 0 (csFrame s p (!isOrigin s p))) Reg.LEMAC_CS_CNT_CS_CNT
    else s) s

/-- PR_SEND: a priming node's PR frame on every line (R185, R203). -/
def sendPr (s : State) (pcyc : Nat) : State :=
  let n := s.time.tb / 2 ^ 40
  let body := beBytes 4 (rd s Reg.LEMAC_UID_HI_UID) ++ beBytes 4 (rd s Reg.LEMAC_UID_LO_UID) ++ beBytes 1 (cfg s Reg.LEMAC_RANK_RANK) ++
    beBytes 1 pcyc ++ beBytes 2 0 ++ beBytes 4 s.lemac.proposed ++ beBytes 6 (n / 10 ^ 9) ++ beBytes 4 (n % 10 ^ 9) ++
    beBytes 2 (rd s Reg.LEMAC_SCHED_ACTIVE) ++ beBytes 4 (period s)
  (List.range 24).foldl (fun s p => if maySend s p then sendFrame s p 0 (mkFrame s 0xFFFF (s.sched.cycle % 2 ^ 16) 4 (farFlag s p) body) else s) s

end Sys2Proof.Machine
end

