-- ==== Sys2Proof/Machine/Clock.lean ====
section
/-! DEFINITION. What time does on its own: one NET clock, and the real-time clock (R217, R224, R372, R385; log 7). -/

namespace Sys2Proof.Machine

/-- One period of the real-time clock ends: the time written is loaded, or the count advances (R385). -/
def rtcPeriod (s : State) : State :=
  match s.ao.rtcLoad with
  | some (sec, sub) =>
    let s := wrs s [(Reg.AO_RTC_SUB_SUB, sub), (Reg.AO_RTC_SEC_LO_SEC, sec), (Reg.AO_RTC_SEC_HI_SEC, sec / 2 ^ 32), (Reg.AO_REG_RTC_LOST, 0)]
    { s with ao := { s.ao with rtcLoad := none } }
  | none =>
    let sub := rd s Reg.AO_RTC_SUB_SUB + 1
    if sub < 32768 then wr s Reg.AO_RTC_SUB_SUB sub
    else
      let sec := rd64 s Reg.AO_RTC_SEC_LO_SEC Reg.AO_RTC_SEC_HI_SEC + 1
      wrs s [(Reg.AO_RTC_SUB_SUB, 0), (Reg.AO_RTC_SEC_LO_SEC, sec), (Reg.AO_RTC_SEC_HI_SEC, sec / 2 ^ 32)]

/-- 4 ns of the real-time clock, whose period is 10^9 / 32,768 ns. -/
def rtcTick (s : State) : State :=
  let f := s.ao.phase + 4 * 32768
  if f < 10 ^ 9 then { s with ao := { s.ao with phase := f } } else rtcPeriod { s with ao := { s.ao with phase := f - 10 ^ 9 } }

/-- One NET clock of network time, while NET is ON (R217, R222). -/
def netTick (s : State) : State := if domOn s dNET then ownPass (setTime s ((tNow s : Int) + netIncrement s).toNat) (4 * 2 ^ 40) else s

/-- One clock of time: 4 ns of network time and of the real-time clock (log 7). -/
def clockTick (s : State) : State := netTick (rtcTick s)

end Sys2Proof.Machine
end

