-- ==== Sys2Proof/Machine/Lemac.lean ====
section
/-! DEFINITION. Lemac reception, the guardian's reports, priming, and set-point launch (R49, R62, R63, R184 to R208, R283). -/

namespace Sys2Proof.Machine

/-! ## Node frames (R49) -/

/-- NF_RECEIVE (R49, R187). -/
def execNfReceive (f : RxFrame) (s : State) : Host.Outcome State Fault Refusal := .next (rxSlotFrame s f)

/-- SY_RECEIVE (R186, R187). -/
def execSyReceive (f : RxFrame) (s : State) : Host.Outcome State Fault Refusal := .next (rxSlotFrame s f)

/-- ACCEPTANCE_WINDOW_END: the window of entry `k` of port `p` ends, on a broken line not before its extension has passed (R249); the slot counts as missing once no later window of it is left (R49). -/
def execAcceptanceWindowEnd (p : Fin 24) (k : Fin 4096) (s : State) : Host.Outcome State Fault Refusal :=
  .next (
    match (portSlots s p)[k.val]? with
    | some e =>
      if e.isRx && domOn s dNET && !(forwards s p && decide (tNow s < s.time.tb + windowStop s p e * 2 ^ 40)) then
        let key := slotKey e
        let s := { s with lemac := { s.lemac with ended := s.lemac.ended ++ [(p.val, k.val)] } }
        if slotFired s key ∨ (slotPlaces s key).any (fun x => ((port s x.1).kept ++ (port s x.1).keptFwd).any (fun f => fSlot f == e.slot && fKind f == fKindOf e)) then s
        else if (slotPlaces s key).all (fun x => s.lemac.ended.contains x) then missSlot s p k e else s
      else s
    | none => s)

/-! ## The guardian (R197 to R201) -/

/-- RX_LEN_CUT: a reception that lasted its LEN is cut at `at_`, in ns after the boundary, and continues for `rest` ns (R197, R198). -/
def execRxLenCut (p : Fin 24) (at_ rest : Nat) (s : State) : Host.Outcome State Fault Refusal :=
  .next (if portLive s p then blockRun (violate (incErr s (Reg.PORT_LEN_ERR_COUNT p)) p) p at_ rest false else s)

/-- The frame that the port is sending ends early, with a bad FCS: what has left of it, of a length the spec leaves to the instant of the cut, is a free value (R197; log 2). -/
def cutLast (s : State) (p : Nat) : State :=
  let cut (n : Nat) : List Out → List Out
    | .frame q a b :: r => if q = p then .frameCut q a (b.take (n % b.length)) :: r else .frame q a b :: r
    | o :: r => o :: r
    | [] => []
  let f := free s
  let l := f.2.wire.reverse
  let i := l.findIdx (fun o => match o with | .frame q _ _ => q == p | _ => false)
  { f.2 with wire := (l.take i ++ cut f.1 (l.drop i)).reverse }

/-- TX_CUT: the port's own transmission is cut: a self-diagnosed fault (R197, R257). -/
def execTxCut (p : Fin 24) (s : State) : Host.Outcome State Fault Refusal :=
  .next (if portLive s p then cutLast (postOther (selfFault (incErr s (Reg.PORT_TXCUT_ERR_COUNT p)) .txCut) 3) p else s)

/-- GUARD_CLOSED: a violation run that reaches its limit closes the port (R199). -/
def execGuardClosed (p : Fin 24) (s : State) : Host.Outcome State Fault Refusal :=
  .next (
    if portLive s p && decide (cfg s Reg.GUARD_CFG_VIOL_LIMIT ≤ rd s (Reg.PORT_VRUN_RUN p)) then
      let s := wr s (Reg.PORT_STAT_CLOSED p) 1
      let s := wr s Reg.GUARD_CLOSED_PORT (putBit p true (rd s Reg.GUARD_CLOSED_PORT))
      post (setPort s p { port s p with kept := [] }) 0x3006 3 p
    else s)

/-- DRIFT bit of a sender (R214). -/
def driftField (seg pos : Nat) : Fld := ⟨(Reg.GUARD_DRIFT (2 * seg + pos / 32)).addr, pos % 32, pos % 32⟩

/-- DRIFT: the guardian reports a sender whose offset has exceeded GUARD / 2 for DRIFT_CYC cycles (R200). -/
def execDrift (p : Fin 24) (k : Fin 4096) (s : State) : Host.Outcome State Fault Refusal :=
  .next (
    match (portSlots s p)[k.val]? with
    | some e =>
      let key := entKey p k
      let seg := portSeg s p
      let d : Option Int := tget (fun _ => none) s.lemac.offs key
      if portLive s p && seg < 24 && decide (cfg s Reg.GUARD_CFG_DRIFT_CYC ≤ tget (fun _ => 0) s.lemac.drift key) && !on s (driftField seg e.pos) then
        let s := incCnt (setSticky s (driftField seg e.pos)) (Reg.PORT_DRIFT_CNT_DRIFT_CNT p)
        post s 0x3007 3 (seg + e.pos * 2 ^ 5 + unsgn 16 (d.getD 0) * 2 ^ 16)
      else s
    | none => s)

/-- LINE_BREAK: the far port heard no valid CS of the own epoch for 2 cycles (R201). -/
def execLineBreak (p : Fin 24) (s : State) : Host.Outcome State Fault Refusal :=
  .next (
    let x := port s p
    if portLive s p && isFar s p && decide (2 ≤ x.miss) && !on s (Reg.PORT_STAT_BREAK p) then
      let s := postOther (wr s (Reg.PORT_STAT_BREAK p) 1) 3
      let may := on s (Reg.PORT_CTRL_RELAY_EN p) && (!paired s || (role s == rSTANDBY && peerUp s))
      setPort s p { x with relayDue := may }
    else s)

/-- RELAY_END: 8 cycles of valid CS with FAR = 0 have been received; the boundary itself has ended the relay before its CS launch (R201). -/
def execRelayEnd (p : Fin 24) (s : State) : Host.Outcome State Fault Refusal :=
  .next (
    if 8 ≤ (port s p).good then relayEnd s p else s)

/-- PORT_LINK_DOWN: a port's link goes down; an active unit with PLOSS enabled ports down that are up at the standby, as `peerUp` shows them, diagnoses a fault (R257). -/
def execPortLinkDown (p : Fin 24) (peerUp : BitVec 24) (s : State) : Host.Outcome State Fault Refusal :=
  .next (
    let s := wr s (Reg.PORT_STAT_LINK p) 0
    let n := ((List.range 24).filter (fun q => cfgOn s (Reg.PORT_CTRL_EN q) && !on s (Reg.PORT_STAT_LINK q) && peerUp.getLsbD q)).length
    let lim := rd s Reg.PEER_CFG_PLOSS
    if role s = rACTIVE ∧ lim ≠ 0 ∧ lim ≤ n then selfFault s .ports else s)

/-! ## Cycle start frames (R201, R205, R207, R219) -/

/-- What a CS says (R182). -/
def csInfo (f : RxFrame) : CsInfo :=
  let b := fBody f
  { cycle := bNum b 0 8, time := (bNum b 8 6 * 10 ^ 9 + bNum b 14 4) * 2 ^ 16 + bNum b 18 2, epoch := bNum b 20 4, sched := bNum b 24 2,
    period := bNum b 32 4, far := fFar f, step := fStep f, stepNs := sgn 64 (bNum b 40 8) }

/-- The middle of a list of estimates: the median, or the mean of the middle two (R219). -/
def median (l : List Int) : Int :=
  let q := l.mergeSort (fun a b => a ≤ b)
  let n := q.length
  if n % 2 = 1 then q.getD (n / 2) 0 else rndRat (((q.getD (n / 2 - 1) 0 + q.getD (n / 2) 0 : Int) : Rat) / 2)

/-- A launching unit hears a CS on a port: its line's state, and the epoch rule (R201, R207). -/
def csAtOrigin (s : State) (p : Nat) (c : CsInfo) : State :=
  if epochHigher c.epoch (rd s Reg.LEMAC_EPOCH_EPOCH) ∧ ¬ on s (Reg.PORT_STAT_SUPERSEDED p) then
    post (wr s (Reg.PORT_STAT_SUPERSEDED p) 1) 0x2008 2 (portSeg s p + c.epoch % 2 ^ 27 * 2 ^ 5)
  else s

/-- The far port's view of the CS: within DLINE ± GUARD, of the own epoch (R201). -/
def csAtFar (s : State) (p start : Nat) (c : CsInfo) : State :=
  let ok := c.epoch == rd s Reg.LEMAC_EPOCH_EPOCH && decide (start ≤ dline s p + guardNs s p) && decide (dline s p ≤ start + guardNs s p)
  if ok then setPort s p { port s p with csOk := true, csNear := (port s p).csNear || !c.far } else s

/-- Two CS frames of consecutive cycles agree (R205). -/
def csAgree (a b : CsInfo) : Bool :=
  b.cycle == a.cycle + 1 && b.epoch == a.epoch && b.sched == a.sched && b.period == a.period &&
  decide (((b.time : Int) - a.time - a.period * 2 ^ 16).natAbs ≤ 100 * 2 ^ 16)

/-- The node adopts time, cycle count, epoch, schedule identifier, PERIOD and boundary from the CS: its boundaries are from then on those of the CS (R205, R442). -/
def adoptCs (s : State) (p : Nat) (c : CsInfo) : State :=
  let t := c.time * 2 ^ 24
  let s := setTime s (t + dline s p * 2 ^ 40)
  let s := setEpoch (wr s Reg.CYC_PERIOD_NS c.period) c.epoch
  joinSync { s with sched := { s.sched with cycle := c.cycle }, time := { s.time with tb := t, used := true }, lemac := { s.lemac with schedId := some c.sched } }

/-- Integration: with the second consistent CS the node adopts, with the third it is admitted (R205). -/
def integrate (s : State) (p : Nat) (c : CsInfo) : State :=
  let s := if rd s Reg.LEMAC_PSTATE_STATE = 2 then s else wr s Reg.LEMAC_PSTATE_STATE 2
  let put (n : Nat) (s : State) : State := { s with lemac := { s.lemac with integ := some (c, n), heard := true, pcyc := 0 } }
  match s.lemac.integ with
  | none => put 1 s
  | some (a, n) =>
    if c.cycle = a.cycle then s
    else if csAgree a c then
      if n = 1 then put 2 (adoptCs s p c)
      else wr (put (n + 1) s) Reg.LEMAC_PSTATE_STATE 3
    else put 1 s

/-- CS_LOSS: no valid CS for 4 cycles: a following node outside a pair begins again, or stays halted (R203, R204). -/
def execCsLoss (s : State) : Host.Outcome State Fault Refusal :=
  .next (
    if !s.lemac.launching && !paired s && decide (2 ≤ rd s Reg.LEMAC_PSTATE_STATE) && decide (rd s Reg.LEMAC_PSTATE_STATE ≤ 3) then
      stopLaunch s
    else s)

/-! ## Priming (R203, R204) -/

/-- A unit may prime: cold-start capable, not a pair member in a role other than ALONE, and not halted (R202 to R204). -/
def mayPrime (s : State) : Bool := cfgOn s Reg.LEMAC_RANK_PRIME_EN && !paired s && domOn s dNET && !on s Reg.LEMAC_PSTATE_PRIME_HALT

/-- PR_RECEIVE (R203, R204). -/
def execPrReceive (f : RxFrame) (s : State) : Host.Outcome State Fault Refusal :=
  .next (
    let p := f.port.val
    if portLive s p then
      let s := linkUp s p
      match chkHead s f 4 false with
      | .ok _ =>
        let b := fBody f
        let rank := bNum b 8 1
        let own := cfg s Reg.LEMAC_RANK_RANK
        let uid := bNum b 0 8
        let st := rd s Reg.LEMAC_PSTATE_STATE
        let s := hearEpoch (incCnt s (Reg.PORT_RX_CNT_COUNT p)) p (bNum b 12 4)
        if 2 ≤ st then s
        else if rank < own then
          let s := if st = 1 then post (setSticky s Reg.LEMAC_PSTATE_LOST_PRIMING) 0x300A 3 rank else s
          wr { s with lemac := { s.lemac with pcyc := 0, integ := none } } Reg.LEMAC_PSTATE_STATE 2
        else if rank = own ∧ uid ≠ rd s Reg.LEMAC_UID_LO_UID + 2 ^ 32 * rd s Reg.LEMAC_UID_HI_UID ∧ mayPrime s then
          let n := rd s Reg.LEMAC_PSTATE_RETRY
          let s := post (setSticky s Reg.LEMAC_PSTATE_RANK_CLASH) 0x3009 3 n
          let s := wr { s with lemac := { s.lemac with pcyc := 0, haltDue := decide (3 ≤ n) } } Reg.LEMAC_PSTATE_STATE 4
          if n < 3 then wr s Reg.LEMAC_PSTATE_RETRY (n + 1) else s
        else s
      | c => countChk s p f c
    else s)

/-- RANK_CLASH_BACKOFF_END: the node begins again (R204). -/
def execRankClashBackoffEnd (s : State) : Host.Outcome State Fault Refusal :=
  .next (if rd s Reg.LEMAC_PSTATE_STATE = 4 ∧ ¬ s.lemac.haltDue then wr s Reg.LEMAC_PSTATE_STATE 0 else s)

/-- PRIME_HALT: after 3 retries (R204). -/
def execPrimeHalt (s : State) : Host.Outcome State Fault Refusal :=
  .next (
    if rd s Reg.LEMAC_PSTATE_STATE = 4 ∧ s.lemac.haltDue then
      wrs { s with lemac := { s.lemac with haltDue := false } } [(Reg.LEMAC_PSTATE_STATE, 5), (Reg.LEMAC_PSTATE_PRIME_HALT, 1)]
    else s)

/-- LISTEN_END: the node primes (R203). -/
def execListenEnd (s : State) : Host.Outcome State Fault Refusal :=
  .next (
    if mayPrime s ∧ rd s Reg.LEMAC_PSTATE_STATE = 0 ∧ ¬ s.lemac.launching then
      wr { s with lemac := { s.lemac with pcyc := 0, proposed := (knownEpoch s + 1) % 2 ^ 32 } } Reg.LEMAC_PSTATE_STATE 1
    else s)

/-- RESTART: PRIME_HALT is left (R204). -/
def execRestart (m : Master) (w : W32) (s : State) : Host.Outcome State Fault Refusal :=
  .next (regAction s m Reg.LEMAC_PSTATE.addr w (fun s =>
    if wbits Reg.LEMAC_PSTATE_RESTART w = 1 ∧ on s Reg.LEMAC_PSTATE_PRIME_HALT then
      wrs { s with lemac := { s.lemac with integ := none } }
        [(Reg.LEMAC_PSTATE_STATE, 0), (Reg.LEMAC_PSTATE_PRIME_HALT, 0), (Reg.LEMAC_PSTATE_RETRY, 0)]
    else s))

/-- The plant port that TIME.CTRL.SRC names, while its ROLE is upstream (R230). -/
def upPort (s : State) : Option Nat :=
  let c := rd s Reg.TIME_CTRL_SRC
  if (c = 1 ∨ c = 2) ∧ domOn s dLINK ∧ domOn s dNET ∧ rd s (Reg.PLANT_PTPCFG_ROLE (c - 1)) = 2 then some (c - 1) else none

/-- An upstream reference is locked (R230). -/
def upLocked (s : State) : Bool := on s Reg.TIME_STAT_UPLOCK && (upPort s).isSome

/-- The last upstream offset o_u, in ns (R230). -/
def upOfs (s : State) : Int := sgn 64 (rd64 s Reg.TIME_UP_OFS_LO_OFS Reg.TIME_UP_OFS_HI_OFS)

/-- The unit starts: it launches CS from this boundary on, with network time as it stands, or upstream time where a reference is locked (R203, R218, R219). -/
def startCs (s : State) : State :=
  let s := dropHistory (setEpoch s s.lemac.proposed)
  let s := if upLocked s then moveTime s (-(upOfs s) * 2 ^ 40) else s
  wr (joinSync { s with lemac := { s.lemac with launching := true, pcyc := 0 }, time := { s.time with used := true } }) Reg.LEMAC_PSTATE_STATE 3

/-- PR_SEND and PRIMING_START, at a boundary of a priming node: PR with PCYC 1 to 4, then the start (R203). -/
def primeBoundary (s : State) : State :=
  if rd s Reg.LEMAC_PSTATE_STATE = 1 ∧ mayPrime s then
    if s.lemac.pcyc < 4 then
      let s := { s with lemac := { s.lemac with pcyc := s.lemac.pcyc + 1 } }
      sendPr s s.lemac.pcyc
    else startCs s
  else s

/-- The transmit ring's position returns to its first block, and a record in progress is dropped (R327). -/
def txRestart (s : State) (p : Nat) : State := setPort s p { port s p with txPos := 0, tx := none }
/-- The receive ring's position returns to its first block (R327). -/
def rxRestart (s : State) (p : Nat) : State := setPort s p { port s p with rxPos := 0 }
/-- A port is enabled: both rings begin again (R327). -/
def portEnable (was s : State) (p : Nat) (en : Fld) : State := if on s en && !on was en then rxRestart (txRestart s p) p else s

/-- REOPEN: the port reopens, or a superseded port sends again, from the next boundary (R199, R207). -/
def execReopen (m : Master) (p : Fin 24) (w : W32) (s : State) : Host.Outcome State Fault Refusal :=
  .next (regAction s m (Reg.PORT_CTRL p).addr w (fun t =>
    let s := portEnable s t p (Reg.PORT_CTRL_EN p)
    if wbits (Reg.PORT_CTRL_REOPEN p) w = 1 then setPort s p { port s p with reopen := true } else s))

/-- CLASH_CLR: clashing entries are used again from the next boundary (R208). -/
def execClashClr (m : Master) (w : W32) (s : State) : Host.Outcome State Fault Refusal :=
  .next (regAction s m Reg.LEMAC_CLASH_CLR.addr w (fun s =>
    if wbits Reg.LEMAC_CLASH_CLR_CLR w = 1 then { s with lemac := { s.lemac with clashClr := true } } else s))

/-! ## Set-point launch (R62, R63, R184, R283) -/

/-- The values of a set-point entry as the point store holds them at launch (R62, R184, R193). -/
def spValues (s : State) (w : Nat) : List Byte :=
  (List.range (bits 34 25 w)).flatMap (fun i =>
    let it := mapItem s (bank s) (bits 24 11 w + i)
    let v := ptVal s (it % 2 ^ 20)
    if bitOf 20 it then beBytes 8 v else beBytes 4 v)

/-- An entry is late: its contributor count is not zero (R62). -/
def entryLate (s : State) (i : Nat) : Bool := !bitOf 10 (spEntry s (bank s) i) && tget (fun _ => 0) s.sched.entries i != 0

/-- One entry of an SP frame: its header and values, or its header with NULL (R184). -/
def spBytes (s : State) (i : Nat) (late : Bool) : List Byte :=
  let w := spEntry s (bank s) i
  let safe := bitOf 10 w
  let v := if late then [] else if safe then safeMsg s (mapItem s (bank s) (bits 24 11 w) % 128) else spValues s w
  beBytes 4 (bits 5 0 w * 2 ^ 26 + bits 9 6 w * 2 ^ 22 + b2n late * 2 ^ 21 + b2n safe * 2 ^ 20 + v.length) ++ v

/-- The axes to which a late entry is attributed: a task of the axis has a LAUNCH edge to it that has not fired (R63). -/
def lateAxes (s : State) (i : Nat) : List Nat :=
  let b := bank s
  (((validTasks s b ++ (goneOf s b).map (fun g => g.task)).filter (fun t => (launchOf (taskEdges s b t)).contains i && !s.sched.launched.contains (t, i))).filterMap (taskAxis s b)).dedup

/-- The late runs that begin in this cycle are logged: each axis with the lowest entry attributed to it, then each entry that no axis has (R63). -/
def logLateRuns (s : State) : State :=
  let x := s.sched
  let axs := (x.lateNow.filter (fun a => !x.latePrev.contains a)).mergeSort (fun a b => a ≤ b)
  let es := (x.lateENow.filter (fun i => !x.lateEPrev.contains i)).mergeSort (fun a b => a ≤ b)
  let s := axs.foldl (fun s a => raise (post s 0x3001 3 (a + tget (fun _ => 4096) x.lateMin a * 2 ^ 10)) 0x14 7) s
  es.foldl (fun s i => raise (post s 0x3001 3 (i * 2 ^ 10 + 2 ^ 22)) 0x14 7) s

/-- A late entry is counted and attributed (R63). -/
def lateEntry (s : State) (i : Nat) : State :=
  let s := incCnt s Reg.CYC_LATE_CNT_COUNT
  let axs := lateAxes s i
  if axs = [] then
    { s with sched := { s.sched with lateENow := if s.sched.lateENow.contains i then s.sched.lateENow else s.sched.lateENow ++ [i] } }
  else
    axs.foldl (fun s a =>
      let x := axis s a
      let s := setAxis s a { x with lateErr := min 65535 (x.lateErr + 1) }
      let s := if x.lateErr = 65535 then setStat s (Reg.HDR_PAGE_STAT_SAT 0x80) else s
      { s with sched := { s.sched with lateNow := if s.sched.lateNow.contains a then s.sched.lateNow else s.sched.lateNow ++ [a],
                                       lateMin := tmod (fun _ => 4096) s.sched.lateMin a (fun n => min n i) } }) s

/-- An entry of the frame is noted: late ones in NULLMAP, the others with the values that are sent (R250, R255). -/
def noteEntry (s : State) (i : Nat) (late : Bool) : State :=
  if late then { s with lemac := { s.lemac with nulls := s.lemac.nulls ++ [i] } }
  else if bitOf 10 (spEntry s (bank s) i) then s
  else { s with lemac := { s.lemac with sent := tins i (spValues s (spEntry s (bank s) i)) (tdel i s.lemac.sent) } }

/-- Only the active unit of a pair sends safe messages: in a relaying standby's frame they are entries with NULL (R295; log 30). -/
def mutesSafe (s : State) : Bool := paired s && role s != rACTIVE

/-- SP_LAUNCH: the launch instant of SP entry `k` of port `p` (R62, R63). The standby forms its entries and does not send them, unless the port is a relay (R201, R250). -/
def execSpLaunch (p : Fin 24) (k : Fin 4096) (s : State) : Host.Outcome State Fault Refusal :=
  .next (
    match (portSlots s p)[k.val]? with
    | some e =>
      if e.kind = 2 ∧ domOn s dNET then
        let ids := (List.range e.spn).map (fun i => e.spe + i)
        let lates := ids.filter (entryLate s)
        let safe (i : Nat) : Bool := bitOf 10 (spEntry s (bank s) i)
        let null (i : Nat) : Bool := lates.contains i || (safe i && mutesSafe s)
        let body := ids.flatMap (fun i => spBytes s i (null i))
        let flags := b2n (ids.all null) * 2 ^ 11 + b2n (isRelay s p) * 2 ^ 10 + b2n (ids.any (fun i => safe i && !null i)) * 2 ^ 8
        let fr := mkFrame s e.slot (s.sched.cycle % 2 ^ 16) 2 flags body
        let s := ids.foldl (fun s i => noteEntry (if lates.contains i then lateEntry s i else s) i (lates.contains i)) s
        if maySend s p && (isOrigin s p || isRelay s p) then
          sendFrame (addCnt s (Reg.PORT_NULL_CNT_COUNT p) lates.length) p e.at_ fr
        else s
      else s
    | none => s)

end Sys2Proof.Machine
end

