-- ==== Sys2Proof/Machine/Schedule.lean ====
section
/-! DEFINITION. LEMAC.CMD and LEMAC.SWAP: the installation, clearing and swap of schedule banks (R190 to R195, R443). -/

namespace Sys2Proof.Machine

/-! ## The checks of R194, on the bank that the image would make -/

/-- First word and length in words of a table whose header word is `w`, with `per` words for each two items. -/
def tabSpan (s : State) (b w per : Nat) : Nat × Nat :=
  let x := schedWord s b w
  (bits 12 0 x, ((if w = 26 ∨ w < 26 then bits 25 13 x else bits 26 13 x) * per + 1) / 2)

/-- Every table, with its header word: slot entries take two words, set-point entries one, map items and edges half a word (R191 to R193). -/
def tables (s : State) (b : Nat) : List (Nat × Nat × Nat) :=
  (List.range 27).map (fun i =>
    let w := i + 2
    (w, tabSpan s b w (if w < 26 then 4 else if w = 26 then 2 else 1)))

/-- Reason 2: the header word of the first table outside words 32 to 8,191, or one that meets an earlier table. -/
def tabFault (s : State) (b : Nat) : Option Nat :=
  let ts := (tables s b).filter (fun t => t.2.2 != 0)
  (ts.find? (fun t => decide (t.2.1 < 32) || decide (8192 < t.2.1 + t.2.2) ||
    ts.any (fun u => decide (u.1 < t.1) && meets t.2.1 t.2.2 u.2.1 u.2.2))).map (fun t => t.1)

/-- End of an entry in ns after the boundary (R192). -/
def SlotE.stop (e : SlotE) : Nat := if e.kind = 3 then e.at_ + 256 * e.len else e.at_ + e.len

/-- The slot entries of a port with the word at which each stands. -/
def slotsAt (s : State) (b p : Nat) : List (Nat × SlotE) :=
  let l := slots s b p
  (List.range l.length).zip l |>.map (fun x => ((slotTab s b p).1 + 2 * x.1, x.2))

/-- Reason 3: an AT below 128 ns, an entry that does not end before PERIOD, or one out of order. -/
def orderFault (per : Nat) : Option SlotE → List (Nat × SlotE) → Option Nat
  | _, [] => none
  | prev, (w, e) :: r =>
    let back := match prev with | some q => decide (e.at_ < q.at_) | none => false
    if decide (e.at_ < 128) || decide (per ≤ e.stop) || back then some w else orderFault per (some e) r

/-- Time that a CS occupies on the wire, in ns (R182). -/
def csWire (s : State) (p : Nat) : Nat := if rd s (Reg.PORT_CTRL_SPEED p) = 2 then 301 else 752

/-- Reason 4: the spacing of R188 and the windows of R196, over a port's receive entries (log 23). -/
def gapFault (g cs : Nat) : Option SlotE → List (Nat × SlotE) → Option Nat
  | _, [] => none
  | prev, (w, e) :: r =>
    let near := match prev with
      | some q => decide (e.at_ < q.at_ + q.len + 96) || decide (e.at_ ≤ q.at_ + 2 * g)
      | none => false
    if near || decide (e.at_ < cs) then some w else gapFault g cs (some e) r

/-- A slot entry has a reserved code, or a bit set that its KIND does not name (R192). -/
def slotRsv (w0 w1 : Nat) : Bool :=
  let k := bits 38 36 w0
  w0 / 2 ^ 61 != 0 || decide (3 < k) ||
  (decide (k ≤ 1) && (w1 / 2 ^ 42 != 0 || decide (8 < bits 41 38 w1))) ||
  (k == 2 && (bits 35 22 w0 != 0 || bits 44 39 w0 != 0 || w1 / 2 ^ 24 != 0 || bits 23 12 w1 == 0)) ||
  (k == 3 && (bits 44 39 w0 != 0 || bits 60 45 w0 != 0 || decide (1 < w1)))

/-- The first index below `n` of which a test holds. -/
def firstIdx (n : Nat) (f : Nat → Bool) : Option Nat := (List.range n).find? f

/-- Number of map items, and of edges, that the header states. -/
def tabCount (s : State) (b w : Nat) : Nat := bits 26 13 (schedWord s b w)

/-- Reason 5: a reserved field or code, or an edge that R43 refuses. -/
def rsvFault (s : State) (b : Nat) : Option Nat :=
  let h := firstIdx 32 (fun i =>
    let x := schedWord s b i
    if i = 0 then x / 2 ^ 48 != 0
    else if 2 ≤ i ∧ i ≤ 25 then x / 2 ^ 26 != 0 || decide (4096 < bits 25 13 x)
    else if i = 26 then x / 2 ^ 26 != 0 || decide (4095 < bits 25 13 x)
    else if i = 27 ∨ i = 28 then x / 2 ^ 27 != 0 else x != 0)
  let sl := ((List.range 24).flatMap (fun p => (slotsAt s b p).map (fun x => x.1))).find? (fun w => slotRsv (schedWord s b w) (schedWord s b (w + 1)))
  let f26 := bits 12 0 (schedWord s b 26)
  let sp := firstIdx (spCount s b) (fun i => spEntry s b i / 2 ^ 35 != 0 || bits 34 25 (spEntry s b i) == 0)
  let mi := firstIdx (tabCount s b 27) (fun i => mapItem s b i / 2 ^ 22 != 0)
  let ed := firstIdx (tabCount s b 28) (fun i => edgeBad (slotEdge s b i))
  (((h.or sl).or (sp.map (· + f26))).or (mi.map (fun i => bits 12 0 (schedWord s b 27) + i / 2))).or
    (ed.map (fun i => bits 12 0 (schedWord s b 28) + i / 2))

/-- Reason 6: a map item that names segment 28 or segment 31 positions 32 to 63. -/
def mapFault (s : State) (b : Nat) : Option Nat :=
  (firstIdx (tabCount s b 27) (fun i =>
    let a := mapItem s b i % 2 ^ 20
    a / 32768 == 28 || (a / 32768 == 31 && decide (32 ≤ a / 512 % 64)))).map (fun i => bits 12 0 (schedWord s b 27) + i / 2)

/-- Reason 7: the shadow graph bank is not checked for this SCHED, or fails its own checks with this PERIOD (R42, R58). -/
def graphFault (s : State) (b : Nat) : Bool :=
  !on s Reg.CYC_GBANK_CHECKED || rd s Reg.CYC_GBANK_SCHED != bits 15 0 (schedWord s b 0) || (gFirstTask s b).isSome ||
  (List.range 4).any (fun c => (tget (fun _ => []) s.sched.intra (b * 4 + c)).any (intraLong (bits 47 16 (schedWord s b 0)))) ||
  (tget (fun _ => []) s.sched.inter b).any (armBad s b)

/-- The first reason of R194 that refuses bank `b`, with the first bank word at fault. -/
def bankFault (s : State) (b : Nat) : Option (Nat × Nat) :=
  let w0 := schedWord s b 0
  let per := bits 47 16 w0
  if bits 15 0 w0 = 0 ∨ (inService s ∧ bits 15 0 w0 = rd s Reg.LEMAC_SCHED_ACTIVE) ∨ per < 15625 ∨ 4000000 < per then some (1, 0)
  else
    let ports (f : Nat → Option Nat) : Option Nat := (List.range 24).findSome? f
    let r2 := (tabFault s b).map (fun w => (2, w))
    let r3 := (ports (fun p => orderFault per none (slotsAt s b p))).map (fun w => (3, w))
    let r4 := (ports (fun p => gapFault (rd s (Reg.PORT_SLOTCFG_GUARD p)) (csWire s p) none ((slotsAt s b p).filter (fun x => x.2.isRx)))).map
      (fun w => (4, w))
    let r5 := (rsvFault s b).map (fun w => (5, w))
    let r6 := (mapFault s b).map (fun w => (6, w))
    (r2.or (r3.or (r4.or (r5.or r6)))).or (if graphFault s b then some (7, 0) else none)

/-- The image at cistern block `blk` is copied into the points of bank `b` (R190, R194). -/
def copyBank (s : State) (blk b : Nat) : State := mwrite s (ptAddr (pt 31 (32 + 16 * b) 0 0)) (cistBytes s (256 * blk) 65536)

/-! ## The commands -/

/-- INSTALL: the image is held, or the command is refused (R194, R443). -/
def execInstall (m : Master) (w : W32) (s : State) : Host.Outcome State Fault Refusal :=
  .next (pairActionWith s m Reg.LEMAC_CMD.addr w
    (fun a b => if a.lemac.inst.isNone && b.lemac.inst.isSome then [writeItem a Reg.LEMAC_CMD.addr w] else []) (fun s =>
    if wbits Reg.LEMAC_CMD_OP w = 1 then
      let b := wbits Reg.LEMAC_CMD_BLOCK w
      if on s Reg.LEMAC_CMD_BUSY || on s Reg.LEMAC_SWAP_PEND then wr s Reg.LEMAC_CMD_RESULT 2
      else if !domOn s dCIST then wr s Reg.LEMAC_CMD_RESULT 3
      else if !hostOwned s b 256 then wr (holdAndReturn s b 256) Reg.LEMAC_CMD_RESULT 4
      else
        let h := clearAck (holdBlocks s b 256) 0
        wr { h with lemac := { h.lemac with inst := some b } } Reg.LEMAC_CMD_BUSY 1
    else s))

/-- INSTALL_COMPLETE: the whole bank is installed, or none of it (R194); in a pair it waits for the standby (R256). -/
def execInstallComplete (s : State) : Host.Outcome State Fault Refusal :=
  .next (
    match s.lemac.inst with
    | some blk =>
      let b := 1 - bank s
      let t := copyBank s blk b
      let fin (s : State) (result : Nat) : State :=
        let s := ackPeer (clearAck { s with lemac := { s.lemac with inst := none } } 0) 0
        clrBusy (wr (giveBack s blk 256) Reg.LEMAC_CMD_RESULT result) Reg.LEMAC_CMD_BUSY
      if waitsPeer s 0 then s
      else if !domOn s dCIST then fin s 3
      else
        match bankFault t b with
        | none => fin (wr t Reg.LEMAC_SCHED_SHADOW (bits 15 0 (schedWord t b 0))) 0
        | some (r, w) => fin (setSticky (wrs s [(Reg.LEMAC_CHK_REASON, r), (Reg.LEMAC_CHK_WORD, w)]) Reg.LEMAC_CHK_VALID) 1
    | none => s)

/-- CLEAR: no checked shadow bank is left (R213; log 23). -/
def execClear (m : Master) (w : W32) (s : State) : Host.Outcome State Fault Refusal :=
  .next (pairOp s m Reg.LEMAC_CMD.addr w (wbits Reg.LEMAC_CMD_OP w = 2) (fun s =>
    if on s Reg.LEMAC_CMD_BUSY || on s Reg.LEMAC_SWAP_PEND then wr s Reg.LEMAC_CMD_RESULT 2
    else wrs s [(Reg.LEMAC_SCHED_SHADOW, 0), (Reg.LEMAC_CMD_RESULT, 0)]))

end Sys2Proof.Machine
end

