-- ==== Sys2Proof/Machine/AsyncNet.lean ====
section
/-! DEFINITION. Asynchronous traffic: frame rings, asynchronous windows, timed launches, Lemac services and TSYNC (R198, R209, R210, R227, R236, R327 to R329). -/

namespace Sys2Proof.Machine

/-! ## Rings (R327) -/

/-- First block and length of a ring: ports 0 to 23, then PLANT0 and PLANT1. -/
def ringOf (s : State) (p : Nat) (tx : Bool) : Nat × Nat :=
  if p < 24 then
    if tx then (rd s (Reg.PORT_AQTX_BLOCK p), rd s (Reg.PORT_AQTX_NBLK p)) else (rd s (Reg.PORT_AQRX_BLOCK p), rd s (Reg.PORT_AQRX_NBLK p))
  else if tx then (rd s (Reg.PLANT_QTX_BLOCK (p - 24)), rd s (Reg.PLANT_QTX_NBLK (p - 24)))
  else (rd s (Reg.PLANT_QRX_BLOCK (p - 24)), rd s (Reg.PLANT_QRX_NBLK (p - 24)))

/-- The ring is not disabled, and the cistern can hold it. -/
def ringOn (s : State) (r : Nat × Nat) : Bool := decide (2 ≤ r.2) && decide (r.1 + r.2 ≤ 32768) && domOn s dCIST

/-- Blocks of a record that holds a frame of `n` bytes. -/
def recBlocks (n : Nat) : Nat := (16 + n + 255) / 256

/-- A block goes back to its previous owner (R329). -/
def handBack (s : State) (b n : Nat) : State := (List.range n).foldl (fun s i => setFloat s (b + i) (blk s (b + i)).prev.toNat false) s

/-- The 16 bytes of a record header (R328). -/
def recHeader (w0 ns frac : Nat) : List Byte := leBytes 4 w0 ++ leBytes 8 ns ++ leBytes 4 (frac % 2 ^ 16)

/-- A received frame enters its ring; none where the ring has no room (R329). -/
def ringPut (s : State) (p : Nat) (bytes : List Byte) (ns frac : Nat) (cut : Bool) : Option State :=
  let r := ringOf s p false
  let k := recBlocks bytes.length
  let x := port s p
  let o := if r.2 < x.rxPos + k then 0 else x.rxPos
  if ringOn s r && decide (k ≤ r.2) && allFloat s (r.1 + o) k 3 then
    let s := mwrite s (cistAddr (256 * (r.1 + o))) (recHeader (bytes.length + b2n cut * 2 ^ 28 + 2 ^ 31) ns frac ++ bytes)
    some (setPort (handBack s (r.1 + o) k) p { x with rxPos := (o + k) % r.2 })
  else none

/-- A frame of `n` bytes that starts at `t` ends early enough in the window (R209); a plant port has no windows (R236). -/
def endsInTime (s : State) (p t n : Nat) (win : Option (Nat × Bool)) : Bool :=
  match win with
  | some (stop, _) => decide (t + frameNs s p n + 2 * dline s p + 1000 ≤ stop)
  | none => decide (24 ≤ p)

/-- The EtherType of a record's frame is refused in the window (R209). -/
def etherRefused (s : State) (frame : List Byte) (win : Option (Nat × Bool)) : Bool :=
  match win with
  | some (_, tunnel) => beNat ((frame.drop 12).take 2) != cfg s Reg.LEMAC_ETYPE_ETYPE && !tunnel
  | none => false

/-- The port is in use: its domains are ON and it may send; a pair member other than the active sends no asynchronous frame (R246). -/
def mayQueue (s : State) (p : Nat) : Bool := if p < 24 then maySend s p && (!paired s || role s == rACTIVE) else domOn s dLINK && on s (Reg.PLANT_CFG_EN (p - 24))

/-- A ring frame leaves the port. -/
def sendRing (s : State) (p t : Nat) (frame : List Byte) : State :=
  if p < 24 then sendFrame s p t (padTo 60 frame) else incCnt (emit s (.plantFrame (p - 24) t (padTo 60 frame))) (Reg.PLANT_FRAME_CNT_TX (p - 24))

/-- What stands at the position of a transmit ring (R328, R329). -/
inductive TxHead where
  /-- nothing that the network DMA may act on -/
  | empty
  | wrap
  | badLen
  /-- a record of `k` blocks and its frame; LAUNCH_AT where TIMED is set -/
  | frame (k : Nat) (bytes : List Byte) (at_ : Option Nat)
  deriving DecidableEq, Repr

/-- Read the record at the position of a port's transmit ring. -/
def txHead (s : State) (p : Nat) : TxHead :=
  let r := ringOf s p true
  let b := r.1 + (port s p).txPos
  let w := imgWord s b 0
  let n := bits 10 0 w
  if !ringOn s r || flt s b != 3 then .empty
  else if bitOf 17 w then .wrap
  else if n < 14 ∨ 1514 < n ∨ r.2 < (port s p).txPos + recBlocks n then .badLen
  else if !allFloat s b (recBlocks n) 3 then .empty
  else .frame (recBlocks n) (cistBytes s (256 * b + 16) n) (if bitOf 16 w then some (mnum s (cistAddr (256 * b + 4)) 8) else none)

/-- The record at the position is taken in hand, with the STATUS it will get. -/
def takeRec (s : State) (p k status next : Nat) (wrap sent : Bool) : State :=
  let x := port s p
  setPort s p { x with tx := some { ofs := x.txPos, k := k, status := status, wrap := wrap, sent := sent, next := next } }

/-- A frame is sent at `t`, and its record taken in hand. -/
def launchRec (s : State) (p t k : Nat) (bytes : List Byte) : State :=
  takeRec (sendRing s p t bytes) p k 0 (t + frameNs s p bytes.length + wireNs s p 20) false true

/-- The transmit engine looks at its ring at instant `t` (R209, R329); a record with a launch time waits for it (R236). -/
def txStart (s : State) (p t : Nat) (win : Option (Nat × Bool)) : State :=
  if !mayQueue s p || (port s p).tx.isSome then s
  else
    match txHead s p with
    | .empty => s
    | .wrap => let f := free s; takeRec f.2 p 1 (f.1 % 8) t true false
    | .badLen => takeRec s p 1 3 t false false
    | .frame _ _ (some _) => s
    | .frame k bytes none =>
      if etherRefused s bytes win then takeRec s p k 4 t false false
      else if endsInTime s p t bytes.length win then launchRec s p t k bytes else s

/-- A time count as an instant in ns after the boundary, 0 where it lies before it. -/
def afterBoundary (s : State) (ns : Nat) : Nat := (ns * 2 ^ 40 - s.time.tb % 2 ^ 104) / 2 ^ 40

/-- TIMED_LAUNCH: the timed record at the position is launched, or fails (R236); `passed`: LAUNCH_AT had passed when it reached the head, or the port is still sending another frame. -/
def execTimedLaunch (p : Fin 26) (passed : Bool) (s : State) : Host.Outcome State Fault Refusal :=
  .next (
    if mayQueue s p && domOn s dNET && (port s p).tx.isNone then
      match txHead s p with
      | .frame k bytes (some at_) =>
        let t := afterBoundary s at_
        let win := if p.val < 24 then asyncAt s p t else none
        let lost (s : State) (st : Nat) : State := takeRec s p k st t false false
        if passed || (decide (p.val < 24) && win.isNone) || !endsInTime s p t bytes.length win then lost (incErr s Reg.TIME_LAUNCH_ERR_COUNT) 1
        else if etherRefused s bytes win then lost s 4
        else launchRec s p t k bytes
      | _ => s
    else s)

/-- The header of the record in hand is written, with the stamp of a frame that crossed the balls at `ns` and `frac` (R226), its blocks are handed back, and the position advances (R328, R329). -/
def finishRec (s : State) (p : Nat) (r : TxRun) (ns frac : Nat) (cut : Bool) : State :=
  let ring := ringOf s p true
  let b := ring.1 + r.ofs
  let st := if r.sent && cut then 2 else r.status
  let w0 := setBits 31 28 (imgWord s b 0) (st + 8)
  let f := free s
  let g := free f.2
  let t := ((ns * 2 ^ 16 + frac : Nat) + txFix s p).toNat
  let s := if r.sent then mwrite s (cistAddr (256 * b)) (recHeader w0 (t / 2 ^ 16) (t % 2 ^ 16))
    else mwrite g.2 (cistAddr (256 * b)) (recHeader w0 (f.1 % 2 ^ 64) g.1)
  let next := if r.wrap then 0 else (r.ofs + r.k) % ring.2
  setPort (handBack s b r.k) p { port s p with tx := none, txPos := next }

/-- TX_RECORD_COMPLETE: the record in hand is completed, and the ring's next one follows in the same window; a plant port with none in hand takes up its ring first (R329). -/
def execTxRecordComplete (p : Fin 26) (stamp : W64) (frac : BitVec 16) (cut : Bool) (s : State) : Host.Outcome State Fault Refusal :=
  .next (
    let s := if 24 ≤ p.val then txStart s p (afterBoundary s (timeCount s)) none else s
    match (port s p).tx with
    | some r =>
      if domOn s dCIST then
        let s := finishRec s p r stamp.toNat frac.toNat cut
        if p.val < 24 then (if (port s p).win.isSome then txStart s p r.next (port s p).win else s) else txStart s p r.next none
      else setPort s p { port s p with tx := none }
    | none => s)

/-! ## TSYNC (R226 to R228) -/

/-- Time of an instant in ns after the boundary, in 2^−40 ns. -/
def instant (s : State) (t : Nat) : Nat := s.time.tb + t * 2 ^ 40

/-- The receive stamp of a frame whose first bit crossed the balls `t` ns after the boundary, in 2^−16 ns (R226). -/
def rxStamp (s : State) (p t : Nat) : Nat := ((instant s t / 2 ^ 24 : Nat) + rxFix s p).toNat

/-- The transmit stamp of a frame that leaves `t` ns after the boundary, in 2^−16 ns (R226). -/
def txStamp (s : State) (p t : Nat) : Nat := ((instant s t / 2 ^ 24 : Nat) + txFix s p).toNat

/-- A line-delay measurement of a port enters its last five; DLINE is their median. -/
def noteDline (s : State) (p : Nat) (d : Nat) : State :=
  let l := (port s p).dl ++ [d]
  let l := l.drop (l.length - 5)
  wr (setPort s p { port s p with dl := l }) (Reg.PORT_DLINE_DLINE p) (min 65535 (median (l.map (fun x => (x : Int)))).toNat)

/-- D of R227 in ns: from the requester's stamps T1 and T4, the answer's T2, T3 and A, with the port's own ASYM as a. -/
def tsyncDelay (s : State) (p : Nat) (t1 t2 t3 t4 : W64) (a : Int) : Int :=
  rndRat (((((t4 - t1).toInt - (t3 - t2).toInt) + a - rds s (Reg.TIME_ASYM_ASYM p) * 4096 : Int) : Rat) / 2 ^ 17)

/-- Bytes of a TSYNC frame without its FCS, padded. -/
def asFrameLen : Nat := 60

/-- The value of the answer to a TSYNC READ with its head (R227): its NODE_ID field is a free value (log 24). -/
def tsyncBody (s : State) (p tag t2 t3 node : Nat) : List Byte :=
  beBytes 1 3 ++ beBytes 1 tag ++ beBytes 2 21 ++ beBytes 4 node ++ beBytes 1 0 ++ beBytes 8 t2 ++ beBytes 8 t3 ++
    beBytes 4 (unsgn 32 (rds s (Reg.TIME_ASYM_ASYM p) * 4096))

/-- A service frame of the device leaves `at_` ns after the boundary. -/
def sendAs (s : State) (p at_ : Nat) (body : List Byte) : State :=
  sendFrame s p at_ (mkFrame s 0xFFFE (s.sched.cycle % 2 ^ 16) 6 (farFlag s p) body)

/-- The answer to a TSYNC READ leaves, with its transmit stamp in T3, and counts (R227). -/
def sendResp (s : State) (p at_ : Nat) (q : Nat × Nat) : State :=
  let n := free s
  incCnt (sendAs n.2 p at_ (tsyncBody n.2 p q.1 q.2 (txStamp n.2 p at_ % 2 ^ 64) (n.1 % 2 ^ 32))) Reg.TIME_TSYNC_CNT_TSYNC_CNT

/-- The far port's TSYNC READ leaves; its TAG is a free value (R228; log 24). -/
def sendAsk (s : State) (p at_ : Nat) : State :=
  let n := free s
  let tag := n.1 % 256
  let body := beBytes 1 1 ++ beBytes 1 tag ++ beBytes 2 6 ++ beBytes 4 0 ++ beBytes 4 0x100 ++ beBytes 2 20
  let s := sendAs n.2 p at_ body
  setPort s p { port s p with askDue := false, asked := some (tag, txStamp s p at_ % 2 ^ 64) }

/-- As a window opens, TSYNC answers that wait leave first, then the far port's own READ, each where it ends in time; the instant at which the line is free again (R209, R227, R228; log 24). -/
def sendTsync (s : State) (p at_ : Nat) (win : Option (Nat × Bool)) : State × Nat :=
  let gap := frameNs s p asFrameLen + wireNs s p 20
  let x := (port s p).resp
  let s := if x = [] then s else setPort s p { port s p with resp := [] }
  let r := x.foldl (fun (a : State × Nat) q =>
    if !maySend a.1 p then a
    else if endsInTime a.1 p a.2 asFrameLen win then (sendResp a.1 p a.2 q, a.2 + gap)
    else (setPort a.1 p { port a.1 p with resp := (port a.1 p).resp ++ [q] }, a.2)) (s, at_)
  if (port r.1 p).askDue && maySend r.1 p && isFar r.1 p && endsInTime r.1 p r.2 asFrameLen win then (sendAsk r.1 p r.2, r.2 + gap) else r

/-- ASYNC_WINDOW_START: asynchronous window entry `k` of port `p` opens (R209, R227, R228). -/
def execAsyncWindowStart (p : Fin 24) (k : Fin 4096) (s : State) : Host.Outcome State Fault Refusal :=
  .next (
    match (portSlots s p)[k.val]? with
    | some e =>
      if e.kind = 3 ∧ domOn s dNET then
        let win := some (e.at_ + 256 * e.len, e.tunnel)
        let r := sendTsync (setPort s p { port s p with win := win }) p e.at_ win
        txStart r.1 p r.2 win
      else s
    | none => s)

/-- The transmit engines that are idle look at their rings: those of ports 0 to 23 in an open window, those of plant ports at any time (R209, R236). -/
def pollRings (s : State) : State :=
  (List.range 26).foldl (fun s p => if 24 ≤ p ∨ (port s p).win.isSome then txStart s p (afterBoundary s (timeCount s)) (port s p).win else s) s

/-- CAS_EXECUTE: the `k` oldest requests are performed in one clock, in the order of R326; records that this passes to the network DMA are sent where a window is open (R209). -/
def execCasExecute (k : Nat) (s : State) : Host.Outcome State Fault Refusal :=
  .next (
    let net := (s.casPend.take k).any (fun r => bits 31 30 r.w.toNat == 3)
    let s := casRun s k
    if net then pollRings s else s)

/-! ## Reception (R187, R198, R209) -/

/-- A frame enters the receive ring of its port, or is discarded for want of room (R209, R329). -/
def toRing (s : State) (f : RxFrame) (cut : Bool) : State :=
  let p := f.port.val
  let t := rxStamp s p f.start
  let s := incCnt s (Reg.PORT_RX_CNT_COUNT p)
  match ringPut s p f.bytes (t / 2 ^ 16) (t % 2 ^ 16) cut with
  | some s => s
  | none => incErr s (Reg.PORT_ADROP_ERR_COUNT p)

/-- A frame that starts in an asynchronous window, from the guardian on: `g` is what becomes of one that may be stored. A longer frame than 1,518 bytes is cut (R198; log 24). -/
def rxAsync (s : State) (f : RxFrame) (cut : Bool) (g : State → State) : State :=
  let p := f.port.val
  if portLive s p then
    let s := linkUp s p
    if (asyncAt s p f.start).isNone then (if f.fcs then blockWhole s p f else incErr s (Reg.PORT_CRC_ERR_COUNT p))
    else if 1514 < f.bytes.length then violate (incErr s (Reg.PORT_LEN_ERR_COUNT p)) p
    else if !cut && !f.fcs then incErr s (Reg.PORT_CRC_ERR_COUNT p)
    else g s
  else s

/-- The checks of R187 that follow the EtherType, of a Lemac frame in an asynchronous window: VER, KIND and NULL, then CYC once the unit runs (R181; log 22). -/
def asyncBad (s : State) (f : RxFrame) : Bool :=
  fEther f == cfg s Reg.LEMAC_ETYPE_ETYPE && (!fValid f || (rd s Reg.LEMAC_PSTATE_STATE == 3 && fCyc f != s.sched.cycle % 2 ^ 16))

/-- ASYNC_FRAME_RECEIVE (R187, R198, R209): RX_LEN_CUT counts a cut. -/
def execAsyncFrameReceive (f : RxFrame) (cut : Bool) (s : State) : Host.Outcome State Fault Refusal :=
  .next (rxAsync s f cut (fun s => if asyncBad s f then incErr s (Reg.PORT_SLOT_ERR_COUNT f.port) else toRing s f cut))

/-- The frame is a TSYNC READ to the device (R210, R227). -/
def isTsync (b : List Byte) : Bool := bNum b 0 1 == 1 && bNum b 4 4 == 0 && bNum b 8 4 == 0x100 && bNum b 12 2 == 20

/-- A TSYNC READ is answered in this window, or in the port's next one where the answer would not end in time; `t3` is the network time at which it leaves (R209, R227). -/
def answerTsync (s : State) (p tag t2 t3 : Nat) : State :=
  if !maySend s p then s
  else
    let at_ := (t3 + 2 ^ 64 - s.time.tb / 2 ^ 24 % 2 ^ 64) % 2 ^ 64 / 2 ^ 16
    let win := asyncAt s p at_
    if win.isSome && endsInTime s p at_ asFrameLen win then sendResp s p at_ (tag, t2)
    else setPort s p { port s p with resp := (port s p).resp ++ [(tag, t2)] }

/-- The answer to the TSYNC READ that the port has sent (R227, R228). -/
def isAnswer (s : State) (p : Nat) (b : List Byte) : Bool :=
  match (port s p).asked with
  | some q => bNum b 0 1 == 3 && bNum b 1 1 == q.1 && bNum b 2 2 == 21 && bNum b 8 1 == 0
  | none => false

/-- The answer completes the measurement: DLINE as in R227, with the port's own ASYM as a (R228). -/
def takeAnswer (s : State) (p start : Nat) (b : List Byte) : State :=
  match (port s p).asked with
  | some q =>
    let d := tsyncDelay s p (BitVec.ofNat 64 q.2) (BitVec.ofNat 64 (bNum b 9 8)) (BitVec.ofNat 64 (bNum b 17 8)) (BitVec.ofNat 64 (rxStamp s p start))
      (sgn 32 (bNum b 25 4))
    noteDline (setPort s p { port s p with asked := none }) p d.toNat
  | none => s

/-- AS_RECEIVE: a TSYNC READ is answered, at network time `t3` in 2^−16 ns where that is in time; an answer to the port's own READ gives its DLINE; every other service frame goes to the receive ring (R209, R210, R227, R228). -/
def execAsReceive (f : RxFrame) (t3 : W64) (s : State) : Host.Outcome State Fault Refusal :=
  .next (
    let p := f.port.val
    rxAsync s f false (fun s =>
      match chkHead s f 6 (decide (rd s Reg.LEMAC_PSTATE_STATE = 3)) with
      | .ok _ =>
        let b := fBody f
        if isTsync b then answerTsync (incCnt s (Reg.PORT_RX_CNT_COUNT p)) p (bNum b 1 1) (rxStamp s p f.start % 2 ^ 64) t3.toNat
        else if isAnswer s p b then takeAnswer (incCnt s (Reg.PORT_RX_CNT_COUNT p)) p f.start b
        else toRing s f false
      | c => countChk s p f c))

end Sys2Proof.Machine
end

