-- ==== Sys2Proof/Machine/TimeUnit.lean ====
section
/-! DEFINITION. Network time: averaging and rate correction, setting, steps, upstream steering, line delays, PTP on the plant ports, time-triggered outputs and captures (R216 to R242, R257). -/

namespace Sys2Proof.Machine

/-! ## The averaging instant (R221 to R225) -/

/-- The member number of this unit: its pair rank. -/
def ownMember (s : State) : Nat := cfg s Reg.LEMAC_RANK_RANK % 2

/-- Sync node of a member, as segment × 2^11 + stream. -/
def memberStream (s : State) (m : Nat) : Option Nat := if m < 2 then none else (syncStreams s)[m - 2]?

/-- The value of a member is not excluded for its sender (R223). -/
def memberOk (s : State) (m : Nat) : Bool :=
  bitOf m (rd s Reg.TIME_SYNC_CFG_MEMBER_EN) &&
  (match memberStream s m with | some k => !s.time.driftOut.contains k | none => true) &&
  (decide (2 ≤ m) || m == ownMember s || on s Reg.PEER_STAT_LANE0 || on s Reg.PEER_STAT_LANE1)

/-- Values discarded at each end (R223). -/
def ftol (v : Nat) : Nat := if v ≤ 2 then 0 else if v ≤ 6 then 1 else 2

/-- The mean of R223 after discarding `f` values at each end, rounded to nearest, ties to even (R224). -/
def trimmedMean (l : List Int) : Int :=
  let f := ftol l.length
  let q := ((l.mergeSort (fun a b => a ≤ b)).drop f).take (l.length - 2 * f)
  rndRat ((q.sum : Rat) / q.length)

/-- Saturation to ±m. -/
def satTo (m x : Int) : Int := max (-m) (min m x)

/-- The part of a history by `osc` that covers the last UP_TC seconds. -/
def lastTc (s : State) (l : List (Int × Int)) : List (Int × Int) :=
  let t0 : Int := s.time.osc - (max 1 (rd s Reg.TIME_UP_UP_TC) * (10 ^ 9 * 2 ^ 40) : Nat)
  l.drop ((l.filter (fun e => decide (e.1 ≤ t0))).length - 1)

/-- TIME.RATE clamped under R217; its history goes on (R233). -/
def setRate (s : State) (r : Int) : State :=
  let c := satTo ((rd s Reg.TIME_LIMITS_RATE_LIMIT * 2 ^ 40 / 10 ^ 9 : Nat) : Int) r
  let s := { s with time := { s.time with rates := lastTc s (s.time.rates ++ [(s.time.osc, c)]) } }
  wr s Reg.TIME_RATE_RATE (unsgn 32 c)

/-- Step 1 to 3 of R225 at a cycle whose count modulo 16 is 0: `used` are the values used now. -/
def rateStep (s : State) (used : Tbl Int) : State :=
  let ds := used.filterMap (fun e => (s.time.theta16.find? (fun q => q.1 == e.1)).map (fun q => e.2 - q.2 + s.time.cSum))
  if ds = [] then s
  else setRate s (rds s Reg.TIME_RATE_RATE + rndRat ((trimmedMean ds * 2 ^ 24 : Int) / ((16 * rd s Reg.CYC_PERIOD_NS * 2 ^ rd s Reg.TIME_CTRL_RSHIFT : Nat) : Rat)))

/-- The measured frequency ratio of the upstream clock to the unit's own oscillator over the last UP_TC seconds, less 1, in 2^−40; none before two measurements (R230). -/
def upRatio (s : State) : Option Int :=
  match s.time.ups, s.time.ups.getLast? with
  | a :: _, some b => if a.1 < b.1 then some (rndRat ((((b.2 - a.2) - (b.1 - a.1) : Int) : Rat) * 2 ^ 40 / ((b.1 - a.1 : Int) : Rat))) else none
  | _, _ => none

/-- Upstream steering, every 16 cycles (R230): the measured frequency ratio plus −o_u / UP_TC, clamped to ±SLEW_MAX × 10^−6; after a jump, a slew at SLEW_MAX (R231). -/
def upstreamStep (s : State) : State :=
  match upRatio s with
  | some r =>
    let o := upOfs s
    let lim : Rat := (rd s Reg.TIME_LIMITS_SLEW_MAX : Rat) * 2 ^ 40 / 10 ^ 6
    let term : Rat := (-o : Int) * 2 ^ 40 / ((10 ^ 9 * max 1 (rd s Reg.TIME_UP_UP_TC) : Nat) : Rat)
    let term := if o.natAbs ≤ rd s Reg.TIME_JUMP_LIMIT_NS then max (-lim) (min lim term) else if o < 0 then lim else -lim
    setRate s (r + rndRat term)
  | none => s

/-- AVERAGING_INSTANT: the time origin forms its corrections, with its own sync clock read at the boundary (R222 to R225, R230). -/
def execAveragingInstant (s : State) : Host.Outcome State Fault Refusal :=
  .next (
    if s.lemac.launching && domOn s dNET then
      let me := ownMember s
      let all : Tbl Int := match ownTheta s with | some d => tins me d (tdel me s.time.theta) | none => tdel me s.time.theta
      let cand := all.filter (fun e => memberOk s e.1)
      let win : Int := rd s Reg.TIME_SYNC_CFG_SYNC_WIN * 2 ^ 16
      let used := cand.filter (fun e => decide ((e.2.natAbs : Int) ≤ win))
      let outs := cand.filter (fun e => decide (win < (e.2.natAbs : Int)))
      let mask (l : Tbl Int) : Nat := (l.map (fun e => 2 ^ e.1)).sum
      let v := used.length
      let c := if v = 0 then 0
        else satTo (rd s Reg.TIME_CTRL_OFS_MAX * 2 ^ 16) (trimmedMean (used.map (fun e => e.2)) - s.time.cPrev)
      let s := outs.foldl (fun s _ => incErr s Reg.TIME_SYNCOUT_ERR_COUNT) s
      let s := wrs s [(Reg.TIME_STAT_NVAL, v), (Reg.TIME_STAT_FTOL, ftol v), (Reg.TIME_SYNC_STAT_OUT, mask outs), (Reg.TIME_SYNC_STAT_USED, mask used),
        (Reg.TIME_OFFSET_C, unsgn 32 c)]
      let s : State := { s with time := { s.time with cPrev := c, slewNext := c, thetaAvg := all } }
      if s.sched.cycle % 16 = 0 then
        let s := if rd s Reg.TIME_CTRL_SRC = 0 then rateStep s used else upstreamStep s
        { s with time := { s.time with theta16 := used, cSum := 0 } }
      else s
    else s)

/-! ## Setting and steps (R218, R232) -/

/-- Once per second the member trims its sync clock: by at most 1 × 10^−9, against its mean deviation, and by how much within that is a free value (R222; log 48). -/
def trimSync (s : State) : State :=
  let f := free s
  let d : Int := f.1 % 1100
  { f.2 with time := { f.2.time with trim := s.time.trim + (if s.time.devSum < 0 then d else if 0 < s.time.devSum then -d else 0) } }

/-- RTC_REALIGN, once per second: the RTC takes network time (R218, R222). -/
def execRtcRealign (s : State) : Host.Outcome State Fault Refusal :=
  .next (
    if domOn s dNET && domOn s dSTEWARD then
      let sec := s.time.ns / 10 ^ 9
      let f := s.time.ns % 10 ^ 9 * 32768
      let s := wrs s [(Reg.AO_RTC_SEC_LO_SEC, sec), (Reg.AO_RTC_SEC_HI_SEC, sec / 2 ^ 32), (Reg.AO_RTC_SUB_SUB, f / 10 ^ 9)]
      trimSync { s with ao := { s.ao with phase := f % 10 ^ 9 } }
    else s)

/-- Network time is loaded, and the boundaries keep their spacing (R217, R218). -/
def loadTime (s : State) (ns : Nat) : State := moveTime s ((ns : Int) * 2 ^ 40 - tNow s)

/-- SET: network time is set until the unit first launches or follows a CS (R218). -/
def execSet (m : Master) (w : W32) (s : State) : Host.Outcome State Fault Refusal :=
  .next (regAction s m Reg.TIME_SET_CMD.addr w (fun s =>
    if wbits Reg.TIME_SET_CMD_SET w = 1 then
      if s.time.used then errlog s 0x7A 7 m Reg.TIME_SET_CMD.addr
      else loadTime s (rd64 s Reg.TIME_SET_SEC_LO_VALUE Reg.TIME_SET_SEC_HI_VALUE * 10 ^ 9 + rd s Reg.TIME_SET_NS_VALUE)
    else s))

/-- STEP_ACCEPT: a step for boundary STEP_AT, 2 whole cycles ahead (R232). -/
def execStepAccept (m : Master) (w : W32) (s : State) : Host.Outcome State Fault Refusal :=
  .next (pairOp s m Reg.TIME_STEP_CMD.addr w (wbits Reg.TIME_STEP_CMD_ACCEPT w = 1) (fun s =>
    let n := rd64 s Reg.TIME_STEP_AT_LO_CYCLE Reg.TIME_STEP_AT_HI_CYCLE
    if leadOk s n 2 then
      wr { s with time := { s.time with step := some (n, sgn 64 (rd64 s Reg.TIME_STEP_LO_STEP Reg.TIME_STEP_HI_STEP)) } } Reg.TIME_STAT_STEPPEND 1
    else setSticky s Reg.TIME_STAT_STEPLATE))

/-- STEP_CANCEL: a pending step is withdrawn before its boundary (R232). -/
def execStepCancel (m : Master) (w : W32) (s : State) : Host.Outcome State Fault Refusal :=
  .next (pairOp s m Reg.TIME_STEP_CMD.addr w (wbits Reg.TIME_STEP_CMD_CANCEL w = 1) (fun s =>
    wr { s with time := { s.time with step := none } } Reg.TIME_STAT_STEPPEND 0))

/-! ## Upstream steering (R230, R231, R233) -/

/-- A plant port's PTP state beside its page. -/
def plant (s : State) (n : Nat) : PlantSt := tget (fun _ => {}) s.plants n
/-- Set a plant port's PTP state. -/
def setPlant (s : State) (n : Nat) (x : PlantSt) : State := { s with plants := tput (fun _ => {}) s.plants n x }

/-- A time jump is refused (R231). -/
def timeJump (s : State) (us : Nat) : State :=
  post (wr (incErr (setSticky s Reg.TIME_STAT_TJUMP) Reg.TIME_TJUMP_ERR_COUNT) Reg.TIME_STAT_UPLOCK 0) 0x300B 3 (min (2 ^ 32 - 1) us)

/-- UPSTREAM_SYNC_EVENT: the offset o_u in ns, measured against the upstream master `master`; only the master that the port has selected counts (R230, R231, R234). -/
def execUpstreamSyncEvent (master ofs : W64) (s : State) : Host.Outcome State Fault Refusal :=
  .next (
    match upPort s with
    | some n =>
      if (plant s n).best.bind (fun b => b.getLast?) = some master.toNat then
        let s := wr64 s Reg.TIME_UP_OFS_LO_OFS Reg.TIME_UP_OFS_HI_OFS ofs.toNat
        let s := { s with time := { s.time with ups := lastTc s (s.time.ups ++ [(s.time.osc, (tNow s : Int) - ofs.toInt * 2 ^ 40)]) } }
        let o := ofs.toInt.natAbs
        if o ≤ rd s Reg.TIME_JUMP_LIMIT_NS then wr (wr s Reg.TIME_STAT_UPLOCK 1) (Reg.PLANT_PTPSTAT_STATE n) 4
        else wr (timeJump s (o / 1000)) (Reg.PLANT_PTPSTAT_STATE n) 3
      else s
    | none => s)

/-- Measurements end: RATE is no longer steered by them, and the port listens (R230, R233). -/
def upstreamEnd (s : State) (n : Option Nat) : State :=
  let s := wr { s with time := { s.time with ups := [] } } Reg.TIME_STAT_UPLOCK 0
  match n with
  | some n => if rd s (Reg.PLANT_PTPSTAT_STATE n) = 4 then wr s (Reg.PLANT_PTPSTAT_STATE n) 3 else s
  | none => s

/-- Another upstream port, or none, is named since `was`: measurements begin anew, and with SRC = 0 holdover does not arise (R230, R233). -/
def upstreamChange (was s : State) : State :=
  let s := if upPort was = upPort s then s else upstreamEnd s (upPort was)
  if rd s Reg.TIME_CTRL_SRC = 0 then wr s Reg.TIME_STAT_HOLDOVER 0 else s

/-- The mean of RATE over the last UP_TC seconds (R233). -/
def meanRate (s : State) : Int :=
  let l := lastTc s s.time.rates
  let t0 : Int := s.time.osc - (max 1 (rd s Reg.TIME_UP_UP_TC) * (10 ^ 9 * 2 ^ 40) : Nat)
  let parts := (l.zip (l.drop 1 ++ [(s.time.osc, 0)])).map (fun e => (max t0 e.1.1, e.2.1, e.1.2))
  let w := (parts.map (fun e => e.2.1 - e.1)).sum
  if w ≤ 0 then rds s Reg.TIME_RATE_RATE else rndRat ((((parts.map (fun e => (e.2.1 - e.1) * e.2.2)).sum : Int) : Rat) / ((w : Int) : Rat))

/-- HOLDOVER: no upstream measurement has arrived in time; the time origin holds RATE at its mean over the last UP_TC seconds (R219, R233). -/
def execHoldover (s : State) : Host.Outcome State Fault Refusal :=
  .next (
    if rd s Reg.TIME_CTRL_SRC ≠ 0 ∧ domOn s dNET then
      let s := upstreamEnd (wr s Reg.TIME_STAT_HOLDOVER 1) (upPort s)
      if s.lemac.launching then setRate s (meanRate s) else s
    else s)

/-- HOLDOVER_END (R233). -/
def execHoldoverEnd (s : State) : Host.Outcome State Fault Refusal :=
  .next (if domOn s dNET then wr s Reg.TIME_STAT_HOLDOVER 0 else s)

/-! ## Line delays (R228) -/

/-- DLINE_MEASURE: in a cycle whose count modulo 64 is 0, each closed line is measured: a single unit by the CS at port n + 12, a pair by a TSYNC READ that the far port sends (R228). -/
def execDlineMeasure (s : State) : Host.Outcome State Fault Refusal :=
  .next (
    if s.sched.cycle % 64 = 0 ∧ domOn s dNET then
      if paired s then
        (List.range 24).foldl (fun s p => if isFar s p then setPort s p { port s p with askDue := true } else s) s
      else
        (List.range 12).foldl (fun s n =>
          match (port s (n + 12)).csAt with
          | some t =>
            if isFar s (n + 12) then
              let d := (rndRat (((t * 2 ^ 16 + rxFix s (n + 12) - txFix s n : Int) : Rat) / 2 ^ 16)).toNat
              noteDline (noteDline s n d) (n + 12) d
            else s
          | none => s) s
    else s)

/-! ## PTP on the plant ports (R234, R235) -/

/-- Lexicographic order of two lists of numbers. -/
def lexLt : List Nat → List Nat → Bool
  | a :: r, b :: q => decide (a < b) || (a == b && lexLt r q)
  | _, _ => false

/-- What the best master clock algorithm compares (R235; log 25). -/
def annKey (a : Announce) : List Nat :=
  [a.prio1.toNat, a.cls.toNat, a.accuracy.toNat, a.variance.toNat, a.prio2.toNat, a.identity.toNat]

/-- The device's own clock at a plant port. -/
def ownKey (s : State) (n : Nat) : List Nat :=
  [rd s (Reg.PLANT_GMQ_PRIO1 n), rd s (Reg.PLANT_GMQ_CLASS n), rd s (Reg.PLANT_GMQ_ACCURACY n), Config.gmVariance, rd s (Reg.PLANT_GMQ_PRIO2 n),
    Config.clockIdentity]

/-- The selected master has not announced itself for 3 announce intervals, by LOG_ANN of the port (R231, R235; log 25). -/
def annExpired (s : State) (n : Nat) : Bool :=
  let k := rds s (Reg.PLANT_INTV_LOG_ANN n)
  let d : Int := 3 * 10 ^ 9 * 2 ^ 40
  decide ((if 0 ≤ k then d * 2 ^ k.toNat else d / 2 ^ k.natAbs) ≤ s.time.osc - (plant s n).bestAt)

/-- ANNOUNCE_RECEIVE (R231, R234, R235). -/
def execAnnounceReceive (n : Fin 2) (a : Announce) (s : State) : Host.Outcome State Fault Refusal :=
  .next (
    if domOn s dLINK && on s (Reg.PLANT_CFG_EN n) then
      let k := annKey a
      if rd s (Reg.PLANT_PTPCFG_ROLE n) = 1 then
        if rd s (Reg.PLANT_PTPSTAT_STATE n) = 1 && lexLt k (ownKey s n) then
          incCnt (wr s (Reg.PLANT_PTPSTAT_STATE n) 2) (Reg.PLANT_PASSIVE_CNT_PASSIVE_CNT n)
        else s
      else if rd s (Reg.PLANT_PTPCFG_ROLE n) = 2 then
        let take := setPlant s n { plant s n with best := some k, bestAt := s.time.osc }
        match (plant s n).best with
        | none => take
        | some b =>
          if b.getLast? = k.getLast? then take
          else if lexLt k b || annExpired s n then
            if upPort s = some n.val then
              let f := free take
              upstreamEnd (timeJump f.2 (f.1 % 2 ^ 32)) (some n.val)
            else take
          else s
      else s
    else s)

/-- GM_RESUME: no better Announce for 3 announce intervals (R235). -/
def execGmResume (n : Fin 2) (s : State) : Host.Outcome State Fault Refusal :=
  .next (
    if domOn s dLINK && decide (rd s (Reg.PLANT_PTPCFG_ROLE n) = 1) && decide (rd s (Reg.PLANT_PTPSTAT_STATE n) = 2) then wr s (Reg.PLANT_PTPSTAT_STATE n) 1
    else s)

/-- The port works under IEEE 802.1AS (R234, R242). -/
def is8021as (s : State) (n : Nat) : Bool := decide (rd s (Reg.PLANT_PTPCFG_PROFILE n) = 0)

/-- PTP messages of the port go over UDP/IPv4 (R234, R242). -/
def ptpUdp (s : State) (n : Nat) : Bool := !is8021as s n && on s (Reg.PLANT_PTPCFG_UDP n)

/-- The transmit stamp of a frame that leaves a plant port now, in 2^−16 ns (R226). -/
def plantStamp (s : State) (n : Nat) : Nat := ((tNow s / 2 ^ 24 : Nat) + txFix s (24 + n)).toNat

/-- PTP_SYNC_SEND: a grandmaster port sends Sync, or Announce; an 802.1AS port in either role, and an upstream port that has selected a master, sends its delay request (R234, R235). -/
def execPtpSyncSend (n : Fin 2) (what : PtpSend) (s : State) : Host.Outcome State Fault Refusal :=
  .next (
    let role := rd s (Reg.PLANT_PTPCFG_ROLE n)
    let gm := decide (role = 1) && decide (rd s (Reg.PLANT_PTPSTAT_STATE n) = 1)
    let as := is8021as s n
    let udp := ptpUdp s n
    if domOn s dLINK && domOn s dNET && on s (Reg.PLANT_CFG_EN n) then
      let sent := incCnt s (Reg.PLANT_FRAME_CNT_TX n)
      match what with
      | .announce =>
        if gm then emit sent (.ptpAnnounce n (rd s (Reg.PLANT_PTPCFG_DOMAIN n)) (rdw s (Reg.PLANT_GMQ n).addr) (rd s Reg.TIME_UTC_OFS_SEC) udp) else s
      | .sync =>
        if gm then
          emit sent (.ptpSync n (plantStamp s n) (!as && on s (Reg.PLANT_PTPCFG_ONESTEP n)) (if as then (plant s n).tbi else 0)
            (if as then (plant s n).phase else 0) udp)
        else s
      | .delay =>
        if (if as then decide (role = 1 ∨ role = 2) else decide (role = 2) && (plant s n).best.isSome) then emit sent (.ptpRequest n as (plantStamp s n) udp) else s
    else s)

/-- The messageType of a PTP message in a frame, over UDP or IEEE 802.3; none for another frame (R234; log 25). -/
def ptpType (udp : Bool) (b : List Byte) : Option Nat :=
  if udp then
    if beNat ((b.drop 12).take 2) = 0x0800 ∧ beNat ((b.drop 23).take 1) = 17 ∧ beNat ((b.drop 36).take 2) = 319 then (b[42]?).map (fun x => x.toNat % 16) else none
  else if beNat ((b.drop 12).take 2) = 0x88F7 then (b[14]?).map (fun x => x.toNat % 16)
  else none

/-- PLANT_FRAME_RECEIVE: the frame enters the ring with its stamp or is dropped; a delay message is answered (R226, R234, R235, R327, R329). -/
def execPlantFrameReceive (n : Fin 2) (f : PlantFrame) (s : State) : Host.Outcome State Fault Refusal :=
  .next (
    if domOn s dLINK && on s (Reg.PLANT_CFG_EN n) && f.fcs && decide (f.bytes.length ≤ 1514) then
      let s := incCnt (wr s (Reg.PLANT_STAT_LINK n) 1) (Reg.PLANT_FRAME_CNT_RX n)
      let st := ((f.stamp.toNat * 2 ^ 16 + f.frac.toNat : Nat) + rxFix s (24 + n)).toNat
      let s := match ringPut s (24 + n) f.bytes (st / 2 ^ 16) (st % 2 ^ 16) false with
        | some s => s
        | none => incErr s (Reg.PLANT_DROP_ERR_DROP_ERR n)
      let as := is8021as s n
      match ptpType (ptpUdp s n) f.bytes with
      | some k =>
        if rd s (Reg.PLANT_PTPCFG_ROLE n) ≠ 0 ∧ (if as then k = 2 else k = 1 ∧ rd s (Reg.PLANT_PTPCFG_ROLE n) = 1) then
          emit (incCnt s (Reg.PLANT_FRAME_CNT_TX n)) (.ptpDelay n k (st / 2 ^ 16) (st % 2 ^ 16) (ptpUdp s n))
        else s
      | none => s
    else s)

/-! ## Time-triggered outputs (R237, R239) -/

/-- A time-triggered output. -/
def tt (s : State) (o : Nat) : TtSt := tget (fun _ => {}) s.tts o
/-- Set a time-triggered output; TSTAT.ARMED follows. -/
def setTt (s : State) (o : Nat) (x : TtSt) : State :=
  wr { s with tts := tput (fun _ => {}) s.tts o x } (Reg.CAPT_TSTAT_ARMED o) (b2n x.arm.isSome)

/-- Time of edge `n` of an arming: even edges lead to the active level, odd ones back to idle. -/
def TtArm.edge (a : TtArm) (n : Nat) : Nat := a.at_ + n / 2 * a.per + n % 2 * a.width

/-- Number of edges of an arming, none for MODE 1. -/
def TtArm.total (a : TtArm) : Option Nat := if a.mode = 0 then some 2 else if a.mode = 2 then some 1 else none

/-- The level after edge `n`. -/
def TtArm.level (a : TtArm) (n : Nat) : Bool := if n % 2 = 0 then !a.pol else a.pol

/-- An arming takes effect, with the output at its idle level, or finds its time past (R237; log 25). -/
def ttBegin (s : State) (o : Nat) (a : TtArm) : State :=
  if a.at_ < timeCount s then setTt (setSticky s (Reg.CAPT_TSTAT_LATE o)) o {}
  else wr (setTt s o { arm := some a }) (Reg.CAPT_TSTAT_LEVEL o) (b2n a.pol)

/-- The arming that the registers of an output describe. -/
def ttRegs (s : State) (o : Nat) : TtArm :=
  { mode := rd s (Reg.CAPT_TCFG_MODE o), pol := on s (Reg.CAPT_TCFG_POL o), at_ := rd64 s (Reg.CAPT_AT_LO_TIME o) (Reg.CAPT_AT_HI_TIME o),
    width := rd s (Reg.CAPT_WIDTH_NS o), per := rd s (Reg.CAPT_PERIOD_NS o) }

/-- After a write of TCFGm: with EN = 0 the output returns to its idle level at once (R237). -/
def ttIdle (s : State) (o : Nat) : State :=
  if on s (Reg.CAPT_TCFG_EN o) then s else wr (setTt s o {}) (Reg.CAPT_TSTAT_LEVEL o) (rd s (Reg.CAPT_TCFG_POL o))

/-- TT_ARM: arms an output; an armed one is replaced 1 µs later (R237). -/
def execTtArm (m : Master) (o : Fin 4) (w : W32) (s : State) : Host.Outcome State Fault Refusal :=
  .next (regAction s m (Reg.CAPT_TCFG o).addr w (fun s =>
    if wbits (Reg.CAPT_TCFG_ARM o) w = 1 ∧ on s (Reg.CAPT_TCFG_EN o) ∧ domOn s dNET then
      if (tt s o).arm.isSome then setTt s o { tt s o with next := some (ttRegs s o) } else ttBegin s o (ttRegs s o)
    else ttIdle s o))

/-- TT_REARM_EFFECT (R237). -/
def execTtRearmEffect (o : Fin 4) (s : State) : Host.Outcome State Fault Refusal :=
  .next (
    match (tt s o).next with
    | some a => if domOn s dAUX && domOn s dNET then ttBegin s o a else s
    | none => s)

/-- `n` edges of an output leave the ball (R237). -/
def ttEmit (s : State) (o : Nat) (a : TtArm) (n : Nat) : State :=
  let lv := a.level (a.n + n - 1)
  let s := addCnt (emit (wr s (Reg.CAPT_TSTAT_LEVEL o) (b2n lv)) (.ttEdge o n lv)) (Reg.CAPT_EDGE_CNT_EDGE_CNT o) n
  let b := { a with n := a.n + n }
  setTt s o { tt s o with arm := if b.total = some b.n then none else some b }

/-- TT_OUTPUT_EDGE: the next edge (R237). -/
def execTtOutputEdge (o : Fin 4) (s : State) : Host.Outcome State Fault Refusal :=
  .next (
    match (tt s o).arm with
    | some a => if domOn s dAUX && domOn s dNET then ttEmit s o a 1 else s
    | none => s)

/-- Edges of an arming, from number `n`, whose time lies before `now`. -/
def TtArm.skipped (a : TtArm) (now : Nat) : Nat :=
  let full : Nat := match a.total with
    | some t => ((List.range t).filter (fun i => decide (a.edge i < now))).length
    | none => if now ≤ a.at_ then 0 else (now - a.at_ - 1) / max 1 a.per * 2 + 1 +
        b2n (decide (a.at_ + (now - a.at_ - 1) / max 1 a.per * a.per + a.width < now))
  full - a.n

/-- A forward step: the edges whose time is skipped are emitted at the step instant, and MODE 1 continues after it (R239). -/
def ttStep (s : State) : State :=
  (List.range 4).foldl (fun s o =>
    match (tt s o).arm with
    | some a => let n := a.skipped (timeCount s); if n = 0 ∨ ¬ domOn s dAUX then s else ttEmit s o a n
    | none => s) s

/-! ## Captures (R238) -/

/-- A capture input. -/
def capt (s : State) (n : Nat) : CaptSt := tget (fun _ => {}) s.capts n
/-- Set a capture input. -/
def setCapt (s : State) (n : Nat) (x : CaptSt) : State := { s with capts := tput (fun _ => {}) s.capts n x }

/-- CAPTURE_EDGE: the filter has taken an edge at network time `taken`; its stamp marks the edge at the ball (R238). -/
def execCaptureEdge (n : Fin 8) (rise : Bool) (taken : W64) (s : State) : Host.Outcome State Fault Refusal :=
  .next (
    let sel := rd s (Reg.CAPT_CFG_EDGE n)
    if domOn s dAUX && domOn s dNET && on s (Reg.CAPT_CFG_EN n) && (if rise then sel == 0 || sel == 2 else sel == 1 || sel == 2) then
      let t := (taken.toNat + 2 ^ 64 - 4 * rd s (Reg.CAPT_CFG_FILT n)) % 2 ^ 64
      let x := capt s n
      let s := incCnt s (Reg.CAPT_CAPT_CNT_CAPT_CNT n)
      if x.fifo.length < 16 then setCapt s n { fifo := x.fifo ++ [(t, rise)], newest := t }
      else incErr (setCapt s n { x with newest := t }) (Reg.CAPT_OVF_ERR_OVF_ERR n)
    else s)

/-- CAPTURE_POP: a read of TS_LOn pops the oldest capture; a read of an empty FIFO returns 0 and pops nothing (R238). -/
def execCapturePop (m : Master) (n : Fin 8) (s : State) : Host.Outcome State Fault Refusal :=
  .next (
    let k := (Reg.CAPT_TS_LO n).addr
    pageAccess s m k (.reg m (BitVec.ofNat 24 k) 4 .read) (fun s =>
      match (capt s n).fifo with
      | [] => answer s 0
      | (t, r) :: q =>
        let s := setCapt s n { capt s n with fifo := q }
        answer (wrs s [(Reg.CAPT_TS_LO_TIME n, t), (Reg.CAPT_TS_HI_TIME n, t / 2 ^ 32), (Reg.CAPT_STAT_RISE n, b2n r)]) (t % 2 ^ 32)))

/-- The points of the captures, written at each boundary (R238). -/
def captPoints (s : State) : State :=
  if domOn s dAUX then
    (List.range 8).foldl (fun s n =>
      wrPt (wrPt s (pt 25 8 n 0) (capt s n).newest false) (pt 25 8 n 1) (rd s (Reg.CAPT_CAPT_CNT_CAPT_CNT n)) false) s
  else s

/-! ## Reading and faults -/

/-- NOW_NS_READ: latches seconds and fraction, banked by master (R17, R240, R413). -/
def execNowNsRead (m : Master) (s : State) : Host.Outcome State Fault Refusal :=
  .next (
    let k := Reg.TIME_NOW_NS.addr
    pageAccess s m k (.reg m (BitVec.ofNat 24 k) 4 .read) (fun s =>
      let sec := s.time.ns / 10 ^ 9
      let s := bput (bput (bput s m Reg.TIME_NOW_SEC_LO.addr sec) m Reg.TIME_NOW_SEC_HI.addr (sec / 2 ^ 32 % 2 ^ 16)) m Reg.TIME_NOW_FRAC.addr
        (s.time.frac / 2 ^ 24)
      answer s (s.time.ns % 10 ^ 9)))

/-- TIME_UNIT_FAULT: network time and the check counter differ by more than 4 ns (R257). -/
def execTimeUnitFault (s : State) : Host.Outcome State Fault Refusal := .next (if domOn s dNET then selfFault s .timeUnit else s)

end Sys2Proof.Machine
end

