-- ==== Sys2Proof/Machine/Feedback.lean ====
section
/-! DEFINITION. Encoder channels: counting, sampling, serial words, speed and points (R298 to R310). -/

namespace Sys2Proof.Machine

/-! ## Channels -/

/-- An encoder channel. -/
def enc (s : State) (n : Nat) : EncSt := tget (fun _ => {}) s.encs n
/-- Set an encoder channel. -/
def setEnc (s : State) (n : Nat) (x : EncSt) : State := { s with encs := tput (fun _ => {}) s.encs n x }

/-- TYPE of a channel, as taken over at the last boundary (R310). -/
def encType (s : State) (n : Nat) : Nat := cfg s (Reg.ENC_CFG_TYPE n)

/-- BASE of a channel (R300). -/
def encBase (s : State) (n : Nat) : W64 := BitVec.ofNat 64 (rd64 s (Reg.ENC_BASE_LO_BASE n) (Reg.ENC_BASE_HI_BASE n))

/-- Poster of the edges that encoder channels and the pair's input instant fire, served after the others (log 27). -/
def pInstant : Nat := 29

/-- A positive rational as a binary32 word, rounded to nearest, ties to even (R306). -/
def posB32 (q : Rat) : Nat :=
  let m (e : Int) : Nat := (rndRat (if 0 ≤ e then q / (2 ^ e.toNat : Nat) else q * (2 ^ (-e).toNat : Nat))).toNat
  let e0 : Int := (Nat.log2 q.num.toNat : Int) - Nat.log2 q.den - 23
  let e := if m e0 < 2 ^ 23 then e0 - 1 else e0
  (m e) + ((e + 149).toNat) * 2 ^ 23

/-- A rational as a binary32 word. -/
def ratB32 (q : Rat) : Nat := if q = 0 then 0 else if 0 < q then posB32 q else posB32 (-q) + 2 ^ 31

/-! ## Transitions (R299, R300) -/

/-- Quadrature position of levels (A, B) at bits 2 and 1: A leads B when counting up (log 28). -/
def quadPos (v : Nat) : Nat := match v / 2 with | 0 => 0 | 2 => 1 | 3 => 2 | _ => 3

/-- Sector of Hall levels (U, V, W) at bits 2, 1, 0 (R300). -/
def hallSector (v : Nat) : Option Nat := match v with | 1 => some 0 | 3 => some 1 | 2 => some 2 | 6 => some 3 | 4 => some 4 | 5 => some 5 | _ => none

/-- The step that a transition makes, none where it is invalid. -/
def encStepOf (type old new : Nat) : Option Int :=
  if type = 1 then
    match (quadPos new + 4 - quadPos old) % 4 with | 0 => some 0 | 1 => some 1 | 3 => some (-1) | _ => none
  else
    match hallSector old, hallSector new with
    | some a, some b => match (b + 6 - a) % 6 with | 0 => some 0 | 1 => some 1 | 5 => some (-1) | _ => none
    | none, some _ => some 0
    | _, none => none

/-- A counted edge in direction `d` at time `t` enters the speed window (R306). -/
def noteEdge (x : EncSt) (d : Int) (t : Nat) : EncSt :=
  let rev := !x.still && x.dir != 0 && d != x.dir
  { x with count := x.count + BitVec.ofInt 64 d, dir := d, tLast := t, tAny := some t, still := false, empty := 0,
           n := x.n + 1, net := x.net + d, t1 := if x.n = 0 then t else x.t1, tn := t, rev := x.rev || rev }

/-- ENCODER_TRANSITION: the filtered levels change from `old` to `new`, taken at network time `taken` (R299, R300). -/
def execEncoderTransition (n : Fin 8) (old new : BitVec 3) (taken : W64) (s : State) : Host.Outcome State Fault Refusal :=
  .next (
    let ty := encType s n
    if domOn s dAUX ∧ (ty = 1 ∨ ty = 2) then
      let x := enc s n
      let f := cfg s (Reg.ENC_CFG_FILT n)
      let t := taken.toNat - 4 * f
      let close := match x.tAny with | some u => decide (t < u + max 20 ((f + 2) * 4)) | none => false
      let s := if ty = 2 then (match hallSector new.toNat with | some k => wr s (Reg.ENC_STAT_SECTOR n) k | none => s) else s
      if ty = 1 ∧ quadPos new.toNat = quadPos old.toNat then s
      else
      match (if close then none else encStepOf ty old.toNat new.toNat) with
      | some d =>
        if d = 0 then setEnc s n { x with tAny := some t } else setEnc s n (noteEdge x (if cfgOn s (Reg.ENC_CFG_INV n) then -d else d) t)
      | none =>
        let s := incErr s (Reg.ENC_QERR_ERR_COUNT n)
        wr (setEnc s n { x with tAny := some t, bad := true, inv := true }) (Reg.ENC_STAT_REF_LOST n) 1
    else s)

/-- Z_EDGE: a rising edge of Z latches the count and the time; an armed one references the count (R300, R308). -/
def execZEdge (n : Fin 8) (taken : W64) (s : State) : Host.Outcome State Fault Refusal :=
  .next (
    if domOn s dAUX && cfgOn s (Reg.ENC_CFG_ZEN n) && encType s n == 1 then
      let x := enc s n
      let t := taken.toNat - 4 * cfg s (Reg.ENC_CFG_FILT n)
      let s := if domOn s dNET then wrPt (wrPt s (pt 25 n 0 4) x.count.toNat false) (pt 25 n 0 5) t false else s
      if on s (Reg.ENC_STAT_ZARMED n) then
        wrs (setEnc s n { x with count := encBase s n }) [(Reg.ENC_STAT_ZARMED n, 0), (Reg.ENC_STAT_REF_LOST n, 0)]
      else s
    else s)

/-! ## Speed (R305 to R307) -/

/-- A report: binary32 word, flags LOWRES, REV, STILL, BOUND in bits 0 to 3, stale. -/
structure Report where
  w : Nat
  flags : Nat
  stale : Bool
  deriving DecidableEq, Repr

/-- Report and next state of an incremental or Hall window that closes at `now`, T_w long (R306). -/
def speedCount (s : State) (n : Nat) (x : EncSt) (now tw : Nat) : Report × EncSt :=
  let per (k : Int) (t : Nat) : Nat := ratB32 ((k * 10 ^ 9 : Int) / ((max 1 t : Nat) : Rat))
  let base : EncSt := { x with n := 0, net := 0, rev := false, inv := false }
  if x.inv then (⟨x.rep, 0, true⟩, base)
  else if x.n = 0 then
    if x.still ∨ x.dir = 0 then (⟨0, 4, false⟩, { base with still := true })
    else if rd s (Reg.ENC_SPDCFG_STILL_WIN n) ≤ x.empty + 1 then (⟨0, 4, false⟩, { base with still := true, empty := x.empty + 1 })
    else
      let b : Rat := (10 ^ 9 : Rat) / ((max 1 (now - x.tLast) : Nat) : Rat)
      let p := |b32Rat x.rep|
      let v := if p ≤ b then p else b
      (⟨ratB32 (if x.dir < 0 then -v else v), 8, false⟩, { base with empty := x.empty + 1 })
  else if x.rev then (⟨per x.net tw, 2, false⟩, base)
  else if x.n = 1 then (⟨per x.net tw, 1, false⟩, base)
  else (⟨per (if x.dir < 0 then -((x.n : Int) - 1) else (x.n : Int) - 1) (x.tn - x.t1), 0, false⟩, base)

/-- Report of a serial window of T_w; `good`: the closing sample has not failed (R307). -/
def speedSerial (s : State) (n : Nat) (x : EncSt) (good : Bool) (tw : Nat) : Report × EncSt :=
  let base : EncSt := { x with pClose := x.count, goodClose := good }
  if !good || !x.goodClose then (⟨x.rep, 0, true⟩, base)
  else
    let d := (x.count - x.pClose).toInt
    if d = 0 then (⟨0, if rd s (Reg.ENC_SPDCFG_STILL_WIN n) ≤ x.empty + 1 then 4 else 0, false⟩, { base with empty := x.empty + 1 })
    else (⟨ratB32 ((d * 10 ^ 9 : Int) / ((max 1 tw : Nat) : Rat)), if d.natAbs = 1 then 1 else 0, false⟩, { base with empty := 0 })

/-- The report is published: the speed point and the flags of STAT (R308). -/
def putReport (s : State) (n : Nat) (r : Report) : State :=
  let s := wrs s [(Reg.ENC_STAT_LOWRES n, r.flags % 2), (Reg.ENC_STAT_REV n, r.flags / 2 % 2), (Reg.ENC_STAT_STILL n, r.flags / 4 % 2)]
  let s := setEnc s n { enc s n with rep := r.w }
  if domOn s dNET then
    if r.stale then setStale s (pt 25 n 0 1) true
    else wrPt s (pt 25 n 0 1) (r.w + r.flags * 2 ^ 32 + (enc s n).win * 2 ^ 36) false
  else s

/-! ## Samples (R301, R303, R308) -/

/-- EDGE0 to EDGE3 of a channel as their page holds them. -/
def edgeRegs (s : State) (n : Nat) : List Nat := (List.range 4).map (fun i => rd s (Reg.ENC_EDGE_EDGE n i))

/-- A channel fires its edges; while AUX is not ON the NET side fires those it took at the last boundary (R301; log 28). -/
def encEdges (s : State) (n : Nat) : State :=
  fireEdges s pInstant (realEdges (if domOn s dAUX then edgeRegs s n else tget (fun _ => []) s.sched.encEdges n))

/-- The NET side takes the edges of every channel (R301). -/
def takeEncEdges (s : State) : State :=
  { s with sched := { s.sched with encEdges := (List.range 8).foldl (fun t n => tput (fun _ => []) t n (edgeRegs s n)) s.sched.encEdges } }

/-- The counter of a failure cause; an invalid transition has counted already (R300, R303). -/
def countFail (s : State) (n cause : Nat) : State :=
  if cause = 1 then incErr s (Reg.ENC_CRC_ERR_COUNT n)
  else if cause = 2 then incErr s (Reg.ENC_EBIT_ERR_COUNT n)
  else if cause = 3 then incErr s (Reg.ENC_TMO_ERR_COUNT n) else s

/-- A sample is complete: `cause` is 0 or the failure of R303, `p6` the value of point 6, `r` the report of a window that it closes. -/
def encFinish (s : State) (n cause : Nat) (p6 : Nat) (r : Option Report) : State :=
  let s := countFail s n cause
  let x := enc s n
  let run := if cause = 0 then 0 else x.run + 1
  let s := setEnc s n { x with run := run, bad := false, await := false, tw := none }
  let s := if cause = 0 then s else wr s (Reg.ENC_STAT_LASTFAIL n) cause
  let stale := cause != 0 || on s (Reg.ENC_STAT_FAULT n)
  let s := wr s (Reg.ENC_STAT_STALE n) (b2n stale)
  let s := match r with | some r => putReport s n r | none => s
  let s := if domOn s dNET then
      let s := if stale then setStale s (pt 25 n 0 0) true else wrPt s (pt 25 n 0 0) x.count.toNat false
      let s := wrPt s (pt 25 n 0 2) (bits 13 0 (rdw s (Reg.ENC_STAT n).addr) + min 255 run * 2 ^ 16) false
      let s := wrPt s (pt 25 n 0 3) (if encType s n ≤ 2 then x.tLast else x.at_) false
      wrPt s (pt 25 n 0 6) p6 false
    else s
  encEdges s n

/-- ENCODER_SAMPLE: the count is latched, or a serial request is sent; an aligned cycle closes the speed window (R301, R305). -/
def execEncoderSample (n : Fin 8) (s : State) : Host.Outcome State Fault Refusal :=
  .next (
    let ty := encType s n
    if domOn s dAUX && domOn s dNET && ty != 0 then
      let now := (s.time.tb / 2 ^ 40 + rd s (Reg.ENC_SAMPLE_NS n)) % 2 ^ 64
      let x := enc s n
      let closes := x.isOpen && s.sched.cycle % max 1 x.win == 0
      let tw := if closes then some (now - x.close0) else none
      let x := { x with at_ := now, isOpen := true, close0 := if closes || !x.isOpen then now else x.close0,
                        n := if x.isOpen then x.n else 0, net := if x.isOpen then x.net else 0,
                        rev := x.isOpen && x.rev, inv := x.isOpen && x.inv }
      if ty ≤ 2 then
        let p6 := if ty = 2 then rd s (Reg.ENC_STAT_SECTOR n) else 0
        match tw with
        | some t => let r := speedCount s n x now t; encFinish (setEnc s n r.2) n (if x.bad then 4 else 0) p6 (some r.1)
        | none => encFinish (setEnc s n x) n (if x.bad then 4 else 0) p6 none
      else emit (setEnc s n { x with await := true, tw := tw }) (.encRequest n)
    else s)

/-! ## Serial words (R302, R304) -/

/-- A CRC of degree `g` with polynomial `poly`, top term implicit, over bits in order of reception (R302). -/
def crcBits (g poly : Nat) : Nat → List Bool → Nat
  | c, [] => c % 2 ^ g
  | c, b :: r =>
    let t := bitOf (g - 1) c != b
    crcBits g poly ((if t then (c * 2 % 2 ^ g) ^^^ (poly % 2 ^ g) else c * 2 % 2 ^ g)) r

/-- The low `n` bits of a number, most significant first. -/
def msbBits (n v : Nat) : List Bool := (List.range n).map (fun i => bitOf (n - 1 - i) v)

/-- Gray code to binary. -/
def unGray (n v : Nat) : Nat := ((msbBits n v).foldl (fun (a : Nat × Bool) b => let x := a.2 != b; (a.1 * 2 + b2n x, x)) (0, false)).1

/-- The cause with which a word fails, 0 where it is good (R302, R303). -/
def wordCause (s : State) (n : Nat) (k : SerialWord) : Nat :=
  let len := cfg s (Reg.ENC_SCFG_LEN n)
  let pos := msbBits len k.pos.toNat
  if encType s n = 3 then
    let g := cfg s (Reg.ENC_SCFG_CRC_LEN n) + 1
    let bs := if cfgOn s (Reg.ENC_SCFG_EBIT_EN n) then pos ++ [k.err] else pos
    let c := crcBits g (cfg s (Reg.ENC_CRCPOLY_POLY n)) (cfg s (Reg.ENC_CRCPOLY_INIT n)) bs
    let got := if cfgOn s (Reg.ENC_SCFG_CRCINV n) then 2 ^ g - 1 - k.crc.toNat % 2 ^ g else k.crc.toNat % 2 ^ g
    if cfgOn s (Reg.ENC_SCFG_CRC_EN n) && c != got then 1
    else if cfgOn s (Reg.ENC_SCFG_EBIT_EN n) && k.err == cfgOn s (Reg.ENC_SCFG_EPOL n) then 2 else 0
  else
    let c := crcBits 6 3 0 (pos ++ [k.err, k.warn])
    if 63 - c ≠ k.crc.toNat % 64 then 1 else if !k.err then 2 else 0

/-- A good word extends the count (R304). -/
def extendCount (s : State) (n : Nat) (x : EncSt) (r : Nat) : EncSt :=
  let len := cfg s (Reg.ENC_SCFG_LEN n)
  let inv := cfgOn s (Reg.ENC_CFG_INV n)
  let add (b : W64) (d : Int) : W64 := b + BitVec.ofInt 64 (if inv then -d else d)
  match x.rPrev with
  | none => { x with count := add (encBase s n) r, rPrev := some r }
  | some p =>
    let d : Int := (((r + 2 ^ len - p % 2 ^ len + 2 ^ (len - 1)) % 2 ^ len : Nat) : Int) - (2 ^ (len - 1) : Nat)
    { x with count := add x.count d, rPrev := some r }

/-- A sample that opens a window without closing one is its opening sample (R305, R307). -/
def serialOpen (x : EncSt) (good : Bool) : EncSt := if x.close0 = x.at_ then { x with pClose := x.count, goodClose := good } else x

/-- SERIAL_WORD_COMPLETE (R302 to R304). -/
def execSerialWordComplete (n : Fin 8) (word : SerialWord) (s : State) : Host.Outcome State Fault Refusal :=
  .next (
    let x := enc s n
    if domOn s dAUX ∧ x.await ∧ 3 ≤ encType s n then
      let c := wordCause s n word
      let len := cfg s (Reg.ENC_SCFG_LEN n)
      let raw := word.pos.toNat % 2 ^ len
      let biss := encType s n = 4
      let r := if !biss && cfgOn s (Reg.ENC_SCFG_GRAY n) then unGray len raw else raw
      let x := if c = 0 then extendCount s n x r else x
      let s := if c = 0 then wr s (Reg.ENC_STAT_REF_LOST n) 0 else s
      let s := wr s (Reg.ENC_STAT_WARN n) (b2n (biss && !word.warn))
      let s := if biss then wr s (Reg.ENC_DLY_NS n) word.dly.toNat else s
      let err := if biss then !word.err else cfgOn s (Reg.ENC_SCFG_EBIT_EN n) && word.err == cfgOn s (Reg.ENC_SCFG_EPOL n)
      let p6 := r + b2n err * 2 ^ 48 + b2n (biss && !word.warn) * 2 ^ 49
      match x.tw with
      | some t => let q := speedSerial s n x (c == 0) t; encFinish (setEnc s n q.2) n c p6 (some q.1)
      | none => encFinish (setEnc s n (serialOpen x (c == 0))) n c p6 none
    else s)

/-- SERIAL_TIMEOUT: boundary + SAMPLE + TIMEOUT; a channel that is off, or whose domain is, is marked stale and fires its edges here too (R301). -/
def execSerialTimeout (n : Fin 8) (s : State) : Host.Outcome State Fault Refusal :=
  .next (
    if !domOn s dNET then s
    else if !domOn s dAUX || encType s n == 0 then
      encEdges ((List.range 7).foldl (fun s i => setStale s (pt 25 n 0 i) true) s) n
    else
      let x := enc s n
      if x.await then
        let s := wr s (Reg.ENC_STAT_WARN n) 0
        let p6 := ptVal s (pt 25 n 0 6)
        match x.tw with
        | some t => let q := speedSerial s n x false t; encFinish (setEnc s n q.2) n 3 p6 (some q.1)
        | none => encFinish (setEnc s n (serialOpen x false)) n 3 p6 none
      else s)

/-- ENC_FAULT: FAIL_LIM consecutive samples have failed (R303). -/
def execEncFault (n : Fin 8) (s : State) : Host.Outcome State Fault Refusal :=
  .next (
    if domOn s dAUX && !on s (Reg.ENC_STAT_FAULT n) && decide (rd s (Reg.ENC_FAIL_FAIL_LIM n) ≤ (enc s n).run) then
      post (wr s (Reg.ENC_STAT_FAULT n) 1) 0x3010 3 (n + rd s (Reg.ENC_STAT_LASTFAIL n) * 16)
    else s)

/-! ## Commands on CTRL (R300, R303) -/

/-- ENC_LOAD: the count takes BASE, is referenced, and a pending ZARM is disarmed. -/
def execEncLoad (m : Master) (n : Fin 8) (w : W32) (s : State) : Host.Outcome State Fault Refusal :=
  .next (regAction s m (Reg.ENC_CTRL n).addr w (fun s =>
    if wbits (Reg.ENC_CTRL_LOAD n) w = 1 then
      wrs (setEnc s n { enc s n with count := encBase s n }) [(Reg.ENC_STAT_REF_LOST n, 0), (Reg.ENC_STAT_ZARMED n, 0)]
    else s))

/-- ZARM: the next Z edge sets the count to BASE. -/
def execZarm (m : Master) (n : Fin 8) (w : W32) (s : State) : Host.Outcome State Fault Refusal :=
  .next (regAction s m (Reg.ENC_CTRL n).addr w (fun s =>
    if wbits (Reg.ENC_CTRL_ZARM n) w = 1 then wr s (Reg.ENC_STAT_ZARMED n) 1 else s))

/-- ENC_CLR: FAULT and the failure run are cleared; the next good serial word is a first one (R303, R304). -/
def execEncClr (m : Master) (n : Fin 8) (w : W32) (s : State) : Host.Outcome State Fault Refusal :=
  .next (regAction s m (Reg.ENC_CTRL n).addr w (fun s =>
    if wbits (Reg.ENC_CTRL_CLR n) w = 1 then wr (setEnc s n { enc s n with run := 0, rPrev := none }) (Reg.ENC_STAT_FAULT n) 0 else s))

/-! ## Boundaries and power -/

/-- A time step of `d` ns leaves the distances of the speed windows as they are (R305). -/
def encTimeStep (s : State) (d : Int) : State :=
  let f (t : Nat) : Nat := ((t : Int) + d).toNat
  (List.range 8).foldl (fun s n =>
    let x := enc s n
    setEnc s n { x with tLast := f x.tLast, t1 := f x.t1, tn := f x.tn, close0 := f x.close0, tAny := x.tAny.map f }) s

/-- An incremental channel with AOTRACK whose tracking record is valid takes the tracked count and keeps REF_LOST as it was (R309, R376; log 38); `false` where it does not. -/
def encHandBack (s : State) (n : Nat) : Bool × State :=
  if n < 2 ∧ encType s n = 1 ∧ on s (Reg.ENC_CFG_AOTRACK n) ∧ on s (Reg.AO_TRK_CTL_ACTIVE n) ∧ on s (Reg.AO_TRK_CTL_VALID n) then
    let s := setEnc s n { enc s n with count := BitVec.ofNat 64 (rd64 s (Reg.AO_TRK_LO_COUNT n) (Reg.AO_TRK_HI_COUNT n)) }
    (true, wrs s [(Reg.ENC_STAT_REF_LOST n, b2n (s.ao.trkRef.getLsbD n)), (Reg.AO_TRK_CTL_ACTIVE n, 0)])
  else (false, s)

/-- At a boundary a change of TYPE and of WIN takes effect (R305, R310); `was` holds TYPE before the boundary. -/
def encBoundary (s : State) (was : Nat → Nat) : State :=
  if domOn s dAUX then
    let s := takeEncEdges s
    (List.range 8).foldl (fun s n =>
      let s := if was n ≠ encType s n then
          let s := wr (setEnc s n { enc s n with count := 0, rPrev := none, await := false }) (Reg.ENC_STAT_REF_LOST n) 1
          (encHandBack s n).2
        else s
      let w := rd s (Reg.ENC_SPDCFG_WIN n)
      if (enc s n).win = w then s else setEnc s n { enc s n with win := w, isOpen := false }) s
  else s

/-- Swaps that encoder timing refuses (R247, R301): a channel whose writing or edges may come too late for a cycle of `per` ns. -/
def encLate (s : State) (per : Nat) : Bool :=
  (List.range 8).any (fun n => encType s n != 0 && decide (per ≤ rd s (Reg.ENC_SAMPLE_NS n) + rd s (Reg.ENC_TIMEOUT_NS n) + 64))

end Sys2Proof.Machine
end

