-- ==== Sys2Proof/Machine/Emulation.lean ====
section
/-! DEFINITION. Encoder emulation outputs (R171 to R173, R175). -/

namespace Sys2Proof.Machine

/-- An emulation output. -/
def emu (s : State) (m : Nat) : EmuSt := tget (fun _ => {}) s.emus m
/-- Set an emulation output. -/
def setEmu (s : State) (m : Nat) (x : EmuSt) : State := { s with emus := tput (fun _ => {}) s.emus m x }

/-- Edges from `q` to the target at level `l` (R171). -/
def emuCount (target q : Int) (l : Nat) : Nat := (Int.fdiv target (2 ^ l : Nat) - Int.fdiv q (2 ^ l : Nat)).natAbs

/-- The level of the next cycle (R172). -/
def emuLevel (target q : Int) (s nmax : Nat) : Nat :=
  if nmax < emuCount target q s ∧ s < 2 then s + 1
  else if 0 < s ∧ emuCount target q (s - 1) ≤ nmax * 94 / 100 then s - 1 else s

/-- The plan of the next cycle: at most `lim` edges toward the target, from level `s` to level `l` (R172). -/
def emuPlan (target q : Int) (s l lim : Nat) : EmuPlan :=
  let up := decide (q < target)
  let odd := decide (s < l) && decide (q % (2 ^ l : Nat) ≠ 0)
  let q1 := if odd then (if up then q + (2 ^ s : Nat) else q - (2 ^ s : Nat)) else q
  let n := emuCount target q1 l + b2n odd
  { target := target, up := up, head := if odd then some (2 ^ s) else none, size := 2 ^ l, left := min lim n }

/-- EMU_UPDATE, when the last downlink launch completes: the source is read, Q is formed, and the next cycle's edges are planned (R171, R172). -/
def emuUpdate (s : State) (m : Nat) : State :=
  let x := emu s m
  if on s (Reg.EMU_CFG_EN m) then
    let p := sgn 64 (ptVal s (rd s (Reg.EMU_SRC_POINT m)))
    let q := x.q0 + Int.fdiv ((p - x.p0) * x.num) (max 1 x.den)
    let target := if on s (Reg.EMU_CFG_INV m) then -q else q
    let start := match x.cur with
      | some c => let d : Int := (c.left * c.size : Nat); if c.up then x.qOut + d else x.qOut - d
      | none => x.qOut
    let lv := rd s (Reg.EMU_STAT_SHIFT m)
    let nmax := 8 * period s / 1000
    let limit := on s (Reg.EMU_CFG_MODE m)
    let l := if limit then 0 else emuLevel target start lv nmax
    let lim := if limit then min 8000 (rd s (Reg.EMU_FMAX_KHZ m)) * period s / 10 ^ 6 else nmax
    let s := if l = lv then s else incCnt (wr s (Reg.EMU_STAT_SHIFT m) l) (Reg.EMU_SHIFT_CNT_SHIFT_CNT m)
    setEmu s m { x with p := p, q := q, next := some (emuPlan target start lv l lim) }
  else setEmu s m { x with next := none }

/-- Every emulation output is updated while AUX is ON. -/
def emuUpdates (s : State) : State := if domOn s dAUX then (List.range 4).foldl emuUpdate s else s

/-- EMULATION_EDGE: the next edge of the cycle's plan moves Q_out (R171). -/
def execEmulationEdge (m : Fin 4) (s : State) : Host.Outcome State Fault Refusal :=
  .next (
    let x := emu s m
    match x.cur with
    | some c =>
      if domOn s dAUX && domOn s dNET && on s (Reg.EMU_CFG_EN m) && c.left != 0 then
        let d : Int := ((c.head.getD c.size : Nat) : Int)
        let q := if c.up then x.qOut + d else x.qOut - d
        emit (setEmu s m { x with qOut := q, cur := some { c with head := none, left := c.left - 1 } }) (.emuEdge m q)
      else s
    | none => s)

/-- At a boundary: the lag of the cycle that ends, the next plan, a changed ratio, and the points (R172, R173, R175, R308). -/
def emuBoundary (s : State) : State :=
  if domOn s dAUX then
    (List.range 4).foldl (fun s m =>
      let x := emu s m
      let lag := match x.cur with | some c => (c.target - x.qOut).natAbs | none => 0
      let s := wr s (Reg.EMU_STAT_LAG m) (b2n (lag != 0))
      let s := if lag = 0 then s else setSticky s (Reg.EMU_STAT_LAGSTK m)
      let s := if rd s (Reg.EMU_LAGMAX_LAGMAX m) < lag then wr s (Reg.EMU_LAGMAX_LAGMAX m) (min lag (2 ^ 32 - 1)) else s
      let n := rd s (Reg.EMU_NUM_VALUE m)
      let d := rd s (Reg.EMU_DEN_VALUE m)
      let x := { x with cur := x.next, next := none }
      let x := if x.num = n ∧ x.den = d then x else { x with num := n, den := d, p0 := x.p, q0 := x.q }
      let s := setEmu s m x
      wrPt (wrPt s (pt 25 9 m 0) (rd s (Reg.EMU_STAT_SHIFT m) + b2n (lag != 0) * 4) false) (pt 25 9 m 1) (unsgn 64 x.qOut) false) s
  else s

end Sys2Proof.Machine
end

