-- ==== Sys2Proof/Machine/FieldIo.lean ====
section
/-! DEFINITION. The field die: inputs, outputs and their diagnostics (R311 to R321). -/

namespace Sys2Proof.Machine

/-! ## Inputs (R312) -/

/-- Filter time of a code, in µs. -/
def filterUs (c : Nat) : Nat := [0, 50, 100, 250, 1000, 3000, 10000, 20000].getD c 0

/-- Samples in a row, one every 4 µs, that hold a level for a filter time. -/
def filterSamples (c : Nat) : Nat := if c = 0 then 1 else (filterUs c + 3) / 4 + 1

/-- One input takes a sample. -/
def filterInput (x : BitVec 16) (s : State) (i : Nat) : State :=
  let f := s.field
  if x.getLsbD i = f.inp.getLsbD i then { s with field := { f with cnt := tput (fun _ => 0) f.cnt i 0 } }
  else
    let n := tget (fun _ => 0) f.cnt i + 1
    if filterSamples (bits (3 * (i % 8) + 2) (3 * (i % 8)) (rd s (Reg.FIO_INFILT_CODE (i / 8)))) ≤ n then
      { s with field := { f with inp := f.inp ^^^ BitVec.ofNat 16 (2 ^ i), cnt := tput (fun _ => 0) f.cnt i 0 } }
    else { s with field := { f with cnt := tput (fun _ => 0) f.cnt i n } }

/-- The field die samples its inputs and readbacks for a bridge frame (R312, R23). -/
def sampleField (s : State) (x : FieldSample) : State :=
  if domOn s dFIELD then
    let s := (List.range 16).foldl (filterInput x.inp) s
    let s := { s with field := { s.field with rb := x.rb } }
    wrs s [(Reg.FIO_IN_LEVEL, s.field.inp.toNat), (Reg.FIO_IN_RB, x.rb.toNat)]
  else s

/-! ## Outputs (R313 to R315, R319) -/

/-- Fault bit `b` of output `k` in FIO.DIAG: 0 OVL, 1 OTEMP, 2 OPEN, 3 SHORT_LP. -/
def diagBit (k b : Nat) : Fld := let f := Reg.FIO_DIAG_FLAGS (k / 8); ⟨f.addr, 4 * (k % 8) + b, 4 * (k % 8) + b⟩

/-- Overload latch of a supply group. -/
def govl (g : Nat) : Fld := if g = 0 then Reg.FIO_GSTAT_GOVLA else Reg.FIO_GSTAT_GOVLB
/-- Undervoltage of a supply group, now. -/
def uv (g : Nat) : Fld := if g = 0 then Reg.FIO_GSTAT_UVA else Reg.FIO_GSTAT_UVB
/-- Undervoltage of a supply group has occurred. -/
def uvStk (g : Nat) : Fld := if g = 0 then Reg.FIO_GSTAT_UVA_STK else Reg.FIO_GSTAT_UVB_STK

/-- Partner groups forced: an output of the group has SHORT_LP set with REACT = 1 (R319). -/
def forcedGroups (s : State) : BitVec 4 :=
  nib (fun g => (List.range 16).any (fun k =>
    rd s (Reg.FIO_OUTCFG_PGRP k) == g && on s (Reg.FIO_OUTCFG_REACT k) && on s (diagBit k 3)))

/-- Level 1 of R315: the output is off whatever its command. -/
def forcedOff (s : State) (k : Nat) : Bool :=
  !domOn s dFIELD || on s (diagBit k 0) || on s (diagBit k 1) || s.field.hot.getLsbD k || on s (govl (k / 8)) || on s (uv (k / 8))

/-- Level 2 of R315: the output is in its safe state. -/
def inSafe (s : State) (k : Nat) : Bool :=
  on s Reg.FIO_WD_TRIPPED || s.field.await || (forcedGroups s).getLsbD (rd s (Reg.FIO_OUTCFG_PGRP k))

/-- Sixteen levels from a rule. -/
def levels (f : Nat → Bool) : BitVec 16 := BitVec.ofNat 16 (((List.range 16).map (fun k => b2n (f k) * 2 ^ k)).sum)

/-- The field die drives every output at the first level that applies (R315). -/
def redrive (s : State) : State :=
  let f := s.field
  let s := wr s Reg.FIO_GSTAT_FORCED (forcedGroups s).toNat
  let safe := levels (inSafe s)
  let hold := levels (fun k => if safe.getLsbD k && !f.safe.getLsbD k then f.drive.getLsbD k else f.hold.getLsbD k)
  let drive := levels (fun k =>
    if forcedOff s k then false
    else if safe.getLsbD k then
      (match rd s (Reg.FIO_OUTCFG_SAFE k) with | 0 => false | 1 => true | _ => hold.getLsbD k)
    else f.cmd.getLsbD k)
  let s := { s with field := { f with safe := safe, hold := hold, drive := drive } }
  if drive = f.drive then s else emit s (.outputs drive)

/-- A register-sourced output follows FIO.OUT as it is written (R314). -/
def followOut (s : State) : State :=
  let out := rd s Reg.FIO_OUT_CMD
  redrive { s with field := { s.field with cmd := levels (fun k => if s.field.src.getLsbD k then bitOf k out else s.field.cmd.getLsbD k) } }

/-- The field die applies an image on receipt: the source of each output, then its command (R23, R314, R320). -/
def applyImage (s : State) (img : BitVec 16) : State :=
  let src := levels (fun k => on s (Reg.FIO_OUTCFG_SRC k))
  let out := rd s Reg.FIO_OUT_CMD
  let cmd := levels (fun k => if src.getLsbD k then bitOf k out else img.getLsbD k)
  redrive { s with field := { s.field with src := src, cmd := cmd, await := false } }

/-! ## Diagnostics (R316 to R319) -/

/-- An output fault: its bit, its counter and its sump entry (R316). Nothing while the bit is already set. -/
def fieldFault (s : State) (k b : Nat) (err : Fld) : State :=
  if domOn s dFIELD && !on s (diagBit k b) then
    redrive (post (incErr (raise (wr s (diagBit k b) 1) 0xA0 2) err) 0x300F 3 (k + 16 * b))
  else s

/-- OVL (R316): the current limit has been active without a break for OVL_MS. -/
def execOvl (k : Fin 16) (s : State) : Host.Outcome State Fault Refusal :=
  .next (if s.field.drive.getLsbD k then fieldFault s k 0 Reg.FIO_OVL_ERR_COUNT else s)

/-- OTEMP (R316): the switch reaches 165 °C. -/
def execOtemp (k : Fin 16) (s : State) : Host.Outcome State Fault Refusal :=
  .next (
    let s := if domOn s dFIELD then { s with field := { s.field with hot := s.field.hot ||| BitVec.ofNat 16 (2 ^ k.val) } } else s
    redrive (fieldFault s k 1 Reg.FIO_OTEMP_ERR_COUNT))

/-- OPEN (R316): an open wire while on, or while off under the test current. -/
def execOpenWire (k : Fin 16) (s : State) : Host.Outcome State Fault Refusal :=
  .next (
    let en := if s.field.drive.getLsbD k then Reg.FIO_OUTCFG_OWON_EN k else Reg.FIO_OUTCFG_OWOFF_EN k
    if on s en then fieldFault s k 2 Reg.FIO_OPEN_ERR_COUNT else s)

/-- SHORT_LP (R316, R319): readback high for 1 ms on an output driven off; with REACT = 1 its partner group is forced. -/
def execShortLp (k : Fin 16) (s : State) : Host.Outcome State Fault Refusal :=
  .next (if s.field.drive.getLsbD k then s else fieldFault s k 3 Reg.FIO_SHORT_ERR_COUNT)

/-- GROUP_OVERLOAD (R317): every output of the supply group is latched off. -/
def execGroupOverload (g : Fin 2) (s : State) : Host.Outcome State Fault Refusal :=
  .next (
    if domOn s dFIELD && !on s (govl g) then redrive (post (setSticky s (govl g)) 0x300F 3 (256 + g)) else s)

/-- UNDERVOLTAGE (R317): every output of the supply group is off. -/
def execUndervoltage (g : Fin 2) (s : State) : Host.Outcome State Fault Refusal :=
  .next (if domOn s dFIELD then redrive (setSticky (wr s (uv g) 1) (uvStk g)) else s)

/-- UNDERVOLTAGE_END (R317): the outputs resume under R315. -/
def execUndervoltageEnd (g : Fin 2) (s : State) : Host.Outcome State Fault Refusal :=
  .next (if domOn s dFIELD then redrive (wr s (uv g) 0) else s)

/-- SWITCH_COOLED (R316): the switch has cooled below 150 °C. -/
def execSwitchCooled (k : Fin 16) (s : State) : Host.Outcome State Fault Refusal :=
  .next (redrive { s with field := { s.field with hot := s.field.hot &&& ~~~BitVec.ofNat 16 (2 ^ k.val) } })

/-- A write of FIO.DIAG0, DIAG1 or GSTAT: the bits written 1 are cleared, with their latches, and the outputs follow R315 again (R316, R317, R319). -/
def diagWrite (s : State) (k w : Nat) : State :=
  let m := if k = Reg.FIO_GSTAT_UVA.addr then 0x3C else 0xFFFFFFFF
  redrive (wrw s k (rdw s k - (rdw s k &&& (w &&& m))))

/-- DIAG_CLEAR (R316, R317): FIO.DIAG0, DIAG1 or GSTAT is written. -/
def execDiagClear (m : Master) (r : Fin 3) (w : W32) (s : State) : Host.Outcome State Fault Refusal :=
  .next (
    let k := if r = 2 then Reg.FIO_GSTAT_UVA.addr else (Reg.FIO_DIAG_FLAGS r).addr
    regAction s m k w (fun s => diagWrite s k w.toNat))

/-! ## Watchdog (R320) -/

/-- WATCHDOG_TRIP (R320, R272): T_wd has passed since the last accepted frame with an advanced heartbeat. -/
def execWatchdogTrip (s : State) : Host.Outcome State Fault Refusal :=
  .next (
    let s := { s with field := { s.field with fresh := false } }
    let s := if domOn s dFIELD && !on s Reg.FIO_WD_TRIPPED then
        redrive (incCnt (wr s Reg.FIO_WD_TRIPPED 1) Reg.FIO_WD_CNT_WD_CNT)
      else s
    chanFault s true 0x0C 0)

/-- A write of REARM (R320): it releases the trip while heartbeats arrive, and the outputs follow their commands from the next image; otherwise it is ignored and logged. -/
def rearmWrite (s : State) (m : Master) (w : Nat) : State :=
  if bitOf 9 w then
    if s.field.fresh && !s.field.held then
      if on s Reg.FIO_WD_TRIPPED then
        redrive (wr { s with field := { s.field with await := true } } Reg.FIO_WD_TRIPPED 0)
      else s
    else errlog s 0xA0 7 m 0x94
  else s

/-- REARM (R320): FIO.WD is written. -/
def execRearm (m : Master) (w : W32) (s : State) : Host.Outcome State Fault Refusal :=
  .next (regAction s m Reg.FIO_WD_TWD.addr w (fun s => rearmWrite s m w.toNat))

/-- The image words of the field die (R321). -/
def fieldWords (s : State) : W64 × W64 × W64 :=
  let f := s.field
  let w0 := f.inp.toNat + f.rb.toNat * 2 ^ 16 + f.drive.toNat * 2 ^ 32
  let w1 := rd s (Reg.FIO_DIAG_FLAGS 0) + rd s (Reg.FIO_DIAG_FLAGS 1) * 2 ^ 32
  let w2 := rd s Reg.FIO_GSTAT_UVA + 2 * rd s Reg.FIO_GSTAT_UVB + 4 * rd s Reg.FIO_GSTAT_GOVLA + 8 * rd s Reg.FIO_GSTAT_GOVLB +
    16 * rd s Reg.FIO_WD_TRIPPED + 256 * rd s Reg.FIO_GSTAT_FORCED
  (BitVec.ofNat 64 w0, BitVec.ofNat 64 w1, BitVec.ofNat 64 w2)

end Sys2Proof.Machine
end

