-- ==== Sys2Proof/Machine/Bridge.lean ====
section
/-! DEFINITION. The die bridge (R20 to R24, R321). -/

namespace Sys2Proof.Machine

/-- The bridge runs: STEWARD and AO are ON (R20). -/
def bridgeUp (s : State) : Bool := domOn s dSTEWARD && domOn s dAO

/-- SYS.PAGE_STAT.BLOCK bit 16: a bridge fault persists (R418). -/
def bridgeFlag : Fld := ⟨(Reg.HDR_PAGE_STAT_WRAP 0).addr, 16, 16⟩

/-- The main die sends a frame (R20, R22, R23, R272). -/
def sendMain (s : State) : State :=
  let b := s.bridge
  let h := if b.served && !b.withdrawn then b.heart + 1 else b.heart
  let f : FrameDown := { seq := b.seqMain + 1, heart := h, out := b.outImg, ao := b.aoReq, word := s.safeB,
                         chanA := if chanOn s false then some (chanStat s false) else none, crc := Config.bridgeCrc false (b.seqMain + 1) }
  { s with bridge := { b with seqMain := f.seq, heart := h, aoReq := [], down := some f } }

/-- The field die samples and sends a frame (R20, R23, R272, R282). -/
def sendField (s : State) (x : FieldSample) : State :=
  let s := sampleField s x
  let s := { s with safe := { s.safe with edm := x.edm, rst := x.rst } }
  let s := if chanOn s true then
      { s with safe := { s.safe with cntB := (s.safe.cntB + 1) % 65536, b := { s.safe.b with alive := s.safe.b.alive + 1 } } }
    else s
  let w := fieldWords s
  let b := s.bridge
  let f : FrameUp := { seq := b.seqField + 1, heart := b.heartField + 1, w0 := w.1, w1 := w.2.1, w2 := w.2.2, edm := x.edm, rst := x.rst,
                       chanB := if chanOn s true then some (chanStat s true, wordB s) else none, crc := Config.bridgeCrc true (b.seqField + 1) }
  { s with bridge := { b with seqField := f.seq, heartField := f.heart, up := some f, age := b.age + 1 } }

/-- BRIDGE_FRAME_SEND (R20): one end sends its frame. -/
def execBridgeFrameSend (d : BridgeEnd) (s : State) : Host.Outcome State Fault Refusal :=
  .next (
    if bridgeUp s then
      match d with
      | .main => sendMain s
      | .field x => sendField s x
    else s)

/-- BRIDGE_FAULT clears in PAGE_STAT once neither direction is in three discarded frames (R418). -/
def bridgeOk (s : State) : State := if s.bridge.runAtField < 3 ∧ s.bridge.runAtMain < 3 then wr s bridgeFlag 0 else s

/-- The field die accepts a frame (R22, R23, R272, R320). -/
def acceptField (s : State) (f : FrameDown) : State :=
  let b := s.bridge
  let fresh := f.heart != b.heartAtField || s.field.fresh
  let s := { s with bridge := { b with runAtField := 0, heartAtField := f.heart }, field := { s.field with fresh := fresh } }
  let s := if domOn s dFIELD then applyImage s f.out else s
  let before := (s.safe.high, s.safe.b.sw)
  let s := showSwitches { s with safe := { s.safe with high := (f.chanA.map (fun a => a.sw)).getD 0 } } before
  match f.chanA with
  | some a =>
    if chanOn s true then
      let rose := a.reset && !s.safe.b.other.reset
      let s := takeOther s true a
      let x := s.safe.b
      -- a safe-channel reset from channel A, taken only in RUN (R289)
      if rose && x.mode == 1 then
        let keep := nib (groupDemand s true) ||| ~~~x.lock
        safeShow (setChan s true { x with lock := x.lock &&& keep, sto := x.sto &&& keep, ss1 := x.ss1 &&& keep })
      else s
    else s
  | none => s

/-- The main die accepts a frame: its image, the channel-B word and channel B's status (R23, R272, R283). -/
def acceptMain (s : State) (f : FrameUp) : State :=
  let s := { s with bridge := { s.bridge with runAtMain := 0, img := some f, age := 0 } }
  match f.chanB with
  | some c =>
    let s := { s with safeB := c.2 }
    if chanOn s false then
      let w := c.2.toNat / 2 ^ 32
      takeOther (wrs s [(Reg.SAFE_BWORD_STOP_B, w / 65536), (Reg.SAFE_BWORD_CNT_B, w)]) false c.1
    else s
  | none => if chanOn s false then safeShow s else s

/-- A frame is discarded and counted (R20). -/
def discard (s : State) (atField : Bool) : State :=
  let b := s.bridge
  let s := { s with bridge := if atField then { b with runAtField := b.runAtField + 1 } else { b with runAtMain := b.runAtMain + 1 } }
  if domOn s dSTEWARD then incErr s Reg.SYS_BRIDGE_ERR_BRIDGE_ERR else s

/-- BRIDGE_FRAME_RECEIVE (R20): the frame on its way arrives; one that fails its CRC or does not follow the previous one is discarded. -/
def execBridgeFrameReceive (atField crcOk : Bool) (s : State) : Host.Outcome State Fault Refusal :=
  .next (
    if !bridgeUp s then s
    else if atField then
      match s.bridge.down with
      | none => s
      | some f =>
        let b := s.bridge
        let s := { s with bridge := { b with down := none, rxAtField := if crcOk then f.seq else b.rxAtField } }
        if crcOk && f.seq == b.rxAtField + 1 then bridgeOk (acceptField s f) else discard s true
    else
      match s.bridge.up with
      | none => s
      | some f =>
        let b := s.bridge
        let s := { s with bridge := { b with up := none, rxAtMain := if crcOk then f.seq else b.rxAtMain } }
        if crcOk && f.seq == b.rxAtMain + 1 then bridgeOk (acceptMain s f) else discard s false)

/-- BRIDGE_FAULT (R21, R272): three frames in a row have been discarded in one direction. Entries of one clock enter the sump pair first (R28). -/
def execBridgeFault (atField : Bool) (s : State) : Host.Outcome State Fault Refusal :=
  .next (
    let run := if atField then s.bridge.runAtField else s.bridge.runAtMain
    if run < 3 then s
    else
      let s := if domOn s dSTEWARD then
          let s := if on s bridgeFlag then s else raise (wr s bridgeFlag 1) 0 4
          post (selfFault s .bridge) 0x5002 5 (b2n atField)
        else s
      if atField then chanFault s true 0x0C 0 else s)

/-- BRIDGE_REFRESH (R22): the stewards serve the bridge refresh. A unit that has given up its role serves it no more (R257, R258). -/
def execBridgeRefresh (s : State) : Host.Outcome State Fault Refusal :=
  .next (
    if domOn s dSTEWARD ∧ role s ≠ rRELINQUISHED then { s with bridge := { s.bridge with served := true, withdrawn := false } } else s)

/-- BRIDGE_REFRESH_WITHDRAW (R22): the stewards withdraw it. -/
def execBridgeRefreshWithdraw (s : State) : Host.Outcome State Fault Refusal := .next (withdrawRefresh s)

/-- REFRESH_TIMEOUT (R22): it has not been served for 1 ms. -/
def execRefreshTimeout (s : State) : Host.Outcome State Fault Refusal :=
  .next { s with bridge := { s.bridge with served := false } }

/-- The newest accepted image is written into the segment-24 points at a boundary, or they are marked stale (R23, R321). -/
def fieldImage (s : State) : State :=
  let ps := [pt 24 0 0 0, pt 24 0 0 1, pt 24 0 0 2]
  match s.bridge.img with
  | some f =>
    if domOn s dFIELD ∧ s.bridge.age < 3 then
      wrPt (wrPt (wrPt s (pt 24 0 0 0) f.w0.toNat false) (pt 24 0 0 1) f.w1.toNat false) (pt 24 0 0 2) f.w2.toNat false
    else ps.foldl (fun s p => setStale s p true) s
  | none => ps.foldl (fun s p => setStale s p true) s

end Sys2Proof.Machine
end

