-- ==== Sys2Proof/Machine/SafeCmds.lean ====
section
/-! DEFINITION. The commands of the safety functions (R269 to R297). -/

namespace Sys2Proof.Machine

/-! ## Evaluation, inputs and time limits -/

/-- A reset has taken effect: counted and logged with the mode left (R289, R417). -/
def resetDone (s : State) (mode : Nat) (viaNode : Bool) : State :=
  if chanOn s false then post (incCnt s Reg.SAFE_RESET_CNT_RESET_CNT) 0x1003 0 (mode + 4 * b2n viaNode) else s

/-- A reset is ignored or refused (R275, R287, R289). -/
def resetDenied (s : State) : State := if chanOn s false then incErr s Reg.SAFE_DENY_ERR_DENY_ERR else s

/-- A channel clears the demand lock-outs of the groups that `ok` names, and their STO and SS1 with them (R289; log 32). -/
def unlockGroups (s : State) (b : Bool) (ok : BitVec 4) : State :=
  let x := chan s b
  let go := x.lock &&& ok
  setChan s b { x with lock := x.lock &&& ~~~go, sto := x.sto &&& ~~~go, ss1 := x.ss1 &&& ~~~go }

/-- Groups with no input pair in demand. -/
def freeGroups (s : State) (b : Bool) : BitVec 4 := nib (fun g => !groupDemand s b g)

/-- Channel A's part of a safe-channel reset that it accepts (R275, R288, R289); `fresh` are the pairs whose demand arises in the same evaluation. -/
def nodeReset (s : State) (fresh : BitVec 4) : State :=
  let a := s.safe.a
  if s.safe.resetNow then s
  else if a.mode = 1 ∧ bitOf 0 (psW s false 72) ∧ fresh = 0 then
    let go := a.lock &&& freeGroups s false
    let held := a.lock &&& ~~~freeGroups s false
    let s := if held = 0 then s else resetDenied s
    if go = 0 then s else resetDone { unlockGroups s false go with safe := { (unlockGroups s false go).safe with pass := true } } 1 true
  else resetDenied s

/-- SAFETY_EVALUATION (R272, R275): channel A evaluates its demands, a reset that the node has asked for, and its switches, every 0.5 ms. -/
def execSafetyEvaluation (s : State) : Host.Outcome State Fault Refusal :=
  .next (
    if chanOn s false then
      let s := setChan s false { s.safe.a with alive := s.safe.a.alive + 1 }
      let fresh := demands s false &&& ~~~s.safe.a.dem
      let s := lookDemands s false
      let s := if s.safe.nodeAsk then nodeReset s fresh else s
      safeShow { s with safe := { s.safe with nodeAsk := false, resetNow := false } }
    else s)

/-- SAFETY_INPUT_CHANGE (R276, R277): a channel takes a level held for T_f. Channel B acts on it at once, channel A at its next evaluation. -/
def execSafetyInputChange (chB : Bool) (i : Fin 8) (level : Bool) (s : State) : Host.Outcome State Fault Refusal :=
  .next (
    if chanOn s chB then
      let x := chan s chB
      let m := BitVec.ofNat 8 (2 ^ i.val)
      let s := setChan s chB { x with inp := if level then x.inp ||| m else x.inp &&& ~~~m }
      if chB then safeShow (lookDemands s true) else s
    else s)

/-- DISC_TIMEOUT (R277): a pair's inputs have disagreed for T_disc. -/
def execDiscTimeout (chB : Bool) (p : Fin 4) (s : State) : Host.Outcome State Fault Refusal :=
  .next (if pairDisc s chB p then chanFault s chB 0x01 p else s)

/-- ALIVE_TIMEOUT (R272, R270): the other channel's alive count has not advanced for 2 ms. -/
def execAliveTimeout (chB : Bool) (s : State) : Host.Outcome State Fault Refusal := .next (chanFault s chB 0x0B 0)

/-- XCOMP_TIMEOUT (R272): demand states or modes have disagreed for 2 × T_f + 2 ms. -/
def execXcompTimeout (chB : Bool) (s : State) : Host.Outcome State Fault Refusal :=
  .next (
    let x := chan s chB
    if x.dem != x.other.dem || x.sto != x.other.sto || x.ss1 != x.other.ss1 || x.mode != x.other.mode then chanFault s chB 0x0A 0 else s)

/-- A fault that both channels find for themselves. -/
def bothFault (s : State) (code index : Nat) : State := chanFault (chanFault s false code index) true code index

/-- The response of one input to a test pulse of output `tp`, where it read low during the pulse (R278). -/
def pulseInput (tp : Nat) (low : BitVec 8) (s : State) (i : Nat) : State :=
  if psOk s false && bitOf 3 (inW s false (i / 2)) then
    if i % 2 = tp then (if low.getLsbD i then s else bothFault s 0x02 i)
    else if low.getLsbD i && s.safe.b.inp.getLsbD i then bothFault s 0x03 (i + 8 * tp) else s
  else s

/-- INPUT_TEST_PULSE (R278): test-pulse output `tp` pulses low; `low` are the inputs that read low during the pulse. -/
def execInputTestPulse (tp : Fin 2) (low : BitVec 8) (s : State) : Host.Outcome State Fault Refusal :=
  .next ((List.range 8).foldl (pulseInput tp low) s)

/-- Both switches of the pair are on: it is energised (R279). -/
def energised (s : State) (q : Nat) : Bool := s.safe.high.getLsbD q && s.safe.b.sw.getLsbD q

/-- The pair is checked by readback (R280). -/
def readsBack (s : State) (q : Nat) : Bool := psOk s false && outCheck s false q != 1

/-- The energised pair is not pulsed now: a standby's paralleled pair, or a suspended one (R294). -/
def noPulse (s : State) (q : Nat) : Bool := (outPar s q && (role s == rSTANDBY || on s Reg.SAFE_STAT_TP_SUSP))

/-- OUTPUT_TEST_PULSE (R280, R294): what the balls of pair `q` showed: SOHq fell, SOLq rose, SOHq not below 5 V while off, the other pair followed. -/
def execOutputTestPulse (q : Fin 2) (falls rises offHigh follows : Bool) (s : State) : Host.Outcome State Fault Refusal :=
  .next (
    if !readsBack s q then s
    else if energised s q then
      if noPulse s q then s else
      let low := s.safe.lowNext.getLsbD q
      let s := { s with safe := { s.safe with lowNext := s.safe.lowNext ^^^ BitVec.ofNat 2 (2 ^ q.val) } }
      let s := if chanOn s false then incCnt s Reg.SAFE_TP_CNT_TP_CNT else s
      let s := if outPar s q && paired s then emit s (.pulseSignal q) else s
      let s := if low then (if rises then s else bothFault s 0x05 q) else (if falls then s else bothFault s 0x04 q)
      if follows then bothFault s 0x06 (q + 2 * (1 - q.val)) else s
    else if offHigh then bothFault s 0x07 q else s)

/-- EDM_TIMEOUT (R281): T_EDM after a switching of pair `q`, its EDM input does not read as it must. -/
def execEdmTimeout (chB : Bool) (q : Fin 2) (s : State) : Host.Outcome State Fault Refusal :=
  .next (
    let closed := if chB then s.safe.edm.getLsbD q else (s.bridge.img.map (fun f => f.edm.getLsbD q)).getD false
    if psOk s chB && outCheck s chB q != 0 && closed == energised s q then chanFault s chB 0x09 q else s)

/-- SO_OVL (R279): a current above the switch's limit turns both switches off. -/
def execSoOvl (q : Fin 2) (s : State) : Host.Outcome State Fault Refusal :=
  .next (
    let before := (s.safe.high, s.safe.b.sw)
    let m := ~~~BitVec.ofNat 2 (2 ^ q.val)
    let s := { s with safe := { s.safe with high := s.safe.high &&& m, b := { s.safe.b with sw := s.safe.b.sw &&& m },
                                            a := { s.safe.a with sw := s.safe.a.sw &&& m } } }
    bothFault (showSwitches s before) 0x08 q)

/-- VFSAF_OUT_OF_RANGE (R275): the output pairs are off and every group is treated as demanded, with no fault. -/
def execVfsafOutOfRange (s : State) : Host.Outcome State Fault Refusal :=
  .next (
    let before := (s.safe.high, s.safe.b.sw)
    let s := { s with safe := { s.safe with vfsaf := false, high := 0, b := { s.safe.b with sw := 0 }, a := { s.safe.a with sw := 0 } } }
    let s := showSwitches s before
    let s := enterSto (setChan s false { s.safe.a with lock := 15 }) false 15
    safeShow (enterSto (setChan s true { s.safe.b with lock := 15 }) true 15))

/-- VFSAF_RETURN (R275): the supply is back; a reset is needed. -/
def execVfsafReturn (s : State) : Host.Outcome State Fault Refusal :=
  .next (safeShow { s with safe := { s.safe with vfsaf := true } })

/-- SS1_EXPIRY (R285): channel A sets STO of the group t_SS1 after the demand. -/
def execSs1Expiry (g : Fin 4) (s : State) : Host.Outcome State Fault Refusal :=
  .next (if chanOn s false && s.safe.a.ss1.getLsbD g then safeShow (enterSto s false (BitVec.ofNat 4 (2 ^ g.val))) else s)

/-- SS1_B_EXPIRY (R285): channel B sets STO of the group at the end of its own timing. -/
def execSs1BExpiry (g : Fin 4) (s : State) : Host.Outcome State Fault Refusal :=
  .next (if chanOn s true && s.safe.b.ss1.getLsbD g then safeShow (enterSto s true (BitVec.ofNat 4 (2 ^ g.val))) else s)

/-- TP_OVERDUE (R294): test pulses have been suspended for TPSUSP. -/
def execTpOverdue (s : State) : Host.Outcome State Fault Refusal :=
  .next (if on s Reg.SAFE_STAT_TP_SUSP then chanFault s false 0x0F 0 else s)

/-! ## Reset (R287, R289) -/

/-- A cause persists, as far as the channels' own states show (R289). -/
def causePersists (s : State) : Bool :=
  (List.range 4).any (fun p => pairDisc s false p || pairDisc s true p) || psOk s false != psOk s true || !chanOn s false || !chanOn s true ||
    3 ≤ s.bridge.runAtField || on s Reg.FIO_WD_TRIPPED

/-- Both channels enter RUN: STO stays where a demand lock-out holds it, and everywhere without a parameter set (R289, R291). -/
def enterRun (s : State) : State :=
  let f := fun (b : Bool) => { chan s b with mode := 1, flock := false, cause := 0, sto := if psOk s b then (chan s b).lock else 15, ss1 := 0 }
  { s with safe := { s.safe with a := f false, b := f true } }

/-- A hard-wired reset acts (R289). -/
def hardReset (s : State) (persists : Bool) : State :=
  let a := s.safe.a
  let b := s.safe.b
  let bad := persists || causePersists s
  let demand := demands s false != 0 || demands s true != 0 || !s.safe.vfsaf
  if a.mode = 1 then
    if demands s false &&& ~~~a.dem ≠ 0 then resetDenied s
    else
      let ok := freeGroups s false &&& freeGroups s true
      let held := (a.lock ||| b.lock) &&& ~~~ok
      let go := (a.lock ||| b.lock) &&& ok
      let s := if held = 0 then s else resetDenied s
      if go = 0 then s else resetDone (unlockGroups (unlockGroups s false ok) true ok) 1 false
  else if a.mode = 0 then
    if psOk s false && !bad && !demand then resetDone (enterRun s) 0 false else resetDenied s
  else if a.mode = 3 then
    if bad then resetDenied s
    else
      let s := if chanOn s false then wr s Reg.SAFE_CAUSE_VALID 0 else s
      resetDone (enterRun s) 3 false
  else
    let f := fun (x : Chan) => { x with lock := 0, flock := false, cause := 0 }
    resetDone { s with safe := { s.safe with a := f a, b := f b } } 2 false

/-- RESET_PULSE (R275, R287, R289): channel A, while it is ON, takes a falling edge of RST after `ms` high, `lowMs` low before that; `persists`: the cause of the fault is still there. -/
def execResetPulse (ms lowMs : Nat) (persists : Bool) (s : State) : Host.Outcome State Fault Refusal :=
  .next (
    if !chanOn s false || ms < 50 then s
    else if 5000 < ms then resetDenied (post s 0x1005 0 ms)
    else if s.safe.a.mode ≠ 1 ∧ lowMs < 500 then resetDenied s
    else safeShow (hardReset { s with safe := { s.safe with resetNow := true, nodeAsk := false } } persists))

/-! ## Parameter set and mailbox (R290 to R293) -/

/-- Every byte of a range of an image is zero. -/
def zeros (l : List Byte) (o n : Nat) : Bool := (sub l o n).all (fun b => b == 0)
/-- A little-endian number of an image. -/
def num (l : List Byte) (o n : Nat) : Nat := leNat (sub l o n)

/-- Every field of the image lies within its range (R290). -/
def psetRanges (l : List Byte) : Bool :=
  let n := num l 84 2
  num l 12 4 == 0 &&
  (List.range 4).all (fun i =>
    let w := num l (16 + 4 * i) 4
    bits 1 0 w ≤ 2 && 5 ≤ bits 11 4 w && bits 11 4 w ≤ 200 && 1 ≤ bits 17 12 w && bits 17 12 w ≤ 50 && bits 31 22 w == 0) &&
  (List.range 4).all (fun g =>
    let w := num l (32 + 8 * g) 4
    let v := num l (36 + 8 * g) 4
    10 ≤ bits 15 0 w && bits 15 0 w ≤ 30000 && bits 31 17 w == 0 && bits 11 8 v ≤ 8 && bits 7 0 v + bits 11 8 v ≤ 32 && bits 31 12 v == 0) &&
  (List.range 2).all (fun q =>
    let w := num l (64 + 4 * q) 4
    bits 3 2 w ≤ 2 && 20 ≤ bits 9 4 w && bits 9 4 w ≤ 50 && 1 ≤ bits 16 10 w && bits 16 10 w ≤ 100 &&
      1 ≤ bits 23 17 w && bits 23 17 w ≤ 100 && bits 31 25 w == 0) &&
  bits 31 21 (num l 72 4) == 0 && bits 20 16 (num l 72 4) != 28 && n ≤ 128 && 1 ≤ num l 86 2 && num l 86 2 ≤ 168 &&
  (List.range 32).all (fun i => num l (88 + 2 * i) 2 < 2048) &&
  152 + 8 * n + 132 ≤ l.length &&
  (List.range n).all (fun k => num l (152 + 8 * k) 4 < 4 && num l (156 + 8 * k) 4 != 0) &&
  zeros l (152 + 8 * n) (l.length - 132 - (152 + 8 * n))

/-- The two safety key hashes fused in the SEC page, as bytes (R291). -/
def safeKey (s : State) (i : Nat) : List Byte := (List.range 8).flatMap (fun w => leBytes 4 (rd s (Reg.SEC_SAFEKEY_HASH (8 * i + w))))

/-- RESULT of an INSTALL of the image in host-owned blocks from `b` on, with the image where it passes (R291 to R293). -/
def checkPset (s : State) (b : Nat) : Nat × List Byte :=
  let head := cistBytes s (256 * b) 8
  let n := num head 4 4
  let l := cistBytes s (256 * b) n
  if !(s.safe.a.mode == 0 || s.safe.a.mode == 2) then (4, l)
  else if !(allFloat s b 1 1 && num head 0 4 == 1 && n % 4 == 0 && 512 ≤ n && n ≤ 4096 && allFloat s b ((n + 255) / 256) 1) then (5, l)
  else
    let key := sub l (n - 128) 64
    let h := Config.sha256 key
    if !(h == safeKey s 0 || h == safeKey s 1) then (1, l)
    else if !Config.ecdsaOk key (Config.sha256 (sub l 0 (n - 128))) (sub l (n - 64) 64) then (1, l)
    else if crc32c (sub l 0 (n - 132)) != num l (n - 132) 4 then (2, l)
    else if !psetRanges l then (5, l)
    else if !chanOn s true || crcB (sub l 0 80) != num l 80 4 then (3, l)
    else (0, l)

/-- A parameter set takes effect in both channels together; the mode becomes START-UP and the counters are cleared (R291, R297). -/
def takePset (s : State) (l : List Byte) : State :=
  let s := { s with safe := { s.safe with pset := l, psetB := sub l 0 84, nodeRef := none, nodeFirst := none, nodeRun := 0, nodeDone := false, nodeAsk := false, pass := false } }
  let s := enterSto (enterSto s false 15) true 15
  let s := setChan s false { s.safe.a with mode := 0, dem := 0 }
  let s := setChan s true { s.safe.b with mode := 0, dem := 0 }
  let s := wrs s [(Reg.SAFE_PSET_ID_ID, num l 8 4), (Reg.SAFE_PSET_CRC_CRC, num l (l.length - 132) 4), (Reg.SAFE_DEMAND_CNT_DEMAND_CNT, 0),
    (Reg.SAFE_RESET_CNT_RESET_CNT, 0), (Reg.SAFE_FAULT_ERR_FAULT_ERR, 0), (Reg.SAFE_TP_CNT_TP_CNT, 0), (Reg.SAFE_DENY_ERR_DENY_ERR, 0)]
  safeShow s

/-- Both channels change their mode (R273). -/
def bothMode (s : State) (m : Nat) : State :=
  let s := enterSto (enterSto s false 15) true 15
  safeShow { s with safe := { s.safe with a := { s.safe.a with mode := m }, b := { s.safe.b with mode := m } } }

/-- Serve the mailbox request (R292): `ops` are the OP values that the command serves; `f` gives RESULT and the state. -/
def serveMbox (s : State) (ops : Nat → Bool) (f : State → Nat → Nat × State) : State :=
  let b := rd s Reg.SAFE_MBOX_BLOCK
  let a := cistAddr (256 * b)
  if chanOn s false && domOn s dCIST && flt s b == 2 && ops (mnum s a 4) then
    let r := f s (mnum s (a + 4) 4)
    setFloat (msetNum (msetNum r.2 (a + 12) 4 r.1) (a + 16) 4 (mnum s (a + 8) 4)) b 1 false
  else s

/-- PSET_INSTALL (R291 to R293): the safety processor serves an INSTALL, or a request that is none of the three. -/
def execPsetInstall (s : State) : Host.Outcome State Fault Refusal :=
  .next (serveMbox s (fun op => op != 2 && op != 3) (fun s b =>
    if mnum s (cistAddr (256 * rd s Reg.SAFE_MBOX_BLOCK)) 4 ≠ 1 then (4, s)
    else
      let r := checkPset s b
      (r.1, if r.1 = 0 then takePset s r.2 else s)))

/-- ENTER_TEST (R273, R293): accepted in START-UP and RECOVERY. -/
def execEnterTest (s : State) : Host.Outcome State Fault Refusal :=
  .next (serveMbox s (fun op => op == 2) (fun s _ =>
    if s.safe.a.mode = 0 ∨ s.safe.a.mode = 3 then (0, bothMode s 2) else (4, s)))

/-- LEAVE_TEST (R273, R293): accepted in TEST. -/
def execLeaveTest (s : State) : Host.Outcome State Fault Refusal :=
  .next (serveMbox s (fun op => op == 3) (fun s _ => if s.safe.a.mode = 2 then (0, bothMode s 0) else (4, s)))

end Sys2Proof.Machine
end

