-- ==== Sys2Proof/Machine/Acq.lean ====
section
/-! DEFINITION. Trigger and acquisition (R338 to R348). -/

namespace Sys2Proof.Machine

/-! ## Values and conditions (R338, R340) -/

/-- Place of a value in the order of its TYPE: −∞, finite, +∞, then the finite value; a NaN has none. -/
abbrev AcqKey := Option (Int × Rat)

/-- The place of a binary32 word. -/
def b32Key (w : Nat) : AcqKey :=
  if b32Fin w then some (0, b32Rat w) else if bits 22 0 w ≠ 0 then none else some (if bitOf 31 w then (-1, 0) else (1, 0))

/-- The place of a point's value (R338). -/
def acqKey (ty v : Nat) : AcqKey :=
  if ty = 0 then some (0, (sgn 64 v : Rat)) else if ty = 1 then b32Key (v % 2 ^ 32) else some (0, (ofPoint v).rat)

/-- The place of a threshold: an integer for TYPE 0, else binary32 in its low word (R340). -/
def limKey (ty v : Nat) : AcqKey := if ty = 0 then some (0, (sgn 64 v : Rat)) else b32Key (v % 2 ^ 32)

/-- Less, never on a NaN. -/
def keyLt : AcqKey → AcqKey → Bool
  | some a, some b => a.1 < b.1 || (a.1 == b.1 && decide (a.2 < b.2))
  | _, _ => false

/-- Less or equal, never on a NaN. -/
def keyLe (a b : AcqKey) : Bool := a.isSome && b.isSome && !keyLt b a

/-- Condition A (`i` = 0) or B (1) on a fresh value with the previous fresh one (R340). -/
def acqCond (s : State) (i : Nat) (prev : Option Nat) (v : Nat) : Bool :=
  let k := if i = 0 then Reg.ACQ_TRIGA_KIND else Reg.ACQ_TRIGB_KIND
  let ty := rd s (if i = 0 then Reg.ACQ_TRIGA_TYPE else Reg.ACQ_TRIGB_TYPE)
  let pol := on s (if i = 0 then Reg.ACQ_TRIGA_POL else Reg.ACQ_TRIGB_POL)
  let both := on s (if i = 0 then Reg.ACQ_TRIGA_BOTH else Reg.ACQ_TRIGB_BOTH)
  let l1 := limKey ty (rd64 s (Reg.ACQ_TRIG_L_VALUE (4 * i)) (Reg.ACQ_TRIG_L_VALUE (4 * i + 1)))
  let l2 := limKey ty (rd64 s (Reg.ACQ_TRIG_L_VALUE (4 * i + 2)) (Reg.ACQ_TRIG_L_VALUE (4 * i + 3)))
  let x := acqKey ty v
  match rd s k with
  | 1 => if pol then keyLe x l1 else keyLe l1 x
  | 2 =>
    match prev with
    | some p =>
      let y := acqKey ty p
      let rise := keyLt y l1 && keyLe l1 x
      let fall := keyLt l1 y && keyLe x l1
      (if pol then fall else rise) || (both && (rise || fall))
    | none => false
  | 3 => if pol then keyLt x l1 || keyLt l2 x else keyLe l1 x && keyLe x l2
  | _ => false

/-- The engine's state. -/
def acqState (s : State) : Nat := rd s Reg.ACQ_STAT_STATE
/-- Set the engine's state. -/
def setAcqState (s : State) (n : Nat) : State := wr s Reg.ACQ_STAT_STATE n
/-- IDLE (R348). -/
def aIDLE : Nat := 0
/-- FILLING. -/
def aFILLING : Nat := 1
/-- ARMED. -/
def aARMED : Nat := 2
/-- POST. -/
def aPOST : Nat := 3
/-- HOLDOFF. -/
def aHOLDOFF : Nat := 4
/-- WAIT_ROOM. -/
def aWAIT : Nat := 5

/-- The trigger of this cycle, and the previous values after it (R340). -/
def evalTrigger (s : State) : Bool × State :=
  let f := fun (i : Nat) (prev : Option Nat) =>
    let p := rd s (if i = 0 then Reg.ACQ_TRIGA_POINT else Reg.ACQ_TRIGB_POINT)
    if ptStale s p then (false, prev) else (acqCond s i prev (ptVal s p), some (ptVal s p))
  let a := f 0 s.acq.prevA
  let b := f 1 s.acq.prevB
  let t := a.1 && (rd s Reg.ACQ_TRIGB_KIND == 0 || b.1)
  (t, { s with acq := { s.acq with prevA := a.2, prevB := b.2 } })

/-! ## Samples and rows (R339, R346) -/

/-- The enabled channels, ascending. -/
def acqChans (s : State) : List Nat := (List.range 32).filter (fun c => bitOf c (rd s Reg.ACQ_CHMASK_EN))

/-- A channel takes the value of this cycle into its interval. -/
def acqTake (s : State) (c : Nat) : State :=
  let p := rd s (Reg.ACQ_CHSEL_POINT c)
  if ptStale s p then s
  else
    let v := ptVal s p
    let ty := rd s (Reg.ACQ_CHSEL_TYPE c)
    let x := tget (fun _ => {}) s.acq.iv c
    let k := acqKey ty v
    let pick := fun (o : Option Nat) (less : AcqKey → AcqKey → Bool) =>
      match o with
      | some w => if less k (acqKey ty w) then some v else some w
      | none => if k.isSome then some v else none
    let y : AcqIv := { fresh := true, lo := pick x.lo keyLt, hi := pick x.hi (fun a b => keyLt b a) }
    { s with acq := { s.acq with iv := tput (fun _ => {}) s.acq.iv c y } }

/-- A channel's sample at the end of its interval: its stale bit, its bytes (R339; log 36). -/
def acqSample (s : State) (c : Nat) : Bool × List Byte × State :=
  let p := rd s (Reg.ACQ_CHSEL_POINT c)
  let v := ptVal s p
  if on s (Reg.ACQ_CHSEL_MINMAX c) then
    let x := tget (fun _ => {}) s.acq.iv c
    if x.fresh then
      match x.lo, x.hi with
      | some a, some b => (false, leBytes 8 a ++ leBytes 8 b, s)
      | _, _ => let f := free s; let g := free f.2; (false, leBytes 8 f.1 ++ leBytes 8 g.1, g.2)
    else (true, leBytes 8 v ++ leBytes 8 v, s)
  else (ptStale s p, leBytes 8 v, s)

/-- The row of the interval that ends in this cycle; the next interval begins. -/
def acqRow (s : State) : AcqRow × State :=
  let r := (acqChans s).foldl (fun (a : Nat × List Byte × State) c =>
    let x := acqSample a.2.2 c
    (a.1 + b2n x.1 * 2 ^ c, a.2.1 ++ x.2.1, x.2.2)) (0, [], s)
  let s := r.2.2
  let row : AcqRow := { cycle := s.sched.cycle, ns := timeCount s, frac := s.time.frac / 2 ^ 24,
                        bytes := leBytes 4 r.1 ++ leBytes 4 s.sched.cycle ++ r.2.1 }
  (row, { s with acq := { s.acq with iv := [], last := some row } })

/-- Bytes of a row (R346). -/
def rowSize (s : State) : Nat := 8 + ((acqChans s).map (fun c => if on s (Reg.ACQ_CHSEL_MINMAX c) then 16 else 8)).sum
/-- Bytes of a full record (R346). -/
def recordSize (s : State) : Nat := 80 + (rd s Reg.ACQ_PRE_SAMPLES + rd s Reg.ACQ_POST_SAMPLES + 1) * rowSize s

/-! ## The buffer (R345) -/

/-- Size of the buffer. -/
def acqSize : Nat := 2 ^ 21
/-- Internal address of a byte of the buffer, a ring (R31, R345). -/
def acqAddr (o : Nat) : Nat := 0x21000000 + o % acqSize
/-- Write into the ring. -/
def acqWrite (s : State) (o : Nat) : List Byte → State
  | [] => s
  | b :: r => acqWrite (mput s (acqAddr o) b) (o + 1) r

/-- Two stretches of the ring overlap. -/
def overlaps (a n b m : Nat) : Bool := (b + acqSize - a) % acqSize < n || (a + acqSize - b) % acqSize < m

/-- Reserve a record at WPTR and start FILLING, or wait for room (R342, R345). -/
def acqReserve (s : State) : State :=
  let o := rd s Reg.ACQ_WPTR_OFFSET
  let hit := s.acq.recs.filter (fun r => overlaps o (recordSize s) r.ofs r.len)
  let lost := (hit.filter (fun r => !r.released)).length
  if lost ≠ 0 ∧ ¬ on s Reg.ACQ_CFG_FULL then setAcqState s aWAIT
  else
    let s := addCnt s Reg.ACQ_LOST_CNT_COUNT lost
    let s := acqWrite s o (leBytes 4 0)
    let s := { s with acq := { s.acq with recs := s.acq.recs.filter (fun r => !hit.contains r), pre := [], rows := [], last := none,
                                          iv := [], force := false } }
    setAcqState s (if rd s Reg.ACQ_PRE_SAMPLES = 0 then aARMED else aFILLING)

/-- The 80-byte header (R346). -/
def acqHeader (s : State) (flags no : Nat) (rows : List AcqRow) (t0 frac c0 : Nat) : List Byte :=
  let mm := ((List.range 32).map (fun c => rd s (Reg.ACQ_CHSEL_MINMAX c) * 2 ^ c)).sum
  let ty := ((List.range 32).map (fun c => rd s (Reg.ACQ_CHSEL_TYPE c) * 4 ^ c)).sum
  leBytes 4 flags ++ leBytes 4 no ++ leBytes 4 (80 + rows.length * rowSize s) ++ leBytes 4 rows.length ++ leBytes 8 t0 ++ leBytes 2 frac ++
    leBytes 2 (rd s Reg.ACQ_CFG_DIV_M1) ++ leBytes 4 (period s) ++ leBytes 8 c0 ++ leBytes 8 s.acq.trig ++ leBytes 4 s.acq.pre.length ++
    leBytes 4 (rd s Reg.ACQ_CHMASK_EN) ++ leBytes 4 mm ++ leBytes 4 0 ++ leBytes 8 ty ++ leBytes 8 0

/-- The record is written, with DONE, and the engine enters HOLDOFF or IDLE (R342, R344, R346). A record with no row has no first sample: its T0 and CYCLE0 are free values. -/
def acqComplete (s : State) (broken stopped : Bool) : State :=
  let rows := s.acq.pre ++ s.acq.rows
  let o := rd s Reg.ACQ_WPTR_OFFSET
  let no := (rd s Reg.ACQ_LAST_VALUE + 1) % 2 ^ 32
  let flags := 1 + 2 * b2n broken + 4 * b2n stopped + 8 * b2n s.acq.forced
  let f := free s
  let g := free f.2
  let (t0, c0, frac, s) := match rows with
    | r :: _ => (r.ns, r.cycle, r.frac, s)
    | [] => (f.1 % 2 ^ 64, g.1 % 2 ^ 64, 0, g.2)
  let h := acqHeader s flags no rows t0 frac c0
  let s := acqWrite (acqWrite s (o + 80) (rows.flatMap (fun r => r.bytes))) o h
  let len := 80 + rows.length * rowSize s
  let s := wrs s [(Reg.ACQ_LAST_VALUE, no), (Reg.ACQ_LAST_OFS_VALUE, o), (Reg.ACQ_WPTR_OFFSET, (o + (len + 63) / 64 * 64) % acqSize)]
  let s := incCnt { s with acq := { s.acq with recs := s.acq.recs ++ [⟨no, o, len, false⟩], pre := [], rows := [], forced := false,
                                               left := rd s Reg.ACQ_HOLD_HOLD } } Reg.ACQ_REC_CNT_COUNT
  setAcqState s (if on s Reg.ACQ_CFG_REPEAT && !stopped then aHOLDOFF else aIDLE)

/-- The trigger cycle and with it the trigger row are fixed (R341). -/
def acqTrigger (s : State) (c : Nat) (forced : Bool) : State :=
  setAcqState (incCnt { s with acq := { s.acq with trig := c, forced := forced, force := false } } Reg.ACQ_TRIG_CNT_COUNT) aPOST

/-- A row joins the record: the pre-trigger rows, or those from the trigger row on, which may complete it (R342). -/
def acqKeep (s : State) (r : AcqRow) : State :=
  let n := rd s Reg.ACQ_PRE_SAMPLES
  if acqState s = aPOST then
    let s := { s with acq := { s.acq with rows := s.acq.rows ++ [r] } }
    if rd s Reg.ACQ_POST_SAMPLES < s.acq.rows.length then acqComplete s false false else s
  else
    let p := s.acq.pre ++ [r]
    let s := { s with acq := { s.acq with pre := p.drop (p.length - n) } }
    if acqState s = aFILLING ∧ n ≤ p.length then setAcqState s aARMED else s

/-- ACQ_TAP, when the last downlink launch completes: the trigger is evaluated and the channels are sampled (R338 to R343). -/
def acqTap (s : State) : State :=
  if !domOn s dCIST || acqState s == aIDLE then s
  else
    let c := s.sched.cycle
    let r := evalTrigger s
    let hold := r.1
    let s := { r.2 with acq := { r.2.acq with tapAt := some c, held := hold } }
    let st := acqState s
    if st = aHOLDOFF then
      if on s Reg.ACQ_CFG_HUNIT then
        let left := s.acq.left - b2n (hold && !r.2.acq.held)
        let s := { s with acq := { s.acq with left := left } }
        if left = 0 then acqReserve s else s
      else s
    else if st = aWAIT then s
    else
      let s := (acqChans s).foldl acqTake s
      let s := if st = aPOST then s else if hold || s.acq.force then acqTrigger s c (!hold) else s
      let d := rd s Reg.ACQ_CFG_DIV_M1 + 1
      if c % d = d - 1 then let x := acqRow s; acqKeep x.2 x.1 else s

/-! ## Commands (R342 to R347) -/

/-- CMD.ARM (R342, R344). -/
def acqArm (s : State) (m : Master) : State :=
  if acqState s ≠ aIDLE then errlog s 0xB2 7 m Reg.ACQ_CMD_ARM.addr
  else if acqSize < recordSize s then setSticky s Reg.ACQ_STAT_CFGERR
  else acqReserve { s with acq := { s.acq with prevA := none, prevB := none, held := false } }

/-- CMD.STOP (R344). -/
def acqStop (s : State) : State :=
  if acqState s = aPOST then acqComplete s false true
  else { setAcqState s aIDLE with acq := { s.acq with pre := [], rows := [], force := false } }

/-- CMD.FORCE (R341): the trigger holds in this cycle. After the cycle's tap the trigger row is the sample already taken, where its interval ended there. -/
def acqForce (s : State) : State :=
  if acqState s = aFILLING ∨ acqState s = aARMED then
    let c := s.sched.cycle
    if s.acq.tapAt = some c then
      let t := acqTrigger s c true
      match s.acq.last with
      | some r => if r.cycle = c then acqKeep { t with acq := { t.acq with pre := t.acq.pre.filter (fun x => x.cycle != c) } } r else t
      | none => t
    else { s with acq := { s.acq with force := true } }
  else s

/-- CMD.EXPORT (R347): a complete record present, and destination blocks owned by engines and internal, or EXPERR. -/
def acqExport (s : State) : State :=
  let b := rd s Reg.ACQ_EXP_DST_BLOCK
  match s.acq.recs.find? (fun r => r.no == rd s Reg.ACQ_EXP_REC_RECNO) with
  | some r =>
    if s.acq.exp.isNone && allFloat s b ((r.len + 255) / 256) 2 then { s with acq := { s.acq with exp := some (r.ofs, r.len, b) } }
    else setSticky s Reg.ACQ_STAT_EXPERR
  | none => setSticky s Reg.ACQ_STAT_EXPERR

/-- ACQ_ARM (R342, R344): ACQ.CMD is written with ARM. -/
def execAcqArm (m : Master) (w : W32) (s : State) : Host.Outcome State Fault Refusal :=
  .next (regAction s m Reg.ACQ_CMD_ARM.addr w (fun s => if wbits Reg.ACQ_CMD_ARM w = 1 then acqArm s m else s))

/-- ACQ_STOP (R344): ACQ.CMD is written with STOP. -/
def execAcqStop (m : Master) (w : W32) (s : State) : Host.Outcome State Fault Refusal :=
  .next (regAction s m Reg.ACQ_CMD_STOP.addr w (fun s => if wbits Reg.ACQ_CMD_STOP w = 1 then acqStop s else s))

/-- FORCE (R341): ACQ.CMD is written with FORCE. -/
def execForce (m : Master) (w : W32) (s : State) : Host.Outcome State Fault Refusal :=
  .next (regAction s m Reg.ACQ_CMD_FORCE.addr w (fun s => if wbits Reg.ACQ_CMD_FORCE w = 1 then acqForce s else s))

/-- EXPORT (R347): ACQ.CMD is written with EXPORT. -/
def execExportRec (m : Master) (w : W32) (s : State) : Host.Outcome State Fault Refusal :=
  .next (regAction s m Reg.ACQ_CMD_EXPORT.addr w (fun s => if wbits Reg.ACQ_CMD_EXPORT w = 1 then acqExport s else s))

/-- EXPORT_COMPLETE (R347): the record is in the cistern; the blocks pass to the host, the first one last. -/
def execExportComplete (s : State) : Host.Outcome State Fault Refusal :=
  .next (
    match s.acq.exp with
    | some (o, n, b) =>
      if domOn s dCIST then
        let s := (List.range (n / 4)).foldl (fun s i =>
          cistWrite s 2 13 (64 * b + i) (leNat ((List.range 4).map (fun j => mget s (acqAddr (o + 4 * i + j)))))) s
        let s := ((List.range ((n + 255) / 256)).reverse).foldl (fun s i => if flt s (b + i) = 2 then setFloat s (b + i) 1 false else s) s
        setSticky { s with acq := { s.acq with exp := none } } Reg.ACQ_STAT_EXPDONE
      else s
    | none => s)

/-- RELEASE (R345): the record named and every older one are released; an engine that waits for room looks again. -/
def execRelease (m : Master) (w : W32) (s : State) : Host.Outcome State Fault Refusal :=
  .next (regAction s m Reg.ACQ_RELEASE_RECNO.addr w (fun s =>
    let s := { s with acq := { s.acq with
      recs := s.acq.recs.map (fun r => if (w.toNat + 2 ^ 32 - r.no) % 2 ^ 32 < 2 ^ 31 then { r with released := true } else r) } }
    if acqState s = aWAIT then acqReserve s else s))

/-- HOLDOFF_EXPIRY (R343): the hold-off time has passed. -/
def execHoldoffExpiry (s : State) : Host.Outcome State Fault Refusal :=
  .next (if domOn s dCIST && acqState s == aHOLDOFF && !on s Reg.ACQ_CFG_HUNIT then acqReserve s else s)

/-! ## Boundaries and power (R344) -/

/-- A swap that changes PERIOD, or a time step: pre-trigger samples are discarded, a record in POST is closed with BROKEN (R344). -/
def acqBreak (s : State) : State :=
  if acqState s = aPOST then acqComplete s true false
  else if acqState s = aFILLING ∨ acqState s = aARMED then
    setAcqState { s with acq := { s.acq with pre := [], iv := [], last := none } } (if rd s Reg.ACQ_PRE_SAMPLES = 0 then aARMED else aFILLING)
  else s

/-- CIST leaves ON: sampling stops, and the record in progress keeps DONE = 0 (R344). -/
def acqLeave (s : State) : State :=
  let st := acqState s
  let was := st == aFILLING || st == aARMED || st == aPOST
  let a := { s.acq with pre := [], rows := [], iv := [], last := none, force := false, exp := none, aborted := s.acq.aborted || was }
  setAcqState { s with acq := a } aIDLE

/-- CIST has returned to ON: ABORT tells that sampling was in progress (R344). -/
def acqReturn (s : State) : State :=
  if s.acq.aborted then setSticky { s with acq := { s.acq with aborted := false } } Reg.ACQ_STAT_ABORT else s

/-- The register is one of the acquisition configuration, which is written only in IDLE (R344). -/
def acqConfig (k : Nat) : Bool := (0xB2040 ≤ k && k < 0xB2080) || (0xB2100 ≤ k && k < 0xB2180)

end Sys2Proof.Machine
end

