-- ==== Sys2Proof/Machine/Can.lean ====
section
/-! DEFINITION. The CAN FD controllers (R349 to R362). -/

namespace Sys2Proof.Machine

/-- A controller. -/
def can (s : State) (n : Nat) : CanSt := tget (fun _ => {}) s.cans n
/-- Set a controller. -/
def setCan (s : State) (n : Nat) (x : CanSt) : State := { s with cans := tput (fun _ => {}) s.cans n x }
/-- A transmit buffer. -/
def canTx (s : State) (n t : Nat) : CanTx := tget (fun _ => {}) (can s n).tx t
/-- Set a transmit buffer. -/
def setCanTx (s : State) (n t : Nat) (x : CanTx) : State := setCan s n { can s n with tx := tput (fun _ => {}) (can s n).tx t x }
/-- A receive buffer. -/
def canRx (s : State) (n b : Nat) : CanRx := tget (fun _ => {}) (can s n).rx b
/-- Set a receive buffer. -/
def setCanRx (s : State) (n b : Nat) (x : CanRx) : State := setCan s n { can s n with rx := tput (fun _ => {}) (can s n).rx b x }

/-- Page of a controller. -/
def canPage (n : Nat) : Nat := 0xC0 + n

/-- Transmit buffer states (R351). -/
def tIDLE : Nat := 0
/-- PENDING. -/
def tPENDING : Nat := 1
/-- ACTIVE. -/
def tACTIVE : Nat := 2
/-- SENT. -/
def tSENT : Nat := 3
/-- CANCELLED. -/
def tCANCELLED : Nat := 4
/-- LATE_SENT. -/
def tLATE_SENT : Nat := 5
/-- LATE_FAIL. -/
def tLATE_FAIL : Nat := 6
/-- HALT. -/
def tHALT : Nat := 7

/-- State of a transmit buffer. -/
def txState (s : State) (n t : Nat) : Nat := rd s (Reg.CAN_TXCTRL_STATE n t)
/-- A transmit buffer changes state; TXPEND follows. -/
def setTxState (s : State) (n t st : Nat) : State :=
  let s := wr s (Reg.CAN_TXCTRL_STATE n t) st
  wr s (Reg.CAN_TXPEND_PEND n) (putBit t (st == 1 || st == 2) (rd s (Reg.CAN_TXPEND_PEND n)))
/-- The buffer accepts content and requests (R351). -/
def txOpen (st : Nat) : Bool := st == 0 || (3 ≤ st && st ≤ 6)

/-- The ISO arbitration field of a frame as a number: the lower one wins. -/
def arbitration (h : Nat) : Nat :=
  let rtr := b2n (bitOf 36 h && !bitOf 30 h)
  if bitOf 29 h then bits 28 18 h * 2 ^ 21 + 2 ^ 20 + 2 ^ 19 + bits 17 0 h * 2 + rtr else bits 10 0 h * 2 ^ 21 + rtr * 2 ^ 20

/-- Bytes of a frame by its DLC (ISO 11898-1). -/
def dlcLen (h : Nat) : Nat :=
  let d := bits 35 32 h
  if bitOf 36 h && !bitOf 30 h then 0
  else if d ≤ 8 then d else if bitOf 30 h then [12, 16, 20, 24, 32, 48, 64].getD (d - 9) 64 else 8

/-- Error state as the counters show it, while not bus-off (ISO 11898-1). -/
def showErr (s : State) (n : Nat) : State :=
  if rd s (Reg.CAN_STAT_STATE n) < 2 then
    wr s (Reg.CAN_STAT_STATE n) (b2n (127 < rd s (Reg.CAN_STAT_TEC n) || 127 < rd s (Reg.CAN_STAT_REC n)))
  else s

/-- The controller takes part in the bus: ON, enabled, integrated, not bus-off. -/
def canLive (s : State) (n : Nat) : Bool :=
  domOn s dAUX && on s (Reg.CAN_CTRL_EN n) && on s (Reg.CAN_STAT_SYNC n) && decide (rd s (Reg.CAN_STAT_STATE n) < 2)

/-- The buffer on the bus. -/
def txActive (s : State) (n : Nat) : Option Nat := (List.range 32).find? (fun t => txState s n t == tACTIVE)

/-- CAN_SYNC (R350): an enabled controller has seen 11 consecutive recessive bits. -/
def execCanSync (n : Fin 4) (s : State) : Host.Outcome State Fault Refusal :=
  .next (if domOn s dAUX && on s (Reg.CAN_CTRL_EN n) then wr s (Reg.CAN_STAT_SYNC n) 1 else s)

/-- A request of a buffer's content, `written` or made by a mapped load (R349, R351, R357; log 37): granted, or refused and logged. -/
def canRequest (s : State) (m : Master) (n t : Nat) (written : Bool) : State :=
  let h := (canTx s n t).hdr
  if written && on s (Reg.CAN_CTRL_LISTEN n) || (bitOf 30 h && bitOf 36 h) then errlog s (canPage n) 7 m (Reg.CAN_TXCTRL_REQ n t).addr
  else setTxState (setCanTx s n t { canTx s n t with cancel := false }) n t tPENDING

/-- CAN_TX_REQ (R351): TXCTRLt is written with REQ. -/
def execCanTxReq (m : Master) (n : Fin 4) (t : Fin 32) (w : W32) (s : State) : Host.Outcome State Fault Refusal :=
  .next (
    let mapped := on s (Reg.CAN_TXCTRL_MAP n t)
    regAction s m (Reg.CAN_TXCTRL_REQ n t).addr w (fun s =>
      if wbits (Reg.CAN_TXCTRL_REQ n t) w = 1 then
        if mapped || !txOpen (txState s n t) then errlog s (canPage n) 7 m (Reg.CAN_TXCTRL_REQ n t).addr
        else canRequest s m n t true
      else s))

/-- A cancel (R352). -/
def canCancel (s : State) (n t : Nat) : State :=
  let st := txState s n t
  if st = tPENDING then setTxState s n t tCANCELLED
  else if st = tACTIVE then setCanTx s n t { canTx s n t with cancel := true }
  else s

/-- CAN_CANCEL (R352): TXCTRLt is written with CANCEL. -/
def execCanCancel (m : Master) (n : Fin 4) (t : Fin 32) (w : W32) (s : State) : Host.Outcome State Fault Refusal :=
  .next (
    let mapped := on s (Reg.CAN_TXCTRL_MAP n t)
    regAction s m (Reg.CAN_TXCTRL_CANCEL n t).addr w (fun s =>
      if wbits (Reg.CAN_TXCTRL_CANCEL n t) w = 1 then
        if mapped then errlog s (canPage n) 7 m (Reg.CAN_TXCTRL_REQ n t).addr else canCancel s n t
      else s))

/-- CAN_CLR (R354): TXCTRLt is written with CLR. -/
def execCanClr (m : Master) (n : Fin 4) (t : Fin 32) (w : W32) (s : State) : Host.Outcome State Fault Refusal :=
  .next (regAction s m (Reg.CAN_TXCTRL_CLR n t).addr w (fun s =>
    if wbits (Reg.CAN_TXCTRL_CLR n t) w = 1 ∧ txState s n t = tHALT then setTxState s n t tIDLE else s))

/-- The better of two buffers: higher ISO arbitration priority, then the lower number (R351). -/
def txBest (s : State) (n : Nat) (o : Option Nat) (t : Nat) : Option Nat :=
  match o with
  | none => some t
  | some u => if arbitration (canTx s n t).hdr < arbitration (canTx s n u).hdr then some t else some u

/-- Buffers that may be committed: PENDING, and not the one that a clash is about to halt (R354). -/
def txReady (s : State) (n : Nat) : List Nat :=
  (List.range 32).filter (fun t => txState s n t == tPENDING && !((can s n).runBuf == t && 8 ≤ (can s n).run))

/-- CAN_TX_START (R351): a frame may begin; the best PENDING buffer is committed to SOF. A standby, a DETACHED one too, sends no frame (R248, R261). -/
def execCanTxStart (n : Fin 4) (s : State) : Host.Outcome State Fault Refusal :=
  .next (
    if canLive s n && role s != rSTANDBY && role s != rDETACHED && !on s (Reg.CAN_CTRL_LISTEN n) && (txActive s n).isNone && decide (rd s (Reg.CAN_STAT_TEC n) ≤ 255) then
      match (txReady s n).foldl (txBest s n) none with
      | some t => setTxState s n t tACTIVE
      | none => s
    else s)

/-- The transmit error counter changes (ISO 11898-1). -/
def addTec (s : State) (n : Nat) (up : Bool) : State :=
  let v := rd s (Reg.CAN_STAT_TEC n)
  showErr (wr s (Reg.CAN_STAT_TEC n) (if up then min 511 (v + 8) else v - 1)) n

/-- An attempt ends without success: the buffer is retried, or a cancel that came too late lets it fail (R352, R358; log 37 where EN is cleared). -/
def endAttempt (s : State) (n t : Nat) : State :=
  let x := canTx s n t
  setTxState (setCanTx s n t { x with cancel := false }) n t (if x.cancel then tLATE_FAIL else tPENDING)

/-- CAN_TX_END (R351 to R353, R356): the transmission on the bus ends. -/
def execCanTxEnd (n : Fin 4) (out : CanEnd) (ts : W64) (frac : BitVec 16) (s : State) : Host.Outcome State Fault Refusal :=
  .next (
    match txActive s n with
    | none => s
    | some t =>
      let x := canTx s n t
      let c := can s n
      let bit := out == .bitError
      let s := setCan s n { c with runBuf := t, run := if bit then (if c.runBuf = t then c.run + 1 else 1) else 0 }
      match out with
      | .sent =>
        let s := setCanTx s n t { x with ts := ts.toNat, frac := frac.toNat, cancel := false }
        incCnt (addTec (setTxState s n t (if x.cancel then tLATE_SENT else tSENT)) n false) (Reg.CAN_TX_CNT_COUNT n)
      | .lostArb => setTxState (setCanTx s n t { x with cancel := false }) n t (if x.cancel then tCANCELLED else tPENDING)
      | .bitError | .error _ =>
        let raises := match out with | .error r => r | _ => true
        let s := endAttempt s n t
        let s := incErr s (Reg.CAN_BUS_ERR_COUNT n)
        if raises then addTec s n true else s)

/-- CAN_ID_CLASH (R354): the buffer that has met 8 consecutive bit errors goes to HALT instead of being retried. -/
def execCanIdClash (n : Fin 4) (s : State) : Host.Outcome State Fault Refusal :=
  .next (
    let t := (can s n).runBuf
    if 8 ≤ (can s n).run ∧ txState s n t = tPENDING then
      let s := setTxState (setCan s n { can s n with run := 0 }) n t tHALT
      post (incErr s (Reg.CAN_CLASH_ERR_COUNT n)) 0x4004 4 (n.val + t * 4 + bits 24 0 (canTx s n t).hdr * 2 ^ 7)
    else s)

/-- CAN_BUSOFF (R358): the transmit error counter exceeds 255. -/
def execCanBusoff (n : Fin 4) (s : State) : Host.Outcome State Fault Refusal :=
  .next (
    if canLive s n && decide (255 < rd s (Reg.CAN_STAT_TEC n)) then
      let s := match txActive s n with
        | some t => endAttempt s n t
        | none => s
      let s := wr s (Reg.CAN_STAT_STATE n) (if on s (Reg.CAN_CTRL_AUTOREC n) then 3 else 2)
      post (incCnt s (Reg.CAN_BOFF_CNT_COUNT n)) 0x4003 4 n
    else s)

/-- RECOVER (R358): CTRL is written with RECOVER; with AUTOREC = 0 the recovery sequence of a bus-off controller starts. -/
def canRecover (s : State) (n : Nat) : State :=
  if rd s (Reg.CAN_STAT_STATE n) = 2 ∧ ¬ on s (Reg.CAN_CTRL_AUTOREC n) then wr s (Reg.CAN_STAT_STATE n) 3 else s

/-- A write of CTRL (R350, R357): LISTEN keeps its value while EN is 1; clearing EN takes the controller off the bus. -/
def canCtrlWrite (s : State) (m : Master) (n : Nat) (wasEn wasListen : Bool) : State :=
  let s := if wasEn && on s (Reg.CAN_CTRL_LISTEN n) != wasListen then
      errlog (wr s (Reg.CAN_CTRL_LISTEN n) (b2n wasListen)) (canPage n) 7 m (Reg.CAN_CTRL_EN n).addr
    else s
  let s := if on s (Reg.CAN_CTRL_AUTOREC n) && rd s (Reg.CAN_STAT_STATE n) == 2 then wr s (Reg.CAN_STAT_STATE n) 3 else s
  if wasEn && !on s (Reg.CAN_CTRL_EN n) then
    let s := wr s (Reg.CAN_STAT_SYNC n) 0
    match txActive s n with
    | some t => endAttempt (setCan s n { can s n with run := 0 }) n t
    | none => s
  else s

/-- RECOVER (R358). -/
def execRecover (m : Master) (n : Fin 4) (w : W32) (s : State) : Host.Outcome State Fault Refusal :=
  .next (
    let e := on s (Reg.CAN_CTRL_EN n)
    let l := on s (Reg.CAN_CTRL_LISTEN n)
    regAction s m (Reg.CAN_CTRL_RECOVER n).addr w (fun s =>
      let s := canCtrlWrite s m n e l
      if wbits (Reg.CAN_CTRL_RECOVER n) w = 1 then canRecover s n else s))

/-- CAN_RECOVERY_COMPLETE (R358): 128 occurrences of 11 recessive bits have been seen. -/
def execCanRecoveryComplete (n : Fin 4) (s : State) : Host.Outcome State Fault Refusal :=
  .next (
    if domOn s dAUX ∧ rd s (Reg.CAN_STAT_STATE n) = 3 then
      wrs s [(Reg.CAN_STAT_TEC n, 0), (Reg.CAN_STAT_REC n, 0), (Reg.CAN_STAT_STATE n, 0)]
    else s)

/-! ## Receive (R355, R356) -/

/-- The filter of receive buffer `b` matches a frame. -/
def rxMatches (s : State) (n : Nat) (h : Nat) (b : Nat) : Bool :=
  on s (Reg.CAN_RXID_EN n b) &&
  ((bits 28 0 h ^^^ rd s (Reg.CAN_RXID_ID n b)) &&& rd s (Reg.CAN_RXMASK_MASK n b)) == 0 &&
  (!on s (Reg.CAN_RXMASK_XTDM n b) || bitOf 29 h == on s (Reg.CAN_RXID_XTD n b))

/-- RXFULL bit of a receive buffer. -/
def rxFull (n b : Nat) : Fld :=
  let f := if b < 32 then Reg.CAN_RXFULL_LO_FULL n else Reg.CAN_RXFULL_HI_FULL n
  ⟨f.addr, b % 32, b % 32⟩

/-- A frame is stored in the buffer's primary, or in its shadow while the buffer is locked (R355). -/
def rxStore (s : State) (n b : Nat) (f : CanMsg) : State :=
  let x := canRx s n b
  let s := incCnt s (Reg.CAN_RX_CNT_COUNT n)
  let y := { x with newest := some (f, s.sched.cycle) }
  if (can s n).lock = some b then
    let s := if x.shad.isSome then incErr s (Reg.CAN_OVR_ERR_COUNT n) else s
    setCanRx s n b { y with shad := some f }
  else
    let s := if x.prim.isSome then incErr s (Reg.CAN_OVR_ERR_COUNT n) else s
    wr (setCanRx s n b { y with prim := some f }) (rxFull n b) 1

/-- The receive error counter after a frame received well (ISO 11898-1): one less, or a value from 119 to 127 that the standard leaves open. -/
def recDown (s : State) (n : Nat) : State :=
  let v := rd s (Reg.CAN_STAT_REC n)
  if 127 < v then let f := free s; showErr (wr f.2 (Reg.CAN_STAT_REC n) (119 + f.1 % 9)) n
  else showErr (wr s (Reg.CAN_STAT_REC n) (v - 1)) n

/-- CAN_RECEIVE (R355, R356): a valid frame from another node. -/
def execCanReceive (n : Fin 4) (f : CanFrame) (s : State) : Host.Outcome State Fault Refusal :=
  .next (
    if canLive s n then
      let s := if on s (Reg.CAN_CTRL_LISTEN n) then s else recDown s n
      let h := if bitOf 29 f.hdr.toNat then f.hdr.toNat else f.hdr.toNat - bits 28 11 f.hdr.toNat * 2 ^ 11
      match (List.range 64).find? (rxMatches s n h) with
      | some b => rxStore s n b { hdr := h, data := f.data.take (dlcLen h), ts := f.ts.toNat, frac := f.frac.toNat }
      | none => incCnt s (Reg.CAN_NOMATCH_CNT_COUNT n)
    else s)

/-- A receive buffer is released: a shadow frame moves to the primary, else FULL is cleared (R355). -/
def rxRelease (s : State) (n b : Nat) : State :=
  let x := canRx s n b
  match x.shad with
  | some f => wr (setCanRx s n b { x with prim := some f, shad := none }) (rxFull n b) 1
  | none => wr (setCanRx s n b { x with prim := none }) (rxFull n b) 0

/-- BSEL (R355): the buffer of the window is selected; a receive buffer is locked, and one that was locked is released by the selection of another. -/
def execBsel (m : Master) (n : Fin 4) (w : W32) (s : State) : Host.Outcome State Fault Refusal :=
  .next (regAction s m (Reg.CAN_BSEL_RX n).addr w (fun s =>
    let new := if wbits (Reg.CAN_BSEL_RX n) w = 1 then some (wbits (Reg.CAN_BSEL_BUF n) w) else none
    let s := match (can s n).lock with
      | some b => if new = some b then s else rxRelease s n b
      | none => s
    let s := wrs s [(Reg.CAN_BSEL_RX n, wbits (Reg.CAN_BSEL_RX n) w), (Reg.CAN_BSEL_BUF n, wbits (Reg.CAN_BSEL_BUF n) w)]
    setCan s n { can s n with lock := new }))

/-- RXREL (R355): the receive buffer named is released, and unlocked if it was locked. -/
def execRxrel (m : Master) (n : Fin 4) (w : W32) (s : State) : Host.Outcome State Fault Refusal :=
  .next (regAction s m (Reg.CAN_RXREL_BUF n).addr w (fun s =>
    let b := wbits (Reg.CAN_RXREL_BUF n) w
    let s := rxRelease s n b
    if (can s n).lock = some b then setCan s n { can s n with lock := none } else s))

/-- CAN_BUS_ERROR (R349, R357): a receiving controller detects an error; the receive error counter rises by 1, or by 8 where ISO 11898-1 says so, but not in listen-only. -/
def execCanBusError (n : Fin 4) (by8 : Bool) (s : State) : Host.Outcome State Fault Refusal :=
  .next (
    if canLive s n then
      let s := incErr s (Reg.CAN_BUS_ERR_COUNT n)
      if on s (Reg.CAN_CTRL_LISTEN n) then s
      else showErr (wr s (Reg.CAN_STAT_REC n) (min 255 (rd s (Reg.CAN_STAT_REC n) + (if by8 then 8 else 1)))) n
    else s)

/-! ## Points (R359 to R361) -/

/-- Data word `k` of a frame: bytes 8k to 8k + 7. -/
def canWord (d : List Byte) (k : Nat) : Nat := leNat ((List.range 8).map (fun i => d.getD (8 * k + i) 0))

/-- A mapped receive buffer writes its points at a boundary, with their staleness by age (R360). -/
def canRxPoints (s : State) (n b : Nat) : State :=
  let at_ := fun (k : Nat) => pt 27 (8 * n + b / 16) (b % 16) k
  match (canRx s n b).newest with
  | some (f, c) =>
    let age := rd s (Reg.CAN_RXAGE_CYCLES n)
    let old := age != 0 && decide (c + age < s.sched.cycle)
    let s := (List.range 8).foldl (fun s k => wrPt s (at_ k) (canWord f.data k) old) s
    wrPt (wrPt s (at_ 8) f.hdr old) (at_ 9) f.ts old
  | none => (List.range 10).foldl (fun s k => setStale s (at_ k) true) s

/-- CAN_RX_MAP at step 3 of a boundary (R360). -/
def canRxMap (s : State) : State :=
  if domOn s dAUX then
    (List.range 4).foldl (fun s n => (List.range 64).foldl (fun s b => if on s (Reg.CAN_RXID_MAP n b) then canRxPoints s n b else s) s) s
  else s

/-- A mapped transmit buffer loads its content from its points and requests transmission (R361). -/
def canTxLoad (s : State) (n t : Nat) : State :=
  let at_ := fun (k : Nat) => pt 27 (8 * n + 4 + t / 16) (t % 16) k
  let h := ptVal s (at_ 8) % 2 ^ 38
  let d := (List.range 8).flatMap (fun k => leBytes 8 (ptVal s (at_ k)))
  let load := fun (s : State) => setCanTx s n t { canTx s n t with hdr := h, data := d }
  let st := txState s n t
  if st = tHALT then s
  else if st = tACTIVE then incCnt s (Reg.CAN_TXOVW_CNT_COUNT n)
  else if st = tPENDING then incCnt (load s) (Reg.CAN_TXOVW_CNT_COUNT n)
  else if role s = rACTIVE ∨ role s = rALONE then canRequest (load s) .device n t false
  else load s

/-- CAN_TX_MAP_LOAD at the tap instant (R361). -/
def canTxMap (s : State) : State :=
  if domOn s dAUX then
    (List.range 4).foldl (fun s n => (List.range 32).foldl (fun s t =>
      if on s (Reg.CAN_TXCTRL_MAP n t) && s.sched.cycle % max 1 (rd s (Reg.CAN_TXCTRL_PER n t)) == 0 then canTxLoad s n t else s) s) s
  else s

/-! ## The window (R351, R355, R362) -/

/-- A word of the window. -/
def canWinRead (s : State) (n i : Nat) : Nat :=
  let b := rd s (Reg.CAN_BSEL_BUF n)
  let f : CanMsg :=
    if on s (Reg.CAN_BSEL_RX n) then ((canRx s n b).prim).getD ⟨0, [], 0, 0⟩
    else let x := canTx s n b; ⟨x.hdr, x.data, x.ts, x.frac⟩
  if i < 2 then f.hdr / 2 ^ (32 * i) % 2 ^ 32
  else if i < 4 then f.ts / 2 ^ (32 * (i - 2)) % 2 ^ 32
  else leNat ((List.range 4).map (fun j => f.data.getD (4 * (i - 4) + j) 0))

/-- A write of a word of the window: content of a transmit buffer that accepts it (R351, R361); otherwise discarded and logged. -/
def canWinWrite (s : State) (m : Master) (n i w : Nat) : State :=
  let b := rd s (Reg.CAN_BSEL_BUF n)
  let ofs := (Reg.CAN_BSEL_BUF n).addr / 0x1000 * 0x1000 + 0x380 + 4 * i
  if on s (Reg.CAN_BSEL_RX n) || 32 ≤ b then errlog s (canPage n) 2 m ofs
  else if on s (Reg.CAN_TXCTRL_MAP n b) then errlog s (canPage n) 7 m ofs
  else if !txOpen (txState s n b) then errlog s (canPage n) 7 m ofs
  else
    let x := canTx s n b
    if i < 2 then
      let h := if i = 0 then x.hdr - x.hdr % 2 ^ 32 + w else x.hdr % 2 ^ 32 + w % 64 * 2 ^ 32
      setCanTx s n b { x with hdr := h }
    else if i < 4 then errlog s (canPage n) 2 m ofs
    else
      let d := (List.range 64).map (fun j => x.data.getD j 0)
      setCanTx s n b { x with data := d.take (4 * (i - 4)) ++ leBytes 4 w ++ d.drop (4 * (i - 4) + 4) }

end Sys2Proof.Machine
end

