-- ==== Sys2Proof/Machine/Transit.lean ====
section
/-! DEFINITION. Power requests and transitions: what a domain loses and what it finds when it returns (R364 to R371, R442, R444). -/

namespace Sys2Proof.Machine

/-- Pages of a power domain (R411). -/
def domPages (d : Nat) : List Nat := allPages.filter (fun p => pageDom p == d)

/-- The pages of a domain are locked again as it leaves ON (R410). -/
def lockPages (s : State) (d : Nat) : State := (domPages d).foldl (fun s p => wr s (Reg.HDR_LOCK_LOCKED p) 1) s

/-- The power domain of the resource that a test works on (R400), none where it has none of its own. -/
def testDom (r : TestReq) : Option Nat :=
  match r.kind with
  | .engine => some (dCLU (r.index / 16))
  | .cistbank => some dCIST
  | .eyescan | .sdscal => some (if r.index < 24 then dPort r.index else dLINK)
  | .portloop => some (dPort r.index)
  | .can | .encoder => some dAUX
  | .scrub | .offline | .replan => none

/-! ## Out of ON -/

/-- Tokens of a cluster are discarded as its transition out of ON executes, and posters stalled on them are released (R444). -/
def flushCluster (s : State) (c : Nat) : State :=
  let inWells := ((List.range 4).map (fun p => (well s c p).length)).sum
  let inEngs := ((cluEngs c).map (fun e =>
    (eng s e).lq.length + (eng s e).pq.length + b2n (eng s e).pslot.isSome + b2n (eng s e).reserved.isSome)).sum
  let held := fun (i : PostItem) => match i.hold with | some t => home t == c | none => false
  let inPosts := ((List.range 30).map (fun w => ((poster s w).filter held).length)).sum
  let s := addCnt s Reg.CYC_FLUSH_CNT (inWells + inEngs + inPosts)
  let s := (List.range 4).foldl (fun s p => { s with sched := { s.sched with wells := tput (fun _ => []) s.sched.wells (c * 4 + p) [] } }) s
  let s := (cluEngs c).foldl (fun s e => setEng s e { eng s e with lq := [], pq := [], pslot := none, reserved := none }) s
  let m := BitVec.ofNat 4 (2 ^ c)
  let s := { s with sched := { s.sched with part := s.sched.part &&& ~~~m, gate := s.sched.gate &&& ~~~m } }
  (List.range 30).foldl (fun s w =>
    let l := poster s w
    if l.any held then drain (setPoster s w (l.map (fun i => if held i then { i with hold := none } else i))) w else s) s

/-- What a domain does as it leaves ON (R344, R330, R371, R400, R410). -/
def leaveOn (s : State) (d : Nat) : State :=
  let s := abortTests (lockPages s d) (fun r => testDom r == some d)
  if d = dCIST then acqLeave (dropSnap s) else if d = dNET then dropSnap s else s

/-- The outputs and safety switches follow the domains that drive them (R270, R315). -/
def afterDom (s : State) (d : Nat) : State :=
  if d = dFIELD then redrive s else if d = dSAFEA ∨ d = dSAFEB then safeShow s else s

/-- A request that passes its check starts (R366, R371): a cluster first withdraws its engines and waits for them to be idle. -/
def startTrans (s : State) (d t src : Nat) (round : Bool) : State :=
  if domOn s d ∧ t < 2 then
    if 5 ≤ d ∧ d ≤ 8 then
      let s := wr s (Reg.CLU_WITHDRAW_ENG (d - 5)) 0xFFFF
      let s := setDom s d { dom s d with leave := some t, src := src, round := round }
      capacityCheck s (leMHz s)
    else afterDom (beginTrans (leaveOn s d) d t src round) d
  else beginTrans s d t src round

/-- Execute a request: its checks apply now (R366). -/
def performReq (s : State) (m : Master) (d t src : Nat) (round : Bool) : State :=
  let c := reqCode s d t
  if c = 0 then pwrResult (startTrans s d t src round) m d 0 else pwrResult s m d c

/-- A request as it is written (R366, R368, R369). -/
def pwrRequest (s : State) (m : Master) (d t : Nat) : State :=
  if srcBad m d then pwrResult s m d 5
  else
    match inProgress (dom s d) with
    | some p =>
      if p = t then pwrResult (setPend s d none) m d 2
      else pwrResult (setPend s d (some ⟨m, t, srcOf m, t == 2 && entering (dom s d)⟩)) m d 1
    | none => performReq s m d t (srcOf m) false

/-- PWR_REQ: PWR.REQ is written (R366). -/
def execPwrReq (m : Master) (w : W32) (s : State) : Host.Outcome State Fault Refusal :=
  .next (regAction s m Reg.PWR_REQ_DOM.addr w (fun s =>
    let t := wbits Reg.PWR_REQ_STATE w
    pwrRequest s m (wbits Reg.PWR_REQ_DOM w) (if t = 3 then 0 else t)))

/-- CLUSTER_OFF_EXECUTE: every engine is idle or in its fault state, and the transition executes (R371, R444). -/
def execClusterOffExecute (c : Fin 4) (s : State) : Host.Outcome State Fault Refusal :=
  .next (
    let d := dCLU c
    match (dom s d).leave with
    | some t =>
      if domOn s d && cluQuiet s c then
        let s := leaveOn (flushCluster s c) d
        let s := { s with sched := { s.sched with gcmd := s.sched.gcmd.map (fun g => { g with lost := g.lost ||| BitVec.ofNat 4 (2 ^ c.val) }) } }
        beginTrans s d t (dom s d).src (dom s d).round
      else s
    | none => s)

/-! ## OFF (R364) -/

/-- A register keeps its value as its page is reset: the place of the retention tail, which goes on overwriting its oldest entry (R416; log 43). -/
def outlives (k : Nat) : Bool := k == Reg.SUMP_TAIL_WPTR_INDEX.addr

/-- Registers of a domain return to their reset values. -/
def dropPages (s : State) (d : Nat) : State :=
  let ps := domPages d
  { s with regs := s.regs.filter (fun e => !ps.contains (e.1 / 0x1000) || outlives e.1), ctl := s.ctl.filter (fun e => !ps.contains (e.1 / 0x1000)),
           banked := s.banked.filter (fun e => !ps.contains (e.1 % 2 ^ 24 / 0x1000)), lockSeq := s.lockSeq.filter (fun l => !ps.contains l.1) }

/-- Memories of a domain: first address and the one after the last (R29, R31). -/
def domMem (d : Nat) : List (Nat × Nat) :=
  if d = dNET then [(0x30000000, 0x30C00000)]
  else if d = dCIST then [(0x20000000, 0x20800000), (0x21000000, 0x21200000)]
  else if d = dSTEWARD then [(0x10010000, 0x10020000)]
  else if d = dSDSW then [(0x12000000, 0x12060000)]
  else if d = dSDSE then [(0x12060000, 0x120C0000)]
  else if 5 ≤ d ∧ d ≤ 8 then
    [(0x50000000 + (d - 5) * 0x40000, 0x50000000 + (d - 4) * 0x40000), (0x60000000 + (d - 5) * 0x80000, 0x60000000 + (d - 4) * 0x80000)]
  else []

/-- The tasks of both banks homed in a cluster whose memory is lost (R444). -/
def goingTasks (s : State) (c : Nat) : List GoneTask :=
  (List.range 2).flatMap (fun b => ((validTasks s b).filter (fun t => home t == c)).map (fun t => ⟨b, t, tdAxis s b t, tdEdges s b t⟩))

/-- The states of a domain's blocks beside their registers. -/
def dropBlocks (s : State) (d : Nat) : State :=
  if d = dNET then
    let keep := { s.bridge with outImg := 0 }
    { s with lemac := {}, sched := {}, axes := [], mots := [], motRec := [], camPend := [], stops := [], commit := none, time := {}, bridge := keep }
  else if 5 ≤ d ∧ d ≤ 8 then
    { s with engs := tdrop ((d - 5) * 16) ((d - 4) * 16) s.engs,
             sched := { s.sched with intra := s.sched.intra.filter (fun e => e.1 % 4 != d - 5), gone := s.sched.gone ++ goingTasks s (d - 5) } }
  else if d = dSDSW then { s with lemac := { s.lemac with ports := tdrop 0 12 s.lemac.ports } }
  else if d = dSDSE then { s with lemac := { s.lemac with ports := tdrop 12 24 s.lemac.ports } }
  else if d = dLINK then { s with lemac := { s.lemac with ports := tdrop 24 26 s.lemac.ports }, plants := [], pair := {} }
  else if d = dCIST then
    { s with cist := s.cist.filter (fun e => e.2.excl), casPend := [], snapRun := none, snapLatch := [], acq := { aborted := s.acq.aborted } }
  else if d = dHOST then { s with dma := [] }
  else if d = dAUX then { s with encs := [], emus := [], tts := [], capts := [], cans := [] }
  else if d = dSAFEA then
    { s with safe := { s.safe with a := {}, pset := [], pass := false, nodeRef := none, nodeFirst := none, nodeRun := 0, nodeDone := false, nodeAsk := false, resetNow := false, pulseHold := 0 }, safeA := [] }
  else if d = dSAFEB then { s with safe := { s.safe with b := {}, psetB := [], cntB := 0, lowNext := 0 } }
  else if d = dFIELD then { s with field := { held := s.field.held, drive := s.field.drive } }
  else if d = dSTEWARD then
    let sg : SurgeSt := { usedH := s.surge.usedH, vdd := s.surge.vdd, target := s.surge.vdd, planAt := s.surge.planAt }
    { s with surge := sg, tests := [], mfault := [], stalled := [], bridge := { s.bridge with served := false, down := none, img := none } }
  else s

/-- A domain's supply is removed: all its state is lost (R364, R440). -/
def offReset (s : State) (d : Nat) : State :=
  let s := dropBlocks (dropPages s d) d
  afterDom ((domMem d).foldl (fun s r => { s with mem := tdrop r.1 r.2 s.mem }) s) d

/-! ## ON -/

/-- Excluded engines are set in WITHDRAW (R392). -/
def holdEngines (s : State) (c : Nat) : State :=
  (cluEngs c).foldl (fun s e => if engExcluded s e then wr s (wdField e) 1 else s) s

/-- A cluster reaches ON: excluded engines are held, its tasks are those of its memory again, and the capacity checker runs (R37, R392, R444). -/
def clusterOn (s : State) (c : Nat) : State :=
  let s := holdEngines s c
  let s := { s with sched := { s.sched with gone := s.sched.gone.filter (fun g => home g.task != c) } }
  capacityCheck s (leMHz s)

/-- NET_RETURN: time comes from the RTC, and the unit has no running network (R218, R442). -/
def netReturn (s : State) : State :=
  let s := loadTime { s with time := { s.time with used := false, sync := none, own := none, trim := 0, devSum := 0, ups := [], rates := [] } } (rtcCount s)
  let s := { s with time := { s.time with tb := tNow s },
                    lemac := { s.lemac with launching := false, integ := none, pcyc := 0, haltDue := false }, sched := { s.sched with tasks := [], part := 0 } }
  let s := if on s Reg.PEER_CFG_EN then wr s Reg.LEMAC_RANK_RANK (rd s Reg.PEER_CFG_RANK) else s
  wrs s [(Reg.LEMAC_PSTATE_STATE, idleState s), (Reg.LEMAC_PSTATE_RETRY, 0)]

/-- A channel that reaches ON without its parameter set while the other has one in force finds fault PSET (R274, R291; log 31). -/
def psetGone (s : State) (b : Bool) : State := if !psOk s b && psOk s (!b) then chanFault s b 0x0D 0 else s

/-- What a domain finds as it reaches ON (R110, R218, R309, R327, R344, R392, R442). -/
def arrive (s : State) (d : Nat) : State :=
  if d = dNET then netReturn s
  else if 5 ≤ d ∧ d ≤ 8 then clusterOn s (d - 5)
  else if d = dCIST then
    let s := (List.range 26).foldl (fun s p => setPort s p { port s p with txPos := 0, rxPos := 0, tx := none }) s
    holdArea (acqReturn s)
  else if d = dAUX then
    (List.range 8).foldl (fun s n => let r := encHandBack (setEnc s n { enc s n with rPrev := none }) n; if r.1 then r.2 else wr s (Reg.ENC_STAT_REF_LOST n) 1) s
  else if d = dLINK then
    (List.range 2).foldl (fun s n => setPort s (24 + n) {}) s
  else if d = dSAFEA ∨ d = dSAFEB then psetGone (afterDom s d) (d == dSAFEB)
  else afterDom s d

/-- PWR.LASTWAKE takes a wake (R369). -/
def noteWake (s : State) (src d : Nat) (round : Bool) : State :=
  wrs s [(Reg.PWR_LASTWAKE_SRC, src), (Reg.PWR_LASTWAKE_DOM, d), (Reg.PWR_LASTWAKE_ROUNDTRIP, b2n round),
    (Reg.PWR_LASTWAKE_SEC_LO_SEC, rd s Reg.AO_RTC_SEC_LO_SEC), (Reg.PWR_LASTWAKE_SEC_HI_SEC, rd s Reg.AO_RTC_SEC_HI_SEC)]

/-- Set the state of a domain. -/
def setPSt (s : State) (d : Nat) (st : PSt) : State := setDom s d { dom s d with st := st }

/-- Master and address of an access. -/
def accessBy : Access → Master × Nat
  | .reg m a _ _ => (m, a.toNat)
  | .cist m w _ => (m, 0x20000000 + 4 * w.toNat)
  | .lock m p _ _ => (m, p.toNat * 0x1000 + 0x20)
  | .acq a _ => (.host, a.toNat)

/-- Accesses that wait for a domain are answered as accesses to a domain that is not ON (R370). -/
def dropStalled (s : State) (d : Nat) : State :=
  let gone := s.stalled.filter (fun x => x.dom == d)
  gone.foldl (fun s x => let a := accessBy x.acc; answer (logUnreachable s a.1 a.2) allOnes)
    { s with stalled := s.stalled.filter (fun x => x.dom != d) }

/-- The pending request of a domain is executed as a new request (R368). -/
def performPend (s : State) (d : Nat) : State :=
  match (dom s d).pend with
  | some r =>
    let s := setPend s d none
    performReq s r.m d r.st r.src r.round
  | none => s

/-- The state after a transition has completed (R364, R367, R369). -/
def transDone (s : State) (d : Nat) : State :=
  let x := dom s d
  match x.st with
  | .toRet => performPend (raise (setPSt s d .ret) 1 4) d
  | .toOff => performPend (raise (offReset (setPSt s d .off) d) 1 4) d
  | .waking | .powerUp =>
    let s := arrive (setPSt s d .on) d
    performPend (raise (noteWake s x.src d x.round) 1 4) d
  | _ => s

/-- POWER_TRANSITION_COMPLETE (R367). An access that waits for a wake no longer asked for is answered as one to a domain that is not ON (R370). -/
def execPowerTransitionComplete (d : Fin 16) (s : State) : Host.Outcome State Fault Refusal :=
  .next (
    let s := transDone s d
    if domOn s d ∨ inProgress (dom s d) = some 2 then s else dropStalled s d)

end Sys2Proof.Machine
end

