-- ==== Sys2Proof/Machine/Standby.lean ====
section
/-! DEFINITION. The always-on domain, standby and the clocks (R372 to R378, R426). -/

namespace Sys2Proof.Machine

/-! ## The AO regulator (R372, R373) -/

/-- REG.FULL: full mode while VAUX is valid and the bridge runs or STBY_FULL is set (R372). -/
def showFull (s : State) : State :=
  wr s Reg.AO_REG_FULL (b2n (on s Reg.AO_REG_VAUX_OK && (bridgeUp s || on s Reg.AO_REG_STBY_FULL)))

/-- VAUX_LOSS (R372): the regulator goes to low-power mode. -/
def execVauxLoss (s : State) : Host.Outcome State Fault Refusal := .next (showFull (wr s Reg.AO_REG_VAUX_OK 0))

/-- VAUX_VALID (R372): VAUX rises above 3.0 V. -/
def execVauxValid (s : State) : Host.Outcome State Fault Refusal := .next (showFull (wr s Reg.AO_REG_VAUX_OK 1))

/-- AO_BROWN_OUT (R372): the RTC, the retention RAM, the comparators and the tracking records are lost, PWR_EN goes low, and AO restarts as at power-on. -/
def execAoBrownOut (s : State) : Host.Outcome State Fault Refusal :=
  .next (
    let vaux := rd s Reg.AO_REG_VAUX_OK
    let s := emit (dropPages s dAO) (.pwrEn false)
    let s := { s with mem := tdrop 0x10000000 0x10001000 s.mem, ao := {}, boot := { s.boot with lanesGood := 0 } }
    showFull (wr s Reg.AO_REG_VAUX_OK vaux))

/-- AO.BUDGET in 0.01 µA, typical and maximum, over the features that standby will arm (R373). -/
def budget (s : State) : Nat × Nat :=
  let cmp := on s Reg.AO_CMP4_EN || on s Reg.AO_CMP5_EN
  let trk := ((List.range 2).filter (fun n => domOn s dAUX && on s (Reg.ENC_CFG_AOTRACK n))).length
  let pull := on s Reg.AO_CMP5_PULLUP
  let load := 10 * rd s Reg.SYS_PWREN_LOAD_LOAD
  (12 + 6 * b2n cmp + 110 * trk + 3000 * b2n pull + load, 190 + 70 * b2n cmp + 240 * trk + 3300 * b2n pull + load)

/-! ## Standby (R374) -/

/-- A channel with AOTRACK is handed over to tracking: its count, which the next comparator sample takes again as it becomes the reference (R376). -/
def handOver (s : State) (n : Nat) : State :=
  if domOn s dAUX ∧ on s (Reg.ENC_CFG_AOTRACK n) then
    let s := wr64 s (Reg.AO_TRK_LO_COUNT n) (Reg.AO_TRK_HI_COUNT n) (enc s n).count.toNat
    let s := wrs s [(Reg.AO_TRK_CTL_ACTIVE n, 1), (Reg.AO_TRK_CTL_VALID n, 0)]
    let bit := BitVec.ofNat 2 (2 ^ n)
    let ref := if on s (Reg.ENC_STAT_REF_LOST n) then s.ao.trkRef ||| bit else s.ao.trkRef &&& ~~~bit
    { s with ao := { s.ao with trkAB := tput (fun _ => 4) s.ao.trkAB n 4, trkRef := ref } }
  else s

/-- STANDBY (R374): PWR.CMD is written with STANDBY; refused by budget, role or business, or entry begins. -/
def execStandby (m : Master) (w : W32) (s : State) : Host.Outcome State Fault Refusal :=
  .next (regAction s m Reg.PWR_CMD_STANDBY.addr w (fun s =>
    if wbits Reg.PWR_CMD_STANDBY w = 1 then
      let b := budget s
      let s := wrs s [(Reg.AO_BUDGET_TYP, (b.1 + 9) / 10), (Reg.AO_BUDGET_MAX, (b.2 + 9) / 10)]
      let c := if 300 < rd s Reg.AO_BUDGET_MAX && !(on s Reg.AO_REG_STBY_FULL && on s Reg.AO_REG_VAUX_OK) then 1
        else if role s = rACTIVE then 2
        else if s.standby != .none || s.tests.any (fun r => r.running) || s.boot.running && !on s Reg.BOOT_STAT_DONE then 3 else 0
      let s := wr s Reg.PWR_CMD_RESULT c
      if c = 0 then
        let s := if domOn s dNET then
            let sec := s.time.ns / 10 ^ 9
            let f := s.time.ns % 10 ^ 9 * 32768
            let s := wrs s [(Reg.AO_RTC_SEC_LO_SEC, sec), (Reg.AO_RTC_SEC_HI_SEC, sec / 2 ^ 32), (Reg.AO_RTC_SUB_SUB, f / 10 ^ 9), (Reg.AO_REG_RTC_LOST, 0)]
            { s with ao := { s.ao with phase := f % 10 ^ 9 } }
          else s
        let s := handOver (handOver s 0) 1
        { s with standby := .entering }
      else s
    else s))

/-- A domain goes straight to OFF, as part of standby entry, a warm reset or a supply failure. -/
def forceOff (s : State) (d : Nat) : State :=
  if (dom s d).st = .off then s
  else
    let s := if domOn s d then leaveOn s d else s
    let s := dropStalled (wr (setDom s d {}) Reg.PWR_PEND_DOM (putBit d false (rd s Reg.PWR_PEND_DOM))) d
    offReset s d

/-- Main-die domains in the order of standby entry, SAFEA first (R374). -/
def mainOrder : List Nat := [dSAFEA, dAUX, dCIST, dLINK, dSDSE, dSDSW, 8, 7, 6, 5, dNET, dHOST, dSTEWARD]

/-- STANDBY_ENTRY_COMPLETE (R374): safety groups in STO, every domain but AO is OFF, PWR_EN is low. A wake that came during the entry waits for 20 ms. -/
def execStandbyEntryComplete (s : State) : Host.Outcome State Fault Refusal :=
  .next (
    if s.standby = .entering then
      let s := safeShow (enterSto (enterSto s false 15) true 15)
      let s := [dSAFEA, dSAFEB, dAUX, dCIST, dLINK, dSDSE, dSDSW, 8, 7, 6, 5, dNET, dFIELD, dHOST, dSTEWARD].foldl forceOff s
      let s := showFull (emit { s with ao := { s.ao with pwrEn := false }, boot := { s.boot with running := false, waitImg := false, cause := 2 } } (.pwrEn false))
      { s with standby := if s.ao.wake.isSome then .pwrHeld else .asleep }
    else s)

/-- PWR_EN goes high: the main supplies come up (R374, R375). -/
def pwrEnUp (s : State) : State := emit { s with standby := .none, ao := { s.ao with pwrEn := true } } (.pwrEn true)

/-- PWR_EN_RAISE (R374): 20 ms after an entry that a wake event met. -/
def execPwrEnRaise (s : State) : Host.Outcome State Fault Refusal := .next (if s.standby = .pwrHeld then pwrEnUp s else s)

/-- Source code of a wake event (R369), and whether it is armed and enabled (R375). -/
def wakeArm (s : State) : WakeSrc → Nat × Bool
  | .alarm => (5, on s Reg.AO_WAKEEN_ALARM)
  | .fieldReturn => (6, on s Reg.AO_WAKEEN_CMP4 && on s Reg.AO_CMP4_EN)
  | .wakeInput => (7, on s Reg.AO_WAKEEN_CMP5 && on s Reg.AO_CMP5_EN)
  | .trackError _ => (8, on s Reg.AO_WAKEEN_TRKERR)

/-- An armed and enabled event ends standby, or waits for the end of an entry (R374, R375). -/
def wakeUp (s : State) (src : WakeSrc) : State :=
  let a := wakeArm s src
  if a.2 then
    match s.standby with
    | .asleep => pwrEnUp { s with ao := { s.ao with wake := some (a.1, false) } }
    | .entering => if s.ao.wake.isSome then s else { s with ao := { s.ao with wake := some (a.1, true) } }
    | _ => s
  else s

/-- AO_WAKE_EVENT (R375). -/
def execAoWakeEvent (src : WakeSrc) (s : State) : Host.Outcome State Fault Refusal := .next (wakeUp s src)

/-- Direction of a ×4 quadrature change, A leading B upward: none where both levels changed. -/
def quadStep (old new : Nat) : Option Int :=
  if old = new then some 0
  else if [(0, 1), (1, 3), (3, 2), (2, 0)].contains (old, new) then some 1
  else if [(1, 0), (3, 1), (2, 3), (0, 2)].contains (old, new) then some (-1)
  else none

/-- ENCODER_TRACKING_SAMPLE (R376): the comparators of encoder `k` read A and B; the first sample is the reference, with the channel's count at it. -/
def execEncoderTrackingSample (k : Fin 2) (a b : Bool) (s : State) : Host.Outcome State Fault Refusal :=
  .next (
    if on s (Reg.AO_TRK_CTL_ACTIVE k) then
      let new := b2n a + 2 * b2n b
      let old := tget (fun _ => 4) s.ao.trkAB k
      let s := { s with ao := { s.ao with trkAB := tput (fun _ => 4) s.ao.trkAB k new } }
      if old = 4 then
        let s := if domOn s dAUX then wr64 s (Reg.AO_TRK_LO_COUNT k) (Reg.AO_TRK_HI_COUNT k) (enc s k).count.toNat else s
        wr s (Reg.AO_TRK_CTL_VALID k) 1
      else
        match quadStep old new with
        | some d =>
          let c := rd64 s (Reg.AO_TRK_LO_COUNT k) (Reg.AO_TRK_HI_COUNT k)
          wr64 s (Reg.AO_TRK_LO_COUNT k) (Reg.AO_TRK_HI_COUNT k) (unsgn 64 ((c : Int) + d))
        | none => wakeUp (wr (setSticky s (Reg.AO_TRK_CTL_ERR k)) (Reg.AO_TRK_CTL_VALID k) 0) (.trackError k)
    else s)

/-! ## Clocks (R378) -/

/-- A PLL serves a domain that is ON (R377). -/
def pllServes (s : State) : Pll → Bool
  | .system => domOn s dSTEWARD || domOn s dNET || domOn s dSAFEA || domOn s dAUX || (List.range 4).any (fun c => domOn s (dCLU c))
  | .surge => on s Reg.AGE_SURGE_GRANTED && (List.range 4).any (fun c => domOn s (dCLU c))
  | .net => domOn s dNET
  | .link => domOn s dLINK || (List.range 24).any (fun p => domOn s (dPort p) && on s (Reg.PORT_CTRL_EN p) && rd s (Reg.PORT_CTRL_SPEED p) == 2)

/-- PLL_LOCK_LOSS (R378): logged, and a self-diagnosed fault, where the PLL serves an ON domain. -/
def execPllLockLoss (pll : Pll) (s : State) : Host.Outcome State Fault Refusal :=
  .next (if pllServes s pll then postOther (selfFault s .pll) 5 else s)

end Sys2Proof.Machine
end

