-- ==== Sys2Proof/Machine/Boot.lean ====
section
/-! DEFINITION. Reset and the boot: journal, steps, images, diagnostic port (R387 to R396). -/

namespace Sys2Proof.Machine

/-! ## The boot journal (R389) -/

/-- A word of the journal in retention RAM. -/
def jget (s : State) (o : Nat) : Nat := mnum s (retAddr o) 4
/-- Write a word of the journal. -/
def jput (s : State) (o v : Nat) : State := msetNum s (retAddr o) 4 v
/-- Offset of a step word. -/
def jofs (n : Nat) : Nat := 4 * n
/-- Step word `n`. -/
def stepW (s : State) (n : Nat) : Nat := jget s (jofs n)
/-- FAILS of a step word. -/
def fails (w : Nat) : Nat := bits 3 2 w
/-- ALT of a step word. -/
def altOf (w : Nat) : Bool := bitOf 4 w
/-- A step word. -/
def mkStep (state fails : Nat) (alt : Bool) (detail : Nat) : Nat := state + 4 * fails + 16 * b2n alt + 256 * detail

/-- The journal is emptied: every step word 0, no exclusions held, no boot counted (R389). -/
def clearJournal (s : State) : State := jput (mwrite s (retAddr 0) (List.replicate 0x50 0)) 0 (2 ^ 16)

/-- Cistern banks excluded without retest (R389). -/
def jBanks (s : State) : List Nat := let w := jget s 0x4C; (List.range (min 3 (bits 7 0 w))).map (fun i => w / 2 ^ (8 + 7 * i) % 128)

/-- The unit in DETAIL of a failed step 4 or 5 is excluded without retest (R390, R391; log 39): step 5 an engine; step 4 a cistern bank below 128, an engine's local memory from 128, a cluster memory from 192. -/
def excludeDetail (s : State) (n d : Nat) : State :=
  let eng := fun (s : State) (e : Nat) => let o := 0x40 + 4 * (e / 32); jput s o (putBit (e % 32) true (jget s o))
  if n = 5 ∧ d < 64 then eng s d
  else if n = 4 then
    if d < 128 then
      let l := jBanks s
      if l.contains d ∨ 3 ≤ l.length then s
      else jput s 0x4C (jget s 0x4C + 1 + d * 2 ^ (8 + 7 * l.length))
    else if d < 192 then eng s (d - 128)
    else if d < 196 then jput s 0x48 (putBit (d - 192) true (jget s 0x48))
    else s
  else s

/-! ## Exclusions (R392) -/

/-- A cistern bank is excluded: its floats are held at engines and internal, PRIVATE. -/
def excludeBank (s : State) (b : Nat) : State :=
  (List.range 256).foldl (fun s i => setBlk s (256 * b + i) { flt := 2, priv := true, prev := (blk s (256 * b + i)).flt, excl := true }) s

/-- The number of excluded banks is shown (R403). -/
def showBanks (s : State) : State :=
  wr s Reg.BOOT_EXCL_MEM_BANKS ((List.range 128).filter (fun b => (blk s (256 * b)).excl)).length

/-- Engines and clusters join those excluded (R392). -/
def excludeEngs (s : State) (e : Nat) (c : Nat) : State :=
  let s := wrs s [(Reg.BOOT_EXCL_LO_ENG, rd s Reg.BOOT_EXCL_LO_ENG ||| e % 2 ^ 32), (Reg.BOOT_EXCL_HI_ENG, rd s Reg.BOOT_EXCL_HI_ENG ||| e / 2 ^ 32),
    (Reg.BOOT_EXCL_MEM_CLU, rd s Reg.BOOT_EXCL_MEM_CLU ||| c)]
  (List.range 4).foldl (fun s c => if domOn s (dCLU c) then holdEngines s c else s) s

/-! ## Steps (R390, R391) -/

/-- A domain goes straight to ON, as part of the boot. -/
def forceOn (s : State) (d : Nat) : State := if domOn s d then s else arrive (setPSt s d .on) d

/-- BOOT_HALTED (R393): every main-die domain but STEWARD, and HOST where step 3 has completed, goes OFF; the diagnostic port opens. -/
def haltBoot (s : State) (n : Nat) : State :=
  let host := bits 1 0 (stepW s 3) == 2 && decide (3 < n)
  let s := (mainOrder.filter (fun d => d != dSTEWARD && !(host && d == dHOST))).foldl forceOff s
  let s := if host then forceOn s dHOST else s
  let s := wrs s [(Reg.BOOT_STAT_HALTED, 1), (Reg.BOOT_STAT_FAILSTEP, n), (Reg.BOOT_STAT_DBG_OPEN, 1)]
  let s := post { s with boot := { s.boot with running := false, waitImg := false } } 0x5004 5 (stepW s n)
  raise s 0xD0 5

/-- A step begins: STARTED is written; a step that has failed runs its alternative (R391). DETAIL, the unit that steps 4 to 6 have in progress, is a free value (R389; log 39). -/
def startStep (s : State) (n : Nat) : State :=
  let w := stepW s n
  let f := fails w
  let alt := altOf w || f != 0
  let s := if f = 0 then s else excludeDetail s n (bits 15 8 w)
  let g := free s
  let s := wr (jput g.2 (jofs n) (mkStep 1 f alt (if 4 ≤ n ∧ n ≤ 6 then g.1 % 256 else 0))) Reg.BOOT_STAT_STEP n
  if n = 7 then
    let b := if s.boot.first = 1 then !alt else alt
    let s := wr s Reg.BOOT_SRC_WANT (b2n b)
    if s.boot.host then { s with boot := { s.boot with waitImg := true } } else s
  else s

/-- A failed step's word: FAILED, FAILS one more (R391). -/
def failWord (s : State) (n detail : Nat) : State :=
  let w := stepW s n
  jput s (jofs n) (mkStep 3 (min 3 (fails w + 1)) (altOf w) detail)

/-- The main die starts at boot step 1 (R387 to R391): the journal is read, steps that a reset interrupted are recorded as failed, and a step with FAILS = 3 halts the boot. -/
def beginBoot (s : State) : State :=
  let s := if bits 23 16 (jget s 0) = 1 then s else clearJournal s
  let s := jput s 0 (jget s 0 - jget s 0 % 65536 + min 65535 (jget s 0 % 65536 + 1))
  let s := setPSt s dSTEWARD .on
  let s := (List.range 12).foldl (fun s i => wr s (Reg.BOOT_JOURNAL_WORD i) (stepW s (i + 1))) s
  let s := wrs s [(Reg.SYS_RSTCAUSE_CAUSE, s.boot.cause), (Reg.BOOT_SRC_HOST, b2n s.boot.host)]
  let s := incCnt s Reg.BOOT_BOOT_CNT_COUNT
  let s := { s with boot := { s.boot with running := true, waitImg := false, lanesOff := 0 } }
  let s := ((List.range 10).map (fun i => i + 1)).foldl (fun s n =>
    if bits 1 0 (stepW s n) = 1 then incCnt (failWord s n (bits 15 8 (stepW s n))) Reg.BOOT_FAIL_CNT_COUNT else s) s
  match ((List.range 10).map (fun i => i + 1)).find? (fun n => fails (stepW s n) == 3) with
  | some n => haltBoot s n
  | none => startStep s 1

/-- Every main-die domain goes OFF (R388). -/
def mainOff (s : State) : State :=
  let s := mainOrder.foldl forceOff s
  { s with standby := .none, boot := { s.boot with running := false, waitImg := false, version := 0 } }

/-- The field die holds its safe states: the watchdog stays tripped and the safety output pairs off until step 9 completes (R388). -/
def holdField (s : State) (trip : Bool) : State :=
  let s := { s with field := { s.field with held := true, fresh := false } }
  let s := if trip && domOn s dFIELD && !on s Reg.FIO_WD_TRIPPED then redrive (incCnt (wr s Reg.FIO_WD_TRIPPED 1) Reg.FIO_WD_CNT_WD_CNT) else s
  safeShow s

/-- A warm reset that the device begins itself (R388): a reset indication crosses the bridge, the main die goes OFF and boots from step 1. -/
def warmReset (s : State) (cause : Nat) : State :=
  let s := holdField s true
  let s := mainOff s
  beginBoot { s with boot := { s.boot with cause := cause } }

/-- RSTCAUSE of a warm reset (R418). -/
def warmCode : WarmCause → Nat
  | .bootStep => 3 | .softReset => 4 | .reboot => 5 | .diagPort => 6 | .supply => 0

/-- WARM_RESET (R388). One that a supply monitor imposes sends no reset indication, and the table of RSTCAUSE has no code for it: a free value. -/
def execWarmReset (cause : WarmCause) (s : State) : Host.Outcome State Fault Refusal :=
  .next (
    if domOn s dSTEWARD then
      match cause with
      | .supply =>
        let f := free s
        let s := mainOff (holdField f.2 false)
        beginBoot { s with boot := { s.boot with cause := f.1 % 8 } }
      | c => warmReset s (warmCode c)
    else s)

/-- SUPPLY_FAIL (R426, R388): a main supply monitor holds the main die in reset; no reset indication reaches the field die. -/
def execSupplyFail (s : State) : Host.Outcome State Fault Refusal :=
  .next (
    let f := free s
    let s := mainOff (holdField f.2 false)
    { s with boot := { s.boot with cause := f.1 % 8 } })

/-- AO_POWER_ON (R387): everything starts, the field die included; fuses and flash keep what they hold. -/
def execAoPowerOn (s : State) : Host.Outcome State Fault Refusal :=
  .next (
    let b : BootSt := { flashA := s.boot.flashA, flashB := s.boot.flashB, first := s.boot.first, rollback := s.boot.rollback }
    let t : State := { pending := s.pending, wire := s.wire, freeIdx := s.freeIdx, surge := { usedH := s.surge.usedH }, boot := b }
    let t := { t with safe := { t.safe with vfsaf := s.safe.vfsaf } }
    showFull (wr (wr t Reg.AO_REG_VAUX_OK (rd s Reg.AO_REG_VAUX_OK)) Reg.FIO_WD_TRIPPED 1))

/-- RESET_RELEASE (R387): every supply monitor reads good; the main die leaves reset and the boot begins. `late`: the supplies took longer than 50 ms. -/
def execResetRelease (bootsrc late : Bool) (s : State) : Host.Outcome State Fault Refusal :=
  .next (
    if domOn s dSTEWARD ∨ s.standby ≠ .none then s
    else
      let s := { s with boot := { s.boot with host := bootsrc }, field := { s.field with held := true } }
      let s := if bits 23 16 (jget s 0) = 1 then s else clearJournal s
      let s := if late then jput s 0 (putBit 24 true (jget s 0)) else s
      beginBoot (showFull s))

/-! ## Images (R394) -/

/-- The image passes the checks of R394: RESULT of BOOT.CMD, 0 where it does, 1 authentication, 2 rollback. -/
def imageCheck (s : State) (l : List Byte) : Nat :=
  let n := num l 8 4
  let k := num l 16 4
  let key := sub l (n - 128) 64
  let hash := (List.range 8).flatMap (fun w => leBytes 4 (rd s (Reg.SEC_IMGKEY_HASH (8 * k + w))))
  let secs := (List.range 4).all (fun i => num l (20 + 8 * i) 4 + num l (24 + 8 * i) 4 ≤ n)
  if !(num l 0 4 == 0x53564947 && num l 4 4 == 1 && n % 256 == 0 && 256 ≤ n && n ≤ 2 ^ 22 && n ≤ l.length && k < 4 && secs) then 1
  else if Config.sha256 key != hash || bitOf k (rd s Reg.SEC_REVOKE_KEY) then 1
  else if !Config.ecdsaOk key (Config.sha256 (sub l 0 (n - 128))) (sub l (n - 64) 64) then 1
  else if num l 12 4 < rd s Reg.SEC_ROLLBACK_VERSION then 2
  else 0

/-- The image in host-owned cistern blocks from `b` on; empty where a block is not the host's. -/
def hostImage (s : State) (b : Nat) : List Byte :=
  let n := num (cistBytes s (256 * b) 12) 8 4
  if n % 256 = 0 ∧ n ≤ 2 ^ 22 ∧ allFloat s b (n / 256) 1 then cistBytes s (256 * b) n else []

/-- An image is taken: firmware, and its IMEM section in every engine that is not excluded (R71, R394). -/
def takeImage (s : State) (l : List Byte) : State :=
  let im := sub l (num l 36 4) (min 0x4000 (num l 40 4))
  let s := (List.range 64).foldl (fun s e => if domOn s (dCLU (e / 16)) && !engExcluded s e then mwrite s (leAddr e 0) im else s) s
  { s with boot := { s.boot with version := num l 12 4 } }

/-! ## The work of each step (R390) -/

/-- The plan in use where none has been formed: VNOM 0.88 V, FMAX 800 MHz, SURGE_OK 0 (R390). -/
def basePlan (s : State) : State :=
  wrs { s with surge := { s.surge with target := 880 } } [(Reg.AGE_PLAN_VNOM, 880), (Reg.AGE_PLAN_SURGE_OK, 0), (Reg.AGE_FMAX_CLU, 80 * 0x1010101)]

/-- The safety mailbox is chosen and taken (R292). -/
def takeMbox (s : State) : State :=
  let bank := ((List.range 128).reverse).find? (fun b => !(blk s (256 * b)).excl)
  match bank with
  | some b => let k := 256 * b + 255; wr (if flt s k = 0 then setFloat s k 1 false else s) Reg.SAFE_MBOX_BLOCK k
  | none => s

/-- What step `n` has done as it ends (R390, R392; log 8: which step brings which domain ON). -/
def stepWork (s : State) (n : Nat) (f : BootFind) (image : List Byte) : State :=
  let alt := altOf (stepW s n)
  match n with
  | 1 =>
    match s.ao.wake with
    | some w => { noteWake s w.1 15 w.2 with ao := { s.ao with wake := none } }
    | none => s
  | 2 =>
    wrs s [(Reg.SEC_ROLLBACK_VERSION, max s.boot.rollback (rd s Reg.SEC_ROLLBACK_VERSION)), (Reg.AGE_SURGE_H_USED, s.surge.usedH)]
  | 3 => forceOn (wr s Reg.AGE_PLAN_CONS (b2n alt)) dHOST
  | 4 =>
    let s := { s with localTest := 15 }
    let s := [dCIST, 5, 6, 7, 8, dNET, dSDSW, dSDSE, dLINK, dAUX].foldl forceOn s
    let s := ((f.banks.map (fun b => b.val)) ++ jBanks s).foldl excludeBank s
    excludeEngs (showBanks s) (f.engines.toNat ||| jget s 0x40 ||| (jget s 0x44 * 2 ^ 32)) (f.clusters.toNat ||| jget s 0x48 % 16)
  | 5 => { excludeEngs s (f.engines.toNat ||| jget s 0x40 ||| (jget s 0x44 * 2 ^ 32)) 0 with localTest := 0 }
  | 6 =>
    let off := ~~~f.lanes &&& ~~~s.boot.lanesGood
    { s with boot := { s.boot with lanesGood := s.boot.lanesGood ||| f.lanes, lanesOff := off } }
  | 7 => wr (takeImage s image) Reg.BOOT_STAT_IMAGE (rd s Reg.BOOT_SRC_WANT)
  | 8 => takeMbox (forceOn s dSAFEA)
  | 9 =>
    let s := forceOn (forceOn s dFIELD) dSAFEB
    safeShow { s with field := { s.field with held := false } }
  | 10 =>
    let s := match (if alt then none else f.plan), s.boot.plan with
      | some p, _ => setPlan s p
      | none, some p => { setPlan s p with surge := { (setPlan s p).surge with planAt := s.surge.planAt } }
      | none, none => basePlan s
    raise (wrs s [(Reg.BOOT_STAT_DONE, 1), (Reg.BOOT_LASTDUR_US, f.durUs)]) 0xD0 4
  | _ => s

/-- A step has failed (R391, R393): FAILED is written, and a warm reset follows, or the boot halts. -/
def stepFailed (s : State) (n detail : Nat) : State :=
  let s := if n = 8 then chanFault s false 0x0E 0 else s
  let s := incCnt (failWord s n detail) Reg.BOOT_FAIL_CNT_COUNT
  if fails (stepW s n) = 3 then haltBoot s n else warmReset s 3

/-- BOOT_STEP_DONE (R391): the step in progress ends DONE and the next one starts. An image that fails its checks is never run: step 7 fails. -/
def execBootStepDone (find : BootFind) (s : State) : Host.Outcome State Fault Refusal :=
  .next (
    let n := rd s Reg.BOOT_STAT_STEP
    if !s.boot.running || n == 0 || 12 < n || s.boot.waitImg then s
    else
      let image := if s.boot.host then hostImage s s.boot.hostBlk else find.image
      if n = 7 ∧ imageCheck s image ≠ 0 then stepFailed s 7 (bits 15 8 (stepW s 7))
      else
        let s := stepWork s n find image
        let w := stepW s n
        let s := jput s (jofs n) (mkStep 2 0 (altOf w) (bits 15 8 w))
        if n < 12 then startStep s (n + 1) else { s with boot := { s.boot with running := false } })

/-- BOOT_STEP_FAIL (R391): the step detects its own failure or exceeds its time limit. Steps 11 and 12 never fail. -/
def execBootStepFail (detail : BitVec 8) (s : State) : Host.Outcome State Fault Refusal :=
  .next (
    let n := rd s Reg.BOOT_STAT_STEP
    if s.boot.running && decide (1 ≤ n) && decide (n ≤ 10) then stepFailed s n detail.toNat else s)

/-- HOSTIMG (R394): host software has placed the image that the ROM wants; step 7 starts on it. -/
def execHostimg (m : Master) (w : W32) (s : State) : Host.Outcome State Fault Refusal :=
  .next (regAction s m Reg.BOOT_HOSTIMG_BLOCK.addr w (fun s =>
    if s.boot.waitImg then { s with boot := { s.boot with waitImg := false, hostBlk := wbits Reg.BOOT_HOSTIMG_BLOCK w } } else s))

/-! ## BOOT.CMD (R391, R393, R395) -/

/-- RESULT of BOOT.CMD. -/
def bootResult (s : State) (r : Nat) : State := wr s Reg.BOOT_CMD_RESULT r

/-- A write of BOOT.CMD with operation `op`. -/
def bootCmd (s : State) (m : Master) (w : W32) (op : Nat) (f : State → State) : State :=
  regAction s m Reg.BOOT_CMD_OP.addr w (fun s => if wbits Reg.BOOT_CMD_OP w = op then f s else s)

/-- CLEAR_JOURNAL (R391): the boot journal and its exclusions are cleared. -/
def execClearJournal (m : Master) (w : W32) (s : State) : Host.Outcome State Fault Refusal :=
  .next (bootCmd s m w 1 (fun s => bootResult (clearJournal s) 0))

/-- REBOOT (R388): a warm reset. -/
def execReboot (m : Master) (w : W32) (s : State) : Host.Outcome State Fault Refusal :=
  .next (bootCmd s m w 2 (fun s => warmReset s 5))

/-- STAGE (R395): an image is authenticated and written to the slot that did not boot; `flashOk`: the flash takes it. -/
def execStage (m : Master) (w : W32) (flashOk : Bool) (s : State) : Host.Outcome State Fault Refusal :=
  .next (bootCmd s m w 3 (fun s =>
    let l := hostImage s (wbits Reg.BOOT_CMD_BLOCK w)
    if l = [] then bootResult s 4
    else
      let c := imageCheck s l
      if c ≠ 0 then bootResult s c
      else if !flashOk then bootResult s 3
      else
        let b := rd s Reg.BOOT_STAT_IMAGE = 0
        let s := { s with boot := if b then { s.boot with flashB := l } else { s.boot with flashA := l } }
        bootResult (emit s (.flashWrite (b2n (decide b)) l)) 0))

/-- SELECT (R395): the slot that the next boot tries first. -/
def execSelect (m : Master) (w : W32) (s : State) : Host.Outcome State Fault Refusal :=
  .next (bootCmd s m w 4 (fun s => bootResult { s with boot := { s.boot with first := wbits Reg.BOOT_CMD_SLOT w } } 0))

/-- COMMIT_VER (R395): SEC.ROLLBACK rises to the VERSION of the running image, only while the boot is complete. -/
def execCommitVer (m : Master) (w : W32) (s : State) : Host.Outcome State Fault Refusal :=
  .next (bootCmd s m w 5 (fun s =>
    if on s Reg.BOOT_STAT_DONE then
      let v := max (rd s Reg.SEC_ROLLBACK_VERSION) s.boot.version
      bootResult (emit (wr { s with boot := { s.boot with rollback := v } } Reg.SEC_ROLLBACK_VERSION v) (.fuseBlown 1 v)) 0
    else bootResult s 4))

/-- DEBUG_UNLOCK (R396): a challenge signed with the debug key opens full access, and channel A holds every safety group in STO until the next AO power-on. -/
def execDebugUnlock (key sig : List Byte) (s : State) : Host.Outcome State Fault Refusal :=
  .next (
    let hash := (List.range 8).flatMap (fun w => leBytes 4 (rd s (Reg.SEC_DBGKEY_HASH w)))
    let ok := Config.sha256 key == hash && Config.ecdsaOk key (Config.sha256 (leBytes 4 s.boot.chal)) sig
    if domOn s dSTEWARD && on s Reg.SEC_DBG_LOCK && ok then
      safeShow (wr { s with boot := { s.boot with unlocked := true } } Reg.BOOT_STAT_DBG_OPEN 1)
    else s)

end Sys2Proof.Machine
end

