-- ==== Sys2Proof/Machine/Swap.lean ====
section
/-! DEFINITION. SWAP_REQ: a swap of schedule banks is requested (R194, R195, R247, R301). -/

namespace Sys2Proof.Machine

/-- The points of the input list of graph bank `b`, one 32-bit word each (R247; log 40). -/
def inputList (s : State) (b : Nat) : List Nat :=
  (List.range (rd s (Reg.PEER_PLIST_COUNT b))).map (fun i => mnum s (clmAddr 0 (16 * rd s (Reg.PEER_PLIST_OFFSET b) + 4 * i)) 4 % 2 ^ 20)

/-- The input list names a point of an enabled encoder channel that may be written after the image instant (R247). -/
def imageLate (s : State) (b : Nat) : Bool :=
  (inputList s b).any (fun a =>
    let n := a / 512 % 64
    let ty := encType s n
    let done := rd s (Reg.ENC_SAMPLE_NS n) + (if ty = 1 ∨ ty = 2 then 0 else rd s (Reg.ENC_TIMEOUT_NS n)) + 64
    a / 32768 == 25 && decide (n < 8) && ty != 0 && decide (rd s Reg.PEER_IN_AT_NS < done + 500))

/-- SWAP_REQ: accepted 32 whole cycles ahead with a checked shadow bank, whose graph bank is checked too (DEDUCED, log 23), and while no install runs (R59, R194, R195); a bank that encoder timing breaks is refused with reason 3. -/
def execSwapReq (m : Master) (w : W32) (s : State) : Host.Outcome State Fault Refusal :=
  .next (pairOp s m Reg.LEMAC_SWAP.addr w (wbits Reg.LEMAC_SWAP_REQ w = 1) (fun s =>
    let n := rd64 s Reg.LEMAC_SWAP_AT_LO_CYCLE Reg.LEMAC_SWAP_AT_HI_CYCLE
    let b := 1 - bank s
    let installing := match s.sched.gcmd with | some c => !c.load | none => false
    let checked := on s Reg.CYC_GBANK_CHECKED && rd s Reg.CYC_GBANK_SCHED == rd s Reg.LEMAC_SCHED_SHADOW
    if !(leadOk s n 32 && rd s Reg.LEMAC_SCHED_SHADOW != 0 && checked && !on s Reg.LEMAC_CMD_BUSY && !installing) then setSticky s Reg.LEMAC_SWAP_LATE
    else if encLate s (bits 47 16 (schedWord s b 0)) || imageLate s b then
      setSticky (wrs s [(Reg.LEMAC_CHK_REASON, 3), (Reg.LEMAC_CHK_WORD, 0)]) Reg.LEMAC_CHK_VALID
    else wr { s with lemac := { s.lemac with swapDue := n } } Reg.LEMAC_SWAP_PEND 1))

end Sys2Proof.Machine
end

