-- ==== Sys2Proof/Machine/SelfTest.lean ====
section
/-! DEFINITION. The test queue: requests, quiet windows, outcomes (R397 to R402, R404). -/

namespace Sys2Proof.Machine

/-! ## Requests (R398 to R400) -/

/-- The resource that a test works on (R399): requests for one resource run in order. -/
def resource (r : TestReq) : Nat :=
  match r.kind with
  | .engine => r.index
  | .cistbank => 1000 + r.index
  | .scrub => 2000 + r.index
  | .eyescan | .sdscal | .portloop => 3000 + r.index
  | .can => 4000 + r.index
  | .encoder => 5000 + r.index
  | .offline => 6000
  | .replan => 7000

/-- One more than the largest INDEX of a kind (R404). -/
def indexEnd : TestKind → Nat
  | .engine => 64 | .eyescan => 28 | .sdscal => 28 | .portloop => 24 | .can => 4 | .encoder => 8 | _ => 128

/-- The unit launches or follows CS. -/
def running (s : State) : Bool := s.lemac.launching || rd s Reg.LEMAC_PSTATE_STATE == 3

/-- Cycles that are left of the 4 after which a unit that launches and follows no CS has no network running (R402). -/
def noteRun (s : State) : State := { s with lemac := { s.lemac with recent := if running s then 4 else s.lemac.recent - 1 } }

/-- The unit has no network running: it has launched or followed no CS for 4 cycles (R402). -/
def noNetwork (s : State) : Bool := !running s && s.lemac.recent == 0

/-- Engines with a test queued or running, `e` apart. -/
def enginesInTest (s : State) (e : Nat) : Nat :=
  ((s.tests.filter (fun r => r.kind == .engine && r.index != e)).map (fun r => r.index)).dedup.length

/-- An engine test would be the fifth, or would shed an axis (R398). -/
def overCapacity (s : State) (e : Nat) : Bool := decide (4 ≤ enginesInTest s e) || (!withdrawn s e && !fitsWithout s 1)

/-- A request joins the queue. -/
def joinQueue (s : State) (r : TestReq) : State := showQueue { s with tests := s.tests ++ [r] }

/-- A test is requested, whatever its source (R398 to R400, R402). -/
def requestTest (s : State) (k : TestKind) (tag idx : Nat) : State :=
  let r : TestReq := { kind := k, tag := tag, index := idx, wasWithdrawn := false, running := false }
  if 16 ≤ s.tests.length then testEnd s r 6
  else
    match k with
    | .engine =>
      if overCapacity s idx then testEnd s r 3
      else
        let was := match s.tests.find? (fun q => q.kind == .engine && q.index == idx) with
          | some q => q.wasWithdrawn
          | none => withdrawn s idx
        let s := if domOn s (dCLU (idx / 16)) then wr s (wdField idx) 1 else s
        joinQueue (capacityCheck s (leMHz s)) { r with wasWithdrawn := was }
    | .offline => if role s = rTESTING ∨ noNetwork s then joinQueue s r else testEnd s r 4
    | _ => joinQueue s r

/-- A write of TEST.REQ that names kind `k`; an INDEX that the kind does not have is a reserved code (R404). -/
def testReq (s : State) (m : Master) (w : W32) (k : TestKind) : State :=
  regAction s m Reg.TEST_REQ.addr w (fun s =>
    let idx := wbits Reg.TEST_REQ_INDEX w
    if wbits Reg.TEST_REQ_KIND w ≠ k.code then s
    else if indexEnd k ≤ idx then errlog s 0xD1 4 m Reg.TEST_REQ.addr
    else requestTest s k (wbits Reg.TEST_REQ_TAG w) idx)

/-- TEST_ENGINE (R398). -/
def execTestEngine (m : Master) (w : W32) (s : State) : Host.Outcome State Fault Refusal := .next (testReq s m w .engine)
/-- TEST_CISTBANK (R397, R399). -/
def execTestCistbank (m : Master) (w : W32) (s : State) : Host.Outcome State Fault Refusal := .next (testReq s m w .cistbank)
/-- TEST_SCRUB (R397). -/
def execTestScrub (m : Master) (w : W32) (s : State) : Host.Outcome State Fault Refusal := .next (testReq s m w .scrub)
/-- TEST_EYESCAN (R397). -/
def execTestEyescan (m : Master) (w : W32) (s : State) : Host.Outcome State Fault Refusal := .next (testReq s m w .eyescan)
/-- TEST_SDSCAL (R397). -/
def execTestSdscal (m : Master) (w : W32) (s : State) : Host.Outcome State Fault Refusal := .next (testReq s m w .sdscal)
/-- TEST_PORTLOOP (R397). -/
def execTestPortloop (m : Master) (w : W32) (s : State) : Host.Outcome State Fault Refusal := .next (testReq s m w .portloop)
/-- TEST_CAN (R397). -/
def execTestCan (m : Master) (w : W32) (s : State) : Host.Outcome State Fault Refusal := .next (testReq s m w .can)
/-- TEST_ENCODER (R397). -/
def execTestEncoder (m : Master) (w : W32) (s : State) : Host.Outcome State Fault Refusal := .next (testReq s m w .encoder)
/-- TEST_OFFLINE (R402). -/
def execTestOffline (m : Master) (w : W32) (s : State) : Host.Outcome State Fault Refusal := .next (testReq s m w .offline)

/-! ## Start (R399) -/

/-- A lane carries nothing: its port, plant port or pair is not enabled (R397). -/
def laneIdle (s : State) (i : Nat) : Bool :=
  if i < 24 then !on s (Reg.PORT_CTRL_EN i) else if i < 26 then !on s Reg.PEER_CFG_EN else !on s (Reg.PLANT_CFG_EN (i - 26))

/-- The resource is in its quiet window (R397, R399, R402). -/
def quiet (s : State) (r : TestReq) : Bool :=
  (match testDom r with | some d => domOn s d | none => true) &&
  match r.kind with
  | .engine => withdrawn s r.index && (eng s r.index).ph == .idle
  | .cistbank => allFloat s (256 * r.index) 256 0
  | .sdscal | .portloop => laneIdle s r.index
  | .can => !on s (Reg.CAN_CTRL_EN r.index)
  | .encoder => encType s r.index == 0
  | .offline => role s == rTESTING || noNetwork s
  | .replan => (List.range 4).all (fun c => !domOn s (dCLU c) || cluQuiet s c) && !on s Reg.AGE_SURGE_GRANTED
  | .scrub | .eyescan => true

/-- What the start of a test does to its resource (R398, R399). -/
def takeResource (s : State) (r : TestReq) : State :=
  match r.kind with
  | .engine => setEng s r.index { eng s r.index with ph := .test }
  | .cistbank => passBlocks s (256 * r.index) 256 2
  | _ => s

/-- TEST_START: request `i` of the queue starts in its quiet window, no earlier request for its resource being left (R399). -/
def execTestStart (i : Nat) (s : State) : Host.Outcome State Fault Refusal :=
  .next (
    match s.tests[i]? with
    | some r =>
      if r.running || (s.tests.take i).any (fun q => resource q == resource r) || !quiet s r then s
      else showQueue { takeResource s r with tests := s.tests.set i { r with running := true } }
    | none => s)

/-! ## Outcome (R254, R398, R400, R401) -/

/-- AGE.EYE shows the lane with the smallest margin of those scanned (R379). -/
def showEye (s : State) (lane margin : Nat) : State :=
  let t := tins lane margin (tdel lane s.eyes)
  let worst := t.foldl (fun (b : Nat × Nat) e => if e.2 < b.2 then e else b) (lane, margin)
  wrs { s with eyes := t } [(Reg.AGE_EYE_LANE, worst.1), (Reg.AGE_EYE_MARGIN, worst.2)]

/-- PAIR_DISAGREE: three mismatches arose within 1,000 cycles, and the tests that they asked for, ended or refused, found no fault (R254). -/
def pairDisagree (s : State) : State :=
  if role s = rSTANDBY ∧ s.pair.mmDue ∧ ¬ s.tests.any (fun r => r.kind == .engine) then
    showReady (wr (post { s with pair := { s.pair with mmAt := [], mmDue := false } } 0x2005 2 s.pair.mmAt.length) Reg.PEER_NREADY_FAULTED 1)
  else s

/-- A test that fails is a fault of the unit (R257, R401). -/
def testFault (s : State) (r : TestReq) : State :=
  let s := match r.kind with
    | .engine => setEng s r.index { eng s r.index with ph := .idle }
    | .cistbank => showBanks (excludeBank s r.index)
    | _ => s
  postOther (selfFault s .onlineTest) 5

/-- What a test that passed leaves (R398, R399, R402). -/
def testPassed (s : State) (r : TestReq) : State :=
  match r.kind with
  | .engine => pairDisagree (engineBack s r)
  | .cistbank => passBlocks s (256 * r.index) 256 0
  | _ => s

/-- After an offline self-test the unit integrates again (R402). -/
def afterOffline (s : State) (r : TestReq) : State :=
  if r.kind = .offline then
    stopLaunch s
  else s

/-- TEST_COMPLETE: the running test `i` ends with PASS or FAIL; an eye scan also finds a margin. The contents of a bank tested are free values. -/
def execTestComplete (i : Nat) (pass : Bool) (margin : BitVec 16) (s : State) : Host.Outcome State Fault Refusal :=
  .next (
    match s.tests[i]? with
    | some r =>
      if !r.running || r.kind == .replan then s
      else
        let s := showQueue { s with tests := s.tests.eraseIdx i }
        let s := if r.kind = .eyescan then showEye s r.index margin.toNat else s
        let s := if r.kind = .cistbank then let f := freeBytes s 65536; mwrite f.2 (cistAddr (65536 * r.index)) f.1 else s
        let s := incCnt s (if pass then Reg.TEST_PASS_CNT_COUNT else Reg.TEST_FAIL_CNT_COUNT)
        let s := testEnd s r (b2n (!pass))
        afterOffline (if pass then testPassed s r else testFault s r) r
    | none => s)

/-- TEST_TIMEOUT: a request that has not started within TEST.TIMEOUT ends with NOT_QUIET (R399). -/
def execTestTimeout (i : Nat) (s : State) : Host.Outcome State Fault Refusal :=
  .next (
    match s.tests[i]? with
    | some r =>
      if r.running then s
      else
        let s := { s with tests := s.tests.eraseIdx i }
        let s := incErr s Reg.TEST_NOTQ_ERR_COUNT
        if r.kind = .replan then replanOut (wr s Reg.AGE_REPLAN_RESULT 1)
        else pairDisagree (showQueue (engineBack (testEnd s r 2) r))
    | none => s)

end Sys2Proof.Machine
end

