-- ==== Sys2Proof/Machine/CsFollow.lean ====
section
/-! DEFINITION. A follower takes time, and a step, from CS frames; CS_RECEIVE (R187, R205, R207, R211, R219, R231, R232). -/

namespace Sys2Proof.Machine

/-- TIME_STEP_EFFECT: what a step of `d` ns does beside moving time (R232, R235, R239, R305, R344). -/
def stepEffect (s : State) (d : Int) : State :=
  let s := dropHistory (ttStep (encTimeStep s d))
  let s := (List.range 2).foldl (fun s n => if domOn s dLINK then setPlant s n { plant s n with tbi := (plant s n).tbi + 1, phase := d } else s) s
  wr (acqBreak s) Reg.TIME_STAT_STEPPEND 0

/-- What a CS says of network time here, less network time at the last boundary with what has been applied since, in 2^−40 ns: its own time, DLINE and its receive stamp (R219, R226). -/
def csEstimate (s : State) (p start : Nat) (c : CsInfo) : Int :=
  let here : Int := (s.time.tb : Int) - s.time.adj + start * 2 ^ 40 + rxFix s p * 2 ^ 24 - dline s p * 2 ^ 40
  (c.time : Int) * 2 ^ 24 - here

/-- An estimate enters the cycle's; network time moves to their median. RATE follows by a rule that the spec leaves to the unit, and is a free value within the limits of R217 (R219; log 23). -/
def takeEstimate (s : State) (est : Int) : State :=
  let ests := s.time.ests ++ [est]
  let m := median ests
  let s := moveTime s (m - s.time.adj)
  let f := free (joinSync { s with time := { s.time with ests := ests, adj := m, used := true } })
  setRate f.2 (sgn 32 f.1)

/-- A follower unit takes time from a valid CS of a far port: a jump is refused, a step is taken where the CS announces it and the difference equals it within 100 ns (R211, R219, R228, R231, R232). -/
def followTime (s : State) (p start : Nat) (c : CsInfo) : State :=
  if !isFar s p || dline s p == 0 then s
  else
    let est := csEstimate s p start c
    if c.step ∧ s.time.stepped ≠ some c.stepNs then
      if (est - c.stepNs * 2 ^ 40).natAbs ≤ 100 * 2 ^ 40 then
        let s := moveTime s (c.stepNs * 2 ^ 40)
        takeEstimate (stepEffect { s with time := { s.time with stepped := some c.stepNs } } c.stepNs) (est - c.stepNs * 2 ^ 40)
      else timeJump s (est.natAbs / 2 ^ 40 / 1000)
    else if (rd s Reg.TIME_JUMP_LIMIT_NS : Int) * 2 ^ 40 < est.natAbs then timeJump s (est.natAbs / 2 ^ 40 / 1000)
    else takeEstimate s est

/-- CS_RECEIVE (R187, R201, R205, R207, R219). -/
def execCsReceive (f : RxFrame) (s : State) : Host.Outcome State Fault Refusal :=
  .next (
    let p := f.port.val
    if portLive s p then
      let s := linkUp s p
      let run := rd s Reg.LEMAC_PSTATE_STATE = 3
      match chkHead s f 1 run with
      | .ok _ =>
        let c := csInfo f
        let s := hearEpoch (incCnt s (Reg.PORT_RX_CNT_COUNT p)) p c.epoch
        let s := setPort s p { port s p with csAt := some f.start }
        if s.lemac.launching then
          let s := csAtOrigin s p c
          if isFar s p then csAtFar s p f.start c else s
        else if run then
          if epochHigher (rd s Reg.LEMAC_EPOCH_EPOCH) c.epoch then s
          else
            let s := if epochHigher c.epoch (rd s Reg.LEMAC_EPOCH_EPOCH) then setEpoch s c.epoch else s
            let s := csAtFar s p f.start c
            followTime { s with lemac := { s.lemac with heard := true } } p f.start c
        else integrate s p c
      | c => countChk s p f c
    else s)

end Sys2Proof.Machine
end

