-- ==== Sys2Proof/Machine/PairLink.lean ====
section
/-! DEFINITION. The redundant pair: peer link, images, comparison, state copies, joining and proof swap (R243 to R266, R294). -/

namespace Sys2Proof.Machine

/-! ## Alignment (R252, R254) -/

/-- STAT.UNALIGNED, NREADY.UNALIGNED and READY follow the set of unaligned channels (R252). -/
def showUnal (s : State) : State :=
  let n := s.pair.unaligned.length
  showReady (wrs s [(Reg.PEER_STAT_UNALIGNED, n), (Reg.PEER_NREADY_UNALIGNED, b2n (n != 0))])

/-- Every channel (R148). -/
def allChans : List Nat := List.range 1056

/-- Channels become unaligned in a standby (R252). -/
def unalign (s : State) (l : List Nat) : State :=
  if role s = rSTANDBY then
    showUnal { s with pair := { s.pair with unaligned := allChans.filter (fun c => s.pair.unaligned.contains c || l.contains c) } }
  else s

/-- The channels that have a set-point entry: the axes with a task that launches it (R63). -/
def entChans (s : State) (i : Nat) : List Nat :=
  let b := bank s
  (((validTasks s b).filter (fun t => (launchOf (tdEdges s b t)).contains i)).filterMap (tdAxis s b)).dedup

/-- The set-point entries of a segment, safe messages apart, which only the active completes (R251, R295; log 40). -/
def segEntries (s : State) (seg : Nat) : List Nat :=
  let ports := (List.range 24).filter (fun p => portSeg s p == seg)
  let es := ports.flatMap (fun p => ((portSlots s p).filter (fun e => e.kind == 2)).flatMap (fun e => (List.range e.spn).map (fun i => e.spe + i)))
  (es.filter (fun i => !bitOf 10 (spEntry s (bank s) i))).dedup.mergeSort (fun a b => a ≤ b)

/-- The channels with an entry in a segment. -/
def segChans (s : State) (seg : Nat) : List Nat := ((segEntries s seg).flatMap (entChans s)).dedup

/-- The engines that ran a task of the given channels (R254). -/
def enginesOf (s : State) (ran : List (Nat × Nat)) (chans : List Nat) : List Nat :=
  ((ran.filter (fun x => match tdAxis s (bank s) x.1 with | some a => chans.contains a | none => false)).map (fun x => x.2)).dedup

/-- The first case found is kept in PEER.MM (R254, R268). -/
def noteMM (s : State) (word : Nat) : State :=
  if on s Reg.PEER_MM_VALID then s
  else setSticky (wrw s Reg.PEER_MM.addr (word % 2 ^ 31)) Reg.PEER_MM_VALID

/-- SHADOW_MISMATCH (R254): recorded, counted, logged and reported; the channels become unaligned, and the engines that ran their tasks are tested. -/
def shadowMismatch (s : State) (kind seg ent : Nat) (chans : List Nat) (ran : List (Nat × Nat)) : State :=
  let word := 2 ^ 31 + kind * 2 ^ 29 + seg * 2 ^ 24 + ent
  let s := post (incErr (noteMM s word) Reg.PEER_MISMATCH_ERR_COUNT) 0x2004 2 (rdw s Reg.PEER_MM.addr)
  let near := (s.pair.mmAt ++ [s.sched.cycle]).filter (fun c => decide (s.sched.cycle < c + 1000))
  let s := { s with pair := { s.pair with reports := s.pair.reports ++ [BitVec.ofNat 32 word], mmAt := near, mmDue := s.pair.mmDue || decide (3 ≤ near.length) } }
  pairDisagree ((enginesOf s ran chans).foldl (fun s e => requestTest s .engine 0 e) (unalign s chans))

/-- An input difference makes channels unaligned (R251, R252). -/
def inputDifference (s : State) (seg : Nat) (chans : List Nat) : State :=
  unalign (noteMM s (2 ^ 31 + 2 * 2 ^ 29 + seg * 2 ^ 24 + 0xFFF)) chans

/-! ## Digests (R251) -/

/-- One step of CRC-64/XZ (ECMA-182, reflected). -/
def crc64Bit (c : W64) : W64 := if c.getLsbD 0 then (c >>> 1) ^^^ 0xC96C5795D7870F42 else c >>> 1

/-- CRC-64/XZ of a byte string. -/
def crc64 (l : List Byte) : W64 :=
  ~~~ (l.foldl (fun c b => (List.range 8).foldl (fun c _ => crc64Bit c) (c ^^^ (b.zeroExtend 64))) (~~~ (0 : W64)))

/-- The digest over set-point entries: each one's index, then its values (R251). -/
def digestOf (sent : Tbl (List Byte)) (ids : List Nat) : W64 := crc64 (ids.flatMap (fun i => beBytes 2 i ++ tget (fun _ => []) sent i))

/-! ## Lanes and signals (R244, R257, R259, R261) -/

/-- Lane bit of PEER.STAT. -/
def laneField (l : Nat) : Fld := if l = 0 then Reg.PEER_STAT_LANE0 else Reg.PEER_STAT_LANE1

/-- A standby takes role DETACHED (R261). -/
def detach (s : State) : State :=
  let s := endRelays (wrs (setRole s rDETACHED) [(Reg.PEER_NREADY_DETACHED, 1), (Reg.PEER_NREADY_JOINING, 0)])
  showUnal { s with pair := { s.pair with unaligned := allChans, copies := [], shadowAt := none, noCs := 0 } }

/-- PEER_LOST (R261): neither lane is up. -/
def peerLost (s : State) : State :=
  let other := 1 - rd s Reg.PEER_CFG_RANK
  let s := { s with time := { s.time with theta := tdel other s.time.theta }, pair := { s.pair with items := [] } }
  if role s = rACTIVE then post (wr s Reg.PEER_STAT_PEER_READY 0) 0x2003 2 0
  else if role s = rSTANDBY ∨ role s = rJOINING then detach s
  else s

/-- LANE_DOWN (R244, R261, R294): no valid frame arrived on the lane within LOSS_US. -/
def execLaneDown (lane : Fin 2) (s : State) : Host.Outcome State Fault Refusal :=
  .next (
    if domOn s dLINK && on s (laneField lane) then
      let s := wr s (laneField lane) 0
      let s := showSusp s
      if peerUp s then s else peerLost s
    else s)

/-- Two active units see each other again: the one with the lower epoch yields at the next boundary (R262). No segment belongs to the entry: those bits are free values. -/
def meetActive (s : State) (epoch : Nat) : State :=
  if role s = rACTIVE ∧ epochHigher epoch (rd s Reg.LEMAC_EPOCH_EPOCH) ∧ ¬ s.pair.yieldDue then
    let f := free s
    post { f.2 with pair := { f.2.pair with yieldDue := true } } 0x2008 2 (f.1 % 32 + epoch % 2 ^ 27 * 32)
  else s

/-- An item whose boundary has passed (R252, R256). -/
def itemLate (s : State) : State :=
  let s := wr (incErr s Reg.PEER_MLATE_ERR_COUNT) Reg.PEER_NREADY_MIRROR_LATE 1
  unalign { s with pair := { s.pair with lateWait := allChans } } allChans

/-- Background traffic of the active reaches the standby: the content of a block, and the owner that it has, at once or from the boundary named; one that comes late is taken at once (R256; log 40). -/
def putBlock (s : State) (b own : Nat) (priv : Bool) (at_ : Nat) (bytes : List Byte) : State :=
  if domOn s dCIST ∧ (role s = rSTANDBY ∨ role s = rJOINING) then
    let s := mwrite s (cistAddr (256 * b)) (bytes.take 256)
    if s.sched.cycle < at_ then { s with pair := { s.pair with passes := s.pair.passes ++ [⟨at_, b, priv⟩] } }
    else setFloat (if at_ = 0 then s else itemLate s) b own priv
  else s

/-- The blocks that pass at boundary `n` (R256). -/
def passBoundary (s : State) (n : Nat) : State :=
  let now := s.pair.passes.filter (fun q => decide (q.due ≤ n))
  let s : State := { s with pair := { s.pair with passes := s.pair.passes.filter (fun q => !decide (q.due ≤ n)) } }
  if domOn s dCIST then now.foldl (fun s q => setFloat s q.blk 2 q.priv) s else s

/-- A standby's channel A holds its high-side switch off while the active pulses a paralleled pair (R294). -/
def pulseFromPeer (s : State) (q : Nat) (hold : Bool) : State :=
  if chanOn s false ∧ role s = rSTANDBY ∧ outPar s q then
    let m := BitVec.ofNat 2 (2 ^ q)
    safeShow { s with safe := { s.safe with pulseHold := if hold then s.safe.pulseHold ||| m else s.safe.pulseHold &&& ~~~m } }
  else s

/-- What a valid peer frame carries (R244, R253, R256, R262, R294). -/
def takeContent (s : State) : PeerContent → State
  | .idle => s
  | .ident role epoch _ uid brk shed =>
    let s := wrs { s with pair := { s.pair with peerRole := role, peerBreak := brk, peerShed := shed.map (fun a => a.val) } }
      [(Reg.PEER_PEER_UID_LO_UID, uid.toNat % 2 ^ 32), (Reg.PEER_PEER_UID_HI_UID, uid.toNat / 2 ^ 32)]
    let s := showCapacity s
    if role.val = rACTIVE then meetActive s epoch.toNat else s
  | .pulse q hold => pulseFromPeer s q hold
  | .copy c => if role s = rSTANDBY ∧ bothLanes s then { s with pair := { s.pair with copies := s.pair.copies ++ [c] } } else s
  | .item (.block b own priv at_ bytes) => if bothLanes s then putBlock s b.toNat own.toNat priv at_ bytes else s
  | .item _ => s
  | .done k => if role s = rACTIVE then { clearAck s k with pair := { (clearAck s k).pair with acked := (clearAck s k).pair.acked ++ [k.val] } } else s

/-- PEER_FRAME_RECEIVE (R244): a frame that fails its CRC is counted; a valid one keeps its lane up. -/
def execPeerFrameReceive (lane : Fin 2) (ok : Bool) (c : PeerContent) (s : State) : Host.Outcome State Fault Refusal :=
  .next (
    if !domOn s dLINK then s
    else if !ok then incErr s (if lane = 0 then Reg.PEER_LANE_ERR0_COUNT else Reg.PEER_LANE_ERR1_COUNT)
    else
      let s := wr s (laneField lane) 1
      takeContent (showSusp s) c)

/-- RELINQUISH_RECEIVE (R259, R266): takeover is due at the next boundary where 1,000 ns are left to it, else at the one after. -/
def execRelinquishReceive (s : State) : Host.Outcome State Fault Refusal :=
  .next (
    if role s = rSTANDBY ∧ peerUp s then
      let soon := decide (tNow s + 1000 * 2 ^ 40 ≤ s.time.tb + period s * 2 ^ 40)
      let s := if s.pair.swapDue.isSome then post s 0x2007 2 3 else s
      let cold := !on s Reg.PEER_STAT_READY
      { s with pair := { s.pair with peerRole := rRELINQUISHED, swapDue := none, take := some (s.sched.cycle + (if soon then 1 else 2), cold) } }
    else s)

/-- FAULTED_RECEIVE (R257): the other unit has taken role FAULTED. -/
def execFaultedReceive (s : State) : Host.Outcome State Fault Refusal :=
  .next (
    if paired s && peerUp s then wr { s with pair := { s.pair with peerRole := rFAULTED } } Reg.PEER_STAT_PEER_READY 0 else s)

/-- CS_LOSS_TAKEOVER (R261): a DETACHED unit that has received no valid CS for 4 cycles takes over cold at the next boundary. -/
def execCsLossTakeover (s : State) : Host.Outcome State Fault Refusal :=
  .next (
    if role s = rDETACHED ∧ 4 ≤ s.pair.noCs then { s with pair := { s.pair with take := some (s.sched.cycle + 1, true) } } else s)

/-! ## Input images (R247) -/

/-- The point of segment 29 that holds a local input of the other unit. -/
def map29 (a : Nat) : Option Nat :=
  let seg := a / 32768 % 32
  let pos := a / 512 % 64
  if seg = 24 ∧ pos < 16 then some (pt 29 pos 0 0 + a % 512)
  else if seg = 25 ∧ pos < 16 then some (pt 29 (16 + pos) 0 0 + a % 512)
  else if seg = 27 ∧ pos < 32 then some (pt 29 (32 + pos) 0 0 + a % 512)
  else none

/-- The points of the unit's own input list, as they stand. -/
def ownImage (s : State) : List PtImage :=
  (inputList s (bank s)).map (fun a => (BitVec.ofNat 20 a, BitVec.ofNat 64 (ptVal s a), ptStale s a))

/-- Points of the other unit are written to segment 29 (R247, R248). -/
def putImage (s : State) (l : List PtImage) : State :=
  l.foldl (fun s x => match map29 x.1.toNat with | some a => wrPt s a x.2.1.toNat x.2.2 | none => s) s

/-- The redirected inputs read stale (R247, R261). -/
def staleImage (s : State) : State :=
  (inputList s (bank s)).foldl (fun s a => match map29 a with | some b => setStale s b true | none => s) s

/-- INPUT_IMAGE_SEND: the image instant of the active (R247). -/
def execInputImageSend (s : State) : Host.Outcome State Fault Refusal :=
  .next (if role s = rACTIVE ∧ peerUp s ∧ domOn s dNET then emit s (.inputImage (ownImage s)) else s)

/-- INPUT_IMAGE_RECEIVE (R247). -/
def execInputImageReceive (pts : List PtImage) (s : State) : Host.Outcome State Fault Refusal :=
  .next (
    if role s = rSTANDBY ∧ peerUp s ∧ domOn s dNET then
      let s := putImage s pts
      { s with pair := { s.pair with imgNow := true } }
    else s)

/-- INPUT_EDGE_INSTANT: both units fire the edges of PEER.IN_EDGE; a standby whose image has not arrived reads stale points (R247, R252, R261). -/
def execInputEdgeInstant (s : State) : Host.Outcome State Fault Refusal :=
  .next (
    if domOn s dNET then
      let s := if role s = rSTANDBY ∧ ¬ s.pair.imgNow then
          let t := staleImage s
          unalign { t with pair := { t.pair with imgMiss := true } } allChans
        else if role s = rDETACHED then staleImage s else s
      fireEdges s pInstant (realEdges s.pair.edges)
    else s)

/-! ## Forwarded frames (R249) -/

/-- FORWARDED_FRAME_RECEIVE: one more copy of its slot until its window, extended for a broken line, has ended (R49, R249). -/
def execForwardedFrameReceive (f : RxFrame) (s : State) : Host.Outcome State Fault Refusal :=
  .next (
    let p := f.port.val
    let k := (portSlots s p).findIdx (fun e => e.kind == 0 && e.slot == fSlot f)
    match (portSlots s p)[k]? with
    | some e =>
      if on s Reg.PEER_CFG_FWD_EN && peerUp s && (role s == rACTIVE || role s == rSTANDBY) && domOn s dNET && fCyc f == s.sched.cycle % 2 ^ 16 &&
          !s.lemac.ended.contains (p, k) then
        if rxStalled s p then setPort s p { port s p with keptFwd := (port s p).keptFwd ++ [f] } else takeForwarded s p k e f
      else s
    | none => s)

/-! ## Set-point comparison (R250) -/

/-- The entries of an SP frame against the standby's launch-instant values. -/
def compareEntries (s : State) (seg : Nat) : List Nat → List Byte → State
  | [], _ => s
  | i :: r, b =>
    let h := bNum b 0 4
    let n := h % 2 ^ 20
    let v := (b.drop 4).take n
    let s :=
      if bitOf 21 h ∨ bitOf 20 h then s
      else if s.lemac.nulls.contains i then incCnt s Reg.PEER_SKIP_CNT_COUNT
      else
        match s.lemac.sent.find? (fun e => e.1 == i) with
        | some e => if e.2 = v then s else shadowMismatch s 0 seg i (entChans s i) s.sched.ran
        | none => s
    compareEntries s seg r (b.drop (4 + n))

/-- SP_RECEIVE: the active's SP frame at a far port of the standby (R187, R250). -/
def execSpReceive (f : RxFrame) (s : State) : Host.Outcome State Fault Refusal :=
  .next (
    let p := f.port.val
    if portLive s p then
      let s := linkUp s p
      match chkHead s f 2 true with
      | .ok _ =>
        let s := incCnt s (Reg.PORT_RX_CNT_COUNT p)
        match (portSlots s p).find? (fun e => e.kind == 2 && e.slot == fSlot f) with
        | some e => if role s = rSTANDBY then compareEntries s (portSeg s p) ((List.range e.spn).map (fun i => e.spe + i)) (fBody f) else s
        | none => s
      | c => countChk s p f c
    else s)

/-! ## Channel state copies (R253) -/

/-- First point of a channel: segment 30 for an axis, segment 26 for a virtual axis. -/
def chanPt (c : Nat) : Nat := if c < 1024 then pt 30 0 0 0 + 32 * c else pt 26 0 0 0 + 32 * (c - 1024)

/-- The regions that a channel's state list names. -/
def stateRegions (s : State) (c : Nat) : List (Nat × List Byte) :=
  let b := bank s
  if on s (Reg.PEER_SLIST_VALID b) then
    let w := mnum s (clmAddr 0 (16 * rd s (Reg.PEER_SLIST_OFFSET b) + 4 * c)) 4
    if bitOf 31 w then (dmaList s (bits 17 16 w) (16 * bits 13 0 w) 16).map (fun e => (e.addr, mread s e.addr (4 * e.len))) else []
  else []

/-- A copy of a channel's state as it stands. -/
def chanCopy (s : State) (c : Fin 1056) : ChanCopy :=
  { ch := c, regions := stateRegions s c,
    pts := (List.range 32).map (fun i => (BitVec.ofNat 64 (ptVal s (chanPt c + i)), ptStale s (chanPt c + i))),
    mot := tget (fun _ => {}) s.mots c, axis := if c.val < 1024 then tget (fun _ => {}) s.axes c else {} }

/-- Size of a copy in bytes: its regions and points; the rest has no stated size (log 40). -/
def copySize (x : ChanCopy) : Nat := (x.regions.map (fun r => r.2.length)).sum + 256

/-- Every task of the channel has completed in this cycle. -/
def chanDone (s : State) (c : Nat) : Bool :=
  let b := bank s
  let busy (t : Nat) : Bool :=
    (List.range 64).any (fun e =>
      let x := eng s e
      (x.task == t && x.ph != .idle && x.ph != .fault && x.ph != .test) || x.outq.any (fun j => j.task == t) ||
      (match x.resume with | some v => v.task == t | none => false))
  ((validTasks s b).filter (fun t => tdAxis s b t == some c)).all (fun t =>
    let ran := s.sched.ran.any (fun x => x.1 == t)
    !busy t && (!(task s t).armed || ran))

/-- STATE_COPY_SEND: the lowest unaligned channel is copied once its tasks have completed, within RS_KIB (R253). -/
def execStateCopySend (s : State) : Host.Outcome State Fault Refusal :=
  .next (
    match s.pair.peerUnal with
    | [] => s
    | c :: r =>
      let x := chanCopy s (Fin.ofNat 1056 c)
      if role s = rACTIVE ∧ bothLanes s ∧ s.pair.peerRole = rSTANDBY ∧ chanDone s c ∧ s.pair.copied + copySize x ≤ 1024 * rd s Reg.PEER_CFG_RS_KIB then
        { emit s (.chanCopy x) with pair := { s.pair with peerUnal := r, copied := s.pair.copied + copySize x } }
      else s)

/-- STATE_COPY_INSTALL (R253): after step 1 of the boundary sequence; the channel is aligned. -/
def installCopy (s : State) (x : ChanCopy) : State :=
  let c := x.ch.val
  let s := x.regions.foldl (fun s r => mwrite s r.1 r.2) s
  let s := ((List.range 32).zip x.pts).foldl (fun s q => wrPt s (chanPt c + q.1) q.2.1.toNat q.2.2) s
  let s : State := { s with mots := tput (fun _ => {}) s.mots c x.mot }
  let s : State := if c < 1024 then { s with axes := tput (fun _ => {}) s.axes c x.axis } else s
  let q : PairSt := { s.pair with unaligned := s.pair.unaligned.filter (fun d => d != c), lateWait := s.pair.lateWait.filter (fun d => d != c) }
  let s : State := { s with pair := q }
  let s := if s.pair.lateWait = [] then wr s Reg.PEER_NREADY_MIRROR_LATE 0 else s
  incCnt (showUnal s) Reg.PEER_COPY_CNT_COUNT

/-! ## Joining (R243, R263, R264) -/

/-- The unit may join: ALONE, DETACHED, TESTING once its offline self-test has ended, or after JOIN in role RELINQUISHED or FAULTED (R263, R265). -/
def mayJoin (s : State) : Bool :=
  let r := role s
  r == rALONE || r == rDETACHED || (r == rTESTING && !s.tests.any (fun t => t.kind == .offline)) ||
  ((r == rRELINQUISHED || r == rFAULTED) && s.pair.joinAsk)

/-- The join begins: role JOINING (R264). -/
def beginJoin (s : State) : State :=
  let s := wrw (setRole s rJOINING) Reg.PEER_NREADY.addr 0
  let s := wrs s [(Reg.PEER_NREADY_JOINING, 1), (Reg.PEER_STAT_UNALIGNED, 0)]
  let s := { s with bridge := { s.bridge with withdrawn := false } }
  showReady { s with pair := { s.pair with joinAsk := false, silent := false, take := none, swapDue := none, unaligned := [], lateWait := [], copies := [],
                                           shadowAt := none, mmAt := [], mmDue := false, reports := [], items := [], peerPts := [] } }

/-- The fields that both units of a pair must configure alike, by register, with their bits: CLUn.CFG, GUARD.CFG, AXIS.AREA, of LEMAC ETYPE, MCAST and RANK.TSLOT, and of PORTn all but LINE.END (R243). DESIGN CHOICE (log 40): WITHDRAW, the registers that hold a selection or an argument, and the common header are not compared; banks and records are copied by the join. -/
def joinFields : List (Nat × Nat) :=
  (List.range 4).map (fun c => ((Reg.CLU_CFG_PFMODE c).addr, 0xF)) ++
  (List.range 24).flatMap (fun p => [((Reg.PORT_CTRL p).addr, 0xF), ((Reg.PORT_LINE_N p).addr, 0x7F5F), ((Reg.PORT_SLOTCFG_GUARD p).addr, 0x3FF),
    ((Reg.PORT_AQTX_BLOCK p).addr, 0x1FF7FFF), ((Reg.PORT_AQRX_BLOCK p).addr, 0x1FF7FFF)]) ++
  [(Reg.LEMAC_ETYPE_ETYPE.addr, 0xFFFF), (Reg.LEMAC_MCAST_LO_ADDR.addr, allOnes), (Reg.LEMAC_MCAST_HI_ADDR.addr, 0xFFFF), (Reg.LEMAC_RANK_RANK.addr, 0xFFFF0000),
   (Reg.GUARD_CFG_DRIFT_CYC.addr, 0xFFFF), (Reg.AXIS_AREA.addr, 0x80000007)]

/-- What the unit presents of these fields: the registers in which one differs from its reset value. -/
def joinView (s : State) : List (BitVec 24 × W32) :=
  joinFields.filterMap (fun f =>
    let v := rdw s f.1 &&& f.2
    if v = (regReset f.1).toNat &&& f.2 then none else some (BitVec.ofNat 24 f.1, BitVec.ofNat 32 v))

/-- The two units differ in the pages of R243, or in their parameter sets (R294). -/
def joinDiffers (s : State) (j : JoinId) : Bool := j.pages != joinView s || j.psetCrc.toNat != rdw s Reg.SAFE_PSET_CRC_CRC.addr

/-- PAIR_JOIN, step 1: the units identify themselves and compare what must agree (R243, R263, R264). A unit that launches CS is active once a pair is formed; another joins it. -/
def execPairJoin (j : JoinId) (s : State) : Host.Outcome State Fault Refusal :=
  .next (
    if on s Reg.PEER_CFG_EN && bothLanes s && rd s Reg.LEMAC_PSTATE_STATE == 3 then
      let s := wrs s [(Reg.PEER_PEER_UID_LO_UID, j.uid.toNat % 2 ^ 32), (Reg.PEER_PEER_UID_HI_UID, j.uid.toNat / 2 ^ 32)]
      let refuse (s : State) : State := if s.lemac.launching then s else showReady (wr s Reg.PEER_NREADY_IMAGE 1)
      if b2n j.rank = rd s Reg.PEER_CFG_RANK then refuse (post s 0x2006 2 (b2n j.rank))
      else if s.lemac.launching then
        let s := if role s = rALONE ∧ ¬ joinDiffers s j then setRole s rACTIVE else s
        if role s = rACTIVE ∧ ¬ joinDiffers s j then showSusp { s with pair := { s.pair with peerRole := rJOINING } } else s
      else if mayJoin s then
        if joinDiffers s j then refuse s
        else if j.role.val = rACTIVE then
          let s := beginJoin s
          showSusp (learnEpoch { s with pair := { s.pair with peerRole := rACTIVE } } j.epoch.toNat)
        else s
      else s
    else s)

/-- The registers that show which banks are in service, which a bulk copy brings. -/
def bulkKeys : List Nat := [Reg.CYC_GRAPH_BANK_ACTIVE.addr, Reg.CYC_GBANK_CHECKED.addr, Reg.LEMAC_SCHED_ACTIVE.addr]

/-- The bulk copy is put in place, each area as its copy and the items sent for it since have made it; the edges of PEER.IN_EDGE are taken over with the banks (R264, step 2; R268; log 40). -/
def putBulk (s : State) (b : Bulk) : State :=
  let s := b.mem.foldl (fun s r => mwrite s r.1 r.2) s
  let s := b.owned.foldl (fun s k => setFloat s k.toNat 2 false) s
  let s := (b.regs.filter (fun r => bulkKeys.contains r.1.toNat)).foldl (fun s r => wrw s r.1.toNat r.2.toNat) s
  let s := match b.swapDue with
    | some n => wr { s with lemac := { s.lemac with swapDue := n } } Reg.LEMAC_SWAP_PEND 1
    | none => wr s Reg.LEMAC_SWAP_PEND 0
  { s with motRec := b.motRec, camPend := b.camPend, axes := b.axes, mots := b.mots, commit := b.commit, stops := b.stops,
           sched := { s.sched with intra := b.intra, inter := b.inter }, time := { s.time with step := b.step },
           pair := { s.pair with edges := (List.range 8).map (fun i => rd s (Reg.PEER_IN_EDGE_EDGE i)) } }

/-- The stewards' checks of a copied bank, as for INSTALL; a bank with no schedule passes (R194, R264). -/
def bankSound (s : State) (b : Nat) : Bool :=
  let per := bits 47 16 (schedWord s b 0)
  bits 15 0 (schedWord s b 0) == 0 ||
  ((tabFault s b).isNone && (rsvFault s b).isNone && (mapFault s b).isNone && decide (15625 ≤ per) && decide (per ≤ 4000000) &&
   (List.range 24).all (fun p => (orderFault per none (slotsAt s b p)).isNone &&
     (gapFault (rd s (Reg.PORT_SLOTCFG_GUARD p)) (csWire s p) none ((slotsAt s b p).filter (fun x => x.2.isRx))).isNone))

/-- BULK_COPY_COMPLETE: steps 2 and 3 of the join; shadowing starts at the boundary that the active names (R264). Banks that fail their checks end the join (log 40). -/
def execBulkCopyComplete (b : Bulk) (start : Nat) (s : State) : Host.Outcome State Fault Refusal :=
  .next (
    if role s = rJOINING ∧ bothLanes s then
      let s := putBulk s b
      if bankSound s 0 && bankSound s 1 then { s with pair := { s.pair with shadowAt := some start } }
      else showReady (wrs (setRole s rALONE) [(Reg.PEER_NREADY_JOINING, 0), (Reg.PEER_NREADY_IMAGE, 1)])
    else s)

/-! ## PEER.CMD (R263, R265, R266) -/

/-- A write of PEER.CMD with operation `op`. -/
def peerCmd (s : State) (m : Master) (w : W32) (op : Nat) (f : State → State) : State :=
  regAction s m Reg.PEER_CMD_OP.addr w (fun s => if wbits Reg.PEER_CMD_OP w = op then f s else s)

/-- The management item of a proof swap or its withdrawal, with the boundary it names. -/
def swapItem (s : State) (w : W32) : MItem :=
  let key (f : Fld) : BitVec 24 × W32 := (BitVec.ofNat 24 f.addr, BitVec.ofNat 32 (rdw s f.addr))
  .write s.sched.cycle (BitVec.ofNat 24 Reg.PEER_CMD_OP.addr) w [key Reg.PEER_SWAP_AT_LO_CYCLE, key Reg.PEER_SWAP_AT_HI_CYCLE]

/-- SWAP (R256, R265, R266): a proof swap is accepted, or refused with RESULT. -/
def execSwap (m : Master) (w : W32) (s : State) : Host.Outcome State Fault Refusal :=
  .next (peerCmd s m w 1 (fun s =>
    let n := rd64 s Reg.PEER_SWAP_AT_LO_CYCLE Reg.PEER_SWAP_AT_HI_CYCLE
    if roleBars s m then errlog s 0x7D 6 m Reg.PEER_CMD_OP.addr
    else if role s ≠ rACTIVE ∨ on s Reg.PEER_STAT_SWAPPEND then wr s Reg.PEER_CMD_RESULT 3
    else if !peerUp s then wr s Reg.PEER_CMD_RESULT 4
    else if !on s Reg.PEER_STAT_PEER_READY then wr s Reg.PEER_CMD_RESULT 1
    else if !leadOk s n 8 then wr s Reg.PEER_CMD_RESULT 2
    else
      let s := noteItem s (swapItem s w)
      wrs { s with pair := { s.pair with swapDue := some n } } [(Reg.PEER_CMD_RESULT, 0), (Reg.PEER_STAT_SWAPPEND, 1)]))

/-- SWAP_CANCEL: the pending swap is withdrawn (R266). -/
def execSwapCancel (m : Master) (w : W32) (s : State) : Host.Outcome State Fault Refusal :=
  .next (peerCmd s m w 2 (fun s =>
    if role s = rACTIVE ∧ on s Reg.PEER_STAT_SWAPPEND then
      let s := noteItem s (swapItem s w)
      wrs { s with pair := { s.pair with swapDue := none } } [(Reg.PEER_CMD_RESULT, 0), (Reg.PEER_STAT_SWAPPEND, 0)]
    else wr s Reg.PEER_CMD_RESULT 3))

/-- JOIN: after a repair, in role RELINQUISHED or FAULTED (R263). -/
def execJoin (m : Master) (w : W32) (s : State) : Host.Outcome State Fault Refusal :=
  .next (peerCmd s m w 3 (fun s =>
    if role s ≠ rRELINQUISHED ∧ role s ≠ rFAULTED then wr s Reg.PEER_CMD_RESULT 3
    else if !peerUp s then wr s Reg.PEER_CMD_RESULT 4
    else wr { s with pair := { s.pair with joinAsk := true } } Reg.PEER_CMD_RESULT 0))

end Sys2Proof.Machine
end

