-- ==== Sys2Proof/Machine/MirrorOps.lean ====
section
/-! DEFINITION. What a unit of a pair sends to the other in each cycle (R244, R251, R255, R256). -/

namespace Sys2Proof.Machine

/-! ## The mirror record (R251, R255) -/

/-- RXMISS of this cycle: one word for a port of which every receive entry is missing, else one for each missing entry. -/
def rxMissWords (s : State) (miss : List (Nat × Nat)) : List W32 :=
  (List.range 24).flatMap (fun p =>
    let l := (miss.filter (fun x => x.1 == p)).map (fun x => x.2)
    let all := ((portSlots s p).filter SlotE.isRx).length
    if l = [] then []
    else if l.length = all then [BitVec.ofNat 32 (2 ^ 31 + p * 2 ^ 24)]
    else (l.mergeSort (fun a b => a ≤ b)).map (fun k => BitVec.ofNat 32 (p * 2 ^ 24 + k)))

/-- The digests of a cycle: segment, CRC, number of entries (R251). -/
def digests (s : State) (sent : Tbl (List Byte)) (nulls : List Nat) : List (BitVec 5 × W64 × BitVec 16) :=
  (List.range 24).filterMap (fun seg =>
    let es := segEntries s seg
    let ids := es.filter (fun i => !nulls.contains i)
    if es = [] then none else some (BitVec.ofNat 5 seg, digestOf sent ids, BitVec.ofNat 16 ids.length))

/-- The active's record of this cycle, with the items given. -/
def activeRecord (s : State) (items : List MItem) : MirrorRec :=
  .active s.sched.cycle (rxMissWords s s.lemac.rxMiss) (s.lemac.nulls.map (BitVec.ofNat 12)) (digests s s.lemac.sent s.lemac.nulls) items

/-- The standby's record of this cycle, with its deviation θ (R222, R248, R255). -/
def standbyRecord (s : State) : MirrorRec :=
  .standby s.sched.cycle (if domOn s dNET then (ownTheta s).map (BitVec.ofInt 64) else none) (Fin.ofNat 8 (role s)) (BitVec.ofNat 8 (rdw s Reg.PEER_NREADY.addr))
    (s.pair.unaligned.map (Fin.ofNat 1056)) s.pair.reports (ownImage s)

/-- PEER.MIRROR reports the size of the last record with its input image, and the largest, in units of 16 bytes (R255). -/
def showMirror (s : State) (bytes : Nat) : State :=
  let n := (bytes + 15) / 16 % 2 ^ 16
  wrs s [(Reg.PEER_MIRROR_LAST, n), (Reg.PEER_MIRROR_PEAK, max n (rd s Reg.PEER_MIRROR_PEAK))]

/-- Bytes of an item in a record: its layout is open, and its size a free value (R255; log 40). -/
def itemBytes : MItem → Nat
  | .write _ _ _ l => Config.mirrorBytes 1 l.length
  | .plan _ _ z => Config.mirrorBytes 2 z.segs.length
  | .block _ _ _ _ _ => 0

/-- The item is background traffic (R244, R256). -/
def isBack : MItem → Bool
  | .block _ _ _ _ _ => true
  | _ => false

/-- The item starts an installation, whose image must have gone before it (R256). -/
def startsInstall : MItem → Bool
  | .write _ k w _ => (k.toNat == Reg.LEMAC_CMD.addr && wbits Reg.LEMAC_CMD_OP w == 1) || k.toNat == Reg.CYC_GCMD.addr
  | _ => false

/-- The items that a record takes into `room` bytes, in issue order, and those that are deferred (R255); `held`: an image is deferred. -/
def fitItems (held : Bool) : Nat → List MItem → List MItem × List MItem
  | _, [] => ([], [])
  | room, i :: r =>
    if startsInstall i && held then let f := fitItems held room r; (f.1, i :: f.2)
    else if itemBytes i ≤ room then let f := fitItems held (room - itemBytes i) r; (i :: f.1, f.2)
    else ([], i :: r)

/-- The cyclic mirror budget B_M in bytes (R255). -/
def mirrorBudget (s : State) : Nat := period s * 2 ^ 19 / 10 ^ 6

/-- Bytes of the active's record without its items, and of the input image (R247, R255). -/
def recordBytes (s : State) : Nat :=
  Config.mirrorBytes 0 0 + 4 * (rxMissWords s s.lemac.rxMiss).length + 512 + 16 * (digests s s.lemac.sent s.lemac.nulls).length +
    Config.mirrorBytes 3 (inputList s (bank s)).length

/-- The active sends the items that wait: the images while both lanes are up, the others as far as the budget allows after `used` bytes (R244, R255). `r` is the record that carries them. -/
def sendItems (s : State) (used : Nat) (r : List MItem → MirrorRec) : State :=
  let back := s.pair.items.filter (fun i => isBack i && bothLanes s)
  let rest := s.pair.items.filter (fun i => !(isBack i && bothLanes s))
  let held := rest.filter isBack
  let f := fitItems (held != []) (mirrorBudget s - used) (rest.filter (fun i => !isBack i))
  let total := used + (f.1.map itemBytes).sum
  let s := back.foldl (fun s i => emit s (.background i)) s
  let s := showMirror (emit s (.mirror (r f.1))) total
  { s with pair := { s.pair with items := held ++ f.2, recLen := some total } }

/-- MIRROR_RECORD_SEND (R255). The size of a standby's record follows from a layout that is open: a free value (log 40). -/
def mirrorSend (s : State) : State :=
  if !peerUp s then s
  else if role s = rACTIVE then sendItems s (recordBytes s) (activeRecord s)
  else if role s = rSTANDBY then
    let s := showMirror (emit s (.mirror (standbyRecord s))) (Config.mirrorBytes 4 (ownImage s).length)
    { s with pair := { s.pair with reports := [] } }
  else s

/-- The items issued after the record was sent, and the plans formed since, go with it before the cycle ends, so that they close before their boundary (R255, R256; log 40). -/
def mirrorTail (s : State) : State :=
  match s.pair.recLen with
  | some used =>
    let s := planCmds s
    if mirrors s && s.pair.items != [] then sendItems s used (fun l => .active s.sched.cycle [] [] [] l) else s
  | none => s

end Sys2Proof.Machine
end

