-- ==== Sys2Proof/Machine/Boundary.lean ====
section
/-! DEFINITION. The cycle boundary: the boundary sequence and what else falls at it (R40, R58, R62 to R65, R190 to R208, R219, R232, R253 to R265, R383, R422, R442, R444). -/

namespace Sys2Proof.Machine

/-! ## Step 1: the ending cycle (R40, R64) -/

/-- The tasks of an engine that are overruns: running, saved, or ended with a DMA-out that has not committed (R64). DEDUCED: a task whose DMA-in still runs has been selected, holds no token, and counts as still running (log 18). -/
def overruns (x : Engine) : List Nat :=
  (match x.ph with | .dmaIn => [x.task] | .running => [x.task] | .saving => [x.task] | _ => []) ++
  (match x.resume with | some v => [v.task] | none => []) ++ x.outq.map (fun j => j.task)

/-- Tokens that an engine holds. -/
def engToks (x : Engine) : Nat := x.lq.length + x.pq.length + b2n x.pslot.isSome + b2n x.reserved.isSome

/-- An engine as it enters the new cycle. -/
def endEngine (x : Engine) : Engine :=
  let y : Engine := { x with resume := none, reserved := none, lq := [], pq := [], pslot := none, taken := none, outq := [], issued := 0 }
  if x.ph = .fault ∨ x.ph = .test then y else { y with ph := .idle, mid := false, wrote := [], stores := [] }

/-- An overrun task is counted and logged (R64). -/
def noteOverrun (s : State) (t : Nat) : State := raise (post (incCnt s Reg.CYC_OVERRUN_CNT_COUNT) 0x3002 3 t) 0x14 6

/-- LEn.ISSUED and STALLED show the ending cycle. An engine that issued nothing lost no clock (R79); the stalls of another follow from timing that the model leaves out, and are a free value (R109; log 2). -/
def showIssued (s : State) (e : Nat) : State :=
  if domOn s (dCLU (e / 16)) then 
    if (eng s e).issued = 0 ∧ (eng s e).ph ≠ .running then wrs s [(Reg.LE_ISSUED_ISSUED e, 0), (Reg.LE_STALLED_STALLED e, 0)]
    else let f := free s; wrs f.2 [(Reg.LE_ISSUED_ISSUED e, (eng s e).issued), (Reg.LE_STALLED_STALLED e, f.1)]
  else s

/-- Step 1: running tasks are stopped, tokens and held edges are discarded (R40, R60, R64). -/
def endCycle (s : State) : State :=
  let engs := (List.range 64).map (eng s)
  let inWells := ((List.range 16).map (fun i => (tget (fun _ => ([] : List Tok)) s.sched.wells i).length)).sum
  let held := ((List.range 30).map (fun w => ((poster s w).filter (fun i => i.hold.isSome)).length)).sum
  let s := addCnt s Reg.CYC_FLUSH_CNT_COUNT (inWells + (engs.map engToks).sum + held)
  let s := (engs.flatMap overruns).foldl noteOverrun s
  let s := (List.range 64).foldl showIssued s
  let s := (List.range 64).foldl (fun s e => setEng s e (endEngine (eng s e))) s
  { s with sched := { s.sched with wells := [], posters := [] } }

/-- CLOCKED: LE clocks for which each gate was open in the cycle that ends; `clk` adds those of gates still open (R35, R68). -/
def showClocked (s : State) (clk : BitVec 128) : State :=
  let s := (List.range 4).foldl (fun s c =>
    if domOn s (dCLU c) then
      wr s (Reg.CLU_CLOCKED_CLOCKED c) (tget (fun _ => 0) s.sched.clocked c + (if s.sched.gate.getLsbD c then bits (32 * c + 31) (32 * c) clk.toNat else 0))
    else s) s
  { s with sched := { s.sched with clocked := [] } }

/-! ## Time and control registers (R25, R222 to R232) -/

/-- The control registers that a boundary takes over: pages CLUn but for WITHDRAW, CYC, LEMAC, GUARD, PORTn, the encoder configuration, and LEn.CTX_BASE (R25, R109, R310). -/
def takenOver (k : Nat) : Bool :=
  let p := k / 0x1000
  (decide (0x10 ≤ p) && decide (p ≤ 0x14) && k % 0x1000 != 0x44) || (decide (0x60 ≤ p) && decide (p < 0x7A)) ||
  (decide (0x90 ≤ p) && decide (p < 0x98)) || (decide (0x20 ≤ p) && decide (p < 0x60) && k % 0x1000 == 0x4C)

/-- Control registers are taken over (R25). -/
def takeControl (s : State) : State := { s with ctl := s.regs.filter (fun e => takenOver e.1) }

/-- Network time at the boundary whose count is `n`, with the step due there; corrections move on by a cycle, and the unit reads its own sync clock (R216, R219, R222, R224, R232). -/
def timeBoundary (s : State) (n : Nat) : State :=
  let s := netPass s ((s.time.tb + period s * 2 ^ 40 : Nat) - tNow s)
  let d : Option Int := match s.time.step with | some x => if x.1 ≤ n then some x.2 else none | none => none
  let tb := ((s.time.tb + period s * 2 ^ 40 : Nat) + d.getD 0 * 2 ^ 40).toNat
  let x := s.time
  let y : TimeSt := { x with tb := tb, stepped := d, step := if d.isSome then none else x.step, cSum := x.cSum + x.slewNow }
  let own : Option Int := x.sync.map (fun c => c - tb)
  let t : TimeSt := { y with slewNow := x.slewNext, slewNext := 0, theta := [], ests := [], adj := 0, own := own, devSum := x.devSum + own.getD 0 }
  let s := setTime { s with time := t } tb
  match d with
  | some v => stepEffect s v
  | none => s

/-- A sync stream is out of the sync set while its sender's DRIFT bit is set, and until its offsets have stayed within GUARD / 2 for DRIFT_CYC cycles (R200). -/
def driftSet (s : State) : State :=
  let entries := (List.range 24).flatMap (fun p => (((portSlots s p).zip (List.range 4096)).filter (fun x => x.1.kind == 1)).map (fun x => (p, x.1, x.2)))
  let out (slot : Nat) : Bool :=
    let es := entries.filter (fun x => x.2.1.slot == slot)
    es.any (fun x => portSeg s x.1 < 24 && on s (driftField (portSeg s x.1) x.2.1.pos)) ||
    (s.time.driftOut.contains slot &&
      es.any (fun x => decide (tget (fun _ => 0) s.lemac.within (entKey x.1 x.2.2) < cfg s Reg.GUARD_CFG_DRIFT_CYC)))
  { s with time := { s.time with driftOut := (syncStreams s).filter out } }

/-! ## The pair (R253, R255, R259, R262, R264, R265) -/

/-- The unit launches CS as origin with the epoch it last followed plus 1, and keeps its time (R206, R219, R259). -/
def launchAs (s : State) : State :=
  let s := setEpoch s ((rd s Reg.LEMAC_EPOCH_EPOCH + 1) % 2 ^ 32)
  let s := endRelays s
  let s := (List.range 24).foldl (fun s p => if on s (Reg.PORT_STAT_SUPERSEDED p) then wr s (Reg.PORT_STAT_SUPERSEDED p) 0 else s) s
  let s := dropHistory (wr (setRole s rACTIVE) Reg.LEMAC_PSTATE_STATE 3)
  let l : LemacSt := { s.lemac with launching := true, integ := none }
  let q : PairSt := { s.pair with silent := false, take := none, swapDue := none, unaligned := [], lateWait := [], copies := [], peerUnal := [], peerPts := [], items := [], acked := [], reports := [], recNow := false, recPrev := false }
  let s := joinSync { s with lemac := l, pair := q, time := { s.time with used := true } }
  let s := wrs (wrw s Reg.PEER_NREADY.addr 0) [(Reg.PEER_STAT_UNALIGNED, 0), (Reg.PEER_STAT_READY, 0), (Reg.PEER_STAT_PEER_READY, 0)]
  abortTests s (fun r => r.kind != .replan)

/-- The boundary of a takeover or swap is recorded (R259, R268). -/
def noteTake (s : State) (n : Nat) : State := wr64 s Reg.PEER_LAST_TAKE_LO_CYCLE Reg.PEER_LAST_TAKE_HI_CYCLE n

/-- TAKEOVER at the boundary whose count is `n` (R259). -/
def takeOver (s : State) (n : Nat) (cold : Bool) : State :=
  let s := noteTake (incCnt (launchAs s) Reg.PEER_TAKE_CNT_COUNT) n
  let s := post s 0x2002 2 (b2n cold + rd s Reg.LEMAC_EPOCH_EPOCH % 2 ^ 31 * 2)
  if cold then askStop (showUnal { s with pair := { s.pair with unaligned := allChans } }) n none 2 false else s

/-- PROOF_SWAP_EFFECT at the active: ports fall silent as origin ends, role TESTING, the offline self-test is queued (R265, R400). -/
def swapOut (s : State) (n : Nat) : State :=
  let s := wrs (noteTake (incCnt (stopLaunch s) Reg.PEER_SWAP_CNT_COUNT) n) [(Reg.PEER_STAT_SWAPPEND, 0), (Reg.PEER_STAT_PEER_READY, 0)]
  let s := setRole (abortTests s (fun r => r.kind != .replan)) rTESTING
  let s : State := { s with pair := { s.pair with peerRole := rACTIVE, swapDue := none } }
  requestTest (wr s Reg.PEER_NREADY_TESTING 1) .offline 0 0

/-- A proof swap due at this boundary (R265, R266). -/
def swapBoundary (s : State) (n : Nat) : State :=
  match s.pair.swapDue with
  | some k =>
    if n < k then s
    else if role s = rACTIVE then
      if peerUp s && on s Reg.PEER_STAT_PEER_READY then swapOut s n
      else cancelSwap { s with pair := { s.pair with swapDue := none } } (if peerUp s then 1 else 4)
    else if role s = rSTANDBY ∧ peerUp s ∧ on s Reg.PEER_STAT_READY then noteTake (incCnt (launchAs s) Reg.PEER_SWAP_CNT_COUNT) n
    else { s with pair := { s.pair with swapDue := none } }
  | none => s

/-- A takeover due at this boundary (R259, R261). -/
def takeBoundary (s : State) (n : Nat) : State :=
  match s.pair.take with
  | some (k, cold) =>
    if n < k then s
    else if role s = rSTANDBY ∨ role s = rDETACHED then takeOver s n cold
    else { s with pair := { s.pair with take := none } }
  | none => s

/-- Every enabled port of the unit is superseded. -/
def allSuperseded (s : State) : Bool :=
  let l := (List.range 24).filter (fun p => cfgOn s (Reg.PORT_CTRL_EN p))
  l != [] && l.all (fun p => on s (Reg.PORT_STAT_SUPERSEDED p))

/-- An active unit that finds a higher epoch gives up: all of its ports superseded, or the other unit met again (R262). One that has relinquished is an origin no longer (R258). -/
def yieldBoundary (s : State) : State :=
  if role s = rACTIVE ∧ s.pair.yieldDue then
    let s := detach (stopLaunch { s with pair := { s.pair with yieldDue := false } })
    (List.range 24).foldl (fun s p => if on s (Reg.PORT_STAT_SUPERSEDED p) then wr s (Reg.PORT_STAT_SUPERSEDED p) 0 else s) s
  else if role s = rACTIVE ∧ allSuperseded s then detach (stopLaunch s)
  else if role s = rRELINQUISHED ∧ s.lemac.launching then stopLaunch s
  else s

/-- Shadowing starts at the boundary that the active named: role STANDBY, every channel unaligned (R264). -/
def shadowBoundary (s : State) (n : Nat) : State :=
  match s.pair.shadowAt with
  | some k =>
    if role s = rJOINING ∧ k ≤ n then
      let s := wr (setRole s rSTANDBY) Reg.PEER_NREADY_JOINING 0
      showCapacity (showUnal { s with pair := { s.pair with shadowAt := none, shadowFrom := n, unaligned := allChans } })
    else s
  | none => s

/-- What the pair does at a boundary: state copies, then changes of role. -/
def pairBoundary (s : State) (n : Nat) : State :=
  let l := s.pair.copies
  let s : State := { s with pair := { s.pair with copies := [] } }
  let s := if role s = rSTANDBY then l.foldl installCopy s else s
  shadowBoundary (yieldBoundary (takeBoundary (swapBoundary (passBoundary s n) n) n)) n

/-- What the pair keeps of the ending cycle, and what begins anew with the next one (R247, R251, R257, R261). -/
def pairCycle (s : State) : State :=
  let s := mirrorTail s
  let p := s.pair
  let last : LastCyc := ⟨s.sched.cycle, s.lemac.sent, s.lemac.nulls, s.lemac.rxMiss, p.imgMiss, s.sched.ran⟩
  let q : PairSt := { p with last := last, recPrev := p.recNow, recNow := false, imgNow := false, imgMiss := false, copied := 0, recLen := none, noCs := if s.lemac.heard then 0 else p.noCs + 1 }
  { s with pair := q }

/-! ## Ports (R182, R199, R201, R207, R208) -/

/-- A port at the boundary: reopened, superseded as it now stands, a relay where one is due, or no longer one (R201). -/
def portBoundary (s : State) (p : Nat) : State :=
  let x := port s p
  let s := if x.reopen then
      let s := wrs s [(Reg.PORT_STAT_CLOSED p, 0), (Reg.PORT_VRUN_RUN p, 0)]
      let s := wr s Reg.GUARD_CLOSED_PORT (putBit p false (rd s Reg.GUARD_CLOSED_PORT))
      if paired s then s else wr s (Reg.PORT_STAT_SUPERSEDED p) 0
    else s
  let s := if x.relayDue then wr s (Reg.PORT_STAT_RELAY p) 1 else s
  let far := isFar s p
  let miss := if !far then 0 else if x.csOk then 0 else x.miss + 1
  let good := if far && x.csNear then x.good + 1 else 0
  let s := if 8 ≤ good then relayEnd s p else s
  setPort s p { x with supNow := on s (Reg.PORT_STAT_SUPERSEDED p), kept := [], keptFwd := [], reopen := false, relayDue := false, csOk := false, csNear := false, miss := miss, good := good, csAt := none, win := none }

/-- The ports whose half is ON, and what the receive engines note by cycle; an entry that accepted no frame in the cycle begins its drift runs anew (R200). -/
def portsBoundary (s : State) : State :=
  let s := (List.range 24).foldl (fun s p => if domOn s (dPort p) then portBoundary s p else s) s
  let l := s.lemac
  let clash := (if l.clashClr then [] else l.clash) ++ l.clashNext
  let seen (e : Nat × Nat) : Bool := (tget (fun _ => none) l.offs e.1).isSome
  let m : LemacSt := { l with drift := l.drift.filter seen, within := l.within.filter seen, rx := [], fired := [], ended := [], clash := clash, clashNext := [], clashClr := false, offsPrev := l.offs, offs := [], heard := false, rxMiss := [], nulls := [], sent := [] }
  { s with lemac := m }

/-! ## Step 2: swaps, capacity, rejoins (R37, R58, R65, R195, R422) -/

/-- The tests that a due swap meets: reason of R194, none where the bank enters service (R58, R247, R301). -/
def swapFault (s : State) (b : Nat) : Option Nat :=
  let per := bits 47 16 (schedWord s b 0)
  if graphFault s b then some 7 else if encLate s per || imageLate s b then some 3 else none

/-- SCHEDULE_BANK_SWAP: the shadow schedule and graph banks enter service (R39, R58, R190, R195, R221, R268, R344). -/
def swapBanks (s : State) : State :=
  let b := 1 - bank s
  let per := bits 47 16 (schedWord s b 0)
  let s := if per = period s then s else acqBreak s
  let s := wrs s [(Reg.CYC_GRAPH_BANK_ACTIVE, b), (Reg.CYC_GBANK_CHECKED, 0), (Reg.CYC_GBANK_SCHED, rd s Reg.LEMAC_SCHED_ACTIVE),
    (Reg.LEMAC_SCHED_ACTIVE, rd s Reg.LEMAC_SCHED_SHADOW), (Reg.LEMAC_SCHED_SHADOW, 0), (Reg.CYC_PERIOD_NS, per)]
  let s : State := { s with pair := { s.pair with edges := (List.range 8).map (fun i => rd s (Reg.PEER_IN_EDGE_EDGE i)) } }
  let s := setSticky s Reg.LEMAC_SWAP_DONE
  let sy := ((List.range 24).flatMap (fun p => ((portSlots s p).filter (fun e => e.kind == 1)).map (fun e => e.slot))).dedup
  let s := (List.range (sy.length - 6)).foldl (fun s _ => postOther s 3) s
  markPeriod s

/-- A swap due at the boundary whose count is `n` takes effect, or is refused. -/
def swapDueAt (s : State) (n : Nat) : State :=
  if on s Reg.LEMAC_SWAP_PEND && decide (s.lemac.swapDue ≤ n) then
    let s := wr s Reg.LEMAC_SWAP_PEND 0
    match swapFault s (1 - bank s) with
    | some r => setSticky (wrs s [(Reg.LEMAC_CHK_REASON, r), (Reg.LEMAC_CHK_WORD, 0)]) Reg.LEMAC_CHK_VALID
    | none => let s := swapBanks s; capacityCheck s (leMHz s)
  else s

/-- REJOIN: an axis is admitted where the sum with it still fits (R65). -/
def rejoinAxis (s : State) (a : Nat) : State :=
  if fits s (bank s) (leMHz s) ((shedAxes s).filter (fun x => x != a)) then reinit (wr s (shedField a) 0) a else s

/-- The rejoin requests of this boundary, in ascending axis number, but for axes shed at it (R65, R422); then the shedding in force, with a quick stop of each axis newly shed (R167). -/
def shedBoundary (s : State) (n : Nat) (before : List Nat) : State :=
  let asked := (s.sched.rejoin.mergeSort (fun a b => a ≤ b)).filter (fun a => before.contains a)
  let s : State := { s with sched := { s.sched with rejoin := [] } }
  let s := asked.foldl rejoinAxis s
  let now := shedAxes s
  let fresh := now.filter (fun a => !s.sched.shed.contains a)
  let s : State := { s with sched := { s.sched with shed := now } }
  let s := fresh.foldl (fun s a => askStop s n (some a) 2 true) s
  unalign (showCapacity s) fresh

/-- Step 2 (R40, R422): commit, swap with its capacity check, surge, rejoins. -/
def step2 (s : State) (n : Nat) : State :=
  let before := shedAxes s
  shedBoundary (surgeBoundary (swapDueAt (commitDue s n) n)) n before

/-! ## Steps 3 to 5 (R40, R46, R58, R62, R444) -/

/-- The tasks of the bank in service, in ascending number; none while no schedule bank is in service. -/
def cycleTasks (s : State) : List Nat := if inService s then (validTasks s (bank s)).mergeSort (fun a b => a ≤ b) else []

/-- The tasks of the bank in service with those whose cluster has gone OFF with its memory (R444), in ascending number. -/
def graphTasks (s : State) : List Nat :=
  if inService s then (validTasks s (bank s) ++ (goneOf s (bank s)).map (fun g => g.task)).dedup.mergeSort (fun a b => a ≤ b) else []

/-- A task may take part in this cycle: its home cluster is ON and its axis is not shed. -/
def mayRun (s : State) (t : Nat) : Bool := s.sched.part.getLsbD (home t) && !axisShed s t

/-- The inter-cycle entries that match count `n` (R58). -/
def interDue (s : State) (n : Nat) : List InterEnt :=
  if inService s then (tget (fun _ => ([] : List InterEnt)) s.sched.inter (bank s)).filter (fun e => e.per != 0 && n % e.per == e.ph) else []

/-- Step 3 and the arming of step 4: counters, contributor counts and lists are reloaded; each entry's count is the number of LAUNCH and slot edges that name it (R58, R62). -/
def reload (s : State) (n : Nat) : State :=
  let b := bank s
  let part : BitVec 4 := BitVec.ofNat 4 (((List.range 4).map (fun c => b2n (domOn s (dCLU c)) * 2 ^ c)).sum)
  let pref : BitVec 8 := BitVec.ofNat 8 (((List.range 4).map (fun c => cfg s (Reg.CLU_CFG_PFMODE c) * 4 ^ c)).sum)
  let s : State := { s with sched := { s.sched with part := part, prefMode := pref } }
  let tasks := cycleTasks s
  let armed := (interDue s n).filterMap (fun e => if e.post then none else some e.task)
  let st (t : Nat) : Option (Nat × TaskSt) :=
    if mayRun s t ∧ (¬ tdListarm s b t ∨ armed.contains t) then some (t, { armed := true, ctr := bits 11 0 (tdWord s b t 0) }) else none
  let names := ((graphTasks s).flatMap (fun t => launchOf (taskEdges s b t))) ++ (if inService s then launchOf (allSlotEdges s b) else [])
  let entries := names.foldl (fun (t : Tbl Nat) e => tmod (fun _ => 0) t e (fun k => k + 1)) []
  let intra := (List.range 4).filterMap (fun c =>
    let l : List IntraEnt := tget (fun _ => []) s.sched.intra (b * 4 + c)
    if inService s && part.getLsbD c && l != [] then some (c, l) else none)
  let x := s.sched
  let y : SchedSt := { x with tasks := tasks.filterMap st, entries := entries, intraLeft := intra, launched := [], ran := [], latePrev := x.lateNow, lateNow := [], lateMin := [], lateEPrev := x.lateENow, lateENow := [] }
  { s with sched := y }

/-- The points that the blocks write at step 3 (R23, R238, R248, R296, R360). -/
def pointsBoundary (s : State) : State :=
  let s := captPoints (safePoints (writeSafeA (canRxMap (fieldImage s))))
  if role s = rACTIVE ∧ s.pair.recPrev then putImage s s.pair.peerPts else s

/-- INTER_CYCLE_RELEASE: the FLAG entries post their flags (R58). -/
def interFlags (s : State) (n : Nat) : State :=
  ((interDue s n).filter (fun e => e.post)).foldl (fun s e => postItem s (home e.task) { edges := [2 ^ 30 + e.flag * 2 ^ 24 + e.task] }) s

/-- UNARMED_EDGE_FIRE: the edges of tasks that are not armed, LAUNCH edges apart where the home cluster is not ON; then flag 0 for counters reloaded as zero, and the tokens of tasks that wait for no flag (R40, R44, R46, R444). -/
def unarmedEdges (s : State) : State :=
  let edges (t : Nat) : List Edge :=
    let l := taskEdges s (bank s) t
    if s.sched.part.getLsbD (home t) then l else l.filter (fun w => bits 31 30 w != 2)
  let s := ((graphTasks s).filter (fun t => !(task s t).armed)).foldl (fun s t =>
    let l := edges t
    if l = [] then s else postItem s pCompletion { src := some t, edges := l }) s
  let first := (cycleTasks s).filter (fun t => (task s t).armed && (bits 11 0 (tdWord s (bank s) t 0) == 0 || tdWord s (bank s) t 1 == 0))
  first.foldl (fun s t =>
    if bits 11 0 (tdWord s (bank s) t 0) = 0 then postItem s pCompletion { edges := [2 ^ 30 + t] }
    else let k := makeToken s t; if k.2 then postItem k.1 pCompletion { repost := some t } else s) s

/-! ## The whole boundary -/

/-- CYCLE_BOUNDARY (R40, R442): boundaries exist only while NET is ON; `clk` holds, in 32 bits for each cluster, the LE clocks since its open gate was last counted. -/
def execCycleBoundary (clk : BitVec 128) (s : State) : Host.Outcome State Fault Refusal :=
  .next (
    if domOn s dNET then
      let n := s.sched.cycle + 1
      let was := (List.range 8).map (encType s)
      let s := pairCycle (endCycle (showClocked s clk))
      let s := takeControl s
      let s := timeBoundary { s with sched := { s.sched with cycle := n } } n
      let s := pairBoundary s n
      let s := noteRun (driftSet (portsBoundary s))
      let s := step2 s n
      let s := launchCs (primeBoundary s)
      let s := pointsBoundary (reload s n)
      let s := emuBoundary (encBoundary s (fun c => was.getD c 0))
      let tens := s.axes.map (fun e => (e.1, { e.2 with tenPrev := e.2.ten }))
      let s := motionBoundary { s with axes := tens.filter (fun e => e.2 != {}) } n
      unarmedEdges (interFlags s n)
    else s)

end Sys2Proof.Machine
end

