-- ==== Sys2Proof/Machine/LastLaunch.lean ====
section
/-! DEFINITION. LAST_LAUNCH_COMPLETE, DMA_OUT_COMMIT and STALL_RELEASE (R23, R27, R48, R60, R61, R127, R171, R251, R255, R361). -/

namespace Sys2Proof.Machine

/-! ## What an axis and a motion channel keep of a launch (R127, R147, R151) -/

/-- An axis at the last launch: the status that AXIS.STATUS shows, and the torque sent unless its entry was late. -/
def launchAxis (s : State) (a : Nat) : State :=
  let x := axis s a
  let y := { x with lib := BitVec.ofNat 16 (ptVal s (axPt a 31)) }
  setAxis s a (if s.sched.lateNow.contains a then y else { y with sent4 := BitVec.ofNat 64 (ptVal s (axPt a 4)) })

/-- The axes that have a task in the graph bank in service. -/
def liveAxes (s : State) : List Nat := ((validTasks s (bank s)).filterMap (tdAxis s (bank s))).dedup

/-- What axes and motion channels keep of the last launch. -/
def keepLaunch (s : State) : State :=
  let s := (liveAxes s).foldl launchAxis s
  (s.mots.map (fun e => e.1)).foldl (fun s c => setMot s c { mot s c with mstat := (mot s c).word }) s

/-! ## The last launch (R23, R27) -/

/-- The commanded outputs: bits [15:0] of the point that holds them (R23, R314). -/
def outPoint : Nat := pt 24 0 1 0

/-- LAST_LAUNCH_COMPLETE: the cycle's last downlink launch is complete, and the late runs that began in it are logged (R23, R27, R63). -/
def execLastLaunchComplete (s : State) : Host.Outcome State Fault Refusal :=
  .next (
    if domOn s dNET then
      let s := keepLaunch (logLateRuns s)
      let s := { s with bridge := { s.bridge with outImg := BitVec.ofNat 16 (ptVal s outPoint) } }
      mirrorSend (planCmds (canTxMap (emuUpdates (acqTap (latchSnap s)))))
    else s)

/-! ## Completion (R43, R48, R60) -/

/-- DMA_OUT_COMMIT: every write of the ending task's list is in its destination, a faulting entry apart; the completion unit fires the task's edges (R48, R78, R107). -/
def execDmaOutCommit (e : Fin 64) (s : State) : Host.Outcome State Fault Refusal :=
  .next (
    match (eng s e).outq with
    | [] => s
    | j :: r =>
      let s := setEng s e { eng s e with outq := r }
      let w := doWrites s (e.val / 16) j.writes
      match w.2 with
      | some c => engineFault w.1 e j.task j.pc c
      | none =>
        let s := j.pts.foldl (fun s p => wrPt s p.1 p.2 false) w.1
        postItem s pCompletion { src := some j.task, edges := tdEdges s (bank s) j.task, eng := some e })

/-- A kept frame is processed again, or kept on where the engine stalls anew (R61). -/
def retakeOne (p : Nat) (s : State) (f : RxFrame) : State :=
  match windowAt s p f.start with
  | some k =>
    match (portSlots s p)[k]? with
    | some e => if rxStalled s p then setPort s p { port s p with kept := (port s p).kept ++ [f] } else takeSlot s p k e f
    | none => s
  | none => s

/-- A kept forwarded frame is processed again (R61, R249). -/
def retakeFwd (p : Nat) (s : State) (f : RxFrame) : State :=
  let k := (portSlots s p).findIdx (fun e => e.kind == 0 && e.slot == fSlot f)
  match (portSlots s p)[k]? with
  | some e => if rxStalled s p then setPort s p { port s p with keptFwd := (port s p).keptFwd ++ [f] } else takeForwarded s p k e f
  | none => s

/-- The frames that a receive engine has kept while it was stalled are processed again (R61). -/
def retake (s : State) (p : Nat) : State :=
  if rxStalled s p then s
  else
    let x := port s p
    let s := if x.kept = [] ∧ x.keptFwd = [] then s else setPort s p { port s p with kept := [], keptFwd := [] }
    x.keptFwd.foldl (retakeFwd p) (x.kept.foldl (retakeOne p) s)

/-- STALL_RELEASE: room appears in a well or prefetch queue; stalled posters are served: delay lists, completion unit, receive engines in ascending port number (R60). -/
def execStallRelease (s : State) : Host.Outcome State Fault Refusal :=
  .next (
    let s := (List.range 30).foldl (fun s w => if poster s w = [] then s else drain s w) s
    (List.range 24).foldl retake s)

end Sys2Proof.Machine
end

