-- ==== Sys2Proof/Machine/Srst.lean ====
section
/-! DEFINITION. SRST: the soft reset of a page's block (R408). -/

namespace Sys2Proof.Machine

/-- The unit launches or follows CS (R408). -/
def csRuns (s : State) : Bool := s.lemac.launching || rd s Reg.LEMAC_PSTATE_STATE == 3

/-- Blocks whose soft reset is refused while the unit launches or follows CS. -/
def Blk.cyclic : Blk → Bool
  | .CLU => true | .CYC => true | .LE => true | .PORT => true | .LEMAC => true | .GUARD => true | .TIME => true | .PEER => true
  | .AXIS => true | .MOTION => true | .POINTS => true
  | _ => false

/-- The soft reset is refused (R408). -/
def srstRefused (s : State) (m : Master) (b : Blk) : Bool :=
  b == .PWR || b == .SEC || b == .AO || (b == .SAFE && m != .safetyProc) || (b.cyclic && csRuns s)

/-- Registers and lock of one page return to their reset values. -/
def resetPage (s : State) (p : Nat) : State :=
  { s with regs := s.regs.filter (fun e => e.1 / 0x1000 != p || outlives e.1), banked := s.banked.filter (fun e => e.1 % 2 ^ 24 / 0x1000 != p),
           lockSeq := s.lockSeq.filter (fun l => l.1 != p) }

/-- Soft reset of the scheduler: its counters and cycle-bound state; the delay lists are memory, and the clock gates belong to the clusters. -/
def resetCyc (s : State) : State :=
  let x := s.sched
  { s with sched := { intra := x.intra, inter := x.inter, gate := x.gate, clocked := x.clocked }, commit := none }

/-- Soft reset of a cluster's scheduling logic. -/
def resetClu (s : State) (c : Nat) : State :=
  let s := (List.range 4).foldl (fun s p => { s with sched := { s.sched with wells := tput (fun _ => []) s.sched.wells (c * 4 + p) [] } }) s
  let m := BitVec.ofNat 4 (2 ^ c)
  let x := s.sched
  { s with sched := { x with gate := x.gate &&& ~~~m, clocked := tdel c x.clocked, intraLeft := tdel c x.intraLeft } }

/-- Internal state of the block of page `p`, beside its registers and its memories (R408; log 43). -/
def resetBlock (s : State) (b : Blk) (i : Nat) : State :=
  match b with
  | .AGE =>
    let sg : SurgeSt := { usedH := s.surge.usedH, vdd := s.surge.vdd, target := s.surge.vdd }
    { s with surge := sg }
  | .CLU => resetClu s i
  | .CYC => resetCyc s
  | .LE => setEng s i {}
  | .PORT => setPort s i {}
  | .LEMAC => { s with lemac := { ports := s.lemac.ports } }
  | .GUARD =>
    let l := s.lemac
    { s with lemac := { l with drift := [], within := [], offs := [], offsPrev := [] }, time := { s.time with driftOut := [] } }
  | .TIME => { s with time := {} }
  | .PLANT => setPort { s with plants := tdel i s.plants } (24 + i) {}
  | .PEER => { s with pair := {} }
  | .AXIS => { s with axes := [] }
  | .MOTION => { s with mots := [], camPend := [], stops := [] }
  | .ENC => { s with encs := tdel i s.encs }
  | .EMU => { s with emus := [] }
  | .CAPT => { s with tts := [], capts := [] }
  | .FIO => redrive { s with field := { held := s.field.held, drive := s.field.drive } }
  | .SAFE => afterDom (dropBlocks s dSAFEA) dSAFEA
  | .CIST => { s with snapRun := none, snapLatch := [], casPend := [] }
  | .HOST => { s with dma := [] }
  | .ACQ => { s with acq := {} }
  | .CAN => { s with cans := tdel i s.cans }
  | .TEST => { s with tests := [] }
  | .SYS | .PWR | .AO | .SUMP | .POINTS | .BOOT | .SEC => s

/-- The soft reset of the block of page `p`: a warm reset for SYS, else registers and internal state (R408). Tests of the block's queue end first, as R400 ends them. -/
def softReset (s : State) (p : Nat) (b : Blk) (i : Nat) : State :=
  if b = .SYS then warmReset s 4
  else
    let s := if b = .TEST then s.tests.foldl engineBack s else s
    resetBlock (resetPage s p) b i

/-- SRST carried out, or refused and logged with cause 9. -/
def srstAct (s : State) (m : Master) (p : Nat) : State :=
  match blkOf p with
  | some (b, f) => if srstRefused s m b then errlog s p 9 m 8 else softReset s p b (p - f)
  | none => s

/-- SRST: PAGE_CTRL is written with SRST = 1 (R408). -/
def execSrst (m : Master) (page : BitVec 12) (w : W32) (s : State) : Host.Outcome State Fault Refusal :=
  .next (regAction s m (page.toNat * 0x1000 + 8) w (fun s => if bitOf 1 w.toNat then srstAct s m page.toNat else s))

end Sys2Proof.Machine
end

