-- ==== Sys2Proof/Machine/RegRead.lean ====
section
/-! DEFINITION. Reads of registers: the values that follow the state as it stands, latches, and reads that act (R13 to R17, R407, R412, R413). -/

namespace Sys2Proof.Machine

/-! ## Registers that show the state as it stands -/

/-- CLUn.IDLE, WELL and DLY (R68). -/
def liveClu (s : State) (c k o : Nat) : Option Nat :=
  if o = 0x48 then some (((List.range 16).map (fun i => b2n ((eng s (c * 16 + i)).ph == .idle) * 2 ^ i)).sum)
  else if 0x4C ≤ o ∧ o < 0x5C then some (setBits 9 0 (rdw s k) (well s c ((o - 0x4C) / 4)).length)
  else if o = 0x6C then some (tget (fun _ => ([] : List IntraEnt)) s.sched.intraLeft c).length
  else none

/-- STATE of LEn.STAT (R109); an engine in its DMA-in, or waiting at DONE or YIELD, reads 1 (DESIGN CHOICE, log 19: the rule does not say). -/
def leState (s : State) (e : Nat) : Nat :=
  match (eng s e).ph with
  | .idle => if withdrawn s e then 3 else 0
  | .saving | .restoring => 2
  | .fault => 4
  | .test => 5
  | .dmaIn | .running | .atDone | .atYield => 1

/-- LEn.STAT (R109). -/
def liveLe (s : State) (e o : Nat) : Option Nat :=
  if o = 0x44 then
    let x := eng s e
    some (x.task * 2 ^ 16 + x.prio * 2 ^ 14 + b2n x.resume.isSome * 2 ^ 7 + b2n (isPref s e) * 2 ^ 6 + leState s e)
  else none

/-- GUARD.OFS: the start offset of the selected entry in the previous cycle (R214). -/
def liveOfs (s : State) : Nat :=
  match (tget (fun _ => none) s.lemac.offsPrev (entKey (rd s Reg.GUARD_OFSEL_PORT) (rd s Reg.GUARD_OFSEL_ENTRY)) : Option Int) with
  | some d => unsgn 32 d
  | none => 0x80000000

/-- TIME.STAT, SYNC_DEV and SYNC_ID (R240). -/
def liveTime (s : State) (k o : Nat) : Option Nat :=
  let m := rd s Reg.TIME_SYNC_SEL_MEMBER
  if o = 0x60 then some (setBits 3 3 (setBits 6 6 (rdw s k) (b2n s.lemac.launching)) (b2n (upLocked s)))
  else if o = 0xA4 then
    some (match s.time.thetaAvg.find? (fun e => e.1 == m) with
      | some e => unsgn 32 (max (-(2 ^ 31 - 1)) (min (2 ^ 31 - 1) e.2))
      | none => 0x80000000)
  else if o = 0xA8 then
    some (if m < 2 then b2n (paired s || (s.time.sync.isSome && m == ownMember s)) * 2 ^ 31 else match memberStream s m with | some k => 2 ^ 31 + k / 2 ^ 11 * 2 ^ 16 + k % 2 ^ 11 | none => 0)
  else none

/-- AXIS.STATUS, LATE_ERR and STALE_ERR of the axis that SEL names (R147). -/
def liveAxis (s : State) (o : Nat) : Option Nat :=
  let a := rd s Reg.AXIS_SEL_AXIS
  let x := axis s a
  if o = 0x54 then
    some (x.lib.toNat * 2 ^ 16 + b2n x.chk * 32 + b2n x.act * 16 + b2n x.pend * 8 + b2n (on s (shedField a)) * 4 + b2n x.period * 2 + b2n x.num)
  else if o = 0x58 then some x.lateErr
  else if o = 0x5C then some x.staleErr
  else none

/-- MOTION.LEAD (R152). -/
def liveMotion (s : State) (o : Nat) : Option Nat := if o = 0x64 then some (motLead s) else none

/-- FMAP: the floats of 16 blocks of the selected slice (R331). -/
def liveFmap (s : State) (w : Nat) : Nat :=
  ((List.range 16).map (fun i => flt s (4096 * rd s Reg.CIST_FSEL_SLICE + 16 * w + i) * 4 ^ i)).sum

/-- PWR.STATE of eight domains (R367). -/
def livePwr (s : State) (d : Nat) : Nat := ((List.range 8).map (fun i => pstCode (dom s (d + i)).st * 16 ^ i)).sum

/-- AGE.REPLAN.HOURS: hours since the last successful plan (R386). -/
def planHours (s : State) : Nat := match s.surge.planAt with | some t => min 65535 ((rtcCount s / 10 ^ 9 - t) / 3600) | none => 0

/-- A register that shows the state as it stands, none where it reads what it holds. -/
def live (s : State) (k : Nat) : Option Nat :=
  let p := k / 0x1000
  let o := k % 0x1000
  match blkOf p with
  | some (.CLU, f) => liveClu s (p - f) k o
  | some (.LE, f) => liveLe s (p - f) o
  | some (.PORT, f) => if o = 0x4C then some (setBits 5 5 (rdw s k) (b2n (isOrigin s (p - f)))) else none
  | some (.GUARD, _) => if o = 0x4C then some (liveOfs s) else none
  | some (.TIME, _) => liveTime s k o
  | some (.AXIS, _) => liveAxis s o
  | some (.MOTION, _) => liveMotion s o
  | some (.CAPT, _) => if o < 0x140 ∧ o % 32 = 0xC then some (setBits 4 0 (rdw s k) (capt s ((o - 0x40) / 32)).fifo.length) else none
  | some (.CIST, _) => if 0x400 ≤ o ∧ o < 0x800 then some (liveFmap s ((o - 0x400) / 4)) else none
  | some (.PWR, _) => if o = 0x48 then some (livePwr s 0) else if o = 0x4C then some (livePwr s 8) else none
  | some (.AGE, _) => if o = 0x4C then some (setBits 31 16 (rdw s k) (planHours s)) else none
  | some (.CAN, f) => if 0x380 ≤ o ∧ o < 0x3D0 then some (canWinRead s (p - f) ((o - 0x380) / 4)) else none
  | _ => none

/-! ## Latches (R15, R17, R385, R413) -/

/-- The low word of a 64-bit counter: the key of its high word, and the count. -/
def lowWord (s : State) (k : Nat) : Option (Nat × Nat) :=
  if k = Reg.CYC_CYCLE_LO_COUNT.addr then some (Reg.CYC_CYCLE_HI_COUNT.addr, s.sched.cycle)
  else
    match blkOf (k / 0x1000) with
    | some (.ENC, f) =>
      let n := k / 0x1000 - f
      if k % 0x1000 = 0x80 then some ((Reg.ENC_POS_HI_COUNT n).addr, (enc s n).count.toNat) else none
    | some (.AO, _) =>
      let i := (k % 0x1000 - 0x68) / 12
      if k = (Reg.AO_TRK_LO_COUNT i).addr ∧ i < 2 then some ((Reg.AO_TRK_HI_COUNT i).addr, rd64 s (Reg.AO_TRK_LO_COUNT i) (Reg.AO_TRK_HI_COUNT i)) else none
    | _ => none

/-- The register reads a latch of the reading master. -/
def isBanked (k : Nat) : Bool :=
  k == Reg.CYC_CYCLE_HI_COUNT.addr || k == Reg.TIME_NOW_SEC_LO.addr || k == Reg.TIME_NOW_SEC_HI.addr || k == Reg.TIME_NOW_FRAC.addr ||
  k == Reg.PWR_RESULT.addr || k == Reg.CIST_CAS_RES.addr || k == Reg.AO_RTC_SEC_LO_SEC.addr || k == Reg.AO_RTC_SEC_HI_SEC.addr ||
  (List.range 2).any (fun i => k == (Reg.AO_TRK_HI_COUNT i).addr) || (List.range 8).any (fun n => k == (Reg.ENC_POS_HI_COUNT n).addr)

/-! ## Event conditions (R407) -/

/-- A W1C status field of the page, other than those of its header, is set. -/
def w1cSet (s : State) (p : Nat) : Bool :=
  match blkOf p with
  | some (b, _) =>
    (rowsOf b).any (fun r => r.acc == .w1c && (List.range r.cnt).any (fun i =>
      let k := p * 0x1000 + r.ofs + i * r.stride
      bits r.hi r.lo ((live s k).getD (rdw s k)) != 0))
  | none => false

/-- EVT_RAW: the conditions as they stand; events that are instants read 0. -/
def evtRaw (s : State) (p : Nat) : Nat :=
  b2n (on s (Reg.HDR_ERRLOG_VALID p)) + b2n (on s (Reg.HDR_PAGE_STAT_WRAP p) || on s (Reg.HDR_PAGE_STAT_SAT p)) * 2 + b2n (w1cSet s p) * 4 +
  (if p = 0 then b2n (on s bridgeFlag) * 16 else 0)

/-! ## Reads -/

/-- A window of the AXIS or MOTION page: the selected record (R147, R174). A channel past 1,055 has no record, and its words are free values. -/
def readWindow (s : State) (m : Master) (k : Nat) : Nat × State :=
  if k / 0x1000 = 0x80 then
    if winOpen s then
      let a := rd s Reg.AXIS_SEL_AXIS
      let x := axis s a
      (recWord s a (if on s Reg.AXIS_SEL_VIEW then b2n x.act else 1 - b2n x.act) ((k - 0x80100) / 4), s)
    else (allOnes, errlog s 0x80 7 m k)
  else
    let c := rd s Reg.MOTION_SEL_CH
    if 1055 < c then free s
    else
      let x := mot s c
      if k = Reg.MOTION_STATUS_MSTAT.addr then (b2n x.act * 1024 + b2n x.chk * 512 + b2n x.pend * 256 + x.mstat % 256, s)
      else (motWord s c (if on s Reg.MOTION_SEL_VIEW then b2n x.act else 1 - b2n x.act) ((k - 0x81100) / 4), s)

/-- The register is part of a window that SEL opens. -/
def isWindow (k : Nat) : Bool := (0x80100 ≤ k && k < 0x80300) || (0x81100 ≤ k && k < 0x81140) || k == 0x81074

/-- What HOST.LINK reads of a link whose training no command shows: up at one of the widths and generations that exist, or down (R331; log 2). -/
def linkOf (v : Nat) : Nat := if v % 2 = 0 then 0 else 2 ^ 8 + (v / 2 % 3 + 1) * 2 ^ 4 + (v / 8 % 2 + 1)

/-- A read of a register that can be reached: the value, and what the read itself does. -/
def regRead (s : State) (m : Master) (k : Nat) : Nat × State :=
  let p := k / 0x1000
  let o := k % 0x1000
  if rowsAt k = [] then (0, errlog s p 5 m k)
  else if o = 0x10 then (evtRaw s p, s)
  else if o = 0x20 then (rdw s k % 2, s)
  else if isWindow k then readWindow s m k
  else
    match lowWord s k with
    | some e => (e.2 % 2 ^ 32, bput s m e.1 (e.2 / 2 ^ 32))
    | none =>
      if isBanked k then (bget s m k, s)
      else if k = Reg.AO_RTC_SUB_SUB.addr then
        (rdw s k, bput (bput s m Reg.AO_RTC_SEC_LO_SEC.addr (rd s Reg.AO_RTC_SEC_LO_SEC)) m Reg.AO_RTC_SEC_HI_SEC.addr (rd s Reg.AO_RTC_SEC_HI_SEC))
      else if k = Reg.SEC_DBG_CHAL_CHAL.addr then
        let f := free s
        (f.1 % 2 ^ 32, { f.2 with boot := { f.2.boot with chal := f.1 % 2 ^ 32 } })
      else if k = Reg.HOST_LINK_UP.addr then let f := free s; (linkOf f.1, f.2)
      else ((live s k).getD (rdw s k), s)

/-- The state that a command leaves. -/
def after (o : Host.Outcome State Fault Refusal) (s : State) : State := match o with | .next t => t | _ => s

/-- A read of a 32-bit register by a bus master, by the row that has it where there is one. -/
def busRead (s : State) (m : Master) (k : Nat) : State :=
  if k = (Reg.SUMP_ENTRY_WORD 0).addr then after (execEntry0Read m s) s
  else if k = Reg.TIME_NOW_NS.addr then after (execNowNsRead m s) s
  else if k / 0x1000 = 0x99 ∧ k % 0x1000 < 0x140 ∧ k % 32 = 4 ∧ 0x40 ≤ k % 0x1000 then
    after (execCapturePop m (Fin.ofNat 8 ((k % 0x1000 - 0x44) / 32)) s) s
  else pageAccess s m k (.reg m (BitVec.ofNat 24 k) 4 .read) (fun s => let r := regRead s m k; answer r.2 r.1)

/-- COUNTER_LOW_READ: the low word of a 64-bit counter, whose high word is latched for the master (R17, R413). -/
def execCounterLowRead (m : Master) (addr : BitVec 24) (s : State) : Host.Outcome State Fault Refusal :=
  .next (busRead s m (addr.toNat - addr.toNat % 4))

end Sys2Proof.Machine
end

