-- ==== Sys2Proof/Machine/RegWrite.lean ====
section
/-! DEFINITION. Writes of registers: what a write does beside setting its fields, the rows that act, and accesses of the register pages as a master makes them (R12 to R17, R24, R370, R413). -/

namespace Sys2Proof.Machine

/-! ## Consequences of a plain write -/

/-- A completion edge written to a register: one that R43 refuses is a reserved code, logged, and reads as no edge (R12, R43). -/
def checkEdge (s : State) (m : Master) (k : Nat) : State := if edgeBad (rdw s k) then errlog (wrw s k 0) (k / 0x1000) 4 m k else s

/-- ROLE of a plant port's PTP is written (R234, R242): its state begins anew. -/
def ptpRole (was s : State) (n : Nat) : State :=
  let s := upstreamChange was s
  let r := rd s (Reg.PLANT_PTPCFG_ROLE n)
  if r = rd was (Reg.PLANT_PTPCFG_ROLE n) then s
  else wr { s with plants := tmod (fun _ => {}) s.plants n (fun x => { x with best := none }) } (Reg.PLANT_PTPSTAT_STATE n) (if r = 1 then 1 else if r = 2 then 3 else 0)

/-- PEER.CFG is written (R243, R245): RANK sets the unit's priming rank as the pair is configured, and EN = 0 ends the membership. -/
def peerCfg (was s : State) : State :=
  let r := rd s Reg.PEER_CFG_RANK
  let s := if r = rd was Reg.PEER_CFG_RANK ∧ (on was Reg.PEER_CFG_EN ∨ ¬ on s Reg.PEER_CFG_EN) then s else wr s Reg.LEMAC_RANK_RANK r
  if on was Reg.PEER_CFG_EN && !on s Reg.PEER_CFG_EN then
    wrs (wrw { setRole s rALONE with pair := { edges := s.pair.edges } } Reg.PEER_NREADY.addr 0)
      [(Reg.PEER_STAT_UNALIGNED, 0), (Reg.PEER_STAT_SWAPPEND, 0), (Reg.PEER_STAT_PEER_READY, 0), (Reg.PEER_STAT_READY, 0)]
  else s

/-- A write of the AO page goes with the next bridge frame as an AO request (R20, R24). -/
def aoRequest (s : State) (k w : Nat) : State := { s with bridge := { s.bridge with aoReq := s.bridge.aoReq ++ [(k, w)] } }

/-- What follows from a plain write of `w` at key `k`; `was` is the state before it. -/
def afterWrite (was s : State) (m : Master) (k w : Nat) : State :=
  let p := k / 0x1000
  let o := k % 0x1000
  match blkOf p with
  | some (.TIME, _) => if o = 0x40 then upstreamChange was s else s
  | some (.FIO, _) => if o = 0x90 then followOut s else if 0x50 ≤ o ∧ o < 0x90 then redrive s else s
  | some (.ENC, _) => if 0x70 ≤ o ∧ o < 0x80 then checkEdge s m k else s
  | some (.PEER, _) => if o = 0x40 then peerCfg was s else if 0x6C ≤ o ∧ o < 0x8C then checkEdge s m k else s
  | some (.CAPT, _) => if 0x140 ≤ o ∧ o < 0x1C0 ∧ o % 32 = 0 then ttIdle s ((o - 0x140) / 32) else s
  | some (.PLANT, f) =>
    let n := p - f
    if o = 0x40 then ptpRole was s n
    else if o = 0x60 then portEnable was s (24 + n) (Reg.PLANT_CFG_EN n)
    else if o = 0x68 then txRestart s (24 + n)
    else if o = 0x6C then rxRestart s (24 + n)
    else s
  | some (.PORT, f) =>
    let n := p - f
    if o = 0x40 then portEnable was s n (Reg.PORT_CTRL_EN n)
    else if o = 0x54 then txRestart s n
    else if o = 0x58 then rxRestart s n
    else s
  | some (.LE, f) => if o = 0x40 then holdLoad was s m (p - f) else s
  | some (.AO, _) => let s := aoRequest s k w; if o = 0x40 then showFull s else s
  | some (.CAN, f) => if o = 0x40 then canCtrlWrite s m (p - f) (on was (Reg.CAN_CTRL_EN (p - f))) (on was (Reg.CAN_CTRL_LISTEN (p - f))) else s
  | _ => s

/-! ## Registers whose write does not set fields -/

/-- The fields of a register that are not reserved. -/
def fieldMask (rows : List RegRow) : Nat := rows.foldl (fun v r => if r.acc = .rsv then v else setBits r.hi r.lo v (2 ^ 32 - 1)) 0

/-- AXIS.STATUS, LATE_ERR and STALE_ERR act on the axis that SEL names (R16, R147). -/
def axisStat (s : State) (o w : Nat) : State :=
  let a := rd s Reg.AXIS_SEL_AXIS
  let x := axis s a
  if o = 0x54 then setAxis s a { x with chk := x.chk && !bitOf 5 w, num := x.num && !bitOf 0 w }
  else if o = 0x58 then (if w % 65536 = 0 then setAxis s a { x with lateErr := 0 } else s)
  else (if w % 65536 = 0 then setAxis s a { x with staleErr := 0 } else s)

/-- MOTION.STATUS.CHK of the channel that SEL names (R174). -/
def motionStat (s : State) (w : Nat) : State :=
  let c := rd s Reg.MOTION_SEL_CH
  if bitOf 9 w && decide (c ≤ 1055) then setMot s c { mot s c with chk := false } else s

/-- The AO time registers: SEC_LO loads all three at the next RTC period (R385). -/
def rtcWrite (s : State) (k w : Nat) : State :=
  let a := s.ao
  if k = Reg.AO_RTC_SUB_SUB.addr then { s with ao := { a with rtcSub := w % 2 ^ 15 } }
  else if k = Reg.AO_RTC_SEC_HI_SEC.addr then { s with ao := { a with rtcHi := w % 2 ^ 16 } }
  else { s with ao := { a with rtcLoad := some (w + a.rtcHi * 2 ^ 32, a.rtcSub) } }

/-- A write of register `k` that is performed, with what it does beside setting fields; the rows that act are apart. -/
def pageWrite (s : State) (m : Master) (k w : Nat) : State :=
  let p := k / 0x1000
  let o := k % 0x1000
  let b := (blkOf p).map (fun x => x.1)
  if o < 0x40 then plainWrite s m k w
  else if b = some .SAFE ∧ m = .safetyProc then wrw s k (rdw s k - (rdw s k &&& fieldMask (rowsAt k)) + (w &&& fieldMask (rowsAt k)))
  else if acqConfig k ∧ acqState s ≠ aIDLE then errlog s p 7 m k
  else if b = some .CAN ∧ (o = 0x44 ∨ o = 0x48) ∧ on s (Reg.CAN_CTRL_EN (p - 0xC0)) then errlog s p 7 m k
  else if b = some .CAN ∧ 0x380 ≤ o ∧ o < 0x3D0 then canWinWrite s m (p - 0xC0) ((o - 0x380) / 4) w
  else if b = some .AO ∧ (o = 0x44 ∨ o = 0x48 ∨ o = 0x4C) then rtcWrite (aoRequest s k w) k w
  else
    let t := afterWrite s (clearCounts (plainWrite s m k w) k w) m k w
    if b = some .AXIS ∧ (o = 0x54 ∨ o = 0x58 ∨ o = 0x5C) then axisStat t o w
    else if k = Reg.MOTION_STATUS_MSTAT.addr then motionStat t w
    else t

/-! ## The rows that act on a register write -/

/-- A meaning of a row, as a register write brings it about. -/
abbrev Act := State → Host.Outcome State Fault Refusal

/-- The meanings of the bits of a written word that are set, in bit order. -/
def bitActs (w : W32) (l : List (Nat × Act)) : List Act := (l.filter (fun e => bitOf e.1 w.toNat)).map (fun e => e.2)

/-- The meaning that an OP names. -/
def opAct (op : Nat) (l : List (Nat × Act)) : List Act := (l.filter (fun e => e.1 == op)).map (fun e => e.2)

/-- The page header's rows (R407, R408, R410). The clock of a LOCK write that has no row of its own is a free value. -/
def headerActs (m : Master) (p o : Nat) (w : W32) : List Act :=
  let page := BitVec.ofNat 12 p
  if o = 0x08 then bitActs w [(1, execSrst m page w)]
  else if o = 0x1C then [execEvtSet m page w]
  else if o = 0x20 then [fun s => let f := free s; execLock m page w f.1 f.2]
  else []

/-- DMAc.CTRL: STOP takes effect after the current word, of which the descriptor's end tells (R336). -/
def dmaCtrlActs (m : Master) (c : Nat) (w : W32) : List Act :=
  let stop : Act := fun s =>
    .next (regAction s m (Reg.HOST_DMA_CTRL c).addr w (fun s => { s with dma := tmod (fun _ => {}) s.dma c (fun x => { x with stop := x.stop || on s (Reg.HOST_DMA_STAT_BUSY c) }) }))
  bitActs w [(0, execDmaGo m (Fin.ofNat 8 c) w), (1, stop)]

/-- Rows of the steward pages. -/
def stewardActs (m : Master) (k : Nat) (w : W32) : List Act :=
  if k = Reg.PWR_REQ_DOM.addr then [execPwrReq m w]
  else if k = Reg.PWR_CMD_STANDBY.addr then bitActs w [(0, execStandby m w)]
  else if k = Reg.SUMP_ACK.addr then [execAck m w]
  else if k = Reg.AGE_REPLAN.addr then bitActs w [(0, execReplan (.write m w))]
  else if k = Reg.AGE_SURGE_REQ.addr then [execSurgeReq m w]
  else if k = Reg.BOOT_HOSTIMG_BLOCK.addr then [execHostimg m w]
  else if k = Reg.BOOT_CMD_OP.addr then
    opAct (wbits Reg.BOOT_CMD_OP w)
      [(1, execClearJournal m w), (2, execReboot m w), (3, fun s => let f := free s; execStage m w (f.1 % 2 == 1) f.2), (4, execSelect m w), (5, execCommitVer m w)]
  else if k = Reg.TEST_REQ_KIND.addr then
    opAct (wbits Reg.TEST_REQ_KIND w)
      [(1, execTestEngine m w), (2, execTestCistbank m w), (3, execTestScrub m w), (4, execTestEyescan m w), (5, execTestSdscal m w),
       (6, execTestPortloop m w), (7, execTestCan m w), (8, execTestEncoder m w), (9, execTestOffline m w)]
  else []

/-- Rows of the cycle, engine, port, network and pair pages. -/
def netActs (m : Master) (k : Nat) (w : W32) : List Act :=
  let p := k / 0x1000
  let o := k % 0x1000
  match blkOf p with
  | some (.CLU, f) => if o = 0x44 then [execWithdrawWrite m (Fin.ofNat 4 (p - f)) w] else []
  | some (.CYC, _) =>
    if o = 0x50 then [execCommitRequest m w]
    else if 0x80 ≤ o ∧ o < 0x100 then [execShedMapWrite m (Fin.ofNat 32 ((o - 0x80) / 4)) w]
    else if o = 0x100 then opAct (wbits Reg.CYC_GCMD_OP w) [(1, execGinstall m w), (2, execLoadimem m w)]
    else []
  | some (.LE, f) => if o = 0x40 then bitActs w [(0, execClrFault m (Fin.ofNat 64 (p - f)) w)] else []
  | some (.PORT, f) => if o = 0x40 then bitActs w [(4, execReopen m (Fin.ofNat 24 (p - f)) w)] else []
  | some (.LEMAC, _) =>
    if o = 0x60 then bitActs w [(31, execRestart m w)]
    else if o = 0x6C then opAct (wbits Reg.LEMAC_CMD_OP w) [(1, execInstall m w), (2, execClear m w)]
    else if o = 0x7C then bitActs w [(0, execSwapReq m w)]
    else if o = 0x88 then bitActs w [(0, execClashClr m w)]
    else []
  | some (.TIME, _) =>
    if o = 0x84 then bitActs w [(0, execStepAccept m w), (1, execStepCancel m w)]
    else if o = 0x94 then bitActs w [(0, execSet m w)]
    else []
  | some (.PEER, _) => if o = 0x44 then opAct (wbits Reg.PEER_CMD_OP w) [(1, execSwap m w), (2, execSwapCancel m w), (3, execJoin m w)] else []
  | some (.AXIS, _) =>
    if o = 0x44 then opAct (wbits Reg.AXIS_CMD_OP w) [(1, execAxisLoad m w), (2, execMark m w), (3, execNotch m w)]
    else if o = 0x50 then [execAxisAreaWrite m w]
    else if 0x100 ≤ o ∧ o < 0x300 then [execAxisWindowWrite m (Fin.ofNat 128 ((o - 0x100) / 4)) w]
    else []
  | some (.MOTION, _) =>
    if o = 0x44 then
      opAct (wbits Reg.MOTION_CMD_OP w)
        [(1, execMoveAbs m w), (2, execMoveRel m w), (3, execSpeed m w), (4, execGear m w), (5, execCam m w), (6, execFree m w),
         (7, execSuper m w), (8, execGroupGo m w), (9, execReregShift m w), (10, execReregMove m w), (15, execMotionLoad m w)]
    else if o = 0x68 then [execStop m w]
    else if o = 0x6C then bitActs w [(0, execHalt m w)]
    else if o = 0x70 then [execStopClr m w]
    else if 0x100 ≤ o ∧ o < 0x140 then [execMotionWindowWrite m (Fin.ofNat 16 ((o - 0x100) / 4)) w]
    else if 0x200 ≤ o ∧ o < 0x300 then [execCamTableWrite m (Fin.ofNat 64 ((o - 0x200) / 4)) w]
    else []
  | _ => []

/-- Rows of the feedback, field, cistern, host, acquisition and CAN pages. -/
def edgeActs (m : Master) (k : Nat) (w : W32) : List Act :=
  let p := k / 0x1000
  let o := k % 0x1000
  match blkOf p with
  | some (.ENC, f) =>
    let n : Fin 8 := Fin.ofNat 8 (p - f)
    if o = 0x60 then bitActs w [(0, execEncClr m n w), (1, execZarm m n w), (2, execEncLoad m n w)] else []
  | some (.CAPT, _) => if 0x140 ≤ o ∧ o < 0x1C0 ∧ o % 32 = 0 then bitActs w [(5, execTtArm m (Fin.ofNat 4 ((o - 0x140) / 32)) w)] else []
  | some (.FIO, _) =>
    if o = 0x94 then bitActs w [(9, execRearm m w)]
    else if 0x9C ≤ o ∧ o ≤ 0xA4 then [execDiagClear m (Fin.ofNat 3 ((o - 0x9C) / 4)) w]
    else []
  | some (.CIST, _) =>
    if o = 0x40 then [execCas m w] else if o = 0x64 then bitActs w [(0, execSnapGo m w)] else []
  | some (.HOST, _) => if 0x100 ≤ o ∧ o < 0x200 ∧ o % 32 = 0 then dmaCtrlActs m ((o - 0x100) / 32) w else []
  | some (.ACQ, _) =>
    if o = 0x80 then bitActs w [(0, execAcqArm m w), (1, execAcqStop m w), (2, execForce m w), (3, execExportRec m w)]
    else if o = 0x94 then [execRelease m w]
    else []
  | some (.CAN, f) =>
    let n : Fin 4 := Fin.ofNat 4 (p - f)
    let t : Fin 32 := Fin.ofNat 32 ((o - 0x100) / 4)
    if o = 0x40 then bitActs w [(3, execRecover m n w)]
    else if o = 0x50 then [execBsel m n w]
    else if o = 0x54 then [execRxrel m n w]
    else if 0x100 ≤ o ∧ o < 0x180 then bitActs w [(0, execCanTxReq m n t w), (1, execCanCancel m n t w), (2, execCanClr m n t w)]
    else []
  | _ => []

/-- The rows that a write of register `k` sets off. -/
def acts (m : Master) (k : Nat) (w : W32) : List Act :=
  if k % 0x1000 < 0x40 then headerActs m (k / 0x1000) (k % 0x1000) w else stewardActs m k w ++ netActs m k w ++ edgeActs m k w

/-- A write of a 32-bit register by a bus master: the rows that have it, or the plain write. -/
def busWrite (s : State) (m : Master) (k : Nat) (w : W32) : State :=
  match acts m k w with
  | [] => pageAccess s m k (.reg m (BitVec.ofNat 24 k) 4 (.write w)) (fun s => pageWrite s m k w.toNat)
  | l =>
    if reachable s (k / 0x1000) then l.foldl (fun s f => after (f s) s) s
    else pageAccess s m k (.reg m (BitVec.ofNat 24 k) 4 (.write w)) (fun s => s)

/-! ## Accesses of the register pages -/

/-- An access of any width or alignment: only aligned 32-bit ones are performed (R14). -/
def busAccess (s : State) (m : Master) (a size : Nat) (acc : WordAcc) : State :=
  if size = 4 ∧ a % 4 = 0 then
    match acc with
    | .read => busRead s m a
    | .write w => busWrite s m a w
  else pageAccess s m a (.reg m (BitVec.ofNat 24 a) size acc) (fun s =>
    let s := errlog s (a / 0x1000) 1 m a
    match acc with
    | .read => answer s allOnes
    | .write _ => s)

/-- REGISTER_WRITE: an access of a register page (R12 to R14, R370, R412); a read answers the register. -/
def execRegisterWrite (m : Master) (addr : BitVec 24) (size : Nat) (acc : WordAcc) (s : State) : Host.Outcome State Fault Refusal :=
  .next (busAccess s m addr.toNat size acc)

/-- BRIDGE_PAGE_ACCESS: an access of the FIO or AO page, carried over the bridge; it is complete, or in effect, within 10 µs (R24). -/
def execBridgePageAccess (m : Master) (addr : BitVec 24) (acc : WordAcc) (s : State) : Host.Outcome State Fault Refusal :=
  .next (busAccess s m addr.toNat 4 acc)

/-- A host read of `n` bytes of the acquisition buffer (R33). -/
def acqRead (s : State) (addr : W32) (n : Nat) : State := answer s (mnum s addr.toNat n)

/-- An access that a wake held up is performed. -/
def resume (s : State) : Access → State
  | .reg m a n acc => busAccess s m a.toNat n acc
  | .cist m w acc => after (execCisternAccess m w acc s) s
  | .lock m p w clk => after (execLock m p w clk s) s
  | .acq a n => acqRead s a n

/-- STALLED_ACCESS_RESUME: the oldest access stalled for a domain that has reached ON (R370). -/
def execStalledAccessResume (d : Fin 16) (s : State) : Host.Outcome State Fault Refusal :=
  .next (
    if domOn s d then
      match s.stalled.find? (fun x => x.dom == d.val) with
      | some x => resume { s with stalled := s.stalled.erase x } x.acc
      | none => s
    else s)

/-- ACQ_BUFFER_WRITE: a host write through BAR4 is discarded and logged, after a wake where AUTOWAKE of CIST raises one (R33, R332, R370). The stall of the write itself shows nowhere. DESIGN CHOICE: the entry has cause 2, a write to what is read only, and the low 12 bits of the buffer address as OFFSET (log 47). -/
def execAcqBufferWrite (addr : BitVec 21) (s : State) : Host.Outcome State Fault Refusal :=
  .next (
    if domOn s dHOST then
      if domOn s dCIST then errlog s 0xB1 2 .host addr.toNat
      else if wakes s dCIST 0xB0 then
        let r := autoWake s dCIST
        if r.2 then errlog r.1 0xB1 2 .host addr.toNat else logUnreachable r.1 .host addr.toNat
      else logUnreachable s .host addr.toNat
    else s)

end Sys2Proof.Machine
end

