-- ==== Sys2Proof/Machine/Internal.lean ====
section
/-! DEFINITION. The internal address space: INTERNAL_ACCESS, and the DMA engine's transfers (R7, R31, R32, R325, R334, R336, R370). -/

namespace Sys2Proof.Machine

/-! ## The map (R31) -/

/-- The regions of R31, with the instance that an address names. -/
inductive Region where
  | rom | ret | sump | pbuf (p : Nat) | cist | acq | points | descs | pages | clm (c : Nat) | le (e : Nat)
  deriving DecidableEq, Repr

/-- The region of an address, and the address after its end; none where nothing is mapped. -/
def region (a : Nat) : Option (Region × Nat) :=
  if a < 0x10000 then some (.rom, 0x10000)
  else if 0x10000000 ≤ a ∧ a < 0x10001000 then some (.ret, 0x10001000)
  else if 0x10010000 ≤ a ∧ a < 0x10020000 then some (.sump, 0x10020000)
  else if 0x12000000 ≤ a ∧ a < 0x120C0000 then let p := (a - 0x12000000) / 0x8000; some (.pbuf p, 0x12000000 + (p + 1) * 0x8000)
  else if 0x20000000 ≤ a ∧ a < 0x20800000 then some (.cist, 0x20800000)
  else if 0x21000000 ≤ a ∧ a < 0x21200000 then some (.acq, 0x21200000)
  else if 0x30000000 ≤ a ∧ a < 0x30800000 then some (.points, 0x30800000)
  else if 0x30800000 ≤ a ∧ a < 0x30C00000 then some (.descs, 0x30C00000)
  else if 0x40000000 ≤ a ∧ a < 0x41000000 then some (.pages, 0x41000000)
  else if 0x50000000 ≤ a ∧ a < 0x50100000 then let c := (a - 0x50000000) / 0x40000; some (.clm c, 0x50000000 + (c + 1) * 0x40000)
  else if 0x60000000 ≤ a ∧ a < 0x60200000 then let e := (a - 0x60000000) / 0x8000; some (.le e, 0x60000000 + (e + 1) * 0x8000)
  else none

/-- The master reaches the region (R31). -/
def canReach (m : Master) (r : Region) : Bool :=
  match m with
  | .steward0 | .steward1 => true
  | .safetyProc => r == .ret || r == .points || r == .pages || r == .cist
  | .dmaEngine => r == .acq || r == .pages || r == .cist
  | .cluDma _ => r == .cist || r == .points || r == .descs || (match r with | .clm _ => true | _ => false)
  | .receive | .transmit | .acq | .snapshot => r == .cist
  | .host | .diagPort | .device => false

/-- The region is read only (R31, R440). -/
def Region.readOnly : Region → Bool
  | .rom => true | .pbuf _ => true | .acq => true | .descs => true
  | _ => false

/-- Power domain of a region (R29, R363); retention RAM is reached over the bridge. -/
def Region.dom : Region → Nat
  | .rom | .ret | .sump | .pages => dSTEWARD
  | .pbuf p => dPort p
  | .cist | .acq => dCIST
  | .points | .descs => dNET
  | .clm c => dCLU c
  | .le e => dCLU (e / 16)

/-- The stewards may write an engine's memory: LOAD_EN, withdrawn and idle (R71, R109). -/
def leWritable (s : State) (e : Nat) : Bool := on s (Reg.LE_CTRL_LOAD_EN e) && withdrawn s e && (eng s e).ph == .idle

/-- The access is refused under R32: unmapped, not the master's, past the region's end, or a write of what it may not write. -/
def refused (s : State) (m : Master) (a n : Nat) (wr : Bool) : Bool :=
  match region a with
  | none => true
  | some (r, fin) => !canReach m r || decide (fin < a + n) || (wr && r.readOnly) || (wr && (match r with | .le e => !leWritable s e | _ => false))

/-! ## Reads -/

/-- Byte `a` of a region other than the cistern and the register pages. -/
def regionByte (s : State) (r : Region) (a : Nat) : Byte :=
  match r with
  | .rom => Config.bootRom a
  | .points => BitVec.ofNat 8 (ptVal s ((a - 0x30000000) / 8) / 256 ^ (a % 8))
  | _ => mget s a

/-- `n` bytes from `a`, as a number, lowest address first. -/
def regionRead (s : State) (r : Region) (a n : Nat) : Nat := leNat ((List.range n).map (fun i => regionByte s r (a + i)))

/-- The words that `n` bytes from `a` lie in. -/
def wordsOf (a n : Nat) : List Nat := if n = 0 then [] else (List.range ((a + n - 1) / 4 + 1 - a / 4)).map (fun i => a / 4 + i)

/-- Read cistern words one by one (R325). -/
def cistReads (s : State) (m : Master) : List Nat → List Byte × State
  | [] => ([], s)
  | w :: r =>
    let f := cistRead s (ownerClass m) (mcode m) w
    let g := cistReads f.2 m r
    (leBytes 4 f.1 ++ g.1, g.2)

/-- A read that is performed: the value, lowest address first. Descriptor bits [31:1] are free values (R440; log 2), and so is what a port buffer holds, whose layout the spec does not give (R29; log 15). -/
def internalRead (s : State) (m : Master) (r : Region) (a n : Nat) : Nat × State :=
  match r with
  | .cist =>
    let o := a - 0x20000000
    let f := cistReads s m (wordsOf o n)
    (leNat ((f.1.drop (o % 4)).take n), f.2)
  | .descs =>
    let f := free s
    let v : Byte := BitVec.ofNat 8 f.1
    (leNat ((List.range n).map (fun i =>
      if (a + i) % 4 = 0 then BitVec.ofNat 8 (b2n (ptStale f.2 ((a + i - 0x30800000) / 4)) + f.1 / 256 % 128 * 2) else v)), f.2)
  | .pbuf _ => let f := free s; (f.1 % 256 ^ n, f.2)
  | r => (regionRead s r a n, s)

/-! ## Writes -/

/-- Write bytes to cistern words, each word checked by itself (R325). -/
def cistWrites (s : State) (m : Master) (o : Nat) (bytes : List Byte) : State :=
  (wordsOf o bytes.length).foldl (fun s w =>
    let v := leNat ((List.range 4).map (fun i =>
      let b := 4 * w + i
      if o ≤ b ∧ b < o + bytes.length then bytes.getD (b - o) 0 else mget s (cistAddr b)))
    cistWrite s (ownerClass m) (mcode m) w v) s

/-- Write bytes to points, each byte under the guards of R7 and R190; a value written is current (R440). -/
def pointWrites (s : State) (m : Master) (a : Nat) (bytes : List Byte) : State :=
  ((wordsOf a bytes.length).map (fun w => w / 2)).dedup.foldl (fun s q =>
    let p := q - 0x30000000 / 8
    ptGuard s (mcode m) p (fun s =>
      let v := (List.range 8).map (fun i =>
        let b := 8 * q + i
        if a ≤ b ∧ b < a + bytes.length then bytes.getD (b - a) 0 else mget s b)
      wrPt s p (leNat v) false)) s

/-- A write that is performed. -/
def internalWrite (s : State) (m : Master) (r : Region) (a : Nat) (bytes : List Byte) : State :=
  match r with
  | .cist => cistWrites s m (a - 0x20000000) bytes
  | .points => pointWrites s m a bytes
  | _ => mwrite s a bytes

/-! ## INTERNAL_ACCESS -/

/-- Number of bytes of an access. -/
def MemAcc.size : MemAcc → Nat
  | .read n => n
  | .write b => b.length

/-- The access writes. -/
def MemAcc.isWrite : MemAcc → Bool
  | .read _ => false
  | .write _ => true

/-- The host's access through BAR4 to the acquisition buffer: reads are performed, writes are discarded and logged (R33, R332). -/
def bar4 (s : State) (addr : W32) (acc : MemAcc) : State :=
  match acc with
  | .read n => if domOn s dHOST then domAccess s .host dCIST 0xB0 addr.toNat (.acq addr n) (fun s => acqRead s addr n) else s
  | .write _ => after (execAcqBufferWrite (BitVec.ofNat 21 addr.toNat) s) s

/-- INTERNAL_ACCESS: an internal master's access is performed, answered for a domain that is not ON, or refused and logged; the host reads the acquisition buffer through BAR4 (R7, R31 to R33, R370). -/
def execInternalAccess (m : Master) (addr : W32) (acc : MemAcc) (s : State) : Host.Outcome State Fault Refusal :=
  .next (
    let a := addr.toNat
    let n := MemAcc.size acc
    let w := MemAcc.isWrite acc
    if m = .host ∧ 0x21000000 ≤ a ∧ a + n ≤ 0x21200000 then bar4 s addr acc
    else if refused s m a n w then
      let s := badAccess s m a
      if w then s else answer s allOnes
    else
      match region a with
      | none => s
      | some (.pages, _) =>
        busAccess s m (a - 0x40000000) n (match acc with | .read _ => .read | .write b => .write (BitVec.ofNat 32 (leNat b)))
      | some (r, _) =>
        if domOn s r.dom then
          match acc with
          | .read n => let f := internalRead s m r a n; answer f.2 f.1
          | .write b => internalWrite s m r a b
        else
          let s := logUnreachable s m a
          if w then s else answer s allOnes)

/-! ## The DMA engine (R334, R336) -/

/-- A word of the internal side is refused, by region or by float (R32, R325, R334). -/
def dmaRefused (s : State) (a : Nat) (wr : Bool) : Bool :=
  refused s .dmaEngine a 4 wr ||
  (match region a with
   | some (.cist, _) =>
     let b := blk s ((a - 0x20000000) / 256)
     domOn s dCIST && (if wr then b.flt.toNat != 1 else b.priv && b.flt.toNat != 1)
   | _ => false)

/-- One word read by the DMA engine. -/
def dmaRead (s : State) (a : Nat) : Nat × State :=
  let t := after (execInternalAccess .dmaEngine (BitVec.ofNat 32 a) (.read 4) s) s
  (((t.resp).map BitVec.toNat).getD 0, { t with resp := s.resp })

/-- One word written by the DMA engine. -/
def dmaWrite (s : State) (a : Nat) (b : List Byte) : State :=
  { after (execInternalAccess .dmaEngine (BitVec.ofNat 32 a) (.write b) s) s with resp := s.resp }

/-- Move up to `n` words between internal address `a` and the host: the state, the bytes that go to the host, and whether a word was refused. The refused word's own logging happens with it. -/
def moveWords (s : State) (out : Bool) (a : Nat) (data : List Byte) : Nat → State × List Byte × Bool
  | 0 => (s, [], false)
  | n + 1 =>
    if dmaRefused s a (!out) then
      if out then ((dmaRead s a).2, [], true) else (dmaWrite s a (data.take 4), [], true)
    else if out then
      let f := dmaRead s a
      let r := moveWords f.2 out (a + 4) data n
      (r.1, leBytes 4 f.1 ++ r.2.1, r.2.2)
    else moveWords (dmaWrite s a (data.take 4)) out (a + 4) (data.drop 4) n

/-- DIR of a descriptor: internal to host. -/
def DmaDesc.out (d : DmaDesc) : Bool := bitOf 24 d.word3.toNat
/-- Length of a descriptor in words. -/
def DmaDesc.words (d : DmaDesc) : Nat := bits 23 0 d.word3.toNat / 4

/-- Move `n` words of a descriptor of channel `c`: the state, and whether a word was refused. -/
def moveDesc (s : State) (c : Nat) (d : DmaDesc) (data : List Byte) (n : Nat) : State × Bool :=
  let r := moveWords s (DmaDesc.out d) d.intAddr.toNat data n
  (if r.2.1 = [] then r.1 else emit r.1 (.dmaData c d.hostAddr.toNat r.2.1), r.2.2)

/-- The channel stops; a stop raises its vector (R334). -/
def dmaStopped (s : State) (c : Nat) : State :=
  sendVec (clrBusy { s with dma := tdel c s.dma } (Reg.HOST_DMA_STAT_BUSY c)) (16 + c)

/-- The chain stops on an error: status 1 or 2 is written back, and ERR is set (R334). -/
def dmaFail (s : State) (c : Nat) (d : DmaDesc) (status : Nat) : State :=
  let ptr := (tget (fun _ => ({} : DmaCh)) s.dma c).ptr
  dmaStopped (setSticky (emit s (.dmaStatus c ptr d.word3.toNat status)) (Reg.HOST_DMA_STAT_ERR c)) c

/-- A descriptor is complete: DONE and status 0 are written back, and the chain goes on or ends (R334). -/
def dmaDone (s : State) (c : Nat) (d : DmaDesc) : State :=
  let w := d.word3.toNat
  let ptr := (tget (fun _ => ({} : DmaCh)) s.dma c).ptr
  let s := incCnt (emit s (.dmaStatus c ptr (putBit 31 true w) 0)) (Reg.HOST_DMA_DONE_CNT c)
  let s := if bitOf 26 w then
      clrBusy (setSticky { s with dma := tdel c s.dma } (Reg.HOST_DMA_STAT_DONE c)) (Reg.HOST_DMA_STAT_BUSY c)
    else
      let p := d.next.toNat
      { s with dma := tput (fun _ => {}) s.dma c { ptr := p - p % 32 } }
  if bitOf 25 w then sendVec s (16 + c) else s

/-- DMA_DESCRIPTOR_COMPLETE: the descriptor at the channel's pointer ends: complete, refused, cut off by PCIe, or stopped after the word in progress (R334, R336). `data` holds the words that came from the host; on a PCIe error or a stop, as many as had been moved in either direction. -/
def execDmaDescriptorComplete (c : Fin 8) (d : DmaDesc) (data : List Byte) (pcieErr : Bool) (s : State) : Host.Outcome State Fault Refusal :=
  .next (
    if domOn s dHOST && on s (Reg.HOST_DMA_STAT_BUSY c) then
      let stop := (tget (fun _ => ({} : DmaCh)) s.dma c).stop
      let part := pcieErr || stop
      let n := if part || !(DmaDesc.out d) then min (DmaDesc.words d) (data.length / 4) else (DmaDesc.words d)
      let r := moveDesc s c d data n
      if r.2 then dmaFail r.1 c d 1
      else if pcieErr then dmaFail r.1 c d 2
      else if stop then dmaStopped r.1 c
      else dmaDone r.1 c d
    else s)

/-- DMA_STOP: the channel stops after its current word, `n` words of the descriptor in progress having been moved (R336). -/
def execDmaStop (m : Master) (c : Fin 8) (w : W32) (d : DmaDesc) (data : List Byte) (n : Nat) (s : State) : Host.Outcome State Fault Refusal :=
  .next (regAction s m (Reg.HOST_DMA_CTRL c).addr w (fun s =>
    if wbits (Reg.HOST_DMA_CTRL_STOP c) w = 1 ∧ on s (Reg.HOST_DMA_STAT_BUSY c) then
      let k := min n (DmaDesc.words d)
      let r := moveDesc s c d data (if (DmaDesc.out d) then k else min k (data.length / 4))
      if r.2 then dmaFail r.1 c d 1 else dmaStopped r.1 c
    else s))

end Sys2Proof.Machine
end

