-- ==== Sys2Proof/Machine/Mirror.lean ====
section
/-! DEFINITION. MIRROR_RECORD_RECEIVE: digests, management items and status of the other unit (R222, R248, R251, R252, R254 to R257). -/

namespace Sys2Proof.Machine

/-! ## Digests at the standby (R251) -/

/-- The cycle of the standby to which the active's record belongs, none where the standby no longer holds it. -/
def cycleOf (s : State) (n : Nat) : Option LastCyc :=
  if n = s.sched.cycle then some ⟨n, s.lemac.sent, s.lemac.nulls, s.lemac.rxMiss, s.pair.imgMiss, s.sched.ran⟩
  else if n = s.pair.last.cycle then some s.pair.last
  else none

/-- RXMISS words of the ports that serve a segment. -/
def missOf (s : State) (seg : Nat) (l : List W32) : List W32 := l.filter (fun w => portSeg s (bits 28 24 w.toNat) == seg)

/-- One digest of the active against the standby's values. -/
def digestCheck (s : State) (own : LastCyc) (rxMiss : List W32) (nulls : List (BitVec 12)) (d : BitVec 5 × W64 × BitVec 16) : State :=
  let seg := d.1.toNat
  let ids := (segEntries s seg).filter (fun i => !nulls.contains (BitVec.ofNat 12 i))
  if ids.any (fun i => own.nulls.contains i) then incCnt s Reg.PEER_SKIP_CNT_COUNT
  else if own.imgMiss ∨ missOf s seg rxMiss ≠ missOf s seg (rxMissWords s own.rxMiss) then inputDifference (incCnt s Reg.PEER_SKIP_CNT_COUNT) seg (segChans s seg)
  else if digestOf own.sent ids = d.2.1 ∧ BitVec.ofNat 16 ids.length = d.2.2 then s
  else shadowMismatch s 1 seg 0xFFF (segChans s seg) own.ran

/-! ## Management items at the standby (R256) -/

/-- An argument register of an item. -/
def argOf (l : List (BitVec 24 × W32)) (k : Nat) : Nat := (((l.find? (fun e => e.1.toNat == k)).map (fun e => e.2.toNat))).getD 0

/-- The boundary that an item names, none where it names none (R256). -/
def itemDue (s : State) : MItem → Option Nat
  | .block _ _ _ _ _ => none
  | .plan _ due _ => some due
  | .write n k w l =>
    let a := k.toNat
    if a = Reg.CYC_COMMIT_AT_LO.addr then some (w.toNat + 2 ^ 32 * argOf l Reg.CYC_COMMIT_AT_HI.addr)
    else if a = Reg.LEMAC_SWAP.addr then some (argOf l Reg.LEMAC_SWAP_AT_LO_CYCLE.addr + 2 ^ 32 * argOf l Reg.LEMAC_SWAP_AT_HI_CYCLE.addr)
    else if a = Reg.TIME_STEP_CMD.addr then some (argOf l Reg.TIME_STEP_AT_LO.addr + 2 ^ 32 * argOf l Reg.TIME_STEP_AT_HI.addr)
    else if a = Reg.PEER_CMD_OP.addr then some (argOf l Reg.PEER_SWAP_AT_LO_CYCLE.addr + 2 ^ 32 * argOf l Reg.PEER_SWAP_AT_HI_CYCLE.addr)
    else if a = Reg.MOTION_CMD.addr ∧ wbits Reg.MOTION_CMD_OP w ≠ 15 then
      let t := argOf l Reg.MOTION_CMD_AT_LO.addr + 2 ^ 32 * argOf l Reg.MOTION_CMD_AT_HI.addr
      some (if t = 0 then n + motLead s else t)
    else if a = Reg.MOTION_STOP.addr ∨ a = Reg.MOTION_HALT.addr then some (n + 2)
    else if a = Reg.MOTION_STOP_CLR.addr ∨ (Reg.CYC_SHED_MAP 0).addr ≤ a ∧ a ≤ (Reg.CYC_SHED_MAP 31).addr then some (n + 1)
    else none

/-- A register write repeated as the active performed it: with its argument registers, in its cycle (R256). -/
def repeatWrite (s : State) (n k : Nat) (w : W32) (l : List (BitVec 24 × W32)) : State :=
  let keep := l.map (fun e => (e.1.toNat, rdw s e.1.toNat))
  let now := s.sched.cycle
  let s := l.foldl (fun s e => wrw s e.1.toNat e.2.toNat) s
  let s := busWrite { s with sched := { s.sched with cycle := n } } .steward0 k w
  keep.foldl (fun s e => wrw s e.1 e.2) { s with sched := { s.sched with cycle := now } }

/-- A command that starts an installation is repeated; one that does not begin here is answered at once (R256; log 40). -/
def repeatInstall (s : State) (n k : Nat) (w : W32) (l : List (BitVec 24 × W32)) : State :=
  if k = Reg.CYC_GCMD.addr then
    if wbits Reg.CYC_GCMD_OP w = 2 then peerLoad s w
    else let s := repeatWrite s n k w l; if s.sched.gcmd.isNone then ackPeer s 1 else s
  else let s := repeatWrite s n k w l; if s.lemac.inst.isNone then ackPeer s 0 else s

/-- A proof swap that the active has accepted or withdrawn (R256, R265). -/
def repeatSwap (s : State) (w : W32) (l : List (BitVec 24 × W32)) : State :=
  let n := argOf l Reg.PEER_SWAP_AT_LO_CYCLE.addr + 2 ^ 32 * argOf l Reg.PEER_SWAP_AT_HI_CYCLE.addr
  { s with pair := { s.pair with swapDue := if wbits Reg.PEER_CMD_OP w = 1 then some n else none } }

/-- MANAGEMENT_ITEM_APPLY (R256): one item of a record, or the count of a late one. -/
def applyItem (s : State) (i : MItem) : State :=
  let late := match itemDue s i with | some d => decide (d ≤ s.sched.cycle) | none => false
  if late then itemLate s
  else
    match i with
    | .block b own priv at_ bytes => putBlock s b.toNat own.toNat priv at_ bytes
    | .plan c due z => takePlan s c due z
    | .write n k w l =>
      if k.toNat = Reg.PEER_CMD_OP.addr then repeatSwap s w l
      else if startsInstall i then repeatInstall s n k.toNat w l
      else repeatWrite s n k.toNat w l

/-! ## The records (R255) -/

/-- The active's record at the standby: its digests from the cycle in which shadowing started, and its items, which a joining unit takes as well (R251, R256, R264). -/
def takeActive (s : State) (n : Nat) (rxMiss : List W32) (nulls : List (BitVec 12)) (ds : List (BitVec 5 × W64 × BitVec 16)) (items : List MItem) : State :=
  let s := match cycleOf s n with
    | some own => if role s = rSTANDBY ∧ s.pair.shadowFrom ≤ n then ds.foldl (fun s d => digestCheck s own rxMiss nulls d) s else s
    | none => s
  items.foldl applyItem { s with pair := { s.pair with recNow := true, peerRole := rACTIVE } }

/-- The standby's mismatch reports at the active: three within 1,000 cycles that no test explains are logged (R254). -/
def takeReports (s : State) (ws : List W32) (faulted : Bool) : State :=
  let l := (s.pair.peerMm ++ ws.map (fun _ => s.sched.cycle)).filter (fun c => decide (s.sched.cycle < c + 1000))
  let due := s.pair.peerMmDue || decide (3 ≤ l.length)
  if faulted ∧ due then post { s with pair := { s.pair with peerMm := [], peerMmDue := false } } 0x2005 2 l.length
  else { s with pair := { s.pair with peerMm := l, peerMmDue := due } }

/-- The standby's record at the active (R222, R248, R254, R257). -/
def takeStandby (s : State) (n : Nat) (theta : Option W64) (r : Nat) (nready : Nat) (unal : List Nat) (ws : List W32) (pts : List PtImage) : State :=
  let s := wr s Reg.PEER_STAT_PEER_READY (b2n (r == rSTANDBY && nready == 0))
  let q : PairSt := { s.pair with recNow := true, peerRole := r, peerUnal := unal, peerPts := pts }
  let other := 1 - rd s Reg.PEER_CFG_RANK
  let th : Tbl Int := match theta with
    | some t => if n = s.sched.cycle then tins other t.toInt (tdel other s.time.theta) else s.time.theta
    | none => s.time.theta
  takeReports { s with pair := q, time := { s.time with theta := th } } ws (bitOf 5 nready)

/-- MIRROR_RECORD_RECEIVE (R255). -/
def execMirrorRecordReceive (r : MirrorRec) (s : State) : Host.Outcome State Fault Refusal :=
  .next (
    if peerUp s ∧ domOn s dNET then
      match r with
      | .active n rxMiss nulls ds items => if role s = rSTANDBY ∨ role s = rJOINING then takeActive s n rxMiss nulls ds items else s
      | .standby n theta rl nready unal ws pts =>
        if role s = rACTIVE then takeStandby s n theta rl.val nready.toNat (unal.map (fun c => c.val)) ws pts else s
    else s)

end Sys2Proof.Machine
end

