-- ==== Sys2Proof/Machine/Ecc.lean ====
section
/-! DEFINITION. ECC_SCRUB: the background scrub meets an error in a memory (R30, R397). -/

namespace Sys2Proof.Machine

/-- Power domain of a scrubbed memory (R29). -/
def EccMem.dom : EccMem → Nat
  | .pointStore _ _ => dNET
  | .leLocal e _ _ => dCLU (e.val / 16)
  | .clusterMem c _ => dCLU c.val
  | .cistern _ _ | .acqBuffer _ _ => dCIST
  | .portBuffer p => dPort p.val
  | .sumpLog _ => dSTEWARD
  | .retention _ => dAO

/-- The page that owns a memory (R30, R411). -/
def EccMem.page : EccMem → Nat
  | .pointStore _ _ => 0x82
  | .leLocal e _ _ => 0x20 + e.val
  | .clusterMem c _ => 0x10 + c.val
  | .cistern _ _ => 0xB0
  | .acqBuffer _ _ => 0xB2
  | .portBuffer p => 0x60 + p.val
  | .sumpLog _ => 0x04
  | .retention _ => 0x02

/-- A single-bit error is corrected and noted in the ERRLOG of the owner's page; R409 has no cause for it, and cause and offset are free values (R30; log 2). -/
def eccSingle (s : State) (p : Nat) : State :=
  let f := free s
  let g := free f.2
  errlog g.2 p (f.1 % 16) .device (g.1 % 2 ^ 12)

/-- An engine's own read meets an uncorrectable word: it enters its fault state, and the fault is self-diagnosed (R30, R107). An error that the scrub meets is self-diagnosed alone. -/
def eccEngine (s : State) (e : Nat) (c : EngCause) : State :=
  let x := eng s e
  if x.ph = .running then engineFault s e x.task x.snap.pc c else selfFault s .engine

/-- The response to the master whose read met an uncorrectable word (R30). -/
def eccAnswer (s : State) (m : Option Master) : State := match m with | some m => emit s (.busError m) | none => s

/-- The reaction of R30 to an uncorrectable word. -/
def eccDouble (s : State) : EccMem → State
  | .pointStore a work =>
    let s := if work ∧ role s = rACTIVE then selfFault s .pointStore else s
    let s := postOther (setStale s a.toNat true) 3
    let f := free s
    wr f.2 ⟨0x8200C, 31, 16⟩ f.1
  | .leLocal e imem reading => if reading then eccEngine s e.val (if imem then .imemEcc else .xymemEcc) else selfFault s .engine
  | .clusterMem _ reader => match reader with | some e => eccEngine s e.val .clmemEcc | none => selfFault s .engine
  | .cistern _ m | .acqBuffer _ m => postOther (eccAnswer s m) 4
  | .portBuffer p => incErr (setPort s p.val { port s p.val with kept := (port s p.val).kept.tail }) (Reg.PORT_CRC_ERR_COUNT p.val)
  | .sumpLog i => mwrite s (0x10010000 + 16 * i.toNat) (sumpBytes s 0x5001 5 i.toNat)
  | .retention both =>
    if both then { s with mem := tdrop 0x10000000 0x10001000 s.mem, ao := { s.ao with epoch := 0 } } else s

/-- ECC_SCRUB (R30, R397): a memory word with an error is met, by the scrub or by a read in use; `double` tells an uncorrectable error from a corrected one. -/
def execEccScrub (mem : EccMem) (double : Bool) (s : State) : Host.Outcome State Fault Refusal :=
  .next (if domOn s (EccMem.dom mem) then (if double then eccDouble s mem else eccSingle s (EccMem.page mem)) else s)

end Sys2Proof.Machine
end

