-- ==== Sys2Proof/Machine/Dispatch.lean ====
section
/-! DEFINITION. The commands' meanings, one arm per constructor. -/

namespace Sys2Proof.Machine

/-- The effect of a command on everything but the queue. -/
def exec (i : Instr) (s : State) : Host.Outcome State Fault Refusal :=
  match i with
  | .registerWrite m addr size acc => Sys2Proof.Machine.execRegisterWrite m addr size acc s
  | .counterClear m addr w => Sys2Proof.Machine.execCounterClear m addr w s
  | .counterLowRead m addr => Sys2Proof.Machine.execCounterLowRead m addr s
  | .nowNsRead m => Sys2Proof.Machine.execNowNsRead m s
  | .internalAccess m addr acc => Sys2Proof.Machine.execInternalAccess m addr acc s
  | .acqBufferWrite addr => Sys2Proof.Machine.execAcqBufferWrite addr s
  | .stalledAccessResume d => Sys2Proof.Machine.execStalledAccessResume d s
  | .bridgeFrameSend d => Sys2Proof.Machine.execBridgeFrameSend d s
  | .bridgeFrameReceive atField crcOk => Sys2Proof.Machine.execBridgeFrameReceive atField crcOk s
  | .bridgeFault atField => Sys2Proof.Machine.execBridgeFault atField s
  | .bridgeRefresh => Sys2Proof.Machine.execBridgeRefresh s
  | .bridgeRefreshWithdraw => Sys2Proof.Machine.execBridgeRefreshWithdraw s
  | .refreshTimeout => Sys2Proof.Machine.execRefreshTimeout s
  | .bridgePageAccess m addr acc => Sys2Proof.Machine.execBridgePageAccess m addr acc s
  | .cycleBoundary clk => Sys2Proof.Machine.execCycleBoundary clk s
  | .nfReceive f => Sys2Proof.Machine.execNfReceive f s
  | .acceptanceWindowEnd p k => Sys2Proof.Machine.execAcceptanceWindowEnd p k s
  | .syReceive f => Sys2Proof.Machine.execSyReceive f s
  | .csReceive f => Sys2Proof.Machine.execCsReceive f s
  | .prReceive f => Sys2Proof.Machine.execPrReceive f s
  | .rankClashBackoffEnd => Sys2Proof.Machine.execRankClashBackoffEnd s
  | .primeHalt => Sys2Proof.Machine.execPrimeHalt s
  | .listenEnd => Sys2Proof.Machine.execListenEnd s
  | .asReceive f t3 => Sys2Proof.Machine.execAsReceive f t3 s
  | .asyncFrameReceive f cut => Sys2Proof.Machine.execAsyncFrameReceive f cut s
  | .spReceive f => Sys2Proof.Machine.execSpReceive f s
  | .rxLenCut p at_ rest => Sys2Proof.Machine.execRxLenCut p at_ rest s
  | .txCut p => Sys2Proof.Machine.execTxCut p s
  | .guardClosed p => Sys2Proof.Machine.execGuardClosed p s
  | .drift p k => Sys2Proof.Machine.execDrift p k s
  | .lineBreak p => Sys2Proof.Machine.execLineBreak p s
  | .relayEnd p => Sys2Proof.Machine.execRelayEnd p s
  | .spLaunch p k => Sys2Proof.Machine.execSpLaunch p k s
  | .lastLaunchComplete => Sys2Proof.Machine.execLastLaunchComplete s
  | .snapshotPart => Sys2Proof.Machine.execSnapshotPart s
  | .delayListRelease c => Sys2Proof.Machine.execDelayListRelease c s
  | .stallRelease => Sys2Proof.Machine.execStallRelease s
  | .clockGateClose c clocks => Sys2Proof.Machine.execClockGateClose c clocks s
  | .contextSaveDone e => Sys2Proof.Machine.execContextSaveDone e s
  | .contextRestoreDone e => Sys2Proof.Machine.execContextRestoreDone e s
  | .engineSelect e => Sys2Proof.Machine.execEngineSelect e s
  | .prefetchLoad e => Sys2Proof.Machine.execPrefetchLoad e s
  | .dmaInComplete e => Sys2Proof.Machine.execDmaInComplete e s
  | .dmaOutCommit e => Sys2Proof.Machine.execDmaOutCommit e s
  | .shedMapWrite m ix w => Sys2Proof.Machine.execShedMapWrite m ix w s
  | .withdrawWrite m c w => Sys2Proof.Machine.execWithdrawWrite m c w s
  | .commitRequest m w => Sys2Proof.Machine.execCommitRequest m w s
  | .ginstall m w => Sys2Proof.Machine.execGinstall m w s
  | .ginstallComplete => Sys2Proof.Machine.execGinstallComplete s
  | .loadimem m w => Sys2Proof.Machine.execLoadimem m w s
  | .loadimemComplete differs => Sys2Proof.Machine.execLoadimemComplete differs s
  | .nop e slot last => Sys2Proof.Machine.execNop e slot last s
  | .ld e y p dn md last => Sys2Proof.Machine.execLd e y p dn md last s
  | .ld2 e y p dn md last => Sys2Proof.Machine.execLd2 e y p dn md last s
  | .st e y p dn md last => Sys2Proof.Machine.execSt e y p dn md last s
  | .st2 e y p dn md last => Sys2Proof.Machine.execSt2 e y p dn md last s
  | .lid e r imm => Sys2Proof.Machine.execLid e r imm s
  | .lig e r imm => Sys2Proof.Machine.execLig e r imm s
  | .ligh e r imm => Sys2Proof.Machine.execLigh e r imm s
  | .lip e p imm => Sys2Proof.Machine.execLip e p imm s
  | .lix e r imm => Sys2Proof.Machine.execLix e r imm s
  | .b e cond t => Sys2Proof.Machine.execB e cond t s
  | .call e t => Sys2Proof.Machine.execCall e t s
  | .ret e => Sys2Proof.Machine.execRet e s
  | .loop e lc rot creg dn count stop => Sys2Proof.Machine.execLoop e lc rot creg dn count stop s
  | .evt e reg da flag t => Sys2Proof.Machine.execEvt e reg da flag t s
  | .done e lib => Sys2Proof.Machine.execDone e lib s
  | .yield e => Sys2Proof.Machine.execYield e s
  | .mac4 e mode dx dy sum last => Sys2Proof.Machine.execMac4 e mode dx dy sum last s
  | .msu4 e mode dx dy sum last => Sys2Proof.Machine.execMsu4 e mode dx dy sum last s
  | .mpy4 e mode dx dy sum last => Sys2Proof.Machine.execMpy4 e mode dx dy sum last s
  | .dot e k n dx dy last => Sys2Proof.Machine.execDot e k n dx dy last s
  | .dotn e k n dx dy last => Sys2Proof.Machine.execDotn e k n dx dy last s
  | .dotz e k n dx dy last => Sys2Proof.Machine.execDotz e k n dx dy last s
  | .ftap e p q k neg z last => Sys2Proof.Machine.execFtap e p q k neg z last s
  | .clra e mask last => Sys2Proof.Machine.execClra e mask last s
  | .adda e d a sh neg last => Sys2Proof.Machine.execAdda e d a sh neg last s
  | .add e d a b last => Sys2Proof.Machine.execAdd e d a b last s
  | .sub e d a b last => Sys2Proof.Machine.execSub e d a b last s
  | .adds e d a b last => Sys2Proof.Machine.execAdds e d a b last s
  | .subs e d a b last => Sys2Proof.Machine.execSubs e d a b last s
  | .and e d a b last => Sys2Proof.Machine.execAnd e d a b last s
  | .or e d a b last => Sys2Proof.Machine.execOr e d a b last s
  | .xor e d a b last => Sys2Proof.Machine.execXor e d a b last s
  | .min e d a b last => Sys2Proof.Machine.execMin e d a b last s
  | .max e d a b last => Sys2Proof.Machine.execMax e d a b last s
  | .sel e d a b last => Sys2Proof.Machine.execSel e d a b last s
  | .shl e d a b last => Sys2Proof.Machine.execShl e d a b last s
  | .asr e d a b last => Sys2Proof.Machine.execAsr e d a b last s
  | .mov e d a last => Sys2Proof.Machine.execMov e d a last s
  | .neg e d a last => Sys2Proof.Machine.execNeg e d a last s
  | .abs e d a last => Sys2Proof.Machine.execAbs e d a last s
  | .sat24 e d a last => Sys2Proof.Machine.execSat24 e d a last s
  | .not e d a last => Sys2Proof.Machine.execNot e d a last s
  | .hdrm e d a last => Sys2Proof.Machine.execHdrm e d a last s
  | .rflg e d last => Sys2Proof.Machine.execRflg e d last s
  | .getwct e d last => Sys2Proof.Machine.execGetwct e d last s
  | .clrcc e last => Sys2Proof.Machine.execClrcc e last s
  | .setpa e d a last => Sys2Proof.Machine.execSetpa e d a last s
  | .setpb e d a last => Sys2Proof.Machine.execSetpb e d a last s
  | .setpl e d a last => Sys2Proof.Machine.execSetpl e d a last s
  | .setpm e d a last => Sys2Proof.Machine.execSetpm e d a last s
  | .getpa e d a last => Sys2Proof.Machine.execGetpa e d a last s
  | .getlc e d a last => Sys2Proof.Machine.execGetlc e d a last s
  | .cmp e a b last => Sys2Proof.Machine.execCmp e a b last s
  | .ldc e d a b last => Sys2Proof.Machine.execLdc e d a b last s
  | .stc e d a b last => Sys2Proof.Machine.execStc e d a b last s
  | .ldcg e d a b last => Sys2Proof.Machine.execLdcg e d a b last s
  | .stcg e d a b last => Sys2Proof.Machine.execStcg e d a b last s
  | .gadd e d a b last => Sys2Proof.Machine.execGadd e d a b last s
  | .gsub e d a b last => Sys2Proof.Machine.execGsub e d a b last s
  | .gmov e d a last => Sys2Proof.Machine.execGmov e d a last s
  | .gneg e d a last => Sys2Proof.Machine.execGneg e d a last s
  | .gcmp e d a last => Sys2Proof.Machine.execGcmp e d a last s
  | .gsxd e d a last => Sys2Proof.Machine.execGsxd e d a last s
  | .glo e d a last => Sys2Proof.Machine.execGlo e d a last s
  | .ghi e d a last => Sys2Proof.Machine.execGhi e d a last s
  | .gseth e d a last => Sys2Proof.Machine.execGseth e d a last s
  | .rstv e d last => Sys2Proof.Machine.execRstv e d last s
  | .gsh e dir d a n last => Sys2Proof.Machine.execGsh e dir d a n last s
  | .b2f e d a k last => Sys2Proof.Machine.execB2f e d a k last s
  | .f2b e d a k last => Sys2Proof.Machine.execF2b e d a k last s
  | .gmul e d a b last => Sys2Proof.Machine.execGmul e d a b last s
  | .gdiv e d a b last => Sys2Proof.Machine.execGdiv e d a b last s
  | .addx e d a b last => Sys2Proof.Machine.execAddx e d a b last s
  | .subx e d a b last => Sys2Proof.Machine.execSubx e d a b last s
  | .maxx e d a b last => Sys2Proof.Machine.execMaxx e d a b last s
  | .minx e d a b last => Sys2Proof.Machine.execMinx e d a b last s
  | .movxd e d a last => Sys2Proof.Machine.execMovxd e d a last s
  | .movdx e d a last => Sys2Proof.Machine.execMovdx e d a last s
  | .norm e dn c x last => Sys2Proof.Machine.execNorm e dn c x last s
  | .aln e d xa xb last => Sys2Proof.Machine.execAln e d xa xb last s
  | .rda e dn k sh s24 last => Sys2Proof.Machine.execRda e dn k sh s24 last s
  | .cvtf e d a xs xk last => Sys2Proof.Machine.execCvtf e d a xs xk last s
  | .cvti e d a xa xs last => Sys2Proof.Machine.execCvti e d a xa xs last s
  | .lockup e => Sys2Proof.Machine.execLockup e s
  | .clrFault m e w => Sys2Proof.Machine.execClrFault m e w s
  | .axisAreaWrite m w => Sys2Proof.Machine.execAxisAreaWrite m w s
  | .axisWindowWrite m ix w => Sys2Proof.Machine.execAxisWindowWrite m ix w s
  | .axisLoad m w => Sys2Proof.Machine.execAxisLoad m w s
  | .mark m w => Sys2Proof.Machine.execMark m w s
  | .notch m w => Sys2Proof.Machine.execNotch m w s
  | .motionWindowWrite m ix w => Sys2Proof.Machine.execMotionWindowWrite m ix w s
  | .camTableWrite m t w => Sys2Proof.Machine.execCamTableWrite m t w s
  | .moveAbs m w => Sys2Proof.Machine.execMoveAbs m w s
  | .moveRel m w => Sys2Proof.Machine.execMoveRel m w s
  | .speed m w => Sys2Proof.Machine.execSpeed m w s
  | .gear m w => Sys2Proof.Machine.execGear m w s
  | .cam m w => Sys2Proof.Machine.execCam m w s
  | .free m w => Sys2Proof.Machine.execFree m w s
  | .super m w => Sys2Proof.Machine.execSuper m w s
  | .groupGo m w => Sys2Proof.Machine.execGroupGo m w s
  | .reregShift m w => Sys2Proof.Machine.execReregShift m w s
  | .reregMove m w => Sys2Proof.Machine.execReregMove m w s
  | .motionLoad m w => Sys2Proof.Machine.execMotionLoad m w s
  | .stop m w => Sys2Proof.Machine.execStop m w s
  | .halt m w => Sys2Proof.Machine.execHalt m w s
  | .stopClr m w => Sys2Proof.Machine.execStopClr m w s
  | .install m w => Sys2Proof.Machine.execInstall m w s
  | .installComplete => Sys2Proof.Machine.execInstallComplete s
  | .clear m w => Sys2Proof.Machine.execClear m w s
  | .swapReq m w => Sys2Proof.Machine.execSwapReq m w s
  | .reopen m p w => Sys2Proof.Machine.execReopen m p w s
  | .restart m w => Sys2Proof.Machine.execRestart m w s
  | .clashClr m w => Sys2Proof.Machine.execClashClr m w s
  | .asyncWindowStart p k => Sys2Proof.Machine.execAsyncWindowStart p k s
  | .txRecordComplete p stamp frac cut => Sys2Proof.Machine.execTxRecordComplete p stamp frac cut s
  | .averagingInstant => Sys2Proof.Machine.execAveragingInstant s
  | .rtcRealign => Sys2Proof.Machine.execRtcRealign s
  | .set m w => Sys2Proof.Machine.execSet m w s
  | .stepAccept m w => Sys2Proof.Machine.execStepAccept m w s
  | .stepCancel m w => Sys2Proof.Machine.execStepCancel m w s
  | .upstreamSyncEvent master ofs => Sys2Proof.Machine.execUpstreamSyncEvent master ofs s
  | .holdover => Sys2Proof.Machine.execHoldover s
  | .holdoverEnd => Sys2Proof.Machine.execHoldoverEnd s
  | .dlineMeasure => Sys2Proof.Machine.execDlineMeasure s
  | .announceReceive n a => Sys2Proof.Machine.execAnnounceReceive n a s
  | .gmResume n => Sys2Proof.Machine.execGmResume n s
  | .ptpSyncSend n what => Sys2Proof.Machine.execPtpSyncSend n what s
  | .timedLaunch p passed => Sys2Proof.Machine.execTimedLaunch p passed s
  | .ttArm m o w => Sys2Proof.Machine.execTtArm m o w s
  | .ttRearmEffect o => Sys2Proof.Machine.execTtRearmEffect o s
  | .ttOutputEdge o => Sys2Proof.Machine.execTtOutputEdge o s
  | .captureEdge n rise taken => Sys2Proof.Machine.execCaptureEdge n rise taken s
  | .capturePop m n => Sys2Proof.Machine.execCapturePop m n s
  | .peerFrameReceive lane ok c => Sys2Proof.Machine.execPeerFrameReceive lane ok c s
  | .laneDown lane => Sys2Proof.Machine.execLaneDown lane s
  | .relinquishReceive => Sys2Proof.Machine.execRelinquishReceive s
  | .faultedReceive => Sys2Proof.Machine.execFaultedReceive s
  | .inputImageSend => Sys2Proof.Machine.execInputImageSend s
  | .inputImageReceive pts => Sys2Proof.Machine.execInputImageReceive pts s
  | .inputEdgeInstant => Sys2Proof.Machine.execInputEdgeInstant s
  | .forwardedFrameReceive f => Sys2Proof.Machine.execForwardedFrameReceive f s
  | .mirrorRecordReceive r => Sys2Proof.Machine.execMirrorRecordReceive r s
  | .stateCopySend => Sys2Proof.Machine.execStateCopySend s
  | .csLossTakeover => Sys2Proof.Machine.execCsLossTakeover s
  | .pairJoin j => Sys2Proof.Machine.execPairJoin j s
  | .bulkCopyComplete b start => Sys2Proof.Machine.execBulkCopyComplete b start s
  | .swap m w => Sys2Proof.Machine.execSwap m w s
  | .swapCancel m w => Sys2Proof.Machine.execSwapCancel m w s
  | .join m w => Sys2Proof.Machine.execJoin m w s
  | .safetyEvaluation => Sys2Proof.Machine.execSafetyEvaluation s
  | .safetyInputChange chB ix level => Sys2Proof.Machine.execSafetyInputChange chB ix level s
  | .discTimeout chB p => Sys2Proof.Machine.execDiscTimeout chB p s
  | .aliveTimeout chB => Sys2Proof.Machine.execAliveTimeout chB s
  | .xcompTimeout chB => Sys2Proof.Machine.execXcompTimeout chB s
  | .inputTestPulse tp low => Sys2Proof.Machine.execInputTestPulse tp low s
  | .outputTestPulse q falls rises offHigh follows => Sys2Proof.Machine.execOutputTestPulse q falls rises offHigh follows s
  | .edmTimeout chB q => Sys2Proof.Machine.execEdmTimeout chB q s
  | .soOvl q => Sys2Proof.Machine.execSoOvl q s
  | .vfsafOutOfRange => Sys2Proof.Machine.execVfsafOutOfRange s
  | .ss1Expiry g => Sys2Proof.Machine.execSs1Expiry g s
  | .ss1BExpiry g => Sys2Proof.Machine.execSs1BExpiry g s
  | .resetPulse ms lowMs persists => Sys2Proof.Machine.execResetPulse ms lowMs persists s
  | .tpOverdue => Sys2Proof.Machine.execTpOverdue s
  | .psetInstall => Sys2Proof.Machine.execPsetInstall s
  | .enterTest => Sys2Proof.Machine.execEnterTest s
  | .leaveTest => Sys2Proof.Machine.execLeaveTest s
  | .encoderTransition n old new taken => Sys2Proof.Machine.execEncoderTransition n old new taken s
  | .zEdge n taken => Sys2Proof.Machine.execZEdge n taken s
  | .encoderSample n => Sys2Proof.Machine.execEncoderSample n s
  | .serialWordComplete n word => Sys2Proof.Machine.execSerialWordComplete n word s
  | .serialTimeout n => Sys2Proof.Machine.execSerialTimeout n s
  | .encFault n => Sys2Proof.Machine.execEncFault n s
  | .encLoad m n w => Sys2Proof.Machine.execEncLoad m n w s
  | .zarm m n w => Sys2Proof.Machine.execZarm m n w s
  | .encClr m n w => Sys2Proof.Machine.execEncClr m n w s
  | .ovl k => Sys2Proof.Machine.execOvl k s
  | .otemp k => Sys2Proof.Machine.execOtemp k s
  | .openWire k => Sys2Proof.Machine.execOpenWire k s
  | .shortLp k => Sys2Proof.Machine.execShortLp k s
  | .groupOverload g => Sys2Proof.Machine.execGroupOverload g s
  | .undervoltage g => Sys2Proof.Machine.execUndervoltage g s
  | .undervoltageEnd g => Sys2Proof.Machine.execUndervoltageEnd g s
  | .diagClear m r w => Sys2Proof.Machine.execDiagClear m r w s
  | .watchdogTrip => Sys2Proof.Machine.execWatchdogTrip s
  | .rearm m w => Sys2Proof.Machine.execRearm m w s
  | .cas m w => Sys2Proof.Machine.execCas m w s
  | .casExecute k => Sys2Proof.Machine.execCasExecute k s
  | .cisternAccess m word acc => Sys2Proof.Machine.execCisternAccess m word acc s
  | .snapGo m w => Sys2Proof.Machine.execSnapGo m w s
  | .dmaGo m c w => Sys2Proof.Machine.execDmaGo m c w s
  | .dmaStop m c w d data n => Sys2Proof.Machine.execDmaStop m c w d data n s
  | .dmaDescriptorComplete c d data pcieErr => Sys2Proof.Machine.execDmaDescriptorComplete c d data pcieErr s
  | .acqArm m w => Sys2Proof.Machine.execAcqArm m w s
  | .acqStop m w => Sys2Proof.Machine.execAcqStop m w s
  | .force m w => Sys2Proof.Machine.execForce m w s
  | .exportRec m w => Sys2Proof.Machine.execExportRec m w s
  | .exportComplete => Sys2Proof.Machine.execExportComplete s
  | .release m w => Sys2Proof.Machine.execRelease m w s
  | .holdoffExpiry => Sys2Proof.Machine.execHoldoffExpiry s
  | .canSync n => Sys2Proof.Machine.execCanSync n s
  | .canTxReq m n t w => Sys2Proof.Machine.execCanTxReq m n t w s
  | .canCancel m n t w => Sys2Proof.Machine.execCanCancel m n t w s
  | .canClr m n t w => Sys2Proof.Machine.execCanClr m n t w s
  | .canTxStart n => Sys2Proof.Machine.execCanTxStart n s
  | .canTxEnd n out ts frac => Sys2Proof.Machine.execCanTxEnd n out ts frac s
  | .canIdClash n => Sys2Proof.Machine.execCanIdClash n s
  | .canBusoff n => Sys2Proof.Machine.execCanBusoff n s
  | .recover m n w => Sys2Proof.Machine.execRecover m n w s
  | .canRecoveryComplete n => Sys2Proof.Machine.execCanRecoveryComplete n s
  | .canReceive n f => Sys2Proof.Machine.execCanReceive n f s
  | .bsel m n w => Sys2Proof.Machine.execBsel m n w s
  | .rxrel m n w => Sys2Proof.Machine.execRxrel m n w s
  | .pwrReq m w => Sys2Proof.Machine.execPwrReq m w s
  | .powerTransitionComplete d => Sys2Proof.Machine.execPowerTransitionComplete d s
  | .clusterOffExecute c => Sys2Proof.Machine.execClusterOffExecute c s
  | .standby m w => Sys2Proof.Machine.execStandby m w s
  | .standbyEntryComplete => Sys2Proof.Machine.execStandbyEntryComplete s
  | .pwrEnRaise => Sys2Proof.Machine.execPwrEnRaise s
  | .aoWakeEvent src => Sys2Proof.Machine.execAoWakeEvent src s
  | .vauxLoss => Sys2Proof.Machine.execVauxLoss s
  | .aoBrownOut => Sys2Proof.Machine.execAoBrownOut s
  | .pllLockLoss pll => Sys2Proof.Machine.execPllLockLoss pll s
  | .surgeReq m w => Sys2Proof.Machine.execSurgeReq m w s
  | .surgeVoltageReached => Sys2Proof.Machine.execSurgeVoltageReached s
  | .surgeSample hot current => Sys2Proof.Machine.execSurgeSample hot current s
  | .surgeHour => Sys2Proof.Machine.execSurgeHour s
  | .voltageStep vout => Sys2Proof.Machine.execVoltageStep vout s
  | .readIout current => Sys2Proof.Machine.execReadIout current s
  | .pmbAlert status => Sys2Proof.Machine.execPmbAlert status s
  | .replan src => Sys2Proof.Machine.execReplan src s
  | .replanComplete plan => Sys2Proof.Machine.execReplanComplete plan s
  | .aoPowerOn => Sys2Proof.Machine.execAoPowerOn s
  | .resetRelease bootsrc late => Sys2Proof.Machine.execResetRelease bootsrc late s
  | .supplyFail => Sys2Proof.Machine.execSupplyFail s
  | .warmReset cause => Sys2Proof.Machine.execWarmReset cause s
  | .bootStepDone find => Sys2Proof.Machine.execBootStepDone find s
  | .bootStepFail detail => Sys2Proof.Machine.execBootStepFail detail s
  | .hostimg m w => Sys2Proof.Machine.execHostimg m w s
  | .clearJournal m w => Sys2Proof.Machine.execClearJournal m w s
  | .reboot m w => Sys2Proof.Machine.execReboot m w s
  | .stage m w flashOk => Sys2Proof.Machine.execStage m w flashOk s
  | .select m w => Sys2Proof.Machine.execSelect m w s
  | .commitVer m w => Sys2Proof.Machine.execCommitVer m w s
  | .debugUnlock key sig => Sys2Proof.Machine.execDebugUnlock key sig s
  | .testEngine m w => Sys2Proof.Machine.execTestEngine m w s
  | .testCistbank m w => Sys2Proof.Machine.execTestCistbank m w s
  | .testScrub m w => Sys2Proof.Machine.execTestScrub m w s
  | .testEyescan m w => Sys2Proof.Machine.execTestEyescan m w s
  | .testSdscal m w => Sys2Proof.Machine.execTestSdscal m w s
  | .testPortloop m w => Sys2Proof.Machine.execTestPortloop m w s
  | .testCan m w => Sys2Proof.Machine.execTestCan m w s
  | .testEncoder m w => Sys2Proof.Machine.execTestEncoder m w s
  | .testOffline m w => Sys2Proof.Machine.execTestOffline m w s
  | .testStart ix => Sys2Proof.Machine.execTestStart ix s
  | .testComplete ix pass margin => Sys2Proof.Machine.execTestComplete ix pass margin s
  | .testTimeout ix => Sys2Proof.Machine.execTestTimeout ix s
  | .srst m page w => Sys2Proof.Machine.execSrst m page w s
  | .lock m page w clk => Sys2Proof.Machine.execLock m page w clk s
  | .evtSet m page w => Sys2Proof.Machine.execEvtSet m page w s
  | .ack m w => Sys2Proof.Machine.execAck m w s
  | .entry0Read m => Sys2Proof.Machine.execEntry0Read m s
  | .portLinkDown p peerUp => Sys2Proof.Machine.execPortLinkDown p peerUp s
  | .timeUnitFault => Sys2Proof.Machine.execTimeUnitFault s
  | .csLoss => Sys2Proof.Machine.execCsLoss s
  | .vauxValid => Sys2Proof.Machine.execVauxValid s
  | .vfsafReturn => Sys2Proof.Machine.execVfsafReturn s
  | .switchCooled k => Sys2Proof.Machine.execSwitchCooled k s
  | .encoderTrackingSample k a b => Sys2Proof.Machine.execEncoderTrackingSample k a b s
  | .canBusError n by8 => Sys2Proof.Machine.execCanBusError n by8 s
  | .plantFrameReceive n f => Sys2Proof.Machine.execPlantFrameReceive n f s
  | .emulationEdge m => Sys2Proof.Machine.execEmulationEdge m s
  | .eccScrub mem double => Sys2Proof.Machine.execEccScrub mem double s

end Sys2Proof.Machine
end

