-- ==== Sys2Proof/Safety.lean ====
section
/-! DEFINITION. What counts as a safe run, and the predicates that claims are stated with. -/

namespace Sys2Proof.Machine

/-- A step goes on: it neither faults nor is refused. -/
def Goes (o : Host.Outcome State Fault Refusal) : Prop := ∃ t, o = .next t

/-- Memory has its canonical form. -/
def MemOk (s : State) : Prop := memWf s.mem = true

/-- Every byte of memory reads as before. -/
def SameMem (s t : State) : Prop := ∀ a, mget t a = mget s a

/-- Every byte of memory outside the `n` bytes at `a` reads as before. -/
def SameMemBut (a n : Nat) (s t : State) : Prop := ∀ c, (c < a ∨ a + n ≤ c) → mget t c = mget s c

/-- Every register reads as before, but for those listed. -/
def SameRegsBut (l : List Nat) (s t : State) : Prop := ∀ k, k ∉ l → rdw t k = rdw s k

/-- Nothing but registers and what left the package has changed. -/
def RegsWire (s t : State) : Prop := t = { s with regs := t.regs, wire := t.wire }

/-- Nothing but registers, memory and what left the package has changed. -/
def Logged (s t : State) : Prop := t = { s with regs := t.regs, wire := t.wire, mem := t.mem }

/-- The register at `k` lies in a mapped page that master `m` can reach now (R370, R396, R412). -/
def CanReach (m : Master) (s : State) (k : Nat) : Prop :=
  (blkOf (k / 0x1000)).isSome = true ∧ reachable s (k / 0x1000) = true ∧ (m = .diagPort → diagOpen s = true ∨ k = Reg.BOOT_CMD_OP.addr)

/-- The registers that a plain write of the register at `k` can change besides `k` itself: EVT_PEND and ERRLOG of its page, and the pending bits of the MSI-X vectors (R333, R407, R409). -/
def sideKeys (k : Nat) : List Nat := [k / 0x1000 * 0x1000 + 0x18, k / 0x1000 * 0x1000 + 0x28, 0xB1C00]

/-- The keys that a command at the register at `k` can change before it acts. -/
def cmdKeys (k : Nat) : List Nat := k :: sideKeys k

/-- `u` is `s` with a word written to the plain fields of the register at `k`: only that register, its page's logs and the MSI-X pending bits may differ, and what left the package. -/
def Written (k : Nat) (s u : State) : Prop := RegsWire s u ∧ SameRegsBut (cmdKeys k) s u

/-- `t` is `u` with the items that an active unit keeps of a command for its next mirror record (R256). -/
def Kept (u t : State) : Prop := ∃ l, t = noteItems u l

/-- `t` holds one sump entry more than `s`, at the place where the log was to be written next: time, code, source, LOCAL and SEVERE flags, detail (R414, R415). Nothing is asked while STEWARD is not ON. -/
def NewEntry (s t : State) (code source detail : Nat) : Prop :=
  domOn s dSTEWARD = true →
    mnum t (0x10010000 + 16 * rd s Reg.SUMP_WPTR_INDEX) 8 = stampNow s % 2 ^ 64 ∧
    mnum t (0x10010000 + 16 * rd s Reg.SUMP_WPTR_INDEX + 8) 4 = code + source * 2 ^ 16 + b2n (!domOn s dNET) * 2 ^ 19 + b2n (decide (source ≤ 2)) * 2 ^ 20 ∧
    mnum t (0x10010000 + 16 * rd s Reg.SUMP_WPTR_INDEX + 12) 4 = detail % 2 ^ 32 ∧ rd t Reg.SUMP_WPTR_INDEX = (rd s Reg.SUMP_WPTR_INDEX + 1) % 2 ^ 12

/-- Every byte of memory reads as before, but for the values and descriptors of the points listed (R440). -/
def SamePtsBut (l : List Nat) (s t : State) : Prop :=
  ∀ a, (∀ p ∈ l, (a < ptAddr p ∨ ptAddr p + 8 ≤ a) ∧ a ≠ pdAddr p) → mget t a = mget s a

/-- A point reads a value that is not stale, or that is. -/
def PointIs (t : State) (p v : Nat) (stale : Bool) : Prop := mnum t (ptAddr p) 8 = v % 2 ^ 64 ∧ (mget t (pdAddr p)).toNat % 2 = b2n stale

end Sys2Proof.Machine
end

