-- ==== Sys2Proof/Certificates/Slice0/Obligations.lean ====
section
/-! DEFINITION. The statements of this model for the provers. -/

open Sys2Proof Sys2Proof.Machine

/-- A step with a command at the front of the queue is the command's effect on the state with the queue's rest. -/
def Obligations.StepRunsTheFrontCommand : Prop :=
  ∀ (c : Instr) (r : List Instr) (s : State), s.pending = c :: r → step s = exec c { s with pending := r }

/-- The model's choice of log 7: with nothing waiting a step is one clock, in which network time advances by the increment of R217 and R224 while NET is ON. -/
def Obligations.IdleStepIsOneClock : Prop :=
  ∀ s : State, s.pending = [] → ∃ t, step s = .next t ∧ t.pending = [] ∧ t.mem = s.mem ∧
    (domOn s dNET = true →
      t.time.ns * 2 ^ 40 + t.time.frac =
        ((s.time.ns * 2 ^ 40 + s.time.frac : Int) + 4 * 2 ^ 40 + 4 * rds s Reg.TIME_RATE_RATE +
          s.time.slewNow * 2 ^ 24 * 4 / max 1 (rd s Reg.CYC_PERIOD_NS : Int)).toNat % (2 ^ 48 * 10 ^ 9 * 2 ^ 40) ∧
      t.time.osc = s.time.osc + 4 * 2 ^ 40) ∧
    (domOn s dNET = false → t.time = s.time)

/-- The state after power-on of the always-on domain: domains (log 8), memory, and the header of every mapped page (R406). -/
def Obligations.ResetState : Prop :=
  State.reset.pending = [] ∧ State.reset.mem = [] ∧ domOn State.reset dAO = true ∧ (∀ d, d ≠ dAO → (dom State.reset d).st = .off) ∧
  ∀ p b f, blkOf p = some (b, f) →
    rdw State.reset (p * 0x1000) = f * 0x10000 + (p - f) ∧ rdw State.reset (p * 0x1000 + 0x04) = 0xB10001 ∧
    rdw State.reset (p * 0x1000 + 0x08) = 1 ∧ rdw State.reset (p * 0x1000 + 0x14) = 0 ∧ rdw State.reset (p * 0x1000 + 0x18) = 0 ∧
    rdw State.reset (p * 0x1000 + 0x20) % 2 = 1 ∧ rdw State.reset (p * 0x1000 + 0x24) = pageDom p ∧ rdw State.reset (p * 0x1000 + 0x28) = 0

/-- The memory of the reset state has its canonical form. -/
def Obligations.ResetMemoryIsCanonical : Prop := MemOk State.reset

/-- From every state with canonical memory, whatever the step runs, the next state's memory is canonical: equal memories stay equal data. -/
def Obligations.EveryStepKeepsMemoryCanonical : Prop := ∀ s t : State, MemOk s → step s = .next t → MemOk t

/-- The manual names no condition that stops the block: every command goes on from every state. -/
def Obligations.NoCommandStops : Prop := ∀ (c : Instr) (s : State), Goes (exec c s)

/-- R14: an access of another width or alignment is not performed, reads as ones, and is logged with CAUSE 1. -/
def Obligations.NarrowOrUnalignedAccessIsNotPerformed : Prop :=
  ∀ (m : Master) (a : BitVec 24) (n : Nat) (acc : WordAcc) (s : State), CanReach m s a.toNat → ¬(n = 4 ∧ a.toNat % 4 = 0) →
    ∃ t, exec (.registerWrite m a n acc) s = .next t ∧ t = { s with regs := t.regs, wire := t.wire, resp := t.resp } ∧
      SameRegsBut (sideKeys a.toNat) s t ∧ (acc = .read → t.resp = some 0xFFFFFFFF#32) ∧
      (on s (Reg.HDR_ERRLOG_VALID (a.toNat / 0x1000)) = false →
        rdw t (a.toNat / 0x1000 * 0x1000 + 0x28) = 2 ^ 31 + 1 * 2 ^ 20 + mcode m * 2 ^ 16 + a.toNat % 2 ^ 12) ∧
      (on s (Reg.HDR_ERRLOG_VALID (a.toNat / 0x1000)) = true →
        rdw t (a.toNat / 0x1000 * 0x1000 + 0x28) = setBits 30 30 (rdw s (a.toNat / 0x1000 * 0x1000 + 0x28)) 1)

/-- R412: an access to an unmapped page. -/
def Obligations.UnmappedPage : Prop :=
  ∀ (m : Master) (a : BitVec 24) (n : Nat) (acc : WordAcc) (s : State), blkOf (a.toNat / 0x1000) = none →
    ∃ t, exec (.registerWrite m a n acc) s = .next t ∧ (acc = .read → t.resp = some 0xFFFFFFFF#32) ∧
      (isHostSide m = true →
        t = { s with regs := t.regs, wire := t.wire, resp := t.resp, freeIdx := t.freeIdx } ∧ SameRegsBut (sideKeys 0xB1000) s t ∧
        on t (Reg.HDR_ERRLOG_VALID 0xB1) = true) ∧
      (isHostSide m = false →
        (tget (fun _ => ({} : MFault)) t.mfault (mcode m)).valid = true ∧
        (tget (fun _ => ({} : MFault)) t.mfault (mcode m)).addr = 0x40000000 + a.toNat)

/-- R410: the four outcomes of a write to LOCK. -/
def Obligations.LockSequence : Prop :=
  ∀ (m : Master) (p : BitVec 12) (w : W32) (clk : Nat) (s : State), CanReach m s (p.toNat * 0x1000 + 0x20) →
    let q := s.lockSeq.find? (fun e => e.1 == p.toNat)
    let mine := q = none ∨ ∃ c, q = some (p.toNat, mcode m, c)
    let late := ∀ c, q = some (p.toNat, mcode m, c) → c + 64 < clk
    ∃ t, exec (.lock m p w clk) s = .next t ∧ t.mem = s.mem ∧
      (w.toNat = 0xC1E5 → mine → t = { s with lockSeq := t.lockSeq } ∧ t.lockSeq.find? (fun e => e.1 == p.toNat) = some (p.toNat, mcode m, clk)) ∧
      (w.toNat = 0 → mine → SameRegsBut [p.toNat * 0x1000 + 0x20] s t ∧ locked t p.toNat = true ∧ t.lockSeq.find? (fun e => e.1 == p.toNat) = none) ∧
      (∀ c, w.toNat = 0x5EC1 → q = some (p.toNat, mcode m, c) → clk ≤ c + 64 →
        SameRegsBut [p.toNat * 0x1000 + 0x20] s t ∧ locked t p.toNat = false ∧ t.lockSeq.find? (fun e => e.1 == p.toNat) = none) ∧
      ((¬mine ∨ (w.toNat ≠ 0xC1E5 ∧ w.toNat ≠ 0 ∧ (w.toNat = 0x5EC1 → late))) →
        locked t p.toNat = locked s p.toNat ∧ t.lockSeq.find? (fun e => e.1 == p.toNat) = none ∧
        on t (Reg.HDR_ERRLOG_VALID p.toNat) = true ∧
        (on s (Reg.HDR_ERRLOG_VALID p.toNat) = false →
          rdw t (p.toNat * 0x1000 + 0x28) = 2 ^ 31 + 8 * 2 ^ 20 + mcode m * 2 ^ 16 + 0x20))

/-- EVT_SET: each bit written 1 sets that bit of EVT_PEND (R406). -/
def Obligations.EventSet : Prop :=
  ∀ (m : Master) (p : BitVec 12) (w : W32) (s : State), CanReach m s (p.toNat * 0x1000 + 0x1C) →
    ∃ t, exec (.evtSet m p w) s = .next t ∧ RegsWire s t ∧ SameRegsBut [p.toNat * 0x1000 + 0x18, 0xB1C00] s t ∧
      rdw t (p.toNat * 0x1000 + 0x18) = rdw s (p.toNat * 0x1000 + 0x18) ||| w.toNat

/-- R16: a write of zero clears a counter, any other value leaves it, and WRAP and SAT stay. -/
def Obligations.CounterClear : Prop :=
  ∀ (m : Master) (a : BitVec 24) (w : W32) (s : State) (r : RegRow), CanReach m s a.toNat → a.toNat % 4 = 0 → 0x40 ≤ a.toNat % 0x1000 →
    r.acc = .cnt → r.lo = 0 →
    (r.hi = 31 ∧ rowsAt a.toNat = [r] ∨ ∃ q : RegRow, r.hi = 15 ∧ rowsAt a.toNat = [q, r] ∧ q.acc = .rsv ∧ q.hi = 31 ∧ q.lo = 16) →
    ∃ t, exec (.counterClear m a w) s = .next t ∧ RegsWire s t ∧ SameRegsBut (cmdKeys a.toNat) s t ∧
      rd t ⟨a.toNat, r.hi, 0⟩ = if bits r.hi 0 w.toNat = 0 then 0 else rd s ⟨a.toNat, r.hi, 0⟩

/-- R17, R240, R413: what a read of a low word latches, and what a read of the high word answers. -/
def Obligations.LowWordReadsLatchTheRest : Prop :=
  (∀ (m : Master) (s : State), CanReach m s Reg.CYC_CYCLE_LO_COUNT.addr →
    ∃ t, exec (.counterLowRead m (BitVec.ofNat 24 Reg.CYC_CYCLE_LO_COUNT.addr)) s = .next t ∧ t = { s with banked := t.banked, resp := t.resp } ∧
      t.resp = some (BitVec.ofNat 32 s.sched.cycle) ∧ bget t m Reg.CYC_CYCLE_HI_COUNT.addr = s.sched.cycle / 2 ^ 32 % 2 ^ 32 ∧
      ∀ (n : Master) (k : Nat), k < 2 ^ 24 → (n ≠ m ∨ k ≠ Reg.CYC_CYCLE_HI_COUNT.addr) → bget t n k = bget s n k) ∧
  (∀ (m : Master) (s : State), CanReach m s Reg.CYC_CYCLE_HI_COUNT.addr →
    exec (.registerWrite m (BitVec.ofNat 24 Reg.CYC_CYCLE_HI_COUNT.addr) 4 .read) s = .next { s with resp := some (BitVec.ofNat 32 (bget s m Reg.CYC_CYCLE_HI_COUNT.addr)) }) ∧
  (∀ (m : Master) (n : Fin 8) (s : State), CanReach m s (0x90080 + n.val * 0x1000) →
    ∃ t, exec (.counterLowRead m (BitVec.ofNat 24 (0x90080 + n.val * 0x1000))) s = .next t ∧ t = { s with banked := t.banked, resp := t.resp } ∧
      t.resp = some (BitVec.ofNat 32 (enc s n).count.toNat) ∧ bget t m (Reg.ENC_POS_HI_COUNT n).addr = (enc s n).count.toNat / 2 ^ 32) ∧
  ∀ (m : Master) (s : State), CanReach m s Reg.TIME_NOW_NS.addr →
    ∃ t, exec (.nowNsRead m) s = .next t ∧ t = { s with banked := t.banked, resp := t.resp } ∧
      t.resp = some (BitVec.ofNat 32 (s.time.ns % 10 ^ 9)) ∧ bget t m Reg.TIME_NOW_SEC_LO.addr = s.time.ns / 10 ^ 9 % 2 ^ 32 ∧
      bget t m Reg.TIME_NOW_SEC_HI.addr = s.time.ns / 10 ^ 9 / 2 ^ 32 % 2 ^ 16 ∧ bget t m Reg.TIME_NOW_FRAC.addr = s.time.frac / 2 ^ 24 % 2 ^ 16

/-- R13: what a plain write leaves in a register, and what a read of one answers. -/
def Obligations.RegisterTakesItsFields : Prop :=
  (∀ (m : Master) (a : BitVec 24) (w : W32) (s : State) (b : Blk) (f : Nat), CanReach m s a.toNat → a.toNat % 4 = 0 → 0x40 ≤ a.toNat % 0x1000 →
    blkOf (a.toNat / 0x1000) = some (b, f) → b ∈ [Blk.SYS, .PWR, .SUMP, .AGE, .SEC, .LEMAC, .GUARD, .POINTS, .EMU, .CIST] →
    acts m a.toNat w = [] → (∀ r ∈ rowsAt a.toNat, r.acc ≠ .cnt) →
    ∃ t, exec (.registerWrite m a 4 (.write w)) s = .next t ∧ Written a.toNat s t ∧
      rdw t a.toNat = newValue (locked s (a.toNat / 0x1000)) (rowsAt a.toNat) (rdw s a.toNat) w.toNat % 2 ^ 32) ∧
  (∀ (m : Master) (a : BitVec 24) (s : State) (b : Blk) (f : Nat), CanReach m s a.toNat → a.toNat % 4 = 0 → 0x40 ≤ a.toNat % 0x1000 →
    blkOf (a.toNat / 0x1000) = some (b, f) → b ∈ [Blk.SYS, .SUMP, .BOOT, .LEMAC, .POINTS] → a.toNat ≠ (Reg.SUMP_ENTRY_WORD 0).addr → rowsAt a.toNat ≠ [] →
    exec (.registerWrite m a 4 .read) s = .next { s with resp := some (BitVec.ofNat 32 (rdw s a.toNat)) })

/-- R408: the soft reset refused, the warm reset of SYS, and the soft reset of every other block. -/
def Obligations.SoftReset : Prop :=
  ∀ (m : Master) (p : BitVec 12) (w : W32) (s : State) (b : Blk) (f : Nat), CanReach m s (p.toNat * 0x1000 + 8) → blkOf p.toNat = some (b, f) → bitOf 1 w.toNat = true →
    let refused := b ∈ [Blk.PWR, .SEC, .AO] ∨ (b = .SAFE ∧ m ≠ .safetyProc) ∨
      (b ∈ [Blk.CLU, .CYC, .LE, .PORT, .LEMAC, .GUARD, .TIME, .PEER, .AXIS, .MOTION, .POINTS] ∧ (s.lemac.launching = true ∨ rd s Reg.LEMAC_PSTATE_STATE = 3))
    ∃ u, Written (p.toNat * 0x1000 + 8) s u ∧
      (refused → ∃ t, exec (.srst m p w) s = .next t ∧ RegsWire s t ∧ SameRegsBut (cmdKeys (p.toNat * 0x1000 + 8)) s t ∧
        on t (Reg.HDR_ERRLOG_VALID p.toNat) = true) ∧
      (b = .SYS → exec (.srst m p w) s = .next (warmReset u 4)) ∧
      (¬refused → b = .SAFE → ∃ t, exec (.srst m p w) s = .next t ∧ t.safe.pset = [] ∧ t.safeA = []) ∧
      (¬refused → b ≠ .SYS → b ≠ .SAFE → ∃ t, exec (.srst m p w) s = .next t ∧ (b ≠ .TEST → t.mem = s.mem) ∧ locked t p.toNat = true ∧
        (b ≠ .FIO → ∀ k, k / 0x1000 = p.toNat → k ≠ Reg.SUMP_TAIL_WPTR_INDEX.addr → rdw t k = (regReset k).toNat) ∧
        (b ≠ .FIO → b ≠ .TEST → ∀ k, k / 0x1000 ≠ p.toNat → k ≠ 0xB1C00 → rdw t k = rdw s k))

/-- R415, R420: the readers of the sump. -/
def Obligations.SumpRead : Prop :=
  (∀ (m : Master) (w : W32) (s : State), CanReach m s Reg.SUMP_ACK.addr →
    let n := min (wbits Reg.SUMP_ACK_N w) (rd s Reg.SUMP_RPTR_UNREAD)
    ∃ t, exec (.ack m w) s = .next t ∧ RegsWire s t ∧ SameRegsBut (Reg.SUMP_RPTR_INDEX.addr :: cmdKeys Reg.SUMP_ACK.addr) s t ∧
      rd t Reg.SUMP_RPTR_UNREAD = rd s Reg.SUMP_RPTR_UNREAD - n ∧ rd t Reg.SUMP_RPTR_INDEX = (rd s Reg.SUMP_RPTR_INDEX + n) % 2 ^ 12) ∧
  (∀ (m : Master) (s : State), CanReach m s (Reg.SUMP_ENTRY_WORD 0).addr →
    let i := rd s Reg.SUMP_RSEL_INDEX
    let a := if on s Reg.SUMP_RSEL_TAIL then 0x10000200 + 16 * (i % 32) else 0x10010000 + 16 * i
    ∃ t, exec (.entry0Read m) s = .next t ∧ t = { s with regs := t.regs, resp := t.resp } ∧ t.resp = some (BitVec.ofNat 32 (mnum s a 4)) ∧
      (∀ j, j < 4 → rd t (Reg.SUMP_ENTRY_WORD j) = mnum s (a + 4 * j) 4) ∧
      rd t Reg.SUMP_RSEL_INDEX = if on s Reg.SUMP_RSEL_AUTOINC then (if on s Reg.SUMP_RSEL_TAIL then i / 32 * 32 + (i + 1) % 32 else (i + 1) % 2 ^ 12) else i)

/-- R31, R32: the internal access, by region. -/
def Obligations.InternalAccess : Prop :=
  ∀ (m : Master) (a : W32) (s : State),
    (∀ acc : MemAcc, ¬(m = .host ∧ 0x21000000 ≤ a.toNat ∧ a.toNat + MemAcc.size acc ≤ 0x21200000) → (region a.toNat = none ∨ ∃ r fin, region a.toNat = some (r, fin) ∧ (canReach m r = false ∨ (MemAcc.isWrite acc = true ∧ r.readOnly = true))) →
      ∃ t, exec (.internalAccess m a acc) s = .next t ∧ (MemAcc.isWrite acc = false → t.resp = some 0xFFFFFFFF#32) ∧
        (tget (fun _ => ({} : MFault)) t.mfault (mcode m)).valid = true ∧ (tget (fun _ => ({} : MFault)) t.mfault (mcode m)).addr = a.toNat ∧
        (∀ c, ¬(0x10010000 ≤ c ∧ c < 0x10020000) → ¬(0x10000000 ≤ c ∧ c < 0x10001000) → mget t c = mget s c)) ∧
    (∀ (r : Region) (fin n : Nat), region a.toNat = some (r, fin) → canReach m r = true → a.toNat + n ≤ fin → domOn s r.dom = true →
      r ∉ [Region.rom, .cist, .points, .descs, .pages] → (∀ p, r ≠ .pbuf p) →
      exec (.internalAccess m a (.read n)) s = .next { s with resp := some (BitVec.ofNat 32 (mnum s a.toNat n)) }) ∧
    (∀ (r : Region) (fin : Nat) (l : List Byte), region a.toNat = some (r, fin) → canReach m r = true → a.toNat + l.length ≤ fin → domOn s r.dom = true →
      (r = .ret ∨ r = .sump ∨ ∃ c, r = .clm c) →
      ∃ t, exec (.internalAccess m a (.write l)) s = .next t ∧ t = { s with mem := t.mem } ∧ SameMemBut a.toNat l.length s t ∧
        ∀ i, (h : i < l.length) → mget t (a.toNat + i) = l[i]) ∧
    (∀ p fin n : Nat, region a.toNat = some (.pbuf p, fin) → canReach m (.pbuf p) = true → a.toNat + n ≤ fin → domOn s (dPort p) = true →
      ∃ v, exec (.internalAccess m a (.read n)) s = .next { s with freeIdx := s.freeIdx + 1, resp := some v }) ∧
    (∀ n : Nat, m = .host → 0x21000000 ≤ a.toNat → a.toNat + n ≤ 0x21200000 → domOn s dHOST = true → domOn s dCIST = true →
      exec (.internalAccess m a (.read n)) s = .next { s with resp := some (BitVec.ofNat 32 (mnum s a.toNat n)) }) ∧
    (∀ (n : Nat) (w : W32), 0x40000000 ≤ a.toNat → a.toNat + 4 ≤ 0x41000000 → a.toNat + n ≤ 0x41000000 → canReach m .pages = true →
      (∃ t, exec (.internalAccess m a (.read n)) s = .next t ∧ exec (.registerWrite m (BitVec.ofNat 24 (a.toNat - 0x40000000)) n .read) s = .next t) ∧
      (∃ t, exec (.internalAccess m a (.write (leBytes 4 w.toNat))) s = .next t ∧
        exec (.registerWrite m (BitVec.ofNat 24 (a.toNat - 0x40000000)) 4 (.write w)) s = .next t))

/-- R24, R33, R370: accesses that take another path. -/
def Obligations.BridgeAndStalledAccesses : Prop :=
  (∀ (m : Master) (a : BitVec 24) (acc : WordAcc) (s : State),
    ∃ t, exec (.bridgePageAccess m a acc) s = .next t ∧ exec (.registerWrite m a 4 acc) s = .next t) ∧
  (∀ (d : Fin 16) (s : State) (m : Master) (a : BitVec 24) (n : Nat) (acc : WordAcc), domOn s d = true →
    s.stalled.find? (fun x => x.dom == d.val) = some ⟨d.val, .reg m a n acc⟩ →
    ∃ t, exec (.stalledAccessResume d) s = .next t ∧
      exec (.registerWrite m a n acc) { s with stalled := s.stalled.erase ⟨d.val, .reg m a n acc⟩ } = .next t) ∧
  (∀ (d : Fin 16) (s : State) (m : Master) (a : BitVec 21) (acc : WordAcc), domOn s d = true →
    s.stalled.find? (fun x => x.dom == d.val) = some ⟨d.val, .cist m a acc⟩ →
    ∃ t, exec (.stalledAccessResume d) s = .next t ∧
      exec (.cisternAccess m a acc) { s with stalled := s.stalled.erase ⟨d.val, .cist m a acc⟩ } = .next t) ∧
  (∀ (d : Fin 16) (s : State) (m : Master) (p : BitVec 12) (w : W32) (clk : Nat), domOn s d = true →
    s.stalled.find? (fun x => x.dom == d.val) = some ⟨d.val, .lock m p w clk⟩ →
    ∃ t, exec (.stalledAccessResume d) s = .next t ∧
      exec (.lock m p w clk) { s with stalled := s.stalled.erase ⟨d.val, .lock m p w clk⟩ } = .next t) ∧
  (∀ (d : Fin 16) (s : State) (a : W32) (n : Nat), domOn s d = true →
    s.stalled.find? (fun x => x.dom == d.val) = some ⟨d.val, .acq a n⟩ →
    exec (.stalledAccessResume d) s =
      .next { s with stalled := s.stalled.erase ⟨d.val, .acq a n⟩, resp := some (BitVec.ofNat 32 (mnum s a.toNat n)) }) ∧
  (∀ (a : BitVec 21) (s : State), domOn s dHOST = true → domOn s dCIST = true →
    ∃ t, exec (.acqBufferWrite a) s = .next t ∧ RegsWire s t ∧ SameRegsBut (sideKeys 0xB1000) s t ∧ on t (Reg.HDR_ERRLOG_VALID 0xB1) = true ∧
      (on s (Reg.HDR_ERRLOG_VALID 0xB1) = false → rdw t 0xB1028 = 2 ^ 31 + 2 * 2 ^ 20 + a.toNat % 2 ^ 12))

/-- R20, R22, R23: one frame of the bridge. -/
def Obligations.BridgeFrames : Prop :=
  ∀ s : State, domOn s dSTEWARD = true → domOn s dAO = true →
    (∃ t, exec (.bridgeFrameSend .main) s = .next t ∧ t = { s with bridge := t.bridge } ∧
      ∃ f, t.bridge.down = some f ∧ f.seq = s.bridge.seqMain + 1 ∧ t.bridge.seqMain = f.seq ∧ f.out = s.bridge.outImg ∧ f.ao = s.bridge.aoReq ∧ t.bridge.aoReq = [] ∧ f.word = s.safeB ∧ t.bridge.heart = f.heart ∧
        f.heart = if s.bridge.served = true ∧ s.bridge.withdrawn = false then s.bridge.heart + 1 else s.bridge.heart) ∧
    (∀ x : FieldSample, ∃ t f, exec (.bridgeFrameSend (.field x)) s = .next t ∧ t.bridge.up = some f ∧ f.seq = s.bridge.seqField + 1 ∧
      t.bridge.seqField = f.seq ∧ f.heart = s.bridge.heartField + 1 ∧ t.bridge.heartField = f.heart ∧ f.edm = x.edm ∧ f.rst = x.rst ∧ t.mem = s.mem ∧ (domOn s dFIELD = true → t.field.rb = x.rb)) ∧
    (∀ (f : FrameDown) (crc : Bool), s.bridge.down = some f → ∃ t, exec (.bridgeFrameReceive true crc) s = .next t ∧ t.bridge.down = none ∧
      (crc = true → f.seq = s.bridge.rxAtField + 1 → t.bridge.runAtField = 0 ∧ t.bridge.rxAtField = f.seq ∧ t.bridge.heartAtField = f.heart) ∧
      (¬(crc = true ∧ f.seq = s.bridge.rxAtField + 1) → RegsWire { s with bridge := t.bridge } t ∧ t.bridge.runAtField = s.bridge.runAtField + 1 ∧
        rd t Reg.SYS_BRIDGE_ERR_BRIDGE_ERR = min 65535 (rd s Reg.SYS_BRIDGE_ERR_BRIDGE_ERR + 1))) ∧
    (∀ (f : FrameUp) (crc : Bool), s.bridge.up = some f → ∃ t, exec (.bridgeFrameReceive false crc) s = .next t ∧ t.bridge.up = none ∧
      (crc = true → f.seq = s.bridge.rxAtMain + 1 → t.bridge.runAtMain = 0 ∧ t.bridge.rxAtMain = f.seq ∧ t.bridge.img = some f ∧ t.bridge.age = 0) ∧
      (¬(crc = true ∧ f.seq = s.bridge.rxAtMain + 1) → RegsWire { s with bridge := t.bridge } t ∧ t.bridge.runAtMain = s.bridge.runAtMain + 1 ∧
        rd t Reg.SYS_BRIDGE_ERR_BRIDGE_ERR = min 65535 (rd s Reg.SYS_BRIDGE_ERR_BRIDGE_ERR + 1)))

/-- R21, R22, R257: the fault of a direction, and who serves the refresh. -/
def Obligations.BridgeFaultAndRefresh : Prop :=
  (∀ s : State, domOn s dSTEWARD = true → 3 ≤ s.bridge.runAtMain →
    let a := 0x10010000 + 16 * rd s Reg.SUMP_WPTR_INDEX
    ∃ t, exec (.bridgeFault false) s = .next t ∧
      (role s = rALONE → Logged s t ∧ on t bridgeFlag = true ∧ SameMemBut a 16 s t ∧ mnum t a 8 = stampNow s % 2 ^ 64 ∧
        mnum t (a + 8) 4 = 0x5002 + 5 * 2 ^ 16 + b2n (!domOn s dNET) * 2 ^ 19 ∧
        rd t Reg.SUMP_WPTR_INDEX = (rd s Reg.SUMP_WPTR_INDEX + 1) % 2 ^ 12 ∧
        (rd s Reg.SUMP_RPTR_UNREAD < 4096 → rd t Reg.SUMP_RPTR_UNREAD = rd s Reg.SUMP_RPTR_UNREAD + 1)) ∧
      (role s = rACTIVE → standbyPresent s = true → on s Reg.PEER_STAT_PEER_READY = true →
        role t = rRELINQUISHED ∧ t.pair.silent = true ∧ t.bridge = { s.bridge with withdrawn := true, served := false })) ∧
  (∀ (f : Bool) (s : State), (if f then s.bridge.runAtField else s.bridge.runAtMain) < 3 → exec (.bridgeFault f) s = .next s) ∧
  (∀ s : State, domOn s dSTEWARD = true → role s ≠ rRELINQUISHED →
    exec .bridgeRefresh s = .next { s with bridge := { s.bridge with served := true, withdrawn := false } }) ∧
  (∀ s : State, exec .bridgeRefreshWithdraw s = .next { s with bridge := { s.bridge with withdrawn := true, served := false } }) ∧
  (∀ s : State, exec .refreshTimeout s = .next { s with bridge := { s.bridge with served := false } })

/-- R256: at a standby a host write that starts a shared action is discarded and logged. -/
def Obligations.StandbyDiscardsHostCommands : Prop :=
  ∀ (w : W32) (i : Fin 32) (s : State), (role s = rJOINING ∨ role s = rSTANDBY ∨ role s = rDETACHED) →
    ∀ ck ∈ [(Instr.shedMapWrite .host i w, (Reg.CYC_SHED_MAP i).addr), (.commitRequest .host w, Reg.CYC_COMMIT_AT_LO.addr), (.ginstall .host w, Reg.CYC_GCMD.addr),
        (.loadimem .host w, Reg.CYC_GCMD.addr), (.install .host w, Reg.LEMAC_CMD.addr), (.clear .host w, Reg.LEMAC_CMD.addr), (.swapReq .host w, Reg.LEMAC_SWAP.addr),
        (.axisLoad .host w, Reg.AXIS_CMD.addr), (.mark .host w, Reg.AXIS_CMD.addr), (.notch .host w, Reg.AXIS_CMD.addr), (.moveAbs .host w, Reg.MOTION_CMD.addr),
        (.speed .host w, Reg.MOTION_CMD.addr), (.gear .host w, Reg.MOTION_CMD.addr), (.cam .host w, Reg.MOTION_CMD.addr), (.free .host w, Reg.MOTION_CMD.addr),
        (.motionLoad .host w, Reg.MOTION_CMD.addr), (.stop .host w, Reg.MOTION_STOP.addr), (.halt .host w, Reg.MOTION_HALT.addr), (.stopClr .host w, Reg.MOTION_STOP_CLR.addr),
        (.moveRel .host w, Reg.MOTION_CMD.addr), (.super .host w, Reg.MOTION_CMD.addr), (.groupGo .host w, Reg.MOTION_CMD.addr), (.reregShift .host w, Reg.MOTION_CMD.addr),
        (.reregMove .host w, Reg.MOTION_CMD.addr), (.stepAccept .host w, Reg.TIME_STEP_CMD.addr), (.stepCancel .host w, Reg.TIME_STEP_CMD.addr)],
      CanReach .host s ck.2 → ∃ t, exec ck.1 s = .next t ∧ RegsWire s t ∧ SameRegsBut (sideKeys ck.2) s t ∧ on t (Reg.HDR_ERRLOG_VALID (ck.2 / 0x1000)) = true ∧
        (on s (Reg.HDR_ERRLOG_VALID (ck.2 / 0x1000)) = false → rdw t (ck.2 / 0x1000 * 0x1000 + 0x28) = 2 ^ 31 + 6 * 2 ^ 20 + ck.2 % 2 ^ 12)

/-- R35, R58, R60: the release of a tick, the release of a stalled poster, the closing of a gate. -/
def Obligations.DelayListsStallsAndGates : Prop :=
  (∀ (c : Fin 4) (s : State) (l : List IntraEnt), tget (fun _ => []) s.sched.intraLeft c = l → domOn s (dCLU c) = true →
    ∃ t, exec (.delayListRelease c) s = .next t ∧ t.mem = s.mem ∧
      tget (fun _ => []) t.sched.intraLeft c = l.filter (fun x => l.any (fun y => decide (y.tick < x.tick))) ∧
      (∀ x, l = [x] → poster s c = [] → x.flag < 32 → x.task < 8192 → (task s x.task).armed = true → (task s x.task).made = true →
        task t x.task = { task s x.task with flags := (task s x.task).flags ||| BitVec.ofNat 32 (2 ^ x.flag) })) ∧
  (∀ (s : State) (v k : Nat), v < 30 → (∀ w, w < 30 → w ≠ v → poster s w = []) → poster s v = [{ hold := some k }] → (∀ p, p < 24 → (port s p).kept = []) →
    k < 8192 → s.sched.part.getLsbD (home k) = true → tdPf s (bank s) k < 2 → tdPrio s (bank s) k ≠ 0 → (well s (home k) (tdPrio s (bank s) k)).length < 512 →
    ∃ t, exec .stallRelease s = .next t ∧ poster t v = [] ∧
      well t (home k) (tdPrio s (bank s) k) = well s (home k) (tdPrio s (bank s) k) ++ [⟨k, s.sched.seq, false⟩]) ∧
  (∀ (c : Fin 4) (n : W32) (s : State),
    (s.sched.gate.getLsbD c = true → gateEmpty s c = true → exec (.clockGateClose c n) s = .next { s with sched := { s.sched with
      gate := s.sched.gate &&& ~~~ BitVec.ofNat 4 (2 ^ c.val), clocked := tmod (fun _ => 0) s.sched.clocked c (fun k => k + n.toNat) } }) ∧
    (s.sched.gate.getLsbD c = false → exec (.clockGateClose c n) s = .next s))

/-- R56, R103: the two ends of a pre-emption. -/
def Obligations.ContextsOfPreemptedTasks : Prop :=
  ∀ (e : Fin 64) (s : State),
    let x := eng s e
    let v : Saved := { task := x.task, prio := x.prio, r := if x.mid then x.snap else x.r }
    (x.ph = .saving → ∃ t, exec (.contextSaveDone e) s = .next t ∧ (eng t e).resume = some v ∧ SameMemBut (clmAddr (e / 16) (cfg s (Reg.LE_CTX_BASE_BASE e) * 512)) 512 s t ∧
      (∀ i, i ≠ e.val → eng t i = eng s i) ∧ (x.reserved = none → (eng t e).ph = .idle) ∧
      (∀ k, x.reserved = some k → (eng t e).ph = .dmaIn ∧ (eng t e).task = k.task ∧ (eng t e).prio = tdPrio t (bank t) k.task ∧ t.sched.ran = s.sched.ran ++ [(k.task, e.val)])) ∧
    (x.ph ≠ .saving → exec (.contextSaveDone e) s = .next s) ∧
    (∀ q, x.ph = .restoring → x.resume = some q → ∃ t, exec (.contextRestoreDone e) s = .next t ∧ (eng t e).task = q.task ∧ (eng t e).prio = q.prio ∧ (eng t e).r = q.r ∧
      (eng t e).resume = none ∧ t.mem = s.mem ∧ ((well s (e / 16) 0).all (fun k => k.pre) = true → (eng t e).ph = .running ∧ ∀ i, i ≠ e.val → eng t i = eng s i)) ∧
    (x.ph ≠ .restoring → exec (.contextRestoreDone e) s = .next s)

/-- R53, R55: the order of selection. -/
def Obligations.EngineSelection : Prop :=
  ∀ (e : Fin 64) (s : State),
    let x := eng s e
    let c := e.val / 16
    let starts (t : State) (k : Tok) : Prop := exec (.engineSelect e) s = .next t ∧ (eng t e).ph = .dmaIn ∧ (eng t e).task = k.task ∧
      (eng t e).prio = tdPrio s (bank s) k.task ∧ t.mem = s.mem
    (x.ph ≠ .idle ∨ s.sched.part.getLsbD c = false → exec (.engineSelect e) s = .next s) ∧
    (x.ph = .idle → s.sched.part.getLsbD c = true → x.resume.isSome = true → exec (.engineSelect e) s = .next (setEng s e { x with ph := .restoring })) ∧
    (x.ph = .idle → s.sched.part.getLsbD c = true → x.resume = none →
      (withdrawn s e = true → exec (.engineSelect e) s = .next s) ∧
      (withdrawn s e = false → isPref s e = true → (∀ p, x.pslot = some p → ∃ t, starts t p.tok ∧ (eng t e).pslot = none ∧ (eng t e).taken = some p) ∧
        (x.pslot = none → exec (.engineSelect e) s = .next s)) ∧
      (withdrawn s e = false → isPref s e = false →
        (∀ k r, x.lq = k :: r → (∀ p, p < tdPrio s (bank s) k.task → p < 4 → well s c p = []) → ∃ t, starts t k ∧ (eng t e).lq = r) ∧
        (∀ p k r, p < 4 → well s c p = k :: r → (∀ q, q < p → well s c q = []) → (∀ h, x.lq.head? = some h → p < tdPrio s (bank s) h.task) →
          ∃ t, starts t k ∧ (eng t e).lq = x.lq ∧ well t c p = (well s c p).filter (fun y => y.seq != k.seq)) ∧
        (∀ i k, x.lq = [] → (∀ p, p < 4 → well s c p = []) → oldestSibling s e = some (i, k) →
          ∃ t, starts t k ∧ rdw t (Reg.CLU_LSTEAL_CNT_LSTEAL_CNT c).addr = (rdw s (Reg.CLU_LSTEAL_CNT_LSTEAL_CNT c).addr + 1) % 2 ^ 32) ∧
        (∀ p k, x.lq = [] → (∀ p, p < 4 → well s c p = []) → oldestSibling s e = none → stealTok s c = some (p, k) →
          ∃ t, starts t k ∧ rdw t (Reg.CLU_XSTEAL_CNT_XSTEAL_CNT c).addr = (rdw s (Reg.CLU_XSTEAL_CNT_XSTEAL_CNT c).addr + 1) % 2 ^ 32) ∧
        (x.lq = [] → (∀ p, p < 4 → well s c p = []) → oldestSibling s e = none → stealTok s c = none → exec (.engineSelect e) s = .next s)))

/-- R48, R55, R102: a task's data arrives, and its results commit. -/
def Obligations.TaskEntryAndExit : Prop :=
  ∀ (e : Fin 64) (s : State),
    let x := eng s e
    let c := e.val / 16
    (∀ k r, isPref s e = true → x.pslot = none → s.sched.part.getLsbD c = true → x.pq = k :: r →
      ∃ t, exec (.prefetchLoad e) s = .next t ∧ (eng t e).pslot.map (fun p => p.tok) = some k ∧ (eng t e).pq = r ∧ (eng t e).ph = x.ph) ∧
    (x.ph = .dmaIn → (inEntries s (taskList s (bank s) x.task)).2 = none → ∃ t, exec (.dmaInComplete e) s = .next t ∧
      (eng t e).r.pc = bits 26 16 (tdWord s (bank s) x.task 2) ∧ (∀ i : Fin 3, (eng t e).r.g[13 + i.val] = BitVec.ofNat 64 (tdWord s (bank s) x.task (13 + i.val))) ∧
      (eng t e).r.g[12] = BitVec.ofNat 64 (x.task + bits 9 0 (tdWord s (bank s) x.task 3) * 2 ^ 16 + bits 10 10 (tdWord s (bank s) x.task 3) * 2 ^ 26) ∧
      (∀ i : Fin 12, (eng t e).r.g[i.val] = 0) ∧ (∀ i : Fin 32, (eng t e).r.d[i] = 0) ∧ (∀ i : Fin 4, (eng t e).r.ac[i] = 0) ∧ (∀ i : Fin 8, (eng t e).r.ex[i] = 0) ∧
      (∀ i : Fin 2, (eng t e).r.lc[i].active = false) ∧ ((eng t e).ph = .running ∨ (eng t e).ph = .saving) ∧ (eng t e).task = x.task) ∧
    (∀ f, x.ph = .dmaIn → (inEntries s (taskList s (bank s) x.task)).2 = some f → ∃ t, exec (.dmaInComplete e) s = .next t ∧ (eng t e).ph = .fault) ∧
    (∀ (j : OutJob) (r : List OutJob) (w : Edge), x.outq = j :: r → j.writes = [] → j.pts = [] → poster s pCompletion = [] → tdEdges s (bank s) j.task = [w] →
      bits 31 30 w = 0 → (task s (bits 12 0 w)).armed = true → 1 < (task s (bits 12 0 w)).ctr →
      ∃ t, exec (.dmaOutCommit e) s = .next t ∧ (eng t e).outq = r ∧ t.mem = s.mem ∧
        task t (bits 12 0 w) = { task s (bits 12 0 w) with ctr := (task s (bits 12 0 w)).ctr - 1 })

/-- R26, R65, R68: requests that a later boundary carries out. -/
def Obligations.SheddingWithdrawalAndCommit : Prop :=
  (∀ (m : Master) (i : Fin 32) (w : W32) (s : State), CanReach m s (Reg.CYC_SHED_MAP i).addr → roleBars s m = false →
    ∃ t, exec (.shedMapWrite m i w) s = .next t ∧ t.mem = s.mem ∧ rdw t (Reg.CYC_SHED_MAP i).addr = rdw s (Reg.CYC_SHED_MAP i).addr ∧
      (∀ a, a ∈ t.sched.rejoin ↔ (a ∈ s.sched.rejoin ∨ (a / 32 = i.val ∧ bitOf (a % 32) w.toNat = true ∧ on s (shedField a) = true))) ∧
      t.sched = { s.sched with rejoin := t.sched.rejoin }) ∧
  (∀ (m : Master) (c : Fin 4) (w : W32) (s : State), CanReach m s (Reg.CLU_WITHDRAW c).addr → inService s = false → (∀ i, i < 16 → heldEngine s (c.val * 16 + i) = false) →
    ∃ t, exec (.withdrawWrite m c w) s = .next t ∧ RegsWire s t ∧ SameRegsBut (cmdKeys (Reg.CLU_WITHDRAW c).addr) s t ∧
      ∀ i, i < 16 → withdrawn t (c.val * 16 + i) = bitOf i w.toNat) ∧
  (∀ (m : Master) (w : W32) (s : State), CanReach m s Reg.CYC_COMMIT_AT_LO.addr → roleBars s m = false →
    let n := w.toNat + 2 ^ 32 * rd s Reg.CYC_COMMIT_AT_HI_CYCLE
    (n < s.sched.cycle + 3 → ∃ t, exec (.commitRequest m w) s = .next t ∧ on t Reg.CYC_COMMIT_STAT_LATE = true ∧ t.commit = s.commit) ∧
    (s.sched.cycle + 3 ≤ n → on s Reg.CYC_COMMIT_MASK_AXIS = false → on s Reg.CYC_COMMIT_MASK_MOTION = false →
      ∃ t, exec (.commitRequest m w) s = .next t ∧ t.commit = some ⟨n, [], [], []⟩ ∧ t.mem = s.mem ∧
        on t Reg.CYC_COMMIT_STAT_PEND = true ∧ on t Reg.CYC_COMMIT_STAT_DONE = false))

/-- R59, R72: the two CYC.GCMD commands. -/
def Obligations.GraphAndImemInstalls : Prop :=
  (∀ (m : Master) (w : W32) (s : State), CanReach m s Reg.CYC_GCMD.addr → roleBars s m = false →
    ((on s Reg.CYC_GCMD_BUSY = true ∨ on s Reg.LEMAC_SWAP_PEND = true) →
      (wbits Reg.CYC_GCMD_OP w = 1 → ∃ t, exec (.ginstall m w) s = .next t ∧ rd t Reg.CYC_GCMD_RESULT = 2 ∧ t.sched = s.sched ∧ t.cist = s.cist ∧ t.mem = s.mem) ∧
      (wbits Reg.CYC_GCMD_OP w = 2 → ∃ t, exec (.loadimem m w) s = .next t ∧ rd t Reg.CYC_GCMD_RESULT = 2 ∧ t.sched = s.sched ∧ t.cist = s.cist ∧ t.mem = s.mem)) ∧
    (on s Reg.CYC_GCMD_BUSY = false → on s Reg.LEMAC_SWAP_PEND = false → domOn s dCIST = false →
      (wbits Reg.CYC_GCMD_OP w = 1 → ∃ t, exec (.ginstall m w) s = .next t ∧ rd t Reg.CYC_GCMD_RESULT = 3 ∧ t.sched = s.sched) ∧
      (wbits Reg.CYC_GCMD_OP w = 2 → ∃ t, exec (.loadimem m w) s = .next t ∧ rd t Reg.CYC_GCMD_RESULT = 3 ∧ t.sched = s.sched))) ∧
  (∀ (m : Master) (w : W32) (s : State), CanReach m s Reg.CYC_GCMD.addr → roleBars s m = false → on s Reg.CYC_GCMD_BUSY = false → on s Reg.LEMAC_SWAP_PEND = false →
    let b := wbits Reg.CYC_GCMD_BLOCK w
    let e := wbits Reg.CYC_GCMD_ENGINE w
    let back (n : Nat) (t : State) : Prop := (∀ i, i < n → flt t (b + i) = 1) ∧ t.mem = s.mem ∧ t.sched = s.sched
    (wbits Reg.CYC_GCMD_OP w = 1 → domOn s dCIST = true → hostOwned s b 1 = false →
      ∃ t, exec (.ginstall m w) s = .next t ∧ rd t Reg.CYC_GCMD_RESULT = 4 ∧ t.cist = s.cist ∧ t.mem = s.mem ∧ t.sched = s.sched) ∧
    (wbits Reg.CYC_GCMD_OP w = 1 → domOn s dCIST = true → hostOwned s b 1 = true → imgLen s b 0x100000 = none →
      ∃ t, exec (.ginstall m w) s = .next t ∧ rd t Reg.CYC_GCMD_RESULT = 1 ∧ rd t Reg.CYC_GCHK_REASON = 1 ∧ on t Reg.CYC_GCHK_VALID = true ∧ back 1 t) ∧
    (wbits Reg.CYC_GCMD_OP w = 1 → domOn s dCIST = true → hostOwned s b 1 = true → ∀ len, imgLen s b 0x100000 = some len → hostOwned s b (len / 256) = true →
      (gHeaderBad s b len = true → ∃ t, exec (.ginstall m w) s = .next t ∧ rd t Reg.CYC_GCMD_RESULT = 1 ∧ rd t Reg.CYC_GCHK_REASON = 1 ∧ on t Reg.CYC_GCHK_VALID = true ∧ back (len / 256) t) ∧
      (∀ i, gHeaderBad s b len = false → gFirstSec s b = some i → ∃ t, exec (.ginstall m w) s = .next t ∧ rd t Reg.CYC_GCMD_RESULT = 1 ∧
        rd t Reg.CYC_GCHK_REASON = 2 ∧ rd t Reg.CYC_GCHK_ITEM = i % 2 ^ (Reg.CYC_GCHK_ITEM.hi + 1 - Reg.CYC_GCHK_ITEM.lo) ∧ on t Reg.CYC_GCHK_VALID = true ∧ back (len / 256) t) ∧
      (gHeaderBad s b len = false → gFirstSec s b = none → ∃ t, exec (.ginstall m w) s = .next t ∧ on t Reg.CYC_GCMD_BUSY = true ∧
        t.sched.gcmd = some { load := false, engine := 0, blk := b, n := len / 256 } ∧ (∀ i, i < len / 256 → flt t (b + i) = 2) ∧ t.mem = s.mem)) ∧
    (wbits Reg.CYC_GCMD_OP w = 2 → domOn s dCIST = true →
      (loadable s e = false → ∃ t, exec (.loadimem m w) s = .next t ∧ rd t Reg.CYC_GCMD_RESULT = 5 ∧ t.cist = s.cist) ∧
      (loadable s e = true → hostOwned s b 64 = false → ∃ t, exec (.loadimem m w) s = .next t ∧ rd t Reg.CYC_GCMD_RESULT = 4 ∧ (∀ i, flt t i = flt s i) ∧ t.sched = s.sched) ∧
      (loadable s e = true → hostOwned s b 64 = true → ∃ t, exec (.loadimem m w) s = .next t ∧ on t Reg.CYC_GCMD_BUSY = true ∧
        t.sched.gcmd = some { load := true, engine := e, blk := b, n := 64 } ∧ (∀ i, i < 64 → flt t (b + i) = 2) ∧ t.mem = s.mem))) ∧
  (∀ (c : GCmd) (i : Nat) (s : State), s.sched.gcmd = some c → c.load = false → waitsPeer s 1 = false → i < imgWord s c.blk 12 →
    let gone (i : Nat) : Prop := c.lost.getLsbD (gsec s c.blk i).clu = true ∨ domOn s (dCLU (gsec s c.blk i).clu) = false
    gone i → (∀ j, j < i → ¬gone j) → ∃ t, exec .ginstallComplete s = .next t ∧ on t Reg.CYC_GBANK_CHECKED = false ∧ rd t Reg.CYC_GCHK_REASON = 2 ∧
      rd t Reg.CYC_GCHK_ITEM = i % 2 ^ (Reg.CYC_GCHK_ITEM.hi + 1 - Reg.CYC_GCHK_ITEM.lo) ∧ rd t Reg.CYC_GCMD_RESULT = 1 ∧ t.sched.gcmd = none) ∧
  (∀ (c : GCmd) (s : State), s.sched.gcmd = some c → c.load = false → waitsPeer s 1 = false → c.lost = 0 → (∀ i, i < imgWord s c.blk 12 → domOn s (dCLU (gsec s c.blk i).clu) = true) →
    let v := writeGraph (clearValid s (1 - bank s)) c.blk (1 - bank s)
    (∀ k, gFirstTask v (1 - bank s) = some k → ∃ t, exec .ginstallComplete s = .next t ∧ on t Reg.CYC_GBANK_CHECKED = false ∧ rd t Reg.CYC_GCHK_REASON = 3 ∧
      rd t Reg.CYC_GCHK_ITEM = k % 2 ^ (Reg.CYC_GCHK_ITEM.hi + 1 - Reg.CYC_GCHK_ITEM.lo) ∧ rd t Reg.CYC_GCMD_RESULT = 1 ∧ t.sched.gcmd = none) ∧
    (gFirstTask v (1 - bank s) = none → gFirstEntry v c.blk (1 - bank s) = none → ∃ t, exec .ginstallComplete s = .next t ∧ on t Reg.CYC_GBANK_CHECKED = true ∧
      rd t Reg.CYC_GBANK_SCHED = bits 15 0 (imgWord v c.blk 8) ∧ rd t Reg.CYC_GCMD_RESULT = 0 ∧ on t Reg.CYC_GCMD_BUSY = false ∧ t.sched.gcmd = none ∧ t.mem = v.mem)) ∧
  (∀ (c : GCmd) (d : Bool) (s : State), s.sched.gcmd = some c → c.load = true → waitsPeer s 1 = false → loadReady s c = true →
    (c.lost.getLsbD (c.engine / 16) = false → domOn s (dCLU (c.engine / 16)) = true → ∃ t, exec (.loadimemComplete d) s = .next t ∧
      (c.back ≠ some false → SameMemBut (leAddr c.engine 0) 0x4000 s t ∧ (eng t c.engine).partImem = d ∧
        ∀ i, i < 0x4000 → mget t (leAddr c.engine 0 + i) = mget s (cistAddr (256 * c.blk) + i)) ∧
      rd t Reg.CYC_GCMD_RESULT = b2n d ∧ on t Reg.CYC_GCMD_BUSY = false ∧ t.sched.gcmd = none) ∧
    ((c.lost.getLsbD (c.engine / 16) = true ∨ domOn s (dCLU (c.engine / 16)) = false) → ∃ t, exec (.loadimemComplete d) s = .next t ∧
      SameMemBut (leAddr c.engine 0) 0x4000 s t ∧ rd t Reg.CYC_GCMD_RESULT = 5 ∧ on t Reg.CYC_GCMD_BUSY = false ∧ t.sched.gcmd = none ∧ (eng t c.engine).partImem = true))

/-- R23, R25, R40, R442: the count, the registers taken over, and the output image. -/
def Obligations.CycleBoundaryAndLastLaunch : Prop :=
  (∀ (clk : BitVec 128) (s : State),
    (domOn s dNET = false → exec (.cycleBoundary clk) s = .next s) ∧
    (domOn s dNET = true → ∃ t, exec (.cycleBoundary clk) s = .next t ∧ t.sched.cycle = s.sched.cycle + 1 ∧
      ∀ c : Fin 4, cfg t (Reg.CLU_CFG_PFMODE c) = rd s (Reg.CLU_CFG_PFMODE c) ∧ cfg t (Reg.CLU_CFG_STEAL_EN c) = rd s (Reg.CLU_CFG_STEAL_EN c) ∧
        cfg t (Reg.CLU_CFG_LEND_EN c) = rd s (Reg.CLU_CFG_LEND_EN c))) ∧
  (∀ (s : State),
    (domOn s dNET = false → exec .lastLaunchComplete s = .next s) ∧
    (domOn s dNET = true → ∃ t, exec .lastLaunchComplete s = .next t ∧ t.bridge = { s.bridge with outImg := BitVec.ofNat 16 (ptVal s (pt 24 0 1 0)) }))

/-- R110, R143, R145, R122: what the AXIS page does to the records. -/
def Obligations.AxisParameterRecords : Prop :=
  (∀ (m : Master) (w : W32) (s : State), CanReach m s Reg.AXIS_AREA.addr →
    (locked s 0x80 = false → anyAxisRuns s = false → ∃ t, exec (.axisAreaWrite m w) s = .next t ∧ t.mem = s.mem ∧
      rd t Reg.AXIS_AREA_EN = wbits Reg.AXIS_AREA_EN w ∧ rd t Reg.AXIS_AREA_SLICE = wbits Reg.AXIS_AREA_SLICE w ∧
      (wbits Reg.AXIS_AREA_EN w = 1 → domOn s dCIST = true → ∀ i, i < 4096 →
        flt t (4096 * wbits Reg.AXIS_AREA_SLICE w + i) = 2 ∧ (blk t (4096 * wbits Reg.AXIS_AREA_SLICE w + i)).priv = true) ∧
      (wbits Reg.AXIS_AREA_EN w = 0 → t.cist = s.cist)) ∧
    ((locked s 0x80 = false ∧ anyAxisRuns s = true) ∨
        (locked s 0x80 = true ∧ ¬(rd s Reg.AXIS_AREA_EN = wbits Reg.AXIS_AREA_EN w ∧ rd s Reg.AXIS_AREA_SLICE = wbits Reg.AXIS_AREA_SLICE w)) →
      ∃ t, exec (.axisAreaWrite m w) s = .next t ∧ RegsWire s t ∧ SameRegsBut (sideKeys Reg.AXIS_AREA.addr) s t ∧ on t (Reg.HDR_ERRLOG_VALID 0x80) = true)) ∧
  (∀ (m : Master) (w : W32) (i : Fin 128) (s : State), CanReach m s Reg.AXIS_CMD.addr → roleBars s m = false → s.commit = none → domOn s dCIST = true → on s Reg.AXIS_AREA_EN = true →
    let a := rd s Reg.AXIS_SEL_AXIS
    let b := b2n (axis s a).act
    (on s Reg.AXIS_SEL_VIEW = false → ∃ t, exec (.axisWindowWrite m i w) s = .next t ∧ SameMemBut (recAddr s a (1 - b) i) 4 s t ∧
      recWord t a (1 - b) i = w.toNat ∧ axis t a = { axis s a with pend := true }) ∧
    (on s Reg.AXIS_SEL_VIEW = true → ∃ t, exec (.axisWindowWrite m i w) s = .next t ∧ t.mem = s.mem ∧ t.axes = s.axes ∧ on t (Reg.HDR_ERRLOG_VALID 0x80) = true) ∧
    (wbits Reg.AXIS_CMD_OP w = 1 → ∃ t, exec (.axisLoad m w) s = .next t ∧ SameMemBut (recAddr s a (1 - b) 0) 512 s t ∧
      (∀ j, j < 512 → mget t (recAddr s a (1 - b) 0 + j) = mget s (recAddr s a b 0 + j)) ∧ axis t a = { axis s a with pend := false } ∧ rd t Reg.AXIS_CMD_RESULT = 0) ∧
    (wbits Reg.AXIS_CMD_OP w = 2 → ∃ t, exec (.mark m w) s = .next t ∧ t.mem = s.mem ∧ axis t a = { axis s a with pend := true } ∧ rd t Reg.AXIS_CMD_RESULT = 0) ∧
    (wbits Reg.AXIS_CMD_OP w = 3 →
      let n := wbits Reg.AXIS_CMD_INDEX w
      let f := rd s Reg.AXIS_NOTCHF_FREQ
      let v := rd s Reg.AXIS_NOTCHW_WIDTH
      let inLimits := 100 ≤ f ∧ f * period s ≤ 4500000000 ∧ 10 ≤ v ∧ v ≤ 2 * f ∧ rd s Reg.AXIS_NOTCHW_DEPTH ≤ 240
      (inLimits → ∃ t, exec (.notch m w) s = .next t ∧ SameMemBut (recAddr s a (1 - b) 0) 512 s t ∧ recWord t a (1 - b) (38 + 2 * n) = rdw s Reg.AXIS_NOTCHF.addr ∧
        recWord t a (1 - b) (39 + 2 * n) = rdw s Reg.AXIS_NOTCHW.addr ∧ recWord t a (1 - b) 2 = period s % 2 ^ 32 ∧
        (∀ j q, (notchWords f v (rd s Reg.AXIS_NOTCHW_DEPTH) (period s))[j]? = some q → recWord t a (1 - b) (18 + 5 * n + j) = unsgn 32 q % 2 ^ 32) ∧
        axis t a = { axis s a with pend := true } ∧ rd t Reg.AXIS_CMD_RESULT = 0) ∧
      (¬inLimits → ∃ t, exec (.notch m w) s = .next t ∧ t.mem = s.mem ∧ t.axes = s.axes ∧ rd t Reg.AXIS_CMD_RESULT = 1))) ∧
  (∀ (m : Master) (w : W32) (s : State), CanReach m s Reg.AXIS_CMD.addr → roleBars s m = false → (domOn s dCIST = false ∨ on s Reg.AXIS_AREA_EN = false) →
    ∀ i ∈ [((1 : Nat), Instr.axisLoad m w), (2, .mark m w), (3, .notch m w)], wbits Reg.AXIS_CMD_OP w = i.1 →
      ∃ t, exec i.2 s = .next t ∧ t.mem = s.mem ∧ t.axes = s.axes ∧ rd t Reg.AXIS_CMD_RESULT = if domOn s dCIST then 4 else 2)

/-- R152, R153: when each command is accepted, and what is kept of it. -/
def Obligations.MotionCommands : Prop :=
  ∀ (m : Master) (w : W32) (s : State), CanReach m s Reg.MOTION_CMD.addr → roleBars s m = false →
    let c := selCh s
    let x := mot s c
    let src := motSrc s c
    let at_ := rd64 s Reg.MOTION_CMD_AT_LO_CYCLE Reg.MOTION_CMD_AT_HI_CYCLE
    let due := if at_ = 0 then s.sched.cycle + motLead s else at_
    ∀ i ∈ [((1 : Nat), Instr.moveAbs m w, ((src = 0 ∧ x.st ≤ 1) ∨ (src = 2 ∧ x.st = 0) : Prop), True), (2, .moveRel m w, (src = 0 ∧ x.st ≤ 1) ∨ (src = 2 ∧ x.st = 0), True),
        (3, .speed m w, src = 0 ∧ x.st ≤ 1, bits 30 23 (rd s Reg.MOTION_SPEED_SPEED) ≠ 255), (4, .gear m w, src = 1 ∧ x.st = 0 ∧ x.lost = false, True),
        (5, .cam m w, src = 1 ∧ x.st = 0 ∧ x.lost = false ∧ on s (Reg.MOTION_CAM_VALID (bits 5 0 (motAct s c 4))) = true, True), (6, .free m w, src = 1 ∧ x.st = 2, True),
        (7, .super m w, x.st = 2, True),
        (8, .groupGo m w, src = 2 ∧ x.lost = false ∧ x.st = 0 ∧ (∀ d ∈ membersOf s c, (mot s d).st = 0), (∀ d ∈ membersOf s c, (stagedMove (mot s d)).natAbs ≤ 2 ^ 31 - 1)),
        (9, .reregShift m w, 4 ≤ x.st ∧ x.lost = true, True), (10, .reregMove m w, 4 ≤ x.st ∧ x.lost = true ∧ src = 1, True)],
      wbits Reg.MOTION_CMD_OP w = i.1 → x.cmd = none →
      ∃ t, exec i.2.1 s = .next t ∧ t.mem = s.mem ∧ (∀ d, d ≠ c → mot t d = mot s d) ∧
        (1055 < c → rd t Reg.MOTION_CMD_RESULT = 5 ∧ mot t c = x) ∧
        (c ≤ 1055 → motEn s c = false → rd t Reg.MOTION_CMD_RESULT = 6 ∧ mot t c = x) ∧
        (c ≤ 1055 → motEn s c = true → 3 ≤ x.st → i.1 < 9 → rd t Reg.MOTION_CMD_RESULT = 3 ∧ mot t c = x) ∧
        (c ≤ 1055 → motEn s c = true → x.lost = true → x.st < 3 → i.1 ∈ [4, 5, 8] → rd t Reg.MOTION_CMD_RESULT = 4 ∧ mot t c = x) ∧
        (c ≤ 1055 → motEn s c = true → x.lost = false → x.st < 3 → ¬i.2.2.1 → rd t Reg.MOTION_CMD_RESULT = 2 ∧ mot t c = x) ∧
        (c ≤ 1055 → motEn s c = true → i.2.2.1 → i.2.2.2 → at_ ≠ 0 → at_ < s.sched.cycle + motLead s → rd t Reg.MOTION_CMD_RESULT = 1 ∧ mot t c = x) ∧
        (c ≤ 1055 → motEn s c = true → i.2.2.1 → i.2.2.2 → (at_ = 0 ∨ s.sched.cycle + motLead s ≤ at_) →
          rd t Reg.MOTION_CMD_RESULT = 0 ∧ rd64 t Reg.MOTION_EFF_LO_CYCLE Reg.MOTION_EFF_HI_CYCLE = due % 2 ^ 64 ∧
          mot t c = { x with cmd := some { due := due, op := i.1, arg := sgn 64 (rd64 s Reg.MOTION_ARG_LO_ARG Reg.MOTION_ARG_HI_ARG), spd := BitVec.ofNat 32 (rd s Reg.MOTION_SPEED_SPEED) } })

/-- R148, R153, R167, R169: records, cam registers, stops and their release. -/
def Obligations.MotionRecordsAndStops : Prop :=
  ∀ (m : Master) (w : W32) (s : State), CanReach m s Reg.MOTION_CMD.addr → roleBars s m = false → s.commit = none →
    let c := selCh s
    let b := b2n (mot s c).act
    (∀ i : Fin 16, c ≤ 1055 → on s Reg.MOTION_SEL_VIEW = false → ∃ t, exec (.motionWindowWrite m i w) s = .next t ∧ t.mem = s.mem ∧
      motWord t c (1 - b) i = w.toNat ∧ (∀ d g j, j < 16 → g < 2 → (d, g, j) ≠ (c, 1 - b, i.val) → motWord t d g j = motWord s d g j) ∧ mot t c = { mot s c with pend := true }) ∧
    (∀ k : Fin 64, ∃ t, exec (.camTableWrite m k w) s = .next t ∧ t.mem = s.mem ∧ tget (fun _ => 0#32) t.camPend k = w &&& 0x80007FFF#32 ∧
      on t (Reg.MOTION_CAM_PEND k) = true ∧ rd t (Reg.MOTION_CAM_VALID k) = rd s (Reg.MOTION_CAM_VALID k) ∧ rd t (Reg.MOTION_CAM_BLOCK k) = rd s (Reg.MOTION_CAM_BLOCK k)) ∧
    (wbits Reg.MOTION_CMD_OP w = 15 → c ≤ 1055 → ∃ t, exec (.motionLoad m w) s = .next t ∧ t.mem = s.mem ∧ (∀ j, j < 16 → motWord t c (1 - b) j = motWord s c b j) ∧
      mot t c = { mot s c with pend := false } ∧ rd t Reg.MOTION_CMD_RESULT = 0) ∧
    (wbits Reg.MOTION_STOP_GRADE w ≠ 0 → ∃ u t, Written Reg.MOTION_STOP.addr s u ∧ exec (.stop m w) s = .next t ∧
      Kept { u with stops := s.stops ++ [⟨s.sched.cycle + 2, some (wbits Reg.MOTION_STOP_CH w), wbits Reg.MOTION_STOP_GRADE w, false⟩] } t) ∧
    (wbits Reg.MOTION_HALT_HALT w = 1 → ∃ u t, Written Reg.MOTION_HALT.addr s u ∧ exec (.halt m w) s = .next t ∧
      Kept { u with stops := s.stops ++ [⟨s.sched.cycle + 2, none, 3, false⟩] } t) ∧
    (∀ k, k = wbits Reg.MOTION_STOP_CLR_CH w →
      ((∃ d ∈ groupOf s k, (mot s d).lost = true ∨ (mot s d).st = 3) →
        ∃ t, exec (.stopClr m w) s = .next t ∧ t.mots = s.mots ∧ on t (Reg.HDR_ERRLOG_VALID 0x81) = true) ∧
      ((∀ d ∈ groupOf s k, (mot s d).lost = false ∧ (mot s d).st ≠ 3) → ∃ t, exec (.stopClr m w) s = .next t ∧ t.mem = s.mem ∧
        ∀ d, mot t d = if d ∈ groupOf s k ∧ 4 ≤ (mot s d).st then { mot s d with clrAt := some (s.sched.cycle + 1) } else mot s d))

/-- R88: what the word operations put into Dd and into the flags; the equality is their frame. -/
def Obligations.WordOperations : Prop :=
  ∀ (s : State) (e : Fin 64) (last : Bool) (d a b : Fin 32) (k : Fin 8), (eng s e).ph = .running →
    let x := openBundle (eng s e)
    let fin := fun u : State => if last = true then endBundle u e else u
    let A := x.snap.d[a].toInt
    let B := x.snap.d[b].toInt
    let put := fun v : Int => setD x.r d v
    let wide := fun v : Int => setCc (setD x.r d v) ccV (decide (v < -2 ^ 31 ∨ 2 ^ 31 ≤ v))
    let clamped := fun v : Int => stick (setD x.r d (max (-2 ^ 23) (min (2 ^ 23 - 1) v))) ccSAT (decide (v < -2 ^ 23 ∨ 2 ^ 23 ≤ v))
    (hasDup (x.wrote ++ [wC, wD d]) = false →
      ∀ p ∈ [(Instr.add e d a b last, wide (A + B)), (.sub e d a b last, wide (A - B)), (.adds e d a b last, clamped (A + B)),
          (.subs e d a b last, clamped (A - B)), (.and e d a b last, put (x.snap.d[a] &&& x.snap.d[b]).toNat),
          (.or e d a b last, put (x.snap.d[a] ||| x.snap.d[b]).toNat), (.xor e d a b last, put (x.snap.d[a] ^^^ x.snap.d[b]).toNat),
          (.min e d a b last, put (if A ≤ B then A else B)), (.max e d a b last, put (if A ≤ B then B else A)),
          (.sel e d a b last, put (if cc x.snap ccN = true then A else B)), (.shl e d a b last, wide (A * 2 ^ b.val)),
          (.asr e d a b last, put (A / 2 ^ b.val)), (.mov e d a last, put A), (.neg e d a last, wide (-A)),
          (.abs e d a last, wide (if A < 0 then -A else A)), (.sat24 e d a last, clamped A), (.not e d a last, put (-A - 1)),
          (.hdrm e d a last, put (if A = 0 then 32 else normK [A])), (.rflg e d last, put (task s x.task).flags.toNat),
          (.getwct e d last, put x.snap.wct.toNat), (.movdx e d k last, put x.snap.ex[k].toInt)],
        exec p.1 s = .next (fin (setEng s e { x with r := p.2, wrote := x.wrote ++ [wC, wD d] }))) ∧
    (hasDup (x.wrote ++ [wC]) = false →
      exec (.cmp e a b last) s = .next (fin (setEng s e { x with r := setCc (setCc x.r ccN (decide (A < B))) ccZ (decide (A = B)), wrote := x.wrote ++ [wC] })) ∧
      exec (.clrcc e last) s = .next (fin (setEng s e { x with r := setCc (setCc (setCc x.r ccSAT false) ccAOV false) ccINV false, wrote := x.wrote ++ [wC] })))

/-- R88, R98: the 64-bit operations, with their frame; and the forms that R80 makes illegal. -/
def Obligations.WideOperations : Prop :=
  ∀ (s : State) (e : Fin 64) (last : Bool) (d a b : Fin 16) (D A5 : Fin 32) (n : Fin 64) (dir : Bool), (eng s e).ph = .running →
    let x := openBundle (eng s e)
    let fin := fun u : State => if last = true then endBundle u e else u
    let A := x.snap.g[a].toInt
    let B := x.snap.g[b].toInt
    let W := x.snap.d[D].toInt
    let wide := fun v : Int => setCc (setG x.r d v) ccV (decide (v < -2 ^ 63 ∨ 2 ^ 63 ≤ v))
    let d5 : Fin 32 := ⟨d.val, by omega⟩
    let a5 : Fin 32 := ⟨a.val, by omega⟩
    (hasDup (x.wrote ++ [wC, wG d]) = false →
      ∀ p ∈ [(Instr.gadd e d a b last, wide (A + B)), (.gsub e d a b last, wide (A - B)), (.gmov e d5 a5 last, setG x.r d A), (.gneg e d5 a5 last, wide (-A)),
          (.gsxd e d5 D last, setG x.r d W), (.gseth e d5 D last, setG x.r d (W * 2 ^ 32 + (x.snap.g[d].toNat % 2 ^ 32 : Nat))), (.rstv e d5 last, setG x.r d x.snap.stv.toNat),
          (.gsh e dir d a n last, setG x.r d (if dir = true then A / 2 ^ n.val else A * 2 ^ n.val)), (.gmul e d a D last, wide (A * W))],
        exec p.1 s = .next (fin (setEng s e { x with r := p.2, wrote := x.wrote ++ [wC, wG d] }))) ∧
    (hasDup (x.wrote ++ [wC, wD D]) = false →
      exec (.glo e D a5 last) s = .next (fin (setEng s e { x with r := setD x.r D A, wrote := x.wrote ++ [wC, wD D] })) ∧
      exec (.ghi e D a5 last) s = .next (fin (setEng s e { x with r := setD x.r D (A / 2 ^ 32), wrote := x.wrote ++ [wC, wD D] }))) ∧
    (hasDup (x.wrote ++ [wC]) = false →
      exec (.gcmp e d5 a5 last) s =
        .next (fin (setEng s e { x with r := setCc (setCc x.r ccN (decide (x.snap.g[d].toInt < A))) ccZ (decide (x.snap.g[d].toInt = A)), wrote := x.wrote ++ [wC] }))) ∧
    (d.val % 2 = 0 → ∀ d1 : Fin 16, d1.val = d.val + 1 → hasDup (x.wrote ++ [wC, wG d, wG d1]) = false →
      ∃ q r : Int, (W ≠ 0 → A = q * W + r ∧ 0 ≤ r ∧ r < |W|) ∧ (W = 0 → q = 0 ∧ r = A) ∧
        exec (.gdiv e d a D last) s = .next (fin (setEng s e { x with
          r := stick (setCc (setG (setG x.r d q) d1 r) ccV (decide (q < -2 ^ 63 ∨ 2 ^ 63 ≤ q))) ccINV (decide (W = 0)), wrote := x.wrote ++ [wC, wG d, wG d1] }))) ∧
    (15 < A5.val → ∀ i ∈ [Instr.gmov e d5 A5 last, .gmov e A5 a5 last, .gneg e A5 a5 last, .gcmp e d5 A5 last, .gsxd e A5 D last, .glo e D A5 last, .ghi e D A5 last,
        .gseth e A5 D last, .rstv e A5 last], exec i s = .next (engineFault (setEng s e { x with issued := x.issued + 1 }) e x.task x.snap.pc .illegal)) ∧
    (d.val % 2 = 1 → exec (.gdiv e d a D last) s = .next (engineFault (setEng s e { x with issued := x.issued + 1 }) e x.task x.snap.pc .illegal))

/-- R91, R93 to R97: exponents, NORM and the conversions. -/
def Obligations.ExponentsAndConversions : Prop :=
  (∀ ws : List Int, (∀ w ∈ ws, w.natAbs ≤ 2 ^ 31) → -9 ≤ normK ws ∧ normK ws ≤ 22 ∧ (∀ w ∈ ws, (shiftRnd w (normK ws)).natAbs ≤ 2 ^ 23 - 1) ∧
    ∀ k : Int, normK ws < k → k ≤ 22 → ∃ w ∈ ws, 2 ^ 23 - 1 < (shiftRnd w k).natAbs) ∧
  ∀ (s : State) (e : Fin 64) (last : Bool) (d : Fin 32) (k i j : Fin 8) (g : Fin 16) (ac : Fin 4) (sh : BitVec 5) (s24 : Bool), (eng s e).ph = .running →
    let x := openBundle (eng s e)
    let fin := fun u : State => if last = true then endBundle u e else u
    let X := fun n : Fin 8 => x.snap.ex[n].toInt
    let W := x.snap.d[d].toInt
    (hasDup (x.wrote ++ [wC, wEx k]) = false →
      ∀ p ∈ [(Instr.addx e k i j last, X i + X j), (.subx e k i j last, X i - X j), (.maxx e k i j last, if X i ≤ X j then X j else X i),
          (.minx e k i j last, if X i ≤ X j then X i else X j), (.movxd e k d last, W)],
        exec p.1 s = .next (fin (setEng s e { x with
          r := stick (setEx x.r k (max (-128) (min 127 p.2))) ccSAT (decide (p.2 < -128 ∨ 127 < p.2)), wrote := x.wrote ++ [wC, wEx k] }))) ∧
    (hasDup (x.wrote ++ [wC, wD d]) = false →
      (∀ v, v = shiftRnd W (X i - X j) →
        exec (.aln e d i j last) s = .next (fin (setEng s e { x with
          r := stick (setD x.r d (max (-2 ^ 31) (min (2 ^ 31 - 1) v))) ccSAT (decide (v < -2 ^ 31 ∨ 2 ^ 31 ≤ v)), wrote := x.wrote ++ [wC, wD d] }))) ∧
      (∀ v n : Int, n = (if s24 = true then 2 ^ 23 else 2 ^ 31) → v = rnd x.snap.ac[ac].toInt (23 + sh.toInt).toNat →
        exec (.rda e d ac sh s24 last) s = .next (fin (setEng s e { x with
          r := stick (setD x.r d (max (-n) (min (n - 1) v))) ccSAT (decide (v < -n ∨ n ≤ v)), wrote := x.wrote ++ [wC, wD d] }))) ∧
      (W = 0 → exec (.b2f e d d k last) s = .next (fin (setEng s e { x with r := setD x.r d 0, wrote := x.wrote ++ [wC, wD d] })))) ∧
    (hasDup (x.wrote ++ [wC, wD d, wEx k]) = false →
      (∃ t m y, exec (.cvtf e d g i k last) s = .next (fin t) ∧ t = setEng s e { x with
          r := { x.r with d := (setD x.r d m).d, ex := (setEx x.r k y).ex, cc := (eng t e).r.cc }, wrote := x.wrote ++ [wC, wD d, wEx k] } ∧
          m.natAbs ≤ 2 ^ 23 - 1 ∧ y ≤ 127 ∧ (x.snap.g[g].toInt = 0 → m = 0 ∧ y = X i) ∧ (x.snap.g[g].toInt ≠ 0 → 2 ^ 22 ≤ m.natAbs)) ∧
      (W = 0 → exec (.f2b e d d k last) s = .next (fin (setEng s e { x with r := setD x.r d 0, wrote := x.wrote ++ [wC, wD d, wEx k] })))) ∧
    (hasDup (x.wrote ++ [wC, wG g]) = false → ∀ v, v = shiftRnd W (X i - X j - 23) →
      exec (.cvti e g d i j last) s = .next (fin (setEng s e { x with
        r := stick (setG x.r g (max (-2 ^ 63) (min (2 ^ 63 - 1) v))) ccSAT (decide (v < -2 ^ 63 ∨ 2 ^ 63 ≤ v)), wrote := x.wrote ++ [wC, wG g] }))) ∧
    (∀ c : Fin 8, d.val + c.val ≤ 31 →
      let is := (List.range (c.val + 1)).map (dAt d)
      let ws := is.map (fun q => x.snap.d[q].toInt)
      hasDup (x.wrote ++ (wC :: wEx k :: is.map wD)) = false →
        ((∀ w ∈ ws, w = 0) → ∃ t, exec (.norm e d c k last) s = .next (fin t) ∧ cc (eng t e).r ccZ = true ∧
          ∀ q ∈ is, (eng t e).r.d[q] = 0#32) ∧
        ((∃ w ∈ ws, w ≠ 0) → -128 ≤ X k - normK ws → X k - normK ws ≤ 127 →
          ∃ t, exec (.norm e d c k last) s = .next (fin t) ∧ t = setEng s e (eng t e) ∧ (eng t e).r.ex[k].toInt = X k - normK ws ∧ cc (eng t e).r ccZ = false ∧
            (∀ q ∈ is, (eng t e).r.d[q].toInt = shiftRnd x.snap.d[q].toInt (normK ws)) ∧ (∀ q ∉ is, (eng t e).r.d[q] = x.r.d[q]) ∧
            (eng t e).r.ac = x.r.ac ∧ (eng t e).r.g = x.r.g ∧ (eng t e).r.p = x.r.p ∧ (eng t e).r.lc = x.r.lc ∧ (eng t e).r.pc = x.r.pc))

/-- R86, R87, R90, R92: what the M slot does to the accumulators; a range that passes D31 is illegal. -/
def Obligations.MultiplyAccumulate : Prop :=
  ∀ (s : State) (e : Fin 64) (last : Bool) (mode sum k n q a : Fin 4) (dx dy : Fin 32) (mask : BitVec 4) (sh : BitVec 6) (neg z : Bool), (eng s e).ph = .running →
    let x := openBundle (eng s e)
    let fin := fun u : State => if last = true then endBundle u e else u
    let M := fun i : Nat => max (-2 ^ 23) (min (2 ^ 23 - 1) x.snap.d[i % 32].toInt)
    let keeps := fun (t : State) (ks : List (Fin 4)) => t = setEng s e (eng t e) ∧ (eng t e).stores = x.stores ∧ (eng t e).r.d = x.r.d ∧ (eng t e).r.ex = x.r.ex ∧ (eng t e).r.g = x.r.g ∧
      (eng t e).r.p = x.r.p ∧ (eng t e).r.lc = x.r.lc ∧ (eng t e).r.pc = x.r.pc ∧ ∀ c ∉ ks, (eng t e).r.ac[c] = x.r.ac[c]
    (∀ g : Fin 4, ((sum = 1 ∧ g = 0) ∨ (sum = 2 ∧ g = 1)) → hasDup (x.wrote ++ [wM, wAc g]) = false →
      ∀ v : Int, ((mode = 0 ∧ dy.val ≤ 28 ∧ v = M dx * M dy + M dx * M (dy.val + 1) + M dx * M (dy.val + 2) + M dx * M (dy.val + 3)) ∨
          (mode = 1 ∧ dx.val ≤ 28 ∧ v = M dx * M dy + M (dx.val + 1) * M dy + M (dx.val + 2) * M dy + M (dx.val + 3) * M dy) ∨
          (mode = 2 ∧ dx.val ≤ 30 ∧ dy.val ≤ 30 ∧ v = M dx * M dy + M dx * M (dy.val + 1) + M (dx.val + 1) * M dy + M (dx.val + 1) * M (dy.val + 1))) →
        ∀ p ∈ [(Instr.mac4 e mode dx dy sum last, x.snap.ac[g].toInt + v), (.msu4 e mode dx dy sum last, x.snap.ac[g].toInt - v), (.mpy4 e mode dx dy sum last, v)],
          ∃ t, exec p.1 s = .next (fin t) ∧ keeps t [g] ∧ (eng t e).r.ac[g] = BitVec.ofInt 72 p.2 ∧
            cc (eng t e).r ccAOV = (cc x.r ccAOV || decide (p.2 < -2 ^ 71 ∨ 2 ^ 71 ≤ p.2))) ∧
    (dx.val + n.val ≤ 31 → dy.val + n.val ≤ 31 → hasDup (x.wrote ++ [wM, wAc k]) = false →
      ∀ v : Int, v = ((List.range (n.val + 1)).map (fun i => M (dx.val + i) * M (dy.val + i))).sum →
        ∀ p ∈ [(Instr.dot e k n dx dy last, x.snap.ac[k].toInt + v), (.dotn e k n dx dy last, x.snap.ac[k].toInt - v), (.dotz e k n dx dy last, v)],
          ∃ t, exec p.1 s = .next (fin t) ∧ keeps t [k] ∧ (eng t e).r.ac[k] = BitVec.ofInt 72 p.2) ∧
    (hasDup (x.wrote ++ (wM :: ([(0 : Fin 4), 1, 2, 3].filter (fun c => mask.getLsbD c.val)).map wAc)) = false →
      ∃ t, exec (.clra e mask last) s = .next (fin t) ∧ keeps t [0, 1, 2, 3] ∧ ∀ c : Fin 4, (eng t e).r.ac[c] = if mask.getLsbD c.val = true then 0#72 else x.r.ac[c]) ∧
    (hasDup (x.wrote ++ [wM, wAc k]) = false → ∀ v : Int, v = shiftRnd x.snap.ac[a].toInt (-sh.toInt) →
      ∃ t, exec (.adda e k a sh neg last) s = .next (fin t) ∧ keeps t [k] ∧
        (eng t e).r.ac[k] = BitVec.ofInt 72 (if neg = true then x.snap.ac[k].toInt - v else x.snap.ac[k].toInt + v)) ∧
    (∀ px py : Fin 8, px.val = n.val → py.val = q.val + 4 → hasDup (x.wrote ++ [wM, wXY false, wXY true, wAc k, 64 + px.val, 64 + py.val]) = false →
      ∃ t, exec (.ftap e n q k neg z last) s = .next (fin t) ∧ t = setEng s e (eng t e) ∧ (eng t e).r.d = x.r.d ∧ (eng t e).r.g = x.r.g ∧ (eng t e).r.ex = x.r.ex ∧
        (∀ c, c ≠ k → (eng t e).r.ac[c] = x.r.ac[c]) ∧ (∀ c, c ≠ px → c ≠ py → (eng t e).r.p[c] = x.r.p[c]) ∧
        ((x.snap.p[px].l = 0#11 → (eng t e).r.p[px].a = x.snap.p[px].a - 4#10) ∧ (x.snap.p[py].l = 0#11 → (eng t e).r.p[py].a = x.snap.p[py].a - 4#10)) ∧
        (eng t e).stores.length = x.stores.length + 4) ∧
    ((mode = 3 ∨ (mode = 0 ∧ 28 < dy.val) ∨ (mode = 1 ∧ 28 < dx.val) ∨ (mode = 2 ∧ (dx.val = 31 ∨ dy.val = 31))) →
      ∀ i ∈ [Instr.mac4 e mode dx dy sum last, .msu4 e mode dx dy sum last, .mpy4 e mode dx dy sum last],
        exec i s = .next (engineFault (setEng s e { x with issued := x.issued + 1 }) e x.task x.snap.pc .illegal)) ∧
    ((31 < dx.val + n.val ∨ 31 < dy.val + n.val) → ∀ i ∈ [Instr.dot e k n dx dy last, .dotn e k n dx dy last, .dotz e k n dx dy last],
        exec i s = .next (engineFault (setEng s e { x with issued := x.issued + 1 }) e x.task x.snap.pc .illegal))

/-- R76, R82, R83: the loads, the stores put with the bundle, and the pointers. -/
def Obligations.LocalAndClusterMemory : Prop :=
  (∀ (p : Ptr) (a : Int), (p.l = 0#11 → (wrapPtr p a : Int) = a % 1024) ∧
    (p.l ≠ 0#11 → ∃ o : Nat, o < p.l.toNat ∧ wrapPtr p a = (p.b.toNat + o) % 1024 ∧ (a - p.b.toNat - o) % p.l.toNat = 0)) ∧
  ∀ (s : State) (e : Fin 64) (last y : Bool) (p md : Fin 4) (dn a b : Fin 32) (g : Fin 16) (c : Fin 2), (eng s e).ph = .running →
    let x := openBundle (eng s e)
    let fin := fun u : State => if last = true then endBundle u e else u
    let half := if x.prio ≤ 1 then 1 else 0
    let word := fun w : Nat => if tget (fun _ => false) (eng s e).wbit (wKey y half w) = true then mnum s (xyAddr e y half w) 4 else 0
    (∀ k : Fin 8, k.val = p.val + 4 * b2n y →
      let q := x.snap.p[k]
      let moved := fun n : Int => if md = 0 then x.r else setPtr x.r k { x.r.p[k] with a := if md = 1 then (ptrStep q n).a else if md = 2 then (ptrStep q (-n)).a else (ptrStep q q.m.toInt).a }
      let ptr : List Nat := if md = 0 then [] else [64 + k.val]
      (hasDup (x.wrote ++ ([wXY y, wD dn] ++ ptr)) = false →
        exec (.ld e y p dn md last) s = .next (fin (setEng s e { x with r := setD (moved 1) dn (word (wrapPtr q q.a.toNat)), wrote := x.wrote ++ ([wXY y, wD dn] ++ ptr) }))) ∧
      (∀ d1 : Fin 32, d1.val = dn.val + 1 → hasDup (x.wrote ++ ([wXY y, wD dn, wD d1] ++ ptr)) = false →
        exec (.ld2 e y p dn md last) s = .next (fin (setEng s e { x with r := setD (setD (moved 2) dn (word (wrapPtr q q.a.toNat))) d1 (word (wrapPtr q (q.a.toNat + 1))), wrote := x.wrote ++ ([wXY y, wD dn, wD d1] ++ ptr) }))) ∧
      (hasDup (x.wrote ++ (wXY y :: ptr)) = false →
        exec (.st e y p dn md last) s = .next (fin (setEng s e { x with r := moved 1, wrote := x.wrote ++ (wXY y :: ptr), stores := x.stores ++ [(xyAddr e y half (wrapPtr q q.a.toNat), leBytes 4 x.snap.d[dn].toNat)] })) ∧
        ∀ d1 : Fin 32, d1.val = dn.val + 1 →
          exec (.st2 e y p dn md last) s = .next (fin (setEng s e { x with r := moved 2, wrote := x.wrote ++ (wXY y :: ptr), stores := x.stores ++ [(xyAddr e y half (wrapPtr q q.a.toNat), leBytes 4 x.snap.d[dn].toNat), (xyAddr e y half (wrapPtr q (q.a.toNat + 1)), leBytes 4 x.snap.d[d1].toNat)] })))) ∧
    (∀ n : Nat, (n = 4 ∨ n = 8) →
      let o := x.snap.d[a].toNat + n * b.val
      let at_ := clmAddr (e.val / 16) (o - o % n)
      (o < 2 ^ 18 →
        (n = 4 → hasDup (x.wrote ++ [wC, wD dn]) = false →
          exec (.ldc e dn a b last) s = .next (fin (setEng s e { x with r := setD x.r dn (mnum s at_ 4), wrote := x.wrote ++ [wC, wD dn] }))) ∧
        (n = 8 → hasDup (x.wrote ++ [wC, wG g]) = false →
          exec (.ldcg e g a b last) s = .next (fin (setEng s e { x with r := setG x.r g (mnum s at_ 8), wrote := x.wrote ++ [wC, wG g] }))) ∧
        (hasDup (x.wrote ++ [wC]) = false →
          (n = 4 → exec (.stc e dn a b last) s = .next (fin (setEng s e { x with wrote := x.wrote ++ [wC], stores := x.stores ++ [(at_, leBytes 4 x.snap.d[dn].toNat)] }))) ∧
          (n = 8 → exec (.stcg e g a b last) s = .next (fin (setEng s e { x with wrote := x.wrote ++ [wC], stores := x.stores ++ [(at_, leBytes 8 x.snap.g[g].toNat)] }))))) ∧
      (2 ^ 18 ≤ o → ∀ i ∈ (if n = 4 then [(Instr.ldc e dn a b last, [wC, wD dn]), (.stc e dn a b last, [wC])] else [(Instr.ldcg e g a b last, [wC, wG g]), (.stcg e g a b last, [wC])]),
        exec i.1 s = .next (engineFault (setEng s e { x with issued := x.issued + 1 }) e x.task x.snap.pc (if hasDup (x.wrote ++ i.2) then .illegal else .clmemRange)))) ∧
    (∀ (k : Fin 8) (k5 : Fin 32), k5.val = k.val →
      let A := x.snap.d[a].toInt
      let set := fun v : Ptr => setPtr x.r k v
      (∀ f ∈ [(Instr.setpa e k5 a last, set { x.r.p[k] with a := BitVec.ofNat 10 (wrapPtr x.snap.p[k] (A % 1024)) }),
          (.setpb e k5 a last, set { x.r.p[k] with b := BitVec.ofInt 10 A }),
          (.setpl e k5 a last, stick (set { x.r.p[k] with l := BitVec.ofInt 11 (max 0 (min 1024 A)) }) ccSAT (decide (A < 0 ∨ 1024 < A))),
          (.setpm e k5 a last, stick (set { x.r.p[k] with m := BitVec.ofInt 8 (max (-128) (min 127 A)) }) ccSAT (decide (A < -128 ∨ 127 < A)))],
        (hasDup (x.wrote ++ [wC, 64 + k.val]) = false →
          exec f.1 s = .next (fin (setEng s e { x with r := f.2, wrote := x.wrote ++ [wC, 64 + k.val] }))) ∧
        (64 + k.val ∈ x.wrote → exec f.1 s = .next (engineFault (setEng s e { x with issued := x.issued + 1 }) e x.task x.snap.pc .illegal))) ∧
      (hasDup (x.wrote ++ [wC, wD dn]) = false →
        exec (.getpa e dn k5 last) s = .next (fin (setEng s e { x with r := setD x.r dn x.snap.p[k].a.toNat, wrote := x.wrote ++ [wC, wD dn] })) ∧
        exec (.getlc e dn ⟨c.val, by omega⟩ last) s = .next (fin (setEng s e { x with r := setD x.r dn x.snap.lc[c].ctr.toNat, wrote := x.wrote ++ [wC, wD dn] })))) ∧
    (∀ i, (dn = 31 ∧ (i = .ld2 e y p dn md last ∨ i = .st2 e y p dn md last)) ∨ (7 < b.val ∧ (i = .setpa e b a last ∨ i = .setpb e b a last ∨
        i = .setpl e b a last ∨ i = .setpm e b a last ∨ i = .getpa e dn b last)) ∨ (1 < b.val ∧ i = .getlc e dn b last) →
      exec i s = .next (engineFault (setEng s e { x with issued := x.issued + 1 }) e x.task x.snap.pc .illegal))

/-- R79, R80, R84, R99: the end of a bundle, and the long immediates. -/
def Obligations.BundlesAndLongImmediates : Prop :=
  ∀ (s : State) (e : Fin 64), (eng s e).ph = .running →
    let x := openBundle (eng s e)
    let pc := x.snap.pc
    let illegal := engineFault (setEng s e { x with issued := x.issued + 1 }) e x.task pc .illegal
    let goes := fun r : LeRegs => setEng s e { x with r := r, snap := r, issued := x.issued + 1, mid := false, wrote := [], stores := [] }
    (∀ (v : BitVec 64) (last : Bool), v ≠ 0 → exec (.nop e v last) s = .next illegal) ∧
    (hasDup x.wrote = false → exec (.nop e 0 false) s = .next (setEng s e x)) ∧
    (hasDup x.wrote = false → x.stores = [] →
      (pc < 2047 → (∀ k : Fin 2, x.r.lc[k].active = true → x.r.lc[k].stop ≠ pc) → exec (.nop e 0 true) s = .next (goes { x.r with pc := pc + 1 })) ∧
      (pc = 2047 → (∀ k : Fin 2, x.r.lc[k].active = true → x.r.lc[k].stop ≠ pc) →
        ∃ y, y.task = x.task ∧ exec (.nop e 0 true) s = .next (engineFault (setEng s e y) e x.task 2047 .pcRange)) ∧
      (∀ k : Fin 2, x.r.lc[k].active = true → x.r.lc[k].stop = pc → (x.r.lc[1 - k].active = true → x.r.lc[1 - k].stop ≠ pc) → x.r.lc[k].start < 2048 → pc < 2047 →
        let turned := if x.r.lc[k].rot = true then { x.r with d := (rotate x.r).d, wct := x.r.wct + 1 } else x.r
        let l := x.r.lc[k]
        exec (.nop e 0 true) s = .next (goes (if l.ctr = 1 then { turned with lc := x.r.lc.set k { l with active := false, ctr := 0 }, pc := pc + 1 }
          else { turned with lc := x.r.lc.set k { l with ctr := l.ctr - 1 }, pc := l.start })))) ∧
    (∀ r : LeRegs, (∀ i : Fin 32, i.val < 16 → (rotate r).d[i] = r.d[i]) ∧ (rotate r).d[(16 : Fin 32)] = r.d[(31 : Fin 32)] ∧
      ∀ i j : Fin 32, 16 ≤ i.val → j.val = i.val + 1 → (rotate r).d[j] = r.d[i]) ∧
    (∀ (y : Bool) (h w v : Nat), h < 2 → w < 1024 → v < 2 ^ 32 → hasDup x.wrote = false → x.stores = [(xyAddr e y h w, leBytes 4 v)] → pc < 2047 →
      (∀ k : Fin 2, x.r.lc[k].active = false) → ∃ t, exec (.nop e 0 true) s = .next t ∧ xyRead t e y h w = v ∧ SameMemBut (xyAddr e y h w) 4 s t ∧
        (eng t e).r = { x.r with pc := pc + 1 } ∧ (eng t e).stores = [] ∧ t.regs = s.regs) ∧
    (∀ (d a b : Fin 32) (last : Bool), (wC ∈ x.wrote ∨ wD d ∈ x.wrote) →
      exec (.add e d a b last) s = .next illegal ∧ exec (.mov e d a last) s = .next illegal) ∧
    (∀ (d : Fin 32) (imm : W32), x.wrote = [] → x.stores = [] → pc < 2047 → (∀ k : Fin 2, x.r.lc[k].active = false) → x.r.pc = pc →
      exec (.lid e d imm) s = .next (goes { setD x.r d imm.toInt with pc := pc + 1 }) ∧
      (∀ g : Fin 16, g.val = d.val → exec (.lig e d imm) s = .next (goes { setG x.r g imm.toInt with pc := pc + 1 }) ∧
        exec (.ligh e d imm) s = .next (goes { setG x.r g (imm.toInt * 2 ^ 32 + (x.r.g[g].toNat % 2 ^ 32 : Nat)) with pc := pc + 1 })) ∧
      (15 < d.val → exec (.lig e d imm) s = .next illegal ∧ exec (.ligh e d imm) s = .next illegal) ∧
      (∀ k : Fin 8, k.val = d.val →
        (bits 21 11 imm.toNat ≤ 1024 → bits 10 10 imm.toNat = 0 → bits 23 22 imm.toNat = 0 →
          exec (.lip e d imm) s = .next (goes { setPtr x.r k ⟨imm.setWidth 10, imm.setWidth 10, (imm >>> 11).setWidth 11, (imm >>> 24).setWidth 8⟩ with pc := pc + 1 })) ∧
        (imm.toNat < 256 → exec (.lix e d imm) s = .next (goes { setEx x.r k imm.toInt with pc := pc + 1 }))) ∧
      ((7 < d.val ∨ 1024 < bits 21 11 imm.toNat ∨ bits 10 10 imm.toNat ≠ 0 ∨ bits 23 22 imm.toNat ≠ 0) → exec (.lip e d imm) s = .next illegal) ∧
      ((7 < d.val ∨ 256 ≤ imm.toNat) → exec (.lix e d imm) s = .next illegal)) ∧
    (∀ (d : Fin 32) (imm : W32), (∃ q ∈ x.wrote, 100 ≤ q ∧ q < 104) → exec (.lid e d imm) s = .next illegal)

/-- R85, R99, R100: control flow. -/
def Obligations.LoopEngineControlFlow : Prop :=
  ∀ (s : State) (e : Fin 64), (eng s e).ph = .running → (eng s e).mid = false →
    let x := openBundle (eng s e)
    let r := x.r
    let faults := fun c : EngCause => engineFault (setEng s e { x with issued := x.issued + 1 }) e x.task r.pc c
    let goes := fun q : LeRegs => setEng s e { x with r := q, snap := q, issued := x.issued + 1, mid := false, wrote := [], stores := [] }
    let ends := ∃ k : Fin 2, r.lc[k].active = true ∧ r.lc[k].stop = r.pc
    let left := fun t : Nat => r.lc.map (fun l => if l.start ≤ t ∧ t ≤ l.stop then l else { l with active := false })
    (∀ (c : Fin 32) (t : Fin 2048), (12 < c.val → exec (.b e c t) s = .next (faults .illegal)) ∧
      (c.val ≤ 12 → ends → exec (.b e c t) s = .next (faults .loop)) ∧
      (c.val ≤ 12 → ¬ends →
        (condHolds r c = true → exec (.b e c t) s = .next (goes { r with lc := left t.val, pc := t.val })) ∧
        (condHolds r c = false → r.pc < 2047 → exec (.b e c t) s = .next (goes { r with pc := r.pc + 1 })))) ∧
    (∀ t : Fin 2048, (ends → exec (.call e t) s = .next (faults .loop) ∧ exec (.ret e) s = .next (faults .loop)) ∧
      (¬ends → (r.stack.length < 4 → exec (.call e t) s = .next (goes { r with stack := (r.pc + 1) % 2048 :: r.stack, pc := t.val })) ∧
        (4 ≤ r.stack.length → exec (.call e t) s = .next (faults .stack)))) ∧
    (¬ends → (r.stack = [] → exec (.ret e) s = .next (faults .stack)) ∧
      ∀ t q, r.stack = t :: q → t < 2048 → exec (.ret e) s = .next (goes { r with lc := left t, stack := q, pc := t })) ∧
    (∀ (k : Fin 2) (rot creg : Bool) (dn : Fin 32) (count : BitVec 12) (stop : Fin 2048),
      let n : Int := if creg = true then max 0 (min 4095 r.d[dn].toInt) else count.toNat
      let bad := r.lc[k].active = true ∨ (rot = true ∧ r.lc[1 - k].active = true ∧ r.lc[1 - k].rot = true) ∨ stop.val ≤ r.pc ∨
        (r.lc[1 - k].active = true ∧ r.lc[1 - k].stop = stop.val) ∨ isCtl s e stop = true
      let q := stick r ccSAT (creg && decide (r.d[dn].toInt < 0 ∨ 4095 < r.d[dn].toInt))
      let turned := if rot = true then { q with wct := 0 } else q
      ((ends ∨ bad) → exec (.loop e k rot creg dn count stop) s = .next (faults .loop)) ∧
      (¬ends → ¬bad → 1 ≤ n → exec (.loop e k rot creg dn count stop) s =
        .next (goes { turned with lc := r.lc.set k ⟨true, BitVec.ofInt 12 n, r.pc + 1, stop, rot⟩, pc := r.pc + 1 })) ∧
      (¬ends → ¬bad → n = 0 → stop.val < 2047 → exec (.loop e k rot creg dn count stop) s =
        .next (goes { turned with lc := r.lc.set k { r.lc[k] with ctr := 0 }, pc := stop.val + 1 }))) ∧
    condHolds r 0 = true ∧ condHolds r 1 = cc r ccZ ∧ (condHolds r 2 = !cc r ccZ) ∧ condHolds r 3 = cc r ccN ∧ (condHolds r 4 = !cc r ccN) ∧ condHolds r 5 = cc r ccV ∧
    (condHolds r 6 = !cc r ccV) ∧ condHolds r 7 = cc r ccSAT ∧ (condHolds r 8 = !cc r ccSAT) ∧ condHolds r 9 = cc r ccSTALE ∧ (condHolds r 10 = !cc r ccSTALE) ∧
    (condHolds r 11 = true ↔ cc r ccN = false ∧ cc r ccZ = false) ∧ (condHolds r 12 = true ↔ cc r ccN = true ∨ cc r ccZ = true)

/-- R48, R104 to R107: what leaves an engine. -/
def Obligations.TaskExitsAndEngineFaults : Prop :=
  (∀ (s : State) (e : Fin 64), (eng s e).ph = .running → (eng s e).mid = false → (eng s e).r.pc < 2048 → (∀ k : Fin 2, (eng s e).r.lc[k].active = true → (eng s e).r.lc[k].stop ≠ (eng s e).r.pc) →
    let x := openBundle (eng s e)
    let next := fun q : LeRegs => setEng s e { x with r := q, snap := q, issued := x.issued + 1, mid := false, wrote := [], stores := [] }
    (∀ lib : LibTask, ∃ t, exec (.done e lib) s = .next t ∧
      (lib = .none → t.mem = s.mem ∧ (eng t e).ph = (if poster s pCompletion = [] then .idle else .atDone) ∧ (eng t e).r = x.r ∧
        (∃ j, (eng t e).outq = x.outq ++ [j] ∧ j.task = x.task ∧ j.pc = x.r.pc ∧ j.writes = outWrites s e (engHalf x) (bank s) x.task) ∧
        rd t (Reg.LE_DONE_CNT_DONE_CNT e) = (rd s (Reg.LE_DONE_CNT_DONE_CNT e) + 1) % 2 ^ 32 ∧
        rd t (Reg.LE_SAT_CNT_SAT_CNT e) = (if cc x.r ccSAT = true ∨ cc x.r ccAOV = true ∨ cc x.r ccINV = true then (rd s (Reg.LE_SAT_CNT_SAT_CNT e) + 1) % 2 ^ 32
          else rd s (Reg.LE_SAT_CNT_SAT_CNT e)))) ∧
    (∀ (reg : Bool) (da f : Fin 32) (k : BitVec 13),
      (f = 0 → exec (.evt e reg da f k) s = .next (engineFault (setEng s e { x with issued := x.issued + 1 }) e x.task x.r.pc .illegal)) ∧
      (f ≠ 0 → x.r.pc < 2047 → exec (.evt e reg da f k) s =
        .next (postItem (next { x.r with pc := x.r.pc + 1 }) pCompletion { edges := [2 ^ 30 + f.val * 2 ^ 24 + (if reg = true then x.r.d[da].toNat % 2 ^ 13 else k.toNat)] }))) ∧
    exec (.yield e) s = .next (
      let u := incCnt (next x.r) (Reg.CLU_YIELD_CNT_YIELD_CNT (e.val / 16))
      postItem (setEng u e { eng u e with ph := .atYield, wbit := x.wbit.filter (fun k => k.1 / 1024 % 2 ≠ engHalf x) }) pCompletion { repost := some x.task, eng := some e })) ∧
  (∀ (s : State) (e : Fin 64), (eng s e).ph = .running → s.tests = [] → ∃ t, exec (.lockup e) s = .next t ∧ (eng t e).ph = .fault ∧
    rd t (Reg.LE_FAULT_TASK e) = (eng s e).task % 2 ^ 13 ∧ rd t (Reg.LE_FAULT_CAUSE e) = 9 ∧ withdrawn t e = true) ∧
  (∀ (m : Master) (e : Fin 64) (w : W32) (s : State), CanReach m s (Reg.LE_CTRL_CLR_FAULT e).addr → s.sched.gcmd = none →
    wbits (Reg.LE_CTRL_CLR_FAULT e) w = 1 → ∃ u, Written (Reg.LE_CTRL_CLR_FAULT e).addr s u ∧
      ((eng s e).ph ≠ .fault → exec (.clrFault m e w) s = .next u) ∧
      ((eng s e).ph = .fault → withdrawn s e = true → exec (.clrFault m e w) s = .next (setEng (wr u (wdField e) 1) e { eng s e with ph := .idle })) ∧
      ((eng s e).ph = .fault → ∃ t, exec (.clrFault m e w) s = .next t ∧ (eng t e).ph = .idle ∧ withdrawn t e = true))

/-- R49, R187, R196: node frames and sync measurements. -/
def Obligations.NodeAndSyncFrames : Prop :=
  ∀ (f : RxFrame) (s : State), ∀ i ∈ [Instr.nfReceive f, .syReceive f], ∀ p, p = f.port.val →
    (portLive s p = false → exec i s = .next s) ∧
    (portLive s p = true →
      (windowAt s p f.start = none → f.fcs = false → ∃ t, exec i s = .next t ∧ RegsWire s t ∧ on t (Reg.PORT_STAT_LINK p) = true ∧
        rd t (Reg.PORT_CRC_ERR_COUNT p) = min 65535 (rd s (Reg.PORT_CRC_ERR_COUNT p) + 1) ∧ rd t (Reg.PORT_VRUN_RUN p) = rd s (Reg.PORT_VRUN_RUN p)) ∧
      (windowAt s p f.start = none → f.fcs = true → asyncAt s p f.start = none → ∃ t, exec i s = .next t ∧ RegsWire s t ∧
        min 255 (rd s (Reg.PORT_VRUN_RUN p) + 1) ≤ rd t (Reg.PORT_VRUN_RUN p) ∧
        rd t (Reg.PORT_VRUN_RUN p) ≤ min 255 (rd s (Reg.PORT_VRUN_RUN p) + (frameNs s p f.bytes.length + 999) / 1000) ∧
        rd t (Reg.PORT_CRC_ERR_COUNT p) = rd s (Reg.PORT_CRC_ERR_COUNT p)) ∧
      (∀ k e, windowAt s p f.start = some k → (portSlots s p)[k]? = some e → f.fcs = true → fEther f = cfg s Reg.LEMAC_ETYPE_ETYPE → fValid f = true →
        fCyc f = s.sched.cycle % 2 ^ 16 → fSlot f = e.slot → fKind f = (if e.kind = 0 then 3 else 5) → senderPos s p f = e.pos →
        (cfgOn s (Reg.PORT_LINE_END p) = true → fHops f < cfg s (Reg.PORT_LINE_N p)) → rxStalled s p = false → fNull f = false →
        s.lemac.rx = [] → s.lemac.clash = [] → s.lemac.fired = [] →
        ∃ v, exec i s = .next (fireSlot v p k e) ∧ rd v (Reg.PORT_RX_CNT_COUNT p) = (rd s (Reg.PORT_RX_CNT_COUNT p) + 1) % 2 ^ 32 ∧
          rd v (Reg.PORT_VRUN_RUN p) = 0 ∧ v.lemac.rx = [recOf p k e f] ∧ tget (fun _ => none) v.lemac.offs (entKey p k) = some ((f.start : Int) - expected s p e) ∧
          (e.kind ≠ 0 → v.mem = s.mem) ∧
          (∀ it, it = mapItem s (bank s) e.map → e.kind = 0 → e.mapn = 1 → bitOf 20 it = false → bitOf 21 it = false → (it / 32768 % 32 ≠ 29 ∨ paired s = true) → 4 ≤ bNum (fBody f) 4 2 → 12 ≤ (fBody f).length →
            mnum v (ptAddr it) 8 = bNum (fBody f) 8 4 ∧ (mget v (pdAddr it)).toNat = 0)))

/-- R49, R197 to R201: what the guardian and the lines report. -/
def Obligations.GuardianAndLines : Prop :=
  (∀ (p : Fin 24) (s : State), (portLive s p = false → (∀ a r, exec (.rxLenCut p a r) s = .next s) ∧ exec (.txCut p) s = .next s ∧ exec (.guardClosed p) s = .next s ∧ exec (.lineBreak p) s = .next s) ∧
    (portLive s p = true →
      (∀ a r, ∃ t, exec (.rxLenCut p a r) s = .next t ∧ RegsWire s t ∧ rd t (Reg.PORT_LEN_ERR_COUNT p) = min 65535 (rd s (Reg.PORT_LEN_ERR_COUNT p) + 1) ∧
        min 255 (rd s (Reg.PORT_VRUN_RUN p) + 1) ≤ rd t (Reg.PORT_VRUN_RUN p) ∧ (r ≤ 1000 → rd t (Reg.PORT_VRUN_RUN p) = min 255 (rd s (Reg.PORT_VRUN_RUN p) + 1))) ∧
      (∃ t, exec (.txCut p) s = .next t ∧ rd t (Reg.PORT_TXCUT_ERR_COUNT p) = min 65535 (rd s (Reg.PORT_TXCUT_ERR_COUNT p) + 1) ∧ (role s = rSTANDBY → role t = rFAULTED) ∧
        ∀ w a b, s.wire = w ++ [.frame p a b] → role s = rALONE → ∃ n, t.wire = w ++ [.frameCut p a (b.take n)]) ∧
      (rd s (Reg.PORT_VRUN_RUN p) < cfg s Reg.GUARD_CFG_VIOL_LIMIT → exec (.guardClosed p) s = .next s) ∧
      (cfg s Reg.GUARD_CFG_VIOL_LIMIT ≤ rd s (Reg.PORT_VRUN_RUN p) → ∃ t, exec (.guardClosed p) s = .next t ∧ on t (Reg.PORT_STAT_CLOSED p) = true ∧ portLive t p = false ∧
        (∀ q : Fin 24, bitOf q (rd t Reg.GUARD_CLOSED_PORT) = (decide (q = p) || bitOf q (rd s Reg.GUARD_CLOSED_PORT))) ∧ port t p = { port s p with kept := [] }) ∧
      ((isFar s p = true ∧ 2 ≤ (port s p).miss ∧ on s (Reg.PORT_STAT_BREAK p) = false) →
        ∃ t, exec (.lineBreak p) s = .next t ∧ on t (Reg.PORT_STAT_BREAK p) = true ∧
          (paired s = false → port t p = { port s p with relayDue := on s (Reg.PORT_CTRL_RELAY_EN p) })) ∧
      (¬(isFar s p = true ∧ 2 ≤ (port s p).miss ∧ on s (Reg.PORT_STAT_BREAK p) = false) → exec (.lineBreak p) s = .next s)) ∧
    ((port s p).good < 8 → exec (.relayEnd p) s = .next s) ∧
    (8 ≤ (port s p).good → ∃ t, exec (.relayEnd p) s = .next t ∧ t = { s with regs := t.regs } ∧ SameRegsBut [(Reg.PORT_STAT_LINK p).addr] s t ∧
      on t (Reg.PORT_STAT_RELAY p) = false ∧ on t (Reg.PORT_STAT_BREAK p) = false ∧ rd t (Reg.PORT_STAT_CLOSED p) = rd s (Reg.PORT_STAT_CLOSED p)) ∧
    ∀ (up : BitVec 24) (n : Nat), n = ((List.range 24).filter (fun q => cfgOn s (Reg.PORT_CTRL_EN q) && (!on s (Reg.PORT_STAT_LINK q) || q == p.val) && up.getLsbD q)).length →
      exec (.portLinkDown p up) s = .next (if role s = rACTIVE ∧ rd s Reg.PEER_CFG_PLOSS ≠ 0 ∧ rd s Reg.PEER_CFG_PLOSS ≤ n then selfFault (wr s (Reg.PORT_STAT_LINK p) 0) .ports else wr s (Reg.PORT_STAT_LINK p) 0)) ∧
  (∀ (p : Fin 24) (k : Fin 4096) (e : SlotE) (s : State), (portSlots s p)[k.val]? = some e →
    (∀ due, due = (portLive s p && decide (portSeg s p < 24) && decide (cfg s Reg.GUARD_CFG_DRIFT_CYC ≤ tget (fun _ => 0) s.lemac.drift (entKey p k)) && !on s (driftField (portSeg s p) e.pos)) →
      (due = false → exec (.drift p k) s = .next s) ∧
      (due = true → ∃ t, exec (.drift p k) s = .next t ∧ on t (driftField (portSeg s p) e.pos) = true ∧
        rd t (Reg.PORT_DRIFT_CNT_DRIFT_CNT p) = (rd s (Reg.PORT_DRIFT_CNT_DRIFT_CNT p) + 1) % 2 ^ 32 ∧ t.lemac = s.lemac)) ∧
    (e.isRx = true → domOn s dNET = true → (∀ q, (port s q).kept = [] ∧ (port s q).keptFwd = []) → (forwards s p = false ∨ s.time.tb + windowStop s p e * 2 ^ 40 ≤ tNow s) →
      (slotFired s (slotKey e) = true → exec (.acceptanceWindowEnd p k) s = .next { s with lemac := { s.lemac with ended := s.lemac.ended ++ [(p.val, k.val)] } }) ∧
      (slotFired s (slotKey e) = false → (∀ x ∈ slotPlaces s (slotKey e), x = (p.val, k.val) ∨ x ∈ s.lemac.ended) →
        ∃ v, exec (.acceptanceWindowEnd p k) s = .next (fireSlot v p k e) ∧ v.lemac = { s.lemac with ended := s.lemac.ended ++ [(p.val, k.val)], rxMiss := s.lemac.rxMiss ++ [(p.val, k.val)] } ∧
          v.regs = s.regs ∧ ∀ it ∈ entItems s e, ptStale v (it % 2 ^ 20) = true))) ∧
  (∀ (m : Master) (p : Fin 24) (w : W32) (s : State),
    (CanReach m s (Reg.PORT_CTRL p).addr → wbits (Reg.PORT_CTRL_REOPEN p) w = 1 → ∃ t, exec (.reopen m p w) s = .next t ∧ t.mem = s.mem ∧ (port t p).reopen = true ∧
      (∀ q, q ≠ p.val → port t q = port s q) ∧ rd t (Reg.PORT_STAT_CLOSED p) = rd s (Reg.PORT_STAT_CLOSED p)) ∧
    (CanReach m s Reg.LEMAC_CLASH_CLR.addr → wbits Reg.LEMAC_CLASH_CLR_CLR w = 1 → ∃ u, Written Reg.LEMAC_CLASH_CLR.addr s u ∧
      exec (.clashClr m w) s = .next { u with lemac := { u.lemac with clashClr := true } }))

/-- R203 to R205, R219: cycle start frames and priming. -/
def Obligations.CycleStartAndPriming : Prop :=
  (∀ (f : RxFrame) (s : State), ∀ p, p = f.port.val → portLive s p = true → s.lemac.launching = false →
    let c := csInfo f
    let st := rd s Reg.LEMAC_PSTATE_STATE
    (chkHead s f 1 (decide (st = 3)) = .crc → ∃ t, exec (.csReceive f) s = .next t ∧ RegsWire s t ∧ rd t (Reg.PORT_CRC_ERR_COUNT p) = min 65535 (rd s (Reg.PORT_CRC_ERR_COUNT p) + 1)) ∧
    (chkHead s f 1 false = .ok 0 → st ≠ 3 →
      (s.lemac.integ = none → ∃ t, exec (.csReceive f) s = .next t ∧ t.mem = s.mem ∧ t.lemac.integ = some (c, 1) ∧ rd t Reg.LEMAC_PSTATE_STATE = 2 ∧ t.sched.cycle = s.sched.cycle ∧ t.time = s.time) ∧
      (∀ a n, s.lemac.integ = some (a, n) → c.cycle ≠ a.cycle →
        (csAgree a c = true → n = 1 → ∃ t, exec (.csReceive f) s = .next t ∧ t.mem = s.mem ∧ t.lemac.integ = some (c, 2) ∧ t.sched.cycle = c.cycle ∧ rd t Reg.CYC_PERIOD_NS = c.period % 2 ^ 32 ∧
          rd t Reg.LEMAC_EPOCH_EPOCH = c.epoch % 2 ^ 32 ∧ t.ao.epoch = c.epoch % 2 ^ 32 ∧ tNow t = (c.time * 2 ^ 24 + dline s p * 2 ^ 40) % (2 ^ 48 * 10 ^ 9 * 2 ^ 40) ∧ t.time.tb = c.time * 2 ^ 24 ∧ t.lemac.schedId = some c.sched) ∧
        (csAgree a c = true → n ≠ 1 → ∃ t, exec (.csReceive f) s = .next t ∧ t.mem = s.mem ∧ rd t Reg.LEMAC_PSTATE_STATE = 3 ∧ t.sched.cycle = s.sched.cycle ∧ t.time = s.time) ∧
        (csAgree a c = false → ∃ t, exec (.csReceive f) s = .next t ∧ t.mem = s.mem ∧ t.lemac.integ = some (c, 1) ∧ rd t Reg.LEMAC_PSTATE_STATE = 2 ∧ t.sched.cycle = s.sched.cycle))) ∧
    (chkHead s f 1 true = .ok 0 → st = 3 →
      (epochHigher (rd s Reg.LEMAC_EPOCH_EPOCH) c.epoch = true → ∃ t, exec (.csReceive f) s = .next t ∧ t.mem = s.mem ∧ t.time = s.time ∧
        rd t Reg.LEMAC_EPOCH_EPOCH = rd s Reg.LEMAC_EPOCH_EPOCH ∧ rd t (Reg.PORT_RX_CNT_COUNT p) = (rd s (Reg.PORT_RX_CNT_COUNT p) + 1) % 2 ^ 32) ∧
      (c.epoch = rd s Reg.LEMAC_EPOCH_EPOCH → (dline s p = 0 ∨ isFar s p = false) → ∃ t, exec (.csReceive f) s = .next t ∧ t.mem = s.mem ∧ t.time = s.time ∧ t.lemac.heard = true) ∧
      (c.epoch = rd s Reg.LEMAC_EPOCH_EPOCH → dline s p ≠ 0 → isFar s p = true → s.time.ests = [] → s.time.adj = 0 →
        ∀ est : Int, est = (c.time : Int) * 2 ^ 24 - ((s.time.tb : Int) + ((f.start : Int) - dline s p) * 2 ^ 40 + rxFix s p * 2 ^ 24) →
          (c.step = false → (est.natAbs : Int) ≤ (rd s Reg.TIME_JUMP_LIMIT_NS : Int) * 2 ^ 40 → 0 ≤ (tNow s : Int) + est →
            ∃ t, exec (.csReceive f) s = .next t ∧ (tNow t : Int) = (tNow s + est) % (2 ^ 48 * 10 ^ 9 * 2 ^ 40) ∧ t.time.ests = [est] ∧ t.lemac.heard = true) ∧
          (c.step = false → (rd s Reg.TIME_JUMP_LIMIT_NS : Int) * 2 ^ 40 < est.natAbs →
            ∃ t, exec (.csReceive f) s = .next t ∧ t.time = s.time ∧ on t Reg.TIME_STAT_TJUMP = true ∧ on t Reg.TIME_STAT_UPLOCK = false) ∧
          (c.step = true → s.time.stepped ≠ some c.stepNs → 100 * 2 ^ 40 < (est - c.stepNs * 2 ^ 40).natAbs →
            ∃ t, exec (.csReceive f) s = .next t ∧ t.time = s.time ∧ on t Reg.TIME_STAT_TJUMP = true ∧ on t Reg.TIME_STAT_UPLOCK = false)))) ∧
  (∀ s : State,
    (((rd s Reg.LEMAC_PSTATE_STATE < 2 ∨ 3 < rd s Reg.LEMAC_PSTATE_STATE ∨ s.lemac.launching = true ∨ paired s = true) → exec .csLoss s = .next s) ∧
      (s.lemac.launching = false → paired s = false → 2 ≤ rd s Reg.LEMAC_PSTATE_STATE → rd s Reg.LEMAC_PSTATE_STATE ≤ 3 →
        ∃ t, exec .csLoss s = .next t ∧ rd t Reg.LEMAC_PSTATE_STATE = (if on s Reg.LEMAC_PSTATE_PRIME_HALT then 5 else 0) ∧ t.lemac = { s.lemac with integ := none, pcyc := 0 } ∧ SameRegsBut [Reg.LEMAC_PSTATE.addr] s t)) ∧
    (rd s Reg.LEMAC_PSTATE_STATE = 4 →
      (s.lemac.haltDue = false → ∃ t, exec .rankClashBackoffEnd s = .next t ∧ rd t Reg.LEMAC_PSTATE_STATE = 0 ∧ t = { s with regs := t.regs }) ∧
      (s.lemac.haltDue = true → exec .rankClashBackoffEnd s = .next s ∧
        ∃ t, exec .primeHalt s = .next t ∧ rd t Reg.LEMAC_PSTATE_STATE = 5 ∧ on t Reg.LEMAC_PSTATE_PRIME_HALT = true ∧ t.lemac = { s.lemac with haltDue := false })) ∧
    (mayPrime s = true → rd s Reg.LEMAC_PSTATE_STATE = 0 → s.lemac.launching = false →
      ∃ t, exec .listenEnd s = .next t ∧ rd t Reg.LEMAC_PSTATE_STATE = 1 ∧ t.lemac = { s.lemac with pcyc := 0, proposed := (knownEpoch s + 1) % 2 ^ 32 }) ∧
    ((mayPrime s = false ∨ rd s Reg.LEMAC_PSTATE_STATE ≠ 0) → exec .listenEnd s = .next s) ∧
    (∀ (m : Master) (w : W32), CanReach m s Reg.LEMAC_PSTATE.addr → wbits Reg.LEMAC_PSTATE_RESTART w = 1 → on s Reg.LEMAC_PSTATE_PRIME_HALT = true →
      ∃ t, exec (.restart m w) s = .next t ∧ t.mem = s.mem ∧ rd t Reg.LEMAC_PSTATE_STATE = 0 ∧ on t Reg.LEMAC_PSTATE_PRIME_HALT = false ∧ rd t Reg.LEMAC_PSTATE_RETRY = 0 ∧
        t.lemac = { s.lemac with integ := none })) ∧
  (∀ (f : RxFrame) (s : State), portLive s f.port = true → chkHead s f 4 false = .ok 0 →
    let rank := bNum (fBody f) 8 1
    let own := cfg s Reg.LEMAC_RANK_RANK
    let st := rd s Reg.LEMAC_PSTATE_STATE
    let n := rd s Reg.LEMAC_PSTATE_RETRY
    (st < 2 → rank < own → ∃ t, exec (.prReceive f) s = .next t ∧ rd t Reg.LEMAC_PSTATE_STATE = 2 ∧ (st = 1 → on t Reg.LEMAC_PSTATE_LOST_PRIMING = true) ∧ t.lemac.integ = none) ∧
    (st < 2 → rank = own → bNum (fBody f) 0 8 ≠ rd s Reg.LEMAC_UID_LO_UID + 2 ^ 32 * rd s Reg.LEMAC_UID_HI_UID → mayPrime s = true →
      ∃ t, exec (.prReceive f) s = .next t ∧ rd t Reg.LEMAC_PSTATE_STATE = 4 ∧ on t Reg.LEMAC_PSTATE_RANK_CLASH = true ∧ rd t Reg.LEMAC_PSTATE_RETRY = min 3 (n + 1) ∧
        t.lemac.haltDue = decide (3 ≤ n)) ∧
    (2 ≤ st → ∃ t, exec (.prReceive f) s = .next t ∧ t.mem = s.mem ∧ rd t Reg.LEMAC_PSTATE_STATE = st ∧ t.lemac.integ = s.lemac.integ ∧
      rd t (Reg.PORT_RX_CNT_COUNT f.port) = (rd s (Reg.PORT_RX_CNT_COUNT f.port) + 1) % 2 ^ 32))

/-- R62, R209, R210, R329: set points, rings and windows. -/
def Obligations.SetPointsAndAsynchronousTraffic : Prop :=
  let room := fun (s : State) (p : Nat) (b : List Byte) (o : Nat) => let r := ringOf s p false
    ringOn s r = true ∧ o = (if r.2 < (port s p).rxPos + recBlocks b.length then 0 else (port s p).rxPos) ∧ recBlocks b.length ≤ r.2 ∧ allFloat s (r.1 + o) (recBlocks b.length) 3 = true
  let stored := fun (s t : State) (p : Nat) (b : List Byte) (o cut stamp : Nat) => let r := ringOf s p false; let a := cistAddr (256 * (r.1 + o))
    mnum t a 4 = b.length + cut * 2 ^ 28 + 2 ^ 31 ∧ mnum t (a + 4) 8 = stamp / 2 ^ 16 % 2 ^ 64 ∧ mnum t (a + 12) 4 = stamp % 2 ^ 16 ∧ mread t (a + 16) b.length = b ∧
      SameMemBut a (16 + b.length) s t ∧ (port t p).rxPos = (o + recBlocks b.length) % r.2
  (∀ (p : Fin 24) (k : Fin 4096) (e : SlotE) (s : State), (portSlots s p)[k.val]? = some e → e.kind = 2 → domOn s dNET = true → e.spn = 1 → bitOf 10 (spEntry s (bank s) e.spe) = false →
    maySend s p = true → (isOrigin s p = true ∨ isRelay s p = true) →
    let head := bits 5 0 (spEntry s (bank s) e.spe) * 2 ^ 26 + bits 9 6 (spEntry s (bank s) e.spe) * 2 ^ 22
    let frm := fun (null : Nat) (v : List Byte) => mkFrame s e.slot (s.sched.cycle % 2 ^ 16) 2 (null * 2 ^ 11 + b2n (isRelay s p) * 2 ^ 10) (beBytes 4 (head + null * 2 ^ 21 + v.length) ++ v)
    ∃ t, exec (.spLaunch p k) s = .next t ∧ rd t (Reg.PORT_TX_CNT_COUNT p) = (rd s (Reg.PORT_TX_CNT_COUNT p) + 1) % 2 ^ 32 ∧
      (tget (fun _ => 0) s.sched.entries e.spe = 0 → t.mem = s.mem ∧ Out.frame p e.at_ (frm 0 (spValues s (spEntry s (bank s) e.spe))) ∈ t.wire ∧
        rd t (Reg.PORT_NULL_CNT_COUNT p) = rd s (Reg.PORT_NULL_CNT_COUNT p) ∧ t.lemac.nulls = s.lemac.nulls) ∧
      (tget (fun _ => 0) s.sched.entries e.spe ≠ 0 → Out.frame p e.at_ (frm 1 []) ∈ t.wire ∧ rd t Reg.CYC_LATE_CNT_COUNT = (rd s Reg.CYC_LATE_CNT_COUNT + 1) % 2 ^ 32 ∧
        rd t (Reg.PORT_NULL_CNT_COUNT p) = (rd s (Reg.PORT_NULL_CNT_COUNT p) + 1) % 2 ^ 32 ∧ t.lemac.nulls = s.lemac.nulls ++ [e.spe])) ∧
  (∀ (p : Fin 24) (k : Fin 4096) (e : SlotE) (s : State), (portSlots s p)[k.val]? = some e → e.kind = 2 → domOn s dNET = true →
    let may := maySend s p && (isOrigin s p || isRelay s p)
    ∃ t, exec (.spLaunch p k) s = .next t ∧
      rd t (Reg.PORT_TX_CNT_COUNT p) = (if may then (rd s (Reg.PORT_TX_CNT_COUNT p) + 1) % 2 ^ 32 else rd s (Reg.PORT_TX_CNT_COUNT p)) ∧
      rd t Reg.CYC_LATE_CNT_COUNT = (rd s Reg.CYC_LATE_CNT_COUNT + (((List.range e.spn).map (fun i => e.spe + i)).filter (entryLate s)).length) % 2 ^ 32 ∧
      t.lemac.nulls = s.lemac.nulls ++ ((List.range e.spn).map (fun i => e.spe + i)).filter (entryLate s)) ∧
  (∀ (f : RxFrame) (s : State), portLive s f.port = true → chkHead s f 2 true = .ok 0 →
    ∃ t, exec (.spReceive f) s = .next t ∧ rd t (Reg.PORT_RX_CNT_COUNT f.port) = (rd s (Reg.PORT_RX_CNT_COUNT f.port) + 1) % 2 ^ 32 ∧
      ((role s ≠ rSTANDBY ∨ ∀ e ∈ portSlots s f.port, ¬(e.kind = 2 ∧ e.slot = fSlot f)) → RegsWire s t)) ∧
  (∀ (p : Fin 24) (k : Fin 4096) (e : SlotE) (s : State), (portSlots s p)[k.val]? = some e → e.kind = 3 → domOn s dNET = true → mayQueue s p = true → (port s p).tx = none →
    let win := some (e.at_ + 256 * e.len, e.tunnel)
    (∀ q, txHead s p = .empty → (port s p).resp = [q] → (port s p).askDue = false → endsInTime s p e.at_ asFrameLen win = true →
      ∃ t b, exec (.asyncWindowStart p k) s = .next t ∧ Out.frame p e.at_ b ∈ t.wire ∧ port t p = { port s p with win := win, resp := [] } ∧
        rd t Reg.TIME_TSYNC_CNT_TSYNC_CNT = (rd s Reg.TIME_TSYNC_CNT_TSYNC_CNT + 1) % 2 ^ 32) ∧
    (txHead s p = .empty → (port s p).resp = [] → (port s p).askDue = true → isFar s p = true → endsInTime s p e.at_ asFrameLen win = true →
      ∃ t b tag at_, exec (.asyncWindowStart p k) s = .next t ∧ Out.frame p e.at_ b ∈ t.wire ∧ port t p = { port s p with win := win, askDue := false, asked := some (tag, at_) }) ∧
    (txHead s p = .empty → (port s p).resp = [] → (port s p).askDue = false → exec (.asyncWindowStart p k) s = .next (setPort s p { port s p with win := win })) ∧
    (∀ n b, (port s p).resp = [] → (port s p).askDue = false → txHead s p = .frame n b none → etherRefused s b win = false → endsInTime s p e.at_ b.length win = true →
      ∃ t, exec (.asyncWindowStart p k) s = .next t ∧ t.mem = s.mem ∧ Out.frame p e.at_ (padTo 60 b) ∈ t.wire ∧
        port t p = { port s p with win := win, tx := some { ofs := (port s p).txPos, k := n, status := 0, wrap := false, sent := true, next := e.at_ + frameNs s p b.length + wireNs s p 20 } })) ∧
  (∀ (p : Fin 24) (stamp : W64) (frac : BitVec 16) (cut : Bool) (r : TxRun) (s : State), (port s p).tx = some r → domOn s dCIST = true → (port s p).win = none → r.sent = true → r.wrap = false →
    ∃ t, exec (.txRecordComplete ⟨p.val, by omega⟩ stamp frac cut) s = .next t ∧ port t p = { port s p with tx := none, txPos := (r.ofs + r.k) % rd s (Reg.PORT_AQTX_NBLK p) } ∧
      (rd s (Reg.PORT_AQTX_BLOCK p) + r.ofs < 32768 →
        SameMemBut (cistAddr (256 * (rd s (Reg.PORT_AQTX_BLOCK p) + r.ofs))) 16 s t ∧
        (∀ T, T = ((stamp.toNat * 2 ^ 16 + frac.toNat : Nat) + txFix s p).toNat →
          mnum t (cistAddr (256 * (rd s (Reg.PORT_AQTX_BLOCK p) + r.ofs)) + 4) 8 = T / 2 ^ 16 % 2 ^ 64 ∧
          mnum t (cistAddr (256 * (rd s (Reg.PORT_AQTX_BLOCK p) + r.ofs)) + 12) 4 = T % 2 ^ 16) ∧
        bits 31 28 (mnum t (cistAddr (256 * (rd s (Reg.PORT_AQTX_BLOCK p) + r.ofs))) 4) = ((if cut = true then 2 else r.status) + 8) % 16)) ∧
  (∀ (p : Fin 26) (n : Nat) (b : List Byte) (l : Nat) (s : State), mayQueue s p = true → domOn s dNET = true → (port s p).tx = none → txHead s p = .frame n b (some l) →
    ∃ t, exec (.timedLaunch p true) s = .next t ∧ t.mem = s.mem ∧ rd t Reg.TIME_LAUNCH_ERR_COUNT = min 65535 (rd s Reg.TIME_LAUNCH_ERR_COUNT + 1) ∧
      (∃ r, (port t p).tx = some r ∧ r.status = 1 ∧ r.sent = false ∧ r.k = n ∧ r.ofs = (port s p).txPos) ∧
    ∀ at_ win, at_ = (l * 2 ^ 40 - s.time.tb % 2 ^ 104) / 2 ^ 40 → win = (if p.val < 24 then asyncAt s p at_ else none) → (p.val < 24 → win.isSome = true) → endsInTime s p at_ b.length win = true →
      etherRefused s b win = false → ∃ u, exec (.timedLaunch p false) s = .next u ∧ u.mem = s.mem ∧ (if p.val < 24 then Out.frame p.val at_ (padTo 60 b) else Out.plantFrame (p.val - 24) at_ (padTo 60 b)) ∈ u.wire ∧
        rd u Reg.TIME_LAUNCH_ERR_COUNT = rd s Reg.TIME_LAUNCH_ERR_COUNT ∧ ∃ r, (port u p).tx = some r ∧ r.status = 0 ∧ r.sent = true ∧ r.k = n ∧ r.ofs = (port s p).txPos) ∧
  (∀ (f : RxFrame) (s : State), ∀ p, p = f.port.val → portLive s p = true → (asyncAt s p f.start).isSome = true → f.bytes.length ≤ 1514 →
    (f.fcs = false → ∃ t, exec (.asyncFrameReceive f false) s = .next t ∧ RegsWire s t ∧ rd t (Reg.PORT_CRC_ERR_COUNT p) = min 65535 (rd s (Reg.PORT_CRC_ERR_COUNT p) + 1)) ∧
    (∀ cut : Bool, (cut = true ∨ f.fcs = true) →
      (asyncBad s f = true → ∃ t, exec (.asyncFrameReceive f cut) s = .next t ∧ RegsWire s t ∧ rd t (Reg.PORT_SLOT_ERR_COUNT p) = min 65535 (rd s (Reg.PORT_SLOT_ERR_COUNT p) + 1)) ∧
      (asyncBad s f = false → ringOn s (ringOf s p false) = false → ∃ t, exec (.asyncFrameReceive f cut) s = .next t ∧ RegsWire s t ∧
        rd t (Reg.PORT_ADROP_ERR_COUNT p) = min 65535 (rd s (Reg.PORT_ADROP_ERR_COUNT p) + 1)) ∧
      (asyncBad s f = false → ∀ o, room s p f.bytes o → ∃ t, exec (.asyncFrameReceive f cut) s = .next t ∧ stored s t p f.bytes o (b2n cut) (rxStamp s p f.start))) ∧
    (∀ t3 : W64, f.fcs = true →
      let ok := chkHead s f 6 (decide (rd s Reg.LEMAC_PSTATE_STATE = 3)) = .ok 0
      let at_ := (t3.toNat + 2 ^ 64 - s.time.tb / 2 ^ 24 % 2 ^ 64) % 2 ^ 64 / 2 ^ 16
      let q := (bNum (fBody f) 1 1, rxStamp s p f.start % 2 ^ 64)
      (¬ok → ∃ t, exec (.asReceive f t3) s = .next t ∧ RegsWire s t ∧ rd t (Reg.PORT_SLOT_ERR_COUNT p) = min 65535 (rd s (Reg.PORT_SLOT_ERR_COUNT p) + 1)) ∧
      (ok → isTsync (fBody f) = true → maySend s p = true → (asyncAt s p at_).isSome = true → endsInTime s p at_ asFrameLen (asyncAt s p at_) = true →
        ∃ t b, exec (.asReceive f t3) s = .next t ∧ t.mem = s.mem ∧ t.cist = s.cist ∧ rd t Reg.TIME_TSYNC_CNT_TSYNC_CNT = (rd s Reg.TIME_TSYNC_CNT_TSYNC_CNT + 1) % 2 ^ 32 ∧
          Out.frame p at_ b ∈ t.wire ∧ (b.drop 22).take 4 = beBytes 1 3 ++ beBytes 1 q.1 ++ beBytes 2 21 ∧ (b.drop 31).take 8 = beBytes 8 q.2) ∧
      (ok → isTsync (fBody f) = true → maySend s p = true → ¬((asyncAt s p at_).isSome = true ∧ endsInTime s p at_ asFrameLen (asyncAt s p at_) = true) →
        ∃ t, exec (.asReceive f t3) s = .next t ∧ t.mem = s.mem ∧ port t p = { port s p with resp := (port s p).resp ++ [q] }) ∧
      (ok → isTsync (fBody f) = false → isAnswer s p (fBody f) = true →
        ∃ t, exec (.asReceive f t3) s = .next t ∧ t.mem = s.mem ∧ t.cist = s.cist ∧ (port t p).asked = none ∧ (port t p).dl.length ≤ 5) ∧
      (ok → isTsync (fBody f) = false → isAnswer s p (fBody f) = false → ringOn s (ringOf s p false) = false →
        ∃ t, exec (.asReceive f t3) s = .next t ∧ RegsWire s t ∧ rd t (Reg.PORT_ADROP_ERR_COUNT p) = min 65535 (rd s (Reg.PORT_ADROP_ERR_COUNT p) + 1)) ∧
      (ok → isTsync (fBody f) = false → isAnswer s p (fBody f) = false → ∀ o, room s p f.bytes o → ∃ t, exec (.asReceive f t3) s = .next t ∧ stored s t p f.bytes o 0 (rxStamp s p f.start)))) ∧
  (∀ (n : Fin 2) (f : PlantFrame) (s : State), (domOn s dLINK = false ∨ on s (Reg.PLANT_CFG_EN n) = false ∨ f.fcs = false ∨ 1514 < f.bytes.length →
      exec (.plantFrameReceive n f) s = .next s) ∧
    (domOn s dLINK = true → on s (Reg.PLANT_CFG_EN n) = true → f.fcs = true → f.bytes.length ≤ 1514 → ptpType (ptpUdp s n) f.bytes = none → ringOn s (ringOf s (24 + n) false) = false →
      ∃ t, exec (.plantFrameReceive n f) s = .next t ∧ RegsWire s t ∧ rd t (Reg.PLANT_DROP_ERR_DROP_ERR n) = min 65535 (rd s (Reg.PLANT_DROP_ERR_DROP_ERR n) + 1) ∧
        rd t (Reg.PLANT_FRAME_CNT_RX n) = (rd s (Reg.PLANT_FRAME_CNT_RX n) + 1) % 2 ^ 16) ∧
    (domOn s dLINK = true → on s (Reg.PLANT_CFG_EN n) = true → f.fcs = true → f.bytes.length ≤ 1514 → ∀ o, room s (24 + n) f.bytes o →
      ∃ t, exec (.plantFrameReceive n f) s = .next t ∧ stored s t (24 + n) f.bytes o 0 (((f.stamp.toNat * 2 ^ 16 + f.frac.toNat : Nat) + rxFix s (24 + n)).toNat)))

/-- R194, R195, R213: the schedule banks. -/
def Obligations.ScheduleBanks : Prop :=
  (∀ (m : Master) (w : W32) (s : State), CanReach m s Reg.LEMAC_CMD.addr → roleBars s m = false →
    let b := wbits Reg.LEMAC_CMD_BLOCK w
    (wbits Reg.LEMAC_CMD_OP w = 1 →
      ((on s Reg.LEMAC_CMD_BUSY = true ∨ on s Reg.LEMAC_SWAP_PEND = true) → ∃ t, exec (.install m w) s = .next t ∧ rd t Reg.LEMAC_CMD_RESULT = 2 ∧ t.mem = s.mem ∧ t.lemac = s.lemac ∧ t.cist = s.cist) ∧
      (on s Reg.LEMAC_CMD_BUSY = false → on s Reg.LEMAC_SWAP_PEND = false →
        (domOn s dCIST = false → ∃ t, exec (.install m w) s = .next t ∧ rd t Reg.LEMAC_CMD_RESULT = 3 ∧ t.mem = s.mem ∧ t.lemac = s.lemac) ∧
        (domOn s dCIST = true → hostOwned s b 256 = false → ∃ t, exec (.install m w) s = .next t ∧ rd t Reg.LEMAC_CMD_RESULT = 4 ∧ t.mem = s.mem ∧ t.lemac = s.lemac) ∧
        (domOn s dCIST = true → hostOwned s b 256 = true → ∃ t, exec (.install m w) s = .next t ∧ on t Reg.LEMAC_CMD_BUSY = true ∧ t.mem = s.mem ∧ t.lemac = { s.lemac with inst := some b } ∧
          ∀ i, i < 256 → flt t (b + i) = 2))) ∧
    (wbits Reg.LEMAC_CMD_OP w = 2 →
      ((on s Reg.LEMAC_CMD_BUSY = true ∨ on s Reg.LEMAC_SWAP_PEND = true) → ∃ t, exec (.clear m w) s = .next t ∧ rd t Reg.LEMAC_CMD_RESULT = 2 ∧ rd t Reg.LEMAC_SCHED_SHADOW = rd s Reg.LEMAC_SCHED_SHADOW) ∧
      (on s Reg.LEMAC_CMD_BUSY = false → on s Reg.LEMAC_SWAP_PEND = false →
        ∃ t, exec (.clear m w) s = .next t ∧ rd t Reg.LEMAC_CMD_RESULT = 0 ∧ rd t Reg.LEMAC_SCHED_SHADOW = 0 ∧ rd t Reg.LEMAC_SCHED_ACTIVE = rd s Reg.LEMAC_SCHED_ACTIVE ∧ t.mem = s.mem))) ∧
  (∀ (n : Nat) (s : State), s.lemac.inst = some n → bank s ≤ 1 → waitsPeer s 0 = false →
    let v := copyBank s n (1 - bank s)
    (domOn s dCIST = true → bankFault v (1 - bank s) = none → ∃ t, exec .installComplete s = .next t ∧ SameMemBut (ptAddr (pt 31 (32 + 16 * (1 - bank s)) 0 0)) 65536 s t ∧
      (∀ i, i < 65536 → mget t (ptAddr (pt 31 (32 + 16 * (1 - bank s)) 0 0) + i) = mget s (cistAddr (256 * n) + i)) ∧
      rd t Reg.LEMAC_SCHED_SHADOW = bits 15 0 (schedWord v (1 - bank s) 0) ∧ rd t Reg.LEMAC_CMD_RESULT = 0 ∧ on t Reg.LEMAC_CMD_BUSY = false ∧ t.lemac = { s.lemac with inst := none }) ∧
    (domOn s dCIST = true → ∀ r k, bankFault v (1 - bank s) = some (r, k) → ∃ t, exec .installComplete s = .next t ∧ t.mem = s.mem ∧ rd t Reg.LEMAC_CMD_RESULT = 1 ∧
      rd t Reg.LEMAC_CHK_REASON = r % 16 ∧ rd t Reg.LEMAC_CHK_WORD = k % 2 ^ 13 ∧ on t Reg.LEMAC_CHK_VALID = true ∧ rd t Reg.LEMAC_SCHED_SHADOW = rd s Reg.LEMAC_SCHED_SHADOW) ∧
    (domOn s dCIST = false → ∃ t, exec .installComplete s = .next t ∧ t.mem = s.mem ∧ rd t Reg.LEMAC_CMD_RESULT = 3)) ∧
  (∀ (m : Master) (w : W32) (s : State), CanReach m s Reg.LEMAC_SWAP.addr → roleBars s m = false → wbits Reg.LEMAC_SWAP_REQ w = 1 →
    let n := rd64 s Reg.LEMAC_SWAP_AT_LO_CYCLE Reg.LEMAC_SWAP_AT_HI_CYCLE
    let free := on s Reg.LEMAC_CMD_BUSY = false ∧ ∀ c, s.sched.gcmd = some c → c.load = true
    let ready := rd s Reg.LEMAC_SCHED_SHADOW ≠ 0 ∧ on s Reg.CYC_GBANK_CHECKED = true ∧ rd s Reg.CYC_GBANK_SCHED = rd s Reg.LEMAC_SCHED_SHADOW
    let late := encLate s (bits 47 16 (schedWord s (1 - bank s) 0)) || imageLate s (1 - bank s)
    (¬(s.sched.cycle + 33 ≤ n ∧ ready ∧ free) → ∃ t, exec (.swapReq m w) s = .next t ∧ t.mem = s.mem ∧ on t Reg.LEMAC_SWAP_LATE = true ∧ rd t Reg.LEMAC_SWAP_PEND = rd s Reg.LEMAC_SWAP_PEND ∧ t.lemac = s.lemac) ∧
    (s.sched.cycle + 33 ≤ n → ready → free → late = true → ∃ t, exec (.swapReq m w) s = .next t ∧ t.mem = s.mem ∧ rd t Reg.LEMAC_CHK_REASON = 3 ∧ on t Reg.LEMAC_CHK_VALID = true ∧
      rd t Reg.LEMAC_SWAP_PEND = rd s Reg.LEMAC_SWAP_PEND ∧ t.lemac = s.lemac) ∧
    (s.sched.cycle + 33 ≤ n → ready → free → late = false → ∃ t, exec (.swapReq m w) s = .next t ∧ t.mem = s.mem ∧ on t Reg.LEMAC_SWAP_PEND = true ∧ t.lemac = { s.lemac with swapDue := n }))

/-- R217 to R233: corrections and the setting of network time. -/
def Obligations.NetworkTimeCorrections : Prop :=
  (∀ s : State, ((s.lemac.launching = false ∨ domOn s dNET = false) → exec .averagingInstant s = .next s) ∧
    (s.lemac.launching = true → domOn s dNET = true → s.sched.cycle % 16 ≠ 0 →
      let me := ownMember s
      let all : Tbl Int := match ownTheta s with | some d => tins me d (tdel me s.time.theta) | none => tdel me s.time.theta
      let win : Int := rd s Reg.TIME_SYNC_CFG_SYNC_WIN * 2 ^ 16
      let used := all.filter (fun e => memberOk s e.1 && decide (e.2.natAbs ≤ win))
      let lim : Int := rd s Reg.TIME_CTRL_OFS_MAX * 2 ^ 16
      let c : Int := if used = [] then 0 else max (-lim) (min lim (trimmedMean (used.map (fun e => e.2)) - s.time.cPrev))
      ∃ t, exec .averagingInstant s = .next t ∧ t.mem = s.mem ∧ t.time = { s.time with cPrev := c, slewNext := c, thetaAvg := all } ∧ rds t Reg.TIME_OFFSET_C = c ∧
        rd t Reg.TIME_STAT_NVAL = used.length % 16 ∧ rd t Reg.TIME_STAT_FTOL = (if used.length ≤ 2 then 0 else if used.length ≤ 6 then 1 else 2))) ∧
  (∀ s : State, (domOn s dNET = true → domOn s dSTEWARD = true → ∃ t, exec .rtcRealign s = .next t ∧
      rd t Reg.AO_RTC_SEC_LO_SEC = s.time.ns / 10 ^ 9 % 2 ^ 32 ∧ rd t Reg.AO_RTC_SEC_HI_SEC = s.time.ns / 10 ^ 9 / 2 ^ 32 % 2 ^ 16 ∧
      rd t Reg.AO_RTC_SUB_SUB = s.time.ns % 10 ^ 9 * 32768 / 10 ^ 9 ∧ t.mem = s.mem ∧
      t.time = { s.time with trim := t.time.trim } ∧ (t.time.trim - s.time.trim).natAbs ≤ 1099 ∧ (s.time.devSum = 0 → t.time.trim = s.time.trim)) ∧
    ((domOn s dNET = false ∨ domOn s dSTEWARD = false) → exec .rtcRealign s = .next s) ∧
    (domOn s dNET = true → (∃ t, exec .holdoverEnd s = .next t ∧ rd t Reg.TIME_STAT_HOLDOVER = 0 ∧ t = { s with regs := t.regs } ∧ SameRegsBut [Reg.TIME_STAT_HOLDOVER.addr] s t)) ∧
    (domOn s dNET = false → exec .timeUnitFault s = .next s) ∧
    (domOn s dNET = true → (role s = rALONE ∨ role s = rACTIVE → ∃ t, exec .timeUnitFault s = .next t ∧ role t = rRELINQUISHED ∧ t.pair.silent = true ∧ t.pair.items = []) ∧
      (role s = rSTANDBY → ∃ t, exec .timeUnitFault s = .next t ∧ role t = rFAULTED ∧ on t Reg.PEER_NREADY_FAULTED = true ∧ on t Reg.PEER_STAT_READY = false)) ∧
    (rd s Reg.TIME_CTRL_SRC = 0 → exec .holdover s = .next s) ∧
    (rd s Reg.TIME_CTRL_SRC ≠ 0 → domOn s dNET = true → ∃ t, exec .holdover s = .next t ∧ on t Reg.TIME_STAT_HOLDOVER = true ∧ on t Reg.TIME_STAT_UPLOCK = false ∧
      t.time = { s.time with ups := [], rates := t.time.rates } ∧
      (s.lemac.launching = true → ∀ lim : Int, lim = (rd s Reg.TIME_LIMITS_RATE_LIMIT * 2 ^ 40 / 10 ^ 9 : Nat) → rds t Reg.TIME_RATE_RATE = max (-lim) (min lim (meanRate s))) ∧
      (s.lemac.launching = false → t.time.rates = s.time.rates ∧ rd t Reg.TIME_RATE_RATE = rd s Reg.TIME_RATE_RATE))) ∧
  (∀ (m : Master) (w : W32) (s : State), CanReach m s Reg.TIME_SET_CMD.addr → wbits Reg.TIME_SET_CMD_SET w = 1 →
    (s.time.used = true → ∃ t, exec (.set m w) s = .next t ∧ t.time = s.time ∧ on t (Reg.HDR_ERRLOG_VALID 0x7A) = true) ∧
    (s.time.used = false → ∃ t, exec (.set m w) s = .next t ∧ t.mem = s.mem ∧ t.time.frac = 0 ∧
      t.time.ns = (rd64 s Reg.TIME_SET_SEC_LO_VALUE Reg.TIME_SET_SEC_HI_VALUE * 10 ^ 9 + rd s Reg.TIME_SET_NS_VALUE) % (2 ^ 48 * 10 ^ 9))) ∧
  (∀ (m : Master) (w : W32) (s : State), CanReach m s Reg.TIME_STEP_CMD.addr → roleBars s m = false →
    (wbits Reg.TIME_STEP_CMD_ACCEPT w = 1 → ∀ n, n = rd64 s Reg.TIME_STEP_AT_LO_CYCLE Reg.TIME_STEP_AT_HI_CYCLE →
      (s.sched.cycle + 3 ≤ n → ∃ t, exec (.stepAccept m w) s = .next t ∧ t.mem = s.mem ∧ on t Reg.TIME_STAT_STEPPEND = true ∧
        t.time = { s.time with step := some (n, sgn 64 (rd64 s Reg.TIME_STEP_LO_STEP Reg.TIME_STEP_HI_STEP)) }) ∧
      (n < s.sched.cycle + 3 → ∃ t, exec (.stepAccept m w) s = .next t ∧ t.mem = s.mem ∧ on t Reg.TIME_STAT_STEPLATE = true ∧ t.time = s.time)) ∧
    (wbits Reg.TIME_STEP_CMD_CANCEL w = 1 → ∃ t, exec (.stepCancel m w) s = .next t ∧ t.mem = s.mem ∧ on t Reg.TIME_STAT_STEPPEND = false ∧ t.time = { s.time with step := none })) ∧
  (∀ (master ofs : W64) (s : State), (upPort s = none → exec (.upstreamSyncEvent master ofs) s = .next s) ∧
    (∀ n, upPort s = some n → (plant s n).best.bind (fun b => b.getLast?) ≠ some master.toNat → exec (.upstreamSyncEvent master ofs) s = .next s) ∧
    (∀ n, upPort s = some n → (plant s n).best.bind (fun b => b.getLast?) = some master.toNat →
      ∃ t, exec (.upstreamSyncEvent master ofs) s = .next t ∧ rd64 t Reg.TIME_UP_OFS_LO_OFS Reg.TIME_UP_OFS_HI_OFS = ofs.toNat ∧
      t.time = { s.time with ups := t.time.ups } ∧ (∃ pre, s.time.ups ++ [(s.time.osc, (tNow s : Int) - ofs.toInt * 2 ^ 40)] = pre ++ t.time.ups) ∧
      (ofs.toInt.natAbs ≤ rd s Reg.TIME_JUMP_LIMIT_NS → on t Reg.TIME_STAT_UPLOCK = true ∧ rd t (Reg.PLANT_PTPSTAT_STATE n) = 4 ∧ t.mem = s.mem) ∧
      (rd s Reg.TIME_JUMP_LIMIT_NS < ofs.toInt.natAbs → on t Reg.TIME_STAT_UPLOCK = false ∧ on t Reg.TIME_STAT_TJUMP = true ∧
        rd t Reg.TIME_TJUMP_ERR_COUNT = min 65535 (rd s Reg.TIME_TJUMP_ERR_COUNT + 1) ∧ rd t (Reg.PLANT_PTPSTAT_STATE n) = 3))) ∧
  (∀ s : State, ((s.sched.cycle % 64 ≠ 0 ∨ domOn s dNET = false) → exec .dlineMeasure s = .next s) ∧
    (s.sched.cycle % 64 = 0 → domOn s dNET = true → paired s = true → ∃ t, exec .dlineMeasure s = .next t ∧ t = { s with lemac := t.lemac } ∧
      ∀ p, p < 24 → port t p = if isFar s p then { port s p with askDue := true } else port s p) ∧
    (∀ (n q : Nat), s.sched.cycle % 64 = 0 → domOn s dNET = true → paired s = false → n < 12 → (∀ m, m < 12 → m ≠ n → (port s (m + 12)).csAt = none) →
      (port s (n + 12)).csAt = some q → isFar s (n + 12) = true → ∀ d, d = (rndRat (((q * 2 ^ 16 + rxFix s (n + 12) - txFix s n : Int) : Rat) / 2 ^ 16)).toNat →
      ∃ t, exec .dlineMeasure s = .next t ∧ t.mem = s.mem ∧ ∀ p, (p = n ∨ p = n + 12) →
        (∃ pre, (port s p).dl ++ [d] = pre ++ (port t p).dl) ∧ ((port s p).dl.length ≤ 5 → (port t p).dl.length = min 5 ((port s p).dl.length + 1)) ∧
        rd t (Reg.PORT_DLINE_DLINE p) = min 65535 (median ((port t p).dl.map (fun y => (y : Int)))).toNat))

/-- R234 to R238: plant ports, time-triggered outputs and captures. -/
def Obligations.PlantPortsOutputsAndCaptures : Prop :=
  (∀ (n : Fin 2) (a : Announce) (s : State),
    ((domOn s dLINK = false ∨ on s (Reg.PLANT_CFG_EN n) = false) → exec (.announceReceive n a) s = .next s) ∧
    (domOn s dLINK = true → on s (Reg.PLANT_CFG_EN n) = true →
      (rd s (Reg.PLANT_PTPCFG_ROLE n) = 1 → rd s (Reg.PLANT_PTPSTAT_STATE n) = 1 →
        (lexLt (annKey a) (ownKey s n) = true → ∃ t, exec (.announceReceive n a) s = .next t ∧ RegsWire s t ∧ rd t (Reg.PLANT_PTPSTAT_STATE n) = 2 ∧
          rd t (Reg.PLANT_PASSIVE_CNT_PASSIVE_CNT n) = (rd s (Reg.PLANT_PASSIVE_CNT_PASSIVE_CNT n) + 1) % 2 ^ 32) ∧
        (lexLt (annKey a) (ownKey s n) = false → exec (.announceReceive n a) s = .next s)) ∧
      (rd s (Reg.PLANT_PTPCFG_ROLE n) = 2 → ((plant s n).best = none ∨ ∃ b, (plant s n).best = some b ∧ b.getLast? = (annKey a).getLast?) →
        exec (.announceReceive n a) s = .next (setPlant s n { plant s n with best := some (annKey a), bestAt := s.time.osc })) ∧
      (∀ b, rd s (Reg.PLANT_PTPCFG_ROLE n) = 2 → (plant s n).best = some b → b.getLast? ≠ (annKey a).getLast? → lexLt (annKey a) b = false → annExpired s n = false →
        exec (.announceReceive n a) s = .next s) ∧
      (∀ b, rd s (Reg.PLANT_PTPCFG_ROLE n) = 2 → (plant s n).best = some b → b.getLast? ≠ (annKey a).getLast? → lexLt (annKey a) b = true → ∃ t, exec (.announceReceive n a) s = .next t ∧
        plant t n = { plant s n with best := some (annKey a), bestAt := s.time.osc } ∧ (upPort s = some n.val → on t Reg.TIME_STAT_TJUMP = true ∧ on t Reg.TIME_STAT_UPLOCK = false ∧ t.time.ups = []))) ∧
    (domOn s dLINK = true → rd s (Reg.PLANT_PTPCFG_ROLE n) = 1 → rd s (Reg.PLANT_PTPSTAT_STATE n) = 2 → exec (.gmResume n) s = .next (wr s (Reg.PLANT_PTPSTAT_STATE n) 1)) ∧
    (rd s (Reg.PLANT_PTPSTAT_STATE n) ≠ 2 → exec (.gmResume n) s = .next s) ∧
    ((domOn s dLINK = false ∨ domOn s dNET = false ∨ on s (Reg.PLANT_CFG_EN n) = false) → ∀ what, exec (.ptpSyncSend n what) s = .next s) ∧
    (domOn s dLINK = true → domOn s dNET = true → on s (Reg.PLANT_CFG_EN n) = true →
      let gm := rd s (Reg.PLANT_PTPCFG_ROLE n) = 1 ∧ rd s (Reg.PLANT_PTPSTAT_STATE n) = 1
      (¬gm → exec (.ptpSyncSend n .announce) s = .next s ∧ exec (.ptpSyncSend n .sync) s = .next s) ∧
      (gm → ∃ t, exec (.ptpSyncSend n .announce) s = .next t ∧ RegsWire s t ∧
        Out.ptpAnnounce n (rd s (Reg.PLANT_PTPCFG_DOMAIN n)) (rdw s (Reg.PLANT_GMQ n).addr) (rd s Reg.TIME_UTC_OFS_SEC) (ptpUdp s n) ∈ t.wire) ∧
      (gm → ∃ t one tbi ph, exec (.ptpSyncSend n .sync) s = .next t ∧ RegsWire s t ∧ Out.ptpSync n (plantStamp s n) one tbi ph (ptpUdp s n) ∈ t.wire) ∧
      ((rd s (Reg.PLANT_PTPCFG_ROLE n) = 2 ∧ (plant s n).best.isSome = true) → ∃ t, exec (.ptpSyncSend n .delay) s = .next t ∧ RegsWire s t ∧
        Out.ptpRequest n (is8021as s n) (plantStamp s n) (ptpUdp s n) ∈ t.wire) ∧
      (rd s (Reg.PLANT_PTPCFG_ROLE n) = 0 → exec (.ptpSyncSend n .delay) s = .next s))) ∧
  (∀ (m : Master) (o : Fin 4) (w : W32) (s : State), CanReach m s (Reg.CAPT_TCFG o).addr → ∃ u, Written (Reg.CAPT_TCFG o).addr s u ∧
    (wbits (Reg.CAPT_TCFG_ARM o) w = 1 → domOn s dNET = true → on u (Reg.CAPT_TCFG_EN o) = true →
      ∃ t, exec (.ttArm m o w) s = .next t ∧ t.mem = s.mem ∧
        ((tt s o).arm = none → (ttRegs u o).at_ < timeCount s → (tt t o).arm = none ∧ on t (Reg.CAPT_TSTAT_LATE o) = true ∧ on t (Reg.CAPT_TSTAT_ARMED o) = false) ∧
        ((tt s o).arm = none → timeCount s ≤ (ttRegs u o).at_ → tt t o = { arm := some (ttRegs u o) } ∧ on t (Reg.CAPT_TSTAT_ARMED o) = true ∧ on t (Reg.CAPT_TSTAT_LEVEL o) = (ttRegs u o).pol) ∧
        ((tt s o).arm ≠ none → tt t o = { tt s o with next := some (ttRegs u o) } ∧ on t (Reg.CAPT_TSTAT_ARMED o) = true)) ∧
    (on u (Reg.CAPT_TCFG_EN o) = false → ∃ t, exec (.ttArm m o w) s = .next t ∧ tt t o = {} ∧ rd t (Reg.CAPT_TSTAT_LEVEL o) = rd u (Reg.CAPT_TCFG_POL o) ∧
      on t (Reg.CAPT_TSTAT_ARMED o) = false)) ∧
  (∀ (o : Fin 4) (a : TtArm) (s : State), domOn s dAUX = true → domOn s dNET = true →
    ((tt s o).next = some a → timeCount s ≤ a.at_ → ∃ t, exec (.ttRearmEffect o) s = .next t ∧ t.mem = s.mem ∧ tt t o = { arm := some a } ∧ on t (Reg.CAPT_TSTAT_ARMED o) = true ∧ on t (Reg.CAPT_TSTAT_LEVEL o) = a.pol) ∧
    ((tt s o).next = some a → a.at_ < timeCount s → ∃ t, exec (.ttRearmEffect o) s = .next t ∧ tt t o = {} ∧ on t (Reg.CAPT_TSTAT_LATE o) = true) ∧
    ((tt s o).arm = some a → ∃ t, exec (.ttOutputEdge o) s = .next t ∧ t.mem = s.mem ∧ on t (Reg.CAPT_TSTAT_LEVEL o) = (if a.n % 2 = 0 then !a.pol else a.pol) ∧
      rd t (Reg.CAPT_EDGE_CNT_EDGE_CNT o) = (rd s (Reg.CAPT_EDGE_CNT_EDGE_CNT o) + 1) % 2 ^ 32 ∧
      ((a.mode = 0 ∧ a.n = 1) ∨ (a.mode = 2 ∧ a.n = 0) → (tt t o).arm = none) ∧
      (a.mode = 1 ∨ (a.mode = 0 ∧ a.n = 0) → (tt t o).arm = some { a with n := a.n + 1 }))) ∧
  (∀ (o : Fin 4) (n : Fin 8) (rise : Bool) (taken : W64) (s : State), (domOn s dAUX = false ∨ domOn s dNET = false) →
    exec (.ttOutputEdge o) s = .next s ∧ exec (.captureEdge n rise taken) s = .next s) ∧
  (∀ (n : Fin 8) (rise : Bool) (taken : W64) (s : State), domOn s dAUX = true → domOn s dNET = true → on s (Reg.CAPT_CFG_EN n) = true →
    let at_ := (taken.toNat + 2 ^ 64 - 4 * rd s (Reg.CAPT_CFG_FILT n)) % 2 ^ 64
    let sel := rd s (Reg.CAPT_CFG_EDGE n) = 2 ∨ rd s (Reg.CAPT_CFG_EDGE n) = (if rise = true then 0 else 1)
    (¬sel → exec (.captureEdge n rise taken) s = .next s) ∧
    (sel → ∃ t, exec (.captureEdge n rise taken) s = .next t ∧ t.mem = s.mem ∧ rd t (Reg.CAPT_CAPT_CNT_CAPT_CNT n) = (rd s (Reg.CAPT_CAPT_CNT_CAPT_CNT n) + 1) % 2 ^ 32 ∧
      ((capt s n).fifo.length < 16 → capt t n = { fifo := (capt s n).fifo ++ [(at_, rise)], newest := at_ } ∧ rd t (Reg.CAPT_OVF_ERR_OVF_ERR n) = rd s (Reg.CAPT_OVF_ERR_OVF_ERR n)) ∧
      (16 ≤ (capt s n).fifo.length → capt t n = { capt s n with newest := at_ } ∧ rd t (Reg.CAPT_OVF_ERR_OVF_ERR n) = min 65535 (rd s (Reg.CAPT_OVF_ERR_OVF_ERR n) + 1)))) ∧
  (∀ (m : Master) (n : Fin 8) (s : State), CanReach m s (Reg.CAPT_TS_LO n).addr →
    ((capt s n).fifo = [] → exec (.capturePop m n) s = .next { s with resp := some 0#32 }) ∧
    (∀ c r q, (capt s n).fifo = (c, r) :: q → ∃ t, exec (.capturePop m n) s = .next t ∧ t.resp = some (BitVec.ofNat 32 c) ∧ capt t n = { capt s n with fifo := q } ∧
      rd t (Reg.CAPT_TS_HI_TIME n) = c / 2 ^ 32 % 2 ^ 32 ∧ rd t (Reg.CAPT_STAT_RISE n) = b2n r ∧ t.mem = s.mem))

/-- R244 to R261: signals of the peer link. -/
def Obligations.PeerLinkSignalsAndImages : Prop :=
  (∀ (lane : Fin 2) (ok : Bool) (c : PeerContent) (s : State),
    let err := if lane = 0 then Reg.PEER_LANE_ERR0_COUNT else Reg.PEER_LANE_ERR1_COUNT
    (domOn s dLINK = false → exec (.peerFrameReceive lane ok c) s = .next s ∧ exec (.laneDown lane) s = .next s) ∧
    (domOn s dLINK = true → ok = false → ∃ t, exec (.peerFrameReceive lane ok c) s = .next t ∧ RegsWire s t ∧ rd t err = min 65535 (rd s err + 1)) ∧
    (domOn s dLINK = true → ok = true → ∃ t, exec (.peerFrameReceive lane ok c) s = .next t ∧ on t (laneField lane) = true ∧
      (c = .idle → t.pair = s.pair ∧ t.mem = s.mem) ∧
      (∀ r e k u b shed, c = .ident r e k u b shed → r.val ≠ rACTIVE → t.pair = { s.pair with peerRole := r, peerBreak := b, peerShed := shed.map (fun a => a.val) } ∧
        rd t Reg.PEER_PEER_UID_LO_UID = u.toNat % 2 ^ 32 ∧ rd t Reg.PEER_PEER_UID_HI_UID = u.toNat / 2 ^ 32) ∧
      (∀ x, c = .copy x → role s = rSTANDBY → on s (laneField (1 - lane.val)) = true → t.pair = { s.pair with copies := s.pair.copies ++ [x] } ∧ t.mem = s.mem)) ∧
    (domOn s dLINK = true → on s (laneField lane) = false → exec (.laneDown lane) s = .next s) ∧
    (domOn s dLINK = true → on s (laneField lane) = true → ∃ t, exec (.laneDown lane) s = .next t ∧ on t (laneField lane) = false ∧
      (on s (laneField (1 - lane.val)) = true → t.pair = s.pair ∧ role t = role s ∧ t.mem = s.mem) ∧
      (on s (laneField (1 - lane.val)) = false → (role s = rACTIVE → on t Reg.PEER_STAT_PEER_READY = false ∧ role t = rACTIVE ∧ t.pair = { s.pair with items := [] }) ∧
        (role s = rSTANDBY → role t = rDETACHED ∧ on t Reg.PEER_NREADY_DETACHED = true ∧ rd t Reg.PEER_STAT_UNALIGNED = 1056 ∧ on t Reg.PEER_STAT_READY = false)))) ∧
  (∀ s : State,
    (¬(role s = rSTANDBY ∧ peerUp s = true) → exec .relinquishReceive s = .next s) ∧
    (role s = rSTANDBY → peerUp s = true → ∃ t, exec .relinquishReceive s = .next t ∧ t.pair = { s.pair with peerRole := rRELINQUISHED, swapDue := none, take := some (s.sched.cycle + (if tNow s + 1000 * 2 ^ 40 ≤ s.time.tb + period s * 2 ^ 40 then 1 else 2), !on s Reg.PEER_STAT_READY) }) ∧
    ((paired s = false ∨ peerUp s = false) → exec .faultedReceive s = .next s) ∧
    (paired s = true → peerUp s = true → ∃ t, exec .faultedReceive s = .next t ∧ t.pair = { s.pair with peerRole := rFAULTED } ∧ on t Reg.PEER_STAT_PEER_READY = false ∧ t.mem = s.mem) ∧
    (¬(role s = rDETACHED ∧ 4 ≤ s.pair.noCs) → exec .csLossTakeover s = .next s) ∧
    (role s = rDETACHED → 4 ≤ s.pair.noCs → exec .csLossTakeover s = .next { s with pair := { s.pair with take := some (s.sched.cycle + 1, true) } }) ∧
    (role s = rACTIVE → peerUp s = true → domOn s dNET = true → exec .inputImageSend s = .next (emit s (.inputImage (ownImage s)))) ∧
    (¬(role s = rACTIVE ∧ peerUp s = true ∧ domOn s dNET = true) → exec .inputImageSend s = .next s) ∧
    (∀ l, ¬(role s = rSTANDBY ∧ peerUp s = true ∧ domOn s dNET = true) → exec (.inputImageReceive l) s = .next s) ∧
    (∀ (x : PtImage) (a : Nat), role s = rSTANDBY → peerUp s = true → domOn s dNET = true → map29 x.1.toNat = some a → ∃ t, exec (.inputImageReceive [x]) s = .next t ∧
      t = { s with mem := t.mem, pair := { s.pair with imgNow := true } } ∧ ptVal t a = x.2.1.toNat ∧ ptStale t a = x.2.2 ∧
      ∀ c, c < 2 ^ 20 → c ≠ a → ptVal t c = ptVal s c ∧ ptStale t c = ptStale s c) ∧
    (∀ l : List PtImage, role s = rSTANDBY → peerUp s = true → domOn s dNET = true → ∃ t, exec (.inputImageReceive l) s = .next t ∧ t = { s with mem := t.mem, pair := { s.pair with imgNow := true } } ∧
      ∀ c, c < 2 ^ 20 → (∀ x ∈ l, map29 x.1.toNat ≠ some c) → ptVal t c = ptVal s c ∧ ptStale t c = ptStale s c) ∧
    (domOn s dNET = false → exec .inputEdgeInstant s = .next s) ∧
    (domOn s dNET = true → role s ≠ rDETACHED → (role s = rSTANDBY → s.pair.imgNow = true) → exec .inputEdgeInstant s = .next (fireEdges s pInstant (realEdges s.pair.edges))) ∧
    (domOn s dNET = true → role s = rDETACHED → ∃ v, exec .inputEdgeInstant s = .next (fireEdges v pInstant (realEdges s.pair.edges)) ∧ v.pair = s.pair ∧
      ∀ a ∈ inputList s (bank s), ∀ b, map29 a = some b → ptStale v b = true) ∧
    (domOn s dNET = true → role s = rSTANDBY → s.pair.imgNow = false → ∃ v, exec .inputEdgeInstant s = .next (fireEdges v pInstant (realEdges s.pair.edges)) ∧
      v.pair.imgMiss = true ∧ rd v Reg.PEER_STAT_UNALIGNED = 1056 ∧ on v Reg.PEER_STAT_READY = false ∧
      ∀ a ∈ inputList s (bank s), ∀ b, map29 a = some b → ptStale v b = true)) ∧
  (∀ (f : RxFrame) (s : State), ∀ p k, p = f.port.val → k = (portSlots s p).findIdx (fun x => x.kind == 0 && x.slot == fSlot f) →
    ((portSlots s p)[k]? = none → exec (.forwardedFrameReceive f) s = .next s) ∧
    (∀ e, (portSlots s p)[k]? = some e →
      let may := on s Reg.PEER_CFG_FWD_EN = true ∧ peerUp s = true ∧ (role s = rACTIVE ∨ role s = rSTANDBY) ∧ domOn s dNET = true ∧ fCyc f = s.sched.cycle % 2 ^ 16 ∧
        s.lemac.ended.contains (p, k) = false
      (¬may → exec (.forwardedFrameReceive f) s = .next s) ∧
      (may → rxStalled s p = true → ∃ t, exec (.forwardedFrameReceive f) s = .next t ∧ t = { s with lemac := t.lemac } ∧ (port t p).keptFwd = (port s p).keptFwd ++ [f]) ∧
      (may → rxStalled s p = false → ∃ v, exec (.forwardedFrameReceive f) s = .next (takeSlot v p k e f) ∧ RegsWire s v ∧
        rd v Reg.PEER_FWD_CNT_COUNT = if slotUsed s p k e f then (rd s Reg.PEER_FWD_CNT_COUNT + 1) % 2 ^ 32 else rd s Reg.PEER_FWD_CNT_COUNT)))

/-- R251 to R266: records, joining and swaps. -/
def Obligations.PairJoinMirrorAndSwap : Prop :=
  (∀ (r : MirrorRec) (s : State), (peerUp s = false ∨ domOn s dNET = false) → exec (.mirrorRecordReceive r) s = .next s) ∧
  (∀ (n : Nat) (rx : List W32) (nl : List (BitVec 12)) (s : State), peerUp s = true → domOn s dNET = true →
    (∀ ds is, role s ≠ rSTANDBY → role s ≠ rJOINING → exec (.mirrorRecordReceive (.active n rx nl ds is)) s = .next s) ∧
    (role s = rSTANDBY ∨ role s = rJOINING → exec (.mirrorRecordReceive (.active n rx nl [] [])) s = .next { s with pair := { s.pair with recNow := true, peerRole := rACTIVE } }) ∧
    (∀ (i : MItem) (d : Nat), role s = rSTANDBY → itemDue s i = some d → d ≤ s.sched.cycle → ∃ t, exec (.mirrorRecordReceive (.active n rx nl [] [i])) s = .next t ∧ t.mem = s.mem ∧
      rd t Reg.PEER_MLATE_ERR_COUNT = min 65535 (rd s Reg.PEER_MLATE_ERR_COUNT + 1) ∧ on t Reg.PEER_NREADY_MIRROR_LATE = true ∧ rd t Reg.PEER_STAT_UNALIGNED = 1056 ∧ on t Reg.PEER_STAT_READY = false ∧ t.commit = s.commit ∧ t.mots = s.mots) ∧
    (∀ (cyc : Nat) (k : BitVec 24) (w : W32) (l : List (BitVec 24 × W32)) (u : State), role s = rSTANDBY ∨ role s = rJOINING → u = { s with pair := { s.pair with recNow := true, peerRole := rACTIVE } } →
      (∀ d, itemDue s (.write cyc k w l) = some d → s.sched.cycle < d) →
      (k.toNat = Reg.PEER_CMD_OP.addr → exec (.mirrorRecordReceive (.active n rx nl [] [.write cyc k w l])) s = .next (repeatSwap u w l)) ∧
      (k.toNat ≠ Reg.PEER_CMD_OP.addr → startsInstall (.write cyc k w l) = false → exec (.mirrorRecordReceive (.active n rx nl [] [.write cyc k w l])) s = .next (repeatWrite u cyc k.toNat w l)) ∧
      (∀ (c : Fin 1056) (at_ : Nat) (z : PlanSt), s.sched.cycle < at_ → exec (.mirrorRecordReceive (.active n rx nl [] [.plan c at_ z])) s = .next (takePlan u c at_ z))) ∧
    (∀ (th : Option W64) (rl : Fin 8) (nr : BitVec 8) (un : List (Fin 1056)) (pts : List PtImage),
      (role s ≠ rACTIVE → exec (.mirrorRecordReceive (.standby n th rl nr un [] pts)) s = .next s) ∧
      (role s = rACTIVE → bitOf 5 nr.toNat = false → ∃ t, exec (.mirrorRecordReceive (.standby n th rl nr un [] pts)) s = .next t ∧ t.mem = s.mem ∧
        on t Reg.PEER_STAT_PEER_READY = decide (rl.val = rSTANDBY ∧ nr = 0#8) ∧ t.pair.recNow = true ∧ t.pair.peerRole = rl ∧ t.pair.peerUnal = un.map (fun c => c.val) ∧ t.pair.peerPts = pts ∧
        (∀ x, th = some x → n = s.sched.cycle → t.time.theta = tins (1 - rd s Reg.PEER_CFG_RANK) x.toInt (tdel (1 - rd s Reg.PEER_CFG_RANK) s.time.theta))))) ∧
  (∀ s : State, (s.pair.peerUnal = [] → exec .stateCopySend s = .next s) ∧
    (∀ (c : Fin 1056) r, s.pair.peerUnal = c.val :: r →
      let may := role s = rACTIVE ∧ bothLanes s = true ∧ s.pair.peerRole = rSTANDBY ∧ chanDone s c = true ∧ s.pair.copied + copySize (chanCopy s c) ≤ 1024 * rd s Reg.PEER_CFG_RS_KIB
      (may → exec .stateCopySend s = .next { s with wire := s.wire ++ [.chanCopy (chanCopy s c)], pair := { s.pair with peerUnal := r, copied := s.pair.copied + copySize (chanCopy s c) } }) ∧
      (¬may → exec .stateCopySend s = .next s))) ∧
  (∀ (j : JoinId) (s : State),
    let mayPair := on s Reg.PEER_CFG_EN = true ∧ bothLanes s = true ∧ rd s Reg.LEMAC_PSTATE_STATE = 3
    let same := fun t : State => t.mem = s.mem ∧ role t = role s ∧ t.pair = s.pair
    (¬mayPair → exec (.pairJoin j) s = .next s) ∧
    (mayPair → b2n j.rank = rd s Reg.PEER_CFG_RANK →
      (s.lemac.launching = true → ∃ t, exec (.pairJoin j) s = .next t ∧ role t = role s ∧ t.pair = s.pair ∧ on t Reg.PEER_NREADY_IMAGE = on s Reg.PEER_NREADY_IMAGE) ∧
      (s.lemac.launching = false → ∃ t, exec (.pairJoin j) s = .next t ∧ on t Reg.PEER_NREADY_IMAGE = true ∧ role t = role s ∧ t.pair = s.pair ∧ on t Reg.PEER_STAT_READY = false)) ∧
    (mayPair → b2n j.rank ≠ rd s Reg.PEER_CFG_RANK → s.lemac.launching = true →
      (joinDiffers s j = true → ∃ t, exec (.pairJoin j) s = .next t ∧ same t) ∧
      (joinDiffers s j = false → role s = rALONE ∨ role s = rACTIVE → ∃ t, exec (.pairJoin j) s = .next t ∧ t.mem = s.mem ∧ role t = rACTIVE ∧ t.pair = { s.pair with peerRole := rJOINING })) ∧
    (mayPair → b2n j.rank ≠ rd s Reg.PEER_CFG_RANK → s.lemac.launching = false →
      (mayJoin s = false → ∃ t, exec (.pairJoin j) s = .next t ∧ same t ∧ on t Reg.PEER_NREADY_IMAGE = on s Reg.PEER_NREADY_IMAGE) ∧
      (mayJoin s = true → joinDiffers s j = true → ∃ t, exec (.pairJoin j) s = .next t ∧ same t ∧ on t Reg.PEER_NREADY_IMAGE = true) ∧
      (mayJoin s = true → joinDiffers s j = false → j.role.val ≠ rACTIVE → ∃ t, exec (.pairJoin j) s = .next t ∧ same t) ∧
      (mayJoin s = true → joinDiffers s j = false → j.role.val = rACTIVE → ∃ t, exec (.pairJoin j) s = .next t ∧ t.mem = s.mem ∧ role t = rJOINING ∧ rdw t Reg.PEER_NREADY.addr = 1 ∧
        t.pair.peerRole = rACTIVE ∧ t.pair.joinAsk = false ∧ t.pair.take = none ∧ t.pair.swapDue = none ∧ t.pair.silent = false))) ∧
  (∀ (b : Bulk) (n : Nat) (s : State), (¬(role s = rJOINING ∧ bothLanes s = true) → exec (.bulkCopyComplete b n) s = .next s) ∧
    (role s = rJOINING → bothLanes s = true → ∀ v, v = putBulk s b →
      ((bankSound v 0 && bankSound v 1) = true → exec (.bulkCopyComplete b n) s = .next { v with pair := { v.pair with shadowAt := some n } }) ∧
      ((bankSound v 0 && bankSound v 1) = false → ∃ t, exec (.bulkCopyComplete b n) s = .next t ∧ role t = rALONE ∧ on t Reg.PEER_NREADY_IMAGE = true ∧ on t Reg.PEER_NREADY_JOINING = false))) ∧
  (∀ (m : Master) (w : W32) (s : State), CanReach m s Reg.PEER_CMD_OP.addr →
    let n := rd64 s Reg.PEER_SWAP_AT_LO_CYCLE Reg.PEER_SWAP_AT_HI_CYCLE
    let active := role s = rACTIVE ∧ on s Reg.PEER_STAT_SWAPPEND = false
    let refused := fun (i : Instr) (r : Nat) => ∃ t, exec i s = .next t ∧ rd t Reg.PEER_CMD_RESULT = r ∧ t.pair = s.pair ∧ t.mem = s.mem
    (wbits Reg.PEER_CMD_OP w = 1 → roleBars s m = true → ∃ t, exec (.swap m w) s = .next t ∧ Logged s t ∧ rd t Reg.PEER_CMD_RESULT = rd s Reg.PEER_CMD_RESULT) ∧
    (wbits Reg.PEER_CMD_OP w = 1 → roleBars s m = false → (¬active → refused (.swap m w) 3) ∧ (active → peerUp s = false → refused (.swap m w) 4) ∧
      (active → peerUp s = true → on s Reg.PEER_STAT_PEER_READY = false → refused (.swap m w) 1) ∧
      (active → peerUp s = true → on s Reg.PEER_STAT_PEER_READY = true → n < s.sched.cycle + 9 → refused (.swap m w) 2) ∧
      (active → peerUp s = true → on s Reg.PEER_STAT_PEER_READY = true → s.sched.cycle + 9 ≤ n → ∃ t, exec (.swap m w) s = .next t ∧ t.mem = s.mem ∧ rd t Reg.PEER_CMD_RESULT = 0 ∧
        on t Reg.PEER_STAT_SWAPPEND = true ∧ t.pair.swapDue = some n)) ∧
    (wbits Reg.PEER_CMD_OP w = 2 → (¬(role s = rACTIVE ∧ on s Reg.PEER_STAT_SWAPPEND = true) → refused (.swapCancel m w) 3) ∧
      (role s = rACTIVE → on s Reg.PEER_STAT_SWAPPEND = true → ∃ t, exec (.swapCancel m w) s = .next t ∧ t.mem = s.mem ∧ rd t Reg.PEER_CMD_RESULT = 0 ∧ on t Reg.PEER_STAT_SWAPPEND = false ∧
        t.pair.swapDue = none)) ∧
    (wbits Reg.PEER_CMD_OP w = 3 → (role s ≠ rRELINQUISHED → role s ≠ rFAULTED → refused (.join m w) 3) ∧
      ((role s = rRELINQUISHED ∨ role s = rFAULTED) → peerUp s = false → refused (.join m w) 4) ∧
      ((role s = rRELINQUISHED ∨ role s = rFAULTED) → peerUp s = true → ∃ t, exec (.join m w) s = .next t ∧ t.mem = s.mem ∧ rd t Reg.PEER_CMD_RESULT = 0 ∧
        t.pair = { s.pair with joinAsk := true })))

/-- R270 to R285: what the channels do with demands and faults. -/
def Obligations.SafetyDemandsFaultsAndTimers : Prop :=
  ∀ s : State,
    let locked := fun (t : State) (b : Bool) => (chan t b).flock = true ∧ (chan t b).mode = 3 ∧ (chan t b).sto = 15#4 ∧ (chan t b).sw = 0#2
    let faulted := fun (t : State) (b : Bool) (c : Nat) => locked t b ∧ (chan t b).cause = c ∧
      (b = false → on t Reg.SAFE_CAUSE_VALID = true ∧ rd t Reg.SAFE_FAULT_ERR_FAULT_ERR = min 65535 (rd s Reg.SAFE_FAULT_ERR_FAULT_ERR + 1))
    let acted := fun (t u : State) (b : Bool) => ∀ p g : Fin 4, pairDemand u b p = true → (chan u b).dem.getLsbD p = false → pairNames u b p g = true →
      (chan t b).lock.getLsbD g = true ∧ (bits 1 0 (inW u b p) = 1 → (chan t b).sto.getLsbD g = true) ∧
      (bits 1 0 (inW u b p) = 2 → (chan t b).sto.getLsbD g = true ∨ (chan t b).ss1.getLsbD g = true)
    (chanOn s false = false → exec .safetyEvaluation s = .next s ∧ ∀ g, exec (.ss1Expiry g) s = .next s) ∧
    (chanOn s false = true → ∃ t, exec .safetyEvaluation s = .next t ∧ t.safe.a.alive = s.safe.a.alive + 1 ∧ acted t s false) ∧
    (∀ (b : Bool) (i : Fin 8) (l : Bool), (chanOn s b = false → exec (.safetyInputChange b i l) s = .next s) ∧
      (∀ x, x = { chan s b with inp := if l = true then (chan s b).inp ||| BitVec.ofNat 8 (2 ^ i.val) else (chan s b).inp &&& ~~~BitVec.ofNat 8 (2 ^ i.val) } → chanOn s b = true →
        (b = false → exec (.safetyInputChange b i l) s = .next (setChan s false x)) ∧
        (b = true → ∃ t, exec (.safetyInputChange b i l) s = .next t ∧ (chan t true).inp = x.inp ∧ acted t (setChan s true x) true))) ∧
    (∀ (b : Bool) (p : Fin 4), (pairDisc s b p = false → exec (.discTimeout b p) s = .next s) ∧
      (pairDisc s b p = true → chanOn s b = true → ∃ t, exec (.discTimeout b p) s = .next t ∧ faulted t b (1 + 256 * p.val))) ∧
    (∀ b : Bool, (chanOn s b = false → exec (.aliveTimeout b) s = .next s) ∧ (chanOn s b = true → ∃ t, exec (.aliveTimeout b) s = .next t ∧ faulted t b 0x0B) ∧
      (((chan s b).dem = (chan s b).other.dem ∧ (chan s b).sto = (chan s b).other.sto ∧ (chan s b).ss1 = (chan s b).other.ss1 ∧ (chan s b).mode = (chan s b).other.mode) →
        exec (.xcompTimeout b) s = .next s) ∧
      (((chan s b).dem ≠ (chan s b).other.dem ∨ (chan s b).sto ≠ (chan s b).other.sto ∨ (chan s b).ss1 ≠ (chan s b).other.ss1 ∨ (chan s b).mode ≠ (chan s b).other.mode) → chanOn s b = true → ∃ t, exec (.xcompTimeout b) s = .next t ∧ faulted t b 0x0A)) ∧
    ((on s Reg.SAFE_STAT_TP_SUSP = false → exec .tpOverdue s = .next s) ∧
      (on s Reg.SAFE_STAT_TP_SUSP = true → chanOn s false = true → ∃ t, exec .tpOverdue s = .next t ∧ faulted t false 0x0F)) ∧
    (∀ (tp : Fin 2) (low : BitVec 8),
      ((∀ i : Fin 8, psOk s false = true → bitOf 3 (inW s false (i.val / 2)) = true → low.getLsbD i = decide (i.val % 2 = tp.val)) → exec (.inputTestPulse tp low) s = .next s) ∧
      (∀ (i : Fin 8) (b : Bool), psOk s false = true → bitOf 3 (inW s false (i.val / 2)) = true → ((i.val % 2 = tp.val ∧ low.getLsbD i = false) ∨ (i.val % 2 ≠ tp.val ∧ low.getLsbD i = true ∧ s.safe.b.inp.getLsbD i = true)) → chanOn s b = true →
        ∃ t, exec (.inputTestPulse tp low) s = .next t ∧ locked t b)) ∧
    (∀ (q : Fin 2) (f r o x : Bool), (readsBack s q = false → exec (.outputTestPulse q f r o x) s = .next s) ∧
      (readsBack s q = true → energised s q = true → noPulse s q = true → exec (.outputTestPulse q f r o x) s = .next s) ∧
      (readsBack s q = true → energised s q = false → (o = false → exec (.outputTestPulse q f r o x) s = .next s) ∧
        (o = true → ∀ b, chanOn s b = true → ∃ t, exec (.outputTestPulse q f r o x) s = .next t ∧ faulted t b (7 + 256 * q.val))) ∧
      (readsBack s q = true → noPulse s q = false → energised s q = true → chanOn s false = true → f = true → r = true → x = false →
        ∃ t, exec (.outputTestPulse q f r o x) s = .next t ∧ t.safe = { s.safe with lowNext := s.safe.lowNext ^^^ BitVec.ofNat 2 (2 ^ q.val) } ∧ t.mem = s.mem ∧
          rd t Reg.SAFE_TP_CNT_TP_CNT = (rd s Reg.SAFE_TP_CNT_TP_CNT + 1) % 2 ^ 32) ∧
      (∀ b, readsBack s q = true → noPulse s q = false → energised s q = true → chanOn s b = true → ((if s.safe.lowNext.getLsbD q = true then r else f) = false ∨ x = true) →
        ∃ t, exec (.outputTestPulse q f r o x) s = .next t ∧ locked t b)) ∧
    (∀ (b : Bool) (q : Fin 2), ∀ closed, closed = (if b = true then s.safe.edm.getLsbD q else (s.bridge.img.map (fun f => f.edm.getLsbD q)).getD false) →
      ((psOk s b = false ∨ outCheck s b q = 0 ∨ closed ≠ energised s q) → exec (.edmTimeout b q) s = .next s) ∧
      (psOk s b = true → outCheck s b q ≠ 0 → closed = energised s q → chanOn s b = true → ∃ t, exec (.edmTimeout b q) s = .next t ∧ faulted t b (9 + 256 * q.val))) ∧
    (∀ q : Fin 2, ∃ t, exec (.soOvl q) s = .next t ∧ t.safe.high.getLsbD q = false ∧ (∀ b, chanOn s b = true → faulted t b (8 + 256 * q.val))) ∧
    (∃ t, exec .vfsafOutOfRange s = .next t ∧ t.safe.vfsaf = false ∧ t.safe.high = 0#2 ∧
      (∀ b, (chan t b).sw = 0#2 ∧ (chan t b).lock = 15#4 ∧ (chan t b).sto = 15#4 ∧ (chan t b).flock = (chan s b).flock ∧ (chan t b).cause = (chan s b).cause ∧ (chan t b).mode = (chan s b).mode) ∧
      rd t Reg.SAFE_FAULT_ERR_FAULT_ERR = rd s Reg.SAFE_FAULT_ERR_FAULT_ERR) ∧
    (s.boot.unlocked = false → ∃ t, exec .vfsafReturn s = .next t ∧ t.safe.vfsaf = true ∧ ∀ b, (chan t b).lock = (chan s b).lock ∧ (chan t b).sto = (chan s b).sto) ∧
    (∀ g : Fin 4, s.boot.unlocked = false →
      (s.safe.a.ss1.getLsbD g = false → exec (.ss1Expiry g) s = .next s) ∧ ((chanOn s true = false ∨ s.safe.b.ss1.getLsbD g = false) → exec (.ss1BExpiry g) s = .next s) ∧
      (chanOn s false = true → s.safe.a.ss1.getLsbD g = true → ∃ t, exec (.ss1Expiry g) s = .next t ∧ (chan t true).sto = s.safe.b.sto ∧
        (chan t false).sto = s.safe.a.sto ||| BitVec.ofNat 4 (2 ^ g.val) ∧ (chan t false).ss1 = s.safe.a.ss1 &&& ~~~BitVec.ofNat 4 (2 ^ g.val)) ∧
      (chanOn s true = true → s.safe.b.ss1.getLsbD g = true → ∃ t, exec (.ss1BExpiry g) s = .next t ∧ (chan t false).sto = s.safe.a.sto ∧
        (chan t true).sto = s.safe.b.sto ||| BitVec.ofNat 4 (2 ^ g.val) ∧ (chan t true).ss1 = s.safe.b.ss1 &&& ~~~BitVec.ofNat 4 (2 ^ g.val)))

/-- R287 to R293: resets, modes and the mailbox. -/
def Obligations.SafetyResetsAndMailbox : Prop :=
  ∀ s : State, s.boot.unlocked = false →
    let a := s.safe.a
    let b := s.safe.b
    let denied := fun (ms low : Nat) (p : Bool) => ∃ t, exec (.resetPulse ms low p) s = .next t ∧ rd t Reg.SAFE_DENY_ERR_DENY_ERR = min 65535 (rd s Reg.SAFE_DENY_ERR_DENY_ERR + 1) ∧
      (∀ c, (chan t c).mode = (chan s c).mode ∧ (chan t c).lock = (chan s c).lock ∧ (chan t c).sto = (chan s c).sto ∧ (chan t c).flock = (chan s c).flock)
    let demand := demands s false ≠ 0#4 ∨ demands s true ≠ 0#4 ∨ s.safe.vfsaf = false
    (∀ (ms low : Nat) (p : Bool), ((ms < 50 ∨ chanOn s false = false) → exec (.resetPulse ms low p) s = .next s) ∧
      (chanOn s false = true → 5000 < ms → denied ms low p) ∧
      (chanOn s false = true → 50 ≤ ms → ms ≤ 5000 →
        (a.mode ≠ 1 → low < 500 → denied ms low p) ∧
        (a.mode = 1 → demands s false &&& ~~~a.dem ≠ 0#4 → denied ms low p) ∧
        (a.mode = 1 → demands s false &&& ~~~a.dem = 0#4 → ∀ ok, ok = freeGroups s false &&& freeGroups s true → ∃ t, exec (.resetPulse ms low p) s = .next t ∧
          ((a.lock ||| b.lock) &&& ~~~ok ≠ 0#4 → rd t Reg.SAFE_DENY_ERR_DENY_ERR = min 65535 (rd s Reg.SAFE_DENY_ERR_DENY_ERR + 1)) ∧
          (∀ c, (chan t c).mode = (chan s c).mode ∧ (chan t c).lock = (chan s c).lock &&& ~~~ok ∧ (chan t c).sto = (chan s c).sto &&& ~~~((chan s c).lock &&& ok) ∧ (chan t c).flock = (chan s c).flock)) ∧
        (500 ≤ low → a.mode = 0 → ((psOk s false = true ∧ p = false ∧ causePersists s = false ∧ ¬demand) →
            ∃ t, exec (.resetPulse ms low p) s = .next t ∧ ∀ c, (chan t c).mode = 1 ∧ (chan t c).flock = false ∧ (chan t c).sto = (chan s c).lock ∧ (chan t c).ss1 = 0#4) ∧
          (¬(psOk s false = true ∧ p = false ∧ causePersists s = false ∧ ¬demand) → denied ms low p)) ∧
        (500 ≤ low → a.mode = 3 → ((p = true ∨ causePersists s = true) → denied ms low p) ∧
          (p = false → causePersists s = false → ∃ t, exec (.resetPulse ms low p) s = .next t ∧ on t Reg.SAFE_CAUSE_VALID = false ∧
            ∀ c, (chan t c).mode = 1 ∧ (chan t c).flock = false ∧ (chan t c).lock = (chan s c).lock ∧ (chan t c).sto = (if psOk s c = true then (chan s c).lock else 15#4))) ∧
        (500 ≤ low → a.mode = 2 → ∃ t, exec (.resetPulse ms low p) s = .next t ∧ ∀ c, (chan t c).mode = (chan s c).mode ∧ (chan t c).lock = 0#4 ∧ (chan t c).flock = false ∧ (chan t c).sto = (chan s c).sto))) ∧
    (∀ n k, n = rd s Reg.SAFE_MBOX_BLOCK → k = cistAddr (256 * n) →
      let answered := fun (t : State) (r : Nat) => mnum t (k + 12) 4 = r ∧ mnum t (k + 16) 4 = mnum s (k + 8) 4 ∧ flt t n = 1
      (¬(chanOn s false = true ∧ domOn s dCIST = true ∧ flt s n = 2) → exec .psetInstall s = .next s ∧ exec .enterTest s = .next s ∧ exec .leaveTest s = .next s) ∧
      (chanOn s false = true → domOn s dCIST = true → flt s n = 2 →
        (mnum s k 4 = 2 → exec .psetInstall s = .next s ∧ ((a.mode = 0 ∨ a.mode = 3) → ∃ t, exec .enterTest s = .next t ∧ answered t 0 ∧ ∀ c, (chan t c).mode = 2 ∧ (chan t c).sto = 15#4) ∧
          (a.mode ≠ 0 → a.mode ≠ 3 → ∃ t, exec .enterTest s = .next t ∧ answered t 4 ∧ t.safe = s.safe)) ∧
        (mnum s k 4 = 3 → (a.mode = 2 → ∃ t, exec .leaveTest s = .next t ∧ answered t 0 ∧ ∀ c, (chan t c).mode = 0 ∧ (chan t c).sto = 15#4) ∧
          (a.mode ≠ 2 → ∃ t, exec .leaveTest s = .next t ∧ answered t 4 ∧ t.safe = s.safe)) ∧
        (mnum s k 4 = 1 → ∀ r, r = checkPset s (mnum s (k + 4) 4) → (r.1 = 0 → ∃ t, exec .psetInstall s = .next t ∧ answered t 0 ∧ t.safe.pset = r.2 ∧
            ∀ c, (chan t c).mode = 0 ∧ (chan t c).sto = 15#4) ∧
          (r.1 ≠ 0 → ∃ t, exec .psetInstall s = .next t ∧ answered t r.1 ∧ t.safe = s.safe)) ∧
        (mnum s k 4 ≠ 1 → mnum s k 4 ≠ 2 → mnum s k 4 ≠ 3 → ∃ t, exec .psetInstall s = .next t ∧ answered t 4 ∧ t.safe = s.safe)))

/-- R171, R298 to R308, R376: encoder channels, tracking and emulation. -/
def Obligations.EncodersAndEmulation : Prop :=
  ∀ s : State,
    let quad := [(0, 2), (2, 3), (3, 1), (1, 0)]
    let hall := [(1, 3), (3, 2), (2, 6), (6, 4), (4, 5), (5, 1)]
    let step := fun (l : List (Nat × Nat)) (o v : Nat) => if (o, v) ∈ l then some (1 : Int) else if (v, o) ∈ l then some (-1) else if o = v then some 0 else none
    (∀ (n : Fin 8) (old new : BitVec 3) (at_ : W64),
      let ty := encType s n
      let f := cfg s (Reg.ENC_CFG_FILT n)
      let far := ∀ u, (enc s n).tAny = some u → u + max 20 ((f + 2) * 4) ≤ at_.toNat - 4 * f
      let d : Option Int := if ty = 1 then step quad (old.toNat / 2) (new.toNat / 2) else if new = 0#3 ∨ new = 7#3 then none
        else if old = 0#3 ∨ old = 7#3 then some 0 else step hall old.toNat new.toNat
      ((domOn s dAUX = false ∨ ty = 0 ∨ 3 ≤ ty ∨ (ty = 1 ∧ old.toNat / 2 = new.toNat / 2)) → exec (.encoderTransition n old new at_) s = .next s) ∧
      (domOn s dAUX = true → ty = 2 → far → d = some 0 → ∃ t, exec (.encoderTransition n old new at_) s = .next t ∧ t.mem = s.mem ∧ SameRegsBut [(Reg.ENC_STAT_SECTOR n).addr] s t ∧
        enc t n = { enc s n with tAny := some (at_.toNat - 4 * f) }) ∧
      (domOn s dAUX = true → (ty = 1 ∨ ty = 2) → far → (d = some 1 ∨ d = some (-1)) → ∃ t, exec (.encoderTransition n old new at_) s = .next t ∧ t.mem = s.mem ∧
        SameRegsBut [(Reg.ENC_STAT_SECTOR n).addr] s t ∧ (enc t n).tLast = at_.toNat - 4 * f ∧
        (enc t n).count = (enc s n).count + BitVec.ofInt 64 (if cfgOn s (Reg.ENC_CFG_INV n) = true then -(d.getD 0) else d.getD 0) ∧
        ∀ m, m ≠ n.val → enc t m = enc s m) ∧
      (domOn s dAUX = true → (ty = 1 ∨ ty = 2) → (ty = 1 → old.toNat / 2 ≠ new.toNat / 2) → (¬far ∨ d = none) → ∃ t, exec (.encoderTransition n old new at_) s = .next t ∧ t.mem = s.mem ∧
        (enc t n).count = (enc s n).count ∧ (enc t n).inv = true ∧ on t (Reg.ENC_STAT_REF_LOST n) = true ∧
        rd t (Reg.ENC_QERR_ERR_COUNT n) = min 65535 (rd s (Reg.ENC_QERR_ERR_COUNT n) + 1)) ∧
      ((domOn s dAUX = false ∨ cfgOn s (Reg.ENC_CFG_ZEN n) = false ∨ ty ≠ 1) → exec (.zEdge n at_) s = .next s) ∧
      (domOn s dAUX = true → cfgOn s (Reg.ENC_CFG_ZEN n) = true → ty = 1 → ∃ t, exec (.zEdge n at_) s = .next t ∧ SamePtsBut [pt 25 n 0 4, pt 25 n 0 5] s t ∧
        (domOn s dNET = true → PointIs t (pt 25 n 0 4) (enc s n).count.toNat false ∧ PointIs t (pt 25 n 0 5) (at_.toNat - 4 * f) false) ∧
        (on s (Reg.ENC_STAT_ZARMED n) = false → t.encs = s.encs ∧ t.regs = s.regs) ∧
        (on s (Reg.ENC_STAT_ZARMED n) = true → (enc t n).count = encBase s n ∧ on t (Reg.ENC_STAT_ZARMED n) = false ∧ on t (Reg.ENC_STAT_REF_LOST n) = false ∧
          SameRegsBut [(Reg.ENC_STAT_ZARMED n).addr] s t))) ∧
    (∀ n : Fin 8, ((domOn s dAUX = false ∨ domOn s dNET = false ∨ encType s n = 0) → exec (.encoderSample n) s = .next s) ∧
      (domOn s dAUX = true → domOn s dNET = true → (encType s n = 1 ∨ encType s n = 2) →
        ∃ t, exec (.encoderSample n) s = .next t ∧ SamePtsBut ((List.range 7).map (pt 25 n 0)) s t ∧ (enc t n).count = (enc s n).count ∧
          (enc t n).run = (if (enc s n).bad = true then (enc s n).run + 1 else 0) ∧ on t (Reg.ENC_STAT_STALE n) = ((enc s n).bad || on s (Reg.ENC_STAT_FAULT n)) ∧
          ((enc s n).bad = false → on s (Reg.ENC_STAT_FAULT n) = false → PointIs t (pt 25 n 0 0) (enc s n).count.toNat false) ∧
          (((enc s n).bad = true ∨ on s (Reg.ENC_STAT_FAULT n) = true) → (mget t (pdAddr (pt 25 n 0 0))).toNat % 2 = 1)) ∧
      (domOn s dAUX = true → domOn s dNET = true → 3 ≤ encType s n → ∃ t, exec (.encoderSample n) s = .next t ∧ (enc t n).await = true ∧
        t = { s with encs := t.encs, wire := s.wire ++ [.encRequest n] })) ∧
    (∀ (n : Fin 8) (w : SerialWord), ((domOn s dAUX = false ∨ (enc s n).await = false ∨ encType s n < 3) → exec (.serialWordComplete n w) s = .next s) ∧
      (∀ raw len : Nat, len = cfg s (Reg.ENC_SCFG_LEN n) → 0 < len → raw = (if encType s n ≠ 4 ∧ cfgOn s (Reg.ENC_SCFG_GRAY n) = true then unGray len (w.pos.toNat % 2 ^ len) else w.pos.toNat % 2 ^ len) →
        domOn s dAUX = true → (enc s n).await = true → 3 ≤ encType s n →
        ∃ t, exec (.serialWordComplete n w) s = .next t ∧ (enc t n).await = false ∧
          (wordCause s n w ≠ 0 → (enc t n).count = (enc s n).count ∧ (enc t n).run = (enc s n).run + 1 ∧ rd t (Reg.ENC_STAT_LASTFAIL n) = wordCause s n w ∧ on t (Reg.ENC_STAT_STALE n) = true) ∧
          (wordCause s n w = 0 → (enc t n).rPrev = some raw ∧ (enc t n).run = 0 ∧ on t (Reg.ENC_STAT_REF_LOST n) = false ∧
            ((enc s n).rPrev = none → (enc t n).count = encBase s n + BitVec.ofInt 64 (if cfgOn s (Reg.ENC_CFG_INV n) = true then -raw else raw)) ∧
            (∀ (p : Nat) (d : Int), (enc s n).rPrev = some p → (d - (raw - p)) % 2 ^ len = 0 → -(2 ^ (len - 1)) ≤ d → d < 2 ^ (len - 1) →
              (enc t n).count = (enc s n).count + BitVec.ofInt 64 (if cfgOn s (Reg.ENC_CFG_INV n) = true then -d else d)))) ∧
      (domOn s dNET = false → exec (.serialTimeout n) s = .next s) ∧
      (domOn s dNET = true → (domOn s dAUX = false ∨ encType s n = 0) → ∃ t, exec (.serialTimeout n) s = .next t ∧ t.encs = s.encs ∧
        SamePtsBut ((List.range 7).map (pt 25 n 0)) s t ∧ (∀ i, i < 7 → (mget t (pdAddr (pt 25 n 0 i))).toNat % 2 = 1) ∧
        ∃ v, t = fireEdges v pInstant (realEdges (if domOn s dAUX = true then edgeRegs s n else tget (fun _ => []) s.sched.encEdges n)) ∧ v.sched = s.sched) ∧
      (domOn s dNET = true → domOn s dAUX = true → encType s n ≠ 0 → (enc s n).await = false → exec (.serialTimeout n) s = .next s) ∧
      (domOn s dNET = true → domOn s dAUX = true → encType s n ≠ 0 → (enc s n).await = true → ∃ t, exec (.serialTimeout n) s = .next t ∧ (enc t n).await = false ∧
        (enc t n).count = (enc s n).count ∧ (enc t n).run = (enc s n).run + 1 ∧ rd t (Reg.ENC_STAT_LASTFAIL n) = 3 ∧ on t (Reg.ENC_STAT_STALE n) = true ∧
        rd t (Reg.ENC_TMO_ERR_COUNT n) = min 65535 (rd s (Reg.ENC_TMO_ERR_COUNT n) + 1))) ∧
    (∀ n : Fin 8, ((domOn s dAUX = false ∨ on s (Reg.ENC_STAT_FAULT n) = true ∨ (enc s n).run < rd s (Reg.ENC_FAIL_FAIL_LIM n)) → exec (.encFault n) s = .next s) ∧
      (domOn s dAUX = true → on s (Reg.ENC_STAT_FAULT n) = false → rd s (Reg.ENC_FAIL_FAIL_LIM n) ≤ (enc s n).run → ∃ t, exec (.encFault n) s = .next t ∧ Logged s t ∧
        on t (Reg.ENC_STAT_FAULT n) = true ∧ NewEntry s t 0x3010 3 (n + rd s (Reg.ENC_STAT_LASTFAIL n) * 16))) ∧
    (∀ (m : Master) (n : Fin 8) (w : W32), CanReach m s (Reg.ENC_CTRL n).addr → ∃ u, Written (Reg.ENC_CTRL n).addr s u ∧
      (wbits (Reg.ENC_CTRL_LOAD n) w = 0 → exec (.encLoad m n w) s = .next u) ∧ (wbits (Reg.ENC_CTRL_ZARM n) w = 0 → exec (.zarm m n w) s = .next u) ∧
      (wbits (Reg.ENC_CTRL_CLR n) w = 0 → exec (.encClr m n w) s = .next u) ∧
      (wbits (Reg.ENC_CTRL_LOAD n) w = 1 → ∃ t, exec (.encLoad m n w) s = .next t ∧ t = { u with encs := t.encs, regs := t.regs } ∧ enc t n = { enc s n with count := encBase s n } ∧
        SameRegsBut [(Reg.ENC_STAT_REF_LOST n).addr] u t ∧ on t (Reg.ENC_STAT_REF_LOST n) = false ∧ on t (Reg.ENC_STAT_ZARMED n) = false) ∧
      (wbits (Reg.ENC_CTRL_ZARM n) w = 1 → ∃ t, exec (.zarm m n w) s = .next t ∧ t = { u with regs := t.regs } ∧ SameRegsBut [(Reg.ENC_STAT_ZARMED n).addr] u t ∧ on t (Reg.ENC_STAT_ZARMED n) = true) ∧
      (wbits (Reg.ENC_CTRL_CLR n) w = 1 → ∃ t, exec (.encClr m n w) s = .next t ∧ t = { u with encs := t.encs, regs := t.regs } ∧ enc t n = { enc s n with run := 0, rPrev := none } ∧
        SameRegsBut [(Reg.ENC_STAT_FAULT n).addr] u t ∧ on t (Reg.ENC_STAT_FAULT n) = false)) ∧
    (∀ (k : Fin 2) (a b : Bool),
      let old := tget (fun _ => 4) s.ao.trkAB k
      let new := b2n a + 2 * b2n b
      let up := [(0, 1), (1, 3), (3, 2), (2, 0)]
      let cnt := fun (t : State) => rd64 t (Reg.AO_TRK_LO_COUNT k) (Reg.AO_TRK_HI_COUNT k)
      (on s (Reg.AO_TRK_CTL_ACTIVE k) = false → exec (.encoderTrackingSample k a b) s = .next s) ∧
      (on s (Reg.AO_TRK_CTL_ACTIVE k) = true → ∃ t, exec (.encoderTrackingSample k a b) s = .next t ∧ t.mem = s.mem ∧ tget (fun _ => 4) t.ao.trkAB k = new ∧
        (old = 4 → on t (Reg.AO_TRK_CTL_VALID k) = true ∧ cnt t = if domOn s dAUX = true then (enc s k).count.toNat else cnt s) ∧ (old ≠ 4 → (old, new) ∈ up → cnt t = (cnt s + 1) % 2 ^ 64) ∧ (old ≠ 4 → (new, old) ∈ up → cnt t = (cnt s + (2 ^ 64 - 1)) % 2 ^ 64) ∧
        (old ≠ 4 → old ≠ new → (old, new) ∉ up → (new, old) ∉ up → cnt t = cnt s ∧ on t (Reg.AO_TRK_CTL_ERR k) = true ∧ on t (Reg.AO_TRK_CTL_VALID k) = false))) ∧
    (∀ m : Fin 4, ((domOn s dAUX = false ∨ domOn s dNET = false ∨ on s (Reg.EMU_CFG_EN m) = false ∨ (emu s m).cur = none) → exec (.emulationEdge m) s = .next s) ∧
      (∀ c : EmuPlan, (emu s m).cur = some c → (c.left = 0 → exec (.emulationEdge m) s = .next s) ∧
        (domOn s dAUX = true → domOn s dNET = true → on s (Reg.EMU_CFG_EN m) = true → c.left ≠ 0 → ∃ t, exec (.emulationEdge m) s = .next t ∧
          (emu t m).qOut = (emu s m).qOut + (if c.up = true then (1 : Int) else -1) * (c.head.getD c.size : Nat) ∧ (emu t m).cur = some { c with head := none, left := c.left - 1 } ∧
          t = { s with emus := t.emus, wire := s.wire ++ [.emuEdge m (emu t m).qOut] } ∧ ∀ j, j ≠ m.val → emu t j = emu s j)))

/-- R314 to R320: the outputs of the field die. -/
def Obligations.FieldOutputsAndTheirDiagnostics : Prop :=
  ∀ s : State,
    let out := fun (t : State) (k : Nat) => t.field.drive.getLsbD k
    let driven := fun (t : State) => ∀ k : Fin 16, out t k = (!forcedOff t k && (if inSafe t k = true then
        (match rd t (Reg.FIO_OUTCFG_SAFE k) with | 0 => false | 1 => true | _ => if s.field.safe.getLsbD k = true then s.field.hold.getLsbD k else out s k)
      else t.field.cmd.getLsbD k))
    let only := fun (t : State) => t = { s with regs := t.regs, wire := t.wire, mem := t.mem, field := t.field } ∧ t.field.cmd = s.field.cmd
    let faulted := fun (t : State) (k b : Nat) (f : Fld) => only t ∧ driven t ∧ on t (diagBit k b) = true ∧ rd t f = min 65535 (rd s f + 1) ∧ NewEntry s t 0x300F 3 (k + 16 * b)
    (∀ k : Fin 16,
      ((domOn s dFIELD = false ∨ out s k = false ∨ on s (diagBit k 0) = true) → exec (.ovl k) s = .next s) ∧
      (domOn s dFIELD = true → out s k = true → on s (diagBit k 0) = false → ∃ t, exec (.ovl k) s = .next t ∧ faulted t k 0 Reg.FIO_OVL_ERR_COUNT ∧ out t k = false) ∧
      (∃ t, exec (.otemp k) s = .next t ∧ only t ∧ driven t ∧ out t k = false ∧ (domOn s dFIELD = true → t.field.hot.getLsbD k = true) ∧
        (domOn s dFIELD = true → on s (diagBit k 1) = false → faulted t k 1 Reg.FIO_OTEMP_ERR_COUNT) ∧
        ((domOn s dFIELD = false ∨ on s (diagBit k 1) = true) → t.mem = s.mem ∧ rd t Reg.FIO_OTEMP_ERR_COUNT = rd s Reg.FIO_OTEMP_ERR_COUNT)) ∧
      (∃ t, exec (.switchCooled k) s = .next t ∧ only t ∧ driven t ∧ t.mem = s.mem ∧ t.field.hot = s.field.hot &&& ~~~BitVec.ofNat 16 (2 ^ k.val)) ∧
      (∀ en, en = (if out s k = true then Reg.FIO_OUTCFG_OWON_EN k else Reg.FIO_OUTCFG_OWOFF_EN k) →
        ((on s en = false ∨ domOn s dFIELD = false ∨ on s (diagBit k 2) = true) → exec (.openWire k) s = .next s) ∧
        (on s en = true → domOn s dFIELD = true → on s (diagBit k 2) = false → ∃ t, exec (.openWire k) s = .next t ∧ faulted t k 2 Reg.FIO_OPEN_ERR_COUNT)) ∧
      ((out s k = true ∨ domOn s dFIELD = false ∨ on s (diagBit k 3) = true) → exec (.shortLp k) s = .next s) ∧
      (out s k = false → domOn s dFIELD = true → on s (diagBit k 3) = false → ∃ t, exec (.shortLp k) s = .next t ∧ faulted t k 3 Reg.FIO_SHORT_ERR_COUNT ∧
        (on s (Reg.FIO_OUTCFG_REACT k) = true → bitOf (rd s (Reg.FIO_OUTCFG_PGRP k)) (rd t Reg.FIO_GSTAT_FORCED) = true ∧
          ∀ j : Fin 16, rd s (Reg.FIO_OUTCFG_PGRP j) = rd s (Reg.FIO_OUTCFG_PGRP k) → inSafe t j = true ∧ (rd s (Reg.FIO_OUTCFG_SAFE j) = 0 → out t j = false)))) ∧
    (∀ g : Fin 2,
      ((domOn s dFIELD = false ∨ on s (govl g) = true) → exec (.groupOverload g) s = .next s) ∧
      (domOn s dFIELD = false → exec (.undervoltage g) s = .next s ∧ exec (.undervoltageEnd g) s = .next s) ∧
      (domOn s dFIELD = true →
        (on s (govl g) = false → ∃ t, exec (.groupOverload g) s = .next t ∧ only t ∧ driven t ∧ on t (govl g) = true ∧ NewEntry s t 0x300F 3 (256 + g) ∧ ∀ k : Fin 16, k.val / 8 = g → out t k = false) ∧
        (∃ t, exec (.undervoltage g) s = .next t ∧ only t ∧ driven t ∧ t.mem = s.mem ∧ on t (uv g) = true ∧ on t (uvStk g) = true ∧ ∀ k : Fin 16, k.val / 8 = g → out t k = false) ∧
        (∃ t, exec (.undervoltageEnd g) s = .next t ∧ only t ∧ driven t ∧ t.mem = s.mem ∧ on t (uv g) = false ∧ on t (uvStk g) = on s (uvStk g)))) ∧
    (∀ (m : Master) (r : Fin 3) (w : W32) (k : Nat), k = (if r = 2 then 0xA00A4 else 0xA009C + 4 * r.val) → CanReach m s k →
      ∃ t, exec (.diagClear m r w) s = .next t ∧ only t ∧ driven t ∧ t.mem = s.mem ∧ SameRegsBut (0xA00A4 :: cmdKeys k) s t ∧
        ∀ i, i < 32 → (r = 2 → 2 ≤ i ∧ i ≤ 5) → bitOf i (rdw t k) = (bitOf i (rdw s k) && !bitOf i w.toNat)) ∧
    (∃ t, exec .watchdogTrip s = .next t ∧ t.field.fresh = false ∧ (chanOn s true = true → (chan t true).cause = 0x0C ∧ (chan t true).flock = true) ∧
      ((domOn s dFIELD = false ∨ on s Reg.FIO_WD_TRIPPED = true) → t.field = { s.field with fresh := false }) ∧
      (domOn s dFIELD = true → on s Reg.FIO_WD_TRIPPED = false → driven t ∧ on t Reg.FIO_WD_TRIPPED = true ∧ (∀ k : Fin 16, inSafe t k = true) ∧
        rd t Reg.FIO_WD_CNT_WD_CNT = (rd s Reg.FIO_WD_CNT_WD_CNT + 1) % 2 ^ 32)) ∧
    (∀ (m : Master) (w : W32), CanReach m s Reg.FIO_WD_TWD.addr → ∃ u, Written Reg.FIO_WD_TWD.addr s u ∧
      ((bitOf 9 w.toNat = false ∨ (s.field.fresh = true ∧ s.field.held = false ∧ on s Reg.FIO_WD_TRIPPED = false)) → exec (.rearm m w) s = .next u) ∧
      (bitOf 9 w.toNat = true → (s.field.fresh = false ∨ s.field.held = true) → ∃ t, exec (.rearm m w) s = .next t ∧ RegsWire u t ∧ SameRegsBut (sideKeys 0xA0000) u t ∧
        on t (Reg.HDR_ERRLOG_VALID 0xA0) = true) ∧
      (bitOf 9 w.toNat = true → s.field.fresh = true → s.field.held = false → on s Reg.FIO_WD_TRIPPED = true → ∃ t, exec (.rearm m w) s = .next t ∧ only t ∧ driven t ∧ t.mem = s.mem ∧
        on t Reg.FIO_WD_TRIPPED = false ∧ t.field.await = true ∧ ∀ k : Fin 16, inSafe t k = true))

/-- R30, R323 to R336: the cistern, its snapshots and the DMA engine. -/
def Obligations.CisternFloatsSnapshotsAndDma : Prop :=
  ∀ s : State,
    let cistSame := fun (t : State) => ∀ a, 0x20000000 ≤ a → a < 0x20800000 → mget t a = mget s a
    (∀ (m : Master) (w : W32), CanReach m s Reg.CIST_CAS.addr →
      (wbits Reg.CIST_CAS_NEW w = 2 → roleBars s m = true → ∃ t, exec (.cas m w) s = .next t ∧ RegsWire s t ∧ on t (Reg.HDR_ERRLOG_VALID 0xB0) = true) ∧
      ((wbits Reg.CIST_CAS_NEW w ≠ 2 ∨ roleBars s m = false) → ∃ t, exec (.cas m w) s = .next t ∧ t = { s with regs := t.regs, wire := t.wire, banked := t.banked, casPend := s.casPend ++ [⟨m, w⟩] } ∧
        bget t m Reg.CIST_CAS_RES.addr = 0 ∧ ∀ n k, k < 2 ^ 24 → (n ≠ m ∨ k ≠ Reg.CIST_CAS_RES.addr) → bget t n k = bget s n k)) ∧
    (∀ (r : CasReq) (l : List CasReq) (b : Nat) (ok : Bool), s.casPend = r :: l → b = bits 14 0 r.w.toNat →
      ok = (decide (bits 29 28 r.w.toNat = flt s b) && (decide (ownerClass r.m = flt s b) || decide (flt s b = 0)) && !inAxisArea s b && !(blk s b).excl && !s.pair.passes.any (fun q => q.blk == b)) → bits 31 30 r.w.toNat ≠ 3 →
      ∃ t, exec (.casExecute 1) s = .next t ∧ t.mem = s.mem ∧ t.casPend = l ∧
        bget t r.m Reg.CIST_CAS_RES.addr = 2 ^ 31 + b2n ok * 2 ^ 30 + flt s b * 2 ^ 28 + b2n (blk s b).priv * 2 ^ 27 + b ∧
        (ok = true → bits 31 30 r.w.toNat = 2 → mirrors s = true → t.cist = s.cist ∧ t.pair = { s.pair with passes := s.pair.passes ++ [⟨s.sched.cycle + 2, b, bitOf 27 r.w.toNat⟩], items := s.pair.items ++ [MItem.block (BitVec.ofNat 15 b) 2 (bitOf 27 r.w.toNat) (s.sched.cycle + 2) (cistBytes s (256 * b) 256)] }) ∧
        (ok = true → (bits 31 30 r.w.toNat ≠ 2 ∨ mirrors s = false) → t = { s with cist := t.cist, banked := t.banked, casPend := t.casPend } ∧ (∀ c, c ≠ b → blk t c = blk s c) ∧ flt t b = bits 31 30 r.w.toNat ∧
          (blk t b).priv = (bitOf 27 r.w.toNat && decide (bits 31 30 r.w.toNat ≠ 0)) ∧ (blk t b).prev = (blk s b).flt) ∧
        (ok = false → t.cist = s.cist ∧ rd t Reg.CIST_CASF_CNT_CASF_CNT = (rd s Reg.CIST_CASF_CNT_CASF_CNT + 1) % 2 ^ 32)) ∧
    (∀ k : Nat, ∃ v, exec (.casExecute k) s = .next (if (s.casPend.take k).any (fun r => bits 31 30 r.w.toNat == 3) then pollRings v else v) ∧ v.casPend = s.casPend.drop k ∧ v.mem = s.mem) ∧
    (∀ (a b : CasReq), s.casPend = [a, b] → bits 31 30 a.w.toNat ≠ 3 → bits 31 30 b.w.toNat ≠ 3 →
      ∃ x y, (x, y) = (if casRank a.m ≤ casRank b.m then (a, b) else (b, a)) ∧ ∃ t1 t2, exec (.casExecute 1) { s with casPend := [x] } = .next t1 ∧
        exec (.casExecute 1) { t1 with casPend := [y] } = .next t2 ∧ exec (.casExecute 2) s = .next t2) ∧
    (∀ (m : Master) (w : BitVec 21), domOn s dCIST = true →
      let b := w.toNat / 64
      let a := 0x20000000 + 4 * w.toNat
      let detail := b + w.toNat % 64 * 2 ^ 15 + mcode m * 2 ^ 23
      (((blk s b).priv = false ∨ flt s b = ownerClass m) → exec (.cisternAccess m w .read) s = .next { s with resp := some (BitVec.ofNat 32 (mnum s a 4)) }) ∧
      ((blk s b).priv = true → flt s b ≠ ownerClass m → ∃ t, exec (.cisternAccess m w .read) s = .next t ∧ t.resp = some 0#32 ∧ cistSame t ∧
        rd t Reg.CIST_PRIV_ERR_COUNT = min 65535 (rd s Reg.CIST_PRIV_ERR_COUNT + 1) ∧ NewEntry s t 0x4002 4 detail) ∧
      (∀ v : W32, (flt s b = ownerClass m → flt s b ≠ 0 → ∃ t, exec (.cisternAccess m w (.write v)) s = .next t ∧ t = { s with mem := t.mem } ∧ SameMemBut a 4 s t ∧ mnum t a 4 = v.toNat) ∧
        ((flt s b ≠ ownerClass m ∨ flt s b = 0) → ∃ t, exec (.cisternAccess m w (.write v)) s = .next t ∧ Logged s t ∧ cistSame t ∧
          rd t Reg.CIST_NOWN_ERR_COUNT = min 65535 (rd s Reg.CIST_NOWN_ERR_COUNT + 1) ∧ NewEntry s t 0x4001 4 detail))) ∧
    (∀ (m : Master) (w : W32), CanReach m s Reg.CIST_SNAP_CMD.addr →
      let p := rd s Reg.CIST_SNAP_PT_POINT
      let n := rd s Reg.CIST_SNAP_N_COUNT
      let d := rd s Reg.CIST_SNAP_DST_BLOCK
      let nb := (16 * ((n + 2047) / 2048) + 12 * n + 255) / 256
      let bad := n = 0 ∨ 1048576 < n ∨ 1048576 < p + n ∨ 32768 < d + nb ∨ ¬∀ i, i < nb → flt s (d + i) = ownerClass m
      ∃ u, Written Reg.CIST_SNAP_CMD.addr s u ∧ (wbits Reg.CIST_SNAP_CMD_GO w = 0 → exec (.snapGo m w) s = .next u) ∧
        (wbits Reg.CIST_SNAP_CMD_GO w = 1 → on s Reg.CIST_SNAP_CMD_BUSY = true → ∃ t, exec (.snapGo m w) s = .next t ∧ RegsWire s t ∧ on t (Reg.HDR_ERRLOG_VALID 0xB0) = true) ∧
        (wbits Reg.CIST_SNAP_CMD_GO w = 1 → on s Reg.CIST_SNAP_CMD_BUSY = false → bad → ∃ t, exec (.snapGo m w) s = .next t ∧ RegsWire s t ∧ on t Reg.CIST_SNAP_CMD_ERR = true ∧ on t Reg.CIST_SNAP_CMD_BUSY = false) ∧
        (wbits Reg.CIST_SNAP_CMD_GO w = 1 → on s Reg.CIST_SNAP_CMD_BUSY = false → ¬bad → ∃ t, exec (.snapGo m w) s = .next t ∧
          t = { s with regs := t.regs, wire := t.wire, snapRun := some { m := m, pt := p, left := n, dst := 256 * d, cyc := 0 }, snapLatch := [] } ∧ on t Reg.CIST_SNAP_CMD_BUSY = true)) ∧
    ((s.snapRun = none ∨ s.snapLatch = [] ∨ domOn s dCIST = false ∨ domOn s dNET = false) → exec .snapshotPart s = .next s) ∧
    (∀ (x : SnapRun) (n : Nat), s.snapRun = some x → s.snapLatch ≠ [] → domOn s dCIST = true → domOn s dNET = true → n = s.snapLatch.length → x.dst % 4 = 0 → x.dst + 16 + 12 * n ≤ 0x800000 →
      ownerClass x.m ≠ 0 → (∀ b, x.dst / 256 ≤ b → 256 * b < x.dst + 16 + 12 * n → flt s b = ownerClass x.m) →
      ∃ t, exec .snapshotPart s = .next t ∧ t = { s with mem := t.mem, freeIdx := t.freeIdx, snapLatch := [], snapRun := t.snapRun, regs := t.regs, wire := t.wire } ∧ SameMemBut (0x20000000 + x.dst) (16 + 12 * n) s t ∧
        mnum t (0x20000000 + x.dst) 8 = x.cyc % 2 ^ 64 ∧ mnum t (0x20000000 + x.dst + 8) 4 = x.pt % 2 ^ 32 ∧ mnum t (0x20000000 + x.dst + 12) 4 = n % 2 ^ 32 ∧
        (∀ i p v st, s.snapLatch[i]? = some (p, v, st) → mnum t (0x20000000 + x.dst + 16 + 12 * i) 8 = v % 2 ^ 64 ∧ mnum t (0x20000000 + x.dst + 24 + 12 * i) 4 % 2 = st % 2) ∧
        (x.left ≤ n → t.snapRun = none ∧ on t Reg.CIST_SNAP_CMD_DONE = true ∧ on t Reg.CIST_SNAP_CMD_BUSY = false) ∧
        (n < x.left → t.regs = s.regs ∧ t.snapRun = some { x with pt := x.pt + n, left := x.left - n, dst := x.dst + 16 + 12 * n })) ∧
    (∀ (m : Master) (c : Fin 8) (w : W32), CanReach m s (Reg.HOST_DMA_CTRL c).addr → ∃ u, Written (Reg.HOST_DMA_CTRL c).addr s u ∧
      (wbits (Reg.HOST_DMA_CTRL_GO c) w = 0 → exec (.dmaGo m c w) s = .next u) ∧
      (wbits (Reg.HOST_DMA_CTRL_GO c) w = 1 → on s (Reg.HOST_DMA_STAT_BUSY c) = true → ∃ t, exec (.dmaGo m c w) s = .next t ∧ RegsWire s t ∧ on t (Reg.HDR_ERRLOG_VALID 0xB1) = true) ∧
      (wbits (Reg.HOST_DMA_CTRL_GO c) w = 1 → on s (Reg.HOST_DMA_STAT_BUSY c) = false → ∃ t, exec (.dmaGo m c w) s = .next t ∧ t = { u with dma := t.dma, regs := t.regs } ∧
        SameRegsBut [(Reg.HOST_DMA_STAT_BUSY c).addr] u t ∧ on t (Reg.HOST_DMA_STAT_BUSY c) = true ∧
        tget (fun _ => ({} : DmaCh)) t.dma c = { ptr := rd64 s (Reg.HOST_DMA_DESC_LO_ADDR c) (Reg.HOST_DMA_DESC_HI_ADDR c) / 32 * 32 }) ∧
      (∀ (d : DmaDesc) (data : List Byte) (n : Nat), ((wbits (Reg.HOST_DMA_CTRL_STOP c) w = 0 ∨ on s (Reg.HOST_DMA_STAT_BUSY c) = false) → exec (.dmaStop m c w d data n) s = .next u) ∧
        (wbits (Reg.HOST_DMA_CTRL_STOP c) w = 1 → on s (Reg.HOST_DMA_STAT_BUSY c) = true → ∃ t, exec (.dmaStop m c w d data n) s = .next t ∧
          on t (Reg.HOST_DMA_STAT_BUSY c) = false ∧ tget (fun _ => ({} : DmaCh)) t.dma c = {} ∧ (n = 0 → t.mem = s.mem)))) ∧
    (∀ (c : Fin 8) (d : DmaDesc) (data : List Byte) (pcie : Bool),
      let ch := fun (t : State) => tget (fun _ => ({} : DmaCh)) t.dma c
      let r := moveDesc s c d data (if pcie = true ∨ (ch s).stop = true ∨ bitOf 24 d.word3.toNat = false then min (bits 23 0 d.word3.toNat / 4) (data.length / 4) else bits 23 0 d.word3.toNat / 4)
      ((domOn s dHOST = false ∨ on s (Reg.HOST_DMA_STAT_BUSY c) = false) → exec (.dmaDescriptorComplete c d data pcie) s = .next s) ∧
      (domOn s dHOST = true → on s (Reg.HOST_DMA_STAT_BUSY c) = true →
        ((r.2 = true ∨ pcie = true) → ∃ t, exec (.dmaDescriptorComplete c d data pcie) s = .next t ∧ t.mem = r.1.mem ∧ on t (Reg.HOST_DMA_STAT_ERR c) = true ∧ on t (Reg.HOST_DMA_STAT_BUSY c) = false ∧ ch t = {} ∧
          Out.dmaStatus c (ch r.1).ptr d.word3.toNat (if r.2 = true then 1 else 2) ∈ t.wire) ∧
        (r.2 = false → pcie = false → (ch s).stop = false → ∃ t, exec (.dmaDescriptorComplete c d data pcie) s = .next t ∧ t.mem = r.1.mem ∧
          Out.dmaStatus c (ch r.1).ptr (putBit 31 true d.word3.toNat) 0 ∈ t.wire ∧ rd t (Reg.HOST_DMA_DONE_CNT c) = (rd r.1 (Reg.HOST_DMA_DONE_CNT c) + 1) % 2 ^ 32 ∧
          (bitOf 26 d.word3.toNat = true → on t (Reg.HOST_DMA_STAT_DONE c) = true ∧ on t (Reg.HOST_DMA_STAT_BUSY c) = false ∧ ch t = {}) ∧
          (bitOf 26 d.word3.toNat = false → on t (Reg.HOST_DMA_STAT_BUSY c) = on r.1 (Reg.HOST_DMA_STAT_BUSY c) ∧ ch t = { ptr := d.next.toNat / 32 * 32 })))) ∧
    (∀ (c : Fin 8) (d : DmaDesc) (data : List Byte) (n : Nat), data.length = 4 * n → bits 23 0 d.word3.toNat = 4 * n → bitOf 24 d.word3.toNat = false → domOn s dCIST = true →
      0x20000000 ≤ d.intAddr.toNat → d.intAddr.toNat % 4 = 0 → d.intAddr.toNat + 4 * n ≤ 0x20800000 → (∀ a, d.intAddr.toNat ≤ a → a < d.intAddr.toNat + 4 * n → flt s ((a - 0x20000000) / 256) = 1) →
      ∃ t, moveDesc s c d data n = (t, false) ∧ t = { s with mem := t.mem } ∧ SameMemBut d.intAddr.toNat (4 * n) s t ∧ ∀ i, (h : i < data.length) → mget t (d.intAddr.toNat + i) = data[i]) ∧
    (∀ (e : EccMem) (double : Bool), (domOn s (EccMem.dom e) = false → exec (.eccScrub e double) s = .next s) ∧
      (domOn s (EccMem.dom e) = true → double = false → ∃ t, exec (.eccScrub e double) s = .next t ∧ t = { s with regs := t.regs, wire := t.wire, freeIdx := t.freeIdx } ∧
        on t (Reg.HDR_ERRLOG_VALID (EccMem.page e)) = true ∧ SameRegsBut (sideKeys (EccMem.page e * 0x1000)) s t)) ∧
    (∀ (a : BitVec 20) (work : Bool), domOn s dNET = true → ∃ t, exec (.eccScrub (.pointStore a work) true) s = .next t ∧ (mget t (pdAddr a.toNat)).toNat % 2 = 1 ∧
      ((work = false ∨ role s ≠ rACTIVE) → role t = role s ∧ t.pair = s.pair)) ∧
    (∀ (e : Fin 64) (i r : Bool) (c : Fin 4) (m : Option (Fin 64)),
      (domOn s (dCLU (e / 16)) = true → (r = false ∨ (eng s e).ph ≠ .running) → exec (.eccScrub (.leLocal e i r) true) s = .next (selfFault s .engine)) ∧
      (domOn s (dCLU (e / 16)) = true → r = true → (eng s e).ph = .running →
        exec (.eccScrub (.leLocal e i r) true) s = .next (engineFault s e (eng s e).task (eng s e).snap.pc (if i = true then .imemEcc else .xymemEcc))) ∧
      (domOn s (dCLU c) = true → (∀ x, m = some x → (eng s x).ph ≠ .running) → exec (.eccScrub (.clusterMem c m) true) s = .next (selfFault s .engine)) ∧
      (∀ x, domOn s (dCLU c) = true → m = some x → (eng s x).ph = .running →
        exec (.eccScrub (.clusterMem c m) true) s = .next (engineFault s x (eng s x).task (eng s x).snap.pc .clmemEcc))) ∧
    (∀ (w : BitVec 21) (v : BitVec 19) (m : Option Master), domOn s dCIST = true → ∃ t, exec (.eccScrub (.cistern w m) true) s = .next t ∧ exec (.eccScrub (.acqBuffer v m) true) s = .next t ∧ cistSame t ∧
      t = { s with mem := t.mem, regs := t.regs, wire := t.wire, freeIdx := t.freeIdx } ∧ (∀ x, m = some x → Out.busError x ∈ t.wire) ∧
      (domOn s dSTEWARD = true → rd t Reg.SUMP_WPTR_INDEX = (rd s Reg.SUMP_WPTR_INDEX + 1) % 2 ^ 12)) ∧
    (∀ p : Fin 24, domOn s (dPort p) = true → ∃ t, exec (.eccScrub (.portBuffer p) true) s = .next t ∧ t.mem = s.mem ∧ (port t p).kept = (port s p).kept.tail ∧
      rd t (Reg.PORT_CRC_ERR_COUNT p) = min 65535 (rd s (Reg.PORT_CRC_ERR_COUNT p) + 1)) ∧
    (∀ i : BitVec 12, domOn s dSTEWARD = true → ∃ t, exec (.eccScrub (.sumpLog i) true) s = .next t ∧ t = { s with mem := t.mem } ∧ SameMemBut (0x10010000 + 16 * i.toNat) 16 s t ∧
      mnum t (0x10010000 + 16 * i.toNat + 8) 4 % 2 ^ 16 = 0x5001 ∧ mnum t (0x10010000 + 16 * i.toNat + 12) 4 = i.toNat) ∧
    (domOn s dAO = true → exec (.eccScrub (.retention false) true) s = .next s ∧ ∃ t, exec (.eccScrub (.retention true) true) s = .next t ∧ t = { s with mem := t.mem, ao := t.ao } ∧
      SameMemBut 0x10000000 0x1000 s t ∧ (∀ a, 0x10000000 ≤ a → a < 0x10001000 → mget t a = 0) ∧ t.ao.epoch = 0)

/-- R341 to R348: the acquisition engine. -/
def Obligations.AcquisitionRecords : Prop :=
  ∀ s : State,
    let way := fun (u : State) => u.acq.recs.filter (fun r => overlaps (rd u Reg.ACQ_WPTR_OFFSET) (recordSize u) r.ofs r.len)
    let lost := fun (u : State) => ((way u).filter (fun r => !r.released)).length
    let reserved := fun (u t : State) =>
      (lost u ≠ 0 → on u Reg.ACQ_CFG_FULL = false → t = { u with regs := t.regs } ∧ acqState t = 5 ∧ SameRegsBut [Reg.ACQ_STAT_STATE.addr] u t) ∧
      ((lost u = 0 ∨ on u Reg.ACQ_CFG_FULL = true) → t = { u with mem := t.mem, regs := t.regs, wire := t.wire, acq := t.acq } ∧
        acqState t = (if rd u Reg.ACQ_PRE_SAMPLES = 0 then 2 else 1) ∧ t.acq.pre = [] ∧ t.acq.rows = [] ∧ t.acq.recs = u.acq.recs.filter (fun r => !overlaps (rd u Reg.ACQ_WPTR_OFFSET) (recordSize u) r.ofs r.len) ∧
        rd t Reg.ACQ_LOST_CNT_COUNT = (rd u Reg.ACQ_LOST_CNT_COUNT + lost u) % 2 ^ 32 ∧ (∀ i, i < 4 → mget t (acqAddr (rd u Reg.ACQ_WPTR_OFFSET + i)) = 0) ∧
        ∀ a, (∀ i, i < 4 → a ≠ acqAddr (rd u Reg.ACQ_WPTR_OFFSET + i)) → mget t a = mget u a)
    (∀ (m : Master) (w : W32), CanReach m s Reg.ACQ_CMD_ARM.addr → ∃ u, Written Reg.ACQ_CMD_ARM.addr s u ∧
      (wbits Reg.ACQ_CMD_ARM w = 0 → exec (.acqArm m w) s = .next u) ∧ (wbits Reg.ACQ_CMD_STOP w = 0 → exec (.acqStop m w) s = .next u) ∧
      (wbits Reg.ACQ_CMD_FORCE w = 0 → exec (.force m w) s = .next u) ∧ (wbits Reg.ACQ_CMD_EXPORT w = 0 → exec (.exportRec m w) s = .next u) ∧
      (wbits Reg.ACQ_CMD_ARM w = 1 →
        (acqState s ≠ 0 → ∃ t, exec (.acqArm m w) s = .next t ∧ RegsWire s t ∧ acqState t = acqState s ∧ on t (Reg.HDR_ERRLOG_VALID 0xB2) = true) ∧
        (acqState s = 0 → 2 ^ 21 < recordSize s → ∃ t, exec (.acqArm m w) s = .next t ∧ RegsWire s t ∧ acqState t = 0 ∧ on t Reg.ACQ_STAT_CFGERR = true) ∧
        (acqState s = 0 → recordSize s ≤ 2 ^ 21 → ∃ t, exec (.acqArm m w) s = .next t ∧ reserved { u with acq := { s.acq with prevA := none, prevB := none, held := false } } t)) ∧
      (wbits Reg.ACQ_CMD_STOP w = 1 →
        (acqState s ≠ 3 → ∃ t, exec (.acqStop m w) s = .next t ∧ t = { u with regs := t.regs, acq := { s.acq with pre := [], rows := [], force := false } } ∧ acqState t = 0) ∧
        (acqState s = 3 → ∀ o no n, o = rd s Reg.ACQ_WPTR_OFFSET → no = (rd s Reg.ACQ_LAST_VALUE + 1) % 2 ^ 32 → n = s.acq.pre.length + s.acq.rows.length →
          ∃ t, exec (.acqStop m w) s = .next t ∧ t = { u with mem := t.mem, regs := t.regs, wire := t.wire, acq := t.acq, freeIdx := t.freeIdx } ∧ acqState t = 0 ∧
            t.acq.recs = s.acq.recs ++ [⟨no, o, 80 + n * rowSize s, false⟩] ∧ t.acq.pre = [] ∧ t.acq.rows = [] ∧ rd t Reg.ACQ_LAST_VALUE = no ∧ rd t Reg.ACQ_LAST_OFS_VALUE = o ∧
            rd t Reg.ACQ_REC_CNT_COUNT = (rd s Reg.ACQ_REC_CNT_COUNT + 1) % 2 ^ 32 ∧
            (o % 64 = 0 → mnum t (acqAddr o) 4 = 5 + 8 * b2n s.acq.forced ∧ mnum t (acqAddr o + 4) 4 = no ∧ mnum t (acqAddr o + 12) 4 = n % 2 ^ 32))) ∧
      (wbits Reg.ACQ_CMD_FORCE w = 1 →
        (acqState s ≠ 1 → acqState s ≠ 2 → exec (.force m w) s = .next u) ∧
        ((acqState s = 1 ∨ acqState s = 2) → s.acq.tapAt ≠ some s.sched.cycle → exec (.force m w) s = .next { u with acq := { s.acq with force := true } }) ∧
        ((acqState s = 1 ∨ acqState s = 2) → s.acq.tapAt = some s.sched.cycle → ∃ t, exec (.force m w) s = .next t ∧ t.acq.trig = s.sched.cycle ∧
          rd t Reg.ACQ_TRIG_CNT_COUNT = (rd s Reg.ACQ_TRIG_CNT_COUNT + 1) % 2 ^ 32 ∧ ((∀ r, s.acq.last = some r → r.cycle ≠ s.sched.cycle) → acqState t = 3 ∧ t.mem = s.mem))) ∧
      (wbits Reg.ACQ_CMD_EXPORT w = 1 → ∀ b, b = rd s Reg.ACQ_EXP_DST_BLOCK →
        (∀ r, s.acq.recs.find? (fun r => r.no == rd s Reg.ACQ_EXP_REC_RECNO) = some r → s.acq.exp = none → b + (r.len + 255) / 256 ≤ 32768 → (∀ i, i < (r.len + 255) / 256 → flt s (b + i) = 2) →
          exec (.exportRec m w) s = .next { u with acq := { s.acq with exp := some (r.ofs, r.len, b) } }) ∧
        ((∀ r, s.acq.recs.find? (fun r => r.no == rd s Reg.ACQ_EXP_REC_RECNO) = some r → s.acq.exp ≠ none ∨ 32768 < b + (r.len + 255) / 256 ∨ ∃ i, i < (r.len + 255) / 256 ∧ flt s (b + i) ≠ 2) →
          ∃ t, exec (.exportRec m w) s = .next t ∧ RegsWire s t ∧ on t Reg.ACQ_STAT_EXPERR = true))) ∧
    ((s.acq.exp = none ∨ domOn s dCIST = false) → exec .exportComplete s = .next s) ∧
    (∀ o n b, s.acq.exp = some (o, n, b) → domOn s dCIST = true → n % 4 = 0 → b + (n + 255) / 256 ≤ 32768 → (∀ i, i < (n + 255) / 256 → flt s (b + i) = 2) →
      ∃ t, exec .exportComplete s = .next t ∧ t = { s with mem := t.mem, cist := t.cist, regs := t.regs, wire := t.wire, acq := { s.acq with exp := none } } ∧ on t Reg.ACQ_STAT_EXPDONE = true ∧
        SameMemBut (0x20000000 + 256 * b) n s t ∧ (∀ i, i < n → mget t (0x20000000 + 256 * b + i) = mget s (acqAddr (o + i))) ∧
        (∀ i, i < (n + 255) / 256 → flt t (b + i) = 1 ∧ (blk t (b + i)).priv = false) ∧ ∀ c, (c < b ∨ b + (n + 255) / 256 ≤ c) → blk t c = blk s c) ∧
    (∀ (m : Master) (w : W32), CanReach m s Reg.ACQ_RELEASE_RECNO.addr → ∃ u, Written Reg.ACQ_RELEASE_RECNO.addr s u ∧
      ∀ v, v = { u with acq := { s.acq with recs := s.acq.recs.map (fun r => if (w.toNat + 2 ^ 32 - r.no) % 2 ^ 32 < 2 ^ 31 then { r with released := true } else r) } } →
        (acqState s ≠ 5 → exec (.release m w) s = .next v) ∧ (acqState s = 5 → ∃ t, exec (.release m w) s = .next t ∧ reserved v t)) ∧
    ((domOn s dCIST = false ∨ acqState s ≠ 4 ∨ on s Reg.ACQ_CFG_HUNIT = true) → exec .holdoffExpiry s = .next s) ∧
    (domOn s dCIST = true → acqState s = 4 → on s Reg.ACQ_CFG_HUNIT = false → ∃ t, exec .holdoffExpiry s = .next t ∧ reserved s t)

/-- R349 to R358: the transmit side of a CAN controller, and its error states. -/
def Obligations.CanTransmitAndErrors : Prop :=
  ∀ (s : State) (n : Fin 4),
    let isIn := fun (t : State) (b x : Nat) => txState t n b = x ∧ bitOf b (rd t (Reg.CAN_TXPEND_PEND n)) = decide (x = 1 ∨ x = 2)
    let tec := fun (t : State) => rd t (Reg.CAN_STAT_TEC n)
    let est := fun (t : State) => rd t (Reg.CAN_STAT_STATE n)
    let only := fun (t : State) => t = { s with regs := t.regs, cans := t.cans, wire := t.wire } ∧ (∀ j, j ≠ n.val → can t j = can s j) ∧ (can t n).rx = (can s n).rx ∧ (can t n).lock = (can s n).lock
    let ready := fun (b : Nat) => b < 32 ∧ txState s n b = 1 ∧ ¬((can s n).runBuf = b ∧ 8 ≤ (can s n).run)
    ((domOn s dAUX = false ∨ on s (Reg.CAN_CTRL_EN n) = false) → exec (.canSync n) s = .next s) ∧
    (domOn s dAUX = true → on s (Reg.CAN_CTRL_EN n) = true → ∃ t, exec (.canSync n) s = .next t ∧ t = { s with regs := t.regs } ∧ SameRegsBut [(Reg.CAN_STAT_SYNC n).addr] s t ∧ on t (Reg.CAN_STAT_SYNC n) = true ∧ tec t = tec s) ∧
    (∀ (m : Master) (b : Fin 32) (w : W32) (k : Nat), k = (Reg.CAN_TXCTRL_REQ n b).addr → CanReach m s k → ∃ u, Written k s u ∧
      (wbits (Reg.CAN_TXCTRL_REQ n b) w = 0 → exec (.canTxReq m n b w) s = .next u) ∧ (wbits (Reg.CAN_TXCTRL_CANCEL n b) w = 0 → exec (.canCancel m n b w) s = .next u) ∧
      (wbits (Reg.CAN_TXCTRL_REQ n b) w = 1 → ∀ no, no = (on s (Reg.CAN_TXCTRL_MAP n b) || !(txState s n b == 0 || (3 ≤ txState s n b && txState s n b ≤ 6)) || on s (Reg.CAN_CTRL_LISTEN n) || (bitOf 30 (canTx s n b).hdr && bitOf 36 (canTx s n b).hdr)) →
        (no = true → ∃ t, exec (.canTxReq m n b w) s = .next t ∧ RegsWire s t ∧ txState t n b = txState s n b ∧ on t (Reg.HDR_ERRLOG_VALID (0xC0 + n.val)) = true) ∧
        (no = false → ∃ t, exec (.canTxReq m n b w) s = .next t ∧ only t ∧ isIn t b 1 ∧ canTx t n b = { canTx s n b with cancel := false } ∧ ∀ c : Fin 32, c ≠ b → canTx t n c = canTx s n c)) ∧
      (wbits (Reg.CAN_TXCTRL_CANCEL n b) w = 1 →
        (on s (Reg.CAN_TXCTRL_MAP n b) = true → ∃ t, exec (.canCancel m n b w) s = .next t ∧ RegsWire s t ∧ txState t n b = txState s n b ∧ on t (Reg.HDR_ERRLOG_VALID (0xC0 + n.val)) = true) ∧
        (on s (Reg.CAN_TXCTRL_MAP n b) = false → (txState s n b = 1 → ∃ t, exec (.canCancel m n b w) s = .next t ∧ RegsWire s t ∧ isIn t b 4) ∧
          (txState s n b = 2 → ∃ t, exec (.canCancel m n b w) s = .next t ∧ t = { u with cans := t.cans } ∧ canTx t n b = { canTx s n b with cancel := true }) ∧
          (txState s n b ≠ 1 → txState s n b ≠ 2 → exec (.canCancel m n b w) s = .next u))) ∧
      ((wbits (Reg.CAN_TXCTRL_CLR n b) w = 0 ∨ txState s n b ≠ 7) → exec (.canClr m n b w) s = .next u) ∧
      (wbits (Reg.CAN_TXCTRL_CLR n b) w = 1 → txState s n b = 7 → ∃ t, exec (.canClr m n b w) s = .next t ∧ RegsWire s t ∧ isIn t b 0)) ∧
    ((canLive s n = false ∨ role s = rSTANDBY ∨ role s = rDETACHED ∨ on s (Reg.CAN_CTRL_LISTEN n) = true ∨ (txActive s n).isSome = true ∨ 255 < tec s ∨ ∀ b, ¬ready b) → exec (.canTxStart n) s = .next s) ∧
    (canLive s n = true → role s ≠ rSTANDBY → role s ≠ rDETACHED → on s (Reg.CAN_CTRL_LISTEN n) = false → txActive s n = none → tec s ≤ 255 → (∃ b, ready b) → ∃ t b, exec (.canTxStart n) s = .next t ∧ t = { s with regs := t.regs } ∧ ready b ∧ isIn t b 2 ∧
      ∀ c, ready c → arbitration (canTx s n b).hdr < arbitration (canTx s n c).hdr ∨ (arbitration (canTx s n b).hdr = arbitration (canTx s n c).hdr ∧ b ≤ c)) ∧
    (∀ (out : CanEnd) (ts : W64) (frac : BitVec 16), (txActive s n = none → exec (.canTxEnd n out ts frac) s = .next s) ∧
      (∀ b, txActive s n = some b → ∃ t, exec (.canTxEnd n out ts frac) s = .next t ∧ only t ∧ (can t n).runBuf = b ∧
        (can t n).run = (if out = .bitError then (if (can s n).runBuf = b then (can s n).run + 1 else 1) else 0) ∧ (canTx t n b).cancel = false ∧ (canTx t n b).hdr = (canTx s n b).hdr ∧
        (out = .sent → isIn t b (if (canTx s n b).cancel = true then 5 else 3) ∧ (canTx t n b).ts = ts.toNat ∧ (canTx t n b).frac = frac.toNat ∧ tec t = tec s - 1 ∧
          rd t (Reg.CAN_TX_CNT_COUNT n) = (rd s (Reg.CAN_TX_CNT_COUNT n) + 1) % 2 ^ 32) ∧
        (out = .lostArb → isIn t b (if (canTx s n b).cancel = true then 4 else 1) ∧ tec t = tec s) ∧
        (out ≠ .sent → out ≠ .lostArb → isIn t b (if (canTx s n b).cancel = true then 6 else 1) ∧ rd t (Reg.CAN_BUS_ERR_COUNT n) = min 65535 (rd s (Reg.CAN_BUS_ERR_COUNT n) + 1) ∧
          tec t = if out = .error false then tec s else min 511 (tec s + 8)))) ∧
    (∀ b, b = (can s n).runBuf → ((txState s n b ≠ 1 ∨ (can s n).run < 8) → exec (.canIdClash n) s = .next s) ∧
      (b < 32 → 8 ≤ (can s n).run → txState s n b = 1 → ∃ t, exec (.canIdClash n) s = .next t ∧ isIn t b 7 ∧ (can t n).run = 0 ∧
        rd t (Reg.CAN_CLASH_ERR_COUNT n) = min 65535 (rd s (Reg.CAN_CLASH_ERR_COUNT n) + 1) ∧ NewEntry s t 0x4004 4 (n.val + b * 4 + bits 24 0 (canTx s n b).hdr * 2 ^ 7))) ∧
    ((canLive s n = false ∨ tec s ≤ 255) → exec (.canBusoff n) s = .next s) ∧
    (canLive s n = true → 255 < tec s → ∃ t, exec (.canBusoff n) s = .next t ∧ est t = (if on s (Reg.CAN_CTRL_AUTOREC n) = true then 3 else 2) ∧
      rd t (Reg.CAN_BOFF_CNT_COUNT n) = (rd s (Reg.CAN_BOFF_CNT_COUNT n) + 1) % 2 ^ 32 ∧ NewEntry s t 0x4003 4 n.val ∧
      ∀ b, txActive s n = some b → isIn t b (if (canTx s n b).cancel = true then 6 else 1)) ∧
    (∀ (m : Master) (w : W32) (k : Nat), k = (Reg.CAN_CTRL_RECOVER n).addr → CanReach m s k → ∃ u t, Written k s u ∧ exec (.recover m n w) s = .next t ∧ only t ∧
      est t = (if est s = 2 ∧ (wbits (Reg.CAN_CTRL_RECOVER n) w = 1 ∨ on u (Reg.CAN_CTRL_AUTOREC n) = true) then 3 else est s) ∧ on t (Reg.CAN_CTRL_EN n) = on u (Reg.CAN_CTRL_EN n) ∧
      (on s (Reg.CAN_CTRL_EN n) = true → on t (Reg.CAN_CTRL_LISTEN n) = on s (Reg.CAN_CTRL_LISTEN n) ∧
        (on u (Reg.CAN_CTRL_LISTEN n) ≠ on s (Reg.CAN_CTRL_LISTEN n) → on t (Reg.HDR_ERRLOG_VALID (0xC0 + n.val)) = true)) ∧
      (on s (Reg.CAN_CTRL_EN n) = true → on u (Reg.CAN_CTRL_EN n) = false → on t (Reg.CAN_STAT_SYNC n) = false ∧ ∀ b, txActive s n = some b → isIn t b (if (canTx s n b).cancel = true then 6 else 1))) ∧
    ((domOn s dAUX = false ∨ est s ≠ 3) → exec (.canRecoveryComplete n) s = .next s) ∧
    (domOn s dAUX = true → est s = 3 → ∃ t, exec (.canRecoveryComplete n) s = .next t ∧ t = { s with regs := t.regs } ∧ SameRegsBut [(Reg.CAN_STAT_STATE n).addr] s t ∧ est t = 0 ∧ tec t = 0 ∧ rd t (Reg.CAN_STAT_REC n) = 0) ∧
    (∀ by8 : Bool, (canLive s n = false → exec (.canBusError n by8) s = .next s) ∧
      (canLive s n = true → ∃ t, exec (.canBusError n by8) s = .next t ∧ RegsWire s t ∧ rd t (Reg.CAN_BUS_ERR_COUNT n) = min 65535 (rd s (Reg.CAN_BUS_ERR_COUNT n) + 1) ∧ tec t = tec s ∧
        rd t (Reg.CAN_STAT_REC n) = if on s (Reg.CAN_CTRL_LISTEN n) = true then rd s (Reg.CAN_STAT_REC n) else min 255 (rd s (Reg.CAN_STAT_REC n) + (if by8 = true then 8 else 1))))

/-- R355, R356: the receive side of a CAN controller. -/
def Obligations.CanReceive : Prop :=
  ∀ (s : State) (n : Fin 4),
    let full := fun (t : State) (b : Nat) => on t (rxFull n b)
    let released := fun (t : State) (b : Nat) => match (canRx s n b).shad with
      | some f => canRx t n b = { canRx s n b with prim := some f, shad := none } ∧ full t b = true
      | none => canRx t n b = { canRx s n b with prim := none } ∧ full t b = false
    let only := fun (t : State) => t = { s with regs := t.regs, cans := t.cans, wire := t.wire } ∧ (∀ j, j ≠ n.val → can t j = can s j) ∧ (can t n).tx = (can s n).tx
    let others := fun (t : State) (b : Nat) => ∀ c, c < 64 → c ≠ b → canRx t n c = canRx s n c ∧ full t c = full s c
    (∀ f : CanFrame, (canLive s n = false → exec (.canReceive n f) s = .next s) ∧
      (canLive s n = true → ∀ h, h = (if bitOf 29 f.hdr.toNat = true then f.hdr.toNat else f.hdr.toNat / 2 ^ 29 * 2 ^ 29 + f.hdr.toNat % 2 ^ 11) →
        ((∀ b, b < 64 → rxMatches s n h b = false) → ∃ t, exec (.canReceive n f) s = .next t ∧ t.mem = s.mem ∧ t.cans = s.cans ∧ rd t (Reg.CAN_NOMATCH_CNT_COUNT n) = (rd s (Reg.CAN_NOMATCH_CNT_COUNT n) + 1) % 2 ^ 32) ∧
        (∀ b x, b < 64 → rxMatches s n h b = true → (∀ c, c < b → rxMatches s n h c = false) → x = ({ hdr := h, data := f.data.take (dlcLen h), ts := f.ts.toNat, frac := f.frac.toNat } : CanMsg) →
          ∃ t, exec (.canReceive n f) s = .next t ∧ t = { s with regs := t.regs, cans := t.cans, wire := t.wire, freeIdx := t.freeIdx } ∧ others t b ∧ (can t n).lock = (can s n).lock ∧ (can t n).tx = (can s n).tx ∧
            (canRx t n b).newest = some (x, s.sched.cycle) ∧ rd t (Reg.CAN_RX_CNT_COUNT n) = (rd s (Reg.CAN_RX_CNT_COUNT n) + 1) % 2 ^ 32 ∧
            ((can s n).lock = some b → (canRx t n b).shad = some x ∧ (canRx t n b).prim = (canRx s n b).prim ∧ full t b = full s b ∧
              rd t (Reg.CAN_OVR_ERR_COUNT n) = if (canRx s n b).shad.isSome = true then min 65535 (rd s (Reg.CAN_OVR_ERR_COUNT n) + 1) else rd s (Reg.CAN_OVR_ERR_COUNT n)) ∧
            ((can s n).lock ≠ some b → (canRx t n b).prim = some x ∧ (canRx t n b).shad = (canRx s n b).shad ∧ full t b = true ∧
              rd t (Reg.CAN_OVR_ERR_COUNT n) = if (canRx s n b).prim.isSome = true then min 65535 (rd s (Reg.CAN_OVR_ERR_COUNT n) + 1) else rd s (Reg.CAN_OVR_ERR_COUNT n)))) ) ∧
    (∀ (m : Master) (w : W32), CanReach m s (Reg.CAN_BSEL_RX n).addr →
      ∀ new, new = (if bitOf 6 w.toNat = true then some (bits 5 0 w.toNat) else none) → ∃ t, exec (.bsel m n w) s = .next t ∧ only t ∧ (can t n).lock = new ∧
        rd t (Reg.CAN_BSEL_BUF n) = bits 5 0 w.toNat ∧ on t (Reg.CAN_BSEL_RX n) = bitOf 6 w.toNat ∧
        (((can s n).lock = none ∨ (can s n).lock = new) → (can t n).rx = (can s n).rx ∧ ∀ b, b < 64 → full t b = full s b) ∧
        (∀ b, b < 64 → (can s n).lock = some b → new ≠ some b → released t b ∧ others t b)) ∧
    (∀ (m : Master) (w : W32) (b : Nat), CanReach m s (Reg.CAN_RXREL_BUF n).addr → b = bits 5 0 w.toNat → ∃ t, exec (.rxrel m n w) s = .next t ∧ only t ∧ released t b ∧ others t b ∧
      (can t n).lock = if (can s n).lock = some b then none else (can s n).lock)

/-- R364 to R378, R444: power domains, standby and the always-on domain. -/
def Obligations.PowerRequestsAndTransitions : Prop :=
  ∀ s : State,
    (∀ (m : Master) (w : W32) (d v : Nat), CanReach m s Reg.PWR_REQ_DOM.addr → d = bits 3 0 w.toNat → v = (if bits 9 8 w.toNat = 3 then 0 else bits 9 8 w.toNat) →
      let res := fun (t : State) (c : Nat) => bget t m Reg.PWR_RESULT.addr = d * 16 + c
      let refusal := fun (c : Nat) => ∃ t, exec (.pwrReq m w) s = .next t ∧ res t c ∧ t.pwr = s.pwr ∧ NewEntry s t 0x5003 5 (d + c * 16) ∧ on t (Reg.HDR_ERRLOG_VALID 1) = true ∧
        rd t Reg.PWR_REFUSE_ERR_REFUSE_ERR = min 65535 (rd s Reg.PWR_REFUSE_ERR_REFUSE_ERR + 1)
      let may := srcBad m d = false
      (¬may → refusal 5) ∧
      (may → inProgress (dom s d) = some v → ∃ t, exec (.pwrReq m w) s = .next t ∧ res t 2 ∧ t.mem = s.mem ∧ dom t d = { dom s d with pend := none } ∧ ∀ e, e ≠ d → dom t e = dom s e) ∧
      (∀ p, may → inProgress (dom s d) = some p → p ≠ v → ∃ t r, exec (.pwrReq m w) s = .next t ∧ res t 1 ∧ t.mem = s.mem ∧ dom t d = { dom s d with pend := some r } ∧ r.m = m ∧ r.st = v ∧
        bitOf d (rd t Reg.PWR_PEND_DOM) = true ∧ ∀ e, e ≠ d → dom t e = dom s e) ∧
      (may → inProgress (dom s d) = none →
        (settled (dom s d).st = some v → ∃ t, exec (.pwrReq m w) s = .next t ∧ res t 2 ∧ t.pwr = s.pwr ∧ t.mem = s.mem) ∧
        (settled (dom s d).st ≠ some v → (dom s d).st = .off → v = 1 → refusal 4) ∧
        (settled (dom s d).st ≠ some v → ¬((dom s d).st = .off ∧ v = 1) → depOk s d v = false → refusal 3) ∧
        (settled (dom s d).st ≠ some v → ¬((dom s d).st = .off ∧ v = 1) → depOk s d v = true → ∃ t, exec (.pwrReq m w) s = .next t ∧ res t 0 ∧ (∀ e, e ≠ d → dom t e = dom s e) ∧
          (¬(5 ≤ d ∧ d ≤ 8 ∧ domOn s d = true ∧ v < 2) → (dom t d).st = (if v = 2 then (if (dom s d).st = .ret then .waking else .powerUp) else if v = 1 then .toRet else .toOff)) ∧
          (5 ≤ d → d ≤ 8 → domOn s d = true → v < 2 → domOn t d = true ∧ (dom t d).leave = some v ∧ rd t (Reg.CLU_WITHDRAW_ENG (d - 5)) = 0xFFFF)))) ∧
    (∀ d : Fin 16, ((settled (dom s d).st).isSome = true → exec (.powerTransitionComplete d) s = .next (if domOn s d = true ∨ inProgress (dom s d) = some 2 then s else dropStalled s d)) ∧
      ((dom s d).pend = none →
        ((dom s d).st = .toRet → ∃ t, exec (.powerTransitionComplete d) s = .next t ∧ t = { s with pwr := t.pwr, regs := t.regs, wire := t.wire, mfault := t.mfault, resp := t.resp, stalled := t.stalled } ∧
          dom t d = { dom s d with st := .ret } ∧ ((dom s d).leave = none → t.stalled = s.stalled.filter (fun x => x.dom != d.val)) ∧ ∀ e, e ≠ d.val → dom t e = dom s e) ∧
        ((dom s d).st = .toOff → ∃ t, exec (.powerTransitionComplete d) s = .next t ∧ (dom t d).st = .off ∧ (∀ e, e ≠ d.val → dom t e = dom s e) ∧
          (∀ x ∈ domMem d, ∀ a, x.1 ≤ a → a < x.2 → mget t a = memDef a) ∧
          ((dom s d).leave = none → t.stalled = s.stalled.filter (fun x => x.dom != d.val) ∨ d.val = dSTEWARD) ∧
          ∀ k, (blkOf (k / 0x1000)).isSome = true → pageDom (k / 0x1000) = d → (d.val = dHOST → ∀ x ∈ s.stalled, x.dom ≠ d.val) → k ≠ Reg.SUMP_TAIL_WPTR_INDEX.addr → k ≠ 0xB1C00 → rdw t k = (regReset k).toNat) ∧
        (((dom s d).st = .waking ∨ (dom s d).st = .powerUp) → ∃ t, exec (.powerTransitionComplete d) s = .next t ∧ domOn t d = true ∧ (∀ e, e ≠ d.val → dom t e = dom s e) ∧
          rd t Reg.PWR_LASTWAKE_SRC = (dom s d).src % 16 ∧ rd t Reg.PWR_LASTWAKE_DOM = d ∧ on t Reg.PWR_LASTWAKE_ROUNDTRIP = (dom s d).round))) ∧
    (∀ c : Fin 4, (((dom s (dCLU c)).leave = none ∨ domOn s (dCLU c) = false ∨ cluQuiet s c = false) → exec (.clusterOffExecute c) s = .next s) ∧
      (∀ v, (dom s (dCLU c)).leave = some v → v < 2 → domOn s (dCLU c) = true → cluQuiet s c = true → ∃ t, exec (.clusterOffExecute c) s = .next t ∧
        (dom t (dCLU c)).st = (if v = 1 then .toRet else .toOff) ∧ (dom t (dCLU c)).leave = none ∧ (∀ p, p < 4 → well t c p = []) ∧ t.sched.part.getLsbD c = false)) ∧
    (∀ (m : Master) (w : W32), CanReach m s Reg.PWR_CMD_STANDBY.addr → ∃ u, Written Reg.PWR_CMD_STANDBY.addr s u ∧ (bitOf 0 w.toNat = false → exec (.standby m w) s = .next u) ∧
      (bitOf 0 w.toNat = true → ∃ t, exec (.standby m w) s = .next t ∧ t = { u with regs := t.regs, ao := t.ao, standby := t.standby } ∧
        ∀ bad busy, bad = (300 < rd t Reg.AO_BUDGET_MAX ∧ ¬(on s Reg.AO_REG_STBY_FULL = true ∧ on s Reg.AO_REG_VAUX_OK = true)) →
          busy = (s.standby ≠ .none ∨ s.tests.any (fun r => r.running) = true ∨ (s.boot.running = true ∧ on s Reg.BOOT_STAT_DONE = false)) →
          (bad → rd t Reg.PWR_CMD_RESULT = 1) ∧ (¬bad → role s = rACTIVE → rd t Reg.PWR_CMD_RESULT = 2) ∧ (¬bad → role s ≠ rACTIVE → busy → rd t Reg.PWR_CMD_RESULT = 3) ∧
          ((bad ∨ role s = rACTIVE ∨ busy) → t.standby = s.standby) ∧
          (¬bad → role s ≠ rACTIVE → ¬busy → rd t Reg.PWR_CMD_RESULT = 0 ∧ t.standby = .entering ∧
            (domOn s dNET = true → rd t Reg.AO_RTC_SEC_LO_SEC = s.time.ns / 10 ^ 9 % 2 ^ 32 ∧ rd t Reg.AO_RTC_SUB_SUB = s.time.ns % 10 ^ 9 * 32768 / 10 ^ 9)))) ∧
    (s.standby ≠ .entering → exec .standbyEntryComplete s = .next s) ∧
    (s.standby = .entering → ∃ t, exec .standbyEntryComplete s = .next t ∧ (∀ d, d ≠ 0 → d < 16 → (dom t d).st = .off) ∧ t.ao.pwrEn = false ∧ Out.pwrEn false ∈ t.wire ∧
      t.standby = if s.ao.wake.isSome = true then .pwrHeld else .asleep) ∧
    (s.standby ≠ .pwrHeld → exec .pwrEnRaise s = .next s) ∧
    (s.standby = .pwrHeld → exec .pwrEnRaise s = .next { s with standby := .none, ao := { s.ao with pwrEn := true }, wire := s.wire ++ [.pwrEn true] }) ∧
    (∀ (src : WakeSrc) (code : Nat) (armed : Bool), (code, armed) = (match src with | .alarm => (5, on s Reg.AO_WAKEEN_ALARM) | .fieldReturn => (6, on s Reg.AO_WAKEEN_CMP4 && on s Reg.AO_CMP4_EN) | .wakeInput => (7, on s Reg.AO_WAKEEN_CMP5 && on s Reg.AO_CMP5_EN) | .trackError _ => (8, on s Reg.AO_WAKEEN_TRKERR)) →
      ((armed = false ∨ s.standby = .none ∨ s.standby = .pwrHeld ∨ (s.standby = .entering ∧ s.ao.wake.isSome = true)) → exec (.aoWakeEvent src) s = .next s) ∧
      (armed = true → s.standby = .asleep → exec (.aoWakeEvent src) s = .next { s with standby := .none, ao := { s.ao with wake := some (code, false), pwrEn := true }, wire := s.wire ++ [.pwrEn true] }) ∧
      (armed = true → s.standby = .entering → s.ao.wake = none → exec (.aoWakeEvent src) s = .next { s with ao := { s.ao with wake := some (code, true) } })) ∧
    (∃ t v, exec .vauxLoss s = .next t ∧ exec .vauxValid s = .next v ∧ t = { s with regs := t.regs } ∧ v = { s with regs := v.regs } ∧ SameRegsBut [Reg.AO_REG_FULL.addr] s t ∧ SameRegsBut [Reg.AO_REG_FULL.addr] s v ∧
      on t Reg.AO_REG_VAUX_OK = false ∧ on t Reg.AO_REG_FULL = false ∧ on v Reg.AO_REG_VAUX_OK = true ∧ on v Reg.AO_REG_FULL = ((domOn s dSTEWARD && domOn s dAO) || on s Reg.AO_REG_STBY_FULL)) ∧
    (∃ t, exec .aoBrownOut s = .next t ∧ t.ao = {} ∧ t.wire = s.wire ++ [.pwrEn false] ∧ t.pwr = s.pwr ∧ on t Reg.AO_REG_VAUX_OK = on s Reg.AO_REG_VAUX_OK ∧
      (∀ a, 0x10000000 ≤ a → a < 0x10001000 → mget t a = 0) ∧ SameMemBut 0x10000000 0x1000 s t ∧ (∀ k, k / 0x1000 = 2 → k ≠ Reg.AO_REG_FULL.addr → rdw t k = (regReset k).toNat) ∧ ∀ k, k / 0x1000 ≠ 2 → rdw t k = rdw s k) ∧
    (∀ pll : Pll, (pllServes s pll = false → exec (.pllLockLoss pll) s = .next s) ∧
      (pllServes s pll = true → ∃ t, exec (.pllLockLoss pll) s = .next t ∧ Logged (selfFault s .pll) { t with freeIdx := (selfFault s .pll).freeIdx } ∧
        (domOn s dSTEWARD = true → rd t Reg.SUMP_WPTR_INDEX = (rd (selfFault s .pll) Reg.SUMP_WPTR_INDEX + 1) % 2 ^ 12)))

/-- R380 to R384: surge, the core voltage and the plan. -/
def Obligations.SurgeVoltageAndPlan : Prop :=
  ∀ s : State,
    let running := on s Reg.AGE_SURGE_PEND = true ∨ (on s Reg.AGE_SURGE_GRANTED = true ∧ s.surge.fallAt = false)
    let idle := on s Reg.AGE_SURGE_PEND = false ∧ on s Reg.AGE_SURGE_GRANTED = false ∧ s.surge.fallAt = false
    let bars := fun (u : State) (c : Nat) => (c = 1 ∧ 1080 < sgn 16 (rd u Reg.AGE_HOTSPOT_TEMP)) ∨ (c = 2 ∧ rd u Reg.AGE_IMAX_LIMIT * 8 < rd u Reg.AGE_IOUT_CURRENT * 10) ∨
      (c = 3 ∧ rd u Reg.AGE_SURGE_H_LEFT = 0) ∨ (c = 4 ∧ u.surge.coolMs ≠ 0) ∨ (c = 5 ∧ (on u Reg.AGE_PLAN_SURGE_OK = false ∨ on u Reg.AGE_PLAN_CONS = true))
    let granted := fun (t : State) => on t Reg.AGE_SURGE_PEND = true ∧ on t Reg.AGE_SURGE_GRANTED = false ∧ t.surge.pll = true ∧ t.surge.target = 850 ∧ (inService s = true → rd t Reg.CYC_CAP_NE_F = 1000)
    let counted := fun (t : State) (c : Nat) => rd t Reg.AGE_SURGE_CAUSE = c ∧ rd t Reg.AGE_REFUSE_CNT_COUNT = (rd s Reg.AGE_REFUSE_CNT_COUNT + 1) % 2 ^ 32
    let entry := fun (t : State) (code detail : Nat) => domOn s dSTEWARD = true → mnum t (0x10010000 + 16 * rd s Reg.SUMP_WPTR_INDEX + 8) 4 % 2 ^ 16 = code ∧ mnum t (0x10010000 + 16 * rd s Reg.SUMP_WPTR_INDEX + 12) 4 = detail % 2 ^ 32
    let ended := fun (t : State) (c : Nat) => counted t c ∧ (inService s = true → rd t Reg.CYC_CAP_NE_F = 800) ∧
      (on s Reg.AGE_SURGE_PEND = true → on t Reg.AGE_SURGE_PEND = false ∧ t.surge.pll = false ∧ t.surge.target = rd s Reg.AGE_PLAN_VNOM) ∧
      (on s Reg.AGE_SURGE_PEND = false → t.surge.fallAt = true ∧ t.surge.fallNs = s.time.ns ∧ on t Reg.AGE_SURGE_GRANTED = true)
    (∀ (m : Master) (w : W32), CanReach m s Reg.AGE_SURGE.addr → ∃ u, Written Reg.AGE_SURGE.addr s u ∧
      (bitOf 0 w.toNat = on s Reg.AGE_SURGE_REQ → ∃ t, exec (.surgeReq m w) s = .next t ∧ RegsWire s t ∧ on t Reg.AGE_SURGE_REQ = on s Reg.AGE_SURGE_REQ ∧ on t Reg.AGE_SURGE_PEND = on s Reg.AGE_SURGE_PEND) ∧
      (bitOf 0 w.toNat = true → on s Reg.AGE_SURGE_REQ = false → ∃ t, exec (.surgeReq m w) s = .next t ∧ on t Reg.AGE_SURGE_REQ = true ∧ (¬idle → RegsWire s t ∧ on t Reg.AGE_SURGE_PEND = on s Reg.AGE_SURGE_PEND) ∧
        (idle → ((∀ c, ¬bars s c) → granted t) ∧ ((∃ c, bars s c) → Logged s t ∧ on t Reg.AGE_SURGE_PEND = false ∧ (inService s = true → rd t Reg.CYC_CAP_NE_F = leMHz s) ∧ ∃ c, bars s c ∧ counted t c))) ∧
      (bitOf 0 w.toNat = false → on s Reg.AGE_SURGE_REQ = true → ∃ t, exec (.surgeReq m w) s = .next t ∧ on t Reg.AGE_SURGE_REQ = false ∧ (¬running → RegsWire s t) ∧ (running → ended t 7 ∧ entry t 0x5006 7))) ∧
    ((on s Reg.AGE_SURGE_PEND = false ∨ s.surge.vdd ≠ s.surge.target) → exec .surgeVoltageReached s = .next s) ∧
    (on s Reg.AGE_SURGE_PEND = true → s.surge.vdd = s.surge.target → exec .surgeVoltageReached s = .next { s with surge := { s.surge with riseAt := true } }) ∧
    (∀ hot current : BitVec 16, (domOn s dSTEWARD = false → exec (.surgeSample hot current) s = .next s) ∧
      (domOn s dSTEWARD = true → ∀ iout cool, iout = (if on s Reg.AGE_IMAX_EST = true ∨ on s Reg.AGE_PMB_VID = true then current.toNat else rd s Reg.AGE_IOUT_CURRENT) → cool = s.surge.coolMs - 1 →
        ∃ t, exec (.surgeSample hot current) s = .next t ∧ rd t Reg.AGE_HOTSPOT_TEMP = hot.toNat ∧ rd t Reg.AGE_IOUT_CURRENT = iout ∧
          sgn 16 (rd t Reg.AGE_HOTSPOT_PEAK) = max (sgn 16 (rd s Reg.AGE_HOTSPOT_PEAK)) hot.toInt ∧
          (running → hot.toInt < 1120 → iout < rd s Reg.AGE_IMAX_LIMIT → rd s Reg.AGE_SURGE_H_LEFT ≠ 0 → RegsWire { s with surge := { s.surge with coolMs := cool } } t ∧ on t Reg.AGE_SURGE_PEND = on s Reg.AGE_SURGE_PEND ∧
            on t Reg.AGE_SURGE_GRANTED = on s Reg.AGE_SURGE_GRANTED) ∧
          (running → 1120 ≤ hot.toInt → ended t 1 ∧ entry t 0x5006 1 ∧ t.surge.coolMs = 1000 * rd s Reg.AGE_SURGE_COOL_S) ∧
          (running → hot.toInt < 1120 → rd s Reg.AGE_IMAX_LIMIT ≤ iout → ended t 2 ∧ entry t 0x5006 2 ∧ t.surge.coolMs = cool) ∧
          (running → hot.toInt < 1120 → iout < rd s Reg.AGE_IMAX_LIMIT → rd s Reg.AGE_SURGE_H_LEFT = 0 → ended t 3 ∧ entry t 0x5006 3) ∧
          (idle → on s Reg.AGE_SURGE_REQ = true → on s Reg.AGE_PLAN_SURGE_OK = true → on s Reg.AGE_PLAN_CONS = false → hot.toInt ≤ 1080 → cool = 0 → iout * 10 ≤ rd s Reg.AGE_IMAX_LIMIT * 8 →
            rd s Reg.AGE_SURGE_H_LEFT ≠ 0 → granted t))) ∧
    (on s Reg.AGE_SURGE_PEND = false → on s Reg.AGE_SURGE_GRANTED = false → exec .surgeHour s = .next s) ∧
    ((on s Reg.AGE_SURGE_PEND = true ∨ on s Reg.AGE_SURGE_GRANTED = true) → ∃ t, exec .surgeHour s = .next t ∧ t = { s with regs := t.regs, surge := { s.surge with usedH := s.surge.usedH + 1 }, wire := s.wire ++ [.fuseBlown 0 (s.surge.usedH + 1)] } ∧
      SameRegsBut [Reg.AGE_SURGE_H_LEFT.addr] s t ∧ rd t Reg.AGE_SURGE_H_LEFT = rd s Reg.AGE_SURGE_H_LEFT - 1 ∧ rd t Reg.AGE_SURGE_H_USED = (s.surge.usedH + 1) % 2 ^ 16) ∧
    (∀ vout : Option Nat, (s.surge.vdd = s.surge.target → exec (.voltageStep vout) s = .next s) ∧
      (s.surge.vdd ≠ s.surge.target → ∀ v o, v = (if s.surge.vdd ≤ s.surge.target then min s.surge.target (s.surge.vdd + 10) else max s.surge.target (s.surge.vdd - 10)) →
        o = (if on s Reg.AGE_PMB_VID = true then Out.vid ((v - 700) / 5) else Out.pmbusVout v) →
        (∀ r, vout = some r → r ≤ v + 15 → v ≤ r + 15 → exec (.voltageStep vout) s = .next { s with surge := { s.surge with pmbFails := 0, vdd := v }, wire := s.wire ++ [o] }) ∧
        (vout = none → s.surge.pmbFails < 2 → exec (.voltageStep vout) s = .next { s with surge := { s.surge with pmbFails := s.surge.pmbFails + 1 }, wire := s.wire ++ [o] }) ∧
        (((vout = none ∧ 2 ≤ s.surge.pmbFails) ∨ ∃ r, vout = some r ∧ (v + 15 < r ∨ r + 15 < v)) → ∃ t, exec (.voltageStep vout) s = .next t ∧ t.surge.vdd = s.surge.vdd ∧ t.surge.pmbFails = 0 ∧
          rd t Reg.AGE_PMB_ERR_PMB_ERR = min 65535 (rd s Reg.AGE_PMB_ERR_PMB_ERR + 1) ∧ entry t 0x5007 s.surge.status ∧ (running → ended t 6) ∧ (¬running → t.surge.target = s.surge.vdd)))) ∧
    (∀ current : Option (BitVec 16), ((on s Reg.AGE_IMAX_EST = true ∨ on s Reg.AGE_PMB_VID = true ∨ domOn s dSTEWARD = false) → exec (.readIout current) s = .next s) ∧
      (on s Reg.AGE_IMAX_EST = false → on s Reg.AGE_PMB_VID = false → domOn s dSTEWARD = true →
        (∀ c, current = some c → ∃ t, exec (.readIout current) s = .next t ∧ t = { s with regs := t.regs, surge := { s.surge with ioutFails := 0 } } ∧ SameRegsBut [Reg.AGE_IOUT_CURRENT.addr] s t ∧ rd t Reg.AGE_IOUT_CURRENT = c.toNat) ∧
        (current = none → s.surge.ioutFails < 2 → exec (.readIout current) s = .next { s with surge := { s.surge with ioutFails := s.surge.ioutFails + 1 } }) ∧
        (current = none → 2 ≤ s.surge.ioutFails → ∃ t, exec (.readIout current) s = .next t ∧ rd t Reg.AGE_PMB_ERR_PMB_ERR = min 65535 (rd s Reg.AGE_PMB_ERR_PMB_ERR + 1) ∧ entry t 0x5007 s.surge.status ∧ (running → ended t 6)))) ∧
    (∀ status : BitVec 16, exec (.pmbAlert status) s = .next { s with surge := { s.surge with status := status.toNat }, wire := s.wire ++ [.pmbusReadStatus] }) ∧
    (∀ (src : ReplanSrc) (k : Nat), k = Reg.AGE_REPLAN.addr → (∀ m w, src = .write m w → CanReach m s k) → (src = .timer → domOn s dSTEWARD = true) →
      ∃ u, (src = .timer → u = s) ∧ Written k s u ∧ ((∃ m w, src = .write m w ∧ bitOf 0 w.toNat = false) → exec (.replan src) s = .next u) ∧
        ((∀ m w, src = .write m w → bitOf 0 w.toNat = true) → (on s Reg.AGE_REPLAN_BUSY = true → exec (.replan src) s = .next u) ∧
          (on s Reg.AGE_REPLAN_BUSY = false → 16 ≤ s.tests.length → ∃ t, exec (.replan src) s = .next t ∧ t = { u with regs := t.regs } ∧ rd t Reg.AGE_REPLAN_RESULT = 1) ∧
          (on s Reg.AGE_REPLAN_BUSY = false → s.tests.length < 16 → ∃ t, exec (.replan src) s = .next t ∧ on t Reg.AGE_REPLAN_BUSY = true ∧
            t = { u with regs := t.regs, tests := s.tests ++ [{ kind := .replan, tag := 0, index := 0, wasWithdrawn := false, running := false }] }))) ∧
    (domOn s dSTEWARD = false → exec (.replan .timer) s = .next s) ∧
    (∀ plan : Option PlanMeas, (s.tests.any (fun r => r.kind == .replan && r.running) = false → exec (.replanComplete plan) s = .next s) ∧
      (s.tests.any (fun r => r.kind == .replan && r.running) = true → ∃ t, exec (.replanComplete plan) s = .next t ∧ t.tests = s.tests.filter (fun r => r.kind != .replan) ∧ on t Reg.AGE_REPLAN_BUSY = false ∧
        (plan = none → rd t Reg.AGE_REPLAN_RESULT = 2 ∧ rd t Reg.AGE_PLAN_VNOM = rd s Reg.AGE_PLAN_VNOM ∧ t.boot.plan = s.boot.plan ∧ (domOn s dSTEWARD = true → rd t Reg.SUMP_WPTR_INDEX = (rd s Reg.SUMP_WPTR_INDEX + 1) % 2 ^ 12)) ∧
        (∀ p, plan = some p → rd t Reg.AGE_REPLAN_RESULT = 0 ∧ rd t Reg.AGE_PLAN_VNOM = min 880 (max 720 ((p.vpass + 25 + 4) / 5 * 5)) ∧ rd t Reg.AGE_FMAX_CLU = p.fmax.toNat ∧
          on t Reg.AGE_PLAN_SURGE_OK = (p.surgePass && !on s Reg.AGE_PLAN_CONS) ∧ rd t Reg.AGE_SURGE_H_LEFT = min (8760 - s.surge.usedH) p.ageHours ∧ t.boot.plan = some p)))

/-- R387 to R396: reset and boot. -/
def Obligations.ResetBootAndFirmware : Prop :=
  ∀ s : State,
    let now := fun (u : State) (k : Nat) => fails (stepW u k) + (if bits 1 0 (stepW u k) = 1 then 1 else 0)
    let clean := bits 23 16 (jget s 0) ≠ 1 ∨ ∀ k, 1 ≤ k → k ≤ 10 → now s k < 3
    let begun := fun (t : State) => t.boot.running = true ∧ t.boot.waitImg = false ∧ rd t Reg.BOOT_STAT_STEP = 1 ∧ bits 1 0 (stepW t 1) = 1 ∧ domOn t dSTEWARD = true
    let halted := fun (t : State) (n : Nat) => t.boot.running = false ∧ on t Reg.BOOT_STAT_HALTED = true ∧ rd t Reg.BOOT_STAT_FAILSTEP = n ∧ on t Reg.BOOT_STAT_DBG_OPEN = true
    let starts := fun (t : State) => (clean → begun t) ∧ ∀ n, bits 23 16 (jget s 0) = 1 → 1 ≤ n → n ≤ 10 → 3 ≤ now s n → (∀ k, 1 ≤ k → k < n → now s k < 3) → halted t n
    let failed := fun (t : State) (n : Nat) => (2 ≤ fails (stepW s n) → halted t n) ∧
      (fails (stepW s n) < 2 → bits 23 16 (jget s 0) = 1 → (∀ k, 1 ≤ k → k ≤ 10 → k ≠ n → now s k < 3) → begun t ∧ fails (stepW t n) = fails (stepW s n) + 1 ∧ rd t Reg.SYS_RSTCAUSE_CAUSE = 3)
    (∃ t, exec .aoPowerOn s = .next t ∧ t.pending = s.pending ∧ t.mem = [] ∧ t.pwr = [] ∧ t.wire = s.wire ∧ t.surge.usedH = s.surge.usedH ∧ t.boot.rollback = s.boot.rollback ∧ t.boot.first = s.boot.first ∧
      t.boot.flashA = s.boot.flashA ∧ t.boot.flashB = s.boot.flashB ∧ t.boot.unlocked = false ∧ t.standby = .none ∧ on t Reg.AO_REG_VAUX_OK = on s Reg.AO_REG_VAUX_OK ∧ on t Reg.FIO_WD_TRIPPED = true ∧
      ∀ k, k ≠ Reg.AO_REG_VAUX_OK.addr → k ≠ Reg.FIO_WD_TRIPPED.addr → rdw t k = (regReset k).toNat) ∧
    (∀ src late : Bool, ((domOn s dSTEWARD = true ∨ s.standby ≠ .none) → exec (.resetRelease src late) s = .next s) ∧
      (domOn s dSTEWARD = false → s.standby = .none → ∃ t, exec (.resetRelease src late) s = .next t ∧ starts t ∧ t.boot.host = src ∧ t.field.held = true ∧ rd t Reg.SYS_RSTCAUSE_CAUSE = s.boot.cause % 8)) ∧
    (∃ t, exec .supplyFail s = .next t ∧ (∀ d ∈ mainOrder, (dom t d).st = .off) ∧ t.boot.running = false ∧ t.field.held = true ∧ on t Reg.FIO_WD_TRIPPED = on s Reg.FIO_WD_TRIPPED) ∧
    (∀ cause : WarmCause, (domOn s dSTEWARD = false → exec (.warmReset cause) s = .next s) ∧
      (domOn s dSTEWARD = true → ∃ t, exec (.warmReset cause) s = .next t ∧ starts t ∧ t.field.held = true ∧
        (cause ≠ .supply → rd t Reg.SYS_RSTCAUSE_CAUSE = (match cause with | .bootStep => 3 | .softReset => 4 | .reboot => 5 | .diagPort => 6 | .supply => 0) ∧ (domOn s dFIELD = true → on t Reg.FIO_WD_TRIPPED = true)))) ∧
    (∀ (f : BootFind) (n : Nat) (l : List Byte), n = rd s Reg.BOOT_STAT_STEP → l = (if s.boot.host = true then hostImage s s.boot.hostBlk else f.image) →
      ((s.boot.running = false ∨ n = 0 ∨ 12 < n ∨ s.boot.waitImg = true) → exec (.bootStepDone f) s = .next s) ∧
      (s.boot.running = true → s.boot.waitImg = false → 1 ≤ n → n ≤ 12 → (n = 7 → imageCheck s l = 0) → ∃ t, exec (.bootStepDone f) s = .next t ∧ stepW t n % 16 = 2 ∧
        (n < 12 → t.boot.running = true ∧ rd t Reg.BOOT_STAT_STEP = n + 1 ∧ bits 1 0 (stepW t (n + 1)) = 1) ∧ (n = 12 → t.boot.running = false) ∧
        (n = 3 → domOn t dHOST = true) ∧ (n = 4 → ∀ d ∈ [dCIST, 5, 6, 7, 8, dNET, dSDSW, dSDSE, dLINK, dAUX], domOn t d = true) ∧ (n = 7 → t.boot.version = num l 12 4) ∧ (n = 8 → domOn t dSAFEA = true) ∧
        (n = 9 → domOn t dFIELD = true ∧ domOn t dSAFEB = true ∧ t.field.held = false) ∧ (n = 10 → on t Reg.BOOT_STAT_DONE = true)) ∧
      (s.boot.running = true → s.boot.waitImg = false → n = 7 → imageCheck s l ≠ 0 → ∃ t, exec (.bootStepDone f) s = .next t ∧ failed t 7)) ∧
    (∀ (detail : BitVec 8) (n : Nat), n = rd s Reg.BOOT_STAT_STEP → ((s.boot.running = false ∨ n = 0 ∨ 10 < n) → exec (.bootStepFail detail) s = .next s) ∧
      (s.boot.running = true → 1 ≤ n → n ≤ 10 → ∃ t, exec (.bootStepFail detail) s = .next t ∧ failed t n)) ∧
    (∀ (m : Master) (w : W32), CanReach m s Reg.BOOT_HOSTIMG_BLOCK.addr → ∃ u, Written Reg.BOOT_HOSTIMG_BLOCK.addr s u ∧ (s.boot.waitImg = false → exec (.hostimg m w) s = .next u) ∧
      (s.boot.waitImg = true → exec (.hostimg m w) s = .next { u with boot := { s.boot with waitImg := false, hostBlk := bits 14 0 w.toNat } })) ∧
    (∀ (m : Master) (w : W32), CanReach m s Reg.BOOT_CMD_OP.addr → ∃ u, Written Reg.BOOT_CMD_OP.addr s u ∧
      let res := fun (t : State) => rd t Reg.BOOT_CMD_RESULT
      let op := bits 22 20 w.toNat
      let only := fun (t : State) => SameRegsBut [Reg.BOOT_CMD_RESULT.addr] u t
      (op ≠ 1 → exec (.clearJournal m w) s = .next u) ∧ (op ≠ 2 → exec (.reboot m w) s = .next u) ∧ (∀ b, op ≠ 3 → exec (.stage m w b) s = .next u) ∧ (op ≠ 4 → exec (.select m w) s = .next u) ∧
      (op ≠ 5 → exec (.commitVer m w) s = .next u) ∧
      (op = 1 → ∃ t, exec (.clearJournal m w) s = .next t ∧ t = { u with mem := t.mem, regs := t.regs } ∧ only t ∧ res t = 0 ∧ jget t 0 = 2 ^ 16 ∧ (∀ o, 4 ≤ o → o < 0x50 → mget t (0x10000000 + o) = 0) ∧ SameMemBut 0x10000000 0x50 s t) ∧
      (op = 2 → ∃ t, exec (.reboot m w) s = .next t ∧ exec (.warmReset .reboot) u = .next t) ∧
      (op = 3 → ∀ (ok : Bool) (l : List Byte), l = hostImage s (bits 14 0 w.toNat) → ∃ t, exec (.stage m w ok) s = .next t ∧ t = { u with regs := t.regs, boot := t.boot, wire := t.wire } ∧ only t ∧
        (l = [] → res t = 4 ∧ t.boot = s.boot) ∧ (l ≠ [] → imageCheck s l ≠ 0 → res t = imageCheck s l ∧ t.boot = s.boot) ∧ (l ≠ [] → imageCheck s l = 0 → ok = false → res t = 3 ∧ t.boot = s.boot) ∧
        (l ≠ [] → imageCheck s l = 0 → ok = true → res t = 0 ∧ t.boot = (if rd s Reg.BOOT_STAT_IMAGE = 0 then { s.boot with flashB := l } else { s.boot with flashA := l }) ∧
          t.wire = u.wire ++ [.flashWrite (b2n (decide (rd s Reg.BOOT_STAT_IMAGE = 0))) l])) ∧
      (op = 4 → ∃ t, exec (.select m w) s = .next t ∧ t = { u with regs := t.regs, boot := { s.boot with first := bits 19 19 w.toNat } } ∧ only t ∧ res t = 0) ∧
      (op = 5 → (on s Reg.BOOT_STAT_DONE = false → ∃ t, exec (.commitVer m w) s = .next t ∧ t = { u with regs := t.regs } ∧ only t ∧ res t = 4) ∧
        (on s Reg.BOOT_STAT_DONE = true → ∀ v, v = max (rd s Reg.SEC_ROLLBACK_VERSION) s.boot.version → ∃ t, exec (.commitVer m w) s = .next t ∧ t.boot = { s.boot with rollback := v } ∧
          rd t Reg.SEC_ROLLBACK_VERSION = v % 2 ^ 32 ∧ t.wire = u.wire ++ [.fuseBlown 1 v] ∧ res t = 0))) ∧
    (∀ (key sig : List Byte) (ok : Bool), ok = (domOn s dSTEWARD && on s Reg.SEC_DBG_LOCK && (Config.sha256 key == (List.range 8).flatMap (fun w => leBytes 4 (rd s (Reg.SEC_DBGKEY_HASH w))) &&
        Config.ecdsaOk key (Config.sha256 (leBytes 4 s.boot.chal)) sig)) →
      (ok = false → exec (.debugUnlock key sig) s = .next s) ∧
      (ok = true → ∃ t, exec (.debugUnlock key sig) s = .next t ∧ t.boot = { s.boot with unlocked := true } ∧ on t Reg.BOOT_STAT_DBG_OPEN = true ∧ (chan t false).sto = 15#4))

/-- R397 to R404: the test queue. -/
def Obligations.TestRequestsAndOutcomes : Prop :=
  ∀ s : State,
    let last := fun (t : State) (r : TestReq) (st : Nat) => rd t Reg.TEST_LAST_KIND = r.kind.code ∧ rd t Reg.TEST_LAST_TAG = r.tag % 2 ^ 8 ∧ rd t Reg.TEST_LAST_STATUS = st
    let level := fun (t : State) => rd t Reg.TEST_QUEUE_RUNNING = (t.tests.filter (fun r => r.running)).length % 32 ∧ rd t Reg.TEST_QUEUE_LEVEL = (t.tests.filter (fun r => !r.running)).length % 32
    (∀ x ∈ [(TestKind.engine, Instr.testEngine), (.cistbank, .testCistbank), (.scrub, .testScrub), (.eyescan, .testEyescan), (.sdscal, .testSdscal), (.portloop, .testPortloop), (.can, .testCan), (.encoder, .testEncoder), (.offline, .testOffline)],
      ∀ (m : Master) (w : W32), CanReach m s Reg.TEST_REQ.addr → ∃ u, Written Reg.TEST_REQ.addr s u ∧
        (bits 31 28 w.toNat ≠ x.1.code → exec (x.2 m w) s = .next u) ∧
        (bits 31 28 w.toNat = x.1.code → indexEnd x.1 ≤ bits 6 0 w.toNat → ∃ t, exec (x.2 m w) s = .next t ∧ RegsWire s t ∧ t.tests = s.tests ∧ on t (Reg.HDR_ERRLOG_VALID 0xD1) = true) ∧
        (bits 31 28 w.toNat = x.1.code → bits 6 0 w.toNat < indexEnd x.1 →
          ∀ (i : Nat) (r : TestReq), i = bits 6 0 w.toNat → r = { kind := x.1, tag := bits 27 20 w.toNat, index := i, wasWithdrawn := false, running := false } →
            ∃ t, exec (x.2 m w) s = .next t ∧ (16 ≤ s.tests.length → RegsWire s t ∧ last t r 6) ∧
              (s.tests.length < 16 → x.1 = .engine → (overCapacity s i = true → RegsWire s t ∧ last t r 3) ∧
                (overCapacity s i = false → level t ∧ (domOn s (dCLU (i / 16)) = true → withdrawn t i = true) ∧ ∃ b, t.tests = s.tests ++ [{ r with wasWithdrawn := b }] ∧ ((∀ q ∈ s.tests, q.kind = .engine → q.index ≠ i) → b = withdrawn s i))) ∧
              (s.tests.length < 16 → x.1 = .offline → role s ≠ rTESTING → (s.lemac.launching = true ∨ rd s Reg.LEMAC_PSTATE_STATE = 3 ∨ s.lemac.recent ≠ 0) → RegsWire s t ∧ last t r 4) ∧
              (s.tests.length < 16 → x.1 ≠ .engine → (x.1 = .offline → role s = rTESTING ∨ (s.lemac.launching = false ∧ rd s Reg.LEMAC_PSTATE_STATE ≠ 3 ∧ s.lemac.recent = 0)) →
                t = { u with regs := t.regs, tests := s.tests ++ [r] } ∧ level t))) ∧
    (∀ i : Nat, (s.tests[i]? = none → exec (.testStart i) s = .next s ∧ exec (.testTimeout i) s = .next s ∧ ∀ p g, exec (.testComplete i p g) s = .next s) ∧
      ∀ r, s.tests[i]? = some r →
        ((r.running = true ∨ quiet s r = false ∨ ∃ j q, j < i ∧ s.tests[j]? = some q ∧ resource q = resource r) → exec (.testStart i) s = .next s) ∧
        (r.running = false → quiet s r = true → (∀ j q, j < i → s.tests[j]? = some q → resource q ≠ resource r) → ∃ t, exec (.testStart i) s = .next t ∧ t = { s with regs := t.regs, engs := t.engs, cist := t.cist, tests := s.tests.set i { r with running := true } } ∧
          level t ∧ (r.kind = .engine → (eng t r.index).ph = .test ∧ ∀ e, e ≠ r.index → eng t e = eng s e) ∧ (r.kind ≠ .engine → t.engs = s.engs) ∧
          (r.kind = .cistbank → ∀ b, b < 256 → flt t (256 * r.index + b) = 2) ∧ (r.kind ≠ .cistbank → t.cist = s.cist)) ∧
        (∀ (p : Bool) (g : BitVec 16), ((r.running = false ∨ r.kind = .replan) → exec (.testComplete i p g) s = .next s) ∧
          (r.running = true → r.kind ≠ .replan → ∃ t, exec (.testComplete i p g) s = .next t ∧
            (p = true → t.tests = s.tests.eraseIdx i ∧ last t r 0 ∧ level t ∧ rd t Reg.TEST_PASS_CNT_COUNT = (rd s Reg.TEST_PASS_CNT_COUNT + 1) % 2 ^ 32 ∧
              (r.kind = .engine → (eng s r.index).ph = .test → (eng t r.index).ph = .idle) ∧ (r.kind = .cistbank → ∀ b, b < 256 → flt t (256 * r.index + b) = 0)) ∧
            (p = false → rd t Reg.TEST_FAIL_CNT_COUNT = (rd s Reg.TEST_FAIL_CNT_COUNT + 1) % 2 ^ 32) ∧
            (p = false → role s = rALONE → r.kind ≠ .offline → t.tests = s.tests.eraseIdx i ∧ last t r 1 ∧ (r.kind = .engine → (eng t r.index).ph = .idle ∧ withdrawn t r.index = withdrawn s r.index) ∧
              (r.kind = .cistbank → ∀ b, b < 256 → (blk t (256 * r.index + b)).excl = true)))) ∧
        (r.running = true → exec (.testTimeout i) s = .next s) ∧
        (r.running = false → ∃ t, exec (.testTimeout i) s = .next t ∧ rd t Reg.TEST_NOTQ_ERR_COUNT = min 65535 (rd s Reg.TEST_NOTQ_ERR_COUNT + 1) ∧ level t ∧
          (r.kind ≠ .replan → t.tests = s.tests.eraseIdx i ∧ last t r 2) ∧ (r.kind = .replan → rd t Reg.AGE_REPLAN_RESULT = 1 ∧ on t Reg.AGE_REPLAN_BUSY = false ∧ t.tests = (s.tests.eraseIdx i).filter (fun q => q.kind != .replan))))

/-- R7, R8: the two protected segments of the point store. -/
def Obligations.ProtectedPointSegments : Prop :=
  ∀ (s : State) (p : Nat) (a : W32), p < 2 ^ 20 → a.toNat = 0x30000000 + 8 * p → domOn s dNET = true →
    let points := fun (t : State) => ∀ c, 0x30000000 ≤ c → c < 0x30C00000 → mget t c = mget s c
    (p / 2 ^ 15 = 28 →
      (∀ l : List Byte, l.length = 8 → ∃ t, exec (.internalAccess .safetyProc a (.write l)) s = .next t ∧ t = { s with mem := t.mem } ∧ SamePtsBut [p] s t ∧ PointIs t p (leNat l) false) ∧
      (∀ (m : Master) (n : Nat), n ≤ 8 → canReach m .points = true → exec (.internalAccess m a (.read n)) s = .next { s with resp := some (BitVec.ofNat 32 (mnum s a.toNat n)) }) ∧
      (∀ (m : Master) (l : List Byte), m ≠ .safetyProc → l ≠ [] → l.length ≤ 8 → ∃ t, exec (.internalAccess m a (.write l)) s = .next t ∧ points t ∧
        t = { s with mem := t.mem, regs := t.regs, wire := t.wire, mfault := t.mfault } ∧
        (canReach m .points = true → NewEntry s t 0x300E 3 (p + mcode m * 2 ^ 20)) ∧ (canReach m .points = false → NewEntry s t 0x5005 5 (a.toNat % 2 ^ 28 + mcode m * 2 ^ 28))) ∧
      (∀ (c : Fin 4) (i v : Nat), i < 2 → points (cdmaWrite s c (0x30000000 + 8 * p + 4 * i) v) ∧ Logged s (cdmaWrite s c (0x30000000 + 8 * p + 4 * i) v) ∧
        NewEntry s (cdmaWrite s c (0x30000000 + 8 * p + 4 * i) v) 0x300E 3 (p + (7 + c) * 2 ^ 20))) ∧
    (p / 2 ^ 15 = 29 → paired s = false →
      ptVal s p = 0 ∧ ptStale s p = true ∧
      (∀ (m : Master) (n : Nat), n ≤ 8 → canReach m .points = true → exec (.internalAccess m a (.read n)) s = .next { s with resp := some 0#32 }) ∧
      (∀ m : Master, canReach m .descs = true → ∃ t r, exec (.internalAccess m (BitVec.ofNat 32 (0x30800000 + 4 * p)) (.read 4)) s = .next t ∧ t = { s with resp := some r, freeIdx := t.freeIdx } ∧ r.toNat % 2 = 1) ∧
      (∀ (m : Master) (l : List Byte), l ≠ [] → l.length ≤ 8 → canReach m .points = true → exec (.internalAccess m a (.write l)) s = .next s) ∧
      (∀ (c : Fin 4) (i v : Nat), i < 2 → cdmaRead s c (0x30000000 + 8 * p + 4 * i) = (0, s) ∧ cdmaWrite s c (0x30000000 + 8 * p + 4 * i) v = s ∧ (cdmaRead s c (0x30800000 + 4 * p)).1 % 2 = 1))
end

