-- ==== Sys2Proof/Laws/Tbl.lean ====
section
/-! SUPPORT. Laws of sparse tables: reading after writing, and the canonical form under every operation. -/

namespace Sys2Proof.Machine

variable {α : Type}

/-- A removed key reads as its default. -/
theorem tget_tdel_self (d : Nat → α) (t : Tbl α) (k : Nat) : tget d (tdel k t) k = d k := by
  induction t with
  | nil => rfl
  | cons e r ih =>
    obtain ⟨j, w⟩ := e
    by_cases h : j = k <;> simp [tdel, tget, h, ih]

/-- Removing a key leaves every other key. -/
theorem tget_tdel_other (d : Nat → α) (t : Tbl α) {k j : Nat} (h : j ≠ k) : tget d (tdel k t) j = tget d t j := by
  induction t with
  | nil => rfl
  | cons e r ih =>
    obtain ⟨i, w⟩ := e
    by_cases hk : i = k
    · subst hk; simp [tdel, tget, ih, h.symm]
    · rw [show tdel k ((i, w) :: r) = (i, w) :: tdel k r by simp [tdel, hk]]
      simp only [tget, ih]

/-- An inserted entry is found. -/
theorem tget_tins_self (d : Nat → α) (t : Tbl α) (k : Nat) (v : α) : tget d (tins k v (tdel k t)) k = v := by
  induction t with
  | nil => simp [tdel, tins, tget]
  | cons e r ih =>
    obtain ⟨j, w⟩ := e
    by_cases h : j = k
    · simp [tdel, h, ih]
    · by_cases hlt : k < j <;> simp [tdel, tins, tget, h, hlt, ih]

/-- An insertion leaves every other key. -/
theorem tget_tins_other (d : Nat → α) (t : Tbl α) {k j : Nat} (v : α) (h : j ≠ k) : tget d (tins k v t) j = tget d t j := by
  induction t with
  | nil => simp [tins, tget, h.symm]
  | cons e r ih =>
    obtain ⟨i, w⟩ := e
    by_cases hlt : k < i
    · simp [tins, hlt, tget, h.symm]
    · rw [show tins k v ((i, w) :: r) = (i, w) :: tins k v r by simp [tins, hlt]]
      simp only [tget, ih]

section Put

variable [DecidableEq α]

/-- A read after a write to the same key gives the value written. -/
@[simp] theorem tget_tput_self (d : Nat → α) (t : Tbl α) (k : Nat) (v : α) : tget d (tput d t k v) k = v := by
  unfold tput
  split
  · next h => rw [tget_tdel_self, h]
  · exact tget_tins_self d t k v

/-- A write leaves every other key. -/
theorem tget_tput_other (d : Nat → α) (t : Tbl α) {k j : Nat} (v : α) (h : j ≠ k) : tget d (tput d t k v) j = tget d t j := by
  unfold tput
  split
  · exact tget_tdel_other d t h
  · rw [tget_tins_other d _ v h, tget_tdel_other d t h]

/-- A read after a write. -/
theorem tget_tput (d : Nat → α) (t : Tbl α) (k j : Nat) (v : α) : tget d (tput d t k v) j = if j = k then v else tget d t j := by
  split
  · next h => rw [h, tget_tput_self]
  · next h => exact tget_tput_other d t v h

/-- A smaller bound is a weaker form. -/
theorem twfFrom_mono (d : Nat → α) {lo lo' : Nat} {t : Tbl α} (h : lo' ≤ lo) (ht : twfFrom d lo t = true) : twfFrom d lo' t = true := by
  cases t with
  | nil => rfl
  | cons e r =>
    simp only [twfFrom, Bool.and_eq_true, decide_eq_true_eq] at *
    exact ⟨⟨le_trans h ht.1.1, ht.1.2⟩, ht.2⟩

/-- Removing a key keeps the canonical form. -/
theorem twfFrom_tdel (d : Nat → α) (k : Nat) : ∀ (lo : Nat) (t : Tbl α), twfFrom d lo t = true → twfFrom d lo (tdel k t) = true
  | _, [], _ => rfl
  | lo, (j, w) :: r, h => by
    simp only [twfFrom, Bool.and_eq_true, decide_eq_true_eq] at h
    have ih := twfFrom_tdel d k (j + 1) r h.2
    by_cases hk : j = k
    · simp only [tdel, hk, if_true]
      exact twfFrom_mono d (by omega) (hk ▸ ih)
    · simp [tdel, hk, twfFrom, h.1, ih]

/-- Inserting an entry that is no default, where its key is absent, keeps the canonical form. -/
theorem twfFrom_tins (d : Nat → α) (k : Nat) (v : α) (hv : v ≠ d k) :
    ∀ (lo : Nat) (t : Tbl α), lo ≤ k → twfFrom d lo (tdel k t) = true → twfFrom d lo (tins k v (tdel k t)) = true
  | lo, [], hlo, _ => by simp [tdel, tins, twfFrom, hlo, hv]
  | lo, (j, w) :: r, hlo, h => by
    by_cases hk : j = k
    · simp only [tdel, hk, if_true] at h ⊢
      exact twfFrom_tins d k v hv lo r hlo h
    · simp only [tdel, hk, if_false, twfFrom, Bool.and_eq_true, decide_eq_true_eq] at h ⊢
      by_cases hlt : k < j
      · simp only [tins, hlt, if_true, twfFrom, Bool.and_eq_true, decide_eq_true_eq]
        exact ⟨⟨hlo, hv⟩, ⟨⟨by omega, h.1.2⟩, h.2⟩⟩
      · simp only [tins, hlt, if_false, twfFrom, Bool.and_eq_true, decide_eq_true_eq]
        exact ⟨h.1, twfFrom_tins d k v hv (j + 1) r (by omega) h.2⟩

/-- A write keeps the canonical form. -/
theorem twf_tput (d : Nat → α) (t : Tbl α) (k : Nat) (v : α) (h : twf d t = true) : twf d (tput d t k v) = true := by
  unfold tput
  split
  · exact twfFrom_tdel d k 0 t h
  · next hv => exact twfFrom_tins d k v hv 0 t (Nat.zero_le k) (twfFrom_tdel d k 0 t h)

/-- Keeping some of the entries keeps the canonical form. -/
theorem twfFrom_filter (d : Nat → α) (p : Nat × α → Bool) : ∀ (lo : Nat) (t : Tbl α), twfFrom d lo t = true → twfFrom d lo (t.filter p) = true
  | _, [], _ => rfl
  | lo, (j, w) :: r, h => by
    simp only [twfFrom, Bool.and_eq_true, decide_eq_true_eq] at h
    have ih := twfFrom_filter d p (j + 1) r h.2
    by_cases hp : p (j, w) = true
    · simp [hp, twfFrom, h.1, ih]
    · simp only [List.filter_cons, hp]
      exact twfFrom_mono d (by omega) ih

/-- Forgetting a range of keys keeps the canonical form. -/
theorem twf_tdrop (d : Nat → α) (lo hi : Nat) (t : Tbl α) (h : twf d t = true) : twf d (tdrop lo hi t) = true :=
  twfFrom_filter d _ 0 t h

end Put

/-- A forgotten key reads as its default, every other key as before. -/
theorem tget_tdrop (d : Nat → α) (lo hi k : Nat) (t : Tbl α) :
    tget d (tdrop lo hi t) k = if lo ≤ k ∧ k < hi then d k else tget d t k := by
  induction t with
  | nil => simp [tdrop, tget]
  | cons e r ih =>
    obtain ⟨j, w⟩ := e
    unfold tdrop at ih ⊢
    by_cases hp : (j < lo || hi ≤ j) = true
    · simp only [List.filter_cons, hp, if_true, tget]
      by_cases hj : j = k
      · subst hj
        simp only [Bool.or_eq_true, decide_eq_true_eq] at hp
        simp only [if_true]
        rw [if_neg (by omega)]
      · simp only [hj, if_false, ih]
    · rw [List.filter_cons, if_neg hp, ih]
      simp only [Bool.or_eq_true, decide_eq_true_eq, not_or, Nat.not_lt, Nat.not_le] at hp
      by_cases hj : j = k
      · subst hj; simp [hp.1, hp.2]
      · simp [tget, hj]

end Sys2Proof.Machine
end

