-- ==== Sys2Proof/Laws/Mem.lean ====
section
/-! SUPPORT. Memory: reading after writing, and the canonical form under every memory operation. -/

namespace Sys2Proof.Machine

/-- A written byte reads back. -/
@[simp] theorem mget_mput_self (s : State) (a : Nat) (b : Byte) : mget (mput s a b) a = b := tget_tput_self _ _ _ _

/-- A write leaves every other byte. -/
theorem mget_mput_other (s : State) {a c : Nat} (b : Byte) (h : c ≠ a) : mget (mput s a b) c = mget s c := tget_tput_other _ _ _ h

/-- A write of several bytes, byte by byte. -/
theorem mwrite_cons (s : State) (a : Nat) (b : Byte) (r : List Byte) : mwrite s a (b :: r) = mwrite (mput s a b) (a + 1) r := rfl

/-- A write of several bytes leaves every byte outside its range. -/
theorem mget_mwrite_other (l : List Byte) (s : State) (a c : Nat) (h : c < a ∨ a + l.length ≤ c) : mget (mwrite s a l) c = mget s c := by
  induction l generalizing s a with
  | nil => rfl
  | cons b r ih =>
    simp only [List.length_cons] at h
    rw [mwrite_cons, ih _ _ (by omega), mget_mput_other _ _ (by omega)]

/-- A write of several bytes reads back. -/
theorem mget_mwrite_self (l : List Byte) (s : State) (a i : Nat) (h : i < l.length) : mget (mwrite s a l) (a + i) = l[i] := by
  induction l generalizing s a i with
  | nil => simp at h
  | cons b r ih =>
    rw [mwrite_cons]
    cases i with
    | zero => rw [mget_mwrite_other r _ _ _ (by omega)]; simp
    | succ i => rw [show a + (i + 1) = (a + 1) + i by omega, ih _ _ i (by simpa using h)]; simp

/-- One written byte keeps the canonical form. -/
theorem memOk_mput {s : State} (a : Nat) (b : Byte) (h : MemOk s) : MemOk (mput s a b) := twf_tput _ _ _ _ h

/-- Written bytes keep the canonical form. -/
theorem memOk_mwrite (l : List Byte) {s : State} (a : Nat) (h : MemOk s) : MemOk (mwrite s a l) := by
  induction l generalizing s a with
  | nil => exact h
  | cons b r ih => exact ih (a + 1) (memOk_mput a b h)

/-- Memory of a state that keeps it. -/
theorem memOk_mem {s : State} (h : MemOk s) : memWf s.mem = true := h

/-- A state is as good as its memory. -/
theorem memOk_mk {pending regs banked ctl mem pwr stalled mfault standby localTest surge ao boot tests lockSeq cist casPend snapRun snapLatch dma time field safe pair bridge sched engs axes mots motRec camPend stops commit lemac safeA safeB plants tts capts encs emus acq cans eyes wire resp freeIdx}
    (h : memWf mem = true) : MemOk (State.mk pending regs banked ctl mem pwr stalled mfault standby localTest surge ao boot tests lockSeq cist casPend snapRun snapLatch dma time field safe pair bridge sched engs axes mots motRec camPend stops commit lemac safeA safeB plants tts capts encs emus acq cans eyes wire resp freeIdx) := h

/-- Both branches keep the form. -/
theorem memOk_ite {c : Prop} [Decidable c] {a b : State} (ha : MemOk a) (hb : MemOk b) : MemOk (if c then a else b) := by
  split <;> assumption

/-- Forgotten bytes keep the canonical form. -/
theorem memOk_tdrop {s : State} (lo hi : Nat) (h : MemOk s) : memWf (tdrop lo hi s.mem) = true := twf_tdrop _ _ _ _ h

/-- A fold of operations that keep the canonical form keeps it. -/
theorem memOk_foldl {β : Type} {f : State → β → State} (hf : ∀ s x, MemOk s → MemOk (f s x)) (l : List β) {s : State} (h : MemOk s) :
    MemOk (l.foldl f s) := by
  induction l generalizing s with
  | nil => exact h
  | cons x r ih => exact ih (hf _ x h)

/-- A fold of operations that keep the canonical form, with a value carried beside the state. -/
theorem memOk_foldl_fst {β γ : Type} {f : State × γ → β → State × γ} (hf : ∀ s x, MemOk s.1 → MemOk (f s x).1) (l : List β) {s : State × γ}
    (h : MemOk s.1) : MemOk (l.foldl f s).1 := by
  induction l generalizing s with
  | nil => exact h
  | cons x r ih => exact ih (hf _ x h)

/-- A fold of operations that keep the canonical form, with a value carried before the state. -/
theorem memOk_foldl_snd {β γ : Type} {f : γ × State → β → γ × State} (hf : ∀ s x, MemOk s.2 → MemOk (f s x).2) (l : List β) {s : γ × State}
    (h : MemOk s.2) : MemOk (l.foldl f s).2 := by
  induction l generalizing s with
  | nil => exact h
  | cons x r ih => exact ih (hf _ x h)

end Sys2Proof.Machine
end

