-- ==== Sys2Proof/Laws/MemOps.lean ====
section
/-! SUPPORT. Every operation of these files keeps the canonical form of memory: registers, events, logs, power requests, register access, pair actions. -/

set_option linter.unusedSimpArgs false
set_option linter.unusedVariables false

namespace Sys2Proof.Machine

/-! ## Ops -/

theorem memOk_wrw (s : State) (k v : Nat) (h : MemOk s) : MemOk (wrw s k v) := by
  simp (maxDischargeDepth := 200) +contextual only [wrw, implies_true, memOk_ite, memOk_mk, memOk_mem, h]
theorem memOk_wr (s : State) (f : Fld) (v : Nat) (h : MemOk s) : MemOk (wr s f v) := by
  simp (maxDischargeDepth := 200) +contextual only [wr, implies_true, memOk_ite, memOk_mk, memOk_mem, memOk_wrw, h]
theorem memOk_wrs (s : State) (l : List (Fld × Nat)) (h : MemOk s) : MemOk (wrs s l) := by
  simp (maxDischargeDepth := 200) +contextual only [wrs, implies_true, memOk_ite, memOk_mk, memOk_mem, memOk_foldl, memOk_foldl_fst, memOk_foldl_snd, memOk_wr, h]
theorem memOk_wr64 (s : State) (lo hi : Fld) (v : Nat) (h : MemOk s) : MemOk (wr64 s lo hi v) := by
  simp (maxDischargeDepth := 200) +contextual only [wr64, implies_true, memOk_ite, memOk_mk, memOk_mem, memOk_wr, h]
theorem memOk_bput (s : State) (m : Master) (k v : Nat) (h : MemOk s) : MemOk (bput s m k v) := by
  simp (maxDischargeDepth := 200) +contextual only [bput, implies_true, memOk_ite, memOk_mk, memOk_mem, h]
theorem memOk_answer (s : State) (v : Nat) (h : MemOk s) : MemOk (answer s v) := by
  simp (maxDischargeDepth := 200) +contextual only [answer, implies_true, memOk_ite, memOk_mk, memOk_mem, h]
theorem memOk_emit (s : State) (o : Out) (h : MemOk s) : MemOk (emit s o) := by
  simp (maxDischargeDepth := 200) +contextual only [emit, implies_true, memOk_ite, memOk_mk, memOk_mem, h]
theorem memOk_free (s : State) (h : MemOk s) : MemOk (free s).2 := by
  simp (maxDischargeDepth := 200) +contextual only [free, implies_true, memOk_ite, memOk_mk, memOk_mem, h]
theorem memOk_setDom (s : State) (d : Nat) (v : DomSt) (h : MemOk s) : MemOk (setDom s d v) := by
  simp (maxDischargeDepth := 200) +contextual only [setDom, implies_true, memOk_ite, memOk_mk, memOk_mem, h]
theorem memOk_sendVec (s : State) (v : Nat) (h : MemOk s) : MemOk (sendVec s v) := by
  simp (maxDischargeDepth := 200) +contextual only [sendVec, implies_true, memOk_ite, memOk_mk, memOk_mem, memOk_emit, memOk_wrw, h]
theorem memOk_raise (s : State) (p b : Nat) (h : MemOk s) : MemOk (raise s p b) := by
  simp (maxDischargeDepth := 200) +contextual only [raise, implies_true, memOk_ite, memOk_mk, memOk_mem, memOk_sendVec, memOk_wrw, h]
theorem memOk_setSticky (s : State) (f : Fld) (h : MemOk s) : MemOk (setSticky s f) := by
  simp (maxDischargeDepth := 200) +contextual only [setSticky, implies_true, memOk_ite, memOk_mk, memOk_mem, memOk_raise, memOk_wr, h]
theorem memOk_clrBusy (s : State) (f : Fld) (h : MemOk s) : MemOk (clrBusy s f) := by
  simp (maxDischargeDepth := 200) +contextual only [clrBusy, implies_true, memOk_ite, memOk_mk, memOk_mem, memOk_raise, memOk_wr, h]
theorem memOk_setStat (s : State) (f : Fld) (h : MemOk s) : MemOk (setStat s f) := by
  simp (maxDischargeDepth := 200) +contextual only [setStat, implies_true, memOk_ite, memOk_mk, memOk_mem, memOk_raise, memOk_wr, h]
theorem memOk_addCnt (s : State) (f : Fld) (n : Nat) (h : MemOk s) : MemOk (addCnt s f n) := by
  simp (maxDischargeDepth := 200) +contextual only [addCnt, implies_true, memOk_ite, memOk_mk, memOk_mem, memOk_setStat, memOk_wr, h]
theorem memOk_incCnt (s : State) (f : Fld) (h : MemOk s) : MemOk (incCnt s f) := by
  simp (maxDischargeDepth := 200) +contextual only [incCnt, implies_true, memOk_ite, memOk_mk, memOk_mem, memOk_addCnt, h]
theorem memOk_incErr (s : State) (f : Fld) (h : MemOk s) : MemOk (incErr s f) := by
  simp (maxDischargeDepth := 200) +contextual only [incErr, implies_true, memOk_ite, memOk_mk, memOk_mem, memOk_setStat, memOk_wr, h]
theorem memOk_errlog (s : State) (p cause : Nat) (m : Master) (ofs : Nat) (h : MemOk s) : MemOk (errlog s p cause m ofs) := by
  simp (maxDischargeDepth := 200) +contextual only [errlog, implies_true, memOk_ite, memOk_mk, memOk_mem, memOk_raise, memOk_wr, memOk_wrw, h]
theorem memOk_msetNum (s : State) (a n v : Nat) (h : MemOk s) : MemOk (msetNum s a n v) := by
  simp (maxDischargeDepth := 200) +contextual only [msetNum, implies_true, memOk_ite, memOk_mk, memOk_mem, memOk_mwrite, h]
theorem memOk_setStale (s : State) (a : Nat) (st : Bool) (h : MemOk s) : MemOk (setStale s a st) := by
  simp (maxDischargeDepth := 200) +contextual only [setStale, implies_true, memOk_ite, memOk_mk, memOk_mem, memOk_mput, h]
theorem memOk_wrPt (s : State) (a v : Nat) (st : Bool) (h : MemOk s) : MemOk (wrPt s a v st) := by
  simp (maxDischargeDepth := 200) +contextual only [wrPt, implies_true, memOk_ite, memOk_mk, memOk_mem, memOk_msetNum, memOk_setStale, h]
theorem memOk_tailCopy (s : State) (e : List Byte) (h : MemOk s) : MemOk (tailCopy s e) := by
  simp (maxDischargeDepth := 200) +contextual only [tailCopy, implies_true, memOk_ite, memOk_mk, memOk_mem, memOk_mwrite, memOk_wr, h]
theorem memOk_post (s : State) (code source detail : Nat) (h : MemOk s) : MemOk (post s code source detail) := by
  simp (maxDischargeDepth := 200) +contextual only [post, implies_true, memOk_ite, memOk_mk, memOk_mem, memOk_mwrite, memOk_incCnt, memOk_incErr, memOk_raise, memOk_tailCopy, memOk_wr, h]
theorem memOk_postOther (s : State) (source : Nat) (h : MemOk s) : MemOk (postOther s source) := by
  simp (maxDischargeDepth := 200) +contextual only [postOther, implies_true, memOk_ite, memOk_mk, memOk_mem, memOk_free, memOk_post, h]
theorem memOk_badAccess (s : State) (m : Master) (addr : Nat) (h : MemOk s) : MemOk (badAccess s m addr) := by
  simp (maxDischargeDepth := 200) +contextual only [badAccess, implies_true, memOk_ite, memOk_mk, memOk_mem, memOk_emit, memOk_post, h]
theorem memOk_logUnreachable (s : State) (m : Master) (addr : Nat) (h : MemOk s) : MemOk (logUnreachable s m addr) := by
  simp (maxDischargeDepth := 200) +contextual only [logUnreachable, implies_true, memOk_ite, memOk_mk, memOk_mem, memOk_emit, memOk_errlog, h]

/-! ## PowerOps -/

theorem memOk_pwrResult (s : State) (m : Master) (d code : Nat) (h : MemOk s) : MemOk (pwrResult s m d code) := by
  simp (maxDischargeDepth := 200) +contextual only [pwrResult, implies_true, memOk_ite, memOk_mk, memOk_mem, memOk_bput, memOk_errlog, memOk_incErr, memOk_post, memOk_raise, h]
theorem memOk_beginTrans (s : State) (d t src : Nat) (round : Bool) (h : MemOk s) : MemOk (beginTrans s d t src round) := by
  simp (maxDischargeDepth := 200) +contextual only [beginTrans, implies_true, memOk_ite, memOk_mk, memOk_mem, memOk_setDom, h]
theorem memOk_setPend (s : State) (d : Nat) (r : Option PReq) (h : MemOk s) : MemOk (setPend s d r) := by
  simp (maxDischargeDepth := 200) +contextual only [setPend, implies_true, memOk_ite, memOk_mk, memOk_mem, memOk_setDom, memOk_wr, h]
theorem memOk_autoWake (s : State) (d : Nat) (h : MemOk s) : MemOk (autoWake s d).1 := by
  unfold autoWake
  dsimp only
  repeat' split
  all_goals simp (maxDischargeDepth := 200) +contextual only [implies_true, memOk_ite, memOk_mk, memOk_mem, memOk_beginTrans, memOk_pwrResult, memOk_setPend, h]

/-! ## RegAccess -/

theorem memOk_domAccess (s : State) (m : Master) (d p addr : Nat) (a : Access) (f : State → State) (h : MemOk s) (hff : ∀ s, MemOk s → MemOk (f s)) : MemOk (domAccess s m d p addr a f) := by
  simp (maxDischargeDepth := 200) +contextual only [domAccess, implies_true, memOk_ite, memOk_mk, memOk_mem, memOk_answer, memOk_autoWake, memOk_logUnreachable, h, hff]
theorem memOk_unmapped (s : State) (m : Master) (addr : Nat) (h : MemOk s) : MemOk (unmapped s m addr) := by
  simp (maxDischargeDepth := 200) +contextual only [unmapped, implies_true, memOk_ite, memOk_mk, memOk_mem, memOk_answer, memOk_badAccess, memOk_errlog, h]
theorem memOk_pageAccess (s : State) (m : Master) (k : Nat) (a : Access) (f : State → State) (h : MemOk s) (hff : ∀ s, MemOk s → MemOk (f s)) : MemOk (pageAccess s m k a f) := by
  unfold pageAccess
  dsimp only
  repeat' split
  all_goals simp (maxDischargeDepth := 200) +contextual only [implies_true, memOk_ite, memOk_mk, memOk_mem, memOk_answer, memOk_domAccess, memOk_logUnreachable, memOk_unmapped, h, hff]
theorem memOk_afterHeader (before : State) (s : State) (k w : Nat) (h : MemOk before) (h2 : MemOk s) : MemOk (afterHeader before s k w) := by
  simp (maxDischargeDepth := 200) +contextual only [afterHeader, implies_true, memOk_ite, memOk_mk, memOk_mem, memOk_sendVec, memOk_wrw, h, h2]
theorem memOk_afterMsix (s : State) (k : Nat) (h : MemOk s) : MemOk (afterMsix s k) := by
  simp (maxDischargeDepth := 200) +contextual only [afterMsix, implies_true, memOk_ite, memOk_mk, memOk_mem, memOk_sendVec, memOk_wrw, h]
theorem memOk_plainWrite (s : State) (m : Master) (k w : Nat) (h : MemOk s) : MemOk (plainWrite s m k w) := by
  simp (maxDischargeDepth := 200) +contextual only [plainWrite, implies_true, memOk_ite, memOk_mk, memOk_mem, memOk_foldl, memOk_foldl_fst, memOk_foldl_snd, memOk_afterHeader, memOk_afterMsix, memOk_errlog, memOk_wrw, h]
theorem memOk_regAction (s : State) (m : Master) (k : Nat) (w : W32) (f : State → State) (h : MemOk s) (hff : ∀ s, MemOk s → MemOk (f s)) : MemOk (regAction s m k w f) := by
  simp (maxDischargeDepth := 200) +contextual only [regAction, implies_true, memOk_ite, memOk_mk, memOk_mem, memOk_pageAccess, memOk_plainWrite, h, hff]

/-! ## Capacity -/

theorem memOk_setEng (s : State) (e : Nat) (x : Engine) (h : MemOk s) : MemOk (setEng s e x) := by
  simp (maxDischargeDepth := 200) +contextual only [setEng, implies_true, memOk_ite, memOk_mk, memOk_mem, h]
theorem memOk_setRole (s : State) (r : Nat) (h : MemOk s) : MemOk (setRole s r) := by
  simp (maxDischargeDepth := 200) +contextual only [setRole, implies_true, memOk_ite, memOk_mk, memOk_mem, memOk_wr, h]
theorem memOk_showReady (s : State) (h : MemOk s) : MemOk (showReady s) := by
  simp (maxDischargeDepth := 200) +contextual only [showReady, implies_true, memOk_ite, memOk_mk, memOk_mem, memOk_wr, h]
theorem memOk_showCapacity (s : State) (h : MemOk s) : MemOk (showCapacity s) := by
  simp (maxDischargeDepth := 200) +contextual only [showCapacity, implies_true, memOk_ite, memOk_mk, memOk_mem, memOk_showReady, memOk_wr, h]
theorem memOk_capacityCheck (s : State) (mhz : Nat) (h : MemOk s) : MemOk (capacityCheck s mhz) := by
  simp (maxDischargeDepth := 200) +contextual only [capacityCheck, implies_true, memOk_ite, memOk_mk, memOk_mem, memOk_foldl, memOk_foldl_fst, memOk_foldl_snd, memOk_mput, memOk_incCnt, memOk_post, memOk_raise, memOk_showCapacity, memOk_wr, memOk_wrs, h]

/-! ## PairOps -/

theorem memOk_showQueue (s : State) (h : MemOk s) : MemOk (showQueue s) := by
  simp (maxDischargeDepth := 200) +contextual only [showQueue, implies_true, memOk_ite, memOk_mk, memOk_mem, memOk_wrs, h]
theorem memOk_testEnd (s : State) (r : TestReq) (status : Nat) (h : MemOk s) : MemOk (testEnd s r status) := by
  simp (maxDischargeDepth := 200) +contextual only [testEnd, implies_true, memOk_ite, memOk_mk, memOk_mem, memOk_raise, memOk_wrs, h]
theorem memOk_engineBack (s : State) (r : TestReq) (h : MemOk s) : MemOk (engineBack s r) := by
  simp (maxDischargeDepth := 200) +contextual only [engineBack, implies_true, memOk_ite, memOk_mk, memOk_mem, memOk_capacityCheck, memOk_wr, h]
theorem memOk_abortTests (s : State) (which : TestReq → Bool) (h : MemOk s) : MemOk (abortTests s which) := by
  simp (maxDischargeDepth := 200) +contextual only [abortTests, implies_true, memOk_ite, memOk_mk, memOk_mem, memOk_foldl, memOk_foldl_fst, memOk_foldl_snd, memOk_engineBack, memOk_showQueue, memOk_testEnd, h]
theorem memOk_setPort (s : State) (p : Nat) (x : PortSt) (h : MemOk s) : MemOk (setPort s p x) := by
  simp (maxDischargeDepth := 200) +contextual only [setPort, implies_true, memOk_ite, memOk_mk, memOk_mem, h]
theorem memOk_endRelays (s : State) (h : MemOk s) : MemOk (endRelays s) := by
  simp (maxDischargeDepth := 200) +contextual only [endRelays, implies_true, memOk_ite, memOk_mk, memOk_mem, memOk_foldl, memOk_foldl_fst, memOk_foldl_snd, memOk_setPort, memOk_wr, h]
theorem memOk_stopLaunch (s : State) (h : MemOk s) : MemOk (stopLaunch s) := by
  simp (maxDischargeDepth := 200) +contextual only [stopLaunch, implies_true, memOk_ite, memOk_mk, memOk_mem, memOk_wr, h]
theorem memOk_withdrawRefresh (s : State) (h : MemOk s) : MemOk (withdrawRefresh s) := by
  simp (maxDischargeDepth := 200) +contextual only [withdrawRefresh, implies_true, memOk_ite, memOk_mk, memOk_mem, h]
theorem memOk_cancelSwap (s : State) (cause : Nat) (h : MemOk s) : MemOk (cancelSwap s cause) := by
  simp (maxDischargeDepth := 200) +contextual only [cancelSwap, implies_true, memOk_ite, memOk_mk, memOk_mem, memOk_post, memOk_wr, h]
theorem memOk_relinquish (s : State) (code : Nat) (h : MemOk s) : MemOk (relinquish s code) := by
  simp (maxDischargeDepth := 200) +contextual only [relinquish, implies_true, memOk_ite, memOk_mk, memOk_mem, memOk_abortTests, memOk_cancelSwap, memOk_emit, memOk_post, memOk_setRole, memOk_withdrawRefresh, h]
theorem memOk_failSilent (s : State) (h : MemOk s) : MemOk (failSilent s) := by
  simp (maxDischargeDepth := 200) +contextual only [failSilent, implies_true, memOk_ite, memOk_mk, memOk_mem, memOk_setRole, memOk_withdrawRefresh, h]
theorem memOk_takeFaulted (s : State) (h : MemOk s) : MemOk (takeFaulted s) := by
  simp (maxDischargeDepth := 200) +contextual only [takeFaulted, implies_true, memOk_ite, memOk_mk, memOk_mem, memOk_emit, memOk_endRelays, memOk_setRole, memOk_showReady, memOk_wr, h]
theorem memOk_noteItems (s : State) (l : List MItem) (h : MemOk s) : MemOk (noteItems s l) := by
  simp (maxDischargeDepth := 200) +contextual only [noteItems, implies_true, memOk_ite, memOk_mk, memOk_mem, h]
theorem memOk_noteItem (s : State) (i : MItem) (h : MemOk s) : MemOk (noteItem s i) := by
  simp (maxDischargeDepth := 200) +contextual only [noteItem, implies_true, memOk_ite, memOk_mk, memOk_mem, memOk_noteItems, h]
theorem memOk_clearAck (s : State) (k : Nat) (h : MemOk s) : MemOk (clearAck s k) := by
  simp (maxDischargeDepth := 200) +contextual only [clearAck, implies_true, memOk_ite, memOk_mk, memOk_mem, h]
theorem memOk_ackPeer (s : State) (k : Nat) (h : MemOk s) : MemOk (ackPeer s k) := by
  simp (maxDischargeDepth := 200) +contextual only [ackPeer, implies_true, memOk_ite, memOk_mk, memOk_mem, memOk_emit, h]
theorem memOk_pairActionWith (s : State) (m : Master) (k : Nat) (w : W32) (items : State → State → List MItem) (f : State → State) (h : MemOk s) (hff : ∀ s, MemOk s → MemOk (f s)) : MemOk (pairActionWith s m k w items f) := by
  simp (maxDischargeDepth := 200) +contextual only [pairActionWith, implies_true, memOk_ite, memOk_mk, memOk_mem, memOk_errlog, memOk_noteItems, memOk_pageAccess, memOk_plainWrite, h, hff]
theorem memOk_pairAction (s : State) (m : Master) (k : Nat) (w : W32) (f : State → State) (h : MemOk s) (hff : ∀ s, MemOk s → MemOk (f s)) : MemOk (pairAction s m k w f) := by
  simp (maxDischargeDepth := 200) +contextual only [pairAction, implies_true, memOk_ite, memOk_mk, memOk_mem, memOk_pairActionWith, h, hff]
theorem memOk_pairOp (s : State) (m : Master) (k : Nat) (w : W32) (ok : Bool) (f : State → State) (h : MemOk s) (hff : ∀ s, MemOk s → MemOk (f s)) : MemOk (pairOp s m k w ok f) := by
  simp (maxDischargeDepth := 200) +contextual only [pairOp, implies_true, memOk_ite, memOk_mk, memOk_mem, memOk_pairActionWith, h, hff]
theorem memOk_selfFault (s : State) (f : SelfFault) (h : MemOk s) : MemOk (selfFault s f) := by
  simp (maxDischargeDepth := 200) +contextual only [selfFault, implies_true, memOk_ite, memOk_mk, memOk_mem, memOk_failSilent, memOk_relinquish, memOk_takeFaulted, h]

end Sys2Proof.Machine
end

