-- ==== Sys2Proof/Laws/MemEngine.lean ====
section
/-! SUPPORT. Every operation of these files keeps the canonical form of memory: the scheduler and the loop engines. -/

set_option linter.unusedSimpArgs false
set_option linter.unusedVariables false

namespace Sys2Proof.Machine

/-! ## SchedOps -/

theorem memOk_setTask (s : State) (t : Nat) (x : TaskSt) (h : MemOk s) : MemOk (setTask s t x) := by
  simp (maxDischargeDepth := 200) +contextual only [setTask, implies_true, memOk_ite, memOk_mk, memOk_mem, h]
theorem memOk_setWell (s : State) (c p : Nat) (l : List Tok) (h : MemOk s) : MemOk (setWell s c p l) := by
  simp (maxDischargeDepth := 200) +contextual only [setWell, implies_true, memOk_ite, memOk_mk, memOk_mem, memOk_wr, h]
theorem memOk_makeToken (s : State) (t : Nat) (h : MemOk s) : MemOk (makeToken s t).1 := by
  unfold makeToken
  dsimp only
  repeat' split
  all_goals simp (maxDischargeDepth := 200) +contextual only [implies_true, memOk_ite, memOk_mk, memOk_mem, memOk_setTask, h]
theorem memOk_newTok (s : State) (t : Nat) (h : MemOk s) : MemOk (newTok s t).2 := by
  simp (maxDischargeDepth := 200) +contextual only [newTok, implies_true, memOk_ite, memOk_mk, memOk_mem, h]
theorem memOk_openGate (s : State) (c : Nat) (h : MemOk s) : MemOk (openGate s c) := by
  simp (maxDischargeDepth := 200) +contextual only [openGate, implies_true, memOk_ite, memOk_mk, memOk_mem, h]
theorem memOk_openGates (s : State) (c t : Nat) (h : MemOk s) : MemOk (openGates s c t) := by
  simp (maxDischargeDepth := 200) +contextual only [openGates, implies_true, memOk_ite, memOk_mk, memOk_mem, memOk_openGate, h]
theorem memOk_tryPreempt (s : State) (c : Nat) (h : MemOk s) : MemOk (tryPreempt s c) := by
  unfold tryPreempt
  dsimp only
  repeat' split
  all_goals simp (maxDischargeDepth := 200) +contextual only [implies_true, memOk_ite, memOk_mk, memOk_mem, memOk_incCnt, memOk_setEng, memOk_setWell, h]
theorem memOk_placeWell {s t : State} {b k c : Nat} (h : MemOk s) (e : placeTok.placeWell s b k c = some t) : MemOk t := by
  simp only [placeTok.placeWell] at e
  split at e
  · cases e
    simp (maxDischargeDepth := 200) +contextual only [memOk_ite, memOk_openGates, memOk_setWell, memOk_newTok, memOk_tryPreempt, h]
  · cases e
theorem memOk_placeTok {s t : State} {k : Nat} {loc : Option Nat} (h : MemOk s) (e : placeTok s k loc = some t) : MemOk t := by
  simp only [placeTok] at e
  split at e
  · cases e
    exact memOk_incCnt _ _ h
  · split at e
    · split at e
      · cases e
        simp (maxDischargeDepth := 200) +contextual only [memOk_openGate, memOk_setEng, memOk_newTok, h]
      · cases e
    · split at e
      · split at e
        · cases e
          simp (maxDischargeDepth := 200) +contextual only [memOk_openGate, memOk_setEng, memOk_newTok, h]
        · exact memOk_placeWell h e
      · exact memOk_placeWell h e
theorem memOk_postFlag (s : State) (t f : Nat) (h : MemOk s) : MemOk (postFlag s t f).1 := by
  unfold postFlag
  dsimp only
  repeat' split
  all_goals simp (maxDischargeDepth := 200) +contextual only [implies_true, memOk_ite, memOk_mk, memOk_mem, memOk_makeToken, memOk_setTask, h]
theorem memOk_fireEdge (s : State) (src : Option Nat) (w : Edge) (h : MemOk s) : MemOk (fireEdge s src w).1 := by
  unfold fireEdge
  dsimp only
  repeat' split
  all_goals simp (maxDischargeDepth := 200) +contextual only [implies_true, memOk_ite, memOk_mk, memOk_mem, memOk_incErr, memOk_postFlag, memOk_setTask, h]
theorem memOk_countStall (s : State) (t : Nat) (h : MemOk s) : MemOk (countStall s t) := by
  simp (maxDischargeDepth := 200) +contextual only [countStall, implies_true, memOk_ite, memOk_mk, memOk_mem, memOk_incCnt, h]
theorem memOk_runEdges (src eng : Option Nat) (l : List Edge) (s : State) (h : MemOk s) : MemOk (runEdges s src eng l).1 := by
  induction l generalizing s with
  | nil => exact h
  | cons w r ih =>
    have hf := memOk_fireEdge s src w h
    simp only [runEdges]
    split
    · exact ih _ hf
    · split
      · next he => exact ih _ (memOk_placeTok hf he)
      · exact memOk_countStall _ _ hf
theorem memOk_runItem (s : State) (i : PostItem) (h : MemOk s) : MemOk (runItem s i).1 := by
  simp only [runItem]
  split
  · split
    · next he => exact memOk_runEdges _ _ _ _ (memOk_placeTok h he)
    · exact memOk_ite (memOk_countStall _ _ h) h
  · exact memOk_runEdges _ _ _ _ h
theorem memOk_setPoster (s : State) (w : Nat) (l : List PostItem) (h : MemOk s) : MemOk (setPoster s w l) := by
  simp (maxDischargeDepth := 200) +contextual only [setPoster, implies_true, memOk_ite, memOk_mk, memOk_mem, h]
theorem memOk_drainItems (l : List PostItem) (s : State) (h : MemOk s) : MemOk (drainItems s l).1 := by
  induction l generalizing s with
  | nil => exact h
  | cons i r ih =>
    have hf := memOk_runItem s i h
    simp only [drainItems]
    split
    · exact ih _ hf
    · exact hf
theorem memOk_releaseEng (s : State) (e : Nat) (h : MemOk s) : MemOk (releaseEng s e) := by
  simp (maxDischargeDepth := 200) +contextual only [releaseEng, implies_true, memOk_ite, memOk_mk, memOk_mem, memOk_setEng, h]
theorem memOk_drain (s : State) (w : Nat) (h : MemOk s) : MemOk (drain s w) := by
  simp (maxDischargeDepth := 200) +contextual only [drain, implies_true, memOk_ite, memOk_mk, memOk_mem, memOk_foldl, memOk_foldl_fst, memOk_foldl_snd, memOk_drainItems, memOk_releaseEng, memOk_setPoster, h]
theorem memOk_postItem (s : State) (w : Nat) (i : PostItem) (h : MemOk s) : MemOk (postItem s w i) := by
  simp (maxDischargeDepth := 200) +contextual only [postItem, implies_true, memOk_ite, memOk_mk, memOk_mem, memOk_drain, memOk_setPoster, h]
theorem memOk_fireEdges (s : State) (w : Nat) (l : List Edge) (h : MemOk s) : MemOk (fireEdges s w l) := by
  simp (maxDischargeDepth := 200) +contextual only [fireEdges, implies_true, memOk_ite, memOk_mk, memOk_mem, memOk_postItem, h]
theorem memOk_engineFault (s : State) (e t pc : Nat) (c : EngCause) (h : MemOk s) : MemOk (engineFault s e t pc c) := by
  have hk : ∀ (s : State) (k : Nat), MemOk s → MemOk ((placeTok s k none).getD s) := by
    intro s k h
    cases he : placeTok s k none with
    | none => exact h
    | some t => exact memOk_placeTok h he
  simp only [engineFault]
  split <;> split <;>
    simp (maxDischargeDepth := 200) +contextual only [memOk_selfFault, memOk_capacityCheck, memOk_post, memOk_incErr, memOk_wrs, memOk_wr, memOk_setEng, hk, h]

/-! ## Operands -/

theorem memOk_xyWrite (s : State) (e : Nat) (y : Bool) (half w v : Nat) (h : MemOk s) : MemOk (xyWrite s e y half w v) := by
  simp (maxDischargeDepth := 200) +contextual only [xyWrite, implies_true, memOk_ite, memOk_mk, memOk_mem, memOk_msetNum, memOk_setEng, h]
theorem memOk_makeStores (e : Nat) (l : List (Nat × List Byte)) (s : State) (h : MemOk s) : MemOk (makeStores s e l) := by
  induction l generalizing s with
  | nil => exact h
  | cons x r ih =>
    obtain ⟨a, b⟩ := x
    simp only [makeStores]
    apply ih
    simp (maxDischargeDepth := 200) +contextual only [memOk_ite, memOk_setEng, memOk_mwrite, h]
theorem memOk_settle (s : State) (e : Nat) (r : LeRegs) (h : MemOk s) : MemOk (settle s e r) := by
  simp (maxDischargeDepth := 200) +contextual only [settle, implies_true, memOk_ite, memOk_mk, memOk_mem, memOk_engineFault, memOk_setEng, h]
theorem memOk_endBundle (s : State) (e : Nat) (h : MemOk s) : MemOk (endBundle s e) := by
  simp (maxDischargeDepth := 200) +contextual only [endBundle, implies_true, memOk_ite, memOk_mk, memOk_mem, memOk_makeStores, memOk_settle, h]
theorem memOk_slotOp (s : State) (e : Fin 64) (last : Bool) (op : Engine → Eff) (h : MemOk s) : MemOk (slotOp s e last op) := by
  unfold slotOp
  dsimp only
  repeat' split
  all_goals simp (maxDischargeDepth := 200) +contextual only [implies_true, memOk_ite, memOk_mk, memOk_mem, memOk_endBundle, memOk_engineFault, memOk_setEng, h]
theorem memOk_branchOp (s : State) (e : Fin 64) (op : LeRegs → LeRegs × Option EngCause) (after : State → State)
    (ha : ∀ s, MemOk s → MemOk (after s)) (h : MemOk s) : MemOk (branchOp s e op after) := by
  simp only [branchOp]
  split
  · split
    · exact memOk_engineFault _ _ _ _ _ (memOk_setEng _ _ _ h)
    · exact ha _ (memOk_settle _ _ _ (memOk_setEng _ _ _ h))
  · exact h

/-! ## CistOps -/

theorem memOk_setBlk (s : State) (b : Nat) (x : BlkOwn) (h : MemOk s) : MemOk (setBlk s b x) := by
  simp (maxDischargeDepth := 200) +contextual only [setBlk, implies_true, memOk_ite, memOk_mk, memOk_mem, h]
theorem memOk_setFloat (s : State) (b new : Nat) (priv : Bool) (h : MemOk s) : MemOk (setFloat s b new priv) := by
  simp (maxDischargeDepth := 200) +contextual only [setFloat, implies_true, memOk_ite, memOk_mk, memOk_mem, memOk_setBlk, h]
theorem memOk_cistRead (s : State) (k m w : Nat) (h : MemOk s) : MemOk (cistRead s k m w).2 := by
  unfold cistRead
  dsimp only
  repeat' split
  all_goals simp (maxDischargeDepth := 200) +contextual only [implies_true, memOk_ite, memOk_mk, memOk_mem, memOk_incErr, memOk_post, h]
theorem memOk_cistWrite (s : State) (k m w v : Nat) (h : MemOk s) : MemOk (cistWrite s k m w v) := by
  simp (maxDischargeDepth := 200) +contextual only [cistWrite, implies_true, memOk_ite, memOk_mk, memOk_mem, memOk_incErr, memOk_msetNum, memOk_post, h]
theorem memOk_passBlocks (s : State) (b n new : Nat) (h : MemOk s) : MemOk (passBlocks s b n new) := by
  simp (maxDischargeDepth := 200) +contextual only [passBlocks, implies_true, memOk_ite, memOk_mk, memOk_mem, memOk_foldl, memOk_foldl_fst, memOk_foldl_snd, memOk_setFloat, h]

/-! ## ClusterDma -/

theorem memOk_cdmaRead (s : State) (c a : Nat) (h : MemOk s) : MemOk (cdmaRead s c a).2 := by
  unfold cdmaRead
  dsimp only
  repeat' split
  all_goals simp (maxDischargeDepth := 200) +contextual only [implies_true, memOk_ite, memOk_mk, memOk_mem, memOk_cistRead, memOk_free, memOk_logUnreachable, h]
theorem memOk_ptGuard (s : State) (m p : Nat) (f : State → State) (h : MemOk s) (hff : ∀ s, MemOk s → MemOk (f s)) : MemOk (ptGuard s m p f) := by
  simp (maxDischargeDepth := 200) +contextual only [ptGuard, implies_true, memOk_ite, memOk_mk, memOk_mem, memOk_post, h, hff]
theorem memOk_cdmaWrite (s : State) (c a v : Nat) (h : MemOk s) : MemOk (cdmaWrite s c a v) := by
  simp (maxDischargeDepth := 200) +contextual only [cdmaWrite, implies_true, memOk_ite, memOk_mk, memOk_mem, memOk_cistWrite, memOk_logUnreachable, memOk_msetNum, memOk_ptGuard, memOk_setStale, h]
theorem memOk_readWords (c : Nat) (l : List Nat) (s : State) (h : MemOk s) : MemOk (readWords s c l).2 := by
  induction l generalizing s with
  | nil => exact h
  | cons a r ih => exact ih _ (memOk_cdmaRead s c a h)
theorem memOk_placeWords (e half : Nat) (l : List DmaEnt) (ws : List Nat) (s : State) (h : MemOk s) : MemOk (placeWords s e half l ws) := by
  induction l generalizing s ws with
  | nil => exact h
  | cons d r ih =>
    simp only [placeWords]
    exact ih _ _ (memOk_foldl (fun s x h => memOk_xyWrite _ _ _ _ _ _ h) _ h)
theorem memOk_clearHalf (s : State) (e half : Nat) (h : MemOk s) : MemOk (clearHalf s e half) := by
  simp (maxDischargeDepth := 200) +contextual only [clearHalf, implies_true, memOk_ite, memOk_mk, memOk_mem, memOk_setEng, h]
theorem memOk_doWrites (c : Nat) (l : List (Nat × Nat × List Nat)) (s : State) (h : MemOk s) : MemOk (doWrites s c l).1 := by
  induction l generalizing s with
  | nil => exact h
  | cons x r ih =>
    obtain ⟨a, n, ws⟩ := x
    simp only [doWrites]
    split
    · exact h
    · exact ih _ (memOk_foldl (fun s x h => memOk_cdmaWrite _ _ _ _ h) _ h)

/-! ## LeMem -/

theorem memOk_execNop (e : Fin 64) (slot : BitVec 64) (last : Bool) (s : State) (h : MemOk s) : ∀ u, execNop e slot last s = .next u → MemOk u := by
  intro u hu
  simp only [execNop, Host.Outcome.next.injEq] at hu
  subst hu
  simp (maxDischargeDepth := 200) +contextual only [implies_true, memOk_ite, memOk_mk, memOk_mem, memOk_slotOp, h]
theorem memOk_execLd (e : Fin 64) (y : Bool) (p : Fin 4) (dn : Fin 32) (md : Fin 4) (last : Bool) (s : State) (h : MemOk s) : ∀ u, execLd e y p dn md last s = .next u → MemOk u := by
  intro u hu
  simp only [execLd, Host.Outcome.next.injEq] at hu
  subst hu
  simp (maxDischargeDepth := 200) +contextual only [implies_true, memOk_ite, memOk_mk, memOk_mem, memOk_slotOp, h]
theorem memOk_execLd2 (e : Fin 64) (y : Bool) (p : Fin 4) (dn : Fin 32) (md : Fin 4) (last : Bool) (s : State) (h : MemOk s) : ∀ u, execLd2 e y p dn md last s = .next u → MemOk u := by
  intro u hu
  simp only [execLd2, Host.Outcome.next.injEq] at hu
  subst hu
  simp (maxDischargeDepth := 200) +contextual only [implies_true, memOk_ite, memOk_mk, memOk_mem, memOk_slotOp, h]
theorem memOk_execSt (e : Fin 64) (y : Bool) (p : Fin 4) (dn : Fin 32) (md : Fin 4) (last : Bool) (s : State) (h : MemOk s) : ∀ u, execSt e y p dn md last s = .next u → MemOk u := by
  intro u hu
  simp only [execSt, Host.Outcome.next.injEq] at hu
  subst hu
  simp (maxDischargeDepth := 200) +contextual only [implies_true, memOk_ite, memOk_mk, memOk_mem, memOk_slotOp, h]
theorem memOk_execSt2 (e : Fin 64) (y : Bool) (p : Fin 4) (dn : Fin 32) (md : Fin 4) (last : Bool) (s : State) (h : MemOk s) : ∀ u, execSt2 e y p dn md last s = .next u → MemOk u := by
  intro u hu
  simp only [execSt2, Host.Outcome.next.injEq] at hu
  subst hu
  simp (maxDischargeDepth := 200) +contextual only [implies_true, memOk_ite, memOk_mk, memOk_mem, memOk_slotOp, h]
theorem memOk_liOp (s : State) (e : Fin 64) (op : LeRegs → Eff) (h : MemOk s) : MemOk (liOp s e op) := by
  simp (maxDischargeDepth := 200) +contextual only [liOp, implies_true, memOk_ite, memOk_mk, memOk_mem, memOk_slotOp, h]
theorem memOk_execLid (e : Fin 64) (r : Fin 32) (imm : W32) (s : State) (h : MemOk s) : ∀ u, execLid e r imm s = .next u → MemOk u := by
  intro u hu
  simp only [execLid, Host.Outcome.next.injEq] at hu
  subst hu
  simp (maxDischargeDepth := 200) +contextual only [implies_true, memOk_ite, memOk_mk, memOk_mem, memOk_liOp, h]
theorem memOk_execLig (e : Fin 64) (r : Fin 32) (imm : W32) (s : State) (h : MemOk s) : ∀ u, execLig e r imm s = .next u → MemOk u := by
  intro u hu
  simp only [execLig, Host.Outcome.next.injEq] at hu
  subst hu
  simp (maxDischargeDepth := 200) +contextual only [implies_true, memOk_ite, memOk_mk, memOk_mem, memOk_liOp, h]
theorem memOk_execLigh (e : Fin 64) (r : Fin 32) (imm : W32) (s : State) (h : MemOk s) : ∀ u, execLigh e r imm s = .next u → MemOk u := by
  intro u hu
  simp only [execLigh, Host.Outcome.next.injEq] at hu
  subst hu
  simp (maxDischargeDepth := 200) +contextual only [implies_true, memOk_ite, memOk_mk, memOk_mem, memOk_liOp, h]
theorem memOk_execLip (e : Fin 64) (p : Fin 32) (imm : W32) (s : State) (h : MemOk s) : ∀ u, execLip e p imm s = .next u → MemOk u := by
  intro u hu
  simp only [execLip, Host.Outcome.next.injEq] at hu
  subst hu
  simp (maxDischargeDepth := 200) +contextual only [implies_true, memOk_ite, memOk_mk, memOk_mem, memOk_liOp, h]
theorem memOk_execLix (e : Fin 64) (r : Fin 32) (imm : W32) (s : State) (h : MemOk s) : ∀ u, execLix e r imm s = .next u → MemOk u := by
  intro u hu
  simp only [execLix, Host.Outcome.next.injEq] at hu
  subst hu
  simp (maxDischargeDepth := 200) +contextual only [implies_true, memOk_ite, memOk_mk, memOk_mem, memOk_liOp, h]

/-! ## LeMul -/

theorem memOk_mulOp (s : State) (e : Fin 64) (last bad : Bool) (prs : List (Fin 32 × Fin 32)) (tgt : List Int → List (Fin 4 × Int)) (upd : Int → Int → Int) (h : MemOk s) : MemOk (mulOp s e last bad prs tgt upd) := by
  simp (maxDischargeDepth := 200) +contextual only [mulOp, implies_true, memOk_ite, memOk_mk, memOk_mem, memOk_foldl, memOk_foldl_fst, memOk_foldl_snd, memOk_slotOp, h]
theorem memOk_execMac4 (e : Fin 64) (mode : Fin 4) (dx dy : Fin 32) (sum : Fin 4) (last : Bool) (s : State) (h : MemOk s) : ∀ u, execMac4 e mode dx dy sum last s = .next u → MemOk u := by
  intro u hu
  simp only [execMac4, Host.Outcome.next.injEq] at hu
  subst hu
  simp (maxDischargeDepth := 200) +contextual only [implies_true, memOk_ite, memOk_mk, memOk_mem, memOk_mulOp, h]
theorem memOk_execMsu4 (e : Fin 64) (mode : Fin 4) (dx dy : Fin 32) (sum : Fin 4) (last : Bool) (s : State) (h : MemOk s) : ∀ u, execMsu4 e mode dx dy sum last s = .next u → MemOk u := by
  intro u hu
  simp only [execMsu4, Host.Outcome.next.injEq] at hu
  subst hu
  simp (maxDischargeDepth := 200) +contextual only [implies_true, memOk_ite, memOk_mk, memOk_mem, memOk_mulOp, h]
theorem memOk_execMpy4 (e : Fin 64) (mode : Fin 4) (dx dy : Fin 32) (sum : Fin 4) (last : Bool) (s : State) (h : MemOk s) : ∀ u, execMpy4 e mode dx dy sum last s = .next u → MemOk u := by
  intro u hu
  simp only [execMpy4, Host.Outcome.next.injEq] at hu
  subst hu
  simp (maxDischargeDepth := 200) +contextual only [implies_true, memOk_ite, memOk_mk, memOk_mem, memOk_mulOp, h]
theorem memOk_execDot (e : Fin 64) (k n : Fin 4) (dx dy : Fin 32) (last : Bool) (s : State) (h : MemOk s) : ∀ u, execDot e k n dx dy last s = .next u → MemOk u := by
  intro u hu
  simp only [execDot, Host.Outcome.next.injEq] at hu
  subst hu
  simp (maxDischargeDepth := 200) +contextual only [implies_true, memOk_ite, memOk_mk, memOk_mem, memOk_mulOp, h]
theorem memOk_execDotn (e : Fin 64) (k n : Fin 4) (dx dy : Fin 32) (last : Bool) (s : State) (h : MemOk s) : ∀ u, execDotn e k n dx dy last s = .next u → MemOk u := by
  intro u hu
  simp only [execDotn, Host.Outcome.next.injEq] at hu
  subst hu
  simp (maxDischargeDepth := 200) +contextual only [implies_true, memOk_ite, memOk_mk, memOk_mem, memOk_mulOp, h]
theorem memOk_execDotz (e : Fin 64) (k n : Fin 4) (dx dy : Fin 32) (last : Bool) (s : State) (h : MemOk s) : ∀ u, execDotz e k n dx dy last s = .next u → MemOk u := by
  intro u hu
  simp only [execDotz, Host.Outcome.next.injEq] at hu
  subst hu
  simp (maxDischargeDepth := 200) +contextual only [implies_true, memOk_ite, memOk_mk, memOk_mem, memOk_mulOp, h]
theorem memOk_execFtap (e : Fin 64) (p q k : Fin 4) (neg z : Bool) (last : Bool) (s : State) (h : MemOk s) : ∀ u, execFtap e p q k neg z last s = .next u → MemOk u := by
  intro u hu
  simp only [execFtap, Host.Outcome.next.injEq] at hu
  subst hu
  simp (maxDischargeDepth := 200) +contextual only [implies_true, memOk_ite, memOk_mk, memOk_mem, memOk_slotOp, h]
theorem memOk_execClra (e : Fin 64) (mask : BitVec 4) (last : Bool) (s : State) (h : MemOk s) : ∀ u, execClra e mask last s = .next u → MemOk u := by
  intro u hu
  simp only [execClra, Host.Outcome.next.injEq] at hu
  subst hu
  simp (maxDischargeDepth := 200) +contextual only [implies_true, memOk_ite, memOk_mk, memOk_mem, memOk_foldl, memOk_foldl_fst, memOk_foldl_snd, memOk_slotOp, h]
theorem memOk_execAdda (e : Fin 64) (d a : Fin 4) (sh : BitVec 6) (neg : Bool) (last : Bool) (s : State) (h : MemOk s) : ∀ u, execAdda e d a sh neg last s = .next u → MemOk u := by
  intro u hu
  simp only [execAdda, Host.Outcome.next.injEq] at hu
  subst hu
  simp (maxDischargeDepth := 200) +contextual only [implies_true, memOk_ite, memOk_mk, memOk_mem, memOk_slotOp, h]

/-! ## LeAlu -/

theorem memOk_dOp (s : State) (e : Fin 64) (last : Bool) (d : Fin 32) (v : Engine → Int) (fl : Engine → LeRegs → LeRegs) (h : MemOk s) : MemOk (dOp s e last d v fl) := by
  simp (maxDischargeDepth := 200) +contextual only [dOp, implies_true, memOk_ite, memOk_mk, memOk_mem, memOk_slotOp, h]
theorem memOk_gOp (s : State) (e : Fin 64) (last bad : Bool) (d : Fin 16) (v : Engine → Int) (fl : Engine → LeRegs → LeRegs) (h : MemOk s) : MemOk (gOp s e last bad d v fl) := by
  simp (maxDischargeDepth := 200) +contextual only [gOp, implies_true, memOk_ite, memOk_mk, memOk_mem, memOk_slotOp, h]
theorem memOk_dgOp (s : State) (e : Fin 64) (last bad : Bool) (d : Fin 32) (v : Engine → Int) (h : MemOk s) : MemOk (dgOp s e last bad d v) := by
  simp (maxDischargeDepth := 200) +contextual only [dgOp, implies_true, memOk_ite, memOk_mk, memOk_mem, memOk_slotOp, h]
theorem memOk_execAdd (e : Fin 64) (d a b : Fin 32) (last : Bool) (s : State) (h : MemOk s) : ∀ u, execAdd e d a b last s = .next u → MemOk u := by
  intro u hu
  simp only [execAdd, Host.Outcome.next.injEq] at hu
  subst hu
  simp (maxDischargeDepth := 200) +contextual only [implies_true, memOk_ite, memOk_mk, memOk_mem, memOk_dOp, h]
theorem memOk_execSub (e : Fin 64) (d a b : Fin 32) (last : Bool) (s : State) (h : MemOk s) : ∀ u, execSub e d a b last s = .next u → MemOk u := by
  intro u hu
  simp only [execSub, Host.Outcome.next.injEq] at hu
  subst hu
  simp (maxDischargeDepth := 200) +contextual only [implies_true, memOk_ite, memOk_mk, memOk_mem, memOk_dOp, h]
theorem memOk_execAdds (e : Fin 64) (d a b : Fin 32) (last : Bool) (s : State) (h : MemOk s) : ∀ u, execAdds e d a b last s = .next u → MemOk u := by
  intro u hu
  simp only [execAdds, Host.Outcome.next.injEq] at hu
  subst hu
  simp (maxDischargeDepth := 200) +contextual only [implies_true, memOk_ite, memOk_mk, memOk_mem, memOk_dOp, h]
theorem memOk_execSubs (e : Fin 64) (d a b : Fin 32) (last : Bool) (s : State) (h : MemOk s) : ∀ u, execSubs e d a b last s = .next u → MemOk u := by
  intro u hu
  simp only [execSubs, Host.Outcome.next.injEq] at hu
  subst hu
  simp (maxDischargeDepth := 200) +contextual only [implies_true, memOk_ite, memOk_mk, memOk_mem, memOk_dOp, h]
theorem memOk_execAnd (e : Fin 64) (d a b : Fin 32) (last : Bool) (s : State) (h : MemOk s) : ∀ u, execAnd e d a b last s = .next u → MemOk u := by
  intro u hu
  simp only [execAnd, Host.Outcome.next.injEq] at hu
  subst hu
  simp (maxDischargeDepth := 200) +contextual only [implies_true, memOk_ite, memOk_mk, memOk_mem, memOk_dOp, h]
theorem memOk_execOr (e : Fin 64) (d a b : Fin 32) (last : Bool) (s : State) (h : MemOk s) : ∀ u, execOr e d a b last s = .next u → MemOk u := by
  intro u hu
  simp only [execOr, Host.Outcome.next.injEq] at hu
  subst hu
  simp (maxDischargeDepth := 200) +contextual only [implies_true, memOk_ite, memOk_mk, memOk_mem, memOk_dOp, h]
theorem memOk_execXor (e : Fin 64) (d a b : Fin 32) (last : Bool) (s : State) (h : MemOk s) : ∀ u, execXor e d a b last s = .next u → MemOk u := by
  intro u hu
  simp only [execXor, Host.Outcome.next.injEq] at hu
  subst hu
  simp (maxDischargeDepth := 200) +contextual only [implies_true, memOk_ite, memOk_mk, memOk_mem, memOk_dOp, h]
theorem memOk_execMin (e : Fin 64) (d a b : Fin 32) (last : Bool) (s : State) (h : MemOk s) : ∀ u, execMin e d a b last s = .next u → MemOk u := by
  intro u hu
  simp only [execMin, Host.Outcome.next.injEq] at hu
  subst hu
  simp (maxDischargeDepth := 200) +contextual only [implies_true, memOk_ite, memOk_mk, memOk_mem, memOk_dOp, h]
theorem memOk_execMax (e : Fin 64) (d a b : Fin 32) (last : Bool) (s : State) (h : MemOk s) : ∀ u, execMax e d a b last s = .next u → MemOk u := by
  intro u hu
  simp only [execMax, Host.Outcome.next.injEq] at hu
  subst hu
  simp (maxDischargeDepth := 200) +contextual only [implies_true, memOk_ite, memOk_mk, memOk_mem, memOk_dOp, h]
theorem memOk_execSel (e : Fin 64) (d a b : Fin 32) (last : Bool) (s : State) (h : MemOk s) : ∀ u, execSel e d a b last s = .next u → MemOk u := by
  intro u hu
  simp only [execSel, Host.Outcome.next.injEq] at hu
  subst hu
  simp (maxDischargeDepth := 200) +contextual only [implies_true, memOk_ite, memOk_mk, memOk_mem, memOk_dOp, h]
theorem memOk_execShl (e : Fin 64) (d a b : Fin 32) (last : Bool) (s : State) (h : MemOk s) : ∀ u, execShl e d a b last s = .next u → MemOk u := by
  intro u hu
  simp only [execShl, Host.Outcome.next.injEq] at hu
  subst hu
  simp (maxDischargeDepth := 200) +contextual only [implies_true, memOk_ite, memOk_mk, memOk_mem, memOk_dOp, h]
theorem memOk_execAsr (e : Fin 64) (d a b : Fin 32) (last : Bool) (s : State) (h : MemOk s) : ∀ u, execAsr e d a b last s = .next u → MemOk u := by
  intro u hu
  simp only [execAsr, Host.Outcome.next.injEq] at hu
  subst hu
  simp (maxDischargeDepth := 200) +contextual only [implies_true, memOk_ite, memOk_mk, memOk_mem, memOk_dOp, h]
theorem memOk_execMov (e : Fin 64) (d a : Fin 32) (last : Bool) (s : State) (h : MemOk s) : ∀ u, execMov e d a last s = .next u → MemOk u := by
  intro u hu
  simp only [execMov, Host.Outcome.next.injEq] at hu
  subst hu
  simp (maxDischargeDepth := 200) +contextual only [implies_true, memOk_ite, memOk_mk, memOk_mem, memOk_dOp, h]
theorem memOk_execNeg (e : Fin 64) (d a : Fin 32) (last : Bool) (s : State) (h : MemOk s) : ∀ u, execNeg e d a last s = .next u → MemOk u := by
  intro u hu
  simp only [execNeg, Host.Outcome.next.injEq] at hu
  subst hu
  simp (maxDischargeDepth := 200) +contextual only [implies_true, memOk_ite, memOk_mk, memOk_mem, memOk_dOp, h]
theorem memOk_execAbs (e : Fin 64) (d a : Fin 32) (last : Bool) (s : State) (h : MemOk s) : ∀ u, execAbs e d a last s = .next u → MemOk u := by
  intro u hu
  simp only [execAbs, Host.Outcome.next.injEq] at hu
  subst hu
  simp (maxDischargeDepth := 200) +contextual only [implies_true, memOk_ite, memOk_mk, memOk_mem, memOk_dOp, h]
theorem memOk_execSat24 (e : Fin 64) (d a : Fin 32) (last : Bool) (s : State) (h : MemOk s) : ∀ u, execSat24 e d a last s = .next u → MemOk u := by
  intro u hu
  simp only [execSat24, Host.Outcome.next.injEq] at hu
  subst hu
  simp (maxDischargeDepth := 200) +contextual only [implies_true, memOk_ite, memOk_mk, memOk_mem, memOk_dOp, h]
theorem memOk_execNot (e : Fin 64) (d a : Fin 32) (last : Bool) (s : State) (h : MemOk s) : ∀ u, execNot e d a last s = .next u → MemOk u := by
  intro u hu
  simp only [execNot, Host.Outcome.next.injEq] at hu
  subst hu
  simp (maxDischargeDepth := 200) +contextual only [implies_true, memOk_ite, memOk_mk, memOk_mem, memOk_dOp, h]
theorem memOk_execHdrm (e : Fin 64) (d a : Fin 32) (last : Bool) (s : State) (h : MemOk s) : ∀ u, execHdrm e d a last s = .next u → MemOk u := by
  intro u hu
  simp only [execHdrm, Host.Outcome.next.injEq] at hu
  subst hu
  simp (maxDischargeDepth := 200) +contextual only [implies_true, memOk_ite, memOk_mk, memOk_mem, memOk_dOp, h]
theorem memOk_execRflg (e : Fin 64) (d : Fin 32) (last : Bool) (s : State) (h : MemOk s) : ∀ u, execRflg e d last s = .next u → MemOk u := by
  intro u hu
  simp only [execRflg, Host.Outcome.next.injEq] at hu
  subst hu
  simp (maxDischargeDepth := 200) +contextual only [implies_true, memOk_ite, memOk_mk, memOk_mem, memOk_dOp, h]
theorem memOk_execGetwct (e : Fin 64) (d : Fin 32) (last : Bool) (s : State) (h : MemOk s) : ∀ u, execGetwct e d last s = .next u → MemOk u := by
  intro u hu
  simp only [execGetwct, Host.Outcome.next.injEq] at hu
  subst hu
  simp (maxDischargeDepth := 200) +contextual only [implies_true, memOk_ite, memOk_mk, memOk_mem, memOk_dOp, h]
theorem memOk_execClrcc (e : Fin 64) (last : Bool) (s : State) (h : MemOk s) : ∀ u, execClrcc e last s = .next u → MemOk u := by
  intro u hu
  simp only [execClrcc, Host.Outcome.next.injEq] at hu
  subst hu
  simp (maxDischargeDepth := 200) +contextual only [implies_true, memOk_ite, memOk_mk, memOk_mem, memOk_slotOp, h]
theorem memOk_execSetpa (e : Fin 64) (d a : Fin 32) (last : Bool) (s : State) (h : MemOk s) : ∀ u, execSetpa e d a last s = .next u → MemOk u := by
  intro u hu
  simp only [execSetpa, Host.Outcome.next.injEq] at hu
  subst hu
  simp (maxDischargeDepth := 200) +contextual only [implies_true, memOk_ite, memOk_mk, memOk_mem, memOk_slotOp, h]
theorem memOk_execSetpb (e : Fin 64) (d a : Fin 32) (last : Bool) (s : State) (h : MemOk s) : ∀ u, execSetpb e d a last s = .next u → MemOk u := by
  intro u hu
  simp only [execSetpb, Host.Outcome.next.injEq] at hu
  subst hu
  simp (maxDischargeDepth := 200) +contextual only [implies_true, memOk_ite, memOk_mk, memOk_mem, memOk_slotOp, h]
theorem memOk_execSetpl (e : Fin 64) (d a : Fin 32) (last : Bool) (s : State) (h : MemOk s) : ∀ u, execSetpl e d a last s = .next u → MemOk u := by
  intro u hu
  simp only [execSetpl, Host.Outcome.next.injEq] at hu
  subst hu
  simp (maxDischargeDepth := 200) +contextual only [implies_true, memOk_ite, memOk_mk, memOk_mem, memOk_slotOp, h]
theorem memOk_execSetpm (e : Fin 64) (d a : Fin 32) (last : Bool) (s : State) (h : MemOk s) : ∀ u, execSetpm e d a last s = .next u → MemOk u := by
  intro u hu
  simp only [execSetpm, Host.Outcome.next.injEq] at hu
  subst hu
  simp (maxDischargeDepth := 200) +contextual only [implies_true, memOk_ite, memOk_mk, memOk_mem, memOk_slotOp, h]
theorem memOk_execGetpa (e : Fin 64) (d a : Fin 32) (last : Bool) (s : State) (h : MemOk s) : ∀ u, execGetpa e d a last s = .next u → MemOk u := by
  intro u hu
  simp only [execGetpa, Host.Outcome.next.injEq] at hu
  subst hu
  simp (maxDischargeDepth := 200) +contextual only [implies_true, memOk_ite, memOk_mk, memOk_mem, memOk_dgOp, h]
theorem memOk_execGetlc (e : Fin 64) (d a : Fin 32) (last : Bool) (s : State) (h : MemOk s) : ∀ u, execGetlc e d a last s = .next u → MemOk u := by
  intro u hu
  simp only [execGetlc, Host.Outcome.next.injEq] at hu
  subst hu
  simp (maxDischargeDepth := 200) +contextual only [implies_true, memOk_ite, memOk_mk, memOk_mem, memOk_dgOp, h]
theorem memOk_execCmp (e : Fin 64) (a b : Fin 32) (last : Bool) (s : State) (h : MemOk s) : ∀ u, execCmp e a b last s = .next u → MemOk u := by
  intro u hu
  simp only [execCmp, Host.Outcome.next.injEq] at hu
  subst hu
  simp (maxDischargeDepth := 200) +contextual only [implies_true, memOk_ite, memOk_mk, memOk_mem, memOk_slotOp, h]
theorem memOk_clmOp (s : State) (e : Fin 64) (last : Bool) (a b : Fin 32) (scale : Nat) (f : Engine → Nat → Eff) (h : MemOk s) : MemOk (clmOp s e last a b scale f) := by
  simp (maxDischargeDepth := 200) +contextual only [clmOp, implies_true, memOk_ite, memOk_mk, memOk_mem, memOk_slotOp, h]
theorem memOk_execLdc (e : Fin 64) (d a b : Fin 32) (last : Bool) (s : State) (h : MemOk s) : ∀ u, execLdc e d a b last s = .next u → MemOk u := by
  intro u hu
  simp only [execLdc, Host.Outcome.next.injEq] at hu
  subst hu
  simp (maxDischargeDepth := 200) +contextual only [implies_true, memOk_ite, memOk_mk, memOk_mem, memOk_clmOp, h]
theorem memOk_execStc (e : Fin 64) (d a b : Fin 32) (last : Bool) (s : State) (h : MemOk s) : ∀ u, execStc e d a b last s = .next u → MemOk u := by
  intro u hu
  simp only [execStc, Host.Outcome.next.injEq] at hu
  subst hu
  simp (maxDischargeDepth := 200) +contextual only [implies_true, memOk_ite, memOk_mk, memOk_mem, memOk_clmOp, h]
theorem memOk_execLdcg (e : Fin 64) (d : Fin 16) (a b : Fin 32) (last : Bool) (s : State) (h : MemOk s) : ∀ u, execLdcg e d a b last s = .next u → MemOk u := by
  intro u hu
  simp only [execLdcg, Host.Outcome.next.injEq] at hu
  subst hu
  simp (maxDischargeDepth := 200) +contextual only [implies_true, memOk_ite, memOk_mk, memOk_mem, memOk_clmOp, h]
theorem memOk_execStcg (e : Fin 64) (d : Fin 16) (a b : Fin 32) (last : Bool) (s : State) (h : MemOk s) : ∀ u, execStcg e d a b last s = .next u → MemOk u := by
  intro u hu
  simp only [execStcg, Host.Outcome.next.injEq] at hu
  subst hu
  simp (maxDischargeDepth := 200) +contextual only [implies_true, memOk_ite, memOk_mk, memOk_mem, memOk_clmOp, h]
theorem memOk_execGadd (e : Fin 64) (d a b : Fin 16) (last : Bool) (s : State) (h : MemOk s) : ∀ u, execGadd e d a b last s = .next u → MemOk u := by
  intro u hu
  simp only [execGadd, Host.Outcome.next.injEq] at hu
  subst hu
  simp (maxDischargeDepth := 200) +contextual only [implies_true, memOk_ite, memOk_mk, memOk_mem, memOk_gOp, h]
theorem memOk_execGsub (e : Fin 64) (d a b : Fin 16) (last : Bool) (s : State) (h : MemOk s) : ∀ u, execGsub e d a b last s = .next u → MemOk u := by
  intro u hu
  simp only [execGsub, Host.Outcome.next.injEq] at hu
  subst hu
  simp (maxDischargeDepth := 200) +contextual only [implies_true, memOk_ite, memOk_mk, memOk_mem, memOk_gOp, h]
theorem memOk_execGmov (e : Fin 64) (d a : Fin 32) (last : Bool) (s : State) (h : MemOk s) : ∀ u, execGmov e d a last s = .next u → MemOk u := by
  intro u hu
  simp only [execGmov, Host.Outcome.next.injEq] at hu
  subst hu
  simp (maxDischargeDepth := 200) +contextual only [implies_true, memOk_ite, memOk_mk, memOk_mem, memOk_gOp, h]
theorem memOk_execGneg (e : Fin 64) (d a : Fin 32) (last : Bool) (s : State) (h : MemOk s) : ∀ u, execGneg e d a last s = .next u → MemOk u := by
  intro u hu
  simp only [execGneg, Host.Outcome.next.injEq] at hu
  subst hu
  simp (maxDischargeDepth := 200) +contextual only [implies_true, memOk_ite, memOk_mk, memOk_mem, memOk_gOp, h]
theorem memOk_execGcmp (e : Fin 64) (d a : Fin 32) (last : Bool) (s : State) (h : MemOk s) : ∀ u, execGcmp e d a last s = .next u → MemOk u := by
  intro u hu
  simp only [execGcmp, Host.Outcome.next.injEq] at hu
  subst hu
  simp (maxDischargeDepth := 200) +contextual only [implies_true, memOk_ite, memOk_mk, memOk_mem, memOk_slotOp, h]
theorem memOk_execGsxd (e : Fin 64) (d a : Fin 32) (last : Bool) (s : State) (h : MemOk s) : ∀ u, execGsxd e d a last s = .next u → MemOk u := by
  intro u hu
  simp only [execGsxd, Host.Outcome.next.injEq] at hu
  subst hu
  simp (maxDischargeDepth := 200) +contextual only [implies_true, memOk_ite, memOk_mk, memOk_mem, memOk_gOp, h]
theorem memOk_execGlo (e : Fin 64) (d a : Fin 32) (last : Bool) (s : State) (h : MemOk s) : ∀ u, execGlo e d a last s = .next u → MemOk u := by
  intro u hu
  simp only [execGlo, Host.Outcome.next.injEq] at hu
  subst hu
  simp (maxDischargeDepth := 200) +contextual only [implies_true, memOk_ite, memOk_mk, memOk_mem, memOk_dgOp, h]
theorem memOk_execGhi (e : Fin 64) (d a : Fin 32) (last : Bool) (s : State) (h : MemOk s) : ∀ u, execGhi e d a last s = .next u → MemOk u := by
  intro u hu
  simp only [execGhi, Host.Outcome.next.injEq] at hu
  subst hu
  simp (maxDischargeDepth := 200) +contextual only [implies_true, memOk_ite, memOk_mk, memOk_mem, memOk_dgOp, h]
theorem memOk_execGseth (e : Fin 64) (d a : Fin 32) (last : Bool) (s : State) (h : MemOk s) : ∀ u, execGseth e d a last s = .next u → MemOk u := by
  intro u hu
  simp only [execGseth, Host.Outcome.next.injEq] at hu
  subst hu
  simp (maxDischargeDepth := 200) +contextual only [implies_true, memOk_ite, memOk_mk, memOk_mem, memOk_gOp, h]
theorem memOk_execRstv (e : Fin 64) (d : Fin 32) (last : Bool) (s : State) (h : MemOk s) : ∀ u, execRstv e d last s = .next u → MemOk u := by
  intro u hu
  simp only [execRstv, Host.Outcome.next.injEq] at hu
  subst hu
  simp (maxDischargeDepth := 200) +contextual only [implies_true, memOk_ite, memOk_mk, memOk_mem, memOk_gOp, h]
theorem memOk_execGsh (e : Fin 64) (dir : Bool) (d a : Fin 16) (n : Fin 64) (last : Bool) (s : State) (h : MemOk s) : ∀ u, execGsh e dir d a n last s = .next u → MemOk u := by
  intro u hu
  simp only [execGsh, Host.Outcome.next.injEq] at hu
  subst hu
  simp (maxDischargeDepth := 200) +contextual only [implies_true, memOk_ite, memOk_mk, memOk_mem, memOk_gOp, h]
theorem memOk_execGmul (e : Fin 64) (d a : Fin 16) (b : Fin 32) (last : Bool) (s : State) (h : MemOk s) : ∀ u, execGmul e d a b last s = .next u → MemOk u := by
  intro u hu
  simp only [execGmul, Host.Outcome.next.injEq] at hu
  subst hu
  simp (maxDischargeDepth := 200) +contextual only [implies_true, memOk_ite, memOk_mk, memOk_mem, memOk_gOp, h]
theorem memOk_execGdiv (e : Fin 64) (d a : Fin 16) (b : Fin 32) (last : Bool) (s : State) (h : MemOk s) : ∀ u, execGdiv e d a b last s = .next u → MemOk u := by
  intro u hu
  simp only [execGdiv, Host.Outcome.next.injEq] at hu
  subst hu
  simp (maxDischargeDepth := 200) +contextual only [implies_true, memOk_ite, memOk_mk, memOk_mem, memOk_slotOp, h]
theorem memOk_execB2f (e : Fin 64) (d a : Fin 32) (k : Fin 8) (last : Bool) (s : State) (h : MemOk s) : ∀ u, execB2f e d a k last s = .next u → MemOk u := by
  intro u hu
  simp only [execB2f, Host.Outcome.next.injEq] at hu
  subst hu
  simp (maxDischargeDepth := 200) +contextual only [implies_true, memOk_ite, memOk_mk, memOk_mem, memOk_slotOp, h]
theorem memOk_execF2b (e : Fin 64) (d a : Fin 32) (k : Fin 8) (last : Bool) (s : State) (h : MemOk s) : ∀ u, execF2b e d a k last s = .next u → MemOk u := by
  intro u hu
  simp only [execF2b, Host.Outcome.next.injEq] at hu
  subst hu
  simp (maxDischargeDepth := 200) +contextual only [implies_true, memOk_ite, memOk_mk, memOk_mem, memOk_slotOp, h]
theorem memOk_execRda (e : Fin 64) (dn : Fin 32) (k : Fin 4) (sh : BitVec 5) (s24 : Bool) (last : Bool) (s : State) (h : MemOk s) : ∀ u, execRda e dn k sh s24 last s = .next u → MemOk u := by
  intro u hu
  simp only [execRda, Host.Outcome.next.injEq] at hu
  subst hu
  simp (maxDischargeDepth := 200) +contextual only [implies_true, memOk_ite, memOk_mk, memOk_mem, memOk_slotOp, h]
theorem memOk_execCvtf (e : Fin 64) (d : Fin 32) (a : Fin 16) (xs xk : Fin 8) (last : Bool) (s : State) (h : MemOk s) : ∀ u, execCvtf e d a xs xk last s = .next u → MemOk u := by
  intro u hu
  simp only [execCvtf, Host.Outcome.next.injEq] at hu
  subst hu
  simp (maxDischargeDepth := 200) +contextual only [implies_true, memOk_ite, memOk_mk, memOk_mem, memOk_slotOp, h]
theorem memOk_execCvti (e : Fin 64) (d : Fin 16) (a : Fin 32) (xa xs : Fin 8) (last : Bool) (s : State) (h : MemOk s) : ∀ u, execCvti e d a xa xs last s = .next u → MemOk u := by
  intro u hu
  simp only [execCvti, Host.Outcome.next.injEq] at hu
  subst hu
  simp (maxDischargeDepth := 200) +contextual only [implies_true, memOk_ite, memOk_mk, memOk_mem, memOk_slotOp, h]

/-! ## LeExp -/

theorem memOk_xOp (s : State) (e : Fin 64) (last : Bool) (d : Fin 8) (v : Engine → Int) (h : MemOk s) : MemOk (xOp s e last d v) := by
  simp (maxDischargeDepth := 200) +contextual only [xOp, implies_true, memOk_ite, memOk_mk, memOk_mem, memOk_slotOp, h]
theorem memOk_execAddx (e : Fin 64) (d a b : Fin 8) (last : Bool) (s : State) (h : MemOk s) : ∀ u, execAddx e d a b last s = .next u → MemOk u := by
  intro u hu
  simp only [execAddx, Host.Outcome.next.injEq] at hu
  subst hu
  simp (maxDischargeDepth := 200) +contextual only [implies_true, memOk_ite, memOk_mk, memOk_mem, memOk_xOp, h]
theorem memOk_execSubx (e : Fin 64) (d a b : Fin 8) (last : Bool) (s : State) (h : MemOk s) : ∀ u, execSubx e d a b last s = .next u → MemOk u := by
  intro u hu
  simp only [execSubx, Host.Outcome.next.injEq] at hu
  subst hu
  simp (maxDischargeDepth := 200) +contextual only [implies_true, memOk_ite, memOk_mk, memOk_mem, memOk_xOp, h]
theorem memOk_execMaxx (e : Fin 64) (d a b : Fin 8) (last : Bool) (s : State) (h : MemOk s) : ∀ u, execMaxx e d a b last s = .next u → MemOk u := by
  intro u hu
  simp only [execMaxx, Host.Outcome.next.injEq] at hu
  subst hu
  simp (maxDischargeDepth := 200) +contextual only [implies_true, memOk_ite, memOk_mk, memOk_mem, memOk_xOp, h]
theorem memOk_execMinx (e : Fin 64) (d a b : Fin 8) (last : Bool) (s : State) (h : MemOk s) : ∀ u, execMinx e d a b last s = .next u → MemOk u := by
  intro u hu
  simp only [execMinx, Host.Outcome.next.injEq] at hu
  subst hu
  simp (maxDischargeDepth := 200) +contextual only [implies_true, memOk_ite, memOk_mk, memOk_mem, memOk_xOp, h]
theorem memOk_execMovxd (e : Fin 64) (d : Fin 8) (a : Fin 32) (last : Bool) (s : State) (h : MemOk s) : ∀ u, execMovxd e d a last s = .next u → MemOk u := by
  intro u hu
  simp only [execMovxd, Host.Outcome.next.injEq] at hu
  subst hu
  simp (maxDischargeDepth := 200) +contextual only [implies_true, memOk_ite, memOk_mk, memOk_mem, memOk_xOp, h]
theorem memOk_execMovdx (e : Fin 64) (d : Fin 32) (a : Fin 8) (last : Bool) (s : State) (h : MemOk s) : ∀ u, execMovdx e d a last s = .next u → MemOk u := by
  intro u hu
  simp only [execMovdx, Host.Outcome.next.injEq] at hu
  subst hu
  simp (maxDischargeDepth := 200) +contextual only [implies_true, memOk_ite, memOk_mk, memOk_mem, memOk_dOp, h]
theorem memOk_execNorm (e : Fin 64) (dn : Fin 32) (c m : Fin 8) (last : Bool) (s : State) (h : MemOk s) : ∀ u, execNorm e dn c m last s = .next u → MemOk u := by
  intro u hu
  simp only [execNorm, Host.Outcome.next.injEq] at hu
  subst hu
  simp (maxDischargeDepth := 200) +contextual only [implies_true, memOk_ite, memOk_mk, memOk_mem, memOk_foldl, memOk_foldl_fst, memOk_foldl_snd, memOk_slotOp, h]
theorem memOk_execAln (e : Fin 64) (d : Fin 32) (xa xb : Fin 8) (last : Bool) (s : State) (h : MemOk s) : ∀ u, execAln e d xa xb last s = .next u → MemOk u := by
  intro u hu
  simp only [execAln, Host.Outcome.next.injEq] at hu
  subst hu
  simp (maxDischargeDepth := 200) +contextual only [implies_true, memOk_ite, memOk_mk, memOk_mem, memOk_slotOp, h]

/-! ## AxisOps -/

theorem memOk_setAxis (s : State) (a : Nat) (x : AxisSt) (h : MemOk s) : MemOk (setAxis s a x) := by
  simp (maxDischargeDepth := 200) +contextual only [setAxis, implies_true, memOk_ite, memOk_mk, memOk_mem, h]
theorem memOk_setMot (s : State) (c : Nat) (x : MotSt) (h : MemOk s) : MemOk (setMot s c x) := by
  simp (maxDischargeDepth := 200) +contextual only [setMot, implies_true, memOk_ite, memOk_mk, memOk_mem, h]
theorem memOk_setMotWord (s : State) (c b i v : Nat) (h : MemOk s) : MemOk (setMotWord s c b i v) := by
  simp (maxDischargeDepth := 200) +contextual only [setMotWord, implies_true, memOk_ite, memOk_mk, memOk_mem, h]
theorem memOk_askStop (s : State) (due : Nat) (ch : Option Nat) (grade : Nat) (lost : Bool) (h : MemOk s) : MemOk (askStop s due ch grade lost) := by
  simp (maxDischargeDepth := 200) +contextual only [askStop, implies_true, memOk_ite, memOk_mk, memOk_mem, h]
theorem memOk_libStop (s : State) (c grade : Nat) (h : MemOk s) : MemOk (libStop s c grade) := by
  simp (maxDischargeDepth := 200) +contextual only [libStop, implies_true, memOk_ite, memOk_mk, memOk_mem, memOk_askStop, h]
theorem memOk_faultReaction (s : State) (a : Nat) (h : MemOk s) : MemOk (faultReaction s a) := by
  simp (maxDischargeDepth := 200) +contextual only [faultReaction, implies_true, memOk_ite, memOk_mk, memOk_mem, memOk_libStop, h]
theorem memOk_axisFault (s : State) (a bit : Nat) (h : MemOk s) : MemOk (axisFault s a bit) := by
  simp (maxDischargeDepth := 200) +contextual only [axisFault, implies_true, memOk_ite, memOk_mk, memOk_mem, memOk_post, h]

/-! ## MotionOps -/

theorem memOk_runEngage (s : State) (c : Nat) (x : MotSt) (m : Int) (h : MemOk s) : MemOk (runEngage s c x m).1 := by
  unfold runEngage
  split <;> simp (maxDischargeDepth := 200) +contextual only [implies_true, memOk_ite, memOk_mk, memOk_mem, memOk_post, h]
theorem memOk_runGear (s : State) (c : Nat) (x : MotSt) (m : Int) (h : MemOk s) : MemOk (runGear s c x m).1 := by
  unfold runGear
  dsimp only
  repeat' split
  all_goals simp (maxDischargeDepth := 200) +contextual only [implies_true, memOk_ite, memOk_mk, memOk_mem, memOk_free, memOk_libStop, h]
theorem memOk_runChan (s : State) (c : Nat) (h : MemOk s) : MemOk (runChan s c).1 := by
  unfold runChan
  dsimp only
  repeat' split
  all_goals simp (maxDischargeDepth := 200) +contextual only [implies_true, memOk_ite, memOk_mk, memOk_mem, memOk_runEngage, memOk_runGear, h]
theorem memOk_settleStop (s : State) (c : Nat) (h : MemOk s) : MemOk (settleStop s c) := by
  simp (maxDischargeDepth := 200) +contextual only [settleStop, implies_true, memOk_ite, memOk_mk, memOk_mem, memOk_foldl, memOk_foldl_fst, memOk_foldl_snd, memOk_setMot, h]
theorem memOk_genRun (s : State) (c : Nat) (h : MemOk s) : MemOk (genRun s c).1 := by
  unfold genRun
  split <;> simp (maxDischargeDepth := 200) +contextual only [implies_true, memOk_ite, memOk_mk, memOk_mem, memOk_runChan, memOk_setMot, memOk_settleStop, h]
theorem memOk_stopChan (s : State) (c g : Nat) (d : Int) (ext : Bool) (h : MemOk s) : MemOk (stopChan s c g d ext) := by
  simp (maxDischargeDepth := 200) +contextual only [stopChan, implies_true, memOk_ite, memOk_mk, memOk_mem, memOk_setMot, h]
theorem memOk_losePath (s : State) (c : Nat) (h : MemOk s) : MemOk (losePath s c) := by
  simp (maxDischargeDepth := 200) +contextual only [losePath, implies_true, memOk_ite, memOk_mk, memOk_mem, memOk_foldl, memOk_foldl_fst, memOk_foldl_snd, memOk_setMot, h]
theorem memOk_stopGroup (s : State) (c g : Nat) (h : MemOk s) : MemOk (stopGroup s c g) := by
  simp (maxDischargeDepth := 200) +contextual only [stopGroup, implies_true, memOk_ite, memOk_mk, memOk_mem, memOk_foldl, memOk_foldl_fst, memOk_foldl_snd, memOk_stopChan, h]
theorem memOk_applyStops (s : State) (n : Nat) (h : MemOk s) : MemOk (applyStops s n) := by
  have key : ∀ (l : List StopReq) (s : State) (g : Nat), MemOk s → MemOk (l.foldl (fun s r =>
      if r.grade = g then
        match r.ch with
        | some c => if motEn s c then (let s := if g = 0 then s else stopGroup s c g; if r.lost then losePath s c else s) else s
        | none => (chans s).foldl (fun s c => stopGroup s c g) s
      else s) s) := by
    intro l s g h
    apply memOk_foldl (h := h)
    intro s r h
    split
    · split
      · simp (maxDischargeDepth := 200) +contextual only [memOk_ite, memOk_stopGroup, memOk_losePath, h]
      · exact memOk_foldl (fun s x h => memOk_stopGroup _ _ _ h) _ h
    · exact h
  simp only [applyStops]
  exact key _ _ _ (key _ _ _ (key _ _ _ (key _ _ _ h)))
theorem memOk_applyClr (s : State) (n : Nat) (h : MemOk s) : MemOk (applyClr s n) := by
  simp (maxDischargeDepth := 200) +contextual only [applyClr, implies_true, memOk_ite, memOk_mk, memOk_mem, memOk_foldl, memOk_foldl_fst, memOk_foldl_snd, memOk_setMot, h]
theorem memOk_clearLost (s : State) (h : MemOk s) : MemOk (clearLost s) := by
  simp (maxDischargeDepth := 200) +contextual only [clearLost, implies_true, memOk_ite, memOk_mk, memOk_mem, memOk_foldl, memOk_foldl_fst, memOk_foldl_snd, memOk_setMot, h]
theorem memOk_groupStage (s : State) (c : Nat) (len : Int) (h : MemOk s) : MemOk (groupStage s c len) := by
  simp (maxDischargeDepth := 200) +contextual only [groupStage, implies_true, memOk_ite, memOk_mk, memOk_mem, memOk_foldl, memOk_foldl_fst, memOk_foldl_snd, memOk_setMot, h]
theorem memOk_reregShift (s : State) (c : Nat) (h : MemOk s) : MemOk (reregShift s c) := by
  simp (maxDischargeDepth := 200) +contextual only [reregShift, implies_true, memOk_ite, memOk_mk, memOk_mem, memOk_setMot, h]
theorem memOk_groupGo (s : State) (c : Nat) (k : MotCmd) (h : MemOk s) : MemOk (groupGo s c k) := by
  simp (maxDischargeDepth := 200) +contextual only [groupGo, implies_true, memOk_ite, memOk_mk, memOk_mem, memOk_foldl, memOk_foldl_fst, memOk_foldl_snd, memOk_groupStage, memOk_setMot, h]
theorem memOk_cmdEffect (s : State) (c : Nat) (k : MotCmd) (h : MemOk s) : MemOk (cmdEffect s c k) := by
  unfold cmdEffect
  dsimp only
  repeat' split
  all_goals simp (maxDischargeDepth := 200) +contextual only [implies_true, memOk_ite, memOk_mk, memOk_mem, memOk_groupGo, memOk_reregShift, memOk_setMot, h]
theorem memOk_applyCmds (s : State) (n : Nat) (acted : Nat → Bool) (h : MemOk s) : MemOk (applyCmds s n acted) := by
  unfold applyCmds
  refine memOk_foldl (fun s c h => ?_) _ h
  split
  · refine memOk_ite ?_ h
    have h1 := memOk_setMot s c { mot s c with cmd := none } h
    exact memOk_ite (memOk_postOther _ _ h1) (memOk_ite h1 (memOk_cmdEffect _ _ _ h1))
  · exact h
theorem memOk_planCmds (s : State) (h : MemOk s) : MemOk (planCmds s) := by
  unfold planCmds
  refine memOk_foldl (fun s c h => ?_) _ h
  split
  · refine memOk_ite ?_ h
    split
    · exact memOk_noteItem _ _ (memOk_setMot _ _ _ h)
    · exact h
  · exact h
theorem memOk_takePlan (s : State) (c due : Nat) (z : PlanSt) (h : MemOk s) : MemOk (takePlan s c due z) := by
  unfold takePlan
  split <;> simp (maxDischargeDepth := 200) +contextual only [implies_true, memOk_ite, memOk_mk, memOk_mem, memOk_setMot, h]
theorem memOk_motionBoundary (s : State) (n : Nat) (h : MemOk s) : MemOk (motionBoundary s n) := by
  unfold motionBoundary
  dsimp only
  repeat' split
  all_goals simp (maxDischargeDepth := 200) +contextual only [implies_true, memOk_ite, memOk_mk, memOk_mem, memOk_applyClr, memOk_applyCmds, memOk_applyStops, memOk_clearLost, h]

/-! ## AxisLaw -/

theorem memOk_fbTask (s : State) (a : Nat) (h : MemOk s) : MemOk (fbTask s a).1 := by
  have he : ∀ s', MemOk s' → MemOk (fbTask.incErrPage s a s') := by
    intro s' h'
    unfold fbTask.incErrPage
    exact memOk_ite (memOk_setStat _ _ h') h'
  unfold fbTask
  dsimp only
  repeat' split
  all_goals simp (maxDischargeDepth := 200) +contextual only [memOk_ite, memOk_faultReaction, memOk_axisFault, memOk_setAxis, memOk_libStop, he, h]
theorem memOk_reAnchor (s : State) (a : Nat) (h : MemOk s) : MemOk (reAnchor s a) := by
  simp (maxDischargeDepth := 200) +contextual only [reAnchor, implies_true, memOk_ite, memOk_mk, memOk_mem, memOk_setMot, h]
theorem memOk_posTask (s : State) (a : Nat) (h : MemOk s) : MemOk (posTask s a).1 := by
  unfold posTask
  split <;> simp (maxDischargeDepth := 200) +contextual only [implies_true, memOk_ite, memOk_mk, memOk_mem, memOk_axisFault, memOk_faultReaction, memOk_genRun, memOk_reAnchor, memOk_setAxis, h]
theorem memOk_tenTask (s : State) (a : Nat) (h : MemOk s) : MemOk (tenTask s a).1 := by
  unfold tenTask
  split <;> simp (maxDischargeDepth := 200) +contextual only [implies_true, memOk_ite, memOk_mk, memOk_mem, memOk_setAxis, h]
theorem memOk_thirdTask (s : State) (a : Nat) (h : MemOk s) : MemOk (thirdTask s a).1 := by
  unfold thirdTask
  dsimp only
  repeat' split
  all_goals simp (maxDischargeDepth := 200) +contextual only [implies_true, memOk_ite, memOk_mk, memOk_mem, memOk_setAxis, h]
theorem memOk_velTask (s : State) (a : Nat) (h : MemOk s) : MemOk (velTask s a).1 := by
  unfold velTask
  split <;> simp (maxDischargeDepth := 200) +contextual only [implies_true, memOk_ite, memOk_mk, memOk_mem, memOk_setAxis, h]
theorem memOk_libRun (s : State) (l : LibTask) (a : Option Nat) (h : MemOk s) : MemOk (libRun s l a).1 := by
  unfold libRun
  split <;> simp (maxDischargeDepth := 200) +contextual only [implies_true, memOk_ite, memOk_mk, memOk_mem, memOk_fbTask, memOk_genRun, memOk_posTask, memOk_tenTask, memOk_thirdTask, memOk_velTask, h]
theorem memOk_reinit (s : State) (a : Nat) (h : MemOk s) : MemOk (reinit s a) := by
  simp (maxDischargeDepth := 200) +contextual only [reinit, implies_true, memOk_ite, memOk_mk, memOk_mem, memOk_losePath, memOk_setAxis, h]
theorem memOk_afterAxisCommit (s : State) (a b : Nat) (h : MemOk s) : MemOk (afterAxisCommit s a b) := by
  simp (maxDischargeDepth := 200) +contextual only [afterAxisCommit, implies_true, memOk_ite, memOk_mk, memOk_mem, memOk_reinit, memOk_setAxis, h]
theorem memOk_markAxis (s : State) (a : Nat) (h : MemOk s) : MemOk (markAxis s a) := by
  simp (maxDischargeDepth := 200) +contextual only [markAxis, implies_true, memOk_ite, memOk_mk, memOk_mem, memOk_setAxis, h]
theorem memOk_markPeriod (s : State) (h : MemOk s) : MemOk (markPeriod s) := by
  simp (maxDischargeDepth := 200) +contextual only [markPeriod, implies_true, memOk_ite, memOk_mk, memOk_mem, memOk_foldl, memOk_foldl_fst, memOk_foldl_snd, memOk_markAxis, h]

/-! ## LeCtl -/

theorem memOk_execB (e : Fin 64) (cond : Fin 32) (t : Fin 2048) (s : State) (h : MemOk s) : ∀ u, execB e cond t s = .next u → MemOk u := by
  intro u e
  have e := Host.Outcome.next.inj e
  subst e
  exact memOk_branchOp _ _ _ _ (fun _ h => h) h
theorem memOk_execCall (e : Fin 64) (t : Fin 2048) (s : State) (h : MemOk s) : ∀ u, execCall e t s = .next u → MemOk u := by
  intro u e
  have e := Host.Outcome.next.inj e
  subst e
  exact memOk_branchOp _ _ _ _ (fun _ h => h) h
theorem memOk_execRet (e : Fin 64) (s : State) (h : MemOk s) : ∀ u, execRet e s = .next u → MemOk u := by
  intro u e
  have e := Host.Outcome.next.inj e
  subst e
  exact memOk_branchOp _ _ _ _ (fun _ h => h) h
theorem memOk_execEvt (e : Fin 64) (reg : Bool) (da flag : Fin 32) (t : BitVec 13) (s : State) (h : MemOk s) :
    ∀ u, execEvt e reg da flag t s = .next u → MemOk u := by
  intro u e
  have e := Host.Outcome.next.inj e
  subst e
  exact memOk_branchOp _ _ _ _ (fun _ h => memOk_postItem _ _ _ h) h
theorem memOk_markNumeric (s : State) (t : Nat) (h : MemOk s) : MemOk (markNumeric s t) := by
  unfold markNumeric
  split <;> simp (maxDischargeDepth := 200) +contextual only [implies_true, memOk_ite, memOk_mk, memOk_mem, memOk_raise, h]
theorem memOk_doneEnd (lib : LibTask) (e pc : Nat) (s : State) (h : MemOk s) : MemOk (doneEnd lib e pc s) := by
  have hl := memOk_libRun s lib (tdAxis s (bank s) (eng s e).task) h
  simp only [doneEnd]
  simp (maxDischargeDepth := 200) +contextual only [memOk_ite, memOk_setEng, memOk_incCnt, memOk_markNumeric, hl, h]
theorem memOk_execDone (e : Fin 64) (lib : LibTask) (s : State) (h : MemOk s) : ∀ u, execDone e lib s = .next u → MemOk u := by
  intro u hu
  simp only [execDone, Host.Outcome.next.injEq] at hu
  subst hu
  simp (maxDischargeDepth := 200) +contextual only [implies_true, memOk_ite, memOk_mk, memOk_mem, memOk_branchOp, memOk_doneEnd, h]
theorem memOk_yieldEnd (e : Nat) (s : State) (h : MemOk s) : MemOk (yieldEnd e s) := by
  simp (maxDischargeDepth := 200) +contextual only [yieldEnd, implies_true, memOk_ite, memOk_mk, memOk_mem, memOk_incCnt, memOk_postItem, memOk_setEng, h]
theorem memOk_execYield (e : Fin 64) (s : State) (h : MemOk s) : ∀ u, execYield e s = .next u → MemOk u := by
  intro u hu
  simp only [execYield, Host.Outcome.next.injEq] at hu
  subst hu
  simp (maxDischargeDepth := 200) +contextual only [implies_true, memOk_ite, memOk_mk, memOk_mem, memOk_branchOp, memOk_yieldEnd, h]
theorem memOk_execLockup (e : Fin 64) (s : State) (h : MemOk s) : ∀ u, execLockup e s = .next u → MemOk u := by
  intro u hu
  simp only [execLockup, Host.Outcome.next.injEq] at hu
  subst hu
  simp (maxDischargeDepth := 200) +contextual only [implies_true, memOk_ite, memOk_mk, memOk_mem, memOk_engineFault, memOk_setEng, h]
theorem memOk_holdLoad (was s : State) (m : Master) (e : Nat) (h : MemOk was) (h2 : MemOk s) : MemOk (holdLoad was s m e) := by
  simp (maxDischargeDepth := 200) +contextual only [holdLoad, implies_true, memOk_ite, memOk_mk, memOk_mem, memOk_errlog, memOk_wr, h, h2]
theorem memOk_execClrFault (m : Master) (e : Fin 64) (w : W32) (s : State) (h : MemOk s) : ∀ u, execClrFault m e w s = .next u → MemOk u := by
  intro u hu
  simp only [execClrFault, Host.Outcome.next.injEq] at hu
  subst hu
  simp (maxDischargeDepth := 200) +contextual only [implies_true, memOk_ite, memOk_mk, memOk_mem, memOk_capacityCheck, memOk_holdLoad, memOk_regAction, memOk_setEng, memOk_wr, h]

/-! ## Sched -/

theorem memOk_execDelayListRelease (c : Fin 4) (s : State) (h : MemOk s) : ∀ u, execDelayListRelease c s = .next u → MemOk u := by
  intro u hu
  simp only [execDelayListRelease, Host.Outcome.next.injEq] at hu
  subst hu
  repeat' split
  all_goals simp (maxDischargeDepth := 200) +contextual only [implies_true, memOk_ite, memOk_mk, memOk_mem, memOk_foldl, memOk_foldl_fst, memOk_foldl_snd, memOk_postItem, h]
theorem memOk_execClockGateClose (c : Fin 4) (clocks : W32) (s : State) (h : MemOk s) : ∀ u, execClockGateClose c clocks s = .next u → MemOk u := by
  intro u hu
  simp only [execClockGateClose, Host.Outcome.next.injEq] at hu
  subst hu
  simp (maxDischargeDepth := 200) +contextual only [implies_true, memOk_ite, memOk_mk, memOk_mem, h]
theorem memOk_startTask (s : State) (e : Nat) (k : Tok) (h : MemOk s) : MemOk (startTask s e k) := by
  simp (maxDischargeDepth := 200) +contextual only [startTask, implies_true, memOk_ite, memOk_mk, memOk_mem, memOk_setEng, h]
theorem memOk_freeBytes (n : Nat) (s : State) (h : MemOk s) : MemOk (freeBytes s n).2 := by
  induction n generalizing s with
  | zero => exact h
  | succ n ih => exact ih _ (memOk_free s h)
theorem memOk_execContextSaveDone (e : Fin 64) (s : State) (h : MemOk s) : ∀ u, execContextSaveDone e s = .next u → MemOk u := by
  intro u hu
  have hu := Host.Outcome.next.inj hu
  subst hu
  extract_lets x sv f s1 s2
  refine memOk_ite ?_ h
  have h1 : MemOk s1 := memOk_mwrite _ _ (memOk_freeBytes _ _ h)
  have h2 : MemOk s2 := memOk_setEng _ _ _ h1
  split
  · exact memOk_startTask _ _ _ h2
  · exact h2
theorem memOk_execContextRestoreDone (e : Fin 64) (s : State) (h : MemOk s) : ∀ u, execContextRestoreDone e s = .next u → MemOk u := by
  intro u hu
  have hu := Host.Outcome.next.inj hu
  subst hu
  extract_lets x
  split
  · exact memOk_tryPreempt _ _ (memOk_setEng _ _ _ h)
  · exact h
theorem memOk_dropTok (s : State) (c p : Nat) (k : Tok) (h : MemOk s) : MemOk (dropTok s c p k) := by
  simp (maxDischargeDepth := 200) +contextual only [dropTok, implies_true, memOk_ite, memOk_mk, memOk_mem, memOk_setWell, h]
theorem memOk_takeWork (s : State) (e : Nat) (h : MemOk s) : MemOk (takeWork s e) := by
  unfold takeWork
  dsimp only
  repeat' split
  all_goals simp (maxDischargeDepth := 200) +contextual only [implies_true, memOk_ite, memOk_mk, memOk_mem, memOk_dropTok, memOk_incCnt, memOk_setEng, memOk_startTask, h]
theorem memOk_execEngineSelect (e : Fin 64) (s : State) (h : MemOk s) : ∀ u, execEngineSelect e s = .next u → MemOk u := by
  intro u hu
  simp only [execEngineSelect, Host.Outcome.next.injEq] at hu
  subst hu
  repeat' split
  all_goals simp (maxDischargeDepth := 200) +contextual only [implies_true, memOk_ite, memOk_mk, memOk_mem, memOk_setEng, memOk_startTask, memOk_takeWork, h]
theorem memOk_execPrefetchLoad (e : Fin 64) (s : State) (h : MemOk s) : ∀ u, execPrefetchLoad e s = .next u → MemOk u := by
  intro u hu
  simp only [execPrefetchLoad, Host.Outcome.next.injEq] at hu
  subst hu
  repeat' split
  all_goals simp (maxDischargeDepth := 200) +contextual only [implies_true, memOk_ite, memOk_mk, memOk_mem, memOk_readWords, memOk_setEng, h]
theorem memOk_execDmaInComplete (e : Fin 64) (s : State) (h : MemOk s) : ∀ u, execDmaInComplete e s = .next u → MemOk u := by
  intro u hu
  simp only [execDmaInComplete, Host.Outcome.next.injEq] at hu
  subst hu
  repeat' split
  all_goals simp (maxDischargeDepth := 200) +contextual only [implies_true, memOk_ite, memOk_mk, memOk_mem, memOk_clearHalf, memOk_engineFault, memOk_placeWords, memOk_readWords, memOk_setEng, memOk_tryPreempt, h]
theorem memOk_execShedMapWrite (m : Master) (i : Fin 32) (w : W32) (s : State) (h : MemOk s) : ∀ u, execShedMapWrite m i w s = .next u → MemOk u := by
  intro u hu
  simp only [execShedMapWrite, Host.Outcome.next.injEq] at hu
  subst hu
  simp (maxDischargeDepth := 200) +contextual only [implies_true, memOk_ite, memOk_mk, memOk_mem, memOk_pairAction, h]
theorem memOk_execWithdrawWrite (m : Master) (c : Fin 4) (w : W32) (s : State) (h : MemOk s) : ∀ u, execWithdrawWrite m c w s = .next u → MemOk u := by
  intro u hu
  simp only [execWithdrawWrite, Host.Outcome.next.injEq] at hu
  subst hu
  simp (maxDischargeDepth := 200) +contextual only [implies_true, memOk_ite, memOk_mk, memOk_mem, memOk_foldl, memOk_foldl_fst, memOk_foldl_snd, memOk_capacityCheck, memOk_errlog, memOk_regAction, memOk_wr, h]

end Sys2Proof.Machine
end

