-- ==== Sys2Proof/Laws/MemControl.lean ====
section
/-! SUPPORT. Every operation of these files keeps the canonical form of memory: images, the page header, the cistern, surge, axes, motion, commits, safety operations. -/

set_option linter.unusedSimpArgs false
set_option linter.unusedVariables false

namespace Sys2Proof.Machine

/-! ## Install -/

theorem memOk_noteBlocks (s : State) (b n : Nat) (h : MemOk s) : MemOk (noteBlocks s b n) := by
  simp (maxDischargeDepth := 200) +contextual only [noteBlocks, implies_true, memOk_ite, memOk_mk, memOk_mem, memOk_foldl, memOk_foldl_fst, memOk_foldl_snd, memOk_noteItem, h]
theorem memOk_holdBlocks (s : State) (b n : Nat) (h : MemOk s) : MemOk (holdBlocks s b n) := by
  simp (maxDischargeDepth := 200) +contextual only [holdBlocks, implies_true, memOk_ite, memOk_mk, memOk_mem, memOk_noteBlocks, memOk_passBlocks, h]
theorem memOk_giveBack (s : State) (b n : Nat) (h : MemOk s) : MemOk (giveBack s b n) := by
  simp (maxDischargeDepth := 200) +contextual only [giveBack, implies_true, memOk_ite, memOk_mk, memOk_mem, memOk_passBlocks, h]
theorem memOk_holdAndReturn (s : State) (b n : Nat) (h : MemOk s) : MemOk (holdAndReturn s b n) := by
  simp (maxDischargeDepth := 200) +contextual only [holdAndReturn, implies_true, memOk_ite, memOk_mk, memOk_mem, memOk_passBlocks, h]
theorem memOk_gcmdEnd (s : State) (result : Nat) (h : MemOk s) : MemOk (gcmdEnd s result) := by
  simp (maxDischargeDepth := 200) +contextual only [gcmdEnd, implies_true, memOk_ite, memOk_mk, memOk_mem, memOk_ackPeer, memOk_clearAck, memOk_clrBusy, memOk_raise, memOk_wr, h]
theorem memOk_gcmdRefuse (s : State) (result : Nat) (h : MemOk s) : MemOk (gcmdRefuse s result) := by
  simp (maxDischargeDepth := 200) +contextual only [gcmdRefuse, implies_true, memOk_ite, memOk_mk, memOk_mem, memOk_raise, memOk_wr, h]
theorem memOk_gchk (s : State) (reason item : Nat) (h : MemOk s) : MemOk (gchk s reason item) := by
  simp (maxDischargeDepth := 200) +contextual only [gchk, implies_true, memOk_ite, memOk_mk, memOk_mem, memOk_setSticky, memOk_wrs, h]
theorem memOk_clearValid (s : State) (g : Nat) (h : MemOk s) : MemOk (clearValid s g) := by
  simp (maxDischargeDepth := 200) +contextual only [clearValid, implies_true, memOk_ite, memOk_mk, memOk_mem, memOk_foldl, memOk_foldl_fst, memOk_foldl_snd, memOk_mput, h]
theorem memOk_writeGraph (s : State) (b g : Nat) (h : MemOk s) : MemOk (writeGraph s b g) := by
  simp (maxDischargeDepth := 200) +contextual only [writeGraph, implies_true, memOk_ite, memOk_mk, memOk_mem, memOk_foldl, memOk_foldl_fst, memOk_foldl_snd, memOk_mwrite, h]
theorem memOk_gcmdStart (s : State) (load : Bool) (e b n : Nat) (h : MemOk s) : MemOk (gcmdStart s load e b n) := by
  simp (maxDischargeDepth := 200) +contextual only [gcmdStart, implies_true, memOk_ite, memOk_mk, memOk_mem, memOk_clearAck, memOk_wr, h]
theorem memOk_gcmdAction (s : State) (m : Master) (w : W32) (op : Nat) (f : State → State) (h : MemOk s) (hff : ∀ s, MemOk s → MemOk (f s)) : MemOk (gcmdAction s m w op f) := by
  simp (maxDischargeDepth := 200) +contextual only [gcmdAction, implies_true, memOk_ite, memOk_mk, memOk_mem, memOk_pairActionWith, h, hff]
theorem memOk_execGinstall (m : Master) (w : W32) (s : State) (h : MemOk s) : ∀ u, execGinstall m w s = .next u → MemOk u := by
  intro u hu
  have hu := Host.Outcome.next.inj hu
  subst hu
  refine memOk_gcmdAction _ _ _ _ _ h (fun s h => ?_)
  have hh := fun b n => memOk_holdBlocks s b n h
  have hg := fun b n => memOk_giveBack _ b n (hh b n)
  dsimp only
  split
  · exact memOk_gcmdRefuse _ _ h
  · refine memOk_ite (memOk_gcmdRefuse _ _ h) ?_
    split
    · exact memOk_gcmdRefuse _ _ (memOk_gchk _ _ _ (hg _ _))
    · refine memOk_ite (memOk_gcmdRefuse _ _ (memOk_holdAndReturn _ _ _ h)) (memOk_ite (memOk_gcmdRefuse _ _ (memOk_gchk _ _ _ (hg _ _))) ?_)
      split
      · exact memOk_gcmdRefuse _ _ (memOk_gchk _ _ _ (hg _ _))
      · exact memOk_gcmdStart _ _ _ _ _ (hh _ _)
theorem memOk_execGinstallComplete (s : State) (h : MemOk s) : ∀ u, execGinstallComplete s = .next u → MemOk u := by
  intro u hu
  simp only [execGinstallComplete, Host.Outcome.next.injEq] at hu
  subst hu
  repeat' split
  all_goals simp (maxDischargeDepth := 200) +contextual only [implies_true, memOk_ite, memOk_mk, memOk_mem, memOk_clearValid, memOk_gchk, memOk_gcmdEnd, memOk_giveBack, memOk_wr, memOk_writeGraph, memOk_wrs, h]
theorem memOk_execLoadimem (m : Master) (w : W32) (s : State) (h : MemOk s) : ∀ u, execLoadimem m w s = .next u → MemOk u := by
  intro u hu
  have hu := Host.Outcome.next.inj hu
  subst hu
  refine memOk_gcmdAction _ _ _ _ _ h (fun s h => ?_)
  dsimp only
  split
  · exact memOk_gcmdRefuse _ _ h
  · exact memOk_ite (memOk_gcmdRefuse _ _ h) (memOk_ite (memOk_gcmdRefuse _ _ (memOk_holdAndReturn _ _ _ h)) (memOk_gcmdStart _ _ _ _ _ (memOk_holdBlocks _ _ _ h)))
theorem memOk_peerLoad (s : State) (w : W32) (h : MemOk s) : MemOk (peerLoad s w) := by
  simp (maxDischargeDepth := 200) +contextual only [peerLoad, implies_true, memOk_ite, memOk_mk, memOk_mem, memOk_ackPeer, memOk_capacityCheck, memOk_gcmdStart, memOk_holdBlocks, memOk_wr, h]
theorem memOk_peerReturn (s : State) (c : GCmd) (h : MemOk s) : MemOk (peerReturn s c) := by
  simp (maxDischargeDepth := 200) +contextual only [peerReturn, implies_true, memOk_ite, memOk_mk, memOk_mem, memOk_capacityCheck, memOk_wr, h]
theorem memOk_execLoadimemComplete (differs : Bool) (s : State) (h : MemOk s) : ∀ u, execLoadimemComplete differs s = .next u → MemOk u := by
  intro u hu
  simp only [execLoadimemComplete, Host.Outcome.next.injEq] at hu
  subst hu
  repeat' split
  all_goals simp (maxDischargeDepth := 200) +contextual only [implies_true, memOk_ite, memOk_mk, memOk_mem, memOk_mwrite, memOk_free, memOk_gcmdEnd, memOk_giveBack, memOk_peerReturn, memOk_setEng, h]

/-! ## Header -/

theorem memOk_setSeq (s : State) (p : Nat) (v : Option (Nat × Nat)) (h : MemOk s) : MemOk (setSeq s p v) := by
  simp (maxDischargeDepth := 200) +contextual only [setSeq, implies_true, memOk_ite, memOk_mk, memOk_mem, h]
theorem memOk_lockWrite (s : State) (m : Master) (p w clk : Nat) (h : MemOk s) : MemOk (lockWrite s m p w clk) := by
  unfold lockWrite
  split <;> simp (maxDischargeDepth := 200) +contextual only [implies_true, memOk_ite, memOk_mk, memOk_mem, memOk_errlog, memOk_setSeq, memOk_wr, h]
theorem memOk_execLock (m : Master) (page : BitVec 12) (w : W32) (clk : Nat) (s : State) (h : MemOk s) : ∀ u, execLock m page w clk s = .next u → MemOk u := by
  intro u hu
  simp only [execLock, Host.Outcome.next.injEq] at hu
  subst hu
  simp (maxDischargeDepth := 200) +contextual only [implies_true, memOk_ite, memOk_mk, memOk_mem, memOk_lockWrite, memOk_pageAccess, h]
theorem memOk_execEvtSet (m : Master) (page : BitVec 12) (w : W32) (s : State) (h : MemOk s) : ∀ u, execEvtSet m page w s = .next u → MemOk u := by
  intro u hu
  simp only [execEvtSet, Host.Outcome.next.injEq] at hu
  subst hu
  simp (maxDischargeDepth := 200) +contextual only [implies_true, memOk_ite, memOk_mk, memOk_mem, memOk_foldl, memOk_foldl_fst, memOk_foldl_snd, memOk_pageAccess, memOk_raise, h]
theorem memOk_execAck (m : Master) (w : W32) (s : State) (h : MemOk s) : ∀ u, execAck m w s = .next u → MemOk u := by
  intro u hu
  simp only [execAck, Host.Outcome.next.injEq] at hu
  subst hu
  simp (maxDischargeDepth := 200) +contextual only [implies_true, memOk_ite, memOk_mk, memOk_mem, memOk_regAction, memOk_wrs, h]
theorem memOk_execEntry0Read (m : Master) (s : State) (h : MemOk s) : ∀ u, execEntry0Read m s = .next u → MemOk u := by
  intro u hu
  simp only [execEntry0Read, Host.Outcome.next.injEq] at hu
  subst hu
  simp (maxDischargeDepth := 200) +contextual only [implies_true, memOk_ite, memOk_mk, memOk_mem, memOk_answer, memOk_pageAccess, memOk_wr, memOk_wrs, h]
theorem memOk_clearCounts (s : State) (k w : Nat) (h : MemOk s) : MemOk (clearCounts s k w) := by
  simp (maxDischargeDepth := 200) +contextual only [clearCounts, implies_true, memOk_ite, memOk_mk, memOk_mem, memOk_foldl, memOk_foldl_fst, memOk_foldl_snd, memOk_wr, h]
theorem memOk_execCounterClear (m : Master) (addr : BitVec 24) (w : W32) (s : State) (h : MemOk s) : ∀ u, execCounterClear m addr w s = .next u → MemOk u := by
  intro u hu
  simp only [execCounterClear, Host.Outcome.next.injEq] at hu
  subst hu
  simp (maxDischargeDepth := 200) +contextual only [implies_true, memOk_ite, memOk_mk, memOk_mem, memOk_clearCounts, memOk_regAction, h]

/-! ## Cistern -/

theorem memOk_execCas (m : Master) (w : W32) (s : State) (h : MemOk s) : ∀ u, execCas m w s = .next u → MemOk u := by
  intro u hu
  simp only [execCas, Host.Outcome.next.injEq] at hu
  subst hu
  simp (maxDischargeDepth := 200) +contextual only [implies_true, memOk_ite, memOk_mk, memOk_mem, memOk_bput, memOk_errlog, memOk_regAction, h]
theorem memOk_casPass (s : State) (b new : Nat) (priv : Bool) (h : MemOk s) : MemOk (casPass s b new priv) := by
  simp (maxDischargeDepth := 200) +contextual only [casPass, implies_true, memOk_ite, memOk_mk, memOk_mem, memOk_noteItem, memOk_setFloat, h]
theorem memOk_casOne (s : State) (r : CasReq) (h : MemOk s) : MemOk (casOne s r) := by
  simp (maxDischargeDepth := 200) +contextual only [casOne, implies_true, memOk_ite, memOk_mk, memOk_mem, memOk_bput, memOk_casPass, memOk_incCnt, h]
theorem memOk_casRun (s : State) (k : Nat) (h : MemOk s) : MemOk (casRun s k) := by
  simp (maxDischargeDepth := 200) +contextual only [casRun, implies_true, memOk_ite, memOk_mk, memOk_mem, memOk_foldl, memOk_foldl_fst, memOk_foldl_snd, memOk_casOne, h]
theorem memOk_execCisternAccess (m : Master) (word : BitVec 21) (acc : WordAcc) (s : State) (h : MemOk s) : ∀ u, execCisternAccess m word acc s = .next u → MemOk u := by
  intro u hu
  simp only [execCisternAccess, Host.Outcome.next.injEq] at hu
  subst hu
  repeat' split
  all_goals simp (maxDischargeDepth := 200) +contextual only [implies_true, memOk_ite, memOk_mk, memOk_mem, memOk_answer, memOk_cistRead, memOk_cistWrite, memOk_domAccess, h]
theorem memOk_execSnapGo (m : Master) (w : W32) (s : State) (h : MemOk s) : ∀ u, execSnapGo m w s = .next u → MemOk u := by
  intro u hu
  simp only [execSnapGo, Host.Outcome.next.injEq] at hu
  subst hu
  simp (maxDischargeDepth := 200) +contextual only [implies_true, memOk_ite, memOk_mk, memOk_mem, memOk_errlog, memOk_regAction, memOk_setSticky, memOk_wr, h]
theorem memOk_snapWords (k : Nat) (l : List Nat) (s : State) (w : Nat) (h : MemOk s) : MemOk (snapWords s k w l) := by
  induction l generalizing s w with
  | nil => exact h
  | cons v r ih => exact ih _ _ (memOk_cistWrite _ _ _ _ _ h)
theorem memOk_snapPts (l : List (Nat × Nat × Nat)) (s : State) (h : MemOk s) : MemOk (snapPts s l).2 := by
  induction l generalizing s with
  | nil => exact h
  | cons v r ih => exact ih _ (memOk_free s h)
theorem memOk_execSnapshotPart (s : State) (h : MemOk s) : ∀ u, execSnapshotPart s = .next u → MemOk u := by
  intro u hu
  simp only [execSnapshotPart, Host.Outcome.next.injEq] at hu
  subst hu
  repeat' split
  all_goals simp (maxDischargeDepth := 200) +contextual only [implies_true, memOk_ite, memOk_mk, memOk_mem, memOk_clrBusy, memOk_setSticky, memOk_snapPts, memOk_snapWords, h]
theorem memOk_latchSnap (s : State) (h : MemOk s) : MemOk (latchSnap s) := by
  unfold latchSnap
  split <;> simp (maxDischargeDepth := 200) +contextual only [implies_true, memOk_ite, memOk_mk, memOk_mem, h]
theorem memOk_dropSnap (s : State) (h : MemOk s) : MemOk (dropSnap s) := by
  simp (maxDischargeDepth := 200) +contextual only [dropSnap, implies_true, memOk_ite, memOk_mk, memOk_mem, memOk_clrBusy, memOk_setSticky, h]
theorem memOk_execDmaGo (m : Master) (c : Fin 8) (w : W32) (s : State) (h : MemOk s) : ∀ u, execDmaGo m c w s = .next u → MemOk u := by
  intro u hu
  simp only [execDmaGo, Host.Outcome.next.injEq] at hu
  subst hu
  simp (maxDischargeDepth := 200) +contextual only [implies_true, memOk_ite, memOk_mk, memOk_mem, memOk_errlog, memOk_regAction, memOk_wr, h]

/-! ## Surge -/

theorem memOk_surgeStart (s : State) (h : MemOk s) : MemOk (surgeStart s) := by
  simp (maxDischargeDepth := 200) +contextual only [surgeStart, implies_true, memOk_ite, memOk_mk, memOk_mem, memOk_capacityCheck, memOk_wr, h]
theorem memOk_surgeNote (s : State) (cause : Nat) (h : MemOk s) : MemOk (surgeNote s cause) := by
  simp (maxDischargeDepth := 200) +contextual only [surgeNote, implies_true, memOk_ite, memOk_mk, memOk_mem, memOk_incCnt, memOk_wr, h]
theorem memOk_surgeTry (s : State) (count : Bool) (h : MemOk s) : MemOk (surgeTry s count) := by
  simp (maxDischargeDepth := 200) +contextual only [surgeTry, implies_true, memOk_ite, memOk_mk, memOk_mem, memOk_capacityCheck, memOk_surgeNote, memOk_surgeStart, h]
theorem memOk_surgeEnd (s : State) (cause : Nat) (h : MemOk s) : MemOk (surgeEnd s cause) := by
  simp (maxDischargeDepth := 200) +contextual only [surgeEnd, implies_true, memOk_ite, memOk_mk, memOk_mem, memOk_capacityCheck, memOk_post, memOk_surgeNote, memOk_wr, h]
theorem memOk_surgeBoundary (s : State) (h : MemOk s) : MemOk (surgeBoundary s) := by
  simp (maxDischargeDepth := 200) +contextual only [surgeBoundary, implies_true, memOk_ite, memOk_mk, memOk_mem, memOk_incCnt, memOk_surgeTry, memOk_wr, memOk_wrs, h]
theorem memOk_execSurgeReq (m : Master) (w : W32) (s : State) (h : MemOk s) : ∀ u, execSurgeReq m w s = .next u → MemOk u := by
  intro u hu
  simp only [execSurgeReq, Host.Outcome.next.injEq] at hu
  subst hu
  simp (maxDischargeDepth := 200) +contextual only [implies_true, memOk_ite, memOk_mk, memOk_mem, memOk_regAction, memOk_surgeEnd, memOk_surgeTry, memOk_wr, h]
theorem memOk_execSurgeVoltageReached (s : State) (h : MemOk s) : ∀ u, execSurgeVoltageReached s = .next u → MemOk u := by
  intro u hu
  simp only [execSurgeVoltageReached, Host.Outcome.next.injEq] at hu
  subst hu
  simp (maxDischargeDepth := 200) +contextual only [implies_true, memOk_ite, memOk_mk, memOk_mem, h]
theorem memOk_execSurgeSample (hot current : BitVec 16) (s : State) (h : MemOk s) : ∀ u, execSurgeSample hot current s = .next u → MemOk u := by
  intro u hu
  simp only [execSurgeSample, Host.Outcome.next.injEq] at hu
  subst hu
  simp (maxDischargeDepth := 200) +contextual only [implies_true, memOk_ite, memOk_mk, memOk_mem, memOk_surgeEnd, memOk_surgeTry, memOk_wr, h]
theorem memOk_execSurgeHour (s : State) (h : MemOk s) : ∀ u, execSurgeHour s = .next u → MemOk u := by
  intro u hu
  simp only [execSurgeHour, Host.Outcome.next.injEq] at hu
  subst hu
  simp (maxDischargeDepth := 200) +contextual only [implies_true, memOk_ite, memOk_mk, memOk_mem, memOk_emit, memOk_wrs, h]
theorem memOk_pmbFault (s : State) (h : MemOk s) : MemOk (pmbFault s) := by
  simp (maxDischargeDepth := 200) +contextual only [pmbFault, implies_true, memOk_ite, memOk_mk, memOk_mem, memOk_incErr, memOk_post, memOk_surgeEnd, h]
theorem memOk_execVoltageStep (vout : Option Nat) (s : State) (h : MemOk s) : ∀ u, execVoltageStep vout s = .next u → MemOk u := by
  intro u hu
  simp only [execVoltageStep, Host.Outcome.next.injEq] at hu
  subst hu
  repeat' split
  all_goals simp (maxDischargeDepth := 200) +contextual only [implies_true, memOk_ite, memOk_mk, memOk_mem, memOk_emit, memOk_pmbFault, h]
theorem memOk_execReadIout (current : Option (BitVec 16)) (s : State) (h : MemOk s) : ∀ u, execReadIout current s = .next u → MemOk u := by
  intro u hu
  simp only [execReadIout, Host.Outcome.next.injEq] at hu
  subst hu
  repeat' split
  all_goals simp (maxDischargeDepth := 200) +contextual only [implies_true, memOk_ite, memOk_mk, memOk_mem, memOk_pmbFault, memOk_wr, h]
theorem memOk_execPmbAlert (status : BitVec 16) (s : State) (h : MemOk s) : ∀ u, execPmbAlert status s = .next u → MemOk u := by
  intro u hu
  simp only [execPmbAlert, Host.Outcome.next.injEq] at hu
  subst hu
  simp (maxDischargeDepth := 200) +contextual only [implies_true, memOk_ite, memOk_mk, memOk_mem, memOk_emit, h]
theorem memOk_askReplan (s : State) (h : MemOk s) : MemOk (askReplan s) := by
  simp (maxDischargeDepth := 200) +contextual only [askReplan, implies_true, memOk_ite, memOk_mk, memOk_mem, memOk_showQueue, memOk_wr, h]
theorem memOk_execReplan (src : ReplanSrc) (s : State) (h : MemOk s) : ∀ u, execReplan src s = .next u → MemOk u := by
  intro u hu
  simp only [execReplan, Host.Outcome.next.injEq] at hu
  subst hu
  repeat' split
  all_goals simp (maxDischargeDepth := 200) +contextual only [implies_true, memOk_ite, memOk_mk, memOk_mem, memOk_askReplan, memOk_regAction, h]
theorem memOk_setPlan (s : State) (p : PlanMeas) (h : MemOk s) : MemOk (setPlan s p) := by
  unfold setPlan
  extract_lets vnom ok c1 s1 c2 s2 c3 s3 weak s4
  have h1 : MemOk s1 := memOk_wrs _ _ (memOk_mk (memOk_mem h))
  have h2 : MemOk s2 := memOk_mk (memOk_mem h1)
  have h3 : MemOk s3 := memOk_ite h2 (memOk_mk (memOk_mem h2))
  have h4 : MemOk s4 := memOk_foldl (fun s x h => memOk_wr _ _ _ h) _ h3
  exact memOk_ite h4 (memOk_capacityCheck _ _ h4)
theorem memOk_replanOut (s : State) (h : MemOk s) : MemOk (replanOut s) := by
  simp (maxDischargeDepth := 200) +contextual only [replanOut, implies_true, memOk_ite, memOk_mk, memOk_mem, memOk_clrBusy, memOk_showQueue, h]
theorem memOk_execReplanComplete (plan : Option PlanMeas) (s : State) (h : MemOk s) : ∀ u, execReplanComplete plan s = .next u → MemOk u := by
  intro u hu
  simp only [execReplanComplete, Host.Outcome.next.injEq] at hu
  subst hu
  repeat' split
  all_goals simp (maxDischargeDepth := 200) +contextual only [implies_true, memOk_ite, memOk_mk, memOk_mem, memOk_postOther, memOk_replanOut, memOk_setPlan, memOk_wr, h]

/-! ## Axis -/

theorem memOk_holdArea (s : State) (h : MemOk s) : MemOk (holdArea s) := by
  simp (maxDischargeDepth := 200) +contextual only [holdArea, implies_true, memOk_ite, memOk_mk, memOk_mem, memOk_foldl, memOk_foldl_fst, memOk_foldl_snd, memOk_setBlk, h]
theorem memOk_execAxisAreaWrite (m : Master) (w : W32) (s : State) (h : MemOk s) : ∀ u, execAxisAreaWrite m w s = .next u → MemOk u := by
  intro u hu
  simp only [execAxisAreaWrite, Host.Outcome.next.injEq] at hu
  subst hu
  simp (maxDischargeDepth := 200) +contextual only [implies_true, memOk_ite, memOk_mk, memOk_mem, memOk_errlog, memOk_holdArea, memOk_regAction, memOk_wrs, h]
theorem memOk_withdrawAxis (s : State) (a : Nat) (h : MemOk s) : MemOk (withdrawAxis s a) := by
  unfold withdrawAxis
  split <;> simp (maxDischargeDepth := 200) +contextual only [implies_true, memOk_ite, memOk_mk, memOk_mem, memOk_postOther, h]
theorem memOk_writeRec (s : State) (a i v : Nat) (h : MemOk s) : MemOk (writeRec s a i v) := by
  simp (maxDischargeDepth := 200) +contextual only [writeRec, implies_true, memOk_ite, memOk_mk, memOk_mem, memOk_msetNum, memOk_setAxis, memOk_withdrawAxis, h]
theorem memOk_execAxisWindowWrite (m : Master) (i : Fin 128) (w : W32) (s : State) (h : MemOk s) : ∀ u, execAxisWindowWrite m i w s = .next u → MemOk u := by
  intro u hu
  simp only [execAxisWindowWrite, Host.Outcome.next.injEq] at hu
  subst hu
  simp (maxDischargeDepth := 200) +contextual only [implies_true, memOk_ite, memOk_mk, memOk_mem, memOk_errlog, memOk_pairAction, memOk_writeRec, h]
theorem memOk_axisDo (s : State) (f : State → State) (h : MemOk s) (hff : ∀ s, MemOk s → MemOk (f s)) : MemOk (axisDo s f) := by
  simp (maxDischargeDepth := 200) +contextual only [axisDo, implies_true, memOk_ite, memOk_mk, memOk_mem, memOk_wr, h, hff]
theorem memOk_axisCmd (s : State) (m : Master) (w : W32) (op : Nat) (f : State → State) (h : MemOk s) (hff : ∀ s, MemOk s → MemOk (f s)) : MemOk (axisCmd s m w op f) := by
  simp (maxDischargeDepth := 200) +contextual only [axisCmd, implies_true, memOk_ite, memOk_mk, memOk_mem, memOk_axisDo, memOk_pairOp, h, hff]
theorem memOk_cmdDone (s : State) (p : Nat) (h : MemOk s) : MemOk (cmdDone s p) := by
  simp (maxDischargeDepth := 200) +contextual only [cmdDone, implies_true, memOk_ite, memOk_mk, memOk_mem, memOk_raise, h]
theorem memOk_execAxisLoad (m : Master) (w : W32) (s : State) (h : MemOk s) : ∀ u, execAxisLoad m w s = .next u → MemOk u := by
  intro u hu
  simp only [execAxisLoad, Host.Outcome.next.injEq] at hu
  subst hu
  simp (maxDischargeDepth := 200) +contextual only [implies_true, memOk_ite, memOk_mk, memOk_mem, memOk_mwrite, memOk_axisCmd, memOk_cmdDone, memOk_setAxis, memOk_withdrawAxis, h]
theorem memOk_execMark (m : Master) (w : W32) (s : State) (h : MemOk s) : ∀ u, execMark m w s = .next u → MemOk u := by
  intro u hu
  simp only [execMark, Host.Outcome.next.injEq] at hu
  subst hu
  simp (maxDischargeDepth := 200) +contextual only [implies_true, memOk_ite, memOk_mk, memOk_mem, memOk_axisCmd, memOk_cmdDone, memOk_setAxis, h]
theorem memOk_execNotch (m : Master) (w : W32) (s : State) (h : MemOk s) : ∀ u, execNotch m w s = .next u → MemOk u := by
  intro u hu
  have hu := Host.Outcome.next.inj hu
  subst hu
  refine memOk_pairActionWith _ _ _ _ _ _ h (fun s h => memOk_ite (memOk_axisDo _ _ h (fun s h => ?_)) h)
  split
  · exact memOk_cmdDone _ _ (memOk_foldl (fun s e h => memOk_writeRec _ _ _ _ h) _ h)
  · exact memOk_cmdDone _ _ (memOk_wr _ _ _ h)
theorem memOk_checkAxes (s : State) (n : Nat) (h : MemOk s) : MemOk (checkAxes s n).1 := by
  unfold checkAxes
  apply memOk_foldl_fst (h := h)
  intro s x h
  dsimp only
  split
  · exact memOk_setAxis _ _ _ h
  · simp (maxDischargeDepth := 200) +contextual only [memOk_ite, memOk_setSticky, memOk_postOther, memOk_raise, memOk_wrs, memOk_setAxis, h]
theorem memOk_commitAxes (s : State) (l : List Nat) (h : MemOk s) : MemOk (commitAxes s l) := by
  simp (maxDischargeDepth := 200) +contextual only [commitAxes, implies_true, memOk_ite, memOk_mk, memOk_mem, memOk_foldl, memOk_foldl_fst, memOk_foldl_snd, memOk_afterAxisCommit, memOk_markAxis, memOk_setAxis, h]

/-! ## Motion -/

theorem memOk_withdrawCh (s : State) (c : Nat) (h : MemOk s) : MemOk (withdrawCh s c) := by
  unfold withdrawCh
  split <;> simp (maxDischargeDepth := 200) +contextual only [implies_true, memOk_ite, memOk_mk, memOk_mem, memOk_postOther, h]
theorem memOk_execMotionWindowWrite (m : Master) (i : Fin 16) (w : W32) (s : State) (h : MemOk s) : ∀ u, execMotionWindowWrite m i w s = .next u → MemOk u := by
  intro u hu
  simp only [execMotionWindowWrite, Host.Outcome.next.injEq] at hu
  subst hu
  simp (maxDischargeDepth := 200) +contextual only [implies_true, memOk_ite, memOk_mk, memOk_mem, memOk_errlog, memOk_pairAction, memOk_setMot, memOk_setMotWord, memOk_withdrawCh, h]
theorem memOk_execCamTableWrite (m : Master) (t : Fin 64) (w : W32) (s : State) (h : MemOk s) : ∀ u, execCamTableWrite m t w s = .next u → MemOk u := by
  intro u hu
  have hu := Host.Outcome.next.inj hu
  subst hu
  refine memOk_pairAction _ _ _ _ _ h ?_
  intro s h
  exact memOk_wr _ _ _ (memOk_mk (memOk_mem h))
theorem memOk_motCmd (s : State) (m : Master) (w : W32) (op : Nat) (h : MemOk s) : MemOk (motCmd s m w op) := by
  simp (maxDischargeDepth := 200) +contextual only [motCmd, implies_true, memOk_ite, memOk_mk, memOk_mem, memOk_incCnt, memOk_pairOp, memOk_postOther, memOk_raise, memOk_setMot, memOk_wr, memOk_wr64, h]
theorem memOk_execMoveAbs (m : Master) (w : W32) (s : State) (h : MemOk s) : ∀ u, execMoveAbs m w s = .next u → MemOk u := by
  intro u hu
  simp only [execMoveAbs, Host.Outcome.next.injEq] at hu
  subst hu
  simp (maxDischargeDepth := 200) +contextual only [implies_true, memOk_ite, memOk_mk, memOk_mem, memOk_motCmd, h]
theorem memOk_execMoveRel (m : Master) (w : W32) (s : State) (h : MemOk s) : ∀ u, execMoveRel m w s = .next u → MemOk u := by
  intro u hu
  simp only [execMoveRel, Host.Outcome.next.injEq] at hu
  subst hu
  simp (maxDischargeDepth := 200) +contextual only [implies_true, memOk_ite, memOk_mk, memOk_mem, memOk_motCmd, h]
theorem memOk_execSpeed (m : Master) (w : W32) (s : State) (h : MemOk s) : ∀ u, execSpeed m w s = .next u → MemOk u := by
  intro u hu
  simp only [execSpeed, Host.Outcome.next.injEq] at hu
  subst hu
  simp (maxDischargeDepth := 200) +contextual only [implies_true, memOk_ite, memOk_mk, memOk_mem, memOk_motCmd, h]
theorem memOk_execGear (m : Master) (w : W32) (s : State) (h : MemOk s) : ∀ u, execGear m w s = .next u → MemOk u := by
  intro u hu
  simp only [execGear, Host.Outcome.next.injEq] at hu
  subst hu
  simp (maxDischargeDepth := 200) +contextual only [implies_true, memOk_ite, memOk_mk, memOk_mem, memOk_motCmd, h]
theorem memOk_execCam (m : Master) (w : W32) (s : State) (h : MemOk s) : ∀ u, execCam m w s = .next u → MemOk u := by
  intro u hu
  simp only [execCam, Host.Outcome.next.injEq] at hu
  subst hu
  simp (maxDischargeDepth := 200) +contextual only [implies_true, memOk_ite, memOk_mk, memOk_mem, memOk_motCmd, h]
theorem memOk_execFree (m : Master) (w : W32) (s : State) (h : MemOk s) : ∀ u, execFree m w s = .next u → MemOk u := by
  intro u hu
  simp only [execFree, Host.Outcome.next.injEq] at hu
  subst hu
  simp (maxDischargeDepth := 200) +contextual only [implies_true, memOk_ite, memOk_mk, memOk_mem, memOk_motCmd, h]
theorem memOk_execSuper (m : Master) (w : W32) (s : State) (h : MemOk s) : ∀ u, execSuper m w s = .next u → MemOk u := by
  intro u hu
  simp only [execSuper, Host.Outcome.next.injEq] at hu
  subst hu
  simp (maxDischargeDepth := 200) +contextual only [implies_true, memOk_ite, memOk_mk, memOk_mem, memOk_motCmd, h]
theorem memOk_execGroupGo (m : Master) (w : W32) (s : State) (h : MemOk s) : ∀ u, execGroupGo m w s = .next u → MemOk u := by
  intro u hu
  simp only [execGroupGo, Host.Outcome.next.injEq] at hu
  subst hu
  simp (maxDischargeDepth := 200) +contextual only [implies_true, memOk_ite, memOk_mk, memOk_mem, memOk_motCmd, h]
theorem memOk_execReregShift (m : Master) (w : W32) (s : State) (h : MemOk s) : ∀ u, execReregShift m w s = .next u → MemOk u := by
  intro u hu
  simp only [execReregShift, Host.Outcome.next.injEq] at hu
  subst hu
  simp (maxDischargeDepth := 200) +contextual only [implies_true, memOk_ite, memOk_mk, memOk_mem, memOk_motCmd, h]
theorem memOk_execReregMove (m : Master) (w : W32) (s : State) (h : MemOk s) : ∀ u, execReregMove m w s = .next u → MemOk u := by
  intro u hu
  simp only [execReregMove, Host.Outcome.next.injEq] at hu
  subst hu
  simp (maxDischargeDepth := 200) +contextual only [implies_true, memOk_ite, memOk_mk, memOk_mem, memOk_motCmd, h]
theorem memOk_execMotionLoad (m : Master) (w : W32) (s : State) (h : MemOk s) : ∀ u, execMotionLoad m w s = .next u → MemOk u := by
  intro u hu
  simp only [execMotionLoad, Host.Outcome.next.injEq] at hu
  subst hu
  simp (maxDischargeDepth := 200) +contextual only [implies_true, memOk_ite, memOk_mk, memOk_mem, memOk_foldl, memOk_foldl_fst, memOk_foldl_snd, memOk_pairOp, memOk_raise, memOk_setMot, memOk_setMotWord, memOk_withdrawCh, memOk_wr, h]
theorem memOk_execStop (m : Master) (w : W32) (s : State) (h : MemOk s) : ∀ u, execStop m w s = .next u → MemOk u := by
  intro u hu
  simp only [execStop, Host.Outcome.next.injEq] at hu
  subst hu
  simp (maxDischargeDepth := 200) +contextual only [implies_true, memOk_ite, memOk_mk, memOk_mem, memOk_askStop, memOk_pairAction, h]
theorem memOk_execHalt (m : Master) (w : W32) (s : State) (h : MemOk s) : ∀ u, execHalt m w s = .next u → MemOk u := by
  intro u hu
  simp only [execHalt, Host.Outcome.next.injEq] at hu
  subst hu
  simp (maxDischargeDepth := 200) +contextual only [implies_true, memOk_ite, memOk_mk, memOk_mem, memOk_askStop, memOk_pairOp, h]
theorem memOk_execStopClr (m : Master) (w : W32) (s : State) (h : MemOk s) : ∀ u, execStopClr m w s = .next u → MemOk u := by
  intro u hu
  simp only [execStopClr, Host.Outcome.next.injEq] at hu
  subst hu
  simp (maxDischargeDepth := 200) +contextual only [implies_true, memOk_ite, memOk_mk, memOk_mem, memOk_foldl, memOk_foldl_fst, memOk_foldl_snd, memOk_errlog, memOk_pairAction, memOk_setMot, h]
theorem memOk_motFail (s : State) (reason c : Nat) (h : MemOk s) : MemOk (motFail s reason c) := by
  simp (maxDischargeDepth := 200) +contextual only [motFail, implies_true, memOk_ite, memOk_mk, memOk_mem, memOk_postOther, memOk_raise, memOk_setSticky, memOk_wrs, h]
theorem memOk_checkMotion (s : State) (h : MemOk s) : MemOk (checkMotion s).1 := by
  unfold checkMotion
  extract_lets r q
  have hr : MemOk r.1 := by
    refine memOk_foldl_fst ?_ _ (s := (s, _)) h
    intro s c h
    extract_lets k
    split
    · exact memOk_setMot _ _ _ h
    · exact memOk_motFail _ _ _ (memOk_setMot _ _ _ h)
  have hq : MemOk q.1 := by
    clear_value r
    refine memOk_foldl_fst (s := (r.1, ([] : List Nat))) ?_ _ hr
    intro s c h
    extract_lets k
    split
    · exact h
    · exact memOk_motFail _ _ _ h
  clear_value q
  exact hq
theorem memOk_commitMotion (s : State) (l cams : List Nat) (h : MemOk s) : MemOk (commitMotion s l cams) := by
  simp (maxDischargeDepth := 200) +contextual only [commitMotion, implies_true, memOk_ite, memOk_mk, memOk_mem, memOk_foldl, memOk_foldl_fst, memOk_foldl_snd, memOk_setMot, memOk_wrw, h]

/-! ## Commit -/

theorem memOk_askCommit (s : State) (n : Nat) (h : MemOk s) : MemOk (askCommit s n) := by
  unfold askCommit
  dsimp only
  repeat' split
  all_goals simp (maxDischargeDepth := 200) +contextual only [implies_true, memOk_ite, memOk_mk, memOk_mem, memOk_checkAxes, memOk_checkMotion, memOk_post, memOk_setSticky, memOk_wrs, h]
theorem memOk_execCommitRequest (m : Master) (w : W32) (s : State) (h : MemOk s) : ∀ u, execCommitRequest m w s = .next u → MemOk u := by
  intro u hu
  simp only [execCommitRequest, Host.Outcome.next.injEq] at hu
  subst hu
  simp (maxDischargeDepth := 200) +contextual only [implies_true, memOk_ite, memOk_mk, memOk_mem, memOk_askCommit, memOk_pairAction, memOk_wr, h]
theorem memOk_commitDue (s : State) (n : Nat) (h : MemOk s) : MemOk (commitDue s n) := by
  unfold commitDue
  split <;> simp (maxDischargeDepth := 200) +contextual only [implies_true, memOk_ite, memOk_mk, memOk_mem, memOk_commitAxes, memOk_commitMotion, memOk_raise, memOk_setSticky, memOk_wr, h]

/-! ## SafeOps -/

theorem memOk_setChan (s : State) (b : Bool) (x : Chan) (h : MemOk s) : MemOk (setChan s b x) := by
  simp (maxDischargeDepth := 200) +contextual only [setChan, implies_true, memOk_ite, memOk_mk, memOk_mem, h]
theorem memOk_safetyStop (s : State) (g grade : Nat) (h : MemOk s) : MemOk (safetyStop s g grade) := by
  simp (maxDischargeDepth := 200) +contextual only [safetyStop, implies_true, memOk_ite, memOk_mk, memOk_mem, memOk_foldl, memOk_foldl_fst, memOk_foldl_snd, memOk_askStop, memOk_noteItem, h]
theorem memOk_enterSto (s : State) (b : Bool) (gs : BitVec 4) (h : MemOk s) : MemOk (enterSto s b gs) := by
  simp (maxDischargeDepth := 200) +contextual only [enterSto, implies_true, memOk_ite, memOk_mk, memOk_mem, memOk_foldl, memOk_foldl_fst, memOk_foldl_snd, memOk_safetyStop, memOk_setChan, h]
theorem memOk_enterSs1 (s : State) (b : Bool) (gs : BitVec 4) (h : MemOk s) : MemOk (enterSs1 s b gs) := by
  simp (maxDischargeDepth := 200) +contextual only [enterSs1, implies_true, memOk_ite, memOk_mk, memOk_mem, memOk_foldl, memOk_foldl_fst, memOk_foldl_snd, memOk_safetyStop, memOk_setChan, h]
theorem memOk_demandActs (s : State) (b : Bool) (p : Nat) (h : MemOk s) : MemOk (demandActs s b p) := by
  simp (maxDischargeDepth := 200) +contextual only [demandActs, implies_true, memOk_ite, memOk_mk, memOk_mem, memOk_foldl, memOk_foldl_fst, memOk_foldl_snd, memOk_enterSs1, memOk_enterSto, memOk_incCnt, memOk_post, memOk_setChan, h]
theorem memOk_lookDemands (s : State) (b : Bool) (h : MemOk s) : MemOk (lookDemands s b) := by
  simp (maxDischargeDepth := 200) +contextual only [lookDemands, implies_true, memOk_ite, memOk_mk, memOk_mem, memOk_foldl, memOk_foldl_fst, memOk_foldl_snd, memOk_demandActs, memOk_setChan, h]
theorem memOk_recordFault (s : State) (b : Bool) (cause : Nat) (h : MemOk s) : MemOk (recordFault s b cause) := by
  simp (maxDischargeDepth := 200) +contextual only [recordFault, implies_true, memOk_ite, memOk_mk, memOk_mem, memOk_incErr, memOk_post, memOk_wrw, h]
theorem memOk_lockOut (s : State) (b : Bool) (h : MemOk s) : MemOk (lockOut s b) := by
  simp (maxDischargeDepth := 200) +contextual only [lockOut, implies_true, memOk_ite, memOk_mk, memOk_mem, memOk_enterSto, memOk_setChan, h]
theorem memOk_showSwitches (s : State) (before : BitVec 2 × BitVec 2) (h : MemOk s) : MemOk (showSwitches s before) := by
  simp (maxDischargeDepth := 200) +contextual only [showSwitches, implies_true, memOk_ite, memOk_mk, memOk_mem, memOk_emit, h]
theorem memOk_reSwitch (s : State) (h : MemOk s) : MemOk (reSwitch s) := by
  simp (maxDischargeDepth := 200) +contextual only [reSwitch, implies_true, memOk_ite, memOk_mk, memOk_mem, memOk_setChan, memOk_showSwitches, h]
theorem memOk_showSusp (s : State) (h : MemOk s) : MemOk (showSusp s) := by
  simp (maxDischargeDepth := 200) +contextual only [showSusp, implies_true, memOk_ite, memOk_mk, memOk_mem, memOk_wr, h]
theorem memOk_safeShow (s : State) (h : MemOk s) : MemOk (safeShow s) := by
  simp (maxDischargeDepth := 200) +contextual only [safeShow, implies_true, memOk_ite, memOk_mk, memOk_mem, memOk_enterSto, memOk_post, memOk_reSwitch, memOk_showSusp, memOk_wrs, h]
theorem memOk_chanFault (s : State) (b : Bool) (code index : Nat) (h : MemOk s) : MemOk (chanFault s b code index) := by
  simp (maxDischargeDepth := 200) +contextual only [chanFault, implies_true, memOk_ite, memOk_mk, memOk_mem, memOk_lockOut, memOk_recordFault, memOk_safeShow, memOk_setChan, h]
theorem memOk_takeOther (s : State) (b : Bool) (o : ChanStat) (h : MemOk s) : MemOk (takeOther s b o) := by
  simp (maxDischargeDepth := 200) +contextual only [takeOther, implies_true, memOk_ite, memOk_mk, memOk_mem, memOk_lockOut, memOk_recordFault, memOk_safeShow, memOk_setChan, h]
theorem memOk_writeSafeA (s : State) (h : MemOk s) : MemOk (writeSafeA s) := by
  simp (maxDischargeDepth := 200) +contextual only [writeSafeA, implies_true, memOk_ite, memOk_mk, memOk_mem, memOk_foldl, memOk_foldl_fst, memOk_foldl_snd, h]
theorem memOk_safePoints (s : State) (h : MemOk s) : MemOk (safePoints s) := by
  simp (maxDischargeDepth := 200) +contextual only [safePoints, implies_true, memOk_ite, memOk_mk, memOk_mem, memOk_foldl, memOk_foldl_fst, memOk_foldl_snd, memOk_wrPt, h]
theorem memOk_noteNode (s : State) (cyc : Nat) (h : MemOk s) : MemOk (noteNode s cyc) := by
  simp (maxDischargeDepth := 200) +contextual only [noteNode, implies_true, memOk_ite, memOk_mk, memOk_mem, h]

end Sys2Proof.Machine
end

