-- ==== Sys2Proof/Laws/MemNet.lean ====
section
/-! SUPPORT. Every operation of these files keeps the canonical form of memory: the network, schedules, the time unit, feedback, the field die and the bridge. -/

set_option linter.unusedSimpArgs false
set_option linter.unusedVariables false

namespace Sys2Proof.Machine

/-! ## LemacOps -/

theorem memOk_relayEnd (s : State) (p : Nat) (h : MemOk s) : MemOk (relayEnd s p) := by
  simp (maxDischargeDepth := 200) +contextual only [relayEnd, implies_true, memOk_ite, memOk_mk, memOk_mem, memOk_wrs, h]
theorem memOk_violate (s : State) (p : Nat) (h : MemOk s) : MemOk (violate s p) := by
  simp (maxDischargeDepth := 200) +contextual only [violate, implies_true, memOk_ite, memOk_mk, memOk_mem, memOk_wr, h]
theorem memOk_blockFrame (s : State) (p start : Nat) (h : MemOk s) : MemOk (blockFrame s p start) := by
  unfold blockFrame
  dsimp only
  repeat' split
  all_goals simp (maxDischargeDepth := 200) +contextual only [implies_true, memOk_ite, memOk_mk, memOk_mem, memOk_foldl, memOk_foldl_fst, memOk_foldl_snd, memOk_incErr, memOk_violate, h]
theorem memOk_blockRun (s : State) (p start n : Nat) (first : Bool) (h : MemOk s) : MemOk (blockRun s p start n first) := by
  simp (maxDischargeDepth := 200) +contextual only [blockRun, implies_true, memOk_ite, memOk_mk, memOk_mem, memOk_foldl, memOk_foldl_fst, memOk_foldl_snd, memOk_blockFrame, h]
theorem memOk_blockWhole (s : State) (p : Nat) (f : RxFrame) (h : MemOk s) : MemOk (blockWhole s p f) := by
  simp (maxDischargeDepth := 200) +contextual only [blockWhole, implies_true, memOk_ite, memOk_mk, memOk_mem, memOk_blockRun, h]
theorem memOk_noteStart (s : State) (p k start : Nat) (e : SlotE) (h : MemOk s) : MemOk (noteStart s p k start e) := by
  simp (maxDischargeDepth := 200) +contextual only [noteStart, implies_true, memOk_ite, memOk_mk, memOk_mem, memOk_wr, h]
theorem memOk_linkUp (s : State) (p : Nat) (h : MemOk s) : MemOk (linkUp s p) := by
  simp (maxDischargeDepth := 200) +contextual only [linkUp, implies_true, memOk_ite, memOk_mk, memOk_mem, memOk_wr, h]
theorem memOk_countChk (s : State) (p : Nat) (f : RxFrame) (c : Chk) (h : MemOk s) : MemOk (countChk s p f c) := by
  unfold countChk
  split <;> simp (maxDischargeDepth := 200) +contextual only [implies_true, memOk_ite, memOk_mk, memOk_mem, memOk_blockWhole, memOk_incErr, h]
theorem memOk_staleItems (s : State) (l : List Nat) (h : MemOk s) : MemOk (staleItems s l) := by
  simp (maxDischargeDepth := 200) +contextual only [staleItems, implies_true, memOk_ite, memOk_mk, memOk_mem, memOk_foldl, memOk_foldl_fst, memOk_foldl_snd, memOk_setStale, h]
theorem memOk_writeItems (l : List Nat) (v : List Byte) (s : State) (h : MemOk s) : MemOk (writeItems s l v) := by
  induction l generalizing s v with
  | nil => exact h
  | cons w r ih =>
    unfold writeItems
    exact memOk_ite (memOk_staleItems _ _ h) (ih _ _ (memOk_wrPt _ _ _ _ h))
theorem memOk_fireSlot (s : State) (p k : Nat) (e : SlotE) (h : MemOk s) : MemOk (fireSlot s p k e) := by
  simp (maxDischargeDepth := 200) +contextual only [fireSlot, implies_true, memOk_ite, memOk_mk, memOk_mem, memOk_fireEdges, h]
theorem memOk_missSlot (s : State) (p k : Nat) (e : SlotE) (h : MemOk s) : MemOk (missSlot s p k e) := by
  simp (maxDischargeDepth := 200) +contextual only [missSlot, implies_true, memOk_ite, memOk_mk, memOk_mem, memOk_fireSlot, memOk_staleItems, h]
theorem memOk_noteClash (s : State) (a b : RxRec) (stream : Bool) (h : MemOk s) : MemOk (noteClash s a b stream) := by
  unfold noteClash
  dsimp only
  repeat' split
  all_goals simp (maxDischargeDepth := 200) +contextual only [implies_true, memOk_ite, memOk_mk, memOk_mem, memOk_post, memOk_setSticky, memOk_staleItems, memOk_wrs, h]
theorem memOk_noteTheta (s : State) (slot : Nat) (dev : Int) (h : MemOk s) : MemOk (noteTheta s slot dev) := by
  simp (maxDischargeDepth := 200) +contextual only [noteTheta, implies_true, memOk_ite, memOk_mk, memOk_mem, h]
theorem memOk_takeSlot (s : State) (p k : Nat) (e : SlotE) (f : RxFrame) (h : MemOk s) : MemOk (takeSlot s p k e f) := by
  unfold takeSlot
  dsimp only
  repeat' split
  all_goals simp (maxDischargeDepth := 200) +contextual only [implies_true, memOk_ite, memOk_mk, memOk_mem, memOk_fireSlot, memOk_missSlot, memOk_noteClash, memOk_noteNode, memOk_noteTheta, memOk_staleItems, memOk_writeItems, h]
theorem memOk_takeForwarded (s : State) (p k : Nat) (e : SlotE) (f : RxFrame) (h : MemOk s) : MemOk (takeForwarded s p k e f) := by
  simp (maxDischargeDepth := 200) +contextual only [takeForwarded, implies_true, memOk_ite, memOk_mk, memOk_mem, memOk_incCnt, memOk_takeSlot, h]
theorem memOk_forwardFrame (s : State) (p : Nat) (f : RxFrame) (e : SlotE) (h : MemOk s) : MemOk (forwardFrame s p f e) := by
  simp (maxDischargeDepth := 200) +contextual only [forwardFrame, implies_true, memOk_ite, memOk_mk, memOk_mem, memOk_emit, h]
theorem memOk_acceptSlot (s : State) (f : RxFrame) (k : Nat) (h : MemOk s) : MemOk (acceptSlot s f k) := by
  unfold acceptSlot
  dsimp only
  repeat' split
  all_goals simp (maxDischargeDepth := 200) +contextual only [implies_true, memOk_ite, memOk_mk, memOk_mem, memOk_forwardFrame, memOk_incCnt, memOk_incErr, memOk_setPort, memOk_takeSlot, h]
theorem memOk_rxSlotFrame (s : State) (f : RxFrame) (h : MemOk s) : MemOk (rxSlotFrame s f) := by
  unfold rxSlotFrame
  dsimp only
  repeat' split
  all_goals simp (maxDischargeDepth := 200) +contextual only [implies_true, memOk_ite, memOk_mk, memOk_mem, memOk_acceptSlot, memOk_countChk, memOk_linkUp, memOk_noteStart, h]
theorem memOk_setEpoch (s : State) (e : Nat) (h : MemOk s) : MemOk (setEpoch s e) := by
  simp (maxDischargeDepth := 200) +contextual only [setEpoch, implies_true, memOk_ite, memOk_mk, memOk_mem, memOk_wr, h]
theorem memOk_learnEpoch (s : State) (e : Nat) (h : MemOk s) : MemOk (learnEpoch s e) := by
  unfold learnEpoch
  split <;> simp (maxDischargeDepth := 200) +contextual only [implies_true, memOk_ite, memOk_mk, memOk_mem, h]
theorem memOk_hearEpoch (s : State) (p e : Nat) (h : MemOk s) : MemOk (hearEpoch s p e) := by
  simp (maxDischargeDepth := 200) +contextual only [hearEpoch, implies_true, memOk_ite, memOk_mk, memOk_mem, memOk_learnEpoch, memOk_wr, h]
theorem memOk_sendFrame (s : State) (p at_ : Nat) (b : List Byte) (h : MemOk s) : MemOk (sendFrame s p at_ b) := by
  simp (maxDischargeDepth := 200) +contextual only [sendFrame, implies_true, memOk_ite, memOk_mk, memOk_mem, memOk_emit, memOk_incCnt, h]
theorem memOk_setTime (s : State) (t : Nat) (h : MemOk s) : MemOk (setTime s t) := by
  simp (maxDischargeDepth := 200) +contextual only [setTime, implies_true, memOk_ite, memOk_mk, memOk_mem, h]
theorem memOk_moveTime (s : State) (d : Int) (h : MemOk s) : MemOk (moveTime s d) := by
  simp (maxDischargeDepth := 200) +contextual only [moveTime, implies_true, memOk_ite, memOk_mk, memOk_mem, memOk_setTime, h]
theorem memOk_ownPass (s : State) (d : Int) (h : MemOk s) : MemOk (ownPass s d) := by
  simp (maxDischargeDepth := 200) +contextual only [ownPass, implies_true, memOk_ite, memOk_mk, memOk_mem, h]
theorem memOk_netPass (s : State) (d : Int) (h : MemOk s) : MemOk (netPass s d) := by
  simp (maxDischargeDepth := 200) +contextual only [netPass, implies_true, memOk_ite, memOk_mk, memOk_mem, memOk_ownPass, h]
theorem memOk_joinSync (s : State) (h : MemOk s) : MemOk (joinSync s) := by
  simp (maxDischargeDepth := 200) +contextual only [joinSync, implies_true, memOk_ite, memOk_mk, memOk_mem, h]
theorem memOk_dropHistory (s : State) (h : MemOk s) : MemOk (dropHistory s) := by
  simp (maxDischargeDepth := 200) +contextual only [dropHistory, implies_true, memOk_ite, memOk_mk, memOk_mem, h]
theorem memOk_launchCs (s : State) (h : MemOk s) : MemOk (launchCs s) := by
  simp (maxDischargeDepth := 200) +contextual only [launchCs, implies_true, memOk_ite, memOk_mk, memOk_mem, memOk_foldl, memOk_foldl_fst, memOk_foldl_snd, memOk_incCnt, memOk_sendFrame, h]
theorem memOk_sendPr (s : State) (pcyc : Nat) (h : MemOk s) : MemOk (sendPr s pcyc) := by
  simp (maxDischargeDepth := 200) +contextual only [sendPr, implies_true, memOk_ite, memOk_mk, memOk_mem, memOk_foldl, memOk_foldl_fst, memOk_foldl_snd, memOk_sendFrame, h]

/-! ## Lemac -/

theorem memOk_execNfReceive (f : RxFrame) (s : State) (h : MemOk s) : ∀ u, execNfReceive f s = .next u → MemOk u := by
  intro u hu
  simp only [execNfReceive, Host.Outcome.next.injEq] at hu
  subst hu
  simp (maxDischargeDepth := 200) +contextual only [implies_true, memOk_ite, memOk_mk, memOk_mem, memOk_rxSlotFrame, h]
theorem memOk_execSyReceive (f : RxFrame) (s : State) (h : MemOk s) : ∀ u, execSyReceive f s = .next u → MemOk u := by
  intro u hu
  simp only [execSyReceive, Host.Outcome.next.injEq] at hu
  subst hu
  simp (maxDischargeDepth := 200) +contextual only [implies_true, memOk_ite, memOk_mk, memOk_mem, memOk_rxSlotFrame, h]
theorem memOk_execAcceptanceWindowEnd (p : Fin 24) (k : Fin 4096) (s : State) (h : MemOk s) : ∀ u, execAcceptanceWindowEnd p k s = .next u → MemOk u := by
  intro u hu
  simp only [execAcceptanceWindowEnd, Host.Outcome.next.injEq] at hu
  subst hu
  repeat' split
  all_goals simp (maxDischargeDepth := 200) +contextual only [implies_true, memOk_ite, memOk_mk, memOk_mem, memOk_missSlot, h]
theorem memOk_execRxLenCut (p : Fin 24) (at_ rest : Nat) (s : State) (h : MemOk s) : ∀ u, execRxLenCut p at_ rest s = .next u → MemOk u := by
  intro u hu
  simp only [execRxLenCut, Host.Outcome.next.injEq] at hu
  subst hu
  simp (maxDischargeDepth := 200) +contextual only [implies_true, memOk_ite, memOk_mk, memOk_mem, memOk_blockRun, memOk_incErr, memOk_violate, h]
theorem memOk_cutLast (s : State) (p : Nat) (h : MemOk s) : MemOk (cutLast s p) := by
  simp (maxDischargeDepth := 200) +contextual only [cutLast, implies_true, memOk_ite, memOk_mk, memOk_mem, memOk_free, h]
theorem memOk_execTxCut (p : Fin 24) (s : State) (h : MemOk s) : ∀ u, execTxCut p s = .next u → MemOk u := by
  intro u hu
  simp only [execTxCut, Host.Outcome.next.injEq] at hu
  subst hu
  simp (maxDischargeDepth := 200) +contextual only [implies_true, memOk_ite, memOk_mk, memOk_mem, memOk_cutLast, memOk_incErr, memOk_postOther, memOk_selfFault, h]
theorem memOk_execGuardClosed (p : Fin 24) (s : State) (h : MemOk s) : ∀ u, execGuardClosed p s = .next u → MemOk u := by
  intro u hu
  simp only [execGuardClosed, Host.Outcome.next.injEq] at hu
  subst hu
  simp (maxDischargeDepth := 200) +contextual only [implies_true, memOk_ite, memOk_mk, memOk_mem, memOk_post, memOk_setPort, memOk_wr, h]
theorem memOk_execDrift (p : Fin 24) (k : Fin 4096) (s : State) (h : MemOk s) : ∀ u, execDrift p k s = .next u → MemOk u := by
  intro u hu
  simp only [execDrift, Host.Outcome.next.injEq] at hu
  subst hu
  repeat' split
  all_goals simp (maxDischargeDepth := 200) +contextual only [implies_true, memOk_ite, memOk_mk, memOk_mem, memOk_incCnt, memOk_post, memOk_setSticky, h]
theorem memOk_execLineBreak (p : Fin 24) (s : State) (h : MemOk s) : ∀ u, execLineBreak p s = .next u → MemOk u := by
  intro u hu
  simp only [execLineBreak, Host.Outcome.next.injEq] at hu
  subst hu
  simp (maxDischargeDepth := 200) +contextual only [implies_true, memOk_ite, memOk_mk, memOk_mem, memOk_postOther, memOk_setPort, memOk_wr, h]
theorem memOk_execRelayEnd (p : Fin 24) (s : State) (h : MemOk s) : ∀ u, execRelayEnd p s = .next u → MemOk u := by
  intro u hu
  simp only [execRelayEnd, Host.Outcome.next.injEq] at hu
  subst hu
  simp (maxDischargeDepth := 200) +contextual only [implies_true, memOk_ite, memOk_mk, memOk_mem, memOk_relayEnd, h]
theorem memOk_execPortLinkDown (p : Fin 24) (peerUp : BitVec 24) (s : State) (h : MemOk s) : ∀ u, execPortLinkDown p peerUp s = .next u → MemOk u := by
  intro u hu
  simp only [execPortLinkDown, Host.Outcome.next.injEq] at hu
  subst hu
  simp (maxDischargeDepth := 200) +contextual only [implies_true, memOk_ite, memOk_mk, memOk_mem, memOk_selfFault, memOk_wr, h]
theorem memOk_csAtOrigin (s : State) (p : Nat) (c : CsInfo) (h : MemOk s) : MemOk (csAtOrigin s p c) := by
  simp (maxDischargeDepth := 200) +contextual only [csAtOrigin, implies_true, memOk_ite, memOk_mk, memOk_mem, memOk_post, memOk_wr, h]
theorem memOk_csAtFar (s : State) (p start : Nat) (c : CsInfo) (h : MemOk s) : MemOk (csAtFar s p start c) := by
  simp (maxDischargeDepth := 200) +contextual only [csAtFar, implies_true, memOk_ite, memOk_mk, memOk_mem, memOk_setPort, h]
theorem memOk_adoptCs (s : State) (p : Nat) (c : CsInfo) (h : MemOk s) : MemOk (adoptCs s p c) := by
  simp (maxDischargeDepth := 200) +contextual only [adoptCs, implies_true, memOk_ite, memOk_mk, memOk_mem, memOk_joinSync, memOk_setEpoch, memOk_setTime, memOk_wr, h]
theorem memOk_integrate (s : State) (p : Nat) (c : CsInfo) (h : MemOk s) : MemOk (integrate s p c) := by
  unfold integrate
  dsimp only
  repeat' split
  all_goals simp (maxDischargeDepth := 200) +contextual only [implies_true, memOk_ite, memOk_mk, memOk_mem, memOk_adoptCs, memOk_wr, h]
theorem memOk_execCsLoss (s : State) (h : MemOk s) : ∀ u, execCsLoss s = .next u → MemOk u := by
  intro u hu
  simp only [execCsLoss, Host.Outcome.next.injEq] at hu
  subst hu
  simp (maxDischargeDepth := 200) +contextual only [implies_true, memOk_ite, memOk_mk, memOk_mem, memOk_stopLaunch, h]
theorem memOk_execPrReceive (f : RxFrame) (s : State) (h : MemOk s) : ∀ u, execPrReceive f s = .next u → MemOk u := by
  intro u hu
  simp only [execPrReceive, Host.Outcome.next.injEq] at hu
  subst hu
  repeat' split
  all_goals simp (maxDischargeDepth := 200) +contextual only [implies_true, memOk_ite, memOk_mk, memOk_mem, memOk_countChk, memOk_hearEpoch, memOk_incCnt, memOk_linkUp, memOk_post, memOk_setSticky, memOk_wr, h]
theorem memOk_execRankClashBackoffEnd (s : State) (h : MemOk s) : ∀ u, execRankClashBackoffEnd s = .next u → MemOk u := by
  intro u hu
  simp only [execRankClashBackoffEnd, Host.Outcome.next.injEq] at hu
  subst hu
  simp (maxDischargeDepth := 200) +contextual only [implies_true, memOk_ite, memOk_mk, memOk_mem, memOk_wr, h]
theorem memOk_execPrimeHalt (s : State) (h : MemOk s) : ∀ u, execPrimeHalt s = .next u → MemOk u := by
  intro u hu
  simp only [execPrimeHalt, Host.Outcome.next.injEq] at hu
  subst hu
  simp (maxDischargeDepth := 200) +contextual only [implies_true, memOk_ite, memOk_mk, memOk_mem, memOk_wrs, h]
theorem memOk_execListenEnd (s : State) (h : MemOk s) : ∀ u, execListenEnd s = .next u → MemOk u := by
  intro u hu
  simp only [execListenEnd, Host.Outcome.next.injEq] at hu
  subst hu
  simp (maxDischargeDepth := 200) +contextual only [implies_true, memOk_ite, memOk_mk, memOk_mem, memOk_wr, h]
theorem memOk_execRestart (m : Master) (w : W32) (s : State) (h : MemOk s) : ∀ u, execRestart m w s = .next u → MemOk u := by
  intro u hu
  simp only [execRestart, Host.Outcome.next.injEq] at hu
  subst hu
  simp (maxDischargeDepth := 200) +contextual only [implies_true, memOk_ite, memOk_mk, memOk_mem, memOk_regAction, memOk_wrs, h]
theorem memOk_startCs (s : State) (h : MemOk s) : MemOk (startCs s) := by
  simp (maxDischargeDepth := 200) +contextual only [startCs, implies_true, memOk_ite, memOk_mk, memOk_mem, memOk_dropHistory, memOk_joinSync, memOk_moveTime, memOk_setEpoch, memOk_wr, h]
theorem memOk_primeBoundary (s : State) (h : MemOk s) : MemOk (primeBoundary s) := by
  simp (maxDischargeDepth := 200) +contextual only [primeBoundary, implies_true, memOk_ite, memOk_mk, memOk_mem, memOk_sendPr, memOk_startCs, h]
theorem memOk_txRestart (s : State) (p : Nat) (h : MemOk s) : MemOk (txRestart s p) := by
  simp (maxDischargeDepth := 200) +contextual only [txRestart, implies_true, memOk_ite, memOk_mk, memOk_mem, memOk_setPort, h]
theorem memOk_rxRestart (s : State) (p : Nat) (h : MemOk s) : MemOk (rxRestart s p) := by
  simp (maxDischargeDepth := 200) +contextual only [rxRestart, implies_true, memOk_ite, memOk_mk, memOk_mem, memOk_setPort, h]
theorem memOk_portEnable (was s : State) (p : Nat) (en : Fld) (h : MemOk was) (h2 : MemOk s) : MemOk (portEnable was s p en) := by
  simp (maxDischargeDepth := 200) +contextual only [portEnable, implies_true, memOk_ite, memOk_mk, memOk_mem, memOk_rxRestart, memOk_txRestart, h, h2]
theorem memOk_execReopen (m : Master) (p : Fin 24) (w : W32) (s : State) (h : MemOk s) : ∀ u, execReopen m p w s = .next u → MemOk u := by
  intro u hu
  simp only [execReopen, Host.Outcome.next.injEq] at hu
  subst hu
  simp (maxDischargeDepth := 200) +contextual only [implies_true, memOk_ite, memOk_mk, memOk_mem, memOk_portEnable, memOk_regAction, memOk_setPort, h]
theorem memOk_execClashClr (m : Master) (w : W32) (s : State) (h : MemOk s) : ∀ u, execClashClr m w s = .next u → MemOk u := by
  intro u hu
  simp only [execClashClr, Host.Outcome.next.injEq] at hu
  subst hu
  simp (maxDischargeDepth := 200) +contextual only [implies_true, memOk_ite, memOk_mk, memOk_mem, memOk_regAction, h]
theorem memOk_logLateRuns (s : State) (h : MemOk s) : MemOk (logLateRuns s) := by
  simp (maxDischargeDepth := 200) +contextual only [logLateRuns, implies_true, memOk_ite, memOk_mk, memOk_mem, memOk_foldl, memOk_foldl_fst, memOk_foldl_snd, memOk_post, memOk_raise, h]
theorem memOk_lateEntry (s : State) (i : Nat) (h : MemOk s) : MemOk (lateEntry s i) := by
  simp (maxDischargeDepth := 200) +contextual only [lateEntry, implies_true, memOk_ite, memOk_mk, memOk_mem, memOk_foldl, memOk_foldl_fst, memOk_foldl_snd, memOk_incCnt, memOk_setAxis, memOk_setStat, h]
theorem memOk_noteEntry (s : State) (i : Nat) (late : Bool) (h : MemOk s) : MemOk (noteEntry s i late) := by
  simp (maxDischargeDepth := 200) +contextual only [noteEntry, implies_true, memOk_ite, memOk_mk, memOk_mem, h]
theorem memOk_execSpLaunch (p : Fin 24) (k : Fin 4096) (s : State) (h : MemOk s) : ∀ u, execSpLaunch p k s = .next u → MemOk u := by
  intro u hu
  simp only [execSpLaunch, Host.Outcome.next.injEq] at hu
  subst hu
  repeat' split
  all_goals simp (maxDischargeDepth := 200) +contextual only [implies_true, memOk_ite, memOk_mk, memOk_mem, memOk_foldl, memOk_foldl_fst, memOk_foldl_snd, memOk_addCnt, memOk_lateEntry, memOk_noteEntry, memOk_sendFrame, h]

/-! ## Schedule -/

theorem memOk_copyBank (s : State) (blk b : Nat) (h : MemOk s) : MemOk (copyBank s blk b) := by
  simp (maxDischargeDepth := 200) +contextual only [copyBank, implies_true, memOk_ite, memOk_mk, memOk_mem, memOk_mwrite, h]
theorem memOk_execInstall (m : Master) (w : W32) (s : State) (h : MemOk s) : ∀ u, execInstall m w s = .next u → MemOk u := by
  intro u hu
  simp only [execInstall, Host.Outcome.next.injEq] at hu
  subst hu
  simp (maxDischargeDepth := 200) +contextual only [implies_true, memOk_ite, memOk_mk, memOk_mem, memOk_clearAck, memOk_holdAndReturn, memOk_holdBlocks, memOk_pairActionWith, memOk_wr, h]
theorem memOk_execInstallComplete (s : State) (h : MemOk s) : ∀ u, execInstallComplete s = .next u → MemOk u := by
  intro u hu
  simp only [execInstallComplete, Host.Outcome.next.injEq] at hu
  subst hu
  repeat' split
  all_goals simp (maxDischargeDepth := 200) +contextual only [implies_true, memOk_ite, memOk_mk, memOk_mem, memOk_ackPeer, memOk_clearAck, memOk_clrBusy, memOk_copyBank, memOk_giveBack, memOk_setSticky, memOk_wr, memOk_wrs, h]
theorem memOk_execClear (m : Master) (w : W32) (s : State) (h : MemOk s) : ∀ u, execClear m w s = .next u → MemOk u := by
  intro u hu
  simp only [execClear, Host.Outcome.next.injEq] at hu
  subst hu
  simp (maxDischargeDepth := 200) +contextual only [implies_true, memOk_ite, memOk_mk, memOk_mem, memOk_pairOp, memOk_wr, memOk_wrs, h]

/-! ## AsyncNet -/

theorem memOk_handBack (s : State) (b n : Nat) (h : MemOk s) : MemOk (handBack s b n) := by
  simp (maxDischargeDepth := 200) +contextual only [handBack, implies_true, memOk_ite, memOk_mk, memOk_mem, memOk_foldl, memOk_foldl_fst, memOk_foldl_snd, memOk_setFloat, h]
theorem memOk_ringPut {s t : State} {p : Nat} {bytes : List Byte} {ns frac : Nat} {cut : Bool} (h : MemOk s)
    (e : ringPut s p bytes ns frac cut = some t) : MemOk t := by
  unfold ringPut at e
  extract_lets r k x o c s1 at e
  generalize hc : (ringOn s r && decide (k ≤ r.2) && allFloat s (r.1 + o) k 3) = b at e
  cases b with
  | false => simp at e
  | true =>
    simp only [if_true, Option.some.injEq] at e
    rw [← e]
    exact memOk_setPort _ _ _ (memOk_handBack _ _ _ (memOk_mwrite _ _ h))
theorem memOk_sendRing (s : State) (p t : Nat) (frame : List Byte) (h : MemOk s) : MemOk (sendRing s p t frame) := by
  simp (maxDischargeDepth := 200) +contextual only [sendRing, implies_true, memOk_ite, memOk_mk, memOk_mem, memOk_emit, memOk_incCnt, memOk_sendFrame, h]
theorem memOk_takeRec (s : State) (p k status next : Nat) (wrap sent : Bool) (h : MemOk s) : MemOk (takeRec s p k status next wrap sent) := by
  simp (maxDischargeDepth := 200) +contextual only [takeRec, implies_true, memOk_ite, memOk_mk, memOk_mem, memOk_setPort, h]
theorem memOk_launchRec (s : State) (p t k : Nat) (bytes : List Byte) (h : MemOk s) : MemOk (launchRec s p t k bytes) := by
  simp (maxDischargeDepth := 200) +contextual only [launchRec, implies_true, memOk_ite, memOk_mk, memOk_mem, memOk_sendRing, memOk_takeRec, h]
theorem memOk_txStart (s : State) (p t : Nat) (win : Option (Nat × Bool)) (h : MemOk s) : MemOk (txStart s p t win) := by
  unfold txStart
  dsimp only
  repeat' split
  all_goals simp (maxDischargeDepth := 200) +contextual only [implies_true, memOk_ite, memOk_mk, memOk_mem, memOk_free, memOk_launchRec, memOk_takeRec, h]
theorem memOk_execTimedLaunch (p : Fin 26) (passed : Bool) (s : State) (h : MemOk s) : ∀ u, execTimedLaunch p passed s = .next u → MemOk u := by
  intro u hu
  simp only [execTimedLaunch, Host.Outcome.next.injEq] at hu
  subst hu
  repeat' split
  all_goals simp (maxDischargeDepth := 200) +contextual only [implies_true, memOk_ite, memOk_mk, memOk_mem, memOk_incErr, memOk_launchRec, memOk_takeRec, h]
theorem memOk_finishRec (s : State) (p : Nat) (r : TxRun) (ns frac : Nat) (cut : Bool) (h : MemOk s) : MemOk (finishRec s p r ns frac cut) := by
  simp (maxDischargeDepth := 200) +contextual only [finishRec, implies_true, memOk_ite, memOk_mk, memOk_mem, memOk_mwrite, memOk_free, memOk_handBack, memOk_setPort, h]
theorem memOk_execTxRecordComplete (p : Fin 26) (stamp : W64) (frac : BitVec 16) (cut : Bool) (s : State) (h : MemOk s) : ∀ u, execTxRecordComplete p stamp frac cut s = .next u → MemOk u := by
  intro u hu
  simp only [execTxRecordComplete, Host.Outcome.next.injEq] at hu
  subst hu
  repeat' split
  all_goals simp (maxDischargeDepth := 200) +contextual only [implies_true, memOk_ite, memOk_mk, memOk_mem, memOk_finishRec, memOk_setPort, memOk_txStart, h]
theorem memOk_noteDline (s : State) (p : Nat) (d : Nat) (h : MemOk s) : MemOk (noteDline s p d) := by
  simp (maxDischargeDepth := 200) +contextual only [noteDline, implies_true, memOk_ite, memOk_mk, memOk_mem, memOk_setPort, memOk_wr, h]
theorem memOk_sendAs (s : State) (p at_ : Nat) (body : List Byte) (h : MemOk s) : MemOk (sendAs s p at_ body) := by
  simp (maxDischargeDepth := 200) +contextual only [sendAs, implies_true, memOk_ite, memOk_mk, memOk_mem, memOk_sendFrame, h]
theorem memOk_sendResp (s : State) (p at_ : Nat) (q : Nat × Nat) (h : MemOk s) : MemOk (sendResp s p at_ q) := by
  simp (maxDischargeDepth := 200) +contextual only [sendResp, implies_true, memOk_ite, memOk_mk, memOk_mem, memOk_free, memOk_incCnt, memOk_sendAs, h]
theorem memOk_sendAsk (s : State) (p at_ : Nat) (h : MemOk s) : MemOk (sendAsk s p at_) := by
  simp (maxDischargeDepth := 200) +contextual only [sendAsk, implies_true, memOk_ite, memOk_mk, memOk_mem, memOk_free, memOk_sendAs, memOk_setPort, h]
theorem memOk_sendTsync (s : State) (p at_ : Nat) (win : Option (Nat × Bool)) (h : MemOk s) : MemOk (sendTsync s p at_ win).1 := by
  unfold sendTsync
  extract_lets gap x c1 s1 r
  have h1 : MemOk s1 := memOk_ite h (memOk_setPort _ _ _ h)
  have hr : MemOk r.1 := by
    refine memOk_foldl_fst (fun a q ha => ?_) _ h1
    split
    · exact ha
    · split
      · exact memOk_sendResp _ _ _ _ ha
      · exact memOk_setPort _ _ _ ha
  split
  · exact memOk_sendAsk _ _ _ hr
  · exact hr
theorem memOk_execAsyncWindowStart (p : Fin 24) (k : Fin 4096) (s : State) (h : MemOk s) : ∀ u, execAsyncWindowStart p k s = .next u → MemOk u := by
  intro u hu
  simp only [execAsyncWindowStart, Host.Outcome.next.injEq] at hu
  subst hu
  repeat' split
  all_goals simp (maxDischargeDepth := 200) +contextual only [implies_true, memOk_ite, memOk_mk, memOk_mem, memOk_sendTsync, memOk_setPort, memOk_txStart, h]
theorem memOk_pollRings (s : State) (h : MemOk s) : MemOk (pollRings s) := by
  simp (maxDischargeDepth := 200) +contextual only [pollRings, implies_true, memOk_ite, memOk_mk, memOk_mem, memOk_foldl, memOk_foldl_fst, memOk_foldl_snd, memOk_txStart, h]
theorem memOk_execCasExecute (k : Nat) (s : State) (h : MemOk s) : ∀ u, execCasExecute k s = .next u → MemOk u := by
  intro u hu
  simp only [execCasExecute, Host.Outcome.next.injEq] at hu
  subst hu
  simp (maxDischargeDepth := 200) +contextual only [implies_true, memOk_ite, memOk_mk, memOk_mem, memOk_casRun, memOk_pollRings, h]
theorem memOk_toRing (s : State) (f : RxFrame) (cut : Bool) (h : MemOk s) : MemOk (toRing s f cut) := by
  simp only [toRing]
  split
  · next he => exact memOk_ringPut (memOk_incCnt _ _ h) he
  · exact memOk_incErr _ _ (memOk_incCnt _ _ h)
theorem memOk_rxAsync (s : State) (f : RxFrame) (cut : Bool) (g : State → State) (h : MemOk s) (hfg : ∀ s, MemOk s → MemOk (g s)) : MemOk (rxAsync s f cut g) := by
  simp (maxDischargeDepth := 200) +contextual only [rxAsync, implies_true, memOk_ite, memOk_mk, memOk_mem, memOk_blockWhole, memOk_incErr, memOk_linkUp, memOk_violate, h, hfg]
theorem memOk_execAsyncFrameReceive (f : RxFrame) (cut : Bool) (s : State) (h : MemOk s) : ∀ u, execAsyncFrameReceive f cut s = .next u → MemOk u := by
  intro u hu
  simp only [execAsyncFrameReceive, Host.Outcome.next.injEq] at hu
  subst hu
  simp (maxDischargeDepth := 200) +contextual only [implies_true, memOk_ite, memOk_mk, memOk_mem, memOk_incErr, memOk_rxAsync, memOk_toRing, h]
theorem memOk_answerTsync (s : State) (p tag t2 t3 : Nat) (h : MemOk s) : MemOk (answerTsync s p tag t2 t3) := by
  simp (maxDischargeDepth := 200) +contextual only [answerTsync, implies_true, memOk_ite, memOk_mk, memOk_mem, memOk_sendResp, memOk_setPort, h]
theorem memOk_takeAnswer (s : State) (p start : Nat) (b : List Byte) (h : MemOk s) : MemOk (takeAnswer s p start b) := by
  unfold takeAnswer
  split <;> simp (maxDischargeDepth := 200) +contextual only [implies_true, memOk_ite, memOk_mk, memOk_mem, memOk_noteDline, memOk_setPort, h]
theorem memOk_execAsReceive (f : RxFrame) (t3 : W64) (s : State) (h : MemOk s) : ∀ u, execAsReceive f t3 s = .next u → MemOk u := by
  intro u hu
  have hu := Host.Outcome.next.inj hu
  subst hu
  refine memOk_rxAsync _ _ _ _ h (fun s h => ?_)
  split
  · exact memOk_ite (memOk_answerTsync _ _ _ _ _ (memOk_incCnt _ _ h)) (memOk_ite (memOk_takeAnswer _ _ _ _ (memOk_incCnt _ _ h)) (memOk_toRing _ _ _ h))
  · exact memOk_countChk _ _ _ _ h

/-! ## TimeUnit -/

theorem memOk_setRate (s : State) (r : Int) (h : MemOk s) : MemOk (setRate s r) := by
  simp (maxDischargeDepth := 200) +contextual only [setRate, implies_true, memOk_ite, memOk_mk, memOk_mem, memOk_wr, h]
theorem memOk_rateStep (s : State) (used : Tbl Int) (h : MemOk s) : MemOk (rateStep s used) := by
  simp (maxDischargeDepth := 200) +contextual only [rateStep, implies_true, memOk_ite, memOk_mk, memOk_mem, memOk_setRate, h]
theorem memOk_upstreamStep (s : State) (h : MemOk s) : MemOk (upstreamStep s) := by
  unfold upstreamStep
  split <;> simp (maxDischargeDepth := 200) +contextual only [implies_true, memOk_ite, memOk_mk, memOk_mem, memOk_setRate, h]
theorem memOk_execAveragingInstant (s : State) (h : MemOk s) : ∀ u, execAveragingInstant s = .next u → MemOk u := by
  intro u hu
  simp only [execAveragingInstant, Host.Outcome.next.injEq] at hu
  subst hu
  simp (maxDischargeDepth := 200) +contextual only [implies_true, memOk_ite, memOk_mk, memOk_mem, memOk_foldl, memOk_foldl_fst, memOk_foldl_snd, memOk_incErr, memOk_rateStep, memOk_upstreamStep, memOk_wrs, h]
theorem memOk_trimSync (s : State) (h : MemOk s) : MemOk (trimSync s) := by
  simp (maxDischargeDepth := 200) +contextual only [trimSync, implies_true, memOk_ite, memOk_mk, memOk_mem, memOk_free, h]
theorem memOk_execRtcRealign (s : State) (h : MemOk s) : ∀ u, execRtcRealign s = .next u → MemOk u := by
  intro u hu
  simp only [execRtcRealign, Host.Outcome.next.injEq] at hu
  subst hu
  simp (maxDischargeDepth := 200) +contextual only [implies_true, memOk_ite, memOk_mk, memOk_mem, memOk_trimSync, memOk_wrs, h]
theorem memOk_loadTime (s : State) (ns : Nat) (h : MemOk s) : MemOk (loadTime s ns) := by
  simp (maxDischargeDepth := 200) +contextual only [loadTime, implies_true, memOk_ite, memOk_mk, memOk_mem, memOk_moveTime, h]
theorem memOk_execSet (m : Master) (w : W32) (s : State) (h : MemOk s) : ∀ u, execSet m w s = .next u → MemOk u := by
  intro u hu
  simp only [execSet, Host.Outcome.next.injEq] at hu
  subst hu
  simp (maxDischargeDepth := 200) +contextual only [implies_true, memOk_ite, memOk_mk, memOk_mem, memOk_errlog, memOk_loadTime, memOk_regAction, h]
theorem memOk_execStepAccept (m : Master) (w : W32) (s : State) (h : MemOk s) : ∀ u, execStepAccept m w s = .next u → MemOk u := by
  intro u hu
  simp only [execStepAccept, Host.Outcome.next.injEq] at hu
  subst hu
  simp (maxDischargeDepth := 200) +contextual only [implies_true, memOk_ite, memOk_mk, memOk_mem, memOk_pairOp, memOk_setSticky, memOk_wr, h]
theorem memOk_execStepCancel (m : Master) (w : W32) (s : State) (h : MemOk s) : ∀ u, execStepCancel m w s = .next u → MemOk u := by
  intro u hu
  simp only [execStepCancel, Host.Outcome.next.injEq] at hu
  subst hu
  simp (maxDischargeDepth := 200) +contextual only [implies_true, memOk_ite, memOk_mk, memOk_mem, memOk_pairOp, memOk_wr, h]
theorem memOk_setPlant (s : State) (n : Nat) (x : PlantSt) (h : MemOk s) : MemOk (setPlant s n x) := by
  simp (maxDischargeDepth := 200) +contextual only [setPlant, implies_true, memOk_ite, memOk_mk, memOk_mem, h]
theorem memOk_timeJump (s : State) (us : Nat) (h : MemOk s) : MemOk (timeJump s us) := by
  simp (maxDischargeDepth := 200) +contextual only [timeJump, implies_true, memOk_ite, memOk_mk, memOk_mem, memOk_incErr, memOk_post, memOk_setSticky, memOk_wr, h]
theorem memOk_execUpstreamSyncEvent (master ofs : W64) (s : State) (h : MemOk s) : ∀ u, execUpstreamSyncEvent master ofs s = .next u → MemOk u := by
  intro u hu
  simp only [execUpstreamSyncEvent, Host.Outcome.next.injEq] at hu
  subst hu
  repeat' split
  all_goals simp (maxDischargeDepth := 200) +contextual only [implies_true, memOk_ite, memOk_mk, memOk_mem, memOk_timeJump, memOk_wr, memOk_wr64, h]
theorem memOk_upstreamEnd (s : State) (n : Option Nat) (h : MemOk s) : MemOk (upstreamEnd s n) := by
  unfold upstreamEnd
  split <;> simp (maxDischargeDepth := 200) +contextual only [implies_true, memOk_ite, memOk_mk, memOk_mem, memOk_wr, h]
theorem memOk_upstreamChange (was s : State) (h : MemOk was) (h2 : MemOk s) : MemOk (upstreamChange was s) := by
  simp (maxDischargeDepth := 200) +contextual only [upstreamChange, implies_true, memOk_ite, memOk_mk, memOk_mem, memOk_upstreamEnd, memOk_wr, h, h2]
theorem memOk_execHoldover (s : State) (h : MemOk s) : ∀ u, execHoldover s = .next u → MemOk u := by
  intro u hu
  simp only [execHoldover, Host.Outcome.next.injEq] at hu
  subst hu
  repeat' split
  all_goals simp (maxDischargeDepth := 200) +contextual only [implies_true, memOk_ite, memOk_mk, memOk_mem, memOk_setRate, memOk_upstreamEnd, memOk_wr, h]
theorem memOk_execHoldoverEnd (s : State) (h : MemOk s) : ∀ u, execHoldoverEnd s = .next u → MemOk u := by
  intro u hu
  simp only [execHoldoverEnd, Host.Outcome.next.injEq] at hu
  subst hu
  simp (maxDischargeDepth := 200) +contextual only [implies_true, memOk_ite, memOk_mk, memOk_mem, memOk_wr, h]
theorem memOk_execDlineMeasure (s : State) (h : MemOk s) : ∀ u, execDlineMeasure s = .next u → MemOk u := by
  intro u hu
  have hu := Host.Outcome.next.inj hu
  subst hu
  refine memOk_ite (memOk_ite ?_ ?_) h
  · exact memOk_foldl (fun s x h => memOk_ite (memOk_setPort _ _ _ h) h) _ h
  · refine memOk_foldl (fun s x h => ?_) _ h
    split
    · exact memOk_ite (memOk_noteDline _ _ _ (memOk_noteDline _ _ _ h)) h
    · exact h
theorem memOk_execAnnounceReceive (n : Fin 2) (a : Announce) (s : State) (h : MemOk s) : ∀ u, execAnnounceReceive n a s = .next u → MemOk u := by
  intro u hu
  simp only [execAnnounceReceive, Host.Outcome.next.injEq] at hu
  subst hu
  repeat' split
  all_goals simp (maxDischargeDepth := 200) +contextual only [implies_true, memOk_ite, memOk_mk, memOk_mem, memOk_free, memOk_incCnt, memOk_setPlant, memOk_timeJump, memOk_upstreamEnd, memOk_wr, h]
theorem memOk_execGmResume (n : Fin 2) (s : State) (h : MemOk s) : ∀ u, execGmResume n s = .next u → MemOk u := by
  intro u hu
  simp only [execGmResume, Host.Outcome.next.injEq] at hu
  subst hu
  simp (maxDischargeDepth := 200) +contextual only [implies_true, memOk_ite, memOk_mk, memOk_mem, memOk_wr, h]
theorem memOk_execPtpSyncSend (n : Fin 2) (what : PtpSend) (s : State) (h : MemOk s) : ∀ u, execPtpSyncSend n what s = .next u → MemOk u := by
  intro u hu
  simp only [execPtpSyncSend, Host.Outcome.next.injEq] at hu
  subst hu
  repeat' split
  all_goals simp (maxDischargeDepth := 200) +contextual only [implies_true, memOk_ite, memOk_mk, memOk_mem, memOk_emit, memOk_incCnt, h]
theorem memOk_execPlantFrameReceive (n : Fin 2) (f : PlantFrame) (s : State) (h : MemOk s) : ∀ u, execPlantFrameReceive n f s = .next u → MemOk u := by
  intro u hu
  have hu := Host.Outcome.next.inj hu
  subst hu
  refine memOk_ite ?_ h
  extract_lets s1 st s2 as
  have h1 : MemOk s1 := memOk_incCnt _ _ (memOk_wr _ _ _ h)
  have h2 : MemOk s2 := by
    simp only [s2]
    split
    · next he => exact memOk_ringPut h1 he
    · exact memOk_incErr _ _ h1
  split
  · exact memOk_ite (memOk_emit _ _ (memOk_incCnt _ _ h2)) h2
  · exact h2
theorem memOk_setTt (s : State) (o : Nat) (x : TtSt) (h : MemOk s) : MemOk (setTt s o x) := by
  simp (maxDischargeDepth := 200) +contextual only [setTt, implies_true, memOk_ite, memOk_mk, memOk_mem, memOk_wr, h]
theorem memOk_ttBegin (s : State) (o : Nat) (a : TtArm) (h : MemOk s) : MemOk (ttBegin s o a) := by
  simp (maxDischargeDepth := 200) +contextual only [ttBegin, implies_true, memOk_ite, memOk_mk, memOk_mem, memOk_setSticky, memOk_setTt, memOk_wr, h]
theorem memOk_ttIdle (s : State) (o : Nat) (h : MemOk s) : MemOk (ttIdle s o) := by
  simp (maxDischargeDepth := 200) +contextual only [ttIdle, implies_true, memOk_ite, memOk_mk, memOk_mem, memOk_setTt, memOk_wr, h]
theorem memOk_execTtArm (m : Master) (o : Fin 4) (w : W32) (s : State) (h : MemOk s) : ∀ u, execTtArm m o w s = .next u → MemOk u := by
  intro u hu
  simp only [execTtArm, Host.Outcome.next.injEq] at hu
  subst hu
  simp (maxDischargeDepth := 200) +contextual only [implies_true, memOk_ite, memOk_mk, memOk_mem, memOk_regAction, memOk_setTt, memOk_ttBegin, memOk_ttIdle, h]
theorem memOk_execTtRearmEffect (o : Fin 4) (s : State) (h : MemOk s) : ∀ u, execTtRearmEffect o s = .next u → MemOk u := by
  intro u hu
  simp only [execTtRearmEffect, Host.Outcome.next.injEq] at hu
  subst hu
  repeat' split
  all_goals simp (maxDischargeDepth := 200) +contextual only [implies_true, memOk_ite, memOk_mk, memOk_mem, memOk_ttBegin, h]
theorem memOk_ttEmit (s : State) (o : Nat) (a : TtArm) (n : Nat) (h : MemOk s) : MemOk (ttEmit s o a n) := by
  simp (maxDischargeDepth := 200) +contextual only [ttEmit, implies_true, memOk_ite, memOk_mk, memOk_mem, memOk_addCnt, memOk_emit, memOk_setTt, memOk_wr, h]
theorem memOk_execTtOutputEdge (o : Fin 4) (s : State) (h : MemOk s) : ∀ u, execTtOutputEdge o s = .next u → MemOk u := by
  intro u hu
  simp only [execTtOutputEdge, Host.Outcome.next.injEq] at hu
  subst hu
  repeat' split
  all_goals simp (maxDischargeDepth := 200) +contextual only [implies_true, memOk_ite, memOk_mk, memOk_mem, memOk_ttEmit, h]
theorem memOk_ttStep (s : State) (h : MemOk s) : MemOk (ttStep s) := by
  unfold ttStep
  apply memOk_foldl (h := h)
  intro s o h
  split
  · simp (maxDischargeDepth := 200) +contextual only [memOk_ite, memOk_ttEmit, h]
  · exact h
theorem memOk_setCapt (s : State) (n : Nat) (x : CaptSt) (h : MemOk s) : MemOk (setCapt s n x) := by
  simp (maxDischargeDepth := 200) +contextual only [setCapt, implies_true, memOk_ite, memOk_mk, memOk_mem, h]
theorem memOk_execCaptureEdge (n : Fin 8) (rise : Bool) (taken : W64) (s : State) (h : MemOk s) : ∀ u, execCaptureEdge n rise taken s = .next u → MemOk u := by
  intro u hu
  simp only [execCaptureEdge, Host.Outcome.next.injEq] at hu
  subst hu
  simp (maxDischargeDepth := 200) +contextual only [implies_true, memOk_ite, memOk_mk, memOk_mem, memOk_incCnt, memOk_incErr, memOk_setCapt, h]
theorem memOk_execCapturePop (m : Master) (n : Fin 8) (s : State) (h : MemOk s) : ∀ u, execCapturePop m n s = .next u → MemOk u := by
  intro u hu
  have hu := Host.Outcome.next.inj hu
  subst hu
  refine memOk_pageAccess _ _ _ _ _ h ?_
  intro s h
  split
  · exact memOk_answer _ _ h
  · exact memOk_answer _ _ (memOk_wrs _ _ (memOk_setCapt _ _ _ h))
theorem memOk_captPoints (s : State) (h : MemOk s) : MemOk (captPoints s) := by
  simp (maxDischargeDepth := 200) +contextual only [captPoints, implies_true, memOk_ite, memOk_mk, memOk_mem, memOk_foldl, memOk_foldl_fst, memOk_foldl_snd, memOk_wrPt, h]
theorem memOk_execNowNsRead (m : Master) (s : State) (h : MemOk s) : ∀ u, execNowNsRead m s = .next u → MemOk u := by
  intro u hu
  simp only [execNowNsRead, Host.Outcome.next.injEq] at hu
  subst hu
  simp (maxDischargeDepth := 200) +contextual only [implies_true, memOk_ite, memOk_mk, memOk_mem, memOk_answer, memOk_bput, memOk_pageAccess, h]
theorem memOk_execTimeUnitFault (s : State) (h : MemOk s) : ∀ u, execTimeUnitFault s = .next u → MemOk u := by
  intro u hu
  simp only [execTimeUnitFault, Host.Outcome.next.injEq] at hu
  subst hu
  simp (maxDischargeDepth := 200) +contextual only [implies_true, memOk_ite, memOk_mk, memOk_mem, memOk_selfFault, h]

/-! ## Feedback -/

theorem memOk_setEnc (s : State) (n : Nat) (x : EncSt) (h : MemOk s) : MemOk (setEnc s n x) := by
  simp (maxDischargeDepth := 200) +contextual only [setEnc, implies_true, memOk_ite, memOk_mk, memOk_mem, h]
theorem memOk_execEncoderTransition (n : Fin 8) (old new : BitVec 3) (taken : W64) (s : State) (h : MemOk s) : ∀ u, execEncoderTransition n old new taken s = .next u → MemOk u := by
  intro u hu
  simp only [execEncoderTransition, Host.Outcome.next.injEq] at hu
  subst hu
  repeat' split
  all_goals simp (maxDischargeDepth := 200) +contextual only [implies_true, memOk_ite, memOk_mk, memOk_mem, memOk_incErr, memOk_setEnc, memOk_wr, h]
theorem memOk_execZEdge (n : Fin 8) (taken : W64) (s : State) (h : MemOk s) : ∀ u, execZEdge n taken s = .next u → MemOk u := by
  intro u hu
  simp only [execZEdge, Host.Outcome.next.injEq] at hu
  subst hu
  simp (maxDischargeDepth := 200) +contextual only [implies_true, memOk_ite, memOk_mk, memOk_mem, memOk_setEnc, memOk_wrPt, memOk_wrs, h]
theorem memOk_putReport (s : State) (n : Nat) (r : Report) (h : MemOk s) : MemOk (putReport s n r) := by
  simp (maxDischargeDepth := 200) +contextual only [putReport, implies_true, memOk_ite, memOk_mk, memOk_mem, memOk_setEnc, memOk_setStale, memOk_wrPt, memOk_wrs, h]
theorem memOk_encEdges (s : State) (n : Nat) (h : MemOk s) : MemOk (encEdges s n) := by
  simp (maxDischargeDepth := 200) +contextual only [encEdges, implies_true, memOk_ite, memOk_mk, memOk_mem, memOk_fireEdges, h]
theorem memOk_takeEncEdges (s : State) (h : MemOk s) : MemOk (takeEncEdges s) := by
  simp (maxDischargeDepth := 200) +contextual only [takeEncEdges, implies_true, memOk_ite, memOk_mk, memOk_mem, memOk_foldl, memOk_foldl_fst, memOk_foldl_snd, memOk_encEdges, h]
theorem memOk_countFail (s : State) (n cause : Nat) (h : MemOk s) : MemOk (countFail s n cause) := by
  simp (maxDischargeDepth := 200) +contextual only [countFail, implies_true, memOk_ite, memOk_mk, memOk_mem, memOk_incErr, h]
theorem memOk_encFinish (s : State) (n cause : Nat) (p6 : Nat) (r : Option Report) (h : MemOk s) : MemOk (encFinish s n cause p6 r) := by
  unfold encFinish
  dsimp only
  repeat' split
  all_goals simp (maxDischargeDepth := 200) +contextual only [implies_true, memOk_ite, memOk_mk, memOk_mem, memOk_countFail, memOk_encEdges, memOk_putReport, memOk_setEnc, memOk_setStale, memOk_wr, memOk_wrPt, h]
theorem memOk_execEncoderSample (n : Fin 8) (s : State) (h : MemOk s) : ∀ u, execEncoderSample n s = .next u → MemOk u := by
  intro u hu
  simp only [execEncoderSample, Host.Outcome.next.injEq] at hu
  subst hu
  repeat' split
  all_goals simp (maxDischargeDepth := 200) +contextual only [implies_true, memOk_ite, memOk_mk, memOk_mem, memOk_emit, memOk_encFinish, memOk_setEnc, h]
theorem memOk_execSerialWordComplete (n : Fin 8) (word : SerialWord) (s : State) (h : MemOk s) : ∀ u, execSerialWordComplete n word s = .next u → MemOk u := by
  intro u hu
  simp only [execSerialWordComplete, Host.Outcome.next.injEq] at hu
  subst hu
  repeat' split
  all_goals simp (maxDischargeDepth := 200) +contextual only [implies_true, memOk_ite, memOk_mk, memOk_mem, memOk_encFinish, memOk_setEnc, memOk_wr, h]
theorem memOk_execSerialTimeout (n : Fin 8) (s : State) (h : MemOk s) : ∀ u, execSerialTimeout n s = .next u → MemOk u := by
  intro u hu
  simp only [execSerialTimeout, Host.Outcome.next.injEq] at hu
  subst hu
  repeat' split
  all_goals simp (maxDischargeDepth := 200) +contextual only [implies_true, memOk_ite, memOk_mk, memOk_mem, memOk_foldl, memOk_foldl_fst, memOk_foldl_snd, memOk_encEdges, memOk_encFinish, memOk_setEnc, memOk_setStale, memOk_wr, h]
theorem memOk_execEncFault (n : Fin 8) (s : State) (h : MemOk s) : ∀ u, execEncFault n s = .next u → MemOk u := by
  intro u hu
  simp only [execEncFault, Host.Outcome.next.injEq] at hu
  subst hu
  simp (maxDischargeDepth := 200) +contextual only [implies_true, memOk_ite, memOk_mk, memOk_mem, memOk_post, memOk_wr, h]
theorem memOk_execEncLoad (m : Master) (n : Fin 8) (w : W32) (s : State) (h : MemOk s) : ∀ u, execEncLoad m n w s = .next u → MemOk u := by
  intro u hu
  simp only [execEncLoad, Host.Outcome.next.injEq] at hu
  subst hu
  simp (maxDischargeDepth := 200) +contextual only [implies_true, memOk_ite, memOk_mk, memOk_mem, memOk_regAction, memOk_setEnc, memOk_wrs, h]
theorem memOk_execZarm (m : Master) (n : Fin 8) (w : W32) (s : State) (h : MemOk s) : ∀ u, execZarm m n w s = .next u → MemOk u := by
  intro u hu
  simp only [execZarm, Host.Outcome.next.injEq] at hu
  subst hu
  simp (maxDischargeDepth := 200) +contextual only [implies_true, memOk_ite, memOk_mk, memOk_mem, memOk_regAction, memOk_wr, h]
theorem memOk_execEncClr (m : Master) (n : Fin 8) (w : W32) (s : State) (h : MemOk s) : ∀ u, execEncClr m n w s = .next u → MemOk u := by
  intro u hu
  simp only [execEncClr, Host.Outcome.next.injEq] at hu
  subst hu
  simp (maxDischargeDepth := 200) +contextual only [implies_true, memOk_ite, memOk_mk, memOk_mem, memOk_regAction, memOk_setEnc, memOk_wr, h]
theorem memOk_encTimeStep (s : State) (d : Int) (h : MemOk s) : MemOk (encTimeStep s d) := by
  simp (maxDischargeDepth := 200) +contextual only [encTimeStep, implies_true, memOk_ite, memOk_mk, memOk_mem, memOk_foldl, memOk_foldl_fst, memOk_foldl_snd, memOk_setEnc, h]
theorem memOk_encHandBack (s : State) (n : Nat) (h : MemOk s) : MemOk (encHandBack s n).2 := by
  unfold encHandBack
  split <;> simp (maxDischargeDepth := 200) +contextual only [implies_true, memOk_ite, memOk_mk, memOk_mem, memOk_setEnc, memOk_wrs, h]
theorem memOk_encBoundary (s : State) (was : Nat → Nat) (h : MemOk s) : MemOk (encBoundary s was) := by
  simp (maxDischargeDepth := 200) +contextual only [encBoundary, implies_true, memOk_ite, memOk_mk, memOk_mem, memOk_foldl, memOk_foldl_fst, memOk_foldl_snd, memOk_encHandBack, memOk_setEnc, memOk_takeEncEdges, memOk_wr, h]

/-! ## Emulation -/

theorem memOk_setEmu (s : State) (m : Nat) (x : EmuSt) (h : MemOk s) : MemOk (setEmu s m x) := by
  simp (maxDischargeDepth := 200) +contextual only [setEmu, implies_true, memOk_ite, memOk_mk, memOk_mem, h]
theorem memOk_emuUpdate (s : State) (m : Nat) (h : MemOk s) : MemOk (emuUpdate s m) := by
  simp (maxDischargeDepth := 200) +contextual only [emuUpdate, implies_true, memOk_ite, memOk_mk, memOk_mem, memOk_incCnt, memOk_setEmu, memOk_wr, h]
theorem memOk_emuUpdates (s : State) (h : MemOk s) : MemOk (emuUpdates s) := by
  simp (maxDischargeDepth := 200) +contextual only [emuUpdates, implies_true, memOk_ite, memOk_mk, memOk_mem, memOk_foldl, memOk_foldl_fst, memOk_foldl_snd, memOk_emuUpdate, h]
theorem memOk_execEmulationEdge (m : Fin 4) (s : State) (h : MemOk s) : ∀ u, execEmulationEdge m s = .next u → MemOk u := by
  intro u hu
  simp only [execEmulationEdge, Host.Outcome.next.injEq] at hu
  subst hu
  repeat' split
  all_goals simp (maxDischargeDepth := 200) +contextual only [implies_true, memOk_ite, memOk_mk, memOk_mem, memOk_emit, memOk_setEmu, h]
theorem memOk_emuBoundary (s : State) (h : MemOk s) : MemOk (emuBoundary s) := by
  simp (maxDischargeDepth := 200) +contextual only [emuBoundary, implies_true, memOk_ite, memOk_mk, memOk_mem, memOk_foldl, memOk_foldl_fst, memOk_foldl_snd, memOk_setEmu, memOk_setSticky, memOk_wr, memOk_wrPt, h]

/-! ## FieldIo -/

theorem memOk_filterInput (x : BitVec 16) (s : State) (i : Nat) (h : MemOk s) : MemOk (filterInput x s i) := by
  simp (maxDischargeDepth := 200) +contextual only [filterInput, implies_true, memOk_ite, memOk_mk, memOk_mem, h]
theorem memOk_sampleField (s : State) (x : FieldSample) (h : MemOk s) : MemOk (sampleField s x) := by
  simp (maxDischargeDepth := 200) +contextual only [sampleField, implies_true, memOk_ite, memOk_mk, memOk_mem, memOk_foldl, memOk_foldl_fst, memOk_foldl_snd, memOk_filterInput, memOk_wrs, h]
theorem memOk_redrive (s : State) (h : MemOk s) : MemOk (redrive s) := by
  simp (maxDischargeDepth := 200) +contextual only [redrive, implies_true, memOk_ite, memOk_mk, memOk_mem, memOk_emit, memOk_wr, h]
theorem memOk_followOut (s : State) (h : MemOk s) : MemOk (followOut s) := by
  simp (maxDischargeDepth := 200) +contextual only [followOut, implies_true, memOk_ite, memOk_mk, memOk_mem, memOk_redrive, h]
theorem memOk_applyImage (s : State) (img : BitVec 16) (h : MemOk s) : MemOk (applyImage s img) := by
  simp (maxDischargeDepth := 200) +contextual only [applyImage, implies_true, memOk_ite, memOk_mk, memOk_mem, memOk_redrive, h]
theorem memOk_fieldFault (s : State) (k b : Nat) (err : Fld) (h : MemOk s) : MemOk (fieldFault s k b err) := by
  simp (maxDischargeDepth := 200) +contextual only [fieldFault, implies_true, memOk_ite, memOk_mk, memOk_mem, memOk_incErr, memOk_post, memOk_raise, memOk_redrive, memOk_wr, h]
theorem memOk_execOvl (k : Fin 16) (s : State) (h : MemOk s) : ∀ u, execOvl k s = .next u → MemOk u := by
  intro u hu
  simp only [execOvl, Host.Outcome.next.injEq] at hu
  subst hu
  simp (maxDischargeDepth := 200) +contextual only [implies_true, memOk_ite, memOk_mk, memOk_mem, memOk_fieldFault, h]
theorem memOk_execOtemp (k : Fin 16) (s : State) (h : MemOk s) : ∀ u, execOtemp k s = .next u → MemOk u := by
  intro u hu
  simp only [execOtemp, Host.Outcome.next.injEq] at hu
  subst hu
  simp (maxDischargeDepth := 200) +contextual only [implies_true, memOk_ite, memOk_mk, memOk_mem, memOk_fieldFault, memOk_redrive, h]
theorem memOk_execOpenWire (k : Fin 16) (s : State) (h : MemOk s) : ∀ u, execOpenWire k s = .next u → MemOk u := by
  intro u hu
  simp only [execOpenWire, Host.Outcome.next.injEq] at hu
  subst hu
  simp (maxDischargeDepth := 200) +contextual only [implies_true, memOk_ite, memOk_mk, memOk_mem, memOk_fieldFault, h]
theorem memOk_execShortLp (k : Fin 16) (s : State) (h : MemOk s) : ∀ u, execShortLp k s = .next u → MemOk u := by
  intro u hu
  simp only [execShortLp, Host.Outcome.next.injEq] at hu
  subst hu
  simp (maxDischargeDepth := 200) +contextual only [implies_true, memOk_ite, memOk_mk, memOk_mem, memOk_fieldFault, h]
theorem memOk_execGroupOverload (g : Fin 2) (s : State) (h : MemOk s) : ∀ u, execGroupOverload g s = .next u → MemOk u := by
  intro u hu
  simp only [execGroupOverload, Host.Outcome.next.injEq] at hu
  subst hu
  simp (maxDischargeDepth := 200) +contextual only [implies_true, memOk_ite, memOk_mk, memOk_mem, memOk_post, memOk_redrive, memOk_setSticky, h]
theorem memOk_execUndervoltage (g : Fin 2) (s : State) (h : MemOk s) : ∀ u, execUndervoltage g s = .next u → MemOk u := by
  intro u hu
  simp only [execUndervoltage, Host.Outcome.next.injEq] at hu
  subst hu
  simp (maxDischargeDepth := 200) +contextual only [implies_true, memOk_ite, memOk_mk, memOk_mem, memOk_redrive, memOk_setSticky, memOk_wr, h]
theorem memOk_execUndervoltageEnd (g : Fin 2) (s : State) (h : MemOk s) : ∀ u, execUndervoltageEnd g s = .next u → MemOk u := by
  intro u hu
  simp only [execUndervoltageEnd, Host.Outcome.next.injEq] at hu
  subst hu
  simp (maxDischargeDepth := 200) +contextual only [implies_true, memOk_ite, memOk_mk, memOk_mem, memOk_redrive, memOk_wr, h]
theorem memOk_execSwitchCooled (k : Fin 16) (s : State) (h : MemOk s) : ∀ u, execSwitchCooled k s = .next u → MemOk u := by
  intro u hu
  simp only [execSwitchCooled, Host.Outcome.next.injEq] at hu
  subst hu
  simp (maxDischargeDepth := 200) +contextual only [implies_true, memOk_ite, memOk_mk, memOk_mem, memOk_redrive, h]
theorem memOk_diagWrite (s : State) (k w : Nat) (h : MemOk s) : MemOk (diagWrite s k w) := by
  simp (maxDischargeDepth := 200) +contextual only [diagWrite, implies_true, memOk_ite, memOk_mk, memOk_mem, memOk_redrive, memOk_wrw, h]
theorem memOk_execDiagClear (m : Master) (r : Fin 3) (w : W32) (s : State) (h : MemOk s) : ∀ u, execDiagClear m r w s = .next u → MemOk u := by
  intro u hu
  simp only [execDiagClear, Host.Outcome.next.injEq] at hu
  subst hu
  simp (maxDischargeDepth := 200) +contextual only [implies_true, memOk_ite, memOk_mk, memOk_mem, memOk_diagWrite, memOk_regAction, h]
theorem memOk_execWatchdogTrip (s : State) (h : MemOk s) : ∀ u, execWatchdogTrip s = .next u → MemOk u := by
  intro u hu
  simp only [execWatchdogTrip, Host.Outcome.next.injEq] at hu
  subst hu
  simp (maxDischargeDepth := 200) +contextual only [implies_true, memOk_ite, memOk_mk, memOk_mem, memOk_chanFault, memOk_incCnt, memOk_redrive, memOk_wr, h]
theorem memOk_rearmWrite (s : State) (m : Master) (w : Nat) (h : MemOk s) : MemOk (rearmWrite s m w) := by
  simp (maxDischargeDepth := 200) +contextual only [rearmWrite, implies_true, memOk_ite, memOk_mk, memOk_mem, memOk_errlog, memOk_redrive, memOk_wr, h]
theorem memOk_execRearm (m : Master) (w : W32) (s : State) (h : MemOk s) : ∀ u, execRearm m w s = .next u → MemOk u := by
  intro u hu
  simp only [execRearm, Host.Outcome.next.injEq] at hu
  subst hu
  simp (maxDischargeDepth := 200) +contextual only [implies_true, memOk_ite, memOk_mk, memOk_mem, memOk_rearmWrite, memOk_regAction, h]

/-! ## Bridge -/

theorem memOk_sendMain (s : State) (h : MemOk s) : MemOk (sendMain s) := by
  simp (maxDischargeDepth := 200) +contextual only [sendMain, implies_true, memOk_ite, memOk_mk, memOk_mem, h]
theorem memOk_sendField (s : State) (x : FieldSample) (h : MemOk s) : MemOk (sendField s x) := by
  simp (maxDischargeDepth := 200) +contextual only [sendField, implies_true, memOk_ite, memOk_mk, memOk_mem, memOk_sampleField, h]
theorem memOk_execBridgeFrameSend (d : BridgeEnd) (s : State) (h : MemOk s) : ∀ u, execBridgeFrameSend d s = .next u → MemOk u := by
  intro u hu
  simp only [execBridgeFrameSend, Host.Outcome.next.injEq] at hu
  subst hu
  repeat' split
  all_goals simp (maxDischargeDepth := 200) +contextual only [implies_true, memOk_ite, memOk_mk, memOk_mem, memOk_sendField, memOk_sendMain, h]
theorem memOk_bridgeOk (s : State) (h : MemOk s) : MemOk (bridgeOk s) := by
  simp (maxDischargeDepth := 200) +contextual only [bridgeOk, implies_true, memOk_ite, memOk_mk, memOk_mem, memOk_wr, h]
theorem memOk_acceptField (s : State) (f : FrameDown) (h : MemOk s) : MemOk (acceptField s f) := by
  unfold acceptField
  split <;> simp (maxDischargeDepth := 200) +contextual only [implies_true, memOk_ite, memOk_mk, memOk_mem, memOk_applyImage, memOk_safeShow, memOk_setChan, memOk_showSwitches, memOk_takeOther, h]
theorem memOk_acceptMain (s : State) (f : FrameUp) (h : MemOk s) : MemOk (acceptMain s f) := by
  unfold acceptMain
  split <;> simp (maxDischargeDepth := 200) +contextual only [implies_true, memOk_ite, memOk_mk, memOk_mem, memOk_safeShow, memOk_takeOther, memOk_wrs, h]
theorem memOk_discard (s : State) (atField : Bool) (h : MemOk s) : MemOk (discard s atField) := by
  simp (maxDischargeDepth := 200) +contextual only [discard, implies_true, memOk_ite, memOk_mk, memOk_mem, memOk_incErr, h]
theorem memOk_execBridgeFrameReceive (atField crcOk : Bool) (s : State) (h : MemOk s) : ∀ u, execBridgeFrameReceive atField crcOk s = .next u → MemOk u := by
  intro u hu
  simp only [execBridgeFrameReceive, Host.Outcome.next.injEq] at hu
  subst hu
  repeat' split
  all_goals simp (maxDischargeDepth := 200) +contextual only [implies_true, memOk_ite, memOk_mk, memOk_mem, memOk_acceptField, memOk_acceptMain, memOk_bridgeOk, memOk_discard, h]
theorem memOk_execBridgeFault (atField : Bool) (s : State) (h : MemOk s) : ∀ u, execBridgeFault atField s = .next u → MemOk u := by
  intro u hu
  simp only [execBridgeFault, Host.Outcome.next.injEq] at hu
  subst hu
  simp (maxDischargeDepth := 200) +contextual only [implies_true, memOk_ite, memOk_mk, memOk_mem, memOk_chanFault, memOk_post, memOk_raise, memOk_selfFault, memOk_wr, h]
theorem memOk_execBridgeRefresh (s : State) (h : MemOk s) : ∀ u, execBridgeRefresh s = .next u → MemOk u := by
  intro u hu
  simp only [execBridgeRefresh, Host.Outcome.next.injEq] at hu
  subst hu
  simp (maxDischargeDepth := 200) +contextual only [implies_true, memOk_ite, memOk_mk, memOk_mem, h]
theorem memOk_execBridgeRefreshWithdraw (s : State) (h : MemOk s) : ∀ u, execBridgeRefreshWithdraw s = .next u → MemOk u := by
  intro u hu
  simp only [execBridgeRefreshWithdraw, Host.Outcome.next.injEq] at hu
  subst hu
  simp (maxDischargeDepth := 200) +contextual only [implies_true, memOk_ite, memOk_mk, memOk_mem, memOk_withdrawRefresh, h]
theorem memOk_execRefreshTimeout (s : State) (h : MemOk s) : ∀ u, execRefreshTimeout s = .next u → MemOk u := by
  intro u hu
  simp only [execRefreshTimeout, Host.Outcome.next.injEq] at hu
  subst hu
  simp (maxDischargeDepth := 200) +contextual only [implies_true, memOk_ite, memOk_mk, memOk_mem, h]
theorem memOk_fieldImage (s : State) (h : MemOk s) : MemOk (fieldImage s) := by
  unfold fieldImage
  split <;> simp (maxDischargeDepth := 200) +contextual only [implies_true, memOk_ite, memOk_mk, memOk_mem, memOk_foldl, memOk_foldl_fst, memOk_foldl_snd, memOk_setStale, memOk_wrPt, h]

end Sys2Proof.Machine
end

