-- ==== Sys2Proof/Laws/MemUnits.lean ====
section
/-! SUPPORT. Every operation of these files keeps the canonical form of memory: safety, acquisition, CAN, power transitions, standby, boot, self-test and the pair link. -/

set_option linter.unusedSimpArgs false
set_option linter.unusedVariables false

namespace Sys2Proof.Machine

/-! ## SafeCmds -/

theorem memOk_resetDone (s : State) (mode : Nat) (viaNode : Bool) (h : MemOk s) : MemOk (resetDone s mode viaNode) := by
  simp (maxDischargeDepth := 200) +contextual only [resetDone, implies_true, memOk_ite, memOk_mk, memOk_mem, memOk_incCnt, memOk_post, h]
theorem memOk_resetDenied (s : State) (h : MemOk s) : MemOk (resetDenied s) := by
  simp (maxDischargeDepth := 200) +contextual only [resetDenied, implies_true, memOk_ite, memOk_mk, memOk_mem, memOk_incErr, h]
theorem memOk_unlockGroups (s : State) (b : Bool) (ok : BitVec 4) (h : MemOk s) : MemOk (unlockGroups s b ok) := by
  simp (maxDischargeDepth := 200) +contextual only [unlockGroups, implies_true, memOk_ite, memOk_mk, memOk_mem, memOk_setChan, h]
theorem memOk_nodeReset (s : State) (fresh : BitVec 4) (h : MemOk s) : MemOk (nodeReset s fresh) := by
  simp (maxDischargeDepth := 200) +contextual only [nodeReset, implies_true, memOk_ite, memOk_mk, memOk_mem, memOk_resetDenied, memOk_resetDone, memOk_unlockGroups, h]
theorem memOk_execSafetyEvaluation (s : State) (h : MemOk s) : ∀ u, execSafetyEvaluation s = .next u → MemOk u := by
  intro u hu
  simp only [execSafetyEvaluation, Host.Outcome.next.injEq] at hu
  subst hu
  simp (maxDischargeDepth := 200) +contextual only [implies_true, memOk_ite, memOk_mk, memOk_mem, memOk_lookDemands, memOk_nodeReset, memOk_safeShow, memOk_setChan, h]
theorem memOk_execSafetyInputChange (chB : Bool) (i : Fin 8) (level : Bool) (s : State) (h : MemOk s) : ∀ u, execSafetyInputChange chB i level s = .next u → MemOk u := by
  intro u hu
  simp only [execSafetyInputChange, Host.Outcome.next.injEq] at hu
  subst hu
  simp (maxDischargeDepth := 200) +contextual only [implies_true, memOk_ite, memOk_mk, memOk_mem, memOk_lookDemands, memOk_safeShow, memOk_setChan, h]
theorem memOk_execDiscTimeout (chB : Bool) (p : Fin 4) (s : State) (h : MemOk s) : ∀ u, execDiscTimeout chB p s = .next u → MemOk u := by
  intro u hu
  simp only [execDiscTimeout, Host.Outcome.next.injEq] at hu
  subst hu
  simp (maxDischargeDepth := 200) +contextual only [implies_true, memOk_ite, memOk_mk, memOk_mem, memOk_chanFault, h]
theorem memOk_execAliveTimeout (chB : Bool) (s : State) (h : MemOk s) : ∀ u, execAliveTimeout chB s = .next u → MemOk u := by
  intro u hu
  simp only [execAliveTimeout, Host.Outcome.next.injEq] at hu
  subst hu
  simp (maxDischargeDepth := 200) +contextual only [implies_true, memOk_ite, memOk_mk, memOk_mem, memOk_chanFault, h]
theorem memOk_execXcompTimeout (chB : Bool) (s : State) (h : MemOk s) : ∀ u, execXcompTimeout chB s = .next u → MemOk u := by
  intro u hu
  simp only [execXcompTimeout, Host.Outcome.next.injEq] at hu
  subst hu
  simp (maxDischargeDepth := 200) +contextual only [implies_true, memOk_ite, memOk_mk, memOk_mem, memOk_chanFault, h]
theorem memOk_bothFault (s : State) (code index : Nat) (h : MemOk s) : MemOk (bothFault s code index) := by
  simp (maxDischargeDepth := 200) +contextual only [bothFault, implies_true, memOk_ite, memOk_mk, memOk_mem, memOk_chanFault, h]
theorem memOk_pulseInput (tp : Nat) (low : BitVec 8) (s : State) (i : Nat) (h : MemOk s) : MemOk (pulseInput tp low s i) := by
  simp (maxDischargeDepth := 200) +contextual only [pulseInput, implies_true, memOk_ite, memOk_mk, memOk_mem, memOk_bothFault, h]
theorem memOk_execInputTestPulse (tp : Fin 2) (low : BitVec 8) (s : State) (h : MemOk s) : ∀ u, execInputTestPulse tp low s = .next u → MemOk u := by
  intro u hu
  simp only [execInputTestPulse, Host.Outcome.next.injEq] at hu
  subst hu
  simp (maxDischargeDepth := 200) +contextual only [implies_true, memOk_ite, memOk_mk, memOk_mem, memOk_foldl, memOk_foldl_fst, memOk_foldl_snd, memOk_pulseInput, h]
theorem memOk_execOutputTestPulse (q : Fin 2) (falls rises offHigh follows : Bool) (s : State) (h : MemOk s) :
    ∀ u, execOutputTestPulse q falls rises offHigh follows s = .next u → MemOk u := by
  intro u hu
  have hu := Host.Outcome.next.inj hu
  subst hu
  refine memOk_ite h (memOk_ite (memOk_ite h ?_) (memOk_ite (memOk_bothFault _ _ _ h) h))
  extract_lets low c1 s1 s2 s3 s4
  have h1 : MemOk s1 := memOk_mk (memOk_mem h)
  have h2 : MemOk s2 := memOk_ite (memOk_incCnt _ _ h1) h1
  have h3 : MemOk s3 := memOk_ite (memOk_emit _ _ h2) h2
  have h4 : MemOk s4 := memOk_ite (memOk_ite h3 (memOk_bothFault _ _ _ h3)) (memOk_ite h3 (memOk_bothFault _ _ _ h3))
  exact memOk_ite (memOk_bothFault _ _ _ h4) h4
theorem memOk_execEdmTimeout (chB : Bool) (q : Fin 2) (s : State) (h : MemOk s) : ∀ u, execEdmTimeout chB q s = .next u → MemOk u := by
  intro u hu
  simp only [execEdmTimeout, Host.Outcome.next.injEq] at hu
  subst hu
  simp (maxDischargeDepth := 200) +contextual only [implies_true, memOk_ite, memOk_mk, memOk_mem, memOk_chanFault, h]
theorem memOk_execSoOvl (q : Fin 2) (s : State) (h : MemOk s) : ∀ u, execSoOvl q s = .next u → MemOk u := by
  intro u hu
  simp only [execSoOvl, Host.Outcome.next.injEq] at hu
  subst hu
  simp (maxDischargeDepth := 200) +contextual only [implies_true, memOk_ite, memOk_mk, memOk_mem, memOk_bothFault, memOk_showSwitches, h]
theorem memOk_execVfsafOutOfRange (s : State) (h : MemOk s) : ∀ u, execVfsafOutOfRange s = .next u → MemOk u := by
  intro u hu
  simp only [execVfsafOutOfRange, Host.Outcome.next.injEq] at hu
  subst hu
  simp (maxDischargeDepth := 200) +contextual only [implies_true, memOk_ite, memOk_mk, memOk_mem, memOk_enterSto, memOk_safeShow, memOk_setChan, memOk_showSwitches, h]
theorem memOk_execVfsafReturn (s : State) (h : MemOk s) : ∀ u, execVfsafReturn s = .next u → MemOk u := by
  intro u hu
  simp only [execVfsafReturn, Host.Outcome.next.injEq] at hu
  subst hu
  simp (maxDischargeDepth := 200) +contextual only [implies_true, memOk_ite, memOk_mk, memOk_mem, memOk_safeShow, h]
theorem memOk_execSs1Expiry (g : Fin 4) (s : State) (h : MemOk s) : ∀ u, execSs1Expiry g s = .next u → MemOk u := by
  intro u hu
  simp only [execSs1Expiry, Host.Outcome.next.injEq] at hu
  subst hu
  simp (maxDischargeDepth := 200) +contextual only [implies_true, memOk_ite, memOk_mk, memOk_mem, memOk_enterSto, memOk_safeShow, h]
theorem memOk_execSs1BExpiry (g : Fin 4) (s : State) (h : MemOk s) : ∀ u, execSs1BExpiry g s = .next u → MemOk u := by
  intro u hu
  simp only [execSs1BExpiry, Host.Outcome.next.injEq] at hu
  subst hu
  simp (maxDischargeDepth := 200) +contextual only [implies_true, memOk_ite, memOk_mk, memOk_mem, memOk_enterSto, memOk_safeShow, h]
theorem memOk_execTpOverdue (s : State) (h : MemOk s) : ∀ u, execTpOverdue s = .next u → MemOk u := by
  intro u hu
  simp only [execTpOverdue, Host.Outcome.next.injEq] at hu
  subst hu
  simp (maxDischargeDepth := 200) +contextual only [implies_true, memOk_ite, memOk_mk, memOk_mem, memOk_chanFault, h]
theorem memOk_enterRun (s : State) (h : MemOk s) : MemOk (enterRun s) := by
  simp (maxDischargeDepth := 200) +contextual only [enterRun, implies_true, memOk_ite, memOk_mk, memOk_mem, h]
theorem memOk_hardReset (s : State) (persists : Bool) (h : MemOk s) : MemOk (hardReset s persists) := by
  simp (maxDischargeDepth := 200) +contextual only [hardReset, implies_true, memOk_ite, memOk_mk, memOk_mem, memOk_enterRun, memOk_resetDenied, memOk_resetDone, memOk_unlockGroups, memOk_wr, h]
theorem memOk_execResetPulse (ms lowMs : Nat) (persists : Bool) (s : State) (h : MemOk s) : ∀ u, execResetPulse ms lowMs persists s = .next u → MemOk u := by
  intro u hu
  simp only [execResetPulse, Host.Outcome.next.injEq] at hu
  subst hu
  simp (maxDischargeDepth := 200) +contextual only [implies_true, memOk_ite, memOk_mk, memOk_mem, memOk_hardReset, memOk_post, memOk_resetDenied, memOk_safeShow, h]
theorem memOk_takePset (s : State) (l : List Byte) (h : MemOk s) : MemOk (takePset s l) := by
  simp (maxDischargeDepth := 200) +contextual only [takePset, implies_true, memOk_ite, memOk_mk, memOk_mem, memOk_enterSto, memOk_safeShow, memOk_setChan, memOk_wrs, h]
theorem memOk_bothMode (s : State) (m : Nat) (h : MemOk s) : MemOk (bothMode s m) := by
  simp (maxDischargeDepth := 200) +contextual only [bothMode, implies_true, memOk_ite, memOk_mk, memOk_mem, memOk_enterSto, memOk_safeShow, h]
theorem memOk_serveMbox (s : State) (ops : Nat → Bool) (f : State → Nat → Nat × State) (hf : ∀ s n, MemOk s → MemOk (f s n).2) (h : MemOk s) :
    MemOk (serveMbox s ops f) := by
  simp only [serveMbox]
  split
  · exact memOk_setFloat _ _ _ _ (memOk_msetNum _ _ _ _ (memOk_msetNum _ _ _ _ (hf _ _ h)))
  · exact h
theorem memOk_execPsetInstall (s : State) (h : MemOk s) : ∀ u, execPsetInstall s = .next u → MemOk u := by
  intro u hu
  have hu := Host.Outcome.next.inj hu
  subst hu
  refine memOk_serveMbox _ _ _ ?_ h
  intro s n h
  split
  · exact h
  · exact memOk_ite (memOk_takePset _ _ h) h
theorem memOk_execEnterTest (s : State) (h : MemOk s) : ∀ u, execEnterTest s = .next u → MemOk u := by
  intro u hu
  have hu := Host.Outcome.next.inj hu
  subst hu
  refine memOk_serveMbox _ _ _ ?_ h
  intro s n h
  split
  · exact memOk_bothMode _ _ h
  · exact h
theorem memOk_execLeaveTest (s : State) (h : MemOk s) : ∀ u, execLeaveTest s = .next u → MemOk u := by
  intro u hu
  have hu := Host.Outcome.next.inj hu
  subst hu
  refine memOk_serveMbox _ _ _ ?_ h
  intro s n h
  split
  · exact memOk_bothMode _ _ h
  · exact h

/-! ## Acq -/

theorem memOk_setAcqState (s : State) (n : Nat) (h : MemOk s) : MemOk (setAcqState s n) := by
  simp (maxDischargeDepth := 200) +contextual only [setAcqState, implies_true, memOk_ite, memOk_mk, memOk_mem, memOk_wr, h]
theorem memOk_evalTrigger (s : State) (h : MemOk s) : MemOk (evalTrigger s).2 := by
  simp (maxDischargeDepth := 200) +contextual only [evalTrigger, implies_true, memOk_ite, memOk_mk, memOk_mem, h]
theorem memOk_acqTake (s : State) (c : Nat) (h : MemOk s) : MemOk (acqTake s c) := by
  simp (maxDischargeDepth := 200) +contextual only [acqTake, implies_true, memOk_ite, memOk_mk, memOk_mem, h]
theorem memOk_acqSample (s : State) (c : Nat) (h : MemOk s) : MemOk (acqSample s c).2.2 := by
  unfold acqSample
  dsimp only
  repeat' split
  all_goals simp (maxDischargeDepth := 200) +contextual only [implies_true, memOk_ite, memOk_mk, memOk_mem, memOk_free, h]
theorem memOk_acqRow (s : State) (h : MemOk s) : MemOk (acqRow s).2 := by
  have key : ∀ (l : List Nat) (a : Nat × List Byte × State), MemOk a.2.2 → MemOk (l.foldl (fun (a : Nat × List Byte × State) c =>
      let x := acqSample a.2.2 c
      (a.1 + b2n x.1 * 2 ^ c, a.2.1 ++ x.2.1, x.2.2)) a).2.2 := by
    intro l
    induction l with
    | nil => intro a h; exact h
    | cons c r ih => intro a h; exact ih _ (memOk_acqSample _ _ h)
  exact key (acqChans s) (0, [], s) h
theorem memOk_acqWrite (l : List Byte) (s : State) (o : Nat) (h : MemOk s) : MemOk (acqWrite s o l) := by
  induction l generalizing s o with
  | nil => exact h
  | cons b r ih => exact ih _ _ (memOk_mput _ _ h)
theorem memOk_acqReserve (s : State) (h : MemOk s) : MemOk (acqReserve s) := by
  simp (maxDischargeDepth := 200) +contextual only [acqReserve, implies_true, memOk_ite, memOk_mk, memOk_mem, memOk_acqWrite, memOk_addCnt, memOk_setAcqState, h]
theorem memOk_acqComplete (s : State) (broken stopped : Bool) (h : MemOk s) : MemOk (acqComplete s broken stopped) := by
  unfold acqComplete
  dsimp only
  repeat' split
  all_goals simp (maxDischargeDepth := 200) +contextual only [implies_true, memOk_ite, memOk_mk, memOk_mem, memOk_acqWrite, memOk_free, memOk_incCnt, memOk_setAcqState, memOk_wrs, h]
theorem memOk_acqTrigger (s : State) (c : Nat) (forced : Bool) (h : MemOk s) : MemOk (acqTrigger s c forced) := by
  simp (maxDischargeDepth := 200) +contextual only [acqTrigger, implies_true, memOk_ite, memOk_mk, memOk_mem, memOk_incCnt, memOk_setAcqState, h]
theorem memOk_acqKeep (s : State) (r : AcqRow) (h : MemOk s) : MemOk (acqKeep s r) := by
  simp (maxDischargeDepth := 200) +contextual only [acqKeep, implies_true, memOk_ite, memOk_mk, memOk_mem, memOk_acqComplete, memOk_setAcqState, h]
theorem memOk_acqTap (s : State) (h : MemOk s) : MemOk (acqTap s) := by
  unfold acqTap
  split <;> simp (maxDischargeDepth := 200) +contextual only [implies_true, memOk_ite, memOk_mk, memOk_mem, memOk_foldl, memOk_foldl_fst, memOk_foldl_snd, memOk_acqKeep, memOk_acqReserve, memOk_acqRow, memOk_acqTake, memOk_acqTrigger, memOk_evalTrigger, h]
theorem memOk_acqArm (s : State) (m : Master) (h : MemOk s) : MemOk (acqArm s m) := by
  simp (maxDischargeDepth := 200) +contextual only [acqArm, implies_true, memOk_ite, memOk_mk, memOk_mem, memOk_acqReserve, memOk_errlog, memOk_setSticky, h]
theorem memOk_acqStop (s : State) (h : MemOk s) : MemOk (acqStop s) := by
  simp (maxDischargeDepth := 200) +contextual only [acqStop, implies_true, memOk_ite, memOk_mk, memOk_mem, memOk_acqComplete, memOk_setAcqState, h]
theorem memOk_acqForce (s : State) (h : MemOk s) : MemOk (acqForce s) := by
  unfold acqForce
  dsimp only
  repeat' split
  all_goals simp (maxDischargeDepth := 200) +contextual only [implies_true, memOk_ite, memOk_mk, memOk_mem, memOk_acqKeep, memOk_acqTrigger, h]
theorem memOk_acqExport (s : State) (h : MemOk s) : MemOk (acqExport s) := by
  unfold acqExport
  split <;> simp (maxDischargeDepth := 200) +contextual only [implies_true, memOk_ite, memOk_mk, memOk_mem, memOk_setSticky, h]
theorem memOk_execAcqArm (m : Master) (w : W32) (s : State) (h : MemOk s) : ∀ u, execAcqArm m w s = .next u → MemOk u := by
  intro u hu
  simp only [execAcqArm, Host.Outcome.next.injEq] at hu
  subst hu
  simp (maxDischargeDepth := 200) +contextual only [implies_true, memOk_ite, memOk_mk, memOk_mem, memOk_acqArm, memOk_regAction, h]
theorem memOk_execAcqStop (m : Master) (w : W32) (s : State) (h : MemOk s) : ∀ u, execAcqStop m w s = .next u → MemOk u := by
  intro u hu
  simp only [execAcqStop, Host.Outcome.next.injEq] at hu
  subst hu
  simp (maxDischargeDepth := 200) +contextual only [implies_true, memOk_ite, memOk_mk, memOk_mem, memOk_acqStop, memOk_regAction, h]
theorem memOk_execForce (m : Master) (w : W32) (s : State) (h : MemOk s) : ∀ u, execForce m w s = .next u → MemOk u := by
  intro u hu
  simp only [execForce, Host.Outcome.next.injEq] at hu
  subst hu
  simp (maxDischargeDepth := 200) +contextual only [implies_true, memOk_ite, memOk_mk, memOk_mem, memOk_acqForce, memOk_regAction, h]
theorem memOk_execExportRec (m : Master) (w : W32) (s : State) (h : MemOk s) : ∀ u, execExportRec m w s = .next u → MemOk u := by
  intro u hu
  simp only [execExportRec, Host.Outcome.next.injEq] at hu
  subst hu
  simp (maxDischargeDepth := 200) +contextual only [implies_true, memOk_ite, memOk_mk, memOk_mem, memOk_acqExport, memOk_regAction, h]
theorem memOk_execExportComplete (s : State) (h : MemOk s) : ∀ u, execExportComplete s = .next u → MemOk u := by
  intro u hu
  simp only [execExportComplete, Host.Outcome.next.injEq] at hu
  subst hu
  repeat' split
  all_goals simp (maxDischargeDepth := 200) +contextual only [implies_true, memOk_ite, memOk_mk, memOk_mem, memOk_foldl, memOk_foldl_fst, memOk_foldl_snd, memOk_cistWrite, memOk_setFloat, memOk_setSticky, h]
theorem memOk_execRelease (m : Master) (w : W32) (s : State) (h : MemOk s) : ∀ u, execRelease m w s = .next u → MemOk u := by
  intro u hu
  simp only [execRelease, Host.Outcome.next.injEq] at hu
  subst hu
  simp (maxDischargeDepth := 200) +contextual only [implies_true, memOk_ite, memOk_mk, memOk_mem, memOk_acqReserve, memOk_regAction, h]
theorem memOk_execHoldoffExpiry (s : State) (h : MemOk s) : ∀ u, execHoldoffExpiry s = .next u → MemOk u := by
  intro u hu
  simp only [execHoldoffExpiry, Host.Outcome.next.injEq] at hu
  subst hu
  simp (maxDischargeDepth := 200) +contextual only [implies_true, memOk_ite, memOk_mk, memOk_mem, memOk_acqReserve, h]
theorem memOk_acqBreak (s : State) (h : MemOk s) : MemOk (acqBreak s) := by
  simp (maxDischargeDepth := 200) +contextual only [acqBreak, implies_true, memOk_ite, memOk_mk, memOk_mem, memOk_acqComplete, memOk_setAcqState, h]
theorem memOk_acqLeave (s : State) (h : MemOk s) : MemOk (acqLeave s) := by
  simp (maxDischargeDepth := 200) +contextual only [acqLeave, implies_true, memOk_ite, memOk_mk, memOk_mem, memOk_setAcqState, h]
theorem memOk_acqReturn (s : State) (h : MemOk s) : MemOk (acqReturn s) := by
  simp (maxDischargeDepth := 200) +contextual only [acqReturn, implies_true, memOk_ite, memOk_mk, memOk_mem, memOk_setSticky, h]

/-! ## Can -/

theorem memOk_setCan (s : State) (n : Nat) (x : CanSt) (h : MemOk s) : MemOk (setCan s n x) := by
  simp (maxDischargeDepth := 200) +contextual only [setCan, implies_true, memOk_ite, memOk_mk, memOk_mem, h]
theorem memOk_setCanTx (s : State) (n t : Nat) (x : CanTx) (h : MemOk s) : MemOk (setCanTx s n t x) := by
  simp (maxDischargeDepth := 200) +contextual only [setCanTx, implies_true, memOk_ite, memOk_mk, memOk_mem, memOk_setCan, h]
theorem memOk_setCanRx (s : State) (n b : Nat) (x : CanRx) (h : MemOk s) : MemOk (setCanRx s n b x) := by
  simp (maxDischargeDepth := 200) +contextual only [setCanRx, implies_true, memOk_ite, memOk_mk, memOk_mem, memOk_setCan, h]
theorem memOk_setTxState (s : State) (n t st : Nat) (h : MemOk s) : MemOk (setTxState s n t st) := by
  simp (maxDischargeDepth := 200) +contextual only [setTxState, implies_true, memOk_ite, memOk_mk, memOk_mem, memOk_wr, h]
theorem memOk_showErr (s : State) (n : Nat) (h : MemOk s) : MemOk (showErr s n) := by
  simp (maxDischargeDepth := 200) +contextual only [showErr, implies_true, memOk_ite, memOk_mk, memOk_mem, memOk_wr, h]
theorem memOk_execCanSync (n : Fin 4) (s : State) (h : MemOk s) : ∀ u, execCanSync n s = .next u → MemOk u := by
  intro u hu
  simp only [execCanSync, Host.Outcome.next.injEq] at hu
  subst hu
  simp (maxDischargeDepth := 200) +contextual only [implies_true, memOk_ite, memOk_mk, memOk_mem, memOk_wr, h]
theorem memOk_canRequest (s : State) (m : Master) (n t : Nat) (written : Bool) (h : MemOk s) : MemOk (canRequest s m n t written) := by
  simp (maxDischargeDepth := 200) +contextual only [canRequest, implies_true, memOk_ite, memOk_mk, memOk_mem, memOk_errlog, memOk_setCanTx, memOk_setTxState, h]
theorem memOk_execCanTxReq (m : Master) (n : Fin 4) (t : Fin 32) (w : W32) (s : State) (h : MemOk s) : ∀ u, execCanTxReq m n t w s = .next u → MemOk u := by
  intro u hu
  simp only [execCanTxReq, Host.Outcome.next.injEq] at hu
  subst hu
  simp (maxDischargeDepth := 200) +contextual only [implies_true, memOk_ite, memOk_mk, memOk_mem, memOk_canRequest, memOk_errlog, memOk_regAction, h]
theorem memOk_canCancel (s : State) (n t : Nat) (h : MemOk s) : MemOk (canCancel s n t) := by
  simp (maxDischargeDepth := 200) +contextual only [canCancel, implies_true, memOk_ite, memOk_mk, memOk_mem, memOk_setCanTx, memOk_setTxState, h]
theorem memOk_execCanCancel (m : Master) (n : Fin 4) (t : Fin 32) (w : W32) (s : State) (h : MemOk s) : ∀ u, execCanCancel m n t w s = .next u → MemOk u := by
  intro u hu
  have hu := Host.Outcome.next.inj hu
  subst hu
  exact memOk_regAction _ _ _ _ _ h (fun s h => memOk_ite (memOk_ite (memOk_errlog _ _ _ _ _ h) (memOk_canCancel _ _ _ h)) h)
theorem memOk_execCanClr (m : Master) (n : Fin 4) (t : Fin 32) (w : W32) (s : State) (h : MemOk s) : ∀ u, execCanClr m n t w s = .next u → MemOk u := by
  intro u hu
  simp only [execCanClr, Host.Outcome.next.injEq] at hu
  subst hu
  simp (maxDischargeDepth := 200) +contextual only [implies_true, memOk_ite, memOk_mk, memOk_mem, memOk_regAction, memOk_setTxState, h]
theorem memOk_execCanTxStart (n : Fin 4) (s : State) (h : MemOk s) : ∀ u, execCanTxStart n s = .next u → MemOk u := by
  intro u hu
  simp only [execCanTxStart, Host.Outcome.next.injEq] at hu
  subst hu
  repeat' split
  all_goals simp (maxDischargeDepth := 200) +contextual only [implies_true, memOk_ite, memOk_mk, memOk_mem, memOk_foldl, memOk_foldl_fst, memOk_foldl_snd, memOk_setTxState, h]
theorem memOk_addTec (s : State) (n : Nat) (up : Bool) (h : MemOk s) : MemOk (addTec s n up) := by
  simp (maxDischargeDepth := 200) +contextual only [addTec, implies_true, memOk_ite, memOk_mk, memOk_mem, memOk_showErr, memOk_wr, h]
theorem memOk_endAttempt (s : State) (n t : Nat) (h : MemOk s) : MemOk (endAttempt s n t) := by
  simp (maxDischargeDepth := 200) +contextual only [endAttempt, implies_true, memOk_ite, memOk_mk, memOk_mem, memOk_setCanTx, memOk_setTxState, h]
theorem memOk_execCanTxEnd (n : Fin 4) (out : CanEnd) (ts : W64) (frac : BitVec 16) (s : State) (h : MemOk s) : ∀ u, execCanTxEnd n out ts frac s = .next u → MemOk u := by
  intro u hu
  simp only [execCanTxEnd, Host.Outcome.next.injEq] at hu
  subst hu
  repeat' split
  all_goals simp (maxDischargeDepth := 200) +contextual only [implies_true, memOk_ite, memOk_mk, memOk_mem, memOk_addTec, memOk_endAttempt, memOk_incCnt, memOk_incErr, memOk_setCan, memOk_setCanTx, memOk_setTxState, h]
theorem memOk_execCanIdClash (n : Fin 4) (s : State) (h : MemOk s) : ∀ u, execCanIdClash n s = .next u → MemOk u := by
  intro u hu
  simp only [execCanIdClash, Host.Outcome.next.injEq] at hu
  subst hu
  simp (maxDischargeDepth := 200) +contextual only [implies_true, memOk_ite, memOk_mk, memOk_mem, memOk_incErr, memOk_post, memOk_setCan, memOk_setTxState, h]
theorem memOk_execCanBusoff (n : Fin 4) (s : State) (h : MemOk s) : ∀ u, execCanBusoff n s = .next u → MemOk u := by
  intro u hu
  simp only [execCanBusoff, Host.Outcome.next.injEq] at hu
  subst hu
  repeat' split
  all_goals simp (maxDischargeDepth := 200) +contextual only [implies_true, memOk_ite, memOk_mk, memOk_mem, memOk_endAttempt, memOk_incCnt, memOk_post, memOk_wr, h]
theorem memOk_canRecover (s : State) (n : Nat) (h : MemOk s) : MemOk (canRecover s n) := by
  simp (maxDischargeDepth := 200) +contextual only [canRecover, implies_true, memOk_ite, memOk_mk, memOk_mem, memOk_wr, h]
theorem memOk_canCtrlWrite (s : State) (m : Master) (n : Nat) (wasEn wasListen : Bool) (h : MemOk s) : MemOk (canCtrlWrite s m n wasEn wasListen) := by
  unfold canCtrlWrite
  dsimp only
  repeat' split
  all_goals simp (maxDischargeDepth := 200) +contextual only [implies_true, memOk_ite, memOk_mk, memOk_mem, memOk_endAttempt, memOk_errlog, memOk_setCan, memOk_wr, h]
theorem memOk_execRecover (m : Master) (n : Fin 4) (w : W32) (s : State) (h : MemOk s) : ∀ u, execRecover m n w s = .next u → MemOk u := by
  intro u hu
  simp only [execRecover, Host.Outcome.next.injEq] at hu
  subst hu
  simp (maxDischargeDepth := 200) +contextual only [implies_true, memOk_ite, memOk_mk, memOk_mem, memOk_canCtrlWrite, memOk_canRecover, memOk_regAction, h]
theorem memOk_execCanRecoveryComplete (n : Fin 4) (s : State) (h : MemOk s) : ∀ u, execCanRecoveryComplete n s = .next u → MemOk u := by
  intro u hu
  simp only [execCanRecoveryComplete, Host.Outcome.next.injEq] at hu
  subst hu
  simp (maxDischargeDepth := 200) +contextual only [implies_true, memOk_ite, memOk_mk, memOk_mem, memOk_wrs, h]
theorem memOk_rxStore (s : State) (n b : Nat) (f : CanMsg) (h : MemOk s) : MemOk (rxStore s n b f) := by
  simp (maxDischargeDepth := 200) +contextual only [rxStore, implies_true, memOk_ite, memOk_mk, memOk_mem, memOk_incCnt, memOk_incErr, memOk_setCanRx, memOk_wr, h]
theorem memOk_recDown (s : State) (n : Nat) (h : MemOk s) : MemOk (recDown s n) := by
  simp (maxDischargeDepth := 200) +contextual only [recDown, implies_true, memOk_ite, memOk_mk, memOk_mem, memOk_free, memOk_showErr, memOk_wr, h]
theorem memOk_execCanReceive (n : Fin 4) (f : CanFrame) (s : State) (h : MemOk s) : ∀ u, execCanReceive n f s = .next u → MemOk u := by
  intro u hu
  simp only [execCanReceive, Host.Outcome.next.injEq] at hu
  subst hu
  repeat' split
  all_goals simp (maxDischargeDepth := 200) +contextual only [implies_true, memOk_ite, memOk_mk, memOk_mem, memOk_incCnt, memOk_recDown, memOk_rxStore, h]
theorem memOk_rxRelease (s : State) (n b : Nat) (h : MemOk s) : MemOk (rxRelease s n b) := by
  unfold rxRelease
  dsimp only
  repeat' split
  all_goals simp (maxDischargeDepth := 200) +contextual only [implies_true, memOk_ite, memOk_mk, memOk_mem, memOk_setCanRx, memOk_wr, h]
theorem memOk_execBsel (m : Master) (n : Fin 4) (w : W32) (s : State) (h : MemOk s) : ∀ u, execBsel m n w s = .next u → MemOk u := by
  intro u hu
  have hu := Host.Outcome.next.inj hu
  subst hu
  refine memOk_regAction _ _ _ _ _ h ?_
  intro s h
  extract_lets new s1 s2
  have h1 : MemOk s1 := by
    simp only [s1]
    split
    · exact memOk_ite h (memOk_rxRelease _ _ _ h)
    · exact h
  exact memOk_setCan _ _ _ (memOk_wrs _ _ h1)
theorem memOk_execRxrel (m : Master) (n : Fin 4) (w : W32) (s : State) (h : MemOk s) : ∀ u, execRxrel m n w s = .next u → MemOk u := by
  intro u hu
  simp only [execRxrel, Host.Outcome.next.injEq] at hu
  subst hu
  simp (maxDischargeDepth := 200) +contextual only [implies_true, memOk_ite, memOk_mk, memOk_mem, memOk_regAction, memOk_rxRelease, memOk_setCan, h]
theorem memOk_execCanBusError (n : Fin 4) (by8 : Bool) (s : State) (h : MemOk s) : ∀ u, execCanBusError n by8 s = .next u → MemOk u := by
  intro u hu
  simp only [execCanBusError, Host.Outcome.next.injEq] at hu
  subst hu
  simp (maxDischargeDepth := 200) +contextual only [implies_true, memOk_ite, memOk_mk, memOk_mem, memOk_incErr, memOk_showErr, memOk_wr, h]
theorem memOk_canRxPoints (s : State) (n b : Nat) (h : MemOk s) : MemOk (canRxPoints s n b) := by
  unfold canRxPoints
  split <;> simp (maxDischargeDepth := 200) +contextual only [implies_true, memOk_ite, memOk_mk, memOk_mem, memOk_foldl, memOk_foldl_fst, memOk_foldl_snd, memOk_setStale, memOk_wrPt, h]
theorem memOk_canRxMap (s : State) (h : MemOk s) : MemOk (canRxMap s) := by
  simp (maxDischargeDepth := 200) +contextual only [canRxMap, implies_true, memOk_ite, memOk_mk, memOk_mem, memOk_foldl, memOk_foldl_fst, memOk_foldl_snd, memOk_canRxPoints, h]
theorem memOk_canTxLoad (s : State) (n t : Nat) (h : MemOk s) : MemOk (canTxLoad s n t) := by
  simp (maxDischargeDepth := 200) +contextual only [canTxLoad, implies_true, memOk_ite, memOk_mk, memOk_mem, memOk_canRequest, memOk_incCnt, memOk_setCanTx, h]
theorem memOk_canTxMap (s : State) (h : MemOk s) : MemOk (canTxMap s) := by
  simp (maxDischargeDepth := 200) +contextual only [canTxMap, implies_true, memOk_ite, memOk_mk, memOk_mem, memOk_foldl, memOk_foldl_fst, memOk_foldl_snd, memOk_canTxLoad, h]
theorem memOk_canWinWrite (s : State) (m : Master) (n i w : Nat) (h : MemOk s) : MemOk (canWinWrite s m n i w) := by
  simp (maxDischargeDepth := 200) +contextual only [canWinWrite, implies_true, memOk_ite, memOk_mk, memOk_mem, memOk_errlog, memOk_setCanTx, h]

/-! ## Transit -/

theorem memOk_lockPages (s : State) (d : Nat) (h : MemOk s) : MemOk (lockPages s d) := by
  simp (maxDischargeDepth := 200) +contextual only [lockPages, implies_true, memOk_ite, memOk_mk, memOk_mem, memOk_foldl, memOk_foldl_fst, memOk_foldl_snd, memOk_wr, h]
theorem memOk_flushCluster (s : State) (c : Nat) (h : MemOk s) : MemOk (flushCluster s c) := by
  simp (maxDischargeDepth := 200) +contextual only [flushCluster, implies_true, memOk_ite, memOk_mk, memOk_mem, memOk_foldl, memOk_foldl_fst, memOk_foldl_snd, memOk_addCnt, memOk_drain, memOk_setEng, memOk_setPoster, h]
theorem memOk_leaveOn (s : State) (d : Nat) (h : MemOk s) : MemOk (leaveOn s d) := by
  simp (maxDischargeDepth := 200) +contextual only [leaveOn, implies_true, memOk_ite, memOk_mk, memOk_mem, memOk_abortTests, memOk_acqLeave, memOk_dropSnap, memOk_lockPages, h]
theorem memOk_afterDom (s : State) (d : Nat) (h : MemOk s) : MemOk (afterDom s d) := by
  simp (maxDischargeDepth := 200) +contextual only [afterDom, implies_true, memOk_ite, memOk_mk, memOk_mem, memOk_redrive, memOk_safeShow, h]
theorem memOk_startTrans (s : State) (d t src : Nat) (round : Bool) (h : MemOk s) : MemOk (startTrans s d t src round) := by
  simp (maxDischargeDepth := 200) +contextual only [startTrans, implies_true, memOk_ite, memOk_mk, memOk_mem, memOk_afterDom, memOk_beginTrans, memOk_capacityCheck, memOk_leaveOn, memOk_setDom, memOk_wr, h]
theorem memOk_performReq (s : State) (m : Master) (d t src : Nat) (round : Bool) (h : MemOk s) : MemOk (performReq s m d t src round) := by
  simp (maxDischargeDepth := 200) +contextual only [performReq, implies_true, memOk_ite, memOk_mk, memOk_mem, memOk_pwrResult, memOk_startTrans, h]
theorem memOk_pwrRequest (s : State) (m : Master) (d t : Nat) (h : MemOk s) : MemOk (pwrRequest s m d t) := by
  simp only [pwrRequest]
  split
  · exact memOk_pwrResult _ _ _ _ h
  · split
    · simp (maxDischargeDepth := 200) +contextual only [memOk_ite, memOk_pwrResult, memOk_setPend, h]
    · exact memOk_performReq _ _ _ _ _ _ h
theorem memOk_execPwrReq (m : Master) (w : W32) (s : State) (h : MemOk s) : ∀ u, execPwrReq m w s = .next u → MemOk u := by
  intro u hu
  simp only [execPwrReq, Host.Outcome.next.injEq] at hu
  subst hu
  simp (maxDischargeDepth := 200) +contextual only [implies_true, memOk_ite, memOk_mk, memOk_mem, memOk_pwrRequest, memOk_regAction, h]
theorem memOk_execClusterOffExecute (c : Fin 4) (s : State) (h : MemOk s) : ∀ u, execClusterOffExecute c s = .next u → MemOk u := by
  intro u hu
  simp only [execClusterOffExecute, Host.Outcome.next.injEq] at hu
  subst hu
  repeat' split
  all_goals simp (maxDischargeDepth := 200) +contextual only [implies_true, memOk_ite, memOk_mk, memOk_mem, memOk_beginTrans, memOk_flushCluster, memOk_leaveOn, h]
theorem memOk_dropPages (s : State) (d : Nat) (h : MemOk s) : MemOk (dropPages s d) := by
  simp (maxDischargeDepth := 200) +contextual only [dropPages, implies_true, memOk_ite, memOk_mk, memOk_mem, h]
theorem memOk_dropBlocks (s : State) (d : Nat) (h : MemOk s) : MemOk (dropBlocks s d) := by
  unfold dropBlocks
  repeat' refine memOk_ite ?_ ?_
  all_goals exact h
theorem memOk_offReset (s : State) (d : Nat) (h : MemOk s) : MemOk (offReset s d) := by
  simp (maxDischargeDepth := 200) +contextual only [offReset, implies_true, memOk_ite, memOk_mk, memOk_mem, memOk_foldl, memOk_foldl_fst, memOk_foldl_snd, memOk_tdrop, memOk_afterDom, memOk_dropBlocks, memOk_dropPages, h]
theorem memOk_holdEngines (s : State) (c : Nat) (h : MemOk s) : MemOk (holdEngines s c) := by
  simp (maxDischargeDepth := 200) +contextual only [holdEngines, implies_true, memOk_ite, memOk_mk, memOk_mem, memOk_foldl, memOk_foldl_fst, memOk_foldl_snd, memOk_wr, h]
theorem memOk_clusterOn (s : State) (c : Nat) (h : MemOk s) : MemOk (clusterOn s c) := by
  simp (maxDischargeDepth := 200) +contextual only [clusterOn, implies_true, memOk_ite, memOk_mk, memOk_mem, memOk_capacityCheck, memOk_holdEngines, h]
theorem memOk_netReturn (s : State) (h : MemOk s) : MemOk (netReturn s) := by
  simp (maxDischargeDepth := 200) +contextual only [netReturn, implies_true, memOk_ite, memOk_mk, memOk_mem, memOk_loadTime, memOk_wr, memOk_wrs, h]
theorem memOk_psetGone (s : State) (b : Bool) (h : MemOk s) : MemOk (psetGone s b) := by
  simp (maxDischargeDepth := 200) +contextual only [psetGone, implies_true, memOk_ite, memOk_mk, memOk_mem, memOk_chanFault, h]
theorem memOk_arrive (s : State) (d : Nat) (h : MemOk s) : MemOk (arrive s d) := by
  simp (maxDischargeDepth := 200) +contextual only [arrive, implies_true, memOk_ite, memOk_mk, memOk_mem, memOk_foldl, memOk_foldl_fst, memOk_foldl_snd, memOk_acqReturn, memOk_afterDom, memOk_clusterOn, memOk_encHandBack, memOk_holdArea, memOk_netReturn, memOk_psetGone, memOk_setEnc, memOk_setPort, memOk_wr, h]
theorem memOk_noteWake (s : State) (src d : Nat) (round : Bool) (h : MemOk s) : MemOk (noteWake s src d round) := by
  simp (maxDischargeDepth := 200) +contextual only [noteWake, implies_true, memOk_ite, memOk_mk, memOk_mem, memOk_wrs, h]
theorem memOk_setPSt (s : State) (d : Nat) (st : PSt) (h : MemOk s) : MemOk (setPSt s d st) := by
  simp (maxDischargeDepth := 200) +contextual only [setPSt, implies_true, memOk_ite, memOk_mk, memOk_mem, memOk_setDom, h]
theorem memOk_dropStalled (s : State) (d : Nat) (h : MemOk s) : MemOk (dropStalled s d) := by
  simp (maxDischargeDepth := 200) +contextual only [dropStalled, implies_true, memOk_ite, memOk_mk, memOk_mem, memOk_foldl, memOk_foldl_fst, memOk_foldl_snd, memOk_answer, memOk_logUnreachable, h]
theorem memOk_performPend (s : State) (d : Nat) (h : MemOk s) : MemOk (performPend s d) := by
  unfold performPend
  split <;> simp (maxDischargeDepth := 200) +contextual only [implies_true, memOk_ite, memOk_mk, memOk_mem, memOk_performReq, memOk_setPend, h]
theorem memOk_transDone (s : State) (d : Nat) (h : MemOk s) : MemOk (transDone s d) := by
  unfold transDone
  dsimp only
  repeat' split
  all_goals simp (maxDischargeDepth := 200) +contextual only [implies_true, memOk_ite, memOk_mk, memOk_mem, memOk_arrive, memOk_noteWake, memOk_offReset, memOk_performPend, memOk_raise, memOk_setPSt, h]
theorem memOk_execPowerTransitionComplete (d : Fin 16) (s : State) (h : MemOk s) : ∀ u, execPowerTransitionComplete d s = .next u → MemOk u := by
  intro u hu
  simp only [execPowerTransitionComplete, Host.Outcome.next.injEq] at hu
  subst hu
  simp (maxDischargeDepth := 200) +contextual only [implies_true, memOk_ite, memOk_mk, memOk_mem, memOk_dropStalled, memOk_transDone, h]

/-! ## Standby -/

theorem memOk_showFull (s : State) (h : MemOk s) : MemOk (showFull s) := by
  simp (maxDischargeDepth := 200) +contextual only [showFull, implies_true, memOk_ite, memOk_mk, memOk_mem, memOk_wr, h]
theorem memOk_execVauxLoss (s : State) (h : MemOk s) : ∀ u, execVauxLoss s = .next u → MemOk u := by
  intro u hu
  simp only [execVauxLoss, Host.Outcome.next.injEq] at hu
  subst hu
  simp (maxDischargeDepth := 200) +contextual only [implies_true, memOk_ite, memOk_mk, memOk_mem, memOk_showFull, memOk_wr, h]
theorem memOk_execVauxValid (s : State) (h : MemOk s) : ∀ u, execVauxValid s = .next u → MemOk u := by
  intro u hu
  simp only [execVauxValid, Host.Outcome.next.injEq] at hu
  subst hu
  simp (maxDischargeDepth := 200) +contextual only [implies_true, memOk_ite, memOk_mk, memOk_mem, memOk_showFull, memOk_wr, h]
theorem memOk_execAoBrownOut (s : State) (h : MemOk s) : ∀ u, execAoBrownOut s = .next u → MemOk u := by
  intro u hu
  simp only [execAoBrownOut, Host.Outcome.next.injEq] at hu
  subst hu
  simp (maxDischargeDepth := 200) +contextual only [implies_true, memOk_ite, memOk_mk, memOk_mem, memOk_tdrop, memOk_dropPages, memOk_emit, memOk_showFull, memOk_wr, h]
theorem memOk_handOver (s : State) (n : Nat) (h : MemOk s) : MemOk (handOver s n) := by
  simp (maxDischargeDepth := 200) +contextual only [handOver, implies_true, memOk_ite, memOk_mk, memOk_mem, memOk_wr64, memOk_wrs, h]
theorem memOk_execStandby (m : Master) (w : W32) (s : State) (h : MemOk s) : ∀ u, execStandby m w s = .next u → MemOk u := by
  intro u hu
  simp only [execStandby, Host.Outcome.next.injEq] at hu
  subst hu
  simp (maxDischargeDepth := 200) +contextual only [implies_true, memOk_ite, memOk_mk, memOk_mem, memOk_handOver, memOk_regAction, memOk_wr, memOk_wrs, h]
theorem memOk_forceOff (s : State) (d : Nat) (h : MemOk s) : MemOk (forceOff s d) := by
  simp (maxDischargeDepth := 200) +contextual only [forceOff, implies_true, memOk_ite, memOk_mk, memOk_mem, memOk_dropStalled, memOk_leaveOn, memOk_offReset, memOk_setDom, memOk_wr, h]
theorem memOk_execStandbyEntryComplete (s : State) (h : MemOk s) : ∀ u, execStandbyEntryComplete s = .next u → MemOk u := by
  intro u hu
  simp only [execStandbyEntryComplete, Host.Outcome.next.injEq] at hu
  subst hu
  simp (maxDischargeDepth := 200) +contextual only [implies_true, memOk_ite, memOk_mk, memOk_mem, memOk_foldl, memOk_foldl_fst, memOk_foldl_snd, memOk_emit, memOk_enterSto, memOk_forceOff, memOk_safeShow, memOk_showFull, h]
theorem memOk_pwrEnUp (s : State) (h : MemOk s) : MemOk (pwrEnUp s) := by
  simp (maxDischargeDepth := 200) +contextual only [pwrEnUp, implies_true, memOk_ite, memOk_mk, memOk_mem, memOk_emit, h]
theorem memOk_execPwrEnRaise (s : State) (h : MemOk s) : ∀ u, execPwrEnRaise s = .next u → MemOk u := by
  intro u hu
  simp only [execPwrEnRaise, Host.Outcome.next.injEq] at hu
  subst hu
  simp (maxDischargeDepth := 200) +contextual only [implies_true, memOk_ite, memOk_mk, memOk_mem, memOk_pwrEnUp, h]
theorem memOk_wakeUp (s : State) (src : WakeSrc) (h : MemOk s) : MemOk (wakeUp s src) := by
  unfold wakeUp
  split <;> simp (maxDischargeDepth := 200) +contextual only [implies_true, memOk_ite, memOk_mk, memOk_mem, memOk_pwrEnUp, h]
theorem memOk_execAoWakeEvent (src : WakeSrc) (s : State) (h : MemOk s) : ∀ u, execAoWakeEvent src s = .next u → MemOk u := by
  intro u hu
  simp only [execAoWakeEvent, Host.Outcome.next.injEq] at hu
  subst hu
  simp (maxDischargeDepth := 200) +contextual only [implies_true, memOk_ite, memOk_mk, memOk_mem, memOk_wakeUp, h]
theorem memOk_execEncoderTrackingSample (k : Fin 2) (a b : Bool) (s : State) (h : MemOk s) : ∀ u, execEncoderTrackingSample k a b s = .next u → MemOk u := by
  intro u hu
  simp only [execEncoderTrackingSample, Host.Outcome.next.injEq] at hu
  subst hu
  repeat' split
  all_goals simp (maxDischargeDepth := 200) +contextual only [implies_true, memOk_ite, memOk_mk, memOk_mem, memOk_setSticky, memOk_wakeUp, memOk_wr, memOk_wr64, h]
theorem memOk_execPllLockLoss (pll : Pll) (s : State) (h : MemOk s) : ∀ u, execPllLockLoss pll s = .next u → MemOk u := by
  intro u hu
  simp only [execPllLockLoss, Host.Outcome.next.injEq] at hu
  subst hu
  simp (maxDischargeDepth := 200) +contextual only [implies_true, memOk_ite, memOk_mk, memOk_mem, memOk_postOther, memOk_selfFault, h]

/-! ## Boot -/

theorem memOk_jput (s : State) (o v : Nat) (h : MemOk s) : MemOk (jput s o v) := by
  simp (maxDischargeDepth := 200) +contextual only [jput, implies_true, memOk_ite, memOk_mk, memOk_mem, memOk_msetNum, h]
theorem memOk_clearJournal (s : State) (h : MemOk s) : MemOk (clearJournal s) := by
  simp (maxDischargeDepth := 200) +contextual only [clearJournal, implies_true, memOk_ite, memOk_mk, memOk_mem, memOk_mwrite, memOk_jput, h]
theorem memOk_excludeDetail (s : State) (n d : Nat) (h : MemOk s) : MemOk (excludeDetail s n d) := by
  simp (maxDischargeDepth := 200) +contextual only [excludeDetail, implies_true, memOk_ite, memOk_mk, memOk_mem, memOk_jput, h]
theorem memOk_excludeBank (s : State) (b : Nat) (h : MemOk s) : MemOk (excludeBank s b) := by
  simp (maxDischargeDepth := 200) +contextual only [excludeBank, implies_true, memOk_ite, memOk_mk, memOk_mem, memOk_foldl, memOk_foldl_fst, memOk_foldl_snd, memOk_setBlk, h]
theorem memOk_showBanks (s : State) (h : MemOk s) : MemOk (showBanks s) := by
  simp (maxDischargeDepth := 200) +contextual only [showBanks, implies_true, memOk_ite, memOk_mk, memOk_mem, memOk_wr, h]
theorem memOk_excludeEngs (s : State) (e : Nat) (c : Nat) (h : MemOk s) : MemOk (excludeEngs s e c) := by
  simp (maxDischargeDepth := 200) +contextual only [excludeEngs, implies_true, memOk_ite, memOk_mk, memOk_mem, memOk_foldl, memOk_foldl_fst, memOk_foldl_snd, memOk_holdEngines, memOk_wrs, h]
theorem memOk_forceOn (s : State) (d : Nat) (h : MemOk s) : MemOk (forceOn s d) := by
  simp (maxDischargeDepth := 200) +contextual only [forceOn, implies_true, memOk_ite, memOk_mk, memOk_mem, memOk_arrive, memOk_setPSt, h]
theorem memOk_haltBoot (s : State) (n : Nat) (h : MemOk s) : MemOk (haltBoot s n) := by
  simp (maxDischargeDepth := 200) +contextual only [haltBoot, implies_true, memOk_ite, memOk_mk, memOk_mem, memOk_foldl, memOk_foldl_fst, memOk_foldl_snd, memOk_forceOff, memOk_forceOn, memOk_post, memOk_raise, memOk_wrs, h]
theorem memOk_startStep (s : State) (n : Nat) (h : MemOk s) : MemOk (startStep s n) := by
  simp (maxDischargeDepth := 200) +contextual only [startStep, implies_true, memOk_ite, memOk_mk, memOk_mem, memOk_excludeDetail, memOk_free, memOk_jput, memOk_wr, h]
theorem memOk_failWord (s : State) (n detail : Nat) (h : MemOk s) : MemOk (failWord s n detail) := by
  simp (maxDischargeDepth := 200) +contextual only [failWord, implies_true, memOk_ite, memOk_mk, memOk_mem, memOk_jput, h]
theorem memOk_beginBoot (s : State) (h : MemOk s) : MemOk (beginBoot s) := by
  unfold beginBoot
  dsimp only
  repeat' split
  all_goals simp (maxDischargeDepth := 200) +contextual only [implies_true, memOk_ite, memOk_mk, memOk_mem, memOk_foldl, memOk_foldl_fst, memOk_foldl_snd, memOk_clearJournal, memOk_failWord, memOk_haltBoot, memOk_incCnt, memOk_jput, memOk_setPSt, memOk_startStep, memOk_wr, memOk_wrs, h]
theorem memOk_mainOff (s : State) (h : MemOk s) : MemOk (mainOff s) := by
  simp (maxDischargeDepth := 200) +contextual only [mainOff, implies_true, memOk_ite, memOk_mk, memOk_mem, memOk_foldl, memOk_foldl_fst, memOk_foldl_snd, memOk_forceOff, h]
theorem memOk_holdField (s : State) (trip : Bool) (h : MemOk s) : MemOk (holdField s trip) := by
  simp (maxDischargeDepth := 200) +contextual only [holdField, implies_true, memOk_ite, memOk_mk, memOk_mem, memOk_incCnt, memOk_redrive, memOk_safeShow, memOk_wr, h]
theorem memOk_warmReset (s : State) (cause : Nat) (h : MemOk s) : MemOk (warmReset s cause) := by
  simp (maxDischargeDepth := 200) +contextual only [warmReset, implies_true, memOk_ite, memOk_mk, memOk_mem, memOk_beginBoot, memOk_holdField, memOk_mainOff, h]
theorem memOk_execWarmReset (cause : WarmCause) (s : State) (h : MemOk s) : ∀ u, execWarmReset cause s = .next u → MemOk u := by
  intro u hu
  simp only [execWarmReset, Host.Outcome.next.injEq] at hu
  subst hu
  repeat' split
  all_goals simp (maxDischargeDepth := 200) +contextual only [implies_true, memOk_ite, memOk_mk, memOk_mem, memOk_beginBoot, memOk_free, memOk_holdField, memOk_mainOff, memOk_warmReset, h]
theorem memOk_execSupplyFail (s : State) (h : MemOk s) : ∀ u, execSupplyFail s = .next u → MemOk u := by
  intro u hu
  simp only [execSupplyFail, Host.Outcome.next.injEq] at hu
  subst hu
  simp (maxDischargeDepth := 200) +contextual only [implies_true, memOk_ite, memOk_mk, memOk_mem, memOk_free, memOk_holdField, memOk_mainOff, h]
theorem memOk_execAoPowerOn (s : State) (h : MemOk s) : ∀ u, execAoPowerOn s = .next u → MemOk u := by
  intro u hu
  have hu := Host.Outcome.next.inj hu
  subst hu
  extract_lets b c t d t1
  exact memOk_showFull _ (memOk_wr _ _ _ (memOk_wr _ _ _ (memOk_mk rfl)))
theorem memOk_execResetRelease (bootsrc late : Bool) (s : State) (h : MemOk s) : ∀ u, execResetRelease bootsrc late s = .next u → MemOk u := by
  intro u hu
  simp only [execResetRelease, Host.Outcome.next.injEq] at hu
  subst hu
  simp (maxDischargeDepth := 200) +contextual only [implies_true, memOk_ite, memOk_mk, memOk_mem, memOk_beginBoot, memOk_clearJournal, memOk_jput, memOk_showFull, h]
theorem memOk_takeImage (s : State) (l : List Byte) (h : MemOk s) : MemOk (takeImage s l) := by
  simp (maxDischargeDepth := 200) +contextual only [takeImage, implies_true, memOk_ite, memOk_mk, memOk_mem, memOk_foldl, memOk_foldl_fst, memOk_foldl_snd, memOk_mwrite, h]
theorem memOk_basePlan (s : State) (h : MemOk s) : MemOk (basePlan s) := by
  simp (maxDischargeDepth := 200) +contextual only [basePlan, implies_true, memOk_ite, memOk_mk, memOk_mem, memOk_wrs, h]
theorem memOk_takeMbox (s : State) (h : MemOk s) : MemOk (takeMbox s) := by
  unfold takeMbox
  dsimp only
  repeat' split
  all_goals simp (maxDischargeDepth := 200) +contextual only [implies_true, memOk_ite, memOk_mk, memOk_mem, memOk_setFloat, memOk_wr, h]
theorem memOk_stepWork (s : State) (n : Nat) (f : BootFind) (image : List Byte) (h : MemOk s) : MemOk (stepWork s n f image) := by
  unfold stepWork
  dsimp only
  repeat' split
  all_goals simp (maxDischargeDepth := 200) +contextual only [implies_true, memOk_ite, memOk_mk, memOk_mem, memOk_foldl, memOk_foldl_fst, memOk_foldl_snd, memOk_basePlan, memOk_excludeBank, memOk_excludeEngs, memOk_forceOn, memOk_noteWake, memOk_raise, memOk_safeShow, memOk_setPlan, memOk_showBanks, memOk_takeImage, memOk_takeMbox, memOk_wr, memOk_wrs, h]
theorem memOk_stepFailed (s : State) (n detail : Nat) (h : MemOk s) : MemOk (stepFailed s n detail) := by
  simp (maxDischargeDepth := 200) +contextual only [stepFailed, implies_true, memOk_ite, memOk_mk, memOk_mem, memOk_chanFault, memOk_failWord, memOk_haltBoot, memOk_incCnt, memOk_warmReset, h]
theorem memOk_execBootStepDone (find : BootFind) (s : State) (h : MemOk s) : ∀ u, execBootStepDone find s = .next u → MemOk u := by
  intro u hu
  simp only [execBootStepDone, Host.Outcome.next.injEq] at hu
  subst hu
  simp (maxDischargeDepth := 200) +contextual only [implies_true, memOk_ite, memOk_mk, memOk_mem, memOk_jput, memOk_startStep, memOk_stepFailed, memOk_stepWork, h]
theorem memOk_execBootStepFail (detail : BitVec 8) (s : State) (h : MemOk s) : ∀ u, execBootStepFail detail s = .next u → MemOk u := by
  intro u hu
  simp only [execBootStepFail, Host.Outcome.next.injEq] at hu
  subst hu
  simp (maxDischargeDepth := 200) +contextual only [implies_true, memOk_ite, memOk_mk, memOk_mem, memOk_stepFailed, h]
theorem memOk_execHostimg (m : Master) (w : W32) (s : State) (h : MemOk s) : ∀ u, execHostimg m w s = .next u → MemOk u := by
  intro u hu
  simp only [execHostimg, Host.Outcome.next.injEq] at hu
  subst hu
  simp (maxDischargeDepth := 200) +contextual only [implies_true, memOk_ite, memOk_mk, memOk_mem, memOk_regAction, h]
theorem memOk_bootResult (s : State) (r : Nat) (h : MemOk s) : MemOk (bootResult s r) := by
  simp (maxDischargeDepth := 200) +contextual only [bootResult, implies_true, memOk_ite, memOk_mk, memOk_mem, memOk_wr, h]
theorem memOk_bootCmd (s : State) (m : Master) (w : W32) (op : Nat) (f : State → State) (h : MemOk s) (hff : ∀ s, MemOk s → MemOk (f s)) : MemOk (bootCmd s m w op f) := by
  simp (maxDischargeDepth := 200) +contextual only [bootCmd, implies_true, memOk_ite, memOk_mk, memOk_mem, memOk_regAction, h, hff]
theorem memOk_execClearJournal (m : Master) (w : W32) (s : State) (h : MemOk s) : ∀ u, execClearJournal m w s = .next u → MemOk u := by
  intro u hu
  simp only [execClearJournal, Host.Outcome.next.injEq] at hu
  subst hu
  simp (maxDischargeDepth := 200) +contextual only [implies_true, memOk_ite, memOk_mk, memOk_mem, memOk_bootCmd, memOk_bootResult, memOk_clearJournal, h]
theorem memOk_execReboot (m : Master) (w : W32) (s : State) (h : MemOk s) : ∀ u, execReboot m w s = .next u → MemOk u := by
  intro u hu
  simp only [execReboot, Host.Outcome.next.injEq] at hu
  subst hu
  simp (maxDischargeDepth := 200) +contextual only [implies_true, memOk_ite, memOk_mk, memOk_mem, memOk_bootCmd, memOk_warmReset, h]
theorem memOk_execStage (m : Master) (w : W32) (flashOk : Bool) (s : State) (h : MemOk s) : ∀ u, execStage m w flashOk s = .next u → MemOk u := by
  intro u hu
  simp only [execStage, Host.Outcome.next.injEq] at hu
  subst hu
  simp (maxDischargeDepth := 200) +contextual only [implies_true, memOk_ite, memOk_mk, memOk_mem, memOk_bootCmd, memOk_bootResult, memOk_emit, h]
theorem memOk_execSelect (m : Master) (w : W32) (s : State) (h : MemOk s) : ∀ u, execSelect m w s = .next u → MemOk u := by
  intro u hu
  simp only [execSelect, Host.Outcome.next.injEq] at hu
  subst hu
  simp (maxDischargeDepth := 200) +contextual only [implies_true, memOk_ite, memOk_mk, memOk_mem, memOk_bootCmd, memOk_bootResult, h]
theorem memOk_execCommitVer (m : Master) (w : W32) (s : State) (h : MemOk s) : ∀ u, execCommitVer m w s = .next u → MemOk u := by
  intro u hu
  simp only [execCommitVer, Host.Outcome.next.injEq] at hu
  subst hu
  simp (maxDischargeDepth := 200) +contextual only [implies_true, memOk_ite, memOk_mk, memOk_mem, memOk_bootCmd, memOk_bootResult, memOk_emit, memOk_wr, h]
theorem memOk_execDebugUnlock (key sig : List Byte) (s : State) (h : MemOk s) : ∀ u, execDebugUnlock key sig s = .next u → MemOk u := by
  intro u hu
  simp only [execDebugUnlock, Host.Outcome.next.injEq] at hu
  subst hu
  simp (maxDischargeDepth := 200) +contextual only [implies_true, memOk_ite, memOk_mk, memOk_mem, memOk_safeShow, memOk_wr, h]

/-! ## Swap -/

theorem memOk_execSwapReq (m : Master) (w : W32) (s : State) (h : MemOk s) : ∀ u, execSwapReq m w s = .next u → MemOk u := by
  intro u hu
  simp only [execSwapReq, Host.Outcome.next.injEq] at hu
  subst hu
  simp (maxDischargeDepth := 200) +contextual only [implies_true, memOk_ite, memOk_mk, memOk_mem, memOk_pairOp, memOk_setSticky, memOk_wr, memOk_wrs, h]

/-! ## SelfTest -/

theorem memOk_noteRun (s : State) (h : MemOk s) : MemOk (noteRun s) := by
  simp (maxDischargeDepth := 200) +contextual only [noteRun, implies_true, memOk_ite, memOk_mk, memOk_mem, h]
theorem memOk_joinQueue (s : State) (r : TestReq) (h : MemOk s) : MemOk (joinQueue s r) := by
  simp (maxDischargeDepth := 200) +contextual only [joinQueue, implies_true, memOk_ite, memOk_mk, memOk_mem, memOk_showQueue, h]
theorem memOk_requestTest (s : State) (k : TestKind) (tag idx : Nat) (h : MemOk s) : MemOk (requestTest s k tag idx) := by
  unfold requestTest
  dsimp only
  repeat' split
  all_goals simp (maxDischargeDepth := 200) +contextual only [implies_true, memOk_ite, memOk_mk, memOk_mem, memOk_capacityCheck, memOk_joinQueue, memOk_testEnd, memOk_wr, h]
theorem memOk_testReq (s : State) (m : Master) (w : W32) (k : TestKind) (h : MemOk s) : MemOk (testReq s m w k) := by
  simp (maxDischargeDepth := 200) +contextual only [testReq, implies_true, memOk_ite, memOk_mk, memOk_mem, memOk_errlog, memOk_regAction, memOk_requestTest, h]
theorem memOk_execTestEngine (m : Master) (w : W32) (s : State) (h : MemOk s) : ∀ u, execTestEngine m w s = .next u → MemOk u := by
  intro u hu
  simp only [execTestEngine, Host.Outcome.next.injEq] at hu
  subst hu
  simp (maxDischargeDepth := 200) +contextual only [implies_true, memOk_ite, memOk_mk, memOk_mem, memOk_testReq, h]
theorem memOk_execTestCistbank (m : Master) (w : W32) (s : State) (h : MemOk s) : ∀ u, execTestCistbank m w s = .next u → MemOk u := by
  intro u hu
  simp only [execTestCistbank, Host.Outcome.next.injEq] at hu
  subst hu
  simp (maxDischargeDepth := 200) +contextual only [implies_true, memOk_ite, memOk_mk, memOk_mem, memOk_testReq, h]
theorem memOk_execTestScrub (m : Master) (w : W32) (s : State) (h : MemOk s) : ∀ u, execTestScrub m w s = .next u → MemOk u := by
  intro u hu
  simp only [execTestScrub, Host.Outcome.next.injEq] at hu
  subst hu
  simp (maxDischargeDepth := 200) +contextual only [implies_true, memOk_ite, memOk_mk, memOk_mem, memOk_testReq, h]
theorem memOk_execTestEyescan (m : Master) (w : W32) (s : State) (h : MemOk s) : ∀ u, execTestEyescan m w s = .next u → MemOk u := by
  intro u hu
  simp only [execTestEyescan, Host.Outcome.next.injEq] at hu
  subst hu
  simp (maxDischargeDepth := 200) +contextual only [implies_true, memOk_ite, memOk_mk, memOk_mem, memOk_testReq, h]
theorem memOk_execTestSdscal (m : Master) (w : W32) (s : State) (h : MemOk s) : ∀ u, execTestSdscal m w s = .next u → MemOk u := by
  intro u hu
  simp only [execTestSdscal, Host.Outcome.next.injEq] at hu
  subst hu
  simp (maxDischargeDepth := 200) +contextual only [implies_true, memOk_ite, memOk_mk, memOk_mem, memOk_testReq, h]
theorem memOk_execTestPortloop (m : Master) (w : W32) (s : State) (h : MemOk s) : ∀ u, execTestPortloop m w s = .next u → MemOk u := by
  intro u hu
  simp only [execTestPortloop, Host.Outcome.next.injEq] at hu
  subst hu
  simp (maxDischargeDepth := 200) +contextual only [implies_true, memOk_ite, memOk_mk, memOk_mem, memOk_testReq, h]
theorem memOk_execTestCan (m : Master) (w : W32) (s : State) (h : MemOk s) : ∀ u, execTestCan m w s = .next u → MemOk u := by
  intro u hu
  simp only [execTestCan, Host.Outcome.next.injEq] at hu
  subst hu
  simp (maxDischargeDepth := 200) +contextual only [implies_true, memOk_ite, memOk_mk, memOk_mem, memOk_testReq, h]
theorem memOk_execTestEncoder (m : Master) (w : W32) (s : State) (h : MemOk s) : ∀ u, execTestEncoder m w s = .next u → MemOk u := by
  intro u hu
  simp only [execTestEncoder, Host.Outcome.next.injEq] at hu
  subst hu
  simp (maxDischargeDepth := 200) +contextual only [implies_true, memOk_ite, memOk_mk, memOk_mem, memOk_testReq, h]
theorem memOk_execTestOffline (m : Master) (w : W32) (s : State) (h : MemOk s) : ∀ u, execTestOffline m w s = .next u → MemOk u := by
  intro u hu
  simp only [execTestOffline, Host.Outcome.next.injEq] at hu
  subst hu
  simp (maxDischargeDepth := 200) +contextual only [implies_true, memOk_ite, memOk_mk, memOk_mem, memOk_testReq, h]
theorem memOk_takeResource (s : State) (r : TestReq) (h : MemOk s) : MemOk (takeResource s r) := by
  unfold takeResource
  split <;> simp (maxDischargeDepth := 200) +contextual only [implies_true, memOk_ite, memOk_mk, memOk_mem, memOk_passBlocks, memOk_setEng, h]
theorem memOk_execTestStart (i : Nat) (s : State) (h : MemOk s) : ∀ u, execTestStart i s = .next u → MemOk u := by
  intro u hu
  simp only [execTestStart, Host.Outcome.next.injEq] at hu
  subst hu
  repeat' split
  all_goals simp (maxDischargeDepth := 200) +contextual only [implies_true, memOk_ite, memOk_mk, memOk_mem, memOk_showQueue, memOk_takeResource, h]
theorem memOk_showEye (s : State) (lane margin : Nat) (h : MemOk s) : MemOk (showEye s lane margin) := by
  simp (maxDischargeDepth := 200) +contextual only [showEye, implies_true, memOk_ite, memOk_mk, memOk_mem, memOk_foldl, memOk_foldl_fst, memOk_foldl_snd, memOk_wrs, h]
theorem memOk_pairDisagree (s : State) (h : MemOk s) : MemOk (pairDisagree s) := by
  simp (maxDischargeDepth := 200) +contextual only [pairDisagree, implies_true, memOk_ite, memOk_mk, memOk_mem, memOk_post, memOk_showReady, memOk_wr, h]
theorem memOk_testFault (s : State) (r : TestReq) (h : MemOk s) : MemOk (testFault s r) := by
  unfold testFault
  split <;> simp (maxDischargeDepth := 200) +contextual only [implies_true, memOk_ite, memOk_mk, memOk_mem, memOk_excludeBank, memOk_postOther, memOk_selfFault, memOk_setEng, memOk_showBanks, h]
theorem memOk_testPassed (s : State) (r : TestReq) (h : MemOk s) : MemOk (testPassed s r) := by
  unfold testPassed
  split <;> simp (maxDischargeDepth := 200) +contextual only [implies_true, memOk_ite, memOk_mk, memOk_mem, memOk_engineBack, memOk_pairDisagree, memOk_passBlocks, h]
theorem memOk_afterOffline (s : State) (r : TestReq) (h : MemOk s) : MemOk (afterOffline s r) := by
  simp (maxDischargeDepth := 200) +contextual only [afterOffline, implies_true, memOk_ite, memOk_mk, memOk_mem, memOk_stopLaunch, h]
theorem memOk_execTestComplete (i : Nat) (pass : Bool) (margin : BitVec 16) (s : State) (h : MemOk s) : ∀ u, execTestComplete i pass margin s = .next u → MemOk u := by
  intro u hu
  simp only [execTestComplete, Host.Outcome.next.injEq] at hu
  subst hu
  repeat' split
  all_goals simp (maxDischargeDepth := 200) +contextual only [implies_true, memOk_ite, memOk_mk, memOk_mem, memOk_mwrite, memOk_afterOffline, memOk_freeBytes, memOk_incCnt, memOk_showEye, memOk_showQueue, memOk_testEnd, memOk_testFault, memOk_testPassed, h]
theorem memOk_execTestTimeout (i : Nat) (s : State) (h : MemOk s) : ∀ u, execTestTimeout i s = .next u → MemOk u := by
  intro u hu
  simp only [execTestTimeout, Host.Outcome.next.injEq] at hu
  subst hu
  repeat' split
  all_goals simp (maxDischargeDepth := 200) +contextual only [implies_true, memOk_ite, memOk_mk, memOk_mem, memOk_engineBack, memOk_incErr, memOk_pairDisagree, memOk_replanOut, memOk_showQueue, memOk_testEnd, memOk_wr, h]

/-! ## CsFollow -/

theorem memOk_stepEffect (s : State) (d : Int) (h : MemOk s) : MemOk (stepEffect s d) := by
  simp (maxDischargeDepth := 200) +contextual only [stepEffect, implies_true, memOk_ite, memOk_mk, memOk_mem, memOk_foldl, memOk_foldl_fst, memOk_foldl_snd, memOk_acqBreak, memOk_dropHistory, memOk_encTimeStep, memOk_setPlant, memOk_ttStep, memOk_wr, h]
theorem memOk_takeEstimate (s : State) (est : Int) (h : MemOk s) : MemOk (takeEstimate s est) := by
  simp (maxDischargeDepth := 200) +contextual only [takeEstimate, implies_true, memOk_ite, memOk_mk, memOk_mem, memOk_free, memOk_joinSync, memOk_moveTime, memOk_setRate, h]
theorem memOk_followTime (s : State) (p start : Nat) (c : CsInfo) (h : MemOk s) : MemOk (followTime s p start c) := by
  simp (maxDischargeDepth := 200) +contextual only [followTime, implies_true, memOk_ite, memOk_mk, memOk_mem, memOk_moveTime, memOk_stepEffect, memOk_takeEstimate, memOk_timeJump, h]
theorem memOk_execCsReceive (f : RxFrame) (s : State) (h : MemOk s) : ∀ u, execCsReceive f s = .next u → MemOk u := by
  intro u hu
  simp only [execCsReceive, Host.Outcome.next.injEq] at hu
  subst hu
  repeat' split
  all_goals simp (maxDischargeDepth := 200) +contextual only [implies_true, memOk_ite, memOk_mk, memOk_mem, memOk_countChk, memOk_csAtFar, memOk_csAtOrigin, memOk_followTime, memOk_hearEpoch, memOk_incCnt, memOk_integrate, memOk_linkUp, memOk_setEpoch, memOk_setPort, h]

/-! ## PairLink -/

theorem memOk_showUnal (s : State) (h : MemOk s) : MemOk (showUnal s) := by
  simp (maxDischargeDepth := 200) +contextual only [showUnal, implies_true, memOk_ite, memOk_mk, memOk_mem, memOk_showReady, memOk_wrs, h]
theorem memOk_unalign (s : State) (l : List Nat) (h : MemOk s) : MemOk (unalign s l) := by
  simp (maxDischargeDepth := 200) +contextual only [unalign, implies_true, memOk_ite, memOk_mk, memOk_mem, memOk_showUnal, h]
theorem memOk_noteMM (s : State) (word : Nat) (h : MemOk s) : MemOk (noteMM s word) := by
  simp (maxDischargeDepth := 200) +contextual only [noteMM, implies_true, memOk_ite, memOk_mk, memOk_mem, memOk_setSticky, memOk_wrw, h]
theorem memOk_shadowMismatch (s : State) (kind seg ent : Nat) (chans : List Nat) (ran : List (Nat × Nat)) (h : MemOk s) : MemOk (shadowMismatch s kind seg ent chans ran) := by
  simp (maxDischargeDepth := 200) +contextual only [shadowMismatch, implies_true, memOk_ite, memOk_mk, memOk_mem, memOk_foldl, memOk_foldl_fst, memOk_foldl_snd, memOk_incErr, memOk_noteMM, memOk_pairDisagree, memOk_post, memOk_requestTest, memOk_unalign, h]
theorem memOk_inputDifference (s : State) (seg : Nat) (chans : List Nat) (h : MemOk s) : MemOk (inputDifference s seg chans) := by
  simp (maxDischargeDepth := 200) +contextual only [inputDifference, implies_true, memOk_ite, memOk_mk, memOk_mem, memOk_noteMM, memOk_unalign, h]
theorem memOk_detach (s : State) (h : MemOk s) : MemOk (detach s) := by
  simp (maxDischargeDepth := 200) +contextual only [detach, implies_true, memOk_ite, memOk_mk, memOk_mem, memOk_endRelays, memOk_setRole, memOk_showUnal, memOk_wrs, h]
theorem memOk_peerLost (s : State) (h : MemOk s) : MemOk (peerLost s) := by
  simp (maxDischargeDepth := 200) +contextual only [peerLost, implies_true, memOk_ite, memOk_mk, memOk_mem, memOk_detach, memOk_post, memOk_wr, h]
theorem memOk_execLaneDown (lane : Fin 2) (s : State) (h : MemOk s) : ∀ u, execLaneDown lane s = .next u → MemOk u := by
  intro u hu
  simp only [execLaneDown, Host.Outcome.next.injEq] at hu
  subst hu
  simp (maxDischargeDepth := 200) +contextual only [implies_true, memOk_ite, memOk_mk, memOk_mem, memOk_peerLost, memOk_showSusp, memOk_wr, h]
theorem memOk_meetActive (s : State) (epoch : Nat) (h : MemOk s) : MemOk (meetActive s epoch) := by
  simp (maxDischargeDepth := 200) +contextual only [meetActive, implies_true, memOk_ite, memOk_mk, memOk_mem, memOk_free, memOk_post, h]
theorem memOk_itemLate (s : State) (h : MemOk s) : MemOk (itemLate s) := by
  simp (maxDischargeDepth := 200) +contextual only [itemLate, implies_true, memOk_ite, memOk_mk, memOk_mem, memOk_incErr, memOk_unalign, memOk_wr, h]
theorem memOk_putBlock (s : State) (b own : Nat) (priv : Bool) (at_ : Nat) (bytes : List Byte) (h : MemOk s) : MemOk (putBlock s b own priv at_ bytes) := by
  simp (maxDischargeDepth := 200) +contextual only [putBlock, implies_true, memOk_ite, memOk_mk, memOk_mem, memOk_mwrite, memOk_itemLate, memOk_setFloat, h]
theorem memOk_passBoundary (s : State) (n : Nat) (h : MemOk s) : MemOk (passBoundary s n) := by
  simp (maxDischargeDepth := 200) +contextual only [passBoundary, implies_true, memOk_ite, memOk_mk, memOk_mem, memOk_foldl, memOk_foldl_fst, memOk_foldl_snd, memOk_setFloat, h]
theorem memOk_pulseFromPeer (s : State) (q : Nat) (hold : Bool) (h : MemOk s) : MemOk (pulseFromPeer s q hold) := by
  simp (maxDischargeDepth := 200) +contextual only [pulseFromPeer, implies_true, memOk_ite, memOk_mk, memOk_mem, memOk_safeShow, h]
theorem memOk_takeContent (s : State) (y0 : PeerContent) (h : MemOk s) : MemOk (takeContent s y0) := by
  unfold takeContent
  split <;> simp (maxDischargeDepth := 200) +contextual only [implies_true, memOk_ite, memOk_mk, memOk_mem, memOk_clearAck, memOk_meetActive, memOk_pulseFromPeer, memOk_putBlock, memOk_showCapacity, memOk_wrs, h]
theorem memOk_execPeerFrameReceive (lane : Fin 2) (ok : Bool) (c : PeerContent) (s : State) (h : MemOk s) : ∀ u, execPeerFrameReceive lane ok c s = .next u → MemOk u := by
  intro u hu
  simp only [execPeerFrameReceive, Host.Outcome.next.injEq] at hu
  subst hu
  simp (maxDischargeDepth := 200) +contextual only [implies_true, memOk_ite, memOk_mk, memOk_mem, memOk_incErr, memOk_showSusp, memOk_takeContent, memOk_wr, h]
theorem memOk_execRelinquishReceive (s : State) (h : MemOk s) : ∀ u, execRelinquishReceive s = .next u → MemOk u := by
  intro u hu
  simp only [execRelinquishReceive, Host.Outcome.next.injEq] at hu
  subst hu
  simp (maxDischargeDepth := 200) +contextual only [implies_true, memOk_ite, memOk_mk, memOk_mem, memOk_post, h]
theorem memOk_execFaultedReceive (s : State) (h : MemOk s) : ∀ u, execFaultedReceive s = .next u → MemOk u := by
  intro u hu
  simp only [execFaultedReceive, Host.Outcome.next.injEq] at hu
  subst hu
  simp (maxDischargeDepth := 200) +contextual only [implies_true, memOk_ite, memOk_mk, memOk_mem, memOk_wr, h]
theorem memOk_execCsLossTakeover (s : State) (h : MemOk s) : ∀ u, execCsLossTakeover s = .next u → MemOk u := by
  intro u hu
  simp only [execCsLossTakeover, Host.Outcome.next.injEq] at hu
  subst hu
  simp (maxDischargeDepth := 200) +contextual only [implies_true, memOk_ite, memOk_mk, memOk_mem, h]
theorem memOk_putImage (s : State) (l : List PtImage) (h : MemOk s) : MemOk (putImage s l) := by
  unfold putImage
  apply memOk_foldl (h := h)
  intro s x h
  split
  · exact memOk_wrPt _ _ _ _ h
  · exact h
theorem memOk_staleImage (s : State) (h : MemOk s) : MemOk (staleImage s) := by
  unfold staleImage
  apply memOk_foldl (h := h)
  intro s x h
  split
  · exact memOk_setStale _ _ _ h
  · exact h
theorem memOk_execInputImageSend (s : State) (h : MemOk s) : ∀ u, execInputImageSend s = .next u → MemOk u := by
  intro u hu
  simp only [execInputImageSend, Host.Outcome.next.injEq] at hu
  subst hu
  simp (maxDischargeDepth := 200) +contextual only [implies_true, memOk_ite, memOk_mk, memOk_mem, memOk_emit, h]
theorem memOk_execInputImageReceive (pts : List PtImage) (s : State) (h : MemOk s) : ∀ u, execInputImageReceive pts s = .next u → MemOk u := by
  intro u hu
  simp only [execInputImageReceive, Host.Outcome.next.injEq] at hu
  subst hu
  simp (maxDischargeDepth := 200) +contextual only [implies_true, memOk_ite, memOk_mk, memOk_mem, memOk_putImage, h]
theorem memOk_execInputEdgeInstant (s : State) (h : MemOk s) : ∀ u, execInputEdgeInstant s = .next u → MemOk u := by
  intro u hu
  simp only [execInputEdgeInstant, Host.Outcome.next.injEq] at hu
  subst hu
  simp (maxDischargeDepth := 200) +contextual only [implies_true, memOk_ite, memOk_mk, memOk_mem, memOk_fireEdges, memOk_staleImage, memOk_unalign, h]
theorem memOk_execForwardedFrameReceive (f : RxFrame) (s : State) (h : MemOk s) : ∀ u, execForwardedFrameReceive f s = .next u → MemOk u := by
  intro u hu
  simp only [execForwardedFrameReceive, Host.Outcome.next.injEq] at hu
  subst hu
  repeat' split
  all_goals simp (maxDischargeDepth := 200) +contextual only [implies_true, memOk_ite, memOk_mk, memOk_mem, memOk_setPort, memOk_takeForwarded, h]
theorem memOk_compareEntries (seg : Nat) (l : List Nat) (b : List Byte) (s : State) (h : MemOk s) : MemOk (compareEntries s seg l b) := by
  induction l generalizing s b with
  | nil => exact h
  | cons i r ih =>
    simp only [compareEntries]
    apply ih
    refine memOk_ite h (memOk_ite (memOk_incCnt _ _ h) ?_)
    split
    · exact memOk_ite h (memOk_shadowMismatch _ _ _ _ _ _ h)
    · exact h
theorem memOk_execSpReceive (f : RxFrame) (s : State) (h : MemOk s) : ∀ u, execSpReceive f s = .next u → MemOk u := by
  intro u hu
  simp only [execSpReceive, Host.Outcome.next.injEq] at hu
  subst hu
  repeat' split
  all_goals simp (maxDischargeDepth := 200) +contextual only [implies_true, memOk_ite, memOk_mk, memOk_mem, memOk_compareEntries, memOk_countChk, memOk_incCnt, memOk_linkUp, h]
theorem memOk_execStateCopySend (s : State) (h : MemOk s) : ∀ u, execStateCopySend s = .next u → MemOk u := by
  intro u hu
  simp only [execStateCopySend, Host.Outcome.next.injEq] at hu
  subst hu
  repeat' split
  all_goals simp (maxDischargeDepth := 200) +contextual only [implies_true, memOk_ite, memOk_mk, memOk_mem, memOk_emit, h]
theorem memOk_installCopy (s : State) (x : ChanCopy) (h : MemOk s) : MemOk (installCopy s x) := by
  simp (maxDischargeDepth := 200) +contextual only [installCopy, implies_true, memOk_ite, memOk_mk, memOk_mem, memOk_foldl, memOk_foldl_fst, memOk_foldl_snd, memOk_mwrite, memOk_incCnt, memOk_showUnal, memOk_wr, memOk_wrPt, h]
theorem memOk_beginJoin (s : State) (h : MemOk s) : MemOk (beginJoin s) := by
  simp (maxDischargeDepth := 200) +contextual only [beginJoin, implies_true, memOk_ite, memOk_mk, memOk_mem, memOk_setRole, memOk_showReady, memOk_wrs, memOk_wrw, h]
theorem memOk_execPairJoin (j : JoinId) (s : State) (h : MemOk s) : ∀ u, execPairJoin j s = .next u → MemOk u := by
  intro u hu
  simp only [execPairJoin, Host.Outcome.next.injEq] at hu
  subst hu
  simp (maxDischargeDepth := 200) +contextual only [implies_true, memOk_ite, memOk_mk, memOk_mem, memOk_beginJoin, memOk_learnEpoch, memOk_post, memOk_setRole, memOk_showReady, memOk_showSusp, memOk_wr, memOk_wrs, h]
theorem memOk_putBulk (s : State) (b : Bulk) (h : MemOk s) : MemOk (putBulk s b) := by
  unfold putBulk
  split <;> simp (maxDischargeDepth := 200) +contextual only [implies_true, memOk_ite, memOk_mk, memOk_mem, memOk_foldl, memOk_foldl_fst, memOk_foldl_snd, memOk_mwrite, memOk_setFloat, memOk_wr, memOk_wrw, h]
theorem memOk_execBulkCopyComplete (b : Bulk) (start : Nat) (s : State) (h : MemOk s) : ∀ u, execBulkCopyComplete b start s = .next u → MemOk u := by
  intro u hu
  simp only [execBulkCopyComplete, Host.Outcome.next.injEq] at hu
  subst hu
  simp (maxDischargeDepth := 200) +contextual only [implies_true, memOk_ite, memOk_mk, memOk_mem, memOk_putBulk, memOk_setRole, memOk_showReady, memOk_wrs, h]
theorem memOk_peerCmd (s : State) (m : Master) (w : W32) (op : Nat) (f : State → State) (h : MemOk s) (hff : ∀ s, MemOk s → MemOk (f s)) : MemOk (peerCmd s m w op f) := by
  simp (maxDischargeDepth := 200) +contextual only [peerCmd, implies_true, memOk_ite, memOk_mk, memOk_mem, memOk_regAction, h, hff]
theorem memOk_execSwap (m : Master) (w : W32) (s : State) (h : MemOk s) : ∀ u, execSwap m w s = .next u → MemOk u := by
  intro u hu
  simp only [execSwap, Host.Outcome.next.injEq] at hu
  subst hu
  simp (maxDischargeDepth := 200) +contextual only [implies_true, memOk_ite, memOk_mk, memOk_mem, memOk_errlog, memOk_noteItem, memOk_peerCmd, memOk_wr, memOk_wrs, h]
theorem memOk_execSwapCancel (m : Master) (w : W32) (s : State) (h : MemOk s) : ∀ u, execSwapCancel m w s = .next u → MemOk u := by
  intro u hu
  simp only [execSwapCancel, Host.Outcome.next.injEq] at hu
  subst hu
  simp (maxDischargeDepth := 200) +contextual only [implies_true, memOk_ite, memOk_mk, memOk_mem, memOk_noteItem, memOk_peerCmd, memOk_wr, memOk_wrs, h]
theorem memOk_execJoin (m : Master) (w : W32) (s : State) (h : MemOk s) : ∀ u, execJoin m w s = .next u → MemOk u := by
  intro u hu
  simp only [execJoin, Host.Outcome.next.injEq] at hu
  subst hu
  simp (maxDischargeDepth := 200) +contextual only [implies_true, memOk_ite, memOk_mk, memOk_mem, memOk_peerCmd, memOk_wr, h]

end Sys2Proof.Machine
end

