-- ==== Sys2Proof/Laws/MemMachine.lean ====
section
/-! SUPPORT. Every operation of these files keeps the canonical form of memory: the boundary, launches, soft reset, register and internal accesses, mirror records, memory errors, the clock. -/

set_option linter.unusedSimpArgs false
set_option linter.unusedVariables false

namespace Sys2Proof.Machine

/-! ## MirrorOps -/

theorem memOk_showMirror (s : State) (bytes : Nat) (h : MemOk s) : MemOk (showMirror s bytes) := by
  simp (maxDischargeDepth := 200) +contextual only [showMirror, implies_true, memOk_ite, memOk_mk, memOk_mem, memOk_wrs, h]
theorem memOk_sendItems (s : State) (used : Nat) (r : List MItem → MirrorRec) (h : MemOk s) : MemOk (sendItems s used r) := by
  simp (maxDischargeDepth := 200) +contextual only [sendItems, implies_true, memOk_ite, memOk_mk, memOk_mem, memOk_foldl, memOk_foldl_fst, memOk_foldl_snd, memOk_emit, memOk_showMirror, h]
theorem memOk_mirrorSend (s : State) (h : MemOk s) : MemOk (mirrorSend s) := by
  simp (maxDischargeDepth := 200) +contextual only [mirrorSend, implies_true, memOk_ite, memOk_mk, memOk_mem, memOk_emit, memOk_sendItems, memOk_showMirror, h]
theorem memOk_mirrorTail (s : State) (h : MemOk s) : MemOk (mirrorTail s) := by
  unfold mirrorTail
  split <;> simp (maxDischargeDepth := 200) +contextual only [implies_true, memOk_ite, memOk_mk, memOk_mem, memOk_planCmds, memOk_sendItems, h]

/-! ## Boundary -/

theorem memOk_noteOverrun (s : State) (t : Nat) (h : MemOk s) : MemOk (noteOverrun s t) := by
  simp (maxDischargeDepth := 200) +contextual only [noteOverrun, implies_true, memOk_ite, memOk_mk, memOk_mem, memOk_incCnt, memOk_post, memOk_raise, h]
theorem memOk_showIssued (s : State) (e : Nat) (h : MemOk s) : MemOk (showIssued s e) := by
  simp (maxDischargeDepth := 200) +contextual only [showIssued, implies_true, memOk_ite, memOk_mk, memOk_mem, memOk_free, memOk_wrs, h]
theorem memOk_endCycle (s : State) (h : MemOk s) : MemOk (endCycle s) := by
  simp (maxDischargeDepth := 200) +contextual only [endCycle, implies_true, memOk_ite, memOk_mk, memOk_mem, memOk_foldl, memOk_foldl_fst, memOk_foldl_snd, memOk_addCnt, memOk_noteOverrun, memOk_setEng, memOk_showIssued, h]
theorem memOk_showClocked (s : State) (clk : BitVec 128) (h : MemOk s) : MemOk (showClocked s clk) := by
  simp (maxDischargeDepth := 200) +contextual only [showClocked, implies_true, memOk_ite, memOk_mk, memOk_mem, memOk_foldl, memOk_foldl_fst, memOk_foldl_snd, memOk_wr, h]
theorem memOk_takeControl (s : State) (h : MemOk s) : MemOk (takeControl s) := by
  simp (maxDischargeDepth := 200) +contextual only [takeControl, implies_true, memOk_ite, memOk_mk, memOk_mem, h]
theorem memOk_timeBoundary (s : State) (n : Nat) (h : MemOk s) : MemOk (timeBoundary s n) := by
  unfold timeBoundary
  dsimp only
  repeat' split
  all_goals simp (maxDischargeDepth := 200) +contextual only [implies_true, memOk_ite, memOk_mk, memOk_mem, memOk_netPass, memOk_setTime, memOk_stepEffect, h]
theorem memOk_driftSet (s : State) (h : MemOk s) : MemOk (driftSet s) := by
  simp (maxDischargeDepth := 200) +contextual only [driftSet, implies_true, memOk_ite, memOk_mk, memOk_mem, h]
theorem memOk_launchAs (s : State) (h : MemOk s) : MemOk (launchAs s) := by
  simp (maxDischargeDepth := 200) +contextual only [launchAs, implies_true, memOk_ite, memOk_mk, memOk_mem, memOk_foldl, memOk_foldl_fst, memOk_foldl_snd, memOk_abortTests, memOk_dropHistory, memOk_endRelays, memOk_joinSync, memOk_setEpoch, memOk_setRole, memOk_wr, memOk_wrs, memOk_wrw, h]
theorem memOk_noteTake (s : State) (n : Nat) (h : MemOk s) : MemOk (noteTake s n) := by
  simp (maxDischargeDepth := 200) +contextual only [noteTake, implies_true, memOk_ite, memOk_mk, memOk_mem, memOk_wr64, h]
theorem memOk_takeOver (s : State) (n : Nat) (cold : Bool) (h : MemOk s) : MemOk (takeOver s n cold) := by
  simp (maxDischargeDepth := 200) +contextual only [takeOver, implies_true, memOk_ite, memOk_mk, memOk_mem, memOk_askStop, memOk_incCnt, memOk_launchAs, memOk_noteTake, memOk_post, memOk_showUnal, h]
theorem memOk_swapOut (s : State) (n : Nat) (h : MemOk s) : MemOk (swapOut s n) := by
  simp (maxDischargeDepth := 200) +contextual only [swapOut, implies_true, memOk_ite, memOk_mk, memOk_mem, memOk_abortTests, memOk_incCnt, memOk_noteTake, memOk_requestTest, memOk_setRole, memOk_stopLaunch, memOk_wr, memOk_wrs, h]
theorem memOk_swapBoundary (s : State) (n : Nat) (h : MemOk s) : MemOk (swapBoundary s n) := by
  unfold swapBoundary
  split <;> simp (maxDischargeDepth := 200) +contextual only [implies_true, memOk_ite, memOk_mk, memOk_mem, memOk_cancelSwap, memOk_incCnt, memOk_launchAs, memOk_noteTake, memOk_swapOut, h]
theorem memOk_takeBoundary (s : State) (n : Nat) (h : MemOk s) : MemOk (takeBoundary s n) := by
  unfold takeBoundary
  split <;> simp (maxDischargeDepth := 200) +contextual only [implies_true, memOk_ite, memOk_mk, memOk_mem, memOk_takeOver, h]
theorem memOk_yieldBoundary (s : State) (h : MemOk s) : MemOk (yieldBoundary s) := by
  simp (maxDischargeDepth := 200) +contextual only [yieldBoundary, implies_true, memOk_ite, memOk_mk, memOk_mem, memOk_foldl, memOk_foldl_fst, memOk_foldl_snd, memOk_detach, memOk_stopLaunch, memOk_wr, h]
theorem memOk_shadowBoundary (s : State) (n : Nat) (h : MemOk s) : MemOk (shadowBoundary s n) := by
  unfold shadowBoundary
  split <;> simp (maxDischargeDepth := 200) +contextual only [implies_true, memOk_ite, memOk_mk, memOk_mem, memOk_setRole, memOk_showCapacity, memOk_showUnal, memOk_wr, h]
theorem memOk_pairBoundary (s : State) (n : Nat) (h : MemOk s) : MemOk (pairBoundary s n) := by
  simp (maxDischargeDepth := 200) +contextual only [pairBoundary, implies_true, memOk_ite, memOk_mk, memOk_mem, memOk_foldl, memOk_foldl_fst, memOk_foldl_snd, memOk_installCopy, memOk_passBoundary, memOk_shadowBoundary, memOk_swapBoundary, memOk_takeBoundary, memOk_yieldBoundary, h]
theorem memOk_pairCycle (s : State) (h : MemOk s) : MemOk (pairCycle s) := by
  simp (maxDischargeDepth := 200) +contextual only [pairCycle, implies_true, memOk_ite, memOk_mk, memOk_mem, memOk_mirrorTail, h]
theorem memOk_portBoundary (s : State) (p : Nat) (h : MemOk s) : MemOk (portBoundary s p) := by
  simp (maxDischargeDepth := 200) +contextual only [portBoundary, implies_true, memOk_ite, memOk_mk, memOk_mem, memOk_relayEnd, memOk_setPort, memOk_wr, memOk_wrs, h]
theorem memOk_portsBoundary (s : State) (h : MemOk s) : MemOk (portsBoundary s) := by
  simp (maxDischargeDepth := 200) +contextual only [portsBoundary, implies_true, memOk_ite, memOk_mk, memOk_mem, memOk_foldl, memOk_foldl_fst, memOk_foldl_snd, memOk_portBoundary, h]
theorem memOk_swapBanks (s : State) (h : MemOk s) : MemOk (swapBanks s) := by
  simp (maxDischargeDepth := 200) +contextual only [swapBanks, implies_true, memOk_ite, memOk_mk, memOk_mem, memOk_foldl, memOk_foldl_fst, memOk_foldl_snd, memOk_acqBreak, memOk_markPeriod, memOk_postOther, memOk_setSticky, memOk_wrs, h]
theorem memOk_swapDueAt (s : State) (n : Nat) (h : MemOk s) : MemOk (swapDueAt s n) := by
  unfold swapDueAt
  dsimp only
  repeat' split
  all_goals simp (maxDischargeDepth := 200) +contextual only [implies_true, memOk_ite, memOk_mk, memOk_mem, memOk_capacityCheck, memOk_setSticky, memOk_swapBanks, memOk_wr, memOk_wrs, h]
theorem memOk_rejoinAxis (s : State) (a : Nat) (h : MemOk s) : MemOk (rejoinAxis s a) := by
  simp (maxDischargeDepth := 200) +contextual only [rejoinAxis, implies_true, memOk_ite, memOk_mk, memOk_mem, memOk_reinit, memOk_wr, h]
theorem memOk_shedBoundary (s : State) (n : Nat) (before : List Nat) (h : MemOk s) : MemOk (shedBoundary s n before) := by
  simp (maxDischargeDepth := 200) +contextual only [shedBoundary, implies_true, memOk_ite, memOk_mk, memOk_mem, memOk_foldl, memOk_foldl_fst, memOk_foldl_snd, memOk_askStop, memOk_rejoinAxis, memOk_showCapacity, memOk_unalign, h]
theorem memOk_step2 (s : State) (n : Nat) (h : MemOk s) : MemOk (step2 s n) := by
  simp (maxDischargeDepth := 200) +contextual only [step2, implies_true, memOk_ite, memOk_mk, memOk_mem, memOk_commitDue, memOk_shedBoundary, memOk_surgeBoundary, memOk_swapDueAt, h]
theorem memOk_reload (s : State) (n : Nat) (h : MemOk s) : MemOk (reload s n) := by
  simp (maxDischargeDepth := 200) +contextual only [reload, implies_true, memOk_ite, memOk_mk, memOk_mem, memOk_foldl, memOk_foldl_fst, memOk_foldl_snd, h]
theorem memOk_pointsBoundary (s : State) (h : MemOk s) : MemOk (pointsBoundary s) := by
  simp (maxDischargeDepth := 200) +contextual only [pointsBoundary, implies_true, memOk_ite, memOk_mk, memOk_mem, memOk_canRxMap, memOk_captPoints, memOk_fieldImage, memOk_putImage, memOk_safePoints, memOk_writeSafeA, h]
theorem memOk_interFlags (s : State) (n : Nat) (h : MemOk s) : MemOk (interFlags s n) := by
  simp (maxDischargeDepth := 200) +contextual only [interFlags, implies_true, memOk_ite, memOk_mk, memOk_mem, memOk_foldl, memOk_foldl_fst, memOk_foldl_snd, memOk_postItem, h]
theorem memOk_unarmedEdges (s : State) (h : MemOk s) : MemOk (unarmedEdges s) := by
  simp (maxDischargeDepth := 200) +contextual only [unarmedEdges, implies_true, memOk_ite, memOk_mk, memOk_mem, memOk_foldl, memOk_foldl_fst, memOk_foldl_snd, memOk_makeToken, memOk_postItem, h]
theorem memOk_execCycleBoundary (clk : BitVec 128) (s : State) (h : MemOk s) : ∀ u, execCycleBoundary clk s = .next u → MemOk u := by
  intro u hu
  simp only [execCycleBoundary, Host.Outcome.next.injEq] at hu
  subst hu
  simp (maxDischargeDepth := 200) +contextual only [implies_true, memOk_ite, memOk_mk, memOk_mem, memOk_driftSet, memOk_emuBoundary, memOk_encBoundary, memOk_endCycle, memOk_interFlags, memOk_launchCs, memOk_motionBoundary, memOk_noteRun, memOk_pairBoundary, memOk_pairCycle, memOk_pointsBoundary, memOk_portsBoundary, memOk_primeBoundary, memOk_reload, memOk_showClocked, memOk_step2, memOk_takeControl, memOk_timeBoundary, memOk_unarmedEdges, h]

/-! ## Clock -/

theorem memOk_rtcPeriod (s : State) (h : MemOk s) : MemOk (rtcPeriod s) := by
  unfold rtcPeriod
  split <;> simp (maxDischargeDepth := 200) +contextual only [implies_true, memOk_ite, memOk_mk, memOk_mem, memOk_wr, memOk_wrs, h]
theorem memOk_rtcTick (s : State) (h : MemOk s) : MemOk (rtcTick s) := by
  simp (maxDischargeDepth := 200) +contextual only [rtcTick, implies_true, memOk_ite, memOk_mk, memOk_mem, memOk_rtcPeriod, h]
theorem memOk_netTick (s : State) (h : MemOk s) : MemOk (netTick s) := by
  simp (maxDischargeDepth := 200) +contextual only [netTick, implies_true, memOk_ite, memOk_mk, memOk_mem, memOk_ownPass, memOk_setTime, h]
theorem memOk_clockTick (s : State) (h : MemOk s) : MemOk (clockTick s) := by
  simp (maxDischargeDepth := 200) +contextual only [clockTick, implies_true, memOk_ite, memOk_mk, memOk_mem, memOk_netTick, memOk_rtcTick, h]

/-! ## LastLaunch -/

theorem memOk_launchAxis (s : State) (a : Nat) (h : MemOk s) : MemOk (launchAxis s a) := by
  simp (maxDischargeDepth := 200) +contextual only [launchAxis, implies_true, memOk_ite, memOk_mk, memOk_mem, memOk_setAxis, h]
theorem memOk_keepLaunch (s : State) (h : MemOk s) : MemOk (keepLaunch s) := by
  simp (maxDischargeDepth := 200) +contextual only [keepLaunch, implies_true, memOk_ite, memOk_mk, memOk_mem, memOk_foldl, memOk_foldl_fst, memOk_foldl_snd, memOk_launchAxis, memOk_setMot, h]
theorem memOk_execLastLaunchComplete (s : State) (h : MemOk s) : ∀ u, execLastLaunchComplete s = .next u → MemOk u := by
  intro u hu
  simp only [execLastLaunchComplete, Host.Outcome.next.injEq] at hu
  subst hu
  simp (maxDischargeDepth := 200) +contextual only [implies_true, memOk_ite, memOk_mk, memOk_mem, memOk_acqTap, memOk_canTxMap, memOk_emuUpdates, memOk_keepLaunch, memOk_latchSnap, memOk_logLateRuns, memOk_mirrorSend, memOk_planCmds, h]
theorem memOk_execDmaOutCommit (e : Fin 64) (s : State) (h : MemOk s) : ∀ u, execDmaOutCommit e s = .next u → MemOk u := by
  intro u hu
  simp only [execDmaOutCommit, Host.Outcome.next.injEq] at hu
  subst hu
  repeat' split
  all_goals simp (maxDischargeDepth := 200) +contextual only [implies_true, memOk_ite, memOk_mk, memOk_mem, memOk_foldl, memOk_foldl_fst, memOk_foldl_snd, memOk_doWrites, memOk_engineFault, memOk_postItem, memOk_setEng, memOk_wrPt, h]
theorem memOk_retakeOne (p : Nat) (s : State) (f : RxFrame) (h : MemOk s) : MemOk (retakeOne p s f) := by
  unfold retakeOne
  dsimp only
  repeat' split
  all_goals simp (maxDischargeDepth := 200) +contextual only [implies_true, memOk_ite, memOk_mk, memOk_mem, memOk_setPort, memOk_takeSlot, h]
theorem memOk_retakeFwd (p : Nat) (s : State) (f : RxFrame) (h : MemOk s) : MemOk (retakeFwd p s f) := by
  unfold retakeFwd
  dsimp only
  repeat' split
  all_goals simp (maxDischargeDepth := 200) +contextual only [implies_true, memOk_ite, memOk_mk, memOk_mem, memOk_setPort, memOk_takeForwarded, h]
theorem memOk_retake (s : State) (p : Nat) (h : MemOk s) : MemOk (retake s p) := by
  simp (maxDischargeDepth := 200) +contextual only [retake, implies_true, memOk_ite, memOk_mk, memOk_mem, memOk_foldl, memOk_foldl_fst, memOk_foldl_snd, memOk_retakeFwd, memOk_retakeOne, memOk_setPort, h]
theorem memOk_execStallRelease (s : State) (h : MemOk s) : ∀ u, execStallRelease s = .next u → MemOk u := by
  intro u hu
  simp only [execStallRelease, Host.Outcome.next.injEq] at hu
  subst hu
  simp (maxDischargeDepth := 200) +contextual only [implies_true, memOk_ite, memOk_mk, memOk_mem, memOk_foldl, memOk_foldl_fst, memOk_foldl_snd, memOk_drain, memOk_retake, h]

/-! ## Srst -/

theorem memOk_resetPage (s : State) (p : Nat) (h : MemOk s) : MemOk (resetPage s p) := by
  simp (maxDischargeDepth := 200) +contextual only [resetPage, implies_true, memOk_ite, memOk_mk, memOk_mem, h]
theorem memOk_resetCyc (s : State) (h : MemOk s) : MemOk (resetCyc s) := by
  simp (maxDischargeDepth := 200) +contextual only [resetCyc, implies_true, memOk_ite, memOk_mk, memOk_mem, h]
theorem memOk_resetClu (s : State) (c : Nat) (h : MemOk s) : MemOk (resetClu s c) := by
  simp (maxDischargeDepth := 200) +contextual only [resetClu, implies_true, memOk_ite, memOk_mk, memOk_mem, memOk_foldl, memOk_foldl_fst, memOk_foldl_snd, h]
theorem memOk_resetBlock (s : State) (b : Blk) (i : Nat) (h : MemOk s) : MemOk (resetBlock s b i) := by
  unfold resetBlock
  split <;> simp (maxDischargeDepth := 200) +contextual only [implies_true, memOk_ite, memOk_mk, memOk_mem, memOk_afterDom, memOk_dropBlocks, memOk_redrive, memOk_resetClu, memOk_resetCyc, memOk_setEng, memOk_setPort, h]
theorem memOk_softReset (s : State) (p : Nat) (b : Blk) (i : Nat) (h : MemOk s) : MemOk (softReset s p b i) := by
  simp (maxDischargeDepth := 200) +contextual only [softReset, implies_true, memOk_ite, memOk_mk, memOk_mem, memOk_foldl, memOk_foldl_fst, memOk_foldl_snd, memOk_engineBack, memOk_resetBlock, memOk_resetPage, memOk_warmReset, h]
theorem memOk_srstAct (s : State) (m : Master) (p : Nat) (h : MemOk s) : MemOk (srstAct s m p) := by
  unfold srstAct
  split <;> simp (maxDischargeDepth := 200) +contextual only [implies_true, memOk_ite, memOk_mk, memOk_mem, memOk_errlog, memOk_softReset, h]
theorem memOk_execSrst (m : Master) (page : BitVec 12) (w : W32) (s : State) (h : MemOk s) : ∀ u, execSrst m page w s = .next u → MemOk u := by
  intro u hu
  simp only [execSrst, Host.Outcome.next.injEq] at hu
  subst hu
  simp (maxDischargeDepth := 200) +contextual only [implies_true, memOk_ite, memOk_mk, memOk_mem, memOk_regAction, memOk_srstAct, h]

/-! ## RegRead -/

theorem memOk_readWindow (s : State) (m : Master) (k : Nat) (h : MemOk s) : MemOk (readWindow s m k).2 := by
  unfold readWindow
  dsimp only
  repeat' split
  all_goals simp (maxDischargeDepth := 200) +contextual only [implies_true, memOk_ite, memOk_mk, memOk_mem, memOk_errlog, memOk_free, h]
theorem memOk_regRead (s : State) (m : Master) (k : Nat) (h : MemOk s) : MemOk (regRead s m k).2 := by
  unfold regRead
  dsimp only
  repeat' split
  all_goals simp (maxDischargeDepth := 200) +contextual only [implies_true, memOk_ite, memOk_mk, memOk_mem, memOk_bput, memOk_errlog, memOk_free, memOk_readWindow, h]
theorem memOk_after {o : Host.Outcome State Fault Refusal} {s : State} (h : MemOk s) (ho : ∀ t, o = .next t → MemOk t) : MemOk (after o s) := by
  unfold after
  split
  · exact ho _ rfl
  · exact h
theorem memOk_busRead (s : State) (m : Master) (k : Nat) (h : MemOk s) : MemOk (busRead s m k) := by
  unfold busRead
  refine memOk_ite (memOk_after h (memOk_execEntry0Read m s h)) (memOk_ite (memOk_after h (memOk_execNowNsRead m s h))
    (memOk_ite (memOk_after h (memOk_execCapturePop m _ s h)) (memOk_pageAccess s m k _ _ h (fun s h => ?_))))
  exact memOk_answer _ _ (memOk_regRead s m k h)
theorem memOk_execCounterLowRead (m : Master) (addr : BitVec 24) (s : State) (h : MemOk s) : ∀ u, execCounterLowRead m addr s = .next u → MemOk u := by
  intro u hu
  simp only [execCounterLowRead, Host.Outcome.next.injEq] at hu
  subst hu
  simp (maxDischargeDepth := 200) +contextual only [implies_true, memOk_ite, memOk_mk, memOk_mem, memOk_busRead, h]

/-! ## RegWrite -/

theorem memOk_checkEdge (s : State) (m : Master) (k : Nat) (h : MemOk s) : MemOk (checkEdge s m k) := by
  simp (maxDischargeDepth := 200) +contextual only [checkEdge, implies_true, memOk_ite, memOk_mk, memOk_mem, memOk_errlog, memOk_wrw, h]
theorem memOk_ptpRole (was s : State) (n : Nat) (h : MemOk was) (h2 : MemOk s) : MemOk (ptpRole was s n) := by
  simp (maxDischargeDepth := 200) +contextual only [ptpRole, implies_true, memOk_ite, memOk_mk, memOk_mem, memOk_upstreamChange, memOk_wr, h, h2]
theorem memOk_peerCfg (was s : State) (h : MemOk was) (h2 : MemOk s) : MemOk (peerCfg was s) := by
  simp (maxDischargeDepth := 200) +contextual only [peerCfg, implies_true, memOk_ite, memOk_mk, memOk_mem, memOk_setRole, memOk_wr, memOk_wrs, memOk_wrw, h, h2]
theorem memOk_aoRequest (s : State) (k w : Nat) (h : MemOk s) : MemOk (aoRequest s k w) := by
  simp (maxDischargeDepth := 200) +contextual only [aoRequest, implies_true, memOk_ite, memOk_mk, memOk_mem, h]
theorem memOk_afterWrite (was s : State) (m : Master) (k w : Nat) (h : MemOk was) (h2 : MemOk s) : MemOk (afterWrite was s m k w) := by
  unfold afterWrite
  dsimp only
  repeat' split
  all_goals simp (maxDischargeDepth := 200) +contextual only [implies_true, memOk_ite, memOk_mk, memOk_mem, memOk_aoRequest, memOk_canCtrlWrite, memOk_checkEdge, memOk_followOut, memOk_holdLoad, memOk_peerCfg, memOk_portEnable, memOk_ptpRole, memOk_redrive, memOk_rxRestart, memOk_showFull, memOk_ttIdle, memOk_txRestart, memOk_upstreamChange, h, h2]
theorem memOk_axisStat (s : State) (o w : Nat) (h : MemOk s) : MemOk (axisStat s o w) := by
  simp (maxDischargeDepth := 200) +contextual only [axisStat, implies_true, memOk_ite, memOk_mk, memOk_mem, memOk_setAxis, h]
theorem memOk_motionStat (s : State) (w : Nat) (h : MemOk s) : MemOk (motionStat s w) := by
  simp (maxDischargeDepth := 200) +contextual only [motionStat, implies_true, memOk_ite, memOk_mk, memOk_mem, memOk_setMot, h]
theorem memOk_rtcWrite (s : State) (k w : Nat) (h : MemOk s) : MemOk (rtcWrite s k w) := by
  simp (maxDischargeDepth := 200) +contextual only [rtcWrite, implies_true, memOk_ite, memOk_mk, memOk_mem, h]
theorem memOk_pageWrite (s : State) (m : Master) (k w : Nat) (h : MemOk s) : MemOk (pageWrite s m k w) := by
  simp (maxDischargeDepth := 200) +contextual only [pageWrite, implies_true, memOk_ite, memOk_mk, memOk_mem, memOk_afterWrite, memOk_aoRequest, memOk_axisStat, memOk_canWinWrite, memOk_clearCounts, memOk_errlog, memOk_motionStat, memOk_plainWrite, memOk_rtcWrite, memOk_wrw, h]
/-- A meaning keeps the canonical form. -/
def ActOk (f : Act) : Prop := ∀ s, MemOk s → ∀ t, f s = .next t → MemOk t
/-- Every meaning of a list keeps it. -/
def ActsOk (l : List Act) : Prop := ∀ f ∈ l, ActOk f
theorem actsOk_nil : ActsOk [] := by intro f h; simp at h
theorem actsOk_one {f : Act} (h : ActOk f) : ActsOk [f] := by intro g hg; simp only [List.mem_singleton] at hg; exact hg ▸ h
theorem actsOk_append {l r : List Act} (hl : ActsOk l) (hr : ActsOk r) : ActsOk (l ++ r) := by
  intro f hf; exact (List.mem_append.mp hf).elim (hl f) (hr f)
theorem actsOk_ite {c : Prop} [Decidable c] {l r : List Act} (hl : ActsOk l) (hr : ActsOk r) : ActsOk (if c then l else r) := by
  split <;> assumption
theorem actsOk_bit {w : W32} {l : List (Nat × Act)} (h : ∀ e ∈ l, ActOk e.2) : ActsOk (bitActs w l) := by
  intro f hf
  simp only [bitActs, List.mem_map, List.mem_filter] at hf
  obtain ⟨e, ⟨he, -⟩, rfl⟩ := hf
  exact h e he
theorem actsOk_op {op : Nat} {l : List (Nat × Act)} (h : ∀ e ∈ l, ActOk e.2) : ActsOk (opAct op l) := by
  intro f hf
  simp only [opAct, List.mem_map, List.mem_filter] at hf
  obtain ⟨e, ⟨he, -⟩, rfl⟩ := hf
  exact h e he
theorem actPairs_nil : ∀ e ∈ ([] : List (Nat × Act)), ActOk e.2 := by intro e h; simp at h
theorem actPairs_cons {n : Nat} {f : Act} {l : List (Nat × Act)} (hf : ActOk f) (hl : ∀ e ∈ l, ActOk e.2) : ∀ e ∈ (n, f) :: l, ActOk e.2 := by
  intro e h
  rcases List.mem_cons.mp h with rfl | h
  · exact hf
  · exact hl e h
theorem memOk_headerActs (m : Master) (p o : Nat) (w : W32) : ActsOk (headerActs m p o w) := by
  simp only [headerActs]
  refine actsOk_ite (actsOk_bit (actPairs_cons (fun s h => memOk_execSrst _ _ _ s h) actPairs_nil)) (actsOk_ite (actsOk_one (fun s h => memOk_execEvtSet _ _ _ s h)) (actsOk_ite (actsOk_one ?_) actsOk_nil))
  exact fun s h => memOk_execLock _ _ _ _ _ (memOk_free s h)
theorem memOk_dmaCtrlActs (m : Master) (c : Nat) (w : W32) : ActsOk (dmaCtrlActs m c w) := by
  simp only [dmaCtrlActs]
  refine actsOk_bit (actPairs_cons (fun s h => memOk_execDmaGo _ _ _ s h) (actPairs_cons ?_ actPairs_nil))
  intro s h t e
  have e := Host.Outcome.next.inj e
  subst e
  exact memOk_regAction _ _ _ _ _ h (fun s h => memOk_mk (memOk_mem h))
theorem memOk_stewardActs (m : Master) (k : Nat) (w : W32) : ActsOk (stewardActs m k w) := by
  unfold stewardActs
  exact actsOk_ite (actsOk_one (fun s h => memOk_execPwrReq _ _ s h))
        (actsOk_ite (actsOk_bit (actPairs_cons (fun s h => memOk_execStandby _ _ s h) actPairs_nil))
        (actsOk_ite (actsOk_one (fun s h => memOk_execAck _ _ s h))
        (actsOk_ite (actsOk_bit (actPairs_cons (fun s h => memOk_execReplan _ s h) actPairs_nil))
        (actsOk_ite (actsOk_one (fun s h => memOk_execSurgeReq _ _ s h))
        (actsOk_ite (actsOk_one (fun s h => memOk_execHostimg _ _ s h))
        (actsOk_ite (actsOk_op (actPairs_cons (fun s h => memOk_execClearJournal _ _ s h) (actPairs_cons (fun s h => memOk_execReboot _ _ s h) (actPairs_cons (fun s h => memOk_execStage _ _ _ _ (memOk_free s h)) (actPairs_cons (fun s h => memOk_execSelect _ _ s h) (actPairs_cons (fun s h => memOk_execCommitVer _ _ s h) actPairs_nil))))))
        (actsOk_ite (actsOk_op (actPairs_cons (fun s h => memOk_execTestEngine _ _ s h) (actPairs_cons (fun s h => memOk_execTestCistbank _ _ s h) (actPairs_cons (fun s h => memOk_execTestScrub _ _ s h) (actPairs_cons (fun s h => memOk_execTestEyescan _ _ s h) (actPairs_cons (fun s h => memOk_execTestSdscal _ _ s h) (actPairs_cons (fun s h => memOk_execTestPortloop _ _ s h) (actPairs_cons (fun s h => memOk_execTestCan _ _ s h) (actPairs_cons (fun s h => memOk_execTestEncoder _ _ s h) (actPairs_cons (fun s h => memOk_execTestOffline _ _ s h) actPairs_nil))))))))))
        (actsOk_nil))))))))
theorem memOk_netActs (m : Master) (k : Nat) (w : W32) : ActsOk (netActs m k w) := by
  unfold netActs
  extract_lets
  split
  · exact actsOk_ite (actsOk_one (fun s h => memOk_execWithdrawWrite _ _ _ s h))
        (actsOk_nil)
  · exact actsOk_ite (actsOk_one (fun s h => memOk_execCommitRequest _ _ s h))
        (actsOk_ite (actsOk_one (fun s h => memOk_execShedMapWrite _ _ _ s h))
        (actsOk_ite (actsOk_op (actPairs_cons (fun s h => memOk_execGinstall _ _ s h) (actPairs_cons (fun s h => memOk_execLoadimem _ _ s h) actPairs_nil)))
        (actsOk_nil)))
  · exact actsOk_ite (actsOk_bit (actPairs_cons (fun s h => memOk_execClrFault _ _ _ s h) actPairs_nil))
        (actsOk_nil)
  · exact actsOk_ite (actsOk_bit (actPairs_cons (fun s h => memOk_execReopen _ _ _ s h) actPairs_nil))
        (actsOk_nil)
  · exact actsOk_ite (actsOk_bit (actPairs_cons (fun s h => memOk_execRestart _ _ s h) actPairs_nil))
        (actsOk_ite (actsOk_op (actPairs_cons (fun s h => memOk_execInstall _ _ s h) (actPairs_cons (fun s h => memOk_execClear _ _ s h) actPairs_nil)))
        (actsOk_ite (actsOk_bit (actPairs_cons (fun s h => memOk_execSwapReq _ _ s h) actPairs_nil))
        (actsOk_ite (actsOk_bit (actPairs_cons (fun s h => memOk_execClashClr _ _ s h) actPairs_nil))
        (actsOk_nil))))
  · exact actsOk_ite (actsOk_bit (actPairs_cons (fun s h => memOk_execStepAccept _ _ s h) (actPairs_cons (fun s h => memOk_execStepCancel _ _ s h) actPairs_nil)))
        (actsOk_ite (actsOk_bit (actPairs_cons (fun s h => memOk_execSet _ _ s h) actPairs_nil))
        (actsOk_nil))
  · exact actsOk_ite (actsOk_op (actPairs_cons (fun s h => memOk_execSwap _ _ s h) (actPairs_cons (fun s h => memOk_execSwapCancel _ _ s h) (actPairs_cons (fun s h => memOk_execJoin _ _ s h) actPairs_nil))))
        (actsOk_nil)
  · exact actsOk_ite (actsOk_op (actPairs_cons (fun s h => memOk_execAxisLoad _ _ s h) (actPairs_cons (fun s h => memOk_execMark _ _ s h) (actPairs_cons (fun s h => memOk_execNotch _ _ s h) actPairs_nil))))
        (actsOk_ite (actsOk_one (fun s h => memOk_execAxisAreaWrite _ _ s h))
        (actsOk_ite (actsOk_one (fun s h => memOk_execAxisWindowWrite _ _ _ s h))
        (actsOk_nil)))
  · exact actsOk_ite (actsOk_op (actPairs_cons (fun s h => memOk_execMoveAbs _ _ s h) (actPairs_cons (fun s h => memOk_execMoveRel _ _ s h) (actPairs_cons (fun s h => memOk_execSpeed _ _ s h) (actPairs_cons (fun s h => memOk_execGear _ _ s h) (actPairs_cons (fun s h => memOk_execCam _ _ s h) (actPairs_cons (fun s h => memOk_execFree _ _ s h) (actPairs_cons (fun s h => memOk_execSuper _ _ s h) (actPairs_cons (fun s h => memOk_execGroupGo _ _ s h) (actPairs_cons (fun s h => memOk_execReregShift _ _ s h) (actPairs_cons (fun s h => memOk_execReregMove _ _ s h) (actPairs_cons (fun s h => memOk_execMotionLoad _ _ s h) actPairs_nil))))))))))))
        (actsOk_ite (actsOk_one (fun s h => memOk_execStop _ _ s h))
        (actsOk_ite (actsOk_bit (actPairs_cons (fun s h => memOk_execHalt _ _ s h) actPairs_nil))
        (actsOk_ite (actsOk_one (fun s h => memOk_execStopClr _ _ s h))
        (actsOk_ite (actsOk_one (fun s h => memOk_execMotionWindowWrite _ _ _ s h))
        (actsOk_ite (actsOk_one (fun s h => memOk_execCamTableWrite _ _ _ s h))
        (actsOk_nil))))))
  · exact actsOk_nil
theorem memOk_edgeActs (m : Master) (k : Nat) (w : W32) : ActsOk (edgeActs m k w) := by
  unfold edgeActs
  extract_lets
  split
  · extract_lets; exact actsOk_ite (actsOk_bit (actPairs_cons (fun s h => memOk_execEncClr _ _ _ s h) (actPairs_cons (fun s h => memOk_execZarm _ _ _ s h) (actPairs_cons (fun s h => memOk_execEncLoad _ _ _ s h) actPairs_nil))))
        (actsOk_nil)
  · exact actsOk_ite (actsOk_bit (actPairs_cons (fun s h => memOk_execTtArm _ _ _ s h) actPairs_nil))
        (actsOk_nil)
  · exact actsOk_ite (actsOk_bit (actPairs_cons (fun s h => memOk_execRearm _ _ s h) actPairs_nil))
        (actsOk_ite (actsOk_one (fun s h => memOk_execDiagClear _ _ _ s h))
        (actsOk_nil))
  · exact actsOk_ite (actsOk_one (fun s h => memOk_execCas _ _ s h))
        (actsOk_ite (actsOk_bit (actPairs_cons (fun s h => memOk_execSnapGo _ _ s h) actPairs_nil))
        (actsOk_nil))
  · exact actsOk_ite (memOk_dmaCtrlActs _ _ _)
        (actsOk_nil)
  · exact actsOk_ite (actsOk_bit (actPairs_cons (fun s h => memOk_execAcqArm _ _ s h) (actPairs_cons (fun s h => memOk_execAcqStop _ _ s h) (actPairs_cons (fun s h => memOk_execForce _ _ s h) (actPairs_cons (fun s h => memOk_execExportRec _ _ s h) actPairs_nil)))))
        (actsOk_ite (actsOk_one (fun s h => memOk_execRelease _ _ s h))
        (actsOk_nil))
  · extract_lets; exact actsOk_ite (actsOk_bit (actPairs_cons (fun s h => memOk_execRecover _ _ _ s h) actPairs_nil))
        (actsOk_ite (actsOk_one (fun s h => memOk_execBsel _ _ _ s h))
        (actsOk_ite (actsOk_one (fun s h => memOk_execRxrel _ _ _ s h))
        (actsOk_ite (actsOk_bit (actPairs_cons (fun s h => memOk_execCanTxReq _ _ _ _ s h) (actPairs_cons (fun s h => memOk_execCanCancel _ _ _ _ s h) (actPairs_cons (fun s h => memOk_execCanClr _ _ _ _ s h) actPairs_nil))))
        (actsOk_nil))))
  · exact actsOk_nil
theorem memOk_busWrite (s : State) (m : Master) (k : Nat) (w : W32) (h : MemOk s) : MemOk (busWrite s m k w) := by
  have ha : ActsOk (acts m k w) := by
    unfold acts
    exact actsOk_ite (memOk_headerActs _ _ _ _) (actsOk_append (actsOk_append (memOk_stewardActs _ _ _) (memOk_netActs _ _ _)) (memOk_edgeActs _ _ _))
  unfold busWrite
  split
  · exact memOk_pageAccess s m k _ _ h (fun s h => memOk_pageWrite s m k _ h)
  · refine memOk_ite ?_ (memOk_pageAccess s m k _ _ h (fun s h => h))
    generalize acts m k w = l at ha
    induction l generalizing s with
    | nil => exact h
    | cons f r ih => exact ih _ (memOk_after h (ha f List.mem_cons_self s h)) (fun g hg => ha g (List.mem_cons_of_mem _ hg))
theorem memOk_busAccess (s : State) (m : Master) (a size : Nat) (acc : WordAcc) (h : MemOk s) : MemOk (busAccess s m a size acc) := by
  unfold busAccess
  dsimp only
  repeat' split
  all_goals simp (maxDischargeDepth := 200) +contextual only [implies_true, memOk_ite, memOk_mk, memOk_mem, memOk_answer, memOk_busRead, memOk_busWrite, memOk_errlog, memOk_pageAccess, h]
theorem memOk_execRegisterWrite (m : Master) (addr : BitVec 24) (size : Nat) (acc : WordAcc) (s : State) (h : MemOk s) : ∀ u, execRegisterWrite m addr size acc s = .next u → MemOk u := by
  intro u hu
  simp only [execRegisterWrite, Host.Outcome.next.injEq] at hu
  subst hu
  simp (maxDischargeDepth := 200) +contextual only [implies_true, memOk_ite, memOk_mk, memOk_mem, memOk_busAccess, h]
theorem memOk_execBridgePageAccess (m : Master) (addr : BitVec 24) (acc : WordAcc) (s : State) (h : MemOk s) : ∀ u, execBridgePageAccess m addr acc s = .next u → MemOk u := by
  intro u hu
  simp only [execBridgePageAccess, Host.Outcome.next.injEq] at hu
  subst hu
  simp (maxDischargeDepth := 200) +contextual only [implies_true, memOk_ite, memOk_mk, memOk_mem, memOk_busAccess, h]
theorem memOk_acqRead (s : State) (addr : W32) (n : Nat) (h : MemOk s) : MemOk (acqRead s addr n) := by
  simp (maxDischargeDepth := 200) +contextual only [acqRead, implies_true, memOk_ite, memOk_mk, memOk_mem, memOk_answer, h]
theorem memOk_resume (s : State) (a : Access) (h : MemOk s) : MemOk (resume s a) := by
  cases a with
  | reg m addr size acc => exact memOk_after h (memOk_execRegisterWrite _ _ _ _ s h)
  | cist m word acc => exact memOk_after h (memOk_execCisternAccess _ _ _ s h)
  | lock m page w clk => exact memOk_after h (memOk_execLock _ _ _ _ s h)
  | acq addr n => exact memOk_answer _ _ h
theorem memOk_execStalledAccessResume (d : Fin 16) (s : State) (h : MemOk s) : ∀ u, execStalledAccessResume d s = .next u → MemOk u := by
  intro u hu
  simp only [execStalledAccessResume, Host.Outcome.next.injEq] at hu
  subst hu
  repeat' split
  all_goals simp (maxDischargeDepth := 200) +contextual only [implies_true, memOk_ite, memOk_mk, memOk_mem, memOk_resume, h]
theorem memOk_execAcqBufferWrite (addr : BitVec 21) (s : State) (h : MemOk s) : ∀ u, execAcqBufferWrite addr s = .next u → MemOk u := by
  intro u hu
  simp only [execAcqBufferWrite, Host.Outcome.next.injEq] at hu
  subst hu
  simp (maxDischargeDepth := 200) +contextual only [implies_true, memOk_ite, memOk_mk, memOk_mem, memOk_autoWake, memOk_errlog, memOk_logUnreachable, h]

/-! ## Internal -/

theorem memOk_cistReads (m : Master) (l : List Nat) (s : State) (h : MemOk s) : MemOk (cistReads s m l).2 := by
  induction l generalizing s with
  | nil => exact h
  | cons w r ih => exact ih _ (memOk_cistRead _ _ _ _ h)
theorem memOk_internalRead (s : State) (m : Master) (r : Region) (a n : Nat) (h : MemOk s) : MemOk (internalRead s m r a n).2 := by
  unfold internalRead
  split <;> simp (maxDischargeDepth := 200) +contextual only [implies_true, memOk_ite, memOk_mk, memOk_mem, memOk_cistReads, memOk_free, h]
theorem memOk_cistWrites (s : State) (m : Master) (o : Nat) (bytes : List Byte) (h : MemOk s) : MemOk (cistWrites s m o bytes) := by
  simp (maxDischargeDepth := 200) +contextual only [cistWrites, implies_true, memOk_ite, memOk_mk, memOk_mem, memOk_foldl, memOk_foldl_fst, memOk_foldl_snd, memOk_cistWrite, h]
theorem memOk_pointWrites (s : State) (m : Master) (a : Nat) (bytes : List Byte) (h : MemOk s) : MemOk (pointWrites s m a bytes) := by
  simp (maxDischargeDepth := 200) +contextual only [pointWrites, implies_true, memOk_ite, memOk_mk, memOk_mem, memOk_foldl, memOk_foldl_fst, memOk_foldl_snd, memOk_ptGuard, memOk_wrPt, h]
theorem memOk_internalWrite (s : State) (m : Master) (r : Region) (a : Nat) (bytes : List Byte) (h : MemOk s) : MemOk (internalWrite s m r a bytes) := by
  unfold internalWrite
  split <;> simp (maxDischargeDepth := 200) +contextual only [implies_true, memOk_ite, memOk_mk, memOk_mem, memOk_mwrite, memOk_cistWrites, memOk_pointWrites, h]
theorem memOk_bar4 (s : State) (addr : W32) (acc : MemAcc) (h : MemOk s) : MemOk (bar4 s addr acc) := by
  unfold bar4
  split
  · exact memOk_ite (memOk_domAccess _ _ _ _ _ _ _ h (fun s h => memOk_acqRead _ _ _ h)) h
  · exact memOk_after h (memOk_execAcqBufferWrite _ s h)
theorem memOk_execInternalAccess (m : Master) (addr : W32) (acc : MemAcc) (s : State) (h : MemOk s) : ∀ u, execInternalAccess m addr acc s = .next u → MemOk u := by
  intro u hu
  simp only [execInternalAccess, Host.Outcome.next.injEq] at hu
  subst hu
  repeat' split
  all_goals simp (maxDischargeDepth := 200) +contextual only [implies_true, memOk_ite, memOk_mk, memOk_mem, memOk_answer, memOk_badAccess, memOk_bar4, memOk_busAccess, memOk_internalRead, memOk_internalWrite, memOk_logUnreachable, h]
theorem memOk_dmaRead (s : State) (a : Nat) (h : MemOk s) : MemOk (dmaRead s a).2 :=
  memOk_mk (memOk_mem (memOk_after h (memOk_execInternalAccess _ _ _ s h)))
theorem memOk_dmaWrite (s : State) (a : Nat) (b : List Byte) (h : MemOk s) : MemOk (dmaWrite s a b) :=
  memOk_mk (memOk_mem (memOk_after h (memOk_execInternalAccess _ _ _ s h)))
theorem memOk_moveWords (out : Bool) (n : Nat) (s : State) (a : Nat) (data : List Byte) (h : MemOk s) : MemOk (moveWords s out a data n).1 := by
  induction n generalizing s a data with
  | zero => exact h
  | succ n ih =>
    simp only [moveWords]
    split
    · split
      · exact memOk_dmaRead _ _ h
      · exact memOk_dmaWrite _ _ _ h
    · split
      · exact ih _ _ _ (memOk_dmaRead _ _ h)
      · exact ih _ _ _ (memOk_dmaWrite _ _ _ h)
theorem memOk_moveDesc (s : State) (c : Nat) (d : DmaDesc) (data : List Byte) (n : Nat) (h : MemOk s) : MemOk (moveDesc s c d data n).1 := by
  simp (maxDischargeDepth := 200) +contextual only [moveDesc, implies_true, memOk_ite, memOk_mk, memOk_mem, memOk_emit, memOk_moveWords, h]
theorem memOk_dmaStopped (s : State) (c : Nat) (h : MemOk s) : MemOk (dmaStopped s c) := by
  simp (maxDischargeDepth := 200) +contextual only [dmaStopped, implies_true, memOk_ite, memOk_mk, memOk_mem, memOk_clrBusy, memOk_sendVec, h]
theorem memOk_dmaFail (s : State) (c : Nat) (d : DmaDesc) (status : Nat) (h : MemOk s) : MemOk (dmaFail s c d status) := by
  simp (maxDischargeDepth := 200) +contextual only [dmaFail, implies_true, memOk_ite, memOk_mk, memOk_mem, memOk_dmaStopped, memOk_emit, memOk_setSticky, h]
theorem memOk_dmaDone (s : State) (c : Nat) (d : DmaDesc) (h : MemOk s) : MemOk (dmaDone s c d) := by
  simp (maxDischargeDepth := 200) +contextual only [dmaDone, implies_true, memOk_ite, memOk_mk, memOk_mem, memOk_clrBusy, memOk_emit, memOk_incCnt, memOk_sendVec, memOk_setSticky, h]
theorem memOk_execDmaDescriptorComplete (c : Fin 8) (d : DmaDesc) (data : List Byte) (pcieErr : Bool) (s : State) (h : MemOk s) : ∀ u, execDmaDescriptorComplete c d data pcieErr s = .next u → MemOk u := by
  intro u hu
  simp only [execDmaDescriptorComplete, Host.Outcome.next.injEq] at hu
  subst hu
  simp (maxDischargeDepth := 200) +contextual only [implies_true, memOk_ite, memOk_mk, memOk_mem, memOk_dmaDone, memOk_dmaFail, memOk_dmaStopped, memOk_moveDesc, h]
theorem memOk_execDmaStop (m : Master) (c : Fin 8) (w : W32) (d : DmaDesc) (data : List Byte) (n : Nat) (s : State) (h : MemOk s) : ∀ u, execDmaStop m c w d data n s = .next u → MemOk u := by
  intro u hu
  simp only [execDmaStop, Host.Outcome.next.injEq] at hu
  subst hu
  simp (maxDischargeDepth := 200) +contextual only [implies_true, memOk_ite, memOk_mk, memOk_mem, memOk_dmaFail, memOk_dmaStopped, memOk_moveDesc, memOk_regAction, h]

/-! ## Mirror -/

theorem memOk_digestCheck (s : State) (own : LastCyc) (rxMiss : List W32) (nulls : List (BitVec 12)) (d : BitVec 5 × W64 × BitVec 16) (h : MemOk s) : MemOk (digestCheck s own rxMiss nulls d) := by
  simp (maxDischargeDepth := 200) +contextual only [digestCheck, implies_true, memOk_ite, memOk_mk, memOk_mem, memOk_incCnt, memOk_inputDifference, memOk_shadowMismatch, h]
theorem memOk_repeatWrite (s : State) (n k : Nat) (w : W32) (l : List (BitVec 24 × W32)) (h : MemOk s) : MemOk (repeatWrite s n k w l) := by
  simp (maxDischargeDepth := 200) +contextual only [repeatWrite, implies_true, memOk_ite, memOk_mk, memOk_mem, memOk_foldl, memOk_foldl_fst, memOk_foldl_snd, memOk_busWrite, memOk_wrw, h]
theorem memOk_repeatInstall (s : State) (n k : Nat) (w : W32) (l : List (BitVec 24 × W32)) (h : MemOk s) : MemOk (repeatInstall s n k w l) := by
  simp (maxDischargeDepth := 200) +contextual only [repeatInstall, implies_true, memOk_ite, memOk_mk, memOk_mem, memOk_ackPeer, memOk_peerLoad, memOk_repeatWrite, h]
theorem memOk_repeatSwap (s : State) (w : W32) (l : List (BitVec 24 × W32)) (h : MemOk s) : MemOk (repeatSwap s w l) := by
  simp (maxDischargeDepth := 200) +contextual only [repeatSwap, implies_true, memOk_ite, memOk_mk, memOk_mem, h]
theorem memOk_applyItem (s : State) (i : MItem) (h : MemOk s) : MemOk (applyItem s i) := by
  unfold applyItem
  dsimp only
  repeat' split
  all_goals simp (maxDischargeDepth := 200) +contextual only [implies_true, memOk_ite, memOk_mk, memOk_mem, memOk_itemLate, memOk_putBlock, memOk_repeatInstall, memOk_repeatSwap, memOk_repeatWrite, memOk_takePlan, h]
theorem memOk_takeActive (s : State) (n : Nat) (rxMiss : List W32) (nulls : List (BitVec 12)) (ds : List (BitVec 5 × W64 × BitVec 16)) (items : List MItem) (h : MemOk s) : MemOk (takeActive s n rxMiss nulls ds items) := by
  unfold takeActive
  split <;> simp (maxDischargeDepth := 200) +contextual only [implies_true, memOk_ite, memOk_mk, memOk_mem, memOk_foldl, memOk_foldl_fst, memOk_foldl_snd, memOk_applyItem, memOk_digestCheck, h]
theorem memOk_takeReports (s : State) (ws : List W32) (faulted : Bool) (h : MemOk s) : MemOk (takeReports s ws faulted) := by
  simp (maxDischargeDepth := 200) +contextual only [takeReports, implies_true, memOk_ite, memOk_mk, memOk_mem, memOk_post, h]
theorem memOk_takeStandby (s : State) (n : Nat) (theta : Option W64) (r : Nat) (nready : Nat) (unal : List Nat) (ws : List W32) (pts : List PtImage) (h : MemOk s) : MemOk (takeStandby s n theta r nready unal ws pts) := by
  simp (maxDischargeDepth := 200) +contextual only [takeStandby, implies_true, memOk_ite, memOk_mk, memOk_mem, memOk_takeReports, memOk_wr, h]
theorem memOk_execMirrorRecordReceive (r : MirrorRec) (s : State) (h : MemOk s) : ∀ u, execMirrorRecordReceive r s = .next u → MemOk u := by
  intro u hu
  simp only [execMirrorRecordReceive, Host.Outcome.next.injEq] at hu
  subst hu
  repeat' split
  all_goals simp (maxDischargeDepth := 200) +contextual only [implies_true, memOk_ite, memOk_mk, memOk_mem, memOk_takeActive, memOk_takeStandby, h]

/-! ## Ecc -/

theorem memOk_eccSingle (s : State) (p : Nat) (h : MemOk s) : MemOk (eccSingle s p) := by
  simp (maxDischargeDepth := 200) +contextual only [eccSingle, implies_true, memOk_ite, memOk_mk, memOk_mem, memOk_errlog, memOk_free, h]
theorem memOk_eccEngine (s : State) (e : Nat) (c : EngCause) (h : MemOk s) : MemOk (eccEngine s e c) := by
  simp (maxDischargeDepth := 200) +contextual only [eccEngine, implies_true, memOk_ite, memOk_mk, memOk_mem, memOk_engineFault, memOk_selfFault, h]
theorem memOk_eccAnswer (s : State) (m : Option Master) (h : MemOk s) : MemOk (eccAnswer s m) := by
  unfold eccAnswer
  split <;> simp (maxDischargeDepth := 200) +contextual only [implies_true, memOk_ite, memOk_mk, memOk_mem, memOk_emit, h]
theorem memOk_eccDouble (s : State) (y0 : EccMem) (h : MemOk s) : MemOk (eccDouble s y0) := by
  unfold eccDouble
  dsimp only
  repeat' split
  all_goals simp (maxDischargeDepth := 200) +contextual only [implies_true, memOk_ite, memOk_mk, memOk_mem, memOk_mwrite, memOk_tdrop, memOk_eccAnswer, memOk_eccEngine, memOk_free, memOk_incErr, memOk_postOther, memOk_selfFault, memOk_setPort, memOk_setStale, memOk_wr, h]
theorem memOk_execEccScrub (mem : EccMem) (double : Bool) (s : State) (h : MemOk s) : ∀ u, execEccScrub mem double s = .next u → MemOk u := by
  intro u hu
  simp only [execEccScrub, Host.Outcome.next.injEq] at hu
  subst hu
  simp (maxDischargeDepth := 200) +contextual only [implies_true, memOk_ite, memOk_mk, memOk_mem, memOk_eccDouble, memOk_eccSingle, h]

end Sys2Proof.Machine
end

