-- ==== Sys2Proof/Laws/State.lean ====
section
/-! SUPPORT. What each named update of the state leaves as it is: one lemma per field, and for operations of several steps the shape of their result. -/

namespace Sys2Proof.Machine

theorem RegsWire.refl (s : State) : RegsWire s s := rfl
theorem RegsWire.wrw (s : State) (k v : Nat) : RegsWire s (wrw s k v) := rfl
theorem RegsWire.wr (s : State) (f : Fld) (v : Nat) : RegsWire s (wr s f v) := rfl
theorem RegsWire.emit (s : State) (o : Out) : RegsWire s (emit s o) := rfl
theorem RegsWire.trans {s t u : State} (h : RegsWire s t) (k : RegsWire t u) : RegsWire s u := by
  unfold RegsWire at *
  rw [h] at k
  exact k

theorem Logged.refl (s : State) : Logged s s := rfl
theorem Logged.regs {s t u : State} (h : Logged s t) (k : RegsWire t u) : Logged s u := by
  unfold Logged RegsWire at *
  have e : u.mem = t.mem := by rw [k]
  rw [h] at k
  rw [e]
  exact k
theorem Logged.wr {s t : State} (h : Logged s t) (f : Fld) (v : Nat) : Logged s (wr t f v) := h.regs (RegsWire.wr t f v)

theorem RegsWire.pending {s t : State} (h : RegsWire s t) : t.pending = s.pending := by rw [h]
theorem RegsWire.banked {s t : State} (h : RegsWire s t) : t.banked = s.banked := by rw [h]
theorem RegsWire.ctl {s t : State} (h : RegsWire s t) : t.ctl = s.ctl := by rw [h]
theorem RegsWire.mem {s t : State} (h : RegsWire s t) : t.mem = s.mem := by rw [h]
theorem RegsWire.pwr {s t : State} (h : RegsWire s t) : t.pwr = s.pwr := by rw [h]
theorem RegsWire.stalled {s t : State} (h : RegsWire s t) : t.stalled = s.stalled := by rw [h]
theorem RegsWire.mfault {s t : State} (h : RegsWire s t) : t.mfault = s.mfault := by rw [h]
theorem RegsWire.standby {s t : State} (h : RegsWire s t) : t.standby = s.standby := by rw [h]
theorem RegsWire.localTest {s t : State} (h : RegsWire s t) : t.localTest = s.localTest := by rw [h]
theorem RegsWire.surge {s t : State} (h : RegsWire s t) : t.surge = s.surge := by rw [h]
theorem RegsWire.ao {s t : State} (h : RegsWire s t) : t.ao = s.ao := by rw [h]
theorem RegsWire.boot {s t : State} (h : RegsWire s t) : t.boot = s.boot := by rw [h]
theorem RegsWire.tests {s t : State} (h : RegsWire s t) : t.tests = s.tests := by rw [h]
theorem RegsWire.lockSeq {s t : State} (h : RegsWire s t) : t.lockSeq = s.lockSeq := by rw [h]
theorem RegsWire.cist {s t : State} (h : RegsWire s t) : t.cist = s.cist := by rw [h]
theorem RegsWire.casPend {s t : State} (h : RegsWire s t) : t.casPend = s.casPend := by rw [h]
theorem RegsWire.snapRun {s t : State} (h : RegsWire s t) : t.snapRun = s.snapRun := by rw [h]
theorem RegsWire.snapLatch {s t : State} (h : RegsWire s t) : t.snapLatch = s.snapLatch := by rw [h]
theorem RegsWire.dma {s t : State} (h : RegsWire s t) : t.dma = s.dma := by rw [h]
theorem RegsWire.time {s t : State} (h : RegsWire s t) : t.time = s.time := by rw [h]
theorem RegsWire.field {s t : State} (h : RegsWire s t) : t.field = s.field := by rw [h]
theorem RegsWire.safe {s t : State} (h : RegsWire s t) : t.safe = s.safe := by rw [h]
theorem RegsWire.pair {s t : State} (h : RegsWire s t) : t.pair = s.pair := by rw [h]
theorem RegsWire.bridge {s t : State} (h : RegsWire s t) : t.bridge = s.bridge := by rw [h]
theorem RegsWire.sched {s t : State} (h : RegsWire s t) : t.sched = s.sched := by rw [h]
theorem RegsWire.engs {s t : State} (h : RegsWire s t) : t.engs = s.engs := by rw [h]
theorem RegsWire.axes {s t : State} (h : RegsWire s t) : t.axes = s.axes := by rw [h]
theorem RegsWire.mots {s t : State} (h : RegsWire s t) : t.mots = s.mots := by rw [h]
theorem RegsWire.motRec {s t : State} (h : RegsWire s t) : t.motRec = s.motRec := by rw [h]
theorem RegsWire.camPend {s t : State} (h : RegsWire s t) : t.camPend = s.camPend := by rw [h]
theorem RegsWire.stops {s t : State} (h : RegsWire s t) : t.stops = s.stops := by rw [h]
theorem RegsWire.commit {s t : State} (h : RegsWire s t) : t.commit = s.commit := by rw [h]
theorem RegsWire.lemac {s t : State} (h : RegsWire s t) : t.lemac = s.lemac := by rw [h]
theorem RegsWire.safeA {s t : State} (h : RegsWire s t) : t.safeA = s.safeA := by rw [h]
theorem RegsWire.safeB {s t : State} (h : RegsWire s t) : t.safeB = s.safeB := by rw [h]
theorem RegsWire.plants {s t : State} (h : RegsWire s t) : t.plants = s.plants := by rw [h]
theorem RegsWire.tts {s t : State} (h : RegsWire s t) : t.tts = s.tts := by rw [h]
theorem RegsWire.capts {s t : State} (h : RegsWire s t) : t.capts = s.capts := by rw [h]
theorem RegsWire.encs {s t : State} (h : RegsWire s t) : t.encs = s.encs := by rw [h]
theorem RegsWire.emus {s t : State} (h : RegsWire s t) : t.emus = s.emus := by rw [h]
theorem RegsWire.acq {s t : State} (h : RegsWire s t) : t.acq = s.acq := by rw [h]
theorem RegsWire.cans {s t : State} (h : RegsWire s t) : t.cans = s.cans := by rw [h]
theorem RegsWire.eyes {s t : State} (h : RegsWire s t) : t.eyes = s.eyes := by rw [h]
theorem RegsWire.resp {s t : State} (h : RegsWire s t) : t.resp = s.resp := by rw [h]
theorem RegsWire.freeIdx {s t : State} (h : RegsWire s t) : t.freeIdx = s.freeIdx := by rw [h]

@[simp] theorem wrw_pending (s : State) (k v : Nat) : (wrw s k v).pending = s.pending := rfl
@[simp] theorem wrw_banked (s : State) (k v : Nat) : (wrw s k v).banked = s.banked := rfl
@[simp] theorem wrw_ctl (s : State) (k v : Nat) : (wrw s k v).ctl = s.ctl := rfl
@[simp] theorem wrw_mem (s : State) (k v : Nat) : (wrw s k v).mem = s.mem := rfl
@[simp] theorem wrw_pwr (s : State) (k v : Nat) : (wrw s k v).pwr = s.pwr := rfl
@[simp] theorem wrw_stalled (s : State) (k v : Nat) : (wrw s k v).stalled = s.stalled := rfl
@[simp] theorem wrw_mfault (s : State) (k v : Nat) : (wrw s k v).mfault = s.mfault := rfl
@[simp] theorem wrw_standby (s : State) (k v : Nat) : (wrw s k v).standby = s.standby := rfl
@[simp] theorem wrw_localTest (s : State) (k v : Nat) : (wrw s k v).localTest = s.localTest := rfl
@[simp] theorem wrw_surge (s : State) (k v : Nat) : (wrw s k v).surge = s.surge := rfl
@[simp] theorem wrw_ao (s : State) (k v : Nat) : (wrw s k v).ao = s.ao := rfl
@[simp] theorem wrw_boot (s : State) (k v : Nat) : (wrw s k v).boot = s.boot := rfl
@[simp] theorem wrw_tests (s : State) (k v : Nat) : (wrw s k v).tests = s.tests := rfl
@[simp] theorem wrw_lockSeq (s : State) (k v : Nat) : (wrw s k v).lockSeq = s.lockSeq := rfl
@[simp] theorem wrw_cist (s : State) (k v : Nat) : (wrw s k v).cist = s.cist := rfl
@[simp] theorem wrw_casPend (s : State) (k v : Nat) : (wrw s k v).casPend = s.casPend := rfl
@[simp] theorem wrw_snapRun (s : State) (k v : Nat) : (wrw s k v).snapRun = s.snapRun := rfl
@[simp] theorem wrw_snapLatch (s : State) (k v : Nat) : (wrw s k v).snapLatch = s.snapLatch := rfl
@[simp] theorem wrw_dma (s : State) (k v : Nat) : (wrw s k v).dma = s.dma := rfl
@[simp] theorem wrw_time (s : State) (k v : Nat) : (wrw s k v).time = s.time := rfl
@[simp] theorem wrw_field (s : State) (k v : Nat) : (wrw s k v).field = s.field := rfl
@[simp] theorem wrw_safe (s : State) (k v : Nat) : (wrw s k v).safe = s.safe := rfl
@[simp] theorem wrw_pair (s : State) (k v : Nat) : (wrw s k v).pair = s.pair := rfl
@[simp] theorem wrw_bridge (s : State) (k v : Nat) : (wrw s k v).bridge = s.bridge := rfl
@[simp] theorem wrw_sched (s : State) (k v : Nat) : (wrw s k v).sched = s.sched := rfl
@[simp] theorem wrw_engs (s : State) (k v : Nat) : (wrw s k v).engs = s.engs := rfl
@[simp] theorem wrw_axes (s : State) (k v : Nat) : (wrw s k v).axes = s.axes := rfl
@[simp] theorem wrw_mots (s : State) (k v : Nat) : (wrw s k v).mots = s.mots := rfl
@[simp] theorem wrw_motRec (s : State) (k v : Nat) : (wrw s k v).motRec = s.motRec := rfl
@[simp] theorem wrw_camPend (s : State) (k v : Nat) : (wrw s k v).camPend = s.camPend := rfl
@[simp] theorem wrw_stops (s : State) (k v : Nat) : (wrw s k v).stops = s.stops := rfl
@[simp] theorem wrw_commit (s : State) (k v : Nat) : (wrw s k v).commit = s.commit := rfl
@[simp] theorem wrw_lemac (s : State) (k v : Nat) : (wrw s k v).lemac = s.lemac := rfl
@[simp] theorem wrw_safeA (s : State) (k v : Nat) : (wrw s k v).safeA = s.safeA := rfl
@[simp] theorem wrw_safeB (s : State) (k v : Nat) : (wrw s k v).safeB = s.safeB := rfl
@[simp] theorem wrw_plants (s : State) (k v : Nat) : (wrw s k v).plants = s.plants := rfl
@[simp] theorem wrw_tts (s : State) (k v : Nat) : (wrw s k v).tts = s.tts := rfl
@[simp] theorem wrw_capts (s : State) (k v : Nat) : (wrw s k v).capts = s.capts := rfl
@[simp] theorem wrw_encs (s : State) (k v : Nat) : (wrw s k v).encs = s.encs := rfl
@[simp] theorem wrw_emus (s : State) (k v : Nat) : (wrw s k v).emus = s.emus := rfl
@[simp] theorem wrw_acq (s : State) (k v : Nat) : (wrw s k v).acq = s.acq := rfl
@[simp] theorem wrw_cans (s : State) (k v : Nat) : (wrw s k v).cans = s.cans := rfl
@[simp] theorem wrw_eyes (s : State) (k v : Nat) : (wrw s k v).eyes = s.eyes := rfl
@[simp] theorem wrw_wire (s : State) (k v : Nat) : (wrw s k v).wire = s.wire := rfl
@[simp] theorem wrw_resp (s : State) (k v : Nat) : (wrw s k v).resp = s.resp := rfl
@[simp] theorem wrw_freeIdx (s : State) (k v : Nat) : (wrw s k v).freeIdx = s.freeIdx := rfl

@[simp] theorem wr_pending (s : State) (f : Fld) (v : Nat) : (wr s f v).pending = s.pending := rfl
@[simp] theorem wr_banked (s : State) (f : Fld) (v : Nat) : (wr s f v).banked = s.banked := rfl
@[simp] theorem wr_ctl (s : State) (f : Fld) (v : Nat) : (wr s f v).ctl = s.ctl := rfl
@[simp] theorem wr_mem (s : State) (f : Fld) (v : Nat) : (wr s f v).mem = s.mem := rfl
@[simp] theorem wr_pwr (s : State) (f : Fld) (v : Nat) : (wr s f v).pwr = s.pwr := rfl
@[simp] theorem wr_stalled (s : State) (f : Fld) (v : Nat) : (wr s f v).stalled = s.stalled := rfl
@[simp] theorem wr_mfault (s : State) (f : Fld) (v : Nat) : (wr s f v).mfault = s.mfault := rfl
@[simp] theorem wr_standby (s : State) (f : Fld) (v : Nat) : (wr s f v).standby = s.standby := rfl
@[simp] theorem wr_localTest (s : State) (f : Fld) (v : Nat) : (wr s f v).localTest = s.localTest := rfl
@[simp] theorem wr_surge (s : State) (f : Fld) (v : Nat) : (wr s f v).surge = s.surge := rfl
@[simp] theorem wr_ao (s : State) (f : Fld) (v : Nat) : (wr s f v).ao = s.ao := rfl
@[simp] theorem wr_boot (s : State) (f : Fld) (v : Nat) : (wr s f v).boot = s.boot := rfl
@[simp] theorem wr_tests (s : State) (f : Fld) (v : Nat) : (wr s f v).tests = s.tests := rfl
@[simp] theorem wr_lockSeq (s : State) (f : Fld) (v : Nat) : (wr s f v).lockSeq = s.lockSeq := rfl
@[simp] theorem wr_cist (s : State) (f : Fld) (v : Nat) : (wr s f v).cist = s.cist := rfl
@[simp] theorem wr_casPend (s : State) (f : Fld) (v : Nat) : (wr s f v).casPend = s.casPend := rfl
@[simp] theorem wr_snapRun (s : State) (f : Fld) (v : Nat) : (wr s f v).snapRun = s.snapRun := rfl
@[simp] theorem wr_snapLatch (s : State) (f : Fld) (v : Nat) : (wr s f v).snapLatch = s.snapLatch := rfl
@[simp] theorem wr_dma (s : State) (f : Fld) (v : Nat) : (wr s f v).dma = s.dma := rfl
@[simp] theorem wr_time (s : State) (f : Fld) (v : Nat) : (wr s f v).time = s.time := rfl
@[simp] theorem wr_field (s : State) (f : Fld) (v : Nat) : (wr s f v).field = s.field := rfl
@[simp] theorem wr_safe (s : State) (f : Fld) (v : Nat) : (wr s f v).safe = s.safe := rfl
@[simp] theorem wr_pair (s : State) (f : Fld) (v : Nat) : (wr s f v).pair = s.pair := rfl
@[simp] theorem wr_bridge (s : State) (f : Fld) (v : Nat) : (wr s f v).bridge = s.bridge := rfl
@[simp] theorem wr_sched (s : State) (f : Fld) (v : Nat) : (wr s f v).sched = s.sched := rfl
@[simp] theorem wr_engs (s : State) (f : Fld) (v : Nat) : (wr s f v).engs = s.engs := rfl
@[simp] theorem wr_axes (s : State) (f : Fld) (v : Nat) : (wr s f v).axes = s.axes := rfl
@[simp] theorem wr_mots (s : State) (f : Fld) (v : Nat) : (wr s f v).mots = s.mots := rfl
@[simp] theorem wr_motRec (s : State) (f : Fld) (v : Nat) : (wr s f v).motRec = s.motRec := rfl
@[simp] theorem wr_camPend (s : State) (f : Fld) (v : Nat) : (wr s f v).camPend = s.camPend := rfl
@[simp] theorem wr_stops (s : State) (f : Fld) (v : Nat) : (wr s f v).stops = s.stops := rfl
@[simp] theorem wr_commit (s : State) (f : Fld) (v : Nat) : (wr s f v).commit = s.commit := rfl
@[simp] theorem wr_lemac (s : State) (f : Fld) (v : Nat) : (wr s f v).lemac = s.lemac := rfl
@[simp] theorem wr_safeA (s : State) (f : Fld) (v : Nat) : (wr s f v).safeA = s.safeA := rfl
@[simp] theorem wr_safeB (s : State) (f : Fld) (v : Nat) : (wr s f v).safeB = s.safeB := rfl
@[simp] theorem wr_plants (s : State) (f : Fld) (v : Nat) : (wr s f v).plants = s.plants := rfl
@[simp] theorem wr_tts (s : State) (f : Fld) (v : Nat) : (wr s f v).tts = s.tts := rfl
@[simp] theorem wr_capts (s : State) (f : Fld) (v : Nat) : (wr s f v).capts = s.capts := rfl
@[simp] theorem wr_encs (s : State) (f : Fld) (v : Nat) : (wr s f v).encs = s.encs := rfl
@[simp] theorem wr_emus (s : State) (f : Fld) (v : Nat) : (wr s f v).emus = s.emus := rfl
@[simp] theorem wr_acq (s : State) (f : Fld) (v : Nat) : (wr s f v).acq = s.acq := rfl
@[simp] theorem wr_cans (s : State) (f : Fld) (v : Nat) : (wr s f v).cans = s.cans := rfl
@[simp] theorem wr_eyes (s : State) (f : Fld) (v : Nat) : (wr s f v).eyes = s.eyes := rfl
@[simp] theorem wr_wire (s : State) (f : Fld) (v : Nat) : (wr s f v).wire = s.wire := rfl
@[simp] theorem wr_resp (s : State) (f : Fld) (v : Nat) : (wr s f v).resp = s.resp := rfl
@[simp] theorem wr_freeIdx (s : State) (f : Fld) (v : Nat) : (wr s f v).freeIdx = s.freeIdx := rfl

@[simp] theorem wr64_pending (s : State) (lo hi : Fld) (v : Nat) : (wr64 s lo hi v).pending = s.pending := rfl
@[simp] theorem wr64_banked (s : State) (lo hi : Fld) (v : Nat) : (wr64 s lo hi v).banked = s.banked := rfl
@[simp] theorem wr64_ctl (s : State) (lo hi : Fld) (v : Nat) : (wr64 s lo hi v).ctl = s.ctl := rfl
@[simp] theorem wr64_mem (s : State) (lo hi : Fld) (v : Nat) : (wr64 s lo hi v).mem = s.mem := rfl
@[simp] theorem wr64_pwr (s : State) (lo hi : Fld) (v : Nat) : (wr64 s lo hi v).pwr = s.pwr := rfl
@[simp] theorem wr64_stalled (s : State) (lo hi : Fld) (v : Nat) : (wr64 s lo hi v).stalled = s.stalled := rfl
@[simp] theorem wr64_mfault (s : State) (lo hi : Fld) (v : Nat) : (wr64 s lo hi v).mfault = s.mfault := rfl
@[simp] theorem wr64_standby (s : State) (lo hi : Fld) (v : Nat) : (wr64 s lo hi v).standby = s.standby := rfl
@[simp] theorem wr64_localTest (s : State) (lo hi : Fld) (v : Nat) : (wr64 s lo hi v).localTest = s.localTest := rfl
@[simp] theorem wr64_surge (s : State) (lo hi : Fld) (v : Nat) : (wr64 s lo hi v).surge = s.surge := rfl
@[simp] theorem wr64_ao (s : State) (lo hi : Fld) (v : Nat) : (wr64 s lo hi v).ao = s.ao := rfl
@[simp] theorem wr64_boot (s : State) (lo hi : Fld) (v : Nat) : (wr64 s lo hi v).boot = s.boot := rfl
@[simp] theorem wr64_tests (s : State) (lo hi : Fld) (v : Nat) : (wr64 s lo hi v).tests = s.tests := rfl
@[simp] theorem wr64_lockSeq (s : State) (lo hi : Fld) (v : Nat) : (wr64 s lo hi v).lockSeq = s.lockSeq := rfl
@[simp] theorem wr64_cist (s : State) (lo hi : Fld) (v : Nat) : (wr64 s lo hi v).cist = s.cist := rfl
@[simp] theorem wr64_casPend (s : State) (lo hi : Fld) (v : Nat) : (wr64 s lo hi v).casPend = s.casPend := rfl
@[simp] theorem wr64_snapRun (s : State) (lo hi : Fld) (v : Nat) : (wr64 s lo hi v).snapRun = s.snapRun := rfl
@[simp] theorem wr64_snapLatch (s : State) (lo hi : Fld) (v : Nat) : (wr64 s lo hi v).snapLatch = s.snapLatch := rfl
@[simp] theorem wr64_dma (s : State) (lo hi : Fld) (v : Nat) : (wr64 s lo hi v).dma = s.dma := rfl
@[simp] theorem wr64_time (s : State) (lo hi : Fld) (v : Nat) : (wr64 s lo hi v).time = s.time := rfl
@[simp] theorem wr64_field (s : State) (lo hi : Fld) (v : Nat) : (wr64 s lo hi v).field = s.field := rfl
@[simp] theorem wr64_safe (s : State) (lo hi : Fld) (v : Nat) : (wr64 s lo hi v).safe = s.safe := rfl
@[simp] theorem wr64_pair (s : State) (lo hi : Fld) (v : Nat) : (wr64 s lo hi v).pair = s.pair := rfl
@[simp] theorem wr64_bridge (s : State) (lo hi : Fld) (v : Nat) : (wr64 s lo hi v).bridge = s.bridge := rfl
@[simp] theorem wr64_sched (s : State) (lo hi : Fld) (v : Nat) : (wr64 s lo hi v).sched = s.sched := rfl
@[simp] theorem wr64_engs (s : State) (lo hi : Fld) (v : Nat) : (wr64 s lo hi v).engs = s.engs := rfl
@[simp] theorem wr64_axes (s : State) (lo hi : Fld) (v : Nat) : (wr64 s lo hi v).axes = s.axes := rfl
@[simp] theorem wr64_mots (s : State) (lo hi : Fld) (v : Nat) : (wr64 s lo hi v).mots = s.mots := rfl
@[simp] theorem wr64_motRec (s : State) (lo hi : Fld) (v : Nat) : (wr64 s lo hi v).motRec = s.motRec := rfl
@[simp] theorem wr64_camPend (s : State) (lo hi : Fld) (v : Nat) : (wr64 s lo hi v).camPend = s.camPend := rfl
@[simp] theorem wr64_stops (s : State) (lo hi : Fld) (v : Nat) : (wr64 s lo hi v).stops = s.stops := rfl
@[simp] theorem wr64_commit (s : State) (lo hi : Fld) (v : Nat) : (wr64 s lo hi v).commit = s.commit := rfl
@[simp] theorem wr64_lemac (s : State) (lo hi : Fld) (v : Nat) : (wr64 s lo hi v).lemac = s.lemac := rfl
@[simp] theorem wr64_safeA (s : State) (lo hi : Fld) (v : Nat) : (wr64 s lo hi v).safeA = s.safeA := rfl
@[simp] theorem wr64_safeB (s : State) (lo hi : Fld) (v : Nat) : (wr64 s lo hi v).safeB = s.safeB := rfl
@[simp] theorem wr64_plants (s : State) (lo hi : Fld) (v : Nat) : (wr64 s lo hi v).plants = s.plants := rfl
@[simp] theorem wr64_tts (s : State) (lo hi : Fld) (v : Nat) : (wr64 s lo hi v).tts = s.tts := rfl
@[simp] theorem wr64_capts (s : State) (lo hi : Fld) (v : Nat) : (wr64 s lo hi v).capts = s.capts := rfl
@[simp] theorem wr64_encs (s : State) (lo hi : Fld) (v : Nat) : (wr64 s lo hi v).encs = s.encs := rfl
@[simp] theorem wr64_emus (s : State) (lo hi : Fld) (v : Nat) : (wr64 s lo hi v).emus = s.emus := rfl
@[simp] theorem wr64_acq (s : State) (lo hi : Fld) (v : Nat) : (wr64 s lo hi v).acq = s.acq := rfl
@[simp] theorem wr64_cans (s : State) (lo hi : Fld) (v : Nat) : (wr64 s lo hi v).cans = s.cans := rfl
@[simp] theorem wr64_eyes (s : State) (lo hi : Fld) (v : Nat) : (wr64 s lo hi v).eyes = s.eyes := rfl
@[simp] theorem wr64_wire (s : State) (lo hi : Fld) (v : Nat) : (wr64 s lo hi v).wire = s.wire := rfl
@[simp] theorem wr64_resp (s : State) (lo hi : Fld) (v : Nat) : (wr64 s lo hi v).resp = s.resp := rfl
@[simp] theorem wr64_freeIdx (s : State) (lo hi : Fld) (v : Nat) : (wr64 s lo hi v).freeIdx = s.freeIdx := rfl

@[simp] theorem bput_pending (s : State) (m : Master) (k v : Nat) : (bput s m k v).pending = s.pending := rfl
@[simp] theorem bput_regs (s : State) (m : Master) (k v : Nat) : (bput s m k v).regs = s.regs := rfl
@[simp] theorem bput_ctl (s : State) (m : Master) (k v : Nat) : (bput s m k v).ctl = s.ctl := rfl
@[simp] theorem bput_mem (s : State) (m : Master) (k v : Nat) : (bput s m k v).mem = s.mem := rfl
@[simp] theorem bput_pwr (s : State) (m : Master) (k v : Nat) : (bput s m k v).pwr = s.pwr := rfl
@[simp] theorem bput_stalled (s : State) (m : Master) (k v : Nat) : (bput s m k v).stalled = s.stalled := rfl
@[simp] theorem bput_mfault (s : State) (m : Master) (k v : Nat) : (bput s m k v).mfault = s.mfault := rfl
@[simp] theorem bput_standby (s : State) (m : Master) (k v : Nat) : (bput s m k v).standby = s.standby := rfl
@[simp] theorem bput_localTest (s : State) (m : Master) (k v : Nat) : (bput s m k v).localTest = s.localTest := rfl
@[simp] theorem bput_surge (s : State) (m : Master) (k v : Nat) : (bput s m k v).surge = s.surge := rfl
@[simp] theorem bput_ao (s : State) (m : Master) (k v : Nat) : (bput s m k v).ao = s.ao := rfl
@[simp] theorem bput_boot (s : State) (m : Master) (k v : Nat) : (bput s m k v).boot = s.boot := rfl
@[simp] theorem bput_tests (s : State) (m : Master) (k v : Nat) : (bput s m k v).tests = s.tests := rfl
@[simp] theorem bput_lockSeq (s : State) (m : Master) (k v : Nat) : (bput s m k v).lockSeq = s.lockSeq := rfl
@[simp] theorem bput_cist (s : State) (m : Master) (k v : Nat) : (bput s m k v).cist = s.cist := rfl
@[simp] theorem bput_casPend (s : State) (m : Master) (k v : Nat) : (bput s m k v).casPend = s.casPend := rfl
@[simp] theorem bput_snapRun (s : State) (m : Master) (k v : Nat) : (bput s m k v).snapRun = s.snapRun := rfl
@[simp] theorem bput_snapLatch (s : State) (m : Master) (k v : Nat) : (bput s m k v).snapLatch = s.snapLatch := rfl
@[simp] theorem bput_dma (s : State) (m : Master) (k v : Nat) : (bput s m k v).dma = s.dma := rfl
@[simp] theorem bput_time (s : State) (m : Master) (k v : Nat) : (bput s m k v).time = s.time := rfl
@[simp] theorem bput_field (s : State) (m : Master) (k v : Nat) : (bput s m k v).field = s.field := rfl
@[simp] theorem bput_safe (s : State) (m : Master) (k v : Nat) : (bput s m k v).safe = s.safe := rfl
@[simp] theorem bput_pair (s : State) (m : Master) (k v : Nat) : (bput s m k v).pair = s.pair := rfl
@[simp] theorem bput_bridge (s : State) (m : Master) (k v : Nat) : (bput s m k v).bridge = s.bridge := rfl
@[simp] theorem bput_sched (s : State) (m : Master) (k v : Nat) : (bput s m k v).sched = s.sched := rfl
@[simp] theorem bput_engs (s : State) (m : Master) (k v : Nat) : (bput s m k v).engs = s.engs := rfl
@[simp] theorem bput_axes (s : State) (m : Master) (k v : Nat) : (bput s m k v).axes = s.axes := rfl
@[simp] theorem bput_mots (s : State) (m : Master) (k v : Nat) : (bput s m k v).mots = s.mots := rfl
@[simp] theorem bput_motRec (s : State) (m : Master) (k v : Nat) : (bput s m k v).motRec = s.motRec := rfl
@[simp] theorem bput_camPend (s : State) (m : Master) (k v : Nat) : (bput s m k v).camPend = s.camPend := rfl
@[simp] theorem bput_stops (s : State) (m : Master) (k v : Nat) : (bput s m k v).stops = s.stops := rfl
@[simp] theorem bput_commit (s : State) (m : Master) (k v : Nat) : (bput s m k v).commit = s.commit := rfl
@[simp] theorem bput_lemac (s : State) (m : Master) (k v : Nat) : (bput s m k v).lemac = s.lemac := rfl
@[simp] theorem bput_safeA (s : State) (m : Master) (k v : Nat) : (bput s m k v).safeA = s.safeA := rfl
@[simp] theorem bput_safeB (s : State) (m : Master) (k v : Nat) : (bput s m k v).safeB = s.safeB := rfl
@[simp] theorem bput_plants (s : State) (m : Master) (k v : Nat) : (bput s m k v).plants = s.plants := rfl
@[simp] theorem bput_tts (s : State) (m : Master) (k v : Nat) : (bput s m k v).tts = s.tts := rfl
@[simp] theorem bput_capts (s : State) (m : Master) (k v : Nat) : (bput s m k v).capts = s.capts := rfl
@[simp] theorem bput_encs (s : State) (m : Master) (k v : Nat) : (bput s m k v).encs = s.encs := rfl
@[simp] theorem bput_emus (s : State) (m : Master) (k v : Nat) : (bput s m k v).emus = s.emus := rfl
@[simp] theorem bput_acq (s : State) (m : Master) (k v : Nat) : (bput s m k v).acq = s.acq := rfl
@[simp] theorem bput_cans (s : State) (m : Master) (k v : Nat) : (bput s m k v).cans = s.cans := rfl
@[simp] theorem bput_eyes (s : State) (m : Master) (k v : Nat) : (bput s m k v).eyes = s.eyes := rfl
@[simp] theorem bput_wire (s : State) (m : Master) (k v : Nat) : (bput s m k v).wire = s.wire := rfl
@[simp] theorem bput_resp (s : State) (m : Master) (k v : Nat) : (bput s m k v).resp = s.resp := rfl
@[simp] theorem bput_freeIdx (s : State) (m : Master) (k v : Nat) : (bput s m k v).freeIdx = s.freeIdx := rfl

@[simp] theorem answer_pending (s : State) (v : Nat) : (answer s v).pending = s.pending := rfl
@[simp] theorem answer_regs (s : State) (v : Nat) : (answer s v).regs = s.regs := rfl
@[simp] theorem answer_banked (s : State) (v : Nat) : (answer s v).banked = s.banked := rfl
@[simp] theorem answer_ctl (s : State) (v : Nat) : (answer s v).ctl = s.ctl := rfl
@[simp] theorem answer_mem (s : State) (v : Nat) : (answer s v).mem = s.mem := rfl
@[simp] theorem answer_pwr (s : State) (v : Nat) : (answer s v).pwr = s.pwr := rfl
@[simp] theorem answer_stalled (s : State) (v : Nat) : (answer s v).stalled = s.stalled := rfl
@[simp] theorem answer_mfault (s : State) (v : Nat) : (answer s v).mfault = s.mfault := rfl
@[simp] theorem answer_standby (s : State) (v : Nat) : (answer s v).standby = s.standby := rfl
@[simp] theorem answer_localTest (s : State) (v : Nat) : (answer s v).localTest = s.localTest := rfl
@[simp] theorem answer_surge (s : State) (v : Nat) : (answer s v).surge = s.surge := rfl
@[simp] theorem answer_ao (s : State) (v : Nat) : (answer s v).ao = s.ao := rfl
@[simp] theorem answer_boot (s : State) (v : Nat) : (answer s v).boot = s.boot := rfl
@[simp] theorem answer_tests (s : State) (v : Nat) : (answer s v).tests = s.tests := rfl
@[simp] theorem answer_lockSeq (s : State) (v : Nat) : (answer s v).lockSeq = s.lockSeq := rfl
@[simp] theorem answer_cist (s : State) (v : Nat) : (answer s v).cist = s.cist := rfl
@[simp] theorem answer_casPend (s : State) (v : Nat) : (answer s v).casPend = s.casPend := rfl
@[simp] theorem answer_snapRun (s : State) (v : Nat) : (answer s v).snapRun = s.snapRun := rfl
@[simp] theorem answer_snapLatch (s : State) (v : Nat) : (answer s v).snapLatch = s.snapLatch := rfl
@[simp] theorem answer_dma (s : State) (v : Nat) : (answer s v).dma = s.dma := rfl
@[simp] theorem answer_time (s : State) (v : Nat) : (answer s v).time = s.time := rfl
@[simp] theorem answer_field (s : State) (v : Nat) : (answer s v).field = s.field := rfl
@[simp] theorem answer_safe (s : State) (v : Nat) : (answer s v).safe = s.safe := rfl
@[simp] theorem answer_pair (s : State) (v : Nat) : (answer s v).pair = s.pair := rfl
@[simp] theorem answer_bridge (s : State) (v : Nat) : (answer s v).bridge = s.bridge := rfl
@[simp] theorem answer_sched (s : State) (v : Nat) : (answer s v).sched = s.sched := rfl
@[simp] theorem answer_engs (s : State) (v : Nat) : (answer s v).engs = s.engs := rfl
@[simp] theorem answer_axes (s : State) (v : Nat) : (answer s v).axes = s.axes := rfl
@[simp] theorem answer_mots (s : State) (v : Nat) : (answer s v).mots = s.mots := rfl
@[simp] theorem answer_motRec (s : State) (v : Nat) : (answer s v).motRec = s.motRec := rfl
@[simp] theorem answer_camPend (s : State) (v : Nat) : (answer s v).camPend = s.camPend := rfl
@[simp] theorem answer_stops (s : State) (v : Nat) : (answer s v).stops = s.stops := rfl
@[simp] theorem answer_commit (s : State) (v : Nat) : (answer s v).commit = s.commit := rfl
@[simp] theorem answer_lemac (s : State) (v : Nat) : (answer s v).lemac = s.lemac := rfl
@[simp] theorem answer_safeA (s : State) (v : Nat) : (answer s v).safeA = s.safeA := rfl
@[simp] theorem answer_safeB (s : State) (v : Nat) : (answer s v).safeB = s.safeB := rfl
@[simp] theorem answer_plants (s : State) (v : Nat) : (answer s v).plants = s.plants := rfl
@[simp] theorem answer_tts (s : State) (v : Nat) : (answer s v).tts = s.tts := rfl
@[simp] theorem answer_capts (s : State) (v : Nat) : (answer s v).capts = s.capts := rfl
@[simp] theorem answer_encs (s : State) (v : Nat) : (answer s v).encs = s.encs := rfl
@[simp] theorem answer_emus (s : State) (v : Nat) : (answer s v).emus = s.emus := rfl
@[simp] theorem answer_acq (s : State) (v : Nat) : (answer s v).acq = s.acq := rfl
@[simp] theorem answer_cans (s : State) (v : Nat) : (answer s v).cans = s.cans := rfl
@[simp] theorem answer_eyes (s : State) (v : Nat) : (answer s v).eyes = s.eyes := rfl
@[simp] theorem answer_wire (s : State) (v : Nat) : (answer s v).wire = s.wire := rfl
@[simp] theorem answer_freeIdx (s : State) (v : Nat) : (answer s v).freeIdx = s.freeIdx := rfl

@[simp] theorem emit_pending (s : State) (o : Out) : (emit s o).pending = s.pending := rfl
@[simp] theorem emit_regs (s : State) (o : Out) : (emit s o).regs = s.regs := rfl
@[simp] theorem emit_banked (s : State) (o : Out) : (emit s o).banked = s.banked := rfl
@[simp] theorem emit_ctl (s : State) (o : Out) : (emit s o).ctl = s.ctl := rfl
@[simp] theorem emit_mem (s : State) (o : Out) : (emit s o).mem = s.mem := rfl
@[simp] theorem emit_pwr (s : State) (o : Out) : (emit s o).pwr = s.pwr := rfl
@[simp] theorem emit_stalled (s : State) (o : Out) : (emit s o).stalled = s.stalled := rfl
@[simp] theorem emit_mfault (s : State) (o : Out) : (emit s o).mfault = s.mfault := rfl
@[simp] theorem emit_standby (s : State) (o : Out) : (emit s o).standby = s.standby := rfl
@[simp] theorem emit_localTest (s : State) (o : Out) : (emit s o).localTest = s.localTest := rfl
@[simp] theorem emit_surge (s : State) (o : Out) : (emit s o).surge = s.surge := rfl
@[simp] theorem emit_ao (s : State) (o : Out) : (emit s o).ao = s.ao := rfl
@[simp] theorem emit_boot (s : State) (o : Out) : (emit s o).boot = s.boot := rfl
@[simp] theorem emit_tests (s : State) (o : Out) : (emit s o).tests = s.tests := rfl
@[simp] theorem emit_lockSeq (s : State) (o : Out) : (emit s o).lockSeq = s.lockSeq := rfl
@[simp] theorem emit_cist (s : State) (o : Out) : (emit s o).cist = s.cist := rfl
@[simp] theorem emit_casPend (s : State) (o : Out) : (emit s o).casPend = s.casPend := rfl
@[simp] theorem emit_snapRun (s : State) (o : Out) : (emit s o).snapRun = s.snapRun := rfl
@[simp] theorem emit_snapLatch (s : State) (o : Out) : (emit s o).snapLatch = s.snapLatch := rfl
@[simp] theorem emit_dma (s : State) (o : Out) : (emit s o).dma = s.dma := rfl
@[simp] theorem emit_time (s : State) (o : Out) : (emit s o).time = s.time := rfl
@[simp] theorem emit_field (s : State) (o : Out) : (emit s o).field = s.field := rfl
@[simp] theorem emit_safe (s : State) (o : Out) : (emit s o).safe = s.safe := rfl
@[simp] theorem emit_pair (s : State) (o : Out) : (emit s o).pair = s.pair := rfl
@[simp] theorem emit_bridge (s : State) (o : Out) : (emit s o).bridge = s.bridge := rfl
@[simp] theorem emit_sched (s : State) (o : Out) : (emit s o).sched = s.sched := rfl
@[simp] theorem emit_engs (s : State) (o : Out) : (emit s o).engs = s.engs := rfl
@[simp] theorem emit_axes (s : State) (o : Out) : (emit s o).axes = s.axes := rfl
@[simp] theorem emit_mots (s : State) (o : Out) : (emit s o).mots = s.mots := rfl
@[simp] theorem emit_motRec (s : State) (o : Out) : (emit s o).motRec = s.motRec := rfl
@[simp] theorem emit_camPend (s : State) (o : Out) : (emit s o).camPend = s.camPend := rfl
@[simp] theorem emit_stops (s : State) (o : Out) : (emit s o).stops = s.stops := rfl
@[simp] theorem emit_commit (s : State) (o : Out) : (emit s o).commit = s.commit := rfl
@[simp] theorem emit_lemac (s : State) (o : Out) : (emit s o).lemac = s.lemac := rfl
@[simp] theorem emit_safeA (s : State) (o : Out) : (emit s o).safeA = s.safeA := rfl
@[simp] theorem emit_safeB (s : State) (o : Out) : (emit s o).safeB = s.safeB := rfl
@[simp] theorem emit_plants (s : State) (o : Out) : (emit s o).plants = s.plants := rfl
@[simp] theorem emit_tts (s : State) (o : Out) : (emit s o).tts = s.tts := rfl
@[simp] theorem emit_capts (s : State) (o : Out) : (emit s o).capts = s.capts := rfl
@[simp] theorem emit_encs (s : State) (o : Out) : (emit s o).encs = s.encs := rfl
@[simp] theorem emit_emus (s : State) (o : Out) : (emit s o).emus = s.emus := rfl
@[simp] theorem emit_acq (s : State) (o : Out) : (emit s o).acq = s.acq := rfl
@[simp] theorem emit_cans (s : State) (o : Out) : (emit s o).cans = s.cans := rfl
@[simp] theorem emit_eyes (s : State) (o : Out) : (emit s o).eyes = s.eyes := rfl
@[simp] theorem emit_resp (s : State) (o : Out) : (emit s o).resp = s.resp := rfl
@[simp] theorem emit_freeIdx (s : State) (o : Out) : (emit s o).freeIdx = s.freeIdx := rfl

@[simp] theorem setDom_pending (s : State) (d : Nat) (v : DomSt) : (setDom s d v).pending = s.pending := rfl
@[simp] theorem setDom_regs (s : State) (d : Nat) (v : DomSt) : (setDom s d v).regs = s.regs := rfl
@[simp] theorem setDom_banked (s : State) (d : Nat) (v : DomSt) : (setDom s d v).banked = s.banked := rfl
@[simp] theorem setDom_ctl (s : State) (d : Nat) (v : DomSt) : (setDom s d v).ctl = s.ctl := rfl
@[simp] theorem setDom_mem (s : State) (d : Nat) (v : DomSt) : (setDom s d v).mem = s.mem := rfl
@[simp] theorem setDom_stalled (s : State) (d : Nat) (v : DomSt) : (setDom s d v).stalled = s.stalled := rfl
@[simp] theorem setDom_mfault (s : State) (d : Nat) (v : DomSt) : (setDom s d v).mfault = s.mfault := rfl
@[simp] theorem setDom_standby (s : State) (d : Nat) (v : DomSt) : (setDom s d v).standby = s.standby := rfl
@[simp] theorem setDom_localTest (s : State) (d : Nat) (v : DomSt) : (setDom s d v).localTest = s.localTest := rfl
@[simp] theorem setDom_surge (s : State) (d : Nat) (v : DomSt) : (setDom s d v).surge = s.surge := rfl
@[simp] theorem setDom_ao (s : State) (d : Nat) (v : DomSt) : (setDom s d v).ao = s.ao := rfl
@[simp] theorem setDom_boot (s : State) (d : Nat) (v : DomSt) : (setDom s d v).boot = s.boot := rfl
@[simp] theorem setDom_tests (s : State) (d : Nat) (v : DomSt) : (setDom s d v).tests = s.tests := rfl
@[simp] theorem setDom_lockSeq (s : State) (d : Nat) (v : DomSt) : (setDom s d v).lockSeq = s.lockSeq := rfl
@[simp] theorem setDom_cist (s : State) (d : Nat) (v : DomSt) : (setDom s d v).cist = s.cist := rfl
@[simp] theorem setDom_casPend (s : State) (d : Nat) (v : DomSt) : (setDom s d v).casPend = s.casPend := rfl
@[simp] theorem setDom_snapRun (s : State) (d : Nat) (v : DomSt) : (setDom s d v).snapRun = s.snapRun := rfl
@[simp] theorem setDom_snapLatch (s : State) (d : Nat) (v : DomSt) : (setDom s d v).snapLatch = s.snapLatch := rfl
@[simp] theorem setDom_dma (s : State) (d : Nat) (v : DomSt) : (setDom s d v).dma = s.dma := rfl
@[simp] theorem setDom_time (s : State) (d : Nat) (v : DomSt) : (setDom s d v).time = s.time := rfl
@[simp] theorem setDom_field (s : State) (d : Nat) (v : DomSt) : (setDom s d v).field = s.field := rfl
@[simp] theorem setDom_safe (s : State) (d : Nat) (v : DomSt) : (setDom s d v).safe = s.safe := rfl
@[simp] theorem setDom_pair (s : State) (d : Nat) (v : DomSt) : (setDom s d v).pair = s.pair := rfl
@[simp] theorem setDom_bridge (s : State) (d : Nat) (v : DomSt) : (setDom s d v).bridge = s.bridge := rfl
@[simp] theorem setDom_sched (s : State) (d : Nat) (v : DomSt) : (setDom s d v).sched = s.sched := rfl
@[simp] theorem setDom_engs (s : State) (d : Nat) (v : DomSt) : (setDom s d v).engs = s.engs := rfl
@[simp] theorem setDom_axes (s : State) (d : Nat) (v : DomSt) : (setDom s d v).axes = s.axes := rfl
@[simp] theorem setDom_mots (s : State) (d : Nat) (v : DomSt) : (setDom s d v).mots = s.mots := rfl
@[simp] theorem setDom_motRec (s : State) (d : Nat) (v : DomSt) : (setDom s d v).motRec = s.motRec := rfl
@[simp] theorem setDom_camPend (s : State) (d : Nat) (v : DomSt) : (setDom s d v).camPend = s.camPend := rfl
@[simp] theorem setDom_stops (s : State) (d : Nat) (v : DomSt) : (setDom s d v).stops = s.stops := rfl
@[simp] theorem setDom_commit (s : State) (d : Nat) (v : DomSt) : (setDom s d v).commit = s.commit := rfl
@[simp] theorem setDom_lemac (s : State) (d : Nat) (v : DomSt) : (setDom s d v).lemac = s.lemac := rfl
@[simp] theorem setDom_safeA (s : State) (d : Nat) (v : DomSt) : (setDom s d v).safeA = s.safeA := rfl
@[simp] theorem setDom_safeB (s : State) (d : Nat) (v : DomSt) : (setDom s d v).safeB = s.safeB := rfl
@[simp] theorem setDom_plants (s : State) (d : Nat) (v : DomSt) : (setDom s d v).plants = s.plants := rfl
@[simp] theorem setDom_tts (s : State) (d : Nat) (v : DomSt) : (setDom s d v).tts = s.tts := rfl
@[simp] theorem setDom_capts (s : State) (d : Nat) (v : DomSt) : (setDom s d v).capts = s.capts := rfl
@[simp] theorem setDom_encs (s : State) (d : Nat) (v : DomSt) : (setDom s d v).encs = s.encs := rfl
@[simp] theorem setDom_emus (s : State) (d : Nat) (v : DomSt) : (setDom s d v).emus = s.emus := rfl
@[simp] theorem setDom_acq (s : State) (d : Nat) (v : DomSt) : (setDom s d v).acq = s.acq := rfl
@[simp] theorem setDom_cans (s : State) (d : Nat) (v : DomSt) : (setDom s d v).cans = s.cans := rfl
@[simp] theorem setDom_eyes (s : State) (d : Nat) (v : DomSt) : (setDom s d v).eyes = s.eyes := rfl
@[simp] theorem setDom_wire (s : State) (d : Nat) (v : DomSt) : (setDom s d v).wire = s.wire := rfl
@[simp] theorem setDom_resp (s : State) (d : Nat) (v : DomSt) : (setDom s d v).resp = s.resp := rfl
@[simp] theorem setDom_freeIdx (s : State) (d : Nat) (v : DomSt) : (setDom s d v).freeIdx = s.freeIdx := rfl

@[simp] theorem mput_pending (s : State) (a : Nat) (b : Byte) : (mput s a b).pending = s.pending := rfl
@[simp] theorem mput_regs (s : State) (a : Nat) (b : Byte) : (mput s a b).regs = s.regs := rfl
@[simp] theorem mput_banked (s : State) (a : Nat) (b : Byte) : (mput s a b).banked = s.banked := rfl
@[simp] theorem mput_ctl (s : State) (a : Nat) (b : Byte) : (mput s a b).ctl = s.ctl := rfl
@[simp] theorem mput_pwr (s : State) (a : Nat) (b : Byte) : (mput s a b).pwr = s.pwr := rfl
@[simp] theorem mput_stalled (s : State) (a : Nat) (b : Byte) : (mput s a b).stalled = s.stalled := rfl
@[simp] theorem mput_mfault (s : State) (a : Nat) (b : Byte) : (mput s a b).mfault = s.mfault := rfl
@[simp] theorem mput_standby (s : State) (a : Nat) (b : Byte) : (mput s a b).standby = s.standby := rfl
@[simp] theorem mput_localTest (s : State) (a : Nat) (b : Byte) : (mput s a b).localTest = s.localTest := rfl
@[simp] theorem mput_surge (s : State) (a : Nat) (b : Byte) : (mput s a b).surge = s.surge := rfl
@[simp] theorem mput_ao (s : State) (a : Nat) (b : Byte) : (mput s a b).ao = s.ao := rfl
@[simp] theorem mput_boot (s : State) (a : Nat) (b : Byte) : (mput s a b).boot = s.boot := rfl
@[simp] theorem mput_tests (s : State) (a : Nat) (b : Byte) : (mput s a b).tests = s.tests := rfl
@[simp] theorem mput_lockSeq (s : State) (a : Nat) (b : Byte) : (mput s a b).lockSeq = s.lockSeq := rfl
@[simp] theorem mput_cist (s : State) (a : Nat) (b : Byte) : (mput s a b).cist = s.cist := rfl
@[simp] theorem mput_casPend (s : State) (a : Nat) (b : Byte) : (mput s a b).casPend = s.casPend := rfl
@[simp] theorem mput_snapRun (s : State) (a : Nat) (b : Byte) : (mput s a b).snapRun = s.snapRun := rfl
@[simp] theorem mput_snapLatch (s : State) (a : Nat) (b : Byte) : (mput s a b).snapLatch = s.snapLatch := rfl
@[simp] theorem mput_dma (s : State) (a : Nat) (b : Byte) : (mput s a b).dma = s.dma := rfl
@[simp] theorem mput_time (s : State) (a : Nat) (b : Byte) : (mput s a b).time = s.time := rfl
@[simp] theorem mput_field (s : State) (a : Nat) (b : Byte) : (mput s a b).field = s.field := rfl
@[simp] theorem mput_safe (s : State) (a : Nat) (b : Byte) : (mput s a b).safe = s.safe := rfl
@[simp] theorem mput_pair (s : State) (a : Nat) (b : Byte) : (mput s a b).pair = s.pair := rfl
@[simp] theorem mput_bridge (s : State) (a : Nat) (b : Byte) : (mput s a b).bridge = s.bridge := rfl
@[simp] theorem mput_sched (s : State) (a : Nat) (b : Byte) : (mput s a b).sched = s.sched := rfl
@[simp] theorem mput_engs (s : State) (a : Nat) (b : Byte) : (mput s a b).engs = s.engs := rfl
@[simp] theorem mput_axes (s : State) (a : Nat) (b : Byte) : (mput s a b).axes = s.axes := rfl
@[simp] theorem mput_mots (s : State) (a : Nat) (b : Byte) : (mput s a b).mots = s.mots := rfl
@[simp] theorem mput_motRec (s : State) (a : Nat) (b : Byte) : (mput s a b).motRec = s.motRec := rfl
@[simp] theorem mput_camPend (s : State) (a : Nat) (b : Byte) : (mput s a b).camPend = s.camPend := rfl
@[simp] theorem mput_stops (s : State) (a : Nat) (b : Byte) : (mput s a b).stops = s.stops := rfl
@[simp] theorem mput_commit (s : State) (a : Nat) (b : Byte) : (mput s a b).commit = s.commit := rfl
@[simp] theorem mput_lemac (s : State) (a : Nat) (b : Byte) : (mput s a b).lemac = s.lemac := rfl
@[simp] theorem mput_safeA (s : State) (a : Nat) (b : Byte) : (mput s a b).safeA = s.safeA := rfl
@[simp] theorem mput_safeB (s : State) (a : Nat) (b : Byte) : (mput s a b).safeB = s.safeB := rfl
@[simp] theorem mput_plants (s : State) (a : Nat) (b : Byte) : (mput s a b).plants = s.plants := rfl
@[simp] theorem mput_tts (s : State) (a : Nat) (b : Byte) : (mput s a b).tts = s.tts := rfl
@[simp] theorem mput_capts (s : State) (a : Nat) (b : Byte) : (mput s a b).capts = s.capts := rfl
@[simp] theorem mput_encs (s : State) (a : Nat) (b : Byte) : (mput s a b).encs = s.encs := rfl
@[simp] theorem mput_emus (s : State) (a : Nat) (b : Byte) : (mput s a b).emus = s.emus := rfl
@[simp] theorem mput_acq (s : State) (a : Nat) (b : Byte) : (mput s a b).acq = s.acq := rfl
@[simp] theorem mput_cans (s : State) (a : Nat) (b : Byte) : (mput s a b).cans = s.cans := rfl
@[simp] theorem mput_eyes (s : State) (a : Nat) (b : Byte) : (mput s a b).eyes = s.eyes := rfl
@[simp] theorem mput_wire (s : State) (a : Nat) (b : Byte) : (mput s a b).wire = s.wire := rfl
@[simp] theorem mput_resp (s : State) (a : Nat) (b : Byte) : (mput s a b).resp = s.resp := rfl
@[simp] theorem mput_freeIdx (s : State) (a : Nat) (b : Byte) : (mput s a b).freeIdx = s.freeIdx := rfl

@[simp] theorem setStale_pending (s : State) (a : Nat) (st : Bool) : (setStale s a st).pending = s.pending := rfl
@[simp] theorem setStale_regs (s : State) (a : Nat) (st : Bool) : (setStale s a st).regs = s.regs := rfl
@[simp] theorem setStale_banked (s : State) (a : Nat) (st : Bool) : (setStale s a st).banked = s.banked := rfl
@[simp] theorem setStale_ctl (s : State) (a : Nat) (st : Bool) : (setStale s a st).ctl = s.ctl := rfl
@[simp] theorem setStale_pwr (s : State) (a : Nat) (st : Bool) : (setStale s a st).pwr = s.pwr := rfl
@[simp] theorem setStale_stalled (s : State) (a : Nat) (st : Bool) : (setStale s a st).stalled = s.stalled := rfl
@[simp] theorem setStale_mfault (s : State) (a : Nat) (st : Bool) : (setStale s a st).mfault = s.mfault := rfl
@[simp] theorem setStale_standby (s : State) (a : Nat) (st : Bool) : (setStale s a st).standby = s.standby := rfl
@[simp] theorem setStale_localTest (s : State) (a : Nat) (st : Bool) : (setStale s a st).localTest = s.localTest := rfl
@[simp] theorem setStale_surge (s : State) (a : Nat) (st : Bool) : (setStale s a st).surge = s.surge := rfl
@[simp] theorem setStale_ao (s : State) (a : Nat) (st : Bool) : (setStale s a st).ao = s.ao := rfl
@[simp] theorem setStale_boot (s : State) (a : Nat) (st : Bool) : (setStale s a st).boot = s.boot := rfl
@[simp] theorem setStale_tests (s : State) (a : Nat) (st : Bool) : (setStale s a st).tests = s.tests := rfl
@[simp] theorem setStale_lockSeq (s : State) (a : Nat) (st : Bool) : (setStale s a st).lockSeq = s.lockSeq := rfl
@[simp] theorem setStale_cist (s : State) (a : Nat) (st : Bool) : (setStale s a st).cist = s.cist := rfl
@[simp] theorem setStale_casPend (s : State) (a : Nat) (st : Bool) : (setStale s a st).casPend = s.casPend := rfl
@[simp] theorem setStale_snapRun (s : State) (a : Nat) (st : Bool) : (setStale s a st).snapRun = s.snapRun := rfl
@[simp] theorem setStale_snapLatch (s : State) (a : Nat) (st : Bool) : (setStale s a st).snapLatch = s.snapLatch := rfl
@[simp] theorem setStale_dma (s : State) (a : Nat) (st : Bool) : (setStale s a st).dma = s.dma := rfl
@[simp] theorem setStale_time (s : State) (a : Nat) (st : Bool) : (setStale s a st).time = s.time := rfl
@[simp] theorem setStale_field (s : State) (a : Nat) (st : Bool) : (setStale s a st).field = s.field := rfl
@[simp] theorem setStale_safe (s : State) (a : Nat) (st : Bool) : (setStale s a st).safe = s.safe := rfl
@[simp] theorem setStale_pair (s : State) (a : Nat) (st : Bool) : (setStale s a st).pair = s.pair := rfl
@[simp] theorem setStale_bridge (s : State) (a : Nat) (st : Bool) : (setStale s a st).bridge = s.bridge := rfl
@[simp] theorem setStale_sched (s : State) (a : Nat) (st : Bool) : (setStale s a st).sched = s.sched := rfl
@[simp] theorem setStale_engs (s : State) (a : Nat) (st : Bool) : (setStale s a st).engs = s.engs := rfl
@[simp] theorem setStale_axes (s : State) (a : Nat) (st : Bool) : (setStale s a st).axes = s.axes := rfl
@[simp] theorem setStale_mots (s : State) (a : Nat) (st : Bool) : (setStale s a st).mots = s.mots := rfl
@[simp] theorem setStale_motRec (s : State) (a : Nat) (st : Bool) : (setStale s a st).motRec = s.motRec := rfl
@[simp] theorem setStale_camPend (s : State) (a : Nat) (st : Bool) : (setStale s a st).camPend = s.camPend := rfl
@[simp] theorem setStale_stops (s : State) (a : Nat) (st : Bool) : (setStale s a st).stops = s.stops := rfl
@[simp] theorem setStale_commit (s : State) (a : Nat) (st : Bool) : (setStale s a st).commit = s.commit := rfl
@[simp] theorem setStale_lemac (s : State) (a : Nat) (st : Bool) : (setStale s a st).lemac = s.lemac := rfl
@[simp] theorem setStale_safeA (s : State) (a : Nat) (st : Bool) : (setStale s a st).safeA = s.safeA := rfl
@[simp] theorem setStale_safeB (s : State) (a : Nat) (st : Bool) : (setStale s a st).safeB = s.safeB := rfl
@[simp] theorem setStale_plants (s : State) (a : Nat) (st : Bool) : (setStale s a st).plants = s.plants := rfl
@[simp] theorem setStale_tts (s : State) (a : Nat) (st : Bool) : (setStale s a st).tts = s.tts := rfl
@[simp] theorem setStale_capts (s : State) (a : Nat) (st : Bool) : (setStale s a st).capts = s.capts := rfl
@[simp] theorem setStale_encs (s : State) (a : Nat) (st : Bool) : (setStale s a st).encs = s.encs := rfl
@[simp] theorem setStale_emus (s : State) (a : Nat) (st : Bool) : (setStale s a st).emus = s.emus := rfl
@[simp] theorem setStale_acq (s : State) (a : Nat) (st : Bool) : (setStale s a st).acq = s.acq := rfl
@[simp] theorem setStale_cans (s : State) (a : Nat) (st : Bool) : (setStale s a st).cans = s.cans := rfl
@[simp] theorem setStale_eyes (s : State) (a : Nat) (st : Bool) : (setStale s a st).eyes = s.eyes := rfl
@[simp] theorem setStale_wire (s : State) (a : Nat) (st : Bool) : (setStale s a st).wire = s.wire := rfl
@[simp] theorem setStale_resp (s : State) (a : Nat) (st : Bool) : (setStale s a st).resp = s.resp := rfl
@[simp] theorem setStale_freeIdx (s : State) (a : Nat) (st : Bool) : (setStale s a st).freeIdx = s.freeIdx := rfl

@[simp] theorem setEng_pending (s : State) (e : Nat) (x : Engine) : (setEng s e x).pending = s.pending := rfl
@[simp] theorem setEng_regs (s : State) (e : Nat) (x : Engine) : (setEng s e x).regs = s.regs := rfl
@[simp] theorem setEng_banked (s : State) (e : Nat) (x : Engine) : (setEng s e x).banked = s.banked := rfl
@[simp] theorem setEng_ctl (s : State) (e : Nat) (x : Engine) : (setEng s e x).ctl = s.ctl := rfl
@[simp] theorem setEng_mem (s : State) (e : Nat) (x : Engine) : (setEng s e x).mem = s.mem := rfl
@[simp] theorem setEng_pwr (s : State) (e : Nat) (x : Engine) : (setEng s e x).pwr = s.pwr := rfl
@[simp] theorem setEng_stalled (s : State) (e : Nat) (x : Engine) : (setEng s e x).stalled = s.stalled := rfl
@[simp] theorem setEng_mfault (s : State) (e : Nat) (x : Engine) : (setEng s e x).mfault = s.mfault := rfl
@[simp] theorem setEng_standby (s : State) (e : Nat) (x : Engine) : (setEng s e x).standby = s.standby := rfl
@[simp] theorem setEng_localTest (s : State) (e : Nat) (x : Engine) : (setEng s e x).localTest = s.localTest := rfl
@[simp] theorem setEng_surge (s : State) (e : Nat) (x : Engine) : (setEng s e x).surge = s.surge := rfl
@[simp] theorem setEng_ao (s : State) (e : Nat) (x : Engine) : (setEng s e x).ao = s.ao := rfl
@[simp] theorem setEng_boot (s : State) (e : Nat) (x : Engine) : (setEng s e x).boot = s.boot := rfl
@[simp] theorem setEng_tests (s : State) (e : Nat) (x : Engine) : (setEng s e x).tests = s.tests := rfl
@[simp] theorem setEng_lockSeq (s : State) (e : Nat) (x : Engine) : (setEng s e x).lockSeq = s.lockSeq := rfl
@[simp] theorem setEng_cist (s : State) (e : Nat) (x : Engine) : (setEng s e x).cist = s.cist := rfl
@[simp] theorem setEng_casPend (s : State) (e : Nat) (x : Engine) : (setEng s e x).casPend = s.casPend := rfl
@[simp] theorem setEng_snapRun (s : State) (e : Nat) (x : Engine) : (setEng s e x).snapRun = s.snapRun := rfl
@[simp] theorem setEng_snapLatch (s : State) (e : Nat) (x : Engine) : (setEng s e x).snapLatch = s.snapLatch := rfl
@[simp] theorem setEng_dma (s : State) (e : Nat) (x : Engine) : (setEng s e x).dma = s.dma := rfl
@[simp] theorem setEng_time (s : State) (e : Nat) (x : Engine) : (setEng s e x).time = s.time := rfl
@[simp] theorem setEng_field (s : State) (e : Nat) (x : Engine) : (setEng s e x).field = s.field := rfl
@[simp] theorem setEng_safe (s : State) (e : Nat) (x : Engine) : (setEng s e x).safe = s.safe := rfl
@[simp] theorem setEng_pair (s : State) (e : Nat) (x : Engine) : (setEng s e x).pair = s.pair := rfl
@[simp] theorem setEng_bridge (s : State) (e : Nat) (x : Engine) : (setEng s e x).bridge = s.bridge := rfl
@[simp] theorem setEng_sched (s : State) (e : Nat) (x : Engine) : (setEng s e x).sched = s.sched := rfl
@[simp] theorem setEng_axes (s : State) (e : Nat) (x : Engine) : (setEng s e x).axes = s.axes := rfl
@[simp] theorem setEng_mots (s : State) (e : Nat) (x : Engine) : (setEng s e x).mots = s.mots := rfl
@[simp] theorem setEng_motRec (s : State) (e : Nat) (x : Engine) : (setEng s e x).motRec = s.motRec := rfl
@[simp] theorem setEng_camPend (s : State) (e : Nat) (x : Engine) : (setEng s e x).camPend = s.camPend := rfl
@[simp] theorem setEng_stops (s : State) (e : Nat) (x : Engine) : (setEng s e x).stops = s.stops := rfl
@[simp] theorem setEng_commit (s : State) (e : Nat) (x : Engine) : (setEng s e x).commit = s.commit := rfl
@[simp] theorem setEng_lemac (s : State) (e : Nat) (x : Engine) : (setEng s e x).lemac = s.lemac := rfl
@[simp] theorem setEng_safeA (s : State) (e : Nat) (x : Engine) : (setEng s e x).safeA = s.safeA := rfl
@[simp] theorem setEng_safeB (s : State) (e : Nat) (x : Engine) : (setEng s e x).safeB = s.safeB := rfl
@[simp] theorem setEng_plants (s : State) (e : Nat) (x : Engine) : (setEng s e x).plants = s.plants := rfl
@[simp] theorem setEng_tts (s : State) (e : Nat) (x : Engine) : (setEng s e x).tts = s.tts := rfl
@[simp] theorem setEng_capts (s : State) (e : Nat) (x : Engine) : (setEng s e x).capts = s.capts := rfl
@[simp] theorem setEng_encs (s : State) (e : Nat) (x : Engine) : (setEng s e x).encs = s.encs := rfl
@[simp] theorem setEng_emus (s : State) (e : Nat) (x : Engine) : (setEng s e x).emus = s.emus := rfl
@[simp] theorem setEng_acq (s : State) (e : Nat) (x : Engine) : (setEng s e x).acq = s.acq := rfl
@[simp] theorem setEng_cans (s : State) (e : Nat) (x : Engine) : (setEng s e x).cans = s.cans := rfl
@[simp] theorem setEng_eyes (s : State) (e : Nat) (x : Engine) : (setEng s e x).eyes = s.eyes := rfl
@[simp] theorem setEng_wire (s : State) (e : Nat) (x : Engine) : (setEng s e x).wire = s.wire := rfl
@[simp] theorem setEng_resp (s : State) (e : Nat) (x : Engine) : (setEng s e x).resp = s.resp := rfl
@[simp] theorem setEng_freeIdx (s : State) (e : Nat) (x : Engine) : (setEng s e x).freeIdx = s.freeIdx := rfl

@[simp] theorem setTask_pending (s : State) (t : Nat) (x : TaskSt) : (setTask s t x).pending = s.pending := rfl
@[simp] theorem setTask_regs (s : State) (t : Nat) (x : TaskSt) : (setTask s t x).regs = s.regs := rfl
@[simp] theorem setTask_banked (s : State) (t : Nat) (x : TaskSt) : (setTask s t x).banked = s.banked := rfl
@[simp] theorem setTask_ctl (s : State) (t : Nat) (x : TaskSt) : (setTask s t x).ctl = s.ctl := rfl
@[simp] theorem setTask_mem (s : State) (t : Nat) (x : TaskSt) : (setTask s t x).mem = s.mem := rfl
@[simp] theorem setTask_pwr (s : State) (t : Nat) (x : TaskSt) : (setTask s t x).pwr = s.pwr := rfl
@[simp] theorem setTask_stalled (s : State) (t : Nat) (x : TaskSt) : (setTask s t x).stalled = s.stalled := rfl
@[simp] theorem setTask_mfault (s : State) (t : Nat) (x : TaskSt) : (setTask s t x).mfault = s.mfault := rfl
@[simp] theorem setTask_standby (s : State) (t : Nat) (x : TaskSt) : (setTask s t x).standby = s.standby := rfl
@[simp] theorem setTask_localTest (s : State) (t : Nat) (x : TaskSt) : (setTask s t x).localTest = s.localTest := rfl
@[simp] theorem setTask_surge (s : State) (t : Nat) (x : TaskSt) : (setTask s t x).surge = s.surge := rfl
@[simp] theorem setTask_ao (s : State) (t : Nat) (x : TaskSt) : (setTask s t x).ao = s.ao := rfl
@[simp] theorem setTask_boot (s : State) (t : Nat) (x : TaskSt) : (setTask s t x).boot = s.boot := rfl
@[simp] theorem setTask_tests (s : State) (t : Nat) (x : TaskSt) : (setTask s t x).tests = s.tests := rfl
@[simp] theorem setTask_lockSeq (s : State) (t : Nat) (x : TaskSt) : (setTask s t x).lockSeq = s.lockSeq := rfl
@[simp] theorem setTask_cist (s : State) (t : Nat) (x : TaskSt) : (setTask s t x).cist = s.cist := rfl
@[simp] theorem setTask_casPend (s : State) (t : Nat) (x : TaskSt) : (setTask s t x).casPend = s.casPend := rfl
@[simp] theorem setTask_snapRun (s : State) (t : Nat) (x : TaskSt) : (setTask s t x).snapRun = s.snapRun := rfl
@[simp] theorem setTask_snapLatch (s : State) (t : Nat) (x : TaskSt) : (setTask s t x).snapLatch = s.snapLatch := rfl
@[simp] theorem setTask_dma (s : State) (t : Nat) (x : TaskSt) : (setTask s t x).dma = s.dma := rfl
@[simp] theorem setTask_time (s : State) (t : Nat) (x : TaskSt) : (setTask s t x).time = s.time := rfl
@[simp] theorem setTask_field (s : State) (t : Nat) (x : TaskSt) : (setTask s t x).field = s.field := rfl
@[simp] theorem setTask_safe (s : State) (t : Nat) (x : TaskSt) : (setTask s t x).safe = s.safe := rfl
@[simp] theorem setTask_pair (s : State) (t : Nat) (x : TaskSt) : (setTask s t x).pair = s.pair := rfl
@[simp] theorem setTask_bridge (s : State) (t : Nat) (x : TaskSt) : (setTask s t x).bridge = s.bridge := rfl
@[simp] theorem setTask_engs (s : State) (t : Nat) (x : TaskSt) : (setTask s t x).engs = s.engs := rfl
@[simp] theorem setTask_axes (s : State) (t : Nat) (x : TaskSt) : (setTask s t x).axes = s.axes := rfl
@[simp] theorem setTask_mots (s : State) (t : Nat) (x : TaskSt) : (setTask s t x).mots = s.mots := rfl
@[simp] theorem setTask_motRec (s : State) (t : Nat) (x : TaskSt) : (setTask s t x).motRec = s.motRec := rfl
@[simp] theorem setTask_camPend (s : State) (t : Nat) (x : TaskSt) : (setTask s t x).camPend = s.camPend := rfl
@[simp] theorem setTask_stops (s : State) (t : Nat) (x : TaskSt) : (setTask s t x).stops = s.stops := rfl
@[simp] theorem setTask_commit (s : State) (t : Nat) (x : TaskSt) : (setTask s t x).commit = s.commit := rfl
@[simp] theorem setTask_lemac (s : State) (t : Nat) (x : TaskSt) : (setTask s t x).lemac = s.lemac := rfl
@[simp] theorem setTask_safeA (s : State) (t : Nat) (x : TaskSt) : (setTask s t x).safeA = s.safeA := rfl
@[simp] theorem setTask_safeB (s : State) (t : Nat) (x : TaskSt) : (setTask s t x).safeB = s.safeB := rfl
@[simp] theorem setTask_plants (s : State) (t : Nat) (x : TaskSt) : (setTask s t x).plants = s.plants := rfl
@[simp] theorem setTask_tts (s : State) (t : Nat) (x : TaskSt) : (setTask s t x).tts = s.tts := rfl
@[simp] theorem setTask_capts (s : State) (t : Nat) (x : TaskSt) : (setTask s t x).capts = s.capts := rfl
@[simp] theorem setTask_encs (s : State) (t : Nat) (x : TaskSt) : (setTask s t x).encs = s.encs := rfl
@[simp] theorem setTask_emus (s : State) (t : Nat) (x : TaskSt) : (setTask s t x).emus = s.emus := rfl
@[simp] theorem setTask_acq (s : State) (t : Nat) (x : TaskSt) : (setTask s t x).acq = s.acq := rfl
@[simp] theorem setTask_cans (s : State) (t : Nat) (x : TaskSt) : (setTask s t x).cans = s.cans := rfl
@[simp] theorem setTask_eyes (s : State) (t : Nat) (x : TaskSt) : (setTask s t x).eyes = s.eyes := rfl
@[simp] theorem setTask_wire (s : State) (t : Nat) (x : TaskSt) : (setTask s t x).wire = s.wire := rfl
@[simp] theorem setTask_resp (s : State) (t : Nat) (x : TaskSt) : (setTask s t x).resp = s.resp := rfl
@[simp] theorem setTask_freeIdx (s : State) (t : Nat) (x : TaskSt) : (setTask s t x).freeIdx = s.freeIdx := rfl

@[simp] theorem setPoster_pending (s : State) (w : Nat) (l : List PostItem) : (setPoster s w l).pending = s.pending := rfl
@[simp] theorem setPoster_regs (s : State) (w : Nat) (l : List PostItem) : (setPoster s w l).regs = s.regs := rfl
@[simp] theorem setPoster_banked (s : State) (w : Nat) (l : List PostItem) : (setPoster s w l).banked = s.banked := rfl
@[simp] theorem setPoster_ctl (s : State) (w : Nat) (l : List PostItem) : (setPoster s w l).ctl = s.ctl := rfl
@[simp] theorem setPoster_mem (s : State) (w : Nat) (l : List PostItem) : (setPoster s w l).mem = s.mem := rfl
@[simp] theorem setPoster_pwr (s : State) (w : Nat) (l : List PostItem) : (setPoster s w l).pwr = s.pwr := rfl
@[simp] theorem setPoster_stalled (s : State) (w : Nat) (l : List PostItem) : (setPoster s w l).stalled = s.stalled := rfl
@[simp] theorem setPoster_mfault (s : State) (w : Nat) (l : List PostItem) : (setPoster s w l).mfault = s.mfault := rfl
@[simp] theorem setPoster_standby (s : State) (w : Nat) (l : List PostItem) : (setPoster s w l).standby = s.standby := rfl
@[simp] theorem setPoster_localTest (s : State) (w : Nat) (l : List PostItem) : (setPoster s w l).localTest = s.localTest := rfl
@[simp] theorem setPoster_surge (s : State) (w : Nat) (l : List PostItem) : (setPoster s w l).surge = s.surge := rfl
@[simp] theorem setPoster_ao (s : State) (w : Nat) (l : List PostItem) : (setPoster s w l).ao = s.ao := rfl
@[simp] theorem setPoster_boot (s : State) (w : Nat) (l : List PostItem) : (setPoster s w l).boot = s.boot := rfl
@[simp] theorem setPoster_tests (s : State) (w : Nat) (l : List PostItem) : (setPoster s w l).tests = s.tests := rfl
@[simp] theorem setPoster_lockSeq (s : State) (w : Nat) (l : List PostItem) : (setPoster s w l).lockSeq = s.lockSeq := rfl
@[simp] theorem setPoster_cist (s : State) (w : Nat) (l : List PostItem) : (setPoster s w l).cist = s.cist := rfl
@[simp] theorem setPoster_casPend (s : State) (w : Nat) (l : List PostItem) : (setPoster s w l).casPend = s.casPend := rfl
@[simp] theorem setPoster_snapRun (s : State) (w : Nat) (l : List PostItem) : (setPoster s w l).snapRun = s.snapRun := rfl
@[simp] theorem setPoster_snapLatch (s : State) (w : Nat) (l : List PostItem) : (setPoster s w l).snapLatch = s.snapLatch := rfl
@[simp] theorem setPoster_dma (s : State) (w : Nat) (l : List PostItem) : (setPoster s w l).dma = s.dma := rfl
@[simp] theorem setPoster_time (s : State) (w : Nat) (l : List PostItem) : (setPoster s w l).time = s.time := rfl
@[simp] theorem setPoster_field (s : State) (w : Nat) (l : List PostItem) : (setPoster s w l).field = s.field := rfl
@[simp] theorem setPoster_safe (s : State) (w : Nat) (l : List PostItem) : (setPoster s w l).safe = s.safe := rfl
@[simp] theorem setPoster_pair (s : State) (w : Nat) (l : List PostItem) : (setPoster s w l).pair = s.pair := rfl
@[simp] theorem setPoster_bridge (s : State) (w : Nat) (l : List PostItem) : (setPoster s w l).bridge = s.bridge := rfl
@[simp] theorem setPoster_engs (s : State) (w : Nat) (l : List PostItem) : (setPoster s w l).engs = s.engs := rfl
@[simp] theorem setPoster_axes (s : State) (w : Nat) (l : List PostItem) : (setPoster s w l).axes = s.axes := rfl
@[simp] theorem setPoster_mots (s : State) (w : Nat) (l : List PostItem) : (setPoster s w l).mots = s.mots := rfl
@[simp] theorem setPoster_motRec (s : State) (w : Nat) (l : List PostItem) : (setPoster s w l).motRec = s.motRec := rfl
@[simp] theorem setPoster_camPend (s : State) (w : Nat) (l : List PostItem) : (setPoster s w l).camPend = s.camPend := rfl
@[simp] theorem setPoster_stops (s : State) (w : Nat) (l : List PostItem) : (setPoster s w l).stops = s.stops := rfl
@[simp] theorem setPoster_commit (s : State) (w : Nat) (l : List PostItem) : (setPoster s w l).commit = s.commit := rfl
@[simp] theorem setPoster_lemac (s : State) (w : Nat) (l : List PostItem) : (setPoster s w l).lemac = s.lemac := rfl
@[simp] theorem setPoster_safeA (s : State) (w : Nat) (l : List PostItem) : (setPoster s w l).safeA = s.safeA := rfl
@[simp] theorem setPoster_safeB (s : State) (w : Nat) (l : List PostItem) : (setPoster s w l).safeB = s.safeB := rfl
@[simp] theorem setPoster_plants (s : State) (w : Nat) (l : List PostItem) : (setPoster s w l).plants = s.plants := rfl
@[simp] theorem setPoster_tts (s : State) (w : Nat) (l : List PostItem) : (setPoster s w l).tts = s.tts := rfl
@[simp] theorem setPoster_capts (s : State) (w : Nat) (l : List PostItem) : (setPoster s w l).capts = s.capts := rfl
@[simp] theorem setPoster_encs (s : State) (w : Nat) (l : List PostItem) : (setPoster s w l).encs = s.encs := rfl
@[simp] theorem setPoster_emus (s : State) (w : Nat) (l : List PostItem) : (setPoster s w l).emus = s.emus := rfl
@[simp] theorem setPoster_acq (s : State) (w : Nat) (l : List PostItem) : (setPoster s w l).acq = s.acq := rfl
@[simp] theorem setPoster_cans (s : State) (w : Nat) (l : List PostItem) : (setPoster s w l).cans = s.cans := rfl
@[simp] theorem setPoster_eyes (s : State) (w : Nat) (l : List PostItem) : (setPoster s w l).eyes = s.eyes := rfl
@[simp] theorem setPoster_wire (s : State) (w : Nat) (l : List PostItem) : (setPoster s w l).wire = s.wire := rfl
@[simp] theorem setPoster_resp (s : State) (w : Nat) (l : List PostItem) : (setPoster s w l).resp = s.resp := rfl
@[simp] theorem setPoster_freeIdx (s : State) (w : Nat) (l : List PostItem) : (setPoster s w l).freeIdx = s.freeIdx := rfl

@[simp] theorem setAxis_pending (s : State) (a : Nat) (x : AxisSt) : (setAxis s a x).pending = s.pending := rfl
@[simp] theorem setAxis_regs (s : State) (a : Nat) (x : AxisSt) : (setAxis s a x).regs = s.regs := rfl
@[simp] theorem setAxis_banked (s : State) (a : Nat) (x : AxisSt) : (setAxis s a x).banked = s.banked := rfl
@[simp] theorem setAxis_ctl (s : State) (a : Nat) (x : AxisSt) : (setAxis s a x).ctl = s.ctl := rfl
@[simp] theorem setAxis_mem (s : State) (a : Nat) (x : AxisSt) : (setAxis s a x).mem = s.mem := rfl
@[simp] theorem setAxis_pwr (s : State) (a : Nat) (x : AxisSt) : (setAxis s a x).pwr = s.pwr := rfl
@[simp] theorem setAxis_stalled (s : State) (a : Nat) (x : AxisSt) : (setAxis s a x).stalled = s.stalled := rfl
@[simp] theorem setAxis_mfault (s : State) (a : Nat) (x : AxisSt) : (setAxis s a x).mfault = s.mfault := rfl
@[simp] theorem setAxis_standby (s : State) (a : Nat) (x : AxisSt) : (setAxis s a x).standby = s.standby := rfl
@[simp] theorem setAxis_localTest (s : State) (a : Nat) (x : AxisSt) : (setAxis s a x).localTest = s.localTest := rfl
@[simp] theorem setAxis_surge (s : State) (a : Nat) (x : AxisSt) : (setAxis s a x).surge = s.surge := rfl
@[simp] theorem setAxis_ao (s : State) (a : Nat) (x : AxisSt) : (setAxis s a x).ao = s.ao := rfl
@[simp] theorem setAxis_boot (s : State) (a : Nat) (x : AxisSt) : (setAxis s a x).boot = s.boot := rfl
@[simp] theorem setAxis_tests (s : State) (a : Nat) (x : AxisSt) : (setAxis s a x).tests = s.tests := rfl
@[simp] theorem setAxis_lockSeq (s : State) (a : Nat) (x : AxisSt) : (setAxis s a x).lockSeq = s.lockSeq := rfl
@[simp] theorem setAxis_cist (s : State) (a : Nat) (x : AxisSt) : (setAxis s a x).cist = s.cist := rfl
@[simp] theorem setAxis_casPend (s : State) (a : Nat) (x : AxisSt) : (setAxis s a x).casPend = s.casPend := rfl
@[simp] theorem setAxis_snapRun (s : State) (a : Nat) (x : AxisSt) : (setAxis s a x).snapRun = s.snapRun := rfl
@[simp] theorem setAxis_snapLatch (s : State) (a : Nat) (x : AxisSt) : (setAxis s a x).snapLatch = s.snapLatch := rfl
@[simp] theorem setAxis_dma (s : State) (a : Nat) (x : AxisSt) : (setAxis s a x).dma = s.dma := rfl
@[simp] theorem setAxis_time (s : State) (a : Nat) (x : AxisSt) : (setAxis s a x).time = s.time := rfl
@[simp] theorem setAxis_field (s : State) (a : Nat) (x : AxisSt) : (setAxis s a x).field = s.field := rfl
@[simp] theorem setAxis_safe (s : State) (a : Nat) (x : AxisSt) : (setAxis s a x).safe = s.safe := rfl
@[simp] theorem setAxis_pair (s : State) (a : Nat) (x : AxisSt) : (setAxis s a x).pair = s.pair := rfl
@[simp] theorem setAxis_bridge (s : State) (a : Nat) (x : AxisSt) : (setAxis s a x).bridge = s.bridge := rfl
@[simp] theorem setAxis_sched (s : State) (a : Nat) (x : AxisSt) : (setAxis s a x).sched = s.sched := rfl
@[simp] theorem setAxis_engs (s : State) (a : Nat) (x : AxisSt) : (setAxis s a x).engs = s.engs := rfl
@[simp] theorem setAxis_mots (s : State) (a : Nat) (x : AxisSt) : (setAxis s a x).mots = s.mots := rfl
@[simp] theorem setAxis_motRec (s : State) (a : Nat) (x : AxisSt) : (setAxis s a x).motRec = s.motRec := rfl
@[simp] theorem setAxis_camPend (s : State) (a : Nat) (x : AxisSt) : (setAxis s a x).camPend = s.camPend := rfl
@[simp] theorem setAxis_stops (s : State) (a : Nat) (x : AxisSt) : (setAxis s a x).stops = s.stops := rfl
@[simp] theorem setAxis_commit (s : State) (a : Nat) (x : AxisSt) : (setAxis s a x).commit = s.commit := rfl
@[simp] theorem setAxis_lemac (s : State) (a : Nat) (x : AxisSt) : (setAxis s a x).lemac = s.lemac := rfl
@[simp] theorem setAxis_safeA (s : State) (a : Nat) (x : AxisSt) : (setAxis s a x).safeA = s.safeA := rfl
@[simp] theorem setAxis_safeB (s : State) (a : Nat) (x : AxisSt) : (setAxis s a x).safeB = s.safeB := rfl
@[simp] theorem setAxis_plants (s : State) (a : Nat) (x : AxisSt) : (setAxis s a x).plants = s.plants := rfl
@[simp] theorem setAxis_tts (s : State) (a : Nat) (x : AxisSt) : (setAxis s a x).tts = s.tts := rfl
@[simp] theorem setAxis_capts (s : State) (a : Nat) (x : AxisSt) : (setAxis s a x).capts = s.capts := rfl
@[simp] theorem setAxis_encs (s : State) (a : Nat) (x : AxisSt) : (setAxis s a x).encs = s.encs := rfl
@[simp] theorem setAxis_emus (s : State) (a : Nat) (x : AxisSt) : (setAxis s a x).emus = s.emus := rfl
@[simp] theorem setAxis_acq (s : State) (a : Nat) (x : AxisSt) : (setAxis s a x).acq = s.acq := rfl
@[simp] theorem setAxis_cans (s : State) (a : Nat) (x : AxisSt) : (setAxis s a x).cans = s.cans := rfl
@[simp] theorem setAxis_eyes (s : State) (a : Nat) (x : AxisSt) : (setAxis s a x).eyes = s.eyes := rfl
@[simp] theorem setAxis_wire (s : State) (a : Nat) (x : AxisSt) : (setAxis s a x).wire = s.wire := rfl
@[simp] theorem setAxis_resp (s : State) (a : Nat) (x : AxisSt) : (setAxis s a x).resp = s.resp := rfl
@[simp] theorem setAxis_freeIdx (s : State) (a : Nat) (x : AxisSt) : (setAxis s a x).freeIdx = s.freeIdx := rfl

@[simp] theorem setMot_pending (s : State) (c : Nat) (x : MotSt) : (setMot s c x).pending = s.pending := rfl
@[simp] theorem setMot_regs (s : State) (c : Nat) (x : MotSt) : (setMot s c x).regs = s.regs := rfl
@[simp] theorem setMot_banked (s : State) (c : Nat) (x : MotSt) : (setMot s c x).banked = s.banked := rfl
@[simp] theorem setMot_ctl (s : State) (c : Nat) (x : MotSt) : (setMot s c x).ctl = s.ctl := rfl
@[simp] theorem setMot_mem (s : State) (c : Nat) (x : MotSt) : (setMot s c x).mem = s.mem := rfl
@[simp] theorem setMot_pwr (s : State) (c : Nat) (x : MotSt) : (setMot s c x).pwr = s.pwr := rfl
@[simp] theorem setMot_stalled (s : State) (c : Nat) (x : MotSt) : (setMot s c x).stalled = s.stalled := rfl
@[simp] theorem setMot_mfault (s : State) (c : Nat) (x : MotSt) : (setMot s c x).mfault = s.mfault := rfl
@[simp] theorem setMot_standby (s : State) (c : Nat) (x : MotSt) : (setMot s c x).standby = s.standby := rfl
@[simp] theorem setMot_localTest (s : State) (c : Nat) (x : MotSt) : (setMot s c x).localTest = s.localTest := rfl
@[simp] theorem setMot_surge (s : State) (c : Nat) (x : MotSt) : (setMot s c x).surge = s.surge := rfl
@[simp] theorem setMot_ao (s : State) (c : Nat) (x : MotSt) : (setMot s c x).ao = s.ao := rfl
@[simp] theorem setMot_boot (s : State) (c : Nat) (x : MotSt) : (setMot s c x).boot = s.boot := rfl
@[simp] theorem setMot_tests (s : State) (c : Nat) (x : MotSt) : (setMot s c x).tests = s.tests := rfl
@[simp] theorem setMot_lockSeq (s : State) (c : Nat) (x : MotSt) : (setMot s c x).lockSeq = s.lockSeq := rfl
@[simp] theorem setMot_cist (s : State) (c : Nat) (x : MotSt) : (setMot s c x).cist = s.cist := rfl
@[simp] theorem setMot_casPend (s : State) (c : Nat) (x : MotSt) : (setMot s c x).casPend = s.casPend := rfl
@[simp] theorem setMot_snapRun (s : State) (c : Nat) (x : MotSt) : (setMot s c x).snapRun = s.snapRun := rfl
@[simp] theorem setMot_snapLatch (s : State) (c : Nat) (x : MotSt) : (setMot s c x).snapLatch = s.snapLatch := rfl
@[simp] theorem setMot_dma (s : State) (c : Nat) (x : MotSt) : (setMot s c x).dma = s.dma := rfl
@[simp] theorem setMot_time (s : State) (c : Nat) (x : MotSt) : (setMot s c x).time = s.time := rfl
@[simp] theorem setMot_field (s : State) (c : Nat) (x : MotSt) : (setMot s c x).field = s.field := rfl
@[simp] theorem setMot_safe (s : State) (c : Nat) (x : MotSt) : (setMot s c x).safe = s.safe := rfl
@[simp] theorem setMot_pair (s : State) (c : Nat) (x : MotSt) : (setMot s c x).pair = s.pair := rfl
@[simp] theorem setMot_bridge (s : State) (c : Nat) (x : MotSt) : (setMot s c x).bridge = s.bridge := rfl
@[simp] theorem setMot_sched (s : State) (c : Nat) (x : MotSt) : (setMot s c x).sched = s.sched := rfl
@[simp] theorem setMot_engs (s : State) (c : Nat) (x : MotSt) : (setMot s c x).engs = s.engs := rfl
@[simp] theorem setMot_axes (s : State) (c : Nat) (x : MotSt) : (setMot s c x).axes = s.axes := rfl
@[simp] theorem setMot_motRec (s : State) (c : Nat) (x : MotSt) : (setMot s c x).motRec = s.motRec := rfl
@[simp] theorem setMot_camPend (s : State) (c : Nat) (x : MotSt) : (setMot s c x).camPend = s.camPend := rfl
@[simp] theorem setMot_stops (s : State) (c : Nat) (x : MotSt) : (setMot s c x).stops = s.stops := rfl
@[simp] theorem setMot_commit (s : State) (c : Nat) (x : MotSt) : (setMot s c x).commit = s.commit := rfl
@[simp] theorem setMot_lemac (s : State) (c : Nat) (x : MotSt) : (setMot s c x).lemac = s.lemac := rfl
@[simp] theorem setMot_safeA (s : State) (c : Nat) (x : MotSt) : (setMot s c x).safeA = s.safeA := rfl
@[simp] theorem setMot_safeB (s : State) (c : Nat) (x : MotSt) : (setMot s c x).safeB = s.safeB := rfl
@[simp] theorem setMot_plants (s : State) (c : Nat) (x : MotSt) : (setMot s c x).plants = s.plants := rfl
@[simp] theorem setMot_tts (s : State) (c : Nat) (x : MotSt) : (setMot s c x).tts = s.tts := rfl
@[simp] theorem setMot_capts (s : State) (c : Nat) (x : MotSt) : (setMot s c x).capts = s.capts := rfl
@[simp] theorem setMot_encs (s : State) (c : Nat) (x : MotSt) : (setMot s c x).encs = s.encs := rfl
@[simp] theorem setMot_emus (s : State) (c : Nat) (x : MotSt) : (setMot s c x).emus = s.emus := rfl
@[simp] theorem setMot_acq (s : State) (c : Nat) (x : MotSt) : (setMot s c x).acq = s.acq := rfl
@[simp] theorem setMot_cans (s : State) (c : Nat) (x : MotSt) : (setMot s c x).cans = s.cans := rfl
@[simp] theorem setMot_eyes (s : State) (c : Nat) (x : MotSt) : (setMot s c x).eyes = s.eyes := rfl
@[simp] theorem setMot_wire (s : State) (c : Nat) (x : MotSt) : (setMot s c x).wire = s.wire := rfl
@[simp] theorem setMot_resp (s : State) (c : Nat) (x : MotSt) : (setMot s c x).resp = s.resp := rfl
@[simp] theorem setMot_freeIdx (s : State) (c : Nat) (x : MotSt) : (setMot s c x).freeIdx = s.freeIdx := rfl

@[simp] theorem setMotWord_pending (s : State) (c b i v : Nat) : (setMotWord s c b i v).pending = s.pending := rfl
@[simp] theorem setMotWord_regs (s : State) (c b i v : Nat) : (setMotWord s c b i v).regs = s.regs := rfl
@[simp] theorem setMotWord_banked (s : State) (c b i v : Nat) : (setMotWord s c b i v).banked = s.banked := rfl
@[simp] theorem setMotWord_ctl (s : State) (c b i v : Nat) : (setMotWord s c b i v).ctl = s.ctl := rfl
@[simp] theorem setMotWord_mem (s : State) (c b i v : Nat) : (setMotWord s c b i v).mem = s.mem := rfl
@[simp] theorem setMotWord_pwr (s : State) (c b i v : Nat) : (setMotWord s c b i v).pwr = s.pwr := rfl
@[simp] theorem setMotWord_stalled (s : State) (c b i v : Nat) : (setMotWord s c b i v).stalled = s.stalled := rfl
@[simp] theorem setMotWord_mfault (s : State) (c b i v : Nat) : (setMotWord s c b i v).mfault = s.mfault := rfl
@[simp] theorem setMotWord_standby (s : State) (c b i v : Nat) : (setMotWord s c b i v).standby = s.standby := rfl
@[simp] theorem setMotWord_localTest (s : State) (c b i v : Nat) : (setMotWord s c b i v).localTest = s.localTest := rfl
@[simp] theorem setMotWord_surge (s : State) (c b i v : Nat) : (setMotWord s c b i v).surge = s.surge := rfl
@[simp] theorem setMotWord_ao (s : State) (c b i v : Nat) : (setMotWord s c b i v).ao = s.ao := rfl
@[simp] theorem setMotWord_boot (s : State) (c b i v : Nat) : (setMotWord s c b i v).boot = s.boot := rfl
@[simp] theorem setMotWord_tests (s : State) (c b i v : Nat) : (setMotWord s c b i v).tests = s.tests := rfl
@[simp] theorem setMotWord_lockSeq (s : State) (c b i v : Nat) : (setMotWord s c b i v).lockSeq = s.lockSeq := rfl
@[simp] theorem setMotWord_cist (s : State) (c b i v : Nat) : (setMotWord s c b i v).cist = s.cist := rfl
@[simp] theorem setMotWord_casPend (s : State) (c b i v : Nat) : (setMotWord s c b i v).casPend = s.casPend := rfl
@[simp] theorem setMotWord_snapRun (s : State) (c b i v : Nat) : (setMotWord s c b i v).snapRun = s.snapRun := rfl
@[simp] theorem setMotWord_snapLatch (s : State) (c b i v : Nat) : (setMotWord s c b i v).snapLatch = s.snapLatch := rfl
@[simp] theorem setMotWord_dma (s : State) (c b i v : Nat) : (setMotWord s c b i v).dma = s.dma := rfl
@[simp] theorem setMotWord_time (s : State) (c b i v : Nat) : (setMotWord s c b i v).time = s.time := rfl
@[simp] theorem setMotWord_field (s : State) (c b i v : Nat) : (setMotWord s c b i v).field = s.field := rfl
@[simp] theorem setMotWord_safe (s : State) (c b i v : Nat) : (setMotWord s c b i v).safe = s.safe := rfl
@[simp] theorem setMotWord_pair (s : State) (c b i v : Nat) : (setMotWord s c b i v).pair = s.pair := rfl
@[simp] theorem setMotWord_bridge (s : State) (c b i v : Nat) : (setMotWord s c b i v).bridge = s.bridge := rfl
@[simp] theorem setMotWord_sched (s : State) (c b i v : Nat) : (setMotWord s c b i v).sched = s.sched := rfl
@[simp] theorem setMotWord_engs (s : State) (c b i v : Nat) : (setMotWord s c b i v).engs = s.engs := rfl
@[simp] theorem setMotWord_axes (s : State) (c b i v : Nat) : (setMotWord s c b i v).axes = s.axes := rfl
@[simp] theorem setMotWord_mots (s : State) (c b i v : Nat) : (setMotWord s c b i v).mots = s.mots := rfl
@[simp] theorem setMotWord_camPend (s : State) (c b i v : Nat) : (setMotWord s c b i v).camPend = s.camPend := rfl
@[simp] theorem setMotWord_stops (s : State) (c b i v : Nat) : (setMotWord s c b i v).stops = s.stops := rfl
@[simp] theorem setMotWord_commit (s : State) (c b i v : Nat) : (setMotWord s c b i v).commit = s.commit := rfl
@[simp] theorem setMotWord_lemac (s : State) (c b i v : Nat) : (setMotWord s c b i v).lemac = s.lemac := rfl
@[simp] theorem setMotWord_safeA (s : State) (c b i v : Nat) : (setMotWord s c b i v).safeA = s.safeA := rfl
@[simp] theorem setMotWord_safeB (s : State) (c b i v : Nat) : (setMotWord s c b i v).safeB = s.safeB := rfl
@[simp] theorem setMotWord_plants (s : State) (c b i v : Nat) : (setMotWord s c b i v).plants = s.plants := rfl
@[simp] theorem setMotWord_tts (s : State) (c b i v : Nat) : (setMotWord s c b i v).tts = s.tts := rfl
@[simp] theorem setMotWord_capts (s : State) (c b i v : Nat) : (setMotWord s c b i v).capts = s.capts := rfl
@[simp] theorem setMotWord_encs (s : State) (c b i v : Nat) : (setMotWord s c b i v).encs = s.encs := rfl
@[simp] theorem setMotWord_emus (s : State) (c b i v : Nat) : (setMotWord s c b i v).emus = s.emus := rfl
@[simp] theorem setMotWord_acq (s : State) (c b i v : Nat) : (setMotWord s c b i v).acq = s.acq := rfl
@[simp] theorem setMotWord_cans (s : State) (c b i v : Nat) : (setMotWord s c b i v).cans = s.cans := rfl
@[simp] theorem setMotWord_eyes (s : State) (c b i v : Nat) : (setMotWord s c b i v).eyes = s.eyes := rfl
@[simp] theorem setMotWord_wire (s : State) (c b i v : Nat) : (setMotWord s c b i v).wire = s.wire := rfl
@[simp] theorem setMotWord_resp (s : State) (c b i v : Nat) : (setMotWord s c b i v).resp = s.resp := rfl
@[simp] theorem setMotWord_freeIdx (s : State) (c b i v : Nat) : (setMotWord s c b i v).freeIdx = s.freeIdx := rfl

@[simp] theorem setPort_pending (s : State) (p : Nat) (x : PortSt) : (setPort s p x).pending = s.pending := rfl
@[simp] theorem setPort_regs (s : State) (p : Nat) (x : PortSt) : (setPort s p x).regs = s.regs := rfl
@[simp] theorem setPort_banked (s : State) (p : Nat) (x : PortSt) : (setPort s p x).banked = s.banked := rfl
@[simp] theorem setPort_ctl (s : State) (p : Nat) (x : PortSt) : (setPort s p x).ctl = s.ctl := rfl
@[simp] theorem setPort_mem (s : State) (p : Nat) (x : PortSt) : (setPort s p x).mem = s.mem := rfl
@[simp] theorem setPort_pwr (s : State) (p : Nat) (x : PortSt) : (setPort s p x).pwr = s.pwr := rfl
@[simp] theorem setPort_stalled (s : State) (p : Nat) (x : PortSt) : (setPort s p x).stalled = s.stalled := rfl
@[simp] theorem setPort_mfault (s : State) (p : Nat) (x : PortSt) : (setPort s p x).mfault = s.mfault := rfl
@[simp] theorem setPort_standby (s : State) (p : Nat) (x : PortSt) : (setPort s p x).standby = s.standby := rfl
@[simp] theorem setPort_localTest (s : State) (p : Nat) (x : PortSt) : (setPort s p x).localTest = s.localTest := rfl
@[simp] theorem setPort_surge (s : State) (p : Nat) (x : PortSt) : (setPort s p x).surge = s.surge := rfl
@[simp] theorem setPort_ao (s : State) (p : Nat) (x : PortSt) : (setPort s p x).ao = s.ao := rfl
@[simp] theorem setPort_boot (s : State) (p : Nat) (x : PortSt) : (setPort s p x).boot = s.boot := rfl
@[simp] theorem setPort_tests (s : State) (p : Nat) (x : PortSt) : (setPort s p x).tests = s.tests := rfl
@[simp] theorem setPort_lockSeq (s : State) (p : Nat) (x : PortSt) : (setPort s p x).lockSeq = s.lockSeq := rfl
@[simp] theorem setPort_cist (s : State) (p : Nat) (x : PortSt) : (setPort s p x).cist = s.cist := rfl
@[simp] theorem setPort_casPend (s : State) (p : Nat) (x : PortSt) : (setPort s p x).casPend = s.casPend := rfl
@[simp] theorem setPort_snapRun (s : State) (p : Nat) (x : PortSt) : (setPort s p x).snapRun = s.snapRun := rfl
@[simp] theorem setPort_snapLatch (s : State) (p : Nat) (x : PortSt) : (setPort s p x).snapLatch = s.snapLatch := rfl
@[simp] theorem setPort_dma (s : State) (p : Nat) (x : PortSt) : (setPort s p x).dma = s.dma := rfl
@[simp] theorem setPort_time (s : State) (p : Nat) (x : PortSt) : (setPort s p x).time = s.time := rfl
@[simp] theorem setPort_field (s : State) (p : Nat) (x : PortSt) : (setPort s p x).field = s.field := rfl
@[simp] theorem setPort_safe (s : State) (p : Nat) (x : PortSt) : (setPort s p x).safe = s.safe := rfl
@[simp] theorem setPort_pair (s : State) (p : Nat) (x : PortSt) : (setPort s p x).pair = s.pair := rfl
@[simp] theorem setPort_bridge (s : State) (p : Nat) (x : PortSt) : (setPort s p x).bridge = s.bridge := rfl
@[simp] theorem setPort_sched (s : State) (p : Nat) (x : PortSt) : (setPort s p x).sched = s.sched := rfl
@[simp] theorem setPort_engs (s : State) (p : Nat) (x : PortSt) : (setPort s p x).engs = s.engs := rfl
@[simp] theorem setPort_axes (s : State) (p : Nat) (x : PortSt) : (setPort s p x).axes = s.axes := rfl
@[simp] theorem setPort_mots (s : State) (p : Nat) (x : PortSt) : (setPort s p x).mots = s.mots := rfl
@[simp] theorem setPort_motRec (s : State) (p : Nat) (x : PortSt) : (setPort s p x).motRec = s.motRec := rfl
@[simp] theorem setPort_camPend (s : State) (p : Nat) (x : PortSt) : (setPort s p x).camPend = s.camPend := rfl
@[simp] theorem setPort_stops (s : State) (p : Nat) (x : PortSt) : (setPort s p x).stops = s.stops := rfl
@[simp] theorem setPort_commit (s : State) (p : Nat) (x : PortSt) : (setPort s p x).commit = s.commit := rfl
@[simp] theorem setPort_safeA (s : State) (p : Nat) (x : PortSt) : (setPort s p x).safeA = s.safeA := rfl
@[simp] theorem setPort_safeB (s : State) (p : Nat) (x : PortSt) : (setPort s p x).safeB = s.safeB := rfl
@[simp] theorem setPort_plants (s : State) (p : Nat) (x : PortSt) : (setPort s p x).plants = s.plants := rfl
@[simp] theorem setPort_tts (s : State) (p : Nat) (x : PortSt) : (setPort s p x).tts = s.tts := rfl
@[simp] theorem setPort_capts (s : State) (p : Nat) (x : PortSt) : (setPort s p x).capts = s.capts := rfl
@[simp] theorem setPort_encs (s : State) (p : Nat) (x : PortSt) : (setPort s p x).encs = s.encs := rfl
@[simp] theorem setPort_emus (s : State) (p : Nat) (x : PortSt) : (setPort s p x).emus = s.emus := rfl
@[simp] theorem setPort_acq (s : State) (p : Nat) (x : PortSt) : (setPort s p x).acq = s.acq := rfl
@[simp] theorem setPort_cans (s : State) (p : Nat) (x : PortSt) : (setPort s p x).cans = s.cans := rfl
@[simp] theorem setPort_eyes (s : State) (p : Nat) (x : PortSt) : (setPort s p x).eyes = s.eyes := rfl
@[simp] theorem setPort_wire (s : State) (p : Nat) (x : PortSt) : (setPort s p x).wire = s.wire := rfl
@[simp] theorem setPort_resp (s : State) (p : Nat) (x : PortSt) : (setPort s p x).resp = s.resp := rfl
@[simp] theorem setPort_freeIdx (s : State) (p : Nat) (x : PortSt) : (setPort s p x).freeIdx = s.freeIdx := rfl

@[simp] theorem setTime_pending (s : State) (t : Nat) : (setTime s t).pending = s.pending := rfl
@[simp] theorem setTime_regs (s : State) (t : Nat) : (setTime s t).regs = s.regs := rfl
@[simp] theorem setTime_banked (s : State) (t : Nat) : (setTime s t).banked = s.banked := rfl
@[simp] theorem setTime_ctl (s : State) (t : Nat) : (setTime s t).ctl = s.ctl := rfl
@[simp] theorem setTime_mem (s : State) (t : Nat) : (setTime s t).mem = s.mem := rfl
@[simp] theorem setTime_pwr (s : State) (t : Nat) : (setTime s t).pwr = s.pwr := rfl
@[simp] theorem setTime_stalled (s : State) (t : Nat) : (setTime s t).stalled = s.stalled := rfl
@[simp] theorem setTime_mfault (s : State) (t : Nat) : (setTime s t).mfault = s.mfault := rfl
@[simp] theorem setTime_standby (s : State) (t : Nat) : (setTime s t).standby = s.standby := rfl
@[simp] theorem setTime_localTest (s : State) (t : Nat) : (setTime s t).localTest = s.localTest := rfl
@[simp] theorem setTime_surge (s : State) (t : Nat) : (setTime s t).surge = s.surge := rfl
@[simp] theorem setTime_ao (s : State) (t : Nat) : (setTime s t).ao = s.ao := rfl
@[simp] theorem setTime_boot (s : State) (t : Nat) : (setTime s t).boot = s.boot := rfl
@[simp] theorem setTime_tests (s : State) (t : Nat) : (setTime s t).tests = s.tests := rfl
@[simp] theorem setTime_lockSeq (s : State) (t : Nat) : (setTime s t).lockSeq = s.lockSeq := rfl
@[simp] theorem setTime_cist (s : State) (t : Nat) : (setTime s t).cist = s.cist := rfl
@[simp] theorem setTime_casPend (s : State) (t : Nat) : (setTime s t).casPend = s.casPend := rfl
@[simp] theorem setTime_snapRun (s : State) (t : Nat) : (setTime s t).snapRun = s.snapRun := rfl
@[simp] theorem setTime_snapLatch (s : State) (t : Nat) : (setTime s t).snapLatch = s.snapLatch := rfl
@[simp] theorem setTime_dma (s : State) (t : Nat) : (setTime s t).dma = s.dma := rfl
@[simp] theorem setTime_field (s : State) (t : Nat) : (setTime s t).field = s.field := rfl
@[simp] theorem setTime_safe (s : State) (t : Nat) : (setTime s t).safe = s.safe := rfl
@[simp] theorem setTime_pair (s : State) (t : Nat) : (setTime s t).pair = s.pair := rfl
@[simp] theorem setTime_bridge (s : State) (t : Nat) : (setTime s t).bridge = s.bridge := rfl
@[simp] theorem setTime_sched (s : State) (t : Nat) : (setTime s t).sched = s.sched := rfl
@[simp] theorem setTime_engs (s : State) (t : Nat) : (setTime s t).engs = s.engs := rfl
@[simp] theorem setTime_axes (s : State) (t : Nat) : (setTime s t).axes = s.axes := rfl
@[simp] theorem setTime_mots (s : State) (t : Nat) : (setTime s t).mots = s.mots := rfl
@[simp] theorem setTime_motRec (s : State) (t : Nat) : (setTime s t).motRec = s.motRec := rfl
@[simp] theorem setTime_camPend (s : State) (t : Nat) : (setTime s t).camPend = s.camPend := rfl
@[simp] theorem setTime_stops (s : State) (t : Nat) : (setTime s t).stops = s.stops := rfl
@[simp] theorem setTime_commit (s : State) (t : Nat) : (setTime s t).commit = s.commit := rfl
@[simp] theorem setTime_lemac (s : State) (t : Nat) : (setTime s t).lemac = s.lemac := rfl
@[simp] theorem setTime_safeA (s : State) (t : Nat) : (setTime s t).safeA = s.safeA := rfl
@[simp] theorem setTime_safeB (s : State) (t : Nat) : (setTime s t).safeB = s.safeB := rfl
@[simp] theorem setTime_plants (s : State) (t : Nat) : (setTime s t).plants = s.plants := rfl
@[simp] theorem setTime_tts (s : State) (t : Nat) : (setTime s t).tts = s.tts := rfl
@[simp] theorem setTime_capts (s : State) (t : Nat) : (setTime s t).capts = s.capts := rfl
@[simp] theorem setTime_encs (s : State) (t : Nat) : (setTime s t).encs = s.encs := rfl
@[simp] theorem setTime_emus (s : State) (t : Nat) : (setTime s t).emus = s.emus := rfl
@[simp] theorem setTime_acq (s : State) (t : Nat) : (setTime s t).acq = s.acq := rfl
@[simp] theorem setTime_cans (s : State) (t : Nat) : (setTime s t).cans = s.cans := rfl
@[simp] theorem setTime_eyes (s : State) (t : Nat) : (setTime s t).eyes = s.eyes := rfl
@[simp] theorem setTime_wire (s : State) (t : Nat) : (setTime s t).wire = s.wire := rfl
@[simp] theorem setTime_resp (s : State) (t : Nat) : (setTime s t).resp = s.resp := rfl
@[simp] theorem setTime_freeIdx (s : State) (t : Nat) : (setTime s t).freeIdx = s.freeIdx := rfl

@[simp] theorem setCan_pending (s : State) (n : Nat) (x : CanSt) : (setCan s n x).pending = s.pending := rfl
@[simp] theorem setCan_regs (s : State) (n : Nat) (x : CanSt) : (setCan s n x).regs = s.regs := rfl
@[simp] theorem setCan_banked (s : State) (n : Nat) (x : CanSt) : (setCan s n x).banked = s.banked := rfl
@[simp] theorem setCan_ctl (s : State) (n : Nat) (x : CanSt) : (setCan s n x).ctl = s.ctl := rfl
@[simp] theorem setCan_mem (s : State) (n : Nat) (x : CanSt) : (setCan s n x).mem = s.mem := rfl
@[simp] theorem setCan_pwr (s : State) (n : Nat) (x : CanSt) : (setCan s n x).pwr = s.pwr := rfl
@[simp] theorem setCan_stalled (s : State) (n : Nat) (x : CanSt) : (setCan s n x).stalled = s.stalled := rfl
@[simp] theorem setCan_mfault (s : State) (n : Nat) (x : CanSt) : (setCan s n x).mfault = s.mfault := rfl
@[simp] theorem setCan_standby (s : State) (n : Nat) (x : CanSt) : (setCan s n x).standby = s.standby := rfl
@[simp] theorem setCan_localTest (s : State) (n : Nat) (x : CanSt) : (setCan s n x).localTest = s.localTest := rfl
@[simp] theorem setCan_surge (s : State) (n : Nat) (x : CanSt) : (setCan s n x).surge = s.surge := rfl
@[simp] theorem setCan_ao (s : State) (n : Nat) (x : CanSt) : (setCan s n x).ao = s.ao := rfl
@[simp] theorem setCan_boot (s : State) (n : Nat) (x : CanSt) : (setCan s n x).boot = s.boot := rfl
@[simp] theorem setCan_tests (s : State) (n : Nat) (x : CanSt) : (setCan s n x).tests = s.tests := rfl
@[simp] theorem setCan_lockSeq (s : State) (n : Nat) (x : CanSt) : (setCan s n x).lockSeq = s.lockSeq := rfl
@[simp] theorem setCan_cist (s : State) (n : Nat) (x : CanSt) : (setCan s n x).cist = s.cist := rfl
@[simp] theorem setCan_casPend (s : State) (n : Nat) (x : CanSt) : (setCan s n x).casPend = s.casPend := rfl
@[simp] theorem setCan_snapRun (s : State) (n : Nat) (x : CanSt) : (setCan s n x).snapRun = s.snapRun := rfl
@[simp] theorem setCan_snapLatch (s : State) (n : Nat) (x : CanSt) : (setCan s n x).snapLatch = s.snapLatch := rfl
@[simp] theorem setCan_dma (s : State) (n : Nat) (x : CanSt) : (setCan s n x).dma = s.dma := rfl
@[simp] theorem setCan_time (s : State) (n : Nat) (x : CanSt) : (setCan s n x).time = s.time := rfl
@[simp] theorem setCan_field (s : State) (n : Nat) (x : CanSt) : (setCan s n x).field = s.field := rfl
@[simp] theorem setCan_safe (s : State) (n : Nat) (x : CanSt) : (setCan s n x).safe = s.safe := rfl
@[simp] theorem setCan_pair (s : State) (n : Nat) (x : CanSt) : (setCan s n x).pair = s.pair := rfl
@[simp] theorem setCan_bridge (s : State) (n : Nat) (x : CanSt) : (setCan s n x).bridge = s.bridge := rfl
@[simp] theorem setCan_sched (s : State) (n : Nat) (x : CanSt) : (setCan s n x).sched = s.sched := rfl
@[simp] theorem setCan_engs (s : State) (n : Nat) (x : CanSt) : (setCan s n x).engs = s.engs := rfl
@[simp] theorem setCan_axes (s : State) (n : Nat) (x : CanSt) : (setCan s n x).axes = s.axes := rfl
@[simp] theorem setCan_mots (s : State) (n : Nat) (x : CanSt) : (setCan s n x).mots = s.mots := rfl
@[simp] theorem setCan_motRec (s : State) (n : Nat) (x : CanSt) : (setCan s n x).motRec = s.motRec := rfl
@[simp] theorem setCan_camPend (s : State) (n : Nat) (x : CanSt) : (setCan s n x).camPend = s.camPend := rfl
@[simp] theorem setCan_stops (s : State) (n : Nat) (x : CanSt) : (setCan s n x).stops = s.stops := rfl
@[simp] theorem setCan_commit (s : State) (n : Nat) (x : CanSt) : (setCan s n x).commit = s.commit := rfl
@[simp] theorem setCan_lemac (s : State) (n : Nat) (x : CanSt) : (setCan s n x).lemac = s.lemac := rfl
@[simp] theorem setCan_safeA (s : State) (n : Nat) (x : CanSt) : (setCan s n x).safeA = s.safeA := rfl
@[simp] theorem setCan_safeB (s : State) (n : Nat) (x : CanSt) : (setCan s n x).safeB = s.safeB := rfl
@[simp] theorem setCan_plants (s : State) (n : Nat) (x : CanSt) : (setCan s n x).plants = s.plants := rfl
@[simp] theorem setCan_tts (s : State) (n : Nat) (x : CanSt) : (setCan s n x).tts = s.tts := rfl
@[simp] theorem setCan_capts (s : State) (n : Nat) (x : CanSt) : (setCan s n x).capts = s.capts := rfl
@[simp] theorem setCan_encs (s : State) (n : Nat) (x : CanSt) : (setCan s n x).encs = s.encs := rfl
@[simp] theorem setCan_emus (s : State) (n : Nat) (x : CanSt) : (setCan s n x).emus = s.emus := rfl
@[simp] theorem setCan_acq (s : State) (n : Nat) (x : CanSt) : (setCan s n x).acq = s.acq := rfl
@[simp] theorem setCan_eyes (s : State) (n : Nat) (x : CanSt) : (setCan s n x).eyes = s.eyes := rfl
@[simp] theorem setCan_wire (s : State) (n : Nat) (x : CanSt) : (setCan s n x).wire = s.wire := rfl
@[simp] theorem setCan_resp (s : State) (n : Nat) (x : CanSt) : (setCan s n x).resp = s.resp := rfl
@[simp] theorem setCan_freeIdx (s : State) (n : Nat) (x : CanSt) : (setCan s n x).freeIdx = s.freeIdx := rfl

@[simp] theorem setCanTx_pending (s : State) (n t : Nat) (x : CanTx) : (setCanTx s n t x).pending = s.pending := rfl
@[simp] theorem setCanTx_regs (s : State) (n t : Nat) (x : CanTx) : (setCanTx s n t x).regs = s.regs := rfl
@[simp] theorem setCanTx_banked (s : State) (n t : Nat) (x : CanTx) : (setCanTx s n t x).banked = s.banked := rfl
@[simp] theorem setCanTx_ctl (s : State) (n t : Nat) (x : CanTx) : (setCanTx s n t x).ctl = s.ctl := rfl
@[simp] theorem setCanTx_mem (s : State) (n t : Nat) (x : CanTx) : (setCanTx s n t x).mem = s.mem := rfl
@[simp] theorem setCanTx_pwr (s : State) (n t : Nat) (x : CanTx) : (setCanTx s n t x).pwr = s.pwr := rfl
@[simp] theorem setCanTx_stalled (s : State) (n t : Nat) (x : CanTx) : (setCanTx s n t x).stalled = s.stalled := rfl
@[simp] theorem setCanTx_mfault (s : State) (n t : Nat) (x : CanTx) : (setCanTx s n t x).mfault = s.mfault := rfl
@[simp] theorem setCanTx_standby (s : State) (n t : Nat) (x : CanTx) : (setCanTx s n t x).standby = s.standby := rfl
@[simp] theorem setCanTx_localTest (s : State) (n t : Nat) (x : CanTx) : (setCanTx s n t x).localTest = s.localTest := rfl
@[simp] theorem setCanTx_surge (s : State) (n t : Nat) (x : CanTx) : (setCanTx s n t x).surge = s.surge := rfl
@[simp] theorem setCanTx_ao (s : State) (n t : Nat) (x : CanTx) : (setCanTx s n t x).ao = s.ao := rfl
@[simp] theorem setCanTx_boot (s : State) (n t : Nat) (x : CanTx) : (setCanTx s n t x).boot = s.boot := rfl
@[simp] theorem setCanTx_tests (s : State) (n t : Nat) (x : CanTx) : (setCanTx s n t x).tests = s.tests := rfl
@[simp] theorem setCanTx_lockSeq (s : State) (n t : Nat) (x : CanTx) : (setCanTx s n t x).lockSeq = s.lockSeq := rfl
@[simp] theorem setCanTx_cist (s : State) (n t : Nat) (x : CanTx) : (setCanTx s n t x).cist = s.cist := rfl
@[simp] theorem setCanTx_casPend (s : State) (n t : Nat) (x : CanTx) : (setCanTx s n t x).casPend = s.casPend := rfl
@[simp] theorem setCanTx_snapRun (s : State) (n t : Nat) (x : CanTx) : (setCanTx s n t x).snapRun = s.snapRun := rfl
@[simp] theorem setCanTx_snapLatch (s : State) (n t : Nat) (x : CanTx) : (setCanTx s n t x).snapLatch = s.snapLatch := rfl
@[simp] theorem setCanTx_dma (s : State) (n t : Nat) (x : CanTx) : (setCanTx s n t x).dma = s.dma := rfl
@[simp] theorem setCanTx_time (s : State) (n t : Nat) (x : CanTx) : (setCanTx s n t x).time = s.time := rfl
@[simp] theorem setCanTx_field (s : State) (n t : Nat) (x : CanTx) : (setCanTx s n t x).field = s.field := rfl
@[simp] theorem setCanTx_safe (s : State) (n t : Nat) (x : CanTx) : (setCanTx s n t x).safe = s.safe := rfl
@[simp] theorem setCanTx_pair (s : State) (n t : Nat) (x : CanTx) : (setCanTx s n t x).pair = s.pair := rfl
@[simp] theorem setCanTx_bridge (s : State) (n t : Nat) (x : CanTx) : (setCanTx s n t x).bridge = s.bridge := rfl
@[simp] theorem setCanTx_sched (s : State) (n t : Nat) (x : CanTx) : (setCanTx s n t x).sched = s.sched := rfl
@[simp] theorem setCanTx_engs (s : State) (n t : Nat) (x : CanTx) : (setCanTx s n t x).engs = s.engs := rfl
@[simp] theorem setCanTx_axes (s : State) (n t : Nat) (x : CanTx) : (setCanTx s n t x).axes = s.axes := rfl
@[simp] theorem setCanTx_mots (s : State) (n t : Nat) (x : CanTx) : (setCanTx s n t x).mots = s.mots := rfl
@[simp] theorem setCanTx_motRec (s : State) (n t : Nat) (x : CanTx) : (setCanTx s n t x).motRec = s.motRec := rfl
@[simp] theorem setCanTx_camPend (s : State) (n t : Nat) (x : CanTx) : (setCanTx s n t x).camPend = s.camPend := rfl
@[simp] theorem setCanTx_stops (s : State) (n t : Nat) (x : CanTx) : (setCanTx s n t x).stops = s.stops := rfl
@[simp] theorem setCanTx_commit (s : State) (n t : Nat) (x : CanTx) : (setCanTx s n t x).commit = s.commit := rfl
@[simp] theorem setCanTx_lemac (s : State) (n t : Nat) (x : CanTx) : (setCanTx s n t x).lemac = s.lemac := rfl
@[simp] theorem setCanTx_safeA (s : State) (n t : Nat) (x : CanTx) : (setCanTx s n t x).safeA = s.safeA := rfl
@[simp] theorem setCanTx_safeB (s : State) (n t : Nat) (x : CanTx) : (setCanTx s n t x).safeB = s.safeB := rfl
@[simp] theorem setCanTx_plants (s : State) (n t : Nat) (x : CanTx) : (setCanTx s n t x).plants = s.plants := rfl
@[simp] theorem setCanTx_tts (s : State) (n t : Nat) (x : CanTx) : (setCanTx s n t x).tts = s.tts := rfl
@[simp] theorem setCanTx_capts (s : State) (n t : Nat) (x : CanTx) : (setCanTx s n t x).capts = s.capts := rfl
@[simp] theorem setCanTx_encs (s : State) (n t : Nat) (x : CanTx) : (setCanTx s n t x).encs = s.encs := rfl
@[simp] theorem setCanTx_emus (s : State) (n t : Nat) (x : CanTx) : (setCanTx s n t x).emus = s.emus := rfl
@[simp] theorem setCanTx_acq (s : State) (n t : Nat) (x : CanTx) : (setCanTx s n t x).acq = s.acq := rfl
@[simp] theorem setCanTx_eyes (s : State) (n t : Nat) (x : CanTx) : (setCanTx s n t x).eyes = s.eyes := rfl
@[simp] theorem setCanTx_wire (s : State) (n t : Nat) (x : CanTx) : (setCanTx s n t x).wire = s.wire := rfl
@[simp] theorem setCanTx_resp (s : State) (n t : Nat) (x : CanTx) : (setCanTx s n t x).resp = s.resp := rfl
@[simp] theorem setCanTx_freeIdx (s : State) (n t : Nat) (x : CanTx) : (setCanTx s n t x).freeIdx = s.freeIdx := rfl

@[simp] theorem setCanRx_pending (s : State) (n b : Nat) (x : CanRx) : (setCanRx s n b x).pending = s.pending := rfl
@[simp] theorem setCanRx_regs (s : State) (n b : Nat) (x : CanRx) : (setCanRx s n b x).regs = s.regs := rfl
@[simp] theorem setCanRx_banked (s : State) (n b : Nat) (x : CanRx) : (setCanRx s n b x).banked = s.banked := rfl
@[simp] theorem setCanRx_ctl (s : State) (n b : Nat) (x : CanRx) : (setCanRx s n b x).ctl = s.ctl := rfl
@[simp] theorem setCanRx_mem (s : State) (n b : Nat) (x : CanRx) : (setCanRx s n b x).mem = s.mem := rfl
@[simp] theorem setCanRx_pwr (s : State) (n b : Nat) (x : CanRx) : (setCanRx s n b x).pwr = s.pwr := rfl
@[simp] theorem setCanRx_stalled (s : State) (n b : Nat) (x : CanRx) : (setCanRx s n b x).stalled = s.stalled := rfl
@[simp] theorem setCanRx_mfault (s : State) (n b : Nat) (x : CanRx) : (setCanRx s n b x).mfault = s.mfault := rfl
@[simp] theorem setCanRx_standby (s : State) (n b : Nat) (x : CanRx) : (setCanRx s n b x).standby = s.standby := rfl
@[simp] theorem setCanRx_localTest (s : State) (n b : Nat) (x : CanRx) : (setCanRx s n b x).localTest = s.localTest := rfl
@[simp] theorem setCanRx_surge (s : State) (n b : Nat) (x : CanRx) : (setCanRx s n b x).surge = s.surge := rfl
@[simp] theorem setCanRx_ao (s : State) (n b : Nat) (x : CanRx) : (setCanRx s n b x).ao = s.ao := rfl
@[simp] theorem setCanRx_boot (s : State) (n b : Nat) (x : CanRx) : (setCanRx s n b x).boot = s.boot := rfl
@[simp] theorem setCanRx_tests (s : State) (n b : Nat) (x : CanRx) : (setCanRx s n b x).tests = s.tests := rfl
@[simp] theorem setCanRx_lockSeq (s : State) (n b : Nat) (x : CanRx) : (setCanRx s n b x).lockSeq = s.lockSeq := rfl
@[simp] theorem setCanRx_cist (s : State) (n b : Nat) (x : CanRx) : (setCanRx s n b x).cist = s.cist := rfl
@[simp] theorem setCanRx_casPend (s : State) (n b : Nat) (x : CanRx) : (setCanRx s n b x).casPend = s.casPend := rfl
@[simp] theorem setCanRx_snapRun (s : State) (n b : Nat) (x : CanRx) : (setCanRx s n b x).snapRun = s.snapRun := rfl
@[simp] theorem setCanRx_snapLatch (s : State) (n b : Nat) (x : CanRx) : (setCanRx s n b x).snapLatch = s.snapLatch := rfl
@[simp] theorem setCanRx_dma (s : State) (n b : Nat) (x : CanRx) : (setCanRx s n b x).dma = s.dma := rfl
@[simp] theorem setCanRx_time (s : State) (n b : Nat) (x : CanRx) : (setCanRx s n b x).time = s.time := rfl
@[simp] theorem setCanRx_field (s : State) (n b : Nat) (x : CanRx) : (setCanRx s n b x).field = s.field := rfl
@[simp] theorem setCanRx_safe (s : State) (n b : Nat) (x : CanRx) : (setCanRx s n b x).safe = s.safe := rfl
@[simp] theorem setCanRx_pair (s : State) (n b : Nat) (x : CanRx) : (setCanRx s n b x).pair = s.pair := rfl
@[simp] theorem setCanRx_bridge (s : State) (n b : Nat) (x : CanRx) : (setCanRx s n b x).bridge = s.bridge := rfl
@[simp] theorem setCanRx_sched (s : State) (n b : Nat) (x : CanRx) : (setCanRx s n b x).sched = s.sched := rfl
@[simp] theorem setCanRx_engs (s : State) (n b : Nat) (x : CanRx) : (setCanRx s n b x).engs = s.engs := rfl
@[simp] theorem setCanRx_axes (s : State) (n b : Nat) (x : CanRx) : (setCanRx s n b x).axes = s.axes := rfl
@[simp] theorem setCanRx_mots (s : State) (n b : Nat) (x : CanRx) : (setCanRx s n b x).mots = s.mots := rfl
@[simp] theorem setCanRx_motRec (s : State) (n b : Nat) (x : CanRx) : (setCanRx s n b x).motRec = s.motRec := rfl
@[simp] theorem setCanRx_camPend (s : State) (n b : Nat) (x : CanRx) : (setCanRx s n b x).camPend = s.camPend := rfl
@[simp] theorem setCanRx_stops (s : State) (n b : Nat) (x : CanRx) : (setCanRx s n b x).stops = s.stops := rfl
@[simp] theorem setCanRx_commit (s : State) (n b : Nat) (x : CanRx) : (setCanRx s n b x).commit = s.commit := rfl
@[simp] theorem setCanRx_lemac (s : State) (n b : Nat) (x : CanRx) : (setCanRx s n b x).lemac = s.lemac := rfl
@[simp] theorem setCanRx_safeA (s : State) (n b : Nat) (x : CanRx) : (setCanRx s n b x).safeA = s.safeA := rfl
@[simp] theorem setCanRx_safeB (s : State) (n b : Nat) (x : CanRx) : (setCanRx s n b x).safeB = s.safeB := rfl
@[simp] theorem setCanRx_plants (s : State) (n b : Nat) (x : CanRx) : (setCanRx s n b x).plants = s.plants := rfl
@[simp] theorem setCanRx_tts (s : State) (n b : Nat) (x : CanRx) : (setCanRx s n b x).tts = s.tts := rfl
@[simp] theorem setCanRx_capts (s : State) (n b : Nat) (x : CanRx) : (setCanRx s n b x).capts = s.capts := rfl
@[simp] theorem setCanRx_encs (s : State) (n b : Nat) (x : CanRx) : (setCanRx s n b x).encs = s.encs := rfl
@[simp] theorem setCanRx_emus (s : State) (n b : Nat) (x : CanRx) : (setCanRx s n b x).emus = s.emus := rfl
@[simp] theorem setCanRx_acq (s : State) (n b : Nat) (x : CanRx) : (setCanRx s n b x).acq = s.acq := rfl
@[simp] theorem setCanRx_eyes (s : State) (n b : Nat) (x : CanRx) : (setCanRx s n b x).eyes = s.eyes := rfl
@[simp] theorem setCanRx_wire (s : State) (n b : Nat) (x : CanRx) : (setCanRx s n b x).wire = s.wire := rfl
@[simp] theorem setCanRx_resp (s : State) (n b : Nat) (x : CanRx) : (setCanRx s n b x).resp = s.resp := rfl
@[simp] theorem setCanRx_freeIdx (s : State) (n b : Nat) (x : CanRx) : (setCanRx s n b x).freeIdx = s.freeIdx := rfl

@[simp] theorem setEnc_pending (s : State) (n : Nat) (x : EncSt) : (setEnc s n x).pending = s.pending := rfl
@[simp] theorem setEnc_regs (s : State) (n : Nat) (x : EncSt) : (setEnc s n x).regs = s.regs := rfl
@[simp] theorem setEnc_banked (s : State) (n : Nat) (x : EncSt) : (setEnc s n x).banked = s.banked := rfl
@[simp] theorem setEnc_ctl (s : State) (n : Nat) (x : EncSt) : (setEnc s n x).ctl = s.ctl := rfl
@[simp] theorem setEnc_mem (s : State) (n : Nat) (x : EncSt) : (setEnc s n x).mem = s.mem := rfl
@[simp] theorem setEnc_pwr (s : State) (n : Nat) (x : EncSt) : (setEnc s n x).pwr = s.pwr := rfl
@[simp] theorem setEnc_stalled (s : State) (n : Nat) (x : EncSt) : (setEnc s n x).stalled = s.stalled := rfl
@[simp] theorem setEnc_mfault (s : State) (n : Nat) (x : EncSt) : (setEnc s n x).mfault = s.mfault := rfl
@[simp] theorem setEnc_standby (s : State) (n : Nat) (x : EncSt) : (setEnc s n x).standby = s.standby := rfl
@[simp] theorem setEnc_localTest (s : State) (n : Nat) (x : EncSt) : (setEnc s n x).localTest = s.localTest := rfl
@[simp] theorem setEnc_surge (s : State) (n : Nat) (x : EncSt) : (setEnc s n x).surge = s.surge := rfl
@[simp] theorem setEnc_ao (s : State) (n : Nat) (x : EncSt) : (setEnc s n x).ao = s.ao := rfl
@[simp] theorem setEnc_boot (s : State) (n : Nat) (x : EncSt) : (setEnc s n x).boot = s.boot := rfl
@[simp] theorem setEnc_tests (s : State) (n : Nat) (x : EncSt) : (setEnc s n x).tests = s.tests := rfl
@[simp] theorem setEnc_lockSeq (s : State) (n : Nat) (x : EncSt) : (setEnc s n x).lockSeq = s.lockSeq := rfl
@[simp] theorem setEnc_cist (s : State) (n : Nat) (x : EncSt) : (setEnc s n x).cist = s.cist := rfl
@[simp] theorem setEnc_casPend (s : State) (n : Nat) (x : EncSt) : (setEnc s n x).casPend = s.casPend := rfl
@[simp] theorem setEnc_snapRun (s : State) (n : Nat) (x : EncSt) : (setEnc s n x).snapRun = s.snapRun := rfl
@[simp] theorem setEnc_snapLatch (s : State) (n : Nat) (x : EncSt) : (setEnc s n x).snapLatch = s.snapLatch := rfl
@[simp] theorem setEnc_dma (s : State) (n : Nat) (x : EncSt) : (setEnc s n x).dma = s.dma := rfl
@[simp] theorem setEnc_time (s : State) (n : Nat) (x : EncSt) : (setEnc s n x).time = s.time := rfl
@[simp] theorem setEnc_field (s : State) (n : Nat) (x : EncSt) : (setEnc s n x).field = s.field := rfl
@[simp] theorem setEnc_safe (s : State) (n : Nat) (x : EncSt) : (setEnc s n x).safe = s.safe := rfl
@[simp] theorem setEnc_pair (s : State) (n : Nat) (x : EncSt) : (setEnc s n x).pair = s.pair := rfl
@[simp] theorem setEnc_bridge (s : State) (n : Nat) (x : EncSt) : (setEnc s n x).bridge = s.bridge := rfl
@[simp] theorem setEnc_sched (s : State) (n : Nat) (x : EncSt) : (setEnc s n x).sched = s.sched := rfl
@[simp] theorem setEnc_engs (s : State) (n : Nat) (x : EncSt) : (setEnc s n x).engs = s.engs := rfl
@[simp] theorem setEnc_axes (s : State) (n : Nat) (x : EncSt) : (setEnc s n x).axes = s.axes := rfl
@[simp] theorem setEnc_mots (s : State) (n : Nat) (x : EncSt) : (setEnc s n x).mots = s.mots := rfl
@[simp] theorem setEnc_motRec (s : State) (n : Nat) (x : EncSt) : (setEnc s n x).motRec = s.motRec := rfl
@[simp] theorem setEnc_camPend (s : State) (n : Nat) (x : EncSt) : (setEnc s n x).camPend = s.camPend := rfl
@[simp] theorem setEnc_stops (s : State) (n : Nat) (x : EncSt) : (setEnc s n x).stops = s.stops := rfl
@[simp] theorem setEnc_commit (s : State) (n : Nat) (x : EncSt) : (setEnc s n x).commit = s.commit := rfl
@[simp] theorem setEnc_lemac (s : State) (n : Nat) (x : EncSt) : (setEnc s n x).lemac = s.lemac := rfl
@[simp] theorem setEnc_safeA (s : State) (n : Nat) (x : EncSt) : (setEnc s n x).safeA = s.safeA := rfl
@[simp] theorem setEnc_safeB (s : State) (n : Nat) (x : EncSt) : (setEnc s n x).safeB = s.safeB := rfl
@[simp] theorem setEnc_plants (s : State) (n : Nat) (x : EncSt) : (setEnc s n x).plants = s.plants := rfl
@[simp] theorem setEnc_tts (s : State) (n : Nat) (x : EncSt) : (setEnc s n x).tts = s.tts := rfl
@[simp] theorem setEnc_capts (s : State) (n : Nat) (x : EncSt) : (setEnc s n x).capts = s.capts := rfl
@[simp] theorem setEnc_emus (s : State) (n : Nat) (x : EncSt) : (setEnc s n x).emus = s.emus := rfl
@[simp] theorem setEnc_acq (s : State) (n : Nat) (x : EncSt) : (setEnc s n x).acq = s.acq := rfl
@[simp] theorem setEnc_cans (s : State) (n : Nat) (x : EncSt) : (setEnc s n x).cans = s.cans := rfl
@[simp] theorem setEnc_eyes (s : State) (n : Nat) (x : EncSt) : (setEnc s n x).eyes = s.eyes := rfl
@[simp] theorem setEnc_wire (s : State) (n : Nat) (x : EncSt) : (setEnc s n x).wire = s.wire := rfl
@[simp] theorem setEnc_resp (s : State) (n : Nat) (x : EncSt) : (setEnc s n x).resp = s.resp := rfl
@[simp] theorem setEnc_freeIdx (s : State) (n : Nat) (x : EncSt) : (setEnc s n x).freeIdx = s.freeIdx := rfl

@[simp] theorem setEmu_pending (s : State) (m : Nat) (x : EmuSt) : (setEmu s m x).pending = s.pending := rfl
@[simp] theorem setEmu_regs (s : State) (m : Nat) (x : EmuSt) : (setEmu s m x).regs = s.regs := rfl
@[simp] theorem setEmu_banked (s : State) (m : Nat) (x : EmuSt) : (setEmu s m x).banked = s.banked := rfl
@[simp] theorem setEmu_ctl (s : State) (m : Nat) (x : EmuSt) : (setEmu s m x).ctl = s.ctl := rfl
@[simp] theorem setEmu_mem (s : State) (m : Nat) (x : EmuSt) : (setEmu s m x).mem = s.mem := rfl
@[simp] theorem setEmu_pwr (s : State) (m : Nat) (x : EmuSt) : (setEmu s m x).pwr = s.pwr := rfl
@[simp] theorem setEmu_stalled (s : State) (m : Nat) (x : EmuSt) : (setEmu s m x).stalled = s.stalled := rfl
@[simp] theorem setEmu_mfault (s : State) (m : Nat) (x : EmuSt) : (setEmu s m x).mfault = s.mfault := rfl
@[simp] theorem setEmu_standby (s : State) (m : Nat) (x : EmuSt) : (setEmu s m x).standby = s.standby := rfl
@[simp] theorem setEmu_localTest (s : State) (m : Nat) (x : EmuSt) : (setEmu s m x).localTest = s.localTest := rfl
@[simp] theorem setEmu_surge (s : State) (m : Nat) (x : EmuSt) : (setEmu s m x).surge = s.surge := rfl
@[simp] theorem setEmu_ao (s : State) (m : Nat) (x : EmuSt) : (setEmu s m x).ao = s.ao := rfl
@[simp] theorem setEmu_boot (s : State) (m : Nat) (x : EmuSt) : (setEmu s m x).boot = s.boot := rfl
@[simp] theorem setEmu_tests (s : State) (m : Nat) (x : EmuSt) : (setEmu s m x).tests = s.tests := rfl
@[simp] theorem setEmu_lockSeq (s : State) (m : Nat) (x : EmuSt) : (setEmu s m x).lockSeq = s.lockSeq := rfl
@[simp] theorem setEmu_cist (s : State) (m : Nat) (x : EmuSt) : (setEmu s m x).cist = s.cist := rfl
@[simp] theorem setEmu_casPend (s : State) (m : Nat) (x : EmuSt) : (setEmu s m x).casPend = s.casPend := rfl
@[simp] theorem setEmu_snapRun (s : State) (m : Nat) (x : EmuSt) : (setEmu s m x).snapRun = s.snapRun := rfl
@[simp] theorem setEmu_snapLatch (s : State) (m : Nat) (x : EmuSt) : (setEmu s m x).snapLatch = s.snapLatch := rfl
@[simp] theorem setEmu_dma (s : State) (m : Nat) (x : EmuSt) : (setEmu s m x).dma = s.dma := rfl
@[simp] theorem setEmu_time (s : State) (m : Nat) (x : EmuSt) : (setEmu s m x).time = s.time := rfl
@[simp] theorem setEmu_field (s : State) (m : Nat) (x : EmuSt) : (setEmu s m x).field = s.field := rfl
@[simp] theorem setEmu_safe (s : State) (m : Nat) (x : EmuSt) : (setEmu s m x).safe = s.safe := rfl
@[simp] theorem setEmu_pair (s : State) (m : Nat) (x : EmuSt) : (setEmu s m x).pair = s.pair := rfl
@[simp] theorem setEmu_bridge (s : State) (m : Nat) (x : EmuSt) : (setEmu s m x).bridge = s.bridge := rfl
@[simp] theorem setEmu_sched (s : State) (m : Nat) (x : EmuSt) : (setEmu s m x).sched = s.sched := rfl
@[simp] theorem setEmu_engs (s : State) (m : Nat) (x : EmuSt) : (setEmu s m x).engs = s.engs := rfl
@[simp] theorem setEmu_axes (s : State) (m : Nat) (x : EmuSt) : (setEmu s m x).axes = s.axes := rfl
@[simp] theorem setEmu_mots (s : State) (m : Nat) (x : EmuSt) : (setEmu s m x).mots = s.mots := rfl
@[simp] theorem setEmu_motRec (s : State) (m : Nat) (x : EmuSt) : (setEmu s m x).motRec = s.motRec := rfl
@[simp] theorem setEmu_camPend (s : State) (m : Nat) (x : EmuSt) : (setEmu s m x).camPend = s.camPend := rfl
@[simp] theorem setEmu_stops (s : State) (m : Nat) (x : EmuSt) : (setEmu s m x).stops = s.stops := rfl
@[simp] theorem setEmu_commit (s : State) (m : Nat) (x : EmuSt) : (setEmu s m x).commit = s.commit := rfl
@[simp] theorem setEmu_lemac (s : State) (m : Nat) (x : EmuSt) : (setEmu s m x).lemac = s.lemac := rfl
@[simp] theorem setEmu_safeA (s : State) (m : Nat) (x : EmuSt) : (setEmu s m x).safeA = s.safeA := rfl
@[simp] theorem setEmu_safeB (s : State) (m : Nat) (x : EmuSt) : (setEmu s m x).safeB = s.safeB := rfl
@[simp] theorem setEmu_plants (s : State) (m : Nat) (x : EmuSt) : (setEmu s m x).plants = s.plants := rfl
@[simp] theorem setEmu_tts (s : State) (m : Nat) (x : EmuSt) : (setEmu s m x).tts = s.tts := rfl
@[simp] theorem setEmu_capts (s : State) (m : Nat) (x : EmuSt) : (setEmu s m x).capts = s.capts := rfl
@[simp] theorem setEmu_encs (s : State) (m : Nat) (x : EmuSt) : (setEmu s m x).encs = s.encs := rfl
@[simp] theorem setEmu_acq (s : State) (m : Nat) (x : EmuSt) : (setEmu s m x).acq = s.acq := rfl
@[simp] theorem setEmu_cans (s : State) (m : Nat) (x : EmuSt) : (setEmu s m x).cans = s.cans := rfl
@[simp] theorem setEmu_eyes (s : State) (m : Nat) (x : EmuSt) : (setEmu s m x).eyes = s.eyes := rfl
@[simp] theorem setEmu_wire (s : State) (m : Nat) (x : EmuSt) : (setEmu s m x).wire = s.wire := rfl
@[simp] theorem setEmu_resp (s : State) (m : Nat) (x : EmuSt) : (setEmu s m x).resp = s.resp := rfl
@[simp] theorem setEmu_freeIdx (s : State) (m : Nat) (x : EmuSt) : (setEmu s m x).freeIdx = s.freeIdx := rfl

@[simp] theorem setCapt_pending (s : State) (n : Nat) (x : CaptSt) : (setCapt s n x).pending = s.pending := rfl
@[simp] theorem setCapt_regs (s : State) (n : Nat) (x : CaptSt) : (setCapt s n x).regs = s.regs := rfl
@[simp] theorem setCapt_banked (s : State) (n : Nat) (x : CaptSt) : (setCapt s n x).banked = s.banked := rfl
@[simp] theorem setCapt_ctl (s : State) (n : Nat) (x : CaptSt) : (setCapt s n x).ctl = s.ctl := rfl
@[simp] theorem setCapt_mem (s : State) (n : Nat) (x : CaptSt) : (setCapt s n x).mem = s.mem := rfl
@[simp] theorem setCapt_pwr (s : State) (n : Nat) (x : CaptSt) : (setCapt s n x).pwr = s.pwr := rfl
@[simp] theorem setCapt_stalled (s : State) (n : Nat) (x : CaptSt) : (setCapt s n x).stalled = s.stalled := rfl
@[simp] theorem setCapt_mfault (s : State) (n : Nat) (x : CaptSt) : (setCapt s n x).mfault = s.mfault := rfl
@[simp] theorem setCapt_standby (s : State) (n : Nat) (x : CaptSt) : (setCapt s n x).standby = s.standby := rfl
@[simp] theorem setCapt_localTest (s : State) (n : Nat) (x : CaptSt) : (setCapt s n x).localTest = s.localTest := rfl
@[simp] theorem setCapt_surge (s : State) (n : Nat) (x : CaptSt) : (setCapt s n x).surge = s.surge := rfl
@[simp] theorem setCapt_ao (s : State) (n : Nat) (x : CaptSt) : (setCapt s n x).ao = s.ao := rfl
@[simp] theorem setCapt_boot (s : State) (n : Nat) (x : CaptSt) : (setCapt s n x).boot = s.boot := rfl
@[simp] theorem setCapt_tests (s : State) (n : Nat) (x : CaptSt) : (setCapt s n x).tests = s.tests := rfl
@[simp] theorem setCapt_lockSeq (s : State) (n : Nat) (x : CaptSt) : (setCapt s n x).lockSeq = s.lockSeq := rfl
@[simp] theorem setCapt_cist (s : State) (n : Nat) (x : CaptSt) : (setCapt s n x).cist = s.cist := rfl
@[simp] theorem setCapt_casPend (s : State) (n : Nat) (x : CaptSt) : (setCapt s n x).casPend = s.casPend := rfl
@[simp] theorem setCapt_snapRun (s : State) (n : Nat) (x : CaptSt) : (setCapt s n x).snapRun = s.snapRun := rfl
@[simp] theorem setCapt_snapLatch (s : State) (n : Nat) (x : CaptSt) : (setCapt s n x).snapLatch = s.snapLatch := rfl
@[simp] theorem setCapt_dma (s : State) (n : Nat) (x : CaptSt) : (setCapt s n x).dma = s.dma := rfl
@[simp] theorem setCapt_time (s : State) (n : Nat) (x : CaptSt) : (setCapt s n x).time = s.time := rfl
@[simp] theorem setCapt_field (s : State) (n : Nat) (x : CaptSt) : (setCapt s n x).field = s.field := rfl
@[simp] theorem setCapt_safe (s : State) (n : Nat) (x : CaptSt) : (setCapt s n x).safe = s.safe := rfl
@[simp] theorem setCapt_pair (s : State) (n : Nat) (x : CaptSt) : (setCapt s n x).pair = s.pair := rfl
@[simp] theorem setCapt_bridge (s : State) (n : Nat) (x : CaptSt) : (setCapt s n x).bridge = s.bridge := rfl
@[simp] theorem setCapt_sched (s : State) (n : Nat) (x : CaptSt) : (setCapt s n x).sched = s.sched := rfl
@[simp] theorem setCapt_engs (s : State) (n : Nat) (x : CaptSt) : (setCapt s n x).engs = s.engs := rfl
@[simp] theorem setCapt_axes (s : State) (n : Nat) (x : CaptSt) : (setCapt s n x).axes = s.axes := rfl
@[simp] theorem setCapt_mots (s : State) (n : Nat) (x : CaptSt) : (setCapt s n x).mots = s.mots := rfl
@[simp] theorem setCapt_motRec (s : State) (n : Nat) (x : CaptSt) : (setCapt s n x).motRec = s.motRec := rfl
@[simp] theorem setCapt_camPend (s : State) (n : Nat) (x : CaptSt) : (setCapt s n x).camPend = s.camPend := rfl
@[simp] theorem setCapt_stops (s : State) (n : Nat) (x : CaptSt) : (setCapt s n x).stops = s.stops := rfl
@[simp] theorem setCapt_commit (s : State) (n : Nat) (x : CaptSt) : (setCapt s n x).commit = s.commit := rfl
@[simp] theorem setCapt_lemac (s : State) (n : Nat) (x : CaptSt) : (setCapt s n x).lemac = s.lemac := rfl
@[simp] theorem setCapt_safeA (s : State) (n : Nat) (x : CaptSt) : (setCapt s n x).safeA = s.safeA := rfl
@[simp] theorem setCapt_safeB (s : State) (n : Nat) (x : CaptSt) : (setCapt s n x).safeB = s.safeB := rfl
@[simp] theorem setCapt_plants (s : State) (n : Nat) (x : CaptSt) : (setCapt s n x).plants = s.plants := rfl
@[simp] theorem setCapt_tts (s : State) (n : Nat) (x : CaptSt) : (setCapt s n x).tts = s.tts := rfl
@[simp] theorem setCapt_encs (s : State) (n : Nat) (x : CaptSt) : (setCapt s n x).encs = s.encs := rfl
@[simp] theorem setCapt_emus (s : State) (n : Nat) (x : CaptSt) : (setCapt s n x).emus = s.emus := rfl
@[simp] theorem setCapt_acq (s : State) (n : Nat) (x : CaptSt) : (setCapt s n x).acq = s.acq := rfl
@[simp] theorem setCapt_cans (s : State) (n : Nat) (x : CaptSt) : (setCapt s n x).cans = s.cans := rfl
@[simp] theorem setCapt_eyes (s : State) (n : Nat) (x : CaptSt) : (setCapt s n x).eyes = s.eyes := rfl
@[simp] theorem setCapt_wire (s : State) (n : Nat) (x : CaptSt) : (setCapt s n x).wire = s.wire := rfl
@[simp] theorem setCapt_resp (s : State) (n : Nat) (x : CaptSt) : (setCapt s n x).resp = s.resp := rfl
@[simp] theorem setCapt_freeIdx (s : State) (n : Nat) (x : CaptSt) : (setCapt s n x).freeIdx = s.freeIdx := rfl

@[simp] theorem setPlant_pending (s : State) (n : Nat) (x : PlantSt) : (setPlant s n x).pending = s.pending := rfl
@[simp] theorem setPlant_regs (s : State) (n : Nat) (x : PlantSt) : (setPlant s n x).regs = s.regs := rfl
@[simp] theorem setPlant_banked (s : State) (n : Nat) (x : PlantSt) : (setPlant s n x).banked = s.banked := rfl
@[simp] theorem setPlant_ctl (s : State) (n : Nat) (x : PlantSt) : (setPlant s n x).ctl = s.ctl := rfl
@[simp] theorem setPlant_mem (s : State) (n : Nat) (x : PlantSt) : (setPlant s n x).mem = s.mem := rfl
@[simp] theorem setPlant_pwr (s : State) (n : Nat) (x : PlantSt) : (setPlant s n x).pwr = s.pwr := rfl
@[simp] theorem setPlant_stalled (s : State) (n : Nat) (x : PlantSt) : (setPlant s n x).stalled = s.stalled := rfl
@[simp] theorem setPlant_mfault (s : State) (n : Nat) (x : PlantSt) : (setPlant s n x).mfault = s.mfault := rfl
@[simp] theorem setPlant_standby (s : State) (n : Nat) (x : PlantSt) : (setPlant s n x).standby = s.standby := rfl
@[simp] theorem setPlant_localTest (s : State) (n : Nat) (x : PlantSt) : (setPlant s n x).localTest = s.localTest := rfl
@[simp] theorem setPlant_surge (s : State) (n : Nat) (x : PlantSt) : (setPlant s n x).surge = s.surge := rfl
@[simp] theorem setPlant_ao (s : State) (n : Nat) (x : PlantSt) : (setPlant s n x).ao = s.ao := rfl
@[simp] theorem setPlant_boot (s : State) (n : Nat) (x : PlantSt) : (setPlant s n x).boot = s.boot := rfl
@[simp] theorem setPlant_tests (s : State) (n : Nat) (x : PlantSt) : (setPlant s n x).tests = s.tests := rfl
@[simp] theorem setPlant_lockSeq (s : State) (n : Nat) (x : PlantSt) : (setPlant s n x).lockSeq = s.lockSeq := rfl
@[simp] theorem setPlant_cist (s : State) (n : Nat) (x : PlantSt) : (setPlant s n x).cist = s.cist := rfl
@[simp] theorem setPlant_casPend (s : State) (n : Nat) (x : PlantSt) : (setPlant s n x).casPend = s.casPend := rfl
@[simp] theorem setPlant_snapRun (s : State) (n : Nat) (x : PlantSt) : (setPlant s n x).snapRun = s.snapRun := rfl
@[simp] theorem setPlant_snapLatch (s : State) (n : Nat) (x : PlantSt) : (setPlant s n x).snapLatch = s.snapLatch := rfl
@[simp] theorem setPlant_dma (s : State) (n : Nat) (x : PlantSt) : (setPlant s n x).dma = s.dma := rfl
@[simp] theorem setPlant_time (s : State) (n : Nat) (x : PlantSt) : (setPlant s n x).time = s.time := rfl
@[simp] theorem setPlant_field (s : State) (n : Nat) (x : PlantSt) : (setPlant s n x).field = s.field := rfl
@[simp] theorem setPlant_safe (s : State) (n : Nat) (x : PlantSt) : (setPlant s n x).safe = s.safe := rfl
@[simp] theorem setPlant_pair (s : State) (n : Nat) (x : PlantSt) : (setPlant s n x).pair = s.pair := rfl
@[simp] theorem setPlant_bridge (s : State) (n : Nat) (x : PlantSt) : (setPlant s n x).bridge = s.bridge := rfl
@[simp] theorem setPlant_sched (s : State) (n : Nat) (x : PlantSt) : (setPlant s n x).sched = s.sched := rfl
@[simp] theorem setPlant_engs (s : State) (n : Nat) (x : PlantSt) : (setPlant s n x).engs = s.engs := rfl
@[simp] theorem setPlant_axes (s : State) (n : Nat) (x : PlantSt) : (setPlant s n x).axes = s.axes := rfl
@[simp] theorem setPlant_mots (s : State) (n : Nat) (x : PlantSt) : (setPlant s n x).mots = s.mots := rfl
@[simp] theorem setPlant_motRec (s : State) (n : Nat) (x : PlantSt) : (setPlant s n x).motRec = s.motRec := rfl
@[simp] theorem setPlant_camPend (s : State) (n : Nat) (x : PlantSt) : (setPlant s n x).camPend = s.camPend := rfl
@[simp] theorem setPlant_stops (s : State) (n : Nat) (x : PlantSt) : (setPlant s n x).stops = s.stops := rfl
@[simp] theorem setPlant_commit (s : State) (n : Nat) (x : PlantSt) : (setPlant s n x).commit = s.commit := rfl
@[simp] theorem setPlant_lemac (s : State) (n : Nat) (x : PlantSt) : (setPlant s n x).lemac = s.lemac := rfl
@[simp] theorem setPlant_safeA (s : State) (n : Nat) (x : PlantSt) : (setPlant s n x).safeA = s.safeA := rfl
@[simp] theorem setPlant_safeB (s : State) (n : Nat) (x : PlantSt) : (setPlant s n x).safeB = s.safeB := rfl
@[simp] theorem setPlant_tts (s : State) (n : Nat) (x : PlantSt) : (setPlant s n x).tts = s.tts := rfl
@[simp] theorem setPlant_capts (s : State) (n : Nat) (x : PlantSt) : (setPlant s n x).capts = s.capts := rfl
@[simp] theorem setPlant_encs (s : State) (n : Nat) (x : PlantSt) : (setPlant s n x).encs = s.encs := rfl
@[simp] theorem setPlant_emus (s : State) (n : Nat) (x : PlantSt) : (setPlant s n x).emus = s.emus := rfl
@[simp] theorem setPlant_acq (s : State) (n : Nat) (x : PlantSt) : (setPlant s n x).acq = s.acq := rfl
@[simp] theorem setPlant_cans (s : State) (n : Nat) (x : PlantSt) : (setPlant s n x).cans = s.cans := rfl
@[simp] theorem setPlant_eyes (s : State) (n : Nat) (x : PlantSt) : (setPlant s n x).eyes = s.eyes := rfl
@[simp] theorem setPlant_wire (s : State) (n : Nat) (x : PlantSt) : (setPlant s n x).wire = s.wire := rfl
@[simp] theorem setPlant_resp (s : State) (n : Nat) (x : PlantSt) : (setPlant s n x).resp = s.resp := rfl
@[simp] theorem setPlant_freeIdx (s : State) (n : Nat) (x : PlantSt) : (setPlant s n x).freeIdx = s.freeIdx := rfl

@[simp] theorem setChan_pending (s : State) (b : Bool) (x : Chan) : (setChan s b x).pending = s.pending := rfl
@[simp] theorem setChan_regs (s : State) (b : Bool) (x : Chan) : (setChan s b x).regs = s.regs := rfl
@[simp] theorem setChan_banked (s : State) (b : Bool) (x : Chan) : (setChan s b x).banked = s.banked := rfl
@[simp] theorem setChan_ctl (s : State) (b : Bool) (x : Chan) : (setChan s b x).ctl = s.ctl := rfl
@[simp] theorem setChan_mem (s : State) (b : Bool) (x : Chan) : (setChan s b x).mem = s.mem := rfl
@[simp] theorem setChan_pwr (s : State) (b : Bool) (x : Chan) : (setChan s b x).pwr = s.pwr := rfl
@[simp] theorem setChan_stalled (s : State) (b : Bool) (x : Chan) : (setChan s b x).stalled = s.stalled := rfl
@[simp] theorem setChan_mfault (s : State) (b : Bool) (x : Chan) : (setChan s b x).mfault = s.mfault := rfl
@[simp] theorem setChan_standby (s : State) (b : Bool) (x : Chan) : (setChan s b x).standby = s.standby := rfl
@[simp] theorem setChan_localTest (s : State) (b : Bool) (x : Chan) : (setChan s b x).localTest = s.localTest := rfl
@[simp] theorem setChan_surge (s : State) (b : Bool) (x : Chan) : (setChan s b x).surge = s.surge := rfl
@[simp] theorem setChan_ao (s : State) (b : Bool) (x : Chan) : (setChan s b x).ao = s.ao := rfl
@[simp] theorem setChan_boot (s : State) (b : Bool) (x : Chan) : (setChan s b x).boot = s.boot := rfl
@[simp] theorem setChan_tests (s : State) (b : Bool) (x : Chan) : (setChan s b x).tests = s.tests := rfl
@[simp] theorem setChan_lockSeq (s : State) (b : Bool) (x : Chan) : (setChan s b x).lockSeq = s.lockSeq := rfl
@[simp] theorem setChan_cist (s : State) (b : Bool) (x : Chan) : (setChan s b x).cist = s.cist := rfl
@[simp] theorem setChan_casPend (s : State) (b : Bool) (x : Chan) : (setChan s b x).casPend = s.casPend := rfl
@[simp] theorem setChan_snapRun (s : State) (b : Bool) (x : Chan) : (setChan s b x).snapRun = s.snapRun := rfl
@[simp] theorem setChan_snapLatch (s : State) (b : Bool) (x : Chan) : (setChan s b x).snapLatch = s.snapLatch := rfl
@[simp] theorem setChan_dma (s : State) (b : Bool) (x : Chan) : (setChan s b x).dma = s.dma := rfl
@[simp] theorem setChan_time (s : State) (b : Bool) (x : Chan) : (setChan s b x).time = s.time := rfl
@[simp] theorem setChan_field (s : State) (b : Bool) (x : Chan) : (setChan s b x).field = s.field := rfl
@[simp] theorem setChan_pair (s : State) (b : Bool) (x : Chan) : (setChan s b x).pair = s.pair := rfl
@[simp] theorem setChan_bridge (s : State) (b : Bool) (x : Chan) : (setChan s b x).bridge = s.bridge := rfl
@[simp] theorem setChan_sched (s : State) (b : Bool) (x : Chan) : (setChan s b x).sched = s.sched := rfl
@[simp] theorem setChan_engs (s : State) (b : Bool) (x : Chan) : (setChan s b x).engs = s.engs := rfl
@[simp] theorem setChan_axes (s : State) (b : Bool) (x : Chan) : (setChan s b x).axes = s.axes := rfl
@[simp] theorem setChan_mots (s : State) (b : Bool) (x : Chan) : (setChan s b x).mots = s.mots := rfl
@[simp] theorem setChan_motRec (s : State) (b : Bool) (x : Chan) : (setChan s b x).motRec = s.motRec := rfl
@[simp] theorem setChan_camPend (s : State) (b : Bool) (x : Chan) : (setChan s b x).camPend = s.camPend := rfl
@[simp] theorem setChan_stops (s : State) (b : Bool) (x : Chan) : (setChan s b x).stops = s.stops := rfl
@[simp] theorem setChan_commit (s : State) (b : Bool) (x : Chan) : (setChan s b x).commit = s.commit := rfl
@[simp] theorem setChan_lemac (s : State) (b : Bool) (x : Chan) : (setChan s b x).lemac = s.lemac := rfl
@[simp] theorem setChan_safeA (s : State) (b : Bool) (x : Chan) : (setChan s b x).safeA = s.safeA := rfl
@[simp] theorem setChan_safeB (s : State) (b : Bool) (x : Chan) : (setChan s b x).safeB = s.safeB := rfl
@[simp] theorem setChan_plants (s : State) (b : Bool) (x : Chan) : (setChan s b x).plants = s.plants := rfl
@[simp] theorem setChan_tts (s : State) (b : Bool) (x : Chan) : (setChan s b x).tts = s.tts := rfl
@[simp] theorem setChan_capts (s : State) (b : Bool) (x : Chan) : (setChan s b x).capts = s.capts := rfl
@[simp] theorem setChan_encs (s : State) (b : Bool) (x : Chan) : (setChan s b x).encs = s.encs := rfl
@[simp] theorem setChan_emus (s : State) (b : Bool) (x : Chan) : (setChan s b x).emus = s.emus := rfl
@[simp] theorem setChan_acq (s : State) (b : Bool) (x : Chan) : (setChan s b x).acq = s.acq := rfl
@[simp] theorem setChan_cans (s : State) (b : Bool) (x : Chan) : (setChan s b x).cans = s.cans := rfl
@[simp] theorem setChan_eyes (s : State) (b : Bool) (x : Chan) : (setChan s b x).eyes = s.eyes := rfl
@[simp] theorem setChan_wire (s : State) (b : Bool) (x : Chan) : (setChan s b x).wire = s.wire := rfl
@[simp] theorem setChan_resp (s : State) (b : Bool) (x : Chan) : (setChan s b x).resp = s.resp := rfl
@[simp] theorem setChan_freeIdx (s : State) (b : Bool) (x : Chan) : (setChan s b x).freeIdx = s.freeIdx := rfl

@[simp] theorem setBlk_pending (s : State) (b : Nat) (x : BlkOwn) : (setBlk s b x).pending = s.pending := rfl
@[simp] theorem setBlk_regs (s : State) (b : Nat) (x : BlkOwn) : (setBlk s b x).regs = s.regs := rfl
@[simp] theorem setBlk_banked (s : State) (b : Nat) (x : BlkOwn) : (setBlk s b x).banked = s.banked := rfl
@[simp] theorem setBlk_ctl (s : State) (b : Nat) (x : BlkOwn) : (setBlk s b x).ctl = s.ctl := rfl
@[simp] theorem setBlk_mem (s : State) (b : Nat) (x : BlkOwn) : (setBlk s b x).mem = s.mem := rfl
@[simp] theorem setBlk_pwr (s : State) (b : Nat) (x : BlkOwn) : (setBlk s b x).pwr = s.pwr := rfl
@[simp] theorem setBlk_stalled (s : State) (b : Nat) (x : BlkOwn) : (setBlk s b x).stalled = s.stalled := rfl
@[simp] theorem setBlk_mfault (s : State) (b : Nat) (x : BlkOwn) : (setBlk s b x).mfault = s.mfault := rfl
@[simp] theorem setBlk_standby (s : State) (b : Nat) (x : BlkOwn) : (setBlk s b x).standby = s.standby := rfl
@[simp] theorem setBlk_localTest (s : State) (b : Nat) (x : BlkOwn) : (setBlk s b x).localTest = s.localTest := rfl
@[simp] theorem setBlk_surge (s : State) (b : Nat) (x : BlkOwn) : (setBlk s b x).surge = s.surge := rfl
@[simp] theorem setBlk_ao (s : State) (b : Nat) (x : BlkOwn) : (setBlk s b x).ao = s.ao := rfl
@[simp] theorem setBlk_boot (s : State) (b : Nat) (x : BlkOwn) : (setBlk s b x).boot = s.boot := rfl
@[simp] theorem setBlk_tests (s : State) (b : Nat) (x : BlkOwn) : (setBlk s b x).tests = s.tests := rfl
@[simp] theorem setBlk_lockSeq (s : State) (b : Nat) (x : BlkOwn) : (setBlk s b x).lockSeq = s.lockSeq := rfl
@[simp] theorem setBlk_casPend (s : State) (b : Nat) (x : BlkOwn) : (setBlk s b x).casPend = s.casPend := rfl
@[simp] theorem setBlk_snapRun (s : State) (b : Nat) (x : BlkOwn) : (setBlk s b x).snapRun = s.snapRun := rfl
@[simp] theorem setBlk_snapLatch (s : State) (b : Nat) (x : BlkOwn) : (setBlk s b x).snapLatch = s.snapLatch := rfl
@[simp] theorem setBlk_dma (s : State) (b : Nat) (x : BlkOwn) : (setBlk s b x).dma = s.dma := rfl
@[simp] theorem setBlk_time (s : State) (b : Nat) (x : BlkOwn) : (setBlk s b x).time = s.time := rfl
@[simp] theorem setBlk_field (s : State) (b : Nat) (x : BlkOwn) : (setBlk s b x).field = s.field := rfl
@[simp] theorem setBlk_safe (s : State) (b : Nat) (x : BlkOwn) : (setBlk s b x).safe = s.safe := rfl
@[simp] theorem setBlk_pair (s : State) (b : Nat) (x : BlkOwn) : (setBlk s b x).pair = s.pair := rfl
@[simp] theorem setBlk_bridge (s : State) (b : Nat) (x : BlkOwn) : (setBlk s b x).bridge = s.bridge := rfl
@[simp] theorem setBlk_sched (s : State) (b : Nat) (x : BlkOwn) : (setBlk s b x).sched = s.sched := rfl
@[simp] theorem setBlk_engs (s : State) (b : Nat) (x : BlkOwn) : (setBlk s b x).engs = s.engs := rfl
@[simp] theorem setBlk_axes (s : State) (b : Nat) (x : BlkOwn) : (setBlk s b x).axes = s.axes := rfl
@[simp] theorem setBlk_mots (s : State) (b : Nat) (x : BlkOwn) : (setBlk s b x).mots = s.mots := rfl
@[simp] theorem setBlk_motRec (s : State) (b : Nat) (x : BlkOwn) : (setBlk s b x).motRec = s.motRec := rfl
@[simp] theorem setBlk_camPend (s : State) (b : Nat) (x : BlkOwn) : (setBlk s b x).camPend = s.camPend := rfl
@[simp] theorem setBlk_stops (s : State) (b : Nat) (x : BlkOwn) : (setBlk s b x).stops = s.stops := rfl
@[simp] theorem setBlk_commit (s : State) (b : Nat) (x : BlkOwn) : (setBlk s b x).commit = s.commit := rfl
@[simp] theorem setBlk_lemac (s : State) (b : Nat) (x : BlkOwn) : (setBlk s b x).lemac = s.lemac := rfl
@[simp] theorem setBlk_safeA (s : State) (b : Nat) (x : BlkOwn) : (setBlk s b x).safeA = s.safeA := rfl
@[simp] theorem setBlk_safeB (s : State) (b : Nat) (x : BlkOwn) : (setBlk s b x).safeB = s.safeB := rfl
@[simp] theorem setBlk_plants (s : State) (b : Nat) (x : BlkOwn) : (setBlk s b x).plants = s.plants := rfl
@[simp] theorem setBlk_tts (s : State) (b : Nat) (x : BlkOwn) : (setBlk s b x).tts = s.tts := rfl
@[simp] theorem setBlk_capts (s : State) (b : Nat) (x : BlkOwn) : (setBlk s b x).capts = s.capts := rfl
@[simp] theorem setBlk_encs (s : State) (b : Nat) (x : BlkOwn) : (setBlk s b x).encs = s.encs := rfl
@[simp] theorem setBlk_emus (s : State) (b : Nat) (x : BlkOwn) : (setBlk s b x).emus = s.emus := rfl
@[simp] theorem setBlk_acq (s : State) (b : Nat) (x : BlkOwn) : (setBlk s b x).acq = s.acq := rfl
@[simp] theorem setBlk_cans (s : State) (b : Nat) (x : BlkOwn) : (setBlk s b x).cans = s.cans := rfl
@[simp] theorem setBlk_eyes (s : State) (b : Nat) (x : BlkOwn) : (setBlk s b x).eyes = s.eyes := rfl
@[simp] theorem setBlk_wire (s : State) (b : Nat) (x : BlkOwn) : (setBlk s b x).wire = s.wire := rfl
@[simp] theorem setBlk_resp (s : State) (b : Nat) (x : BlkOwn) : (setBlk s b x).resp = s.resp := rfl
@[simp] theorem setBlk_freeIdx (s : State) (b : Nat) (x : BlkOwn) : (setBlk s b x).freeIdx = s.freeIdx := rfl

@[simp] theorem setFloat_pending (s : State) (b new : Nat) (priv : Bool) : (setFloat s b new priv).pending = s.pending := rfl
@[simp] theorem setFloat_regs (s : State) (b new : Nat) (priv : Bool) : (setFloat s b new priv).regs = s.regs := rfl
@[simp] theorem setFloat_banked (s : State) (b new : Nat) (priv : Bool) : (setFloat s b new priv).banked = s.banked := rfl
@[simp] theorem setFloat_ctl (s : State) (b new : Nat) (priv : Bool) : (setFloat s b new priv).ctl = s.ctl := rfl
@[simp] theorem setFloat_mem (s : State) (b new : Nat) (priv : Bool) : (setFloat s b new priv).mem = s.mem := rfl
@[simp] theorem setFloat_pwr (s : State) (b new : Nat) (priv : Bool) : (setFloat s b new priv).pwr = s.pwr := rfl
@[simp] theorem setFloat_stalled (s : State) (b new : Nat) (priv : Bool) : (setFloat s b new priv).stalled = s.stalled := rfl
@[simp] theorem setFloat_mfault (s : State) (b new : Nat) (priv : Bool) : (setFloat s b new priv).mfault = s.mfault := rfl
@[simp] theorem setFloat_standby (s : State) (b new : Nat) (priv : Bool) : (setFloat s b new priv).standby = s.standby := rfl
@[simp] theorem setFloat_localTest (s : State) (b new : Nat) (priv : Bool) : (setFloat s b new priv).localTest = s.localTest := rfl
@[simp] theorem setFloat_surge (s : State) (b new : Nat) (priv : Bool) : (setFloat s b new priv).surge = s.surge := rfl
@[simp] theorem setFloat_ao (s : State) (b new : Nat) (priv : Bool) : (setFloat s b new priv).ao = s.ao := rfl
@[simp] theorem setFloat_boot (s : State) (b new : Nat) (priv : Bool) : (setFloat s b new priv).boot = s.boot := rfl
@[simp] theorem setFloat_tests (s : State) (b new : Nat) (priv : Bool) : (setFloat s b new priv).tests = s.tests := rfl
@[simp] theorem setFloat_lockSeq (s : State) (b new : Nat) (priv : Bool) : (setFloat s b new priv).lockSeq = s.lockSeq := rfl
@[simp] theorem setFloat_casPend (s : State) (b new : Nat) (priv : Bool) : (setFloat s b new priv).casPend = s.casPend := rfl
@[simp] theorem setFloat_snapRun (s : State) (b new : Nat) (priv : Bool) : (setFloat s b new priv).snapRun = s.snapRun := rfl
@[simp] theorem setFloat_snapLatch (s : State) (b new : Nat) (priv : Bool) : (setFloat s b new priv).snapLatch = s.snapLatch := rfl
@[simp] theorem setFloat_dma (s : State) (b new : Nat) (priv : Bool) : (setFloat s b new priv).dma = s.dma := rfl
@[simp] theorem setFloat_time (s : State) (b new : Nat) (priv : Bool) : (setFloat s b new priv).time = s.time := rfl
@[simp] theorem setFloat_field (s : State) (b new : Nat) (priv : Bool) : (setFloat s b new priv).field = s.field := rfl
@[simp] theorem setFloat_safe (s : State) (b new : Nat) (priv : Bool) : (setFloat s b new priv).safe = s.safe := rfl
@[simp] theorem setFloat_pair (s : State) (b new : Nat) (priv : Bool) : (setFloat s b new priv).pair = s.pair := rfl
@[simp] theorem setFloat_bridge (s : State) (b new : Nat) (priv : Bool) : (setFloat s b new priv).bridge = s.bridge := rfl
@[simp] theorem setFloat_sched (s : State) (b new : Nat) (priv : Bool) : (setFloat s b new priv).sched = s.sched := rfl
@[simp] theorem setFloat_engs (s : State) (b new : Nat) (priv : Bool) : (setFloat s b new priv).engs = s.engs := rfl
@[simp] theorem setFloat_axes (s : State) (b new : Nat) (priv : Bool) : (setFloat s b new priv).axes = s.axes := rfl
@[simp] theorem setFloat_mots (s : State) (b new : Nat) (priv : Bool) : (setFloat s b new priv).mots = s.mots := rfl
@[simp] theorem setFloat_motRec (s : State) (b new : Nat) (priv : Bool) : (setFloat s b new priv).motRec = s.motRec := rfl
@[simp] theorem setFloat_camPend (s : State) (b new : Nat) (priv : Bool) : (setFloat s b new priv).camPend = s.camPend := rfl
@[simp] theorem setFloat_stops (s : State) (b new : Nat) (priv : Bool) : (setFloat s b new priv).stops = s.stops := rfl
@[simp] theorem setFloat_commit (s : State) (b new : Nat) (priv : Bool) : (setFloat s b new priv).commit = s.commit := rfl
@[simp] theorem setFloat_lemac (s : State) (b new : Nat) (priv : Bool) : (setFloat s b new priv).lemac = s.lemac := rfl
@[simp] theorem setFloat_safeA (s : State) (b new : Nat) (priv : Bool) : (setFloat s b new priv).safeA = s.safeA := rfl
@[simp] theorem setFloat_safeB (s : State) (b new : Nat) (priv : Bool) : (setFloat s b new priv).safeB = s.safeB := rfl
@[simp] theorem setFloat_plants (s : State) (b new : Nat) (priv : Bool) : (setFloat s b new priv).plants = s.plants := rfl
@[simp] theorem setFloat_tts (s : State) (b new : Nat) (priv : Bool) : (setFloat s b new priv).tts = s.tts := rfl
@[simp] theorem setFloat_capts (s : State) (b new : Nat) (priv : Bool) : (setFloat s b new priv).capts = s.capts := rfl
@[simp] theorem setFloat_encs (s : State) (b new : Nat) (priv : Bool) : (setFloat s b new priv).encs = s.encs := rfl
@[simp] theorem setFloat_emus (s : State) (b new : Nat) (priv : Bool) : (setFloat s b new priv).emus = s.emus := rfl
@[simp] theorem setFloat_acq (s : State) (b new : Nat) (priv : Bool) : (setFloat s b new priv).acq = s.acq := rfl
@[simp] theorem setFloat_cans (s : State) (b new : Nat) (priv : Bool) : (setFloat s b new priv).cans = s.cans := rfl
@[simp] theorem setFloat_eyes (s : State) (b new : Nat) (priv : Bool) : (setFloat s b new priv).eyes = s.eyes := rfl
@[simp] theorem setFloat_wire (s : State) (b new : Nat) (priv : Bool) : (setFloat s b new priv).wire = s.wire := rfl
@[simp] theorem setFloat_resp (s : State) (b new : Nat) (priv : Bool) : (setFloat s b new priv).resp = s.resp := rfl
@[simp] theorem setFloat_freeIdx (s : State) (b new : Nat) (priv : Bool) : (setFloat s b new priv).freeIdx = s.freeIdx := rfl

@[simp] theorem setAcqState_pending (s : State) (n : Nat) : (setAcqState s n).pending = s.pending := rfl
@[simp] theorem setAcqState_banked (s : State) (n : Nat) : (setAcqState s n).banked = s.banked := rfl
@[simp] theorem setAcqState_ctl (s : State) (n : Nat) : (setAcqState s n).ctl = s.ctl := rfl
@[simp] theorem setAcqState_mem (s : State) (n : Nat) : (setAcqState s n).mem = s.mem := rfl
@[simp] theorem setAcqState_pwr (s : State) (n : Nat) : (setAcqState s n).pwr = s.pwr := rfl
@[simp] theorem setAcqState_stalled (s : State) (n : Nat) : (setAcqState s n).stalled = s.stalled := rfl
@[simp] theorem setAcqState_mfault (s : State) (n : Nat) : (setAcqState s n).mfault = s.mfault := rfl
@[simp] theorem setAcqState_standby (s : State) (n : Nat) : (setAcqState s n).standby = s.standby := rfl
@[simp] theorem setAcqState_localTest (s : State) (n : Nat) : (setAcqState s n).localTest = s.localTest := rfl
@[simp] theorem setAcqState_surge (s : State) (n : Nat) : (setAcqState s n).surge = s.surge := rfl
@[simp] theorem setAcqState_ao (s : State) (n : Nat) : (setAcqState s n).ao = s.ao := rfl
@[simp] theorem setAcqState_boot (s : State) (n : Nat) : (setAcqState s n).boot = s.boot := rfl
@[simp] theorem setAcqState_tests (s : State) (n : Nat) : (setAcqState s n).tests = s.tests := rfl
@[simp] theorem setAcqState_lockSeq (s : State) (n : Nat) : (setAcqState s n).lockSeq = s.lockSeq := rfl
@[simp] theorem setAcqState_cist (s : State) (n : Nat) : (setAcqState s n).cist = s.cist := rfl
@[simp] theorem setAcqState_casPend (s : State) (n : Nat) : (setAcqState s n).casPend = s.casPend := rfl
@[simp] theorem setAcqState_snapRun (s : State) (n : Nat) : (setAcqState s n).snapRun = s.snapRun := rfl
@[simp] theorem setAcqState_snapLatch (s : State) (n : Nat) : (setAcqState s n).snapLatch = s.snapLatch := rfl
@[simp] theorem setAcqState_dma (s : State) (n : Nat) : (setAcqState s n).dma = s.dma := rfl
@[simp] theorem setAcqState_time (s : State) (n : Nat) : (setAcqState s n).time = s.time := rfl
@[simp] theorem setAcqState_field (s : State) (n : Nat) : (setAcqState s n).field = s.field := rfl
@[simp] theorem setAcqState_safe (s : State) (n : Nat) : (setAcqState s n).safe = s.safe := rfl
@[simp] theorem setAcqState_pair (s : State) (n : Nat) : (setAcqState s n).pair = s.pair := rfl
@[simp] theorem setAcqState_bridge (s : State) (n : Nat) : (setAcqState s n).bridge = s.bridge := rfl
@[simp] theorem setAcqState_sched (s : State) (n : Nat) : (setAcqState s n).sched = s.sched := rfl
@[simp] theorem setAcqState_engs (s : State) (n : Nat) : (setAcqState s n).engs = s.engs := rfl
@[simp] theorem setAcqState_axes (s : State) (n : Nat) : (setAcqState s n).axes = s.axes := rfl
@[simp] theorem setAcqState_mots (s : State) (n : Nat) : (setAcqState s n).mots = s.mots := rfl
@[simp] theorem setAcqState_motRec (s : State) (n : Nat) : (setAcqState s n).motRec = s.motRec := rfl
@[simp] theorem setAcqState_camPend (s : State) (n : Nat) : (setAcqState s n).camPend = s.camPend := rfl
@[simp] theorem setAcqState_stops (s : State) (n : Nat) : (setAcqState s n).stops = s.stops := rfl
@[simp] theorem setAcqState_commit (s : State) (n : Nat) : (setAcqState s n).commit = s.commit := rfl
@[simp] theorem setAcqState_lemac (s : State) (n : Nat) : (setAcqState s n).lemac = s.lemac := rfl
@[simp] theorem setAcqState_safeA (s : State) (n : Nat) : (setAcqState s n).safeA = s.safeA := rfl
@[simp] theorem setAcqState_safeB (s : State) (n : Nat) : (setAcqState s n).safeB = s.safeB := rfl
@[simp] theorem setAcqState_plants (s : State) (n : Nat) : (setAcqState s n).plants = s.plants := rfl
@[simp] theorem setAcqState_tts (s : State) (n : Nat) : (setAcqState s n).tts = s.tts := rfl
@[simp] theorem setAcqState_capts (s : State) (n : Nat) : (setAcqState s n).capts = s.capts := rfl
@[simp] theorem setAcqState_encs (s : State) (n : Nat) : (setAcqState s n).encs = s.encs := rfl
@[simp] theorem setAcqState_emus (s : State) (n : Nat) : (setAcqState s n).emus = s.emus := rfl
@[simp] theorem setAcqState_acq (s : State) (n : Nat) : (setAcqState s n).acq = s.acq := rfl
@[simp] theorem setAcqState_cans (s : State) (n : Nat) : (setAcqState s n).cans = s.cans := rfl
@[simp] theorem setAcqState_eyes (s : State) (n : Nat) : (setAcqState s n).eyes = s.eyes := rfl
@[simp] theorem setAcqState_wire (s : State) (n : Nat) : (setAcqState s n).wire = s.wire := rfl
@[simp] theorem setAcqState_resp (s : State) (n : Nat) : (setAcqState s n).resp = s.resp := rfl
@[simp] theorem setAcqState_freeIdx (s : State) (n : Nat) : (setAcqState s n).freeIdx = s.freeIdx := rfl

@[simp] theorem setSeq_pending (s : State) (p : Nat) (v : Option (Nat × Nat)) : (setSeq s p v).pending = s.pending := rfl
@[simp] theorem setSeq_regs (s : State) (p : Nat) (v : Option (Nat × Nat)) : (setSeq s p v).regs = s.regs := rfl
@[simp] theorem setSeq_banked (s : State) (p : Nat) (v : Option (Nat × Nat)) : (setSeq s p v).banked = s.banked := rfl
@[simp] theorem setSeq_ctl (s : State) (p : Nat) (v : Option (Nat × Nat)) : (setSeq s p v).ctl = s.ctl := rfl
@[simp] theorem setSeq_mem (s : State) (p : Nat) (v : Option (Nat × Nat)) : (setSeq s p v).mem = s.mem := rfl
@[simp] theorem setSeq_pwr (s : State) (p : Nat) (v : Option (Nat × Nat)) : (setSeq s p v).pwr = s.pwr := rfl
@[simp] theorem setSeq_stalled (s : State) (p : Nat) (v : Option (Nat × Nat)) : (setSeq s p v).stalled = s.stalled := rfl
@[simp] theorem setSeq_mfault (s : State) (p : Nat) (v : Option (Nat × Nat)) : (setSeq s p v).mfault = s.mfault := rfl
@[simp] theorem setSeq_standby (s : State) (p : Nat) (v : Option (Nat × Nat)) : (setSeq s p v).standby = s.standby := rfl
@[simp] theorem setSeq_localTest (s : State) (p : Nat) (v : Option (Nat × Nat)) : (setSeq s p v).localTest = s.localTest := rfl
@[simp] theorem setSeq_surge (s : State) (p : Nat) (v : Option (Nat × Nat)) : (setSeq s p v).surge = s.surge := rfl
@[simp] theorem setSeq_ao (s : State) (p : Nat) (v : Option (Nat × Nat)) : (setSeq s p v).ao = s.ao := rfl
@[simp] theorem setSeq_boot (s : State) (p : Nat) (v : Option (Nat × Nat)) : (setSeq s p v).boot = s.boot := rfl
@[simp] theorem setSeq_tests (s : State) (p : Nat) (v : Option (Nat × Nat)) : (setSeq s p v).tests = s.tests := rfl
@[simp] theorem setSeq_cist (s : State) (p : Nat) (v : Option (Nat × Nat)) : (setSeq s p v).cist = s.cist := rfl
@[simp] theorem setSeq_casPend (s : State) (p : Nat) (v : Option (Nat × Nat)) : (setSeq s p v).casPend = s.casPend := rfl
@[simp] theorem setSeq_snapRun (s : State) (p : Nat) (v : Option (Nat × Nat)) : (setSeq s p v).snapRun = s.snapRun := rfl
@[simp] theorem setSeq_snapLatch (s : State) (p : Nat) (v : Option (Nat × Nat)) : (setSeq s p v).snapLatch = s.snapLatch := rfl
@[simp] theorem setSeq_dma (s : State) (p : Nat) (v : Option (Nat × Nat)) : (setSeq s p v).dma = s.dma := rfl
@[simp] theorem setSeq_time (s : State) (p : Nat) (v : Option (Nat × Nat)) : (setSeq s p v).time = s.time := rfl
@[simp] theorem setSeq_field (s : State) (p : Nat) (v : Option (Nat × Nat)) : (setSeq s p v).field = s.field := rfl
@[simp] theorem setSeq_safe (s : State) (p : Nat) (v : Option (Nat × Nat)) : (setSeq s p v).safe = s.safe := rfl
@[simp] theorem setSeq_pair (s : State) (p : Nat) (v : Option (Nat × Nat)) : (setSeq s p v).pair = s.pair := rfl
@[simp] theorem setSeq_bridge (s : State) (p : Nat) (v : Option (Nat × Nat)) : (setSeq s p v).bridge = s.bridge := rfl
@[simp] theorem setSeq_sched (s : State) (p : Nat) (v : Option (Nat × Nat)) : (setSeq s p v).sched = s.sched := rfl
@[simp] theorem setSeq_engs (s : State) (p : Nat) (v : Option (Nat × Nat)) : (setSeq s p v).engs = s.engs := rfl
@[simp] theorem setSeq_axes (s : State) (p : Nat) (v : Option (Nat × Nat)) : (setSeq s p v).axes = s.axes := rfl
@[simp] theorem setSeq_mots (s : State) (p : Nat) (v : Option (Nat × Nat)) : (setSeq s p v).mots = s.mots := rfl
@[simp] theorem setSeq_motRec (s : State) (p : Nat) (v : Option (Nat × Nat)) : (setSeq s p v).motRec = s.motRec := rfl
@[simp] theorem setSeq_camPend (s : State) (p : Nat) (v : Option (Nat × Nat)) : (setSeq s p v).camPend = s.camPend := rfl
@[simp] theorem setSeq_stops (s : State) (p : Nat) (v : Option (Nat × Nat)) : (setSeq s p v).stops = s.stops := rfl
@[simp] theorem setSeq_commit (s : State) (p : Nat) (v : Option (Nat × Nat)) : (setSeq s p v).commit = s.commit := rfl
@[simp] theorem setSeq_lemac (s : State) (p : Nat) (v : Option (Nat × Nat)) : (setSeq s p v).lemac = s.lemac := rfl
@[simp] theorem setSeq_safeA (s : State) (p : Nat) (v : Option (Nat × Nat)) : (setSeq s p v).safeA = s.safeA := rfl
@[simp] theorem setSeq_safeB (s : State) (p : Nat) (v : Option (Nat × Nat)) : (setSeq s p v).safeB = s.safeB := rfl
@[simp] theorem setSeq_plants (s : State) (p : Nat) (v : Option (Nat × Nat)) : (setSeq s p v).plants = s.plants := rfl
@[simp] theorem setSeq_tts (s : State) (p : Nat) (v : Option (Nat × Nat)) : (setSeq s p v).tts = s.tts := rfl
@[simp] theorem setSeq_capts (s : State) (p : Nat) (v : Option (Nat × Nat)) : (setSeq s p v).capts = s.capts := rfl
@[simp] theorem setSeq_encs (s : State) (p : Nat) (v : Option (Nat × Nat)) : (setSeq s p v).encs = s.encs := rfl
@[simp] theorem setSeq_emus (s : State) (p : Nat) (v : Option (Nat × Nat)) : (setSeq s p v).emus = s.emus := rfl
@[simp] theorem setSeq_acq (s : State) (p : Nat) (v : Option (Nat × Nat)) : (setSeq s p v).acq = s.acq := rfl
@[simp] theorem setSeq_cans (s : State) (p : Nat) (v : Option (Nat × Nat)) : (setSeq s p v).cans = s.cans := rfl
@[simp] theorem setSeq_eyes (s : State) (p : Nat) (v : Option (Nat × Nat)) : (setSeq s p v).eyes = s.eyes := rfl
@[simp] theorem setSeq_wire (s : State) (p : Nat) (v : Option (Nat × Nat)) : (setSeq s p v).wire = s.wire := rfl
@[simp] theorem setSeq_resp (s : State) (p : Nat) (v : Option (Nat × Nat)) : (setSeq s p v).resp = s.resp := rfl
@[simp] theorem setSeq_freeIdx (s : State) (p : Nat) (v : Option (Nat × Nat)) : (setSeq s p v).freeIdx = s.freeIdx := rfl

/-- `wrs` changes nothing but regs. -/
theorem wrs_shape (s : State) (l : List (Fld × Nat)) : wrs s l = { s with regs := (wrs s l).regs } := by
  unfold wrs
  induction l generalizing s with
  | nil => rfl
  | cons e r ih => rw [List.foldl_cons, ih]; rfl

@[simp] theorem wrs_pending (s : State) (l : List (Fld × Nat)) : (wrs s l).pending = s.pending := by rw [show wrs s l = _ from wrs_shape s l]
@[simp] theorem wrs_banked (s : State) (l : List (Fld × Nat)) : (wrs s l).banked = s.banked := by rw [show wrs s l = _ from wrs_shape s l]
@[simp] theorem wrs_ctl (s : State) (l : List (Fld × Nat)) : (wrs s l).ctl = s.ctl := by rw [show wrs s l = _ from wrs_shape s l]
@[simp] theorem wrs_mem (s : State) (l : List (Fld × Nat)) : (wrs s l).mem = s.mem := by rw [show wrs s l = _ from wrs_shape s l]
@[simp] theorem wrs_pwr (s : State) (l : List (Fld × Nat)) : (wrs s l).pwr = s.pwr := by rw [show wrs s l = _ from wrs_shape s l]
@[simp] theorem wrs_stalled (s : State) (l : List (Fld × Nat)) : (wrs s l).stalled = s.stalled := by rw [show wrs s l = _ from wrs_shape s l]
@[simp] theorem wrs_mfault (s : State) (l : List (Fld × Nat)) : (wrs s l).mfault = s.mfault := by rw [show wrs s l = _ from wrs_shape s l]
@[simp] theorem wrs_standby (s : State) (l : List (Fld × Nat)) : (wrs s l).standby = s.standby := by rw [show wrs s l = _ from wrs_shape s l]
@[simp] theorem wrs_localTest (s : State) (l : List (Fld × Nat)) : (wrs s l).localTest = s.localTest := by rw [show wrs s l = _ from wrs_shape s l]
@[simp] theorem wrs_surge (s : State) (l : List (Fld × Nat)) : (wrs s l).surge = s.surge := by rw [show wrs s l = _ from wrs_shape s l]
@[simp] theorem wrs_ao (s : State) (l : List (Fld × Nat)) : (wrs s l).ao = s.ao := by rw [show wrs s l = _ from wrs_shape s l]
@[simp] theorem wrs_boot (s : State) (l : List (Fld × Nat)) : (wrs s l).boot = s.boot := by rw [show wrs s l = _ from wrs_shape s l]
@[simp] theorem wrs_tests (s : State) (l : List (Fld × Nat)) : (wrs s l).tests = s.tests := by rw [show wrs s l = _ from wrs_shape s l]
@[simp] theorem wrs_lockSeq (s : State) (l : List (Fld × Nat)) : (wrs s l).lockSeq = s.lockSeq := by rw [show wrs s l = _ from wrs_shape s l]
@[simp] theorem wrs_cist (s : State) (l : List (Fld × Nat)) : (wrs s l).cist = s.cist := by rw [show wrs s l = _ from wrs_shape s l]
@[simp] theorem wrs_casPend (s : State) (l : List (Fld × Nat)) : (wrs s l).casPend = s.casPend := by rw [show wrs s l = _ from wrs_shape s l]
@[simp] theorem wrs_snapRun (s : State) (l : List (Fld × Nat)) : (wrs s l).snapRun = s.snapRun := by rw [show wrs s l = _ from wrs_shape s l]
@[simp] theorem wrs_snapLatch (s : State) (l : List (Fld × Nat)) : (wrs s l).snapLatch = s.snapLatch := by rw [show wrs s l = _ from wrs_shape s l]
@[simp] theorem wrs_dma (s : State) (l : List (Fld × Nat)) : (wrs s l).dma = s.dma := by rw [show wrs s l = _ from wrs_shape s l]
@[simp] theorem wrs_time (s : State) (l : List (Fld × Nat)) : (wrs s l).time = s.time := by rw [show wrs s l = _ from wrs_shape s l]
@[simp] theorem wrs_field (s : State) (l : List (Fld × Nat)) : (wrs s l).field = s.field := by rw [show wrs s l = _ from wrs_shape s l]
@[simp] theorem wrs_safe (s : State) (l : List (Fld × Nat)) : (wrs s l).safe = s.safe := by rw [show wrs s l = _ from wrs_shape s l]
@[simp] theorem wrs_pair (s : State) (l : List (Fld × Nat)) : (wrs s l).pair = s.pair := by rw [show wrs s l = _ from wrs_shape s l]
@[simp] theorem wrs_bridge (s : State) (l : List (Fld × Nat)) : (wrs s l).bridge = s.bridge := by rw [show wrs s l = _ from wrs_shape s l]
@[simp] theorem wrs_sched (s : State) (l : List (Fld × Nat)) : (wrs s l).sched = s.sched := by rw [show wrs s l = _ from wrs_shape s l]
@[simp] theorem wrs_engs (s : State) (l : List (Fld × Nat)) : (wrs s l).engs = s.engs := by rw [show wrs s l = _ from wrs_shape s l]
@[simp] theorem wrs_axes (s : State) (l : List (Fld × Nat)) : (wrs s l).axes = s.axes := by rw [show wrs s l = _ from wrs_shape s l]
@[simp] theorem wrs_mots (s : State) (l : List (Fld × Nat)) : (wrs s l).mots = s.mots := by rw [show wrs s l = _ from wrs_shape s l]
@[simp] theorem wrs_motRec (s : State) (l : List (Fld × Nat)) : (wrs s l).motRec = s.motRec := by rw [show wrs s l = _ from wrs_shape s l]
@[simp] theorem wrs_camPend (s : State) (l : List (Fld × Nat)) : (wrs s l).camPend = s.camPend := by rw [show wrs s l = _ from wrs_shape s l]
@[simp] theorem wrs_stops (s : State) (l : List (Fld × Nat)) : (wrs s l).stops = s.stops := by rw [show wrs s l = _ from wrs_shape s l]
@[simp] theorem wrs_commit (s : State) (l : List (Fld × Nat)) : (wrs s l).commit = s.commit := by rw [show wrs s l = _ from wrs_shape s l]
@[simp] theorem wrs_lemac (s : State) (l : List (Fld × Nat)) : (wrs s l).lemac = s.lemac := by rw [show wrs s l = _ from wrs_shape s l]
@[simp] theorem wrs_safeA (s : State) (l : List (Fld × Nat)) : (wrs s l).safeA = s.safeA := by rw [show wrs s l = _ from wrs_shape s l]
@[simp] theorem wrs_safeB (s : State) (l : List (Fld × Nat)) : (wrs s l).safeB = s.safeB := by rw [show wrs s l = _ from wrs_shape s l]
@[simp] theorem wrs_plants (s : State) (l : List (Fld × Nat)) : (wrs s l).plants = s.plants := by rw [show wrs s l = _ from wrs_shape s l]
@[simp] theorem wrs_tts (s : State) (l : List (Fld × Nat)) : (wrs s l).tts = s.tts := by rw [show wrs s l = _ from wrs_shape s l]
@[simp] theorem wrs_capts (s : State) (l : List (Fld × Nat)) : (wrs s l).capts = s.capts := by rw [show wrs s l = _ from wrs_shape s l]
@[simp] theorem wrs_encs (s : State) (l : List (Fld × Nat)) : (wrs s l).encs = s.encs := by rw [show wrs s l = _ from wrs_shape s l]
@[simp] theorem wrs_emus (s : State) (l : List (Fld × Nat)) : (wrs s l).emus = s.emus := by rw [show wrs s l = _ from wrs_shape s l]
@[simp] theorem wrs_acq (s : State) (l : List (Fld × Nat)) : (wrs s l).acq = s.acq := by rw [show wrs s l = _ from wrs_shape s l]
@[simp] theorem wrs_cans (s : State) (l : List (Fld × Nat)) : (wrs s l).cans = s.cans := by rw [show wrs s l = _ from wrs_shape s l]
@[simp] theorem wrs_eyes (s : State) (l : List (Fld × Nat)) : (wrs s l).eyes = s.eyes := by rw [show wrs s l = _ from wrs_shape s l]
@[simp] theorem wrs_wire (s : State) (l : List (Fld × Nat)) : (wrs s l).wire = s.wire := by rw [show wrs s l = _ from wrs_shape s l]
@[simp] theorem wrs_resp (s : State) (l : List (Fld × Nat)) : (wrs s l).resp = s.resp := by rw [show wrs s l = _ from wrs_shape s l]
@[simp] theorem wrs_freeIdx (s : State) (l : List (Fld × Nat)) : (wrs s l).freeIdx = s.freeIdx := by rw [show wrs s l = _ from wrs_shape s l]

/-- `mwrite` changes nothing but mem. -/
theorem mwrite_shape (s : State) (a : Nat) (l : List Byte) : mwrite s a l = { s with mem := (mwrite s a l).mem } := by
  induction l generalizing s a with
  | nil => rfl
  | cons b r ih => rw [mwrite_cons, ih]; rfl

@[simp] theorem mwrite_pending (s : State) (a : Nat) (l : List Byte) : (mwrite s a l).pending = s.pending := by rw [show mwrite s a l = _ from mwrite_shape s a l]
@[simp] theorem mwrite_regs (s : State) (a : Nat) (l : List Byte) : (mwrite s a l).regs = s.regs := by rw [show mwrite s a l = _ from mwrite_shape s a l]
@[simp] theorem mwrite_banked (s : State) (a : Nat) (l : List Byte) : (mwrite s a l).banked = s.banked := by rw [show mwrite s a l = _ from mwrite_shape s a l]
@[simp] theorem mwrite_ctl (s : State) (a : Nat) (l : List Byte) : (mwrite s a l).ctl = s.ctl := by rw [show mwrite s a l = _ from mwrite_shape s a l]
@[simp] theorem mwrite_pwr (s : State) (a : Nat) (l : List Byte) : (mwrite s a l).pwr = s.pwr := by rw [show mwrite s a l = _ from mwrite_shape s a l]
@[simp] theorem mwrite_stalled (s : State) (a : Nat) (l : List Byte) : (mwrite s a l).stalled = s.stalled := by rw [show mwrite s a l = _ from mwrite_shape s a l]
@[simp] theorem mwrite_mfault (s : State) (a : Nat) (l : List Byte) : (mwrite s a l).mfault = s.mfault := by rw [show mwrite s a l = _ from mwrite_shape s a l]
@[simp] theorem mwrite_standby (s : State) (a : Nat) (l : List Byte) : (mwrite s a l).standby = s.standby := by rw [show mwrite s a l = _ from mwrite_shape s a l]
@[simp] theorem mwrite_localTest (s : State) (a : Nat) (l : List Byte) : (mwrite s a l).localTest = s.localTest := by rw [show mwrite s a l = _ from mwrite_shape s a l]
@[simp] theorem mwrite_surge (s : State) (a : Nat) (l : List Byte) : (mwrite s a l).surge = s.surge := by rw [show mwrite s a l = _ from mwrite_shape s a l]
@[simp] theorem mwrite_ao (s : State) (a : Nat) (l : List Byte) : (mwrite s a l).ao = s.ao := by rw [show mwrite s a l = _ from mwrite_shape s a l]
@[simp] theorem mwrite_boot (s : State) (a : Nat) (l : List Byte) : (mwrite s a l).boot = s.boot := by rw [show mwrite s a l = _ from mwrite_shape s a l]
@[simp] theorem mwrite_tests (s : State) (a : Nat) (l : List Byte) : (mwrite s a l).tests = s.tests := by rw [show mwrite s a l = _ from mwrite_shape s a l]
@[simp] theorem mwrite_lockSeq (s : State) (a : Nat) (l : List Byte) : (mwrite s a l).lockSeq = s.lockSeq := by rw [show mwrite s a l = _ from mwrite_shape s a l]
@[simp] theorem mwrite_cist (s : State) (a : Nat) (l : List Byte) : (mwrite s a l).cist = s.cist := by rw [show mwrite s a l = _ from mwrite_shape s a l]
@[simp] theorem mwrite_casPend (s : State) (a : Nat) (l : List Byte) : (mwrite s a l).casPend = s.casPend := by rw [show mwrite s a l = _ from mwrite_shape s a l]
@[simp] theorem mwrite_snapRun (s : State) (a : Nat) (l : List Byte) : (mwrite s a l).snapRun = s.snapRun := by rw [show mwrite s a l = _ from mwrite_shape s a l]
@[simp] theorem mwrite_snapLatch (s : State) (a : Nat) (l : List Byte) : (mwrite s a l).snapLatch = s.snapLatch := by rw [show mwrite s a l = _ from mwrite_shape s a l]
@[simp] theorem mwrite_dma (s : State) (a : Nat) (l : List Byte) : (mwrite s a l).dma = s.dma := by rw [show mwrite s a l = _ from mwrite_shape s a l]
@[simp] theorem mwrite_time (s : State) (a : Nat) (l : List Byte) : (mwrite s a l).time = s.time := by rw [show mwrite s a l = _ from mwrite_shape s a l]
@[simp] theorem mwrite_field (s : State) (a : Nat) (l : List Byte) : (mwrite s a l).field = s.field := by rw [show mwrite s a l = _ from mwrite_shape s a l]
@[simp] theorem mwrite_safe (s : State) (a : Nat) (l : List Byte) : (mwrite s a l).safe = s.safe := by rw [show mwrite s a l = _ from mwrite_shape s a l]
@[simp] theorem mwrite_pair (s : State) (a : Nat) (l : List Byte) : (mwrite s a l).pair = s.pair := by rw [show mwrite s a l = _ from mwrite_shape s a l]
@[simp] theorem mwrite_bridge (s : State) (a : Nat) (l : List Byte) : (mwrite s a l).bridge = s.bridge := by rw [show mwrite s a l = _ from mwrite_shape s a l]
@[simp] theorem mwrite_sched (s : State) (a : Nat) (l : List Byte) : (mwrite s a l).sched = s.sched := by rw [show mwrite s a l = _ from mwrite_shape s a l]
@[simp] theorem mwrite_engs (s : State) (a : Nat) (l : List Byte) : (mwrite s a l).engs = s.engs := by rw [show mwrite s a l = _ from mwrite_shape s a l]
@[simp] theorem mwrite_axes (s : State) (a : Nat) (l : List Byte) : (mwrite s a l).axes = s.axes := by rw [show mwrite s a l = _ from mwrite_shape s a l]
@[simp] theorem mwrite_mots (s : State) (a : Nat) (l : List Byte) : (mwrite s a l).mots = s.mots := by rw [show mwrite s a l = _ from mwrite_shape s a l]
@[simp] theorem mwrite_motRec (s : State) (a : Nat) (l : List Byte) : (mwrite s a l).motRec = s.motRec := by rw [show mwrite s a l = _ from mwrite_shape s a l]
@[simp] theorem mwrite_camPend (s : State) (a : Nat) (l : List Byte) : (mwrite s a l).camPend = s.camPend := by rw [show mwrite s a l = _ from mwrite_shape s a l]
@[simp] theorem mwrite_stops (s : State) (a : Nat) (l : List Byte) : (mwrite s a l).stops = s.stops := by rw [show mwrite s a l = _ from mwrite_shape s a l]
@[simp] theorem mwrite_commit (s : State) (a : Nat) (l : List Byte) : (mwrite s a l).commit = s.commit := by rw [show mwrite s a l = _ from mwrite_shape s a l]
@[simp] theorem mwrite_lemac (s : State) (a : Nat) (l : List Byte) : (mwrite s a l).lemac = s.lemac := by rw [show mwrite s a l = _ from mwrite_shape s a l]
@[simp] theorem mwrite_safeA (s : State) (a : Nat) (l : List Byte) : (mwrite s a l).safeA = s.safeA := by rw [show mwrite s a l = _ from mwrite_shape s a l]
@[simp] theorem mwrite_safeB (s : State) (a : Nat) (l : List Byte) : (mwrite s a l).safeB = s.safeB := by rw [show mwrite s a l = _ from mwrite_shape s a l]
@[simp] theorem mwrite_plants (s : State) (a : Nat) (l : List Byte) : (mwrite s a l).plants = s.plants := by rw [show mwrite s a l = _ from mwrite_shape s a l]
@[simp] theorem mwrite_tts (s : State) (a : Nat) (l : List Byte) : (mwrite s a l).tts = s.tts := by rw [show mwrite s a l = _ from mwrite_shape s a l]
@[simp] theorem mwrite_capts (s : State) (a : Nat) (l : List Byte) : (mwrite s a l).capts = s.capts := by rw [show mwrite s a l = _ from mwrite_shape s a l]
@[simp] theorem mwrite_encs (s : State) (a : Nat) (l : List Byte) : (mwrite s a l).encs = s.encs := by rw [show mwrite s a l = _ from mwrite_shape s a l]
@[simp] theorem mwrite_emus (s : State) (a : Nat) (l : List Byte) : (mwrite s a l).emus = s.emus := by rw [show mwrite s a l = _ from mwrite_shape s a l]
@[simp] theorem mwrite_acq (s : State) (a : Nat) (l : List Byte) : (mwrite s a l).acq = s.acq := by rw [show mwrite s a l = _ from mwrite_shape s a l]
@[simp] theorem mwrite_cans (s : State) (a : Nat) (l : List Byte) : (mwrite s a l).cans = s.cans := by rw [show mwrite s a l = _ from mwrite_shape s a l]
@[simp] theorem mwrite_eyes (s : State) (a : Nat) (l : List Byte) : (mwrite s a l).eyes = s.eyes := by rw [show mwrite s a l = _ from mwrite_shape s a l]
@[simp] theorem mwrite_wire (s : State) (a : Nat) (l : List Byte) : (mwrite s a l).wire = s.wire := by rw [show mwrite s a l = _ from mwrite_shape s a l]
@[simp] theorem mwrite_resp (s : State) (a : Nat) (l : List Byte) : (mwrite s a l).resp = s.resp := by rw [show mwrite s a l = _ from mwrite_shape s a l]
@[simp] theorem mwrite_freeIdx (s : State) (a : Nat) (l : List Byte) : (mwrite s a l).freeIdx = s.freeIdx := by rw [show mwrite s a l = _ from mwrite_shape s a l]

/-- `msetNum` changes nothing but mem. -/
theorem msetNum_shape (s : State) (a n v : Nat) : msetNum s a n v = { s with mem := (msetNum s a n v).mem } := mwrite_shape _ _ _

@[simp] theorem msetNum_pending (s : State) (a n v : Nat) : (msetNum s a n v).pending = s.pending := by rw [show msetNum s a n v = _ from msetNum_shape s a n v]
@[simp] theorem msetNum_regs (s : State) (a n v : Nat) : (msetNum s a n v).regs = s.regs := by rw [show msetNum s a n v = _ from msetNum_shape s a n v]
@[simp] theorem msetNum_banked (s : State) (a n v : Nat) : (msetNum s a n v).banked = s.banked := by rw [show msetNum s a n v = _ from msetNum_shape s a n v]
@[simp] theorem msetNum_ctl (s : State) (a n v : Nat) : (msetNum s a n v).ctl = s.ctl := by rw [show msetNum s a n v = _ from msetNum_shape s a n v]
@[simp] theorem msetNum_pwr (s : State) (a n v : Nat) : (msetNum s a n v).pwr = s.pwr := by rw [show msetNum s a n v = _ from msetNum_shape s a n v]
@[simp] theorem msetNum_stalled (s : State) (a n v : Nat) : (msetNum s a n v).stalled = s.stalled := by rw [show msetNum s a n v = _ from msetNum_shape s a n v]
@[simp] theorem msetNum_mfault (s : State) (a n v : Nat) : (msetNum s a n v).mfault = s.mfault := by rw [show msetNum s a n v = _ from msetNum_shape s a n v]
@[simp] theorem msetNum_standby (s : State) (a n v : Nat) : (msetNum s a n v).standby = s.standby := by rw [show msetNum s a n v = _ from msetNum_shape s a n v]
@[simp] theorem msetNum_localTest (s : State) (a n v : Nat) : (msetNum s a n v).localTest = s.localTest := by rw [show msetNum s a n v = _ from msetNum_shape s a n v]
@[simp] theorem msetNum_surge (s : State) (a n v : Nat) : (msetNum s a n v).surge = s.surge := by rw [show msetNum s a n v = _ from msetNum_shape s a n v]
@[simp] theorem msetNum_ao (s : State) (a n v : Nat) : (msetNum s a n v).ao = s.ao := by rw [show msetNum s a n v = _ from msetNum_shape s a n v]
@[simp] theorem msetNum_boot (s : State) (a n v : Nat) : (msetNum s a n v).boot = s.boot := by rw [show msetNum s a n v = _ from msetNum_shape s a n v]
@[simp] theorem msetNum_tests (s : State) (a n v : Nat) : (msetNum s a n v).tests = s.tests := by rw [show msetNum s a n v = _ from msetNum_shape s a n v]
@[simp] theorem msetNum_lockSeq (s : State) (a n v : Nat) : (msetNum s a n v).lockSeq = s.lockSeq := by rw [show msetNum s a n v = _ from msetNum_shape s a n v]
@[simp] theorem msetNum_cist (s : State) (a n v : Nat) : (msetNum s a n v).cist = s.cist := by rw [show msetNum s a n v = _ from msetNum_shape s a n v]
@[simp] theorem msetNum_casPend (s : State) (a n v : Nat) : (msetNum s a n v).casPend = s.casPend := by rw [show msetNum s a n v = _ from msetNum_shape s a n v]
@[simp] theorem msetNum_snapRun (s : State) (a n v : Nat) : (msetNum s a n v).snapRun = s.snapRun := by rw [show msetNum s a n v = _ from msetNum_shape s a n v]
@[simp] theorem msetNum_snapLatch (s : State) (a n v : Nat) : (msetNum s a n v).snapLatch = s.snapLatch := by rw [show msetNum s a n v = _ from msetNum_shape s a n v]
@[simp] theorem msetNum_dma (s : State) (a n v : Nat) : (msetNum s a n v).dma = s.dma := by rw [show msetNum s a n v = _ from msetNum_shape s a n v]
@[simp] theorem msetNum_time (s : State) (a n v : Nat) : (msetNum s a n v).time = s.time := by rw [show msetNum s a n v = _ from msetNum_shape s a n v]
@[simp] theorem msetNum_field (s : State) (a n v : Nat) : (msetNum s a n v).field = s.field := by rw [show msetNum s a n v = _ from msetNum_shape s a n v]
@[simp] theorem msetNum_safe (s : State) (a n v : Nat) : (msetNum s a n v).safe = s.safe := by rw [show msetNum s a n v = _ from msetNum_shape s a n v]
@[simp] theorem msetNum_pair (s : State) (a n v : Nat) : (msetNum s a n v).pair = s.pair := by rw [show msetNum s a n v = _ from msetNum_shape s a n v]
@[simp] theorem msetNum_bridge (s : State) (a n v : Nat) : (msetNum s a n v).bridge = s.bridge := by rw [show msetNum s a n v = _ from msetNum_shape s a n v]
@[simp] theorem msetNum_sched (s : State) (a n v : Nat) : (msetNum s a n v).sched = s.sched := by rw [show msetNum s a n v = _ from msetNum_shape s a n v]
@[simp] theorem msetNum_engs (s : State) (a n v : Nat) : (msetNum s a n v).engs = s.engs := by rw [show msetNum s a n v = _ from msetNum_shape s a n v]
@[simp] theorem msetNum_axes (s : State) (a n v : Nat) : (msetNum s a n v).axes = s.axes := by rw [show msetNum s a n v = _ from msetNum_shape s a n v]
@[simp] theorem msetNum_mots (s : State) (a n v : Nat) : (msetNum s a n v).mots = s.mots := by rw [show msetNum s a n v = _ from msetNum_shape s a n v]
@[simp] theorem msetNum_motRec (s : State) (a n v : Nat) : (msetNum s a n v).motRec = s.motRec := by rw [show msetNum s a n v = _ from msetNum_shape s a n v]
@[simp] theorem msetNum_camPend (s : State) (a n v : Nat) : (msetNum s a n v).camPend = s.camPend := by rw [show msetNum s a n v = _ from msetNum_shape s a n v]
@[simp] theorem msetNum_stops (s : State) (a n v : Nat) : (msetNum s a n v).stops = s.stops := by rw [show msetNum s a n v = _ from msetNum_shape s a n v]
@[simp] theorem msetNum_commit (s : State) (a n v : Nat) : (msetNum s a n v).commit = s.commit := by rw [show msetNum s a n v = _ from msetNum_shape s a n v]
@[simp] theorem msetNum_lemac (s : State) (a n v : Nat) : (msetNum s a n v).lemac = s.lemac := by rw [show msetNum s a n v = _ from msetNum_shape s a n v]
@[simp] theorem msetNum_safeA (s : State) (a n v : Nat) : (msetNum s a n v).safeA = s.safeA := by rw [show msetNum s a n v = _ from msetNum_shape s a n v]
@[simp] theorem msetNum_safeB (s : State) (a n v : Nat) : (msetNum s a n v).safeB = s.safeB := by rw [show msetNum s a n v = _ from msetNum_shape s a n v]
@[simp] theorem msetNum_plants (s : State) (a n v : Nat) : (msetNum s a n v).plants = s.plants := by rw [show msetNum s a n v = _ from msetNum_shape s a n v]
@[simp] theorem msetNum_tts (s : State) (a n v : Nat) : (msetNum s a n v).tts = s.tts := by rw [show msetNum s a n v = _ from msetNum_shape s a n v]
@[simp] theorem msetNum_capts (s : State) (a n v : Nat) : (msetNum s a n v).capts = s.capts := by rw [show msetNum s a n v = _ from msetNum_shape s a n v]
@[simp] theorem msetNum_encs (s : State) (a n v : Nat) : (msetNum s a n v).encs = s.encs := by rw [show msetNum s a n v = _ from msetNum_shape s a n v]
@[simp] theorem msetNum_emus (s : State) (a n v : Nat) : (msetNum s a n v).emus = s.emus := by rw [show msetNum s a n v = _ from msetNum_shape s a n v]
@[simp] theorem msetNum_acq (s : State) (a n v : Nat) : (msetNum s a n v).acq = s.acq := by rw [show msetNum s a n v = _ from msetNum_shape s a n v]
@[simp] theorem msetNum_cans (s : State) (a n v : Nat) : (msetNum s a n v).cans = s.cans := by rw [show msetNum s a n v = _ from msetNum_shape s a n v]
@[simp] theorem msetNum_eyes (s : State) (a n v : Nat) : (msetNum s a n v).eyes = s.eyes := by rw [show msetNum s a n v = _ from msetNum_shape s a n v]
@[simp] theorem msetNum_wire (s : State) (a n v : Nat) : (msetNum s a n v).wire = s.wire := by rw [show msetNum s a n v = _ from msetNum_shape s a n v]
@[simp] theorem msetNum_resp (s : State) (a n v : Nat) : (msetNum s a n v).resp = s.resp := by rw [show msetNum s a n v = _ from msetNum_shape s a n v]
@[simp] theorem msetNum_freeIdx (s : State) (a n v : Nat) : (msetNum s a n v).freeIdx = s.freeIdx := by rw [show msetNum s a n v = _ from msetNum_shape s a n v]

/-- `wrPt` changes nothing but mem. -/
theorem wrPt_shape (s : State) (a v : Nat) (st : Bool) : wrPt s a v st = { s with mem := (wrPt s a v st).mem } := by
  unfold wrPt
  split
  · rfl
  · have h := msetNum_shape s (ptAddr a) 8 v
    generalize msetNum s (ptAddr a) 8 v = u at *
    rw [h]
    rfl

@[simp] theorem wrPt_pending (s : State) (a v : Nat) (st : Bool) : (wrPt s a v st).pending = s.pending := by rw [show wrPt s a v st = _ from wrPt_shape s a v st]
@[simp] theorem wrPt_regs (s : State) (a v : Nat) (st : Bool) : (wrPt s a v st).regs = s.regs := by rw [show wrPt s a v st = _ from wrPt_shape s a v st]
@[simp] theorem wrPt_banked (s : State) (a v : Nat) (st : Bool) : (wrPt s a v st).banked = s.banked := by rw [show wrPt s a v st = _ from wrPt_shape s a v st]
@[simp] theorem wrPt_ctl (s : State) (a v : Nat) (st : Bool) : (wrPt s a v st).ctl = s.ctl := by rw [show wrPt s a v st = _ from wrPt_shape s a v st]
@[simp] theorem wrPt_pwr (s : State) (a v : Nat) (st : Bool) : (wrPt s a v st).pwr = s.pwr := by rw [show wrPt s a v st = _ from wrPt_shape s a v st]
@[simp] theorem wrPt_stalled (s : State) (a v : Nat) (st : Bool) : (wrPt s a v st).stalled = s.stalled := by rw [show wrPt s a v st = _ from wrPt_shape s a v st]
@[simp] theorem wrPt_mfault (s : State) (a v : Nat) (st : Bool) : (wrPt s a v st).mfault = s.mfault := by rw [show wrPt s a v st = _ from wrPt_shape s a v st]
@[simp] theorem wrPt_standby (s : State) (a v : Nat) (st : Bool) : (wrPt s a v st).standby = s.standby := by rw [show wrPt s a v st = _ from wrPt_shape s a v st]
@[simp] theorem wrPt_localTest (s : State) (a v : Nat) (st : Bool) : (wrPt s a v st).localTest = s.localTest := by rw [show wrPt s a v st = _ from wrPt_shape s a v st]
@[simp] theorem wrPt_surge (s : State) (a v : Nat) (st : Bool) : (wrPt s a v st).surge = s.surge := by rw [show wrPt s a v st = _ from wrPt_shape s a v st]
@[simp] theorem wrPt_ao (s : State) (a v : Nat) (st : Bool) : (wrPt s a v st).ao = s.ao := by rw [show wrPt s a v st = _ from wrPt_shape s a v st]
@[simp] theorem wrPt_boot (s : State) (a v : Nat) (st : Bool) : (wrPt s a v st).boot = s.boot := by rw [show wrPt s a v st = _ from wrPt_shape s a v st]
@[simp] theorem wrPt_tests (s : State) (a v : Nat) (st : Bool) : (wrPt s a v st).tests = s.tests := by rw [show wrPt s a v st = _ from wrPt_shape s a v st]
@[simp] theorem wrPt_lockSeq (s : State) (a v : Nat) (st : Bool) : (wrPt s a v st).lockSeq = s.lockSeq := by rw [show wrPt s a v st = _ from wrPt_shape s a v st]
@[simp] theorem wrPt_cist (s : State) (a v : Nat) (st : Bool) : (wrPt s a v st).cist = s.cist := by rw [show wrPt s a v st = _ from wrPt_shape s a v st]
@[simp] theorem wrPt_casPend (s : State) (a v : Nat) (st : Bool) : (wrPt s a v st).casPend = s.casPend := by rw [show wrPt s a v st = _ from wrPt_shape s a v st]
@[simp] theorem wrPt_snapRun (s : State) (a v : Nat) (st : Bool) : (wrPt s a v st).snapRun = s.snapRun := by rw [show wrPt s a v st = _ from wrPt_shape s a v st]
@[simp] theorem wrPt_snapLatch (s : State) (a v : Nat) (st : Bool) : (wrPt s a v st).snapLatch = s.snapLatch := by rw [show wrPt s a v st = _ from wrPt_shape s a v st]
@[simp] theorem wrPt_dma (s : State) (a v : Nat) (st : Bool) : (wrPt s a v st).dma = s.dma := by rw [show wrPt s a v st = _ from wrPt_shape s a v st]
@[simp] theorem wrPt_time (s : State) (a v : Nat) (st : Bool) : (wrPt s a v st).time = s.time := by rw [show wrPt s a v st = _ from wrPt_shape s a v st]
@[simp] theorem wrPt_field (s : State) (a v : Nat) (st : Bool) : (wrPt s a v st).field = s.field := by rw [show wrPt s a v st = _ from wrPt_shape s a v st]
@[simp] theorem wrPt_safe (s : State) (a v : Nat) (st : Bool) : (wrPt s a v st).safe = s.safe := by rw [show wrPt s a v st = _ from wrPt_shape s a v st]
@[simp] theorem wrPt_pair (s : State) (a v : Nat) (st : Bool) : (wrPt s a v st).pair = s.pair := by rw [show wrPt s a v st = _ from wrPt_shape s a v st]
@[simp] theorem wrPt_bridge (s : State) (a v : Nat) (st : Bool) : (wrPt s a v st).bridge = s.bridge := by rw [show wrPt s a v st = _ from wrPt_shape s a v st]
@[simp] theorem wrPt_sched (s : State) (a v : Nat) (st : Bool) : (wrPt s a v st).sched = s.sched := by rw [show wrPt s a v st = _ from wrPt_shape s a v st]
@[simp] theorem wrPt_engs (s : State) (a v : Nat) (st : Bool) : (wrPt s a v st).engs = s.engs := by rw [show wrPt s a v st = _ from wrPt_shape s a v st]
@[simp] theorem wrPt_axes (s : State) (a v : Nat) (st : Bool) : (wrPt s a v st).axes = s.axes := by rw [show wrPt s a v st = _ from wrPt_shape s a v st]
@[simp] theorem wrPt_mots (s : State) (a v : Nat) (st : Bool) : (wrPt s a v st).mots = s.mots := by rw [show wrPt s a v st = _ from wrPt_shape s a v st]
@[simp] theorem wrPt_motRec (s : State) (a v : Nat) (st : Bool) : (wrPt s a v st).motRec = s.motRec := by rw [show wrPt s a v st = _ from wrPt_shape s a v st]
@[simp] theorem wrPt_camPend (s : State) (a v : Nat) (st : Bool) : (wrPt s a v st).camPend = s.camPend := by rw [show wrPt s a v st = _ from wrPt_shape s a v st]
@[simp] theorem wrPt_stops (s : State) (a v : Nat) (st : Bool) : (wrPt s a v st).stops = s.stops := by rw [show wrPt s a v st = _ from wrPt_shape s a v st]
@[simp] theorem wrPt_commit (s : State) (a v : Nat) (st : Bool) : (wrPt s a v st).commit = s.commit := by rw [show wrPt s a v st = _ from wrPt_shape s a v st]
@[simp] theorem wrPt_lemac (s : State) (a v : Nat) (st : Bool) : (wrPt s a v st).lemac = s.lemac := by rw [show wrPt s a v st = _ from wrPt_shape s a v st]
@[simp] theorem wrPt_safeA (s : State) (a v : Nat) (st : Bool) : (wrPt s a v st).safeA = s.safeA := by rw [show wrPt s a v st = _ from wrPt_shape s a v st]
@[simp] theorem wrPt_safeB (s : State) (a v : Nat) (st : Bool) : (wrPt s a v st).safeB = s.safeB := by rw [show wrPt s a v st = _ from wrPt_shape s a v st]
@[simp] theorem wrPt_plants (s : State) (a v : Nat) (st : Bool) : (wrPt s a v st).plants = s.plants := by rw [show wrPt s a v st = _ from wrPt_shape s a v st]
@[simp] theorem wrPt_tts (s : State) (a v : Nat) (st : Bool) : (wrPt s a v st).tts = s.tts := by rw [show wrPt s a v st = _ from wrPt_shape s a v st]
@[simp] theorem wrPt_capts (s : State) (a v : Nat) (st : Bool) : (wrPt s a v st).capts = s.capts := by rw [show wrPt s a v st = _ from wrPt_shape s a v st]
@[simp] theorem wrPt_encs (s : State) (a v : Nat) (st : Bool) : (wrPt s a v st).encs = s.encs := by rw [show wrPt s a v st = _ from wrPt_shape s a v st]
@[simp] theorem wrPt_emus (s : State) (a v : Nat) (st : Bool) : (wrPt s a v st).emus = s.emus := by rw [show wrPt s a v st = _ from wrPt_shape s a v st]
@[simp] theorem wrPt_acq (s : State) (a v : Nat) (st : Bool) : (wrPt s a v st).acq = s.acq := by rw [show wrPt s a v st = _ from wrPt_shape s a v st]
@[simp] theorem wrPt_cans (s : State) (a v : Nat) (st : Bool) : (wrPt s a v st).cans = s.cans := by rw [show wrPt s a v st = _ from wrPt_shape s a v st]
@[simp] theorem wrPt_eyes (s : State) (a v : Nat) (st : Bool) : (wrPt s a v st).eyes = s.eyes := by rw [show wrPt s a v st = _ from wrPt_shape s a v st]
@[simp] theorem wrPt_wire (s : State) (a v : Nat) (st : Bool) : (wrPt s a v st).wire = s.wire := by rw [show wrPt s a v st = _ from wrPt_shape s a v st]
@[simp] theorem wrPt_resp (s : State) (a v : Nat) (st : Bool) : (wrPt s a v st).resp = s.resp := by rw [show wrPt s a v st = _ from wrPt_shape s a v st]
@[simp] theorem wrPt_freeIdx (s : State) (a v : Nat) (st : Bool) : (wrPt s a v st).freeIdx = s.freeIdx := by rw [show wrPt s a v st = _ from wrPt_shape s a v st]

/-- `setWell` changes nothing but regs and sched. -/
theorem setWell_shape (s : State) (c p : Nat) (l : List Tok) : setWell s c p l = { s with regs := (setWell s c p l).regs, sched := (setWell s c p l).sched } := by unfold setWell; dsimp only; split <;> rfl

@[simp] theorem setWell_pending (s : State) (c p : Nat) (l : List Tok) : (setWell s c p l).pending = s.pending := by rw [show setWell s c p l = _ from setWell_shape s c p l]
@[simp] theorem setWell_banked (s : State) (c p : Nat) (l : List Tok) : (setWell s c p l).banked = s.banked := by rw [show setWell s c p l = _ from setWell_shape s c p l]
@[simp] theorem setWell_ctl (s : State) (c p : Nat) (l : List Tok) : (setWell s c p l).ctl = s.ctl := by rw [show setWell s c p l = _ from setWell_shape s c p l]
@[simp] theorem setWell_mem (s : State) (c p : Nat) (l : List Tok) : (setWell s c p l).mem = s.mem := by rw [show setWell s c p l = _ from setWell_shape s c p l]
@[simp] theorem setWell_pwr (s : State) (c p : Nat) (l : List Tok) : (setWell s c p l).pwr = s.pwr := by rw [show setWell s c p l = _ from setWell_shape s c p l]
@[simp] theorem setWell_stalled (s : State) (c p : Nat) (l : List Tok) : (setWell s c p l).stalled = s.stalled := by rw [show setWell s c p l = _ from setWell_shape s c p l]
@[simp] theorem setWell_mfault (s : State) (c p : Nat) (l : List Tok) : (setWell s c p l).mfault = s.mfault := by rw [show setWell s c p l = _ from setWell_shape s c p l]
@[simp] theorem setWell_standby (s : State) (c p : Nat) (l : List Tok) : (setWell s c p l).standby = s.standby := by rw [show setWell s c p l = _ from setWell_shape s c p l]
@[simp] theorem setWell_localTest (s : State) (c p : Nat) (l : List Tok) : (setWell s c p l).localTest = s.localTest := by rw [show setWell s c p l = _ from setWell_shape s c p l]
@[simp] theorem setWell_surge (s : State) (c p : Nat) (l : List Tok) : (setWell s c p l).surge = s.surge := by rw [show setWell s c p l = _ from setWell_shape s c p l]
@[simp] theorem setWell_ao (s : State) (c p : Nat) (l : List Tok) : (setWell s c p l).ao = s.ao := by rw [show setWell s c p l = _ from setWell_shape s c p l]
@[simp] theorem setWell_boot (s : State) (c p : Nat) (l : List Tok) : (setWell s c p l).boot = s.boot := by rw [show setWell s c p l = _ from setWell_shape s c p l]
@[simp] theorem setWell_tests (s : State) (c p : Nat) (l : List Tok) : (setWell s c p l).tests = s.tests := by rw [show setWell s c p l = _ from setWell_shape s c p l]
@[simp] theorem setWell_lockSeq (s : State) (c p : Nat) (l : List Tok) : (setWell s c p l).lockSeq = s.lockSeq := by rw [show setWell s c p l = _ from setWell_shape s c p l]
@[simp] theorem setWell_cist (s : State) (c p : Nat) (l : List Tok) : (setWell s c p l).cist = s.cist := by rw [show setWell s c p l = _ from setWell_shape s c p l]
@[simp] theorem setWell_casPend (s : State) (c p : Nat) (l : List Tok) : (setWell s c p l).casPend = s.casPend := by rw [show setWell s c p l = _ from setWell_shape s c p l]
@[simp] theorem setWell_snapRun (s : State) (c p : Nat) (l : List Tok) : (setWell s c p l).snapRun = s.snapRun := by rw [show setWell s c p l = _ from setWell_shape s c p l]
@[simp] theorem setWell_snapLatch (s : State) (c p : Nat) (l : List Tok) : (setWell s c p l).snapLatch = s.snapLatch := by rw [show setWell s c p l = _ from setWell_shape s c p l]
@[simp] theorem setWell_dma (s : State) (c p : Nat) (l : List Tok) : (setWell s c p l).dma = s.dma := by rw [show setWell s c p l = _ from setWell_shape s c p l]
@[simp] theorem setWell_time (s : State) (c p : Nat) (l : List Tok) : (setWell s c p l).time = s.time := by rw [show setWell s c p l = _ from setWell_shape s c p l]
@[simp] theorem setWell_field (s : State) (c p : Nat) (l : List Tok) : (setWell s c p l).field = s.field := by rw [show setWell s c p l = _ from setWell_shape s c p l]
@[simp] theorem setWell_safe (s : State) (c p : Nat) (l : List Tok) : (setWell s c p l).safe = s.safe := by rw [show setWell s c p l = _ from setWell_shape s c p l]
@[simp] theorem setWell_pair (s : State) (c p : Nat) (l : List Tok) : (setWell s c p l).pair = s.pair := by rw [show setWell s c p l = _ from setWell_shape s c p l]
@[simp] theorem setWell_bridge (s : State) (c p : Nat) (l : List Tok) : (setWell s c p l).bridge = s.bridge := by rw [show setWell s c p l = _ from setWell_shape s c p l]
@[simp] theorem setWell_engs (s : State) (c p : Nat) (l : List Tok) : (setWell s c p l).engs = s.engs := by rw [show setWell s c p l = _ from setWell_shape s c p l]
@[simp] theorem setWell_axes (s : State) (c p : Nat) (l : List Tok) : (setWell s c p l).axes = s.axes := by rw [show setWell s c p l = _ from setWell_shape s c p l]
@[simp] theorem setWell_mots (s : State) (c p : Nat) (l : List Tok) : (setWell s c p l).mots = s.mots := by rw [show setWell s c p l = _ from setWell_shape s c p l]
@[simp] theorem setWell_motRec (s : State) (c p : Nat) (l : List Tok) : (setWell s c p l).motRec = s.motRec := by rw [show setWell s c p l = _ from setWell_shape s c p l]
@[simp] theorem setWell_camPend (s : State) (c p : Nat) (l : List Tok) : (setWell s c p l).camPend = s.camPend := by rw [show setWell s c p l = _ from setWell_shape s c p l]
@[simp] theorem setWell_stops (s : State) (c p : Nat) (l : List Tok) : (setWell s c p l).stops = s.stops := by rw [show setWell s c p l = _ from setWell_shape s c p l]
@[simp] theorem setWell_commit (s : State) (c p : Nat) (l : List Tok) : (setWell s c p l).commit = s.commit := by rw [show setWell s c p l = _ from setWell_shape s c p l]
@[simp] theorem setWell_lemac (s : State) (c p : Nat) (l : List Tok) : (setWell s c p l).lemac = s.lemac := by rw [show setWell s c p l = _ from setWell_shape s c p l]
@[simp] theorem setWell_safeA (s : State) (c p : Nat) (l : List Tok) : (setWell s c p l).safeA = s.safeA := by rw [show setWell s c p l = _ from setWell_shape s c p l]
@[simp] theorem setWell_safeB (s : State) (c p : Nat) (l : List Tok) : (setWell s c p l).safeB = s.safeB := by rw [show setWell s c p l = _ from setWell_shape s c p l]
@[simp] theorem setWell_plants (s : State) (c p : Nat) (l : List Tok) : (setWell s c p l).plants = s.plants := by rw [show setWell s c p l = _ from setWell_shape s c p l]
@[simp] theorem setWell_tts (s : State) (c p : Nat) (l : List Tok) : (setWell s c p l).tts = s.tts := by rw [show setWell s c p l = _ from setWell_shape s c p l]
@[simp] theorem setWell_capts (s : State) (c p : Nat) (l : List Tok) : (setWell s c p l).capts = s.capts := by rw [show setWell s c p l = _ from setWell_shape s c p l]
@[simp] theorem setWell_encs (s : State) (c p : Nat) (l : List Tok) : (setWell s c p l).encs = s.encs := by rw [show setWell s c p l = _ from setWell_shape s c p l]
@[simp] theorem setWell_emus (s : State) (c p : Nat) (l : List Tok) : (setWell s c p l).emus = s.emus := by rw [show setWell s c p l = _ from setWell_shape s c p l]
@[simp] theorem setWell_acq (s : State) (c p : Nat) (l : List Tok) : (setWell s c p l).acq = s.acq := by rw [show setWell s c p l = _ from setWell_shape s c p l]
@[simp] theorem setWell_cans (s : State) (c p : Nat) (l : List Tok) : (setWell s c p l).cans = s.cans := by rw [show setWell s c p l = _ from setWell_shape s c p l]
@[simp] theorem setWell_eyes (s : State) (c p : Nat) (l : List Tok) : (setWell s c p l).eyes = s.eyes := by rw [show setWell s c p l = _ from setWell_shape s c p l]
@[simp] theorem setWell_wire (s : State) (c p : Nat) (l : List Tok) : (setWell s c p l).wire = s.wire := by rw [show setWell s c p l = _ from setWell_shape s c p l]
@[simp] theorem setWell_resp (s : State) (c p : Nat) (l : List Tok) : (setWell s c p l).resp = s.resp := by rw [show setWell s c p l = _ from setWell_shape s c p l]
@[simp] theorem setWell_freeIdx (s : State) (c p : Nat) (l : List Tok) : (setWell s c p l).freeIdx = s.freeIdx := by rw [show setWell s c p l = _ from setWell_shape s c p l]

/-- `sendVec` changes nothing but regs and wire. -/
theorem sendVec_shape (s : State) (v : Nat) : RegsWire s (sendVec s v) := by
  unfold sendVec
  split
  · exact RegsWire.refl s
  · split
    · exact RegsWire.wrw s _ _
    · exact RegsWire.emit s _

@[simp] theorem sendVec_pending (s : State) (v : Nat) : (sendVec s v).pending = s.pending := by rw [show sendVec s v = _ from sendVec_shape s v]
@[simp] theorem sendVec_banked (s : State) (v : Nat) : (sendVec s v).banked = s.banked := by rw [show sendVec s v = _ from sendVec_shape s v]
@[simp] theorem sendVec_ctl (s : State) (v : Nat) : (sendVec s v).ctl = s.ctl := by rw [show sendVec s v = _ from sendVec_shape s v]
@[simp] theorem sendVec_mem (s : State) (v : Nat) : (sendVec s v).mem = s.mem := by rw [show sendVec s v = _ from sendVec_shape s v]
@[simp] theorem sendVec_pwr (s : State) (v : Nat) : (sendVec s v).pwr = s.pwr := by rw [show sendVec s v = _ from sendVec_shape s v]
@[simp] theorem sendVec_stalled (s : State) (v : Nat) : (sendVec s v).stalled = s.stalled := by rw [show sendVec s v = _ from sendVec_shape s v]
@[simp] theorem sendVec_mfault (s : State) (v : Nat) : (sendVec s v).mfault = s.mfault := by rw [show sendVec s v = _ from sendVec_shape s v]
@[simp] theorem sendVec_standby (s : State) (v : Nat) : (sendVec s v).standby = s.standby := by rw [show sendVec s v = _ from sendVec_shape s v]
@[simp] theorem sendVec_localTest (s : State) (v : Nat) : (sendVec s v).localTest = s.localTest := by rw [show sendVec s v = _ from sendVec_shape s v]
@[simp] theorem sendVec_surge (s : State) (v : Nat) : (sendVec s v).surge = s.surge := by rw [show sendVec s v = _ from sendVec_shape s v]
@[simp] theorem sendVec_ao (s : State) (v : Nat) : (sendVec s v).ao = s.ao := by rw [show sendVec s v = _ from sendVec_shape s v]
@[simp] theorem sendVec_boot (s : State) (v : Nat) : (sendVec s v).boot = s.boot := by rw [show sendVec s v = _ from sendVec_shape s v]
@[simp] theorem sendVec_tests (s : State) (v : Nat) : (sendVec s v).tests = s.tests := by rw [show sendVec s v = _ from sendVec_shape s v]
@[simp] theorem sendVec_lockSeq (s : State) (v : Nat) : (sendVec s v).lockSeq = s.lockSeq := by rw [show sendVec s v = _ from sendVec_shape s v]
@[simp] theorem sendVec_cist (s : State) (v : Nat) : (sendVec s v).cist = s.cist := by rw [show sendVec s v = _ from sendVec_shape s v]
@[simp] theorem sendVec_casPend (s : State) (v : Nat) : (sendVec s v).casPend = s.casPend := by rw [show sendVec s v = _ from sendVec_shape s v]
@[simp] theorem sendVec_snapRun (s : State) (v : Nat) : (sendVec s v).snapRun = s.snapRun := by rw [show sendVec s v = _ from sendVec_shape s v]
@[simp] theorem sendVec_snapLatch (s : State) (v : Nat) : (sendVec s v).snapLatch = s.snapLatch := by rw [show sendVec s v = _ from sendVec_shape s v]
@[simp] theorem sendVec_dma (s : State) (v : Nat) : (sendVec s v).dma = s.dma := by rw [show sendVec s v = _ from sendVec_shape s v]
@[simp] theorem sendVec_time (s : State) (v : Nat) : (sendVec s v).time = s.time := by rw [show sendVec s v = _ from sendVec_shape s v]
@[simp] theorem sendVec_field (s : State) (v : Nat) : (sendVec s v).field = s.field := by rw [show sendVec s v = _ from sendVec_shape s v]
@[simp] theorem sendVec_safe (s : State) (v : Nat) : (sendVec s v).safe = s.safe := by rw [show sendVec s v = _ from sendVec_shape s v]
@[simp] theorem sendVec_pair (s : State) (v : Nat) : (sendVec s v).pair = s.pair := by rw [show sendVec s v = _ from sendVec_shape s v]
@[simp] theorem sendVec_bridge (s : State) (v : Nat) : (sendVec s v).bridge = s.bridge := by rw [show sendVec s v = _ from sendVec_shape s v]
@[simp] theorem sendVec_sched (s : State) (v : Nat) : (sendVec s v).sched = s.sched := by rw [show sendVec s v = _ from sendVec_shape s v]
@[simp] theorem sendVec_engs (s : State) (v : Nat) : (sendVec s v).engs = s.engs := by rw [show sendVec s v = _ from sendVec_shape s v]
@[simp] theorem sendVec_axes (s : State) (v : Nat) : (sendVec s v).axes = s.axes := by rw [show sendVec s v = _ from sendVec_shape s v]
@[simp] theorem sendVec_mots (s : State) (v : Nat) : (sendVec s v).mots = s.mots := by rw [show sendVec s v = _ from sendVec_shape s v]
@[simp] theorem sendVec_motRec (s : State) (v : Nat) : (sendVec s v).motRec = s.motRec := by rw [show sendVec s v = _ from sendVec_shape s v]
@[simp] theorem sendVec_camPend (s : State) (v : Nat) : (sendVec s v).camPend = s.camPend := by rw [show sendVec s v = _ from sendVec_shape s v]
@[simp] theorem sendVec_stops (s : State) (v : Nat) : (sendVec s v).stops = s.stops := by rw [show sendVec s v = _ from sendVec_shape s v]
@[simp] theorem sendVec_commit (s : State) (v : Nat) : (sendVec s v).commit = s.commit := by rw [show sendVec s v = _ from sendVec_shape s v]
@[simp] theorem sendVec_lemac (s : State) (v : Nat) : (sendVec s v).lemac = s.lemac := by rw [show sendVec s v = _ from sendVec_shape s v]
@[simp] theorem sendVec_safeA (s : State) (v : Nat) : (sendVec s v).safeA = s.safeA := by rw [show sendVec s v = _ from sendVec_shape s v]
@[simp] theorem sendVec_safeB (s : State) (v : Nat) : (sendVec s v).safeB = s.safeB := by rw [show sendVec s v = _ from sendVec_shape s v]
@[simp] theorem sendVec_plants (s : State) (v : Nat) : (sendVec s v).plants = s.plants := by rw [show sendVec s v = _ from sendVec_shape s v]
@[simp] theorem sendVec_tts (s : State) (v : Nat) : (sendVec s v).tts = s.tts := by rw [show sendVec s v = _ from sendVec_shape s v]
@[simp] theorem sendVec_capts (s : State) (v : Nat) : (sendVec s v).capts = s.capts := by rw [show sendVec s v = _ from sendVec_shape s v]
@[simp] theorem sendVec_encs (s : State) (v : Nat) : (sendVec s v).encs = s.encs := by rw [show sendVec s v = _ from sendVec_shape s v]
@[simp] theorem sendVec_emus (s : State) (v : Nat) : (sendVec s v).emus = s.emus := by rw [show sendVec s v = _ from sendVec_shape s v]
@[simp] theorem sendVec_acq (s : State) (v : Nat) : (sendVec s v).acq = s.acq := by rw [show sendVec s v = _ from sendVec_shape s v]
@[simp] theorem sendVec_cans (s : State) (v : Nat) : (sendVec s v).cans = s.cans := by rw [show sendVec s v = _ from sendVec_shape s v]
@[simp] theorem sendVec_eyes (s : State) (v : Nat) : (sendVec s v).eyes = s.eyes := by rw [show sendVec s v = _ from sendVec_shape s v]
@[simp] theorem sendVec_resp (s : State) (v : Nat) : (sendVec s v).resp = s.resp := by rw [show sendVec s v = _ from sendVec_shape s v]
@[simp] theorem sendVec_freeIdx (s : State) (v : Nat) : (sendVec s v).freeIdx = s.freeIdx := by rw [show sendVec s v = _ from sendVec_shape s v]

/-- `raise` changes nothing but regs and wire. -/
theorem raise_shape (s : State) (p b : Nat) : RegsWire s (raise s p b) := by
  unfold raise
  split
  · dsimp only
    split
    · exact (RegsWire.wrw s _ _).trans (sendVec_shape _ _)
    · exact RegsWire.wrw s _ _
  · exact RegsWire.refl s

@[simp] theorem raise_pending (s : State) (p b : Nat) : (raise s p b).pending = s.pending := by rw [show raise s p b = _ from raise_shape s p b]
@[simp] theorem raise_banked (s : State) (p b : Nat) : (raise s p b).banked = s.banked := by rw [show raise s p b = _ from raise_shape s p b]
@[simp] theorem raise_ctl (s : State) (p b : Nat) : (raise s p b).ctl = s.ctl := by rw [show raise s p b = _ from raise_shape s p b]
@[simp] theorem raise_mem (s : State) (p b : Nat) : (raise s p b).mem = s.mem := by rw [show raise s p b = _ from raise_shape s p b]
@[simp] theorem raise_pwr (s : State) (p b : Nat) : (raise s p b).pwr = s.pwr := by rw [show raise s p b = _ from raise_shape s p b]
@[simp] theorem raise_stalled (s : State) (p b : Nat) : (raise s p b).stalled = s.stalled := by rw [show raise s p b = _ from raise_shape s p b]
@[simp] theorem raise_mfault (s : State) (p b : Nat) : (raise s p b).mfault = s.mfault := by rw [show raise s p b = _ from raise_shape s p b]
@[simp] theorem raise_standby (s : State) (p b : Nat) : (raise s p b).standby = s.standby := by rw [show raise s p b = _ from raise_shape s p b]
@[simp] theorem raise_localTest (s : State) (p b : Nat) : (raise s p b).localTest = s.localTest := by rw [show raise s p b = _ from raise_shape s p b]
@[simp] theorem raise_surge (s : State) (p b : Nat) : (raise s p b).surge = s.surge := by rw [show raise s p b = _ from raise_shape s p b]
@[simp] theorem raise_ao (s : State) (p b : Nat) : (raise s p b).ao = s.ao := by rw [show raise s p b = _ from raise_shape s p b]
@[simp] theorem raise_boot (s : State) (p b : Nat) : (raise s p b).boot = s.boot := by rw [show raise s p b = _ from raise_shape s p b]
@[simp] theorem raise_tests (s : State) (p b : Nat) : (raise s p b).tests = s.tests := by rw [show raise s p b = _ from raise_shape s p b]
@[simp] theorem raise_lockSeq (s : State) (p b : Nat) : (raise s p b).lockSeq = s.lockSeq := by rw [show raise s p b = _ from raise_shape s p b]
@[simp] theorem raise_cist (s : State) (p b : Nat) : (raise s p b).cist = s.cist := by rw [show raise s p b = _ from raise_shape s p b]
@[simp] theorem raise_casPend (s : State) (p b : Nat) : (raise s p b).casPend = s.casPend := by rw [show raise s p b = _ from raise_shape s p b]
@[simp] theorem raise_snapRun (s : State) (p b : Nat) : (raise s p b).snapRun = s.snapRun := by rw [show raise s p b = _ from raise_shape s p b]
@[simp] theorem raise_snapLatch (s : State) (p b : Nat) : (raise s p b).snapLatch = s.snapLatch := by rw [show raise s p b = _ from raise_shape s p b]
@[simp] theorem raise_dma (s : State) (p b : Nat) : (raise s p b).dma = s.dma := by rw [show raise s p b = _ from raise_shape s p b]
@[simp] theorem raise_time (s : State) (p b : Nat) : (raise s p b).time = s.time := by rw [show raise s p b = _ from raise_shape s p b]
@[simp] theorem raise_field (s : State) (p b : Nat) : (raise s p b).field = s.field := by rw [show raise s p b = _ from raise_shape s p b]
@[simp] theorem raise_safe (s : State) (p b : Nat) : (raise s p b).safe = s.safe := by rw [show raise s p b = _ from raise_shape s p b]
@[simp] theorem raise_pair (s : State) (p b : Nat) : (raise s p b).pair = s.pair := by rw [show raise s p b = _ from raise_shape s p b]
@[simp] theorem raise_bridge (s : State) (p b : Nat) : (raise s p b).bridge = s.bridge := by rw [show raise s p b = _ from raise_shape s p b]
@[simp] theorem raise_sched (s : State) (p b : Nat) : (raise s p b).sched = s.sched := by rw [show raise s p b = _ from raise_shape s p b]
@[simp] theorem raise_engs (s : State) (p b : Nat) : (raise s p b).engs = s.engs := by rw [show raise s p b = _ from raise_shape s p b]
@[simp] theorem raise_axes (s : State) (p b : Nat) : (raise s p b).axes = s.axes := by rw [show raise s p b = _ from raise_shape s p b]
@[simp] theorem raise_mots (s : State) (p b : Nat) : (raise s p b).mots = s.mots := by rw [show raise s p b = _ from raise_shape s p b]
@[simp] theorem raise_motRec (s : State) (p b : Nat) : (raise s p b).motRec = s.motRec := by rw [show raise s p b = _ from raise_shape s p b]
@[simp] theorem raise_camPend (s : State) (p b : Nat) : (raise s p b).camPend = s.camPend := by rw [show raise s p b = _ from raise_shape s p b]
@[simp] theorem raise_stops (s : State) (p b : Nat) : (raise s p b).stops = s.stops := by rw [show raise s p b = _ from raise_shape s p b]
@[simp] theorem raise_commit (s : State) (p b : Nat) : (raise s p b).commit = s.commit := by rw [show raise s p b = _ from raise_shape s p b]
@[simp] theorem raise_lemac (s : State) (p b : Nat) : (raise s p b).lemac = s.lemac := by rw [show raise s p b = _ from raise_shape s p b]
@[simp] theorem raise_safeA (s : State) (p b : Nat) : (raise s p b).safeA = s.safeA := by rw [show raise s p b = _ from raise_shape s p b]
@[simp] theorem raise_safeB (s : State) (p b : Nat) : (raise s p b).safeB = s.safeB := by rw [show raise s p b = _ from raise_shape s p b]
@[simp] theorem raise_plants (s : State) (p b : Nat) : (raise s p b).plants = s.plants := by rw [show raise s p b = _ from raise_shape s p b]
@[simp] theorem raise_tts (s : State) (p b : Nat) : (raise s p b).tts = s.tts := by rw [show raise s p b = _ from raise_shape s p b]
@[simp] theorem raise_capts (s : State) (p b : Nat) : (raise s p b).capts = s.capts := by rw [show raise s p b = _ from raise_shape s p b]
@[simp] theorem raise_encs (s : State) (p b : Nat) : (raise s p b).encs = s.encs := by rw [show raise s p b = _ from raise_shape s p b]
@[simp] theorem raise_emus (s : State) (p b : Nat) : (raise s p b).emus = s.emus := by rw [show raise s p b = _ from raise_shape s p b]
@[simp] theorem raise_acq (s : State) (p b : Nat) : (raise s p b).acq = s.acq := by rw [show raise s p b = _ from raise_shape s p b]
@[simp] theorem raise_cans (s : State) (p b : Nat) : (raise s p b).cans = s.cans := by rw [show raise s p b = _ from raise_shape s p b]
@[simp] theorem raise_eyes (s : State) (p b : Nat) : (raise s p b).eyes = s.eyes := by rw [show raise s p b = _ from raise_shape s p b]
@[simp] theorem raise_resp (s : State) (p b : Nat) : (raise s p b).resp = s.resp := by rw [show raise s p b = _ from raise_shape s p b]
@[simp] theorem raise_freeIdx (s : State) (p b : Nat) : (raise s p b).freeIdx = s.freeIdx := by rw [show raise s p b = _ from raise_shape s p b]

/-- `setSticky` changes nothing but regs and wire. -/
theorem setSticky_shape (s : State) (f : Fld) : RegsWire s (setSticky s f) := by
  unfold setSticky
  split
  · exact RegsWire.refl s
  · exact (RegsWire.wr s _ _).trans (raise_shape _ _ _)

@[simp] theorem setSticky_pending (s : State) (f : Fld) : (setSticky s f).pending = s.pending := by rw [show setSticky s f = _ from setSticky_shape s f]
@[simp] theorem setSticky_banked (s : State) (f : Fld) : (setSticky s f).banked = s.banked := by rw [show setSticky s f = _ from setSticky_shape s f]
@[simp] theorem setSticky_ctl (s : State) (f : Fld) : (setSticky s f).ctl = s.ctl := by rw [show setSticky s f = _ from setSticky_shape s f]
@[simp] theorem setSticky_mem (s : State) (f : Fld) : (setSticky s f).mem = s.mem := by rw [show setSticky s f = _ from setSticky_shape s f]
@[simp] theorem setSticky_pwr (s : State) (f : Fld) : (setSticky s f).pwr = s.pwr := by rw [show setSticky s f = _ from setSticky_shape s f]
@[simp] theorem setSticky_stalled (s : State) (f : Fld) : (setSticky s f).stalled = s.stalled := by rw [show setSticky s f = _ from setSticky_shape s f]
@[simp] theorem setSticky_mfault (s : State) (f : Fld) : (setSticky s f).mfault = s.mfault := by rw [show setSticky s f = _ from setSticky_shape s f]
@[simp] theorem setSticky_standby (s : State) (f : Fld) : (setSticky s f).standby = s.standby := by rw [show setSticky s f = _ from setSticky_shape s f]
@[simp] theorem setSticky_localTest (s : State) (f : Fld) : (setSticky s f).localTest = s.localTest := by rw [show setSticky s f = _ from setSticky_shape s f]
@[simp] theorem setSticky_surge (s : State) (f : Fld) : (setSticky s f).surge = s.surge := by rw [show setSticky s f = _ from setSticky_shape s f]
@[simp] theorem setSticky_ao (s : State) (f : Fld) : (setSticky s f).ao = s.ao := by rw [show setSticky s f = _ from setSticky_shape s f]
@[simp] theorem setSticky_boot (s : State) (f : Fld) : (setSticky s f).boot = s.boot := by rw [show setSticky s f = _ from setSticky_shape s f]
@[simp] theorem setSticky_tests (s : State) (f : Fld) : (setSticky s f).tests = s.tests := by rw [show setSticky s f = _ from setSticky_shape s f]
@[simp] theorem setSticky_lockSeq (s : State) (f : Fld) : (setSticky s f).lockSeq = s.lockSeq := by rw [show setSticky s f = _ from setSticky_shape s f]
@[simp] theorem setSticky_cist (s : State) (f : Fld) : (setSticky s f).cist = s.cist := by rw [show setSticky s f = _ from setSticky_shape s f]
@[simp] theorem setSticky_casPend (s : State) (f : Fld) : (setSticky s f).casPend = s.casPend := by rw [show setSticky s f = _ from setSticky_shape s f]
@[simp] theorem setSticky_snapRun (s : State) (f : Fld) : (setSticky s f).snapRun = s.snapRun := by rw [show setSticky s f = _ from setSticky_shape s f]
@[simp] theorem setSticky_snapLatch (s : State) (f : Fld) : (setSticky s f).snapLatch = s.snapLatch := by rw [show setSticky s f = _ from setSticky_shape s f]
@[simp] theorem setSticky_dma (s : State) (f : Fld) : (setSticky s f).dma = s.dma := by rw [show setSticky s f = _ from setSticky_shape s f]
@[simp] theorem setSticky_time (s : State) (f : Fld) : (setSticky s f).time = s.time := by rw [show setSticky s f = _ from setSticky_shape s f]
@[simp] theorem setSticky_field (s : State) (f : Fld) : (setSticky s f).field = s.field := by rw [show setSticky s f = _ from setSticky_shape s f]
@[simp] theorem setSticky_safe (s : State) (f : Fld) : (setSticky s f).safe = s.safe := by rw [show setSticky s f = _ from setSticky_shape s f]
@[simp] theorem setSticky_pair (s : State) (f : Fld) : (setSticky s f).pair = s.pair := by rw [show setSticky s f = _ from setSticky_shape s f]
@[simp] theorem setSticky_bridge (s : State) (f : Fld) : (setSticky s f).bridge = s.bridge := by rw [show setSticky s f = _ from setSticky_shape s f]
@[simp] theorem setSticky_sched (s : State) (f : Fld) : (setSticky s f).sched = s.sched := by rw [show setSticky s f = _ from setSticky_shape s f]
@[simp] theorem setSticky_engs (s : State) (f : Fld) : (setSticky s f).engs = s.engs := by rw [show setSticky s f = _ from setSticky_shape s f]
@[simp] theorem setSticky_axes (s : State) (f : Fld) : (setSticky s f).axes = s.axes := by rw [show setSticky s f = _ from setSticky_shape s f]
@[simp] theorem setSticky_mots (s : State) (f : Fld) : (setSticky s f).mots = s.mots := by rw [show setSticky s f = _ from setSticky_shape s f]
@[simp] theorem setSticky_motRec (s : State) (f : Fld) : (setSticky s f).motRec = s.motRec := by rw [show setSticky s f = _ from setSticky_shape s f]
@[simp] theorem setSticky_camPend (s : State) (f : Fld) : (setSticky s f).camPend = s.camPend := by rw [show setSticky s f = _ from setSticky_shape s f]
@[simp] theorem setSticky_stops (s : State) (f : Fld) : (setSticky s f).stops = s.stops := by rw [show setSticky s f = _ from setSticky_shape s f]
@[simp] theorem setSticky_commit (s : State) (f : Fld) : (setSticky s f).commit = s.commit := by rw [show setSticky s f = _ from setSticky_shape s f]
@[simp] theorem setSticky_lemac (s : State) (f : Fld) : (setSticky s f).lemac = s.lemac := by rw [show setSticky s f = _ from setSticky_shape s f]
@[simp] theorem setSticky_safeA (s : State) (f : Fld) : (setSticky s f).safeA = s.safeA := by rw [show setSticky s f = _ from setSticky_shape s f]
@[simp] theorem setSticky_safeB (s : State) (f : Fld) : (setSticky s f).safeB = s.safeB := by rw [show setSticky s f = _ from setSticky_shape s f]
@[simp] theorem setSticky_plants (s : State) (f : Fld) : (setSticky s f).plants = s.plants := by rw [show setSticky s f = _ from setSticky_shape s f]
@[simp] theorem setSticky_tts (s : State) (f : Fld) : (setSticky s f).tts = s.tts := by rw [show setSticky s f = _ from setSticky_shape s f]
@[simp] theorem setSticky_capts (s : State) (f : Fld) : (setSticky s f).capts = s.capts := by rw [show setSticky s f = _ from setSticky_shape s f]
@[simp] theorem setSticky_encs (s : State) (f : Fld) : (setSticky s f).encs = s.encs := by rw [show setSticky s f = _ from setSticky_shape s f]
@[simp] theorem setSticky_emus (s : State) (f : Fld) : (setSticky s f).emus = s.emus := by rw [show setSticky s f = _ from setSticky_shape s f]
@[simp] theorem setSticky_acq (s : State) (f : Fld) : (setSticky s f).acq = s.acq := by rw [show setSticky s f = _ from setSticky_shape s f]
@[simp] theorem setSticky_cans (s : State) (f : Fld) : (setSticky s f).cans = s.cans := by rw [show setSticky s f = _ from setSticky_shape s f]
@[simp] theorem setSticky_eyes (s : State) (f : Fld) : (setSticky s f).eyes = s.eyes := by rw [show setSticky s f = _ from setSticky_shape s f]
@[simp] theorem setSticky_resp (s : State) (f : Fld) : (setSticky s f).resp = s.resp := by rw [show setSticky s f = _ from setSticky_shape s f]
@[simp] theorem setSticky_freeIdx (s : State) (f : Fld) : (setSticky s f).freeIdx = s.freeIdx := by rw [show setSticky s f = _ from setSticky_shape s f]

/-- `clrBusy` changes nothing but regs and wire. -/
theorem clrBusy_shape (s : State) (f : Fld) : RegsWire s (clrBusy s f) := by
  unfold clrBusy
  split
  · exact (RegsWire.wr s _ _).trans (raise_shape _ _ _)
  · exact RegsWire.refl s

@[simp] theorem clrBusy_pending (s : State) (f : Fld) : (clrBusy s f).pending = s.pending := by rw [show clrBusy s f = _ from clrBusy_shape s f]
@[simp] theorem clrBusy_banked (s : State) (f : Fld) : (clrBusy s f).banked = s.banked := by rw [show clrBusy s f = _ from clrBusy_shape s f]
@[simp] theorem clrBusy_ctl (s : State) (f : Fld) : (clrBusy s f).ctl = s.ctl := by rw [show clrBusy s f = _ from clrBusy_shape s f]
@[simp] theorem clrBusy_mem (s : State) (f : Fld) : (clrBusy s f).mem = s.mem := by rw [show clrBusy s f = _ from clrBusy_shape s f]
@[simp] theorem clrBusy_pwr (s : State) (f : Fld) : (clrBusy s f).pwr = s.pwr := by rw [show clrBusy s f = _ from clrBusy_shape s f]
@[simp] theorem clrBusy_stalled (s : State) (f : Fld) : (clrBusy s f).stalled = s.stalled := by rw [show clrBusy s f = _ from clrBusy_shape s f]
@[simp] theorem clrBusy_mfault (s : State) (f : Fld) : (clrBusy s f).mfault = s.mfault := by rw [show clrBusy s f = _ from clrBusy_shape s f]
@[simp] theorem clrBusy_standby (s : State) (f : Fld) : (clrBusy s f).standby = s.standby := by rw [show clrBusy s f = _ from clrBusy_shape s f]
@[simp] theorem clrBusy_localTest (s : State) (f : Fld) : (clrBusy s f).localTest = s.localTest := by rw [show clrBusy s f = _ from clrBusy_shape s f]
@[simp] theorem clrBusy_surge (s : State) (f : Fld) : (clrBusy s f).surge = s.surge := by rw [show clrBusy s f = _ from clrBusy_shape s f]
@[simp] theorem clrBusy_ao (s : State) (f : Fld) : (clrBusy s f).ao = s.ao := by rw [show clrBusy s f = _ from clrBusy_shape s f]
@[simp] theorem clrBusy_boot (s : State) (f : Fld) : (clrBusy s f).boot = s.boot := by rw [show clrBusy s f = _ from clrBusy_shape s f]
@[simp] theorem clrBusy_tests (s : State) (f : Fld) : (clrBusy s f).tests = s.tests := by rw [show clrBusy s f = _ from clrBusy_shape s f]
@[simp] theorem clrBusy_lockSeq (s : State) (f : Fld) : (clrBusy s f).lockSeq = s.lockSeq := by rw [show clrBusy s f = _ from clrBusy_shape s f]
@[simp] theorem clrBusy_cist (s : State) (f : Fld) : (clrBusy s f).cist = s.cist := by rw [show clrBusy s f = _ from clrBusy_shape s f]
@[simp] theorem clrBusy_casPend (s : State) (f : Fld) : (clrBusy s f).casPend = s.casPend := by rw [show clrBusy s f = _ from clrBusy_shape s f]
@[simp] theorem clrBusy_snapRun (s : State) (f : Fld) : (clrBusy s f).snapRun = s.snapRun := by rw [show clrBusy s f = _ from clrBusy_shape s f]
@[simp] theorem clrBusy_snapLatch (s : State) (f : Fld) : (clrBusy s f).snapLatch = s.snapLatch := by rw [show clrBusy s f = _ from clrBusy_shape s f]
@[simp] theorem clrBusy_dma (s : State) (f : Fld) : (clrBusy s f).dma = s.dma := by rw [show clrBusy s f = _ from clrBusy_shape s f]
@[simp] theorem clrBusy_time (s : State) (f : Fld) : (clrBusy s f).time = s.time := by rw [show clrBusy s f = _ from clrBusy_shape s f]
@[simp] theorem clrBusy_field (s : State) (f : Fld) : (clrBusy s f).field = s.field := by rw [show clrBusy s f = _ from clrBusy_shape s f]
@[simp] theorem clrBusy_safe (s : State) (f : Fld) : (clrBusy s f).safe = s.safe := by rw [show clrBusy s f = _ from clrBusy_shape s f]
@[simp] theorem clrBusy_pair (s : State) (f : Fld) : (clrBusy s f).pair = s.pair := by rw [show clrBusy s f = _ from clrBusy_shape s f]
@[simp] theorem clrBusy_bridge (s : State) (f : Fld) : (clrBusy s f).bridge = s.bridge := by rw [show clrBusy s f = _ from clrBusy_shape s f]
@[simp] theorem clrBusy_sched (s : State) (f : Fld) : (clrBusy s f).sched = s.sched := by rw [show clrBusy s f = _ from clrBusy_shape s f]
@[simp] theorem clrBusy_engs (s : State) (f : Fld) : (clrBusy s f).engs = s.engs := by rw [show clrBusy s f = _ from clrBusy_shape s f]
@[simp] theorem clrBusy_axes (s : State) (f : Fld) : (clrBusy s f).axes = s.axes := by rw [show clrBusy s f = _ from clrBusy_shape s f]
@[simp] theorem clrBusy_mots (s : State) (f : Fld) : (clrBusy s f).mots = s.mots := by rw [show clrBusy s f = _ from clrBusy_shape s f]
@[simp] theorem clrBusy_motRec (s : State) (f : Fld) : (clrBusy s f).motRec = s.motRec := by rw [show clrBusy s f = _ from clrBusy_shape s f]
@[simp] theorem clrBusy_camPend (s : State) (f : Fld) : (clrBusy s f).camPend = s.camPend := by rw [show clrBusy s f = _ from clrBusy_shape s f]
@[simp] theorem clrBusy_stops (s : State) (f : Fld) : (clrBusy s f).stops = s.stops := by rw [show clrBusy s f = _ from clrBusy_shape s f]
@[simp] theorem clrBusy_commit (s : State) (f : Fld) : (clrBusy s f).commit = s.commit := by rw [show clrBusy s f = _ from clrBusy_shape s f]
@[simp] theorem clrBusy_lemac (s : State) (f : Fld) : (clrBusy s f).lemac = s.lemac := by rw [show clrBusy s f = _ from clrBusy_shape s f]
@[simp] theorem clrBusy_safeA (s : State) (f : Fld) : (clrBusy s f).safeA = s.safeA := by rw [show clrBusy s f = _ from clrBusy_shape s f]
@[simp] theorem clrBusy_safeB (s : State) (f : Fld) : (clrBusy s f).safeB = s.safeB := by rw [show clrBusy s f = _ from clrBusy_shape s f]
@[simp] theorem clrBusy_plants (s : State) (f : Fld) : (clrBusy s f).plants = s.plants := by rw [show clrBusy s f = _ from clrBusy_shape s f]
@[simp] theorem clrBusy_tts (s : State) (f : Fld) : (clrBusy s f).tts = s.tts := by rw [show clrBusy s f = _ from clrBusy_shape s f]
@[simp] theorem clrBusy_capts (s : State) (f : Fld) : (clrBusy s f).capts = s.capts := by rw [show clrBusy s f = _ from clrBusy_shape s f]
@[simp] theorem clrBusy_encs (s : State) (f : Fld) : (clrBusy s f).encs = s.encs := by rw [show clrBusy s f = _ from clrBusy_shape s f]
@[simp] theorem clrBusy_emus (s : State) (f : Fld) : (clrBusy s f).emus = s.emus := by rw [show clrBusy s f = _ from clrBusy_shape s f]
@[simp] theorem clrBusy_acq (s : State) (f : Fld) : (clrBusy s f).acq = s.acq := by rw [show clrBusy s f = _ from clrBusy_shape s f]
@[simp] theorem clrBusy_cans (s : State) (f : Fld) : (clrBusy s f).cans = s.cans := by rw [show clrBusy s f = _ from clrBusy_shape s f]
@[simp] theorem clrBusy_eyes (s : State) (f : Fld) : (clrBusy s f).eyes = s.eyes := by rw [show clrBusy s f = _ from clrBusy_shape s f]
@[simp] theorem clrBusy_resp (s : State) (f : Fld) : (clrBusy s f).resp = s.resp := by rw [show clrBusy s f = _ from clrBusy_shape s f]
@[simp] theorem clrBusy_freeIdx (s : State) (f : Fld) : (clrBusy s f).freeIdx = s.freeIdx := by rw [show clrBusy s f = _ from clrBusy_shape s f]

/-- `setStat` changes nothing but regs and wire. -/
theorem setStat_shape (s : State) (f : Fld) : RegsWire s (setStat s f) := by
  unfold setStat
  split
  · exact RegsWire.refl s
  · exact (RegsWire.wr s _ _).trans (raise_shape _ _ _)

@[simp] theorem setStat_pending (s : State) (f : Fld) : (setStat s f).pending = s.pending := by rw [show setStat s f = _ from setStat_shape s f]
@[simp] theorem setStat_banked (s : State) (f : Fld) : (setStat s f).banked = s.banked := by rw [show setStat s f = _ from setStat_shape s f]
@[simp] theorem setStat_ctl (s : State) (f : Fld) : (setStat s f).ctl = s.ctl := by rw [show setStat s f = _ from setStat_shape s f]
@[simp] theorem setStat_mem (s : State) (f : Fld) : (setStat s f).mem = s.mem := by rw [show setStat s f = _ from setStat_shape s f]
@[simp] theorem setStat_pwr (s : State) (f : Fld) : (setStat s f).pwr = s.pwr := by rw [show setStat s f = _ from setStat_shape s f]
@[simp] theorem setStat_stalled (s : State) (f : Fld) : (setStat s f).stalled = s.stalled := by rw [show setStat s f = _ from setStat_shape s f]
@[simp] theorem setStat_mfault (s : State) (f : Fld) : (setStat s f).mfault = s.mfault := by rw [show setStat s f = _ from setStat_shape s f]
@[simp] theorem setStat_standby (s : State) (f : Fld) : (setStat s f).standby = s.standby := by rw [show setStat s f = _ from setStat_shape s f]
@[simp] theorem setStat_localTest (s : State) (f : Fld) : (setStat s f).localTest = s.localTest := by rw [show setStat s f = _ from setStat_shape s f]
@[simp] theorem setStat_surge (s : State) (f : Fld) : (setStat s f).surge = s.surge := by rw [show setStat s f = _ from setStat_shape s f]
@[simp] theorem setStat_ao (s : State) (f : Fld) : (setStat s f).ao = s.ao := by rw [show setStat s f = _ from setStat_shape s f]
@[simp] theorem setStat_boot (s : State) (f : Fld) : (setStat s f).boot = s.boot := by rw [show setStat s f = _ from setStat_shape s f]
@[simp] theorem setStat_tests (s : State) (f : Fld) : (setStat s f).tests = s.tests := by rw [show setStat s f = _ from setStat_shape s f]
@[simp] theorem setStat_lockSeq (s : State) (f : Fld) : (setStat s f).lockSeq = s.lockSeq := by rw [show setStat s f = _ from setStat_shape s f]
@[simp] theorem setStat_cist (s : State) (f : Fld) : (setStat s f).cist = s.cist := by rw [show setStat s f = _ from setStat_shape s f]
@[simp] theorem setStat_casPend (s : State) (f : Fld) : (setStat s f).casPend = s.casPend := by rw [show setStat s f = _ from setStat_shape s f]
@[simp] theorem setStat_snapRun (s : State) (f : Fld) : (setStat s f).snapRun = s.snapRun := by rw [show setStat s f = _ from setStat_shape s f]
@[simp] theorem setStat_snapLatch (s : State) (f : Fld) : (setStat s f).snapLatch = s.snapLatch := by rw [show setStat s f = _ from setStat_shape s f]
@[simp] theorem setStat_dma (s : State) (f : Fld) : (setStat s f).dma = s.dma := by rw [show setStat s f = _ from setStat_shape s f]
@[simp] theorem setStat_time (s : State) (f : Fld) : (setStat s f).time = s.time := by rw [show setStat s f = _ from setStat_shape s f]
@[simp] theorem setStat_field (s : State) (f : Fld) : (setStat s f).field = s.field := by rw [show setStat s f = _ from setStat_shape s f]
@[simp] theorem setStat_safe (s : State) (f : Fld) : (setStat s f).safe = s.safe := by rw [show setStat s f = _ from setStat_shape s f]
@[simp] theorem setStat_pair (s : State) (f : Fld) : (setStat s f).pair = s.pair := by rw [show setStat s f = _ from setStat_shape s f]
@[simp] theorem setStat_bridge (s : State) (f : Fld) : (setStat s f).bridge = s.bridge := by rw [show setStat s f = _ from setStat_shape s f]
@[simp] theorem setStat_sched (s : State) (f : Fld) : (setStat s f).sched = s.sched := by rw [show setStat s f = _ from setStat_shape s f]
@[simp] theorem setStat_engs (s : State) (f : Fld) : (setStat s f).engs = s.engs := by rw [show setStat s f = _ from setStat_shape s f]
@[simp] theorem setStat_axes (s : State) (f : Fld) : (setStat s f).axes = s.axes := by rw [show setStat s f = _ from setStat_shape s f]
@[simp] theorem setStat_mots (s : State) (f : Fld) : (setStat s f).mots = s.mots := by rw [show setStat s f = _ from setStat_shape s f]
@[simp] theorem setStat_motRec (s : State) (f : Fld) : (setStat s f).motRec = s.motRec := by rw [show setStat s f = _ from setStat_shape s f]
@[simp] theorem setStat_camPend (s : State) (f : Fld) : (setStat s f).camPend = s.camPend := by rw [show setStat s f = _ from setStat_shape s f]
@[simp] theorem setStat_stops (s : State) (f : Fld) : (setStat s f).stops = s.stops := by rw [show setStat s f = _ from setStat_shape s f]
@[simp] theorem setStat_commit (s : State) (f : Fld) : (setStat s f).commit = s.commit := by rw [show setStat s f = _ from setStat_shape s f]
@[simp] theorem setStat_lemac (s : State) (f : Fld) : (setStat s f).lemac = s.lemac := by rw [show setStat s f = _ from setStat_shape s f]
@[simp] theorem setStat_safeA (s : State) (f : Fld) : (setStat s f).safeA = s.safeA := by rw [show setStat s f = _ from setStat_shape s f]
@[simp] theorem setStat_safeB (s : State) (f : Fld) : (setStat s f).safeB = s.safeB := by rw [show setStat s f = _ from setStat_shape s f]
@[simp] theorem setStat_plants (s : State) (f : Fld) : (setStat s f).plants = s.plants := by rw [show setStat s f = _ from setStat_shape s f]
@[simp] theorem setStat_tts (s : State) (f : Fld) : (setStat s f).tts = s.tts := by rw [show setStat s f = _ from setStat_shape s f]
@[simp] theorem setStat_capts (s : State) (f : Fld) : (setStat s f).capts = s.capts := by rw [show setStat s f = _ from setStat_shape s f]
@[simp] theorem setStat_encs (s : State) (f : Fld) : (setStat s f).encs = s.encs := by rw [show setStat s f = _ from setStat_shape s f]
@[simp] theorem setStat_emus (s : State) (f : Fld) : (setStat s f).emus = s.emus := by rw [show setStat s f = _ from setStat_shape s f]
@[simp] theorem setStat_acq (s : State) (f : Fld) : (setStat s f).acq = s.acq := by rw [show setStat s f = _ from setStat_shape s f]
@[simp] theorem setStat_cans (s : State) (f : Fld) : (setStat s f).cans = s.cans := by rw [show setStat s f = _ from setStat_shape s f]
@[simp] theorem setStat_eyes (s : State) (f : Fld) : (setStat s f).eyes = s.eyes := by rw [show setStat s f = _ from setStat_shape s f]
@[simp] theorem setStat_resp (s : State) (f : Fld) : (setStat s f).resp = s.resp := by rw [show setStat s f = _ from setStat_shape s f]
@[simp] theorem setStat_freeIdx (s : State) (f : Fld) : (setStat s f).freeIdx = s.freeIdx := by rw [show setStat s f = _ from setStat_shape s f]

/-- `addCnt` changes nothing but regs and wire. -/
theorem addCnt_shape (s : State) (f : Fld) (n : Nat) : RegsWire s (addCnt s f n) := by
  unfold addCnt
  dsimp only
  split
  · exact (RegsWire.wr s _ _).trans (setStat_shape _ _)
  · exact RegsWire.wr s _ _

@[simp] theorem addCnt_pending (s : State) (f : Fld) (n : Nat) : (addCnt s f n).pending = s.pending := by rw [show addCnt s f n = _ from addCnt_shape s f n]
@[simp] theorem addCnt_banked (s : State) (f : Fld) (n : Nat) : (addCnt s f n).banked = s.banked := by rw [show addCnt s f n = _ from addCnt_shape s f n]
@[simp] theorem addCnt_ctl (s : State) (f : Fld) (n : Nat) : (addCnt s f n).ctl = s.ctl := by rw [show addCnt s f n = _ from addCnt_shape s f n]
@[simp] theorem addCnt_mem (s : State) (f : Fld) (n : Nat) : (addCnt s f n).mem = s.mem := by rw [show addCnt s f n = _ from addCnt_shape s f n]
@[simp] theorem addCnt_pwr (s : State) (f : Fld) (n : Nat) : (addCnt s f n).pwr = s.pwr := by rw [show addCnt s f n = _ from addCnt_shape s f n]
@[simp] theorem addCnt_stalled (s : State) (f : Fld) (n : Nat) : (addCnt s f n).stalled = s.stalled := by rw [show addCnt s f n = _ from addCnt_shape s f n]
@[simp] theorem addCnt_mfault (s : State) (f : Fld) (n : Nat) : (addCnt s f n).mfault = s.mfault := by rw [show addCnt s f n = _ from addCnt_shape s f n]
@[simp] theorem addCnt_standby (s : State) (f : Fld) (n : Nat) : (addCnt s f n).standby = s.standby := by rw [show addCnt s f n = _ from addCnt_shape s f n]
@[simp] theorem addCnt_localTest (s : State) (f : Fld) (n : Nat) : (addCnt s f n).localTest = s.localTest := by rw [show addCnt s f n = _ from addCnt_shape s f n]
@[simp] theorem addCnt_surge (s : State) (f : Fld) (n : Nat) : (addCnt s f n).surge = s.surge := by rw [show addCnt s f n = _ from addCnt_shape s f n]
@[simp] theorem addCnt_ao (s : State) (f : Fld) (n : Nat) : (addCnt s f n).ao = s.ao := by rw [show addCnt s f n = _ from addCnt_shape s f n]
@[simp] theorem addCnt_boot (s : State) (f : Fld) (n : Nat) : (addCnt s f n).boot = s.boot := by rw [show addCnt s f n = _ from addCnt_shape s f n]
@[simp] theorem addCnt_tests (s : State) (f : Fld) (n : Nat) : (addCnt s f n).tests = s.tests := by rw [show addCnt s f n = _ from addCnt_shape s f n]
@[simp] theorem addCnt_lockSeq (s : State) (f : Fld) (n : Nat) : (addCnt s f n).lockSeq = s.lockSeq := by rw [show addCnt s f n = _ from addCnt_shape s f n]
@[simp] theorem addCnt_cist (s : State) (f : Fld) (n : Nat) : (addCnt s f n).cist = s.cist := by rw [show addCnt s f n = _ from addCnt_shape s f n]
@[simp] theorem addCnt_casPend (s : State) (f : Fld) (n : Nat) : (addCnt s f n).casPend = s.casPend := by rw [show addCnt s f n = _ from addCnt_shape s f n]
@[simp] theorem addCnt_snapRun (s : State) (f : Fld) (n : Nat) : (addCnt s f n).snapRun = s.snapRun := by rw [show addCnt s f n = _ from addCnt_shape s f n]
@[simp] theorem addCnt_snapLatch (s : State) (f : Fld) (n : Nat) : (addCnt s f n).snapLatch = s.snapLatch := by rw [show addCnt s f n = _ from addCnt_shape s f n]
@[simp] theorem addCnt_dma (s : State) (f : Fld) (n : Nat) : (addCnt s f n).dma = s.dma := by rw [show addCnt s f n = _ from addCnt_shape s f n]
@[simp] theorem addCnt_time (s : State) (f : Fld) (n : Nat) : (addCnt s f n).time = s.time := by rw [show addCnt s f n = _ from addCnt_shape s f n]
@[simp] theorem addCnt_field (s : State) (f : Fld) (n : Nat) : (addCnt s f n).field = s.field := by rw [show addCnt s f n = _ from addCnt_shape s f n]
@[simp] theorem addCnt_safe (s : State) (f : Fld) (n : Nat) : (addCnt s f n).safe = s.safe := by rw [show addCnt s f n = _ from addCnt_shape s f n]
@[simp] theorem addCnt_pair (s : State) (f : Fld) (n : Nat) : (addCnt s f n).pair = s.pair := by rw [show addCnt s f n = _ from addCnt_shape s f n]
@[simp] theorem addCnt_bridge (s : State) (f : Fld) (n : Nat) : (addCnt s f n).bridge = s.bridge := by rw [show addCnt s f n = _ from addCnt_shape s f n]
@[simp] theorem addCnt_sched (s : State) (f : Fld) (n : Nat) : (addCnt s f n).sched = s.sched := by rw [show addCnt s f n = _ from addCnt_shape s f n]
@[simp] theorem addCnt_engs (s : State) (f : Fld) (n : Nat) : (addCnt s f n).engs = s.engs := by rw [show addCnt s f n = _ from addCnt_shape s f n]
@[simp] theorem addCnt_axes (s : State) (f : Fld) (n : Nat) : (addCnt s f n).axes = s.axes := by rw [show addCnt s f n = _ from addCnt_shape s f n]
@[simp] theorem addCnt_mots (s : State) (f : Fld) (n : Nat) : (addCnt s f n).mots = s.mots := by rw [show addCnt s f n = _ from addCnt_shape s f n]
@[simp] theorem addCnt_motRec (s : State) (f : Fld) (n : Nat) : (addCnt s f n).motRec = s.motRec := by rw [show addCnt s f n = _ from addCnt_shape s f n]
@[simp] theorem addCnt_camPend (s : State) (f : Fld) (n : Nat) : (addCnt s f n).camPend = s.camPend := by rw [show addCnt s f n = _ from addCnt_shape s f n]
@[simp] theorem addCnt_stops (s : State) (f : Fld) (n : Nat) : (addCnt s f n).stops = s.stops := by rw [show addCnt s f n = _ from addCnt_shape s f n]
@[simp] theorem addCnt_commit (s : State) (f : Fld) (n : Nat) : (addCnt s f n).commit = s.commit := by rw [show addCnt s f n = _ from addCnt_shape s f n]
@[simp] theorem addCnt_lemac (s : State) (f : Fld) (n : Nat) : (addCnt s f n).lemac = s.lemac := by rw [show addCnt s f n = _ from addCnt_shape s f n]
@[simp] theorem addCnt_safeA (s : State) (f : Fld) (n : Nat) : (addCnt s f n).safeA = s.safeA := by rw [show addCnt s f n = _ from addCnt_shape s f n]
@[simp] theorem addCnt_safeB (s : State) (f : Fld) (n : Nat) : (addCnt s f n).safeB = s.safeB := by rw [show addCnt s f n = _ from addCnt_shape s f n]
@[simp] theorem addCnt_plants (s : State) (f : Fld) (n : Nat) : (addCnt s f n).plants = s.plants := by rw [show addCnt s f n = _ from addCnt_shape s f n]
@[simp] theorem addCnt_tts (s : State) (f : Fld) (n : Nat) : (addCnt s f n).tts = s.tts := by rw [show addCnt s f n = _ from addCnt_shape s f n]
@[simp] theorem addCnt_capts (s : State) (f : Fld) (n : Nat) : (addCnt s f n).capts = s.capts := by rw [show addCnt s f n = _ from addCnt_shape s f n]
@[simp] theorem addCnt_encs (s : State) (f : Fld) (n : Nat) : (addCnt s f n).encs = s.encs := by rw [show addCnt s f n = _ from addCnt_shape s f n]
@[simp] theorem addCnt_emus (s : State) (f : Fld) (n : Nat) : (addCnt s f n).emus = s.emus := by rw [show addCnt s f n = _ from addCnt_shape s f n]
@[simp] theorem addCnt_acq (s : State) (f : Fld) (n : Nat) : (addCnt s f n).acq = s.acq := by rw [show addCnt s f n = _ from addCnt_shape s f n]
@[simp] theorem addCnt_cans (s : State) (f : Fld) (n : Nat) : (addCnt s f n).cans = s.cans := by rw [show addCnt s f n = _ from addCnt_shape s f n]
@[simp] theorem addCnt_eyes (s : State) (f : Fld) (n : Nat) : (addCnt s f n).eyes = s.eyes := by rw [show addCnt s f n = _ from addCnt_shape s f n]
@[simp] theorem addCnt_resp (s : State) (f : Fld) (n : Nat) : (addCnt s f n).resp = s.resp := by rw [show addCnt s f n = _ from addCnt_shape s f n]
@[simp] theorem addCnt_freeIdx (s : State) (f : Fld) (n : Nat) : (addCnt s f n).freeIdx = s.freeIdx := by rw [show addCnt s f n = _ from addCnt_shape s f n]

/-- `incCnt` changes nothing but regs and wire. -/
theorem incCnt_shape (s : State) (f : Fld) : RegsWire s (incCnt s f) := addCnt_shape _ _ _

@[simp] theorem incCnt_pending (s : State) (f : Fld) : (incCnt s f).pending = s.pending := by rw [show incCnt s f = _ from incCnt_shape s f]
@[simp] theorem incCnt_banked (s : State) (f : Fld) : (incCnt s f).banked = s.banked := by rw [show incCnt s f = _ from incCnt_shape s f]
@[simp] theorem incCnt_ctl (s : State) (f : Fld) : (incCnt s f).ctl = s.ctl := by rw [show incCnt s f = _ from incCnt_shape s f]
@[simp] theorem incCnt_mem (s : State) (f : Fld) : (incCnt s f).mem = s.mem := by rw [show incCnt s f = _ from incCnt_shape s f]
@[simp] theorem incCnt_pwr (s : State) (f : Fld) : (incCnt s f).pwr = s.pwr := by rw [show incCnt s f = _ from incCnt_shape s f]
@[simp] theorem incCnt_stalled (s : State) (f : Fld) : (incCnt s f).stalled = s.stalled := by rw [show incCnt s f = _ from incCnt_shape s f]
@[simp] theorem incCnt_mfault (s : State) (f : Fld) : (incCnt s f).mfault = s.mfault := by rw [show incCnt s f = _ from incCnt_shape s f]
@[simp] theorem incCnt_standby (s : State) (f : Fld) : (incCnt s f).standby = s.standby := by rw [show incCnt s f = _ from incCnt_shape s f]
@[simp] theorem incCnt_localTest (s : State) (f : Fld) : (incCnt s f).localTest = s.localTest := by rw [show incCnt s f = _ from incCnt_shape s f]
@[simp] theorem incCnt_surge (s : State) (f : Fld) : (incCnt s f).surge = s.surge := by rw [show incCnt s f = _ from incCnt_shape s f]
@[simp] theorem incCnt_ao (s : State) (f : Fld) : (incCnt s f).ao = s.ao := by rw [show incCnt s f = _ from incCnt_shape s f]
@[simp] theorem incCnt_boot (s : State) (f : Fld) : (incCnt s f).boot = s.boot := by rw [show incCnt s f = _ from incCnt_shape s f]
@[simp] theorem incCnt_tests (s : State) (f : Fld) : (incCnt s f).tests = s.tests := by rw [show incCnt s f = _ from incCnt_shape s f]
@[simp] theorem incCnt_lockSeq (s : State) (f : Fld) : (incCnt s f).lockSeq = s.lockSeq := by rw [show incCnt s f = _ from incCnt_shape s f]
@[simp] theorem incCnt_cist (s : State) (f : Fld) : (incCnt s f).cist = s.cist := by rw [show incCnt s f = _ from incCnt_shape s f]
@[simp] theorem incCnt_casPend (s : State) (f : Fld) : (incCnt s f).casPend = s.casPend := by rw [show incCnt s f = _ from incCnt_shape s f]
@[simp] theorem incCnt_snapRun (s : State) (f : Fld) : (incCnt s f).snapRun = s.snapRun := by rw [show incCnt s f = _ from incCnt_shape s f]
@[simp] theorem incCnt_snapLatch (s : State) (f : Fld) : (incCnt s f).snapLatch = s.snapLatch := by rw [show incCnt s f = _ from incCnt_shape s f]
@[simp] theorem incCnt_dma (s : State) (f : Fld) : (incCnt s f).dma = s.dma := by rw [show incCnt s f = _ from incCnt_shape s f]
@[simp] theorem incCnt_time (s : State) (f : Fld) : (incCnt s f).time = s.time := by rw [show incCnt s f = _ from incCnt_shape s f]
@[simp] theorem incCnt_field (s : State) (f : Fld) : (incCnt s f).field = s.field := by rw [show incCnt s f = _ from incCnt_shape s f]
@[simp] theorem incCnt_safe (s : State) (f : Fld) : (incCnt s f).safe = s.safe := by rw [show incCnt s f = _ from incCnt_shape s f]
@[simp] theorem incCnt_pair (s : State) (f : Fld) : (incCnt s f).pair = s.pair := by rw [show incCnt s f = _ from incCnt_shape s f]
@[simp] theorem incCnt_bridge (s : State) (f : Fld) : (incCnt s f).bridge = s.bridge := by rw [show incCnt s f = _ from incCnt_shape s f]
@[simp] theorem incCnt_sched (s : State) (f : Fld) : (incCnt s f).sched = s.sched := by rw [show incCnt s f = _ from incCnt_shape s f]
@[simp] theorem incCnt_engs (s : State) (f : Fld) : (incCnt s f).engs = s.engs := by rw [show incCnt s f = _ from incCnt_shape s f]
@[simp] theorem incCnt_axes (s : State) (f : Fld) : (incCnt s f).axes = s.axes := by rw [show incCnt s f = _ from incCnt_shape s f]
@[simp] theorem incCnt_mots (s : State) (f : Fld) : (incCnt s f).mots = s.mots := by rw [show incCnt s f = _ from incCnt_shape s f]
@[simp] theorem incCnt_motRec (s : State) (f : Fld) : (incCnt s f).motRec = s.motRec := by rw [show incCnt s f = _ from incCnt_shape s f]
@[simp] theorem incCnt_camPend (s : State) (f : Fld) : (incCnt s f).camPend = s.camPend := by rw [show incCnt s f = _ from incCnt_shape s f]
@[simp] theorem incCnt_stops (s : State) (f : Fld) : (incCnt s f).stops = s.stops := by rw [show incCnt s f = _ from incCnt_shape s f]
@[simp] theorem incCnt_commit (s : State) (f : Fld) : (incCnt s f).commit = s.commit := by rw [show incCnt s f = _ from incCnt_shape s f]
@[simp] theorem incCnt_lemac (s : State) (f : Fld) : (incCnt s f).lemac = s.lemac := by rw [show incCnt s f = _ from incCnt_shape s f]
@[simp] theorem incCnt_safeA (s : State) (f : Fld) : (incCnt s f).safeA = s.safeA := by rw [show incCnt s f = _ from incCnt_shape s f]
@[simp] theorem incCnt_safeB (s : State) (f : Fld) : (incCnt s f).safeB = s.safeB := by rw [show incCnt s f = _ from incCnt_shape s f]
@[simp] theorem incCnt_plants (s : State) (f : Fld) : (incCnt s f).plants = s.plants := by rw [show incCnt s f = _ from incCnt_shape s f]
@[simp] theorem incCnt_tts (s : State) (f : Fld) : (incCnt s f).tts = s.tts := by rw [show incCnt s f = _ from incCnt_shape s f]
@[simp] theorem incCnt_capts (s : State) (f : Fld) : (incCnt s f).capts = s.capts := by rw [show incCnt s f = _ from incCnt_shape s f]
@[simp] theorem incCnt_encs (s : State) (f : Fld) : (incCnt s f).encs = s.encs := by rw [show incCnt s f = _ from incCnt_shape s f]
@[simp] theorem incCnt_emus (s : State) (f : Fld) : (incCnt s f).emus = s.emus := by rw [show incCnt s f = _ from incCnt_shape s f]
@[simp] theorem incCnt_acq (s : State) (f : Fld) : (incCnt s f).acq = s.acq := by rw [show incCnt s f = _ from incCnt_shape s f]
@[simp] theorem incCnt_cans (s : State) (f : Fld) : (incCnt s f).cans = s.cans := by rw [show incCnt s f = _ from incCnt_shape s f]
@[simp] theorem incCnt_eyes (s : State) (f : Fld) : (incCnt s f).eyes = s.eyes := by rw [show incCnt s f = _ from incCnt_shape s f]
@[simp] theorem incCnt_resp (s : State) (f : Fld) : (incCnt s f).resp = s.resp := by rw [show incCnt s f = _ from incCnt_shape s f]
@[simp] theorem incCnt_freeIdx (s : State) (f : Fld) : (incCnt s f).freeIdx = s.freeIdx := by rw [show incCnt s f = _ from incCnt_shape s f]

/-- `incErr` changes nothing but regs and wire. -/
theorem incErr_shape (s : State) (f : Fld) : RegsWire s (incErr s f) := by
  unfold incErr
  split
  · exact RegsWire.wr s _ _
  · exact setStat_shape _ _

@[simp] theorem incErr_pending (s : State) (f : Fld) : (incErr s f).pending = s.pending := by rw [show incErr s f = _ from incErr_shape s f]
@[simp] theorem incErr_banked (s : State) (f : Fld) : (incErr s f).banked = s.banked := by rw [show incErr s f = _ from incErr_shape s f]
@[simp] theorem incErr_ctl (s : State) (f : Fld) : (incErr s f).ctl = s.ctl := by rw [show incErr s f = _ from incErr_shape s f]
@[simp] theorem incErr_mem (s : State) (f : Fld) : (incErr s f).mem = s.mem := by rw [show incErr s f = _ from incErr_shape s f]
@[simp] theorem incErr_pwr (s : State) (f : Fld) : (incErr s f).pwr = s.pwr := by rw [show incErr s f = _ from incErr_shape s f]
@[simp] theorem incErr_stalled (s : State) (f : Fld) : (incErr s f).stalled = s.stalled := by rw [show incErr s f = _ from incErr_shape s f]
@[simp] theorem incErr_mfault (s : State) (f : Fld) : (incErr s f).mfault = s.mfault := by rw [show incErr s f = _ from incErr_shape s f]
@[simp] theorem incErr_standby (s : State) (f : Fld) : (incErr s f).standby = s.standby := by rw [show incErr s f = _ from incErr_shape s f]
@[simp] theorem incErr_localTest (s : State) (f : Fld) : (incErr s f).localTest = s.localTest := by rw [show incErr s f = _ from incErr_shape s f]
@[simp] theorem incErr_surge (s : State) (f : Fld) : (incErr s f).surge = s.surge := by rw [show incErr s f = _ from incErr_shape s f]
@[simp] theorem incErr_ao (s : State) (f : Fld) : (incErr s f).ao = s.ao := by rw [show incErr s f = _ from incErr_shape s f]
@[simp] theorem incErr_boot (s : State) (f : Fld) : (incErr s f).boot = s.boot := by rw [show incErr s f = _ from incErr_shape s f]
@[simp] theorem incErr_tests (s : State) (f : Fld) : (incErr s f).tests = s.tests := by rw [show incErr s f = _ from incErr_shape s f]
@[simp] theorem incErr_lockSeq (s : State) (f : Fld) : (incErr s f).lockSeq = s.lockSeq := by rw [show incErr s f = _ from incErr_shape s f]
@[simp] theorem incErr_cist (s : State) (f : Fld) : (incErr s f).cist = s.cist := by rw [show incErr s f = _ from incErr_shape s f]
@[simp] theorem incErr_casPend (s : State) (f : Fld) : (incErr s f).casPend = s.casPend := by rw [show incErr s f = _ from incErr_shape s f]
@[simp] theorem incErr_snapRun (s : State) (f : Fld) : (incErr s f).snapRun = s.snapRun := by rw [show incErr s f = _ from incErr_shape s f]
@[simp] theorem incErr_snapLatch (s : State) (f : Fld) : (incErr s f).snapLatch = s.snapLatch := by rw [show incErr s f = _ from incErr_shape s f]
@[simp] theorem incErr_dma (s : State) (f : Fld) : (incErr s f).dma = s.dma := by rw [show incErr s f = _ from incErr_shape s f]
@[simp] theorem incErr_time (s : State) (f : Fld) : (incErr s f).time = s.time := by rw [show incErr s f = _ from incErr_shape s f]
@[simp] theorem incErr_field (s : State) (f : Fld) : (incErr s f).field = s.field := by rw [show incErr s f = _ from incErr_shape s f]
@[simp] theorem incErr_safe (s : State) (f : Fld) : (incErr s f).safe = s.safe := by rw [show incErr s f = _ from incErr_shape s f]
@[simp] theorem incErr_pair (s : State) (f : Fld) : (incErr s f).pair = s.pair := by rw [show incErr s f = _ from incErr_shape s f]
@[simp] theorem incErr_bridge (s : State) (f : Fld) : (incErr s f).bridge = s.bridge := by rw [show incErr s f = _ from incErr_shape s f]
@[simp] theorem incErr_sched (s : State) (f : Fld) : (incErr s f).sched = s.sched := by rw [show incErr s f = _ from incErr_shape s f]
@[simp] theorem incErr_engs (s : State) (f : Fld) : (incErr s f).engs = s.engs := by rw [show incErr s f = _ from incErr_shape s f]
@[simp] theorem incErr_axes (s : State) (f : Fld) : (incErr s f).axes = s.axes := by rw [show incErr s f = _ from incErr_shape s f]
@[simp] theorem incErr_mots (s : State) (f : Fld) : (incErr s f).mots = s.mots := by rw [show incErr s f = _ from incErr_shape s f]
@[simp] theorem incErr_motRec (s : State) (f : Fld) : (incErr s f).motRec = s.motRec := by rw [show incErr s f = _ from incErr_shape s f]
@[simp] theorem incErr_camPend (s : State) (f : Fld) : (incErr s f).camPend = s.camPend := by rw [show incErr s f = _ from incErr_shape s f]
@[simp] theorem incErr_stops (s : State) (f : Fld) : (incErr s f).stops = s.stops := by rw [show incErr s f = _ from incErr_shape s f]
@[simp] theorem incErr_commit (s : State) (f : Fld) : (incErr s f).commit = s.commit := by rw [show incErr s f = _ from incErr_shape s f]
@[simp] theorem incErr_lemac (s : State) (f : Fld) : (incErr s f).lemac = s.lemac := by rw [show incErr s f = _ from incErr_shape s f]
@[simp] theorem incErr_safeA (s : State) (f : Fld) : (incErr s f).safeA = s.safeA := by rw [show incErr s f = _ from incErr_shape s f]
@[simp] theorem incErr_safeB (s : State) (f : Fld) : (incErr s f).safeB = s.safeB := by rw [show incErr s f = _ from incErr_shape s f]
@[simp] theorem incErr_plants (s : State) (f : Fld) : (incErr s f).plants = s.plants := by rw [show incErr s f = _ from incErr_shape s f]
@[simp] theorem incErr_tts (s : State) (f : Fld) : (incErr s f).tts = s.tts := by rw [show incErr s f = _ from incErr_shape s f]
@[simp] theorem incErr_capts (s : State) (f : Fld) : (incErr s f).capts = s.capts := by rw [show incErr s f = _ from incErr_shape s f]
@[simp] theorem incErr_encs (s : State) (f : Fld) : (incErr s f).encs = s.encs := by rw [show incErr s f = _ from incErr_shape s f]
@[simp] theorem incErr_emus (s : State) (f : Fld) : (incErr s f).emus = s.emus := by rw [show incErr s f = _ from incErr_shape s f]
@[simp] theorem incErr_acq (s : State) (f : Fld) : (incErr s f).acq = s.acq := by rw [show incErr s f = _ from incErr_shape s f]
@[simp] theorem incErr_cans (s : State) (f : Fld) : (incErr s f).cans = s.cans := by rw [show incErr s f = _ from incErr_shape s f]
@[simp] theorem incErr_eyes (s : State) (f : Fld) : (incErr s f).eyes = s.eyes := by rw [show incErr s f = _ from incErr_shape s f]
@[simp] theorem incErr_resp (s : State) (f : Fld) : (incErr s f).resp = s.resp := by rw [show incErr s f = _ from incErr_shape s f]
@[simp] theorem incErr_freeIdx (s : State) (f : Fld) : (incErr s f).freeIdx = s.freeIdx := by rw [show incErr s f = _ from incErr_shape s f]

/-- `errlog` changes nothing but regs and wire. -/
theorem errlog_shape (s : State) (p cause : Nat) (m : Master) (ofs : Nat) : RegsWire s (errlog s p cause m ofs) := by
  unfold errlog
  split
  · exact RegsWire.wr s _ _
  · exact (RegsWire.wrw s _ _).trans (raise_shape _ _ _)

@[simp] theorem errlog_pending (s : State) (p cause : Nat) (m : Master) (ofs : Nat) : (errlog s p cause m ofs).pending = s.pending := by rw [show errlog s p cause m ofs = _ from errlog_shape s p cause m ofs]
@[simp] theorem errlog_banked (s : State) (p cause : Nat) (m : Master) (ofs : Nat) : (errlog s p cause m ofs).banked = s.banked := by rw [show errlog s p cause m ofs = _ from errlog_shape s p cause m ofs]
@[simp] theorem errlog_ctl (s : State) (p cause : Nat) (m : Master) (ofs : Nat) : (errlog s p cause m ofs).ctl = s.ctl := by rw [show errlog s p cause m ofs = _ from errlog_shape s p cause m ofs]
@[simp] theorem errlog_mem (s : State) (p cause : Nat) (m : Master) (ofs : Nat) : (errlog s p cause m ofs).mem = s.mem := by rw [show errlog s p cause m ofs = _ from errlog_shape s p cause m ofs]
@[simp] theorem errlog_pwr (s : State) (p cause : Nat) (m : Master) (ofs : Nat) : (errlog s p cause m ofs).pwr = s.pwr := by rw [show errlog s p cause m ofs = _ from errlog_shape s p cause m ofs]
@[simp] theorem errlog_stalled (s : State) (p cause : Nat) (m : Master) (ofs : Nat) : (errlog s p cause m ofs).stalled = s.stalled := by rw [show errlog s p cause m ofs = _ from errlog_shape s p cause m ofs]
@[simp] theorem errlog_mfault (s : State) (p cause : Nat) (m : Master) (ofs : Nat) : (errlog s p cause m ofs).mfault = s.mfault := by rw [show errlog s p cause m ofs = _ from errlog_shape s p cause m ofs]
@[simp] theorem errlog_standby (s : State) (p cause : Nat) (m : Master) (ofs : Nat) : (errlog s p cause m ofs).standby = s.standby := by rw [show errlog s p cause m ofs = _ from errlog_shape s p cause m ofs]
@[simp] theorem errlog_localTest (s : State) (p cause : Nat) (m : Master) (ofs : Nat) : (errlog s p cause m ofs).localTest = s.localTest := by rw [show errlog s p cause m ofs = _ from errlog_shape s p cause m ofs]
@[simp] theorem errlog_surge (s : State) (p cause : Nat) (m : Master) (ofs : Nat) : (errlog s p cause m ofs).surge = s.surge := by rw [show errlog s p cause m ofs = _ from errlog_shape s p cause m ofs]
@[simp] theorem errlog_ao (s : State) (p cause : Nat) (m : Master) (ofs : Nat) : (errlog s p cause m ofs).ao = s.ao := by rw [show errlog s p cause m ofs = _ from errlog_shape s p cause m ofs]
@[simp] theorem errlog_boot (s : State) (p cause : Nat) (m : Master) (ofs : Nat) : (errlog s p cause m ofs).boot = s.boot := by rw [show errlog s p cause m ofs = _ from errlog_shape s p cause m ofs]
@[simp] theorem errlog_tests (s : State) (p cause : Nat) (m : Master) (ofs : Nat) : (errlog s p cause m ofs).tests = s.tests := by rw [show errlog s p cause m ofs = _ from errlog_shape s p cause m ofs]
@[simp] theorem errlog_lockSeq (s : State) (p cause : Nat) (m : Master) (ofs : Nat) : (errlog s p cause m ofs).lockSeq = s.lockSeq := by rw [show errlog s p cause m ofs = _ from errlog_shape s p cause m ofs]
@[simp] theorem errlog_cist (s : State) (p cause : Nat) (m : Master) (ofs : Nat) : (errlog s p cause m ofs).cist = s.cist := by rw [show errlog s p cause m ofs = _ from errlog_shape s p cause m ofs]
@[simp] theorem errlog_casPend (s : State) (p cause : Nat) (m : Master) (ofs : Nat) : (errlog s p cause m ofs).casPend = s.casPend := by rw [show errlog s p cause m ofs = _ from errlog_shape s p cause m ofs]
@[simp] theorem errlog_snapRun (s : State) (p cause : Nat) (m : Master) (ofs : Nat) : (errlog s p cause m ofs).snapRun = s.snapRun := by rw [show errlog s p cause m ofs = _ from errlog_shape s p cause m ofs]
@[simp] theorem errlog_snapLatch (s : State) (p cause : Nat) (m : Master) (ofs : Nat) : (errlog s p cause m ofs).snapLatch = s.snapLatch := by rw [show errlog s p cause m ofs = _ from errlog_shape s p cause m ofs]
@[simp] theorem errlog_dma (s : State) (p cause : Nat) (m : Master) (ofs : Nat) : (errlog s p cause m ofs).dma = s.dma := by rw [show errlog s p cause m ofs = _ from errlog_shape s p cause m ofs]
@[simp] theorem errlog_time (s : State) (p cause : Nat) (m : Master) (ofs : Nat) : (errlog s p cause m ofs).time = s.time := by rw [show errlog s p cause m ofs = _ from errlog_shape s p cause m ofs]
@[simp] theorem errlog_field (s : State) (p cause : Nat) (m : Master) (ofs : Nat) : (errlog s p cause m ofs).field = s.field := by rw [show errlog s p cause m ofs = _ from errlog_shape s p cause m ofs]
@[simp] theorem errlog_safe (s : State) (p cause : Nat) (m : Master) (ofs : Nat) : (errlog s p cause m ofs).safe = s.safe := by rw [show errlog s p cause m ofs = _ from errlog_shape s p cause m ofs]
@[simp] theorem errlog_pair (s : State) (p cause : Nat) (m : Master) (ofs : Nat) : (errlog s p cause m ofs).pair = s.pair := by rw [show errlog s p cause m ofs = _ from errlog_shape s p cause m ofs]
@[simp] theorem errlog_bridge (s : State) (p cause : Nat) (m : Master) (ofs : Nat) : (errlog s p cause m ofs).bridge = s.bridge := by rw [show errlog s p cause m ofs = _ from errlog_shape s p cause m ofs]
@[simp] theorem errlog_sched (s : State) (p cause : Nat) (m : Master) (ofs : Nat) : (errlog s p cause m ofs).sched = s.sched := by rw [show errlog s p cause m ofs = _ from errlog_shape s p cause m ofs]
@[simp] theorem errlog_engs (s : State) (p cause : Nat) (m : Master) (ofs : Nat) : (errlog s p cause m ofs).engs = s.engs := by rw [show errlog s p cause m ofs = _ from errlog_shape s p cause m ofs]
@[simp] theorem errlog_axes (s : State) (p cause : Nat) (m : Master) (ofs : Nat) : (errlog s p cause m ofs).axes = s.axes := by rw [show errlog s p cause m ofs = _ from errlog_shape s p cause m ofs]
@[simp] theorem errlog_mots (s : State) (p cause : Nat) (m : Master) (ofs : Nat) : (errlog s p cause m ofs).mots = s.mots := by rw [show errlog s p cause m ofs = _ from errlog_shape s p cause m ofs]
@[simp] theorem errlog_motRec (s : State) (p cause : Nat) (m : Master) (ofs : Nat) : (errlog s p cause m ofs).motRec = s.motRec := by rw [show errlog s p cause m ofs = _ from errlog_shape s p cause m ofs]
@[simp] theorem errlog_camPend (s : State) (p cause : Nat) (m : Master) (ofs : Nat) : (errlog s p cause m ofs).camPend = s.camPend := by rw [show errlog s p cause m ofs = _ from errlog_shape s p cause m ofs]
@[simp] theorem errlog_stops (s : State) (p cause : Nat) (m : Master) (ofs : Nat) : (errlog s p cause m ofs).stops = s.stops := by rw [show errlog s p cause m ofs = _ from errlog_shape s p cause m ofs]
@[simp] theorem errlog_commit (s : State) (p cause : Nat) (m : Master) (ofs : Nat) : (errlog s p cause m ofs).commit = s.commit := by rw [show errlog s p cause m ofs = _ from errlog_shape s p cause m ofs]
@[simp] theorem errlog_lemac (s : State) (p cause : Nat) (m : Master) (ofs : Nat) : (errlog s p cause m ofs).lemac = s.lemac := by rw [show errlog s p cause m ofs = _ from errlog_shape s p cause m ofs]
@[simp] theorem errlog_safeA (s : State) (p cause : Nat) (m : Master) (ofs : Nat) : (errlog s p cause m ofs).safeA = s.safeA := by rw [show errlog s p cause m ofs = _ from errlog_shape s p cause m ofs]
@[simp] theorem errlog_safeB (s : State) (p cause : Nat) (m : Master) (ofs : Nat) : (errlog s p cause m ofs).safeB = s.safeB := by rw [show errlog s p cause m ofs = _ from errlog_shape s p cause m ofs]
@[simp] theorem errlog_plants (s : State) (p cause : Nat) (m : Master) (ofs : Nat) : (errlog s p cause m ofs).plants = s.plants := by rw [show errlog s p cause m ofs = _ from errlog_shape s p cause m ofs]
@[simp] theorem errlog_tts (s : State) (p cause : Nat) (m : Master) (ofs : Nat) : (errlog s p cause m ofs).tts = s.tts := by rw [show errlog s p cause m ofs = _ from errlog_shape s p cause m ofs]
@[simp] theorem errlog_capts (s : State) (p cause : Nat) (m : Master) (ofs : Nat) : (errlog s p cause m ofs).capts = s.capts := by rw [show errlog s p cause m ofs = _ from errlog_shape s p cause m ofs]
@[simp] theorem errlog_encs (s : State) (p cause : Nat) (m : Master) (ofs : Nat) : (errlog s p cause m ofs).encs = s.encs := by rw [show errlog s p cause m ofs = _ from errlog_shape s p cause m ofs]
@[simp] theorem errlog_emus (s : State) (p cause : Nat) (m : Master) (ofs : Nat) : (errlog s p cause m ofs).emus = s.emus := by rw [show errlog s p cause m ofs = _ from errlog_shape s p cause m ofs]
@[simp] theorem errlog_acq (s : State) (p cause : Nat) (m : Master) (ofs : Nat) : (errlog s p cause m ofs).acq = s.acq := by rw [show errlog s p cause m ofs = _ from errlog_shape s p cause m ofs]
@[simp] theorem errlog_cans (s : State) (p cause : Nat) (m : Master) (ofs : Nat) : (errlog s p cause m ofs).cans = s.cans := by rw [show errlog s p cause m ofs = _ from errlog_shape s p cause m ofs]
@[simp] theorem errlog_eyes (s : State) (p cause : Nat) (m : Master) (ofs : Nat) : (errlog s p cause m ofs).eyes = s.eyes := by rw [show errlog s p cause m ofs = _ from errlog_shape s p cause m ofs]
@[simp] theorem errlog_resp (s : State) (p cause : Nat) (m : Master) (ofs : Nat) : (errlog s p cause m ofs).resp = s.resp := by rw [show errlog s p cause m ofs = _ from errlog_shape s p cause m ofs]
@[simp] theorem errlog_freeIdx (s : State) (p cause : Nat) (m : Master) (ofs : Nat) : (errlog s p cause m ofs).freeIdx = s.freeIdx := by rw [show errlog s p cause m ofs = _ from errlog_shape s p cause m ofs]

/-- `afterHeader` changes nothing but regs and wire. -/
theorem afterHeader_shape (s : State) (t : State) (k w : Nat) : RegsWire s (afterHeader t s k w) := by
  unfold afterHeader
  dsimp only
  repeat' split
  all_goals first | exact RegsWire.refl s | exact RegsWire.wrw s _ _ | exact sendVec_shape s _

@[simp] theorem afterHeader_pending (s : State) (t : State) (k w : Nat) : (afterHeader t s k w).pending = s.pending := by rw [show afterHeader t s k w = _ from afterHeader_shape s t k w]
@[simp] theorem afterHeader_banked (s : State) (t : State) (k w : Nat) : (afterHeader t s k w).banked = s.banked := by rw [show afterHeader t s k w = _ from afterHeader_shape s t k w]
@[simp] theorem afterHeader_ctl (s : State) (t : State) (k w : Nat) : (afterHeader t s k w).ctl = s.ctl := by rw [show afterHeader t s k w = _ from afterHeader_shape s t k w]
@[simp] theorem afterHeader_mem (s : State) (t : State) (k w : Nat) : (afterHeader t s k w).mem = s.mem := by rw [show afterHeader t s k w = _ from afterHeader_shape s t k w]
@[simp] theorem afterHeader_pwr (s : State) (t : State) (k w : Nat) : (afterHeader t s k w).pwr = s.pwr := by rw [show afterHeader t s k w = _ from afterHeader_shape s t k w]
@[simp] theorem afterHeader_stalled (s : State) (t : State) (k w : Nat) : (afterHeader t s k w).stalled = s.stalled := by rw [show afterHeader t s k w = _ from afterHeader_shape s t k w]
@[simp] theorem afterHeader_mfault (s : State) (t : State) (k w : Nat) : (afterHeader t s k w).mfault = s.mfault := by rw [show afterHeader t s k w = _ from afterHeader_shape s t k w]
@[simp] theorem afterHeader_standby (s : State) (t : State) (k w : Nat) : (afterHeader t s k w).standby = s.standby := by rw [show afterHeader t s k w = _ from afterHeader_shape s t k w]
@[simp] theorem afterHeader_localTest (s : State) (t : State) (k w : Nat) : (afterHeader t s k w).localTest = s.localTest := by rw [show afterHeader t s k w = _ from afterHeader_shape s t k w]
@[simp] theorem afterHeader_surge (s : State) (t : State) (k w : Nat) : (afterHeader t s k w).surge = s.surge := by rw [show afterHeader t s k w = _ from afterHeader_shape s t k w]
@[simp] theorem afterHeader_ao (s : State) (t : State) (k w : Nat) : (afterHeader t s k w).ao = s.ao := by rw [show afterHeader t s k w = _ from afterHeader_shape s t k w]
@[simp] theorem afterHeader_boot (s : State) (t : State) (k w : Nat) : (afterHeader t s k w).boot = s.boot := by rw [show afterHeader t s k w = _ from afterHeader_shape s t k w]
@[simp] theorem afterHeader_tests (s : State) (t : State) (k w : Nat) : (afterHeader t s k w).tests = s.tests := by rw [show afterHeader t s k w = _ from afterHeader_shape s t k w]
@[simp] theorem afterHeader_lockSeq (s : State) (t : State) (k w : Nat) : (afterHeader t s k w).lockSeq = s.lockSeq := by rw [show afterHeader t s k w = _ from afterHeader_shape s t k w]
@[simp] theorem afterHeader_cist (s : State) (t : State) (k w : Nat) : (afterHeader t s k w).cist = s.cist := by rw [show afterHeader t s k w = _ from afterHeader_shape s t k w]
@[simp] theorem afterHeader_casPend (s : State) (t : State) (k w : Nat) : (afterHeader t s k w).casPend = s.casPend := by rw [show afterHeader t s k w = _ from afterHeader_shape s t k w]
@[simp] theorem afterHeader_snapRun (s : State) (t : State) (k w : Nat) : (afterHeader t s k w).snapRun = s.snapRun := by rw [show afterHeader t s k w = _ from afterHeader_shape s t k w]
@[simp] theorem afterHeader_snapLatch (s : State) (t : State) (k w : Nat) : (afterHeader t s k w).snapLatch = s.snapLatch := by rw [show afterHeader t s k w = _ from afterHeader_shape s t k w]
@[simp] theorem afterHeader_dma (s : State) (t : State) (k w : Nat) : (afterHeader t s k w).dma = s.dma := by rw [show afterHeader t s k w = _ from afterHeader_shape s t k w]
@[simp] theorem afterHeader_time (s : State) (t : State) (k w : Nat) : (afterHeader t s k w).time = s.time := by rw [show afterHeader t s k w = _ from afterHeader_shape s t k w]
@[simp] theorem afterHeader_field (s : State) (t : State) (k w : Nat) : (afterHeader t s k w).field = s.field := by rw [show afterHeader t s k w = _ from afterHeader_shape s t k w]
@[simp] theorem afterHeader_safe (s : State) (t : State) (k w : Nat) : (afterHeader t s k w).safe = s.safe := by rw [show afterHeader t s k w = _ from afterHeader_shape s t k w]
@[simp] theorem afterHeader_pair (s : State) (t : State) (k w : Nat) : (afterHeader t s k w).pair = s.pair := by rw [show afterHeader t s k w = _ from afterHeader_shape s t k w]
@[simp] theorem afterHeader_bridge (s : State) (t : State) (k w : Nat) : (afterHeader t s k w).bridge = s.bridge := by rw [show afterHeader t s k w = _ from afterHeader_shape s t k w]
@[simp] theorem afterHeader_sched (s : State) (t : State) (k w : Nat) : (afterHeader t s k w).sched = s.sched := by rw [show afterHeader t s k w = _ from afterHeader_shape s t k w]
@[simp] theorem afterHeader_engs (s : State) (t : State) (k w : Nat) : (afterHeader t s k w).engs = s.engs := by rw [show afterHeader t s k w = _ from afterHeader_shape s t k w]
@[simp] theorem afterHeader_axes (s : State) (t : State) (k w : Nat) : (afterHeader t s k w).axes = s.axes := by rw [show afterHeader t s k w = _ from afterHeader_shape s t k w]
@[simp] theorem afterHeader_mots (s : State) (t : State) (k w : Nat) : (afterHeader t s k w).mots = s.mots := by rw [show afterHeader t s k w = _ from afterHeader_shape s t k w]
@[simp] theorem afterHeader_motRec (s : State) (t : State) (k w : Nat) : (afterHeader t s k w).motRec = s.motRec := by rw [show afterHeader t s k w = _ from afterHeader_shape s t k w]
@[simp] theorem afterHeader_camPend (s : State) (t : State) (k w : Nat) : (afterHeader t s k w).camPend = s.camPend := by rw [show afterHeader t s k w = _ from afterHeader_shape s t k w]
@[simp] theorem afterHeader_stops (s : State) (t : State) (k w : Nat) : (afterHeader t s k w).stops = s.stops := by rw [show afterHeader t s k w = _ from afterHeader_shape s t k w]
@[simp] theorem afterHeader_commit (s : State) (t : State) (k w : Nat) : (afterHeader t s k w).commit = s.commit := by rw [show afterHeader t s k w = _ from afterHeader_shape s t k w]
@[simp] theorem afterHeader_lemac (s : State) (t : State) (k w : Nat) : (afterHeader t s k w).lemac = s.lemac := by rw [show afterHeader t s k w = _ from afterHeader_shape s t k w]
@[simp] theorem afterHeader_safeA (s : State) (t : State) (k w : Nat) : (afterHeader t s k w).safeA = s.safeA := by rw [show afterHeader t s k w = _ from afterHeader_shape s t k w]
@[simp] theorem afterHeader_safeB (s : State) (t : State) (k w : Nat) : (afterHeader t s k w).safeB = s.safeB := by rw [show afterHeader t s k w = _ from afterHeader_shape s t k w]
@[simp] theorem afterHeader_plants (s : State) (t : State) (k w : Nat) : (afterHeader t s k w).plants = s.plants := by rw [show afterHeader t s k w = _ from afterHeader_shape s t k w]
@[simp] theorem afterHeader_tts (s : State) (t : State) (k w : Nat) : (afterHeader t s k w).tts = s.tts := by rw [show afterHeader t s k w = _ from afterHeader_shape s t k w]
@[simp] theorem afterHeader_capts (s : State) (t : State) (k w : Nat) : (afterHeader t s k w).capts = s.capts := by rw [show afterHeader t s k w = _ from afterHeader_shape s t k w]
@[simp] theorem afterHeader_encs (s : State) (t : State) (k w : Nat) : (afterHeader t s k w).encs = s.encs := by rw [show afterHeader t s k w = _ from afterHeader_shape s t k w]
@[simp] theorem afterHeader_emus (s : State) (t : State) (k w : Nat) : (afterHeader t s k w).emus = s.emus := by rw [show afterHeader t s k w = _ from afterHeader_shape s t k w]
@[simp] theorem afterHeader_acq (s : State) (t : State) (k w : Nat) : (afterHeader t s k w).acq = s.acq := by rw [show afterHeader t s k w = _ from afterHeader_shape s t k w]
@[simp] theorem afterHeader_cans (s : State) (t : State) (k w : Nat) : (afterHeader t s k w).cans = s.cans := by rw [show afterHeader t s k w = _ from afterHeader_shape s t k w]
@[simp] theorem afterHeader_eyes (s : State) (t : State) (k w : Nat) : (afterHeader t s k w).eyes = s.eyes := by rw [show afterHeader t s k w = _ from afterHeader_shape s t k w]
@[simp] theorem afterHeader_resp (s : State) (t : State) (k w : Nat) : (afterHeader t s k w).resp = s.resp := by rw [show afterHeader t s k w = _ from afterHeader_shape s t k w]
@[simp] theorem afterHeader_freeIdx (s : State) (t : State) (k w : Nat) : (afterHeader t s k w).freeIdx = s.freeIdx := by rw [show afterHeader t s k w = _ from afterHeader_shape s t k w]

/-- `afterMsix` changes nothing but regs and wire. -/
theorem afterMsix_shape (s : State) (k : Nat) : RegsWire s (afterMsix s k) := by
  unfold afterMsix
  dsimp only
  repeat' split
  all_goals first | exact RegsWire.refl s | exact RegsWire.wrw s _ _ | exact (RegsWire.wrw s _ _).trans (sendVec_shape _ _)

@[simp] theorem afterMsix_pending (s : State) (k : Nat) : (afterMsix s k).pending = s.pending := by rw [show afterMsix s k = _ from afterMsix_shape s k]
@[simp] theorem afterMsix_banked (s : State) (k : Nat) : (afterMsix s k).banked = s.banked := by rw [show afterMsix s k = _ from afterMsix_shape s k]
@[simp] theorem afterMsix_ctl (s : State) (k : Nat) : (afterMsix s k).ctl = s.ctl := by rw [show afterMsix s k = _ from afterMsix_shape s k]
@[simp] theorem afterMsix_mem (s : State) (k : Nat) : (afterMsix s k).mem = s.mem := by rw [show afterMsix s k = _ from afterMsix_shape s k]
@[simp] theorem afterMsix_pwr (s : State) (k : Nat) : (afterMsix s k).pwr = s.pwr := by rw [show afterMsix s k = _ from afterMsix_shape s k]
@[simp] theorem afterMsix_stalled (s : State) (k : Nat) : (afterMsix s k).stalled = s.stalled := by rw [show afterMsix s k = _ from afterMsix_shape s k]
@[simp] theorem afterMsix_mfault (s : State) (k : Nat) : (afterMsix s k).mfault = s.mfault := by rw [show afterMsix s k = _ from afterMsix_shape s k]
@[simp] theorem afterMsix_standby (s : State) (k : Nat) : (afterMsix s k).standby = s.standby := by rw [show afterMsix s k = _ from afterMsix_shape s k]
@[simp] theorem afterMsix_localTest (s : State) (k : Nat) : (afterMsix s k).localTest = s.localTest := by rw [show afterMsix s k = _ from afterMsix_shape s k]
@[simp] theorem afterMsix_surge (s : State) (k : Nat) : (afterMsix s k).surge = s.surge := by rw [show afterMsix s k = _ from afterMsix_shape s k]
@[simp] theorem afterMsix_ao (s : State) (k : Nat) : (afterMsix s k).ao = s.ao := by rw [show afterMsix s k = _ from afterMsix_shape s k]
@[simp] theorem afterMsix_boot (s : State) (k : Nat) : (afterMsix s k).boot = s.boot := by rw [show afterMsix s k = _ from afterMsix_shape s k]
@[simp] theorem afterMsix_tests (s : State) (k : Nat) : (afterMsix s k).tests = s.tests := by rw [show afterMsix s k = _ from afterMsix_shape s k]
@[simp] theorem afterMsix_lockSeq (s : State) (k : Nat) : (afterMsix s k).lockSeq = s.lockSeq := by rw [show afterMsix s k = _ from afterMsix_shape s k]
@[simp] theorem afterMsix_cist (s : State) (k : Nat) : (afterMsix s k).cist = s.cist := by rw [show afterMsix s k = _ from afterMsix_shape s k]
@[simp] theorem afterMsix_casPend (s : State) (k : Nat) : (afterMsix s k).casPend = s.casPend := by rw [show afterMsix s k = _ from afterMsix_shape s k]
@[simp] theorem afterMsix_snapRun (s : State) (k : Nat) : (afterMsix s k).snapRun = s.snapRun := by rw [show afterMsix s k = _ from afterMsix_shape s k]
@[simp] theorem afterMsix_snapLatch (s : State) (k : Nat) : (afterMsix s k).snapLatch = s.snapLatch := by rw [show afterMsix s k = _ from afterMsix_shape s k]
@[simp] theorem afterMsix_dma (s : State) (k : Nat) : (afterMsix s k).dma = s.dma := by rw [show afterMsix s k = _ from afterMsix_shape s k]
@[simp] theorem afterMsix_time (s : State) (k : Nat) : (afterMsix s k).time = s.time := by rw [show afterMsix s k = _ from afterMsix_shape s k]
@[simp] theorem afterMsix_field (s : State) (k : Nat) : (afterMsix s k).field = s.field := by rw [show afterMsix s k = _ from afterMsix_shape s k]
@[simp] theorem afterMsix_safe (s : State) (k : Nat) : (afterMsix s k).safe = s.safe := by rw [show afterMsix s k = _ from afterMsix_shape s k]
@[simp] theorem afterMsix_pair (s : State) (k : Nat) : (afterMsix s k).pair = s.pair := by rw [show afterMsix s k = _ from afterMsix_shape s k]
@[simp] theorem afterMsix_bridge (s : State) (k : Nat) : (afterMsix s k).bridge = s.bridge := by rw [show afterMsix s k = _ from afterMsix_shape s k]
@[simp] theorem afterMsix_sched (s : State) (k : Nat) : (afterMsix s k).sched = s.sched := by rw [show afterMsix s k = _ from afterMsix_shape s k]
@[simp] theorem afterMsix_engs (s : State) (k : Nat) : (afterMsix s k).engs = s.engs := by rw [show afterMsix s k = _ from afterMsix_shape s k]
@[simp] theorem afterMsix_axes (s : State) (k : Nat) : (afterMsix s k).axes = s.axes := by rw [show afterMsix s k = _ from afterMsix_shape s k]
@[simp] theorem afterMsix_mots (s : State) (k : Nat) : (afterMsix s k).mots = s.mots := by rw [show afterMsix s k = _ from afterMsix_shape s k]
@[simp] theorem afterMsix_motRec (s : State) (k : Nat) : (afterMsix s k).motRec = s.motRec := by rw [show afterMsix s k = _ from afterMsix_shape s k]
@[simp] theorem afterMsix_camPend (s : State) (k : Nat) : (afterMsix s k).camPend = s.camPend := by rw [show afterMsix s k = _ from afterMsix_shape s k]
@[simp] theorem afterMsix_stops (s : State) (k : Nat) : (afterMsix s k).stops = s.stops := by rw [show afterMsix s k = _ from afterMsix_shape s k]
@[simp] theorem afterMsix_commit (s : State) (k : Nat) : (afterMsix s k).commit = s.commit := by rw [show afterMsix s k = _ from afterMsix_shape s k]
@[simp] theorem afterMsix_lemac (s : State) (k : Nat) : (afterMsix s k).lemac = s.lemac := by rw [show afterMsix s k = _ from afterMsix_shape s k]
@[simp] theorem afterMsix_safeA (s : State) (k : Nat) : (afterMsix s k).safeA = s.safeA := by rw [show afterMsix s k = _ from afterMsix_shape s k]
@[simp] theorem afterMsix_safeB (s : State) (k : Nat) : (afterMsix s k).safeB = s.safeB := by rw [show afterMsix s k = _ from afterMsix_shape s k]
@[simp] theorem afterMsix_plants (s : State) (k : Nat) : (afterMsix s k).plants = s.plants := by rw [show afterMsix s k = _ from afterMsix_shape s k]
@[simp] theorem afterMsix_tts (s : State) (k : Nat) : (afterMsix s k).tts = s.tts := by rw [show afterMsix s k = _ from afterMsix_shape s k]
@[simp] theorem afterMsix_capts (s : State) (k : Nat) : (afterMsix s k).capts = s.capts := by rw [show afterMsix s k = _ from afterMsix_shape s k]
@[simp] theorem afterMsix_encs (s : State) (k : Nat) : (afterMsix s k).encs = s.encs := by rw [show afterMsix s k = _ from afterMsix_shape s k]
@[simp] theorem afterMsix_emus (s : State) (k : Nat) : (afterMsix s k).emus = s.emus := by rw [show afterMsix s k = _ from afterMsix_shape s k]
@[simp] theorem afterMsix_acq (s : State) (k : Nat) : (afterMsix s k).acq = s.acq := by rw [show afterMsix s k = _ from afterMsix_shape s k]
@[simp] theorem afterMsix_cans (s : State) (k : Nat) : (afterMsix s k).cans = s.cans := by rw [show afterMsix s k = _ from afterMsix_shape s k]
@[simp] theorem afterMsix_eyes (s : State) (k : Nat) : (afterMsix s k).eyes = s.eyes := by rw [show afterMsix s k = _ from afterMsix_shape s k]
@[simp] theorem afterMsix_resp (s : State) (k : Nat) : (afterMsix s k).resp = s.resp := by rw [show afterMsix s k = _ from afterMsix_shape s k]
@[simp] theorem afterMsix_freeIdx (s : State) (k : Nat) : (afterMsix s k).freeIdx = s.freeIdx := by rw [show afterMsix s k = _ from afterMsix_shape s k]

/-- `plainWrite` changes nothing but regs and wire. -/
theorem plainWrite_shape (s : State) (m : Master) (k w : Nat) : RegsWire s (plainWrite s m k w) := by
  have key : ∀ (l : List Nat) (t : State), RegsWire s t → RegsWire s (l.foldl (fun t c => errlog t (k / 0x1000) c m k) t) := by
    intro l
    induction l with
    | nil => intro t h; exact h
    | cons c r ih => intro t h; exact ih _ (h.trans (errlog_shape _ _ _ _ _))
  have h := key (writeCauses (locked s (k / 0x1000)) (rowsAt k) (rdw s k) w) _ (RegsWire.wrw s k (newValue (locked s (k / 0x1000)) (rowsAt k) (rdw s k) w))
  unfold plainWrite
  extract_lets p rows lk t u
  have hu : RegsWire s u := h
  clear_value u
  split
  · exact hu.trans (afterHeader_shape _ _ _ _)
  · split
    · exact hu.trans (afterMsix_shape _ _)
    · exact hu

@[simp] theorem plainWrite_pending (s : State) (m : Master) (k w : Nat) : (plainWrite s m k w).pending = s.pending := by rw [show plainWrite s m k w = _ from plainWrite_shape s m k w]
@[simp] theorem plainWrite_banked (s : State) (m : Master) (k w : Nat) : (plainWrite s m k w).banked = s.banked := by rw [show plainWrite s m k w = _ from plainWrite_shape s m k w]
@[simp] theorem plainWrite_ctl (s : State) (m : Master) (k w : Nat) : (plainWrite s m k w).ctl = s.ctl := by rw [show plainWrite s m k w = _ from plainWrite_shape s m k w]
@[simp] theorem plainWrite_mem (s : State) (m : Master) (k w : Nat) : (plainWrite s m k w).mem = s.mem := by rw [show plainWrite s m k w = _ from plainWrite_shape s m k w]
@[simp] theorem plainWrite_pwr (s : State) (m : Master) (k w : Nat) : (plainWrite s m k w).pwr = s.pwr := by rw [show plainWrite s m k w = _ from plainWrite_shape s m k w]
@[simp] theorem plainWrite_stalled (s : State) (m : Master) (k w : Nat) : (plainWrite s m k w).stalled = s.stalled := by rw [show plainWrite s m k w = _ from plainWrite_shape s m k w]
@[simp] theorem plainWrite_mfault (s : State) (m : Master) (k w : Nat) : (plainWrite s m k w).mfault = s.mfault := by rw [show plainWrite s m k w = _ from plainWrite_shape s m k w]
@[simp] theorem plainWrite_standby (s : State) (m : Master) (k w : Nat) : (plainWrite s m k w).standby = s.standby := by rw [show plainWrite s m k w = _ from plainWrite_shape s m k w]
@[simp] theorem plainWrite_localTest (s : State) (m : Master) (k w : Nat) : (plainWrite s m k w).localTest = s.localTest := by rw [show plainWrite s m k w = _ from plainWrite_shape s m k w]
@[simp] theorem plainWrite_surge (s : State) (m : Master) (k w : Nat) : (plainWrite s m k w).surge = s.surge := by rw [show plainWrite s m k w = _ from plainWrite_shape s m k w]
@[simp] theorem plainWrite_ao (s : State) (m : Master) (k w : Nat) : (plainWrite s m k w).ao = s.ao := by rw [show plainWrite s m k w = _ from plainWrite_shape s m k w]
@[simp] theorem plainWrite_boot (s : State) (m : Master) (k w : Nat) : (plainWrite s m k w).boot = s.boot := by rw [show plainWrite s m k w = _ from plainWrite_shape s m k w]
@[simp] theorem plainWrite_tests (s : State) (m : Master) (k w : Nat) : (plainWrite s m k w).tests = s.tests := by rw [show plainWrite s m k w = _ from plainWrite_shape s m k w]
@[simp] theorem plainWrite_lockSeq (s : State) (m : Master) (k w : Nat) : (plainWrite s m k w).lockSeq = s.lockSeq := by rw [show plainWrite s m k w = _ from plainWrite_shape s m k w]
@[simp] theorem plainWrite_cist (s : State) (m : Master) (k w : Nat) : (plainWrite s m k w).cist = s.cist := by rw [show plainWrite s m k w = _ from plainWrite_shape s m k w]
@[simp] theorem plainWrite_casPend (s : State) (m : Master) (k w : Nat) : (plainWrite s m k w).casPend = s.casPend := by rw [show plainWrite s m k w = _ from plainWrite_shape s m k w]
@[simp] theorem plainWrite_snapRun (s : State) (m : Master) (k w : Nat) : (plainWrite s m k w).snapRun = s.snapRun := by rw [show plainWrite s m k w = _ from plainWrite_shape s m k w]
@[simp] theorem plainWrite_snapLatch (s : State) (m : Master) (k w : Nat) : (plainWrite s m k w).snapLatch = s.snapLatch := by rw [show plainWrite s m k w = _ from plainWrite_shape s m k w]
@[simp] theorem plainWrite_dma (s : State) (m : Master) (k w : Nat) : (plainWrite s m k w).dma = s.dma := by rw [show plainWrite s m k w = _ from plainWrite_shape s m k w]
@[simp] theorem plainWrite_time (s : State) (m : Master) (k w : Nat) : (plainWrite s m k w).time = s.time := by rw [show plainWrite s m k w = _ from plainWrite_shape s m k w]
@[simp] theorem plainWrite_field (s : State) (m : Master) (k w : Nat) : (plainWrite s m k w).field = s.field := by rw [show plainWrite s m k w = _ from plainWrite_shape s m k w]
@[simp] theorem plainWrite_safe (s : State) (m : Master) (k w : Nat) : (plainWrite s m k w).safe = s.safe := by rw [show plainWrite s m k w = _ from plainWrite_shape s m k w]
@[simp] theorem plainWrite_pair (s : State) (m : Master) (k w : Nat) : (plainWrite s m k w).pair = s.pair := by rw [show plainWrite s m k w = _ from plainWrite_shape s m k w]
@[simp] theorem plainWrite_bridge (s : State) (m : Master) (k w : Nat) : (plainWrite s m k w).bridge = s.bridge := by rw [show plainWrite s m k w = _ from plainWrite_shape s m k w]
@[simp] theorem plainWrite_sched (s : State) (m : Master) (k w : Nat) : (plainWrite s m k w).sched = s.sched := by rw [show plainWrite s m k w = _ from plainWrite_shape s m k w]
@[simp] theorem plainWrite_engs (s : State) (m : Master) (k w : Nat) : (plainWrite s m k w).engs = s.engs := by rw [show plainWrite s m k w = _ from plainWrite_shape s m k w]
@[simp] theorem plainWrite_axes (s : State) (m : Master) (k w : Nat) : (plainWrite s m k w).axes = s.axes := by rw [show plainWrite s m k w = _ from plainWrite_shape s m k w]
@[simp] theorem plainWrite_mots (s : State) (m : Master) (k w : Nat) : (plainWrite s m k w).mots = s.mots := by rw [show plainWrite s m k w = _ from plainWrite_shape s m k w]
@[simp] theorem plainWrite_motRec (s : State) (m : Master) (k w : Nat) : (plainWrite s m k w).motRec = s.motRec := by rw [show plainWrite s m k w = _ from plainWrite_shape s m k w]
@[simp] theorem plainWrite_camPend (s : State) (m : Master) (k w : Nat) : (plainWrite s m k w).camPend = s.camPend := by rw [show plainWrite s m k w = _ from plainWrite_shape s m k w]
@[simp] theorem plainWrite_stops (s : State) (m : Master) (k w : Nat) : (plainWrite s m k w).stops = s.stops := by rw [show plainWrite s m k w = _ from plainWrite_shape s m k w]
@[simp] theorem plainWrite_commit (s : State) (m : Master) (k w : Nat) : (plainWrite s m k w).commit = s.commit := by rw [show plainWrite s m k w = _ from plainWrite_shape s m k w]
@[simp] theorem plainWrite_lemac (s : State) (m : Master) (k w : Nat) : (plainWrite s m k w).lemac = s.lemac := by rw [show plainWrite s m k w = _ from plainWrite_shape s m k w]
@[simp] theorem plainWrite_safeA (s : State) (m : Master) (k w : Nat) : (plainWrite s m k w).safeA = s.safeA := by rw [show plainWrite s m k w = _ from plainWrite_shape s m k w]
@[simp] theorem plainWrite_safeB (s : State) (m : Master) (k w : Nat) : (plainWrite s m k w).safeB = s.safeB := by rw [show plainWrite s m k w = _ from plainWrite_shape s m k w]
@[simp] theorem plainWrite_plants (s : State) (m : Master) (k w : Nat) : (plainWrite s m k w).plants = s.plants := by rw [show plainWrite s m k w = _ from plainWrite_shape s m k w]
@[simp] theorem plainWrite_tts (s : State) (m : Master) (k w : Nat) : (plainWrite s m k w).tts = s.tts := by rw [show plainWrite s m k w = _ from plainWrite_shape s m k w]
@[simp] theorem plainWrite_capts (s : State) (m : Master) (k w : Nat) : (plainWrite s m k w).capts = s.capts := by rw [show plainWrite s m k w = _ from plainWrite_shape s m k w]
@[simp] theorem plainWrite_encs (s : State) (m : Master) (k w : Nat) : (plainWrite s m k w).encs = s.encs := by rw [show plainWrite s m k w = _ from plainWrite_shape s m k w]
@[simp] theorem plainWrite_emus (s : State) (m : Master) (k w : Nat) : (plainWrite s m k w).emus = s.emus := by rw [show plainWrite s m k w = _ from plainWrite_shape s m k w]
@[simp] theorem plainWrite_acq (s : State) (m : Master) (k w : Nat) : (plainWrite s m k w).acq = s.acq := by rw [show plainWrite s m k w = _ from plainWrite_shape s m k w]
@[simp] theorem plainWrite_cans (s : State) (m : Master) (k w : Nat) : (plainWrite s m k w).cans = s.cans := by rw [show plainWrite s m k w = _ from plainWrite_shape s m k w]
@[simp] theorem plainWrite_eyes (s : State) (m : Master) (k w : Nat) : (plainWrite s m k w).eyes = s.eyes := by rw [show plainWrite s m k w = _ from plainWrite_shape s m k w]
@[simp] theorem plainWrite_resp (s : State) (m : Master) (k w : Nat) : (plainWrite s m k w).resp = s.resp := by rw [show plainWrite s m k w = _ from plainWrite_shape s m k w]
@[simp] theorem plainWrite_freeIdx (s : State) (m : Master) (k w : Nat) : (plainWrite s m k w).freeIdx = s.freeIdx := by rw [show plainWrite s m k w = _ from plainWrite_shape s m k w]

/-- `tailCopy` changes nothing but regs and mem. -/
theorem tailCopy_shape (s : State) (e : List Byte) : tailCopy s e = { s with regs := (tailCopy s e).regs, mem := (tailCopy s e).mem } := by
  unfold tailCopy
  dsimp only
  rw [mwrite_shape]
  rfl

@[simp] theorem tailCopy_pending (s : State) (e : List Byte) : (tailCopy s e).pending = s.pending := by rw [show tailCopy s e = _ from tailCopy_shape s e]
@[simp] theorem tailCopy_banked (s : State) (e : List Byte) : (tailCopy s e).banked = s.banked := by rw [show tailCopy s e = _ from tailCopy_shape s e]
@[simp] theorem tailCopy_ctl (s : State) (e : List Byte) : (tailCopy s e).ctl = s.ctl := by rw [show tailCopy s e = _ from tailCopy_shape s e]
@[simp] theorem tailCopy_pwr (s : State) (e : List Byte) : (tailCopy s e).pwr = s.pwr := by rw [show tailCopy s e = _ from tailCopy_shape s e]
@[simp] theorem tailCopy_stalled (s : State) (e : List Byte) : (tailCopy s e).stalled = s.stalled := by rw [show tailCopy s e = _ from tailCopy_shape s e]
@[simp] theorem tailCopy_mfault (s : State) (e : List Byte) : (tailCopy s e).mfault = s.mfault := by rw [show tailCopy s e = _ from tailCopy_shape s e]
@[simp] theorem tailCopy_standby (s : State) (e : List Byte) : (tailCopy s e).standby = s.standby := by rw [show tailCopy s e = _ from tailCopy_shape s e]
@[simp] theorem tailCopy_localTest (s : State) (e : List Byte) : (tailCopy s e).localTest = s.localTest := by rw [show tailCopy s e = _ from tailCopy_shape s e]
@[simp] theorem tailCopy_surge (s : State) (e : List Byte) : (tailCopy s e).surge = s.surge := by rw [show tailCopy s e = _ from tailCopy_shape s e]
@[simp] theorem tailCopy_ao (s : State) (e : List Byte) : (tailCopy s e).ao = s.ao := by rw [show tailCopy s e = _ from tailCopy_shape s e]
@[simp] theorem tailCopy_boot (s : State) (e : List Byte) : (tailCopy s e).boot = s.boot := by rw [show tailCopy s e = _ from tailCopy_shape s e]
@[simp] theorem tailCopy_tests (s : State) (e : List Byte) : (tailCopy s e).tests = s.tests := by rw [show tailCopy s e = _ from tailCopy_shape s e]
@[simp] theorem tailCopy_lockSeq (s : State) (e : List Byte) : (tailCopy s e).lockSeq = s.lockSeq := by rw [show tailCopy s e = _ from tailCopy_shape s e]
@[simp] theorem tailCopy_cist (s : State) (e : List Byte) : (tailCopy s e).cist = s.cist := by rw [show tailCopy s e = _ from tailCopy_shape s e]
@[simp] theorem tailCopy_casPend (s : State) (e : List Byte) : (tailCopy s e).casPend = s.casPend := by rw [show tailCopy s e = _ from tailCopy_shape s e]
@[simp] theorem tailCopy_snapRun (s : State) (e : List Byte) : (tailCopy s e).snapRun = s.snapRun := by rw [show tailCopy s e = _ from tailCopy_shape s e]
@[simp] theorem tailCopy_snapLatch (s : State) (e : List Byte) : (tailCopy s e).snapLatch = s.snapLatch := by rw [show tailCopy s e = _ from tailCopy_shape s e]
@[simp] theorem tailCopy_dma (s : State) (e : List Byte) : (tailCopy s e).dma = s.dma := by rw [show tailCopy s e = _ from tailCopy_shape s e]
@[simp] theorem tailCopy_time (s : State) (e : List Byte) : (tailCopy s e).time = s.time := by rw [show tailCopy s e = _ from tailCopy_shape s e]
@[simp] theorem tailCopy_field (s : State) (e : List Byte) : (tailCopy s e).field = s.field := by rw [show tailCopy s e = _ from tailCopy_shape s e]
@[simp] theorem tailCopy_safe (s : State) (e : List Byte) : (tailCopy s e).safe = s.safe := by rw [show tailCopy s e = _ from tailCopy_shape s e]
@[simp] theorem tailCopy_pair (s : State) (e : List Byte) : (tailCopy s e).pair = s.pair := by rw [show tailCopy s e = _ from tailCopy_shape s e]
@[simp] theorem tailCopy_bridge (s : State) (e : List Byte) : (tailCopy s e).bridge = s.bridge := by rw [show tailCopy s e = _ from tailCopy_shape s e]
@[simp] theorem tailCopy_sched (s : State) (e : List Byte) : (tailCopy s e).sched = s.sched := by rw [show tailCopy s e = _ from tailCopy_shape s e]
@[simp] theorem tailCopy_engs (s : State) (e : List Byte) : (tailCopy s e).engs = s.engs := by rw [show tailCopy s e = _ from tailCopy_shape s e]
@[simp] theorem tailCopy_axes (s : State) (e : List Byte) : (tailCopy s e).axes = s.axes := by rw [show tailCopy s e = _ from tailCopy_shape s e]
@[simp] theorem tailCopy_mots (s : State) (e : List Byte) : (tailCopy s e).mots = s.mots := by rw [show tailCopy s e = _ from tailCopy_shape s e]
@[simp] theorem tailCopy_motRec (s : State) (e : List Byte) : (tailCopy s e).motRec = s.motRec := by rw [show tailCopy s e = _ from tailCopy_shape s e]
@[simp] theorem tailCopy_camPend (s : State) (e : List Byte) : (tailCopy s e).camPend = s.camPend := by rw [show tailCopy s e = _ from tailCopy_shape s e]
@[simp] theorem tailCopy_stops (s : State) (e : List Byte) : (tailCopy s e).stops = s.stops := by rw [show tailCopy s e = _ from tailCopy_shape s e]
@[simp] theorem tailCopy_commit (s : State) (e : List Byte) : (tailCopy s e).commit = s.commit := by rw [show tailCopy s e = _ from tailCopy_shape s e]
@[simp] theorem tailCopy_lemac (s : State) (e : List Byte) : (tailCopy s e).lemac = s.lemac := by rw [show tailCopy s e = _ from tailCopy_shape s e]
@[simp] theorem tailCopy_safeA (s : State) (e : List Byte) : (tailCopy s e).safeA = s.safeA := by rw [show tailCopy s e = _ from tailCopy_shape s e]
@[simp] theorem tailCopy_safeB (s : State) (e : List Byte) : (tailCopy s e).safeB = s.safeB := by rw [show tailCopy s e = _ from tailCopy_shape s e]
@[simp] theorem tailCopy_plants (s : State) (e : List Byte) : (tailCopy s e).plants = s.plants := by rw [show tailCopy s e = _ from tailCopy_shape s e]
@[simp] theorem tailCopy_tts (s : State) (e : List Byte) : (tailCopy s e).tts = s.tts := by rw [show tailCopy s e = _ from tailCopy_shape s e]
@[simp] theorem tailCopy_capts (s : State) (e : List Byte) : (tailCopy s e).capts = s.capts := by rw [show tailCopy s e = _ from tailCopy_shape s e]
@[simp] theorem tailCopy_encs (s : State) (e : List Byte) : (tailCopy s e).encs = s.encs := by rw [show tailCopy s e = _ from tailCopy_shape s e]
@[simp] theorem tailCopy_emus (s : State) (e : List Byte) : (tailCopy s e).emus = s.emus := by rw [show tailCopy s e = _ from tailCopy_shape s e]
@[simp] theorem tailCopy_acq (s : State) (e : List Byte) : (tailCopy s e).acq = s.acq := by rw [show tailCopy s e = _ from tailCopy_shape s e]
@[simp] theorem tailCopy_cans (s : State) (e : List Byte) : (tailCopy s e).cans = s.cans := by rw [show tailCopy s e = _ from tailCopy_shape s e]
@[simp] theorem tailCopy_eyes (s : State) (e : List Byte) : (tailCopy s e).eyes = s.eyes := by rw [show tailCopy s e = _ from tailCopy_shape s e]
@[simp] theorem tailCopy_wire (s : State) (e : List Byte) : (tailCopy s e).wire = s.wire := by rw [show tailCopy s e = _ from tailCopy_shape s e]
@[simp] theorem tailCopy_resp (s : State) (e : List Byte) : (tailCopy s e).resp = s.resp := by rw [show tailCopy s e = _ from tailCopy_shape s e]
@[simp] theorem tailCopy_freeIdx (s : State) (e : List Byte) : (tailCopy s e).freeIdx = s.freeIdx := by rw [show tailCopy s e = _ from tailCopy_shape s e]

theorem Logged.mwrite (s : State) (a : Nat) (l : List Byte) : Logged s (mwrite s a l) := by
  unfold Logged
  rw [mwrite_shape]
theorem Logged.tail {s t : State} (h : Logged s t) (l : List Byte) : Logged s (tailCopy t l) := by
  unfold Logged at *
  have e : (tailCopy t l).wire = t.wire := by rw [tailCopy_shape]
  have k := tailCopy_shape t l
  generalize tailCopy t l = u at *
  rw [h] at k
  rw [e]
  exact k

/-- `post` changes nothing but regs and wire and mem. -/
theorem post_shape (s : State) (c r d : Nat) : Logged s (post s c r d) := by
  unfold post
  extract_lets e w u s1 s2 s3
  have h1 : Logged s s1 := Logged.wr (Logged.mwrite s _ _) _ _
  clear_value s1
  have h2 : Logged s s2 := by
    simp only [s2]
    split
    · exact h1.wr _ _
    · exact ((h1.wr _ _).regs (incErr_shape _ _))
  clear_value s2
  have h3 : Logged s s3 := (h2.regs (incCnt_shape _ _)).regs (raise_shape _ _ _)
  clear_value s3
  split
  · split
    · exact (h3.tail _).regs (raise_shape _ _ _)
    · exact h3
  · rfl

@[simp] theorem post_pending (s : State) (c r d : Nat) : (post s c r d).pending = s.pending := by rw [show post s c r d = _ from post_shape s c r d]
@[simp] theorem post_banked (s : State) (c r d : Nat) : (post s c r d).banked = s.banked := by rw [show post s c r d = _ from post_shape s c r d]
@[simp] theorem post_ctl (s : State) (c r d : Nat) : (post s c r d).ctl = s.ctl := by rw [show post s c r d = _ from post_shape s c r d]
@[simp] theorem post_pwr (s : State) (c r d : Nat) : (post s c r d).pwr = s.pwr := by rw [show post s c r d = _ from post_shape s c r d]
@[simp] theorem post_stalled (s : State) (c r d : Nat) : (post s c r d).stalled = s.stalled := by rw [show post s c r d = _ from post_shape s c r d]
@[simp] theorem post_mfault (s : State) (c r d : Nat) : (post s c r d).mfault = s.mfault := by rw [show post s c r d = _ from post_shape s c r d]
@[simp] theorem post_standby (s : State) (c r d : Nat) : (post s c r d).standby = s.standby := by rw [show post s c r d = _ from post_shape s c r d]
@[simp] theorem post_localTest (s : State) (c r d : Nat) : (post s c r d).localTest = s.localTest := by rw [show post s c r d = _ from post_shape s c r d]
@[simp] theorem post_surge (s : State) (c r d : Nat) : (post s c r d).surge = s.surge := by rw [show post s c r d = _ from post_shape s c r d]
@[simp] theorem post_ao (s : State) (c r d : Nat) : (post s c r d).ao = s.ao := by rw [show post s c r d = _ from post_shape s c r d]
@[simp] theorem post_boot (s : State) (c r d : Nat) : (post s c r d).boot = s.boot := by rw [show post s c r d = _ from post_shape s c r d]
@[simp] theorem post_tests (s : State) (c r d : Nat) : (post s c r d).tests = s.tests := by rw [show post s c r d = _ from post_shape s c r d]
@[simp] theorem post_lockSeq (s : State) (c r d : Nat) : (post s c r d).lockSeq = s.lockSeq := by rw [show post s c r d = _ from post_shape s c r d]
@[simp] theorem post_cist (s : State) (c r d : Nat) : (post s c r d).cist = s.cist := by rw [show post s c r d = _ from post_shape s c r d]
@[simp] theorem post_casPend (s : State) (c r d : Nat) : (post s c r d).casPend = s.casPend := by rw [show post s c r d = _ from post_shape s c r d]
@[simp] theorem post_snapRun (s : State) (c r d : Nat) : (post s c r d).snapRun = s.snapRun := by rw [show post s c r d = _ from post_shape s c r d]
@[simp] theorem post_snapLatch (s : State) (c r d : Nat) : (post s c r d).snapLatch = s.snapLatch := by rw [show post s c r d = _ from post_shape s c r d]
@[simp] theorem post_dma (s : State) (c r d : Nat) : (post s c r d).dma = s.dma := by rw [show post s c r d = _ from post_shape s c r d]
@[simp] theorem post_time (s : State) (c r d : Nat) : (post s c r d).time = s.time := by rw [show post s c r d = _ from post_shape s c r d]
@[simp] theorem post_field (s : State) (c r d : Nat) : (post s c r d).field = s.field := by rw [show post s c r d = _ from post_shape s c r d]
@[simp] theorem post_safe (s : State) (c r d : Nat) : (post s c r d).safe = s.safe := by rw [show post s c r d = _ from post_shape s c r d]
@[simp] theorem post_pair (s : State) (c r d : Nat) : (post s c r d).pair = s.pair := by rw [show post s c r d = _ from post_shape s c r d]
@[simp] theorem post_bridge (s : State) (c r d : Nat) : (post s c r d).bridge = s.bridge := by rw [show post s c r d = _ from post_shape s c r d]
@[simp] theorem post_sched (s : State) (c r d : Nat) : (post s c r d).sched = s.sched := by rw [show post s c r d = _ from post_shape s c r d]
@[simp] theorem post_engs (s : State) (c r d : Nat) : (post s c r d).engs = s.engs := by rw [show post s c r d = _ from post_shape s c r d]
@[simp] theorem post_axes (s : State) (c r d : Nat) : (post s c r d).axes = s.axes := by rw [show post s c r d = _ from post_shape s c r d]
@[simp] theorem post_mots (s : State) (c r d : Nat) : (post s c r d).mots = s.mots := by rw [show post s c r d = _ from post_shape s c r d]
@[simp] theorem post_motRec (s : State) (c r d : Nat) : (post s c r d).motRec = s.motRec := by rw [show post s c r d = _ from post_shape s c r d]
@[simp] theorem post_camPend (s : State) (c r d : Nat) : (post s c r d).camPend = s.camPend := by rw [show post s c r d = _ from post_shape s c r d]
@[simp] theorem post_stops (s : State) (c r d : Nat) : (post s c r d).stops = s.stops := by rw [show post s c r d = _ from post_shape s c r d]
@[simp] theorem post_commit (s : State) (c r d : Nat) : (post s c r d).commit = s.commit := by rw [show post s c r d = _ from post_shape s c r d]
@[simp] theorem post_lemac (s : State) (c r d : Nat) : (post s c r d).lemac = s.lemac := by rw [show post s c r d = _ from post_shape s c r d]
@[simp] theorem post_safeA (s : State) (c r d : Nat) : (post s c r d).safeA = s.safeA := by rw [show post s c r d = _ from post_shape s c r d]
@[simp] theorem post_safeB (s : State) (c r d : Nat) : (post s c r d).safeB = s.safeB := by rw [show post s c r d = _ from post_shape s c r d]
@[simp] theorem post_plants (s : State) (c r d : Nat) : (post s c r d).plants = s.plants := by rw [show post s c r d = _ from post_shape s c r d]
@[simp] theorem post_tts (s : State) (c r d : Nat) : (post s c r d).tts = s.tts := by rw [show post s c r d = _ from post_shape s c r d]
@[simp] theorem post_capts (s : State) (c r d : Nat) : (post s c r d).capts = s.capts := by rw [show post s c r d = _ from post_shape s c r d]
@[simp] theorem post_encs (s : State) (c r d : Nat) : (post s c r d).encs = s.encs := by rw [show post s c r d = _ from post_shape s c r d]
@[simp] theorem post_emus (s : State) (c r d : Nat) : (post s c r d).emus = s.emus := by rw [show post s c r d = _ from post_shape s c r d]
@[simp] theorem post_acq (s : State) (c r d : Nat) : (post s c r d).acq = s.acq := by rw [show post s c r d = _ from post_shape s c r d]
@[simp] theorem post_cans (s : State) (c r d : Nat) : (post s c r d).cans = s.cans := by rw [show post s c r d = _ from post_shape s c r d]
@[simp] theorem post_eyes (s : State) (c r d : Nat) : (post s c r d).eyes = s.eyes := by rw [show post s c r d = _ from post_shape s c r d]
@[simp] theorem post_resp (s : State) (c r d : Nat) : (post s c r d).resp = s.resp := by rw [show post s c r d = _ from post_shape s c r d]
@[simp] theorem post_freeIdx (s : State) (c r d : Nat) : (post s c r d).freeIdx = s.freeIdx := by rw [show post s c r d = _ from post_shape s c r d]

end Sys2Proof.Machine
end

