-- ==== Sys2Proof/Laws/Ops.lean ====
section
/-! SUPPORT. What the named operations do: register fields, bits, events, logs, power domains, and where a register access is performed. -/

namespace Sys2Proof.Machine

/-! ## Bit fields -/

/-- A number in three parts: above a field, the field, below it. -/
theorem bits_split (hi lo v : Nat) (h : lo ≤ hi) : v = v / 2 ^ (hi + 1) * 2 ^ (hi + 1) + bits hi lo v * 2 ^ lo + v % 2 ^ lo := by
  have e : 2 ^ (hi + 1) = 2 ^ (hi + 1 - lo) * 2 ^ lo := by rw [← Nat.pow_add]; congr 1; omega
  unfold bits
  have a : v / 2 ^ (hi + 1) = v / 2 ^ lo / 2 ^ (hi + 1 - lo) := by rw [e, Nat.mul_comm, Nat.div_div_eq_div_mul]
  have b := Nat.div_add_mod v (2 ^ lo)
  have c := Nat.div_add_mod (v / 2 ^ lo) (2 ^ (hi + 1 - lo))
  rw [a, e, ← Nat.mul_assoc, ← Nat.add_mul, Nat.mul_comm (v / 2 ^ lo / _) _, c, Nat.mul_comm, b]

/-- A replaced field, in the same three parts. -/
theorem setBits_eq (hi lo old v : Nat) (h : lo ≤ hi) :
    setBits hi lo old v = old / 2 ^ (hi + 1) * 2 ^ (hi + 1) + v % 2 ^ (hi + 1 - lo) * 2 ^ lo + old % 2 ^ lo := by
  have s := bits_split hi lo old h
  unfold setBits
  omega

/-- A number below the field's top, by its parts. -/
theorem part_lt (hi lo x y : Nat) (h : lo ≤ hi) (hx : x < 2 ^ (hi + 1 - lo)) (hy : y < 2 ^ lo) : x * 2 ^ lo + y < 2 ^ (hi + 1) := by
  have e : 2 ^ (hi + 1) = 2 ^ (hi + 1 - lo) * 2 ^ lo := by rw [← Nat.pow_add]; congr 1; omega
  rw [e]
  calc x * 2 ^ lo + y < x * 2 ^ lo + 2 ^ lo := by omega
    _ = (x + 1) * 2 ^ lo := by rw [Nat.add_mul, Nat.one_mul]
    _ ≤ _ := Nat.mul_le_mul_right _ hx

/-- A replaced field reads what was written, cut to its width. -/
@[simp] theorem bits_setBits_self (hi lo old v : Nat) (h : lo ≤ hi) : bits hi lo (setBits hi lo old v) = v % 2 ^ (hi + 1 - lo) := by
  have e : 2 ^ (hi + 1) = 2 ^ (hi + 1 - lo) * 2 ^ lo := by rw [← Nat.pow_add]; congr 1; omega
  rw [setBits_eq _ _ _ _ h, bits, e, ← Nat.mul_assoc, ← Nat.add_mul, Nat.mul_comm _ (2 ^ lo), Nat.mul_add_div (Nat.two_pow_pos lo),
    Nat.div_eq_of_lt (Nat.mod_lt _ (Nat.two_pow_pos lo)), Nat.add_zero, Nat.mul_comm, Nat.mul_add_mod, Nat.mod_mod]

/-- A replaced field leaves the bits above it. -/
theorem bits_setBits_above (hi lo h2 l2 old v : Nat) (h : lo ≤ hi) (d : hi < l2) : bits h2 l2 (setBits hi lo old v) = bits h2 l2 old := by
  have hp := part_lt hi lo (v % 2 ^ (hi + 1 - lo)) (old % 2 ^ lo) h (Nat.mod_lt _ (Nat.two_pow_pos _)) (Nat.mod_lt _ (Nat.two_pow_pos _))
  have key : setBits hi lo old v / 2 ^ (hi + 1) = old / 2 ^ (hi + 1) := by
    rw [setBits_eq _ _ _ _ h, Nat.add_assoc, Nat.mul_comm, Nat.mul_add_div (Nat.two_pow_pos _), Nat.div_eq_of_lt hp, Nat.add_zero]
  have e : 2 ^ l2 = 2 ^ (hi + 1) * 2 ^ (l2 - (hi + 1)) := by rw [← Nat.pow_add]; congr 1; omega
  unfold bits
  rw [e, ← Nat.div_div_eq_div_mul, ← Nat.div_div_eq_div_mul, key]

/-- A replaced field leaves the bits below it. -/
theorem bits_setBits_below (hi lo h2 l2 old v : Nat) (h : lo ≤ hi) (g : l2 ≤ h2) (d : h2 < lo) : bits h2 l2 (setBits hi lo old v) = bits h2 l2 old := by
  have key : setBits hi lo old v % 2 ^ lo = old % 2 ^ lo := by
    have e : 2 ^ (hi + 1) = 2 ^ (hi + 1 - lo) * 2 ^ lo := by rw [← Nat.pow_add]; congr 1; omega
    rw [setBits_eq _ _ _ _ h, e, ← Nat.mul_assoc, ← Nat.add_mul, Nat.mul_comm, Nat.mul_add_mod, Nat.mod_mod]
  have cut : ∀ x, bits h2 l2 x = bits h2 l2 (x % 2 ^ lo) := by
    intro x
    unfold bits
    have e : 2 ^ lo = 2 ^ l2 * 2 ^ (lo - l2) := by rw [← Nat.pow_add]; congr 1; omega
    rw [e, Nat.mod_mul_right_div_self, Nat.mod_mod_of_dvd]
    exact Nat.pow_dvd_pow 2 (by omega)
  rw [cut, key, ← cut]

/-- A replaced field keeps the word within its width. -/
theorem setBits_lt (hi lo n old v : Nat) (h : lo ≤ hi) (hn : hi < n) (ho : old < 2 ^ n) : setBits hi lo old v < 2 ^ n := by
  have hp := part_lt hi lo (v % 2 ^ (hi + 1 - lo)) (old % 2 ^ lo) h (Nat.mod_lt _ (Nat.two_pow_pos _)) (Nat.mod_lt _ (Nat.two_pow_pos _))
  have e : 2 ^ n = 2 ^ (n - (hi + 1)) * 2 ^ (hi + 1) := by rw [← Nat.pow_add]; congr 1; omega
  have q : old / 2 ^ (hi + 1) < 2 ^ (n - (hi + 1)) := Nat.div_lt_of_lt_mul (by rwa [Nat.mul_comm, ← e])
  rw [setBits_eq _ _ _ _ h, Nat.add_assoc, e]
  calc _ < old / 2 ^ (hi + 1) * 2 ^ (hi + 1) + 2 ^ (hi + 1) := by omega
    _ = (old / 2 ^ (hi + 1) + 1) * 2 ^ (hi + 1) := by rw [Nat.add_mul, Nat.one_mul]
    _ ≤ _ := Nat.mul_le_mul_right _ q

/-! ## Registers -/

/-- A register holds 32 bits. -/
theorem rdw_lt (s : State) (k : Nat) : rdw s k < 2 ^ 32 := BitVec.isLt _

/-- A register reads what was written. -/
@[simp] theorem rdw_wrw_self (s : State) (k v : Nat) : rdw (wrw s k v) k = v % 2 ^ 32 := by simp [rdw, wrw]

/-- A register write leaves every other register. -/
theorem rdw_wrw_other (s : State) {k j : Nat} (v : Nat) (h : j ≠ k) : rdw (wrw s k v) j = rdw s j := by
  simp [rdw, wrw, tget_tput_other _ _ _ h]

/-- A field write leaves every other register. -/
theorem rdw_wr_other (s : State) (f : Fld) {j : Nat} (v : Nat) (h : j ≠ f.addr) : rdw (wr s f v) j = rdw s j := rdw_wrw_other _ _ h

/-- A field that lies in its register reads what was written, cut to its width. -/
theorem rd_wr_self (s : State) (f : Fld) (v : Nat) (h : f.lo ≤ f.hi) (hh : f.hi < 32) : rd (wr s f v) f = v % 2 ^ (f.hi + 1 - f.lo) := by
  unfold rd wr
  rw [rdw_wrw_self, Nat.mod_eq_of_lt (setBits_lt _ _ 32 _ _ h hh (rdw_lt s f.addr)), bits_setBits_self _ _ _ _ h]

/-- A field write leaves the fields of every other register. -/
theorem rd_wr_other (s : State) (f g : Fld) (v : Nat) (h : g.addr ≠ f.addr) : rd (wr s f v) g = rd s g := by
  unfold rd; rw [rdw_wr_other s f v h]

/-- A field write leaves the other fields of its register. -/
theorem rd_wr_disj (s : State) (f g : Fld) (v : Nat) (h : f.lo ≤ f.hi) (hh : f.hi < 32) (hg : g.lo ≤ g.hi) (d : g.hi < f.lo ∨ f.hi < g.lo) :
    rd (wr s f v) g = rd s g := by
  by_cases ha : g.addr = f.addr
  · unfold rd wr
    rw [ha, rdw_wrw_self, Nat.mod_eq_of_lt (setBits_lt _ _ 32 _ _ h hh (rdw_lt s f.addr))]
    rcases d with d | d
    · exact bits_setBits_below _ _ _ _ _ _ h hg d
    · exact bits_setBits_above _ _ _ _ _ _ h d
  · exact rd_wr_other s f g v ha

/-! ## Events and logs -/

/-- Sending a vector changes no register but the pending-bit array. -/
theorem rdw_sendVec (s : State) (v : Nat) {k : Nat} (h : k ≠ 0xB1C00) : rdw (sendVec s v) k = rdw s k := by
  unfold sendVec
  split
  · rfl
  · split
    · exact rdw_wrw_other _ _ h
    · rfl

/-- An event changes no register but the page's EVT_PEND and the pending-bit array. -/
theorem rdw_raise (s : State) (p b : Nat) {k : Nat} (h : k ≠ 0xB1C00) (hp : k ≠ p * 0x1000 + 0x18) : rdw (raise s p b) k = rdw s k := by
  unfold raise
  split
  · dsimp only
    split
    · rw [rdw_sendVec _ _ h, rdw_wrw_other _ _ hp]
    · exact rdw_wrw_other _ _ hp
  · rfl

/-- A bit that is set reads set, and the others read as before. -/
theorem bitOf_putBit (n m v : Nat) (b : Bool) : bitOf m (putBit n b v) = if m = n then b else bitOf m v := by
  have e : putBit n b v = setBits n n v (b2n b) := by
    unfold putBit setBits bits
    cases b <;> simp [b2n]
  have one : ∀ x, bitOf m x = (bits m m x == 1) := by intro x; simp [bitOf, bits]
  rw [e, one, one]
  split
  · next h => subst h; rw [bits_setBits_self _ _ _ _ (le_refl _)]; cases b <;> simp [b2n]
  · next h =>
    rcases Nat.lt_or_gt_of_ne h with h | h
    · rw [bits_setBits_below _ _ _ _ _ _ (le_refl _) (le_refl _) h]
    · rw [bits_setBits_above _ _ _ _ _ _ (le_refl _) h]

/-- An error entry changes no register of another page than ERRLOG and EVT_PEND. -/
theorem rdw_errlog (s : State) (p c : Nat) (m : Master) (o : Nat) {k : Nat} (h : k ≠ 0xB1C00) (hp : k ≠ p * 0x1000 + 0x18)
    (he : k ≠ (Reg.HDR_ERRLOG_VALID p).addr) : rdw (errlog s p c m o) k = rdw s k := by
  unfold errlog
  split
  · exact rdw_wr_other _ _ _ he
  · rw [rdw_raise _ _ _ h hp]; exact rdw_wrw_other _ _ he

/-- A master's code has four bits. -/
theorem mcode_lt (m : Master) : mcode m < 16 := by cases m <;> simp only [mcode] <;> omega

/-- Masters of one code are one master. -/
theorem mcode_inj {m n : Master} (h : mcode m = mcode n) : m = n := by
  cases m <;> cases n <;> simp only [mcode] at h <;> first | rfl | omega | (congr 1; omega)

/-- The first error is recorded with its cause, master and offset. -/
theorem rdw_errlog_first (s : State) (p c : Nat) (m : Master) (o : Nat) (hc : c < 16) (h : on s (Reg.HDR_ERRLOG_VALID p) = false) :
    rdw (errlog s p c m o) (p * 0x1000 + 0x28) = 2 ^ 31 + c * 2 ^ 20 + mcode m * 2 ^ 16 + o % 2 ^ 12 := by
  have hm := mcode_lt m
  have e : (Reg.HDR_ERRLOG p).addr = p * 0x1000 + 0x28 := by simp [Reg.HDR_ERRLOG, Nat.add_comm]
  unfold errlog
  rw [h, if_neg (by simp), e, rdw_raise _ _ _ (by omega) (by omega), rdw_wrw_self]
  omega

/-- A later error only sets MORE. -/
theorem rdw_errlog_more (s : State) (p c : Nat) (m : Master) (o : Nat) (h : on s (Reg.HDR_ERRLOG_VALID p) = true) :
    rdw (errlog s p c m o) (p * 0x1000 + 0x28) = setBits 30 30 (rdw s (p * 0x1000 + 0x28)) 1 := by
  have e : (Reg.HDR_ERRLOG_MORE p).addr = p * 0x1000 + 0x28 := by simp [Reg.HDR_ERRLOG_MORE, Nat.add_comm]
  unfold errlog wr
  rw [h, if_pos rfl, e, rdw_wrw_self, Nat.mod_eq_of_lt]
  · rfl
  · exact setBits_lt 30 30 32 _ _ (le_refl _) (by omega) (rdw_lt _ _)

/-- After an error is logged, VALID is set. -/
theorem errlog_valid (s : State) (p c : Nat) (m : Master) (o : Nat) (hc : c < 16) : on (errlog s p c m o) (Reg.HDR_ERRLOG_VALID p) = true := by
  have e : (Reg.HDR_ERRLOG_VALID p).addr = p * 0x1000 + 0x28 := by simp [Reg.HDR_ERRLOG_VALID, Nat.add_comm]
  have hm := mcode_lt m
  by_cases h : on s (Reg.HDR_ERRLOG_VALID p) = true
  · have h' := h
    simp only [on, rd, e, beq_iff_eq] at h ⊢
    rw [rdw_errlog_more s p c m o h', show (Reg.HDR_ERRLOG_VALID p).hi = 31 from rfl, show (Reg.HDR_ERRLOG_VALID p).lo = 31 from rfl,
      bits_setBits_above _ _ _ _ _ _ (le_refl _) (by decide)]
    exact h
  · simp only [Bool.not_eq_true] at h
    simp only [on, rd, e, beq_iff_eq]
    rw [rdw_errlog_first s p c m o hc h, show (Reg.HDR_ERRLOG_VALID p).hi = 31 from rfl, show (Reg.HDR_ERRLOG_VALID p).lo = 31 from rfl]
    unfold bits
    omega

/-! ## Power domains and where an access is performed -/

/-- A domain reads as it was set. -/
@[simp] theorem dom_setDom_self (s : State) (d : Nat) (v : DomSt) : dom (setDom s d v) d = v := tget_tput_self _ _ _ _

/-- Setting a domain leaves the others. -/
theorem dom_setDom_other (s : State) {d e : Nat} (v : DomSt) (h : e ≠ d) : dom (setDom s d v) e = dom s e := tget_tput_other _ _ _ h

/-- A domain's state is the same where the table of domains is. -/
theorem domOn_congr {s t : State} (h : t.pwr = s.pwr) (d : Nat) : domOn t d = domOn s d := by simp [domOn, dom, h]

/-- An access to a page that its master can reach is performed. -/
theorem pageAccess_open {s : State} {k : Nat} {m : Master} (a : Access) (f : State → State) (h : CanReach m s k) : pageAccess s m k a f = f s := by
  obtain ⟨hb, hr, hg⟩ := h
  have hm : ¬(m = .diagPort ∧ ¬diagMay s k a = true) := by
    rintro ⟨h1, h2⟩
    refine h2 ?_
    unfold diagMay
    rcases hg h1 with h | h
    · rw [h]; rfl
    · subst h; simp
  obtain ⟨x, hx⟩ := Option.isSome_iff_exists.mp hb
  simp only [reachable, Bool.and_eq_true, Bool.or_eq_true, Bool.not_eq_true'] at hr
  obtain ⟨hd, hg⟩ := hr
  unfold pageAccess
  dsimp only
  rw [hx]
  dsimp only
  have hn : ¬((k / 0x1000 = 0x02 ∨ k / 0x1000 = 0xA0) ∧ ¬domOn s dSTEWARD = true) := by
    rintro ⟨hk, hs⟩
    rcases hg with hg | hg
    · rcases hk with hk | hk <;> simp [hk] at hg
    · exact hs hg
  rw [if_neg hm, if_neg hn]
  unfold domAccess
  rw [if_pos hd]

/-- A command at a register that can be reached: the plain fields of its word, then its action. -/
theorem regAction_open {s : State} {k : Nat} {m : Master} (w : W32) (f : State → State) (h : CanReach m s k) :
    regAction s m k w f = f (plainWrite s m k w.toNat) := pageAccess_open _ _ h

/-- Logging errors of a page changes no register but its ERRLOG, its EVT_PEND and the pending-bit array. -/
theorem rdw_errlogs (s : State) (p : Nat) (m : Master) (o : Nat) (l : List Nat) {j : Nat} (h : j ≠ 0xB1C00) (hp : j ≠ p * 0x1000 + 0x18)
    (he : j ≠ p * 0x1000 + 0x28) : rdw (l.foldl (fun t c => errlog t p c m o) s) j = rdw s j := by
  induction l generalizing s with
  | nil => rfl
  | cons c r ih => rw [List.foldl_cons, ih, rdw_errlog _ _ _ _ _ h hp]; simpa [Reg.HDR_ERRLOG_VALID, Nat.add_comm] using he

/-- A plain write leaves every register but its own and the page's logs. -/
theorem rdw_plainWrite (s : State) (m : Master) (k w : Nat) {j : Nat} (hj : j ≠ k) (h : j ∉ sideKeys k) : rdw (plainWrite s m k w) j = rdw s j := by
  simp only [sideKeys, List.mem_cons, List.not_mem_nil, or_false, not_or] at h
  obtain ⟨h1, h2, h3⟩ := h
  unfold plainWrite
  extract_lets p rows lk t u
  have hu : rdw u j = rdw s j := by
    simp only [u, t]
    rw [rdw_errlogs _ _ _ _ _ h3 h1 h2, rdw_wrw_other _ _ hj]
  clear_value u
  split
  · rw [← hu]
    unfold afterHeader
    dsimp only
    repeat' split
    all_goals first | rfl | exact rdw_wrw_other _ _ hj | exact rdw_sendVec _ _ h3
  · split
    · rw [← hu]
      unfold afterMsix
      dsimp only
      repeat' split
      all_goals first | rfl | exact rdw_wrw_other _ _ h3 | rw [rdw_sendVec _ _ h3, rdw_wrw_other _ _ h3]
    · exact hu

/-- A plain write of a register past the page header and outside the MSI-X table stores the value that its fields take. -/
theorem rdw_plainWrite_self (s : State) (m : Master) (k w : Nat) (hk : 0x40 ≤ k % 0x1000) (hx : ¬(0xB1800 ≤ k ∧ k < 0xB1980)) (hb : k ≠ 0xB1C00) :
    rdw (plainWrite s m k w) k = newValue (locked s (k / 0x1000)) (rowsAt k) (rdw s k) w % 2 ^ 32 := by
  unfold plainWrite
  extract_lets p rows lk t u
  have hu : rdw u k = newValue lk rows (rdw s k) w % 2 ^ 32 := by
    simp only [u]
    rw [rdw_errlogs _ _ _ _ _ hb (by omega) (by omega)]
    simp only [t]
    rw [rdw_wrw_self]
  rw [if_neg (by omega), if_neg hx]
  exact hu

/-- A plain write changes its register, the page's logs and the MSI-X pending bits. -/
theorem plainWrite_written (s : State) (m : Master) (k w : Nat) : Written k s (plainWrite s m k w) := by
  refine ⟨plainWrite_shape s m k w, fun j hj => ?_⟩
  simp only [cmdKeys, List.mem_cons, not_or] at hj
  exact rdw_plainWrite s m k w hj.1 (by simpa [sideKeys] using hj.2)

/-- A command at a register that can be reached acts on the state in which its word has been written. -/
theorem regAction_written {s : State} {k : Nat} (m : Master) (w : W32) (f : State → State) (h : CanReach m s k) :
    ∃ u, Written k s u ∧ regAction s m k w f = f u := ⟨_, plainWrite_written s m k w.toNat, regAction_open w f h⟩

/-- A field outside the written register and the page's logs reads as before. -/
theorem Written.rd {k : Nat} {s u : State} (h : Written k s u) (f : Fld) (hf : f.addr ∉ cmdKeys k) : rd u f = rd s f := by
  unfold Machine.rd; rw [h.2 _ hf]

/-- A bit outside the written register and the page's logs reads as before. -/
theorem Written.on {k : Nat} {s u : State} (h : Written k s u) (f : Fld) (hf : f.addr ∉ cmdKeys k) : on u f = on s f := by
  unfold Machine.on; rw [h.rd f hf]

/-- Keeping items for the mirror record changes nothing but the list of items. -/
theorem noteItems_shape (s : State) (l : List MItem) : noteItems s l = { s with pair := { s.pair with items := (noteItems s l).pair.items } } := by
  unfold noteItems
  split <;> rfl

/-- What a unit keeps for its mirror record is in no register. -/
theorem Kept.rdw {u t : State} (h : Kept u t) (k : Nat) : rdw t k = rdw u k := by
  obtain ⟨l, rfl⟩ := h
  rw [noteItems_shape]
  rfl

/-- What a unit keeps for its mirror record is not in memory. -/
theorem Kept.mem {u t : State} (h : Kept u t) : t.mem = u.mem := by
  obtain ⟨l, rfl⟩ := h
  rw [noteItems_shape]

/-- A command that the pair shares, at a unit that takes it: its word is written, it acts, and its items are kept. -/
theorem pairActionWith_kept {s : State} {k : Nat} (m : Master) (w : W32) (items : State → State → List MItem) (f : State → State)
    (h : CanReach m s k) (hr : roleBars s m = false) : ∃ u, Written k s u ∧ Kept (f u) (pairActionWith s m k w items f) := by
  refine ⟨_, plainWrite_written s m k w.toNat, items (plainWrite s m k w.toNat) (f (plainWrite s m k w.toNat)), ?_⟩
  unfold pairActionWith
  rw [pageAccess_open _ _ h, hr]
  rfl

/-- A command that the pair shares, written by the host of a standby, is only logged (R256). -/
theorem pairActionWith_barred {s : State} {k : Nat} (m : Master) (w : W32) (items : State → State → List MItem) (f : State → State)
    (h : CanReach m s k) (hr : roleBars s m = true) : pairActionWith s m k w items f = errlog s (k / 0x1000) 6 m k := by
  unfold pairActionWith
  rw [pageAccess_open _ _ h, hr]
  rfl

end Sys2Proof.Machine
end

