-- ==== Sys2Proof/Laws/Units.lean ====
section
/-! SUPPORT. Numbers in memory, points, sump entries, units kept in tables, and what the C-slot, X-slot and Y-slot operations share. -/

namespace Sys2Proof.Machine

/-! ## Numbers in memory (R11) -/

@[simp] theorem length_leBytes (n v : Nat) : (leBytes n v).length = n := by
  induction n generalizing v with
  | zero => rfl
  | succ n ih => simp [leBytes, ih]

/-- The bytes of a number give it back, cut to their count. -/
@[simp] theorem leNat_leBytes (n v : Nat) : leNat (leBytes n v) = v % 256 ^ n := by
  induction n generalizing v with
  | zero => simp [leBytes, leNat, Nat.mod_one]
  | succ n ih =>
    simp only [leBytes, leNat, ih, BitVec.toNat_ofNat]
    have e : v % 256 ^ (n + 1) = v % 256 + 256 * (v / 256 % 256 ^ n) := by rw [Nat.pow_succ', Nat.mod_mul]
    rw [e]

/-- Bytes written read back. -/
theorem mread_mwrite_part (s : State) (a : Nat) (x l y : List Byte) : mread (mwrite s a (x ++ l ++ y)) (a + x.length) l.length = l := by
  unfold mread
  apply List.ext_getElem
  · simp
  · intro i h1 h2
    simp only [List.getElem_map, List.getElem_range]
    rw [Nat.add_assoc, mget_mwrite_self _ _ _ _ (by simp; omega)]
    rw [List.getElem_append_left (by simp; omega), List.getElem_append_right (by omega)]
    congr 1
    omega

/-- A number written among other bytes reads back. -/
theorem mnum_mwrite_part (s : State) (a n v : Nat) (x y : List Byte) : mnum (mwrite s a (x ++ leBytes n v ++ y)) (a + x.length) n = v % 256 ^ n := by
  have h := mread_mwrite_part s a x (leBytes n v) y
  rw [length_leBytes] at h
  rw [mnum, h, leNat_leBytes]

/-- A number written reads back. -/
@[simp] theorem mnum_msetNum_self (s : State) (a n v : Nat) : mnum (msetNum s a n v) a n = v % 256 ^ n := by
  have h := mnum_mwrite_part s a n v [] []
  simpa [msetNum] using h

/-- A number reads as before where its bytes do. -/
theorem mnum_congr {s t : State} {a n : Nat} (h : ∀ i, i < n → mget t (a + i) = mget s (a + i)) : mnum t a n = mnum s a n := by
  unfold mnum mread
  congr 1
  exact List.map_congr_left (fun i hi => h i (List.mem_range.mp hi))

/-- A number written leaves every byte outside it. -/
theorem mget_msetNum_other (s : State) (a n v c : Nat) (h : c < a ∨ a + n ≤ c) : mget (msetNum s a n v) c = mget s c :=
  mget_mwrite_other _ _ _ _ (by rwa [length_leBytes])

/-! ## Points (R440) -/

/-- A point delivered reads its value and flag; outside a pair segment 29 takes no write (R8). -/
theorem wrPt_is (s : State) (p v : Nat) (st : Bool) (hg : p / 32768 % 32 ≠ 29 ∨ paired s = true) : PointIs (wrPt s p v st) p v st := by
  have hw : wrPt s p v st = setStale (msetNum s (ptAddr p) 8 v) p st := if_neg (by tauto)
  rw [hw]
  have e : ∀ i, i < 8 → ptAddr p + i ≠ pdAddr p := by
    intro i h
    simp only [ptAddr, pdAddr]
    omega
  refine ⟨?_, ?_⟩
  · unfold setStale
    rw [mnum_congr (s := msetNum s (ptAddr p) 8 v) (fun i h => mget_mput_other _ _ (e i h)), mnum_msetNum_self]
    norm_num
  · rw [setStale, mget_mput_self]
    cases st <;> rfl

/-- A point delivered leaves every other byte of memory. -/
theorem wrPt_same (s : State) (p v : Nat) (st : Bool) : SamePtsBut [p] s (wrPt s p v st) := by
  intro a h
  have h := h p (by simp)
  unfold wrPt
  split
  · rfl
  · rw [setStale, mget_mput_other _ _ h.2, mget_msetNum_other _ _ _ _ _ h.1]

/-- A stale flag that is set leaves every other byte of memory. -/
theorem setStale_same (s : State) (p : Nat) (st : Bool) : SamePtsBut [p] s (setStale s p st) := by
  intro a h
  exact mget_mput_other _ _ (h p (by simp)).2

theorem SamePtsBut.trans {s t u : State} {l m : List Nat} (h : SamePtsBut l s t) (k : SamePtsBut m t u) : SamePtsBut (l ++ m) s u := by
  intro a ha
  rw [k a (fun p hp => ha p (by simp [hp])), h a (fun p hp => ha p (by simp [hp]))]

/-! ## Sump entries (R414, R415) -/

/-- An entry without a tail copy stands at the write place, which moves on. -/
theorem post_new (s : State) (code source detail : Nat) (hc : code < 2 ^ 16) (hs : 2 < source) (hr : source < 8) : NewEntry s (post s code source detail) code source detail := by
  intro hd
  have hw : rd s Reg.SUMP_WPTR_INDEX < 2 ^ 12 := by
    unfold rd bits
    exact Nat.mod_lt _ (by decide)
  have regs : ∀ (t : State) (i n : Nat), RegsWire t (post s code source detail) → mnum (post s code source detail) i n = mnum t i n := by
    intro t i n h
    exact mnum_congr (fun j _ => by unfold mget; rw [h.mem])
  have hm : ∀ a, mget (post s code source detail) a = mget (mwrite s (0x10010000 + 16 * rd s Reg.SUMP_WPTR_INDEX) (sumpBytes s code source detail)) a := by
    intro a
    unfold post
    rw [if_pos hd, if_neg (by omega)]
    unfold mget
    rw [(raise_shape _ _ _).mem, (incCnt_shape _ _).mem]
    split
    · rfl
    · rw [(incErr_shape _ _).mem]; rfl
  have key : ∀ i n, mnum (post s code source detail) i n = mnum (mwrite s (0x10010000 + 16 * rd s Reg.SUMP_WPTR_INDEX) (sumpBytes s code source detail)) i n :=
    fun i n => mnum_congr (fun j _ => hm _)
  have hl : b2n (!domOn s dNET) ≤ 1 := by cases domOn s dNET <;> simp [b2n]
  have h3 : b2n (decide (source ≤ 2)) = 0 := by rw [decide_eq_false (by omega)]; rfl
  refine ⟨?_, ?_, ?_, ?_⟩
  · rw [key]
    have h := mnum_mwrite_part s (0x10010000 + 16 * rd s Reg.SUMP_WPTR_INDEX) 8 (stampNow s) []
      (leBytes 4 (code + source * 2 ^ 16 + b2n (!domOn s dNET) * 2 ^ 19 + b2n (decide (source ≤ 2)) * 2 ^ 20) ++ leBytes 4 detail)
    simpa [sumpBytes] using h
  · rw [key]
    have h := mnum_mwrite_part s (0x10010000 + 16 * rd s Reg.SUMP_WPTR_INDEX) 4
      (code + source * 2 ^ 16 + b2n (!domOn s dNET) * 2 ^ 19 + b2n (decide (source ≤ 2)) * 2 ^ 20) (leBytes 8 (stampNow s)) (leBytes 4 detail)
    rw [length_leBytes] at h
    rw [sumpBytes, h, Nat.mod_eq_of_lt (by omega)]
  · rw [key]
    have h := mnum_mwrite_part s (0x10010000 + 16 * rd s Reg.SUMP_WPTR_INDEX) 4 detail
      (leBytes 8 (stampNow s) ++ leBytes 4 (code + source * 2 ^ 16 + b2n (!domOn s dNET) * 2 ^ 19 + b2n (decide (source ≤ 2)) * 2 ^ 20)) []
    simpa [sumpBytes] using h
  · have e : rd (post s code source detail) Reg.SUMP_WPTR_INDEX =
        rd (wr (mwrite s (0x10010000 + 16 * rd s Reg.SUMP_WPTR_INDEX) (sumpBytes s code source detail)) Reg.SUMP_WPTR_INDEX (rd s Reg.SUMP_WPTR_INDEX + 1)) Reg.SUMP_WPTR_INDEX := by
      unfold post
      rw [if_pos hd, if_neg (by omega)]
      have a1 : ∀ u : State, rd (raise (incCnt u Reg.SUMP_POST_CNT) 4 4) Reg.SUMP_WPTR_INDEX = rd u Reg.SUMP_WPTR_INDEX := by
        intro u
        unfold rd
        rw [rdw_raise _ _ _ (by decide) (by decide)]
        unfold incCnt addCnt
        dsimp only
        split
        · unfold setStat
          split
          · rw [rdw_wr_other _ _ _ (by decide)]
          · rw [rdw_raise _ _ _ (by decide) (by decide), rdw_wr_other _ _ _ (by decide), rdw_wr_other _ _ _ (by decide)]
        · rw [rdw_wr_other _ _ _ (by decide)]
      rw [a1]
      split
      · exact rd_wr_other _ _ _ _ (by decide)
      · unfold rd incErr
        split
        · rw [rdw_wr_other _ _ _ (by decide), rdw_wr_other _ _ _ (by decide)]
        · unfold setStat
          split
          · rw [rdw_wr_other _ _ _ (by decide)]
          · rw [rdw_raise _ _ _ (by decide) (by decide), rdw_wr_other _ _ _ (by decide), rdw_wr_other _ _ _ (by decide)]
    rw [e, rd_wr_self _ _ _ (by decide) (by decide)]
    rfl

/-! ## Units kept in tables -/

/-- The encoder channel that was set reads as it was set. -/
@[simp] theorem enc_setEnc_self (s : State) (n : Nat) (x : EncSt) : enc (setEnc s n x) n = x := tget_tput_self _ _ _ _
/-- Setting one encoder channel leaves the others. -/
theorem enc_setEnc_other (s : State) (n : Nat) (x : EncSt) {j : Nat} (h : j ≠ n) : enc (setEnc s n x) j = enc s j := tget_tput_other _ _ _ h
/-- The emulation output that was set reads as it was set. -/
@[simp] theorem emu_setEmu_self (s : State) (n : Nat) (x : EmuSt) : emu (setEmu s n x) n = x := tget_tput_self _ _ _ _
/-- Setting one emulation output leaves the others. -/
theorem emu_setEmu_other (s : State) (n : Nat) (x : EmuSt) {j : Nat} (h : j ≠ n) : emu (setEmu s n x) j = emu s j := tget_tput_other _ _ _ h
/-- The CAN controller that was set reads as it was set. -/
@[simp] theorem can_setCan_self (s : State) (n : Nat) (x : CanSt) : can (setCan s n x) n = x := tget_tput_self _ _ _ _
/-- Setting one CAN controller leaves the others. -/
theorem can_setCan_other (s : State) (n : Nat) (x : CanSt) {j : Nat} (h : j ≠ n) : can (setCan s n x) j = can s j := tget_tput_other _ _ _ h
/-- The axis that was set reads as it was set. -/
@[simp] theorem axis_setAxis_self (s : State) (n : Nat) (x : AxisSt) : axis (setAxis s n x) n = x := tget_tput_self _ _ _ _
/-- Setting one axis leaves the others. -/
theorem axis_setAxis_other (s : State) (n : Nat) (x : AxisSt) {j : Nat} (h : j ≠ n) : axis (setAxis s n x) j = axis s j := tget_tput_other _ _ _ h
/-- The motion channel that was set reads as it was set. -/
@[simp] theorem mot_setMot_self (s : State) (n : Nat) (x : MotSt) : mot (setMot s n x) n = x := tget_tput_self _ _ _ _
/-- Setting one motion channel leaves the others. -/
theorem mot_setMot_other (s : State) (n : Nat) (x : MotSt) {j : Nat} (h : j ≠ n) : mot (setMot s n x) j = mot s j := tget_tput_other _ _ _ h
/-- The cistern block that was set reads as it was set. -/
@[simp] theorem blk_setBlk_self (s : State) (n : Nat) (x : BlkOwn) : blk (setBlk s n x) n = x := tget_tput_self _ _ _ _
/-- Setting one cistern block leaves the others. -/
theorem blk_setBlk_other (s : State) (n : Nat) (x : BlkOwn) {j : Nat} (h : j ≠ n) : blk (setBlk s n x) j = blk s j := tget_tput_other _ _ _ h
/-- The plant port that was set reads as it was set. -/
@[simp] theorem plant_setPlant_self (s : State) (n : Nat) (x : PlantSt) : plant (setPlant s n x) n = x := tget_tput_self _ _ _ _
/-- Setting one plant port leaves the others. -/
theorem plant_setPlant_other (s : State) (n : Nat) (x : PlantSt) {j : Nat} (h : j ≠ n) : plant (setPlant s n x) j = plant s j := tget_tput_other _ _ _ h
/-- The time-triggered output that was set reads as it was set. -/
@[simp] theorem tt_setTt_self (s : State) (n : Nat) (x : TtSt) : tt (setTt s n x) n = x := tget_tput_self _ _ _ _
/-- Setting one time-triggered output leaves the others. -/
theorem tt_setTt_other (s : State) (n : Nat) (x : TtSt) {j : Nat} (h : j ≠ n) : tt (setTt s n x) j = tt s j := tget_tput_other _ _ _ h
/-- The capture that was set reads as it was set. -/
@[simp] theorem capt_setCapt_self (s : State) (n : Nat) (x : CaptSt) : capt (setCapt s n x) n = x := tget_tput_self _ _ _ _
/-- Setting one capture leaves the others. -/
theorem capt_setCapt_other (s : State) (n : Nat) (x : CaptSt) {j : Nat} (h : j ≠ n) : capt (setCapt s n x) j = capt s j := tget_tput_other _ _ _ h
/-- The engine that was set reads as it was set. -/
@[simp] theorem eng_setEng_self (s : State) (n : Nat) (x : Engine) : eng (setEng s n x) n = x := tget_tput_self _ _ _ _
/-- Setting one engine leaves the others. -/
theorem eng_setEng_other (s : State) (n : Nat) (x : Engine) {j : Nat} (h : j ≠ n) : eng (setEng s n x) j = eng s j := tget_tput_other _ _ _ h
/-- The port that was set reads as it was set. -/
@[simp] theorem port_setPort_self (s : State) (n : Nat) (x : PortSt) : port (setPort s n x) n = x := tget_tput_self _ _ _ _
/-- Setting one port leaves the others. -/
theorem port_setPort_other (s : State) (n : Nat) (x : PortSt) {j : Nat} (h : j ≠ n) : port (setPort s n x) j = port s j := tget_tput_other _ _ _ h
/-- The task that was set reads as it was set. -/
@[simp] theorem task_setTask_self (s : State) (n : Nat) (x : TaskSt) : task (setTask s n x) n = x := tget_tput_self _ _ _ _
/-- Setting one task leaves the others. -/
theorem task_setTask_other (s : State) (n : Nat) (x : TaskSt) {j : Nat} (h : j ≠ n) : task (setTask s n x) j = task s j := tget_tput_other _ _ _ h
/-- The poster that was set reads as it was set. -/
@[simp] theorem poster_setPoster_self (s : State) (n : Nat) (x : List PostItem) : poster (setPoster s n x) n = x := tget_tput_self _ _ _ _
/-- Setting one poster leaves the others. -/
theorem poster_setPoster_other (s : State) (n : Nat) (x : List PostItem) {j : Nat} (h : j ≠ n) : poster (setPoster s n x) j = poster s j := tget_tput_other _ _ _ h

/-- A CAN transmit buffer reads as it was set, and its controller's other parts as before. -/
@[simp] theorem canTx_setCanTx_self (s : State) (n t : Nat) (x : CanTx) : canTx (setCanTx s n t x) n t = x := by simp [canTx, setCanTx]
theorem canTx_setCanTx_other (s : State) (n t : Nat) (x : CanTx) {j : Nat} (h : j ≠ t) : canTx (setCanTx s n t x) n j = canTx s n j := by
  simp [canTx, setCanTx, tget_tput_other _ _ _ h]
/-- A CAN receive buffer reads as it was set. -/
@[simp] theorem canRx_setCanRx_self (s : State) (n b : Nat) (x : CanRx) : canRx (setCanRx s n b x) n b = x := by simp [canRx, setCanRx]
theorem canRx_setCanRx_other (s : State) (n b : Nat) (x : CanRx) {j : Nat} (h : j ≠ b) : canRx (setCanRx s n b x) n j = canRx s n j := by
  simp [canRx, setCanRx, tget_tput_other _ _ _ h]
/-- A safety channel reads as it was set, and the other as before. -/
@[simp] theorem chan_setChan_self (s : State) (b : Bool) (x : Chan) : chan (setChan s b x) b = x := by cases b <;> rfl
@[simp] theorem chan_setChan_other (s : State) (b : Bool) (x : Chan) : chan (setChan s b x) (!b) = chan s (!b) := by cases b <;> rfl
/-- A block's float and the bits beside it, once changed (R324). -/
theorem blk_setFloat_self (s : State) (b new : Nat) (priv : Bool) :
    blk (setFloat s b new priv) b = { blk s b with flt := BitVec.ofNat 2 new, priv := priv && new % 4 != 0, prev := (blk s b).flt } := blk_setBlk_self _ _ _
theorem blk_setFloat_other (s : State) (b new : Nat) (priv : Bool) {c : Nat} (h : c ≠ b) : blk (setFloat s b new priv) c = blk s c := blk_setBlk_other _ _ _ h

/-! ## Slot operations (R81, R86, R87) -/

/-- In a running engine an operation on its registers opens the bundle, or joins it, and the bundle waits for its last slot. -/
theorem slotOp_regs {s : State} {e : Fin 64} {op : Engine → Eff} (h : (eng s e).ph = .running) {r d}
    (ho : op (openBundle (eng s e)) = .regs r d) (hd : hasDup ((openBundle (eng s e)).wrote ++ d) = false) :
    slotOp s e false op = setEng s e { openBundle (eng s e) with r := r, wrote := (openBundle (eng s e)).wrote ++ d } := by
  simp [slotOp, h, ho, Eff.regs, hd]

/-- A value out of the range of a signed 32-bit word. -/
theorem ovf32 (v : Int) : ovf 32 v = decide (v < -2 ^ 31 ∨ 2 ^ 31 ≤ v) := by simp [ovf]

/-- Saturation is a clamp and whether it acted. -/
theorem sat_eq_clamp {lo hi x : Int} (h : lo ≤ hi) : sat lo hi x = (max lo (min hi x), decide (x < lo ∨ hi < x)) := by
  unfold sat
  split
  · simp [*]; omega
  · split <;> simp [*] <;> omega

/-- Saturation to 24 bits. -/
theorem sat24_eq_clamp (x : Int) : sat24 x = (max (-2 ^ 23) (min (2 ^ 23 - 1) x), decide (x < -2 ^ 23 ∨ 2 ^ 23 ≤ x)) := by
  rw [sat24, sat_eq_clamp (by decide)]
  refine Prod.ext rfl (decide_eq_decide.mpr ?_)
  omega

end Sys2Proof.Machine
end

