-- ==== Sys2Proof/Machine/LeEncoding.lean ====
section
/-! DEFINITION. The encoding of loop-engine bundles (R81 to R88, R97): the commands that a bundle of IMEM stands for. -/

namespace Sys2Proof.Machine

/-- A field as a bounded number. -/
def fld (n : Nat) [NeZero n] (hi lo w : Nat) : Fin n := Fin.ofNat n (bits hi lo w)

/-- A slot that names no operation. -/
def badSlot (e : Fin 64) (w : Nat) (last : Bool) : Instr := .nop e (BitVec.ofNat 64 w) last

/-- An operation of a slot whose reserved bits hold 0, else a slot that names no operation. -/
def slotIf (e : Fin 64) (w : Nat) (ok : Bool) (f : Bool → Instr) (last : Bool) : Instr := if ok then f last else badSlot e w last

/-- The M slot (R86, R87). -/
def mSlot (e : Fin 64) (w : Nat) : Bool → Instr :=
  let mode : Fin 4 := fld 4 13 12 w
  let dx : Fin 32 := fld 32 11 7 w
  let dy : Fin 32 := fld 32 6 2 w
  let sum : Fin 4 := fld 4 1 0 w
  let n : Fin 4 := fld 4 11 10 w
  let ex : Fin 32 := fld 32 9 5 w
  let ey : Fin 32 := fld 32 4 0 w
  match bits 17 14 w with
  | 1 => .mac4 e mode dx dy sum
  | 2 => .msu4 e mode dx dy sum
  | 3 => .mpy4 e mode dx dy sum
  | 4 => .dot e mode n ex ey
  | 5 => .dotn e mode n ex ey
  | 6 => .dotz e mode n ex ey
  | 7 => slotIf e w (bits 5 0 w == 0) (.ftap e mode n (fld 4 9 8 w) (bitOf 7 w) (bitOf 6 w))
  | 8 => slotIf e w (bits 13 4 w == 0) (.clra e (BitVec.ofNat 4 w))
  | 9 => slotIf e w (bits 2 0 w == 0) (.adda e mode n (BitVec.ofNat 6 (bits 9 4 w)) (bitOf 3 w))
  | _ => badSlot e w

/-- The X and Y slots (R82). OP 0b00 with another bit set is no NOP, since a NOP is all zeros (R81), and is illegal (DESIGN CHOICE, log 19: R80 does not name it). -/
def xySlot (e : Fin 64) (y : Bool) (w : Nat) : Bool → Instr :=
  let p : Fin 4 := fld 4 9 8 w
  let dn : Fin 32 := fld 32 7 3 w
  let md : Fin 4 := fld 4 2 1 w
  match bits 11 10 w, bitOf 0 w with
  | 1, false => .ld e y p dn md
  | 2, false => .ld2 e y p dn md
  | 3, false => .st e y p dn md
  | 3, true => .st2 e y p dn md
  | _, _ => badSlot e w

/-- The UN sub-operations (R88). -/
def unSlot (e : Fin 64) (w : Nat) : Bool → Instr :=
  let d : Fin 32 := fld 32 14 10 w
  let a : Fin 32 := fld 32 9 5 w
  match bits 4 0 w with
  | 0 => .mov e d a
  | 1 => .neg e d a
  | 2 => .abs e d a
  | 3 => .sat24 e d a
  | 4 => .not e d a
  | 5 => .hdrm e d a
  | 6 => slotIf e w (a == 0) (.rflg e d)
  | 7 => slotIf e w (a == 0) (.getwct e d)
  | 8 => slotIf e w (d == 0 && a == 0) (.clrcc e)
  | 9 => .setpa e d a
  | 10 => .setpb e d a
  | 11 => .setpl e d a
  | 12 => .setpm e d a
  | 13 => .getpa e d a
  | 14 => .getlc e d a
  | _ => badSlot e w

/-- The GUN sub-operations (R88). -/
def gunSlot (e : Fin 64) (w : Nat) : Bool → Instr :=
  let d : Fin 32 := fld 32 14 10 w
  let a : Fin 32 := fld 32 9 5 w
  match bits 4 0 w with
  | 0 => .gmov e d a
  | 1 => .gneg e d a
  | 2 => .gcmp e d a
  | 3 => .gsxd e d a
  | 4 => .glo e d a
  | 5 => .ghi e d a
  | 6 => .gseth e d a
  | 7 => slotIf e w (a == 0) (.rstv e d)
  | _ => badSlot e w

/-- The XOP sub-operations (R97). -/
def xopSlot (e : Fin 64) (w : Nat) : Bool → Instr :=
  let d : Fin 8 := fld 8 11 9 w
  let a : Fin 8 := fld 8 8 6 w
  let b : Fin 8 := fld 8 5 3 w
  match bits 14 12 w with
  | 0 => slotIf e w (bits 2 0 w == 0) (.addx e d a b)
  | 1 => slotIf e w (bits 2 0 w == 0) (.subx e d a b)
  | 2 => slotIf e w (bits 2 0 w == 0) (.maxx e d a b)
  | 3 => slotIf e w (bits 2 0 w == 0) (.minx e d a b)
  | 4 => slotIf e w (bits 3 0 w == 0) (.movxd e d (fld 32 8 4 w))
  | 5 => slotIf e w (bits 3 0 w == 0) (.movdx e (fld 32 11 7 w) (fld 8 6 4 w))
  | _ => badSlot e w

/-- The C slot (R88). -/
def cSlot (e : Fin 64) (w : Nat) : Bool → Instr :=
  let d : Fin 32 := fld 32 14 10 w
  let a : Fin 32 := fld 32 9 5 w
  let b : Fin 32 := fld 32 4 0 w
  let gd : Fin 16 := fld 16 13 10 w
  let ga : Fin 16 := fld 16 9 6 w
  match bits 19 15 w with
  | 0x01 => .add e d a b
  | 0x02 => .sub e d a b
  | 0x03 => .adds e d a b
  | 0x04 => .subs e d a b
  | 0x05 => .and e d a b
  | 0x06 => .or e d a b
  | 0x07 => .xor e d a b
  | 0x08 => .min e d a b
  | 0x09 => .max e d a b
  | 0x0A => .sel e d a b
  | 0x0B => .shl e d a b
  | 0x0C => .asr e d a b
  | 0x0D => unSlot e w
  | 0x0E => slotIf e w (d == 0) (.cmp e a b)
  | 0x0F => .ldc e d a b
  | 0x10 => .stc e d a b
  | 0x11 => slotIf e w (!bitOf 14 w) (.ldcg e gd a b)
  | 0x12 => slotIf e w (!bitOf 14 w) (.stcg e gd a b)
  | 0x13 => slotIf e w (!bitOf 14 w && bits 1 0 w == 0) (.gadd e gd ga (fld 16 5 2 w))
  | 0x14 => slotIf e w (!bitOf 14 w && bits 1 0 w == 0) (.gsub e gd ga (fld 16 5 2 w))
  | 0x15 => gunSlot e w
  | 0x16 => .gsh e (bitOf 14 w) gd ga (fld 64 5 0 w)
  | 0x17 =>
    let dd : Fin 32 := fld 32 13 9 w
    let da : Fin 32 := fld 32 8 4 w
    slotIf e w (!bitOf 0 w) (if bitOf 14 w then .f2b e dd da (fld 8 3 1 w) else .b2f e dd da (fld 8 3 1 w))
  | 0x18 => slotIf e w (!bitOf 14 w && !bitOf 5 w) (.gmul e gd ga b)
  | 0x19 => slotIf e w (!bitOf 14 w && !bitOf 5 w) (.gdiv e gd ga b)
  | 0x1A => xopSlot e w
  | 0x1B => slotIf e w (bits 3 0 w == 0) (.norm e d (fld 8 9 7 w) (fld 8 6 4 w))
  | 0x1C => slotIf e w (bits 3 0 w == 0) (.aln e d (fld 8 9 7 w) (fld 8 6 4 w))
  | 0x1D => slotIf e w (bits 1 0 w == 0) (.rda e d (fld 4 9 8 w) (BitVec.ofNat 5 (bits 7 3 w)) (bitOf 2 w))
  | 0x1E => .cvtf e d ga (fld 8 5 3 w) (fld 8 2 0 w)
  | 0x1F => .cvti e (fld 16 14 11 w) (fld 32 10 6 w) (fld 8 5 3 w) (fld 8 2 0 w)
  | _ => badSlot e w

/-- A long-immediate bundle (R84). -/
def liBundle (e : Fin 64) (w : Nat) : Instr :=
  let r : Fin 32 := fld 32 58 54 w
  let imm := BitVec.ofNat 32 w
  if bits 53 32 w ≠ 0 then badSlot e w true
  else
    match bits 61 59 w with
    | 0 => .lid e r imm
    | 1 => .lig e r imm
    | 2 => .ligh e r imm
    | 3 => .lip e r imm
    | 4 => .lix e r imm
    | _ => badSlot e w true

/-- A branch or loop bundle (R85); `lib` is the library task that a DONE ends. -/
def brBundle (e : Fin 64) (w : Nat) (lib : LibTask) : Instr :=
  let t : Fin 2048 := fld 2048 10 0 w
  match bits 61 57 w with
  | 0 => if bits 51 11 w = 0 then .b e (fld 32 56 52 w) t else badSlot e w true
  | 1 => if bits 56 11 w = 0 then .call e t else badSlot e w true
  | 2 => if bits 56 0 w = 0 then .ret e else badSlot e w true
  | 3 => if bits 36 11 w = 0 then .loop e (fld 2 56 56 w) (bitOf 55 w) (bitOf 54 w) (fld 32 53 49 w) (BitVec.ofNat 12 (bits 48 37 w)) t
         else badSlot e w true
  | 4 => if bits 45 13 w = 0 then .evt e (bitOf 56 w) (fld 32 55 51 w) (fld 32 50 46 w) (BitVec.ofNat 13 w) else badSlot e w true
  | 5 => if bits 56 0 w = 0 then .done e lib else badSlot e w true
  | 6 => if bits 56 0 w = 0 then .yield e else badSlot e w true
  | _ => badSlot e w true

/-- Mark the last of a bundle's slots. -/
def markLast : List (Bool → Instr) → List Instr
  | [] => []
  | [f] => [f true]
  | f :: r => f false :: markLast r

/-- The commands that a bundle stands for (R81). -/
def bundleCmds (e : Fin 64) (w : Nat) (lib : LibTask) : List Instr :=
  match bits 63 62 w with
  | 0 =>
    let m := bits 61 44 w
    let x := bits 43 32 w
    let y := bits 31 20 w
    let c := bits 19 0 w
    let l := (if m = 0 then [] else [mSlot e m]) ++ (if x = 0 then [] else [xySlot e false x]) ++
      (if y = 0 then [] else [xySlot e true y]) ++ (if c = 0 then [] else [cSlot e c])
    if w = 0 then [.nop e 0 true] else markLast l
  | 1 => [liBundle e w]
  | 2 => [brBundle e w lib]
  | _ => [badSlot e w true]

/-- The bundle of IMEM that engine `e` issues next (R71). -/
def nextBundle (s : State) (e : Nat) : Nat := mnum s (leAddr e (8 * ((eng s e).r.pc % 2048))) 8

end Sys2Proof.Machine
end

