-- ==== Sys2Proof/WellFormed.lean ====
section
/-! DEFINITION. What a command's operands must be for its sender to be able to send it. -/

namespace Sys2Proof

/-- A frame reaches from the destination address to the end of the payload, which padding brings to the 64-byte minimum frame with its FCS (R179). -/
def RxFrame.ok (f : RxFrame) : Bool := decide (60 ≤ f.bytes.length)

/-- An access moves at least one byte (R32). -/
def MemAcc.ok : MemAcc → Bool
  | .read n => decide (0 < n)
  | .write b => decide (b ≠ [])

/-- A descriptor's length is a multiple of 4 from 4 bytes (R334). -/
def DmaDesc.ok (d : DmaDesc) : Bool := decide (bits 23 0 d.word3.toNat % 4 = 0) && decide (4 ≤ bits 23 0 d.word3.toNat)

/-- Data bytes that ISO 11898-1 gives a DLC, without and with FDF. -/
def canBytes (fdf : Bool) (dlc : Nat) : Nat := if dlc ≤ 8 then dlc else if fdf then [12, 16, 20, 24, 32, 48, 64].getD (dlc - 9) 64 else 8

/-- A received frame holds as many bytes as its DLC says, none for a remote frame, which CAN FD does not have (R353, R359). -/
def CanFrame.ok (f : CanFrame) : Bool :=
  let fdf := f.hdr.getLsbD 30
  let rtr := f.hdr.getLsbD 36
  !(fdf && rtr) && decide (f.data.length = if rtr then 0 else canBytes fdf (bits 35 32 f.hdr.toNat))

/-- A state copy names at most 16 regions of 4 KiB in all, and the 32 points of its channel (R253). -/
def ChanCopy.ok (c : ChanCopy) : Bool :=
  decide (c.regions.length ≤ 16) && decide ((c.regions.map (fun r => r.2.length)).sum ≤ 4096) && decide (c.pts.length = 32)

/-- A cistern block has 256 bytes (R323). -/
def MItem.ok : MItem → Bool
  | .write _ _ _ _ => true
  | .plan _ _ _ => true
  | .block _ _ _ _ b => decide (b.length = 256)

/-- The operands are ones that the command's sender can send. -/
def Instr.wf : Instr → Bool
  | .internalAccess _ _ acc => acc.ok
  | .nfReceive f => f.ok
  | .syReceive f => f.ok
  | .csReceive f => f.ok
  | .prReceive f => f.ok
  | .asReceive f _ => f.ok
  | .asyncFrameReceive f _ => f.ok
  | .spReceive f => f.ok
  | .peerFrameReceive _ _ c => (match c with | .copy c => c.ok | .item i => i.ok | _ => true)
  | .forwardedFrameReceive f => f.ok
  | .mirrorRecordReceive r => (match r with | .active _ _ n d i => decide n.Nodup && decide ((d.map (fun e => e.1)).Pairwise (fun a b => a.toNat < b.toNat)) && i.all (fun i => i.ok) | .standby _ _ _ _ u _ _ => decide u.Nodup)
  | .bulkCopyComplete x _ => decide x.owned.Nodup
  | .encoderTransition _ old new _ => decide (old ≠ new)
  | .dmaStop _ _ _ d data _ => d.ok && decide (data.length % 4 = 0) && decide (data.length ≤ bits 23 0 d.word3.toNat)
  | .dmaDescriptorComplete _ d data e => d.ok && decide (data.length % 4 = 0) && decide (data.length ≤ bits 23 0 d.word3.toNat) && (e || d.word3.getLsbD 24 || decide (data.length = bits 23 0 d.word3.toNat))
  | .canReceive _ f => f.ok
  | .plantFrameReceive _ f => decide (60 ≤ f.bytes.length)
  | .registerWrite .. | .counterClear .. | .counterLowRead .. | .nowNsRead .. | .acqBufferWrite .. | .stalledAccessResume .. | .bridgeFrameSend ..
  | .bridgeFrameReceive .. | .bridgeFault .. | .bridgeRefresh .. | .bridgeRefreshWithdraw .. | .refreshTimeout .. | .bridgePageAccess ..
  | .cycleBoundary .. | .acceptanceWindowEnd .. | .rankClashBackoffEnd .. | .primeHalt .. | .listenEnd .. | .rxLenCut .. | .txCut ..
  | .guardClosed .. | .drift .. | .lineBreak .. | .relayEnd .. | .spLaunch .. | .lastLaunchComplete .. | .snapshotPart .. | .delayListRelease ..
  | .stallRelease .. | .clockGateClose .. | .contextSaveDone .. | .contextRestoreDone .. | .engineSelect .. | .prefetchLoad .. | .dmaInComplete ..
  | .dmaOutCommit .. | .shedMapWrite .. | .withdrawWrite .. | .commitRequest .. | .ginstall .. | .ginstallComplete .. | .loadimem ..
  | .loadimemComplete .. | .nop .. | .ld .. | .ld2 .. | .st .. | .st2 .. | .lid .. | .lig .. | .ligh .. | .lip .. | .lix .. | .b .. | .call ..
  | .ret .. | .loop .. | .evt .. | .done .. | .yield .. | .mac4 .. | .msu4 .. | .mpy4 .. | .dot .. | .dotn .. | .dotz .. | .ftap .. | .clra ..
  | .adda .. | .add .. | .sub .. | .adds .. | .subs .. | .and .. | .or .. | .xor .. | .min .. | .max .. | .sel .. | .shl .. | .asr .. | .mov ..
  | .neg .. | .abs .. | .sat24 .. | .not .. | .hdrm .. | .rflg .. | .getwct .. | .clrcc .. | .setpa .. | .setpb .. | .setpl .. | .setpm ..
  | .getpa .. | .getlc .. | .cmp .. | .ldc .. | .stc .. | .ldcg .. | .stcg .. | .gadd .. | .gsub .. | .gmov .. | .gneg .. | .gcmp .. | .gsxd ..
  | .glo .. | .ghi .. | .gseth .. | .rstv .. | .gsh .. | .b2f .. | .f2b .. | .gmul .. | .gdiv .. | .addx .. | .subx .. | .maxx .. | .minx ..
  | .movxd .. | .movdx .. | .norm .. | .aln .. | .rda .. | .cvtf .. | .cvti .. | .lockup .. | .clrFault .. | .axisAreaWrite .. | .axisWindowWrite ..
  | .axisLoad .. | .mark .. | .notch .. | .motionWindowWrite .. | .camTableWrite .. | .moveAbs .. | .moveRel .. | .speed .. | .gear .. | .cam ..
  | .free .. | .super .. | .groupGo .. | .reregShift .. | .reregMove .. | .motionLoad .. | .stop .. | .halt .. | .stopClr .. | .install ..
  | .installComplete .. | .clear .. | .swapReq .. | .reopen .. | .restart .. | .clashClr .. | .asyncWindowStart .. | .txRecordComplete ..
  | .averagingInstant .. | .rtcRealign .. | .set .. | .stepAccept .. | .stepCancel .. | .upstreamSyncEvent .. | .holdover .. | .holdoverEnd ..
  | .dlineMeasure .. | .announceReceive .. | .gmResume .. | .ptpSyncSend .. | .timedLaunch .. | .ttArm .. | .ttRearmEffect .. | .ttOutputEdge ..
  | .captureEdge .. | .capturePop .. | .laneDown .. | .relinquishReceive .. | .faultedReceive .. | .inputImageSend .. | .inputImageReceive ..
  | .inputEdgeInstant .. | .stateCopySend .. | .csLossTakeover .. | .pairJoin .. | .swap .. | .swapCancel .. | .join .. | .safetyEvaluation ..
  | .safetyInputChange .. | .discTimeout .. | .aliveTimeout .. | .xcompTimeout .. | .inputTestPulse .. | .outputTestPulse .. | .edmTimeout ..
  | .soOvl .. | .vfsafOutOfRange .. | .ss1Expiry .. | .ss1BExpiry .. | .resetPulse .. | .tpOverdue .. | .psetInstall .. | .enterTest ..
  | .leaveTest .. | .zEdge .. | .encoderSample .. | .serialWordComplete .. | .serialTimeout .. | .encFault .. | .encLoad .. | .zarm .. | .encClr ..
  | .ovl .. | .otemp .. | .openWire .. | .shortLp .. | .groupOverload .. | .undervoltage .. | .undervoltageEnd .. | .diagClear .. | .watchdogTrip ..
  | .rearm .. | .cas .. | .casExecute .. | .cisternAccess .. | .snapGo .. | .dmaGo .. | .acqArm .. | .acqStop .. | .force .. | .exportRec ..
  | .exportComplete .. | .release .. | .holdoffExpiry .. | .canSync .. | .canTxReq .. | .canCancel .. | .canClr .. | .canTxStart .. | .canTxEnd ..
  | .canIdClash .. | .canBusoff .. | .recover .. | .canRecoveryComplete .. | .bsel .. | .rxrel .. | .pwrReq .. | .powerTransitionComplete ..
  | .clusterOffExecute .. | .standby .. | .standbyEntryComplete .. | .pwrEnRaise .. | .aoWakeEvent .. | .vauxLoss .. | .aoBrownOut ..
  | .pllLockLoss .. | .surgeReq .. | .surgeVoltageReached .. | .surgeSample .. | .surgeHour .. | .voltageStep .. | .readIout .. | .pmbAlert ..
  | .replan .. | .replanComplete .. | .aoPowerOn .. | .resetRelease .. | .supplyFail .. | .warmReset .. | .bootStepDone .. | .bootStepFail ..
  | .hostimg .. | .clearJournal .. | .reboot .. | .stage .. | .select .. | .commitVer .. | .debugUnlock .. | .testEngine .. | .testCistbank ..
  | .testScrub .. | .testEyescan .. | .testSdscal .. | .testPortloop .. | .testCan .. | .testEncoder .. | .testOffline .. | .testStart ..
  | .testComplete .. | .testTimeout .. | .srst .. | .lock .. | .evtSet .. | .ack .. | .entry0Read .. | .portLinkDown .. | .timeUnitFault ..
  | .csLoss .. | .vauxValid .. | .vfsafReturn .. | .switchCooled .. | .encoderTrackingSample .. | .canBusError .. | .emulationEdge .. | .eccScrub .. => true

end Sys2Proof
end

