-- ==== Sys2Proof/Tests/Slice0.lean ====
section
/-! SUPPORT. Tests: ill-formed operands refused, single commands against the spec's words, and for each statement with hypotheses a state and operands that meet them, clause by clause. -/

open Sys2Proof Sys2Proof.Machine
namespace Sys2Proof.Tests

set_option maxRecDepth 20000
set_option Elab.async false

/-! ## Helpers -/

/-- Every domain ON, everything else as after reset. -/
def live : State := (List.range 16).foldl (fun s d => setDom s d { st := .on }) State.reset
/-- Whole register words set by address. -/
def regs (s : State) (l : List (Nat × Nat)) : State := l.foldl (fun s e => wrw s e.1 e.2) s
/-- Register fields set. -/
def sets (s : State) (l : List (Fld × Nat)) : State := l.foldl (fun s e => wr s e.1 e.2) s
/-- The registers of a state, for its control copies. -/
def ctlRegs (s : State) : Tbl W32 := s.regs
/-- The receive engine of a port is stalled. -/
def stallRx (s : State) (p : Nat) : State := setPoster s (pReceive p) [{}]
/-- A parameter set whose four input pairs name function `fn` and all groups. -/
def psetT (fn : Nat) : List Byte := List.replicate 16 0 ++ (List.range 4).flatMap (fun _ => leBytes 4 (fn + 15 * 2 ^ 18)) ++ List.replicate 60 0
/-- The standby budget of this state is over its limit. -/
def budgetBad : State := sets live [(Reg.AO_CMP5_PULLUP, 1)]

/-! ## A bank image of eight bytes -/

/-- Every listed cell lies below the address. -/
def below (s : State) (a : Nat) : Prop := ∀ c ∈ s.mem, c.1 < a
theorem tget_below {α : Type} (d : Nat → α) (l : Tbl α) (a : Nat) (h : ∀ c ∈ l, c.1 < a) : tget d l a = d a := by
  induction l with
  | nil => rfl
  | cons c l ih =>
    obtain ⟨j, v⟩ := c
    have hj : j ≠ a := Nat.ne_of_lt (h _ (List.mem_cons_self ..))
    rw [tget, if_neg hj]
    exact ih fun c hc => h c (List.mem_cons_of_mem _ hc)
theorem tdel_below {α : Type} (l : Tbl α) (a : Nat) (h : ∀ c ∈ l, c.1 < a) : tdel a l = l := by
  induction l with
  | nil => rfl
  | cons c l ih =>
    obtain ⟨j, v⟩ := c
    have hj : j ≠ a := Nat.ne_of_lt (h _ (List.mem_cons_self ..))
    rw [tdel, if_neg hj, ih fun c hc => h c (List.mem_cons_of_mem _ hc)]
theorem mput_below (s : State) (a : Nat) (h : below s a) (h0 : memDef a = 0) : mput s a 0 = s := by
  have e : tput memDef s.mem a 0 = s.mem := by rw [tput, if_pos h0.symm, tdel_below _ _ h]
  rw [mput, e]
theorem mwrite_zeros (n : Nat) : ∀ (s : State) (a : Nat), below s a → (∀ c, a ≤ c → c < a + n → memDef c = 0) → mwrite s a (List.replicate n 0) = s := by
  induction n with
  | zero => intros; rfl
  | succ n ih =>
    intro s a h h0
    rw [List.replicate_succ, mwrite, mput_below s a h (h0 a (Nat.le_refl _) (by omega))]
    exact ih s (a + 1) (fun c hc => Nat.lt_succ_of_lt (h c hc)) fun c h1 h2 => h0 c (by omega) (by omega)
theorem mwrite_append (x y : List Byte) : ∀ (s : State) (a : Nat), mwrite s a (x ++ y) = mwrite (mwrite s a x) (a + x.length) y := by
  induction x with
  | nil => intros; rfl
  | cons b x ih => intro s a; rw [List.cons_append, mwrite, ih, mwrite]; congr 1; simp; omega
theorem mread_zeros (s : State) (a k n : Nat) (h : below s (a + k)) (h0 : ∀ c, a + k ≤ c → c < a + k + n → memDef c = 0) :
    mread s a (k + n) = mread s a k ++ List.replicate n 0 := by
  apply List.ext_getElem
  · simp [mread]
  · intro i h1 h2
    simp only [mread, List.length_map, List.length_range] at h1
    by_cases hi : i < k
    · rw [List.getElem_append_left (by simpa [mread] using hi)]; simp [mread]
    · rw [List.getElem_append_right (by simp [mread]; omega)]
      simp only [mread, List.getElem_map, List.getElem_range, List.getElem_replicate, mget]
      rw [tget_below _ _ _ fun c hc => Nat.lt_of_lt_of_le (h c hc) (by omega)]
      exact h0 _ (by omega) (by omega)
theorem mem_tdel {α : Type} {k : Nat} {t : Tbl α} {c : Nat × α} (h : c ∈ tdel k t) : c ∈ t := by
  induction t with
  | nil => exact h
  | cons e t ih =>
    obtain ⟨j, w⟩ := e
    rw [tdel] at h
    split at h
    · exact List.mem_cons_of_mem _ (ih h)
    · rcases List.mem_cons.1 h with h | h
      · exact h ▸ List.mem_cons_self ..
      · exact List.mem_cons_of_mem _ (ih h)
theorem mem_tins {α : Type} {k : Nat} {v : α} {t : Tbl α} {c : Nat × α} (h : c ∈ tins k v t) : c ∈ t ∨ c.1 = k := by
  induction t with
  | nil => exact .inr (by rw [List.mem_singleton.1 h])
  | cons e t ih =>
    obtain ⟨j, w⟩ := e
    rw [tins] at h
    split at h
    · rcases List.mem_cons.1 h with h | h
      · exact .inr (by rw [h])
      · exact .inl h
    · rcases List.mem_cons.1 h with h | h
      · exact .inl (h ▸ List.mem_cons_self ..)
      · exact (ih h).imp (List.mem_cons_of_mem _) id
theorem below_mput {s : State} {a : Nat} (b : Byte) (h : below s a) : below (mput s a b) (a + 1) := by
  have g : ∀ c ∈ tput memDef s.mem a b, c ∈ s.mem ∨ c.1 = a := fun c hc => by
    rw [tput] at hc
    split at hc
    · exact .inl (mem_tdel hc)
    · exact (mem_tins hc).imp mem_tdel id
  exact fun c hc => (g c hc).elim (fun q => Nat.lt_succ_of_lt (h c q)) fun q => q ▸ Nat.lt_succ_self _
theorem below_mwrite (l : List Byte) : ∀ {s : State} {a : Nat}, below s a → below (mwrite s a l) (a + l.length) := by
  induction l with
  | nil => intro s a h; exact h
  | cons b l ih =>
    intro s a h
    have q := ih (below_mput b h)
    rwa [List.length_cons, show a + (l.length + 1) = a + 1 + l.length by omega]
/-- An image whose bytes after the first eight are zero leaves a bank that holds those eight bytes. -/
theorem copyBank_small (s : State) (n b : Nat) (h : below s (cistAddr (256 * n) + 8)) (hb : b < 2) (hn : n < 32768) :
    copyBank s n b = mwrite s (ptAddr (pt 31 (32 + 16 * b) 0 0)) (mread s (cistAddr (256 * n)) 8) := by
  have z : ∀ c, c < 0x30800000 → memDef c = 0 := fun c hc => if_neg fun q => by omega
  have ec : cistAddr (256 * n) ≤ 0x20000000 + 256 * n := by unfold cistAddr; omega
  have ep : ptAddr (pt 31 (32 + 16 * b) 0 0) = 0x30000000 + 8 * (31 * 2 ^ 15 + (32 + 16 * b) * 512) := by
    obtain rfl | rfl : b = 0 ∨ b = 1 := by omega
    all_goals decide
  rw [copyBank, cistBytes, show (65536 : Nat) = 8 + 65528 from rfl, mread_zeros s _ 8 _ h fun c h1 h2 => z c (by omega), mwrite_append]
  refine mwrite_zeros _ _ _ ?_ fun c h1 h2 => z c (by simp only [mread, List.length_map, List.length_range] at h1 h2; omega)
  exact below_mwrite _ fun c hc => Nat.lt_of_lt_of_le (h c hc) (by omega)

/-! ## Ill-formed operands are refused (WellFormed) -/

/-- A frame shorter than 60 bytes. -/
theorem test_wf_shortFrame : (Instr.csReceive { port := 0, start := 0, bytes := List.replicate 59 0, fcs := true }).wf = false := by decide +kernel
/-- An access of no byte. -/
theorem test_wf_emptyRead : MemAcc.ok (.read 0) = false := by decide +kernel
theorem test_wf_emptyWrite : MemAcc.ok (.write []) = false := by decide +kernel
/-- A descriptor of 6 bytes, and one of none. -/
theorem test_wf_dmaLength : DmaDesc.ok { hostAddr := 0, intAddr := 0, word3 := 6, next := 0 } = false ∧
    DmaDesc.ok { hostAddr := 0, intAddr := 0, word3 := 0, next := 0 } = false := by decide +kernel
/-- A DMA that stops on three bytes, and one that ends without all its bytes. -/
theorem test_wf_dmaData : (Instr.dmaDescriptorComplete 0 { hostAddr := 0, intAddr := 0, word3 := 8, next := 0 } [1, 2, 3] true).wf = false ∧
    (Instr.dmaDescriptorComplete 0 { hostAddr := 0, intAddr := 0, word3 := 8, next := 0 } [1, 2, 3, 4] false).wf = false := by decide +kernel
/-- A CAN FD remote frame, and a frame with fewer bytes than its DLC says. -/
theorem test_wf_canFrame : CanFrame.ok { hdr := 0x1040000000, data := [], ts := 0, frac := 0 } = false ∧
    CanFrame.ok { hdr := 0x200000000, data := [1], ts := 0, frac := 0 } = false := by decide +kernel
/-- A state copy without its 32 points. -/
theorem test_wf_chanCopy : ChanCopy.ok { ch := 0, regions := [], pts := [], mot := {}, axis := {} } = false := by decide +kernel
/-- A block item of 255 bytes. -/
theorem test_wf_blockItem : MItem.ok (.block 0 1 false 0 (List.replicate 255 0)) = false := by decide +kernel
/-- A mirror record that names an entry twice, and one whose digests do not rise. -/
theorem test_wf_mirrorRecord : (Instr.mirrorRecordReceive (.active 0 [] [3, 3] [] [])).wf = false ∧
    (Instr.mirrorRecordReceive (.active 0 [] [] [(2, 0, 0), (1, 0, 0)] [])).wf = false := by decide +kernel
/-- A transition from a state to itself. -/
theorem test_wf_encoderTransition : (Instr.encoderTransition 0 3 3 0).wf = false := by decide +kernel
/-- A plant frame shorter than 60 bytes. -/
theorem test_wf_plantFrame : (Instr.plantFrameReceive 0 { stamp := 0, frac := 0, bytes := [], fcs := true }).wf = false := by decide +kernel

/-! ## Single commands -/

/-- The state after a command, the state itself where it stops. -/
def after (i : Instr) (s : State) : State := match exec i s with | .next t => t | _ => s

/-- R90: what exceeds 24 bits saturates, above and below. -/
theorem test_sat24 : (sat24 8388608).1 = 8388607 ∧ (sat24 (-8388609)).1 = -8388608 ∧ (sat24 5).2 = false := by decide +kernel
/-- R328: a record of a 240-byte frame fills one block, of a 241-byte frame two. -/
theorem test_recBlocks : recBlocks 240 = 1 ∧ recBlocks 241 = 2 := by decide +kernel
/-- R206: an epoch is higher by 1 to 2^31 − 1, modulo 2^32. -/
theorem test_epochHigher : epochHigher 0 4294967295 = true ∧ epochHigher 0 2147483648 = false ∧ epochHigher 5 5 = false := by decide +kernel
/-- R367: a request for a domain that is in that state already ends at once with RESULT 0 of the domain and queues nothing. -/
theorem test_pwrReq_same : (dom (after (.pwrReq .host 0x209) live) 9).st = .on := by decide +kernel
/-- R324: a CAS of the host whose OLD is the block's float (host) passes it to the engines; one whose OLD is not changes nothing. -/
theorem test_cas :
    flt (after (.casExecute 1) (after (.cas .host 0x90000005) { live with cist := [(5, { flt := 1 })] })) 5 = 2 ∧
    flt (after (.casExecute 1) (after (.cas .host 0xA0000005) { live with cist := [(5, { flt := 1 })] })) 5 = 1 := by decide +kernel

/-- R13: a write to a register that is wholly read-only changes nothing in it. -/
theorem test_readOnly : rdw (after (.registerWrite .host 0x7D050 4 (.write 0xFFFFFFFF)) live) 0x7D050 = rdw live 0x7D050 := by decide +kernel

/-! ## Each statement's hypotheses are met -/

theorem witness_IdleStepIsOneClock :
    (∃ (s : State), s.pending = [] ∧ domOn s dNET = true) ∧
    (∃ (s : State), s.pending = [] ∧ domOn s dNET = false) :=
  ⟨⟨live, by decide +kernel, by decide +kernel⟩,
   ⟨(setDom live 9 { }), by decide +kernel, by decide +kernel⟩⟩

theorem witness_ResetState :
    (∃ (d : Nat), d ≠ dAO) ∧
    (∃ (p : Nat) (b : Blk) (f : Nat), blkOf p = some (b, f)) :=
  ⟨⟨1, by decide +kernel⟩,
   ⟨61, (Sys2Proof.Machine.Blk.LE), 32, by decide +kernel⟩⟩

theorem witness_NarrowOrUnalignedAccessIsNotPerformed :
    (∃ (m : Master) (a : BitVec 24) (n : Nat) (acc : WordAcc) (s : State), CanReach m s a.toNat ∧ (¬(n = 4 ∧ a.toNat % 4 = 0)) ∧ acc = WordAcc.read) ∧
    (∃ (m : Master) (a : BitVec 24) (n : Nat) (s : State), CanReach m s a.toNat ∧ (¬(n = 4 ∧ a.toNat % 4 = 0)) ∧ on s (Reg.HDR_ERRLOG_VALID (a.toNat / 4096)) = false) ∧
    (∃ (m : Master) (a : BitVec 24) (n : Nat) (s : State), CanReach m s a.toNat ∧ (¬(n = 4 ∧ a.toNat % 4 = 0)) ∧ on s (Reg.HDR_ERRLOG_VALID (a.toNat / 4096)) = true) :=
  ⟨⟨.host, 16, 65535, .read, live, by unfold CanReach; decide +kernel, by decide +kernel, by decide +kernel⟩,
   ⟨.transmit, 0, 3, live, by unfold CanReach; decide +kernel, by decide +kernel, by decide +kernel⟩,
   ⟨(.cluDma 0), 2, 1, (regs live [(0x28, 2147483648)]), by unfold CanReach; decide +kernel, by decide +kernel, by decide +kernel⟩⟩

theorem witness_UnmappedPage :
    (∃ (a : BitVec 24) (acc : WordAcc), blkOf (a.toNat / 4096) = none ∧ acc = WordAcc.read) ∧
    (∃ (m : Master) (a : BitVec 24), blkOf (a.toNat / 4096) = none ∧ isHostSide m = true) ∧
    (∃ (m : Master) (a : BitVec 24), blkOf (a.toNat / 4096) = none ∧ isHostSide m = false) :=
  ⟨⟨7390262, .read, by decide +kernel, by decide +kernel⟩,
   ⟨.host, 2097152, by decide +kernel, by decide +kernel⟩,
   ⟨(.cluDma 3), 16777215, by decide +kernel, by decide +kernel⟩⟩

theorem witness_LockSequence :
    (∃ (m : Master) (p : BitVec 12) (w : W32) (s : State), CanReach m s (p.toNat * 4096 + 32) ∧ BitVec.toNat w = 49637 ∧ (List.find? (fun e => e.1 == p.toNat) s.lockSeq = none ∨ ∃ c, List.find? (fun e => e.1 == p.toNat) s.lockSeq = some (p.toNat, mcode m, c))) ∧
    (∃ (m : Master) (p : BitVec 12) (w : W32) (s : State), CanReach m s (p.toNat * 4096 + 32) ∧ BitVec.toNat w = 0 ∧ (List.find? (fun e => e.1 == p.toNat) s.lockSeq = none ∨ ∃ c, List.find? (fun e => e.1 == p.toNat) s.lockSeq = some (p.toNat, mcode m, c))) ∧
    (∃ (m : Master) (p : BitVec 12) (w : W32) (clk : Nat) (s : State) (c : Nat), CanReach m s (p.toNat * 4096 + 32) ∧ BitVec.toNat w = 24257 ∧ (List.find? (fun e => e.1 == p.toNat) s.lockSeq = some (p.toNat, mcode m, c)) ∧ clk ≤ c + 64) ∧
    (∃ (m : Master) (p : BitVec 12) (w : W32) (clk : Nat) (s : State), CanReach m s (p.toNat * 4096 + 32) ∧ (¬(List.find? (fun e => e.1 == p.toNat) s.lockSeq = none ∨ ∃ c, List.find? (fun e => e.1 == p.toNat) s.lockSeq = some (p.toNat, mcode m, c)) ∨ BitVec.toNat w ≠ 49637 ∧ BitVec.toNat w ≠ 0 ∧ (BitVec.toNat w = 24257 → ∀ (c : Nat), List.find? (fun e => e.1 == p.toNat) s.lockSeq = some (p.toNat, mcode m, c) → c + 64 < clk)) ∧ on s (Reg.HDR_ERRLOG_VALID p.toNat) = false) :=
  ⟨⟨.host, 0, 49637, live, by unfold CanReach; decide +kernel, by decide +kernel, by (left; decide +kernel)⟩,
   ⟨.host, 0, 0, live, by unfold CanReach; decide +kernel, by decide +kernel, by (left; decide +kernel)⟩,
   ⟨.steward0, 0, 24257, 64, { live with lockSeq := [(0, (1, 0))] }, 0, by unfold CanReach; decide +kernel, by decide +kernel, by decide +kernel, by decide +kernel⟩,
   ⟨.dmaEngine, 20, 4294967295, 99, live, by unfold CanReach; decide +kernel, .inr ⟨by decide +kernel, by decide +kernel, fun h => absurd h (by decide +kernel)⟩, by decide +kernel⟩⟩

theorem witness_EventSet :
    (∃ (m : Master) (p : BitVec 12) (s : State), CanReach m s (p.toNat * 4096 + 28)) :=
  ⟨.acq, 177, live, by unfold CanReach; decide +kernel⟩

theorem witness_CounterClear :
    (∃ (m : Master) (a : BitVec 24) (s : State) (r : RegRow), CanReach m s a.toNat ∧ a.toNat % 4 = 0 ∧ 64 ≤ a.toNat % 4096 ∧ r.acc = Acc.cnt ∧ r.lo = 0 ∧ (r.hi = 31 ∧ rowsAt a.toNat = [r] ∨ ∃ q, r.hi = 15 ∧ rowsAt a.toNat = [q, r] ∧ q.acc = Acc.rsv ∧ q.hi = 31 ∧ q.lo = 16)) :=
  ⟨.steward0, 16484, live, { ofs := 100, cnt := 1, stride := 4, hi := 31, lo := 0, acc := Sys2Proof.Machine.Acc.cnt, rst := 0, bad := [] }, by unfold CanReach; decide +kernel, by decide +kernel, by decide +kernel, by decide +kernel, by decide +kernel, by (left; decide +kernel)⟩

theorem witness_LowWordReadsLatchTheRest :
    (∃ (m : Master) (s : State) (n : Master) (k : Nat), CanReach m s Reg.CYC_CYCLE_LO_COUNT.addr ∧ k < 2 ^ 24 ∧ (n ≠ m ∨ k ≠ Reg.CYC_CYCLE_HI_COUNT.addr)) ∧
    (∃ (m : Master) (s : State), CanReach m s Reg.CYC_CYCLE_HI_COUNT.addr) ∧
    (∃ (m : Master) (n : Fin 8) (s : State), CanReach m s (589952 + n.val * 4096)) ∧
    (∃ (m : Master) (s : State), CanReach m s Reg.TIME_NOW_NS.addr) :=
  ⟨⟨.host, live, .steward0, 32768, by unfold CanReach; decide +kernel, by decide +kernel, by decide +kernel⟩,
   ⟨.host, live, by unfold CanReach; decide +kernel⟩,
   ⟨.steward1, 3, live, by unfold CanReach; decide +kernel⟩,
   ⟨.receive, live, by unfold CanReach; decide +kernel⟩⟩

theorem witness_RegisterTakesItsFields :
    (∃ (m : Master) (a : BitVec 24) (w : W32) (s : State) (b : Blk) (f : Nat), CanReach m s a.toNat ∧ a.toNat % 4 = 0 ∧ 64 ≤ a.toNat % 4096 ∧ blkOf (a.toNat / 4096) = some (b, f) ∧ b ∈ [Blk.SYS, Blk.PWR, Blk.SUMP, Blk.AGE, Blk.SEC, Blk.LEMAC, Blk.GUARD, Blk.POINTS, Blk.EMU, Blk.CIST] ∧ acts m a.toNat w = [] ∧ (∀ r ∈ rowsAt a.toNat, r.acc ≠ Acc.cnt)) ∧
    (∃ (m : Master) (a : BitVec 24) (s : State) (b : Blk) (f : Nat), CanReach m s a.toNat ∧ a.toNat % 4 = 0 ∧ 64 ≤ a.toNat % 4096 ∧ blkOf (a.toNat / 4096) = some (b, f) ∧ b ∈ [Blk.SYS, Blk.SUMP, Blk.BOOT, Blk.LEMAC, Blk.POINTS] ∧ a.toNat ≠ (Reg.SUMP_ENTRY_WORD 0).addr ∧ rowsAt a.toNat ≠ []) :=
  ⟨⟨.transmit, 622764, 2, live, (Sys2Proof.Machine.Blk.EMU), 152, by unfold CanReach; decide +kernel, by decide +kernel, by decide +kernel, by decide +kernel, by decide +kernel, by decide +kernel, by decide +kernel⟩,
   ⟨.steward0, 852048, live, (Sys2Proof.Machine.Blk.BOOT), 208, by unfold CanReach; decide +kernel, by decide +kernel, by decide +kernel, by decide +kernel, by decide +kernel, by decide +kernel, by decide +kernel⟩⟩

theorem witness_SoftReset :
    (∃ (m : Master) (p : BitVec 12) (w : W32) (s : State) (b : Blk) (f : Nat), CanReach m s (p.toNat * 4096 + 8) ∧ blkOf p.toNat = some (b, f) ∧ bitOf 1 (BitVec.toNat w) = true ∧ (b ∈ [Blk.PWR, Blk.SEC, Blk.AO] ∨ b = Blk.SAFE ∧ m ≠ Master.safetyProc ∨ b ∈ [Blk.CLU, Blk.CYC, Blk.LE, Blk.PORT, Blk.LEMAC, Blk.GUARD, Blk.TIME, Blk.PEER, Blk.AXIS, Blk.MOTION, Blk.POINTS] ∧ (s.lemac.launching = true ∨ rd s Reg.LEMAC_PSTATE_STATE = 3))) ∧
    (∃ (m : Master) (p : BitVec 12) (w : W32) (s : State) (b : Blk) (f : Nat), CanReach m s (p.toNat * 4096 + 8) ∧ blkOf p.toNat = some (b, f) ∧ bitOf 1 (BitVec.toNat w) = true ∧ b = Blk.SYS) ∧
    (∃ (m : Master) (p : BitVec 12) (w : W32) (s : State) (b : Blk) (f : Nat), CanReach m s (p.toNat * 4096 + 8) ∧ blkOf p.toNat = some (b, f) ∧ bitOf 1 (BitVec.toNat w) = true ∧ (¬(b ∈ [Blk.PWR, Blk.SEC, Blk.AO] ∨ b = Blk.SAFE ∧ m ≠ Master.safetyProc ∨ b ∈ [Blk.CLU, Blk.CYC, Blk.LE, Blk.PORT, Blk.LEMAC, Blk.GUARD, Blk.TIME, Blk.PEER, Blk.AXIS, Blk.MOTION, Blk.POINTS] ∧ (s.lemac.launching = true ∨ rd s Reg.LEMAC_PSTATE_STATE = 3))) ∧ b = Blk.SAFE) ∧
    (∃ (m : Master) (p : BitVec 12) (w : W32) (s : State) (b : Blk) (f : Nat), CanReach m s (p.toNat * 4096 + 8) ∧ blkOf p.toNat = some (b, f) ∧ bitOf 1 (BitVec.toNat w) = true ∧ (¬(b ∈ [Blk.PWR, Blk.SEC, Blk.AO] ∨ b = Blk.SAFE ∧ m ≠ Master.safetyProc ∨ b ∈ [Blk.CLU, Blk.CYC, Blk.LE, Blk.PORT, Blk.LEMAC, Blk.GUARD, Blk.TIME, Blk.PEER, Blk.AXIS, Blk.MOTION, Blk.POINTS] ∧ (s.lemac.launching = true ∨ rd s Reg.LEMAC_PSTATE_STATE = 3))) ∧ b ≠ Blk.SYS ∧ b ≠ Blk.SAFE ∧ b ≠ Blk.TEST) ∧
    (∃ (m : Master) (p : BitVec 12) (w : W32) (s : State) (b : Blk) (f : Nat) (k : Nat), CanReach m s (p.toNat * 4096 + 8) ∧ blkOf p.toNat = some (b, f) ∧ bitOf 1 (BitVec.toNat w) = true ∧ (¬(b ∈ [Blk.PWR, Blk.SEC, Blk.AO] ∨ b = Blk.SAFE ∧ m ≠ Master.safetyProc ∨ b ∈ [Blk.CLU, Blk.CYC, Blk.LE, Blk.PORT, Blk.LEMAC, Blk.GUARD, Blk.TIME, Blk.PEER, Blk.AXIS, Blk.MOTION, Blk.POINTS] ∧ (s.lemac.launching = true ∨ rd s Reg.LEMAC_PSTATE_STATE = 3))) ∧ b ≠ Blk.SYS ∧ b ≠ Blk.SAFE ∧ b ≠ Blk.FIO ∧ k / 4096 = p.toNat ∧ k ≠ Reg.SUMP_TAIL_WPTR_INDEX.addr) ∧
    (∃ (m : Master) (p : BitVec 12) (w : W32) (s : State) (b : Blk) (f : Nat) (k : Nat), CanReach m s (p.toNat * 4096 + 8) ∧ blkOf p.toNat = some (b, f) ∧ bitOf 1 (BitVec.toNat w) = true ∧ (¬(b ∈ [Blk.PWR, Blk.SEC, Blk.AO] ∨ b = Blk.SAFE ∧ m ≠ Master.safetyProc ∨ b ∈ [Blk.CLU, Blk.CYC, Blk.LE, Blk.PORT, Blk.LEMAC, Blk.GUARD, Blk.TIME, Blk.PEER, Blk.AXIS, Blk.MOTION, Blk.POINTS] ∧ (s.lemac.launching = true ∨ rd s Reg.LEMAC_PSTATE_STATE = 3))) ∧ b ≠ Blk.SYS ∧ b ≠ Blk.SAFE ∧ b ≠ Blk.FIO ∧ b ≠ Blk.TEST ∧ k / 4096 ≠ p.toNat ∧ k ≠ 728064) :=
  ⟨⟨.receive, 128, 3, { live with lemac := { launching := true } }, (Sys2Proof.Machine.Blk.AXIS), 128, by unfold CanReach; decide +kernel, by decide +kernel, by decide +kernel, by decide +kernel⟩,
   ⟨.acq, 0, 3, live, (Sys2Proof.Machine.Blk.SYS), 0, by unfold CanReach; decide +kernel, by decide +kernel, by decide +kernel, by decide +kernel⟩,
   ⟨.safetyProc, 161, 2, live, (Sys2Proof.Machine.Blk.SAFE), 161, by unfold CanReach; decide +kernel, by decide +kernel, by decide +kernel, by decide +kernel, by decide +kernel⟩,
   ⟨.device, 177, 3878643670, live, (Sys2Proof.Machine.Blk.HOST), 177, by unfold CanReach; decide +kernel, by decide +kernel, by decide +kernel, by decide +kernel, by decide +kernel, by decide +kernel, by decide +kernel⟩,
   ⟨.host, 4, 1841845243, live, (Sys2Proof.Machine.Blk.SUMP), 4, 18446, by unfold CanReach; decide +kernel, by decide +kernel, by decide +kernel, by decide +kernel, by decide +kernel, by decide +kernel, by decide +kernel, by decide +kernel, by decide +kernel⟩,
   ⟨.host, 16, 3, live, (Sys2Proof.Machine.Blk.CLU), 16, 1, by unfold CanReach; decide +kernel, by decide +kernel, by decide +kernel, by decide +kernel, by decide +kernel, by decide +kernel, by decide +kernel, by decide +kernel, by decide +kernel, by decide +kernel⟩⟩

theorem witness_SumpRead :
    (∃ (m : Master) (s : State), CanReach m s Reg.SUMP_ACK.addr) ∧
    (∃ (m : Master) (s : State) (j : Nat), CanReach m s (Reg.SUMP_ENTRY_WORD 0).addr ∧ j < 4) :=
  ⟨⟨(.cluDma 3), live, by unfold CanReach; decide +kernel⟩,
   ⟨.steward0, live, 0, by unfold CanReach; decide +kernel, by decide +kernel⟩⟩

theorem witness_InternalAccess :
    (∃ (m : Master) (a : W32) (acc : MemAcc), (¬(m = Master.host ∧ 553648128 ≤ BitVec.toNat a ∧ BitVec.toNat a + MemAcc.size acc ≤ 555745280)) ∧ (region (BitVec.toNat a) = none ∨ ∃ r fin, region (BitVec.toNat a) = some (r, fin) ∧ (canReach m r = false ∨ MemAcc.isWrite acc = true ∧ r.readOnly = true)) ∧ MemAcc.isWrite acc = false) ∧
    (∃ (m : Master) (a : W32) (acc : MemAcc) (c : Nat), (¬(m = Master.host ∧ 553648128 ≤ BitVec.toNat a ∧ BitVec.toNat a + MemAcc.size acc ≤ 555745280)) ∧ (region (BitVec.toNat a) = none ∨ ∃ r fin, region (BitVec.toNat a) = some (r, fin) ∧ (canReach m r = false ∨ MemAcc.isWrite acc = true ∧ r.readOnly = true)) ∧ (¬(268500992 ≤ c ∧ c < 268566528)) ∧ (¬(268435456 ≤ c ∧ c < 268439552))) ∧
    (∃ (m : Master) (a : W32) (s : State) (r : Region) (fin : Nat) (n : Nat), region (BitVec.toNat a) = some (r, fin) ∧ canReach m r = true ∧ BitVec.toNat a + n ≤ fin ∧ domOn s r.dom = true ∧ r ∉ [Region.rom, Region.cist, Region.points, Region.descs, Region.pages] ∧ (∀ (p : Nat), r ≠ Region.pbuf p)) ∧
    (∃ (m : Master) (a : W32) (s : State) (r : Region) (fin : Nat) (l : List Byte) (i : Nat), region (BitVec.toNat a) = some (r, fin) ∧ canReach m r = true ∧ BitVec.toNat a + l.length ≤ fin ∧ domOn s r.dom = true ∧ (r = Region.ret ∨ r = Region.sump ∨ ∃ c, r = Region.clm c) ∧ i < l.length) ∧
    (∃ (m : Master) (a : W32) (s : State) (p : Nat) (fin : Nat) (n : Nat), region (BitVec.toNat a) = some (Region.pbuf p, fin) ∧ canReach m (Region.pbuf p) = true ∧ BitVec.toNat a + n ≤ fin ∧ domOn s (dPort p) = true) ∧
    (∃ (m : Master) (a : W32) (s : State) (n : Nat), m = Master.host ∧ 553648128 ≤ BitVec.toNat a ∧ BitVec.toNat a + n ≤ 555745280 ∧ domOn s dHOST = true ∧ domOn s dCIST = true) ∧
    (∃ (m : Master) (a : W32) (n : Nat), 1073741824 ≤ BitVec.toNat a ∧ BitVec.toNat a + 4 ≤ 1090519040 ∧ BitVec.toNat a + n ≤ 1090519040 ∧ canReach m Region.pages = true) :=
  ⟨⟨.snapshot, 0, (.read 5), by decide +kernel, by (right; exact ⟨_, _, rfl, by decide +kernel⟩), by decide +kernel⟩,
   ⟨.acq, 1073758208, (.write []), 5, by decide +kernel, by (right; exact ⟨_, _, rfl, by decide +kernel⟩), by decide +kernel, by decide +kernel⟩,
   ⟨.safetyProc, 268435456, live, (Sys2Proof.Machine.Region.ret), 268439552, 0, by decide +kernel, by decide +kernel, by decide +kernel, by decide +kernel, by decide +kernel, by (intro p h; cases h)⟩,
   ⟨.steward1, 268566524, live, (Sys2Proof.Machine.Region.sump), 268566528, [46, 16, 243, 128], 0, by decide +kernel, by decide +kernel, by decide +kernel, by decide +kernel, by (right; left; rfl), by decide +kernel⟩,
   ⟨.steward0, 301989888, live, 0, 302022656, 40, by decide +kernel, by decide +kernel, by decide +kernel, by decide +kernel⟩,
   ⟨.host, 553648128, live, 2, by decide +kernel, by decide +kernel, by decide +kernel, by decide +kernel, by decide +kernel⟩,
   ⟨.steward0, 1073758208, 18, by decide +kernel, by decide +kernel, by decide +kernel, by decide +kernel⟩⟩

theorem witness_BridgeAndStalledAccesses :
    (∃ (d : Fin 16) (s : State) (m : Master) (a : BitVec 24) (n : Nat) (acc : WordAcc), domOn s d.val = true ∧ (List.find? (fun x => x.dom == d.val) s.stalled = some { dom := d.val, acc := Access.reg m a n acc })) ∧
    (∃ (d : Fin 16) (s : State) (m : Master) (a : BitVec 21) (acc : WordAcc), domOn s d.val = true ∧ (List.find? (fun x => x.dom == d.val) s.stalled = some { dom := d.val, acc := Access.cist m a acc })) ∧
    (∃ (d : Fin 16) (s : State) (m : Master) (p : BitVec 12) (w : W32) (clk : Nat), domOn s d.val = true ∧ (List.find? (fun x => x.dom == d.val) s.stalled = some { dom := d.val, acc := Access.lock m p w clk })) ∧
    (∃ (d : Fin 16) (s : State) (a : W32) (n : Nat), domOn s d.val = true ∧ (List.find? (fun x => x.dom == d.val) s.stalled = some { dom := d.val, acc := Access.acq a n })) ∧
    (∃ (s : State), domOn s dHOST = true ∧ domOn s dCIST = true ∧ on s (Reg.HDR_ERRLOG_VALID 177) = false) :=
  ⟨⟨5, { live with stalled := [{ dom := 5, acc := (.reg (.cluDma 3) 16777209 65535 (.write 383242592)) }] }, (.cluDma 3), 16777209, 65535, (.write 383242592), by decide +kernel, by decide +kernel⟩,
   ⟨10, { live with stalled := [{ dom := 10, acc := (.cist .host 704 (.write 134217728)) }] }, .host, 704, (.write 134217728), by decide +kernel, by decide +kernel⟩,
   ⟨3, { live with stalled := [{ dom := 3, acc := (.lock .host 12 1048576 1) }] }, .host, 12, 1048576, 1, by decide +kernel, by decide +kernel⟩,
   ⟨8, { live with stalled := [{ dom := 8, acc := (.acq 0 1) }] }, 0, 1, by decide +kernel, by decide +kernel⟩,
   ⟨live, by decide +kernel, by decide +kernel, by decide +kernel⟩⟩

theorem witness_BridgeFrames :
    (∃ (s : State), domOn s dSTEWARD = true ∧ domOn s dAO = true ∧ domOn s dFIELD = true) ∧
    (∃ (s : State) (f : FrameDown) (crc : Bool), domOn s dSTEWARD = true ∧ domOn s dAO = true ∧ s.bridge.down = some f ∧ crc = true ∧ f.seq = s.bridge.rxAtField + 1) ∧
    (∃ (s : State) (f : FrameDown) (crc : Bool), domOn s dSTEWARD = true ∧ domOn s dAO = true ∧ s.bridge.down = some f ∧ (¬(crc = true ∧ f.seq = s.bridge.rxAtField + 1))) ∧
    (∃ (s : State) (f : FrameUp) (crc : Bool), domOn s dSTEWARD = true ∧ domOn s dAO = true ∧ s.bridge.up = some f ∧ crc = true ∧ f.seq = s.bridge.rxAtMain + 1) ∧
    (∃ (s : State) (f : FrameUp) (crc : Bool), domOn s dSTEWARD = true ∧ domOn s dAO = true ∧ s.bridge.up = some f ∧ (¬(crc = true ∧ f.seq = s.bridge.rxAtMain + 1))) :=
  ⟨⟨live, by decide +kernel, by decide +kernel, by decide +kernel⟩,
   ⟨{ live with bridge := { rxAtField := 5, down := (some { seq := 6, heart := 0, out := 0, ao := [], word := 0, chanA := none, crc := 0 }) } }, { seq := 6, heart := 0, out := 0, ao := [], word := 0, chanA := none, crc := 0 }, true, by decide +kernel, by decide +kernel, by decide +kernel, by decide +kernel, by decide +kernel⟩,
   ⟨{ live with bridge := { down := (some { seq := 0, heart := 0, out := 0, ao := [], word := 0, chanA := none, crc := 0 }) } }, { seq := 0, heart := 0, out := 0, ao := [], word := 0, chanA := none, crc := 0 }, false, by decide +kernel, by decide +kernel, by decide +kernel, by decide +kernel⟩,
   ⟨{ live with bridge := { rxAtMain := 2, up := (some { seq := 3, heart := 0, w0 := 0, w1 := 0, w2 := 0, edm := 0, rst := false, chanB := none, crc := 0 }) } }, { seq := 3, heart := 0, w0 := 0, w1 := 0, w2 := 0, edm := 0, rst := false, chanB := none, crc := 0 }, true, by decide +kernel, by decide +kernel, by decide +kernel, by decide +kernel, by decide +kernel⟩,
   ⟨{ live with bridge := { up := (some { seq := 0, heart := 0, w0 := 0, w1 := 0, w2 := 0, edm := 0, rst := false, chanB := none, crc := 0 }) } }, { seq := 0, heart := 0, w0 := 0, w1 := 0, w2 := 0, edm := 0, rst := false, chanB := none, crc := 0 }, false, by decide +kernel, by decide +kernel, by decide +kernel, by decide +kernel⟩⟩

theorem witness_BridgeFaultAndRefresh :
    (∃ (s : State), domOn s dSTEWARD = true ∧ 3 ≤ s.bridge.runAtMain ∧ role s = rALONE ∧ rd s Reg.SUMP_RPTR_UNREAD < 4096) ∧
    (∃ (s : State), domOn s dSTEWARD = true ∧ 3 ≤ s.bridge.runAtMain ∧ role s = rACTIVE ∧ standbyPresent s = true ∧ on s Reg.PEER_STAT_PEER_READY = true) ∧
    (∃ (f : Bool) (s : State), ((if f = true then s.bridge.runAtField else s.bridge.runAtMain) < 3)) ∧
    (∃ (s : State), domOn s dSTEWARD = true ∧ role s ≠ rRELINQUISHED) :=
  ⟨⟨{ live with bridge := { runAtMain := 4 } }, by decide +kernel, by decide +kernel, by decide +kernel, by decide +kernel⟩,
   ⟨{ (regs live [(0x7D050, 260)]) with pair := { peerRole := 2, recPrev := true }, bridge := { runAtMain := 3 } }, by decide +kernel, by decide +kernel, by decide +kernel, by decide +kernel, by decide +kernel⟩,
   ⟨false, live, by decide +kernel⟩,
   ⟨live, by decide +kernel, by decide +kernel⟩⟩

theorem witness_StandbyDiscardsHostCommands :
    (∃ (i : Fin 32) (s : State), (role s = rJOINING ∨ role s = rSTANDBY ∨ role s = rDETACHED) ∧ CanReach Master.host s ((Reg.CYC_SHED_MAP i.val).addr) ∧ on s (Reg.HDR_ERRLOG_VALID (((Reg.CYC_SHED_MAP i.val).addr) / 4096)) = false) :=
  ⟨8, (regs live [(0x7D050, 2)]), by decide +kernel, by unfold CanReach; decide +kernel, by decide +kernel⟩

theorem witness_DelayListsStallsAndGates :
    (∃ (c : Fin 4) (s : State) (l : List IntraEnt) (x : IntraEnt), (tget (fun x => []) s.sched.intraLeft c.val = l) ∧ domOn s (dCLU c.val) = true ∧ l = [x] ∧ poster s c.val = [] ∧ x.flag < 32 ∧ x.task < 8192 ∧ (task s x.task).armed = true ∧ (task s x.task).made = true) ∧
    (∃ (s : State) (v : Nat) (k : Nat), v < 30 ∧ (∀ w < 30, w ≠ v → poster s w = []) ∧ poster s v = [{ hold := some k }] ∧ (∀ p < 24, (port s p).kept = []) ∧ k < 8192 ∧ s.sched.part.getLsbD (home k) = true ∧ tdPf s (bank s) k < 2 ∧ tdPrio s (bank s) k ≠ 0 ∧ (well s (home k) (tdPrio s (bank s) k)).length < 512) ∧
    (∃ (c : Fin 4) (s : State), s.sched.gate.getLsbD c.val = true ∧ gateEmpty s c.val = true) ∧
    (∃ (c : Fin 4) (s : State), s.sched.gate.getLsbD c.val = false) :=
  ⟨⟨3, { live with sched := { tasks := [(2050, { armed := true, made := true })], intraLeft := [(3, [{ tick := 0, task := 2050, flag := 0 }])] } }, [{ tick := 0, task := 2050, flag := 0 }], { tick := 0, task := 2050, flag := 0 }, by decide +kernel, by decide +kernel, by decide +kernel, by decide +kernel, by decide +kernel, by decide +kernel, by decide +kernel, by decide +kernel⟩,
   ⟨{ (mwrite (regs live [(0x1404C, 1)]) 1342308803 [32]) with sched := { posters := [(0, [{ hold := (some 7) }])], part := 1 } }, 0, 7, by decide +kernel, by decide +kernel, by decide +kernel, by decide +kernel, by decide +kernel, by decide +kernel, by decide +kernel, by decide +kernel, by decide +kernel⟩,
   ⟨3, { live with sched := { gate := 9 } }, by decide +kernel, by decide +kernel⟩,
   ⟨0, live, by decide +kernel⟩⟩

theorem witness_ContextsOfPreemptedTasks :
    (∃ (e : Fin 64) (s : State) (i : Nat), (eng s e.val).ph = Phase.saving ∧ i ≠ e.val) ∧
    (∃ (e : Fin 64) (s : State), (eng s e.val).ph = Phase.saving ∧ (eng s e.val).reserved = none) ∧
    (∃ (e : Fin 64) (s : State) (k : Tok), (eng s e.val).ph = Phase.saving ∧ (eng s e.val).reserved = some k) ∧
    (∃ (e : Fin 64) (s : State), (eng s e.val).ph ≠ Phase.saving) ∧
    (∃ (e : Fin 64) (s : State) (q : Saved) (i : Nat), (eng s e.val).ph = Phase.restoring ∧ (eng s e.val).resume = some q ∧ (((well s (e.val / 16) 0).all fun k => k.pre) = true) ∧ i ≠ e.val) ∧
    (∃ (e : Fin 64) (s : State), (eng s e.val).ph ≠ Phase.restoring) :=
  ⟨⟨1, { live with engs := [(1, { ph := .saving })] }, 185506223463, by decide +kernel, by decide +kernel⟩,
   ⟨1, { live with engs := [(1, { ph := .saving })] }, by decide +kernel, by decide +kernel⟩,
   ⟨16, { live with engs := [(16, { ph := .saving, reserved := (some { task := 0, seq := 0, pre := false }) })] }, { task := 0, seq := 0, pre := false }, by decide +kernel, by decide +kernel⟩,
   ⟨2, live, by decide +kernel⟩,
   ⟨0, { live with engs := [(0, { ph := .restoring, resume := (some { task := 0, prio := 0, r := { } }) })] }, { task := 0, prio := 0, r := { } }, 63, by decide +kernel, by decide +kernel, by decide +kernel, by decide +kernel⟩,
   ⟨2, live, by decide +kernel⟩⟩

theorem witness_EngineSelection :
    (∃ (e : Fin 64) (s : State), ((eng s e.val).ph ≠ Phase.idle ∨ s.sched.part.getLsbD (e.val / 16) = false)) ∧
    (∃ (e : Fin 64) (s : State), (eng s e.val).ph = Phase.idle ∧ s.sched.part.getLsbD (e.val / 16) = true ∧ (eng s e.val).resume.isSome = true) ∧
    (∃ (e : Fin 64) (s : State), (eng s e.val).ph = Phase.idle ∧ s.sched.part.getLsbD (e.val / 16) = true ∧ (eng s e.val).resume = none ∧ withdrawn s e.val = true) ∧
    (∃ (e : Fin 64) (s : State) (p : PSlot), (eng s e.val).ph = Phase.idle ∧ s.sched.part.getLsbD (e.val / 16) = true ∧ (eng s e.val).resume = none ∧ withdrawn s e.val = false ∧ isPref s e.val = true ∧ (eng s e.val).pslot = some p) ∧
    (∃ (e : Fin 64) (s : State), (eng s e.val).ph = Phase.idle ∧ s.sched.part.getLsbD (e.val / 16) = true ∧ (eng s e.val).resume = none ∧ withdrawn s e.val = false ∧ isPref s e.val = true ∧ (eng s e.val).pslot = none) ∧
    (∃ (e : Fin 64) (s : State) (k : Tok) (r : List Tok), (eng s e.val).ph = Phase.idle ∧ s.sched.part.getLsbD (e.val / 16) = true ∧ (eng s e.val).resume = none ∧ withdrawn s e.val = false ∧ isPref s e.val = false ∧ (eng s e.val).lq = k :: r ∧ (∀ p < tdPrio s (bank s) k.task, p < 4 → well s (e.val / 16) p = [])) ∧
    (∃ (e : Fin 64) (s : State) (p : Nat) (k : Tok) (r : List Tok), (eng s e.val).ph = Phase.idle ∧ s.sched.part.getLsbD (e.val / 16) = true ∧ (eng s e.val).resume = none ∧ withdrawn s e.val = false ∧ isPref s e.val = false ∧ p < 4 ∧ well s (e.val / 16) p = k :: r ∧ (∀ q < p, well s (e.val / 16) q = []) ∧ (∀ (h : Tok), (eng s e.val).lq.head? = some h → p < tdPrio s (bank s) h.task)) ∧
    (∃ (e : Fin 64) (s : State) (i : Nat) (k : Tok), (eng s e.val).ph = Phase.idle ∧ s.sched.part.getLsbD (e.val / 16) = true ∧ (eng s e.val).resume = none ∧ withdrawn s e.val = false ∧ isPref s e.val = false ∧ (eng s e.val).lq = [] ∧ (∀ p < 4, well s (e.val / 16) p = []) ∧ oldestSibling s e.val = some (i, k)) ∧
    (∃ (e : Fin 64) (s : State) (p : Nat) (k : Tok), (eng s e.val).ph = Phase.idle ∧ s.sched.part.getLsbD (e.val / 16) = true ∧ (eng s e.val).resume = none ∧ withdrawn s e.val = false ∧ isPref s e.val = false ∧ (eng s e.val).lq = [] ∧ (∀ p < 4, well s (e.val / 16) p = []) ∧ oldestSibling s e.val = none ∧ stealTok s (e.val / 16) = some (p, k)) ∧
    (∃ (e : Fin 64) (s : State), (eng s e.val).ph = Phase.idle ∧ s.sched.part.getLsbD (e.val / 16) = true ∧ (eng s e.val).resume = none ∧ withdrawn s e.val = false ∧ isPref s e.val = false ∧ (eng s e.val).lq = [] ∧ (∀ p < 4, well s (e.val / 16) p = []) ∧ oldestSibling s e.val = none ∧ stealTok s (e.val / 16) = none) :=
  ⟨⟨2, live, by decide +kernel⟩,
   ⟨2, { live with sched := { part := 1 }, engs := [(2, { resume := (some { task := 0, prio := 0, r := { } }) })] }, by decide +kernel, by decide +kernel, by decide +kernel⟩,
   ⟨2, { (regs live [(0x10044, 4)]) with sched := { part := 1 } }, by decide +kernel, by decide +kernel, by decide +kernel, by decide +kernel⟩,
   ⟨17, { live with sched := { part := 2, prefMode := 104 }, engs := [(17, { pslot := (some { tok := { task := 0, seq := 0, pre := false }, words := [], pts := [] }) })] }, { tok := { task := 0, seq := 0, pre := false }, words := [], pts := [] }, by decide +kernel, by decide +kernel, by decide +kernel, by decide +kernel, by decide +kernel, by decide +kernel⟩,
   ⟨16, { live with sched := { part := 2, prefMode := 36 } }, by decide +kernel, by decide +kernel, by decide +kernel, by decide +kernel, by decide +kernel, by decide +kernel⟩,
   ⟨18, { live with sched := { part := 2 }, engs := [(18, { lq := [{ task := 0, seq := 0, pre := false }] })] }, { task := 0, seq := 0, pre := false }, [], by decide +kernel, by decide +kernel, by decide +kernel, by decide +kernel, by decide +kernel, by decide +kernel, by decide +kernel⟩,
   ⟨17, { live with sched := { wells := [(4, [{ task := 0, seq := 0, pre := false }])], part := 2 } }, 0, { task := 0, seq := 0, pre := false }, [], by decide +kernel, by decide +kernel, by decide +kernel, by decide +kernel, by decide +kernel, by decide +kernel, by decide +kernel, by decide +kernel, by decide +kernel⟩,
   ⟨2, { live with sched := { part := 1 }, engs := [(1, { lq := [{ task := 0, seq := 0, pre := false }] })] }, 1, { task := 0, seq := 0, pre := false }, by decide +kernel, by decide +kernel, by decide +kernel, by decide +kernel, by decide +kernel, by decide +kernel, by decide +kernel, by decide +kernel⟩,
   ⟨0, { (mwrite (regs live [(0x1404C, 1)]) 1342308418 [128]) with sched := { wells := [(5, [{ task := 1, seq := 0, pre := false }])], part := 1 } }, 1, { task := 1, seq := 0, pre := false }, by decide +kernel, by decide +kernel, by decide +kernel, by decide +kernel, by decide +kernel, by decide +kernel, by decide +kernel, by decide +kernel, by decide +kernel⟩,
   ⟨16, { live with sched := { part := 2 } }, by decide +kernel, by decide +kernel, by decide +kernel, by decide +kernel, by decide +kernel, by decide +kernel, by decide +kernel, by decide +kernel, by decide +kernel⟩⟩

theorem witness_TaskEntryAndExit :
    (∃ (e : Fin 64) (s : State) (k : Tok) (r : List Tok), isPref s e.val = true ∧ (eng s e.val).pslot = none ∧ s.sched.part.getLsbD (e.val / 16) = true ∧ (eng s e.val).pq = k :: r) ∧
    (∃ (e : Fin 64) (s : State), (eng s e.val).ph = Phase.dmaIn ∧ (inEntries s (taskList s (bank s) (eng s e.val).task)).2 = none) ∧
    (∃ (e : Fin 64) (s : State) (f : EngCause), (eng s e.val).ph = Phase.dmaIn ∧ (inEntries s (taskList s (bank s) (eng s e.val).task)).2 = some f) ∧
    (∃ (e : Fin 64) (s : State) (j : OutJob) (r : List OutJob) (w : Edge), (eng s e.val).outq = j :: r ∧ j.writes = [] ∧ j.pts = [] ∧ (poster s pCompletion = []) ∧ tdEdges s (bank s) j.task = [w] ∧ bits 31 30 w = 0 ∧ (task s (bits 12 0 w)).armed = true ∧ 1 < (task s (bits 12 0 w)).ctr) :=
  ⟨⟨1, { live with sched := { part := 1, prefMode := 2 }, engs := [(1, { pq := [{ task := 0, seq := 0, pre := false }] })] }, { task := 0, seq := 0, pre := false }, [], by decide +kernel, by decide +kernel, by decide +kernel, by decide +kernel⟩,
   ⟨0, { (mwrite (mwrite live 1342177351 [192]) 1342177358 [4]) with engs := [(0, { ph := .dmaIn, task := 1 })] }, by decide +kernel, by decide +kernel⟩,
   ⟨16, { live with engs := [(16, { ph := .dmaIn })] }, (Sys2Proof.Machine.EngCause.dma), by decide +kernel, by decide +kernel⟩,
   ⟨2, { (mwrite (mwrite (regs live [(0x1404C, 1)]) 1342308368 [1]) 1342308373 [8]) with sched := { tasks := [(2048, { armed := true, ctr := 2 })] }, engs := [(2, { outq := [{ task := 0, writes := [], pts := [], pc := 0 }] })] }, { task := 0, writes := [], pts := [], pc := 0 }, [], 2048, by decide +kernel, by decide +kernel, by decide +kernel, by decide +kernel, by decide +kernel, by decide +kernel, by decide +kernel, by decide +kernel⟩⟩

theorem witness_SheddingWithdrawalAndCommit :
    (∃ (m : Master) (i : Fin 32) (s : State), CanReach m s (Reg.CYC_SHED_MAP i.val).addr ∧ roleBars s m = false) ∧
    (∃ (m : Master) (c : Fin 4) (s : State) (i : Nat), CanReach m s (Reg.CLU_WITHDRAW c.val).addr ∧ inService s = false ∧ (∀ i < 16, heldEngine s (c.val * 16 + i) = false) ∧ i < 16) ∧
    (∃ (m : Master) (w : W32) (s : State), CanReach m s Reg.CYC_COMMIT_AT_LO.addr ∧ roleBars s m = false ∧ BitVec.toNat w + 2 ^ 32 * rd s Reg.CYC_COMMIT_AT_HI_CYCLE < s.sched.cycle + 3) ∧
    (∃ (m : Master) (w : W32) (s : State), CanReach m s Reg.CYC_COMMIT_AT_LO.addr ∧ roleBars s m = false ∧ s.sched.cycle + 3 ≤ BitVec.toNat w + 2 ^ 32 * rd s Reg.CYC_COMMIT_AT_HI_CYCLE ∧ on s Reg.CYC_COMMIT_MASK_AXIS = false ∧ on s Reg.CYC_COMMIT_MASK_MOTION = false) :=
  ⟨⟨.device, 1, live, by unfold CanReach; decide +kernel, by decide +kernel⟩,
   ⟨(.cluDma 0), 0, live, 1, by unfold CanReach; decide +kernel, by decide +kernel, by decide +kernel, by decide +kernel⟩,
   ⟨.steward0, 32, { live with sched := { cycle := 30 } }, by unfold CanReach; decide +kernel, by decide +kernel, by decide +kernel⟩,
   ⟨(.cluDma 3), 832, live, by unfold CanReach; decide +kernel, by decide +kernel, by decide +kernel, by decide +kernel, by decide +kernel⟩⟩

theorem witness_GraphAndImemInstalls_1 :
    (∃ (m : Master) (w : W32) (s : State), CanReach m s Reg.CYC_GCMD.addr ∧ roleBars s m = false ∧ (on s Reg.CYC_GCMD_BUSY = true ∨ on s Reg.LEMAC_SWAP_PEND = true) ∧ wbits Reg.CYC_GCMD_OP w = 1) ∧
    (∃ (m : Master) (w : W32) (s : State), CanReach m s Reg.CYC_GCMD.addr ∧ roleBars s m = false ∧ (on s Reg.CYC_GCMD_BUSY = true ∨ on s Reg.LEMAC_SWAP_PEND = true) ∧ wbits Reg.CYC_GCMD_OP w = 2) ∧
    (∃ (m : Master) (w : W32) (s : State), CanReach m s Reg.CYC_GCMD.addr ∧ roleBars s m = false ∧ on s Reg.CYC_GCMD_BUSY = false ∧ on s Reg.LEMAC_SWAP_PEND = false ∧ domOn s dCIST = false ∧ wbits Reg.CYC_GCMD_OP w = 1) ∧
    (∃ (m : Master) (w : W32) (s : State), CanReach m s Reg.CYC_GCMD.addr ∧ roleBars s m = false ∧ on s Reg.CYC_GCMD_BUSY = false ∧ on s Reg.LEMAC_SWAP_PEND = false ∧ domOn s dCIST = false ∧ wbits Reg.CYC_GCMD_OP w = 2) ∧
    (∃ (m : Master) (w : W32) (s : State), CanReach m s Reg.CYC_GCMD.addr ∧ roleBars s m = false ∧ on s Reg.CYC_GCMD_BUSY = false ∧ on s Reg.LEMAC_SWAP_PEND = false ∧ wbits Reg.CYC_GCMD_OP w = 1 ∧ domOn s dCIST = true ∧ hostOwned s (wbits Reg.CYC_GCMD_BLOCK w) 1 = false) ∧
    (∃ (m : Master) (w : W32) (s : State) (i : Nat), CanReach m s Reg.CYC_GCMD.addr ∧ roleBars s m = false ∧ on s Reg.CYC_GCMD_BUSY = false ∧ on s Reg.LEMAC_SWAP_PEND = false ∧ wbits Reg.CYC_GCMD_OP w = 1 ∧ domOn s dCIST = true ∧ hostOwned s (wbits Reg.CYC_GCMD_BLOCK w) 1 = true ∧ imgLen s (wbits Reg.CYC_GCMD_BLOCK w) 1048576 = none ∧ i < 1) ∧
    (∃ (m : Master) (w : W32) (s : State) (len : Nat) (i : Nat), CanReach m s Reg.CYC_GCMD.addr ∧ roleBars s m = false ∧ on s Reg.CYC_GCMD_BUSY = false ∧ on s Reg.LEMAC_SWAP_PEND = false ∧ wbits Reg.CYC_GCMD_OP w = 1 ∧ domOn s dCIST = true ∧ hostOwned s (wbits Reg.CYC_GCMD_BLOCK w) 1 = true ∧ imgLen s (wbits Reg.CYC_GCMD_BLOCK w) 1048576 = some len ∧ hostOwned s (wbits Reg.CYC_GCMD_BLOCK w) (len / 256) = true ∧ gHeaderBad s (wbits Reg.CYC_GCMD_BLOCK w) len = true ∧ i < len / 256) ∧
    (∃ (m : Master) (w : W32) (s : State) (len : Nat) (i : Nat), CanReach m s Reg.CYC_GCMD.addr ∧ roleBars s m = false ∧ on s Reg.CYC_GCMD_BUSY = false ∧ on s Reg.LEMAC_SWAP_PEND = false ∧ wbits Reg.CYC_GCMD_OP w = 1 ∧ domOn s dCIST = true ∧ hostOwned s (wbits Reg.CYC_GCMD_BLOCK w) 1 = true ∧ imgLen s (wbits Reg.CYC_GCMD_BLOCK w) 1048576 = some len ∧ hostOwned s (wbits Reg.CYC_GCMD_BLOCK w) (len / 256) = true ∧ gHeaderBad s (wbits Reg.CYC_GCMD_BLOCK w) len = false ∧ gFirstSec s (wbits Reg.CYC_GCMD_BLOCK w) = some i) ∧
    (∃ (m : Master) (w : W32) (s : State) (len : Nat) (i : Nat) (i' : Nat), CanReach m s Reg.CYC_GCMD.addr ∧ roleBars s m = false ∧ on s Reg.CYC_GCMD_BUSY = false ∧ on s Reg.LEMAC_SWAP_PEND = false ∧ wbits Reg.CYC_GCMD_OP w = 1 ∧ domOn s dCIST = true ∧ hostOwned s (wbits Reg.CYC_GCMD_BLOCK w) 1 = true ∧ imgLen s (wbits Reg.CYC_GCMD_BLOCK w) 1048576 = some len ∧ hostOwned s (wbits Reg.CYC_GCMD_BLOCK w) (len / 256) = true ∧ gHeaderBad s (wbits Reg.CYC_GCMD_BLOCK w) len = false ∧ gFirstSec s (wbits Reg.CYC_GCMD_BLOCK w) = some i ∧ i' < len / 256) ∧
    (∃ (m : Master) (w : W32) (s : State) (len : Nat) (i : Nat), CanReach m s Reg.CYC_GCMD.addr ∧ roleBars s m = false ∧ on s Reg.CYC_GCMD_BUSY = false ∧ on s Reg.LEMAC_SWAP_PEND = false ∧ wbits Reg.CYC_GCMD_OP w = 1 ∧ domOn s dCIST = true ∧ hostOwned s (wbits Reg.CYC_GCMD_BLOCK w) 1 = true ∧ imgLen s (wbits Reg.CYC_GCMD_BLOCK w) 1048576 = some len ∧ hostOwned s (wbits Reg.CYC_GCMD_BLOCK w) (len / 256) = true ∧ gHeaderBad s (wbits Reg.CYC_GCMD_BLOCK w) len = false ∧ gFirstSec s (wbits Reg.CYC_GCMD_BLOCK w) = none ∧ i < len / 256) ∧
    (∃ (m : Master) (w : W32) (s : State), CanReach m s Reg.CYC_GCMD.addr ∧ roleBars s m = false ∧ on s Reg.CYC_GCMD_BUSY = false ∧ on s Reg.LEMAC_SWAP_PEND = false ∧ wbits Reg.CYC_GCMD_OP w = 2 ∧ domOn s dCIST = true ∧ loadable s (wbits Reg.CYC_GCMD_ENGINE w) = false) ∧
    (∃ (m : Master) (w : W32) (s : State), CanReach m s Reg.CYC_GCMD.addr ∧ roleBars s m = false ∧ on s Reg.CYC_GCMD_BUSY = false ∧ on s Reg.LEMAC_SWAP_PEND = false ∧ wbits Reg.CYC_GCMD_OP w = 2 ∧ domOn s dCIST = true ∧ loadable s (wbits Reg.CYC_GCMD_ENGINE w) = true ∧ hostOwned s (wbits Reg.CYC_GCMD_BLOCK w) 64 = false) :=
  ⟨⟨.host, 12648458, (regs live [(0x14100, 2147483648)]), by unfold CanReach; decide +kernel, by decide +kernel, by decide +kernel, by decide +kernel⟩,
   ⟨.transmit, 71434250, (regs live [(0x14100, 2147483648)]), by unfold CanReach; decide +kernel, by decide +kernel, by decide +kernel, by decide +kernel⟩,
   ⟨.host, 65546, (setDom live 13 { }), by unfold CanReach; decide +kernel, by decide +kernel, by decide +kernel, by decide +kernel, by decide +kernel, by decide +kernel⟩,
   ⟨.host, 12713994, (setDom live 13 { }), by unfold CanReach; decide +kernel, by decide +kernel, by decide +kernel, by decide +kernel, by decide +kernel, by decide +kernel⟩,
   ⟨(.cluDma 0), 75563018, live, by unfold CanReach; decide +kernel, by decide +kernel, by decide +kernel, by decide +kernel, by decide +kernel, by decide +kernel, by decide +kernel⟩,
   ⟨.host, 8454154, { live with cist := [(10, { flt := 1 })] }, 0, by unfold CanReach; decide +kernel, by decide +kernel, by decide +kernel, by decide +kernel, by decide +kernel, by decide +kernel, by decide +kernel, by decide +kernel, by decide +kernel⟩,
   ⟨.receive, 12648458, { (mwrite live 536873477 [2]) with cist := [(10, { flt := 1 }), (11, { flt := 1 })] }, 512, 0, by unfold CanReach; decide +kernel, by decide +kernel, by decide +kernel, by decide +kernel, by decide +kernel, by decide +kernel, by decide +kernel, by decide +kernel, by decide +kernel, by decide +kernel, by decide +kernel⟩,
   ⟨(.cluDma 0), 71368714, { (mwrite (mwrite (mwrite live 536873472 [1]) 536873477 [2]) 536873484 [2]) with cist := [(10, { flt := 1 }), (11, { flt := 1 })] }, 512, 0, by unfold CanReach; decide +kernel, by decide +kernel, by decide +kernel, by decide +kernel, by decide +kernel, by decide +kernel, by decide +kernel, by decide +kernel, by decide +kernel, by decide +kernel, by decide +kernel⟩,
   ⟨.snapshot, 4259850, { (mwrite (mwrite (mwrite live 536873472 [1]) 536873477 [2]) 536873484 [1]) with cist := [(10, { flt := 1 }), (11, { flt := 1 })] }, 512, 0, 0, by unfold CanReach; decide +kernel, by decide +kernel, by decide +kernel, by decide +kernel, by decide +kernel, by decide +kernel, by decide +kernel, by decide +kernel, by decide +kernel, by decide +kernel, by decide +kernel, by decide +kernel⟩,
   ⟨.host, 67174410, { (mwrite (mwrite (mwrite (mwrite (mwrite (mwrite live 536873472 [1]) 536873477 [2]) 536873484 [2]) 536873508 [64]) 536873540 [64]) 536873552 [64]) with cist := [(10, { flt := 1 }), (11, { flt := 1 })] }, 512, 0, by unfold CanReach; decide +kernel, by decide +kernel, by decide +kernel, by decide +kernel, by decide +kernel, by decide +kernel, by decide +kernel, by decide +kernel, by decide +kernel, by decide +kernel, by decide +kernel, by decide +kernel⟩,
   ⟨.host, 67239946, live, by unfold CanReach; decide +kernel, by decide +kernel, by decide +kernel, by decide +kernel, by decide +kernel, by decide +kernel, by decide +kernel⟩,
   ⟨.receive, 67239946, (regs live [(0x11044, 1), (0x30040, 2)]), by unfold CanReach; decide +kernel, by decide +kernel, by decide +kernel, by decide +kernel, by decide +kernel, by decide +kernel, by decide +kernel, by decide +kernel⟩⟩

theorem witness_GraphAndImemInstalls_2 :
    (∃ (m : Master) (w : W32) (s : State) (i : Nat), CanReach m s Reg.CYC_GCMD.addr ∧ roleBars s m = false ∧ on s Reg.CYC_GCMD_BUSY = false ∧ on s Reg.LEMAC_SWAP_PEND = false ∧ wbits Reg.CYC_GCMD_OP w = 2 ∧ domOn s dCIST = true ∧ loadable s (wbits Reg.CYC_GCMD_ENGINE w) = true ∧ hostOwned s (wbits Reg.CYC_GCMD_BLOCK w) 64 = true ∧ i < 64) ∧
    (∃ (c : GCmd) (i : Nat) (s : State), s.sched.gcmd = some c ∧ c.load = false ∧ waitsPeer s 1 = false ∧ i < imgWord s c.blk 12 ∧ ((fun i => c.lost.getLsbD (gsec s c.blk i).clu = true ∨ domOn s (dCLU (gsec s c.blk i).clu) = false) i) ∧ (∀ j < i, ¬(fun i => c.lost.getLsbD (gsec s c.blk i).clu = true ∨ domOn s (dCLU (gsec s c.blk i).clu) = false) j)) ∧
    (∃ (c : GCmd) (s : State) (k : Nat), s.sched.gcmd = some c ∧ c.load = false ∧ waitsPeer s 1 = false ∧ c.lost = 0 ∧ (∀ i < imgWord s c.blk 12, domOn s (dCLU (gsec s c.blk i).clu) = true) ∧ gFirstTask (writeGraph (clearValid s (1 - bank s)) c.blk (1 - bank s)) (1 - bank s) = some k) ∧
    (∃ (c : GCmd) (s : State), s.sched.gcmd = some c ∧ c.load = false ∧ waitsPeer s 1 = false ∧ c.lost = 0 ∧ (∀ i < imgWord s c.blk 12, domOn s (dCLU (gsec s c.blk i).clu) = true) ∧ gFirstTask (writeGraph (clearValid s (1 - bank s)) c.blk (1 - bank s)) (1 - bank s) = none ∧ gFirstEntry (writeGraph (clearValid s (1 - bank s)) c.blk (1 - bank s)) c.blk (1 - bank s) = none) ∧
    (∃ (c : GCmd) (s : State) (i : Nat), s.sched.gcmd = some c ∧ c.load = true ∧ waitsPeer s 1 = false ∧ loadReady s c = true ∧ c.lost.getLsbD (c.engine / 16) = false ∧ domOn s (dCLU (c.engine / 16)) = true ∧ c.back ≠ some false ∧ i < 16384) ∧
    (∃ (c : GCmd) (s : State), s.sched.gcmd = some c ∧ c.load = true ∧ waitsPeer s 1 = false ∧ loadReady s c = true ∧ (c.lost.getLsbD (c.engine / 16) = true ∨ domOn s (dCLU (c.engine / 16)) = false)) :=
  ⟨⟨.transmit, 8519690, { (regs live [(0x10044, 4), (0x22040, 2)]) with cist := (List.range 64).map (fun i => (10 + i, { flt := 1 })) }, 0, by unfold CanReach; decide +kernel, by decide +kernel, by decide +kernel, by decide +kernel, by decide +kernel, by decide +kernel, by decide +kernel, by decide +kernel, by decide +kernel⟩,
   ⟨{ load := false, engine := 0, blk := 10, n := 0, lost := 1, back := none }, 0, { (mwrite live 536873484 [1]) with sched := { gcmd := (some { load := false, engine := 0, blk := 10, n := 0, lost := 1, back := none }) } }, by decide +kernel, by decide +kernel, by decide +kernel, by decide +kernel, by decide +kernel, by decide +kernel⟩,
   ⟨{ load := false, engine := 0, blk := 10, n := 0, lost := 0, back := none }, { (mwrite (mwrite (mwrite (mwrite (mwrite (mwrite live 536873484 [1]) 536873508 [64]) 536873538 [2]) 536873540 [16]) 536873545 [1]) 536873731 [128]) with sched := { gcmd := (some { load := false, engine := 0, blk := 10, n := 0, lost := 0, back := none }) } }, 0, by decide +kernel, by decide +kernel, by decide +kernel, by decide +kernel, by decide +kernel, by decide +kernel⟩,
   ⟨{ load := false, engine := 0, blk := 0, n := 0, lost := 0, back := none }, { live with sched := { gcmd := (some { load := false, engine := 0, blk := 0, n := 0, lost := 0, back := none }) } }, by decide +kernel, by decide +kernel, by decide +kernel, by decide +kernel, by decide +kernel, by decide +kernel, by decide +kernel⟩,
   ⟨{ load := true, engine := 0, blk := 0, n := 0, lost := 0, back := none }, { live with sched := { gcmd := (some { load := true, engine := 0, blk := 0, n := 0, lost := 0, back := none }) } }, 0, by decide +kernel, by decide +kernel, by decide +kernel, by decide +kernel, by decide +kernel, by decide +kernel, by decide +kernel, by decide +kernel⟩,
   ⟨{ load := true, engine := 0, blk := 0, n := 0, lost := 1, back := none }, { live with sched := { gcmd := (some { load := true, engine := 0, blk := 0, n := 0, lost := 1, back := none }) } }, by decide +kernel, by decide +kernel, by decide +kernel, by decide +kernel, by decide +kernel⟩⟩

theorem witness_CycleBoundaryAndLastLaunch :
    (∃ (s : State), domOn s dNET = false) ∧
    (∃ (s : State), domOn s dNET = true) :=
  ⟨⟨(setDom live 9 { }), by decide +kernel⟩,
   ⟨live, by decide +kernel⟩⟩

theorem witness_AxisParameterRecords :
    (∃ (m : Master) (w : W32) (s : State) (i : Nat), CanReach m s Reg.AXIS_AREA.addr ∧ locked s 128 = false ∧ anyAxisRuns s = false ∧ wbits Reg.AXIS_AREA_EN w = 1 ∧ domOn s dCIST = true ∧ i < 4096) ∧
    (∃ (m : Master) (w : W32) (s : State), CanReach m s Reg.AXIS_AREA.addr ∧ locked s 128 = false ∧ anyAxisRuns s = false ∧ wbits Reg.AXIS_AREA_EN w = 0) ∧
    (∃ (m : Master) (w : W32) (s : State), CanReach m s Reg.AXIS_AREA.addr ∧ (locked s 128 = false ∧ anyAxisRuns s = true ∨ locked s 128 = true ∧ ¬(rd s Reg.AXIS_AREA_EN = wbits Reg.AXIS_AREA_EN w ∧ rd s Reg.AXIS_AREA_SLICE = wbits Reg.AXIS_AREA_SLICE w))) ∧
    (∃ (m : Master) (s : State), CanReach m s Reg.AXIS_CMD.addr ∧ roleBars s m = false ∧ s.commit = none ∧ domOn s dCIST = true ∧ on s Reg.AXIS_AREA_EN = true ∧ on s Reg.AXIS_SEL_VIEW = false) ∧
    (∃ (m : Master) (s : State), CanReach m s Reg.AXIS_CMD.addr ∧ roleBars s m = false ∧ s.commit = none ∧ domOn s dCIST = true ∧ on s Reg.AXIS_AREA_EN = true ∧ on s Reg.AXIS_SEL_VIEW = true) ∧
    (∃ (m : Master) (w : W32) (s : State) (j : Nat), CanReach m s Reg.AXIS_CMD.addr ∧ roleBars s m = false ∧ s.commit = none ∧ domOn s dCIST = true ∧ on s Reg.AXIS_AREA_EN = true ∧ wbits Reg.AXIS_CMD_OP w = 1 ∧ j < 512) ∧
    (∃ (m : Master) (w : W32) (s : State), CanReach m s Reg.AXIS_CMD.addr ∧ roleBars s m = false ∧ s.commit = none ∧ domOn s dCIST = true ∧ on s Reg.AXIS_AREA_EN = true ∧ wbits Reg.AXIS_CMD_OP w = 2) ∧
    (∃ (m : Master) (w : W32) (s : State) (j : Nat) (q : Int), CanReach m s Reg.AXIS_CMD.addr ∧ roleBars s m = false ∧ s.commit = none ∧ domOn s dCIST = true ∧ on s Reg.AXIS_AREA_EN = true ∧ wbits Reg.AXIS_CMD_OP w = 3 ∧ (100 ≤ rd s Reg.AXIS_NOTCHF_FREQ ∧ rd s Reg.AXIS_NOTCHF_FREQ * period s ≤ 4500000000 ∧ 10 ≤ rd s Reg.AXIS_NOTCHW_WIDTH ∧ rd s Reg.AXIS_NOTCHW_WIDTH ≤ 2 * rd s Reg.AXIS_NOTCHF_FREQ ∧ rd s Reg.AXIS_NOTCHW_DEPTH ≤ 240) ∧ (notchWords (rd s Reg.AXIS_NOTCHF_FREQ) (rd s Reg.AXIS_NOTCHW_WIDTH) (rd s Reg.AXIS_NOTCHW_DEPTH) (period s))[j]? = some q) ∧
    (∃ (m : Master) (w : W32) (s : State), CanReach m s Reg.AXIS_CMD.addr ∧ roleBars s m = false ∧ s.commit = none ∧ domOn s dCIST = true ∧ on s Reg.AXIS_AREA_EN = true ∧ wbits Reg.AXIS_CMD_OP w = 3 ∧ (¬(100 ≤ rd s Reg.AXIS_NOTCHF_FREQ ∧ rd s Reg.AXIS_NOTCHF_FREQ * period s ≤ 4500000000 ∧ 10 ≤ rd s Reg.AXIS_NOTCHW_WIDTH ∧ rd s Reg.AXIS_NOTCHW_WIDTH ≤ 2 * rd s Reg.AXIS_NOTCHF_FREQ ∧ rd s Reg.AXIS_NOTCHW_DEPTH ≤ 240))) ∧
    (∃ (m : Master) (w : W32) (s : State), CanReach m s Reg.AXIS_CMD.addr ∧ roleBars s m = false ∧ (domOn s dCIST = false ∨ on s Reg.AXIS_AREA_EN = false) ∧ wbits Reg.AXIS_CMD_OP w = (3)) :=
  ⟨⟨.steward1, 4294967295, (regs live [(0x80020, 0)]), 3238, by unfold CanReach; decide +kernel, by decide +kernel, by decide +kernel, by decide +kernel, by decide +kernel, by decide +kernel⟩,
   ⟨.steward0, 18, (regs live [(0x80020, 0)]), by unfold CanReach; decide +kernel, by decide +kernel, by decide +kernel, by decide +kernel⟩,
   ⟨(.cluDma 0), 4294967295, live, by unfold CanReach; decide +kernel, by decide +kernel⟩,
   ⟨.acq, (regs live [(0x80050, 2147483648)]), by unfold CanReach; decide +kernel, by decide +kernel, by decide +kernel, by decide +kernel, by decide +kernel, by decide +kernel⟩,
   ⟨.device, (regs live [(0x80040, 2147483648), (0x80050, 2147483648)]), by unfold CanReach; decide +kernel, by decide +kernel, by decide +kernel, by decide +kernel, by decide +kernel, by decide +kernel⟩,
   ⟨(.cluDma 3), 1, (regs live [(0x80050, 2147483648)]), 64, by unfold CanReach; decide +kernel, by decide +kernel, by decide +kernel, by decide +kernel, by decide +kernel, by decide +kernel, by decide +kernel⟩,
   ⟨.host, 18, (regs live [(0x80050, 2147483648)]), by unfold CanReach; decide +kernel, by decide +kernel, by decide +kernel, by decide +kernel, by decide +kernel, by decide +kernel⟩,
   ⟨.device, 4294967291, (regs live [(0x80048, 16384), (0x8004C, 128), (0x80050, 2147483648)]), 0, (-8388608), by unfold CanReach; decide +kernel, by decide +kernel, by decide +kernel, by decide +kernel, by decide +kernel, by decide +kernel, by decide +kernel, by decide +kernel⟩,
   ⟨.device, 3, (regs live [(0x80050, 2147483648)]), by unfold CanReach; decide +kernel, by decide +kernel, by decide +kernel, by decide +kernel, by decide +kernel, by decide +kernel, by decide +kernel⟩,
   ⟨.transmit, 51, live, by unfold CanReach; decide +kernel, by decide +kernel, by decide +kernel, by decide +kernel⟩⟩

theorem witness_MotionCommands :
    (∃ (m : Master) (w : W32) (s : State) (d : Nat), CanReach m s Reg.MOTION_CMD.addr ∧ roleBars s m = false ∧ wbits Reg.MOTION_CMD_OP w = (10) ∧ (mot s (selCh s)).cmd = none ∧ d ≠ selCh s) ∧
    (∃ (m : Master) (w : W32) (s : State), CanReach m s Reg.MOTION_CMD.addr ∧ roleBars s m = false ∧ wbits Reg.MOTION_CMD_OP w = (4) ∧ (mot s (selCh s)).cmd = none ∧ 1055 < selCh s) ∧
    (∃ (m : Master) (w : W32) (s : State), CanReach m s Reg.MOTION_CMD.addr ∧ roleBars s m = false ∧ wbits Reg.MOTION_CMD_OP w = (5) ∧ (mot s (selCh s)).cmd = none ∧ selCh s ≤ 1055 ∧ motEn s (selCh s) = false) ∧
    (∃ (m : Master) (w : W32) (s : State), CanReach m s Reg.MOTION_CMD.addr ∧ roleBars s m = false ∧ wbits Reg.MOTION_CMD_OP w = (1) ∧ (mot s (selCh s)).cmd = none ∧ selCh s ≤ 1055 ∧ motEn s (selCh s) = true ∧ 3 ≤ (mot s (selCh s)).st ∧ (1) < 9) ∧
    (∃ (m : Master) (w : W32) (s : State), CanReach m s Reg.MOTION_CMD.addr ∧ roleBars s m = false ∧ wbits Reg.MOTION_CMD_OP w = (4) ∧ (mot s (selCh s)).cmd = none ∧ selCh s ≤ 1055 ∧ motEn s (selCh s) = true ∧ (mot s (selCh s)).lost = true ∧ (mot s (selCh s)).st < 3 ∧ (4) ∈ [4, 5, 8]) ∧
    (∃ (m : Master) (w : W32) (s : State), CanReach m s Reg.MOTION_CMD.addr ∧ roleBars s m = false ∧ wbits Reg.MOTION_CMD_OP w = (9) ∧ (mot s (selCh s)).cmd = none ∧ selCh s ≤ 1055 ∧ motEn s (selCh s) = true ∧ (mot s (selCh s)).lost = false ∧ (mot s (selCh s)).st < 3 ∧ (¬(4 ≤ (mot s (selCh s)).st ∧ (mot s (selCh s)).lost = true))) ∧
    (∃ (m : Master) (w : W32) (s : State), CanReach m s Reg.MOTION_CMD.addr ∧ roleBars s m = false ∧ wbits Reg.MOTION_CMD_OP w = (7) ∧ (mot s (selCh s)).cmd = none ∧ selCh s ≤ 1055 ∧ motEn s (selCh s) = true ∧ ((mot s (selCh s)).st = 2) ∧ (True) ∧ rd64 s Reg.MOTION_CMD_AT_LO_CYCLE Reg.MOTION_CMD_AT_HI_CYCLE ≠ 0 ∧ rd64 s Reg.MOTION_CMD_AT_LO_CYCLE Reg.MOTION_CMD_AT_HI_CYCLE < s.sched.cycle + motLead s) ∧
    (∃ (m : Master) (w : W32) (s : State), CanReach m s Reg.MOTION_CMD.addr ∧ roleBars s m = false ∧ wbits Reg.MOTION_CMD_OP w = (2) ∧ (mot s (selCh s)).cmd = none ∧ selCh s ≤ 1055 ∧ motEn s (selCh s) = true ∧ ((motSrc s (selCh s) = 0 ∧ (mot s (selCh s)).st ≤ 1 ∨ motSrc s (selCh s) = 2 ∧ (mot s (selCh s)).st = 0)) ∧ (True) ∧ (rd64 s Reg.MOTION_CMD_AT_LO_CYCLE Reg.MOTION_CMD_AT_HI_CYCLE = 0 ∨ s.sched.cycle + motLead s ≤ rd64 s Reg.MOTION_CMD_AT_LO_CYCLE Reg.MOTION_CMD_AT_HI_CYCLE)) :=
  ⟨⟨.dmaEngine, 3079242650, (regs live [(0x81040, 2)]), 0, by unfold CanReach; decide +kernel, by decide +kernel, by decide +kernel, by decide +kernel, by decide +kernel⟩,
   ⟨.receive, 4, (regs live [(0x81040, 1056)]), by unfold CanReach; decide +kernel, by decide +kernel, by decide +kernel, by decide +kernel, by decide +kernel⟩,
   ⟨.host, 1334580453, live, by unfold CanReach; decide +kernel, by decide +kernel, by decide +kernel, by decide +kernel, by decide +kernel, by decide +kernel⟩,
   ⟨.dmaEngine, 65537, { live with mots := [(0, { st := 4 })], motRec := [(0x0, 1)] }, by unfold CanReach; decide +kernel, by decide +kernel, by decide +kernel, by decide +kernel, by decide +kernel, by decide +kernel, by decide +kernel, by decide +kernel⟩,
   ⟨.dmaEngine, 4, { live with mots := [(0, { act := true, lost := true })], motRec := [(0x10, 1)] }, by unfold CanReach; decide +kernel, by decide +kernel, by decide +kernel, by decide +kernel, by decide +kernel, by decide +kernel, by decide +kernel, by decide +kernel, by decide +kernel⟩,
   ⟨.host, 9, { live with motRec := [(0x0, 1)] }, by unfold CanReach; decide +kernel, by decide +kernel, by decide +kernel, by decide +kernel, by decide +kernel, by decide +kernel, by decide +kernel, by decide +kernel, by decide +kernel⟩,
   ⟨.acq, 7, { (regs live [(0x81048, 8)]) with sched := { cycle := 9 }, mots := [(0, { st := 2 })], motRec := [(0x0, 1)] }, by unfold CanReach; decide +kernel, by decide +kernel, by decide +kernel, by decide +kernel, by decide +kernel, by decide +kernel, by decide +kernel, by decide +kernel, by decide +kernel, by decide +kernel⟩,
   ⟨.acq, 2, { live with motRec := [(0x0, 1)] }, by unfold CanReach; decide +kernel, by decide +kernel, by decide +kernel, by decide +kernel, by decide +kernel, by decide +kernel, by decide +kernel, by decide +kernel, by decide +kernel⟩⟩

theorem witness_MotionRecordsAndStops :
    (∃ (m : Master) (s : State) (i : Fin 16) (d : Nat) (g : Nat) (j : Nat), CanReach m s Reg.MOTION_CMD.addr ∧ roleBars s m = false ∧ s.commit = none ∧ selCh s ≤ 1055 ∧ on s Reg.MOTION_SEL_VIEW = false ∧ j < 16 ∧ g < 2 ∧ (d, g, j) ≠ (selCh s, 1 - b2n (mot s (selCh s)).act, i.val)) ∧
    (∃ (m : Master) (w : W32) (s : State) (j : Nat), CanReach m s Reg.MOTION_CMD.addr ∧ roleBars s m = false ∧ s.commit = none ∧ wbits Reg.MOTION_CMD_OP w = 15 ∧ selCh s ≤ 1055 ∧ j < 16) ∧
    (∃ (m : Master) (w : W32) (s : State), CanReach m s Reg.MOTION_CMD.addr ∧ roleBars s m = false ∧ s.commit = none ∧ wbits Reg.MOTION_STOP_GRADE w ≠ 0) ∧
    (∃ (m : Master) (w : W32) (s : State), CanReach m s Reg.MOTION_CMD.addr ∧ roleBars s m = false ∧ s.commit = none ∧ wbits Reg.MOTION_HALT_HALT w = 1) ∧
    (∃ (m : Master) (w : W32) (s : State) (k : Nat), CanReach m s Reg.MOTION_CMD.addr ∧ roleBars s m = false ∧ s.commit = none ∧ k = wbits Reg.MOTION_STOP_CLR_CH w ∧ (∃ d ∈ groupOf s k, (mot s d).lost = true ∨ (mot s d).st = 3)) ∧
    (∃ (m : Master) (w : W32) (s : State) (k : Nat), CanReach m s Reg.MOTION_CMD.addr ∧ roleBars s m = false ∧ s.commit = none ∧ k = wbits Reg.MOTION_STOP_CLR_CH w ∧ (∀ d ∈ groupOf s k, (mot s d).lost = false ∧ (mot s d).st ≠ 3)) :=
  ⟨⟨.transmit, live, 10, 1056, 0, 3, by unfold CanReach; decide +kernel, by decide +kernel, by decide +kernel, by decide +kernel, by decide +kernel, by decide +kernel, by decide +kernel, by decide +kernel⟩,
   ⟨.receive, 197663, live, 0, by unfold CanReach; decide +kernel, by decide +kernel, by decide +kernel, by decide +kernel, by decide +kernel, by decide +kernel⟩,
   ⟨.safetyProc, 4294967293, live, by unfold CanReach; decide +kernel, by decide +kernel, by decide +kernel, by decide +kernel⟩,
   ⟨(.cluDma 3), 131075, live, by unfold CanReach; decide +kernel, by decide +kernel, by decide +kernel, by decide +kernel⟩,
   ⟨.host, 16384, { live with mots := [(0, { lost := true })], motRec := [(0x0, 1)] }, 0, by unfold CanReach; decide +kernel, by decide +kernel, by decide +kernel, by decide +kernel, by decide +kernel⟩,
   ⟨.host, 0, live, 0, by unfold CanReach; decide +kernel, by decide +kernel, by decide +kernel, by decide +kernel, by decide +kernel⟩⟩

theorem witness_WordOperations :
    (∃ (s : State) (e : Fin 64) (d : Fin 32), (eng s e.val).ph = Phase.running ∧ hasDup ((openBundle (eng s e.val)).wrote ++ [wC, wD d]) = false) ∧
    (∃ (s : State) (e : Fin 64), (eng s e.val).ph = Phase.running ∧ hasDup ((openBundle (eng s e.val)).wrote ++ [wC]) = false) :=
  ⟨⟨{ live with engs := [(17, { ph := .running })] }, 17, 7, by decide +kernel, by decide +kernel⟩,
   ⟨{ live with engs := [(0, { ph := .running })] }, 0, by decide +kernel, by decide +kernel⟩⟩

theorem witness_WideOperations :
    (∃ (s : State) (e : Fin 64) (d : Fin 16), (eng s e.val).ph = Phase.running ∧ hasDup ((openBundle (eng s e.val)).wrote ++ [wC, wG d]) = false) ∧
    (∃ (s : State) (e : Fin 64) (D : Fin 32), (eng s e.val).ph = Phase.running ∧ hasDup ((openBundle (eng s e.val)).wrote ++ [wC, wD D]) = false) ∧
    (∃ (s : State) (e : Fin 64), (eng s e.val).ph = Phase.running ∧ hasDup ((openBundle (eng s e.val)).wrote ++ [wC]) = false) ∧
    (∃ (s : State) (e : Fin 64) (d : Fin 16) (D : Fin 32) (d1 : Fin 16), (eng s e.val).ph = Phase.running ∧ d.val % 2 = 0 ∧ d1.val = d.val + 1 ∧ hasDup ((openBundle (eng s e.val)).wrote ++ [wC, wG d, wG d1]) = false ∧ BitVec.toInt (openBundle (eng s e.val)).snap.d[D] ≠ 0) ∧
    (∃ (s : State) (e : Fin 64) (d : Fin 16) (D : Fin 32) (d1 : Fin 16), (eng s e.val).ph = Phase.running ∧ d.val % 2 = 0 ∧ d1.val = d.val + 1 ∧ hasDup ((openBundle (eng s e.val)).wrote ++ [wC, wG d, wG d1]) = false ∧ BitVec.toInt (openBundle (eng s e.val)).snap.d[D] = 0) ∧
    (∃ (s : State) (e : Fin 64) (A5 : Fin 32), (eng s e.val).ph = Phase.running ∧ 15 < A5.val) ∧
    (∃ (s : State) (e : Fin 64) (d : Fin 16), (eng s e.val).ph = Phase.running ∧ d.val % 2 = 1) :=
  ⟨⟨{ live with engs := [(0, { ph := .running })] }, 0, 12, by decide +kernel, by decide +kernel⟩,
   ⟨{ live with engs := [(0, { ph := .running })] }, 0, 22, by decide +kernel, by decide +kernel⟩,
   ⟨{ live with engs := [(0, { ph := .running })] }, 0, by decide +kernel, by decide +kernel⟩,
   ⟨{ live with engs := [(17, { snap := { d := #v[0xff7fffff#32, 0x007fffff#32, 0x00800001#32, 0xfffffff8#32, 0x80000001#32, 0xbc7c62dc#32, 0xfffffff8#32, 0x7fffffff#32, 0x00200000#32, 0x76f594b5#32, 0x007ffffe#32, 0xffffffff#32, 0x0000000f#32, 0xff7ffffe#32, 0x00000000#32, 0xffffffff#32, 0x007ffffe#32, 0x007fffff#32, 0x80000001#32, 0xfffffff9#32, 0x00000004#32, 0x00800000#32, 0xfffffffc#32, 0xff7fffff#32, 0xff7ffffe#32, 0x80000000#32, 0x00000027#32, 0xfffffff7#32, 0x00000000#32, 0x00000200#32, 0x80000000#32, 0x007ffffe#32] }, mid := true, ph := .running })] }, 17, 12, 18, 13, by decide +kernel, by decide +kernel, by decide +kernel, by decide +kernel, by decide +kernel⟩,
   ⟨{ live with engs := [(0, { ph := .running })] }, 0, 8, 22, 9, by decide +kernel, by decide +kernel, by decide +kernel, by decide +kernel, by decide +kernel⟩,
   ⟨{ live with engs := [(17, { ph := .running })] }, 17, 23, by decide +kernel, by decide +kernel⟩,
   ⟨{ live with engs := [(17, { ph := .running })] }, 17, 15, by decide +kernel, by decide +kernel⟩⟩

theorem witness_ExponentsAndConversions_1 :
    (∃ (ws : List Int) (w : Int), (∀ w ∈ ws, w.natAbs ≤ 2 ^ 31) ∧ w ∈ ws) ∧
    (∃ (ws : List Int) (k : Int), (∀ w ∈ ws, w.natAbs ≤ 2 ^ 31) ∧ normK ws < k ∧ k ≤ 22) ∧
    (∃ (s : State) (e : Fin 64) (k : Fin 8), (eng s e.val).ph = Phase.running ∧ hasDup ((openBundle (eng s e.val)).wrote ++ [wC, wEx k]) = false) ∧
    (∃ (s : State) (e : Fin 64) (d : Fin 32) (i : Fin 8) (j : Fin 8) (v : Int), (eng s e.val).ph = Phase.running ∧ hasDup ((openBundle (eng s e.val)).wrote ++ [wC, wD d]) = false ∧ (v = shiftRnd (BitVec.toInt (openBundle (eng s e.val)).snap.d[d]) ((fun n => (openBundle (eng s e.val)).snap.ex[n].toInt) i - (fun n => (openBundle (eng s e.val)).snap.ex[n].toInt) j))) ∧
    (∃ (s : State) (e : Fin 64) (d : Fin 32) (ac : Fin 4) (sh : BitVec 5) (s24 : Bool) (v : Int) (n : Int), (eng s e.val).ph = Phase.running ∧ hasDup ((openBundle (eng s e.val)).wrote ++ [wC, wD d]) = false ∧ (n = if s24 = true then 2 ^ 23 else 2 ^ 31) ∧ v = Machine.rnd (BitVec.toInt (openBundle (eng s e.val)).snap.ac[ac]) (23 + sh.toInt).toNat) ∧
    (∃ (s : State) (e : Fin 64) (d : Fin 32), (eng s e.val).ph = Phase.running ∧ hasDup ((openBundle (eng s e.val)).wrote ++ [wC, wD d]) = false ∧ BitVec.toInt (openBundle (eng s e.val)).snap.d[d] = 0) ∧
    (∃ (s : State) (e : Fin 64) (d : Fin 32) (k : Fin 8) (g : Fin 16), (eng s e.val).ph = Phase.running ∧ hasDup ((openBundle (eng s e.val)).wrote ++ [wC, wD d, wEx k]) = false ∧ BitVec.toInt (openBundle (eng s e.val)).snap.g[g] = 0) ∧
    (∃ (s : State) (e : Fin 64) (d : Fin 32) (k : Fin 8) (g : Fin 16), (eng s e.val).ph = Phase.running ∧ hasDup ((openBundle (eng s e.val)).wrote ++ [wC, wD d, wEx k]) = false ∧ BitVec.toInt (openBundle (eng s e.val)).snap.g[g] ≠ 0) ∧
    (∃ (s : State) (e : Fin 64) (d : Fin 32) (k : Fin 8), (eng s e.val).ph = Phase.running ∧ hasDup ((openBundle (eng s e.val)).wrote ++ [wC, wD d, wEx k]) = false ∧ BitVec.toInt (openBundle (eng s e.val)).snap.d[d] = 0) ∧
    (∃ (s : State) (e : Fin 64) (d : Fin 32) (i : Fin 8) (j : Fin 8) (g : Fin 16) (v : Int), (eng s e.val).ph = Phase.running ∧ hasDup ((openBundle (eng s e.val)).wrote ++ [wC, wG g]) = false ∧ (v = shiftRnd (BitVec.toInt (openBundle (eng s e.val)).snap.d[d]) ((fun n => (openBundle (eng s e.val)).snap.ex[n].toInt) i - (fun n => (openBundle (eng s e.val)).snap.ex[n].toInt) j - 23))) ∧
    (∃ (s : State) (e : Fin 64) (d : Fin 32) (k : Fin 8) (c : Fin 8) (q : Fin 32), (eng s e.val).ph = Phase.running ∧ d.val + c.val ≤ 31 ∧ hasDup ((openBundle (eng s e.val)).wrote ++ wC :: wEx k :: List.map wD (List.map (dAt d) (List.range (c.val + 1)))) = false ∧ (∀ w ∈ List.map (fun q => BitVec.toInt (openBundle (eng s e.val)).snap.d[q]) (List.map (dAt d) (List.range (c.val + 1))), w = 0) ∧ q ∈ List.map (dAt d) (List.range (c.val + 1))) ∧
    (∃ (s : State) (e : Fin 64) (d : Fin 32) (k : Fin 8) (c : Fin 8) (q : Fin 32), (eng s e.val).ph = Phase.running ∧ d.val + c.val ≤ 31 ∧ hasDup ((openBundle (eng s e.val)).wrote ++ wC :: wEx k :: List.map wD (List.map (dAt d) (List.range (c.val + 1)))) = false ∧ (∃ w ∈ List.map (fun q => BitVec.toInt (openBundle (eng s e.val)).snap.d[q]) (List.map (dAt d) (List.range (c.val + 1))), w ≠ 0) ∧ (-128 ≤ (fun n => (openBundle (eng s e.val)).snap.ex[n].toInt) k - normK (List.map (fun q => BitVec.toInt (openBundle (eng s e.val)).snap.d[q]) (List.map (dAt d) (List.range (c.val + 1))))) ∧ ((fun n => (openBundle (eng s e.val)).snap.ex[n].toInt) k - normK (List.map (fun q => BitVec.toInt (openBundle (eng s e.val)).snap.d[q]) (List.map (dAt d) (List.range (c.val + 1)))) ≤ 127) ∧ q ∈ List.map (dAt d) (List.range (c.val + 1))) :=
  ⟨⟨[(8388608)], (8388608), by decide +kernel, by decide +kernel⟩,
   ⟨[(-1697858416), (7)], (-2), by decide +kernel, by decide +kernel, by decide +kernel⟩,
   ⟨{ live with engs := [(17, { ph := .running })] }, 17, 3, by decide +kernel, by decide +kernel⟩,
   ⟨{ live with engs := [(0, { ph := .running })] }, 0, 19, 5, 7, (0), by decide +kernel, by decide +kernel, by decide +kernel⟩,
   ⟨{ live with engs := [(0, { ph := .running })] }, 0, 10, 3, 0, true, (0), (8388608), by decide +kernel, by decide +kernel, by decide +kernel, by decide +kernel⟩,
   ⟨{ live with engs := [(17, { ph := .running })] }, 17, 27, by decide +kernel, by decide +kernel, by decide +kernel⟩,
   ⟨{ live with engs := [(17, { ph := .running })] }, 17, 5, 2, 11, by decide +kernel, by decide +kernel, by decide +kernel⟩,
   ⟨{ live with engs := [(17, { snap := { g := #v[0x000000000000001e#64, 0xffffffffffffffe6#64, 0xffffffffffffffe6#64, 0x000000000000002a#64, 0xffffffffffffffd3#64, 0x0000000000000028#64, 0x0000000000000017#64, 0xffffffffffffffff#64, 0xfffffffffffffffa#64, 0xffffffffffffffff#64, 0xffffffffffffffd3#64, 0x0000000000000010#64, 0x0000000000000011#64, 0x8a5ceca2365485db#64, 0xa82a6521ac9b838b#64, 0x0000000000000005#64] }, mid := true, ph := .running })] }, 17, 13, 2, 8, by decide +kernel, by decide +kernel, by decide +kernel⟩,
   ⟨{ live with engs := [(17, { ph := .running })] }, 17, 22, 4, by decide +kernel, by decide +kernel, by decide +kernel⟩,
   ⟨{ live with engs := [(17, { r := { d := #v[0xff7fffff#32, 0xffffffff#32, 0x00000018#32, 0x00000009#32, 0xff7ffffe#32, 0xff800000#32, 0xff800000#32, 0x7ffffffe#32, 0x0000000b#32, 0xff7ffffe#32, 0x00000023#32, 0xff800001#32, 0x00000028#32, 0x00800000#32, 0xb59d8bd9#32, 0x00800000#32, 0xfffffffc#32, 0xff7ffffe#32, 0x00800001#32, 0xfffffffd#32, 0x38438b44#32, 0x5e5a326a#32, 0xd9986c87#32, 0x0000001a#32, 0x00800001#32, 0x00800000#32, 0x2a27b59d#32, 0x007fffff#32, 0x80000001#32, 0x80000001#32, 0xff800001#32, 0x00000022#32] }, ph := .running })] }, 17, 0, 6, 6, 0, (-1), by decide +kernel, by decide +kernel, by decide +kernel⟩,
   ⟨{ live with engs := [(0, { ph := .running })] }, 0, 7, 0, 0, 7, by decide +kernel, by decide +kernel, by decide +kernel, by decide +kernel, by decide +kernel⟩,
   ⟨{ live with engs := [(0, { r := { d := #v[0xfffffff9#32, 0x00800000#32, 0xff800000#32, 0x0000001f#32, 0x00000000#32, 0xff7fffff#32, 0x00800001#32, 0x00000023#32, 0xff800000#32, 0xff800000#32, 0x678a4b4f#32, 0x00800001#32, 0xff7fffff#32, 0xff7fffff#32, 0x0000001c#32, 0xff800000#32, 0x80000001#32, 0xfffffffa#32, 0xff800000#32, 0xc64aba9f#32, 0xff7fffff#32, 0xfffffffb#32, 0xff7ffffe#32, 0xff800000#32, 0x00000026#32, 0x00800000#32, 0xfffffff9#32, 0x00800000#32, 0x00000008#32, 0x00800001#32, 0xfffffffd#32, 0x007fffff#32] }, ph := .running })] }, 0, 11, 2, 1, 11, by decide +kernel, by decide +kernel, by decide +kernel, by decide +kernel, by decide +kernel, by decide +kernel, by decide +kernel⟩⟩

theorem witness_ExponentsAndConversions_2 :
    (∃ (s : State) (e : Fin 64) (d : Fin 32) (k : Fin 8) (c : Fin 8) (q : Fin 32), (eng s e.val).ph = Phase.running ∧ d.val + c.val ≤ 31 ∧ hasDup ((openBundle (eng s e.val)).wrote ++ wC :: wEx k :: List.map wD (List.map (dAt d) (List.range (c.val + 1)))) = false ∧ (∃ w ∈ List.map (fun q => BitVec.toInt (openBundle (eng s e.val)).snap.d[q]) (List.map (dAt d) (List.range (c.val + 1))), w ≠ 0) ∧ (-128 ≤ (fun n => (openBundle (eng s e.val)).snap.ex[n].toInt) k - normK (List.map (fun q => BitVec.toInt (openBundle (eng s e.val)).snap.d[q]) (List.map (dAt d) (List.range (c.val + 1))))) ∧ ((fun n => (openBundle (eng s e.val)).snap.ex[n].toInt) k - normK (List.map (fun q => BitVec.toInt (openBundle (eng s e.val)).snap.d[q]) (List.map (dAt d) (List.range (c.val + 1)))) ≤ 127) ∧ q ∉ List.map (dAt d) (List.range (c.val + 1))) :=
  ⟨{ live with engs := [(17, { snap := { d := #v[0xff800000#32, 0x00000006#32, 0xffffffff#32, 0x0000001e#32, 0xfffffffd#32, 0xfffffff9#32, 0xfffffffb#32, 0xfffffffe#32, 0x00000000#32, 0xfffffffb#32, 0x00000040#32, 0x00000015#32, 0x7fffffff#32, 0x7fffffff#32, 0x007ffffe#32, 0x0000000f#32, 0x00800000#32, 0x00800000#32, 0x00800001#32, 0x7ffffffe#32, 0xfffffffa#32, 0xff7fffff#32, 0xffffffff#32, 0xff800000#32, 0xff7ffffe#32, 0x80000000#32, 0xfffffff7#32, 0x7fffffff#32, 0xff7fffff#32, 0xff800001#32, 0xff7ffffe#32, 0xfffffffd#32] }, mid := true, ph := .running })] }, 17, 28, 0, 1, 18, by decide +kernel, by decide +kernel, by decide +kernel, by decide +kernel, by decide +kernel, by decide +kernel, by decide +kernel⟩

theorem witness_MultiplyAccumulate :
    (∃ (s : State) (e : Fin 64) (mode : Fin 4) (sum : Fin 4) (dx : Fin 32) (dy : Fin 32) (g : Fin 4) (v : Int) (c : Fin 4), (eng s e.val).ph = Phase.running ∧ (sum = 1 ∧ g = 0 ∨ sum = 2 ∧ g = 1) ∧ hasDup ((openBundle (eng s e.val)).wrote ++ [wM, wAc g]) = false ∧ (mode = 0 ∧ dy.val ≤ 28 ∧ v = (fun i => max (-2 ^ 23) (min (2 ^ 23 - 1) (BitVec.toInt (openBundle (eng s e.val)).snap.d[i % 32]))) dx.val * (fun i => max (-2 ^ 23) (min (2 ^ 23 - 1) (BitVec.toInt (openBundle (eng s e.val)).snap.d[i % 32]))) dy.val + (fun i => max (-2 ^ 23) (min (2 ^ 23 - 1) (BitVec.toInt (openBundle (eng s e.val)).snap.d[i % 32]))) dx.val * (fun i => max (-2 ^ 23) (min (2 ^ 23 - 1) (BitVec.toInt (openBundle (eng s e.val)).snap.d[i % 32]))) (dy.val + 1) + (fun i => max (-2 ^ 23) (min (2 ^ 23 - 1) (BitVec.toInt (openBundle (eng s e.val)).snap.d[i % 32]))) dx.val * (fun i => max (-2 ^ 23) (min (2 ^ 23 - 1) (BitVec.toInt (openBundle (eng s e.val)).snap.d[i % 32]))) (dy.val + 2) + (fun i => max (-2 ^ 23) (min (2 ^ 23 - 1) (BitVec.toInt (openBundle (eng s e.val)).snap.d[i % 32]))) dx.val * (fun i => max (-2 ^ 23) (min (2 ^ 23 - 1) (BitVec.toInt (openBundle (eng s e.val)).snap.d[i % 32]))) (dy.val + 3) ∨ mode = 1 ∧ dx.val ≤ 28 ∧ v = (fun i => max (-2 ^ 23) (min (2 ^ 23 - 1) (BitVec.toInt (openBundle (eng s e.val)).snap.d[i % 32]))) dx.val * (fun i => max (-2 ^ 23) (min (2 ^ 23 - 1) (BitVec.toInt (openBundle (eng s e.val)).snap.d[i % 32]))) dy.val + (fun i => max (-2 ^ 23) (min (2 ^ 23 - 1) (BitVec.toInt (openBundle (eng s e.val)).snap.d[i % 32]))) (dx.val + 1) * (fun i => max (-2 ^ 23) (min (2 ^ 23 - 1) (BitVec.toInt (openBundle (eng s e.val)).snap.d[i % 32]))) dy.val + (fun i => max (-2 ^ 23) (min (2 ^ 23 - 1) (BitVec.toInt (openBundle (eng s e.val)).snap.d[i % 32]))) (dx.val + 2) * (fun i => max (-2 ^ 23) (min (2 ^ 23 - 1) (BitVec.toInt (openBundle (eng s e.val)).snap.d[i % 32]))) dy.val + (fun i => max (-2 ^ 23) (min (2 ^ 23 - 1) (BitVec.toInt (openBundle (eng s e.val)).snap.d[i % 32]))) (dx.val + 3) * (fun i => max (-2 ^ 23) (min (2 ^ 23 - 1) (BitVec.toInt (openBundle (eng s e.val)).snap.d[i % 32]))) dy.val ∨ mode = 2 ∧ dx.val ≤ 30 ∧ dy.val ≤ 30 ∧ v = (fun i => max (-2 ^ 23) (min (2 ^ 23 - 1) (BitVec.toInt (openBundle (eng s e.val)).snap.d[i % 32]))) dx.val * (fun i => max (-2 ^ 23) (min (2 ^ 23 - 1) (BitVec.toInt (openBundle (eng s e.val)).snap.d[i % 32]))) dy.val + (fun i => max (-2 ^ 23) (min (2 ^ 23 - 1) (BitVec.toInt (openBundle (eng s e.val)).snap.d[i % 32]))) dx.val * (fun i => max (-2 ^ 23) (min (2 ^ 23 - 1) (BitVec.toInt (openBundle (eng s e.val)).snap.d[i % 32]))) (dy.val + 1) + (fun i => max (-2 ^ 23) (min (2 ^ 23 - 1) (BitVec.toInt (openBundle (eng s e.val)).snap.d[i % 32]))) (dx.val + 1) * (fun i => max (-2 ^ 23) (min (2 ^ 23 - 1) (BitVec.toInt (openBundle (eng s e.val)).snap.d[i % 32]))) dy.val + (fun i => max (-2 ^ 23) (min (2 ^ 23 - 1) (BitVec.toInt (openBundle (eng s e.val)).snap.d[i % 32]))) (dx.val + 1) * (fun i => max (-2 ^ 23) (min (2 ^ 23 - 1) (BitVec.toInt (openBundle (eng s e.val)).snap.d[i % 32]))) (dy.val + 1)) ∧ c ∉ [g]) ∧
    (∃ (s : State) (e : Fin 64) (k : Fin 4) (n : Fin 4) (dx : Fin 32) (dy : Fin 32) (v : Int) (c : Fin 4), (eng s e.val).ph = Phase.running ∧ dx.val + n.val ≤ 31 ∧ dy.val + n.val ≤ 31 ∧ hasDup ((openBundle (eng s e.val)).wrote ++ [wM, wAc k]) = false ∧ (v = (List.map (fun i => (fun i => max (-2 ^ 23) (min (2 ^ 23 - 1) (BitVec.toInt (openBundle (eng s e.val)).snap.d[i % 32]))) (dx.val + i) * (fun i => max (-2 ^ 23) (min (2 ^ 23 - 1) (BitVec.toInt (openBundle (eng s e.val)).snap.d[i % 32]))) (dy.val + i)) (List.range (n.val + 1))).sum) ∧ c ∉ [k]) ∧
    (∃ (s : State) (e : Fin 64) (k : Fin 4) (a : Fin 4) (sh : BitVec 6) (v : Int) (c : Fin 4), (eng s e.val).ph = Phase.running ∧ hasDup ((openBundle (eng s e.val)).wrote ++ [wM, wAc k]) = false ∧ (v = shiftRnd (BitVec.toInt (openBundle (eng s e.val)).snap.ac[a]) (-sh.toInt)) ∧ c ∉ [k]) ∧
    (∃ (s : State) (e : Fin 64) (k : Fin 4) (n : Fin 4) (q : Fin 4) (px : Fin 8) (py : Fin 8) (c : Fin 4), (eng s e.val).ph = Phase.running ∧ px.val = n.val ∧ py.val = q.val + 4 ∧ hasDup ((openBundle (eng s e.val)).wrote ++ [wM, wXY false, wXY true, wAc k, 64 + px.val, 64 + py.val]) = false ∧ c ≠ k) ∧
    (∃ (s : State) (e : Fin 64) (k : Fin 4) (n : Fin 4) (q : Fin 4) (px : Fin 8) (py : Fin 8) (c : Fin 8), (eng s e.val).ph = Phase.running ∧ px.val = n.val ∧ py.val = q.val + 4 ∧ hasDup ((openBundle (eng s e.val)).wrote ++ [wM, wXY false, wXY true, wAc k, 64 + px.val, 64 + py.val]) = false ∧ c ≠ px ∧ c ≠ py) ∧
    (∃ (s : State) (e : Fin 64) (k : Fin 4) (n : Fin 4) (q : Fin 4) (px : Fin 8) (py : Fin 8), (eng s e.val).ph = Phase.running ∧ px.val = n.val ∧ py.val = q.val + 4 ∧ hasDup ((openBundle (eng s e.val)).wrote ++ [wM, wXY false, wXY true, wAc k, 64 + px.val, 64 + py.val]) = false ∧ (openBundle (eng s e.val)).snap.p[px].l = 0#11) ∧
    (∃ (s : State) (e : Fin 64) (k : Fin 4) (n : Fin 4) (q : Fin 4) (px : Fin 8) (py : Fin 8), (eng s e.val).ph = Phase.running ∧ px.val = n.val ∧ py.val = q.val + 4 ∧ hasDup ((openBundle (eng s e.val)).wrote ++ [wM, wXY false, wXY true, wAc k, 64 + px.val, 64 + py.val]) = false ∧ (openBundle (eng s e.val)).snap.p[py].l = 0#11) ∧
    (∃ (s : State) (e : Fin 64) (mode : Fin 4) (dx : Fin 32) (dy : Fin 32), (eng s e.val).ph = Phase.running ∧ (mode = 3 ∨ mode = 0 ∧ 28 < dy.val ∨ mode = 1 ∧ 28 < dx.val ∨ mode = 2 ∧ (dx.val = 31 ∨ dy.val = 31))) ∧
    (∃ (s : State) (e : Fin 64) (n : Fin 4) (dx : Fin 32) (dy : Fin 32), (eng s e.val).ph = Phase.running ∧ (31 < dx.val + n.val ∨ 31 < dy.val + n.val)) :=
  ⟨⟨{ live with engs := [(0, { ph := .running })] }, 0, 2, 2, 30, 28, 1, (0), 0, by decide +kernel, by decide +kernel, by decide +kernel, by decide +kernel, by decide +kernel⟩,
   ⟨{ live with engs := [(17, { ph := .running })] }, 17, 2, 2, 4, 20, (0), 0, by decide +kernel, by decide +kernel, by decide +kernel, by decide +kernel, by decide +kernel, by decide +kernel⟩,
   ⟨{ live with engs := [(17, { ph := .running })] }, 17, 2, 0, 10, (0), 1, by decide +kernel, by decide +kernel, by decide +kernel, by decide +kernel⟩,
   ⟨{ live with engs := [(17, { ph := .running })] }, 17, 1, 1, 1, 1, 5, 2, by decide +kernel, by decide +kernel, by decide +kernel, by decide +kernel, by decide +kernel⟩,
   ⟨{ live with engs := [(0, { ph := .running })] }, 0, 0, 3, 3, 3, 7, 1, by decide +kernel, by decide +kernel, by decide +kernel, by decide +kernel, by decide +kernel, by decide +kernel⟩,
   ⟨{ live with engs := [(17, { ph := .running })] }, 17, 0, 3, 3, 3, 7, by decide +kernel, by decide +kernel, by decide +kernel, by decide +kernel, by decide +kernel⟩,
   ⟨{ live with engs := [(17, { ph := .running })] }, 17, 3, 0, 0, 0, 4, by decide +kernel, by decide +kernel, by decide +kernel, by decide +kernel, by decide +kernel⟩,
   ⟨{ live with engs := [(17, { ph := .running })] }, 17, 3, 0, 28, by decide +kernel, by decide +kernel⟩,
   ⟨{ live with engs := [(0, { ph := .running })] }, 0, 3, 15, 30, by decide +kernel, by decide +kernel⟩⟩

theorem witness_LocalAndClusterMemory_1 :
    (∃ (p : Ptr), p.l = 0#11) ∧
    (∃ (p : Ptr), p.l ≠ 0#11) ∧
    (∃ (s : State) (e : Fin 64) (y : Bool) (p : Fin 4) (md : Fin 4) (dn : Fin 32) (k : Fin 8), (eng s e.val).ph = Phase.running ∧ k.val = p.val + 4 * b2n y ∧ (hasDup ((openBundle (eng s e.val)).wrote ++ ([wXY y, wD dn] ++ if md = 0 then [] else [64 + k.val])) = false)) ∧
    (∃ (s : State) (e : Fin 64) (y : Bool) (p : Fin 4) (md : Fin 4) (dn : Fin 32) (k : Fin 8) (d1 : Fin 32), (eng s e.val).ph = Phase.running ∧ k.val = p.val + 4 * b2n y ∧ d1.val = dn.val + 1 ∧ (hasDup ((openBundle (eng s e.val)).wrote ++ ([wXY y, wD dn, wD d1] ++ if md = 0 then [] else [64 + k.val])) = false)) ∧
    (∃ (s : State) (e : Fin 64) (y : Bool) (p : Fin 4) (md : Fin 4) (dn : Fin 32) (k : Fin 8) (d1 : Fin 32), (eng s e.val).ph = Phase.running ∧ k.val = p.val + 4 * b2n y ∧ (hasDup ((openBundle (eng s e.val)).wrote ++ wXY y :: if md = 0 then [] else [64 + k.val]) = false) ∧ d1.val = dn.val + 1) ∧
    (∃ (s : State) (e : Fin 64) (dn : Fin 32) (a : Fin 32) (b : Fin 32) (n : Nat), (eng s e.val).ph = Phase.running ∧ (n = 4 ∨ n = 8) ∧ BitVec.toNat (openBundle (eng s e.val)).snap.d[a] + n * b.val < 2 ^ 18 ∧ n = 4 ∧ hasDup ((openBundle (eng s e.val)).wrote ++ [wC, wD dn]) = false) ∧
    (∃ (s : State) (e : Fin 64) (a : Fin 32) (b : Fin 32) (g : Fin 16) (n : Nat), (eng s e.val).ph = Phase.running ∧ (n = 4 ∨ n = 8) ∧ BitVec.toNat (openBundle (eng s e.val)).snap.d[a] + n * b.val < 2 ^ 18 ∧ n = 8 ∧ hasDup ((openBundle (eng s e.val)).wrote ++ [wC, wG g]) = false) ∧
    (∃ (s : State) (e : Fin 64) (a : Fin 32) (b : Fin 32) (n : Nat), (eng s e.val).ph = Phase.running ∧ (n = 4 ∨ n = 8) ∧ BitVec.toNat (openBundle (eng s e.val)).snap.d[a] + n * b.val < 2 ^ 18 ∧ hasDup ((openBundle (eng s e.val)).wrote ++ [wC]) = false ∧ n = 4) ∧
    (∃ (s : State) (e : Fin 64) (a : Fin 32) (b : Fin 32) (n : Nat), (eng s e.val).ph = Phase.running ∧ (n = 4 ∨ n = 8) ∧ BitVec.toNat (openBundle (eng s e.val)).snap.d[a] + n * b.val < 2 ^ 18 ∧ hasDup ((openBundle (eng s e.val)).wrote ++ [wC]) = false ∧ n = 8) ∧
    (∃ (s : State) (e : Fin 64) (last : Bool) (dn : Fin 32) (a : Fin 32) (b : Fin 32) (g : Fin 16) (n : Nat) (i : Instr × List Nat), (eng s e.val).ph = Phase.running ∧ (n = 4 ∨ n = 8) ∧ 2 ^ 18 ≤ BitVec.toNat (openBundle (eng s e.val)).snap.d[a] + n * b.val ∧ (i ∈ if n = 4 then [(Instr.ldc e dn a b last, [wC, wD dn]), (Instr.stc e dn a b last, [wC])] else [(Instr.ldcg e g a b last, [wC, wG g]), (Instr.stcg e g a b last, [wC])])) ∧
    (∃ (s : State) (e : Fin 64) (k : Fin 8) (k5 : Fin 32), (eng s e.val).ph = Phase.running ∧ k5.val = k.val ∧ hasDup ((openBundle (eng s e.val)).wrote ++ [wC, 64 + k.val]) = false) ∧
    (∃ (s : State) (e : Fin 64) (k : Fin 8) (k5 a : Fin 32) (last : Bool) (f : Instr × LeRegs), ((eng s e.val).ph = Phase.running) ∧ k5.val = k.val ∧ some f = ((fun (s : State) (e : Fin 64) (k : Fin 8) (k5 a : Fin 32) (last : Bool) => ([(Instr.setpa e k5 a last, (fun v => setPtr (openBundle (eng s e.val)).r k v) (have __src := (openBundle (eng s e.val)).r.p[k]; { a := BitVec.ofNat 10 (wrapPtr (openBundle (eng s e.val)).snap.p[k] (BitVec.toInt (openBundle (eng s e.val)).snap.d[a] % 1024)), b := __src.b, l := __src.l, m := __src.m })), (Instr.setpb e k5 a last, (fun v => setPtr (openBundle (eng s e.val)).r k v) (have __src := (openBundle (eng s e.val)).r.p[k]; { a := __src.a, b := BitVec.ofInt 10 (BitVec.toInt (openBundle (eng s e.val)).snap.d[a]), l := __src.l, m := __src.m })), (Instr.setpl e k5 a last, stick ((fun v => setPtr (openBundle (eng s e.val)).r k v) (have __src := (openBundle (eng s e.val)).r.p[k]; { a := __src.a, b := __src.b, l := BitVec.ofInt 11 (max 0 (min 1024 (BitVec.toInt (openBundle (eng s e.val)).snap.d[a]))), m := __src.m })) ccSAT (decide (BitVec.toInt (openBundle (eng s e.val)).snap.d[a] < 0 ∨ 1024 < BitVec.toInt (openBundle (eng s e.val)).snap.d[a]))), (Instr.setpm e k5 a last, stick ((fun v => setPtr (openBundle (eng s e.val)).r k v) (have __src := (openBundle (eng s e.val)).r.p[k]; { a := __src.a, b := __src.b, l := __src.l, m := BitVec.ofInt 8 (max (-128) (min 127 (BitVec.toInt (openBundle (eng s e.val)).snap.d[a]))) })) ccSAT (decide (BitVec.toInt (openBundle (eng s e.val)).snap.d[a] < -128 ∨ 127 < BitVec.toInt (openBundle (eng s e.val)).snap.d[a])))] : List (Instr × LeRegs))) s e k k5 a last)[0]? ∧ 64 + k.val ∈ (openBundle (eng s e.val)).wrote) :=
  ⟨⟨{ a := 23, m := 0 }, by decide +kernel⟩,
   ⟨{ a := 1021, b := 2, l := 2045, m := 2 }, by decide +kernel⟩,
   ⟨{ live with engs := [(17, { ph := .running })] }, 17, true, 2, 0, 30, 6, by decide +kernel, by decide +kernel, by decide +kernel⟩,
   ⟨{ live with engs := [(17, { ph := .running })] }, 17, false, 0, 2, 2, 0, 3, by decide +kernel, by decide +kernel, by decide +kernel, by decide +kernel⟩,
   ⟨{ live with engs := [(0, { ph := .running })] }, 0, false, 1, 3, 6, 1, 7, by decide +kernel, by decide +kernel, by decide +kernel, by decide +kernel⟩,
   ⟨{ live with engs := [(0, { ph := .running })] }, 0, 10, 8, 6, 4, by decide +kernel, by decide +kernel, by decide +kernel, by decide +kernel, by decide +kernel⟩,
   ⟨{ live with engs := [(0, { ph := .running })] }, 0, 11, 5, 1, 8, by decide +kernel, by decide +kernel, by decide +kernel, by decide +kernel, by decide +kernel⟩,
   ⟨{ live with engs := [(17, { ph := .running })] }, 17, 26, 31, 4, by decide +kernel, by decide +kernel, by decide +kernel, by decide +kernel, by decide +kernel⟩,
   ⟨{ live with engs := [(0, { ph := .running })] }, 0, 7, 28, 8, by decide +kernel, by decide +kernel, by decide +kernel, by decide +kernel, by decide +kernel⟩,
   ⟨{ live with engs := [(17, { r := { d := #v[0xff7ffffe#32, 0x80000000#32, 0xff7ffffe#32, 0x00800001#32, 0x80000000#32, 0x0000001b#32, 0x00400000#32, 0xff800000#32, 0x80000000#32, 0x056da422#32, 0x7ffffffe#32, 0xfffffffa#32, 0xff800000#32, 0x00800000#32, 0xff800000#32, 0xff800001#32, 0x00000004#32, 0xfffffffc#32, 0xffffffff#32, 0xff7ffffe#32, 0x00000000#32, 0x7ffffffe#32, 0xff800001#32, 0xff7fffff#32, 0x00000020#32, 0x5117c68e#32, 0xff7ffffe#32, 0x00000023#32, 0xffffffff#32, 0x00800000#32, 0x00000018#32, 0x7ffffffe#32] }, ph := .running })] }, 17, true, 16, 19, 28, 15, 8, ((Sys2Proof.Instr.ldcg 17 15 19 28 true), [103, 63]), by decide +kernel, by decide +kernel, by decide +kernel, by decide +kernel⟩,
   ⟨{ live with engs := [(17, { ph := .running })] }, 17, 4, 4, by decide +kernel, by decide +kernel, by decide +kernel⟩,
   ⟨{ live with engs := [(0, { ph := .running, mid := true, wrote := [64] })] }, 0, 0, 0, 1, true, _, by decide +kernel, rfl, rfl, by decide +kernel⟩⟩

theorem witness_LocalAndClusterMemory_2 :
    (∃ (s : State) (e : Fin 64) (dn : Fin 32) (k : Fin 8) (k5 : Fin 32), (eng s e.val).ph = Phase.running ∧ k5.val = k.val ∧ hasDup ((openBundle (eng s e.val)).wrote ++ [wC, wD dn]) = false) ∧
    (∃ (s : State) (e : Fin 64) (last : Bool) (y : Bool) (p : Fin 4) (md : Fin 4) (dn : Fin 32) (a : Fin 32) (b : Fin 32) (i : Instr), ((eng s e.val).ph = Phase.running) ∧ (dn = 31 ∧ (i = Instr.ld2 e y p dn md last ∨ i = Instr.st2 e y p dn md last) ∨ 7 < b.val ∧ (i = Instr.setpa e b a last ∨ i = Instr.setpb e b a last ∨ i = Instr.setpl e b a last ∨ i = Instr.setpm e b a last ∨ i = Instr.getpa e dn b last) ∨ 1 < b.val ∧ i = Instr.getlc e dn b last)) :=
  ⟨⟨{ live with engs := [(0, { ph := .running })] }, 0, 0, 4, 4, by decide +kernel, by decide +kernel, by decide +kernel⟩,
   ⟨{ live with engs := [(0, { ph := .running })] }, 0, true, false, 0, 0, 31, 0, 0, (Instr.ld2 0 false 0 31 0 true), by decide +kernel, by decide +kernel⟩⟩

theorem witness_BundlesAndLongImmediates_1 :
    (∃ (s : State) (e : Fin 64) (v : BitVec 64), (eng s e.val).ph = Phase.running ∧ v ≠ 0) ∧
    (∃ (s : State) (e : Fin 64), (eng s e.val).ph = Phase.running ∧ hasDup (openBundle (eng s e.val)).wrote = false ∧ (openBundle (eng s e.val)).stores = [] ∧ (openBundle (eng s e.val)).snap.pc < 2047 ∧ (∀ (k : Fin 2), (openBundle (eng s e.val)).r.lc[k].active = true → (openBundle (eng s e.val)).r.lc[k].stop ≠ (openBundle (eng s e.val)).snap.pc)) ∧
    (∃ (s : State) (e : Fin 64), (eng s e.val).ph = Phase.running ∧ hasDup (openBundle (eng s e.val)).wrote = false ∧ (openBundle (eng s e.val)).stores = [] ∧ (openBundle (eng s e.val)).snap.pc = 2047 ∧ (∀ (k : Fin 2), (openBundle (eng s e.val)).r.lc[k].active = true → (openBundle (eng s e.val)).r.lc[k].stop ≠ (openBundle (eng s e.val)).snap.pc)) ∧
    (∃ (s : State) (e : Fin 64) (k : Fin 2), (eng s e.val).ph = Phase.running ∧ hasDup (openBundle (eng s e.val)).wrote = false ∧ (openBundle (eng s e.val)).stores = [] ∧ (openBundle (eng s e.val)).r.lc[k].active = true ∧ (openBundle (eng s e.val)).r.lc[k].stop = (openBundle (eng s e.val)).snap.pc ∧ ((openBundle (eng s e.val)).r.lc[1 - k].active = true → (openBundle (eng s e.val)).r.lc[1 - k].stop ≠ (openBundle (eng s e.val)).snap.pc) ∧ (openBundle (eng s e.val)).r.lc[k].start < 2048 ∧ (openBundle (eng s e.val)).snap.pc < 2047) ∧
    (∃ (s : State) (e : Fin 64) (i : Fin 32), (eng s e.val).ph = Phase.running ∧ i.val < 16) ∧
    (∃ (s : State) (e : Fin 64) (i : Fin 32) (j : Fin 32), (eng s e.val).ph = Phase.running ∧ 16 ≤ i.val ∧ j.val = i.val + 1) ∧
    (∃ (s : State) (e : Fin 64) (y : Bool) (h : Nat) (w : Nat) (v : Nat), (eng s e.val).ph = Phase.running ∧ h < 2 ∧ w < 1024 ∧ v < 2 ^ 32 ∧ hasDup (openBundle (eng s e.val)).wrote = false ∧ (openBundle (eng s e.val)).stores = [(xyAddr (e.val) y h w, leBytes 4 v)] ∧ (openBundle (eng s e.val)).snap.pc < 2047 ∧ (∀ (k : Fin 2), (openBundle (eng s e.val)).r.lc[k].active = false)) ∧
    (∃ (s : State) (e : Fin 64) (d : Fin 32), (eng s e.val).ph = Phase.running ∧ (wC ∈ (openBundle (eng s e.val)).wrote ∨ wD d ∈ (openBundle (eng s e.val)).wrote)) ∧
    (∃ (s : State) (e : Fin 64) (d : Fin 32) (g : Fin 16), (eng s e.val).ph = Phase.running ∧ (openBundle (eng s e.val)).wrote = [] ∧ (openBundle (eng s e.val)).stores = [] ∧ (openBundle (eng s e.val)).snap.pc < 2047 ∧ (∀ (k : Fin 2), (openBundle (eng s e.val)).r.lc[k].active = false) ∧ (openBundle (eng s e.val)).r.pc = (openBundle (eng s e.val)).snap.pc ∧ g.val = d.val) ∧
    (∃ (s : State) (e : Fin 64) (d : Fin 32), (eng s e.val).ph = Phase.running ∧ (openBundle (eng s e.val)).wrote = [] ∧ (openBundle (eng s e.val)).stores = [] ∧ (openBundle (eng s e.val)).snap.pc < 2047 ∧ (∀ (k : Fin 2), (openBundle (eng s e.val)).r.lc[k].active = false) ∧ (openBundle (eng s e.val)).r.pc = (openBundle (eng s e.val)).snap.pc ∧ 15 < d.val) ∧
    (∃ (s : State) (e : Fin 64) (d : Fin 32) (imm : W32) (k : Fin 8), (eng s e.val).ph = Phase.running ∧ (openBundle (eng s e.val)).wrote = [] ∧ (openBundle (eng s e.val)).stores = [] ∧ (openBundle (eng s e.val)).snap.pc < 2047 ∧ (∀ (k : Fin 2), (openBundle (eng s e.val)).r.lc[k].active = false) ∧ (openBundle (eng s e.val)).r.pc = (openBundle (eng s e.val)).snap.pc ∧ k.val = d.val ∧ bits 21 11 (BitVec.toNat imm) ≤ 1024 ∧ bits 10 10 (BitVec.toNat imm) = 0 ∧ bits 23 22 (BitVec.toNat imm) = 0) ∧
    (∃ (s : State) (e : Fin 64) (d : Fin 32) (imm : W32) (k : Fin 8), (eng s e.val).ph = Phase.running ∧ (openBundle (eng s e.val)).wrote = [] ∧ (openBundle (eng s e.val)).stores = [] ∧ (openBundle (eng s e.val)).snap.pc < 2047 ∧ (∀ (k : Fin 2), (openBundle (eng s e.val)).r.lc[k].active = false) ∧ (openBundle (eng s e.val)).r.pc = (openBundle (eng s e.val)).snap.pc ∧ k.val = d.val ∧ BitVec.toNat imm < 256) :=
  ⟨⟨{ live with engs := [(0, { ph := .running })] }, 0, 11258999068426240, by decide +kernel, by decide +kernel⟩,
   ⟨{ live with engs := [(17, { ph := .running })] }, 17, by decide +kernel, by decide +kernel, by decide +kernel, by decide +kernel, by decide +kernel⟩,
   ⟨{ live with engs := [(0, { snap := { pc := 2047 }, mid := true, ph := .running })] }, 0, by decide +kernel, by decide +kernel, by decide +kernel, by decide +kernel, by decide +kernel⟩,
   ⟨{ live with engs := [(0, { r := { lc := #v[{ active := true, ctr := 0x002#12, start := 2043, stop := 2046, rot := false }, { active := false, ctr := 0x001#12, start := 2046, stop := 2046, rot := false }], pc := 2046 }, ph := .running })] }, 0, 0, by decide +kernel, by decide +kernel, by decide +kernel, by decide +kernel, by decide +kernel, by decide +kernel, by decide +kernel, by decide +kernel⟩,
   ⟨{ live with engs := [(0, { ph := .running })] }, 0, 10, by decide +kernel, by decide +kernel⟩,
   ⟨{ live with engs := [(17, { ph := .running })] }, 17, 22, 23, by decide +kernel, by decide +kernel, by decide +kernel⟩,
   ⟨{ live with engs := [(17, { stores := [(1611198476, [77, 0, 0, 0])], mid := true, ph := .running })] }, 17, true, 1, 3, 77, by decide +kernel, by decide +kernel, by decide +kernel, by decide +kernel, by decide +kernel, by decide +kernel, by decide +kernel, by decide +kernel⟩,
   ⟨{ live with engs := [(0, { wrote := [3], mid := true, ph := .running })] }, 0, 3, by decide +kernel, by decide +kernel⟩,
   ⟨{ live with engs := [(0, { ph := .running })] }, 0, 1, 1, by decide +kernel, by decide +kernel, by decide +kernel, by decide +kernel, by decide +kernel, by decide +kernel, by decide +kernel⟩,
   ⟨{ live with engs := [(17, { ph := .running })] }, 17, 16, by decide +kernel, by decide +kernel, by decide +kernel, by decide +kernel, by decide +kernel, by decide +kernel, by decide +kernel⟩,
   ⟨{ live with engs := [(17, { ph := .running })] }, 17, 7, 0, 7, by decide +kernel, by decide +kernel, by decide +kernel, by decide +kernel, by decide +kernel, by decide +kernel, by decide +kernel, by decide +kernel, by decide +kernel, by decide +kernel⟩,
   ⟨{ live with engs := [(17, { ph := .running })] }, 17, 0, 0, 0, by decide +kernel, by decide +kernel, by decide +kernel, by decide +kernel, by decide +kernel, by decide +kernel, by decide +kernel, by decide +kernel⟩⟩

theorem witness_BundlesAndLongImmediates_2 :
    (∃ (s : State) (e : Fin 64) (d : Fin 32) (imm : W32), (eng s e.val).ph = Phase.running ∧ (openBundle (eng s e.val)).wrote = [] ∧ (openBundle (eng s e.val)).stores = [] ∧ (openBundle (eng s e.val)).snap.pc < 2047 ∧ (∀ (k : Fin 2), (openBundle (eng s e.val)).r.lc[k].active = false) ∧ (openBundle (eng s e.val)).r.pc = (openBundle (eng s e.val)).snap.pc ∧ (7 < d.val ∨ 1024 < bits 21 11 (BitVec.toNat imm) ∨ bits 10 10 (BitVec.toNat imm) ≠ 0 ∨ bits 23 22 (BitVec.toNat imm) ≠ 0)) ∧
    (∃ (s : State) (e : Fin 64) (d : Fin 32) (imm : W32), (eng s e.val).ph = Phase.running ∧ (openBundle (eng s e.val)).wrote = [] ∧ (openBundle (eng s e.val)).stores = [] ∧ (openBundle (eng s e.val)).snap.pc < 2047 ∧ (∀ (k : Fin 2), (openBundle (eng s e.val)).r.lc[k].active = false) ∧ (openBundle (eng s e.val)).r.pc = (openBundle (eng s e.val)).snap.pc ∧ (7 < d.val ∨ 256 ≤ BitVec.toNat imm)) ∧
    (∃ (s : State) (e : Fin 64), (eng s e.val).ph = Phase.running ∧ (∃ q ∈ (openBundle (eng s e.val)).wrote, 100 ≤ q ∧ q < 104)) :=
  ⟨⟨{ live with engs := [(0, { ph := .running })] }, 0, 24, 0, by decide +kernel, by decide +kernel, by decide +kernel, by decide +kernel, by decide +kernel, by decide +kernel, by decide +kernel⟩,
   ⟨{ live with engs := [(0, { ph := .running })] }, 0, 30, 4278190085, by decide +kernel, by decide +kernel, by decide +kernel, by decide +kernel, by decide +kernel, by decide +kernel, by decide +kernel⟩,
   ⟨{ live with engs := [(0, { wrote := [100], mid := true, ph := .running })] }, 0, by decide +kernel, by decide +kernel⟩⟩

theorem witness_LoopEngineControlFlow :
    (∃ (s : State) (e : Fin 64) (c : Fin 32), (eng s e.val).ph = Phase.running ∧ (eng s e.val).mid = false ∧ 12 < c.val) ∧
    (∃ (s : State) (e : Fin 64) (c : Fin 32), ((eng s e.val).ph = Phase.running) ∧ ((eng s e.val).mid = false) ∧ (c.val ≤ 12) ∧ (∃ k : Fin 2, (openBundle (eng s e.val)).r.lc[k].active = true ∧ (openBundle (eng s e.val)).r.lc[k].stop = (openBundle (eng s e.val)).r.pc)) ∧
    (∃ (s : State) (e : Fin 64) (c : Fin 32), ((eng s e.val).ph = Phase.running) ∧ ((eng s e.val).mid = false) ∧ (c.val ≤ 12) ∧ (¬∃ k : Fin 2, (openBundle (eng s e.val)).r.lc[k].active = true ∧ (openBundle (eng s e.val)).r.lc[k].stop = (openBundle (eng s e.val)).r.pc) ∧ (condHolds (openBundle (eng s e.val)).r c.val = true)) ∧
    (∃ (s : State) (e : Fin 64) (c : Fin 32), ((eng s e.val).ph = Phase.running) ∧ ((eng s e.val).mid = false) ∧ (c.val ≤ 12) ∧ (¬∃ k : Fin 2, (openBundle (eng s e.val)).r.lc[k].active = true ∧ (openBundle (eng s e.val)).r.lc[k].stop = (openBundle (eng s e.val)).r.pc) ∧ (condHolds (openBundle (eng s e.val)).r c.val = false) ∧ ((openBundle (eng s e.val)).r.pc < 2047)) ∧
    (∃ (s : State) (e : Fin 64), ((eng s e.val).ph = Phase.running) ∧ ((eng s e.val).mid = false) ∧ (∃ k : Fin 2, (openBundle (eng s e.val)).r.lc[k].active = true ∧ (openBundle (eng s e.val)).r.lc[k].stop = (openBundle (eng s e.val)).r.pc)) ∧
    (∃ (s : State) (e : Fin 64), ((eng s e.val).ph = Phase.running) ∧ ((eng s e.val).mid = false) ∧ (¬∃ k : Fin 2, (openBundle (eng s e.val)).r.lc[k].active = true ∧ (openBundle (eng s e.val)).r.lc[k].stop = (openBundle (eng s e.val)).r.pc) ∧ ((openBundle (eng s e.val)).r.stack.length < 4)) ∧
    (∃ (s : State) (e : Fin 64), ((eng s e.val).ph = Phase.running) ∧ ((eng s e.val).mid = false) ∧ (¬∃ k : Fin 2, (openBundle (eng s e.val)).r.lc[k].active = true ∧ (openBundle (eng s e.val)).r.lc[k].stop = (openBundle (eng s e.val)).r.pc) ∧ (4 ≤ (openBundle (eng s e.val)).r.stack.length)) ∧
    (∃ (s : State) (e : Fin 64), ((eng s e.val).ph = Phase.running) ∧ ((eng s e.val).mid = false) ∧ (¬∃ k : Fin 2, (openBundle (eng s e.val)).r.lc[k].active = true ∧ (openBundle (eng s e.val)).r.lc[k].stop = (openBundle (eng s e.val)).r.pc) ∧ ((openBundle (eng s e.val)).r.stack = [])) ∧
    (∃ (s : State) (e : Fin 64) (t : Nat) (q : List Nat), ((eng s e.val).ph = Phase.running) ∧ ((eng s e.val).mid = false) ∧ (¬∃ k : Fin 2, (openBundle (eng s e.val)).r.lc[k].active = true ∧ (openBundle (eng s e.val)).r.lc[k].stop = (openBundle (eng s e.val)).r.pc) ∧ ((openBundle (eng s e.val)).r.stack = t :: q) ∧ (t < 2048)) ∧
    (∃ (s : State) (e : Fin 64) (k : Fin 2) (rot : Bool) (stop : Fin 2048), ((eng s e.val).ph = Phase.running) ∧ ((eng s e.val).mid = false) ∧ ((∃ k : Fin 2, (openBundle (eng s e.val)).r.lc[k].active = true ∧ (openBundle (eng s e.val)).r.lc[k].stop = (openBundle (eng s e.val)).r.pc) ∨ (openBundle (eng s e.val)).r.lc[k].active = true ∨ rot = true ∧ (openBundle (eng s e.val)).r.lc[1 - k].active = true ∧ (openBundle (eng s e.val)).r.lc[1 - k].rot = true ∨ stop.val ≤ (openBundle (eng s e.val)).r.pc ∨ (openBundle (eng s e.val)).r.lc[1 - k].active = true ∧ (openBundle (eng s e.val)).r.lc[1 - k].stop = stop.val ∨ isCtl s e.val stop.val = true)) ∧
    (∃ (s : State) (e : Fin 64) (k : Fin 2) (rot : Bool) (creg : Bool) (dn : Fin 32) (count : BitVec 12) (stop : Fin 2048), ((eng s e.val).ph = Phase.running) ∧ ((eng s e.val).mid = false) ∧ (¬∃ k : Fin 2, (openBundle (eng s e.val)).r.lc[k].active = true ∧ (openBundle (eng s e.val)).r.lc[k].stop = (openBundle (eng s e.val)).r.pc) ∧ (¬((openBundle (eng s e.val)).r.lc[k].active = true ∨ rot = true ∧ (openBundle (eng s e.val)).r.lc[1 - k].active = true ∧ (openBundle (eng s e.val)).r.lc[1 - k].rot = true ∨ stop.val ≤ (openBundle (eng s e.val)).r.pc ∨ (openBundle (eng s e.val)).r.lc[1 - k].active = true ∧ (openBundle (eng s e.val)).r.lc[1 - k].stop = stop.val ∨ isCtl s e.val stop.val = true)) ∧ (1 ≤ if creg = true then max 0 (min 4095 (BitVec.toInt (openBundle (eng s e.val)).r.d[dn])) else ↑count.toNat)) ∧
    (∃ (s : State) (e : Fin 64) (k : Fin 2) (rot : Bool) (creg : Bool) (dn : Fin 32) (count : BitVec 12) (stop : Fin 2048), ((eng s e.val).ph = Phase.running) ∧ ((eng s e.val).mid = false) ∧ (¬∃ k : Fin 2, (openBundle (eng s e.val)).r.lc[k].active = true ∧ (openBundle (eng s e.val)).r.lc[k].stop = (openBundle (eng s e.val)).r.pc) ∧ (¬((openBundle (eng s e.val)).r.lc[k].active = true ∨ rot = true ∧ (openBundle (eng s e.val)).r.lc[1 - k].active = true ∧ (openBundle (eng s e.val)).r.lc[1 - k].rot = true ∨ stop.val ≤ (openBundle (eng s e.val)).r.pc ∨ (openBundle (eng s e.val)).r.lc[1 - k].active = true ∧ (openBundle (eng s e.val)).r.lc[1 - k].stop = stop.val ∨ isCtl s e.val stop.val = true)) ∧ ((if creg = true then max 0 (min 4095 (BitVec.toInt (openBundle (eng s e.val)).r.d[dn])) else ↑count.toNat) = 0) ∧ (stop.val < 2047)) :=
  ⟨⟨{ live with engs := [(17, { ph := .running })] }, 17, 14, by decide +kernel, by decide +kernel, by decide +kernel⟩,
   ⟨{ live with engs := [(0, { r := { lc := #v[{ active := true, ctr := 0x001#12, start := 0, stop := 100, rot := true },
               { active := false, ctr := 0x007#12, start := 97, stop := 2047, rot := false }], pc := 100 }, ph := .running })] }, 0, 10, by decide +kernel, by decide +kernel, by decide +kernel, by decide +kernel⟩,
   ⟨{ live with engs := [(0, { ph := .running })] }, 0, 0, by decide +kernel, by decide +kernel, by decide +kernel, by decide +kernel, by decide +kernel⟩,
   ⟨{ live with engs := [(0, { ph := .running })] }, 0, 7, by decide +kernel, by decide +kernel, by decide +kernel, by decide +kernel, by decide +kernel, by decide +kernel⟩,
   ⟨{ live with engs := [(0, { r := { lc := #v[{ active := false, ctr := 0x001#12, start := 2037, stop := 2041, rot := false },
               { active := true, ctr := 0x001#12, start := 2040, stop := 2040, rot := false }], pc := 2040 }, ph := .running })] }, 0, by decide +kernel, by decide +kernel, by decide +kernel⟩,
   ⟨{ live with engs := [(17, { ph := .running })] }, 17, by decide +kernel, by decide +kernel, by decide +kernel, by decide +kernel⟩,
   ⟨{ live with engs := [(17, { r := { stack := [0, 0, 0, 0] }, ph := .running })] }, 17, by decide +kernel, by decide +kernel, by decide +kernel, by decide +kernel⟩,
   ⟨{ live with engs := [(17, { ph := .running })] }, 17, by decide +kernel, by decide +kernel, by decide +kernel, by decide +kernel⟩,
   ⟨{ live with engs := [(17, { r := { stack := [0] }, ph := .running })] }, 17, 0, [], by decide +kernel, by decide +kernel, by decide +kernel, by decide +kernel, by decide +kernel⟩,
   ⟨{ live with engs := [(0, { r := { pc := 1656, stack := [737, 229, 426, 1970, 506] }, ph := .running, task := 5, prio := 1, wbit := [(155, true), (199, true), (259, true), (298, true), (551, true), (620, true), (787, true), (867, true), (879, true), (1014, true), (1569, true), (1674, true), (1704, true), (1718, true), (1737, true), (1772, true), (1886, true), (1898, true), (1997, true), (2025, true), (2177, true), (2321, true), (2403, true), (2544, true), (2680, true), (2775, true), (2778, true), (2838, true), (2952, true), (2957, true), (3194, true), (3285, true), (3379, true), (3387, true), (3480, true), (3584, true), (3589, true), (3625, true), (3658, true), (4060, true)] })] }, 0, 1, true, 1551, by decide +kernel, by decide +kernel, by decide +kernel⟩,
   ⟨{ live with engs := [(0, { ph := .running })] }, 0, 1, true, false, 15, 1024, 1021, by decide +kernel, by decide +kernel, by decide +kernel, by decide +kernel, by decide +kernel⟩,
   ⟨{ live with engs := [(17, { ph := .running })] }, 17, 0, true, true, 30, 0, 1562, by decide +kernel, by decide +kernel, by decide +kernel, by decide +kernel, by decide +kernel, by decide +kernel⟩⟩

theorem witness_TaskExitsAndEngineFaults :
    (∃ (s : State) (e : Fin 64) (lib : LibTask), (eng s e.val).ph = Phase.running ∧ (eng s e.val).mid = false ∧ (eng s e.val).r.pc < 2048 ∧ (∀ (k : Fin 2), (eng s e.val).r.lc[k].active = true → (eng s e.val).r.lc[k].stop ≠ (eng s e.val).r.pc) ∧ lib = LibTask.none) ∧
    (∃ (s : State) (e : Fin 64) (f : Fin 32) (k : BitVec 13), (eng s e.val).ph = Phase.running ∧ (eng s e.val).mid = false ∧ (eng s e.val).r.pc < 2048 ∧ (∀ (k : Fin 2), (eng s e.val).r.lc[k].active = true → (eng s e.val).r.lc[k].stop ≠ (eng s e.val).r.pc) ∧ f = 0) ∧
    (∃ (s : State) (e : Fin 64) (f : Fin 32) (k : BitVec 13), (eng s e.val).ph = Phase.running ∧ (eng s e.val).mid = false ∧ (eng s e.val).r.pc < 2048 ∧ (∀ (k : Fin 2), (eng s e.val).r.lc[k].active = true → (eng s e.val).r.lc[k].stop ≠ (eng s e.val).r.pc) ∧ f ≠ 0 ∧ (openBundle (eng s e.val)).r.pc < 2047) ∧
    (∃ (s : State) (e : Fin 64), (eng s e.val).ph = Phase.running ∧ s.tests = []) ∧
    (∃ (m : Master) (e : Fin 64) (w : W32) (s : State), CanReach m s (Reg.LE_CTRL_CLR_FAULT e.val).addr ∧ s.sched.gcmd = none ∧ wbits (Reg.LE_CTRL_CLR_FAULT e.val) w = 1 ∧ (eng s e.val).ph ≠ Phase.fault) ∧
    (∃ (m : Master) (e : Fin 64) (w : W32) (s : State), (CanReach m s (Reg.LE_CTRL_CLR_FAULT e.val).addr) ∧ (s.sched.gcmd = none) ∧ (wbits (Reg.LE_CTRL_CLR_FAULT e.val) w = 1) ∧ ((eng s e.val).ph = Phase.fault) ∧ (withdrawn s e.val = true)) :=
  ⟨⟨{ live with engs := [(17, { ph := .running })] }, 17, .none, by decide +kernel, by decide +kernel, by decide +kernel, by decide +kernel, by decide +kernel⟩,
   ⟨{ live with engs := [(0, { ph := .running })] }, 0, 0, 825, by decide +kernel, by decide +kernel, by decide +kernel, by decide +kernel, by decide +kernel⟩,
   ⟨{ live with engs := [(0, { ph := .running })] }, 0, 25, 8191, by decide +kernel, by decide +kernel, by decide +kernel, by decide +kernel, by decide +kernel, by decide +kernel⟩,
   ⟨{ live with engs := [(0, { ph := .running })] }, 0, by decide +kernel, by decide +kernel⟩,
   ⟨.host, 17, 255, live, by unfold CanReach; decide +kernel, by decide +kernel, by decide +kernel, by decide +kernel⟩,
   ⟨.host, 17, BitVec.ofNat 32 (2 ^ 32 - 1), wr { live with engs := [(17, { ph := .fault })] } (wdField 17) 1, by unfold CanReach; decide +kernel, by decide +kernel, by decide +kernel, by decide +kernel, by decide +kernel⟩⟩

theorem witness_NodeAndSyncFrames :
    (∃ (f : RxFrame) (s : State) (p : Nat), p = ↑f.port ∧ portLive s p = false) ∧
    (∃ (f : RxFrame) (s : State) (p : Nat), p = ↑f.port ∧ portLive s p = true ∧ windowAt s p f.start = none ∧ f.fcs = false) ∧
    (∃ (f : RxFrame) (s : State) (p : Nat), p = ↑f.port ∧ portLive s p = true ∧ windowAt s p f.start = none ∧ f.fcs = true ∧ asyncAt s p f.start = none) ∧
    (∃ (f : RxFrame) (s : State) (p : Nat) (k : Nat) (e : SlotE), p = ↑f.port ∧ portLive s p = true ∧ windowAt s p f.start = some k ∧ (portSlots s p)[k]? = some e ∧ f.fcs = true ∧ fEther f = cfg s Reg.LEMAC_ETYPE_ETYPE ∧ fValid f = true ∧ fCyc f = s.sched.cycle % 2 ^ 16 ∧ fSlot f = e.slot ∧ (fKind f = if e.kind = 0 then 3 else 5) ∧ senderPos s p f = e.pos ∧ (cfgOn s (Reg.PORT_LINE_END p) = true → fHops f < cfg s (Reg.PORT_LINE_N p)) ∧ rxStalled s p = false ∧ fNull f = false ∧ s.lemac.rx = [] ∧ s.lemac.clash = [] ∧ s.lemac.fired = [] ∧ e.kind ≠ 0) ∧
    (∃ (f : RxFrame) (s : State) (p : Nat) (k : Nat) (e : SlotE) (it : Nat), p = ↑f.port ∧ portLive s p = true ∧ windowAt s p f.start = some k ∧ (portSlots s p)[k]? = some e ∧ f.fcs = true ∧ fEther f = cfg s Reg.LEMAC_ETYPE_ETYPE ∧ fValid f = true ∧ fCyc f = s.sched.cycle % 2 ^ 16 ∧ fSlot f = e.slot ∧ (fKind f = if e.kind = 0 then 3 else 5) ∧ senderPos s p f = e.pos ∧ (cfgOn s (Reg.PORT_LINE_END p) = true → fHops f < cfg s (Reg.PORT_LINE_N p)) ∧ rxStalled s p = false ∧ fNull f = false ∧ s.lemac.rx = [] ∧ s.lemac.clash = [] ∧ s.lemac.fired = [] ∧ it = mapItem s (bank s) e.map ∧ e.kind = 0 ∧ e.mapn = 1 ∧ bitOf 20 it = false ∧ bitOf 21 it = false ∧ (it / 32768 % 32 ≠ 29 ∨ paired s = true) ∧ 4 ≤ bNum (fBody f) 4 2 ∧ 12 ≤ (fBody f).length) :=
  ⟨⟨{ port := 2, start := 1000, bytes := (List.replicate 12 7 ++ [145, 0, 8, 3, 0, 12, 3, 0, 96, 1, 60, 136, 88, 66, 0, 12, 0, 0, 90, 177, 98, 216, 31, 13, 232, 190, 233, 65, 122, 231, 57, 61, 142, 44, 198, 208, 137, 6] ++ List.replicate 10 0), fcs := true }, live, 2, by decide +kernel, by decide +kernel⟩,
   ⟨{ port := 0, start := 1250, bytes := (List.replicate 12 7 ++ [145, 0, 8, 1, 0, 11, 0, 0, 82, 1, 156, 118, 85, 95, 0, 12, 0, 0, 5, 217, 71, 151, 147, 86, 157, 214, 90, 71, 228, 250, 253, 85, 18, 118, 186, 255, 158, 151] ++ List.replicate 10 0), fcs := false }, { live with ctl := [(0x60040, 9)] }, 0, by decide +kernel, by decide +kernel, by decide +kernel, by decide +kernel⟩,
   ⟨{ port := 1, start := 1200, bytes := (List.replicate 12 7 ++ [145, 0, 8, 1, 0, 12, 2, 0, 48, 1, 210, 216, 149, 108, 0, 8, 0, 0, 98, 20, 83, 243, 200, 166, 118, 212, 18, 140, 14, 105, 218, 46, 10, 76, 225, 42, 170, 234] ++ List.replicate 10 0), fcs := true }, { live with ctl := [(0x61040, 9)] }, 1, by decide +kernel, by decide +kernel, by decide +kernel, by decide +kernel, by decide +kernel⟩,
   ⟨{ port := 0, start := 3000, bytes := (List.replicate 12 7 ++ [145, 0, 8, 2, 0, 12, 3, 0, 80, 1, 213, 170, 60, 79, 0, 0, 0, 0, 187, 106, 165, 179, 232, 4, 82, 183, 102, 126, 87, 31, 82, 55, 234, 78, 236, 40, 69, 88] ++ List.replicate 10 0), fcs := true }, { (mwrite (mwrite (mwrite (mwrite { (regs live [(0x78068, 4)]) with ctl := [(0x60040, 9), (0x78040, 37120)] } 813563920 [96, 128]) 813564720 [128, 11]) 813564724 [144, 65]) 813564727 [1]) with sched := { cycle := 12 } }, 0, 3, { at_ := 2944, len := 0, kind := 1, pos := 3, slot := 2050, map := 0, mapn := 0, edge := 0, edgen := 0, spe := 0, spn := 0, tunnel := false }, by decide +kernel, by decide +kernel, by decide +kernel, by decide +kernel, by decide +kernel, by decide +kernel, by decide +kernel, by decide +kernel, by decide +kernel, by decide +kernel, by decide +kernel, by decide +kernel, by decide +kernel, by decide +kernel, by decide +kernel, by decide +kernel, by decide +kernel, by decide +kernel⟩,
   ⟨{ port := 0, start := 1040, bytes := (List.replicate 12 7 ++ [145, 0, 8, 1, 0, 12, 2, 0, 48, 1, 230, 153, 83, 47, 0, 8, 0, 0, 251, 73, 22, 253, 45, 2, 69, 230, 56, 203, 141, 217, 247, 85, 197, 167, 176, 223, 218, 157] ++ List.replicate 10 0), fcs := true }, { (mwrite (mwrite (mwrite (mwrite (mwrite { (regs live [(0x78068, 4)]) with ctl := [(0x60040, 1), (0x60048, 100), (0x78040, 37120)] } 813563920 [96, 128]) 813564704 [192, 3]) 813564709 [33]) 813564711 [1]) 813564713 [64]) with sched := { cycle := 12 } }, 0, 2, { at_ := 960, len := 0, kind := 0, pos := 2, slot := 2049, map := 0, mapn := 1, edge := 0, edgen := 0, spe := 0, spn := 4, tunnel := false }, 0, by decide +kernel, by decide +kernel, by decide +kernel, by decide +kernel, by decide +kernel, by decide +kernel, by decide +kernel, by decide +kernel, by decide +kernel, by decide +kernel, by decide +kernel, by decide +kernel, by decide +kernel, by decide +kernel, by decide +kernel, by decide +kernel, by decide +kernel, by decide +kernel, by decide +kernel, by decide +kernel, by decide +kernel, by decide +kernel, by decide +kernel, by decide +kernel, by decide +kernel⟩⟩

theorem witness_GuardianAndLines_1 :
    (∃ (p : Fin 24) (s : State), portLive s p.val = false) ∧
    (∃ (p : Fin 24) (s : State) (r : Nat), portLive s p.val = true ∧ r ≤ 1000) ∧
    (∃ (p : Fin 24) (s : State), portLive s p.val = true ∧ role s = rSTANDBY) ∧
    (∃ (p : Fin 24) (s : State) (w : List Out) (a : Nat) (b : List Byte), (portLive s p.val = true) ∧ (s.wire = w ++ [Out.frame (p.val) a b]) ∧ (role s = rALONE)) ∧
    (∃ (p : Fin 24) (s : State), portLive s p.val = true ∧ rd s (Reg.PORT_VRUN_RUN p.val) < cfg s Reg.GUARD_CFG_VIOL_LIMIT) ∧
    (∃ (p : Fin 24) (s : State), portLive s p.val = true ∧ cfg s Reg.GUARD_CFG_VIOL_LIMIT ≤ rd s (Reg.PORT_VRUN_RUN p.val)) ∧
    (∃ (p : Fin 24) (s : State), portLive s p.val = true ∧ (isFar s p.val = true ∧ 2 ≤ (port s p.val).miss ∧ on s (Reg.PORT_STAT_BREAK p.val) = false) ∧ paired s = false) ∧
    (∃ (p : Fin 24) (s : State), portLive s p.val = true ∧ (¬(isFar s p.val = true ∧ 2 ≤ (port s p.val).miss ∧ on s (Reg.PORT_STAT_BREAK p.val) = false))) ∧
    (∃ (p : Fin 24) (s : State), (port s p.val).good < 8) ∧
    (∃ (p : Fin 24) (s : State), 8 ≤ (port s p.val).good) ∧
    (∃ (p : Fin 24) (s : State) (up : BitVec 24) (n : Nat), (n = (List.filter (fun q => cfgOn s (Reg.PORT_CTRL_EN q) && (!on s (Reg.PORT_STAT_LINK q) || q == p.val) && up.getLsbD q) (List.range 24)).length)) ∧
    (∃ (p : Fin 24) (k : Fin 4096) (e : SlotE) (s : State) (due : Bool), (portSlots s p.val)[k.val]? = some e ∧ (due = (portLive s p.val && decide (portSeg s p.val < 24) && decide (cfg s Reg.GUARD_CFG_DRIFT_CYC ≤ tget (fun x => 0) s.lemac.drift (entKey p.val k.val)) && !on s (driftField (portSeg s p.val) e.pos))) ∧ due = false) :=
  ⟨⟨0, live, by decide +kernel⟩,
   ⟨0, { live with ctl := [(0x60040, 1)] }, 2, by decide +kernel, by decide +kernel⟩,
   ⟨0, { (regs live [(0x7D050, 2)]) with ctl := [(0x60040, 9)] }, by decide +kernel, by decide +kernel⟩,
   ⟨0, { live with ctl := [(0x60040, 9)], wire := [.frame 0 5 [1]] }, [], 5, [1], by decide +kernel, by decide +kernel, by decide +kernel⟩,
   ⟨1, { live with ctl := [(0x61040, 1)] }, by decide +kernel, by decide +kernel⟩,
   ⟨1, { (regs live [(0x61088, 3)]) with ctl := [(0x61040, 9), (0x79040, 771)] }, by decide +kernel, by decide +kernel⟩,
   ⟨1, { { live with ctl := [(0x61040, 9), (0x61044, 1602)] } with lemac := { ports := [(1, { miss := 3 })] } }, by decide +kernel, by decide +kernel, by decide +kernel⟩,
   ⟨0, { live with ctl := [(0x60040, 9)] }, by decide +kernel, by decide +kernel⟩,
   ⟨0, live, by decide +kernel⟩,
   ⟨1, { live with lemac := { ports := [(1, { good := 8 })] } }, by decide +kernel⟩,
   ⟨1, { live with ctl := [(0x61040, 9)] }, 13374774, 1, by decide +kernel⟩,
   ⟨1, 0, { at_ := 0, len := 0, kind := 0, pos := 0, slot := 0, map := 0, mapn := 0, edge := 0, edgen := 0, spe := 0, spn := 0, tunnel := false }, (mwrite (regs live [(0x78068, 4)]) 813563929 [64]), false, by decide +kernel, by decide +kernel, by decide +kernel⟩⟩

theorem witness_GuardianAndLines_2 :
    (∃ (p : Fin 24) (k : Fin 4096) (e : SlotE) (s : State) (due : Bool), (portSlots s p.val)[k.val]? = some e ∧ (due = (portLive s p.val && decide (portSeg s p.val < 24) && decide (cfg s Reg.GUARD_CFG_DRIFT_CYC ≤ tget (fun x => 0) s.lemac.drift (entKey p.val k.val)) && !on s (driftField (portSeg s p.val) e.pos))) ∧ due = true) ∧
    (∃ (p : Fin 24) (k : Fin 4096) (e : SlotE) (s : State), (portSlots s p.val)[k.val]? = some e ∧ e.isRx = true ∧ domOn s dNET = true ∧ (∀ (q : Nat), (port s q).kept = [] ∧ (port s q).keptFwd = []) ∧ (forwards s p.val = false ∨ s.time.tb + windowStop s (p.val) e * 2 ^ 40 ≤ tNow s) ∧ slotFired s (slotKey e) = true) ∧
    (∃ (p : Fin 24) (k : Fin 4096) (e : SlotE) (s : State) (it : Nat), (portSlots s p.val)[k.val]? = some e ∧ e.isRx = true ∧ domOn s dNET = true ∧ (∀ (q : Nat), (port s q).kept = [] ∧ (port s q).keptFwd = []) ∧ (forwards s p.val = false ∨ s.time.tb + windowStop s (p.val) e * 2 ^ 40 ≤ tNow s) ∧ slotFired s (slotKey e) = false ∧ (∀ x ∈ slotPlaces s (slotKey e), x = (p.val, k.val) ∨ x ∈ s.lemac.ended) ∧ it ∈ entItems s e) ∧
    (∃ (m : Master) (p : Fin 24) (w : W32) (s : State) (q : Nat), CanReach m s (Reg.PORT_CTRL p.val).addr ∧ wbits (Reg.PORT_CTRL_REOPEN p.val) w = 1 ∧ q ≠ p.val) ∧
    (∃ (m : Master) (w : W32) (s : State), CanReach m s Reg.LEMAC_CLASH_CLR.addr ∧ wbits Reg.LEMAC_CLASH_CLR_CLR w = 1) :=
  ⟨⟨0, 0, { at_ := 0, len := 0, kind := 0, pos := 0, slot := 0, map := 0, mapn := 0, edge := 0, edgen := 0, spe := 0, spn := 0, tunnel := false }, { (mwrite { (regs live [(0x78068, 4)]) with ctl := [(0x60040, 1), (0x79040, 771)] } 813563921 [128]) with lemac := { drift := [(0x0, 7)] } }, true, by decide +kernel, by decide +kernel, by decide +kernel⟩,
   ⟨0, 1, { at_ := 32768, len := 0, kind := 0, pos := 0, slot := 0, map := 0, mapn := 0, edge := 0, edgen := 0, spe := 0, spn := 0, tunnel := false }, { (mwrite (regs live [(0x78068, 4)]) 813563921 [128]) with lemac := { fired := [(0x0, 0)] } }, by decide +kernel, by decide +kernel, by decide +kernel, by (intro q; exact ⟨rfl, rfl⟩), by decide +kernel, by decide +kernel⟩,
   ⟨1, 0, { at_ := 0, len := 0, kind := 0, pos := 0, slot := 2048, map := 0, mapn := 2, edge := 0, edgen := 0, spe := 0, spn := 8, tunnel := false }, (mwrite (mwrite (mwrite (regs live [(0x78068, 4)]) 813563928 [120, 64]) 813564871 [1]) 813564873 [128]), 0, by decide +kernel, by decide +kernel, by decide +kernel, by (intro q; exact ⟨rfl, rfl⟩), by decide +kernel, by decide +kernel, by decide +kernel, by decide +kernel⟩,
   ⟨.acq, 0, 29, live, 51, by unfold CanReach; decide +kernel, by decide +kernel, by decide +kernel⟩,
   ⟨.transmit, 66872653, live, by unfold CanReach; decide +kernel, by decide +kernel⟩⟩

theorem witness_CycleStartAndPriming_1 :
    (∃ (f : RxFrame) (s : State) (p : Nat), p = ↑f.port ∧ portLive s p = true ∧ s.lemac.launching = false ∧ chkHead s f 1 (decide (rd s Reg.LEMAC_PSTATE_STATE = 3)) = Chk.crc) ∧
    (∃ (f : RxFrame) (s : State) (p : Nat), p = ↑f.port ∧ portLive s p = true ∧ s.lemac.launching = false ∧ chkHead s f 1 false = Chk.ok 0 ∧ rd s Reg.LEMAC_PSTATE_STATE ≠ 3 ∧ s.lemac.integ = none) ∧
    (∃ (f : RxFrame) (s : State) (p : Nat) (a : CsInfo) (n : Nat), p = ↑f.port ∧ portLive s p = true ∧ s.lemac.launching = false ∧ chkHead s f 1 false = Chk.ok 0 ∧ rd s Reg.LEMAC_PSTATE_STATE ≠ 3 ∧ s.lemac.integ = some (a, n) ∧ (csInfo f).cycle ≠ a.cycle ∧ csAgree a (csInfo f) = true ∧ n = 1) ∧
    (∃ (f : RxFrame) (s : State) (p : Nat) (a : CsInfo) (n : Nat), (p = ↑f.port) ∧ (portLive s p = true) ∧ (s.lemac.launching = false) ∧ (chkHead s f 1 false = Chk.ok 0) ∧ (rd s Reg.LEMAC_PSTATE_STATE ≠ 3) ∧ (s.lemac.integ = some (a, n)) ∧ ((csInfo f).cycle ≠ a.cycle) ∧ (csAgree a (csInfo f) = true) ∧ (n ≠ 1)) ∧
    (∃ (f : RxFrame) (s : State) (p : Nat) (a : CsInfo) (n : Nat), p = ↑f.port ∧ portLive s p = true ∧ s.lemac.launching = false ∧ chkHead s f 1 false = Chk.ok 0 ∧ rd s Reg.LEMAC_PSTATE_STATE ≠ 3 ∧ s.lemac.integ = some (a, n) ∧ (csInfo f).cycle ≠ a.cycle ∧ csAgree a (csInfo f) = false) ∧
    (∃ (f : RxFrame) (s : State) (p : Nat), p = ↑f.port ∧ portLive s p = true ∧ s.lemac.launching = false ∧ chkHead s f 1 true = Chk.ok 0 ∧ rd s Reg.LEMAC_PSTATE_STATE = 3 ∧ epochHigher (rd s Reg.LEMAC_EPOCH_EPOCH) (csInfo f).epoch = true) ∧
    (∃ (f : RxFrame) (s : State) (p : Nat), p = ↑f.port ∧ portLive s p = true ∧ s.lemac.launching = false ∧ chkHead s f 1 true = Chk.ok 0 ∧ rd s Reg.LEMAC_PSTATE_STATE = 3 ∧ (csInfo f).epoch = rd s Reg.LEMAC_EPOCH_EPOCH ∧ (dline s p = 0 ∨ isFar s p = false)) ∧
    (∃ (f : RxFrame) (s : State) (p : Nat) (est : Int), p = ↑f.port ∧ portLive s p = true ∧ s.lemac.launching = false ∧ chkHead s f 1 true = Chk.ok 0 ∧ rd s Reg.LEMAC_PSTATE_STATE = 3 ∧ (csInfo f).epoch = rd s Reg.LEMAC_EPOCH_EPOCH ∧ dline s p ≠ 0 ∧ isFar s p = true ∧ s.time.ests = [] ∧ s.time.adj = 0 ∧ est = ↑(csInfo f).time * 2 ^ 24 - (↑s.time.tb + (↑f.start - ↑(dline s p)) * 2 ^ 40 + rxFix s p * 2 ^ 24) ∧ (csInfo f).step = false ∧ ↑est.natAbs ≤ ↑(rd s Reg.TIME_JUMP_LIMIT_NS) * 2 ^ 40 ∧ 0 ≤ ↑(tNow s) + est) ∧
    (∃ (f : RxFrame) (s : State) (p : Nat) (est : Int), (p = ↑f.port) ∧ (portLive s p = true) ∧ (s.lemac.launching = false) ∧ (chkHead s f 1 true = Chk.ok 0) ∧ (rd s Reg.LEMAC_PSTATE_STATE = 3) ∧ ((csInfo f).epoch = rd s Reg.LEMAC_EPOCH_EPOCH) ∧ (dline s p ≠ 0) ∧ (isFar s p = true) ∧ (s.time.ests = []) ∧ (s.time.adj = 0) ∧ (est = ↑(csInfo f).time * 2 ^ 24 - (↑s.time.tb + (↑f.start - ↑(dline s p)) * 2 ^ 40 + rxFix s p * 2 ^ 24)) ∧ ((csInfo f).step = false) ∧ (↑(rd s Reg.TIME_JUMP_LIMIT_NS) * 2 ^ 40 < ↑est.natAbs)) ∧
    (∃ (f : RxFrame) (s : State) (p : Nat) (est : Int), (p = ↑f.port) ∧ (portLive s p = true) ∧ (s.lemac.launching = false) ∧ (chkHead s f 1 true = Chk.ok 0) ∧ (rd s Reg.LEMAC_PSTATE_STATE = 3) ∧ ((csInfo f).epoch = rd s Reg.LEMAC_EPOCH_EPOCH) ∧ (dline s p ≠ 0) ∧ (isFar s p = true) ∧ (s.time.ests = []) ∧ (s.time.adj = 0) ∧ (est = ↑(csInfo f).time * 2 ^ 24 - (↑s.time.tb + (↑f.start - ↑(dline s p)) * 2 ^ 40 + rxFix s p * 2 ^ 24)) ∧ ((csInfo f).step = true) ∧ (s.time.stepped ≠ some (csInfo f).stepNs) ∧ (100 * 2 ^ 40 < (est - (csInfo f).stepNs * 2 ^ 40).natAbs)) ∧
    (∃ (s : State), (rd s Reg.LEMAC_PSTATE_STATE < 2 ∨ 3 < rd s Reg.LEMAC_PSTATE_STATE ∨ s.lemac.launching = true ∨ paired s = true)) ∧
    (∃ (s : State), s.lemac.launching = false ∧ paired s = false ∧ 2 ≤ rd s Reg.LEMAC_PSTATE_STATE ∧ rd s Reg.LEMAC_PSTATE_STATE ≤ 3) :=
  ⟨⟨{ port := 0, start := 50, bytes := (List.replicate 12 7 ++ [145, 0, 255, 255, 0, 13, 0, 0, 16, 1] ++ List.replicate 7 0 ++ [14] ++ List.replicate 5 0 ++ [3, 0, 3, 208, 144, 0, 5, 0, 0, 0, 4, 0, 7] ++ List.replicate 7 0 ++ [3, 208, 144, 4] ++ List.replicate 11 0), fcs := false }, { live with ctl := [(0x60040, 9)] }, 0, by decide +kernel, by decide +kernel, by decide +kernel, by decide +kernel⟩,
   ⟨{ port := 0, start := 500, bytes := (List.replicate 12 7 ++ [145, 0, 255, 255, 0, 13, 0, 0, 18, 1] ++ List.replicate 7 0 ++ [14] ++ List.replicate 5 0 ++ [3, 0, 7, 161, 32, 0, 5, 0, 0, 0, 5, 0, 7] ++ List.replicate 7 0 ++ [3, 208, 144, 4] ++ List.replicate 11 0), fcs := true }, { live with ctl := [(0x60040, 9), (0x78040, 37120)] }, 0, by decide +kernel, by decide +kernel, by decide +kernel, by decide +kernel, by decide +kernel, by decide +kernel⟩,
   ⟨{ port := 1, start := 90, bytes := (List.replicate 12 7 ++ [145, 0, 255, 255, 0, 13, 0, 0, 16, 1] ++ List.replicate 7 0 ++ [12] ++ List.replicate 5 0 ++ [3, 0, 3, 208, 144, 0, 5, 0, 0, 0, 5, 0, 7] ++ List.replicate 7 0 ++ [3, 208, 144, 4] ++ List.replicate 11 0), fcs := true }, { { live with ctl := [(0x61040, 1), (0x78040, 37120)] } with lemac := { integ := (some ({ cycle := 11, time := 196608000000005, epoch := 5, sched := 7, period := 250000, far := false, step := false, stepNs := (0) }, 1)) } }, 1, { cycle := 11, time := 196608000000005, epoch := 5, sched := 7, period := 250000, far := false, step := false, stepNs := (0) }, 1, by decide +kernel, by decide +kernel, by decide +kernel, by decide +kernel, by decide +kernel, by decide +kernel, by decide +kernel, by decide +kernel, by decide +kernel⟩,
   ⟨{ port := 1, start := 90, bytes := (List.replicate 12 7 ++ [145, 0, 255, 255, 0, 13, 0, 0, 16, 1] ++ List.replicate 7 0 ++ [12] ++ List.replicate 5 0 ++ [3, 0, 3, 208, 144, 0, 5, 0, 0, 0, 5, 0, 7] ++ List.replicate 7 0 ++ [3, 208, 144, 4] ++ List.replicate 11 0), fcs := true }, { { live with ctl := [(0x61040, 1), (0x78040, 37120)] } with lemac := { integ := (some ({ cycle := 11, time := 196608000000005, epoch := 5, sched := 7, period := 250000, far := false, step := false, stepNs := (0) }, 2)) } }, 1, { cycle := 11, time := 196608000000005, epoch := 5, sched := 7, period := 250000, far := false, step := false, stepNs := (0) }, 2, by decide +kernel, by decide +kernel, by decide +kernel, by decide +kernel, by decide +kernel, by decide +kernel, by decide +kernel, by decide +kernel, by decide +kernel⟩,
   ⟨{ port := 0, start := 0, bytes := (List.replicate 12 7 ++ [145, 0, 255, 255, 0, 12, 0, 0, 18, 1] ++ List.replicate 7 0 ++ [20] ++ List.replicate 5 0 ++ [3, 0, 7, 161, 32, 0, 5, 0, 0, 0, 5, 0, 7] ++ List.replicate 7 0 ++ [3, 208, 144, 4] ++ List.replicate 11 0), fcs := true }, { { live with ctl := [(0x60040, 9), (0x78040, 37120)] } with lemac := { integ := (some ({ cycle := 11, time := 196608000000005, epoch := 5, sched := 7, period := 250000, far := false, step := false, stepNs := (0) }, 0)) } }, 0, { cycle := 11, time := 196608000000005, epoch := 5, sched := 7, period := 250000, far := false, step := false, stepNs := (0) }, 0, by decide +kernel, by decide +kernel, by decide +kernel, by decide +kernel, by decide +kernel, by decide +kernel, by decide +kernel, by decide +kernel⟩,
   ⟨{ port := 1, start := 50, bytes := (List.replicate 12 7 ++ [145, 0, 255, 255, 0, 12, 0, 0, 18, 1] ++ List.replicate 7 0 ++ [14] ++ List.replicate 5 0 ++ [3, 0, 3, 208, 144, 0, 5, 0, 0, 0, 4, 0, 7] ++ List.replicate 7 0 ++ [3, 208, 144, 4] ++ List.replicate 11 0), fcs := true }, { { (regs live [(0x78060, 3), (0x78064, 6)]) with ctl := [(0x61040, 1), (0x78040, 37120)] } with sched := { cycle := 12 } }, 1, by decide +kernel, by decide +kernel, by decide +kernel, by decide +kernel, by decide +kernel, by decide +kernel⟩,
   ⟨{ port := 0, start := 90, bytes := (List.replicate 12 7 ++ [145, 0, 255, 255, 0, 12, 0, 0, 20, 1] ++ List.replicate 7 0 ++ [13] ++ List.replicate 5 0 ++ [3, 0, 7, 161, 32, 0, 5, 0, 0, 0, 5, 0, 7] ++ List.replicate 7 0 ++ [3, 208, 144, 4] ++ List.replicate 11 0), fcs := true }, { { (regs live [(0x78060, 3), (0x78064, 5)]) with ctl := [(0x60040, 9), (0x78040, 37120)] } with sched := { cycle := 12 } }, 0, by decide +kernel, by decide +kernel, by decide +kernel, by decide +kernel, by decide +kernel, by decide +kernel, by decide +kernel⟩,
   ⟨{ port := 0, start := 500, bytes := (List.replicate 12 7 ++ [145, 0, 255, 255, 0, 12, 0, 0, 16, 1] ++ List.replicate 7 0 ++ [12] ++ List.replicate 5 0 ++ [3, 0, 3, 208, 144, 0, 5, 0, 0, 0, 5, 0, 7] ++ List.replicate 7 0 ++ [3, 208, 144, 4] ++ List.replicate 11 0), fcs := true }, { { (regs live [(0x60050, 32), (0x78060, 3), (0x78064, 5)]) with ctl := [(0x60040, 1), (0x60044, 2113), (0x78040, 37120)] } with time := { ns := 468, tb := 3298809761234943999870 }, sched := { cycle := 12 } }, 0, (-514571357912958), by decide +kernel, by decide +kernel, by decide +kernel, by decide +kernel, by decide +kernel, by decide +kernel, by decide +kernel, by decide +kernel, by decide +kernel, by decide +kernel, by decide +kernel, by decide +kernel, by decide +kernel, by decide +kernel⟩,
   ⟨{ port := 0, start := 500, bytes := (List.replicate 12 7 ++ [145, 0, 255, 255, 0, 12, 0, 0, 16, 1] ++ List.replicate 7 0 ++ [12] ++ List.replicate 5 0 ++ [3, 0, 3, 208, 144, 0, 5, 0, 0, 0, 5, 0, 7] ++ List.replicate 7 0 ++ [3, 208, 144, 4] ++ List.replicate 11 0), fcs := true }, wr ({ { (regs live [(0x60050, 32), (0x78060, 3), (0x78064, 5)]) with ctl := [(0x60040, 1), (0x60044, 2113), (0x78040, 37120)] } with time := { ns := 468, tb := 3298809761234943999870 }, sched := { cycle := 12 } }) Reg.TIME_JUMP_LIMIT_NS 100, 0, (-514571357912958), by decide +kernel, by decide +kernel, by decide +kernel, by decide +kernel, by decide +kernel, by decide +kernel, by decide +kernel, by decide +kernel, by decide +kernel, by decide +kernel, by decide +kernel, by decide +kernel, by decide +kernel⟩,
   ⟨{ port := 0, start := 500, bytes := (List.replicate 12 7 ++ [145, 0, 255, 255, 0, 12, 0, 0, 18, 1] ++ List.replicate 7 0 ++ [12] ++ List.replicate 5 0 ++ [3, 0, 3, 208, 144, 0, 5, 0, 0, 0, 5, 0, 7] ++ List.replicate 7 0 ++ [3, 208, 144, 4] ++ List.replicate 11 0), fcs := true }, { { (regs live [(0x60050, 32), (0x78060, 3), (0x78064, 5)]) with ctl := [(0x60040, 1), (0x60044, 2113), (0x78040, 37120)] } with time := { ns := 468, tb := 3298809761234943999870 }, sched := { cycle := 12 } }, 0, (-514571357912958), by decide +kernel, by decide +kernel, by decide +kernel, by decide +kernel, by decide +kernel, by decide +kernel, by decide +kernel, by decide +kernel, by decide +kernel, by decide +kernel, by decide +kernel, by decide +kernel, by decide +kernel, by decide +kernel⟩,
   ⟨live, by decide +kernel⟩,
   ⟨(regs live [(0x78060, 2)]), by decide +kernel, by decide +kernel, by decide +kernel, by decide +kernel⟩⟩

theorem witness_CycleStartAndPriming_2 :
    (∃ (s : State), rd s Reg.LEMAC_PSTATE_STATE = 4 ∧ s.lemac.haltDue = false) ∧
    (∃ (s : State), rd s Reg.LEMAC_PSTATE_STATE = 4 ∧ s.lemac.haltDue = true) ∧
    (∃ (s : State), mayPrime s = true ∧ rd s Reg.LEMAC_PSTATE_STATE = 0 ∧ s.lemac.launching = false) ∧
    (∃ (s : State), (mayPrime s = false ∨ rd s Reg.LEMAC_PSTATE_STATE ≠ 0)) ∧
    (∃ (s : State) (m : Master) (w : W32), CanReach m s Reg.LEMAC_PSTATE.addr ∧ wbits Reg.LEMAC_PSTATE_RESTART w = 1 ∧ on s Reg.LEMAC_PSTATE_PRIME_HALT = true) ∧
    (∃ (f : RxFrame) (s : State), (portLive s ↑f.port = true) ∧ (chkHead s f 4 false = Chk.ok 0) ∧ (rd s Reg.LEMAC_PSTATE_STATE < 2) ∧ (bNum (fBody f) 8 1 < cfg s Reg.LEMAC_RANK_RANK) ∧ (rd s Reg.LEMAC_PSTATE_STATE = 1)) ∧
    (∃ (f : RxFrame) (s : State), (portLive s ↑f.port = true) ∧ (chkHead s f 4 false = Chk.ok 0) ∧ (rd s Reg.LEMAC_PSTATE_STATE < 2) ∧ (bNum (fBody f) 8 1 = cfg s Reg.LEMAC_RANK_RANK) ∧ (bNum (fBody f) 0 8 ≠ rd s Reg.LEMAC_UID_LO_UID + 2 ^ 32 * rd s Reg.LEMAC_UID_HI_UID) ∧ (mayPrime s = true)) ∧
    (∃ (f : RxFrame) (s : State), portLive s ↑f.port = true ∧ chkHead s f 4 false = Chk.ok 0 ∧ 2 ≤ rd s Reg.LEMAC_PSTATE_STATE) :=
  ⟨⟨(regs live [(0x78060, 4)]), by decide +kernel, by decide +kernel⟩,
   ⟨{ (regs live [(0x78060, 4)]) with lemac := { haltDue := true } }, by decide +kernel, by decide +kernel⟩,
   ⟨live, by decide +kernel, by decide +kernel, by decide +kernel⟩,
   ⟨(regs live [(0x7D050, 2)]), by decide +kernel⟩,
   ⟨(regs live [(0x78060, 1024)]), .snapshot, 4294967291, by unfold CanReach; decide +kernel, by decide +kernel, by decide +kernel⟩,
   ⟨{ port := 1, start := 0, bytes := (List.replicate 12 7 ++ [145, 0, 255, 255, 0, 12, 0, 0, 64, 1] ++ List.replicate 7 0 ++ [1, 0, 1] ++ List.replicate 5 0 ++ [1] ++ List.replicate 5 0 ++ [3, 0, 0, 0, 100, 0, 7, 0, 3, 208, 144] ++ List.replicate 6 0), fcs := true }, sets { live with ctl := [(0x61040, 9), (0x78040, 37120), (Reg.LEMAC_RANK_RANK.addr, 5)] } [(Reg.LEMAC_PSTATE_STATE, 1)], by decide +kernel, by decide +kernel, by decide +kernel, by decide +kernel, by decide +kernel⟩,
   (by
        by_cases h : 1 = rd ({ live with ctl := [(0x61040, 9), (0x78040, 37120)] } : State) Reg.LEMAC_UID_LO_UID + 2 ^ 32 * rd ({ live with ctl := [(0x61040, 9), (0x78040, 37120)] } : State) Reg.LEMAC_UID_HI_UID
        · exact ⟨{ port := 1, start := 0, bytes := (List.replicate 12 7 ++ [145, 0, 255, 255, 0, 12, 0, 0, 64, 1] ++ List.replicate 7 0 ++ [2, 0, 1] ++ List.replicate 5 0 ++ [1] ++ List.replicate 5 0 ++ [3, 0, 0, 0, 100, 0, 7, 0, 3, 208, 144] ++ List.replicate 6 0), fcs := true }, { live with ctl := [(0x61040, 9), (0x78040, 37120)] }, by decide +kernel, by decide +kernel, by decide +kernel, by decide +kernel, fun e => absurd (h.trans e.symm) (by decide +kernel), by decide +kernel⟩
        · exact ⟨{ port := 1, start := 0, bytes := (List.replicate 12 7 ++ [145, 0, 255, 255, 0, 12, 0, 0, 64, 1] ++ List.replicate 7 0 ++ [1, 0, 1] ++ List.replicate 5 0 ++ [1] ++ List.replicate 5 0 ++ [3, 0, 0, 0, 100, 0, 7, 0, 3, 208, 144] ++ List.replicate 6 0), fcs := true }, { live with ctl := [(0x61040, 9), (0x78040, 37120)] }, by decide +kernel, by decide +kernel, by decide +kernel, by decide +kernel, h, by decide +kernel⟩),
   ⟨{ port := 1, start := 0, bytes := (List.replicate 12 7 ++ [145, 0, 255, 255, 0, 12, 0, 0, 64, 1] ++ List.replicate 7 0 ++ [2, 2, 1] ++ List.replicate 5 0 ++ [4] ++ List.replicate 5 0 ++ [3, 0, 0, 0, 100, 0, 7, 0, 3, 208, 144] ++ List.replicate 6 0), fcs := true }, { (regs live [(0x78060, 4)]) with ctl := [(0x61040, 1), (0x78040, 37120)] }, by decide +kernel, by decide +kernel, by decide +kernel⟩⟩

theorem witness_SetPointsAndAsynchronousTraffic_1 :
    (∃ (p : Fin 24) (k : Fin 4096) (e : SlotE) (s : State), (portSlots s p.val)[k.val]? = some e ∧ e.kind = 2 ∧ domOn s dNET = true ∧ e.spn = 1 ∧ bitOf 10 (spEntry s (bank s) e.spe) = false ∧ maySend s p.val = true ∧ (isOrigin s p.val = true ∨ isRelay s p.val = true) ∧ (tget (fun x => 0) s.sched.entries e.spe = 0)) ∧
    (∃ (p : Fin 24) (k : Fin 4096) (e : SlotE) (s : State), (portSlots s p.val)[k.val]? = some e ∧ e.kind = 2 ∧ domOn s dNET = true ∧ e.spn = 1 ∧ bitOf 10 (spEntry s (bank s) e.spe) = false ∧ maySend s p.val = true ∧ (isOrigin s p.val = true ∨ isRelay s p.val = true) ∧ (tget (fun x => 0) s.sched.entries e.spe ≠ 0)) ∧
    (∃ (f : RxFrame) (s : State), portLive s ↑f.port = true ∧ chkHead s f 2 true = Chk.ok 0 ∧ (role s ≠ rSTANDBY ∨ ∀ e ∈ portSlots s ↑f.port, ¬(e.kind = 2 ∧ e.slot = fSlot f))) ∧
    (∃ (p : Fin 24) (k : Fin 4096) (e : SlotE) (s : State) (q : Nat × Nat), ((portSlots s p.val)[k.val]? = some e) ∧ (e.kind = 3) ∧ (domOn s dNET = true) ∧ (mayQueue s p.val = true) ∧ ((port s p.val).tx = none) ∧ (txHead s p.val = TxHead.empty) ∧ ((port s p.val).resp = [q]) ∧ ((port s p.val).askDue = false) ∧ (endsInTime s (p.val) e.at_ asFrameLen (some (e.at_ + 256 * e.len, e.tunnel)) = true)) ∧
    (∃ (p : Fin 24) (k : Fin 4096) (e : SlotE) (s : State), ((portSlots s p.val)[k.val]? = some e) ∧ (e.kind = 3) ∧ (domOn s dNET = true) ∧ (mayQueue s p.val = true) ∧ ((port s p.val).tx = none) ∧ (txHead s p.val = TxHead.empty) ∧ ((port s p.val).resp = []) ∧ ((port s p.val).askDue = true) ∧ (isFar s p.val = true) ∧ (endsInTime s (p.val) e.at_ asFrameLen (some (e.at_ + 256 * e.len, e.tunnel)) = true)) ∧
    (∃ (p : Fin 24) (k : Fin 4096) (e : SlotE) (s : State), (portSlots s p.val)[k.val]? = some e ∧ e.kind = 3 ∧ domOn s dNET = true ∧ mayQueue s p.val = true ∧ (port s p.val).tx = none ∧ txHead s p.val = TxHead.empty ∧ (port s p.val).resp = [] ∧ (port s p.val).askDue = false) ∧
    (∃ (p : Fin 24) (k : Fin 4096) (e : SlotE) (s : State) (n : Nat) (b : List Byte), (portSlots s p.val)[k.val]? = some e ∧ e.kind = 3 ∧ domOn s dNET = true ∧ mayQueue s p.val = true ∧ (port s p.val).tx = none ∧ (port s p.val).resp = [] ∧ (port s p.val).askDue = false ∧ txHead s p.val = TxHead.frame n b none ∧ etherRefused s b (some (e.at_ + 256 * e.len, e.tunnel)) = false ∧ endsInTime s (p.val) e.at_ b.length (some (e.at_ + 256 * e.len, e.tunnel)) = true) ∧
    (∃ (p : Fin 24) (stamp : W64) (frac : BitVec 16) (r : TxRun) (s : State) (T : Nat), ((port s p.val).tx = some r) ∧ (domOn s dCIST = true) ∧ ((port s p.val).win = none) ∧ (r.sent = true) ∧ (r.wrap = false) ∧ (rd s (Reg.PORT_AQTX_BLOCK p.val) + r.ofs < 32768) ∧ (T = (((BitVec.toNat stamp * 2 ^ 16 + frac.toNat : Nat) : Int) + txFix s p.val).toNat)) ∧
    (∃ (p : Fin 26) (n : Nat) (b : List Byte) (l : Nat) (s : State) (at_ : Nat) (win : Option (Nat × Bool)), mayQueue s p.val = true ∧ domOn s dNET = true ∧ (port s p.val).tx = none ∧ txHead s p.val = TxHead.frame n b (some l) ∧ at_ = (l * 2 ^ 40 - s.time.tb % 2 ^ 104) / 2 ^ 40 ∧ (win = if p.val < 24 then asyncAt s (p.val) at_ else none) ∧ (p.val < 24 → win.isSome = true) ∧ endsInTime s (p.val) at_ b.length win = true ∧ etherRefused s b win = false) ∧
    (∃ (f : RxFrame) (s : State) (p : Nat), p = ↑f.port ∧ portLive s p = true ∧ (asyncAt s p f.start).isSome = true ∧ f.bytes.length ≤ 1514 ∧ f.fcs = false) ∧
    (∃ (f : RxFrame) (s : State) (p : Nat) (cut : Bool), (p = ↑f.port) ∧ (portLive s p = true) ∧ ((asyncAt s p f.start).isSome = true) ∧ (f.bytes.length ≤ 1514) ∧ (cut = true ∨ f.fcs = true) ∧ (asyncBad s f = true)) ∧
    (∃ (f : RxFrame) (s : State) (p : Nat) (cut : Bool), p = ↑f.port ∧ portLive s p = true ∧ (asyncAt s p f.start).isSome = true ∧ f.bytes.length ≤ 1514 ∧ (cut = true ∨ f.fcs = true) ∧ asyncBad s f = false ∧ ringOn s (ringOf s p false) = false) :=
  ⟨⟨0, 2, { at_ := 0, len := 0, kind := 2, pos := 0, slot := 0, map := 4096, mapn := 0, edge := 0, edgen := 0, spe := 0, spn := 1, tunnel := false }, (mwrite (mwrite (mwrite { (regs live [(0x6004C, 8), (0x78068, 4)]) with ctl := [(0x60040, 9)] } 813563920 [100, 128]) 813564740 [32]) 813564745 [16]), by decide +kernel, by decide +kernel, by decide +kernel, by decide +kernel, by decide +kernel, by decide +kernel, by decide +kernel, by decide +kernel⟩,
   ⟨0, 2, { at_ := 0, len := 0, kind := 2, pos := 0, slot := 0, map := 4096, mapn := 0, edge := 0, edgen := 0, spe := 0, spn := 1, tunnel := false }, { (mwrite (mwrite (mwrite { (regs live [(0x6004C, 8), (0x78068, 4)]) with ctl := [(0x60040, 1)] } 813563920 [100, 128]) 813564740 [32]) 813564745 [16]) with sched := { entries := [(0x0, 1)] } }, by decide +kernel, by decide +kernel, by decide +kernel, by decide +kernel, by decide +kernel, by decide +kernel, by decide +kernel, by decide +kernel⟩,
   ⟨{ port := 0, start := 0, bytes := (List.replicate 12 7 ++ [145, 0, 8, 3, 0, 12, 0, 0, 32, 1, 123, 171, 148, 103, 86, 91, 90, 179, 131, 46, 166, 154, 78, 165, 3, 211, 79, 105, 150, 127] ++ List.replicate 18 0), fcs := true }, { { live with ctl := [(0x60040, 9), (0x78040, 37120)] } with sched := { cycle := 12 } }, by decide +kernel, by decide +kernel, by decide +kernel⟩,
   ⟨0, 3, { at_ := 0, len := 64, kind := 3, pos := 0, slot := 0, map := 0, mapn := 0, edge := 0, edgen := 0, spe := 0, spn := 0, tunnel := false }, { (mwrite (mwrite { (regs live [(0x78068, 4)]) with ctl := [(0x60040, 9), (0x78040, 37120)] } 813563920 [100, 128]) 813564755 [16, 48]) with lemac := { ports := [(0, { resp := [(0x1, 2)] })] } }, (1, 2), by decide +kernel, by decide +kernel, by decide +kernel, by decide +kernel, by decide +kernel, by decide +kernel, by decide +kernel, by decide +kernel, by decide +kernel⟩,
   ⟨0, 3, { at_ := 0, len := 64, kind := 3, pos := 0, slot := 0, map := 0, mapn := 0, edge := 0, edgen := 0, spe := 0, spn := 0, tunnel := false }, { (mwrite (mwrite { (regs live [(0x78068, 4)]) with ctl := [(0x60040, 9), ((Reg.PORT_LINE_CLOSED 0).addr, 0xFFFFFFFF), (0x78040, 37120)] } 813563920 [100, 128]) 813564755 [16, 48]) with lemac := { ports := [(0, { askDue := true })] } }, by decide +kernel, by decide +kernel, by decide +kernel, by decide +kernel, by decide +kernel, by decide +kernel, by decide +kernel, by decide +kernel, by decide +kernel, by decide +kernel⟩,
   ⟨0, 3, { at_ := 0, len := 0, kind := 3, pos := 0, slot := 0, map := 0, mapn := 0, edge := 0, edgen := 0, spe := 0, spn := 0, tunnel := false }, (mwrite (mwrite { (regs live [(0x78068, 4)]) with ctl := [(0x60040, 1)] } 813563920 [100, 128]) 813564756 [48]), by decide +kernel, by decide +kernel, by decide +kernel, by decide +kernel, by decide +kernel, by decide +kernel, by decide +kernel, by decide +kernel⟩,
   ⟨1, 1, { at_ := 0, len := 32, kind := 3, pos := 0, slot := 0, map := 0, mapn := 0, edge := 0, edgen := 0, spe := 0, spn := 0, tunnel := false }, { (mwrite (mwrite (mwrite (mwrite { (regs live [(0x61054, 589944), (0x78068, 4)]) with ctl := [(0x61040, 9), (0x78040, 37120)] } 536901633 [1]) 536901660 [145]) 813563928 [120, 64]) 813564883 [8, 48]) with cist := [(120, { flt := 3 }), (121, { flt := 3 })] }, 2, (List.replicate 12 0 ++ [145] ++ List.replicate 243 0), by decide +kernel, by decide +kernel, by decide +kernel, by decide +kernel, by decide +kernel, by decide +kernel, by decide +kernel, by decide +kernel, by decide +kernel, by decide +kernel⟩,
   ⟨1, 0, 256, { ofs := 0, k := 0, status := 0, wrap := false, sent := true, next := 0 }, { live with lemac := { ports := [(1, { tx := (some { ofs := 0, k := 0, status := 0, wrap := false, sent := true, next := 0 }) })] } }, 256, by decide +kernel, by decide +kernel, by decide +kernel, by decide +kernel, by decide +kernel, by decide +kernel, by decide +kernel⟩,
   ⟨24, 1, (List.replicate 32 0), 0, { (mwrite (mwrite (regs live [(0x7B060, 1), (0x7B068, 589984)]) 536911872 [32]) 536911874 [1]) with cist := [(160, { flt := 3 })] }, 0, none, by decide +kernel, by decide +kernel, by decide +kernel, by decide +kernel, by decide +kernel, by decide +kernel, by decide +kernel, by decide +kernel, by decide +kernel⟩,
   ⟨{ port := 0, start := 9500, bytes := (List.replicate 12 7 ++ [145, 0, 255, 254, 0, 12, 0, 0, 96, 1, 1, 9] ++ List.replicate 8 0 ++ [1, 0, 0, 20, 7, 156, 54, 43, 252, 205, 222, 197] ++ List.replicate 16 0), fcs := false }, (mwrite (mwrite { (regs live [(0x78068, 4)]) with ctl := [(0x60040, 1)] } 813563920 [100, 128]) 813564755 [16, 48]), 0, by decide +kernel, by decide +kernel, by decide +kernel, by decide +kernel, by decide +kernel⟩,
   ⟨{ port := 0, start := 9000, bytes := (List.replicate 12 7 ++ [145, 0, 255, 254, 0, 12, 0, 0, 96, 2, 1, 9] ++ List.replicate 8 0 ++ [1, 0, 0, 21, 197, 81, 115, 231, 211, 220, 31, 203] ++ List.replicate 16 0), fcs := true }, (mwrite (mwrite { (regs live [(0x78068, 4)]) with ctl := [(0x60040, 9), (0x78040, 37120)] } 813563920 [100, 128]) 813564755 [16, 48]), 0, true, by decide +kernel, by decide +kernel, by decide +kernel, by decide +kernel, by decide +kernel, by decide +kernel⟩,
   ⟨{ port := 0, start := 9000, bytes := (List.replicate 12 7 ++ [145, 0, 255, 254, 0, 12, 0, 0, 96, 1, 1, 9] ++ List.replicate 8 0 ++ [1, 0, 0, 21, 197, 81, 115, 231, 211, 220, 31, 203] ++ List.replicate 16 0), fcs := true }, (mwrite (mwrite { (regs live [(0x78068, 4)]) with ctl := [(0x60040, 9)] } 813563920 [100, 128]) 813564755 [16, 48]), 0, true, by decide +kernel, by decide +kernel, by decide +kernel, by decide +kernel, by decide +kernel, by decide +kernel, by decide +kernel⟩⟩

theorem witness_SetPointsAndAsynchronousTraffic_2 :
    (∃ (f : RxFrame) (s : State) (p : Nat) (cut : Bool) (o : Nat), p = ↑f.port ∧ portLive s p = true ∧ (asyncAt s p f.start).isSome = true ∧ f.bytes.length ≤ 1514 ∧ (cut = true ∨ f.fcs = true) ∧ asyncBad s f = false ∧ ((fun s p b o => have r := ringOf s p false; ringOn s r = true ∧ (o = if r.2 < (port s p).rxPos + recBlocks b.length then 0 else (port s p).rxPos) ∧ recBlocks b.length ≤ r.2 ∧ allFloat s (r.1 + o) (recBlocks b.length) 3 = true) s p f.bytes o)) ∧
    (∃ (f : RxFrame) (s : State) (p : Nat), (p = ↑f.port) ∧ (portLive s p = true) ∧ ((asyncAt s p f.start).isSome = true) ∧ (f.bytes.length ≤ 1514) ∧ (f.fcs = true) ∧ (¬chkHead s f 6 (decide (rd s Reg.LEMAC_PSTATE_STATE = 3)) = Chk.ok 0)) ∧
    (∃ (f : RxFrame) (s : State) (p : Nat) (t3 : W64), (p = ↑f.port) ∧ (portLive s p = true) ∧ ((asyncAt s p f.start).isSome = true) ∧ (f.bytes.length ≤ 1514) ∧ (f.fcs = true) ∧ (chkHead s f 6 (decide (rd s Reg.LEMAC_PSTATE_STATE = 3)) = Chk.ok 0) ∧ (isTsync (fBody f) = true) ∧ (maySend s p = true) ∧ ((asyncAt s p ((BitVec.toNat t3 + 2 ^ 64 - s.time.tb / 2 ^ 24 % 2 ^ 64) % 2 ^ 64 / 2 ^ 16)).isSome = true) ∧ (endsInTime s p ((BitVec.toNat t3 + 2 ^ 64 - s.time.tb / 2 ^ 24 % 2 ^ 64) % 2 ^ 64 / 2 ^ 16) asFrameLen (asyncAt s p ((BitVec.toNat t3 + 2 ^ 64 - s.time.tb / 2 ^ 24 % 2 ^ 64) % 2 ^ 64 / 2 ^ 16)) = true)) ∧
    (∃ (f : RxFrame) (s : State) (p : Nat) (t3 : W64), p = ↑f.port ∧ portLive s p = true ∧ (asyncAt s p f.start).isSome = true ∧ f.bytes.length ≤ 1514 ∧ f.fcs = true ∧ chkHead s f 6 (decide (rd s Reg.LEMAC_PSTATE_STATE = 3)) = Chk.ok 0 ∧ isTsync (fBody f) = true ∧ maySend s p = true ∧ (¬((asyncAt s p ((BitVec.toNat t3 + 2 ^ 64 - s.time.tb / 2 ^ 24 % 2 ^ 64) % 2 ^ 64 / 2 ^ 16)).isSome = true ∧ endsInTime s p ((BitVec.toNat t3 + 2 ^ 64 - s.time.tb / 2 ^ 24 % 2 ^ 64) % 2 ^ 64 / 2 ^ 16) asFrameLen (asyncAt s p ((BitVec.toNat t3 + 2 ^ 64 - s.time.tb / 2 ^ 24 % 2 ^ 64) % 2 ^ 64 / 2 ^ 16)) = true))) ∧
    (∃ (f : RxFrame) (s : State) (p : Nat), (p = ↑f.port) ∧ (portLive s p = true) ∧ ((asyncAt s p f.start).isSome = true) ∧ (f.bytes.length ≤ 1514) ∧ (f.fcs = true) ∧ (chkHead s f 6 (decide (rd s Reg.LEMAC_PSTATE_STATE = 3)) = Chk.ok 0) ∧ (isTsync (fBody f) = false) ∧ (isAnswer s p (fBody f) = true)) ∧
    (∃ (f : RxFrame) (s : State) (p : Nat), p = ↑f.port ∧ portLive s p = true ∧ (asyncAt s p f.start).isSome = true ∧ f.bytes.length ≤ 1514 ∧ f.fcs = true ∧ chkHead s f 6 (decide (rd s Reg.LEMAC_PSTATE_STATE = 3)) = Chk.ok 0 ∧ isTsync (fBody f) = false ∧ isAnswer s p (fBody f) = false ∧ ringOn s (ringOf s p false) = false) ∧
    (∃ (f : RxFrame) (s : State) (p : Nat) (o : Nat), p = ↑f.port ∧ portLive s p = true ∧ (asyncAt s p f.start).isSome = true ∧ f.bytes.length ≤ 1514 ∧ f.fcs = true ∧ chkHead s f 6 (decide (rd s Reg.LEMAC_PSTATE_STATE = 3)) = Chk.ok 0 ∧ isTsync (fBody f) = false ∧ isAnswer s p (fBody f) = false ∧ ((fun s p b o => have r := ringOf s p false; ringOn s r = true ∧ (o = if r.2 < (port s p).rxPos + recBlocks b.length then 0 else (port s p).rxPos) ∧ recBlocks b.length ≤ r.2 ∧ allFloat s (r.1 + o) (recBlocks b.length) 3 = true) s p f.bytes o)) ∧
    (∃ (n : Fin 2) (f : PlantFrame) (s : State), (domOn s dLINK = false ∨ on s (Reg.PLANT_CFG_EN n.val) = false ∨ f.fcs = false ∨ 1514 < f.bytes.length)) ∧
    (∃ (n : Fin 2) (f : PlantFrame) (s : State), domOn s dLINK = true ∧ on s (Reg.PLANT_CFG_EN n.val) = true ∧ f.fcs = true ∧ f.bytes.length ≤ 1514 ∧ ptpType (ptpUdp s n.val) f.bytes = none ∧ ringOn s (ringOf s (24 + n.val) false) = false) ∧
    (∃ (n : Fin 2) (f : PlantFrame) (s : State) (o : Nat), domOn s dLINK = true ∧ on s (Reg.PLANT_CFG_EN n.val) = true ∧ f.fcs = true ∧ f.bytes.length ≤ 1514 ∧ ((fun s p b o => have r := ringOf s p false; ringOn s r = true ∧ (o = if r.2 < (port s p).rxPos + recBlocks b.length then 0 else (port s p).rxPos) ∧ recBlocks b.length ≤ r.2 ∧ allFloat s (r.1 + o) (recBlocks b.length) 3 = true) s (24 + n.val) f.bytes o)) :=
  ⟨⟨{ port := 1, start := 9000, bytes := (List.replicate 12 7 ++ [145, 0, 255, 254, 0, 12, 0, 0, 96, 1, 1, 9] ++ List.replicate 8 0 ++ [1, 0, 0, 20, 202, 231, 118, 2, 64, 255, 180, 171] ++ List.replicate 16 0), fcs := true }, { (mwrite (mwrite { (regs live [(0x61058, 589952), (0x78068, 4)]) with ctl := [(0x61040, 9)] } 813563928 [120, 64]) 813564883 [12, 48]) with cist := [(130, { flt := 3 })], lemac := { ports := [(1, { rxPos := 2 })] } }, 1, false, 2, by decide +kernel, by decide +kernel, by decide +kernel, by decide +kernel, by decide +kernel, by decide +kernel, by decide +kernel⟩,
   ⟨{ port := 0, start := 9500, bytes := (List.replicate 12 7 ++ [145, 0, 255, 254, 0, 12, 0, 0, 96, 2, 1, 9] ++ List.replicate 8 0 ++ [1, 0, 0, 20, 247, 195, 156, 59, 229, 177, 195, 39] ++ List.replicate 16 0), fcs := true }, (mwrite (mwrite { (regs live [(0x78068, 4)]) with ctl := [(0x60040, 9), (0x78040, 37120)] } 813563920 [100, 128]) 813564755 [16, 48]), 0, by decide +kernel, by decide +kernel, by decide +kernel, by decide +kernel, by decide +kernel, by decide +kernel⟩,
   ⟨{ port := 0, start := 9500, bytes := (List.replicate 12 7 ++ [145, 0, 255, 254, 0, 12, 0, 0, 96, 1, 1, 9] ++ List.replicate 8 0 ++ [1, 0, 0, 20, 247, 195, 156, 59, 229, 177, 195, 39] ++ List.replicate 16 0), fcs := true }, (mwrite (mwrite { (regs live [(0x78068, 4)]) with ctl := [(0x60040, 9), (0x78040, 37120)] } 813563920 [100, 128]) 813564755 [16, 48]), 0, BitVec.ofNat 64 (9500 * 2 ^ 16), by decide +kernel, by decide +kernel, by decide +kernel, by decide +kernel, by decide +kernel, by decide +kernel, by decide +kernel, by decide +kernel, by decide +kernel, by decide +kernel⟩,
   ⟨{ port := 0, start := 9500, bytes := (List.replicate 12 7 ++ [145, 0, 255, 254, 0, 12, 0, 0, 96, 1, 1, 9] ++ List.replicate 8 0 ++ [1, 0, 0, 20, 247, 195, 156, 59, 229, 177, 195, 39] ++ List.replicate 16 0), fcs := true }, (mwrite (mwrite { (regs live [(0x78068, 4)]) with ctl := [(0x60040, 9), (0x78040, 37120)] } 813563920 [100, 128]) 813564755 [16, 48]), 0, 1269056741624402925, by decide +kernel, by decide +kernel, by decide +kernel, by decide +kernel, by decide +kernel, by decide +kernel, by decide +kernel, by decide +kernel, by decide +kernel⟩,
   ⟨{ port := 0, start := 9500, bytes := (List.replicate 12 7 ++ [145, 0, 255, 254, 0, 12, 0, 0, 96, 1, 3, 9, 0, 21] ++ List.replicate 16 0 ++ [ 247, 195, 156, 59, 229, 177, 195, 39] ++ List.replicate 16 0), fcs := true }, { (mwrite (mwrite { (regs live [(0x78068, 4)]) with ctl := [(0x60040, 9), (0x78040, 37120)] } 813563920 [100, 128]) 813564755 [16, 48]) with lemac := { ports := [(0, { asked := some (9, 0) })] } }, 0, by decide +kernel, by decide +kernel, by decide +kernel, by decide +kernel, by decide +kernel, by decide +kernel, by decide +kernel, by decide +kernel⟩,
   ⟨{ port := 0, start := 9000, bytes := (List.replicate 12 7 ++ [145, 0, 255, 254, 0, 12, 0, 0, 96, 1, 1, 9] ++ List.replicate 8 0 ++ [1, 0, 0, 21, 181, 163, 243, 162, 100, 251, 135, 15] ++ List.replicate 16 0), fcs := true }, (mwrite (mwrite { (regs live [(0x78068, 4)]) with ctl := [(0x60040, 1), (0x78040, 37120)] } 813563920 [100, 128]) 813564755 [16, 48]), 0, by decide +kernel, by decide +kernel, by decide +kernel, by decide +kernel, by decide +kernel, by decide +kernel, by decide +kernel, by decide +kernel, by decide +kernel⟩,
   ⟨{ port := 0, start := 9100, bytes := (List.replicate 12 7 ++ [145, 0, 255, 254, 0, 12, 0, 0, 96, 1, 1, 9] ++ List.replicate 8 0 ++ [1, 0, 0, 21, 55, 216, 163, 181, 75, 91, 162, 41] ++ List.replicate 16 0), fcs := true }, { (mwrite (mwrite { (regs live [(0x60058, 589952), (0x78068, 4)]) with ctl := [(0x60040, 9), (0x78040, 37120)] } 813563920 [100, 128]) 813564755 [16, 48]) with cist := [(129, { flt := 3 })], lemac := { ports := [(0, { rxPos := 1 })] } }, 0, 1, by decide +kernel, by decide +kernel, by decide +kernel, by decide +kernel, by decide +kernel, by decide +kernel, by decide +kernel, by decide +kernel, by decide +kernel⟩,
   ⟨0, { stamp := 5, frac := 0, bytes := [172, 26, 42, 182, 121, 15, 26, 165, 195, 17, 144, 116, 141, 151, 219, 93, 216, 122, 215, 70, 182, 246, 45, 133, 31, 166, 95, 190, 178, 53, 176, 183, 47, 65, 120, 170, 221, 2, 180, 248, 18, 13, 224, 133, 168, 11, 159, 53, 233, 227, 23, 27, 95, 158, 133, 6, 212, 35, 139, 52], fcs := true }, live, by decide +kernel⟩,
   ⟨1, { stamp := 5, frac := 0, bytes := (List.replicate 1514 7), fcs := true }, (regs live [(0x7C060, 1)]), by decide +kernel, by decide +kernel, by decide +kernel, by decide +kernel, by decide +kernel, by decide +kernel⟩,
   ⟨1, { stamp := 5, frac := 0, bytes := [189, 199, 109, 50, 99, 13, 221, 229, 112, 66, 116, 84, 104, 96, 90, 151, 74, 233, 85, 106, 120, 147, 117, 242, 11, 59, 9, 212, 53, 166, 171, 162, 60, 188, 162, 64, 132, 139, 228, 127, 130, 156, 21, 2, 77, 16, 71, 66, 103, 114, 247, 18, 67, 11, 171, 151, 91, 175, 179, 193], fcs := true }, { (regs live [(0x7C060, 1), (0x7C06C, 590080)]) with cist := [(256, { flt := 3 })] }, 0, by decide +kernel, by decide +kernel, by decide +kernel, by decide +kernel, by decide +kernel⟩⟩

theorem witness_ScheduleBanks :
    (∃ (m : Master) (w : W32) (s : State), CanReach m s Reg.LEMAC_CMD.addr ∧ roleBars s m = false ∧ wbits Reg.LEMAC_CMD_OP w = 1 ∧ (on s Reg.LEMAC_CMD_BUSY = true ∨ on s Reg.LEMAC_SWAP_PEND = true)) ∧
    (∃ (m : Master) (w : W32) (s : State), CanReach m s Reg.LEMAC_CMD.addr ∧ roleBars s m = false ∧ wbits Reg.LEMAC_CMD_OP w = 1 ∧ on s Reg.LEMAC_CMD_BUSY = false ∧ on s Reg.LEMAC_SWAP_PEND = false ∧ domOn s dCIST = false) ∧
    (∃ (m : Master) (w : W32) (s : State), CanReach m s Reg.LEMAC_CMD.addr ∧ roleBars s m = false ∧ wbits Reg.LEMAC_CMD_OP w = 1 ∧ on s Reg.LEMAC_CMD_BUSY = false ∧ on s Reg.LEMAC_SWAP_PEND = false ∧ domOn s dCIST = true ∧ hostOwned s (wbits Reg.LEMAC_CMD_BLOCK w) 256 = false) ∧
    (∃ (m : Master) (w : W32) (s : State) (i : Nat), CanReach m s Reg.LEMAC_CMD.addr ∧ roleBars s m = false ∧ wbits Reg.LEMAC_CMD_OP w = 1 ∧ on s Reg.LEMAC_CMD_BUSY = false ∧ on s Reg.LEMAC_SWAP_PEND = false ∧ domOn s dCIST = true ∧ hostOwned s (wbits Reg.LEMAC_CMD_BLOCK w) 256 = true ∧ i < 256) ∧
    (∃ (m : Master) (w : W32) (s : State), CanReach m s Reg.LEMAC_CMD.addr ∧ roleBars s m = false ∧ wbits Reg.LEMAC_CMD_OP w = 2 ∧ (on s Reg.LEMAC_CMD_BUSY = true ∨ on s Reg.LEMAC_SWAP_PEND = true)) ∧
    (∃ (m : Master) (w : W32) (s : State), CanReach m s Reg.LEMAC_CMD.addr ∧ roleBars s m = false ∧ wbits Reg.LEMAC_CMD_OP w = 2 ∧ on s Reg.LEMAC_CMD_BUSY = false ∧ on s Reg.LEMAC_SWAP_PEND = false) ∧
    (∃ (n : Nat) (s : State), s.lemac.inst = some n ∧ bank s ≤ 1 ∧ waitsPeer s 0 = false ∧ domOn s dCIST = false) ∧
    (∃ (m : Master) (w : W32) (s : State), CanReach m s Reg.LEMAC_SWAP.addr ∧ roleBars s m = false ∧ wbits Reg.LEMAC_SWAP_REQ w = 1 ∧ (¬(s.sched.cycle + 33 ≤ rd64 s Reg.LEMAC_SWAP_AT_LO_CYCLE Reg.LEMAC_SWAP_AT_HI_CYCLE ∧ (rd s Reg.LEMAC_SCHED_SHADOW ≠ 0 ∧ on s Reg.CYC_GBANK_CHECKED = true ∧ rd s Reg.CYC_GBANK_SCHED = rd s Reg.LEMAC_SCHED_SHADOW) ∧ on s Reg.LEMAC_CMD_BUSY = false ∧ ∀ (c : GCmd), s.sched.gcmd = some c → c.load = true))) ∧
    (∃ (m : Master) (w : W32) (s : State), CanReach m s Reg.LEMAC_SWAP.addr ∧ roleBars s m = false ∧ wbits Reg.LEMAC_SWAP_REQ w = 1 ∧ s.sched.cycle + 33 ≤ rd64 s Reg.LEMAC_SWAP_AT_LO_CYCLE Reg.LEMAC_SWAP_AT_HI_CYCLE ∧ (rd s Reg.LEMAC_SCHED_SHADOW ≠ 0 ∧ on s Reg.CYC_GBANK_CHECKED = true ∧ rd s Reg.CYC_GBANK_SCHED = rd s Reg.LEMAC_SCHED_SHADOW) ∧ (on s Reg.LEMAC_CMD_BUSY = false ∧ ∀ (c : GCmd), s.sched.gcmd = some c → c.load = true) ∧ (encLate s (bits 47 16 (schedWord s (1 - bank s) 0)) || imageLate s (1 - bank s)) = true) ∧
    (∃ (m : Master) (w : W32) (s : State), CanReach m s Reg.LEMAC_SWAP.addr ∧ roleBars s m = false ∧ wbits Reg.LEMAC_SWAP_REQ w = 1 ∧ s.sched.cycle + 33 ≤ rd64 s Reg.LEMAC_SWAP_AT_LO_CYCLE Reg.LEMAC_SWAP_AT_HI_CYCLE ∧ (rd s Reg.LEMAC_SCHED_SHADOW ≠ 0 ∧ on s Reg.CYC_GBANK_CHECKED = true ∧ rd s Reg.CYC_GBANK_SCHED = rd s Reg.LEMAC_SCHED_SHADOW) ∧ (on s Reg.LEMAC_CMD_BUSY = false ∧ ∀ (c : GCmd), s.sched.gcmd = some c → c.load = true) ∧ (encLate s (bits 47 16 (schedWord s (1 - bank s) 0)) || imageLate s (1 - bank s)) = false) :=
  ⟨⟨.device, 65836, (regs live [(0x7807C, 2)]), by unfold CanReach; decide +kernel, by decide +kernel, by decide +kernel, by decide +kernel⟩,
   ⟨.acq, 65836, (setDom live 13 { }), by unfold CanReach; decide +kernel, by decide +kernel, by decide +kernel, by decide +kernel, by decide +kernel, by decide +kernel⟩,
   ⟨.steward1, 65836, live, by unfold CanReach; decide +kernel, by decide +kernel, by decide +kernel, by decide +kernel, by decide +kernel, by decide +kernel, by decide +kernel⟩,
   ⟨.host, 65836, { live with cist := (List.range 256).map (fun i => (300 + i, { flt := 1 })) }, 0, by unfold CanReach; decide +kernel, by decide +kernel, by decide +kernel, by decide +kernel, by decide +kernel, by decide +kernel, by decide +kernel, by decide +kernel⟩,
   ⟨(.cluDma 0), 3831654402, (regs live [(0x7806C, 2147483648)]), by unfold CanReach; decide +kernel, by decide +kernel, by decide +kernel, by decide +kernel⟩,
   ⟨.transmit, 131372, live, by unfold CanReach; decide +kernel, by decide +kernel, by decide +kernel, by decide +kernel, by decide +kernel⟩,
   ⟨0, { (setDom live 13 { }) with lemac := { inst := (some 0) } }, by decide +kernel, by decide +kernel, by decide +kernel, by decide +kernel⟩,
   ⟨.acq, 1, live, by unfold CanReach; decide +kernel, by decide +kernel, by decide +kernel, by decide +kernel⟩,
   ⟨.host, 1, { (regs live [(0x14108, 65543), (0x78068, 458752), (0x78074, 40)]) with ctl := [(0x90040, 1)] }, by unfold CanReach; decide +kernel, by decide +kernel, by decide +kernel, by decide +kernel, by decide +kernel, by decide +kernel, by decide +kernel⟩,
   ⟨.steward0, 1, (regs live [(0x14108, 65543), (0x78068, 458752), (0x78074, 40)]), by unfold CanReach; decide +kernel, by decide +kernel, by decide +kernel, by decide +kernel, by decide +kernel, by decide +kernel, by decide +kernel⟩⟩

theorem witness_NetworkTimeCorrections_1 :
    (∃ (s : State), (s.lemac.launching = false ∨ domOn s dNET = false)) ∧
    (∃ (s : State), s.lemac.launching = true ∧ domOn s dNET = true ∧ s.sched.cycle % 16 ≠ 0) ∧
    (∃ (s : State), domOn s dNET = true ∧ domOn s dSTEWARD = true ∧ s.time.devSum = 0) ∧
    (∃ (s : State), (domOn s dNET = false ∨ domOn s dSTEWARD = false)) ∧
    (∃ (s : State), domOn s dNET = false) ∧
    (∃ (s : State), domOn s dNET = true ∧ (role s = rALONE ∨ role s = rACTIVE)) ∧
    (∃ (s : State), domOn s dNET = true ∧ role s = rSTANDBY) ∧
    (∃ (s : State), rd s Reg.TIME_CTRL_SRC = 0) ∧
    (∃ (s : State) (lim : Int), (rd s Reg.TIME_CTRL_SRC ≠ 0) ∧ (domOn s dNET = true) ∧ (s.lemac.launching = true) ∧ (lim = ((rd s Reg.TIME_LIMITS_RATE_LIMIT * 2 ^ 40 / 10 ^ 9 : Nat) : Int))) ∧
    (∃ (s : State), rd s Reg.TIME_CTRL_SRC ≠ 0 ∧ domOn s dNET = true ∧ s.lemac.launching = false) ∧
    (∃ (m : Master) (w : W32) (s : State), CanReach m s Reg.TIME_SET_CMD.addr ∧ wbits Reg.TIME_SET_CMD_SET w = 1 ∧ s.time.used = true) ∧
    (∃ (m : Master) (w : W32) (s : State), CanReach m s Reg.TIME_SET_CMD.addr ∧ wbits Reg.TIME_SET_CMD_SET w = 1 ∧ s.time.used = false) :=
  ⟨⟨live, by decide +kernel⟩,
   ⟨{ live with sched := { cycle := 1 }, lemac := { launching := true } }, by decide +kernel, by decide +kernel, by decide +kernel⟩,
   ⟨live, by decide +kernel, by decide +kernel, by decide +kernel⟩,
   ⟨(setDom live 9 { }), by decide +kernel⟩,
   ⟨(setDom live 9 { }), by decide +kernel⟩,
   ⟨live, by decide +kernel, by decide +kernel⟩,
   ⟨(regs live [(0x7D050, 2)]), by decide +kernel, by decide +kernel⟩,
   ⟨live, by decide +kernel⟩,
   ⟨{ (regs live [(0x7A040, 4130)]) with lemac := { launching := true } }, (109951162), by decide +kernel, by decide +kernel, by decide +kernel, by decide +kernel⟩,
   ⟨(regs live [(0x7A040, 4130)]), by decide +kernel, by decide +kernel, by decide +kernel⟩,
   ⟨.transmit, 4294967295, { live with time := { used := true } }, by unfold CanReach; decide +kernel, by decide +kernel, by decide +kernel⟩,
   ⟨.safetyProc, 6172835, live, by unfold CanReach; decide +kernel, by decide +kernel, by decide +kernel⟩⟩

theorem witness_NetworkTimeCorrections_2 :
    (∃ (m : Master) (w : W32) (s : State) (n : Nat), CanReach m s Reg.TIME_STEP_CMD.addr ∧ roleBars s m = false ∧ wbits Reg.TIME_STEP_CMD_ACCEPT w = 1 ∧ n = rd64 s Reg.TIME_STEP_AT_LO_CYCLE Reg.TIME_STEP_AT_HI_CYCLE ∧ s.sched.cycle + 3 ≤ n) ∧
    (∃ (m : Master) (w : W32) (s : State) (n : Nat), CanReach m s Reg.TIME_STEP_CMD.addr ∧ roleBars s m = false ∧ wbits Reg.TIME_STEP_CMD_ACCEPT w = 1 ∧ n = rd64 s Reg.TIME_STEP_AT_LO_CYCLE Reg.TIME_STEP_AT_HI_CYCLE ∧ n < s.sched.cycle + 3) ∧
    (∃ (m : Master) (w : W32) (s : State), CanReach m s Reg.TIME_STEP_CMD.addr ∧ roleBars s m = false ∧ wbits Reg.TIME_STEP_CMD_CANCEL w = 1) ∧
    (∃ (s : State), upPort s = none) ∧
    (∃ (master : W64) (s : State) (n : Nat), upPort s = some n ∧ (((plant s n).best.bind fun b => b.getLast?) ≠ some (BitVec.toNat master))) ∧
    (∃ (master : W64) (ofs : W64) (s : State) (n : Nat), (upPort s = some n) ∧ (((plant s n).best.bind fun b => b.getLast?) = some (BitVec.toNat master)) ∧ ((BitVec.toInt ofs).natAbs ≤ rd s Reg.TIME_JUMP_LIMIT_NS)) ∧
    (∃ (master : W64) (ofs : W64) (s : State) (n : Nat), (upPort s = some n) ∧ (((plant s n).best.bind fun b => b.getLast?) = some (BitVec.toNat master)) ∧ (rd s Reg.TIME_JUMP_LIMIT_NS < (BitVec.toInt ofs).natAbs)) ∧
    (∃ (s : State), (s.sched.cycle % 64 ≠ 0 ∨ domOn s dNET = false)) ∧
    (∃ (s : State) (p : Nat), s.sched.cycle % 64 = 0 ∧ domOn s dNET = true ∧ paired s = true ∧ p < 24) ∧
    (∃ (s : State) (n : Nat) (q : Nat) (d : Nat) (p : Nat), (s.sched.cycle % 64 = 0) ∧ (domOn s dNET = true) ∧ (paired s = false) ∧ (n < 12) ∧ (∀ m < 12, m ≠ n → (port s (m + 12)).csAt = none) ∧ ((port s (n + 12)).csAt = some q) ∧ (isFar s (n + 12) = true) ∧ (d = (rndRat ((((q * 2 ^ 16 : Nat) : Int) + rxFix s (n + 12) - txFix s n : Int) / 2 ^ 16 : Rat)).toNat) ∧ (p = n ∨ p = n + 12) ∧ ((port s p).dl.length ≤ 5)) :=
  ⟨⟨.host, 4294967295, (regs live [(0x7A07C, 64)]), 64, by unfold CanReach; decide +kernel, by decide +kernel, by decide +kernel, by decide +kernel, by decide +kernel⟩,
   ⟨.host, 4294967295, live, 0, by unfold CanReach; decide +kernel, by decide +kernel, by decide +kernel, by decide +kernel, by decide +kernel⟩,
   ⟨.host, 22222206, live, by unfold CanReach; decide +kernel, by decide +kernel, by decide +kernel⟩,
   ⟨live, by decide +kernel⟩,
   ⟨0, (regs live [(0x7A040, 4129), (0x7B040, 131072)]), 0, by decide +kernel, by decide +kernel⟩,
   ⟨77, 0, { regs live [(0x7A040, 4129), (0x7B040, 131072)] with plants := [(0, { best := some [1, 2, 3, 4, 5, 77] })] }, 0, by decide +kernel, by decide +kernel, by decide +kernel⟩,
   ⟨77, 32768, wr ({ regs live [(0x7A040, 4129), (0x7B040, 131072)] with plants := [(0, { best := some [1, 2, 3, 4, 5, 77] })] }) Reg.TIME_JUMP_LIMIT_NS 100, 0, by decide +kernel, by decide +kernel, by decide +kernel⟩,
   ⟨{ live with sched := { cycle := 1 } }, by decide +kernel⟩,
   ⟨(regs live [(0x7D050, 4)]), 0, by decide +kernel, by decide +kernel, by decide +kernel, by decide +kernel⟩,
   ⟨{ live with ctl := [((Reg.PORT_LINE_CLOSED 13).addr, 0xFFFFFFFF)], lemac := { ports := [(13, { csAt := some 900 })] } }, 1, 900, 900, 13, by decide +kernel, by decide +kernel, by decide +kernel, by decide +kernel, by decide +kernel, by decide +kernel, by decide +kernel, by decide +kernel, by decide +kernel, by decide +kernel⟩⟩

theorem witness_PlantPortsOutputsAndCaptures_1 :
    (∃ (n : Fin 2) (s : State), (domOn s dLINK = false ∨ on s (Reg.PLANT_CFG_EN n.val) = false)) ∧
    (∃ (n : Fin 2) (a : Announce) (s : State), domOn s dLINK = true ∧ on s (Reg.PLANT_CFG_EN n.val) = true ∧ rd s (Reg.PLANT_PTPCFG_ROLE n.val) = 1 ∧ rd s (Reg.PLANT_PTPSTAT_STATE n.val) = 1 ∧ lexLt (annKey a) (ownKey s n.val) = true) ∧
    (∃ (n : Fin 2) (a : Announce) (s : State), domOn s dLINK = true ∧ on s (Reg.PLANT_CFG_EN n.val) = true ∧ rd s (Reg.PLANT_PTPCFG_ROLE n.val) = 1 ∧ rd s (Reg.PLANT_PTPSTAT_STATE n.val) = 1 ∧ lexLt (annKey a) (ownKey s n.val) = false) ∧
    (∃ (n : Fin 2) (a : Announce) (s : State), domOn s dLINK = true ∧ on s (Reg.PLANT_CFG_EN n.val) = true ∧ rd s (Reg.PLANT_PTPCFG_ROLE n.val) = 2 ∧ ((plant s n.val).best = none ∨ ∃ b, (plant s n.val).best = some b ∧ b.getLast? = (annKey a).getLast?)) ∧
    (∃ (n : Fin 2) (a : Announce) (s : State) (b : List Nat), domOn s dLINK = true ∧ on s (Reg.PLANT_CFG_EN n.val) = true ∧ rd s (Reg.PLANT_PTPCFG_ROLE n.val) = 2 ∧ (plant s n.val).best = some b ∧ b.getLast? ≠ (annKey a).getLast? ∧ lexLt (annKey a) b = false ∧ annExpired s n.val = false) ∧
    (∃ (n : Fin 2) (a : Announce) (s : State) (b : List Nat), (domOn s dLINK = true) ∧ (on s (Reg.PLANT_CFG_EN n.val) = true) ∧ (rd s (Reg.PLANT_PTPCFG_ROLE n.val) = 2) ∧ ((plant s n.val).best = some b) ∧ (b.getLast? ≠ (annKey a).getLast?) ∧ (lexLt (annKey a) b = true) ∧ (upPort s = some n.val)) ∧
    (∃ (n : Fin 2) (s : State), domOn s dLINK = true ∧ rd s (Reg.PLANT_PTPCFG_ROLE n.val) = 1 ∧ rd s (Reg.PLANT_PTPSTAT_STATE n.val) = 2) ∧
    (∃ (n : Fin 2) (s : State), rd s (Reg.PLANT_PTPSTAT_STATE n.val) ≠ 2) ∧
    (∃ (n : Fin 2) (s : State), (domOn s dLINK = false ∨ domOn s dNET = false ∨ on s (Reg.PLANT_CFG_EN n.val) = false)) ∧
    (∃ (n : Fin 2) (s : State), domOn s dLINK = true ∧ domOn s dNET = true ∧ on s (Reg.PLANT_CFG_EN n.val) = true ∧ (¬(rd s (Reg.PLANT_PTPCFG_ROLE n.val) = 1 ∧ rd s (Reg.PLANT_PTPSTAT_STATE n.val) = 1))) ∧
    (∃ (n : Fin 2) (s : State), domOn s dLINK = true ∧ domOn s dNET = true ∧ on s (Reg.PLANT_CFG_EN n.val) = true ∧ (rd s (Reg.PLANT_PTPCFG_ROLE n.val) = 1 ∧ rd s (Reg.PLANT_PTPSTAT_STATE n.val) = 1)) ∧
    (∃ (n : Fin 2) (s : State), domOn s dLINK = true ∧ domOn s dNET = true ∧ on s (Reg.PLANT_CFG_EN n.val) = true ∧ (rd s (Reg.PLANT_PTPCFG_ROLE n.val) = 2 ∧ (plant s n.val).best.isSome = true)) :=
  ⟨⟨0, live, by decide +kernel⟩,
   ⟨1, { prio1 := 249, cls := 128, accuracy := 0, variance := 4096, prio2 := 255, identity := 27 }, (regs live [(0x7C040, 65536), (0x7C044, 4277729534), (0x7C04C, 1), (0x7C060, 1)]), by decide +kernel, by decide +kernel, by decide +kernel, by decide +kernel, by decide +kernel⟩,
   ⟨0, { prio1 := 4, cls := 0, accuracy := 8, variance := 65531, prio2 := 61, identity := 171798691840 }, (regs live [(0x7B040, 65536), (0x7B044, 49871102), (0x7B04C, 1), (0x7B060, 1)]), by decide +kernel, by decide +kernel, by decide +kernel, by decide +kernel, by decide +kernel⟩,
   ⟨0, { prio1 := 201, cls := 255, accuracy := 0, variance := 65535, prio2 := 254, identity := 8284072846904116556 }, (regs live [(0x7B040, 131072), (0x7B060, 1)]), by decide +kernel, by decide +kernel, by decide +kernel, by decide +kernel⟩,
   ⟨0, { prio1 := 251, cls := 1, accuracy := 251, variance := 3165, prio2 := 161, identity := 11355573821514185052 }, { (regs live [(0x7B040, 131072), (0x7B060, 1)]) with plants := [(0, { best := (some []) })] }, [], by decide +kernel, by decide +kernel, by decide +kernel, by decide +kernel, by decide +kernel, by decide +kernel, by decide +kernel⟩,
   ⟨0, { prio1 := 251, cls := 1, accuracy := 251, variance := 3165, prio2 := 161, identity := 11355573821514185052 }, { regs live [(0x7A040, 4129), (0x7B040, 131072), (0x7B060, 1)] with plants := [(0, { best := some [255, 9, 9, 9, 9, 77] })] }, [255, 9, 9, 9, 9, 77], by decide +kernel, by decide +kernel, by decide +kernel, by decide +kernel, by decide +kernel, by decide +kernel, by decide +kernel⟩,
   ⟨0, (regs live [(0x7B040, 65536), (0x7B04C, 2)]), by decide +kernel, by decide +kernel, by decide +kernel⟩,
   ⟨0, live, by decide +kernel⟩,
   ⟨1, live, by decide +kernel⟩,
   ⟨0, (regs live [(0x7B060, 1)]), by decide +kernel, by decide +kernel, by decide +kernel, by decide +kernel⟩,
   ⟨1, (regs live [(0x7C040, 65536), (0x7C04C, 1), (0x7C060, 1)]), by decide +kernel, by decide +kernel, by decide +kernel, by decide +kernel⟩,
   ⟨0, { (regs live [(0x7B040, 131072), (0x7B060, 1)]) with plants := [(0, { best := (some []) })] }, by decide +kernel, by decide +kernel, by decide +kernel, by decide +kernel⟩⟩

theorem witness_PlantPortsOutputsAndCaptures_2 :
    (∃ (n : Fin 2) (s : State), domOn s dLINK = true ∧ domOn s dNET = true ∧ on s (Reg.PLANT_CFG_EN n.val) = true ∧ rd s (Reg.PLANT_PTPCFG_ROLE n.val) = 0) ∧
    (∃ (m : Master) (o : Fin 4) (w : W32) (s : State), CanReach m s (Reg.CAPT_TCFG o.val).addr ∧ wbits (Reg.CAPT_TCFG_ARM o.val) w = 1 ∧ domOn s dNET = true ∧ on (plainWrite s m (Reg.CAPT_TCFG o.val).addr (BitVec.toNat w)) (Reg.CAPT_TCFG_EN o.val) = true ∧ (tt s o.val).arm = none ∧ (ttRegs (plainWrite s m (Reg.CAPT_TCFG o.val).addr (BitVec.toNat w)) o.val).at_ < timeCount s) ∧
    (∃ (m : Master) (o : Fin 4) (w : W32) (s : State), CanReach m s (Reg.CAPT_TCFG o.val).addr ∧ wbits (Reg.CAPT_TCFG_ARM o.val) w = 1 ∧ domOn s dNET = true ∧ on (plainWrite s m (Reg.CAPT_TCFG o.val).addr (BitVec.toNat w)) (Reg.CAPT_TCFG_EN o.val) = true ∧ (tt s o.val).arm = none ∧ timeCount s ≤ (ttRegs (plainWrite s m (Reg.CAPT_TCFG o.val).addr (BitVec.toNat w)) o.val).at_) ∧
    (∃ (m : Master) (o : Fin 4) (w : W32) (s : State), CanReach m s (Reg.CAPT_TCFG o.val).addr ∧ wbits (Reg.CAPT_TCFG_ARM o.val) w = 1 ∧ domOn s dNET = true ∧ on (plainWrite s m (Reg.CAPT_TCFG o.val).addr (BitVec.toNat w)) (Reg.CAPT_TCFG_EN o.val) = true ∧ (tt s o.val).arm ≠ none) ∧
    (∃ (m : Master) (o : Fin 4) (w : W32) (s : State), CanReach m s (Reg.CAPT_TCFG o.val).addr ∧ on (plainWrite s m (Reg.CAPT_TCFG o.val).addr (BitVec.toNat w)) (Reg.CAPT_TCFG_EN o.val) = false) ∧
    (∃ (o : Fin 4) (a : TtArm) (s : State), domOn s dAUX = true ∧ domOn s dNET = true ∧ (tt s o.val).next = some a ∧ timeCount s ≤ a.at_) ∧
    (∃ (o : Fin 4) (a : TtArm) (s : State), domOn s dAUX = true ∧ domOn s dNET = true ∧ (tt s o.val).next = some a ∧ a.at_ < timeCount s) ∧
    (∃ (o : Fin 4) (a : TtArm) (s : State), domOn s dAUX = true ∧ domOn s dNET = true ∧ (tt s o.val).arm = some a ∧ (a.mode = 0 ∧ a.n = 1 ∨ a.mode = 2 ∧ a.n = 0)) ∧
    (∃ (o : Fin 4) (a : TtArm) (s : State), domOn s dAUX = true ∧ domOn s dNET = true ∧ (tt s o.val).arm = some a ∧ (a.mode = 1 ∨ a.mode = 0 ∧ a.n = 0)) ∧
    (∃ (s : State), (domOn s dAUX = false ∨ domOn s dNET = false)) ∧
    (∃ (n : Fin 8) (rise : Bool) (s : State), domOn s dAUX = true ∧ domOn s dNET = true ∧ on s (Reg.CAPT_CFG_EN n.val) = true ∧ (¬(rd s (Reg.CAPT_CFG_EDGE n.val) = 2 ∨ rd s (Reg.CAPT_CFG_EDGE n.val) = if rise = true then 0 else 1))) ∧
    (∃ (n : Fin 8) (rise : Bool) (s : State), domOn s dAUX = true ∧ domOn s dNET = true ∧ on s (Reg.CAPT_CFG_EN n.val) = true ∧ (rd s (Reg.CAPT_CFG_EDGE n.val) = 2 ∨ rd s (Reg.CAPT_CFG_EDGE n.val) = if rise = true then 0 else 1) ∧ ((capt s n.val).fifo.length < 16)) :=
  ⟨⟨0, (regs live [(0x7B060, 1)]), by decide +kernel, by decide +kernel, by decide +kernel, by decide +kernel⟩,
   ⟨(.cluDma 3), 1, 4294967293, { live with time := { ns := 1 } }, by unfold CanReach; decide +kernel, by decide +kernel, by decide +kernel, by decide +kernel, by decide +kernel, by decide +kernel⟩,
   ⟨.snapshot, 2, 33, live, by unfold CanReach; decide +kernel, by decide +kernel, by decide +kernel, by decide +kernel, by decide +kernel, by decide +kernel⟩,
   ⟨.receive, 2, 33, { live with tts := [(2, { arm := (some { mode := 0, pol := false, at_ := 0, width := 0, per := 0, n := 0 }) })] }, by unfold CanReach; decide +kernel, by decide +kernel, by decide +kernel, by decide +kernel, by decide +kernel⟩,
   ⟨.host, 1, 0, live, by unfold CanReach; decide +kernel, by decide +kernel⟩,
   ⟨0, { mode := 0, pol := false, at_ := 0, width := 0, per := 0, n := 0 }, { live with tts := [(0, { next := (some { mode := 0, pol := false, at_ := 0, width := 0, per := 0, n := 0 }) })] }, by decide +kernel, by decide +kernel, by decide +kernel, by decide +kernel⟩,
   ⟨1, { mode := 0, pol := false, at_ := 0, width := 0, per := 0, n := 0 }, { live with time := { ns := 101 }, tts := [(1, { next := (some { mode := 0, pol := false, at_ := 0, width := 0, per := 0, n := 0 }) })] }, by decide +kernel, by decide +kernel, by decide +kernel, by decide +kernel⟩,
   ⟨2, { mode := 2, pol := false, at_ := 0, width := 0, per := 0, n := 0 }, { live with tts := [(2, { arm := (some { mode := 2, pol := false, at_ := 0, width := 0, per := 0, n := 0 }) })] }, by decide +kernel, by decide +kernel, by decide +kernel, by decide +kernel⟩,
   ⟨2, { mode := 0, pol := false, at_ := 0, width := 0, per := 0, n := 0 }, { live with tts := [(2, { arm := (some { mode := 0, pol := false, at_ := 0, width := 0, per := 0, n := 0 }) })] }, by decide +kernel, by decide +kernel, by decide +kernel, by decide +kernel⟩,
   ⟨(setDom live 9 { }), by decide +kernel⟩,
   ⟨0, true, (regs live [(0x99040, 3)]), by decide +kernel, by decide +kernel, by decide +kernel, by decide +kernel⟩,
   ⟨4, true, (regs live [(0x990C0, 1)]), by decide +kernel, by decide +kernel, by decide +kernel, by decide +kernel, by decide +kernel⟩⟩

theorem witness_PlantPortsOutputsAndCaptures_3 :
    (∃ (n : Fin 8) (rise : Bool) (s : State), domOn s dAUX = true ∧ domOn s dNET = true ∧ on s (Reg.CAPT_CFG_EN n.val) = true ∧ (rd s (Reg.CAPT_CFG_EDGE n.val) = 2 ∨ rd s (Reg.CAPT_CFG_EDGE n.val) = if rise = true then 0 else 1) ∧ (16 ≤ (capt s n.val).fifo.length)) ∧
    (∃ (m : Master) (n : Fin 8) (s : State), CanReach m s (Reg.CAPT_TS_LO n.val).addr ∧ ((capt s n.val).fifo = [])) ∧
    (∃ (m : Master) (n : Fin 8) (s : State) (c : Nat) (r : Bool) (q : List (Nat × Bool)), CanReach m s (Reg.CAPT_TS_LO n.val).addr ∧ ((capt s n.val).fifo = (c, r) :: q)) :=
  ⟨⟨1, false, { (regs live [(0x99060, 3)]) with capts := [(1, { fifo := [(0, true), (77777777777, false), (155555555554, true), (233333333331, false), (311111111108, true), (388888888885, false), (466666666662, true), (544444444439, false), (622222222216, true), (699999999993, false), (777777777770, true), (855555555547, false), (933333333324, true), (1011111111101, false), (1088888888878, true), (1166666666655, false)] })] }, by decide +kernel, by decide +kernel, by decide +kernel, by decide +kernel, by decide +kernel⟩,
   ⟨.acq, 4, live, by unfold CanReach; decide +kernel, by decide +kernel⟩,
   ⟨.dmaEngine, 2, { live with capts := [(2, { fifo := [(1088888888878, false)] })] }, 1088888888878, false, [], by unfold CanReach; decide +kernel, by decide +kernel⟩⟩

theorem witness_PeerLinkSignalsAndImages_1 :
    (∃ (s : State), domOn s dLINK = false) ∧
    (∃ (ok : Bool) (s : State), domOn s dLINK = true ∧ ok = false) ∧
    (∃ (ok : Bool) (c : PeerContent) (s : State), (domOn s dLINK = true) ∧ (ok = true) ∧ (c = PeerContent.idle)) ∧
    (∃ (ok : Bool) (c : PeerContent) (s : State) (r : Fin 8) (e : W32) (k : Bool) (u : W64) (b : BitVec 24) (shed : List (Fin 1024)), (domOn s dLINK = true) ∧ (ok = true) ∧ (c = PeerContent.ident r e k u b shed) ∧ (r.val ≠ rACTIVE)) ∧
    (∃ (lane : Fin 2) (ok : Bool) (c : PeerContent) (s : State) (x : ChanCopy), (domOn s dLINK = true) ∧ (ok = true) ∧ (c = PeerContent.copy x) ∧ (role s = rSTANDBY) ∧ (on s (laneField (1 - lane.val)) = true)) ∧
    (∃ (lane : Fin 2) (s : State), domOn s dLINK = true ∧ on s (laneField lane.val) = false) ∧
    (∃ (lane : Fin 2) (s : State), domOn s dLINK = true ∧ on s (laneField lane.val) = true ∧ on s (laneField (1 - lane.val)) = true) ∧
    (∃ (lane : Fin 2) (s : State), domOn s dLINK = true ∧ on s (laneField lane.val) = true ∧ on s (laneField (1 - lane.val)) = false ∧ role s = rACTIVE) ∧
    (∃ (lane : Fin 2) (s : State), domOn s dLINK = true ∧ on s (laneField lane.val) = true ∧ on s (laneField (1 - lane.val)) = false ∧ role s = rSTANDBY) ∧
    (∃ (s : State), (¬(role s = rSTANDBY ∧ peerUp s = true))) ∧
    (∃ (s : State), (paired s = false ∨ peerUp s = false)) ∧
    (∃ (s : State), paired s = true ∧ peerUp s = true) :=
  ⟨⟨(setDom live 12 { }), by decide +kernel⟩,
   ⟨false, live, by decide +kernel, by decide +kernel⟩,
   ⟨true, .idle, live, by decide +kernel, by decide +kernel, by decide +kernel⟩,
   ⟨true, _, live, 3, 2, true, 7, 0, [5], by decide +kernel, by decide +kernel, rfl, by decide +kernel⟩,
   ⟨0, true, (.copy { ch := 3, regions := [], pts := [], mot := {}, axis := {} }), sets live [(Reg.PEER_STAT_ROLE, rSTANDBY), (laneField 1, 1)], { ch := 3, regions := [], pts := [], mot := {}, axis := {} }, by decide +kernel, by decide +kernel, by decide +kernel, by decide +kernel, by decide +kernel⟩,
   ⟨1, live, by decide +kernel, by decide +kernel⟩,
   ⟨1, (regs live [(0x7D050, 192)]), by decide +kernel, by decide +kernel, by decide +kernel⟩,
   ⟨1, (regs live [(0x7D050, 132)]), by decide +kernel, by decide +kernel, by decide +kernel, by decide +kernel⟩,
   ⟨0, (regs live [(0x7D050, 66)]), by decide +kernel, by decide +kernel, by decide +kernel, by decide +kernel⟩,
   ⟨live, by decide +kernel⟩,
   ⟨live, by decide +kernel⟩,
   ⟨(regs live [(0x7D050, 130)]), by decide +kernel, by decide +kernel⟩⟩

theorem witness_PeerLinkSignalsAndImages_2 :
    (∃ (s : State), (¬(role s = rDETACHED ∧ 4 ≤ s.pair.noCs))) ∧
    (∃ (s : State), role s = rDETACHED ∧ 4 ≤ s.pair.noCs) ∧
    (∃ (s : State), role s = rACTIVE ∧ peerUp s = true ∧ domOn s dNET = true) ∧
    (∃ (s : State), (¬(role s = rACTIVE ∧ peerUp s = true ∧ domOn s dNET = true))) ∧
    (∃ (s : State), (¬(role s = rSTANDBY ∧ peerUp s = true ∧ domOn s dNET = true))) ∧
    (∃ (s : State) (x : PtImage) (a : Nat) (c : Nat), role s = rSTANDBY ∧ peerUp s = true ∧ domOn s dNET = true ∧ map29 x.1.toNat = some a ∧ c < 2 ^ 20 ∧ c ≠ a) ∧
    (∃ (s : State) (l : List PtImage) (c : Nat), role s = rSTANDBY ∧ peerUp s = true ∧ domOn s dNET = true ∧ c < 2 ^ 20 ∧ (∀ x ∈ l, map29 x.1.toNat ≠ some c)) ∧
    (∃ (s : State), domOn s dNET = false) ∧
    (∃ (s : State), domOn s dNET = true ∧ role s ≠ rDETACHED ∧ (role s = rSTANDBY → s.pair.imgNow = true)) ∧
    (∃ (s : State) (a : Nat) (b : Nat), (domOn s dNET = true) ∧ (role s = rDETACHED) ∧ (a ∈ inputList s (bank s)) ∧ (map29 a = some b)) ∧
    (∃ (s : State) (a : Nat) (b : Nat), (domOn s dNET = true) ∧ (role s = rSTANDBY) ∧ (s.pair.imgNow = false) ∧ (a ∈ inputList s (bank s)) ∧ (map29 a = some b)) ∧
    (∃ (f : RxFrame) (s : State) (p : Nat) (k : Nat), p = ↑f.port ∧ (k = List.findIdx (fun x => x.kind == 0 && x.slot == fSlot f) (portSlots s p)) ∧ (portSlots s p)[k]? = none) :=
  ⟨⟨live, by decide +kernel⟩,
   ⟨{ (regs live [(0x7D050, 3)]) with pair := { noCs := 4 } }, by decide +kernel, by decide +kernel⟩,
   ⟨(regs live [(0x7D050, 132)]), by decide +kernel, by decide +kernel, by decide +kernel⟩,
   ⟨live, by decide +kernel⟩,
   ⟨live, by decide +kernel⟩,
   ⟨(regs live [(0x7D050, 66)]), (900641, (2407989160334668892, true)), 982561, 314552, by decide +kernel, by decide +kernel, by decide +kernel, by decide +kernel, by decide +kernel, by decide +kernel⟩,
   ⟨(regs live [(0x7D050, 66)]), [(794624, (12566872762248099225, true))], 15, by decide +kernel, by decide +kernel, by decide +kernel, by decide +kernel, fun x h => by (rw [List.mem_singleton] at h; subst h; decide +kernel)⟩,
   ⟨(setDom live 9 { }), by decide +kernel⟩,
   ⟨live, by decide +kernel, by decide +kernel, by decide +kernel⟩,
   ⟨{ mwrite (sets live [(Reg.PEER_STAT_ROLE, rDETACHED), (Reg.PEER_PLIST_COUNT 0, 1), (Reg.PEER_PLIST_OFFSET 0, 0)]) (clmAddr 0 0) (leBytes 4 (pt 24 2 0 0)) with pair := {} }, pt 24 2 0 0, pt 29 2 0 0, by decide +kernel, by decide +kernel, by decide +kernel, by decide +kernel⟩,
   ⟨{ mwrite (sets live [(Reg.PEER_STAT_ROLE, rSTANDBY), (Reg.PEER_PLIST_COUNT 0, 1), (Reg.PEER_PLIST_OFFSET 0, 0)]) (clmAddr 0 0) (leBytes 4 (pt 24 2 0 0)) with pair := {} }, pt 24 2 0 0, pt 29 2 0 0, by decide +kernel, by decide +kernel, by decide +kernel, by decide +kernel, by decide +kernel⟩,
   ⟨{ port := 0, start := 3050, bytes := (List.replicate 12 7 ++ [145, 0, 8, 2, 0, 12, 3, 0, 80, 1, 21, 98, 115, 40, 0, 4, 0, 0, 105, 162, 91, 68, 58, 115, 205, 207, 12, 122, 217, 240, 173, 5, 147, 40, 45, 6, 170, 106] ++ List.replicate 10 0), fcs := true }, live, 0, 0, by decide +kernel, by decide +kernel, by decide +kernel⟩⟩

theorem witness_PeerLinkSignalsAndImages_3 :
    (∃ (f : RxFrame) (s : State) (p : Nat) (k : Nat) (e : SlotE), p = ↑f.port ∧ (k = List.findIdx (fun x => x.kind == 0 && x.slot == fSlot f) (portSlots s p)) ∧ (portSlots s p)[k]? = some e ∧ (¬(on s Reg.PEER_CFG_FWD_EN = true ∧ peerUp s = true ∧ (role s = rACTIVE ∨ role s = rSTANDBY) ∧ domOn s dNET = true ∧ fCyc f = s.sched.cycle % 2 ^ 16 ∧ s.lemac.ended.contains (p, k) = false))) ∧
    (∃ (f : RxFrame) (s : State) (p : Nat) (k : Nat) (e : SlotE), (p = ↑f.port) ∧ (k = List.findIdx (fun x => x.kind == 0 && x.slot == fSlot f) (portSlots s p)) ∧ ((portSlots s p)[k]? = some e) ∧ (on s Reg.PEER_CFG_FWD_EN = true ∧ peerUp s = true ∧ (role s = rACTIVE ∨ role s = rSTANDBY) ∧ domOn s dNET = true ∧ fCyc f = s.sched.cycle % 2 ^ 16 ∧ s.lemac.ended.contains (p, k) = false) ∧ (rxStalled s p = true)) ∧
    (∃ (f : RxFrame) (s : State) (p : Nat) (k : Nat) (e : SlotE), p = ↑f.port ∧ (k = List.findIdx (fun x => x.kind == 0 && x.slot == fSlot f) (portSlots s p)) ∧ (portSlots s p)[k]? = some e ∧ (on s Reg.PEER_CFG_FWD_EN = true ∧ peerUp s = true ∧ (role s = rACTIVE ∨ role s = rSTANDBY) ∧ domOn s dNET = true ∧ fCyc f = s.sched.cycle % 2 ^ 16 ∧ s.lemac.ended.contains (p, k) = false) ∧ rxStalled s p = false) :=
  ⟨⟨{ port := 0, start := 1190, bytes := (List.replicate 12 7 ++ [145, 0, 8, 1, 0, 11, 4, 0, 32, 1, 128, 132, 24, 184, 0, 8, 0, 0, 70, 12, 103, 83, 102, 219, 200, 249, 143, 113, 244, 25, 3, 121, 140, 158, 115, 167, 119, 14] ++ List.replicate 10 0), fcs := true }, (mwrite (mwrite (mwrite (regs live [(0x78068, 4)]) 813563920 [100, 128]) 813564709 [32]) 813564711 [1]), 0, 0, { at_ := 0, len := 0, kind := 0, pos := 0, slot := 2049, map := 0, mapn := 0, edge := 0, edgen := 0, spe := 0, spn := 0, tunnel := false }, by decide +kernel, by decide +kernel, by decide +kernel, by decide +kernel⟩,
   ⟨{ port := 0, start := 3000, bytes := (List.replicate 12 7 ++ [145, 0, 8, 1, 0, 12, 4, 0, 98, 1, 160, 153, 223, 17, 0, 12, 0, 0, 86, 147, 144, 102, 130, 169, 122, 131, 77, 154, 68, 59, 133, 66, 17, 40, 44, 115, 31, 104] ++ List.replicate 10 0), fcs := true }, stallRx ({ (mwrite (mwrite (mwrite (regs live [(0x78068, 4), (0x7D050, 130)]) 813563920 [100, 128]) 813564709 [32]) 813564711 [1]) with sched := { cycle := 12 } }) 0, 0, 0, { at_ := 0, len := 0, kind := 0, pos := 0, slot := 2049, map := 0, mapn := 0, edge := 0, edgen := 0, spe := 0, spn := 0, tunnel := false }, by decide +kernel, by decide +kernel, by decide +kernel, by decide +kernel, by decide +kernel⟩,
   ⟨{ port := 0, start := 3000, bytes := (List.replicate 12 7 ++ [145, 0, 8, 1, 0, 12, 4, 0, 98, 1, 160, 153, 223, 17, 0, 12, 0, 0, 86, 147, 144, 102, 130, 169, 122, 131, 77, 154, 68, 59, 133, 66, 17, 40, 44, 115, 31, 104] ++ List.replicate 10 0), fcs := true }, { (mwrite (mwrite (mwrite (regs live [(0x78068, 4), (0x7D050, 130)]) 813563920 [100, 128]) 813564709 [32]) 813564711 [1]) with sched := { cycle := 12 } }, 0, 0, { at_ := 0, len := 0, kind := 0, pos := 0, slot := 2049, map := 0, mapn := 0, edge := 0, edgen := 0, spe := 0, spn := 0, tunnel := false }, by decide +kernel, by decide +kernel, by decide +kernel, by decide +kernel, by decide +kernel⟩⟩

theorem witness_PairJoinMirrorAndSwap_1 :
    (∃ (s : State), (peerUp s = false ∨ domOn s dNET = false)) ∧
    (∃ (s : State), peerUp s = true ∧ domOn s dNET = true ∧ role s ≠ rSTANDBY ∧ role s ≠ rJOINING) ∧
    (∃ (s : State) (i : MItem) (d : Nat), peerUp s = true ∧ domOn s dNET = true ∧ role s = rSTANDBY ∧ itemDue s i = some d ∧ d ≤ s.sched.cycle) ∧
    (∃ (s : State) (cyc : Nat) (k : BitVec 24) (w : W32) (l : List (BitVec 24 × W32)) (u : State), (peerUp s = true) ∧ (domOn s dNET = true) ∧ (role s = rSTANDBY ∨ role s = rJOINING) ∧ (u = { s with pair := { s.pair with peerRole := rACTIVE, recNow := true } }) ∧ (∀ (d : Nat), itemDue s (MItem.write cyc k w l) = some d → s.sched.cycle < d) ∧ (k.toNat = Reg.PEER_CMD_OP.addr)) ∧
    (∃ (s : State) (cyc : Nat) (k : BitVec 24) (w : W32) (l : List (BitVec 24 × W32)) (u : State), (peerUp s = true) ∧ (domOn s dNET = true) ∧ (role s = rSTANDBY ∨ role s = rJOINING) ∧ (u = { s with pair := { s.pair with peerRole := rACTIVE, recNow := true } }) ∧ (∀ (d : Nat), itemDue s (MItem.write cyc k w l) = some d → s.sched.cycle < d) ∧ (k.toNat ≠ Reg.PEER_CMD_OP.addr) ∧ (startsInstall (MItem.write cyc k w l) = false)) ∧
    (∃ (s : State) (cyc : Nat) (k : BitVec 24) (w : W32) (l : List (BitVec 24 × W32)) (u : State) (at_ : Nat), (peerUp s = true) ∧ (domOn s dNET = true) ∧ (role s = rSTANDBY ∨ role s = rJOINING) ∧ (u = { s with pair := { s.pair with peerRole := rACTIVE, recNow := true } }) ∧ (∀ (d : Nat), itemDue s (MItem.write cyc k w l) = some d → s.sched.cycle < d) ∧ (s.sched.cycle < at_)) ∧
    (∃ (s : State), peerUp s = true ∧ domOn s dNET = true ∧ role s ≠ rACTIVE) ∧
    (∃ (n : Nat) (s : State) (th : Option W64) (nr : BitVec 8) (x : W64), peerUp s = true ∧ domOn s dNET = true ∧ role s = rACTIVE ∧ bitOf 5 nr.toNat = false ∧ th = some x ∧ n = s.sched.cycle) ∧
    (∃ (s : State), s.pair.peerUnal = []) ∧
    (∃ (s : State) (c : Fin 1056) (r : List Nat), (s.pair.peerUnal = c.val :: r) ∧ (role s = rACTIVE ∧ bothLanes s = true ∧ s.pair.peerRole = rSTANDBY ∧ chanDone s c.val = true ∧ s.pair.copied + copySize (chanCopy s c) ≤ 1024 * rd s Reg.PEER_CFG_RS_KIB)) ∧
    (∃ (s : State) (c : Fin 1056) (r : List Nat), s.pair.peerUnal = c.val :: r ∧ (¬(role s = rACTIVE ∧ bothLanes s = true ∧ s.pair.peerRole = rSTANDBY ∧ chanDone s c.val = true ∧ s.pair.copied + copySize (chanCopy s c) ≤ 1024 * rd s Reg.PEER_CFG_RS_KIB))) ∧
    (∃ (s : State), (¬(on s Reg.PEER_CFG_EN = true ∧ bothLanes s = true ∧ rd s Reg.LEMAC_PSTATE_STATE = 3))) :=
  ⟨⟨live, by decide +kernel⟩,
   ⟨(regs live [(0x7D050, 131)]), by decide +kernel, by decide +kernel, by decide +kernel, by decide +kernel⟩,
   ⟨{ (regs live [(0x7D050, 130)]) with sched := { cycle := 2 } }, (.write 0 528488 22 []), 2, by decide +kernel, by decide +kernel, by decide +kernel, by decide +kernel, by decide +kernel⟩,
   ⟨(wr (wr live Reg.PEER_STAT_LANE0 1) Reg.PEER_STAT_ROLE rSTANDBY), 5, (BitVec.ofNat 24 Reg.PEER_CMD_OP.addr), 1, [(BitVec.ofNat 24 Reg.PEER_SWAP_AT_LO_CYCLE.addr, 50)], _, by decide +kernel, by decide +kernel, by decide +kernel, rfl, fun d h => by (rw [show itemDue (wr (wr live Reg.PEER_STAT_LANE0 1) Reg.PEER_STAT_ROLE rSTANDBY) (MItem.write 5 (BitVec.ofNat 24 Reg.PEER_CMD_OP.addr) 1 [(BitVec.ofNat 24 Reg.PEER_SWAP_AT_LO_CYCLE.addr, 50)]) = some 50 from by decide +kernel] at h; cases h; decide +kernel), by decide +kernel⟩,
   ⟨(wr (wr live Reg.PEER_STAT_LANE0 1) Reg.PEER_STAT_ROLE rSTANDBY), 5, 22, 1, [], _, by decide +kernel, by decide +kernel, by decide +kernel, rfl, fun d h => by (rw [show itemDue (wr (wr live Reg.PEER_STAT_LANE0 1) Reg.PEER_STAT_ROLE rSTANDBY) (MItem.write 5 22 1 []) = none from by decide +kernel] at h; cases h), by decide +kernel, by decide +kernel⟩,
   ⟨(wr (wr live Reg.PEER_STAT_LANE0 1) Reg.PEER_STAT_ROLE rSTANDBY), 5, 22, 1, [], _, 5, by decide +kernel, by decide +kernel, by decide +kernel, rfl, fun d h => by (rw [show itemDue (wr (wr live Reg.PEER_STAT_LANE0 1) Reg.PEER_STAT_ROLE rSTANDBY) (MItem.write 5 22 1 []) = none from by decide +kernel] at h; cases h), by decide +kernel⟩,
   ⟨(regs live [(0x7D050, 128)]), by decide +kernel, by decide +kernel, by decide +kernel⟩,
   ⟨0, (regs live [(0x7D050, 132)]), (some 18446744073709551615), 8, 18446744073709551615, by decide +kernel, by decide +kernel, by decide +kernel, by decide +kernel, by decide +kernel, by decide +kernel⟩,
   ⟨live, by decide +kernel⟩,
   ⟨wr ({ sets live [(Reg.PEER_STAT_ROLE, rACTIVE), (Reg.PEER_STAT_LANE0, 1), (Reg.PEER_STAT_LANE1, 1)] with pair := { peerRole := rSTANDBY, peerUnal := [3] } }) Reg.PEER_CFG_RS_KIB 64, 3, [], by decide +kernel, by decide +kernel⟩,
   ⟨{ live with pair := { peerUnal := [3] } }, 3, [], by decide +kernel, by decide +kernel⟩,
   ⟨live, by decide +kernel⟩⟩

theorem witness_PairJoinMirrorAndSwap_2 :
    (∃ (j : JoinId) (s : State), (on s Reg.PEER_CFG_EN = true ∧ bothLanes s = true ∧ rd s Reg.LEMAC_PSTATE_STATE = 3) ∧ b2n j.rank = rd s Reg.PEER_CFG_RANK ∧ s.lemac.launching = true) ∧
    (∃ (j : JoinId) (s : State), (on s Reg.PEER_CFG_EN = true ∧ bothLanes s = true ∧ rd s Reg.LEMAC_PSTATE_STATE = 3) ∧ b2n j.rank = rd s Reg.PEER_CFG_RANK ∧ s.lemac.launching = false) ∧
    (∃ (j : JoinId) (s : State), (on s Reg.PEER_CFG_EN = true ∧ bothLanes s = true ∧ rd s Reg.LEMAC_PSTATE_STATE = 3) ∧ b2n j.rank ≠ rd s Reg.PEER_CFG_RANK ∧ s.lemac.launching = true ∧ (joinDiffers s j = true)) ∧
    (∃ (j : JoinId) (s : State), (on s Reg.PEER_CFG_EN = true ∧ bothLanes s = true ∧ rd s Reg.LEMAC_PSTATE_STATE = 3) ∧ (b2n j.rank ≠ rd s Reg.PEER_CFG_RANK) ∧ (s.lemac.launching = true) ∧ (joinDiffers s j = false) ∧ (role s = rALONE ∨ role s = rACTIVE)) ∧
    (∃ (j : JoinId) (s : State), (on s Reg.PEER_CFG_EN = true ∧ bothLanes s = true ∧ rd s Reg.LEMAC_PSTATE_STATE = 3) ∧ b2n j.rank ≠ rd s Reg.PEER_CFG_RANK ∧ s.lemac.launching = false ∧ mayJoin s = false) ∧
    (∃ (j : JoinId) (s : State), (on s Reg.PEER_CFG_EN = true ∧ bothLanes s = true ∧ rd s Reg.LEMAC_PSTATE_STATE = 3) ∧ b2n j.rank ≠ rd s Reg.PEER_CFG_RANK ∧ s.lemac.launching = false ∧ mayJoin s = true ∧ (joinDiffers s j = true)) ∧
    (∃ (j : JoinId) (s : State), (on s Reg.PEER_CFG_EN = true ∧ bothLanes s = true ∧ rd s Reg.LEMAC_PSTATE_STATE = 3) ∧ (b2n j.rank ≠ rd s Reg.PEER_CFG_RANK) ∧ (s.lemac.launching = false) ∧ (mayJoin s = true) ∧ (joinDiffers s j = false) ∧ (↑j.role ≠ rACTIVE)) ∧
    (∃ (j : JoinId) (s : State), (on s Reg.PEER_CFG_EN = true ∧ bothLanes s = true ∧ rd s Reg.LEMAC_PSTATE_STATE = 3) ∧ (b2n j.rank ≠ rd s Reg.PEER_CFG_RANK) ∧ (s.lemac.launching = false) ∧ (mayJoin s = true) ∧ (joinDiffers s j = false) ∧ (↑j.role = rACTIVE)) ∧
    (∃ (s : State), (¬(role s = rJOINING ∧ bothLanes s = true))) ∧
    (∃ (b : Bulk) (s : State) (v : State), (role s = rJOINING) ∧ (bothLanes s = true) ∧ (v = putBulk s b) ∧ ((bankSound v 0 && bankSound v 1) = true)) ∧
    (∃ (b : Bulk) (s : State) (v : State), (role s = rJOINING) ∧ (bothLanes s = true) ∧ (v = putBulk s b) ∧ ((bankSound v 0 && bankSound v 1) = false)) ∧
    (∃ (m : Master) (w : W32) (s : State), CanReach m s Reg.PEER_CMD_OP.addr ∧ wbits Reg.PEER_CMD_OP w = 1 ∧ roleBars s m = true) :=
  ⟨⟨{ role := 1, epoch := 4, rank := true, uid := 0, pages := [(0xD0, 0), (0x3D, 4), (0x0, 2), (0x28, 4)], psetCrc := 1 }, { (regs live [(0x78060, 3), (0x7D040, 335545383), (0x7D050, 192)]) with lemac := { launching := true } }, by decide +kernel, by decide +kernel, by decide +kernel⟩,
   ⟨{ role := 1, epoch := 20, rank := true, uid := 2748779069440, pages := [(0xFFFFFF, 5), (0x409597, 4), (0x19, 1)], psetCrc := 0 }, (regs live [(0x78060, 3), (0x7D040, 335545383), (0x7D050, 192)]), by decide +kernel, by decide +kernel, by decide +kernel⟩,
   ⟨{ role := 4, epoch := 2, rank := false, uid := 32, pages := [(0x1E, 268435456), (0xFFFFFB, 36)], psetCrc := 4 }, { (regs live [(0x78060, 3), (0x7D040, 335545383), (0x7D050, 192)]) with lemac := { launching := true } }, by decide +kernel, by decide +kernel, by decide +kernel, by decide +kernel⟩,
   ⟨{ role := 3, epoch := 2, rank := false, uid := 32, pages := joinView ({ regs live [(0x78060, 3), (0x7D040, 335545383), (0x7D050, 192)] with lemac := { launching := true } }), psetCrc := 0 }, { regs live [(0x78060, 3), (0x7D040, 335545383), (0x7D050, 192)] with lemac := { launching := true } }, by decide +kernel, by decide +kernel, by decide +kernel, by decide +kernel, by decide +kernel⟩,
   ⟨{ role := 4, epoch := 2097152, rank := true, uid := 2140098379696348461, pages := [(0x3A, 0), (0xE00000, 2)], psetCrc := 5 }, (regs live [(0x78060, 3), (0x7D040, 335545381), (0x7D050, 194)]), by decide +kernel, by decide +kernel, by decide +kernel, by decide +kernel⟩,
   ⟨{ role := 4, epoch := 5, rank := false, uid := 4194304, pages := [(0x849B4D, 2), (0x20, 69200234), (0x35, 3)], psetCrc := 4 }, (regs live [(0x78060, 3), (0x7D040, 335545383), (0x7D050, 192)]), by decide +kernel, by decide +kernel, by decide +kernel, by decide +kernel, by decide +kernel⟩,
   ⟨{ role := 3, epoch := 2, rank := false, uid := 32, pages := joinView ({ regs live [(0x78060, 3), (0x7D040, 335545383), (0x7D050, 192)] with lemac := {} }), psetCrc := 0 }, { regs live [(0x78060, 3), (0x7D040, 335545383), (0x7D050, 192)] with lemac := {} }, by decide +kernel, by decide +kernel, by decide +kernel, by decide +kernel, by decide +kernel, by decide +kernel⟩,
   ⟨{ role := 4, epoch := 2, rank := false, uid := 32, pages := joinView ({ regs live [(0x78060, 3), (0x7D040, 335545383), (0x7D050, 192)] with lemac := {} }), psetCrc := 0 }, { regs live [(0x78060, 3), (0x7D040, 335545383), (0x7D050, 192)] with lemac := {} }, by decide +kernel, by decide +kernel, by decide +kernel, by decide +kernel, by decide +kernel, by decide +kernel⟩,
   ⟨live, by decide +kernel⟩,
   ⟨{ mem := [], owned := [], motRec := [], camPend := [], axes := [], mots := [], intra := [], inter := [], commit := none, stops := [], swapDue := none, step := none, regs := [] }, sets live [(Reg.PEER_STAT_ROLE, rJOINING), (Reg.PEER_STAT_LANE0, 1), (Reg.PEER_STAT_LANE1, 1)], _, by decide +kernel, by decide +kernel, rfl, by decide +kernel⟩,
   ⟨{ mem := [(ptAddr (pt 31 32 0 0), [1])], owned := [], motRec := [], camPend := [], axes := [], mots := [], intra := [], inter := [], commit := none, stops := [], swapDue := none, step := none, regs := [] }, sets live [(Reg.PEER_STAT_ROLE, rJOINING), (Reg.PEER_STAT_LANE0, 1), (Reg.PEER_STAT_LANE1, 1)], _, by decide +kernel, by decide +kernel, rfl, by decide +kernel⟩,
   ⟨.host, 1, (regs live [(0x7D050, 2)]), by unfold CanReach; decide +kernel, by decide +kernel, by decide +kernel⟩⟩

theorem witness_PairJoinMirrorAndSwap_3 :
    (∃ (m : Master) (w : W32) (s : State), CanReach m s Reg.PEER_CMD_OP.addr ∧ wbits Reg.PEER_CMD_OP w = 1 ∧ roleBars s m = false ∧ (¬(role s = rACTIVE ∧ on s Reg.PEER_STAT_SWAPPEND = false))) ∧
    (∃ (m : Master) (w : W32) (s : State), CanReach m s Reg.PEER_CMD_OP.addr ∧ wbits Reg.PEER_CMD_OP w = 1 ∧ roleBars s m = false ∧ (role s = rACTIVE ∧ on s Reg.PEER_STAT_SWAPPEND = false) ∧ peerUp s = false) ∧
    (∃ (m : Master) (w : W32) (s : State), CanReach m s Reg.PEER_CMD_OP.addr ∧ wbits Reg.PEER_CMD_OP w = 1 ∧ roleBars s m = false ∧ (role s = rACTIVE ∧ on s Reg.PEER_STAT_SWAPPEND = false) ∧ peerUp s = true ∧ on s Reg.PEER_STAT_PEER_READY = false) ∧
    (∃ (m : Master) (w : W32) (s : State), CanReach m s Reg.PEER_CMD_OP.addr ∧ wbits Reg.PEER_CMD_OP w = 1 ∧ roleBars s m = false ∧ (role s = rACTIVE ∧ on s Reg.PEER_STAT_SWAPPEND = false) ∧ peerUp s = true ∧ on s Reg.PEER_STAT_PEER_READY = true ∧ rd64 s Reg.PEER_SWAP_AT_LO_CYCLE Reg.PEER_SWAP_AT_HI_CYCLE < s.sched.cycle + 9) ∧
    (∃ (m : Master) (w : W32) (s : State), CanReach m s Reg.PEER_CMD_OP.addr ∧ wbits Reg.PEER_CMD_OP w = 1 ∧ roleBars s m = false ∧ (role s = rACTIVE ∧ on s Reg.PEER_STAT_SWAPPEND = false) ∧ peerUp s = true ∧ on s Reg.PEER_STAT_PEER_READY = true ∧ s.sched.cycle + 9 ≤ rd64 s Reg.PEER_SWAP_AT_LO_CYCLE Reg.PEER_SWAP_AT_HI_CYCLE) ∧
    (∃ (m : Master) (w : W32) (s : State), CanReach m s Reg.PEER_CMD_OP.addr ∧ wbits Reg.PEER_CMD_OP w = 2 ∧ (¬(role s = rACTIVE ∧ on s Reg.PEER_STAT_SWAPPEND = true))) ∧
    (∃ (m : Master) (w : W32) (s : State), CanReach m s Reg.PEER_CMD_OP.addr ∧ wbits Reg.PEER_CMD_OP w = 2 ∧ role s = rACTIVE ∧ on s Reg.PEER_STAT_SWAPPEND = true) ∧
    (∃ (m : Master) (w : W32) (s : State), CanReach m s Reg.PEER_CMD_OP.addr ∧ wbits Reg.PEER_CMD_OP w = 3 ∧ role s ≠ rRELINQUISHED ∧ role s ≠ rFAULTED) ∧
    (∃ (m : Master) (w : W32) (s : State), CanReach m s Reg.PEER_CMD_OP.addr ∧ wbits Reg.PEER_CMD_OP w = 3 ∧ (role s = rRELINQUISHED ∨ role s = rFAULTED) ∧ peerUp s = false) ∧
    (∃ (m : Master) (w : W32) (s : State), CanReach m s Reg.PEER_CMD_OP.addr ∧ wbits Reg.PEER_CMD_OP w = 3 ∧ (role s = rRELINQUISHED ∨ role s = rFAULTED) ∧ peerUp s = true) :=
  ⟨⟨.steward0, 1, live, by unfold CanReach; decide +kernel, by decide +kernel, by decide +kernel, by decide +kernel⟩,
   ⟨.dmaEngine, 1, (regs live [(0x7D050, 4)]), by unfold CanReach; decide +kernel, by decide +kernel, by decide +kernel, by decide +kernel, by decide +kernel⟩,
   ⟨.host, 1, (regs live [(0x7D050, 132)]), by unfold CanReach; decide +kernel, by decide +kernel, by decide +kernel, by decide +kernel, by decide +kernel, by decide +kernel⟩,
   ⟨.host, 1, (regs live [(0x7D050, 324)]), by unfold CanReach; decide +kernel, by decide +kernel, by decide +kernel, by decide +kernel, by decide +kernel, by decide +kernel, by decide +kernel⟩,
   ⟨.receive, 1, (regs live [(0x7D048, 16), (0x7D050, 388)]), by unfold CanReach; decide +kernel, by decide +kernel, by decide +kernel, by decide +kernel, by decide +kernel, by decide +kernel, by decide +kernel⟩,
   ⟨.host, 2, live, by unfold CanReach; decide +kernel, by decide +kernel, by decide +kernel⟩,
   ⟨.dmaEngine, 2, (regs live [(0x7D050, 516)]), by unfold CanReach; decide +kernel, by decide +kernel, by decide +kernel, by decide +kernel⟩,
   ⟨.device, 3, live, by unfold CanReach; decide +kernel, by decide +kernel, by decide +kernel, by decide +kernel⟩,
   ⟨.transmit, 3, (regs live [(0x7D050, 5)]), by unfold CanReach; decide +kernel, by decide +kernel, by decide +kernel, by decide +kernel⟩,
   ⟨.receive, 3, (regs live [(0x7D050, 133)]), by unfold CanReach; decide +kernel, by decide +kernel, by decide +kernel, by decide +kernel⟩⟩

theorem witness_SafetyDemandsFaultsAndTimers_1 :
    (∃ (s : State), (chanOn s false = false)) ∧
    (∃ (s : State) (p : Fin 4) (g : Fin 4), (chanOn s false = true) ∧ (pairDemand s false p.val = true) ∧ ((chan s false).dem.getLsbD p.val = false) ∧ (pairNames s false p.val g.val = true) ∧ (bits 1 0 (inW s false p.val) = 1)) ∧
    (∃ (s : State) (p : Fin 4) (g : Fin 4), (chanOn s false = true) ∧ (pairDemand s false p.val = true) ∧ ((chan s false).dem.getLsbD p.val = false) ∧ (pairNames s false p.val g.val = true) ∧ (bits 1 0 (inW s false p.val) = 2)) ∧
    (∃ (s : State) (b : Bool), (chanOn s b = false)) ∧
    (∃ (s : State) (b : Bool) (i : Fin 8) (l : Bool) (x : Chan), (x = { chan s b with inp := if l = true then (chan s b).inp ||| BitVec.ofNat 8 (2 ^ i.val) else (chan s b).inp &&& ~~~BitVec.ofNat 8 (2 ^ i.val) }) ∧ (chanOn s b = true) ∧ (b = false)) ∧
    (∃ (s : State) (b : Bool) (i : Fin 8) (l : Bool) (x : Chan) (p : Fin 4) (g : Fin 4), (x = { chan s b with inp := if l = true then (chan s b).inp ||| BitVec.ofNat 8 (2 ^ i.val) else (chan s b).inp &&& ~~~BitVec.ofNat 8 (2 ^ i.val) }) ∧ (chanOn s b = true) ∧ (b = true) ∧ (pairDemand (setChan s true x) true p.val = true) ∧ ((chan (setChan s true x) true).dem.getLsbD p.val = false) ∧ (pairNames (setChan s true x) true p.val g.val = true) ∧ (bits 1 0 (inW (setChan s true x) true p.val) = 1)) ∧
    (∃ (s : State) (b : Bool) (i : Fin 8) (l : Bool) (x : Chan) (p : Fin 4) (g : Fin 4), (x = { chan s b with inp := if l = true then (chan s b).inp ||| BitVec.ofNat 8 (2 ^ i.val) else (chan s b).inp &&& ~~~BitVec.ofNat 8 (2 ^ i.val) }) ∧ (chanOn s b = true) ∧ (b = true) ∧ (pairDemand (setChan s true x) true p.val = true) ∧ ((chan (setChan s true x) true).dem.getLsbD p.val = false) ∧ (pairNames (setChan s true x) true p.val g.val = true) ∧ (bits 1 0 (inW (setChan s true x) true p.val) = 2)) ∧
    (∃ (s : State) (b : Bool) (p : Fin 4), pairDisc s b p.val = false) ∧
    (∃ (s : State) (b : Bool) (p : Fin 4), (pairDisc s b p.val = true) ∧ (chanOn s b = true) ∧ (b = false)) ∧
    (∃ (s : State) (b : Bool), chanOn s b = true ∧ b = false) ∧
    (∃ (s : State) (b : Bool), ((chan s b).dem = (chan s b).other.dem ∧ (chan s b).sto = (chan s b).other.sto ∧ (chan s b).ss1 = (chan s b).other.ss1 ∧ (chan s b).mode = (chan s b).other.mode)) ∧
    (∃ (s : State) (b : Bool), ((chan s b).dem ≠ (chan s b).other.dem ∨ (chan s b).sto ≠ (chan s b).other.sto ∨ (chan s b).ss1 ≠ (chan s b).other.ss1 ∨ (chan s b).mode ≠ (chan s b).other.mode) ∧ chanOn s b = true ∧ b = false) :=
  ⟨⟨setDom live dSAFEA {}, by decide +kernel⟩,
   ⟨{ live with safe := { pset := psetT 1, psetB := psetT 1 } }, 1, 2, by decide +kernel, by decide +kernel, by decide +kernel, by decide +kernel, by decide +kernel⟩,
   ⟨{ live with safe := { pset := psetT 2, psetB := psetT 2 } }, 1, 2, by decide +kernel, by decide +kernel, by decide +kernel, by decide +kernel, by decide +kernel⟩,
   ⟨setDom live dSAFEB {}, true, by decide +kernel⟩,
   ⟨live, false, 7, true, _, rfl, by decide +kernel, by decide +kernel⟩,
   ⟨{ live with safe := { pset := psetT 1, psetB := psetT 1 } }, true, 7, false, _, 1, 2, rfl, by decide +kernel, by decide +kernel, by decide +kernel, by decide +kernel, by decide +kernel, by decide +kernel⟩,
   ⟨{ live with safe := { pset := psetT 2, psetB := psetT 2 } }, true, 7, false, _, 1, 2, rfl, by decide +kernel, by decide +kernel, by decide +kernel, by decide +kernel, by decide +kernel, by decide +kernel⟩,
   ⟨live, false, 1, by decide +kernel⟩,
   ⟨{ live with safe := { pset := psetT 1, psetB := psetT 1, a := { inp := 4 }, b := { inp := 4 } } }, false, 1, by decide +kernel, by decide +kernel, by decide +kernel⟩,
   ⟨live, false, by decide +kernel, by decide +kernel⟩,
   ⟨live, false, by decide +kernel⟩,
   ⟨{ live with safe := { a := { sto := 0, ss1 := 2, mode := 3, alive := 71, cause := 1067 }, high := 1, edm := 1, nodeRun := 3, nodeAsk := true } }, false, by decide +kernel, by decide +kernel, by decide +kernel⟩⟩

theorem witness_SafetyDemandsFaultsAndTimers_2 :
    (∃ (s : State), on s Reg.SAFE_STAT_TP_SUSP = false) ∧
    (∃ (s : State), on s Reg.SAFE_STAT_TP_SUSP = true ∧ chanOn s false = true ∧ false = false) ∧
    (∃ (s : State) (tp : Fin 2) (low : BitVec 8), (∀ (i : Fin 8), psOk s false = true → bitOf 3 (inW s false (↑i / 2)) = true → low.getLsbD ↑i = decide (↑i % 2 = tp.val))) ∧
    (∃ (s : State) (tp : Fin 2) (low : BitVec 8) (i : Fin 8) (b : Bool), psOk s false = true ∧ bitOf 3 (inW s false (i.val / 2)) = true ∧ (i.val % 2 = tp.val ∧ low.getLsbD i.val = false ∨ i.val % 2 ≠ tp.val ∧ low.getLsbD i.val = true ∧ s.safe.b.inp.getLsbD i.val = true) ∧ chanOn s b = true) ∧
    (∃ (s : State) (q : Fin 2), readsBack s q.val = false) ∧
    (∃ (s : State) (q : Fin 2), readsBack s q.val = true ∧ energised s q.val = true ∧ noPulse s q.val = true) ∧
    (∃ (s : State) (q : Fin 2) (o : Bool), readsBack s q.val = true ∧ energised s q.val = false ∧ o = false) ∧
    (∃ (s : State) (q : Fin 2) (o : Bool) (b : Bool), readsBack s q.val = true ∧ energised s q.val = false ∧ o = true ∧ chanOn s b = true ∧ b = false) ∧
    (∃ (s : State) (q : Fin 2) (f : Bool) (r : Bool) (x : Bool), readsBack s q.val = true ∧ noPulse s q.val = false ∧ energised s q.val = true ∧ chanOn s false = true ∧ f = true ∧ r = true ∧ x = false) ∧
    (∃ (s : State) (q : Fin 2) (f : Bool) (r : Bool) (x : Bool) (b : Bool), readsBack s q.val = true ∧ noPulse s q.val = false ∧ energised s q.val = true ∧ chanOn s b = true ∧ ((if s.safe.lowNext.getLsbD q.val = true then r else f) = false ∨ x = true)) ∧
    (∃ (s : State) (b : Bool) (q : Fin 2) (closed : Bool), (closed = if b = true then s.safe.edm.getLsbD q.val else (Option.map (fun f => f.edm.getLsbD q.val) s.bridge.img).getD false) ∧ (psOk s b = false ∨ outCheck s b q.val = 0 ∨ closed ≠ energised s q.val)) ∧
    (∃ (s : State) (b : Bool) (q : Fin 2) (closed : Bool), (closed = if b = true then s.safe.edm.getLsbD q.val else (Option.map (fun f => f.edm.getLsbD q.val) s.bridge.img).getD false) ∧ psOk s b = true ∧ outCheck s b q.val ≠ 0 ∧ closed = energised s q.val ∧ chanOn s b = true ∧ b = false) :=
  ⟨⟨live, by decide +kernel⟩,
   ⟨(regs live [(0xA1040, 2158832)]), by decide +kernel, by decide +kernel, by decide +kernel⟩,
   ⟨live, 0, 84, by decide +kernel⟩,
   ⟨{ live with safe := { a := { sto := 0 }, high := 1, edm := 1, pset := ([1, 0, 0, 0, 0, 2] ++ List.replicate 10 0 ++ [164, 48, 4, 0, 162, 48, 60, 0, 173, 48, 40, 0, 166, 48, 60, 0, 100, 0, 1, 0, 2, 0, 0, 0, 100, 0, 1, 0, 1, 2, 0, 0, 100, 0, 0, 0, 7, 2, 0, 0, 100, 0, 1, 0, 0, 1, 0, 0, 224, 21, 10, 1, 233, 21, 10, 0, 80] ++ List.replicate 13 0 ++ [5, 0, 0, 0, 1, 0, 2, 0, 3, 0, 4, 0, 5, 0, 6, 0, 7, 0, 8, 0, 9, 0, 10, 0, 11, 0, 12, 0, 13, 0, 14, 0, 15, 0, 16, 0, 17, 0, 18, 0, 19, 0, 20, 0, 21, 0, 22, 0, 23, 0, 24, 0, 25, 0, 26, 0, 27, 0, 28, 0, 29, 0, 30, 0, 31] ++ List.replicate 361 0), nodeRun := 1, nodeAsk := true, lowNext := 1, pulseHold := 1 } }, 0, 73, 4, false, by decide +kernel, by decide +kernel, by decide +kernel, by decide +kernel⟩,
   ⟨live, 0, by decide +kernel⟩,
   ⟨{ (regs live [(0xA1040, 2158832)]) with safe := { a := { sto := 0 }, b := { inp := 93, dem := 15, lock := 12, flock := true, sto := 3, ss1 := 1, sw := 1, alive := 30, cause := 847 }, high := 1, edm := 1, pset := ([1, 0, 0, 0, 0, 2] ++ List.replicate 10 0 ++ [166, 48, 12, 0, 169, 48, 36, 0, 173, 48, 12, 0, 174, 48, 8, 0, 100, 0, 1, 0, 7, 2, 0, 0, 100, 0, 1, 0, 0, 1, 0, 0, 100, 0, 0, 0, 1, 0, 0, 0, 100, 0, 0, 0, 1, 2, 0, 0, 226, 21, 10, 1, 234, 21, 10, 0, 81] ++ List.replicate 13 0 ++ [5, 0, 0, 0, 1, 0, 2, 0, 3, 0, 4, 0, 5, 0, 6, 0, 7, 0, 8, 0, 9, 0, 10, 0, 11, 0, 12, 0, 13, 0, 14, 0, 15, 0, 16, 0, 17, 0, 18, 0, 19, 0, 20, 0, 21, 0, 22, 0, 23, 0, 24, 0, 25, 0, 26, 0, 27, 0, 28, 0, 29, 0, 30, 0, 31] ++ List.replicate 361 0), nodeRun := 2, nodeAsk := true, lowNext := 1, pulseHold := 2 } }, 0, by decide +kernel, by decide +kernel, by decide +kernel⟩,
   ⟨{ live with safe := { a := { sto := 0 }, high := 2, edm := 3, pset := ([1, 0, 0, 0, 0, 2] ++ List.replicate 10 0 ++ [169, 48, 20, 0, 160, 48, 60, 0, 165, 48, 24, 0, 170, 48, 56, 0, 100, 0, 0, 0, 0, 1, 0, 0, 100, 0, 0, 0, 2, 0, 0, 0, 100, 0, 1, 0, 3, 1, 0, 0, 100, 0, 0, 0, 4, 1, 0, 0, 233, 21, 10, 0, 224, 21, 10, 0, 80] ++ List.replicate 13 0 ++ [5, 0, 0, 0, 1, 0, 2, 0, 3, 0, 4, 0, 5, 0, 6, 0, 7, 0, 8, 0, 9, 0, 10, 0, 11, 0, 12, 0, 13, 0, 14, 0, 15, 0, 16, 0, 17, 0, 18, 0, 19, 0, 20, 0, 21, 0, 22, 0, 23, 0, 24, 0, 25, 0, 26, 0, 27, 0, 28, 0, 29, 0, 30, 0, 31] ++ List.replicate 361 0), nodeRun := 3, lowNext := 2, pulseHold := 3 } }, 0, false, by decide +kernel, by decide +kernel, by decide +kernel⟩,
   ⟨{ live with safe := { a := { sto := 0 }, high := 1, pset := ([1, 0, 0, 0, 0, 2] ++ List.replicate 10 0 ++ [173, 48, 16, 0, 160, 48, 48, 0, 160, 48, 32, 0, 164, 48, 16, 0, 100, 0, 1, 0, 3, 2, 0, 0, 100, 0, 0, 0, 0, 1, 0, 0, 100, 0, 0, 0, 6, 2, 0, 0, 100, 0, 1, 0, 5, 1, 0, 0, 234, 21, 10, 1, 224, 21, 10, 1, 81] ++ List.replicate 13 0 ++ [5, 0, 0, 0, 1, 0, 2, 0, 3, 0, 4, 0, 5, 0, 6, 0, 7, 0, 8, 0, 9, 0, 10, 0, 11, 0, 12, 0, 13, 0, 14, 0, 15, 0, 16, 0, 17, 0, 18, 0, 19, 0, 20, 0, 21, 0, 22, 0, 23, 0, 24, 0, 25, 0, 26, 0, 27, 0, 28, 0, 29, 0, 30, 0, 31] ++ List.replicate 361 0) } }, 1, true, false, by decide +kernel, by decide +kernel, by decide +kernel, by decide +kernel, by decide +kernel⟩,
   ⟨{ live with safe := { a := { sto := 0 }, b := { inp := 245, dem := 15, lock := 13, sto := 12, ss1 := 5, mode := 3, sw := 1, alive := 31, cause := 50 }, high := 1, pset := ([1, 0, 0, 0, 0, 2] ++ List.replicate 10 0 ++ [165, 48, 44, 0, 166, 48, 60, 0, 170, 48, 36, 0, 168, 48, 28, 0, 100, 0, 1, 0, 2, 1, 0, 0, 100, 0, 1, 0, 4, 0, 0, 0, 100, 0, 1, 0, 4, 0, 0, 0, 100, 0, 0, 0, 4, 2, 0, 0, 232, 21, 10, 0, 225, 21, 10, 1, 81] ++ List.replicate 13 0 ++ [5, 0, 0, 0, 1, 0, 2, 0, 3, 0, 4, 0, 5, 0, 6, 0, 7, 0, 8, 0, 9, 0, 10, 0, 11, 0, 12, 0, 13, 0, 14, 0, 15, 0, 16, 0, 17, 0, 18, 0, 19, 0, 20, 0, 21, 0, 22, 0, 23, 0, 24, 0, 25, 0, 26, 0, 27, 0, 28, 0, 29, 0, 30, 0, 31] ++ List.replicate 361 0), nodeRun := 3, lowNext := 3, pulseHold := 2 } }, 0, true, true, false, by decide +kernel, by decide +kernel, by decide +kernel, by decide +kernel, by decide +kernel, by decide +kernel, by decide +kernel⟩,
   ⟨{ live with safe := { a := { sto := 0 }, b := { inp := 215, dem := 8, sto := 6, ss1 := 15, mode := 3, sw := 3, alive := 73, cause := 315 }, high := 3, edm := 3, pset := ([1, 0, 0, 0, 0, 2] ++ List.replicate 10 0 ++ [170, 48, 36, 0, 166, 48, 48, 0, 164, 48, 0, 0, 161, 48, 28, 0, 100, 0, 1, 0, 2, 1, 0, 0, 100, 0, 1] ++ List.replicate 5 0 ++ [100, 0, 1, 0, 5, 1, 0, 0, 100, 0, 0, 0, 5, 2, 0, 0, 227, 21, 10, 0, 235, 21, 10, 1, 81] ++ List.replicate 13 0 ++ [5, 0, 0, 0, 1, 0, 2, 0, 3, 0, 4, 0, 5, 0, 6, 0, 7, 0, 8, 0, 9, 0, 10, 0, 11, 0, 12, 0, 13, 0, 14, 0, 15, 0, 16, 0, 17, 0, 18, 0, 19, 0, 20, 0, 21, 0, 22, 0, 23, 0, 24, 0, 25, 0, 26, 0, 27, 0, 28, 0, 29, 0, 30, 0, 31] ++ List.replicate 361 0), nodeAsk := true, lowNext := 3 } }, 0, true, false, true, true, by decide +kernel, by decide +kernel, by decide +kernel, by decide +kernel, by decide +kernel⟩,
   ⟨{ live with safe := { a := { sto := 0 }, high := 2, edm := 1, nodeRun := 3, lowNext := 3, pulseHold := 3 } }, true, 0, true, by decide +kernel, by decide +kernel⟩,
   ⟨{ live with safe := { a := { sto := 0 }, pset := ([1, 0, 0, 0, 0, 2] ++ List.replicate 10 0 ++ [164, 48, 56, 0, 169, 48, 24, 0, 173, 48, 40, 0, 161, 48, 44, 0, 100, 0, 1, 0, 6, 2, 0, 0, 100, 0, 1, 0, 3, 0, 0, 0, 100, 0, 0, 0, 2, 2, 0, 0, 100, 0, 1, 0, 2, 0, 0, 0, 230, 21, 10, 1, 234, 21, 10, 0, 81] ++ List.replicate 13 0 ++ [5, 0, 0, 0, 1, 0, 2, 0, 3, 0, 4, 0, 5, 0, 6, 0, 7, 0, 8, 0, 9, 0, 10, 0, 11, 0, 12, 0, 13, 0, 14, 0, 15, 0, 16, 0, 17, 0, 18, 0, 19, 0, 20, 0, 21, 0, 22, 0, 23, 0, 24, 0, 25, 0, 26, 0, 27, 0, 28, 0, 29, 0, 30, 0, 31] ++ List.replicate 361 0), nodeRun := 1, lowNext := 1, pulseHold := 2 } }, false, 0, false, by decide +kernel, by decide +kernel, by decide +kernel, by decide +kernel, by decide +kernel, by decide +kernel⟩⟩

theorem witness_SafetyDemandsFaultsAndTimers_3 :
    (∃ (s : State) (g : Fin 4), s.boot.unlocked = false ∧ s.safe.a.ss1.getLsbD g.val = false) ∧
    (∃ (s : State) (g : Fin 4), s.boot.unlocked = false ∧ (chanOn s true = false ∨ s.safe.b.ss1.getLsbD g.val = false)) ∧
    (∃ (s : State) (g : Fin 4), s.boot.unlocked = false ∧ chanOn s false = true ∧ s.safe.a.ss1.getLsbD g.val = true) ∧
    (∃ (s : State) (g : Fin 4), s.boot.unlocked = false ∧ chanOn s true = true ∧ s.safe.b.ss1.getLsbD g.val = true) :=
  ⟨⟨live, 1, by decide +kernel, by decide +kernel⟩,
   ⟨live, 2, by decide +kernel, by decide +kernel⟩,
   ⟨{ live with safe := { a := { sto := 0, ss1 := 15, mode := 2, sw := 3, alive := 70, cause := 985 }, high := 1, edm := 2, nodeRun := 2, lowNext := 3, pulseHold := 3 } }, 3, by decide +kernel, by decide +kernel, by decide +kernel⟩,
   ⟨{ live with safe := { a := { sto := 0 }, b := { inp := 215, dem := 9, lock := 15, flock := true, sto := 12, ss1 := 12, mode := 1, sw := 3, alive := 46, cause := 1156 }, high := 3, edm := 1, pulseHold := 2 } }, 2, by decide +kernel, by decide +kernel, by decide +kernel⟩⟩

theorem witness_SafetyResetsAndMailbox_1 :
    (∃ (s : State) (ms : Nat), s.boot.unlocked = false ∧ (ms < 50 ∨ chanOn s false = false)) ∧
    (∃ (s : State) (ms : Nat), s.boot.unlocked = false ∧ chanOn s false = true ∧ 5000 < ms) ∧
    (∃ (s : State) (ms : Nat) (low : Nat), s.boot.unlocked = false ∧ chanOn s false = true ∧ 50 ≤ ms ∧ ms ≤ 5000 ∧ s.safe.a.mode ≠ 1 ∧ low < 500) ∧
    (∃ (s : State) (ms : Nat), (s.boot.unlocked = false) ∧ (chanOn s false = true) ∧ (50 ≤ ms) ∧ (ms ≤ 5000) ∧ (s.safe.a.mode = 1) ∧ (demands s false &&& ~~~s.safe.a.dem ≠ 0#4)) ∧
    (∃ (s : State) (ms : Nat) (ok : BitVec 4), s.boot.unlocked = false ∧ chanOn s false = true ∧ 50 ≤ ms ∧ ms ≤ 5000 ∧ s.safe.a.mode = 1 ∧ demands s false &&& ~~~s.safe.a.dem = 0#4 ∧ ok = freeGroups s false &&& freeGroups s true ∧ (s.safe.a.lock ||| s.safe.b.lock) &&& ~~~ok ≠ 0#4) ∧
    (∃ (s : State) (ms : Nat) (low : Nat) (p : Bool), s.boot.unlocked = false ∧ chanOn s false = true ∧ 50 ≤ ms ∧ ms ≤ 5000 ∧ 500 ≤ low ∧ s.safe.a.mode = 0 ∧ (psOk s false = true ∧ p = false ∧ causePersists s = false ∧ ¬(demands s false ≠ 0#4 ∨ demands s true ≠ 0#4 ∨ s.safe.vfsaf = false))) ∧
    (∃ (s : State) (ms : Nat) (low : Nat) (p : Bool), s.boot.unlocked = false ∧ chanOn s false = true ∧ 50 ≤ ms ∧ ms ≤ 5000 ∧ 500 ≤ low ∧ s.safe.a.mode = 0 ∧ (¬(psOk s false = true ∧ p = false ∧ causePersists s = false ∧ ¬(demands s false ≠ 0#4 ∨ demands s true ≠ 0#4 ∨ s.safe.vfsaf = false)))) ∧
    (∃ (s : State) (ms : Nat) (low : Nat) (p : Bool), s.boot.unlocked = false ∧ chanOn s false = true ∧ 50 ≤ ms ∧ ms ≤ 5000 ∧ 500 ≤ low ∧ s.safe.a.mode = 3 ∧ (p = true ∨ causePersists s = true)) ∧
    (∃ (s : State) (ms : Nat) (low : Nat) (p : Bool), s.boot.unlocked = false ∧ chanOn s false = true ∧ 50 ≤ ms ∧ ms ≤ 5000 ∧ 500 ≤ low ∧ s.safe.a.mode = 3 ∧ p = false ∧ causePersists s = false) ∧
    (∃ (s : State) (ms : Nat) (low : Nat), s.boot.unlocked = false ∧ chanOn s false = true ∧ 50 ≤ ms ∧ ms ≤ 5000 ∧ 500 ≤ low ∧ s.safe.a.mode = 2) ∧
    (∃ (s : State) (n : Nat) (k : Nat), s.boot.unlocked = false ∧ n = rd s Reg.SAFE_MBOX_BLOCK ∧ k = cistAddr (256 * n) ∧ (¬(chanOn s false = true ∧ domOn s dCIST = true ∧ flt s n = 2))) ∧
    (∃ (s : State) (n : Nat) (k : Nat), (s.boot.unlocked = false) ∧ (n = rd s Reg.SAFE_MBOX_BLOCK) ∧ (k = cistAddr (256 * n)) ∧ (chanOn s false = true) ∧ (domOn s dCIST = true) ∧ (flt s n = 2) ∧ (mnum s k 4 = 2) ∧ (s.safe.a.mode = 0 ∨ s.safe.a.mode = 3)) :=
  ⟨⟨live, 49, by decide +kernel, by decide +kernel⟩,
   ⟨live, 5001, by decide +kernel, by decide +kernel, by decide +kernel⟩,
   ⟨live, 499, 49, by decide +kernel, by decide +kernel, by decide +kernel, by decide +kernel, by decide +kernel, by decide +kernel⟩,
   ⟨{ live with safe := { pset := psetT 1, psetB := psetT 1, a := { mode := 1 } } }, 50, by decide +kernel, by decide +kernel, by decide +kernel, by decide +kernel, by decide +kernel, by decide +kernel⟩,
   ⟨{ live with safe := { a := { dem := 7, sto := 0, ss1 := 2, mode := 1, sw := 2, alive := 88, cause := 708 }, b := { inp := 95, dem := 15, lock := 8, flock := true, sto := 0, mode := 1, alive := 13, cause := 1174 }, high := 3, edm := 2, psetB := ([1, 0, 0, 0, 0, 2] ++ List.replicate 10 0 ++ [174, 48, 60, 0, 169, 48, 4, 0, 173, 48, 12, 0, 166, 48, 28, 0, 100, 0, 1, 0, 2, 2, 0, 0, 100, 0, 0, 0, 6, 2, 0, 0, 100, 0, 1, 0, 5, 1, 0, 0, 100, 0, 1, 0, 2, 0, 0, 0, 224, 21, 10, 1, 227, 21, 10, 0, 80] ++ List.replicate 11 0), nodeRun := 1, lowNext := 3, pulseHold := 1 } }, 100, 0, by decide +kernel, by decide +kernel, by decide +kernel, by decide +kernel, by decide +kernel, by decide +kernel, by decide +kernel, by decide +kernel⟩,
   ⟨{ (regs live [(0xA0094, 10)]) with safe := { a := { inp := 125, sw := 3, alive := 49, cause := 62 }, b := { inp := 125, dem := 10, flock := true, sto := 7, ss1 := 15, mode := 2, sw := 1, alive := 98, cause := 935 }, high := 3, edm := 2, pset := ([1, 0, 0, 0, 0, 2] ++ List.replicate 10 0 ++ [174, 48, 28, 0, 161, 48, 60, 0, 161, 48, 40, 0, 165, 48, 36, 0, 100, 0, 1, 0, 5, 0, 0, 0, 100, 0, 0, 0, 1, 2, 0, 0, 100, 0, 0, 0, 7, 1, 0, 0, 100, 0, 1, 0, 7, 1, 0, 0, 227, 21, 10, 1, 224, 21, 10, 0, 80] ++ List.replicate 13 0 ++ [5, 0, 0, 0, 1, 0, 2, 0, 3, 0, 4, 0, 5, 0, 6, 0, 7, 0, 8, 0, 9, 0, 10, 0, 11, 0, 12, 0, 13, 0, 14, 0, 15, 0, 16, 0, 17, 0, 18, 0, 19, 0, 20, 0, 21, 0, 22, 0, 23, 0, 24, 0, 25, 0, 26, 0, 27, 0, 28, 0, 29, 0, 30, 0, 31] ++ List.replicate 361 0), psetB := ([1, 0, 0, 0, 0, 2] ++ List.replicate 10 0 ++ [160, 48, 56, 0, 160, 48, 60, 0, 168, 48, 40, 0, 166, 48, 12, 0, 100, 0, 0, 0, 4, 1, 0, 0, 100, 0, 1, 0, 4, 1, 0, 0, 100, 0, 1, 0, 0, 1, 0, 0, 100, 0, 1, 0, 6, 0, 0, 0, 225, 21, 10, 0, 228, 21, 10, 1, 81] ++ List.replicate 11 0), nodeRun := 1 } }, 600, 5000, false, by decide +kernel, by decide +kernel, by decide +kernel, by decide +kernel, by decide +kernel, by decide +kernel, by decide +kernel⟩,
   ⟨live, 500, 5000, true, by decide +kernel, by decide +kernel, by decide +kernel, by decide +kernel, by decide +kernel, by decide +kernel, by decide +kernel⟩,
   ⟨{ live with safe := { a := { sto := 0, ss1 := 10, mode := 3, alive := 46, cause := 1911 }, high := 1, edm := 2, nodeRun := 1, lowNext := 1, pulseHold := 1 } }, 100, 5000, false, by decide +kernel, by decide +kernel, by decide +kernel, by decide +kernel, by decide +kernel, by decide +kernel, by decide +kernel⟩,
   ⟨{ (regs live [(0xA0094, 10)]) with safe := { a := { inp := 1, ss1 := 8, mode := 3, sw := 2, alive := 96, cause := 1734 }, edm := 1, pset := ([1, 0, 0, 0, 0, 2] ++ List.replicate 10 0 ++ [166, 48, 0, 0, 160, 48, 28, 0, 161, 48, 36, 0, 160, 48, 16, 0, 100, 0, 1, 0, 6, 1, 0, 0, 100, 0, 0, 0, 1, 2, 0, 0, 100, 0, 1, 0, 1, 0, 0, 0, 100, 0, 0, 0, 4, 2, 0, 0, 232, 21, 10, 0, 235, 21, 10, 0, 80] ++ List.replicate 13 0 ++ [5, 0, 0, 0, 1, 0, 2, 0, 3, 0, 4, 0, 5, 0, 6, 0, 7, 0, 8, 0, 9, 0, 10, 0, 11, 0, 12, 0, 13, 0, 14, 0, 15, 0, 16, 0, 17, 0, 18, 0, 19, 0, 20, 0, 21, 0, 22, 0, 23, 0, 24, 0, 25, 0, 26, 0, 27, 0, 28, 0, 29, 0, 30, 0, 31] ++ List.replicate 361 0), psetB := ([1, 0, 0, 0, 0, 2] ++ List.replicate 10 0 ++ [172, 48, 60, 0, 161, 48, 0, 0, 161, 48, 28, 0, 169, 48, 0, 0, 100, 0, 0, 0, 2, 2, 0, 0, 100, 0, 0, 0, 0, 1, 0, 0, 100] ++ List.replicate 7 0 ++ [100, 0, 0, 0, 1, 0, 0, 0, 234, 21, 10, 0, 233, 21, 10, 1, 80] ++ List.replicate 11 0), lowNext := 3, pulseHold := 1 } }, 500, 5001, false, by decide +kernel, by decide +kernel, by decide +kernel, by decide +kernel, by decide +kernel, by decide +kernel, by decide +kernel, by decide +kernel⟩,
   ⟨{ live with safe := { a := { sto := 0, ss1 := 5, mode := 2, alive := 4, cause := 817 }, high := 2, edm := 2, nodeRun := 3, lowNext := 3 } }, 499, 500, by decide +kernel, by decide +kernel, by decide +kernel, by decide +kernel, by decide +kernel, by decide +kernel⟩,
   ⟨live, 32767, 545259264, by decide +kernel, by decide +kernel, by decide +kernel, by decide +kernel⟩,
   ⟨{ mwrite (wr live Reg.SAFE_MBOX_BLOCK 2) (cistAddr 512) [2] with cist := [(2, { flt := 2 })], safe := { a := { mode := 3 } } }, 2, cistAddr 512, by decide +kernel, by decide +kernel, by decide +kernel, by decide +kernel, by decide +kernel, by decide +kernel, by decide +kernel, by decide +kernel⟩⟩

theorem witness_SafetyResetsAndMailbox_2 :
    (∃ (s : State) (n : Nat) (k : Nat), (s.boot.unlocked = false) ∧ (n = rd s Reg.SAFE_MBOX_BLOCK) ∧ (k = cistAddr (256 * n)) ∧ (chanOn s false = true) ∧ (domOn s dCIST = true) ∧ (flt s n = 2) ∧ (mnum s k 4 = 2) ∧ (s.safe.a.mode ≠ 0) ∧ (s.safe.a.mode ≠ 3)) ∧
    (∃ (s : State) (n : Nat) (k : Nat), (s.boot.unlocked = false) ∧ (n = rd s Reg.SAFE_MBOX_BLOCK) ∧ (k = cistAddr (256 * n)) ∧ (chanOn s false = true) ∧ (domOn s dCIST = true) ∧ (flt s n = 2) ∧ (mnum s k 4 = 3) ∧ (s.safe.a.mode = 2)) ∧
    (∃ (s : State) (n : Nat) (k : Nat), (s.boot.unlocked = false) ∧ (n = rd s Reg.SAFE_MBOX_BLOCK) ∧ (k = cistAddr (256 * n)) ∧ (chanOn s false = true) ∧ (domOn s dCIST = true) ∧ (flt s n = 2) ∧ (mnum s k 4 = 3) ∧ (s.safe.a.mode ≠ 2)) ∧
    (∃ (s : State) (n : Nat) (k : Nat) (r : Nat × List Byte), (s.boot.unlocked = false) ∧ (n = rd s Reg.SAFE_MBOX_BLOCK) ∧ (k = cistAddr (256 * n)) ∧ (chanOn s false = true) ∧ (domOn s dCIST = true) ∧ (flt s n = 2) ∧ (mnum s k 4 = 1) ∧ (r = checkPset s (mnum s (k + 4) 4)) ∧ (r.1 ≠ 0)) ∧
    (∃ (s : State) (n : Nat) (k : Nat), (s.boot.unlocked = false) ∧ (n = rd s Reg.SAFE_MBOX_BLOCK) ∧ (k = cistAddr (256 * n)) ∧ (chanOn s false = true) ∧ (domOn s dCIST = true) ∧ (flt s n = 2) ∧ (mnum s k 4 ≠ 1) ∧ (mnum s k 4 ≠ 2) ∧ (mnum s k 4 ≠ 3)) :=
  ⟨⟨{ mwrite (wr live Reg.SAFE_MBOX_BLOCK 2) (cistAddr 512) [2] with cist := [(2, { flt := 2 })], safe := { a := { mode := 1 } } }, 2, cistAddr 512, by decide +kernel, by decide +kernel, by decide +kernel, by decide +kernel, by decide +kernel, by decide +kernel, by decide +kernel, by decide +kernel, by decide +kernel⟩,
   ⟨{ mwrite (wr live Reg.SAFE_MBOX_BLOCK 2) (cistAddr 512) [3] with cist := [(2, { flt := 2 })], safe := { a := { mode := 2 } } }, 2, cistAddr 512, by decide +kernel, by decide +kernel, by decide +kernel, by decide +kernel, by decide +kernel, by decide +kernel, by decide +kernel, by decide +kernel⟩,
   ⟨{ mwrite (wr live Reg.SAFE_MBOX_BLOCK 2) (cistAddr 512) [3] with cist := [(2, { flt := 2 })], safe := { a := { mode := 0 } } }, 2, cistAddr 512, by decide +kernel, by decide +kernel, by decide +kernel, by decide +kernel, by decide +kernel, by decide +kernel, by decide +kernel, by decide +kernel⟩,
   ⟨{ mwrite (wr live Reg.SAFE_MBOX_BLOCK 2) (cistAddr 512) [1] with cist := [(2, { flt := 2 })], safe := { a := { mode := 1 } } }, 2, cistAddr 512, checkPset ({ mwrite (wr live Reg.SAFE_MBOX_BLOCK 2) (cistAddr 512) [1] with cist := [(2, { flt := 2 })], safe := { a := { mode := 1 } } }) 0, by decide +kernel, by decide +kernel, by decide +kernel, by decide +kernel, by decide +kernel, by decide +kernel, by decide +kernel, by decide +kernel, by decide +kernel⟩,
   ⟨{ mwrite (wr live Reg.SAFE_MBOX_BLOCK 2) (cistAddr 512) [7] with cist := [(2, { flt := 2 })], safe := { a := { mode := 0 } } }, 2, cistAddr 512, by decide +kernel, by decide +kernel, by decide +kernel, by decide +kernel, by decide +kernel, by decide +kernel, by decide +kernel, by decide +kernel, by decide +kernel⟩⟩

theorem witness_EncodersAndEmulation_1 :
    (∃ (s : State) (n : Fin 8) (old : BitVec 3) (new : BitVec 3), (domOn s dAUX = false ∨ encType s n.val = 0 ∨ 3 ≤ encType s n.val ∨ encType s n.val = 1 ∧ old.toNat / 2 = new.toNat / 2)) ∧
    (∃ (s : State) (n : Fin 8) (old : BitVec 3) (new : BitVec 3) (at_ : W64), domOn s dAUX = true ∧ encType s n.val = 2 ∧ (∀ (u : Nat), (enc s n.val).tAny = some u → u + max 20 ((cfg s (Reg.ENC_CFG_FILT n.val) + 2) * 4) ≤ BitVec.toNat at_ - 4 * cfg s (Reg.ENC_CFG_FILT n.val)) ∧ ((if encType s n.val = 1 then (fun l o v => if (o, v) ∈ l then some 1 else if (v, o) ∈ l then some (-1) else if o = v then some 0 else none) [(0, 2), (2, 3), (3, 1), (1, 0)] (old.toNat / 2) (new.toNat / 2) else if new = 0#3 ∨ new = 7#3 then none else if old = 0#3 ∨ old = 7#3 then some 0 else (fun l o v => if (o, v) ∈ l then some 1 else if (v, o) ∈ l then some (-1) else if o = v then some 0 else none) [(1, 3), (3, 2), (2, 6), (6, 4), (4, 5), (5, 1)] old.toNat new.toNat) = some 0)) ∧
    (∃ (s : State) (n : Fin 8) (old : BitVec 3) (new : BitVec 3) (at_ : W64) (m : Nat), domOn s dAUX = true ∧ (encType s n.val = 1 ∨ encType s n.val = 2) ∧ (∀ (u : Nat), (enc s n.val).tAny = some u → u + max 20 ((cfg s (Reg.ENC_CFG_FILT n.val) + 2) * 4) ≤ BitVec.toNat at_ - 4 * cfg s (Reg.ENC_CFG_FILT n.val)) ∧ ((if encType s n.val = 1 then (fun l o v => if (o, v) ∈ l then some 1 else if (v, o) ∈ l then some (-1) else if o = v then some 0 else none) [(0, 2), (2, 3), (3, 1), (1, 0)] (old.toNat / 2) (new.toNat / 2) else if new = 0#3 ∨ new = 7#3 then none else if old = 0#3 ∨ old = 7#3 then some 0 else (fun l o v => if (o, v) ∈ l then some 1 else if (v, o) ∈ l then some (-1) else if o = v then some 0 else none) [(1, 3), (3, 2), (2, 6), (6, 4), (4, 5), (5, 1)] old.toNat new.toNat) = some 1 ∨ (if encType s n.val = 1 then (fun l o v => if (o, v) ∈ l then some 1 else if (v, o) ∈ l then some (-1) else if o = v then some 0 else none) [(0, 2), (2, 3), (3, 1), (1, 0)] (old.toNat / 2) (new.toNat / 2) else if new = 0#3 ∨ new = 7#3 then none else if old = 0#3 ∨ old = 7#3 then some 0 else (fun l o v => if (o, v) ∈ l then some 1 else if (v, o) ∈ l then some (-1) else if o = v then some 0 else none) [(1, 3), (3, 2), (2, 6), (6, 4), (4, 5), (5, 1)] old.toNat new.toNat) = some (-1)) ∧ m ≠ n.val) ∧
    (∃ (s : State) (n : Fin 8) (old : BitVec 3) (new : BitVec 3) (at_ : W64), domOn s dAUX = true ∧ (encType s n.val = 1 ∨ encType s n.val = 2) ∧ (encType s n.val = 1 → old.toNat / 2 ≠ new.toNat / 2) ∧ ((¬∀ (u : Nat), (enc s n.val).tAny = some u → u + max 20 ((cfg s (Reg.ENC_CFG_FILT n.val) + 2) * 4) ≤ BitVec.toNat at_ - 4 * cfg s (Reg.ENC_CFG_FILT n.val)) ∨ (if encType s n.val = 1 then (fun l o v => if (o, v) ∈ l then some 1 else if (v, o) ∈ l then some (-1) else if o = v then some 0 else none) [(0, 2), (2, 3), (3, 1), (1, 0)] (old.toNat / 2) (new.toNat / 2) else if new = 0#3 ∨ new = 7#3 then none else if old = 0#3 ∨ old = 7#3 then some 0 else (fun l o v => if (o, v) ∈ l then some 1 else if (v, o) ∈ l then some (-1) else if o = v then some 0 else none) [(1, 3), (3, 2), (2, 6), (6, 4), (4, 5), (5, 1)] old.toNat new.toNat) = none)) ∧
    (∃ (s : State) (n : Fin 8), (domOn s dAUX = false ∨ cfgOn s (Reg.ENC_CFG_ZEN n.val) = false ∨ encType s n.val ≠ 1)) ∧
    (∃ (s : State) (n : Fin 8), domOn s dAUX = true ∧ cfgOn s (Reg.ENC_CFG_ZEN n.val) = true ∧ encType s n.val = 1 ∧ domOn s dNET = true) ∧
    (∃ (s : State) (n : Fin 8), domOn s dAUX = true ∧ cfgOn s (Reg.ENC_CFG_ZEN n.val) = true ∧ encType s n.val = 1 ∧ on s (Reg.ENC_STAT_ZARMED n.val) = false) ∧
    (∃ (s : State) (n : Fin 8), domOn s dAUX = true ∧ cfgOn s (Reg.ENC_CFG_ZEN n.val) = true ∧ encType s n.val = 1 ∧ on s (Reg.ENC_STAT_ZARMED n.val) = true) ∧
    (∃ (s : State) (n : Fin 8), (domOn s dAUX = false ∨ domOn s dNET = false ∨ encType s n.val = 0)) ∧
    (∃ (s : State) (n : Fin 8), domOn s dAUX = true ∧ domOn s dNET = true ∧ (encType s n.val = 1 ∨ encType s n.val = 2) ∧ (enc s n.val).bad = false ∧ on s (Reg.ENC_STAT_FAULT n.val) = false) ∧
    (∃ (s : State) (n : Fin 8), domOn s dAUX = true ∧ domOn s dNET = true ∧ (encType s n.val = 1 ∨ encType s n.val = 2) ∧ ((enc s n.val).bad = true ∨ on s (Reg.ENC_STAT_FAULT n.val) = true)) ∧
    (∃ (s : State) (n : Fin 8), domOn s dAUX = true ∧ domOn s dNET = true ∧ 3 ≤ encType s n.val) :=
  ⟨⟨live, 3, 0, 7, by decide +kernel⟩,
   ⟨{ live with ctl := [(0x91040, 1026)] }, 1, 4, 4, 1325, by decide +kernel, by decide +kernel, by decide +kernel, by decide +kernel⟩,
   ⟨{ live with ctl := [(0x93040, 1225)] }, 3, 3, 0, 1338, 0, by decide +kernel, by decide +kernel, by decide +kernel, by decide +kernel, by decide +kernel⟩,
   ⟨{ live with ctl := [(0x96040, 1226)] }, 6, 4, 2, 1375, by decide +kernel, by decide +kernel, by decide +kernel, by decide +kernel⟩,
   ⟨live, 5, by decide +kernel⟩,
   ⟨{ live with ctl := [(0x96040, 1225)] }, 6, by decide +kernel, by decide +kernel, by decide +kernel, by decide +kernel⟩,
   ⟨{ live with ctl := [(0x92040, 1985)] }, 2, by decide +kernel, by decide +kernel, by decide +kernel, by decide +kernel⟩,
   ⟨{ (regs live [(0x9206C, 102)]) with ctl := [(0x92040, 1097)] }, 2, by decide +kernel, by decide +kernel, by decide +kernel, by decide +kernel⟩,
   ⟨live, 3, by decide +kernel⟩,
   ⟨{ live with ctl := [(0x90040, 1098)] }, 0, by decide +kernel, by decide +kernel, by decide +kernel, by decide +kernel, by decide +kernel⟩,
   ⟨{ { live with ctl := [(0x95040, 1226)] } with encs := [(5, { bad := true, win := 0, isOpen := true, close0 := 43, n := 2, net := (3), t1 := 500, tn := 800, still := false, await := true, pClose := 55, goodClose := true, tw := (some 2829), at_ := 94, run := 1 })] }, 5, by decide +kernel, by decide +kernel, by decide +kernel, by decide +kernel⟩,
   ⟨{ live with ctl := [(0x91040, 1035)] }, 1, by decide +kernel, by decide +kernel, by decide +kernel⟩⟩

theorem witness_EncodersAndEmulation_2 :
    (∃ (s : State) (n : Fin 8), (domOn s dAUX = false ∨ (enc s n.val).await = false ∨ encType s n.val < 3)) ∧
    (∃ (s : State) (n : Fin 8) (w : SerialWord) (raw : Nat) (len : Nat), (len = cfg s (Reg.ENC_SCFG_LEN n.val)) ∧ (0 < len) ∧ (raw = if encType s n.val ≠ 4 ∧ cfgOn s (Reg.ENC_SCFG_GRAY n.val) = true then unGray len (w.pos.toNat % 2 ^ len) else w.pos.toNat % 2 ^ len) ∧ (domOn s dAUX = true) ∧ ((enc s n.val).await = true) ∧ (3 ≤ encType s n.val) ∧ (wordCause s (n.val) w ≠ 0)) ∧
    (∃ (s : State) (n : Fin 8) (w : SerialWord) (raw : Nat) (len : Nat), len = cfg s (Reg.ENC_SCFG_LEN n.val) ∧ 0 < len ∧ (raw = if encType s n.val ≠ 4 ∧ cfgOn s (Reg.ENC_SCFG_GRAY n.val) = true then unGray len (w.pos.toNat % 2 ^ len) else w.pos.toNat % 2 ^ len) ∧ domOn s dAUX = true ∧ (enc s n.val).await = true ∧ 3 ≤ encType s n.val ∧ wordCause s (n.val) w = 0 ∧ (enc s n.val).rPrev = none) ∧
    (∃ (s : State) (n : Fin 8) (w : SerialWord) (raw : Nat) (len : Nat) (p : Nat) (d : Int), (len = cfg s (Reg.ENC_SCFG_LEN n.val)) ∧ (0 < len) ∧ (raw = if encType s n.val ≠ 4 ∧ cfgOn s (Reg.ENC_SCFG_GRAY n.val) = true then unGray len (w.pos.toNat % 2 ^ len) else w.pos.toNat % 2 ^ len) ∧ (domOn s dAUX = true) ∧ ((enc s n.val).await = true) ∧ (3 ≤ encType s n.val) ∧ (wordCause s (n.val) w = 0) ∧ ((enc s n.val).rPrev = some p) ∧ ((d - (↑raw - ↑p)) % 2 ^ len = 0) ∧ (-2 ^ (len - 1) ≤ d) ∧ (d < 2 ^ (len - 1))) ∧
    (∃ (s : State), domOn s dNET = false) ∧
    (∃ (s : State) (n : Fin 8) (i : Nat), domOn s dNET = true ∧ (domOn s dAUX = false ∨ encType s n.val = 0) ∧ i < 7) ∧
    (∃ (s : State) (n : Fin 8), domOn s dNET = true ∧ domOn s dAUX = true ∧ encType s n.val ≠ 0 ∧ (enc s n.val).await = false) ∧
    (∃ (s : State) (n : Fin 8), domOn s dNET = true ∧ domOn s dAUX = true ∧ encType s n.val ≠ 0 ∧ (enc s n.val).await = true) ∧
    (∃ (s : State) (n : Fin 8), (domOn s dAUX = false ∨ on s (Reg.ENC_STAT_FAULT n.val) = true ∨ (enc s n.val).run < rd s (Reg.ENC_FAIL_FAIL_LIM n.val))) ∧
    (∃ (s : State) (n : Fin 8), domOn s dAUX = true ∧ on s (Reg.ENC_STAT_FAULT n.val) = false ∧ rd s (Reg.ENC_FAIL_FAIL_LIM n.val) ≤ (enc s n.val).run) ∧
    (∃ (s : State) (m : Master) (n : Fin 8) (w : W32), CanReach m s (Reg.ENC_CTRL n.val).addr ∧ wbits (Reg.ENC_CTRL_LOAD n.val) w = 0) ∧
    (∃ (s : State) (m : Master) (n : Fin 8) (w : W32), CanReach m s (Reg.ENC_CTRL n.val).addr ∧ wbits (Reg.ENC_CTRL_ZARM n.val) w = 0) :=
  ⟨⟨live, 3, by decide +kernel⟩,
   ⟨{ live with ctl := ctlRegs (sets (regs live [(0x93040, 1027), (0x93044, 8)]) [(Reg.ENC_SCFG_EBIT_EN 3, 1)]), encs := [(3, { await := true })] }, 3, { pos := 17592186044416, err := false, warn := false, crc := 28444, dly := 80 }, 0, 8, by decide +kernel, by decide +kernel, by decide +kernel, by decide +kernel, by decide +kernel, by decide +kernel, by decide +kernel⟩,
   ⟨{ { live with ctl := [(0x93040, 1027), (0x93044, 8)] } with encs := [(3, { win := 0, n := 2, t1 := 500, tn := 800, empty := 2, await := true, pClose := 55, goodClose := true, tw := (some 1963), at_ := 71, run := 2 })] }, 3, { pos := 17592186044416, err := false, warn := false, crc := 28444, dly := 80 }, 0, 8, by decide +kernel, by decide +kernel, by decide +kernel, by decide +kernel, by decide +kernel, by decide +kernel, by decide +kernel, by decide +kernel⟩,
   ⟨{ { live with ctl := [(0x93040, 1027), (0x93044, 8)] } with encs := [(3, { win := 0, rPrev := some 5, n := 2, t1 := 500, tn := 800, empty := 2, await := true, pClose := 55, goodClose := true, tw := (some 1963), at_ := 71, run := 2 })] }, 3, { pos := 17592186044416, err := false, warn := false, crc := 28444, dly := 80 }, 0, 8, 5, (-5), by decide +kernel, by decide +kernel, by decide +kernel, by decide +kernel, by decide +kernel, by decide +kernel, by decide +kernel, by decide +kernel, by decide +kernel, by decide +kernel, by decide +kernel⟩,
   ⟨(setDom live 9 { }), by decide +kernel⟩,
   ⟨live, 2, 2, by decide +kernel, by decide +kernel, by decide +kernel⟩,
   ⟨{ live with ctl := [(0x92040, 13)] }, 2, by decide +kernel, by decide +kernel, by decide +kernel, by decide +kernel⟩,
   ⟨{ { live with ctl := [(0x94040, 74)] } with encs := [(4, { win := 0, isOpen := true, close0 := 379, n := 2, net := (3), t1 := 500, tn := 800, rev := true, still := false, empty := 1, rep := 3238002688, await := true, pClose := 55, at_ := 47 })] }, 4, by decide +kernel, by decide +kernel, by decide +kernel, by decide +kernel⟩,
   ⟨live, 3, by decide +kernel⟩,
   ⟨(regs live [(0x9105C, 0)]), 1, by decide +kernel, by decide +kernel, by decide +kernel⟩,
   ⟨live, .host, 4, 3, by unfold CanReach; decide +kernel, by decide +kernel⟩,
   ⟨live, .steward0, 6, 5, by unfold CanReach; decide +kernel, by decide +kernel⟩⟩

theorem witness_EncodersAndEmulation_3 :
    (∃ (s : State) (m : Master) (n : Fin 8) (w : W32), CanReach m s (Reg.ENC_CTRL n.val).addr ∧ wbits (Reg.ENC_CTRL_CLR n.val) w = 0) ∧
    (∃ (s : State) (m : Master) (n : Fin 8) (w : W32), CanReach m s (Reg.ENC_CTRL n.val).addr ∧ wbits (Reg.ENC_CTRL_LOAD n.val) w = 1) ∧
    (∃ (s : State) (m : Master) (n : Fin 8) (w : W32), CanReach m s (Reg.ENC_CTRL n.val).addr ∧ wbits (Reg.ENC_CTRL_ZARM n.val) w = 1) ∧
    (∃ (s : State) (m : Master) (n : Fin 8) (w : W32), CanReach m s (Reg.ENC_CTRL n.val).addr ∧ wbits (Reg.ENC_CTRL_CLR n.val) w = 1) ∧
    (∃ (s : State) (k : Fin 2), on s (Reg.AO_TRK_CTL_ACTIVE k.val) = false) ∧
    (∃ (s : State) (k : Fin 2), on s (Reg.AO_TRK_CTL_ACTIVE k.val) = true ∧ (tget (fun x => 4) s.ao.trkAB k.val = 4)) ∧
    (∃ (s : State) (k : Fin 2) (a : Bool) (b : Bool), on s (Reg.AO_TRK_CTL_ACTIVE k.val) = true ∧ (tget (fun x => 4) s.ao.trkAB k.val ≠ 4) ∧ ((tget (fun x => 4) s.ao.trkAB k.val, b2n a + 2 * b2n b) ∈ [(0, 1), (1, 3), (3, 2), (2, 0)])) ∧
    (∃ (s : State) (k : Fin 2) (a : Bool) (b : Bool), on s (Reg.AO_TRK_CTL_ACTIVE k.val) = true ∧ (tget (fun x => 4) s.ao.trkAB k.val ≠ 4) ∧ ((b2n a + 2 * b2n b, tget (fun x => 4) s.ao.trkAB k.val) ∈ [(0, 1), (1, 3), (3, 2), (2, 0)])) ∧
    (∃ (s : State) (k : Fin 2) (a : Bool) (b : Bool), on s (Reg.AO_TRK_CTL_ACTIVE k.val) = true ∧ (tget (fun x => 4) s.ao.trkAB k.val ≠ 4) ∧ (tget (fun x => 4) s.ao.trkAB k.val ≠ b2n a + 2 * b2n b) ∧ ((tget (fun x => 4) s.ao.trkAB k.val, b2n a + 2 * b2n b) ∉ [(0, 1), (1, 3), (3, 2), (2, 0)]) ∧ ((b2n a + 2 * b2n b, tget (fun x => 4) s.ao.trkAB k.val) ∉ [(0, 1), (1, 3), (3, 2), (2, 0)])) ∧
    (∃ (s : State) (m : Fin 4), (domOn s dAUX = false ∨ domOn s dNET = false ∨ on s (Reg.EMU_CFG_EN m.val) = false ∨ (emu s m.val).cur = none)) ∧
    (∃ (s : State) (m : Fin 4) (c : EmuPlan), (emu s m.val).cur = some c ∧ c.left = 0) ∧
    (∃ (s : State) (m : Fin 4) (c : EmuPlan) (j : Nat), (emu s m.val).cur = some c ∧ domOn s dAUX = true ∧ domOn s dNET = true ∧ on s (Reg.EMU_CFG_EN m.val) = true ∧ c.left ≠ 0 ∧ j ≠ m.val) :=
  ⟨⟨live, .host, 3, 4, by unfold CanReach; decide +kernel, by decide +kernel⟩,
   ⟨live, .receive, 5, 7, by unfold CanReach; decide +kernel, by decide +kernel⟩,
   ⟨live, .host, 0, 3, by unfold CanReach; decide +kernel, by decide +kernel⟩,
   ⟨live, .host, 5, 7, by unfold CanReach; decide +kernel, by decide +kernel⟩,
   ⟨live, 0, by decide +kernel⟩,
   ⟨(regs live [(0x2070, 1)]), 1, by decide +kernel, by decide +kernel⟩,
   ⟨{ (regs live [(0x2064, 1)]) with ao := { trkAB := [(0x0, 2)] } }, 0, false, false, by decide +kernel, by decide +kernel, by decide +kernel⟩,
   ⟨{ (regs live [(0x2064, 1)]) with ao := { trkAB := [(0x0, 0)] } }, 0, false, true, by decide +kernel, by decide +kernel, by decide +kernel⟩,
   ⟨{ (regs live [(0x2070, 1)]) with ao := { trkAB := [(0x1, 2)] } }, 1, true, false, by decide +kernel, by decide +kernel, by decide +kernel, by decide +kernel, by decide +kernel⟩,
   ⟨live, 2, by decide +kernel⟩,
   ⟨{ live with emus := [(2, { num := 0, cur := (some { target := (10), up := false, size := 0 }) })] }, 2, { target := (10), up := false, size := 0 }, by decide +kernel, by decide +kernel⟩,
   ⟨{ (regs live [(0x98080, 1)]) with emus := [(2, { num := 0, cur := (some { target := (10), head := (some 2), size := 2, left := 1 }) })] }, 2, { target := (10), head := (some 2), size := 2, left := 1 }, 765681160864, by decide +kernel, by decide +kernel, by decide +kernel, by decide +kernel, by decide +kernel, by decide +kernel⟩⟩

theorem witness_FieldOutputsAndTheirDiagnostics_1 :
    (∃ (s : State) (k : Fin 16), (domOn s dFIELD = false ∨ (fun t k => t.field.drive.getLsbD k) s k.val = false ∨ on s (diagBit (k.val) 0) = true)) ∧
    (∃ (s : State) (k : Fin 16), domOn s dFIELD = true ∧ ((fun t k => t.field.drive.getLsbD k) s k.val = true) ∧ on s (diagBit (k.val) 0) = false) ∧
    (∃ (s : State) (k : Fin 16), domOn s dFIELD = true ∧ on s (diagBit (k.val) 1) = false) ∧
    (∃ (s : State) (k : Fin 16), (domOn s dFIELD = false ∨ on s (diagBit (k.val) 1) = true)) ∧
    (∃ (s : State) (k : Fin 16) (en : Fld), (en = if (fun t k => t.field.drive.getLsbD k) s k.val = true then Reg.FIO_OUTCFG_OWON_EN k.val else Reg.FIO_OUTCFG_OWOFF_EN k.val) ∧ (on s en = false ∨ domOn s dFIELD = false ∨ on s (diagBit (k.val) 2) = true)) ∧
    (∃ (s : State) (k : Fin 16) (en : Fld), (en = if (fun t k => t.field.drive.getLsbD k) s k.val = true then Reg.FIO_OUTCFG_OWON_EN k.val else Reg.FIO_OUTCFG_OWOFF_EN k.val) ∧ (on s en = true) ∧ (domOn s dFIELD = true) ∧ (on s (diagBit (k.val) 2) = false)) ∧
    (∃ (s : State) (k : Fin 16), ((fun t k => t.field.drive.getLsbD k) s k.val = true ∨ domOn s dFIELD = false ∨ on s (diagBit (k.val) 3) = true)) ∧
    (∃ (s : State) (k : Fin 16), ((fun t k => t.field.drive.getLsbD k) s k.val = false) ∧ domOn s dFIELD = true ∧ on s (diagBit (k.val) 3) = false) ∧
    (∃ (s : State) (k : Fin 16) (j : Fin 16), ((fun t k => t.field.drive.getLsbD k) s k.val = false) ∧ domOn s dFIELD = true ∧ on s (diagBit (k.val) 3) = false ∧ on s (Reg.FIO_OUTCFG_REACT k.val) = true ∧ rd s (Reg.FIO_OUTCFG_PGRP j.val) = rd s (Reg.FIO_OUTCFG_PGRP k.val) ∧ rd s (Reg.FIO_OUTCFG_SAFE j.val) = 0) ∧
    (∃ (s : State) (g : Fin 2), (domOn s dFIELD = false ∨ on s (govl g.val) = true)) ∧
    (∃ (s : State), domOn s dFIELD = false) ∧
    (∃ (s : State) (g : Fin 2) (k : Fin 16), domOn s dFIELD = true ∧ on s (govl g.val) = false ∧ k.val / 8 = g.val) :=
  ⟨⟨live, 11, by decide +kernel⟩,
   ⟨{ live with field := { drive := 1657, safe := 16384, hold := 27984, held := false } }, 10, by decide +kernel, by decide +kernel, by decide +kernel⟩,
   ⟨live, 2, by decide +kernel, by decide +kernel⟩,
   ⟨(setDom live 1 { }), 9, by decide +kernel⟩,
   ⟨live, 2, _, rfl, by decide +kernel⟩,
   ⟨sets { live with field := { drive := 4 } } [(Reg.FIO_OUTCFG_OWON_EN 2, 1)], 2, _, rfl, by decide +kernel, by decide +kernel, by decide +kernel⟩,
   ⟨{ live with field := { drive := 64, held := false } }, 6, by decide +kernel⟩,
   ⟨live, 13, by decide +kernel, by decide +kernel, by decide +kernel⟩,
   ⟨(regs live [(0xA008C, 332808)]), 15, 15, by decide +kernel, by decide +kernel, by decide +kernel, by decide +kernel, by decide +kernel, by decide +kernel⟩,
   ⟨(regs live [(0xA00A4, 32)]), 1, by decide +kernel⟩,
   ⟨(setDom live 1 { }), by decide +kernel⟩,
   ⟨live, 1, 10, by decide +kernel, by decide +kernel, by decide +kernel⟩⟩

theorem witness_FieldOutputsAndTheirDiagnostics_2 :
    (∃ (s : State) (g : Fin 2) (k : Fin 16), domOn s dFIELD = true ∧ k.val / 8 = g.val) ∧
    (∃ (s : State) (m : Master) (r : Fin 3) (k : Nat), (k = if r = 2 then 655524 else 655516 + 4 * r.val) ∧ CanReach m s k) ∧
    (∃ (s : State) (m : Master) (r : Fin 3) (k : Nat) (i : Nat), (k = if r = 2 then 655524 else 655516 + 4 * r.val) ∧ CanReach m s k ∧ i < 32 ∧ (r = 2 → 2 ≤ i ∧ i ≤ 5)) ∧
    (∃ (s : State), chanOn s true = true) ∧
    (∃ (s : State), (domOn s dFIELD = false ∨ on s Reg.FIO_WD_TRIPPED = true)) ∧
    (∃ (s : State), domOn s dFIELD = true ∧ on s Reg.FIO_WD_TRIPPED = false) ∧
    (∃ (s : State) (m : Master) (w : W32), CanReach m s Reg.FIO_WD_TWD.addr ∧ (bitOf 9 (BitVec.toNat w) = false ∨ s.field.fresh = true ∧ s.field.held = false ∧ on s Reg.FIO_WD_TRIPPED = false)) ∧
    (∃ (s : State) (m : Master) (w : W32), CanReach m s Reg.FIO_WD_TWD.addr ∧ bitOf 9 (BitVec.toNat w) = true ∧ (s.field.fresh = false ∨ s.field.held = true)) ∧
    (∃ (s : State) (m : Master) (w : W32), CanReach m s Reg.FIO_WD_TWD.addr ∧ bitOf 9 (BitVec.toNat w) = true ∧ s.field.fresh = true ∧ s.field.held = false ∧ on s Reg.FIO_WD_TRIPPED = true) :=
  ⟨⟨live, 0, 4, by decide +kernel, by decide +kernel⟩,
   ⟨live, .host, 0, 655516, by decide +kernel, by unfold CanReach; decide +kernel⟩,
   ⟨live, .host, 1, 655520, 1, by decide +kernel, by unfold CanReach; decide +kernel, by decide +kernel, by decide +kernel⟩,
   ⟨live, by decide +kernel⟩,
   ⟨live, by decide +kernel⟩,
   ⟨(regs live [(0xA0094, 10)]), by decide +kernel, by decide +kernel⟩,
   ⟨live, .snapshot, 2, by unfold CanReach; decide +kernel, by decide +kernel⟩,
   ⟨live, .steward1, 1023, by unfold CanReach; decide +kernel, by decide +kernel, by decide +kernel⟩,
   ⟨{ live with field := { fresh := true, held := false } }, .snapshot, 1023, by unfold CanReach; decide +kernel, by decide +kernel, by decide +kernel, by decide +kernel, by decide +kernel⟩⟩

theorem witness_CisternFloatsSnapshotsAndDma_1 :
    (∃ (s : State) (m : Master) (w : W32), CanReach m s Reg.CIST_CAS.addr ∧ wbits Reg.CIST_CAS_NEW w = 2 ∧ roleBars s m = true) ∧
    (∃ (s : State) (m : Master) (w : W32) (n : Master) (k : Nat), CanReach m s Reg.CIST_CAS.addr ∧ (wbits Reg.CIST_CAS_NEW w ≠ 2 ∨ roleBars s m = false) ∧ k < 2 ^ 24 ∧ (n ≠ m ∨ k ≠ Reg.CIST_CAS_RES.addr)) ∧
    (∃ (s : State) (r : CasReq) (l : List CasReq) (b : Nat) (ok : Bool), (s.casPend = r :: l) ∧ (b = bits 14 0 (BitVec.toNat r.w)) ∧ (ok = (decide (bits 29 28 (BitVec.toNat r.w) = flt s b) && (decide (ownerClass r.m = flt s b) || decide (flt s b = 0)) && !inAxisArea s b && !(blk s b).excl && !s.pair.passes.any fun q => q.blk == b)) ∧ (bits 31 30 (BitVec.toNat r.w) ≠ 3) ∧ (ok = true) ∧ (bits 31 30 (BitVec.toNat r.w) = 2) ∧ (mirrors s = true)) ∧
    (∃ (s : State) (r : CasReq) (l : List CasReq) (b : Nat) (ok : Bool) (c : Nat), s.casPend = r :: l ∧ b = bits 14 0 (BitVec.toNat r.w) ∧ (ok = (decide (bits 29 28 (BitVec.toNat r.w) = flt s b) && (decide (ownerClass r.m = flt s b) || decide (flt s b = 0)) && !inAxisArea s b && !(blk s b).excl && !s.pair.passes.any fun q => q.blk == b)) ∧ bits 31 30 (BitVec.toNat r.w) ≠ 3 ∧ ok = true ∧ (bits 31 30 (BitVec.toNat r.w) ≠ 2 ∨ mirrors s = false) ∧ c ≠ b) ∧
    (∃ (s : State) (r : CasReq) (l : List CasReq) (b : Nat) (ok : Bool), s.casPend = r :: l ∧ b = bits 14 0 (BitVec.toNat r.w) ∧ (ok = (decide (bits 29 28 (BitVec.toNat r.w) = flt s b) && (decide (ownerClass r.m = flt s b) || decide (flt s b = 0)) && !inAxisArea s b && !(blk s b).excl && !s.pair.passes.any fun q => q.blk == b)) ∧ bits 31 30 (BitVec.toNat r.w) ≠ 3 ∧ ok = false) ∧
    (∃ (s : State) (a : CasReq) (b : CasReq), s.casPend = [a, b] ∧ bits 31 30 (BitVec.toNat a.w) ≠ 3 ∧ bits 31 30 (BitVec.toNat b.w) ≠ 3) ∧
    (∃ (s : State) (m : Master) (w : BitVec 21), domOn s dCIST = true ∧ ((blk s (w.toNat / 64)).priv = false ∨ flt s (w.toNat / 64) = ownerClass m)) ∧
    (∃ (s : State) (m : Master) (w : BitVec 21) (a : Nat), domOn s dCIST = true ∧ (blk s (w.toNat / 64)).priv = true ∧ flt s (w.toNat / 64) ≠ ownerClass m ∧ 536870912 ≤ a ∧ a < 545259520) ∧
    (∃ (s : State) (m : Master) (w : BitVec 21), domOn s dCIST = true ∧ flt s (w.toNat / 64) = ownerClass m ∧ flt s (w.toNat / 64) ≠ 0) ∧
    (∃ (s : State) (m : Master) (w : BitVec 21) (a : Nat), domOn s dCIST = true ∧ (flt s (w.toNat / 64) ≠ ownerClass m ∨ flt s (w.toNat / 64) = 0) ∧ 536870912 ≤ a ∧ a < 545259520) ∧
    (∃ (s : State) (m : Master) (w : W32), CanReach m s Reg.CIST_SNAP_CMD.addr ∧ wbits Reg.CIST_SNAP_CMD_GO w = 0) ∧
    (∃ (s : State) (m : Master) (w : W32), CanReach m s Reg.CIST_SNAP_CMD.addr ∧ wbits Reg.CIST_SNAP_CMD_GO w = 1 ∧ on s Reg.CIST_SNAP_CMD_BUSY = true) :=
  ⟨⟨(regs live [(0x7D050, 2)]), .host, 2582056418, by unfold CanReach; decide +kernel, by decide +kernel, by decide +kernel⟩,
   ⟨live, .dmaEngine, 0, .dmaEngine, 4, by unfold CanReach; decide +kernel, by decide +kernel, by decide +kernel, by decide +kernel⟩,
   ⟨{ sets live [(Reg.PEER_STAT_ROLE, rACTIVE), (Reg.PEER_STAT_LANE0, 1)] with pair := { peerRole := rSTANDBY }, casPend := [{ m := .host, w := BitVec.ofNat 32 (2 * 2 ^ 30 + 1 * 2 ^ 28) }], cist := [(0, { flt := 1 })] }, { m := .host, w := BitVec.ofNat 32 (2 * 2 ^ 30 + 1 * 2 ^ 28) }, [], 0, true, by decide +kernel, by decide +kernel, by decide +kernel, by decide +kernel, by decide +kernel, by decide +kernel, by decide +kernel⟩,
   ⟨{ live with casPend := [{ m := .acq, w := 0 }] }, { m := .acq, w := 0 }, [], 0, true, 542874447, by decide +kernel, by decide +kernel, by decide +kernel, by decide +kernel, by decide +kernel, by decide +kernel, by decide +kernel⟩,
   ⟨{ live with casPend := [{ m := .steward0, w := 503316084 }] }, { m := .steward0, w := 503316084 }, [], 32372, false, by decide +kernel, by decide +kernel, by decide +kernel, by decide +kernel, by decide +kernel⟩,
   ⟨{ live with casPend := [{ m := .transmit, w := 0 }, { m := .steward1, w := 0 }] }, { m := .transmit, w := 0 }, { m := .steward1, w := 0 }, by decide +kernel, by decide +kernel, by decide +kernel⟩,
   ⟨live, .host, 352, by decide +kernel, by decide +kernel⟩,
   ⟨{ live with cist := [(2, { flt := 1, priv := true })] }, .snapshot, 156, 538871387, by decide +kernel, by decide +kernel, by decide +kernel, by decide +kernel, by decide +kernel⟩,
   ⟨{ live with cist := [(3, { flt := 2 })] }, .steward1, 210, by decide +kernel, by decide +kernel, by decide +kernel⟩,
   ⟨live, (.cluDma 3), 92, 538873449, by decide +kernel, by decide +kernel, by decide +kernel, by decide +kernel⟩,
   ⟨live, (.cluDma 3), 18, by unfold CanReach; decide +kernel, by decide +kernel⟩,
   ⟨(regs live [(0xB0064, 2)]), .receive, 268435463, by unfold CanReach; decide +kernel, by decide +kernel, by decide +kernel⟩⟩

theorem witness_CisternFloatsSnapshotsAndDma_2 :
    (∃ (s : State) (m : Master) (w : W32), CanReach m s Reg.CIST_SNAP_CMD.addr ∧ wbits Reg.CIST_SNAP_CMD_GO w = 1 ∧ on s Reg.CIST_SNAP_CMD_BUSY = false ∧ (rd s Reg.CIST_SNAP_N_COUNT = 0 ∨ 1048576 < rd s Reg.CIST_SNAP_N_COUNT ∨ 1048576 < rd s Reg.CIST_SNAP_PT_POINT + rd s Reg.CIST_SNAP_N_COUNT ∨ 32768 < rd s Reg.CIST_SNAP_DST_BLOCK + (16 * ((rd s Reg.CIST_SNAP_N_COUNT + 2047) / 2048) + 12 * rd s Reg.CIST_SNAP_N_COUNT + 255) / 256 ∨ ¬∀ i < (16 * ((rd s Reg.CIST_SNAP_N_COUNT + 2047) / 2048) + 12 * rd s Reg.CIST_SNAP_N_COUNT + 255) / 256, flt s (rd s Reg.CIST_SNAP_DST_BLOCK + i) = ownerClass m)) ∧
    (∃ (s : State) (m : Master) (w : W32), (CanReach m s Reg.CIST_SNAP_CMD.addr) ∧ (wbits Reg.CIST_SNAP_CMD_GO w = 1) ∧ (on s Reg.CIST_SNAP_CMD_BUSY = false) ∧ (¬(rd s Reg.CIST_SNAP_N_COUNT = 0 ∨ 1048576 < rd s Reg.CIST_SNAP_N_COUNT ∨ 1048576 < rd s Reg.CIST_SNAP_PT_POINT + rd s Reg.CIST_SNAP_N_COUNT ∨ 32768 < rd s Reg.CIST_SNAP_DST_BLOCK + (16 * ((rd s Reg.CIST_SNAP_N_COUNT + 2047) / 2048) + 12 * rd s Reg.CIST_SNAP_N_COUNT + 255) / 256 ∨ ¬∀ i < (16 * ((rd s Reg.CIST_SNAP_N_COUNT + 2047) / 2048) + 12 * rd s Reg.CIST_SNAP_N_COUNT + 255) / 256, flt s (rd s Reg.CIST_SNAP_DST_BLOCK + i) = ownerClass m))) ∧
    (∃ (s : State), (s.snapRun = none ∨ s.snapLatch = [] ∨ domOn s dCIST = false ∨ domOn s dNET = false)) ∧
    (∃ (s : State) (x : SnapRun) (n : Nat) (i : Nat) (p : Nat) (v : Nat) (st : Nat), (s.snapRun = some x) ∧ (s.snapLatch ≠ []) ∧ (domOn s dCIST = true) ∧ (domOn s dNET = true) ∧ (n = s.snapLatch.length) ∧ (x.dst % 4 = 0) ∧ (x.dst + 16 + 12 * n ≤ 8388608) ∧ (ownerClass x.m ≠ 0) ∧ (∀ (b : Nat), x.dst / 256 ≤ b → 256 * b < x.dst + 16 + 12 * n → flt s b = ownerClass x.m) ∧ (s.snapLatch[i]? = some (p, v, st))) ∧
    (∃ (s : State) (x : SnapRun) (n : Nat), (s.snapRun = some x) ∧ (s.snapLatch ≠ []) ∧ (domOn s dCIST = true) ∧ (domOn s dNET = true) ∧ (n = s.snapLatch.length) ∧ (x.dst % 4 = 0) ∧ (x.dst + 16 + 12 * n ≤ 8388608) ∧ (ownerClass x.m ≠ 0) ∧ (∀ (b : Nat), x.dst / 256 ≤ b → 256 * b < x.dst + 16 + 12 * n → flt s b = ownerClass x.m) ∧ (x.left ≤ n)) ∧
    (∃ (s : State) (x : SnapRun) (n : Nat), (s.snapRun = some x) ∧ (s.snapLatch ≠ []) ∧ (domOn s dCIST = true) ∧ (domOn s dNET = true) ∧ (n = s.snapLatch.length) ∧ (x.dst % 4 = 0) ∧ (x.dst + 16 + 12 * n ≤ 8388608) ∧ (ownerClass x.m ≠ 0) ∧ (∀ (b : Nat), x.dst / 256 ≤ b → 256 * b < x.dst + 16 + 12 * n → flt s b = ownerClass x.m) ∧ (n < x.left)) ∧
    (∃ (s : State) (m : Master) (c : Fin 8) (w : W32), CanReach m s (Reg.HOST_DMA_CTRL c.val).addr ∧ wbits (Reg.HOST_DMA_CTRL_GO c.val) w = 0) ∧
    (∃ (s : State) (m : Master) (c : Fin 8) (w : W32), CanReach m s (Reg.HOST_DMA_CTRL c.val).addr ∧ wbits (Reg.HOST_DMA_CTRL_GO c.val) w = 1 ∧ on s (Reg.HOST_DMA_STAT_BUSY c.val) = true) ∧
    (∃ (s : State) (m : Master) (c : Fin 8) (w : W32), CanReach m s (Reg.HOST_DMA_CTRL c.val).addr ∧ wbits (Reg.HOST_DMA_CTRL_GO c.val) w = 1 ∧ on s (Reg.HOST_DMA_STAT_BUSY c.val) = false) ∧
    (∃ (s : State) (m : Master) (c : Fin 8) (w : W32), CanReach m s (Reg.HOST_DMA_CTRL c.val).addr ∧ (wbits (Reg.HOST_DMA_CTRL_STOP c.val) w = 0 ∨ on s (Reg.HOST_DMA_STAT_BUSY c.val) = false)) ∧
    (∃ (s : State) (m : Master) (c : Fin 8) (w : W32) (n : Nat), CanReach m s (Reg.HOST_DMA_CTRL c.val).addr ∧ wbits (Reg.HOST_DMA_CTRL_STOP c.val) w = 1 ∧ on s (Reg.HOST_DMA_STAT_BUSY c.val) = true ∧ n = 0) ∧
    (∃ (s : State) (c : Fin 8), (domOn s dHOST = false ∨ on s (Reg.HOST_DMA_STAT_BUSY c.val) = false)) :=
  ⟨⟨live, .receive, 3, by unfold CanReach; decide +kernel, by decide +kernel, by decide +kernel, by decide +kernel⟩,
   ⟨sets { live with cist := [(0, { flt := 1 })] } [(Reg.CIST_SNAP_N_COUNT, 2)], .host, 1, by unfold CanReach; decide +kernel, by decide +kernel, by decide +kernel, by refine fun h => absurd h ?_; decide +kernel⟩,
   ⟨live, by decide +kernel⟩,
   ⟨{ live with cist := [(3, { flt := 2 })], snapRun := (some { m := .device, pt := 0, left := 0, dst := 788, cyc := 0 }), snapLatch := [(5, (0, 0)), (6, (1234567, 0))] }, { m := .device, pt := 0, left := 0, dst := 788, cyc := 0 }, 2, 1, 6, 1234567, 0, by decide +kernel, by decide +kernel, by decide +kernel, by decide +kernel, by decide +kernel, by decide +kernel, by decide +kernel, by decide +kernel, fun b h1 h2 => by (dsimp only at h1 h2; have h : b = 3 := (by omega); subst h; decide +kernel), by decide +kernel⟩,
   ⟨{ live with cist := [(0, { flt := 1 })], snapRun := (some { m := .dmaEngine, pt := 0, left := 0, dst := 0, cyc := 0 }), snapLatch := [(6, (1234567, 0))] }, { m := .dmaEngine, pt := 0, left := 0, dst := 0, cyc := 0 }, 1, by decide +kernel, by decide +kernel, by decide +kernel, by decide +kernel, by decide +kernel, by decide +kernel, by decide +kernel, by decide +kernel, fun b h1 h2 => by (dsimp only at h1 h2; have h : b = 0 := (by omega); subst h; decide +kernel), by decide +kernel⟩,
   ⟨{ live with cist := [(3, { flt := 2 })], snapRun := (some { m := (.cluDma 3), pt := 0, left := 3, dst := 812, cyc := 0 }), snapLatch := [(6, (1234567, 0))] }, { m := (.cluDma 3), pt := 0, left := 3, dst := 812, cyc := 0 }, 1, by decide +kernel, by decide +kernel, by decide +kernel, by decide +kernel, by decide +kernel, by decide +kernel, by decide +kernel, by decide +kernel, fun b h1 h2 => by (dsimp only at h1 h2; have h : b = 3 := (by omega); subst h; decide +kernel), by decide +kernel⟩,
   ⟨live, .transmit, 1, 536870912, by unfold CanReach; decide +kernel, by decide +kernel⟩,
   ⟨(regs live [(0xB110C, 1)]), .acq, 0, 13, by unfold CanReach; decide +kernel, by decide +kernel, by decide +kernel⟩,
   ⟨live, .steward1, 0, 1, by unfold CanReach; decide +kernel, by decide +kernel, by decide +kernel⟩,
   ⟨live, .acq, 1, 3, by unfold CanReach; decide +kernel, by decide +kernel⟩,
   ⟨(regs live [(0xB110C, 1)]), .acq, 0, 2, 0, by unfold CanReach; decide +kernel, by decide +kernel, by decide +kernel, by decide +kernel⟩,
   ⟨live, 1, by decide +kernel⟩⟩

theorem witness_CisternFloatsSnapshotsAndDma_3 :
    (∃ (s : State) (c : Fin 8) (d : DmaDesc) (data : List Byte) (pcie : Bool), domOn s dHOST = true ∧ on s (Reg.HOST_DMA_STAT_BUSY c.val) = true ∧ ((moveDesc s (c.val) d data (if pcie = true ∨ (tget (fun _ => ({} : DmaCh)) s.dma c.val).stop = true ∨ bitOf 24 (BitVec.toNat d.word3) = false then min (bits 23 0 (BitVec.toNat d.word3) / 4) (data.length / 4) else bits 23 0 (BitVec.toNat d.word3) / 4)).2 = true ∨ pcie = true)) ∧
    (∃ (s : State) (c : Fin 8) (d : DmaDesc) (data : List Byte) (pcie : Bool), domOn s dHOST = true ∧ on s (Reg.HOST_DMA_STAT_BUSY c.val) = true ∧ ((moveDesc s (c.val) d data (if pcie = true ∨ (tget (fun _ => ({} : DmaCh)) s.dma c.val).stop = true ∨ bitOf 24 (BitVec.toNat d.word3) = false then min (bits 23 0 (BitVec.toNat d.word3) / 4) (data.length / 4) else bits 23 0 (BitVec.toNat d.word3) / 4)).2 = false) ∧ pcie = false ∧ ((tget (fun _ => ({} : DmaCh)) s.dma c.val).stop = false) ∧ bitOf 26 (BitVec.toNat d.word3) = true) ∧
    (∃ (s : State) (c : Fin 8) (d : DmaDesc) (data : List Byte) (pcie : Bool), domOn s dHOST = true ∧ on s (Reg.HOST_DMA_STAT_BUSY c.val) = true ∧ ((moveDesc s (c.val) d data (if pcie = true ∨ (tget (fun _ => ({} : DmaCh)) s.dma c.val).stop = true ∨ bitOf 24 (BitVec.toNat d.word3) = false then min (bits 23 0 (BitVec.toNat d.word3) / 4) (data.length / 4) else bits 23 0 (BitVec.toNat d.word3) / 4)).2 = false) ∧ pcie = false ∧ ((tget (fun _ => ({} : DmaCh)) s.dma c.val).stop = false) ∧ bitOf 26 (BitVec.toNat d.word3) = false) ∧
    (∃ (s : State) (d : DmaDesc) (data : List Byte) (n : Nat) (i : Nat), data.length = 4 * n ∧ bits 23 0 (BitVec.toNat d.word3) = 4 * n ∧ bitOf 24 (BitVec.toNat d.word3) = false ∧ domOn s dCIST = true ∧ 536870912 ≤ BitVec.toNat d.intAddr ∧ BitVec.toNat d.intAddr % 4 = 0 ∧ BitVec.toNat d.intAddr + 4 * n ≤ 545259520 ∧ (∀ (a : Nat), BitVec.toNat d.intAddr ≤ a → a < BitVec.toNat d.intAddr + 4 * n → flt s ((a - 536870912) / 256) = 1) ∧ i < data.length) ∧
    (∃ (s : State) (e : EccMem), domOn s (EccMem.dom e) = false) ∧
    (∃ (s : State) (e : EccMem) (double : Bool), domOn s (EccMem.dom e) = true ∧ double = false) ∧
    (∃ (s : State) (work : Bool), domOn s dNET = true ∧ (work = false ∨ role s ≠ rACTIVE)) ∧
    (∃ (s : State) (e : Fin 64) (r : Bool), domOn s (dCLU (e.val / 16)) = true ∧ (r = false ∨ (eng s e.val).ph ≠ Phase.running)) ∧
    (∃ (s : State) (e : Fin 64) (r : Bool), (domOn s (dCLU (e.val / 16)) = true) ∧ (r = true) ∧ ((eng s e.val).ph = Phase.running)) ∧
    (∃ (s : State) (c : Fin 4) (m : Option (Fin 64)), domOn s (dCLU c.val) = true ∧ (∀ (x : Fin 64), m = some x → (eng s ↑x).ph ≠ Phase.running)) ∧
    (∃ (s : State) (c : Fin 4) (m : Option (Fin 64)) (x : Fin 64), (domOn s (dCLU c.val) = true) ∧ (m = some x) ∧ ((eng s x.val).ph = Phase.running)) ∧
    (∃ (s : State) (a : Nat), domOn s dCIST = true ∧ 536870912 ≤ a ∧ a < 545259520) :=
  ⟨⟨(regs live [(0xB110C, 1)]), 0, { hostAddr := 0, intAddr := 805306368, word3 := 50331680, next := 0 }, [3, 14, 253, 49, 228, 168, 131, 245, 170, 194, 95, 144, 70, 10, 20, 8], true, by decide +kernel, by decide +kernel, by decide +kernel⟩,
   ⟨(regs live [(0xB112C, 1)]), 1, { hostAddr := 0, intAddr := 536871168, word3 := 83886088, next := 18446744073709551612 }, [145, 139, 67, 200, 224, 43, 135, 23, 54, 164, 159, 149, 247, 226, 95, 165, 237, 246, 15, 22, 52, 241, 173, 112, 106, 82, 148, 83, 34, 108, 174, 42], false, by decide +kernel, by decide +kernel, by decide +kernel, by decide +kernel, by decide +kernel, by decide +kernel⟩,
   ⟨(regs live [(0xB112C, 1)]), 1, { hostAddr := 18446744073709551608, intAddr := 536871168, word3 := 50331680, next := 268435456 }, [159, 228, 178, 165], false, by decide +kernel, by decide +kernel, by decide +kernel, by decide +kernel, by decide +kernel, by decide +kernel⟩,
   ⟨{ live with cist := [(1, { flt := 1 })] }, { hostAddr := 10922323677031320640, intAddr := 536871408, word3 := 33554440, next := 3010306112099131867 }, [55, 106, 62, 233, 6, 6, 41, 146], 2, 2, by decide +kernel, by decide +kernel, by decide +kernel, by decide +kernel, by decide +kernel, by decide +kernel, by decide +kernel, by decide +kernel, by decide +kernel⟩,
   ⟨(setDom live 8 { }), (.clusterMem 3 none), by decide +kernel⟩,
   ⟨live, (.cistern 1430511 (some .acq)), false, by decide +kernel, by decide +kernel⟩,
   ⟨live, true, by decide +kernel, by decide +kernel⟩,
   ⟨live, 18, true, by decide +kernel, by decide +kernel⟩,
   ⟨{ live with engs := [(0, { ph := .running })] }, 0, true, by decide +kernel, by decide +kernel, by decide +kernel⟩,
   ⟨live, 2, (some 0), by decide +kernel, by decide +kernel⟩,
   ⟨{ live with engs := [(0, { ph := .running })] }, 0, some 0, 0, by decide +kernel, by decide +kernel, by decide +kernel⟩,
   ⟨live, 538872876, by decide +kernel, by decide +kernel, by decide +kernel⟩⟩

theorem witness_CisternFloatsSnapshotsAndDma_4 :
    (∃ (s : State) (m : Option Master) (x : Master), domOn s dCIST = true ∧ m = some x) ∧
    (∃ (s : State), domOn s dCIST = true ∧ domOn s dSTEWARD = true) ∧
    (∃ (s : State) (p : Fin 24), domOn s (dPort p.val) = true) ∧
    (∃ (s : State), domOn s dSTEWARD = true) ∧
    (∃ (s : State) (a : Nat), domOn s dAO = true ∧ 268435456 ≤ a ∧ a < 268439552) :=
  ⟨⟨live, (some .steward0), .steward0, by decide +kernel, by decide +kernel⟩,
   ⟨live, by decide +kernel, by decide +kernel⟩,
   ⟨live, 20, by decide +kernel⟩,
   ⟨live, by decide +kernel⟩,
   ⟨live, 268435456, by decide +kernel, by decide +kernel, by decide +kernel⟩⟩

theorem witness_AcquisitionRecords_1 :
    (∃ (s : State) (m : Master) (w : W32), CanReach m s Reg.ACQ_CMD_ARM.addr ∧ wbits Reg.ACQ_CMD_ARM w = 0) ∧
    (∃ (s : State) (m : Master) (w : W32), CanReach m s Reg.ACQ_CMD_ARM.addr ∧ wbits Reg.ACQ_CMD_STOP w = 0) ∧
    (∃ (s : State) (m : Master) (w : W32), CanReach m s Reg.ACQ_CMD_ARM.addr ∧ wbits Reg.ACQ_CMD_FORCE w = 0) ∧
    (∃ (s : State) (m : Master) (w : W32), CanReach m s Reg.ACQ_CMD_ARM.addr ∧ wbits Reg.ACQ_CMD_EXPORT w = 0) ∧
    (∃ (s : State) (m : Master) (w : W32), CanReach m s Reg.ACQ_CMD_ARM.addr ∧ wbits Reg.ACQ_CMD_ARM w = 1 ∧ acqState s ≠ 0) ∧
    (∃ (s : State) (m : Master) (w : W32), CanReach m s Reg.ACQ_CMD_ARM.addr ∧ wbits Reg.ACQ_CMD_ARM w = 1 ∧ acqState s = 0 ∧ 2 ^ 21 < recordSize s) ∧
    (∃ (s : State) (m : Master) (w : W32), CanReach m s Reg.ACQ_CMD_ARM.addr ∧ wbits Reg.ACQ_CMD_ARM w = 1 ∧ acqState s = 0 ∧ recordSize s ≤ 2 ^ 21 ∧ ((fun u => (List.filter (fun r => !r.released) ((fun u => List.filter (fun r => overlaps (rd u Reg.ACQ_WPTR_OFFSET) (recordSize u) r.ofs r.len) u.acq.recs) u)).length) { pending := (plainWrite s m Reg.ACQ_CMD_ARM.addr (BitVec.toNat w)).pending, regs := (plainWrite s m Reg.ACQ_CMD_ARM.addr (BitVec.toNat w)).regs, banked := (plainWrite s m Reg.ACQ_CMD_ARM.addr (BitVec.toNat w)).banked, ctl := (plainWrite s m Reg.ACQ_CMD_ARM.addr (BitVec.toNat w)).ctl, mem := (plainWrite s m Reg.ACQ_CMD_ARM.addr (BitVec.toNat w)).mem, pwr := (plainWrite s m Reg.ACQ_CMD_ARM.addr (BitVec.toNat w)).pwr, stalled := (plainWrite s m Reg.ACQ_CMD_ARM.addr (BitVec.toNat w)).stalled, mfault := (plainWrite s m Reg.ACQ_CMD_ARM.addr (BitVec.toNat w)).mfault, standby := (plainWrite s m Reg.ACQ_CMD_ARM.addr (BitVec.toNat w)).standby, localTest := (plainWrite s m Reg.ACQ_CMD_ARM.addr (BitVec.toNat w)).localTest, surge := (plainWrite s m Reg.ACQ_CMD_ARM.addr (BitVec.toNat w)).surge, ao := (plainWrite s m Reg.ACQ_CMD_ARM.addr (BitVec.toNat w)).ao, boot := (plainWrite s m Reg.ACQ_CMD_ARM.addr (BitVec.toNat w)).boot, tests := (plainWrite s m Reg.ACQ_CMD_ARM.addr (BitVec.toNat w)).tests, lockSeq := (plainWrite s m Reg.ACQ_CMD_ARM.addr (BitVec.toNat w)).lockSeq, cist := (plainWrite s m Reg.ACQ_CMD_ARM.addr (BitVec.toNat w)).cist, casPend := (plainWrite s m Reg.ACQ_CMD_ARM.addr (BitVec.toNat w)).casPend, snapRun := (plainWrite s m Reg.ACQ_CMD_ARM.addr (BitVec.toNat w)).snapRun, snapLatch := (plainWrite s m Reg.ACQ_CMD_ARM.addr (BitVec.toNat w)).snapLatch, dma := (plainWrite s m Reg.ACQ_CMD_ARM.addr (BitVec.toNat w)).dma, time := (plainWrite s m Reg.ACQ_CMD_ARM.addr (BitVec.toNat w)).time, field := (plainWrite s m Reg.ACQ_CMD_ARM.addr (BitVec.toNat w)).field, safe := (plainWrite s m Reg.ACQ_CMD_ARM.addr (BitVec.toNat w)).safe, pair := (plainWrite s m Reg.ACQ_CMD_ARM.addr (BitVec.toNat w)).pair, bridge := (plainWrite s m Reg.ACQ_CMD_ARM.addr (BitVec.toNat w)).bridge, sched := (plainWrite s m Reg.ACQ_CMD_ARM.addr (BitVec.toNat w)).sched, engs := (plainWrite s m Reg.ACQ_CMD_ARM.addr (BitVec.toNat w)).engs, axes := (plainWrite s m Reg.ACQ_CMD_ARM.addr (BitVec.toNat w)).axes, mots := (plainWrite s m Reg.ACQ_CMD_ARM.addr (BitVec.toNat w)).mots, motRec := (plainWrite s m Reg.ACQ_CMD_ARM.addr (BitVec.toNat w)).motRec, camPend := (plainWrite s m Reg.ACQ_CMD_ARM.addr (BitVec.toNat w)).camPend, stops := (plainWrite s m Reg.ACQ_CMD_ARM.addr (BitVec.toNat w)).stops, commit := (plainWrite s m Reg.ACQ_CMD_ARM.addr (BitVec.toNat w)).commit, lemac := (plainWrite s m Reg.ACQ_CMD_ARM.addr (BitVec.toNat w)).lemac, safeA := (plainWrite s m Reg.ACQ_CMD_ARM.addr (BitVec.toNat w)).safeA, safeB := (plainWrite s m Reg.ACQ_CMD_ARM.addr (BitVec.toNat w)).safeB, plants := (plainWrite s m Reg.ACQ_CMD_ARM.addr (BitVec.toNat w)).plants, tts := (plainWrite s m Reg.ACQ_CMD_ARM.addr (BitVec.toNat w)).tts, capts := (plainWrite s m Reg.ACQ_CMD_ARM.addr (BitVec.toNat w)).capts, encs := (plainWrite s m Reg.ACQ_CMD_ARM.addr (BitVec.toNat w)).encs, emus := (plainWrite s m Reg.ACQ_CMD_ARM.addr (BitVec.toNat w)).emus, acq := have __src := s.acq; { pre := __src.pre, rows := __src.rows, last := __src.last, iv := __src.iv, force := __src.force, trig := __src.trig, forced := __src.forced, tapAt := __src.tapAt, left := __src.left, recs := __src.recs, exp := __src.exp, aborted := __src.aborted }, cans := (plainWrite s m Reg.ACQ_CMD_ARM.addr (BitVec.toNat w)).cans, eyes := (plainWrite s m Reg.ACQ_CMD_ARM.addr (BitVec.toNat w)).eyes, wire := (plainWrite s m Reg.ACQ_CMD_ARM.addr (BitVec.toNat w)).wire, resp := (plainWrite s m Reg.ACQ_CMD_ARM.addr (BitVec.toNat w)).resp, freeIdx := (plainWrite s m Reg.ACQ_CMD_ARM.addr (BitVec.toNat w)).freeIdx } ≠ 0) ∧ (on { pending := (plainWrite s m Reg.ACQ_CMD_ARM.addr (BitVec.toNat w)).pending, regs := (plainWrite s m Reg.ACQ_CMD_ARM.addr (BitVec.toNat w)).regs, banked := (plainWrite s m Reg.ACQ_CMD_ARM.addr (BitVec.toNat w)).banked, ctl := (plainWrite s m Reg.ACQ_CMD_ARM.addr (BitVec.toNat w)).ctl, mem := (plainWrite s m Reg.ACQ_CMD_ARM.addr (BitVec.toNat w)).mem, pwr := (plainWrite s m Reg.ACQ_CMD_ARM.addr (BitVec.toNat w)).pwr, stalled := (plainWrite s m Reg.ACQ_CMD_ARM.addr (BitVec.toNat w)).stalled, mfault := (plainWrite s m Reg.ACQ_CMD_ARM.addr (BitVec.toNat w)).mfault, standby := (plainWrite s m Reg.ACQ_CMD_ARM.addr (BitVec.toNat w)).standby, localTest := (plainWrite s m Reg.ACQ_CMD_ARM.addr (BitVec.toNat w)).localTest, surge := (plainWrite s m Reg.ACQ_CMD_ARM.addr (BitVec.toNat w)).surge, ao := (plainWrite s m Reg.ACQ_CMD_ARM.addr (BitVec.toNat w)).ao, boot := (plainWrite s m Reg.ACQ_CMD_ARM.addr (BitVec.toNat w)).boot, tests := (plainWrite s m Reg.ACQ_CMD_ARM.addr (BitVec.toNat w)).tests, lockSeq := (plainWrite s m Reg.ACQ_CMD_ARM.addr (BitVec.toNat w)).lockSeq, cist := (plainWrite s m Reg.ACQ_CMD_ARM.addr (BitVec.toNat w)).cist, casPend := (plainWrite s m Reg.ACQ_CMD_ARM.addr (BitVec.toNat w)).casPend, snapRun := (plainWrite s m Reg.ACQ_CMD_ARM.addr (BitVec.toNat w)).snapRun, snapLatch := (plainWrite s m Reg.ACQ_CMD_ARM.addr (BitVec.toNat w)).snapLatch, dma := (plainWrite s m Reg.ACQ_CMD_ARM.addr (BitVec.toNat w)).dma, time := (plainWrite s m Reg.ACQ_CMD_ARM.addr (BitVec.toNat w)).time, field := (plainWrite s m Reg.ACQ_CMD_ARM.addr (BitVec.toNat w)).field, safe := (plainWrite s m Reg.ACQ_CMD_ARM.addr (BitVec.toNat w)).safe, pair := (plainWrite s m Reg.ACQ_CMD_ARM.addr (BitVec.toNat w)).pair, bridge := (plainWrite s m Reg.ACQ_CMD_ARM.addr (BitVec.toNat w)).bridge, sched := (plainWrite s m Reg.ACQ_CMD_ARM.addr (BitVec.toNat w)).sched, engs := (plainWrite s m Reg.ACQ_CMD_ARM.addr (BitVec.toNat w)).engs, axes := (plainWrite s m Reg.ACQ_CMD_ARM.addr (BitVec.toNat w)).axes, mots := (plainWrite s m Reg.ACQ_CMD_ARM.addr (BitVec.toNat w)).mots, motRec := (plainWrite s m Reg.ACQ_CMD_ARM.addr (BitVec.toNat w)).motRec, camPend := (plainWrite s m Reg.ACQ_CMD_ARM.addr (BitVec.toNat w)).camPend, stops := (plainWrite s m Reg.ACQ_CMD_ARM.addr (BitVec.toNat w)).stops, commit := (plainWrite s m Reg.ACQ_CMD_ARM.addr (BitVec.toNat w)).commit, lemac := (plainWrite s m Reg.ACQ_CMD_ARM.addr (BitVec.toNat w)).lemac, safeA := (plainWrite s m Reg.ACQ_CMD_ARM.addr (BitVec.toNat w)).safeA, safeB := (plainWrite s m Reg.ACQ_CMD_ARM.addr (BitVec.toNat w)).safeB, plants := (plainWrite s m Reg.ACQ_CMD_ARM.addr (BitVec.toNat w)).plants, tts := (plainWrite s m Reg.ACQ_CMD_ARM.addr (BitVec.toNat w)).tts, capts := (plainWrite s m Reg.ACQ_CMD_ARM.addr (BitVec.toNat w)).capts, encs := (plainWrite s m Reg.ACQ_CMD_ARM.addr (BitVec.toNat w)).encs, emus := (plainWrite s m Reg.ACQ_CMD_ARM.addr (BitVec.toNat w)).emus, acq := have __src := s.acq; { pre := __src.pre, rows := __src.rows, last := __src.last, iv := __src.iv, force := __src.force, trig := __src.trig, forced := __src.forced, tapAt := __src.tapAt, left := __src.left, recs := __src.recs, exp := __src.exp, aborted := __src.aborted }, cans := (plainWrite s m Reg.ACQ_CMD_ARM.addr (BitVec.toNat w)).cans, eyes := (plainWrite s m Reg.ACQ_CMD_ARM.addr (BitVec.toNat w)).eyes, wire := (plainWrite s m Reg.ACQ_CMD_ARM.addr (BitVec.toNat w)).wire, resp := (plainWrite s m Reg.ACQ_CMD_ARM.addr (BitVec.toNat w)).resp, freeIdx := (plainWrite s m Reg.ACQ_CMD_ARM.addr (BitVec.toNat w)).freeIdx } Reg.ACQ_CFG_FULL = false)) ∧
    (∃ (s : State) (m : Master) (w : W32) (i : Nat), CanReach m s Reg.ACQ_CMD_ARM.addr ∧ wbits Reg.ACQ_CMD_ARM w = 1 ∧ acqState s = 0 ∧ recordSize s ≤ 2 ^ 21 ∧ ((fun u => (List.filter (fun r => !r.released) ((fun u => List.filter (fun r => overlaps (rd u Reg.ACQ_WPTR_OFFSET) (recordSize u) r.ofs r.len) u.acq.recs) u)).length) { pending := (plainWrite s m Reg.ACQ_CMD_ARM.addr (BitVec.toNat w)).pending, regs := (plainWrite s m Reg.ACQ_CMD_ARM.addr (BitVec.toNat w)).regs, banked := (plainWrite s m Reg.ACQ_CMD_ARM.addr (BitVec.toNat w)).banked, ctl := (plainWrite s m Reg.ACQ_CMD_ARM.addr (BitVec.toNat w)).ctl, mem := (plainWrite s m Reg.ACQ_CMD_ARM.addr (BitVec.toNat w)).mem, pwr := (plainWrite s m Reg.ACQ_CMD_ARM.addr (BitVec.toNat w)).pwr, stalled := (plainWrite s m Reg.ACQ_CMD_ARM.addr (BitVec.toNat w)).stalled, mfault := (plainWrite s m Reg.ACQ_CMD_ARM.addr (BitVec.toNat w)).mfault, standby := (plainWrite s m Reg.ACQ_CMD_ARM.addr (BitVec.toNat w)).standby, localTest := (plainWrite s m Reg.ACQ_CMD_ARM.addr (BitVec.toNat w)).localTest, surge := (plainWrite s m Reg.ACQ_CMD_ARM.addr (BitVec.toNat w)).surge, ao := (plainWrite s m Reg.ACQ_CMD_ARM.addr (BitVec.toNat w)).ao, boot := (plainWrite s m Reg.ACQ_CMD_ARM.addr (BitVec.toNat w)).boot, tests := (plainWrite s m Reg.ACQ_CMD_ARM.addr (BitVec.toNat w)).tests, lockSeq := (plainWrite s m Reg.ACQ_CMD_ARM.addr (BitVec.toNat w)).lockSeq, cist := (plainWrite s m Reg.ACQ_CMD_ARM.addr (BitVec.toNat w)).cist, casPend := (plainWrite s m Reg.ACQ_CMD_ARM.addr (BitVec.toNat w)).casPend, snapRun := (plainWrite s m Reg.ACQ_CMD_ARM.addr (BitVec.toNat w)).snapRun, snapLatch := (plainWrite s m Reg.ACQ_CMD_ARM.addr (BitVec.toNat w)).snapLatch, dma := (plainWrite s m Reg.ACQ_CMD_ARM.addr (BitVec.toNat w)).dma, time := (plainWrite s m Reg.ACQ_CMD_ARM.addr (BitVec.toNat w)).time, field := (plainWrite s m Reg.ACQ_CMD_ARM.addr (BitVec.toNat w)).field, safe := (plainWrite s m Reg.ACQ_CMD_ARM.addr (BitVec.toNat w)).safe, pair := (plainWrite s m Reg.ACQ_CMD_ARM.addr (BitVec.toNat w)).pair, bridge := (plainWrite s m Reg.ACQ_CMD_ARM.addr (BitVec.toNat w)).bridge, sched := (plainWrite s m Reg.ACQ_CMD_ARM.addr (BitVec.toNat w)).sched, engs := (plainWrite s m Reg.ACQ_CMD_ARM.addr (BitVec.toNat w)).engs, axes := (plainWrite s m Reg.ACQ_CMD_ARM.addr (BitVec.toNat w)).axes, mots := (plainWrite s m Reg.ACQ_CMD_ARM.addr (BitVec.toNat w)).mots, motRec := (plainWrite s m Reg.ACQ_CMD_ARM.addr (BitVec.toNat w)).motRec, camPend := (plainWrite s m Reg.ACQ_CMD_ARM.addr (BitVec.toNat w)).camPend, stops := (plainWrite s m Reg.ACQ_CMD_ARM.addr (BitVec.toNat w)).stops, commit := (plainWrite s m Reg.ACQ_CMD_ARM.addr (BitVec.toNat w)).commit, lemac := (plainWrite s m Reg.ACQ_CMD_ARM.addr (BitVec.toNat w)).lemac, safeA := (plainWrite s m Reg.ACQ_CMD_ARM.addr (BitVec.toNat w)).safeA, safeB := (plainWrite s m Reg.ACQ_CMD_ARM.addr (BitVec.toNat w)).safeB, plants := (plainWrite s m Reg.ACQ_CMD_ARM.addr (BitVec.toNat w)).plants, tts := (plainWrite s m Reg.ACQ_CMD_ARM.addr (BitVec.toNat w)).tts, capts := (plainWrite s m Reg.ACQ_CMD_ARM.addr (BitVec.toNat w)).capts, encs := (plainWrite s m Reg.ACQ_CMD_ARM.addr (BitVec.toNat w)).encs, emus := (plainWrite s m Reg.ACQ_CMD_ARM.addr (BitVec.toNat w)).emus, acq := have __src := s.acq; { pre := __src.pre, rows := __src.rows, last := __src.last, iv := __src.iv, force := __src.force, trig := __src.trig, forced := __src.forced, tapAt := __src.tapAt, left := __src.left, recs := __src.recs, exp := __src.exp, aborted := __src.aborted }, cans := (plainWrite s m Reg.ACQ_CMD_ARM.addr (BitVec.toNat w)).cans, eyes := (plainWrite s m Reg.ACQ_CMD_ARM.addr (BitVec.toNat w)).eyes, wire := (plainWrite s m Reg.ACQ_CMD_ARM.addr (BitVec.toNat w)).wire, resp := (plainWrite s m Reg.ACQ_CMD_ARM.addr (BitVec.toNat w)).resp, freeIdx := (plainWrite s m Reg.ACQ_CMD_ARM.addr (BitVec.toNat w)).freeIdx } = 0 ∨ on { pending := (plainWrite s m Reg.ACQ_CMD_ARM.addr (BitVec.toNat w)).pending, regs := (plainWrite s m Reg.ACQ_CMD_ARM.addr (BitVec.toNat w)).regs, banked := (plainWrite s m Reg.ACQ_CMD_ARM.addr (BitVec.toNat w)).banked, ctl := (plainWrite s m Reg.ACQ_CMD_ARM.addr (BitVec.toNat w)).ctl, mem := (plainWrite s m Reg.ACQ_CMD_ARM.addr (BitVec.toNat w)).mem, pwr := (plainWrite s m Reg.ACQ_CMD_ARM.addr (BitVec.toNat w)).pwr, stalled := (plainWrite s m Reg.ACQ_CMD_ARM.addr (BitVec.toNat w)).stalled, mfault := (plainWrite s m Reg.ACQ_CMD_ARM.addr (BitVec.toNat w)).mfault, standby := (plainWrite s m Reg.ACQ_CMD_ARM.addr (BitVec.toNat w)).standby, localTest := (plainWrite s m Reg.ACQ_CMD_ARM.addr (BitVec.toNat w)).localTest, surge := (plainWrite s m Reg.ACQ_CMD_ARM.addr (BitVec.toNat w)).surge, ao := (plainWrite s m Reg.ACQ_CMD_ARM.addr (BitVec.toNat w)).ao, boot := (plainWrite s m Reg.ACQ_CMD_ARM.addr (BitVec.toNat w)).boot, tests := (plainWrite s m Reg.ACQ_CMD_ARM.addr (BitVec.toNat w)).tests, lockSeq := (plainWrite s m Reg.ACQ_CMD_ARM.addr (BitVec.toNat w)).lockSeq, cist := (plainWrite s m Reg.ACQ_CMD_ARM.addr (BitVec.toNat w)).cist, casPend := (plainWrite s m Reg.ACQ_CMD_ARM.addr (BitVec.toNat w)).casPend, snapRun := (plainWrite s m Reg.ACQ_CMD_ARM.addr (BitVec.toNat w)).snapRun, snapLatch := (plainWrite s m Reg.ACQ_CMD_ARM.addr (BitVec.toNat w)).snapLatch, dma := (plainWrite s m Reg.ACQ_CMD_ARM.addr (BitVec.toNat w)).dma, time := (plainWrite s m Reg.ACQ_CMD_ARM.addr (BitVec.toNat w)).time, field := (plainWrite s m Reg.ACQ_CMD_ARM.addr (BitVec.toNat w)).field, safe := (plainWrite s m Reg.ACQ_CMD_ARM.addr (BitVec.toNat w)).safe, pair := (plainWrite s m Reg.ACQ_CMD_ARM.addr (BitVec.toNat w)).pair, bridge := (plainWrite s m Reg.ACQ_CMD_ARM.addr (BitVec.toNat w)).bridge, sched := (plainWrite s m Reg.ACQ_CMD_ARM.addr (BitVec.toNat w)).sched, engs := (plainWrite s m Reg.ACQ_CMD_ARM.addr (BitVec.toNat w)).engs, axes := (plainWrite s m Reg.ACQ_CMD_ARM.addr (BitVec.toNat w)).axes, mots := (plainWrite s m Reg.ACQ_CMD_ARM.addr (BitVec.toNat w)).mots, motRec := (plainWrite s m Reg.ACQ_CMD_ARM.addr (BitVec.toNat w)).motRec, camPend := (plainWrite s m Reg.ACQ_CMD_ARM.addr (BitVec.toNat w)).camPend, stops := (plainWrite s m Reg.ACQ_CMD_ARM.addr (BitVec.toNat w)).stops, commit := (plainWrite s m Reg.ACQ_CMD_ARM.addr (BitVec.toNat w)).commit, lemac := (plainWrite s m Reg.ACQ_CMD_ARM.addr (BitVec.toNat w)).lemac, safeA := (plainWrite s m Reg.ACQ_CMD_ARM.addr (BitVec.toNat w)).safeA, safeB := (plainWrite s m Reg.ACQ_CMD_ARM.addr (BitVec.toNat w)).safeB, plants := (plainWrite s m Reg.ACQ_CMD_ARM.addr (BitVec.toNat w)).plants, tts := (plainWrite s m Reg.ACQ_CMD_ARM.addr (BitVec.toNat w)).tts, capts := (plainWrite s m Reg.ACQ_CMD_ARM.addr (BitVec.toNat w)).capts, encs := (plainWrite s m Reg.ACQ_CMD_ARM.addr (BitVec.toNat w)).encs, emus := (plainWrite s m Reg.ACQ_CMD_ARM.addr (BitVec.toNat w)).emus, acq := have __src := s.acq; { pre := __src.pre, rows := __src.rows, last := __src.last, iv := __src.iv, force := __src.force, trig := __src.trig, forced := __src.forced, tapAt := __src.tapAt, left := __src.left, recs := __src.recs, exp := __src.exp, aborted := __src.aborted }, cans := (plainWrite s m Reg.ACQ_CMD_ARM.addr (BitVec.toNat w)).cans, eyes := (plainWrite s m Reg.ACQ_CMD_ARM.addr (BitVec.toNat w)).eyes, wire := (plainWrite s m Reg.ACQ_CMD_ARM.addr (BitVec.toNat w)).wire, resp := (plainWrite s m Reg.ACQ_CMD_ARM.addr (BitVec.toNat w)).resp, freeIdx := (plainWrite s m Reg.ACQ_CMD_ARM.addr (BitVec.toNat w)).freeIdx } Reg.ACQ_CFG_FULL = true) ∧ i < 4) ∧
    (∃ (s : State) (m : Master) (w : W32) (a : Nat), CanReach m s Reg.ACQ_CMD_ARM.addr ∧ wbits Reg.ACQ_CMD_ARM w = 1 ∧ acqState s = 0 ∧ recordSize s ≤ 2 ^ 21 ∧ ((fun u => (List.filter (fun r => !r.released) ((fun u => List.filter (fun r => overlaps (rd u Reg.ACQ_WPTR_OFFSET) (recordSize u) r.ofs r.len) u.acq.recs) u)).length) { pending := (plainWrite s m Reg.ACQ_CMD_ARM.addr (BitVec.toNat w)).pending, regs := (plainWrite s m Reg.ACQ_CMD_ARM.addr (BitVec.toNat w)).regs, banked := (plainWrite s m Reg.ACQ_CMD_ARM.addr (BitVec.toNat w)).banked, ctl := (plainWrite s m Reg.ACQ_CMD_ARM.addr (BitVec.toNat w)).ctl, mem := (plainWrite s m Reg.ACQ_CMD_ARM.addr (BitVec.toNat w)).mem, pwr := (plainWrite s m Reg.ACQ_CMD_ARM.addr (BitVec.toNat w)).pwr, stalled := (plainWrite s m Reg.ACQ_CMD_ARM.addr (BitVec.toNat w)).stalled, mfault := (plainWrite s m Reg.ACQ_CMD_ARM.addr (BitVec.toNat w)).mfault, standby := (plainWrite s m Reg.ACQ_CMD_ARM.addr (BitVec.toNat w)).standby, localTest := (plainWrite s m Reg.ACQ_CMD_ARM.addr (BitVec.toNat w)).localTest, surge := (plainWrite s m Reg.ACQ_CMD_ARM.addr (BitVec.toNat w)).surge, ao := (plainWrite s m Reg.ACQ_CMD_ARM.addr (BitVec.toNat w)).ao, boot := (plainWrite s m Reg.ACQ_CMD_ARM.addr (BitVec.toNat w)).boot, tests := (plainWrite s m Reg.ACQ_CMD_ARM.addr (BitVec.toNat w)).tests, lockSeq := (plainWrite s m Reg.ACQ_CMD_ARM.addr (BitVec.toNat w)).lockSeq, cist := (plainWrite s m Reg.ACQ_CMD_ARM.addr (BitVec.toNat w)).cist, casPend := (plainWrite s m Reg.ACQ_CMD_ARM.addr (BitVec.toNat w)).casPend, snapRun := (plainWrite s m Reg.ACQ_CMD_ARM.addr (BitVec.toNat w)).snapRun, snapLatch := (plainWrite s m Reg.ACQ_CMD_ARM.addr (BitVec.toNat w)).snapLatch, dma := (plainWrite s m Reg.ACQ_CMD_ARM.addr (BitVec.toNat w)).dma, time := (plainWrite s m Reg.ACQ_CMD_ARM.addr (BitVec.toNat w)).time, field := (plainWrite s m Reg.ACQ_CMD_ARM.addr (BitVec.toNat w)).field, safe := (plainWrite s m Reg.ACQ_CMD_ARM.addr (BitVec.toNat w)).safe, pair := (plainWrite s m Reg.ACQ_CMD_ARM.addr (BitVec.toNat w)).pair, bridge := (plainWrite s m Reg.ACQ_CMD_ARM.addr (BitVec.toNat w)).bridge, sched := (plainWrite s m Reg.ACQ_CMD_ARM.addr (BitVec.toNat w)).sched, engs := (plainWrite s m Reg.ACQ_CMD_ARM.addr (BitVec.toNat w)).engs, axes := (plainWrite s m Reg.ACQ_CMD_ARM.addr (BitVec.toNat w)).axes, mots := (plainWrite s m Reg.ACQ_CMD_ARM.addr (BitVec.toNat w)).mots, motRec := (plainWrite s m Reg.ACQ_CMD_ARM.addr (BitVec.toNat w)).motRec, camPend := (plainWrite s m Reg.ACQ_CMD_ARM.addr (BitVec.toNat w)).camPend, stops := (plainWrite s m Reg.ACQ_CMD_ARM.addr (BitVec.toNat w)).stops, commit := (plainWrite s m Reg.ACQ_CMD_ARM.addr (BitVec.toNat w)).commit, lemac := (plainWrite s m Reg.ACQ_CMD_ARM.addr (BitVec.toNat w)).lemac, safeA := (plainWrite s m Reg.ACQ_CMD_ARM.addr (BitVec.toNat w)).safeA, safeB := (plainWrite s m Reg.ACQ_CMD_ARM.addr (BitVec.toNat w)).safeB, plants := (plainWrite s m Reg.ACQ_CMD_ARM.addr (BitVec.toNat w)).plants, tts := (plainWrite s m Reg.ACQ_CMD_ARM.addr (BitVec.toNat w)).tts, capts := (plainWrite s m Reg.ACQ_CMD_ARM.addr (BitVec.toNat w)).capts, encs := (plainWrite s m Reg.ACQ_CMD_ARM.addr (BitVec.toNat w)).encs, emus := (plainWrite s m Reg.ACQ_CMD_ARM.addr (BitVec.toNat w)).emus, acq := have __src := s.acq; { pre := __src.pre, rows := __src.rows, last := __src.last, iv := __src.iv, force := __src.force, trig := __src.trig, forced := __src.forced, tapAt := __src.tapAt, left := __src.left, recs := __src.recs, exp := __src.exp, aborted := __src.aborted }, cans := (plainWrite s m Reg.ACQ_CMD_ARM.addr (BitVec.toNat w)).cans, eyes := (plainWrite s m Reg.ACQ_CMD_ARM.addr (BitVec.toNat w)).eyes, wire := (plainWrite s m Reg.ACQ_CMD_ARM.addr (BitVec.toNat w)).wire, resp := (plainWrite s m Reg.ACQ_CMD_ARM.addr (BitVec.toNat w)).resp, freeIdx := (plainWrite s m Reg.ACQ_CMD_ARM.addr (BitVec.toNat w)).freeIdx } = 0 ∨ on { pending := (plainWrite s m Reg.ACQ_CMD_ARM.addr (BitVec.toNat w)).pending, regs := (plainWrite s m Reg.ACQ_CMD_ARM.addr (BitVec.toNat w)).regs, banked := (plainWrite s m Reg.ACQ_CMD_ARM.addr (BitVec.toNat w)).banked, ctl := (plainWrite s m Reg.ACQ_CMD_ARM.addr (BitVec.toNat w)).ctl, mem := (plainWrite s m Reg.ACQ_CMD_ARM.addr (BitVec.toNat w)).mem, pwr := (plainWrite s m Reg.ACQ_CMD_ARM.addr (BitVec.toNat w)).pwr, stalled := (plainWrite s m Reg.ACQ_CMD_ARM.addr (BitVec.toNat w)).stalled, mfault := (plainWrite s m Reg.ACQ_CMD_ARM.addr (BitVec.toNat w)).mfault, standby := (plainWrite s m Reg.ACQ_CMD_ARM.addr (BitVec.toNat w)).standby, localTest := (plainWrite s m Reg.ACQ_CMD_ARM.addr (BitVec.toNat w)).localTest, surge := (plainWrite s m Reg.ACQ_CMD_ARM.addr (BitVec.toNat w)).surge, ao := (plainWrite s m Reg.ACQ_CMD_ARM.addr (BitVec.toNat w)).ao, boot := (plainWrite s m Reg.ACQ_CMD_ARM.addr (BitVec.toNat w)).boot, tests := (plainWrite s m Reg.ACQ_CMD_ARM.addr (BitVec.toNat w)).tests, lockSeq := (plainWrite s m Reg.ACQ_CMD_ARM.addr (BitVec.toNat w)).lockSeq, cist := (plainWrite s m Reg.ACQ_CMD_ARM.addr (BitVec.toNat w)).cist, casPend := (plainWrite s m Reg.ACQ_CMD_ARM.addr (BitVec.toNat w)).casPend, snapRun := (plainWrite s m Reg.ACQ_CMD_ARM.addr (BitVec.toNat w)).snapRun, snapLatch := (plainWrite s m Reg.ACQ_CMD_ARM.addr (BitVec.toNat w)).snapLatch, dma := (plainWrite s m Reg.ACQ_CMD_ARM.addr (BitVec.toNat w)).dma, time := (plainWrite s m Reg.ACQ_CMD_ARM.addr (BitVec.toNat w)).time, field := (plainWrite s m Reg.ACQ_CMD_ARM.addr (BitVec.toNat w)).field, safe := (plainWrite s m Reg.ACQ_CMD_ARM.addr (BitVec.toNat w)).safe, pair := (plainWrite s m Reg.ACQ_CMD_ARM.addr (BitVec.toNat w)).pair, bridge := (plainWrite s m Reg.ACQ_CMD_ARM.addr (BitVec.toNat w)).bridge, sched := (plainWrite s m Reg.ACQ_CMD_ARM.addr (BitVec.toNat w)).sched, engs := (plainWrite s m Reg.ACQ_CMD_ARM.addr (BitVec.toNat w)).engs, axes := (plainWrite s m Reg.ACQ_CMD_ARM.addr (BitVec.toNat w)).axes, mots := (plainWrite s m Reg.ACQ_CMD_ARM.addr (BitVec.toNat w)).mots, motRec := (plainWrite s m Reg.ACQ_CMD_ARM.addr (BitVec.toNat w)).motRec, camPend := (plainWrite s m Reg.ACQ_CMD_ARM.addr (BitVec.toNat w)).camPend, stops := (plainWrite s m Reg.ACQ_CMD_ARM.addr (BitVec.toNat w)).stops, commit := (plainWrite s m Reg.ACQ_CMD_ARM.addr (BitVec.toNat w)).commit, lemac := (plainWrite s m Reg.ACQ_CMD_ARM.addr (BitVec.toNat w)).lemac, safeA := (plainWrite s m Reg.ACQ_CMD_ARM.addr (BitVec.toNat w)).safeA, safeB := (plainWrite s m Reg.ACQ_CMD_ARM.addr (BitVec.toNat w)).safeB, plants := (plainWrite s m Reg.ACQ_CMD_ARM.addr (BitVec.toNat w)).plants, tts := (plainWrite s m Reg.ACQ_CMD_ARM.addr (BitVec.toNat w)).tts, capts := (plainWrite s m Reg.ACQ_CMD_ARM.addr (BitVec.toNat w)).capts, encs := (plainWrite s m Reg.ACQ_CMD_ARM.addr (BitVec.toNat w)).encs, emus := (plainWrite s m Reg.ACQ_CMD_ARM.addr (BitVec.toNat w)).emus, acq := have __src := s.acq; { pre := __src.pre, rows := __src.rows, last := __src.last, iv := __src.iv, force := __src.force, trig := __src.trig, forced := __src.forced, tapAt := __src.tapAt, left := __src.left, recs := __src.recs, exp := __src.exp, aborted := __src.aborted }, cans := (plainWrite s m Reg.ACQ_CMD_ARM.addr (BitVec.toNat w)).cans, eyes := (plainWrite s m Reg.ACQ_CMD_ARM.addr (BitVec.toNat w)).eyes, wire := (plainWrite s m Reg.ACQ_CMD_ARM.addr (BitVec.toNat w)).wire, resp := (plainWrite s m Reg.ACQ_CMD_ARM.addr (BitVec.toNat w)).resp, freeIdx := (plainWrite s m Reg.ACQ_CMD_ARM.addr (BitVec.toNat w)).freeIdx } Reg.ACQ_CFG_FULL = true) ∧ (∀ i < 4, a ≠ acqAddr (rd { pending := (plainWrite s m Reg.ACQ_CMD_ARM.addr (BitVec.toNat w)).pending, regs := (plainWrite s m Reg.ACQ_CMD_ARM.addr (BitVec.toNat w)).regs, banked := (plainWrite s m Reg.ACQ_CMD_ARM.addr (BitVec.toNat w)).banked, ctl := (plainWrite s m Reg.ACQ_CMD_ARM.addr (BitVec.toNat w)).ctl, mem := (plainWrite s m Reg.ACQ_CMD_ARM.addr (BitVec.toNat w)).mem, pwr := (plainWrite s m Reg.ACQ_CMD_ARM.addr (BitVec.toNat w)).pwr, stalled := (plainWrite s m Reg.ACQ_CMD_ARM.addr (BitVec.toNat w)).stalled, mfault := (plainWrite s m Reg.ACQ_CMD_ARM.addr (BitVec.toNat w)).mfault, standby := (plainWrite s m Reg.ACQ_CMD_ARM.addr (BitVec.toNat w)).standby, localTest := (plainWrite s m Reg.ACQ_CMD_ARM.addr (BitVec.toNat w)).localTest, surge := (plainWrite s m Reg.ACQ_CMD_ARM.addr (BitVec.toNat w)).surge, ao := (plainWrite s m Reg.ACQ_CMD_ARM.addr (BitVec.toNat w)).ao, boot := (plainWrite s m Reg.ACQ_CMD_ARM.addr (BitVec.toNat w)).boot, tests := (plainWrite s m Reg.ACQ_CMD_ARM.addr (BitVec.toNat w)).tests, lockSeq := (plainWrite s m Reg.ACQ_CMD_ARM.addr (BitVec.toNat w)).lockSeq, cist := (plainWrite s m Reg.ACQ_CMD_ARM.addr (BitVec.toNat w)).cist, casPend := (plainWrite s m Reg.ACQ_CMD_ARM.addr (BitVec.toNat w)).casPend, snapRun := (plainWrite s m Reg.ACQ_CMD_ARM.addr (BitVec.toNat w)).snapRun, snapLatch := (plainWrite s m Reg.ACQ_CMD_ARM.addr (BitVec.toNat w)).snapLatch, dma := (plainWrite s m Reg.ACQ_CMD_ARM.addr (BitVec.toNat w)).dma, time := (plainWrite s m Reg.ACQ_CMD_ARM.addr (BitVec.toNat w)).time, field := (plainWrite s m Reg.ACQ_CMD_ARM.addr (BitVec.toNat w)).field, safe := (plainWrite s m Reg.ACQ_CMD_ARM.addr (BitVec.toNat w)).safe, pair := (plainWrite s m Reg.ACQ_CMD_ARM.addr (BitVec.toNat w)).pair, bridge := (plainWrite s m Reg.ACQ_CMD_ARM.addr (BitVec.toNat w)).bridge, sched := (plainWrite s m Reg.ACQ_CMD_ARM.addr (BitVec.toNat w)).sched, engs := (plainWrite s m Reg.ACQ_CMD_ARM.addr (BitVec.toNat w)).engs, axes := (plainWrite s m Reg.ACQ_CMD_ARM.addr (BitVec.toNat w)).axes, mots := (plainWrite s m Reg.ACQ_CMD_ARM.addr (BitVec.toNat w)).mots, motRec := (plainWrite s m Reg.ACQ_CMD_ARM.addr (BitVec.toNat w)).motRec, camPend := (plainWrite s m Reg.ACQ_CMD_ARM.addr (BitVec.toNat w)).camPend, stops := (plainWrite s m Reg.ACQ_CMD_ARM.addr (BitVec.toNat w)).stops, commit := (plainWrite s m Reg.ACQ_CMD_ARM.addr (BitVec.toNat w)).commit, lemac := (plainWrite s m Reg.ACQ_CMD_ARM.addr (BitVec.toNat w)).lemac, safeA := (plainWrite s m Reg.ACQ_CMD_ARM.addr (BitVec.toNat w)).safeA, safeB := (plainWrite s m Reg.ACQ_CMD_ARM.addr (BitVec.toNat w)).safeB, plants := (plainWrite s m Reg.ACQ_CMD_ARM.addr (BitVec.toNat w)).plants, tts := (plainWrite s m Reg.ACQ_CMD_ARM.addr (BitVec.toNat w)).tts, capts := (plainWrite s m Reg.ACQ_CMD_ARM.addr (BitVec.toNat w)).capts, encs := (plainWrite s m Reg.ACQ_CMD_ARM.addr (BitVec.toNat w)).encs, emus := (plainWrite s m Reg.ACQ_CMD_ARM.addr (BitVec.toNat w)).emus, acq := have __src := s.acq; { pre := __src.pre, rows := __src.rows, last := __src.last, iv := __src.iv, force := __src.force, trig := __src.trig, forced := __src.forced, tapAt := __src.tapAt, left := __src.left, recs := __src.recs, exp := __src.exp, aborted := __src.aborted }, cans := (plainWrite s m Reg.ACQ_CMD_ARM.addr (BitVec.toNat w)).cans, eyes := (plainWrite s m Reg.ACQ_CMD_ARM.addr (BitVec.toNat w)).eyes, wire := (plainWrite s m Reg.ACQ_CMD_ARM.addr (BitVec.toNat w)).wire, resp := (plainWrite s m Reg.ACQ_CMD_ARM.addr (BitVec.toNat w)).resp, freeIdx := (plainWrite s m Reg.ACQ_CMD_ARM.addr (BitVec.toNat w)).freeIdx } Reg.ACQ_WPTR_OFFSET + i))) ∧
    (∃ (s : State) (m : Master) (w : W32), CanReach m s Reg.ACQ_CMD_ARM.addr ∧ wbits Reg.ACQ_CMD_STOP w = 1 ∧ acqState s ≠ 3) ∧
    (∃ (s : State) (m : Master) (w : W32) (o : Nat) (no : Nat) (n : Nat), CanReach m s Reg.ACQ_CMD_ARM.addr ∧ wbits Reg.ACQ_CMD_STOP w = 1 ∧ acqState s = 3 ∧ o = rd s Reg.ACQ_WPTR_OFFSET ∧ no = (rd s Reg.ACQ_LAST_VALUE + 1) % 2 ^ 32 ∧ n = s.acq.pre.length + s.acq.rows.length ∧ o % 64 = 0) ∧
    (∃ (s : State) (m : Master) (w : W32), CanReach m s Reg.ACQ_CMD_ARM.addr ∧ wbits Reg.ACQ_CMD_FORCE w = 1 ∧ acqState s ≠ 1 ∧ acqState s ≠ 2) :=
  ⟨⟨live, .safetyProc, 0, by unfold CanReach; decide +kernel, by decide +kernel⟩,
   ⟨live, .steward0, 57, by unfold CanReach; decide +kernel, by decide +kernel⟩,
   ⟨live, .host, 3, by unfold CanReach; decide +kernel, by decide +kernel⟩,
   ⟨live, .steward0, 5, by unfold CanReach; decide +kernel, by decide +kernel⟩,
   ⟨(regs live [(0xB2084, 4)]), .dmaEngine, 4294967291, by unfold CanReach; decide +kernel, by decide +kernel, by decide +kernel⟩,
   ⟨(regs live [(0xB2048, 131072), (0xB2050, 2147483648)]), .host, 5, by unfold CanReach; decide +kernel, by decide +kernel, by decide +kernel, by decide +kernel⟩,
   ⟨{ live with acq := { recs := [{ no := 0, ofs := 0, len := 129, released := false }] } }, .transmit, 346987471, by unfold CanReach; decide +kernel, by decide +kernel, by decide +kernel, by decide +kernel, by decide +kernel, by decide +kernel⟩,
   ⟨live, .safetyProc, 5, 0, by unfold CanReach; decide +kernel, by decide +kernel, by decide +kernel, by decide +kernel, by decide +kernel, by decide +kernel⟩,
   ⟨live, (.cluDma 0), 1, 65535, by unfold CanReach; decide +kernel, by decide +kernel, by decide +kernel, by decide +kernel, by decide +kernel, by decide +kernel⟩,
   ⟨live, (.cluDma 3), 4294967295, by unfold CanReach; decide +kernel, by decide +kernel, by decide +kernel⟩,
   ⟨(regs live [(0xB2084, 3)]), .steward1, 4069171523, 0, 1, 0, by unfold CanReach; decide +kernel, by decide +kernel, by decide +kernel, by decide +kernel, by decide +kernel, by decide +kernel, by decide +kernel⟩,
   ⟨live, .transmit, 22, by unfold CanReach; decide +kernel, by decide +kernel, by decide +kernel, by decide +kernel⟩⟩

theorem witness_AcquisitionRecords_2 :
    (∃ (s : State) (m : Master) (w : W32), CanReach m s Reg.ACQ_CMD_ARM.addr ∧ wbits Reg.ACQ_CMD_FORCE w = 1 ∧ (acqState s = 1 ∨ acqState s = 2) ∧ s.acq.tapAt ≠ some s.sched.cycle) ∧
    (∃ (s : State) (m : Master) (w : W32), CanReach m s Reg.ACQ_CMD_ARM.addr ∧ wbits Reg.ACQ_CMD_FORCE w = 1 ∧ (acqState s = 1 ∨ acqState s = 2) ∧ s.acq.tapAt = some s.sched.cycle ∧ (∀ (r : AcqRow), s.acq.last = some r → r.cycle ≠ s.sched.cycle)) ∧
    (∃ (s : State) (m : Master) (w : W32) (b : Nat) (r : AcqRec), CanReach m s Reg.ACQ_CMD_ARM.addr ∧ wbits Reg.ACQ_CMD_EXPORT w = 1 ∧ b = rd s Reg.ACQ_EXP_DST_BLOCK ∧ (List.find? (fun r => r.no == rd s Reg.ACQ_EXP_REC_RECNO) s.acq.recs = some r) ∧ s.acq.exp = none ∧ b + (r.len + 255) / 256 ≤ 32768 ∧ (∀ i < (r.len + 255) / 256, flt s (b + i) = 2)) ∧
    (∃ (s : State) (m : Master) (w : W32) (b : Nat), CanReach m s Reg.ACQ_CMD_ARM.addr ∧ wbits Reg.ACQ_CMD_EXPORT w = 1 ∧ b = rd s Reg.ACQ_EXP_DST_BLOCK ∧ (∀ (r : AcqRec), List.find? (fun r => r.no == rd s Reg.ACQ_EXP_REC_RECNO) s.acq.recs = some r → s.acq.exp ≠ none ∨ 32768 < b + (r.len + 255) / 256 ∨ ∃ i < (r.len + 255) / 256, flt s (b + i) ≠ 2)) ∧
    (∃ (s : State), (s.acq.exp = none ∨ domOn s dCIST = false)) ∧
    (∃ (s : State) (o : Nat) (n : Nat) (b : Nat) (i : Nat), s.acq.exp = some (o, n, b) ∧ domOn s dCIST = true ∧ n % 4 = 0 ∧ b + (n + 255) / 256 ≤ 32768 ∧ (∀ i < (n + 255) / 256, flt s (b + i) = 2) ∧ i < n) ∧
    (∃ (s : State) (o : Nat) (n : Nat) (b : Nat) (i : Nat), s.acq.exp = some (o, n, b) ∧ domOn s dCIST = true ∧ n % 4 = 0 ∧ b + (n + 255) / 256 ≤ 32768 ∧ (∀ i < (n + 255) / 256, flt s (b + i) = 2) ∧ i < (n + 255) / 256) ∧
    (∃ (s : State) (o : Nat) (n : Nat) (b : Nat) (c : Nat), s.acq.exp = some (o, n, b) ∧ domOn s dCIST = true ∧ n % 4 = 0 ∧ b + (n + 255) / 256 ≤ 32768 ∧ (∀ i < (n + 255) / 256, flt s (b + i) = 2) ∧ (c < b ∨ b + (n + 255) / 256 ≤ c)) ∧
    (∃ (s : State) (m : Master) (w : W32) (v : State), (CanReach m s Reg.ACQ_RELEASE_RECNO.addr) ∧ (v = { plainWrite s m Reg.ACQ_RELEASE_RECNO.addr (BitVec.toNat w) with acq := { s.acq with recs := s.acq.recs.map (fun r => if (w.toNat + 2 ^ 32 - r.no) % 2 ^ 32 < 2 ^ 31 then { r with released := true } else r) } }) ∧ (acqState s ≠ 5)) ∧
    (∃ (s : State) (m : Master) (w : W32) (v : State), (CanReach m s Reg.ACQ_RELEASE_RECNO.addr) ∧ (v = { plainWrite s m Reg.ACQ_RELEASE_RECNO.addr (BitVec.toNat w) with acq := { s.acq with recs := s.acq.recs.map (fun r => if (w.toNat + 2 ^ 32 - r.no) % 2 ^ 32 < 2 ^ 31 then { r with released := true } else r) } }) ∧ (acqState s = 5) ∧ ((fun u => (List.filter (fun r => !r.released) ((fun u => List.filter (fun r => overlaps (rd u Reg.ACQ_WPTR_OFFSET) (recordSize u) r.ofs r.len) u.acq.recs) u)).length) v ≠ 0) ∧ (on v Reg.ACQ_CFG_FULL = false)) ∧
    (∃ (s : State) (m : Master) (w : W32) (v : State) (i : Nat), (CanReach m s Reg.ACQ_RELEASE_RECNO.addr) ∧ (v = { plainWrite s m Reg.ACQ_RELEASE_RECNO.addr (BitVec.toNat w) with acq := { s.acq with recs := s.acq.recs.map (fun r => if (w.toNat + 2 ^ 32 - r.no) % 2 ^ 32 < 2 ^ 31 then { r with released := true } else r) } }) ∧ (acqState s = 5) ∧ ((fun u => (List.filter (fun r => !r.released) ((fun u => List.filter (fun r => overlaps (rd u Reg.ACQ_WPTR_OFFSET) (recordSize u) r.ofs r.len) u.acq.recs) u)).length) v = 0 ∨ on v Reg.ACQ_CFG_FULL = true) ∧ (i < 4)) ∧
    (∃ (s : State) (m : Master) (w : W32) (v : State) (a : Nat), (CanReach m s Reg.ACQ_RELEASE_RECNO.addr) ∧ (v = { plainWrite s m Reg.ACQ_RELEASE_RECNO.addr (BitVec.toNat w) with acq := { s.acq with recs := s.acq.recs.map (fun r => if (w.toNat + 2 ^ 32 - r.no) % 2 ^ 32 < 2 ^ 31 then { r with released := true } else r) } }) ∧ (acqState s = 5) ∧ ((fun u => (List.filter (fun r => !r.released) ((fun u => List.filter (fun r => overlaps (rd u Reg.ACQ_WPTR_OFFSET) (recordSize u) r.ofs r.len) u.acq.recs) u)).length) v = 0 ∨ on v Reg.ACQ_CFG_FULL = true) ∧ (∀ i < 4, a ≠ acqAddr (rd v Reg.ACQ_WPTR_OFFSET + i))) :=
  ⟨⟨(regs live [(0xB2084, 2)]), .steward1, 4, by unfold CanReach; decide +kernel, by decide +kernel, by decide +kernel, by decide +kernel⟩,
   ⟨{ (regs live [(0xB2084, 1)]) with sched := { cycle := 77 }, acq := { tapAt := (some 77) } }, .receive, 3900061694, by unfold CanReach; decide +kernel, by decide +kernel, by decide +kernel, by decide +kernel, by decide +kernel⟩,
   ⟨{ (regs live [(0xB2098, 1)]) with acq := { recs := [{ no := 1, ofs := 0, len := 0, released := false }] } }, .host, 4294967293, 0, { no := 1, ofs := 0, len := 0, released := false }, by unfold CanReach; decide +kernel, by decide +kernel, by decide +kernel, by decide +kernel, by decide +kernel, by decide +kernel, by decide +kernel⟩,
   ⟨live, .host, 4294967295, 0, by unfold CanReach; decide +kernel, by decide +kernel, by decide +kernel, by decide +kernel⟩,
   ⟨live, by decide +kernel⟩,
   ⟨{ live with cist := [(0, { flt := 2 })], acq := { exp := (some (2097100, (96, 0))) } }, 2097100, 96, 0, 0, by decide +kernel, by decide +kernel, by decide +kernel, by decide +kernel, by decide +kernel, by decide +kernel⟩,
   ⟨{ live with cist := [(0, { flt := 2 })], acq := { exp := (some (2097100, (96, 0))) } }, 2097100, 96, 0, 0, by decide +kernel, by decide +kernel, by decide +kernel, by decide +kernel, by decide +kernel, by decide +kernel⟩,
   ⟨{ live with cist := [(3, { flt := 2 })], acq := { exp := (some (64, (100, 3))) } }, 64, 100, 3, 112, by decide +kernel, by decide +kernel, by decide +kernel, by decide +kernel, by decide +kernel, by decide +kernel⟩,
   ⟨live, .host, 0, _, by unfold CanReach; decide +kernel, rfl, by decide +kernel⟩,
   ⟨{ sets live [(Reg.ACQ_STAT_STATE, 5)] with acq := { recs := [{ no := 1, ofs := 0, len := 100 }] } }, .host, 0, _, by unfold CanReach; decide +kernel, rfl, by decide +kernel, by decide +kernel, by decide +kernel⟩,
   ⟨{ sets live [(Reg.ACQ_STAT_STATE, 5)] with acq := { recs := [{ no := 1, ofs := 0, len := 100 }] } }, .host, 1, _, 3, by unfold CanReach; decide +kernel, rfl, by decide +kernel, by decide +kernel, by decide +kernel⟩,
   ⟨{ sets live [(Reg.ACQ_STAT_STATE, 5)] with acq := { recs := [{ no := 1, ofs := 0, len := 100 }] } }, .host, 1, _, 0, by unfold CanReach; decide +kernel, rfl, by decide +kernel, by decide +kernel, by decide +kernel⟩⟩

theorem witness_AcquisitionRecords_3 :
    (∃ (s : State), (domOn s dCIST = false ∨ acqState s ≠ 4 ∨ on s Reg.ACQ_CFG_HUNIT = true)) ∧
    (∃ (s : State), domOn s dCIST = true ∧ acqState s = 4 ∧ on s Reg.ACQ_CFG_HUNIT = false ∧ ((fun u => (List.filter (fun r => !r.released) ((fun u => List.filter (fun r => overlaps (rd u Reg.ACQ_WPTR_OFFSET) (recordSize u) r.ofs r.len) u.acq.recs) u)).length) s ≠ 0) ∧ on s Reg.ACQ_CFG_FULL = false) ∧
    (∃ (s : State) (i : Nat), domOn s dCIST = true ∧ acqState s = 4 ∧ on s Reg.ACQ_CFG_HUNIT = false ∧ ((fun u => (List.filter (fun r => !r.released) ((fun u => List.filter (fun r => overlaps (rd u Reg.ACQ_WPTR_OFFSET) (recordSize u) r.ofs r.len) u.acq.recs) u)).length) s = 0 ∨ on s Reg.ACQ_CFG_FULL = true) ∧ i < 4) ∧
    (∃ (s : State) (a : Nat), domOn s dCIST = true ∧ acqState s = 4 ∧ on s Reg.ACQ_CFG_HUNIT = false ∧ ((fun u => (List.filter (fun r => !r.released) ((fun u => List.filter (fun r => overlaps (rd u Reg.ACQ_WPTR_OFFSET) (recordSize u) r.ofs r.len) u.acq.recs) u)).length) s = 0 ∨ on s Reg.ACQ_CFG_FULL = true) ∧ (∀ i < 4, a ≠ acqAddr (rd s Reg.ACQ_WPTR_OFFSET + i))) :=
  ⟨⟨live, by decide +kernel⟩,
   ⟨{ (regs live [(0xB2084, 4)]) with acq := { recs := [{ no := 0, ofs := 0, len := 0, released := false }] } }, by decide +kernel, by decide +kernel, by decide +kernel, by decide +kernel, by decide +kernel⟩,
   ⟨(regs live [(0xB2084, 4)]), 0, by decide +kernel, by decide +kernel, by decide +kernel, by decide +kernel, by decide +kernel⟩,
   ⟨(regs live [(0xB2084, 4)]), 1, by decide +kernel, by decide +kernel, by decide +kernel, by decide +kernel, by decide +kernel⟩⟩

theorem witness_CanTransmitAndErrors_1 :
    (∃ (s : State) (n : Fin 4), (domOn s dAUX = false ∨ on s (Reg.CAN_CTRL_EN n.val) = false)) ∧
    (∃ (s : State) (n : Fin 4), domOn s dAUX = true ∧ on s (Reg.CAN_CTRL_EN n.val) = true) ∧
    (∃ (s : State) (n : Fin 4) (m : Master) (b : Fin 32) (w : W32) (k : Nat), k = (Reg.CAN_TXCTRL_REQ n.val b.val).addr ∧ CanReach m s k ∧ wbits (Reg.CAN_TXCTRL_REQ n.val b.val) w = 0) ∧
    (∃ (s : State) (n : Fin 4) (m : Master) (b : Fin 32) (w : W32) (k : Nat), k = (Reg.CAN_TXCTRL_REQ n.val b.val).addr ∧ CanReach m s k ∧ wbits (Reg.CAN_TXCTRL_CANCEL n.val b.val) w = 0) ∧
    (∃ (s : State) (n : Fin 4) (m : Master) (b : Fin 32) (w : W32) (k : Nat) (no : Bool), k = (Reg.CAN_TXCTRL_REQ n.val b.val).addr ∧ CanReach m s k ∧ wbits (Reg.CAN_TXCTRL_REQ n.val b.val) w = 1 ∧ no = (on s (Reg.CAN_TXCTRL_MAP n.val b.val) || !(txState s n.val b.val == 0 || decide (3 ≤ txState s n.val b.val) && decide (txState s n.val b.val ≤ 6)) || on s (Reg.CAN_CTRL_LISTEN n.val) || bitOf 30 (canTx s n.val b.val).hdr && bitOf 36 (canTx s n.val b.val).hdr) ∧ no = true) ∧
    (∃ (s : State) (n : Fin 4) (m : Master) (b : Fin 32) (w : W32) (k : Nat) (no : Bool) (j : Nat), k = (Reg.CAN_TXCTRL_REQ n.val b.val).addr ∧ CanReach m s k ∧ wbits (Reg.CAN_TXCTRL_REQ n.val b.val) w = 1 ∧ no = (on s (Reg.CAN_TXCTRL_MAP n.val b.val) || !(txState s n.val b.val == 0 || decide (3 ≤ txState s n.val b.val) && decide (txState s n.val b.val ≤ 6)) || on s (Reg.CAN_CTRL_LISTEN n.val) || bitOf 30 (canTx s n.val b.val).hdr && bitOf 36 (canTx s n.val b.val).hdr) ∧ no = false ∧ j ≠ n.val) ∧
    (∃ (s : State) (n : Fin 4) (m : Master) (b : Fin 32) (w : W32) (k : Nat) (no : Bool) (c : Fin 32), k = (Reg.CAN_TXCTRL_REQ n.val b.val).addr ∧ CanReach m s k ∧ wbits (Reg.CAN_TXCTRL_REQ n.val b.val) w = 1 ∧ no = (on s (Reg.CAN_TXCTRL_MAP n.val b.val) || !(txState s n.val b.val == 0 || decide (3 ≤ txState s n.val b.val) && decide (txState s n.val b.val ≤ 6)) || on s (Reg.CAN_CTRL_LISTEN n.val) || bitOf 30 (canTx s n.val b.val).hdr && bitOf 36 (canTx s n.val b.val).hdr) ∧ no = false ∧ c ≠ b) ∧
    (∃ (s : State) (n : Fin 4) (m : Master) (b : Fin 32) (w : W32) (k : Nat), k = (Reg.CAN_TXCTRL_REQ n.val b.val).addr ∧ CanReach m s k ∧ wbits (Reg.CAN_TXCTRL_CANCEL n.val b.val) w = 1 ∧ on s (Reg.CAN_TXCTRL_MAP n.val b.val) = true) ∧
    (∃ (s : State) (n : Fin 4) (m : Master) (b : Fin 32) (w : W32) (k : Nat), k = (Reg.CAN_TXCTRL_REQ n.val b.val).addr ∧ CanReach m s k ∧ wbits (Reg.CAN_TXCTRL_CANCEL n.val b.val) w = 1 ∧ on s (Reg.CAN_TXCTRL_MAP n.val b.val) = false ∧ txState s n.val b.val = 1) ∧
    (∃ (s : State) (n : Fin 4) (m : Master) (b : Fin 32) (w : W32) (k : Nat), k = (Reg.CAN_TXCTRL_REQ n.val b.val).addr ∧ CanReach m s k ∧ wbits (Reg.CAN_TXCTRL_CANCEL n.val b.val) w = 1 ∧ on s (Reg.CAN_TXCTRL_MAP n.val b.val) = false ∧ txState s n.val b.val = 2) ∧
    (∃ (s : State) (n : Fin 4) (m : Master) (b : Fin 32) (w : W32) (k : Nat), k = (Reg.CAN_TXCTRL_REQ n.val b.val).addr ∧ CanReach m s k ∧ wbits (Reg.CAN_TXCTRL_CANCEL n.val b.val) w = 1 ∧ on s (Reg.CAN_TXCTRL_MAP n.val b.val) = false ∧ txState s n.val b.val ≠ 1 ∧ txState s n.val b.val ≠ 2) ∧
    (∃ (s : State) (n : Fin 4) (m : Master) (b : Fin 32) (w : W32) (k : Nat), k = (Reg.CAN_TXCTRL_REQ n.val b.val).addr ∧ CanReach m s k ∧ (wbits (Reg.CAN_TXCTRL_CLR n.val b.val) w = 0 ∨ txState s n.val b.val ≠ 7)) :=
  ⟨⟨live, 0, by decide +kernel⟩,
   ⟨(regs live [(0xC0040, 5)]), 0, by decide +kernel, by decide +kernel⟩,
   ⟨live, 0, .host, 31, 0, 786812, by decide +kernel, by unfold CanReach; decide +kernel, by decide +kernel⟩,
   ⟨live, 1, .device, 31, 1, 790908, by decide +kernel, by unfold CanReach; decide +kernel, by decide +kernel⟩,
   ⟨{ live with cans := [(1, { tx := [(2, { hdr := 95563026037, ts := 5, frac := 6 })], rx := [(1, { prim := (some { hdr := 38654711815, data := [1, 2], ts := 217, frac := 590 }) }), (40, { shad := (some { hdr := 90731190278, data := [1, 2], ts := 561, frac := 243 }) }), (63, { prim := (some { hdr := 64961382405, data := [1, 2], ts := 315, frac := 503 }) })], lock := (some 1), runBuf := 32, run := 8 })] }, 1, .host, 2, 63, 790792, true, by decide +kernel, by unfold CanReach; decide +kernel, by decide +kernel, by decide +kernel, by decide +kernel⟩,
   ⟨live, 1, .steward0, 2, 127, 790792, false, 790788, by decide +kernel, by unfold CanReach; decide +kernel, by decide +kernel, by decide +kernel, by decide +kernel, by decide +kernel⟩,
   ⟨live, 1, .transmit, 1, 65, 790788, false, 0, by decide +kernel, by unfold CanReach; decide +kernel, by decide +kernel, by decide +kernel, by decide +kernel, by decide +kernel⟩,
   ⟨(regs live [(0xC0104, 264)]), 0, .steward0, 1, 14, 786692, by decide +kernel, by unfold CanReach; decide +kernel, by decide +kernel, by decide +kernel⟩,
   ⟨(regs live [(0xC017C, 272)]), 0, (.cluDma 3), 31, 2, 786812, by decide +kernel, by unfold CanReach; decide +kernel, by decide +kernel, by decide +kernel, by decide +kernel⟩,
   ⟨(regs live [(0xC0100, 288)]), 0, (.cluDma 0), 0, 3, 786688, by decide +kernel, by unfold CanReach; decide +kernel, by decide +kernel, by decide +kernel, by decide +kernel⟩,
   ⟨live, 1, (.cluDma 3), 1, 127, 790788, by decide +kernel, by unfold CanReach; decide +kernel, by decide +kernel, by decide +kernel, by decide +kernel, by decide +kernel⟩,
   ⟨live, 0, (.cluDma 0), 0, 16, 786688, by decide +kernel, by unfold CanReach; decide +kernel, by decide +kernel⟩⟩

theorem witness_CanTransmitAndErrors_2 :
    (∃ (s : State) (n : Fin 4) (m : Master) (b : Fin 32) (w : W32) (k : Nat), k = (Reg.CAN_TXCTRL_REQ n.val b.val).addr ∧ CanReach m s k ∧ wbits (Reg.CAN_TXCTRL_CLR n.val b.val) w = 1 ∧ txState s n.val b.val = 7) ∧
    (∃ (s : State) (n : Fin 4), (canLive s n.val = false ∨ role s = rSTANDBY ∨ role s = rDETACHED ∨ on s (Reg.CAN_CTRL_LISTEN n.val) = true ∨ (txActive s n.val).isSome = true ∨ 255 < (fun t => rd t (Reg.CAN_STAT_TEC n.val)) s ∨ ∀ (b : Nat), ¬(fun b => b < 32 ∧ txState s (n.val) b = 1 ∧ ¬((can s n.val).runBuf = b ∧ 8 ≤ (can s n.val).run)) b)) ∧
    (∃ (s : State) (n : Fin 4) (c : Nat), (canLive s n.val = true) ∧ (role s ≠ rSTANDBY) ∧ (role s ≠ rDETACHED) ∧ (on s (Reg.CAN_CTRL_LISTEN n.val) = false) ∧ (txActive s n.val = none) ∧ ((fun t => rd t (Reg.CAN_STAT_TEC n.val)) s ≤ 255) ∧ (∃ b, (fun b => b < 32 ∧ txState s (n.val) b = 1 ∧ ¬((can s n.val).runBuf = b ∧ 8 ≤ (can s n.val).run)) b) ∧ ((fun b => b < 32 ∧ txState s (n.val) b = 1 ∧ ¬((can s n.val).runBuf = b ∧ 8 ≤ (can s n.val).run)) c)) ∧
    (∃ (s : State) (n : Fin 4), txActive s n.val = none) ∧
    (∃ (s : State) (n : Fin 4) (b : Nat) (j : Nat), txActive s n.val = some b ∧ j ≠ n.val) ∧
    (∃ (s : State) (n : Fin 4) (out : CanEnd) (b : Nat), txActive s n.val = some b ∧ out = CanEnd.sent) ∧
    (∃ (s : State) (n : Fin 4) (out : CanEnd) (b : Nat), txActive s n.val = some b ∧ out = CanEnd.lostArb) ∧
    (∃ (s : State) (n : Fin 4) (out : CanEnd) (b : Nat), txActive s n.val = some b ∧ out ≠ CanEnd.sent ∧ out ≠ CanEnd.lostArb) ∧
    (∃ (s : State) (n : Fin 4) (b : Nat), (b = (can s n.val).runBuf) ∧ (txState s (n.val) b ≠ 1 ∨ (can s n.val).run < 8)) ∧
    (∃ (s : State) (n : Fin 4) (b : Nat), (b = (can s n.val).runBuf) ∧ (b < 32) ∧ (8 ≤ (can s n.val).run) ∧ (txState s (n.val) b = 1)) ∧
    (∃ (s : State) (n : Fin 4), (canLive s n.val = false ∨ (fun t => rd t (Reg.CAN_STAT_TEC n.val)) s ≤ 255)) ∧
    (∃ (s : State) (n : Fin 4) (b : Nat), canLive s n.val = true ∧ (255 < (fun t => rd t (Reg.CAN_STAT_TEC n.val)) s) ∧ txActive s n.val = some b) :=
  ⟨⟨(regs live [(0xC1108, 368)]), 1, (.cluDma 3), 2, 4294967295, 790792, by decide +kernel, by unfold CanReach; decide +kernel, by decide +kernel, by decide +kernel⟩,
   ⟨live, 0, by (left; decide +kernel)⟩,
   ⟨sets live [(Reg.CAN_CTRL_EN 0, 1), (Reg.CAN_STAT_SYNC 0, 1), (Reg.CAN_TXCTRL_STATE 0 3, 1)], 0, 3, by decide +kernel, by decide +kernel, by decide +kernel, by decide +kernel, by decide +kernel, by decide +kernel, ⟨3, by decide +kernel⟩, by decide +kernel⟩,
   ⟨live, 1, by decide +kernel⟩,
   ⟨(regs live [(0xC1100, 288)]), 1, 0, 790592, by decide +kernel, by decide +kernel⟩,
   ⟨(regs live [(0xC0108, 288)]), 0, .sent, 2, by decide +kernel, by decide +kernel⟩,
   ⟨(regs live [(0xC1100, 288)]), 1, .lostArb, 0, by decide +kernel, by decide +kernel⟩,
   ⟨(regs live [(0xC017C, 288)]), 0, .bitError, 31, by decide +kernel, by decide +kernel, by decide +kernel⟩,
   ⟨live, 0, _, rfl, by decide +kernel⟩,
   ⟨{ sets live [(Reg.CAN_TXCTRL_STATE 0 3, 1)] with cans := [(0, { runBuf := 3, run := 8 })] }, 0, 3, by decide +kernel, by decide +kernel, by decide +kernel, by decide +kernel⟩,
   ⟨live, 0, by decide +kernel⟩,
   ⟨(regs live [(0xC0040, 5), (0xC004C, 589824), (0xC0100, 288)]), 0, 0, by decide +kernel, by decide +kernel, by decide +kernel⟩⟩

theorem witness_CanTransmitAndErrors_3 :
    (∃ (s : State) (n : Fin 4) (m : Master) (k : Nat) (j : Nat), k = (Reg.CAN_CTRL_RECOVER n.val).addr ∧ CanReach m s k ∧ j ≠ n.val) ∧
    (∃ (s : State) (n : Fin 4) (m : Master) (w : W32) (k : Nat), k = (Reg.CAN_CTRL_RECOVER n.val).addr ∧ CanReach m s k ∧ on s (Reg.CAN_CTRL_EN n.val) = true ∧ on (plainWrite s m k (BitVec.toNat w)) (Reg.CAN_CTRL_LISTEN n.val) ≠ on s (Reg.CAN_CTRL_LISTEN n.val)) ∧
    (∃ (s : State) (n : Fin 4) (m : Master) (w : W32) (k : Nat) (b : Nat), k = (Reg.CAN_CTRL_RECOVER n.val).addr ∧ CanReach m s k ∧ on s (Reg.CAN_CTRL_EN n.val) = true ∧ on (plainWrite s m k (BitVec.toNat w)) (Reg.CAN_CTRL_EN n.val) = false ∧ txActive s n.val = some b) ∧
    (∃ (s : State) (n : Fin 4), (domOn s dAUX = false ∨ (fun t => rd t (Reg.CAN_STAT_STATE n.val)) s ≠ 3)) ∧
    (∃ (s : State) (n : Fin 4), domOn s dAUX = true ∧ ((fun t => rd t (Reg.CAN_STAT_STATE n.val)) s = 3)) ∧
    (∃ (s : State) (n : Fin 4), canLive s n.val = false) :=
  ⟨⟨live, 0, .steward1, 786496, 786496, by decide +kernel, by unfold CanReach; decide +kernel, by decide +kernel⟩,
   ⟨(regs live [(0xC0040, 5)]), 0, .receive, 2, 786496, by decide +kernel, by unfold CanReach; decide +kernel, by decide +kernel, by decide +kernel⟩,
   ⟨(regs live [(0xC0040, 5), (0xC0100, 288)]), 0, .snapshot, 4, 786496, 0, by decide +kernel, by unfold CanReach; decide +kernel, by decide +kernel, by decide +kernel, by decide +kernel⟩,
   ⟨live, 0, by decide +kernel⟩,
   ⟨(regs live [(0xC004C, 393216)]), 0, by decide +kernel, by decide +kernel⟩,
   ⟨live, 1, by decide +kernel⟩⟩

theorem witness_CanReceive :
    (∃ (s : State) (n : Fin 4), canLive s n.val = false) ∧
    (∃ (s : State) (n : Fin 4) (f : CanFrame) (h : Nat), (canLive s n.val = true) ∧ (h = if bitOf 29 f.hdr.toNat = true then f.hdr.toNat else f.hdr.toNat / 2 ^ 29 * 2 ^ 29 + f.hdr.toNat % 2 ^ 11) ∧ (∀ b < 64, rxMatches s (n.val) h b = false)) ∧
    (∃ (s : State) (n : Fin 4) (f : CanFrame) (h : Nat) (b : Nat) (x : CanMsg) (c : Nat), (canLive s n.val = true) ∧ (h = if bitOf 29 f.hdr.toNat = true then f.hdr.toNat else f.hdr.toNat / 2 ^ 29 * 2 ^ 29 + f.hdr.toNat % 2 ^ 11) ∧ (b < 64) ∧ (rxMatches s (n.val) h b = true) ∧ (∀ c < b, rxMatches s (n.val) h c = false) ∧ (x = { hdr := h, data := List.take (dlcLen h) f.data, ts := BitVec.toNat f.ts, frac := f.frac.toNat }) ∧ (c < 64) ∧ (c ≠ b)) ∧
    (∃ (s : State) (n : Fin 4) (f : CanFrame) (h : Nat) (b : Nat) (x : CanMsg), (canLive s n.val = true) ∧ (h = if bitOf 29 f.hdr.toNat = true then f.hdr.toNat else f.hdr.toNat / 2 ^ 29 * 2 ^ 29 + f.hdr.toNat % 2 ^ 11) ∧ (b < 64) ∧ (rxMatches s (n.val) h b = true) ∧ (∀ c < b, rxMatches s (n.val) h c = false) ∧ (x = { hdr := h, data := List.take (dlcLen h) f.data, ts := BitVec.toNat f.ts, frac := f.frac.toNat }) ∧ ((can s n.val).lock = some b)) ∧
    (∃ (s : State) (n : Fin 4) (f : CanFrame) (h : Nat) (b : Nat) (x : CanMsg), (canLive s n.val = true) ∧ (h = if bitOf 29 f.hdr.toNat = true then f.hdr.toNat else f.hdr.toNat / 2 ^ 29 * 2 ^ 29 + f.hdr.toNat % 2 ^ 11) ∧ (b < 64) ∧ (rxMatches s (n.val) h b = true) ∧ (∀ c < b, rxMatches s (n.val) h c = false) ∧ (x = { hdr := h, data := List.take (dlcLen h) f.data, ts := BitVec.toNat f.ts, frac := f.frac.toNat }) ∧ ((can s n.val).lock ≠ some b)) ∧
    (∃ (s : State) (n : Fin 4) (m : Master) (w : W32) (new : Option Nat) (j : Nat), CanReach m s (Reg.CAN_BSEL_RX n.val).addr ∧ (new = if bitOf 6 (BitVec.toNat w) = true then some (bits 5 0 (BitVec.toNat w)) else none) ∧ j ≠ n.val) ∧
    (∃ (s : State) (n : Fin 4) (m : Master) (w : W32) (new : Option Nat) (b : Nat), CanReach m s (Reg.CAN_BSEL_RX n.val).addr ∧ (new = if bitOf 6 (BitVec.toNat w) = true then some (bits 5 0 (BitVec.toNat w)) else none) ∧ ((can s n.val).lock = none ∨ (can s n.val).lock = new) ∧ b < 64) ∧
    (∃ (s : State) (n : Fin 4) (m : Master) (w : W32) (new : Option Nat) (b : Nat) (c : Nat), CanReach m s (Reg.CAN_BSEL_RX n.val).addr ∧ (new = if bitOf 6 (BitVec.toNat w) = true then some (bits 5 0 (BitVec.toNat w)) else none) ∧ b < 64 ∧ (can s n.val).lock = some b ∧ new ≠ some b ∧ c < 64 ∧ c ≠ b) ∧
    (∃ (s : State) (n : Fin 4) (m : Master) (w : W32) (b : Nat) (j : Nat), (CanReach m s (Reg.CAN_RXREL_BUF n.val).addr) ∧ (b = bits 5 0 (BitVec.toNat w)) ∧ (j ≠ n.val)) ∧
    (∃ (s : State) (n : Fin 4) (m : Master) (w : W32) (b : Nat) (c : Nat), (CanReach m s (Reg.CAN_RXREL_BUF n.val).addr) ∧ (b = bits 5 0 (BitVec.toNat w)) ∧ (c < 64) ∧ (c ≠ b)) :=
  ⟨⟨live, 0, by decide +kernel⟩,
   ⟨sets live [(Reg.CAN_CTRL_EN 0, 1), (Reg.CAN_STAT_SYNC 0, 1)], 0, { hdr := 0x20000005, data := [1, 2], ts := 7, frac := 9 }, 0x20000005, by decide +kernel, by decide +kernel, by decide +kernel⟩,
   ⟨sets live [(Reg.CAN_CTRL_EN 0, 1), (Reg.CAN_STAT_SYNC 0, 1), (Reg.CAN_RXID_EN 0 0, 1)], 0, { hdr := 0x20000005, data := [1, 2], ts := 7, frac := 9 }, 0x20000005, 0, _, 1, by decide +kernel, by decide +kernel, by decide +kernel, by decide +kernel, by decide +kernel, rfl, by decide +kernel, by decide +kernel⟩,
   ⟨{ sets live [(Reg.CAN_CTRL_EN 0, 1), (Reg.CAN_STAT_SYNC 0, 1), (Reg.CAN_RXID_EN 0 0, 1)] with cans := [(0, { lock := some 0 })] }, 0, { hdr := 0x20000005, data := [1, 2], ts := 7, frac := 9 }, 0x20000005, 0, _, by decide +kernel, by decide +kernel, by decide +kernel, by decide +kernel, by decide +kernel, rfl, by decide +kernel⟩,
   ⟨sets live [(Reg.CAN_CTRL_EN 0, 1), (Reg.CAN_STAT_SYNC 0, 1), (Reg.CAN_RXID_EN 0 0, 1)], 0, { hdr := 0x20000005, data := [1, 2], ts := 7, frac := 9 }, 0x20000005, 0, _, by decide +kernel, by decide +kernel, by decide +kernel, by decide +kernel, by decide +kernel, rfl, by decide +kernel⟩,
   ⟨live, 1, .dmaEngine, 3, none, 786812, by unfold CanReach; decide +kernel, by decide +kernel, by decide +kernel⟩,
   ⟨live, 0, .host, 16384, none, 0, by unfold CanReach; decide +kernel, by decide +kernel, by decide +kernel, by decide +kernel⟩,
   ⟨{ live with cans := [(1, { lock := (some 0) })] }, 1, .host, 1, none, 0, 1, by unfold CanReach; decide +kernel, by decide +kernel, by decide +kernel, by decide +kernel, by decide +kernel, by decide +kernel, by decide +kernel⟩,
   ⟨live, 0, .host, 5, 5, 1, by unfold CanReach; decide +kernel, by decide +kernel, by decide +kernel⟩,
   ⟨live, 0, .host, 5, 5, 63, by unfold CanReach; decide +kernel, by decide +kernel, by decide +kernel, by decide +kernel⟩⟩

theorem witness_PowerRequestsAndTransitions_1 :
    (∃ (s : State) (m : Master) (w : W32) (d : Nat) (v : Nat), CanReach m s Reg.PWR_REQ_DOM.addr ∧ d = bits 3 0 (BitVec.toNat w) ∧ (v = if bits 9 8 (BitVec.toNat w) = 3 then 0 else bits 9 8 (BitVec.toNat w)) ∧ ¬srcBad m d = false) ∧
    (∃ (s : State) (m : Master) (w : W32) (d : Nat) (v : Nat) (e : Nat), CanReach m s Reg.PWR_REQ_DOM.addr ∧ d = bits 3 0 (BitVec.toNat w) ∧ (v = if bits 9 8 (BitVec.toNat w) = 3 then 0 else bits 9 8 (BitVec.toNat w)) ∧ srcBad m d = false ∧ inProgress (dom s d) = some v ∧ e ≠ d) ∧
    (∃ (s : State) (m : Master) (w : W32) (d : Nat) (v : Nat) (p : Nat) (e : Nat), CanReach m s Reg.PWR_REQ_DOM.addr ∧ d = bits 3 0 (BitVec.toNat w) ∧ (v = if bits 9 8 (BitVec.toNat w) = 3 then 0 else bits 9 8 (BitVec.toNat w)) ∧ srcBad m d = false ∧ inProgress (dom s d) = some p ∧ p ≠ v ∧ e ≠ d) ∧
    (∃ (s : State) (m : Master) (w : W32) (d : Nat) (v : Nat), CanReach m s Reg.PWR_REQ_DOM.addr ∧ d = bits 3 0 (BitVec.toNat w) ∧ (v = if bits 9 8 (BitVec.toNat w) = 3 then 0 else bits 9 8 (BitVec.toNat w)) ∧ srcBad m d = false ∧ inProgress (dom s d) = none ∧ settled (dom s d).st = some v) ∧
    (∃ (s : State) (m : Master) (w : W32) (d : Nat) (v : Nat), (CanReach m s Reg.PWR_REQ_DOM.addr) ∧ (d = bits 3 0 (BitVec.toNat w)) ∧ (v = if bits 9 8 (BitVec.toNat w) = 3 then 0 else bits 9 8 (BitVec.toNat w)) ∧ (srcBad m d = false) ∧ (inProgress (dom s d) = none) ∧ (settled (dom s d).st ≠ some v) ∧ ((dom s d).st = PSt.off) ∧ (v = 1)) ∧
    (∃ (s : State) (m : Master) (w : W32) (d : Nat) (v : Nat), CanReach m s Reg.PWR_REQ_DOM.addr ∧ d = bits 3 0 (BitVec.toNat w) ∧ (v = if bits 9 8 (BitVec.toNat w) = 3 then 0 else bits 9 8 (BitVec.toNat w)) ∧ srcBad m d = false ∧ inProgress (dom s d) = none ∧ settled (dom s d).st ≠ some v ∧ (¬((dom s d).st = PSt.off ∧ v = 1)) ∧ depOk s d v = false) ∧
    (∃ (s : State) (m : Master) (w : W32) (d : Nat) (v : Nat) (e : Nat), CanReach m s Reg.PWR_REQ_DOM.addr ∧ d = bits 3 0 (BitVec.toNat w) ∧ (v = if bits 9 8 (BitVec.toNat w) = 3 then 0 else bits 9 8 (BitVec.toNat w)) ∧ srcBad m d = false ∧ inProgress (dom s d) = none ∧ settled (dom s d).st ≠ some v ∧ (¬((dom s d).st = PSt.off ∧ v = 1)) ∧ depOk s d v = true ∧ e ≠ d) ∧
    (∃ (s : State) (m : Master) (w : W32) (d : Nat) (v : Nat), CanReach m s Reg.PWR_REQ_DOM.addr ∧ d = bits 3 0 (BitVec.toNat w) ∧ (v = if bits 9 8 (BitVec.toNat w) = 3 then 0 else bits 9 8 (BitVec.toNat w)) ∧ srcBad m d = false ∧ inProgress (dom s d) = none ∧ settled (dom s d).st ≠ some v ∧ (¬((dom s d).st = PSt.off ∧ v = 1)) ∧ depOk s d v = true ∧ (¬(5 ≤ d ∧ d ≤ 8 ∧ domOn s d = true ∧ v < 2))) ∧
    (∃ (s : State) (m : Master) (w : W32) (d : Nat) (v : Nat), CanReach m s Reg.PWR_REQ_DOM.addr ∧ d = bits 3 0 (BitVec.toNat w) ∧ (v = if bits 9 8 (BitVec.toNat w) = 3 then 0 else bits 9 8 (BitVec.toNat w)) ∧ srcBad m d = false ∧ inProgress (dom s d) = none ∧ settled (dom s d).st ≠ some v ∧ (¬((dom s d).st = PSt.off ∧ v = 1)) ∧ depOk s d v = true ∧ 5 ≤ d ∧ d ≤ 8 ∧ domOn s d = true ∧ v < 2) ∧
    (∃ (s : State) (d : Fin 16), (settled (dom s d.val).st).isSome = true) ∧
    (∃ (s : State) (d : Fin 16), (dom s d.val).pend = none ∧ (dom s d.val).st = PSt.toRet ∧ (dom s d.val).leave = none) ∧
    (∃ (s : State) (d : Fin 16) (e : Nat), (dom s d.val).pend = none ∧ (dom s d.val).st = PSt.toRet ∧ e ≠ d.val) :=
  ⟨⟨live, .steward0, 4096, 0, 0, by unfold CanReach; decide +kernel, by decide +kernel, by decide +kernel, by decide +kernel⟩,
   ⟨(setDom live 1 { leave := (some 0) }), (.cluDma 0), 1, 1, 0, 1099511627773, by unfold CanReach; decide +kernel, by decide +kernel, by decide +kernel, by decide +kernel, by decide +kernel, by decide +kernel⟩,
   ⟨(setDom live 1 { st := .powerUp }), .steward0, 257, 1, 1, 2, 56, by unfold CanReach; decide +kernel, by decide +kernel, by decide +kernel, by decide +kernel, by decide +kernel, by decide +kernel, by decide +kernel⟩,
   ⟨live, .host, 513, 1, 2, by unfold CanReach; decide +kernel, by decide +kernel, by decide +kernel, by decide +kernel, by decide +kernel, by decide +kernel⟩,
   ⟨setDom live 9 {}, .host, 0x109, 9, 1, by unfold CanReach; decide +kernel, by decide +kernel, by decide +kernel, by decide +kernel, by decide +kernel, by decide +kernel, by decide +kernel, by decide +kernel⟩,
   ⟨live, .device, 9, 9, 0, by unfold CanReach; decide +kernel, by decide +kernel, by decide +kernel, by decide +kernel, by decide +kernel, by decide +kernel, by decide +kernel, by decide +kernel⟩,
   ⟨live, .host, 8, 8, 0, 512, by unfold CanReach; decide +kernel, by decide +kernel, by decide +kernel, by decide +kernel, by decide +kernel, by decide +kernel, by decide +kernel, by decide +kernel, by decide +kernel⟩,
   ⟨live, .snapshot, 4294967295, 15, 0, by unfold CanReach; decide +kernel, by decide +kernel, by decide +kernel, by decide +kernel, by decide +kernel, by decide +kernel, by decide +kernel, by decide +kernel, by decide +kernel⟩,
   ⟨live, .steward1, 774, 6, 0, by unfold CanReach; decide +kernel, by decide +kernel, by decide +kernel, by decide +kernel, by decide +kernel, by decide +kernel, by decide +kernel, by decide +kernel, by decide +kernel, by decide +kernel, by decide +kernel, by decide +kernel⟩,
   ⟨live, 6, by decide +kernel⟩,
   ⟨(setDom live 9 { st := .toRet }), 9, by decide +kernel, by decide +kernel, by decide +kernel⟩,
   ⟨(setDom live 12 { st := .toRet }), 12, 1, by decide +kernel, by decide +kernel, by decide +kernel⟩⟩

theorem witness_PowerRequestsAndTransitions_2 :
    (∃ (s : State) (d : Fin 16) (e : Nat), (dom s d.val).pend = none ∧ (dom s d.val).st = PSt.toOff ∧ e ≠ d.val) ∧
    (∃ (s : State) (d : Fin 16) (x : Nat × Nat) (a : Nat), ((dom s d.val).pend = none) ∧ ((dom s d.val).st = PSt.toOff) ∧ (x ∈ domMem d.val) ∧ (x.1 ≤ a) ∧ (a < x.2)) ∧
    (∃ (s : State) (d : Fin 16), (dom s d.val).pend = none ∧ (dom s d.val).st = PSt.toOff ∧ (dom s d.val).leave = none) ∧
    (∃ (s : State) (d : Fin 16) (k : Nat), (dom s d.val).pend = none ∧ (dom s d.val).st = PSt.toOff ∧ (blkOf (k / 4096)).isSome = true ∧ pageDom (k / 4096) = d.val ∧ (d.val = dHOST → ∀ x ∈ s.stalled, x.dom ≠ d.val) ∧ k ≠ Reg.SUMP_TAIL_WPTR_INDEX.addr ∧ k ≠ 728064) ∧
    (∃ (s : State) (d : Fin 16) (e : Nat), (dom s d.val).pend = none ∧ ((dom s d.val).st = PSt.waking ∨ (dom s d.val).st = PSt.powerUp) ∧ e ≠ d.val) ∧
    (∃ (s : State) (c : Fin 4), ((dom s (dCLU c.val)).leave = none ∨ domOn s (dCLU c.val) = false ∨ cluQuiet s c.val = false)) ∧
    (∃ (s : State) (c : Fin 4) (v : Nat) (p : Nat), (dom s (dCLU c.val)).leave = some v ∧ v < 2 ∧ domOn s (dCLU c.val) = true ∧ cluQuiet s c.val = true ∧ p < 4) ∧
    (∃ (s : State) (m : Master) (w : W32), CanReach m s Reg.PWR_CMD_STANDBY.addr ∧ bitOf 0 (BitVec.toNat w) = false) ∧
    (∃ (s : State) (m : Master) (w : W32) (t : State), CanReach m s Reg.PWR_CMD_STANDBY.addr ∧ bitOf 0 w.toNat = true ∧ exec (.standby m w) s = .next t ∧ (300 < rd t Reg.AO_BUDGET_MAX ∧ ¬(on s Reg.AO_REG_STBY_FULL = true ∧ on s Reg.AO_REG_VAUX_OK = true))) ∧
    (∃ (s : State) (m : Master) (w : W32) (t : State), CanReach m s Reg.PWR_CMD_STANDBY.addr ∧ bitOf 0 w.toNat = true ∧ exec (.standby m w) s = .next t ∧ ¬(300 < rd t Reg.AO_BUDGET_MAX ∧ ¬(on s Reg.AO_REG_STBY_FULL = true ∧ on s Reg.AO_REG_VAUX_OK = true)) ∧ role s = rACTIVE) ∧
    (∃ (s : State) (m : Master) (w : W32) (t : State), CanReach m s Reg.PWR_CMD_STANDBY.addr ∧ bitOf 0 w.toNat = true ∧ exec (.standby m w) s = .next t ∧ ¬(300 < rd t Reg.AO_BUDGET_MAX ∧ ¬(on s Reg.AO_REG_STBY_FULL = true ∧ on s Reg.AO_REG_VAUX_OK = true)) ∧ role s ≠ rACTIVE ∧ (s.standby ≠ Standby.none ∨ s.tests.any (fun r => r.running) = true ∨ (s.boot.running = true ∧ on s Reg.BOOT_STAT_DONE = false))) ∧
    (∃ (s : State) (m : Master) (w : W32) (t : State), CanReach m s Reg.PWR_CMD_STANDBY.addr ∧ bitOf 0 w.toNat = true ∧ exec (.standby m w) s = .next t ∧ ¬(300 < rd t Reg.AO_BUDGET_MAX ∧ ¬(on s Reg.AO_REG_STBY_FULL = true ∧ on s Reg.AO_REG_VAUX_OK = true)) ∧ role s ≠ rACTIVE ∧ ¬(s.standby ≠ Standby.none ∨ s.tests.any (fun r => r.running) = true ∨ (s.boot.running = true ∧ on s Reg.BOOT_STAT_DONE = false)) ∧ domOn s dNET = true) :=
  ⟨⟨(setDom live 9 { st := .toOff }), 9, 0, by decide +kernel, by decide +kernel, by decide +kernel⟩,
   ⟨setDom live 9 { st := .toOff }, 9, (domMem 9).headD (0, 0), ((domMem 9).headD (0, 0)).1, by decide +kernel, by decide +kernel, by decide +kernel, by decide +kernel, by decide +kernel⟩,
   ⟨(setDom live 2 { st := .toOff }), 2, by decide +kernel, by decide +kernel, by decide +kernel⟩,
   ⟨(setDom live 3 { st := .toOff }), 3, 9, by decide +kernel, by decide +kernel, by decide +kernel, by decide +kernel, by decide +kernel, by decide +kernel, by decide +kernel⟩,
   ⟨(setDom live 8 { st := .waking }), 8, 5645271157, by decide +kernel, by decide +kernel, by decide +kernel⟩,
   ⟨live, 2, by decide +kernel⟩,
   ⟨(setDom live 6 { st := .on, leave := (some 0) }), 1, 0, 0, by decide +kernel, by decide +kernel, by decide +kernel, by decide +kernel, by decide +kernel⟩,
   ⟨live, .acq, 774, by unfold CanReach; decide +kernel, by decide +kernel⟩,
   ⟨budgetBad, .host, 1, _, by unfold CanReach; decide +kernel, by decide +kernel, rfl, by decide +kernel⟩,
   ⟨wr live Reg.PEER_STAT_ROLE rACTIVE, .host, 1, _, by unfold CanReach; decide +kernel, by decide +kernel, rfl, by decide +kernel⟩,
   ⟨{ live with standby := .entering }, .host, 1, _, by unfold CanReach; decide +kernel, by decide +kernel, rfl, by decide +kernel⟩,
   ⟨live, .host, 1, _, by unfold CanReach; decide +kernel, by decide +kernel, rfl, by decide +kernel⟩⟩

theorem witness_PowerRequestsAndTransitions_3 :
    (∃ (s : State), s.standby ≠ Standby.entering) ∧
    (∃ (s : State) (d : Nat), s.standby = Standby.entering ∧ d ≠ 0 ∧ d < 16) ∧
    (∃ (s : State), s.standby ≠ Standby.pwrHeld) ∧
    (∃ (s : State), s.standby = Standby.pwrHeld) ∧
    (∃ (s : State) (src : WakeSrc) (code : Nat) (armed : Bool), ((code, armed) = match src with | WakeSrc.alarm => (5, on s Reg.AO_WAKEEN_ALARM) | WakeSrc.fieldReturn => (6, on s Reg.AO_WAKEEN_CMP4 && on s Reg.AO_CMP4_EN) | WakeSrc.wakeInput => (7, on s Reg.AO_WAKEEN_CMP5 && on s Reg.AO_CMP5_EN) | WakeSrc.trackError k => (8, on s Reg.AO_WAKEEN_TRKERR)) ∧ (armed = false ∨ s.standby = Standby.none ∨ s.standby = Standby.pwrHeld ∨ s.standby = Standby.entering ∧ s.ao.wake.isSome = true)) ∧
    (∃ (s : State) (src : WakeSrc) (code : Nat) (armed : Bool), ((code, armed) = match src with | WakeSrc.alarm => (5, on s Reg.AO_WAKEEN_ALARM) | WakeSrc.fieldReturn => (6, on s Reg.AO_WAKEEN_CMP4 && on s Reg.AO_CMP4_EN) | WakeSrc.wakeInput => (7, on s Reg.AO_WAKEEN_CMP5 && on s Reg.AO_CMP5_EN) | WakeSrc.trackError k => (8, on s Reg.AO_WAKEEN_TRKERR)) ∧ armed = true ∧ s.standby = Standby.asleep) ∧
    (∃ (s : State) (src : WakeSrc) (code : Nat) (armed : Bool), ((code, armed) = match src with | WakeSrc.alarm => (5, on s Reg.AO_WAKEEN_ALARM) | WakeSrc.fieldReturn => (6, on s Reg.AO_WAKEEN_CMP4 && on s Reg.AO_CMP4_EN) | WakeSrc.wakeInput => (7, on s Reg.AO_WAKEEN_CMP5 && on s Reg.AO_CMP5_EN) | WakeSrc.trackError k => (8, on s Reg.AO_WAKEEN_TRKERR)) ∧ armed = true ∧ s.standby = Standby.entering ∧ s.ao.wake = none) ∧
    (∃ (a : Nat), 268435456 ≤ a ∧ a < 268439552) ∧
    (∃ (k : Nat), k / 4096 = 2 ∧ k ≠ Reg.AO_REG_FULL.addr) ∧
    (∃ (k : Nat), k / 4096 ≠ 2) ∧
    (∃ (s : State) (pll : Pll), pllServes s pll = false) ∧
    (∃ (s : State) (pll : Pll), pllServes s pll = true ∧ domOn s dSTEWARD = true) :=
  ⟨⟨live, by decide +kernel⟩,
   ⟨{ live with standby := .entering }, 2, by decide +kernel, by decide +kernel, by decide +kernel⟩,
   ⟨live, by decide +kernel⟩,
   ⟨{ live with standby := .pwrHeld }, by decide +kernel⟩,
   ⟨live, (.trackError 1), 8, false, by decide +kernel, by decide +kernel⟩,
   ⟨{ (regs live [(0x205C, 1), (0x2060, 4)]) with standby := .asleep }, .wakeInput, 7, true, by decide +kernel, by decide +kernel, by decide +kernel⟩,
   ⟨{ (regs live [(0x205C, 1), (0x2060, 4)]) with standby := .entering }, .wakeInput, 7, true, by decide +kernel, by decide +kernel, by decide +kernel, by decide +kernel⟩,
   ⟨268435456, by decide +kernel, by decide +kernel⟩,
   ⟨8192, by decide +kernel, by decide +kernel⟩,
   ⟨0, by decide +kernel⟩,
   ⟨(setDom live 9 { }), .net, by decide +kernel⟩,
   ⟨live, .link, by decide +kernel, by decide +kernel⟩⟩

theorem witness_SurgeVoltageAndPlan_1 :
    (∃ (s : State) (m : Master) (w : W32), CanReach m s Reg.AGE_SURGE.addr ∧ bitOf 0 (BitVec.toNat w) = on s Reg.AGE_SURGE_REQ) ∧
    (∃ (s : State) (m : Master) (w : W32), CanReach m s Reg.AGE_SURGE.addr ∧ bitOf 0 (BitVec.toNat w) = true ∧ on s Reg.AGE_SURGE_REQ = false ∧ (¬(on s Reg.AGE_SURGE_PEND = false ∧ on s Reg.AGE_SURGE_GRANTED = false ∧ s.surge.fallAt = false))) ∧
    (∃ (s : State) (m : Master) (w : W32), (CanReach m s Reg.AGE_SURGE.addr) ∧ (bitOf 0 (BitVec.toNat w) = true) ∧ (on s Reg.AGE_SURGE_REQ = false) ∧ (on s Reg.AGE_SURGE_PEND = false ∧ on s Reg.AGE_SURGE_GRANTED = false ∧ s.surge.fallAt = false) ∧ (∀ (c : Nat), ¬(fun u c => c = 1 ∧ 1080 < sgn 16 (rd u Reg.AGE_HOTSPOT_TEMP) ∨ c = 2 ∧ rd u Reg.AGE_IMAX_LIMIT * 8 < rd u Reg.AGE_IOUT_CURRENT * 10 ∨ c = 3 ∧ rd u Reg.AGE_SURGE_H_LEFT = 0 ∨ c = 4 ∧ u.surge.coolMs ≠ 0 ∨ c = 5 ∧ (on u Reg.AGE_PLAN_SURGE_OK = false ∨ on u Reg.AGE_PLAN_CONS = true)) s c) ∧ (inService s = true)) ∧
    (∃ (s : State) (m : Master) (w : W32), (CanReach m s Reg.AGE_SURGE.addr) ∧ (bitOf 0 (BitVec.toNat w) = true) ∧ (on s Reg.AGE_SURGE_REQ = false) ∧ (on s Reg.AGE_SURGE_PEND = false ∧ on s Reg.AGE_SURGE_GRANTED = false ∧ s.surge.fallAt = false) ∧ (∃ c, (fun u c => c = 1 ∧ 1080 < sgn 16 (rd u Reg.AGE_HOTSPOT_TEMP) ∨ c = 2 ∧ rd u Reg.AGE_IMAX_LIMIT * 8 < rd u Reg.AGE_IOUT_CURRENT * 10 ∨ c = 3 ∧ rd u Reg.AGE_SURGE_H_LEFT = 0 ∨ c = 4 ∧ u.surge.coolMs ≠ 0 ∨ c = 5 ∧ (on u Reg.AGE_PLAN_SURGE_OK = false ∨ on u Reg.AGE_PLAN_CONS = true)) s c) ∧ (inService s = true)) ∧
    (∃ (s : State) (m : Master) (w : W32), CanReach m s Reg.AGE_SURGE.addr ∧ bitOf 0 (BitVec.toNat w) = false ∧ on s Reg.AGE_SURGE_REQ = true ∧ (¬(on s Reg.AGE_SURGE_PEND = true ∨ on s Reg.AGE_SURGE_GRANTED = true ∧ s.surge.fallAt = false))) ∧
    (∃ (s : State) (m : Master) (w : W32), CanReach m s Reg.AGE_SURGE.addr ∧ bitOf 0 (BitVec.toNat w) = false ∧ on s Reg.AGE_SURGE_REQ = true ∧ (on s Reg.AGE_SURGE_PEND = true ∨ on s Reg.AGE_SURGE_GRANTED = true ∧ s.surge.fallAt = false) ∧ inService s = true) ∧
    (∃ (s : State) (m : Master) (w : W32), CanReach m s Reg.AGE_SURGE.addr ∧ bitOf 0 (BitVec.toNat w) = false ∧ on s Reg.AGE_SURGE_REQ = true ∧ (on s Reg.AGE_SURGE_PEND = true ∨ on s Reg.AGE_SURGE_GRANTED = true ∧ s.surge.fallAt = false) ∧ on s Reg.AGE_SURGE_PEND = true) ∧
    (∃ (s : State) (m : Master) (w : W32), CanReach m s Reg.AGE_SURGE.addr ∧ bitOf 0 (BitVec.toNat w) = false ∧ on s Reg.AGE_SURGE_REQ = true ∧ (on s Reg.AGE_SURGE_PEND = true ∨ on s Reg.AGE_SURGE_GRANTED = true ∧ s.surge.fallAt = false) ∧ on s Reg.AGE_SURGE_PEND = false) ∧
    (∃ (s : State) (m : Master) (w : W32), CanReach m s Reg.AGE_SURGE.addr ∧ bitOf 0 (BitVec.toNat w) = false ∧ on s Reg.AGE_SURGE_REQ = true ∧ (on s Reg.AGE_SURGE_PEND = true ∨ on s Reg.AGE_SURGE_GRANTED = true ∧ s.surge.fallAt = false) ∧ domOn s dSTEWARD = true) ∧
    (∃ (s : State), (on s Reg.AGE_SURGE_PEND = false ∨ s.surge.vdd ≠ s.surge.target)) ∧
    (∃ (s : State), on s Reg.AGE_SURGE_PEND = true ∧ s.surge.vdd = s.surge.target) ∧
    (∃ (s : State), domOn s dSTEWARD = false) :=
  ⟨⟨(regs live [(0x3050, 3932161)]), .steward1, 3, by unfold CanReach; decide +kernel, by decide +kernel⟩,
   ⟨(regs live [(0x3050, 3932164)]), .snapshot, 1, by unfold CanReach; decide +kernel, by decide +kernel, by decide +kernel, by decide +kernel⟩,
   ⟨(regs live [(0x3044, 2147483648), (0x3060, 65536), (0x78068, 1)]), .dmaEngine, 1, by unfold CanReach; decide +kernel, by decide +kernel, by decide +kernel, by decide +kernel, fun c h => by (rcases h with h | h | h | h | h <;> (obtain ⟨rfl, h⟩ := h; revert h; decide +kernel)), by decide +kernel⟩,
   ⟨(regs live [(0x78068, 1)]), .steward0, 3, by unfold CanReach; decide +kernel, by decide +kernel, by decide +kernel, by decide +kernel, ⟨5, by decide +kernel⟩, by decide +kernel⟩,
   ⟨(regs live [(0x3050, 3932161)]), .steward1, 125829120, by unfold CanReach; decide +kernel, by decide +kernel, by decide +kernel, by decide +kernel⟩,
   ⟨(regs live [(0x3050, 3932165), (0x78068, 1)]), .dmaEngine, 0, by unfold CanReach; decide +kernel, by decide +kernel, by decide +kernel, by decide +kernel, by decide +kernel⟩,
   ⟨(regs live [(0x3050, 3932165)]), .safetyProc, 2684354560, by unfold CanReach; decide +kernel, by decide +kernel, by decide +kernel, by decide +kernel, by decide +kernel⟩,
   ⟨(regs live [(0x3050, 3932163)]), .host, 0, by unfold CanReach; decide +kernel, by decide +kernel, by decide +kernel, by decide +kernel, by decide +kernel⟩,
   ⟨(regs live [(0x3050, 3932165)]), .acq, 0, by unfold CanReach; decide +kernel, by decide +kernel, by decide +kernel, by decide +kernel, by decide +kernel⟩,
   ⟨live, by decide +kernel⟩,
   ⟨(regs live [(0x3050, 3932164)]), by decide +kernel, by decide +kernel⟩,
   ⟨(setDom live 3 { }), by decide +kernel⟩⟩

theorem witness_SurgeVoltageAndPlan_2 :
    (∃ (s : State) (hot : BitVec 16) (current : BitVec 16) (iout : Nat) (cool : Nat), domOn s dSTEWARD = true ∧ (iout = if on s Reg.AGE_IMAX_EST = true ∨ on s Reg.AGE_PMB_VID = true then current.toNat else rd s Reg.AGE_IOUT_CURRENT) ∧ cool = s.surge.coolMs - 1 ∧ (on s Reg.AGE_SURGE_PEND = true ∨ on s Reg.AGE_SURGE_GRANTED = true ∧ s.surge.fallAt = false) ∧ hot.toInt < 1120 ∧ iout < rd s Reg.AGE_IMAX_LIMIT ∧ rd s Reg.AGE_SURGE_H_LEFT ≠ 0) ∧
    (∃ (s : State) (hot : BitVec 16) (current : BitVec 16) (iout : Nat) (cool : Nat), domOn s dSTEWARD = true ∧ (iout = if on s Reg.AGE_IMAX_EST = true ∨ on s Reg.AGE_PMB_VID = true then current.toNat else rd s Reg.AGE_IOUT_CURRENT) ∧ cool = s.surge.coolMs - 1 ∧ (on s Reg.AGE_SURGE_PEND = true ∨ on s Reg.AGE_SURGE_GRANTED = true ∧ s.surge.fallAt = false) ∧ 1120 ≤ hot.toInt ∧ inService s = true) ∧
    (∃ (s : State) (hot : BitVec 16) (current : BitVec 16) (iout : Nat) (cool : Nat), domOn s dSTEWARD = true ∧ (iout = if on s Reg.AGE_IMAX_EST = true ∨ on s Reg.AGE_PMB_VID = true then current.toNat else rd s Reg.AGE_IOUT_CURRENT) ∧ cool = s.surge.coolMs - 1 ∧ (on s Reg.AGE_SURGE_PEND = true ∨ on s Reg.AGE_SURGE_GRANTED = true ∧ s.surge.fallAt = false) ∧ 1120 ≤ hot.toInt ∧ on s Reg.AGE_SURGE_PEND = true) ∧
    (∃ (s : State) (hot : BitVec 16) (current : BitVec 16) (iout : Nat) (cool : Nat), domOn s dSTEWARD = true ∧ (iout = if on s Reg.AGE_IMAX_EST = true ∨ on s Reg.AGE_PMB_VID = true then current.toNat else rd s Reg.AGE_IOUT_CURRENT) ∧ cool = s.surge.coolMs - 1 ∧ (on s Reg.AGE_SURGE_PEND = true ∨ on s Reg.AGE_SURGE_GRANTED = true ∧ s.surge.fallAt = false) ∧ 1120 ≤ hot.toInt ∧ on s Reg.AGE_SURGE_PEND = false) ∧
    (∃ (s : State) (hot : BitVec 16) (current : BitVec 16) (iout : Nat) (cool : Nat), domOn s dSTEWARD = true ∧ (iout = if on s Reg.AGE_IMAX_EST = true ∨ on s Reg.AGE_PMB_VID = true then current.toNat else rd s Reg.AGE_IOUT_CURRENT) ∧ cool = s.surge.coolMs - 1 ∧ (on s Reg.AGE_SURGE_PEND = true ∨ on s Reg.AGE_SURGE_GRANTED = true ∧ s.surge.fallAt = false) ∧ 1120 ≤ hot.toInt ∧ domOn s dSTEWARD = true) ∧
    (∃ (s : State) (hot : BitVec 16) (current : BitVec 16) (iout : Nat) (cool : Nat), domOn s dSTEWARD = true ∧ (iout = if on s Reg.AGE_IMAX_EST = true ∨ on s Reg.AGE_PMB_VID = true then current.toNat else rd s Reg.AGE_IOUT_CURRENT) ∧ cool = s.surge.coolMs - 1 ∧ (on s Reg.AGE_SURGE_PEND = true ∨ on s Reg.AGE_SURGE_GRANTED = true ∧ s.surge.fallAt = false) ∧ hot.toInt < 1120 ∧ rd s Reg.AGE_IMAX_LIMIT ≤ iout ∧ inService s = true) ∧
    (∃ (s : State) (hot : BitVec 16) (current : BitVec 16) (iout : Nat) (cool : Nat), (domOn s dSTEWARD = true) ∧ (iout = if on s Reg.AGE_IMAX_EST = true ∨ on s Reg.AGE_PMB_VID = true then current.toNat else rd s Reg.AGE_IOUT_CURRENT) ∧ (cool = s.surge.coolMs - 1) ∧ (on s Reg.AGE_SURGE_PEND = true ∨ on s Reg.AGE_SURGE_GRANTED = true ∧ s.surge.fallAt = false) ∧ (hot.toInt < 1120) ∧ (rd s Reg.AGE_IMAX_LIMIT ≤ iout) ∧ (on s Reg.AGE_SURGE_PEND = true)) ∧
    (∃ (s : State) (hot : BitVec 16) (current : BitVec 16) (iout : Nat) (cool : Nat), (domOn s dSTEWARD = true) ∧ (iout = if on s Reg.AGE_IMAX_EST = true ∨ on s Reg.AGE_PMB_VID = true then current.toNat else rd s Reg.AGE_IOUT_CURRENT) ∧ (cool = s.surge.coolMs - 1) ∧ (on s Reg.AGE_SURGE_PEND = true ∨ on s Reg.AGE_SURGE_GRANTED = true ∧ s.surge.fallAt = false) ∧ (hot.toInt < 1120) ∧ (rd s Reg.AGE_IMAX_LIMIT ≤ iout) ∧ (on s Reg.AGE_SURGE_PEND = false)) ∧
    (∃ (s : State) (hot : BitVec 16) (current : BitVec 16) (iout : Nat) (cool : Nat), (domOn s dSTEWARD = true) ∧ (iout = if on s Reg.AGE_IMAX_EST = true ∨ on s Reg.AGE_PMB_VID = true then current.toNat else rd s Reg.AGE_IOUT_CURRENT) ∧ (cool = s.surge.coolMs - 1) ∧ (on s Reg.AGE_SURGE_PEND = true ∨ on s Reg.AGE_SURGE_GRANTED = true ∧ s.surge.fallAt = false) ∧ (hot.toInt < 1120) ∧ (rd s Reg.AGE_IMAX_LIMIT ≤ iout) ∧ (domOn s dSTEWARD = true)) ∧
    (∃ (s : State) (hot : BitVec 16) (current : BitVec 16) (iout : Nat) (cool : Nat), domOn s dSTEWARD = true ∧ (iout = if on s Reg.AGE_IMAX_EST = true ∨ on s Reg.AGE_PMB_VID = true then current.toNat else rd s Reg.AGE_IOUT_CURRENT) ∧ cool = s.surge.coolMs - 1 ∧ (on s Reg.AGE_SURGE_PEND = true ∨ on s Reg.AGE_SURGE_GRANTED = true ∧ s.surge.fallAt = false) ∧ hot.toInt < 1120 ∧ iout < rd s Reg.AGE_IMAX_LIMIT ∧ rd s Reg.AGE_SURGE_H_LEFT = 0 ∧ inService s = true) ∧
    (∃ (s : State) (hot : BitVec 16) (current : BitVec 16) (iout : Nat) (cool : Nat), (domOn s dSTEWARD = true) ∧ (iout = if on s Reg.AGE_IMAX_EST = true ∨ on s Reg.AGE_PMB_VID = true then current.toNat else rd s Reg.AGE_IOUT_CURRENT) ∧ (cool = s.surge.coolMs - 1) ∧ (on s Reg.AGE_SURGE_PEND = true ∨ on s Reg.AGE_SURGE_GRANTED = true ∧ s.surge.fallAt = false) ∧ (hot.toInt < 1120) ∧ (iout < rd s Reg.AGE_IMAX_LIMIT) ∧ (rd s Reg.AGE_SURGE_H_LEFT = 0) ∧ (on s Reg.AGE_SURGE_PEND = true)) ∧
    (∃ (s : State) (hot : BitVec 16) (current : BitVec 16) (iout : Nat) (cool : Nat), domOn s dSTEWARD = true ∧ (iout = if on s Reg.AGE_IMAX_EST = true ∨ on s Reg.AGE_PMB_VID = true then current.toNat else rd s Reg.AGE_IOUT_CURRENT) ∧ cool = s.surge.coolMs - 1 ∧ (on s Reg.AGE_SURGE_PEND = true ∨ on s Reg.AGE_SURGE_GRANTED = true ∧ s.surge.fallAt = false) ∧ hot.toInt < 1120 ∧ iout < rd s Reg.AGE_IMAX_LIMIT ∧ rd s Reg.AGE_SURGE_H_LEFT = 0 ∧ on s Reg.AGE_SURGE_PEND = false) :=
  ⟨⟨(regs live [(0x3050, 3932164), (0x3060, 262144)]), 1081, 0, 0, 0, by decide +kernel, by decide +kernel, by decide +kernel, by decide +kernel, by decide +kernel, by decide +kernel, by decide +kernel⟩,
   ⟨(regs live [(0x3050, 3932164), (0x78068, 1)]), 1121, 0, 0, 0, by decide +kernel, by decide +kernel, by decide +kernel, by decide +kernel, by decide +kernel, by decide +kernel⟩,
   ⟨(regs live [(0x3050, 3932164)]), 1120, 0, 0, 0, by decide +kernel, by decide +kernel, by decide +kernel, by decide +kernel, by decide +kernel, by decide +kernel⟩,
   ⟨(regs live [(0x3050, 3932162)]), 1121, 0, 0, 0, by decide +kernel, by decide +kernel, by decide +kernel, by decide +kernel, by decide +kernel, by decide +kernel⟩,
   ⟨(regs live [(0x3050, 3932162)]), 1121, 0, 0, 0, by decide +kernel, by decide +kernel, by decide +kernel, by decide +kernel, by decide +kernel, by decide +kernel⟩,
   ⟨(regs live [(0x3050, 3932164), (0x3058, 66436), (0x78068, 1)]), 1081, 65530, 65530, 0, by decide +kernel, by decide +kernel, by decide +kernel, by decide +kernel, by decide +kernel, by decide +kernel, by decide +kernel⟩,
   ⟨wr (wr (regs live [(0x3050, 3932164), (0x3058, 66436), (0x78068, 1)]) Reg.AGE_SURGE_GRANTED 0) Reg.AGE_SURGE_PEND 1, 1081, 65530, 65530, 0, by decide +kernel, by decide +kernel, by decide +kernel, by decide +kernel, by decide +kernel, by decide +kernel, by decide +kernel⟩,
   ⟨wr (wr (regs live [(0x3050, 3932164), (0x3058, 66436), (0x78068, 1)]) Reg.AGE_SURGE_PEND 0) Reg.AGE_SURGE_GRANTED 1, 1081, 65530, 65530, 0, by decide +kernel, by decide +kernel, by decide +kernel, by decide +kernel, by decide +kernel, by decide +kernel, by decide +kernel⟩,
   ⟨(regs live [(0x3050, 3932164), (0x3058, 66436), (0x78068, 1)]), 1081, 65530, 65530, 0, by decide +kernel, by decide +kernel, by decide +kernel, by decide +kernel, by decide +kernel, by decide +kernel, by decide +kernel⟩,
   ⟨(regs live [(0x3050, 3932162), (0x78068, 1)]), 1080, 0, 0, 0, by decide +kernel, by decide +kernel, by decide +kernel, by decide +kernel, by decide +kernel, by decide +kernel, by decide +kernel, by decide +kernel⟩,
   ⟨wr (wr (regs live [(0x3050, 3932162), (0x78068, 1)]) Reg.AGE_SURGE_GRANTED 0) Reg.AGE_SURGE_PEND 1, 1080, 0, 0, 0, by decide +kernel, by decide +kernel, by decide +kernel, by decide +kernel, by decide +kernel, by decide +kernel, by decide +kernel, by decide +kernel⟩,
   ⟨(regs live [(0x3050, 3932162)]), 1081, 0, 0, 0, by decide +kernel, by decide +kernel, by decide +kernel, by decide +kernel, by decide +kernel, by decide +kernel, by decide +kernel, by decide +kernel⟩⟩

theorem witness_SurgeVoltageAndPlan_3 :
    (∃ (s : State) (hot : BitVec 16) (current : BitVec 16) (iout : Nat) (cool : Nat), domOn s dSTEWARD = true ∧ (iout = if on s Reg.AGE_IMAX_EST = true ∨ on s Reg.AGE_PMB_VID = true then current.toNat else rd s Reg.AGE_IOUT_CURRENT) ∧ cool = s.surge.coolMs - 1 ∧ (on s Reg.AGE_SURGE_PEND = true ∨ on s Reg.AGE_SURGE_GRANTED = true ∧ s.surge.fallAt = false) ∧ hot.toInt < 1120 ∧ iout < rd s Reg.AGE_IMAX_LIMIT ∧ rd s Reg.AGE_SURGE_H_LEFT = 0 ∧ domOn s dSTEWARD = true) ∧
    (∃ (s : State) (hot : BitVec 16) (current : BitVec 16) (iout : Nat) (cool : Nat), (domOn s dSTEWARD = true) ∧ (iout = if on s Reg.AGE_IMAX_EST = true ∨ on s Reg.AGE_PMB_VID = true then current.toNat else rd s Reg.AGE_IOUT_CURRENT) ∧ (cool = s.surge.coolMs - 1) ∧ (on s Reg.AGE_SURGE_PEND = false ∧ on s Reg.AGE_SURGE_GRANTED = false ∧ s.surge.fallAt = false) ∧ (on s Reg.AGE_SURGE_REQ = true) ∧ (on s Reg.AGE_PLAN_SURGE_OK = true) ∧ (on s Reg.AGE_PLAN_CONS = false) ∧ (hot.toInt ≤ 1080) ∧ (cool = 0) ∧ (iout * 10 ≤ rd s Reg.AGE_IMAX_LIMIT * 8) ∧ (rd s Reg.AGE_SURGE_H_LEFT ≠ 0) ∧ (inService s = true)) ∧
    (∃ (s : State), on s Reg.AGE_SURGE_PEND = false ∧ on s Reg.AGE_SURGE_GRANTED = false) ∧
    (∃ (s : State), (on s Reg.AGE_SURGE_PEND = true ∨ on s Reg.AGE_SURGE_GRANTED = true)) ∧
    (∃ (s : State), s.surge.vdd = s.surge.target) ∧
    (∃ (s : State) (vout : Option Nat) (v : Nat) (o : Out) (r : Nat), s.surge.vdd ≠ s.surge.target ∧ (v = if s.surge.vdd ≤ s.surge.target then min s.surge.target (s.surge.vdd + 10) else max s.surge.target (s.surge.vdd - 10)) ∧ (o = if on s Reg.AGE_PMB_VID = true then Out.vid ((v - 700) / 5) else Out.pmbusVout v) ∧ vout = some r ∧ r ≤ v + 15 ∧ v ≤ r + 15) ∧
    (∃ (s : State) (vout : Option Nat) (v : Nat) (o : Out), s.surge.vdd ≠ s.surge.target ∧ (v = if s.surge.vdd ≤ s.surge.target then min s.surge.target (s.surge.vdd + 10) else max s.surge.target (s.surge.vdd - 10)) ∧ (o = if on s Reg.AGE_PMB_VID = true then Out.vid ((v - 700) / 5) else Out.pmbusVout v) ∧ vout = none ∧ s.surge.pmbFails < 2) ∧
    (∃ (s : State) (vout : Option Nat) (v : Nat) (o : Out), s.surge.vdd ≠ s.surge.target ∧ (v = if s.surge.vdd ≤ s.surge.target then min s.surge.target (s.surge.vdd + 10) else max s.surge.target (s.surge.vdd - 10)) ∧ (o = if on s Reg.AGE_PMB_VID = true then Out.vid ((v - 700) / 5) else Out.pmbusVout v) ∧ (vout = none ∧ 2 ≤ s.surge.pmbFails ∨ ∃ r, vout = some r ∧ (v + 15 < r ∨ r + 15 < v)) ∧ domOn s dSTEWARD = true) ∧
    (∃ (s : State) (vout : Option Nat) (v : Nat) (o : Out), s.surge.vdd ≠ s.surge.target ∧ (v = if s.surge.vdd ≤ s.surge.target then min s.surge.target (s.surge.vdd + 10) else max s.surge.target (s.surge.vdd - 10)) ∧ (o = if on s Reg.AGE_PMB_VID = true then Out.vid ((v - 700) / 5) else Out.pmbusVout v) ∧ (vout = none ∧ 2 ≤ s.surge.pmbFails ∨ ∃ r, vout = some r ∧ (v + 15 < r ∨ r + 15 < v)) ∧ (on s Reg.AGE_SURGE_PEND = true ∨ on s Reg.AGE_SURGE_GRANTED = true ∧ s.surge.fallAt = false) ∧ inService s = true) ∧
    (∃ (s : State) (vout : Option Nat) (v : Nat) (o : Out), s.surge.vdd ≠ s.surge.target ∧ (v = if s.surge.vdd ≤ s.surge.target then min s.surge.target (s.surge.vdd + 10) else max s.surge.target (s.surge.vdd - 10)) ∧ (o = if on s Reg.AGE_PMB_VID = true then Out.vid ((v - 700) / 5) else Out.pmbusVout v) ∧ (vout = none ∧ 2 ≤ s.surge.pmbFails ∨ ∃ r, vout = some r ∧ (v + 15 < r ∨ r + 15 < v)) ∧ (on s Reg.AGE_SURGE_PEND = true ∨ on s Reg.AGE_SURGE_GRANTED = true ∧ s.surge.fallAt = false) ∧ on s Reg.AGE_SURGE_PEND = true) ∧
    (∃ (s : State) (vout : Option Nat) (v : Nat) (o : Out), s.surge.vdd ≠ s.surge.target ∧ (v = if s.surge.vdd ≤ s.surge.target then min s.surge.target (s.surge.vdd + 10) else max s.surge.target (s.surge.vdd - 10)) ∧ (o = if on s Reg.AGE_PMB_VID = true then Out.vid ((v - 700) / 5) else Out.pmbusVout v) ∧ (vout = none ∧ 2 ≤ s.surge.pmbFails ∨ ∃ r, vout = some r ∧ (v + 15 < r ∨ r + 15 < v)) ∧ (on s Reg.AGE_SURGE_PEND = true ∨ on s Reg.AGE_SURGE_GRANTED = true ∧ s.surge.fallAt = false) ∧ on s Reg.AGE_SURGE_PEND = false) ∧
    (∃ (s : State) (vout : Option Nat) (v : Nat) (o : Out), s.surge.vdd ≠ s.surge.target ∧ (v = if s.surge.vdd ≤ s.surge.target then min s.surge.target (s.surge.vdd + 10) else max s.surge.target (s.surge.vdd - 10)) ∧ (o = if on s Reg.AGE_PMB_VID = true then Out.vid ((v - 700) / 5) else Out.pmbusVout v) ∧ (vout = none ∧ 2 ≤ s.surge.pmbFails ∨ ∃ r, vout = some r ∧ (v + 15 < r ∨ r + 15 < v)) ∧ (¬(on s Reg.AGE_SURGE_PEND = true ∨ on s Reg.AGE_SURGE_GRANTED = true ∧ s.surge.fallAt = false))) :=
  ⟨⟨(regs live [(0x3050, 3932164)]), 100, 0, 0, 0, by decide +kernel, by decide +kernel, by decide +kernel, by decide +kernel, by decide +kernel, by decide +kernel, by decide +kernel, by decide +kernel⟩,
   ⟨sets (regs live [(0x78068, 1)]) [(Reg.AGE_SURGE_REQ, 1), (Reg.AGE_PLAN_SURGE_OK, 1), (Reg.AGE_PLAN_CONS, 0), (Reg.AGE_IMAX_LIMIT, 1000), (Reg.AGE_SURGE_H_LEFT, 5)], 100, 10, 0, 0, by decide +kernel, by decide +kernel, by decide +kernel, by decide +kernel, by decide +kernel, by decide +kernel, by decide +kernel, by decide +kernel, by decide +kernel, by decide +kernel, by decide +kernel, by decide +kernel⟩,
   ⟨live, by decide +kernel, by decide +kernel⟩,
   ⟨(regs live [(0x3050, 3932162)]), by decide +kernel⟩,
   ⟨live, by decide +kernel⟩,
   ⟨{ live with surge := { vdd := 775, target := 785 } }, (some 800), 785, (.pmbusVout 785), 800, by decide +kernel, by decide +kernel, by decide +kernel, by decide +kernel, by decide +kernel, by decide +kernel⟩,
   ⟨{ live with surge := { target := 1 } }, none, 1, (.pmbusVout 1), by decide +kernel, by decide +kernel, by decide +kernel, by decide +kernel, by decide +kernel⟩,
   ⟨{ live with surge := { target := 1 } }, (some 700), 1, (.pmbusVout 1), by decide +kernel, by decide +kernel, by decide +kernel, by decide +kernel, by decide +kernel⟩,
   ⟨{ (regs live [(0x3050, 3932162), (0x78068, 1)]) with surge := { target := 1 } }, (some 866), 1, (.pmbusVout 1), by decide +kernel, by decide +kernel, by decide +kernel, by decide +kernel, by decide +kernel, by decide +kernel⟩,
   ⟨{ (regs live [(0x3050, 3932164)]) with surge := { target := 1 } }, (some 840), 1, (.pmbusVout 1), by decide +kernel, by decide +kernel, by decide +kernel, by decide +kernel, by decide +kernel, by decide +kernel⟩,
   ⟨{ (regs live [(0x3050, 3932162)]) with surge := { target := 1 } }, (some 800), 1, (.pmbusVout 1), by decide +kernel, by decide +kernel, by decide +kernel, by decide +kernel, by decide +kernel, by decide +kernel⟩,
   ⟨{ live with surge := { target := 1 } }, (some 865), 1, (.pmbusVout 1), by decide +kernel, by decide +kernel, by decide +kernel, by decide +kernel, by decide +kernel⟩⟩

theorem witness_SurgeVoltageAndPlan_4 :
    (∃ (s : State), (on s Reg.AGE_IMAX_EST = true ∨ on s Reg.AGE_PMB_VID = true ∨ domOn s dSTEWARD = false)) ∧
    (∃ (s : State) (current : Option (BitVec 16)) (c : BitVec 16), on s Reg.AGE_IMAX_EST = false ∧ on s Reg.AGE_PMB_VID = false ∧ domOn s dSTEWARD = true ∧ current = some c) ∧
    (∃ (s : State) (current : Option (BitVec 16)), on s Reg.AGE_IMAX_EST = false ∧ on s Reg.AGE_PMB_VID = false ∧ domOn s dSTEWARD = true ∧ current = none ∧ s.surge.ioutFails < 2) ∧
    (∃ (s : State) (current : Option (BitVec 16)), on s Reg.AGE_IMAX_EST = false ∧ on s Reg.AGE_PMB_VID = false ∧ domOn s dSTEWARD = true ∧ current = none ∧ 2 ≤ s.surge.ioutFails ∧ domOn s dSTEWARD = true) ∧
    (∃ (s : State) (current : Option (BitVec 16)), on s Reg.AGE_IMAX_EST = false ∧ on s Reg.AGE_PMB_VID = false ∧ domOn s dSTEWARD = true ∧ current = none ∧ 2 ≤ s.surge.ioutFails ∧ (on s Reg.AGE_SURGE_PEND = true ∨ on s Reg.AGE_SURGE_GRANTED = true ∧ s.surge.fallAt = false) ∧ inService s = true) ∧
    (∃ (s : State) (current : Option (BitVec 16)), on s Reg.AGE_IMAX_EST = false ∧ on s Reg.AGE_PMB_VID = false ∧ domOn s dSTEWARD = true ∧ current = none ∧ 2 ≤ s.surge.ioutFails ∧ (on s Reg.AGE_SURGE_PEND = true ∨ on s Reg.AGE_SURGE_GRANTED = true ∧ s.surge.fallAt = false) ∧ on s Reg.AGE_SURGE_PEND = true) ∧
    (∃ (s : State) (current : Option (BitVec 16)), on s Reg.AGE_IMAX_EST = false ∧ on s Reg.AGE_PMB_VID = false ∧ domOn s dSTEWARD = true ∧ current = none ∧ 2 ≤ s.surge.ioutFails ∧ (on s Reg.AGE_SURGE_PEND = true ∨ on s Reg.AGE_SURGE_GRANTED = true ∧ s.surge.fallAt = false) ∧ on s Reg.AGE_SURGE_PEND = false) ∧
    (∃ (s : State) (src : ReplanSrc) (k : Nat), (k = Reg.AGE_REPLAN.addr) ∧ (∀ (m : Master) (w : W32), src = ReplanSrc.write m w → CanReach m s k) ∧ (src = ReplanSrc.timer → domOn s dSTEWARD = true) ∧ (src = ReplanSrc.timer)) ∧
    (∃ (s : State) (src : ReplanSrc) (k : Nat), (k = Reg.AGE_REPLAN.addr) ∧ (∀ (m : Master) (w : W32), src = ReplanSrc.write m w → CanReach m s k) ∧ (src = ReplanSrc.timer → domOn s dSTEWARD = true) ∧ (∃ m w, src = ReplanSrc.write m w ∧ bitOf 0 (BitVec.toNat w) = false)) ∧
    (∃ (s : State) (src : ReplanSrc) (k : Nat), (k = Reg.AGE_REPLAN.addr) ∧ (∀ (m : Master) (w : W32), src = ReplanSrc.write m w → CanReach m s k) ∧ (src = ReplanSrc.timer → domOn s dSTEWARD = true) ∧ (∀ (m : Master) (w : W32), src = ReplanSrc.write m w → bitOf 0 (BitVec.toNat w) = true) ∧ (on s Reg.AGE_REPLAN_BUSY = true)) ∧
    (∃ (s : State) (src : ReplanSrc) (k : Nat), (k = Reg.AGE_REPLAN.addr) ∧ (∀ (m : Master) (w : W32), src = ReplanSrc.write m w → CanReach m s k) ∧ (src = ReplanSrc.timer → domOn s dSTEWARD = true) ∧ (∀ (m : Master) (w : W32), src = ReplanSrc.write m w → bitOf 0 (BitVec.toNat w) = true) ∧ (on s Reg.AGE_REPLAN_BUSY = false) ∧ (16 ≤ s.tests.length)) ∧
    (∃ (s : State) (src : ReplanSrc) (k : Nat), (k = Reg.AGE_REPLAN.addr) ∧ (∀ (m : Master) (w : W32), src = ReplanSrc.write m w → CanReach m s k) ∧ (src = ReplanSrc.timer → domOn s dSTEWARD = true) ∧ (∀ (m : Master) (w : W32), src = ReplanSrc.write m w → bitOf 0 (BitVec.toNat w) = true) ∧ (on s Reg.AGE_REPLAN_BUSY = false) ∧ (s.tests.length < 16)) :=
  ⟨⟨(setDom live 3 { }), by decide +kernel⟩,
   ⟨live, (some 1120), 1120, by decide +kernel, by decide +kernel, by decide +kernel, by decide +kernel⟩,
   ⟨live, none, by decide +kernel, by decide +kernel, by decide +kernel, by decide +kernel, by decide +kernel⟩,
   ⟨{ live with surge := { ioutFails := 3 } }, none, by decide +kernel, by decide +kernel, by decide +kernel, by decide +kernel, by decide +kernel, by decide +kernel⟩,
   ⟨{ (regs live [(0x3050, 3932164), (0x78068, 1)]) with surge := { ioutFails := 2 } }, none, by decide +kernel, by decide +kernel, by decide +kernel, by decide +kernel, by decide +kernel, by decide +kernel, by decide +kernel⟩,
   ⟨{ (regs live [(0x3050, 3932164)]) with surge := { ioutFails := 3 } }, none, by decide +kernel, by decide +kernel, by decide +kernel, by decide +kernel, by decide +kernel, by decide +kernel, by decide +kernel⟩,
   ⟨{ (regs live [(0x3050, 3932162)]) with surge := { ioutFails := 3 } }, none, by decide +kernel, by decide +kernel, by decide +kernel, by decide +kernel, by decide +kernel, by decide +kernel, by decide +kernel⟩,
   ⟨live, .timer, 12364, by decide +kernel, fun m w h => by (cases h), by decide +kernel, by decide +kernel⟩,
   ⟨live, (.write .host 2), 12364, by decide +kernel, fun m w h => by (cases h; unfold CanReach; decide +kernel), fun h => by (cases h), ⟨.host, 2, rfl, by decide +kernel⟩⟩,
   ⟨(regs live [(0x304C, 2)]), .timer, 12364, by decide +kernel, fun m w h => by (cases h), by decide +kernel, fun m w h => by (cases h), by decide +kernel⟩,
   ⟨{ live with tests := [{ kind := .replan, tag := 0, index := 0, wasWithdrawn := false, running := false }, { kind := .can, tag := 0, index := 1, wasWithdrawn := false, running := false }, { kind := .can, tag := 0, index := 2, wasWithdrawn := false, running := false }, { kind := .can, tag := 0, index := 3, wasWithdrawn := false, running := false }, { kind := .can, tag := 0, index := 4, wasWithdrawn := false, running := false }, { kind := .can, tag := 0, index := 5, wasWithdrawn := false, running := false }, { kind := .can, tag := 0, index := 6, wasWithdrawn := false, running := false }, { kind := .can, tag := 0, index := 7, wasWithdrawn := false, running := false }, { kind := .can, tag := 0, index := 8, wasWithdrawn := false, running := false }, { kind := .can, tag := 0, index := 9, wasWithdrawn := false, running := false }, { kind := .can, tag := 0, index := 10, wasWithdrawn := false, running := false }, { kind := .can, tag := 0, index := 11, wasWithdrawn := false, running := false }, { kind := .can, tag := 0, index := 12, wasWithdrawn := false, running := false }, { kind := .can, tag := 0, index := 13, wasWithdrawn := false, running := false }, { kind := .can, tag := 0, index := 14, wasWithdrawn := false, running := false }, { kind := .can, tag := 0, index := 15, wasWithdrawn := false, running := false }] }, .timer, 12364, by decide +kernel, fun m w h => by (cases h), by decide +kernel, fun m w h => by (cases h), by decide +kernel, by decide +kernel⟩,
   ⟨live, .timer, 12364, by decide +kernel, fun m w h => by (cases h), by decide +kernel, fun m w h => by (cases h), by decide +kernel, by decide +kernel⟩⟩

theorem witness_SurgeVoltageAndPlan_5 :
    (∃ (s : State), ((s.tests.any fun r => r.kind == TestKind.replan && r.running) = false)) ∧
    (∃ (s : State) (plan : Option PlanMeas), ((s.tests.any fun r => r.kind == TestKind.replan && r.running) = true) ∧ plan = none ∧ domOn s dSTEWARD = true) ∧
    (∃ (s : State) (plan : Option PlanMeas) (p : PlanMeas), ((s.tests.any fun r => r.kind == TestKind.replan && r.running) = true) ∧ (plan = some p)) :=
  ⟨⟨live, by decide +kernel⟩,
   ⟨{ live with tests := [{ kind := .replan, tag := 0, index := 0, wasWithdrawn := false, running := true }] }, none, by decide +kernel, by decide +kernel, by decide +kernel⟩,
   ⟨{ live with tests := [{ kind := .replan, tag := 0, index := 0, wasWithdrawn := false, running := true }] }, (some { vpass := 1, fmax := 1048576, surgePass := true, ageHours := 17, slack := 5, months := 20 }), { vpass := 1, fmax := 1048576, surgePass := true, ageHours := 17, slack := 5, months := 20 }, by decide +kernel, by decide +kernel⟩⟩

theorem witness_ResetBootAndFirmware_1 :
    (∃ (k : Nat), k ≠ Reg.AO_REG_VAUX_OK.addr ∧ k ≠ Reg.FIO_WD_TRIPPED.addr) ∧
    (∃ (s : State), (domOn s dSTEWARD = true ∨ s.standby ≠ Standby.none)) ∧
    (∃ (s : State), domOn s dSTEWARD = false ∧ s.standby = Standby.none ∧ (bits 23 16 (jget s 0) ≠ 1 ∨ ∀ (k : Nat), 1 ≤ k → k ≤ 10 → (fun u k => fails (stepW u k) + if bits 1 0 (stepW u k) = 1 then 1 else 0) s k < 3)) ∧
    (∃ (s : State) (n : Nat), domOn s dSTEWARD = false ∧ s.standby = Standby.none ∧ bits 23 16 (jget s 0) = 1 ∧ 1 ≤ n ∧ n ≤ 10 ∧ (3 ≤ (fun u k => fails (stepW u k) + if bits 1 0 (stepW u k) = 1 then 1 else 0) s n) ∧ (∀ (k : Nat), 1 ≤ k → k < n → (fun u k => fails (stepW u k) + if bits 1 0 (stepW u k) = 1 then 1 else 0) s k < 3)) ∧
    (∃ (d : Nat), d ∈ mainOrder) ∧
    (∃ (s : State), domOn s dSTEWARD = true ∧ (bits 23 16 (jget s 0) ≠ 1 ∨ ∀ (k : Nat), 1 ≤ k → k ≤ 10 → (fun u k => fails (stepW u k) + if bits 1 0 (stepW u k) = 1 then 1 else 0) s k < 3)) ∧
    (∃ (s : State) (n : Nat), domOn s dSTEWARD = true ∧ bits 23 16 (jget s 0) = 1 ∧ 1 ≤ n ∧ n ≤ 10 ∧ (3 ≤ (fun u k => fails (stepW u k) + if bits 1 0 (stepW u k) = 1 then 1 else 0) s n) ∧ (∀ (k : Nat), 1 ≤ k → k < n → (fun u k => fails (stepW u k) + if bits 1 0 (stepW u k) = 1 then 1 else 0) s k < 3)) ∧
    (∃ (s : State) (cause : WarmCause), domOn s dSTEWARD = true ∧ cause ≠ WarmCause.supply ∧ domOn s dFIELD = true) ∧
    (∃ (s : State) (f : BootFind) (n : Nat) (l : List Byte), n = rd s Reg.BOOT_STAT_STEP ∧ (l = if s.boot.host = true then hostImage s s.boot.hostBlk else f.image) ∧ (s.boot.running = false ∨ n = 0 ∨ 12 < n ∨ s.boot.waitImg = true)) ∧
    (∃ (s : State) (f : BootFind) (n : Nat) (l : List Byte), n = rd s Reg.BOOT_STAT_STEP ∧ (l = if s.boot.host = true then hostImage s s.boot.hostBlk else f.image) ∧ s.boot.running = true ∧ s.boot.waitImg = false ∧ 1 ≤ n ∧ n ≤ 12 ∧ (n = 7 → imageCheck s l = 0) ∧ n < 12) ∧
    (∃ (s : State) (f : BootFind) (n : Nat) (l : List Byte), (n = rd s Reg.BOOT_STAT_STEP) ∧ (l = if s.boot.host = true then hostImage s s.boot.hostBlk else f.image) ∧ (s.boot.running = true) ∧ (s.boot.waitImg = false) ∧ (1 ≤ n) ∧ (n ≤ 12) ∧ (n = 7 → imageCheck s l = 0) ∧ (n = 12)) ∧
    (∃ (s : State) (f : BootFind) (n : Nat) (l : List Byte), (n = rd s Reg.BOOT_STAT_STEP) ∧ (l = if s.boot.host = true then hostImage s s.boot.hostBlk else f.image) ∧ (s.boot.running = true) ∧ (s.boot.waitImg = false) ∧ (1 ≤ n) ∧ (n ≤ 12) ∧ (n = 7 → imageCheck s l = 0) ∧ (n = 3)) :=
  ⟨⟨268435546, by decide +kernel, by decide +kernel⟩,
   ⟨live, by decide +kernel⟩,
   ⟨(setDom live 3 { }), by decide +kernel, by decide +kernel, by decide +kernel⟩,
   ⟨(mwrite (mwrite (setDom live 3 { }) 268435458 [1]) 268435476 [9]), 5, by decide +kernel, by decide +kernel, by decide +kernel, by decide +kernel, by decide +kernel, by decide +kernel, by decide +kernel⟩,
   ⟨4, by decide +kernel⟩,
   ⟨live, by decide +kernel, by decide +kernel⟩,
   ⟨(mwrite (mwrite live 268435458 [1]) 268435460 [9]), 1, by decide +kernel, by decide +kernel, by decide +kernel, by decide +kernel, by decide +kernel, by decide +kernel⟩,
   ⟨live, .diagPort, by decide +kernel, by decide +kernel, by decide +kernel⟩,
   ⟨{ (regs live [(0xD0040, 13)]) with boot := { host := true, cause := 0, hostBlk := 2 } }, { engines := 18446744073709551613, clusters := 6, lanes := 108765498, image := [1, 2, 3], plan := (some { vpass := 9457, fmax := 4294967295, surgePass := true, ageHours := 51, slack := 0, months := 3 }), durUs := 77 }, 13, [], by decide +kernel, by decide +kernel, by decide +kernel⟩,
   ⟨{ (regs live [(0xD0040, 2)]) with boot := { running := true, host := true, cause := 0, hostBlk := 1 } }, { engines := 212992, clusters := 15, banks := [3], lanes := 8192, image := [1, 2, 3], plan := (some { vpass := 65535, fmax := 2, surgePass := false, ageHours := 48, slack := 29, months := 1 }), durUs := 77 }, 2, [], by decide +kernel, by decide +kernel, by decide +kernel, by decide +kernel, by decide +kernel, by decide +kernel, by decide +kernel, by decide +kernel⟩,
   ⟨{ sets live [(Reg.BOOT_STAT_STEP, 12)] with boot := { running := true } }, { image := [] }, 12, [], by decide +kernel, by decide +kernel, by decide +kernel, by decide +kernel, by decide +kernel, by decide +kernel, fun h => by omega, by decide +kernel⟩,
   ⟨{ sets live [(Reg.BOOT_STAT_STEP, 3)] with boot := { running := true } }, { image := [] }, 3, [], by decide +kernel, by decide +kernel, by decide +kernel, by decide +kernel, by decide +kernel, by decide +kernel, fun h => by omega, by decide +kernel⟩⟩

theorem witness_ResetBootAndFirmware_2 :
    (∃ (s : State) (f : BootFind) (n : Nat) (l : List Byte), n = rd s Reg.BOOT_STAT_STEP ∧ (l = if s.boot.host = true then hostImage s s.boot.hostBlk else f.image) ∧ s.boot.running = true ∧ s.boot.waitImg = false ∧ 1 ≤ n ∧ n ≤ 12 ∧ (n = 7 → imageCheck s l = 0) ∧ n = 4) ∧
    (∃ (s : State) (f : BootFind) (n : Nat) (l : List Byte), (n = rd s Reg.BOOT_STAT_STEP) ∧ (l = if s.boot.host = true then hostImage s s.boot.hostBlk else f.image) ∧ (s.boot.running = true) ∧ (s.boot.waitImg = false) ∧ (1 ≤ n) ∧ (n ≤ 12) ∧ (n = 7 → imageCheck s l = 0) ∧ (n = 8)) ∧
    (∃ (s : State) (f : BootFind) (n : Nat) (l : List Byte), n = rd s Reg.BOOT_STAT_STEP ∧ (l = if s.boot.host = true then hostImage s s.boot.hostBlk else f.image) ∧ s.boot.running = true ∧ s.boot.waitImg = false ∧ 1 ≤ n ∧ n ≤ 12 ∧ (n = 7 → imageCheck s l = 0) ∧ n = 9) ∧
    (∃ (s : State) (f : BootFind) (n : Nat) (l : List Byte), (n = rd s Reg.BOOT_STAT_STEP) ∧ (l = if s.boot.host = true then hostImage s s.boot.hostBlk else f.image) ∧ (s.boot.running = true) ∧ (s.boot.waitImg = false) ∧ (1 ≤ n) ∧ (n ≤ 12) ∧ (n = 7 → imageCheck s l = 0) ∧ (n = 10)) ∧
    (∃ (s : State) (f : BootFind) (n : Nat) (l : List Byte), (n = rd s Reg.BOOT_STAT_STEP) ∧ (l = if s.boot.host = true then hostImage s s.boot.hostBlk else f.image) ∧ (s.boot.running = true) ∧ (s.boot.waitImg = false) ∧ (n = 7) ∧ (imageCheck s l ≠ 0) ∧ (2 ≤ fails (stepW s 7))) ∧
    (∃ (s : State) (f : BootFind) (n : Nat) (l : List Byte), (n = rd s Reg.BOOT_STAT_STEP) ∧ (l = if s.boot.host = true then hostImage s s.boot.hostBlk else f.image) ∧ (s.boot.running = true) ∧ (s.boot.waitImg = false) ∧ (n = 7) ∧ (imageCheck s l ≠ 0) ∧ (fails (stepW s 7) < 2) ∧ (bits 23 16 (jget s 0) = 1) ∧ (∀ (k : Nat), 1 ≤ k → k ≤ 10 → k ≠ 7 → (fun u k => fails (stepW u k) + if bits 1 0 (stepW u k) = 1 then 1 else 0) s k < 3)) ∧
    (∃ (s : State) (n : Nat), n = rd s Reg.BOOT_STAT_STEP ∧ (s.boot.running = false ∨ n = 0 ∨ 10 < n)) ∧
    (∃ (s : State) (n : Nat), n = rd s Reg.BOOT_STAT_STEP ∧ s.boot.running = true ∧ 1 ≤ n ∧ n ≤ 10 ∧ 2 ≤ fails (stepW s n)) ∧
    (∃ (s : State) (n : Nat), n = rd s Reg.BOOT_STAT_STEP ∧ s.boot.running = true ∧ 1 ≤ n ∧ n ≤ 10 ∧ fails (stepW s n) < 2 ∧ bits 23 16 (jget s 0) = 1 ∧ (∀ (k : Nat), 1 ≤ k → k ≤ 10 → k ≠ n → (fun u k => fails (stepW u k) + if bits 1 0 (stepW u k) = 1 then 1 else 0) s k < 3)) ∧
    (∃ (s : State) (m : Master), CanReach m s Reg.BOOT_HOSTIMG_BLOCK.addr ∧ s.boot.waitImg = false) ∧
    (∃ (s : State) (m : Master), CanReach m s Reg.BOOT_HOSTIMG_BLOCK.addr ∧ s.boot.waitImg = true) ∧
    (∃ (s : State) (m : Master) (w : W32), CanReach m s Reg.BOOT_CMD_OP.addr ∧ bits 22 20 (BitVec.toNat w) ≠ 1) :=
  ⟨⟨{ (regs live [(0xD0040, 4)]) with boot := { running := true, host := true, hostBlk := 1, unlocked := true } }, { engines := 5583788158574428328, clusters := 10, banks := [3], lanes := 8388608, image := [1, 2, 3], durUs := 77 }, 4, [], by decide +kernel, by decide +kernel, by decide +kernel, by decide +kernel, by decide +kernel, by decide +kernel, by decide +kernel, by decide +kernel⟩,
   ⟨{ sets live [(Reg.BOOT_STAT_STEP, 8)] with boot := { running := true } }, { image := [] }, 8, [], by decide +kernel, by decide +kernel, by decide +kernel, by decide +kernel, by decide +kernel, by decide +kernel, fun h => by omega, by decide +kernel⟩,
   ⟨{ (regs live [(0xD0040, 9)]) with boot := { running := true, host := true, cause := 0 } }, { engines := 9206453756313590630, clusters := 8, banks := [3], image := [1, 2, 3], plan := (some { vpass := 1, fmax := 1048576, surgePass := true, ageHours := 17, slack := 65535, months := 20 }), durUs := 77 }, 9, [], by decide +kernel, by decide +kernel, by decide +kernel, by decide +kernel, by decide +kernel, by decide +kernel, by decide +kernel, by decide +kernel⟩,
   ⟨{ sets live [(Reg.BOOT_STAT_STEP, 10)] with boot := { running := true } }, { image := [] }, 10, [], by decide +kernel, by decide +kernel, by decide +kernel, by decide +kernel, by decide +kernel, by decide +kernel, fun h => by omega, by decide +kernel⟩,
   ⟨jput { sets live [(Reg.BOOT_STAT_STEP, 7)] with boot := { running := true } } (jofs 7) 8, { image := [] }, 7, [], by decide +kernel, by decide +kernel, by decide +kernel, by decide +kernel, by decide +kernel, by decide +kernel, by decide +kernel⟩,
   ⟨jput { sets live [(Reg.BOOT_STAT_STEP, 7)] with boot := { running := true } } 0 0x10000, { image := [] }, 7, [], by decide +kernel, by decide +kernel, by decide +kernel, by decide +kernel, by decide +kernel, by decide +kernel, by decide +kernel, by decide +kernel, fun k h1 h2 h3 => by have h : ∀ k : Fin 11, (fun u k => fails (stepW u k) + if bits 1 0 (stepW u k) = 1 then 1 else 0) (jput { sets live [(Reg.BOOT_STAT_STEP, 7)] with boot := { running := true } } 0 0x10000) k.val < 3 := (by decide +kernel); exact h ⟨k, by omega⟩⟩,
   ⟨(regs live [(0xD0040, 12)]), 12, by decide +kernel, by decide +kernel⟩,
   ⟨{ (mwrite (regs live [(0xD0040, 4)]) 268435472 [8]) with boot := { running := true } }, 4, by decide +kernel, by decide +kernel, by decide +kernel, by decide +kernel, by decide +kernel⟩,
   ⟨{ (mwrite (regs live [(0xD0040, 4)]) 268435458 [1]) with boot := { running := true, cause := 0 } }, 4, by decide +kernel, by decide +kernel, by decide +kernel, by decide +kernel, by decide +kernel, by decide +kernel, by decide +kernel⟩,
   ⟨live, (.cluDma 0), by unfold CanReach; decide +kernel, by decide +kernel⟩,
   ⟨{ live with boot := { waitImg := true, cause := 0, hostBlk := 1 } }, .safetyProc, by unfold CanReach; decide +kernel, by decide +kernel⟩,
   ⟨live, .host, 4184597616, by unfold CanReach; decide +kernel, by decide +kernel⟩⟩

theorem witness_ResetBootAndFirmware_3 :
    (∃ (s : State) (m : Master) (w : W32), CanReach m s Reg.BOOT_CMD_OP.addr ∧ bits 22 20 (BitVec.toNat w) ≠ 2) ∧
    (∃ (s : State) (m : Master) (w : W32), CanReach m s Reg.BOOT_CMD_OP.addr ∧ bits 22 20 (BitVec.toNat w) ≠ 3) ∧
    (∃ (s : State) (m : Master) (w : W32), CanReach m s Reg.BOOT_CMD_OP.addr ∧ bits 22 20 (BitVec.toNat w) ≠ 4) ∧
    (∃ (s : State) (m : Master) (w : W32), CanReach m s Reg.BOOT_CMD_OP.addr ∧ bits 22 20 (BitVec.toNat w) ≠ 5) ∧
    (∃ (s : State) (m : Master) (w : W32) (o : Nat), CanReach m s Reg.BOOT_CMD_OP.addr ∧ bits 22 20 (BitVec.toNat w) = 1 ∧ 4 ≤ o ∧ o < 80) ∧
    (∃ (s : State) (m : Master) (w : W32), CanReach m s Reg.BOOT_CMD_OP.addr ∧ bits 22 20 (BitVec.toNat w) = 2) ∧
    (∃ (s : State) (m : Master) (w : W32) (l : List Byte), CanReach m s Reg.BOOT_CMD_OP.addr ∧ bits 22 20 (BitVec.toNat w) = 3 ∧ l = hostImage s (bits 14 0 (BitVec.toNat w)) ∧ l = []) ∧
    (∃ (s : State) (m : Master) (w : W32) (l : List Byte), CanReach m s Reg.BOOT_CMD_OP.addr ∧ bits 22 20 (BitVec.toNat w) = 3 ∧ l = hostImage s (bits 14 0 (BitVec.toNat w)) ∧ l ≠ [] ∧ imageCheck s l ≠ 0) ∧
    (∃ (s : State) (m : Master) (w : W32), CanReach m s Reg.BOOT_CMD_OP.addr ∧ bits 22 20 (BitVec.toNat w) = 4) ∧
    (∃ (s : State) (m : Master) (w : W32), CanReach m s Reg.BOOT_CMD_OP.addr ∧ bits 22 20 (BitVec.toNat w) = 5 ∧ on s Reg.BOOT_STAT_DONE = false) ∧
    (∃ (s : State) (m : Master) (w : W32) (v : Nat), (CanReach m s Reg.BOOT_CMD_OP.addr) ∧ (bits 22 20 (BitVec.toNat w) = 5) ∧ (on s Reg.BOOT_STAT_DONE = true) ∧ (v = max (rd s Reg.SEC_ROLLBACK_VERSION) s.boot.version)) ∧
    (∃ (s : State) (key : List Byte) (sig : List Byte) (ok : Bool), (ok = (domOn s dSTEWARD && on s Reg.SEC_DBG_LOCK && (Config.sha256 key == List.flatMap (fun w => leBytes 4 (rd s (Reg.SEC_DBGKEY_HASH w))) (List.range 8) && Config.ecdsaOk key (Config.sha256 (leBytes 4 s.boot.chal)) sig))) ∧ (ok = false)) :=
  ⟨⟨live, .steward1, 4294967294, by unfold CanReach; decide +kernel, by decide +kernel⟩,
   ⟨live, .snapshot, 0, by unfold CanReach; decide +kernel, by decide +kernel⟩,
   ⟨live, (.cluDma 3), 0, by unfold CanReach; decide +kernel, by decide +kernel⟩,
   ⟨live, .acq, 2, by unfold CanReach; decide +kernel, by decide +kernel⟩,
   ⟨live, .snapshot, 1048576, 45, by unfold CanReach; decide +kernel, by decide +kernel, by decide +kernel, by decide +kernel⟩,
   ⟨live, (.cluDma 3), 2097152, by unfold CanReach; decide +kernel, by decide +kernel⟩,
   ⟨live, .host, 3145729, [], by unfold CanReach; decide +kernel, by decide +kernel, by decide +kernel, by decide +kernel⟩,
   ⟨{ (mwrite live 536870921 [1]) with cist := [(0, { flt := 1 })] }, (.cluDma 0), 3670016, (List.replicate 9 0 ++ [1] ++ List.replicate 246 0), by unfold CanReach; decide +kernel, by decide +kernel, by decide +kernel, by decide +kernel, by decide +kernel⟩,
   ⟨live, .receive, 4194306, by unfold CanReach; decide +kernel, by decide +kernel⟩,
   ⟨live, .transmit, 5767168, by unfold CanReach; decide +kernel, by decide +kernel, by decide +kernel⟩,
   ⟨(regs live [(0xD0040, 1073741824)]), .host, 5767168, _, by unfold CanReach; decide +kernel, by decide +kernel, by decide +kernel, rfl⟩,
   ⟨setDom live dSTEWARD {}, [], [], false, by decide +kernel, by decide +kernel⟩⟩

theorem witness_TestRequestsAndOutcomes_1 :
    (∃ (k : TestKind) (c : Master → W32 → Instr) (s : State) (m : Master) (w : W32), (k, c) ∈ [(TestKind.engine, Instr.testEngine), (TestKind.cistbank, Instr.testCistbank), (TestKind.scrub, Instr.testScrub), (TestKind.eyescan, Instr.testEyescan), (TestKind.sdscal, Instr.testSdscal), (TestKind.portloop, Instr.testPortloop), (TestKind.can, Instr.testCan), (TestKind.encoder, Instr.testEncoder), (TestKind.offline, Instr.testOffline)] ∧ (CanReach m s Reg.TEST_REQ.addr) ∧ (bits 31 28 (BitVec.toNat w) ≠ k.code)) ∧
    (∃ (k : TestKind) (c : Master → W32 → Instr) (s : State) (m : Master) (w : W32), (k, c) ∈ [(TestKind.engine, Instr.testEngine), (TestKind.cistbank, Instr.testCistbank), (TestKind.scrub, Instr.testScrub), (TestKind.eyescan, Instr.testEyescan), (TestKind.sdscal, Instr.testSdscal), (TestKind.portloop, Instr.testPortloop), (TestKind.can, Instr.testCan), (TestKind.encoder, Instr.testEncoder), (TestKind.offline, Instr.testOffline)] ∧ (CanReach m s Reg.TEST_REQ.addr) ∧ (bits 31 28 (BitVec.toNat w) = k.code) ∧ (indexEnd k ≤ bits 6 0 (BitVec.toNat w))) ∧
    (∃ (k : TestKind) (c : Master → W32 → Instr) (s : State) (m : Master) (w : W32) (i : Nat) (r : TestReq), (k, c) ∈ [(TestKind.engine, Instr.testEngine), (TestKind.cistbank, Instr.testCistbank), (TestKind.scrub, Instr.testScrub), (TestKind.eyescan, Instr.testEyescan), (TestKind.sdscal, Instr.testSdscal), (TestKind.portloop, Instr.testPortloop), (TestKind.can, Instr.testCan), (TestKind.encoder, Instr.testEncoder), (TestKind.offline, Instr.testOffline)] ∧ (CanReach m s Reg.TEST_REQ.addr) ∧ (bits 31 28 (BitVec.toNat w) = k.code) ∧ (bits 6 0 (BitVec.toNat w) < indexEnd k) ∧ (i = bits 6 0 (BitVec.toNat w)) ∧ (r = { kind := k, tag := bits 27 20 (BitVec.toNat w), index := i, wasWithdrawn := false, running := false }) ∧ (16 ≤ s.tests.length)) ∧
    (∃ (k : TestKind) (c : Master → W32 → Instr) (s : State) (m : Master) (w : W32) (i : Nat) (r : TestReq), (k, c) ∈ [(TestKind.engine, Instr.testEngine), (TestKind.cistbank, Instr.testCistbank), (TestKind.scrub, Instr.testScrub), (TestKind.eyescan, Instr.testEyescan), (TestKind.sdscal, Instr.testSdscal), (TestKind.portloop, Instr.testPortloop), (TestKind.can, Instr.testCan), (TestKind.encoder, Instr.testEncoder), (TestKind.offline, Instr.testOffline)] ∧ (CanReach m s Reg.TEST_REQ.addr) ∧ (bits 31 28 (BitVec.toNat w) = k.code) ∧ (bits 6 0 (BitVec.toNat w) < indexEnd k) ∧ (i = bits 6 0 (BitVec.toNat w)) ∧ (r = { kind := k, tag := bits 27 20 (BitVec.toNat w), index := i, wasWithdrawn := false, running := false }) ∧ (s.tests.length < 16) ∧ (k = TestKind.engine) ∧ (overCapacity s i = true)) ∧
    (∃ (k : TestKind) (c : Master → W32 → Instr) (s : State) (m : Master) (w : W32) (i : Nat) (r : TestReq), (k, c) ∈ [(TestKind.engine, Instr.testEngine), (TestKind.cistbank, Instr.testCistbank), (TestKind.scrub, Instr.testScrub), (TestKind.eyescan, Instr.testEyescan), (TestKind.sdscal, Instr.testSdscal), (TestKind.portloop, Instr.testPortloop), (TestKind.can, Instr.testCan), (TestKind.encoder, Instr.testEncoder), (TestKind.offline, Instr.testOffline)] ∧ (CanReach m s Reg.TEST_REQ.addr) ∧ (bits 31 28 (BitVec.toNat w) = k.code) ∧ (bits 6 0 (BitVec.toNat w) < indexEnd k) ∧ (i = bits 6 0 (BitVec.toNat w)) ∧ (r = { kind := k, tag := bits 27 20 (BitVec.toNat w), index := i, wasWithdrawn := false, running := false }) ∧ (s.tests.length < 16) ∧ (k = TestKind.engine) ∧ (overCapacity s i = false) ∧ (domOn s (dCLU (i / 16)) = true)) ∧
    (∃ (k : TestKind) (c : Master → W32 → Instr) (s : State) (m : Master) (w : W32) (i : Nat) (r : TestReq), (k, c) ∈ [(TestKind.engine, Instr.testEngine), (TestKind.cistbank, Instr.testCistbank), (TestKind.scrub, Instr.testScrub), (TestKind.eyescan, Instr.testEyescan), (TestKind.sdscal, Instr.testSdscal), (TestKind.portloop, Instr.testPortloop), (TestKind.can, Instr.testCan), (TestKind.encoder, Instr.testEncoder), (TestKind.offline, Instr.testOffline)] ∧ (CanReach m s Reg.TEST_REQ.addr) ∧ (bits 31 28 (BitVec.toNat w) = k.code) ∧ (bits 6 0 (BitVec.toNat w) < indexEnd k) ∧ (i = bits 6 0 (BitVec.toNat w)) ∧ (r = { kind := k, tag := bits 27 20 (BitVec.toNat w), index := i, wasWithdrawn := false, running := false }) ∧ (s.tests.length < 16) ∧ (k = TestKind.engine) ∧ (overCapacity s i = false) ∧ (∀ q ∈ s.tests, q.kind = TestKind.engine → q.index ≠ i)) ∧
    (∃ (k : TestKind) (c : Master → W32 → Instr) (s : State) (m : Master) (w : W32) (i : Nat) (r : TestReq), (k, c) ∈ [(TestKind.engine, Instr.testEngine), (TestKind.cistbank, Instr.testCistbank), (TestKind.scrub, Instr.testScrub), (TestKind.eyescan, Instr.testEyescan), (TestKind.sdscal, Instr.testSdscal), (TestKind.portloop, Instr.testPortloop), (TestKind.can, Instr.testCan), (TestKind.encoder, Instr.testEncoder), (TestKind.offline, Instr.testOffline)] ∧ (CanReach m s Reg.TEST_REQ.addr) ∧ (bits 31 28 (BitVec.toNat w) = k.code) ∧ (bits 6 0 (BitVec.toNat w) < indexEnd k) ∧ (i = bits 6 0 (BitVec.toNat w)) ∧ (r = { kind := k, tag := bits 27 20 (BitVec.toNat w), index := i, wasWithdrawn := false, running := false }) ∧ (s.tests.length < 16) ∧ (k = TestKind.offline) ∧ (role s ≠ rTESTING) ∧ (s.lemac.launching = true ∨ rd s Reg.LEMAC_PSTATE_STATE = 3 ∨ s.lemac.recent ≠ 0)) ∧
    (∃ (k : TestKind) (c : Master → W32 → Instr) (s : State) (m : Master) (w : W32) (i : Nat) (r : TestReq), (k, c) ∈ [(TestKind.engine, Instr.testEngine), (TestKind.cistbank, Instr.testCistbank), (TestKind.scrub, Instr.testScrub), (TestKind.eyescan, Instr.testEyescan), (TestKind.sdscal, Instr.testSdscal), (TestKind.portloop, Instr.testPortloop), (TestKind.can, Instr.testCan), (TestKind.encoder, Instr.testEncoder), (TestKind.offline, Instr.testOffline)] ∧ (CanReach m s Reg.TEST_REQ.addr) ∧ (bits 31 28 (BitVec.toNat w) = k.code) ∧ (bits 6 0 (BitVec.toNat w) < indexEnd k) ∧ (i = bits 6 0 (BitVec.toNat w)) ∧ (r = { kind := k, tag := bits 27 20 (BitVec.toNat w), index := i, wasWithdrawn := false, running := false }) ∧ (s.tests.length < 16) ∧ (k ≠ TestKind.engine) ∧ (k = TestKind.offline → role s = rTESTING ∨ s.lemac.launching = false ∧ rd s Reg.LEMAC_PSTATE_STATE ≠ 3 ∧ s.lemac.recent = 0)) ∧
    (∃ (s : State) (i : Nat), s.tests[i]? = none) ∧
    (∃ (s : State) (i : Nat) (r : TestReq), s.tests[i]? = some r ∧ (r.running = true ∨ quiet s r = false ∨ ∃ j q, j < i ∧ s.tests[j]? = some q ∧ resource q = resource r)) ∧
    (∃ (s : State) (i : Nat) (r : TestReq) (e : Nat), s.tests[i]? = some r ∧ r.running = false ∧ quiet s r = true ∧ (∀ (j : Nat) (q : TestReq), j < i → s.tests[j]? = some q → resource q ≠ resource r) ∧ r.kind = TestKind.engine ∧ e ≠ r.index) ∧
    (∃ (s : State) (i : Nat) (r : TestReq), s.tests[i]? = some r ∧ r.running = false ∧ quiet s r = true ∧ (∀ (j : Nat) (q : TestReq), j < i → s.tests[j]? = some q → resource q ≠ resource r) ∧ r.kind ≠ TestKind.engine) :=
  ⟨⟨TestKind.engine, Instr.testEngine, live, .snapshot, 0, by simp, by unfold CanReach; decide +kernel, by decide +kernel⟩,
   ⟨TestKind.portloop, Instr.testPortloop, live, .host, BitVec.ofNat 32 (TestKind.portloop.code * 2 ^ 28 + 24), by simp, by unfold CanReach; decide +kernel, by decide +kernel, by decide +kernel⟩,
   ⟨TestKind.engine, Instr.testEngine, { live with tests := List.replicate 16 { kind := .can, tag := 0, index := 1, wasWithdrawn := false, running := false } }, .host, BitVec.ofNat 32 (TestKind.engine.code * 2 ^ 28 + 5 * 2 ^ 20 + 3), 3, { kind := TestKind.engine, tag := 5, index := 3, wasWithdrawn := false, running := false }, by simp, by unfold CanReach; decide +kernel, by decide +kernel, by decide +kernel, by decide +kernel, by decide +kernel, by decide +kernel⟩,
   ⟨TestKind.engine, Instr.testEngine, { live with tests := (List.range 4).map (fun i => { kind := .engine, tag := 0, index := i, wasWithdrawn := false, running := false }) }, .host, BitVec.ofNat 32 (TestKind.engine.code * 2 ^ 28 + 5 * 2 ^ 20 + 63), 63, { kind := TestKind.engine, tag := 5, index := 63, wasWithdrawn := false, running := false }, by simp, by unfold CanReach; decide +kernel, by decide +kernel, by decide +kernel, by decide +kernel, by decide +kernel, by decide +kernel, by decide +kernel, by decide +kernel⟩,
   ⟨TestKind.engine, Instr.testEngine, live, .host, BitVec.ofNat 32 (TestKind.engine.code * 2 ^ 28 + 5 * 2 ^ 20 + 3), 3, { kind := TestKind.engine, tag := 5, index := 3, wasWithdrawn := false, running := false }, by simp, by unfold CanReach; decide +kernel, by decide +kernel, by decide +kernel, by decide +kernel, by decide +kernel, by decide +kernel, by decide +kernel, by decide +kernel, by decide +kernel⟩,
   ⟨TestKind.engine, Instr.testEngine, live, .host, BitVec.ofNat 32 (TestKind.engine.code * 2 ^ 28 + 5 * 2 ^ 20 + 3), 3, { kind := TestKind.engine, tag := 5, index := 3, wasWithdrawn := false, running := false }, by simp, by unfold CanReach; decide +kernel, by decide +kernel, by decide +kernel, by decide +kernel, by decide +kernel, by decide +kernel, by decide +kernel, by decide +kernel, by decide +kernel⟩,
   ⟨TestKind.offline, Instr.testOffline, { live with lemac := { launching := true } }, .host, BitVec.ofNat 32 (TestKind.offline.code * 2 ^ 28 + 5 * 2 ^ 20 + 8), 8, { kind := TestKind.offline, tag := 5, index := 8, wasWithdrawn := false, running := false }, by simp, by unfold CanReach; decide +kernel, by decide +kernel, by decide +kernel, by decide +kernel, by decide +kernel, by decide +kernel, by decide +kernel, by decide +kernel, by decide +kernel⟩,
   ⟨TestKind.sdscal, Instr.testSdscal, live, .host, BitVec.ofNat 32 (TestKind.sdscal.code * 2 ^ 28 + 5 * 2 ^ 20 + 8), 8, { kind := TestKind.sdscal, tag := 5, index := 8, wasWithdrawn := false, running := false }, by simp, by unfold CanReach; decide +kernel, by decide +kernel, by decide +kernel, by decide +kernel, by decide +kernel, by decide +kernel, by decide +kernel, by decide +kernel⟩,
   ⟨live, 4, by decide +kernel⟩,
   ⟨{ live with tests := [{ kind := .offline, tag := 0, index := 0, wasWithdrawn := false, running := false }, { kind := .offline, tag := 0, index := 0, wasWithdrawn := false, running := false }, { kind := .scrub, tag := 0, index := 0, wasWithdrawn := false, running := false }, { kind := .engine, tag := 0, index := 0, wasWithdrawn := false, running := false }, { kind := .can, tag := 0, index := 0, wasWithdrawn := false, running := false }, { kind := .eyescan, tag := 0, index := 0, wasWithdrawn := false, running := true }] }, 5, { kind := .eyescan, tag := 0, index := 0, wasWithdrawn := false, running := true }, by decide +kernel, by (left; decide +kernel)⟩,
   ⟨{ (regs live [(0x10044, 64)]) with tests := [{ kind := .scrub, tag := 0, index := 0, wasWithdrawn := false, running := false }, { kind := .engine, tag := 0, index := 6, wasWithdrawn := false, running := false }] }, 1, { kind := .engine, tag := 0, index := 6, wasWithdrawn := false, running := false }, 5, by decide +kernel, by decide +kernel, by decide +kernel, fun j q h e => by (have h0 : j = 0 := (by omega); subst h0; cases e; decide +kernel), by decide +kernel, by decide +kernel⟩,
   ⟨{ live with tests := [{ kind := .can, tag := 0, index := 0, wasWithdrawn := false, running := false }, { kind := .sdscal, tag := 0, index := 0, wasWithdrawn := false, running := false }] }, 1, { kind := .sdscal, tag := 0, index := 0, wasWithdrawn := false, running := false }, by decide +kernel, by decide +kernel, by decide +kernel, fun j q h e => by (have h0 : j = 0 := (by omega); subst h0; cases e; decide +kernel), by decide +kernel⟩⟩

theorem witness_TestRequestsAndOutcomes_2 :
    (∃ (s : State) (i : Nat) (r : TestReq) (b : Nat), s.tests[i]? = some r ∧ r.running = false ∧ quiet s r = true ∧ (∀ (j : Nat) (q : TestReq), j < i → s.tests[j]? = some q → resource q ≠ resource r) ∧ r.kind = TestKind.cistbank ∧ b < 256) ∧
    (∃ (s : State) (i : Nat) (r : TestReq), s.tests[i]? = some r ∧ r.running = false ∧ quiet s r = true ∧ (∀ (j : Nat) (q : TestReq), j < i → s.tests[j]? = some q → resource q ≠ resource r) ∧ r.kind ≠ TestKind.cistbank) ∧
    (∃ (s : State) (i : Nat) (r : TestReq), s.tests[i]? = some r ∧ (r.running = false ∨ r.kind = TestKind.replan)) ∧
    (∃ (s : State) (i : Nat) (r : TestReq) (p : Bool), s.tests[i]? = some r ∧ r.running = true ∧ r.kind ≠ TestKind.replan ∧ p = true ∧ r.kind = TestKind.engine ∧ (eng s r.index).ph = Phase.test) ∧
    (∃ (s : State) (i : Nat) (r : TestReq) (p : Bool) (b : Nat), s.tests[i]? = some r ∧ r.running = true ∧ r.kind ≠ TestKind.replan ∧ p = true ∧ r.kind = TestKind.cistbank ∧ b < 256) ∧
    (∃ (s : State) (i : Nat) (r : TestReq) (p : Bool), s.tests[i]? = some r ∧ r.running = true ∧ r.kind ≠ TestKind.replan ∧ p = false ∧ role s = rALONE ∧ r.kind ≠ TestKind.offline ∧ r.kind = TestKind.engine) ∧
    (∃ (s : State) (i : Nat) (r : TestReq) (p : Bool) (b : Nat), s.tests[i]? = some r ∧ r.running = true ∧ r.kind ≠ TestKind.replan ∧ p = false ∧ role s = rALONE ∧ r.kind ≠ TestKind.offline ∧ r.kind = TestKind.cistbank ∧ b < 256) ∧
    (∃ (s : State) (i : Nat) (r : TestReq), s.tests[i]? = some r ∧ r.running = false ∧ r.kind ≠ TestKind.replan) ∧
    (∃ (s : State) (i : Nat) (r : TestReq), s.tests[i]? = some r ∧ r.running = false ∧ r.kind = TestKind.replan) :=
  ⟨⟨{ live with tests := [{ kind := .cistbank, tag := 0, index := 0, wasWithdrawn := false, running := false }] }, 0, { kind := .cistbank, tag := 0, index := 0, wasWithdrawn := false, running := false }, 0, by decide +kernel, by decide +kernel, by decide +kernel, by simp, by decide +kernel, by decide +kernel⟩,
   ⟨{ live with tests := [{ kind := .encoder, tag := 0, index := 0, wasWithdrawn := false, running := false }] }, 0, { kind := .encoder, tag := 0, index := 0, wasWithdrawn := false, running := false }, by decide +kernel, by decide +kernel, by decide +kernel, by simp, by decide +kernel⟩,
   ⟨{ live with tests := [{ kind := .eyescan, tag := 0, index := 0, wasWithdrawn := false, running := false }, { kind := .engine, tag := 0, index := 0, wasWithdrawn := false, running := false }, { kind := .engine, tag := 0, index := 0, wasWithdrawn := false, running := false }, { kind := .engine, tag := 0, index := 0, wasWithdrawn := false, running := false }, { kind := .sdscal, tag := 0, index := 0, wasWithdrawn := false, running := false }] }, 4, { kind := .sdscal, tag := 0, index := 0, wasWithdrawn := false, running := false }, by decide +kernel, by decide +kernel⟩,
   ⟨{ live with tests := [{ kind := .portloop, tag := 0, index := 0, wasWithdrawn := false, running := false }, { kind := .engine, tag := 0, index := 0, wasWithdrawn := false, running := true }], engs := [(0, { ph := .test })] }, 1, { kind := .engine, tag := 0, index := 0, wasWithdrawn := false, running := true }, true, by decide +kernel, by decide +kernel, by decide +kernel, by decide +kernel, by decide +kernel, by decide +kernel⟩,
   ⟨{ live with tests := [{ kind := .portloop, tag := 0, index := 0, wasWithdrawn := false, running := false }, { kind := .cistbank, tag := 0, index := 0, wasWithdrawn := false, running := true }] }, 1, { kind := .cistbank, tag := 0, index := 0, wasWithdrawn := false, running := true }, true, 0, by decide +kernel, by decide +kernel, by decide +kernel, by decide +kernel, by decide +kernel, by decide +kernel⟩,
   ⟨{ live with tests := [{ kind := .cistbank, tag := 0, index := 0, wasWithdrawn := false, running := false }, { kind := .engine, tag := 0, index := 0, wasWithdrawn := false, running := true }] }, 1, { kind := .engine, tag := 0, index := 0, wasWithdrawn := false, running := true }, false, by decide +kernel, by decide +kernel, by decide +kernel, by decide +kernel, by decide +kernel, by decide +kernel, by decide +kernel⟩,
   ⟨{ live with tests := [{ kind := .cistbank, tag := 0, index := 0, wasWithdrawn := false, running := false }, { kind := .offline, tag := 0, index := 0, wasWithdrawn := false, running := false }, { kind := .sdscal, tag := 0, index := 0, wasWithdrawn := false, running := false }, { kind := .cistbank, tag := 0, index := 0, wasWithdrawn := false, running := true }] }, 3, { kind := .cistbank, tag := 0, index := 0, wasWithdrawn := false, running := true }, false, 5, by decide +kernel, by decide +kernel, by decide +kernel, by decide +kernel, by decide +kernel, by decide +kernel, by decide +kernel, by decide +kernel⟩,
   ⟨{ live with tests := [{ kind := .engine, tag := 0, index := 0, wasWithdrawn := false, running := false }, { kind := .cistbank, tag := 0, index := 0, wasWithdrawn := false, running := false }] }, 1, { kind := .cistbank, tag := 0, index := 0, wasWithdrawn := false, running := false }, by decide +kernel, by decide +kernel, by decide +kernel⟩,
   ⟨{ live with tests := [{ kind := .can, tag := 0, index := 0, wasWithdrawn := false, running := false }, { kind := .portloop, tag := 0, index := 0, wasWithdrawn := false, running := false }, { kind := .replan, tag := 0, index := 0, wasWithdrawn := false, running := false }] }, 2, { kind := .replan, tag := 0, index := 0, wasWithdrawn := false, running := false }, by decide +kernel, by decide +kernel, by decide +kernel⟩⟩

theorem witness_ProtectedPointSegments :
    (∃ (s : State) (p : Nat) (a : W32) (l : List Byte), p < 2 ^ 20 ∧ BitVec.toNat a = 805306368 + 8 * p ∧ domOn s dNET = true ∧ p / 2 ^ 15 = 28 ∧ l.length = 8) ∧
    (∃ (s : State) (p : Nat) (a : W32) (m : Master) (n : Nat), p < 2 ^ 20 ∧ BitVec.toNat a = 805306368 + 8 * p ∧ domOn s dNET = true ∧ p / 2 ^ 15 = 28 ∧ n ≤ 8 ∧ canReach m Region.points = true) ∧
    (∃ (s : State) (p : Nat) (a : W32) (m : Master) (l : List Byte) (c : Nat), (p < 2 ^ 20) ∧ (BitVec.toNat a = 805306368 + 8 * p) ∧ (domOn s dNET = true) ∧ (p / 2 ^ 15 = 28) ∧ (m ≠ Master.safetyProc) ∧ (l ≠ []) ∧ (l.length ≤ 8) ∧ (805306368 ≤ c) ∧ (c < 817889280)) ∧
    (∃ (s : State) (p : Nat) (a : W32) (m : Master) (l : List Byte), p < 2 ^ 20 ∧ BitVec.toNat a = 805306368 + 8 * p ∧ domOn s dNET = true ∧ p / 2 ^ 15 = 28 ∧ m ≠ Master.safetyProc ∧ l ≠ [] ∧ l.length ≤ 8 ∧ canReach m Region.points = true) ∧
    (∃ (s : State) (p : Nat) (a : W32) (m : Master) (l : List Byte), p < 2 ^ 20 ∧ BitVec.toNat a = 805306368 + 8 * p ∧ domOn s dNET = true ∧ p / 2 ^ 15 = 28 ∧ m ≠ Master.safetyProc ∧ l ≠ [] ∧ l.length ≤ 8 ∧ canReach m Region.points = false) ∧
    (∃ (s : State) (p : Nat) (a : W32) (i : Nat) (c' : Nat), (p < 2 ^ 20) ∧ (BitVec.toNat a = 805306368 + 8 * p) ∧ (domOn s dNET = true) ∧ (p / 2 ^ 15 = 28) ∧ (i < 2) ∧ (805306368 ≤ c') ∧ (c' < 817889280)) ∧
    (∃ (s : State) (p : Nat) (a : W32) (m : Master) (n : Nat), p < 2 ^ 20 ∧ BitVec.toNat a = 805306368 + 8 * p ∧ domOn s dNET = true ∧ p / 2 ^ 15 = 29 ∧ paired s = false ∧ n ≤ 8 ∧ canReach m Region.points = true) ∧
    (∃ (s : State) (p : Nat) (a : W32) (m : Master), p < 2 ^ 20 ∧ BitVec.toNat a = 805306368 + 8 * p ∧ domOn s dNET = true ∧ p / 2 ^ 15 = 29 ∧ paired s = false ∧ canReach m Region.descs = true) ∧
    (∃ (s : State) (p : Nat) (a : W32) (m : Master) (l : List Byte), p < 2 ^ 20 ∧ BitVec.toNat a = 805306368 + 8 * p ∧ domOn s dNET = true ∧ p / 2 ^ 15 = 29 ∧ paired s = false ∧ l ≠ [] ∧ l.length ≤ 8 ∧ canReach m Region.points = true) ∧
    (∃ (s : State) (p : Nat) (a : W32) (i : Nat), p < 2 ^ 20 ∧ BitVec.toNat a = 805306368 + 8 * p ∧ domOn s dNET = true ∧ p / 2 ^ 15 = 29 ∧ paired s = false ∧ i < 2) :=
  ⟨⟨live, 950271, 812908536, [141, 236, 2, 146, 150, 49, 236, 228], by decide +kernel, by decide +kernel, by decide +kernel, by decide +kernel, by decide +kernel⟩,
   ⟨live, 950271, 812908536, (.cluDma 0), 3, by decide +kernel, by decide +kernel, by decide +kernel, by decide +kernel, by decide +kernel, by decide +kernel⟩,
   ⟨live, 917504, BitVec.ofNat 32 (805306368 + 8 * 917504), .host, [5], 805306368, by decide +kernel, by decide +kernel, by decide +kernel, by decide +kernel, by decide +kernel, by decide +kernel, by decide +kernel, by decide +kernel, by decide +kernel⟩,
   ⟨live, 917504, 812646400, (.cluDma 0), [82, 234, 233, 184, 136, 91, 13, 167], by decide +kernel, by decide +kernel, by decide +kernel, by decide +kernel, by decide +kernel, by decide +kernel, by decide +kernel, by decide +kernel⟩,
   ⟨live, 950271, 812908536, .acq, [92], by decide +kernel, by decide +kernel, by decide +kernel, by decide +kernel, by decide +kernel, by decide +kernel, by decide +kernel, by decide +kernel⟩,
   ⟨live, 917504, BitVec.ofNat 32 (805306368 + 8 * 917504), 1, 805306368, by decide +kernel, by decide +kernel, by decide +kernel, by decide +kernel, by decide +kernel, by decide +kernel, by decide +kernel⟩,
   ⟨live, 950272, 812908544, .steward1, 7, by decide +kernel, by decide +kernel, by decide +kernel, by decide +kernel, by decide +kernel, by decide +kernel, by decide +kernel⟩,
   ⟨live, 950273, 812908552, (.cluDma 0), by decide +kernel, by decide +kernel, by decide +kernel, by decide +kernel, by decide +kernel, by decide +kernel⟩,
   ⟨live, 950273, 812908552, .steward0, [52, 111], by decide +kernel, by decide +kernel, by decide +kernel, by decide +kernel, by decide +kernel, by decide +kernel, by decide +kernel, by decide +kernel⟩,
   ⟨live, 950273, 812908552, 0, by decide +kernel, by decide +kernel, by decide +kernel, by decide +kernel, by decide +kernel, by decide +kernel⟩⟩

theorem witness_EveryStepKeepsMemoryCanonical : ∃ s t : State, MemOk s ∧ step s = .next t := ⟨mwrite live 0x20000000 [1, 2], _, by unfold MemOk; decide +kernel, rfl⟩

/-- A schedule image whose period is in range, for INSTALL_COMPLETE. -/
def s6 : State := { (mwrite (mwrite (regs live [(0x14108, 65543)]) 536947712 [7]) 536947716 [2]) with lemac := { inst := (some 300) } }
theorem witness_ScheduleBanks_image : ∃ (n : Nat) (s : State) (i : Nat), s.lemac.inst = some n ∧ bank s ≤ 1 ∧ waitsPeer s 0 = false ∧ domOn s dCIST = true ∧ bankFault (copyBank s n (1 - bank s)) (1 - bank s) = none ∧ i < 65536 :=
  ⟨300, s6, 28101, by decide +kernel, by decide +kernel, by decide +kernel, by decide +kernel, by
    rw [copyBank_small s6 300 _ (by unfold below; decide +kernel) (by omega) (by decide)]; decide +kernel, by decide⟩
/-- No image. -/
def s7 : State := { live with lemac := { inst := (some 0) } }
theorem witness_ScheduleBanks_noImage : ∃ (n : Nat) (s : State) (r : Nat) (k : Nat), s.lemac.inst = some n ∧ bank s ≤ 1 ∧ waitsPeer s 0 = false ∧ domOn s dCIST = true ∧ bankFault (copyBank s n (1 - bank s)) (1 - bank s) = some (r, k) :=
  ⟨0, s7, 1, 0, by decide +kernel, by decide +kernel, by decide +kernel, by decide +kernel, by
    rw [copyBank_small s7 0 _ (by unfold below; decide +kernel) (by omega) (by decide)]; decide +kernel⟩

end Sys2Proof.Tests
end

section
/-! PROOFS. Registers as a master reads and writes them: accesses that are not performed, counters, plain registers (R13, R14, R16). -/

namespace Sys2Proof.Machine

/-! ## Bit fields and rows of the register map -/

/-- A field replaced by its own bits is the word as it was. -/
theorem setBits_bits_self (hi lo v : Nat) (h : lo ≤ hi) : setBits hi lo v (bits hi lo v) = v := by
  have cut : bits hi lo v % 2 ^ (hi + 1 - lo) = bits hi lo v := Nat.mod_mod _ _
  rw [setBits_eq _ _ _ _ h, cut]
  exact (bits_split hi lo v h).symm

/-- The map entry that a page's block comes from. -/
theorem mem_pageMap_of_blkOf {p f : Nat} {b : Blk} (h : blkOf p = some (b, f)) : ∃ n, (b, f, n) ∈ pageMap ∧ f ≤ p ∧ p < f + n := by
  obtain ⟨⟨b', f', n⟩, hfind, heq⟩ := Option.map_eq_some_iff.mp h
  obtain ⟨rfl, rfl⟩ := Prod.mk.inj heq
  have hp := List.find?_some hfind
  simp only [Bool.and_eq_true, decide_eq_true_eq] at hp
  exact ⟨n, List.mem_of_find?_eq_some hfind, hp⟩

/-- Past the page header, a register's rows are those of its block. -/
theorem rowsAt_of_blkOf {k f : Nat} {b : Blk} (h : blkOf (k / 0x1000) = some (b, f)) (hk : 0x40 ≤ k % 0x1000) :
    rowsAt k = (rowsOf b).filter (fun r => r.hits (k % 0x1000)) := by
  unfold rowsAt
  rw [h]
  dsimp only
  rw [if_neg (by omega)]

/-- A row ends where its last register does. -/
theorem RegRow.lt_of_hits {r : RegRow} {o : Nat} (hs : 0 < r.stride) (h : r.hits o = true) : o < r.ofs + r.cnt * r.stride := by
  simp only [RegRow.hits, Bool.and_eq_true, decide_eq_true_eq] at h
  obtain ⟨-, hlt⟩ := h
  have hspan := (Nat.div_lt_iff_lt_mul hs).mp hlt
  omega

/-- No counter lies in the MSI-X table or its pending-bit array, which fill HOST from offset 0x800 on (R333). -/
theorem counter_not_msix {k : Nat} {r : RegRow} (hr : r ∈ rowsAt k) (hc : r.acc = .cnt) (hk : 0x40 ≤ k % 0x1000) :
    ¬(0xB1800 ≤ k ∧ k < 0xB2000) := by
  rintro ⟨h1, h2⟩
  have hp : k / 0x1000 = 0xB1 := by omega
  have hb : blkOf (k / 0x1000) = some (.HOST, 0xB1) := by rw [hp]; rfl
  rw [rowsAt_of_blkOf hb hk] at hr
  obtain ⟨hmem, hhit⟩ := List.mem_filter.mp hr
  have below : ∀ r ∈ rowsOf .HOST, r.acc = .cnt → 0 < r.stride ∧ r.ofs + r.cnt * r.stride ≤ 0x800 := by decide
  obtain ⟨hs, hend⟩ := below r hmem hc
  have hlt := RegRow.lt_of_hits hs hhit
  omega

/-! ## Plain writes of counters -/

/-- A register of counters and reserved fields alone keeps its value under a plain write (R12, R16). -/
theorem newValue_of_counters {rows : List RegRow} (h : ∀ r ∈ rows, r.lo ≤ r.hi ∧ (r.acc = .cnt ∨ r.acc = .rsv)) (lk : Bool) (old w : Nat) :
    newValue lk rows old w = old := by
  refine List.foldlRecOn rows _ (motive := fun v => v = old) rfl fun v hv r hr => ?_
  obtain ⟨hle, hacc⟩ := h r hr
  have keeps : (rowWrite lk old w r).1 = bits r.hi r.lo old := by
    rcases hacc with hacc | hacc <;> simp [rowWrite, hacc]
  rw [hv, keeps, setBits_bits_self _ _ _ hle]

/-- A register without a counter has nothing to clear. -/
theorem clearCounts_of_no_counter {s : State} {k : Nat} (w : Nat) (h : ∀ r ∈ rowsAt k, r.acc ≠ .cnt) : clearCounts s k w = s := by
  unfold clearCounts
  split
  · rfl
  · refine List.foldlRecOn (rowsAt k) _ (motive := fun t => t = s) rfl fun t ht r hr => ?_
    rw [if_neg (fun hc => h r hr hc.1), ht]

/-- A register that holds one counter, alone or under a reserved field. -/
def LoneCounter (rows : List RegRow) (r : RegRow) : Prop :=
  r.acc = .cnt ∧ r.lo = 0 ∧ (r.hi = 31 ∧ rows = [r] ∨ ∃ q : RegRow, r.hi = 15 ∧ rows = [q, r] ∧ q.acc = .rsv ∧ q.hi = 31 ∧ q.lo = 16)

/-- Clearing a register that holds one counter clears that counter if zero is written to it. -/
theorem clearCounts_loneCounter {s : State} {k : Nat} {r : RegRow} (w : Nat) (hk : 0x40 ≤ k % 0x1000) (h : LoneCounter (rowsAt k) r) :
    clearCounts s k w = if bits r.hi 0 w = 0 then wr s ⟨k, r.hi, 0⟩ 0 else s := by
  obtain ⟨hc, hlo, ⟨-, hrows⟩ | ⟨q, -, hrows, hq, -⟩⟩ := h
  · simp [clearCounts, Nat.not_lt.mpr hk, hrows, hc, hlo]
  · simp [clearCounts, Nat.not_lt.mpr hk, hrows, hc, hlo, hq]

/-- A plain write leaves a register that holds one counter as it was. -/
theorem rdw_plainWrite_loneCounter {s : State} {k : Nat} {r : RegRow} (m : Master) (w : Nat) (hk : 0x40 ≤ k % 0x1000) (h : LoneCounter (rowsAt k) r) :
    rdw (plainWrite s m k w) k = rdw s k := by
  have hr : r ∈ rowsAt k := by
    obtain ⟨-, -, ⟨-, hrows⟩ | ⟨q, -, hrows, -⟩⟩ := h <;> simp [hrows]
  have hx := counter_not_msix hr h.1 hk
  have hkeep : ∀ q ∈ rowsAt k, q.lo ≤ q.hi ∧ (q.acc = .cnt ∨ q.acc = .rsv) := by
    obtain ⟨hc, hlo, ⟨-, hrows⟩ | ⟨q, -, hrows, hq, hqhi, hqlo⟩⟩ := h
    · simp [hrows, hc, hlo]
    · simp [hrows, hc, hlo, hq, hqhi, hqlo]
  rw [rdw_plainWrite_self s m k w hk (by omega) (by omega), newValue_of_counters hkeep, Nat.mod_eq_of_lt (rdw_lt s k)]

/-- What a write to a register that holds one counter leaves in it (R16). -/
theorem rd_clearCounts_loneCounter {s : State} {k : Nat} {r : RegRow} (w : Nat) (hk : 0x40 ≤ k % 0x1000) (h : LoneCounter (rowsAt k) r) :
    rd (clearCounts s k w) ⟨k, r.hi, 0⟩ = if bits r.hi 0 w = 0 then 0 else rd s ⟨k, r.hi, 0⟩ := by
  have hhi : r.hi < 32 := by
    obtain ⟨-, -, ⟨h, -⟩ | ⟨q, h, -⟩⟩ := h <;> omega
  rw [clearCounts_loneCounter w hk h]
  split
  · rw [rd_wr_self _ _ _ (Nat.zero_le _) hhi, Nat.zero_mod]
  · rfl

/-- Clearing counters changes no register but the one written. -/
theorem clearCounts_shape (s : State) (k w : Nat) : RegsWire s (clearCounts s k w) ∧ SameRegsBut [k] s (clearCounts s k w) := by
  unfold clearCounts
  split
  · exact ⟨RegsWire.refl s, fun _ _ => rfl⟩
  · refine List.foldlRecOn (rowsAt k) _ (motive := fun t => RegsWire s t ∧ SameRegsBut [k] s t) ⟨RegsWire.refl s, fun _ _ => rfl⟩ fun t ht r _ => ?_
    obtain ⟨hwire, hregs⟩ := ht
    split
    · refine ⟨hwire.trans (RegsWire.wr t _ _), fun j hj => ?_⟩
      rw [rdw_wr_other _ _ _ (by simpa using hj), hregs j hj]
    · exact ⟨hwire, hregs⟩

/-- Settles O11: the plain write keeps the counter, and clearing it is all that follows. -/
theorem counterClear : Obligations.CounterClear := by
  unfold Obligations.CounterClear
  intro m a w s r hreach hal hk hc hlo hrows
  have hone : LoneCounter (rowsAt a.toNat) r := ⟨hc, hlo, hrows⟩
  have hrun : exec (.counterClear m a w) s = .next (clearCounts (plainWrite s m a.toNat w.toNat) a.toNat w.toNat) := by
    change Host.Outcome.next (regAction s m (a.toNat - a.toNat % 4) w _) = _
    rw [hal, Nat.sub_zero, regAction_open w _ hreach]
  obtain ⟨hwire, hregs⟩ := plainWrite_written s m a.toNat w.toNat
  obtain ⟨hwire', hregs'⟩ := clearCounts_shape (plainWrite s m a.toNat w.toNat) a.toNat w.toNat
  refine ⟨_, hrun, hwire.trans hwire', fun j hj => ?_, ?_⟩
  · have hother : j ∉ [a.toNat] := fun h => hj (List.mem_cons.mpr (.inl (List.mem_singleton.mp h)))
    rw [hregs' j hother, hregs j hj]
  · rw [rd_clearCounts_loneCounter _ hk hone]
    unfold rd
    rw [rdw_plainWrite_loneCounter m _ hk hone]

/-! ## Accesses of another width or alignment -/

/-- A read of another width or alignment answers ones and is logged with CAUSE 1 (R14). -/
theorem busAccess_misfit_read {m : Master} {s : State} {a n : Nat} (h : CanReach m s a) (hn : ¬(n = 4 ∧ a % 4 = 0)) :
    busAccess s m a n .read = answer (errlog s (a / 0x1000) 1 m a) allOnes := by
  unfold busAccess
  rw [if_neg hn, pageAccess_open _ _ h]

/-- A write of another width or alignment is logged with CAUSE 1 and does nothing else (R14). -/
theorem busAccess_misfit_write {m : Master} {s : State} {a n : Nat} (w : W32) (h : CanReach m s a) (hn : ¬(n = 4 ∧ a % 4 = 0)) :
    busAccess s m a n (.write w) = errlog s (a / 0x1000) 1 m a := by
  unfold busAccess
  rw [if_neg hn, pageAccess_open _ _ h]

/-- Logging an error at a page changes of the registers only the page's logs and the MSI-X pending bits. -/
theorem errlog_sameRegsBut (s : State) (k c : Nat) (m : Master) (o : Nat) : SameRegsBut (sideKeys k) s (errlog s (k / 0x1000) c m o) := by
  intro j hj
  simp only [sideKeys, List.mem_cons, List.not_mem_nil, or_false, not_or] at hj
  obtain ⟨hpend, hlog, hpba⟩ := hj
  exact rdw_errlog _ _ _ _ _ hpba hpend (by simpa [Reg.HDR_ERRLOG_VALID, Nat.add_comm] using hlog)

/-- Settles O7: both kinds of access leave the state with the error logged, a read besides with an answer. -/
theorem narrowOrUnalignedAccessIsNotPerformed : Obligations.NarrowOrUnalignedAccessIsNotPerformed := by
  unfold Obligations.NarrowOrUnalignedAccessIsNotPerformed
  intro m a n acc s hreach hn
  refine ⟨busAccess s m a.toNat n acc, rfl, ?_⟩
  have hshape := errlog_shape s (a.toNat / 0x1000) 1 m a.toNat
  have hregs := errlog_sameRegsBut s a.toNat 1 m a.toNat
  have hfirst := rdw_errlog_first s (a.toNat / 0x1000) 1 m a.toNat (by decide)
  have hmore := rdw_errlog_more s (a.toNat / 0x1000) 1 m a.toNat
  cases acc with
  | read =>
    rw [busAccess_misfit_read hreach hn]
    exact ⟨by rw [hshape]; rfl, hregs, fun _ => rfl, hfirst, hmore⟩
  | write w =>
    rw [busAccess_misfit_write w hreach hn]
    exact ⟨by rw [hshape], hregs, WordAcc.noConfusion, hfirst, hmore⟩

/-! ## Plain registers -/

/-- The blocks whose registers a plain write sets with nothing else following from it. -/
def plainBlocks : List Blk := [.SYS, .PWR, .SUMP, .AGE, .SEC, .LEMAC, .GUARD, .POINTS, .EMU, .CIST]

/-- The blocks whose registers show what they hold. -/
def heldBlocks : List Blk := [.SYS, .SUMP, .BOOT, .LEMAC, .POINTS]

/-- A block of plain registers has one page. -/
theorem page_of_plainBlocks {p f : Nat} {b : Blk} (hb : blkOf p = some (b, f)) (h : b ∈ plainBlocks) :
    p ∈ [0x00, 0x01, 0x03, 0x04, 0x78, 0x79, 0x82, 0x98, 0xB0, 0xD2] := by
  obtain ⟨n, hmap, hlo, hhi⟩ := mem_pageMap_of_blkOf hb
  have single : ∀ e ∈ pageMap, e.1 ∈ plainBlocks → e.2.2 = 1 ∧ e.2.1 ∈ [0x00, 0x01, 0x03, 0x04, 0x78, 0x79, 0x82, 0x98, 0xB0, 0xD2] := by decide
  obtain ⟨hn, hf⟩ := single _ hmap h
  rwa [show p = f by simp only at hn; omega]

/-- A block of registers that show what they hold has one page. -/
theorem page_of_heldBlocks {p f : Nat} {b : Blk} (hb : blkOf p = some (b, f)) (h : b ∈ heldBlocks) : p ∈ [0x00, 0x04, 0x78, 0x82, 0xD0] := by
  obtain ⟨n, hmap, hlo, hhi⟩ := mem_pageMap_of_blkOf hb
  have single : ∀ e ∈ pageMap, e.1 ∈ heldBlocks → e.2.2 = 1 ∧ e.2.1 ∈ [0x00, 0x04, 0x78, 0x82, 0xD0] := by decide
  obtain ⟨hn, hf⟩ := single _ hmap h
  rwa [show p = f by simp only at hn; omega]

/-- Nothing follows from a write on these pages. -/
theorem afterWrite_plain {k f : Nat} {b : Blk} (hb : blkOf (k / 0x1000) = some (b, f)) (h : b ∈ plainBlocks) (was s : State) (m : Master) (w : Nat) :
    afterWrite was s m k w = s := by
  unfold afterWrite
  dsimp only
  rw [hb]
  simp only [plainBlocks, List.mem_cons, List.not_mem_nil, or_false] at h
  rcases h with h | h | h | h | h | h | h | h | h | h <;> subst h <;> rfl

/-- A write of a plain register without counters sets its fields and nothing else. -/
theorem pageWrite_plain {k f : Nat} {b : Blk} (hb : blkOf (k / 0x1000) = some (b, f)) (h : b ∈ plainBlocks) (hk : 0x40 ≤ k % 0x1000)
    (hc : ∀ r ∈ rowsAt k, r.acc ≠ .cnt) (s : State) (m : Master) (w : Nat) : pageWrite s m k w = plainWrite s m k w := by
  have hp := page_of_plainBlocks hb h
  simp only [List.mem_cons, List.not_mem_nil, or_false] at hp
  have hacq : ¬(acqConfig k = true ∧ acqState s ≠ aIDLE) := by
    simp only [acqConfig, Bool.or_eq_true, Bool.and_eq_true, decide_eq_true_eq]
    omega
  have hmot : k ≠ Reg.MOTION_STATUS_MSTAT.addr := by
    simp only [Reg.MOTION_STATUS_MSTAT]
    omega
  have other : ∀ c ∉ plainBlocks, b ≠ c := fun c hc e => hc (e ▸ h)
  have hsafe := other .SAFE (by decide)
  have hcan := other .CAN (by decide)
  have hao := other .AO (by decide)
  have haxis := other .AXIS (by decide)
  unfold pageWrite
  simp only [hb, Option.map_some, Option.some.injEq, hsafe, hcan, hao, haxis, hacq, hmot, false_and, if_false, if_neg (Nat.not_lt.mpr hk)]
  rw [clearCounts_of_no_counter w hc, afterWrite_plain hb h]

/-- A register that shows what it holds is neither latched nor live, and a read of it does nothing. -/
theorem regRead_held {k f : Nat} {b : Blk} (hb : blkOf (k / 0x1000) = some (b, f)) (h : b ∈ heldBlocks) (hk : 0x40 ≤ k % 0x1000)
    (hrows : rowsAt k ≠ []) (s : State) (m : Master) : regRead s m k = (rdw s k, s) := by
  have hp := page_of_heldBlocks hb h
  simp only [List.mem_cons, List.not_mem_nil, or_false] at hp
  have hwin : isWindow k = false := by
    simp only [isWindow, Bool.or_eq_false_iff, Bool.and_eq_false_iff, decide_eq_false_iff_not, beq_eq_false_iff_ne]
    omega
  have hbank : isBanked k = false := by
    simp only [isBanked, Bool.or_eq_false_iff, beq_eq_false_iff_ne, List.any_eq_false, List.mem_range, beq_iff_eq, Reg.CYC_CYCLE_HI_COUNT,
      Reg.TIME_NOW_SEC_LO, Reg.TIME_NOW_SEC_HI, Reg.TIME_NOW_FRAC, Reg.PWR_RESULT, Reg.CIST_CAS_RES, Reg.AO_RTC_SEC_LO_SEC,
      Reg.AO_RTC_SEC_HI_SEC, Reg.AO_TRK_HI_COUNT, Reg.ENC_POS_HI_COUNT]
    exact ⟨⟨by omega, fun i hi => by omega⟩, fun n hn => by omega⟩
  simp only [heldBlocks, List.mem_cons, List.not_mem_nil, or_false] at h
  have hlow : lowWord s k = none := by
    unfold lowWord
    rw [if_neg (by simp only [Reg.CYC_CYCLE_LO_COUNT]; omega), hb]
    rcases h with h | h | h | h | h <;> subst h <;> rfl
  have hlive : live s k = none := by
    unfold live
    dsimp only
    rw [hb]
    rcases h with h | h | h | h | h <;> subst h <;> rfl
  have hrtc : k ≠ Reg.AO_RTC_SUB_SUB.addr := by simp only [Reg.AO_RTC_SUB_SUB]; omega
  have hchal : k ≠ Reg.SEC_DBG_CHAL_CHAL.addr := by simp only [Reg.SEC_DBG_CHAL_CHAL]; omega
  have hlink : k ≠ Reg.HOST_LINK_UP.addr := by simp only [Reg.HOST_LINK_UP]; omega
  unfold regRead
  dsimp only
  rw [if_neg hrows, if_neg (by omega), if_neg (by omega), hwin, hlow, hbank, hlive]
  simp only [Bool.false_eq_true, if_false, if_neg hrtc, if_neg hchal, if_neg hlink, Option.getD_none]

/-- An aligned write that no action takes sets the fields of a plain register (R13). -/
theorem busAccess_write_plain {s : State} {m : Master} {k f : Nat} {b : Blk} {w : W32} (hreach : CanReach m s k) (hal : k % 4 = 0)
    (hk : 0x40 ≤ k % 0x1000) (hb : blkOf (k / 0x1000) = some (b, f)) (h : b ∈ plainBlocks) (hacts : acts m k w = [])
    (hc : ∀ r ∈ rowsAt k, r.acc ≠ .cnt) : busAccess s m k 4 (.write w) = plainWrite s m k w.toNat := by
  unfold busAccess busWrite
  rw [if_pos ⟨rfl, hal⟩]
  dsimp only
  rw [hacts]
  dsimp only
  rw [pageAccess_open _ _ hreach, pageWrite_plain hb h hk hc]

/-- An aligned read of a register that shows what it holds answers it. -/
theorem busAccess_read_held {s : State} {m : Master} {k f : Nat} {b : Blk} (hreach : CanReach m s k) (hal : k % 4 = 0) (hk : 0x40 ≤ k % 0x1000)
    (hb : blkOf (k / 0x1000) = some (b, f)) (h : b ∈ heldBlocks) (hentry : k ≠ (Reg.SUMP_ENTRY_WORD 0).addr) (hrows : rowsAt k ≠ []) :
    busAccess s m k 4 .read = answer s (rdw s k) := by
  have hp := page_of_heldBlocks hb h
  simp only [List.mem_cons, List.not_mem_nil, or_false] at hp
  have htime : k ≠ Reg.TIME_NOW_NS.addr := by simp only [Reg.TIME_NOW_NS]; omega
  unfold busAccess busRead
  rw [if_pos ⟨rfl, hal⟩]
  dsimp only
  rw [if_neg hentry, if_neg htime, if_neg (by omega), pageAccess_open _ _ hreach, regRead_held hb h hk hrows]

/-- Settles O13: a plain write sets the register's fields and no action follows; a register that shows what it holds is read as it stands. -/
theorem registerTakesItsFields : Obligations.RegisterTakesItsFields := by
  unfold Obligations.RegisterTakesItsFields
  refine ⟨fun m a w s b f hreach hal hk hb hplain hacts hcnt => ?_, fun m a s b f hreach hal hk hb hheld hentry hrows => ?_⟩
  · have hrun := busAccess_write_plain hreach hal hk hb hplain hacts hcnt
    have hp := page_of_plainBlocks hb hplain
    simp only [List.mem_cons, List.not_mem_nil, or_false] at hp
    exact ⟨_, congrArg Host.Outcome.next hrun, plainWrite_written .., rdw_plainWrite_self _ _ _ _ hk (by omega) (by omega)⟩
  · exact congrArg Host.Outcome.next (busAccess_read_held hreach hal hk hb hheld hentry hrows)

end Sys2Proof.Machine
end

section
/-! PROOFS. The latches of network time (R17, R240). -/

namespace Sys2Proof.Machine

/-- A banked register reads what was put there for its master, as a word. -/
theorem bget_bput_self (s : State) (m : Master) (k v : Nat) : bget (bput s m k v) m k = v % 2 ^ 32 := by
  simp [bget, bput]

/-- What a banked read answers stands in the table of latches alone. -/
theorem bget_answer (s : State) (v : Nat) (m : Master) (k : Nat) : bget (answer s v) m k = bget s m k := rfl

/-- NOW_NS_READ latches the fraction in 2^−16 ns as a 32-bit word. -/
theorem bget_nowNsRead_frac {m : Master} {s t : State} (h : CanReach m s Reg.TIME_NOW_NS.addr) (ht : exec (.nowNsRead m) s = .next t) :
    bget t m Reg.TIME_NOW_FRAC.addr = s.time.frac / 2 ^ 24 % 2 ^ 32 := by
  change Host.Outcome.next (pageAccess s m Reg.TIME_NOW_NS.addr _ _) = .next t at ht
  rw [pageAccess_open _ _ h] at ht
  obtain rfl := Host.Outcome.next.inj ht
  rw [bget_answer, bget_bput_self]

/-- Network time with NET ON and a fraction of 2^40 units of 2^−40 ns: a whole nanosecond, which the state's type does not shut out. -/
def fracOverflow : State := { setDom State.reset dNET { st := .on } with time := { frac := 2 ^ 40 } }

/-- The host reaches the TIME page in that state. -/
theorem canReach_fracOverflow : CanReach .host fracOverflow Reg.TIME_NOW_NS.addr := ⟨by decide, by decide, nofun⟩

/-- Refutes O12: the statement asks every state for a latched fraction below 2^16, and the model latches the whole quotient `frac / 2^24`.
With `frac = 2^40`, which is out of the range of a fraction but is a state, NOW_FRAC latches 65,536 where the statement says 0. -/
theorem not_lowWordReadsLatchTheRest : ¬ Obligations.LowWordReadsLatchTheRest := by
  unfold Obligations.LowWordReadsLatchTheRest
  rintro ⟨-, -, -, htime⟩
  obtain ⟨t, ht, -, -, -, -, hclaimed⟩ := htime .host fracOverflow canReach_fracOverflow
  have hlatched := bget_nowNsRead_frac canReach_fracOverflow ht
  rw [hclaimed] at hlatched
  revert hlatched
  decide

end Sys2Proof.Machine
end

section
/-! PROOFS. The protected segments of the point store (R7, R8), on the internal bus and by the cluster DMA. -/

namespace Sys2Proof.Machine

/-! ## Bytes of a number in memory -/

/-- Byte `i` of the number that a list of bytes spells. -/
theorem ofNat_leNat_div (l : List Byte) (i : Nat) (h : i < l.length) : BitVec.ofNat 8 (leNat l / 256 ^ i) = l[i] := by
  induction l generalizing i with
  | nil => simp at h
  | cons b r ih =>
    have hb : b.toNat < 256 := b.isLt
    cases i with
    | zero =>
      apply BitVec.eq_of_toNat_eq
      simp only [leNat, pow_zero, Nat.div_one, BitVec.toNat_ofNat, List.getElem_cons_zero]
      omega
    | succ i =>
      rw [List.getElem_cons_succ, ← ih i (by simpa using h), leNat, Nat.pow_succ', ← Nat.div_div_eq_div_mul]
      congr 2
      omega

/-- Byte `i` of a number in memory. -/
theorem ofNat_mnum_div (s : State) (a n i : Nat) (h : i < n) : BitVec.ofNat 8 (mnum s a n / 256 ^ i) = mget s (a + i) := by
  have hlen : i < (mread s a n).length := by simpa [mread] using h
  rw [mnum, ofNat_leNat_div _ _ hlen]
  simp [mread]

/-- Zero bytes spell zero. -/
theorem leNat_zeros (n : Nat) : leNat (List.replicate n 0) = 0 := by
  induction n with
  | zero => rfl
  | succ n ih => rw [List.replicate_succ, leNat, ih]; rfl

/-! ## Sump entries stay out of the point store -/

/-- A register update leaves memory. -/
theorem RegsWire.mget_eq {s t : State} (h : RegsWire s t) (a : Nat) : mget t a = mget s a := by
  unfold mget; rw [h.mem]

/-- A logged state's fault registers may be listed among what changed, as they stand. -/
theorem Logged.keeps_faults {s t : State} (h : Logged s t) : t = { s with mem := t.mem, regs := t.regs, wire := t.wire, mfault := t.mfault } := by
  have same : t.mfault = s.mfault := by rw [h]
  rw [same]
  exact h

/-- An entry without a tail copy leaves every byte past the sump (R415, R416). -/
theorem mget_post_other (s : State) (code source detail c : Nat) (hs : 2 < source) (hc : 0x10020000 ≤ c) : mget (post s code source detail) c = mget s c := by
  have hw : rd s Reg.SUMP_WPTR_INDEX < 2 ^ 12 := Nat.mod_lt _ (by decide)
  unfold post
  extract_lets e w u s1 s2 s3
  have hlen : e.length = 16 := by simp [e, sumpBytes]
  have h1 : mget s1 c = mget s c := by
    rw [(RegsWire.wr _ _ _).mget_eq]
    exact mget_mwrite_other e s _ c (by omega)
  clear_value s1
  have h2 : mget s2 c = mget s1 c := by
    simp only [s2]
    split
    · exact (RegsWire.wr _ _ _).mget_eq c
    · exact ((RegsWire.wr _ _ _).trans (incErr_shape _ _)).mget_eq c
  clear_value s2
  have h3 : mget s3 c = mget s2 c := ((incCnt_shape _ _).trans (raise_shape _ _ _)).mget_eq c
  split
  · rw [if_neg (by omega), h3, h2, h1]
  · rfl

/-- A refused access of an internal master is logged with its address and the master, and changes no byte outside the sump. -/
theorem badAccess_logs (s : State) (m : Master) (a : Nat) :
    NewEntry s (badAccess s m a) 0x5005 5 (a % 2 ^ 28 + mcode m * 2 ^ 28) ∧ (∀ c, 0x10020000 ≤ c → mget (badAccess s m a) c = mget s c) ∧
      badAccess s m a = { s with mem := (badAccess s m a).mem, regs := (badAccess s m a).regs, wire := (badAccess s m a).wire, mfault := (badAccess s m a).mfault } := by
  have hnew := post_new s 0x5005 5 (a % 2 ^ 28 + mcode m * 2 ^ 28) (by decide) (by decide) (by decide)
  have hother := fun c => mget_post_other s 0x5005 5 (a % 2 ^ 28 + mcode m * 2 ^ 28) c (by decide)
  have hshape := post_shape s 0x5005 5 (a % 2 ^ 28 + mcode m * 2 ^ 28)
  unfold badAccess
  dsimp only
  generalize post s 0x5005 5 (a % 2 ^ 28 + mcode m * 2 ^ 28) = u at hnew hother hshape
  rw [hshape] at *
  split <;> exact ⟨hnew, hother, rfl⟩

/-! ## Where a point lies -/

/-- A point's value lies in the point store. -/
theorem region_point {p a : Nat} (hp : p < 2 ^ 20) (ha : a = 0x30000000 + 8 * p) : region a = some (.points, 0x30800000) := by
  unfold region
  repeat rw [if_neg (by omega)]
  rw [if_pos (by omega)]

/-- A point's descriptor lies among the descriptors. -/
theorem region_desc {p : Nat} (hp : p < 2 ^ 20) : region (0x30800000 + 4 * p) = some (.descs, 0x30C00000) := by
  unfold region
  repeat rw [if_neg (by omega)]
  rw [if_pos (by omega)]

/-- Where a point's value lies, without the wrap of the address. -/
theorem ptAddr_of_lt {p : Nat} (hp : p < 2 ^ 20) : ptAddr p = 0x30000000 + 8 * p := by
  rw [ptAddr, Nat.mod_eq_of_lt hp]

/-- Bytes from the start of an 8-byte unit lie in that unit alone. -/
theorem dedup_wordsOf {q n : Nat} (h0 : 0 < n) (h8 : n ≤ 8) : ((wordsOf (8 * q) n).map (fun w => w / 2)).dedup = [q] := by
  have hcount : (8 * q + n - 1) / 4 + 1 - 8 * q / 4 = (n + 3) / 4 := by omega
  have hbase : 8 * q / 4 = 2 * q := by omega
  have h12 : (n + 3) / 4 = 1 ∨ (n + 3) / 4 = 2 := by omega
  unfold wordsOf
  rw [if_neg (by omega), hcount, hbase]
  rcases h12 with h | h
  · rw [h]
    simp [List.range_succ]
  · rw [h]
    simp [List.range_succ, show (2 * q + 1) / 2 = q by omega]

/-! ## The guards of the protected segments (R7, R8) -/

/-- Segment 28 takes no write from a master other than the safety processor, and logs it. -/
theorem ptGuard_protected {s : State} {m p : Nat} (f : State → State) (hseg : p / 2 ^ 15 = 28) (hm : m ≠ 3) :
    ptGuard s m p f = post s 0x300E 3 (p + m * 2 ^ 20) := if_pos (.inl ⟨hseg, hm⟩)

/-- Segment 28 takes a write from the safety processor. -/
theorem ptGuard_safetyProc {s : State} {p : Nat} (f : State → State) (hseg : p / 2 ^ 15 = 28) : ptGuard s (mcode .safetyProc) p f = f s := by
  have hseg' : p / 32768 = 28 := hseg
  simp [ptGuard, hseg', mcode]

/-- Outside a pair, segment 29 takes no write. -/
theorem ptGuard_unpaired {s : State} {m p : Nat} (f : State → State) (hseg : p / 2 ^ 15 = 29) (hpair : paired s = false) : ptGuard s m p f = s := by
  have hseg' : p / 32768 = 29 := hseg
  simp [ptGuard, hseg', hpair]

/-- Outside a pair, a point of segment 29 reads as zero. -/
theorem ptVal_unpaired {s : State} {p : Nat} (hseg : p / 2 ^ 15 = 29) (hpair : paired s = false) : ptVal s p = 0 := by
  have hseg' : p / 32768 = 29 := hseg
  simp [ptVal, hseg', hpair]

/-- Outside a pair, a point of segment 29 reads as stale. -/
theorem ptStale_unpaired {s : State} {p : Nat} (hseg : p / 2 ^ 15 = 29) (hpair : paired s = false) : ptStale s p = true := by
  have hseg' : p / 32768 = 29 := hseg
  simp [ptStale, hseg', hpair]

/-- Outside a pair the cluster DMA reads every point where it is. -/
theorem cdmaMap_unpaired {s : State} (p : Nat) (hpair : paired s = false) : cdmaMap s p = p := by
  have hrole : role s = rALONE := by simpa [paired] using hpair
  simp [cdmaMap, hrole, rALONE, rSTANDBY, rDETACHED]

/-! ## Internal accesses that are performed (R31) -/

/-- A read of a region that its master reaches, in a domain that is ON, is performed. -/
theorem exec_internalRead {m : Master} {a : W32} {n fin : Nat} {s : State} {r : Region} (hr : region a.toNat = some (r, fin))
    (hreach : canReach m r = true) (hfit : a.toNat + n ≤ fin) (hon : domOn s r.dom = true) (hpage : r ≠ .pages) :
    exec (.internalAccess m a (.read n)) s = .next (answer (internalRead s m r a.toNat n).2 (internalRead s m r a.toNat n).1) := by
  have hhost : m ≠ .host := by rintro rfl; exact absurd hreach (by simp [canReach])
  have hok : refused s m a.toNat n false = false := by simp [refused, hr, hreach, hfit]
  change execInternalAccess m a (.read n) s = _
  unfold execInternalAccess
  simp [hhost, hok, hr, hon, MemAcc.size, MemAcc.isWrite]

/-- A write to the point store by a master that reaches it is performed. -/
theorem exec_pointWrites {m : Master} {a : W32} {l : List Byte} {s : State} (hr : region a.toNat = some (.points, 0x30800000))
    (hreach : canReach m .points = true) (hfit : a.toNat + l.length ≤ 0x30800000) (hon : domOn s dNET = true) :
    exec (.internalAccess m a (.write l)) s = .next (pointWrites s m a.toNat l) := by
  have hhost : m ≠ .host := by rintro rfl; exact absurd hreach (by simp [canReach])
  have hok : refused s m a.toNat l.length true = false := by simp [refused, hr, hreach, hfit, Region.readOnly]
  have hdom : domOn s Region.points.dom = true := hon
  change execInternalAccess m a (.write l) s = _
  unfold execInternalAccess
  simp [hhost, hok, hr, hdom, MemAcc.size, MemAcc.isWrite, internalWrite]

/-- A write to the point store by a master that does not reach it is refused. -/
theorem exec_pointWrites_refused {m : Master} {a : W32} {l : List Byte} {s : State} (hr : region a.toNat = some (.points, 0x30800000))
    (hlo : 0x30000000 ≤ a.toNat) (hreach : canReach m .points = false) :
    exec (.internalAccess m a (.write l)) s = .next (badAccess s m a.toNat) := by
  have hbar : ¬(0x21000000 ≤ a.toNat ∧ a.toNat + l.length ≤ 0x21200000) := by omega
  have hok : refused s m a.toNat l.length true = true := by simp [refused, hr, hreach]
  change execInternalAccess m a (.write l) s = _
  unfold execInternalAccess
  simp [hbar, hok, MemAcc.size, MemAcc.isWrite]

/-! ## Reads and writes of one point -/

/-- The bytes of a point's value after its first bytes were written: those, then what stood behind them. -/
def patched (s : State) (p : Nat) (l : List Byte) : List Byte :=
  (List.range 8).map (fun i => if i < l.length then l.getD i 0 else mget s (0x30000000 + 8 * p + i))

/-- A full value is taken as it was written. -/
theorem patched_full (s : State) (p : Nat) {l : List Byte} (h : l.length = 8) : patched s p l = l := by
  apply List.ext_getElem
  · simp [patched, h]
  · intro i h1 h2
    simp [patched, h2]

/-- A write from the start of a point's value goes to that point, under its guard. -/
theorem pointWrites_one (s : State) (m : Master) (p : Nat) {l : List Byte} (hl : l ≠ []) (h8 : l.length ≤ 8) :
    pointWrites s m (0x30000000 + 8 * p) l = ptGuard s (mcode m) p (fun s => wrPt s p (leNat (patched s p l)) false) := by
  have hpos : 0 < l.length := List.length_pos_of_ne_nil hl
  have hunit : 0x30000000 + 8 * p = 8 * (0x6000000 + p) := by omega
  have hp : 0x6000000 + p - 0x30000000 / 8 = p := by omega
  have hbytes : ∀ s : State, (List.range 8).map (fun i =>
      if 8 * (0x6000000 + p) ≤ 8 * (0x6000000 + p) + i ∧ 8 * (0x6000000 + p) + i < 8 * (0x6000000 + p) + l.length then
        l.getD (8 * (0x6000000 + p) + i - 8 * (0x6000000 + p)) 0 else mget s (8 * (0x6000000 + p) + i)) = patched s p l := by
    intro s
    simp [patched, hunit]
  unfold pointWrites
  rw [hunit, dedup_wordsOf hpos h8]
  simp only [List.foldl_cons, List.foldl_nil, hp, hbytes]

/-- A read from the start of a point's value gives the low bytes of what the point reads. -/
theorem regionRead_point (s : State) {p n : Nat} (h8 : n ≤ 8) :
    regionRead s .points (0x30000000 + 8 * p) n = leNat ((List.range n).map (fun i => BitVec.ofNat 8 (ptVal s p / 256 ^ i))) := by
  unfold regionRead regionByte
  congr 1
  refine List.map_congr_left fun i hi => ?_
  have hi := List.mem_range.mp hi
  rw [show (0x30000000 + 8 * p + i - 0x30000000) / 8 = p by omega, show (0x30000000 + 8 * p + i) % 8 = i by omega]

/-- Outside segment 29 a read of a point gives what memory holds. -/
theorem regionRead_point_memory (s : State) {p n : Nat} (hp : p < 2 ^ 20) (h8 : n ≤ 8) (hseg : p / 2 ^ 15 ≠ 29) :
    regionRead s .points (0x30000000 + 8 * p) n = mnum s (0x30000000 + 8 * p) n := by
  have hval : ptVal s p = mnum s (0x30000000 + 8 * p) 8 := by
    rw [ptVal, if_neg (by omega), ptAddr_of_lt hp]
  rw [regionRead_point s h8, hval, mnum, mread]
  congr 1
  exact List.map_congr_left fun i hi => ofNat_mnum_div s _ 8 i (lt_of_lt_of_le (List.mem_range.mp hi) h8)

/-- Outside a pair a read of a point of segment 29 gives zero (R8). -/
theorem regionRead_point_unpaired {s : State} {p n : Nat} (h8 : n ≤ 8) (hseg : p / 2 ^ 15 = 29) (hpair : paired s = false) :
    regionRead s .points (0x30000000 + 8 * p) n = 0 := by
  rw [regionRead_point s h8, ptVal_unpaired hseg hpair]
  simpa using leNat_zeros n

/-- A descriptor read on the internal bus answers the point's stale flag in bit 0 (R440). -/
theorem internalRead_desc (s : State) (m : Master) {p : Nat} :
    (internalRead s m .descs (0x30800000 + 4 * p) 4).1 % 2 = b2n (ptStale s p) := by
  have hflag : ptStale (free s).2 p = ptStale s p := rfl
  have hcase : b2n (ptStale s p) = 0 ∨ b2n (ptStale s p) = 1 := by cases ptStale s p <;> simp [b2n]
  have hp : (0x30800000 + 4 * p + 0 - 0x30800000) / 4 = p := by omega
  have h4 : (0x30800000 + 4 * p + 0) % 4 = 0 := by omega
  simp only [internalRead, List.range_succ_eq_map, List.map_cons, leNat, h4, if_true, hp, hflag, BitVec.toNat_ofNat]
  omega

/-! ## The cluster DMA at one point (R78) -/

/-- A word of a point's value is written under the point's guard. -/
theorem cdmaWrite_point {s : State} (c : Nat) {p i : Nat} (v : Nat) (hp : p < 2 ^ 20) (hi : i < 2) (hon : domOn s dNET = true) :
    cdmaWrite s c (0x30000000 + 8 * p + 4 * i) v =
      ptGuard s (7 + c) p (fun s => setStale (msetNum s (0x30000000 + 8 * p + 4 * i) 4 v) p false) := by
  unfold cdmaWrite
  rw [if_pos (by omega), if_pos hon]
  dsimp only
  rw [show (0x30000000 + 8 * p + 4 * i - 0x30000000) / 8 = p by omega]

/-- Outside a pair a word of a point of segment 29 reads as zero (R8). -/
theorem cdmaRead_point_unpaired {s : State} (c : Nat) {p i : Nat} (hi : i < 2) (hon : domOn s dNET = true)
    (hseg : p / 2 ^ 15 = 29) (hpair : paired s = false) : cdmaRead s c (0x30000000 + 8 * p + 4 * i) = (0, s) := by
  unfold cdmaRead cdmaPoint
  rw [if_pos (by omega), if_pos hon, show (0x30000000 + 8 * p + 4 * i - 0x30000000) / 8 = p by omega, cdmaMap_unpaired p hpair, ptVal_unpaired hseg hpair]
  simp

/-- Outside a pair a descriptor of segment 29 reads as stale (R8). -/
theorem cdmaRead_desc_unpaired {s : State} (c : Nat) {p : Nat} (hon : domOn s dNET = true)
    (hseg : p / 2 ^ 15 = 29) (hpair : paired s = false) : (cdmaRead s c (0x30800000 + 4 * p)).1 % 2 = 1 := by
  unfold cdmaRead
  rw [if_neg (by omega), if_pos (by omega), if_pos hon, show (0x30800000 + 4 * p - 0x30800000) / 4 = p by omega, cdmaMap_unpaired p hpair]
  have hflag : ptStale s p = true := ptStale_unpaired hseg hpair
  simp only [hflag, b2n, if_true]
  omega

/-! ## The protected segments -/

/-- The safety processor's write of a point of segment 28 gives the point that value, current (R7). -/
theorem exec_safetyProc_write {s : State} {p : Nat} {a : W32} {l : List Byte} (hp : p < 2 ^ 20) (ha : a.toNat = 0x30000000 + 8 * p)
    (hon : domOn s dNET = true) (hseg : p / 2 ^ 15 = 28) (hl : l.length = 8) :
    exec (.internalAccess .safetyProc a (.write l)) s = .next (wrPt s p (leNat l) false) := by
  have hne : l ≠ [] := List.ne_nil_of_length_pos (by omega)
  rw [exec_pointWrites (region_point hp ha) rfl (by omega) hon, ha, pointWrites_one s _ p hne hl.le, ptGuard_safetyProc _ hseg, patched_full s p hl]

/-- A write to segment 28 by any other master that reaches the points is logged in place of it (R7). -/
theorem exec_write_protected {s : State} {p : Nat} {a : W32} {l : List Byte} {m : Master} (hp : p < 2 ^ 20) (ha : a.toNat = 0x30000000 + 8 * p)
    (hon : domOn s dNET = true) (hseg : p / 2 ^ 15 = 28) (hm : m ≠ .safetyProc) (hne : l ≠ []) (h8 : l.length ≤ 8) (hreach : canReach m .points = true) :
    exec (.internalAccess m a (.write l)) s = .next (post s 0x300E 3 (p + mcode m * 2 ^ 20)) := by
  have hcode : mcode m ≠ 3 := fun h => hm (mcode_inj h)
  rw [exec_pointWrites (region_point hp ha) hreach (by omega) hon, ha, pointWrites_one s _ p hne h8, ptGuard_protected _ hseg hcode]

/-- A write to segment 29 outside a pair does nothing (R8). -/
theorem exec_write_unpaired {s : State} {p : Nat} {a : W32} {l : List Byte} {m : Master} (hp : p < 2 ^ 20) (ha : a.toNat = 0x30000000 + 8 * p)
    (hon : domOn s dNET = true) (hseg : p / 2 ^ 15 = 29) (hpair : paired s = false) (hne : l ≠ []) (h8 : l.length ≤ 8) (hreach : canReach m .points = true) :
    exec (.internalAccess m a (.write l)) s = .next s := by
  rw [exec_pointWrites (region_point hp ha) hreach (by omega) hon, ha, pointWrites_one s _ p hne h8, ptGuard_unpaired _ hseg hpair]

/-- A read from the start of a point's value answers the point's bytes. -/
theorem exec_read_point {s : State} {p n : Nat} {a : W32} {m : Master} (hp : p < 2 ^ 20) (ha : a.toNat = 0x30000000 + 8 * p)
    (hon : domOn s dNET = true) (h8 : n ≤ 8) (hreach : canReach m .points = true) :
    exec (.internalAccess m a (.read n)) s = .next (answer s (regionRead s .points (0x30000000 + 8 * p) n)) := by
  rw [exec_internalRead (region_point hp ha) hreach (by omega) hon nofun, ha]
  rfl

/-- A read of a point's descriptor answers its stale flag in bit 0 and takes a free value for the others (R440). -/
theorem exec_read_desc {s : State} {p : Nat} {m : Master} (hp : p < 2 ^ 20) (hon : domOn s dNET = true) (hreach : canReach m .descs = true) :
    ∃ t r, exec (.internalAccess m (BitVec.ofNat 32 (0x30800000 + 4 * p)) (.read 4)) s = .next t ∧
      t = { s with resp := some r, freeIdx := t.freeIdx } ∧ r.toNat % 2 = b2n (ptStale s p) := by
  have ha : (BitVec.ofNat 32 (0x30800000 + 4 * p)).toNat = 0x30800000 + 4 * p := by
    rw [BitVec.toNat_ofNat]
    exact Nat.mod_eq_of_lt (by omega)
  refine ⟨_, _, exec_internalRead (ha ▸ region_desc hp) hreach (by omega) hon nofun, rfl, ?_⟩
  rw [ha, BitVec.toNat_ofNat, ← internalRead_desc s m]
  omega

/-- Settles O60: every access of a point goes through the point's guard and its reading outside a pair; what is refused is only logged. -/
theorem protectedPointSegments : Obligations.ProtectedPointSegments := by
  unfold Obligations.ProtectedPointSegments
  intro s p a hp ha hon points
  refine ⟨fun hseg => ⟨fun l hl => ?_, fun m n h8 hreach => ?_, fun m l hm hne h8 => ?_, fun c i v hi => ?_⟩,
    fun hseg hpair => ⟨ptVal_unpaired hseg hpair, ptStale_unpaired hseg hpair, fun m n h8 hreach => ?_, fun m hreach => ?_,
      fun m l hne h8 hreach => exec_write_unpaired hp ha hon hseg hpair hne h8 hreach, fun c i v hi => ?_⟩⟩
  · exact ⟨_, exec_safetyProc_write hp ha hon hseg hl, wrPt_shape _ _ _ _, wrPt_same _ _ _ _, wrPt_is _ _ _ _ (.inl (by omega))⟩
  · rw [exec_read_point hp ha hon h8 hreach, regionRead_point_memory s hp h8 (by omega), ha]
    rfl
  · by_cases hreach : canReach m .points = true
    · refine ⟨_, exec_write_protected hp ha hon hseg hm hne h8 hreach, fun c hc _ => mget_post_other _ _ _ _ c (by decide) (by omega), ?_, ?_, ?_⟩
      · exact (post_shape _ _ _ _).keeps_faults
      · exact fun _ => post_new _ _ _ _ (by decide) (by decide) (by decide)
      · exact fun h => absurd hreach (by simp [h])
    · obtain ⟨hnew, hother, hshape⟩ := badAccess_logs s m a.toNat
      rw [Bool.not_eq_true] at hreach
      exact ⟨_, exec_pointWrites_refused (region_point hp ha) (by omega) hreach, fun c hc _ => hother c (by omega), hshape,
        fun h => absurd h (by simp [hreach]), fun _ => hnew⟩
  · rw [cdmaWrite_point c v hp hi hon, ptGuard_protected _ hseg (by omega)]
    exact ⟨fun c hc _ => mget_post_other _ _ _ _ c (by decide) (by omega), post_shape _ _ _ _, post_new _ _ _ _ (by decide) (by decide) (by decide)⟩
  · rw [exec_read_point hp ha hon h8 hreach, regionRead_point_unpaired h8 hseg hpair]
    rfl
  · obtain ⟨t, r, hrun, hshape, hbit⟩ := exec_read_desc hp hon hreach
    exact ⟨t, r, hrun, hshape, by rw [hbit, ptStale_unpaired hseg hpair]; rfl⟩
  · exact ⟨cdmaRead_point_unpaired c hi hon hseg hpair, by rw [cdmaWrite_point c v hp hi hon, ptGuard_unpaired _ hseg hpair],
      cdmaRead_desc_unpaired c hon hseg hpair⟩

end Sys2Proof.Machine
end

section
/-! PROOFS. The canonical form of memory, at reset and under every step (R31). -/

namespace Sys2Proof.Machine

/-- LOOP keeps the canonical form of memory: a branch operation with nothing after its bundle. -/
theorem memOk_execLoop (e : Fin 64) (lc : Fin 2) (rot creg : Bool) (dn : Fin 32) (count : BitVec 12) (stop : Fin 2048) (s : State) (h : MemOk s) :
    ∀ u, execLoop e lc rot creg dn count stop s = .next u → MemOk u := by
  rintro u hu
  obtain rfl := Host.Outcome.next.inj hu
  exact memOk_branchOp _ _ _ _ (fun _ h => h) h

/-- Every command keeps the canonical form of memory. -/
theorem memOk_exec (c : Instr) (s : State) (h : MemOk s) : ∀ u, exec c s = .next u → MemOk u := by
  cases c with
  | registerWrite m addr size acc => exact memOk_execRegisterWrite m addr size acc s h
  | counterClear m addr w => exact memOk_execCounterClear m addr w s h
  | counterLowRead m addr => exact memOk_execCounterLowRead m addr s h
  | nowNsRead m => exact memOk_execNowNsRead m s h
  | internalAccess m addr acc => exact memOk_execInternalAccess m addr acc s h
  | acqBufferWrite addr => exact memOk_execAcqBufferWrite addr s h
  | stalledAccessResume d => exact memOk_execStalledAccessResume d s h
  | bridgeFrameSend d => exact memOk_execBridgeFrameSend d s h
  | bridgeFrameReceive atField crcOk => exact memOk_execBridgeFrameReceive atField crcOk s h
  | bridgeFault atField => exact memOk_execBridgeFault atField s h
  | bridgeRefresh => exact memOk_execBridgeRefresh s h
  | bridgeRefreshWithdraw => exact memOk_execBridgeRefreshWithdraw s h
  | refreshTimeout => exact memOk_execRefreshTimeout s h
  | bridgePageAccess m addr acc => exact memOk_execBridgePageAccess m addr acc s h
  | cycleBoundary clk => exact memOk_execCycleBoundary clk s h
  | nfReceive f => exact memOk_execNfReceive f s h
  | acceptanceWindowEnd p k => exact memOk_execAcceptanceWindowEnd p k s h
  | syReceive f => exact memOk_execSyReceive f s h
  | csReceive f => exact memOk_execCsReceive f s h
  | prReceive f => exact memOk_execPrReceive f s h
  | rankClashBackoffEnd => exact memOk_execRankClashBackoffEnd s h
  | primeHalt => exact memOk_execPrimeHalt s h
  | listenEnd => exact memOk_execListenEnd s h
  | asReceive f t3 => exact memOk_execAsReceive f t3 s h
  | asyncFrameReceive f cut => exact memOk_execAsyncFrameReceive f cut s h
  | spReceive f => exact memOk_execSpReceive f s h
  | rxLenCut p at_ rest => exact memOk_execRxLenCut p at_ rest s h
  | txCut p => exact memOk_execTxCut p s h
  | guardClosed p => exact memOk_execGuardClosed p s h
  | drift p k => exact memOk_execDrift p k s h
  | lineBreak p => exact memOk_execLineBreak p s h
  | relayEnd p => exact memOk_execRelayEnd p s h
  | spLaunch p k => exact memOk_execSpLaunch p k s h
  | lastLaunchComplete => exact memOk_execLastLaunchComplete s h
  | snapshotPart => exact memOk_execSnapshotPart s h
  | delayListRelease c => exact memOk_execDelayListRelease c s h
  | stallRelease => exact memOk_execStallRelease s h
  | clockGateClose c clocks => exact memOk_execClockGateClose c clocks s h
  | contextSaveDone e => exact memOk_execContextSaveDone e s h
  | contextRestoreDone e => exact memOk_execContextRestoreDone e s h
  | engineSelect e => exact memOk_execEngineSelect e s h
  | prefetchLoad e => exact memOk_execPrefetchLoad e s h
  | dmaInComplete e => exact memOk_execDmaInComplete e s h
  | dmaOutCommit e => exact memOk_execDmaOutCommit e s h
  | shedMapWrite m ix w => exact memOk_execShedMapWrite m ix w s h
  | withdrawWrite m c w => exact memOk_execWithdrawWrite m c w s h
  | commitRequest m w => exact memOk_execCommitRequest m w s h
  | ginstall m w => exact memOk_execGinstall m w s h
  | ginstallComplete => exact memOk_execGinstallComplete s h
  | loadimem m w => exact memOk_execLoadimem m w s h
  | loadimemComplete differs => exact memOk_execLoadimemComplete differs s h
  | nop e slot last => exact memOk_execNop e slot last s h
  | ld e y p dn md last => exact memOk_execLd e y p dn md last s h
  | ld2 e y p dn md last => exact memOk_execLd2 e y p dn md last s h
  | st e y p dn md last => exact memOk_execSt e y p dn md last s h
  | st2 e y p dn md last => exact memOk_execSt2 e y p dn md last s h
  | lid e r imm => exact memOk_execLid e r imm s h
  | lig e r imm => exact memOk_execLig e r imm s h
  | ligh e r imm => exact memOk_execLigh e r imm s h
  | lip e p imm => exact memOk_execLip e p imm s h
  | lix e r imm => exact memOk_execLix e r imm s h
  | b e cond t => exact memOk_execB e cond t s h
  | call e t => exact memOk_execCall e t s h
  | ret e => exact memOk_execRet e s h
  | loop e lc rot creg dn count stop => exact memOk_execLoop e lc rot creg dn count stop s h
  | evt e reg da flag t => exact memOk_execEvt e reg da flag t s h
  | done e lib => exact memOk_execDone e lib s h
  | yield e => exact memOk_execYield e s h
  | mac4 e mode dx dy sum last => exact memOk_execMac4 e mode dx dy sum last s h
  | msu4 e mode dx dy sum last => exact memOk_execMsu4 e mode dx dy sum last s h
  | mpy4 e mode dx dy sum last => exact memOk_execMpy4 e mode dx dy sum last s h
  | dot e k n dx dy last => exact memOk_execDot e k n dx dy last s h
  | dotn e k n dx dy last => exact memOk_execDotn e k n dx dy last s h
  | dotz e k n dx dy last => exact memOk_execDotz e k n dx dy last s h
  | ftap e p q k neg z last => exact memOk_execFtap e p q k neg z last s h
  | clra e mask last => exact memOk_execClra e mask last s h
  | adda e d a sh neg last => exact memOk_execAdda e d a sh neg last s h
  | add e d a b last => exact memOk_execAdd e d a b last s h
  | sub e d a b last => exact memOk_execSub e d a b last s h
  | adds e d a b last => exact memOk_execAdds e d a b last s h
  | subs e d a b last => exact memOk_execSubs e d a b last s h
  | and e d a b last => exact memOk_execAnd e d a b last s h
  | or e d a b last => exact memOk_execOr e d a b last s h
  | xor e d a b last => exact memOk_execXor e d a b last s h
  | min e d a b last => exact memOk_execMin e d a b last s h
  | max e d a b last => exact memOk_execMax e d a b last s h
  | sel e d a b last => exact memOk_execSel e d a b last s h
  | shl e d a b last => exact memOk_execShl e d a b last s h
  | asr e d a b last => exact memOk_execAsr e d a b last s h
  | mov e d a last => exact memOk_execMov e d a last s h
  | neg e d a last => exact memOk_execNeg e d a last s h
  | abs e d a last => exact memOk_execAbs e d a last s h
  | sat24 e d a last => exact memOk_execSat24 e d a last s h
  | not e d a last => exact memOk_execNot e d a last s h
  | hdrm e d a last => exact memOk_execHdrm e d a last s h
  | rflg e d last => exact memOk_execRflg e d last s h
  | getwct e d last => exact memOk_execGetwct e d last s h
  | clrcc e last => exact memOk_execClrcc e last s h
  | setpa e d a last => exact memOk_execSetpa e d a last s h
  | setpb e d a last => exact memOk_execSetpb e d a last s h
  | setpl e d a last => exact memOk_execSetpl e d a last s h
  | setpm e d a last => exact memOk_execSetpm e d a last s h
  | getpa e d a last => exact memOk_execGetpa e d a last s h
  | getlc e d a last => exact memOk_execGetlc e d a last s h
  | cmp e a b last => exact memOk_execCmp e a b last s h
  | ldc e d a b last => exact memOk_execLdc e d a b last s h
  | stc e d a b last => exact memOk_execStc e d a b last s h
  | ldcg e d a b last => exact memOk_execLdcg e d a b last s h
  | stcg e d a b last => exact memOk_execStcg e d a b last s h
  | gadd e d a b last => exact memOk_execGadd e d a b last s h
  | gsub e d a b last => exact memOk_execGsub e d a b last s h
  | gmov e d a last => exact memOk_execGmov e d a last s h
  | gneg e d a last => exact memOk_execGneg e d a last s h
  | gcmp e d a last => exact memOk_execGcmp e d a last s h
  | gsxd e d a last => exact memOk_execGsxd e d a last s h
  | glo e d a last => exact memOk_execGlo e d a last s h
  | ghi e d a last => exact memOk_execGhi e d a last s h
  | gseth e d a last => exact memOk_execGseth e d a last s h
  | rstv e d last => exact memOk_execRstv e d last s h
  | gsh e dir d a n last => exact memOk_execGsh e dir d a n last s h
  | b2f e d a k last => exact memOk_execB2f e d a k last s h
  | f2b e d a k last => exact memOk_execF2b e d a k last s h
  | gmul e d a b last => exact memOk_execGmul e d a b last s h
  | gdiv e d a b last => exact memOk_execGdiv e d a b last s h
  | addx e d a b last => exact memOk_execAddx e d a b last s h
  | subx e d a b last => exact memOk_execSubx e d a b last s h
  | maxx e d a b last => exact memOk_execMaxx e d a b last s h
  | minx e d a b last => exact memOk_execMinx e d a b last s h
  | movxd e d a last => exact memOk_execMovxd e d a last s h
  | movdx e d a last => exact memOk_execMovdx e d a last s h
  | norm e dn c x last => exact memOk_execNorm e dn c x last s h
  | aln e d xa xb last => exact memOk_execAln e d xa xb last s h
  | rda e dn k sh s24 last => exact memOk_execRda e dn k sh s24 last s h
  | cvtf e d a xs xk last => exact memOk_execCvtf e d a xs xk last s h
  | cvti e d a xa xs last => exact memOk_execCvti e d a xa xs last s h
  | lockup e => exact memOk_execLockup e s h
  | clrFault m e w => exact memOk_execClrFault m e w s h
  | axisAreaWrite m w => exact memOk_execAxisAreaWrite m w s h
  | axisWindowWrite m ix w => exact memOk_execAxisWindowWrite m ix w s h
  | axisLoad m w => exact memOk_execAxisLoad m w s h
  | mark m w => exact memOk_execMark m w s h
  | notch m w => exact memOk_execNotch m w s h
  | motionWindowWrite m ix w => exact memOk_execMotionWindowWrite m ix w s h
  | camTableWrite m t w => exact memOk_execCamTableWrite m t w s h
  | moveAbs m w => exact memOk_execMoveAbs m w s h
  | moveRel m w => exact memOk_execMoveRel m w s h
  | speed m w => exact memOk_execSpeed m w s h
  | gear m w => exact memOk_execGear m w s h
  | cam m w => exact memOk_execCam m w s h
  | free m w => exact memOk_execFree m w s h
  | super m w => exact memOk_execSuper m w s h
  | groupGo m w => exact memOk_execGroupGo m w s h
  | reregShift m w => exact memOk_execReregShift m w s h
  | reregMove m w => exact memOk_execReregMove m w s h
  | motionLoad m w => exact memOk_execMotionLoad m w s h
  | stop m w => exact memOk_execStop m w s h
  | halt m w => exact memOk_execHalt m w s h
  | stopClr m w => exact memOk_execStopClr m w s h
  | install m w => exact memOk_execInstall m w s h
  | installComplete => exact memOk_execInstallComplete s h
  | clear m w => exact memOk_execClear m w s h
  | swapReq m w => exact memOk_execSwapReq m w s h
  | reopen m p w => exact memOk_execReopen m p w s h
  | restart m w => exact memOk_execRestart m w s h
  | clashClr m w => exact memOk_execClashClr m w s h
  | asyncWindowStart p k => exact memOk_execAsyncWindowStart p k s h
  | txRecordComplete p stamp frac cut => exact memOk_execTxRecordComplete p stamp frac cut s h
  | averagingInstant => exact memOk_execAveragingInstant s h
  | rtcRealign => exact memOk_execRtcRealign s h
  | set m w => exact memOk_execSet m w s h
  | stepAccept m w => exact memOk_execStepAccept m w s h
  | stepCancel m w => exact memOk_execStepCancel m w s h
  | upstreamSyncEvent master ofs => exact memOk_execUpstreamSyncEvent master ofs s h
  | holdover => exact memOk_execHoldover s h
  | holdoverEnd => exact memOk_execHoldoverEnd s h
  | dlineMeasure => exact memOk_execDlineMeasure s h
  | announceReceive n a => exact memOk_execAnnounceReceive n a s h
  | gmResume n => exact memOk_execGmResume n s h
  | ptpSyncSend n what => exact memOk_execPtpSyncSend n what s h
  | timedLaunch p passed => exact memOk_execTimedLaunch p passed s h
  | ttArm m o w => exact memOk_execTtArm m o w s h
  | ttRearmEffect o => exact memOk_execTtRearmEffect o s h
  | ttOutputEdge o => exact memOk_execTtOutputEdge o s h
  | captureEdge n rise taken => exact memOk_execCaptureEdge n rise taken s h
  | capturePop m n => exact memOk_execCapturePop m n s h
  | peerFrameReceive lane ok c => exact memOk_execPeerFrameReceive lane ok c s h
  | laneDown lane => exact memOk_execLaneDown lane s h
  | relinquishReceive => exact memOk_execRelinquishReceive s h
  | faultedReceive => exact memOk_execFaultedReceive s h
  | inputImageSend => exact memOk_execInputImageSend s h
  | inputImageReceive pts => exact memOk_execInputImageReceive pts s h
  | inputEdgeInstant => exact memOk_execInputEdgeInstant s h
  | forwardedFrameReceive f => exact memOk_execForwardedFrameReceive f s h
  | mirrorRecordReceive r => exact memOk_execMirrorRecordReceive r s h
  | stateCopySend => exact memOk_execStateCopySend s h
  | csLossTakeover => exact memOk_execCsLossTakeover s h
  | pairJoin j => exact memOk_execPairJoin j s h
  | bulkCopyComplete b start => exact memOk_execBulkCopyComplete b start s h
  | swap m w => exact memOk_execSwap m w s h
  | swapCancel m w => exact memOk_execSwapCancel m w s h
  | join m w => exact memOk_execJoin m w s h
  | safetyEvaluation => exact memOk_execSafetyEvaluation s h
  | safetyInputChange chB ix level => exact memOk_execSafetyInputChange chB ix level s h
  | discTimeout chB p => exact memOk_execDiscTimeout chB p s h
  | aliveTimeout chB => exact memOk_execAliveTimeout chB s h
  | xcompTimeout chB => exact memOk_execXcompTimeout chB s h
  | inputTestPulse tp low => exact memOk_execInputTestPulse tp low s h
  | outputTestPulse q falls rises offHigh follows => exact memOk_execOutputTestPulse q falls rises offHigh follows s h
  | edmTimeout chB q => exact memOk_execEdmTimeout chB q s h
  | soOvl q => exact memOk_execSoOvl q s h
  | vfsafOutOfRange => exact memOk_execVfsafOutOfRange s h
  | ss1Expiry g => exact memOk_execSs1Expiry g s h
  | ss1BExpiry g => exact memOk_execSs1BExpiry g s h
  | resetPulse ms lowMs persists => exact memOk_execResetPulse ms lowMs persists s h
  | tpOverdue => exact memOk_execTpOverdue s h
  | psetInstall => exact memOk_execPsetInstall s h
  | enterTest => exact memOk_execEnterTest s h
  | leaveTest => exact memOk_execLeaveTest s h
  | encoderTransition n old new taken => exact memOk_execEncoderTransition n old new taken s h
  | zEdge n taken => exact memOk_execZEdge n taken s h
  | encoderSample n => exact memOk_execEncoderSample n s h
  | serialWordComplete n word => exact memOk_execSerialWordComplete n word s h
  | serialTimeout n => exact memOk_execSerialTimeout n s h
  | encFault n => exact memOk_execEncFault n s h
  | encLoad m n w => exact memOk_execEncLoad m n w s h
  | zarm m n w => exact memOk_execZarm m n w s h
  | encClr m n w => exact memOk_execEncClr m n w s h
  | ovl k => exact memOk_execOvl k s h
  | otemp k => exact memOk_execOtemp k s h
  | openWire k => exact memOk_execOpenWire k s h
  | shortLp k => exact memOk_execShortLp k s h
  | groupOverload g => exact memOk_execGroupOverload g s h
  | undervoltage g => exact memOk_execUndervoltage g s h
  | undervoltageEnd g => exact memOk_execUndervoltageEnd g s h
  | diagClear m r w => exact memOk_execDiagClear m r w s h
  | watchdogTrip => exact memOk_execWatchdogTrip s h
  | rearm m w => exact memOk_execRearm m w s h
  | cas m w => exact memOk_execCas m w s h
  | casExecute k => exact memOk_execCasExecute k s h
  | cisternAccess m word acc => exact memOk_execCisternAccess m word acc s h
  | snapGo m w => exact memOk_execSnapGo m w s h
  | dmaGo m c w => exact memOk_execDmaGo m c w s h
  | dmaStop m c w d data n => exact memOk_execDmaStop m c w d data n s h
  | dmaDescriptorComplete c d data pcieErr => exact memOk_execDmaDescriptorComplete c d data pcieErr s h
  | acqArm m w => exact memOk_execAcqArm m w s h
  | acqStop m w => exact memOk_execAcqStop m w s h
  | force m w => exact memOk_execForce m w s h
  | exportRec m w => exact memOk_execExportRec m w s h
  | exportComplete => exact memOk_execExportComplete s h
  | release m w => exact memOk_execRelease m w s h
  | holdoffExpiry => exact memOk_execHoldoffExpiry s h
  | canSync n => exact memOk_execCanSync n s h
  | canTxReq m n t w => exact memOk_execCanTxReq m n t w s h
  | canCancel m n t w => exact memOk_execCanCancel m n t w s h
  | canClr m n t w => exact memOk_execCanClr m n t w s h
  | canTxStart n => exact memOk_execCanTxStart n s h
  | canTxEnd n out ts frac => exact memOk_execCanTxEnd n out ts frac s h
  | canIdClash n => exact memOk_execCanIdClash n s h
  | canBusoff n => exact memOk_execCanBusoff n s h
  | recover m n w => exact memOk_execRecover m n w s h
  | canRecoveryComplete n => exact memOk_execCanRecoveryComplete n s h
  | canReceive n f => exact memOk_execCanReceive n f s h
  | bsel m n w => exact memOk_execBsel m n w s h
  | rxrel m n w => exact memOk_execRxrel m n w s h
  | pwrReq m w => exact memOk_execPwrReq m w s h
  | powerTransitionComplete d => exact memOk_execPowerTransitionComplete d s h
  | clusterOffExecute c => exact memOk_execClusterOffExecute c s h
  | standby m w => exact memOk_execStandby m w s h
  | standbyEntryComplete => exact memOk_execStandbyEntryComplete s h
  | pwrEnRaise => exact memOk_execPwrEnRaise s h
  | aoWakeEvent src => exact memOk_execAoWakeEvent src s h
  | vauxLoss => exact memOk_execVauxLoss s h
  | aoBrownOut => exact memOk_execAoBrownOut s h
  | pllLockLoss pll => exact memOk_execPllLockLoss pll s h
  | surgeReq m w => exact memOk_execSurgeReq m w s h
  | surgeVoltageReached => exact memOk_execSurgeVoltageReached s h
  | surgeSample hot current => exact memOk_execSurgeSample hot current s h
  | surgeHour => exact memOk_execSurgeHour s h
  | voltageStep vout => exact memOk_execVoltageStep vout s h
  | readIout current => exact memOk_execReadIout current s h
  | pmbAlert status => exact memOk_execPmbAlert status s h
  | replan src => exact memOk_execReplan src s h
  | replanComplete plan => exact memOk_execReplanComplete plan s h
  | aoPowerOn => exact memOk_execAoPowerOn s h
  | resetRelease bootsrc late => exact memOk_execResetRelease bootsrc late s h
  | supplyFail => exact memOk_execSupplyFail s h
  | warmReset cause => exact memOk_execWarmReset cause s h
  | bootStepDone find => exact memOk_execBootStepDone find s h
  | bootStepFail detail => exact memOk_execBootStepFail detail s h
  | hostimg m w => exact memOk_execHostimg m w s h
  | clearJournal m w => exact memOk_execClearJournal m w s h
  | reboot m w => exact memOk_execReboot m w s h
  | stage m w flashOk => exact memOk_execStage m w flashOk s h
  | select m w => exact memOk_execSelect m w s h
  | commitVer m w => exact memOk_execCommitVer m w s h
  | debugUnlock key sig => exact memOk_execDebugUnlock key sig s h
  | testEngine m w => exact memOk_execTestEngine m w s h
  | testCistbank m w => exact memOk_execTestCistbank m w s h
  | testScrub m w => exact memOk_execTestScrub m w s h
  | testEyescan m w => exact memOk_execTestEyescan m w s h
  | testSdscal m w => exact memOk_execTestSdscal m w s h
  | testPortloop m w => exact memOk_execTestPortloop m w s h
  | testCan m w => exact memOk_execTestCan m w s h
  | testEncoder m w => exact memOk_execTestEncoder m w s h
  | testOffline m w => exact memOk_execTestOffline m w s h
  | testStart ix => exact memOk_execTestStart ix s h
  | testComplete ix pass margin => exact memOk_execTestComplete ix pass margin s h
  | testTimeout ix => exact memOk_execTestTimeout ix s h
  | srst m page w => exact memOk_execSrst m page w s h
  | lock m page w clk => exact memOk_execLock m page w clk s h
  | evtSet m page w => exact memOk_execEvtSet m page w s h
  | ack m w => exact memOk_execAck m w s h
  | entry0Read m => exact memOk_execEntry0Read m s h
  | portLinkDown p peerUp => exact memOk_execPortLinkDown p peerUp s h
  | timeUnitFault => exact memOk_execTimeUnitFault s h
  | csLoss => exact memOk_execCsLoss s h
  | vauxValid => exact memOk_execVauxValid s h
  | vfsafReturn => exact memOk_execVfsafReturn s h
  | switchCooled k => exact memOk_execSwitchCooled k s h
  | encoderTrackingSample k a b => exact memOk_execEncoderTrackingSample k a b s h
  | canBusError n by8 => exact memOk_execCanBusError n by8 s h
  | plantFrameReceive n f => exact memOk_execPlantFrameReceive n f s h
  | emulationEdge m => exact memOk_execEmulationEdge m s h
  | eccScrub mem double => exact memOk_execEccScrub mem double s h

/-- A step keeps the canonical form of memory: an idle one passes a clock, any other runs the front command. -/
theorem memOk_step {s t : State} (h : MemOk s) (ht : step s = .next t) : MemOk t := by
  unfold step at ht
  split at ht
  · obtain rfl := Host.Outcome.next.inj ht
    exact memOk_clockTick s h
  · exact memOk_exec _ _ (memOk_mk (memOk_mem h)) t ht

/-- Settles O5: the front command keeps the form, and so does a clock of idle time. -/
theorem everyStepKeepsMemoryCanonical : Obligations.EveryStepKeepsMemoryCanonical := fun _ _ h ht => memOk_step h ht

/-- Settles O4: reset leaves no byte listed. -/
theorem resetMemoryIsCanonical : Obligations.ResetMemoryIsCanonical := rfl

end Sys2Proof.Machine
end

section
/-! PROOFS. Accesses of the internal address space and accesses that take another path (R24, R31 to R33, R370). -/

namespace Sys2Proof.Machine

/-! ## Refused internal accesses (R32) -/

/-- With STEWARD ON, an entry without a tail copy is written at the write place; the rest of posting leaves memory. -/
theorem post_mem {s : State} (code detail : Nat) {source : Nat} (hd : domOn s dSTEWARD = true) (hs : 2 < source) :
    (post s code source detail).mem = (mwrite s (0x10010000 + 16 * rd s Reg.SUMP_WPTR_INDEX) (sumpBytes s code source detail)).mem := by
  unfold post
  rw [if_pos hd]
  dsimp only
  rw [if_neg (by omega), raise_mem, incCnt_mem]
  split
  · rfl
  · rw [incErr_mem]; rfl

/-- An entry without a tail copy changes only the 16 bytes at the write place (R415). -/
theorem post_sameMemBut (s : State) (code detail : Nat) {source : Nat} (hs : 2 < source) :
    SameMemBut (0x10010000 + 16 * rd s Reg.SUMP_WPTR_INDEX) 16 s (post s code source detail) := by
  intro c hc
  by_cases hd : domOn s dSTEWARD = true
  · rw [mget, post_mem code detail hd hs]
    exact mget_mwrite_other _ _ _ _ (by simpa [sumpBytes] using hc)
  · rw [post, if_neg hd]

/-- The sump's write place is one of its 4,096 entries. -/
theorem rd_sumpWptr_lt (s : State) : rd s Reg.SUMP_WPTR_INDEX < 2 ^ 12 := Nat.mod_lt _ (by decide)

/-- A refused access changes no byte outside the sump. -/
theorem mget_badAccess (s : State) (m : Master) (a : Nat) {c : Nat} (hc : ¬(0x10010000 ≤ c ∧ c < 0x10020000)) :
    mget (badAccess s m a) c = mget s c := by
  have hmem : (badAccess s m a).mem = (post s 0x5005 5 (a % 2 ^ 28 + mcode m * 2 ^ 28)).mem := by
    unfold badAccess
    dsimp only
    split <;> rfl
  have hw := rd_sumpWptr_lt s
  rw [mget, hmem]
  exact post_sameMemBut s _ _ (by decide) c (by omega)

/-- A refused access stands in its master's fault register with its address. -/
theorem badAccess_mfault (s : State) (m : Master) (a : Nat) :
    (tget (fun _ => ({} : MFault)) (badAccess s m a).mfault (mcode m)).valid = true ∧
      (tget (fun _ => ({} : MFault)) (badAccess s m a).mfault (mcode m)).addr = a := by
  unfold badAccess
  dsimp only
  split <;> simp [emit]

/-- What no region holds, what the master does not reach, and a write of what is read only is refused. -/
theorem refused_of_region {s : State} {m : Master} {a : Nat} (n : Nat) {wr : Bool}
    (h : region a = none ∨ ∃ r fin, region a = some (r, fin) ∧ (canReach m r = false ∨ (wr = true ∧ r.readOnly = true))) :
    refused s m a n wr = true := by
  unfold refused
  obtain h | ⟨r, fin, h, hreach | ⟨hw, hro⟩⟩ := h
  · rw [h]
  · simp [h, hreach]
  · simp [h, hw, hro]

/-- A refused access off the host's window is logged; a read is answered with ones. -/
theorem exec_internal_refused {m : Master} {a : W32} {acc : MemAcc} {s : State}
    (hbar : ¬(m = .host ∧ 0x21000000 ≤ a.toNat ∧ a.toNat + MemAcc.size acc ≤ 0x21200000))
    (h : refused s m a.toNat (MemAcc.size acc) (MemAcc.isWrite acc) = true) :
    exec (.internalAccess m a acc) s =
      .next (if MemAcc.isWrite acc = true then badAccess s m a.toNat else answer (badAccess s m a.toNat) allOnes) := by
  change execInternalAccess m a acc s = _
  unfold execInternalAccess
  simp only [hbar, h, if_true, if_false]

/-! ## Performed internal accesses (R31) -/

/-- Regions whose bytes are read from memory as they stand. -/
theorem internalRead_memory (s : State) (m : Master) {r : Region} (a n : Nat) (h : r ∉ [Region.rom, .cist, .points, .descs, .pages])
    (hbuf : ∀ p, r ≠ .pbuf p) : internalRead s m r a n = (mnum s a n, s) := by
  simp only [List.mem_cons, List.not_mem_nil, or_false, not_or] at h
  obtain ⟨hrom, hcist, hpoints, hdescs, hpages⟩ := h
  cases r with
  | rom => exact absurd rfl hrom
  | cist => exact absurd rfl hcist
  | points => exact absurd rfl hpoints
  | descs => exact absurd rfl hdescs
  | pages => exact absurd rfl hpages
  | pbuf p => exact absurd rfl (hbuf p)
  | ret | sump | acq | clm _ | le _ => rfl

/-- A performed write of retention RAM, the sump or cluster memory writes its bytes. -/
theorem exec_internal_mwrite {m : Master} {a : W32} {l : List Byte} {s : State} {r : Region} {fin : Nat} (hr : region a.toNat = some (r, fin))
    (hreach : canReach m r = true) (hfit : a.toNat + l.length ≤ fin) (hon : domOn s r.dom = true) (h : r = .ret ∨ r = .sump ∨ ∃ c, r = .clm c) :
    exec (.internalAccess m a (.write l)) s = .next (mwrite s a.toNat l) := by
  have hhost : m ≠ .host := by rintro rfl; exact absurd hreach (by simp [canReach])
  change execInternalAccess m a (.write l) s = _
  unfold execInternalAccess
  have hpast : ¬fin < a.toNat + l.length := by omega
  obtain rfl | rfl | ⟨c, rfl⟩ := h <;>
    simp [hhost, refused, hr, hreach, hpast, hon, Region.readOnly, MemAcc.size, MemAcc.isWrite, internalWrite]

/-- The host reads the acquisition buffer through BAR4 (R33). -/
theorem exec_bar4_read {a : W32} {n : Nat} {s : State} (hlo : 0x21000000 ≤ a.toNat) (hhi : a.toNat + n ≤ 0x21200000)
    (hhost : domOn s dHOST = true) (hcist : domOn s dCIST = true) :
    exec (.internalAccess .host a (.read n)) s = .next { s with resp := some (BitVec.ofNat 32 (mnum s a.toNat n)) } := by
  change execInternalAccess .host a (.read n) s = _
  unfold execInternalAccess
  simp [hlo, hhi, MemAcc.size, bar4, hhost, domAccess, hcist, acqRead, answer]

/-- The register pages fill their region. -/
theorem region_pages {a : Nat} (hlo : 0x40000000 ≤ a) (hhi : a < 0x41000000) : region a = some (.pages, 0x41000000) := by
  unfold region
  repeat rw [if_neg (by omega)]
  rw [if_pos ⟨hlo, hhi⟩]

/-- An internal access as the register pages take it. -/
def pageAcc : MemAcc → WordAcc
  | .read _ => .read
  | .write b => .write (BitVec.ofNat 32 (leNat b))

/-- An internal access of the register pages is the register access at that page and offset. -/
theorem exec_internal_pages {m : Master} {a : W32} {acc : MemAcc} {s : State} (hlo : 0x40000000 ≤ a.toNat) (hlt : a.toNat < 0x41000000)
    (hhi : a.toNat + MemAcc.size acc ≤ 0x41000000) (hreach : canReach m .pages = true) :
    exec (.internalAccess m a acc) s = exec (.registerWrite m (BitVec.ofNat 24 (a.toNat - 0x40000000)) (MemAcc.size acc) (pageAcc acc)) s := by
  have hbar : ¬(m = .host ∧ 0x21000000 ≤ a.toNat ∧ a.toNat + MemAcc.size acc ≤ 0x21200000) := by omega
  have hr := region_pages hlo hlt
  have hok : refused s m a.toNat (MemAcc.size acc) (MemAcc.isWrite acc) = false := by simp [refused, hr, hreach, hhi, Region.readOnly]
  have hofs : (BitVec.ofNat 24 (a.toNat - 0x40000000)).toNat = a.toNat - 0x40000000 := by
    rw [BitVec.toNat_ofNat]
    exact Nat.mod_eq_of_lt (by omega)
  change execInternalAccess m a acc s = execRegisterWrite m _ _ _ s
  unfold execInternalAccess execRegisterWrite
  rw [hofs]
  simp only [hbar, hok, hr, if_false, Bool.false_eq_true]
  cases acc <;> rfl

/-- Settles O16, region by region. -/
theorem internalAccess : Obligations.InternalAccess := by
  unfold Obligations.InternalAccess
  intro m a s
  refine ⟨fun acc hbar h => ?_, fun r fin n hr hreach hfit hon hmem hbuf => ?_, fun r fin l hr hreach hfit hon h => ?_,
    fun p fin n hr hreach hfit hon => ?_, fun n hm hlo hhi hhost hcist => ?_, fun n w hlo h4 hn hreach => ⟨?_, ?_⟩⟩
  · obtain ⟨hvalid, haddr⟩ := badAccess_mfault s m a.toNat
    have hbytes : ∀ c, ¬(0x10010000 ≤ c ∧ c < 0x10020000) → ¬(0x10000000 ≤ c ∧ c < 0x10001000) → mget (badAccess s m a.toNat) c = mget s c :=
      fun c hc _ => mget_badAccess s m _ hc
    refine ⟨_, exec_internal_refused hbar (refused_of_region _ h), ?_⟩
    split
    · next hw => exact ⟨fun hread => absurd hw (by simp [hread]), hvalid, haddr, hbytes⟩
    · exact ⟨fun _ => rfl, hvalid, haddr, hbytes⟩
  · have hpages : r ≠ .pages := by rintro rfl; simp at hmem
    rw [exec_internalRead hr hreach hfit hon hpages, internalRead_memory s m _ _ hmem hbuf]
    rfl
  · exact ⟨_, exec_internal_mwrite hr hreach hfit hon h, mwrite_shape .., fun c hc => mget_mwrite_other _ _ _ _ hc,
      fun i hi => mget_mwrite_self _ _ _ _ hi⟩
  · exact ⟨_, exec_internalRead hr hreach hfit hon nofun⟩
  · subst hm
    exact exec_bar4_read hlo hhi hhost hcist
  · exact ⟨_, exec_internal_pages (acc := .read n) hlo (by omega) hn hreach, rfl⟩
  · have hw : pageAcc (.write (leBytes 4 w.toNat)) = .write w := by
      rw [pageAcc, leNat_leBytes, show 256 ^ 4 = 2 ^ 32 from rfl, Nat.mod_eq_of_lt w.isLt, BitVec.ofNat_toNat, BitVec.setWidth_eq]
    have hsize : MemAcc.size (.write (leBytes 4 w.toNat)) = 4 := length_leBytes 4 _
    refine ⟨_, ?_, rfl⟩
    rw [exec_internal_pages hlo (by omega) (by rwa [hsize]) hreach, hw, hsize]
    rfl

/-! ## Accesses that take another path (R24, R33, R370) -/

/-- With its domain ON, the oldest access stalled for the domain is performed, taken from the list. -/
theorem exec_stalledAccessResume {d : Fin 16} {s : State} {x : Stalled} (hon : domOn s d = true)
    (h : s.stalled.find? (fun x => x.dom == d.val) = some x) :
    exec (.stalledAccessResume d) s = .next (resume { s with stalled := s.stalled.erase x } x.acc) := by
  change execStalledAccessResume d s = _
  unfold execStalledAccessResume
  rw [if_pos hon, h]

/-- Settles O17: the bridge and a resumed access take the path of the access itself; a write through BAR4 is only logged. -/
theorem bridgeAndStalledAccesses : Obligations.BridgeAndStalledAccesses := by
  unfold Obligations.BridgeAndStalledAccesses
  refine ⟨fun m a acc s => ⟨_, rfl, rfl⟩, fun d s m a n acc hon h => ⟨_, exec_stalledAccessResume hon h, rfl⟩,
    fun d s m a acc hon h => ⟨_, exec_stalledAccessResume hon h, rfl⟩, fun d s m p w clk hon h => ⟨_, exec_stalledAccessResume hon h, rfl⟩,
    fun d s a n hon h => exec_stalledAccessResume hon h, fun a s hhost hcist => ?_⟩
  have hrun : exec (.acqBufferWrite a) s = .next (errlog s 0xB1 2 .host a.toNat) := by
    change execAcqBufferWrite a s = _
    unfold execAcqBufferWrite
    rw [if_pos hhost, if_pos hcist]
  exact ⟨_, hrun, errlog_shape .., errlog_sameRegsBut s 0xB1000 2 .host a.toNat, errlog_valid _ _ _ _ _ (by decide),
    fun hfirst => rdw_errlog_first s 0xB1 2 .host a.toNat (by decide) hfirst⟩

end Sys2Proof.Machine
end

section
/-! PROOFS. What the operations of a boundary, of a launch and of the die bridge leave as it is: the control registers taken over, the cycle count and the bridge. -/


namespace Sys2Proof.Machine

/-- The control registers taken over, the cycle count and the bridge, each as state `s₀` holds it. -/
def KeptCore (s₀ : State) (ctl : Tbl W32) (cycle : Nat) (bridge : BridgeSt) : Prop :=
  ctl = s₀.ctl ∧ cycle = s₀.sched.cycle ∧ bridge = s₀.bridge

/-- `s` has the control registers taken over, the cycle count and the bridge of `s₀`. -/
def Keeps (s₀ s : State) : Prop := KeptCore s₀ s.ctl s.sched.cycle s.bridge

section
variable {s₀ : State}

theorem Keeps.refl (s : State) : Keeps s s := ⟨rfl, rfl, rfl⟩

theorem keeps_mem {s : State} (h : Keeps s₀ s) : KeptCore s₀ s.ctl s.sched.cycle s.bridge := h

theorem keeps_mk {pending regs banked ctl mem pwr stalled mfault standby localTest surge ao boot tests lockSeq cist casPend snapRun snapLatch dma time field safe pair bridge sched engs axes mots motRec camPend stops commit lemac safeA safeB plants tts capts encs emus acq cans eyes wire resp freeIdx}
    (h : KeptCore s₀ ctl sched.cycle bridge) : Keeps s₀ (State.mk pending regs banked ctl mem pwr stalled mfault standby localTest surge ao boot tests lockSeq cist casPend snapRun snapLatch dma time field safe pair bridge sched engs axes mots motRec camPend stops commit lemac safeA safeB plants tts capts encs emus acq cans eyes wire resp freeIdx) := h

theorem keeps_ite {c : Prop} [Decidable c] {a b : State} (ha : Keeps s₀ a) (hb : Keeps s₀ b) : Keeps s₀ (if c then a else b) := by
  split <;> assumption

theorem keeps_foldl {β : Type} {f : State → β → State} (hf : ∀ s x, Keeps s₀ s → Keeps s₀ (f s x)) (l : List β) {s : State} (h : Keeps s₀ s) :
    Keeps s₀ (l.foldl f s) := List.foldlRecOn l f h (fun s h x _ => hf s x h)

theorem keeps_foldl_fst {β γ : Type} {f : State × γ → β → State × γ} (hf : ∀ s x, Keeps s₀ s.1 → Keeps s₀ (f s x).1) (l : List β) {s : State × γ}
    (h : Keeps s₀ s.1) : Keeps s₀ (l.foldl f s).1 := List.foldlRecOn l f (motive := fun s => Keeps s₀ s.1) h (fun s h x _ => hf s x h)

theorem keeps_foldl_snd {β γ : Type} {f : γ × State → β → γ × State} (hf : ∀ s x, Keeps s₀ s.2 → Keeps s₀ (f s x).2) (l : List β) {s : γ × State}
    (h : Keeps s₀ s.2) : Keeps s₀ (l.foldl f s).2 := List.foldlRecOn l f (motive := fun s => Keeps s₀ s.2) h (fun s h x _ => hf s x h)

theorem keeps_mput {s : State} (a : Nat) (b : Byte) (h : Keeps s₀ s) : Keeps s₀ (mput s a b) := h
theorem keeps_mwrite (l : List Byte) {s : State} (a : Nat) (h : Keeps s₀ s) : Keeps s₀ (mwrite s a l) := by
  induction l generalizing s a with
  | nil => exact h
  | cons b r ih => exact ih (a + 1) (keeps_mput a b h)

theorem keeps_wrw (s : State) (k v : Nat) (h : Keeps s₀ s) : Keeps s₀ (wrw s k v) := by
  simp only [wrw, keeps_mk, keeps_mem, h]

theorem keeps_wr (s : State) (f : Fld) (v : Nat) (h : Keeps s₀ s) : Keeps s₀ (wr s f v) := by
  simp only [wr, keeps_wrw, h]

theorem keeps_wrs (s : State) (l : List (Fld × Nat)) (h : Keeps s₀ s) : Keeps s₀ (wrs s l) := by
  simp +contextual only [wrs, implies_true, keeps_foldl, keeps_wr, h]

theorem keeps_wr64 (s : State) (lo hi : Fld) (v : Nat) (h : Keeps s₀ s) : Keeps s₀ (wr64 s lo hi v) := by
  simp only [wr64, keeps_wr, h]

theorem keeps_emit (s : State) (o : Out) (h : Keeps s₀ s) : Keeps s₀ (emit s o) := by
  simp only [emit, keeps_mk, keeps_mem, h]

theorem keeps_free (s : State) (h : Keeps s₀ s) : Keeps s₀ (free s).2 := by
  simp only [free, keeps_mk, keeps_mem, h]

theorem keeps_sendVec (s : State) (v : Nat) (h : Keeps s₀ s) : Keeps s₀ (sendVec s v) := by
  simp (maxDischargeDepth := 200) only [sendVec, keeps_ite, keeps_emit, keeps_wrw, h]

theorem keeps_raise (s : State) (p b : Nat) (h : Keeps s₀ s) : Keeps s₀ (raise s p b) := by
  simp (maxDischargeDepth := 200) only [raise, keeps_ite, keeps_sendVec, keeps_wrw, h]

theorem keeps_setSticky (s : State) (f : Fld) (h : Keeps s₀ s) : Keeps s₀ (setSticky s f) := by
  simp (maxDischargeDepth := 200) only [setSticky, keeps_ite, keeps_raise, keeps_wr, h]

theorem keeps_setStat (s : State) (f : Fld) (h : Keeps s₀ s) : Keeps s₀ (setStat s f) := by
  simp (maxDischargeDepth := 200) only [setStat, keeps_ite, keeps_raise, keeps_wr, h]

theorem keeps_addCnt (s : State) (f : Fld) (n : Nat) (h : Keeps s₀ s) : Keeps s₀ (addCnt s f n) := by
  simp (maxDischargeDepth := 200) only [addCnt, keeps_ite, keeps_setStat, keeps_wr, h]

theorem keeps_incCnt (s : State) (f : Fld) (h : Keeps s₀ s) : Keeps s₀ (incCnt s f) := by
  simp only [incCnt, keeps_addCnt, h]

theorem keeps_incErr (s : State) (f : Fld) (h : Keeps s₀ s) : Keeps s₀ (incErr s f) := by
  simp only [incErr, keeps_ite, keeps_setStat, keeps_wr, h]

theorem keeps_errlog (s : State) (p cause : Nat) (m : Master) (ofs : Nat) (h : Keeps s₀ s) : Keeps s₀ (errlog s p cause m ofs) := by
  simp (maxDischargeDepth := 200) only [errlog, keeps_ite, keeps_raise, keeps_wr, keeps_wrw, h]

theorem keeps_msetNum (s : State) (a n v : Nat) (h : Keeps s₀ s) : Keeps s₀ (msetNum s a n v) := by
  simp only [msetNum, keeps_mwrite, h]

theorem keeps_setStale (s : State) (a : Nat) (st : Bool) (h : Keeps s₀ s) : Keeps s₀ (setStale s a st) := by
  simp only [setStale, keeps_mput, h]

theorem keeps_wrPt (s : State) (a v : Nat) (st : Bool) (h : Keeps s₀ s) : Keeps s₀ (wrPt s a v st) := by
  simp (maxDischargeDepth := 200) only [wrPt, keeps_ite, keeps_msetNum, keeps_setStale, h]

theorem keeps_tailCopy (s : State) (e : List Byte) (h : Keeps s₀ s) : Keeps s₀ (tailCopy s e) := by
  simp only [tailCopy, keeps_mwrite, keeps_wr, h]

theorem keeps_post (s : State) (code source detail : Nat) (h : Keeps s₀ s) : Keeps s₀ (post s code source detail) := by
  simp (maxDischargeDepth := 200) only [post, keeps_ite, keeps_mwrite, keeps_incCnt, keeps_incErr, keeps_raise, keeps_tailCopy, keeps_wr, h]

theorem keeps_postOther (s : State) (source : Nat) (h : Keeps s₀ s) : Keeps s₀ (postOther s source) := by
  simp (maxDischargeDepth := 200) only [postOther, keeps_free, keeps_post, h]

theorem keeps_setEng (s : State) (e : Nat) (x : Engine) (h : Keeps s₀ s) : Keeps s₀ (setEng s e x) := by
  simp only [setEng, keeps_mk, keeps_mem, h]

theorem keeps_setRole (s : State) (r : Nat) (h : Keeps s₀ s) : Keeps s₀ (setRole s r) := by
  simp only [setRole, keeps_wr, h]

theorem keeps_showReady (s : State) (h : Keeps s₀ s) : Keeps s₀ (showReady s) := by
  simp only [showReady, keeps_wr, h]

theorem keeps_showCapacity (s : State) (h : Keeps s₀ s) : Keeps s₀ (showCapacity s) := by
  simp (maxDischargeDepth := 200) only [showCapacity, keeps_ite, keeps_showReady, keeps_wr, h]

theorem keeps_capacityCheck (s : State) (mhz : Nat) (h : Keeps s₀ s) : Keeps s₀ (capacityCheck s mhz) := by
  simp (maxDischargeDepth := 200) +contextual only [capacityCheck, implies_true, keeps_ite, keeps_foldl, keeps_incCnt, keeps_post, keeps_raise, keeps_showCapacity, keeps_wr, keeps_wrs, h]

theorem keeps_showQueue (s : State) (h : Keeps s₀ s) : Keeps s₀ (showQueue s) := by
  simp only [showQueue, keeps_wrs, h]

theorem keeps_testEnd (s : State) (r : TestReq) (status : Nat) (h : Keeps s₀ s) : Keeps s₀ (testEnd s r status) := by
  simp (maxDischargeDepth := 200) only [testEnd, keeps_ite, keeps_raise, keeps_wrs, h]

theorem keeps_engineBack (s : State) (r : TestReq) (h : Keeps s₀ s) : Keeps s₀ (engineBack s r) := by
  simp (maxDischargeDepth := 200) only [engineBack, keeps_ite, keeps_mk, keeps_mem, keeps_capacityCheck, keeps_wr, h]

theorem keeps_abortTests (s : State) (which : TestReq → Bool) (h : Keeps s₀ s) : Keeps s₀ (abortTests s which) := by
  simp (maxDischargeDepth := 200) +contextual only [abortTests, implies_true, keeps_mk, keeps_mem, keeps_foldl, keeps_engineBack, keeps_showQueue, keeps_testEnd, h]

theorem keeps_setPort (s : State) (p : Nat) (x : PortSt) (h : Keeps s₀ s) : Keeps s₀ (setPort s p x) := by
  simp only [setPort, keeps_mk, keeps_mem, h]

theorem keeps_endRelays (s : State) (h : Keeps s₀ s) : Keeps s₀ (endRelays s) := by
  simp (maxDischargeDepth := 200) +contextual only [endRelays, implies_true, keeps_ite, keeps_foldl, keeps_setPort, keeps_wr, h]

theorem keeps_stopLaunch (s : State) (h : Keeps s₀ s) : Keeps s₀ (stopLaunch s) := by
  simp (maxDischargeDepth := 200) only [stopLaunch, keeps_mk, keeps_mem, keeps_wr, h]

theorem keeps_cancelSwap (s : State) (cause : Nat) (h : Keeps s₀ s) : Keeps s₀ (cancelSwap s cause) := by
  simp (maxDischargeDepth := 200) only [cancelSwap, keeps_ite, keeps_post, keeps_wr, h]

theorem keeps_noteItems (s : State) (l : List MItem) (h : Keeps s₀ s) : Keeps s₀ (noteItems s l) := by
  simp (maxDischargeDepth := 200) only [noteItems, keeps_ite, keeps_mk, keeps_mem, h]

theorem keeps_noteItem (s : State) (i : MItem) (h : Keeps s₀ s) : Keeps s₀ (noteItem s i) := by
  simp only [noteItem, keeps_noteItems, h]

theorem keeps_setTask (s : State) (t : Nat) (x : TaskSt) (h : Keeps s₀ s) : Keeps s₀ (setTask s t x) := by
  simp only [setTask, keeps_mk, keeps_mem, h]

theorem keeps_setWell (s : State) (c p : Nat) (l : List Tok) (h : Keeps s₀ s) : Keeps s₀ (setWell s c p l) := by
  simp (maxDischargeDepth := 200) only [setWell, keeps_ite, keeps_mk, keeps_mem, keeps_wr, h]

theorem keeps_makeToken (s : State) (t : Nat) (h : Keeps s₀ s) : Keeps s₀ (makeToken s t).1 := by
  unfold makeToken
  dsimp only
  repeat' split
  all_goals simp only [keeps_setTask, h]

theorem keeps_newTok (s : State) (t : Nat) (h : Keeps s₀ s) : Keeps s₀ (newTok s t).2 := by
  simp only [newTok, keeps_mk, keeps_mem, h]

theorem keeps_openGate (s : State) (c : Nat) (h : Keeps s₀ s) : Keeps s₀ (openGate s c) := by
  simp only [openGate, keeps_mk, keeps_mem, h]

theorem keeps_openGates (s : State) (c t : Nat) (h : Keeps s₀ s) : Keeps s₀ (openGates s c t) := by
  simp (maxDischargeDepth := 200) only [openGates, keeps_ite, keeps_openGate, h]

theorem keeps_tryPreempt (s : State) (c : Nat) (h : Keeps s₀ s) : Keeps s₀ (tryPreempt s c) := by
  unfold tryPreempt
  dsimp only
  repeat' split
  all_goals simp (maxDischargeDepth := 200) only [keeps_incCnt, keeps_setEng, keeps_setWell, h]

theorem keeps_placeWell {s t : State} {b k c : Nat} (h : Keeps s₀ s) (e : placeTok.placeWell s b k c = some t) : Keeps s₀ t := by
  simp only [placeTok.placeWell] at e
  split at e
  · cases e
    simp (maxDischargeDepth := 200) only [keeps_ite, keeps_openGates, keeps_setWell, keeps_newTok, keeps_tryPreempt, h]
  · cases e

theorem keeps_placeTok {s t : State} {k : Nat} {loc : Option Nat} (h : Keeps s₀ s) (e : placeTok s k loc = some t) : Keeps s₀ t := by
  simp only [placeTok] at e
  split at e
  · cases e
    exact keeps_incCnt _ _ h
  · split at e
    · split at e
      · cases e
        simp (maxDischargeDepth := 200) only [keeps_openGate, keeps_setEng, keeps_newTok, h]
      · cases e
    · split at e
      · split at e
        · cases e
          simp (maxDischargeDepth := 200) only [keeps_openGate, keeps_setEng, keeps_newTok, h]
        · exact keeps_placeWell h e
      · exact keeps_placeWell h e

theorem keeps_postFlag (s : State) (t f : Nat) (h : Keeps s₀ s) : Keeps s₀ (postFlag s t f).1 := by
  unfold postFlag
  dsimp only
  repeat' split
  all_goals simp only [keeps_makeToken, keeps_setTask, h]

theorem keeps_fireEdge (s : State) (src : Option Nat) (w : Edge) (h : Keeps s₀ s) : Keeps s₀ (fireEdge s src w).1 := by
  unfold fireEdge
  dsimp only
  repeat' split
  all_goals simp only [keeps_mk, keeps_mem, keeps_incErr, keeps_postFlag, keeps_setTask, h]

theorem keeps_countStall (s : State) (t : Nat) (h : Keeps s₀ s) : Keeps s₀ (countStall s t) := by
  simp only [countStall, keeps_incCnt, h]

theorem keeps_runEdges (src eng : Option Nat) (l : List Edge) (s : State) (h : Keeps s₀ s) : Keeps s₀ (runEdges s src eng l).1 := by
  induction l generalizing s with
  | nil => exact h
  | cons w r ih =>
    have hf := keeps_fireEdge s src w h
    simp only [runEdges]
    split
    · exact ih _ hf
    · split
      · next he => exact ih _ (keeps_placeTok hf he)
      · exact keeps_countStall _ _ hf

theorem keeps_runItem (s : State) (i : PostItem) (h : Keeps s₀ s) : Keeps s₀ (runItem s i).1 := by
  simp only [runItem]
  split
  · split
    · next he => exact keeps_runEdges _ _ _ _ (keeps_placeTok h he)
    · exact keeps_ite (keeps_countStall _ _ h) h
  · exact keeps_runEdges _ _ _ _ h

theorem keeps_setPoster (s : State) (w : Nat) (l : List PostItem) (h : Keeps s₀ s) : Keeps s₀ (setPoster s w l) := by
  simp only [setPoster, keeps_mk, keeps_mem, h]

theorem keeps_drainItems (l : List PostItem) (s : State) (h : Keeps s₀ s) : Keeps s₀ (drainItems s l).1 := by
  induction l generalizing s with
  | nil => exact h
  | cons i r ih =>
    have hf := keeps_runItem s i h
    simp only [drainItems]
    split
    · exact ih _ hf
    · exact hf

theorem keeps_releaseEng (s : State) (e : Nat) (h : Keeps s₀ s) : Keeps s₀ (releaseEng s e) := by
  simp only [releaseEng, keeps_ite, keeps_setEng, h]

theorem keeps_drain (s : State) (w : Nat) (h : Keeps s₀ s) : Keeps s₀ (drain s w) := by
  simp (maxDischargeDepth := 200) +contextual only [drain, implies_true, keeps_ite, keeps_foldl, keeps_drainItems, keeps_releaseEng, keeps_setPoster, h]

theorem keeps_postItem (s : State) (w : Nat) (i : PostItem) (h : Keeps s₀ s) : Keeps s₀ (postItem s w i) := by
  simp only [postItem, keeps_drain, keeps_setPoster, h]

theorem keeps_fireEdges (s : State) (w : Nat) (l : List Edge) (h : Keeps s₀ s) : Keeps s₀ (fireEdges s w l) := by
  simp only [fireEdges, keeps_ite, keeps_postItem, h]

theorem keeps_setBlk (s : State) (b : Nat) (x : BlkOwn) (h : Keeps s₀ s) : Keeps s₀ (setBlk s b x) := by
  simp only [setBlk, keeps_mk, keeps_mem, h]

theorem keeps_setFloat (s : State) (b new : Nat) (priv : Bool) (h : Keeps s₀ s) : Keeps s₀ (setFloat s b new priv) := by
  simp only [setFloat, keeps_setBlk, h]

theorem keeps_setAxis (s : State) (a : Nat) (x : AxisSt) (h : Keeps s₀ s) : Keeps s₀ (setAxis s a x) := by
  simp only [setAxis, keeps_mk, keeps_mem, h]

theorem keeps_setMot (s : State) (c : Nat) (x : MotSt) (h : Keeps s₀ s) : Keeps s₀ (setMot s c x) := by
  simp only [setMot, keeps_mk, keeps_mem, h]

theorem keeps_askStop (s : State) (due : Nat) (ch : Option Nat) (grade : Nat) (lost : Bool) (h : Keeps s₀ s) : Keeps s₀ (askStop s due ch grade lost) := by
  simp only [askStop, keeps_mk, keeps_mem, h]

theorem keeps_stopChan (s : State) (c g : Nat) (d : Int) (ext : Bool) (h : Keeps s₀ s) : Keeps s₀ (stopChan s c g d ext) := by
  simp only [stopChan, keeps_ite, keeps_setMot, h]

theorem keeps_losePath (s : State) (c : Nat) (h : Keeps s₀ s) : Keeps s₀ (losePath s c) := by
  simp +contextual only [losePath, implies_true, keeps_foldl, keeps_setMot, h]

theorem keeps_stopGroup (s : State) (c g : Nat) (h : Keeps s₀ s) : Keeps s₀ (stopGroup s c g) := by
  simp (maxDischargeDepth := 200) +contextual only [stopGroup, implies_true, keeps_ite, keeps_foldl, keeps_stopChan, h]

theorem keeps_applyStops (s : State) (n : Nat) (h : Keeps s₀ s) : Keeps s₀ (applyStops s n) := by
  have key : ∀ (l : List StopReq) (s : State) (g : Nat), Keeps s₀ s → Keeps s₀ (l.foldl (fun s r =>
      if r.grade = g then
        match r.ch with
        | some c => if motEn s c then (let s := if g = 0 then s else stopGroup s c g; if r.lost then losePath s c else s) else s
        | none => (chans s).foldl (fun s c => stopGroup s c g) s
      else s) s) := by
    intro l s g h
    apply keeps_foldl (h := h)
    intro s r h
    split
    · split
      · simp (maxDischargeDepth := 200) only [keeps_ite, keeps_stopGroup, keeps_losePath, h]
      · exact keeps_foldl (fun s x h => keeps_stopGroup _ _ _ h) _ h
    · exact h
  simp only [applyStops]
  exact key _ _ _ (key _ _ _ (key _ _ _ (key _ _ _ h)))

theorem keeps_applyClr (s : State) (n : Nat) (h : Keeps s₀ s) : Keeps s₀ (applyClr s n) := by
  simp (maxDischargeDepth := 200) +contextual only [applyClr, implies_true, keeps_ite, keeps_foldl, keeps_setMot, h]

theorem keeps_clearLost (s : State) (h : Keeps s₀ s) : Keeps s₀ (clearLost s) := by
  simp +contextual only [clearLost, implies_true, keeps_foldl, keeps_setMot, h]

theorem keeps_groupStage (s : State) (c : Nat) (len : Int) (h : Keeps s₀ s) : Keeps s₀ (groupStage s c len) := by
  simp +contextual only [groupStage, implies_true, keeps_foldl, keeps_setMot, h]

theorem keeps_reregShift (s : State) (c : Nat) (h : Keeps s₀ s) : Keeps s₀ (reregShift s c) := by
  simp only [reregShift, keeps_setMot, h]

theorem keeps_groupGo (s : State) (c : Nat) (k : MotCmd) (h : Keeps s₀ s) : Keeps s₀ (groupGo s c k) := by
  simp (maxDischargeDepth := 200) +contextual only [groupGo, implies_true, keeps_ite, keeps_foldl, keeps_groupStage, keeps_setMot, h]

theorem keeps_cmdEffect (s : State) (c : Nat) (k : MotCmd) (h : Keeps s₀ s) : Keeps s₀ (cmdEffect s c k) := by
  unfold cmdEffect
  dsimp only
  repeat' split
  all_goals simp only [keeps_groupGo, keeps_reregShift, keeps_setMot, h]

theorem keeps_applyCmds (s : State) (n : Nat) (acted : Nat → Bool) (h : Keeps s₀ s) : Keeps s₀ (applyCmds s n acted) := by
  unfold applyCmds
  refine keeps_foldl (fun s c h => ?_) _ h
  split
  · refine keeps_ite ?_ h
    have h1 := keeps_setMot s c { mot s c with cmd := none } h
    exact keeps_ite (keeps_postOther _ _ h1) (keeps_ite h1 (keeps_cmdEffect _ _ _ h1))
  · exact h

theorem keeps_planCmds (s : State) (h : Keeps s₀ s) : Keeps s₀ (planCmds s) := by
  unfold planCmds
  refine keeps_foldl (fun s c h => ?_) _ h
  split
  · refine keeps_ite ?_ h
    split
    · exact keeps_noteItem _ _ (keeps_setMot _ _ _ h)
    · exact h
  · exact h

theorem keeps_motionBoundary (s : State) (n : Nat) (h : Keeps s₀ s) : Keeps s₀ (motionBoundary s n) := by
  unfold motionBoundary
  dsimp only
  all_goals simp (maxDischargeDepth := 200) only [keeps_applyClr, keeps_applyCmds, keeps_applyStops, keeps_clearLost, h]

theorem keeps_reinit (s : State) (a : Nat) (h : Keeps s₀ s) : Keeps s₀ (reinit s a) := by
  simp (maxDischargeDepth := 200) only [reinit, keeps_ite, keeps_losePath, keeps_setAxis, h]

theorem keeps_afterAxisCommit (s : State) (a b : Nat) (h : Keeps s₀ s) : Keeps s₀ (afterAxisCommit s a b) := by
  simp only [afterAxisCommit, keeps_ite, keeps_reinit, keeps_setAxis, h]

theorem keeps_markAxis (s : State) (a : Nat) (h : Keeps s₀ s) : Keeps s₀ (markAxis s a) := by
  simp only [markAxis, keeps_ite, keeps_setAxis, h]

theorem keeps_markPeriod (s : State) (h : Keeps s₀ s) : Keeps s₀ (markPeriod s) := by
  simp +contextual only [markPeriod, implies_true, keeps_foldl, keeps_markAxis, h]

theorem keeps_latchSnap (s : State) (h : Keeps s₀ s) : Keeps s₀ (latchSnap s) := by
  unfold latchSnap
  split <;> simp only [keeps_mk, keeps_mem, h]

theorem keeps_surgeStart (s : State) (h : Keeps s₀ s) : Keeps s₀ (surgeStart s) := by
  simp (maxDischargeDepth := 200) only [surgeStart, keeps_mk, keeps_mem, keeps_capacityCheck, keeps_wr, h]

theorem keeps_surgeNote (s : State) (cause : Nat) (h : Keeps s₀ s) : Keeps s₀ (surgeNote s cause) := by
  simp only [surgeNote, keeps_incCnt, keeps_wr, h]

theorem keeps_surgeTry (s : State) (count : Bool) (h : Keeps s₀ s) : Keeps s₀ (surgeTry s count) := by
  simp (maxDischargeDepth := 200) only [surgeTry, keeps_ite, keeps_capacityCheck, keeps_surgeNote, keeps_surgeStart, h]

theorem keeps_surgeBoundary (s : State) (h : Keeps s₀ s) : Keeps s₀ (surgeBoundary s) := by
  simp (maxDischargeDepth := 200) only [surgeBoundary, keeps_ite, keeps_mk, keeps_mem, keeps_incCnt, keeps_surgeTry, keeps_wr, keeps_wrs, h]

theorem keeps_commitAxes (s : State) (l : List Nat) (h : Keeps s₀ s) : Keeps s₀ (commitAxes s l) := by
  simp (maxDischargeDepth := 200) +contextual only [commitAxes, implies_true, keeps_foldl, keeps_afterAxisCommit, keeps_markAxis, keeps_setAxis, h]

theorem keeps_commitMotion (s : State) (l cams : List Nat) (h : Keeps s₀ s) : Keeps s₀ (commitMotion s l cams) := by
  simp (maxDischargeDepth := 200) +contextual only [commitMotion, implies_true, keeps_mk, keeps_mem, keeps_foldl, keeps_setMot, keeps_wrw, h]

theorem keeps_commitDue (s : State) (n : Nat) (h : Keeps s₀ s) : Keeps s₀ (commitDue s n) := by
  unfold commitDue
  split <;> simp (maxDischargeDepth := 200) only [keeps_ite, keeps_mk, keeps_mem, keeps_commitAxes, keeps_commitMotion, keeps_raise, keeps_setSticky, keeps_wr, h]

theorem keeps_setChan (s : State) (b : Bool) (x : Chan) (h : Keeps s₀ s) : Keeps s₀ (setChan s b x) := by
  simp only [setChan, keeps_mk, keeps_mem, h]

theorem keeps_safetyStop (s : State) (g grade : Nat) (h : Keeps s₀ s) : Keeps s₀ (safetyStop s g grade) := by
  simp (maxDischargeDepth := 200) +contextual only [safetyStop, implies_true, keeps_ite, keeps_foldl, keeps_askStop, keeps_noteItem, h]

theorem keeps_enterSto (s : State) (b : Bool) (gs : BitVec 4) (h : Keeps s₀ s) : Keeps s₀ (enterSto s b gs) := by
  simp (maxDischargeDepth := 200) +contextual only [enterSto, implies_true, keeps_ite, keeps_foldl, keeps_safetyStop, keeps_setChan, h]

theorem keeps_recordFault (s : State) (b : Bool) (cause : Nat) (h : Keeps s₀ s) : Keeps s₀ (recordFault s b cause) := by
  simp (maxDischargeDepth := 200) only [recordFault, keeps_ite, keeps_incErr, keeps_post, keeps_wrw, h]

theorem keeps_lockOut (s : State) (b : Bool) (h : Keeps s₀ s) : Keeps s₀ (lockOut s b) := by
  simp only [lockOut, keeps_enterSto, keeps_setChan, h]

theorem keeps_showSwitches (s : State) (before : BitVec 2 × BitVec 2) (h : Keeps s₀ s) : Keeps s₀ (showSwitches s before) := by
  simp only [showSwitches, keeps_ite, keeps_emit, h]

theorem keeps_reSwitch (s : State) (h : Keeps s₀ s) : Keeps s₀ (reSwitch s) := by
  simp (maxDischargeDepth := 200) only [reSwitch, keeps_setChan, keeps_showSwitches, h]

theorem keeps_showSusp (s : State) (h : Keeps s₀ s) : Keeps s₀ (showSusp s) := by
  simp only [showSusp, keeps_ite, keeps_wr, h]

theorem keeps_safeShow (s : State) (h : Keeps s₀ s) : Keeps s₀ (safeShow s) := by
  simp (maxDischargeDepth := 200) only [safeShow, keeps_ite, keeps_enterSto, keeps_post, keeps_reSwitch, keeps_showSusp, keeps_wrs, h]

theorem keeps_chanFault (s : State) (b : Bool) (code index : Nat) (h : Keeps s₀ s) : Keeps s₀ (chanFault s b code index) := by
  simp (maxDischargeDepth := 200) only [chanFault, keeps_ite, keeps_lockOut, keeps_recordFault, keeps_safeShow, keeps_setChan, h]

theorem keeps_takeOther (s : State) (b : Bool) (o : ChanStat) (h : Keeps s₀ s) : Keeps s₀ (takeOther s b o) := by
  simp (maxDischargeDepth := 200) only [takeOther, keeps_ite, keeps_lockOut, keeps_recordFault, keeps_safeShow, keeps_setChan, h]

theorem keeps_writeSafeA (s : State) (h : Keeps s₀ s) : Keeps s₀ (writeSafeA s) := by
  simp (maxDischargeDepth := 200) only [writeSafeA, keeps_ite, keeps_mk, keeps_mem, h]

theorem keeps_safePoints (s : State) (h : Keeps s₀ s) : Keeps s₀ (safePoints s) := by
  simp (maxDischargeDepth := 200) +contextual only [safePoints, implies_true, keeps_ite, keeps_foldl, keeps_wrPt, h]

theorem keeps_relayEnd (s : State) (p : Nat) (h : Keeps s₀ s) : Keeps s₀ (relayEnd s p) := by
  simp only [relayEnd, keeps_wrs, h]

theorem keeps_setEpoch (s : State) (e : Nat) (h : Keeps s₀ s) : Keeps s₀ (setEpoch s e) := by
  simp (maxDischargeDepth := 200) only [setEpoch, keeps_mk, keeps_mem, keeps_wr, h]

theorem keeps_sendFrame (s : State) (p at_ : Nat) (b : List Byte) (h : Keeps s₀ s) : Keeps s₀ (sendFrame s p at_ b) := by
  simp only [sendFrame, keeps_emit, keeps_incCnt, h]

theorem keeps_setTime (s : State) (t : Nat) (h : Keeps s₀ s) : Keeps s₀ (setTime s t) := by
  simp only [setTime, keeps_mk, keeps_mem, h]

theorem keeps_moveTime (s : State) (d : Int) (h : Keeps s₀ s) : Keeps s₀ (moveTime s d) := by
  simp (maxDischargeDepth := 200) only [moveTime, keeps_mk, keeps_mem, keeps_setTime, h]

theorem keeps_ownPass (s : State) (d : Int) (h : Keeps s₀ s) : Keeps s₀ (ownPass s d) := by
  simp only [ownPass, keeps_mk, keeps_mem, h]

theorem keeps_netPass (s : State) (d : Int) (h : Keeps s₀ s) : Keeps s₀ (netPass s d) := by
  simp only [netPass, keeps_ownPass, h]

theorem keeps_joinSync (s : State) (h : Keeps s₀ s) : Keeps s₀ (joinSync s) := by
  simp (maxDischargeDepth := 200) only [joinSync, keeps_ite, keeps_mk, keeps_mem, h]

theorem keeps_dropHistory (s : State) (h : Keeps s₀ s) : Keeps s₀ (dropHistory s) := by
  simp only [dropHistory, keeps_mk, keeps_mem, h]

theorem keeps_launchCs (s : State) (h : Keeps s₀ s) : Keeps s₀ (launchCs s) := by
  simp (maxDischargeDepth := 200) +contextual only [launchCs, implies_true, keeps_ite, keeps_foldl, keeps_incCnt, keeps_sendFrame, h]

theorem keeps_sendPr (s : State) (pcyc : Nat) (h : Keeps s₀ s) : Keeps s₀ (sendPr s pcyc) := by
  simp (maxDischargeDepth := 200) +contextual only [sendPr, implies_true, keeps_ite, keeps_foldl, keeps_sendFrame, h]

theorem keeps_startCs (s : State) (h : Keeps s₀ s) : Keeps s₀ (startCs s) := by
  simp (maxDischargeDepth := 200) only [startCs, keeps_ite, keeps_mk, keeps_mem, keeps_dropHistory, keeps_joinSync, keeps_moveTime, keeps_setEpoch, keeps_wr, h]

theorem keeps_primeBoundary (s : State) (h : Keeps s₀ s) : Keeps s₀ (primeBoundary s) := by
  simp (maxDischargeDepth := 200) only [primeBoundary, keeps_ite, keeps_mk, keeps_mem, keeps_sendPr, keeps_startCs, h]

theorem keeps_logLateRuns (s : State) (h : Keeps s₀ s) : Keeps s₀ (logLateRuns s) := by
  simp (maxDischargeDepth := 200) +contextual only [logLateRuns, implies_true, keeps_foldl, keeps_post, keeps_raise, h]

theorem keeps_setPlant (s : State) (n : Nat) (x : PlantSt) (h : Keeps s₀ s) : Keeps s₀ (setPlant s n x) := by
  simp only [setPlant, keeps_mk, keeps_mem, h]

theorem keeps_setTt (s : State) (o : Nat) (x : TtSt) (h : Keeps s₀ s) : Keeps s₀ (setTt s o x) := by
  simp (maxDischargeDepth := 200) only [setTt, keeps_mk, keeps_mem, keeps_wr, h]

theorem keeps_ttEmit (s : State) (o : Nat) (a : TtArm) (n : Nat) (h : Keeps s₀ s) : Keeps s₀ (ttEmit s o a n) := by
  simp (maxDischargeDepth := 200) only [ttEmit, keeps_addCnt, keeps_emit, keeps_setTt, keeps_wr, h]

theorem keeps_ttStep (s : State) (h : Keeps s₀ s) : Keeps s₀ (ttStep s) := by
  unfold ttStep
  apply keeps_foldl (h := h)
  intro s o h
  split
  · simp only [keeps_ite, keeps_ttEmit, h]
  · exact h

theorem keeps_captPoints (s : State) (h : Keeps s₀ s) : Keeps s₀ (captPoints s) := by
  simp (maxDischargeDepth := 200) +contextual only [captPoints, implies_true, keeps_ite, keeps_foldl, keeps_wrPt, h]

theorem keeps_setEnc (s : State) (n : Nat) (x : EncSt) (h : Keeps s₀ s) : Keeps s₀ (setEnc s n x) := by
  simp only [setEnc, keeps_mk, keeps_mem, h]

theorem keeps_encEdges (s : State) (n : Nat) (h : Keeps s₀ s) : Keeps s₀ (encEdges s n) := by
  simp only [encEdges, keeps_fireEdges, h]

theorem keeps_takeEncEdges (s : State) (h : Keeps s₀ s) : Keeps s₀ (takeEncEdges s) := by
  simp only [takeEncEdges, keeps_mk, keeps_mem, h]

theorem keeps_encTimeStep (s : State) (d : Int) (h : Keeps s₀ s) : Keeps s₀ (encTimeStep s d) := by
  simp +contextual only [encTimeStep, implies_true, keeps_foldl, keeps_setEnc, h]

theorem keeps_encHandBack (s : State) (n : Nat) (h : Keeps s₀ s) : Keeps s₀ (encHandBack s n).2 := by
  unfold encHandBack
  split <;> simp only [keeps_setEnc, keeps_wrs, h]

theorem keeps_encBoundary (s : State) (was : Nat → Nat) (h : Keeps s₀ s) : Keeps s₀ (encBoundary s was) := by
  simp (maxDischargeDepth := 200) +contextual only [encBoundary, implies_true, keeps_ite, keeps_foldl, keeps_encHandBack, keeps_setEnc, keeps_takeEncEdges, keeps_wr, h]

theorem keeps_setEmu (s : State) (m : Nat) (x : EmuSt) (h : Keeps s₀ s) : Keeps s₀ (setEmu s m x) := by
  simp only [setEmu, keeps_mk, keeps_mem, h]

theorem keeps_emuUpdate (s : State) (m : Nat) (h : Keeps s₀ s) : Keeps s₀ (emuUpdate s m) := by
  simp (maxDischargeDepth := 200) only [emuUpdate, keeps_ite, keeps_incCnt, keeps_setEmu, keeps_wr, h]

theorem keeps_emuUpdates (s : State) (h : Keeps s₀ s) : Keeps s₀ (emuUpdates s) := by
  simp (maxDischargeDepth := 200) +contextual only [emuUpdates, implies_true, keeps_ite, keeps_foldl, keeps_emuUpdate, h]

theorem keeps_emuBoundary (s : State) (h : Keeps s₀ s) : Keeps s₀ (emuBoundary s) := by
  simp (maxDischargeDepth := 200) +contextual only [emuBoundary, implies_true, keeps_ite, keeps_foldl, keeps_setEmu, keeps_setSticky, keeps_wr, keeps_wrPt, h]

theorem keeps_redrive (s : State) (h : Keeps s₀ s) : Keeps s₀ (redrive s) := by
  simp (maxDischargeDepth := 200) only [redrive, keeps_ite, keeps_mk, keeps_mem, keeps_emit, keeps_wr, h]

theorem keeps_applyImage (s : State) (img : BitVec 16) (h : Keeps s₀ s) : Keeps s₀ (applyImage s img) := by
  simp (maxDischargeDepth := 200) only [applyImage, keeps_mk, keeps_mem, keeps_redrive, h]

theorem keeps_fieldImage (s : State) (h : Keeps s₀ s) : Keeps s₀ (fieldImage s) := by
  unfold fieldImage
  split <;> simp (maxDischargeDepth := 200) +contextual only [implies_true, keeps_ite, keeps_foldl, keeps_setStale, keeps_wrPt, h]

theorem keeps_setAcqState (s : State) (n : Nat) (h : Keeps s₀ s) : Keeps s₀ (setAcqState s n) := by
  simp only [setAcqState, keeps_wr, h]

theorem keeps_evalTrigger (s : State) (h : Keeps s₀ s) : Keeps s₀ (evalTrigger s).2 := by
  simp only [evalTrigger, keeps_mk, keeps_mem, h]

theorem keeps_acqTake (s : State) (c : Nat) (h : Keeps s₀ s) : Keeps s₀ (acqTake s c) := by
  simp (maxDischargeDepth := 200) only [acqTake, keeps_ite, keeps_mk, keeps_mem, h]

theorem keeps_acqSample (s : State) (c : Nat) (h : Keeps s₀ s) : Keeps s₀ (acqSample s c).2.2 := by
  unfold acqSample
  dsimp only
  repeat' split
  all_goals simp only [keeps_free, h]

theorem keeps_acqRow (s : State) (h : Keeps s₀ s) : Keeps s₀ (acqRow s).2 := by
  have key : ∀ (l : List Nat) (a : Nat × List Byte × State), Keeps s₀ a.2.2 → Keeps s₀ (l.foldl (fun (a : Nat × List Byte × State) c =>
      let x := acqSample a.2.2 c
      (a.1 + b2n x.1 * 2 ^ c, a.2.1 ++ x.2.1, x.2.2)) a).2.2 := by
    intro l
    induction l with
    | nil => intro a h; exact h
    | cons c r ih => intro a h; exact ih _ (keeps_acqSample _ _ h)
  exact key (acqChans s) (0, [], s) h

theorem keeps_acqWrite (l : List Byte) (s : State) (o : Nat) (h : Keeps s₀ s) : Keeps s₀ (acqWrite s o l) := by
  induction l generalizing s o with
  | nil => exact h
  | cons b r ih => exact ih _ _ (keeps_mput _ _ h)

theorem keeps_acqReserve (s : State) (h : Keeps s₀ s) : Keeps s₀ (acqReserve s) := by
  simp (maxDischargeDepth := 200) only [acqReserve, keeps_ite, keeps_mk, keeps_mem, keeps_acqWrite, keeps_addCnt, keeps_setAcqState, h]

theorem keeps_acqComplete (s : State) (broken stopped : Bool) (h : Keeps s₀ s) : Keeps s₀ (acqComplete s broken stopped) := by
  unfold acqComplete
  dsimp only
  repeat' split
  all_goals simp (maxDischargeDepth := 200) only [keeps_mk, keeps_mem, keeps_acqWrite, keeps_free, keeps_incCnt, keeps_setAcqState, keeps_wrs, h]

theorem keeps_acqTrigger (s : State) (c : Nat) (forced : Bool) (h : Keeps s₀ s) : Keeps s₀ (acqTrigger s c forced) := by
  simp (maxDischargeDepth := 200) only [acqTrigger, keeps_mk, keeps_mem, keeps_incCnt, keeps_setAcqState, h]

theorem keeps_acqKeep (s : State) (r : AcqRow) (h : Keeps s₀ s) : Keeps s₀ (acqKeep s r) := by
  simp (maxDischargeDepth := 200) only [acqKeep, keeps_ite, keeps_mk, keeps_mem, keeps_acqComplete, keeps_setAcqState, h]

theorem keeps_acqTap (s : State) (h : Keeps s₀ s) : Keeps s₀ (acqTap s) := by
  unfold acqTap
  split <;> simp (maxDischargeDepth := 200) +contextual only [implies_true, keeps_ite, keeps_mk, keeps_mem, keeps_foldl, keeps_acqKeep, keeps_acqReserve, keeps_acqRow, keeps_acqTake, keeps_acqTrigger, keeps_evalTrigger, h]

theorem keeps_acqBreak (s : State) (h : Keeps s₀ s) : Keeps s₀ (acqBreak s) := by
  simp (maxDischargeDepth := 200) only [acqBreak, keeps_ite, keeps_mk, keeps_mem, keeps_acqComplete, keeps_setAcqState, h]

theorem keeps_setCan (s : State) (n : Nat) (x : CanSt) (h : Keeps s₀ s) : Keeps s₀ (setCan s n x) := by
  simp only [setCan, keeps_mk, keeps_mem, h]

theorem keeps_setCanTx (s : State) (n t : Nat) (x : CanTx) (h : Keeps s₀ s) : Keeps s₀ (setCanTx s n t x) := by
  simp only [setCanTx, keeps_setCan, h]

theorem keeps_setTxState (s : State) (n t st : Nat) (h : Keeps s₀ s) : Keeps s₀ (setTxState s n t st) := by
  simp only [setTxState, keeps_wr, h]

theorem keeps_canRequest (s : State) (m : Master) (n t : Nat) (written : Bool) (h : Keeps s₀ s) : Keeps s₀ (canRequest s m n t written) := by
  simp (maxDischargeDepth := 200) only [canRequest, keeps_ite, keeps_errlog, keeps_setCanTx, keeps_setTxState, h]

theorem keeps_canRxPoints (s : State) (n b : Nat) (h : Keeps s₀ s) : Keeps s₀ (canRxPoints s n b) := by
  unfold canRxPoints
  split <;> simp (maxDischargeDepth := 200) +contextual only [implies_true, keeps_foldl, keeps_setStale, keeps_wrPt, h]

theorem keeps_canRxMap (s : State) (h : Keeps s₀ s) : Keeps s₀ (canRxMap s) := by
  simp (maxDischargeDepth := 200) +contextual only [canRxMap, implies_true, keeps_ite, keeps_foldl, keeps_canRxPoints, h]

theorem keeps_canTxLoad (s : State) (n t : Nat) (h : Keeps s₀ s) : Keeps s₀ (canTxLoad s n t) := by
  simp (maxDischargeDepth := 200) only [canTxLoad, keeps_ite, keeps_canRequest, keeps_incCnt, keeps_setCanTx, h]

theorem keeps_canTxMap (s : State) (h : Keeps s₀ s) : Keeps s₀ (canTxMap s) := by
  simp (maxDischargeDepth := 200) +contextual only [canTxMap, implies_true, keeps_ite, keeps_foldl, keeps_canTxLoad, h]

theorem keeps_noteRun (s : State) (h : Keeps s₀ s) : Keeps s₀ (noteRun s) := by
  simp only [noteRun, keeps_mk, keeps_mem, h]

theorem keeps_joinQueue (s : State) (r : TestReq) (h : Keeps s₀ s) : Keeps s₀ (joinQueue s r) := by
  simp (maxDischargeDepth := 200) only [joinQueue, keeps_mk, keeps_mem, keeps_showQueue, h]

theorem keeps_requestTest (s : State) (k : TestKind) (tag idx : Nat) (h : Keeps s₀ s) : Keeps s₀ (requestTest s k tag idx) := by
  unfold requestTest
  dsimp only
  repeat' split
  all_goals simp (maxDischargeDepth := 200) only [keeps_capacityCheck, keeps_joinQueue, keeps_testEnd, keeps_wr, h]

theorem keeps_stepEffect (s : State) (d : Int) (h : Keeps s₀ s) : Keeps s₀ (stepEffect s d) := by
  simp (maxDischargeDepth := 200) +contextual only [stepEffect, implies_true, keeps_ite, keeps_foldl, keeps_acqBreak, keeps_dropHistory, keeps_encTimeStep, keeps_setPlant, keeps_ttStep, keeps_wr, h]

theorem keeps_showUnal (s : State) (h : Keeps s₀ s) : Keeps s₀ (showUnal s) := by
  simp only [showUnal, keeps_showReady, keeps_wrs, h]

theorem keeps_unalign (s : State) (l : List Nat) (h : Keeps s₀ s) : Keeps s₀ (unalign s l) := by
  simp (maxDischargeDepth := 200) only [unalign, keeps_ite, keeps_mk, keeps_mem, keeps_showUnal, h]

theorem keeps_detach (s : State) (h : Keeps s₀ s) : Keeps s₀ (detach s) := by
  simp (maxDischargeDepth := 200) only [detach, keeps_mk, keeps_mem, keeps_endRelays, keeps_setRole, keeps_showUnal, keeps_wrs, h]

theorem keeps_passBoundary (s : State) (n : Nat) (h : Keeps s₀ s) : Keeps s₀ (passBoundary s n) := by
  simp (maxDischargeDepth := 200) +contextual only [passBoundary, implies_true, keeps_ite, keeps_mk, keeps_mem, keeps_foldl, keeps_setFloat, h]

theorem keeps_putImage (s : State) (l : List PtImage) (h : Keeps s₀ s) : Keeps s₀ (putImage s l) := by
  unfold putImage
  apply keeps_foldl (h := h)
  intro s x h
  split
  · exact keeps_wrPt _ _ _ _ h
  · exact h

theorem keeps_installCopy (s : State) (x : ChanCopy) (h : Keeps s₀ s) : Keeps s₀ (installCopy s x) := by
  simp (maxDischargeDepth := 200) +contextual only [installCopy, implies_true, keeps_ite, keeps_mk, keeps_mem, keeps_foldl, keeps_mwrite, keeps_incCnt, keeps_showUnal, keeps_wr, keeps_wrPt, h]

theorem keeps_showMirror (s : State) (bytes : Nat) (h : Keeps s₀ s) : Keeps s₀ (showMirror s bytes) := by
  simp only [showMirror, keeps_wrs, h]

theorem keeps_sendItems (s : State) (used : Nat) (r : List MItem → MirrorRec) (h : Keeps s₀ s) : Keeps s₀ (sendItems s used r) := by
  simp (maxDischargeDepth := 200) +contextual only [sendItems, implies_true, keeps_mk, keeps_mem, keeps_foldl, keeps_emit, keeps_showMirror, h]

theorem keeps_mirrorSend (s : State) (h : Keeps s₀ s) : Keeps s₀ (mirrorSend s) := by
  simp (maxDischargeDepth := 200) only [mirrorSend, keeps_ite, keeps_mk, keeps_mem, keeps_emit, keeps_sendItems, keeps_showMirror, h]

theorem keeps_mirrorTail (s : State) (h : Keeps s₀ s) : Keeps s₀ (mirrorTail s) := by
  unfold mirrorTail
  split <;> simp (maxDischargeDepth := 200) only [keeps_ite, keeps_planCmds, keeps_sendItems, h]

theorem keeps_noteOverrun (s : State) (t : Nat) (h : Keeps s₀ s) : Keeps s₀ (noteOverrun s t) := by
  simp (maxDischargeDepth := 200) only [noteOverrun, keeps_incCnt, keeps_post, keeps_raise, h]

theorem keeps_showIssued (s : State) (e : Nat) (h : Keeps s₀ s) : Keeps s₀ (showIssued s e) := by
  simp (maxDischargeDepth := 200) only [showIssued, keeps_ite, keeps_free, keeps_wrs, h]

theorem keeps_endCycle (s : State) (h : Keeps s₀ s) : Keeps s₀ (endCycle s) := by
  simp (maxDischargeDepth := 200) +contextual only [endCycle, implies_true, keeps_mk, keeps_mem, keeps_foldl, keeps_addCnt, keeps_noteOverrun, keeps_setEng, keeps_showIssued, h]

theorem keeps_showClocked (s : State) (clk : BitVec 128) (h : Keeps s₀ s) : Keeps s₀ (showClocked s clk) := by
  simp (maxDischargeDepth := 200) +contextual only [showClocked, implies_true, keeps_ite, keeps_mk, keeps_mem, keeps_foldl, keeps_wr, h]

theorem keeps_timeBoundary (s : State) (n : Nat) (h : Keeps s₀ s) : Keeps s₀ (timeBoundary s n) := by
  unfold timeBoundary
  dsimp only
  repeat' split
  all_goals simp (maxDischargeDepth := 200) only [keeps_mk, keeps_mem, keeps_netPass, keeps_setTime, keeps_stepEffect, h]

theorem keeps_driftSet (s : State) (h : Keeps s₀ s) : Keeps s₀ (driftSet s) := by
  simp only [driftSet, keeps_mk, keeps_mem, h]

theorem keeps_launchAs (s : State) (h : Keeps s₀ s) : Keeps s₀ (launchAs s) := by
  simp (maxDischargeDepth := 200) +contextual only [launchAs, implies_true, keeps_ite, keeps_mk, keeps_mem, keeps_foldl, keeps_abortTests, keeps_dropHistory, keeps_endRelays, keeps_joinSync, keeps_setEpoch, keeps_setRole, keeps_wr, keeps_wrs, keeps_wrw, h]

theorem keeps_noteTake (s : State) (n : Nat) (h : Keeps s₀ s) : Keeps s₀ (noteTake s n) := by
  simp only [noteTake, keeps_wr64, h]

theorem keeps_takeOver (s : State) (n : Nat) (cold : Bool) (h : Keeps s₀ s) : Keeps s₀ (takeOver s n cold) := by
  simp (maxDischargeDepth := 200) only [takeOver, keeps_ite, keeps_mk, keeps_mem, keeps_askStop, keeps_incCnt, keeps_launchAs, keeps_noteTake, keeps_post, keeps_showUnal, h]

theorem keeps_swapOut (s : State) (n : Nat) (h : Keeps s₀ s) : Keeps s₀ (swapOut s n) := by
  simp (maxDischargeDepth := 200) only [swapOut, keeps_mk, keeps_mem, keeps_abortTests, keeps_incCnt, keeps_noteTake, keeps_requestTest, keeps_setRole, keeps_stopLaunch, keeps_wr, keeps_wrs, h]

theorem keeps_swapBoundary (s : State) (n : Nat) (h : Keeps s₀ s) : Keeps s₀ (swapBoundary s n) := by
  unfold swapBoundary
  split <;> simp (maxDischargeDepth := 200) only [keeps_ite, keeps_mk, keeps_mem, keeps_cancelSwap, keeps_incCnt, keeps_launchAs, keeps_noteTake, keeps_swapOut, h]

theorem keeps_takeBoundary (s : State) (n : Nat) (h : Keeps s₀ s) : Keeps s₀ (takeBoundary s n) := by
  unfold takeBoundary
  split <;> simp (maxDischargeDepth := 200) only [keeps_ite, keeps_mk, keeps_mem, keeps_takeOver, h]

theorem keeps_yieldBoundary (s : State) (h : Keeps s₀ s) : Keeps s₀ (yieldBoundary s) := by
  simp (maxDischargeDepth := 200) +contextual only [yieldBoundary, implies_true, keeps_ite, keeps_mk, keeps_mem, keeps_foldl, keeps_detach, keeps_stopLaunch, keeps_wr, h]

theorem keeps_shadowBoundary (s : State) (n : Nat) (h : Keeps s₀ s) : Keeps s₀ (shadowBoundary s n) := by
  unfold shadowBoundary
  split <;> simp (maxDischargeDepth := 200) only [keeps_ite, keeps_mk, keeps_mem, keeps_setRole, keeps_showCapacity, keeps_showUnal, keeps_wr, h]

theorem keeps_pairBoundary (s : State) (n : Nat) (h : Keeps s₀ s) : Keeps s₀ (pairBoundary s n) := by
  simp (maxDischargeDepth := 200) +contextual only [pairBoundary, implies_true, keeps_ite, keeps_mk, keeps_mem, keeps_foldl, keeps_installCopy, keeps_passBoundary, keeps_shadowBoundary, keeps_swapBoundary, keeps_takeBoundary, keeps_yieldBoundary, h]

theorem keeps_pairCycle (s : State) (h : Keeps s₀ s) : Keeps s₀ (pairCycle s) := by
  simp (maxDischargeDepth := 200) only [pairCycle, keeps_mk, keeps_mem, keeps_mirrorTail, h]

theorem keeps_portBoundary (s : State) (p : Nat) (h : Keeps s₀ s) : Keeps s₀ (portBoundary s p) := by
  simp (maxDischargeDepth := 200) only [portBoundary, keeps_ite, keeps_relayEnd, keeps_setPort, keeps_wr, keeps_wrs, h]

theorem keeps_portsBoundary (s : State) (h : Keeps s₀ s) : Keeps s₀ (portsBoundary s) := by
  simp (maxDischargeDepth := 200) +contextual only [portsBoundary, implies_true, keeps_ite, keeps_mk, keeps_mem, keeps_foldl, keeps_portBoundary, h]

theorem keeps_swapBanks (s : State) (h : Keeps s₀ s) : Keeps s₀ (swapBanks s) := by
  simp (maxDischargeDepth := 200) +contextual only [swapBanks, implies_true, keeps_ite, keeps_mk, keeps_mem, keeps_foldl, keeps_acqBreak, keeps_markPeriod, keeps_postOther, keeps_setSticky, keeps_wrs, h]

theorem keeps_swapDueAt (s : State) (n : Nat) (h : Keeps s₀ s) : Keeps s₀ (swapDueAt s n) := by
  unfold swapDueAt
  dsimp only
  repeat' split
  all_goals simp (maxDischargeDepth := 200) only [keeps_capacityCheck, keeps_setSticky, keeps_swapBanks, keeps_wr, keeps_wrs, h]

theorem keeps_rejoinAxis (s : State) (a : Nat) (h : Keeps s₀ s) : Keeps s₀ (rejoinAxis s a) := by
  simp (maxDischargeDepth := 200) only [rejoinAxis, keeps_ite, keeps_reinit, keeps_wr, h]

theorem keeps_shedBoundary (s : State) (n : Nat) (before : List Nat) (h : Keeps s₀ s) : Keeps s₀ (shedBoundary s n before) := by
  simp (maxDischargeDepth := 200) +contextual only [shedBoundary, implies_true, keeps_mk, keeps_mem, keeps_foldl, keeps_askStop, keeps_rejoinAxis, keeps_showCapacity, keeps_unalign, h]

theorem keeps_step2 (s : State) (n : Nat) (h : Keeps s₀ s) : Keeps s₀ (step2 s n) := by
  simp (maxDischargeDepth := 200) only [step2, keeps_commitDue, keeps_shedBoundary, keeps_surgeBoundary, keeps_swapDueAt, h]

theorem keeps_reload (s : State) (n : Nat) (h : Keeps s₀ s) : Keeps s₀ (reload s n) := by
  simp only [reload, keeps_mk, keeps_mem, h]

theorem keeps_pointsBoundary (s : State) (h : Keeps s₀ s) : Keeps s₀ (pointsBoundary s) := by
  simp (maxDischargeDepth := 200) only [pointsBoundary, keeps_ite, keeps_canRxMap, keeps_captPoints, keeps_fieldImage, keeps_putImage, keeps_safePoints, keeps_writeSafeA, h]

theorem keeps_interFlags (s : State) (n : Nat) (h : Keeps s₀ s) : Keeps s₀ (interFlags s n) := by
  simp +contextual only [interFlags, implies_true, keeps_foldl, keeps_postItem, h]

theorem keeps_unarmedEdges (s : State) (h : Keeps s₀ s) : Keeps s₀ (unarmedEdges s) := by
  simp (maxDischargeDepth := 200) +contextual only [unarmedEdges, implies_true, keeps_ite, keeps_foldl, keeps_makeToken, keeps_postItem, h]

theorem keeps_launchAxis (s : State) (a : Nat) (h : Keeps s₀ s) : Keeps s₀ (launchAxis s a) := by
  simp only [launchAxis, keeps_setAxis, h]

theorem keeps_keepLaunch (s : State) (h : Keeps s₀ s) : Keeps s₀ (keepLaunch s) := by
  simp (maxDischargeDepth := 200) +contextual only [keepLaunch, implies_true, keeps_foldl, keeps_launchAxis, keeps_setMot, h]

end
end Sys2Proof.Machine
end

section
/-! PROOFS. What counting, setting a flag and posting leave of the registers, and what an error counter reads (R15, R407, R415). -/

namespace Sys2Proof.Machine

/-- The register at `k` is no header register of page `p`, nor the pending bits of the MSI-X vectors: events and counts of the page leave it. -/
def Aside (p k : Nat) : Prop := k ≠ 0xB1C00 ∧ (0x40 ≤ k % 0x1000 ∨ k / 0x1000 ≠ p)

theorem Aside.ne_header {p k o : Nat} (h : Aside p k) (ho : o < 0x40) : k ≠ p * 0x1000 + o := by
  have := h.2
  omega

theorem rdw_raise_aside {p k : Nat} (hk : Aside p k) (s : State) (b : Nat) : rdw (raise s p b) k = rdw s k :=
  rdw_raise s p b hk.1 (hk.ne_header (by decide))

theorem page_header_sat (p : Nat) : (Reg.HDR_PAGE_STAT_SAT p).page = p := by
  simp only [Fld.page, Reg.HDR_PAGE_STAT_SAT]
  omega

theorem page_header_wrap (p : Nat) : (Reg.HDR_PAGE_STAT_WRAP p).page = p := by
  simp only [Fld.page, Reg.HDR_PAGE_STAT_WRAP]
  omega

section
variable {k : Nat} {f : Fld} (hk : Aside f.page k) (hf : k ≠ f.addr)
include hk

include hf in
theorem rdw_setSticky (s : State) : rdw (setSticky s f) k = rdw s k := by
  unfold setSticky
  split
  · rfl
  · rw [rdw_raise_aside hk, rdw_wr_other _ _ _ hf]

/-- SAT of a page sets no register but those of its header. -/
theorem rdw_setStat_sat (s : State) : rdw (setStat s (Reg.HDR_PAGE_STAT_SAT f.page)) k = rdw s k := by
  unfold setStat
  split
  · rfl
  · rw [page_header_sat, rdw_raise_aside hk, rdw_wr_other _ _ _ (hk.ne_header (by decide))]

/-- WRAP of a page sets no register but those of its header. -/
theorem rdw_setStat_wrap (s : State) : rdw (setStat s (Reg.HDR_PAGE_STAT_WRAP f.page)) k = rdw s k := by
  unfold setStat
  split
  · rfl
  · rw [page_header_wrap, rdw_raise_aside hk, rdw_wr_other _ _ _ (hk.ne_header (by decide))]

include hf in
theorem rdw_addCnt (s : State) (n : Nat) : rdw (addCnt s f n) k = rdw s k := by
  unfold addCnt
  dsimp only
  split
  · rw [rdw_setStat_wrap hk, rdw_wr_other _ _ _ hf]
  · rw [rdw_wr_other _ _ _ hf]

include hf in
theorem rdw_incCnt (s : State) : rdw (incCnt s f) k = rdw s k := rdw_addCnt hk hf s 1

include hf in
theorem rdw_incErr (s : State) : rdw (incErr s f) k = rdw s k := by
  unfold incErr
  split
  · rw [rdw_wr_other _ _ _ hf]
  · rw [rdw_setStat_sat hk]

end

/-- Posting leaves every register of another page than the sump's. -/
theorem rdw_post {k : Nat} (hb : k ≠ 0xB1C00) (hp : k / 0x1000 ≠ 4) (s : State) (code source detail : Nat) :
    rdw (post s code source detail) k = rdw s k := by
  have hk : Aside 4 k := ⟨hb, .inr hp⟩
  have ne : ∀ f : Fld, f.addr / 0x1000 = 4 → k ≠ f.addr := fun f hf h => hp (h ▸ hf)
  have other : ∀ (s : State) (f : Fld) (v : Nat), f.addr / 0x1000 = 4 → rdw (wr s f v) k = rdw s k :=
    fun s f v hf => rdw_wr_other s f v (ne f hf)
  have written : ∀ a l, rdw (mwrite s a l) k = rdw s k := fun a l => by simp [rdw]
  have counted : ∀ t : State, rdw (raise (incCnt t Reg.SUMP_POST_CNT) 4 4) k = rdw t k := fun t => by
    rw [rdw_raise_aside hk, rdw_incCnt (f := Reg.SUMP_POST_CNT) hk (ne _ rfl)]
  have copied : ∀ (t : State) l, rdw (raise (tailCopy t l) 4 5) k = rdw t k := fun t l => by
    rw [rdw_raise_aside hk, tailCopy, other _ _ _ rfl]
    simp [rdw]
  have lost : ∀ t : State, rdw (incErr t Reg.SUMP_LOST_ERR_LOST_ERR) k = rdw t k := fun t =>
    rdw_incErr (f := Reg.SUMP_LOST_ERR_LOST_ERR) hk (ne _ rfl) t
  unfold post
  dsimp only
  split
  · split
    · split
      · rw [copied, counted, other _ _ _ rfl, other _ _ _ rfl, written]
      · rw [copied, counted, lost, other _ _ _ rfl, other _ _ _ rfl, written]
    · split
      · rw [counted, other _ _ _ rfl, other _ _ _ rfl, written]
      · rw [counted, lost, other _ _ _ rfl, other _ _ _ rfl, written]
  · rfl

/-- An error counter reads one more, or its largest value (R15). -/
theorem rd_incErr_self (s : State) {f : Fld} (hk : Aside f.page f.addr) (hle : f.lo ≤ f.hi) (hhi : f.hi < 32) :
    rd (incErr s f) f = min (2 ^ (f.hi + 1 - f.lo) - 1) (rd s f + 1) := by
  have hlt : rd s f < 2 ^ (f.hi + 1 - f.lo) := Nat.mod_lt _ (by positivity)
  unfold incErr
  split
  · next h => rw [rd_wr_self _ _ _ hle hhi, Nat.mod_eq_of_lt h]; omega
  · rw [rd, rdw_setStat_sat hk, ← rd]
    omega

/-- An event counter of a whole register reads one more, and wraps (R15). -/
theorem rd_incCnt_self {s : State} {f : Fld} (hk : Aside f.page f.addr) (hle : f.lo ≤ f.hi) (hhi : f.hi < 32) :
    rd (incCnt s f) f = (rd s f + 1) % 2 ^ (f.hi + 1 - f.lo) := by
  unfold incCnt addCnt
  dsimp only
  split
  · rw [rd, rdw_setStat_wrap hk, ← rd, rd_wr_self _ _ _ hle hhi]
  · rw [rd_wr_self _ _ _ hle hhi]

/-- With STEWARD ON, an entry without a tail copy counts as unread while the ring has room (R420). -/
theorem rd_post_unread {s : State} (code detail : Nat) {source : Nat} (hd : domOn s dSTEWARD = true) (hs : 2 < source)
    (hu : rd s Reg.SUMP_RPTR_UNREAD < 4096) : rd (post s code source detail) Reg.SUMP_RPTR_UNREAD = rd s Reg.SUMP_RPTR_UNREAD + 1 := by
  have hk : Aside 4 Reg.SUMP_RPTR_UNREAD.addr := ⟨by decide, by decide⟩
  unfold post
  rw [if_pos hd]
  dsimp only
  rw [if_neg (by omega), if_pos hu, rd, rdw_raise_aside hk, rdw_incCnt (f := Reg.SUMP_POST_CNT) hk (by decide), ← rd, rd_wr_self _ _ _ (by decide) (by decide),
    Nat.mod_eq_of_lt]
  exact Nat.lt_of_le_of_lt hu (by decide)

/-! ## Logging after logging -/

theorem RegsWire.logged {s t : State} (h : RegsWire s t) : Logged s t := (Logged.refl s).regs h

theorem Logged.trans {s t u : State} (h : Logged s t) (k : Logged t u) : Logged s u := by
  unfold Logged at *
  rw [h] at k
  exact k

/-! ## The time of an entry and its place -/

/-- Registers and what left the package do not bear on the time of an entry, but for the clock of the AO page. -/
theorem RegsWire.stampNow {s t : State} (h : RegsWire s t) (hr : ∀ k, 0x40 ≤ k % 0x1000 → k / 0x1000 = 2 → rdw t k = rdw s k) :
    stampNow t = stampNow s := by
  have hrd : ∀ f : Fld, 0x40 ≤ f.addr % 0x1000 → f.addr / 0x1000 = 2 → rd t f = rd s f := fun f hp hq => by rw [rd, hr f.addr hp hq, rd]
  have hsec := hrd Reg.AO_RTC_SEC_LO (by decide) rfl
  have hhi := hrd Reg.AO_RTC_SEC_HI_SEC (by decide) rfl
  have hsub := hrd Reg.AO_RTC_SUB_SUB (by decide) rfl
  unfold Machine.stampNow timeCount rtcCount
  rw [h.time, domOn_congr h.pwr, hsec, hhi, hsub]

/-- An entry posted after changes of registers of other pages than the sump's and the clock's is the entry posted before them. -/
theorem NewEntry.of_regs {s u t : State} {code source detail : Nat} (h : NewEntry u t code source detail) (hu : RegsWire s u)
    (hr : ∀ k, 0x40 ≤ k % 0x1000 → (k / 0x1000 = 4 ∨ k / 0x1000 = 2) → rdw u k = rdw s k) : NewEntry s t code source detail := by
  have hw : rd u Reg.SUMP_WPTR_INDEX = rd s Reg.SUMP_WPTR_INDEX := by
    rw [rd, hr _ (by decide) (.inl rfl), rd]
  have hstamp := hu.stampNow fun k hk hp => hr k hk (.inr hp)
  unfold NewEntry at h ⊢
  rwa [hw, hstamp, domOn_congr hu.pwr, domOn_congr hu.pwr] at h

end Sys2Proof.Machine
end

section
/-! PROOFS. The frames of the die bridge (R20, R22, R23, R418). -/

namespace Sys2Proof.Machine

/-! ## Sending (R20, R23) -/

/-- Sampling one input of the field die changes only what it keeps of its inputs. -/
theorem filterInput_shape (x : BitVec 16) (s : State) (i : Nat) : filterInput x s i = { s with field := (filterInput x s i).field } := by
  unfold filterInput
  dsimp only
  split
  · rfl
  · split <;> rfl

/-- Sampling for a frame leaves the bridge and memory. -/
theorem sampleField_bridge_mem (s : State) (x : FieldSample) : (sampleField s x).bridge = s.bridge ∧ (sampleField s x).mem = s.mem := by
  have sampled : ∀ l : List Nat, (l.foldl (filterInput x.inp) s).bridge = s.bridge ∧ (l.foldl (filterInput x.inp) s).mem = s.mem := fun l =>
    List.foldlRecOn l _ (motive := fun (t : State) => t.bridge = s.bridge ∧ t.mem = s.mem) ⟨rfl, rfl⟩ fun t ht i _ => by
      rw [show filterInput x.inp t i = _ from filterInput_shape x.inp t i]
      exact ht
  unfold sampleField
  split
  · simp only [wrs_bridge, wrs_mem]
    exact sampled _
  · exact ⟨rfl, rfl⟩

/-- With FIELD ON, sampling keeps the readbacks. -/
theorem sampleField_rb {s : State} (x : FieldSample) (h : domOn s dFIELD = true) : (sampleField s x).field.rb = x.rb := by
  simp [sampleField, h]

/-- What the field die's frame carries, and what sending it leaves. -/
theorem sendField_frame (s : State) (x : FieldSample) : ∃ f, (sendField s x).bridge.up = some f ∧ f.seq = s.bridge.seqField + 1 ∧
    (sendField s x).bridge.seqField = f.seq ∧ f.heart = s.bridge.heartField + 1 ∧ (sendField s x).bridge.heartField = f.heart ∧ f.edm = x.edm ∧
    f.rst = x.rst ∧ (sendField s x).mem = s.mem ∧ (sendField s x).field = (sampleField s x).field := by
  obtain ⟨hbridge, hmem⟩ := sampleField_bridge_mem s x
  unfold sendField
  dsimp only
  split <;> exact ⟨_, rfl, by simp [hbridge], rfl, by simp [hbridge], rfl, rfl, rfl, hmem, rfl⟩

/-! ## Discarding (R20, R418) -/

/-- A discarded frame adds one to its direction's run and to SYS.BRIDGE_ERR, and changes nothing else. -/
theorem discard_counts {s : State} (atField : Bool) (hd : domOn s dSTEWARD = true) :
    RegsWire { s with bridge := (discard s atField).bridge } (discard s atField) ∧
    (discard s atField).bridge = (if atField then { s.bridge with runAtField := s.bridge.runAtField + 1 }
      else { s.bridge with runAtMain := s.bridge.runAtMain + 1 }) ∧
    rd (discard s atField) Reg.SYS_BRIDGE_ERR_BRIDGE_ERR = min 65535 (rd s Reg.SYS_BRIDGE_ERR_BRIDGE_ERR + 1) := by
  have hon : ∀ b : BridgeSt, domOn { s with bridge := b } dSTEWARD = true := fun _ => hd
  unfold discard
  dsimp only
  rw [if_pos (hon _), incErr_bridge]
  exact ⟨incErr_shape _ _, rfl, rd_incErr_self _ ⟨by decide, by decide⟩ (by decide) (by decide)⟩

/-! ## Accepting (R22, R23) -/

theorem bridgeOk_bridge (s : State) : (bridgeOk s).bridge = s.bridge := by
  unfold bridgeOk
  split <;> rfl

/-- Accepting a frame at the field die touches the bridge only to end the run and keep the heartbeat. -/
theorem acceptField_bridge (s : State) (f : FrameDown) :
    (acceptField s f).bridge = { s.bridge with runAtField := 0, heartAtField := f.heart } := by
  suffices h : Keeps { s with bridge := { s.bridge with runAtField := 0, heartAtField := f.heart } } (acceptField s f) from h.2.2
  unfold acceptField
  extract_lets b fresh fld s₁ s₂ before sw s₃
  have h₁ : Keeps { s with bridge := { s.bridge with runAtField := 0, heartAtField := f.heart } } s₁ := Keeps.refl _
  have h₂ := keeps_ite (c := domOn s₁ dFIELD = true) (keeps_applyImage s₁ f.out h₁) h₁
  have h₃ : Keeps _ s₃ := keeps_showSwitches _ before (keeps_mk h₂)
  clear_value s₃
  split
  · split
    · dsimp only
      split
      · exact keeps_safeShow _ (keeps_setChan _ _ _ (keeps_takeOther _ _ _ h₃))
      · exact keeps_takeOther _ _ _ h₃
    · exact h₃
  · exact h₃

/-- Accepting a frame at the main die touches the bridge only to end the run and keep the image with age 0. -/
theorem acceptMain_bridge (s : State) (f : FrameUp) :
    (acceptMain s f).bridge = { s.bridge with runAtMain := 0, img := some f, age := 0 } := by
  suffices h : Keeps { s with bridge := { s.bridge with runAtMain := 0, img := some f, age := 0 } } (acceptMain s f) from h.2.2
  unfold acceptMain
  extract_lets b s₁
  have h₁ : Keeps { s with bridge := { s.bridge with runAtMain := 0, img := some f, age := 0 } } s₁ := Keeps.refl _
  clear_value s₁
  split
  · exact keeps_ite (keeps_takeOther _ _ _ (keeps_wrs _ _ (keeps_mk h₁))) (keeps_mk h₁)
  · exact keeps_ite (keeps_safeShow _ h₁) h₁

/-! ## Receiving (R20) -/

/-- The frame towards the field die taken off its way, its sequence number kept where the CRC passes. -/
def takenDown (s : State) (crc : Bool) (f : FrameDown) : State :=
  { s with bridge := { s.bridge with down := none, rxAtField := if crc then f.seq else s.bridge.rxAtField } }

/-- The frame towards the main die taken off its way, its sequence number kept where the CRC passes. -/
def takenUp (s : State) (crc : Bool) (f : FrameUp) : State :=
  { s with bridge := { s.bridge with up := none, rxAtMain := if crc then f.seq else s.bridge.rxAtMain } }

/-- At the field die, a frame that passes its CRC and follows the last accepted one is accepted, any other is discarded. -/
theorem exec_receiveDown {s : State} {crc : Bool} {f : FrameDown} (hup : bridgeUp s = true) (hf : s.bridge.down = some f) :
    exec (.bridgeFrameReceive true crc) s = .next (if crc = true ∧ f.seq = s.bridge.rxAtField + 1
      then bridgeOk (acceptField (takenDown s crc f) f) else discard (takenDown s crc f) true) := by
  change execBridgeFrameReceive true crc s = _
  simp [execBridgeFrameReceive, hup, hf, takenDown]

/-- At the main die, a frame that passes its CRC and follows the last accepted one is accepted, any other is discarded. -/
theorem exec_receiveUp {s : State} {crc : Bool} {f : FrameUp} (hup : bridgeUp s = true) (hf : s.bridge.up = some f) :
    exec (.bridgeFrameReceive false crc) s = .next (if crc = true ∧ f.seq = s.bridge.rxAtMain + 1
      then bridgeOk (acceptMain (takenUp s crc f) f) else discard (takenUp s crc f) false) := by
  change execBridgeFrameReceive false crc s = _
  simp [execBridgeFrameReceive, hup, hf, takenUp]

/-- Settles O18: frames sent by both ends, a frame received by the field die, a frame received by the main die. -/
theorem bridgeFrames : Obligations.BridgeFrames := by
  unfold Obligations.BridgeFrames
  intro s hsteward hao
  have hup : bridgeUp s = true := by simp [bridgeUp, hsteward, hao]
  refine ⟨?_, fun x => ?_, fun f crc hf => ?_, fun f crc hf => ?_⟩
  · refine ⟨sendMain s, ?_, rfl, _, rfl, rfl, rfl, rfl, rfl, rfl, rfl, rfl, by simp⟩
    change execBridgeFrameSend .main s = _
    rw [execBridgeFrameSend, if_pos hup]
  · obtain ⟨f, hnew, hseq, hseq', hheart, hheart', hedm, hrst, hmem, hfield⟩ := sendField_frame s x
    refine ⟨sendField s x, f, ?_, hnew, hseq, hseq', hheart, hheart', hedm, hrst, hmem, fun hon => hfield ▸ sampleField_rb x hon⟩
    change execBridgeFrameSend (.field x) s = _
    rw [execBridgeFrameSend, if_pos hup]
  · rw [exec_receiveDown hup hf]
    by_cases h : crc = true ∧ f.seq = s.bridge.rxAtField + 1
    · rw [if_pos h]
      refine ⟨_, rfl, ?_, fun hcrc _ => ?_, fun hn => absurd h hn⟩
      · rw [bridgeOk_bridge, acceptField_bridge]; rfl
      · simp [bridgeOk_bridge, acceptField_bridge, takenDown, hcrc]
    · rw [if_neg h]
      obtain ⟨hshape, hbridge, hcount⟩ := discard_counts (s := takenDown s crc f) true hsteward
      exact ⟨_, rfl, by rw [hbridge]; rfl, fun hcrc hseq => absurd ⟨hcrc, hseq⟩ h, fun _ => ⟨hshape, by rw [hbridge]; rfl, hcount⟩⟩
  · rw [exec_receiveUp hup hf]
    by_cases h : crc = true ∧ f.seq = s.bridge.rxAtMain + 1
    · rw [if_pos h]
      refine ⟨_, rfl, ?_, fun hcrc _ => ?_, fun hn => absurd h hn⟩
      · rw [bridgeOk_bridge, acceptMain_bridge]; rfl
      · simp [bridgeOk_bridge, acceptMain_bridge, takenUp, hcrc]
    · rw [if_neg h]
      obtain ⟨hshape, hbridge, hcount⟩ := discard_counts (s := takenUp s crc f) false hsteward
      exact ⟨_, rfl, by rw [hbridge]; rfl, fun hcrc hseq => absurd ⟨hcrc, hseq⟩ h, fun _ => ⟨hshape, by rw [hbridge]; rfl, hcount⟩⟩

end Sys2Proof.Machine
end

section
/-! PROOFS. The fault of the die bridge and the refresh that the stewards serve (R21, R22, R257, R258). -/

namespace Sys2Proof.Machine

/-! ## The role and the pair's state through the end of a unit's work -/

/-- The unit's role and the state of its pair. -/
def PeerAs (r : Nat) (p : PairSt) (s : State) : Prop := role s = r ∧ s.pair = p

section
variable {r : Nat} {p : PairSt} {s : State} (h : PeerAs r p s)
include h

theorem PeerAs.wr {f : Fld} (v : Nat) (hf : f.addr ≠ Reg.PEER_STAT_ROLE.addr) : PeerAs r p (wr s f v) :=
  ⟨(rd_wr_other s f _ v (Ne.symm hf)).trans h.1, h.2⟩

theorem PeerAs.wrs {l : List (Fld × Nat)} (hl : ∀ x ∈ l, x.1.addr ≠ Reg.PEER_STAT_ROLE.addr) : PeerAs r p (wrs s l) :=
  List.foldlRecOn l _ (motive := PeerAs r p) h fun _ ht x hx => ht.wr x.2 (hl x hx)

theorem PeerAs.raise {q : Nat} (b : Nat) (hq : Reg.PEER_STAT_ROLE.addr ≠ q * 0x1000 + 0x18) : PeerAs r p (raise s q b) :=
  ⟨by rw [role, rd, rdw_raise _ _ _ (by decide) hq, ← rd]; exact h.1, by rw [raise_pair]; exact h.2⟩

theorem PeerAs.incCnt {f : Fld} (hf : f.addr ≠ Reg.PEER_STAT_ROLE.addr) : PeerAs r p (incCnt s f) :=
  ⟨by rw [role, rd, rdw_incCnt ⟨by decide, .inl (by decide)⟩ (Ne.symm hf), ← rd]; exact h.1, by rw [incCnt_pair]; exact h.2⟩

theorem PeerAs.post (c q d : Nat) : PeerAs r p (post s c q d) :=
  ⟨by rw [role, rd, rdw_post (by decide) (by decide), ← rd]; exact h.1, by rw [post_pair]; exact h.2⟩

theorem PeerAs.showCapacity : PeerAs r p (showCapacity s) := by
  unfold Machine.showCapacity showReady
  split
  · have hready : ∀ {u : State} v, PeerAs r p u → PeerAs r p (Machine.wr u Reg.PEER_STAT_READY v) := fun v hu =>
      ⟨(rd_wr_disj _ _ _ v (by decide) (by decide) (by decide) (by decide)).trans hu.1, hu.2⟩
    exact hready _ (h.wr _ (by decide))
  · exact h

end

/-- Every axis of a graph bank is one of 1,024. -/
theorem graphAxes_lt {s : State} {b a : Nat} (h : a ∈ graphAxes s b) : a < 1024 := by
  simp only [graphAxes, List.mem_dedup, List.mem_mergeSort, List.mem_filterMap] at h
  obtain ⟨t, -, ht⟩ := h
  simp only [tdAxis, Option.ite_none_right_eq_some, Option.some.injEq] at ht
  exact ht.2 ▸ Nat.mod_lt _ (by decide)

/-- The axes that shedding takes are axes it was given. -/
theorem mem_of_mem_shedUntil {s : State} {b mhz a : Nat} {l : List Nat} {shed : List Nat} (h : a ∈ shedUntil s b mhz shed l) : a ∈ l := by
  induction l generalizing shed with
  | nil => simp [shedUntil] at h
  | cons x l ih =>
    unfold shedUntil at h
    split at h
    · simp at h
    · split at h
      · exact .tail _ (ih h)
      · rcases List.mem_cons.mp h with rfl | h
        · exact .head _
        · exact .tail _ (ih h)

theorem PeerAs.capacityCheck {r : Nat} {p : PairSt} {s : State} (h : PeerAs r p s) (mhz : Nat) : PeerAs r p (capacityCheck s mhz) := by
  have shed : ∀ a, a < 1024 → (shedField a).addr ≠ Reg.PEER_STAT_ROLE.addr := fun a ha => by
    simp only [shedField, Reg.CYC_SHED_MAP, Reg.PEER_STAT_ROLE]
    omega
  unfold Machine.capacityCheck
  split
  · extract_lets b now gone s₁ s₂
    have h₁ : PeerAs r p s₁ := List.foldlRecOn gone _ (motive := PeerAs r p) h fun t ht a ha =>
      (ht.wr 1 (shed a (graphAxes_lt (mem_of_mem_shedUntil ha)))).incCnt (by decide)
    have h₂ : PeerAs r p s₂ := h₁.wrs (by simp; decide)
    split
    · exact h₂
    · exact ((h₂.post _ _ _).raise _ (by decide)).showCapacity
  · exact h

theorem PeerAs.engineBack {r : Nat} {p : PairSt} {s : State} (h : PeerAs r p s) (q : TestReq) : PeerAs r p (engineBack s q) := by
  have wd : (wdField q.index).addr ≠ Reg.PEER_STAT_ROLE.addr := by
    simp only [wdField, Reg.CLU_WITHDRAW, Reg.PEER_STAT_ROLE]
    omega
  unfold Machine.engineBack
  split
  · extract_lets more s₁ s₂
    have h₁ : PeerAs r p s₁ := h
    split
    · exact h₁
    · exact (h₁.wr _ wd).capacityCheck _
  · exact h

theorem PeerAs.testEnd {r : Nat} {p : PairSt} {s : State} (h : PeerAs r p s) (q : TestReq) (status : Nat) : PeerAs r p (testEnd s q status) := by
  have h₁ := (h.wrs (l := [(Reg.TEST_LAST_KIND, q.kind.code), (Reg.TEST_LAST_TAG, q.tag), (Reg.TEST_LAST_STATUS, status)]) (by simp; decide)).raise (q := 0xD1) 4 (by decide)
  unfold Machine.testEnd
  dsimp only
  split
  · exact h₁.raise _ (by decide)
  · exact h₁

theorem PeerAs.abortTests {r : Nat} {p : PairSt} {s : State} (h : PeerAs r p s) (which : TestReq → Bool) : PeerAs r p (abortTests s which) := by
  unfold Machine.abortTests showQueue
  extract_lets gone s₁
  have h₁ : PeerAs r p s₁ := h
  exact (List.foldlRecOn gone _ (motive := PeerAs r p) h₁ fun t ht q _ => (ht.engineBack q).testEnd q 5).wrs (by simp; decide)

theorem PeerAs.cancelSwap {r : Nat} {p : PairSt} {s : State} (h : PeerAs r p s) (cause : Nat) : PeerAs r p (cancelSwap s cause) := by
  unfold Machine.cancelSwap
  split
  · have h₁ : PeerAs r p (Machine.wr s Reg.PEER_STAT_SWAPPEND 0) :=
      ⟨(rd_wr_disj _ _ _ _ (by decide) (by decide) (by decide) (by decide)).trans h.1, h.2⟩
    exact h₁.post _ _ _
  · exact h

/-! ## Giving up the role (R257, R258) -/

/-- Once the role is given up, ending the swap and the tests leaves the pair's state and the bridge. -/
theorem roleGiven_effect (u : State) (code : Nat) (f : TestReq → Bool) :
    role (abortTests (cancelSwap (setRole (post u 0x2001 2 code) rRELINQUISHED) 3) f) = rRELINQUISHED ∧
    (abortTests (cancelSwap (setRole (post u 0x2001 2 code) rRELINQUISHED) 3) f).pair = u.pair ∧
    (abortTests (cancelSwap (setRole (post u 0x2001 2 code) rRELINQUISHED) 3) f).bridge = u.bridge := by
  have hset : PeerAs rRELINQUISHED u.pair (setRole (post u 0x2001 2 code) rRELINQUISHED) :=
    ⟨rd_wr_self _ _ _ (by decide) (by decide), by rw [setRole, wr_pair, post_pair]⟩
  have hkeep : Keeps u (cancelSwap (setRole (post u 0x2001 2 code) rRELINQUISHED) 3) :=
    keeps_cancelSwap _ _ (keeps_setRole _ _ (keeps_post _ _ _ _ (Keeps.refl u)))
  obtain ⟨hrole, hpair⟩ := (hset.cancelSwap 3).abortTests f
  exact ⟨hrole, hpair, (keeps_abortTests _ f hkeep).2.2⟩

/-- A unit that relinquishes is silent, has role RELINQUISHED and has withdrawn the refresh. -/
theorem relinquish_effect (s : State) (code : Nat) : role (relinquish s code) = rRELINQUISHED ∧ (relinquish s code).pair.silent = true ∧
    (relinquish s code).bridge = { s.bridge with withdrawn := true, served := false } := by
  unfold relinquish
  dsimp only
  obtain ⟨hrole, hpair, hbridge⟩ := roleGiven_effect
    (withdrawRefresh (emit { s with pair := { s.pair with silent := true, items := [] } } .peerRelinquish)) code (fun r => r.kind != .replan)
  refine ⟨hrole, ?_, ?_⟩
  · rw [hpair]; rfl
  · rw [hbridge]; rfl

/-! ## The fault (R21, R418) -/

/-- The state in which PAGE_STAT shows the bridge fault. -/
def bridgeFlagged (s : State) : State := if on s bridgeFlag = true then s else raise (wr s bridgeFlag 1) 0 4

theorem bridgeFlagged_shape (s : State) : RegsWire s (bridgeFlagged s) := by
  unfold bridgeFlagged
  split
  · exact RegsWire.refl s
  · exact (RegsWire.wr s _ _).trans (raise_shape _ _ _)

theorem rdw_bridgeFlagged (s : State) {k : Nat} (hk : Aside 0 k) : rdw (bridgeFlagged s) k = rdw s k := by
  unfold bridgeFlagged
  split
  · rfl
  · rw [rdw_raise_aside hk]
    exact rdw_wr_other _ _ _ (hk.ne_header (o := 0x0C) (by decide))

theorem rd_bridgeFlagged (s : State) {f : Fld} (hk : Aside 0 f.addr) : rd (bridgeFlagged s) f = rd s f := by
  rw [rd, rdw_bridgeFlagged s hk, rd]

theorem role_bridgeFlagged (s : State) : role (bridgeFlagged s) = role s := rd_bridgeFlagged s ⟨by decide, .inl (by decide)⟩

theorem on_bridgeFlagged (s : State) : on (bridgeFlagged s) bridgeFlag = true := by
  unfold bridgeFlagged
  split
  · assumption
  · have h : rd (raise (wr s bridgeFlag 1) 0 4) bridgeFlag = 1 := by
      rw [rd, rdw_raise _ _ _ (by decide) (by decide), ← rd, rd_wr_self _ _ _ (by decide) (by decide)]
      rfl
    simp [on, h]

/-- A unit that is ALONE does not give up for a bridge fault. -/
theorem selfFault_bridge_alone {s : State} (h : role s = rALONE) : selfFault s .bridge = s := by
  simp [selfFault, h, rALONE, rACTIVE, rSTANDBY, rJOINING, rTESTING, SelfFault.grave]

/-- An ACTIVE unit with a READY standby gives up for a bridge fault. -/
theorem selfFault_bridge_active {s : State} (h : role s = rACTIVE) (hp : standbyPresent s = true) (hr : on s Reg.PEER_STAT_PEER_READY = true) :
    selfFault s .bridge = relinquish s SelfFault.bridge.code := by
  simp [selfFault, h, hp, hr]

theorem exec_bridgeFault_main {s : State} (hd : domOn s dSTEWARD = true) (hrun : 3 ≤ s.bridge.runAtMain) :
    exec (.bridgeFault false) s = .next (post (selfFault (bridgeFlagged s) .bridge) 0x5002 5 0) := by
  change execBridgeFault false s = _
  unfold execBridgeFault
  simp only [Bool.false_eq_true, if_false, if_neg (Nat.not_lt.mpr hrun), if_pos hd]
  rfl

/-- The entry of a bridge fault, after the flag is set. -/
theorem bridgeFault_entry (s : State) : NewEntry s (post (bridgeFlagged s) 0x5002 5 0) 0x5002 5 0 :=
  (post_new (bridgeFlagged s) 0x5002 5 0 (by decide) (by decide) (by decide)).of_regs (bridgeFlagged_shape s)
    (fun k hk hp => rdw_bridgeFlagged s ⟨by omega, .inl hk⟩)

/-- What logging a bridge fault changes: the flag, the entry and its count. -/
theorem bridgeFault_logged (s : State) : Logged s (post (bridgeFlagged s) 0x5002 5 0) ∧ on (post (bridgeFlagged s) 0x5002 5 0) bridgeFlag = true ∧
    SameMemBut (0x10010000 + 16 * rd s Reg.SUMP_WPTR_INDEX) 16 s (post (bridgeFlagged s) 0x5002 5 0) ∧
    (domOn s dSTEWARD = true → rd s Reg.SUMP_RPTR_UNREAD < 4096 →
      rd (post (bridgeFlagged s) 0x5002 5 0) Reg.SUMP_RPTR_UNREAD = rd s Reg.SUMP_RPTR_UNREAD + 1) := by
  have hshape := bridgeFlagged_shape s
  have hwptr := rd_bridgeFlagged s (f := Reg.SUMP_WPTR_INDEX) ⟨by decide, .inl (by decide)⟩
  have hunread := rd_bridgeFlagged s (f := Reg.SUMP_RPTR_UNREAD) ⟨by decide, .inl (by decide)⟩
  refine ⟨hshape.logged.trans (post_shape _ _ _ _), ?_, fun c hc => ?_, fun hd hu => ?_⟩
  · rw [on, rd, rdw_post (by decide) (by decide), ← rd]
    exact on_bridgeFlagged s
  · rw [post_sameMemBut (bridgeFlagged s) 0x5002 0 (by decide) c (by rwa [hwptr]), hshape.mget_eq]
  · rw [rd_post_unread _ _ (by rwa [domOn_congr hshape.pwr]) (by decide) (by rwa [hunread]), hunread]

/-- An ACTIVE unit with a READY standby: what is left of its role after a bridge fault. -/
theorem bridgeFault_relinquishes {s : State} (hrole : role s = rACTIVE) (hpresent : standbyPresent s = true)
    (hready : on s Reg.PEER_STAT_PEER_READY = true) :
    role (post (selfFault (bridgeFlagged s) .bridge) 0x5002 5 0) = rRELINQUISHED ∧
    (post (selfFault (bridgeFlagged s) .bridge) 0x5002 5 0).pair.silent = true ∧
    (post (selfFault (bridgeFlagged s) .bridge) 0x5002 5 0).bridge = { s.bridge with withdrawn := true, served := false } := by
  have hshape := bridgeFlagged_shape s
  have hready' := rd_bridgeFlagged s (f := Reg.PEER_STAT_PEER_READY) ⟨by decide, .inl (by decide)⟩
  have hpresent' : standbyPresent (bridgeFlagged s) = true := by rw [standbyPresent, hshape.pair]; exact hpresent
  obtain ⟨hgone, hsilent, hbridge⟩ := relinquish_effect (bridgeFlagged s) SelfFault.bridge.code
  rw [selfFault_bridge_active ((role_bridgeFlagged s).trans hrole) hpresent' (by rw [on, hready']; exact hready)]
  have hpeer : PeerAs rRELINQUISHED _ _ := ⟨hgone, rfl⟩
  obtain ⟨hgone', hpair⟩ := hpeer.post 0x5002 5 0
  exact ⟨hgone', by rw [hpair, hsilent], by rw [post_bridge, hbridge, hshape.bridge]⟩

/-- Settles O19: the fault of an ALONE unit and of an ACTIVE one, then the commands of the refresh. -/
theorem bridgeFaultAndRefresh : Obligations.BridgeFaultAndRefresh := by
  unfold Obligations.BridgeFaultAndRefresh
  refine ⟨fun s hd hrun => ⟨_, exec_bridgeFault_main hd hrun, fun halone => ?_, fun hactive hpresent hready => ?_⟩, fun f s hrun => ?_,
    fun s hd hrole => ?_, fun s => ?_, fun s => ?_⟩
  · rw [selfFault_bridge_alone (by rwa [role_bridgeFlagged])]
    obtain ⟨hlogged, hflag, hmem, hunread⟩ := bridgeFault_logged s
    obtain ⟨hstamp, hword, -, hwptr⟩ := bridgeFault_entry s hd
    exact ⟨hlogged, hflag, hmem, hstamp, by simpa [b2n] using hword, hwptr, hunread hd⟩
  · exact bridgeFault_relinquishes hactive hpresent hready
  · change execBridgeFault f s = _
    unfold execBridgeFault
    dsimp only
    rw [if_pos hrun]
  · change execBridgeRefresh s = _
    rw [execBridgeRefresh, if_pos ⟨hd, hrole⟩]
  · change execBridgeRefreshWithdraw s = _
    rw [execBridgeRefreshWithdraw, withdrawRefresh]
  · change execRefreshTimeout s = _
    rw [execRefreshTimeout]

end Sys2Proof.Machine
end

section
/-! PROOFS. Releases of stalled posters (R60, R61). -/

namespace Sys2Proof.Machine

/-- Word `i` of schedule bank 0 set. -/
def withBankWord (i v : Nat) (s : State) : State := msetNum s (ptAddr (pt 31 32 0 0 + i)) 8 v

/-- Schedule bank 0 in service: port 0 has one slot, for node frames of slot 0, and its one edge posts flag 0 to task 0. -/
def oneSlotInService : State :=
  withBankWord 2 (100 + 2 ^ 13) (withBankWord 101 (2 ^ 38) (withBankWord 28 200 (withBankWord 200 (2 ^ 30) (wr State.reset Reg.LEMAC_SCHED_ACTIVE 1))))

/-- Task 0, of priority 1, is armed and has no token yet; poster 0 holds a token for it; the receive engine of port 0 has kept a forwarded
frame of slot 0, and no other frame. -/
def stalledBesideForwarded : State :=
  setPort { mwrite oneSlotInService (clmAddr 0 3) [0x20] with
      sched := { part := 1, posters := [(0, [{ hold := some 0 }])], tasks := [(0, { armed := true })] } } 0
    { keptFwd := [{ port := 0, start := 0, bytes := [], fcs := true }] }

/-- Refutes O21: its second clause shuts out kept frames but not kept forwarded frames, which STALL_RELEASE takes as well. In the state above
the stalled token is placed, then the forwarded frame's edge places a second token behind it in the same well. -/
theorem not_delayListsStallsAndGates : ¬ Obligations.DelayListsStallsAndGates := by
  unfold Obligations.DelayListsStallsAndGates
  rintro ⟨-, hrelease, -⟩
  obtain ⟨t, ht, -, hwell⟩ := hrelease stalledBesideForwarded 0 0 (by decide +kernel) (by decide +kernel) (by decide +kernel) (by decide +kernel)
    (by decide +kernel) (by decide +kernel) (by decide +kernel) (by decide +kernel) (by decide +kernel)
  obtain rfl : _ = t := Host.Outcome.next.inj ht
  exact absurd hwell (by decide +kernel)

end Sys2Proof.Machine
end

section
/-! PROOFS. Requests that a later boundary carries out: rejoin, withdrawal, parameter commit (R26, R65, R68). -/

namespace Sys2Proof.Machine

/-! ## Rejoin requests (R65) -/

/-- A register whose fields follow a rule of their own keeps its value under the plain part of a write (R12). -/
theorem newValue_of_own {rows : List RegRow} (h : ∀ r ∈ rows, r.lo ≤ r.hi ∧ (r.acc = .own ∨ r.acc = .rsv)) (lk : Bool) (old w : Nat) :
    newValue lk rows old w = old := by
  refine List.foldlRecOn rows _ (motive := fun v => v = old) rfl fun v hv r hr => ?_
  obtain ⟨hle, hacc⟩ := h r hr
  have keeps : (rowWrite lk old w r).1 = bits r.hi r.lo old := by
    rcases hacc with hacc | hacc <;> simp [rowWrite, hacc]
  rw [hv, keeps, setBits_bits_self _ _ _ hle]

theorem rowsAt_shedMap (i : Fin 32) : ∀ r ∈ rowsAt (Reg.CYC_SHED_MAP i).addr, r.lo ≤ r.hi ∧ (r.acc = .own ∨ r.acc = .rsv) := by
  revert i
  decide

/-- Writing SHED_MAP clears no bit of it. -/
theorem rdw_plainWrite_shedMap (s : State) (m : Master) (i : Fin 32) (w : Nat) :
    rdw (plainWrite s m (Reg.CYC_SHED_MAP i).addr w) (Reg.CYC_SHED_MAP i).addr = rdw s (Reg.CYC_SHED_MAP i).addr := by
  have hi := i.isLt
  rw [rdw_plainWrite_self _ _ _ _ (by simp [Reg.CYC_SHED_MAP]; omega) (by simp [Reg.CYC_SHED_MAP]; omega) (by simp [Reg.CYC_SHED_MAP]; omega),
    newValue_of_own (rowsAt_shedMap i), Nat.mod_eq_of_lt (rdw_lt s _)]

/-- The axes whose bit of map word `i` is written 1 and set. -/
theorem mem_rejoinAsked {s : State} {i w a : Nat} :
    a ∈ ((List.range 32).filter (fun b => bitOf b w && on s (shedField (i * 32 + b)))).map (fun b => i * 32 + b) ↔
      a / 32 = i ∧ bitOf (a % 32) w = true ∧ on s (shedField a) = true := by
  simp only [List.mem_map, List.mem_filter, List.mem_range, Bool.and_eq_true]
  constructor
  · rintro ⟨b, ⟨hb, hbit, hset⟩, rfl⟩
    refine ⟨by omega, ?_, hset⟩
    rwa [show (i * 32 + b) % 32 = b by omega]
  · rintro ⟨rfl, hbit, hset⟩
    have hsplit : a / 32 * 32 + a % 32 = a := Nat.div_add_mod' a 32
    exact ⟨a % 32, ⟨Nat.mod_lt _ (by decide), hbit, by rwa [hsplit]⟩, hsplit⟩

/-- An action that the write itself mirrors, at a unit that takes it. -/
theorem pairAction_open {s : State} {k : Nat} {m : Master} (w : W32) (f : State → State) (h : CanReach m s k) (hr : roleBars s m = false) :
    pairAction s m k w f = noteItems (f (plainWrite s m k w.toNat)) [writeItem (plainWrite s m k w.toNat) k w] := by
  unfold pairAction pairActionWith
  rw [pageAccess_open _ _ h, hr]
  rfl

/-- What SHED_MAP_WRITE requests and what it leaves. -/
theorem exec_shedMapWrite {m : Master} {i : Fin 32} {w : W32} {s : State} (h : CanReach m s (Reg.CYC_SHED_MAP i).addr) (hr : roleBars s m = false) :
    ∃ t, exec (.shedMapWrite m i w) s = .next t ∧ t.mem = s.mem ∧ rdw t (Reg.CYC_SHED_MAP i).addr = rdw s (Reg.CYC_SHED_MAP i).addr ∧
      (∀ a, a ∈ t.sched.rejoin ↔ (a ∈ s.sched.rejoin ∨ (a / 32 = i.val ∧ bitOf (a % 32) w.toNat = true ∧ on s (shedField a) = true))) ∧
      t.sched = { s.sched with rejoin := t.sched.rejoin } := by
  have hkept := rdw_plainWrite_shedMap s m i w.toNat
  have hshape := plainWrite_shape s m (Reg.CYC_SHED_MAP i).addr w.toNat
  have hset : ∀ a, a / 32 = i.val → on (plainWrite s m (Reg.CYC_SHED_MAP i).addr w.toNat) (shedField a) = on s (shedField a) := by
    intro a ha
    simp only [on, rd, shedField, ha, hkept]
  refine ⟨_, congrArg Host.Outcome.next (pairAction_open w _ h hr), ?_, ?_, fun a => ?_, ?_⟩
  · rw [noteItems_shape]
    exact hshape.mem
  · rw [Kept.rdw ⟨_, rfl⟩]
    exact hkept
  · rw [noteItems_shape]
    simp only [List.mem_dedup, List.mem_append, mem_rejoinAsked, hshape.sched]
    exact or_congr_right (and_congr_right fun ha => by rw [hset a ha])
  · rw [noteItems_shape]
    simp only [hshape.sched]

/-! ## Withdrawal (R68) -/

/-- With no schedule bank in service the capacity checker does nothing (R37). -/
theorem capacityCheck_idle {s : State} (h : inService s = false) (mhz : Nat) : capacityCheck s mhz = s := by
  rw [capacityCheck, h, if_neg (by decide)]

/-- `t` is `u` with engines below `n` of cluster `c` withdrawn as `w` says: nothing else differs. -/
def WithdrawnTo (c w n : Nat) (u t : State) : Prop :=
  RegsWire u t ∧ (∀ k, k ≠ (Reg.CLU_WITHDRAW c).addr → rdw t k = rdw u k) ∧ ∀ i, i < n → withdrawn t (c * 16 + i) = bitOf i w

/-- The WITHDRAW bits of a cluster's engines lie in one register. -/
theorem wdField_of_lt {c i : Nat} (hi : i < 16) : wdField (c * 16 + i) = ⟨(Reg.CLU_WITHDRAW c).addr, i, i⟩ := by
  rw [wdField, show (c * 16 + i) / 16 = c by omega, show (c * 16 + i) % 16 = i by omega]

/-- Writing one WITHDRAW bit settles that engine and leaves those below it. -/
theorem WithdrawnTo.wr {c w n : Nat} {u t : State} (h : WithdrawnTo c w n u t) (hn : n < 16) :
    WithdrawnTo c w (n + 1) u (wr t (wdField (c * 16 + n)) (b2n (bitOf n w))) := by
  obtain ⟨hshape, hregs, hbits⟩ := h
  rw [wdField_of_lt hn]
  refine ⟨hshape.trans (RegsWire.wr _ _ _), fun k hk => (rdw_wr_other _ ⟨_, n, n⟩ _ hk).trans (hregs k hk), fun i hi => ?_⟩
  rcases Nat.lt_succ_iff_lt_or_eq.mp hi with hlt | rfl
  · rw [← hbits i hlt, withdrawn, withdrawn, wdField_of_lt (by omega), on, on,
      rd_wr_disj _ _ _ _ (le_refl n) (by simp; omega) (le_refl i) (.inl hlt)]
  · rw [withdrawn, wdField_of_lt hn, on, rd_wr_self _ _ _ (le_refl _) (by simp; omega)]
    cases bitOf i w <;> simp [b2n]

/-- An engine that stands as `w` says already is settled. -/
theorem WithdrawnTo.skip {c w n : Nat} {u t : State} (h : WithdrawnTo c w n u t) (hw : bitOf n w = withdrawn t (c * 16 + n)) :
    WithdrawnTo c w (n + 1) u t := by
  obtain ⟨hshape, hregs, hbits⟩ := h
  refine ⟨hshape, hregs, fun i hi => ?_⟩
  rcases Nat.lt_succ_iff_lt_or_eq.mp hi with hlt | rfl
  · exact hbits i hlt
  · exact hw.symm

/-- One engine's part of a WITHDRAW write. -/
def withdrawOne (m : Master) (c w : Nat) (s : State) (i : Nat) : State :=
  if bitOf i w = withdrawn s (c * 16 + i) then s
  else if !bitOf i w && heldEngine s (c * 16 + i) then errlog s (0x10 + c) 7 m (Reg.CLU_WITHDRAW c).addr
  else capacityCheck (Machine.wr s (wdField (c * 16 + i)) (b2n (bitOf i w))) (leMHz (Machine.wr s (wdField (c * 16 + i)) (b2n (bitOf i w))))

theorem exec_withdrawWrite {m : Master} {c : Fin 4} {w : W32} {s : State} (h : CanReach m s (Reg.CLU_WITHDRAW c).addr) :
    exec (.withdrawWrite m c w) s =
      .next ((List.range 16).foldl (withdrawOne m c w.toNat) (plainWrite s m (Reg.CLU_WITHDRAW c).addr w.toNat)) :=
  congrArg Host.Outcome.next (regAction_open w _ h)

/-- The registers that decide whether an engine is held, or a schedule bank is in service. -/
def holdKeys : List Nat := [Reg.LEMAC_SCHED_ACTIVE.addr, Reg.BOOT_EXCL_LO_ENG.addr, Reg.BOOT_EXCL_HI_ENG.addr, Reg.BOOT_EXCL_MEM_CLU.addr]

theorem inService_congr {s t : State} (h : ∀ k ∈ holdKeys, rdw t k = rdw s k) : inService t = inService s := by
  rw [inService, rd, h _ (by simp [holdKeys]), inService, rd]

theorem heldEngine_congr {s t : State} (hs : RegsWire s t) (h : ∀ k ∈ holdKeys, rdw t k = rdw s k) (e : Nat) : heldEngine t e = heldEngine s e := by
  have hlo := h Reg.BOOT_EXCL_LO_ENG.addr (by simp [holdKeys])
  have hhi := h Reg.BOOT_EXCL_HI_ENG.addr (by simp [holdKeys])
  have hmem := h Reg.BOOT_EXCL_MEM_CLU.addr (by simp [holdKeys])
  simp only [heldEngine, engExcluded, rd, hlo, hhi, hmem, hs.sched, hs.tests]

/-- With no bank in service and no engine held, a WITHDRAW write settles the engines one by one. -/
theorem withdrawnTo_fold {u : State} {m : Master} {c w : Nat} (hidle : inService u = false) (hheld : ∀ i, i < 16 → heldEngine u (c * 16 + i) = false)
    (hkeys : (Reg.CLU_WITHDRAW c).addr ∉ holdKeys) {n : Nat} (hn : n ≤ 16) :
    WithdrawnTo c w n u ((List.range n).foldl (withdrawOne m c w) u) := by
  induction n with
  | zero => exact ⟨RegsWire.refl u, fun _ _ => rfl, fun i hi => absurd hi (Nat.not_lt_zero i)⟩
  | succ n ih =>
    have h := ih (by omega)
    rw [List.range_succ, List.foldl_append, List.foldl_cons, List.foldl_nil]
    generalize (List.range n).foldl (withdrawOne m c w) u = t at h
    have kept : ∀ {v : State}, RegsWire u v → (∀ k, k ≠ (Reg.CLU_WITHDRAW c).addr → rdw v k = rdw u k) →
        inService v = false ∧ heldEngine v (c * 16 + n) = false := fun hv hr =>
      have same := fun k hk => hr k (fun he => hkeys (he ▸ hk))
      ⟨(inService_congr same).trans hidle, (heldEngine_congr hv same _).trans (hheld n (by omega))⟩
    have hwr := h.wr (n := n) (by omega)
    obtain ⟨-, hfree⟩ := kept h.1 h.2.1
    obtain ⟨hidle', -⟩ := kept hwr.1 hwr.2.1
    unfold withdrawOne
    split
    · next hw => exact h.skip hw
    · rw [hfree, Bool.and_false, if_neg (by decide), capacityCheck_idle hidle']
      exact hwr

/-! ## Parameter commits (R26) -/

/-- The lead of two whole cycles. -/
theorem leadOk_two {s : State} {n : Nat} : leadOk s n 2 = decide (s.sched.cycle + 3 ≤ n) := rfl

/-- A late request sets LATE and keeps no commit. -/
theorem askCommit_late {s : State} {n : Nat} (h : n < s.sched.cycle + 3) :
    on (askCommit s n) Reg.CYC_COMMIT_STAT_LATE = true ∧ (askCommit s n).commit = s.commit := by
  rw [askCommit, leadOk_two, decide_eq_false (by omega), if_neg (by decide)]
  refine ⟨?_, by simp⟩
  rw [on, rd, rdw_post (by decide) (by decide), ← rd, ← on]
  unfold setSticky
  split
  · assumption
  · rw [on, rd, rdw_raise _ _ _ (by decide) (by decide), ← rd, rd_wr_self _ _ _ (by decide) (by decide)]
    rfl

/-- A request in time that names no set is kept with PEND set and DONE clear. -/
theorem askCommit_kept {s : State} {n : Nat} (h : s.sched.cycle + 3 ≤ n) (haxis : on s Reg.CYC_COMMIT_MASK_AXIS = false)
    (hmotion : on s Reg.CYC_COMMIT_MASK_MOTION = false) :
    (askCommit s n).commit = some ⟨n, [], [], []⟩ ∧ (askCommit s n).mem = s.mem ∧ on (askCommit s n) Reg.CYC_COMMIT_STAT_PEND = true ∧
      on (askCommit s n) Reg.CYC_COMMIT_STAT_DONE = false := by
  have hmask : ∀ f : Fld, f.addr ≠ Reg.CYC_COMMIT_STAT_PEND.addr → on (wrs s [(Reg.CYC_COMMIT_STAT_PEND, 1), (Reg.CYC_COMMIT_STAT_DONE, 0)]) f = on s f :=
    fun f hf => by
      rw [on, wrs, List.foldl_cons, List.foldl_cons, List.foldl_nil]
      dsimp only
      rw [rd_wr_other _ Reg.CYC_COMMIT_STAT_DONE _ _ hf, rd_wr_other _ Reg.CYC_COMMIT_STAT_PEND _ _ hf, on]
  have hrun : askCommit s n = { wrs s [(Reg.CYC_COMMIT_STAT_PEND, 1), (Reg.CYC_COMMIT_STAT_DONE, 0)] with commit := some ⟨n, [], [], []⟩ } := by
    rw [askCommit, leadOk_two, decide_eq_true h, if_pos rfl]
    simp only [hmask _ (show Reg.CYC_COMMIT_MASK_AXIS.addr ≠ _ by decide), hmask _ (show Reg.CYC_COMMIT_MASK_MOTION.addr ≠ _ by decide), haxis, hmotion,
      Bool.false_eq_true, if_false]
  have hpend : rd (wrs s [(Reg.CYC_COMMIT_STAT_PEND, 1), (Reg.CYC_COMMIT_STAT_DONE, 0)]) Reg.CYC_COMMIT_STAT_PEND = 1 := by
    rw [wrs, List.foldl_cons, List.foldl_cons, List.foldl_nil, rd_wr_disj _ _ _ _ (by decide) (by decide) (by decide) (by decide),
      rd_wr_self _ _ _ (by decide) (by decide)]
    rfl
  have hdone : rd (wrs s [(Reg.CYC_COMMIT_STAT_PEND, 1), (Reg.CYC_COMMIT_STAT_DONE, 0)]) Reg.CYC_COMMIT_STAT_DONE = 0 := by
    rw [wrs, List.foldl_cons, List.foldl_cons, List.foldl_nil, rd_wr_self _ _ _ (by decide) (by decide)]
    rfl
  rw [hrun]
  exact ⟨rfl, wrs_mem .., congrArg (· == 1) hpend, congrArg (· == 1) hdone⟩

theorem exec_commitRequest {m : Master} {w : W32} {s : State} (h : CanReach m s Reg.CYC_COMMIT_AT_LO.addr) (hr : roleBars s m = false) :
    ∃ u, (Written Reg.CYC_COMMIT_AT_LO.addr s u) ∧ ∃ t, Kept (askCommit u (w.toNat + 2 ^ 32 * rd s Reg.CYC_COMMIT_AT_HI_CYCLE)) t ∧
      exec (.commitRequest m w) s = .next t := by
  obtain ⟨u, ⟨hshape, hregs⟩, hkept⟩ := pairActionWith_kept m w (fun a _ => [writeItem a Reg.CYC_COMMIT_AT_LO.addr w])
    (fun s => askCommit (wr s Reg.CYC_COMMIT_AT_LO_CYCLE w.toNat)
      (w.toNat + 2 ^ 32 * rd (wr s Reg.CYC_COMMIT_AT_LO_CYCLE w.toNat) Reg.CYC_COMMIT_AT_HI_CYCLE)) h hr
  have hw : Written Reg.CYC_COMMIT_AT_LO.addr s (wr u Reg.CYC_COMMIT_AT_LO_CYCLE w.toNat) :=
    ⟨hshape.trans (RegsWire.wr _ _ _), fun k hk => (rdw_wr_other _ _ _ (fun he => hk (he ▸ List.mem_cons_self))).trans (hregs k hk)⟩
  refine ⟨_, hw, _, ?_, rfl⟩
  rw [← hw.rd Reg.CYC_COMMIT_AT_HI_CYCLE (by decide)]
  exact hkept

/-- What a unit keeps for its mirror record is no commit. -/
theorem Kept.commit {u t : State} (h : Kept u t) : t.commit = u.commit := by
  obtain ⟨l, rfl⟩ := h
  rw [noteItems_shape]

/-- What a unit keeps for its mirror record is in no register field. -/
theorem Kept.on {u t : State} (h : Kept u t) (f : Fld) : on t f = on u f := by
  rw [Machine.on, rd, h.rdw, ← rd, Machine.on]

/-- A WITHDRAW write bears on no register that holds an engine or puts a bank in service. -/
theorem holdKeys_apart (c : Fin 4) : ∀ k ∈ holdKeys, k ∉ cmdKeys (Reg.CLU_WITHDRAW c).addr := by
  revert c
  decide

/-- Settles O25: the rejoin requests, the WITHDRAW bits, a commit too late and a commit in time. -/
theorem sheddingWithdrawalAndCommit : Obligations.SheddingWithdrawalAndCommit := by
  unfold Obligations.SheddingWithdrawalAndCommit
  refine ⟨fun m i w s h hr => exec_shedMapWrite h hr, fun m c w s h hidle hheld => ?_, fun m w s h hr => ?_⟩
  · have hw := plainWrite_written s m (Reg.CLU_WITHDRAW c).addr w.toNat
    have same := fun k hk => hw.2 k (holdKeys_apart c k hk)
    obtain ⟨hshape, hregs, hbits⟩ := withdrawnTo_fold (m := m) (w := w.toNat) ((inService_congr same).trans hidle)
      (fun i hi => (heldEngine_congr hw.1 same _).trans (hheld i hi)) (fun hk => holdKeys_apart c _ hk List.mem_cons_self) (le_refl 16)
    refine ⟨_, exec_withdrawWrite h, hw.1.trans hshape, fun k hk => ?_, hbits⟩
    rw [hregs k (fun he => hk (he ▸ List.mem_cons_self)), hw.2 k hk]
  · obtain ⟨u, hw, t, hkept, hrun⟩ := exec_commitRequest (w := w) h hr
    extract_lets n
    refine ⟨fun hlate => ?_, fun htime haxis hmotion => ?_⟩
    · obtain ⟨hflag, hcommit⟩ := askCommit_late (s := u) (n := n) (by rw [hw.1.sched]; exact hlate)
      exact ⟨t, hrun, (hkept.on _).trans hflag, hkept.commit.trans (hcommit.trans hw.1.commit)⟩
    · obtain ⟨hcommit, hmem, hpend, hdone⟩ := askCommit_kept (s := u) (n := n) (by rw [hw.1.sched]; exact htime)
        ((hw.on _ (by decide)).trans haxis) ((hw.on _ (by decide)).trans hmotion)
      exact ⟨t, hrun, hkept.commit.trans hcommit, hkept.mem.trans (hmem.trans hw.1.mem), (hkept.on _).trans hpend, (hkept.on _).trans hdone⟩

end Sys2Proof.Machine
end

section
/-! PROOFS. The cycle boundary and the end of the last downlink launch (R23, R25, R40, R442). -/

namespace Sys2Proof.Machine

/-! ## The clusters' CFG registers up to the takeover (R25, R40) -/

/-- The register is CFG of a cluster. -/
def CfgKey (k : Nat) : Prop := k % 0x1000 = 0x40 ∧ 0x10 ≤ k / 0x1000 ∧ k / 0x1000 < 0x14

/-- A change of one unit after another that leaves the register each time leaves it. -/
theorem rdw_foldl {β : Type} {k : Nat} {f : State → β → State} (hf : ∀ s x, rdw (f s x) k = rdw s k) (l : List β) (s : State) :
    rdw (l.foldl f s) k = rdw s k :=
  List.foldlRecOn l f (motive := fun (t : State) => rdw t k = rdw s k) rfl fun t ht x _ => (hf t x).trans ht

section
variable {k : Nat} (hk : CfgKey k)
include hk

theorem CfgKey.ne {f : Fld} (h : f.addr % 0x1000 ≠ 0x40 ∨ f.addr / 0x1000 < 0x10 ∨ 0x14 ≤ f.addr / 0x1000) : k ≠ f.addr := by
  obtain ⟨hofs, hlo, hhi⟩ := hk
  rintro rfl
  omega

theorem CfgKey.aside (p : Nat) : Aside p k := ⟨fun h => by have := hk.2.2; omega, .inl hk.1.ge⟩

theorem rdw_showClocked (s : State) (clk : BitVec 128) : rdw (showClocked s clk) k = rdw s k := by
  have hclocked : ∀ c, k ≠ (Reg.CLU_CLOCKED_CLOCKED c).addr := fun c => hk.ne (.inl (by simp only [Reg.CLU_CLOCKED_CLOCKED]; omega))
  unfold showClocked
  extract_lets s₁
  have h₁ : rdw s₁ k = rdw s k := rdw_foldl (fun t c => by split; exacts [rdw_wr_other _ _ _ (hclocked c), rfl]) _ s
  clear_value s₁
  exact h₁

theorem rdw_noteOverrun (s : State) (t : Nat) : rdw (noteOverrun s t) k = rdw s k := by
  have hpage := hk.2.2
  rw [noteOverrun, rdw_raise_aside (hk.aside _), rdw_post (hk.aside 0).1 (by have := hk.2.1; omega),
    rdw_incCnt (hk.aside _) (hk.ne (.inr (.inr (by decide))))]

theorem rdw_showIssued (s : State) (e : Nat) : rdw (showIssued s e) k = rdw s k := by
  have hissued : k ≠ (Reg.LE_ISSUED_ISSUED e).addr := hk.ne (.inl (by simp only [Reg.LE_ISSUED_ISSUED]; omega))
  have hstalled : k ≠ (Reg.LE_STALLED_STALLED e).addr := hk.ne (.inl (by simp only [Reg.LE_STALLED_STALLED]; omega))
  have shown : ∀ (t : State) i j, rdw (wrs t [(Reg.LE_ISSUED_ISSUED e, i), (Reg.LE_STALLED_STALLED e, j)]) k = rdw t k := fun t i j =>
    (rdw_wr_other _ _ _ hstalled).trans (rdw_wr_other _ _ _ hissued)
  unfold showIssued
  split
  · split
    · exact shown _ _ _
    · exact shown _ _ _
  · rfl

theorem rdw_endCycle (s : State) : rdw (endCycle s) k = rdw s k := by
  have hcnt : k ≠ Reg.CYC_FLUSH_CNT_COUNT.addr := hk.ne (.inr (.inr (by decide)))
  have counted : ∀ n, rdw (addCnt s Reg.CYC_FLUSH_CNT_COUNT n) k = rdw s k := rdw_addCnt (hk.aside _) hcnt s
  have overrun : ∀ (l : List Nat) (t : State), rdw (l.foldl noteOverrun t) k = rdw t k := rdw_foldl (rdw_noteOverrun hk)
  have issued : ∀ (l : List Nat) (t : State), rdw (l.foldl showIssued t) k = rdw t k := rdw_foldl (rdw_showIssued hk)
  have ended : ∀ (l : List Nat) (t : State), rdw (l.foldl (fun s e => setEng s e (endEngine (eng s e))) t) k = rdw t k := rdw_foldl fun _ _ => rfl
  have discarded : ∀ (t : State) (w p), rdw { t with sched := { t.sched with wells := w, posters := p } } k = rdw t k := fun _ _ _ => rfl
  unfold endCycle
  dsimp only
  rw [discarded, ended, issued, overrun, counted]

end

/-- Forming plans changes no register. -/
theorem planCmds_regs (s : State) : (planCmds s).regs = s.regs := by
  unfold planCmds
  refine List.foldlRecOn _ _ (motive := fun (t : State) => t.regs = s.regs) rfl fun t ht c _ => ?_
  split
  · split
    · split
      · rw [noteItem, noteItems_shape]
        exact ht
      · exact ht
    · exact ht
  · exact ht

section
variable {k : Nat} (hk : CfgKey k)
include hk

theorem rdw_showMirror (s : State) (bytes : Nat) : rdw (showMirror s bytes) k = rdw s k :=
  (rdw_wr_other _ Reg.PEER_MIRROR_PEAK _ (hk.ne (.inr (.inr (by decide))))).trans
    (rdw_wr_other _ Reg.PEER_MIRROR_LAST _ (hk.ne (.inr (.inr (by decide)))))

theorem rdw_sendItems (s : State) (used : Nat) (r : List MItem → MirrorRec) : rdw (sendItems s used r) k = rdw s k := by
  unfold sendItems
  extract_lets back rest held f total s₁ s₂
  have h₁ : rdw s₁ k = rdw s k := rdw_foldl (f := fun s i => emit s (.background i)) (fun _ _ => rfl) _ s
  have h₂ : rdw s₂ k = rdw s₁ k := rdw_showMirror hk _ _
  clear_value s₁ s₂
  exact h₂.trans h₁

theorem rdw_pairCycle (s : State) : rdw (pairCycle s) k = rdw s k := by
  have htail : rdw (mirrorTail s) k = rdw s k := by
    unfold mirrorTail
    split
    · dsimp only
      split
      · rw [rdw_sendItems hk, rdw, planCmds_regs, rdw]
      · rw [rdw, planCmds_regs, rdw]
    · rfl
  unfold pairCycle
  extract_lets s₁
  exact htail

end

/-- A table without the entries of other keys answers the same. -/
theorem tget_filter {α : Type} (d : Nat → α) (f : Nat → Bool) (t : Tbl α) {k : Nat} (h : f k = true) :
    tget d (t.filter (fun e => f e.1)) k = tget d t k := by
  induction t with
  | nil => rfl
  | cons e t ih =>
    obtain ⟨j, v⟩ := e
    by_cases hj : j = k
    · subst hj
      simp [h, tget]
    · by_cases hf : f j = true
      · simp [hf, tget, hj, ih]
      · simp [hf, tget, hj, ih]

/-- The CFG register of a cluster is taken over at a boundary. -/
theorem cfg_takeControl (s : State) {f : Fld} (hk : CfgKey f.addr) : cfg (takeControl s) f = rd s f := by
  have htaken : takenOver f.addr = true := by
    obtain ⟨hofs, hlo, hhi⟩ := hk
    have hcluster : (decide (0x10 ≤ f.addr / 0x1000) && decide (f.addr / 0x1000 ≤ 0x14) && f.addr % 0x1000 != 0x44) = true := by
      simp only [Bool.and_eq_true, decide_eq_true_eq, bne_iff_ne]
      omega
    simp only [takenOver, hcluster, Bool.true_or]
  rw [cfg, takeControl, tget_filter _ _ _ htaken, rd, rdw]

/-! ## The boundary (R40, R442) -/

/-- What a boundary does once the control registers are taken over and its count `n` holds; `was` are the encoder types of the ending cycle. -/
def boundaryRest (was : Nat → Nat) (n : Nat) (s : State) : State :=
  let s := pairBoundary (timeBoundary s n) n
  let s := noteRun (driftSet (portsBoundary s))
  let s := launchCs (primeBoundary (step2 s n))
  let s := pointsBoundary (reload s n)
  let s := emuBoundary (encBoundary s was)
  let tens := s.axes.map (fun e => (e.1, { e.2 with tenPrev := e.2.ten }))
  let s := motionBoundary { s with axes := tens.filter (fun e => e.2 != {}) } n
  unarmedEdges (interFlags s n)

theorem keeps_boundaryRest (was : Nat → Nat) (n : Nat) (s : State) : Keeps s (boundaryRest was n s) := by
  unfold boundaryRest
  extract_lets s₁ s₂ s₃ s₄ s₅ tens s₆
  have h₁ : Keeps s s₁ := keeps_pairBoundary _ _ (keeps_timeBoundary _ _ (Keeps.refl s))
  have h₂ : Keeps s s₂ := keeps_noteRun _ (keeps_driftSet _ (keeps_portsBoundary _ h₁))
  have h₃ : Keeps s s₃ := keeps_launchCs _ (keeps_primeBoundary _ (keeps_step2 _ _ h₂))
  have h₄ : Keeps s s₄ := keeps_pointsBoundary _ (keeps_reload _ _ h₃)
  have h₅ : Keeps s s₅ := keeps_emuBoundary _ (keeps_encBoundary _ _ h₄)
  have h₆ : Keeps s s₆ := keeps_motionBoundary _ _ (keeps_mk h₅)
  exact keeps_unarmedEdges _ (keeps_interFlags _ _ h₆)

/-- The state in which the next cycle's count holds and its control registers are taken over. -/
def takenState (clk : BitVec 128) (s : State) : State :=
  let t := takeControl (pairCycle (endCycle (showClocked s clk)))
  { t with sched := { t.sched with cycle := s.sched.cycle + 1 } }

theorem takenState_ctl (clk : BitVec 128) (s : State) :
    (takenState clk s).ctl = (takeControl (pairCycle (endCycle (showClocked s clk)))).ctl := by
  rw [takenState]

/-- A boundary while NET is ON. -/
theorem exec_cycleBoundary {s : State} (clk : BitVec 128) (h : domOn s dNET = true) : exec (.cycleBoundary clk) s =
    .next (boundaryRest (fun c => ((List.range 8).map (encType s)).getD c 0) (s.sched.cycle + 1) (takenState clk s)) := by
  change execCycleBoundary clk s = _
  rw [execCycleBoundary, if_pos h]
  rfl

/-- At a boundary each field of a cluster's CFG is taken over as it stands. -/
theorem cfg_boundary (clk : BitVec 128) (s : State) (was : Nat → Nat) (n : Nat) {f : Fld} (hk : CfgKey f.addr) :
    cfg (boundaryRest was n (takenState clk s)) f = rd s f := by
  obtain ⟨hctl, -, -⟩ := keeps_boundaryRest was n (takenState clk s)
  have htaken := cfg_takeControl (pairCycle (endCycle (showClocked s clk))) hk
  rw [rd, rdw_pairCycle hk, rdw_endCycle hk, rdw_showClocked hk, ← rd] at htaken
  rw [← htaken, cfg, cfg, hctl, takenState_ctl]

theorem cfgKey_clu (c : Fin 4) : CfgKey (Reg.CLU_CFG_PFMODE c).addr := by
  have hc := c.isLt
  unfold CfgKey Reg.CLU_CFG_PFMODE
  dsimp only
  omega

/-! ## The last launch (R23, R27) -/

/-- Logging late runs leaves every byte past the sump. -/
theorem mget_logLateRuns (s : State) {c : Nat} (hc : 0x10020000 ≤ c) : mget (logLateRuns s) c = mget s c := by
  have logged : ∀ (d : Nat → Nat) (l : List Nat) (t : State),
      mget (l.foldl (fun s a => raise (post s 0x3001 3 (d a)) 0x14 7) t) c = mget t c := fun d l t =>
    List.foldlRecOn l _ (motive := fun (u : State) => mget u c = mget t c) rfl fun u hu a _ => by
      rw [(raise_shape _ _ _).mget_eq, mget_post_other _ _ _ _ _ (by decide) hc, hu]
  unfold logLateRuns
  dsimp only
  rw [logged, logged]

/-- What axes and motion channels keep of a launch is not in memory. -/
theorem keepLaunch_mem (s : State) : (keepLaunch s).mem = s.mem := by
  have axes : ∀ (l : List Nat) (t : State), (l.foldl launchAxis t).mem = t.mem := fun l t =>
    List.foldlRecOn l _ (motive := fun (u : State) => u.mem = t.mem) rfl fun u hu a _ => hu
  have mots : ∀ (l : List Nat) (t : State), (l.foldl (fun s c => setMot s c { mot s c with mstat := (mot s c).word }) t).mem = t.mem := fun l t =>
    List.foldlRecOn l _ (motive := fun (u : State) => u.mem = t.mem) rfl fun u hu a _ => hu
  unfold keepLaunch
  dsimp only
  rw [mots, axes]

/-- Up to the hand-over of the output image the commanded outputs stand as they were. -/
theorem ptVal_outPoint_launch (s : State) : ptVal (keepLaunch (logLateRuns s)) outPoint = ptVal s outPoint := by
  have hval : ∀ t : State, ptVal t outPoint = mnum t (ptAddr outPoint) 8 := fun t =>
    if_neg fun h => absurd h.1 (by decide)
  rw [hval, hval]
  refine mnum_congr fun i _ => ?_
  rw [mget, keepLaunch_mem, ← mget, mget_logLateRuns s (by simp only [ptAddr]; omega)]

/-- What is left of the last launch once the output image is handed to the bridge. -/
theorem keeps_launchRest (s : State) : Keeps s (mirrorSend (planCmds (canTxMap (emuUpdates (acqTap (latchSnap s)))))) :=
  keeps_mirrorSend _ (keeps_planCmds _ (keeps_canTxMap _ (keeps_emuUpdates _ (keeps_acqTap _ (keeps_latchSnap _ (Keeps.refl s))))))

/-- With NET ON, the end of the last launch hands the commanded outputs to the bridge and changes nothing else of it. -/
theorem exec_lastLaunchComplete {s : State} (h : domOn s dNET = true) : ∃ t, exec .lastLaunchComplete s = .next t ∧
    t.bridge = { s.bridge with outImg := BitVec.ofNat 16 (ptVal s outPoint) } := by
  obtain ⟨-, -, hkept⟩ := keeps_keepLaunch _ (keeps_logLateRuns _ (Keeps.refl s))
  obtain ⟨-, -, hrest⟩ := keeps_launchRest { keepLaunch (logLateRuns s) with
    bridge := { (keepLaunch (logLateRuns s)).bridge with outImg := BitVec.ofNat 16 (ptVal (keepLaunch (logLateRuns s)) outPoint) } }
  refine ⟨_, ?_, hrest.trans ?_⟩
  · change execLastLaunchComplete s = _
    rw [execLastLaunchComplete, if_pos h]
  · rw [hkept, ptVal_outPoint_launch]

/-- Settles O27: the boundary with NET off and ON, then the last launch. -/
theorem cycleBoundaryAndLastLaunch : Obligations.CycleBoundaryAndLastLaunch := by
  unfold Obligations.CycleBoundaryAndLastLaunch
  refine ⟨fun clk s => ⟨fun hoff => ?_, fun hon => ?_⟩, fun s => ⟨fun hoff => ?_, exec_lastLaunchComplete⟩⟩
  · change execCycleBoundary clk s = _
    rw [execCycleBoundary, if_neg (by simp [hoff])]
  · obtain ⟨-, hcycle, -⟩ := keeps_boundaryRest (fun c => ((List.range 8).map (encType s)).getD c 0) (s.sched.cycle + 1) (takenState clk s)
    exact ⟨_, exec_cycleBoundary clk hon, hcycle, fun c =>
      ⟨cfg_boundary clk s _ _ (cfgKey_clu c), cfg_boundary clk s _ _ (cfgKey_clu c), cfg_boundary clk s _ _ (cfgKey_clu c)⟩⟩
  · change execLastLaunchComplete s = _
    rw [execLastLaunchComplete, if_neg (by simp [hoff])]

end Sys2Proof.Machine
end

section
/-! PROOFS. Changes of cistern floats and accesses to cistern words (R323 to R326). -/

namespace Sys2Proof.Machine

/-! ## Banked registers -/

/-- A banked register leaves those of other masters and other places. -/
theorem bget_bput_other (s : State) {m n : Master} {j k : Nat} (v : Nat) (hj : j < 2 ^ 24) (hk : k < 2 ^ 24) (h : n ≠ m ∨ k ≠ j) :
    bget (bput s m j v) n k = bget s n k := by
  have hne : mcode n * 2 ^ 24 + k ≠ mcode m * 2 ^ 24 + j := fun he => by
    have hcode : mcode n = mcode m := by omega
    have hplace : k = j := by omega
    rcases h with h | h
    · exact h (mcode_inj hcode)
    · exact h hplace
  rw [bget, bput, tget_tput_other _ _ _ hne, bget]

/-! ## The request (R324) -/

/-- A command at a register of another page leaves the unit's role. -/
theorem Written.role {k : Nat} {s u : State} (h : Written k s u) (hk : Reg.PEER_STAT_ROLE.addr ∉ cmdKeys k) : role u = role s := h.rd _ hk

theorem roleBars_congr {s t : State} (h : role t = role s) (m : Master) : roleBars t m = roleBars s m := by
  rw [roleBars, h, roleBars]

/-- A CAS that the pair role bars is logged; any other waits for its clock with the writer's result not valid. -/
theorem exec_cas {m : Master} {w : W32} {s : State} (h : CanReach m s Reg.CIST_CAS.addr) : ∃ u, Written Reg.CIST_CAS.addr s u ∧
    exec (.cas m w) s = .next (if wbits Reg.CIST_CAS_NEW w = 2 ∧ roleBars s m = true then errlog u 0xB0 6 m Reg.CIST_CAS.addr
      else bput { u with casPend := s.casPend ++ [⟨m, w⟩] } m Reg.CIST_CAS_RES.addr 0) := by
  have hw := plainWrite_written s m Reg.CIST_CAS.addr w.toNat
  refine ⟨_, hw, ?_⟩
  rw [← roleBars_congr (hw.role (by decide)) m, ← hw.1.casPend]
  exact congrArg Host.Outcome.next (regAction_open w _ h)

theorem cas_barred {m : Master} {w : W32} {s : State} (h : CanReach m s Reg.CIST_CAS.addr) (hnew : wbits Reg.CIST_CAS_NEW w = 2)
    (hrole : roleBars s m = true) : ∃ t, exec (.cas m w) s = .next t ∧ RegsWire s t ∧ on t (Reg.HDR_ERRLOG_VALID 0xB0) = true := by
  obtain ⟨u, hw, hrun⟩ := exec_cas (w := w) h
  rw [if_pos ⟨hnew, hrole⟩] at hrun
  exact ⟨_, hrun, hw.1.trans (errlog_shape _ _ _ _ _), errlog_valid _ _ _ _ _ (by decide)⟩

theorem cas_waits {m : Master} {w : W32} {s : State} (h : CanReach m s Reg.CIST_CAS.addr)
    (hfree : wbits Reg.CIST_CAS_NEW w ≠ 2 ∨ roleBars s m = false) : ∃ t, exec (.cas m w) s = .next t ∧
      t = { s with regs := t.regs, wire := t.wire, banked := t.banked, casPend := s.casPend ++ [⟨m, w⟩] } ∧ bget t m Reg.CIST_CAS_RES.addr = 0 ∧
      ∀ n k, k < 2 ^ 24 → (n ≠ m ∨ k ≠ Reg.CIST_CAS_RES.addr) → bget t n k = bget s n k := by
  obtain ⟨u, ⟨hshape, -⟩, hrun⟩ := exec_cas (w := w) h
  rw [if_neg (by rintro ⟨hnew, hrole⟩; rcases hfree with h | h; exacts [h hnew, by simp [hrole] at h])] at hrun
  refine ⟨_, hrun, ?_, bget_bput_self _ _ _ _, fun n k hk hne => ?_⟩
  · rw [hshape]
    rfl
  · rw [bget_bput_other _ _ (by decide) hk hne, bget, hshape, bget]

/-! ## The change (R324, R326) -/

/-- The block that a CAS names. -/
def CasReq.block (r : CasReq) : Nat := bits 14 0 r.w.toNat

/-- The result of a CAS, as its writer reads it. -/
def casResult (s : State) (r : CasReq) : Nat :=
  2 ^ 31 + b2n (casOk s r.m r.w.toNat) * 2 ^ 30 + flt s (CasReq.block r) * 2 ^ 28 + b2n (blk s (CasReq.block r)).priv * 2 ^ 27 + CasReq.block r

/-- The state in which the result of a CAS is banked for its writer. -/
def casBanked (s : State) (r : CasReq) : State := bput s r.m Reg.CIST_CAS_RES.addr (casResult s r)

/-- A CAS banks its result, then changes the float or counts. -/
theorem casOne_eq (s : State) (r : CasReq) : casOne s r =
    if casOk s r.m r.w.toNat = true then casPass (casBanked s r) (CasReq.block r) (bits 31 30 r.w.toNat) (bitOf 27 r.w.toNat)
    else incCnt (casBanked s r) Reg.CIST_CASF_CNT_CASF_CNT := by
  simp only [casOne, casBanked, casResult, CasReq.block, flt]

theorem casResult_lt (s : State) (r : CasReq) : casResult s r < 2 ^ 32 := by
  have hone : ∀ b : Bool, b2n b ≤ 1 := by decide
  have hok := hone (casOk s r.m r.w.toNat)
  have hpriv := hone (blk s (CasReq.block r)).priv
  have hflt : flt s (CasReq.block r) < 4 := BitVec.isLt _
  have hblk : CasReq.block r < 2 ^ 15 := Nat.mod_lt _ (by decide)
  unfold casResult
  omega

/-- Changing a float leaves memory, the waiting requests and the banked registers. -/
theorem casPass_keeps (s : State) (b new : Nat) (priv : Bool) :
    (casPass s b new priv).mem = s.mem ∧ (casPass s b new priv).casPend = s.casPend ∧ (casPass s b new priv).banked = s.banked := by
  unfold casPass
  split
  · rw [noteItem, noteItems_shape]
    exact ⟨rfl, rfl, rfl⟩
  · exact ⟨rfl, rfl, rfl⟩

/-- A CAS performed leaves memory and the waiting requests, and banks its result. -/
theorem casOne_keeps (s : State) (r : CasReq) :
    (casOne s r).mem = s.mem ∧ (casOne s r).casPend = s.casPend ∧ (casOne s r).banked = (casBanked s r).banked := by
  have hmem : (casBanked s r).mem = s.mem := bput_mem ..
  have hpend : (casBanked s r).casPend = s.casPend := bput_casPend ..
  rw [casOne_eq]
  generalize casBanked s r = u at hmem hpend
  split
  · obtain ⟨h₁, h₂, h₃⟩ := casPass_keeps u (CasReq.block r) (bits 31 30 r.w.toNat) (bitOf 27 r.w.toNat)
    exact ⟨h₁.trans hmem, h₂.trans hpend, h₃⟩
  · exact ⟨(incCnt_mem ..).trans hmem, (incCnt_casPend ..).trans hpend, incCnt_banked ..⟩

/-- Requests performed one after the other leave memory and the waiting requests. -/
theorem casFold_keeps (l : List CasReq) (s : State) : (l.foldl casOne s).mem = s.mem ∧ (l.foldl casOne s).casPend = s.casPend :=
  List.foldlRecOn l casOne (motive := fun (t : State) => t.mem = s.mem ∧ t.casPend = s.casPend) ⟨rfl, rfl⟩ fun t ht r _ => by
    obtain ⟨hmem, hpend, -⟩ := casOne_keeps t r
    exact ⟨hmem.trans ht.1, hpend.trans ht.2⟩

theorem casRun_keeps (s : State) (k : Nat) : (casRun s k).mem = s.mem ∧ (casRun s k).casPend = s.casPend.drop k :=
  casFold_keeps _ { s with casPend := s.casPend.drop k }

/-- One request performed in its clock. -/
theorem casRun_one {s : State} {r : CasReq} {l : List CasReq} (h : s.casPend = r :: l) : casRun s 1 = casOne { s with casPend := l } r := by
  simp [casRun, h]

/-- Without a request for the network DMA, the rings are not looked at. -/
theorem exec_casExecute_quiet {s : State} {k : Nat} (h : ∀ r ∈ s.casPend.take k, bits 31 30 r.w.toNat ≠ 3) :
    exec (.casExecute k) s = .next (casRun s k) := by
  change execCasExecute k s = _
  rw [execCasExecute, if_neg (by simpa using h)]

/-- A mirroring unit keeps a block that it gives to engines for the second boundary from now. -/
theorem casPass_mirrored {s : State} {b new : Nat} {priv : Bool} (hnew : new = 2) (hm : mirrors s = true) :
    (casPass s b new priv).cist = s.cist ∧ (casPass s b new priv).pair = { s.pair with passes := s.pair.passes ++ [⟨s.sched.cycle + 2, b, priv⟩], items := s.pair.items ++ [.block (BitVec.ofNat 15 b) 2 priv (s.sched.cycle + 2) (cistBytes s (256 * b) 256)] } := by
  have hm' : mirrors { s with pair := { s.pair with passes := s.pair.passes ++ [⟨s.sched.cycle + 2, b, priv⟩] } } = true := hm
  rw [casPass, if_pos ⟨hnew, hm⟩]
  dsimp only
  rw [noteItem, noteItems, if_pos hm']
  exact ⟨rfl, rfl⟩

/-- Any other change is made at once. -/
theorem casPass_at_once {s : State} {b new : Nat} {priv : Bool} (h : new ≠ 2 ∨ mirrors s = false) : casPass s b new priv = setFloat s b new priv := by
  rw [casPass, if_neg]
  rintro ⟨hnew, hm⟩
  rcases h with h | h
  · exact h hnew
  · simp [h] at hm

/-- A float changed: its own block, and no other. -/
theorem setFloat_blocks (s : State) (b new : Nat) (priv : Bool) (hnew : new < 4) : (∀ c, c ≠ b → blk (setFloat s b new priv) c = blk s c) ∧
    flt (setFloat s b new priv) b = new ∧ (blk (setFloat s b new priv) b).priv = (priv && decide (new ≠ 0)) ∧
    (blk (setFloat s b new priv) b).prev = (blk s b).flt := by
  have hself : blk (setFloat s b new priv) b = { blk s b with flt := BitVec.ofNat 2 new, priv := priv && new % 4 != 0, prev := (blk s b).flt } :=
    tget_tput_self _ _ _ _
  refine ⟨fun c hc => tget_tput_other _ _ _ hc, ?_, ?_, ?_⟩
  · rw [flt, hself, BitVec.toNat_ofNat, Nat.mod_eq_of_lt hnew]
  · rw [hself, Nat.mod_eq_of_lt hnew]
    rcases Nat.eq_zero_or_pos new with rfl | hpos
    · rfl
    · simp [Nat.ne_of_gt hpos]
  · rw [hself]

/-- When a CAS makes its change, over the block's float as a number (R324). -/
theorem casOk_iff_float (s : State) (m : Master) (w : Nat) : casOk s m w =
    (decide (bits 29 28 w = flt s (bits 14 0 w)) && (decide (ownerClass m = flt s (bits 14 0 w)) || decide (flt s (bits 14 0 w) = 0)) &&
      !inAxisArea s (bits 14 0 w) && !(blk s (bits 14 0 w)).excl && !s.pair.passes.any (fun q => q.blk == bits 14 0 w)) := by
  have hzero : ((blk s (bits 14 0 w)).flt == 0) = decide (flt s (bits 14 0 w) = 0) := by
    rw [Bool.eq_iff_iff, beq_iff_eq, decide_eq_true_eq, flt, BitVec.toNat_eq]
    rfl
  unfold casOk
  dsimp only
  rw [hzero]
  rfl

/-- A CAS that its float, its owner or its block refuses changes no float and counts. -/
theorem casOne_refused {s : State} {r : CasReq} (h : casOk s r.m r.w.toNat = false) : (casOne s r).cist = s.cist ∧
    rd (casOne s r) Reg.CIST_CASF_CNT_CASF_CNT = (rd s Reg.CIST_CASF_CNT_CASF_CNT + 1) % 2 ^ 32 := by
  have hcist : (casBanked s r).cist = s.cist := bput_cist ..
  have hcnt : rd (casBanked s r) Reg.CIST_CASF_CNT_CASF_CNT = rd s Reg.CIST_CASF_CNT_CASF_CNT := by
    rw [rd, rdw, casBanked, bput_regs, ← rdw, ← rd]
  rw [casOne_eq, if_neg (by simp [h]), incCnt_cist, rd_incCnt_self ⟨by decide, .inl (by decide)⟩ (by decide) (by decide), hcnt]
  exact ⟨hcist, rfl⟩

/-- Whether a unit mirrors lies in its registers and in what it holds of the pair. -/
theorem mirrors_congr {s t : State} (hregs : t.regs = s.regs) (hpair : t.pair = s.pair) : mirrors t = mirrors s := by
  simp only [mirrors, role, peerUp, on, rd, rdw, hregs, hpair]

theorem mirrors_casBanked (s : State) (r : CasReq) : mirrors (casBanked s r) = mirrors s := mirrors_congr (bput_regs ..) (bput_pair ..)

/-- A CAS that is made changes its block's float alone, where the unit does not mirror a block given to engines. -/
theorem casOne_made {s : State} {r : CasReq} (h : casOk s r.m r.w.toNat = true) (hnow : bits 31 30 r.w.toNat ≠ 2 ∨ mirrors s = false) :
    casOne s r = setFloat (casBanked s r) (CasReq.block r) (bits 31 30 r.w.toNat) (bitOf 27 r.w.toNat) := by
  rw [casOne_eq, if_pos h, casPass_at_once (by rwa [mirrors_casBanked])]

theorem mread_congr {s t : State} (h : t.mem = s.mem) (a n : Nat) : mread t a n = mread s a n := by
  simp only [mread, mget, h]

/-- A CAS of a mirroring unit that gives its block to engines waits, and sends the block's content. -/
theorem casOne_given {s : State} {r : CasReq} (h : casOk s r.m r.w.toNat = true) (hnew : bits 31 30 r.w.toNat = 2) (hm : mirrors s = true) :
    (casOne s r).cist = s.cist ∧ (casOne s r).pair = { s.pair with passes := s.pair.passes ++ [⟨s.sched.cycle + 2, CasReq.block r, bitOf 27 r.w.toNat⟩], items := s.pair.items ++ [.block (BitVec.ofNat 15 (CasReq.block r)) 2 (bitOf 27 r.w.toNat) (s.sched.cycle + 2) (cistBytes s (256 * CasReq.block r) 256)] } := by
  obtain ⟨hcist, hpair⟩ := casPass_mirrored (s := casBanked s r) (b := CasReq.block r) (priv := bitOf 27 r.w.toNat) rfl
    ((mirrors_casBanked s r).trans hm)
  have hmem : (casBanked s r).mem = s.mem := bput_mem ..
  have hsame : (casBanked s r).pair = s.pair := bput_pair ..
  have hsched : (casBanked s r).sched = s.sched := bput_sched ..
  rw [casOne_eq, if_pos h, hnew, hcist, hpair, hsame, hsched, cistBytes, mread_congr hmem, ← cistBytes]
  exact ⟨bput_cist .., rfl⟩

/-- The result that a CAS banks reads back. -/
theorem bget_casOne (s : State) (r : CasReq) : bget (casOne s r) r.m Reg.CIST_CAS_RES.addr = casResult s r := by
  obtain ⟨-, -, hbanked⟩ := casOne_keeps s r
  have hbank : bget (casOne s r) r.m Reg.CIST_CAS_RES.addr = bget (casBanked s r) r.m Reg.CIST_CAS_RES.addr := by rw [bget, hbanked, ← bget]
  rw [hbank, casBanked, bget_bput_self, Nat.mod_eq_of_lt (casResult_lt s r)]

/-- Two requests of one clock are performed in the order of R326. -/
theorem casRun_two {s : State} {a b : CasReq} (h : s.casPend = [a, b]) : casRun s 2 =
    if casRank a.m ≤ casRank b.m then casOne (casOne { s with casPend := [] } a) b else casOne (casOne { s with casPend := [] } b) a := by
  by_cases hrank : casRank a.m ≤ casRank b.m <;> simp [casRun, h, hrank, List.mergeSort, List.MergeSort.Internal.splitInTwo]

/-- A float changed after a banked result: blocks, banked registers and nothing else. -/
theorem setFloat_casBanked_shape (s : State) (r : CasReq) (b new : Nat) (priv : Bool) :
    setFloat (casBanked s r) b new priv = { s with cist := (setFloat (casBanked s r) b new priv).cist, banked := (casBanked s r).banked } := by
  have hbanked : casBanked s r = { s with banked := (casBanked s r).banked } := by rw [casBanked]; rfl
  generalize casBanked s r = u at hbanked
  rw [hbanked]
  rfl

theorem blk_congr {s t : State} (h : t.cist = s.cist) (b : Nat) : blk t b = blk s b := by rw [blk, h, blk]

/-- The oldest request performed in its clock: its result, its change, or its count (R324). -/
theorem casExecute_one {s : State} {r : CasReq} {l : List CasReq} {ok : Bool} (hpend : s.casPend = r :: l) (hok : ok = casOk s r.m r.w.toNat)
    (hnet : bits 31 30 r.w.toNat ≠ 3) :
    ∃ t, exec (.casExecute 1) s = .next t ∧ t.mem = s.mem ∧ t.casPend = l ∧
      bget t r.m Reg.CIST_CAS_RES.addr = 2 ^ 31 + b2n ok * 2 ^ 30 + flt s (CasReq.block r) * 2 ^ 28 + b2n (blk s (CasReq.block r)).priv * 2 ^ 27 + CasReq.block r ∧
      (ok = true → bits 31 30 r.w.toNat = 2 → mirrors s = true → t.cist = s.cist ∧ t.pair = { s.pair with passes := s.pair.passes ++ [⟨s.sched.cycle + 2, CasReq.block r, bitOf 27 r.w.toNat⟩], items := s.pair.items ++ [MItem.block (BitVec.ofNat 15 (CasReq.block r)) 2 (bitOf 27 r.w.toNat) (s.sched.cycle + 2) (cistBytes s (256 * CasReq.block r) 256)] }) ∧
      (ok = true → (bits 31 30 r.w.toNat ≠ 2 ∨ mirrors s = false) → t = { s with cist := t.cist, banked := t.banked, casPend := t.casPend } ∧
        (∀ c, c ≠ CasReq.block r → blk t c = blk s c) ∧ flt t (CasReq.block r) = bits 31 30 r.w.toNat ∧
        (blk t (CasReq.block r)).priv = (bitOf 27 r.w.toNat && decide (bits 31 30 r.w.toNat ≠ 0)) ∧ (blk t (CasReq.block r)).prev = (blk s (CasReq.block r)).flt) ∧
      (ok = false → t.cist = s.cist ∧ rd t Reg.CIST_CASF_CNT_CASF_CNT = (rd s Reg.CIST_CASF_CNT_CASF_CNT + 1) % 2 ^ 32) := by
  subst hok
  have hmem : (casOne { s with casPend := l } r).mem = s.mem := (casOne_keeps { s with casPend := l } r).1
  have hleft : (casOne { s with casPend := l } r).casPend = l := (casOne_keeps { s with casPend := l } r).2.1
  have hresult : casResult { s with casPend := l } r = casResult s r := rfl
  have hrun := exec_casExecute_quiet (s := s) (k := 1) (by simpa [hpend] using hnet)
  rw [casRun_one hpend] at hrun
  refine ⟨_, hrun, hmem, hleft, by rw [bget_casOne, hresult, casResult], fun hok hnew hm => casOne_given (s := { s with casPend := l }) hok hnew hm,
    fun hok hnow => ?_, fun hok => casOne_refused (s := { s with casPend := l }) hok⟩
  have hnew : bits 31 30 r.w.toNat < 4 := Nat.mod_lt _ (by decide)
  obtain ⟨hother, hflt, hpriv, hprev⟩ := setFloat_blocks (casBanked { s with casPend := l } r) (CasReq.block r) _ (bitOf 27 r.w.toNat) hnew
  have hsame : ∀ b, blk (casBanked { s with casPend := l } r) b = blk s b := blk_congr (bput_cist ..)
  have hmade := casOne_made (s := { s with casPend := l }) hok hnow
  rw [hmade] at hleft ⊢
  refine ⟨?_, fun c hc => (hother c hc).trans (hsame c), hflt, hpriv, by rw [hprev, hsame]⟩
  rw [hleft]
  exact setFloat_casBanked_shape { s with casPend := l } r _ _ _

theorem with_casPend_self {u : State} {l : List CasReq} (h : u.casPend = l) : { u with casPend := l } = u := by
  subst h
  rfl

/-- Two requests of one clock, one after the other, are the same two performed in two clocks. -/
theorem casExecute_two {s : State} {a b : CasReq} (h : s.casPend = [a, b]) (ha : bits 31 30 a.w.toNat ≠ 3) (hb : bits 31 30 b.w.toNat ≠ 3) :
    ∃ x y, (x, y) = (if casRank a.m ≤ casRank b.m then (a, b) else (b, a)) ∧ ∃ t1 t2, exec (.casExecute 1) { s with casPend := [x] } = .next t1 ∧
      exec (.casExecute 1) { t1 with casPend := [y] } = .next t2 ∧ exec (.casExecute 2) s = .next t2 := by
  have hone : ∀ (u : State) (x : CasReq), bits 31 30 x.w.toNat ≠ 3 →
      exec (.casExecute 1) { u with casPend := [x] } = .next (casOne { u with casPend := [] } x) := fun u x hx => by
    rw [exec_casExecute_quiet (by simpa using hx), casRun_one rfl]
  have hempty : ∀ x, { casOne { s with casPend := [] } x with casPend := [] } = casOne { s with casPend := [] } x := fun x => by
    have hpend : (casOne { s with casPend := [] } x).casPend = [] := (casOne_keeps { s with casPend := [] } x).2.1
    exact with_casPend_self hpend
  have hrun := exec_casExecute_quiet (s := s) (k := 2) (by simp [h, ha, hb])
  rw [casRun_two h] at hrun
  by_cases hrank : casRank a.m ≤ casRank b.m
  · rw [if_pos hrank] at hrun ⊢
    exact ⟨a, b, rfl, _, _, hone s a ha, (hone _ b hb).trans (by rw [hempty]), hrun⟩
  · rw [if_neg hrank] at hrun ⊢
    exact ⟨b, a, rfl, _, _, hone s b hb, (hone _ a ha).trans (by rw [hempty]), hrun⟩

/-- The oldest request performed in its clock, over its block's float as a number (R324). -/
theorem casExecute_outcome {s : State} {r : CasReq} {l : List CasReq} {b : Nat} {ok : Bool} (hpend : s.casPend = r :: l) (hb : b = bits 14 0 r.w.toNat)
    (hok : ok = (decide (bits 29 28 r.w.toNat = flt s b) && (decide (ownerClass r.m = flt s b) || decide (flt s b = 0)) && !inAxisArea s b && !(blk s b).excl &&
      !s.pair.passes.any (fun q => q.blk == b))) (hnet : bits 31 30 r.w.toNat ≠ 3) :
    ∃ t, exec (.casExecute 1) s = .next t ∧ t.mem = s.mem ∧ t.casPend = l ∧
      bget t r.m Reg.CIST_CAS_RES.addr = 2 ^ 31 + b2n ok * 2 ^ 30 + flt s b * 2 ^ 28 + b2n (blk s b).priv * 2 ^ 27 + b ∧
      (ok = true → bits 31 30 r.w.toNat = 2 → mirrors s = true → t.cist = s.cist ∧ t.pair = { s.pair with passes := s.pair.passes ++ [⟨s.sched.cycle + 2, b, bitOf 27 r.w.toNat⟩], items := s.pair.items ++ [MItem.block (BitVec.ofNat 15 b) 2 (bitOf 27 r.w.toNat) (s.sched.cycle + 2) (cistBytes s (256 * b) 256)] }) ∧
      (ok = true → (bits 31 30 r.w.toNat ≠ 2 ∨ mirrors s = false) → t = { s with cist := t.cist, banked := t.banked, casPend := t.casPend } ∧ (∀ c, c ≠ b → blk t c = blk s c) ∧ flt t b = bits 31 30 r.w.toNat ∧
        (blk t b).priv = (bitOf 27 r.w.toNat && decide (bits 31 30 r.w.toNat ≠ 0)) ∧ (blk t b).prev = (blk s b).flt) ∧
      (ok = false → t.cist = s.cist ∧ rd t Reg.CIST_CASF_CNT_CASF_CNT = (rd s Reg.CIST_CASF_CNT_CASF_CNT + 1) % 2 ^ 32) := by
  rw [hb, ← casOk_iff_float] at hok
  rw [← CasReq.block] at hb
  subst hb
  exact casExecute_one hpend hok hnet

/-- Requests performed in their clock leave memory; one for the network DMA has the transmit rings looked at (R326). -/
theorem casExecute_rings (s : State) (k : Nat) : ∃ v, exec (.casExecute k) s =
    .next (if (s.casPend.take k).any (fun r => bits 31 30 r.w.toNat == 3) then pollRings v else v) ∧ v.casPend = s.casPend.drop k ∧ v.mem = s.mem := by
  obtain ⟨hmem, hpend⟩ := casRun_keeps s k
  refine ⟨casRun s k, ?_, hpend, hmem⟩
  change execCasExecute k s = _
  rw [execCasExecute]

/-! ## Accesses to cistern words (R325) -/

/-- A cistern word's address, and its block. -/
theorem cistAddr_word {w : Nat} (h : w < 2 ^ 21) : cistAddr (4 * w) = 0x20000000 + 4 * w := by
  rw [cistAddr, Nat.mod_eq_of_lt (by omega)]

theorem exec_cisternRead {s : State} (m : Master) (w : BitVec 21) (hon : domOn s dCIST = true) : exec (.cisternAccess m w .read) s =
    .next (answer (cistRead s (ownerClass m) (mcode m) w.toNat).2 (cistRead s (ownerClass m) (mcode m) w.toNat).1) := by
  change execCisternAccess m w .read s = _
  unfold execCisternAccess domAccess
  exact congrArg Host.Outcome.next (if_pos hon)

theorem exec_cisternWrite {s : State} (m : Master) (w : BitVec 21) (v : W32) (hon : domOn s dCIST = true) : exec (.cisternAccess m w (.write v)) s =
    .next (cistWrite s (ownerClass m) (mcode m) w.toNat v.toNat) := by
  change execCisternAccess m w (.write v) s = _
  unfold execCisternAccess domAccess
  exact congrArg Host.Outcome.next (if_pos hon)

/-- What an access that its block's float discards leaves: a count and a sump entry. -/
theorem discarded_effect (s : State) {f : Fld} (hf : f.page = 0xB0) (h : f.hi = 15 ∧ f.lo = 0 ∧ 0x40 ≤ f.addr % 0x1000) {code : Nat} (hcode : code < 2 ^ 16)
    (detail : Nat) : Logged s (post (incErr s f) code 4 detail) ∧
      (∀ a, 0x20000000 ≤ a → a < 0x20800000 → mget (post (incErr s f) code 4 detail) a = mget s a) ∧
      rd (post (incErr s f) code 4 detail) f = min 65535 (rd s f + 1) ∧ NewEntry s (post (incErr s f) code 4 detail) code 4 detail := by
  obtain ⟨hhi, hlo, hofs⟩ := h
  have hpage : f.addr / 0x1000 = 0xB0 := hf
  have hshape := incErr_shape s f
  refine ⟨hshape.logged.trans (post_shape _ _ _ _), fun a ha _ => ?_, ?_, ?_⟩
  · rw [mget_post_other _ _ _ _ _ (by decide) (by omega), hshape.mget_eq]
  · rw [rd, rdw_post (by omega) (by omega), ← rd, rd_incErr_self s ⟨by omega, .inl hofs⟩ (by omega) (by omega), hhi, hlo]
    rfl
  · exact (post_new _ _ _ _ hcode (by decide) (by decide)).of_regs hshape fun k hk hp => rdw_incErr ⟨by omega, .inl hk⟩ (by rintro rfl; omega) s

/-- A read of a word that its block's owner rules allow. -/
theorem cisternRead_allowed {s : State} {m : Master} {w : BitVec 21} (hon : domOn s dCIST = true)
    (h : (blk s (w.toNat / 64)).priv = false ∨ flt s (w.toNat / 64) = ownerClass m) :
    exec (.cisternAccess m w .read) s = .next { s with resp := some (BitVec.ofNat 32 (mnum s (0x20000000 + 4 * w.toNat) 4)) } := by
  have hread : cistRead s (ownerClass m) (mcode m) w.toNat = (mnum s (cistAddr (4 * w.toNat)) 4, s) := by
    rw [cistRead, if_neg]
    rintro ⟨hpriv, hflt⟩
    rcases h with h | h
    · simp [h] at hpriv
    · exact hflt h
  rw [exec_cisternRead m w hon, hread, cistAddr_word w.isLt]
  rfl

/-- A read of a PRIVATE word by another class answers 0. -/
theorem cisternRead_private {s : State} {m : Master} {w : BitVec 21} (hon : domOn s dCIST = true)
    (hpriv : (blk s (w.toNat / 64)).priv = true) (hflt : flt s (w.toNat / 64) ≠ ownerClass m) :
    exec (.cisternAccess m w .read) s =
      .next (answer (post (incErr s Reg.CIST_PRIV_ERR_COUNT) 0x4002 4 (w.toNat / 64 + w.toNat % 64 * 2 ^ 15 + mcode m * 2 ^ 23)) 0) := by
  rw [exec_cisternRead m w hon, cistRead]
  simp only [if_pos (show (blk s (w.toNat / 64)).priv = true ∧ (blk s (w.toNat / 64)).flt.toNat ≠ ownerClass m from ⟨hpriv, hflt⟩)]
  rfl

/-- A write of a word by its block's owner. -/
theorem cisternWrite_allowed {s : State} {k m w : Nat} (v : Nat) (h : flt s (w / 64) = k) (hk : k ≠ 0) :
    cistWrite s k m w v = msetNum s (cistAddr (4 * w)) 4 v := by
  rw [cistWrite, if_pos ⟨hk, h⟩]

/-- A write of a word by another class is discarded. -/
theorem cisternWrite_discarded {s : State} {k m w : Nat} (v : Nat) (h : flt s (w / 64) ≠ k ∨ flt s (w / 64) = 0) :
    cistWrite s k m w v = post (incErr s Reg.CIST_NOWN_ERR_COUNT) 0x4001 4 (w / 64 + w % 64 * 2 ^ 15 + m * 2 ^ 23) := by
  rw [cistWrite, if_neg]
  · rfl
  · rintro ⟨hk, hflt⟩
    rcases h with h | h
    · exact h hflt
    · exact hk (hflt.symm.trans h)

/-- A read of another class's PRIVATE word answers 0, is counted and posted. -/
theorem cisternRead_private_effect {s : State} {m : Master} {w : BitVec 21} (hon : domOn s dCIST = true)
    (hpriv : (blk s (w.toNat / 64)).priv = true) (hflt : flt s (w.toNat / 64) ≠ ownerClass m) :
    ∃ t, exec (.cisternAccess m w .read) s = .next t ∧ t.resp = some 0#32 ∧ (∀ a, 0x20000000 ≤ a → a < 0x20800000 → mget t a = mget s a) ∧
      rd t Reg.CIST_PRIV_ERR_COUNT = min 65535 (rd s Reg.CIST_PRIV_ERR_COUNT + 1) ∧
      NewEntry s t 0x4002 4 (w.toNat / 64 + w.toNat % 64 * 2 ^ 15 + mcode m * 2 ^ 23) := by
  have hexec := cisternRead_private hon hpriv hflt
  have heffect := discarded_effect s (f := Reg.CIST_PRIV_ERR_COUNT) rfl ⟨rfl, rfl, by decide⟩ (code := 0x4002) (by decide)
    (w.toNat / 64 + w.toNat % 64 * 2 ^ 15 + mcode m * 2 ^ 23)
  generalize post (incErr s Reg.CIST_PRIV_ERR_COUNT) 0x4002 4 (w.toNat / 64 + w.toNat % 64 * 2 ^ 15 + mcode m * 2 ^ 23) = u at hexec heffect
  obtain ⟨-, hmem, hcount, hentry⟩ := heffect
  exact ⟨_, hexec, rfl, hmem, hcount, hentry⟩

/-- A cistern word that its owner writes holds the data, and nothing else changes. -/
theorem cisternWrite_allowed_effect {s : State} {m : Master} {w : BitVec 21} (v : W32) (hon : domOn s dCIST = true)
    (hown : flt s (w.toNat / 64) = ownerClass m) (hne : flt s (w.toNat / 64) ≠ 0) :
    ∃ t, exec (.cisternAccess m w (.write v)) s = .next t ∧ t = { s with mem := t.mem } ∧ SameMemBut (0x20000000 + 4 * w.toNat) 4 s t ∧
      mnum t (0x20000000 + 4 * w.toNat) 4 = v.toNat := by
  refine ⟨msetNum s (0x20000000 + 4 * w.toNat) 4 v.toNat, ?_, mwrite_shape _ _ _, fun a ha => mget_msetNum_other _ _ _ _ _ ha, ?_⟩
  · rw [exec_cisternWrite m w v hon, cisternWrite_allowed _ hown (fun h => hne (hown.trans h)), cistAddr_word w.isLt]
  · rw [mnum_msetNum_self]
    exact Nat.mod_eq_of_lt v.isLt

/-- A cistern word that another class writes stays; the write is counted and posted. -/
theorem cisternWrite_discarded_effect {s : State} {m : Master} {w : BitVec 21} (v : W32) (hon : domOn s dCIST = true)
    (h : flt s (w.toNat / 64) ≠ ownerClass m ∨ flt s (w.toNat / 64) = 0) :
    ∃ t, exec (.cisternAccess m w (.write v)) s = .next t ∧ Logged s t ∧ (∀ a, 0x20000000 ≤ a → a < 0x20800000 → mget t a = mget s a) ∧
      rd t Reg.CIST_NOWN_ERR_COUNT = min 65535 (rd s Reg.CIST_NOWN_ERR_COUNT + 1) ∧
      NewEntry s t 0x4001 4 (w.toNat / 64 + w.toNat % 64 * 2 ^ 15 + mcode m * 2 ^ 23) := by
  have hexec := exec_cisternWrite m w v hon
  rw [cisternWrite_discarded _ h] at hexec
  exact ⟨_, hexec, discarded_effect s (f := Reg.CIST_NOWN_ERR_COUNT) rfl ⟨rfl, rfl, by decide⟩ (by decide) _⟩

end Sys2Proof.Machine
end

section
/-! PROOFS. Snapshots of the point store (R27, R330). -/

namespace Sys2Proof.Machine

/-! ## The request (R330) -/

/-- A field that takes no write keeps its bits where no other row lies on them (R12). -/
theorem bits_newValue_ro {rows : List RegRow} {hi lo : Nat} (hle : lo ≤ hi) (h : ∀ r ∈ rows, r.lo ≤ r.hi ∧ ((r.hi = hi ∧ r.lo = lo ∧ r.acc = .ro) ∨ r.hi < lo ∨ hi < r.lo))
    (lk : Bool) (old w : Nat) : bits hi lo (newValue lk rows old w) = bits hi lo old := by
  refine List.foldlRecOn rows _ (motive := fun v => bits hi lo v = bits hi lo old) rfl fun v hv r hr => ?_
  obtain ⟨hrow, ⟨hhi, hlo, hro⟩ | hbelow | habove⟩ := h r hr
  · have hkeep : (rowWrite lk old w r).1 = bits hi lo old := by simp [rowWrite, hro, hhi, hlo]
    rw [hhi, hlo, hkeep, bits_setBits_self _ _ _ _ hle]
    exact Nat.mod_mod _ _
  · rw [bits_setBits_above _ _ _ _ _ _ hrow hbelow, hv]
  · rw [bits_setBits_below _ _ _ _ _ _ hrow hle habove, hv]

theorem on_plainWrite_snapBusy (s : State) (m : Master) (w : Nat) :
    on (plainWrite s m Reg.CIST_SNAP_CMD.addr w) Reg.CIST_SNAP_CMD_BUSY = on s Reg.CIST_SNAP_CMD_BUSY := by
  have hrows : ∀ r ∈ rowsAt Reg.CIST_SNAP_CMD.addr, r.lo ≤ r.hi ∧ ((r.hi = 1 ∧ r.lo = 1 ∧ r.acc = .ro) ∨ r.hi < 1 ∨ 1 < r.lo) := by decide
  have hcut : ∀ v, bits 1 1 (v % 2 ^ 32) = bits 1 1 v := fun v => by simp only [bits]; omega
  have hself := rdw_plainWrite_self s m Reg.CIST_SNAP_CMD.addr w (by decide) (by decide) (by decide)
  have hon : ∀ t, on t Reg.CIST_SNAP_CMD_BUSY = (bits 1 1 (rdw t Reg.CIST_SNAP_CMD.addr) == 1) := fun _ => rfl
  rw [hon, hself, hcut, bits_newValue_ro (le_refl 1) hrows, hon]

/-- A snapshot request that is refused: no point, points past the store, blocks past the cistern, or a block that its master does not own. -/
def SnapBad (s : State) (m : Master) : Prop :=
  let n := rd s Reg.CIST_SNAP_N_COUNT
  let d := rd s Reg.CIST_SNAP_DST_BLOCK
  let nb := (16 * ((n + 2047) / 2048) + 12 * n + 255) / 256
  n = 0 ∨ 1048576 < n ∨ 1048576 < rd s Reg.CIST_SNAP_PT_POINT + n ∨ 32768 < d + nb ∨ ¬∀ i, i < nb → flt s (d + i) = ownerClass m

/-- Every block of a range that the cistern holds has the float. -/
theorem allFloat_iff {s : State} {b n k : Nat} : allFloat s b n k = true ↔ b + n ≤ 32768 ∧ ∀ i, i < n → flt s (b + i) = k := by
  simp [allFloat]

/-- The model's test of a request is `SnapBad`. -/
theorem snapBad_iff (s : State) (m : Master) : (rd s Reg.CIST_SNAP_N_COUNT = 0 ∨ 1048576 < rd s Reg.CIST_SNAP_N_COUNT ∨
      1048576 < rd s Reg.CIST_SNAP_PT_POINT + rd s Reg.CIST_SNAP_N_COUNT ∨
      32768 < rd s Reg.CIST_SNAP_DST_BLOCK + (snapBytes (rd s Reg.CIST_SNAP_N_COUNT) + 255) / 256 ∨
      ¬allFloat s (rd s Reg.CIST_SNAP_DST_BLOCK) ((snapBytes (rd s Reg.CIST_SNAP_N_COUNT) + 255) / 256) (ownerClass m) = true) ↔ SnapBad s m := by
  unfold SnapBad
  dsimp only
  rw [allFloat_iff, snapBytes]
  generalize (16 * ((rd s Reg.CIST_SNAP_N_COUNT + 2047) / 2048) + 12 * rd s Reg.CIST_SNAP_N_COUNT + 255) / 256 = nb
  have hfit : 32768 < rd s Reg.CIST_SNAP_DST_BLOCK + nb ∨ rd s Reg.CIST_SNAP_DST_BLOCK + nb ≤ 32768 := Nat.lt_or_ge _ _
  tauto

/-- A request's registers and blocks are as they were once its word is written. -/
theorem snapBad_written {s u : State} (h : Written Reg.CIST_SNAP_CMD.addr s u) (m : Master) : SnapBad u m ↔ SnapBad s m := by
  have hn := h.rd Reg.CIST_SNAP_N_COUNT (by decide)
  have hd := h.rd Reg.CIST_SNAP_DST_BLOCK (by decide)
  have hp := h.rd Reg.CIST_SNAP_PT_POINT (by decide)
  have hflt : ∀ b, flt u b = flt s b := fun b => by rw [flt, blk_congr h.1.cist, ← flt]
  simp only [SnapBad, hn, hd, hp, hflt]

/-- The snapshot that a request starts. -/
def snapOf (s : State) (m : Master) : SnapRun :=
  { m := m, pt := rd s Reg.CIST_SNAP_PT_POINT, left := rd s Reg.CIST_SNAP_N_COUNT, dst := 256 * rd s Reg.CIST_SNAP_DST_BLOCK, cyc := 0 }

theorem snapOf_written {s u : State} (h : Written Reg.CIST_SNAP_CMD.addr s u) (m : Master) : snapOf u m = snapOf s m := by
  rw [snapOf, h.rd Reg.CIST_SNAP_N_COUNT (by decide), h.rd Reg.CIST_SNAP_DST_BLOCK (by decide), h.rd Reg.CIST_SNAP_PT_POINT (by decide), snapOf]

/-- What SNAP_GO does once its word is written. -/
def snapStart (m : Master) (w : W32) (u : State) : State :=
  if wbits Reg.CIST_SNAP_CMD_GO w = 1 then
    if on u Reg.CIST_SNAP_CMD_BUSY then errlog u 0xB0 7 m Reg.CIST_SNAP_CMD.addr
    else if rd u Reg.CIST_SNAP_N_COUNT = 0 ∨ 1048576 < rd u Reg.CIST_SNAP_N_COUNT ∨ 1048576 < rd u Reg.CIST_SNAP_PT_POINT + rd u Reg.CIST_SNAP_N_COUNT ∨
        32768 < rd u Reg.CIST_SNAP_DST_BLOCK + (snapBytes (rd u Reg.CIST_SNAP_N_COUNT) + 255) / 256 ∨
        ¬allFloat u (rd u Reg.CIST_SNAP_DST_BLOCK) ((snapBytes (rd u Reg.CIST_SNAP_N_COUNT) + 255) / 256) (ownerClass m) then setSticky u Reg.CIST_SNAP_CMD_ERR
    else wr { u with snapRun := some (snapOf u m), snapLatch := [] } Reg.CIST_SNAP_CMD_BUSY 1
  else u

theorem exec_snapGo {m : Master} {w : W32} {s : State} (h : CanReach m s Reg.CIST_SNAP_CMD.addr) :
    exec (.snapGo m w) s = .next (snapStart m w (plainWrite s m Reg.CIST_SNAP_CMD.addr w.toNat)) :=
  congrArg Host.Outcome.next (regAction_open w _ h)

/-- A request while a snapshot runs is logged. -/
theorem snapStart_busy {m : Master} {w : W32} {u : State} (hgo : wbits Reg.CIST_SNAP_CMD_GO w = 1) (hbusy : on u Reg.CIST_SNAP_CMD_BUSY = true) :
    snapStart m w u = errlog u 0xB0 7 m Reg.CIST_SNAP_CMD.addr := by
  rw [snapStart, if_pos hgo, if_pos hbusy]

/-- A request that fails its check sets ERR. -/
theorem snapStart_bad {m : Master} {w : W32} {u : State} (hgo : wbits Reg.CIST_SNAP_CMD_GO w = 1) (hbusy : on u Reg.CIST_SNAP_CMD_BUSY = false)
    (hbad : SnapBad u m) : snapStart m w u = setSticky u Reg.CIST_SNAP_CMD_ERR := by
  rw [snapStart, if_pos hgo, if_neg (by simp [hbusy]), if_pos ((snapBad_iff u m).mpr hbad)]

/-- A request that passes its check starts a snapshot. -/
theorem snapStart_good {m : Master} {w : W32} {u : State} (hgo : wbits Reg.CIST_SNAP_CMD_GO w = 1) (hbusy : on u Reg.CIST_SNAP_CMD_BUSY = false)
    (hgood : ¬SnapBad u m) : snapStart m w u = wr { u with snapRun := some (snapOf u m), snapLatch := [] } Reg.CIST_SNAP_CMD_BUSY 1 := by
  rw [snapStart, if_pos hgo, if_neg (by simp [hbusy]), if_neg (fun hc => hgood ((snapBad_iff u m).mp hc))]

/-- A sticky flag set reads set. -/
theorem on_setSticky_self {s : State} {f : Fld} (hk : Aside f.page f.addr) (hle : f.lo = f.hi) (hhi : f.hi < 32) : on (setSticky s f) f = true := by
  unfold setSticky
  split
  · assumption
  · rw [on, rd, rdw_raise_aside hk, ← rd, rd_wr_self _ _ _ (by omega) hhi, hle, Nat.add_sub_cancel_left]
    rfl

/-- A sticky flag set leaves the other bits of its register. -/
theorem on_setSticky_disj {s : State} {f g : Fld} (hk : Aside f.page g.addr) (hle : f.lo ≤ f.hi) (hhi : f.hi < 32) (hg : g.lo ≤ g.hi)
    (d : g.hi < f.lo ∨ f.hi < g.lo) : on (setSticky s f) g = on s g := by
  unfold setSticky
  split
  · rfl
  · rw [on, rd, rdw_raise_aside hk, ← rd, rd_wr_disj _ _ _ _ hle hhi hg d, on]

/-- SNAP_GO: ignored, logged, refused, or a snapshot begins (R330). -/
theorem snapGo_outcomes {m : Master} {w : W32} {s : State} (h : CanReach m s Reg.CIST_SNAP_CMD.addr) : ∃ u, Written Reg.CIST_SNAP_CMD.addr s u ∧
    (wbits Reg.CIST_SNAP_CMD_GO w = 0 → exec (.snapGo m w) s = .next u) ∧
    (wbits Reg.CIST_SNAP_CMD_GO w = 1 → on s Reg.CIST_SNAP_CMD_BUSY = true →
      ∃ t, exec (.snapGo m w) s = .next t ∧ RegsWire s t ∧ on t (Reg.HDR_ERRLOG_VALID 0xB0) = true) ∧
    (wbits Reg.CIST_SNAP_CMD_GO w = 1 → on s Reg.CIST_SNAP_CMD_BUSY = false → SnapBad s m →
      ∃ t, exec (.snapGo m w) s = .next t ∧ RegsWire s t ∧ on t Reg.CIST_SNAP_CMD_ERR = true ∧ on t Reg.CIST_SNAP_CMD_BUSY = false) ∧
    (wbits Reg.CIST_SNAP_CMD_GO w = 1 → on s Reg.CIST_SNAP_CMD_BUSY = false → ¬SnapBad s m → ∃ t, exec (.snapGo m w) s = .next t ∧
      t = { s with regs := t.regs, wire := t.wire, snapRun := some (snapOf s m), snapLatch := [] } ∧ on t Reg.CIST_SNAP_CMD_BUSY = true) := by
  have hrun := exec_snapGo (w := w) h
  have hw := plainWrite_written s m Reg.CIST_SNAP_CMD.addr w.toNat
  have hbusy := on_plainWrite_snapBusy s m w.toNat
  generalize plainWrite s m Reg.CIST_SNAP_CMD.addr w.toNat = u at hrun hw hbusy
  refine ⟨u, hw, fun hgo => ?_, fun hgo hon => ?_, fun hgo hoff hbad => ?_, fun hgo hoff hgood => ?_⟩
  · rw [hrun, snapStart, if_neg (by omega)]
  · rw [snapStart_busy hgo (hbusy.trans hon)] at hrun
    exact ⟨_, hrun, hw.1.trans (errlog_shape _ _ _ _ _), errlog_valid _ _ _ _ _ (by decide)⟩
  · rw [snapStart_bad hgo (hbusy.trans hoff) ((snapBad_written hw m).mpr hbad)] at hrun
    exact ⟨_, hrun, hw.1.trans (setSticky_shape _ _), on_setSticky_self ⟨by decide, .inl (by decide)⟩ rfl (by decide),
      (on_setSticky_disj ⟨by decide, .inl (by decide)⟩ (by decide) (by decide) (by decide) (by decide)).trans (hbusy.trans hoff)⟩
  · rw [snapStart_good hgo (hbusy.trans hoff) (fun hbad => hgood ((snapBad_written hw m).mp hbad)), snapOf_written hw] at hrun
    have hset : ∀ v : State, on (wr v Reg.CIST_SNAP_CMD_BUSY 1) Reg.CIST_SNAP_CMD_BUSY = true := fun v => by
      rw [on, rd_wr_self _ _ _ (by decide) (by decide)]
      rfl
    refine ⟨_, hrun, ?_, hset _⟩
    obtain ⟨hshape, -⟩ := hw
    rw [hshape]
    rfl

/-! ## A part (R27, R330) -/

/-- Every block that the words from `w` to `w + n` lie in has the float `k`. -/
def OwnedWords (s : State) (k w n : Nat) : Prop := ∀ i, i < n → flt s ((w + i) / 64) = k

/-- `t` is `s` with the words `l` written from cistern word `w` on. -/
def WordsAt (s t : State) (w : Nat) (l : List Nat) : Prop :=
  t = { s with mem := t.mem } ∧ SameMemBut (0x20000000 + 4 * w) (4 * l.length) s t ∧
    ∀ j v, l[j]? = some v → mnum t (0x20000000 + 4 * (w + j)) 4 = v % 2 ^ 32

/-- Words written to blocks of the writer's class stand in the cistern, and nothing else changes. -/
theorem snapWords_wordsAt {s : State} {k w : Nat} {l : List Nat} (hk : k ≠ 0) (hend : w + l.length ≤ 2 ^ 21) (hown : OwnedWords s k w l.length) :
    WordsAt s (snapWords s k w l) w l := by
  induction l generalizing s w with
  | nil => exact ⟨rfl, fun _ _ => rfl, nofun⟩
  | cons v l ih =>
    rw [List.length_cons] at hend hown
    have hfirst : flt s (w / 64) = k := hown 0 (by omega)
    have hwrite : cistWrite s k 14 w v = msetNum s (0x20000000 + 4 * w) 4 v := by
      rw [cisternWrite_allowed v hfirst hk, cistAddr_word (by omega)]
    have hshape : msetNum s (0x20000000 + 4 * w) 4 v = { s with mem := (msetNum s (0x20000000 + 4 * w) 4 v).mem } := mwrite_shape _ _ _
    have hflt : ∀ b, flt (msetNum s (0x20000000 + 4 * w) 4 v) b = flt s b := fun b => by rw [hshape]; rfl
    have hown' : OwnedWords (msetNum s (0x20000000 + 4 * w) 4 v) k (w + 1) l.length := fun i hi => by
      rw [hflt, Nat.add_assoc, Nat.add_comm 1 i]
      exact hown (i + 1) (by omega)
    obtain ⟨hrest, hsame, hwords⟩ := ih (by omega) hown'
    rw [snapWords, hwrite]
    refine ⟨by rw [hrest, hshape], fun c hc => ?_, fun j x hj => ?_⟩
    · rw [List.length_cons] at hc
      rw [hsame c (by omega), mget_msetNum_other _ _ _ _ _ (by omega)]
    · cases j with
      | zero =>
        obtain rfl : v = x := by simpa using hj
        rw [mnum_congr (s := msetNum s (0x20000000 + 4 * w) 4 v) (fun i hi => hsame _ (by omega)), Nat.add_zero, mnum_msetNum_self]
        rfl
      | succ j =>
        rw [show w + (j + 1) = w + 1 + j by omega]
        exact hwords j x (by simpa using hj)

theorem leNat_append (x y : List Byte) : leNat (x ++ y) = leNat x + 256 ^ x.length * leNat y := by
  induction x with
  | nil => simp [leNat]
  | cons b x ih =>
    rw [List.cons_append, leNat, ih, leNat, List.length_cons, Nat.pow_succ]
    ring

/-- Eight bytes as two words, the low one first. -/
theorem mnum_eight (s : State) (a : Nat) : mnum s a 8 = mnum s a 4 + 2 ^ 32 * mnum s (a + 4) 4 := by
  have hsplit : mread s a 8 = mread s a 4 ++ mread s (a + 4) 4 := rfl
  have hlen : (mread s a 4).length = 4 := rfl
  rw [mnum, hsplit, leNat_append, hlen]
  rfl

/-- The words of the points latched: three for each point, and only free values are taken. -/
theorem snapPts_words (s : State) (l : List (Nat × Nat × Nat)) : (snapPts s l).1.length = 3 * l.length ∧
    (∃ i, (snapPts s l).2 = { s with freeIdx := i }) ∧ ∀ i p v st, l[i]? = some (p, v, st) → ∃ f, (snapPts s l).1[3 * i]? = some (v % 2 ^ 32) ∧
      (snapPts s l).1[3 * i + 1]? = some (v / 2 ^ 32) ∧ (snapPts s l).1[3 * i + 2]? = some (st + 2 * f) := by
  induction l generalizing s with
  | nil => exact ⟨rfl, ⟨s.freeIdx, rfl⟩, nofun⟩
  | cons e l ih =>
    obtain ⟨p, v, st⟩ := e
    obtain ⟨hlen, ⟨j, hfree⟩, hwords⟩ := ih (free s).2
    refine ⟨?_, ⟨j, ?_⟩, fun i p' v' st' hi => ?_⟩
    · simp only [snapPts, List.length_cons, hlen]
      omega
    · simp only [snapPts, hfree]
      rfl
    · cases i with
      | zero =>
        obtain ⟨rfl, rfl, rfl⟩ : p = p' ∧ v = v' ∧ st = st' := by simpa using hi
        exact ⟨(free s).1 % 2 ^ 31, rfl, rfl, by simp [snapPts, Nat.mul_comm]⟩
      | succ i => exact hwords i p' v' st' (by simpa using hi)

/-- Without a snapshot, its latched points or its domains, nothing is written. -/
theorem exec_snapshotPart_idle {s : State} (h : s.snapRun = none ∨ s.snapLatch = [] ∨ domOn s dCIST = false ∨ domOn s dNET = false) :
    exec .snapshotPart s = .next s := by
  change execSnapshotPart s = _
  unfold execSnapshotPart
  cases hrun : s.snapRun with
  | none => rfl
  | some x =>
    have hidle : s.snapLatch = [] ∨ ¬domOn s dCIST = true ∨ ¬domOn s dNET = true := by simpa [hrun] using h
    simp only [if_pos hidle]

/-- The words of a part: the header, then three for each point. -/
def partWords (s : State) (x : SnapRun) : List Nat :=
  [x.cyc % 2 ^ 32, x.cyc / 2 ^ 32, x.pt, s.snapLatch.length] ++ (snapPts s s.snapLatch).1

theorem length_partWords (s : State) (x : SnapRun) : (partWords s x).length = 4 + 3 * s.snapLatch.length := by
  obtain ⟨hlen, -⟩ := snapPts_words s s.snapLatch
  rw [partWords, List.length_append, hlen]
  rfl

/-- The state in which a part's words stand in the cistern and its points are no longer latched. -/
def partWritten (s : State) (x : SnapRun) : State :=
  { snapWords (snapPts s s.snapLatch).2 (ownerClass x.m) (x.dst / 4) (partWords s x) with snapLatch := [] }

/-- A part written ends the snapshot, or leaves the rest of it. -/
theorem exec_snapshotPart {s : State} {x : SnapRun} (hrun : s.snapRun = some x) (hlatch : s.snapLatch ≠ []) (hcist : domOn s dCIST = true)
    (hnet : domOn s dNET = true) : exec .snapshotPart s = .next (
      if x.left ≤ s.snapLatch.length then
        clrBusy (setSticky { partWritten s x with snapRun := none } Reg.CIST_SNAP_CMD_DONE) Reg.CIST_SNAP_CMD_BUSY
      else { partWritten s x with snapRun := some { x with pt := x.pt + s.snapLatch.length, left := x.left - s.snapLatch.length, dst := x.dst + 16 + 12 * s.snapLatch.length } }) := by
  change execSnapshotPart s = _
  unfold execSnapshotPart
  rw [hrun]
  simp only [hlatch, hcist, hnet, false_or, not_true, if_false, partWritten, partWords, List.cons_append, List.nil_append]

/-- A part written to blocks of its requester: its words, and nothing else but free values taken and the latch. -/
theorem partWritten_words {s : State} {x : SnapRun} (halign : x.dst % 4 = 0) (hend : x.dst + 16 + 12 * s.snapLatch.length ≤ 0x800000)
    (hclass : ownerClass x.m ≠ 0)
    (hown : ∀ b, x.dst / 256 ≤ b → 256 * b < x.dst + 16 + 12 * s.snapLatch.length → flt s b = ownerClass x.m) :
    partWritten s x = { s with mem := (partWritten s x).mem, freeIdx := (partWritten s x).freeIdx, snapLatch := [] } ∧
      SameMemBut (0x20000000 + x.dst) (16 + 12 * s.snapLatch.length) s (partWritten s x) ∧
      ∀ j v, (partWords s x)[j]? = some v → mnum (partWritten s x) (0x20000000 + x.dst + 4 * j) 4 = v % 2 ^ 32 := by
  obtain ⟨-, ⟨i, hfree⟩, -⟩ := snapPts_words s s.snapLatch
  have hlen := length_partWords s x
  have hdst : 4 * (x.dst / 4) = x.dst := by omega
  have hwords : WordsAt (snapPts s s.snapLatch).2 (snapWords (snapPts s s.snapLatch).2 (ownerClass x.m) (x.dst / 4) (partWords s x)) (x.dst / 4) (partWords s x) := by
    refine snapWords_wordsAt hclass (by omega) fun j hj => ?_
    rw [hfree]
    exact hown _ (by omega) (by omega)
  obtain ⟨hshape, hsame, hread⟩ := hwords
  unfold partWritten
  generalize snapWords (snapPts s s.snapLatch).2 (ownerClass x.m) (x.dst / 4) (partWords s x) = u at hshape hsame hread
  refine ⟨?_, fun c hc => ?_, fun j v hj => ?_⟩
  · rw [hshape, hfree]
  · rw [hdst, hlen] at hsame
    have hfirst : mget (snapPts s s.snapLatch).2 c = mget s c := by rw [hfree]; rfl
    exact (hsame c (by omega)).trans hfirst
  · rw [← hread j v hj, Nat.mul_add, hdst, ← Nat.add_assoc]
    rfl

/-- The header of a part. -/
theorem partWords_header (s : State) (x : SnapRun) : (partWords s x)[0]? = some (x.cyc % 2 ^ 32) ∧ (partWords s x)[1]? = some (x.cyc / 2 ^ 32) ∧
    (partWords s x)[2]? = some x.pt ∧ (partWords s x)[3]? = some s.snapLatch.length := ⟨rfl, rfl, rfl, rfl⟩

/-- The words of a point in a part. -/
theorem partWords_point {s : State} {x : SnapRun} {i p v st : Nat} (h : s.snapLatch[i]? = some (p, v, st)) :
    ∃ f, (partWords s x)[4 + 3 * i]? = some (v % 2 ^ 32) ∧ (partWords s x)[4 + 3 * i + 1]? = some (v / 2 ^ 32) ∧
      (partWords s x)[4 + 3 * i + 2]? = some (st + 2 * f) := by
  obtain ⟨-, -, hpts⟩ := snapPts_words s s.snapLatch
  obtain ⟨f, hlow, hhigh, hdesc⟩ := hpts i p v st h
  have hpast : ∀ j, (partWords s x)[4 + j]? = (snapPts s s.snapLatch).1[j]? := fun j => by
    rw [partWords, List.getElem?_append_right (by simp)]
    congr 1
    simp
  exact ⟨f, (hpast _).trans hlow, by rw [Nat.add_assoc, hpast, hhigh], by rw [Nat.add_assoc, hpast, hdesc]⟩

/-- Two words of a number read back as the number, cut to 64 bits. -/
theorem words_of_number (v : Nat) : v % 2 ^ 32 % 2 ^ 32 + 2 ^ 32 * (v / 2 ^ 32 % 2 ^ 32) = v % 2 ^ 64 := by omega

/-- A part as it stands in the cistern: header, then value and stale flag of each point. -/
theorem partWritten_reads {s : State} {x : SnapRun}
    (hread : ∀ j v, (partWords s x)[j]? = some v → mnum (partWritten s x) (0x20000000 + x.dst + 4 * j) 4 = v % 2 ^ 32) :
    mnum (partWritten s x) (0x20000000 + x.dst) 8 = x.cyc % 2 ^ 64 ∧ mnum (partWritten s x) (0x20000000 + x.dst + 8) 4 = x.pt % 2 ^ 32 ∧
      mnum (partWritten s x) (0x20000000 + x.dst + 12) 4 = s.snapLatch.length % 2 ^ 32 ∧
      ∀ i p v st, s.snapLatch[i]? = some (p, v, st) → mnum (partWritten s x) (0x20000000 + x.dst + 16 + 12 * i) 8 = v % 2 ^ 64 ∧
        mnum (partWritten s x) (0x20000000 + x.dst + 24 + 12 * i) 4 % 2 = st % 2 := by
  obtain ⟨h₀, h₁, h₂, h₃⟩ := partWords_header s x
  refine ⟨?_, hread 2 _ h₂, hread 3 _ h₃, fun i p v st hi => ?_⟩
  · have hlow := hread 0 _ h₀
    have hhigh := hread 1 _ h₁
    rw [Nat.mul_zero, Nat.add_zero] at hlow
    rw [mnum_eight, hlow, hhigh, words_of_number]
  · obtain ⟨f, hlow, hhigh, hdesc⟩ := partWords_point (x := x) hi
    have hl := hread _ _ hlow
    have hh := hread _ _ hhigh
    have hd := hread _ _ hdesc
    rw [show 0x20000000 + x.dst + 4 * (4 + 3 * i) = 0x20000000 + x.dst + 16 + 12 * i by omega] at hl
    rw [show 0x20000000 + x.dst + 4 * (4 + 3 * i + 1) = 0x20000000 + x.dst + 16 + 12 * i + 4 by omega] at hh
    rw [show 0x20000000 + x.dst + 4 * (4 + 3 * i + 2) = 0x20000000 + x.dst + 24 + 12 * i by omega] at hd
    refine ⟨by rw [mnum_eight, hl, hh, words_of_number], ?_⟩
    rw [hd]
    omega

/-- BUSY cleared reads clear, and the other bits of its register stay. -/
theorem on_clrBusy_self {s : State} {f : Fld} (hk : Aside f.page f.addr) (hle : f.lo ≤ f.hi) (hhi : f.hi < 32) : on (clrBusy s f) f = false := by
  unfold clrBusy
  split
  · rw [on, rd, rdw_raise_aside hk, ← rd, rd_wr_self _ _ _ hle hhi, Nat.zero_mod]
    rfl
  · next h => simpa using h

theorem on_clrBusy_disj {s : State} {f g : Fld} (hk : Aside f.page g.addr) (hle : f.lo ≤ f.hi) (hhi : f.hi < 32) (hg : g.lo ≤ g.hi)
    (d : g.hi < f.lo ∨ f.hi < g.lo) : on (clrBusy s f) g = on s g := by
  unfold clrBusy
  split
  · rw [on, rd, rdw_raise_aside hk, ← rd, rd_wr_disj _ _ _ _ hle hhi hg d, on]
  · rfl

/-- SNAPSHOT_PART: one part of a running snapshot, to blocks of its requester (R330). -/
theorem snapshotPart_outcome {s : State} {x : SnapRun} {n : Nat} (hrun : s.snapRun = some x) (hlatch : s.snapLatch ≠ []) (hcist : domOn s dCIST = true)
    (hnet : domOn s dNET = true) (hn : n = s.snapLatch.length) (halign : x.dst % 4 = 0) (hend : x.dst + 16 + 12 * n ≤ 0x800000) (hclass : ownerClass x.m ≠ 0)
    (hown : ∀ b, x.dst / 256 ≤ b → 256 * b < x.dst + 16 + 12 * n → flt s b = ownerClass x.m) :
    ∃ t, exec .snapshotPart s = .next t ∧ t = { s with mem := t.mem, freeIdx := t.freeIdx, snapLatch := [], snapRun := t.snapRun, regs := t.regs, wire := t.wire } ∧
      SameMemBut (0x20000000 + x.dst) (16 + 12 * n) s t ∧
      mnum t (0x20000000 + x.dst) 8 = x.cyc % 2 ^ 64 ∧ mnum t (0x20000000 + x.dst + 8) 4 = x.pt % 2 ^ 32 ∧ mnum t (0x20000000 + x.dst + 12) 4 = n % 2 ^ 32 ∧
      (∀ i p v st, s.snapLatch[i]? = some (p, v, st) → mnum t (0x20000000 + x.dst + 16 + 12 * i) 8 = v % 2 ^ 64 ∧ mnum t (0x20000000 + x.dst + 24 + 12 * i) 4 % 2 = st % 2) ∧
      (x.left ≤ n → t.snapRun = none ∧ on t Reg.CIST_SNAP_CMD_DONE = true ∧ on t Reg.CIST_SNAP_CMD_BUSY = false) ∧
      (n < x.left → t.regs = s.regs ∧ t.snapRun = some { x with pt := x.pt + n, left := x.left - n, dst := x.dst + 16 + 12 * n }) := by
  subst hn
  obtain ⟨hshape, hsame, hread⟩ := partWritten_words halign hend hclass hown
  obtain ⟨hcyc, hpt, hcount, hpoints⟩ := partWritten_reads hread
  have hexec := exec_snapshotPart hrun hlatch hcist hnet
  generalize partWritten s x = v at *
  by_cases hleft : x.left ≤ s.snapLatch.length
  · rw [if_pos hleft] at hexec
    have hend : RegsWire { v with snapRun := none } (clrBusy (setSticky { v with snapRun := none } Reg.CIST_SNAP_CMD_DONE) Reg.CIST_SNAP_CMD_BUSY) :=
      (setSticky_shape _ _).trans (clrBusy_shape _ _)
    have hdone : on (clrBusy (setSticky { v with snapRun := none } Reg.CIST_SNAP_CMD_DONE) Reg.CIST_SNAP_CMD_BUSY) Reg.CIST_SNAP_CMD_DONE = true :=
      (on_clrBusy_disj ⟨by decide, .inl (by decide)⟩ (by decide) (by decide) (by decide) (by decide)).trans
        (on_setSticky_self ⟨by decide, .inl (by decide)⟩ rfl (by decide))
    have hbusy : on (clrBusy (setSticky { v with snapRun := none } Reg.CIST_SNAP_CMD_DONE) Reg.CIST_SNAP_CMD_BUSY) Reg.CIST_SNAP_CMD_BUSY = false :=
      on_clrBusy_self ⟨by decide, .inl (by decide)⟩ (by decide) (by decide)
    generalize clrBusy (setSticky { v with snapRun := none } Reg.CIST_SNAP_CMD_DONE) Reg.CIST_SNAP_CMD_BUSY = t at hexec hend hdone hbusy
    have hmem : ∀ a, mget t a = mget v a := hend.mget_eq
    have hnum : ∀ a n, mnum t a n = mnum v a n := fun a n => mnum_congr fun i _ => hmem _
    refine ⟨t, hexec, ?_, fun c hc => (hmem c).trans (hsame c hc), by rw [hnum, hcyc], by rw [hnum, hpt], by rw [hnum, hcount],
      fun i p v st hi => by rw [hnum, hnum]; exact hpoints i p v st hi, fun _ => ⟨hend.snapRun, hdone, hbusy⟩, fun hlt => absurd hlt (by omega)⟩
    rw [hend]
    rw [hshape]
  · rw [if_neg hleft] at hexec
    refine ⟨_, hexec, ?_, hsame, hcyc, hpt, hcount, hpoints, fun hle => absurd hle hleft, fun _ => ⟨?_, rfl⟩⟩
    · rw [hshape]
    · rw [hshape]

end Sys2Proof.Machine
end

section
/-! PROOFS. The DMA channels (R334, R336). -/

namespace Sys2Proof.Machine

/-! ## What leaves the package is never taken back -/

/-- Everything that left the package in `s` has left it in `t`. -/
def WireGrows (s t : State) : Prop := ∀ o, o ∈ s.wire → o ∈ t.wire

theorem WireGrows.trans {s t u : State} (h : WireGrows s t) (k : WireGrows t u) : WireGrows s u := fun o ho => k o (h o ho)

theorem wireGrows_sendVec (s : State) (v : Nat) : WireGrows s (sendVec s v) := fun o ho => by
  unfold sendVec
  split
  · exact ho
  · split
    · exact ho
    · exact List.mem_append_left _ ho

theorem wireGrows_raise (s : State) (p b : Nat) : WireGrows s (raise s p b) := fun o ho => by
  unfold raise
  split
  · dsimp only
    split
    · exact wireGrows_sendVec _ _ o ho
    · exact ho
  · exact ho

theorem wireGrows_setSticky (s : State) (f : Fld) : WireGrows s (setSticky s f) := fun o ho => by
  unfold setSticky
  split
  · exact ho
  · exact wireGrows_raise _ _ _ o ho

theorem wireGrows_clrBusy (s : State) (f : Fld) : WireGrows s (clrBusy s f) := fun o ho => by
  unfold clrBusy
  split
  · exact wireGrows_raise _ _ _ o ho
  · exact ho

theorem wireGrows_incCnt (s : State) (f : Fld) : WireGrows s (incCnt s f) := fun o ho => by
  unfold incCnt addCnt setStat
  dsimp only
  split
  · split
    · exact ho
    · exact wireGrows_raise _ _ _ o ho
  · exact ho

theorem mem_wire_emit (s : State) (o : Out) : o ∈ (emit s o).wire := List.mem_append_right _ (List.mem_singleton_self o)

theorem rdw_clrBusy {k : Nat} {f : Fld} (hk : Aside f.page k) (hf : k ≠ f.addr) (s : State) : rdw (clrBusy s f) k = rdw s k := by
  unfold clrBusy
  split
  · rw [rdw_raise_aside hk, rdw_wr_other _ _ _ hf]
  · rfl

/-- A state, and after it the vector that may be raised: registers but the pending vectors stay. -/
theorem rdw_sendVec_ite (s : State) (p : Bool) (v : Nat) {k : Nat} (hk : k ≠ 0xB1C00) : rdw (if p then sendVec s v else s) k = rdw s k := by
  split
  · exact rdw_sendVec _ _ hk
  · rfl

theorem sendVec_ite_keeps (s : State) (p : Bool) (v : Nat) : RegsWire s (if p then sendVec s v else s) ∧ WireGrows s (if p then sendVec s v else s) := by
  split
  · exact ⟨sendVec_shape _ _, wireGrows_sendVec _ _⟩
  · exact ⟨RegsWire.refl s, fun _ ho => ho⟩

/-! ## The registers of a channel -/

section
variable {c : Nat} (hc : c < 8)
include hc

/-- STAT and DONE_CNT of a channel lie past the header of the HOST page and apart from its pending bits. -/
theorem aside_dmaStat : Aside 0xB1 (Reg.HOST_DMA_STAT_BUSY c).addr ∧ Aside 0xB1 (Reg.HOST_DMA_DONE_CNT c).addr := by
  simp only [Aside, Reg.HOST_DMA_STAT_BUSY, Reg.HOST_DMA_DONE_CNT]
  omega

theorem page_dmaStat : (Reg.HOST_DMA_STAT_BUSY c).page = 0xB1 ∧ (Reg.HOST_DMA_STAT_DONE c).page = 0xB1 ∧ (Reg.HOST_DMA_STAT_ERR c).page = 0xB1 ∧
    (Reg.HOST_DMA_DONE_CNT c).page = 0xB1 := by
  simp only [Fld.page, Reg.HOST_DMA_STAT_BUSY, Reg.HOST_DMA_STAT_DONE, Reg.HOST_DMA_STAT_ERR, Reg.HOST_DMA_DONE_CNT]
  omega

omit hc in
theorem dmaCnt_ne_dmaStat : (Reg.HOST_DMA_DONE_CNT c).addr ≠ (Reg.HOST_DMA_STAT_BUSY c).addr := by
  simp only [Reg.HOST_DMA_STAT_BUSY, Reg.HOST_DMA_DONE_CNT]
  omega

/-! ## A channel stops (R334) -/

/-- A channel that stops is not busy and keeps nothing, the rest of its STAT stays. -/
theorem dmaStopped_effect (s : State) : RegsWire { s with dma := tdel c s.dma } (dmaStopped s c) ∧ WireGrows s (dmaStopped s c) ∧
    on (dmaStopped s c) (Reg.HOST_DMA_STAT_BUSY c) = false ∧ on (dmaStopped s c) (Reg.HOST_DMA_STAT_ERR c) = on s (Reg.HOST_DMA_STAT_ERR c) := by
  obtain ⟨hstat, -⟩ := aside_dmaStat hc
  obtain ⟨hbusy, -⟩ := page_dmaStat hc
  have hsent : ∀ (u : State) (f : Fld), f.addr = (Reg.HOST_DMA_STAT_BUSY c).addr → on (sendVec u (16 + c)) f = on u f := fun u f hf => by
    rw [on, rd, rdw_sendVec _ _ (hf ▸ hstat.1), ← rd, on]
  unfold dmaStopped
  refine ⟨(clrBusy_shape _ _).trans (sendVec_shape _ _), fun o ho => wireGrows_sendVec _ _ o (wireGrows_clrBusy _ _ o ho), ?_, ?_⟩
  · rw [hsent _ (Reg.HOST_DMA_STAT_BUSY c) rfl]
    exact on_clrBusy_self (hbusy ▸ hstat) (Nat.le_refl 0) (Nat.zero_lt_succ 31)
  · rw [hsent _ (Reg.HOST_DMA_STAT_ERR c) rfl]
    exact on_clrBusy_disj (f := Reg.HOST_DMA_STAT_BUSY c) (hbusy ▸ hstat) (Nat.le_refl 0) (Nat.zero_lt_succ 31) (Nat.le_refl 2) (.inr (Nat.zero_lt_succ 1))

/-- A chain that ends on an error writes its status back, sets ERR and stops. -/
theorem dmaFail_effect (s : State) (d : DmaDesc) (status : Nat) : (dmaFail s c d status).mem = s.mem ∧ (dmaFail s c d status).dma = tdel c s.dma ∧
    on (dmaFail s c d status) (Reg.HOST_DMA_STAT_ERR c) = true ∧ on (dmaFail s c d status) (Reg.HOST_DMA_STAT_BUSY c) = false ∧
    Out.dmaStatus c (tget (fun _ => ({} : DmaCh)) s.dma c).ptr d.word3.toNat status ∈ (dmaFail s c d status).wire := by
  obtain ⟨hstat, -⟩ := aside_dmaStat hc
  obtain ⟨-, -, herr, -⟩ := page_dmaStat hc
  unfold dmaFail
  dsimp only
  generalize Out.dmaStatus c (tget (fun _ => ({} : DmaCh)) s.dma c).ptr d.word3.toNat status = o
  have hset := setSticky_shape (emit s o) (Reg.HOST_DMA_STAT_ERR c)
  have hflag : on (setSticky (emit s o) (Reg.HOST_DMA_STAT_ERR c)) (Reg.HOST_DMA_STAT_ERR c) = true :=
    on_setSticky_self (herr ▸ hstat) rfl (show 2 < 32 by decide)
  have hout := wireGrows_setSticky (emit s o) (Reg.HOST_DMA_STAT_ERR c) o (mem_wire_emit s o)
  generalize setSticky (emit s o) (Reg.HOST_DMA_STAT_ERR c) = u at hset hflag hout ⊢
  obtain ⟨hshape, hgrows, hoff, hkeeps⟩ := dmaStopped_effect hc u
  exact ⟨hshape.mem.trans hset.mem, by rw [hshape.dma]; exact congrArg (tdel c) hset.dma, hkeeps.trans hflag, hoff, hgrows o hout⟩

/-! ## A descriptor is complete (R334) -/

/-- The channel of a complete descriptor: it stops at the end of its chain, or goes on with the next descriptor. -/
def dmaNext (s : State) (c : Nat) (d : DmaDesc) : State :=
  if bitOf 26 d.word3.toNat then
    clrBusy (setSticky { s with dma := tdel c s.dma } (Reg.HOST_DMA_STAT_DONE c)) (Reg.HOST_DMA_STAT_BUSY c)
  else { s with dma := tput (fun _ => {}) s.dma c { ptr := d.next.toNat - d.next.toNat % 32 } }

omit hc in
theorem dmaNext_keeps (s : State) (d : DmaDesc) : (dmaNext s c d).mem = s.mem ∧ WireGrows s (dmaNext s c d) := by
  unfold dmaNext
  split
  · exact ⟨((setSticky_shape _ _).trans (clrBusy_shape _ _)).mem, fun o ho => wireGrows_clrBusy _ _ o (wireGrows_setSticky _ _ o ho)⟩
  · exact ⟨rfl, fun _ ho => ho⟩

theorem rd_doneCnt_dmaNext (s : State) (d : DmaDesc) : rd (dmaNext s c d) (Reg.HOST_DMA_DONE_CNT c) = rd s (Reg.HOST_DMA_DONE_CNT c) := by
  obtain ⟨-, hcnt⟩ := aside_dmaStat hc
  obtain ⟨hbusy, hdone, -, -⟩ := page_dmaStat hc
  have hne := dmaCnt_ne_dmaStat (c := c)
  unfold dmaNext
  split
  · rw [rd, rdw_clrBusy (f := Reg.HOST_DMA_STAT_BUSY c) (hbusy ▸ hcnt) hne, rdw_setSticky (f := Reg.HOST_DMA_STAT_DONE c) (hdone ▸ hcnt) hne]
    rfl
  · rfl

/-- At the end of its chain the channel is done. -/
theorem dmaNext_last {d : DmaDesc} (s : State) (h : bitOf 26 d.word3.toNat = true) : on (dmaNext s c d) (Reg.HOST_DMA_STAT_DONE c) = true ∧
    on (dmaNext s c d) (Reg.HOST_DMA_STAT_BUSY c) = false ∧ (dmaNext s c d).dma = tdel c s.dma := by
  obtain ⟨hstat, -⟩ := aside_dmaStat hc
  obtain ⟨hbusy, hdone, -, -⟩ := page_dmaStat hc
  rw [dmaNext, if_pos h]
  refine ⟨?_, on_clrBusy_self (hbusy ▸ hstat) (Nat.le_refl 0) (Nat.zero_lt_succ 31), ((setSticky_shape _ _).trans (clrBusy_shape _ _)).dma⟩
  exact (on_clrBusy_disj (f := Reg.HOST_DMA_STAT_BUSY c) (g := Reg.HOST_DMA_STAT_DONE c) (hbusy ▸ hstat) (Nat.le_refl 0) (Nat.zero_lt_succ 31) (Nat.le_refl 1) (.inr (Nat.zero_lt_succ 0))).trans
    (on_setSticky_self (hdone ▸ hstat) rfl (show 1 < 32 by decide))

/-- A complete descriptor's status written back and counted. -/
def dmaCounted (s : State) (c : Nat) (d : DmaDesc) : State :=
  incCnt (emit s (.dmaStatus c (tget (fun _ => ({} : DmaCh)) s.dma c).ptr (putBit 31 true d.word3.toNat) 0)) (Reg.HOST_DMA_DONE_CNT c)

omit hc in
theorem dmaDone_eq (s : State) (d : DmaDesc) : dmaDone s c d =
    if bitOf 25 d.word3.toNat then sendVec (dmaNext (dmaCounted s c d) c d) (16 + c) else dmaNext (dmaCounted s c d) c d := rfl

theorem dmaCounted_effect (s : State) (d : DmaDesc) : RegsWire s (dmaCounted s c d) ∧
    Out.dmaStatus c (tget (fun _ => ({} : DmaCh)) s.dma c).ptr (putBit 31 true d.word3.toNat) 0 ∈ (dmaCounted s c d).wire ∧
    rd (dmaCounted s c d) (Reg.HOST_DMA_DONE_CNT c) = (rd s (Reg.HOST_DMA_DONE_CNT c) + 1) % 2 ^ 32 ∧
    on (dmaCounted s c d) (Reg.HOST_DMA_STAT_BUSY c) = on s (Reg.HOST_DMA_STAT_BUSY c) := by
  obtain ⟨hstat, hcnt⟩ := aside_dmaStat hc
  obtain ⟨-, -, -, hpage⟩ := page_dmaStat hc
  unfold dmaCounted
  generalize Out.dmaStatus c (tget (fun _ => ({} : DmaCh)) s.dma c).ptr (putBit 31 true d.word3.toNat) 0 = o
  refine ⟨(RegsWire.emit s o).trans (incCnt_shape _ _), wireGrows_incCnt _ _ o (mem_wire_emit s o),
    rd_incCnt_self (s := emit s o) (f := Reg.HOST_DMA_DONE_CNT c) (hpage ▸ hcnt) (Nat.zero_le 31) (show 31 < 32 by decide), ?_⟩
  rw [on, rd, rdw_incCnt (f := Reg.HOST_DMA_DONE_CNT c) (hpage ▸ hstat) dmaCnt_ne_dmaStat.symm]
  rfl

/-- A descriptor that completes writes its status back, is counted, and the channel goes on or stops. -/
theorem dmaDone_effect (s : State) (d : DmaDesc) : (dmaDone s c d).mem = s.mem ∧
    Out.dmaStatus c (tget (fun _ => ({} : DmaCh)) s.dma c).ptr (putBit 31 true d.word3.toNat) 0 ∈ (dmaDone s c d).wire ∧
    rd (dmaDone s c d) (Reg.HOST_DMA_DONE_CNT c) = (rd s (Reg.HOST_DMA_DONE_CNT c) + 1) % 2 ^ 32 ∧
    (bitOf 26 d.word3.toNat = true → on (dmaDone s c d) (Reg.HOST_DMA_STAT_DONE c) = true ∧ on (dmaDone s c d) (Reg.HOST_DMA_STAT_BUSY c) = false ∧
      (dmaDone s c d).dma = tdel c s.dma) ∧
    (bitOf 26 d.word3.toNat = false → on (dmaDone s c d) (Reg.HOST_DMA_STAT_BUSY c) = on s (Reg.HOST_DMA_STAT_BUSY c) ∧
      (dmaDone s c d).dma = tput (fun _ => {}) s.dma c { ptr := d.next.toNat - d.next.toNat % 32 }) := by
  obtain ⟨⟨hstat, -⟩, ⟨hcnt, -⟩⟩ := aside_dmaStat hc
  obtain ⟨hshape, hout, hone, hbusy⟩ := dmaCounted_effect hc s d
  rw [dmaDone_eq]
  generalize dmaCounted s c d = u at hshape hout hone hbusy ⊢
  obtain ⟨hmem, hgrows⟩ := dmaNext_keeps (c := c) u d
  have hcount := rd_doneCnt_dmaNext hc u d
  obtain ⟨hsent, hwire⟩ := sendVec_ite_keeps (dmaNext u c d) (bitOf 25 d.word3.toNat) (16 + c)
  have hrdw := fun k (hk : k ≠ 0xB1C00) => rdw_sendVec_ite (dmaNext u c d) (bitOf 25 d.word3.toNat) (16 + c) hk
  generalize (if bitOf 25 d.word3.toNat then sendVec (dmaNext u c d) (16 + c) else dmaNext u c d) = t at hsent hwire hrdw ⊢
  have hon : ∀ f : Fld, f.addr = (Reg.HOST_DMA_STAT_BUSY c).addr → on t f = on (dmaNext u c d) f := fun f hf => by
    rw [on, rd, hrdw _ (hf ▸ hstat), ← rd, on]
  refine ⟨hsent.mem.trans (hmem.trans hshape.mem), hwire _ (hgrows _ hout), ?_, fun hlast => ?_, fun hmore => ?_⟩
  · rw [rd, hrdw _ hcnt, ← rd, hcount, hone]
  · obtain ⟨hdone, hoff, hdma⟩ := dmaNext_last hc u hlast
    exact ⟨(hon (Reg.HOST_DMA_STAT_DONE c) rfl).trans hdone, (hon _ rfl).trans hoff, by rw [hsent.dma, hdma, hshape.dma]⟩
  · have hnext : dmaNext u c d = { u with dma := tput (fun _ => {}) u.dma c { ptr := d.next.toNat - d.next.toNat % 32 } } := by
      rw [dmaNext, if_neg (by simp [hmore])]
    refine ⟨((hon _ rfl).trans ?_).trans hbusy, ?_⟩
    · rw [hnext]
      rfl
    · rw [hsent.dma, hnext, ← hshape.dma]

/-! ## GO and STOP (R334, R336) -/

/-- The channel's registers but CTRL are not among those that a write of CTRL may touch. -/
theorem dmaKeys : (Reg.HOST_DMA_STAT_BUSY c).addr ∉ cmdKeys (Reg.HOST_DMA_CTRL c).addr ∧ (Reg.HOST_DMA_DESC_LO_ADDR c).addr ∉ cmdKeys (Reg.HOST_DMA_CTRL c).addr ∧
    (Reg.HOST_DMA_DESC_HI_ADDR c).addr ∉ cmdKeys (Reg.HOST_DMA_CTRL c).addr := by
  simp only [cmdKeys, sideKeys, Reg.HOST_DMA_STAT_BUSY, Reg.HOST_DMA_DESC_LO_ADDR, Reg.HOST_DMA_DESC_HI_ADDR, Reg.HOST_DMA_CTRL, List.mem_cons, List.not_mem_nil, or_false, not_or]
  omega

end

/-- What GO does once its word is written. -/
def dmaStart (m : Master) (c : Nat) (w : W32) (u : State) : State :=
  if wbits (Reg.HOST_DMA_CTRL_GO c) w = 1 then
    if on u (Reg.HOST_DMA_STAT_BUSY c) then errlog u 0xB1 7 m (Reg.HOST_DMA_CTRL c).addr
    else
      let p := rd64 u (Reg.HOST_DMA_DESC_LO_ADDR c) (Reg.HOST_DMA_DESC_HI_ADDR c)
      wr { u with dma := tput (fun _ => {}) u.dma c { ptr := p - p % 32 } } (Reg.HOST_DMA_STAT_BUSY c) 1
  else u

theorem exec_dmaGo {m : Master} {c : Fin 8} {w : W32} {s : State} (h : CanReach m s (Reg.HOST_DMA_CTRL c).addr) :
    exec (.dmaGo m c w) s = .next (dmaStart m c w (plainWrite s m (Reg.HOST_DMA_CTRL c).addr w.toNat)) :=
  congrArg Host.Outcome.next (regAction_open w _ h)

/-- What STOP does once its word is written. -/
def dmaHalt (c : Nat) (w : W32) (d : DmaDesc) (data : List Byte) (n : Nat) (u : State) : State :=
  if wbits (Reg.HOST_DMA_CTRL_STOP c) w = 1 ∧ on u (Reg.HOST_DMA_STAT_BUSY c) then
    let r := moveDesc u c d data (if DmaDesc.out d then min n (DmaDesc.words d) else min (min n (DmaDesc.words d)) (data.length / 4))
    if r.2 then dmaFail r.1 c d 1 else dmaStopped r.1 c
  else u

theorem exec_dmaStop {m : Master} {c : Fin 8} {w : W32} {s : State} (d : DmaDesc) (data : List Byte) (n : Nat)
    (h : CanReach m s (Reg.HOST_DMA_CTRL c).addr) :
    exec (.dmaStop m c w d data n) s = .next (dmaHalt c w d data n (plainWrite s m (Reg.HOST_DMA_CTRL c).addr w.toNat)) :=
  congrArg Host.Outcome.next (regAction_open w _ h)

/-- A descriptor of which no word was moved leaves the state. -/
theorem moveDesc_zero (s : State) (c : Nat) (d : DmaDesc) (data : List Byte) : moveDesc s c d data 0 = (s, false) := rfl

/-- A busy channel that is stopped is not busy and keeps nothing. -/
theorem dmaHalt_busy {c : Nat} (hc : c < 8) {w : W32} {u : State} (d : DmaDesc) (data : List Byte) (n : Nat)
    (hstop : wbits (Reg.HOST_DMA_CTRL_STOP c) w = 1) (hbusy : on u (Reg.HOST_DMA_STAT_BUSY c) = true) :
    on (dmaHalt c w d data n u) (Reg.HOST_DMA_STAT_BUSY c) = false ∧ tget (fun _ => ({} : DmaCh)) (dmaHalt c w d data n u).dma c = {} ∧
      (n = 0 → (dmaHalt c w d data n u).mem = u.mem) := by
  rw [dmaHalt, if_pos ⟨hstop, hbusy⟩]
  have hzero : n = 0 → moveDesc u c d data (if DmaDesc.out d then min n (DmaDesc.words d) else min (min n (DmaDesc.words d)) (data.length / 4)) = (u, false) := by
    rintro rfl
    simp [moveDesc_zero]
  generalize moveDesc u c d data (if DmaDesc.out d then min n (DmaDesc.words d) else min (min n (DmaDesc.words d)) (data.length / 4)) = r at hzero ⊢
  dsimp only
  split
  · obtain ⟨hmem, hdma, -, hoff, -⟩ := dmaFail_effect hc r.1 d 1
    exact ⟨hoff, by rw [hdma, tget_tdel_self], fun hn => by rw [hmem, hzero hn]⟩
  · obtain ⟨hshape, -, hoff, -⟩ := dmaStopped_effect hc r.1
    exact ⟨hoff, by rw [hshape.dma, tget_tdel_self], fun hn => by rw [hshape.mem, hzero hn]⟩

/-- GO and STOP of a channel (R334, R336). -/
theorem dmaGo_outcomes {m : Master} {c : Fin 8} {w : W32} {s : State} (h : CanReach m s (Reg.HOST_DMA_CTRL c).addr) : ∃ u, Written (Reg.HOST_DMA_CTRL c).addr s u ∧
    (wbits (Reg.HOST_DMA_CTRL_GO c) w = 0 → exec (.dmaGo m c w) s = .next u) ∧
    (wbits (Reg.HOST_DMA_CTRL_GO c) w = 1 → on s (Reg.HOST_DMA_STAT_BUSY c) = true → ∃ t, exec (.dmaGo m c w) s = .next t ∧ RegsWire s t ∧ on t (Reg.HDR_ERRLOG_VALID 0xB1) = true) ∧
    (wbits (Reg.HOST_DMA_CTRL_GO c) w = 1 → on s (Reg.HOST_DMA_STAT_BUSY c) = false → ∃ t, exec (.dmaGo m c w) s = .next t ∧ t = { u with dma := t.dma, regs := t.regs } ∧
      SameRegsBut [(Reg.HOST_DMA_STAT_BUSY c).addr] u t ∧ on t (Reg.HOST_DMA_STAT_BUSY c) = true ∧
      tget (fun _ => ({} : DmaCh)) t.dma c = { ptr := rd64 s (Reg.HOST_DMA_DESC_LO_ADDR c) (Reg.HOST_DMA_DESC_HI_ADDR c) / 32 * 32 }) ∧
    (∀ (d : DmaDesc) (data : List Byte) (n : Nat), ((wbits (Reg.HOST_DMA_CTRL_STOP c) w = 0 ∨ on s (Reg.HOST_DMA_STAT_BUSY c) = false) → exec (.dmaStop m c w d data n) s = .next u) ∧
      (wbits (Reg.HOST_DMA_CTRL_STOP c) w = 1 → on s (Reg.HOST_DMA_STAT_BUSY c) = true → ∃ t, exec (.dmaStop m c w d data n) s = .next t ∧
        on t (Reg.HOST_DMA_STAT_BUSY c) = false ∧ tget (fun _ => ({} : DmaCh)) t.dma c = {} ∧ (n = 0 → t.mem = s.mem))) := by
  have hgo := exec_dmaGo (w := w) h
  have hstop := fun d data n => exec_dmaStop (w := w) d data n h
  have hw := plainWrite_written s m (Reg.HOST_DMA_CTRL c).addr w.toNat
  obtain ⟨hstat, hlo, hhi⟩ := dmaKeys c.isLt
  have hbusy := hw.on (Reg.HOST_DMA_STAT_BUSY c) hstat
  have hptr : rd64 (plainWrite s m (Reg.HOST_DMA_CTRL c).addr w.toNat) (Reg.HOST_DMA_DESC_LO_ADDR c) (Reg.HOST_DMA_DESC_HI_ADDR c) =
      rd64 s (Reg.HOST_DMA_DESC_LO_ADDR c) (Reg.HOST_DMA_DESC_HI_ADDR c) := by
    rw [rd64, hw.rd _ hlo, hw.rd _ hhi, ← rd64]
  generalize plainWrite s m (Reg.HOST_DMA_CTRL c).addr w.toNat = u at hgo hstop hw hbusy hptr
  refine ⟨u, hw, fun hzero => ?_, fun hone hon => ?_, fun hone hoff => ?_, fun d data n => ⟨fun hidle => ?_, fun hone hon => ?_⟩⟩
  · rw [hgo, dmaStart, if_neg (by omega)]
  · rw [dmaStart, if_pos hone, if_pos (hbusy.trans hon)] at hgo
    exact ⟨_, hgo, hw.1.trans (errlog_shape _ _ _ _ _), errlog_valid _ _ _ _ _ (by decide)⟩
  · rw [dmaStart, if_pos hone, if_neg (by simp [hbusy, hoff]), hptr] at hgo
    refine ⟨_, hgo, rfl, fun k hk => rdw_wr_other _ _ _ (by simpa using hk), ?_, ?_⟩
    · rw [on, rd_wr_self _ _ _ (Nat.le_refl 0) (Nat.zero_lt_succ 31)]
      rfl
    · rw [wr_dma, tget_tput_self]
      congr 1
      omega
  · rw [hstop, dmaHalt, if_neg]
    rintro ⟨hone, hon⟩
    rcases hidle with hzero | hoff
    · omega
    · rw [hbusy, hoff] at hon
      exact absurd hon (by decide)
  · obtain ⟨hoff, hch, hmem⟩ := dmaHalt_busy c.isLt d data n hone (hbusy.trans hon)
    exact ⟨_, hstop d data n, hoff, hch, fun hn => (hmem hn).trans hw.1.mem⟩

/-! ## A descriptor ends (R334) -/

/-- Words of a descriptor that move: all of them towards the host, and otherwise as many as the data holds. -/
def dmaCount (s : State) (c : Nat) (d : DmaDesc) (data : List Byte) (pcie : Bool) : Nat :=
  if pcie = true ∨ (tget (fun _ => ({} : DmaCh)) s.dma c).stop = true ∨ bitOf 24 d.word3.toNat = false then min (bits 23 0 d.word3.toNat / 4) (data.length / 4)
  else bits 23 0 d.word3.toNat / 4

theorem exec_dmaDescriptorComplete {s : State} {c : Fin 8} (d : DmaDesc) (data : List Byte) (pcie : Bool) (hhost : domOn s dHOST = true)
    (hbusy : on s (Reg.HOST_DMA_STAT_BUSY c) = true) : exec (.dmaDescriptorComplete c d data pcie) s = .next (
      let r := moveDesc s c d data (dmaCount s c d data pcie)
      if r.2 then dmaFail r.1 c d 1
      else if pcie then dmaFail r.1 c d 2
      else if (tget (fun _ => ({} : DmaCh)) s.dma c).stop then dmaStopped r.1 c
      else dmaDone r.1 c d) := by
  have hcount : (if (pcie || (tget (fun _ => ({} : DmaCh)) s.dma c).stop || !(DmaDesc.out d)) = true then min (DmaDesc.words d) (data.length / 4) else DmaDesc.words d) =
      dmaCount s c d data pcie := by
    simp only [dmaCount, DmaDesc.words, DmaDesc.out, Bool.or_eq_true, Bool.not_eq_true', or_assoc]
  change execDmaDescriptorComplete c d data pcie s = _
  unfold execDmaDescriptorComplete
  dsimp only
  rw [if_pos (by rw [hhost, hbusy]; rfl), hcount]

theorem exec_dmaDescriptorComplete_idle {s : State} {c : Fin 8} (d : DmaDesc) (data : List Byte) (pcie : Bool)
    (h : domOn s dHOST = false ∨ on s (Reg.HOST_DMA_STAT_BUSY c) = false) : exec (.dmaDescriptorComplete c d data pcie) s = .next s := by
  change execDmaDescriptorComplete c d data pcie s = _
  unfold execDmaDescriptorComplete
  rw [if_neg (by rcases h with h | h <;> simp [h])]

/-- A descriptor that a refused word or PCIe ends stops its channel with ERR; one that completes is counted, and the channel goes on or stops. -/
theorem dmaDescriptorComplete_outcomes {s : State} {c : Fin 8} (d : DmaDesc) (data : List Byte) (pcie : Bool) (hhost : domOn s dHOST = true)
    (hbusy : on s (Reg.HOST_DMA_STAT_BUSY c) = true) {r : State × Bool} (hr : r = moveDesc s c d data (dmaCount s c d data pcie)) :
    ((r.2 = true ∨ pcie = true) → ∃ t, exec (.dmaDescriptorComplete c d data pcie) s = .next t ∧ t.mem = r.1.mem ∧ on t (Reg.HOST_DMA_STAT_ERR c) = true ∧
      on t (Reg.HOST_DMA_STAT_BUSY c) = false ∧ tget (fun _ => ({} : DmaCh)) t.dma c = {} ∧
      Out.dmaStatus c (tget (fun _ => ({} : DmaCh)) r.1.dma c).ptr d.word3.toNat (if r.2 = true then 1 else 2) ∈ t.wire) ∧
    (r.2 = false → pcie = false → (tget (fun _ => ({} : DmaCh)) s.dma c).stop = false → ∃ t, exec (.dmaDescriptorComplete c d data pcie) s = .next t ∧ t.mem = r.1.mem ∧
      Out.dmaStatus c (tget (fun _ => ({} : DmaCh)) r.1.dma c).ptr (putBit 31 true d.word3.toNat) 0 ∈ t.wire ∧
      rd t (Reg.HOST_DMA_DONE_CNT c) = (rd r.1 (Reg.HOST_DMA_DONE_CNT c) + 1) % 2 ^ 32 ∧
      (bitOf 26 d.word3.toNat = true → on t (Reg.HOST_DMA_STAT_DONE c) = true ∧ on t (Reg.HOST_DMA_STAT_BUSY c) = false ∧ tget (fun _ => ({} : DmaCh)) t.dma c = {}) ∧
      (bitOf 26 d.word3.toNat = false → on t (Reg.HOST_DMA_STAT_BUSY c) = on r.1 (Reg.HOST_DMA_STAT_BUSY c) ∧
        tget (fun _ => ({} : DmaCh)) t.dma c = { ptr := d.next.toNat / 32 * 32 })) := by
  have hexec := exec_dmaDescriptorComplete d data pcie hhost hbusy
  rw [← hr] at hexec
  clear hr
  refine ⟨fun hfail => ?_, fun hdone hpcie hstop => ?_⟩
  · have hstatus : exec (.dmaDescriptorComplete c d data pcie) s = .next (dmaFail r.1 c d (if r.2 = true then 1 else 2)) := by
      rw [hexec]
      dsimp only
      split
      · rfl
      · next hgood => rw [if_pos (hfail.resolve_left hgood)]
    obtain ⟨hmem, hdma, herr, hoff, hout⟩ := dmaFail_effect c.isLt r.1 d (if r.2 = true then 1 else 2)
    exact ⟨_, hstatus, hmem, herr, hoff, by rw [hdma, tget_tdel_self], hout⟩
  · subst hpcie
    simp only [hdone, hstop, Bool.false_eq_true, if_false] at hexec
    obtain ⟨hmem, hout, hcnt, hlast, hmore⟩ := dmaDone_effect c.isLt r.1 d
    refine ⟨_, hexec, hmem, hout, hcnt, fun h26 => ?_, fun h26 => ?_⟩
    · obtain ⟨hon, hoff, hdma⟩ := hlast h26
      exact ⟨hon, hoff, by rw [hdma, tget_tdel_self]⟩
    · obtain ⟨hkept, hdma⟩ := hmore h26
      refine ⟨hkept, ?_⟩
      rw [hdma, tget_tput_self]
      congr 1
      omega

/-! ## Host words land in the cistern (R325, R334) -/

theorem region_cist {a : Nat} (hlo : 0x20000000 ≤ a) (hhi : a < 0x20800000) : region a = some (.cist, 0x20800000) := by
  unfold region
  repeat rw [if_neg (by omega)]
  rw [if_pos ⟨hlo, hhi⟩]

theorem leBytes_leNat (l : List Byte) : leBytes l.length (leNat l) = l := by
  induction l with
  | nil => rfl
  | cons b r ih =>
    have hb : b.toNat < 256 := b.isLt
    have hbyte : BitVec.ofNat 8 (b.toNat + 256 * leNat r) = b := by
      apply BitVec.eq_of_toNat_eq
      rw [BitVec.toNat_ofNat]
      omega
    have hrest : (b.toNat + 256 * leNat r) / 256 = leNat r := by omega
    rw [List.length_cons, leNat, leBytes, hbyte, hrest, ih]

/-- An aligned word lies in itself alone. -/
theorem wordsOf_word (w : Nat) : wordsOf (4 * w) 4 = [w] := by
  have hlast : (4 * w + 4 - 1) / 4 + 1 - 4 * w / 4 = 1 := by omega
  have hfirst : 4 * w / 4 = w := by omega
  rw [wordsOf, if_neg (by decide), hlast, hfirst]
  rfl

/-- A whole word written to a block of the writer's class. -/
theorem cistWrites_word {s : State} {m : Master} {w : Nat} {b : List Byte} (hb : b.length = 4) (hw : w < 2 ^ 21) (hclass : ownerClass m ≠ 0)
    (hown : flt s (w / 64) = ownerClass m) : cistWrites s m (4 * w) b = mwrite s (0x20000000 + 4 * w) b := by
  have hbytes : (List.range 4).map (fun i => if 4 * w ≤ 4 * w + i ∧ 4 * w + i < 4 * w + b.length then b.getD (4 * w + i - 4 * w) 0 else mget s (cistAddr (4 * w + i))) = b := by
    refine List.ext_getElem (by simp [hb]) fun i hi hl => ?_
    simp [hl]
  have hback : leBytes 4 (leNat b) = b := hb ▸ leBytes_leNat b
  have hwords : wordsOf (4 * w) b.length = [w] := hb ▸ wordsOf_word w
  rw [cistWrites, hwords, List.foldl_cons, List.foldl_nil]
  dsimp only
  rw [hbytes, cisternWrite_allowed _ hown hclass, cistAddr_word hw, msetNum, hback]

/-- A word that the DMA engine writes to a block of the host's is performed. -/
theorem dmaWrite_word {s : State} {w : Nat} {b : List Byte} (hb : b.length = 4) (hw : w < 2 ^ 21) (hon : domOn s dCIST = true) (hown : flt s (w / 64) = 1) :
    dmaRefused s (0x20000000 + 4 * w) true = false ∧ dmaWrite s (0x20000000 + 4 * w) b = mwrite s (0x20000000 + 4 * w) b := by
  have hregion : region (0x20000000 + 4 * w) = some (.cist, 0x20800000) := region_cist (by omega) (by omega)
  have haddr : (BitVec.ofNat 32 (0x20000000 + 4 * w)).toNat = 0x20000000 + 4 * w := by
    rw [BitVec.toNat_ofNat]
    exact Nat.mod_eq_of_lt (by omega)
  have hok : refused s .dmaEngine (0x20000000 + 4 * w) 4 true = false := by
    have hfit : ¬0x20800000 < 0x20000000 + 4 * w + 4 := by omega
    simp [refused, hregion, canReach, Region.readOnly, hfit]
  have hofs : 0x20000000 + 4 * w - 0x20000000 = 4 * w := by omega
  have hblock : 4 * w / 256 = w / 64 := by omega
  constructor
  · have hflt : (blk s (w / 64)).flt.toNat = 1 := hown
    rw [dmaRefused, hok, hregion]
    simp only [hofs, hblock, hflt]
    simp
  · have hexec : execInternalAccess .dmaEngine (BitVec.ofNat 32 (0x20000000 + 4 * w)) (.write b) s = .next (mwrite s (0x20000000 + 4 * w) b) := by
      have hdom : domOn s Region.cist.dom = true := hon
      unfold execInternalAccess
      simp only [haddr, MemAcc.size, MemAcc.isWrite, hb, hok, hregion, hdom, if_true, if_false, Bool.false_eq_true, reduceCtorEq, false_and]
      rw [internalWrite, hofs, cistWrites_word hb hw (by decide) hown]
    rw [dmaWrite, hexec, mwrite_shape s]
    rfl

/-- A list written in two parts. -/
theorem mwrite_take_drop (s : State) (a n : Nat) (l : List Byte) (h : n ≤ l.length) : mwrite (mwrite s a (l.take n)) (a + n) (l.drop n) = mwrite s a l := by
  induction n generalizing s a l with
  | zero => rfl
  | succ n ih =>
    cases l with
    | nil => exact absurd h (by simp)
    | cons b l =>
      rw [List.take_succ_cons, List.drop_succ_cons, mwrite_cons, mwrite_cons, ← ih (mput s a b) (a + 1) l (by simpa using h), Nat.add_assoc, Nat.add_comm 1 n]

/-- Host words that move to blocks of the host's stand in the cistern, and nothing else changes. -/
theorem moveWords_land {s : State} {w n : Nat} {data : List Byte} (hlen : data.length = 4 * n) (hend : w + n ≤ 2 ^ 21) (hon : domOn s dCIST = true)
    (hown : OwnedWords s 1 w n) : moveWords s false (0x20000000 + 4 * w) data n = (mwrite s (0x20000000 + 4 * w) data, [], false) := by
  induction n generalizing s w data with
  | zero => rw [List.length_eq_zero_iff.mp hlen]; rfl
  | succ n ih =>
    have htake : (data.take 4).length = 4 := by rw [List.length_take]; omega
    have hdrop : (data.drop 4).length = 4 * n := by rw [List.length_drop]; omega
    have hfirst : flt s (w / 64) = 1 := hown 0 (by omega)
    obtain ⟨hok, hwrite⟩ := dmaWrite_word htake (by omega) hon hfirst
    have hshape := mwrite_shape s (0x20000000 + 4 * w) (data.take 4)
    have hflt : ∀ b, flt (mwrite s (0x20000000 + 4 * w) (data.take 4)) b = flt s b := fun b => by rw [hshape]; rfl
    have hown' : OwnedWords (mwrite s (0x20000000 + 4 * w) (data.take 4)) 1 (w + 1) n := fun i hi => by
      rw [hflt, Nat.add_assoc, Nat.add_comm 1 i]
      exact hown (i + 1) (by omega)
    have hon' : domOn (mwrite s (0x20000000 + 4 * w) (data.take 4)) dCIST = true := by rw [hshape]; exact hon
    have hnext : 0x20000000 + 4 * w + 4 = 0x20000000 + 4 * (w + 1) := by omega
    rw [moveWords, Bool.not_false, hok, hwrite, hnext]
    simp only [Bool.false_eq_true, if_false]
    rw [ih hdrop (by omega) hon' hown', ← hnext, mwrite_take_drop _ _ _ _ (by omega)]

/-- A descriptor of host words for blocks of the host's lands them at its address (R334). -/
theorem moveDesc_land {s : State} {c n : Nat} {d : DmaDesc} {data : List Byte} (hlen : data.length = 4 * n) (hdir : bitOf 24 d.word3.toNat = false)
    (hon : domOn s dCIST = true) (hlo : 0x20000000 ≤ d.intAddr.toNat) (halign : d.intAddr.toNat % 4 = 0) (hend : d.intAddr.toNat + 4 * n ≤ 0x20800000)
    (hown : ∀ a, d.intAddr.toNat ≤ a → a < d.intAddr.toNat + 4 * n → flt s ((a - 0x20000000) / 256) = 1) :
    moveDesc s c d data n = (mwrite s d.intAddr.toNat data, false) := by
  have haddr : d.intAddr.toNat = 0x20000000 + 4 * ((d.intAddr.toNat - 0x20000000) / 4) := by omega
  generalize (d.intAddr.toNat - 0x20000000) / 4 = w at haddr
  have howned : OwnedWords s 1 w n := fun i hi => by
    have hblock : (0x20000000 + 4 * (w + i) - 0x20000000) / 256 = (w + i) / 64 := by omega
    rw [← hblock]
    exact hown _ (by omega) (by omega)
  rw [moveDesc, DmaDesc.out, hdir, haddr, moveWords_land hlen (by omega) hon howned]
  rfl

end Sys2Proof.Machine
end

section
/-! PROOFS. Errors in memories, met by the scrub or by a read (R30). -/

namespace Sys2Proof.Machine

/-! ## The scrub and its reactions -/

theorem exec_eccScrub_off {e : EccMem} (double : Bool) {s : State} (h : domOn s (EccMem.dom e) = false) : exec (.eccScrub e double) s = .next s := by
  change execEccScrub e double s = _
  rw [execEccScrub, h]
  rfl

theorem exec_eccScrub_double {e : EccMem} {s : State} (h : domOn s (EccMem.dom e) = true) : exec (.eccScrub e true) s = .next (eccDouble s e) := by
  change execEccScrub e true s = _
  rw [execEccScrub, h]
  rfl

theorem exec_eccScrub_single {e : EccMem} {s : State} (h : domOn s (EccMem.dom e) = true) :
    exec (.eccScrub e false) s = .next (eccSingle s (EccMem.page e)) := by
  change execEccScrub e false s = _
  rw [execEccScrub, h]
  rfl

/-- A state whose next free value is another. -/
def freeAt (s : State) (i : Nat) : State := { s with freeIdx := i }

/-- A corrected error is logged with free values for cause and offset. -/
theorem eccSingle_eq (s : State) (p : Nat) : ∃ i c o, c < 16 ∧ eccSingle s p = errlog (freeAt s i) p c .device o :=
  ⟨_, _, _, Nat.mod_lt _ (by decide), rfl⟩

/-- A corrected error is logged at its owner's page, and nothing else changes but the free values taken. -/
theorem eccSingle_effect (s : State) (p : Nat) : eccSingle s p = { s with regs := (eccSingle s p).regs, wire := (eccSingle s p).wire, freeIdx := (eccSingle s p).freeIdx } ∧
    on (eccSingle s p) (Reg.HDR_ERRLOG_VALID p) = true ∧ SameRegsBut (sideKeys (p * 0x1000)) s (eccSingle s p) := by
  obtain ⟨i, c, o, hc, h⟩ := eccSingle_eq s p
  have hshape := errlog_shape (freeAt s i) p c .device o
  have hregs := errlog_sameRegsBut (freeAt s i) (p * 0x1000) c .device o
  rw [Nat.mul_div_cancel _ (by decide)] at hregs
  have hvalid := errlog_valid (freeAt s i) p c .device o hc
  rw [← h] at hshape hregs hvalid
  generalize eccSingle s p = t at hshape hregs hvalid ⊢
  refine ⟨?_, hvalid, fun k hk => hregs k hk⟩
  rw [hshape, freeAt]

/-- An entry that the spec does not give is posted with free values for code and detail. -/
theorem postOther_eq (s : State) (source : Nat) : ∃ i c d, c < 2 ^ 16 ∧ postOther s source = post (freeAt s i) c source d :=
  ⟨_, _, _, Nat.mod_lt _ (by decide), rfl⟩

/-! ## What posting lets leave the package -/

theorem wireGrows_wr (s : State) (f : Fld) (v : Nat) : WireGrows s (wr s f v) := fun _ ho => ho

theorem wireGrows_mwrite (s : State) (a : Nat) (l : List Byte) : WireGrows s (mwrite s a l) := fun o ho => by rwa [mwrite_wire]

theorem wireGrows_tailCopy (s : State) (l : List Byte) : WireGrows s (tailCopy s l) := (wireGrows_mwrite _ _ _).trans (wireGrows_wr _ _ _)

theorem wireGrows_setStat (s : State) (f : Fld) : WireGrows s (setStat s f) := fun o ho => by
  unfold setStat
  split
  · exact ho
  · exact wireGrows_raise _ _ _ o ho

theorem wireGrows_incErr (s : State) (f : Fld) : WireGrows s (incErr s f) := fun o ho => by
  unfold incErr
  split
  · exact ho
  · exact wireGrows_setStat _ _ o ho

theorem wireGrows_post (s : State) (code source detail : Nat) : WireGrows s (post s code source detail) := by
  unfold post
  extract_lets e w u s₁ s₂ s₃
  have h₁ : WireGrows s s₁ := (wireGrows_mwrite _ _ _).trans (wireGrows_wr _ _ _)
  clear_value s₁
  have h₂ : WireGrows s₁ s₂ := by
    simp only [s₂]
    split
    · exact wireGrows_wr _ _ _
    · exact (wireGrows_wr _ _ _).trans (wireGrows_incErr _ _)
  clear_value s₂
  have h₃ : WireGrows s₂ s₃ := (wireGrows_incCnt _ _).trans (wireGrows_raise _ _ _)
  clear_value s₃
  split
  · split
    · exact ((h₁.trans h₂).trans h₃).trans ((wireGrows_tailCopy _ _).trans (wireGrows_raise _ _ _))
    · exact (h₁.trans h₂).trans h₃
  · exact fun _ ho => ho

/-! ## The point store -/

/-- The reaction to an uncorrectable point: a unit at control work may lose its role first, then the point is stale, and an entry and a free value of the NET page are written. -/
theorem eccPoint_eq (s : State) (a : BitVec 20) (work : Bool) : ∃ u i c d j v, ((work = false ∨ role s ≠ rACTIVE) → u = s) ∧
    eccDouble s (.pointStore a work) = wr (freeAt (post (freeAt (setStale u a.toNat true) i) c 3 d) j) ⟨0x8200C, 31, 16⟩ v := by
  have hu : (work = false ∨ role s ≠ rACTIVE) → (if work ∧ role s = rACTIVE then selfFault s .pointStore else s) = s := fun h => if_neg (by
    rintro ⟨hwork, hrole⟩
    rcases h with h | h
    · rw [hwork] at h
      exact absurd h (by decide)
    · exact h hrole)
  rw [eccDouble]
  generalize (if work ∧ role s = rACTIVE then selfFault s .pointStore else s) = u at hu ⊢
  obtain ⟨i, c, d, -, hpost⟩ := postOther_eq (setStale u a.toNat true) 3
  rw [hpost, free]
  exact ⟨u, i, c, d, _, _, hu, rfl⟩

theorem PeerAs.freeAt {r : Nat} {p : PairSt} {s : State} (h : PeerAs r p s) (i : Nat) : PeerAs r p (freeAt s i) := h

theorem peerAs_setStale (s : State) (a : Nat) (st : Bool) : PeerAs (role s) s.pair (setStale s a st) :=
  ⟨by rw [role, rd, rdw, setStale_regs, ← rdw, ← rd, ← role], setStale_pair ..⟩

theorem mget_setStale (s : State) (a : Nat) : mget (setStale s a true) (pdAddr a) = BitVec.ofNat 8 1 := mget_mput_self _ _ _

/-- An uncorrectable point is stale, and outside control work the unit keeps its role. -/
theorem eccPoint_effect (s : State) (a : BitVec 20) (work : Bool) : (mget (eccDouble s (.pointStore a work)) (pdAddr a.toNat)).toNat % 2 = 1 ∧
    ((work = false ∨ role s ≠ rACTIVE) → role (eccDouble s (.pointStore a work)) = role s ∧ (eccDouble s (.pointStore a work)).pair = s.pair) := by
  obtain ⟨u, i, c, d, j, v, hu, h⟩ := eccPoint_eq s a work
  rw [h]
  have hpd : 0x10020000 ≤ pdAddr a.toNat := by
    unfold pdAddr
    omega
  have hstale := mget_setStale u a.toNat
  have hpeer := peerAs_setStale u a.toNat true
  generalize setStale u a.toNat true = x at hstale hpeer ⊢
  have hkept : mget (post (freeAt x i) c 3 d) (pdAddr a.toNat) = BitVec.ofNat 8 1 := (mget_post_other _ _ _ _ _ (by decide) hpd).trans hstale
  have hposted := (hpeer.freeAt i).post c 3 d
  generalize post (freeAt x i) c 3 d = q at hkept hposted ⊢
  have hread : mget (wr (freeAt q j) ⟨0x8200C, 31, 16⟩ v) (pdAddr a.toNat) = BitVec.ofNat 8 1 := ((RegsWire.wr _ _ _).mget_eq _).trans hkept
  refine ⟨by rw [hread]; rfl, fun hidle => ?_⟩
  obtain rfl := hu hidle
  exact (hposted.freeAt j).wr (f := ⟨0x8200C, 31, 16⟩) v (by decide)

/-! ## Engines, cistern and acquisition buffer -/

theorem eccEngine_running {s : State} {e : Nat} (c : EngCause) (h : (eng s e).ph = .running) :
    eccEngine s e c = engineFault s e (eng s e).task (eng s e).snap.pc c := if_pos h

theorem eccEngine_idle {s : State} {e : Nat} (c : EngCause) (h : (eng s e).ph ≠ .running) : eccEngine s e c = selfFault s .engine := if_neg h

/-- Nothing but memory, registers, what left the package and the free values taken has changed. -/
def Noted (s t : State) : Prop := t = { s with mem := t.mem, regs := t.regs, wire := t.wire, freeIdx := t.freeIdx }

/-- The reader of an uncorrectable word of the cistern or of the acquisition buffer gets a bus error, an entry is posted, and the cistern stays. -/
theorem eccShared_effect (s : State) (m : Option Master) :
    (∀ a, 0x20000000 ≤ a → a < 0x20800000 → mget (postOther (eccAnswer s m) 4) a = mget s a) ∧
      Noted s (postOther (eccAnswer s m) 4) ∧
      (∀ x, m = some x → Out.busError x ∈ (postOther (eccAnswer s m) 4).wire) ∧
      (domOn s dSTEWARD = true → rd (postOther (eccAnswer s m) 4) Reg.SUMP_WPTR_INDEX = (rd s Reg.SUMP_WPTR_INDEX + 1) % 2 ^ 12) := by
  have hanswer : RegsWire s (eccAnswer s m) ∧ (eccAnswer s m).regs = s.regs ∧ ∀ x, m = some x → Out.busError x ∈ (eccAnswer s m).wire := by
    cases m with
    | none => exact ⟨RegsWire.refl s, rfl, nofun⟩
    | some y =>
      refine ⟨RegsWire.emit s _, rfl, ?_⟩
      rintro x ⟨⟩
      exact mem_wire_emit s _
  obtain ⟨hshape, hregs, hout⟩ := hanswer
  obtain ⟨i, c, d, hc, hpost⟩ := postOther_eq (eccAnswer s m) 4
  have hgrows := wireGrows_post (freeAt (eccAnswer s m) i) c 4 d
  have hlogged := post_shape (freeAt (eccAnswer s m) i) c 4 d
  have hentry := post_new (freeAt (eccAnswer s m) i) c 4 d hc (by decide) (by decide)
  have hmem := fun a (ha : 0x10020000 ≤ a) => mget_post_other (freeAt (eccAnswer s m) i) c 4 d a (by decide) ha
  rw [← hpost] at hgrows hlogged hentry hmem
  clear hpost
  generalize eccAnswer s m = u at *
  generalize postOther u 4 = t at *
  refine ⟨fun a ha _ => (hmem a (by omega)).trans (hshape.mget_eq a), ?_, fun x hx => hgrows _ (hout x hx), fun hon => ?_⟩
  · rw [Noted, hlogged, freeAt]
    rw [hshape]
  · obtain ⟨-, -, -, hw⟩ := hentry ((domOn_congr hshape.pwr _).trans hon)
    rw [hw]
    have hsame : (freeAt u i).regs = s.regs := hregs
    rw [rd, rdw, hsame, ← rdw, ← rd]

/-- An uncorrectable word of an engine's or a cluster's memory: its reader faults, and without one the unit diagnoses itself. -/
theorem eccEngines (s : State) (e : Fin 64) (i r : Bool) (c : Fin 4) (m : Option (Fin 64)) :
    (domOn s (dCLU (e / 16)) = true → (r = false ∨ (eng s e).ph ≠ .running) → exec (.eccScrub (.leLocal e i r) true) s = .next (selfFault s .engine)) ∧
    (domOn s (dCLU (e / 16)) = true → r = true → (eng s e).ph = .running →
      exec (.eccScrub (.leLocal e i r) true) s = .next (engineFault s e (eng s e).task (eng s e).snap.pc (if i = true then .imemEcc else .xymemEcc))) ∧
    (domOn s (dCLU c) = true → (∀ x, m = some x → (eng s x).ph ≠ .running) → exec (.eccScrub (.clusterMem c m) true) s = .next (selfFault s .engine)) ∧
    (∀ x, domOn s (dCLU c) = true → m = some x → (eng s x).ph = .running →
      exec (.eccScrub (.clusterMem c m) true) s = .next (engineFault s x (eng s x).task (eng s x).snap.pc .clmemEcc)) := by
  refine ⟨fun hon hidle => ?_, fun hon hr hrun => ?_, fun hon hidle => ?_, fun x hon hm hrun => ?_⟩
  · rw [exec_eccScrub_double (e := .leLocal e i r) hon, eccDouble]
    cases r with
    | false => rfl
    | true => rw [if_pos rfl, eccEngine_idle _ (hidle.resolve_left (by decide))]
  · rw [exec_eccScrub_double (e := .leLocal e i r) hon, eccDouble, hr, if_pos rfl, eccEngine_running _ hrun]
  · rw [exec_eccScrub_double (e := .clusterMem c m) hon]
    cases m with
    | none => rw [eccDouble]
    | some x => rw [eccDouble, eccEngine_idle _ (hidle x rfl)]
  · subst hm
    rw [exec_eccScrub_double (e := .clusterMem c (some x)) hon, eccDouble, eccEngine_running _ hrun]

/-! ## Port buffers, the sump and retention RAM -/

/-- The frame of an uncorrectable word of a port buffer is dropped and counted as one with a wrong CRC. -/
theorem eccPort_effect (s : State) (p : Fin 24) : (eccDouble s (.portBuffer p)).mem = s.mem ∧ (port (eccDouble s (.portBuffer p)) p).kept = (port s p).kept.tail ∧
    rd (eccDouble s (.portBuffer p)) (Reg.PORT_CRC_ERR_COUNT p) = min 65535 (rd s (Reg.PORT_CRC_ERR_COUNT p) + 1) := by
  have haside : Aside (Reg.PORT_CRC_ERR_COUNT p).page (Reg.PORT_CRC_ERR_COUNT p).addr := by
    simp only [Aside, Fld.page, Reg.PORT_CRC_ERR_COUNT]
    omega
  have hshape := incErr_shape (setPort s p { port s p with kept := (port s p).kept.tail }) (Reg.PORT_CRC_ERR_COUNT p)
  have hcount := rd_incErr_self (setPort s p { port s p with kept := (port s p).kept.tail }) haside (Nat.zero_le 15) (show 15 < 32 by decide)
  refine ⟨hshape.mem, ?_, hcount⟩
  change (port (incErr (setPort s p { port s p with kept := (port s p).kept.tail }) (Reg.PORT_CRC_ERR_COUNT p)) p).kept = _
  rw [port, hshape.lemac, setPort, tget_tput_self]

/-- An uncorrectable entry of the sump is replaced by one that names it. -/
theorem eccSump_effect (s : State) (i : BitVec 12) : eccDouble s (.sumpLog i) = { s with mem := (eccDouble s (.sumpLog i)).mem } ∧
    SameMemBut (0x10010000 + 16 * i.toNat) 16 s (eccDouble s (.sumpLog i)) ∧
    mnum (eccDouble s (.sumpLog i)) (0x10010000 + 16 * i.toNat + 8) 4 % 2 ^ 16 = 0x5001 ∧
    mnum (eccDouble s (.sumpLog i)) (0x10010000 + 16 * i.toNat + 12) 4 = i.toNat := by
  have hwritten : eccDouble s (.sumpLog i) = mwrite s (0x10010000 + 16 * i.toNat) (sumpBytes s 0x5001 5 i.toNat) := by rw [eccDouble]
  rw [hwritten]
  have hcode := mnum_mwrite_part s (0x10010000 + 16 * i.toNat) 4
    (0x5001 + 5 * 2 ^ 16 + b2n (!domOn s dNET) * 2 ^ 19 + b2n (decide (5 ≤ 2)) * 2 ^ 20) (leBytes 8 (stampNow s)) (leBytes 4 i.toNat)
  have hdetail := mnum_mwrite_part s (0x10010000 + 16 * i.toNat) 4 i.toNat
    (leBytes 8 (stampNow s) ++ leBytes 4 (0x5001 + 5 * 2 ^ 16 + b2n (!domOn s dNET) * 2 ^ 19 + b2n (decide (5 ≤ 2)) * 2 ^ 20)) []
  rw [length_leBytes] at hcode
  rw [List.append_nil, List.length_append, length_leBytes, length_leBytes] at hdetail
  refine ⟨mwrite_shape _ _ _, fun a ha => mget_mwrite_other _ _ _ _ (by simpa [sumpBytes] using ha), ?_, ?_⟩
  · rw [sumpBytes, hcode]
    omega
  · rw [sumpBytes, hdetail]
    exact Nat.mod_eq_of_lt (Nat.lt_trans i.isLt (by decide))

theorem eccDouble_retention (s : State) : eccDouble s (.retention true) = { s with mem := tdrop 0x10000000 0x10001000 s.mem, ao := { s.ao with epoch := 0 } } := by
  rw [eccDouble, if_pos rfl]

/-- Retention RAM whose two copies are lost reads 0. -/
theorem eccRetention_effect (s : State) : SameMemBut 0x10000000 0x1000 s (eccDouble s (.retention true)) ∧
    ∀ a, 0x10000000 ≤ a → a < 0x10001000 → mget (eccDouble s (.retention true)) a = 0 := by
  have hget : ∀ a, mget (eccDouble s (.retention true)) a = if 0x10000000 ≤ a ∧ a < 0x10001000 then memDef a else mget s a := fun a => by
    rw [eccDouble_retention, mget, tget_tdrop, ← mget]
  refine ⟨fun a ha => by rw [hget, if_neg (by omega)], fun a hlo hhi => ?_⟩
  rw [hget, if_pos ⟨hlo, hhi⟩, memDef, if_neg (by omega)]

end Sys2Proof.Machine
end

section
/-! PROOFS. The cistern and the DMA engine, assembled (R30, R323 to R336). -/

namespace Sys2Proof.Machine

/-- Settles O52: each clause is the lemma about its command. -/
theorem cisternFloatsSnapshotsAndDma : Obligations.CisternFloatsSnapshotsAndDma := by
  unfold Obligations.CisternFloatsSnapshotsAndDma
  intro s cistSame
  refine ⟨fun m w h => ⟨cas_barred h, cas_waits h⟩, fun r l b ok hpend hb hok hnew => casExecute_outcome hpend hb hok hnew, casExecute_rings s,
    fun a b h ha hb => casExecute_two h ha hb,
    fun m w hon => ⟨cisternRead_allowed hon, cisternRead_private_effect hon, fun v => ⟨cisternWrite_allowed_effect v hon, cisternWrite_discarded_effect v hon⟩⟩,
    fun m w h => snapGo_outcomes h, exec_snapshotPart_idle, fun x n hrun hlatch hcist hnet hn => snapshotPart_outcome hrun hlatch hcist hnet hn,
    fun m c w h => dmaGo_outcomes h, fun c d data pcie => ⟨exec_dmaDescriptorComplete_idle d data pcie, fun hhost hbusy => dmaDescriptorComplete_outcomes d data pcie hhost hbusy rfl⟩,
    fun c d data n hlen _ hdir hon hlo halign hend hown => ?_, fun e double => ⟨exec_eccScrub_off double, fun hon hsingle => ?_⟩,
    fun a work hon => ⟨_, exec_eccScrub_double (e := .pointStore a work) hon, eccPoint_effect s a work⟩, eccEngines s,
    fun w v m hon => ⟨_, exec_eccScrub_double (e := .cistern w m) hon, exec_eccScrub_double (e := .acqBuffer v m) hon, eccShared_effect s m⟩,
    fun p hon => ⟨_, exec_eccScrub_double (e := .portBuffer p) hon, eccPort_effect s p⟩,
    fun i hon => ⟨_, exec_eccScrub_double (e := .sumpLog i) hon, eccSump_effect s i⟩, fun hon => ?_⟩
  · refine ⟨_, moveDesc_land hlen hdir hon hlo halign hend hown, mwrite_shape _ _ _, fun a ha => mget_mwrite_other _ _ _ _ (by rwa [hlen]),
      fun i hi => mget_mwrite_self _ _ _ _ hi⟩
  · subst hsingle
    exact ⟨_, exec_eccScrub_single hon, eccSingle_effect s _⟩
  · obtain ⟨hsame, hzero⟩ := eccRetention_effect s
    refine ⟨exec_eccScrub_double (e := .retention false) hon, _, exec_eccScrub_double (e := .retention true) hon, ?_, hsame, hzero, ?_⟩
    · rw [eccDouble_retention]
    · rw [eccDouble_retention]

end Sys2Proof.Machine
end

section
/-! PROOFS. Pre-empted contexts and what an idle engine takes (R53, R55, R56, R103). -/

namespace Sys2Proof.Machine

/-! ## Engines, banks and descriptors of states that agree in part -/

theorem eng_congr {s t : State} (h : t.engs = s.engs) (e : Nat) : eng t e = eng s e := by rw [eng, h, eng]

theorem mnum_eq_of_mem {s t : State} (h : t.mem = s.mem) (a n : Nat) : mnum t a n = mnum s a n := by rw [mnum, mread_congr h, mnum]

theorem tdWord_congr {s t : State} (h : t.mem = s.mem) (b k i : Nat) : tdWord t b k i = tdWord s b k i := mnum_eq_of_mem h _ _

theorem bank_congr {s t : State} (h : rdw t Reg.CYC_GRAPH_BANK_ACTIVE.addr = rdw s Reg.CYC_GRAPH_BANK_ACTIVE.addr) : bank t = bank s := by
  rw [bank, rd, h, bank, rd]

theorem tdPrio_congr {s t : State} (hmem : t.mem = s.mem) (hbank : bank t = bank s) (k : Nat) : tdPrio t (bank t) k = tdPrio s (bank s) k := by
  rw [hbank, tdPrio, tdWord_congr hmem, tdPrio]

/-! ## A task starts -/

theorem eng_startTask (s : State) (e : Nat) (k : Tok) : eng (startTask s e k) e =
    { eng s e with ph := .dmaIn, task := k.task, prio := tdPrio s (bank s) k.task, reserved := none } := eng_setEng_self _ _ _

theorem eng_startTask_other (s : State) {e i : Nat} (k : Tok) (h : i ≠ e) : eng (startTask s e k) i = eng s i := eng_setEng_other _ _ _ h

/-! ## The end of a save (R56) -/

/-- Free bytes change nothing but the number of free values taken. -/
theorem freeBytes_shape (s : State) (n : Nat) : (freeBytes s n).1.length = n ∧ ∃ i, (freeBytes s n).2 = freeAt s i := by
  induction n generalizing s with
  | zero => exact ⟨rfl, s.freeIdx, rfl⟩
  | succ n ih =>
    obtain ⟨hlen, i, hi⟩ := ih (free s).2
    exact ⟨congrArg (· + 1) hlen, i, hi⟩

/-- The task of an engine that saves, as it goes to the resume slot. -/
def savedTask (x : Engine) : Saved := { task := x.task, prio := x.prio, r := if x.mid then x.snap else x.r }

/-- The engine once its task is in the resume slot. -/
def savedEngine (x : Engine) : Engine :=
  { x with resume := some (savedTask x), ph := .idle, mid := false, wrote := [], stores := [], reserved := none }

/-- The engine `e` has saved the context of its task: the bytes and state `f` are in its area, and its resume slot is filled. -/
def contextSaved (s : State) (e : Nat) (f : List Byte × State) : State :=
  setEng (mwrite f.2 (clmAddr (e / 16) (cfg f.2 (Reg.LE_CTX_BASE_BASE e) * 512)) f.1) e (savedEngine (eng s e))

theorem exec_contextSaveDone {e : Fin 64} {s : State} (h : (eng s e).ph = .saving) : exec (.contextSaveDone e) s =
    .next (match (eng s e).reserved with
      | some k => startTask (contextSaved s e (freeBytes s 512)) e k
      | none => contextSaved s e (freeBytes s 512)) := by
  change execContextSaveDone e s = _
  rw [execContextSaveDone, if_pos h]
  rfl

theorem exec_contextSaveDone_idle {e : Fin 64} {s : State} (h : (eng s e).ph ≠ .saving) : exec (.contextSaveDone e) s = .next s := by
  change execContextSaveDone e s = _
  rw [execContextSaveDone, if_neg h]

/-- A save writes the context area and the engine, and takes free values. -/
theorem contextSaved_effect (s : State) (e : Nat) : ∃ t, contextSaved s e (freeBytes s 512) = t ∧ eng t e = savedEngine (eng s e) ∧
    (∀ i, i ≠ e → eng t i = eng s i) ∧ t.sched = s.sched ∧ SameMemBut (clmAddr (e / 16) (cfg s (Reg.LE_CTX_BASE_BASE e) * 512)) 512 s t := by
  obtain ⟨hlen, i, hi⟩ := freeBytes_shape s 512
  generalize freeBytes s 512 = f at hlen hi ⊢
  obtain ⟨l, u⟩ := f
  subst hi
  refine ⟨_, rfl, eng_setEng_self _ _ _, fun j hj => ?_, ?_, fun a ha => mget_mwrite_other _ _ _ _ (by rwa [hlen])⟩
  · rw [contextSaved, eng_setEng_other _ _ _ hj]
    exact eng_congr (mwrite_engs ..) j
  · rw [contextSaved, setEng_sched, mwrite_sched]
    rfl

/-! ## The end of a restore (R56, R103) -/

/-- Pre-emption leaves memory, and of every engine what it runs. -/
theorem tryPreempt_keeps (s : State) (c : Nat) : (tryPreempt s c).mem = s.mem ∧ ∀ e, (eng (tryPreempt s c) e).task = (eng s e).task ∧
    (eng (tryPreempt s c) e).prio = (eng s e).prio ∧ (eng (tryPreempt s c) e).r = (eng s e).r ∧ (eng (tryPreempt s c) e).resume = (eng s e).resume := by
  unfold tryPreempt
  split
  · exact ⟨rfl, fun _ => ⟨rfl, rfl, rfl, rfl⟩⟩
  · split
    · next k v _ _ =>
      dsimp only
      have hengs : (setWell s c 0 ((well s c 0).filter (fun x => x.seq != k.seq))).engs = s.engs := setWell_engs ..
      refine ⟨by simp, fun e => ?_⟩
      rw [eng_congr (incCnt_engs ..)]
      by_cases hv : e = v
      · subst hv
        simp [eng_congr hengs]
      · rw [eng_setEng_other _ _ _ hv, eng_congr hengs]
        exact ⟨rfl, rfl, rfl, rfl⟩
    · exact ⟨rfl, fun _ => ⟨rfl, rfl, rfl, rfl⟩⟩

/-- Nothing is pre-empted where every waiting priority-0 token has already caused a pre-emption. -/
theorem tryPreempt_unclaimed {s : State} {c : Nat} (h : (well s c 0).all (fun k => k.pre) = true) : tryPreempt s c = s := by
  have hnone : (well s c 0).find? (fun k => !k.pre) = none := by
    rw [List.find?_eq_none]
    intro k hk
    simpa using List.all_eq_true.mp h k hk
  unfold tryPreempt
  rw [hnone]
  split <;> rfl

/-- The engine that goes on with the task of its resume slot. -/
def restoredEngine (x : Engine) (q : Saved) : Engine :=
  { x with ph := .running, task := q.task, prio := q.prio, r := q.r, snap := q.r, resume := none }

theorem exec_contextRestoreDone {e : Fin 64} {s : State} {q : Saved} (h : (eng s e).ph = .restoring) (hq : (eng s e).resume = some q) :
    exec (.contextRestoreDone e) s = .next (tryPreempt (setEng s e (restoredEngine (eng s e) q)) (e / 16)) := by
  change execContextRestoreDone e s = _
  rw [execContextRestoreDone]
  simp only [h, hq, restoredEngine]

theorem exec_contextRestoreDone_idle {e : Fin 64} {s : State} (h : (eng s e).ph ≠ .restoring) : exec (.contextRestoreDone e) s = .next s := by
  change execContextRestoreDone e s = _
  unfold execContextRestoreDone
  dsimp only
  split
  · next hph _ => exact absurd hph h
  · rfl

/-- Settles O22: a save fills the resume slot and then lets a reserved token start; a restore makes the saved task the running one before the cluster may pre-empt again. -/
theorem contextsOfPreemptedTasks : Obligations.ContextsOfPreemptedTasks := by
  unfold Obligations.ContextsOfPreemptedTasks
  intro e s
  dsimp only
  refine ⟨fun hph => ⟨_, exec_contextSaveDone hph, ?_⟩, exec_contextSaveDone_idle, fun q hph hq => ⟨_, exec_contextRestoreDone hph hq, ?_⟩,
    exec_contextRestoreDone_idle⟩
  · obtain ⟨t, ht, hself, hothers, hsched, hmem⟩ := contextSaved_effect s e
    rw [ht]
    cases hres : (eng s e).reserved with
    | none =>
      refine ⟨by rw [hself]; rfl, hmem, hothers, fun _ => by rw [hself]; rfl, nofun⟩
    | some k =>
      refine ⟨by rw [eng_startTask, hself]; rfl, hmem, fun i hi => (eng_startTask_other _ k hi).trans (hothers i hi), nofun, ?_⟩
      rintro _ ⟨⟩
      rw [eng_startTask]
      refine ⟨rfl, rfl, rfl, ?_⟩
      change t.sched.ran ++ _ = _
      rw [hsched]
  · obtain ⟨hmem, hrun⟩ := tryPreempt_keeps (setEng s e (restoredEngine (eng s e) q)) (e / 16)
    obtain ⟨htask, hprio, hr, hresume⟩ := hrun e
    rw [eng_setEng_self] at htask hprio hr hresume
    refine ⟨htask, hprio, hr, hresume, hmem, fun hall => ?_⟩
    rw [tryPreempt_unclaimed (s := setEng s e (restoredEngine (eng s e) q)) hall, eng_setEng_self]
    exact ⟨rfl, fun i hi => eng_setEng_other _ _ _ hi⟩

/-! ## The wells (R53) -/

theorem wellHead_some_lt {s : State} {c : Nat} {w : Nat × Tok} (h : wellHead s c = some w) : w.1 < 4 ∧ well s c w.1 ≠ [] := by
  obtain ⟨p, hp, hw⟩ := List.exists_of_findSome?_eq_some h
  obtain ⟨k, hk, rfl⟩ := Option.map_eq_some_iff.mp hw
  exact ⟨List.mem_range.mp hp, fun hnil => by simp [hnil] at hk⟩

theorem wellHead_empty {s : State} {c : Nat} (h : ∀ p, p < 4 → well s c p = []) : wellHead s c = none := by
  cases hw : wellHead s c with
  | none => rfl
  | some w =>
    obtain ⟨hlt, hne⟩ := wellHead_some_lt hw
    exact absurd (h _ hlt) hne

theorem wellHead_first {s : State} {c p : Nat} {k : Tok} {r : List Tok} (hp : p < 4) (h : well s c p = k :: r) (hlow : ∀ q, q < p → well s c q = []) :
    wellHead s c = some (p, k) := by
  rw [wellHead, List.findSome?_eq_some_iff]
  refine ⟨List.range p, p, List.range' (p + 1) (3 - p), ?_, by rw [h]; rfl, fun q hq => by rw [hlow q (List.mem_range.mp hq)]; rfl⟩
  interval_cases p <;> rfl

theorem stealTok_lt {s : State} {c : Nat} {w : Nat × Tok} (h : stealTok s c = some w) : w.1 < 4 := by
  unfold stealTok at h
  split at h
  · obtain ⟨p, hp, hw⟩ := List.exists_of_findSome?_eq_some h
    obtain ⟨k, -, rfl⟩ := Option.map_eq_some_iff.mp hw
    exact List.mem_range.mp hp
  · exact absurd h (by simp)

/-- A well that is set changes of the registers only its PEAK. -/
theorem rdw_setWell_other (s : State) (c p : Nat) (l : List Tok) {j : Nat} (h : j ≠ (Reg.CLU_WELL_PEAK c p).addr) : rdw (setWell s c p l) j = rdw s j := by
  unfold setWell
  dsimp only
  split
  · exact rdw_wr_other _ _ _ h
  · rfl

theorem well_setWell_self (s : State) (c p : Nat) (l : List Tok) : well (setWell s c p l) c p = l := by
  have h : (setWell s c p l).sched.wells = tput (fun _ => []) s.sched.wells (c * 4 + p) l := by
    unfold setWell
    dsimp only
    split <;> rfl
  rw [well, h, tget_tput_self]

/-- Taking a token from a well leaves memory, the engines and the bank in service. -/
theorem dropTok_keeps (s : State) {c p : Nat} (k : Tok) (hc : c < 4) (hp : p < 4) : (dropTok s c p k).mem = s.mem ∧ bank (dropTok s c p k) = bank s ∧
    ∀ e, eng (dropTok s c p k) e = eng s e := by
  refine ⟨setWell_mem .., bank_congr (rdw_setWell_other _ _ _ _ ?_), eng_congr (setWell_engs ..)⟩
  simp only [Reg.CYC_GRAPH_BANK_ACTIVE, Reg.CLU_WELL_PEAK]
  omega

/-- An event counter of a whole register counts one more. -/
theorem rdw_incCnt_self (s : State) {f : Fld} (hk : Aside f.page f.addr) (hlo : f.lo = 0) (hhi : f.hi = 31) :
    rdw (incCnt s f) f.addr = (rdw s f.addr + 1) % 2 ^ 32 := by
  have hrd : ∀ t, rd t f = rdw t f.addr := fun t => by
    rw [rd, hlo, hhi, bits, Nat.pow_zero, Nat.div_one]
    exact Nat.mod_eq_of_lt (rdw_lt t _)
  have h := rd_incCnt_self (s := s) hk (by omega) (by omega)
  rwa [hrd, hrd, hlo, hhi] at h

/-! ## The order of selection (R53) -/

/-- The own queue's head comes first where no well of a higher priority holds a token. -/
theorem ownHead_first {s : State} {e : Nat} {k : Tok} {r : List Tok} (h : (eng s e).lq = k :: r)
    (hlow : ∀ p, p < tdPrio s (bank s) k.task → p < 4 → well s (e / 16) p = []) : ownHead s e = some k := by
  unfold ownHead
  rw [h]
  cases hw : wellHead s (e / 16) with
  | none => rfl
  | some w =>
    obtain ⟨hlt, hne⟩ := wellHead_some_lt hw
    have hle : tdPrio s (bank s) k.task ≤ w.1 := Nat.le_of_not_lt fun hgt => hne (hlow _ hgt hlt)
    simp [hle]

/-- The own queue's head comes after the head of a well of a higher priority. -/
theorem ownHead_after_well {s : State} {e : Nat} {w : Nat × Tok} (hw : wellHead s (e / 16) = some w)
    (h : ∀ k, (eng s e).lq.head? = some k → w.1 < tdPrio s (bank s) k.task) : ownHead s e = none := by
  unfold ownHead
  rw [hw]
  cases hq : (eng s e).lq.head? with
  | none => rfl
  | some k => simp [h k hq]

theorem ownHead_empty {s : State} {e : Nat} (h : (eng s e).lq = []) : ownHead s e = none := by
  unfold ownHead
  rw [h]
  rfl

theorem takeWork_own {s : State} {e : Nat} {k : Tok} (h : ownHead s e = some k) :
    takeWork s e = startTask (setEng s e { eng s e with lq := (eng s e).lq.tail }) e k := by
  unfold takeWork
  simp only [h]

theorem takeWork_well {s : State} {e : Nat} {w : Nat × Tok} (h : ownHead s e = none) (hw : wellHead s (e / 16) = some w) :
    takeWork s e = startTask (dropTok s (e / 16) w.1 w.2) e w.2 := by
  unfold takeWork
  simp only [h, hw]

theorem takeWork_sibling {s : State} {e : Nat} {b : Nat × Tok} (h : ownHead s e = none) (hw : wellHead s (e / 16) = none) (hb : oldestSibling s e = some b) :
    takeWork s e = incCnt (startTask (setEng s b.1 { eng s b.1 with lq := (eng s b.1).lq.tail }) e b.2) (Reg.CLU_LSTEAL_CNT_LSTEAL_CNT (e / 16)) := by
  unfold takeWork
  simp only [h, hw, hb]

theorem takeWork_steal {s : State} {e : Nat} {t : Nat × Tok} (h : ownHead s e = none) (hw : wellHead s (e / 16) = none) (hb : oldestSibling s e = none)
    (ht : stealTok s (e / 16) = some t) :
    takeWork s e = incCnt (startTask (dropTok s ((e / 16 + 1) % 4) t.1 t.2) e t.2) (Reg.CLU_XSTEAL_CNT_XSTEAL_CNT (e / 16)) := by
  unfold takeWork
  simp only [h, hw, hb, ht]

theorem takeWork_nothing {s : State} {e : Nat} (h : ownHead s e = none) (hw : wellHead s (e / 16) = none) (hb : oldestSibling s e = none)
    (ht : stealTok s (e / 16) = none) : takeWork s e = s := by
  unfold takeWork
  simp only [h, hw, hb, ht]

/-- In `t` the DMA-in of token `k` has begun on engine `e`, with the priority that its descriptor has in `s`, and memory is that of `s`. -/
def Begins (s t : State) (e : Nat) (k : Tok) : Prop :=
  (eng t e).ph = .dmaIn ∧ (eng t e).task = k.task ∧ (eng t e).prio = tdPrio s (bank s) k.task ∧ t.mem = s.mem

/-- A task starts in a state that agrees with `s` in memory and in the bank in service. -/
theorem startTask_begins {s u : State} (e : Nat) (k : Tok) (hmem : u.mem = s.mem) (hbank : bank u = bank s) : Begins s (startTask u e k) e k := by
  rw [Begins, eng_startTask]
  exact ⟨rfl, rfl, tdPrio_congr hmem hbank _, hmem⟩

theorem Begins.incCnt {s t : State} {e : Nat} {k : Tok} (h : Begins s t e k) (f : Fld) : Begins s (incCnt t f) e k := by
  rw [Begins, eng_congr (incCnt_engs t f), incCnt_mem]
  exact h

/-! ## ENGINE_SELECT (R53, R55) -/

theorem exec_engineSelect_busy {e : Fin 64} {s : State} (h : (eng s e).ph ≠ .idle ∨ s.sched.part.getLsbD (e / 16) = false) :
    exec (.engineSelect e) s = .next s := by
  change execEngineSelect e s = _
  rw [execEngineSelect]
  refine congrArg _ (if_neg ?_)
  rintro ⟨hidle, hpart⟩
  rcases h with h | h
  · exact h hidle
  · rw [h] at hpart
    exact absurd hpart (by decide)

section
variable {e : Fin 64} {s : State} (hidle : (eng s e).ph = .idle) (hpart : s.sched.part.getLsbD (e / 16) = true)
include hidle hpart

theorem exec_engineSelect_resume (h : (eng s e).resume.isSome = true) :
    exec (.engineSelect e) s = .next (setEng s e { eng s e with ph := .restoring }) := by
  change execEngineSelect e s = _
  simp only [execEngineSelect, hidle, hpart, h, and_self, if_true]

variable (hresume : (eng s e).resume = none)
include hresume

theorem exec_engineSelect_withdrawn (h : withdrawn s e = true) : exec (.engineSelect e) s = .next s := by
  change execEngineSelect e s = _
  simp [execEngineSelect, hidle, hpart, hresume, h]

theorem exec_engineSelect_prefetch {p : PSlot} (h : withdrawn s e = false) (hpref : isPref s e = true) (hp : (eng s e).pslot = some p) :
    exec (.engineSelect e) s = .next (startTask (setEng s e { eng s e with pslot := none, taken := some p }) e p.tok) := by
  change execEngineSelect e s = _
  simp [execEngineSelect, hidle, hpart, hresume, h, hpref, hp]

theorem exec_engineSelect_empty_slot (h : withdrawn s e = false) (hpref : isPref s e = true) (hp : (eng s e).pslot = none) :
    exec (.engineSelect e) s = .next s := by
  change execEngineSelect e s = _
  simp [execEngineSelect, hidle, hpart, hresume, h, hpref, hp]

theorem exec_engineSelect_work (h : withdrawn s e = false) (hpref : isPref s e = false) : exec (.engineSelect e) s = .next (takeWork s e) := by
  change execEngineSelect e s = _
  simp [execEngineSelect, hidle, hpart, hresume, h, hpref]

end

/-- Settles O23: what a free engine takes, in the order in which it looks for work. -/
theorem engineSelection : Obligations.EngineSelection := by
  unfold Obligations.EngineSelection
  intro e s
  dsimp only
  have hc : e.val / 16 < 4 := by omega
  refine ⟨exec_engineSelect_busy, exec_engineSelect_resume, fun hidle hpart hresume => ⟨exec_engineSelect_withdrawn hidle hpart hresume,
    fun hin hpref => ?_, fun hin hpref => ?_⟩⟩
  · refine ⟨fun p hp => ?_, exec_engineSelect_empty_slot hidle hpart hresume hin hpref⟩
    rw [exec_engineSelect_prefetch hidle hpart hresume hin hpref hp]
    refine ⟨_, ⟨rfl, startTask_begins e p.tok rfl rfl⟩, ?_, ?_⟩ <;> rw [eng_startTask, eng_setEng_self]
  · rw [exec_engineSelect_work hidle hpart hresume hin hpref]
    refine ⟨fun k r hq hlow => ?_, fun p k r hp hw hlow hq => ?_, fun i k hq hw hb => ?_, fun p k hq hw hb ht => ?_, fun hq hw hb ht => ?_⟩
    · rw [takeWork_own (ownHead_first hq hlow)]
      refine ⟨_, ⟨rfl, startTask_begins e k rfl rfl⟩, ?_⟩
      rw [eng_startTask, eng_setEng_self, hq]
      rfl
    · have hhead := wellHead_first hp hw hlow
      obtain ⟨hmem, hbank, heng⟩ := dropTok_keeps s k hc hp
      rw [takeWork_well (ownHead_after_well hhead hq) hhead]
      refine ⟨_, ⟨rfl, startTask_begins e k hmem hbank⟩, ?_, ?_⟩
      · rw [eng_startTask, heng]
      · exact well_setWell_self _ _ _ _
    · rw [takeWork_sibling (ownHead_empty hq) (wellHead_empty hw) hb]
      refine ⟨_, ⟨rfl, (startTask_begins e k rfl rfl).incCnt _⟩, rdw_incCnt_self _ ⟨?_, .inl ?_⟩ rfl rfl⟩ <;>
        simp only [Reg.CLU_LSTEAL_CNT_LSTEAL_CNT] <;> omega
    · obtain ⟨hmem, hbank, heng⟩ := dropTok_keeps s k (c := (e.val / 16 + 1) % 4) (by omega) (stealTok_lt ht)
      rw [takeWork_steal (ownHead_empty hq) (wellHead_empty hw) hb ht]
      refine ⟨_, ⟨rfl, (startTask_begins e k hmem hbank).incCnt _⟩, ?_⟩
      have hpeak : rdw (startTask (dropTok s ((e.val / 16 + 1) % 4) p k) e k) (Reg.CLU_XSTEAL_CNT_XSTEAL_CNT (e / 16)).addr =
          rdw s (Reg.CLU_XSTEAL_CNT_XSTEAL_CNT (e / 16)).addr := by
        refine rdw_setWell_other s _ p _ ?_
        have := stealTok_lt ht
        simp only [Reg.CLU_XSTEAL_CNT_XSTEAL_CNT, Reg.CLU_WELL_PEAK]
        omega
      rw [rdw_incCnt_self _ ⟨?_, .inl ?_⟩ rfl rfl, hpeak] <;> simp only [Reg.CLU_XSTEAL_CNT_XSTEAL_CNT] <;> omega
    · rw [takeWork_nothing (ownHead_empty hq) (wellHead_empty hw) hb ht]

end Sys2Proof.Machine
end

section
/-! PROOFS. The entry of a task whose number lies past the 8,192 tasks of the device (R41, R102). -/

namespace Sys2Proof.Machine

/-- Engine 0 is in the DMA-in of a task whose number puts its descriptor into XMEM of the engine itself: a task number of the state has no bound.
Its list, at the start of cluster 0's memory, is one entry, which brings its own second word to word 2 of XMEM, the descriptor's entry point. -/
def descriptorInXmem : State :=
  setEng (msetNum (msetNum (setDom State.reset (dCLU 0) { st := .on }) 0x50000000 4 0x50000004) 0x50000004 4 0x80020001) 0
    { ph := .dmaIn, task := 2 ^ 21 + 256, prio := 2 }

/-- Refutes O24: its second clause reads the entry point off the descriptor as it stands before the DMA-in, and in the state above the DMA-in
writes that descriptor, so that the task enters at bundle 2 where the statement asks for bundle 0. -/
theorem not_taskEntryAndExit : ¬ Obligations.TaskEntryAndExit := by
  unfold Obligations.TaskEntryAndExit
  intro h
  obtain ⟨-, hentry, -⟩ := h 0 descriptorInXmem
  obtain ⟨t, ht, hpc, -⟩ := hentry (by decide +kernel) (by decide +kernel)
  obtain rfl : _ = t := Host.Outcome.next.inj ht
  exact absurd hpc (by decide +kernel)

end Sys2Proof.Machine
end

section
/-! PROOFS. A transmission that is cut at a port whose error counter sends a message (R15, R197, R333). -/

namespace Sys2Proof.Machine

/-- Port 0 is live and has sent one frame; its count of cut transmissions is full, the SAT event of its page is enabled, and the vector of the
ports is unmasked. -/
def cutAtFullCount : State :=
  let s := [dNET, dPort 0, dHOST].foldl (fun s d => setDom s d { st := .on }) State.reset
  let s := wrs s [(Reg.PORT_TXCUT_ERR_COUNT 0, 65535), (Reg.HDR_PAGE_CTRL_EN 0x60, 1)]
  let s := wrw (wrw s (0x60 * 0x1000 + 0x14) 2) (msixKey (vecOf 0x60) 3) 0
  { s with ctl := tput regReset s.ctl (Reg.PORT_CTRL_EN 0).addr 1, wire := [.frame 0 0 [0]] }

/-- Refutes O40: it has nothing but the cut frame leave the package, while TX_CUT counts the cut first, and a counter that is full sets SAT of its
page, whose event sends a message. In the state above that message leaves behind the cut frame. -/
theorem not_guardianAndLines : ¬ Obligations.GuardianAndLines := by
  unfold Obligations.GuardianAndLines
  rintro ⟨hport, -⟩
  obtain ⟨-, hlive, -⟩ := hport 0 cutAtFullCount
  obtain ⟨-, ⟨t, ht, -, -, hwire⟩, -⟩ := hlive (by decide +kernel)
  obtain rfl : _ = t := Host.Outcome.next.inj ht
  obtain ⟨n, hn⟩ := hwire [] 0 [0] (by decide +kernel) (by decide +kernel)
  have hone : List.length _ = 1 := congrArg List.length hn
  exact absurd hone (by decide +kernel)

end Sys2Proof.Machine
end

section
/-! PROOFS. Pointers, local memory and cluster memory of a loop engine (R76, R80, R82, R83). -/

namespace Sys2Proof.Machine

/-! ## Pointers (R83) -/

/-- A pointer without a length addresses modulo 1,024. -/
theorem wrapPtr_whole {p : Ptr} (a : Int) (h : p.l = 0#11) : (wrapPtr p a : Int) = a % 1024 := by
  rw [wrapPtr, if_pos (by exact h), Int.toNat_of_nonneg (Int.emod_nonneg _ (by decide))]

/-- A pointer with a length stays within its range. -/
theorem wrapPtr_range {p : Ptr} (a : Int) (h : p.l ≠ 0#11) :
    ∃ o : Nat, o < p.l.toNat ∧ wrapPtr p a = (p.b.toNat + o) % 1024 ∧ (a - p.b.toNat - o) % p.l.toNat = 0 := by
  have hpos : (0 : Int) < p.l.toNat := by
    have : p.l.toNat ≠ 0 := fun h0 => h (BitVec.eq_of_toNat_eq h0)
    omega
  obtain ⟨o, ho⟩ := Int.eq_ofNat_of_zero_le (Int.emod_nonneg (a - p.b.toNat) hpos.ne')
  have hlt := Int.emod_lt_of_pos (a - p.b.toNat) hpos
  refine ⟨o, by omega, ?_, ?_⟩
  · rw [wrapPtr, if_neg (by exact h), ho]
    rfl
  · rw [← ho]
    exact Int.emod_eq_zero_of_dvd (Int.dvd_self_sub_emod)

/-- The registers after the post-modify of R82, by its code. -/
theorem modPtr_eq (x : Engine) (k : Fin 8) (md : Fin 4) (n : Int) : modPtr x k md n =
    if md = 0 then x.r else setPtr x.r k { x.r.p[k] with
      a := if md = 1 then (ptrStep x.snap.p[k] n).a else if md = 2 then (ptrStep x.snap.p[k] (-n)).a else (ptrStep x.snap.p[k] x.snap.p[k].m.toInt).a } := by
  fin_cases md <;> rfl

theorem ptrWord_zero (q : Ptr) : ptrWord q 0 = wrapPtr q q.a.toNat := by rw [ptrWord, Int.add_zero]

/-! ## What a slot does (R79, R80) -/

/-- What follows a slot: the bundle ends with its last one. -/
def slotEnd (last : Bool) (e : Fin 64) (u : State) : State := if last = true then endBundle u e else u

section
variable {s : State} {e : Fin 64} {x : Engine} (hrun : (eng s e).ph = .running) (hx : openBundle (eng s e) = x)
include hrun hx

/-- A slot that writes nothing twice and raises no fault makes its writes and adds its stores to the bundle's. -/
theorem slotOp_writes (last : Bool) {op : Engine → Eff} (f : Eff) (hop : op x = f) (hf : f.fault = none) (hdup : hasDup (x.wrote ++ f.dst) = false) :
    slotOp s e last op = slotEnd last e (setEng s e { x with r := f.r, wrote := x.wrote ++ f.dst, stores := x.stores ++ f.stores }) := by
  unfold slotOp
  simp only [hrun, if_true, hx, hop, hdup, hf]
  rfl

/-- A slot that only writes registers, none twice. -/
theorem slotOp_writes_regs (last : Bool) {op : Engine → Eff} {r : LeRegs} {d : List Nat} (hop : op x = .regs r d) (hdup : hasDup (x.wrote ++ d) = false) :
    slotOp s e last op = slotEnd last e (setEng s e { x with r := r, wrote := x.wrote ++ d }) := by
  have h := slotOp_writes hrun hx last _ hop rfl hdup
  rwa [Eff.regs, List.append_nil] at h

/-- A slot that raises a fault ends in the engine's fault state, with ILLEGAL where it also writes something twice. -/
theorem slotOp_faults (last : Bool) {op : Engine → Eff} (f : Eff) {c : EngCause} (hop : op x = f) (hf : f.fault = some c) :
    slotOp s e last op = engineFault (setEng s e { x with issued := x.issued + 1 }) e x.task x.snap.pc
      (if hasDup (x.wrote ++ f.dst) then .illegal else c) := by
  unfold slotOp
  simp only [hrun, if_true, hx, hop, hf]
  split <;> rfl

/-- A slot that writes what the bundle has written is illegal (R80). -/
theorem slotOp_double (last : Bool) {op : Engine → Eff} (f : Eff) (hop : op x = f) (hdup : hasDup (x.wrote ++ f.dst) = true) :
    slotOp s e last op = engineFault (setEng s e { x with issued := x.issued + 1 }) e x.task x.snap.pc .illegal := by
  unfold slotOp
  simp only [hrun, if_true, hx, hop, hdup]

/-- An illegal slot ends in the engine's fault state whatever the bundle has written (R80). -/
theorem slotOp_illegal (last : Bool) {op : Engine → Eff} {r : LeRegs} {d : List Nat} (hop : op x = .bad r .illegal d) :
    slotOp s e last op = engineFault (setEng s e { x with issued := x.issued + 1 }) e x.task x.snap.pc .illegal := by
  have h := slotOp_faults hrun hx last _ hop rfl
  rwa [ite_self] at h

end

/-- A register that the bundle has written is written twice by a slot that writes it. -/
theorem hasDup_of_mem {l m : List Nat} {a : Nat} (hl : a ∈ l) (hm : a ∈ m) : hasDup (l ++ m) = true := by
  induction l with
  | nil => exact absurd hl List.not_mem_nil
  | cons b r ih =>
    rw [List.cons_append, hasDup, Bool.or_eq_true]
    rcases List.mem_cons.mp hl with rfl | hr
    · exact .inl (List.contains_iff_mem.mpr (List.mem_append_right _ hm))
    · exact .inr (ih hr)

theorem dAt_one {dn d1 : Fin 32} (h : d1.val = dn.val + 1) : dAt dn 1 = d1 ∧ (dn == 31) = false := by
  refine ⟨Fin.ext ?_, beq_false_of_ne fun h31 => ?_⟩
  · have := d1.isLt
    simp only [dAt]
    omega
  · subst h31
    exact absurd (h ▸ d1.isLt) (by decide)

/-! ## Loads and stores of local memory (R57, R74, R82) -/

section
variable {s : State} {e : Fin 64} {x : Engine} (hrun : (eng s e).ph = .running) (hx : openBundle (eng s e) = x) (last y : Bool) (p md : Fin 4) {dn : Fin 32}
include hrun hx

theorem exec_ld (hdup : hasDup (x.wrote ++ ([wXY y, wD dn] ++ modDst (xyPtr y p) md)) = false) :
    exec (.ld e y p dn md last) s = .next (slotEnd last e (setEng s e { x with
      r := setD (modPtr x (xyPtr y p) md 1) dn (xyRead s e y (engHalf x) (ptrWord x.snap.p[xyPtr y p] 0)),
      wrote := x.wrote ++ ([wXY y, wD dn] ++ modDst (xyPtr y p) md) })) :=
  congrArg _ (slotOp_writes_regs hrun hx last rfl hdup)

theorem exec_ld2 {d1 : Fin 32} (hd : d1.val = dn.val + 1) (hdup : hasDup (x.wrote ++ ([wXY y, wD dn, wD d1] ++ modDst (xyPtr y p) md)) = false) :
    exec (.ld2 e y p dn md last) s = .next (slotEnd last e (setEng s e { x with
      r := setD (setD (modPtr x (xyPtr y p) md 2) dn (xyRead s e y (engHalf x) (ptrWord x.snap.p[xyPtr y p] 0))) d1
        (xyRead s e y (engHalf x) (ptrWord x.snap.p[xyPtr y p] 1)),
      wrote := x.wrote ++ ([wXY y, wD dn, wD d1] ++ modDst (xyPtr y p) md) })) := by
  obtain ⟨rfl, hlast⟩ := dAt_one hd
  refine congrArg _ (slotOp_writes_regs hrun hx last ?_ hdup)
  rw [hlast]
  rfl

/-- What ST stores: the bytes of Dn at the word that the pointer addresses at offset `i`. -/
def wordStore (x : Engine) (e : Nat) (y : Bool) (k : Fin 8) (d : Fin 32) (i : Int) : Nat × List Byte :=
  (xyAddr e y (engHalf x) (ptrWord x.snap.p[k] i), leBytes 4 x.snap.d[d].toNat)

theorem exec_st (hdup : hasDup (x.wrote ++ (wXY y :: modDst (xyPtr y p) md)) = false) :
    exec (.st e y p dn md last) s = .next (slotEnd last e (setEng s e { x with
      r := modPtr x (xyPtr y p) md 1, wrote := x.wrote ++ (wXY y :: modDst (xyPtr y p) md), stores := x.stores ++ [wordStore x e y (xyPtr y p) dn 0] })) :=
  congrArg _ (slotOp_writes hrun hx last
    { r := modPtr x (xyPtr y p) md 1, dst := wXY y :: modDst (xyPtr y p) md, stores := [wordStore x e y (xyPtr y p) dn 0] } rfl rfl hdup)

theorem exec_st2 {d1 : Fin 32} (hd : d1.val = dn.val + 1) (hdup : hasDup (x.wrote ++ (wXY y :: modDst (xyPtr y p) md)) = false) :
    exec (.st2 e y p dn md last) s = .next (slotEnd last e (setEng s e { x with
      r := modPtr x (xyPtr y p) md 2, wrote := x.wrote ++ (wXY y :: modDst (xyPtr y p) md),
      stores := x.stores ++ [wordStore x e y (xyPtr y p) dn 0, wordStore x e y (xyPtr y p) d1 1] })) := by
  obtain ⟨rfl, hlast⟩ := dAt_one hd
  refine congrArg _ (slotOp_writes hrun hx last
    { r := modPtr x (xyPtr y p) md 2, dst := wXY y :: modDst (xyPtr y p) md,
      stores := [wordStore x e y (xyPtr y p) dn 0, wordStore x e y (xyPtr y p) (dAt dn 1) 1] } ?_ rfl hdup)
  rw [hlast]
  rfl

end

/-! ## Cluster memory (R76) -/

/-- An address within cluster memory is aligned down. -/
theorem clmOf_inside {d : W32} {n : Nat} {b : Fin 32} (h : d.toNat + n * b.val < 2 ^ 18) :
    clmOf d n b = some (d.toNat + n * b.val - (d.toNat + n * b.val) % n) := if_pos h

theorem clmOf_outside {d : W32} {n : Nat} {b : Fin 32} (h : 2 ^ 18 ≤ d.toNat + n * b.val) : clmOf d n b = none := if_neg (Nat.not_lt.mpr h)

section
variable {s : State} {e : Fin 64} {x : Engine} (hrun : (eng s e).ph = .running) (hx : openBundle (eng s e) = x) (last : Bool) {a b : Fin 32} {n : Nat}
  {f : Engine → Nat → Eff}
include hrun hx

/-- A load or store within cluster memory does what `f` says of the address. -/
theorem clmOp_inside (h : x.snap.d[a].toNat + n * b.val < 2 ^ 18) {g : Eff}
    (hg : f x (clmAddr (e.val / 16) (x.snap.d[a].toNat + n * b.val - (x.snap.d[a].toNat + n * b.val) % n)) = g) (hf : g.fault = none)
    (hdup : hasDup (x.wrote ++ g.dst) = false) :
    clmOp s e last a b n f = slotEnd last e (setEng s e { x with r := g.r, wrote := x.wrote ++ g.dst, stores := x.stores ++ g.stores }) := by
  refine slotOp_writes hrun hx last g ?_ hf hdup
  rw [clmOf_inside h]
  exact hg

/-- A load within cluster memory writes its register. -/
theorem clmOp_load (h : x.snap.d[a].toNat + n * b.val < 2 ^ 18) {r : LeRegs} {d : List Nat}
    (hg : f x (clmAddr (e.val / 16) (x.snap.d[a].toNat + n * b.val - (x.snap.d[a].toNat + n * b.val) % n)) = .regs r d)
    (hdup : hasDup (x.wrote ++ d) = false) : clmOp s e last a b n f = slotEnd last e (setEng s e { x with r := r, wrote := x.wrote ++ d }) := by
  have h := clmOp_inside hrun hx last h hg rfl hdup
  rwa [Eff.regs, List.append_nil] at h

/-- A load or store outside cluster memory meets CLMEM_RANGE, or is illegal where it writes something twice. -/
theorem clmOp_outside (h : 2 ^ 18 ≤ x.snap.d[a].toNat + n * b.val) : clmOp s e last a b n f =
    engineFault (setEng s e { x with issued := x.issued + 1 }) e x.task x.snap.pc (if hasDup (x.wrote ++ (f x 0).dst) then .illegal else .clmemRange) := by
  refine slotOp_faults hrun hx last (.bad x.r .clmemRange (f x 0).dst) ?_ rfl
  rw [clmOf_outside h]

end

/-! ## Pointers and counters as operands (R83, R88) -/

section
variable {s : State} {e : Fin 64} {x : Engine} (hrun : (eng s e).ph = .running) (hx : openBundle (eng s e) = x) (last : Bool)
include hrun hx

/-- What an operation does that sets pointer `k`: its write, or ILLEGAL where the bundle has already written the pointer. -/
theorem exec_pointer {i : Instr} {op : Engine → Eff} {k : Fin 8} {k5 : Fin 32} {r : LeRegs} (hi : exec i s = .next (slotOp s e last op))
    (hop : op x = .unless (decide (7 < k5.val)) x.r (.regs r [wC, 64 + k.val])) (hk : k5.val = k.val) :
    (hasDup (x.wrote ++ [wC, 64 + k.val]) = false →
      exec i s = .next (slotEnd last e (setEng s e { x with r := r, wrote := x.wrote ++ [wC, 64 + k.val] }))) ∧
    (64 + k.val ∈ x.wrote → exec i s = .next (engineFault (setEng s e { x with issued := x.issued + 1 }) e x.task x.snap.pc .illegal)) := by
  have hregs : op x = .regs r [wC, 64 + k.val] := by
    rw [hop, Eff.unless, decide_eq_false (by omega)]
    rfl
  rw [hi]
  exact ⟨fun hdup => congrArg _ (slotOp_writes_regs hrun hx last hregs hdup),
    fun hmem => congrArg _ (slotOp_double hrun hx last _ hregs (hasDup_of_mem hmem (by simp [Eff.regs])))⟩

/-- A register that does not exist is illegal. -/
theorem slotOp_absent {op : Engine → Eff} {c : Bool} {f : Eff} (hop : op x = .unless c x.r f) (hc : c = true) :
    slotOp s e last op = engineFault (setEng s e { x with issued := x.issued + 1 }) e x.task x.snap.pc .illegal :=
  slotOp_illegal hrun hx last (r := x.r) (d := []) (by rw [hop, hc]; rfl)

/-- An operation that reads a register that exists into Dd. -/
theorem dgOp_reads {d : Fin 32} {bad : Bool} {v : Engine → Int} (hbad : bad = false) (hdup : hasDup (x.wrote ++ [wC, wD d]) = false) :
    dgOp s e last bad d v = slotEnd last e (setEng s e { x with r := setD x.r d (v x), wrote := x.wrote ++ [wC, wD d] }) := by
  subst hbad
  exact slotOp_writes_regs hrun hx last rfl hdup

end

section
variable {s : State} {e : Fin 64} {x : Engine} (hrun : (eng s e).ph = .running) (hx : openBundle (eng s e) = x) (last : Bool) {d : Fin 32}
  (hdup : hasDup (x.wrote ++ [wC, wD d]) = false)
include hrun hx hdup

theorem exec_getpa {a : Fin 32} (ha : a.val < 8) : exec (.getpa e d a last) s =
    .next (slotEnd last e (setEng s e { x with r := setD x.r d x.snap.p[pNum a].a.toNat, wrote := x.wrote ++ [wC, wD d] })) :=
  congrArg Host.Outcome.next (dgOp_reads hrun hx last (decide_eq_false (Nat.not_lt.mpr (Nat.le_of_lt_succ ha))) hdup)

theorem exec_getlc {a : Fin 32} (ha : a.val < 2) : exec (.getlc e d a last) s =
    .next (slotEnd last e (setEng s e { x with r := setD x.r d x.snap.lc[Fin.ofNat 2 a.val].ctr.toNat, wrote := x.wrote ++ [wC, wD d] })) :=
  congrArg Host.Outcome.next (dgOp_reads hrun hx last (decide_eq_false (Nat.not_lt.mpr (Nat.le_of_lt_succ ha))) hdup)

end

theorem pNum_of_eq {k : Fin 8} {k5 : Fin 32} (h : k5.val = k.val) : pNum k5 = k := Fin.ext (by simp only [pNum]; omega)

/-- Settles O35: each clause is what the slot does, with the pointer after it and the address that it reaches. -/
theorem localAndClusterMemory : Obligations.LocalAndClusterMemory := by
  unfold Obligations.LocalAndClusterMemory
  refine ⟨fun p a => ⟨wrapPtr_whole a, wrapPtr_range a⟩, fun s e last y p md dn a b g c hrun => ?_⟩
  intro x fin half word
  have hx : openBundle (eng s e) = x := rfl
  refine ⟨fun k hk => ?_, fun n hn => ?_, fun k k5 hk => ?_, fun i hi => ?_⟩
  · obtain rfl : k = xyPtr y p := Fin.ext hk
    intro q moved ptr
    have hmoved : ∀ n, moved n = modPtr x (xyPtr y p) md n := fun n => (modPtr_eq x _ md n).symm
    simp only [hmoved, ← ptrWord_zero]
    exact ⟨exec_ld hrun hx last y p md, fun d1 hd hdup => exec_ld2 hrun hx last y p md hd hdup,
      fun hdup => ⟨exec_st hrun hx last y p md hdup, fun d1 hd => exec_st2 hrun hx last y p md hd hdup⟩⟩
  · intro o at_
    refine ⟨fun hin => ⟨?_, ?_, fun hdup => ⟨?_, ?_⟩⟩, fun hout i hi => ?_⟩
    · rintro rfl hdup
      exact congrArg _ (clmOp_load hrun hx last hin rfl hdup)
    · rintro rfl hdup
      exact congrArg _ (clmOp_load hrun hx last hin rfl hdup)
    · rintro rfl
      exact congrArg _ (clmOp_inside hrun hx last hin (g := { r := x.r, dst := [wC], stores := [(at_, leBytes 4 x.snap.d[dn].toNat)] }) rfl rfl hdup)
    · rintro rfl
      exact congrArg _ (clmOp_inside hrun hx last hin (g := { r := x.r, dst := [wC], stores := [(at_, leBytes 8 x.snap.g[g].toNat)] }) rfl rfl hdup)
    · rcases hn with rfl | rfl <;> (obtain rfl | hi := List.mem_cons.mp hi; rotate_left; obtain rfl := List.mem_singleton.mp hi) <;>
        exact congrArg _ (clmOp_outside hrun hx last hout)
  · obtain rfl : pNum k5 = k := pNum_of_eq hk
    intro A set
    refine ⟨fun f hf => ?_, fun hdup => ⟨?_, ?_⟩⟩
    · simp only [List.mem_cons, List.not_mem_nil, or_false] at hf
      rcases hf with rfl | rfl | rfl | rfl
      · exact exec_pointer hrun hx last rfl rfl hk
      · exact exec_pointer hrun hx last rfl rfl hk
      · refine exec_pointer hrun hx last rfl ?_ hk
        rw [sat_eq_clamp (by decide)]
        rfl
      · refine exec_pointer hrun hx last rfl ?_ hk
        rw [satX, sat_eq_clamp (by decide)]
        rfl
    · exact exec_getpa hrun hx last hdup (by omega)
    · have hget := exec_getlc hrun hx last hdup (a := ⟨c.val, by omega⟩) c.isLt
      simp only [Fin.ofNat_val_eq_self] at hget
      exact hget
  · rcases hi with ⟨rfl, rfl | rfl⟩ | ⟨hb, rfl | rfl | rfl | rfl | rfl⟩ | ⟨hb, rfl⟩
    · exact congrArg _ (slotOp_absent hrun hx last rfl rfl)
    · exact congrArg _ (slotOp_absent hrun hx last rfl rfl)
    all_goals exact congrArg _ (slotOp_absent hrun hx last rfl (decide_eq_true hb))

end Sys2Proof.Machine
end

section
/-! PROOFS. What the capacity checker, the end of tests and the faults a unit finds in itself leave of the registers of engines, clusters and ports (R37, R65, R257, R258, R400). -/

namespace Sys2Proof.Machine

/-- A register of an engine's, a cluster's or a port's page that is no header and no PORT.STAT: what concerns the whole unit writes none of these. -/
def LocalReg (k : Nat) : Prop :=
  0x40 ≤ k % 0x1000 ∧ (0x10 ≤ k / 0x1000 ∧ k / 0x1000 < 0x14 ∨ 0x20 ≤ k / 0x1000 ∧ k / 0x1000 < 0x60 ∨
    0x60 ≤ k / 0x1000 ∧ k / 0x1000 < 0x78 ∧ k % 0x1000 ≠ 0x4C)

theorem LocalReg.aside {k : Nat} (h : LocalReg k) (p : Nat) : Aside p k := by
  obtain ⟨hlo, hpage⟩ := h
  exact ⟨by omega, .inl hlo⟩

theorem LocalReg.page_ne {k p : Nat} (h : LocalReg k) (hp : p < 0x10 ∨ p = 0x14 ∨ 0x78 ≤ p) : k / 0x1000 ≠ p := by
  obtain ⟨-, hpage⟩ := h
  omega

/-- A register of a page of the whole unit is none of an engine, a cluster or a port. -/
theorem LocalReg.ne {k j : Nat} (h : LocalReg k) (hj : j / 0x1000 < 0x10 ∨ j / 0x1000 = 0x14 ∨ 0x78 ≤ j / 0x1000) : k ≠ j := by
  rintro rfl
  exact h.page_ne hj rfl

theorem rdw_wrs_other {k : Nat} {l : List (Fld × Nat)} (s : State) (h : ∀ x ∈ l, k ≠ x.1.addr) : rdw (wrs s l) k = rdw s k :=
  List.foldlRecOn l _ (motive := fun t => rdw t k = rdw s k) rfl fun _ ht x hx => (rdw_wr_other _ _ _ (h x hx)).trans ht

section
variable {k : Nat} (hk : LocalReg k)
include hk

theorem rdw_raise_local (s : State) (p b : Nat) : rdw (raise s p b) k = rdw s k := rdw_raise_aside (hk.aside p) s b

theorem rdw_post_local (s : State) (c r d : Nat) : rdw (post s c r d) k = rdw s k :=
  rdw_post (hk.aside 0).1 (hk.page_ne (.inl (by decide))) s c r d

theorem rdw_wr_unit (s : State) (f : Fld) (v : Nat) (hf : f.page < 0x10 ∨ f.page = 0x14 ∨ 0x78 ≤ f.page) : rdw (wr s f v) k = rdw s k :=
  rdw_wr_other s f v (hk.ne hf)

theorem rdw_wrs_unit {l : List (Fld × Nat)} (s : State) (hl : ∀ x ∈ l, x.1.page < 0x10 ∨ x.1.page = 0x14 ∨ 0x78 ≤ x.1.page) : rdw (wrs s l) k = rdw s k :=
  rdw_wrs_other s fun x hx => hk.ne (hl x hx)

theorem rdw_incCnt_unit (s : State) {f : Fld} (hf : f.page < 0x10 ∨ f.page = 0x14 ∨ 0x78 ≤ f.page) : rdw (incCnt s f) k = rdw s k :=
  rdw_incCnt (hk.aside _) (hk.ne hf) s

theorem rdw_incErr_unit (s : State) {f : Fld} (hf : f.page < 0x10 ∨ f.page = 0x14 ∨ 0x78 ≤ f.page) : rdw (incErr s f) k = rdw s k :=
  rdw_incErr (hk.aside _) (hk.ne hf) s

theorem rdw_showReady (s : State) : rdw (showReady s) k = rdw s k := rdw_wr_unit hk _ _ _ (by decide)

theorem rdw_showCapacity (s : State) : rdw (showCapacity s) k = rdw s k := by
  unfold showCapacity
  split
  · rw [rdw_showReady hk, rdw_wr_unit hk _ _ _ (by decide)]
  · rfl

/-- The capacity checker writes SHED_MAP, its counters, PEER.NREADY, the sump and an event. -/
theorem rdw_capacityCheck (s : State) (mhz : Nat) : rdw (capacityCheck s mhz) k = rdw s k := by
  unfold capacityCheck
  split
  · extract_lets b now gone s₁ s₂
    have h₁ : rdw s₁ k = rdw s k := List.foldlRecOn gone _ (motive := fun t => rdw t k = rdw s k) rfl fun t ht a ha => by
      have hlt := graphAxes_lt (mem_of_mem_shedUntil ha)
      rw [rdw_incCnt_unit hk _ (by decide), rdw_wr_unit hk _ _ _ ?_, ht]
      simp only [Fld.page, shedField, Reg.CYC_SHED_MAP]
      omega
    have h₂ : rdw s₂ k = rdw s k := (rdw_wrs_unit hk _ (by simp; decide)).trans h₁
    split
    · exact h₂
    · rw [rdw_showCapacity hk, rdw_raise_local hk, rdw_post_local hk, h₂]
  · rfl

theorem rdw_testEnd (s : State) (r : TestReq) (status : Nat) : rdw (testEnd s r status) k = rdw s k := by
  unfold testEnd
  dsimp only
  split <;> simp only [rdw_raise_local hk, rdw_wrs_unit (l := [(Reg.TEST_LAST_KIND, _), (Reg.TEST_LAST_TAG, _), (Reg.TEST_LAST_STATUS, _)]) hk _ (by simp; decide)]

theorem rdw_showQueue (s : State) : rdw (showQueue s) k = rdw s k := rdw_wrs_unit hk _ (by simp; decide)

/-- An engine that returns from its test may have its WITHDRAW bit set again. -/
theorem rdw_engineBack (h : k % 0x1000 ≠ 0x44) (s : State) (r : TestReq) : rdw (engineBack s r) k = rdw s k := by
  have hne : k ≠ (wdField r.index).addr := by
    simp only [wdField, Reg.CLU_WITHDRAW]
    omega
  unfold engineBack
  split
  · extract_lets more s₁ s₂
    split
    · rfl
    · rw [rdw_capacityCheck hk, rdw_wr_other _ _ _ hne]
      rfl
  · rfl

theorem rdw_abortTests (s : State) (which : TestReq → Bool) (h : s.tests = [] ∨ k % 0x1000 ≠ 0x44) :
    rdw (abortTests s which) k = rdw s k := by
  unfold abortTests
  extract_lets gone s₁
  rw [rdw_showQueue hk]
  refine List.foldlRecOn gone _ (motive := fun t => rdw t k = rdw s k) rfl fun t ht r hr => ?_
  rcases h with h | h
  · rw [show gone = [] by simp [gone, h]] at hr
    exact absurd hr (by simp)
  · rw [rdw_testEnd hk, rdw_engineBack hk h, ht]

theorem rdw_endRelays (s : State) : rdw (endRelays s) k = rdw s k := by
  refine List.foldlRecOn (List.range 24) _ (motive := fun t => rdw t k = rdw s k) rfl fun t ht p hp => ?_
  have hne : k ≠ (Reg.PORT_STAT_RELAY p).addr := by
    have hlt := List.mem_range.mp hp
    obtain ⟨-, hpage⟩ := hk
    simp only [Reg.PORT_STAT_RELAY]
    omega
  extract_lets u
  have hu : rdw u k = rdw s k := by
    unfold u
    split
    · rw [rdw_wr_other _ _ _ hne, ht]
    · exact ht
  split
  · exact hu
  · exact hu

theorem rdw_cancelSwap (s : State) (cause : Nat) : rdw (cancelSwap s cause) k = rdw s k := by
  unfold cancelSwap
  split
  · rw [rdw_post_local hk, rdw_wr_unit hk _ _ _ (by decide)]
  · rfl

omit hk in
theorem cancelSwap_tests (s : State) (cause : Nat) : (cancelSwap s cause).tests = s.tests := by
  unfold cancelSwap
  split <;> simp

theorem rdw_relinquish (s : State) (code : Nat) (h : s.tests = [] ∨ k % 0x1000 ≠ 0x44) :
    rdw (relinquish s code) k = rdw s k := by
  unfold relinquish
  extract_lets s₁ s₂ s₃
  have htests : (cancelSwap (setRole (post s₃ 0x2001 2 code) rRELINQUISHED) 3).tests = s.tests := by
    rw [cancelSwap_tests, setRole, wr_tests, post_tests]
    rfl
  rw [rdw_abortTests hk _ _ (by rw [htests]; exact h), rdw_cancelSwap hk, setRole, rdw_wr_unit hk _ _ _ (by decide), rdw_post_local hk]
  rfl

theorem rdw_takeFaulted (s : State) : rdw (takeFaulted s) k = rdw s k := by
  rw [takeFaulted, rdw_endRelays hk, rdw_showReady hk, rdw_wr_unit hk _ _ _ (by decide), setRole, rdw_wr_unit hk _ _ _ (by decide)]
  rfl

theorem rdw_failSilent (s : State) : rdw (failSilent s) k = rdw s k := rdw_wr_unit hk _ _ _ (by decide)

/-- A fault that the unit finds in itself writes no register of an engine, a cluster or a port but PORT.STAT, where no test of an engine ends with it. -/
theorem rdw_selfFault (s : State) (f : SelfFault) (h : s.tests = [] ∨ k % 0x1000 ≠ 0x44) :
    rdw (selfFault s f) k = rdw s k := by
  unfold selfFault
  split_ifs <;> simp only [rdw_relinquish hk s _ h, rdw_failSilent hk, rdw_takeFaulted hk]

end

end Sys2Proof.Machine
end

section
/-! PROOFS. What leaves an engine: EVT, DONE, YIELD, lock-up and the release of a faulted engine (R48, R75, R104 to R107). -/

namespace Sys2Proof.Machine

/-! ## Tables written twice -/

theorem tdel_tins_tdel {α : Type} (k : Nat) (v : α) (t : Tbl α) : tdel k (tins k v (tdel k t)) = tdel k t := by
  induction t with
  | nil => simp [tdel, tins]
  | cons c r ih =>
    obtain ⟨j, w⟩ := c
    by_cases hj : j = k
    · simpa [tdel, hj] using ih
    · by_cases hlt : k < j
      · have hdel : tdel k (tdel k r) = tdel k r := by
          clear ih
          induction r with
          | nil => rfl
          | cons c r ih => by_cases hc : c.1 = k <;> simp [tdel, hc, ih]
        simp [tdel, tins, hj, hlt, hdel]
      · simp [tdel, tins, hj, hlt, ih]

theorem tput_tput {α : Type} [DecidableEq α] (d : Nat → α) (t : Tbl α) (k : Nat) (v w : α) : tput d (tput d t k v) k w = tput d t k w := by
  have hdel : tdel k (tput d t k v) = tdel k t := by
    unfold tput
    split
    · induction t with
      | nil => rfl
      | cons c r ih => by_cases hc : c.1 = k <;> simp [tdel, hc, ih]
    · exact tdel_tins_tdel k v t
  rw [tput, hdel, tput]

/-- Of two settings of one engine the last stands. -/
theorem setEng_setEng (s : State) (e : Nat) (x y : Engine) : setEng (setEng s e x) e y = setEng s e y := by
  unfold setEng
  simp only [tput_tput]

/-! ## Bundles of type 10 (R79, R100) -/

/-- The engine after a bundle that leaves the registers `q`. -/
def bundleDone (x : Engine) (q : LeRegs) : Engine := { x with r := q, snap := q, issued := x.issued + 1, mid := false, wrote := [], stores := [] }

theorem openBundle_start {x : Engine} (h : x.mid = false) : openBundle x = { x with snap := x.r, wrote := [], stores := [], mid := true } := by
  rw [openBundle, h]
  rfl

/-- No active loop ends at the PC. -/
theorem loopAt_none {r : LeRegs} (h : ∀ k : Fin 2, r.lc[k].active = true → r.lc[k].stop ≠ r.pc) : loopAt r r.pc = none := by
  unfold loopAt
  rw [if_neg (fun hc => h 0 hc.1 hc.2), if_neg (fun hc => h 1 hc.1 hc.2)]

theorem settle_inside {s : State} {e : Nat} {r : LeRegs} (h : r.pc < 2048) : settle s e r = setEng s e (bundleDone (eng s e) r) := by
  unfold settle
  exact if_pos h

section
variable {s : State} {e : Fin 64} (hrun : (eng s e).ph = .running) (hmid : (eng s e).mid = false)
  (hends : ∀ k : Fin 2, (eng s e).r.lc[k].active = true → (eng s e).r.lc[k].stop ≠ (eng s e).r.pc)
include hrun hmid

/-- An operation of type 10 that is illegal. -/
theorem branchOp_illegal {op : LeRegs → LeRegs × Option EngCause} {after : State → State} (hop : (op (eng s e).r).2 = some .illegal) :
    branchOp s e op after = engineFault (setEng s e { openBundle (eng s e) with issued := (openBundle (eng s e)).issued + 1 }) e
      (openBundle (eng s e)).task (openBundle (eng s e)).r.pc .illegal := by
  unfold branchOp
  simp [hrun, openBundle_start hmid, hop]

include hends

/-- An operation of type 10 that meets no fault. -/
theorem branchOp_done {op : LeRegs → LeRegs × Option EngCause} {after : State → State} (hop : (op (eng s e).r).2 = none) (hpc : (op (eng s e).r).1.pc < 2048) :
    branchOp s e op after = after (setEng s e (bundleDone (openBundle (eng s e)) (op (eng s e).r).1)) := by
  unfold branchOp
  rw [if_pos hrun]
  simp only [openBundle_start hmid, hop, loopAt_none hends]
  simp only [ne_eq, not_true_eq_false, if_false, reduceCtorEq, Option.isSome_none, Bool.false_eq_true]
  rw [settle_inside hpc, setEng_setEng, eng_setEng_self]

end

/-! ## EVT and YIELD (R105, R106) -/

theorem exec_evt_zero {s : State} {e : Fin 64} (hrun : (eng s e).ph = .running) (hmid : (eng s e).mid = false) (reg : Bool) (da : Fin 32) (k : BitVec 13) :
    exec (.evt e reg da 0 k) s = .next (engineFault (setEng s e { openBundle (eng s e) with issued := (openBundle (eng s e)).issued + 1 }) e
      (openBundle (eng s e)).task (openBundle (eng s e)).r.pc .illegal) :=
  congrArg Host.Outcome.next (branchOp_illegal hrun hmid rfl)

section
variable {s : State} {e : Fin 64} (hrun : (eng s e).ph = .running) (hmid : (eng s e).mid = false)
  (hends : ∀ k : Fin 2, (eng s e).r.lc[k].active = true → (eng s e).r.lc[k].stop ≠ (eng s e).r.pc)
include hrun hmid hends

theorem exec_evt (reg : Bool) (da : Fin 32) {f : Fin 32} (k : BitVec 13) (hf : f ≠ 0) (hpc : (eng s e).r.pc < 2047) : exec (.evt e reg da f k) s =
    .next (postItem (setEng s e (bundleDone (openBundle (eng s e)) { (eng s e).r with pc := (eng s e).r.pc + 1 })) pCompletion
      { edges := [2 ^ 30 + f.val * 2 ^ 24 + (if reg = true then (openBundle (eng s e)).r.d[da].toNat % 2 ^ 13 else k.toNat)] }) := by
  change execEvt e reg da f k s = _
  unfold execEvt
  dsimp only
  rw [branchOp_done hrun hmid hends (by simp [hf]) (by simp only [if_neg hf]; omega)]
  simp only [if_neg hf]

theorem exec_yield (hpc : (eng s e).r.pc < 2048) : exec (.yield e) s = .next (yieldEnd e (setEng s e (bundleDone (openBundle (eng s e)) (eng s e).r))) :=
  congrArg Host.Outcome.next (branchOp_done hrun hmid hends rfl hpc)

theorem exec_done (lib : LibTask) (hpc : (eng s e).r.pc < 2048) : exec (.done e lib) s =
    .next (doneEnd lib e (eng s e).r.pc (setEng s e (bundleDone (openBundle (eng s e)) (eng s e).r))) :=
  congrArg Host.Outcome.next (branchOp_done hrun hmid hends rfl hpc)

end

/-- A YIELD counts, clears the written bits of its task's half and re-posts the task. -/
theorem yieldEnd_running {s : State} {e : Nat} (h : (eng s e).ph = .running) : yieldEnd e s =
    postItem (setEng (incCnt s (Reg.CLU_YIELD_CNT_YIELD_CNT (e / 16))) e
      { eng s e with ph := .atYield, wbit := (eng s e).wbit.filter (fun k => k.1 / 1024 % 2 ≠ engHalf (eng s e)) }) pCompletion
      { repost := some (eng s e).task, eng := some e } := by
  unfold yieldEnd
  have hkeep : (fun k : Nat × Bool => k.1 / 1024 % 2 != engHalf (eng s e)) = fun k => decide (k.1 / 1024 % 2 ≠ engHalf (eng s e)) :=
    funext fun k => by simp [bne, beq_eq_decide]
  rw [if_pos h, hkeep]

/-! ## DONE (R48, R75, R104) -/

theorem dmaList_congr {s t : State} (h : t.mem = s.mem) (c n : Nat) : ∀ o, dmaList t c o n = dmaList s c o n := by
  induction n with
  | zero => exact fun _ => rfl
  | succ n ih =>
    intro o
    unfold dmaList
    simp only [mnum_eq_of_mem h, ih]

theorem taskList_congr {s t : State} (h : t.mem = s.mem) (b k : Nat) : taskList t b k = taskList s b k := by
  rw [taskList, taskList, dmaList_congr h, tdWord_congr h]

/-- The DMA-out of a task depends on memory and on the written bits of its engine. -/
theorem outWrites_congr {s t : State} {e : Nat} (hmem : t.mem = s.mem) (hbits : (eng t e).wbit = (eng s e).wbit) (half b k : Nat) :
    outWrites t e half b k = outWrites s e half b k := by
  have hread : ∀ y a, xyRead t e y half a = xyRead s e y half a := fun y a => by
    unfold xyRead
    rw [hbits, mnum_eq_of_mem hmem]
  simp only [outWrites, taskList_congr hmem, hread]

theorem libRun_none (s : State) (a : Option Nat) : libRun s .none a = (s, [], false) := by
  cases a <;> rfl

/-- Marking an axis touches its flag and an event. -/
theorem markNumeric_keeps (s : State) (k : Nat) : (markNumeric s k).mem = s.mem ∧ (markNumeric s k).engs = s.engs ∧
    ∀ j, LocalReg j → rdw (markNumeric s k) j = rdw s j := by
  unfold markNumeric
  split
  · dsimp only
    split
    · exact ⟨raise_mem .., raise_engs .., fun j hj => rdw_raise_local hj _ _ _⟩
    · exact ⟨rfl, rfl, fun _ _ => rfl⟩
  · exact ⟨rfl, rfl, fun _ _ => rfl⟩

/-- What the DMA-out of a task without a library part holds. -/
def plainJob (s : State) (e pc : Nat) : OutJob :=
  { task := (eng s e).task, writes := outWrites s e (engHalf (eng s e)) (bank s) (eng s e).task, pts := [], pc := pc }

/-- The engine after its DONE. -/
def engineEnded (s : State) (e pc : Nat) : Engine :=
  { eng s e with ph := if completionStalled s then .atDone else .idle, outq := (eng s e).outq ++ [plainJob s e pc] }

/-- SAT, AOV or INV is set as the task ends. -/
def endsBad (x : Engine) : Bool := cc x.r ccSAT || cc x.r ccAOV || cc x.r ccINV

theorem doneEnd_plain {s : State} {e pc : Nat} (h : (eng s e).ph = .running) : doneEnd .none e pc s =
    if endsBad (eng s e) then markNumeric (incCnt (incCnt (setEng s e (engineEnded s e pc)) (Reg.LE_DONE_CNT_DONE_CNT e)) (Reg.LE_SAT_CNT_SAT_CNT e)) (eng s e).task
    else incCnt (setEng s e (engineEnded s e pc)) (Reg.LE_DONE_CNT_DONE_CNT e) := by
  unfold doneEnd
  rw [if_pos h]
  simp only [libRun_none, Bool.or_false]
  rfl

theorem leReg_local {e j : Nat} (he : e < 64) (hj : 0x40 ≤ j) (hlt : j < 0x1000) : LocalReg (0x20000 + j + e * 0x1000) := by
  refine ⟨by omega, .inr (.inl ?_)⟩
  omega

/-- What DONE leaves: memory, the engine with its DMA-out queued, and the counters. -/
theorem doneEnd_effect {s : State} {e pc : Nat} (he : e < 64) (h : (eng s e).ph = .running) :
    (doneEnd .none e pc s).mem = s.mem ∧ eng (doneEnd .none e pc s) e = engineEnded s e pc ∧
    rd (doneEnd .none e pc s) (Reg.LE_DONE_CNT_DONE_CNT e) = (rd s (Reg.LE_DONE_CNT_DONE_CNT e) + 1) % 2 ^ 32 ∧
    rd (doneEnd .none e pc s) (Reg.LE_SAT_CNT_SAT_CNT e) =
      if endsBad (eng s e) = true then (rd s (Reg.LE_SAT_CNT_SAT_CNT e) + 1) % 2 ^ 32 else rd s (Reg.LE_SAT_CNT_SAT_CNT e) := by
  have hdone : LocalReg (Reg.LE_DONE_CNT_DONE_CNT e).addr := leReg_local he (j := 0x50) (by decide) (by decide)
  have hsat : LocalReg (Reg.LE_SAT_CNT_SAT_CNT e).addr := leReg_local he (j := 0x54) (by decide) (by decide)
  have hne : (Reg.LE_SAT_CNT_SAT_CNT e).addr ≠ (Reg.LE_DONE_CNT_DONE_CNT e).addr := by simp [Reg.LE_SAT_CNT_SAT_CNT, Reg.LE_DONE_CNT_DONE_CNT]
  have cnt : ∀ u : State, rd (incCnt u (Reg.LE_DONE_CNT_DONE_CNT e)) (Reg.LE_DONE_CNT_DONE_CNT e) = (rd u (Reg.LE_DONE_CNT_DONE_CNT e) + 1) % 2 ^ 32 :=
    fun u => rd_incCnt_self (hdone.aside _) (Nat.zero_le _) (by decide : 31 < 32)
  have cntSat : ∀ u : State, rd (incCnt u (Reg.LE_SAT_CNT_SAT_CNT e)) (Reg.LE_SAT_CNT_SAT_CNT e) = (rd u (Reg.LE_SAT_CNT_SAT_CNT e) + 1) % 2 ^ 32 :=
    fun u => rd_incCnt_self (hsat.aside _) (Nat.zero_le _) (by decide : 31 < 32)
  have satKept : ∀ u : State, rd (incCnt u (Reg.LE_DONE_CNT_DONE_CNT e)) (Reg.LE_SAT_CNT_SAT_CNT e) = rd u (Reg.LE_SAT_CNT_SAT_CNT e) :=
    fun u => by rw [rd, rdw_incCnt (hsat.aside _) hne, rd]
  have doneKept : ∀ u : State, rd (incCnt u (Reg.LE_SAT_CNT_SAT_CNT e)) (Reg.LE_DONE_CNT_DONE_CNT e) = rd u (Reg.LE_DONE_CNT_DONE_CNT e) :=
    fun u => by rw [rd, rdw_incCnt (hdone.aside _) hne.symm, rd]
  rw [doneEnd_plain h]
  split
  · obtain ⟨hmem, hengs, hregs⟩ := markNumeric_keeps
      (incCnt (incCnt (setEng s e (engineEnded s e pc)) (Reg.LE_DONE_CNT_DONE_CNT e)) (Reg.LE_SAT_CNT_SAT_CNT e)) (eng s e).task
    refine ⟨by rw [hmem]; simp, ?_, ?_, ?_⟩
    · rw [eng_congr hengs, eng_congr (incCnt_engs ..), eng_congr (incCnt_engs ..), eng_setEng_self]
    · rw [rd, hregs _ hdone, ← rd, doneKept, cnt]
      rfl
    · rw [rd, hregs _ hsat, ← rd, cntSat, satKept]
      rfl
  · refine ⟨by simp, ?_, ?_, ?_⟩
    · rw [eng_congr (incCnt_engs ..), eng_setEng_self]
    · rw [cnt]
      rfl
    · rw [satKept]
      rfl

/-! ## Engine faults (R107) -/

/-- `t` has the tests of `s`, and every engine in its fault state in `s` is in it in `t`. -/
def FaultKept (s t : State) : Prop := t.tests = s.tests ∧ ∀ i, (eng s i).ph = .fault → (eng t i).ph = .fault

theorem FaultKept.trans {s t u : State} (h : FaultKept s t) (k : FaultKept t u) : FaultKept s u :=
  ⟨k.1.trans h.1, fun i hi => k.2 i (h.2 i hi)⟩

theorem FaultKept.of_engs {s t : State} (hengs : t.engs = s.engs) (htests : t.tests = s.tests) : FaultKept s t :=
  ⟨htests, fun i hi => by rwa [eng_congr hengs]⟩

theorem FaultKept.setEng (s : State) {e : Nat} {x : Engine} (h : (eng s e).ph = .fault → x.ph = .fault) : FaultKept s (setEng s e x) := by
  refine ⟨rfl, fun i hi => ?_⟩
  by_cases hie : i = e
  · subst hie
    rw [eng_setEng_self]
    exact h hi
  · rwa [eng_setEng_other _ _ _ hie]

theorem victim_running {s : State} {c e : Nat} (h : victim s c = some e) : (eng s e).ph = .running := by
  have hcand : e ∈ (cluEngs c).filter (fun e => (eng s e).ph == .running && !isPref s e && (eng s e).resume.isNone) := by
    unfold victim at h
    dsimp only at h
    split at h
    · cases h
      exact List.mem_of_find?_eq_some ‹_›
    · exact List.mem_of_find?_eq_some h
  obtain ⟨-, hsel⟩ := List.mem_filter.mp hcand
  simp only [Bool.and_eq_true, beq_iff_eq] at hsel
  exact hsel.1.1

/-- Only a running engine is pre-empted. -/
theorem faultKept_tryPreempt (s : State) (c : Nat) : FaultKept s (tryPreempt s c) := by
  unfold tryPreempt
  split
  · exact .of_engs rfl rfl
  · split
    · next k v _ hv =>
      refine (FaultKept.of_engs (setWell_engs ..) (setWell_tests ..)).trans (.trans (.setEng _ fun h => ?_) (.of_engs (incCnt_engs ..) (incCnt_tests ..)))
      rw [eng_congr (setWell_engs ..), victim_running hv] at h
      cases h
    · exact .of_engs rfl rfl

theorem faultKept_openGates (s : State) (c t : Nat) : FaultKept s (openGates s c t) := by
  unfold openGates
  dsimp only
  split <;> exact .of_engs rfl rfl

theorem faultKept_placeWell {s t : State} {b k c : Nat} (h : placeTok.placeWell s b k c = some t) : FaultKept s t := by
  unfold placeTok.placeWell at h
  dsimp only at h
  split at h
  · cases h
    have hwell : FaultKept s (openGates (setWell (newTok s k).2 c (tdPrio s b k) (well (newTok s k).2 c (tdPrio s b k) ++ [(newTok s k).1])) c k) :=
      (FaultKept.of_engs (t := setWell (newTok s k).2 c (tdPrio s b k) _) (setWell_engs ..) (setWell_tests ..)).trans (faultKept_openGates _ _ _)
    split
    · exact hwell.trans (faultKept_tryPreempt _ _)
    · exact hwell
  · cases h

/-- Placing a token leaves every faulted engine in its fault state. -/
theorem faultKept_placeTok {s t : State} {k : Nat} {loc : Option Nat} (h : placeTok s k loc = some t) : FaultKept s t := by
  have queued : ∀ (c e : Nat) (x : Engine), x.ph = (eng s e).ph → FaultKept s (openGate (setEng (newTok s k).2 e x) c) := fun c e x hx =>
    FaultKept.setEng (newTok s k).2 fun hph => hx.trans hph
  unfold placeTok at h
  dsimp only at h
  split at h
  · cases h
    exact .of_engs (incCnt_engs ..) (incCnt_tests ..)
  · split at h
    · split at h
      · cases h
        exact queued _ _ _ rfl
      · cases h
    · split at h
      · split at h
        · cases h
          exact queued _ _ _ rfl
        · exact faultKept_placeWell h
      · exact faultKept_placeWell h

/-- The capacity checker changes registers, the sump and what left the package. -/
theorem capacityCheck_shape (s : State) (mhz : Nat) : Logged s (capacityCheck s mhz) := by
  have ready : ∀ u : State, RegsWire u (showCapacity u) := fun u => by
    unfold showCapacity
    split
    · exact (RegsWire.wr u _ _).trans (RegsWire.wr _ _ _)
    · exact RegsWire.refl u
  unfold capacityCheck
  split
  · extract_lets b now gone s₁ s₂
    have h₁ : RegsWire s s₁ := List.foldlRecOn gone _ (motive := RegsWire s) (RegsWire.refl s) fun t ht a _ =>
      ht.trans ((RegsWire.wr t _ _).trans (incCnt_shape _ _))
    have h₂ : RegsWire s s₂ := List.foldlRecOn _ _ (motive := RegsWire s) h₁ fun t ht x _ => ht.trans (RegsWire.wr t _ _)
    split
    · exact h₂.logged
    · exact ((h₂.logged.trans (post_shape _ _ _ _)).regs (raise_shape _ _ _)).regs (ready _)
  · exact Logged.refl s

theorem Logged.engs {s t : State} (h : Logged s t) : t.engs = s.engs := by rw [h]

theorem Logged.faultKept {s t : State} (h : Logged s t) : FaultKept s t := by
  rw [h]
  exact .of_engs rfl rfl

theorem endRelays_faultKept (s : State) : FaultKept s (endRelays s) :=
  List.foldlRecOn (List.range 24) _ (motive := FaultKept s) (.of_engs rfl rfl) fun t ht p _ => by
    refine ht.trans ?_
    dsimp only
    split <;> split <;> exact .of_engs rfl rfl

theorem abortTests_faultKept {s : State} (h : s.tests = []) (which : TestReq → Bool) : FaultKept s (abortTests s which) := by
  unfold abortTests
  simp only [h, List.filter_nil, List.foldl_nil]
  exact .of_engs (wrs_engs ..) ((wrs_tests ..).trans h.symm)

/-- A fault that the unit finds in itself, with no test queued, leaves the engines. -/
theorem selfFault_faultKept {s : State} (h : s.tests = []) (f : SelfFault) : FaultKept s (selfFault s f) := by
  have gives : FaultKept s (relinquish s f.code) := by
    unfold relinquish
    extract_lets s₁ s₂ s₃
    have hs₃ : FaultKept s (cancelSwap (setRole (post s₃ 0x2001 2 f.code) rRELINQUISHED) 3) := by
      refine (Logged.faultKept (post_shape s₃ _ _ _)).trans (.of_engs ?_ (cancelSwap_tests _ _))
      unfold cancelSwap
      split
      · exact post_engs ..
      · rfl
    exact hs₃.trans (abortTests_faultKept (hs₃.1.trans h) _)
  have silent : FaultKept s (failSilent s) := .of_engs rfl rfl
  have faulted : FaultKept s (takeFaulted s) := FaultKept.trans (.of_engs rfl rfl) (endRelays_faultKept _)
  unfold selfFault
  split_ifs
  exacts [gives, gives, silent, .of_engs rfl rfl, faulted, silent, .of_engs rfl rfl]

theorem wdField_in (e : Nat) : (wdField e).lo ≤ (wdField e).hi ∧ (wdField e).hi < 32 := by
  simp only [wdField]
  omega

section
variable {s : State} {e : Nat} (he : e < 64)
include he

theorem wdField_local : LocalReg (wdField e).addr := by
  simp only [LocalReg, wdField, Reg.CLU_WITHDRAW]
  omega

/-- The engine's WITHDRAW bit and LE.FAULT as a fault writes them. -/
theorem faultLogged (t pc : Nat) (c : EngCause) : ∃ u, u = incErr (wrs (wr s (wdField e) 1) [(Reg.LE_FAULT_TASK e, t), (Reg.LE_FAULT_PC e, pc), (Reg.LE_FAULT_CAUSE e, c.code)])
      (Reg.LE_FAULT_ERR_FAULT_ERR e) ∧ FaultKept s u ∧
    rd u (Reg.LE_FAULT_TASK e) = t % 2 ^ 13 ∧ rd u (Reg.LE_FAULT_CAUSE e) = c.code % 2 ^ 5 ∧ withdrawn u e = true := by
  obtain ⟨hlo, hhi⟩ := wdField_in e
  have hwd : (wdField e).addr ≠ (Reg.LE_FAULT_TASK e).addr := by
    simp only [wdField, Reg.CLU_WITHDRAW, Reg.LE_FAULT_TASK]
    omega
  have herr : (wdField e).addr ≠ (Reg.LE_FAULT_ERR_FAULT_ERR e).addr := by
    simp only [wdField, Reg.CLU_WITHDRAW, Reg.LE_FAULT_ERR_FAULT_ERR]
    omega
  have hfault : LocalReg (Reg.LE_FAULT_TASK e).addr := leReg_local he (j := 0x48) (by decide) (by decide)
  have hkept : ∀ (u : State) (f : Fld), f.addr = (Reg.LE_FAULT_TASK e).addr → rd (incErr u (Reg.LE_FAULT_ERR_FAULT_ERR e)) f = rd u f := fun u f hf => by
    rw [rd, hf, rdw_incErr (hfault.aside _) (by simp [Reg.LE_FAULT_TASK, Reg.LE_FAULT_ERR_FAULT_ERR]), rd, hf]
  refine ⟨_, rfl, .of_engs (by rw [incErr_engs, wrs_engs, wr_engs]) (by rw [incErr_tests, wrs_tests, wr_tests]), ?_, ?_, ?_⟩
  · rw [hkept _ _ rfl]
    simp only [wrs, List.foldl_cons, List.foldl_nil]
    rw [rd_wr_disj _ _ _ _ (by simp [Reg.LE_FAULT_CAUSE]) (by simp [Reg.LE_FAULT_CAUSE]) (by simp [Reg.LE_FAULT_TASK]) (by simp [Reg.LE_FAULT_CAUSE, Reg.LE_FAULT_TASK]),
      rd_wr_disj _ _ _ _ (by simp [Reg.LE_FAULT_PC]) (by simp [Reg.LE_FAULT_PC]) (by simp [Reg.LE_FAULT_TASK]) (by simp [Reg.LE_FAULT_PC, Reg.LE_FAULT_TASK]),
      rd_wr_self _ _ _ (by simp [Reg.LE_FAULT_TASK]) (by simp [Reg.LE_FAULT_TASK])]
    rfl
  · rw [hkept _ (Reg.LE_FAULT_CAUSE e) rfl]
    simp only [wrs, List.foldl_cons, List.foldl_nil]
    rw [rd_wr_self _ _ _ (by simp [Reg.LE_FAULT_CAUSE]) (by simp [Reg.LE_FAULT_CAUSE])]
    rfl
  · rw [withdrawn, on, rd, rdw_incErr ((wdField_local he).aside _) herr, rdw_wrs_other _ (by simpa using ⟨hwd, hwd, hwd⟩), ← rd, rd_wr_self _ _ _ hlo hhi]
    simp [wdField]

/-- An engine that meets a fault, with no test queued, is left in its fault state and withdrawn, with its task and the cause recorded. -/
theorem engineFault_effect (htests : s.tests = []) (t pc : Nat) (c : EngCause) : (eng (engineFault s e t pc c) e).ph = .fault ∧
    rd (engineFault s e t pc c) (Reg.LE_FAULT_TASK e) = t % 2 ^ 13 ∧ rd (engineFault s e t pc c) (Reg.LE_FAULT_CAUSE e) = c.code % 2 ^ 5 ∧
    withdrawn (engineFault s e t pc c) e = true := by
  unfold engineFault
  extract_lets x s₁ s₂ s₃ s₄ s₅ s₆ s₇
  have h₁ : (eng s₁ e).ph = .fault := by
    unfold s₁
    rw [eng_setEng_self]
  have h₂ : FaultKept s₁ s₂ := by
    unfold s₂
    split
    · next k hk =>
      cases hp : placeTok s₁ k.task none with
      | none => exact .of_engs rfl rfl
      | some u => exact faultKept_placeTok hp
    · exact .of_engs rfl rfl
  have htests₂ : s₂.tests = [] := h₂.1.trans htests
  obtain ⟨u, hu, hkept, htask, hcause, hwd⟩ := faultLogged (s := s₂) he t pc c
  have hs₅ : s₅ = u := hu.symm
  rw [← hs₅] at hkept htask hcause hwd
  have htests₅ : s₅.tests = [] := hkept.1.trans htests₂
  have h₆ : FaultKept s₅ s₆ ∧ ∀ k, LocalReg k → rdw s₆ k = rdw s₅ k := by
    unfold s₆
    split
    · exact ⟨selfFault_faultKept htests₅ _, fun k hk => rdw_selfFault hk _ _ (.inl htests₅)⟩
    · exact ⟨.of_engs rfl rfl, fun _ _ => rfl⟩
  have hregs : ∀ f : Fld, LocalReg f.addr → rd (capacityCheck s₇ (leMHz s₇)) f = rd s₅ f := fun f hf => by
    rw [rd, rdw_capacityCheck hf, rdw_post_local hf, h₆.2 _ hf, rd]
  have hfault : LocalReg (Reg.LE_FAULT_TASK e).addr := leReg_local he (j := 0x48) (by decide) (by decide)
  refine ⟨?_, (hregs _ hfault).trans htask, (hregs (Reg.LE_FAULT_CAUSE e) hfault).trans hcause, ?_⟩
  · exact ((h₂.trans hkept).trans (h₆.1.trans ((post_shape s₆ _ _ _).faultKept.trans (capacityCheck_shape _ _).faultKept))).2 e h₁
  · rw [withdrawn, on, hregs _ (wdField_local he)]
    exact hwd

end

theorem exec_lockup {s : State} {e : Fin 64} (h : (eng s e).ph = .running) : exec (.lockup e) s =
    .next (engineFault (setEng s e (openBundle (eng s e))) e (eng s e).task (openBundle (eng s e)).snap.pc .lockup) := by
  change execLockup e s = _
  unfold execLockup
  exact congrArg Host.Outcome.next (if_pos h)

/-! ## CLR_FAULT (R107, R109) -/

/-- With no command running, LOAD_EN follows the word written. -/
theorem holdLoad_no_command (was : State) {u : State} (h : u.sched.gcmd = none) (m : Master) (e : Nat) : holdLoad was u m e = u := by
  unfold holdLoad
  rw [h]
  rfl

/-- The state in which a faulted engine is released: idle, with its WITHDRAW bit set. -/
def engineReleased (u : State) (e : Nat) : State := setEng (wr u (wdField e) 1) e { eng u e with ph := .idle }

theorem engineReleased_effect (u : State) (e : Nat) : (eng (engineReleased u e) e).ph = .idle ∧ withdrawn (engineReleased u e) e = true := by
  obtain ⟨hlo, hhi⟩ := wdField_in e
  refine ⟨by rw [engineReleased, eng_setEng_self], ?_⟩
  have h : rd (engineReleased u e) (wdField e) = 1 % 2 ^ ((wdField e).hi + 1 - (wdField e).lo) := rd_wr_self u _ 1 hlo hhi
  rw [withdrawn, on, h]
  simp [wdField]

/-- CLR_FAULT with no command running: what it leaves of a faulted engine, of one that was withdrawn already, and of any other. -/
theorem exec_clrFault {m : Master} {e : Fin 64} {w : W32} {s : State} (hm : CanReach m s (Reg.LE_CTRL_CLR_FAULT e).addr) (hg : s.sched.gcmd = none)
    (hw : wbits (Reg.LE_CTRL_CLR_FAULT e) w = 1) : ∃ u, Written (Reg.LE_CTRL_CLR_FAULT e).addr s u ∧ eng u e = eng s e ∧
      exec (.clrFault m e w) s = .next (if (eng s e).ph = .fault then
        if withdrawn s e then engineReleased u e else capacityCheck (engineReleased u e) (leMHz (engineReleased u e)) else u) := by
  obtain ⟨u, hu, hexec⟩ := regAction_written m w (fun t =>
    let s := holdLoad s t m e
    if wbits (Reg.LE_CTRL_CLR_FAULT e) w = 1 ∧ (eng s e).ph = .fault then
      let s' := setEng (wr s (wdField e) 1) e { eng s e with ph := .idle }
      if on s (wdField e) then s' else capacityCheck s' (leMHz s')
    else s) hm
  have heng : eng u e = eng s e := eng_congr hu.1.engs e
  have hwd : on u (wdField e) = withdrawn s e := hu.on _ (by
    have := e.isLt
    simp only [wdField, cmdKeys, sideKeys, Reg.CLU_WITHDRAW, Reg.LE_CTRL_CLR_FAULT, List.mem_cons, List.not_mem_nil, or_false]
    omega)
  refine ⟨u, hu, heng, ?_⟩
  change Host.Outcome.next (regAction s m _ w _) = _
  rw [hexec]
  simp only [holdLoad_no_command s (hu.1.sched ▸ hg), hw, heng, hwd, true_and, engineReleased]

/-- Settles O38: each operation ends in the state that it names, and a fault is followed through what it diagnoses to the engine's own registers. -/
theorem taskExitsAndEngineFaults : Obligations.TaskExitsAndEngineFaults := by
  unfold Obligations.TaskExitsAndEngineFaults
  refine ⟨fun s e hrun hmid hpc hends => ?_, fun s e hrun htests => ?_, fun m e w s hm hg hw => ?_⟩
  · intro x next
    have hx : openBundle (eng s e) = x := rfl
    have hxr : x.r = (eng s e).r := by rw [← hx, openBundle_start hmid]
    have hnext : ∀ q, setEng s e (bundleDone x q) = next q := fun _ => rfl
    have heng : ∀ q, eng (next q) e = bundleDone x q := fun q => eng_setEng_self _ _ _
    have hph : x.ph = .running := by
      rw [← hx, openBundle_start hmid]
      exact hrun
    refine ⟨fun lib => ⟨_, exec_done hrun hmid hends lib hpc, ?_⟩, fun reg da f k => ⟨?_, fun hf hlt => ?_⟩, ?_⟩
    · rintro rfl
      obtain ⟨hmem, hself, hdone, hsat⟩ := doneEnd_effect (s := next (eng s e).r) (pc := (eng s e).r.pc) e.isLt (by rw [heng]; exact hph)
      rw [hx, hnext]
      refine ⟨hmem, ?_, ?_, ⟨plainJob (next (eng s e).r) e (eng s e).r.pc, ?_, ?_, hxr ▸ rfl, ?_⟩, hdone, ?_⟩
      · rw [hself, engineEnded]
        simp only [completionStalled, bne_iff_ne, ne_eq, ite_not]
        rfl
      · rw [hself, engineEnded, heng, hxr]
        rfl
      · rw [hself, engineEnded, heng]
        rfl
      · rw [plainJob, heng]
        rfl
      · rw [plainJob, heng]
        have hbits : (eng (next (eng s e).r) e).wbit = (eng s e).wbit := by
          rw [heng]
          change x.wbit = _
          rw [← hx, openBundle_start hmid]
        exact outWrites_congr (s := s) (t := next (eng s e).r) rfl hbits (engHalf x) (bank s) x.task
      · rw [hsat, heng, endsBad, hxr]
        simp only [Bool.or_eq_true, or_assoc]
        rfl
    · rintro rfl
      exact exec_evt_zero hrun hmid reg da k
    · have hevt := exec_evt hrun hmid hends reg da k hf (hxr ▸ hlt)
      rwa [hx, hnext, ← hxr] at hevt
    · have hyield := exec_yield hrun hmid hends hpc
      rw [hx, hnext, ← hxr, yieldEnd_running (by rw [heng]; exact hph)] at hyield
      rw [hyield, heng]
      simp only [eng_congr (incCnt_engs ..), heng]
      rfl
  · refine ⟨_, exec_lockup hrun, ?_⟩
    exact engineFault_effect (s := setEng s e (openBundle (eng s e))) e.isLt htests _ _ _
  · obtain ⟨u, hu, heng, hexec⟩ := exec_clrFault hm hg hw
    obtain ⟨hidle, hwd⟩ := engineReleased_effect u e
    refine ⟨u, hu, fun hph => by rw [hexec, if_neg hph], fun hph hwas => ?_, fun hph => ⟨_, hexec, ?_⟩⟩
    · rw [hexec, if_pos hph, if_pos hwas, engineReleased, heng]
    · rw [if_pos hph]
      split
      · exact ⟨hidle, hwd⟩
      · refine ⟨by rw [eng_congr (capacityCheck_shape _ _).engs, hidle], ?_⟩
        rw [withdrawn, on, rd, rdw_capacityCheck (wdField_local e.isLt), ← rd]
        exact hwd

end Sys2Proof.Machine
end

section
/-! PROOFS. A node frame or a sync measurement at a port, from the guardian to its slot (R49, R183, R187, R196, R199, R208). -/

namespace Sys2Proof.Machine

/-! ## What the guardian of a port goes by -/

/-- `t` agrees with `s` in all that the guardian and the receive engine of port `p` go by: the schedule, the taken-over registers, who launches, and the port's line. -/
structure PortView (p : Nat) (s t : State) : Prop where
  mem : t.mem = s.mem
  ctl : t.ctl = s.ctl
  launching : t.lemac.launching = s.lemac.launching
  bank : rdw t Reg.CYC_GRAPH_BANK_ACTIVE.addr = rdw s Reg.CYC_GRAPH_BANK_ACTIVE.addr
  sched : rdw t Reg.LEMAC_SCHED_ACTIVE.addr = rdw s Reg.LEMAC_SCHED_ACTIVE.addr
  role : rdw t Reg.PEER_STAT_ROLE.addr = rdw s Reg.PEER_STAT_ROLE.addr
  pairCfg : rdw t Reg.PEER_CFG_EN.addr = rdw s Reg.PEER_CFG_EN.addr
  dline : rdw t (Reg.PORT_DLINE_DLINE p).addr = rdw s (Reg.PORT_DLINE_DLINE p).addr
  relay : rd t (Reg.PORT_STAT_RELAY p) = rd s (Reg.PORT_STAT_RELAY p)

namespace PortView
variable {p : Nat} {s t : State} (h : PortView p s t)
include h

theorem cfg (f : Fld) : Machine.cfg t f = Machine.cfg s f := by rw [Machine.cfg, h.ctl, Machine.cfg]

theorem cfgOn (f : Fld) : Machine.cfgOn t f = Machine.cfgOn s f := by rw [Machine.cfgOn, h.cfg, Machine.cfgOn]

theorem bank_eq : Machine.bank t = Machine.bank s := bank_congr h.bank

theorem schedWord (b i : Nat) : Machine.schedWord t b i = Machine.schedWord s b i := mnum_eq_of_mem h.mem _ _

theorem paired : Machine.paired t = Machine.paired s := by rw [Machine.paired, Machine.role, rd, h.role, ← rd, ← Machine.role, ← Machine.paired]

theorem mapItem (b i : Nat) : Machine.mapItem t b i = Machine.mapItem s b i := by
  simp only [Machine.mapItem, item32, h.schedWord]

theorem portSlots (q : Nat) : Machine.portSlots t q = Machine.portSlots s q := by
  have hin : inService t = inService s := by rw [inService, rd, h.sched, ← rd, ← inService]
  simp only [Machine.portSlots, hin, h.bank_eq, slots, slotTab, h.schedWord]

theorem entItems (e : SlotE) : Machine.entItems t e = Machine.entItems s e := by
  simp only [Machine.entItems, h.mapItem, h.bank_eq]

theorem isOrigin : Machine.isOrigin t p = Machine.isOrigin s p := by
  have hin : inPair t = inPair s := by rw [inPair, h.paired, on, rd, h.pairCfg, ← rd, ← on, ← inPair]
  simp only [Machine.isOrigin, originEnd, h.launching, hin, h.cfgOn]

theorem expected (e : SlotE) : Machine.expected t p e = Machine.expected s p e := by
  have hrelay : isRelay t p = isRelay s p := by rw [isRelay, on, h.relay, ← on, ← isRelay]
  have hline : Machine.dline t p = Machine.dline s p := by rw [Machine.dline, rd, h.dline, ← rd, ← Machine.dline]
  simp only [Machine.expected, h.isOrigin, hrelay, hline]

theorem guardNs : Machine.guardNs t p = Machine.guardNs s p := h.cfg _

theorem windowAt (a : Nat) : Machine.windowAt t p a = Machine.windowAt s p a := by
  simp only [Machine.windowAt, h.portSlots, h.expected, h.guardNs]

theorem asyncAt (a : Nat) : Machine.asyncAt t p a = Machine.asyncAt s p a := by
  simp only [Machine.asyncAt, h.portSlots]

theorem senderPos (f : RxFrame) : Machine.senderPos t p f = Machine.senderPos s p f := by
  simp only [Machine.senderPos, h.cfgOn, h.cfg]

end PortView

theorem PortView.trans {p : Nat} {s t u : State} (h : PortView p s t) (k : PortView p t u) : PortView p s u where
  mem := k.mem.trans h.mem
  ctl := k.ctl.trans h.ctl
  launching := k.launching.trans h.launching
  bank := k.bank.trans h.bank
  sched := k.sched.trans h.sched
  role := k.role.trans h.role
  pairCfg := k.pairCfg.trans h.pairCfg
  dline := k.dline.trans h.dline
  relay := k.relay.trans h.relay

/-- Registers of the port's page but its line delay and its STAT are not among what its guardian goes by. -/
theorem PortView.of_port_regs {p : Nat} {s t : State} (hmem : t.mem = s.mem) (hctl : t.ctl = s.ctl) (hlaunch : t.lemac.launching = s.lemac.launching)
    {o : Nat} (ho : o < 0x1000) (hp : p < 24) (hd : o ≠ 0x50) (hrelay : rd t (Reg.PORT_STAT_RELAY p) = rd s (Reg.PORT_STAT_RELAY p))
    (h : ∀ k, Aside (0x60 + p) k → k ≠ 0x60000 + o + p * 0x1000 → rdw t k = rdw s k) : PortView p s t where
  mem := hmem
  ctl := hctl
  launching := hlaunch
  bank := h _ ⟨by decide, .inl (by decide)⟩ (by simp only [Reg.CYC_GRAPH_BANK_ACTIVE]; omega)
  sched := h _ ⟨by decide, .inl (by decide)⟩ (by simp only [Reg.LEMAC_SCHED_ACTIVE]; omega)
  role := h _ ⟨by decide, .inl (by decide)⟩ (by simp only [Reg.PEER_STAT_ROLE]; omega)
  pairCfg := h _ ⟨by decide, .inl (by decide)⟩ (by simp only [Reg.PEER_CFG_EN]; omega)
  dline := h _ ⟨by simp only [Reg.PORT_DLINE_DLINE]; omega, .inl (by simp only [Reg.PORT_DLINE_DLINE]; omega)⟩ (by simp only [Reg.PORT_DLINE_DLINE]; omega)
  relay := hrelay

/-- A register of a port's page above its header. -/
theorem portReg_aside {p o : Nat} (hp : p < 24) (ho : 0x40 ≤ o) (hlt : o < 0x1000) (q : Nat) : Aside q (0x60000 + o + p * 0x1000) :=
  ⟨by omega, .inl (by omega)⟩

section
variable {p : Nat} (hp : p < 24)
include hp

/-- Writing or counting a field of the port's page other than DLINE and STAT leaves what the guardian goes by. -/
theorem portView_wr (s : State) {f : Fld} {o : Nat} (v : Nat) (hf : f.addr = 0x60000 + o + p * 0x1000) (ho : o < 0x1000) (hd : o ≠ 0x50) (hs : o ≠ 0x4C) :
    PortView p s (wr s f v) := by
  refine .of_port_regs rfl rfl rfl ho hp hd ?_ fun k _ hne => rdw_wr_other _ _ _ (hf ▸ hne)
  exact rd_wr_other _ _ _ _ (by rw [hf]; simp only [Reg.PORT_STAT_RELAY]; omega)

theorem portView_linkUp (s : State) : PortView p s (linkUp s p) :=
  .of_port_regs rfl rfl rfl (o := 0x4C) (by decide) hp (by decide)
    (rd_wr_disj _ _ _ _ (Nat.le_refl _) (by simp [Reg.PORT_STAT_LINK]) (Nat.le_refl _) (by simp [Reg.PORT_STAT_LINK, Reg.PORT_STAT_RELAY]))
    fun k _ hne => rdw_wr_other _ _ _ hne

theorem portView_incCnt (s : State) {f : Fld} {o : Nat} (hf : f.addr = 0x60000 + o + p * 0x1000) (ho : o < 0x1000) (hd : o ≠ 0x50) (hs : o ≠ 0x4C) :
    PortView p s (incCnt s f) := by
  have hpage : f.page = 0x60 + p := by
    rw [Fld.page, hf]
    omega
  have hother : ∀ k, Aside (0x60 + p) k → k ≠ 0x60000 + o + p * 0x1000 → rdw (incCnt s f) k = rdw s k := fun k hk hne =>
    rdw_incCnt (hpage ▸ hk) (hf ▸ hne) s
  refine .of_port_regs (incCnt_mem ..) (incCnt_ctl ..) (by rw [incCnt_lemac]) ho hp hd ?_ hother
  rw [rd, hother (Reg.PORT_STAT_RELAY p).addr (portReg_aside hp (o := 0x4C) (by decide) (by decide) _) (by simp only [Reg.PORT_STAT_RELAY]; omega), rd]

end

/-! ## The violation run (R196, R198, R199) -/

theorem rd_violate (s : State) (p : Nat) : rd (violate s p) (Reg.PORT_VRUN_RUN p) = min 255 (rd s (Reg.PORT_VRUN_RUN p) + 1) := by
  rw [violate, rd_wr_self _ _ _ (by simp [Reg.PORT_VRUN_RUN]) (by simp [Reg.PORT_VRUN_RUN]), Nat.mod_eq_of_lt]
  simp only [Reg.PORT_VRUN_RUN]
  omega

section
variable {p : Nat} (hp : p < 24)
include hp

/-- A blocked frame raises the violation run by one, up to 255, and counts no FCS error. -/
theorem blockFrame_effect (s : State) (a : Nat) : RegsWire s (blockFrame s p a) ∧
    rd (blockFrame s p a) (Reg.PORT_VRUN_RUN p) = min 255 (rd s (Reg.PORT_VRUN_RUN p) + 1) ∧
    rd (blockFrame s p a) (Reg.PORT_CRC_ERR_COUNT p) = rd s (Reg.PORT_CRC_ERR_COUNT p) := by
  have counted : ∀ (c : Bool) (f : Fld), f.addr = (Reg.PORT_VRUN_RUN p).addr ∨ f.addr = (Reg.PORT_CRC_ERR_COUNT p).addr →
      rd (incErr s (if c then Reg.PORT_EARLY_ERR_COUNT p else Reg.PORT_LATE_ERR_COUNT p)) f = rd s f := fun c f hf => by
    have haside : ∀ q, Aside q f.addr := fun q => by
      rcases hf with hf | hf <;> rw [hf]
      · exact portReg_aside hp (o := 0x88) (by decide) (by decide) q
      · exact portReg_aside hp (o := 0x74) (by decide) (by decide) q
    rw [rd, rdw_incErr (haside _) ?_, rd]
    rcases hf with hf | hf <;> rw [hf] <;> cases c <;>
      simp [Reg.PORT_VRUN_RUN, Reg.PORT_CRC_ERR_COUNT, Reg.PORT_EARLY_ERR_COUNT, Reg.PORT_LATE_ERR_COUNT]
  have raised : ∀ u : State, rd (violate u p) (Reg.PORT_CRC_ERR_COUNT p) = rd u (Reg.PORT_CRC_ERR_COUNT p) := fun u =>
    rd_wr_other _ _ _ _ (by simp [Reg.PORT_VRUN_RUN, Reg.PORT_CRC_ERR_COUNT])
  unfold blockFrame
  extract_lets es dist best u
  have hu : RegsWire s u ∧ rd u (Reg.PORT_VRUN_RUN p) = rd s (Reg.PORT_VRUN_RUN p) ∧ rd u (Reg.PORT_CRC_ERR_COUNT p) = rd s (Reg.PORT_CRC_ERR_COUNT p) := by
    unfold u
    clear_value best
    cases best with
    | none => exact ⟨RegsWire.refl s, rfl, rfl⟩
    | some x =>
      have h := counted (decide (a < x))
      simp only [decide_eq_true_eq] at h
      exact ⟨incErr_shape _ _, h _ (.inl rfl), h _ (.inr rfl)⟩
  obtain ⟨hshape, hrun, hcrc⟩ := hu
  exact ⟨hshape.trans (RegsWire.wr u _ _), by rw [rd_violate, hrun], by rw [raised, hcrc]⟩

/-- What a frame that starts in no window leaves: the violation run is higher by one at least, and by one for each begun 1 µs of the frame at most. -/
theorem blockRun_effect {s : State} {a n : Nat} (hn : 0 < n) (hwin : windowAt s p a = none) (hasync : asyncAt s p a = none) :
    RegsWire s (blockRun s p a n true) ∧ min 255 (rd s (Reg.PORT_VRUN_RUN p) + 1) ≤ rd (blockRun s p a n true) (Reg.PORT_VRUN_RUN p) ∧
    rd (blockRun s p a n true) (Reg.PORT_VRUN_RUN p) ≤ min 255 (rd s (Reg.PORT_VRUN_RUN p) + (n + 999) / 1000) ∧
    rd (blockRun s p a n true) (Reg.PORT_CRC_ERR_COUNT p) = rd s (Reg.PORT_CRC_ERR_COUNT p) := by
  unfold blockRun
  obtain ⟨m, hm⟩ : ∃ m, (n + 999) / 1000 = m + 1 := ⟨(n + 999) / 1000 - 1, by omega⟩
  rw [hm]
  clear hm hn
  induction m with
  | zero =>
    simp only [Nat.zero_add, List.range_one, List.foldl_cons, List.foldl_nil, Nat.mul_zero, Nat.add_zero, hwin, hasync]
    obtain ⟨hshape, hrun, hcrc⟩ := blockFrame_effect hp s a
    exact ⟨hshape, hrun.ge, hrun.le, hcrc⟩
  | succ m ih =>
    rw [List.range_succ, List.foldl_append]
    obtain ⟨hshape, hlo, hhi, hcrc⟩ := ih
    simp only [List.foldl_cons, List.foldl_nil]
    split
    · obtain ⟨hshape', hrun', hcrc'⟩ := blockFrame_effect hp ((List.range (m + 1)).foldl (fun s i => let t := a + 1000 * i
        if (i != 0 || true) && (windowAt s p t).isNone && (asyncAt s p t).isNone then blockFrame s p t else s) s) (a + 1000 * (m + 1))
      refine ⟨hshape.trans hshape', ?_, ?_, hcrc'.trans hcrc⟩
      · rw [hrun']; exact le_min (min_le_left _ _) (hlo.trans (Nat.le_succ _))
      · rw [hrun']
        omega
    · exact ⟨hshape, hlo, hhi.trans (by omega), hcrc⟩

end

/-! ## A frame outside every window (R187, R196) -/

theorem chkFrame_crc {f : RxFrame} {s : State} (hf : f.fcs = false) : chkFrame s f = .crc := by
  unfold chkFrame
  simp [hf]

section
variable {f : RxFrame} {s : State} {p : Nat} (hp : p = f.port.val)
include hp

theorem rxSlotFrame_off (h : portLive s p = false) : rxSlotFrame s f = s := by
  subst hp
  unfold rxSlotFrame
  simp [h]

theorem chkFrame_blocked (hf : f.fcs = true) (hwin : windowAt s p f.start = none) (hasync : asyncAt s p f.start = none) : chkFrame s f = .blocked := by
  subst hp
  unfold chkFrame
  simp [hf, hwin, hasync]

theorem rxSlotFrame_outside (h : portLive s p = true) (hwin : windowAt s p f.start = none) {c : Chk} (hc : chkFrame (linkUp s p) f = c) (hk : ∀ k, c ≠ .ok k) :
    rxSlotFrame s f = countChk (linkUp s p) p f c := by
  have hp24 : p < 24 := hp ▸ f.port.isLt
  subst hp
  unfold rxSlotFrame
  simp only [h, if_true, (portView_linkUp hp24 s).windowAt, hwin]
  cases c with
  | ok k => exact absurd rfl (hk k)
  | _ => rw [hc]

end

theorem frameNs_pos (s : State) (p n : Nat) : 0 < frameNs s p n := by
  unfold frameNs wireNs
  split <;> split <;> omega

theorem frameNs_linkUp {p : Nat} (hp : p < 24) (s : State) (n : Nat) : frameNs (linkUp s p) p n = frameNs s p n := by
  have hspeed : rd (linkUp s p) (Reg.PORT_CTRL_SPEED p) = rd s (Reg.PORT_CTRL_SPEED p) :=
    rd_wr_other _ _ _ _ (by simp [Reg.PORT_CTRL_SPEED, Reg.PORT_STAT_LINK])
  simp only [frameNs, wireNs, hp, if_true, hspeed]

/-! ## A frame that its slot accepts (R49, R183, R200) -/

/-- The frame is kept among those of the cycle. -/
def rxNoted (s : State) (r : RxRec) : State := { s with lemac := { s.lemac with rx := s.lemac.rx ++ [r] } }

/-- What an accepted frame carries, delivered: the values of a node frame, or the deviation of a sync node. -/
def slotValues (s : State) (e : SlotE) (f : RxFrame) : State :=
  if e.kind = 0 then
    let s := writeItems s (entItems s e) (((fBody f).drop 8).take (bNum (fBody f) 4 2))
    if placesNode s (entItems s e) then noteNode s (fCyc f) else s
  else noteTheta s e.slot (sgn 64 (bNum (fBody f) 4 8))

/-- The first frame of a cycle, in a slot without a clash, delivers what it carries and fires the slot's edges. -/
theorem takeSlot_first {s : State} {p k : Nat} {e : SlotE} {f : RxFrame} (hnull : fNull f = false) (hrx : s.lemac.rx = []) (hclash : s.lemac.clash = [])
    (hfired : s.lemac.fired = []) : takeSlot s p k e f = fireSlot (slotValues (rxNoted s (recOf p k e f)) e f) p k e := by
  have hnone : clashWith s (recOf p k e f) = none := by
    unfold clashWith
    rw [hrx]
    rfl
  have hslot : slotFired (rxNoted s (recOf p k e f)) (slotKey e) = false := by
    unfold slotFired
    simp [rxNoted, hfired]
  unfold takeSlot
  dsimp only
  rw [hnone, hnull]
  refine (if_neg (by simp [hclash])).trans ((if_neg ?_).trans rfl)
  exact Bool.eq_false_iff.mp hslot

/-- The network's state once a start in the window of entry `k` is recorded (R200). -/
def startNoted (s : State) (p k a : Nat) (e : SlotE) : LemacSt :=
  let d : Int := (a : Int) - expected s p e
  let out := decide ((guardNs s p / 2 : Nat) < d.natAbs)
  let l := s.lemac
  let key := entKey p k
  let seen := (tget (fun _ => none) l.offs key).isSome
  { l with
    offs := tput (fun _ => none) l.offs key (some d),
    drift := if seen then l.drift else tmod (fun _ => 0) l.drift key (fun n => if out then n + 1 else 0),
    within := if seen then l.within else tmod (fun _ => 0) l.within key (fun n => if out then 0 else n + 1) }

theorem rd_lemac (s : State) (l : LemacSt) (f : Fld) : rd { s with lemac := l } f = rd s f := rfl

theorem noteStart_eq (s : State) (p k a : Nat) (e : SlotE) : noteStart s p k a e = wr { s with lemac := startNoted s p k a e } (Reg.PORT_VRUN_RUN p) 0 := rfl

/-- The port once a frame in the window of entry `k` has passed its checks: its offset is recorded, and it is counted and forwarded. -/
def frameCounted (s : State) (p k : Nat) (e : SlotE) (f : RxFrame) : State :=
  forwardFrame (incCnt (noteStart (linkUp s p) p k f.start e) (Reg.PORT_RX_CNT_COUNT p)) p f e

theorem forwardFrame_regs (s : State) (p : Nat) (f : RxFrame) (e : SlotE) : RegsWire s (forwardFrame s p f e) ∧ (forwardFrame s p f e).regs = s.regs := by
  unfold forwardFrame
  split
  · exact ⟨RegsWire.emit _ _, rfl⟩
  · exact ⟨RegsWire.refl s, rfl⟩

theorem PortView.of_lemac {p : Nat} (s : State) {l : LemacSt} (h : l.launching = s.lemac.launching) : PortView p s { s with lemac := l } :=
  ⟨rfl, rfl, h, rfl, rfl, rfl, rfl, rfl, rfl⟩

theorem PortView.of_eq {p : Nat} {s t : State} (h : RegsWire s t) (hr : t.regs = s.regs) : PortView p s t := by
  have hrd : ∀ k, rdw t k = rdw s k := fun k => by rw [rdw, hr, rdw]
  have hf : ∀ f, rd t f = rd s f := fun f => by rw [rd, hrd, rd]
  exact ⟨h.mem, h.ctl, by rw [h.lemac], hrd _, hrd _, hrd _, hrd _, hrd _, hf _⟩

section
variable {p : Nat} (hp : p < 24)
include hp

theorem portView_noteStart (s : State) (k a : Nat) (e : SlotE) : PortView p s (noteStart s p k a e) :=
  (PortView.of_lemac s (l := startNoted s p k a e) rfl).trans (portView_wr hp _ (f := Reg.PORT_VRUN_RUN p) (o := 0x88) 0 rfl (by decide) (by decide) (by decide))

theorem portView_frameCounted (s : State) (k : Nat) (e : SlotE) (f : RxFrame) : PortView p s (frameCounted s p k e f) := by
  obtain ⟨hshape, hregs⟩ := forwardFrame_regs (incCnt (noteStart (linkUp s p) p k f.start e) (Reg.PORT_RX_CNT_COUNT p)) p f e
  exact (((portView_linkUp hp s).trans (portView_noteStart hp _ k f.start e)).trans
    (portView_incCnt hp _ (f := Reg.PORT_RX_CNT_COUNT p) (o := 0x5C) rfl (by decide) (by decide) (by decide))).trans (.of_eq hshape hregs)

/-- What is counted and recorded of an accepted frame. -/
theorem frameCounted_effect (s : State) (k : Nat) (e : SlotE) (f : RxFrame) :
    rd (frameCounted s p k e f) (Reg.PORT_RX_CNT_COUNT p) = (rd s (Reg.PORT_RX_CNT_COUNT p) + 1) % 2 ^ 32 ∧
    rd (frameCounted s p k e f) (Reg.PORT_VRUN_RUN p) = 0 ∧ (frameCounted s p k e f).lemac = (noteStart (linkUp s p) p k f.start e).lemac ∧
    (frameCounted s p k e f).sched = s.sched := by
  obtain ⟨hshape, hregs⟩ := forwardFrame_regs (incCnt (noteStart (linkUp s p) p k f.start e) (Reg.PORT_RX_CNT_COUNT p)) p f e
  have hrd : ∀ g, rd (frameCounted s p k e f) g = rd (incCnt (noteStart (linkUp s p) p k f.start e) (Reg.PORT_RX_CNT_COUNT p)) g := fun g => by
    rw [rd, rdw, frameCounted, hregs, ← rdw, ← rd]
  refine ⟨?_, ?_, ?_, ?_⟩
  · rw [hrd, rd_incCnt_self (portReg_aside hp (o := 0x5C) (by decide) (by decide) _) (Nat.zero_le _) (by decide : 31 < 32)]
    congr 2
    rw [noteStart_eq, rd_wr_other _ _ _ _ (by simp [Reg.PORT_VRUN_RUN, Reg.PORT_RX_CNT_COUNT]), rd_lemac]
    exact rd_wr_other _ _ _ _ (by simp [Reg.PORT_STAT_LINK, Reg.PORT_RX_CNT_COUNT])
  · rw [hrd, rd, rdw_incCnt (k := (Reg.PORT_VRUN_RUN p).addr) (portReg_aside hp (o := 0x88) (by decide) (by decide) _) (by simp [Reg.PORT_VRUN_RUN, Reg.PORT_RX_CNT_COUNT]), ← rd, noteStart_eq,
      rd_wr_self _ _ _ (by simp [Reg.PORT_VRUN_RUN]) (by simp [Reg.PORT_VRUN_RUN])]
    simp
  · rw [frameCounted, hshape.lemac, incCnt_lemac]
  · rw [frameCounted, hshape.sched, incCnt_sched]
    rfl

end

theorem rxStalled_congr {s t : State} (h : t.sched = s.sched) (p : Nat) : rxStalled t p = rxStalled s p := by
  rw [rxStalled, poster, h, ← poster, ← rxStalled]

/-- A frame that starts in the window of an entry and passes its checks reaches the entry's slot. -/
theorem rxSlotFrame_accepted {f : RxFrame} {s : State} {p k : Nat} {e : SlotE} (hp : p = f.port.val) (hlive : portLive s p = true)
    (hwin : windowAt s p f.start = some k) (hent : (portSlots s p)[k]? = some e) (hchk : chkFrame (linkUp s p) f = .ok k) (hstall : rxStalled s p = false)
    (hnull : fNull f = false) (hrx : s.lemac.rx = []) (hclash : s.lemac.clash = []) (hfired : s.lemac.fired = []) :
    rxSlotFrame s f = fireSlot (slotValues (rxNoted (frameCounted s p k e f) (recOf p k e f)) e f) p k e := by
  have hp24 : p < 24 := hp ▸ f.port.isLt
  obtain ⟨-, -, hlemac, hsched⟩ := frameCounted_effect hp24 s k e f
  have hslots := (portView_linkUp hp24 s).portSlots p
  have hnoted := (portView_noteStart hp24 (linkUp s p) k f.start e).portSlots p
  have haccept : acceptSlot (noteStart (linkUp s p) p k f.start e) f k = takeSlot (frameCounted s p k e f) p k e f := by
    subst hp
    unfold acceptSlot
    simp only [hnoted, hslots, hent]
    exact if_neg (by rw [← frameCounted, rxStalled_congr hsched, hstall]; decide)
  rw [← takeSlot_first hnull (by rw [hlemac]; exact hrx) (by rw [hlemac]; exact hclash) (by rw [hlemac]; exact hfired), ← haccept]
  subst hp
  unfold rxSlotFrame
  simp only [hlive, if_true, (portView_linkUp hp24 s).windowAt, hwin, hslots, hent, hchk]

/-- The checks of R187 of a frame in the window of an entry that fits it. -/
theorem chkFrame_ok {f : RxFrame} {s : State} {p k : Nat} {e : SlotE} (hp : p = f.port.val) (hwin : windowAt s p f.start = some k)
    (hent : (portSlots s p)[k]? = some e) (hfcs : f.fcs = true) (hether : fEther f = cfg s Reg.LEMAC_ETYPE_ETYPE) (hvalid : fValid f = true)
    (hcyc : fCyc f = s.sched.cycle % 2 ^ 16) (hslot : fSlot f = e.slot) (hkind : fKind f = if e.kind = 0 then 3 else 5) (hpos : senderPos s p f = e.pos)
    (hend : cfgOn s (Reg.PORT_LINE_END p) = true → fHops f < cfg s (Reg.PORT_LINE_N p)) : chkFrame s f = .ok k := by
  subst hp
  have hline : ¬(cfgOn s (Reg.PORT_LINE_END f.port.val) = true ∧ cfg s (Reg.PORT_LINE_N f.port.val) ≤ fHops f) := fun h => absurd (hend h.1) (by omega)
  unfold chkFrame
  simp only [hfcs, hwin, hent, not_true_eq_false, if_false]
  simp [chkEntry, hether, hvalid, hcyc, hslot, hkind, fKindOf, hpos, hline]

theorem PortView.chkFrame {f : RxFrame} {s t : State} (h : PortView f.port.val s t) (hcyc : t.sched.cycle = s.sched.cycle) : chkFrame t f = chkFrame s f := by
  simp only [Machine.chkFrame, chkEntry, h.windowAt, h.portSlots, h.asyncAt, h.cfg, h.cfgOn, h.senderPos, hcyc]

/-! ## The values of a slot (R183) -/

theorem noteNode_shape (s : State) (cyc : Nat) : noteNode s cyc = { s with safe := (noteNode s cyc).safe } := rfl

theorem noteTheta_shape (s : State) (i : Nat) (d : Int) : noteTheta s i d = { s with time := (noteTheta s i d).time } := by
  unfold noteTheta
  dsimp only
  split <;> rfl

theorem staleItems_shape (s : State) (l : List Nat) : staleItems s l = { s with mem := (staleItems s l).mem } :=
  List.foldlRecOn l _ (motive := fun t : State => t = { s with mem := t.mem }) rfl fun t ht w _ => by
    rw [ht]
    rfl

theorem writeItems_shape (l : List Nat) : ∀ (s : State) (v : List Byte), writeItems s l v = { s with mem := (writeItems s l v).mem } := by
  induction l with
  | nil => exact fun _ _ => rfl
  | cons w r ih =>
    intro s v
    unfold writeItems
    extract_lets n x y
    split
    · exact staleItems_shape _ _
    · rw [ih, wrPt_shape]

/-- Delivering a frame writes memory, and the unit's notes of safe messages and of time. -/
theorem slotValues_shape (s : State) (e : SlotE) (f : RxFrame) :
    slotValues s e f = { s with mem := (slotValues s e f).mem, safe := (slotValues s e f).safe, time := (slotValues s e f).time } := by
  unfold slotValues
  extract_lets u
  split
  · have hu : u = { s with mem := u.mem } := writeItems_shape _ _ _
    split
    · rw [noteNode_shape, hu]
    · rw [hu]
  · rw [noteTheta_shape]

theorem slotValues_sync {s : State} {e : SlotE} (f : RxFrame) (h : e.kind ≠ 0) : (slotValues s e f).mem = s.mem := by
  unfold slotValues
  rw [if_neg h, noteTheta_shape]

/-- The values of a node frame are written before the reset node's message is looked at. -/
theorem slotValues_node {s : State} {e : SlotE} (f : RxFrame) (h : e.kind = 0) :
    (slotValues s e f).mem = (writeItems s (entItems s e) (((fBody f).drop 8).take (bNum (fBody f) 4 2))).mem := by
  unfold slotValues
  dsimp only
  rw [if_pos h]
  split
  · rw [noteNode_shape]
  · rfl

/-- One 32-bit item that is not sign-extended takes the first four bytes. -/
theorem writeItems_word (s : State) {w : Nat} {v : List Byte} (h20 : bitOf 20 w = false) (h21 : bitOf 21 w = false) (hv : 4 ≤ v.length) :
    writeItems s [w] v = wrPt s (w % 2 ^ 20) (beNat (v.take 4)) false := by
  simp [writeItems, h20, h21, Nat.not_lt.mpr hv]

theorem entItems_one (s : State) {e : SlotE} (h : e.mapn = 1) : entItems s e = [mapItem s (bank s) e.map] := by
  simp [entItems, h]

/-- A point of a map item that may be written holds the word, and is fresh. -/
theorem wrPt_fresh {s : State} {w x : Nat} (hx : x < 2 ^ 64) (h : w / 32768 % 32 ≠ 29 ∨ paired s = true) :
    mnum (wrPt s (w % 2 ^ 20) x false) (ptAddr w) 8 = x ∧ (mget (wrPt s (w % 2 ^ 20) x false) (pdAddr w)).toNat = 0 := by
  have hpt : ptAddr w = ptAddr (w % 2 ^ 20) := by simp [ptAddr]
  have hpd : pdAddr w = pdAddr (w % 2 ^ 20) := by simp [pdAddr]
  have hg : w % 2 ^ 20 / 32768 % 32 ≠ 29 ∨ paired s = true := h.imp_left fun hw => by omega
  rw [hpt, hpd]
  generalize w % 2 ^ 20 = q at hg ⊢
  refine ⟨(wrPt_is s q x false hg).1.trans (Nat.mod_eq_of_lt hx), ?_⟩
  rw [wrPt, if_neg (by tauto), setStale, mget_mput_self]
  rfl

theorem leNat_lt (l : List Byte) : leNat l < 256 ^ l.length := by
  induction l with
  | nil => exact Nat.one_pos
  | cons b r ih =>
    have hb := b.isLt
    simp only [leNat, List.length_cons, pow_succ]
    omega

/-- Four bytes are a number below 2^32. -/
theorem beNat_word_lt (l : List Byte) : beNat (l.take 4) < 2 ^ 64 := by
  have h := leNat_lt (l.take 4).reverse
  have hpow : 256 ^ (l.take 4).reverse.length ≤ 256 ^ 4 := Nat.pow_le_pow_right (by decide) (by simp)
  exact (h.trans_le hpow).trans (by decide)

/-- A counted FCS error changes of the port's registers only its counter. -/
theorem rd_incErr_crc {p : Nat} (hp : p < 24) (s : State) (g : Fld) {o : Nat} (ho : 0x40 ≤ o ∧ o < 0x1000 ∧ o ≠ 0x74) (hg : g.addr = 0x60000 + o + p * 0x1000) :
    rd (incErr s (Reg.PORT_CRC_ERR_COUNT p)) g = rd s g := by
  rw [rd, rdw_incErr (hg ▸ portReg_aside hp ho.1 ho.2.1 _) (by rw [hg]; simp only [Reg.PORT_CRC_ERR_COUNT]; omega), rd]

/-- Settles O39: outside every window the frame meets only the guardian; in the window of an entry it is counted, kept and delivered. -/
theorem nodeAndSyncFrames : Obligations.NodeAndSyncFrames := by
  unfold Obligations.NodeAndSyncFrames
  intro f s i hi p hp
  have hexec : exec i s = .next (rxSlotFrame s f) := by
    simp only [List.mem_cons, List.not_mem_nil, or_false] at hi
    rcases hi with rfl | rfl <;> rfl
  have hp24 : p < 24 := hp ▸ f.port.isLt
  have hup := portView_linkUp hp24 s
  have hlinked : ∀ g : Fld, g.addr ≠ (Reg.PORT_STAT_LINK p).addr → rd (linkUp s p) g = rd s g := fun g hg => rd_wr_other _ _ _ _ hg
  rw [hexec]
  refine ⟨fun hoff => by rw [rxSlotFrame_off hp hoff], fun hlive => ⟨fun hwin hfcs => ?_, fun hwin hfcs hasync => ?_, ?_⟩⟩
  · rw [rxSlotFrame_outside hp hlive hwin (chkFrame_crc hfcs) nofun]
    refine ⟨_, rfl, (RegsWire.wr s _ _).trans (incErr_shape _ _), ?_, ?_, ?_⟩
    · rw [countChk, on, rd_incErr_crc hp24 _ _ (o := 0x4C) (by decide) rfl, linkUp,
        rd_wr_self _ _ _ (by simp [Reg.PORT_STAT_LINK]) (by simp [Reg.PORT_STAT_LINK])]
      simp [Reg.PORT_STAT_LINK]
    · rw [countChk, rd_incErr_self _ (portReg_aside hp24 (o := 0x74) (by decide) (by decide) _) (Nat.zero_le _) (by decide : 15 < 32), hlinked]
      · rfl
      · simp [Reg.PORT_CRC_ERR_COUNT, Reg.PORT_STAT_LINK]
    · rw [countChk, rd_incErr_crc hp24 _ (Reg.PORT_VRUN_RUN p) (o := 0x88) (by decide) rfl, hlinked]
      simp [Reg.PORT_VRUN_RUN, Reg.PORT_STAT_LINK]
  · have hwin' := (hup.windowAt _).trans hwin
    have hasync' := (hup.asyncAt _).trans hasync
    rw [rxSlotFrame_outside hp hlive hwin (chkFrame_blocked hp hfcs hwin' hasync') nofun, ← frameNs_linkUp hp24, ← hlinked (Reg.PORT_VRUN_RUN p),
      ← hlinked (Reg.PORT_CRC_ERR_COUNT p)]
    · obtain ⟨hshape, hblocked⟩ := blockRun_effect hp24 (frameNs_pos (linkUp s p) p f.bytes.length) hwin' hasync'
      exact ⟨_, rfl, (RegsWire.wr s _ _).trans hshape, hblocked⟩
    · simp [Reg.PORT_CRC_ERR_COUNT, Reg.PORT_STAT_LINK]
    · simp [Reg.PORT_VRUN_RUN, Reg.PORT_STAT_LINK]
  · intro k e hwin hent hfcs hether hvalid hcyc hslot hkind hpos hend hstall hnull hrx hclash hfired
    have hchk := chkFrame_ok hp hwin hent hfcs hether hvalid hcyc hslot hkind hpos hend
    rw [← (hp ▸ hup : PortView f.port.val s (linkUp s p)).chkFrame rfl] at hchk
    obtain ⟨hcnt, hrun, hlemac, hsched⟩ := frameCounted_effect hp24 s k e f
    have hview := portView_frameCounted hp24 s k e f
    have hshape := slotValues_shape (rxNoted (frameCounted s p k e f) (recOf p k e f)) e f
    have hrd : ∀ g, rd (slotValues (rxNoted (frameCounted s p k e f) (recOf p k e f)) e f) g = rd (frameCounted s p k e f) g := fun g => by
      rw [hshape]
      rfl
    have hnet : (slotValues (rxNoted (frameCounted s p k e f) (recOf p k e f)) e f).lemac =
        { startNoted (linkUp s p) p k f.start e with rx := [recOf p k e f] } := by
      rw [hshape]
      change { (frameCounted s p k e f).lemac with rx := (frameCounted s p k e f).lemac.rx ++ [recOf p k e f] } = _
      rw [hlemac, noteStart_eq]
      simp only [wr_lemac]
      rw [show (startNoted (linkUp s p) p k f.start e).rx = [] from hrx]
      rfl
    refine ⟨_, congrArg _ (rxSlotFrame_accepted hp hlive hwin hent hchk hstall hnull hrx hclash hfired), (hrd _).trans hcnt, (hrd _).trans hrun, ?_, ?_, fun hk => ?_, ?_⟩
    · rw [hnet]
    · rw [hnet]
      simp only [startNoted, tget_tput_self, hup.expected]
    · rw [slotValues_sync f hk]
      exact hview.mem
    · rintro it rfl hk hone h20 h21 hseg hlen hbody
      have hview' : PortView p s (rxNoted (frameCounted s p k e f) (recOf p k e f)) := hview.trans (.of_lemac _ rfl)
      have hmem := slotValues_node (s := rxNoted (frameCounted s p k e f) (recOf p k e f)) f hk
      rw [hview'.entItems, entItems_one s hone, writeItems_word _ h20 h21 (by simp; omega), List.take_take, min_eq_left hlen] at hmem
      rw [mnum_eq_of_mem hmem, mget, hmem, ← mget]
      exact wrPt_fresh (beNat_word_lt _) (by rw [hview'.paired]; exact hseg)

end Sys2Proof.Machine
end

section
/-! PROOFS. GINSTALL and LOADIMEM as they are written: refused, or begun with their blocks held (R59, R72, R443). -/

namespace Sys2Proof.Machine

/-! ## Blocks that change hands (R443) -/

theorem passBlocks_shape (s : State) (b n new : Nat) : passBlocks s b n new = { s with cist := (passBlocks s b n new).cist } :=
  List.foldlRecOn (List.range n) _ (motive := fun t : State => t = { s with cist := t.cist }) rfl fun t ht i _ => by
    rw [ht]
    rfl

/-- Blocks that are passed have their new owner, and every other block keeps its own. -/
theorem flt_passBlocks (s : State) (b n j : Nat) {new : Nat} (hnew : new < 4) :
    flt (passBlocks s b n new) j = if b ≤ j ∧ j < b + n then new else flt s j := by
  induction n with
  | zero => rw [if_neg (by omega)]; rfl
  | succ n ih =>
    have hstep : passBlocks s b (n + 1) new = setFloat (passBlocks s b n new) (b + n) new false := by
      simp [passBlocks, List.range_succ]
    obtain ⟨hother, hself, -⟩ := setFloat_blocks (passBlocks s b n new) (b + n) new false hnew
    rw [hstep]
    by_cases hj : j = b + n
    · subst hj
      rw [hself, if_pos (by omega)]
    · rw [flt, hother j hj, ← flt, ih]
      exact if_congr (by omega) rfl rfl

theorem noteBlocks_shape (s : State) (b n : Nat) : noteBlocks s b n = { s with pair := (noteBlocks s b n).pair } :=
  List.foldlRecOn (List.range n) _ (motive := fun t : State => t = { s with pair := t.pair }) rfl fun t ht i _ => by
    rw [noteItem, noteItems_shape, ht]

theorem holdBlocks_shape (s : State) (b n : Nat) :
    holdBlocks s b n = { s with pair := (holdBlocks s b n).pair, cist := (holdBlocks s b n).cist } := by
  rw [holdBlocks, passBlocks_shape, noteBlocks_shape]

theorem flt_holdBlocks (s : State) (b n j : Nat) : flt (holdBlocks s b n) j = if b ≤ j ∧ j < b + n then 2 else flt s j := by
  rw [holdBlocks, flt_passBlocks _ _ _ _ (by decide), noteBlocks_shape]
  rfl

theorem giveBack_shape (s : State) (b n : Nat) : giveBack s b n = { s with cist := (giveBack s b n).cist } := by
  unfold giveBack
  split
  · exact passBlocks_shape _ _ _ _
  · rfl

theorem flt_giveBack {s : State} (h : domOn s dCIST = true) (b n : Nat) {i : Nat} (hi : i < n) : flt (giveBack s b n) (b + i) = 1 := by
  rw [giveBack, if_pos h, flt_passBlocks _ _ _ _ (by decide), if_pos (by omega)]

theorem holdAndReturn_shape (s : State) (b n : Nat) : holdAndReturn s b n = { s with cist := (holdAndReturn s b n).cist } := by
  unfold holdAndReturn
  dsimp only
  rw [passBlocks_shape, passBlocks_shape]

/-- Blocks held up to the first that the host does not own, and returned, have the owners that they had. -/
theorem flt_holdAndReturn (s : State) (b n j : Nat) : flt (holdAndReturn s b n) j = flt s j := by
  unfold holdAndReturn
  extract_lets k
  have hheld : ∀ i, i < k → flt s (b + i) = 1 := fun i hi => by
    have hlt : i < ((List.range n).takeWhile (fun i => decide (b + i < 32768) && flt s (b + i) == 1)).length := hi
    have hmem := List.all_eq_true.mp (List.all_takeWhile (l := List.range n) (p := fun i => decide (b + i < 32768) && flt s (b + i) == 1)) _ (List.getElem_mem hlt)
    rw [(List.takeWhile_prefix _).getElem hlt, List.getElem_range] at hmem
    simp only [Bool.and_eq_true, beq_iff_eq] at hmem
    exact hmem.2
  rw [flt_passBlocks _ _ _ _ (by decide), flt_passBlocks _ _ _ _ (by decide)]
  split
  · next h =>
    have hj := hheld (j - b) (by omega)
    rw [show b + (j - b) = j by omega] at hj
    exact hj.symm
  · rfl

theorem hostOwned_congr {s t : State} (h : t.cist = s.cist) (b n : Nat) : hostOwned t b n = hostOwned s b n := by
  simp only [hostOwned, allFloat, flt, blk_congr h]

/-! ## Images (R59, R72) -/

section
variable {s t : State} (h : t.mem = s.mem)
include h

theorem imgWord_congr (b o : Nat) : imgWord t b o = imgWord s b o := mnum_eq_of_mem h _ _

theorem imgLen_congr (b lim : Nat) : imgLen t b lim = imgLen s b lim := by simp only [imgLen, imgWord_congr h]

theorem gsec_congr (b i : Nat) : gsec t b i = gsec s b i := by simp only [gsec, imgWord_congr h]

theorem nIntra_congr (b : Nat) : nIntra t b = nIntra s b := funext fun _ => imgWord_congr h b _

theorem gHeaderBad_congr (b len : Nat) : gHeaderBad t b len = gHeaderBad s b len := by
  simp only [gHeaderBad, intraBefore, nIntra_congr h, imgWord_congr h, gsec_congr h]
  rfl

theorem validTasks_congr (b : Nat) : validTasks t b = validTasks s b := by rw [validTasks, h, validTasks]

end

/-! ## The word that is written (R13, R421) -/

/-- Keys that a GCMD command reads and its own write leaves. -/
theorem gcmd_keys {k : Nat} (h : 0x40 ≤ k % 0x1000) (hne : k ≠ 0x14100) (hb : k ≠ 0xB1C00) : k ∉ cmdKeys Reg.CYC_GCMD.addr := by
  simp only [cmdKeys, sideKeys, Reg.CYC_GCMD, List.mem_cons, List.not_mem_nil, or_false]
  omega

/-- BUSY is read-only. -/
theorem on_plainWrite_gcmdBusy (s : State) (m : Master) (w : Nat) : on (plainWrite s m Reg.CYC_GCMD.addr w) Reg.CYC_GCMD_BUSY = on s Reg.CYC_GCMD_BUSY := by
  have hrows : ∀ r ∈ rowsAt Reg.CYC_GCMD.addr, r.lo ≤ r.hi ∧ ((r.hi = 31 ∧ r.lo = 31 ∧ r.acc = .ro) ∨ r.hi < 31 ∨ 31 < r.lo) := by decide
  have hcut : ∀ v, bits 31 31 (v % 2 ^ 32) = bits 31 31 v := fun v => by simp only [bits]; omega
  have hself := rdw_plainWrite_self s m Reg.CYC_GCMD.addr w (by decide) (by decide) (by decide)
  have hon : ∀ t, on t Reg.CYC_GCMD_BUSY = (bits 31 31 (rdw t Reg.CYC_GCMD.addr) == 1) := fun _ => rfl
  rw [hon, hself, hcut, bits_newValue_ro (le_refl 31) hrows, hon]

/-- `u` is `s` with the word of a GCMD command written. -/
structure GcmdWritten (s u : State) : Prop where
  written : Written Reg.CYC_GCMD.addr s u
  busy : on u Reg.CYC_GCMD_BUSY = on s Reg.CYC_GCMD_BUSY

section
variable {s u : State} (h : GcmdWritten s u)
include h

theorem GcmdWritten.mem : u.mem = s.mem := h.written.1.mem
theorem GcmdWritten.sched : u.sched = s.sched := h.written.1.sched
theorem GcmdWritten.cist : u.cist = s.cist := h.written.1.cist
theorem GcmdWritten.domOn (d : Nat) : Machine.domOn u d = Machine.domOn s d := domOn_congr h.written.1.pwr d

theorem GcmdWritten.rdw {k : Nat} (hk : 0x40 ≤ k % 0x1000) (hne : k ≠ 0x14100) (hb : k ≠ 0xB1C00) : Machine.rdw u k = Machine.rdw s k :=
  h.written.2 k (gcmd_keys hk hne hb)

theorem GcmdWritten.gcmdBusy : Machine.gcmdBusy u = Machine.gcmdBusy s := by
  have hpend : on u Reg.LEMAC_SWAP_PEND = on s Reg.LEMAC_SWAP_PEND := h.written.on _ (gcmd_keys (by decide) (by decide) (by decide))
  simp only [Machine.gcmdBusy, h.busy, hpend, h.domOn]

theorem GcmdWritten.gSecBad (g : GSec) : Machine.gSecBad u g = Machine.gSecBad s g := by
  have hin : inService u = inService s := by rw [inService, rd, h.rdw (by decide) (by decide) (by decide), ← rd, ← inService]
  have hbank : bank u = bank s := bank_congr (h.rdw (by decide) (by decide) (by decide))
  simp only [Machine.gSecBad, h.domOn, hin, hbank, validTasks_congr h.mem, cfg, h.written.1.ctl]

theorem GcmdWritten.gFirstSec (b : Nat) : Machine.gFirstSec u b = Machine.gFirstSec s b := by
  simp only [Machine.gFirstSec, h.gSecBad, imgWord_congr h.mem, gsec_congr h.mem]

theorem GcmdWritten.loadable (e : Nat) (he : e < 64) : Machine.loadable u e = Machine.loadable s e := by
  have hwd : withdrawn u e = withdrawn s e := h.written.on _ (gcmd_keys (by simp only [wdField, Reg.CLU_WITHDRAW]; omega) (by simp only [wdField, Reg.CLU_WITHDRAW]; omega) (by simp only [wdField, Reg.CLU_WITHDRAW]; omega))
  have hload : on u (Reg.LE_CTRL_LOAD_EN e) = on s (Reg.LE_CTRL_LOAD_EN e) :=
    h.written.on _ (gcmd_keys (by simp only [Reg.LE_CTRL_LOAD_EN]; omega) (by simp only [Reg.LE_CTRL_LOAD_EN]; omega) (by simp only [Reg.LE_CTRL_LOAD_EN]; omega))
  simp only [Machine.loadable, h.domOn, hwd, eng_congr h.written.1.engs, hload]

end

/-- A GCMD command of a unit that takes it: its word is written, it acts, and its items are kept for the mirror record. -/
theorem gcmdAction_written {m : Master} {w : W32} {s : State} (hm : CanReach m s Reg.CYC_GCMD.addr) (hr : roleBars s m = false) {op : Nat}
    (hop : wbits Reg.CYC_GCMD_OP w = op) (f : State → State) : ∃ u, GcmdWritten s u ∧ Kept (f u) (gcmdAction s m w op f) := by
  refine ⟨plainWrite s m Reg.CYC_GCMD.addr w.toNat, ⟨plainWrite_written _ _ _ _, on_plainWrite_gcmdBusy _ _ _⟩, ?_⟩
  unfold gcmdAction pairActionWith
  rw [pageAccess_open _ _ hm, hr]
  exact ⟨_, by simp only [if_pos hop]; rfl⟩

section
variable {u t : State} (h : Kept u t)
include h

theorem Kept.sched : t.sched = u.sched := by
  obtain ⟨l, rfl⟩ := h
  rw [noteItems_shape]

theorem Kept.cist : t.cist = u.cist := by
  obtain ⟨l, rfl⟩ := h
  rw [noteItems_shape]

theorem Kept.flt (b : Nat) : Machine.flt t b = Machine.flt u b := by rw [Machine.flt, blk_congr h.cist, ← Machine.flt]

theorem Kept.rd (f : Fld) : Machine.rd t f = Machine.rd u f := by rw [Machine.rd, h.rdw, ← Machine.rd]

end

/-! ## The result of a command, and what GCHK records (R59, R421) -/

theorem cyc_aside {k p : Nat} (h : k / 0x1000 = 0x14) (hk : 0x40 ≤ k % 0x1000) : Aside p k := ⟨by omega, .inl hk⟩

/-- A refusal changes registers alone, and of those above the header only the command's own. -/
theorem gcmdRefuse_effect (s : State) {r : Nat} (hr : r < 8) : RegsWire s (gcmdRefuse s r) ∧ rd (gcmdRefuse s r) Reg.CYC_GCMD_RESULT = r ∧
    ∀ f : Fld, f.addr = Reg.CYC_GCHK_VALID.addr → rd (gcmdRefuse s r) f = rd s f := by
  have hraise : ∀ (u : State) (f : Fld), f.addr / 0x1000 = 0x14 → 0x40 ≤ f.addr % 0x1000 → rd (raise u 0x14 8) f = rd u f := fun u f hp hk => by
    rw [rd, rdw_raise_aside (cyc_aside hp hk), rd]
  refine ⟨(RegsWire.wr s _ _).trans (raise_shape _ _ _), ?_, fun f hf => ?_⟩
  · rw [gcmdRefuse, hraise _ _ (by decide) (by decide), rd_wr_self _ _ _ (by decide) (by decide)]
    exact Nat.mod_eq_of_lt hr
  · rw [gcmdRefuse, hraise _ _ (by rw [hf]; decide) (by rw [hf]; decide)]
    exact rd_wr_other _ _ _ _ (by rw [hf]; decide)

/-- What GCHK records of a refused image. -/
theorem gchk_effect (s : State) {r : Nat} (i : Nat) (hr : r < 16) : RegsWire s (gchk s r i) ∧ rd (gchk s r i) Reg.CYC_GCHK_REASON = r ∧
    rd (gchk s r i) Reg.CYC_GCHK_ITEM = i % 2 ^ (Reg.CYC_GCHK_ITEM.hi + 1 - Reg.CYC_GCHK_ITEM.lo) ∧ on (gchk s r i) Reg.CYC_GCHK_VALID = true := by
  have hsticky : ∀ (u : State) (f : Fld), f.addr = Reg.CYC_GCHK_VALID.addr → f.lo ≤ f.hi → f.hi < 31 → rd (setSticky u Reg.CYC_GCHK_VALID) f = rd u f :=
    fun u f hf hle hhi => by
      unfold setSticky
      split
      · rfl
      · rw [rd, rdw_raise_aside (cyc_aside (by rw [hf]; decide) (by rw [hf]; decide)), ← rd, rd_wr_disj _ _ _ _ (by decide) (by decide) hle (.inl hhi)]
  refine ⟨?_, ?_, ?_, on_setSticky_self (cyc_aside (by decide) (by decide)) (by decide) (by decide)⟩
  · exact ((RegsWire.wr s _ _).trans (RegsWire.wr _ _ _)).trans (setSticky_shape _ _)
  · rw [gchk, hsticky _ Reg.CYC_GCHK_REASON rfl (by decide) (by decide)]
    simp only [wrs, List.foldl_cons, List.foldl_nil]
    rw [rd_wr_disj _ _ _ _ (by decide) (by decide) (by decide) (by decide), rd_wr_self _ _ _ (by decide) (by decide)]
    exact Nat.mod_eq_of_lt hr
  · rw [gchk, hsticky _ Reg.CYC_GCHK_ITEM rfl (by decide) (by decide)]
    simp only [wrs, List.foldl_cons, List.foldl_nil]
    rw [rd_wr_self _ _ _ (by decide) (by decide)]

/-- A command that begins: BUSY shows it, and nothing else but the pair's note of the last installation changes. -/
theorem gcmdStart_effect (s : State) (load : Bool) (e b n : Nat) : on (gcmdStart s load e b n) Reg.CYC_GCMD_BUSY = true ∧
    (gcmdStart s load e b n).sched.gcmd = some { load := load, engine := e, blk := b, n := n } ∧ (gcmdStart s load e b n).mem = s.mem ∧
    (gcmdStart s load e b n).cist = s.cist := by
  refine ⟨?_, by rw [gcmdStart, wr_sched]; rfl, by rw [gcmdStart, wr_mem]; rfl, by rw [gcmdStart, wr_cist]; rfl⟩
  rw [on, gcmdStart, rd_wr_self _ _ _ (by decide) (by decide)]
  rfl

/-! ## What GINSTALL does once its word is written (R59) -/

/-- GINSTALL after its word is written. -/
def ginstallStart (w : W32) (s : State) : State :=
  match gcmdBusy s with
  | some c => gcmdRefuse s c
  | none =>
    let b := wbits Reg.CYC_GCMD_BLOCK w
    if !hostOwned s b 1 then gcmdRefuse s 4
    else
      match imgLen s b 0x100000 with
      | none => gcmdRefuse (gchk (giveBack (holdBlocks s b 1) b 1) 1 0) 1
      | some len =>
        let n := len / 256
        if !hostOwned s b n then gcmdRefuse (holdAndReturn s b n) 4
        else
          let h := holdBlocks s b n
          if gHeaderBad s b len then gcmdRefuse (gchk (giveBack h b n) 1 0) 1
          else
            match gFirstSec s b with
            | some i => gcmdRefuse (gchk (giveBack h b n) 2 i) 1
            | none => gcmdStart h false 0 b n

/-- LOADIMEM after its word is written. -/
def loadimemStart (w : W32) (s : State) : State :=
  match gcmdBusy s with
  | some c => gcmdRefuse s c
  | none =>
    let e := wbits Reg.CYC_GCMD_ENGINE w
    let b := wbits Reg.CYC_GCMD_BLOCK w
    if !loadable s e then gcmdRefuse s 5
    else if !hostOwned s b 64 then gcmdRefuse (holdAndReturn s b 64) 4
    else gcmdStart (holdBlocks s b 64) true e b 64

section
variable {m : Master} {w : W32} {s : State} (hm : CanReach m s Reg.CYC_GCMD.addr) (hr : roleBars s m = false)
include hm hr

theorem exec_ginstall (hop : wbits Reg.CYC_GCMD_OP w = 1) : ∃ u t, GcmdWritten s u ∧ exec (.ginstall m w) s = .next t ∧ Kept (ginstallStart w u) t := by
  obtain ⟨u, hu, hk⟩ := gcmdAction_written hm hr hop (ginstallStart w)
  exact ⟨u, _, hu, rfl, hk⟩

theorem exec_loadimem (hop : wbits Reg.CYC_GCMD_OP w = 2) : ∃ u t, GcmdWritten s u ∧ exec (.loadimem m w) s = .next t ∧ Kept (loadimemStart w u) t := by
  obtain ⟨u, hu, hk⟩ := gcmdAction_written hm hr hop (loadimemStart w)
  exact ⟨u, _, hu, rfl, hk⟩

end

/-! ## The outcomes, case by case -/

theorem gcmdBusy_taken {s : State} (h : on s Reg.CYC_GCMD_BUSY = true ∨ on s Reg.LEMAC_SWAP_PEND = true) : gcmdBusy s = some 2 :=
  if_pos (by simpa using h)

theorem gcmdBusy_off {s : State} (hb : on s Reg.CYC_GCMD_BUSY = false) (hp : on s Reg.LEMAC_SWAP_PEND = false) (hc : domOn s dCIST = false) : gcmdBusy s = some 3 := by
  simp [gcmdBusy, hb, hp, hc]

theorem gcmdBusy_free {s : State} (hb : on s Reg.CYC_GCMD_BUSY = false) (hp : on s Reg.LEMAC_SWAP_PEND = false) (hc : domOn s dCIST = true) : gcmdBusy s = none := by
  simp [gcmdBusy, hb, hp, hc]

/-- What a command refused with `r` in the state `v` leaves of it. -/
theorem refused_effect {v t : State} {r : Nat} (hk : Kept (gcmdRefuse v r) t) (hr : r < 8) : rd t Reg.CYC_GCMD_RESULT = r ∧ t.sched = v.sched ∧ t.cist = v.cist ∧
    t.mem = v.mem ∧ ∀ f : Fld, f.addr = Reg.CYC_GCHK_VALID.addr → rd t f = rd v f := by
  obtain ⟨hshape, hres, hchk⟩ := gcmdRefuse_effect v hr
  exact ⟨(hk.rd _).trans hres, hk.sched.trans hshape.sched, hk.cist.trans hshape.cist, hk.mem.trans hshape.mem, fun f hf => (hk.rd f).trans (hchk f hf)⟩

/-- What a command leaves whose image is refused for reason `r` and item `i`, its `n` blocks handed back. -/
theorem imageRefused_effect {u t : State} {b n r i : Nat} (hk : Kept (gcmdRefuse (gchk (giveBack (holdBlocks u b n) b n) r i) 1) t) (hr : r < 16)
    (hd : domOn u dCIST = true) : rd t Reg.CYC_GCMD_RESULT = 1 ∧ rd t Reg.CYC_GCHK_REASON = r ∧
    rd t Reg.CYC_GCHK_ITEM = i % 2 ^ (Reg.CYC_GCHK_ITEM.hi + 1 - Reg.CYC_GCHK_ITEM.lo) ∧ on t Reg.CYC_GCHK_VALID = true ∧
    (∀ j, j < n → flt t (b + j) = 1) ∧ t.mem = u.mem ∧ t.sched = u.sched := by
  obtain ⟨hres, hsched, hcist, hmem, hfld⟩ := refused_effect hk (by decide)
  obtain ⟨hshape, hreason, hitem, hvalid⟩ := gchk_effect (giveBack (holdBlocks u b n) b n) i hr
  have hback : (giveBack (holdBlocks u b n) b n).mem = u.mem ∧ (giveBack (holdBlocks u b n) b n).sched = u.sched := by
    rw [giveBack_shape, holdBlocks_shape]
    exact ⟨rfl, rfl⟩
  have hheld : domOn (holdBlocks u b n) dCIST = true := by
    rw [holdBlocks_shape]
    exact hd
  refine ⟨hres, (hfld Reg.CYC_GCHK_REASON rfl).trans hreason, (hfld Reg.CYC_GCHK_ITEM rfl).trans hitem, ?_, fun j hj => ?_, hmem.trans (hshape.mem.trans hback.1),
    hsched.trans (hshape.sched.trans hback.2)⟩
  · rw [on, hfld _ rfl]
    exact hvalid
  · rw [flt, blk_congr (hcist.trans hshape.cist), ← flt]
    exact flt_giveBack hheld b n hj

/-- What a command that begins leaves, with its `n` blocks held. -/
theorem begun_effect {u t : State} {load : Bool} {e b n : Nat} (hk : Kept (gcmdStart (holdBlocks u b n) load e b n) t) : on t Reg.CYC_GCMD_BUSY = true ∧
    t.sched.gcmd = some { load := load, engine := e, blk := b, n := n } ∧ (∀ i, i < n → flt t (b + i) = 2) ∧ t.mem = u.mem := by
  obtain ⟨hbusy, hcmd, hmem, hcist⟩ := gcmdStart_effect (holdBlocks u b n) load e b n
  refine ⟨(hk.on _).trans hbusy, by rw [hk.sched, hcmd], fun i hi => ?_, ?_⟩
  · rw [flt, blk_congr (hk.cist.trans hcist), ← flt, flt_holdBlocks, if_pos (by omega)]
  · rw [hk.mem, hmem, holdBlocks_shape]

theorem wbits_engine_lt (w : W32) : wbits Reg.CYC_GCMD_ENGINE w < 64 := Nat.mod_lt _ (by decide)

section
variable {w : W32} {s u : State} (hu : GcmdWritten s u) (hfree : gcmdBusy s = none)
include hu

theorem ginstallStart_refused {c : Nat} (h : gcmdBusy s = some c) : ginstallStart w u = gcmdRefuse u c := by
  rw [ginstallStart, hu.gcmdBusy, h]

theorem loadimemStart_refused {c : Nat} (h : gcmdBusy s = some c) : loadimemStart w u = gcmdRefuse u c := by
  rw [loadimemStart, hu.gcmdBusy, h]

include hfree

theorem ginstallStart_foreign (h : hostOwned s (wbits Reg.CYC_GCMD_BLOCK w) 1 = false) : ginstallStart w u = gcmdRefuse u 4 := by
  rw [ginstallStart, hu.gcmdBusy, hfree]
  simp only [hostOwned_congr hu.cist, h]
  rfl

theorem ginstallStart_length (h : hostOwned s (wbits Reg.CYC_GCMD_BLOCK w) 1 = true) (hlen : imgLen s (wbits Reg.CYC_GCMD_BLOCK w) 0x100000 = none) :
    ginstallStart w u = gcmdRefuse (gchk (giveBack (holdBlocks u (wbits Reg.CYC_GCMD_BLOCK w) 1) (wbits Reg.CYC_GCMD_BLOCK w) 1) 1 0) 1 := by
  rw [ginstallStart, hu.gcmdBusy, hfree]
  simp only [hostOwned_congr hu.cist, h, imgLen_congr hu.mem, hlen]
  rfl

theorem loadimemStart_engine (h : loadable s (wbits Reg.CYC_GCMD_ENGINE w) = false) : loadimemStart w u = gcmdRefuse u 5 := by
  rw [loadimemStart, hu.gcmdBusy, hfree]
  simp only [hu.loadable _ (wbits_engine_lt w), h]
  rfl

theorem loadimemStart_foreign (h : loadable s (wbits Reg.CYC_GCMD_ENGINE w) = true) (hown : hostOwned s (wbits Reg.CYC_GCMD_BLOCK w) 64 = false) :
    loadimemStart w u = gcmdRefuse (holdAndReturn u (wbits Reg.CYC_GCMD_BLOCK w) 64) 4 := by
  rw [loadimemStart, hu.gcmdBusy, hfree]
  simp only [hu.loadable _ (wbits_engine_lt w), h, hostOwned_congr hu.cist, hown]
  rfl

theorem loadimemStart_begins (h : loadable s (wbits Reg.CYC_GCMD_ENGINE w) = true) (hown : hostOwned s (wbits Reg.CYC_GCMD_BLOCK w) 64 = true) :
    loadimemStart w u = gcmdStart (holdBlocks u (wbits Reg.CYC_GCMD_BLOCK w) 64) true (wbits Reg.CYC_GCMD_ENGINE w) (wbits Reg.CYC_GCMD_BLOCK w) 64 := by
  rw [loadimemStart, hu.gcmdBusy, hfree]
  simp only [hu.loadable _ (wbits_engine_lt w), h, hostOwned_congr hu.cist, hown]
  rfl

section
variable {b len : Nat} (hb : wbits Reg.CYC_GCMD_BLOCK w = b) (hfirst : hostOwned s b 1 = true) (hlen : imgLen s b 0x100000 = some len)
  (hown : hostOwned s b (len / 256) = true)
include hb hfirst hlen hown

theorem ginstallStart_header (h : gHeaderBad s b len = true) :
    ginstallStart w u = gcmdRefuse (gchk (giveBack (holdBlocks u b (len / 256)) b (len / 256)) 1 0) 1 := by
  rw [ginstallStart, hu.gcmdBusy, hfree]
  simp only [hb, hostOwned_congr hu.cist, hfirst, imgLen_congr hu.mem, hlen, hown, gHeaderBad_congr hu.mem, h]
  rfl

theorem ginstallStart_section {i : Nat} (h : gHeaderBad s b len = false) (hsec : gFirstSec s b = some i) :
    ginstallStart w u = gcmdRefuse (gchk (giveBack (holdBlocks u b (len / 256)) b (len / 256)) 2 i) 1 := by
  rw [ginstallStart, hu.gcmdBusy, hfree]
  simp only [hb, hostOwned_congr hu.cist, hfirst, imgLen_congr hu.mem, hlen, hown, gHeaderBad_congr hu.mem, h, hu.gFirstSec, hsec]
  rfl

theorem ginstallStart_begins (h : gHeaderBad s b len = false) (hsec : gFirstSec s b = none) :
    ginstallStart w u = gcmdStart (holdBlocks u b (len / 256)) false 0 b (len / 256) := by
  rw [ginstallStart, hu.gcmdBusy, hfree]
  simp only [hb, hostOwned_congr hu.cist, hfirst, imgLen_congr hu.mem, hlen, hown, gHeaderBad_congr hu.mem, h, hu.gFirstSec, hsec]
  rfl

end

end

end Sys2Proof.Machine
end

section
/-! PROOFS. GINSTALL and LOADIMEM as they complete (R59, R72, R443). -/

namespace Sys2Proof.Machine

/-! ## The end of a command (R256, R421) -/

theorem ackPeer_shape (s : State) (k : Nat) : RegsWire s (ackPeer s k) ∧ (ackPeer s k).regs = s.regs := by
  unfold ackPeer
  split
  · exact ⟨RegsWire.emit _ _, rfl⟩
  · exact ⟨RegsWire.refl s, rfl⟩

/-- The state of the unit once its command is gone and the pair has been told. -/
def gcmdGone (s : State) : State := ackPeer (clearAck { s with sched := { s.sched with gcmd := none } } 1) 1

theorem gcmdGone_effect (s : State) : (gcmdGone s).sched.gcmd = none ∧ (gcmdGone s).mem = s.mem ∧ (gcmdGone s).engs = s.engs ∧ (gcmdGone s).regs = s.regs := by
  obtain ⟨hshape, hregs⟩ := ackPeer_shape (clearAck { s with sched := { s.sched with gcmd := none } } 1) 1
  exact ⟨by rw [gcmdGone, hshape.sched]; rfl, by rw [gcmdGone, hshape.mem]; rfl, by rw [gcmdGone, hshape.engs]; rfl, by rw [gcmdGone, hregs]; rfl⟩

theorem gcmdEnd_eq (s : State) (r : Nat) :
    gcmdEnd s r = raise (clrBusy (wr (gcmdGone s) Reg.CYC_GCMD_RESULT r) Reg.CYC_GCMD_BUSY) 0x14 8 := rfl

/-- What a command leaves that ends with RESULT `r`: BUSY is clear, the command is gone, and memory, the engines and the other registers of CYC stay. -/
theorem gcmdEnd_effect (s : State) {r : Nat} (hr : r < 8) : rd (gcmdEnd s r) Reg.CYC_GCMD_RESULT = r ∧ on (gcmdEnd s r) Reg.CYC_GCMD_BUSY = false ∧
    (gcmdEnd s r).sched.gcmd = none ∧ (gcmdEnd s r).mem = s.mem ∧ (gcmdEnd s r).engs = s.engs ∧
    ∀ f : Fld, f.addr / 0x1000 = 0x14 → 0x40 ≤ f.addr % 0x1000 → f.addr ≠ Reg.CYC_GCMD.addr → rd (gcmdEnd s r) f = rd s f := by
  obtain ⟨hcmd, hmem, hengs, hregs⟩ := gcmdGone_effect s
  have hshape : RegsWire (gcmdGone s) (gcmdEnd s r) := ((RegsWire.wr _ _ _).trans (clrBusy_shape _ _)).trans (raise_shape _ _ _)
  have hraise : ∀ (u : State) (f : Fld), f.addr / 0x1000 = 0x14 → 0x40 ≤ f.addr % 0x1000 → rd (raise u 0x14 8) f = rd u f := fun u f hp hk => by
    rw [rd, rdw_raise_aside (cyc_aside hp hk), rd]
  have hbusy : Aside Reg.CYC_GCMD_BUSY.page Reg.CYC_GCMD.addr := cyc_aside (by decide) (by decide)
  refine ⟨?_, ?_, by rw [hshape.sched, hcmd], hshape.mem.trans hmem, hshape.engs.trans hengs, fun f hp hk hf => ?_⟩
  · rw [gcmdEnd_eq, hraise _ _ (by decide) (by decide)]
    have hself : rd (wr (gcmdGone s) Reg.CYC_GCMD_RESULT r) Reg.CYC_GCMD_RESULT = r := by
      rw [rd_wr_self _ _ _ (by decide) (by decide)]
      exact Nat.mod_eq_of_lt hr
    unfold clrBusy
    split
    · rw [rd, rdw_raise_aside (k := Reg.CYC_GCMD_RESULT.addr) hbusy, ← rd, rd_wr_disj _ _ _ _ (by decide) (by decide) (by decide) (by decide), hself]
    · exact hself
  · rw [gcmdEnd_eq, on, hraise _ _ (by decide) (by decide), ← on]
    exact on_clrBusy_self hbusy (by decide) (by decide)
  · rw [gcmdEnd_eq, hraise _ _ hp hk, rd, rdw_clrBusy (f := Reg.CYC_GCMD_BUSY) (cyc_aside hp hk) hf, ← rd, rd_wr_other _ Reg.CYC_GCMD_RESULT _ _ hf, rd, rdw, hregs, ← rdw, ← rd]

theorem giveBack_mem (s : State) (b n : Nat) : (giveBack s b n).mem = s.mem := by rw [giveBack_shape]

theorem giveBack_engs (s : State) (b n : Nat) : (giveBack s b n).engs = s.engs := by rw [giveBack_shape]

/-! ## GINSTALL completes (R59) -/

/-- The graph bank that a GINSTALL writes, as written. -/
def graphWritten (s : State) (c : GCmd) : State := writeGraph (clearValid s (1 - bank s)) c.blk (1 - bank s)

/-- The end of a GINSTALL whose image is refused for reason `r` and item `i`. -/
def installRefused (v : State) (c : GCmd) (r i : Nat) : State := gcmdEnd (giveBack (wr (gchk v r i) Reg.CYC_GBANK_CHECKED 0) c.blk c.n) 1

/-- The end of a GINSTALL whose image is taken. -/
def installTaken (v : State) (c : GCmd) : State :=
  gcmdEnd (giveBack (wrs v [(Reg.CYC_GBANK_CHECKED, 1), (Reg.CYC_GBANK_SCHED, bits 15 0 (imgWord v c.blk 8))]) c.blk c.n) 0

theorem installRefused_effect (v : State) (c : GCmd) {r : Nat} (i : Nat) (hr : r < 16) : on (installRefused v c r i) Reg.CYC_GBANK_CHECKED = false ∧
    rd (installRefused v c r i) Reg.CYC_GCHK_REASON = r ∧
    rd (installRefused v c r i) Reg.CYC_GCHK_ITEM = i % 2 ^ (Reg.CYC_GCHK_ITEM.hi + 1 - Reg.CYC_GCHK_ITEM.lo) ∧
    rd (installRefused v c r i) Reg.CYC_GCMD_RESULT = 1 ∧ (installRefused v c r i).sched.gcmd = none := by
  obtain ⟨hres, -, hcmd, -, -, hfld⟩ := gcmdEnd_effect (giveBack (wr (gchk v r i) Reg.CYC_GBANK_CHECKED 0) c.blk c.n) (r := 1) (by decide)
  obtain ⟨-, hreason, hitem, -⟩ := gchk_effect v i hr
  have hback : ∀ f, rd (giveBack (wr (gchk v r i) Reg.CYC_GBANK_CHECKED 0) c.blk c.n) f = rd (wr (gchk v r i) Reg.CYC_GBANK_CHECKED 0) f := fun f => by
    rw [giveBack_shape]
    rfl
  refine ⟨?_, ?_, ?_, hres, hcmd⟩
  · rw [installRefused, on, hfld _ (by decide) (by decide) (by decide), hback, rd_wr_self _ _ _ (by decide) (by decide)]
    rfl
  · rw [installRefused, hfld _ (by decide) (by decide) (by decide), hback, rd_wr_other _ _ _ _ (by decide), hreason]
  · rw [installRefused, hfld _ (by decide) (by decide) (by decide), hback, rd_wr_other _ _ _ _ (by decide), hitem]

theorem installTaken_effect (v : State) (c : GCmd) : on (installTaken v c) Reg.CYC_GBANK_CHECKED = true ∧
    rd (installTaken v c) Reg.CYC_GBANK_SCHED = bits 15 0 (imgWord v c.blk 8) ∧ rd (installTaken v c) Reg.CYC_GCMD_RESULT = 0 ∧
    on (installTaken v c) Reg.CYC_GCMD_BUSY = false ∧ (installTaken v c).sched.gcmd = none ∧ (installTaken v c).mem = v.mem := by
  obtain ⟨hres, hbusy, hcmd, hmem, -, hfld⟩ := gcmdEnd_effect
    (giveBack (wrs v [(Reg.CYC_GBANK_CHECKED, 1), (Reg.CYC_GBANK_SCHED, bits 15 0 (imgWord v c.blk 8))]) c.blk c.n) (r := 0) (by decide)
  have hback : ∀ u f, rd (giveBack u c.blk c.n) f = rd u f := fun u f => by
    rw [giveBack_shape]
    rfl
  refine ⟨?_, ?_, hres, hbusy, hcmd, ?_⟩
  · rw [installTaken, on, hfld _ (by decide) (by decide) (by decide), hback]
    simp only [wrs, List.foldl_cons, List.foldl_nil]
    rw [rd_wr_disj _ _ _ _ (by decide) (by decide) (by decide) (by decide), rd_wr_self _ _ _ (by decide) (by decide)]
    rfl
  · rw [installTaken, hfld _ (by decide) (by decide) (by decide), hback]
    simp only [wrs, List.foldl_cons, List.foldl_nil]
    rw [rd_wr_self _ _ _ (by decide) (by decide)]
    exact Nat.mod_mod _ _
  · rw [installTaken, hmem, giveBack_shape, wrs_mem]

section
variable {s : State} {c : GCmd} (hc : s.sched.gcmd = some c) (hload : c.load = false) (hwait : waitsPeer s 1 = false)
include hc hload hwait

/-- GINSTALL_COMPLETE, as the first section that has lost its cluster, the first task and the first entry refused decide. -/
theorem exec_ginstallComplete : exec .ginstallComplete s = .next (
    match (List.range (imgWord s c.blk 12)).find? (fun i => c.lost.getLsbD (gsec s c.blk i).clu || !domOn s (dCLU (gsec s c.blk i).clu)),
      gFirstTask (graphWritten s c) (1 - bank s), gFirstEntry (graphWritten s c) c.blk (1 - bank s) with
    | some i, _, _ => installRefused (graphWritten s c) c 2 i
    | none, some t, _ => installRefused (graphWritten s c) c 3 t
    | none, none, some e => installRefused (graphWritten s c) c 4 e
    | none, none, none => installTaken (graphWritten s c) c) := by
  change execGinstallComplete s = _
  unfold execGinstallComplete
  simp only [hc, hload, hwait]
  rfl

end

section
variable {s : State} {c : GCmd} (hc : s.sched.gcmd = some c) (hload : c.load = false) (hwait : waitsPeer s 1 = false)
include hc hload hwait

/-- A section whose cluster has left ON is refused before anything else is looked at. -/
theorem ginstallComplete_lost {i : Nat} (hi : i < imgWord s c.blk 12) (hlost : c.lost.getLsbD (gsec s c.blk i).clu = true ∨ domOn s (dCLU (gsec s c.blk i).clu) = false)
    (hfirst : ∀ j, j < i → ¬(c.lost.getLsbD (gsec s c.blk j).clu = true ∨ domOn s (dCLU (gsec s c.blk j).clu) = false)) :
    exec .ginstallComplete s = .next (installRefused (graphWritten s c) c 2 i) := by
  rw [exec_ginstallComplete hc hload hwait, List.find?_range_eq_some.mpr ⟨?_, List.mem_range.mpr hi, fun j hj => ?_⟩]
  · simpa using hlost
  · have h := hfirst j hj
    simp only [not_or] at h
    simp [h]

theorem exec_ginstallComplete_on (hlost : c.lost = 0) (hon : ∀ i, i < imgWord s c.blk 12 → domOn s (dCLU (gsec s c.blk i).clu) = true) :
    (∀ k, gFirstTask (graphWritten s c) (1 - bank s) = some k → exec .ginstallComplete s = .next (installRefused (graphWritten s c) c 3 k)) ∧
    (gFirstTask (graphWritten s c) (1 - bank s) = none → gFirstEntry (graphWritten s c) c.blk (1 - bank s) = none →
      exec .ginstallComplete s = .next (installTaken (graphWritten s c) c)) := by
  have hnone : (List.range (imgWord s c.blk 12)).find? (fun i => c.lost.getLsbD (gsec s c.blk i).clu || !domOn s (dCLU (gsec s c.blk i).clu)) = none := by
    rw [List.find?_eq_none]
    intro i hi
    simp [hlost, hon i (List.mem_range.mp hi)]
  rw [exec_ginstallComplete hc hload hwait, hnone]
  exact ⟨fun k hk => by rw [hk], fun ht he => by rw [ht, he]⟩

end

/-! ## LOADIMEM completes (R72) -/

/-- The IMEM of the engine of a LOADIMEM, written. -/
def imemWritten (s : State) (c : GCmd) (d : Bool) : State :=
  let u := mwrite s (leAddr c.engine 0) (cistBytes s (256 * c.blk) 0x4000)
  setEng u c.engine { eng u c.engine with partImem := d }

/-- The IMEM of an engine whose cluster left ON, as far as it was written. -/
def imemPartly (s : State) (c : GCmd) : State :=
  let f := free s
  let u := if (dom s (dCLU (c.engine / 16))).st = .off then f.2 else mwrite f.2 (leAddr c.engine 0) (cistBytes f.2 (256 * c.blk) (f.1 % 0x4001))
  setEng u c.engine { eng u c.engine with partImem := true }

theorem mget_setEng (s : State) (e : Nat) (x : Engine) (a : Nat) : mget (setEng s e x) a = mget s a := rfl

theorem length_cistBytes (s : State) (b n : Nat) : (cistBytes s b n).length = n := by simp [cistBytes, mread]

/-- Bytes of the cistern copied to `a`: the bytes there are the cistern's, and every other byte stays. -/
theorem cistCopied_effect (s u : State) (a b n : Nat) : (∀ i, (i < a ∨ a + n ≤ i) → mget (mwrite s a (cistBytes u b n)) i = mget s i) ∧
    ∀ i, i < n → mget (mwrite s a (cistBytes u b n)) (a + i) = mget u (cistAddr b + i) := by
  refine ⟨fun i hi => mget_mwrite_other _ _ _ _ (by rwa [length_cistBytes]), fun i hi => ?_⟩
  rw [mget_mwrite_self _ _ _ _ (by rwa [length_cistBytes])]
  simp [cistBytes, mread]

theorem imemWritten_effect (s : State) (c : GCmd) (d : Bool) : SameMemBut (leAddr c.engine 0) 0x4000 s (imemWritten s c d) ∧
    (eng (imemWritten s c d) c.engine).partImem = d ∧
    ∀ i, i < 0x4000 → mget (imemWritten s c d) (leAddr c.engine 0 + i) = mget s (cistAddr (256 * c.blk) + i) := by
  obtain ⟨hother, hself⟩ := cistCopied_effect s s (leAddr c.engine 0) (256 * c.blk) 0x4000
  refine ⟨fun a ha => ?_, by rw [imemWritten, eng_setEng_self], fun i hi => ?_⟩
  · rw [imemWritten, mget_setEng]
    exact hother a ha
  · rw [imemWritten, mget_setEng]
    exact hself i hi

theorem imemPartly_effect (s : State) (c : GCmd) : SameMemBut (leAddr c.engine 0) 0x4000 s (imemPartly s c) ∧
    (eng (imemPartly s c) c.engine).partImem = true := by
  refine ⟨fun a ha => ?_, by rw [imemPartly, eng_setEng_self]⟩
  have hlt : (free s).1 % 0x4001 < 0x4001 := Nat.mod_lt _ (by decide)
  obtain ⟨hother, -⟩ := cistCopied_effect (free s).2 (free s).2 (leAddr c.engine 0) (256 * c.blk) ((free s).1 % 0x4001)
  rw [imemPartly, mget_setEng]
  split
  · rfl
  · exact hother a (ha.imp_right fun h => by omega)

section
variable {s : State} {c : GCmd} (hc : s.sched.gcmd = some c) (hload : c.load = true) (hwait : waitsPeer s 1 = false) (hready : loadReady s c = true)
include hc hload hwait hready

theorem exec_loadimemComplete_on (d : Bool) (hlost : c.lost.getLsbD (c.engine / 16) = false) (hon : domOn s (dCLU (c.engine / 16)) = true) :
    exec (.loadimemComplete d) s = .next (gcmdEnd (giveBack (if d then imemWritten s c d else peerReturn (imemWritten s c d) c) c.blk c.n) (b2n d)) := by
  change execLoadimemComplete d s = _
  unfold execLoadimemComplete
  rw [hc]
  dsimp only
  rw [if_neg (by simp [hload, hwait, hready]), if_neg (by simp [hlost, hon])]
  rfl

theorem exec_loadimemComplete_lost (d : Bool) (hlost : c.lost.getLsbD (c.engine / 16) = true ∨ domOn s (dCLU (c.engine / 16)) = false) :
    exec (.loadimemComplete d) s = .next (gcmdEnd (giveBack (imemPartly s c) c.blk c.n) 5) := by
  have hcond : (c.lost.getLsbD (c.engine / 16) || !domOn s (dCLU (c.engine / 16))) = true := by simpa using hlost
  change execLoadimemComplete d s = _
  unfold execLoadimemComplete
  rw [hc]
  dsimp only
  rw [if_neg (by simp [hload, hwait, hready]), if_pos hcond]
  rfl

end

/-- Settles O26: what refuses a command as it is written, what it holds where it begins, and how each of the two ends. -/
theorem graphAndImemInstalls : Obligations.GraphAndImemInstalls := by
  unfold Obligations.GraphAndImemInstalls
  refine ⟨fun m w s hm hr => ⟨fun hbusy => ?_, fun hb hp hcist => ?_⟩, fun m w s hm hr hb hp => ?_, fun c i s hc hload hwait hi => ?_,
    fun c s hc hload hwait hlost hon => ?_, fun c d s hc hload hwait hready => ⟨fun hlost hon => ?_, fun hlost => ?_⟩⟩
  · refine ⟨fun hop => ?_, fun hop => ?_⟩
    · obtain ⟨u, t, hu, ht, hk⟩ := exec_ginstall hm hr hop
      rw [ginstallStart_refused hu (gcmdBusy_taken hbusy)] at hk
      obtain ⟨hres, hsched, hcist, hmem, -⟩ := refused_effect hk (by decide)
      exact ⟨t, ht, hres, hsched.trans hu.sched, hcist.trans hu.cist, hmem.trans hu.mem⟩
    · obtain ⟨u, t, hu, ht, hk⟩ := exec_loadimem hm hr hop
      rw [loadimemStart_refused hu (gcmdBusy_taken hbusy)] at hk
      obtain ⟨hres, hsched, hcist, hmem, -⟩ := refused_effect hk (by decide)
      exact ⟨t, ht, hres, hsched.trans hu.sched, hcist.trans hu.cist, hmem.trans hu.mem⟩
  · refine ⟨fun hop => ?_, fun hop => ?_⟩
    · obtain ⟨u, t, hu, ht, hk⟩ := exec_ginstall hm hr hop
      rw [ginstallStart_refused hu (gcmdBusy_off hb hp hcist)] at hk
      obtain ⟨hres, hsched, -⟩ := refused_effect hk (by decide)
      exact ⟨t, ht, hres, hsched.trans hu.sched⟩
    · obtain ⟨u, t, hu, ht, hk⟩ := exec_loadimem hm hr hop
      rw [loadimemStart_refused hu (gcmdBusy_off hb hp hcist)] at hk
      obtain ⟨hres, hsched, -⟩ := refused_effect hk (by decide)
      exact ⟨t, ht, hres, hsched.trans hu.sched⟩
  · intro b e back
    refine ⟨fun hop hcist hown => ?_, fun hop hcist hown hlen => ?_, fun hop hcist hfirst len hlen hown => ?_, fun hop hcist => ?_⟩
    · obtain ⟨u, t, hu, ht, hk⟩ := exec_ginstall hm hr hop
      rw [ginstallStart_foreign hu (gcmdBusy_free hb hp hcist) hown] at hk
      obtain ⟨hres, hsched, hblk, hmem, -⟩ := refused_effect hk (by decide)
      exact ⟨t, ht, hres, hblk.trans hu.cist, hmem.trans hu.mem, hsched.trans hu.sched⟩
    · obtain ⟨u, t, hu, ht, hk⟩ := exec_ginstall hm hr hop
      rw [ginstallStart_length hu (gcmdBusy_free hb hp hcist) hown hlen] at hk
      obtain ⟨hres, hreason, -, hvalid, hback, hmem, hsched⟩ := imageRefused_effect hk (by decide) ((hu.domOn _).trans hcist)
      exact ⟨t, ht, hres, hreason, hvalid, hback, hmem.trans hu.mem, hsched.trans hu.sched⟩
    · obtain ⟨u, t, hu, ht, hk⟩ := exec_ginstall hm hr hop
      have hfree := gcmdBusy_free hb hp hcist
      refine ⟨fun hbad => ?_, fun i hgood hsec => ?_, fun hgood hsec => ?_⟩
      · rw [ginstallStart_header hu hfree rfl hfirst hlen hown hbad] at hk
        obtain ⟨hres, hreason, -, hvalid, hback, hmem, hsched⟩ := imageRefused_effect hk (by decide) ((hu.domOn _).trans hcist)
        exact ⟨t, ht, hres, hreason, hvalid, hback, hmem.trans hu.mem, hsched.trans hu.sched⟩
      · rw [ginstallStart_section hu hfree rfl hfirst hlen hown hgood hsec] at hk
        obtain ⟨hres, hreason, hitem, hvalid, hback, hmem, hsched⟩ := imageRefused_effect hk (by decide) ((hu.domOn _).trans hcist)
        exact ⟨t, ht, hres, hreason, hitem, hvalid, hback, hmem.trans hu.mem, hsched.trans hu.sched⟩
      · rw [ginstallStart_begins hu hfree rfl hfirst hlen hown hgood hsec] at hk
        obtain ⟨hbusy, hcmd, hheld, hmem⟩ := begun_effect hk
        exact ⟨t, ht, hbusy, hcmd, hheld, hmem.trans hu.mem⟩
    · obtain ⟨u, t, hu, ht, hk⟩ := exec_loadimem hm hr hop
      have hfree := gcmdBusy_free hb hp hcist
      refine ⟨fun hno => ?_, fun hyes hown => ?_, fun hyes hown => ?_⟩
      · rw [loadimemStart_engine hu hfree hno] at hk
        obtain ⟨hres, -, hblk, -⟩ := refused_effect hk (by decide)
        exact ⟨t, ht, hres, hblk.trans hu.cist⟩
      · rw [loadimemStart_foreign hu hfree hyes hown] at hk
        obtain ⟨hres, hsched, hblk, -⟩ := refused_effect hk (by decide)
        refine ⟨t, ht, hres, fun i => ?_, ?_⟩
        · rw [flt, blk_congr hblk, ← flt, flt_holdAndReturn, flt, blk_congr hu.cist, ← flt]
        · rw [hsched, holdAndReturn_shape, ← hu.sched]
      · rw [loadimemStart_begins hu hfree hyes hown] at hk
        obtain ⟨hbusy, hcmd, hheld, hmem⟩ := begun_effect hk
        exact ⟨t, ht, hbusy, hcmd, hheld, hmem.trans hu.mem⟩
  · intro gone hgone hfirst
    exact ⟨_, ginstallComplete_lost hc hload hwait hi hgone hfirst, installRefused_effect _ _ _ (by decide)⟩
  · intro v
    obtain ⟨htask, hnone⟩ := exec_ginstallComplete_on hc hload hwait hlost hon
    exact ⟨fun k hk => ⟨_, htask k hk, installRefused_effect _ _ _ (by decide)⟩, fun ht he => ⟨_, hnone ht he, installTaken_effect _ _⟩⟩
  · obtain ⟨hres, hbusy, hcmd, hmem, hengs, -⟩ := gcmdEnd_effect
      (giveBack (if d then imemWritten s c d else peerReturn (imemWritten s c d) c) c.blk c.n) (r := b2n d) (by cases d <;> decide)
    refine ⟨_, exec_loadimemComplete_on hc hload hwait hready d hlost hon, fun hback => ?_, hres, hbusy, hcmd⟩
    obtain ⟨hsame, hself, hcopied⟩ := imemWritten_effect s c d
    have hkept : (if d then imemWritten s c d else peerReturn (imemWritten s c d) c) = imemWritten s c d := by
      rw [peerReturn, if_neg hback, ite_self]
    rw [hkept, giveBack_mem] at hmem
    rw [hkept, giveBack_engs] at hengs
    have hbyte : ∀ a, mget (gcmdEnd (giveBack (imemWritten s c d) c.blk c.n) (b2n d)) a = mget (imemWritten s c d) a := fun a => by rw [mget, hmem, ← mget]
    rw [hkept]
    exact ⟨fun a ha => (hbyte a).trans (hsame a ha), by rw [eng_congr hengs, hself], fun i hi => (hbyte _).trans (hcopied i hi)⟩
  · obtain ⟨hres, hbusy, hcmd, hmem, hengs, -⟩ := gcmdEnd_effect (giveBack (imemPartly s c) c.blk c.n) (r := 5) (by decide)
    obtain ⟨hsame, hpart⟩ := imemPartly_effect s c
    refine ⟨_, exec_loadimemComplete_lost hc hload hwait hready d hlost, ?_, hres, hbusy, hcmd, ?_⟩
    · exact fun a ha => (by rw [mget, hmem, giveBack_mem, ← mget] : _ = mget (imemPartly s c) a).trans (hsame a ha)
    · rw [eng_congr (hengs.trans (giveBack_engs _ _ _)), hpart]

end Sys2Proof.Machine
end

section
/-! PROOFS. The launch of a set-point frame (R62, R63, R184, R250). -/

namespace Sys2Proof.Machine

/-! ## Counters -/

/-- A counter that fills its register counts `n` more, modulo its width. -/
theorem rd_addCnt_self {s : State} {f : Fld} (n : Nat) (hk : Aside f.page f.addr) (hle : f.lo ≤ f.hi) (hhi : f.hi < 32) :
    rd (addCnt s f n) f = (rd s f + n) % 2 ^ (f.hi + 1 - f.lo) := by
  unfold addCnt
  dsimp only
  split
  · rw [rd, rdw_setStat_wrap hk, ← rd, rd_wr_self _ _ _ hle hhi]
  · rw [rd_wr_self _ _ _ hle hhi]

/-! ## What decides whether a port may send -/

section
variable {s t : State}

theorem portLive_congr {p : Nat} (hpwr : t.pwr = s.pwr) (htests : t.tests = s.tests) (hboot : t.boot = s.boot) (hctl : t.ctl = s.ctl)
    (hclosed : on t (Reg.PORT_STAT_CLOSED p) = on s (Reg.PORT_STAT_CLOSED p)) : portLive t p = portLive s p := by
  simp only [portLive, domOn_congr hpwr, offlineRuns, htests, hboot, cfgOn, cfg, hctl, hclosed]

theorem maySend_congr {p : Nat} (hlive : portLive t p = portLive s p) (hsup : (port t p).supNow = (port s p).supNow) (hsilent : t.pair.silent = s.pair.silent) :
    maySend t p = maySend s p := by
  rw [maySend, hlive, hsup, hsilent, maySend]

end

/-- A frame that leaves is on the wire, and counts in TX_CNT. -/
theorem sendFrame_effect {p : Nat} (hp : p < 24) (s : State) (at_ : Nat) (b : List Byte) : RegsWire s (sendFrame s p at_ b) ∧
    rd (sendFrame s p at_ b) (Reg.PORT_TX_CNT_COUNT p) = (rd s (Reg.PORT_TX_CNT_COUNT p) + 1) % 2 ^ 32 ∧ Out.frame p at_ b ∈ (sendFrame s p at_ b).wire ∧
    ∀ k, 0x40 ≤ k % 0x1000 → k ≠ 0xB1C00 → k ≠ (Reg.PORT_TX_CNT_COUNT p).addr → rdw (sendFrame s p at_ b) k = rdw s k := by
  refine ⟨(RegsWire.emit _ _).trans (incCnt_shape _ _), ?_, wireGrows_incCnt _ _ _ (mem_wire_emit _ _), fun k hk hb hne => ?_⟩
  · exact rd_incCnt_self (portReg_aside hp (o := 0x60) (by decide) (by decide) _) (Nat.zero_le _) (by decide : 31 < 32)
  · exact rdw_incCnt (f := Reg.PORT_TX_CNT_COUNT p) ⟨hb, .inl hk⟩ hne _

/-! ## Entries that are formed (R62, R63, R250) -/

/-- `t` is `s` with set-point entries formed, of which those in `l` are late: they are noted and counted. -/
structure LaunchNoted (s t : State) (l : List Nat) : Prop where
  shape : t = { s with regs := t.regs, wire := t.wire, sched := t.sched, axes := t.axes,
                       lemac := { s.lemac with nulls := s.lemac.nulls ++ l, sent := t.lemac.sent } }
  late : rd t Reg.CYC_LATE_CNT_COUNT = (rd s Reg.CYC_LATE_CNT_COUNT + l.length) % 2 ^ 32
  regs : ∀ k, 0x40 ≤ k % 0x1000 → k ≠ 0xB1C00 → k ≠ Reg.CYC_LATE_CNT_COUNT.addr → rdw t k = rdw s k

theorem LaunchNoted.refl (s : State) : LaunchNoted s s [] where
  shape := by rw [List.append_nil]
  late := (Nat.mod_eq_of_lt (Nat.mod_lt _ (by decide : 0 < 2 ^ 32))).symm
  regs := fun _ _ _ _ => rfl

theorem LaunchNoted.trans {s t u : State} {l m : List Nat} (h : LaunchNoted s t l) (k : LaunchNoted t u m) : LaunchNoted s u (l ++ m) where
  shape := by
    obtain ⟨hs, -, -⟩ := h
    obtain ⟨ht, -, -⟩ := k
    rw [ht, hs]
    simp only [List.append_assoc]
  late := by rw [k.late, h.late, List.length_append, Nat.mod_add_mod, Nat.add_assoc]
  regs := fun a ha hb hc => (k.regs a ha hb hc).trans (h.regs a ha hb hc)

/-- One axis to which a late entry is charged. -/
def lateAxis (i : Nat) (s : State) (a : Nat) : State :=
  let x := axis s a
  let s := setAxis s a { x with lateErr := min 65535 (x.lateErr + 1) }
  let s := if x.lateErr = 65535 then setStat s (Reg.HDR_PAGE_STAT_SAT 0x80) else s
  { s with sched := { s.sched with lateNow := if s.sched.lateNow.contains a then s.sched.lateNow else s.sched.lateNow ++ [a],
                                   lateMin := tmod (fun _ => 4096) s.sched.lateMin a (fun n => min n i) } }

theorem lateAxis_effect (i : Nat) (s : State) (a : Nat) :
    lateAxis i s a = { s with regs := (lateAxis i s a).regs, wire := (lateAxis i s a).wire, sched := (lateAxis i s a).sched, axes := (lateAxis i s a).axes } ∧
    ∀ k, 0x40 ≤ k % 0x1000 → k ≠ 0xB1C00 → rdw (lateAxis i s a) k = rdw s k := by
  unfold lateAxis
  dsimp only
  split
  · refine ⟨?_, fun k hk hb => ?_⟩
    · rw [setStat_shape]
      rfl
    · exact rdw_setStat_sat (f := ⟨0x80000, 0, 0⟩) ⟨hb, .inl hk⟩ _
  · exact ⟨rfl, fun _ _ _ => rfl⟩

/-- A late entry charged to the axes that wait for it, or noted for the cycle where none does. -/
def lateAttributed (s : State) (i : Nat) : State :=
  if lateAxes s i = [] then
    { s with sched := { s.sched with lateENow := if s.sched.lateENow.contains i then s.sched.lateENow else s.sched.lateENow ++ [i] } }
  else (lateAxes s i).foldl (lateAxis i) s

theorem lateEntry_eq (s : State) (i : Nat) : lateEntry s i = lateAttributed (incCnt s Reg.CYC_LATE_CNT_COUNT) i := rfl

theorem lateAttributed_effect (s : State) (i : Nat) :
    lateAttributed s i = { s with regs := (lateAttributed s i).regs, wire := (lateAttributed s i).wire, sched := (lateAttributed s i).sched,
                                  axes := (lateAttributed s i).axes } ∧
    ∀ k, 0x40 ≤ k % 0x1000 → k ≠ 0xB1C00 → rdw (lateAttributed s i) k = rdw s k := by
  unfold lateAttributed
  split
  · exact ⟨rfl, fun _ _ _ => rfl⟩
  · exact List.foldlRecOn (lateAxes s i) (lateAxis i) (motive := fun t : State =>
      t = { s with regs := t.regs, wire := t.wire, sched := t.sched, axes := t.axes } ∧ ∀ k, 0x40 ≤ k % 0x1000 → k ≠ 0xB1C00 → rdw t k = rdw s k)
      ⟨rfl, fun _ _ _ => rfl⟩ fun t ht a _ => by
        obtain ⟨hs, hr⟩ := lateAxis_effect i t a
        exact ⟨by rw [hs, ht.1], fun k hk hb => (hr k hk hb).trans (ht.2 k hk hb)⟩

/-- A late entry is counted once, and charged in the records of axes or in the cycle's notes. -/
theorem lateEntry_effect (s : State) (i : Nat) :
    lateEntry s i = { s with regs := (lateEntry s i).regs, wire := (lateEntry s i).wire, sched := (lateEntry s i).sched, axes := (lateEntry s i).axes } ∧
    rd (lateEntry s i) Reg.CYC_LATE_CNT_COUNT = (rd s Reg.CYC_LATE_CNT_COUNT + 1) % 2 ^ 32 ∧
    ∀ k, 0x40 ≤ k % 0x1000 → k ≠ 0xB1C00 → k ≠ Reg.CYC_LATE_CNT_COUNT.addr → rdw (lateEntry s i) k = rdw s k := by
  obtain ⟨hs, hr⟩ := lateAttributed_effect (incCnt s Reg.CYC_LATE_CNT_COUNT) i
  rw [lateEntry_eq]
  refine ⟨by rw [hs, incCnt_shape s Reg.CYC_LATE_CNT_COUNT], ?_, fun k hk hb hne => ?_⟩
  · rw [rd, hr _ (by decide) (by decide), ← rd]
    exact rd_incCnt_self ⟨by decide, .inl (by decide)⟩ (by decide) (by decide)
  · rw [hr k hk hb]
    exact rdw_incCnt (f := Reg.CYC_LATE_CNT_COUNT) ⟨hb, .inl hk⟩ hne s

/-- An entry is noted with what its values or its NULL tell the pair. -/
theorem noteEntry_shape (s : State) (i : Nat) (late : Bool) : noteEntry s i late =
    { s with lemac := { s.lemac with nulls := s.lemac.nulls ++ (if late then [i] else []), sent := (noteEntry s i late).lemac.sent } } := by
  unfold noteEntry
  cases late with
  | true => rfl
  | false =>
    simp only [Bool.false_eq_true, if_false, List.append_nil]
    split <;> rfl

/-- One entry of a frame, of which the entries in `lates` are late. -/
def formEntry (lates : List Nat) (s : State) (i : Nat) : State := noteEntry (if lates.contains i then lateEntry s i else s) i (lates.contains i)

theorem launchNoted_formEntry (lates : List Nat) (s : State) (i : Nat) : LaunchNoted s (formEntry lates s i) (if lates.contains i then [i] else []) := by
  unfold formEntry
  cases hl : lates.contains i with
  | true =>
    obtain ⟨hs, hlate, hregs⟩ := lateEntry_effect s i
    have hnote := noteEntry_shape (lateEntry s i) i true
    have hsame : (noteEntry (lateEntry s i) i true).regs = (lateEntry s i).regs := by rw [hnote]
    refine ⟨?_, ?_, fun k hk hb hne => ?_⟩
    · simp only [if_true]
      rw [hnote, hs]
      rfl
    · simp only [if_true]
      rw [rd, rdw, hsame, ← rdw, ← rd]
      exact hlate
    · simp only [if_true]
      rw [rdw, hsame, ← rdw]
      exact hregs k hk hb hne
  | false =>
    have hnote := noteEntry_shape s i false
    have hsame : (noteEntry s i false).regs = s.regs := by rw [hnote]
    simp only [Bool.false_eq_true, if_false]
    refine ⟨?_, ?_, fun k _ _ _ => by rw [rdw, hsame, ← rdw]⟩
    · rw [hnote]
      rfl
    · rw [rd, rdw, hsame, ← rdw, ← rd]
      exact (LaunchNoted.refl s).late

/-- The entries of a frame, formed in order. -/
theorem launchNoted_fold (lates ids : List Nat) : ∀ s, LaunchNoted s (ids.foldl (formEntry lates) s) (ids.filter lates.contains) := by
  induction ids with
  | nil => exact LaunchNoted.refl
  | cons i r ih =>
    intro s
    have h := (launchNoted_formEntry lates s i).trans (ih (formEntry lates s i))
    rw [List.filter_cons]
    split
    · next hl => rwa [if_pos hl] at h
    · next hl => rwa [if_neg hl] at h

/-! ## SP_LAUNCH -/

/-- The entries of a set-point slot. -/
def spIds (e : SlotE) : List Nat := (List.range e.spn).map (fun i => e.spe + i)

/-- Those of them that are late. -/
def spLates (s : State) (e : SlotE) : List Nat := (spIds e).filter (entryLate s)

/-- An entry that leaves as NULL. -/
def spNull (s : State) (e : SlotE) (i : Nat) : Bool := (spLates s e).contains i || (bitOf 10 (spEntry s (bank s) i) && mutesSafe s)

/-- The frame of a set-point slot. -/
def spFrame (s : State) (p : Nat) (e : SlotE) : List Byte :=
  mkFrame s e.slot (s.sched.cycle % 2 ^ 16) 2 (b2n ((spIds e).all (spNull s e)) * 2 ^ 11 + b2n (isRelay s p) * 2 ^ 10 +
    b2n ((spIds e).any (fun i => bitOf 10 (spEntry s (bank s) i) && !spNull s e i)) * 2 ^ 8) ((spIds e).flatMap (fun i => spBytes s i (spNull s e i)))

/-- The port may launch set points: it may send, at the origin of its line or as a relay. -/
def mayLaunch (s : State) (p : Nat) : Bool := maySend s p && (isOrigin s p || isRelay s p)

/-- The state once the entries of a slot are formed. -/
def spFormed (s : State) (e : SlotE) : State := (spIds e).foldl (formEntry (spLates s e)) s

theorem exec_spLaunch {p : Fin 24} {k : Fin 4096} {e : SlotE} {s : State} (hent : (portSlots s p)[k.val]? = some e) (hk : e.kind = 2) (hd : domOn s dNET = true) :
    exec (.spLaunch p k) s = .next (if mayLaunch (spFormed s e) p then
      sendFrame (addCnt (spFormed s e) (Reg.PORT_NULL_CNT_COUNT p) (spLates s e).length) p e.at_ (spFrame s p e) else spFormed s e) := by
  change execSpLaunch p k s = _
  unfold execSpLaunch
  rw [hent]
  dsimp only
  rw [if_pos ⟨hk, hd⟩]
  rfl

theorem spFormed_noted (s : State) (e : SlotE) : LaunchNoted s (spFormed s e) (spLates s e) := by
  have h := launchNoted_fold (spLates s e) (spIds e) s
  rwa [show (spIds e).filter (spLates s e).contains = spLates s e from List.filter_congr fun i hi => by
    rw [Bool.eq_iff_iff, List.contains_iff_mem, spLates, List.mem_filter]
    exact ⟨fun h => h.2, fun h => ⟨hi, h⟩⟩] at h

section
variable {s u : State} {l : List Nat} (h : LaunchNoted s u l)
include h

theorem LaunchNoted.rd {f : Fld} (hk : 0x40 ≤ f.addr % 0x1000) (hb : f.addr ≠ 0xB1C00) (hne : f.addr ≠ Reg.CYC_LATE_CNT_COUNT.addr) : Machine.rd u f = Machine.rd s f := by
  rw [Machine.rd, h.regs _ hk hb hne, ← Machine.rd]

theorem LaunchNoted.lemac : u.lemac = { s.lemac with nulls := s.lemac.nulls ++ l, sent := u.lemac.sent } := by
  obtain ⟨hs, -, -⟩ := h
  rw [hs]

theorem LaunchNoted.mem : u.mem = s.mem := by
  obtain ⟨hs, -, -⟩ := h
  rw [hs]

theorem LaunchNoted.port (p : Nat) : Machine.port u p = Machine.port s p := by rw [Machine.port, h.lemac, Machine.port]

/-- Forming the entries of a slot does not bear on whether the port may launch. -/
theorem LaunchNoted.mayLaunch {p : Nat} (hp : p < 24) : Machine.mayLaunch u p = Machine.mayLaunch s p := by
  have hreg : ∀ f : Fld, 0x40 ≤ f.addr % 0x1000 → f.addr ≠ 0xB1C00 → f.addr ≠ Reg.CYC_LATE_CNT_COUNT.addr → on u f = on s f := fun f a b c => by
    rw [on, h.rd a b c, ← on]
  have hstat : ∀ f : Fld, f.addr = 0x6004C + p * 0x1000 → on u f = on s f := fun f hf => hreg f (by omega) (by omega) (by rw [hf]; simp only [Reg.CYC_LATE_CNT_COUNT]; omega)
  have hctl : u.ctl = s.ctl := by
    obtain ⟨hs, -, -⟩ := h
    rw [hs]
  have hport := h.port p
  have hsend : maySend u p = maySend s p := by
    obtain ⟨hs, -, -⟩ := h
    exact maySend_congr (portLive_congr (by rw [hs]) (by rw [hs]) (by rw [hs]) hctl (hstat _ rfl)) (by rw [hport]) (by rw [hs])
  have hpair : inPair u = inPair s := by
    rw [inPair, paired, role, h.rd (by decide) (by decide) (by decide), ← role, ← paired, hreg _ (by decide) (by decide) (by decide), ← inPair]
  have hlaunch : u.lemac.launching = s.lemac.launching := by rw [h.lemac]
  simp only [Machine.mayLaunch, hsend, isOrigin, originEnd, hlaunch, hpair, cfgOn, cfg, hctl, isRelay, hstat (Reg.PORT_STAT_RELAY p) rfl]

end

/-- What SP_LAUNCH leaves: whether or not a frame leaves, the late entries are counted and noted; only a frame that leaves counts in TX_CNT. -/
theorem spLaunch_effect {p : Fin 24} {k : Fin 4096} {e : SlotE} {s : State} (hent : (portSlots s p)[k.val]? = some e) (hk : e.kind = 2) (hd : domOn s dNET = true) :
    ∃ t, exec (.spLaunch p k) s = .next t ∧ t.mem = s.mem ∧ t.lemac.nulls = s.lemac.nulls ++ spLates s e ∧
      rd t Reg.CYC_LATE_CNT_COUNT = (rd s Reg.CYC_LATE_CNT_COUNT + (spLates s e).length) % 2 ^ 32 ∧
      (mayLaunch s p = true → rd t (Reg.PORT_TX_CNT_COUNT p) = (rd s (Reg.PORT_TX_CNT_COUNT p) + 1) % 2 ^ 32 ∧
        rd t (Reg.PORT_NULL_CNT_COUNT p) = (rd s (Reg.PORT_NULL_CNT_COUNT p) + (spLates s e).length) % 2 ^ 32 ∧ Out.frame p e.at_ (spFrame s p e) ∈ t.wire) ∧
      (mayLaunch s p = false → rd t (Reg.PORT_TX_CNT_COUNT p) = rd s (Reg.PORT_TX_CNT_COUNT p)) := by
  have hp := p.isLt
  have h := spFormed_noted s e
  rw [exec_spLaunch hent hk hd, h.mayLaunch hp]
  have haside : ∀ {o q : Nat}, 0x40 ≤ o → o < 0x1000 → Aside q (0x60000 + o + p.val * 0x1000) := fun ho hlt => portReg_aside hp ho hlt _
  have hkept : ∀ f : Fld, ∀ o, 0x40 ≤ o → o < 0x1000 → f.addr = 0x60000 + o + p.val * 0x1000 → rd (spFormed s e) f = rd s f := fun f o ho hlt hf =>
    h.rd (by omega) (by omega) (by rw [hf]; simp only [Reg.CYC_LATE_CNT_COUNT]; omega)
  have htx := hkept (Reg.PORT_TX_CNT_COUNT p) 0x60 (by decide) (by decide) rfl
  cases hmay : mayLaunch s p.val with
  | false =>
    exact ⟨spFormed s e, rfl, h.mem, by rw [h.lemac], h.late, nofun, fun _ => htx⟩
  | true =>
    obtain ⟨hshape, hcnt, hwire, hregs⟩ := sendFrame_effect hp (addCnt (spFormed s e) (Reg.PORT_NULL_CNT_COUNT p) (spLates s e).length) e.at_ (spFrame s p e)
    have hnull := addCnt_shape (spFormed s e) (Reg.PORT_NULL_CNT_COUNT p) (spLates s e).length
    refine ⟨_, rfl, ?_, ?_, ?_, fun _ => ⟨?_, ?_, hwire⟩, nofun⟩
    · rw [if_pos rfl, hshape.mem, hnull.mem, h.mem]
    · rw [if_pos rfl, hshape.lemac, hnull.lemac, h.lemac]
    · rw [if_pos rfl, rd, hregs _ (by decide) (by decide) (by simp only [Reg.CYC_LATE_CNT_COUNT, Reg.PORT_TX_CNT_COUNT]; omega),
        rdw_addCnt ⟨by decide, .inl (by decide)⟩ (by simp only [Reg.CYC_LATE_CNT_COUNT, Reg.PORT_NULL_CNT_COUNT]; omega), ← rd]
      exact h.late
    · rw [if_pos rfl, hcnt, rd, rdw_addCnt (k := (Reg.PORT_TX_CNT_COUNT p).addr) (haside (o := 0x60) (by decide) (by decide))
        (by simp [Reg.PORT_TX_CNT_COUNT, Reg.PORT_NULL_CNT_COUNT]), ← rd, htx]
    · rw [if_pos rfl, rd, hregs (Reg.PORT_NULL_CNT_COUNT p).addr (by simp only [Reg.PORT_NULL_CNT_COUNT]; omega) (by simp only [Reg.PORT_NULL_CNT_COUNT]; omega)
        (by simp [Reg.PORT_TX_CNT_COUNT, Reg.PORT_NULL_CNT_COUNT]), ← rd,
        rd_addCnt_self _ (haside (o := 0x64) (by decide) (by decide)) (Nat.zero_le _) (by decide : 31 < 32), hkept (Reg.PORT_NULL_CNT_COUNT p) 0x64 (by decide) (by decide) rfl]
      rfl

/-! ## A slot of one entry -/

section
variable {s : State} {e : SlotE} (hspn : e.spn = 1) (hsafe : bitOf 10 (spEntry s (bank s) e.spe) = false)
include hspn hsafe

theorem spLates_one : spLates s e = if tget (fun _ => 0) s.sched.entries e.spe = 0 then [] else [e.spe] := by
  unfold spLates spIds
  by_cases h : tget (fun _ => 0) s.sched.entries e.spe = 0 <;> simp [hspn, entryLate, hsafe, h]

/-- The frame of one entry that is not safe: its header and values in time, its header with NULL when late. -/
theorem spFrame_one (p : Nat) {late : Bool} (h : (spLates s e).contains e.spe = late) : spFrame s p e =
    mkFrame s e.slot (s.sched.cycle % 2 ^ 16) 2 (b2n late * 2 ^ 11 + b2n (isRelay s p) * 2 ^ 10)
      (beBytes 4 (bits 5 0 (spEntry s (bank s) e.spe) * 2 ^ 26 + bits 9 6 (spEntry s (bank s) e.spe) * 2 ^ 22 + b2n late * 2 ^ 21 +
        (if late then [] else spValues s (spEntry s (bank s) e.spe)).length) ++ if late then [] else spValues s (spEntry s (bank s) e.spe)) := by
  have hids : spIds e = [e.spe] := by simp [spIds, hspn]
  have hnull : spNull s e e.spe = late := by rw [spNull, h, hsafe, Bool.false_and, Bool.or_false]
  unfold spFrame
  simp [hids, hnull, spBytes, hsafe, b2n]

end

/-- A slot of one entry that is not safe, at a port that launches: in time its values leave, late its NULL. -/
theorem spLaunch_one {p : Fin 24} {k : Fin 4096} {e : SlotE} {s : State} (hent : (portSlots s p)[k.val]? = some e) (hk : e.kind = 2) (hd : domOn s dNET = true)
    (hspn : e.spn = 1) (hsafe : bitOf 10 (spEntry s (bank s) e.spe) = false) (hmay : maySend s p = true) (hline : isOrigin s p = true ∨ isRelay s p = true) :
    let head := bits 5 0 (spEntry s (bank s) e.spe) * 2 ^ 26 + bits 9 6 (spEntry s (bank s) e.spe) * 2 ^ 22
    let frm := fun (null : Nat) (v : List Byte) => mkFrame s e.slot (s.sched.cycle % 2 ^ 16) 2 (null * 2 ^ 11 + b2n (isRelay s p) * 2 ^ 10) (beBytes 4 (head + null * 2 ^ 21 + v.length) ++ v)
    ∃ t, exec (.spLaunch p k) s = .next t ∧ rd t (Reg.PORT_TX_CNT_COUNT p) = (rd s (Reg.PORT_TX_CNT_COUNT p) + 1) % 2 ^ 32 ∧
      (tget (fun _ => 0) s.sched.entries e.spe = 0 → t.mem = s.mem ∧ Out.frame p e.at_ (frm 0 (spValues s (spEntry s (bank s) e.spe))) ∈ t.wire ∧
        rd t (Reg.PORT_NULL_CNT_COUNT p) = rd s (Reg.PORT_NULL_CNT_COUNT p) ∧ t.lemac.nulls = s.lemac.nulls) ∧
      (tget (fun _ => 0) s.sched.entries e.spe ≠ 0 → Out.frame p e.at_ (frm 1 []) ∈ t.wire ∧ rd t Reg.CYC_LATE_CNT_COUNT = (rd s Reg.CYC_LATE_CNT_COUNT + 1) % 2 ^ 32 ∧
        rd t (Reg.PORT_NULL_CNT_COUNT p) = (rd s (Reg.PORT_NULL_CNT_COUNT p) + 1) % 2 ^ 32 ∧ t.lemac.nulls = s.lemac.nulls ++ [e.spe]) := by
  intro head frm
  have hlaunch : mayLaunch s p = true := by simp [mayLaunch, hmay, hline]
  obtain ⟨t, ht, hmem, hnulls, hlate, hsent, -⟩ := spLaunch_effect hent hk hd
  obtain ⟨htx, hnull, hwire⟩ := hsent hlaunch
  have hlates := spLates_one hspn hsafe
  refine ⟨t, ht, htx, fun h0 => ?_, fun h0 => ?_⟩
  · rw [if_pos h0] at hlates
    rw [spFrame_one hspn hsafe p (late := false) (by rw [hlates]; rfl)] at hwire
    rw [hlates, List.length_nil, Nat.add_zero, Nat.mod_eq_of_lt (show rd s (Reg.PORT_NULL_CNT_COUNT p) < 2 ^ 32 from Nat.mod_lt _ (by simp [Reg.PORT_NULL_CNT_COUNT]))] at hnull
    exact ⟨hmem, hwire, hnull, by rw [hnulls, hlates, List.append_nil]⟩
  · rw [if_neg h0] at hlates
    rw [spFrame_one hspn hsafe p (late := true) (by rw [hlates]; simp)] at hwire
    rw [hlates] at hnulls hlate hnull
    exact ⟨hwire, hlate, hnull, hnulls⟩

/-- Any set-point slot: what counts, and which entries are noted as late. -/
theorem spLaunch_all {p : Fin 24} {k : Fin 4096} {e : SlotE} {s : State} (hent : (portSlots s p)[k.val]? = some e) (hk : e.kind = 2) (hd : domOn s dNET = true) :
    let may := maySend s p && (isOrigin s p || isRelay s p)
    ∃ t, exec (.spLaunch p k) s = .next t ∧
      rd t (Reg.PORT_TX_CNT_COUNT p) = (if may then (rd s (Reg.PORT_TX_CNT_COUNT p) + 1) % 2 ^ 32 else rd s (Reg.PORT_TX_CNT_COUNT p)) ∧
      rd t Reg.CYC_LATE_CNT_COUNT = (rd s Reg.CYC_LATE_CNT_COUNT + (((List.range e.spn).map (fun i => e.spe + i)).filter (entryLate s)).length) % 2 ^ 32 ∧
      t.lemac.nulls = s.lemac.nulls ++ ((List.range e.spn).map (fun i => e.spe + i)).filter (entryLate s) := by
  intro may
  obtain ⟨t, ht, -, hnulls, hlate, hsent, hkept⟩ := spLaunch_effect hent hk hd
  refine ⟨t, ht, ?_, hlate, hnulls⟩
  have hmay : may = mayLaunch s p := rfl
  cases h : mayLaunch s p with
  | false => rw [hmay, h, hkept h, if_neg (by decide)]
  | true => rw [hmay, h, (hsent h).1, if_pos rfl]

end Sys2Proof.Machine
end

section
/-! PROOFS. A set-point frame at a port, and what its comparison at a standby leaves of the port's registers (R187, R250, R254). -/

namespace Sys2Proof.Machine

theorem rdw_pair (s : State) (q : PairSt) (k : Nat) : rdw { s with pair := q } k = rdw s k := rfl

section
variable {k : Nat} (hk : LocalReg k)
include hk

theorem rdw_setSticky_unit (s : State) {f : Fld} (hf : f.page < 0x10 ∨ f.page = 0x14 ∨ 0x78 ≤ f.page) : rdw (setSticky s f) k = rdw s k :=
  rdw_setSticky (hk.aside _) (hk.ne hf) s

theorem rdw_noteMM (s : State) (word : Nat) : rdw (noteMM s word) k = rdw s k := by
  unfold noteMM
  split
  · rfl
  · rw [rdw_setSticky_unit hk _ (by decide), rdw_wrw_other _ _ (hk.ne (by decide))]

theorem rdw_unalign (s : State) (l : List Nat) : rdw (unalign s l) k = rdw s k := by
  unfold unalign
  split
  · rw [showUnal, rdw_showReady hk, rdw_wrs_unit hk _ (by simp; decide), rdw_pair]
  · rfl

theorem rdw_pairDisagree (s : State) : rdw (pairDisagree s) k = rdw s k := by
  unfold pairDisagree
  split
  · rw [rdw_showReady hk, rdw_wr_unit hk _ _ _ (by decide), rdw_post_local hk]
    rfl
  · rfl

theorem rdw_joinQueue (s : State) (r : TestReq) : rdw (joinQueue s r) k = rdw s k := rdw_showQueue hk _

section
variable (hw : k % 0x1000 ≠ 0x44)
include hw

/-- A test of an engine that is requested may withdraw the engine. -/
theorem rdw_requestTest_engine (s : State) (tag i : Nat) : rdw (requestTest s .engine tag i) k = rdw s k := by
  have hne : k ≠ (wdField i).addr := by
    simp only [wdField, Reg.CLU_WITHDRAW]
    omega
  unfold requestTest
  dsimp only
  split
  · exact rdw_testEnd hk _ _ _
  · split
    · exact rdw_testEnd hk _ _ _
    · rw [rdw_joinQueue hk, rdw_capacityCheck hk]
      split
      · exact rdw_wr_other _ _ _ hne
      · rfl

theorem rdw_shadowMismatch (s : State) (kind seg ent : Nat) (chans : List Nat) (ran : List (Nat × Nat)) :
    rdw (shadowMismatch s kind seg ent chans ran) k = rdw s k := by
  unfold shadowMismatch
  extract_lets word u near q v
  have hu : rdw u k = rdw s k := by
    rw [rdw_post_local hk, rdw_incErr_unit hk _ (by decide), rdw_noteMM hk]
  rw [rdw_pairDisagree hk]
  exact List.foldlRecOn _ _ (motive := fun t => rdw t k = rdw s k) ((rdw_unalign hk v chans).trans hu) fun t ht i _ =>
    (rdw_requestTest_engine hk hw t 0 i).trans ht

theorem rdw_compareEntries (seg : Nat) (ids : List Nat) : ∀ (s : State) (b : List Byte), rdw (compareEntries s seg ids b) k = rdw s k := by
  induction ids with
  | nil => exact fun _ _ => rfl
  | cons i r ih =>
    intro s b
    unfold compareEntries
    extract_lets h n v u
    have hu : rdw u k = rdw s k := by
      unfold u
      split
      · rfl
      · split
        · exact rdw_incCnt_unit hk _ (by decide)
        · split
          · split
            · rfl
            · exact rdw_shadowMismatch hk hw _ _ _ _ _ _
          · rfl
    exact (ih u _).trans hu

end

end

theorem chkHead_linkUp (s : State) (p : Nat) (f : RxFrame) (kind : Nat) (c : Bool) : chkHead (linkUp s p) f kind c = chkHead s f kind c := rfl

/-- The frame is compared at a standby whose port has its entry. -/
def spCompared (s : State) (p : Nat) (f : RxFrame) : State :=
  match (portSlots s p).find? (fun e => e.kind == 2 && e.slot == fSlot f) with
  | some e => if role s = rSTANDBY then compareEntries s (portSeg s p) ((List.range e.spn).map (fun i => e.spe + i)) (fBody f) else s
  | none => s

theorem exec_spReceive {f : RxFrame} {s : State} (hlive : portLive s f.port = true) (hchk : chkHead s f 2 true = .ok 0) :
    exec (.spReceive f) s = .next (spCompared (incCnt (linkUp s f.port) (Reg.PORT_RX_CNT_COUNT f.port)) f.port f) := by
  change execSpReceive f s = _
  unfold execSpReceive
  dsimp only
  rw [if_pos hlive, chkHead_linkUp, hchk]
  rfl

/-- A valid set-point frame counts, and does nothing else at a unit that is no standby, or where no entry of the port names it. -/
theorem spReceive_effect {f : RxFrame} {s : State} (hlive : portLive s f.port = true) (hchk : chkHead s f 2 true = .ok 0) :
    ∃ t, exec (.spReceive f) s = .next t ∧ rd t (Reg.PORT_RX_CNT_COUNT f.port) = (rd s (Reg.PORT_RX_CNT_COUNT f.port) + 1) % 2 ^ 32 ∧
      ((role s ≠ rSTANDBY ∨ ∀ e ∈ portSlots s f.port, ¬(e.kind = 2 ∧ e.slot = fSlot f)) → RegsWire s t) := by
  have hp := f.port.isLt
  have hview := (portView_linkUp hp s).trans (portView_incCnt hp (linkUp s f.port) (f := Reg.PORT_RX_CNT_COUNT f.port) (o := 0x5C) rfl (by decide) (by decide) (by decide))
  have hshape : RegsWire s (incCnt (linkUp s f.port) (Reg.PORT_RX_CNT_COUNT f.port)) := (RegsWire.wr s _ _).trans (incCnt_shape _ _)
  have hcnt : rd (incCnt (linkUp s f.port) (Reg.PORT_RX_CNT_COUNT f.port)) (Reg.PORT_RX_CNT_COUNT f.port) = (rd s (Reg.PORT_RX_CNT_COUNT f.port) + 1) % 2 ^ 32 := by
    rw [rd_incCnt_self (portReg_aside hp (o := 0x5C) (by decide) (by decide) _) (Nat.zero_le _) (by decide : 31 < 32), linkUp,
      rd_wr_other _ _ _ _ (by simp [Reg.PORT_STAT_LINK, Reg.PORT_RX_CNT_COUNT])]
    rfl
  have hlocal : LocalReg (Reg.PORT_RX_CNT_COUNT f.port).addr := by
    simp only [LocalReg, Reg.PORT_RX_CNT_COUNT]
    omega
  refine ⟨_, exec_spReceive hlive hchk, ?_, fun hnot => ?_⟩
  · refine Eq.trans ?_ hcnt
    unfold spCompared
    split
    · split
      · rw [rd, rdw_compareEntries hlocal (by simp only [Reg.PORT_RX_CNT_COUNT]; omega), ← rd]
      · rfl
    · rfl
  · have hsame : spCompared (incCnt (linkUp s f.port) (Reg.PORT_RX_CNT_COUNT f.port)) f.port f = incCnt (linkUp s f.port) (Reg.PORT_RX_CNT_COUNT f.port) := by
      unfold spCompared
      split
      · next e he =>
        rw [hview.portSlots] at he
        refine if_neg fun hrole => ?_
        rcases hnot with hnot | hnot
        · exact hnot (by rwa [role, rd, hview.role, ← rd, ← role] at hrole)
        · have hsel := List.find?_some he
          simp only [Bool.and_eq_true, beq_iff_eq] at hsel
          exact hnot e (List.mem_of_find?_eq_some he) hsel
      · rfl
    rw [hsame]
    exact hshape

end Sys2Proof.Machine
end

section
/-! PROOFS. The asynchronous window of a port opens: answers, the port's own request, then the ring (R209, R227, R228, R328). -/

namespace Sys2Proof.Machine

/-! ## What the transmit engine goes by -/

/-- The record at the position of a transmit ring lies in the cistern, where the ring's registers and the port's position say. -/
theorem txHead_congr {s t : State} {p : Nat} (hmem : t.mem = s.mem) (hcist : t.cist = s.cist) (hpwr : t.pwr = s.pwr) (hring : ringOf t p true = ringOf s p true)
    (hpos : (port t p).txPos = (port s p).txPos) : txHead t p = txHead s p := by
  simp only [txHead, hring, hpos, imgWord_congr hmem, ringOn, domOn_congr hpwr, flt, blk_congr hcist, allFloat, cistBytes, mread_congr hmem, mnum_eq_of_mem hmem]
  rfl

/-- The registers that say where a port's ring lies. -/
theorem ringOf_congr {s t : State} {p : Nat} (hp : p < 24) (htx : rdw t (Reg.PORT_AQTX_BLOCK p).addr = rdw s (Reg.PORT_AQTX_BLOCK p).addr)
    (hrx : rdw t (Reg.PORT_AQRX_BLOCK p).addr = rdw s (Reg.PORT_AQRX_BLOCK p).addr) (tx : Bool) : ringOf t p tx = ringOf s p tx := by
  have hfld : ∀ {f g : Fld}, rdw t f.addr = rdw s f.addr → g.addr = f.addr → rd t g = rd s g := fun h hg => by rw [rd, hg, h, ← hg, ← rd]
  simp only [ringOf, hp, if_true, hfld (f := Reg.PORT_AQTX_BLOCK p) (g := Reg.PORT_AQTX_BLOCK p) htx rfl, hfld (f := Reg.PORT_AQTX_BLOCK p) (g := Reg.PORT_AQTX_NBLK p) htx rfl,
    hfld (f := Reg.PORT_AQRX_BLOCK p) (g := Reg.PORT_AQRX_BLOCK p) hrx rfl, hfld (f := Reg.PORT_AQRX_BLOCK p) (g := Reg.PORT_AQRX_NBLK p) hrx rfl]

theorem txStart_empty {s : State} {p : Nat} (h : txHead s p = .empty) (t : Nat) (win : Option (Nat × Bool)) : txStart s p t win = s := by
  unfold txStart
  rw [h]
  simp

theorem txStart_frame {s : State} {p n t : Nat} {b : List Byte} {win : Option (Nat × Bool)} (hmay : mayQueue s p = true) (htx : (port s p).tx = none)
    (h : txHead s p = .frame n b none) (href : etherRefused s b win = false) (hends : endsInTime s p t b.length win = true) : txStart s p t win = launchRec s p t n b := by
  unfold txStart
  simp [hmay, htx, h, href, hends]

/-! ## A frame of the device that leaves -/

/-- `t` is `s` with the frame `b` sent at `at_`: it is on the wire, and of the registers at most the port's TX_CNT and the count of answers have changed. -/
structure FrameSent (s t : State) (p at_ : Nat) (b : List Byte) : Prop where
  shape : t = { s with regs := t.regs, wire := t.wire, freeIdx := t.freeIdx }
  sent : Out.frame p at_ b ∈ t.wire
  regs : ∀ k, 0x40 ≤ k % 0x1000 → k ≠ 0xB1C00 → k ≠ (Reg.PORT_TX_CNT_COUNT p).addr → k ≠ Reg.TIME_TSYNC_CNT_TSYNC_CNT.addr → rdw t k = rdw s k

namespace FrameSent
variable {s t : State} {p at_ : Nat} {b : List Byte} (h : FrameSent s t p at_ b)
include h

theorem mem : t.mem = s.mem := by
  obtain ⟨hs, -, -⟩ := h
  rw [hs]

theorem cist : t.cist = s.cist := by
  obtain ⟨hs, -, -⟩ := h
  rw [hs]

theorem pwr : t.pwr = s.pwr := by
  obtain ⟨hs, -, -⟩ := h
  rw [hs]

theorem port (q : Nat) : Machine.port t q = Machine.port s q := by
  obtain ⟨hs, -, -⟩ := h
  rw [hs]
  rfl

theorem ringOf (hp : p < 24) (tx : Bool) : Machine.ringOf t p tx = Machine.ringOf s p tx := by
  have haside : ∀ k, 0x40 ≤ k % 0x1000 ∧ k ≠ 0xB1C00 ∧ k ≠ (Reg.PORT_TX_CNT_COUNT p).addr ∧ k ≠ Reg.TIME_TSYNC_CNT_TSYNC_CNT.addr → rdw t k = rdw s k :=
    fun k hk => h.regs k hk.1 hk.2.1 hk.2.2.1 hk.2.2.2
  refine ringOf_congr hp (haside _ ?_) (haside _ ?_) tx <;>
    simp only [Reg.PORT_AQTX_BLOCK, Reg.PORT_AQRX_BLOCK, Reg.PORT_TX_CNT_COUNT, Reg.TIME_TSYNC_CNT_TSYNC_CNT] <;> omega

theorem txHead (hp : p < 24) : Machine.txHead t p = Machine.txHead s p :=
  txHead_congr h.mem h.cist h.pwr (h.ringOf hp true) (by rw [h.port])

end FrameSent

theorem frameSent_free {s t : State} {p at_ : Nat} {b : List Byte} (h : FrameSent (free s).2 t p at_ b) : FrameSent s t p at_ b := by
  obtain ⟨hs, hb, hr⟩ := h
  exact ⟨hs, hb, hr⟩

theorem frameSent_sendFrame {p : Nat} (hp : p < 24) (s : State) (at_ : Nat) (b : List Byte) : FrameSent s (sendFrame s p at_ b) p at_ b := by
  obtain ⟨hshape, -, hwire, hregs⟩ := sendFrame_effect hp s at_ b
  exact ⟨by rw [hshape], hwire, fun k hk hb hne _ => hregs k hk hb hne⟩

/-- A count of answers that follows a frame. -/
theorem FrameSent.counted {s t : State} {p at_ : Nat} {b : List Byte} (h : FrameSent s t p at_ b) : FrameSent s (incCnt t Reg.TIME_TSYNC_CNT_TSYNC_CNT) p at_ b := by
  refine ⟨?_, wireGrows_incCnt _ _ _ h.sent, fun k hk hb hp hne => ?_⟩
  · rw [incCnt_shape, h.shape]
  · rw [rdw_incCnt (f := Reg.TIME_TSYNC_CNT_TSYNC_CNT) ⟨hb, .inl hk⟩ hne t]
    exact h.regs k hk hb hp hne

/-- The bytes of an answer. -/
def respFrame (s : State) (p at_ : Nat) (q : Nat × Nat) : List Byte :=
  mkFrame s 0xFFFE (s.sched.cycle % 2 ^ 16) 6 (farFlag s p) (tsyncBody s p q.1 q.2 (txStamp s p at_ % 2 ^ 64) ((free s).1 % 2 ^ 32))

/-- An answer leaves and is counted. -/
theorem sendResp_effect {p : Nat} (hp : p < 24) (s : State) (at_ : Nat) (q : Nat × Nat) : FrameSent s (sendResp s p at_ q) p at_ (respFrame s p at_ q) ∧
    rd (sendResp s p at_ q) Reg.TIME_TSYNC_CNT_TSYNC_CNT = (rd s Reg.TIME_TSYNC_CNT_TSYNC_CNT + 1) % 2 ^ 32 := by
  have h := frameSent_free (frameSent_sendFrame hp (free s).2 at_ (respFrame s p at_ q))
  refine ⟨h.counted, ?_⟩
  unfold sendResp
  rw [rd_incCnt_self ⟨by decide, .inl (by decide)⟩ (by decide) (by decide)]
  congr 2
  obtain ⟨-, -, -, hregs⟩ := sendFrame_effect hp (free s).2 at_ (respFrame s p at_ q)
  have hsame := hregs Reg.TIME_TSYNC_CNT_TSYNC_CNT.addr (by decide) (by decide) (by simp only [Reg.TIME_TSYNC_CNT_TSYNC_CNT, Reg.PORT_TX_CNT_COUNT]; omega)
  exact congrArg (fun w => w / 2 ^ Reg.TIME_TSYNC_CNT_TSYNC_CNT.lo % 2 ^ (Reg.TIME_TSYNC_CNT_TSYNC_CNT.hi + 1 - Reg.TIME_TSYNC_CNT_TSYNC_CNT.lo)) hsame

/-- The far port's request leaves, and is noted with its stamp. -/
theorem sendAsk_effect {p : Nat} (hp : p < 24) (s : State) (at_ : Nat) : ∃ u b tag stamp, FrameSent s u p at_ b ∧
    sendAsk s p at_ = setPort u p { port s p with askDue := false, asked := some (tag, stamp) } := by
  let body := beBytes 1 1 ++ beBytes 1 ((free s).1 % 256) ++ beBytes 2 6 ++ beBytes 4 0 ++ beBytes 4 0x100 ++ beBytes 2 20
  have h := frameSent_free (frameSent_sendFrame hp (free s).2 at_ (mkFrame (free s).2 0xFFFE ((free s).2.sched.cycle % 2 ^ 16) 6 (farFlag (free s).2 p) body))
  refine ⟨_, _, (free s).1 % 256, txStamp (sendAs (free s).2 p at_ body) p at_ % 2 ^ 64, h, ?_⟩
  rw [← h.port p]
  rfl

/-! ## The window opens -/

/-- The port with its window open. -/
def windowOpen (s : State) (p : Nat) (win : Option (Nat × Bool)) : State := setPort s p { port s p with win := win }

theorem exec_asyncWindowStart {p : Fin 24} {k : Fin 4096} {e : SlotE} {s : State} (hent : (portSlots s p)[k.val]? = some e) (hk : e.kind = 3) (hd : domOn s dNET = true)
    {win : Option (Nat × Bool)} (hwin : win = some (e.at_ + 256 * e.len, e.tunnel)) :
    exec (.asyncWindowStart p k) s = .next (txStart (sendTsync (windowOpen s p win) p e.at_ win).1 p (sendTsync (windowOpen s p win) p e.at_ win).2 win) := by
  subst hwin
  change execAsyncWindowStart p k s = _
  unfold execAsyncWindowStart
  rw [hent]
  exact congrArg Host.Outcome.next (if_pos ⟨hk, hd⟩)

/-- With no answer waiting and no request due, nothing of the time service leaves. -/
theorem sendTsync_nothing {s : State} {p at_ : Nat} {win : Option (Nat × Bool)} (hresp : (port s p).resp = []) (hask : (port s p).askDue = false) :
    sendTsync s p at_ win = (s, at_) := by
  unfold sendTsync
  simp [hresp, hask]

theorem sendTsync_ask {s : State} {p at_ : Nat} {win : Option (Nat × Bool)} (hresp : (port s p).resp = []) (hask : (port s p).askDue = true)
    (hmay : maySend s p = true) (hfar : isFar s p = true) (hends : endsInTime s p at_ asFrameLen win = true) : (sendTsync s p at_ win).1 = sendAsk s p at_ := by
  unfold sendTsync
  simp [hresp, hask, hmay, hfar, hends]

/-- The port's answers are taken up. -/
def answersTaken (s : State) (p : Nat) : State := setPort s p { port s p with resp := [] }

theorem sendTsync_answer {s : State} {p at_ : Nat} {win : Option (Nat × Bool)} {q : Nat × Nat} (hresp : (port s p).resp = [q])
    (hmay : maySend (answersTaken s p) p = true) (hends : endsInTime (answersTaken s p) p at_ asFrameLen win = true)
    (hask : (port (sendResp (answersTaken s p) p at_ q) p).askDue = false) : (sendTsync s p at_ win).1 = sendResp (answersTaken s p) p at_ q := by
  unfold answersTaken at *
  unfold sendTsync
  simp [hresp, hmay, hends, hask]

theorem maySend_of_mayQueue {s : State} {p : Nat} (hp : p < 24) (h : mayQueue s p = true) : maySend s p = true := by
  simp only [mayQueue, hp, if_true, Bool.and_eq_true] at h
  exact h.1

section
variable (s : State) (p : Nat) (win : Option (Nat × Bool))

theorem txHead_setPort {x : PortSt} (h : x.txPos = (port s p).txPos) : txHead (setPort s p x) p = txHead s p :=
  txHead_congr rfl rfl rfl rfl (by rw [port_setPort_self, h])

theorem maySend_setPort {x : PortSt} (h : x.supNow = (port s p).supNow) : maySend (setPort s p x) p = maySend s p :=
  maySend_congr rfl (by rw [port_setPort_self, h]) rfl

theorem port_windowOpen : port (windowOpen s p win) p = { port s p with win := win } := port_setPort_self _ _ _

theorem txHead_windowOpen : txHead (windowOpen s p win) p = txHead s p := txHead_setPort s p (x := { port s p with win := win }) rfl

theorem maySend_windowOpen : maySend (windowOpen s p win) p = maySend s p := maySend_setPort s p (x := { port s p with win := win }) rfl

theorem port_answersTaken : port (answersTaken s p) p = { port s p with resp := [] } := port_setPort_self _ _ _

theorem txHead_answersTaken : txHead (answersTaken s p) p = txHead s p := txHead_setPort s p (x := { port s p with resp := [] }) rfl

theorem maySend_answersTaken : maySend (answersTaken s p) p = maySend s p := maySend_setPort s p (x := { port s p with resp := [] }) rfl

end

/-! ## A record that is launched -/

/-- A record that is launched: its frame is on the wire, and the record is in hand until the line is free again. -/
theorem launchRec_effect (s : State) (p t n : Nat) (b : List Byte) : (launchRec s p t n b).mem = s.mem ∧
    (if p < 24 then Out.frame p t (padTo 60 b) else Out.plantFrame (p - 24) t (padTo 60 b)) ∈ (launchRec s p t n b).wire ∧
    port (launchRec s p t n b) p = { port s p with tx := some { ofs := (port s p).txPos, k := n, status := 0, wrap := false, sent := true,
                                                                next := t + frameNs s p b.length + wireNs s p 20 } } := by
  have hring : RegsWire s (sendRing s p t b) ∧ (if p < 24 then Out.frame p t (padTo 60 b) else Out.plantFrame (p - 24) t (padTo 60 b)) ∈ (sendRing s p t b).wire := by
    unfold sendRing
    split
    · exact ⟨(RegsWire.emit _ _).trans (incCnt_shape _ _), wireGrows_incCnt _ _ _ (mem_wire_emit _ _)⟩
    · exact ⟨(RegsWire.emit _ _).trans (incCnt_shape _ _), wireGrows_incCnt _ _ _ (mem_wire_emit _ _)⟩
  obtain ⟨hshape, hwire⟩ := hring
  have hport : port (sendRing s p t b) p = port s p := by rw [port, hshape.lemac, port]
  refine ⟨hshape.mem, hwire, ?_⟩
  unfold launchRec takeRec
  rw [port_setPort_self, hport]

section
variable {p : Fin 24} {k : Fin 4096} {e : SlotE} {s : State} (hent : (portSlots s p)[k.val]? = some e) (hk : e.kind = 3) (hd : domOn s dNET = true)
  (hmay : mayQueue s p = true) {win : Option (Nat × Bool)} (hwin : win = some (e.at_ + 256 * e.len, e.tunnel))
include hent hk hd hwin

/-- An empty ring, and nothing of the time service: the window is kept. -/
theorem asyncWindow_idle (hempty : txHead s p = .empty) (hresp : (port s p).resp = []) (hask : (port s p).askDue = false) :
    exec (.asyncWindowStart p k) s = .next (setPort s p { port s p with win := win }) := by
  have hport := port_windowOpen s p win
  rw [exec_asyncWindowStart hent hk hd hwin, sendTsync_nothing (by rw [hport, hresp]) (by rw [hport, hask]), txStart_empty ((txHead_windowOpen s p win).trans hempty)]
  rfl

include hmay

/-- With nothing of the time service, a record that ends in the window and may be sent is launched. -/
theorem asyncWindow_record {n : Nat} {b : List Byte} (hresp : (port s p).resp = []) (hask : (port s p).askDue = false) (hidle : (port s p).tx = none)
    (hhead : txHead s p = .frame n b none) (href : etherRefused s b win = false) (hends : endsInTime s p e.at_ b.length win = true) :
    ∃ t, exec (.asyncWindowStart p k) s = .next t ∧ t.mem = s.mem ∧ Out.frame p e.at_ (padTo 60 b) ∈ t.wire ∧
      port t p = { port s p with win := win, tx := some { ofs := (port s p).txPos, k := n, status := 0, wrap := false, sent := true, next := e.at_ + frameNs s p b.length + wireNs s p 20 } } := by
  have hport := port_windowOpen s p win
  have hqueue : mayQueue (windowOpen s p win) p = true := by
    rw [← hmay]
    simp only [mayQueue, p.isLt, if_true, maySend_windowOpen]
    rfl
  obtain ⟨hmem, hwire, hrec⟩ := launchRec_effect (windowOpen s p win) p e.at_ n b
  rw [if_pos p.isLt] at hwire
  refine ⟨_, ?_, hmem, hwire, ?_⟩
  · rw [exec_asyncWindowStart hent hk hd hwin, sendTsync_nothing (by rw [hport, hresp]) (by rw [hport, hask]),
      txStart_frame hqueue (by rw [hport, hidle]) ((txHead_windowOpen s p win).trans hhead) href hends]
  · rw [hrec, hport]
    rfl

/-- One answer that ends in time leaves as the window opens. -/
theorem asyncWindow_answer {q : Nat × Nat} (hempty : txHead s p = .empty) (hresp : (port s p).resp = [q]) (hask : (port s p).askDue = false)
    (hends : endsInTime s p e.at_ asFrameLen win = true) :
    ∃ t b, exec (.asyncWindowStart p k) s = .next t ∧ Out.frame p e.at_ b ∈ t.wire ∧ port t p = { port s p with win := win, resp := [] } ∧
      rd t Reg.TIME_TSYNC_CNT_TSYNC_CNT = (rd s Reg.TIME_TSYNC_CNT_TSYNC_CNT + 1) % 2 ^ 32 := by
  have hport := port_windowOpen s p win
  obtain ⟨hsent, hcnt⟩ := sendResp_effect p.isLt (answersTaken (windowOpen s p win) p) e.at_ q
  have hafter : port (sendResp (answersTaken (windowOpen s p win) p) p e.at_ q) p = { port s p with win := win, resp := [] } := by
    rw [hsent.port, port_answersTaken, hport]
  have hsend : (sendTsync (windowOpen s p win) p e.at_ win).1 = sendResp (answersTaken (windowOpen s p win) p) p e.at_ q := by
    refine sendTsync_answer (by rw [hport, hresp]) ?_ hends (by rw [hafter, hask])
    rw [maySend_answersTaken, maySend_windowOpen, maySend_of_mayQueue p.isLt hmay]
  refine ⟨_, _, ?_, hsent.sent, hafter, hcnt⟩
  rw [exec_asyncWindowStart hent hk hd hwin, hsend, txStart_empty]
  rw [hsent.txHead p.isLt, txHead_answersTaken, txHead_windowOpen, hempty]

/-- The far port's own request leaves as the window opens. -/
theorem asyncWindow_ask (hempty : txHead s p = .empty) (hresp : (port s p).resp = []) (hask : (port s p).askDue = true) (hfar : isFar s p = true)
    (hends : endsInTime s p e.at_ asFrameLen win = true) :
    ∃ t b tag at_, exec (.asyncWindowStart p k) s = .next t ∧ Out.frame p e.at_ b ∈ t.wire ∧ port t p = { port s p with win := win, askDue := false, asked := some (tag, at_) } := by
  have hport := port_windowOpen s p win
  obtain ⟨u, b, tag, stamp, hsent, heq⟩ := sendAsk_effect p.isLt (windowOpen s p win) e.at_
  have hsend : (sendTsync (windowOpen s p win) p e.at_ win).1 = sendAsk (windowOpen s p win) p e.at_ :=
    sendTsync_ask (by rw [hport, hresp]) (by rw [hport, hask]) (by rw [maySend_windowOpen, maySend_of_mayQueue p.isLt hmay]) hfar hends
  have hempty' : txHead (sendAsk (windowOpen s p win) p e.at_) p = .empty := by
    rw [heq, txHead_setPort _ _ (by rw [hsent.port]), hsent.txHead p.isLt, txHead_windowOpen, hempty]
  refine ⟨sendAsk (windowOpen s p win) p e.at_, b, tag, stamp, ?_, ?_, ?_⟩
  · rw [exec_asyncWindowStart hent hk hd hwin, hsend, txStart_empty hempty']
  · rw [heq]
    exact hsent.sent
  · rw [heq, port_setPort_self, hport]

end

end Sys2Proof.Machine
end

section
/-! PROOFS. A timed record is launched or has failed (R236). -/

namespace Sys2Proof.Machine

/-- A record that is launched counts in the port's page or the plant port's, not among the registers of network time. -/
theorem rdw_launchRec_time {k p : Nat} (hp : p < 26) (hpage : k / 0x1000 = 0x7A) (hk : 0x40 ≤ k % 0x1000) (s : State) (t n : Nat) (b : List Byte) :
    rdw (launchRec s p t n b) k = rdw s k := by
  have hring : rdw (sendRing s p t b) k = rdw s k := by
    unfold sendRing
    split
    · next h =>
      obtain ⟨-, -, -, hregs⟩ := sendFrame_effect h s t (padTo 60 b)
      exact hregs k hk (by omega) (by simp only [Reg.PORT_TX_CNT_COUNT]; omega)
    · exact rdw_incCnt (f := Reg.PLANT_FRAME_CNT_TX (p - 24)) ⟨by omega, .inl hk⟩ (by simp only [Reg.PLANT_FRAME_CNT_TX]; omega) _
  exact hring

section
variable {p : Fin 26} {n l : Nat} {b : List Byte} {s : State} (hmay : mayQueue s p = true) (hd : domOn s dNET = true) (hidle : (port s p).tx = none)
  (hhead : txHead s p = .frame n b (some l))
include hmay hd hidle hhead

/-- A launch time that has passed: the record fails with STATUS 1, and LAUNCH_ERR counts it. -/
theorem timedLaunch_passed : ∃ t, exec (.timedLaunch p true) s = .next t ∧ t.mem = s.mem ∧
    rd t Reg.TIME_LAUNCH_ERR_COUNT = min 65535 (rd s Reg.TIME_LAUNCH_ERR_COUNT + 1) ∧
    ∃ r, (port t p).tx = some r ∧ r.status = 1 ∧ r.sent = false ∧ r.k = n ∧ r.ofs = (port s p).txPos := by
  have hexec : exec (.timedLaunch p true) s = .next (takeRec (incErr s Reg.TIME_LAUNCH_ERR_COUNT) p n 1 (afterBoundary s l) false false) := by
    change execTimedLaunch p true s = _
    unfold execTimedLaunch
    simp [hmay, hd, hidle, hhead]
  have hshape := incErr_shape s Reg.TIME_LAUNCH_ERR_COUNT
  have hport : port (incErr s Reg.TIME_LAUNCH_ERR_COUNT) p = port s p := by rw [port, hshape.lemac, port]
  refine ⟨_, hexec, hshape.mem, ?_, { ofs := (port s p).txPos, k := n, status := 1, wrap := false, sent := false, next := afterBoundary s l }, ?_, rfl, rfl, rfl, rfl⟩
  · exact rd_incErr_self s ⟨by decide, .inl (by decide)⟩ (by decide) (by decide)
  · rw [takeRec, port_setPort_self, hport]

/-- A launch time yet to come, of a record that ends in time and may be sent: the frame leaves at that time. -/
theorem timedLaunch_sent {at_ : Nat} {win : Option (Nat × Bool)} (hat : at_ = afterBoundary s l) (hwin : win = if p.val < 24 then asyncAt s p at_ else none)
    (hopen : p.val < 24 → win.isSome = true) (hends : endsInTime s p at_ b.length win = true) (href : etherRefused s b win = false) :
    ∃ u, exec (.timedLaunch p false) s = .next u ∧ u.mem = s.mem ∧
      (if p.val < 24 then Out.frame p.val at_ (padTo 60 b) else Out.plantFrame (p.val - 24) at_ (padTo 60 b)) ∈ u.wire ∧
      rd u Reg.TIME_LAUNCH_ERR_COUNT = rd s Reg.TIME_LAUNCH_ERR_COUNT ∧
      ∃ r, (port u p).tx = some r ∧ r.status = 0 ∧ r.sent = true ∧ r.k = n ∧ r.ofs = (port s p).txPos := by
  have hnone : (decide (p.val < 24) && win.isNone) = false := by
    by_cases h : p.val < 24
    · cases win with
      | none => exact absurd (hopen h) (by decide)
      | some x => simp
    · simp [h]
  have hexec : exec (.timedLaunch p false) s = .next (launchRec s p at_ n b) := by
    subst hat hwin
    change execTimedLaunch p false s = _
    unfold execTimedLaunch
    simp only [hmay, hd, hidle, hhead]
    simp [hnone, hends, href]
  obtain ⟨hmem, hwire, hport⟩ := launchRec_effect s p at_ n b
  refine ⟨_, hexec, hmem, hwire, ?_, { ofs := (port s p).txPos, k := n, status := 0, wrap := false, sent := true, next := at_ + frameNs s p b.length + wireNs s p 20 }, ?_,
    rfl, rfl, rfl, rfl⟩
  · rw [rd, rdw_launchRec_time p.isLt (by decide) (by decide), ← rd]
  · rw [hport]

end

end Sys2Proof.Machine
end

section
/-! PROOFS. Records of the rings of a port: a sent record is completed, and a received frame is stored (R226, R328, R329). -/

namespace Sys2Proof.Machine

/-! ## A record in the cistern (R328) -/

theorem handBack_shape (s : State) (b n : Nat) : handBack s b n = { s with cist := (handBack s b n).cist } :=
  List.foldlRecOn (List.range n) _ (motive := fun t : State => t = { s with cist := t.cist }) rfl fun t ht i _ => by
    rw [ht]
    rfl

theorem mget_congr {s t : State} (h : t.mem = s.mem) (c : Nat) : mget t c = mget s c := by rw [mget, h, mget]

theorem length_recHeader (w ns frac : Nat) : (recHeader w ns frac).length = 16 := by simp [recHeader]

section
variable (s : State) (a w ns frac : Nat) (b : List Byte)

/-- A header that is written before the bytes of its frame reads back: its word, its time in ns, and the fraction. -/
theorem recHeader_effect : mnum (mwrite s a (recHeader w ns frac ++ b)) a 4 = w % 2 ^ 32 ∧ mnum (mwrite s a (recHeader w ns frac ++ b)) (a + 4) 8 = ns % 2 ^ 64 ∧
    mnum (mwrite s a (recHeader w ns frac ++ b)) (a + 12) 4 = frac % 2 ^ 16 := by
  have hword := mnum_mwrite_part s a 4 w [] (leBytes 8 ns ++ leBytes 4 (frac % 2 ^ 16) ++ b)
  have hns := mnum_mwrite_part s a 8 ns (leBytes 4 w) (leBytes 4 (frac % 2 ^ 16) ++ b)
  have hfrac := mnum_mwrite_part s a 4 (frac % 2 ^ 16) (leBytes 4 w ++ leBytes 8 ns) b
  simp only [List.nil_append, List.length_nil, List.length_append, length_leBytes, List.append_assoc, Nat.add_zero, Nat.reduceAdd, Nat.reducePow] at hword hns hfrac
  simp only [recHeader, List.append_assoc, Nat.reducePow]
  exact ⟨hword, hns, hfrac.trans (Nat.mod_eq_of_lt (by omega))⟩

/-- The bytes after a header read back. -/
theorem recBody_effect : mread (mwrite s a (recHeader w ns frac ++ b)) (a + 16) b.length = b := by
  have h := mread_mwrite_part s a (recHeader w ns frac) b []
  rwa [List.append_nil, length_recHeader] at h

/-- A record is written in its own bytes. -/
theorem rec_frame : SameMemBut a (16 + b.length) s (mwrite s a (recHeader w ns frac ++ b)) := fun c hc =>
  mget_mwrite_other _ _ _ _ (by rwa [List.length_append, length_recHeader])

end

/-! ## A sent record is completed (R226, R328) -/

/-- The header word of a record that was sent, with VALID and its STATUS. -/
def sentWord (s : State) (p : Nat) (r : TxRun) (cut : Bool) : Nat :=
  setBits 31 28 (imgWord s ((ringOf s p true).1 + r.ofs) 0) ((if cut then 2 else r.status) + 8)

theorem sentWord_lt (s : State) (p : Nat) (r : TxRun) (cut : Bool) : sentWord s p r cut < 2 ^ 32 := by
  refine setBits_lt _ _ _ _ _ (by decide) (by decide) ((leNat_lt _).trans_le ?_)
  simp [mread]

/-- The state once the header of a record that was sent is written. -/
def sentHeader (s : State) (p : Nat) (r : TxRun) (T : Nat) (cut : Bool) : State :=
  mwrite s (cistAddr (256 * ((ringOf s p true).1 + r.ofs))) (recHeader (sentWord s p r cut) (T / 2 ^ 16) (T % 2 ^ 16) ++ [])

/-- The record in hand, sent and no wrap record, is completed outside a window. -/
theorem exec_txRecordComplete {p : Fin 24} {stamp : W64} {frac : BitVec 16} {cut : Bool} {r : TxRun} {s : State} (htx : (port s p).tx = some r) (hd : domOn s dCIST = true)
    (hwin : (port s p).win = none) (hsent : r.sent = true) (hwrap : r.wrap = false) : exec (.txRecordComplete ⟨p.val, by omega⟩ stamp frac cut) s =
    .next (setPort (handBack (sentHeader s p r ((stamp.toNat * 2 ^ 16 + frac.toNat : Nat) + txFix s p).toNat cut) ((ringOf s p true).1 + r.ofs) r.k) p
      { port s p with tx := none, txPos := (r.ofs + r.k) % (ringOf s p true).2 }) := by
  have hp : ¬ 24 ≤ p.val := by omega
  have hfin : finishRec s p r stamp.toNat frac.toNat cut =
      setPort (handBack (sentHeader s p r ((stamp.toNat * 2 ^ 16 + frac.toNat : Nat) + txFix s p).toNat cut) ((ringOf s p true).1 + r.ofs) r.k) p
        { port s p with tx := none, txPos := (r.ofs + r.k) % (ringOf s p true).2 } := by
    have hport : ∀ a l, port (mwrite s a l) p = port s p := fun a l => by rw [port, mwrite_lemac, port]
    simp only [finishRec, hsent, hwrap, Bool.true_and, if_true, Bool.false_eq_true, if_false, hport, sentHeader, sentWord, List.append_nil]
  change execTxRecordComplete ⟨p.val, by omega⟩ stamp frac cut s = _
  unfold execTxRecordComplete
  simp only [hp, if_false, htx, hd, if_true, p.isLt, hfin, port_setPort_self, hwin, Option.isSome_none, Bool.false_eq_true]

/-- What completing a sent record leaves: its header holds VALID, its STATUS and its corrected stamp, and the ring moves on. -/
theorem txRecordComplete_effect {p : Fin 24} {stamp : W64} {frac : BitVec 16} {cut : Bool} {r : TxRun} {s : State} (htx : (port s p).tx = some r) (hd : domOn s dCIST = true)
    (hwin : (port s p).win = none) (hsent : r.sent = true) (hwrap : r.wrap = false) :
    ∃ t, exec (.txRecordComplete ⟨p.val, by omega⟩ stamp frac cut) s = .next t ∧ port t p = { port s p with tx := none, txPos := (r.ofs + r.k) % rd s (Reg.PORT_AQTX_NBLK p) } ∧
      SameMemBut (cistAddr (256 * (rd s (Reg.PORT_AQTX_BLOCK p) + r.ofs))) 16 s t ∧
      (∀ T, T = ((stamp.toNat * 2 ^ 16 + frac.toNat : Nat) + txFix s p).toNat →
        mnum t (cistAddr (256 * (rd s (Reg.PORT_AQTX_BLOCK p) + r.ofs)) + 4) 8 = T / 2 ^ 16 % 2 ^ 64 ∧
        mnum t (cistAddr (256 * (rd s (Reg.PORT_AQTX_BLOCK p) + r.ofs)) + 12) 4 = T % 2 ^ 16) ∧
      bits 31 28 (mnum t (cistAddr (256 * (rd s (Reg.PORT_AQTX_BLOCK p) + r.ofs))) 4) = ((if cut = true then 2 else r.status) + 8) % 16 := by
  have hring : ringOf s p true = (rd s (Reg.PORT_AQTX_BLOCK p), rd s (Reg.PORT_AQTX_NBLK p)) := by simp [ringOf]
  refine ⟨_, exec_txRecordComplete htx hd hwin hsent hwrap, by rw [port_setPort_self, hring], ?_⟩
  rw [hring]
  generalize hT : ((stamp.toNat * 2 ^ 16 + frac.toNat : Nat) + txFix s p).toNat = T
  generalize ha : rd s (Reg.PORT_AQTX_BLOCK p) + r.ofs = a
  generalize hx : ({ port s p with tx := none, txPos := (r.ofs + r.k) % rd s (Reg.PORT_AQTX_NBLK p) } : PortSt) = x
  have hhead : sentHeader s p r T cut = mwrite s (cistAddr (256 * a)) (recHeader (sentWord s p r cut) (T / 2 ^ 16) (T % 2 ^ 16) ++ []) := by
    rw [sentHeader, hring, ← ha]
  have hmem : (setPort (handBack (sentHeader s p r T cut) a r.k) p x).mem = (mwrite s (cistAddr (256 * a)) (recHeader (sentWord s p r cut) (T / 2 ^ 16) (T % 2 ^ 16) ++ [])).mem := by
    rw [setPort_mem, handBack_shape, hhead]
  obtain ⟨hword, hns, hfrac⟩ := recHeader_effect s (cistAddr (256 * a)) (sentWord s p r cut) (T / 2 ^ 16) (T % 2 ^ 16) []
  refine ⟨fun c hc => ?_, ?_, ?_⟩
  · exact (mget_congr hmem c).trans (rec_frame s _ _ _ _ [] c hc)
  · rintro _ rfl
    rw [mnum_eq_of_mem hmem, mnum_eq_of_mem hmem, hns, hfrac]
    exact ⟨rfl, Nat.mod_mod _ _⟩
  · rw [mnum_eq_of_mem hmem, hword, Nat.mod_eq_of_lt (sentWord_lt s p r cut), sentWord, bits_setBits_self _ _ _ _ (by decide)]
    rfl

/-! ## A received frame is stored (R329) -/

/-- The receive ring of a port has room for the frame `b`, at position `o`. -/
def RingRoom (s : State) (p : Nat) (b : List Byte) (o : Nat) : Prop :=
  ringOn s (ringOf s p false) = true ∧ o = (if (ringOf s p false).2 < (port s p).rxPos + recBlocks b.length then 0 else (port s p).rxPos) ∧
    recBlocks b.length ≤ (ringOf s p false).2 ∧ allFloat s ((ringOf s p false).1 + o) (recBlocks b.length) 3 = true

/-- `t` is `s` with the frame `b` stored at position `o` of the port's receive ring, cut short or not, with its stamp. -/
def FrameStored (s t : State) (p : Nat) (b : List Byte) (o cut stamp : Nat) : Prop :=
  mnum t (cistAddr (256 * ((ringOf s p false).1 + o))) 4 = b.length + cut * 2 ^ 28 + 2 ^ 31 ∧
    mnum t (cistAddr (256 * ((ringOf s p false).1 + o)) + 4) 8 = stamp / 2 ^ 16 % 2 ^ 64 ∧
    mnum t (cistAddr (256 * ((ringOf s p false).1 + o)) + 12) 4 = stamp % 2 ^ 16 ∧
    mread t (cistAddr (256 * ((ringOf s p false).1 + o)) + 16) b.length = b ∧
    SameMemBut (cistAddr (256 * ((ringOf s p false).1 + o))) (16 + b.length) s t ∧ (port t p).rxPos = (o + recBlocks b.length) % (ringOf s p false).2

/-- `u` agrees with `s` in all that a receive ring goes by. -/
structure RingView (p : Nat) (s u : State) : Prop where
  mem : u.mem = s.mem
  cist : u.cist = s.cist
  pwr : u.pwr = s.pwr
  lemac : u.lemac = s.lemac
  ring : ringOf u p false = ringOf s p false

theorem RingView.ringOn {p : Nat} {s u : State} (h : RingView p s u) (r : Nat × Nat) : ringOn u r = ringOn s r := by
  simp only [Machine.ringOn, domOn_congr h.pwr]

theorem ringPut_full {s : State} {p : Nat} (h : ringOn s (ringOf s p false) = false) (b : List Byte) (ns frac : Nat) (cut : Bool) : ringPut s p b ns frac cut = none := by
  unfold ringPut
  simp [h]

/-- A frame that finds room is stored, with nothing else changed but the owners of its blocks. -/
theorem ringPut_room {s u : State} {p o : Nat} {b : List Byte} (hv : RingView p s u) (hroom : RingRoom s p b o) (hlen : b.length ≤ 1514) (stamp : Nat) (cut : Bool) :
    ∃ t, ringPut u p b (stamp / 2 ^ 16) (stamp % 2 ^ 16) cut = some t ∧ FrameStored s t p b o (b2n cut) stamp := by
  obtain ⟨hon, ho, hfit, hfloat⟩ := hroom
  have hport : port u p = port s p := by rw [port, hv.lemac, port]
  have hfloat' : allFloat u ((ringOf s p false).1 + o) (recBlocks b.length) 3 = true := by
    rw [← hfloat]
    simp only [allFloat, flt, blk_congr hv.cist]
  let a := cistAddr (256 * ((ringOf s p false).1 + o))
  let w := b.length + b2n cut * 2 ^ 28 + 2 ^ 31
  let t := setPort (handBack (mwrite u a (recHeader w (stamp / 2 ^ 16) (stamp % 2 ^ 16) ++ b)) ((ringOf s p false).1 + o) (recBlocks b.length)) p
    { port s p with rxPos := (o + recBlocks b.length) % (ringOf s p false).2 }
  have hput : ringPut u p b (stamp / 2 ^ 16) (stamp % 2 ^ 16) cut = some t := by
    unfold ringPut
    dsimp only
    rw [hv.ring, hport, ← ho, if_pos (by rw [hv.ringOn, hon, hfloat']; simpa using hfit)]
  have hmem : t.mem = (mwrite u a (recHeader w (stamp / 2 ^ 16) (stamp % 2 ^ 16) ++ b)).mem := by
    rw [setPort_mem, handBack_shape]
  obtain ⟨hword, hns, hfrac⟩ := recHeader_effect u a w (stamp / 2 ^ 16) (stamp % 2 ^ 16) b
  have hw : w < 2 ^ 32 := by
    have : b2n cut ≤ 1 := by cases cut <;> decide
    omega
  refine ⟨t, hput, ?_, ?_, ?_, ?_, fun c hc => ?_, ?_⟩
  · rw [mnum_eq_of_mem hmem, hword, Nat.mod_eq_of_lt hw]
  · rw [mnum_eq_of_mem hmem, hns]
  · rw [mnum_eq_of_mem hmem, hfrac, Nat.mod_mod]
  · rw [mread_congr hmem, recBody_effect]
  · exact (mget_congr hmem c).trans ((rec_frame u a _ _ _ b c hc).trans (mget_congr hv.mem c))
  · rw [port_setPort_self]

end Sys2Proof.Machine
end

section
/-! PROOFS. Asynchronous frames at a port: their checks, their place in the ring, and the time service (R187, R209, R210, R227, R228). -/

namespace Sys2Proof.Machine

/-! ## A frame in an asynchronous window -/

/-- The port once it has heard a frame that it may take: its LINK is up and the frame is counted. -/
def heard (s : State) (p : Nat) : State := incCnt (linkUp s p) (Reg.PORT_RX_CNT_COUNT p)

section
variable {p : Nat} (hp : p < 24) (s : State)

theorem heard_shape : RegsWire s (heard s p) := (RegsWire.wr s _ _).trans (incCnt_shape _ _)

theorem port_heard : port (heard s p) p = port s p := by rw [port, (heard_shape s).lemac, port]

/-- Hearing a frame writes the port's STAT and RX_CNT. -/
theorem rdw_heard {k : Nat} (hk : 0x40 ≤ k % 0x1000) (hb : k ≠ 0xB1C00) (hstat : k ≠ 0x6004C + p * 0x1000) (hrx : k ≠ 0x6005C + p * 0x1000) :
    rdw (heard s p) k = rdw s k :=
  (rdw_incCnt (f := Reg.PORT_RX_CNT_COUNT p) ⟨hb, .inl hk⟩ hrx _).trans (rdw_wr_other _ _ _ hstat)

include hp

theorem portView_heard : PortView p s (heard s p) :=
  (portView_linkUp hp s).trans (portView_incCnt hp _ (f := Reg.PORT_RX_CNT_COUNT p) (o := 0x5C) rfl (by decide) (by decide) (by decide))

theorem ringView_heard : RingView p s (heard s p) where
  mem := (heard_shape s).mem
  cist := (heard_shape s).cist
  pwr := (heard_shape s).pwr
  lemac := (heard_shape s).lemac
  ring := ringOf_congr hp
    (rdw_heard s (by simp only [Reg.PORT_AQTX_BLOCK]; omega) (by simp only [Reg.PORT_AQTX_BLOCK]; omega) (by simp only [Reg.PORT_AQTX_BLOCK]; omega) (by simp only [Reg.PORT_AQTX_BLOCK]; omega))
    (rdw_heard s (by simp only [Reg.PORT_AQRX_BLOCK]; omega) (by simp only [Reg.PORT_AQRX_BLOCK]; omega) (by simp only [Reg.PORT_AQRX_BLOCK]; omega) (by simp only [Reg.PORT_AQRX_BLOCK]; omega)) false

theorem maySend_heard : maySend (heard s p) p = maySend s p := by
  have h := heard_shape (p := p) s
  have hclosed : rd (heard s p) (Reg.PORT_STAT_CLOSED p) = rd s (Reg.PORT_STAT_CLOSED p) := by
    have hcnt : rdw (heard s p) (Reg.PORT_STAT_CLOSED p).addr = rdw (linkUp s p) (Reg.PORT_STAT_CLOSED p).addr :=
      rdw_incCnt (f := Reg.PORT_RX_CNT_COUNT p) (portReg_aside hp (o := 0x4C) (by decide) (by decide) _) (by simp [Reg.PORT_RX_CNT_COUNT]) _
    rw [rd, hcnt, ← rd]
    exact rd_wr_disj _ _ _ _ (Nat.le_refl _) (by simp [Reg.PORT_STAT_LINK]) (Nat.le_refl _) (by simp [Reg.PORT_STAT_LINK, Reg.PORT_STAT_CLOSED])
  exact maySend_congr (portLive_congr h.pwr (by rw [h.tests]) (by rw [h.boot]) h.ctl (by rw [on, hclosed, ← on])) (by rw [port_heard]) (by rw [h.pair])

theorem rd_heard_speed : rd (heard s p) (Reg.PORT_CTRL_SPEED p) = rd s (Reg.PORT_CTRL_SPEED p) := by
  rw [rd, rdw_heard s (by simp only [Reg.PORT_CTRL_SPEED]; omega) (by simp only [Reg.PORT_CTRL_SPEED]; omega) (by simp only [Reg.PORT_CTRL_SPEED]; omega)
    (by simp only [Reg.PORT_CTRL_SPEED]; omega), ← rd]

theorem endsInTime_heard (t n : Nat) (win : Option (Nat × Bool)) : endsInTime (heard s p) p t n win = endsInTime s p t n win := by
  have hframe : frameNs (heard s p) p n = frameNs s p n := by simp only [frameNs, wireNs, hp, if_true, rd_heard_speed hp s]
  have hline : dline (heard s p) p = dline s p := by rw [dline, rd, (portView_heard hp s).dline, ← rd, ← dline]
  simp only [endsInTime, hframe, hline]

theorem rxStamp_linkUp (t : Nat) : rxStamp (linkUp s p) p t = rxStamp s p t := by
  have hreg : ∀ f : Fld, f.addr ≠ 0x6004C + p * 0x1000 → rd (linkUp s p) f = rd s f := fun f hf => rd_wr_other _ _ _ _ hf
  have hasym : rds (linkUp s p) (Reg.TIME_ASYM_ASYM p) = rds s (Reg.TIME_ASYM_ASYM p) := by rw [rds, hreg _ (by simp only [Reg.TIME_ASYM_ASYM]; omega), ← rds]
  simp only [rxStamp, rxFix, sgmii, hp, if_true, hasym, hreg (Reg.TIME_ASYM_PHY_RX p) (by simp only [Reg.TIME_ASYM_PHY_RX]; omega),
    hreg (Reg.PORT_CTRL_SPEED p) (by simp only [Reg.PORT_CTRL_SPEED]; omega)]
  rfl

end

theorem asyncBad_linkUp {p : Nat} (s : State) (f : RxFrame) (hp : p < 24) : asyncBad (linkUp s p) f = asyncBad s f := by
  have hstate : rd (linkUp s p) Reg.LEMAC_PSTATE_STATE = rd s Reg.LEMAC_PSTATE_STATE :=
    rd_wr_other _ _ _ _ (by simp only [Reg.LEMAC_PSTATE_STATE, Reg.PORT_STAT_LINK]; omega)
  simp only [asyncBad, hstate]
  rfl

/-- A counter of the port that is neither its STAT nor RX_CNT counts one more of what is refused. -/
theorem refused_counts {p : Nat} (hp : p < 24) (s : State) {g : Fld} {o : Nat} (hg : g = ⟨0x60000 + o + p * 0x1000, 15, 0⟩) (ho : 0x5C < o ∧ o < 0x1000) :
    (RegsWire s (incErr (linkUp s p) g) ∧ rd (incErr (linkUp s p) g) g = min 65535 (rd s g + 1)) ∧
    (RegsWire s (incErr (heard s p) g) ∧ rd (incErr (heard s p) g) g = min 65535 (rd s g + 1)) := by
  subst hg
  have haside : ∀ q, Aside q (0x60000 + o + p * 0x1000) := portReg_aside hp (by omega) ho.2
  have hlinked : rd (linkUp s p) ⟨0x60000 + o + p * 0x1000, 15, 0⟩ = rd s ⟨0x60000 + o + p * 0x1000, 15, 0⟩ :=
    rd_wr_other _ _ _ _ (by simp only [Reg.PORT_STAT_LINK]; omega)
  have hheard : rd (heard s p) ⟨0x60000 + o + p * 0x1000, 15, 0⟩ = rd s ⟨0x60000 + o + p * 0x1000, 15, 0⟩ := by
    rw [rd, rdw_heard (k := 0x60000 + o + p * 0x1000) s (by omega) (by omega) (by omega) (by omega), ← rd]
  have hself : ∀ u : State, rd (incErr u ⟨0x60000 + o + p * 0x1000, 15, 0⟩) ⟨0x60000 + o + p * 0x1000, 15, 0⟩ =
      min 65535 (rd u ⟨0x60000 + o + p * 0x1000, 15, 0⟩ + 1) := fun u => rd_incErr_self u (haside _) (Nat.zero_le _) (by decide : 15 < 32)
  exact ⟨⟨(RegsWire.wr s _ _).trans (incErr_shape _ _), by rw [hself, hlinked]⟩, ⟨(heard_shape s).trans (incErr_shape _ _), by rw [hself, hheard]⟩⟩

section
variable {f : RxFrame} {s : State} {p : Nat} (hp : p = f.port.val)
include hp

/-- A frame that starts in an asynchronous window and is no longer than allowed. -/
theorem rxAsync_inside (hlive : portLive s p = true) (hin : (asyncAt s p f.start).isSome = true) (hlen : f.bytes.length ≤ 1514) (cut : Bool) (g : State → State) :
    rxAsync s f cut g = if (!cut && !f.fcs) = true then incErr (linkUp s p) (Reg.PORT_CRC_ERR_COUNT p) else g (linkUp s p) := by
  have hp24 : p < 24 := hp ▸ f.port.isLt
  have hwin := (portView_linkUp hp24 s).asyncAt f.start
  subst hp
  have hnot : (asyncAt s f.port.val f.start).isNone = false := by
    cases h : asyncAt s f.port.val f.start with
    | none => rw [h] at hin; exact absurd hin (by decide)
    | some x => rfl
  unfold rxAsync
  simp only [hlive, if_true, hwin, hnot, Bool.false_eq_true, if_false, Nat.not_lt.mpr hlen]

/-- A frame whose port has no receive ring is dropped. -/
theorem toRing_full (hfull : ringOn s (ringOf s p false) = false) (cut : Bool) : toRing (linkUp s p) f cut = incErr (heard s p) (Reg.PORT_ADROP_ERR_COUNT p) := by
  have hv := ringView_heard (hp ▸ f.port.isLt) s
  subst hp
  have hnone : ∀ ns frac, ringPut (heard s f.port.val) f.port.val f.bytes ns frac cut = none := fun ns frac =>
    ringPut_full (by rw [hv.ring, hv.ringOn, hfull]) _ _ _ _
  unfold toRing
  dsimp only
  rw [← heard, hnone]

/-- A frame whose port's receive ring has room is stored. -/
theorem toRing_room {o : Nat} (hroom : RingRoom s p f.bytes o) (hlen : f.bytes.length ≤ 1514) (cut : Bool) :
    FrameStored s (toRing (linkUp s p) f cut) p f.bytes o (b2n cut) (rxStamp s p f.start) := by
  obtain ⟨t, hput, hstored⟩ := ringPut_room (ringView_heard (hp ▸ f.port.isLt) s) hroom hlen (rxStamp s p f.start) cut
  have hstamp := rxStamp_linkUp (hp ▸ f.port.isLt) s f.start
  subst hp
  unfold toRing
  dsimp only
  rw [← heard, hstamp, hput]
  exact hstored

end

/-! ## ASYNC_FRAME_RECEIVE -/

section
variable {f : RxFrame} {s : State} {p : Nat} (hp : p = f.port.val) (hlive : portLive s p = true) (hin : (asyncAt s p f.start).isSome = true) (hlen : f.bytes.length ≤ 1514)
include hp hlive hin hlen

theorem asyncFrame_crc (hfcs : f.fcs = false) : ∃ t, exec (.asyncFrameReceive f false) s = .next t ∧ RegsWire s t ∧
    rd t (Reg.PORT_CRC_ERR_COUNT p) = min 65535 (rd s (Reg.PORT_CRC_ERR_COUNT p) + 1) := by
  obtain ⟨⟨hshape, hcnt⟩, -⟩ := refused_counts (hp ▸ f.port.isLt) s (g := Reg.PORT_CRC_ERR_COUNT p) (o := 0x74) rfl (by decide)
  refine ⟨_, ?_, hshape, hcnt⟩
  change Host.Outcome.next (rxAsync s f false _) = _
  rw [rxAsync_inside hp hlive hin hlen, hfcs]
  rfl

/-- A frame that the FCS check lets pass, or that the guardian has cut, reaches the checks of R187. -/
theorem exec_asyncFrameReceive {cut : Bool} (hok : cut = true ∨ f.fcs = true) : exec (.asyncFrameReceive f cut) s =
    .next (if asyncBad s f then incErr (linkUp s p) (Reg.PORT_SLOT_ERR_COUNT p) else toRing (linkUp s p) f cut) := by
  change Host.Outcome.next (rxAsync s f cut _) = _
  have hpass : (!cut && !f.fcs) = false := by
    rcases hok with h | h <;> simp [h]
  rw [rxAsync_inside hp hlive hin hlen, hpass, asyncBad_linkUp s f (hp ▸ f.port.isLt), hp]
  rfl

theorem asyncFrame_checked (cut : Bool) (hok : cut = true ∨ f.fcs = true) :
    (asyncBad s f = true → ∃ t, exec (.asyncFrameReceive f cut) s = .next t ∧ RegsWire s t ∧ rd t (Reg.PORT_SLOT_ERR_COUNT p) = min 65535 (rd s (Reg.PORT_SLOT_ERR_COUNT p) + 1)) ∧
    (asyncBad s f = false → ringOn s (ringOf s p false) = false → ∃ t, exec (.asyncFrameReceive f cut) s = .next t ∧ RegsWire s t ∧
      rd t (Reg.PORT_ADROP_ERR_COUNT p) = min 65535 (rd s (Reg.PORT_ADROP_ERR_COUNT p) + 1)) ∧
    (asyncBad s f = false → ∀ o, RingRoom s p f.bytes o → ∃ t, exec (.asyncFrameReceive f cut) s = .next t ∧ FrameStored s t p f.bytes o (b2n cut) (rxStamp s p f.start)) := by
  have hp24 : p < 24 := hp ▸ f.port.isLt
  rw [exec_asyncFrameReceive hp hlive hin hlen hok]
  refine ⟨fun hbad => ?_, fun hgood hfull => ?_, fun hgood o hroom => ?_⟩
  · obtain ⟨⟨hshape, hcnt⟩, -⟩ := refused_counts hp24 s (g := Reg.PORT_SLOT_ERR_COUNT p) (o := 0x78) rfl (by decide)
    exact ⟨_, by rw [if_pos hbad], hshape, hcnt⟩
  · obtain ⟨-, hshape, hcnt⟩ := refused_counts hp24 s (g := Reg.PORT_ADROP_ERR_COUNT p) (o := 0x84) rfl (by decide)
    exact ⟨_, by rw [hgood, toRing_full hp hfull]; rfl, hshape, hcnt⟩
  · exact ⟨_, by rw [hgood]; rfl, toRing_room hp hroom hlen cut⟩

end

end Sys2Proof.Machine
end

section
/-! PROOFS. Service frames at a port: requests, answers, and what goes to the ring (R209, R210, R227, R228). -/

namespace Sys2Proof.Machine

/-! ## The bytes of an answer -/

@[simp] theorem length_beBytes (n v : Nat) : (beBytes n v).length = n := by rw [beBytes, List.length_reverse, length_leBytes]

/-- The payload of a frame of the device follows 22 bytes of addresses and header. -/
theorem drop_mkFrame (s : State) (slot cyc kind flags : Nat) (body : List Byte) : ∃ pad, (mkFrame s slot cyc kind flags body).drop 22 = body ++ pad := by
  unfold mkFrame padTo
  dsimp only
  rw [List.append_assoc]
  exact ⟨_, List.drop_left' (by simp)⟩

/-- An answer bears its head with the TAG of the request, and the receive stamp of the request. -/
theorem respFrame_bytes (s : State) (p at_ : Nat) (q : Nat × Nat) : ((respFrame s p at_ q).drop 22).take 4 = beBytes 1 3 ++ beBytes 1 q.1 ++ beBytes 2 21 ∧
    ((respFrame s p at_ q).drop 31).take 8 = beBytes 8 q.2 := by
  obtain ⟨pad, hpad⟩ := drop_mkFrame s 0xFFFE (s.sched.cycle % 2 ^ 16) 6 (farFlag s p) (tsyncBody s p q.1 q.2 (txStamp s p at_ % 2 ^ 64) ((free s).1 % 2 ^ 32))
  have h31 : (respFrame s p at_ q).drop 31 = ((respFrame s p at_ q).drop 22).drop 9 := by rw [List.drop_drop]
  rw [h31, respFrame, hpad, tsyncBody]
  generalize beBytes 4 (unsgn 32 (rds s (Reg.TIME_ASYM_ASYM p) * 4096)) = asym
  constructor
  · simp only [List.append_assoc]
    rw [← List.append_assoc (beBytes 1 3), ← List.append_assoc (beBytes 1 3 ++ _), List.take_left' (by simp), List.append_assoc]
  · rw [List.append_assoc, List.append_assoc, List.append_assoc, List.drop_left' (by simp), List.take_left' (by simp)]

/-! ## The answer to the port's own request (R227, R228) -/

theorem noteDline_effect (s : State) (p d : Nat) : RegsWire (setPort s p { port s p with dl := ((port s p).dl ++ [d]).drop (((port s p).dl ++ [d]).length - 5) }) (noteDline s p d) := rfl

/-- The answer that the port waits for ends its request, and is one of its last five measurements. -/
theorem takeAnswer_effect {s : State} {p : Nat} {b : List Byte} (h : isAnswer s p b = true) (start : Nat) : (takeAnswer s p start b).mem = s.mem ∧
    (takeAnswer s p start b).cist = s.cist ∧ (port (takeAnswer s p start b) p).asked = none ∧ (port (takeAnswer s p start b) p).dl.length ≤ 5 := by
  cases hask : (port s p).asked with
  | none =>
    rw [isAnswer, hask] at h
    exact nomatch h
  | some q =>
    unfold takeAnswer
    simp only [hask]
    generalize (tsyncDelay s p _ _ _ _ _).toNat = d
    have hshape := noteDline_effect (setPort s p { port s p with asked := none }) p d
    rw [port_setPort_self] at hshape
    refine ⟨hshape.mem, hshape.cist, ?_, ?_⟩
    · rw [port, hshape.lemac, ← port, port_setPort_self]
    · rw [port, hshape.lemac, ← port, port_setPort_self]
      simp only [List.length_drop]
      omega

/-! ## AS_RECEIVE -/

section
variable {f : RxFrame} {s : State} {p : Nat} (hp : p = f.port.val) (hlive : portLive s p = true) (hin : (asyncAt s p f.start).isSome = true) (hlen : f.bytes.length ≤ 1514)
  (hfcs : f.fcs = true) (t3 : W64)
include hp hlive hin hlen hfcs

/-- A service frame that does not pass the checks of R187 counts in SLOT_ERR. -/
theorem asReceive_refused (hbad : chkHead s f 6 (decide (rd s Reg.LEMAC_PSTATE_STATE = 3)) ≠ .ok 0) :
    ∃ t, exec (.asReceive f t3) s = .next t ∧ RegsWire s t ∧ rd t (Reg.PORT_SLOT_ERR_COUNT p) = min 65535 (rd s (Reg.PORT_SLOT_ERR_COUNT p) + 1) := by
  have hp24 : p < 24 := hp ▸ f.port.isLt
  obtain ⟨⟨hshape, hcnt⟩, -⟩ := refused_counts hp24 s (g := Reg.PORT_SLOT_ERR_COUNT p) (o := 0x78) rfl (by decide)
  have hslot : chkHead s f 6 (decide (rd s Reg.LEMAC_PSTATE_STATE = 3)) = .slotErr := by
    revert hbad
    unfold chkHead
    rw [if_neg (by simp [hfcs])]
    split
    · exact fun _ => rfl
    · split
      · exact fun _ => rfl
      · exact fun h => absurd rfl h
  have hstate : rd (linkUp s p) Reg.LEMAC_PSTATE_STATE = rd s Reg.LEMAC_PSTATE_STATE :=
    rd_wr_other _ _ _ _ (by simp only [Reg.LEMAC_PSTATE_STATE, Reg.PORT_STAT_LINK]; omega)
  refine ⟨_, ?_, hshape, hcnt⟩
  change Host.Outcome.next (rxAsync s f false _) = _
  rw [rxAsync_inside hp hlive hin hlen, if_neg (by simp [hfcs]), hstate, chkHead_linkUp, hslot, hp]
  rfl

/-- A service frame that passes the checks: a request, an answer that the port waits for, or one for the ring. -/
theorem exec_asReceive (hok : chkHead s f 6 (decide (rd s Reg.LEMAC_PSTATE_STATE = 3)) = .ok 0) : exec (.asReceive f t3) s =
    .next (if isTsync (fBody f) then answerTsync (heard s p) p (bNum (fBody f) 1 1) (rxStamp s p f.start % 2 ^ 64) t3.toNat
      else if isAnswer s p (fBody f) then takeAnswer (heard s p) p f.start (fBody f) else toRing (linkUp s p) f false) := by
  have hstate : rd (linkUp s p) Reg.LEMAC_PSTATE_STATE = rd s Reg.LEMAC_PSTATE_STATE :=
    rd_wr_other _ _ _ _ (by simp only [Reg.LEMAC_PSTATE_STATE, Reg.PORT_STAT_LINK]; omega)
  have hstamp := rxStamp_linkUp (hp ▸ f.port.isLt) s f.start
  change Host.Outcome.next (rxAsync s f false _) = _
  rw [rxAsync_inside hp hlive hin hlen, if_neg (by simp [hfcs]), hstate, chkHead_linkUp, hok]
  subst hp
  rw [← hstamp]
  rfl

section
variable (hok : chkHead s f 6 (decide (rd s Reg.LEMAC_PSTATE_STATE = 3)) = .ok 0)
include hok

section
variable (hreq : isTsync (fBody f) = true) (hmay : maySend s p = true)
include hreq hmay

theorem exec_asReceive_request {at_ : Nat} (hat : at_ = (t3.toNat + 2 ^ 64 - s.time.tb / 2 ^ 24 % 2 ^ 64) % 2 ^ 64 / 2 ^ 16) {q : Nat × Nat}
    (hq : q = (bNum (fBody f) 1 1, rxStamp s p f.start % 2 ^ 64)) : exec (.asReceive f t3) s =
    .next (if (asyncAt s p at_).isSome = true ∧ endsInTime s p at_ asFrameLen (asyncAt s p at_) = true then sendResp (heard s p) p at_ q
      else setPort (heard s p) p { port s p with resp := (port s p).resp ++ [q] }) := by
  have hp24 : p < 24 := hp ▸ f.port.isLt
  have htime : (heard s p).time = s.time := (heard_shape s).time
  rw [exec_asReceive hp hlive hin hlen hfcs t3 hok, if_pos hreq]
  unfold answerTsync
  simp only [maySend_heard hp24, hmay, Bool.not_true, Bool.false_eq_true, if_false, htime, ← hat, (portView_heard hp24 s).asyncAt, endsInTime_heard hp24, port_heard,
    Bool.and_eq_true, ← hq]

/-- A request whose answer ends in this window is answered and counted. -/
theorem asReceive_answered {at_ : Nat} (hat : at_ = (t3.toNat + 2 ^ 64 - s.time.tb / 2 ^ 24 % 2 ^ 64) % 2 ^ 64 / 2 ^ 16) {q : Nat × Nat}
    (hq : q = (bNum (fBody f) 1 1, rxStamp s p f.start % 2 ^ 64)) (hopen : (asyncAt s p at_).isSome = true) (hends : endsInTime s p at_ asFrameLen (asyncAt s p at_) = true) :
    ∃ t b, exec (.asReceive f t3) s = .next t ∧ t.mem = s.mem ∧ t.cist = s.cist ∧ rd t Reg.TIME_TSYNC_CNT_TSYNC_CNT = (rd s Reg.TIME_TSYNC_CNT_TSYNC_CNT + 1) % 2 ^ 32 ∧
      Out.frame p at_ b ∈ t.wire ∧ (b.drop 22).take 4 = beBytes 1 3 ++ beBytes 1 q.1 ++ beBytes 2 21 ∧ (b.drop 31).take 8 = beBytes 8 q.2 := by
  have hp24 : p < 24 := hp ▸ f.port.isLt
  obtain ⟨hsent, hcnt⟩ := sendResp_effect hp24 (heard s p) at_ q
  obtain ⟨hhead, hstamp⟩ := respFrame_bytes (heard s p) p at_ q
  refine ⟨_, _, ?_, hsent.mem.trans (heard_shape s).mem, hsent.cist.trans (heard_shape s).cist, ?_, hsent.sent, hhead, hstamp⟩
  · rw [exec_asReceive_request hp hlive hin hlen hfcs t3 hok hreq hmay hat hq, if_pos ⟨hopen, hends⟩]
  · rw [hcnt, rd, rdw_heard s (by decide) (by decide) (by simp only [Reg.TIME_TSYNC_CNT_TSYNC_CNT]; omega) (by simp only [Reg.TIME_TSYNC_CNT_TSYNC_CNT]; omega), ← rd]

/-- A request that cannot be answered in this window waits. -/
theorem asReceive_waits {at_ : Nat} (hat : at_ = (t3.toNat + 2 ^ 64 - s.time.tb / 2 ^ 24 % 2 ^ 64) % 2 ^ 64 / 2 ^ 16) {q : Nat × Nat}
    (hq : q = (bNum (fBody f) 1 1, rxStamp s p f.start % 2 ^ 64)) (hnot : ¬((asyncAt s p at_).isSome = true ∧ endsInTime s p at_ asFrameLen (asyncAt s p at_) = true)) :
    ∃ t, exec (.asReceive f t3) s = .next t ∧ t.mem = s.mem ∧ port t p = { port s p with resp := (port s p).resp ++ [q] } := by
  refine ⟨setPort (heard s p) p { port s p with resp := (port s p).resp ++ [q] }, ?_, (heard_shape s).mem, port_setPort_self _ _ _⟩
  rw [exec_asReceive_request hp hlive hin hlen hfcs t3 hok hreq hmay hat hq, if_neg hnot]

end

variable (hreq : isTsync (fBody f) = false)
include hreq

/-- The answer to the port's own request completes its measurement. -/
theorem asReceive_measured (hans : isAnswer s p (fBody f) = true) :
    ∃ t, exec (.asReceive f t3) s = .next t ∧ t.mem = s.mem ∧ t.cist = s.cist ∧ (port t p).asked = none ∧ (port t p).dl.length ≤ 5 := by
  have hans' : isAnswer (heard s p) p (fBody f) = true := by rw [isAnswer, port_heard, ← isAnswer, hans]
  obtain ⟨hmem, hcist, hasked, hdl⟩ := takeAnswer_effect hans' f.start
  refine ⟨_, ?_, hmem.trans (heard_shape s).mem, hcist.trans (heard_shape s).cist, hasked, hdl⟩
  rw [exec_asReceive hp hlive hin hlen hfcs t3 hok, hreq, hans]
  rfl

/-- Every other service frame goes to the ring. -/
theorem exec_asReceive_ring (hans : isAnswer s p (fBody f) = false) : exec (.asReceive f t3) s = .next (toRing (linkUp s p) f false) := by
  rw [exec_asReceive hp hlive hin hlen hfcs t3 hok, hreq, hans]
  rfl

end

/-- What AS_RECEIVE does with a service frame of right FCS. -/
theorem asReceive_effect :
    let ok := chkHead s f 6 (decide (rd s Reg.LEMAC_PSTATE_STATE = 3)) = .ok 0
    let at_ := (t3.toNat + 2 ^ 64 - s.time.tb / 2 ^ 24 % 2 ^ 64) % 2 ^ 64 / 2 ^ 16
    let q := (bNum (fBody f) 1 1, rxStamp s p f.start % 2 ^ 64)
    (¬ok → ∃ t, exec (.asReceive f t3) s = .next t ∧ RegsWire s t ∧ rd t (Reg.PORT_SLOT_ERR_COUNT p) = min 65535 (rd s (Reg.PORT_SLOT_ERR_COUNT p) + 1)) ∧
    (ok → isTsync (fBody f) = true → maySend s p = true → (asyncAt s p at_).isSome = true → endsInTime s p at_ asFrameLen (asyncAt s p at_) = true →
      ∃ t b, exec (.asReceive f t3) s = .next t ∧ t.mem = s.mem ∧ t.cist = s.cist ∧ rd t Reg.TIME_TSYNC_CNT_TSYNC_CNT = (rd s Reg.TIME_TSYNC_CNT_TSYNC_CNT + 1) % 2 ^ 32 ∧
        Out.frame p at_ b ∈ t.wire ∧ (b.drop 22).take 4 = beBytes 1 3 ++ beBytes 1 q.1 ++ beBytes 2 21 ∧ (b.drop 31).take 8 = beBytes 8 q.2) ∧
    (ok → isTsync (fBody f) = true → maySend s p = true → ¬((asyncAt s p at_).isSome = true ∧ endsInTime s p at_ asFrameLen (asyncAt s p at_) = true) →
      ∃ t, exec (.asReceive f t3) s = .next t ∧ t.mem = s.mem ∧ port t p = { port s p with resp := (port s p).resp ++ [q] }) ∧
    (ok → isTsync (fBody f) = false → isAnswer s p (fBody f) = true →
      ∃ t, exec (.asReceive f t3) s = .next t ∧ t.mem = s.mem ∧ t.cist = s.cist ∧ (port t p).asked = none ∧ (port t p).dl.length ≤ 5) ∧
    (ok → isTsync (fBody f) = false → isAnswer s p (fBody f) = false → ringOn s (ringOf s p false) = false →
      ∃ t, exec (.asReceive f t3) s = .next t ∧ RegsWire s t ∧ rd t (Reg.PORT_ADROP_ERR_COUNT p) = min 65535 (rd s (Reg.PORT_ADROP_ERR_COUNT p) + 1)) ∧
    (ok → isTsync (fBody f) = false → isAnswer s p (fBody f) = false → ∀ o, RingRoom s p f.bytes o →
      ∃ t, exec (.asReceive f t3) s = .next t ∧ FrameStored s t p f.bytes o 0 (rxStamp s p f.start)) := by
  intro ok at_ q
  refine ⟨asReceive_refused hp hlive hin hlen hfcs t3, fun hok hreq hmay => asReceive_answered hp hlive hin hlen hfcs t3 hok hreq hmay rfl rfl,
    fun hok hreq hmay => asReceive_waits hp hlive hin hlen hfcs t3 hok hreq hmay rfl rfl, fun hok => asReceive_measured hp hlive hin hlen hfcs t3 hok,
    fun hok hreq hans hfull => ?_, fun hok hreq hans o hroom => ⟨_, exec_asReceive_ring hp hlive hin hlen hfcs t3 hok hreq hans, toRing_room hp hroom hlen false⟩⟩
  obtain ⟨-, hshape, hcnt⟩ := refused_counts (hp ▸ f.port.isLt) s (g := Reg.PORT_ADROP_ERR_COUNT p) (o := 0x84) rfl (by decide)
  exact ⟨_, by rw [exec_asReceive_ring hp hlive hin hlen hfcs t3 hok hreq hans, toRing_full hp hfull], hshape, hcnt⟩

end

end Sys2Proof.Machine
end

section
/-! PROOFS. Frames of a plant port (R226, R234, R235, R327, R329), and the settled statement on set points and asynchronous traffic. -/

namespace Sys2Proof.Machine

/-! ## A frame that a plant port takes -/

/-- The plant port once it has heard a frame that it takes: its LINK is up and the frame is counted. -/
def plantHeard (s : State) (n : Nat) : State := incCnt (wr s (Reg.PLANT_STAT_LINK n) 1) (Reg.PLANT_FRAME_CNT_RX n)

/-- The stamp of a frame at a plant port (R226). -/
def plantRxStamp (s : State) (n : Nat) (f : PlantFrame) : Nat := ((f.stamp.toNat * 2 ^ 16 + f.frac.toNat : Nat) + rxFix s (24 + n)).toNat

/-- A frame that a plant port takes, in its ring or dropped. -/
def plantTaken (s : State) (n : Nat) (f : PlantFrame) : State :=
  match ringPut (plantHeard s n) (24 + n) f.bytes (plantRxStamp (plantHeard s n) n f / 2 ^ 16) (plantRxStamp (plantHeard s n) n f % 2 ^ 16) false with
  | some t => t
  | none => incErr (plantHeard s n) (Reg.PLANT_DROP_ERR_DROP_ERR n)

/-- The answer to a delay message. -/
def plantAnswered (s : State) (n : Nat) (st : Nat) (b : List Byte) : State :=
  match ptpType (ptpUdp s n) b with
  | some k =>
    if rd s (Reg.PLANT_PTPCFG_ROLE n) ≠ 0 ∧ (if is8021as s n then k = 2 else k = 1 ∧ rd s (Reg.PLANT_PTPCFG_ROLE n) = 1) then
      emit (incCnt s (Reg.PLANT_FRAME_CNT_TX n)) (.ptpDelay n k (st / 2 ^ 16) (st % 2 ^ 16) (ptpUdp s n))
    else s
  | none => s

theorem RegsWire.ite {s t u : State} {c : Prop} [Decidable c] (h : RegsWire s t) (k : RegsWire s u) : RegsWire s (if c then t else u) := by
  split
  · exact h
  · exact k

theorem plantAnswered_shape (s : State) (n : Nat) (st : Nat) (b : List Byte) : RegsWire s (plantAnswered s n st b) := by
  unfold plantAnswered
  cases ptpType (ptpUdp s n) b with
  | none => exact RegsWire.refl s
  | some k => exact RegsWire.ite ((incCnt_shape _ _).trans (RegsWire.emit _ _)) (RegsWire.refl s)

section
variable (s : State) (n : Nat)

theorem plantHeard_shape : RegsWire s (plantHeard s n) := (RegsWire.wr s _ _).trans (incCnt_shape _ _)

/-- Hearing a frame writes the plant port's STAT and its count of frames. -/
theorem rdw_plantHeard {k : Nat} (hk : 0x40 ≤ k % 0x1000) (hb : k ≠ 0xB1C00) (hstat : k ≠ 0x7B064 + n * 0x1000) (hcnt : k ≠ 0x7B070 + n * 0x1000) :
    rdw (plantHeard s n) k = rdw s k :=
  (rdw_incCnt (f := Reg.PLANT_FRAME_CNT_RX n) ⟨hb, .inl hk⟩ hcnt _).trans (rdw_wr_other _ _ _ hstat)

variable {n} (hn : n < 2)
include hn

/-- The other registers of the plant port's page read as before. -/
theorem rd_plantHeard {f : Fld} {o : Nat} (hf : f.addr = 0x7B000 + o + n * 0x1000) (ho : 0x40 ≤ o ∧ o < 0x1000 ∧ o ≠ 0x64 ∧ o ≠ 0x70) :
    rd (plantHeard s n) f = rd s f := by
  rw [rd, rdw_plantHeard s n (by omega) (by omega) (by omega) (by omega), ← rd]

theorem ringView_plantHeard : RingView (24 + n) s (plantHeard s n) where
  mem := (plantHeard_shape s n).mem
  cist := (plantHeard_shape s n).cist
  pwr := (plantHeard_shape s n).pwr
  lemac := (plantHeard_shape s n).lemac
  ring := by
    have hnot : ¬ 24 + n < 24 := by omega
    simp only [ringOf, hnot, if_false, Bool.false_eq_true, Nat.add_sub_cancel_left, rd_plantHeard s hn (f := Reg.PLANT_QRX_BLOCK n) (o := 0x6C) rfl (by decide),
      rd_plantHeard s hn (f := Reg.PLANT_QRX_NBLK n) (o := 0x6C) rfl (by decide)]

theorem plantRxStamp_heard (f : PlantFrame) : plantRxStamp (plantHeard s n) n f = plantRxStamp s n f := by
  have hnot : ¬ 24 + n < 24 := by omega
  have htime : ∀ g : Fld, g.addr = 0x7A100 + (24 + n) * 4 → rd (plantHeard s n) g = rd s g := fun g hg => by
    rw [rd, rdw_plantHeard s n (by omega) (by omega) (by omega) (by omega), ← rd]
  have hasym : rds (plantHeard s n) (Reg.TIME_ASYM_ASYM (24 + n)) = rds s (Reg.TIME_ASYM_ASYM (24 + n)) := by rw [rds, htime _ rfl, ← rds]
  simp only [plantRxStamp, rxFix, sgmii, hnot, if_false, Nat.add_sub_cancel_left, hasym, htime (Reg.TIME_ASYM_PHY_RX (24 + n)) rfl,
    rd_plantHeard s hn (f := Reg.PLANT_CFG_SPEED n) (o := 0x60) rfl (by decide)]

/-- A frame that finds room is stored. -/
theorem plantTaken_room {f : PlantFrame} {o : Nat} (hroom : RingRoom s (24 + n) f.bytes o) (hlen : f.bytes.length ≤ 1514) :
    FrameStored s (plantTaken s n f) (24 + n) f.bytes o 0 (plantRxStamp s n f) := by
  obtain ⟨t, hput, hstored⟩ := ringPut_room (ringView_plantHeard s hn) hroom hlen (plantRxStamp s n f) false
  unfold plantTaken
  rw [plantRxStamp_heard s hn, hput]
  exact hstored

/-- A frame whose ring is off is dropped and counted, among the frames heard and those dropped; what PTP goes by is as before. -/
theorem plantTaken_full {f : PlantFrame} (hfull : ringOn s (ringOf s (24 + n) false) = false) : RegsWire s (plantTaken s n f) ∧
    rd (plantTaken s n f) (Reg.PLANT_DROP_ERR_DROP_ERR n) = min 65535 (rd s (Reg.PLANT_DROP_ERR_DROP_ERR n) + 1) ∧
    rd (plantTaken s n f) (Reg.PLANT_FRAME_CNT_RX n) = (rd s (Reg.PLANT_FRAME_CNT_RX n) + 1) % 2 ^ 16 ∧ ptpUdp (plantTaken s n f) n = ptpUdp s n := by
  have hv := ringView_plantHeard s hn
  have htaken : plantTaken s n f = incErr (plantHeard s n) (Reg.PLANT_DROP_ERR_DROP_ERR n) := by
    unfold plantTaken
    rw [ringPut_full (by rw [hv.ring, hv.ringOn, hfull])]
  have haside : ∀ {o q : Nat}, 0x40 ≤ o → o < 0x1000 → Aside q (0x7B000 + o + n * 0x1000) := fun ho hlt => ⟨by omega, .inl (by omega)⟩
  have hkept : ∀ {g : Fld} {o : Nat}, g.addr = 0x7B000 + o + n * 0x1000 → 0x40 ≤ o → o < 0x1000 → o ≠ 0x74 →
      rd (incErr (plantHeard s n) (Reg.PLANT_DROP_ERR_DROP_ERR n)) g = rd (plantHeard s n) g := fun hg ho hlt hne => by
    rw [rd, rdw_incErr (hg ▸ haside ho hlt) (by rw [hg]; simp only [Reg.PLANT_DROP_ERR_DROP_ERR]; omega), ← rd]
  have hcfg : ∀ {g : Fld}, g.addr = 0x7B000 + 0x40 + n * 0x1000 → rd (incErr (plantHeard s n) (Reg.PLANT_DROP_ERR_DROP_ERR n)) g = rd s g := fun hg =>
    (hkept hg (by decide) (by decide) (by decide)).trans (rd_plantHeard s hn hg (by decide))
  rw [htaken]
  refine ⟨(plantHeard_shape s n).trans (incErr_shape _ _), ?_, ?_, ?_⟩
  · rw [rd_incErr_self _ (haside (o := 0x74) (by decide) (by decide)) (Nat.zero_le _) (by decide : 15 < 32), rd_plantHeard s hn (o := 0x74) rfl (by decide)]
    rfl
  · rw [hkept (o := 0x70) rfl (by decide) (by decide) (by decide), plantHeard,
      rd_incCnt_self (haside (o := 0x70) (by decide) (by decide)) (by decide : 16 ≤ 31) (by decide : 31 < 32),
      rd_wr_other _ _ _ _ (by simp only [Reg.PLANT_FRAME_CNT_RX, Reg.PLANT_STAT_LINK]; omega)]
    rfl
  · simp only [ptpUdp, is8021as, on, hcfg (g := Reg.PLANT_PTPCFG_PROFILE n) rfl, hcfg (g := Reg.PLANT_PTPCFG_UDP n) rfl]

end

theorem FrameStored.of_regsWire {s t u : State} {p o cut stamp : Nat} {b : List Byte} (h : FrameStored s t p b o cut stamp) (k : RegsWire t u) :
    FrameStored s u p b o cut stamp := by
  obtain ⟨hword, hns, hfrac, hbody, hframe, hpos⟩ := h
  refine ⟨?_, ?_, ?_, ?_, fun c hc => ?_, ?_⟩
  · rw [mnum_eq_of_mem k.mem, hword]
  · rw [mnum_eq_of_mem k.mem, hns]
  · rw [mnum_eq_of_mem k.mem, hfrac]
  · rw [mread_congr k.mem, hbody]
  · exact (mget_congr k.mem c).trans (hframe c hc)
  · rw [port, k.lemac, ← port, hpos]

/-! ## PLANT_FRAME_RECEIVE -/

theorem exec_plantFrameReceive_off {n : Fin 2} {f : PlantFrame} {s : State}
    (h : domOn s dLINK = false ∨ on s (Reg.PLANT_CFG_EN n) = false ∨ f.fcs = false ∨ 1514 < f.bytes.length) : exec (.plantFrameReceive n f) s = .next s := by
  change execPlantFrameReceive n f s = _
  refine congrArg Host.Outcome.next (if_neg ?_)
  simp only [Bool.and_eq_true, decide_eq_true_eq, not_and]
  rintro ⟨⟨hd, hen⟩, hfcs⟩
  rcases h with h | h | h | h
  · exact absurd (h.symm.trans hd) (by decide)
  · exact absurd (h.symm.trans hen) (by decide)
  · exact absurd (h.symm.trans hfcs) (by decide)
  · exact Nat.not_le.mpr h

section
variable {n : Fin 2} {f : PlantFrame} {s : State} (hd : domOn s dLINK = true) (hen : on s (Reg.PLANT_CFG_EN n) = true) (hfcs : f.fcs = true) (hlen : f.bytes.length ≤ 1514)
include hd hen hfcs hlen

theorem exec_plantFrameReceive : exec (.plantFrameReceive n f) s =
    .next (plantAnswered (plantTaken s n f) n (plantRxStamp (plantHeard s n) n f) f.bytes) := by
  change execPlantFrameReceive n f s = _
  refine congrArg Host.Outcome.next ((if_pos ?_).trans rfl)
  simp [hd, hen, hfcs, hlen]

theorem plantFrame_dropped (hptp : ptpType (ptpUdp s n) f.bytes = none) (hfull : ringOn s (ringOf s (24 + n) false) = false) :
    ∃ t, exec (.plantFrameReceive n f) s = .next t ∧ RegsWire s t ∧ rd t (Reg.PLANT_DROP_ERR_DROP_ERR n) = min 65535 (rd s (Reg.PLANT_DROP_ERR_DROP_ERR n) + 1) ∧
      rd t (Reg.PLANT_FRAME_CNT_RX n) = (rd s (Reg.PLANT_FRAME_CNT_RX n) + 1) % 2 ^ 16 := by
  obtain ⟨hshape, hdrop, hcnt, hudp⟩ := plantTaken_full s n.isLt (f := f) hfull
  refine ⟨plantTaken s n f, ?_, hshape, hdrop, hcnt⟩
  rw [exec_plantFrameReceive hd hen hfcs hlen, plantAnswered, hudp, hptp]

theorem plantFrame_stored {o : Nat} (hroom : RingRoom s (24 + n) f.bytes o) :
    ∃ t, exec (.plantFrameReceive n f) s = .next t ∧ FrameStored s t (24 + n) f.bytes o 0 (plantRxStamp s n f) :=
  ⟨_, exec_plantFrameReceive hd hen hfcs hlen, (plantTaken_room s n.isLt hroom hlen).of_regsWire (plantAnswered_shape _ _ _ _)⟩

end

/-! ## The settled statement -/

/-- Settles O42: set points and asynchronous traffic, clause by clause. -/
theorem setPointsAndAsynchronousTraffic : Obligations.SetPointsAndAsynchronousTraffic := by
  unfold Obligations.SetPointsAndAsynchronousTraffic
  intro room stored
  refine ⟨fun p k e s hent hk hd hspn hsafe hmay hline => spLaunch_one hent hk hd hspn hsafe hmay hline, fun p k e s hent hk hd => spLaunch_all hent hk hd,
    fun f s hlive hchk => spReceive_effect hlive hchk, fun p k e s hent hk hd hmay hidle => ⟨?_, ?_, ?_, ?_⟩,
    fun p stamp frac cut r s htx hd hwin hsent hwrap => ?_, fun p n b l s hmay hd hidle hhead => ?_, fun f s p hp hlive hin hlen => ⟨?_, ?_, ?_⟩, fun n f s => ⟨?_, ?_, ?_⟩⟩
  · exact fun q hempty hresp hask hends => asyncWindow_answer hent hk hd hmay rfl hempty hresp hask hends
  · exact fun hempty hresp hask hfar hends => asyncWindow_ask hent hk hd hmay rfl hempty hresp hask hfar hends
  · exact fun hempty hresp hask => asyncWindow_idle hent hk hd rfl hempty hresp hask
  · exact fun n b hresp hask hhead href hends => asyncWindow_record hent hk hd hmay rfl hresp hask hidle hhead href hends
  · obtain ⟨t, ht, hport, hmem⟩ := txRecordComplete_effect htx hd hwin hsent hwrap
    exact ⟨t, ht, hport, fun _ => hmem⟩
  · obtain ⟨t, ht, hmem, herr, hrec⟩ := timedLaunch_passed hmay hd hidle hhead
    exact ⟨t, ht, hmem, herr, hrec, fun at_ win hat hwin hopen hends href => timedLaunch_sent hmay hd hidle hhead hat hwin hopen hends href⟩
  · exact asyncFrame_crc hp hlive hin hlen
  · exact asyncFrame_checked hp hlive hin hlen
  · exact fun t3 hfcs => asReceive_effect hp hlive hin hlen hfcs t3
  · exact exec_plantFrameReceive_off
  · exact fun hd hen hfcs hlen hptp hfull => plantFrame_dropped hd hen hfcs hlen hptp hfull
  · exact fun hd hen hfcs hlen o hroom => plantFrame_stored hd hen hfcs hlen hroom

end Sys2Proof.Machine
end

section
/-! PROOFS. The word operations of the C slot (R70, R80, R88, R97, R108). -/

namespace Sys2Proof.Machine

/-! ## Writes of D registers (R88) -/

/-- A register takes its value modulo 2^32. -/
theorem setD_congr {r : LeRegs} {d : Fin 32} {v w : Int} (h : BitVec.ofInt 32 v = BitVec.ofInt 32 w) : setD r d v = setD r d w := by
  rw [setD, h, setD]

/-- The bits of a word, read without and with a sign, are the same word. -/
theorem setD_toNat (r : LeRegs) (d : Fin 32) (w : W32) : setD r d w.toNat = setD r d w.toInt :=
  setD_congr (by rw [BitVec.ofInt_natCast, BitVec.ofNat_toNat, BitVec.setWidth_eq, BitVec.ofInt_toInt])

/-- The complement of a word is its negative less one. -/
theorem setD_not (r : LeRegs) (d : Fin 32) (w : W32) : setD r d (~~~w).toNat = setD r d (-w.toInt - 1) := by
  rw [setD_toNat]
  refine setD_congr ?_
  rw [BitVec.ofInt_toInt, BitVec.not_eq_neg_add, Int.sub_eq_add_neg, BitVec.ofInt_add, BitVec.ofInt_neg, BitVec.ofInt_toInt, BitVec.ofInt_neg]
  exact BitVec.sub_eq_add_neg _ _

section
variable {s : State} {e : Fin 64} {x : Engine} (hrun : (eng s e).ph = .running) (hx : openBundle (eng s e) = x) (last : Bool) {d : Fin 32}
  (hdup : hasDup (x.wrote ++ [wC, wD d]) = false) {i : Instr} {w : Engine → Int} {v : Int}
include hrun hx hdup

/-- An operation that puts a value into Dd and touches no flag. -/
theorem exec_word (hi : exec i s = .next (dOp s e last d w)) (hv : w x = v) :
    exec i s = .next (slotEnd last e (setEng s e { x with r := setD x.r d v, wrote := x.wrote ++ [wC, wD d] })) := by
  subst hv
  exact hi.trans (congrArg _ (slotOp_writes_regs hrun hx last rfl hdup))

theorem exec_not {a : Fin 32} : exec (.not e d a last) s =
    .next (slotEnd last e (setEng s e { x with r := setD x.r d (-dI x.snap a - 1), wrote := x.wrote ++ [wC, wD d] })) := by
  rw [dI, ← setD_not]
  exact exec_word hrun hx last hdup rfl rfl

/-- An operation whose value is cut to 32 bits, with V where that changes it. -/
theorem exec_word_wide (hi : exec i s = .next (dOp s e last d w (fun y r => setCc r ccV (ovf 32 (w y))))) (hv : w x = v) :
    exec i s = .next (slotEnd last e (setEng s e { x with
      r := setCc (setD x.r d v) ccV (decide (v < -2 ^ 31 ∨ 2 ^ 31 ≤ v)), wrote := x.wrote ++ [wC, wD d] })) := by
  subst hv
  rw [← ovf32]
  exact hi.trans (congrArg _ (slotOp_writes_regs hrun hx last rfl hdup))

/-- An operation whose value is saturated to 24 bits, with SAT where that changes it. -/
theorem exec_word_clamped (hi : exec i s = .next (dOp s e last d (fun y => (sat24 (w y)).1) (fun y r => stick r ccSAT (sat24 (w y)).2))) (hv : w x = v) :
    exec i s = .next (slotEnd last e (setEng s e { x with
      r := stick (setD x.r d (max (-2 ^ 23) (min (2 ^ 23 - 1) v))) ccSAT (decide (v < -2 ^ 23 ∨ 2 ^ 23 ≤ v)), wrote := x.wrote ++ [wC, wD d] })) := by
  subst hv
  have h := hi.trans (congrArg _ (slotOp_writes_regs hrun hx last rfl hdup))
  simpa only [sat24_eq_clamp] using h

end

/-- Settles O31: each operation by what it does with its value (plain, cut to 32 bits with V, saturated with SAT), and CMP and CLRCC. -/
theorem wordOperations : Obligations.WordOperations := by
  unfold Obligations.WordOperations
  intro s e last d a b k hrun x fin A B put wide clamped
  have hx : openBundle (eng s e) = x := rfl
  have habs : (A.natAbs : Int) = if A < 0 then -A else A := by split <;> omega
  refine ⟨fun hdup => ?_, fun hdup => ⟨?_, ?_⟩⟩
  · have plain := @exec_word s e x hrun hx last d hdup
    have cut := @exec_word_wide s e x hrun hx last d hdup
    have clamp := @exec_word_clamped s e x hrun hx last d hdup
    simp only [List.forall_mem_cons, List.not_mem_nil, false_implies, implies_true, and_true]
    exact ⟨cut rfl rfl, cut rfl rfl, clamp rfl rfl, clamp rfl rfl, plain rfl rfl, plain rfl rfl, plain rfl rfl, plain rfl rfl, plain rfl rfl,
      plain rfl rfl, cut rfl rfl, plain rfl rfl, plain rfl rfl, cut rfl rfl, cut rfl habs, clamp rfl rfl, exec_not hrun hx last hdup, plain rfl rfl,
      plain rfl rfl, plain rfl rfl, plain rfl rfl⟩
  · exact congrArg _ (slotOp_writes_regs hrun hx last rfl hdup)
  · exact congrArg _ (slotOp_writes_regs hrun hx last rfl hdup)

end Sys2Proof.Machine
end

section
/-! PROOFS. The 64-bit operations of the C slot and GDIV (R80, R88, R98). -/

namespace Sys2Proof.Machine

theorem ovf64 (v : Int) : ovf 64 v = decide (v < -2 ^ 63 ∨ 2 ^ 63 ≤ v) := by simp [ovf]

/-! ## G registers in 5-bit fields (R80) -/

/-- A G register named in a 5-bit field. -/
theorem gNum_of_eq {g : Fin 16} {d : Fin 32} (h : g.val = d.val) : gNum d = g := Fin.ext (by simp only [gNum]; omega)

theorem gBad_low (a : Fin 16) (h : a.val < 32) : gBad ⟨a.val, h⟩ = false := decide_eq_false (Nat.not_lt.mpr (Nat.le_of_lt_succ a.isLt))

theorem gBad_high {a : Fin 32} (h : 15 < a.val) : gBad a = true := decide_eq_true h

/-! ## GDIV (R98) -/

/-- The quotient and the remainder of GDIV, for a divisor of 0 too. -/
theorem gdivOf_spec (a b : Int) : (b ≠ 0 → a = (gdivOf a b).1 * b + (gdivOf a b).2 ∧ 0 ≤ (gdivOf a b).2 ∧ (gdivOf a b).2 < |b|) ∧
    (b = 0 → (gdivOf a b).1 = 0 ∧ (gdivOf a b).2 = a) := by
  refine ⟨fun hb => ?_, fun hb => ?_⟩
  · rw [gdivOf, if_neg hb]
    exact ⟨(Int.ediv_mul_add_emod a b).symm, Int.emod_nonneg a hb, Int.emod_lt_abs a hb⟩
  · rw [gdivOf, if_pos hb]
    exact ⟨rfl, rfl⟩

section
variable {s : State} {e : Fin 64} {x : Engine} (hrun : (eng s e).ph = .running) (hx : openBundle (eng s e) = x) (last : Bool) {d : Fin 16}
include hrun hx

/-- An operation in a form that R80 makes illegal. -/
theorem exec_refused {i : Instr} {op : Engine → Eff} {c : Bool} {f : Eff} (hi : exec i s = .next (slotOp s e last op)) (hop : op x = .unless c x.r f) (hc : c = true) :
    exec i s = .next (engineFault (setEng s e { x with issued := x.issued + 1 }) e x.task x.snap.pc .illegal) :=
  hi.trans (congrArg _ (slotOp_absent hrun hx last hop hc))

/-! ## Writes of G registers (R88) -/

section
variable (hdup : hasDup (x.wrote ++ [wC, wG d]) = false) {i : Instr} {bad : Bool} {d' : Fin 16} {w : Engine → Int} {v : Int} (hbad : bad = false) (hd : d' = d)
include hdup hbad hd

/-- An operation that puts a value into Gd and touches no flag. -/
theorem exec_wide (hi : exec i s = .next (gOp s e last bad d' w)) (hv : w x = v) :
    exec i s = .next (slotEnd last e (setEng s e { x with r := setG x.r d v, wrote := x.wrote ++ [wC, wG d] })) := by
  subst hbad hd hv
  exact hi.trans (congrArg _ (slotOp_writes_regs hrun hx last rfl hdup))

/-- An operation whose value is cut to 64 bits, with V where that changes it. -/
theorem exec_wide_cut (hi : exec i s = .next (gOp s e last bad d' w (fun y r => setCc r ccV (ovf 64 (w y))))) (hv : w x = v) :
    exec i s = .next (slotEnd last e (setEng s e { x with
      r := setCc (setG x.r d v) ccV (decide (v < -2 ^ 63 ∨ 2 ^ 63 ≤ v)), wrote := x.wrote ++ [wC, wG d] })) := by
  subst hbad hd hv
  rw [← ovf64]
  exact hi.trans (congrArg _ (slotOp_writes_regs hrun hx last rfl hdup))

end

theorem exec_gcmp {a : Fin 16} {d5 a5 : Fin 32} (hd : gBad d5 = false ∧ gNum d5 = d) (ha : gBad a5 = false ∧ gNum a5 = a) (hdup : hasDup (x.wrote ++ [wC]) = false) :
    exec (.gcmp e d5 a5 last) s = .next (slotEnd last e (setEng s e { x with r := cmpCc x.r (gI x.snap d) (gI x.snap a), wrote := x.wrote ++ [wC] })) := by
  refine congrArg _ (slotOp_writes_regs hrun hx last ?_ hdup)
  rw [hd.1, hd.2, ha.1, ha.2]
  rfl

/-- GDIV into an even pair of G registers. -/
theorem exec_gdiv {a d1 : Fin 16} {b : Fin 32} (heven : d.val % 2 = 0) (hd1 : d1.val = d.val + 1) (hdup : hasDup (x.wrote ++ [wC, wG d, wG d1]) = false)
    {q r : Int} (hq : gdivOf (gI x.snap a) (dI x.snap b) = (q, r)) :
    exec (.gdiv e d a b last) s = .next (slotEnd last e (setEng s e { x with
      r := stick (setCc (setG (setG x.r d q) d1 r) ccV (decide (q < -2 ^ 63 ∨ 2 ^ 63 ≤ q))) ccINV (decide (dI x.snap b = 0)), wrote := x.wrote ++ [wC, wG d, wG d1] })) := by
  obtain rfl : Fin.ofNat 16 (d.val + 1) = d1 := Fin.ext (by rw [Fin.val_ofNat, ← hd1, Nat.mod_eq_of_lt d1.isLt])
  refine congrArg _ (slotOp_writes_regs hrun hx last ?_ hdup)
  rw [hq, ← ovf64, heven]
  rfl

theorem exec_gdiv_odd {a : Fin 16} {b : Fin 32} (hodd : d.val % 2 = 1) :
    exec (.gdiv e d a b last) s = .next (engineFault (setEng s e { x with issued := x.issued + 1 }) e x.task x.snap.pc .illegal) :=
  exec_refused hrun hx last rfl rfl (by rw [hodd]; rfl)

end

/-- Settles O32: each operation by what it does with its value, GCMP and GDIV, and the forms that R80 makes illegal. -/
theorem wideOperations : Obligations.WideOperations := by
  unfold Obligations.WideOperations
  intro s e last d a b D A5 n dir hrun x fin A B W wide d5 a5
  have hx : openBundle (eng s e) = x := rfl
  have hd : gNum d5 = d := gNum_of_eq rfl
  have ha : gNum a5 = a := gNum_of_eq rfl
  have hd5 : gBad d5 = false := gBad_low d _
  have ha5 : gBad a5 = false := gBad_low a _
  have hda : (gBad d5 || gBad a5) = false := by rw [hd5, ha5]; rfl
  refine ⟨fun hdup => ?_, fun hdup => ⟨?_, ?_⟩, fun hdup => exec_gcmp hrun hx last ⟨hd5, hd⟩ ⟨ha5, ha⟩ hdup,
    fun heven d1 hd1 hdup => ?_, fun hbad => ?_, fun hodd => exec_gdiv_odd hrun hx last hodd⟩
  · have plain := fun {i bad d'} => @exec_wide s e x hrun hx last d hdup i bad d'
    have cut := fun {i bad d'} => @exec_wide_cut s e x hrun hx last d hdup i bad d'
    simp only [List.forall_mem_cons, List.not_mem_nil, false_implies, implies_true, and_true]
    exact ⟨cut rfl rfl rfl rfl, cut rfl rfl rfl rfl, plain hda hd rfl (congrArg (gI x.snap) ha), cut hda hd rfl (congrArg (-gI x.snap ·) ha), plain hd5 hd rfl rfl,
      plain hd5 hd rfl (congrArg (fun c : Fin 16 => W * 2 ^ 32 + (x.snap.g[c].toNat % 2 ^ 32 : Nat)) hd), plain hd5 hd rfl rfl, plain rfl rfl rfl rfl, cut rfl rfl rfl rfl⟩
  · exact (congrArg _ (dgOp_reads hrun hx last ha5 hdup)).trans (by rw [ha]; rfl)
  · exact (congrArg _ (dgOp_reads hrun hx last ha5 hdup)).trans (by rw [ha]; rfl)
  · obtain ⟨hdiv, hzero⟩ := gdivOf_spec A W
    exact ⟨(gdivOf A W).1, (gdivOf A W).2, hdiv, hzero, exec_gdiv hrun hx last heven hd1 hdup rfl⟩
  · have hA5 := gBad_high hbad
    have hleft : ∀ c, (gBad A5 || c) = true := fun c => by rw [hA5, Bool.true_or]
    have hright : ∀ c, (c || gBad A5) = true := fun c => by rw [hA5, Bool.or_true]
    have refused := fun {i op c f} => @exec_refused s e x hrun hx last i op c f
    simp only [List.forall_mem_cons, List.not_mem_nil, false_implies, implies_true, and_true]
    exact ⟨refused rfl rfl (hright _), refused rfl rfl (hleft _), refused rfl rfl (hleft _), refused rfl rfl (hright _), refused rfl rfl hA5, refused rfl rfl hA5, refused rfl rfl hA5,
      refused rfl rfl hA5, refused rfl rfl hA5⟩

end Sys2Proof.Machine
end

section
/-! PROOFS. What a register or a flag of a loop engine reads after a write (R69, R70, R89). -/

namespace Sys2Proof.Machine

/-- An element of a vector after one of its elements is set. -/
theorem getElem_set_fin {α : Type} {n : Nat} (v : Vector α n) (i j : Fin n) (a : α) : (v.set i a)[j] = if i = j then a else v[j] := by
  rw [Fin.getElem_fin, Vector.getElem_set]
  simp [Fin.ext_iff]

/-! ## Flags (R70) -/

/-- A flag that is set or cleared reads so, and the others read as before. -/
theorem cc_setCc (r : LeRegs) (i j : Nat) (b : Bool) (hj : j < 7) : cc (setCc r i b) j = if j = i then b else cc r j := by
  have hbit : ∀ n, n.testBit j = bitOf j n := fun n => by rw [Nat.testBit_eq_decide_div_mod_eq, bitOf, beq_eq_decide]
  have h := bitOf_putBit i j r.cc.toNat b
  rw [← hbit, ← hbit] at h
  rw [cc, setCc, BitVec.getLsbD_ofNat, h, decide_eq_true hj, Bool.true_and]
  rfl

/-- A sticky flag that is raised stands, and the others read as before. -/
theorem cc_stick (r : LeRegs) (i j : Nat) (b : Bool) (hj : j < 7) : cc (stick r i b) j = if j = i then (cc r j || b) else cc r j := by
  cases b
  · simp [stick]
  · rw [stick, if_pos rfl, cc_setCc r i j true hj, Bool.or_true]

/-- A sticky flag that is raised changes no register. -/
theorem stick_eq (r : LeRegs) (i : Nat) (b : Bool) : stick r i b = { r with cc := (stick r i b).cc } := by
  cases b <;> rfl

section
variable (r : LeRegs) (i : Nat) (b : Bool)

@[simp] theorem stick_d : (stick r i b).d = r.d := by rw [stick_eq]
@[simp] theorem stick_ac : (stick r i b).ac = r.ac := by rw [stick_eq]
@[simp] theorem stick_ex : (stick r i b).ex = r.ex := by rw [stick_eq]
@[simp] theorem stick_g : (stick r i b).g = r.g := by rw [stick_eq]
@[simp] theorem stick_p : (stick r i b).p = r.p := by rw [stick_eq]
@[simp] theorem stick_lc : (stick r i b).lc = r.lc := by rw [stick_eq]
@[simp] theorem stick_pc : (stick r i b).pc = r.pc := by rw [stick_eq]
@[simp] theorem stick_stack : (stick r i b).stack = r.stack := by rw [stick_eq]

end

/-! ## D and exponent registers -/

/-- The D registers `is` take the values `v`. -/
def putWords (r : LeRegs) (is : List (Fin 32)) (v : Fin 32 → Int) : LeRegs := is.foldl (fun r i => setD r i (v i)) r

/-- Putting words changes D registers only. -/
theorem putWords_eq (r : LeRegs) (is : List (Fin 32)) (v : Fin 32 → Int) : putWords r is v = { r with d := (putWords r is v).d } := by
  induction is generalizing r with
  | nil => rfl
  | cons i is ih => exact ih (setD r i (v i))

/-- A register that words are put into holds its own, and every other register what it held. -/
theorem putWords_d (r : LeRegs) (is : List (Fin 32)) (v : Fin 32 → Int) (q : Fin 32) :
    (putWords r is v).d[q] = if q ∈ is then BitVec.ofInt 32 (v q) else r.d[q] := by
  induction is generalizing r with
  | nil => rfl
  | cons i is ih =>
    rw [putWords, List.foldl_cons, ← putWords, ih, setD, getElem_set_fin]
    by_cases hmem : q ∈ is
    · simp [hmem]
    · by_cases hi : i = q
      · simp [hi]
      · simp [hmem, hi, Ne.symm hi]

/-- An exponent in range reads as it was put. -/
theorem setEx_toInt (r : LeRegs) (k : Fin 8) {v : Int} (hlo : -128 ≤ v) (hhi : v ≤ 127) : (setEx r k v).ex[k].toInt = v := by
  rw [setEx, getElem_set_fin, if_pos rfl, BitVec.toInt_ofInt_eq_self (by decide) (by omega) (by omega)]

/-! ## Saturation (R89) -/

/-- Saturation to the words from −n to n − 1. -/
theorem sat_signed {n : Int} (hn : 0 < n) (v : Int) : sat (-n) (n - 1) v = (max (-n) (min (n - 1) v), decide (v < -n ∨ n ≤ v)) := by
  rw [sat_eq_clamp (by omega)]
  refine Prod.ext rfl (decide_eq_decide.mpr ?_)
  omega

end Sys2Proof.Machine
end

section
/-! PROOFS. Rounding and the normalising shift (R89, R93, R95). -/

namespace Sys2Proof.Machine

/-! ## Rounding (R89) -/

/-- Rounding does not fall below an integer that the exact quotient reaches. -/
theorem le_rnd {x n : Int} {s : Nat} (h : n * 2 ^ s ≤ x) : n ≤ rnd x s := by
  have hq : n ≤ x / 2 ^ s := Int.le_ediv_of_mul_le (by positivity) h
  unfold rnd
  split
  · next hs => simpa [hs] using h
  · dsimp only
    split <;> omega

/-- Rounding does not rise above an integer that the exact quotient does not pass. -/
theorem rnd_le {x n : Int} {s : Nat} (h : x ≤ n * 2 ^ s) : rnd x s ≤ n := by
  have hpos : (0 : Int) < 2 ^ s := by positivity
  have hhalf : (0 : Int) < 2 ^ (s - 1) := by positivity
  have hq : x / 2 ^ s ≤ n := by
    have := Int.ediv_le_ediv hpos h
    rwa [Int.mul_ediv_cancel n hpos.ne'] at this
  unfold rnd
  split
  · next hs => simpa [hs] using h
  · dsimp only
    split
    · next hup =>
      -- a quotient that is rounded up leaves a remainder, so that it is not `n` itself
      have hne : x / 2 ^ s ≠ n := fun hn => by
        rw [hn] at hup
        omega
      omega
    · exact hq

theorem natAbs_rnd_le {x : Int} {n s : Nat} (h : x.natAbs ≤ n * 2 ^ s) : (rnd x s).natAbs ≤ n := by
  have h' : (x.natAbs : Int) ≤ n * 2 ^ s := by exact_mod_cast h
  have hlo : -(n : Int) ≤ rnd x s := le_rnd (by rw [Int.neg_mul]; omega)
  have hhi : rnd x s ≤ n := rnd_le (by omega)
  omega

theorem le_natAbs_rnd {x : Int} {n s : Nat} (h : n * 2 ^ s ≤ x.natAbs) : n ≤ (rnd x s).natAbs := by
  have h' : (n : Int) * 2 ^ s ≤ x.natAbs := by exact_mod_cast h
  rcases le_total 0 x with hx | hx
  · have := le_rnd (x := x) (n := n) (s := s) (by omega)
    omega
  · have := rnd_le (x := x) (n := -n) (s := s) (by rw [Int.neg_mul]; omega)
    omega

/-! ## The normalising shift (R93) -/

/-- Every word fits in 24 bits, and its negative too, after a shift by `k`. -/
def Fits (ws : List Int) (k : Int) : Prop := ∀ w ∈ ws, (shiftRnd w k).natAbs ≤ 2 ^ 23 - 1

/-- The shift that is chosen among those from −9 to n − 9. -/
theorem normShift_spec {ws : List Int} (hlow : Fits ws (-9)) (n : Nat) :
    -9 ≤ normShift ws n ∧ normShift ws n ≤ n - 9 ∧ Fits ws (normShift ws n) ∧ ∀ k, normShift ws n < k → k ≤ n - 9 → ¬Fits ws k := by
  induction n with
  | zero => exact ⟨by rw [normShift], by rw [normShift]; rfl, hlow, fun k hk hle => by rw [normShift] at hk; omega⟩
  | succ n ih =>
    obtain ⟨hge, hle, hfits, hmax⟩ := ih
    have hall : (ws.all fun w => (shiftRnd w ((n : Int) - 8)).natAbs ≤ 2 ^ 23 - 1) = true ↔ Fits ws ((n : Int) - 8) := by simp [Fits]
    rw [normShift]
    split
    · next h => exact ⟨by omega, by omega, hall.mp h, fun k hk hle => by omega⟩
    · next h =>
      refine ⟨hge, by omega, hfits, fun k hk hle' => ?_⟩
      rcases eq_or_ne k (n - 8) with rfl | hne
      · exact fun hk => h (hall.mpr hk)
      · exact hmax k hk (by omega)

/-- Words of 32 bits fit after a shift by −9. -/
theorem fits_low {ws : List Int} (h : ∀ w ∈ ws, w.natAbs ≤ 2 ^ 31) : Fits ws (-9) := fun w hw =>
  (natAbs_rnd_le (n := 2 ^ 22) (s := 9) (h w hw)).trans (by decide)

/-- The normalising shift of words of 32 bits is the largest from −9 to 22 after which they fit. -/
theorem normK_spec {ws : List Int} (h : ∀ w ∈ ws, w.natAbs ≤ 2 ^ 31) :
    -9 ≤ normK ws ∧ normK ws ≤ 22 ∧ Fits ws (normK ws) ∧ ∀ k, normK ws < k → k ≤ 22 → ¬Fits ws k :=
  normShift_spec (fits_low h) 31

/-! ## A number as a word and an exponent (R95) -/

/-- The bit length of a number other than 0. -/
theorem bitLen_spec {n : Nat} (h : n ≠ 0) : 0 < bitLen n ∧ 2 ^ (bitLen n - 1) ≤ n ∧ n < 2 ^ bitLen n := by
  rw [bitLen, if_neg h, Nat.add_sub_cancel]
  exact ⟨Nat.succ_pos _, Nat.log2_self_le h, Nat.lt_log2_self⟩

/-- The mantissa of a number other than 0 has 23 bits, or is 2^23 where it was rounded up. -/
theorem mantissa_bounds {g : Int} (h : g ≠ 0) :
    2 ^ 22 ≤ (shiftRnd g (23 - (bitLen g.natAbs : Int))).natAbs ∧ (shiftRnd g (23 - (bitLen g.natAbs : Int))).natAbs ≤ 2 ^ 23 := by
  obtain ⟨hpos, hlo, hhi⟩ := bitLen_spec (Int.natAbs_ne_zero.mpr h)
  generalize bitLen g.natAbs = b at hpos hlo hhi
  unfold shiftRnd
  split
  · next hb =>
    -- the word is shifted left, exactly
    have hle : b ≤ 23 := by omega
    have ht : ((23 : Int) - b).toNat = 23 - b := by omega
    rw [ht, Int.natAbs_mul, Int.natAbs_pow]
    refine ⟨?_, ?_⟩
    · have := Nat.mul_le_mul_right (2 ^ (23 - b)) hlo
      rwa [← Nat.pow_add, show b - 1 + (23 - b) = 22 by omega] at this
    · have := Nat.mul_le_mul_right (2 ^ (23 - b)) hhi.le
      rwa [← Nat.pow_add, show b + (23 - b) = 23 by omega] at this
  · next hb =>
    obtain ⟨t, rfl⟩ : ∃ t, b = 23 + t := ⟨b - 23, by omega⟩
    have ht : (-(23 - ((23 + t : Nat) : Int))).toNat = t := by omega
    rw [ht]
    refine ⟨le_natAbs_rnd ?_, natAbs_rnd_le ?_⟩
    · rwa [← Nat.pow_add, show 22 + t = 23 + t - 1 by omega]
    · rw [← Nat.pow_add]
      exact hhi.le

/-- A mantissa and its exponent after the carry of a mantissa that was rounded up to 2^23. -/
def carried (m x : Int) : Int × Int := if m.natAbs = 2 ^ 23 then (m / 2, x + 1) else (m, x)

theorem carried_bounds {m : Int} (x : Int) (hlo : 2 ^ 22 ≤ m.natAbs) (hhi : m.natAbs ≤ 2 ^ 23) :
    2 ^ 22 ≤ (carried m x).1.natAbs ∧ (carried m x).1.natAbs ≤ 2 ^ 23 - 1 := by
  unfold carried
  split <;> dsimp only <;> omega

theorem toBf_nonzero {g : Int} (xs : Int) (h : g ≠ 0) : toBf g xs =
    let r := carried (shiftRnd g (23 - (bitLen g.natAbs : Int))) (xs + bitLen g.natAbs)
    if 127 < r.2 then ((if 0 < g then 2 ^ 23 - 1 else -(2 ^ 23 - 1)), 127, true) else (r.1, r.2, false) := by
  rw [toBf, if_neg h]
  rfl

/-- The word of a number other than 0 is normalised, and the exponent is at most 127. -/
theorem toBf_spec (g : Int) {xs : Int} (hxs : xs ≤ 127) : (toBf g xs).1.natAbs ≤ 2 ^ 23 - 1 ∧ (toBf g xs).2.1 ≤ 127 ∧
    (g = 0 → (toBf g xs).1 = 0 ∧ (toBf g xs).2.1 = xs) ∧ (g ≠ 0 → 2 ^ 22 ≤ (toBf g xs).1.natAbs) := by
  by_cases h : g = 0
  · simp [toBf, h, hxs]
  · obtain ⟨hlo, hhi⟩ := mantissa_bounds h
    obtain ⟨hlo, hhi⟩ := carried_bounds (xs + bitLen g.natAbs) hlo hhi
    rw [toBf_nonzero xs h]
    dsimp only
    split
    · refine ⟨?_, le_refl _, fun h0 => absurd h0 h, fun _ => ?_⟩ <;> split <;> decide
    · next hx => exact ⟨hhi, not_lt.mp hx, fun h0 => absurd h0 h, fun _ => hlo⟩

end Sys2Proof.Machine
end

section
/-! PROOFS. Exponents, normalisation, alignment, accumulator reads and conversions (R91, R93 to R97). -/

namespace Sys2Proof.Machine

/-! ## Words of the registers -/

theorem natAbs_dI (r : LeRegs) (i : Fin 32) : (dI r i).natAbs ≤ 2 ^ 31 := by
  have hlo := r.d[i].le_toInt
  have hhi := r.d[i].toInt_lt
  rw [dI]
  omega

theorem exI_le (r : LeRegs) (k : Fin 8) : exI r k ≤ 127 := Int.lt_add_one_iff.mp r.ex[k].toInt_lt

/-! ## What NORM makes of a stage (R93) -/

theorem normOf_zeros {ws : List Int} (ex : Int) (h : ∀ w ∈ ws, w = 0) : normOf ws ex = (ws, ex, false, true) :=
  if_pos (List.all_eq_true.mpr fun w hw => beq_iff_eq.mpr (h w hw))

/-- A stage whose new exponent is in range is shifted by the normalising shift. -/
theorem normOf_inside {ws : List Int} {ex : Int} (h : ∃ w ∈ ws, w ≠ 0) (hlo : -128 ≤ ex - normK ws) (hhi : ex - normK ws ≤ 127) :
    normOf ws ex = (ws.map (shiftRnd · (normK ws)), ex - normK ws, false, false) := by
  obtain ⟨w, hw, hne⟩ := h
  have hall : (ws.all fun w => w == 0) = false := List.all_eq_false.mpr ⟨w, hw, by simpa using hne⟩
  unfold normOf
  simp only [hall, Bool.false_eq_true, if_false]
  rw [if_neg (by omega), if_neg (by omega)]
  rfl

section
variable {s : State} {e : Fin 64} {x : Engine} (hrun : (eng s e).ph = .running) (hx : openBundle (eng s e) = x) (last : Bool)
include hrun hx

/-- An exponent operation: its value is saturated to 8 bits. -/
theorem exec_exponent {k : Fin 8} {i : Instr} {w : Engine → Int} {v : Int} (hdup : hasDup (x.wrote ++ [wC, wEx k]) = false)
    (hi : exec i s = .next (xOp s e last k w)) (hv : w x = v) : exec i s = .next (slotEnd last e (setEng s e { x with
      r := stick (setEx x.r k (max (-128) (min 127 v))) ccSAT (decide (v < -128 ∨ 127 < v)), wrote := x.wrote ++ [wC, wEx k] })) := by
  subst hv
  have h := hi.trans (congrArg _ (slotOp_writes_regs hrun hx last rfl hdup))
  simpa only [satX, sat_eq_clamp (by decide : (-128 : Int) ≤ 127)] using h

/-- An operation whose value is saturated to the words from −n to n − 1, with SAT where that changes it; `put` names the register. -/
theorem exec_saturated {i : Instr} {op : Engine → Eff} {n v : Int} {dst : List Nat} (put : Int → LeRegs) (hn : 0 < n) (hdup : hasDup (x.wrote ++ dst) = false)
    (hi : exec i s = .next (slotOp s e last op)) (hop : op x = .regs (stick (put (sat (-n) (n - 1) v).1) ccSAT (sat (-n) (n - 1) v).2) dst) :
    exec i s = .next (slotEnd last e (setEng s e { x with
      r := stick (put (max (-n) (min (n - 1) v))) ccSAT (decide (v < -n ∨ n ≤ v)), wrote := x.wrote ++ dst })) := by
  rw [sat_signed hn] at hop
  exact hi.trans (congrArg _ (slotOp_writes_regs hrun hx last hop hdup))

theorem exec_rda {d : Fin 32} {k : Fin 4} {sh : BitVec 5} {s24 : Bool} {n v : Int} (hdup : hasDup (x.wrote ++ [wC, wD d]) = false)
    (hn : n = if s24 = true then 2 ^ 23 else 2 ^ 31) (hv : v = rnd (acI x.snap k) (23 + sh.toInt).toNat) :
    exec (.rda e d k sh s24 last) s = .next (slotEnd last e (setEng s e { x with
      r := stick (setD x.r d (max (-n) (min (n - 1) v))) ccSAT (decide (v < -n ∨ n ≤ v)), wrote := x.wrote ++ [wC, wD d] })) := by
  subst hv
  have hpos : 0 < n := by rw [hn]; split <;> decide
  have hsat : ∀ v, (if s24 = true then sat24 v else sat32 v) = sat (-n) (n - 1) v := fun v => by rw [hn]; split <;> rfl
  refine exec_saturated hrun hx last (setD x.r d) hpos hdup rfl ?_
  rw [← hsat]

/-- NORM, by the words, the exponent and the flags that it forms. -/
theorem exec_norm {d : Fin 32} {c k : Fin 8} {is : List (Fin 32)} {v : Fin 32 → Int} {y : Int} {sa z : Bool} (hrange : d.val + c.val ≤ 31)
    (his : (List.range (c.val + 1)).map (dAt d) = is) (hdup : hasDup (x.wrote ++ (wC :: wEx k :: is.map wD)) = false)
    (hf : normOf (is.map (dI x.snap)) (exI x.snap k) = (is.map v, y, sa, z)) :
    exec (.norm e d c k last) s = .next (slotEnd last e (setEng s e { x with
      r := stick (setCc (setEx (putWords x.r is v) k y) ccZ z) ccSAT sa, wrote := x.wrote ++ (wC :: wEx k :: is.map wD) })) := by
  refine congrArg _ (slotOp_writes_regs hrun hx last ?_ hdup)
  dsimp only
  rw [his, hf, Eff.unless, decide_eq_false (Nat.not_lt.mpr hrange)]
  have hzip : is.zip (is.map v) = is.map (fun i => (i, v i)) := by
    have := List.zip_map' (f := id) (g := v) (l := is)
    rwa [List.map_id] at this
  rw [hzip, List.foldl_map]
  rfl

section
variable {d : Fin 32} {c k : Fin 8} {is : List (Fin 32)} (hrange : d.val + c.val ≤ 31) (his : (List.range (c.val + 1)).map (dAt d) = is)
  (hdup : hasDup (x.wrote ++ (wC :: wEx k :: is.map wD)) = false)
include hrange his hdup

/-- NORM of words that are all zero sets Z and leaves them. -/
theorem norm_zeros (hzero : ∀ w ∈ is.map (dI x.snap), w = 0) : ∃ t, exec (.norm e d c k last) s = .next (slotEnd last e t) ∧
    cc (eng t e).r ccZ = true ∧ ∀ q ∈ is, (eng t e).r.d[q] = 0#32 := by
  refine ⟨_, exec_norm hrun hx last hrange his hdup (normOf_zeros _ hzero), ?_, fun q hq => ?_⟩
  · rw [eng_setEng_self, cc_stick _ _ _ _ (by decide), if_neg (by decide), cc_setCc _ _ _ _ (by decide), if_pos rfl]
  · have hq0 : dI x.snap q = 0 := hzero _ (List.mem_map_of_mem hq)
    rw [eng_setEng_self, stick_d]
    exact (putWords_d _ _ _ _).trans (by rw [if_pos hq, hq0]; rfl)

/-- NORM of other words shifts them all by the normalising shift, and takes it from the exponent, where that stays in range. -/
theorem norm_shifts {ws : List Int} (hws : is.map (dI x.snap) = ws) (hne : ∃ w ∈ ws, w ≠ 0) (hlo : -128 ≤ exI x.snap k - normK ws)
    (hhi : exI x.snap k - normK ws ≤ 127) : ∃ t, exec (.norm e d c k last) s = .next (slotEnd last e t) ∧ t = setEng s e (eng t e) ∧
    (eng t e).r.ex[k].toInt = exI x.snap k - normK ws ∧ cc (eng t e).r ccZ = false ∧
    (∀ q ∈ is, (eng t e).r.d[q].toInt = shiftRnd (dI x.snap q) (normK ws)) ∧ (∀ q ∉ is, (eng t e).r.d[q] = x.r.d[q]) ∧
    (eng t e).r.ac = x.r.ac ∧ (eng t e).r.g = x.r.g ∧ (eng t e).r.p = x.r.p ∧ (eng t e).r.lc = x.r.lc ∧ (eng t e).r.pc = x.r.pc := by
  subst hws
  have hf := normOf_inside hne hlo hhi
  rw [List.map_map] at hf
  obtain ⟨-, -, hfits, -⟩ := normK_spec (ws := is.map (dI x.snap)) fun w hw => by
    obtain ⟨q, -, rfl⟩ := List.mem_map.mp hw
    exact natAbs_dI _ _
  refine ⟨_, exec_norm hrun hx last hrange his hdup hf, ?_⟩
  rw [eng_setEng_self]
  refine ⟨rfl, setEx_toInt _ _ hlo hhi, (cc_setCc _ _ _ _ (by decide)).trans (if_pos rfl), fun q hq => ?_,
    fun q hq => (putWords_d _ _ _ _).trans (if_neg hq), ?_⟩
  · have hw := hfits _ (List.mem_map_of_mem hq)
    refine (congrArg BitVec.toInt ((putWords_d _ _ _ _).trans (if_pos hq))).trans ?_
    rw [Function.comp_apply, BitVec.toInt_ofInt_eq_self (by decide) (by omega) (by omega)]
  · rw [putWords_eq]
    exact ⟨rfl, rfl, rfl, rfl, rfl⟩

end

/-- CVTF, by the word and the exponent that it forms. -/
theorem exec_cvtf {d : Fin 32} {g : Fin 16} {i k : Fin 8} {m y : Int} {sa : Bool} (hdup : hasDup (x.wrote ++ [wC, wD d, wEx k]) = false)
    (hf : toBf (gI x.snap g) (exI x.snap i) = (m, y, sa)) :
    exec (.cvtf e d g i k last) s = .next (slotEnd last e (setEng s e { x with
      r := stick (setEx (setD x.r d m) k y) ccSAT sa, wrote := x.wrote ++ [wC, wD d, wEx k] })) := by
  refine congrArg _ (slotOp_writes_regs hrun hx last ?_ hdup)
  rw [hf]

/-- B2F of 0. -/
theorem exec_b2f_zero {d a : Fin 32} {k : Fin 8} (hdup : hasDup (x.wrote ++ [wC, wD d]) = false) (h : dI x.snap a = 0) :
    exec (.b2f e d a k last) s = .next (slotEnd last e (setEng s e { x with r := setD x.r d 0, wrote := x.wrote ++ [wC, wD d] })) := by
  refine congrArg _ (slotOp_writes_regs hrun hx last ?_ hdup)
  rw [toB32, if_pos h]
  rfl

/-- F2B of +0 leaves the exponent. -/
theorem exec_f2b_zero {d a : Fin 32} {k : Fin 8} (hdup : hasDup (x.wrote ++ [wC, wD d, wEx k]) = false) (h : dI x.snap a = 0) :
    exec (.f2b e d a k last) s = .next (slotEnd last e (setEng s e { x with r := setD x.r d 0, wrote := x.wrote ++ [wC, wD d, wEx k] })) := by
  have hzero : x.snap.d[a] = 0#32 := BitVec.toInt_inj.mp h
  refine congrArg _ (slotOp_writes_regs hrun hx last ?_ hdup)
  rw [hzero]
  rfl

end

/-! ## The settled statement -/

/-- Settles O33: the shift of R93 as the largest that fits, and each operation by the value that it forms. -/
theorem exponentsAndConversions : Obligations.ExponentsAndConversions := by
  unfold Obligations.ExponentsAndConversions
  refine ⟨fun ws hws => ?_, ?_⟩
  · obtain ⟨hlo, hhi, hfits, hmax⟩ := normK_spec hws
    refine ⟨hlo, hhi, hfits, fun k hk hle => ?_⟩
    have hnot := hmax k hk hle
    simp only [Fits, not_forall, not_le] at hnot
    obtain ⟨w, hw, hlt⟩ := hnot
    exact ⟨w, hw, hlt⟩
  intro s e last d k i j g ac sh s24 hrun x fin X W
  have hx : openBundle (eng s e) = x := rfl
  refine ⟨fun hdup => ?_, fun hdup => ⟨fun v hv => ?_, fun v n hn hv => exec_rda hrun hx last hdup hn hv, exec_b2f_zero hrun hx last hdup⟩,
    fun hdup => ⟨?_, exec_f2b_zero hrun hx last hdup⟩, fun hdup v hv => ?_, fun c hc => ?_⟩
  · have value := fun {i w v} => @exec_exponent s e x hrun hx last k i w v hdup
    simp only [List.forall_mem_cons, List.not_mem_nil, false_implies, implies_true, and_true]
    exact ⟨value rfl rfl, value rfl rfl, value rfl rfl, value rfl rfl, value rfl rfl⟩
  · subst hv
    exact exec_saturated hrun hx last (setD x.r d) (by decide) hdup rfl rfl
  · obtain ⟨hword, hexp, hzero, hnorm⟩ := toBf_spec (gI x.snap g) (exI_le x.snap i)
    refine ⟨_, _, _, exec_cvtf hrun hx last hdup rfl, ?_, hword, hexp, hzero, hnorm⟩
    rw [eng_setEng_self, stick_eq]
    rfl
  · subst hv
    exact exec_saturated hrun hx last (setG x.r g) (by decide) hdup rfl rfl
  · intro is ws hdup
    exact ⟨norm_zeros hrun hx last hc rfl hdup, norm_shifts hrun hx last hc rfl hdup rfl⟩

end Sys2Proof.Machine
end

section
/-! PROOFS. The M slot: products, dot products, filter taps and accumulators (R80, R86, R87, R90, R92). -/

namespace Sys2Proof.Machine

/-! ## Accumulators (R90) -/

theorem ovf72 (v : Int) : ovf 72 v = decide (v < -2 ^ 71 ∨ 2 ^ 71 ≤ v) := by simp [ovf]

/-- A sum that is put into an accumulator changes that accumulator and a flag. -/
theorem acPut_eq (r : LeRegs) (k : Fin 4) (v : Int) : acPut r k v = { r with ac := (acPut r k v).ac, cc := (acPut r k v).cc } := by
  rw [acPut, stick_ac]
  exact stick_eq _ _ _

theorem acPut_ac (r : LeRegs) (k c : Fin 4) (v : Int) : (acPut r k v).ac[c] = if k = c then BitVec.ofInt 72 v else r.ac[c] := by
  rw [acPut, stick_ac, setAc, getElem_set_fin]

/-- AOV after a sum is put into an accumulator. -/
theorem cc_acPut (r : LeRegs) (k : Fin 4) (v : Int) : cc (acPut r k v) ccAOV = (cc r ccAOV || decide (v < -2 ^ 71 ∨ 2 ^ 71 ≤ v)) := by
  rw [acPut, cc_stick _ _ _ _ (by decide), if_pos rfl, ovf72]
  rfl

/-- The accumulators `ks` are cleared. -/
def clearAcs (r : LeRegs) (ks : List (Fin 4)) : LeRegs := ks.foldl (fun r k => setAc r k 0) r

theorem clearAcs_eq (r : LeRegs) (ks : List (Fin 4)) : clearAcs r ks = { r with ac := (clearAcs r ks).ac } := by
  induction ks generalizing r with
  | nil => rfl
  | cons k ks ih => exact ih (setAc r k 0)

theorem clearAcs_ac (r : LeRegs) (ks : List (Fin 4)) (c : Fin 4) : (clearAcs r ks).ac[c] = if c ∈ ks then 0#72 else r.ac[c] := by
  induction ks generalizing r with
  | nil => rfl
  | cons k ks ih =>
    rw [clearAcs, List.foldl_cons, ← clearAcs, ih, setAc, getElem_set_fin]
    by_cases hmem : c ∈ ks
    · simp [hmem]
    · by_cases hk : k = c
      · simp [hk]
      · simp [hmem, hk, Ne.symm hk]

/-! ## Operands (R86, R90) -/

/-- The word of register `n` as a multiplier takes it. -/
def mulWord (x : Engine) (n : Nat) : Int := max (-2 ^ 23) (min (2 ^ 23 - 1) x.snap.d[n % 32].toInt)

theorem mulWord_dAt (x : Engine) (i : Fin 32) (k : Nat) : mulWord x (dAt i k).val = mulWord x (i.val + k) := by
  simp only [mulWord, dAt, Nat.mod_mod]

theorem mulIn_eq (x : Engine) (i : Fin 32) : (mulIn x i).1 = mulWord x i.val := by
  simp only [mulIn, sat24_eq_clamp, mulWord, Nat.mod_eq_of_lt i.isLt]
  rfl

/-- The products of pairs of registers. -/
def productsOf (x : Engine) (prs : List (Fin 32 × Fin 32)) : List Int := prs.map (fun q => (mulIn x q.1).1 * (mulIn x q.2).1)

/-- A word of one of the pairs is saturated to 24 bits. -/
def multiplierSat (x : Engine) (prs : List (Fin 32 × Fin 32)) : Bool := prs.any (fun q => (mulIn x q.1).2 || (mulIn x q.2).2)

/-- The sum of the four products of each MODE, with the ranges that it takes. -/
def ModeSum (x : Engine) (mode : Fin 4) (dx dy : Fin 32) (v : Int) : Prop :=
  let M := mulWord x
  (mode = 0 ∧ dy.val ≤ 28 ∧ v = M dx * M dy + M dx * M (dy.val + 1) + M dx * M (dy.val + 2) + M dx * M (dy.val + 3)) ∨
  (mode = 1 ∧ dx.val ≤ 28 ∧ v = M dx * M dy + M (dx.val + 1) * M dy + M (dx.val + 2) * M dy + M (dx.val + 3) * M dy) ∨
  (mode = 2 ∧ dx.val ≤ 30 ∧ dy.val ≤ 30 ∧ v = M dx * M dy + M dx * M (dy.val + 1) + M (dx.val + 1) * M dy + M (dx.val + 1) * M (dy.val + 1))

theorem modeSum_products {x : Engine} {mode : Fin 4} {dx dy : Fin 32} {v : Int} (h : ModeSum x mode dx dy v) :
    mulIllegal mode dx dy = false ∧ ∃ p₀ p₁ p₂ p₃, productsOf x (mulPairs mode dx dy) = [p₀, p₁, p₂, p₃] ∧ v = p₀ + p₁ + p₂ + p₃ := by
  rcases h with ⟨rfl, hy, rfl⟩ | ⟨rfl, hx, rfl⟩ | ⟨rfl, hx, hy, rfl⟩
  · refine ⟨decide_eq_false (Nat.not_lt.mpr hy), _, _, _, _, rfl, ?_⟩
    simp only [mulIn_eq, mulWord_dAt]
  · refine ⟨decide_eq_false (Nat.not_lt.mpr hx), _, _, _, _, rfl, ?_⟩
    simp only [mulIn_eq, mulWord_dAt]
  · have hne : ∀ {i : Fin 32}, i.val ≤ 30 → (i == 31) = false := fun hi => beq_false_of_ne fun h31 => by simp [h31] at hi
    refine ⟨?_, _, _, _, _, rfl, ?_⟩
    · change (dx == 31 || dy == 31) = false
      rw [hne hx, hne hy]
      rfl
    · simp only [mulIn_eq, mulWord_dAt]

/-- A MODE that is reserved, or whose range passes D31. -/
theorem mulIllegal_of {mode : Fin 4} {dx dy : Fin 32}
    (h : mode = 3 ∨ (mode = 0 ∧ 28 < dy.val) ∨ (mode = 1 ∧ 28 < dx.val) ∨ (mode = 2 ∧ (dx.val = 31 ∨ dy.val = 31))) : mulIllegal mode dx dy = true := by
  rcases h with rfl | ⟨rfl, h⟩ | ⟨rfl, h⟩ | ⟨rfl, h | h⟩
  · rfl
  · exact decide_eq_true h
  · exact decide_eq_true h
  · obtain rfl : dx = 31 := Fin.ext h
    rfl
  · obtain rfl : dy = 31 := Fin.ext h
    exact Bool.or_true _

/-- SUM of one accumulator adds all four products. -/
theorem mulTargets_one {sum g : Fin 4} (h : (sum = 1 ∧ g = 0) ∨ (sum = 2 ∧ g = 1)) (p₀ p₁ p₂ p₃ : Int) :
    mulTargets sum [p₀, p₁, p₂, p₃] = [(g, p₀ + p₁ + p₂ + p₃)] := by
  rcases h with ⟨rfl, rfl⟩ | ⟨rfl, rfl⟩ <;> rfl

theorem dotPairs_products (x : Engine) (n : Fin 4) (dx dy : Fin 32) : productsOf x (dotPairs n dx dy) =
    (List.range (n.val + 1)).map (fun i => mulWord x (dx.val + i) * mulWord x (dy.val + i)) := by
  rw [productsOf, dotPairs, List.map_map]
  simp only [Function.comp_def, mulIn_eq, mulWord_dAt]

theorem dotIllegal_of {n : Fin 4} {dx dy : Fin 32} (h : 31 < dx.val + n.val ∨ 31 < dy.val + n.val) : dotIllegal n dx dy = true := by
  rw [dotIllegal, ← Bool.decide_or]
  exact decide_eq_true h

/-! ## What the M slot leaves (R86) -/

/-- The engine has changed its accumulators `ks` and its flags, and nothing else has changed. -/
def AcsOnly (s : State) (e : Nat) (x : Engine) (t : State) (ks : List (Fin 4)) : Prop :=
  t = setEng s e (eng t e) ∧ (eng t e).stores = x.stores ∧ (eng t e).r.d = x.r.d ∧ (eng t e).r.ex = x.r.ex ∧ (eng t e).r.g = x.r.g ∧
    (eng t e).r.p = x.r.p ∧ (eng t e).r.lc = x.r.lc ∧ (eng t e).r.pc = x.r.pc ∧ ∀ c ∉ ks, (eng t e).r.ac[c] = x.r.ac[c]

section
variable {s : State} {e : Fin 64} {x : Engine} (hrun : (eng s e).ph = .running) (hx : openBundle (eng s e) = x) (last : Bool)

/-- An engine whose registers differ in accumulators and flags. -/
theorem acsOnly_setEng {r : LeRegs} {ks : List (Fin 4)} {wrote : List Nat} (hr : r = { x.r with ac := r.ac, cc := r.cc }) (hac : ∀ c ∉ ks, r.ac[c] = x.r.ac[c]) :
    AcsOnly s e x (setEng s e { x with r := r, wrote := wrote }) ks := by
  unfold AcsOnly
  rw [eng_setEng_self]
  dsimp only
  rw [hr]
  exact ⟨rfl, rfl, rfl, rfl, rfl, rfl, rfl, rfl, hac⟩

include hrun hx

/-- A multiply operation whose products go to one accumulator. -/
theorem exec_mul {i : Instr} {bad : Bool} {prs : List (Fin 32 × Fin 32)} {tgt : List Int → List (Fin 4 × Int)} {upd : Int → Int → Int} {g : Fin 4} {v w : Int}
    (hdup : hasDup (x.wrote ++ [wM, wAc g]) = false) (hi : exec i s = .next (mulOp s e last bad prs tgt upd)) (hbad : bad = false)
    (htgt : tgt (productsOf x prs) = [(g, v)]) (hw : upd (acI x.snap g) v = w) : ∃ t, exec i s = .next (slotEnd last e t) ∧ AcsOnly s e x t [g] ∧
      (eng t e).r.ac[g] = BitVec.ofInt 72 w ∧ cc (eng t e).r ccAOV = (cc x.r ccAOV || decide (w < -2 ^ 71 ∨ 2 ^ 71 ≤ w)) := by
  subst hbad hw
  have hslot : mulOp s e last false prs tgt upd = slotEnd last e (setEng s e { x with
      r := acPut (stick x.r ccSAT (multiplierSat x prs)) g (upd (acI x.snap g) v), wrote := x.wrote ++ [wM, wAc g] }) := by
    refine slotOp_writes_regs hrun hx last ?_ hdup
    dsimp only
    rw [← productsOf, htgt]
    rfl
  refine ⟨_, hi.trans (congrArg _ hslot), ?_, ?_, ?_⟩
  · refine acsOnly_setEng ?_ fun c hc => ?_
    · rw [acPut_eq, stick_eq]
    · rw [acPut_ac, if_neg (fun h => hc (by simp [h])), stick_ac]
  · rw [eng_setEng_self, acPut_ac, if_pos rfl]
  · rw [eng_setEng_self, cc_acPut, cc_stick _ _ _ _ (by decide), if_neg (by decide)]

/-- A dot product into accumulator `k`. -/
theorem exec_dotProduct {i : Instr} {k n : Fin 4} {dx dy : Fin 32} {upd : Int → Int → Int} {v w : Int} (hdup : hasDup (x.wrote ++ [wM, wAc k]) = false)
    (hdx : dx.val + n.val ≤ 31) (hdy : dy.val + n.val ≤ 31) (hv : v = ((List.range (n.val + 1)).map (fun j => mulWord x (dx.val + j) * mulWord x (dy.val + j))).sum)
    (hi : exec i s = .next (mulOp s e last (dotIllegal n dx dy) (dotPairs n dx dy) (fun p => [(k, p.sum)]) upd)) (hw : upd (acI x.snap k) v = w) :
    ∃ t, exec i s = .next (slotEnd last e t) ∧ AcsOnly s e x t [k] ∧ (eng t e).r.ac[k] = BitVec.ofInt 72 w := by
  have hlegal : dotIllegal n dx dy = false := by simp [dotIllegal, hdx, hdy]
  obtain ⟨t, ht, honly, hac, -⟩ := exec_mul hrun hx last hdup hi hlegal (v := v) (by rw [dotPairs_products, hv]) hw
  exact ⟨t, ht, honly, hac⟩

theorem exec_clra {mask : BitVec 4} {ks : List (Fin 4)} (hks : [(0 : Fin 4), 1, 2, 3].filter (fun c => mask.getLsbD c.val) = ks)
    (hdup : hasDup (x.wrote ++ (wM :: ks.map wAc)) = false) : ∃ t, exec (.clra e mask last) s = .next (slotEnd last e t) ∧ AcsOnly s e x t [0, 1, 2, 3] ∧
      ∀ c : Fin 4, (eng t e).r.ac[c] = if mask.getLsbD c.val = true then 0#72 else x.r.ac[c] := by
  have hall : ∀ c : Fin 4, c ∈ [(0 : Fin 4), 1, 2, 3] := by decide
  subst hks
  refine ⟨_, congrArg _ (slotOp_writes_regs hrun hx last (r := clearAcs x.r _) rfl hdup), acsOnly_setEng ?_ fun c hc => absurd (hall c) hc, fun c => ?_⟩
  · rw [clearAcs_eq]
  · rw [eng_setEng_self, clearAcs_ac]
    simp only [List.mem_filter, hall c, true_and]

theorem exec_adda {k a : Fin 4} {sh : BitVec 6} {neg : Bool} {v : Int} (hdup : hasDup (x.wrote ++ [wM, wAc k]) = false)
    (hv : v = shiftRnd (acI x.snap a) (-sh.toInt)) : ∃ t, exec (.adda e k a sh neg last) s = .next (slotEnd last e t) ∧ AcsOnly s e x t [k] ∧
      (eng t e).r.ac[k] = BitVec.ofInt 72 (if neg = true then acI x.snap k - v else acI x.snap k + v) := by
  subst hv
  refine ⟨_, congrArg _ (slotOp_writes_regs hrun hx last rfl hdup), acsOnly_setEng ?_ fun c hc => ?_, ?_⟩
  · rw [acPut_eq]
  · exact (acPut_ac _ _ _ _).trans (if_neg fun h => hc (by simp [h]))
  · rw [eng_setEng_self, acPut_ac, if_pos rfl]

end

/-! ## FTAP (R87) -/

/-- A pointer without a length that moves four words back. -/
theorem ptrStep_back {p : Ptr} (h : p.l = 0#11) : (ptrStep p (-4)).a = p.a - 4#10 := by
  have hw := wrapPtr_whole (p := p) (p.a.toNat + -4) h
  apply BitVec.eq_of_toNat_eq
  rw [ptrStep, BitVec.toNat_ofNat, BitVec.toNat_sub]
  have := p.a.isLt
  simp only [BitVec.toNat_ofNat]
  omega

/-- The registers after a filter tap: accumulator `k` takes `v`, and the pointers take the addresses `a` and `b`. -/
def ftapRegs (r : LeRegs) (k : Fin 4) (v : Int) (px py : Fin 8) (a b : BitVec 10) : LeRegs :=
  let r := acPut r k v
  let r := setPtr r px { r.p[px] with a := a }
  setPtr r py { r.p[py] with a := b }

section
variable (r : LeRegs) (k : Fin 4) (v : Int) (px py : Fin 8) (a b : BitVec 10)

theorem ftapRegs_eq : ftapRegs r k v px py a b =
    { r with ac := (ftapRegs r k v px py a b).ac, p := (ftapRegs r k v px py a b).p, cc := (ftapRegs r k v px py a b).cc } := by
  simp only [ftapRegs]
  rw [acPut_eq]
  rfl

theorem ftapRegs_ac {c : Fin 4} (h : c ≠ k) : (ftapRegs r k v px py a b).ac[c] = r.ac[c] :=
  (acPut_ac r k c v).trans (if_neg h.symm)

theorem ftapRegs_p_other {c : Fin 8} (hx : c ≠ px) (hy : c ≠ py) : (ftapRegs r k v px py a b).p[c] = r.p[c] := by
  simp only [ftapRegs, setPtr, getElem_set_fin, if_neg hx.symm, if_neg hy.symm]
  rw [acPut_eq]

theorem ftapRegs_p (h : px ≠ py) : (ftapRegs r k v px py a b).p[px].a = a ∧ (ftapRegs r k v px py a b).p[py].a = b := by
  simp only [ftapRegs, setPtr, getElem_set_fin, if_neg h.symm, if_true, and_self]

end

section
variable {s : State} {e : Fin 64} {x : Engine} (hrun : (eng s e).ph = .running) (hx : openBundle (eng s e) = x) (last : Bool)
  {p q k : Fin 4} {neg z : Bool} {px py : Fin 8} (hpx : px = xyPtr false p) (hpy : py = xyPtr true q)
  (hdup : hasDup (x.wrote ++ [wM, wXY false, wXY true, wAc k, 64 + px.val, 64 + py.val]) = false)
include hrun hx hpx hpy hdup

/-- FTAP, by the sum that it forms and its four stores. -/
theorem exec_ftap : ∃ v sa stores, stores.length = 4 ∧ exec (.ftap e p q k neg z last) s = .next (slotEnd last e (setEng s e { x with
    r := ftapRegs (stick x.r ccSAT sa) k v px py (ptrStep x.snap.p[px] (-4)).a (ptrStep x.snap.p[py] (-4)).a,
    wrote := x.wrote ++ [wM, wXY false, wXY true, wAc k, 64 + px.val, 64 + py.val], stores := x.stores ++ stores })) := by
  subst hpx hpy
  refine ⟨_, _, _, ?_, congrArg _ (slotOp_writes hrun hx last _ rfl rfl hdup)⟩
  simp

theorem ftap_effect : ∃ t, exec (.ftap e p q k neg z last) s = .next (slotEnd last e t) ∧ t = setEng s e (eng t e) ∧ (eng t e).r.d = x.r.d ∧
    (eng t e).r.g = x.r.g ∧ (eng t e).r.ex = x.r.ex ∧ (∀ c, c ≠ k → (eng t e).r.ac[c] = x.r.ac[c]) ∧
    (∀ c, c ≠ px → c ≠ py → (eng t e).r.p[c] = x.r.p[c]) ∧
    ((x.snap.p[px].l = 0#11 → (eng t e).r.p[px].a = x.snap.p[px].a - 4#10) ∧ (x.snap.p[py].l = 0#11 → (eng t e).r.p[py].a = x.snap.p[py].a - 4#10)) ∧
    (eng t e).stores.length = x.stores.length + 4 := by
  obtain ⟨v, sa, stores, hlen, hexec⟩ := exec_ftap (neg := neg) (z := z) hrun hx last hpx hpy hdup
  have hne : px ≠ py := fun h => by
    have := congrArg Fin.val (hpx.symm.trans (h.trans hpy))
    simp [xyPtr, b2n] at this
    omega
  obtain ⟨hpa, hpb⟩ := ftapRegs_p (stick x.r ccSAT sa) k v px py (ptrStep x.snap.p[px] (-4)).a (ptrStep x.snap.p[py] (-4)).a hne
  refine ⟨_, hexec, ?_⟩
  rw [eng_setEng_self]
  refine ⟨rfl, ?_, ?_, ?_, fun c hc => ?_, fun c hcx hcy => ?_, ⟨fun hl => hpa.trans (ptrStep_back hl), fun hl => hpb.trans (ptrStep_back hl)⟩, ?_⟩
  · rw [ftapRegs_eq, stick_d]
  · rw [ftapRegs_eq, stick_g]
  · rw [ftapRegs_eq, stick_ex]
  · rw [ftapRegs_ac _ _ _ _ _ _ _ hc, stick_ac]
  · rw [ftapRegs_p_other _ _ _ _ _ _ _ hcx hcy, stick_p]
  · rw [List.length_append, hlen]

end

/-! ## The settled statement -/

/-- Settles O34: each operation by the accumulator that it puts, FTAP by its pointers and stores, and the forms that R80 makes illegal. -/
theorem multiplyAccumulate : Obligations.MultiplyAccumulate := by
  unfold Obligations.MultiplyAccumulate
  intro s e last mode sum k n q a dx dy mask sh neg z hrun x fin M keeps
  have hx : openBundle (eng s e) = x := rfl
  refine ⟨fun g hsum hdup v hv => ?_, fun hdx hdy hdup v hv => ?_, exec_clra hrun hx last rfl, fun hdup v hv => exec_adda hrun hx last hdup hv,
    fun px py hpx hpy hdup => ?_, fun hbad => ?_, fun hbad => ?_⟩
  · obtain ⟨hlegal, p₀, p₁, p₂, p₃, hp, rfl⟩ := modeSum_products (x := x) hv
    have htgt : mulTargets sum (productsOf x (mulPairs mode dx dy)) = [(g, p₀ + p₁ + p₂ + p₃)] := by rw [hp, mulTargets_one hsum]
    simp only [List.forall_mem_cons, List.not_mem_nil, false_implies, implies_true, and_true]
    exact ⟨exec_mul hrun hx last hdup rfl hlegal htgt rfl, exec_mul hrun hx last hdup rfl hlegal htgt rfl, exec_mul hrun hx last hdup rfl hlegal htgt rfl⟩
  · have sums := fun {i upd w} => @exec_dotProduct s e x hrun hx last i k n dx dy upd v w hdup hdx hdy hv
    simp only [List.forall_mem_cons, List.not_mem_nil, false_implies, implies_true, and_true]
    exact ⟨sums rfl rfl, sums rfl rfl, sums rfl rfl⟩
  · exact ftap_effect hrun hx last (Fin.ext (by simp [xyPtr, b2n, hpx])) (Fin.ext (by simp [xyPtr, b2n, hpy])) hdup
  · have hbad := mulIllegal_of hbad
    simp only [List.forall_mem_cons, List.not_mem_nil, false_implies, implies_true, and_true]
    exact ⟨exec_refused hrun hx last rfl rfl hbad, exec_refused hrun hx last rfl rfl hbad, exec_refused hrun hx last rfl rfl hbad⟩
  · have hbad := dotIllegal_of hbad
    simp only [List.forall_mem_cons, List.not_mem_nil, false_implies, implies_true, and_true]
    exact ⟨exec_refused hrun hx last rfl rfl hbad, exec_refused hrun hx last rfl rfl hbad, exec_refused hrun hx last rfl rfl hbad⟩

end Sys2Proof.Machine
end

section
/-! PROOFS. Control flow of a loop engine: B, CALL, RET and LOOP (R80, R85, R99 to R101). -/

namespace Sys2Proof.Machine

/-! ## Where a loop ends (R99) -/

/-- An active loop of a counter ends at `pc`. -/
def EndsAt (r : LeRegs) (pc : Nat) : Prop := ∃ k : Fin 2, r.lc[k].active = true ∧ r.lc[k].stop = pc

theorem loopAt_isSome {r : LeRegs} {pc : Nat} : (loopAt r pc).isSome = true ↔ EndsAt r pc := by
  unfold loopAt EndsAt
  rw [Fin.exists_fin_two]
  split
  · next h => exact ⟨fun _ => .inl h, fun _ => rfl⟩
  · next h =>
    split
    · next h' => exact ⟨fun _ => .inr h', fun _ => rfl⟩
    · next h' => simp only [h, h', or_self, Option.isSome_none, Bool.false_eq_true]

theorem loopAt_eq_none {r : LeRegs} {pc : Nat} (h : ¬EndsAt r pc) : loopAt r pc = none :=
  Option.not_isSome_iff_eq_none.mp fun hs => h (loopAt_isSome.mp hs)

/-! ## Bundles of type 10 (R79, R100) -/

/-- A control bundle of engine `e`, found as `x`, meets the fault `c`. -/
def ctlFault (s : State) (e : Nat) (x : Engine) (c : EngCause) : State :=
  engineFault (setEng s e { x with issued := x.issued + 1 }) e x.task x.r.pc c

/-- The fault that a control bundle meets: ILLEGAL, then LOOP at the end of an active loop, then its operation's own. -/
def ctlCause (r : LeRegs) (c : Option EngCause) : Option EngCause :=
  if c = some .illegal then c else if (loopAt r r.pc).isSome then some .loop else c

section
variable {s : State} {e : Fin 64} {x : Engine} (hrun : (eng s e).ph = .running) (hmid : (eng s e).mid = false) (hx : openBundle (eng s e) = x)
  {i : Instr} {op : LeRegs → LeRegs × Option EngCause}
include hrun hmid hx

theorem branchOp_faults {c : EngCause} {after : State → State} (h : ctlCause x.r (op x.r).2 = some c) : branchOp s e op after = ctlFault s e x c := by
  have hwrote : x.wrote = [] := by rw [← hx, openBundle_start hmid]
  unfold branchOp
  rw [if_pos hrun]
  dsimp only
  rw [hx, if_neg (not_not.mpr hwrote)]
  rw [ctlCause] at h
  rw [h]
  rfl

theorem exec_ctl_illegal (hi : exec i s = .next (branchOp s e op id)) (hop : (op x.r).2 = some .illegal) : exec i s = .next (ctlFault s e x .illegal) :=
  hi.trans (congrArg _ (branchOp_faults hrun hmid hx (by rw [ctlCause, if_pos hop, hop])))

/-- At the end of an active loop an operation that is not illegal meets LOOP. -/
theorem exec_ctl_atEnd (hi : exec i s = .next (branchOp s e op id)) (hend : EndsAt x.r x.r.pc) (hop : (op x.r).2 ≠ some .illegal) :
    exec i s = .next (ctlFault s e x .loop) :=
  hi.trans (congrArg _ (branchOp_faults hrun hmid hx (by rw [ctlCause, if_neg hop, if_pos (loopAt_isSome.mpr hend)])))

theorem exec_ctl_fault {c : EngCause} (hi : exec i s = .next (branchOp s e op id)) (hend : ¬EndsAt x.r x.r.pc) (hop : (op x.r).2 = some c) :
    exec i s = .next (ctlFault s e x c) :=
  hi.trans (congrArg _ (branchOp_faults hrun hmid hx (by rw [ctlCause, loopAt_eq_none hend, hop, Option.isSome_none, if_neg Bool.false_ne_true, ite_self])))

/-- An operation that meets no fault leaves the registers `q`. -/
theorem exec_ctl_goes {q : LeRegs} (hi : exec i s = .next (branchOp s e op id)) (hend : ¬EndsAt x.r x.r.pc) (hop : op x.r = (q, none)) (hpc : q.pc < 2048) :
    exec i s = .next (setEng s e (bundleDone x q)) := by
  have hr : (eng s e).r = x.r := by rw [← hx, openBundle_start hmid]
  have hends : ∀ k : Fin 2, (eng s e).r.lc[k].active = true → (eng s e).r.lc[k].stop ≠ (eng s e).r.pc :=
    hr ▸ fun k hact hstop => hend ⟨k, hact, hstop⟩
  rw [hi, branchOp_done hrun hmid hends (by rw [hr, hop]) (by rw [hr, hop]; exact hpc), hr, hop, hx]
  rfl

end

/-! ## B, CALL and RET (R85, R100) -/

/-- The loops that a jump to `t` leaves active are those whose body holds `t`. -/
theorem leaveLoops_eq (r : LeRegs) (t : Nat) : leaveLoops r t =
    { r with lc := r.lc.map (fun l => if l.start ≤ t ∧ t ≤ l.stop then l else { l with active := false }) } := by
  have h : (fun l : LoopSt => ({ l with active := l.active && decide (l.start ≤ t) && decide (t ≤ l.stop) } : LoopSt)) =
      fun l => if l.start ≤ t ∧ t ≤ l.stop then l else { l with active := false } := funext fun l => by
    split
    · next h => simp [h]
    · next h =>
      have hoff : (l.active && decide (l.start ≤ t) && decide (t ≤ l.stop)) = false := by simpa using fun _ h1 => Nat.lt_of_not_le fun h2 => h ⟨h1, h2⟩
      rw [hoff]
  rw [leaveLoops, h]

section
variable {s : State} {e : Fin 64} {x : Engine} (hrun : (eng s e).ph = .running) (hmid : (eng s e).mid = false) (hx : openBundle (eng s e) = x)
include hrun hmid hx

theorem exec_b_reserved {c : Fin 32} (t : Fin 2048) (hc : 12 < c.val) : exec (.b e c t) s = .next (ctlFault s e x .illegal) :=
  exec_ctl_illegal hrun hmid hx rfl (by rw [if_pos hc])

theorem exec_b_atEnd {c : Fin 32} (t : Fin 2048) (hc : c.val ≤ 12) (hend : EndsAt x.r x.r.pc) : exec (.b e c t) s = .next (ctlFault s e x .loop) :=
  exec_ctl_atEnd hrun hmid hx rfl hend (by rw [if_neg (Nat.not_lt.mpr hc)]; split <;> simp)

theorem exec_call_atEnd (t : Fin 2048) (hend : EndsAt x.r x.r.pc) : exec (.call e t) s = .next (ctlFault s e x .loop) :=
  exec_ctl_atEnd hrun hmid hx rfl hend (by split <;> simp)

theorem exec_ret_atEnd (hend : EndsAt x.r x.r.pc) : exec (.ret e) s = .next (ctlFault s e x .loop) :=
  exec_ctl_atEnd hrun hmid hx rfl hend (by split <;> simp)

section
variable (hend : ¬EndsAt x.r x.r.pc)
include hend

theorem exec_b_taken {c : Fin 32} (t : Fin 2048) (hc : c.val ≤ 12) (hcond : condHolds x.r c = true) :
    exec (.b e c t) s = .next (setEng s e (bundleDone x { leaveLoops x.r t.val with pc := t.val })) :=
  exec_ctl_goes hrun hmid hx rfl hend (by rw [if_neg (Nat.not_lt.mpr hc), if_pos hcond]) t.isLt

theorem exec_b_passed {c : Fin 32} (t : Fin 2048) (hc : c.val ≤ 12) (hcond : condHolds x.r c = false) (hpc : x.r.pc < 2047) :
    exec (.b e c t) s = .next (setEng s e (bundleDone x { x.r with pc := x.r.pc + 1 })) :=
  exec_ctl_goes hrun hmid hx rfl hend (by rw [if_neg (Nat.not_lt.mpr hc), if_neg (Bool.eq_false_iff.mp hcond)]) (Nat.succ_lt_succ hpc)

theorem exec_call_pushes (t : Fin 2048) (hroom : x.r.stack.length < 4) :
    exec (.call e t) s = .next (setEng s e (bundleDone x { x.r with stack := (x.r.pc + 1) % 2048 :: x.r.stack, pc := t.val })) :=
  exec_ctl_goes hrun hmid hx rfl hend (by rw [if_neg (Nat.not_le.mpr hroom)]) t.isLt

theorem exec_call_full (t : Fin 2048) (hfull : 4 ≤ x.r.stack.length) : exec (.call e t) s = .next (ctlFault s e x .stack) :=
  exec_ctl_fault hrun hmid hx rfl hend (by rw [if_pos hfull])

theorem exec_ret_empty (h : x.r.stack = []) : exec (.ret e) s = .next (ctlFault s e x .stack) :=
  exec_ctl_fault hrun hmid hx rfl hend (by rw [h])

theorem exec_ret_pops {t : Nat} {q : List Nat} (h : x.r.stack = t :: q) (ht : t < 2048) :
    exec (.ret e) s = .next (setEng s e (bundleDone x { leaveLoops x.r t with stack := q, pc := t })) :=
  exec_ctl_goes hrun hmid hx rfl hend (by rw [h]) ht

end

end

/-! ## LOOP (R99 to R101) -/

/-- What LOOP refuses: a counter that is active, two rotating loops, an end at or before itself or where the other loop ends, and a control bundle as its end. -/
def LoopBad (r : LeRegs) (k : Fin 2) (rot ctl : Bool) (stop : Nat) : Prop :=
  r.lc[k].active = true ∨ (rot = true ∧ r.lc[1 - k].active = true ∧ r.lc[1 - k].rot = true) ∨ stop ≤ r.pc ∨
    (r.lc[1 - k].active = true ∧ r.lc[1 - k].stop = stop) ∨ ctl = true

/-- The count of LOOP. -/
def loopCount (r : LeRegs) (creg : Bool) (dn : Fin 32) (count : BitVec 12) : Int := if creg = true then max 0 (min 4095 (dI r dn)) else count.toNat

/-- SAT is set where LOOP clamps its count. -/
def loopClamped (r : LeRegs) (creg : Bool) (dn : Fin 32) : LeRegs := stick r ccSAT (creg && decide (dI r dn < 0 ∨ 4095 < dI r dn))

/-- The registers before LOOP sets its counter: a rotating loop puts the window at its start. -/
def loopTurned (r : LeRegs) (rot creg : Bool) (dn : Fin 32) : LeRegs :=
  if rot = true then { loopClamped r creg dn with wct := 0 } else loopClamped r creg dn

section
variable (r : LeRegs) (k : Fin 2) (rot creg ctl : Bool) (dn : Fin 32) (count : BitVec 12) (stop : Nat)

theorem loopCount_eq : (if creg then sat 0 4095 (dI r dn) else ((count.toNat : Int), false)) =
    (loopCount r creg dn count, creg && decide (dI r dn < 0 ∨ 4095 < dI r dn)) := by
  cases creg
  · rfl
  · exact sat_eq_clamp (by decide)

theorem loopCount_nonneg : 0 ≤ loopCount r creg dn count := by
  unfold loopCount
  split <;> omega

theorem loopTurned_lc_pc : (loopTurned r rot creg dn).lc = r.lc ∧ (loopTurned r rot creg dn).pc = r.pc := by
  cases rot <;> simp [loopTurned, loopClamped]

variable {r k rot ctl stop}

theorem loopBad_iff {q : LeRegs} (hlc : q.lc = r.lc) (hpc : q.pc = r.pc) :
    (q.lc[k].active || (rot && r.lc[1 - k].active && r.lc[1 - k].rot) || decide (stop ≤ q.pc) || (r.lc[1 - k].active && r.lc[1 - k].stop == stop) || ctl) = true ↔
      LoopBad r k rot ctl stop := by
  rw [hlc, hpc]
  simp only [LoopBad, Bool.or_eq_true, Bool.and_eq_true, decide_eq_true_eq, beq_iff_eq, or_assoc, and_assoc]

theorem loopStart_bad (h : LoopBad r k rot ctl stop) : (loopStart r k rot creg ctl dn count stop).2 = some .loop := by
  unfold loopStart
  simp only [loopCount_eq]
  rw [if_pos ((loopBad_iff (stick_lc ..) (stick_pc ..)).mpr h)]

theorem loopStart_starts (h : ¬LoopBad r k rot ctl stop) (hn : 1 ≤ loopCount r creg dn count) : loopStart r k rot creg ctl dn count stop =
    ({ loopTurned r rot creg dn with lc := r.lc.set k ⟨true, BitVec.ofInt 12 (loopCount r creg dn count), r.pc + 1, stop, rot⟩, pc := r.pc + 1 }, none) := by
  obtain ⟨hlc, hpc⟩ := loopTurned_lc_pc r rot creg dn
  unfold loopStart
  simp only [loopCount_eq]
  rw [if_neg (mt (loopBad_iff (stick_lc ..) (stick_pc ..)).mp h), if_neg (by omega), ← loopClamped, ← loopTurned, hlc, hpc]

theorem loopStart_skips (h : ¬LoopBad r k rot ctl stop) (hn : loopCount r creg dn count = 0) : loopStart r k rot creg ctl dn count stop =
    ({ loopTurned r rot creg dn with lc := r.lc.set k { r.lc[k] with ctr := 0 }, pc := stop + 1 }, none) := by
  obtain ⟨hlc, -⟩ := loopTurned_lc_pc r rot creg dn
  unfold loopStart
  simp only [loopCount_eq]
  rw [if_neg (mt (loopBad_iff (stick_lc ..) (stick_pc ..)).mp h), if_pos hn, ← loopClamped, ← loopTurned, hlc]

/-- LOOP is never illegal. -/
theorem loopStart_legal : (loopStart r k rot creg ctl dn count stop).2 ≠ some .illegal := by
  by_cases h : LoopBad r k rot ctl stop
  · rw [loopStart_bad creg dn count h]
    simp
  · rcases (loopCount_nonneg r creg dn count).eq_or_lt with hn | hn
    · rw [loopStart_skips creg dn count h hn.symm]
      simp
    · rw [loopStart_starts creg dn count h hn]
      simp

end

section
variable {s : State} {e : Fin 64} {x : Engine} (hrun : (eng s e).ph = .running) (hmid : (eng s e).mid = false) (hx : openBundle (eng s e) = x)
  {k : Fin 2} {rot creg : Bool} {dn : Fin 32} {count : BitVec 12} {stop : Fin 2048}
include hrun hmid hx

/-- LOOP at the end of an active loop, or in a form that it refuses. -/
theorem exec_loop_refused (h : EndsAt x.r x.r.pc ∨ LoopBad x.r k rot (isCtl s e stop) stop.val) :
    exec (.loop e k rot creg dn count stop) s = .next (ctlFault s e x .loop) := by
  by_cases hend : EndsAt x.r x.r.pc
  · exact exec_ctl_atEnd hrun hmid hx rfl hend (loopStart_legal creg dn count)
  · exact exec_ctl_fault hrun hmid hx rfl hend (loopStart_bad creg dn count (h.resolve_left hend))

theorem exec_loop_starts (hend : ¬EndsAt x.r x.r.pc) (hbad : ¬LoopBad x.r k rot (isCtl s e stop) stop.val) (hn : 1 ≤ loopCount x.r creg dn count) :
    exec (.loop e k rot creg dn count stop) s = .next (setEng s e (bundleDone x { loopTurned x.r rot creg dn with
      lc := x.r.lc.set k ⟨true, BitVec.ofInt 12 (loopCount x.r creg dn count), x.r.pc + 1, stop, rot⟩, pc := x.r.pc + 1 })) := by
  have hpc : x.r.pc < stop.val := Nat.lt_of_not_le fun h => hbad (.inr (.inr (.inl h)))
  exact exec_ctl_goes hrun hmid hx rfl hend (loopStart_starts creg dn count hbad hn) (Nat.lt_of_le_of_lt hpc stop.isLt)

theorem exec_loop_skips (hend : ¬EndsAt x.r x.r.pc) (hbad : ¬LoopBad x.r k rot (isCtl s e stop) stop.val) (hn : loopCount x.r creg dn count = 0)
    (hstop : stop.val < 2047) : exec (.loop e k rot creg dn count stop) s = .next (setEng s e (bundleDone x { loopTurned x.r rot creg dn with
      lc := x.r.lc.set k { x.r.lc[k] with ctr := 0 }, pc := stop.val + 1 })) :=
  exec_ctl_goes hrun hmid hx rfl hend (loopStart_skips creg dn count hbad hn) (Nat.succ_lt_succ hstop)

end

/-! ## The settled statement -/

/-- Settles O37: each operation by where it goes or by the fault that it meets. -/
theorem loopEngineControlFlow : Obligations.LoopEngineControlFlow := by
  unfold Obligations.LoopEngineControlFlow
  intro s e hrun hmid x r faults goes ends left
  have hx : openBundle (eng s e) = x := rfl
  have hleft : ∀ t, { leaveLoops r t with pc := t } = { r with lc := left t, pc := t } := fun t => by rw [leaveLoops_eq]
  refine ⟨fun c t => ⟨exec_b_reserved hrun hmid hx t, exec_b_atEnd hrun hmid hx t, fun hc hend => ⟨fun hcond => ?_, exec_b_passed hrun hmid hx hend t hc⟩⟩,
    fun t => ⟨fun hend => ⟨exec_call_atEnd hrun hmid hx t hend, exec_ret_atEnd hrun hmid hx hend⟩,
      fun hend => ⟨exec_call_pushes hrun hmid hx hend t, exec_call_full hrun hmid hx hend t⟩⟩,
    fun hend => ⟨exec_ret_empty hrun hmid hx hend, fun t q hstack ht => ?_⟩, fun k rot creg dn count stop => ?_, ?_⟩
  · rw [exec_b_taken hrun hmid hx hend t hc hcond, leaveLoops_eq]
    rfl
  · rw [exec_ret_pops hrun hmid hx hend hstack ht, leaveLoops_eq]
    rfl
  · exact ⟨exec_loop_refused hrun hmid hx, exec_loop_starts hrun hmid hx, exec_loop_skips hrun hmid hx⟩
  · exact ⟨rfl, rfl, rfl, rfl, rfl, rfl, rfl, rfl, rfl, rfl, rfl, by simp [condHolds], by simp [condHolds]⟩

end Sys2Proof.Machine
end

section
/-! PROOFS. The end of a bundle, its stores and loops, double writes, and the long immediates (R74, R79, R80, R84, R99, R101, R107). -/

namespace Sys2Proof.Machine

/-! ## Where a bundle goes on (R99, R101) -/

theorem advance_straight {r : LeRegs} {pc : Nat} (h : ¬EndsAt r pc) : advance r pc = { r with pc := pc + 1 } := by
  rw [advance, loopAt_eq_none h]

/-- Of two loops only `k` ends at `pc`. -/
theorem loopAt_eq_some {r : LeRegs} {pc : Nat} {k : Fin 2} (hact : r.lc[k].active = true) (hstop : r.lc[k].stop = pc)
    (hother : r.lc[1 - k].active = true → r.lc[1 - k].stop ≠ pc) : loopAt r pc = some k := by
  unfold loopAt
  fin_cases k
  · exact if_pos ⟨hact, hstop⟩
  · rw [if_neg fun h => hother h.1 h.2]
    exact if_pos ⟨hact, hstop⟩

/-- The window of a rotating loop moves as its end bundle issues. -/
def rotated (r : LeRegs) (rot : Bool) : LeRegs := if rot = true then { r with d := (rotate r).d, wct := r.wct + 1 } else r

theorem advance_loop {r : LeRegs} {pc : Nat} {k : Fin 2} (h : loopAt r pc = some k) : advance r pc =
    if r.lc[k].ctr = 1 then { rotated r r.lc[k].rot with lc := r.lc.set k { r.lc[k] with active := false, ctr := 0 }, pc := pc + 1 }
    else { rotated r r.lc[k].rot with lc := r.lc.set k { r.lc[k] with ctr := r.lc[k].ctr - 1 }, pc := r.lc[k].start } := by
  have hlast : r.lc[k].ctr - 1 = 0 ↔ r.lc[k].ctr = 1 := sub_eq_zero
  have hlc : (rotated r r.lc[k].rot).lc = r.lc := by unfold rotated; split <;> rfl
  rw [advance, h]
  dsimp only
  have hrot : (if r.lc[k].rot = true then rotate r else r) = rotated r r.lc[k].rot := rfl
  rw [hrot, hlc]
  simp only [hlast]
  split
  · next hc => rw [hlast.mpr hc]
  · rfl

theorem rotate_window (r : LeRegs) : (∀ i : Fin 32, i.val < 16 → (rotate r).d[i] = r.d[i]) ∧ (rotate r).d[(16 : Fin 32)] = r.d[(31 : Fin 32)] ∧
    ∀ i j : Fin 32, 16 ≤ i.val → j.val = i.val + 1 → (rotate r).d[j] = r.d[i] := by
  have hget : ∀ i : Fin 32, (rotate r).d[i] =
      if i.val < 16 then r.d[i] else if i.val = 16 then r.d[(31 : Fin 32)] else r.d[(⟨i.val - 1, by omega⟩ : Fin 32)] := fun i => Vector.getElem_ofFn _
  refine ⟨fun i hi => ?_, ?_, fun i j hi hj => ?_⟩
  · rw [hget, if_pos hi]
  · rw [hget]
    rfl
  · rw [hget, if_neg (by omega), if_neg (by omega)]
    simp only [hj, Nat.add_sub_cancel]

/-! ## A bundle ends (R79, R107) -/

section
variable {s : State} {e : Fin 64} {y : Engine}

theorem endBundle_plain (h : y.stores = []) : endBundle (setEng s e y) e = settle (setEng s e y) e (advance y.r y.snap.pc) := by
  unfold endBundle
  rw [eng_setEng_self]
  dsimp only
  rw [h, makeStores]

theorem slotEnd_last (u : State) : slotEnd true e u = endBundle u e := if_pos rfl

/-- A bundle without stores goes on with the registers `q`. -/
theorem endBundle_goes {q : LeRegs} (h : y.stores = []) (hq : advance y.r y.snap.pc = q) (hpc : q.pc < 2048) :
    endBundle (setEng s e y) e = setEng s e (bundleDone y q) := by
  rw [endBundle_plain h, hq, settle_inside hpc, setEng_setEng, eng_setEng_self]

/-- A bundle without stores past the end of IMEM. -/
theorem endBundle_past (h : y.stores = []) (hpc : 2048 ≤ (advance y.r y.snap.pc).pc) : endBundle (setEng s e y) e =
    engineFault (setEng s e (bundleDone y (advance y.r y.snap.pc))) e y.task 2047 .pcRange := by
  rw [endBundle_plain h, settle]
  dsimp only
  rw [if_neg (Nat.not_lt.mpr hpc), setEng_setEng, eng_setEng_self]
  rfl

end

/-! ## Stores of local memory (R74) -/

/-- A store of one word of XMEM or YMEM writes the word and its written bit. -/
theorem makeStores_word (s : State) (e : Nat) (y : Bool) {h w : Nat} (hh : h < 2) (hw : w < 1024) (v : Nat) :
    makeStores s e [(xyAddr e y h w, leBytes 4 v)] = xyWrite s e y h w v := by
  have hoff : xyAddr e y h w = leAddr e 0 + (0x4000 + b2n y * 0x2000 + h * 0x1000 + 4 * w) := by
    rw [xyAddr, Nat.mod_eq_of_lt hw]
    simp only [leAddr]
    omega
  have hy : b2n y < 2 := by cases y <;> decide
  have hlocal : leAddr e 0x4000 ≤ xyAddr e y h w ∧ xyAddr e y h w < leAddr e 0x8000 := by
    rw [hoff, leAddr, leAddr, leAddr]
    omega
  have hkey : wKey (decide (0x6000 ≤ xyAddr e y h w - leAddr e 0)) ((xyAddr e y h w - leAddr e 0) / 0x1000 % 2) ((xyAddr e y h w - leAddr e 0) % 0x1000 / 4) =
      wKey y h w := by
    rw [hoff, Nat.add_sub_cancel_left]
    have hside : decide (0x6000 ≤ 0x4000 + b2n y * 0x2000 + h * 0x1000 + 4 * w) = y := by
      cases y
      · exact decide_eq_false (by rw [show b2n false = 0 from rfl]; omega)
      · exact decide_eq_true (by rw [show b2n true = 1 from rfl]; omega)
    rw [hside, show (0x4000 + b2n y * 0x2000 + h * 0x1000 + 4 * w) / 0x1000 % 2 = h by omega,
      show (0x4000 + b2n y * 0x2000 + h * 0x1000 + 4 * w) % 0x1000 / 4 = w by omega]
  rw [makeStores, if_pos hlocal, hkey, makeStores]
  rfl

theorem xyRead_xyWrite (s : State) (e : Nat) (y : Bool) (h w v : Nat) : xyRead (xyWrite s e y h w v) e y h w = v % 256 ^ 4 := by
  unfold xyRead xyWrite
  rw [eng_setEng_self]
  dsimp only
  rw [tget_tput_self, if_pos rfl, mnum_eq_of_mem (setEng_mem _ _ _), mnum_msetNum_self]

theorem bundleDone_wbit (x : Engine) (q : LeRegs) : (bundleDone x q).wbit = x.wbit := rfl

/-- A change of an engine that leaves its written bits leaves what it reads of local memory. -/
theorem xyRead_setEng {s : State} {e : Nat} {z : Engine} (hz : z.wbit = (eng s e).wbit) (y : Bool) (h w : Nat) :
    xyRead (setEng s e z) e y h w = xyRead s e y h w := by
  unfold xyRead
  rw [eng_setEng_self, hz, mnum_eq_of_mem (setEng_mem _ _ _)]

theorem mget_xyWrite (s : State) (e : Nat) (y : Bool) (h w v : Nat) {c : Nat} (hc : c < xyAddr e y h w ∨ xyAddr e y h w + 4 ≤ c) :
    mget (xyWrite s e y h w v) c = mget s c := by
  rw [xyWrite, mget_setEng, mget_msetNum_other _ _ _ _ _ hc]

theorem xyWrite_regs (s : State) (e : Nat) (y : Bool) (h w v : Nat) : (xyWrite s e y h w v).regs = s.regs := by
  rw [xyWrite, setEng_regs, msetNum, mwrite_regs]

/-! ## The values of long immediates (R84) -/

/-- An immediate in the high half of a G register, read without and with a sign. -/
theorem setG_high (r : LeRegs) (g : Fin 16) (imm : W32) (m : Nat) :
    setG r g ((imm.toNat * 2 ^ 32 + m : Nat) : Int) = setG r g (imm.toInt * 2 ^ 32 + (m : Int)) := by
  rw [setG, setG]
  congr 2
  apply BitVec.eq_of_toNat_eq
  rw [BitVec.toNat_ofInt, BitVec.toNat_ofInt, BitVec.toInt_eq_toNat_cond]
  split <;> push_cast <;> omega

/-- LIP's pointer, field by field. -/
theorem lipPtr_eq (imm : W32) :
    (⟨BitVec.ofNat 10 imm.toNat, BitVec.ofNat 10 imm.toNat, BitVec.ofNat 11 (bits 21 11 imm.toNat), BitVec.ofNat 8 (bits 31 24 imm.toNat)⟩ : Ptr) =
    ⟨imm.setWidth 10, imm.setWidth 10, (imm >>> 11).setWidth 11, (imm >>> 24).setWidth 8⟩ := by
  have field : ∀ lo n, BitVec.ofNat n (imm.toNat / 2 ^ lo % 2 ^ n) = (imm >>> lo).setWidth n := fun lo n => by
    apply BitVec.eq_of_toNat_eq
    rw [BitVec.toNat_ofNat, Nat.mod_mod, BitVec.toNat_setWidth, BitVec.toNat_ushiftRight, Nat.shiftRight_eq_div_pow]
  rw [BitVec.ofNat_toNat, ← field 11 11, ← field 24 8]
  rfl

/-- LIX's byte is in range where the bits above it are zero. -/
theorem lix_high (imm : W32) : (bits 31 8 imm.toNat != 0) = decide (256 ≤ imm.toNat) := by
  have h : bits 31 8 imm.toNat ≠ 0 ↔ 256 ≤ imm.toNat := by
    have := imm.isLt
    simp only [bits]
    omega
  by_cases hb : 256 ≤ imm.toNat
  · rw [decide_eq_true hb, bne_iff_ne]
    exact h.mpr hb
  · rw [decide_eq_false hb, bne_eq_false_iff_eq]
    exact not_not.mp (mt h.mp hb)

/-! ## Slots of a bundle (R79, R80) -/

section
variable {s : State} {e : Fin 64} {x : Engine} (hrun : (eng s e).ph = .running) (hx : openBundle (eng s e) = x)
include hrun hx

theorem exec_nop (last : Bool) (hdup : hasDup x.wrote = false) : exec (.nop e 0 last) s = .next (slotEnd last e (setEng s e x)) := by
  have h := slotOp_writes_regs hrun hx last (op := fun y => .unless ((0 : BitVec 64) != 0) y.r (.regs y.r [])) (r := x.r) (d := []) rfl (by rwa [List.append_nil])
  rw [List.append_nil] at h
  exact congrArg _ h

/-- A bundle whose stores are none and whose last slot is empty. -/
theorem exec_nop_goes {q : LeRegs} (hdup : hasDup x.wrote = false) (hst : x.stores = []) (hq : advance x.r x.snap.pc = q) (hpc : q.pc < 2048) :
    exec (.nop e 0 true) s = .next (setEng s e (bundleDone x q)) :=
  (exec_nop hrun hx true hdup).trans (by rw [slotEnd_last, endBundle_goes hst hq hpc])

/-- A bundle that stores one word of local memory leaves it written, and no other byte changes. -/
theorem exec_nop_store {y : Bool} {h w v : Nat} (hh : h < 2) (hw : w < 1024) (hv : v < 2 ^ 32) (hdup : hasDup x.wrote = false)
    (hst : x.stores = [(xyAddr e y h w, leBytes 4 v)]) (hend : ¬EndsAt x.r x.snap.pc) (hpc : x.snap.pc < 2047) :
    ∃ t, exec (.nop e 0 true) s = .next t ∧ xyRead t e y h w = v ∧ SameMemBut (xyAddr e y h w) 4 s t ∧ (eng t e).r = { x.r with pc := x.snap.pc + 1 } ∧
      (eng t e).stores = [] ∧ t.regs = s.regs := by
  have hq := advance_straight hend
  have hbundle : endBundle (setEng s e x) e =
      setEng (xyWrite (setEng s e x) e y h w v) e (bundleDone (eng (xyWrite (setEng s e x) e y h w v) e) { x.r with pc := x.snap.pc + 1 }) := by
    unfold endBundle
    rw [eng_setEng_self]
    dsimp only
    rw [hst, makeStores_word _ _ _ hh hw, hq, settle_inside (Nat.succ_lt_succ hpc)]
  refine ⟨_, (exec_nop hrun hx true hdup).trans (by rw [slotEnd_last, hbundle]), ?_, fun c hc => ?_, ?_, ?_, ?_⟩
  · rw [xyRead_setEng (bundleDone_wbit _ _), xyRead_xyWrite]
    exact Nat.mod_eq_of_lt hv
  · rw [mget_setEng, mget_xyWrite _ _ _ _ _ _ hc, mget_setEng]
  · rw [eng_setEng_self]
    rfl
  · rw [eng_setEng_self]
    rfl
  · rw [setEng_regs, xyWrite_regs, setEng_regs]

/-! ## Long immediates (R84) -/

section
variable {i : Instr} {op : LeRegs → Eff}

/-- A long immediate that puts its registers ends its bundle. -/
theorem exec_immediate (hwrote : x.wrote = []) (hst : x.stores = []) {r : LeRegs} (hi : exec i s = .next (liOp s e op)) (hop : op x.r = .regs r [])
    (hlc : r.lc = x.r.lc) (hend : ¬EndsAt x.r x.snap.pc) (hpc : x.snap.pc < 2047) :
    exec i s = .next (setEng s e (bundleDone x { r with pc := x.snap.pc + 1 })) := by
  have hend' : ¬EndsAt r x.snap.pc := by rwa [EndsAt, hlc]
  rw [hi, liOp, slotOp_writes_regs hrun hx true (r := r) (d := [wXY false, wXY true, wM, wC]) (by rw [hop]; rfl) (by rw [hwrote]; decide), slotEnd_last]
  exact congrArg _ (endBundle_goes hst (advance_straight hend') (Nat.succ_lt_succ hpc))

section
variable (hwrote : x.wrote = []) (hst : x.stores = []) (hend : ¬EndsAt x.r x.snap.pc) (hpc : x.snap.pc < 2047) {d : Fin 32}
include hwrote hst hend hpc

theorem exec_lid (imm : W32) :
    exec (.lid e d imm) s = .next (setEng s e (bundleDone x { setD x.r d imm.toInt with pc := x.snap.pc + 1 })) :=
  exec_immediate hrun hx hwrote hst (r := setD x.r d imm.toInt) rfl (by rw [setD_toNat]) rfl hend hpc

theorem exec_lig {g : Fin 16} (hg : g.val = d.val) (imm : W32) :
    exec (.lig e d imm) s = .next (setEng s e (bundleDone x { setG x.r g imm.toInt with pc := x.snap.pc + 1 })) := by
  refine exec_immediate hrun hx hwrote hst (r := setG x.r g imm.toInt) rfl ?_ rfl hend hpc
  rw [gNum_of_eq hg, decide_eq_false (by omega)]
  rfl

theorem exec_ligh {g : Fin 16} (hg : g.val = d.val) (imm : W32) : exec (.ligh e d imm) s =
    .next (setEng s e (bundleDone x { setG x.r g (imm.toInt * 2 ^ 32 + (x.r.g[g].toNat % 2 ^ 32 : Nat)) with pc := x.snap.pc + 1 })) := by
  refine exec_immediate hrun hx hwrote hst (r := setG x.r g _) rfl ?_ rfl hend hpc
  simp only [gNum_of_eq hg]
  rw [setG_high, decide_eq_false (by omega)]
  rfl

theorem exec_lip {k : Fin 8} (hk : k.val = d.val) {imm : W32} (hlen : bits 21 11 imm.toNat ≤ 1024) (h10 : bits 10 10 imm.toNat = 0)
    (h22 : bits 23 22 imm.toNat = 0) : exec (.lip e d imm) s = .next (setEng s e (bundleDone x
      { setPtr x.r k ⟨imm.setWidth 10, imm.setWidth 10, (imm >>> 11).setWidth 11, (imm >>> 24).setWidth 8⟩ with pc := x.snap.pc + 1 })) := by
  refine exec_immediate hrun hx hwrote hst (r := setPtr x.r k _) rfl ?_ rfl hend hpc
  have hlegal : (decide (7 < d.val) || decide (1024 < bits 21 11 imm.toNat) || bits 10 10 imm.toNat != 0 || bits 23 22 imm.toNat != 0) = false := by
    rw [decide_eq_false (by omega), decide_eq_false (Nat.not_lt.mpr hlen), h10, h22]
    rfl
  dsimp only
  rw [hlegal, lipPtr_eq, pNum_of_eq hk.symm]
  rfl

theorem exec_lix {k : Fin 8} (hk : k.val = d.val) {imm : W32} (himm : imm.toNat < 256) :
    exec (.lix e d imm) s = .next (setEng s e (bundleDone x { setEx x.r k imm.toInt with pc := x.snap.pc + 1 })) := by
  refine exec_immediate hrun hx hwrote hst (r := setEx x.r k _) rfl ?_ rfl hend hpc
  have hint : imm.toInt = imm.toNat := by
    rw [BitVec.toInt_eq_toNat_cond, if_pos (by omega)]
  rw [lix_high, decide_eq_false (by omega), decide_eq_false (Nat.not_le.mpr himm), Nat.mod_eq_of_lt himm, pNum_of_eq hk.symm, hint]
  rfl

end

/-- A long immediate in a form that R80 makes illegal. -/
theorem exec_immediate_refused (hi : exec i s = .next (liOp s e op)) {c : Bool} {f : Eff} (hop : op x.r = .unless c x.r f) (hc : c = true) :
    exec i s = .next (engineFault (setEng s e { x with issued := x.issued + 1 }) e x.task x.snap.pc .illegal) := by
  subst hc
  rw [hi, liOp, slotOp_illegal hrun hx true (r := x.r) (d := [wXY false, wXY true, wM, wC]) (by rw [hop]; rfl)]

/-- A long immediate beside another slot. -/
theorem exec_immediate_beside (hi : exec i s = .next (liOp s e op)) (h : ∃ q ∈ x.wrote, 100 ≤ q ∧ q < 104) :
    exec i s = .next (engineFault (setEng s e { x with issued := x.issued + 1 }) e x.task x.snap.pc .illegal) := by
  obtain ⟨q, hq, hlo, hhi⟩ := h
  have hslot : q ∈ [wXY false, wXY true, wM, wC] := by
    have hcases : q = 100 ∨ q = 101 ∨ q = 102 ∨ q = 103 := by omega
    simpa [wXY, wM, wC, b2n] using hcases
  rw [hi, liOp, slotOp_double hrun hx true _ rfl (hasDup_of_mem hq (List.mem_append_right _ hslot))]

end

end

/-! ## The settled statement -/

/-- Settles O36: where a bundle goes on, its stores, the window, double writes, and each long immediate by the register that it puts. -/
theorem bundlesAndLongImmediates : Obligations.BundlesAndLongImmediates := by
  unfold Obligations.BundlesAndLongImmediates
  intro s e hrun x pc illegal goes
  have hx : openBundle (eng s e) = x := rfl
  have noEnd : ∀ p, (∀ k : Fin 2, x.r.lc[k].active = true → x.r.lc[k].stop ≠ p) → ¬EndsAt x.r p := fun p h ⟨k, hact, hstop⟩ => h k hact hstop
  have idle : (∀ k : Fin 2, x.r.lc[k].active = false) → ¬EndsAt x.r pc := fun h ⟨k, hact, _⟩ => Bool.false_ne_true ((h k).symm.trans hact)
  refine ⟨fun v last hv => exec_refused hrun hx last rfl rfl (bne_iff_ne.mpr hv), exec_nop hrun hx false, fun hdup hst => ⟨fun hpc hno => ?_, fun hpc hno => ?_, ?_⟩,
    rotate_window, fun y h w v hh hw hv hdup hst hpc hno => ?_, fun d a b last hmem => ?_, fun d imm hwrote hst hpc hno hseq => ?_,
    fun d imm h => exec_immediate_beside hrun hx rfl h⟩
  · exact exec_nop_goes hrun hx hdup hst (advance_straight (noEnd pc hno)) (Nat.succ_lt_succ hpc)
  · have hadv : advance x.r x.snap.pc = { x.r with pc := pc + 1 } := advance_straight (noEnd pc hno)
    refine ⟨bundleDone x (advance x.r x.snap.pc), rfl, (exec_nop hrun hx true hdup).trans (congrArg _ ?_)⟩
    rw [slotEnd_last, endBundle_past hst (by rw [hadv, hpc])]
  · intro k hact hstop hother hstart hpc turned l
    refine exec_nop_goes hrun hx hdup hst (advance_loop (loopAt_eq_some hact hstop hother)) ?_
    split
    · exact Nat.succ_lt_succ hpc
    · exact hstart
  · exact exec_nop_store hrun hx hh hw hv hdup hst (idle hno) hpc
  · have hwrote : hasDup (x.wrote ++ [wC, wD d]) = true := by
      rcases hmem with hmem | hmem <;> exact hasDup_of_mem hmem (by simp)
    exact ⟨congrArg _ (slotOp_double hrun hx last _ rfl hwrote), congrArg _ (slotOp_double hrun hx last _ rfl hwrote)⟩
  · have hend := idle hno
    have refused := fun {i op} hi {c f} => @exec_immediate_refused s e x hrun hx i op hi c f
    refine ⟨exec_lid hrun hx hwrote hst hend hpc imm, fun g hg => ⟨exec_lig hrun hx hwrote hst hend hpc hg imm, exec_ligh hrun hx hwrote hst hend hpc hg imm⟩,
      fun hd => ⟨refused rfl rfl (decide_eq_true hd), refused rfl rfl (decide_eq_true hd)⟩,
      fun k hk => ⟨exec_lip hrun hx hwrote hst hend hpc hk, exec_lix hrun hx hwrote hst hend hpc hk⟩, fun hbad => refused rfl rfl ?_, fun hbad => refused rfl rfl ?_⟩
    · simpa [or_assoc] using hbad
    · rw [lix_high, ← Bool.decide_or]
      exact decide_eq_true hbad

end Sys2Proof.Machine
end

section
/-! PROOFS. Commands that write a register of a page and end with an event of it: where they are performed, and what their end leaves (R12, R256, R370, R407). -/

namespace Sys2Proof.Machine

/-! ## Registers of one page -/

/-- A master that reaches a page at a register other than the boot command reaches it at every register (R370, R396, R412). -/
theorem CanReach.samePage {m : Master} {s : State} {k j : Nat} (h : CanReach m s k) (hp : j / 0x1000 = k / 0x1000) (hk : k ≠ Reg.BOOT_CMD_OP.addr) :
    CanReach m s j := by
  obtain ⟨hmapped, hreach, hdiag⟩ := h
  exact ⟨hp ▸ hmapped, hp ▸ hreach, fun hm => .inl ((hdiag hm).resolve_right hk)⟩

/-- A register whose fields take no plain write keeps its value (R12, R13). -/
theorem newValue_of_unwritten {rows : List RegRow} (h : ∀ r ∈ rows, r.lo ≤ r.hi ∧ (r.acc = .own ∨ r.acc = .rsv ∨ r.acc = .ro)) (lk : Bool) (old w : Nat) :
    newValue lk rows old w = old := by
  refine List.foldlRecOn rows _ (motive := fun v => v = old) rfl fun v hv r hr => ?_
  obtain ⟨hle, hacc⟩ := h r hr
  have keeps : (rowWrite lk old w r).1 = bits r.hi r.lo old := by
    rcases hacc with hacc | hacc | hacc <;> simp [rowWrite, hacc]
  rw [hv, keeps, setBits_bits_self _ _ _ hle]

/-- A plain write of a register whose fields take none changes only the page's logs and the MSI-X pending bits. -/
theorem plainWrite_unwritten {k : Nat} (h : ∀ r ∈ rowsAt k, r.lo ≤ r.hi ∧ (r.acc = .own ∨ r.acc = .rsv ∨ r.acc = .ro)) (hk : 0x40 ≤ k % 0x1000)
    (hx : k < 0xB1800) (s : State) (m : Master) (w : Nat) : SameRegsBut (sideKeys k) s (plainWrite s m k w) := by
  intro j hj
  by_cases he : j = k
  · rw [he, rdw_plainWrite_self _ _ _ _ hk (by omega) (by omega), newValue_of_unwritten h, Nat.mod_eq_of_lt (rdw_lt s k)]
  · exact rdw_plainWrite _ _ _ _ he hj

theorem SameRegsBut.trans {l : List Nat} {s t u : State} (h : SameRegsBut l s t) (k : SameRegsBut l t u) : SameRegsBut l s u :=
  fun j hj => (k j hj).trans (h j hj)

theorem SameRegsBut.rd {l : List Nat} {s t : State} (h : SameRegsBut l s t) (f : Fld) (hf : f.addr ∉ l) : rd t f = rd s f := by
  rw [Machine.rd, h _ hf, Machine.rd]

theorem SameRegsBut.on {l : List Nat} {s t : State} (h : SameRegsBut l s t) (f : Fld) (hf : f.addr ∉ l) : on t f = on s f := by
  rw [Machine.on, h.rd f hf, Machine.on]

theorem rdw_congr {s t : State} (h : t.regs = s.regs) (k : Nat) : rdw t k = rdw s k := by rw [rdw, h, rdw]

theorem rd_congr {s t : State} (h : t.regs = s.regs) (f : Fld) : rd t f = rd s f := by rw [rd, rdw_congr h, rd]

/-! ## Commands that the pair shares (R256) -/

/-- A command whose word names it, at a unit that takes it. -/
theorem pairOp_kept {s : State} {k : Nat} (m : Master) (w : W32) {ok : Bool} (f : State → State) (h : CanReach m s k) (hr : roleBars s m = false)
    (hok : ok = true) : ∃ u, Written k s u ∧ Kept (f u) (pairOp s m k w ok f) := by
  subst hok
  exact pairActionWith_kept m w _ _ h hr

/-- `t` is `v` once a command has ended: an event of its page and the items kept for the mirror record are all that may differ. -/
structure Ended (v t : State) : Prop where
  mem : t.mem = v.mem
  axes : t.axes = v.axes
  mots : t.mots = v.mots
  motRec : t.motRec = v.motRec
  camPend : t.camPend = v.camPend
  regs : ∀ k, 0x40 ≤ k % 0x1000 → k ≠ 0xB1C00 → rdw t k = rdw v k

theorem Kept.ended {v t : State} (h : Kept v t) : Ended v t := by
  have hregs := h.rdw
  obtain ⟨l, rfl⟩ := h
  rw [noteItems_shape] at hregs ⊢
  exact ⟨rfl, rfl, rfl, rfl, rfl, fun k _ _ => hregs k⟩

theorem Ended.of_raise {v t : State} {p b : Nat} (h : Ended (raise v p b) t) : Ended v t :=
  ⟨by simp [h.mem], by simp [h.axes], by simp [h.mots], by simp [h.motRec], by simp [h.camPend],
    fun k hk hb => (h.regs k hk hb).trans (rdw_raise_aside ⟨hb, .inl hk⟩ _ _)⟩

section
variable {v t : State} (h : Ended v t)
include h

theorem Ended.rd (f : Fld) (hf : 0x40 ≤ f.addr % 0x1000) (hb : f.addr ≠ 0xB1C00) : Machine.rd t f = Machine.rd v f := by
  rw [Machine.rd, h.regs _ hf hb, Machine.rd]

theorem Ended.axis (a : Nat) : Machine.axis t a = Machine.axis v a := by rw [Machine.axis, h.axes, Machine.axis]

theorem Ended.mot (c : Nat) : Machine.mot t c = Machine.mot v c := by rw [Machine.mot, h.mots, Machine.mot]

theorem Ended.motWord (c b i : Nat) : Machine.motWord t c b i = Machine.motWord v c b i := by rw [Machine.motWord, h.motRec, Machine.motWord]

end

/-- An error logged in a page shows in its log whatever the unit keeps for the mirror record. -/
theorem Kept.errlog_valid {v t : State} {p c : Nat} {m : Master} {o : Nat} (h : Kept (errlog v p c m o) t) (hc : c < 16) :
    Machine.on t (Reg.HDR_ERRLOG_VALID p) = true := (h.on _).trans (Machine.errlog_valid v p c m o hc)

end Sys2Proof.Machine
end

section
/-! PROOFS. The axis parameter area, its window, and LOAD, MARK and NOTCH (R110, R121, R122, R143, R145, R147). -/

namespace Sys2Proof.Machine

/-! ## What a command of the AXIS page goes by -/

/-- The registers that the commands of the AXIS page read, their own apart. -/
def axisKeys : List Nat := [Reg.AXIS_SEL.addr, Reg.AXIS_NOTCHF.addr, Reg.AXIS_NOTCHW.addr, Reg.AXIS_AREA.addr, Reg.CYC_PERIOD_NS.addr]

/-- `u` shows a command of the AXIS page what `s` does. -/
structure AxisView (s u : State) : Prop where
  wire : RegsWire s u
  regs : ∀ k ∈ axisKeys, rdw u k = rdw s k

theorem Written.axisView {k : Nat} {s u : State} (h : Written k s u) (hk : ∀ j ∈ axisKeys, j ∉ cmdKeys k) : AxisView s u :=
  ⟨h.1, fun j hj => h.2 j (hk j hj)⟩

theorem recAddr_congr {s t : State} (h : rdw t Reg.AXIS_AREA.addr = rdw s Reg.AXIS_AREA.addr) (a b i : Nat) : recAddr t a b i = recAddr s a b i :=
  congrArg (fun w => cistAddr (bits 2 0 w * 0x100000 + 1024 * a + 512 * b + 4 * i)) h

theorem recWord_congr {s t : State} (hmem : t.mem = s.mem) (h : rdw t Reg.AXIS_AREA.addr = rdw s Reg.AXIS_AREA.addr) (a b i : Nat) :
    recWord t a b i = recWord s a b i := by rw [recWord, recAddr_congr h, mnum_eq_of_mem hmem, ← recWord]

section
variable {s u : State} (h : AxisView s u)
include h

theorem AxisView.rd (f : Fld) (hf : f.addr ∈ axisKeys) : Machine.rd u f = Machine.rd s f := by rw [Machine.rd, h.regs _ hf, Machine.rd]

theorem AxisView.on (f : Fld) (hf : f.addr ∈ axisKeys) : Machine.on u f = Machine.on s f := by rw [Machine.on, h.rd f hf, Machine.on]

theorem AxisView.axis (a : Nat) : Machine.axis u a = Machine.axis s a := by rw [Machine.axis, h.wire.axes, Machine.axis]

theorem AxisView.recAddr (a b i : Nat) : Machine.recAddr u a b i = Machine.recAddr s a b i := recAddr_congr (h.regs _ (by decide)) a b i

theorem AxisView.domOn (d : Nat) : Machine.domOn u d = Machine.domOn s d := domOn_congr h.wire.pwr d

theorem AxisView.winOpen : Machine.winOpen u = Machine.winOpen s := by rw [Machine.winOpen, h.domOn, h.on _ (by decide), ← Machine.winOpen]

theorem AxisView.notchBurst (w : W32) : Machine.notchBurst u w = Machine.notchBurst s w := by
  have hperiod : period u = period s := h.rd _ (by decide)
  simp only [Machine.notchBurst, h.rd Reg.AXIS_NOTCHF_FREQ (by decide), h.rd Reg.AXIS_NOTCHW_WIDTH (by decide), h.rd Reg.AXIS_NOTCHW_DEPTH (by decide),
    hperiod, h.regs Reg.AXIS_NOTCHF.addr (by decide), h.regs Reg.AXIS_NOTCHW.addr (by decide)]

theorem AxisView.wr_result (v : Nat) : AxisView s (wr u Reg.AXIS_CMD_RESULT v) :=
  ⟨h.wire.trans (RegsWire.wr _ _ _), fun k hk => (rdw_wr_other _ _ _ (by rintro rfl; revert hk; decide)).trans (h.regs k hk)⟩

end

/-- RESULT of an AXIS command, once the command has ended. -/
theorem Ended.axisResult {v t : State} {r : Nat} (h : Ended (wr v Reg.AXIS_CMD_RESULT r) t) (hr : r < 8) : Machine.rd t Reg.AXIS_CMD_RESULT = r := by
  rw [h.rd _ (by decide) (by decide), rd_wr_self _ _ _ (by decide) (by decide)]
  exact Nat.mod_eq_of_lt hr

/-! ## The area (R110) -/

theorem rowsAt_axisArea : ∀ r ∈ rowsAt Reg.AXIS_AREA.addr, r.lo ≤ r.hi ∧ (r.acc = .own ∨ r.acc = .rsv ∨ r.acc = .ro) := by decide

theorem anyAxisRuns_congr {s t : State} (hmem : t.mem = s.mem) (haxes : t.axes = s.axes) (h : rdw t Reg.AXIS_AREA.addr = rdw s Reg.AXIS_AREA.addr) :
    anyAxisRuns t = anyAxisRuns s := by
  have hen : on t Reg.AXIS_AREA_EN = on s Reg.AXIS_AREA_EN := congrArg (fun w => bits 31 31 w == 1) h
  simp only [anyAxisRuns, hen, cfgBit, actWord, axis, haxes, recWord_congr hmem h]

/-- The first `n` blocks from `b` on become engine-owned and PRIVATE. -/
def areaHeld (s : State) (b n : Nat) : State :=
  (List.range n).foldl (fun s i => let x := blk s (b + i); setBlk s (b + i) { x with flt := 2, priv := true, prev := x.flt }) s

theorem areaHeld_succ (s : State) (b n : Nat) : areaHeld s b (n + 1) =
    setBlk (areaHeld s b n) (b + n) { blk (areaHeld s b n) (b + n) with flt := 2, priv := true, prev := (blk (areaHeld s b n) (b + n)).flt } := by
  rw [areaHeld, List.range_succ, List.foldl_append]
  rfl

theorem areaHeld_shape (s : State) (b n : Nat) : areaHeld s b n = { s with cist := (areaHeld s b n).cist } := by
  induction n with
  | zero => rfl
  | succ n ih =>
    rw [areaHeld_succ, ih]
    rfl

theorem areaHeld_held (s : State) (b : Nat) {i n : Nat} (hi : i < n) : flt (areaHeld s b n) (b + i) = 2 ∧ (blk (areaHeld s b n) (b + i)).priv = true := by
  induction n with
  | zero => exact absurd hi (Nat.not_lt_zero i)
  | succ n ih =>
    rw [areaHeld_succ, flt]
    rcases Nat.lt_succ_iff_lt_or_eq.mp hi with hlt | rfl
    · rw [blk_setBlk_other _ _ _ (by omega), ← flt]
      exact ih hlt
    · rw [blk_setBlk_self]
      exact ⟨rfl, rfl⟩

/-- The area put in force holds its blocks while CIST is ON. -/
theorem holdArea_inForce {s : State} (he : on s Reg.AXIS_AREA_EN = true) (hc : domOn s dCIST = true) :
    holdArea s = areaHeld s (4096 * rd s Reg.AXIS_AREA_SLICE) 4096 := if_pos ⟨he, hc⟩

theorem holdArea_off {s : State} (he : on s Reg.AXIS_AREA_EN = false) : holdArea s = s := if_neg (by simp [he])

theorem holdArea_shape (s : State) : holdArea s = { s with cist := (holdArea s).cist } := by
  by_cases h : on s Reg.AXIS_AREA_EN ∧ domOn s dCIST
  · rw [holdArea_inForce h.1 h.2]
    exact areaHeld_shape _ _ _
  · rw [holdArea, if_neg h]

theorem holdArea_mem (s : State) : (holdArea s).mem = s.mem := by rw [holdArea_shape]

theorem rd_holdArea (s : State) (f : Fld) : rd (holdArea s) f = rd s f := by
  rw [holdArea_shape]
  rfl

/-- EN and SLICE as AXIS.AREA is written. -/
def areaSet (w : W32) (s : State) : State := wrs s [(Reg.AXIS_AREA_EN, wbits Reg.AXIS_AREA_EN w), (Reg.AXIS_AREA_SLICE, wbits Reg.AXIS_AREA_SLICE w)]

theorem areaSet_fields (w : W32) (s : State) : rd (areaSet w s) Reg.AXIS_AREA_EN = wbits Reg.AXIS_AREA_EN w ∧
    rd (areaSet w s) Reg.AXIS_AREA_SLICE = wbits Reg.AXIS_AREA_SLICE w := by
  have hcut : ∀ f : Fld, wbits f w % 2 ^ (f.hi + 1 - f.lo) = wbits f w := fun f => Nat.mod_mod _ _
  simp only [areaSet, wrs, List.foldl_cons, List.foldl_nil]
  constructor
  · rw [rd_wr_disj _ _ _ _ (by decide) (by decide) (by decide) (by decide), rd_wr_self _ _ _ (by decide) (by decide)]
    exact hcut _
  · rw [rd_wr_self _ _ _ (by decide) (by decide)]
    exact hcut _

section
variable {m : Master} {w : W32} {s : State} (hm : CanReach m s Reg.AXIS_AREA.addr)
include hm

/-- AXIS_AREA_WRITE as its word has been written, which leaves AREA as it was. -/
theorem exec_axisAreaWrite : ∃ u, RegsWire s u ∧ SameRegsBut (sideKeys Reg.AXIS_AREA.addr) s u ∧ exec (.axisAreaWrite m w) s = .next (
    if locked s 0x80 = true then
      (if rd s Reg.AXIS_AREA_EN = wbits Reg.AXIS_AREA_EN w ∧ rd s Reg.AXIS_AREA_SLICE = wbits Reg.AXIS_AREA_SLICE w then u
       else errlog u 0x80 3 m Reg.AXIS_AREA.addr)
    else if anyAxisRuns s = true then errlog u 0x80 7 m Reg.AXIS_AREA.addr
    else holdArea (areaSet w u)) := by
  have hwire := plainWrite_shape s m Reg.AXIS_AREA.addr w.toNat
  have hregs := plainWrite_unwritten rowsAt_axisArea (by decide) (by decide) s m w.toNat
  refine ⟨_, hwire, hregs, congrArg Host.Outcome.next ((regAction_open w _ hm).trans ?_)⟩
  have hlock : locked (plainWrite s m Reg.AXIS_AREA.addr w.toNat) 0x80 = locked s 0x80 := hregs.on _ (by decide)
  rw [hlock, hregs.rd Reg.AXIS_AREA_EN (by decide), hregs.rd Reg.AXIS_AREA_SLICE (by decide),
    anyAxisRuns_congr hwire.mem hwire.axes (hregs _ (by decide)), ← areaSet]

/-- AREA is taken while the page is unlocked and no axis runs. -/
theorem axisAreaWrite_taken (hl : locked s 0x80 = false) (hrun : anyAxisRuns s = false) : ∃ t, exec (.axisAreaWrite m w) s = .next t ∧ t.mem = s.mem ∧
    rd t Reg.AXIS_AREA_EN = wbits Reg.AXIS_AREA_EN w ∧ rd t Reg.AXIS_AREA_SLICE = wbits Reg.AXIS_AREA_SLICE w ∧
    (wbits Reg.AXIS_AREA_EN w = 1 → domOn s dCIST = true → ∀ i, i < 4096 →
      flt t (4096 * wbits Reg.AXIS_AREA_SLICE w + i) = 2 ∧ (blk t (4096 * wbits Reg.AXIS_AREA_SLICE w + i)).priv = true) ∧
    (wbits Reg.AXIS_AREA_EN w = 0 → t.cist = s.cist) := by
  obtain ⟨u, hwire, -, hexec⟩ := exec_axisAreaWrite (w := w) hm
  rw [hl, hrun, if_neg (by decide), if_neg (by decide)] at hexec
  obtain ⟨hen, hslice⟩ := areaSet_fields w u
  have hset : (areaSet w u).mem = s.mem ∧ (areaSet w u).pwr = s.pwr ∧ (areaSet w u).cist = s.cist := by
    rw [areaSet, wrs_shape]
    exact ⟨hwire.mem, hwire.pwr, hwire.cist⟩
  obtain ⟨hmem, hpwr, hcist⟩ := hset
  refine ⟨_, hexec, (holdArea_mem _).trans hmem, (rd_holdArea _ _).trans hen, (rd_holdArea _ _).trans hslice, fun hone hc i hi => ?_, fun hzero => ?_⟩
  · rw [holdArea_inForce (by rw [on, hen, hone]; rfl) ((domOn_congr hpwr _).trans hc), hslice]
    exact areaHeld_held _ _ hi
  · rw [holdArea_off (by rw [on, hen, hzero]; rfl), hcist]

/-- AREA is not taken while an axis runs, nor changed while the page is locked: the write is logged. -/
theorem axisAreaWrite_refused (h : (locked s 0x80 = false ∧ anyAxisRuns s = true) ∨ (locked s 0x80 = true ∧
      ¬(rd s Reg.AXIS_AREA_EN = wbits Reg.AXIS_AREA_EN w ∧ rd s Reg.AXIS_AREA_SLICE = wbits Reg.AXIS_AREA_SLICE w))) :
    ∃ t, exec (.axisAreaWrite m w) s = .next t ∧ RegsWire s t ∧ SameRegsBut (sideKeys Reg.AXIS_AREA.addr) s t ∧ on t (Reg.HDR_ERRLOG_VALID 0x80) = true := by
  obtain ⟨u, hwire, hregs, hexec⟩ := exec_axisAreaWrite (w := w) hm
  have logged : ∀ c, c < 16 → RegsWire s (errlog u 0x80 c m Reg.AXIS_AREA.addr) ∧
      SameRegsBut (sideKeys Reg.AXIS_AREA.addr) s (errlog u 0x80 c m Reg.AXIS_AREA.addr) ∧ on (errlog u 0x80 c m Reg.AXIS_AREA.addr) (Reg.HDR_ERRLOG_VALID 0x80) = true :=
    fun c hc => ⟨hwire.trans (errlog_shape _ _ _ _ _), hregs.trans (errlog_sameRegsBut u Reg.AXIS_AREA.addr c m _), errlog_valid _ _ _ _ _ hc⟩
  rcases h with ⟨hl, hrun⟩ | ⟨hl, hdiff⟩
  · rw [hl, hrun, if_neg (by decide), if_pos rfl] at hexec
    exact ⟨_, hexec, logged 7 (by decide)⟩
  · rw [hl, if_pos rfl, if_neg hdiff] at hexec
    exact ⟨_, hexec, logged 3 (by decide)⟩

end

end Sys2Proof.Machine
end

section
/-! PROOFS. The axis window and LOAD, MARK and NOTCH, and the settled statement on the axis parameter area (R121, R122, R143, R145, R147). -/

namespace Sys2Proof.Machine

/-! ## Words of a shadow record (R110, R143) -/

/-- Address of word `i` of the shadow record of axis `a`. -/
def shadowAddr (s : State) (a i : Nat) : Nat := recAddr s a (1 - b2n (axis s a).act) i

/-- A record's 512 bytes stand in one piece of the cistern. -/
theorem recAddr_word (s : State) (a b : Nat) {i : Nat} (hi : i < 128) : recAddr s a b i = recAddr s a b 0 + 4 * i := by
  simp only [recAddr, cistAddr]
  omega

theorem withdrawAxis_uncommitted {s : State} (h : s.commit = none) (a : Nat) : withdrawAxis s a = s := by rw [withdrawAxis, h]

section
variable {s : State} (h : s.commit = none)
include h

theorem writeRec_uncommitted (a i v : Nat) : writeRec s a i v = setAxis (msetNum s (shadowAddr s a i) 4 v) a { axis s a with pend := true } := by
  rw [writeRec, withdrawAxis_uncommitted h]
  rfl

theorem writeRec_regs (a i v : Nat) : (writeRec s a i v).regs = s.regs := by
  rw [writeRec_uncommitted h, setAxis_regs, msetNum_regs]

theorem writeRec_commit (a i v : Nat) : (writeRec s a i v).commit = none := by
  rw [writeRec_uncommitted h, setAxis_commit, msetNum_commit, h]

theorem axis_writeRec (a i v : Nat) : axis (writeRec s a i v) a = { axis s a with pend := true } := by
  rw [writeRec_uncommitted h, axis_setAxis_self]

theorem mget_writeRec_other (a i v : Nat) {c : Nat} (hc : c < shadowAddr s a i ∨ shadowAddr s a i + 4 ≤ c) : mget (writeRec s a i v) c = mget s c := by
  rw [writeRec_uncommitted h, mget_congr (setAxis_mem ..), mget_msetNum_other _ _ _ _ _ hc]

theorem mnum_writeRec_self (a i v : Nat) : mnum (writeRec s a i v) (shadowAddr s a i) 4 = v % 2 ^ 32 := by
  rw [writeRec_uncommitted h, mnum_eq_of_mem (setAxis_mem ..), mnum_msetNum_self]
  norm_num

theorem shadowAddr_writeRec (a i v j : Nat) : shadowAddr (writeRec s a i v) a j = shadowAddr s a j := by
  rw [shadowAddr, axis_writeRec h, recAddr_congr (rdw_congr (writeRec_regs h ..) _), ← shadowAddr]

end

/-- Several words of the shadow record of axis `a` are written, in order. -/
def writeRecs (s : State) (a : Nat) (l : List (Nat × Nat)) : State := l.foldl (fun t e => writeRec t a e.1 e.2) s

theorem writeRecs_cons (s : State) (a : Nat) (e : Nat × Nat) (r : List (Nat × Nat)) : writeRecs s a (e :: r) = writeRecs (writeRec s a e.1 e.2) a r := by
  rw [writeRecs, List.foldl_cons, ← writeRecs]

/-- The axis that SEL names stays the same under the writes of its record. -/
theorem foldl_writeRec_sel (l : List (Nat × Nat)) {s : State} (h : s.commit = none) {a : Nat} (ha : rd s Reg.AXIS_SEL_AXIS = a) :
    l.foldl (fun t e => writeRec t (rd t Reg.AXIS_SEL_AXIS) e.1 e.2) s = writeRecs s a l := by
  induction l generalizing s with
  | nil => rw [writeRecs, List.foldl_nil, List.foldl_nil]
  | cons e r ih =>
    rw [List.foldl_cons, writeRecs_cons, ha]
    exact ih (writeRec_commit h _ _ _) ((rd_congr (writeRec_regs h ..) _).trans ha)

theorem writeRecs_regs (a : Nat) (l : List (Nat × Nat)) {s : State} (h : s.commit = none) : (writeRecs s a l).regs = s.regs := by
  induction l generalizing s with
  | nil => rfl
  | cons e r ih => rw [writeRecs_cons, ih (writeRec_commit h _ _ _), writeRec_regs h]

theorem axis_writeRecs (a : Nat) {l : List (Nat × Nat)} (hl : l ≠ []) {s : State} (h : s.commit = none) :
    axis (writeRecs s a l) a = { axis s a with pend := true } := by
  induction l generalizing s with
  | nil => exact absurd rfl hl
  | cons e r ih =>
    rw [writeRecs_cons]
    by_cases hr : r = []
    · rw [hr]
      exact axis_writeRec h _ _ _
    · rw [ih hr (writeRec_commit h _ _ _), axis_writeRec h]

/-- Words of a record are written into its 512 bytes alone. -/
theorem mget_writeRecs_outside (a : Nat) (l : List (Nat × Nat)) (hl : ∀ e ∈ l, e.1 < 128) {s : State} (h : s.commit = none) :
    SameMemBut (shadowAddr s a 0) 512 s (writeRecs s a l) := by
  intro c hc
  induction l generalizing s with
  | nil => rfl
  | cons e r ih =>
    obtain ⟨he, hrest⟩ := List.forall_mem_cons.mp hl
    have hat : shadowAddr s a e.1 = shadowAddr s a 0 + 4 * e.1 := recAddr_word _ _ _ he
    rw [writeRecs_cons, ih hrest (writeRec_commit h _ _ _) (by rwa [shadowAddr_writeRec h]),
      mget_writeRec_other h _ _ _ (by omega)]

/-- A word of the record that is not among those written stands as it did. -/
theorem mnum_writeRecs_other (a : Nat) {l : List (Nat × Nat)} (hl : ∀ e ∈ l, e.1 < 128) {i : Nat} (hi : i < 128) (hne : ∀ e ∈ l, e.1 ≠ i) {s : State}
    (h : s.commit = none) : mnum (writeRecs s a l) (shadowAddr s a i) 4 = mnum s (shadowAddr s a i) 4 := by
  induction l generalizing s with
  | nil => rfl
  | cons e r ih =>
    obtain ⟨he, hrest⟩ := List.forall_mem_cons.mp hl
    obtain ⟨hei, hner⟩ := List.forall_mem_cons.mp hne
    have hat : shadowAddr s a e.1 = shadowAddr s a 0 + 4 * e.1 := recAddr_word _ _ _ he
    have hit : shadowAddr s a i = shadowAddr s a 0 + 4 * i := recAddr_word _ _ _ hi
    have hstep := ih hrest hner (writeRec_commit h a e.1 e.2)
    rw [shadowAddr_writeRec h] at hstep
    rw [writeRecs_cons, hstep]
    exact mnum_congr fun j hj => mget_writeRec_other h _ _ _ (by omega)

/-- A word that is written once reads back. -/
theorem mnum_writeRecs_mem (a : Nat) {l : List (Nat × Nat)} (hl : ∀ e ∈ l, e.1 < 128) (hone : (l.map Prod.fst).Nodup) {i v : Nat} (hmem : (i, v) ∈ l)
    {s : State} (h : s.commit = none) : mnum (writeRecs s a l) (shadowAddr s a i) 4 = v % 2 ^ 32 := by
  induction l generalizing s with
  | nil => exact absurd hmem List.not_mem_nil
  | cons e r ih =>
    obtain ⟨he, hrest⟩ := List.forall_mem_cons.mp hl
    obtain ⟨hnew, honer⟩ := List.nodup_cons.mp hone
    rw [writeRecs_cons, ← shadowAddr_writeRec h a e.1 e.2]
    rcases List.mem_cons.mp hmem with rfl | hr
    · rw [mnum_writeRecs_other a hrest he (fun e' he' heq => hnew (heq ▸ List.mem_map_of_mem he')) (writeRec_commit h _ _ _), shadowAddr_writeRec h,
        mnum_writeRec_self h]
    · exact ih hrest honer hr (writeRec_commit h _ _ _)

/-! ## The window (R143, R147) -/

/-- The registers of the window and CMD bear on none that the commands of the page go by. -/
theorem axisKeys_apart_win (i : Fin 128) : ∀ j ∈ axisKeys, j ∉ cmdKeys (Reg.AXIS_WIN i).addr := by
  revert i
  decide

theorem axisKeys_apart_cmd : ∀ j ∈ axisKeys, j ∉ cmdKeys Reg.AXIS_CMD.addr := by decide

/-- While AREA stands, a record's word is read at its old address once a command has ended. -/
theorem Ended.recWord {s v t : State} (h : Ended v t) (hv : rdw v Reg.AXIS_AREA.addr = rdw s Reg.AXIS_AREA.addr) (a b i : Nat) :
    Machine.recWord t a b i = mnum v (recAddr s a b i) 4 := by
  rw [Machine.recWord, recAddr_congr ((h.regs _ (by decide) (by decide)).trans hv), mnum_eq_of_mem h.mem]

theorem Ended.sameMemBut {v t s : State} (h : Ended v t) {b n : Nat} (hv : SameMemBut b n s v) : SameMemBut b n s t :=
  fun c hc => (mget_congr h.mem c).trans (hv c hc)

theorem SameMemBut.of_mem {b n : Nat} {s u v : State} (h : SameMemBut b n u v) (hu : u.mem = s.mem) : SameMemBut b n s v :=
  fun c hc => (h c hc).trans (mget_congr hu c)

section
variable {m : Master} {w : W32} {s : State} (hm : CanReach m s Reg.AXIS_CMD.addr) (hr : roleBars s m = false)
include hm hr

/-- AXIS_WINDOW_WRITE as its word has been written. -/
theorem exec_axisWindowWrite (i : Fin 128) : ∃ u t, AxisView s u ∧ exec (.axisWindowWrite m i w) s = .next t ∧
    Kept (if ¬winOpen s = true ∨ on s Reg.AXIS_SEL_VIEW = true then errlog u 0x80 7 m (Reg.AXIS_WIN i).addr
      else writeRec u (rd s Reg.AXIS_SEL_AXIS) i w.toNat) t := by
  have hpage : (Reg.AXIS_WIN i).addr / 0x1000 = Reg.AXIS_CMD.addr / 0x1000 := by
    simp only [Reg.AXIS_WIN, Reg.AXIS_CMD]
    omega
  obtain ⟨u, hu, hk⟩ := pairActionWith_kept m w (fun a _ => [writeItem a (Reg.AXIS_WIN i).addr w])
    (fun s => if ¬winOpen s ∨ on s Reg.AXIS_SEL_VIEW then errlog s 0x80 7 m (Reg.AXIS_WIN i).addr else writeRec s (rd s Reg.AXIS_SEL_AXIS) i w.toNat)
    (hm.samePage hpage (by decide)) hr
  have hview := hu.axisView (axisKeys_apart_win i)
  refine ⟨u, _, hview, rfl, ?_⟩
  rw [← hview.winOpen, ← hview.on Reg.AXIS_SEL_VIEW (by decide), ← hview.rd Reg.AXIS_SEL_AXIS (by decide)]
  exact hk

/-- Through the open window one word of the shadow record is written. -/
theorem axisWindowWrite_shadow (i : Fin 128) (hcommit : s.commit = none) (hopen : winOpen s = true) (hview : on s Reg.AXIS_SEL_VIEW = false) {a : Nat}
    (ha : rd s Reg.AXIS_SEL_AXIS = a) : ∃ t, exec (.axisWindowWrite m i w) s = .next t ∧
    SameMemBut (recAddr s a (1 - b2n (axis s a).act) i) 4 s t ∧ recWord t a (1 - b2n (axis s a).act) i = w.toNat ∧ axis t a = { axis s a with pend := true } := by
  obtain ⟨u, t, hu, hexec, hk⟩ := exec_axisWindowWrite (w := w) hm hr i
  rw [hopen, hview, if_neg (by decide), ha] at hk
  have hc : u.commit = none := hu.wire.commit.trans hcommit
  have hat : shadowAddr u a i = recAddr s a (1 - b2n (axis s a).act) i := by rw [shadowAddr, hu.recAddr, hu.axis]
  have hput := mnum_writeRec_self hc a i w.toNat
  rw [hat] at hput
  refine ⟨t, hexec, hk.ended.sameMemBut (SameMemBut.of_mem (fun c h => mget_writeRec_other hc _ _ _ (by rwa [hat])) hu.wire.mem), ?_, ?_⟩
  · rw [hk.ended.recWord (s := s) ((rdw_congr (writeRec_regs hc ..) _).trans (hu.regs _ (by decide))), hput, Nat.mod_eq_of_lt w.isLt]
  · rw [hk.ended.axis, axis_writeRec hc, hu.axis]

/-- Through the view of the active record nothing is written. -/
theorem axisWindowWrite_active (i : Fin 128) (hview : on s Reg.AXIS_SEL_VIEW = true) : ∃ t, exec (.axisWindowWrite m i w) s = .next t ∧ t.mem = s.mem ∧
    t.axes = s.axes ∧ on t (Reg.HDR_ERRLOG_VALID 0x80) = true := by
  obtain ⟨u, t, hu, hexec, hk⟩ := exec_axisWindowWrite (w := w) hm hr i
  rw [if_pos (.inr hview)] at hk
  have hlog := hu.wire.trans (errlog_shape u 0x80 7 m (Reg.AXIS_WIN i).addr)
  exact ⟨t, hexec, hk.ended.mem.trans hlog.mem, hk.ended.axes.trans hlog.axes, hk.errlog_valid (by decide)⟩

end

/-! ## The page's commands (R145, R147) -/

theorem axisDo_performed {s : State} (f : State → State) (hc : domOn s dCIST = true) (he : on s Reg.AXIS_AREA_EN = true) :
    axisDo s f = f (wr s Reg.AXIS_CMD_RESULT 0) := by
  rw [axisDo, if_neg (not_not_intro hc), if_neg (not_not_intro he)]

theorem axisDo_refused {s : State} (f : State → State) (h : domOn s dCIST = false ∨ on s Reg.AXIS_AREA_EN = false) :
    axisDo s f = wr s Reg.AXIS_CMD_RESULT (if domOn s dCIST then 4 else 2) := by
  rw [axisDo]
  cases hc : domOn s dCIST with
  | false => rfl
  | true =>
    have he : on s Reg.AXIS_AREA_EN = false := h.resolve_left (by simp [hc])
    rw [he]
    rfl

/-- LOAD of the selected axis. -/
def loadRec (s : State) : State :=
  let a := rd s Reg.AXIS_SEL_AXIS
  let s := withdrawAxis s a
  let x := axis s a
  let b := b2n x.act
  let s := mwrite s (recAddr s a (1 - b) 0) (mread s (recAddr s a b 0) 512)
  cmdDone (setAxis s a { x with pend := false }) 0x80

/-- MARK of the selected axis. -/
def markRec (s : State) : State :=
  let a := rd s Reg.AXIS_SEL_AXIS
  cmdDone (setAxis s a { axis s a with pend := true }) 0x80

/-- NOTCH of the selected axis. -/
def notchRec (w : W32) (s : State) : State :=
  match notchBurst s w with
  | some l => cmdDone (l.foldl (fun s e => writeRec s (rd s Reg.AXIS_SEL_AXIS) e.1 e.2) s) 0x80
  | none => cmdDone (wr s Reg.AXIS_CMD_RESULT 1) 0x80

/-- The commands of the page by their codes, with what each does where it is performed. -/
inductive AxisCommand (m : Master) (w : W32) : Nat → Instr → (State → State) → Prop
  | load : AxisCommand m w 1 (.axisLoad m w) loadRec
  | mark : AxisCommand m w 2 (.mark m w) markRec
  | notch : AxisCommand m w 3 (.notch m w) (notchRec w)

section
variable {m : Master} {w : W32} {s : State} (hm : CanReach m s Reg.AXIS_CMD.addr) (hr : roleBars s m = false) {op : Nat} {i : Instr} {f : State → State}
  (hi : AxisCommand m w op i f) (hop : wbits Reg.AXIS_CMD_OP w = op)
include hm hr hi hop

/-- A command of the page as its word has been written. -/
theorem exec_axisCommand : ∃ u t, AxisView s u ∧ exec i s = .next t ∧ Kept (axisDo u f) t := by
  have view : ∀ {u}, Written Reg.AXIS_CMD.addr s u → AxisView s u := fun hu => hu.axisView axisKeys_apart_cmd
  cases hi with
  | load =>
    obtain ⟨u, hu, hk⟩ := pairOp_kept m w (ok := wbits Reg.AXIS_CMD_OP w = 1) (fun s => axisDo s loadRec) hm hr (by simp [hop])
    exact ⟨u, _, view hu, rfl, hk⟩
  | mark =>
    obtain ⟨u, hu, hk⟩ := pairOp_kept m w (ok := wbits Reg.AXIS_CMD_OP w = 2) (fun s => axisDo s markRec) hm hr (by simp [hop])
    exact ⟨u, _, view hu, rfl, hk⟩
  | notch =>
    obtain ⟨u, hu, hk⟩ := pairActionWith_kept m w (fun a _ => notchItems a w) (fun s => if wbits Reg.AXIS_CMD_OP w = 3 then axisDo s (notchRec w) else s) hm hr
    rw [if_pos hop] at hk
    exact ⟨u, _, view hu, rfl, hk⟩

/-- A command that is performed begins with RESULT 0. -/
theorem axisCommand_performed (hc : domOn s dCIST = true) (he : on s Reg.AXIS_AREA_EN = true) : ∃ u t, AxisView s (wr u Reg.AXIS_CMD_RESULT 0) ∧
    exec i s = .next t ∧ Kept (f (wr u Reg.AXIS_CMD_RESULT 0)) t := by
  obtain ⟨u, t, hu, hexec, hk⟩ := exec_axisCommand hm hr hi hop
  rw [axisDo_performed _ ((hu.domOn _).trans hc) ((hu.on _ (by decide)).trans he)] at hk
  exact ⟨u, t, hu.wr_result 0, hexec, hk⟩

/-- A command that finds CIST not ON or the area not enabled changes no record. -/
theorem axisCommand_refused (h : domOn s dCIST = false ∨ on s Reg.AXIS_AREA_EN = false) : ∃ t, exec i s = .next t ∧ t.mem = s.mem ∧ t.axes = s.axes ∧
    rd t Reg.AXIS_CMD_RESULT = if domOn s dCIST then 4 else 2 := by
  obtain ⟨u, t, hu, hexec, hk⟩ := exec_axisCommand hm hr hi hop
  have hd := hu.domOn dCIST
  rw [axisDo_refused _ (by rwa [hd, hu.on _ (by decide)]), hd] at hk
  have hres := hu.wr_result (if domOn s dCIST = true then 4 else 2)
  exact ⟨t, hexec, hk.ended.mem.trans hres.wire.mem, hk.ended.axes.trans hres.wire.axes, hk.ended.axisResult (by split <;> decide)⟩

end

theorem markRec_eq {s : State} {a : Nat} (ha : rd s Reg.AXIS_SEL_AXIS = a) : markRec s = raise (setAxis s a { axis s a with pend := true }) 0x80 3 := by
  rw [markRec, ha, cmdDone]

/-- The shadow record of axis `a` with the 512 bytes of its active record. -/
def activeCopied (s : State) (a : Nat) : State := mwrite s (shadowAddr s a 0) (mread s (recAddr s a (b2n (axis s a).act) 0) 512)

theorem loadRec_uncommitted {s : State} (h : s.commit = none) {a : Nat} (ha : rd s Reg.AXIS_SEL_AXIS = a) :
    loadRec s = raise (setAxis (activeCopied s a) a { axis s a with pend := false }) 0x80 3 := by
  rw [loadRec, ha, withdrawAxis_uncommitted h, activeCopied, shadowAddr, cmdDone]

/-- A copied byte reads as the active record's, and every byte outside the shadow record stands. -/
theorem mget_activeCopied (s : State) (a : Nat) : SameMemBut (shadowAddr s a 0) 512 s (activeCopied s a) ∧
    ∀ j, j < 512 → mget (activeCopied s a) (shadowAddr s a 0 + j) = mget s (recAddr s a (b2n (axis s a).act) 0 + j) := by
  have hlen : (mread s (recAddr s a (b2n (axis s a).act) 0) 512).length = 512 := by rw [mread, List.length_map, List.length_range]
  refine ⟨fun c hc => mget_mwrite_other _ _ _ _ (by rwa [hlen]), fun j hj => ?_⟩
  rw [activeCopied, mget_mwrite_self _ _ _ _ (by rwa [hlen])]
  simp only [mread, List.getElem_map, List.getElem_range]

section
variable {m : Master} {w : W32} {s : State} (hm : CanReach m s Reg.AXIS_CMD.addr) (hr : roleBars s m = false) (hc : domOn s dCIST = true)
  (he : on s Reg.AXIS_AREA_EN = true) {a : Nat} (ha : rd s Reg.AXIS_SEL_AXIS = a)
include hm hr hc he ha

theorem mark_performed (hop : wbits Reg.AXIS_CMD_OP w = 2) : ∃ t, exec (.mark m w) s = .next t ∧ t.mem = s.mem ∧ axis t a = { axis s a with pend := true } ∧
    rd t Reg.AXIS_CMD_RESULT = 0 := by
  obtain ⟨u, t, hu, hexec, hk⟩ := axisCommand_performed hm hr .mark hop hc he
  rw [markRec_eq ((hu.rd _ (by decide)).trans ha)] at hk
  have hend := hk.ended.of_raise
  refine ⟨t, hexec, ?_, ?_, ?_⟩
  · rw [hend.mem, setAxis_mem, hu.wire.mem]
  · rw [hend.axis, axis_setAxis_self, hu.axis]
  · rw [hend.rd _ (by decide) (by decide), rd_congr (setAxis_regs ..)]
    exact rd_wr_self _ _ _ (by decide) (by decide)

theorem axisLoad_performed (hcommit : s.commit = none) (hop : wbits Reg.AXIS_CMD_OP w = 1) : ∃ t, exec (.axisLoad m w) s = .next t ∧
    SameMemBut (recAddr s a (1 - b2n (axis s a).act) 0) 512 s t ∧
    (∀ j, j < 512 → mget t (recAddr s a (1 - b2n (axis s a).act) 0 + j) = mget s (recAddr s a (b2n (axis s a).act) 0 + j)) ∧
    axis t a = { axis s a with pend := false } ∧ rd t Reg.AXIS_CMD_RESULT = 0 := by
  obtain ⟨u, t, hu, hexec, hk⟩ := axisCommand_performed hm hr .load hop hc he
  generalize hv : wr u Reg.AXIS_CMD_RESULT 0 = v at hu hk
  have hres : rd v Reg.AXIS_CMD_RESULT = 0 := hv ▸ rd_wr_self _ _ _ (by decide) (by decide)
  rw [loadRec_uncommitted (hu.wire.commit.trans hcommit) ((hu.rd _ (by decide)).trans ha)] at hk
  have hend := hk.ended.of_raise
  have hmem : t.mem = (activeCopied v a).mem := by rw [hend.mem, setAxis_mem]
  obtain ⟨hout, hin⟩ := mget_activeCopied v a
  rw [shadowAddr, hu.recAddr, hu.axis] at hout hin
  refine ⟨t, hexec, fun c h => ?_, fun j hj => ?_, ?_, ?_⟩
  · rw [mget_congr hmem, hout c h, mget_congr hu.wire.mem]
  · rw [mget_congr hmem, hin j hj, hu.recAddr, mget_congr hu.wire.mem]
  · rw [hend.axis, axis_setAxis_self, hu.axis]
  · rw [hend.rd _ (by decide) (by decide), rd_congr (setAxis_regs ..), activeCopied, rd_congr (mwrite_regs ..), hres]

end

/-! ## NOTCH (R121, R122) -/

theorem notchOk_iff {f n d t : Nat} : notchOk f n d t = true ↔ 100 ≤ f ∧ f * t ≤ 4500000000 ∧ 10 ≤ n ∧ n ≤ 2 * f ∧ d ≤ 240 := by
  simp only [notchOk, Bool.and_eq_true, decide_eq_true_eq, and_assoc]

/-- The parameters of the notch that NOTCH would form are within their limits. -/
def notchFits (s : State) : Bool := notchOk (rd s Reg.AXIS_NOTCHF_FREQ) (rd s Reg.AXIS_NOTCHW_WIDTH) (rd s Reg.AXIS_NOTCHW_DEPTH) (period s)

/-- The five words of the notch that NOTCH forms. -/
def notchFormed (s : State) : List Int :=
  notchWords (rd s Reg.AXIS_NOTCHF_FREQ) (rd s Reg.AXIS_NOTCHW_WIDTH) (rd s Reg.AXIS_NOTCHW_DEPTH) (period s)

/-- The words that NOTCH writes, with their places in the record. -/
def notchPlaced (s : State) (w : W32) : List (Nat × Nat) :=
  ((notchFormed s).zip (List.range 5)).map (fun e => (18 + 5 * wbits Reg.AXIS_CMD_INDEX w + e.2, unsgn 32 e.1)) ++
    [(38 + 2 * wbits Reg.AXIS_CMD_INDEX w, rdw s Reg.AXIS_NOTCHF.addr), (39 + 2 * wbits Reg.AXIS_CMD_INDEX w, rdw s Reg.AXIS_NOTCHW.addr), (2, period s)]

theorem notchBurst_eq (s : State) (w : W32) : notchBurst s w = if notchFits s = true then some (notchPlaced s w) else none := rfl

/-- The places that NOTCH writes for notch `n`. -/
def notchPlaces (n : Nat) : List Nat := (List.range 5).map (18 + 5 * n + ·) ++ [38 + 2 * n, 39 + 2 * n, 2]

theorem notchPlaces_sound : ∀ n < 4, (notchPlaces n).Nodup ∧ ∀ i ∈ notchPlaces n, i < 128 := by decide

theorem length_notchFormed (s : State) : (notchFormed s).length = 5 := rfl

theorem notchPlaced_places (s : State) (w : W32) : (notchPlaced s w).map Prod.fst = notchPlaces (wbits Reg.AXIS_CMD_INDEX w) := by
  have hzip : ((notchFormed s).zip (List.range 5)).map Prod.snd = List.range 5 :=
    List.map_snd_zip (by rw [length_notchFormed, List.length_range])
  have hfive : ((notchFormed s).zip (List.range 5)).map (fun e => 18 + 5 * wbits Reg.AXIS_CMD_INDEX w + e.2) =
      (List.range 5).map (18 + 5 * wbits Reg.AXIS_CMD_INDEX w + ·) := by
    rw [← hzip, List.map_map]
    rfl
  rw [notchPlaced, List.map_append, List.map_map, notchPlaces, ← hfive]
  rfl

theorem mem_notchPlaced {s : State} {j : Nat} {q : Int} (w : W32) (h : (notchFormed s)[j]? = some q) :
    (18 + 5 * wbits Reg.AXIS_CMD_INDEX w + j, unsgn 32 q) ∈ notchPlaced s w := by
  obtain ⟨hj, rfl⟩ := List.getElem?_eq_some_iff.mp h
  have hpair : ((notchFormed s)[j], j) ∈ (notchFormed s).zip (List.range 5) := by
    refine List.mem_iff_getElem.mpr ⟨j, ?_, ?_⟩
    · rw [List.length_zip, List.length_range]
      exact lt_min hj hj
    · rw [List.getElem_zip, List.getElem_range]
  exact List.mem_append_left _ (List.mem_map_of_mem (f := fun e : Int × Nat => (18 + 5 * wbits Reg.AXIS_CMD_INDEX w + e.2, unsgn 32 e.1)) hpair)

theorem mem_notchPlaced_registers (s : State) (w : W32) :
    (38 + 2 * wbits Reg.AXIS_CMD_INDEX w, rdw s Reg.AXIS_NOTCHF.addr) ∈ notchPlaced s w ∧
    (39 + 2 * wbits Reg.AXIS_CMD_INDEX w, rdw s Reg.AXIS_NOTCHW.addr) ∈ notchPlaced s w ∧ (2, period s) ∈ notchPlaced s w :=
  ⟨List.mem_append_right _ (.head _), List.mem_append_right _ (.tail _ (.head _)), List.mem_append_right _ (.tail _ (.tail _ (.head _)))⟩

section
variable {m : Master} {w : W32} {s : State} (hm : CanReach m s Reg.AXIS_CMD.addr) (hr : roleBars s m = false) (hc : domOn s dCIST = true)
  (he : on s Reg.AXIS_AREA_EN = true) (hop : wbits Reg.AXIS_CMD_OP w = 3)
include hm hr hc he hop

/-- Out of its limits NOTCH gives RESULT 1 and changes no record. -/
theorem notch_outOfLimits (h : notchFits s = false) : ∃ t, exec (.notch m w) s = .next t ∧ t.mem = s.mem ∧ t.axes = s.axes ∧ rd t Reg.AXIS_CMD_RESULT = 1 := by
  obtain ⟨u, t, hu, hexec, hk⟩ := axisCommand_performed hm hr .notch hop hc he
  rw [notchRec, hu.notchBurst, notchBurst_eq, h, if_neg (by decide), cmdDone] at hk
  have hend := hk.ended.of_raise
  have hres := hu.wr_result 1
  exact ⟨t, hexec, hend.mem.trans hres.wire.mem, hend.axes.trans hres.wire.axes, hend.axisResult (by decide)⟩

/-- Within its limits NOTCH writes its words into the shadow record of the selected axis. -/
theorem notch_inLimits (hcommit : s.commit = none) (h : notchFits s = true) {a : Nat} (ha : rd s Reg.AXIS_SEL_AXIS = a) : ∃ t, exec (.notch m w) s = .next t ∧
    SameMemBut (recAddr s a (1 - b2n (axis s a).act) 0) 512 s t ∧
    (∀ i v, (i, v) ∈ notchPlaced s w → recWord t a (1 - b2n (axis s a).act) i = v % 2 ^ 32) ∧
    axis t a = { axis s a with pend := true } ∧ rd t Reg.AXIS_CMD_RESULT = 0 := by
  obtain ⟨u, t, hu, hexec, hk⟩ := axisCommand_performed hm hr .notch hop hc he
  generalize hv : wr u Reg.AXIS_CMD_RESULT 0 = v at hu hk
  have hres : rd v Reg.AXIS_CMD_RESULT = 0 := hv ▸ rd_wr_self _ _ _ (by decide) (by decide)
  have hfree : v.commit = none := hu.wire.commit.trans hcommit
  have hrun : notchRec w v = raise (writeRecs v a (notchPlaced s w)) 0x80 3 := by
    rw [notchRec, hu.notchBurst, notchBurst_eq, if_pos h, ← foldl_writeRec_sel _ hfree ((hu.rd _ (by decide)).trans ha)]
    dsimp only [cmdDone]
  rw [hrun] at hk
  have hend := hk.ended.of_raise
  have hregs := writeRecs_regs a (notchPlaced s w) hfree
  obtain ⟨hone, hlt⟩ := notchPlaces_sound (wbits Reg.AXIS_CMD_INDEX w) (Nat.mod_lt _ (by decide))
  rw [← notchPlaced_places s w] at hone hlt
  have hin : ∀ e ∈ notchPlaced s w, e.1 < 128 := fun e hmem => hlt _ (List.mem_map_of_mem hmem)
  have hat : ∀ i, shadowAddr v a i = recAddr s a (1 - b2n (axis s a).act) i := fun i => by rw [shadowAddr, hu.recAddr, hu.axis]
  have hout := mget_writeRecs_outside a _ hin hfree
  rw [hat] at hout
  refine ⟨t, hexec, hend.sameMemBut (hout.of_mem hu.wire.mem), fun i v hmem => ?_, ?_, ?_⟩
  · rw [hend.recWord (s := s) ((rdw_congr hregs _).trans (hu.regs _ (by decide))), ← hat, mnum_writeRecs_mem a hin hone hmem hfree]
  · rw [hend.axis, axis_writeRecs a (by simp [notchPlaced]) hfree, hu.axis]
  · rw [hend.rd _ (by decide) (by decide), rd_congr hregs, hres]

end

/-! ## The settled statement -/

/-- Settles O28: the area, the window, then each command where it is performed and where it is refused. -/
theorem axisParameterRecords : Obligations.AxisParameterRecords := by
  unfold Obligations.AxisParameterRecords
  refine ⟨fun m w s hm => ⟨axisAreaWrite_taken hm, axisAreaWrite_refused hm⟩, fun m w i s hm hr hcommit hc he => ?_, fun m w s hm hr hoff => ?_⟩
  · have hopen : winOpen s = true := by rw [winOpen, hc, he]; rfl
    refine ⟨fun hview => axisWindowWrite_shadow hm hr i hcommit hopen hview rfl, axisWindowWrite_active hm hr i, axisLoad_performed hm hr hc he rfl hcommit,
      mark_performed hm hr hc he rfl, fun hop => ⟨fun hlim => ?_, fun hlim => ?_⟩⟩
    · obtain ⟨t, hexec, hout, hwords, haxis, hres⟩ := notch_inLimits hm hr hc he hop hcommit (notchOk_iff.mpr hlim) rfl
      obtain ⟨hfreq, hwidth, hperiod⟩ := mem_notchPlaced_registers s w
      exact ⟨t, hexec, hout, (hwords _ _ hfreq).trans (Nat.mod_eq_of_lt (rdw_lt s _)), (hwords _ _ hwidth).trans (Nat.mod_eq_of_lt (rdw_lt s _)),
        hwords _ _ hperiod, fun j q hq => hwords _ _ (mem_notchPlaced w hq), haxis, hres⟩
    · exact notch_outOfLimits hm hr hc he hop (Bool.eq_false_iff.mpr (mt notchOk_iff.mp hlim))
  · intro i hi hop
    simp only [List.mem_cons, List.not_mem_nil, or_false] at hi
    rcases hi with rfl | rfl | rfl
    · exact axisCommand_refused hm hr .load hop hoff
    · exact axisCommand_refused hm hr .mark hop hoff
    · exact axisCommand_refused hm hr .notch hop hoff

end Sys2Proof.Machine
end

section
/-! PROOFS. Motion records, cam registers, stops and their release (R145, R148, R153, R167, R169, R174). -/

namespace Sys2Proof.Machine

/-! ## Motion records (R148) -/

theorem withdrawCh_uncommitted {s : State} (h : s.commit = none) (c : Nat) : withdrawCh s c = s := by rw [withdrawCh, h]

theorem motWord_lt (s : State) (c b i : Nat) : motWord s c b i < 2 ^ 32 := BitVec.isLt _

theorem motWord_congr {s t : State} (h : t.motRec = s.motRec) (c b i : Nat) : motWord t c b i = motWord s c b i := by rw [motWord, h, motWord]

theorem motWord_setMotWord_self (s : State) (c b i v : Nat) : motWord (setMotWord s c b i v) c b i = v % 2 ^ 32 := by
  rw [motWord, setMotWord, tget_tput_self, BitVec.toNat_ofNat]

/-- A word of a motion record that is written leaves every other word. -/
theorem motWord_setMotWord_other (s : State) {c b i d g j : Nat} (v : Nat) (hb : b < 2) (hi : i < 16) (hg : g < 2) (hj : j < 16) (h : (d, g, j) ≠ (c, b, i)) :
    motWord (setMotWord s c b i v) d g j = motWord s d g j := by
  have hne : (d * 2 + g) * 16 + j ≠ (c * 2 + b) * 16 + i := fun he => h (by rw [Prod.mk.injEq, Prod.mk.injEq]; omega)
  rw [motWord, setMotWord, tget_tput_other _ _ _ hne, ← motWord]

/-- The first `n` words of one bank of a channel's record are copied to the other. -/
def copyWords (s : State) (c b n : Nat) : State := (List.range n).foldl (fun s i => setMotWord s c (1 - b) i (motWord s c b i)) s

theorem copyWords_succ (s : State) (c b n : Nat) :
    copyWords s c b (n + 1) = setMotWord (copyWords s c b n) c (1 - b) n (motWord (copyWords s c b n) c b n) := by
  rw [copyWords, List.range_succ, List.foldl_append, ← copyWords, List.foldl_cons, List.foldl_nil]

theorem copyWords_shape (s : State) (c b n : Nat) : copyWords s c b n = { s with motRec := (copyWords s c b n).motRec } := by
  induction n with
  | zero => rfl
  | succ n ih =>
    rw [copyWords_succ, ih]
    rfl

/-- Words that are copied read as their source does, which stays as it was. -/
theorem motWord_copyWords (s : State) (c : Nat) {b n : Nat} (hb : b < 2) (hn : n ≤ 16) : (∀ j, j < 16 → motWord (copyWords s c b n) c b j = motWord s c b j) ∧
    ∀ j, j < n → motWord (copyWords s c b n) c (1 - b) j = motWord s c b j := by
  induction n with
  | zero => exact ⟨fun _ _ => rfl, fun j hj => absurd hj (Nat.not_lt_zero j)⟩
  | succ n ih =>
    obtain ⟨hsrc, hdst⟩ := ih (by omega)
    rw [copyWords_succ]
    refine ⟨fun j hj => ?_, fun j hj => ?_⟩
    · rw [motWord_setMotWord_other _ _ (by omega) (by omega) hb hj (by simp; omega), hsrc j hj]
    · rcases Nat.lt_succ_iff_lt_or_eq.mp hj with hlt | rfl
      · rw [motWord_setMotWord_other _ _ (by omega) (by omega) (by omega) (by omega) (by simp; omega), hdst j hlt]
      · rw [motWord_setMotWord_self, hsrc j (by omega), Nat.mod_eq_of_lt (motWord_lt ..)]

theorem b2n_lt_two (x : Bool) : b2n x < 2 := by cases x <;> decide

/-! ## Motion groups (R165) -/

section
variable {s t : State} (hm : t.mots = s.mots) (hw : t.motRec = s.motRec)
include hm hw

theorem motAct_congr (c i : Nat) : motAct t c i = motAct s c i := by rw [motAct, motWord_congr hw, mot, hm, ← mot, ← motAct]

theorem groupKey_congr (n c : Nat) : groupKey t n c = groupKey s n c := by
  induction n generalizing c with
  | zero => rfl
  | succ n ih =>
    simp only [groupKey, motSrc, motGroup, motMaster, motAct_congr hm hw, ih]
    rfl

theorem groupOf_congr (c : Nat) : groupOf t c = groupOf s c := by
  have hen : motEn t = motEn s := funext fun d => by rw [motEn, motAct_congr hm hw, ← motEn]
  simp only [groupOf, chans, hen, keyOf, groupKey_congr hm hw]

end

/-! ## The window and LOAD (R148, R153, R174) -/

theorem mot_of_regsWire {s u : State} (h : RegsWire s u) (c : Nat) : mot u c = mot s c := by rw [mot, h.mots, ← mot]

theorem motionSel_apart_win (i : Fin 16) : Reg.MOTION_SEL.addr ∉ cmdKeys (Reg.MOTION_WIN i).addr := by
  revert i
  decide

/-- What MOTION_WINDOW_WRITE does once its word is written. -/
def putShadowWord (m : Master) (i : Fin 16) (w : W32) (s : State) : State :=
  let c := selCh s
  if on s Reg.MOTION_SEL_VIEW ∨ 1055 < c then errlog s 0x81 7 m (Reg.MOTION_WIN i).addr
  else
    let s := withdrawCh s c
    let x := mot s c
    setMot (setMotWord s c (1 - b2n x.act) i w.toNat) c { x with pend := true }

/-- What MOTION_LOAD does once its word is written. -/
def loadShadow (s : State) : State :=
  let c := selCh s
  if 1055 < c then raise (wr s Reg.MOTION_CMD_RESULT 5) 0x81 3
  else
    let s := withdrawCh s c
    let x := mot s c
    let b := b2n x.act
    let s := copyWords s c b 16
    raise (wr (setMot s c { x with pend := false }) Reg.MOTION_CMD_RESULT 0) 0x81 3

section
variable {s : State} (hcommit : s.commit = none) {c : Nat} (hsel : selCh s = c) (hlast : c ≤ 1055)
include hcommit hsel hlast

theorem putShadowWord_open (m : Master) (i : Fin 16) (w : W32) (hview : on s Reg.MOTION_SEL_VIEW = false) :
    putShadowWord m i w s = setMot (setMotWord s c (1 - b2n (mot s c).act) i w.toNat) c { mot s c with pend := true } := by
  rw [putShadowWord, hsel, hview, if_neg (by simpa using hlast), withdrawCh_uncommitted hcommit]

theorem loadShadow_open :
    loadShadow s = raise (wr (setMot (copyWords s c (b2n (mot s c).act) 16) c { mot s c with pend := false }) Reg.MOTION_CMD_RESULT 0) 0x81 3 := by
  rw [loadShadow, hsel, if_neg (Nat.not_lt.mpr hlast), withdrawCh_uncommitted hcommit]

end

section
variable {m : Master} {w : W32} {s : State} (hm : CanReach m s Reg.MOTION_CMD.addr) (hr : roleBars s m = false)
include hm hr

theorem exec_motionWindowWrite (i : Fin 16) : ∃ u t, Written (Reg.MOTION_WIN i).addr s u ∧ exec (.motionWindowWrite m i w) s = .next t ∧
    Kept (putShadowWord m i w u) t := by
  have hpage : (Reg.MOTION_WIN i).addr / 0x1000 = Reg.MOTION_CMD.addr / 0x1000 := by
    simp only [Reg.MOTION_WIN, Reg.MOTION_CMD]
    omega
  obtain ⟨u, hu, hk⟩ := pairActionWith_kept m w (fun a _ => [writeItem a (Reg.MOTION_WIN i).addr w]) (putShadowWord m i w) (hm.samePage hpage (by decide)) hr
  exact ⟨u, _, hu, rfl, hk⟩

theorem exec_motionLoad (hop : wbits Reg.MOTION_CMD_OP w = 15) : ∃ u t, Written Reg.MOTION_CMD.addr s u ∧ exec (.motionLoad m w) s = .next t ∧
    Kept (loadShadow u) t := by
  obtain ⟨u, hu, hk⟩ := pairOp_kept m w (ok := wbits Reg.MOTION_CMD_OP w = 15) loadShadow hm hr (by simp [hop])
  exact ⟨u, _, hu, rfl, hk⟩

variable (hcommit : s.commit = none) {c : Nat} (hsel : selCh s = c) (hlast : c ≤ 1055)
include hcommit hsel hlast

theorem motionWindowWrite_shadow (i : Fin 16) (hview : on s Reg.MOTION_SEL_VIEW = false) : ∃ t, exec (.motionWindowWrite m i w) s = .next t ∧ t.mem = s.mem ∧
    motWord t c (1 - b2n (mot s c).act) i = w.toNat ∧
    (∀ d g j, j < 16 → g < 2 → (d, g, j) ≠ (c, 1 - b2n (mot s c).act, i.val) → motWord t d g j = motWord s d g j) ∧ mot t c = { mot s c with pend := true } := by
  obtain ⟨u, t, hu, hexec, hk⟩ := exec_motionWindowWrite (w := w) hm hr i
  have hapart := motionSel_apart_win i
  rw [putShadowWord_open (hu.1.commit.trans hcommit) ((hu.rd Reg.MOTION_SEL_CH hapart).trans hsel) hlast m i w ((hu.on Reg.MOTION_SEL_VIEW hapart).trans hview),
    mot_of_regsWire hu.1] at hk
  have hend := hk.ended
  refine ⟨t, hexec, ?_, ?_, fun d g j hj hg hne => ?_, ?_⟩
  · exact hend.mem.trans ((setMot_mem ..).trans ((setMotWord_mem ..).trans hu.1.mem))
  · rw [hend.motWord, motWord_congr (setMot_motRec ..), motWord_setMotWord_self, Nat.mod_eq_of_lt w.isLt]
  · rw [hend.motWord, motWord_congr (setMot_motRec ..), motWord_setMotWord_other _ _ (by omega) i.isLt hg hj hne, motWord_congr hu.1.motRec]
  · rw [hend.mot, mot_setMot_self]

theorem motionLoad_copies (hop : wbits Reg.MOTION_CMD_OP w = 15) : ∃ t, exec (.motionLoad m w) s = .next t ∧ t.mem = s.mem ∧
    (∀ j, j < 16 → motWord t c (1 - b2n (mot s c).act) j = motWord s c (b2n (mot s c).act) j) ∧ mot t c = { mot s c with pend := false } ∧
    rd t Reg.MOTION_CMD_RESULT = 0 := by
  obtain ⟨u, t, hu, hexec, hk⟩ := exec_motionLoad hm hr hop
  rw [loadShadow_open (hu.1.commit.trans hcommit) ((hu.rd Reg.MOTION_SEL_CH (by decide)).trans hsel) hlast, mot_of_regsWire hu.1] at hk
  have hend := hk.ended.of_raise
  refine ⟨t, hexec, ?_, fun j hj => ?_, ?_, ?_⟩
  · rw [hend.mem, wr_mem, setMot_mem, copyWords_shape, hu.1.mem]
  · rw [hend.motWord, motWord_congr ((wr_motRec ..).trans (setMot_motRec ..)), (motWord_copyWords _ _ (b2n_lt_two _) (le_refl 16)).2 j hj,
      motWord_congr hu.1.motRec]
  · rw [hend.mot, mot, wr_mots, ← mot, mot_setMot_self]
  · rw [hend.rd _ (by decide) (by decide)]
    exact rd_wr_self _ _ _ (by decide) (by decide)

end

/-! ## Cam registers (R174) -/

theorem rowsAt_cam (k : Fin 64) : ∀ r ∈ rowsAt (Reg.MOTION_CAM k).addr, r.lo ≤ r.hi ∧ (r.acc = .own ∨ r.acc = .rsv ∨ r.acc = .ro) := by
  revert k
  decide

theorem cam_apart (k : Fin 64) : (Reg.MOTION_CAM k).addr ∉ sideKeys (Reg.MOTION_CAM k).addr := by
  revert k
  decide

/-- What CAM_TABLE_WRITE does once its word is written. -/
def keepCam (k : Nat) (w : W32) (s : State) : State :=
  let s := { s with camPend := tins k (w &&& 0x80007FFF) (tdel k s.camPend),
                    commit := s.commit.map (fun c => { c with cams := c.cams.filter (fun u => u != k) }) }
  wr s (Reg.MOTION_CAM_PEND k) 1

theorem keepCam_mem (k : Nat) (w : W32) (s : State) : (keepCam k w s).mem = s.mem := wr_mem ..

theorem camPend_keepCam (k : Nat) (w : W32) (s : State) : tget (fun _ => 0#32) (keepCam k w s).camPend k = w &&& 0x80007FFF#32 := by
  rw [keepCam, wr_camPend]
  exact tget_tins_self _ _ _ _

theorem on_keepCam_pend (k : Nat) (w : W32) (s : State) : on (keepCam k w s) (Reg.MOTION_CAM_PEND k) = true := by
  rw [on, keepCam, rd_wr_self _ _ _ (le_refl 30) (by decide : 30 < 32)]
  rfl

/-- The fields of a cam register in service stand beside PEND. -/
theorem rd_keepCam (k : Nat) (w : W32) (s : State) {f : Fld} (hle : f.lo ≤ f.hi) (hf : f.hi < 30 ∨ 30 < f.lo) : rd (keepCam k w s) f = rd s f := by
  rw [keepCam, rd_wr_disj _ _ _ _ (le_refl 30) (by decide : 30 < 32) hle hf]
  rfl

theorem camTableWrite_kept {m : Master} (w : W32) {s : State} (hm : CanReach m s Reg.MOTION_CMD.addr) (hr : roleBars s m = false) (k : Fin 64) :
    ∃ t, exec (.camTableWrite m k w) s = .next t ∧ t.mem = s.mem ∧ tget (fun _ => 0#32) t.camPend k = w &&& 0x80007FFF#32 ∧
      on t (Reg.MOTION_CAM_PEND k) = true ∧ rd t (Reg.MOTION_CAM_VALID k) = rd s (Reg.MOTION_CAM_VALID k) ∧
      rd t (Reg.MOTION_CAM_BLOCK k) = rd s (Reg.MOTION_CAM_BLOCK k) := by
  have hpage : (Reg.MOTION_CAM k).addr / 0x1000 = Reg.MOTION_CMD.addr / 0x1000 := by
    simp only [Reg.MOTION_CAM, Reg.MOTION_CMD]
    omega
  have hword := plainWrite_unwritten (rowsAt_cam k) (by simp only [Reg.MOTION_CAM]; omega) (by simp only [Reg.MOTION_CAM]; omega) s m w.toNat
  have hwire := plainWrite_shape s m (Reg.MOTION_CAM k).addr w.toNat
  have hkept : Kept (keepCam k w (plainWrite s m (Reg.MOTION_CAM k).addr w.toNat)) (pairAction s m (Reg.MOTION_CAM k).addr w (keepCam k w)) :=
    ⟨_, pairAction_open w _ (hm.samePage hpage (by decide)) hr⟩
  have hexec : exec (.camTableWrite m k w) s = .next (pairAction s m (Reg.MOTION_CAM k).addr w (keepCam k w)) := rfl
  generalize pairAction s m (Reg.MOTION_CAM k).addr w (keepCam k w) = t at hkept hexec
  have hfield : ∀ f : Fld, f.addr = (Reg.MOTION_CAM k).addr → f.lo ≤ f.hi → (f.hi < 30 ∨ 30 < f.lo) → rd t f = rd s f := fun f ha hle hf => by
    rw [hkept.rd, rd_keepCam k w _ hle hf, hword.rd f (by rw [ha]; exact cam_apart k)]
  refine ⟨t, hexec, ?_, ?_, ?_, hfield (Reg.MOTION_CAM_VALID k) rfl (le_refl 31) (.inr (by decide : 30 < 31)),
    hfield (Reg.MOTION_CAM_BLOCK k) rfl (Nat.zero_le 14) (.inl (by decide : 14 < 30))⟩
  · rw [hkept.mem, keepCam_mem, hwire.mem]
  · rw [hkept.ended.camPend, camPend_keepCam]
  · rw [hkept.on, on_keepCam_pend]

/-! ## Stops and their release (R167, R169) -/

/-- A stop that is asked for as its word has been written: the second boundary counts from the cycle of the write. -/
theorem askStop_written {s u : State} (h : RegsWire s u) (ch : Option Nat) (g : Nat) (lost : Bool) : askStop u (u.sched.cycle + 2) ch g lost =
    { u with stops := s.stops ++ [⟨s.sched.cycle + 2, ch, g, lost⟩] } := by
  rw [← h.sched, ← h.stops]
  rfl

section
variable {m : Master} {w : W32} {s : State} (hm : CanReach m s Reg.MOTION_CMD.addr) (hr : roleBars s m = false)
include hm hr

theorem stop_asked (hg : wbits Reg.MOTION_STOP_GRADE w ≠ 0) : ∃ u t, Written Reg.MOTION_STOP.addr s u ∧ exec (.stop m w) s = .next t ∧
    Kept { u with stops := s.stops ++ [⟨s.sched.cycle + 2, some (wbits Reg.MOTION_STOP_CH w), wbits Reg.MOTION_STOP_GRADE w, false⟩] } t := by
  have hreach : CanReach m s Reg.MOTION_STOP.addr := hm.samePage (by decide) (by decide)
  obtain ⟨u, hu, hk⟩ := pairActionWith_kept m w (fun a _ => [writeItem a Reg.MOTION_STOP.addr w])
    (fun s => let g := wbits Reg.MOTION_STOP_GRADE w
      if g = 0 then s else askStop s (s.sched.cycle + 2) (some (wbits Reg.MOTION_STOP_CH w)) g false) hreach hr
  refine ⟨u, _, hu, rfl, ?_⟩
  rw [if_neg hg, askStop_written hu.1] at hk
  exact hk

theorem halt_asked (hh : wbits Reg.MOTION_HALT_HALT w = 1) : ∃ u t, Written Reg.MOTION_HALT.addr s u ∧ exec (.halt m w) s = .next t ∧
    Kept { u with stops := s.stops ++ [⟨s.sched.cycle + 2, none, 3, false⟩] } t := by
  have hreach : CanReach m s Reg.MOTION_HALT.addr := hm.samePage (by decide) (by decide)
  obtain ⟨u, hu, hk⟩ := pairOp_kept m w (ok := wbits Reg.MOTION_HALT_HALT w = 1) (fun s => askStop s (s.sched.cycle + 2) none 3 false) hreach hr (by simp [hh])
  refine ⟨u, _, hu, rfl, ?_⟩
  rw [askStop_written hu.1] at hk
  exact hk

end

/-- The channels of `l` are to leave their stopped state at the next boundary. -/
def releaseChans (s : State) (l : List Nat) : State := l.foldl (fun s d => setMot s d { mot s d with clrAt := some (s.sched.cycle + 1) }) s

theorem releaseChans_cons (s : State) (d : Nat) (l : List Nat) :
    releaseChans s (d :: l) = releaseChans (setMot s d { mot s d with clrAt := some (s.sched.cycle + 1) }) l := by
  rw [releaseChans, List.foldl_cons, ← releaseChans]

theorem releaseChans_mem (s : State) (l : List Nat) : (releaseChans s l).mem = s.mem := by
  induction l generalizing s with
  | nil => rfl
  | cons d r ih => rw [releaseChans_cons, ih, setMot_mem]

theorem mot_releaseChans (s : State) (l : List Nat) (d : Nat) :
    mot (releaseChans s l) d = if d ∈ l then { mot s d with clrAt := some (s.sched.cycle + 1) } else mot s d := by
  induction l generalizing s with
  | nil => rfl
  | cons e r ih =>
    rw [releaseChans_cons, ih, setMot_sched]
    by_cases he : d = e
    · subst he
      simp
    · simp [he, mot_setMot_other _ _ _ he]

/-- Some channel of the group is still stopping, or its path is lost. -/
def heldByStop (s : State) (k : Nat) : Bool := (groupOf s k).any (fun d => (mot s d).lost || (mot s d).st == 3)

/-- The channels of the group that are stopped or halted. -/
def stoppedOf (s : State) (k : Nat) : List Nat := (groupOf s k).filter (fun d => decide (4 ≤ (mot s d).st))

theorem heldByStop_congr {s t : State} (hm : t.mots = s.mots) (hw : t.motRec = s.motRec) (k : Nat) : heldByStop t k = heldByStop s k := by
  simp only [heldByStop, groupOf_congr hm hw, mot, hm]

theorem stoppedOf_congr {s t : State} (hm : t.mots = s.mots) (hw : t.motRec = s.motRec) (k : Nat) : stoppedOf t k = stoppedOf s k := by
  have hst : ∀ d, mot t d = mot s d := fun d => by rw [mot, hm, ← mot]
  rw [stoppedOf, groupOf_congr hm hw]
  exact List.filter_congr fun d _ => by rw [hst d]

theorem heldByStop_iff {s : State} {k : Nat} : heldByStop s k = true ↔ ∃ d ∈ groupOf s k, (mot s d).lost = true ∨ (mot s d).st = 3 := by
  simp only [heldByStop, List.any_eq_true, Bool.or_eq_true, beq_iff_eq]

section
variable {m : Master} {w : W32} {s : State} (hm : CanReach m s Reg.MOTION_CMD.addr) (hr : roleBars s m = false)
include hm hr

/-- STOP_CLR as its word has been written. -/
theorem exec_stopClr : ∃ u t, RegsWire s u ∧ exec (.stopClr m w) s = .next t ∧
    Kept (if heldByStop s (wbits Reg.MOTION_STOP_CLR_CH w) = true then errlog u 0x81 7 m Reg.MOTION_STOP_CLR.addr
      else releaseChans u (stoppedOf s (wbits Reg.MOTION_STOP_CLR_CH w))) t := by
  have hreach : CanReach m s Reg.MOTION_STOP_CLR.addr := hm.samePage (by decide) (by decide)
  obtain ⟨u, hu, hk⟩ := pairActionWith_kept m w (fun a _ => [writeItem a Reg.MOTION_STOP_CLR.addr w])
    (fun s => if heldByStop s (wbits Reg.MOTION_STOP_CLR_CH w) then errlog s 0x81 7 m Reg.MOTION_STOP_CLR.addr
      else releaseChans s (stoppedOf s (wbits Reg.MOTION_STOP_CLR_CH w))) hreach hr
  refine ⟨u, _, hu.1, rfl, ?_⟩
  rw [heldByStop_congr hu.1.mots hu.1.motRec, stoppedOf_congr hu.1.mots hu.1.motRec] at hk
  exact hk

theorem stopClr_refused {k : Nat} (hk : k = wbits Reg.MOTION_STOP_CLR_CH w) (h : ∃ d ∈ groupOf s k, (mot s d).lost = true ∨ (mot s d).st = 3) :
    ∃ t, exec (.stopClr m w) s = .next t ∧ t.mots = s.mots ∧ on t (Reg.HDR_ERRLOG_VALID 0x81) = true := by
  obtain ⟨u, t, hu, hexec, hkept⟩ := exec_stopClr (w := w) hm hr
  rw [← hk, if_pos (heldByStop_iff.mpr h)] at hkept
  exact ⟨t, hexec, hkept.ended.mots.trans (hu.trans (errlog_shape _ _ _ _ _)).mots, hkept.errlog_valid (by decide)⟩

theorem stopClr_releases {k : Nat} (hk : k = wbits Reg.MOTION_STOP_CLR_CH w) (h : ∀ d ∈ groupOf s k, (mot s d).lost = false ∧ (mot s d).st ≠ 3) :
    ∃ t, exec (.stopClr m w) s = .next t ∧ t.mem = s.mem ∧
      ∀ d, mot t d = if d ∈ groupOf s k ∧ 4 ≤ (mot s d).st then { mot s d with clrAt := some (s.sched.cycle + 1) } else mot s d := by
  obtain ⟨u, t, hu, hexec, hkept⟩ := exec_stopClr (w := w) hm hr
  have hfree : ¬heldByStop s k = true := fun hheld => by
    obtain ⟨d, hd, hbad⟩ := heldByStop_iff.mp hheld
    obtain ⟨hlost, hst⟩ := h d hd
    exact hbad.elim (fun hl => by rw [hlost] at hl; exact Bool.false_ne_true hl) hst
  rw [← hk, if_neg hfree] at hkept
  have hend := hkept.ended
  refine ⟨t, hexec, by rw [hend.mem, releaseChans_mem, hu.mem], fun d => ?_⟩
  rw [hend.mot, mot_releaseChans, mot_of_regsWire hu, hu.sched]
  exact if_congr (by rw [stoppedOf, List.mem_filter, decide_eq_true_eq]) rfl rfl

end

/-! ## The settled statement -/

/-- Settles O30: the window, the cam registers, LOAD, the two stops, and STOP_CLR where it is refused and where it releases. -/
theorem motionRecordsAndStops : Obligations.MotionRecordsAndStops := by
  unfold Obligations.MotionRecordsAndStops
  exact fun m w s hm hr hcommit => ⟨fun i hlast hview => motionWindowWrite_shadow hm hr hcommit rfl hlast i hview, camTableWrite_kept w hm hr,
    fun hop hlast => motionLoad_copies hm hr hcommit rfl hlast hop, stop_asked hm hr, halt_asked hm hr,
    fun k hk => ⟨stopClr_refused hm hr hk, stopClr_releases hm hr hk⟩⟩

end Sys2Proof.Machine
end

section
/-! PROOFS. The commands of a motion channel: the states and arguments they are accepted in, and what is kept of them (R152, R153, R164). -/

namespace Sys2Proof.Machine

/-! ## Pairs of registers -/

theorem rd_whole_lt (s : State) {f : Fld} (hlo : f.lo = 0) (hhi : f.hi = 31) : rd s f < 2 ^ 32 := by
  rw [rd, hlo, hhi]
  exact Nat.mod_lt _ (by decide)

/-- A pair of whole registers reads the number that was written to it, cut to 64 bits. -/
theorem rd64_wr64_self (s : State) {lo hi : Fld} (v : Nat) (hne : lo.addr ≠ hi.addr) (hlo : lo.lo = 0 ∧ lo.hi = 31) (hhi : hi.lo = 0 ∧ hi.hi = 31) :
    rd64 (wr64 s lo hi v) lo hi = v % 2 ^ 64 := by
  rw [rd64, wr64, rd_wr_other _ _ _ _ hne, rd_wr_self _ _ _ (by omega) (by omega), rd_wr_self _ _ _ (by omega) (by omega), hlo.1, hlo.2, hhi.1, hhi.2]
  omega

theorem rdw_wr64_other (s : State) {lo hi : Fld} (v : Nat) {k : Nat} (hlo : k ≠ lo.addr) (hhi : k ≠ hi.addr) : rdw (wr64 s lo hi v) k = rdw s k := by
  rw [wr64, rdw_wr_other _ _ _ hhi, rdw_wr_other _ _ _ hlo]

/-! ## What a motion command goes by -/

/-- `u` shows a command of the MOTION page what `s` does: it differs in registers alone, and among them only in CMD, page headers and pending bits. -/
structure MotionView (s u : State) : Prop where
  wire : RegsWire s u
  regs : ∀ k, 0x40 ≤ k % 0x1000 → k ≠ Reg.MOTION_CMD.addr → k ≠ 0xB1C00 → rdw u k = rdw s k

theorem Written.motionView {s u : State} (h : Written Reg.MOTION_CMD.addr s u) : MotionView s u :=
  ⟨h.1, fun k hk hne hb => h.2 k (by simp only [cmdKeys, sideKeys, Reg.MOTION_CMD, List.mem_cons, List.not_mem_nil, or_false] at *; omega)⟩

theorem membersOf_congr {s t : State} (hm : t.mots = s.mots) (hw : t.motRec = s.motRec) (c : Nat) : membersOf t c = membersOf s c := by
  have hen : motEn t = motEn s := funext fun d => by rw [motEn, motAct_congr hm hw, ← motEn]
  simp only [membersOf, chans, hen, motSrc, motGroup, motAct_congr hm hw]

section
variable {s u : State} (h : MotionView s u)
include h

theorem MotionView.rd (f : Fld) (hf : 0x40 ≤ f.addr % 0x1000) (hne : f.addr ≠ Reg.MOTION_CMD.addr) (hb : f.addr ≠ 0xB1C00) : Machine.rd u f = Machine.rd s f := by
  rw [Machine.rd, h.regs _ hf hne hb, Machine.rd]

theorem MotionView.rd64 (lo hi : Fld) (hlo : 0x40 ≤ lo.addr % 0x1000 ∧ lo.addr ≠ Reg.MOTION_CMD.addr ∧ lo.addr ≠ 0xB1C00)
    (hhi : 0x40 ≤ hi.addr % 0x1000 ∧ hi.addr ≠ Reg.MOTION_CMD.addr ∧ hi.addr ≠ 0xB1C00) : Machine.rd64 u lo hi = Machine.rd64 s lo hi := by
  rw [Machine.rd64, h.rd lo hlo.1 hlo.2.1 hlo.2.2, h.rd hi hhi.1 hhi.2.1 hhi.2.2, Machine.rd64]

theorem MotionView.selCh : Machine.selCh u = Machine.selCh s := h.rd Reg.MOTION_SEL_CH (by decide) (by decide) (by decide)

theorem MotionView.mot (c : Nat) : Machine.mot u c = Machine.mot s c := mot_of_regsWire h.wire c

theorem MotionView.motAct (c i : Nat) : Machine.motAct u c i = Machine.motAct s c i := motAct_congr h.wire.mots h.wire.motRec c i

theorem MotionView.membersOf (c : Nat) : Machine.membersOf u c = Machine.membersOf s c := membersOf_congr h.wire.mots h.wire.motRec c

theorem MotionView.motLead : Machine.motLead u = Machine.motLead s := by
  have hperiod : period u = period s := h.rd Reg.CYC_PERIOD_NS (by decide) (by decide) (by decide)
  rw [Machine.motLead, hperiod, Machine.motLead]

theorem MotionView.cmdState (c op : Nat) : Machine.cmdState u c op = Machine.cmdState s c op := by
  have hcam : ∀ w, Machine.on u (Reg.MOTION_CAM_VALID (bits 5 0 w)) = Machine.on s (Reg.MOTION_CAM_VALID (bits 5 0 w)) := fun w => by
    have hlt : bits 5 0 w < 64 := Nat.mod_lt _ (by decide)
    rw [Machine.on, h.rd _ (by simp only [Reg.MOTION_CAM_VALID]; omega) (by simp only [Reg.MOTION_CAM_VALID, Reg.MOTION_CMD]; omega)
      (by simp only [Reg.MOTION_CAM_VALID]; omega), ← Machine.on]
  simp only [Machine.cmdState, motEn, motSrc, h.mot, h.motAct, h.membersOf, hcam] <;> rfl

theorem MotionView.cmdRange (c op : Nat) : Machine.cmdRange u c op = Machine.cmdRange s c op := by
  have hspeed : Machine.rd u Reg.MOTION_SPEED_SPEED = Machine.rd s Reg.MOTION_SPEED_SPEED := h.rd _ (by decide) (by decide) (by decide)
  simp only [Machine.cmdRange, hspeed, h.membersOf, h.mot]

theorem MotionView.cmdAt : Machine.rd64 u Reg.MOTION_CMD_AT_LO_CYCLE Reg.MOTION_CMD_AT_HI_CYCLE = Machine.rd64 s Reg.MOTION_CMD_AT_LO_CYCLE Reg.MOTION_CMD_AT_HI_CYCLE :=
  h.rd64 _ _ (by decide) (by decide)

theorem MotionView.cmdResult (c op : Nat) : Machine.cmdResult u c op = Machine.cmdResult s c op := by
  simp only [Machine.cmdResult, h.cmdState, h.cmdRange, h.cmdAt, h.motLead, h.wire.sched]

/-- RESULT, and the event that ends a command, show the next part of it the same state. -/
theorem MotionView.result (r : Nat) : MotionView s (raise (wr u Reg.MOTION_CMD_RESULT r) 0x81 3) :=
  ⟨h.wire.trans ((RegsWire.wr _ _ _).trans (raise_shape _ _ _)), fun k hk hne hb => by
    rw [rdw_raise_aside ⟨hb, .inl hk⟩, rdw_wr_other _ Reg.MOTION_CMD_RESULT _ hne, h.regs k hk hne hb]⟩

end

/-! ## What a command asks of its channel (R153) -/

/-- The source and the state of a channel are those that R153 asks for operation `op`. -/
def stateAsked (s : State) (c op : Nat) : Bool :=
  match op with
  | 1 | 2 => (motSrc s c == 0 && decide ((mot s c).st ≤ 1)) || (motSrc s c == 2 && (mot s c).st == 0)
  | 3 => motSrc s c == 0 && decide ((mot s c).st ≤ 1)
  | 4 => motSrc s c == 1 && (mot s c).st == 0
  | 5 => motSrc s c == 1 && (mot s c).st == 0 && on s (Reg.MOTION_CAM_VALID (bits 5 0 (motAct s c 4)))
  | 6 => motSrc s c == 1 && (mot s c).st == 2
  | 7 => (mot s c).st == 2
  | 8 => motSrc s c == 2 && (membersOf s c).all (fun d => (mot s d).st == 0)
  | 9 => decide (4 ≤ (mot s c).st) && (mot s c).lost
  | 10 => decide (4 ≤ (mot s c).st) && (mot s c).lost && motSrc s c == 1
  | _ => false

section
variable {s : State} {c : Nat}

theorem cmdState_disabled (hen : motEn s c = false) (op : Nat) : cmdState s c op = 6 := by simp [cmdState, hen]

variable (hen : motEn s c = true)
include hen

theorem cmdState_stopped {op : Nat} (hst : 3 ≤ (mot s c).st) (hop : op < 9) : cmdState s c op = 3 := by
  simp [cmdState, hen, hst, show op ≠ 9 by omega, show op ≠ 10 by omega]

theorem cmdState_lost {op : Nat} (hlost : (mot s c).lost = true) (hst : (mot s c).st < 3) (hop : op ∈ [4, 5, 8]) : cmdState s c op = 4 := by
  have hop' : op = 4 ∨ op = 5 ∨ op = 8 := by simpa using hop
  simp [cmdState, hen, Nat.not_le.mpr hst, hlost, hop']

/-- A channel that is neither stopped nor cut from its path, as far as the operation minds, takes it in the states asked for. -/
theorem cmdState_asked {op : Nat} (hst : (mot s c).st < 3 ∨ 9 ≤ op ∧ op ≤ 10) (hlost : (mot s c).lost = false ∨ op ∉ [4, 5, 8]) :
    cmdState s c op = if stateAsked s c op = true then 0 else 2 := by
  have hstop : ¬(3 ≤ (mot s c).st ∧ op ≠ 9 ∧ op ≠ 10) := by omega
  have hpath : ¬((mot s c).lost = true ∧ (op = 4 ∨ op = 5 ∨ op = 8)) := fun ⟨hl, h⟩ => hlost.elim (fun hf => by simp [hf] at hl) fun hn => hn (by simpa using h)
  unfold cmdState
  dsimp only
  rw [if_neg (by simp [hen]), if_neg hstop, if_neg hpath]
  rfl

/-- A group member belongs to its own group. -/
theorem mem_membersOf_self (hlast : c ≤ 1055) (hsrc : motSrc s c = 2) : c ∈ membersOf s c := by
  simp only [membersOf, chans, List.mem_filter, List.mem_range]
  exact ⟨⟨by omega, hen⟩, by simp [hsrc]⟩

end

/-- Operation `op` asks for `ok` of its channel's source and state, and for `inRange` of its arguments. -/
structure Asks (s : State) (c op : Nat) (ok inRange : Prop) : Prop where
  known : op ≤ 10
  met : ok → stateAsked s c op = true ∧ ((mot s c).st < 3 ∨ 9 ≤ op) ∧ ((mot s c).lost = false ∨ op ∉ [4, 5, 8])
  only : c ≤ 1055 → motEn s c = true → (mot s c).lost = false → stateAsked s c op = true → ok
  range : inRange → cmdRange s c op = false

section
variable (s : State) (c : Nat)

theorem asks_move {op : Nat} (hop : op = 1 ∨ op = 2) :
    Asks s c op ((motSrc s c = 0 ∧ (mot s c).st ≤ 1) ∨ (motSrc s c = 2 ∧ (mot s c).st = 0)) True := by
  rcases hop with rfl | rfl
  · exact ⟨by decide, fun h => ⟨by simpa [stateAsked] using h, .inl (by omega), .inr (by decide)⟩, fun _ _ _ h => by simpa [stateAsked] using h, fun _ => rfl⟩
  · exact ⟨by decide, fun h => ⟨by simpa [stateAsked] using h, .inl (by omega), .inr (by decide)⟩, fun _ _ _ h => by simpa [stateAsked] using h, fun _ => rfl⟩

theorem asks_speed : Asks s c 3 (motSrc s c = 0 ∧ (mot s c).st ≤ 1) (bits 30 23 (rd s Reg.MOTION_SPEED_SPEED) ≠ 255) :=
  ⟨by decide, fun h => ⟨by simpa [stateAsked] using h, .inl (by omega), .inr (by decide)⟩, fun _ _ _ h => by simpa [stateAsked] using h,
    fun h => by simpa [cmdRange, b32Fin] using h⟩

theorem asks_gear : Asks s c 4 (motSrc s c = 1 ∧ (mot s c).st = 0 ∧ (mot s c).lost = false) True := by
  refine ⟨by decide, fun ⟨hsrc, hst, hlost⟩ => ⟨by simp [stateAsked, hsrc, hst], .inl (by omega), .inl hlost⟩, fun _ _ hlost h => ?_, fun _ => rfl⟩
  simpa [stateAsked, hlost] using h

theorem asks_cam : Asks s c 5 (motSrc s c = 1 ∧ (mot s c).st = 0 ∧ (mot s c).lost = false ∧ on s (Reg.MOTION_CAM_VALID (bits 5 0 (motAct s c 4))) = true) True := by
  refine ⟨by decide, fun ⟨hsrc, hst, hlost, hcam⟩ => ⟨by simp [stateAsked, hsrc, hst, hcam], .inl (by omega), .inl hlost⟩, fun _ _ hlost h => ?_, fun _ => rfl⟩
  simpa [stateAsked, hlost, and_assoc] using h

theorem asks_free : Asks s c 6 (motSrc s c = 1 ∧ (mot s c).st = 2) True :=
  ⟨by decide, fun h => ⟨by simpa [stateAsked] using h, .inl (by omega), .inr (by decide)⟩, fun _ _ _ h => by simpa [stateAsked] using h, fun _ => rfl⟩

theorem asks_super : Asks s c 7 ((mot s c).st = 2) True :=
  ⟨by decide, fun h => ⟨by simpa [stateAsked] using h, .inl (by omega), .inr (by decide)⟩, fun _ _ _ h => by simpa [stateAsked] using h, fun _ => rfl⟩

theorem asks_groupGo : Asks s c 8 (motSrc s c = 2 ∧ (mot s c).lost = false ∧ (mot s c).st = 0 ∧ ∀ d ∈ membersOf s c, (mot s d).st = 0)
    (∀ d ∈ membersOf s c, (stagedMove (mot s d)).natAbs ≤ 2 ^ 31 - 1) := by
  refine ⟨by decide, fun ⟨hsrc, hlost, hst, hidle⟩ => ⟨by simpa [stateAsked, hsrc] using hidle, .inl (by omega), .inl hlost⟩, fun hlast hen hlost h => ?_, fun h => ?_⟩
  · obtain ⟨hsrc, hidle⟩ : motSrc s c = 2 ∧ ∀ d ∈ membersOf s c, (mot s d).st = 0 := by simpa [stateAsked] using h
    exact ⟨hsrc, hlost, hidle c (mem_membersOf_self hen hlast hsrc), hidle⟩
  · simpa [cmdRange] using h

theorem asks_reregShift : Asks s c 9 (4 ≤ (mot s c).st ∧ (mot s c).lost = true) True :=
  ⟨by decide, fun h => ⟨by simpa [stateAsked] using h, .inr (by decide), .inr (by decide)⟩, fun _ _ _ h => by simpa [stateAsked] using h, fun _ => rfl⟩

theorem asks_reregMove : Asks s c 10 (4 ≤ (mot s c).st ∧ (mot s c).lost = true ∧ motSrc s c = 1) True :=
  ⟨by decide, fun h => ⟨by simpa [stateAsked, and_assoc] using h, .inr (by decide), .inr (by decide)⟩,
    fun _ _ _ h => by simpa [stateAsked, and_assoc] using h, fun _ => rfl⟩

end

/-! ## RESULT (R152, R153) -/

section
variable {s : State} {c op : Nat}

theorem cmdResult_noChannel (h : 1055 < c) : cmdResult s c op = 5 := if_pos h

/-- What the channel's source and state do not allow is the RESULT. -/
theorem cmdResult_state {r : Nat} (hlast : c ≤ 1055) (h : cmdState s c op = r) (hr : r ≠ 0) : cmdResult s c op = r := by
  rw [cmdResult, if_neg (Nat.not_lt.mpr hlast), h, if_pos hr]

theorem Asks.cmdState {ok inRange : Prop} (h : Asks s c op ok inRange) (hen : motEn s c = true) (hok : ok) : Machine.cmdState s c op = 0 := by
  obtain ⟨hasked, hst, hlost⟩ := h.met hok
  rw [cmdState_asked hen (hst.imp_right fun h9 => ⟨h9, h.known⟩) hlost, if_pos hasked]

theorem Asks.cmdState_unmet {ok inRange : Prop} (h : Asks s c op ok inRange) (hlast : c ≤ 1055) (hen : motEn s c = true) (hlost : (mot s c).lost = false)
    (hst : (mot s c).st < 3) (hok : ¬ok) : Machine.cmdState s c op = 2 := by
  rw [cmdState_asked hen (.inl hst) (.inl hlost), if_neg fun hasked => hok (h.only hlast hen hlost hasked)]

theorem Asks.cmdResult {ok inRange : Prop} (h : Asks s c op ok inRange) (hlast : c ≤ 1055) (hen : motEn s c = true) (hok : ok) (hrange : inRange) :
    Machine.cmdResult s c op =
      if rd64 s Reg.MOTION_CMD_AT_LO_CYCLE Reg.MOTION_CMD_AT_HI_CYCLE ≠ 0 ∧
        rd64 s Reg.MOTION_CMD_AT_LO_CYCLE Reg.MOTION_CMD_AT_HI_CYCLE < s.sched.cycle + motLead s then 1 else 0 := by
  rw [Machine.cmdResult, if_neg (Nat.not_lt.mpr hlast), if_neg (by simp [h.cmdState hen hok]), if_neg (by simp [h.range hrange])]

theorem cmdResult_lt : cmdResult s c op < 16 := by
  have hst : cmdState s c op < 16 := by
    unfold cmdState
    dsimp only
    repeat' split
    all_goals decide
  unfold cmdResult
  dsimp only
  repeat' split
  all_goals omega

end

/-! ## A command as OP is written (R152, R153) -/

/-- What a motion command does once its word is written. -/
def takeMotCmd (op : Nat) (s : State) : State :=
  let c := selCh s
  let r := cmdResult s c op
  let s := raise (wr s Reg.MOTION_CMD_RESULT r) 0x81 3
  if r ≠ 0 then s
  else
    let at_ := rd64 s Reg.MOTION_CMD_AT_LO_CYCLE Reg.MOTION_CMD_AT_HI_CYCLE
    let eff := if at_ = 0 then s.sched.cycle + motLead s else at_
    let x := mot s c
    let s := if x.cmd.isSome then postOther (incCnt s Reg.MOTION_SUPERSEDED_CNT_SUPERSEDED_CNT) 3 else s
    let s := wr64 s Reg.MOTION_EFF_LO_CYCLE Reg.MOTION_EFF_HI_CYCLE eff
    setMot s c { mot s c with cmd := some { due := eff, op := op, arg := sgn 64 (rd64 s Reg.MOTION_ARG_LO_ARG Reg.MOTION_ARG_HI_ARG),
                                            spd := BitVec.ofNat 32 (rd s Reg.MOTION_SPEED_SPEED) } }

/-- The cycle that a command is due at: CMD_AT, or the earliest. -/
def dueCycle (s : State) : Nat :=
  if rd64 s Reg.MOTION_CMD_AT_LO_CYCLE Reg.MOTION_CMD_AT_HI_CYCLE = 0 then s.sched.cycle + motLead s
  else rd64 s Reg.MOTION_CMD_AT_LO_CYCLE Reg.MOTION_CMD_AT_HI_CYCLE

/-- A command as a channel holds it: its cycle, its operation and its arguments. -/
def heldCmd (s : State) (op : Nat) : MotCmd :=
  { due := dueCycle s, op := op, arg := sgn 64 (rd64 s Reg.MOTION_ARG_LO_ARG Reg.MOTION_ARG_HI_ARG), spd := BitVec.ofNat 32 (rd s Reg.MOTION_SPEED_SPEED) }

/-- A command with its RESULT written, and the channel's event raised. -/
def shownResult (u : State) (r : Nat) : State := raise (wr u Reg.MOTION_CMD_RESULT r) 0x81 3

theorem rd_shownResult (u : State) {r : Nat} (hr : r < 16) : rd (shownResult u r) Reg.MOTION_CMD_RESULT = r := by
  rw [shownResult, rd, rdw_raise_aside ⟨by decide, .inl (by decide)⟩, ← rd, rd_wr_self _ _ _ (by decide) (by decide)]
  exact Nat.mod_eq_of_lt hr

section
variable {s u : State} (h : MotionView s u) {op : Nat}
include h

theorem MotionView.dueCycle : Machine.dueCycle u = Machine.dueCycle s := by
  rw [Machine.dueCycle, h.cmdAt, h.motLead, h.wire.sched, Machine.dueCycle]

theorem MotionView.heldCmd : Machine.heldCmd u op = Machine.heldCmd s op := by
  rw [Machine.heldCmd, h.dueCycle, h.rd64 _ _ (by decide) (by decide), h.rd _ (by decide) (by decide) (by decide), Machine.heldCmd]

theorem takeMotCmd_refused (hr : Machine.cmdResult s (Machine.selCh s) op ≠ 0) : takeMotCmd op u = shownResult u (Machine.cmdResult s (Machine.selCh s) op) := by
  unfold takeMotCmd
  dsimp only
  rw [h.selCh, h.cmdResult, if_pos hr, shownResult]

theorem takeMotCmd_taken (hr : Machine.cmdResult s (Machine.selCh s) op = 0) (hfree : (Machine.mot s (Machine.selCh s)).cmd = none) :
    takeMotCmd op u = setMot (wr64 (shownResult u 0) Reg.MOTION_EFF_LO_CYCLE Reg.MOTION_EFF_HI_CYCLE (Machine.dueCycle s)) (Machine.selCh s)
      { Machine.mot s (Machine.selCh s) with cmd := some (Machine.heldCmd s op) } := by
  have hv : MotionView s (shownResult u 0) := h.result 0
  have hset : ∀ v f, f.addr ≠ Reg.MOTION_EFF_LO_CYCLE.addr → f.addr ≠ Reg.MOTION_EFF_HI_CYCLE.addr →
      Machine.rd (wr64 (shownResult u 0) Reg.MOTION_EFF_LO_CYCLE Reg.MOTION_EFF_HI_CYCLE v) f = Machine.rd (shownResult u 0) f :=
    fun v f hlo hhi => by rw [Machine.rd, rdw_wr64_other _ _ hlo hhi, Machine.rd]
  have hmot : ∀ v d, Machine.mot (wr64 (shownResult u 0) Reg.MOTION_EFF_LO_CYCLE Reg.MOTION_EFF_HI_CYCLE v) d = Machine.mot s d := fun v d => hv.mot d
  unfold takeMotCmd
  dsimp only
  rw [h.selCh, h.cmdResult, hr, if_neg (fun hn => hn rfl), ← shownResult, hv.mot, hfree, ← Machine.dueCycle, hv.dueCycle, ← hv.heldCmd, Machine.heldCmd, hv.dueCycle]
  simp only [Option.isSome_none, Bool.false_eq_true, if_false, Machine.rd64, hset _ Reg.MOTION_ARG_LO_ARG (by decide) (by decide),
    hset _ Reg.MOTION_ARG_HI_ARG (by decide) (by decide), hset _ Reg.MOTION_SPEED_SPEED (by decide) (by decide), hmot]

end

section
variable {m : Master} {w : W32} {s : State} (hm : CanReach m s Reg.MOTION_CMD.addr) (hrole : roleBars s m = false) {op : Nat} (hop : wbits Reg.MOTION_CMD_OP w = op)
include hm hrole hop

theorem motCmd_kept : ∃ u, MotionView s u ∧ Kept (takeMotCmd op u) (motCmd s m w op) := by
  obtain ⟨u, hu, hk⟩ := pairOp_kept m w (ok := wbits Reg.MOTION_CMD_OP w = op) (takeMotCmd op) hm hrole (by simp [hop])
  exact ⟨u, hu.motionView, hk⟩

/-- A command that is refused shows why, and nothing is kept of it. -/
theorem motCmd_refused {r : Nat} (hr : cmdResult s (selCh s) op = r) (hne : r ≠ 0) :
    rd (motCmd s m w op) Reg.MOTION_CMD_RESULT = r ∧ (motCmd s m w op).mem = s.mem ∧ ∀ d, mot (motCmd s m w op) d = mot s d := by
  subst hr
  obtain ⟨u, hview, hk⟩ := motCmd_kept hm hrole hop
  rw [takeMotCmd_refused hview hne] at hk
  have hshown : MotionView s (shownResult u (cmdResult s (selCh s) op)) := hview.result _
  exact ⟨(hk.rd _).trans (rd_shownResult u cmdResult_lt), hk.mem.trans hshown.wire.mem, fun d => (hk.ended.mot d).trans (hshown.mot d)⟩

/-- A command that is accepted is kept with its cycle and arguments, in its channel alone. -/
theorem motCmd_taken (hr : cmdResult s (selCh s) op = 0) (hfree : (mot s (selCh s)).cmd = none) :
    rd (motCmd s m w op) Reg.MOTION_CMD_RESULT = 0 ∧ (motCmd s m w op).mem = s.mem ∧
      rd64 (motCmd s m w op) Reg.MOTION_EFF_LO_CYCLE Reg.MOTION_EFF_HI_CYCLE = dueCycle s % 2 ^ 64 ∧
      mot (motCmd s m w op) (selCh s) = { mot s (selCh s) with cmd := some (heldCmd s op) } ∧ ∀ d, d ≠ selCh s → mot (motCmd s m w op) d = mot s d := by
  obtain ⟨u, hview, hk⟩ := motCmd_kept hm hrole hop
  rw [takeMotCmd_taken hview hr hfree] at hk
  have hshown : MotionView s (shownResult u 0) := hview.result 0
  refine ⟨?_, hk.mem.trans hshown.wire.mem, ?_, ?_, fun d hd => ?_⟩
  · rw [hk.rd, rd_congr (setMot_regs ..), rd, rdw_wr64_other _ _ (by decide) (by decide), ← rd]
    exact rd_shownResult u (by decide)
  · rw [rd64, hk.rd, hk.rd, rd_congr (setMot_regs ..), rd_congr (setMot_regs ..), ← rd64]
    exact rd64_wr64_self _ _ (by decide) (by decide) (by decide)
  · rw [hk.ended.mot, mot_setMot_self]
  · rw [hk.ended.mot, mot_setMot_other _ _ _ hd]
    exact hshown.mot d

end

/-! ## The settled statement -/

/-- The states that one operation is accepted in, as O29 lists them, with what R152 and R153 make of the command in each case. -/
theorem motCmd_outcomes {m : Master} {w : W32} {s : State} (hm : CanReach m s Reg.MOTION_CMD.addr) (hrole : roleBars s m = false) {op : Nat}
    (hop : wbits Reg.MOTION_CMD_OP w = op) (hfree : (mot s (selCh s)).cmd = none) {ok inRange : Prop} (hasks : Asks s (selCh s) op ok inRange) :
    let c := selCh s
    let x := mot s c
    let t := motCmd s m w op
    let at_ := rd64 s Reg.MOTION_CMD_AT_LO_CYCLE Reg.MOTION_CMD_AT_HI_CYCLE
    t.mem = s.mem ∧ (∀ d, d ≠ c → mot t d = mot s d) ∧
      (1055 < c → rd t Reg.MOTION_CMD_RESULT = 5 ∧ mot t c = x) ∧
      (c ≤ 1055 → motEn s c = false → rd t Reg.MOTION_CMD_RESULT = 6 ∧ mot t c = x) ∧
      (c ≤ 1055 → motEn s c = true → 3 ≤ x.st → op < 9 → rd t Reg.MOTION_CMD_RESULT = 3 ∧ mot t c = x) ∧
      (c ≤ 1055 → motEn s c = true → x.lost = true → x.st < 3 → op ∈ [4, 5, 8] → rd t Reg.MOTION_CMD_RESULT = 4 ∧ mot t c = x) ∧
      (c ≤ 1055 → motEn s c = true → x.lost = false → x.st < 3 → ¬ok → rd t Reg.MOTION_CMD_RESULT = 2 ∧ mot t c = x) ∧
      (c ≤ 1055 → motEn s c = true → ok → inRange → at_ ≠ 0 → at_ < s.sched.cycle + motLead s → rd t Reg.MOTION_CMD_RESULT = 1 ∧ mot t c = x) ∧
      (c ≤ 1055 → motEn s c = true → ok → inRange → (at_ = 0 ∨ s.sched.cycle + motLead s ≤ at_) → rd t Reg.MOTION_CMD_RESULT = 0 ∧
        rd64 t Reg.MOTION_EFF_LO_CYCLE Reg.MOTION_EFF_HI_CYCLE = dueCycle s % 2 ^ 64 ∧ mot t c = { x with cmd := some (heldCmd s op) }) := by
  intro c x t at_
  have refused : ∀ r, cmdResult s c op = r → r ≠ 0 → rd t Reg.MOTION_CMD_RESULT = r ∧ mot t c = x := fun r hr hne => by
    obtain ⟨hres, -, hmot⟩ := motCmd_refused hm hrole hop hr hne
    exact ⟨hres, hmot c⟩
  have frame : t.mem = s.mem ∧ ∀ d, d ≠ c → mot t d = mot s d := by
    by_cases hr : cmdResult s c op = 0
    · obtain ⟨-, hmem, -, -, hother⟩ := motCmd_taken hm hrole hop hr hfree
      exact ⟨hmem, hother⟩
    · obtain ⟨-, hmem, hmot⟩ := motCmd_refused hm hrole hop rfl hr
      exact ⟨hmem, fun d _ => hmot d⟩
  refine ⟨frame.1, frame.2, ?_, ?_, ?_, ?_, ?_, ?_, ?_⟩
  · exact fun hc => refused 5 (cmdResult_noChannel hc) (by decide)
  · exact fun hlast hen => refused 6 (cmdResult_state hlast (cmdState_disabled hen op) (by decide)) (by decide)
  · exact fun hlast hen hst h9 => refused 3 (cmdResult_state hlast (cmdState_stopped hen hst h9) (by decide)) (by decide)
  · exact fun hlast hen hlost hst h => refused 4 (cmdResult_state hlast (cmdState_lost hen hlost hst h) (by decide)) (by decide)
  · exact fun hlast hen hlost hst hok => refused 2 (cmdResult_state hlast (hasks.cmdState_unmet hlast hen hlost hst hok) (by decide)) (by decide)
  · exact fun hlast hen hok hrange h0 hearly => refused 1 ((hasks.cmdResult hlast hen hok hrange).trans (if_pos ⟨h0, hearly⟩)) (by decide)
  · intro hlast hen hok hrange hat
    have hres : cmdResult s c op = 0 := (hasks.cmdResult hlast hen hok hrange).trans (if_neg fun ⟨h0, hearly⟩ => hat.elim h0 (Nat.not_le.mpr hearly))
    obtain ⟨hzero, -, heff, hmot, -⟩ := motCmd_taken hm hrole hop hres hfree
    exact ⟨hzero, heff, hmot⟩

/-- Settles O29: each operation by what it asks of its channel and its arguments. -/
theorem motionCommands : Obligations.MotionCommands := by
  unfold Obligations.MotionCommands
  intro m w s hm hrole c x src at_ due i hi hop hfree
  simp only [List.mem_cons, List.not_mem_nil, or_false] at hi
  rcases hi with rfl | rfl | rfl | rfl | rfl | rfl | rfl | rfl | rfl | rfl
  · exact ⟨_, rfl, motCmd_outcomes hm hrole hop hfree (asks_move s c (.inl rfl))⟩
  · exact ⟨_, rfl, motCmd_outcomes hm hrole hop hfree (asks_move s c (.inr rfl))⟩
  · exact ⟨_, rfl, motCmd_outcomes hm hrole hop hfree (asks_speed s c)⟩
  · exact ⟨_, rfl, motCmd_outcomes hm hrole hop hfree (asks_gear s c)⟩
  · exact ⟨_, rfl, motCmd_outcomes hm hrole hop hfree (asks_cam s c)⟩
  · exact ⟨_, rfl, motCmd_outcomes hm hrole hop hfree (asks_free s c)⟩
  · exact ⟨_, rfl, motCmd_outcomes hm hrole hop hfree (asks_super s c)⟩
  · exact ⟨_, rfl, motCmd_outcomes hm hrole hop hfree (asks_groupGo s c)⟩
  · exact ⟨_, rfl, motCmd_outcomes hm hrole hop hfree (asks_reregShift s c)⟩
  · exact ⟨_, rfl, motCmd_outcomes hm hrole hop hfree (asks_reregMove s c)⟩

end Sys2Proof.Machine
end

section
/-! PROOFS. Edges fired without a task: what the posters and the wells leave as it is (R43 to R50, R52, R60). -/

namespace Sys2Proof.Machine

/-- A register above its page's header, past the pages of clusters, cycle, engines and ports: no edge that fires writes it. -/
def PastEngines (k : Nat) : Prop := 0x40 ≤ k % 0x1000 ∧ 0x78 ≤ k / 0x1000 ∧ k ≠ 0xB1C00

theorem PastEngines.aside {k : Nat} (h : PastEngines k) (p : Nat) : Aside p k := ⟨h.2.2, .inl h.1⟩

theorem PastEngines.ne {k j : Nat} (h : PastEngines k) (hj : j < 0x78000) : k ≠ j := by
  have := h.2.1
  omega

/-- Memory, the encoder channels and the registers past the engines are in `t` what they are in `s`. -/
structure Fired (s t : State) : Prop where
  mem : t.mem = s.mem
  encs : t.encs = s.encs
  regs : ∀ k, PastEngines k → rdw t k = rdw s k

theorem Fired.refl (s : State) : Fired s s := ⟨rfl, rfl, fun _ _ => rfl⟩

theorem Fired.trans {s t u : State} (h : Fired s t) (k : Fired t u) : Fired s u :=
  ⟨k.mem.trans h.mem, k.encs.trans h.encs, fun j hj => (k.regs j hj).trans (h.regs j hj)⟩

theorem Fired.of_same {s t : State} (hmem : t.mem = s.mem) (hencs : t.encs = s.encs) (hregs : t.regs = s.regs) : Fired s t :=
  ⟨hmem, hencs, fun k _ => rdw_congr hregs k⟩

theorem fired_incCnt (s : State) {f : Fld} (hf : f.addr < 0x78000) : Fired s (incCnt s f) :=
  ⟨incCnt_mem .., incCnt_encs .., fun _ hk => rdw_incCnt (hk.aside _) (hk.ne hf) s⟩

theorem fired_incErr (s : State) {f : Fld} (hf : f.addr < 0x78000) : Fired s (incErr s f) :=
  ⟨incErr_mem .., incErr_encs .., fun _ hk => rdw_incErr (hk.aside _) (hk.ne hf) s⟩

theorem tdPrio_lt (s : State) (b t : Nat) : tdPrio s b t < 4 := Nat.mod_lt _ (by decide)

theorem home_lt (t : Nat) : home t < 4 := Nat.mod_lt _ (by decide)

/-! ## Tokens (R44, R52, R56) -/

theorem fired_setWell (s : State) {c p : Nat} (hc : c < 4) (hp : p < 4) (l : List Tok) : Fired s (setWell s c p l) :=
  ⟨setWell_mem .., setWell_encs .., fun _ hk => rdw_setWell_other _ _ _ _ (hk.ne (by simp only [Reg.CLU_WELL_PEAK]; omega))⟩

theorem fired_setEng (s : State) (e : Nat) (x : Engine) : Fired s (setEng s e x) := .of_same rfl rfl rfl

theorem fired_openGates (s : State) (c t : Nat) : Fired s (openGates s c t) := by
  unfold openGates
  dsimp only
  split <;> exact .of_same rfl rfl rfl

theorem fired_tryPreempt (s : State) {c : Nat} (hc : c < 4) : Fired s (tryPreempt s c) := by
  unfold tryPreempt
  split
  · exact .refl s
  · split
    · next k e _ _ =>
      have hwell : Fired s (setWell s c 0 ((well s c 0).filter (fun x => x.seq != k.seq))) := fired_setWell s hc (by decide) _
      have hcnt : (Reg.CLU_PREEMPT_CNT c).addr < 0x78000 := by simp only [Reg.CLU_PREEMPT_CNT]; omega
      exact (hwell.trans (fired_setEng _ e _)).trans (fired_incCnt _ hcnt)
    · exact .refl s

theorem fired_placeWell {s t : State} {b k c : Nat} (hc : c < 4) (h : placeTok.placeWell s b k c = some t) : Fired s t := by
  unfold placeTok.placeWell at h
  dsimp only at h
  split at h
  · cases h
    have hnew : Fired s (newTok s k).2 := .of_same rfl rfl rfl
    have hwell : Fired s (openGates (setWell (newTok s k).2 c (tdPrio s b k) (well (newTok s k).2 c (tdPrio s b k) ++ [(newTok s k).1])) c k) :=
      (hnew.trans (fired_setWell _ hc (tdPrio_lt s b k) _)).trans (fired_openGates _ _ _)
    split
    · exact hwell.trans (fired_tryPreempt _ hc)
    · exact hwell
  · cases h

theorem fired_placeTok {s t : State} {k : Nat} {loc : Option Nat} (h : placeTok s k loc = some t) : Fired s t := by
  have hhome := home_lt k
  unfold placeTok at h
  dsimp only at h
  split at h
  · cases h
    exact fired_incCnt s (by decide)
  · split at h
    · split at h
      · cases h
        exact .of_same rfl rfl rfl
      · cases h
    · split at h
      · split at h
        · cases h
          exact .of_same rfl rfl rfl
        · exact fired_placeWell hhome h
      · exact fired_placeWell hhome h

theorem fired_setTask (s : State) (t : Nat) (x : TaskSt) : Fired s (setTask s t x) := .of_same rfl rfl rfl

theorem fired_makeToken (s : State) (t : Nat) : Fired s (makeToken s t).1 := by
  unfold makeToken
  dsimp only
  split
  · exact .of_same rfl rfl rfl
  · exact .refl s

/-! ## Edges and posters (R43, R46, R60) -/

theorem fired_postFlag (s : State) (t f : Nat) : Fired s (postFlag s t f).1 := by
  unfold postFlag
  dsimp only
  split
  · exact (fired_setTask s t _).trans (fired_makeToken _ t)
  · exact .refl s

theorem fired_fireEdge (s : State) (src : Option Nat) (w : Edge) : Fired s (fireEdge s src w).1 := by
  unfold fireEdge
  dsimp only
  split
  · split
    · exact .refl s
    · split
      · exact fired_incErr s (by decide)
      · split
        · exact (fired_setTask s _ _).trans (fired_postFlag _ _ _)
        · exact .of_same rfl rfl rfl
  · split
    · exact fired_postFlag s _ _
    · split
      · split <;> exact .of_same rfl rfl rfl
      · exact .of_same rfl rfl rfl

theorem fired_countStall (s : State) (t : Nat) : Fired s (countStall s t) :=
  fired_incCnt s (by have := home_lt t; simp only [Reg.CLU_FULL_CNT]; omega)

theorem fired_runEdges (src eng : Option Nat) (l : List Edge) (s : State) : Fired s (runEdges s src eng l).1 := by
  induction l generalizing s with
  | nil => exact .refl s
  | cons w r ih =>
    have hedge := fired_fireEdge s src w
    simp only [runEdges]
    split
    · exact hedge.trans (ih _)
    · split
      · next hplace => exact (hedge.trans (fired_placeTok hplace)).trans (ih _)
      · exact hedge.trans (fired_countStall _ _)

theorem fired_runItem (s : State) (i : PostItem) : Fired s (runItem s i).1 := by
  simp only [runItem]
  split
  · split
    · next hplace => exact (fired_placeTok hplace).trans (fired_runEdges _ _ _ _)
    · dsimp only
      split
      · exact fired_countStall _ _
      · exact .refl s
  · exact fired_runEdges _ _ _ _

theorem fired_drainItems (l : List PostItem) (s : State) : Fired s (drainItems s l).1 := by
  induction l generalizing s with
  | nil => exact .refl s
  | cons i r ih =>
    have hitem := fired_runItem s i
    simp only [drainItems]
    split
    · exact hitem.trans (ih _)
    · exact hitem

theorem fired_releaseEng (s : State) (e : Nat) : Fired s (releaseEng s e) := by
  unfold releaseEng
  split
  · exact .of_same rfl rfl rfl
  · exact .refl s

theorem fired_setPoster (s : State) (w : Nat) (l : List PostItem) : Fired s (setPoster s w l) := .of_same rfl rfl rfl

theorem fired_drain (s : State) (w : Nat) : Fired s (drain s w) := by
  have hserved : Fired s (setPoster (drainItems s (poster s w)).1 w (drainItems s (poster s w)).2) :=
    (fired_drainItems _ s).trans (fired_setPoster _ _ _)
  unfold drain
  dsimp only
  split
  · exact List.foldlRecOn _ releaseEng (motive := Fired s) hserved fun t ht e _ => ht.trans (fired_releaseEng t e)
  · exact hserved

theorem fired_fireEdges (s : State) (w : Nat) (l : List Edge) : Fired s (fireEdges s w l) := by
  unfold fireEdges
  split
  · exact .refl s
  · exact (fired_setPoster s w _).trans (fired_drain _ w)

end Sys2Proof.Machine
end

section
/-! PROOFS. Transitions and Z edges of the encoder channels (R299, R300). -/

namespace Sys2Proof.Machine

/-! ## Fields of registers -/

/-- Field `g` is no part of field `f`: it stands in another register, or in other bits of the same one. -/
def Fld.Apart (f g : Fld) : Prop := g.addr ≠ f.addr ∨ (f.lo ≤ f.hi ∧ f.hi < 32 ∧ g.lo ≤ g.hi ∧ (g.hi < f.lo ∨ f.hi < g.lo))

theorem rd_wr_apart (s : State) {f g : Fld} (v : Nat) (h : f.Apart g) : rd (wr s f v) g = rd s g :=
  h.elim (rd_wr_other s f g v) fun ⟨hf, hhi, hg, hd⟩ => rd_wr_disj s f g v hf hhi hg hd

theorem on_wr_apart (s : State) {f g : Fld} (v : Nat) (h : f.Apart g) : on (wr s f v) g = on s g := by rw [on, rd_wr_apart s v h, on]

/-- A one-bit field reads the flag written to it. -/
theorem on_wr_self (s : State) {f : Fld} (b : Bool) (hbit : f.lo = f.hi) (hhi : f.hi < 32) : on (wr s f (b2n b)) f = b := by
  rw [on, rd_wr_self _ _ _ hbit.le hhi, hbit, Nat.add_sub_cancel_left]
  cases b <;> rfl

theorem on_wr_one (s : State) {f : Fld} (hbit : f.lo = f.hi) (hhi : f.hi < 32) : on (wr s f 1) f = true := on_wr_self s true hbit hhi

theorem on_wr_zero (s : State) {f : Fld} (hbit : f.lo = f.hi) (hhi : f.hi < 32) : on (wr s f 0) f = false := on_wr_self s false hbit hhi

theorem on_congr {s t : State} (h : t.regs = s.regs) (f : Fld) : on t f = on s f := by rw [on, rd_congr h, on]

theorem enc_congr {s t : State} (h : t.encs = s.encs) (n : Nat) : enc t n = enc s n := by rw [enc, h, enc]

/-! ## Points -/

theorem SamePtsBut.mono {l m : List Nat} {s t : State} (h : SamePtsBut l s t) (hlm : ∀ p ∈ l, p ∈ m) : SamePtsBut m s t :=
  fun a ha => h a fun p hp => ha p (hlm p hp)

theorem SamePtsBut.of_mem {s t : State} (h : t.mem = s.mem) (l : List Nat) : SamePtsBut l s t := fun a _ => mget_congr h a

theorem SamePtsBut.step {l : List Nat} {s t u : State} (h : SamePtsBut l s t) (k : SamePtsBut l t u) : SamePtsBut l s u :=
  fun a ha => (k a ha).trans (h a ha)

section
variable {l : List Nat} {s t : State} {p : Nat} (h : SamePtsBut l s t) (hp : ∀ q ∈ l, p % 2 ^ 20 ≠ q % 2 ^ 20)
include h hp

/-- The descriptor of a point that is not among those written reads as before. -/
theorem SamePtsBut.mget_pdAddr : mget t (pdAddr p) = mget s (pdAddr p) := h _ fun q hq => by
  have := hp q hq
  simp only [ptAddr, pdAddr]
  omega

/-- A point that is not among those written reads as before. -/
theorem PointIs.of_same {v : Nat} {st : Bool} (hs : PointIs s p v st) : PointIs t p v st := by
  refine ⟨(mnum_congr fun i hi => h _ fun q hq => ?_).trans hs.1, ?_⟩
  · have := hp q hq
    simp only [ptAddr, pdAddr]
    omega
  · rw [h.mget_pdAddr hp]
    exact hs.2

end

/-- Points 0 to 31 of encoder channel `n` lie in segment 25, one beside the other. -/
theorem pt_encoder {n i : Nat} (hn : n < 8) (hi : i < 32) : pt 25 n 0 i / 32768 % 32 ≠ 29 ∧ pt 25 n 0 i % 2 ^ 20 = 819200 + 512 * n + i := by
  simp only [pt]
  omega

theorem pt_encoder_ne {n i j : Nat} (hn : n < 8) (hi : i < 32) (hj : j < 32) (h : i ≠ j) : pt 25 n 0 i % 2 ^ 20 ≠ pt 25 n 0 j % 2 ^ 20 := by
  rw [(pt_encoder hn hi).2, (pt_encoder hn hj).2]
  omega

/-! ## Steps of the levels (R299, R300) -/

/-- The step between two positions of a cyclic sequence, listed by its forward moves: none where it is no neighbour. -/
def stepIn (l : List (Nat × Nat)) (o v : Nat) : Option Int :=
  if (o, v) ∈ l then some 1 else if (v, o) ∈ l then some (-1) else if o = v then some 0 else none

/-- The forward moves of (A, B) in quadrature, and of the Hall levels. -/
def quadMoves : List (Nat × Nat) := [(0, 2), (2, 3), (3, 1), (1, 0)]
def hallMoves : List (Nat × Nat) := [(1, 3), (3, 2), (2, 6), (6, 4), (4, 5), (5, 1)]

/-- The step of a transition by the listed sequences: a code that is none of the Hall sequence is left without a step. -/
def levelStep (ty : Nat) (old new : BitVec 3) : Option Int :=
  if ty = 1 then stepIn quadMoves (old.toNat / 2) (new.toNat / 2)
  else if new = 0#3 ∨ new = 7#3 then none
  else if old = 0#3 ∨ old = 7#3 then some 0
  else stepIn hallMoves old.toNat new.toNat

theorem encStepOf_eq {ty : Nat} (hty : ty = 1 ∨ ty = 2) (old new : BitVec 3) : encStepOf ty old.toNat new.toNat = levelStep ty old new := by
  rcases hty with rfl | rfl
  · revert old new
    decide
  · revert old new
    decide

theorem quadPos_eq_iff (old new : BitVec 3) : quadPos new.toNat = quadPos old.toNat ↔ old.toNat / 2 = new.toNat / 2 := by
  revert old new
  decide

/-! ## A transition -/

/-- The instant of an edge: the filter's delay before it is seen. -/
def edgeTime (s : State) (n : Nat) (at_ : W64) : Nat := at_.toNat - 4 * cfg s (Reg.ENC_CFG_FILT n)

/-- The edge comes too soon after the one before. -/
def tooClose (s : State) (n : Nat) (at_ : W64) : Bool :=
  match (enc s n).tAny with
  | some u => decide (edgeTime s n at_ < u + max 20 ((cfg s (Reg.ENC_CFG_FILT n) + 2) * 4))
  | none => false

/-- The edge before, where there is one, lies far enough back. -/
def WellSpaced (s : State) (n : Nat) (at_ : W64) : Prop :=
  ∀ u, (enc s n).tAny = some u → u + max 20 ((cfg s (Reg.ENC_CFG_FILT n) + 2) * 4) ≤ at_.toNat - 4 * cfg s (Reg.ENC_CFG_FILT n)

theorem tooClose_iff (s : State) (n : Nat) (at_ : W64) : tooClose s n at_ = true ↔ ¬WellSpaced s n at_ := by
  unfold tooClose WellSpaced edgeTime
  cases (enc s n).tAny with
  | none => simp
  | some u => simp

/-- SECTOR of a Hall channel follows a valid code. -/
def sectorShown (s : State) (n v : Nat) : State :=
  if encType s n = 2 then (match hallSector v with | some k => wr s (Reg.ENC_STAT_SECTOR n) k | none => s) else s

theorem sectorShown_shape (s : State) (n v : Nat) : RegsWire s (sectorShown s n v) := by
  unfold sectorShown
  split
  · split <;> rfl
  · rfl

/-- SECTOR writes no field but itself. -/
theorem rd_sectorShown (s : State) {n v : Nat} {g : Fld} (h : (Reg.ENC_STAT_SECTOR n).Apart g) : rd (sectorShown s n v) g = rd s g := by
  unfold sectorShown
  split
  · split
    · exact rd_wr_apart s _ h
    · rfl
  · rfl

theorem sectorShown_sameRegsBut (s : State) (n v : Nat) : SameRegsBut [(Reg.ENC_STAT_SECTOR n).addr] s (sectorShown s n v) := fun k hk => by
  unfold sectorShown
  split
  · split
    · exact rdw_wr_other _ _ _ fun he => hk (by simp [he])
    · rfl
  · rfl

/-- What a transition does to a channel that stood at `x`: it counts its step at time `t`, or is invalid. -/
def takeStep (s : State) (n : Nat) (x : EncSt) (t : Nat) : Option Int → State
  | some d => if d = 0 then setEnc s n { x with tAny := some t } else setEnc s n (noteEdge x (if cfgOn s (Reg.ENC_CFG_INV n) then -d else d) t)
  | none => wr (setEnc (incErr s (Reg.ENC_QERR_ERR_COUNT n)) n { x with tAny := some t, bad := true, inv := true }) (Reg.ENC_STAT_REF_LOST n) 1

section
variable {s : State} {n : Fin 8} {old new : BitVec 3} {at_ : W64}

theorem exec_encoderTransition_idle (h : domOn s dAUX = false ∨ encType s n = 0 ∨ 3 ≤ encType s n ∨ (encType s n = 1 ∧ old.toNat / 2 = new.toNat / 2)) :
    exec (.encoderTransition n old new at_) s = .next s := by
  change execEncoderTransition n old new at_ s = _
  unfold execEncoderTransition
  dsimp only
  split
  · next hin =>
    have hquad : encType s n = 1 ∧ quadPos new.toNat = quadPos old.toNat := by
      rw [quadPos_eq_iff]
      obtain ⟨haux, hty⟩ := hin
      rcases h with h | h | h | h
      · rw [haux] at h
        cases h
      · omega
      · omega
      · exact h
    rw [if_pos hquad, if_neg (by omega)]
  · rfl

variable (haux : domOn s dAUX = true) (hty : encType s n = 1 ∨ encType s n = 2) (hmoved : encType s n = 1 → old.toNat / 2 ≠ new.toNat / 2)
include haux hty hmoved

theorem exec_encoderTransition_taken : exec (.encoderTransition n old new at_) s =
    .next (takeStep (sectorShown s n new.toNat) n (enc s n) (edgeTime s n at_) (if tooClose s n at_ then none else levelStep (encType s n) old new)) := by
  rw [← encStepOf_eq hty]
  change execEncoderTransition n old new at_ s = _
  unfold execEncoderTransition
  dsimp only
  rw [if_pos ⟨haux, hty⟩, if_neg (fun h => hmoved h.1 ((quadPos_eq_iff old new).mp h.2))]
  rfl

theorem encoderTransition_invalid (h : ¬WellSpaced s n at_ ∨ levelStep (encType s n) old new = none) :
    ∃ t, exec (.encoderTransition n old new at_) s = .next t ∧ t.mem = s.mem ∧
      (enc t n).count = (enc s n).count ∧ (enc t n).inv = true ∧ on t (Reg.ENC_STAT_REF_LOST n) = true ∧
      rd t (Reg.ENC_QERR_ERR_COUNT n) = min 65535 (rd s (Reg.ENC_QERR_ERR_COUNT n) + 1) := by
  have hnone : (if tooClose s n at_ then none else levelStep (encType s n) old new) = none := by
    split
    · rfl
    · next hclose => exact h.resolve_left fun hn => hclose ((tooClose_iff s n at_).mpr hn)
  refine ⟨_, (exec_encoderTransition_taken haux hty hmoved).trans (by rw [hnone]; rfl), ?_, ?_, ?_, on_wr_one _ rfl (by decide : 5 < 32), ?_⟩
  · rw [wr_mem, setEnc_mem, incErr_mem, (sectorShown_shape ..).mem]
  · rw [enc_congr (wr_encs ..), enc_setEnc_self]
  · rw [enc_congr (wr_encs ..), enc_setEnc_self]
  · rw [rd_wr_apart _ _ (by simp [Fld.Apart, Reg.ENC_STAT_REF_LOST, Reg.ENC_QERR_ERR_COUNT]), rd_congr (setEnc_regs ..),
      rd_incErr_self _ ⟨by simp only [Reg.ENC_QERR_ERR_COUNT]; omega, .inl (by simp only [Reg.ENC_QERR_ERR_COUNT]; omega)⟩ (Nat.zero_le 15) (by decide : 15 < 32),
      rd_sectorShown s (by simp [Fld.Apart, Reg.ENC_STAT_SECTOR, Reg.ENC_QERR_ERR_COUNT])]
    rfl

variable (hspaced : WellSpaced s n at_)
include hspaced

theorem exec_encoderTransition_valid {d : Int} (hd : levelStep (encType s n) old new = some d) : exec (.encoderTransition n old new at_) s =
    .next (takeStep (sectorShown s n new.toNat) n (enc s n) (edgeTime s n at_) (some d)) := by
  rw [exec_encoderTransition_taken haux hty hmoved, if_neg fun hclose => (tooClose_iff s n at_).mp hclose hspaced, hd]

/-- A level change that only begins a new spacing. -/
theorem encoderTransition_spaced (hd : levelStep (encType s n) old new = some 0) :
    ∃ t, exec (.encoderTransition n old new at_) s = .next t ∧ t.mem = s.mem ∧ SameRegsBut [(Reg.ENC_STAT_SECTOR n).addr] s t ∧
      enc t n = { enc s n with tAny := some (edgeTime s n at_) } := by
  refine ⟨_, exec_encoderTransition_valid haux hty hmoved hspaced hd, ?_, ?_, enc_setEnc_self ..⟩
  · exact (sectorShown_shape s n new.toNat).mem
  · exact sectorShown_sameRegsBut s n new.toNat

theorem encoderTransition_counted {d : Int} (hd : levelStep (encType s n) old new = some d) (hne : d ≠ 0) :
    ∃ t, exec (.encoderTransition n old new at_) s = .next t ∧ t.mem = s.mem ∧ SameRegsBut [(Reg.ENC_STAT_SECTOR n).addr] s t ∧
      (enc t n).tLast = edgeTime s n at_ ∧
      (enc t n).count = (enc s n).count + BitVec.ofInt 64 (if cfgOn s (Reg.ENC_CFG_INV n) = true then -d else d) ∧
      ∀ m, m ≠ n.val → enc t m = enc s m := by
  have hinv : cfgOn (sectorShown s n new.toNat) (Reg.ENC_CFG_INV n) = cfgOn s (Reg.ENC_CFG_INV n) := by rw [cfgOn, cfg, (sectorShown_shape ..).ctl, ← cfg, ← cfgOn]
  refine ⟨setEnc (sectorShown s n new.toNat) n (noteEdge (enc s n) (if cfgOn s (Reg.ENC_CFG_INV n) = true then -d else d) (edgeTime s n at_)),
    ?_, ?_, ?_, ?_, ?_, fun m hm => ?_⟩
  · rw [exec_encoderTransition_valid haux hty hmoved hspaced hd, takeStep, if_neg hne, hinv]
  · exact (sectorShown_shape s n new.toNat).mem
  · exact sectorShown_sameRegsBut s n new.toNat
  · rw [enc_setEnc_self, noteEdge]
  · rw [enc_setEnc_self, noteEdge]
  · rw [enc_setEnc_other _ _ _ hm, enc_congr (sectorShown_shape ..).encs]

end

/-! ## A Z edge (R300, R308) -/

/-- Points 4 and 5 latch the count and the time of a Z edge. -/
def zLatched (s : State) (n t : Nat) : State :=
  if domOn s dNET then wrPt (wrPt s (pt 25 n 0 4) (enc s n).count.toNat false) (pt 25 n 0 5) t false else s

theorem zLatched_shape (s : State) (n t : Nat) : zLatched s n t = { s with mem := (zLatched s n t).mem } := by
  unfold zLatched
  split
  · rw [wrPt_shape, wrPt_shape s]
  · rfl

theorem zLatched_same (s : State) (n t : Nat) : SamePtsBut [pt 25 n 0 4, pt 25 n 0 5] s (zLatched s n t) := by
  unfold zLatched
  split
  · exact (wrPt_same s _ _ _).trans (wrPt_same _ _ _ _)
  · exact .of_mem rfl _

theorem zLatched_points {s : State} {n t : Nat} (hn : n < 8) (hnet : domOn s dNET = true) :
    PointIs (zLatched s n t) (pt 25 n 0 4) (enc s n).count.toNat false ∧ PointIs (zLatched s n t) (pt 25 n 0 5) t false := by
  unfold zLatched
  rw [if_pos hnet]
  refine ⟨PointIs.of_same (wrPt_same _ _ _ _) (fun q hq => ?_) (wrPt_is s _ _ _ (.inl (pt_encoder hn (by decide)).1)), wrPt_is _ _ _ _ (.inl (pt_encoder hn (by decide)).1)⟩
  obtain rfl : q = pt 25 n 0 5 := by simpa using hq
  exact pt_encoder_ne hn (by decide) (by decide) (by decide)

section
variable {s : State} {n : Fin 8} {at_ : W64}

theorem exec_zEdge_idle (h : domOn s dAUX = false ∨ cfgOn s (Reg.ENC_CFG_ZEN n) = false ∨ encType s n ≠ 1) : exec (.zEdge n at_) s = .next s := by
  change execZEdge n at_ s = _
  unfold execZEdge
  rw [if_neg]
  rintro hall
  simp only [Bool.and_eq_true, beq_iff_eq] at hall
  obtain ⟨⟨haux, hzen⟩, hty⟩ := hall
  simp [haux, hzen, hty] at h

variable (haux : domOn s dAUX = true) (hzen : cfgOn s (Reg.ENC_CFG_ZEN n) = true) (hty : encType s n = 1)
include haux hzen hty

theorem exec_zEdge : exec (.zEdge n at_) s = .next (let u := zLatched s n (edgeTime s n at_)
    if on u (Reg.ENC_STAT_ZARMED n) then wrs (setEnc u n { enc s n with count := encBase u n }) [(Reg.ENC_STAT_ZARMED n, 0), (Reg.ENC_STAT_REF_LOST n, 0)] else u) := by
  change execZEdge n at_ s = _
  unfold execZEdge
  rw [if_pos (by simp [haux, hzen, hty])]
  rfl

theorem zEdge_latches : ∃ t, exec (.zEdge n at_) s = .next t ∧ SamePtsBut [pt 25 n 0 4, pt 25 n 0 5] s t ∧
    (domOn s dNET = true → PointIs t (pt 25 n 0 4) (enc s n).count.toNat false ∧ PointIs t (pt 25 n 0 5) (edgeTime s n at_) false) ∧
    (on s (Reg.ENC_STAT_ZARMED n) = false → t.encs = s.encs ∧ t.regs = s.regs) ∧
    (on s (Reg.ENC_STAT_ZARMED n) = true → (enc t n).count = encBase s n ∧ on t (Reg.ENC_STAT_ZARMED n) = false ∧ on t (Reg.ENC_STAT_REF_LOST n) = false ∧
      SameRegsBut [(Reg.ENC_STAT_ZARMED n).addr] s t) := by
  have hexec := exec_zEdge (at_ := at_) haux hzen hty
  have hsame := zLatched_same s n (edgeTime s n at_)
  have hpts := zLatched_points (s := s) (t := edgeTime s n at_) n.isLt
  have hshape := zLatched_shape s n (edgeTime s n at_)
  generalize zLatched s n (edgeTime s n at_) = u at hexec hsame hpts hshape
  have hregs : u.regs = s.regs := by rw [hshape]
  have hencs : u.encs = s.encs := by rw [hshape]
  dsimp only at hexec
  rw [on_congr hregs] at hexec
  cases harm : on s (Reg.ENC_STAT_ZARMED n) with
  | false =>
    rw [harm, if_neg Bool.false_ne_true] at hexec
    exact ⟨u, hexec, hsame, hpts, fun _ => ⟨hencs, hregs⟩, nofun⟩
  | true =>
    rw [harm, if_pos rfl] at hexec
    have hbase : encBase u n = encBase s n := by rw [encBase, rd64, rd_congr hregs, rd_congr hregs, ← rd64, ← encBase]
    refine ⟨_, hexec, hsame, hpts, nofun, fun _ => ⟨?_, ?_, on_wr_zero _ rfl (by decide : 5 < 32), fun k hk => ?_⟩⟩
    · rw [enc_congr (wrs_encs ..), enc_setEnc_self, hbase]
    · exact (on_wr_apart _ _ (by simp [Fld.Apart, Reg.ENC_STAT_REF_LOST, Reg.ENC_STAT_ZARMED])).trans (on_wr_zero _ rfl (by decide : 6 < 32))
    · have hne : k ≠ (Reg.ENC_STAT_ZARMED n).addr := by simpa using hk
      rw [rdw_wrs_other _ (by simp only [List.mem_cons, List.not_mem_nil, or_false]; rintro x (rfl | rfl) <;> exact hne), rdw_congr (setEnc_regs ..), rdw_congr hregs]

end

end Sys2Proof.Machine
end

section
/-! PROOFS. Samples of the encoder channels, serial words and their time-outs (R301 to R308). -/

namespace Sys2Proof.Machine

/-! ## What the rest of a sample leaves as it is -/

/-- The fields of a channel that the statements about samples read. -/
def sampleFlds (n : Nat) : List Fld :=
  [Reg.ENC_STAT_FAULT n, Reg.ENC_STAT_STALE n, Reg.ENC_STAT_REF_LOST n, Reg.ENC_STAT_LASTFAIL n, Reg.ENC_TMO_ERR_COUNT n]

theorem pastEngines_sampleFlds {n : Nat} (hn : n < 8) : ∀ f ∈ sampleFlds n, PastEngines f.addr := by
  simp only [sampleFlds, List.mem_cons, List.not_mem_nil, or_false]
  rintro f (rfl | rfl | rfl | rfl | rfl) <;>
    simp only [PastEngines, Reg.ENC_STAT_FAULT, Reg.ENC_STAT_STALE, Reg.ENC_STAT_REF_LOST, Reg.ENC_STAT_LASTFAIL, Reg.ENC_TMO_ERR_COUNT] <;> omega

/-- What counts in a channel besides its speed window: count, last serial word, awaited word and run of failures. -/
structure SameChan (x y : EncSt) : Prop where
  count : y.count = x.count
  rPrev : y.rPrev = x.rPrev
  run : y.run = x.run

theorem SameChan.refl (x : EncSt) : SameChan x x := ⟨rfl, rfl, rfl⟩

theorem SameChan.trans {x y z : EncSt} (h : SameChan x y) (k : SameChan y z) : SameChan x z :=
  ⟨k.count.trans h.count, k.rPrev.trans h.rPrev, k.run.trans h.run⟩

/-- The seven points of a channel (R308). -/
def encPts (n : Nat) : List Nat := (List.range 7).map (pt 25 n 0)

/-- `t` is `s` once a later part of a sample of channel `n` is done: what the channel counts, its status and its domains stand. -/
structure SampleKept (n : Nat) (s t : State) : Prop where
  chan : SameChan (enc s n) (enc t n)
  await : (enc t n).await = (enc s n).await
  flds : ∀ f ∈ sampleFlds n, rd t f = rd s f
  pts : SamePtsBut (encPts n) s t

theorem SampleKept.refl (n : Nat) (s : State) : SampleKept n s s := ⟨.refl _, rfl, fun _ _ => rfl, .of_mem rfl _⟩

theorem SampleKept.trans {n : Nat} {s t u : State} (h : SampleKept n s t) (k : SampleKept n t u) : SampleKept n s u :=
  ⟨h.chan.trans k.chan, k.await.trans h.await,
    fun f hf => (k.flds f hf).trans (h.flds f hf), h.pts.step k.pts⟩

theorem SampleKept.on {n : Nat} {s t : State} (h : SampleKept n s t) {f : Fld} (hf : f ∈ sampleFlds n) : on t f = on s f := by
  rw [Machine.on, h.flds f hf, Machine.on]

/-- Writing points of the channel. -/
theorem SampleKept.of_points {n : Nat} {s t : State} (hencs : t.encs = s.encs) (hregs : t.regs = s.regs) (hpts : SamePtsBut (encPts n) s t) : SampleKept n s t := by
  have henc := enc_congr hencs n
  exact ⟨by rw [henc]; exact .refl _, by rw [henc], fun f _ => rd_congr hregs f, hpts⟩

theorem mem_encPts {n i : Nat} (hi : i < 7) : pt 25 n 0 i ∈ encPts n := List.mem_map_of_mem (List.mem_range.mpr hi)

theorem sampleKept_wrPt (s : State) {n i : Nat} (hi : i < 7) (v : Nat) (st : Bool) : SampleKept n s (wrPt s (pt 25 n 0 i) v st) :=
  .of_points (wrPt_encs ..) (wrPt_regs ..) ((wrPt_same s _ v st).mono fun _ hp => List.mem_singleton.mp hp ▸ mem_encPts hi)

theorem sampleKept_setStale (s : State) {n i : Nat} (hi : i < 7) (st : Bool) : SampleKept n s (setStale s (pt 25 n 0 i) st) :=
  .of_points rfl rfl ((setStale_same s _ st).mono fun _ hp => List.mem_singleton.mp hp ▸ mem_encPts hi)

/-- Edges that fire leave the sample as it is. -/
theorem Fired.sampleKept {n : Nat} (hn : n < 8) {s t : State} (h : Fired s t) : SampleKept n s t := by
  have henc := enc_congr h.encs n
  exact ⟨by rw [henc]; exact .refl _, by rw [henc], fun f hf => by rw [rd, h.regs _ (pastEngines_sampleFlds hn f hf), ← rd], .of_mem h.mem _⟩

theorem fired_encEdges (s : State) (n : Nat) : Fired s (encEdges s n) := fired_fireEdges _ _ _

/-! ## The report of a window (R306 to R308) -/

/-- A report writes none of the fields that it is not made of. -/
theorem sampleFlds_apart_report {n : Nat} : ∀ g ∈ sampleFlds n, (Reg.ENC_STAT_LOWRES n).Apart g ∧ (Reg.ENC_STAT_REV n).Apart g ∧ (Reg.ENC_STAT_STILL n).Apart g := by
  simp [sampleFlds, Fld.Apart, Reg.ENC_STAT_FAULT, Reg.ENC_STAT_STALE, Reg.ENC_STAT_REF_LOST, Reg.ENC_STAT_LASTFAIL, Reg.ENC_TMO_ERR_COUNT,
    Reg.ENC_STAT_LOWRES, Reg.ENC_STAT_REV, Reg.ENC_STAT_STILL]

/-- A report's flags and its word, before its point. -/
def reportShown (s : State) (n : Nat) (r : Report) : State :=
  let s := wrs s [(Reg.ENC_STAT_LOWRES n, r.flags % 2), (Reg.ENC_STAT_REV n, r.flags / 2 % 2), (Reg.ENC_STAT_STILL n, r.flags / 4 % 2)]
  setEnc s n { enc s n with rep := r.w }

theorem sampleKept_reportShown (s : State) (n : Nat) (r : Report) : SampleKept n s (reportShown s n r) := by
  have henc : enc (reportShown s n r) n = { enc (wrs s _) n with rep := r.w } := enc_setEnc_self ..
  refine ⟨?_, ?_, fun f hf => ?_, .of_mem (wrs_mem ..) _⟩
  · rw [henc, enc_congr (wrs_encs ..)]
    exact ⟨rfl, rfl, rfl⟩
  · rw [henc, enc_congr (wrs_encs ..)]
  · obtain ⟨hlow, hrev, hstill⟩ := sampleFlds_apart_report f hf
    rw [reportShown, rd_congr (setEnc_regs ..), wrs, List.foldl_cons, List.foldl_cons, List.foldl_cons, List.foldl_nil,
      rd_wr_apart _ _ hstill, rd_wr_apart _ _ hrev, rd_wr_apart _ _ hlow]

theorem sampleKept_putReport (s : State) (n : Nat) (r : Report) : SampleKept n s (putReport s n r) := by
  have hshown := sampleKept_reportShown s n r
  unfold putReport
  dsimp only
  split
  · split
    · exact hshown.trans (sampleKept_setStale _ (by decide) _)
    · exact hshown.trans (sampleKept_wrPt _ (by decide) _ _)
  · exact hshown

theorem putReport_pwr (s : State) (n : Nat) (r : Report) : (putReport s n r).pwr = s.pwr := by
  unfold putReport
  dsimp only
  split
  · split
    · rfl
    · exact wrPt_pwr ..
  · rfl

/-- The report of a window that the sample closes, where it closes one. -/
def reported (s : State) (n : Nat) : Option Report → State
  | some r => putReport s n r
  | none => s

theorem sampleKept_reported (s : State) (n : Nat) (r : Option Report) : SampleKept n s (reported s n r) := by
  cases r with
  | none => exact .refl n s
  | some r => exact sampleKept_putReport s n r

theorem reported_pwr (s : State) (n : Nat) (r : Option Report) : (reported s n r).pwr = s.pwr := by
  cases r with
  | none => rfl
  | some r => exact putReport_pwr s n r

/-! ## The status of a sample (R303) -/

/-- A failed sample counts its cause, lengthens the run and marks the channel stale. -/
def sampleStatus (s : State) (n cause : Nat) : State :=
  let s := countFail s n cause
  let x := enc s n
  let s := setEnc s n { x with run := if cause = 0 then 0 else x.run + 1, bad := false, await := false, tw := none }
  let s := if cause = 0 then s else wr s (Reg.ENC_STAT_LASTFAIL n) cause
  wr s (Reg.ENC_STAT_STALE n) (b2n (cause != 0 || on s (Reg.ENC_STAT_FAULT n)))

theorem countFail_shape (s : State) (n cause : Nat) : RegsWire s (countFail s n cause) := by
  unfold countFail
  split
  · exact incErr_shape _ _
  · split
    · exact incErr_shape _ _
    · split
      · exact incErr_shape _ _
      · exact .refl s

/-- STAT is not among the registers that count failures. -/
theorem rdw_countFail_stat (s : State) (n cause : Nat) : rdw (countFail s n cause) (Reg.ENC_STAT n).addr = rdw s (Reg.ENC_STAT n).addr := by
  have counted : ∀ f : Fld, (Reg.ENC_STAT n).addr ≠ f.addr → rdw (incErr s f) (Reg.ENC_STAT n).addr = rdw s (Reg.ENC_STAT n).addr := fun f hf =>
    rdw_incErr ⟨by simp only [Reg.ENC_STAT]; omega, .inl (by simp only [Reg.ENC_STAT]; omega)⟩ hf s
  unfold countFail
  split
  · exact counted _ (by simp [Reg.ENC_STAT, Reg.ENC_CRC_ERR_COUNT])
  · split
    · exact counted _ (by simp [Reg.ENC_STAT, Reg.ENC_EBIT_ERR_COUNT])
    · split
      · exact counted _ (by simp [Reg.ENC_STAT, Reg.ENC_TMO_ERR_COUNT])
      · rfl

theorem rd_countFail_timeout (s : State) (n : Nat) : rd (countFail s n 3) (Reg.ENC_TMO_ERR_COUNT n) = min 65535 (rd s (Reg.ENC_TMO_ERR_COUNT n) + 1) :=
  rd_incErr_self s ⟨by simp only [Reg.ENC_TMO_ERR_COUNT]; omega, .inl (by simp only [Reg.ENC_TMO_ERR_COUNT]; omega)⟩ (Nat.zero_le 15) (by decide : 15 < 32)

section
variable (s : State) (n cause : Nat)

theorem enc_sampleStatus : enc (sampleStatus s n cause) n =
    { enc s n with run := if cause = 0 then 0 else (enc s n).run + 1, bad := false, await := false, tw := none } := by
  have hcount : enc (countFail s n cause) n = enc s n := enc_congr (countFail_shape s n cause).encs n
  unfold sampleStatus
  dsimp only
  rw [hcount, enc_congr (wr_encs ..)]
  split
  · exact enc_setEnc_self ..
  · rw [enc_congr (wr_encs ..), enc_setEnc_self]

theorem sampleStatus_mem_pwr : (sampleStatus s n cause).mem = s.mem ∧ (sampleStatus s n cause).pwr = s.pwr := by
  have hcount := countFail_shape s n cause
  unfold sampleStatus
  dsimp only
  split <;> exact ⟨hcount.mem, hcount.pwr⟩

/-- The status that a sample writes leaves the fields it is not made of. -/
theorem rd_sampleStatus {g : Fld} (hstale : (Reg.ENC_STAT_STALE n).Apart g) (hfail : (Reg.ENC_STAT_LASTFAIL n).Apart g) :
    rd (sampleStatus s n cause) g = rd (countFail s n cause) g := by
  unfold sampleStatus
  dsimp only
  rw [rd_wr_apart _ _ hstale]
  split
  · rfl
  · exact rd_wr_apart _ _ hfail

theorem on_sampleStatus_fault : on (sampleStatus s n cause) (Reg.ENC_STAT_FAULT n) = on s (Reg.ENC_STAT_FAULT n) := by
  rw [on, rd_sampleStatus s n cause (by simp [Fld.Apart, Reg.ENC_STAT_STALE, Reg.ENC_STAT_FAULT]) (by simp [Fld.Apart, Reg.ENC_STAT_LASTFAIL, Reg.ENC_STAT_FAULT]), rd]
  exact congrArg (fun w => bits 0 0 w == 1) (rdw_countFail_stat s n cause)

theorem on_sampleStatus_refLost : on (sampleStatus s n cause) (Reg.ENC_STAT_REF_LOST n) = on s (Reg.ENC_STAT_REF_LOST n) := by
  rw [on, rd_sampleStatus s n cause (by simp [Fld.Apart, Reg.ENC_STAT_STALE, Reg.ENC_STAT_REF_LOST]) (by simp [Fld.Apart, Reg.ENC_STAT_LASTFAIL, Reg.ENC_STAT_REF_LOST]), rd]
  exact congrArg (fun w => bits 5 5 w == 1) (rdw_countFail_stat s n cause)

theorem on_sampleStatus_stale : on (sampleStatus s n cause) (Reg.ENC_STAT_STALE n) = (cause != 0 || on s (Reg.ENC_STAT_FAULT n)) := by
  have hfault : on (countFail s n cause) (Reg.ENC_STAT_FAULT n) = on s (Reg.ENC_STAT_FAULT n) :=
    congrArg (fun w => bits 0 0 w == 1) (rdw_countFail_stat s n cause)
  unfold sampleStatus
  dsimp only
  rw [on_wr_self _ _ rfl (by decide : 1 < 32)]
  split
  · rw [on_congr (setEnc_regs ..), hfault]
  · rw [on_wr_apart _ _ (by simp [Fld.Apart, Reg.ENC_STAT_LASTFAIL, Reg.ENC_STAT_FAULT]), on_congr (setEnc_regs ..), hfault]

variable {cause}

theorem rd_sampleStatus_lastFail (hne : cause ≠ 0) (hlt : cause < 8) : rd (sampleStatus s n cause) (Reg.ENC_STAT_LASTFAIL n) = cause := by
  unfold sampleStatus
  dsimp only
  rw [rd_wr_apart _ _ (by simp [Fld.Apart, Reg.ENC_STAT_STALE, Reg.ENC_STAT_LASTFAIL]), if_neg hne, rd_wr_self _ _ _ (by decide : 11 ≤ 13) (by decide : 13 < 32)]
  exact Nat.mod_eq_of_lt hlt

end

/-! ## The end of a sample (R301, R303, R308) -/

/-- The position point: marked stale, or the count. -/
def countPoint (s : State) (n : Nat) (count : W64) (stale : Bool) : State :=
  if stale then setStale s (pt 25 n 0 0) true else wrPt s (pt 25 n 0 0) count.toNat false

/-- The points of a sample's status, of its time and of its source. -/
def statusPoints (s : State) (n : Nat) (x : EncSt) (run p6 : Nat) : State :=
  let s := wrPt s (pt 25 n 0 2) (bits 13 0 (rdw s (Reg.ENC_STAT n).addr) + min 255 run * 2 ^ 16) false
  let s := wrPt s (pt 25 n 0 3) (if encType s n ≤ 2 then x.tLast else x.at_) false
  wrPt s (pt 25 n 0 6) p6 false

/-- The points of a sample, where NET is ON. -/
def samplePoints (s : State) (n : Nat) (x : EncSt) (run : Nat) (stale : Bool) (p6 : Nat) : State :=
  if domOn s dNET then statusPoints (countPoint s n x.count stale) n x run p6 else s

/-- The end of a sample: its status, the report, the points, the edges. -/
theorem encFinish_eq (s : State) (n cause p6 : Nat) (r : Option Report) : ∃ x run stale, x.count = (enc s n).count ∧
    stale = (cause != 0 || on s (Reg.ENC_STAT_FAULT n)) ∧
    encFinish s n cause p6 r = encEdges (samplePoints (reported (sampleStatus s n cause) n r) n x run stale p6) n := by
  refine ⟨enc (countFail s n cause) n, if cause = 0 then 0 else (enc (countFail s n cause) n).run + 1, _, ?_, rfl, ?_⟩
  · rw [enc_congr (countFail_shape s n cause).encs]
  · have hfault : ∀ x, on (if cause = 0 then setEnc (countFail s n cause) n x else wr (setEnc (countFail s n cause) n x) (Reg.ENC_STAT_LASTFAIL n) cause)
        (Reg.ENC_STAT_FAULT n) = on s (Reg.ENC_STAT_FAULT n) := fun x => by
      have hcount : on (countFail s n cause) (Reg.ENC_STAT_FAULT n) = on s (Reg.ENC_STAT_FAULT n) :=
        congrArg (fun w => bits 0 0 w == 1) (rdw_countFail_stat s n cause)
      split
      · exact hcount
      · exact (on_wr_apart _ _ (by simp [Fld.Apart, Reg.ENC_STAT_LASTFAIL, Reg.ENC_STAT_FAULT])).trans hcount
    unfold encFinish sampleStatus
    dsimp only
    rw [hfault]
    cases r <;> rfl

theorem sampleKept_statusPoints (s : State) (n : Nat) (x : EncSt) (run p6 : Nat) : SampleKept n s (statusPoints s n x run p6) :=
  ((sampleKept_wrPt s (by decide) _ _).trans (sampleKept_wrPt _ (by decide) _ _)).trans (sampleKept_wrPt _ (by decide) _ _)

/-- The points of a sample's status leave the position point. -/
theorem statusPoints_same (s : State) (n : Nat) (x : EncSt) (run p6 : Nat) :
    SamePtsBut [pt 25 n 0 2, pt 25 n 0 3, pt 25 n 0 6] s (statusPoints s n x run p6) :=
  ((wrPt_same s _ _ _).trans (wrPt_same _ _ _ _)).trans (wrPt_same _ _ _ _)

theorem sampleKept_samplePoints (s : State) (n : Nat) (x : EncSt) (run : Nat) (stale : Bool) (p6 : Nat) : SampleKept n s (samplePoints s n x run stale p6) := by
  have hcount : SampleKept n s (countPoint s n x.count stale) := by
    unfold countPoint
    split
    · exact sampleKept_setStale s (by decide) _
    · exact sampleKept_wrPt s (by decide) _ _
  unfold samplePoints
  split
  · exact hcount.trans (sampleKept_statusPoints _ n x run p6)
  · exact .refl n s

theorem pt0_apart_status {n : Nat} (hn : n < 8) : ∀ q ∈ [pt 25 n 0 2, pt 25 n 0 3, pt 25 n 0 6], pt 25 n 0 0 % 2 ^ 20 ≠ q % 2 ^ 20 := by
  simp only [List.mem_cons, List.not_mem_nil, or_false]
  rintro q (rfl | rfl | rfl)
  · exact pt_encoder_ne hn (by decide) (by decide) (by decide)
  · exact pt_encoder_ne hn (by decide) (by decide) (by decide)
  · exact pt_encoder_ne hn (by decide) (by decide) (by decide)

section
variable {s : State} {n : Nat} (hn : n < 8) (hnet : domOn s dNET = true) (x : EncSt) (run : Nat) (p6 : Nat)
include hn hnet

theorem samplePoints_fresh : PointIs (samplePoints s n x run false p6) (pt 25 n 0 0) x.count.toNat false := by
  rw [samplePoints, if_pos hnet]
  exact PointIs.of_same (statusPoints_same _ n x run p6) (pt0_apart_status hn) (wrPt_is s _ _ _ (.inl (pt_encoder hn (by decide)).1))

theorem samplePoints_stale : (mget (samplePoints s n x run true p6) (pdAddr (pt 25 n 0 0))).toNat % 2 = 1 := by
  rw [samplePoints, if_pos hnet, (statusPoints_same _ n x run p6).mget_pdAddr (pt0_apart_status hn), countPoint, if_pos rfl, mget_setStale]
  rfl

end

/-- `t` is `v` once a sample of channel `n` has ended, with the cause of its failure, or 0. -/
structure Sampled (v : State) (n cause : Nat) (t : State) : Prop where
  count : (enc t n).count = (enc v n).count
  rPrev : (enc t n).rPrev = (enc v n).rPrev
  await : (enc t n).await = false
  run : (enc t n).run = if cause = 0 then 0 else (enc v n).run + 1
  lastFail : cause ≠ 0 → rd t (Reg.ENC_STAT_LASTFAIL n) = cause
  stale : on t (Reg.ENC_STAT_STALE n) = (cause != 0 || on v (Reg.ENC_STAT_FAULT n))
  refLost : on t (Reg.ENC_STAT_REF_LOST n) = on v (Reg.ENC_STAT_REF_LOST n)
  timeouts : cause = 3 → rd t (Reg.ENC_TMO_ERR_COUNT n) = min 65535 (rd v (Reg.ENC_TMO_ERR_COUNT n) + 1)
  pts : SamePtsBut (encPts n) v t
  fresh : domOn v dNET = true → cause = 0 → on v (Reg.ENC_STAT_FAULT n) = false → PointIs t (pt 25 n 0 0) (enc v n).count.toNat false
  marked : domOn v dNET = true → (cause ≠ 0 ∨ on v (Reg.ENC_STAT_FAULT n) = true) → (mget t (pdAddr (pt 25 n 0 0))).toNat % 2 = 1

theorem encFinish_sampled (v : State) {n cause : Nat} (hn : n < 8) (hc : cause < 8) (p6 : Nat) (r : Option Report) : Sampled v n cause (encFinish v n cause p6 r) := by
  obtain ⟨x, run, stale, hcount, hstale, heq⟩ := encFinish_eq v n cause p6 r
  have hstatus : SampleKept n (sampleStatus v n cause) (encFinish v n cause p6 r) := by
    rw [heq]
    exact ((sampleKept_reported _ n r).trans (sampleKept_samplePoints _ n x run stale p6)).trans ((fired_encEdges _ n).sampleKept hn)
  have henc := enc_sampleStatus v n cause
  have hmem : (encFinish v n cause p6 r).mem = (samplePoints (reported (sampleStatus v n cause) n r) n x run stale p6).mem := by
    rw [heq]
    exact (fired_encEdges _ n).mem
  have hnet : domOn (reported (sampleStatus v n cause) n r) dNET = domOn v dNET := domOn_congr ((reported_pwr _ n r).trans (sampleStatus_mem_pwr v n cause).2) dNET
  have hpt : SamePtsBut (encPts n) v (sampleStatus v n cause) := .of_mem (sampleStatus_mem_pwr v n cause).1 _
  refine ⟨?_, ?_, ?_, ?_, fun hne => ?_, ?_, ?_, fun h3 => ?_, hpt.step hstatus.pts, fun hon h0 hfault => ?_, fun hon hbad => ?_⟩
  · rw [hstatus.chan.count, henc]
  · rw [hstatus.chan.rPrev, henc]
  · rw [hstatus.await, henc]
  · rw [hstatus.chan.run, henc]
  · rw [hstatus.flds _ (by simp [sampleFlds]), rd_sampleStatus_lastFail v n hne hc]
  · rw [hstatus.on (by simp [sampleFlds]), on_sampleStatus_stale]
  · rw [hstatus.on (by simp [sampleFlds]), on_sampleStatus_refLost]
  · subst h3
    rw [hstatus.flds _ (by simp [sampleFlds]), rd_sampleStatus v n 3 (by simp [Fld.Apart, Reg.ENC_STAT_STALE, Reg.ENC_TMO_ERR_COUNT])
      (by simp [Fld.Apart, Reg.ENC_STAT_LASTFAIL, Reg.ENC_TMO_ERR_COUNT]), rd_countFail_timeout]
  · have hfalse : stale = false := by simp [hstale, h0, hfault]
    subst hfalse
    rw [← hcount]
    exact (samplePoints_fresh hn (hnet.trans hon) x run p6).of_same (.of_mem hmem []) (by simp)
  · have htrue : stale = true := by simpa [hstale] using hbad
    subst htrue
    rw [mget_congr hmem]
    exact samplePoints_stale hn (hnet.trans hon) x run p6

/-! ## A sample (R301, R305) -/

theorem sameChan_speedCount (s : State) (n : Nat) {x y : EncSt} (h : SameChan x y) (now tw : Nat) : SameChan x (speedCount s n y now tw).2 := by
  unfold speedCount
  dsimp only
  repeat' split
  all_goals exact ⟨h.count, h.rPrev, h.run⟩

theorem sameChan_speedSerial (s : State) (n : Nat) {x y : EncSt} (h : SameChan x y) (good : Bool) (tw : Nat) : SameChan x (speedSerial s n y good tw).2 := by
  unfold speedSerial
  dsimp only
  repeat' split
  all_goals exact ⟨h.count, h.rPrev, h.run⟩

theorem sameChan_serialOpen {x y : EncSt} (h : SameChan x y) (good : Bool) : SameChan x (serialOpen y good) := by
  unfold serialOpen
  split
  · exact ⟨h.count, h.rPrev, h.run⟩
  · exact h

/-- The instant of a sample. -/
def sampleNow (s : State) (n : Nat) : Nat := (s.time.tb / 2 ^ 40 + rd s (Reg.ENC_SAMPLE_NS n)) % 2 ^ 64

/-- The length of the window that a sample closes, where it closes one. -/
def windowClosed (s : State) (n : Nat) : Option Nat :=
  if (enc s n).isOpen && s.sched.cycle % max 1 (enc s n).win == 0 then some (sampleNow s n - (enc s n).close0) else none

/-- A channel at its sample: a window is open from here on. -/
def sampleOpened (s : State) (n : Nat) : EncSt :=
  let x := enc s n
  let closes := x.isOpen && s.sched.cycle % max 1 x.win == 0
  { x with at_ := sampleNow s n, isOpen := true, close0 := if closes || !x.isOpen then sampleNow s n else x.close0,
           n := if x.isOpen then x.n else 0, net := if x.isOpen then x.net else 0,
           rev := x.isOpen && x.rev, inv := x.isOpen && x.inv }

theorem sameChan_sampleOpened (s : State) (n : Nat) : SameChan (enc s n) (sampleOpened s n) := ⟨rfl, rfl, rfl⟩

/-- A counting channel's sample ends, with the report of a window that it closes. -/
def countingEnd (s : State) (n : Nat) (x : EncSt) (tw : Option Nat) (now cause p6 : Nat) : State :=
  match tw with
  | some t => encFinish (setEnc s n (speedCount s n x now t).2) n cause p6 (some (speedCount s n x now t).1)
  | none => encFinish (setEnc s n x) n cause p6 none

/-- A serial channel's sample ends, with the report of a window that it closes. -/
def serialEnd (s : State) (n : Nat) (x : EncSt) (good : Bool) (cause p6 : Nat) : State :=
  match x.tw with
  | some t => encFinish (setEnc s n (speedSerial s n x good t).2) n cause p6 (some (speedSerial s n x good t).1)
  | none => encFinish (setEnc s n (serialOpen x good)) n cause p6 none

section
variable (s : State) {n cause : Nat} (hn : n < 8) (hc : cause < 8) (x : EncSt)
include hn hc

/-- A counting channel's sample ends as one of a channel with its count and its run of failures. -/
theorem countingEnd_sampled (tw : Option Nat) (now p6 : Nat) : ∃ y, SameChan x y ∧ Sampled (setEnc s n y) n cause (countingEnd s n x tw now cause p6) := by
  cases tw with
  | some t =>
    have hend := encFinish_sampled (setEnc s n (speedCount s n x now t).2) hn hc p6 (some (speedCount s n x now t).1)
    exact ⟨_, sameChan_speedCount s n (.refl x) now t, hend⟩
  | none =>
    have hend := encFinish_sampled (setEnc s n x) hn hc p6 none
    exact ⟨x, .refl x, hend⟩

/-- A serial channel's sample ends as one of a channel with its count, its last word and its run of failures. -/
theorem serialEnd_sampled (good : Bool) (p6 : Nat) : ∃ y, SameChan x y ∧ Sampled (setEnc s n y) n cause (serialEnd s n x good cause p6) := by
  unfold serialEnd
  split
  · exact ⟨_, sameChan_speedSerial s n (.refl x) good _, encFinish_sampled _ hn hc _ _⟩
  · exact ⟨_, sameChan_serialOpen (.refl x) good, encFinish_sampled _ hn hc _ _⟩

end

section
variable {s : State} {n : Fin 8}

theorem exec_encoderSample_off (h : domOn s dAUX = false ∨ domOn s dNET = false ∨ encType s n = 0) : exec (.encoderSample n) s = .next s := by
  change execEncoderSample n s = _
  unfold execEncoderSample
  dsimp only
  rw [if_neg]
  intro hall
  simp only [Bool.and_eq_true, bne_iff_ne, ne_eq] at hall
  obtain ⟨⟨haux, hnet⟩, hty⟩ := hall
  simp [haux, hnet, hty] at h

variable (haux : domOn s dAUX = true) (hnet : domOn s dNET = true)
include haux hnet

theorem exec_encoderSample_counting (hty : encType s n = 1 ∨ encType s n = 2) : ∃ p6, exec (.encoderSample n) s =
    .next (countingEnd s n (sampleOpened s n) (windowClosed s n) (sampleNow s n) (if (enc s n).bad = true then 4 else 0) p6) := by
  change ∃ p6, execEncoderSample n s = _
  unfold execEncoderSample
  dsimp only
  rw [if_pos (by rcases hty with h | h <;> simp [haux, hnet, h]), if_pos (show encType s n ≤ 2 by omega)]
  exact ⟨if encType s n = 2 then rd s (Reg.ENC_STAT_SECTOR n) else 0, rfl⟩

theorem exec_encoderSample_request (hty : 3 ≤ encType s n) : ∃ t, exec (.encoderSample n) s = .next t ∧ (enc t n).await = true ∧
    t = { s with encs := t.encs, wire := s.wire ++ [.encRequest n] } := by
  change ∃ t, execEncoderSample n s = _ ∧ _
  unfold execEncoderSample
  dsimp only
  rw [if_pos (by simp [haux, hnet, show encType s n ≠ 0 by omega]), if_neg (show ¬encType s n ≤ 2 by omega)]
  refine ⟨_, rfl, ?_, rfl⟩
  rw [enc_congr (emit_encs ..), enc_setEnc_self]

/-- A sample of a counting channel publishes the count, or marks it stale. -/
theorem encoderSample_counting (hty : encType s n = 1 ∨ encType s n = 2) :
    ∃ t, exec (.encoderSample n) s = .next t ∧ SamePtsBut (encPts n) s t ∧ (enc t n).count = (enc s n).count ∧
      (enc t n).run = (if (enc s n).bad = true then (enc s n).run + 1 else 0) ∧ on t (Reg.ENC_STAT_STALE n) = ((enc s n).bad || on s (Reg.ENC_STAT_FAULT n)) ∧
      ((enc s n).bad = false → on s (Reg.ENC_STAT_FAULT n) = false → PointIs t (pt 25 n 0 0) (enc s n).count.toNat false) ∧
      (((enc s n).bad = true ∨ on s (Reg.ENC_STAT_FAULT n) = true) → (mget t (pdAddr (pt 25 n 0 0))).toNat % 2 = 1) := by
  obtain ⟨p6, hexec⟩ := exec_encoderSample_counting haux hnet hty
  obtain ⟨y, hopened, hend⟩ := countingEnd_sampled s n.isLt (cause := if (enc s n).bad = true then 4 else 0) (by split <;> decide) (sampleOpened s n)
    (windowClosed s n) (sampleNow s n) p6
  have hsame : SameChan (enc s n) y := (sameChan_sampleOpened s n).trans hopened
  have hy : enc (setEnc s n y) n = y := enc_setEnc_self ..
  refine ⟨_, hexec, hend.pts, ?_, ?_, ?_, fun hbad hfault => ?_, fun hbad => hend.marked hnet (hbad.imp_left fun hb => ?_)⟩
  · rw [hend.count, hy, hsame.count]
  · rw [hend.run, hy, hsame.run]
    cases (enc s n).bad <;> rfl
  · rw [hend.stale]
    cases (enc s n).bad <;> rfl
  · have hpoint := hend.fresh hnet (by simp [hbad]) hfault
    rwa [hy, hsame.count] at hpoint
  · simp [hb]

end

/-! ## Serial words (R302 to R304) -/

/-- The position that a word reads: its low bits, from Gray code where the channel asks for it. -/
def wordPos (s : State) (n : Nat) (w : SerialWord) : Nat :=
  let len := cfg s (Reg.ENC_SCFG_LEN n)
  if encType s n ≠ 4 ∧ cfgOn s (Reg.ENC_SCFG_GRAY n) = true then unGray len (w.pos.toNat % 2 ^ len) else w.pos.toNat % 2 ^ len

/-- What a word shows in registers: a good one is referenced, WARN and the measured delay are the word's own. -/
def wordShown (s : State) (n : Nat) (w : SerialWord) : State :=
  let biss := encType s n = 4
  let s := if wordCause s n w = 0 then wr s (Reg.ENC_STAT_REF_LOST n) 0 else s
  let s := wr s (Reg.ENC_STAT_WARN n) (b2n (biss && !w.warn))
  if biss then wr s (Reg.ENC_DLY_NS n) w.dly.toNat else s

theorem wordShown_shape (s : State) (n : Nat) (w : SerialWord) : RegsWire s (wordShown s n w) := by
  unfold wordShown
  dsimp only
  split <;> split <;> rfl

theorem on_wordShown_refLost {s : State} {n : Nat} {w : SerialWord} (h : wordCause s n w = 0) : on (wordShown s n w) (Reg.ENC_STAT_REF_LOST n) = false := by
  have hwarn : ∀ v, on (wr (wr s (Reg.ENC_STAT_REF_LOST n) 0) (Reg.ENC_STAT_WARN n) v) (Reg.ENC_STAT_REF_LOST n) = false := fun v =>
    (on_wr_apart _ _ (by simp [Fld.Apart, Reg.ENC_STAT_WARN, Reg.ENC_STAT_REF_LOST])).trans (on_wr_zero _ rfl (by decide : 5 < 32))
  unfold wordShown
  dsimp only
  rw [if_pos h]
  split
  · exact (on_wr_apart _ _ (by simp [Fld.Apart, Reg.ENC_DLY_NS, Reg.ENC_STAT_REF_LOST])).trans (hwarn _)
  · exact hwarn _

/-- A word's cause is none, 1 or 2. -/
theorem wordCause_lt (s : State) (n : Nat) (w : SerialWord) : wordCause s n w < 8 := by
  unfold wordCause
  dsimp only
  repeat' split
  all_goals decide

section
variable {s : State} {n : Nat} {r : Nat}

/-- A first word counts from BASE. -/
theorem extendCount_first {x : EncSt} (h : x.rPrev = none) : (extendCount s n x r).count =
    encBase s n + BitVec.ofInt 64 (if cfgOn s (Reg.ENC_CFG_INV n) = true then -r else r) := by
  unfold extendCount
  rw [h]

/-- A later word moves the count by the least signed difference to the word before. -/
theorem extendCount_later {x : EncSt} {p len : Nat} {d : Int} (h : x.rPrev = some p) (hlen : len = cfg s (Reg.ENC_SCFG_LEN n)) (hpos : 0 < len)
    (hmod : (d - (r - p)) % 2 ^ len = 0) (hlo : -(2 ^ (len - 1)) ≤ d) (hhi : d < 2 ^ (len - 1)) : (extendCount s n x r).count =
      x.count + BitVec.ofInt 64 (if cfgOn s (Reg.ENC_CFG_INV n) = true then -d else d) := by
  have hd : (((r + 2 ^ len - p % 2 ^ len + 2 ^ (len - 1)) % 2 ^ len : Nat) : Int) - (2 ^ (len - 1) : Nat) = d := by
    have htwo : (2 : Int) ^ len = 2 * 2 ^ (len - 1) := by rw [← pow_succ', Nat.sub_add_cancel hpos]
    have hp : (p % 2 ^ len : Nat) < 2 ^ len := Nat.mod_lt _ (Nat.two_pow_pos len)
    obtain ⟨k, hk⟩ := Int.dvd_of_emod_eq_zero hmod
    have hsum : ((r + 2 ^ len - p % 2 ^ len + 2 ^ (len - 1) : Nat) : Int) = d + 2 ^ (len - 1) + 2 ^ len * (1 - k + p / 2 ^ len) := by
      have hdiv := Int.mul_ediv_add_emod (p : Int) (2 ^ len)
      push_cast [Nat.cast_sub (show p % 2 ^ len ≤ r + 2 ^ len by omega)]
      linear_combination -hk - hdiv
    rw [Int.natCast_emod, hsum, Nat.cast_pow, Nat.cast_ofNat, Int.add_mul_emod_self_left, Int.emod_eq_of_lt (by omega) (by omega), Nat.cast_pow, Nat.cast_ofNat]
    ring
  unfold extendCount
  dsimp only
  rw [h, ← hlen]
  dsimp only
  rw [hd]

theorem extendCount_rPrev (x : EncSt) : (extendCount s n x r).rPrev = some r ∧ (extendCount s n x r).run = x.run := by
  unfold extendCount
  dsimp only
  split <;> exact ⟨rfl, rfl⟩

end

section
variable {s : State} {n : Fin 8} {w : SerialWord}

theorem exec_serialWordComplete_idle (h : domOn s dAUX = false ∨ (enc s n).await = false ∨ encType s n < 3) : exec (.serialWordComplete n w) s = .next s := by
  change execSerialWordComplete n w s = _
  unfold execSerialWordComplete
  dsimp only
  rw [if_neg]
  rintro ⟨haux, hawait, hty⟩
  rcases h with h | h | h
  · rw [haux] at h
    cases h
  · rw [hawait] at h
    cases h
  · omega

/-- The channel as a word finds it, or extended by it where it is good. -/
def wordTaken (s : State) (n : Nat) (w : SerialWord) : EncSt := if wordCause s n w = 0 then extendCount s n (enc s n) (wordPos s n w) else enc s n

theorem exec_serialWordComplete (haux : domOn s dAUX = true) (hawait : (enc s n).await = true) (hty : 3 ≤ encType s n) : ∃ p6,
    exec (.serialWordComplete n w) s = .next (serialEnd (wordShown s n w) n (wordTaken s n w) (wordCause s n w == 0) (wordCause s n w) p6) := by
  have hpos : (if (!decide (encType s n = 4) && cfgOn s (Reg.ENC_SCFG_GRAY n)) = true then unGray (cfg s (Reg.ENC_SCFG_LEN n)) (w.pos.toNat % 2 ^ cfg s (Reg.ENC_SCFG_LEN n))
      else w.pos.toNat % 2 ^ cfg s (Reg.ENC_SCFG_LEN n)) = wordPos s n w := if_congr (by simp) rfl rfl
  change ∃ p6, execSerialWordComplete n w s = _
  unfold execSerialWordComplete
  dsimp only
  rw [if_pos ⟨haux, hawait, hty⟩, hpos]
  exact ⟨_, rfl⟩

/-- A word that was awaited ends its sample: a failing one leaves the count, a good one extends it. -/
theorem serialWordComplete_ends (haux : domOn s dAUX = true) (hawait : (enc s n).await = true) (hty : 3 ≤ encType s n) :
    ∃ t, exec (.serialWordComplete n w) s = .next t ∧ (enc t n).await = false ∧
      (wordCause s n w ≠ 0 → (enc t n).count = (enc s n).count ∧ (enc t n).run = (enc s n).run + 1 ∧ rd t (Reg.ENC_STAT_LASTFAIL n) = wordCause s n w ∧
        on t (Reg.ENC_STAT_STALE n) = true) ∧
      (wordCause s n w = 0 → (enc t n).rPrev = some (wordPos s n w) ∧ (enc t n).run = 0 ∧ on t (Reg.ENC_STAT_REF_LOST n) = false ∧
        (enc t n).count = (extendCount s n (enc s n) (wordPos s n w)).count) := by
  obtain ⟨p6, hexec⟩ := exec_serialWordComplete haux hawait hty
  obtain ⟨y, hsame, hend⟩ := serialEnd_sampled (wordShown s n w) n.isLt (wordCause_lt s n w) (wordTaken s n w) (wordCause s n w == 0) p6
  have hy : enc (setEnc (wordShown s n w) n y) n = y := enc_setEnc_self ..
  refine ⟨_, hexec, hend.await, fun hbad => ?_, fun hgood => ?_⟩
  · rw [wordTaken, if_neg hbad] at hsame
    refine ⟨?_, ?_, hend.lastFail hbad, ?_⟩
    · rw [hend.count, hy, hsame.count]
    · rw [hend.run, if_neg hbad, hy, hsame.run]
    · simp [hend.stale, hbad]
  · rw [wordTaken, if_pos hgood] at hsame
    refine ⟨?_, ?_, ?_, ?_⟩
    · rw [hend.rPrev, hy, hsame.rPrev, (extendCount_rPrev _).1]
    · rw [hend.run, if_pos hgood]
    · rw [hend.refLost, on_congr (setEnc_regs ..), on_wordShown_refLost hgood]
    · rw [hend.count, hy, hsame.count]

end

/-! ## Time-outs (R301, R303) -/

theorem edgeRegs_congr {s t : State} (h : t.regs = s.regs) (n : Nat) : edgeRegs t n = edgeRegs s n :=
  List.map_congr_left fun _ _ => rd_congr h _

/-- The first `k` points of a channel marked stale. -/
def staleMarked (s : State) (n k : Nat) : State := (List.range k).foldl (fun s i => setStale s (pt 25 n 0 i) true) s

theorem staleMarked_succ (s : State) (n k : Nat) : staleMarked s n (k + 1) = setStale (staleMarked s n k) (pt 25 n 0 k) true := by
  rw [staleMarked, List.range_succ, List.foldl_append, ← staleMarked, List.foldl_cons, List.foldl_nil]

theorem staleMarked_shape (s : State) (n k : Nat) : staleMarked s n k = { s with mem := (staleMarked s n k).mem } := by
  induction k with
  | zero => rfl
  | succ k ih =>
    rw [staleMarked_succ, ih]
    rfl

theorem staleMarked_same (s : State) (n : Nat) {k : Nat} (hk : k ≤ 7) : SamePtsBut (encPts n) s (staleMarked s n k) := by
  induction k with
  | zero => exact .of_mem rfl _
  | succ k ih =>
    rw [staleMarked_succ]
    exact (ih (by omega)).step (sampleKept_setStale _ hk true).pts

theorem mget_staleMarked (s : State) {n k i : Nat} (hn : n < 8) (hk : k ≤ 7) (hi : i < k) : (mget (staleMarked s n k) (pdAddr (pt 25 n 0 i))).toNat % 2 = 1 := by
  induction k with
  | zero => exact absurd hi (Nat.not_lt_zero i)
  | succ k ih =>
    rw [staleMarked_succ]
    rcases Nat.lt_succ_iff_lt_or_eq.mp hi with hlt | rfl
    · rw [(setStale_same _ _ _).mget_pdAddr (by simpa using pt_encoder_ne hn (by omega) (by omega) hlt.ne), ih (by omega) hlt]
    · rw [mget_setStale]
      rfl

section
variable {s : State} {n : Fin 8}

theorem exec_serialTimeout_netOff (h : domOn s dNET = false) : exec (.serialTimeout n) s = .next s := by
  change execSerialTimeout n s = _
  unfold execSerialTimeout
  rw [if_pos (by simp [h])]

variable (hnet : domOn s dNET = true)
include hnet

/-- A channel that is off reads stale in all its points, and fires its edges. -/
theorem serialTimeout_off (hoff : domOn s dAUX = false ∨ encType s n = 0) : ∃ t, exec (.serialTimeout n) s = .next t ∧ t.encs = s.encs ∧
    SamePtsBut (encPts n) s t ∧ (∀ i, i < 7 → (mget t (pdAddr (pt 25 n 0 i))).toNat % 2 = 1) ∧
    ∃ v, t = fireEdges v pInstant (realEdges (if domOn s dAUX = true then edgeRegs s n else tget (fun _ => []) s.sched.encEdges n)) ∧ v.sched = s.sched := by
  have hexec : exec (.serialTimeout n) s = .next (encEdges (staleMarked s n 7) n) := by
    change execSerialTimeout n s = _
    unfold execSerialTimeout
    rw [if_neg (by simp [hnet]), if_pos (by rcases hoff with h | h <;> simp [h])]
    rfl
  have hsame := staleMarked_same s n (le_refl 7)
  have hstale := fun i => mget_staleMarked s n.isLt (le_refl 7) (i := i)
  have hshape := staleMarked_shape s n 7
  generalize staleMarked s n 7 = v at hexec hsame hstale hshape
  have hsched : v.sched = s.sched := by rw [hshape]
  have hfired := fired_encEdges v n
  refine ⟨_, hexec, ?_, hsame.step (.of_mem hfired.mem _), fun i hi => ?_, v, ?_, hsched⟩
  · rw [hfired.encs, hshape]
  · rw [mget_congr hfired.mem, hstale i hi]
  · rw [encEdges, domOn_congr (show v.pwr = s.pwr by rw [hshape]), edgeRegs_congr (show v.regs = s.regs by rw [hshape]), hsched]

variable (haux : domOn s dAUX = true) (hty : encType s n ≠ 0)
include haux hty

theorem exec_serialTimeout_idle (hawait : (enc s n).await = false) : exec (.serialTimeout n) s = .next s := by
  change execSerialTimeout n s = _
  unfold execSerialTimeout
  dsimp only
  rw [if_neg (by simp [hnet]), if_neg (by simp [haux, hty]), if_neg (by simp [hawait])]

theorem exec_serialTimeout (hawait : (enc s n).await = true) : ∃ p6,
    exec (.serialTimeout n) s = .next (serialEnd (wr s (Reg.ENC_STAT_WARN n) 0) n (enc s n) false 3 p6) := by
  change ∃ p6, execSerialTimeout n s = _
  unfold execSerialTimeout
  dsimp only
  rw [if_neg (by simp [hnet]), if_neg (by simp [haux, hty]), if_pos hawait]
  exact ⟨_, rfl⟩

/-- A word that does not come fails its sample. -/
theorem serialTimeout_fails (hawait : (enc s n).await = true) : ∃ t, exec (.serialTimeout n) s = .next t ∧ (enc t n).await = false ∧
    (enc t n).count = (enc s n).count ∧ (enc t n).run = (enc s n).run + 1 ∧ rd t (Reg.ENC_STAT_LASTFAIL n) = 3 ∧ on t (Reg.ENC_STAT_STALE n) = true ∧
    rd t (Reg.ENC_TMO_ERR_COUNT n) = min 65535 (rd s (Reg.ENC_TMO_ERR_COUNT n) + 1) := by
  obtain ⟨p6, hexec⟩ := exec_serialTimeout hnet haux hty hawait
  obtain ⟨y, hsame, hend⟩ := serialEnd_sampled (wr s (Reg.ENC_STAT_WARN n) 0) n.isLt (cause := 3) (by decide) (enc s n) false p6
  have hy : enc (setEnc (wr s (Reg.ENC_STAT_WARN n) 0) n y) n = y := enc_setEnc_self ..
  refine ⟨_, hexec, hend.await, ?_, ?_, hend.lastFail (by decide), ?_, ?_⟩
  · rw [hend.count, hy, hsame.count]
  · rw [hend.run, hy, hsame.run]
    rfl
  · rw [hend.stale]
    rfl
  · rw [hend.timeouts rfl, rd_congr (setEnc_regs ..), rd_wr_apart _ _ (by simp [Fld.Apart, Reg.ENC_STAT_WARN, Reg.ENC_TMO_ERR_COUNT])]

end

end Sys2Proof.Machine
end

section
/-! PROOFS. Faults and commands of the encoder channels, tracking while AUX is off, and emulation edges (R171, R300, R303, R376). -/

namespace Sys2Proof.Machine

/-! ## A channel's fault (R303) -/

section
variable {s : State} {n : Fin 8}

theorem exec_encFault_idle (h : domOn s dAUX = false ∨ on s (Reg.ENC_STAT_FAULT n) = true ∨ (enc s n).run < rd s (Reg.ENC_FAIL_FAIL_LIM n)) :
    exec (.encFault n) s = .next s := by
  change execEncFault n s = _
  unfold execEncFault
  rw [if_neg]
  intro hall
  simp only [Bool.and_eq_true, Bool.not_eq_true', decide_eq_true_eq] at hall
  obtain ⟨⟨haux, hfault⟩, hlim⟩ := hall
  rcases h with h | h | h
  · rw [haux] at h
    cases h
  · rw [hfault] at h
    cases h
  · omega

theorem encFault_logged (haux : domOn s dAUX = true) (hfault : on s (Reg.ENC_STAT_FAULT n) = false) (hlim : rd s (Reg.ENC_FAIL_FAIL_LIM n) ≤ (enc s n).run) :
    ∃ t, exec (.encFault n) s = .next t ∧ Logged s t ∧ on t (Reg.ENC_STAT_FAULT n) = true ∧
      NewEntry s t 0x3010 3 (n + rd s (Reg.ENC_STAT_LASTFAIL n) * 16) := by
  have hn := n.isLt
  have hexec : exec (.encFault n) s = .next (post (wr s (Reg.ENC_STAT_FAULT n) 1) 0x3010 3 (n + rd s (Reg.ENC_STAT_LASTFAIL n) * 16)) := by
    change execEncFault n s = _
    unfold execEncFault
    rw [if_pos (by simp [haux, hfault, hlim])]
  refine ⟨_, hexec, ?_, ?_, (post_new _ _ _ _ (by decide) (by decide) (by decide)).of_regs (RegsWire.wr ..) fun k _ hk => ?_⟩
  · exact post_shape (wr s (Reg.ENC_STAT_FAULT n) 1) 0x3010 3 (n + rd s (Reg.ENC_STAT_LASTFAIL n) * 16)
  · rw [on, rd, rdw_post (by simp only [Reg.ENC_STAT_FAULT]; omega) (by simp only [Reg.ENC_STAT_FAULT]; omega), ← rd, ← on]
    exact on_wr_one s rfl (by decide : 0 < 32)
  · exact rdw_wr_other _ _ _ (by simp only [Reg.ENC_STAT_FAULT]; omega)

end

/-! ## LOAD, ZARM and CLR (R300, R303) -/

/-- LOAD: the count takes BASE and is referenced; a pending ZARM is disarmed. -/
def encLoaded (u : State) (n : Nat) : State :=
  wrs (setEnc u n { enc u n with count := encBase u n }) [(Reg.ENC_STAT_REF_LOST n, 0), (Reg.ENC_STAT_ZARMED n, 0)]

/-- CLR: the fault and the run of failures are cleared, and the next serial word is a first one. -/
def encCleared (u : State) (n : Nat) : State := wr (setEnc u n { enc u n with run := 0, rPrev := none }) (Reg.ENC_STAT_FAULT n) 0

section
variable {m : Master} {n : Fin 8} {w : W32} {s : State} (h : CanReach m s (Reg.ENC_CTRL n).addr)
include h

theorem exec_encLoad : exec (.encLoad m n w) s = .next (let u := plainWrite s m (Reg.ENC_CTRL n).addr w.toNat
    if wbits (Reg.ENC_CTRL_LOAD n) w = 1 then encLoaded u n else u) := congrArg _ (regAction_open w _ h)

theorem exec_zarm : exec (.zarm m n w) s = .next (let u := plainWrite s m (Reg.ENC_CTRL n).addr w.toNat
    if wbits (Reg.ENC_CTRL_ZARM n) w = 1 then wr u (Reg.ENC_STAT_ZARMED n) 1 else u) := congrArg _ (regAction_open w _ h)

theorem exec_encClr : exec (.encClr m n w) s = .next (let u := plainWrite s m (Reg.ENC_CTRL n).addr w.toNat
    if wbits (Reg.ENC_CTRL_CLR n) w = 1 then encCleared u n else u) := congrArg _ (regAction_open w _ h)

end

section
variable {s u : State} {n : Fin 8} (h : Written (Reg.ENC_CTRL n).addr s u)
include h

theorem Written.encBase : Machine.encBase u n = Machine.encBase s n := by
  have hn := n.isLt
  have hlo : (Reg.ENC_BASE_LO_BASE n).addr ∉ cmdKeys (Reg.ENC_CTRL n).addr := by simp [cmdKeys, sideKeys, Reg.ENC_CTRL, Reg.ENC_BASE_LO_BASE]; omega
  have hhi : (Reg.ENC_BASE_HI_BASE n).addr ∉ cmdKeys (Reg.ENC_CTRL n).addr := by simp [cmdKeys, sideKeys, Reg.ENC_CTRL, Reg.ENC_BASE_HI_BASE]; omega
  rw [Machine.encBase, rd64, h.rd _ hlo, h.rd _ hhi, ← rd64, ← Machine.encBase]

theorem encLoaded_effect : encLoaded u n = { u with encs := (encLoaded u n).encs, regs := (encLoaded u n).regs } ∧
    enc (encLoaded u n) n = { enc s n with count := Machine.encBase s n } ∧ SameRegsBut [(Reg.ENC_STAT_REF_LOST n).addr] u (encLoaded u n) ∧
    on (encLoaded u n) (Reg.ENC_STAT_REF_LOST n) = false ∧ on (encLoaded u n) (Reg.ENC_STAT_ZARMED n) = false := by
  refine ⟨rfl, ?_, fun k hk => ?_, ?_, on_wr_zero _ rfl (by decide : 6 < 32)⟩
  · rw [encLoaded, enc_congr (wrs_encs ..), enc_setEnc_self, enc_congr h.1.encs, h.encBase]
  · have hne : k ≠ (Reg.ENC_STAT_REF_LOST n).addr := by simpa using hk
    rw [encLoaded, rdw_wrs_other _ (by simp only [List.mem_cons, List.not_mem_nil, or_false]; rintro x (rfl | rfl) <;> exact hne), rdw_congr (setEnc_regs ..)]
  · exact (on_wr_apart _ _ (by simp [Fld.Apart, Reg.ENC_STAT_ZARMED, Reg.ENC_STAT_REF_LOST])).trans (on_wr_zero _ rfl (by decide : 5 < 32))

theorem encCleared_effect : encCleared u n = { u with encs := (encCleared u n).encs, regs := (encCleared u n).regs } ∧
    enc (encCleared u n) n = { enc s n with run := 0, rPrev := none } ∧ SameRegsBut [(Reg.ENC_STAT_FAULT n).addr] u (encCleared u n) ∧
    on (encCleared u n) (Reg.ENC_STAT_FAULT n) = false := by
  refine ⟨rfl, ?_, fun k hk => ?_, on_wr_zero _ rfl (by decide : 0 < 32)⟩
  · rw [encCleared, enc_congr (wr_encs ..), enc_setEnc_self, enc_congr h.1.encs]
  · rw [encCleared, rdw_wr_other _ _ _ (by simpa using hk), rdw_congr (setEnc_regs ..)]

omit h in
theorem zarmed_effect : SameRegsBut [(Reg.ENC_STAT_ZARMED n).addr] u (wr u (Reg.ENC_STAT_ZARMED n) 1) ∧
    on (wr u (Reg.ENC_STAT_ZARMED n) 1) (Reg.ENC_STAT_ZARMED n) = true :=
  ⟨fun k hk => rdw_wr_other _ _ _ (by simpa using hk), on_wr_one _ rfl (by decide : 6 < 32)⟩

end

/-- The three commands at CTRL act on the state in which its word has been written. -/
theorem encCtrl_outcomes {m : Master} {n : Fin 8} {w : W32} {s : State} (h : CanReach m s (Reg.ENC_CTRL n).addr) : ∃ u, Written (Reg.ENC_CTRL n).addr s u ∧
    (wbits (Reg.ENC_CTRL_LOAD n) w = 0 → exec (.encLoad m n w) s = .next u) ∧ (wbits (Reg.ENC_CTRL_ZARM n) w = 0 → exec (.zarm m n w) s = .next u) ∧
    (wbits (Reg.ENC_CTRL_CLR n) w = 0 → exec (.encClr m n w) s = .next u) ∧
    (wbits (Reg.ENC_CTRL_LOAD n) w = 1 → ∃ t, exec (.encLoad m n w) s = .next t ∧ t = { u with encs := t.encs, regs := t.regs } ∧
      enc t n = { enc s n with count := encBase s n } ∧ SameRegsBut [(Reg.ENC_STAT_REF_LOST n).addr] u t ∧ on t (Reg.ENC_STAT_REF_LOST n) = false ∧
      on t (Reg.ENC_STAT_ZARMED n) = false) ∧
    (wbits (Reg.ENC_CTRL_ZARM n) w = 1 → ∃ t, exec (.zarm m n w) s = .next t ∧ t = { u with regs := t.regs } ∧
      SameRegsBut [(Reg.ENC_STAT_ZARMED n).addr] u t ∧ on t (Reg.ENC_STAT_ZARMED n) = true) ∧
    (wbits (Reg.ENC_CTRL_CLR n) w = 1 → ∃ t, exec (.encClr m n w) s = .next t ∧ t = { u with encs := t.encs, regs := t.regs } ∧
      enc t n = { enc s n with run := 0, rPrev := none } ∧ SameRegsBut [(Reg.ENC_STAT_FAULT n).addr] u t ∧ on t (Reg.ENC_STAT_FAULT n) = false) := by
  have hload := exec_encLoad (w := w) h
  have hzarm := exec_zarm (w := w) h
  have hclr := exec_encClr (w := w) h
  have hu := plainWrite_written s m (Reg.ENC_CTRL n).addr w.toNat
  generalize plainWrite s m (Reg.ENC_CTRL n).addr w.toNat = u at hload hzarm hclr hu
  dsimp only at hload hzarm hclr
  refine ⟨u, hu, fun h0 => ?_, fun h0 => ?_, fun h0 => ?_, fun h1 => ⟨encLoaded u n, ?_, encLoaded_effect hu⟩,
    fun h1 => ⟨wr u (Reg.ENC_STAT_ZARMED n) 1, ?_, rfl, zarmed_effect⟩, fun h1 => ⟨encCleared u n, ?_, encCleared_effect hu⟩⟩
  · rw [hload, if_neg (by omega)]
  · rw [hzarm, if_neg (by omega)]
  · rw [hclr, if_neg (by omega)]
  · rw [hload, if_pos h1]
  · rw [hzarm, if_pos h1]
  · rw [hclr, if_pos h1]

/-! ## Tracking while AUX is off (R376) -/

/-- The forward moves of the comparators' (A, B), A in the low bit. -/
def trackMoves : List (Nat × Nat) := [(0, 1), (1, 3), (3, 2), (2, 0)]

theorem quadStep_up {o v : Nat} (h : (o, v) ∈ trackMoves) : quadStep o v = some 1 := by
  simp only [trackMoves, List.mem_cons, Prod.mk.injEq, List.not_mem_nil, or_false] at h
  rcases h with ⟨rfl, rfl⟩ | ⟨rfl, rfl⟩ | ⟨rfl, rfl⟩ | ⟨rfl, rfl⟩ <;> decide

theorem quadStep_down {o v : Nat} (h : (v, o) ∈ trackMoves) : quadStep o v = some (-1) := by
  simp only [trackMoves, List.mem_cons, Prod.mk.injEq, List.not_mem_nil, or_false] at h
  rcases h with ⟨rfl, rfl⟩ | ⟨rfl, rfl⟩ | ⟨rfl, rfl⟩ | ⟨rfl, rfl⟩ <;> decide

/-- No neighbour in either direction: both levels have changed. -/
theorem quadStep_both {o v : Nat} (hne : o ≠ v) (hup : (o, v) ∉ trackMoves) (hdown : (v, o) ∉ trackMoves) : quadStep o v = none := by
  simp only [trackMoves, List.mem_cons, Prod.mk.injEq, List.not_mem_nil, or_false] at hup hdown
  unfold quadStep
  rw [if_neg hne, if_neg (by simpa using hup), if_neg (by simp; omega)]

/-- The tracked count of encoder `k`. -/
def trackCount (s : State) (k : Nat) : Nat := rd64 s (Reg.AO_TRK_LO_COUNT k) (Reg.AO_TRK_HI_COUNT k)

/-- The comparators' levels, kept for the next sample. -/
def trackedAt (s : State) (k new : Nat) : State := { s with ao := { s.ao with trkAB := tput (fun _ => 4) s.ao.trkAB k new } }

/-- The levels at the last sample, 4 before the first. -/
def trackedLevels (s : State) (k : Nat) : Nat := tget (fun _ => 4) s.ao.trkAB k

/-- The first sample is the reference, with the count of a channel that still works. -/
def trackFirst (s : State) (k : Nat) : State :=
  wr (if domOn s dAUX then wr64 s (Reg.AO_TRK_LO_COUNT k) (Reg.AO_TRK_HI_COUNT k) (enc s k).count.toNat else s) (Reg.AO_TRK_CTL_VALID k) 1

/-- A later sample moves the count by its step. -/
def trackMoved (s : State) (k : Nat) (d : Int) : State :=
  wr64 s (Reg.AO_TRK_LO_COUNT k) (Reg.AO_TRK_HI_COUNT k) (unsgn 64 ((trackCount s k : Int) + d))

/-- A change of both levels ends the tracking's validity. -/
def trackLost (s : State) (k : Fin 2) : State := wakeUp (wr (setSticky s (Reg.AO_TRK_CTL_ERR k)) (Reg.AO_TRK_CTL_VALID k) 0) (.trackError k)

theorem wakeUp_keeps (s : State) (src : WakeSrc) : (wakeUp s src).mem = s.mem ∧ (wakeUp s src).regs = s.regs ∧ (wakeUp s src).ao.trkAB = s.ao.trkAB := by
  unfold wakeUp
  dsimp only
  split
  · split
    · exact ⟨rfl, rfl, rfl⟩
    · split <;> exact ⟨rfl, rfl, rfl⟩
    · exact ⟨rfl, rfl, rfl⟩
  · exact ⟨rfl, rfl, rfl⟩

section
variable (s : State) (k : Nat)

theorem trackFirst_keeps : (trackFirst s k).mem = s.mem ∧ (trackFirst s k).ao = s.ao := by
  unfold trackFirst
  split <;> exact ⟨rfl, rfl⟩

theorem on_trackFirst_valid : on (trackFirst s k) (Reg.AO_TRK_CTL_VALID k) = true := on_wr_one _ rfl (by decide : 1 < 32)

/-- A field beside the count does not move it. -/
theorem trackCount_of_rdw {t : State} (hlo : rdw t (Reg.AO_TRK_LO_COUNT k).addr = rdw s (Reg.AO_TRK_LO_COUNT k).addr)
    (hhi : rdw t (Reg.AO_TRK_HI_COUNT k).addr = rdw s (Reg.AO_TRK_HI_COUNT k).addr) : trackCount t k = trackCount s k := by
  rw [trackCount, rd64, rd, hlo, rd, hhi, ← rd, ← rd, ← rd64, ← trackCount]

theorem trackCount_wr64 (v : Nat) : trackCount (wr64 s (Reg.AO_TRK_LO_COUNT k) (Reg.AO_TRK_HI_COUNT k) v) k = v % 2 ^ 64 :=
  rd64_wr64_self s v (by simp [Reg.AO_TRK_LO_COUNT, Reg.AO_TRK_HI_COUNT]) ⟨rfl, rfl⟩ ⟨rfl, rfl⟩

theorem trackCount_wr_valid (v : Nat) : trackCount (wr s (Reg.AO_TRK_CTL_VALID k) v) k = trackCount s k :=
  trackCount_of_rdw s k (rdw_wr_other _ _ _ (by simp [Reg.AO_TRK_LO_COUNT, Reg.AO_TRK_CTL_VALID])) (rdw_wr_other _ _ _ (by simp [Reg.AO_TRK_HI_COUNT, Reg.AO_TRK_CTL_VALID]))

theorem trackCount_first : trackCount (trackFirst s k) k = if domOn s dAUX = true then (enc s k).count.toNat else trackCount s k := by
  rw [trackFirst, trackCount_wr_valid]
  split
  · rw [trackCount_wr64, Nat.mod_eq_of_lt (BitVec.isLt _)]
  · rfl

theorem trackCount_up : trackCount (trackMoved s k 1) k = (trackCount s k + 1) % 2 ^ 64 := by
  rw [trackMoved, trackCount_wr64, unsgn]
  omega

theorem trackCount_down : trackCount (trackMoved s k (-1)) k = (trackCount s k + (2 ^ 64 - 1)) % 2 ^ 64 := by
  rw [trackMoved, trackCount_wr64, unsgn]
  omega

end

section
variable (s : State) (k : Fin 2)

theorem trackLost_keeps : (trackLost s k).mem = s.mem ∧ (trackLost s k).ao.trkAB = s.ao.trkAB := by
  obtain ⟨hmem, -, hlevels⟩ := wakeUp_keeps (wr (setSticky s (Reg.AO_TRK_CTL_ERR k)) (Reg.AO_TRK_CTL_VALID k) 0) (.trackError k)
  refine ⟨hmem.trans ?_, hlevels.trans ?_⟩
  · rw [wr_mem, setSticky_mem]
  · rw [wr_ao, setSticky_ao]

/-- The tracking registers stand beside the page's status word. -/
theorem aside_trackError (k : Fin 2) : Aside (Reg.AO_TRK_CTL_ERR k).page (Reg.AO_TRK_LO_COUNT k).addr ∧
    Aside (Reg.AO_TRK_CTL_ERR k).page (Reg.AO_TRK_HI_COUNT k).addr ∧ Aside (Reg.AO_TRK_CTL_ERR k).page (Reg.AO_TRK_CTL_ERR k).addr := by
  unfold Aside
  revert k
  decide

/-- A change of both levels leaves the count, sets ERR and clears VALID. -/
theorem trackLost_effect : trackCount (trackLost s k) k = trackCount s k ∧ on (trackLost s k) (Reg.AO_TRK_CTL_ERR k) = true ∧
    on (trackLost s k) (Reg.AO_TRK_CTL_VALID k) = false := by
  obtain ⟨hlo, hhi, hself⟩ := aside_trackError k
  obtain ⟨-, hregs, -⟩ := wakeUp_keeps (wr (setSticky s (Reg.AO_TRK_CTL_ERR k)) (Reg.AO_TRK_CTL_VALID k) 0) (.trackError k)
  have hsticky : ∀ f : Fld, Aside (Reg.AO_TRK_CTL_ERR k).page f.addr → f.addr ≠ (Reg.AO_TRK_CTL_ERR k).addr →
      rdw (setSticky s (Reg.AO_TRK_CTL_ERR k)) f.addr = rdw s f.addr := fun f hf hne => rdw_setSticky hf hne s
  refine ⟨?_, ?_, ?_⟩
  · refine (trackCount_of_rdw _ _ (rdw_congr hregs _) (rdw_congr hregs _)).trans ((trackCount_wr_valid _ _ 0).trans (trackCount_of_rdw s k ?_ ?_))
    · exact hsticky _ hlo (by simp [Reg.AO_TRK_LO_COUNT, Reg.AO_TRK_CTL_ERR])
    · exact hsticky _ hhi (by simp [Reg.AO_TRK_HI_COUNT, Reg.AO_TRK_CTL_ERR])
  · rw [trackLost, on_congr hregs, on_wr_apart _ _ (by simp [Fld.Apart, Reg.AO_TRK_CTL_VALID, Reg.AO_TRK_CTL_ERR])]
    exact on_setSticky_self hself rfl (by decide : 2 < 32)
  · rw [trackLost, on_congr hregs]
    exact on_wr_zero _ rfl (by decide : 1 < 32)

end

section
variable {s : State} {k : Fin 2} {a b : Bool}

theorem exec_tracking_idle (h : on s (Reg.AO_TRK_CTL_ACTIVE k) = false) : exec (.encoderTrackingSample k a b) s = .next s := by
  change execEncoderTrackingSample k a b s = _
  unfold execEncoderTrackingSample
  rw [if_neg (by simp [h])]

theorem trackedLevels_trackedAt (new : Nat) : tget (fun _ => 4) (trackedAt s k new).ao.trkAB k = new := tget_tput_self _ _ _ _

variable (h : on s (Reg.AO_TRK_CTL_ACTIVE k) = true)
include h

theorem exec_tracking_first (hold : trackedLevels s k = 4) : exec (.encoderTrackingSample k a b) s =
    .next (trackFirst (trackedAt s k (b2n a + 2 * b2n b)) k) := by
  change execEncoderTrackingSample k a b s = _
  unfold execEncoderTrackingSample
  dsimp only
  rw [if_pos h, if_pos (show tget (fun _ => 4) s.ao.trkAB k = 4 from hold)]
  rfl

theorem exec_tracking_moved {d : Int} (hold : trackedLevels s k ≠ 4) (hd : quadStep (trackedLevels s k) (b2n a + 2 * b2n b) = some d) :
    exec (.encoderTrackingSample k a b) s = .next (trackMoved (trackedAt s k (b2n a + 2 * b2n b)) k d) := by
  change execEncoderTrackingSample k a b s = _
  unfold execEncoderTrackingSample
  dsimp only
  rw [← trackedLevels, if_pos h, if_neg hold, hd]
  rfl

theorem exec_tracking_lost (hold : trackedLevels s k ≠ 4) (hd : quadStep (trackedLevels s k) (b2n a + 2 * b2n b) = none) :
    exec (.encoderTrackingSample k a b) s = .next (trackLost (trackedAt s k (b2n a + 2 * b2n b)) k) := by
  change execEncoderTrackingSample k a b s = _
  unfold execEncoderTrackingSample
  dsimp only
  rw [← trackedLevels, if_pos h, if_neg hold, hd]
  rfl

/-- A tracking sample by what the levels did since the one before. -/
theorem tracking_outcomes : ∃ t, exec (.encoderTrackingSample k a b) s = .next t ∧ t.mem = s.mem ∧ tget (fun _ => 4) t.ao.trkAB k = b2n a + 2 * b2n b ∧
    (trackedLevels s k = 4 → on t (Reg.AO_TRK_CTL_VALID k) = true ∧ trackCount t k = if domOn s dAUX = true then (enc s k).count.toNat else trackCount s k) ∧
    (trackedLevels s k ≠ 4 → (trackedLevels s k, b2n a + 2 * b2n b) ∈ trackMoves → trackCount t k = (trackCount s k + 1) % 2 ^ 64) ∧
    (trackedLevels s k ≠ 4 → (b2n a + 2 * b2n b, trackedLevels s k) ∈ trackMoves → trackCount t k = (trackCount s k + (2 ^ 64 - 1)) % 2 ^ 64) ∧
    (trackedLevels s k ≠ 4 → trackedLevels s k ≠ b2n a + 2 * b2n b → (trackedLevels s k, b2n a + 2 * b2n b) ∉ trackMoves →
      (b2n a + 2 * b2n b, trackedLevels s k) ∉ trackMoves → trackCount t k = trackCount s k ∧ on t (Reg.AO_TRK_CTL_ERR k) = true ∧
      on t (Reg.AO_TRK_CTL_VALID k) = false) := by
  have hlevels := trackedLevels_trackedAt (s := s) (k := k) (b2n a + 2 * b2n b)
  by_cases hold : trackedLevels s k = 4
  · obtain ⟨hmem, hao⟩ := trackFirst_keeps (trackedAt s k (b2n a + 2 * b2n b)) k
    exact ⟨_, exec_tracking_first h hold, hmem, by rw [hao, hlevels], fun _ => ⟨on_trackFirst_valid _ _, trackCount_first _ _⟩,
      fun hn => absurd hold hn, fun hn => absurd hold hn, fun hn => absurd hold hn⟩
  · cases hd : quadStep (trackedLevels s k) (b2n a + 2 * b2n b) with
    | some d =>
      refine ⟨_, exec_tracking_moved h hold hd, rfl, hlevels, fun h4 => absurd h4 hold, fun _ hup => ?_, fun _ hdown => ?_, fun _ hne hup hdown => ?_⟩
      · obtain rfl : d = 1 := Option.some.inj (hd.symm.trans (quadStep_up hup))
        exact trackCount_up _ _
      · obtain rfl : d = -1 := Option.some.inj (hd.symm.trans (quadStep_down hdown))
        exact trackCount_down _ _
      · exact absurd (hd.symm.trans (quadStep_both hne hup hdown)) nofun
    | none =>
      obtain ⟨hmem, htrk⟩ := trackLost_keeps (trackedAt s k (b2n a + 2 * b2n b)) k
      exact ⟨_, exec_tracking_lost h hold hd, hmem, by rw [htrk, hlevels], fun h4 => absurd h4 hold,
        fun _ hup => absurd (hd.symm.trans (quadStep_up hup)) nofun, fun _ hdown => absurd (hd.symm.trans (quadStep_down hdown)) nofun,
        fun _ _ _ _ => trackLost_effect _ k⟩

end

/-! ## Emulation edges (R171) -/

/-- The output count after an edge of the plan `c`: a package's head step where it has one, else the plan's step. -/
def emuOut (s : State) (m : Nat) (c : EmuPlan) : Int :=
  if c.up then (emu s m).qOut + (c.head.getD c.size : Nat) else (emu s m).qOut - (c.head.getD c.size : Nat)

/-- The emulation after that edge: one edge fewer to go. -/
def emuStepped (s : State) (m : Nat) (c : EmuPlan) : EmuSt :=
  { emu s m with qOut := emuOut s m c, cur := some { c with head := none, left := c.left - 1 } }

section
variable {s : State} {m : Fin 4}

theorem exec_emulationEdge_off (h : domOn s dAUX = false ∨ domOn s dNET = false ∨ on s (Reg.EMU_CFG_EN m) = false ∨ (emu s m).cur = none) :
    exec (.emulationEdge m) s = .next s := by
  change execEmulationEdge m s = _
  unfold execEmulationEdge
  dsimp only
  split
  · next c hcur =>
    rw [if_neg]
    intro hall
    simp only [Bool.and_eq_true] at hall
    obtain ⟨⟨⟨haux, hnet⟩, hen⟩, -⟩ := hall
    simp [haux, hnet, hen, hcur] at h
  · rfl

variable {c : EmuPlan} (hcur : (emu s m).cur = some c)
include hcur

theorem exec_emulationEdge_spent (h : c.left = 0) : exec (.emulationEdge m) s = .next s := by
  change execEmulationEdge m s = _
  unfold execEmulationEdge
  dsimp only
  rw [hcur]
  exact congrArg _ (if_neg (by simp [h]))

/-- An edge moves the output count by the plan's step and leaves the package. -/
theorem emulationEdge_moves (haux : domOn s dAUX = true) (hnet : domOn s dNET = true) (hen : on s (Reg.EMU_CFG_EN m) = true) (hleft : c.left ≠ 0) :
    ∃ t, exec (.emulationEdge m) s = .next t ∧
      (emu t m).qOut = (emu s m).qOut + (if c.up = true then (1 : Int) else -1) * (c.head.getD c.size : Nat) ∧
      (emu t m).cur = some { c with head := none, left := c.left - 1 } ∧
      t = { s with emus := t.emus, wire := s.wire ++ [.emuEdge m (emu t m).qOut] } ∧ ∀ j, j ≠ m.val → emu t j = emu s j := by
  have hexec : exec (.emulationEdge m) s = .next (emit (setEmu s m (emuStepped s m c)) (.emuEdge m (emuOut s m c))) := by
    change execEmulationEdge m s = _
    unfold execEmulationEdge
    dsimp only
    rw [hcur]
    exact congrArg _ (if_pos (by simp [haux, hnet, hen, hleft]))
  have hself : emu (emit (setEmu s m (emuStepped s m c)) (.emuEdge m (emuOut s m c))) m = emuStepped s m c := emu_setEmu_self ..
  refine ⟨_, hexec, ?_, ?_, ?_, fun j hj => emu_setEmu_other _ _ _ hj⟩
  · rw [hself]
    simp only [emuStepped, emuOut]
    split <;> omega
  · rw [hself, emuStepped]
  · rw [hself]
    rfl

end

/-! ## The settled statement -/

/-- Levels of a counted step have changed. -/
theorem levelStep_unmoved (old new : BitVec 3) (h : old.toNat / 2 = new.toNat / 2) : levelStep 1 old new = some 0 := by
  revert old new
  decide

/-- What a transition does, by its step and its spacing (R299, R300). -/
theorem encoderTransition_counted_one {s : State} {n : Fin 8} {old new : BitVec 3} {at_ : W64} (haux : domOn s dAUX = true)
    (hty : encType s n = 1 ∨ encType s n = 2) (hspaced : WellSpaced s n at_)
    (hd : levelStep (encType s n) old new = some 1 ∨ levelStep (encType s n) old new = some (-1)) :
    ∃ t, exec (.encoderTransition n old new at_) s = .next t ∧ t.mem = s.mem ∧ SameRegsBut [(Reg.ENC_STAT_SECTOR n).addr] s t ∧
      (enc t n).tLast = edgeTime s n at_ ∧
      (enc t n).count = (enc s n).count +
        BitVec.ofInt 64 (if cfgOn s (Reg.ENC_CFG_INV n) = true then -((levelStep (encType s n) old new).getD 0) else (levelStep (encType s n) old new).getD 0) ∧
      ∀ m, m ≠ n.val → enc t m = enc s m := by
  obtain ⟨d, hd, hne⟩ : ∃ d : Int, levelStep (encType s n) old new = some d ∧ d ≠ 0 :=
    hd.elim (fun h => ⟨1, h, by decide⟩) fun h => ⟨-1, h, by decide⟩
  have hmoved : encType s n = 1 → old.toNat / 2 ≠ new.toNat / 2 := fun h1 hsame => by
    rw [h1, levelStep_unmoved old new hsame] at hd
    exact hne (Option.some.inj hd).symm
  rw [hd]
  exact encoderTransition_counted haux hty hmoved hspaced hd hne

/-- Settles O50: transitions and Z edges, samples, serial words and their time-outs, faults, the commands at CTRL, tracking samples, emulation edges. -/
theorem encodersAndEmulation : Obligations.EncodersAndEmulation := by
  unfold Obligations.EncodersAndEmulation
  intro s quad hall step
  refine ⟨fun n old new at_ => ?_, fun n => ?_, fun n w => ?_, fun n => ?_, fun m n w h => encCtrl_outcomes h, fun k a b => ?_, fun m => ?_⟩
  · intro ty f far d
    exact ⟨exec_encoderTransition_idle,
      fun haux hty hfar hd => encoderTransition_spaced haux (.inr hty) (fun h1 => absurd (hty.symm.trans h1) (by decide)) hfar hd,
      fun haux hty hfar hd => encoderTransition_counted_one haux hty hfar hd,
      fun haux hty hmoved hbad => encoderTransition_invalid haux hty hmoved hbad,
      exec_zEdge_idle, fun haux hzen hty => zEdge_latches haux hzen hty⟩
  · exact ⟨exec_encoderSample_off, fun haux hnet hty => encoderSample_counting haux hnet hty, fun haux hnet hty => exec_encoderSample_request haux hnet hty⟩
  · refine ⟨exec_serialWordComplete_idle, fun raw len hlen hpos hraw haux hawait hty => ?_, exec_serialTimeout_netOff, fun hnet hoff => serialTimeout_off hnet hoff,
      fun hnet haux hty hawait => exec_serialTimeout_idle hnet haux hty hawait, fun hnet haux hty hawait => serialTimeout_fails hnet haux hty hawait⟩
    obtain ⟨t, hexec, hended, hbad, hgood⟩ := serialWordComplete_ends (w := w) haux hawait hty
    obtain rfl : raw = wordPos s n w := by rw [hraw, hlen, wordPos]
    refine ⟨t, hexec, hended, hbad, fun h0 => ?_⟩
    obtain ⟨hprev, hrun, href, hcount⟩ := hgood h0
    exact ⟨hprev, hrun, href, fun hfirst => hcount.trans (extendCount_first hfirst),
      fun p d hp hmod hlo hhi => hcount.trans (extendCount_later hp hlen hpos hmod hlo hhi)⟩
  · exact ⟨exec_encFault_idle, encFault_logged⟩
  · exact ⟨exec_tracking_idle, fun h => tracking_outcomes h⟩
  · exact ⟨exec_emulationEdge_off, fun c hcur => ⟨exec_emulationEdge_spent hcur, emulationEdge_moves hcur⟩⟩

end Sys2Proof.Machine
end
